-- ==== Sys2Proof/Word.lean ====
section
/-! DEFINITION. The plain word types of the LM3640 block model and their narrowing. -/

namespace Sys2Proof

/-- One byte of a packet, a stored record or the Heartwood store (R9). -/
abbrev Byte := BitVec 8

/-- Reduce a natural number to `n` bits. -/
def wrapN (n v : Nat) : Nat := v % 2 ^ n

/-- Counters that the host reads as U32. -/
def u32 (v : Nat) : Nat := wrapN 32 v

/-- Saturate at a limit. -/
def satN (hi v : Nat) : Nat := if v ≤ hi then v else hi

/-- Two's complement reading of an `n`-bit pattern (types S16 and S32 of R326). -/
def toSigned (n v : Nat) : Int :=
  if v % 2 ^ n < 2 ^ (n - 1) then (v % 2 ^ n : Nat) else ((v % 2 ^ n : Nat) : Int) - (2 ^ n : Nat)

/-- Two's complement pattern of an integer in `n` bits. -/
def ofSigned (n : Nat) (v : Int) : Nat := (v % (2 ^ n : Nat)).toNat

/-- Clamp an integer to a symmetric range. -/
def clampI (lim v : Int) : Int := if v < -lim then -lim else if lim < v then lim else v

/-- Saturate an integer to the S32 range. -/
def satS32 (v : Int) : Int :=
  if v < -2147483648 then -2147483648 else if 2147483647 < v then 2147483647 else v

/-- Bit `b` of a word. -/
def bitAt (v b : Nat) : Bool := v / 2 ^ b % 2 == 1

/-- Bits `[lo + n − 1 : lo]` of a word. -/
def bitsAt (v lo n : Nat) : Nat := v / 2 ^ lo % 2 ^ n

/-- A flag placed at a bit position. -/
def flagAt (b : Bool) (pos : Nat) : Nat := if b then 2 ^ pos else 0

/-- A word with one bit set. -/
def setBit (v b : Nat) : Nat := if bitAt v b then v else v + 2 ^ b

/-- A word with one bit cleared. -/
def clrBit (v b : Nat) : Nat := if bitAt v b then v - 2 ^ b else v

/-- The word whose bit `i` is the `i`-th flag of a list. -/
def packFlags : List Bool → Nat
  | [] => 0
  | b :: r => (if b then 1 else 0) + 2 * packFlags r

end Sys2Proof
end

