-- ==== Sys2Proof/Syntax.lean ====
section
/-! DEFINITION. The commands of the LM3640: one constructor per row of the opcode table, with the fields a request carries
and, for events, what the world brings to the device (samples, measured quantities, outcomes of checks outside the model).
The shape of the operands is the model's (assumption 5). Reserved bytes of PARAMS are not carried: whatever they hold, the request is
served alike (assumption 85). -/

namespace Sys2Proof

/-- Where a request comes from and its reply goes (R347): the host interface, the network by source address and UDP port,
or the Lumdini console. -/
inductive Path where
  | host | net (addr port : Nat) | console
deriving DecidableEq, Repr

/-- The packet fields that every request shares (Table 14-1, R311). -/
structure Hdr where
  path : Path
  tag : Nat
  /-- FLAGS bit 6. -/
  bulk : Bool
  /-- FLAGS bit 5, more fragments. -/
  more : Bool
  /-- LENGTH of PARAMS as received. -/
  len : Nat
  /-- NODE 0xFFF received over the network (R283). -/
  bcast : Bool
  /-- A secured packet: its NONCE, and whether the GCM tag verifies under the path's key (R311). -/
  sec : Option (Nat × Bool)
deriving DecidableEq, Repr

/-- What one converter brings in the 40 µs between two common edges (R126, R464): the bits of its 24 MHz stream in MOD cycles 0 to 959,
cycle k in bit k, and the MOD cycles at which its input exceeds the clamp level (R76). -/
structure ConvIn where
  bits : Nat
  marks : List Nat
deriving DecidableEq, Repr

/-- The trigger fields of SNAPSHOT_ARM and SEQ_START (Table 5-5). -/
structure ArmIn where
  source : Nat
  index : Nat
  policy : Nat
  flags : Nat
  start : Nat
  periodMs : Nat
deriving DecidableEq, Repr

/-- A C37.118 command frame received on the command port (R243): its source address and UDP port, and its bytes from SYNC to CHK.
-/
structure PmuCmdIn where
  addr : Nat
  port : Nat
  bytes : List Byte
deriving DecidableEq, Repr

/-- A line of the console (R457): its characters without the CR or LF that ends it, and whether it overflowed the input buffer. -/
structure LineIn where
  bytes : List Byte
  overflowed : Bool
deriving DecidableEq, Repr

/-- A frame received on a port (R279, R288): its bytes from destination MAC to FCS, with its HSR tag if it carries one, the counter
at the MII instant of its start-of-frame delimiter in 2^-16 ns, and the signal quality at which the PHY received it. -/
structure FrameIn where
  bytes : List Byte
  rx : Nat
  sqi : Fin 8
deriving DecidableEq, Repr

/-- Where a HUSH comes in (Table 13-8): a frame on the host interface (see `directWrite`), or one received on a port. -/
inductive HushIn where
  | host (frame : List Byte) | network (port : Fin 2) (frame : FrameIn)
deriving DecidableEq, Repr

/-- Where a RESUME comes in (Table 13-8, R294): a frame on the host interface, or a packet over the network by the normal command path.
-/
inductive ResumeIn where
  | host (frame : List Byte) | network (h : Hdr)
deriving DecidableEq, Repr

/-- What the monitors of one tamper evaluation sense (Table 17-1): the levels of the balls TCOV, MCOV and MAG, and the lowest and
highest mV that VCORE and VDD33 have held for 5 ns since the one before. -/
structure TamperIn where
  balls : Nat
  vcore : Nat × Nat
  vdd33 : Nat × Nat
deriving DecidableEq, Repr

/-- What a clock detector measures in a window (R391): the departure of the mean frequency from nominal in 0.01 %, and the shortest
cycle in % of the nominal period. -/
structure DetIn where
  dev : Rat
  shortest : Rat
deriving DecidableEq, Repr

/-- What a clock detector measures of the injected cycles of 50 % and 200 % (R392), in % of the nominal period. -/
structure InjectIn where
  short : Rat
  long : Rat
deriving DecidableEq, Repr

/-- An owner signature (R406): the challenge it was made over and whether it verifies under the key that must verify it. -/
structure SigIn where
  challenge : List Byte
  valid : Bool
deriving DecidableEq, Repr

/-- Bits of a stored word that read inverted (R338): data bits 0 to 31, check bits 32 to 38. A stuck one outlasts a write of the
word; any other is gone once the word has taken new check bits (assumption 123). -/
structure Flip where
  word : Nat
  mask : Nat
  stuck : Bool
deriving DecidableEq, Repr

/-- What the scrub's next read brings (R359): the words that have been disturbed since its previous one, and whether the word
it reads fails at SCRUB_MARGIN though it passes a normal read. -/
structure ScrubIn where
  weak : Bool
  disturbed : List Flip
deriving DecidableEq, Repr

/-- The commands, in the order of the opcode table. -/
inductive Instr where
  /-- R368. First application of VBAT powers the always-on domain at stage 0, resets the calendar and sets OSF. -/
  | aonPowerUp
  /-- R368. An AON brown-out sets OSF, returns the calendar to its power-up values and erases the AON alarms. -/
  | aonBrownOut
  /-- R29. VAUX crosses its start threshold and the stage-1 power-up sequence begins, with strap EXT33 sampled. -/
  | vauxStartThreshold (ext33 testEn : Bool)
  /-- R29. VDD33 enters regulation, straps HSEL and REFSEL are sampled and the AON rail moves to VDD33. -/
  | vdd33Regulation (hsel refsel refinOk : Bool)
  /-- R29. VCORE enters regulation and the 24 MHz oscillator starts. -/
  | vcoreRegulation
  /-- R29. The crystal-health monitor reports the 24 MHz crystal stable. -/
  | crystalStable
  /-- R30. The root PLL locks: the time counter is loaded from the RTC, the bucks move to root dividers, and the
  loader and boot ROM start. -/
  | pllLock
  /-- R35. The hardware loader has chosen a Pioneer record copy and loaded the Pioneer totals, trims, PGAs, phase
  delays and stage-1 biquads. -/
  | loaderComplete
  /-- R399. After the loader and before any key is read, the remaining Clearing steps of a pending Clearing are run. -/
  | clearPendingResume
  /-- R29. The modulators start at the next 40 µs instant of the time counter. -/
  | modulatorStart
  /-- R31. The first settled P sample arrives; Pioneer accumulates, CF outputs and the display run, and the device
  enters stage 1. -/
  | firstSettledSample
  /-- R38. The boot ROM starts a verified Warden image; the device enters stage 2 and the Warden logs START, loads the
  ledger, resolves torn pages and brings up the ports. -/
  | wardenStart (activeOk otherOk : Bool)
  /-- R39. The Warden starts the DSP microcode, with energy, power-quality and phasor kernels, full shaping filters
  and the coppice. -/
  | dspStart (activeOk otherOk : Bool)
  /-- R27. Canopy firmware reports ready to the Warden and the device enters stage 3. -/
  | canopyReady (activeOk otherOk : Bool)
  /-- R25. At a block boundary CF outputs and display pass to Pioneer and Canopy stops and restarts, with the device
  at stage 2. -/
  | canopyRestart
  /-- R412. The back-off delay after repeated unplanned Canopy restarts expires and the restart proceeds. -/
  | canopyBackoffExpiry
  /-- R49. VAUX stays below PFAIL_MV for the filter time: the power-fail bit sets, PFAIL_N goes low and the power-fail
  checkpoint starts. -/
  | pfailAssert
  /-- R50. While PFAIL remains asserted, the power-fail checkpoint repeats every 1 ms. -/
  | powerFailCheckpoint
  /-- R51. VAUX returns above the release level before the trip: the power-fail bit clears and checkpoints stop
  repeating. -/
  | pfailRelease
  /-- R52. The VCORE supervisor trips: every domain but AON stops, AON switches to VBAT and the device is at stage 0. -/
  | vcoreTrip
  /-- R441. The restart delay after a VCORE trip expires and a pending VAUX rise may start the device. -/
  | restartDelayExpiry
  /-- R432. A buck limits its inductor current and sets its bit in BUCK_STATUS. -/
  | buckCurrentLimit (vcore : Bool)
  /-- R494. TEST_EN driven low with VDD33 present starts the stage-1 sequence at its VCORE row. -/
  | testEnRelease
  /-- R346. A ledger checkpoint writes its CRC and COMPLETE and becomes the last complete checkpoint. -/
  | checkpointComplete
  /-- R470. A 40 µs DSP frame reads the P and W samples, runs the energy kernels, phasor baseband, coppice sums, queue
  and CF transfers. -/
  | dspFrame (frames : List (List ConvIn))
  /-- R191. A CF pulse ends after its width. -/
  | cfPulseEnd (k : Fin 8)
  /-- R78. A converter's pre-clamp output holds one code for 250 consecutive P samples and is STUCK. -/
  | stuckDetected (conv : Fin 40)
  /-- R75. A modulator overloaded beyond 125 % of full scale is reset and the channel yields unsettled samples. -/
  | modulatorOverloadReset (conv : Fin 40)
  /-- R180. A 200 ms block boundary closes the block in both engines, latches registers and status, and applies
  changes due at it. -/
  | blockBoundary
  /-- R187. A demand sub-interval ends; demand values are formed and maximum demand judged. -/
  | demandSubintervalEnd
  /-- R68. The comparison converter forms a 1 s reference ratio result and updates REF_DEV. -/
  | refComparisonResult (ratio : Nat)
  /-- R70. 60 s after the first stage 2 with REFIN in range and no baseline, the baseline is captured and stored. -/
  | refBaselineCapture
  /-- R70. A write of 1 to REF_REBASE captures a new baseline from the next result. -/
  | refRebase (h : Hdr) (value : Nat)
  /-- R67. REFIN leaves its range while in use: REFIN_BAD sets, REFIN_FAULT is logged and REF_DISAGREE raised. -/
  | refinOutOfRange
  /-- R81. A coppice slot begins and the spare connects to the slot's channel, or starts its own rest in slot 9. -/
  | slotStart (stand : Fin 4)
  /-- R88. At the end of the first overlap the match is judged and the channel is spliced to the spare or the slot is
  skipped. -/
  | firstOverlapEnd (stand : Fin 4)
  /-- R92. The resting pair's source moves from short to +0.5 and then -0.5 full scale of the test DAC and through the
  linearity points. -/
  | restSourceSwitch (stand : Fin 4)
  /-- R93. The acceptance check passes and loads new trims into the resting pair, or condemns it. -/
  | restAcceptance (stand : Fin 4)
  /-- R89. The recalibrated home pair returns to its input and the second overlap begins. -/
  | homeReturn (stand : Fin 4)
  /-- R89. The channel is spliced back to its home pair at the end of the slot. -/
  | spliceBack (stand : Fin 4)
  /-- R83. After its own rest the spare connects to the channel of the next slot 0 as a shadow. -/
  | preshadowConnect (stand : Fin 4)
  /-- R102. COPPICE_CONTROL QUERY reports the stand blocks. -/
  | coppiceQuery (h : Hdr) (stand : Nat) (badAction : Bool)
  /-- R102. COPPICE_CONTROL PAUSE stops rotation at once or at the next splice back. -/
  | coppicePause (h : Hdr) (stand : Nat)
  /-- R102. COPPICE_CONTROL ROTATE unpins and resumes rotation at the next slot. -/
  | coppiceRotate (h : Hdr) (stand : Nat)
  /-- R102. COPPICE_CONTROL PIN makes the spare carry TARGET permanently. -/
  | coppicePin (h : Hdr) (stand target : Nat)
  /-- R102. COPPICE_CONTROL UNPIN splices back and leaves the stand PAUSED. -/
  | coppiceUnpin (h : Hdr) (stand : Nat)
  /-- R102. COPPICE_CONTROL SHADOW moves the spare of a PAUSED stand to TARGET. -/
  | coppiceShadow (h : Hdr) (stand target : Nat)
  /-- R101. COPPICE_CONTROL REQUALIFY starts a full rest with linearity check on a condemned converter. -/
  | coppiceRequalify (h : Hdr) (stand target : Nat)
  /-- R101. The requalification rest ends and clears the condemnation or leaves it. -/
  | requalifyResult (stand : Fin 4)
  /-- R111. PATH_CHECK with MODE CHECK queues a path check of a channel. -/
  | pathCheck (h : Hdr) (chan : Nat) (badMode : Bool)
  /-- R124. PATH_CHECK with MODE BASELINE queues a check whose clean result is stored as the baseline. -/
  | pathCheckBaseline (h : Hdr) (chan : Nat)
  /-- R110. A pending or due path check starts in a free test-DAC window of its stand. -/
  | pathCheckStart (stand : Fin 4)
  /-- R108. After 0.4 s of probe the impedance is computed and a verdict is given. -/
  | pathCheckComplete (stand : Fin 4)
  /-- R119. SNAPSHOT_ARM arms a sequencer with a snapshot job and trigger, or disarms it. -/
  | snapshotArm (h : Hdr) (seq : Nat) (arm : ArmIn)
  /-- R119. SEQ_START arms a sequencer with a check sequence and trigger. -/
  | seqStart (h : Hdr) (seq : Nat) (arm : ArmIn) (chans : List Nat)
  /-- R115. A sequencer TIME trigger instant arrives. -/
  | sequencerTimeTick (seq : Fin 4)
  /-- R121. A snapshot's marker and frame entries are written to the queue together, or dropped. -/
  | snapshotWrite (seq : Fin 4)
  /-- R145. FILTER_STOP stops every filter instance of a channel and cancels swaps. -/
  | filterStop (h : Hdr) (chan : Nat)
  /-- R142. FILTER_LOAD writes bank A of a stopped filter or makes a load pending for the channel's rest. -/
  | filterLoad (h : Hdr) (chan : Nat) (keep : Bool) (set : List Byte)
  /-- R145. FILTER_START restarts a stopped filter from a cleared state. -/
  | filterStart (h : Hdr) (chan : Nat)
  /-- R147. BANK_WRITE writes a coefficient set to bank B while the filter runs. -/
  | bankWrite (h : Hdr) (chan : Nat) (set : List Byte)
  /-- R149. BANK_SWAP starts priming the inactive bank or holds the request. -/
  | bankSwap (h : Hdr) (chan prime fade : Nat)
  /-- R148. PRIME samples have passed and the crossfade to the incoming bank begins. -/
  | bankSwapFadeStart (chan : Fin 36)
  /-- R148. The fade ends, the incoming bank alone is active and any held swap starts. -/
  | bankSwapEnd (chan : Fin 36)
  /-- R501. QUEUE_STREAM start begins continuous queue output. -/
  | queueStreamStart (h : Hdr) (push : Nat) (badAction : Bool)
  /-- R501. QUEUE_STREAM stop ends continuous queue output. -/
  | queueStreamStop (h : Hdr) (push : Nat)
  /-- R163. The entries of one P instant are written to the queue in order, or dropped when there is no room. -/
  | queueEntryWrite
  /-- R165. QUEUE_READ returns whole entries and acknowledges a previous reply. -/
  | queueRead (h : Hdr) (ackSeq maxWords : Nat)
  /-- R166. A queue-push packet of whole entries is sent over the ring. -/
  | queuePush
  /-- R169. RECORDER_CONTROL QUERY reports a capture unit's state. -/
  | recorderQuery (h : Hdr) (unit : Nat) (badAction : Bool)
  /-- R169. RECORDER_CONTROL ARM arms a capture unit. -/
  | recorderArm (h : Hdr) (unit : Nat)
  /-- R169. RECORDER_CONTROL STOP stops a capture unit and keeps held captures. -/
  | recorderStop (h : Hdr) (unit : Nat)
  /-- R169. RECORDER_CONTROL TRIGGER triggers a capture at the instant of acceptance. -/
  | recorderTrigger (h : Hdr) (unit : Nat)
  /-- R169. A trigger source delivers a trigger to an armed capture unit, which numbers the capture or counts a
  retrigger or miss. -/
  | captureTrigger (unit : Fin 4)
  /-- R169. A capture completes its POST instants, writes CAPTURE_DONE and arms the next free slot. -/
  | captureDone (unit : Fin 4)
  /-- R171. CAPTURE_READ returns bytes of a held capture. -/
  | captureRead (h : Hdr) (unit no offset maxBytes : Nat)
  /-- R171. CAPTURE_RELEASE frees held captures. -/
  | captureRelease (h : Hdr) (unit no : Nat)
  /-- R171. A capture not read for 10 s stops counting as being read. -/
  | captureReadTimeout (unit : Fin 4) (no : Nat)
  /-- R200. ENERGY_READ returns block status and registers latched at one block boundary. -/
  | energyRead (h : Hdr) (source level first count mask : Nat)
  /-- R201. DEMAND_RESET clears maximum demand at the next block boundary and logs it. -/
  | demandReset (h : Hdr) (circuit : Nat)
  /-- R192. CF_TEST start puts named outputs into calibration test mode. -/
  | cfTestStart (h : Hdr) (mask durationS : Nat) (badAction : Bool)
  /-- R192. CF_TEST stop ends test mode and rescales the residue. -/
  | cfTestStop (h : Hdr)
  /-- R192. Test mode ends at its duration or CF_TEST_MAX_S. -/
  | cfTestExpiry
  /-- R209. A new Urms(½) value is formed every half cycle and dips, swells, interruptions, RVC and deviations are
  judged. -/
  | urmsHalfCycle (bus : Fin 2)
  /-- R212. An event record is written to P4 with OPEN set, or completed with OPEN cleared. -/
  | eventRecordWrite
  /-- R222. An event record still OPEN from before power-down is closed with POWER_LOSS. -/
  | openEventClose
  /-- R206. A 10/12-cycle window ends and its magnitudes, harmonics, unbalance and flags are computed. -/
  | pqWindowEnd (bus : Fin 2)
  /-- R207. A 150/180-cycle interval closes its aggregates and mains signalling values. -/
  | pqAggregateEnd (bus : Fin 2)
  /-- R208. A clock-aligned 10 s frequency interval ends. -/
  | frequencyIntervalEnd (bus : Fin 2)
  /-- R217. A 3 s supraharmonic aggregate closes. -/
  | supra3sEnd
  /-- R207. A 10-minute boundary closes 10-min aggregates and Pst and starts a new window exactly at it. -/
  | tenMinuteBoundary
  /-- R204. A 2-hour boundary closes the 2-hour aggregates. -/
  | twoHourBoundary
  /-- R223. One archive record per bus is written to P4 after a 10-minute boundary. -/
  | archiveWrite
  /-- R225. PQ_READ returns values of one interval. -/
  | pqRead (h : Hdr) (kind level chan first count : Nat)
  /-- R226. PQ_EVENT_READ returns event records from FROM_ID. -/
  | pqEventRead (h : Hdr) (fromId count : Nat)
  /-- R226. PQ_ARCHIVE_READ returns archive records from FROM. -/
  | pqArchiveRead (h : Hdr) (bus count fromT : Nat)
  /-- R235. The report for a reporting instant is completed and its X records and data frame are handed on. -/
  | phasorReport
  /-- R285. A phasor frame not admitted within 1/Fs is dropped and counted in FRAMES_SKIPPED. -/
  | phasorFrameDrop
  /-- R244. A committed PMU change takes effect at its reporting instant and CFGCNT increments. -/
  | pmuConfigTakeEffect
  /-- R243. A C37.118 data-off command frame stops network output. -/
  | pmuCmdDataOff (cmd : PmuCmdIn)
  /-- R243. A C37.118 data-on command frame acts as PMU_CONTROL start. -/
  | pmuCmdDataOn (cmd : PmuCmdIn)
  /-- R243. A C37.118 send-CFG-2 command frame sends CFG-2 to its source. -/
  | pmuCmdSendCfg2 (cmd : PmuCmdIn)
  /-- R243. Any other command frame is ignored and counted in CMD_IGNORED. -/
  | pmuCmdIgnored (cmd : PmuCmdIn)
  /-- R247. PMU_READ returns the latest complete report. -/
  | pmuRead (h : Hdr) (first count : Nat)
  /-- R247. PMU_CONTROL start begins network phasor output, at once or at the next stage 4 entry. -/
  | pmuStart (h : Hdr) (badAction : Bool)
  /-- R247. PMU_CONTROL stop ends network phasor output. -/
  | pmuStop (h : Hdr)
  /-- R247. PMU_CONTROL send CFG-2 sends CFG-2 to the destination. -/
  | pmuSendCfg2 (h : Hdr)
  /-- R290. A PTP Sync is received, forwarded by the transparent clock and, for one-step, yields an offset. -/
  | ptpSync (port : Fin 2) (frame : FrameIn)
  /-- R290. A PTP Follow_Up is received, corrected and forwarded, and completes a two-step offset. -/
  | ptpFollowUp (port : Fin 2) (frame : FrameIn)
  /-- R252. A PTP Announce is received and forwarded, and feeds master selection, UTC offset and leap flags. -/
  | ptpAnnounce (port : Fin 2) (frame : FrameIn)
  /-- R289. Each port measures its peer delay once per second. -/
  | peerDelayRequest (port : Fin 2)
  /-- R289. A peer-delay response updates the port's peer delay and its validity. -/
  | peerDelayResponse (port : Fin 2) (frame : FrameIn)
  /-- R258. No offset arrives for SOURCE_TIMEOUT_MS and the servo enters HOLDOVER. -/
  | sourceTimeout
  /-- R258. HOLDOVER_LIMIT_S passes since the last accepted offset and the servo enters FREE. -/
  | holdoverLimit
  /-- R251. At the end of the last UTC second of the day UTC_OFFSET changes by a pending leap and OCCURRED sets. -/
  | leapSecond
  /-- R251. OCCURRED clears 24 h after a leap second. -/
  | leapOccurredClear
  /-- R255. The Warden stores the servo rate hourly while LOCKED. -/
  | lastLockedRateStore
  /-- R274. TIME_GET returns the time counter and servo state. -/
  | timeGet (h : Hdr)
  /-- R262. TIME_SET sets the counter or its whole seconds as an accepted step. -/
  | timeSet (h : Hdr) (time : Nat)
  /-- R252. TIME_OFFSET delivers a host offset to the servo. -/
  | timeOffset (h : Hdr) (offset : Int) (meas gmId : Nat)
  /-- R260. TIME_ACCEPT_STEP applies the latest refused offset as a step. -/
  | timeAcceptStep (h : Hdr)
  /-- R274. TXTS_READ removes and returns host TX timestamp entries. -/
  | txtsRead (h : Hdr) (max : Nat)
  /-- R267. BLAZE_ARM with ACTION arm programs a blaze output. -/
  | blazeArm (h : Hdr) (index : Nat) (badAction : Bool) (flags start period width count : Nat)
  /-- R269. BLAZE_ARM with ACTION disarm stops a blaze output. -/
  | blazeDisarm (h : Hdr) (index flags start : Nat)
  /-- R267. A blaze output starts a pulse at its programmed instant. -/
  | blazeEdge (k : Fin 8)
  /-- R267. A blaze pulse ends after its width, and DONE sets after COUNT pulses. -/
  | blazePulseEnd (k : Fin 8)
  /-- R271. An edge at a counter value on a NOTCH input, whose new level then holds for `held` ns: a selected one is captured into
  its FIFO and acts as trigger and PPS offset source. -/
  | notchCapture (k : Fin 8) (time : Nat) (rising : Bool) (held : Nat)
  /-- R274. NOTCH_READ removes and returns captures of a notch. -/
  | notchRead (h : Hdr) (index max : Nat)
  /-- R284. An egress queue sends its next frame when the port is free. -/
  | frameTransmit (port : Fin 2)
  /-- R277. A port reports link up and logs it. -/
  | linkUp (port : Fin 2) (high : Bool) (sqi : Fin 8)
  /-- R277. A port reports link down, logs it and invalidates its peer delay. -/
  | linkDown (port : Fin 2)
  /-- R281. An HSR supervision frame is sent on both ports every 2 s. -/
  | supervisionSend
  /-- R281. The own supervision frame fails to return on a port for three intervals and RING_OPEN sets. -/
  | ringOpen
  /-- R279. A frame received on a port is delivered, forwarded or discarded under the HSR rules. -/
  | hsrFrameReceive (port : Fin 2) (frame : FrameIn)
  /-- R280. A discard-table entry is cleared after DUP_HOLD_MS. -/
  | discardEntryExpiry
  /-- R293. NET_TX sends a host Ethernet frame through the MAC. -/
  | netTx (h : Hdr) (ports flags id : Nat) (frame : List Byte)
  /-- R293. NET_RX_READ returns one held received frame. -/
  | netRxRead (h : Hdr)
  /-- R283. The reply to a broadcast IDENTIFY is sent after NODE × 250 µs. -/
  | identifyBroadcastReply
  /-- R313. HUSH, by packet, direct write or network, stops bulk and own network output. -/
  | hush (via : HushIn)
  /-- R314. RESUME ends the hushed state on every path. -/
  | resume (via : ResumeIn)
  /-- R300. A direct write to a snap word without a row of its own is checked and applied or refused. A frame on the host interface is
  its bytes: on SPI those on HSDI while HCS_N is low, header first; on the host UART those before the 0x00 delimiter. -/
  | directWrite (frame : List Byte)
  /-- R317. A read of the time or calendar group latches or releases the group. -/
  | snapGroupLatch (frame : List Byte)
  /-- R317. A group latch is released 2 ms after latching. -/
  | snapLatchTimeout (calendar : Bool)
  /-- R371. A write to MIN, HOUR, DAY, MONTH or YEAR is staged. -/
  | calendarStageWrite (frame : List Byte)
  /-- R371. A write to SEC commits the staged and running calendar fields as one value. -/
  | calendarSecCommit (frame : List Byte)
  /-- R372. Staged calendar fields are discarded 10 s after the last staging write. -/
  | calendarStagingDiscard
  /-- R335. A packet with an opcode not accepted on its lane is answered UNKNOWN_OPCODE. -/
  | unknownOpcode (h : Hdr) (opcode : Nat)
  /-- R333. NOP echoes its PARAMS. -/
  | nop (h : Hdr) (params : List Byte)
  /-- R333. IDENTIFY returns the device identity, versions and stage. -/
  | identify (h : Hdr)
  /-- R333. GET_PARAM returns one member's value of the selected kind. -/
  | getParam (h : Hdr) (id which : Nat)
  /-- R327. SET_PARAM stages one member in the pending set. -/
  | setParam (h : Hdr) (id : Nat) (value : List Byte)
  /-- R333. GET_PARAMS returns a list or range of members. -/
  | getParams (h : Hdr) (form which count first : Nat) (ids : List Nat)
  /-- R333. SET_PARAMS checks all items and stages them together. -/
  | setParams (h : Hdr) (count : Nat) (items : List (Nat × List Byte))
  /-- R328. COMMIT_PARAMS checks the whole pending set and stores it, or refuses it whole. -/
  | commitParams (h : Hdr)
  /-- R328. The OK reply of a commit enters the outbound stream, which is the instant of commit. -/
  | commit (h : Hdr)
  /-- R332. DEFAULTS stages reset values of configuration, and with SCOPE 1 calibration. -/
  | defaults (h : Hdr) (scope : Nat)
  /-- R333. DISCARD_PARAMS empties the pending set. -/
  | discardParams (h : Hdr)
  /-- R28. GET_STAGE returns the STAGE word. -/
  | getStage (h : Hdr)
  /-- R334. SOFT_RESTART schedules a Canopy restart at the next block boundary. -/
  | softRestart (h : Hdr) (reason : Nat)
  /-- R351. NV_READ reads bytes of a partition. -/
  | nvRead (h : Hdr) (part page offset count : Nat)
  /-- R352. NV_WRITE writes bytes to one page of P5 with torn-page protection. -/
  | nvWrite (h : Hdr) (part page offset : Nat) (data : List Byte) (pfailAfter : Option Nat)
  /-- R349. SESSION_OPEN checks a password and opens a read or write session on a path. -/
  | sessionOpen (h : Hdr) (part kind password : Nat)
  /-- R347. SESSION_CLOSE closes sessions. -/
  | sessionClose (h : Hdr) (part kind : Nat)
  /-- R350. PASSWORD_SET changes one password of a partition; `overtaken` says that a Clearing starts while it is in progress
  (R362). -/
  | passwordSet (h : Hdr) (part kind new : Nat) (overtaken : Bool)
  /-- R355. NV_STATUS query lists torn pages and NV_FLAGS. -/
  | nvStatusQuery (h : Hdr) (badAction : Bool)
  /-- R355. NV_STATUS acknowledge removes P5 pages from the TORN list. -/
  | nvStatusAcknowledge (h : Hdr) (part page : Nat)
  /-- R347. A session closes after SESSION_TIMEOUT_S without an authorised request. -/
  | sessionTimeout (path : Path) (part : Nat) (write : Bool)
  /-- R349. A password lockout ends and SESSION_OPEN is checked again. -/
  | lockoutExpiry (part : Fin 6)
  /-- R359. The scrub reads the next word at margin and refreshes or logs it. -/
  | scrubRead (outcome : ScrubIn)
  /-- R370. RTC_GET returns the calendar and time counter at one tick edge. -/
  | rtcGet (h : Hdr)
  /-- R373. RTC_SET commits all calendar fields at once. -/
  | rtcSet (h : Hdr) (flags year month day hour min sec : Nat)
  /-- R369. A write of 1 to OSF_CLEAR clears OSF if the calendar has been set. -/
  | osfClear (h : Hdr) (value : Nat)
  /-- R382. A write of 1 to AL_ACK clears FIRED, SKIPPED and MISSED of an alarm. -/
  | alAck (h : Hdr) (alarm : Fin 4) (value : Nat)
  /-- R378. At the start of a second an enabled alarm matches and acts with its responses. -/
  | alarmMatch
  /-- R381. WAKE_N is released WAKE_HOLD_S after the latest wake match. -/
  | wakeHoldExpiry
  /-- R368. 2 ms without a 32.768 kHz edge sets OSF and the calendar stands still. -/
  | clock32Stall
  /-- R375. Once per second the Warden measures calendar error against UTC and steps or slews the calendar. -/
  | rtcFollowMeasurement
  /-- R376. After 1,024 s of following the rate error is added to TRIM_LEARNED. -/
  | trimLearning
  /-- R376. TRIM_LEARNED is stored in P0 hourly. -/
  | trimLearnedStore
  /-- R395. The ladder evaluates all sources, raises coincident ones and carries out their actions highest first.
  Bits 0 to 2 of `conditions` are the levels of balls TCOV, MCOV and MAG (INPUT_CFG), bits 5, 7 and 8 say that the conditions of
  those slots hold. -/
  | tamperEvaluation (x : TamperIn)
  /-- R390. A source condition has held for SRC_PERSIST_MS and the source is raised. -/
  | tamperPersistExpiry (slot : Fin 32)
  /-- R403. The Clearing erases the wrapped key copy, clears passwords and closes sessions, then enables the
  triggering access. -/
  | clearing
  /-- R391. A clock detector window ends and reports HIGH, LOW or SHORT faults. -/
  | clockMonitorWindow (clock : Fin 3) (d a : DetIn)
  /-- R392. Every 10 s test cycles are injected into the clock detectors and their answers judged. -/
  | monitorInjection (d a : InjectIn)
  /-- R400. The key store integrity check runs hourly and restores from the wrapped copy on failure. -/
  | keystoreCheck (ok : Bool)
  /-- R402. A TRNG health test fails; output stops and TRNG_HEALTH is raised. -/
  | trngHealthFail
  /-- R402. A TRNG restart is attempted every 10 s after a failure. -/
  | trngRestart (ok : Bool)
  /-- R405. An instruction latched at Update-IR acts, or raises DEBUG_OPEN and waits for the Clearing. -/
  | jtagUpdateIr (ir : BitVec 5)
  /-- R405. TRST_N or Test-Logic-Reset returns the instruction register to IDCODE. -/
  | jtagReset
  /-- R390. TAMPER_READ returns the ladder level, sources and challenge. -/
  | tamperRead (h : Hdr)
  /-- R398. TAMPER_ACK unlatches named sources that are no longer active, with a signature where required. -/
  | tamperAck (h : Hdr) (mask : Nat) (signature : Option SigIn)
  /-- R408. KEY_AGREE establishes a session key for the requesting path. -/
  | keyAgree (h : Hdr) (hostPub : List Byte) (keyLen : Nat)
  /-- R407. PROVISION GENERATE makes a new identity key pair. -/
  | provisionGenerate (h : Hdr) (badPhase : Bool)
  /-- R407. PROVISION INSTALL decrypts and installs passwords and optionally the owner key. -/
  | provisionInstall (h : Hdr) (params : List Byte) (decrypted : Option (List Nat)) (signature : SigIn)
  /-- R410. No Canopy heartbeat for WDT_CANOPY_MS causes an unplanned Canopy restart. -/
  | canopyWatchdog (core : Fin 2)
  /-- R411. WDT_DSP_FRAMES frames without completion cause a DSP reload. -/
  | dspWatchdog
  /-- R426. The Warden timer expires and the Warden restarts from the boot ROM. -/
  | wardenWatchdog
  /-- R426. The restarted Warden runs again and logs WARDEN_RESTART. -/
  | wardenRestartComplete
  /-- R426. No Warden heartbeat reaches Canopy within 150 ms and the boot ROM is directed to the previous region. -/
  | wardenHeartbeatTimeout
  /-- R413. The Warden samples a supply, temperature or crystal sensor against its window. -/
  | sensorSample (sensor : Fin 12) (value : Nat)
  /-- R416. The log client writes a buffered entry to P3. -/
  | logEntryWrite
  /-- R417. LOG_READ returns valid log entries from FROM_SEQ. -/
  | logRead (h : Hdr) (fromSeq count : Nat)
  /-- R422. UPDATE_BEGIN checks a package header and opens an update. -/
  | updateBegin (h : Hdr) (header : List Byte)
  /-- R422. Erasing of the inactive region completes and the update enters RECEIVING. -/
  | updateEraseDone
  /-- R422. UPDATE_DATA writes payload bytes at NEXT_OFFSET. -/
  | updateData (h : Hdr) (params : List Byte)
  /-- R422. UPDATE_FINISH with ACTION 0 verifies and waits for the safe point. -/
  | updateActivate (h : Hdr) (badAction sigOk : Bool)
  /-- R419. UPDATE_FINISH with ACTION 1 verifies and stops at VERIFIED. -/
  | updateVerify (h : Hdr) (sigOk : Bool)
  /-- R424. UPDATE_FINISH with ACTION 2 aborts an update not yet in TRIAL. -/
  | updateAbort (h : Hdr)
  /-- R422. UPDATE_STATUS returns the update state and bank states. -/
  | updateStatus (h : Hdr)
  /-- R422. At the kind's safe point the region is marked TRIAL and the kind switches. -/
  | updateSafePoint
  /-- R423. Canopy does not report ready within 400 ms of a switch and the trial fails. -/
  | trialReadyTimeout
  /-- R423. 60 s of trial pass without failure; the region becomes GOOD and ROLLBACK may advance. -/
  | updateTrialEnd
  /-- R428. TRANSPLANT_EXPORT PREPARE requests a package at the next block boundary. -/
  | transplantPrepare (h : Hdr) (badAction : Bool) (destId : Nat) (destPub : List Byte) (signature : SigIn)
  /-- R428. At Bx the source builds the transplant package and logs TRANSPLANT_EXPORTED. -/
  | transplantPackageBuild
  /-- R428. TRANSPLANT_EXPORT READ returns a piece of the package. -/
  | transplantRead (h : Hdr) (offset maxBytes : Nat)
  /-- R428. TRANSPLANT_EXPORT DISCARD erases the held package. -/
  | transplantDiscard (h : Hdr)
  /-- R429. TRANSPLANT_IMPORT verifies a package for application at the next block boundary. -/
  | transplantImport (h : Hdr) (params : List Byte) (body : Option (List Byte)) (signature : SigIn) (srcSigOk : Bool)
  /-- R429. At Bi the replacement logs replaced registers, sets registers from the package and commits its
  configuration. -/
  | transplantApply
  /-- R445. POWER_STATUS returns supply readings and power-fail history. -/
  | powerStatus (h : Hdr)
  /-- R451. DISPLAY_CONTROL query returns DISPLAY_STATE. -/
  | displayQuery (h : Hdr) (badAction : Bool) (item : Nat)
  /-- R451. DISPLAY_CONTROL shows an item and holds it for HOLD_S. -/
  | displayShowItem (h : Hdr) (item : Nat)
  /-- R451. DISPLAY_CONTROL resumes scrolling. -/
  | displayResumeScroll (h : Hdr) (item : Nat)
  /-- R453. A segment test lights every segment for 5 s. -/
  | segmentTest (h : Hdr) (item : Nat)
  /-- R453. The segment test ends after 5 s. -/
  | segmentTestEnd
  /-- R451. After SCROLL_S the display moves to the next scrolled item. -/
  | displayScroll
  /-- R451. HOLD_S passes without a key and scrolling resumes. -/
  | displayHoldExpiry
  /-- R452. A key press is detected and enters the key FIFO and acts by its function. -/
  | keyPress (key : Fin 8)
  /-- R452. A key release is detected and enters the key FIFO. -/
  | keyRelease (key : Fin 8)
  /-- R453. A press held for 2 s is a long press, which starts a segment test on a TEST key. -/
  | keyLongPress (key : Fin 8)
  /-- R453. KEY_READ returns key events. -/
  | keyRead (h : Hdr) (max : Nat)
  /-- R456. An optical probe or service cable is detected and may take the console. -/
  | consoleAttach (optical : Bool)
  /-- R456. The console path detaches: sessions close, lines are discarded and forced outputs released. -/
  | consoleDetach (optical : Bool)
  /-- R458. Console command status shows device state. -/
  | consoleStatus (line : LineIn)
  /-- R458. Console command energy shows a circuit's registers and Pioneer totals. -/
  | consoleEnergy (line : LineIn)
  /-- R458. Console command rms shows RMS_WIN values. -/
  | consoleRms (line : LineIn)
  /-- R458. Console command supply shows supplies, temperatures and hold-up. -/
  | consoleSupply (line : LineIn)
  /-- R458. Console command log shows the latest log entries. -/
  | consoleLog (line : LineIn)
  /-- R459. TEST_TDAC on drives TDAC_OUT to a DC level. -/
  | testTdacOn (h : Hdr) (badAction : Bool) (code durationS : Nat)
  /-- R459. TEST_TDAC off sets TDAC_OUT to high impedance. -/
  | testTdacOff (h : Hdr) (code durationS : Nat)
  /-- R459. A TDAC_OUT level ends at DURATION_S or TEST_MAX_S. -/
  | tdacLevelExpiry
  /-- R460. TEST_OUTPUT forces a ball low or high. -/
  | testOutputForce (h : Hdr) (output level durationS : Nat)
  /-- R460. TEST_OUTPUT release ends a force. -/
  | testOutputRelease (h : Hdr) (output durationS : Nat)
  /-- R460. A force ends at DURATION_S or TEST_MAX_S. -/
  | testOutputExpiry (output : Fin 20)
  /-- R301. The host clocks an SPI packet frame, exchanging headers at the falling edge of HCS_N and taking D bytes of
  one outbound lane, with unclocked bytes kept at the head of their stream. -/
  | spiPacketFrame (frame : List Byte)
  /-- R307. The host UART finishes sending one frame and starts the next by the precedence direct, control, bulk. -/
  | uartFrameTransmit
  /-- R377. The AON calendar applies a pending leap second at 23:59:59 of the last UTC day of the month, doubling the
  second or jumping over it, with alarm adjustment rules for leap59. -/
  | calendarLeapSecond
  /-- R365. After 2199-12-31 23:59:59 the calendar continues at its power-up values and OSF sets. -/
  | calendarRangeEnd
  /-- R368. Edges return on the 32.768 kHz clock after a stall and the calendar counts on from where it stood. -/
  | clock32Resume
  /-- R380. 60 s after stage 3 entry with no sequencer of source ALARM and matching INDEX armed, the deferred SEQ
  response of the alarm counts as missed. -/
  | deferredSeqExpiry (alarm : Fin 4)
  /-- R322. The owning node gives no answer within 100 ms, the interpreter replies INTERNAL_FAULT and the Warden logs
  the opcode, TAG and owner. -/
  | ownerAnswerTimeout (h : Hdr) (opcode owner : Nat)
  /-- R441. After 10 s at stage 2 or above the restart delay returns to 1 ms. -/
  | restartDelayReset
  /-- R412. After 10 min without an unplanned Canopy restart the restart count used for back-off resets. -/
  | canopyRestartCountReset
  /-- R278. In LINE mode a learned destination ages out of the 256-entry learning table after 300 s, so own frames to
  it go on both ports again. -/
  | learningTableAgeing
  /-- R285. A waiting own priority-6 or priority-0 frame is admitted to an egress queue once the token bucket and the
  reserve limiter allow it. -/
  | ownFrameAdmission
deriving DecidableEq, Repr

end Sys2Proof
end

