-- ==== Sys2Proof/Decode.lean ====
section
/-! DEFINITION. The commands that the opcode table's bits spell: the table of the LM3640 gives no row any bits, so no word spells a
command (assumption 1). -/

namespace Sys2Proof

/-- The command that a word spells by the table's bits: none. -/
def decodeTableWord (_nbits _w : Nat) : Option Instr := none

end Sys2Proof
end

