-- ==== Sys2Proof/Config.lean ====
section
/-! DEFINITION. What one device fixes at production (OTP and the factory record of R421) and the free values: constants
without a body, so that no proof can see them. Each is named in the assumption log. -/

namespace Sys2Proof.Config

/-- A free value: what the machine produces where the spec gives the step but not the value (assumption 2). -/
opaque freeNat : Nat → Nat

/-- One byte of TRNG output (R402, R406): the spec fixes no value (assumption 2). -/
opaque freeByte : Nat → Sys2Proof.Byte

/-- A free binary32 pattern (assumption 2). -/
opaque freeF32 : Nat → Nat

/-- A free signed quantity (assumption 2). -/
opaque freeInt : Nat → Int

/-- UNIQUE_ID, the 64-bit die identity in OTP (R337, R421). -/
opaque uniqueId : Nat

/-- The four root public keys of the maker, 64 bytes each, of which OTP holds the hashes (R419, R421). -/
opaque rootKey : Nat → List Sys2Proof.Byte

/-- The production value that a parameter ID takes from OTP (R421). -/
opaque otpValue : Nat → Nat

/-- The bytes of copy A (0) and B (1) of the factory record in the factory sectors, and FACTORY_HASH, the SHA-256 that OTP holds of the
record (R421). -/
opaque factorySector : Nat → List Sys2Proof.Byte
opaque factoryHash : List Sys2Proof.Byte

/-- Production value of one item, item kind and index, in the bytes of a factory record, whose layout the spec does not give; in no
bytes it is the nominal value (R421, assumption 81). -/
opaque factory : List Sys2Proof.Byte → Nat → Nat → Int

/-- VERSION of the image of a kind that region 0 holds at production (assumption 11). -/
opaque imageVersion : Nat → Nat

/-- AES-GCM, AES-CBC, ECDH, ECDSA and key-wrap outputs as an uninterpreted function of a purpose, the bytes that go in
and the index of the byte that comes out (R400, R401, R311; assumption 3). -/
opaque cryptoByte : Nat → List Sys2Proof.Byte → Nat → Sys2Proof.Byte

/-- SHA-256 as an uninterpreted function of the message and the index of the digest byte (assumption 3). -/
opaque shaByte : List Sys2Proof.Byte → Nat → Sys2Proof.Byte

/-- Rounding of an intermediate result of the filter chain to its internal precision of at least 48 bits, which the
spec bounds but does not fix (assumption 4). -/
opaque filterRound : Rat → Rat

/-- Gain ratio of a converter between a PGA code and the next one, as a factory record stores it (R65, R421, assumption 81). -/
opaque gainRatio : List Sys2Proof.Byte → Nat → Nat → Rat

/-- Argument of a complex value (real part, imaginary part) in half-turns, above −1 and at most 1 (assumption 6:
transcendental functions are uninterpreted). -/
opaque argHalf : Rat → Rat → Rat

/-- Cosine of an angle in degrees (assumption 6). -/
opaque cosDeg : Rat → Rat

/-- Coefficient of tap 0 to 15 of the phase-delay interpolator at a fraction of a sample (R130), which the spec does not state
(assumption 61). -/
opaque delayTap : Rat → Nat → Rat

/-- The drive phasor of a stand's test DAC as calibrated against the stand reference, per unit of its amplitude (R106). -/
opaque drive : Nat → Rat × Rat

/-- The free coefficients of decimation stages 1 to 4 of Table 6-1 after the CIC, on one side of their centre, and the centre of
stages 2 to 4: the spec bounds the responses (R127) and states no coefficient (assumption 61). -/
opaque decimSide : Nat → List Rat
opaque decimCentre : Nat → Rat

/-- Codes of a bit stream of ones alone at the end of a decimation chain, and the rounding of a filtered value to a code, which the spec
does not state (assumption 61). -/
opaque bitScale : Rat
opaque decimRound : Rat → Int

/-- Coefficient, at a tracked frequency, of the P sample so many samples back in the quadrature demodulator of R178, whose gain and
rejection the spec bounds and whose taps it does not state (assumption 61). -/
opaque demodTap : Rat → Nat → Rat

/-- What the compensation of REF_B multiplies a comparison ratio by, from the coefficients that a factory record stores and the four
die temperatures (R68, R421, assumption 81). -/
opaque refBComp : List Sys2Proof.Byte → List Rat → Rat

/-- The flickermeter of IEC 61000-4-15, which R208 names and the spec does not write out: its state after one more voltage sample,
Pst from the classifier of an interval, and the state with the classifier emptied (assumption 61). -/
opaque flickerStep : List Rat → Rat → List Rat
opaque flickerPst : List Rat → Rat
opaque flickerClear : List Rat → List Rat

/-- Coefficient of tap 0 to 15 of the resampler's interpolation at a fraction of a sample (R206), which the spec does not state
(assumption 61). -/
opaque windowTap : Rat → Nat → Rat

/-- Coefficient of tap 0 to 100 of the phasor engine's decimation filter (R228), whose response the spec bounds and whose taps it does
not state (assumption 61). -/
opaque baseTap : Nat → Rat

/-- Event code and DATA byte of the entry that records the completion of a COPPICE_CONTROL action: R102 asks for the entry and
Table 18-4 lists no code for it (assumption 51). -/
opaque coppiceDoneCode : Nat
opaque coppiceDoneByte : Nat → Nat → Sys2Proof.Byte

/-- What the control (false) and bulk (true) outbound streams hold beyond one whole packet, bytes: the spec says that streams fill and
does not state their size (R304, assumption 35). -/
opaque streamSpare : Bool → Nat

end Sys2Proof.Config
end

