-- ==== Sys2Proof/Machine/Operands.lean ====
section
/-! DEFINITION. The forms in which values travel: little-endian fields (R9), TIME80 (R249), CAL64 (R366), binary32,
the three CRCs (R298, R320, R500), COBS (R305), and the calendar arithmetic of R365. -/

namespace Sys2Proof.Machine

/-- A value as `n` little-endian bytes (R9). -/
def le : Nat → Nat → List Byte
  | 0, _ => []
  | n + 1, v => BitVec.ofNat 8 v :: le n (v / 256)

/-- The value of little-endian bytes (R9). -/
def leVal : List Byte → Nat
  | [] => 0
  | b :: r => b.toNat + 256 * leVal r

/-- Big-endian reading of bytes (signatures, snap frames). -/
def beVal (bs : List Byte) : Nat := bs.foldl (fun a b => a * 256 + b.toNat) 0

/-- A value as `n` big-endian bytes (R297: most significant bit first). -/
def be (n v : Nat) : List Byte := (le n v).reverse

/-- `n` zero bytes. -/
def zeros (n : Nat) : List Byte := List.replicate n 0

/-- Bytes padded with zeros to a multiple of four (Table 14-7). -/
def pad4 (bs : List Byte) : List Byte := bs ++ zeros ((4 - bs.length % 4) % 4)

/-- Exactly `n` bytes: cut or zero-padded. -/
def fitBytes (n : Nat) (bs : List Byte) : List Byte := bs.take n ++ zeros (n - bs.length)

/-- The little-endian field of `n` bytes at an offset; bytes beyond the end read 0. -/
def fieldAt (bs : List Byte) (off n : Nat) : Nat := leVal ((bs.drop off).take n)

/-- The byte at an offset; 0 beyond the end. -/
def byteAt (bs : List Byte) (off : Nat) : Byte := bs.getD off 0

/-- Replace element `i` of a list by its image. -/
def modAt {α : Type} (l : List α) (i : Nat) (f : α → α) : List α := l.modify i f

/-! ### Checks -/

/-- One bit step of an unreflected CRC of width `w` (R298, R320). -/
def crcBit (w poly crc : Nat) : Nat :=
  if bitAt crc (w - 1) then (crc * 2 % 2 ^ w).xor poly else crc * 2 % 2 ^ w

/-- One byte of an unreflected CRC, most significant bit first. -/
def crcByte (w poly crc : Nat) (b : Byte) : Nat :=
  let c0 := crc.xor (b.toNat * 2 ^ (w - 8))
  (List.range 8).foldl (fun c _ => crcBit w poly c) c0

/-- CRC-16 of R320: polynomial 0x1021, initial value 0xFFFF. -/
def crc16 (bs : List Byte) : Nat := bs.foldl (crcByte 16 0x1021) 0xFFFF

/-- CRC-8 of R298 and R414: polynomial 0x07, initial value 0xFF. -/
def crc8 (bs : List Byte) : Nat := bs.foldl (crcByte 8 0x07) 0xFF

/-- One bit step of the reflected CRC-32C (R500). -/
def crc32cBit (c : Nat) : Nat := if c % 2 == 1 then (c / 2).xor 0x82F63B78 else c / 2

/-- One byte of CRC-32C. -/
def crc32cByte (c : Nat) (b : Byte) : Nat :=
  (List.range 8).foldl (fun c _ => crc32cBit c) (c.xor b.toNat)

/-- CRC-32C of R500: Castagnoli, reflected, initial value and final XOR 0xFFFF_FFFF. -/
def crc32c (bs : List Byte) : Nat := (bs.foldl crc32cByte 0xFFFFFFFF).xor 0xFFFFFFFF

/-- One bit step of the reflected CRC-32 of Ethernet (R279; assumption 117). -/
def crc32Bit (c : Nat) : Nat := if c % 2 == 1 then (c / 2).xor 0xEDB88320 else c / 2

/-- One byte of CRC-32. -/
def crc32Byte (c : Nat) (b : Byte) : Nat :=
  (List.range 8).foldl (fun c _ => crc32Bit c) (c.xor b.toNat)

/-- The frame check sequence of an Ethernet frame (assumption 117). -/
def fcs (bs : List Byte) : Nat := (bs.foldl crc32Byte 0xFFFFFFFF).xor 0xFFFFFFFF

/-- The bytes of a slice as a big-endian value; bytes beyond the end are missing. -/
def beAt (bs : List Byte) (off n : Nat) : Nat := beVal ((bs.drop off).take n)

/-- COBS decoding (R305): each code byte n announces n - 1 bytes and, below 0xFF and before the end, a 0x00 after them. None where a
code is 0 or announces more than is there. -/
def uncobsGo : Nat → List Byte → Option (List Byte)
  | 0, _ => none
  | _ + 1, [] => some []
  | fuel + 1, c :: r =>
    let n := c.toNat - 1
    if c == 0 || r.length < n || (r.take n).contains 0 then none
    else
      let tail := r.drop n
      (uncobsGo fuel tail).map fun t => r.take n ++ (if c == 255 || tail.isEmpty then [] else [0]) ++ t

def uncobs (bs : List Byte) : Option (List Byte) := uncobsGo (bs.length + 1) bs

/-- COBS worker: the current block (reversed) and its length (R305). -/
def cobsGo : List Byte → List Byte → Nat → List Byte
  | [], blk, n => BitVec.ofNat 8 (n + 1) :: blk.reverse
  | b :: r, blk, n =>
    if b == 0 then BitVec.ofNat 8 (n + 1) :: blk.reverse ++ cobsGo r [] 0
    else if n == 253 then 0xFF :: (b :: blk).reverse ++ (if r.isEmpty then [] else cobsGo r [] 0)
    else cobsGo r (b :: blk) (n + 1)

/-- The COBS block of a message, without its delimiter (R305). -/
def cobs (bs : List Byte) : List Byte := cobsGo bs [] 0

/-! ### Exact numbers to fields -/

/-- Division rounded to nearest, ties to even (binary32 results). -/
def divHalfEven (n d : Nat) : Nat :=
  let q := n / d
  let r := n % d
  if 2 * r < d then q else if d < 2 * r then q + 1 else q + q % 2

/-- Nearest integer, ties away from zero (R260 and the fixed-point results of the filter chain). -/
def roundAway (q : Rat) : Int :=
  if q < 0 then -((-q + 1 / 2).floor) else (q + 1 / 2).floor

/-- `2 ^ e` for an integer exponent. -/
def pow2 (e : Int) : Rat := if e < 0 then 1 / ((2 ^ e.natAbs : Nat) : Rat) else ((2 ^ e.natAbs : Nat) : Rat)

/-- Floor of the binary logarithm of `n / d`, both positive. -/
def log2Ratio (n d : Nat) : Int :=
  let e : Int := (n.log2 : Int) - (d.log2 : Int)
  if e < 0 then (if n * 2 ^ e.natAbs < d then e - 1 else e)
  else (if n < d * 2 ^ e.natAbs then e - 1 else e)

/-- The binary32 pattern nearest to an exact value, ties to even; overflow gives an infinity (IEEE 754, Table 0-4). -/
def f32OfRat (q : Rat) : Nat :=
  if q = 0 then 0 else
  let sign := if q < 0 then 2 ^ 31 else 0
  let n := q.num.natAbs
  let d := q.den
  let e0 := log2Ratio n d
  let e : Int := if e0 < -126 then -126 else e0
  let sh : Int := 23 - e
  let m := if sh < 0 then divHalfEven n (d * 2 ^ sh.natAbs) else divHalfEven (n * 2 ^ sh.natAbs) d
  let bits : Int := (e + 126) * 2 ^ 23 + (m : Int)
  if 0x7F800000 ≤ bits then sign + 0x7F800000 else sign + bits.toNat

/-- The exact value of a finite binary32 pattern. -/
def ratOfF32 (b : Nat) : Rat :=
  let ex := bitsAt b 23 8
  let fr := bitsAt b 0 23
  let mag : Rat := if ex == 0 then (fr : Rat) * pow2 (-149) else ((fr + 2 ^ 23 : Nat) : Rat) * pow2 ((ex : Int) - 150)
  if bitAt b 31 then -mag else mag

/-- A binary32 pattern that is neither a NaN nor an infinity (Table 14-3). -/
def f32Finite (b : Nat) : Bool := bitsAt b 23 8 != 255

/-- The binary32 pattern nearest to the square root of a non-negative exact value. -/
def f32Sqrt (q : Rat) : Nat :=
  if q ≤ 0 then 0 else
  let e := log2Ratio q.num.natAbs q.den
  let k : Nat := (40 - e / 2).toNat
  let n := q.num.natAbs * 4 ^ k / q.den
  let r := n.sqrt
  let exact := r * r * q.den == q.num.natAbs * 4 ^ k
  f32OfRat ((((2 * r + (if exact then 0 else 1) : Nat)) : Rat) / ((2 ^ (k + 1) : Nat) : Rat))

/-- Absolute value of an exact number. -/
def absQ (q : Rat) : Rat := if q < 0 then -q else q

/-! ### TIME80 (R249) -/

/-- Units of 2^-16 ns in one second. -/
def tickSec : Nat := 65536000000000

/-- Counter units of one P sample: 40 µs (R249). -/
def pTick : Nat := 2621440000

/-- The TIME80 value (seconds in bytes 0 to 5, nanoseconds in bytes 6 to 9) of a counter in 2^-16 ns. -/
def time80 (c : Nat) : Nat := c / tickSec % 2 ^ 48 + (c % tickSec / 65536) * 2 ^ 48

/-- Nanoseconds field of a TIME80 value. -/
def time80Ns (t : Nat) : Nat := t / 2 ^ 48 % 2 ^ 32

/-- Seconds field of a TIME80 value. -/
def time80Sec (t : Nat) : Nat := t % 2 ^ 48

/-- The check of R249 on a TIME80 field. -/
def time80Ok (t : Nat) : Bool := time80Ns t < 1000000000

/-- The counter value that a TIME80 field names, in 2^-16 ns. -/
def ofTime80 (t : Nat) : Nat := time80Sec t * tickSec + time80Ns t * 65536

/-! ### Calendar (R365, R366) -/

/-- A calendar reading; `year` counts from 2000. -/
structure Cal where
  sub : Nat
  sec : Nat
  min : Nat
  hour : Nat
  day : Nat
  month : Nat
  year : Nat
deriving DecidableEq, Repr

/-- The reading after AON power-up (Table 16-1). -/
def Cal.powerUp : Cal := ⟨0, 0, 0, 0, 1, 1, 0⟩

/-- Leap years of R365: divisible by 4, except 2100 (`y` counts from 2000). -/
def calLeap (y : Nat) : Bool := y % 4 == 0 && y != 100

/-- Days of a month (R365). -/
def calMonthDays (y m : Nat) : Nat :=
  if m == 2 then (if calLeap y then 29 else 28) else if m == 4 || m == 6 || m == 9 || m == 11 then 30 else 31

/-- Days from 2000-01-01 to the start of a year. -/
def calYearDays (y : Nat) : Nat := 365 * y + (y + 3) / 4 - (if 100 < y then 1 else 0)

/-- Days from the start of a year to the start of a month. -/
def calMonthStart (y m : Nat) : Nat := (List.range (m - 1)).foldl (fun a i => a + calMonthDays y (i + 1)) 0

/-- Day number from 2000-01-01. -/
def calDayNum (c : Cal) : Nat := calYearDays c.year + calMonthStart c.year c.month + (c.day - 1)

/-- Seconds from 2000-01-01 00:00:00 UTC. -/
def calSeconds (c : Cal) : Nat := calDayNum c * 86400 + c.hour * 3600 + c.min * 60 + c.sec

/-- A date that exists in Table 16-1's ranges (R372). -/
def calValid (c : Cal) : Bool :=
  c.sub < 32768 && c.sec < 60 && c.min < 60 && c.hour < 24 && 1 ≤ c.month && c.month ≤ 12 && c.year < 200 &&
  1 ≤ c.day && c.day ≤ calMonthDays c.year c.month

/-- WEEKDAY, 1 Monday to 7 Sunday; 2000-01-01 was a Saturday (Table 16-1). -/
def calWeekday (c : Cal) : Nat := (calDayNum c + 5) % 7 + 1

/-- The year of a day number, searched upwards with fuel. -/
def calFindYear : Nat → Nat → Nat → Nat
  | 0, y, _ => y
  | f + 1, y, d => if calYearDays (y + 1) ≤ d then calFindYear f (y + 1) d else y

/-- The month of a day of the year, searched upwards with fuel. -/
def calFindMonth : Nat → Nat → Nat → Nat → Nat × Nat
  | 0, _, m, d => (m, d)
  | f + 1, y, m, d => if calMonthDays y m ≤ d then calFindMonth f y (m + 1) (d - calMonthDays y m) else (m, d)

/-- The reading that begins `s` seconds after 2000-01-01 00:00:00 UTC. -/
def calOfSeconds (s : Nat) : Cal :=
  let d := s / 86400
  let y := calFindYear 200 0 d
  let (m, k) := calFindMonth 12 y 1 (d - calYearDays y)
  ⟨0, s % 60, s / 60 % 60, s / 3600 % 24, k + 1, m, y⟩

/-- CAL64 as a 64-bit value (Table 16-2). -/
def cal64 (c : Cal) : Nat :=
  c.sub + c.sec * 2 ^ 16 + c.min * 2 ^ 24 + c.hour * 2 ^ 32 + c.day * 2 ^ 40 + c.month * 2 ^ 48 + c.year * 2 ^ 56

/-- Seconds from the PTP epoch to 2000-01-01 00:00:00 on a uniform count (R250). -/
def epoch2000 : Nat := 946684800

/-- The counter value (TAI, 2^-16 ns) of a UTC calendar reading and a UTC offset (R30, R250). -/
def calToTai (c : Cal) (utcOffset : Int) : Nat :=
  (((calSeconds c + epoch2000 : Nat) : Int) + utcOffset).toNat * tickSec + c.sub * (tickSec / 32768)

/-- The UTC calendar reading of a counter value and a UTC offset. -/
def taiToCal (cnt : Nat) (utcOffset : Int) : Cal :=
  let secs := (((cnt / tickSec : Nat) : Int) - utcOffset - (epoch2000 : Nat)).toNat
  { calOfSeconds secs with sub := cnt % tickSec / (tickSec / 32768) }

end Sys2Proof.Machine
end

