-- ==== Sys2Proof/Machine/ParamTable.lean ====
section
/-! DEFINITION. The parameter members of every family: type, access, reset value, range and the instant at which a
committed value is taken into use (chapter 14 and the member tables of the other chapters). -/

namespace Sys2Proof.Machine

/-- Types of Table 14-3, in code order. -/
inductive PType where
  | u8 | u16 | u32 | s32 | u64 | f32 | bits32 | time80 | s16
deriving DecidableEq, Repr

/-- Access codes of Table 14-4, in code order. -/
inductive Access where
  | ro | rw | rws | wo | rwp
deriving DecidableEq, Repr

/-- The range a member table states. `special` members are judged by `specialOk`. -/
inductive Rng where
  | any | u (lo hi : Nat) | zeroOr (lo hi : Nat) | orNone (lo hi : Nat) | s (lo hi : Int) | oneOf (l : List Nat)
  | mask (m : Nat) | f (lo hi : Rat) | fZeroOr (lo hi : Rat) | divisor (n : Nat) | special
deriving DecidableEq, Repr

/-- Where the reset value comes from: a constant, one per instance, OTP or the factory record, the boot configuration in
P0, the Pioneer record, the node number, a strap, or the ledger, an image or the flash as it stands. -/
inductive Rst where
  | val (n : Nat) | byInst (l : List Nat) | otp | p0 (n : Nat) | pioneer | node (base : Nat) | strap | held
deriving DecidableEq, Repr

/-- When a committed value is taken into use (R329). -/
inductive Eff where
  | commit | block | slot | tenMin | offset | pmu | powerUp | attach | demand
deriving DecidableEq, Repr

/-- One member of a family. -/
structure MemberDef where
  member : Nat
  name : String
  ty : PType
  acc : Access
  rst : Rst
  rng : Rng
  eff : Eff
deriving DecidableEq, Repr

/-- Members of the SYS family (R319, R337). -/
def sysMembers : List MemberDef := [
  ⟨0, "SYS_DEVICE_ID", .u32, .ro, .val 910166529, .any, .commit⟩,
  ⟨1, "UNIQUE_ID", .u64, .ro, .otp, .any, .commit⟩,
  ⟨2, "CANOPY_VER", .u32, .ro, .held, .any, .commit⟩,
  ⟨3, "WARDEN_VER", .u32, .ro, .held, .any, .commit⟩,
  ⟨4, "DSP_VER", .u32, .ro, .held, .any, .commit⟩,
  ⟨5, "ROLLBACK", .u8, .ro, .otp, .any, .commit⟩,
  ⟨6, "COMMIT_SEQ", .u32, .ro, .p0 0, .any, .commit⟩,
  ⟨7, "PENDING_COUNT", .u16, .ro, .val 0, .any, .commit⟩,
  ⟨8, "UPTIME_S", .u32, .ro, .val 0, .any, .commit⟩,
  ⟨9, "CMD_ACCEPTED", .u32, .ro, .val 0, .any, .commit⟩,
  ⟨10, "CMD_REFUSED", .u32, .ro, .val 0, .any, .commit⟩,
  ⟨11, "LAST_REFUSED", .bits32, .ro, .val 0, .any, .commit⟩,
  ⟨16, "HOST_BAUD", .u32, .rw, .p0 115200, .oneOf [115200, 230400, 460800, 921600, 1500000, 3000000], .powerUp⟩,
  ⟨17, "BULK_FRAME_MAX", .u16, .rw, .val 512, .u 64 4095, .commit⟩]

/-- Members of the METRO family (R202). -/
def metroMembers : List MemberDef := [
  ⟨0, "NOMINAL_HZ", .u8, .rw, .val 50, .oneOf [50, 60], .block⟩,
  ⟨1, "VNOM", .f32, .rw, .val 0x43660000, .f 1 1000000, .block⟩,
  ⟨2, "CREEP_UW", .u32, .rw, .val 0, .any, .block⟩,
  ⟨3, "CREEP_UVAR", .u32, .rw, .val 0, .any, .block⟩,
  ⟨4, "DEMAND_MIN", .u8, .rw, .val 15, .u 1 60, .demand⟩,
  ⟨5, "DEMAND_SUB", .u8, .rw, .val 3, .u 1 15, .demand⟩,
  ⟨6, "TAMPER_BLOCKS", .u16, .rw, .val 25, .u 5 3000, .block⟩,
  ⟨7, "TAMPER_I_PCT", .u16, .rw, .val 100, .u 10 2000, .block⟩,
  ⟨8, "BYPASS_PCT", .u8, .rw, .val 10, .u 2 50, .block⟩,
  ⟨9, "VMISS_PCT", .u8, .rw, .val 20, .u 5 80, .block⟩,
  ⟨10, "NMISS_PCT", .u8, .rw, .val 20, .u 5 80, .block⟩,
  ⟨11, "CF_TEST_MAX_S", .u16, .rw, .val 900, .u 60 3600, .block⟩,
  ⟨12, "METRO_STATUS", .bits32, .ro, .val 0, .any, .block⟩,
  ⟨13, "HISTORY_GAP_MAX", .u16, .rw, .val 2000, .zeroOr 100 60000, .block⟩]

/-- Members of the FE family (R80, R125). -/
def feMembers : List MemberDef := [
  ⟨0, "REF_PRIMARY", .u8, .ro, .strap, .any, .commit⟩,
  ⟨1, "REF_USE", .u8, .rw, .val 0, .u 0 1, .block⟩,
  ⟨2, "REF_DEV", .s32, .ro, .val 0, .any, .commit⟩,
  ⟨3, "REF_ALARM_PPM", .u16, .rw, .val 50, .u 10 500, .commit⟩,
  ⟨4, "REF_REBASE", .u8, .wo, .val 0, .u 1 1, .commit⟩,
  ⟨5, "REF_STATUS", .bits32, .ro, .val 0, .any, .commit⟩,
  ⟨6, "PC_INTERVAL_S", .u32, .rw, .val 3600, .zeroOr 60 604800, .commit⟩,
  ⟨7, "PC_OPEN_OHM", .u32, .rw, .val 50000, .u 5000 1000000, .commit⟩,
  ⟨8, "PC_SHORT_OHM", .u32, .rw, .val 200, .u 10 1000, .commit⟩,
  ⟨9, "PC_SHIFT_PCT", .u8, .rw, .val 10, .u 2 50, .commit⟩,
  ⟨10, "PC_ACTIVE", .u32, .ro, .val 4294967295, .any, .commit⟩,
  ⟨11, "SEQ_STATE", .bits32, .ro, .val 0, .any, .commit⟩,
  ⟨12, "TRIG_OVERRUN0", .u32, .ro, .val 0, .any, .commit⟩,
  ⟨13, "TRIG_OVERRUN1", .u32, .ro, .val 0, .any, .commit⟩,
  ⟨14, "TRIG_OVERRUN2", .u32, .ro, .val 0, .any, .commit⟩,
  ⟨15, "TRIG_OVERRUN3", .u32, .ro, .val 0, .any, .commit⟩]

/-- Members of the QUEUE family (R173, R319). -/
def queueMembers : List MemberDef := [
  ⟨0, "P_SINGLE", .u64, .rws, .val 0, .mask 68719476735, .commit⟩,
  ⟨1, "P_FRAME", .u64, .rws, .val 0, .mask 68719476735, .commit⟩,
  ⟨2, "P_DIV", .u16, .rws, .val 1, .divisor 25000, .commit⟩,
  ⟨3, "QUEUE_RATE", .u32, .ro, .val 0, .any, .commit⟩,
  ⟨4, "LEVEL_WORDS", .u32, .ro, .val 0, .any, .commit⟩,
  ⟨5, "DROPPED", .u32, .ro, .val 0, .any, .commit⟩,
  ⟨6, "QUEUE_STATE", .bits32, .ro, .val 0, .any, .commit⟩,
  ⟨7, "PEAK_WORDS", .u32, .ro, .val 0, .any, .commit⟩,
  ⟨8, "CU0_CFG", .bits32, .rws, .val 0, .special, .commit⟩,
  ⟨9, "CU0_MASK", .u64, .rws, .val 0, .mask 68719476735, .commit⟩,
  ⟨10, "CU0_PRE", .u32, .rws, .val 2500, .u 0 2000000, .commit⟩,
  ⟨11, "CU0_POST", .u32, .rws, .val 10000, .u 1 2000000, .commit⟩,
  ⟨12, "CU0_REGION_KIB", .u16, .rws, .val 1792, .zeroOr 64 7168, .commit⟩,
  ⟨13, "CU1_CFG", .bits32, .rws, .val 0, .special, .commit⟩,
  ⟨14, "CU1_MASK", .u64, .rws, .val 0, .mask 68719476735, .commit⟩,
  ⟨15, "CU1_PRE", .u32, .rws, .val 2500, .u 0 2000000, .commit⟩,
  ⟨16, "CU1_POST", .u32, .rws, .val 10000, .u 1 2000000, .commit⟩,
  ⟨17, "CU1_REGION_KIB", .u16, .rws, .val 1792, .zeroOr 64 7168, .commit⟩,
  ⟨18, "CU2_CFG", .bits32, .rws, .val 0, .special, .commit⟩,
  ⟨19, "CU2_MASK", .u64, .rws, .val 0, .mask 68719476735, .commit⟩,
  ⟨20, "CU2_PRE", .u32, .rws, .val 2500, .u 0 2000000, .commit⟩,
  ⟨21, "CU2_POST", .u32, .rws, .val 10000, .u 1 2000000, .commit⟩,
  ⟨22, "CU2_REGION_KIB", .u16, .rws, .val 1792, .zeroOr 64 7168, .commit⟩,
  ⟨23, "CU3_CFG", .bits32, .rws, .val 0, .special, .commit⟩,
  ⟨24, "CU3_MASK", .u64, .rws, .val 0, .mask 68719476735, .commit⟩,
  ⟨25, "CU3_PRE", .u32, .rws, .val 2500, .u 0 2000000, .commit⟩,
  ⟨26, "CU3_POST", .u32, .rws, .val 10000, .u 1 2000000, .commit⟩,
  ⟨27, "CU3_REGION_KIB", .u16, .rws, .val 1792, .zeroOr 64 7168, .commit⟩,
  ⟨28, "IRQ_LEVEL_WORDS", .u32, .rw, .val 0, .zeroOr 4 262144, .commit⟩]

/-- Members of the PQ family (R227). -/
def pqMembers : List MemberDef := [
  ⟨0, "WIRING_A", .u8, .rw, .val 0, .u 0 1, .tenMin⟩,
  ⟨1, "UDIN_A", .f32, .rw, .val 0, .any, .tenMin⟩,
  ⟨2, "DIP_PCT_A", .u16, .rw, .val 9000, .u 5000 9900, .tenMin⟩,
  ⟨3, "SWELL_PCT_A", .u16, .rw, .val 11000, .u 10100 20000, .tenMin⟩,
  ⟨4, "INTR_PCT_A", .u16, .rw, .val 500, .u 100 1000, .tenMin⟩,
  ⟨5, "HYST_PCT_A", .u16, .rw, .val 200, .u 0 1000, .tenMin⟩,
  ⟨6, "RVC_PCT_A", .u16, .rw, .val 300, .u 100 600, .tenMin⟩,
  ⟨7, "UDEV_PCT_A", .u16, .rw, .val 500, .any, .tenMin⟩,
  ⟨8, "DIP_REF_A", .u8, .rw, .val 0, .u 0 1, .tenMin⟩,
  ⟨9, "MSV_HZ0_A", .u16, .rw, .val 0, .zeroOr 100 3000, .tenMin⟩,
  ⟨10, "MSV_HZ1_A", .u16, .rw, .val 0, .zeroOr 100 3000, .tenMin⟩,
  ⟨11, "MSV_HZ2_A", .u16, .rw, .val 0, .zeroOr 100 3000, .tenMin⟩,
  ⟨12, "MSV_HZ3_A", .u16, .rw, .val 0, .zeroOr 100 3000, .tenMin⟩,
  ⟨13, "MSV_REC_PCT_A", .u16, .rw, .val 300, .u 10 1500, .tenMin⟩,
  ⟨14, "FREQ_10S_A", .f32, .ro, .val 0, .any, .tenMin⟩,
  ⟨15, "BUS_STATUS_A", .bits32, .ro, .val 0, .any, .tenMin⟩,
  ⟨16, "WIRING_B", .u8, .rw, .val 0, .u 0 1, .tenMin⟩,
  ⟨17, "UDIN_B", .f32, .rw, .val 0, .any, .tenMin⟩,
  ⟨18, "DIP_PCT_B", .u16, .rw, .val 9000, .u 5000 9900, .tenMin⟩,
  ⟨19, "SWELL_PCT_B", .u16, .rw, .val 11000, .u 10100 20000, .tenMin⟩,
  ⟨20, "INTR_PCT_B", .u16, .rw, .val 500, .u 100 1000, .tenMin⟩,
  ⟨21, "HYST_PCT_B", .u16, .rw, .val 200, .u 0 1000, .tenMin⟩,
  ⟨22, "RVC_PCT_B", .u16, .rw, .val 300, .u 100 600, .tenMin⟩,
  ⟨23, "UDEV_PCT_B", .u16, .rw, .val 500, .any, .tenMin⟩,
  ⟨24, "DIP_REF_B", .u8, .rw, .val 0, .u 0 1, .tenMin⟩,
  ⟨25, "MSV_HZ0_B", .u16, .rw, .val 0, .zeroOr 100 3000, .tenMin⟩,
  ⟨26, "MSV_HZ1_B", .u16, .rw, .val 0, .zeroOr 100 3000, .tenMin⟩,
  ⟨27, "MSV_HZ2_B", .u16, .rw, .val 0, .zeroOr 100 3000, .tenMin⟩,
  ⟨28, "MSV_HZ3_B", .u16, .rw, .val 0, .zeroOr 100 3000, .tenMin⟩,
  ⟨29, "MSV_REC_PCT_B", .u16, .rw, .val 300, .u 10 1500, .tenMin⟩,
  ⟨30, "FREQ_10S_B", .f32, .ro, .val 0, .any, .tenMin⟩,
  ⟨31, "BUS_STATUS_B", .bits32, .ro, .val 0, .any, .tenMin⟩]

/-- Members of the PMU family (R248). -/
def pmuMembers : List MemberDef := [
  ⟨0, "PMU_CLASS", .u8, .rw, .val 0, .u 0 1, .pmu⟩,
  ⟨1, "PMU_RATE", .u8, .rw, .val 50, .any, .pmu⟩,
  ⟨2, "OUT_FLAGS", .bits32, .rw, .val 4, .mask 15, .pmu⟩,
  ⟨3, "PMU_PHASOR_MASK", .u64, .rw, .val 68719476735, .mask 68719476735, .pmu⟩,
  ⟨4, "SEQ_BUS", .bits32, .rw, .val 9, .mask 63, .pmu⟩,
  ⟨5, "SEQ_CIRC_POS", .bits32, .rw, .val 127, .mask 268435455, .pmu⟩,
  ⟨6, "SEQ_CIRC_NZ", .bits32, .rw, .val 0, .mask 268435455, .pmu⟩,
  ⟨7, "PMU_IDCODE", .u16, .rw, .node 0x3000, .u 1 65534, .pmu⟩,
  ⟨8, "PMU_IDCODE_A", .u16, .rw, .node 0x1000, .u 1 65534, .pmu⟩,
  ⟨9, "PMU_IDCODE_B", .u16, .rw, .node 0x2000, .u 1 65534, .pmu⟩,
  ⟨10, "PMU_DEST_IP0", .u32, .rw, .val 0, .any, .pmu⟩,
  ⟨11, "PMU_DEST_IP1", .u32, .rw, .val 0, .any, .pmu⟩,
  ⟨12, "PMU_DEST_IP2", .u32, .rw, .val 0, .any, .pmu⟩,
  ⟨13, "PMU_DEST_IP3", .u32, .rw, .val 0, .any, .pmu⟩,
  ⟨14, "PMU_DEST_PORT", .u16, .rw, .val 4713, .any, .pmu⟩,
  ⟨15, "PMU_CMD_PORT", .u16, .rw, .val 4713, .any, .pmu⟩,
  ⟨16, "CFGCNT", .u16, .ro, .p0 0, .any, .pmu⟩,
  ⟨17, "PMU_STATUS", .bits32, .ro, .val 0, .any, .pmu⟩,
  ⟨18, "FRAMES_SENT", .u32, .ro, .val 0, .any, .pmu⟩,
  ⟨19, "FRAMES_SKIPPED", .u32, .ro, .val 0, .any, .pmu⟩,
  ⟨20, "CMD_RECEIVED", .u32, .ro, .val 0, .any, .pmu⟩,
  ⟨21, "CMD_IGNORED", .u32, .ro, .val 0, .any, .pmu⟩,
  ⟨22, "FREQ_A", .f32, .ro, .val 0, .any, .pmu⟩,
  ⟨23, "ROCOF_A", .f32, .ro, .val 0, .any, .pmu⟩,
  ⟨24, "FREQ_B", .f32, .ro, .val 0, .any, .pmu⟩,
  ⟨25, "ROCOF_B", .f32, .ro, .val 0, .any, .pmu⟩]

/-- Members of the TIME family (R275). -/
def timeMembers : List MemberDef := [
  ⟨0, "TIME_SOURCE", .u8, .rw, .val 1, .u 0 3, .commit⟩,
  ⟨1, "SERVO_MODE", .u8, .rw, .val 0, .u 0 1, .powerUp⟩,
  ⟨2, "SERVO_STATE", .u8, .ro, .val 0, .any, .offset⟩,
  ⟨3, "KP", .u32, .rw, .val 16646145, .special, .offset⟩,
  ⟨4, "KI", .u32, .rw, .val 16384001, .special, .offset⟩,
  ⟨5, "SLEW_MAX", .u32, .rw, .val 10000, .u 100 50000, .offset⟩,
  ⟨6, "STEP_LIMIT", .u32, .rw, .val 1000, .u 1 10000000, .offset⟩,
  ⟨7, "LOCK_NS", .u32, .rw, .val 100, .u 10 100000, .offset⟩,
  ⟨8, "SOURCE_TIMEOUT_MS", .u32, .rw, .val 4000, .u 1000 60000, .offset⟩,
  ⟨9, "HOLDOVER_PPB", .u16, .rw, .val 100, .u 1 10000, .offset⟩,
  ⟨10, "HOLDOVER_LIMIT_S", .u32, .rw, .val 86400, .u 60 2592000, .offset⟩,
  ⟨11, "TIME_FLAGS", .bits32, .rw, .val 1, .mask 3, .offset⟩,
  ⟨12, "STEP_CONSIST_NS", .u32, .rw, .val 10000, .u 100 1000000, .offset⟩,
  ⟨13, "UTC_OFFSET", .s16, .rw, .pioneer, .s (0) (255), .commit⟩,
  ⟨14, "LEAP", .bits32, .rw, .val 0, .special, .commit⟩,
  ⟨15, "PTP_DOMAIN", .u8, .rw, .val 0, .u 0 127, .offset⟩,
  ⟨16, "OFFSET_NS", .s32, .ro, .val 0, .any, .offset⟩,
  ⟨17, "RATE", .s32, .ro, .val 0, .any, .offset⟩,
  ⟨18, "TE_EST_NS", .u32, .ro, .val 4294967295, .any, .offset⟩,
  ⟨19, "ALIGN_NS", .s32, .ro, .val 0, .any, .offset⟩,
  ⟨20, "TIME_STATUS", .bits32, .ro, .val 0, .any, .offset⟩,
  ⟨21, "GM_ID", .u64, .ro, .val 0, .any, .offset⟩,
  ⟨22, "REFUSED_US", .s32, .ro, .val 0, .any, .offset⟩,
  ⟨23, "STEPS_REFUSED", .u32, .ro, .val 0, .any, .offset⟩,
  ⟨24, "STEPS_ACCEPTED", .u32, .ro, .val 0, .any, .offset⟩,
  ⟨25, "TXTS_LOST_INT", .u32, .ro, .val 0, .any, .offset⟩,
  ⟨26, "TXTS_LOST_HOST", .u32, .ro, .val 0, .any, .offset⟩,
  ⟨27, "PPS_DELAY_NS", .s32, .rw, .val 0, .s (-1000000) (1000000), .offset⟩,
  ⟨28, "LAST_LOCKED_RATE", .s32, .ro, .p0 0, .any, .offset⟩]

/-- Members of the RTC family (R389). -/
def rtcMembers : List MemberDef := [
  ⟨0, "RTC_STATUS", .bits32, .ro, .val 0, .any, .commit⟩,
  ⟨1, "RTC_TRIM", .s16, .rw, .val 0, .s (-17180) (17180), .commit⟩,
  ⟨2, "TRIM_LEARNED", .s16, .ro, .p0 0, .any, .commit⟩,
  ⟨3, "RTC_FOLLOW", .u8, .rw, .val 1, .u 0 1, .commit⟩,
  ⟨4, "RTC_ERROR_US", .s32, .ro, .val 0x7FFFFFFF, .any, .commit⟩,
  ⟨5, "OSF_CLEAR", .u8, .wo, .val 0, .u 1 1, .commit⟩,
  ⟨6, "RTC_STEPS", .u32, .ro, .val 0, .any, .commit⟩,
  ⟨7, "WAKE_HOLD_S", .u16, .rw, .val 0, .any, .commit⟩]

/-- Members of the NV family (R364). -/
def nvMembers : List MemberDef := [
  ⟨0, "SCRUB_PERIOD_H", .u16, .rw, .val 24, .u 1 168, .commit⟩,
  ⟨1, "SCRUB_MARGIN", .u8, .rw, .val 2, .u 1 3, .commit⟩,
  ⟨2, "SESSION_TIMEOUT_S", .u16, .rw, .val 300, .u 30 3600, .commit⟩,
  ⟨3, "NV_FLAGS", .bits32, .ro, .val 0, .any, .commit⟩,
  ⟨4, "SCRUB_PROGRESS", .u16, .ro, .val 0, .any, .commit⟩,
  ⟨5, "SCRUB_PASSES", .u32, .ro, .val 0, .any, .commit⟩,
  ⟨6, "SCRUB_REFRESHED", .u32, .ro, .val 0, .any, .commit⟩,
  ⟨7, "ECC_CORRECTED", .u32, .ro, .val 0, .any, .commit⟩,
  ⟨8, "ECC_UNCORRECTABLE", .u32, .ro, .val 0, .any, .commit⟩,
  ⟨9, "RECORD_TWINS", .u32, .ro, .val 0, .any, .commit⟩,
  ⟨10, "RECORD_REPAIRS", .u32, .ro, .val 0, .any, .commit⟩,
  ⟨11, "TORN_COUNT", .u16, .ro, .val 0, .any, .commit⟩,
  ⟨12, "LEDGER_SEQ", .u32, .ro, .held, .any, .commit⟩,
  ⟨13, "CHECKPOINT_US", .u16, .ro, .val 0, .any, .commit⟩]

/-- Members of the TAMPER family (R409). -/
def tamperMembers : List MemberDef := [
  ⟨0, "LEVEL", .u8, .ro, .val 0, .any, .commit⟩,
  ⟨1, "ACTIVE", .bits32, .ro, .val 0, .any, .commit⟩,
  ⟨2, "LATCHED", .bits32, .ro, .val 0, .any, .commit⟩,
  ⟨3, "CLK_LIMIT_PCT", .u16, .rw, .val 150, .u 50 1000, .commit⟩,
  ⟨4, "TEMP_HIGH_C", .s16, .rw, .val 115, .s (90) (125), .commit⟩,
  ⟨5, "TEMP_LOW_C", .s16, .rw, .val 65491, .s (-55) (0), .commit⟩,
  ⟨6, "INPUT_CFG", .bits32, .rw, .val 3, .mask 15, .commit⟩,
  ⟨7, "KEY_STATE", .bits32, .ro, .val 0, .any, .commit⟩,
  ⟨8, "CLEARINGS", .u32, .ro, .val 0, .any, .commit⟩,
  ⟨9, "VBAT_ENTRIES", .u8, .ro, .val 0, .any, .commit⟩,
  ⟨10, "VBAT_OVERFLOW", .u8, .ro, .val 0, .any, .commit⟩,
  ⟨11, "MON_INJECT_FAILS", .u32, .ro, .val 0, .any, .commit⟩,
  ⟨12, "TRNG_FAILS", .u32, .ro, .val 0, .any, .commit⟩]

/-- Members of the NET family (R295). -/
def netMembers : List MemberDef := [
  ⟨0, "NET_MODE", .u8, .rw, .p0 0, .u 0 2, .powerUp⟩,
  ⟨1, "NODE", .u16, .rw, .p0 0, .u 0 4094, .powerUp⟩,
  ⟨2, "MAC_ADDR", .u64, .ro, .p0 0, .any, .commit⟩,
  ⟨3, "IPV4_ADDR", .u32, .rw, .val 0, .any, .commit⟩,
  ⟨4, "IPV4_MASK", .u32, .rw, .val 0, .any, .commit⟩,
  ⟨5, "IPV4_GW", .u32, .rw, .val 0, .any, .commit⟩,
  ⟨6, "IPV6_ADDR0", .u32, .rw, .val 0, .any, .commit⟩,
  ⟨7, "IPV6_ADDR1", .u32, .rw, .val 0, .any, .commit⟩,
  ⟨8, "IPV6_ADDR2", .u32, .rw, .val 0, .any, .commit⟩,
  ⟨9, "IPV6_ADDR3", .u32, .rw, .val 0, .any, .commit⟩,
  ⟨10, "OWN_KBPS", .u16, .rw, .val 250, .u 10 8000, .commit⟩,
  ⟨11, "OWN_BURST", .u16, .rw, .val 3000, .u 1600 16000, .commit⟩,
  ⟨12, "RESERVE_PCT", .u8, .rw, .val 20, .u 10 50, .commit⟩,
  ⟨13, "PUSH_DEST_IP0", .u32, .rw, .val 0, .any, .commit⟩,
  ⟨14, "PUSH_DEST_IP1", .u32, .rw, .val 0, .any, .commit⟩,
  ⟨15, "PUSH_DEST_IP2", .u32, .rw, .val 0, .any, .commit⟩,
  ⟨16, "PUSH_DEST_IP3", .u32, .rw, .val 0, .any, .commit⟩,
  ⟨17, "PUSH_DEST_PORT", .u16, .rw, .val 47311, .any, .commit⟩,
  ⟨18, "HOST_RX_ETYPE", .u16, .rw, .val 0, .any, .commit⟩,
  ⟨19, "HOST_RX_UDP", .u16, .rw, .val 0, .any, .commit⟩,
  ⟨20, "NET_FLAGS", .bits32, .rw, .val 1, .mask 1, .commit⟩,
  ⟨21, "DUP_HOLD_MS", .u16, .rw, .val 50, .u 10 400, .commit⟩,
  ⟨22, "RING_STATUS", .bits32, .ro, .val 0, .any, .commit⟩,
  ⟨23, "DUP_DISCARDED", .u32, .ro, .val 0, .any, .commit⟩,
  ⟨24, "DUP_PASSED", .u32, .ro, .val 0, .any, .commit⟩,
  ⟨25, "RESERVE_HELD", .u32, .ro, .val 0, .any, .commit⟩,
  ⟨26, "CMD_WRONG_NODE", .u32, .ro, .val 0, .any, .commit⟩,
  ⟨27, "HOST_RX_LOST", .u32, .ro, .val 0, .any, .commit⟩]

/-- Members of the HMI family (R462). -/
def hmiMembers : List MemberDef := [
  ⟨0, "LCD_CFG", .bits32, .rw, .val 7744, .special, .commit⟩,
  ⟨1, "KEY_MODE", .bits32, .rw, .val 5, .special, .commit⟩,
  ⟨2, "KEY_FUNC", .bits32, .rw, .val 33, .special, .commit⟩,
  ⟨3, "TOUCH_THRESH", .u16, .rw, .val 800, .u 100 5000, .commit⟩,
  ⟨4, "LED_FUNC", .bits32, .rw, .val 21554, .special, .commit⟩,
  ⟨5, "LED_HOST", .bits32, .rw, .val 0, .mask 15, .commit⟩,
  ⟨6, "SU_BAUD", .u32, .rw, .val 115200, .oneOf [9600, 19200, 57600, 115200, 460800, 921600], .attach⟩,
  ⟨7, "CONSOLE_FLAGS", .bits32, .rw, .val 3, .mask 3, .commit⟩,
  ⟨8, "DISPLAY_STATE", .bits32, .ro, .val 0, .any, .commit⟩,
  ⟨9, "LAYOUT_SEQ", .u32, .ro, .p0 0, .any, .commit⟩,
  ⟨10, "CONSOLE_STATE", .bits32, .ro, .val 0, .any, .commit⟩,
  ⟨11, "KEY_EVENTS", .u32, .ro, .val 0, .any, .commit⟩,
  ⟨12, "CONSOLE_ATTACHES", .u32, .ro, .val 0, .any, .commit⟩]

/-- Members of the POWER family (R445). -/
def powerMembers : List MemberDef := [
  ⟨0, "PFAIL_MV", .u16, .rw, .val 4200, .u 4200 36000, .commit⟩,
  ⟨1, "PFAIL_HYST_MV", .u16, .rw, .val 200, .u 50 2000, .commit⟩,
  ⟨2, "PFAIL_FILT_US", .u16, .rw, .val 20, .u 5 200, .commit⟩,
  ⟨3, "POWER_STATE", .bits32, .ro, .val 0, .any, .commit⟩,
  ⟨4, "PFAIL_COUNT", .u32, .ro, .val 0, .any, .commit⟩,
  ⟨5, "PFAIL_LAST_US", .u32, .ro, .val 0, .any, .commit⟩,
  ⟨6, "LAST_HOLDUP_US", .u32, .ro, .held, .any, .commit⟩,
  ⟨7, "RESTART_DELAY_MS", .u8, .ro, .held, .any, .commit⟩,
  ⟨8, "BUCK_STATUS", .bits32, .ro, .val 0, .any, .commit⟩,
  ⟨9, "P_IN_MW", .u16, .ro, .val 0, .any, .commit⟩]

/-- Members of the WARDEN family (R430). -/
def wardenMembers : List MemberDef := [
  ⟨0, "WDT_CANOPY_MS", .u16, .rw, .val 250, .u 100 2000, .commit⟩,
  ⟨1, "WDT_DSP_FRAMES", .u16, .rw, .val 16, .u 4 1000, .commit⟩,
  ⟨2, "TEMP_WARN_C", .s16, .rw, .val 105, .s (80) (125), .commit⟩,
  ⟨3, "HEALTH", .bits32, .ro, .val 0, .any, .commit⟩,
  ⟨4, "LOG_BUFFERED", .u16, .ro, .val 0, .any, .commit⟩,
  ⟨5, "LOG_LOST", .u32, .ro, .val 0, .any, .commit⟩,
  ⟨6, "UPDATE_STATE", .u8, .ro, .val 0, .any, .commit⟩,
  ⟨7, "UPDATE_KIND", .u8, .ro, .val 255, .any, .commit⟩,
  ⟨8, "TRIAL_REMAIN_S", .u16, .ro, .val 0, .any, .commit⟩,
  ⟨9, "BANKS", .bits32, .ro, .held, .any, .commit⟩,
  ⟨10, "CANOPY_RESTARTS", .u32, .ro, .val 0, .any, .commit⟩,
  ⟨11, "DSP_RELOADS", .u32, .ro, .val 0, .any, .commit⟩,
  ⟨12, "WARDEN_RESTARTS", .u32, .ro, .val 0, .any, .commit⟩,
  ⟨13, "TRANSPLANT_STATE", .bits32, .ro, .val 0, .any, .commit⟩]

/-- Members of the TEST family (R462). -/
def testMembers : List MemberDef := [
  ⟨0, "TDAC_STATE", .bits32, .ro, .val 0, .any, .commit⟩,
  ⟨1, "FORCE_STATE", .bits32, .ro, .val 0, .any, .commit⟩,
  ⟨2, "TEST_MAX_S", .u16, .rw, .val 600, .u 10 3600, .commit⟩,
  ⟨3, "TDAC_CAL", .u32, .ro, .otp, .any, .commit⟩]

/-- Members of the CHAN_CFG family (R80, R125, R153, R227). -/
def chanCfgMembers : List MemberDef := [
  ⟨0, "PGA", .u8, .rw, .val 0, .u 0 5, .block⟩,
  ⟨1, "SOURCE", .u8, .rw, .val 0, .u 0 2, .block⟩,
  ⟨2, "SENSOR_TYPE", .u8, .rw, .byInst [0, 0, 0, 0, 0, 0, 0, 0, 1, 1, 1, 1, 1, 1, 1, 1, 1, 1, 1, 1, 1, 1, 1, 1, 1, 1, 1, 1, 1, 1, 1, 1, 1, 1, 1, 1], .u 0 3, .block⟩,
  ⟨3, "SENSOR_RATIO", .f32, .rw, .val 0x3F800000, .f (1 / 1000) 10000000, .block⟩,
  ⟨4, "PC_ENABLE", .u8, .rw, .val 1, .u 0 1, .commit⟩,
  ⟨5, "BQ_SETTLE", .u16, .rw, .val 0, .u 0 25000, .block⟩,
  ⟨6, "SUPRA_EN", .u8, .rw, .val 1, .u 0 1, .tenMin⟩]

/-- Members of the CHAN_CAL family (R80, R104, R125, R153). -/
def chanCalMembers : List MemberDef := [
  ⟨0, "GAIN_CORR", .u32, .rwp, .val 1073741824, .u 536870912 2147483647, .block⟩,
  ⟨1, "OFFSET_TRIM", .s32, .ro, .otp, .any, .block⟩,
  ⟨2, "GAIN_TRIM", .u32, .ro, .otp, .any, .block⟩,
  ⟨3, "PC_BASE_OHM", .f32, .rwp, .val 0, .fZeroOr 10 1000000, .commit⟩,
  ⟨4, "PC_BASE_DEG", .f32, .rwp, .val 0, .f (-90) 90, .commit⟩,
  ⟨5, "PHASE_DELAY", .s32, .rwp, .val 0, .s (-131072) (131072), .block⟩]

/-- Members of the CHAN_STAT family (R80, R104, R125, R153, R227). -/
def chanStatMembers : List MemberDef := [
  ⟨0, "SAT_COUNT", .u32, .ro, .val 0, .any, .commit⟩,
  ⟨1, "MOD_RESETS", .u32, .ro, .val 0, .any, .commit⟩,
  ⟨2, "PEAK_PCT", .u16, .ro, .val 0, .any, .commit⟩,
  ⟨3, "CAL_AGE_S", .u32, .ro, .val 4294967295, .any, .commit⟩,
  ⟨4, "HEALTH", .bits32, .ro, .val 0, .any, .commit⟩,
  ⟨5, "MATCH_GAIN", .u32, .ro, .val 1073741824, .any, .commit⟩,
  ⟨6, "MATCH_OFFSET", .s32, .ro, .val 0, .any, .commit⟩,
  ⟨7, "MATCH_PHASE", .s32, .ro, .val 0, .any, .commit⟩,
  ⟨8, "MATCH_AGE_S", .u32, .ro, .val 4294967295, .any, .commit⟩,
  ⟨9, "PC_RESULT", .bits32, .ro, .val 0, .any, .commit⟩,
  ⟨10, "PC_OHM", .f32, .ro, .val 0, .any, .commit⟩,
  ⟨11, "PC_DEG", .f32, .ro, .val 0, .any, .commit⟩,
  ⟨12, "PC_AGE_S", .u32, .ro, .val 4294967295, .any, .commit⟩,
  ⟨13, "PC_COUNT", .u32, .ro, .val 0, .any, .commit⟩,
  ⟨14, "FILTER_STATE", .bits32, .ro, .val 0, .any, .commit⟩,
  ⟨15, "BANK_A_ID", .u32, .ro, .val 0, .any, .commit⟩,
  ⟨16, "BANK_B_ID", .u32, .ro, .val 0, .any, .commit⟩,
  ⟨17, "SWAPS_DISPLACED", .u32, .ro, .val 0, .any, .commit⟩,
  ⟨18, "RMS_WIN", .f32, .ro, .val 0, .any, .commit⟩,
  ⟨19, "THD_WIN", .f32, .ro, .val 0, .any, .commit⟩]

/-- Members of the SPARE family (R104). -/
def spareMembers : List MemberDef := [
  ⟨0, "STATE", .u8, .ro, .val 4, .any, .slot⟩,
  ⟨1, "SLOT", .u8, .ro, .val 0, .any, .slot⟩,
  ⟨2, "PHASE", .u8, .ro, .val 5, .any, .slot⟩,
  ⟨3, "SPARE_CHANNEL", .u8, .ro, .val 255, .any, .slot⟩,
  ⟨4, "PIN_CHANNEL", .u8, .ro, .val 255, .any, .slot⟩,
  ⟨5, "CONDEMNED", .bits32, .ro, .p0 0, .any, .slot⟩,
  ⟨6, "MATCH_MIN_PCT", .u16, .rw, .val 200, .u 100 2000, .slot⟩,
  ⟨7, "MATCH_AGE_MAX", .u32, .rw, .val 3600, .u 60 86400, .slot⟩,
  ⟨8, "LIN_EVERY", .u8, .rw, .val 10, .u 1 100, .slot⟩,
  ⟨9, "SPARE_OFFSET_TRIM", .s32, .ro, .otp, .any, .slot⟩,
  ⟨10, "SPARE_GAIN_TRIM", .u32, .ro, .otp, .any, .slot⟩,
  ⟨11, "SPARE_GAIN_CODE", .u8, .ro, .val 0, .any, .slot⟩,
  ⟨12, "SPLICES", .u32, .ro, .val 0, .any, .slot⟩,
  ⟨13, "SLOTS_SKIPPED", .u32, .ro, .val 0, .any, .slot⟩,
  ⟨14, "XCHECK_FAILS", .u32, .ro, .val 0, .any, .slot⟩,
  ⟨15, "LAST_INL", .u16, .ro, .val 0, .any, .slot⟩]

/-- Members of the ELEM family (R202). -/
def elemMembers : List MemberDef := [
  ⟨0, "ENABLE", .u8, .rw, .byInst [1, 1, 1, 1, 1, 1, 1, 1, 1, 1, 1, 1, 1, 1, 1, 1, 1, 1, 1, 1, 1, 0, 0, 0, 0, 0, 0, 0], .u 0 1, .block⟩,
  ⟨1, "CUR_CHAN", .u8, .rw, .byInst [8, 9, 10, 12, 13, 14, 16, 17, 18, 20, 21, 22, 24, 25, 26, 28, 29, 30, 32, 33, 34, 255, 255, 255, 255, 255, 255, 255], .orNone 8 35, .block⟩,
  ⟨2, "VOLT_CHAN", .u8, .rw, .byInst [0, 1, 2, 0, 1, 2, 0, 1, 2, 0, 1, 2, 4, 5, 6, 4, 5, 6, 4, 5, 6, 255, 255, 255, 255, 255, 255, 255], .orNone 0 7, .block⟩,
  ⟨3, "CIRCUIT", .u8, .ro, .byInst [0, 0, 0, 1, 1, 1, 2, 2, 2, 3, 3, 3, 4, 4, 4, 5, 5, 5, 6, 6, 6, 255, 255, 255, 255, 255, 255, 255], .any, .block⟩,
  ⟨4, "ESTIMATED_BLOCKS", .u32, .ro, .val 0, .any, .block⟩]

/-- Members of the CIRC_CFG family (R202). -/
def circCfgMembers : List MemberDef := [
  ⟨0, "ELEM_A", .u8, .rw, .byInst [0, 3, 6, 9, 12, 15, 18, 255, 255, 255, 255, 255, 255, 255, 255, 255, 255, 255, 255, 255, 255, 255, 255, 255, 255, 255, 255, 255], .orNone 0 27, .block⟩,
  ⟨1, "ELEM_B", .u8, .rw, .byInst [1, 4, 7, 10, 13, 16, 19, 255, 255, 255, 255, 255, 255, 255, 255, 255, 255, 255, 255, 255, 255, 255, 255, 255, 255, 255, 255, 255], .orNone 0 27, .block⟩,
  ⟨2, "ELEM_C", .u8, .rw, .byInst [2, 5, 8, 11, 14, 17, 20, 255, 255, 255, 255, 255, 255, 255, 255, 255, 255, 255, 255, 255, 255, 255, 255, 255, 255, 255, 255, 255], .orNone 0 27, .block⟩,
  ⟨3, "NEUTRAL", .u8, .rw, .byInst [11, 15, 19, 23, 27, 31, 35, 255, 255, 255, 255, 255, 255, 255, 255, 255, 255, 255, 255, 255, 255, 255, 255, 255, 255, 255, 255, 255], .special, .block⟩,
  ⟨4, "TAMPER_EN", .bits32, .rw, .byInst [15, 15, 15, 15, 15, 15, 15, 0, 0, 0, 0, 0, 0, 0, 0, 0, 0, 0, 0, 0, 0, 0, 0, 0, 0, 0, 0, 0], .mask 15, .block⟩]

/-- Members of the CIRC_ENERGY family (R202). -/
def circEnergyMembers : List MemberDef := [
  ⟨0, "E0", .u64, .ro, .held, .any, .commit⟩,
  ⟨1, "E1", .u64, .ro, .held, .any, .commit⟩,
  ⟨2, "E2", .u64, .ro, .held, .any, .commit⟩,
  ⟨3, "E3", .u64, .ro, .held, .any, .commit⟩,
  ⟨4, "E4", .u64, .ro, .held, .any, .commit⟩,
  ⟨5, "E5", .u64, .ro, .held, .any, .commit⟩,
  ⟨6, "E6", .u64, .ro, .held, .any, .commit⟩,
  ⟨7, "E7", .u64, .ro, .held, .any, .commit⟩,
  ⟨8, "E8", .u64, .ro, .held, .any, .commit⟩,
  ⟨9, "E9", .u64, .ro, .held, .any, .commit⟩,
  ⟨10, "E10", .u64, .ro, .held, .any, .commit⟩,
  ⟨11, "E11", .u64, .ro, .held, .any, .commit⟩,
  ⟨12, "BLOCK_STATUS", .bits32, .ro, .val 0, .any, .commit⟩,
  ⟨13, "P_W", .f32, .ro, .val 0, .any, .commit⟩,
  ⟨14, "Q_VAR", .f32, .ro, .val 0, .any, .commit⟩,
  ⟨15, "S_VA", .f32, .ro, .val 0, .any, .commit⟩,
  ⟨16, "PF", .f32, .ro, .val 0, .any, .commit⟩,
  ⟨17, "DEM_P_IMP", .f32, .ro, .val 0, .any, .commit⟩,
  ⟨18, "DEM_P_EXP", .f32, .ro, .val 0, .any, .commit⟩,
  ⟨19, "DEM_Q_IMP", .f32, .ro, .val 0, .any, .commit⟩,
  ⟨20, "DEM_S", .f32, .ro, .val 0, .any, .commit⟩,
  ⟨21, "MAXDEM_P", .f32, .ro, .held, .any, .commit⟩,
  ⟨22, "MAXDEM_P_TIME", .time80, .ro, .held, .any, .commit⟩,
  ⟨23, "MAXDEM_S", .f32, .ro, .held, .any, .commit⟩,
  ⟨24, "MAXDEM_S_TIME", .time80, .ro, .held, .any, .commit⟩,
  ⟨25, "PIO_IMPORT", .u64, .ro, .held, .any, .commit⟩,
  ⟨26, "PIO_EXPORT", .u64, .ro, .held, .any, .commit⟩,
  ⟨27, "XCHECK_FAILS", .u32, .ro, .val 0, .any, .commit⟩,
  ⟨28, "XCHECK_SKIPPED", .u32, .ro, .val 0, .any, .commit⟩]

/-- Members of the CIRC_PQ family (R227). -/
def circPqMembers : List MemberDef := [
  ⟨0, "I_UNB2", .f32, .ro, .val 0, .any, .tenMin⟩,
  ⟨1, "I_UNB0", .f32, .ro, .val 0, .any, .tenMin⟩,
  ⟨2, "ITHD_MAX", .f32, .ro, .val 0, .any, .tenMin⟩,
  ⟨3, "IN_RMS", .f32, .ro, .val 0, .any, .tenMin⟩,
  ⟨4, "IL_A", .f32, .rw, .val 0, .any, .tenMin⟩,
  ⟨5, "TDD", .f32, .ro, .val 0, .any, .tenMin⟩,
  ⟨6, "PQ_STATUS", .bits32, .ro, .val 0, .any, .tenMin⟩]

/-- Members of the BLAZE family (R275). -/
def blazeMembers : List MemberDef := [
  ⟨0, "BL_STATUS", .bits32, .ro, .val 0, .any, .commit⟩,
  ⟨1, "BL_START", .time80, .ro, .val 0, .any, .commit⟩,
  ⟨2, "BL_PERIOD_NS", .u64, .ro, .val 0, .any, .commit⟩,
  ⟨3, "BL_WIDTH_NS", .u32, .ro, .val 0, .any, .commit⟩,
  ⟨4, "BL_COUNT", .u32, .ro, .val 0, .any, .commit⟩,
  ⟨5, "BL_EDGES", .u32, .ro, .val 0, .any, .commit⟩,
  ⟨6, "BL_NEXT", .time80, .ro, .val 0, .any, .commit⟩]

/-- Members of the NOTCH family (R275). -/
def notchMembers : List MemberDef := [
  ⟨0, "NT_CFG", .bits32, .rw, .val 0, .mask 7, .commit⟩,
  ⟨1, "NT_FILTER_NS", .u16, .rw, .val 0, .zeroOr 10 1000, .commit⟩,
  ⟨2, "NT_DELAY_NS", .s32, .rw, .val 0, .s (-1000000) (1000000), .commit⟩,
  ⟨3, "NT_LEVEL", .u8, .ro, .val 0, .any, .commit⟩,
  ⟨4, "NT_LOST", .u32, .ro, .val 0, .any, .commit⟩,
  ⟨5, "NT_STATUS", .bits32, .ro, .val 0, .any, .commit⟩,
  ⟨6, "NT_COUNT", .u32, .ro, .val 0, .any, .commit⟩]

/-- Members of the CF family (R202). -/
def cfMembers : List MemberDef := [
  ⟨0, "QUANTITY", .u8, .rw, .val 0, .u 0 14, .block⟩,
  ⟨1, "TARGET", .u8, .rw, .byInst [128, 129, 130, 131, 132, 133, 134, 135], .special, .block⟩,
  ⟨2, "CF_FLAGS", .u8, .rw, .byInst [1, 1, 1, 1, 1, 1, 1, 0], .mask 3, .block⟩,
  ⟨3, "WIDTH_MS", .u8, .rw, .val 30, .u 10 80, .block⟩,
  ⟨4, "PULSE_UWH", .u64, .rw, .val 1000000000, .u 1000 1000000000000000, .block⟩,
  ⟨5, "TEST_DIV", .u8, .rw, .val 0, .u 0 10, .block⟩,
  ⟨6, "CF_STATUS", .bits32, .ro, .val 0, .any, .block⟩,
  ⟨7, "CF_COUNT", .u32, .ro, .val 0, .any, .block⟩]

/-- Members of the ALARM family (R389). -/
def alarmMembers : List MemberDef := [
  ⟨0, "AL_CFG", .bits32, .rw, .val 0, .mask 255, .commit⟩,
  ⟨1, "AL_MATCH", .bits32, .rw, .val 0, .mask 536870911, .commit⟩,
  ⟨2, "AL_MASK", .bits32, .rw, .val 0, .mask 63, .commit⟩,
  ⟨3, "AL_STATUS", .bits32, .ro, .val 0, .any, .commit⟩,
  ⟨4, "AL_ACK", .u8, .wo, .val 0, .u 1 1, .commit⟩,
  ⟨5, "AL_LAST", .u64, .ro, .val 0, .any, .commit⟩,
  ⟨6, "AL_COUNT", .u32, .ro, .val 0, .any, .commit⟩,
  ⟨7, "AL_MISSED", .u32, .ro, .val 0, .any, .commit⟩]

/-- Members of the TAMPER_SRC family (R409). -/
def tamperSrcMembers : List MemberDef := [
  ⟨0, "SRC_RESPONSE", .u8, .rw, .byInst [1, 2, 1, 1, 1, 1, 1, 1, 1, 0, 0, 1, 1, 0, 1, 1, 1, 2, 3, 1, 1, 1, 1, 1, 1, 0, 0, 0, 0, 0, 0, 0], .special, .commit⟩,
  ⟨1, "SRC_FLOOR", .u8, .ro, .otp, .any, .commit⟩,
  ⟨2, "SRC_STATE", .bits32, .ro, .val 0, .any, .commit⟩,
  ⟨3, "SRC_COUNT", .u32, .ro, .val 0, .any, .commit⟩,
  ⟨4, "SRC_LAST", .time80, .ro, .val 0, .any, .commit⟩,
  ⟨5, "SRC_PERSIST_MS", .u16, .rw, .byInst [1, 1, 1, 0, 0, 0, 0, 0, 0, 0, 0, 0, 0, 0, 0, 0, 0, 0, 0, 0, 0, 0, 0, 0, 0, 0, 0, 0, 0, 0, 0, 0], .u 0 60000, .commit⟩]

/-- Members of the PORT family (R295). -/
def portMembers : List MemberDef := [
  ⟨0, "PHY_MODE", .u8, .rw, .val 0, .u 0 3, .commit⟩,
  ⟨1, "LINK", .u8, .ro, .val 0, .any, .commit⟩,
  ⟨2, "TX_LAT_NS", .u32, .ro, .otp, .any, .commit⟩,
  ⟨3, "RX_LAT_NS", .u32, .ro, .otp, .any, .commit⟩,
  ⟨4, "ASYM_NS", .s32, .rw, .val 0, .s (-1000000) (1000000), .commit⟩,
  ⟨5, "PEER_DELAY_NS", .u32, .ro, .val 4294967295, .any, .commit⟩,
  ⟨6, "LINK_DOWNS", .u32, .ro, .val 0, .any, .commit⟩,
  ⟨7, "RX_FRAMES", .u32, .ro, .val 0, .any, .commit⟩,
  ⟨8, "TX_FRAMES", .u32, .ro, .val 0, .any, .commit⟩,
  ⟨9, "RX_ERRORS", .u32, .ro, .val 0, .any, .commit⟩,
  ⟨10, "SQI", .u8, .ro, .val 0, .any, .commit⟩]

/-- Members of the PARTITION family (R364). -/
def partitionMembers : List MemberDef := [
  ⟨0, "FIRST_PAGE", .u16, .ro, .byInst [0, 128, 256, 384, 896, 1536], .any, .commit⟩,
  ⟨1, "PAGES", .u16, .ro, .byInst [128, 128, 128, 512, 640, 512], .any, .commit⟩,
  ⟨2, "PW_STATE", .bits32, .ro, .p0 0, .any, .commit⟩,
  ⟨3, "SESSIONS", .bits32, .ro, .val 0, .any, .commit⟩,
  ⟨4, "AUTH_FAILS", .u32, .ro, .val 0, .any, .commit⟩,
  ⟨5, "LOCKOUT_S", .u16, .ro, .val 0, .any, .commit⟩,
  ⟨6, "HOST_WRITES", .u32, .ro, .val 0, .any, .commit⟩]

/-- Instances of a family (Table 1-7); 0 for a family that does not exist. -/
def famInsts (f : Nat) : Nat :=
  match f with
  | 0 => 0
  | 1 => 1
  | 2 => 1
  | 3 => 1
  | 4 => 1
  | 5 => 1
  | 6 => 1
  | 7 => 1
  | 8 => 1
  | 9 => 1
  | 10 => 1
  | 11 => 1
  | 12 => 1
  | 13 => 1
  | 14 => 1
  | 15 => 1
  | 16 => 36
  | 17 => 36
  | 18 => 36
  | 19 => 4
  | 20 => 28
  | 21 => 28
  | 22 => 28
  | 23 => 28
  | 24 => 8
  | 25 => 8
  | 26 => 8
  | 27 => 4
  | 28 => 32
  | 29 => 2
  | 30 => 6
  | _ => 0

/-- Members of a family (R336). -/
def famMembers (f : Nat) : List MemberDef :=
  match f with
  | 1 => sysMembers
  | 2 => metroMembers
  | 3 => feMembers
  | 4 => queueMembers
  | 5 => pqMembers
  | 6 => pmuMembers
  | 7 => timeMembers
  | 8 => rtcMembers
  | 9 => nvMembers
  | 10 => tamperMembers
  | 11 => netMembers
  | 12 => hmiMembers
  | 13 => powerMembers
  | 14 => wardenMembers
  | 15 => testMembers
  | 16 => chanCfgMembers
  | 17 => chanCalMembers
  | 18 => chanStatMembers
  | 19 => spareMembers
  | 20 => elemMembers
  | 21 => circCfgMembers
  | 22 => circEnergyMembers
  | 23 => circPqMembers
  | 24 => blazeMembers
  | 25 => notchMembers
  | 26 => cfMembers
  | 27 => alarmMembers
  | 28 => tamperSrcMembers
  | 29 => portMembers
  | 30 => partitionMembers
  | _ => []

/-- Family, instance and member of an ID (R324). -/
def pFam (id : Nat) : Nat := id / 0x800
def pInst (id : Nat) : Nat := id / 0x20 % 64
def pMem (id : Nat) : Nat := id % 0x20

/-- The ID of a member of an instance (R324). -/
def pid (f i m : Nat) : Nat := f * 0x800 + i * 0x20 + m

/-- The member that an ID names, if any (R325). -/
def memberOf (id : Nat) : Option MemberDef :=
  if id < 0x10000 ∧ pInst id < famInsts (pFam id) then (famMembers (pFam id)).find? (fun d => d.member == pMem id) else none

/-- Size in bytes of a type (Table 14-3). -/
def PType.size : PType → Nat
  | .u8 => 1 | .u16 => 2 | .s16 => 2 | .u32 => 4 | .s32 => 4 | .f32 => 4 | .bits32 => 4 | .u64 => 8 | .time80 => 10

/-- Code of a type (Table 14-3). -/
def PType.code : PType → Nat
  | .u8 => 0 | .u16 => 1 | .u32 => 2 | .s32 => 3 | .u64 => 4 | .f32 => 5 | .bits32 => 6 | .time80 => 7 | .s16 => 8

/-- Code of an access (Table 14-4). -/
def Access.code : Access → Nat
  | .ro => 0 | .rw => 1 | .rws => 2 | .wo => 3 | .rwp => 4

/-- Control owners (Tables 1-6 and 1-7). -/
inductive Owner where
  | warden | canopy | dsp | pq | phasor | time | network | heartwood | display | pioneer
deriving DecidableEq, Repr

/-- Data scopes (R18, Table 1-7): the level of the data tree whose results change with a parameter. -/
inductive Scope where
  | device | bus | ring | channel | stand | element | circuit | pulsed
deriving DecidableEq, Repr

/-- Table 1-7, families 1 to 30: control owner and data scope. -/
def famTable : List (Owner × Scope) :=
  [(.warden, .device), (.canopy, .device), (.dsp, .device), (.dsp, .device), (.pq, .bus), (.phasor, .device), (.time, .device),
   (.warden, .device), (.heartwood, .device), (.warden, .device), (.network, .ring), (.display, .device), (.warden, .device),
   (.warden, .device), (.warden, .device), (.dsp, .channel), (.dsp, .channel), (.dsp, .channel), (.dsp, .stand),
   (.canopy, .element), (.canopy, .circuit), (.dsp, .circuit), (.pq, .circuit), (.time, .device), (.time, .device),
   (.pioneer, .pulsed), (.warden, .device), (.warden, .device), (.network, .ring), (.heartwood, .device)]

/-- Owner and scope of a family (R20); every member shares them. -/
def famOwner (f : Nat) : Owner := ((famTable[f - 1]?).map (·.1)).getD .warden
def famScope (f : Nat) : Scope := ((famTable[f - 1]?).map (·.2)).getD .device

/-- The 64 boundary-free ranges of Table 14-3 and the member tables. -/
def rangeOk (r : Rng) (ty : PType) (v : Nat) : Bool :=
  match r with
  | .any => true
  | .u lo hi => lo ≤ v && v ≤ hi
  | .zeroOr lo hi => v == 0 || (lo ≤ v && v ≤ hi)
  | .orNone lo hi => v == 0xFF || (lo ≤ v && v ≤ hi)
  | .s lo hi => decide (lo ≤ toSigned (8 * ty.size) v) && decide (toSigned (8 * ty.size) v ≤ hi)
  | .oneOf l => l.contains v
  | .mask m => v.land m == v
  | .f lo hi => decide (lo ≤ ratOfF32 v) && decide (ratOfF32 v ≤ hi)
  | .fZeroOr lo hi => ratOfF32 v == 0 || (decide (lo ≤ ratOfF32 v) && decide (ratOfF32 v ≤ hi))
  | .divisor n => v != 0 && n % v == 0
  | .special => true

/-- The type's own check (Table 14-3): NaN and infinities, and TIME80 nanoseconds. -/
def typeOk (ty : PType) (v : Nat) : Bool :=
  match ty with
  | .f32 => f32Finite v
  | .time80 => time80Ok v
  | _ => true

/-- Servo gains KP and KI: mantissa 1 to 65,535, exponent −40 to 0, reserved bits 0 (Table 11-14). -/
def gainOk (v : Nat) : Bool :=
  bitsAt v 0 16 != 0 && v < 2 ^ 24 && (bitsAt v 16 8 == 0 || 216 ≤ bitsAt v 16 8)

/-- Fields of a word, `n` fields of `w` bits, all at most `hi`. -/
def fieldsAtMost (v n w hi : Nat) : Bool := (List.range n).all (fun k => bitsAt v (w * k) w ≤ hi)

/-- Members whose range is not an interval: CU_CFG, NEUTRAL, TARGET, KP, KI, LCD_CFG, KEY_MODE, KEY_FUNC, LED_FUNC. -/
def specialOk (id v : Nat) : Bool :=
  let f := pFam id
  let m := pMem id
  if f == 4 then
    v.land 0x031F0773 == v && (bitsAt v 4 3 == 0 || bitsAt v 4 3 == 1 || bitsAt v 4 3 == 2 || bitsAt v 4 3 == 4 || bitsAt v 4 3 == 5)
  else if f == 21 then bitAt v 7 || (8 ≤ bitsAt v 0 6 && bitsAt v 0 6 ≤ 35)
  else if f == 26 then v.land 0x9F == v && bitsAt v 0 5 ≤ 27
  else if f == 7 then (if m == 3 || m == 4 then gainOk v else v.land 7 == v)
  else if f == 12 then
    if m == 0 then 32 ≤ bitsAt v 0 8 && bitsAt v 0 8 ≤ 128 && 25 ≤ bitsAt v 8 8 && bitsAt v 8 8 ≤ 33 && v < 2 ^ 17
    else if m == 1 then v < 2 ^ 16 && fieldsAtMost v 8 2 2
    else if m == 2 then fieldsAtMost v 8 4 4
    else v < 2 ^ 16 && fieldsAtMost v 4 4 5
  else true

end Sys2Proof.Machine
end

