-- ==== Sys2Proof/Machine/State.lean ====
section
/-! DEFINITION. The state of the LM3640 as plain data: one structure per subsystem, all of it collected in `State`, and
the state right after reset: a device as manufactured, before any supply is applied. -/

namespace Sys2Proof.Machine

/-! ### Supplies, start-up and stages (chapters 02, 19, 22) -/

/-- How far the stage-1 sequence of Table 2-3 has come. -/
inductive BootPhase where
  | off | started | vdd33 | vcore | crystal | pll | loaded | modulators | metering
deriving DecidableEq, Repr

/-- The shadow block of R44: none, waiting for B1, accumulating, or finished at B2. -/
inductive Shadow where
  | none | waiting | running | finished
deriving DecidableEq, Repr

/-- Supplies, straps, stages and the accounting source (R27, R28, R45, R431 to R445). -/
structure Power where
  /-- VBAT powers the always-on domain. -/
  aonUp : Bool
  /-- A backup cell is fitted. -/
  vbat : Bool
  phase : BootPhase
  /-- STAGE[2:0] (Table 2-1). -/
  stage : Nat
  bootFault : Nat
  /-- ACCT: the full engine drives CF0 to CF7 and the display. -/
  acct : Bool
  handoverPending : Bool
  shadow : Shadow
  /-- Cause of the handover that is due: 0 start, 1 Canopy restart, 2 DSP reload. -/
  handoverCause : Nat
  /-- P samples from the first settled sample (or the expiry of R411) to B1, for START_GAP. -/
  startGap : Nat
  /-- Strap HSEL: true selects the host UART (R296). -/
  hsel : Bool
  ext33 : Bool
  /-- Strap REFSEL: true selects REFIN (chapter 03). -/
  refsel : Bool
  /-- Ball TEST_EN is held high at power-up. -/
  testEn : Bool
  pfail : Bool
  /-- PFAIL has been released since power-up (R438). -/
  pfailReleased : Bool
  pfailCount : Nat
  /-- Model clock at the latest PFAIL assertion. -/
  pfailClk : Nat
  pfailLastUs : Nat
  lastHoldupUs : Nat
  restartDelayMs : Nat
  /-- The restart delay of R441 is running. -/
  restartWait : Bool
  /-- VAUX rose during the restart delay. -/
  vauxWaiting : Bool
  /-- Model clock at the VAUX threshold. -/
  startClk : Nat
  /-- Model clock at the modulators' start, a common edge of all root-derived clocks (R464). -/
  modClk : Nat
  buckVdd33 : Bool
  buckVcore : Bool
  buckRoot : Bool
  limitVdd33 : Bool
  limitVcore : Bool
  /-- SUPPLY0 to SUPPLY5, binary32, V. -/
  supplies : List Nat
  /-- TEMP0 to TEMP3, binary32, °C. -/
  temps : List Nat
  pInMw : Nat
  /-- AON copy of PFAIL_MV, PFAIL_HYST_MV and PFAIL_FILT_US (R439). -/
  aonPfail : Nat × Nat × Nat
  /-- CLEAR_PENDING as it was at power-up (POWER_STATE bit 5). -/
  clearAtPowerUp : Bool
  /-- Model clock at the first entry to stage 2 and at the latest entry to stage 3, since power-up. -/
  stage2At : Option Nat
  stage3At : Option Nat
  /-- Model clock of the latest VCORE trip (R441) and of the latest power-fail checkpoint (R50). -/
  tripClk : Nat
  failClk : Nat
deriving DecidableEq, Repr

/-! ### Time engine (chapter 11) -/

/-- Servo states in the order of Table 11-2. -/
inductive Servo where
  | free | acquire | locked | holdover | refused
deriving DecidableEq, Repr

/-- A TX timestamp entry (Table 11-6). -/
structure TxEntry where
  id : Nat
  port : Nat
  stepped : Bool
  time : Nat
deriving DecidableEq, Repr

/-- One blaze output (R267 to R270). -/
structure Blaze where
  armed : Bool
  done : Bool
  late : Bool
  stepped : Bool
  activeLow : Bool
  start : Nat
  period : Nat
  width : Nat
  count : Nat
  edges : Nat
  next : Nat
  /-- A pulse is in progress. -/
  pulse : Bool
  /-- Counter value at which the pulse in progress has run its width. -/
  pulseEnd : Nat
deriving DecidableEq, Repr

/-- A capture in a notch FIFO (Table 11-13). -/
structure NotchEntry where
  time : Nat
  rising : Bool
  stepped : Bool
deriving DecidableEq, Repr

/-- One notch input (R271, R272). -/
structure Notch where
  fifo : List NotchEntry
  lost : Nat
  overflow : Bool
  level : Bool
  count : Nat
  /-- The next capture is the first after an accepted step. -/
  stepMark : Bool
deriving DecidableEq, Repr

/-- The time counter and its servo (R249 to R266). Rates are in 2^-40, times in 2^-16 ns. -/
structure TimeEng where
  /-- The counter has been loaded at PLL lock (R30). -/
  running : Bool
  cnt : Nat
  /-- Remainder of the free-mode increment, in 2^-56 ns. -/
  frac : Nat
  servo : Servo
  f : Int
  r : Int
  /-- Model clock of the previous offset; none before the first after power-up or after a change of TIME_SOURCE (R254). -/
  lastOffsetClk : Option Nat
  /-- Model clock of the latest offset of any source, refused or not (SOURCE_TIMEOUT_MS, R258). -/
  quietClk : Nat
  /-- TIME_SOURCE has changed since the latest offset: the next one counts as from another master (R253). -/
  sourceChanged : Bool
  /-- Model clock of the last accepted offset. -/
  lastAcceptClk : Nat
  /-- Consecutive offsets with |θ| ≤ LOCK_NS while ACQUIRE. -/
  goodRun : Nat
  /-- |θ| of the latest offsets that were not refused, newest first, at most 16, and of the latest offset of all (Table 11-2). -/
  recent : List Nat
  latest : Nat
  /-- Time-error estimate at entry to HOLDOVER, ns. -/
  holdEst : Option Nat
  /-- Consecutive refused offsets from one master, newest first, at most 16. -/
  refusedRun : List Int
  refusedGm : Nat
  /-- Refused offsets since entry to REFUSED. -/
  refusedNum : Nat
  refusedFromLocked : Bool
  jumpRefused : Bool
  refusedUs : Int
  stepsRefused : Nat
  stepsAccepted : Nat
  offsetNs : Int
  /-- GM_ID, the identity of the master in use (R252), and the master of the latest accepted offset (R258). -/
  gm : Nat
  gmLast : Nat
  /-- The servo has been LOCKED since power-up (START_STEP of R260). -/
  lockedOnce : Bool
  /-- Sample-phase error against the grid (ALIGN_NS), 2^-16 ns. -/
  align : Int
  /-- The next P entry and the next W entry carry TIMESTEP (R261). -/
  stepP : Bool
  stepW : Bool
  realigning : Bool
  txInt : List TxEntry
  txHost : List TxEntry
  txLostInt : Nat
  txLostHost : Nat
  txOvInt : Bool
  txOvHost : Bool
  /-- LAST_LOCKED_RATE as held in P0 (R255). -/
  lastLocked : Int
  /-- Model clock at which the hour between two stores of f began (R255). -/
  storeClk : Nat
  /-- Model clock of the latest leap second: OCCURRED clears 24 h later (R251). -/
  leapClk : Nat
  /-- Whole second of the latest PPS offset (R273). -/
  ppsSecond : Option Nat
  blazes : List Blaze
  notches : List Notch
deriving DecidableEq, Repr

/-! ### Calendar and alarms (chapter 16) -/

/-- One alarm as the AON domain holds it (R378 to R387). -/
structure Alarm where
  cfg : Nat
  mtch : Nat
  mask : Nat
  fired : Bool
  skipped : Bool
  deferred : Bool
  missed : Bool
  /-- AL_LAST, CAL64. -/
  last : Nat
  count : Nat
  missedCount : Nat
  /-- The marker of R385, seconds from 2000. -/
  marker : Option Nat
  /-- First pending match (CAL64) and the count of later ones (R380). -/
  pend : Option (Nat × Nat)
  /-- Responses of the pending match still to carry out, as bits of AL_CFG. -/
  pendMask : Nat
  /-- The SEQ response waits for a sequencer to be armed. -/
  seqWait : Bool
  /-- WAKE_N is held low for this alarm. -/
  wake : Bool
deriving DecidableEq, Repr

/-- The always-on calendar (R365 to R377). -/
structure Rtc where
  cal : Cal
  /-- Progress to the next SUBSEC tick, in TIME cycles times 32,768, and what the rate of the TIME domain leaves of it, in 2^-40
  (R256). -/
  phase : Nat
  phaseRem : Int
  /-- Time counter at the latest tick edge (R370). -/
  edgeCnt : Nat
  /-- The signed 25-bit trim accumulator of R367. -/
  trimAcc : Int
  osf : Bool
  /-- The calendar has been set since OSF last set (R369). -/
  setSince : Bool
  /-- OSF was set by an AON brown-out (slot 23). -/
  osfBrownOut : Bool
  stMin : Option Nat
  stHour : Option Nat
  stDay : Option Nat
  stMonth : Option Nat
  stYear : Option Nat
  trimLearned : Int
  following : Bool
  slewing : Bool
  errorUs : Int
  steps : Nat
  /-- Pending leap copied into the AON domain (R377). -/
  leap61 : Bool
  leap59 : Bool
  /-- The doubled 23:59:59 of leap61 has been entered once. -/
  leapDoubled : Bool
  /-- The 32.768 kHz clock has stopped. -/
  stalled : Bool
  alarms : List Alarm
  /-- Prescaler counts that the slew has still to apply in this second (R375). -/
  slewLeft : Nat
  /-- The next 1/32 s of the second in which the slew may apply a count (R375). -/
  slewSlot : Nat
  /-- TRIM_LEARNED as stored in P0 (R376). -/
  trimStored : Int
  /-- Model clock of the latest hourly store (R376). -/
  storeClk : Nat
  /-- A commit has set the second; it begins at the next crystal edge (R371). -/
  begins : Bool
  /-- The latest tick edge began a second: SUBSEC became 0 at it, or passed 0 (R378). -/
  begun : Bool
  /-- A step of R375 waits for the crystal edge nearest a whole UTC second. -/
  stepDue : Bool
  /-- Model clock and calendar error at the start of the learning interval (R376). -/
  learn : Option (Nat × Int)
  /-- Counts that the slew has applied in that interval, positive for an advance. -/
  slewSum : Int
  /-- Model clock of the latest staging write (R372). -/
  stClk : Nat
  /-- Model clock of the latest match of an alarm with WAKE (R381). -/
  wakeClk : Nat
deriving DecidableEq, Repr

/-! ### Heartwood store and sessions (chapter 15) -/

/-- A checkpoint being written (R346). -/
structure Ckpt where
  /-- Byte address of the copy. -/
  base : Nat
  kind : Nat
  seq : Nat
  /-- The 16,384 bytes of the finished copy. -/
  image : List Byte
deriving DecidableEq, Repr

/-- The Heartwood store, its engine and what the Warden keeps about it (R338 to R364). -/
structure Heart where
  /-- The 524,288 bytes of the array, in canonical form. -/
  mem : List Host.Cell
  /-- The word accesses of the writes begun at `flightClk`, oldest first: where each was, and the bytes that stood there before it.
  A VCORE trip may undo the last of them (R354; assumption 124). -/
  flight : List (Nat × List Byte)
  flightClk : Nat
  /-- The TORN list of P5 pages, oldest first (R355). -/
  tornList : List Nat
  /-- Words with bits that read inverted, ascending (R338). -/
  flips : List Flip
  /-- Words whose rewrite waits at scrub priority, oldest first, each with whether it refreshes a weak one (R359, R360). -/
  rewrites : List (Nat × Bool)
  scrubRunning : Bool
  /-- Model clock of the latest scrub read (R359). -/
  scrubClk : Nat
  /-- Words read in the scrub pass in progress. -/
  scrubPos : Nat
  scrubPasses : Nat
  refreshed : Nat
  eccCorrected : Nat
  eccUncorrectable : Nat
  uncorrSeen : Bool
  twins : Nat
  repairs : Nat
  ckpt : Option Ckpt
  /-- The copy (0 A, 1 B) and SEQUENCE of the last complete checkpoint. -/
  ledger : Option (Nat × Nat)
  ckptUs : Nat
  /-- LEDGER_RESTARTED and the cause of LEDGER_FAULT (R345). -/
  restarted : Bool
  faultCause : Option Nat
  /-- The copy that the loader took the Pioneer totals from, with its SEQUENCE. -/
  totalsCopy : Option (Nat × Nat)
  /-- The complete copy that everything else comes from. -/
  restCopy : Option Nat
  /-- What R54 compares at B1 of the checkpoint loaded: its counter value, TIME_SOURCE and UTC offset, and OSF as read at stage
  2. -/
  resume : Option (Nat × Nat × Int × Bool)
  /-- The Warden has loaded the ledger into the DSP engine (R346). -/
  loaded : Bool
  /-- Words written by NV_WRITE since power-up (P5). -/
  hostWrites : Nat
  /-- SEQUENCE of the Pioneer record in force; none while no valid record exists (R36). -/
  pioSeq : Option Nat
  /-- Channels of the committed bank A sets that P2 holds, with the sets' bytes (R343). -/
  p2Sets : List (Nat × List Byte)
  /-- P samples without Pioneer metering, counted since the modulators started (R36). -/
  pioGap : Nat
  /-- A record rebuilt at stage 3 comes into use at the next block boundary (R36). -/
  pioWait : Bool
deriving DecidableEq, Repr

/-- State of one password, as the password record holds it (R348): of SHA-256 the 29 bytes that fit (assumption 21). -/
structure Pw where
  /-- 0 OPEN, 1 SET, 2 CLEARED. -/
  st : Nat
  digest : List Byte
deriving DecidableEq, Repr

/-- An open session (R347). -/
structure Session where
  part : Nat
  write : Bool
  path : Path
deriving DecidableEq, Repr

/-- Failures and lockout of one partition (R349). -/
structure Lockout where
  fails : Nat
  /-- LOCKOUT_S in force; 0 none. -/
  lockS : Nat
  /-- The lockout length the next failure doubles. -/
  nextS : Nat
  lockClk : Nat
  /-- The first refusal of this lockout has been logged. -/
  logged : Bool
  authFails : Nat
deriving DecidableEq, Repr

/-- Sessions and passwords (R347 to R350). -/
structure Sess where
  open_ : List Session
  /-- P1 read, P1 write, P2 read, …, P5 write. -/
  pws : List Pw
  /-- Lockout of P0 to P5. -/
  locks : List Lockout
deriving DecidableEq, Repr

/-! ### Parameters (chapter 14) -/

/-- Applied, committed, pending and scheduled values: sparse lists of ID and value; an unlisted member stands at its
reset value (R327 to R330). -/
structure Params where
  applied : List (Nat × Nat)
  committed : List (Nat × Nat)
  pending : List (Nat × Nat)
  /-- Committed values that wait for the instant at which their rule takes them into use (R329). -/
  scheduled : List (Nat × Nat)
  commitSeq : Nat
  /-- The COMMIT_PARAMS whose commit is in progress (R328). -/
  committing : Option Hdr
  /-- The node number in force at the first power-up, from which the PMU identity codes that nobody has staged are computed
  (R248). -/
  idNode : Option Nat
deriving DecidableEq, Repr

/-! ### Host interface (chapter 13) -/

/-- What waits on a lane (R309): a request in a receive buffer, or a reply of link hardware behind earlier requests. -/
inductive RxItem where
  | request (packet : List Byte) | reply (packet : List Byte)
deriving DecidableEq, Repr

/-- Link hardware, lanes, snap window and hush (R296 to R319). -/
structure Link where
  hushed : Bool
  hushSrc : Nat
  hushCount : Nat
  /-- Event bits of IRQ_STATUS (Table 13-10). -/
  irq : Nat
  irqMask : Nat
  directCrcErr : Bool
  directRoErr : Bool
  dlAddr : Nat
  dlAccepted : Bool
  dlBadCrc : Bool
  dlRefused : Bool
  dlLocked : Bool
  dlCount : Nat
  rxDropped : Nat
  frameErrors : Nat
  /-- SCRATCH0 to SCRATCH31. -/
  scratch : List Nat
  /-- The time group latched by a first read (R317). -/
  timeLatch : Option Nat
  /-- The calendar group latched by a first read (R317). -/
  calLatch : Option Cal
  /-- Model clock of the two latches: each is released 2 ms after it. -/
  timeLatchClk : Nat
  calLatchClk : Nat
  /-- Model clock of the latest request carried out on each path that holds a session (R347). -/
  heard : List (Path × Nat)
  /-- Outbound streams: packets, oldest first; the head may be a remainder (R303). -/
  ctrlOut : List (List Byte)
  bulkOut : List (List Byte)
  /-- The head of the control stream is the rest of a reply that an SPI frame has begun (R303). -/
  ctrlCut : Bool
  /-- Direct replies that wait on the UART (R306, R307). -/
  directOut : List (List Byte)
  /-- Receive buffers in use and replies of link hardware that wait behind them, oldest first (R309). -/
  rxCtrl : List RxItem
  rxBulk : List RxItem
  /-- Bytes that the device drove in its latest frame. -/
  sent : List Byte
  /-- The UART frame in transmission: whether of the bulk lane, its bytes with the delimiter, and the model clock of its start (R307). -/
  line : Option (Bool × List Byte × Nat)
  /-- HOST_BAUD in force, taken from P0 at power-up (R319). -/
  baud : Nat
  cmdAccepted : Nat
  cmdRefused : Nat
  lastRefused : Nat
  /-- PARAMS of the fragments received so far of open messages, by path, lane (true the bulk lane), TAG and OPCODE (R310). -/
  frag : List (Path × Bool × Nat × Nat × List Byte)
  /-- BLOCK_SEQ and the values copied into the snap window at the latest block boundary (R318). -/
  blockSeq : Nat
  snapP : List Nat
  snapQ : List Nat
  snapS : List Nat
  estimatedMap : Nat
deriving DecidableEq, Repr

/-! ### Tamper, keys and the Clearing (chapter 17) -/

/-- One tamper source slot (R390). -/
structure Slot where
  active : Bool
  latched : Bool
  onVbat : Bool
  count : Nat
  last : Nat
  /-- The response in force: the AON copy at stage 0, the reset response at stage 1, the committed one from stage 2. -/
  resp : Nat
  /-- The committed response that the AON domain holds (R393). -/
  aonResp : Nat
  /-- The condition holds and waits for SRC_PERSIST_MS, since a model clock. -/
  persisting : Bool
  since : Nat
deriving DecidableEq, Repr

/-- A raise as its log entries show it (Table 17-3): evaluation instant, slot, response, circuit, and whether the source stays
ACTIVE. -/
structure Raise where
  time : Nat
  slot : Nat
  resp : Nat
  circuit : Nat
  holds : Bool
deriving DecidableEq, Repr

/-- A Clearing that has been raised: its triggering slots, and the raises of the same evaluation, whose entries follow it (R395);
none where the tamper buffer holds them (R399). -/
structure ClearJob where
  mask : Nat
  raises : List Raise
deriving DecidableEq, Repr

/-- A session key and its nonces (R311, R400). -/
structure SessKey where
  path : Path
  key : List Byte
  rxNonce : Nat
  txNonce : Nat
deriving DecidableEq, Repr

/-- Tamper slots, the ladder, keys, TRNG and the TAP (R390 to R409). -/
structure Tamper where
  slots : List Slot
  /-- The tamper buffer of the AON domain: slot and CAL64 (R399). -/
  buffer : List (Nat × Nat)
  overflow : Nat
  vbatEntries : Nat
  vbatOverflow : Nat
  clearPending : Bool
  /-- Clearings raised and not yet carried out, with their triggering slots (R469). -/
  clearQueue : List ClearJob
  clearings : Nat
  /-- The identity key in the key store; the number names the key. -/
  identity : Option Nat
  /-- The wrapped key copy in P0. -/
  wrapped : Option Nat
  /-- Identity keys made so far. -/
  keySerial : Nat
  owner : Option (List Byte)
  challenge : List Byte
  keys : List SessKey
  /-- Consecutive AUTH_FAIL on secured packets, by path. -/
  authRuns : List (Path × Nat)
  trngOk : Bool
  trngFails : Nat
  injectFails : Nat
  /-- Consecutive windows with one detector alone reporting, clocks 0 to 2 (R392). -/
  disagree : List Nat
  /-- Detector reports of the previous window: (D, A) of clocks 0 to 2 (R391). -/
  detPrev : List (Bool × Bool)
  /-- The latest injection of R392 failed. -/
  injectBad : Bool
  jtagIr : Nat
  jtagWait : Option Nat
  clearedSinceUp : Bool
  /-- A Clearing has erased the wrapped key copy, and no key has been made since (R360). -/
  erased : Bool
  /-- Model clock of the latest clock-monitor window of clocks 0 to 2 (R391), of the latest injection (R392), of the latest
  check of the key store (R400) and of the latest failed test or restart of the TRNG (R402); none before the first since
  power-up. -/
  monClk : List (Option Nat)
  injectClk : Option Nat
  keyClk : Option Nat
  trngClk : Nat
deriving DecidableEq, Repr

/-! ### Warden (chapter 18) -/

/-- A log entry waiting in Warden RAM; SEQ is given when it is written (Table 18-3). -/
structure LogEntry where
  time : Nat
  code : Nat
  data : List Byte
  flags : Nat
  clk : Nat
deriving DecidableEq, Repr

/-- Supervision, log buffer and restarts (R410 to R417, R426). -/
structure Warden where
  running : Bool
  canopyRunning : Bool
  dspRunning : Bool
  buffer : List LogEntry
  /-- LOG_LOST. -/
  lost : Nat
  /-- Entries discarded since the last LOG_LOST entry. -/
  lostSince : Nat
  /-- Highest SEQ held in a valid entry. -/
  logSeq : Nat
  health : Nat
  /-- Consecutive readings on the other side of the window, sensors 0 to 11 (R413). -/
  sensorRun : List Nat
  /-- Model clock of the latest reading of each sensor. -/
  sensorClk : List (Option Nat)
  canopyRestarts : Nat
  /-- Unplanned Canopy restarts in the present count of R412, and model clock of the latest. -/
  unplanned : Nat
  unplannedClk : Nat
  /-- A planned restart waits for the next block boundary, with its REASON. -/
  restartReq : Option Nat
  /-- An unplanned restart waits for the next block boundary. -/
  restartUnplanned : Bool
  /-- Canopy is stopped and waits for the back-off of R412, s; none when it does not wait. -/
  backoff : Option Nat
  /-- Cause of the Canopy stop in progress, with REASON. -/
  stopCause : Nat × Nat
  stopClk : Nat
  dspReloads : Nat
  /-- A DSP frame expiry came within the last 60 s, by model clock. -/
  dspExpiryClk : Option Nat
  dspReloadWait : Bool
  wardenRestarts : Nat
  /-- Cause of the Warden restart in progress. -/
  wardenCause : Nat
  wardenClk : Nat
  /-- Critical slots missed in a row. -/
  missedFrames : Nat
deriving DecidableEq, Repr

/-- One flash region (R420): state 0 WRITTEN, 1 TRIAL, 2 GOOD, 3 REVOKED. -/
structure Region where
  st : Nat
  act : Nat
  trials : Nat
  version : Nat
  rollbackMin : Nat
  valid : Bool
deriving DecidableEq, Repr

/-- The update engine, the banks and the OTP thermometer (R418 to R425). -/
structure Update where
  /-- UPDATE_STATE: 0 IDLE to 5 TRIAL. -/
  st : Nat
  /-- Kinds of which the latest choice of an image found none that is valid (R28, R337). -/
  absent : List Nat
  header : List Byte
  payload : List Byte
  /-- Model clock at the switch that began the trial. -/
  trialClk : Nat
  /-- Regions 0 and 1 of kinds 0 to 3. -/
  banks : List (Region × Region)
  /-- Active region of kinds 0 to 3. -/
  active : List Nat
  rollback : Nat
  /-- A failed trial waits for the kind's next safe point to switch back, with the cause. -/
  revert : Option Nat
  /-- The factory record in use: copy 0 A or 1 B, 0xFF nominal values; the Warden chooses it at stage 2 (R421). -/
  factory : Nat
deriving DecidableEq, Repr

/-- Transplant packages (R427 to R429). -/
structure Transplant where
  /-- PREPARE accepted: DEST_UNIQUE_ID and DEST_PUB. -/
  prepare : Option (Nat × List Byte)
  package : Option (List Byte)
  /-- An import verified and waiting for its block boundary: plaintext body and Bx. -/
  importBody : Option (List Byte × Nat)
  srcId : Nat
  imported : Bool
deriving DecidableEq, Repr

/-! ### Ring network (chapter 12) -/

/-- What a frame carries. -/
inductive FrameKind where
  | reply | ptp | phasor | bulk | host | supervision | config | forwarded
deriving DecidableEq, Repr

/-- What a PTP message needs when it leaves (R289, R290): of a forwarded Sync its source port identity, sequenceId, receive
instant, ingress peer delay where it is valid, one-step and correctionField; of a forwarded Follow_Up source, sequenceId and
correctionField; of a Pdelay_Resp the port identity that asked, with the request's sequenceId and correctionField. -/
inductive PtpMark where
  | sync (source seq rx : Nat) (delay : Option Nat) (oneStep : Bool) (corr : Int)
  | followUp (source seq : Nat) (corr : Int)
  | response (asker seq : Nat) (corr : Int)
deriving DecidableEq, Repr

/-- One of the device's own frames, or a forwarded one, on its way to the ports: the UDP payload, or for the host's, for
PTP, for supervision and for forwarded frames the whole Ethernet frame without its FCS, a forwarded one with its HSR tag. -/
structure OwnFrame where
  prio : Nat
  kind : FrameKind
  /-- Destination address and UDP port; 0 and 0 for raw Ethernet frames. -/
  dst : Nat × Nat
  /-- Source UDP port; 0 for raw Ethernet frames. -/
  src : Nat
  bytes : List Byte
  /-- Timestamp request ID. -/
  tsId : Option Nat
  /-- HSR sequence number given at admission. -/
  hsrSeq : Nat
  /-- Ports from which it leaves: bit 0 PORT_A, bit 1 PORT_B. -/
  ports : Nat
  /-- `stepsAccepted` at submission, for the TIMESTEP flag of R265. -/
  stepMark : Nat
  /-- The reserve limiter has held the frame back and counted it (R285). -/
  held : Bool
  /-- It has left on a port. -/
  left : Bool
  ptp : Option PtpMark
deriving DecidableEq, Repr

/-- A Pdelay_Resp that waits for its follow-up (R289): sequenceId, when the request arrived at the neighbour, when the response
arrived here, and its correctionField. -/
structure RespWait where
  seq : Nat
  t2 : Nat
  t4 : Nat
  corr : Int
deriving DecidableEq, Repr

/-- A two-step Sync that waits for its Follow_Up (R252): source port identity, sequenceId, receive instant, correctionField. -/
structure SyncWait where
  source : Nat
  seq : Nat
  rx : Nat
  corr : Int
deriving DecidableEq, Repr

/-- A master heard on a port (R252): port and source port identity, model clock of its latest Announce and of the one before, and
what the best-master algorithm compares, the better value lower. -/
structure Foreign where
  port : Nat
  source : Nat
  clk : Nat
  prev : Option Nat
  gm : Nat
  rank : List Nat
deriving DecidableEq, Repr

/-- One port (R276, R277, R289, R295). -/
structure Port where
  /-- LINK: 0 down, 1 up at 2.4 V, 2 up at 1.0 V. -/
  link : Nat
  /-- Mean link delay in 2^-16 ns, once three responses have come. -/
  peerDelay : Option Nat
  /-- Consecutive peer-delay responses, up to three. -/
  peerRun : Nat
  linkDowns : Nat
  rxFrames : Nat
  txFrames : Nat
  rxErrors : Nat
  sqi : Nat
  /-- Supervision intervals in a row without the own frame's return (R281). -/
  superMiss : Nat
  /-- The own supervision frame of the current interval has returned. -/
  superBack : Bool
  /-- Frames transmitted in the last 100 ms, newest first: model clock and byte times on the wire (R285). -/
  sentLog : List (Nat × Nat)
  /-- Model clock of the latest Sync of the selected master on this port with a valid peer delay (R291). -/
  syncClk : Option Nat
  /-- Model clock of the latest peer-delay request (R289). -/
  askClk : Option Nat
  /-- A peer-delay request is unanswered; SEQUENCE of the next. -/
  peerAsk : Bool
  peerSeq : Nat
  /-- A Pdelay_Resp, and a two-step Sync, that wait for their follow-ups. -/
  resp : Option RespWait
  syncWait : Option SyncWait
  /-- Source port identity, sequenceId, and residence time with the ingress peer delay, of the two-step Syncs that left this port
  forwarded and whose Follow_Up has not (R290). -/
  residence : List (Nat × Nat × Nat)
  /-- The frame that left last. -/
  last : Option OwnFrame
deriving DecidableEq, Repr

/-- A frame held for NET_RX_READ. -/
structure RxFrame where
  port : Nat
  time : Nat
  bytes : List Byte
deriving DecidableEq, Repr

/-- Switch, MAC and rate control (R278 to R294). -/
structure Net where
  /-- The Warden has brought up ports and switch (R38). -/
  up : Bool
  /-- NET_MODE and NODE in force, taken from P0 at power-up. -/
  mode : Nat
  node : Nat
  ports : List Port
  ringOpen : Bool
  hsrSeq : Nat
  /-- Discard table: source MAC and sequence number, with the model clock of the entry, oldest first (R280). -/
  discard : List ((Nat × Nat) × Nat)
  /-- Learning table of LINE mode: MAC, with port and model clock, oldest first (Table 12-2). -/
  learn : List (Nat × Nat × Nat)
  /-- Frames in the egress queues, in order of arrival. -/
  egress : List OwnFrame
  /-- Own frames of priority 6 and 0 that wait for admission (R285). -/
  waiting : List OwnFrame
  /-- Token bucket in 1/1,024,000 byte, as it stood at a model clock (R285). -/
  tokens : Nat
  tokenClk : Nat
  dupDiscarded : Nat
  dupPassed : Nat
  reserveHeld : Nat
  cmdWrongNode : Nat
  rxQueue : List RxFrame
  rxLost : Nat
  /-- Entries that left the discard table before their second copy came (R280). -/
  expired : List (Nat × Nat)
  /-- MAC addresses of IP addresses, as their frames came in, oldest first (Table 12-2). -/
  neigh : List (Nat × Nat)
  /-- The masters that Announce messages of PTP_DOMAIN offer, and the selected one: grandmaster identity and source port identity
  (R252). -/
  foreign : List Foreign
  master : Option (Nat × Nat)
  /-- A supervision frame has been sent, so that the interval in progress expects its return (R281). -/
  superSent : Bool
  /-- Model clock of the latest supervision frame sent. -/
  superClk : Option Nat
  /-- Broadcast IDENTIFY requests whose reply is still to leave: model clock, address, UDP port and TAG, oldest first (R283). -/
  idents : List (Nat × Nat × Nat × Nat)
deriving DecidableEq, Repr

/-! ### Operator interface and field test (chapter 20) -/

/-- A key event (Table 20-5). -/
structure KeyEvent where
  time : Nat
  key : Nat
  event : Nat
deriving DecidableEq, Repr

/-- A forced output (R460): its number (Table 20-6), its level, the path of the request, the model clock at which the force began
and its DURATION_S. -/
structure Force where
  output : Nat
  level : Bool
  path : Path
  clk : Nat
  durS : Nat
deriving DecidableEq, Repr

/-- Display, keys, console, TDAC_OUT and forced outputs (R446 to R462). -/
structure Hmi where
  /-- Layout item in P0 with its SEQUENCE (R447). -/
  layout : Option (Nat × List Byte)
  /-- A new layout waits for the next block boundary. -/
  layoutNext : Option (Nat × List Byte)
  item : Nat
  scrolling : Bool
  held : Bool
  segTest : Bool
  /-- Model clock at which the item shown came up, or at the latest key while it is held (R451), and at which the segment test
  began. -/
  itemClk : Nat
  segClk : Nat
  /-- Register values latched at the last block boundary: the digits' sources. -/
  latched : List (Option Int)
  /-- Keys pressed, and model clock of each key's latest press. -/
  keys : List Bool
  keyClk : List Nat
  /-- Keys whose press has already counted as a long press (R453). -/
  longs : List Bool
  /-- NEXT or PREV pressed and not yet acted on: key function and model clock (R453). -/
  step : Option (Nat × Nat)
  fifo : List KeyEvent
  lost : Nat
  keyEvents : Nat
  /-- Console owner: 0 none, 1 service UART, 2 optical, and the model clock at which it took the console (R456). -/
  owner : Nat
  ownerClk : Nat
  probe : Bool
  cable : Bool
  attaches : Nat
  suBaud : Nat
  /-- Lines that the console has sent, newest last. -/
  out : List (List Byte)
  tdacOn : Bool
  tdacConsole : Bool
  tdacCode : Nat
  /-- Model clock at which TDAC_OUT's level began, and its DURATION_S. -/
  tdacClk : Nat
  tdacS : Nat
  /-- Forced outputs (R460). -/
  forces : List Force
deriving DecidableEq, Repr

/-! ### Analog front end and coppice (chapters 03, 04) -/

/-- The calibration of a converter pair: OFFSET_TRIM in 1/256 code, GAIN_TRIM, the gain code they were measured at, and for each
gain code the model clock of its latest calibration (R65, R92, Table 3-6). -/
structure Trim where
  off : Int
  gain : Nat
  code : Nat
  cals : List (Nat × Nat)
deriving DecidableEq, Repr

/-- A correction of the spare's output (R85): offset in codes, gain, and the phase term in steps of 40 µs/65,536. -/
structure Corr where
  off : Rat
  gain : Rat
  steps : Int
deriving DecidableEq, Repr

/-- What a decimation chain delivers for 40 µs of input: the P code and the 15 W codes, oldest first and before the clamp, and the MOD
cycles of the input above the clamp level (R76, R126). -/
structure Dec where
  p : Int
  w : List Int
  marks : List Nat
deriving DecidableEq, Repr

/-- One converter pair (R62, R76, R78, R92, R96). -/
structure Conv where
  trim : Trim
  /-- Rests of this converter, for LIN_EVERY. -/
  rests : Nat
  /-- What the decimation chain has delivered, newest first: the group delay's worth of frames around the one computed now (R76,
  R130). -/
  pipe : List Dec
  /-- What the decimation filters still hold of the bit stream, in frames of 960 bits, newest first (R126, R127). -/
  bits : List Nat
  /-- The code of the running STUCK count, and how many settled samples in a row have held it (R78). -/
  runCode : Int
  run : Nat
  /-- STUCK has been detected (R78). -/
  stuck : Bool
  /-- The latest P sample was clamped or carried an overrange mark (R76, R79). -/
  ovr : Bool
  /-- A modulator reset since the latest frame, which the other converter on the channel has yet to show too (R79). -/
  resetNow : Bool
  /-- P and W samples still unsettled. -/
  unsP : Nat
  unsW : Nat
  resets : Nat
deriving DecidableEq, Repr

/-- One channel (R57, R72 to R77, R85, R105 to R109). -/
structure Chan where
  /-- Latest raw P code before the clamp and latest P and W codes of the streams, with their flags. -/
  p : Int
  w : Int
  flagsP : Nat
  flagsW : Nat
  /-- P and W samples of the channel's stream still unsettled. -/
  unsP : Nat
  unsW : Nat
  satCount : Nat
  /-- P samples since the latest clamped sample; the event ends after 68 (R77). -/
  clampQuiet : Nat
  clampOpen : Bool
  peak : Nat
  satBlock : Bool
  unsBlock : Bool
  /-- Latched at the last block boundary: PEAK_PCT and HEALTH. -/
  peakPct : Nat
  health : Nat
  /-- Marks for the next P entry and the next W entry: SPLICE, FILTER_CHANGE, SETTLED_RESTART … as queue flag bits. -/
  markP : Nat
  markW : Nat
  matchGain : Nat
  matchOffset : Int
  matchPhase : Int
  matchClk : Option Nat
  /-- Die temperature of the stand at the last live match, binary32. -/
  matchTemp : Nat
  pcResult : Nat
  pcOhm : Nat
  pcDeg : Nat
  pcClk : Option Nat
  pcCount : Nat
  /-- A pending fault verdict of R109 has been logged. -/
  pcFault : Nat
  lost : Bool
  /-- Members 0 to 19 of CHAN_STAT as latched at the last block boundary (R80). -/
  latch : List Nat
deriving DecidableEq, Repr

/-- A pending path check (R111): whom it satisfies (sequencers 0 to 3, 4 a request, 5 an automatic check), its channel, whether
it takes a baseline, and whether an abort has placed it at the head (R112). -/
structure Check where
  by_ : List Nat
  chan : Nat
  baseline : Bool
  head : Bool
deriving DecidableEq, Repr

/-- One stand (R81 to R104, R110 to R112). -/
structure Stand where
  /-- STATE and PHASE as Table 4-9 codes them. -/
  st : Nat
  slot : Nat
  phase : Nat
  spareChan : Nat
  pinChan : Nat
  condemned : Nat
  /-- The spare serves `spareChan`. -/
  carrying : Bool
  /-- The first splice of the slot used stored terms (R88). -/
  stored : Bool
  /-- The rest of this slot is skipped. -/
  skip : Bool
  /-- The spare carries on into the next slot (R64). -/
  runOn : Bool
  /-- PAUSE, or PIN of a channel, takes effect at the splice back. -/
  pauseReq : Bool
  pinReq : Option Nat
  /-- A converter under REQUALIFY. -/
  requal : Option Nat
  splices : Nat
  skipped : Nat
  skipLogged : Nat
  skipLogClk : Option Nat
  xcheckFails : Nat
  lastInl : Nat
  /-- Latest live cross-check of the spare on each channel: channel, passed, model clock (R96). -/
  checks : List (Nat × Bool × Nat)
  /-- P samples since the start of the slot (R82). -/
  n : Nat
  /-- The calibration in use before the rest of this slot, until the pair is back (R89, R97, R98). -/
  old : Option Trim
  /-- Channel of a takeover in the Pioneer record's spare assignment; 0xFF none (R99). -/
  assign : Nat
  /-- The channel under check, its queue, the samples of the probe so far, newest first, and whether one of them carried
  UNSETTLED or SATURATED (R106, R107). -/
  active : Option Check
  queue : List Check
  probe : List Rat
  probeBad : Bool
  /-- Source of the resting pair: 0 SHORT, 1 test DAC at +0.5 full scale, 2 at −0.5, 3 to 7 the linearity points, 8 measured
  (R92); P samples since the source moved; and for each source the count and the sum of the raw codes measured. -/
  dac : Nat
  dacN : Nat
  meas : List (Nat × Int)
  /-- Pairs of the running match: home and spare sample of one instant, newest first, at most 19,932 (R85). -/
  pairs : List (Rat × Rat)
  /-- The overlap has been restarted, so that its splice waits for 19,932 pairs (R64). -/
  again : Bool
  /-- The second overlap in progress follows a requalification of the home converter (R101). -/
  requalBack : Bool
  /-- Correction of the spare's output in force, and the one of the first splice of this slot (R85, R89). -/
  corr : Corr
  first : Corr
deriving DecidableEq, Repr

/-- References and their comparison (R65 to R71). -/
structure Ref where
  dev : Int
  disagree : Bool
  bad : Bool
  /-- REF_B is the conversion reference. -/
  onB : Bool
  badRun : Nat
  goodRun : Nat
  /-- Baseline ratio, 2^-30; none until captured. -/
  baseline : Option Nat
  /-- Baseline of REFIN as stored in P0 (R70). -/
  stored : Option Nat
  /-- Latest ratio. -/
  ratio : Nat
  rebase : Bool
  live : Bool
  /-- Model clock of the latest comparison result (R68). -/
  resClk : Option Nat
deriving DecidableEq, Repr

/-! ### Sequencers (chapter 05) -/

/-- A sequencer's job: a snapshot with or without a W frame, or a list of channels to check. -/
inductive Job where
  | snapshot (wFrame : Bool) | checks (chans : List Nat)
deriving DecidableEq, Repr

/-- A job with its trigger as armed (Tables 5-5 and 5-6). -/
structure Arming where
  job : Job
  source : Nat
  index : Nat
  policy : Nat
  rep : Bool
  start : Nat
  periodMs : Nat
deriving DecidableEq, Repr

/-- One sequencer (R114 to R119). -/
structure Seq where
  /-- 0 IDLE, 1 ARMED, 2 RUNNING. -/
  st : Nat
  arm : Option Arming
  /-- Arming that takes effect when the running job ends; `some none` disarms. -/
  next : Option (Option Arming)
  /-- Trigger instant of the running job. -/
  t : Nat
  held : Option Nat
  overrun : Nat
  /-- Channels of the running check sequence not yet checked. -/
  left : List Nat
  /-- Next TIME instant; 0 none. -/
  due : Nat
  /-- A stepped-over one-shot fires at the next tick. -/
  late : Bool
deriving DecidableEq, Repr

/-! ### Shaping filters (chapter 06) -/

/-- A coefficient set as Table 6-4 lays it out, with its bytes. -/
structure CoefSet where
  id : Nat
  taps : List Int
  /-- b0, b1, b2, a1, a2 of each used biquad. -/
  biquads : List (List Int)
deriving DecidableEq, Repr

/-- A swap in progress or held (R148, R149). -/
structure Swap where
  /-- Bank that comes in: true bank B. -/
  toB : Bool
  prime : Nat
  fade : Nat
  /-- The fade has begun. -/
  fading : Bool
  /-- P samples since n0, or since the fade began. -/
  n : Nat
  /-- BQ_SETTLE as it stood at the start of the swap (R153). -/
  settle : Nat
deriving DecidableEq, Repr

/-- The shaping filter of a channel: what its instances share (R137, R138), and the channel's Pioneer branch. -/
structure Filt where
  stopped : Bool
  /-- The active bank: true bank B. -/
  actB : Bool
  bankA : CoefSet
  bankB : Option CoefSet
  swap : Option Swap
  held : Option (Nat × Nat)
  displaced : Nat
  /-- Pending load and its KEEP flag (R142). -/
  load : Option (CoefSet × Bool)
  /-- Load in progress on the home instance between the splices of its rest (R143). -/
  loading : Option (CoefSet × Bool)
  /-- P samples still UNSETTLED after a start, reload or swap, above what the input carries. -/
  uns : Nat
  /-- FILTER_CHANGE on the next P entry. -/
  change : Bool
  /-- Pioneer branch: biquad coefficients, states, and BQ_SETTLE samples still unsettled (R140, R141). -/
  pioBq : List (List Int)
  pioSt : List (List Rat)
  pioUns : Nat
  /-- Latest 500 inputs of the branch, for cycle repeat, newest first (R140, Table 6-6). -/
  pioRing : List Rat
  /-- Biquads of a KEEP load that changed them, which the Pioneer branch takes at the next block boundary strictly after, with
  the number of the 200 ms block in which the load took effect (R141). -/
  pioReload : Option (Nat × List (List Int))
  /-- Committed bank A set not yet loaded since the DSP start (R40). -/
  owed : Bool
deriving DecidableEq, Repr

/-- The filter instance behind one converter (R137). -/
structure Inst where
  /-- FIR history of the channel's input, newest first. -/
  hist : List Rat
  /-- States of each bank's biquads: v[n−1], v[n−2], y[n−1], y[n−2] per biquad. -/
  stA : List (List Rat)
  stB : List (List Rat)
  /-- The latest 500 inputs for cycle repeat, newest first (Table 6-6). -/
  ring : List Rat
deriving DecidableEq, Repr

/-! ### Result queue and recorder (chapter 07) -/

/-- One P instant of what the full engine meters (R72, R185): the primary values of the 36 channels with substitutes in place,
the 15 W codes of each from that instant on, and as bit maps the channels whose value is a substitute, those whose value is
clamped, those with an unsettled or a clamped W sample, and those under a path check (R113); `step` marks the first instant
after an accepted time step (R207, R238). -/
structure Wave where
  /-- Number of the sample since the kernels started; an accepted time step leaves it contiguous. -/
  n : Nat
  t : Nat
  x : List Rat
  w : List (List Int)
  est : Nat
  sat : Nat
  /-- Channels whose W sample is unsettled or clamped, one map for each of the 15 W samples. -/
  wEst : List Nat
  wSat : List Nat
  probe : Nat
  step : Bool
deriving DecidableEq, Repr

/-- One P instant of the sample history (R122): its instant, the P codes and flags of the 36 channels, and for each channel
the 15 W codes from that instant on, oldest first, with their flags. -/
structure Snap where
  t : Nat
  p : List Int
  pf : List Nat
  w : List (List Int)
  wf : List (List Nat)
deriving DecidableEq, Repr

/-- One stream from a QUEUE_STREAM start to its stop (R501), with the selection taken at the start (R173). -/
structure StreamWin where
  /-- The stream holds the selected instants later than this counter value, and not later than the stop's. -/
  after : Nat
  stop : Option Nat
  single : Nat
  frame : Nat
  div : Nat
  /-- No frame of it has been taken since the start, or since an accepted time step (R161). -/
  fresh : Bool
deriving DecidableEq, Repr

/-- A selected P instant whose entries have still to be written: the sample, P_SINGLE and P_FRAME, and whether its frame is due
a TIME_MARK for being first. -/
structure StreamDue where
  snap : Snap
  single : Nat
  frame : Nat
  first : Bool
deriving DecidableEq, Repr

/-- The result queue (R154 to R167). -/
structure Queue where
  streaming : Bool
  push : Bool
  /-- The running stream and stopped ones with instants still to come, oldest first (R501). -/
  wins : List StreamWin
  /-- Selected instants whose samples are there and whose entries are not yet written (R163). -/
  due : List StreamDue
  /-- Entries, oldest first, each with the number of words skipped before it at the end of the ring. -/
  entries : List (Nat × List Nat)
  /-- Words of entries already sent and not acknowledged: count of entries. -/
  sentCount : Nat
  readSeq : Nat
  /-- Next write position in the ring. -/
  wpos : Nat
  /-- Words in use, skipped words included. -/
  level : Nat
  /-- IRQ_LEVEL_WORDS as the latest queue write took it (R319). -/
  irqLevel : Nat
  peak : Nat
  dropped : Nat
  overflow : Bool
  /-- Drop count, first and last dropped P instants of the open gap. -/
  gap : Option (Nat × Nat × Nat)
  /-- The drops so far are of X records alone, which have no P instant (assumption 116). -/
  gapX : Bool
  /-- Group that stands for the next TIME_MARK decision: SECONDS[47:8] of the previous P frame, none when one is due. -/
  markP : Option Nat
  markW : Option Nat
  pushSeq : Nat
  /-- The reserve limiter has held the next push packet back and counted it (R285). -/
  pushHeld : Bool
  /-- Entries in each push packet that has not left yet, oldest first; they stay in the queue (R166). -/
  flying : List Nat
  /-- Words at the end of the ring skipped since the latest entry: the next entry starts at word 0 (R154). -/
  skipped : Nat
deriving DecidableEq, Repr

/-- A completed or running capture (R169, R170). -/
structure Capture where
  no : Nat
  t : Nat
  source : Nat
  eventId : Nat
  flagsOr : Nat
  pre : Nat
  post : Nat
  retriggers : Nat
  offset : Int
  mask : Nat
  stream : Nat
  /-- Numbers of later events that started in its post phase (R172). -/
  linked : List Nat
  /-- Packed instants recorded so far, oldest first. -/
  data : List (List Int)
  done : Bool
  /-- Being read since this model clock. -/
  reading : Option Nat
deriving DecidableEq, Repr

/-- A capture unit (R168 to R172): state 0 STOPPED, 1 ARMED, 2 POST, 3 FULL. -/
structure CapUnit where
  st : Nat
  slots : Nat
  /-- Configuration taken at ARM. -/
  cfg : Nat
  mask : Nat
  pre : Nat
  post : Nat
  /-- Instants kept while armed, newest first, each with its time, codes and OR of flags. -/
  kept : List (Nat × List Int × Nat)
  held : List Capture
  cur : Option Capture
  nextNo : Nat
  missed : Nat
  /-- Triggers on their way to the unit, oldest first: instant, source code and event number (R169). -/
  due : List (Nat × Nat × Nat)
  /-- Number of the trigger sample that the capture in progress waits for; 0 once it has come (R169). -/
  trig : Nat
deriving DecidableEq, Repr

/-! ### Energy (chapter 08) -/

/-- Sums of one engine over the open block of an element (Table 8-3). -/
structure ElemAcc where
  n : Nat
  vi : Rat
  vv : Rat
  ii : Rat
  /-- Σ Re(V1·I1*) and Σ Im(V1·I1*) of the fundamental analytic signals; the full engine's alone (R177, R178). -/
  p1 : Rat
  q1 : Rat
  est : Bool
  sat : Bool
  freqNom : Bool
  /-- A substitution has lasted 5 s within the block. -/
  long : Bool
deriving DecidableEq, Repr

/-- Sums of the open block of a circuit that only effective apparent energy and the tamper tests need (R177, R194). -/
structure CircAcc where
  /-- Σ of the third or neutral current squared. -/
  ix : Rat
  /-- Σ of the squared line-to-line voltages. -/
  vll : Rat
  /-- Σ of (Σ i_phase − s·i_N)². -/
  res : Rat
  /-- Σ of the bus N channel squared. -/
  vn : Rat
deriving DecidableEq, Repr

/-- Registers and status of an element or a circuit in one engine. Registers count 2^-32 µWh. -/
structure Regs where
  e : List Nat
  status : Nat
deriving DecidableEq, Repr

/-- An element's running substitution and counters (R185). -/
structure ElemRun where
  estBlocks : Nat
  /-- P samples of continuous substitution in the full engine and in Pioneer. -/
  subst : Nat
  substPio : Nat
  logged : Bool
  /-- Pioneer has begun to accumulate (R31). -/
  settled : Bool
deriving DecidableEq, Repr

/-- A circuit's block results, demand, cross-check and tamper state (R187, R188, R194, R196). -/
structure CircRun where
  pW : Nat
  qVar : Nat
  sVa : Nat
  pf : Nat
  /-- The four demands, binary32. -/
  demand : List Nat
  maxP : Nat
  maxPTime : Nat
  maxS : Nat
  maxSTime : Nat
  /-- Energy of the sub-interval in progress for the four quantities, 2^-32 µWh, and whether it is complete. -/
  subNow : List Nat
  /-- Energies of the closed sub-intervals, newest first, at most 15, each with the mark that it was incomplete. -/
  subs : List (List Nat × Bool)
  /-- The sub-interval in progress is incomplete. -/
  demHist : Bool
  resetReq : Bool
  xFails : Nat
  xSkipped : Nat
  /-- Ep and Ef of the compared blocks, newest first, at most 50. -/
  xLast : List (Int × Int)
  xLogged : Bool
  /-- Consecutive blocks with and without each condition of Table 8-7, and whether each is raised. -/
  tampRun : List Nat
  tampClear : List Nat
  tampUp : List Bool
  /-- Closed sub-intervals for which the window still holds energy from before a gap, and whether the latest demands carry
  GAP_SPANNED (R54). -/
  gapLeft : Nat
  demGap : Bool
deriving DecidableEq, Repr

/-- A sub-interval that ended while Canopy was stopped (R55): configuration and end instant, whether it is partial, whether
every window starts fresh after it, and each circuit's energies with their incomplete mark. -/
structure OwedSub where
  cfg : Nat × Nat
  t : Nat
  part : Bool
  fresh : Bool
  now : List (List Nat × Bool)
deriving DecidableEq, Repr

/-- A calibration-pulse output (R189 to R192). Energies are exact, in µWh. -/
structure Cf where
  acc : Rat
  /-- Sample energies of the open block, by element of the target, from the full engine and from Pioneer, and those of closed
  blocks, oldest first (R190). -/
  openE : List (List Rat)
  openP : List (List Rat)
  ready : List Rat
  /-- The output is in a pulse. -/
  pulse : Bool
  /-- Where in the latest frame pulses have started, in TIME cycles after its P instant (R190, R192). -/
  edges : List Nat
  /-- Where each of those pulses ends in test mode, after half the interval between the last two starts (R192). -/
  ends : List Nat
  /-- P samples since the latest pulse start, where in its frame that start lay, and the interval between the last two starts, both
  in TIME cycles. -/
  since : Nat
  lastOff : Nat
  interval : Nat
  clipped : Bool
  test : Bool
  /-- Model clock at which the output entered test mode, and at which it leaves it (R192). -/
  testFrom : Nat
  testEnd : Nat
  count : Nat
deriving DecidableEq, Repr

/-- Both energy engines (R174 to R197). -/
structure Metro where
  /-- Primary values of the previous nominal period, newest first, per channel, for cycle repeat: full engine and Pioneer. -/
  ringF : List (List Rat)
  ringP : List (List Rat)
  /-- The full engine's kernels run (from the DSP start); accumulation from B1. -/
  kernels : Bool
  fromB1 : Bool
  elemF : List ElemAcc
  elemP : List ElemAcc
  circF : List CircAcc
  regElemF : List Regs
  regCircF : List Regs
  regElemP : List Regs
  regCircP : List Regs
  elemRun : List ElemRun
  circRun : List CircRun
  cfs : List Cf
  blockEnd : Nat
  /-- P samples of the open block, and whether an accepted step ends it. -/
  blockN : Nat
  blockStep : Bool
  disagree : Bool
  /-- Qualifying boundaries since the last failure. -/
  cleanRun : Nat
  demandCfg : Nat × Nat
  /-- Latest sub-interval end, UTC s, and the ends that Canopy has yet to close (R55, R187). -/
  subEnd : Option Int
  subOwed : List OwedSub
  testActive : Bool
  /-- Model clock at which the running CF test ends (R192). -/
  testEnd : Nat
deriving DecidableEq, Repr

/-! ### Power quality (chapter 09) -/

/-- A result of one kind, level and channel (Table 9-9); values are binary32. -/
structure PqRes where
  kind : Nat
  level : Nat
  chan : Nat
  status : Nat
  endT : Nat
  vals : List Nat
  /-- Sample number at which the result was formed (R213). -/
  formed : Rat
deriving DecidableEq, Repr

/-- Partial sums of squares of an aggregation in progress (kinds of Table 9-9; kind 5 holds the deviation sums of R215). -/
structure PqAcc where
  kind : Nat
  level : Nat
  chan : Nat
  n : Nat
  sq : List Rat
  /-- Least and greatest squared window magnitude (kind 0). -/
  lo : Rat
  hi : Rat
  status : Nat
deriving DecidableEq, Repr

/-- An event (R209 to R212, R220). -/
structure PqEvent where
  cls : Nat
  bus : Nat
  id : Nat
  /-- Place in the event ring. -/
  pos : Nat
  start : Nat
  phases : Nat
  eflags : Nat
  /-- DURATION_MS. -/
  dur : Nat
  /-- EXTREME and SECOND in %, exact; SECOND of a mains signalling event is its index. -/
  extreme : Rat
  second : Rat
  /-- Pre-event means of an RVC. -/
  means : List Rat
  cu : Nat
  capture : Nat
deriving DecidableEq, Repr

/-- A 10-minute interval that waits for the window that straddles its boundary (R207): end instant, events, the
10 s frequencies that end in it, and whether a 2-hour interval ends with it. -/
structure PqEdge where
  endT : Nat
  events : Nat
  freqSum : Rat
  freqN : Nat
  /-- OR of the status words of those frequencies. -/
  freqOr : Nat
  /-- Status bits of the 10-minute interval, and of the 2-hour interval that ends with it. -/
  status : Nat
  two : Option Nat
  /-- Changed members came into use at the boundary: every interval starts fresh (R227), and the values that govern the ended
  one. -/
  restart : Bool
  pars : Option (List (Nat × Nat))
deriving DecidableEq, Repr

/-- A resampler window in progress (R206): where it began, in sample numbers; the frequency it runs at; its status bits so far;
and, for one that straddles a 10-minute boundary at which members changed, the values that still govern it (R227). -/
structure PqWin where
  start : Rat
  hz : Rat
  mark : Nat
  pars : Option (List (Nat × Nat))
deriving DecidableEq, Repr

/-- One bus (R206 to R215). -/
structure PqBus where
  open_ : List PqEvent
  /-- Latest Urms(½) of the three phases, newest first, at most 120. -/
  half : List (List Rat)
  rvcArmed : Bool
  /-- Sliding reference of each phase (R209) and its value before the latest window; none before the first window. -/
  sliding : Option (List Rat)
  slidingPrev : Option (List Rat)
  /-- The resampler runs at NOMINAL_HZ. -/
  freqNominal : Bool
  /-- Fundamental frequency of the latest window of its reference phase, which the resampler and the demodulators track (R178,
  R206). -/
  f1 : Rat
  /-- The window in progress, and one that straddles a 10-minute boundary (R207). -/
  win : Option PqWin
  old : Option PqWin
  /-- Start and end of the latest window, in sample numbers. -/
  lastStart : Rat
  lastEnd : Rat
  /-- End of the latest one-cycle interval, in sample numbers; none before the first sample. -/
  halfN : Option Rat
  /-- The reference's fundamental at the sample before, and the places of its latest upward crossings, newest first, at most
  1,000: the whole cycles that frequencies count (R206, R208). -/
  refY : Rat
  crosses : List Rat
  /-- Windows in the 150/180-cycle interval in progress, whether it is the first since the start, and the end and status of one
  that waits to be closed (R207). -/
  aggN : Nat
  aggFresh : Bool
  aggDue : Option (Nat × Nat)
  /-- Values that govern that interval, where members have changed since (R227). -/
  aggPars : Option (List (Nat × Nat))
  /-- States of the three flickermeters (R208). -/
  flick : List (List Rat)
  freq : Nat
  freqStatus : Nat
  freqEnd : Option Nat
  /-- Where the 10 s interval in progress began, and its number (R204, R208). -/
  start10 : Rat
  idx10 : Int
  /-- 10 s frequencies of the 10-minute interval, and the OR of their status words. -/
  freqSum : Rat
  freqN : Nat
  freqOr : Nat
  /-- The 10 s interval in progress began after its boundary. -/
  fresh10s : Bool
  /-- Latest Pst and Plt with their status words. -/
  pst : List (Nat × Nat)
  plt : List (Nat × Nat)
  pstEnd : Option Nat
  /-- Status bits that each phase has gathered in the Pst interval in progress; where it began: place, model clock, number, and
  whether it began after its boundary (R207, R218). -/
  pstOr : List Nat
  pstPlace : Rat
  pstClk : Nat
  pstIdx : Int
  pstFresh : Bool
  /-- The latest Pst values of each phase, newest first, at most 12. -/
  pstHist : List (List (Nat × Nat))
  /-- Events started in the 10-minute interval. -/
  events : Nat
  /-- Spans of the stream, newest first, that one-cycle intervals with an open dip, swell or interruption cover (R213), at most
  1,000. -/
  spans : List (Rat × Rat)
  /-- Status bits that the 10 s interval and the 200 ms interval have gathered. -/
  mark10s : Nat
  mark200 : Nat
  edge : Option PqEdge
deriving DecidableEq, Repr

/-- The 10-minute state of a bus that a checkpoint holds: events, frequency sums and Pst values. -/
structure PqBusSums where
  events : Nat
  freqSum : Rat
  freqN : Nat
  freqOr : Nat
  pstHist : List (List (Nat × Nat))
  /-- A 10-minute interval that waits for its straddling window. -/
  edge : Option PqEdge
deriving DecidableEq, Repr

/-- The aggregation state that a checkpoint holds (Table 15-3): instant, 10-minute and 2-hour sums, and per bus the events,
frequency sums and Pst values of the intervals in progress. -/
structure PqSums where
  t : Nat
  /-- Status bits of the 10-minute and the 2-hour interval in progress. -/
  mark10m : Nat
  mark2h : Nat
  accs : List PqAcc
  buses : List PqBusSums
deriving DecidableEq, Repr

/-- The power-quality engine (R203 to R227). -/
structure Pq where
  running : Bool
  buses : List PqBus
  results : List PqRes
  accs : List PqAcc
  nextId : Nat
  /-- Next places in the event ring and the archive ring. -/
  eventPos : Nat
  archivePos : Nat
  /-- Archive records due. -/
  archive : List (List Byte)
  /-- Event records to write or complete, oldest first. -/
  writes : List PqEvent
  /-- Canopy aggregates: from B1 on, but not while it is stopped (R55). -/
  agg : Bool
  /-- Status bits of the 10-minute and the 2-hour interval in progress: HISTORY_INCOMPLETE, GAP_SPANNED. -/
  mark10m : Nat
  mark2h : Nat
  /-- Numbers of the 10-minute, 2-hour and 3 s intervals in progress (R204, R217). -/
  idx10m : Int
  idx2h : Int
  idx3s : Int
  /-- Canopy runs again and its aggregations wait for the first window (R55). -/
  aggWait : Bool
  /-- End of the latest 200 ms interval, and supraharmonic closings that wait for the one that ends with them: level, end,
  status bits, and whether the level above starts fresh (R216, R217). -/
  blockT : Nat
  supraDue : List (Nat × Nat × Nat × Bool)
  /-- The latest 10-minute boundary at which members changed, and the values that govern instants up to it (R227). -/
  oldPars : Option (Nat × List (Nat × Nat))
  /-- Model clock at which the flickermeter and the 10-minute interval began. -/
  startClk : Nat
  tenClk : Nat
  /-- Instant of the checkpoint that closes events left open at power-down (R222). -/
  lossT : Nat
  /-- Aggregation state as the checkpoint in progress and as copies A and B hold it. -/
  saving : Option PqSums
  savedA : Option PqSums
  savedB : Option PqSums
  /-- I_UNB2, I_UNB0, ITHD_MAX, IN_RMS, TDD and PQ_STATUS of the circuits. -/
  unb2 : List Nat
  unb0 : List Nat
  ithd : List Nat
  inRms : List Nat
  tdd : List Nat
  status : List Nat
deriving DecidableEq, Repr

/-! ### Synchrophasors (chapter 10) -/

/-- A change of PMU members that has taken effect: commit and effective instant, the values before, and the start that counted
before it (R244, R245). -/
structure PmuOld where
  commitT : Nat
  at_ : Nat
  vals : List (Nat × Nat)
  startN : Int
deriving DecidableEq, Repr

/-- The phasor engine and its network output (R228 to R248). -/
structure Pmu where
  running : Bool
  on : Bool
  waiting : Bool
  histIncomplete : Bool
  /-- Committed changes that wait for their reporting instant, oldest first: the model clock of the commit and the members'
  values (R244). -/
  changes : List (Nat × List (Nat × Nat))
  /-- Changes that have taken effect, oldest first, at most 64: instant of the commit, effective instant, the members' values
  before, and the start that counted before (R244, R245). -/
  old : List PmuOld
  /-- The instant from which reporting instants with output on have yielded nothing, while the kernels start again (R239). -/
  gapFrom : Option Nat
  /-- Place in the stream at which the kernels, or the class and rate in force, started (R245). -/
  startN : Int
  cfgCnt : Nat
  sent : Nat
  skipped : Nat
  cmdReceived : Nat
  cmdIgnored : Nat
  freqA : Nat
  rocofA : Nat
  freqB : Nat
  rocofB : Nat
  statA : Nat
  statB : Nat
  reportTime : Nat
  /-- Magnitude and angle of the 126 indices, binary32. -/
  phasors : List (Nat × Nat)
  /-- Latest reporting instant reported; none before the first. -/
  lastReported : Option Nat
  /-- Model clock at which each phasor frame that waits for admission has waited 1/Fs from its reporting instant, oldest first
  (R285). -/
  waitEnd : List Nat
  /-- Model clock at which LOCKED was last left; none before the first time. -/
  unlockClk : Option Nat
deriving DecidableEq, Repr

/-- The whole machine. -/
structure State where
  pw : Power
  te : TimeEng
  rtc : Rtc
  hw : Heart
  se : Sess
  pr : Params
  lk : Link
  tp : Tamper
  wd : Warden
  up : Update
  tx : Transplant
  nt : Net
  hm : Hmi
  ref : Ref
  chans : List Chan
  convs : List Conv
  stands : List Stand
  seqs : List Seq
  filts : List Filt
  insts : List Inst
  hist : List Snap
  /-- The latest 40,000 instants of the full engine's stream, newest first: what the power-quality and phasor kernels read. -/
  wave : List Wave
  qu : Queue
  units : List CapUnit
  me : Metro
  pq : Pq
  pm : Pmu
  /-- Model's own: TIME cycles elapsed since reset. -/
  clk : Nat
  /-- Model's own: free values drawn so far (assumption 2). -/
  free : Nat
  /-- Commands that wait, first in first out. -/
  pending : List Instr
deriving DecidableEq, Repr

/-- The outcomes other than a next state. -/
inductive Fault where
  /-- Raised by a command whose lists do not have the shape that `Instr.wf` asks for: it stands for no event of the device.
  Safe: the machine stops. -/
  | malformedCommand
deriving DecidableEq, Repr

/-- Commands that have no meaning. -/
inductive Refusal where
  /-- Raised by an arm of `exec` that has no meaning yet, with the row's mnemonic. Safe: the machine stops. -/
  | notModelled (mnemonic : String)
deriving DecidableEq, Repr

/-! ### Reset -/

/-- Blaze, notch, alarm, port and other instances as they stand at power-up. -/
def Blaze.reset : Blaze := ⟨false, false, false, false, false, 0, 0, 0, 0, 0, 0, false, 0⟩
def Notch.reset : Notch := ⟨[], 0, false, false, 0, false⟩
def Alarm.reset : Alarm := ⟨0, 0, 0, false, false, false, false, 0, 0, 0, none, none, 0, false, false⟩
def Port.reset : Port := ⟨0, none, 0, 0, 0, 0, 0, 0, 0, false, [], none, none, false, 0, none, none, [], none⟩
def Trim.reset : Trim := ⟨0, 2 ^ 30, 0, []⟩
/-- The correction that leaves a sample as it is. -/
def Corr.none : Corr := ⟨0, 1, 0⟩
def Conv.reset : Conv := ⟨Trim.reset, 0, [], [], 0, 0, false, false, false, 68, 24, 0⟩
def Chan.reset : Chan :=
  ⟨0, 0, 0, 0, 0, 0, 0, 0, false, 0, false, false, 0, 0, 0, 0, 2 ^ 30, 0, 0, none, 0, 0, 0, 0, none, 0, 0, false, []⟩
def Stand.reset : Stand :=
  { st := 4, slot := 0, phase := 5, spareChan := 0xFF, pinChan := 0xFF, condemned := 0, carrying := false, stored := false,
    skip := false, runOn := false, pauseReq := false, pinReq := none, requal := none, splices := 0, skipped := 0,
    skipLogged := 0, skipLogClk := none, xcheckFails := 0, lastInl := 0, checks := [], n := 0, old := none, assign := 0xFF,
    active := none, queue := [], probe := [], probeBad := false, dac := 0, dacN := 0, meas := List.replicate 8 (0, 0),
    pairs := [], again := false, requalBack := false, corr := Corr.none, first := Corr.none }
def Seq.reset : Seq := ⟨0, none, none, 0, none, 0, [], 0, false⟩
def CoefSet.empty : CoefSet := ⟨0, [], []⟩
def Filt.reset : Filt :=
  ⟨false, false, CoefSet.empty, none, none, none, 0, none, none, 0, false, [], [], 0, [], none, false⟩
def Inst.reset : Inst := ⟨[], [], [], []⟩
def CapUnit.reset : CapUnit := ⟨0, 0, 0, 0, 0, 0, [], [], none, 1, 0, [], 0⟩
def ElemAcc.zero : ElemAcc := ⟨0, 0, 0, 0, 0, 0, false, false, false, false⟩
def CircAcc.zero : CircAcc := ⟨0, 0, 0, 0⟩
def Regs.zero (n : Nat) : Regs := ⟨List.replicate n 0, 0⟩
def ElemRun.reset : ElemRun := ⟨0, 0, 0, false, false⟩
def CircRun.reset : CircRun :=
  ⟨0, 0, 0, 0, [0, 0, 0, 0], 0, 0, 0, 0, [0, 0, 0, 0], [], true, false, 0, 0, [], false, [0, 0, 0, 0], [0, 0, 0, 0],
   [false, false, false, false], 0, false⟩
def Cf.reset : Cf :=
  { acc := 0, openE := [], openP := [], ready := [], pulse := false, edges := [], ends := [], since := 0, lastOff := 0, interval := 0, clipped := false,
    test := false, testFrom := 0, testEnd := 0, count := 0 }
def PqBus.reset : PqBus :=
  { open_ := [], half := [[], [], []], rvcArmed := false, sliding := none, slidingPrev := none, freqNominal := false,
    f1 := 50, win := none, old := none, lastStart := 0, lastEnd := 0, halfN := none, refY := 0, crosses := [], aggN := 0, aggFresh := true,
    aggDue := none, aggPars := none, flick := List.replicate 3 [], freq := 0, freqStatus := 2, freqEnd := none, start10 := 0, idx10 := 0,
    freqSum := 0, freqN := 0, freqOr := 0, fresh10s := true, pst := List.replicate 3 (0, 2), plt := List.replicate 3 (0, 2),
    pstEnd := none, pstOr := [0, 0, 0], pstPlace := 0, pstClk := 0, pstIdx := 0, pstFresh := true,
    pstHist := List.replicate 3 [], events := 0, spans := [], mark10s := 0, mark200 := 0, edge := none }
def Lockout.reset : Lockout := ⟨0, 0, 60, 0, false, 0⟩

/-- Reset responses of the tamper slots (Table 17-1). -/
def resetResponses : List Nat :=
  [1, 2, 1, 1, 1, 1, 1, 1, 1, 0, 0, 1, 1, 0, 1, 1, 1, 2, 3, 1, 1, 1, 1, 1, 1, 0, 0, 0, 0, 0, 0, 0]

/-- Floors of the tamper slots (Table 17-1). -/
def slotFloors : List Nat :=
  [0, 1, 0, 0, 0, 0, 1, 0, 0, 0, 0, 0, 0, 0, 0, 0, 0, 1, 3, 1, 0, 1, 0, 0, 0, 0, 0, 0, 0, 0, 0, 0]

def Power.reset : Power :=
  { aonUp := false, vbat := false, phase := .off, stage := 0, bootFault := 0, acct := false, handoverPending := false,
    shadow := .none, handoverCause := 0, startGap := 0, hsel := false, ext33 := false, refsel := false, testEn := false,
    pfail := true, pfailReleased := false, pfailCount := 0, pfailClk := 0, pfailLastUs := 0, lastHoldupUs := 0xFFFFFFFF,
    restartDelayMs := 1, restartWait := false, vauxWaiting := false, startClk := 0, modClk := 0, buckVdd33 := false,
    buckVcore := false, buckRoot := false, limitVdd33 := false, limitVcore := false, supplies := [0, 0, 0, 0, 0, 0],
    temps := [0, 0, 0, 0], pInMw := 0, aonPfail := (4200, 200, 20), clearAtPowerUp := false,
    stage2At := none, stage3At := none, tripClk := 0, failClk := 0 }

def TimeEng.reset : TimeEng :=
  { running := false, cnt := 0, frac := 0, servo := .free, f := 0, r := 0, lastOffsetClk := none, quietClk := 0, sourceChanged := false, lastAcceptClk := 0,
    goodRun := 0, recent := [], latest := 0, holdEst := none, refusedRun := [], refusedGm := 0, refusedNum := 0, refusedFromLocked := false,
    jumpRefused := false, refusedUs := 0, stepsRefused := 0, stepsAccepted := 0, offsetNs := 0, gm := 0, gmLast := 0,
    lockedOnce := false, align := 0, stepP := false, stepW := false, realigning := false, txInt := [], txHost := [],
    txLostInt := 0, txLostHost := 0, txOvInt := false, txOvHost := false, lastLocked := 0, storeClk := 0, leapClk := 0, ppsSecond := none,
    blazes := List.replicate 8 Blaze.reset, notches := List.replicate 8 Notch.reset }

def Rtc.reset : Rtc :=
  { cal := Cal.powerUp, phase := 0, phaseRem := 0, edgeCnt := 0, trimAcc := 0, osf := false, setSince := false, osfBrownOut := false, stMin := none,
    stHour := none, stDay := none, stMonth := none, stYear := none, trimLearned := 0, following := false,
    slewing := false, errorUs := 0x7FFFFFFF, steps := 0, leap61 := false, leap59 := false, leapDoubled := false,
    stalled := false, alarms := List.replicate 4 Alarm.reset, slewLeft := 0, slewSlot := 0, trimStored := 0,
    storeClk := 0, begins := false, begun := false, stepDue := false, learn := none, slewSum := 0, stClk := 0, wakeClk := 0 }

def Heart.reset : Heart :=
  { mem := [], flight := [], flightClk := 0, tornList := [], flips := [], rewrites := [], scrubRunning := false, scrubClk := 0, scrubPos := 0, scrubPasses := 0,
    refreshed := 0, eccCorrected := 0, eccUncorrectable := 0, uncorrSeen := false, twins := 0, repairs := 0,
    ckpt := none, ledger := none, ckptUs := 0, restarted := false, faultCause := none, totalsCopy := none, restCopy := none,
    resume := none, loaded := false, hostWrites := 0, pioSeq := none, p2Sets := [], pioGap := 0, pioWait := false }

def Sess.reset : Sess :=
  { open_ := [], pws := List.replicate 8 ⟨0, []⟩, locks := List.replicate 6 Lockout.reset }

def Params.reset : Params := { applied := [], committed := [], pending := [], scheduled := [], commitSeq := 0, committing := none, idNode := none }

def Link.reset : Link :=
  { hushed := false, hushSrc := 0, hushCount := 0, irq := 0, irqMask := 1, directCrcErr := false, directRoErr := false,
    dlAddr := 0, dlAccepted := false, dlBadCrc := false, dlRefused := false, dlLocked := false, dlCount := 0,
    rxDropped := 0, frameErrors := 0, scratch := List.replicate 32 0, timeLatch := none, calLatch := none,
    timeLatchClk := 0, calLatchClk := 0, heard := [], ctrlOut := [],
    bulkOut := [], ctrlCut := false, directOut := [], rxCtrl := [], rxBulk := [], sent := [], line := none, baud := 115200, cmdAccepted := 0, cmdRefused := 0, lastRefused := 0,
    frag := [], blockSeq := 0, snapP := List.replicate 28 0, snapQ := List.replicate 28 0,
    snapS := List.replicate 28 0, estimatedMap := 0 }

def Tamper.reset : Tamper :=
  { slots := resetResponses.map (fun r => ⟨false, false, false, 0, 0, r, r, false, 0⟩), buffer := [], overflow := 0,
    vbatEntries := 0, vbatOverflow := 0, clearPending := false, clearQueue := [], clearings := 0, identity := none,
    wrapped := none, keySerial := 0, owner := none, challenge := zeros 16, keys := [],
    authRuns := [], trngOk := false, trngFails := 0, injectFails := 0, disagree := [0, 0, 0],
    detPrev := List.replicate 3 (false, false), injectBad := false, jtagIr := 1, jtagWait := none, clearedSinceUp := false,
    erased := false, monClk := List.replicate 3 none, injectClk := none, keyClk := none, trngClk := 0 }

def Warden.reset : Warden :=
  { running := false, canopyRunning := false, dspRunning := false, buffer := [], lost := 0, lostSince := 0, logSeq := 0,
    health := 0, sensorRun := List.replicate 12 0,
    sensorClk := List.replicate 12 none, canopyRestarts := 0, unplanned := 0, unplannedClk := 0, restartReq := none,
    restartUnplanned := false, backoff := none, stopCause := (0, 0), stopClk := 0, dspReloads := 0, dspExpiryClk := none,
    dspReloadWait := false, wardenRestarts := 0, wardenCause := 0, wardenClk := 0, missedFrames := 0 }

/-- Regions of the kinds 0 to 3 at production: region 0 GOOD, region 1 WRITTEN and never run (assumption 11). -/
def Update.reset : Update :=
  { st := 0, absent := [], header := [], payload := [], trialClk := 0,
    banks := (List.range 4).map (fun k => (⟨2, 1, 0, Config.imageVersion k, 0, true⟩, ⟨0, 0, 0, 0, 0, false⟩)),
    active := [0, 0, 0, 0], rollback := 0, revert := none, factory := 0xFF }

def Transplant.reset : Transplant :=
  { prepare := none, package := none, importBody := none, srcId := 0, imported := false }

def Net.reset : Net :=
  { up := false, mode := 0, node := 0, ports := List.replicate 2 Port.reset, ringOpen := false, hsrSeq := 0,
    discard := [], learn := [], egress := [], waiting := [], tokens := 3072000000, tokenClk := 0, dupDiscarded := 0, dupPassed := 0,
    reserveHeld := 0, cmdWrongNode := 0, rxQueue := [], rxLost := 0, expired := [], neigh := [], foreign := [], master := none, superSent := false,
    superClk := none, idents := [] }

def Hmi.reset : Hmi :=
  { layout := none, layoutNext := none, item := 0, scrolling := false, held := false, segTest := false, itemClk := 0, segClk := 0,
    latched := [], keys := List.replicate 8 false, keyClk := List.replicate 8 0, longs := List.replicate 8 false, step := none, fifo := [], lost := 0, keyEvents := 0, owner := 0, ownerClk := 0, probe := false,
    cable := false, attaches := 0, suBaud := 115200, out := [], tdacOn := false, tdacConsole := false, tdacCode := 0,
    tdacClk := 0, tdacS := 0, forces := [] }

def Ref.reset : Ref :=
  { dev := 0, disagree := false, bad := false, onB := false, badRun := 0, goodRun := 0, baseline := none, stored := none, ratio := 0,
    rebase := false, live := false, resClk := none }

def Queue.reset : Queue :=
  { streaming := false, push := false, wins := [], due := [], entries := [], sentCount := 0, readSeq := 0, wpos := 0, level := 0, irqLevel := 0,
    peak := 0, dropped := 0, overflow := false, gap := none, gapX := false, markP := none, markW := none, pushSeq := 0, pushHeld := false,
    flying := [], skipped := 0 }

def Metro.reset : Metro :=
  { ringF := List.replicate 36 [], ringP := List.replicate 36 [], kernels := false, fromB1 := false,
    elemF := List.replicate 28 ElemAcc.zero, elemP := List.replicate 28 ElemAcc.zero,
    circF := List.replicate 28 CircAcc.zero, regElemF := List.replicate 28 (Regs.zero 12),
    regCircF := List.replicate 28 (Regs.zero 12), regElemP := List.replicate 28 (Regs.zero 2),
    regCircP := List.replicate 28 (Regs.zero 2), elemRun := List.replicate 28 ElemRun.reset,
    circRun := List.replicate 28 CircRun.reset, cfs := List.replicate 8 Cf.reset, blockEnd := 0, blockN := 0,
    blockStep := false, disagree := false, cleanRun := 0, demandCfg := (15, 3), subEnd := none, subOwed := [],
    testActive := false, testEnd := 0 }

def Pq.reset : Pq :=
  { running := false, buses := List.replicate 2 PqBus.reset, results := [], accs := [], nextId := 1, eventPos := 0,
    archivePos := 0, archive := [], writes := [], agg := false, mark10m := 2, mark2h := 2, idx10m := 0, idx2h := 0, idx3s := 0,
    aggWait := false, blockT := 0, supraDue := [], oldPars := none, startClk := 0,
    tenClk := 0, lossT := 0, saving := none, savedA := none, savedB := none, unb2 := List.replicate 28 0,
    unb0 := List.replicate 28 0, ithd := List.replicate 28 0, inRms := List.replicate 28 0, tdd := List.replicate 28 0,
    status := List.replicate 28 0 }

def Pmu.reset : Pmu :=
  { running := false, on := false, waiting := false, histIncomplete := false, changes := [], old := [], gapFrom := none, startN := 0,
    cfgCnt := 0, sent := 0, skipped := 0, cmdReceived := 0, cmdIgnored := 0, freqA := 0, rocofA := 0, freqB := 0,
    rocofB := 0, statA := 0, statB := 0, reportTime := 0, phasors := List.replicate 126 (0, 0), lastReported := none,
    waitEnd := [], unlockClk := none }

/-- The machine as manufactured, before any supply is applied: stage 0, the store with nothing listed (R27, Table 2-1). -/
def State.reset : State :=
  { pw := Power.reset, te := TimeEng.reset, rtc := Rtc.reset, hw := Heart.reset, se := Sess.reset, pr := Params.reset,
    lk := Link.reset, tp := Tamper.reset, wd := Warden.reset, up := Update.reset, tx := Transplant.reset,
    nt := Net.reset, hm := Hmi.reset, ref := Ref.reset, chans := List.replicate 36 Chan.reset,
    convs := List.replicate 40 Conv.reset, stands := List.replicate 4 Stand.reset, seqs := List.replicate 4 Seq.reset,
    filts := List.replicate 36 Filt.reset, insts := List.replicate 40 Inst.reset, hist := [], wave := [], qu := Queue.reset, units := List.replicate 4 CapUnit.reset,
    me := Metro.reset, pq := Pq.reset, pm := Pmu.reset, clk := 0, free := 0, pending := [] }

end Sys2Proof.Machine
end

