-- ==== Sys2Proof/Machine/Ops.lean ====
section
/-! DEFINITION. The named operations over the state that every family of commands shares: subsystem updates, the Heartwood
array, parameters, the event log, the tamper ladder, sessions, replies and the interpreter's order of checks. -/

namespace Sys2Proof.Machine

/-! ### Updates of one subsystem -/

/-- Update `pw`. -/
def State.onPw (s : State) (f : Power → Power) : State := { s with pw := f s.pw }
/-- Update `te`. -/
def State.onTe (s : State) (f : TimeEng → TimeEng) : State := { s with te := f s.te }
/-- Update `rtc`. -/
def State.onRtc (s : State) (f : Rtc → Rtc) : State := { s with rtc := f s.rtc }
/-- Update `hw`. -/
def State.onHw (s : State) (f : Heart → Heart) : State := { s with hw := f s.hw }
/-- Update `se`. -/
def State.onSe (s : State) (f : Sess → Sess) : State := { s with se := f s.se }
/-- Update `pr`. -/
def State.onPr (s : State) (f : Params → Params) : State := { s with pr := f s.pr }
/-- Update `lk`. -/
def State.onLk (s : State) (f : Link → Link) : State := { s with lk := f s.lk }
/-- Update `tp`. -/
def State.onTp (s : State) (f : Tamper → Tamper) : State := { s with tp := f s.tp }
/-- Update `wd`. -/
def State.onWd (s : State) (f : Warden → Warden) : State := { s with wd := f s.wd }
/-- Update `up`. -/
def State.onUp (s : State) (f : Update → Update) : State := { s with up := f s.up }
/-- Update `tx`. -/
def State.onTx (s : State) (f : Transplant → Transplant) : State := { s with tx := f s.tx }
/-- Update `nt`. -/
def State.onNt (s : State) (f : Net → Net) : State := { s with nt := f s.nt }
/-- Update `hm`. -/
def State.onHm (s : State) (f : Hmi → Hmi) : State := { s with hm := f s.hm }
/-- Update `ref`. -/
def State.onRef (s : State) (f : Ref → Ref) : State := { s with ref := f s.ref }
/-- Update `qu`. -/
def State.onQu (s : State) (f : Queue → Queue) : State := { s with qu := f s.qu }
/-- Update `me`. -/
def State.onMe (s : State) (f : Metro → Metro) : State := { s with me := f s.me }
/-- Update `pq`. -/
def State.onPq (s : State) (f : Pq → Pq) : State := { s with pq := f s.pq }
/-- Update `pm`. -/
def State.onPm (s : State) (f : Pmu → Pmu) : State := { s with pm := f s.pm }

/-- Element `n` of `chans`, and its update. -/
def State.chan (s : State) (n : Nat) : Chan := s.chans.getD n Chan.reset
def State.onChan (s : State) (n : Nat) (f : Chan → Chan) : State := { s with chans := modAt s.chans n f }
/-- Element `n` of `convs`, and its update. -/
def State.conv (s : State) (n : Nat) : Conv := s.convs.getD n Conv.reset
def State.onConv (s : State) (n : Nat) (f : Conv → Conv) : State := { s with convs := modAt s.convs n f }
/-- Element `n` of `stands`, and its update. -/
def State.stand (s : State) (n : Nat) : Stand := s.stands.getD n Stand.reset
def State.onStand (s : State) (n : Nat) (f : Stand → Stand) : State := { s with stands := modAt s.stands n f }
/-- Element `n` of `seqs`, and its update. -/
def State.seq (s : State) (n : Nat) : Seq := s.seqs.getD n Seq.reset
def State.onSeq (s : State) (n : Nat) (f : Seq → Seq) : State := { s with seqs := modAt s.seqs n f }
/-- Element `n` of `filts`, and its update. -/
def State.filt (s : State) (n : Nat) : Filt := s.filts.getD n Filt.reset
def State.onFilt (s : State) (n : Nat) (f : Filt → Filt) : State := { s with filts := modAt s.filts n f }
/-- Element `n` of `insts`, and its update. -/
def State.inst (s : State) (n : Nat) : Inst := s.insts.getD n Inst.reset
def State.onInst (s : State) (n : Nat) (f : Inst → Inst) : State := { s with insts := modAt s.insts n f }
/-- Element `n` of `units`, and its update. -/
def State.unit (s : State) (n : Nat) : CapUnit := s.units.getD n CapUnit.reset
def State.onUnit (s : State) (n : Nat) (f : CapUnit → CapUnit) : State := { s with units := modAt s.units n f }

/-! ### Free values (assumption 2) -/

/-- Step past the free values of one effect: effects apply the opaque constants of `Config` to `s.free + k`. -/
def State.drew (s : State) (n : Nat) : State := { s with free := s.free + n }

/-- `n` free bytes. -/
def freeBytes (s : State) (n : Nat) : List Byte := (List.range n).map (fun k => Config.freeByte (s.free + k))

/-! ### The Heartwood array (R338, R339) -/

/-- Size of the array in bytes. -/
def storeSize : Nat := 524288

/-- The byte at an address; an unlisted address reads 0 (assumption 12). -/
def rdByte (m : List Host.Cell) (a : Nat) : Byte := (m.lookup a).getD 0

/-- `n` bytes from an address. -/
def rdBytes (m : List Host.Cell) (a n : Nat) : List Byte := (List.range n).map (fun k => rdByte m (a + k))

/-- The little-endian value of `n` bytes from an address. -/
def rdVal (m : List Host.Cell) (a n : Nat) : Nat := leVal (rdBytes m a n)

/-- The cells that bytes laid from an address list: those inside the array that are not 0. -/
def cellsOf : Nat → List Byte → List Host.Cell
  | _, [] => []
  | a, b :: r => if a < storeSize ∧ b ≠ 0 then (a, b) :: cellsOf (a + 1) r else cellsOf (a + 1) r

/-- Lay bytes from an address on: the cells below and above stay, those between are replaced. -/
def wrBytes (m : List Host.Cell) (a : Nat) (bs : List Byte) : List Host.Cell :=
  m.filter (fun c => c.1 < a) ++ cellsOf a bs ++ m.filter (fun c => a + bs.length ≤ c.1)

/-- Addresses strictly rising from a lower bound, inside the array, and no cell 0. -/
def memWfFrom : Nat → List Host.Cell → Bool
  | _, [] => true
  | lo, (a, b) :: r => decide (lo ≤ a) && decide (a < storeSize) && decide (b ≠ 0) && memWfFrom (a + 1) r

/-- The canonical form of the array. -/
def memWf (m : List Host.Cell) : Bool := memWfFrom 0 m

/-- Data bytes of each word access of a write from an offset (R339, R352). -/
def wordChunks (offset count : Nat) : List Nat :=
  let f := Nat.min (4 - offset % 4) count
  if count == 0 then []
  else f :: ((List.range ((count - f + 3) / 4)).map (fun k => Nat.min 4 (count - f - 4 * k)))

/-- The accesses that a write of bytes at an address takes: where each is, and its bytes. -/
def accesses (a n : Nat) : List (Nat × Nat) :=
  ((wordChunks a n).foldl (fun (l : List (Nat × Nat) × Nat) k => ((l.2, k) :: l.1, l.2 + k)) ([], a)).1.reverse

/-- The torn bit of a global page: bit p of word p/32 of page 0 (R342). -/
def tornBit (m : List Host.Cell) (p : Nat) : Bool := bitAt (rdByte m (p / 8)).toNat (p % 8)

/-- Pages whose torn bit is set, ascending. -/
def tornPages (m : List Host.Cell) : List Nat :=
  (m.takeWhile fun c => c.1 < 256).flatMap fun c =>
    (List.range 8).filterMap fun i => if bitAt c.2.toNat i then some (8 * c.1 + i) else none

/-- Set or clear the torn bit of a page: one access (R354). -/
def markTorn (m : List Host.Cell) (p : Nat) (on : Bool) : List Host.Cell :=
  if tornBit m p == on then m
  else
    let v := (rdByte m (p / 8)).toNat
    wrBytes m (p / 8) [BitVec.ofNat 8 (if on then setBit v (p % 8) else clrBit v (p % 8))]

/-- Bits set in a pattern of data and check bits. -/
def bitCount (m : Nat) : Nat := ((List.range 39).filter (bitAt m)).length

/-- A word that the SECDED code does not correct: two or more of its bits read inverted (R338; more than two, assumption 123). -/
def flipBad (f : Flip) : Bool := 2 ≤ bitCount f.mask

/-- A write of bytes touches a word. -/
def touches (w : Nat) (e : Nat × List Byte) : Bool := e.1 < 4 * w + 4 && 4 * w < e.1 + e.2.length

/-- Words with inverted bits after a write (R338, R339): a word written whole has new check bits, and so has a corrected one of
which a part is written. -/
def flipsAfter (l : List Flip) (ps : List (Nat × List Byte)) : List Flip :=
  l.filter fun f =>
    f.stuck || !(if flipBad f then ps.any (fun e => e.1 ≤ 4 * f.word && 4 * f.word + 4 ≤ e.1 + e.2.length) else ps.any (touches f.word))

/-- What undoes the accesses of a write in one page, oldest first: the torn bit set, the words, the torn bit cleared (R354). -/
def undoOf (m : List Host.Cell) (p : Nat) (ps : List (Nat × List Byte)) : List (Nat × List Byte) :=
  (p / 8, [rdByte m (p / 8)]) ::
    (ps.flatMap (fun e => (accesses e.1 e.2.length).map fun x => (x.1, rdBytes m x.1 x.2)) ++
      [(p / 8, [rdByte (markTorn m p true) (p / 8)])])

/-- Write bytes to one page, part by part (R339, R354): the page is marked before the first word and unmarked after the last. A
rewrite that waits for a word so written is dropped (R360). -/
def State.wrPage (s : State) (ps : List (Nat × List Byte)) : State :=
  s.onHw fun h =>
    let p := (ps.headD (0, [])).1 / 256
    { h with mem := markTorn (ps.foldl (fun m e => wrBytes m e.1 e.2) h.mem) p false,
             flips := flipsAfter h.flips ps, rewrites := h.rewrites.filter fun w => !ps.any (touches w.1),
             flight := (if h.flightClk == s.clk then h.flight else []) ++ undoOf h.mem p ps, flightClk := s.clk }

/-- Bytes from an address, cut at page boundaries. -/
def pageParts (a : Nat) (bs : List Byte) : List (Nat × List Byte) :=
  (List.range ((a % 256 + bs.length + 255) / 256)).map fun k =>
    if k == 0 then (a, bs.take (256 - a % 256)) else (a + 256 * k - a % 256, (bs.drop (256 * k - a % 256)).take 256)

/-- Write bytes to the array, page by page (R339, R354). -/
def State.wr (s : State) (a : Nat) (bs : List Byte) : State := (pageParts a bs).foldl (fun x e => x.wrPage [e]) s

/-- A byte as a read gives it (R338, R363): a word with one inverted bit is corrected, any other comes as sensed. -/
def sensedByte (h : Heart) (a : Nat) : Byte :=
  match h.flips.find? fun f => f.word == a / 4 && flipBad f with
  | some f => BitVec.ofNat 8 ((rdByte h.mem a).toNat.xor (f.mask / 2 ^ (8 * (a % 4)) % 256))
  | none => rdByte h.mem a

/-- `n` bytes from an address as a read gives them. -/
def peek (s : State) (a n : Nat) : List Byte := (List.range n).map fun k => sensedByte s.hw (a + k)

/-- The little-endian value of `n` bytes as a read gives them. -/
def peekVal (s : State) (a n : Nat) : Nat := leVal (peek s a n)

/-- Words with inverted bits that a range of bytes touches, ascending. -/
def flipsIn (s : State) (a n : Nat) : List Flip := s.hw.flips.filter fun f => a < 4 * f.word + 4 && 4 * f.word < a + n

/-- Uncorrectable words that touch a range of bytes, ascending (R356). -/
def badIn (s : State) (a n : Nat) : List Nat := ((flipsIn s a n).filter flipBad).map (·.word)

/-- First byte of a page of a partition (Table 15-1). -/
def partFirst (p : Nat) : Nat := [0, 128, 256, 384, 896, 1536].getD p 0
def partPages (p : Nat) : Nat := [128, 128, 128, 512, 640, 512].getD p 0
def pageAddr (p page : Nat) : Nat := (partFirst p + page) * 256

/-! ### Sparse lists by ID -/

/-- Set a key, keeping keys in rising order. -/
def assocSet : List (Nat × Nat) → Nat → Nat → List (Nat × Nat)
  | [], k, v => [(k, v)]
  | (a, b) :: r, k, v => if k < a then (k, v) :: (a, b) :: r else if k == a then (k, v) :: r else (a, b) :: assocSet r k v

/-- Remove a key. -/
def assocDel (l : List (Nat × Nat)) (k : Nat) : List (Nat × Nat) := l.filter (fun e => e.1 != k)

/-- All settings of one list laid over another. -/
def assocAll (l m : List (Nat × Nat)) : List (Nat × Nat) := m.foldl (fun a e => assocSet a e.1 e.2) l

/-! ### The factory record (R421) -/

/-- SHA-256 (assumption 3). -/
def sha256 (bs : List Byte) : List Byte := (List.range 32).map (Config.shaByte bs)

/-- UNIQUE_ID as its eight bytes. -/
def uidBytes : List Byte := le 8 (Config.uniqueId % 2 ^ 64)

/-- What the password record keeps of SHA-256 of UNIQUE_ID followed by a password (R348; assumption 21). -/
def pwDigest (v : Nat) : List Byte := (sha256 (uidBytes ++ le 8 v)).take 29

/-- A copy of the factory record has the SHA-256 that OTP holds. -/
def factoryMatches (n : Nat) : Bool := sha256 (Config.factorySector n) == Config.factoryHash

/-- A copy's own CRC-32C is correct (R500). The spec does not say where it stands: the last four bytes (assumption 81). -/
def factoryCrcOk (n : Nat) : Bool :=
  let bs := Config.factorySector n
  4 < bs.length && crc32c (bs.take (bs.length - 4)) == fieldAt bs (bs.length - 4) 4

/-- The copy that the Warden takes at stage 2: the first that matches FACTORY_HASH, else one whose CRC is correct, else none
(R421). -/
def factoryChoice : Nat :=
  if factoryMatches 0 then 0 else if factoryMatches 1 then 1
  else if factoryCrcOk 0 then 0 else if factoryCrcOk 1 then 1 else 0xFF

/-- Bytes of the factory record in use; none for nominal values. -/
def factoryImage (s : State) : List Byte := if s.up.factory == 0xFF then [] else Config.factorySector s.up.factory

/-- A production value of the factory record in use: 0 offset and 1 gain trim by converter, 2 the baseline ratio, 3 R_IN by
channel, 4 the value of a parameter ID. -/
def factoryVal (s : State) (kind i : Nat) : Int := Config.factory (factoryImage s) kind i

/-- Members whose Reset column says OTP and whose value the factory record holds: trims, port latencies and TDAC_CAL (R421). -/
def factoryMember (id : Nat) : Bool := pFam id == 15 || pFam id == 17 || pFam id == 19 || pFam id == 29

/-! ### Parameters (R326 to R329) -/

/-- The reset value of a member (R332, R333, R248). -/
def parReset (s : State) (id : Nat) : Nat :=
  match memberOf id with
  | none => 0
  | some d =>
    match d.rst with
    | .val n => if id == 0x3001 && (s.pr.applied.lookup 0x1000).getD 50 == 60 then 60 else n
    | .byInst l => l.getD (pInst id) 0
    | .otp => if factoryMember id then ofSigned (8 * d.ty.size) (factoryVal s 4 id) else Config.otpValue id % 2 ^ (8 * d.ty.size)
    | .p0 n => n
    | .pioneer => 0
    | .held => 0
    | .node b => (b + s.pr.idNode.getD s.nt.node) % 65536
    | .strap => if s.pw.refsel then 1 else 0

/-- The reset value as it is computed now: a PMU identity code follows the node number in force since the last power-up (R248). -/
def parDefault (s : State) (id : Nat) : Nat := parReset (s.onPr fun p => { p with idNode := none }) id

/-- The applied value of a writable member (WHICH 0). -/
def par (s : State) (id : Nat) : Nat := (s.pr.applied.lookup id).getD (parReset s id)

/-- The committed value (WHICH 2). -/
def parCommitted (s : State) (id : Nat) : Nat := (s.pr.committed.lookup id).getD (parReset s id)

/-- The value a commit now would apply (WHICH 1). -/
def parNext (s : State) (id : Nat) : Nat := (s.pr.pending.lookup id).getD (parCommitted s id)

/-- Applied value of a signed member of `n` bits. -/
def parS (s : State) (n id : Nat) : Int := toSigned n (par s id)

/-- Applied value of a binary32 member. -/
def parF (s : State) (id : Nat) : Rat := ratOfF32 (par s id)

/-- Take a value into use. -/
def State.setPar (s : State) (id v : Nat) : State := s.onPr fun p => { p with applied := assocSet p.applied id v }

/-- Set a value in the committed and the applied set: values that the device itself stores (UTC_OFFSET, LEAP, CFGCNT). -/
def State.storePar (s : State) (id v : Nat) : State :=
  s.onPr fun p => { p with applied := assocSet p.applied id v, committed := assocSet p.committed id v }

/-- The instant at which a member's committed value is taken into use. -/
def effOf (id : Nat) : Eff := ((memberOf id).map (·.eff)).getD .commit

/-- Take into use every scheduled value that a predicate on its ID selects (R329). -/
def State.takeScheduled (s : State) (p : Nat → Bool) : State :=
  s.onPr fun q => { q with applied := assocAll q.applied (q.scheduled.filter (fun e => p e.1)),
                           scheduled := q.scheduled.filter (fun e => !p e.1) }

/-- Uncommitted values of the families that a restarting node owns return to their committed values (R24). -/
def State.dropPending (s : State) (o : Owner) : State :=
  s.onPr fun p => { p with pending := p.pending.filter (fun e => famOwner (pFam e.1) != o) }

/-! ### Time and the event log (R414 to R416) -/

/-- The time counter. -/
def State.now (s : State) : Nat := s.te.cnt

/-- The time counter as TIME80. -/
def State.now80 (s : State) : Nat := time80 s.te.cnt

/-- UTC offset in force, s (R250). -/
def utcOffset (s : State) : Int := parS s 16 0x380D

/-- TIME cycles of a second and of a millisecond. -/
def cycS : Nat := 128000000
def cycMs : Nat := 128000

/-- At least `n` TIME cycles have passed since the model clock read `c`. -/
def State.after (s : State) (c n : Nat) : Bool := decide (c + n ≤ s.clk)

/-- Seconds of model clock since an instant (UPTIME_S, ages). -/
def secsSince (s : State) (c : Nat) : Nat := (s.clk - c) / 128000000

/-- Milliseconds of model clock since an instant. -/
def msSince (s : State) (c : Nat) : Nat := (s.clk - c) / 128000

/-- FLAGS of a log entry: CONT, VBAT, DEFERRED, UNLOCKED; DELAYED is set when the entry is written. -/
def logFlags (s : State) (cont vbat deferred : Bool) : Nat :=
  flagAt cont 0 + flagAt vbat 1 + flagAt deferred 2 + flagAt (s.te.servo != .locked) 3

/-- Put one entry into the log buffer of 256 entries, or discard it (R416). -/
def State.pushLog (s : State) (e : LogEntry) : State :=
  s.onWd fun w =>
    if w.buffer.length < 256 then { w with buffer := w.buffer ++ [e] }
    else { w with lost := w.lost + 1, lostSince := w.lostSince + 1 }

/-- The continuation entries of an event (R415). -/
def State.pushConts (s : State) (time code fl : Nat) : List (List Byte) → State
  | [] => s
  | d :: r => (s.pushLog ⟨time, code, fitBytes 14 d, fl, s.clk⟩).pushConts time code fl r

/-- Log an event at a time: its DATA and that of its CONT entries. -/
def State.logAt (s : State) (time code : Nat) (vbat deferred : Bool) (data : List Byte) (conts : List (List Byte)) : State :=
  (s.pushLog ⟨time, code, fitBytes 14 data, logFlags s false vbat deferred, s.clk⟩).pushConts time code
    (logFlags s true vbat deferred) conts

/-- Log an event at the time counter's present value. -/
def State.log (s : State) (code : Nat) (data : List Byte) (conts : List (List Byte) := []) : State :=
  s.logAt s.now80 code false false data conts

/-! ### Reads of the Heartwood array (R359) -/

/-- An uncorrectable word is read (R359). -/
def State.uncorrectable (s : State) (w : Nat) : State :=
  (s.onHw fun h => { h with eccUncorrectable := u32 (h.eccUncorrectable + 1), uncorrSeen := true }).log 0x0906 (le 4 (4 * w))

/-- A word with inverted bits is read (R359): a corrected one is rewritten at scrub priority. -/
def State.senseFlip (s : State) (f : Flip) : State :=
  if flipBad f then s.uncorrectable f.word
  else
    (s.onHw fun h => { h with eccCorrected := u32 (h.eccCorrected + 1),
                              rewrites := h.rewrites.filter (·.1 != f.word) ++ [(f.word, false)] }).log 0x0905 (le 4 (4 * f.word))

/-- A client reads a range of bytes: what the words with inverted bits in it then cause (R359). -/
def State.sense (s : State) (a n : Nat) : State := (flipsIn s a n).foldl State.senseFlip s

/-! ### Interrupts, stage and hush (R27, R313, R315) -/

/-- Set an event bit of IRQ_STATUS. -/
def State.irq (s : State) (b : Nat) : State := s.onLk fun l => { l with irq := setBit l.irq b }

/-- Stage `n` begins: its first entry since power-up for stage 2, its latest for stage 3. -/
def Power.staged (p : Power) (n clk : Nat) : Power :=
  { p with stage := n, stage2At := if 2 ≤ n && p.stage2At.isNone then some clk else p.stage2At,
           stage3At := if 3 ≤ n && p.stage < 3 then some clk else p.stage3At }

/-- Enter a stage: a change raises the stage-change interrupt and is logged (R27, Table 18-4). -/
def State.enterStage (s : State) (n : Nat) : State :=
  if s.pw.stage == n then s
  else ((s.onPw fun p => p.staged n s.clk).irq 0).log 0x0102 (le 1 s.pw.stage ++ le 1 n)

/-! ### The tamper ladder (R390 to R396) -/

/-- One slot. -/
def State.slot (s : State) (n : Nat) : Slot := s.tp.slots.getD n ⟨false, false, false, 0, 0, 0, 0, false, 0⟩

/-- Update one slot. -/
def State.onSlot (s : State) (n : Nat) (f : Slot → Slot) : State := s.onTp fun t => { t with slots := modAt t.slots n f }

/-- The ladder level: the highest response among the LATCHED sources (R394). -/
def ladder (s : State) : Nat := s.tp.slots.foldl (fun a x => if x.latched && a < x.resp then x.resp else a) 0

/-- The ladder is at LOCK or above. -/
def locked (s : State) : Bool := 2 ≤ ladder s

/-- A new challenge of 16 TRNG bytes (R406). -/
def State.newChallenge (s : State) : State := (s.onTp fun t => { t with challenge := freeBytes s 16 }).drew 16

/-- Rescale a CF residue on leaving test mode to the normal weight (R192). -/
def cfLeaveTest (div : Nat) (c : Cf) : Cf :=
  if c.test then { c with test := false, acc := c.acc * ((2 ^ div : Nat) : Rat) } else c

/-- Outputs that a predicate names leave calibration test mode; `stays` says that another goes on (R192). -/
def State.leaveCfTest (s : State) (p : Cf → Bool) (stays : Bool) : State :=
  let mask := packFlags (s.me.cfs.map fun c => c.test && p c)
  (s.onMe fun m => { m with testActive := stays,
                            cfs := m.cfs.mapIdx (fun k c => if p c then cfLeaveTest (par s (pid 26 k 5)) c else c) }).log 0x0207
    (le 1 mask ++ le 1 0)

/-- Leave calibration test mode on every output (R192). -/
def State.endCfTest (s : State) : State := if s.me.testActive then s.leaveCfTest (fun _ => true) false else s

/-- What reaching LOCK does: write sessions close, CF test mode ends, forces are released (R347, R192, R460). -/
def State.lockActions (s : State) : State :=
  ((s.onSe fun e => { e with open_ := e.open_.filter (fun x => !x.write) }).endCfTest).onHm fun h => { h with forces := [] }

/-- The actions of a response below CLEAR from stage 1 up, highest level first (R394, R395). -/
def State.respond (s : State) (resp : Nat) : State :=
  let s1 := if 2 ≤ resp then s.lockActions else s
  if 1 ≤ resp then s1.irq 6 else s1

/-- The entries of a raise, which carry the evaluation instant: TAMPER_RAISED, and TAMPER_CLEARED where the source ceases at
once (Table 17-3, R395). -/
def State.logRaise (s : State) (r : Raise) : State :=
  let d := le 1 r.slot ++ le 1 r.resp ++ le 1 r.circuit
  let s1 := s.logAt r.time 0x0A01 false false d []
  if r.holds then s1 else s1.logAt r.time 0x0A02 false false d []

/-- Keep a raise on the backup cell in the tamper buffer of 16 entries (R399). -/
def State.bufferRaise (s : State) (slot : Nat) : State :=
  s.onTp fun t =>
    if t.buffer.length < 16 then { t with buffer := t.buffer ++ [(slot, cal64 s.rtc.cal)] }
    else { t with buffer := t.buffer.take 15 ++ [(slot, cal64 s.rtc.cal)], overflow := satN 255 (t.overflow + 1) }

/-- A raise latches its source (R390). -/
def State.latchRaise (s : State) (r : Raise) : State :=
  s.onSlot r.slot fun x => { x with active := r.holds, latched := true, onVbat := s.pw.stage == 0, count := u32 (x.count + 1),
                                    last := r.time, persisting := false }

/-- Raises of one evaluation, in slot order (R394, R395, R399, R406): each source is latched and draws a new challenge; the device
carries out the union of their actions, one Clearing for all at CLEAR among them, and the entries come last, after the Clearing.
On the backup cell each is buffered, and CLEAR zeroises the key store and leaves the rest of the Clearing pending. -/
def State.raiseAll (s : State) (l : List Raise) : State :=
  let s1 := l.foldl State.latchRaise s
  let mask := (l.filter fun r => r.resp == 3).foldl (fun a r => a.lor (2 ^ r.slot)) 0
  if s.pw.stage == 0 then
    let s2 := l.foldl (fun x r => x.bufferRaise r.slot) s1
    if mask == 0 then s2
    else s2.onTp fun t => { t with identity := none, keys := [], clearPending := true, clearQueue := t.clearQueue ++ [⟨mask, []⟩] }
  else
    let s2 := (l.foldl (fun x _ => x.newChallenge) s1).respond (l.foldl (fun a r => Nat.max a r.resp) 0)
    if mask == 0 then l.foldl State.logRaise s2
    else s2.onTp fun t => { t with clearQueue := t.clearQueue ++ [⟨mask, l⟩] }

/-- A raise of a source now. `holds` says that the source stays ACTIVE; a source whose condition is a single event stops being
ACTIVE at once. -/
def raiseOf (s : State) (slot circuit : Nat) (holds : Bool) : Raise :=
  ⟨if s.pw.stage == 0 then time80 (calToTai s.rtc.cal (utcOffset s)) else s.now80, slot, (s.slot slot).resp, circuit, holds⟩

/-- Raise one tamper source. -/
def State.tamperRaise (s : State) (slot circuit : Nat) (holds : Bool) : State := s.raiseAll [raiseOf s slot circuit holds]

/-- A source stops being ACTIVE (R394). -/
def State.tamperClear (s : State) (slot circuit : Nat) : State :=
  if s.pw.stage == 0 then s.onSlot slot fun x => { x with active := false, persisting := false }
  else if (s.slot slot).active then
    (s.onSlot slot fun x => { x with active := false, persisting := false }).log 0x0A02
      (le 1 slot ++ le 1 (s.slot slot).resp ++ le 1 circuit)
  else s

/-- Lowest stage at which a source can be raised (Table 17-1). -/
def slotFrom : List Nat := [0, 0, 0, 1, 1, 0, 1, 1, 1, 1, 1, 2, 2, 2, 2, 2, 2, 2, 1, 1, 2, 1, 2, 2, 2, 2, 2]

/-- SRC_PERSIST_MS of a slot: the applied value; slots 12 to 20 ignore it (Table 17-12). -/
def persistMs (s : State) (slot : Nat) : Nat := if 12 ≤ slot && slot ≤ 20 then 0 else par s (pid 28 slot 5)

/-- A source whose condition holds is raised at once: it runs at this stage, is not ACTIVE, and asks for no persistence (R390). -/
def raisesNow (s : State) (slot : Nat) : Bool :=
  slotFrom.getD slot 5 ≤ s.pw.stage && !(s.slot slot).active && !(s.slot slot).persisting && persistMs s slot == 0

/-- Follow the condition of a source: raised once it has held for SRC_PERSIST_MS, cleared when it no longer holds (R390). -/
def State.tamperCond (s : State) (slot circuit : Nat) (holds : Bool) : State :=
  let x := s.slot slot
  if s.pw.stage < slotFrom.getD slot 5 then s
  else if holds then
    if x.active || x.persisting then s
    else if persistMs s slot == 0 then s.tamperRaise slot circuit true
    else s.onSlot slot fun y => { y with persisting := true, since := s.clk }
  else (s.onSlot slot fun y => { y with persisting := false }).tamperClear slot circuit

/-- A source whose condition is a single event: it becomes ACTIVE and ceases at once, so that with SRC_PERSIST_MS above 0 it is
never raised (R390). -/
def State.tamperPulse (s : State) (slot : Nat) : State :=
  if s.pw.stage < slotFrom.getD slot 5 || persistMs s slot != 0 then s else s.tamperRaise slot 0xFF false

/-! ### Sessions (R347) -/

/-- A session of the kind is open on the path. -/
def hasSession (s : State) (path : Path) (part : Nat) (write : Bool) : Bool :=
  s.se.open_.any (fun x => x.part == part && x.path == path && (x.write || !write))

/-- A write session is open. -/
def canWrite (s : State) (path : Path) (part : Nat) : Bool := hasSession s path part true

/-- A read session, or a write session, is open. -/
def canRead (s : State) (path : Path) (part : Nat) : Bool := hasSession s path part false

/-- Level of the console: SERVICE with a P2 write session, READ with any session, VIEW otherwise (R458). -/
def consoleLevel (s : State) : Nat :=
  if canWrite s .console 2 then 2 else if s.se.open_.any (fun x => x.path == .console) then 1 else 0

/-- Sessions that a predicate names close, and with the P2 write session that authorised it every force ends (R347, R460). -/
def State.dropSessions (s : State) (p : Session → Bool) : State :=
  let s1 := s.onSe fun e => { e with open_ := e.open_.filter (fun x => !p x) }
  s1.onHm fun h => { h with forces := h.forces.filter (fun f => canWrite s1 f.path 2) }

/-! ### Replies (R309, R311, R320, R321) -/

/-- Status codes (Table 14-2). -/
inductive Status where
  | ok | pending | badCrc | badLength | unknownOpcode | badParamId | valueRange | readOnly | locked | authFail
  | notInStage | powerFailing | stopRequired | bankBusy | timePast | queueFull | stepRefused | hushed | internalFault
deriving DecidableEq, Repr

/-- The code of a status. -/
def Status.code : Status → Nat
  | .ok => 0x0000 | .pending => 0x0001 | .badCrc => 0x0101 | .badLength => 0x0102 | .unknownOpcode => 0x0103
  | .badParamId => 0x0104 | .valueRange => 0x0105 | .readOnly => 0x0106 | .locked => 0x0201 | .authFail => 0x0202
  | .notInStage => 0x0203 | .powerFailing => 0x0204 | .stopRequired => 0x0301 | .bankBusy => 0x0302
  | .timePast => 0x0303 | .queueFull => 0x0304 | .stepRefused => 0x0305 | .hushed => 0x0401 | .internalFault => 0x0501

/-- The name of a status as the console prints it (R457). -/
def Status.name : Status → String
  | .ok => "OK" | .pending => "ACCEPTED_PENDING" | .badCrc => "BAD_CRC" | .badLength => "BAD_LENGTH"
  | .unknownOpcode => "UNKNOWN_OPCODE" | .badParamId => "BAD_PARAM_ID" | .valueRange => "VALUE_RANGE"
  | .readOnly => "READ_ONLY" | .locked => "LOCKED" | .authFail => "AUTH_FAIL" | .notInStage => "NOT_IN_STAGE"
  | .powerFailing => "POWER_FAILING" | .stopRequired => "STOP_REQUIRED" | .bankBusy => "BANK_BUSY"
  | .timePast => "TIME_PAST" | .queueFull => "QUEUE_FULL" | .stepRefused => "STEP_REFUSED" | .hushed => "HUSHED"
  | .internalFault => "INTERNAL_FAULT"

/-- A status that counts as refused (CMD_REFUSED, Table 14-14). -/
def Status.refused (x : Status) : Bool := x != .ok && x != .pending

/-- Characters as bytes. -/
def ascii (t : String) : List Byte := t.toList.map (fun c => BitVec.ofNat 8 c.toNat)

/-- A plain packet (Table 14-1). -/
def packet (flags tag opcode node : Nat) (params : List Byte) : List Byte :=
  let b := le 1 flags ++ le 1 tag ++ le 2 opcode ++ le 2 params.length ++ le 2 node ++ params
  b ++ le 2 (crc16 b)

/-- The IV of a secured packet (R311): NODE, a direction byte (0 request, 1 reply), 0x00, and NONCE. -/
def packetIv (node dir nonce : Nat) : List Byte := le 2 node ++ le 1 dir ++ zeros 1 ++ le 8 nonce

/-- A secured reply (Table 13-7): ciphertext and tag are an opaque function of key, IV, the eight header bytes as additional
authenticated data, and plaintext (assumption 3). -/
def securedPacket (flags tag opcode node nonce : Nat) (key params : List Byte) : List Byte :=
  let n := params.length
  let aad := le 1 flags ++ le 1 tag ++ le 2 opcode ++ le 2 n ++ le 2 node
  let c := (List.range (n + 16)).map (Config.cryptoByte 1 (key ++ packetIv node 1 nonce ++ aad ++ params))
  let b := aad ++ le 8 nonce ++ c
  b ++ le 2 (crc16 b)

/-- FLAGS of a reply (R321). -/
def replyFlags (h : Hdr) (sec : Bool) : Nat := 0x81 + flagAt h.bulk 6 + flagAt sec 4

/-- The session key of a path. -/
def keyOf (s : State) (p : Path) : Option SessKey := s.tp.keys.find? (fun k => k.path == p)

/-- Update the session key of a path. -/
def State.onKey (s : State) (p : Path) (f : SessKey → SessKey) : State :=
  s.onTp fun t => { t with keys := t.keys.map (fun k => if k.path == p then f k else k) }

/-- An IPv6 address outside ::ffff:0:0/96. -/
def isIpv6 (a : Nat) : Bool := 2 ^ 48 ≤ a

/-- An IPv4 address in the 128-bit form of Table 10-12. -/
def ofIpv4 (a : Nat) : Nat := 0xFFFF * 2 ^ 32 + a % 2 ^ 32

/-- The node an address is reached through: the gateway for an IPv4 address outside the subnet (Table 12-6). -/
def nextHop (s : State) (a : Nat) : Nat :=
  let out := (a % 2 ^ 32).land (par s 0x5804) != (par s 0x5803).land (par s 0x5804)
  if !isIpv6 a && par s 0x5805 != 0 && out then ofIpv4 (par s 0x5805) else a

/-- Ports on which own frames to a MAC address leave in LINE mode (Table 12-2): the port of the learned destination, both while it is
unknown. -/
def linePorts (s : State) (mac : Option Nat) : Nat :=
  match mac.bind fun m => s.nt.learn.lookup m with
  | some e => 2 ^ e.1
  | none => 3

/-- Ports on which own UDP frames to an address leave (Table 12-2). Its MAC address is the one from which frames of that IP address
came (assumption 118). -/
def ownPorts (s : State) (addr : Nat) : Nat :=
  if s.nt.mode == 2 then 1 else if s.nt.mode == 1 then linePorts s (s.nt.neigh.lookup (nextHop s addr)) else 3

/-- IP frames can go to an address: IPv4 is on where it is an IPv4 address (Table 12-6). -/
def netReaches (s : State) (addr : Nat) : Bool := isIpv6 addr || par s 0x5803 != 0

/-- An own frame that carries a UDP payload from a source port to an address and port. -/
def udpFrame (s : State) (prio : Nat) (kind : FrameKind) (dst : Nat × Nat) (src : Nat) (bytes : List Byte) : OwnFrame :=
  { prio := prio, kind := kind, dst := dst, src := src, bytes := bytes, tsId := none, hsrSeq := 0, ports := ownPorts s dst.1,
    stepMark := 0, held := false, left := false, ptp := none }

/-- A whole Ethernet frame that leaves on some ports. -/
def rawFrame (prio : Nat) (kind : FrameKind) (bytes : List Byte) (ports : Nat) : OwnFrame :=
  { prio := prio, kind := kind, dst := (0, 0), src := 0, bytes := bytes, tsId := none, hsrSeq := 0, ports := ports,
    stepMark := 0, held := false, left := false, ptp := none }

/-- Put an own frame into the egress queues under the next HSR sequence number (R279). -/
def State.enqueue (s : State) (f : OwnFrame) : State :=
  let tagged := s.nt.mode == 0 && f.kind != .ptp && f.kind != .forwarded
  s.onNt fun n =>
    { n with egress := n.egress ++ [{ f with hsrSeq := if tagged then n.hsrSeq else f.hsrSeq }],
             hsrSeq := if tagged then (n.hsrSeq + 1) % 65536 else n.hsrSeq }

/-- Bytes of an outbound stream. -/
def outBytes (l : List (List Byte)) : Nat := l.foldl (fun a p => a + p.length) 0

/-- The stream on which a host request's reply leaves is full, so that requests of its lane are not processed (R304, assumption 35). -/
def streamFull (s : State) (h : Hdr) : Bool :=
  h.path == .host && 4090 + Config.streamSpare h.bulk ≤ outBytes (if h.bulk then s.lk.bulkOut else s.lk.ctrlOut)

/-- Receive buffers in use on a lane. -/
def buffersUsed (l : List RxItem) : Nat :=
  (l.filter fun x => match x with
    | .request _ => true
    | .reply _ => false).length

/-- Replies of link hardware that stand at the front of a lane enter its stream: the replies, and what still waits (R309). -/
def readyReplies : List RxItem → List (List Byte) × List RxItem
  | .reply b :: r => (b :: (readyReplies r).1, (readyReplies r).2)
  | l => ([], l)

/-- A reply enters its lane's outbound stream, its receive buffer is freed, and what link hardware has waiting behind it follows (R309).
-/
def Link.replied (l : Link) (bulk : Bool) (bs : List Byte) : Link :=
  if bulk then
    let w := readyReplies (l.rxBulk.drop 1)
    { l with bulkOut := l.bulkOut ++ bs :: w.1, rxBulk := w.2 }
  else
    let w := readyReplies (l.rxCtrl.drop 1)
    { l with ctrlOut := l.ctrlOut ++ bs :: w.1, rxCtrl := w.2 }

/-- Put the bytes of a reply on the way its request came: the lane's outbound stream with its receive buffer freed (R309),
an own frame of priority 7 (R283, R284), or the console, unless it is detached (R456). A network broadcast is not answered (R283). -/
def State.deliver (s : State) (h : Hdr) (bs : List Byte) : State :=
  match h.path with
  | .host => s.onLk fun l => l.replied h.bulk bs
  | .net a p =>
    if h.bcast then s else s.enqueue (udpFrame s 7 .reply (a, p) 47310 bs)
  | .console => if s.hm.owner == 0 then s else s.onHm fun m => { m with out := m.out ++ [bs] }

/-- Send a reply with its PARAMS: secured under the device's own nonce when the request was secured (R311). -/
def State.replyRaw (s : State) (h : Hdr) (opcode : Nat) (params : List Byte) (sec : Bool) : State :=
  match sec, keyOf s h.path with
  | true, some k =>
    (s.onKey h.path fun x => { x with txNonce := x.txNonce + 1 }).deliver h
      (securedPacket (replyFlags h true) h.tag opcode s.nt.node (k.txNonce + 1) k.key params)
  | _, _ => s.deliver h (packet (replyFlags h false) h.tag opcode s.nt.node params)

/-- The console's answer: the output, then OK or ERR and the status name (R457). -/
def consoleLine (st : Status) (bytes : List Byte) : List Byte :=
  bytes ++ (if st.refused then ascii ("ERR " ++ st.name) else ascii "OK")

/-- A request carried out on a path that holds a session keeps its sessions from timing out (R347; assumption 84). -/
def Link.hear (l : Link) (p : Path) (clk : Nat) : Link :=
  { l with heard := l.heard.filter (fun e => e.1 != p) ++ [(p, clk)] }

/-- Answer a request: STATUS and the bytes after it, counted in LAST_REFUSED and CMD_REFUSED when refused. -/
def State.answer (s : State) (h : Hdr) (opcode : Nat) (st : Status) (bytes : List Byte) (sec : Bool := h.sec.isSome) :
    State :=
  let s1 := if st.refused then
      s.onLk fun l => { l with cmdRefused := l.cmdRefused + 1, lastRefused := opcode * 65536 + st.code }
    else if s.se.open_.any (fun x => x.path == h.path) then s.onLk fun l => l.hear h.path s.clk
    else s
  match h.path with
  | .console => s1.deliver h (consoleLine st bytes)
  | _ => s1.replyRaw h opcode (le 2 st.code ++ bytes) sec

/-! ### The interpreter (R41, R308, R311, R323, R335) -/

/-- What the interpreter knows of an opcode: code, lane (`none` either), lowest stage, whether fragments are accepted,
whether the Warden carries it out, whether its reply is always plain, and the bytes of its reply's fixed part after STATUS. -/
structure Op where
  code : Nat
  bulk : Option Bool := some false
  minStage : Nat := 3
  frag : Bool := false
  warden : Bool := false
  /-- The reply is sent plain although the request was secured (R408). -/
  plain : Bool := false
  fixed : Nat
  /-- What the fields after STATUS hold in a refusal where the opcode's own table fills them; zeros where it does not (R321). -/
  fill : List Byte := []

/-- The fields after STATUS of a refusal (R321). -/
def Op.blank (op : Op) : List Byte := if op.fill.isEmpty then zeros op.fixed else op.fill

/-- What an accepted request answers: the state, the status and the bytes after STATUS. -/
structure Ans where
  s : State
  st : Status
  bytes : List Byte

/-- The first status whose check fails. -/
def firstFail : List (Bool × Status) → Option Status
  | [] => none
  | (b, st) :: r => if b then some st else firstFail r

/-- A secured request is authentic: its path has a key, its NONCE is later than the last accepted, its tag verifies. -/
def authentic (s : State) (h : Hdr) : Bool :=
  match h.sec with
  | none => true
  | some (n, ok) =>
    match keyOf s h.path with
    | none => false
    | some k => ok && k.rxNonce < n

/-- Count one more AUTH_FAIL on secured packets of a path; sixteen in a row raise SECURED_REPLAY (slot 24). -/
def State.secFail (s : State) (p : Path) : State :=
  let n := (s.tp.authRuns.lookup p).getD 0 + 1
  let s1 := s.onTp fun t => { t with authRuns := (t.authRuns.filter (fun e => e.1 != p)) ++ [(p, n)] }
  if n == 16 then s1.tamperCond 24 0xFF true else s1

/-- A secured request was accepted: its NONCE is recorded and the run of failures ends. -/
def State.secPass (s : State) (h : Hdr) : State :=
  match h.sec with
  | none => s
  | some (n, _) =>
    let s1 := s.onKey h.path fun k => { k with rxNonce := n }
    let s2 := s1.onTp fun t => { t with authRuns := t.authRuns.filter (fun e => e.1 != h.path) }
    if s2.tp.authRuns.any (fun e => 16 ≤ e.2) then s2 else s2.tamperClear 24 0xFF

/-- Opcodes that a console command asks for, with the level the command needs: 0 VIEW, 1 READ, 2 SERVICE (Table 20-4);
PROVISION, which R407 accepts from the console, needs none. -/
def consoleOps : List (Nat × Nat) :=
  [(0x0101, 0), (0x0102, 0), (0x0C02, 0), (0x0C01, 0), (0x0903, 0), (0x0904, 0), (0x0A11, 0), (0x0321, 1), (0x0F01, 1),
   (0x0103, 2), (0x0106, 2), (0x0108, 2), (0x0F02, 2), (0x0203, 2), (0x0121, 2)]

/-- The console runs no such command (R457). -/
def consoleUnknown (h : Hdr) (code : Nat) : Bool := h.path == .console && (consoleOps.lookup code).isNone

/-- The console is below the level that the command needs (R458). -/
def consoleShort (s : State) (h : Hdr) (code : Nat) : Bool :=
  h.path == .console && consoleLevel s < (consoleOps.lookup code).getD 0

/-- The status that an opcode's checks give, with the console's level tested among the sessions (R323, R458). -/
def checkStatus (s : State) (h : Hdr) (code : Nat) (checks : List (Bool × Status)) : Option Status :=
  let c := firstFail checks
  if consoleShort s h code && c != some .powerFailing && c != some .locked then some .authFail else c

/-- No console line can arrive: no console is attached, or the Warden, which runs the console, does not run (R456, Table 1-8).
-/
def consoleAbsent (s : State) (h : Hdr) : Bool := h.path == .console && (s.hm.owner == 0 || !s.wd.running)

/-- PARAMS of the fragments of a message that have come so far: fragments share path, lane, TAG and OPCODE (R310). -/
def fragOf (s : State) (h : Hdr) (code : Nat) : List Byte :=
  ((s.lk.frag.find? (fun e => e.1 == h.path && e.2.1 == h.bulk && e.2.2.1 == h.tag && e.2.2.2.1 == code)).map (·.2.2.2.2)).getD []

/-- A message ends, or another begins on its path and lane: its fragments are dropped (assumption 122). -/
def State.fragEnd (s : State) (h : Hdr) : State :=
  s.onLk fun l => { l with frag := l.frag.filter (fun e => !(e.1 == h.path && e.2.1 == h.bulk)) }

/-- One more fragment of a message. -/
def State.fragAdd (s : State) (h : Hdr) (code : Nat) (bs : List Byte) : State :=
  (s.fragEnd h).onLk fun l => { l with frag := l.frag ++ [(h.path, h.bulk, h.tag, code, fragOf s h code ++ bs)] }

/-- An answer without effect. -/
def refuse (s : State) (op : Op) (st : Status) : Ans := ⟨s, st, op.blank⟩

/-! ### Direct frames (R300) -/

/-- Outcome of a direct write (DIRECT_LOG). -/
inductive Direct where
  | accepted | badCrc | refused | locked
deriving DecidableEq, Repr

/-- Record a direct write: DIRECT_LOG, the two error bits of STATUS and the link-error interrupt (R300, Table 13-11). -/
def State.directLog (s : State) (addr : Nat) (d : Direct) : State :=
  let s1 := s.onLk fun l =>
    { l with dlAddr := addr, dlAccepted := d == .accepted, dlBadCrc := d == .badCrc, dlRefused := d == .refused,
             dlLocked := d == .locked, dlCount := if d == .accepted then satN 65535 (l.dlCount + 1) else l.dlCount,
             directCrcErr := l.directCrcErr || d == .badCrc, directRoErr := l.directRoErr || d == .refused }
  if d == .badCrc || d == .refused then s1.irq 14 else s1

/-! ### Power failure marks -/

/-- External Heartwood writes are refused (R49, R438). -/
def pfailing (s : State) : Bool := s.pw.pfail

end Sys2Proof.Machine
end

