-- ==== Sys2Proof/Machine/NetOps.lean ====
section
/-! DEFINITION. Shared operations of the network engine: byte times on the wire, the token bucket and reserve limiter of
R285, egress queues (R284) and TX timestamps (R264 to R266). -/

namespace Sys2Proof.Machine

/-- One byte in the token bucket's unit: a TIME cycle at 1 kb/s earns one unit. -/
def tokenByte : Nat := 1024000

/-- Frames that carry a whole Ethernet frame rather than a UDP payload. -/
def FrameKind.raw : FrameKind → Bool
  | .host => true | .ptp => true | .supervision => true | .forwarded => true
  | _ => false

/-- Byte times of a frame on the wire (Example of R287): preamble and gap 20, Ethernet header 14, FCS 4, HSR tag 6 in HSR
mode except on PTP, IPv4 20 or IPv6 40 and UDP 8 for UDP payloads, padded to the shortest Ethernet frame. A forwarded frame holds its tag.
-/
def wireBytes (s : State) (f : OwnFrame) : Nat :=
  let tag := if s.nt.mode == 0 && f.kind != .ptp && f.kind != .forwarded then 6 else 0
  let body := if f.kind.raw then f.bytes.length else f.bytes.length + 14 + 8 + (if isIpv6 f.dst.1 then 40 else 20)
  20 + Nat.max 64 (body + 4 + tag)

/-- Tokens at the present clock (R285): rate OWN_KBPS, depth OWN_BURST. -/
def tokensNow (s : State) : Nat :=
  satN (par s (pid 11 0 11) * tokenByte) (s.nt.tokens + (s.clk - s.nt.tokenClk) * par s (pid 11 0 10))

/-- Byte times that a port transmitted in the last 100 ms. -/
def portLoad (s : State) (p : Port) : Nat :=
  (p.sentLog.filter (fun e => s.clk < e.1 + 12800000)).foldl (fun a e => a + e.2) 0

/-- The reserve limiter admits a frame to a port: its load is below 100 % − RESERVE_PCT of 10 Mb/s (R285). -/
def limiterAdmits (s : State) (k : Nat) : Bool :=
  portLoad s (s.nt.ports.getD k Port.reset) * 100 < 125000 * (100 - par s (pid 11 0 12))

/-- The limiter admits a frame to every port from which it leaves. -/
def limiterOk (s : State) (ports : Nat) : Bool := (List.range 2).all (fun k => !bitAt ports k || limiterAdmits s k)

/-- Both limits of R285 for a frame. -/
def admits (s : State) (f : OwnFrame) : Bool := wireBytes s f * tokenByte ≤ tokensNow s && limiterOk s f.ports

/-- Charge the bucket for a frame, whether it leaves on one port or both. -/
def State.charge (s : State) (f : OwnFrame) : State :=
  s.onNt fun n => { n with tokens := tokensNow s - wireBytes s f * tokenByte, tokenClk := s.clk }

/-- Hand over an own frame: priority 7 goes straight to the egress queues; priority 6 and 0 wait for admission, and are
dropped while hushed (R285, R294, R313). -/
def State.sendFrame (s : State) (f : OwnFrame) : State :=
  if !s.nt.up then s
  else if f.prio == 7 then s.enqueue f
  else if s.lk.hushed then s
  else s.onNt fun n => { n with waiting := n.waiting ++ [f] }

/-! ### Ports (R276, R277, R288) -/

/-- One port, and its update. -/
def State.port (s : State) (k : Nat) : Port := s.nt.ports.getD k Port.reset
def State.onPort (s : State) (k : Nat) (f : Port → Port) : State := s.onNt fun n => { n with ports := modAt n.ports k f }

/-- A port that receives and sends: the switch runs, the port is not off (Tables 12-1 and 12-2) and its link is up. -/
def portUp (s : State) (k : Nat) : Bool := s.nt.up && (s.port k).link != 0

/-- A port that exists in the switch mode and is not powered down. -/
def portOn (s : State) (k : Nat) : Bool := s.nt.up && par s (pid 29 k 0) != 3 && !(s.nt.mode == 2 && k == 1)

/-- A session over the network. -/
def netSession (x : Session) : Bool :=
  match x.path with
  | .net _ _ => true
  | _ => false

/-- A port's link goes down (R277, R289, R347). With both ports down the network sessions close. -/
def State.portDown (s : State) (k : Nat) : State :=
  let s1 := ((s.onPort k fun p =>
    { p with link := 0, sqi := 0, peerDelay := none, peerRun := 0, peerAsk := false, linkDowns := u32 (p.linkDowns + 1),
             resp := none, syncWait := none, residence := [], syncClk := none }).irq 5).log 0x0B02 (le 1 k ++ le 1 0)
  if s1.nt.ports.all (fun p => p.link == 0) then s1.dropSessions netSession else s1

/-- A link suits a PHY mode (Table 12-1). -/
def linkFits (mode link : Nat) : Bool := mode == 0 || (mode == 1 && link == 1) || (mode == 2 && link == 2)

/-- A committed PHY_MODE that the present link does not suit takes it down (R276, R295; assumption 119). -/
def State.commitPhy (s : State) (k : Nat) : State :=
  if portUp s k && !linkFits (par s (pid 29 k 0)) (s.port k).link then s.portDown k else s

/-- A port's transmit (2) or receive (3) latency for the linked mode, 2^-16 ns, measured in production for each mode (R288). -/
def latency (s : State) (k m : Nat) : Nat :=
  if (s.port k).link == 0 then parReset s (pid 29 k m)
  else (factoryVal s 5 (16 * k + 4 * m + (s.port k).link)).toNat % 2 ^ 32

/-- Write a TX timestamp entry to the internal or the host queue: the MII instant and the port's transmit latency (R264 to R266, R288).
-/
def State.txStamp (s : State) (host : Bool) (id port : Nat) (stepped : Bool) : State :=
  let e : TxEntry := ⟨id, port, stepped, time80 (s.now + latency s port 2)⟩
  s.onTe fun t =>
    if host then
      if t.txHost.length < 16 then { t with txHost := t.txHost ++ [e] }
      else { t with txLostHost := u32 (t.txLostHost + 1), txOvHost := true }
    else
      if t.txInt.length < 16 then { t with txInt := t.txInt ++ [e] }
      else { t with txLostInt := u32 (t.txLostInt + 1), txOvInt := true }

/-- Whether a frame goes ahead of another on a port (R284): higher priority, and at priority 7 forwarded before own. -/
def aheadOf (a b : OwnFrame) : Bool :=
  b.prio < a.prio || (a.prio == 7 && b.prio == 7 && a.kind == .forwarded && b.kind != .forwarded)

/-- Index and frame that a port sends next; ties leave in order of arrival. -/
def nextFrame (k : Nat) : Nat → List OwnFrame → Option (Nat × OwnFrame) → Option (Nat × OwnFrame)
  | _, [], best => best
  | i, f :: r, best =>
    let better := bitAt f.ports k && match best with
      | none => true
      | some (_, b) => aheadOf f b
    nextFrame k (i + 1) r (if better then some (i, f) else best)

/-- The 128-bit address held by four members, first word first (Table 10-12 form). -/
def ipOf (s : State) (base : Nat) : Nat :=
  (List.range 4).foldl (fun a k => a * 2 ^ 32 + par s (base + k)) 0

/-- Entries of push packets that have not left. -/
def Queue.inFlight (q : Queue) : Nat := q.flying.foldl (· + ·) 0

/-- Free `n` entries of the queue after the oldest `k`, with the words skipped before them; past the last one the read position
goes over skipped words too (R154, R165). -/
def Queue.freeEntries (q : Queue) (k n : Nat) : Queue :=
  let used := ((q.entries.drop k).take n).foldl (fun a e => a + e.1 + e.2.length) 0
  let l := q.entries.take k ++ q.entries.drop (k + n)
  if l.isEmpty then { q with entries := [], level := 0, skipped := 0 } else { q with entries := l, level := q.level - used }

/-- Own frames that Hush and a lost push packet do not touch. -/
def kept (f : OwnFrame) : Bool := f.prio == 7 || f.kind == .forwarded

/-- An own frame leaves on its first port: the entries of a push packet are freed (R166) and a data frame counts as sent (R239). -/
def State.frameSent (s : State) (f : OwnFrame) : State :=
  if f.kind == .bulk then s.onQu fun q => { q.freeEntries 0 (q.flying.headD 0) with flying := q.flying.drop 1 }
  else if f.kind == .phasor then s.onPm fun p => { p with sent := u32 (p.sent + 1) }
  else s

/-- An own frame was lost on every port: the entries of a push packet stay, and those of later ones with it; the instant of a data frame
yields none (R166, R239). -/
def State.frameLost (s : State) (f : OwnFrame) : State :=
  if f.kind == .bulk then
    (s.onNt fun n => { n with egress := n.egress.filter (fun x => x.kind != .bulk) }).onQu fun q => { q with flying := [] }
  else if f.kind == .phasor then s.onPm fun p => { p with skipped := u32 (p.skipped + 1) }
  else s

/-- Hush takes own priority-6 and priority-0 frames out of the network (R294, R313); the reporting instant of a data frame
that has left on no port yields no frame (R239), and entries of push packets that have not left stay in the queue (R166, R167). -/
def State.hushNet (s : State) : State :=
  let gone := s.nt.waiting ++ s.nt.egress.filter (fun f => !kept f)
  ((s.onNt fun n => { n with waiting := [], egress := n.egress.filter kept }).onQu fun q =>
    { q with flying := [], sentCount := if q.flying.isEmpty then q.sentCount else 0 }).onPm fun p =>
    { p with waitEnd := [], skipped := u32 (p.skipped + (gone.filter fun f => f.kind == .phasor && !f.left).length) }

end Sys2Proof.Machine
end

