-- ==== Sys2Proof/Machine/Store.lean ====
section
/-! DEFINITION. What the Heartwood store holds as bytes: the Pioneer record (R34 to R37), the ledger copies (R344 to R346),
record-layer records of P2 (R343, R356, R357), and the log ring of P3 (R414). -/

namespace Sys2Proof.Machine

/-! ### The Pioneer record (R34) -/

/-- First byte of the Pioneer record's copies A and B. -/
def pioBase (b : Bool) : Nat := if b then pageAddr 0 24 else pageAddr 0 8

/-- Biquads of a coefficient set's bytes: the count and the 40 coefficient bytes (Table 6-4). -/
def setBiquads (bs : List Byte) : Nat := (byteAt bs 1).toNat

/-- Committed sets whose biquads stage 1 runs: at most eight, by channel (R34, R146). -/
def pioSets (s : State) : List (Nat × List Byte) := (s.hw.p2Sets.filter (fun e => 0 < setBiquads e.2)).take 8

/-- Circuit that lists an element in the committed map; 0xFF none. -/
def committedCircuit (s : State) (e : Nat) : Nat :=
  ((List.range 28).find? (fun c => (List.range 3).any (fun k => parCommitted s (pid 21 c k) == e))).getD 0xFF

/-- Bytes 16 to 2,047 of the record, as a rebuild or a rewrite fills them (R36, R37). -/
def pioBody (s : State) : List Byte :=
  let c := parCommitted s
  let sets := pioSets s
  let biqs := fun (bs : List Byte) => fitBytes 40 ((bs.drop 8).take (20 * setBiquads bs))
  let glob := le 1 (c 0x1000) ++ zeros 1 ++ le 2 (c 0x380D) ++ le 4 (c 0x1002) ++
    (List.range 4).flatMap (fun k => le 1 (s.stand k).assign) ++ zeros 20
  let chan := (List.range 36).flatMap fun n =>
    let slot := sets.findIdx (fun e => e.1 == n)
    let has := slot < sets.length
    le 1 (c (pid 16 n 0)) ++ le 1 (flagAt has 0 + (if has then 2 * slot else 0)) ++ zeros 2 ++ le 4 (c (pid 17 n 0)) ++
    le 4 (c (pid 17 n 5)) ++ le 4 (c (pid 16 n 3))
  let conv := (List.range 40).flatMap fun n => le 4 (ofSigned 32 (s.conv n).trim.off) ++ le 4 (s.conv n).trim.gain
  let elem := (List.range 28).flatMap fun e =>
    le 1 (c (pid 20 e 1)) ++ le 1 (c (pid 20 e 2)) ++ le 1 (committedCircuit s e) ++ le 1 (c (pid 20 e 0))
  let biq := (List.range 8).flatMap fun k =>
    match sets[k]? with
    | some (n, bs) => le 1 n ++ zeros 1 ++ le 2 (c (pid 16 n 5)) ++ biqs bs
    | none => zeros 44
  let cf := (List.range 8).flatMap fun k =>
    le 1 (c (pid 26 k 0)) ++ le 1 (c (pid 26 k 1)) ++ le 1 (c (pid 26 k 2)) ++ le 1 (c (pid 26 k 3)) ++
    le 8 (c (pid 26 k 4)) ++ zeros 4
  fitBytes 2032 (glob ++ chan ++ conv ++ elem ++ biq ++ cf)

/-- A whole copy (Table 2-4). -/
def pioCopy (body : List Byte) (seq : Nat) : List Byte :=
  let h := le 2 0x5052 ++ le 2 1 ++ le 2 2032 ++ zeros 2 ++ le 4 seq
  h ++ le 4 (crc32c (h ++ body)) ++ body

/-- A copy as the store holds it: its SEQUENCE and body, when valid (R34, R35). -/
def pioRead (s : State) (b : Bool) : Option (Nat × List Byte) :=
  let bs := peek s (pioBase b) 2048
  if (badIn s (pioBase b) 2048).isEmpty && fieldAt bs 0 2 == 0x5052 && fieldAt bs 2 2 == 1 && fieldAt bs 4 2 == 2032 &&
      crc32c (bs.take 12 ++ bs.drop 16) == fieldAt bs 12 4 then
    some (fieldAt bs 8 4, bs.drop 16)
  else none

/-- `a` is later than `b` in serial-number arithmetic (R356); at exactly 2^31 the first counts as later. -/
def seqLater (a b : Nat) : Bool :=
  let d := (a + 2 ^ 32 - b) % 2 ^ 32
  1 ≤ d && d ≤ 2 ^ 31

/-- The copy the loader uses (R35): the valid one with the later sequence, copy A at equal sequence. -/
def pioSelect (s : State) : Option (Bool × Nat × List Byte) :=
  match pioRead s false, pioRead s true with
  | some a, some b => if seqLater b.1 a.1 && !seqLater a.1 b.1 then some (true, b) else some (false, a)
  | some a, none => some (false, a)
  | none, some b => some (true, b)
  | none, none => none

/-- UTC offset of the Pioneer record (R30); 0 without a valid record (assumption 13). -/
def pioUtc (s : State) : Int :=
  match pioSelect s with
  | some (_, _, body) => toSigned 16 (fieldAt body 2 2)
  | none => 0

/-- The Warden rewrites the record with the present committed values: the copy with the older sequence, sequence plus one
(R37). Without a valid record it writes both copies, sequence 1 (R36). -/
def State.pioWrite (s : State) : State :=
  match pioSelect s with
  | some (b, n, _) =>
    let q := (n + 1) % 2 ^ 32
    (s.wr (pioBase (!b)) (pioCopy (pioBody s) q)).onHw fun h => { h with pioSeq := some q }
  | none =>
    let img := pioCopy (pioBody s) 1
    ((s.wr (pioBase false) img).wr (pioBase true) img).onHw fun h => { h with pioSeq := some 1 }

/-- A change that the Warden carries into the record; nothing is written while the device has no record (R36, R37). -/
def State.pioUpdate (s : State) : State := if s.hw.pioSeq.isSome then s.pioWrite else s

/-! ### The ledger (R344) -/

/-- First byte of ledger copy A or B. -/
def ledgerBase (b : Bool) : Nat := if b then pageAddr 1 64 else pageAddr 1 0

/-- A register in whole µWh as U64. -/
def regBytes (r : Regs) (n : Nat) : List Byte := (List.range n).flatMap (fun k => le 8 (r.e.getD k 0 / 2 ^ 32))

/-- Registers as exact µWh with a 32-bit fraction. -/
def regOfBytes (bs : List Byte) (off n : Nat) : List Nat := (List.range n).map (fun k => fieldAt bs (off + 8 * k) 8 * 2 ^ 32)

/-- Energy in 2^-32 µWh as binary32 Wh. -/
def whF32 (e : Nat) : Nat := f32OfRat ((e : Rat) / ((2 ^ 32 * 1000000 : Nat) : Rat))

/-- Pioneer totals (Table 15-3, offset 48). -/
def totalsBytes (s : State) : List Byte :=
  s.me.regElemP.flatMap (fun r => regBytes r 2) ++ s.me.regCircP.flatMap (fun r => regBytes r 2)

/-- Integer and fraction of a CF residue (Table 15-3, offset 6,320): the accumulator and all energy that the registers hold
and the accumulator has not yet received (R190). -/
def cfResidue (c : Cf) : List Byte :=
  let v := (c.ready.foldl (· + ·) c.acc * ((2 ^ 32 : Nat) : Rat)).floor.toNat
  le 8 (v / 2 ^ 32) ++ le 4 (v % 2 ^ 32) ++ zeros 4

/-- An energy of a sub-interval with its incomplete mark in the sign (assumption 14). -/
def demandWord (e : Nat) (incomplete : Bool) : Nat := whF32 e + flagAt incomplete 31

/-- Demand state of a circuit: for each quantity the sub-interval in progress, then the closed ones, newest first; a place
without a sub-interval holds 0xFFFFFFFF (assumption 14). -/
def demandBytes (c : CircRun) : List Byte :=
  (List.range 4).flatMap fun q =>
    le 4 (demandWord (c.subNow.getD q 0) c.demHist) ++
    (List.range 15).flatMap (fun k => le 4 (((c.subs[k]?).map (fun e => demandWord (e.1.getD q 0) e.2)).getD 0xFFFFFFFF))

/-- Bytes 944 to 16,047 of a copy, from the running engines. The layout of the power-quality sums is not given: free bytes
(assumption 14). -/
def ledgerRest (s : State) : List Byte :=
  s.me.regElemF.flatMap (fun r => regBytes r 12) ++ s.me.regCircF.flatMap (fun r => regBytes r 12) ++
  s.me.cfs.flatMap cfResidue ++
  s.me.circRun.flatMap (fun c => le 4 c.maxP ++ le 10 c.maxPTime ++ le 4 c.maxS ++ le 10 c.maxSTime ++ zeros 4) ++
  s.me.circRun.flatMap demandBytes ++ freeBytes s 1536

/-- TIME_SOURCE and UTC offset in the bytes of a copy's header (Table 15-3). -/
def ledgerMarks (src : Nat) (utc : Int) : List Byte × List Byte := (le 1 src, le 2 (ofSigned 16 utc))

/-- A finished copy of kind 0 or 1 with its three checks (Table 15-3). -/
def ledgerCopy (s : State) (kind seq : Nat) (marks : List Byte × List Byte) (rest : List Byte) : List Byte :=
  let totals := fitBytes 896 (totalsBytes s)
  let head := le 2 0x4C47 ++ le 2 kind ++ le 4 seq
  let body := head ++ le 4 (crc32c (head ++ totals)) ++ marks.1 ++ zeros 3 ++ le 10 s.now80 ++
    le 8 (cal64 s.rtc.cal) ++ marks.2 ++ zeros 12 ++ totals ++ fitBytes 15104 rest ++ zeros 328
  let full := fitBytes 16376 body
  full ++ le 4 seq ++ le 4 (crc32c full)

/-- A ledger copy as the store holds it: SEQUENCE when its totals may be used (MAGIC, COMPLETE and TOTALS_CRC, R35). -/
def ledgerUsable (s : State) (b : Bool) : Option Nat :=
  let a := ledgerBase b
  let seq := peekVal s (a + 4) 4
  if peekVal s a 2 == 0x4C47 && peekVal s (a + 16376) 4 == seq &&
      crc32c (peek s a 8 ++ peek s (a + 48) 896) == peekVal s (a + 8) 4 then some seq else none

/-- MAGIC is present. -/
def ledgerMagic (s : State) (b : Bool) : Bool := peekVal s (ledgerBase b) 2 == 0x4C47

/-- SEQUENCE of a complete copy (R344). -/
def ledgerComplete (s : State) (b : Bool) : Option Nat :=
  let a := ledgerBase b
  let seq := peekVal s (a + 4) 4
  if peekVal s a 2 == 0x4C47 && peekVal s (a + 16376) 4 == seq && crc32c (peek s a 16376) == peekVal s (a + 16380) 4 then
    some seq
  else none

/-- The later of two copies, A at equal sequence (R344). -/
def laterCopy : Option Nat → Option Nat → Option (Bool × Nat)
  | some a, some b => if seqLater b a && !seqLater a b then some (true, b) else some (false, a)
  | some a, none => some (false, a)
  | none, some b => some (true, b)
  | none, none => none

/-- The last complete checkpoint. -/
def lastCheckpoint (s : State) : Option (Bool × Nat) := laterCopy (ledgerComplete s false) (ledgerComplete s true)

/-- The aggregation state that a checkpoint takes: Canopy's while it aggregates, else what the last complete one holds. -/
def pqSums (s : State) : Option PqSums :=
  if s.pq.agg then
    some ⟨s.now, s.pq.mark10m, s.pq.mark2h, s.pq.accs.filter (fun a => 2 ≤ a.level), s.pq.buses.map (fun b => ⟨b.events, b.freqSum, b.freqN, b.freqOr, b.pstHist, b.edge⟩)⟩
  else match s.hw.ledger with
    | some (0, _) => s.pq.savedA
    | some (_, _) => s.pq.savedB
    | none => none

/-- A copy as a checkpoint cut short leaves it (R49, R346, R354): a free number of its accesses has been carried out, page after
page, each page marked before its first word and unmarked after its last; of the last page, CRC is written before COMPLETE. -/
def State.cutCheckpoint (s : State) : State :=
  match s.hw.ckpt with
  | none => s
  | some c =>
    let n := Config.freeNat s.free % 4224
    let k := n / 66
    let w := n % 66 - 1
    let page := c.image.drop (256 * k)
    let parts := if k == 63 && w == 63 then [(c.base + 256 * k, page.take 248), (c.base + 256 * k + 252, page.drop 252)]
      else [(c.base + 256 * k, page.take (4 * w))]
    (s.onHw fun h =>
      let m := wrBytes h.mem c.base (c.image.take (256 * k))
      { h with ckpt := none,
               mem := markTorn (parts.foldl (fun m e => wrBytes m e.1 e.2) m) (c.base / 256 + k) (n % 66 != 0),
               flips := flipsAfter h.flips ((c.base, c.image.take (256 * k)) :: parts) }).drew 1

/-- Start a checkpoint of a kind with the values of `src` (R346): it goes to the copy that does not hold the last complete one,
with SEQUENCE one later. A power-fail checkpoint abandons a routine one where it stands; a routine one is not started while a
power-fail one runs. Until the Warden has loaded the ledger, everything but the Pioneer totals and the instant is read from the
last complete one. -/
def State.checkpoint (s0 src : State) (kind : Nat) : State :=
  if kind == 0 && s0.hw.ckpt.any (fun c => c.kind == 1) then s0
  else
    let s := if kind == 1 then s0.cutCheckpoint else s0
    let (copy, seq) := match s.hw.ledger with
      | some (c, n) => (1 - c, (n + 1) % 2 ^ 32)
      | none => (0, 1)
    let old := s.hw.ledger.map fun e => ledgerBase (e.1 == 1)
    let marks := if s.hw.loaded then ledgerMarks (par src (pid 7 0 0)) (utcOffset src)
      else match old with
        | some a => (peek s (a + 12) 1, peek s (a + 34) 2)
        | none => ledgerMarks 0 0
    let rest := if s.hw.loaded then ledgerRest src
      else match old with
        | some a => peek s (a + 944) 15104
        | none => zeros 15104
    let s1 := if s.hw.loaded then s else old.elim s fun a => s.sense a 16384
    let img := ledgerCopy src kind seq marks rest
    ((s1.onHw fun h => { h with ckpt := some ⟨ledgerBase (copy == 1), kind, seq, img⟩ }).onPq fun q =>
      { q with saving := pqSums src }).drew (if s.hw.loaded then 1536 else 0)

/-- A finished checkpoint stands in its copy: every word is written and none of its pages is marked (R346, R354). -/
def State.ckptWritten (s : State) (c : Ckpt) : State :=
  s.onHw fun h =>
    { h with ckpt := none, mem := wrBytes (wrBytes h.mem c.base c.image) (c.base / 2048) (zeros 8),
             flips := flipsAfter h.flips [(c.base, c.image)], rewrites := h.rewrites.filter fun w => !touches w.1 (c.base, c.image) }

/-! ### Record-layer records (R342, R343, R356 to R358) -/

/-- One copy of a record (R356): FLAGS hold PART and PARTS. -/
def recordCopy (id flags seq : Nat) (payload : List Byte) : List Byte :=
  let h := le 2 0x4857 ++ le 2 id ++ le 2 payload.length ++ le 2 flags ++ le 4 seq
  h ++ le 4 (crc32c (h ++ payload)) ++ payload

/-- SEQUENCE of a record copy at a page of a partition, when valid (R356). -/
def recordRead (s : State) (part id page : Nat) : Option Nat :=
  let a := pageAddr part page
  let n := peekVal s (a + 4) 2
  if peekVal s a 2 == 0x4857 && peekVal s (a + 2) 2 == id && n ≤ 240 && (badIn s a (16 + n)).isEmpty &&
      crc32c (peek s a 12 ++ peek s (a + 16) n) == peekVal s (a + 12) 4 then some (peekVal s (a + 8) 4) else none

/-- The bytes of a valid record copy. -/
def recordBytes (s : State) (part page : Nat) : List Byte :=
  peek s (pageAddr part page) (16 + peekVal s (pageAddr part page + 4) 2)

/-- Write a page of a record: the payload, then the header (R357). -/
def State.pageWrite (s : State) (part page : Nat) (bs : List Byte) : State :=
  s.wrPage [(pageAddr part page + 16, bs.drop 16), (pageAddr part page, bs.take 16)]

/-- What the record layer's read of both copies of a record, 64 words each, comes upon (R359). -/
def State.sensePair (s : State) (part page : Nat) : State := s.sense (pageAddr part page) 512

/-- DATA of the entries of the record layer (Table 18-4). -/
def recordData (part id : Nat) : List Byte := le 1 part ++ zeros 1 ++ le 2 id

/-- Reading a record whose copies lie in a page of a partition and the next (R357): twins and single copies are repaired, and a
record with no valid copy is lost. -/
def State.recordFix (s0 : State) (part id page : Nat) : State :=
  let s := s0.sensePair part page
  match recordRead s part id page, recordRead s part id (page + 1) with
  | some x, some y =>
    if x == y && recordBytes s part page != recordBytes s part (page + 1) then
      ((s.pageWrite part (page + 1) (recordBytes s part page)).onHw fun h => { h with twins := u32 (h.twins + 1) }).log 0x0902
        (recordData part id)
    else s
  | some _, none =>
    (s.pageWrite part (page + 1) (recordBytes s part page)).onHw fun h => { h with repairs := u32 (h.repairs + 1) }
  | none, some _ =>
    (s.pageWrite part page (recordBytes s part (page + 1))).onHw fun h => { h with repairs := u32 (h.repairs + 1) }
  | none, none => s.log 0x0903 (recordData part id)

/-- A page pair in which nothing was ever written. -/
def blankPair (s : State) (part page : Nat) : Bool := (rdBytes s.hw.mem (pageAddr part page) 512).all (· == 0)

/-- The payload that reading a record gives. -/
def recordPayload (s : State) (part id page : Nat) : Option (List Byte) :=
  (laterCopy (recordRead s part id page) (recordRead s part id (page + 1))).map fun c =>
    (recordBytes s part (if c.1 then page + 1 else page)).drop 16

/-- Read a record on purpose or before it is written (R357); one in which nothing was ever written is no lost one (assumption
100). -/
def State.fixRecord (s : State) (part : Nat) (e : Nat × Nat) : State :=
  if blankPair s part e.2 then s else s.recordFix part e.1 e.2

/-- The copy of a record that is current, with its sequence. -/
def recordLatest (s : State) (part : Nat) (e : Nat × Nat) : Option (Bool × Nat) :=
  laterCopy (recordRead s part e.1 e.2) (recordRead s part e.1 (e.2 + 1))

/-- Write the copy of a record that is not current, with a sequence, and read it back: a copy of which a word stays uncorrectable is
written once more, and then the write has failed (R357). -/
def State.recordPut (s : State) (part : Nat) (e : Nat × Nat) (flags seq : Nat) (payload : List Byte) : State × Bool :=
  let page := if (recordLatest s part e).any (fun c => !c.1) then e.2 + 1 else e.2
  let put := fun (x : State) => (x.pageWrite part page (recordCopy e.1 flags seq payload)).sense (pageAddr part page) 256
  let good := fun (x : State) => (badIn x (pageAddr part page) (16 + payload.length)).isEmpty
  let s1 := put s
  if good s1 then (s1, true)
  else
    let s2 := put s1
    if good s2 then (s2, true) else (s2.log 0x0904 (recordData part e.1), false)

/-- Sequence after the latest of some records; 1 for the first. -/
def seqAfter (s : State) (part : Nat) (l : List (Nat × Nat)) : Nat :=
  (l.foldl
    (fun (a : Option Nat) e =>
      match a, (recordLatest s part e).map (·.2) with
      | some x, some y => some (if seqLater y x then y else x)
      | a, b => a <|> b) none).elim 1 fun n => (n + 1) % 2 ^ 32

/-- Carry on a chain of stores, each of which may fail (R357): nothing is stored after a failure. -/
def andThen (r : State × Bool) (f : State → State × Bool) : State × Bool := if r.2 then f r.1 else r

/-- Write an item into records given by their ids and pages (R357, R358): all are read first, and every part takes the same next
sequence. Answers whether every write held. -/
def State.itemPut (s0 : State) (part : Nat) (l : List (Nat × Nat)) (bs : List Byte) : State × Bool :=
  let s := l.foldl (fun x e => x.fixRecord part e) s0
  let q := seqAfter s part l
  l.zipIdx.foldl
    (fun r (e : (Nat × Nat) × Nat) => andThen r fun x =>
      x.recordPut part e.1 (if l.length == 1 then 0 else e.2 + 256 * l.length) q ((bs.drop (240 * e.2)).take 240)) (s, true)

/-- A write whose failure no answer reports. -/
def State.itemWrite (s : State) (part : Nat) (l : List (Nat × Nat)) (bs : List Byte) : State := (s.itemPut part l bs).1

/-- Sequences that valid copies of a record hold. -/
def copySeqs (s : State) (part : Nat) (e : Nat × Nat) : List Nat :=
  [recordRead s part e.1 e.2, recordRead s part e.1 (e.2 + 1)].filterMap id

/-- The latest sequence present in valid copies of every part of an item (R358). -/
def itemSeq (s : State) (part : Nat) (l : List (Nat × Nat)) : Option Nat :=
  ((l.head?.map (copySeqs s part)).getD []).foldl
    (fun a q =>
      if !l.all (fun e => (copySeqs s part e).contains q) then a
      else match a with
        | some x => some (if seqLater q x then q else x)
        | none => some q) none

/-- The payload of a part at a sequence that one of its copies holds. -/
def partPayload (s : State) (part : Nat) (e : Nat × Nat) (q : Nat) : List Byte :=
  (recordBytes s part (if recordRead s part e.1 e.2 == some q then e.2 else e.2 + 1)).drop 16

/-- An item as its reader takes it: its sequence and bytes (R358). -/
def itemRead (s : State) (part : Nat) (l : List (Nat × Nat)) : Option (Nat × List Byte) :=
  (itemSeq s part l).map fun q => (q, l.flatMap fun e => partPayload s part e q)

/-- Read an item on purpose (R357, R358): its records are repaired, and valid parts without a common sequence lose it. -/
def State.fixItem (s0 : State) (part : Nat) (l : List (Nat × Nat)) : State :=
  let s := l.foldl (fun x e => x.fixRecord part e) s0
  if (itemSeq s part l).isNone && l.all (fun e => !(copySeqs s part e).isEmpty) then s.log 0x0903 (recordData part (l.headD (0, 0)).1)
  else s

/-! ### P0 (R342) -/

/-- Records of P0 besides the committed parameters, with their first pages (Table 15-2). The RECORD_IDs but those of the layout are
the model's (assumption 125). -/
def bootRec : Nat × Nat := (0x80, 2)
/-- The password record. -/
def pwRec : Nat × Nat := (0x81, 4)
/-- The owner public key. -/
def ownerRec : Nat × Nat := (0x82, 6)
/-- The wrapped key copy. -/
def keyRec : Nat × Nat := (0x83, 16)
/-- The device state. -/
def deviceRec : Nat × Nat := (0x84, 18)
/-- Both parts of the display layout (R447). -/
def layoutRecs : List (Nat × Nat) := [(0x20, 20), (0x21, 22)]
/-- Committed parameter record `r`. -/
def paramRec (r : Nat) : Nat × Nat := (r, 32 + 2 * r)
/-- The commit marker. -/
def markerRec : Nat × Nat := (46, 124)

/-- An item of a parameter record (R342). -/
def paramItem (id size v : Nat) : List Byte := le 2 id ++ le 1 size ++ zeros 1 ++ pad4 (le size v)

/-- Items in the format of R342; none when one is cut short. -/
def itemList : Nat → List Byte → Option (List (Nat × Nat))
  | _, [] => some []
  | 0, _ :: _ => none
  | fuel + 1, b :: r =>
    let l := b :: r
    let n := (byteAt l 2).toNat
    let w := 4 + (n + 3) / 4 * 4
    if l.length < w || n == 0 then none
    else (itemList fuel (l.drop w)).map (fun m => (fieldAt l 0 2, fieldAt l 4 n) :: m)

/-- A member whose committed value stands in a parameter record of P0: RW and RW-S members outside the boot configuration (R328,
R342). -/
def inP0 (id : Nat) : Bool :=
  match memberOf id with
  | some d => pFam id != 17 && id != 0x3801 && id != 0x380D && (match d.rst with | .p0 _ => false | _ => true)
  | none => false

/-- The item of a committed value. -/
def itemOf (e : Nat × Nat) : List Byte := paramItem e.1 (((memberOf e.1).map (·.ty.size)).getD 4) e.2

/-- Committed parameter records of P0: the values in ascending ID order, as many to a record as its payload holds after
COMMIT_SEQ (R342). -/
def p0Records (committed : List (Nat × Nat)) : List (List (Nat × Nat)) :=
  ((committed.filter fun e => inP0 e.1).foldl
    (fun (a : List (List (Nat × Nat)) × Nat) e =>
      let n := (itemOf e).length
      match a.1 with
      | [] => ([[e]], n)
      | r :: t => if 236 < a.2 + n then ([e] :: a.1, n) else ((e :: r) :: t, a.2 + n)) ([], 0)).1.reverse.map List.reverse

/-- Put a record that carries COMMIT_SEQ (R330) where what it holds changes; a record never written holds `none0`. -/
def State.putChanged (s : State) (part : Nat) (e : Nat × Nat) (none0 bs : List Byte) : State × Bool :=
  if ((recordPayload s part e.1 e.2).map (·.drop 4)).getD none0 == bs then (s, true)
  else s.itemPut part [e] (le 4 s.pr.commitSeq ++ bs)

/-- Store the committed RW-P members of CHAN_CAL in records 0 to 7 of P2, in ascending ID order (R328, R343). -/
def State.storeP2 (s : State) : State × Bool :=
  let items := (s.pr.committed.filter (fun e => pFam e.1 == 17)).map (fun e => paramItem e.1 4 e.2)
  (List.range 8).foldl
    (fun a r => andThen a fun x => x.putChanged 2 (r, 2 * r) [] ((items.drop (29 * r)).take 29).flatten) (s, true)

/-- Members of the boot configuration in the order of Table 15-2, with their sizes: NET_MODE, NODE, MAC_ADDR, HOST_BAUD and
SERVO_MODE. -/
def bootMembers : List (Nat × Nat) := [(0x5800, 1), (0x5801, 2), (0x5802, 8), (0x0810, 4), (0x3801, 1)]

/-- A baseline ratio as a record holds it: whether there is one, and its value. -/
def baseBytes (b : Option Nat) : List Byte := le 1 (flagAt b.isSome 0) ++ le 4 (b.getD 0)

/-- The boot configuration of given values, after COMMIT_SEQ. -/
def bootBytes (v : Nat → Nat) (base : Option Nat) : List Byte := bootMembers.flatMap (fun e => le e.2 (v e.1)) ++ baseBytes base

/-- Store the boot configuration: committed values, the MAC address in force, and the baseline with REFIN (Table 15-2; assumption
125). -/
def State.storeBoot (s : State) : State × Bool :=
  s.putChanged 0 bootRec (bootBytes (parReset s) none) (bootBytes (fun i => if i == 0x5802 then par s i else parCommitted s i) s.ref.stored)

/-- Store a commit in P0 (R328, R330, R342): first the records that the commit changes, each with its COMMIT_SEQ, and the commit
marker last. -/
def State.storeP0 (s : State) : State × Bool :=
  let l := p0Records s.pr.committed
  let r := (List.range 46).foldl
    (fun a r => andThen a fun x => x.putChanged 0 (paramRec r) [] ((l.getD r []).flatMap itemOf)) (s, true)
  andThen (andThen r State.storeBoot) fun x =>
    if recordPayload x 0 markerRec.1 markerRec.2 == some (le 4 s.pr.commitSeq) then (x, true)
    else x.itemPut 0 [markerRec] (le 4 s.pr.commitSeq)

/-- Store the committed set: RW-P members in P2, RW and RW-S members in P0 (R328 step 4). -/
def State.storeSet (s : State) : State × Bool := andThen s.storeP2 State.storeP0

/-- What the device state record holds (Table 15-2). -/
def deviceBytes (s : State) : List Byte :=
  baseBytes s.ref.stored ++ (List.range 4).flatMap (fun k => le 2 (s.stand k).condemned) ++ le 4 (ofSigned 32 s.te.lastLocked) ++
    le 2 s.pm.cfgCnt ++ le 2 (ofSigned 16 s.rtc.trimStored)

/-- Store the device state (R70, R96, R244, R255, R376). -/
def State.storeDevice (s : State) : State := s.itemWrite 0 [deviceRec] (deviceBytes s)

/-- What the password record holds: the states, then what it keeps of each SHA-256 (R348; assumption 21). -/
def pwBytes (l : List Pw) : List Byte := l.flatMap (fun w => le 1 w.st) ++ l.flatMap (fun w => fitBytes 29 w.digest)

/-- Store the password record. -/
def State.storePw (s : State) : State × Bool := s.itemPut 0 [pwRec] (pwBytes s.se.pws)

/-- What the wrapped key copy holds: the model names an identity key by its serial number, which stands before the cipher's bytes
(R400; assumption 125). -/
def wrappedBytes (k : Nat) : List Byte := le 8 k ++ (List.range 60).map (Config.cryptoByte 8 (le 8 k))

/-- Store a display layout: one item of two parts (R447, R358). -/
def State.storeLayout (s : State) (bs : List Byte) : State × Bool := s.itemPut 0 layoutRecs bs

/-- The display layout that the formatter reads (R358, R447). -/
def layoutRead (s : State) : Option (Nat × List Byte) := (itemRead s 0 layoutRecs).filter fun e => e.2.length == 480

/-! ### What P0 and P2 give at power-up (R330, R357, R358) -/

/-- COMMIT_SEQ of the latest complete commit marker; 0 before the first. -/
def markSeq (s : State) : Nat := ((recordPayload s 0 markerRec.1 markerRec.2).map (fieldAt · 0 4)).getD 0

/-- COMMIT_SEQ of a valid copy. -/
def copyCommit (s : State) (part id page : Nat) : Option Nat :=
  (recordRead s part id page).map fun _ => fieldAt (recordBytes s part page) 16 4

/-- The copy that is in force (R330): of the valid ones with COMMIT_SEQ at or below the marker's, the one with the highest, and of
two alike the later. -/
def inForce (s : State) (part mark : Nat) (e : Nat × Nat) : Option Bool :=
  match (copyCommit s part e.1 e.2).filter (· ≤ mark), (copyCommit s part e.1 (e.2 + 1)).filter (· ≤ mark) with
  | some a, some b => some (if a == b then (recordLatest s part e).any (·.1) else decide (a < b))
  | some _, none => some false
  | none, some _ => some true
  | none, none => none

/-- What follows COMMIT_SEQ in the copy in force. -/
def forceBytes (s : State) (part mark : Nat) (e : Nat × Nat) : Option (List Byte) :=
  (inForce s part mark e).map fun b => (recordBytes s part (if b then e.2 + 1 else e.2)).drop 20

/-- Read a record that carries COMMIT_SEQ: its copies are repaired, and one that a commit cut short has left gives way to the copy in
force, so that the next write does not take that one's place (assumption 125). -/
def State.takeRecord (s0 : State) (part mark : Nat) (e : Nat × Nat) : State :=
  let s := s0.fixRecord part e
  match inForce s part mark e with
  | some b =>
    if (copyCommit s part e.1 (if b then e.2 else e.2 + 1)).any (mark < ·) then
      s.pageWrite part (if b then e.2 else e.2 + 1) (recordBytes s part (if b then e.2 + 1 else e.2))
    else s
  | none => s

/-- Committed values that the boot configuration holds. -/
def bootValues (s : State) (mark : Nat) : List (Nat × Nat) :=
  match forceBytes s 0 mark bootRec with
  | some bs =>
    (bootMembers.foldl (fun (a : List (Nat × Nat) × Nat) e => (assocSet a.1 e.1 (fieldAt bs a.2 e.2), a.2 + e.2)) ([], 0)).1
  | none => []

/-- Committed values that a parameter record holds. -/
def recordValues (s : State) (part mark : Nat) (e : Nat × Nat) : List (Nat × Nat) :=
  ((forceBytes s part mark e).bind (itemList 60)).getD []

/-- Page pairs that hold sets in P2 (R343). -/
def setRec (pair : Nat) : Nat × Nat := (8 + pair, 16 + 2 * pair)

/-- The records of a set that begins in a page pair, by the PARTS of its first record. -/
def setRecs (s : State) (pair : Nat) : List (Nat × Nat) :=
  let n := match recordLatest s 2 (setRec pair) with
    | some (b, _) => peekVal s (pageAddr 2 ((setRec pair).2 + if b then 1 else 0) + 7) 1
    | none => 1
  (List.range (Nat.max 1 n)).map fun k => setRec (pair + k)

/-- The Warden reads the sets that P2 holds, pair after pair; a freed pair holds an empty item (R343, R357, R358). -/
def State.readSets (s0 : State) : State :=
  let r := (List.range 56).foldl
    (fun (a : State × Nat × List (Nat × List Byte)) pair =>
      let (s, skip, l) := a
      if skip != 0 then (s, skip - 1, l)
      else if blankPair s 2 (setRec pair).2 then a
      else
        let s1 := s.fixRecord 2 (setRec pair)
        let recs := setRecs s1 pair
        let s2 := if recs.length == 1 then s1 else s1.fixItem 2 recs
        match itemRead s2 2 recs with
        | some (_, bs) => (s2, recs.length - 1, if bs.length < 12 then l else l ++ [(fieldAt bs 0 4, bs.drop 4)])
        | none => (s2, 0, l)) (s0, 0, [])
  r.1.onHw fun h => { h with p2Sets := (r.2.2.filter fun e => e.1 < 36).mergeSort fun x y => x.1 ≤ y.1 }

/-- A record's payload when it is written and holds at least some bytes. -/
def payloadOf (s : State) (e : Nat × Nat) (n : Nat) : Option (List Byte) :=
  (recordPayload s 0 e.1 e.2).filter fun bs => n ≤ bs.length

/-- The password record as it stands; one that is lost opens no write session and any read session (assumption 125). -/
def pwsRead (s : State) : List Pw :=
  match payloadOf s pwRec 240 with
  | some bs => (List.range 8).map fun k => ⟨fieldAt bs k 1, (bs.drop (8 + 29 * k)).take 29⟩
  | none => if blankPair s 0 pwRec.2 then s.se.pws else s.se.pws.map fun _ => ⟨2, []⟩

/-- The device state is loaded (Table 15-2). -/
def State.takeDevice (s : State) : State :=
  match payloadOf s deviceRec 21 with
  | none => s
  | some bs =>
    let s1 := { s with stands := s.stands.mapIdx fun k (d : Stand) => { d with condemned := fieldAt bs (5 + 2 * k) 2 } }
    (((s1.onRef fun r => { r with stored := if fieldAt bs 0 1 == 1 then some (fieldAt bs 1 4) else none }).onTe fun t =>
      { t with lastLocked := toSigned 32 (fieldAt bs 13 4) }).onPm fun p => { p with cfgCnt := fieldAt bs 17 2 }).onRtc fun r =>
        { r with trimStored := toSigned 16 (fieldAt bs 19 2) }

/-- At power-up the Warden reads P0 and P2 (R330, R357, R358): the committed values of the latest complete commit, the sets, the
passwords, the keys and the device state. -/
def State.readP0 (s0 : State) : State :=
  let s1 := s0.fixRecord 0 markerRec
  let m := markSeq s1
  let s2 := ((List.range 46).map paramRec ++ [bootRec]).foldl (fun x e => x.takeRecord 0 m e) s1
  let s3 := (List.range 8).foldl (fun x r => x.takeRecord 2 m (r, 2 * r)) s2
  let s4 := ([pwRec, ownerRec, keyRec, deviceRec].foldl (fun x e => x.fixRecord 0 e) s3).fixItem 0 layoutRecs
  let utc := (pioSelect s4).elim [] fun _ => [(0x380D, ofSigned 16 (pioUtc s4))]
  let s5 := (s4.readSets).onPr fun p =>
    { p with commitSeq := m,
             committed := assocAll (assocAll p.committed (bootValues s4 m ++ utc))
               ((List.range 46).flatMap (fun r => recordValues s4 0 m (paramRec r)) ++
                (List.range 8).flatMap (fun r => recordValues s4 2 m (r, 2 * r))) }
  ((s5.onSe fun e => { e with pws := pwsRead s5 }).onTp fun t =>
    { t with owner := (payloadOf s5 ownerRec 64).map (·.take 64), wrapped := (payloadOf s5 keyRec 8).map (fieldAt · 0 8) }).takeDevice

/-! ### Sets in P2 (R343) -/

/-- Page pairs that a set of a number of taps occupies (R343). -/
def setPairs (taps : Nat) : Nat := (52 + 4 * taps + 239) / 240

/-- Page pairs in use by sets. -/
def pairsUsed (sets : List (Nat × List Byte)) : Nat := sets.foldl (fun a e => a + setPairs (byteAt e.2 0).toNat) 0

/-- Write the parts of one item (R358) into page pairs of P2 from a pair on, where they do not hold it already. -/
def State.writeParts (s : State) (pair parts : Nat) (bs : List Byte) : State × Bool :=
  let l := (List.range parts).map fun k => setRec (pair + k)
  if (itemRead s 2 l).any (fun e => e.2 == bs) then (s, true) else s.itemPut 2 l bs

/-- Lay all kept sets out in the page pairs, by channel, and free the pairs behind them (R343; the placement is the model's,
assumption 15). -/
def State.layoutSets (s : State) : State × Bool :=
  let r := s.hw.p2Sets.foldl
    (fun (a : (State × Bool) × Nat) e =>
      let n := setPairs (byteAt e.2 0).toNat
      (andThen a.1 fun x => x.writeParts a.2 n (le 4 e.1 ++ e.2), a.2 + n)) ((s, true), 0)
  ((List.range 56).drop r.2).foldl
    (fun a k => andThen a fun x =>
      if blankPair x 2 (setRec k).2 || recordPayload x 2 (setRec k).1 (setRec k).2 == some [] then (x, true)
      else x.itemPut 2 [setRec k] []) r.1

/-- Sets after one of a channel is kept; a set without taps and biquads frees its pairs (R343). -/
def setsWith (sets : List (Nat × List Byte)) (chan : Nat) (bs : List Byte) : List (Nat × List Byte) :=
  let l := sets.filter (fun e => e.1 != chan)
  if (byteAt bs 0).toNat == 0 && setBiquads bs == 0 then l
  else l.takeWhile (fun e => e.1 < chan) ++ [(chan, bs)] ++ l.dropWhile (fun e => e.1 < chan)

/-- A password value that PROVISION and PASSWORD_SET refuse (R350, R407). -/
def badPassword (v : Nat) : Bool := v == 0 || v == 2 ^ 64 - 1

/-! ### The log ring of P3 (R414) -/

/-- Address of log entry `n` (0 to 4,095). -/
def logAddr (n : Nat) : Nat := pageAddr 3 (n / 8) + 32 * (n % 8)

/-- Entry of the ring that a SEQ takes; SEQ 1 takes entry 0. -/
def logIndex (seq : Nat) : Nat := (seq + 4095) % 4096

/-- SEQ after another (R414). -/
def nextSeq (n : Nat) : Nat := if n % 2 ^ 32 == 2 ^ 32 - 1 then 1 else n + 1

/-- The 32 bytes of a log entry (Table 18-3). -/
def logBytes (seq : Nat) (e : LogEntry) (delayed : Bool) : List Byte :=
  let b := le 4 seq ++ le 10 e.time ++ le 2 e.code ++ fitBytes 14 e.data ++ le 1 (e.flags + flagAt delayed 4)
  b ++ le 1 (crc8 b)

/-- An entry of the ring, when its CHECK is correct. -/
def logRead (s : State) (n : Nat) : Option (List Byte) :=
  if peekVal s (logAddr n) 4 == 0 then none
  else
    let b := peek s (logAddr n) 32
    if crc8 (b.take 31) == fieldAt b 31 1 then some b else none

/-- Highest SEQ held in a valid entry; 0 when none is (R414). -/
def logHighest (s : State) : Nat := (List.range 4096).foldl (fun a n => Nat.max a (((logRead s n).map (fieldAt · 0 4)).getD 0)) 0

/-- The last write before a VCORE trip may be cut short (R339, R354; assumption 124): of its accesses a free number has been
carried out, and the words after them read old. -/
def State.cutFlight (s : State) : State :=
  let n := s.hw.flight.length
  if s.hw.flightClk + 25000 + 5 * n < s.clk then s
  else
    (s.onHw fun h =>
      { h with mem := (h.flight.drop (Config.freeNat s.free % (n + 1))).reverse.foldl (fun m e => wrBytes m e.1 e.2) h.mem,
               flight := [] }).drew 1

/-- Every write so far is complete: an answer that follows it leaves the device. -/
def State.landed (s : State) : State := s.onHw fun h => { h with flight := [] }

end Sys2Proof.Machine
end

