-- ==== Sys2Proof/Machine/PqBase.lean ====
section
/-! DEFINITION. The data map, the reference of a bus, and the aggregation of power-quality values (R13, R14, R204 to R209,
R215). -/

namespace Sys2Proof.Machine

/-! ### The data map (R13, R14) -/

/-- An element is enabled. -/
def elemOn (s : State) (e : Nat) : Bool := e < 28 && par s (pid 20 e 0) == 1

/-- Current and voltage channel of an element. -/
def curChan (s : State) (e : Nat) : Nat := par s (pid 20 e 1)
def voltChan (s : State) (e : Nat) : Nat := par s (pid 20 e 2)

/-- The elements that a circuit lists, in order. -/
def circElems (s : State) (c : Nat) : List Nat :=
  ((List.range 3).map (fun k => par s (pid 21 c k))).filter (fun e => e != 0xFF)

/-- Circuit listing an element (ELEM member CIRCUIT); 0xFF none. -/
def circOfElem (s : State) (e : Nat) : Nat := ((List.range 28).find? (fun c => (circElems s c).contains e)).getD 0xFF

/-- NEUTRAL channel of a circuit and its sign. -/
def neutral (s : State) (c : Nat) : Option (Nat × Rat) :=
  let v := par s (pid 21 c 3)
  if bitAt v 7 then none else some (bitsAt v 0 6, if bitAt v 6 then -1 else 1)

/-- Bus of a voltage channel: 0 A, 1 B. -/
def busOf (ch : Nat) : Nat := if ch < 4 then 0 else 1

/-- Bus of a circuit, by its first element. -/
def circBus (s : State) (c : Nat) : Nat := busOf (voltChan s ((circElems s c).headD 0))

/-- Bus of a channel's windows (R206): its own for a voltage input; for a current input that of an enabled element on it,
else of the circuit that names it as NEUTRAL, else A. -/
def chanBus (s : State) (ch : Nat) : Nat :=
  if ch < 8 then busOf ch
  else
    match (List.range 28).find? (fun e => elemOn s e && curChan s e == ch) with
    | some e => busOf (voltChan s e)
    | none =>
      match (List.range 28).find? (fun c => (neutral s c).any (fun n => n.1 == ch)) with
      | some c => circBus s c
      | none => 0

/-- Udin of a bus (R209). -/
def udin (s : State) (b : Nat) : Rat :=
  let u := par s (0x2801 + 16 * b)
  if u % 2 ^ 31 == 0 then parF s (pid 2 0 1) else ratOfF32 u

/-- A stored power-quality result. -/
def pqResult (s : State) (kind level ch : Nat) : Option PqRes :=
  s.pq.results.find? (fun r => r.kind == kind && r.level == level && r.chan == ch)

/-- RMS_WIN of a channel. -/
def rmsWin (s : State) (ch : Nat) : Nat := (((pqResult s 0 0 ch).map (·.vals)).getD []).headD 0

/-- The reference phase of a bus: the first of L1, L2, L3 at or above 20 % of Udin (R178). -/
def refPhase (s : State) (b : Nat) : Option Nat :=
  [4 * b, 4 * b + 1, 4 * b + 2].find? (fun ch => decide (udin s b / 5 ≤ ratOfF32 (rmsWin s ch)))

/-- Whether a channel carries voltage: channels 0 to 7. -/
def isVolt (ch : Nat) : Bool := ch < 8

/-! ### Roots -/

/-- Square root of a non-negative exact value to 2^-60 of its unit, rounded down (assumption 6). -/
def ratSqrt (q : Rat) : Rat := if q ≤ 0 then 0 else (((q * ((2 ^ 120 : Nat) : Rat)).floor.toNat.sqrt : Nat) : Rat) / ((2 ^ 60 : Nat) : Rat)

/-- √3 (assumption 6). -/
def sqrt3 : Rat := ratSqrt 3

/-- Integer cube root, bit by bit from bit `k - 1` down. -/
def cbrtGo : Nat → Nat → Nat → Nat
  | 0, _, r => r
  | k + 1, n, r => let t := r + 2 ^ k; cbrtGo k n (if t * t * t ≤ n then t else r)

/-- Binary32 of the cube root of a non-negative exact value (assumption 6). -/
def f32Cbrt (q : Rat) : Nat :=
  f32OfRat ((cbrtGo 96 (q * ((2 ^ 120 : Nat) : Rat)).floor.toNat 0 : Rat) / ((2 ^ 40 : Nat) : Rat))

/-! ### Aggregation (R205, R208, R215) -/

/-- OR of two status words. -/
def orStatus (a b : Nat) : Nat := a.lor b

/-- One more value in a sum of squares. -/
def PqAcc.add (a : PqAcc) (sq : List Rat) (status : Nat) : PqAcc :=
  let x := sq.headD 0
  { a with n := a.n + 1, sq := if a.n == 0 then sq else (a.sq.zip sq).map (fun e => e.1 + e.2),
           lo := if a.n == 0 || x < a.lo then x else a.lo, hi := if a.n == 0 || a.hi < x then x else a.hi,
           status := orStatus a.status status }

/-- Feed an aggregation, starting it when it is not there. -/
def accFeed (l : List PqAcc) (kind level ch : Nat) (sq : List Rat) (status : Nat) : List PqAcc :=
  if l.any (fun a => a.kind == kind && a.level == level && a.chan == ch) then
    l.map (fun a => if a.kind == kind && a.level == level && a.chan == ch then a.add sq status else a)
  else l ++ [PqAcc.add ⟨kind, level, ch, 0, [], 0, 0, 0⟩ sq status]

/-- Replace a result. -/
def putResult (l : List PqRes) (r : PqRes) : List PqRes :=
  l.filter (fun x => !(x.kind == r.kind && x.level == r.level && x.chan == r.chan)) ++ [r]

/-- Mean of the squares. -/
def PqAcc.means (a : PqAcc) : List Rat := a.sq.map (· / (a.n : Rat))

/-- Under- and over-deviation of L1 to L3 in % from the means of the limited squares (R215). -/
def deviations (u : Rat) (m : List Rat) : List Rat :=
  m.mapIdx fun i q =>
    let d := if i < 3 then u - ratSqrt q else ratSqrt q - u
    if u ≤ 0 || d ≤ 0 then 0 else d / u * 100

/-- Values of a KIND 4 result: u0 and u2, the deviations, and at level 1 the mains signalling values (Table 9-9). Frequency,
Pst and Plt are laid over them when they are read. -/
def busVals (u : Rat) (k4 k5 : List Rat) : List Nat :=
  [0, f32Sqrt (k4.getD 0 0), f32Sqrt (k4.getD 1 0), 0, 0, 0, 0, 0, 0] ++ (deviations u k5).map f32OfRat ++
    (k4.drop 2).map f32Sqrt

/-! ### Places in the stream (R203) -/

/-- Number and instant of the newest sample of the stream. -/
def waveN (s : State) : Nat := (s.wave.head?.map (·.n)).getD 0
def waveT (s : State) : Nat := (s.wave.head?.map (·.t)).getD 0

/-- Place of an instant in the stream, and instant of a place. -/
def placeOf (s : State) (t : Nat) : Rat := (waveN s : Rat) - ((waveT s : Rat) - (t : Rat)) / (pTick : Rat)
def instantOf (s : State) (x : Rat) : Nat := ((waveT s : Rat) - ((waveN s : Rat) - x) * (pTick : Rat)).floor.toNat

/-- Number of the interval of `n` seconds of UTC that an instant lies in (R204). -/
def utcIdx (s : State) (t n : Nat) : Int := (((t / tickSec : Nat) : Int) - utcOffset s) / (n : Int)

/-- The boundary at which an interval of `n` seconds of UTC begins (R204). -/
def boundary (s : State) (idx : Int) (n : Nat) : Nat := ((idx * (n : Int) + utcOffset s) * (tickSec : Int)).toNat

/-- The time base of the clock-aligned intervals is that of the counter now. -/
def State.pqSync (s : State) : State :=
  s.onPq fun q =>
    { q with idx10m := utcIdx s s.now 600, idx2h := utcIdx s s.now 7200, idx3s := utcIdx s s.now 3,
             buses := q.buses.map fun b => { b with idx10 := utcIdx s s.now 10, pstIdx := utcIdx s s.now 600 } }

/-- Frequency from the whole cycles between two places: crossings less one, over the time from the first to the last (R206,
R208). -/
def hzBetween (crosses : List Rat) (a b : Rat) : Option Rat :=
  let l := crosses.filter fun x => decide (a ≤ x) && decide (x ≤ b)
  match l.head?, l.getLast? with
  | some z, some y => if y < z then some (25000 * ((l.length - 1 : Nat) : Rat) / (z - y)) else none
  | _, _ => none

/-! ### Closing intervals (R204 to R208) -/

/-- The result of an aggregation; KIND 4 takes its deviations from the bus's kind 5. A 3 s aggregate of fewer than 15 intervals
began after its boundary (R53, R217). -/
def accResult (s : State) (accs : List PqAcc) (endT extra : Nat) (a : PqAcc) : PqRes :=
  let dev := ((accs.find? (fun x => x.kind == 5 && x.level == a.level && x.chan == a.chan)).map PqAcc.means).getD []
  ⟨a.kind, a.level, a.chan, orStatus (orStatus a.status extra) (flagAt (a.kind == 3 && a.level == 1 && a.n < 15) 1), endT,
   if a.kind == 4 then busVals (udin s a.chan) a.means dev else a.means.map f32Sqrt, (waveN s : Rat)⟩

/-- Level 2 sums fed to level 3 (R208). -/
def feedTwoHours (accs mine : List PqAcc) (extra : Nat) : List PqAcc :=
  (mine.filter (·.kind != 5)).foldl
    (fun l a => accFeed l a.kind 3 a.chan (if a.kind == 4 then a.means.take 2 else a.means) (orStatus a.status extra)) accs

/-- Close the aggregations of a level that a predicate selects; those of level 2 are fed to level 3 (R208). -/
def State.closeAccs (s : State) (level endT extra : Nat) (sel : PqAcc → Bool) : State :=
  s.onPq fun q =>
    let mine := q.accs.filter (fun a => a.level == level && sel a)
    let rest := q.accs.filter (fun a => !(a.level == level && sel a))
    { q with
      results := (mine.filter (·.kind != 5)).foldl (fun l a => putResult l (accResult s mine endT extra a)) q.results,
      accs := if level == 2 then feedTwoHours rest mine extra else rest }

/-- Close the supraharmonic aggregates of a level; with changed members those of the level above start fresh (R217, R227). -/
def State.closeSupra (s : State) (e : Nat × Nat × Nat × Bool) : State :=
  let s1 := s.closeAccs e.1 e.2.1 e.2.2.1 (fun a => a.kind == 3)
  if e.2.2.2 then s1.onPq fun q => { q with accs := q.accs.filter (fun a => !(a.kind == 3 && a.level == 3)) } else s1

/-- A supraharmonic interval ends: at once, or with the 200 ms interval that ends at its boundary (R217). -/
def State.supraClose (s : State) (e : Nat × Nat × Nat × Bool) : State :=
  if e.2.1 ≤ s.pq.blockT then s.closeSupra e else s.onPq fun q => { q with supraDue := q.supraDue ++ [e] }

/-- The closings that waited for the latest 200 ms interval. -/
def State.supraFlush (s : State) : State :=
  (s.pq.supraDue.filter (fun e => e.2.1 ≤ s.pq.blockT)).foldl State.closeSupra
    (s.onPq fun q => { q with supraDue := q.supraDue.filter (fun e => !(e.2.1 ≤ q.blockT)) })

/-- Aggregations that follow a bus's windows. -/
def accOfBus (s : State) (b : Nat) (a : PqAcc) : Bool :=
  a.kind != 3 && (if 4 ≤ a.kind then a.chan == b else chanBus s a.chan == b)

/-- One bus, and its update. -/
def pqBus (s : State) (b : Nat) : PqBus := s.pq.buses.getD b PqBus.reset
def State.onBus (s : State) (b : Nat) (f : PqBus → PqBus) : State := s.onPq fun q => { q with buses := modAt q.buses b f }

/-- Plt of a phase from its latest Pst values (R208, R218). -/
def pltOf (h : List (Nat × Nat)) : Nat × Nat :=
  let q := h.foldl (fun a e => a + ratOfF32 e.1 * ratOfF32 e.1 * ratOfF32 e.1) 0
  (f32Cbrt (if h.isEmpty then 0 else q / (h.length : Rat)), h.foldl (fun a e => orStatus a e.2) (if h.length < 12 then 2 else 0))

/-- New Pst values of a bus's phases, and the Plt values that follow (R208). -/
def PqBus.pushPst (b : PqBus) (endT : Nat) (v : List (Nat × Nat)) : PqBus :=
  let h := (b.pstHist.zip v).map (fun e => (e.2 :: e.1).take 12)
  { b with pst := v, pstEnd := some endT, pstHist := h, plt := h.map pltOf }

/-- The next Pst interval begins at a place and a model clock; `fresh` says that this is no boundary (R207, R208). -/
def PqBus.beginPst (b : PqBus) (place : Rat) (clk : Nat) (fresh : Bool) : PqBus :=
  { b with pstOr := [0, 0, 0], pstPlace := place, pstClk := clk, pstFresh := fresh, flick := b.flick.map Config.flickerClear }

/-- A one-cycle interval with an open dip, swell or interruption: spans that meet become one (R213). -/
def PqBus.touch (b : PqBus) (a e : Rat) : PqBus :=
  match b.spans with
  | x :: r => if a ≤ x.2 then { b with spans := (x.1, e) :: r } else { b with spans := ((a, e) :: b.spans).take 1000 }
  | [] => { b with spans := [(a, e)] }

/-- FLAGGED for a part of the stream: such an interval overlaps it (R213). -/
def PqBus.flagged (b : PqBus) (a e : Rat) : Nat := flagAt (b.spans.any fun x => decide (x.1 < e) && decide (a < x.2)) 0

/-- Status bit 8 at the end of an interval. -/
def unlockedBit (s : State) : Nat := flagAt (s.te.servo != .locked) 8

/-- Pst values of a bus over the interval that ends at a place, from the classifiers of its flickermeters; `extra` are further
status bits. An interval that the flickermeter has not filled or that began less than 60 s after its start is incomplete, and Pst
is never resumed (R53, R218, Table 2-7). -/
def pstNow (s : State) (b extra : Nat) (place : Rat) : List (Nat × Nat) :=
  let r := pqBus s b
  let young := decide (r.pstClk < s.pq.startClk + 60 * 128000000) || r.pstFresh
  let st := orStatus (orStatus extra (r.flagged r.pstPlace place)) (flagAt young 1 + unlockedBit s)
  (List.range 3).map fun p => (f32OfRat (Config.flickerPst (r.flick.getD p [])), orStatus (r.pstOr.getD p 0) st)

/-- The Pst interval of a bus ends at a place and an instant: its Pst and Plt values are formed where Canopy aggregates, and the
next interval begins (R207, R208). -/
def State.closePst (s : State) (b extra : Nat) (place : Rat) (endT : Nat) (fresh : Bool) : State :=
  s.onBus b fun r =>
    (if s.pq.agg then r.pushPst endT (pstNow s b extra place) else r).beginPst place s.clk fresh

/-- A 10 s interval of a bus ends at a place and an instant (R208, R213); without two crossings the value is free. -/
def State.closeTen (s : State) (b : Nat) (place : Rat) (endT extra : Nat) : State :=
  s.onBus b fun r =>
    let f := (hzBetween r.crosses r.start10 place).getD ((Config.freeInt (s.free + b) : Int) : Rat)
    let st := orStatus (orStatus r.mark10s (orStatus extra (unlockedBit s))) (orStatus (flagAt r.fresh10s 1) (r.flagged r.start10 place))
    let r1 := { r with freq := f32OfRat f, freqEnd := some endT, freqStatus := st, mark10s := 0, fresh10s := false, start10 := place }
    match r1.edge with
    | some e =>
      if endT ≤ e.endT then { r1 with edge := some { e with freqSum := e.freqSum + f, freqN := e.freqN + 1, freqOr := orStatus e.freqOr st } }
      else if s.pq.agg then { r1 with freqSum := r.freqSum + f, freqN := r.freqN + 1, freqOr := orStatus r.freqOr st } else r1
    | none =>
      if s.pq.agg then { r1 with freqSum := r.freqSum + f, freqN := r.freqN + 1, freqOr := orStatus r.freqOr st } else r1

/-- An accepted time step ends the clock-aligned intervals in progress (R207); a 10-minute interval that waits for its
straddling window still gets it, and the 2-hour interval ends with it. -/
def State.pqStep (s : State) : State :=
  if !s.pq.running then s
  else
    let mark := fun (w : PqWin) => { w with mark := orStatus w.mark 64 }
    let s0 := (List.range 2).foldl
      (fun x b => (x.closeTen b (waveN s : Rat) s.now 64).onBus b fun r =>
        { r with win := r.win.map mark, old := r.old.map mark, mark200 := orStatus r.mark200 64, fresh10s := true }) s
    if !s.pq.agg then s0
    else
      let un := unlockedBit s
      let sel := fun (a : PqAcc) => (List.range 2).any (fun b => (pqBus s b).edge.isNone && accOfBus s b a)
      let s1 := (s0.closeAccs 2 s.now (orStatus s.pq.mark10m (64 + un)) sel).closeAccs 3 s.now (orStatus s.pq.mark2h (64 + un)) sel
      let s2 := ((s1.closeSupra (1, s.now, 64 + un, false)).closeSupra (2, s.now, orStatus s.pq.mark10m (64 + un), false)).closeSupra
        (3, s.now, orStatus s.pq.mark2h (64 + un), false)
      let s3 := (List.range 2).foldl
        (fun x b => (x.closePst b 64 (waveN s : Rat) s.now true).onBus b fun r =>
          { r with
            freqSum := 0, freqN := 0, freqOr := 0, events := 0,
            edge := r.edge.map fun e =>
              { e with two := some (e.two.getD (orStatus s.pq.mark2h (64 + un))) } }) s2
      (s3.onPq fun q => { q with mark10m := 2, mark2h := 2, tenClk := s.clk, supraDue := [], oldPars := none }).drew 2

/-! ### Reporting instants of the phasor engine (R231, R239) -/

/-- Reports per second in force. -/
def pmuRate (s : State) : Nat := Nat.max 1 (par s (pid 6 0 1))

/-- Reporting instants between two instants, neither counted. -/
def gridCount (fs a b : Nat) : Nat := (b - 1) * fs / tickSec - a * fs / tickSec

/-- Reporting instants up to an instant that the stream has not yielded, while output was on, count as skipped, and the count goes
on from another (R238, R239). -/
def State.pmuMissed (s : State) (upTo from_ : Nat) : State :=
  s.onPm fun p =>
    { p with skipped := u32 (p.skipped + (p.gapFrom.map fun g => gridCount (pmuRate s) g (upTo + 1)).getD 0),
             gapFrom := p.gapFrom.map fun _ => from_ }

end Sys2Proof.Machine
end

