-- ==== Sys2Proof/Machine/ServoOps.lean ====
section
/-! DEFINITION. Operations of the clocks that a commit needs too: the states of the servo (R257, R258), stage 3 or 4 by them
(Table 2-1), LEAP (R251), and the alarms' fields (Table 16-7). -/

namespace Sys2Proof.Machine

/-- A value rounded to an integer where the manual does not say which way: the floor plus a free bit, the value itself when
it is an integer (assumption 16). `k` numbers the free values of one effect. -/
def quant (s : State) (k : Nat) (q : Rat) : Int :=
  if q.den == 1 then q.num else q.floor + ((Config.freeNat (s.free + k) % 2 : Nat) : Int)

/-- An offset in whole ns, saturating (OFFSET_NS). -/
def nsOfTicks (s : State) (k : Nat) (t : Int) : Int := satS32 (quant s k ((t : Rat) / 65536))

/-- Largest of a list. -/
def maxOf (l : List Nat) : Nat := l.foldl Nat.max 0

/-- The time-error estimate in ns; none while it is unknown (Table 11-2). -/
def teNs (s : State) : Option Nat :=
  let ns := fun (t : Nat) => (quant s 0 ((t : Rat) / 65536)).toNat
  match s.te.servo with
  | .free => none
  | .refused => none
  | .acquire => some (ns s.te.latest)
  | .locked => some (ns (maxOf s.te.recent))
  | .holdover => s.te.holdEst.map fun e => e + par s (pid 7 0 9) * (s.clk - s.te.lastAcceptClk) / 128000000

/-- Code of a servo state (Table 11-2). -/
def Servo.code : Servo → Nat
  | .free => 0 | .acquire => 1 | .locked => 2 | .holdover => 3 | .refused => 4

/-- The calendar stops following (R376). -/
def State.stopFollowing (s : State) : State :=
  s.onRtc fun r =>
    { r with following := false, slewing := false, slewLeft := 0, errorUs := 0x7FFFFFFF, stepDue := false, learn := none }

/-- Network phasor output begins at an entry to stage 4, when a start waits for it or NET_EN is set (R247). -/
def State.pmuAutoStart (s : State) : State :=
  if s.pm.waiting || bitAt (par s (pid 6 0 2)) 0 then s.onPm fun p => { p with waiting := false, on := true } else s

/-- Stage 3 or 4 by the servo (Table 2-1). -/
def State.restage (s : State) : State :=
  if s.pw.stage < 3 then s
  else if s.te.servo == .locked then
    if s.pw.stage == 4 then s else (s.enterStage 4).pmuAutoStart
  else s.enterStage 3

/-- Enter a servo state (R257, R258, Table 11-2): rate, estimate, stored rate, log, interrupt and stage. `th` is the offset
that the log entry reports. -/
def State.servoTo (s : State) (n : Servo) (th : Int) : State :=
  if s.te.servo == n then s
  else
    let frozen := n == .free || n == .holdover || n == .refused
    let s1 := s.onTe fun t =>
      { t with servo := n, r := if frozen then t.f else t.r,
               holdEst := if n == .holdover then teNs s else t.holdEst,
               lockedOnce := t.lockedOnce || n == .locked,
               lastLocked := if n == .locked && s.wd.running then t.f else t.lastLocked,
               storeClk := if n == .locked then s.clk else t.storeClk,
               goodRun := if n == .acquire then 0 else t.goodRun }
    let s1 := if n == .locked && s.wd.running then s1.storeDevice else s1
    let s1 := if s.te.servo == .locked then (s1.onPm fun p => { p with unlockClk := some s.clk }).stopFollowing else s1
    let s2 := (s1.irq 8).log 0x0701
      (le 1 s.te.servo.code ++ le 1 n.code ++ zeros 2 ++ le 4 (ofSigned 32 (nsOfTicks s 0 th)) ++ le 4 (ofSigned 32 s1.te.r))
      [le 8 s.te.gm]
    let s3 := (s2.drew 1).restage
    if n == .free || n == .holdover then s3.takeScheduled (fun id => effOf id == .offset) else s3

/-- A change of LEAP, which P0 takes too (assumption 125); the Warden copies pending bits into the AON domain, which keeps its own until the
calendar has applied them (R251, R377). -/
def State.setLeap (s : State) (v : Nat) : State :=
  ((s.storePar (pid 7 0 14) v).storeP0.1).onRtc fun r =>
    { r with leap61 := bitAt v 0 || (bitAt v 2 && r.leap61), leap59 := bitAt v 1 || (bitAt v 2 && r.leap59) }

/-! ### Alarms -/

def State.alarm (s : State) (k : Nat) : Alarm := s.rtc.alarms.getD k Alarm.reset
def State.onAlarm (s : State) (k : Nat) (f : Alarm → Alarm) : State := s.onRtc fun r => { r with alarms := modAt r.alarms k f }
/-- Fields of AL_MATCH (Table 16-8). -/
def alSec (m : Nat) : Nat := bitsAt m 0 6
def alMin (m : Nat) : Nat := bitsAt m 6 6
def alHour (m : Nat) : Nat := bitsAt m 12 5
def alDay (m : Nat) : Nat := bitsAt m 17 5
def alMonth (m : Nat) : Nat := bitsAt m 22 4
def alWeekday (m : Nat) : Nat := bitsAt m 26 3

end Sys2Proof.Machine
end

