-- ==== Sys2Proof/Machine/CommitOps.lean ====
section
/-! DEFINITION. The commit of the pending set (R328 to R331): the checks of every member, the relations tested over the
configuration that would result, and what a commit stores and applies. -/

namespace Sys2Proof.Machine

/-- Phasor indices of a block in frame order (R240), for a set of output selections `sel` of members. -/
def blockIdxs (s : State) (sel : Nat → Nat) (b : Nat) : List Nat :=
  ((List.range 36).filter (fun c => bitAt (sel 3) c && chanBus s c == b)) ++
  ((List.range 3).filter (fun k => bitAt (sel 4) (3 * b + k))).map (fun k => 36 + 3 * b + k) ++
  ((List.range 28).filter (fun c => circBus s c == b)).flatMap (fun c =>
    (if bitAt (sel 5) c then [42 + 3 * c] else []) ++ (if bitAt (sel 6) c then [43 + 3 * c, 44 + 3 * c] else []))

/-- Output selections in force. -/
def selNow (s : State) (m : Nat) : Nat := par s (pid 6 0 m)

/-- Destination of data frames. -/
def pmuDst (s : State) : Nat × Nat := (ipOf s (pid 6 0 10), par s (pid 6 0 14))

/-- The owner of a member does not run or is not served: below stage 3 the Warden applies requests to its own and the
Heartwood engine's members alone (R19), and while it restarts its own are not served (R426). -/
def ownerAbsent (s : State) (id : Nat) : Bool :=
  match famOwner (pFam id) with
  | .warden => !s.wd.running
  | .heartwood => false
  | _ => s.pw.stage < 3

/-- The block of an RW-S member runs: the stream for P_SINGLE, P_FRAME and P_DIV, else the capture unit (R173). -/
def blockRuns (s : State) (id : Nat) : Bool :=
  pFam id == 4 &&
    (if pMem id < 3 then s.qu.streaming else 8 ≤ pMem id && pMem id ≤ 27 && (s.unit ((pMem id - 8) / 5)).st != 0)

/-- The configuration that a commit now would give (R328). -/
def future (s : State) : State := s.onPr fun p => { p with applied := assocAll p.committed p.pending }

/-- An enabled element uses a channel. -/
def channelUsed (s : State) (c : Nat) : Bool :=
  (List.range 28).any (fun e => elemOn s e && (curChan s e == c || voltChan s e == c))

/-- A response below its floor, a change of the fixed slot 18, or a response for a reserved slot (R393). -/
def responseOk (slot v : Nat) : Bool :=
  if slot == 18 then v == 3 else if 27 ≤ slot then v == 0 else slotFloors.getD slot 0 ≤ v && v ≤ 3

/-- Range of a value by its member's tables (R326). -/
def valueOk (id v : Nat) (d : MemberDef) : Bool :=
  typeOk d.ty v && rangeOk d.rng d.ty v && (d.rng != .special || specialOk id v) && (pFam id != 28 || pMem id != 0 || responseOk (pInst id) v)

/-- The member that FAIL_ID names for a relation: the first of its members that is pending, else the first. -/
def blame (s : State) (l : List Nat) : Nat :=
  (l.find? (fun i => s.pr.pending.any (·.1 == i))).getD (l.headD 0xFFFF)

/-- R13: an enabled element has both channels, and its current channel to itself. -/
def elemBad (f : State) (e : Nat) : Bool :=
  elemOn f e && (curChan f e == 0xFF || voltChan f e == 0xFF ||
    (List.range e).any (fun k => elemOn f k && curChan f k == curChan f e))

/-- R14: a circuit lists enabled elements of its own, with voltages from one bus. -/
def circBad (f : State) (c : Nat) : Bool :=
  let l := circElems f c
  l.any (fun e => !elemOn f e) || l.eraseDups.length != l.length ||
  l.any (fun e => (List.range c).any (fun k => (circElems f k).contains e)) ||
  l.any (fun e => busOf (voltChan f e) != busOf (voltChan f (l.headD 0)))

/-- R202: an enabled output names an enabled element or a circuit that lists one. -/
def cfBad (f : State) (k : Nat) : Bool :=
  let t := par f (pid 26 k 1)
  bitAt (par f (pid 26 k 2)) 0 &&
    !(if bitAt t 7 then !(circElems f (bitsAt t 0 5)).isEmpty else elemOn f (bitsAt t 0 5))

/-- R187: a sub-interval is a whole number of seconds that divides an hour. -/
def demandBad (f : State) : Bool :=
  let m := par f 0x1004 * 60
  let n := par f 0x1005
  m % n != 0 || 3600 % (m / n) != 0

/-- Reporting rates of Table 10-1. -/
def pmuRates (cls hz : Nat) : List Nat :=
  if hz == 60 then [10, 12, 15, 20, 30, 60] ++ (if cls == 1 then [120] else []) else [10, 25, 50] ++ (if cls == 1 then [100] else [])

/-- Bytes of a data frame of the resulting configuration (R240): 36 and 8 for each phasor. -/
def pmuFrameBytes (f : State) : Nat :=
  36 + 8 * ((blockIdxs f (selNow f) 0).length + (blockIdxs f (selNow f) 1).length)

/-- R286: data frames at PMU_RATE take more than 80 % of OWN_KBPS. -/
def pmuLoadBad (f : State) : Bool :=
  let fr : OwnFrame := udpFrame f 6 .phasor (pmuDst f) 0 (zeros (pmuFrameBytes f))
  par f (pid 11 0 10) * 1000 * 80 < wireBytes f fr * 8 * par f 0x3001 * 100

/-- Range of UDEV_PCT in terms of HYST_PCT and DIP_PCT (Table 9-12). -/
def udevBad (f : State) (b : Nat) : Bool :=
  let m := fun k => par f (0x2800 + 16 * b + k)
  let u := m 7
  2 * u ≤ m 5 || 10000 + m 5 ≤ u + m 2

/-- R378: fields that AL_MASK does not name are 0 in AL_MATCH. -/
def alarmBad (f : State) (k : Nat) : Bool :=
  let mask := par f (pid 27 k 2)
  let m := par f (pid 27 k 1)
  [alSec m, alMin m, alHour m, alDay m, alMonth m, alWeekday m].zipIdx.any (fun e => !bitAt mask e.2 && e.1 != 0)

/-- R439: PFAIL_MV + PFAIL_HYST_MV above 95 % of SUPPLY0, judged when the pending set holds either. -/
def pfailBad (s f : State) : Bool :=
  s.pr.pending.any (fun e => e.1 == 0x6800 || e.1 == 0x6801) &&
    decide (ratOfF32 (s.pw.supplies.getD 0 0) * 950 < ((par f 0x6800 + par f 0x6801 : Nat) : Rat))

/-- The first relation that the resulting configuration breaks, as the member that FAIL_ID names. -/
def relationFail (s : State) : Option Nat :=
  let f := future s
  let one (b : Bool) (l : List Nat) : Option Nat := if b then some (blame s l) else none
  let each (n : Nat) (bad : Nat → Bool) (l : Nat → List Nat) : Option Nat :=
    ((List.range n).find? bad).map (fun k => blame s (l k))
  each 28 (elemBad f) (fun e => [pid 20 e 1, pid 20 e 2, pid 20 e 0])
  <|> each 36 (fun c => par f (pid 16 c 1) != 0 && channelUsed f c) (fun c => [pid 16 c 1])
  <|> each 28 (circBad f) (fun c => [pid 21 c 0, pid 21 c 1, pid 21 c 2])
  <|> each 8 (cfBad f) (fun k => [pid 26 k 1, pid 26 k 2])
  <|> one (demandBad f) [0x1005, 0x1004]
  <|> one (par f 0x3800 == 2 && (bitsAt (par f (pid 25 0 0)) 0 2 == 0 || bitsAt (par f (pid 25 0 0)) 0 2 == 3))
        [0x3800, pid 25 0 0]
  <|> one (pfailBad s f) [0x6800, 0x6801]
  <|> one (!(pmuRates (par f 0x3000) (par f 0x1000)).contains (par f 0x3001)) [0x3001, 0x3000, 0x1000]
  <|> one (pmuLoadBad f) [0x3001, pid 11 0 10]
  <|> each 2 (udevBad f) (fun b => [0x2807 + 16 * b, 0x2805 + 16 * b, 0x2802 + 16 * b])
  <|> each 4 (alarmBad f) (fun k => [pid 27 k 1, pid 27 k 2])
  <|> one (s.pr.pending.any (·.1 == 0x380E) && par f 0x3800 == 1) [0x380E]
  <|> one (7168 < par f 0x200C + par f 0x2011 + par f 0x2016 + par f 0x201B) [0x200C, 0x2011, 0x2016, 0x201B]

/-- The first status that a commit of the pending set meets, with FAIL_ID (R328, R331, R49); none when it is carried out: access
and range of every member, then the relations. -/
def commitFail (s : State) (h : Hdr) : Option (Status × Nat) :=
  let p := s.pr.pending
  let acc := fun (e : Nat × Nat) => (memberOf e.1).map (·.acc)
  match p.find? (fun e => ownerAbsent s e.1) with
  | some e => some (.notInStage, e.1)
  | none =>
    if pfailing s && !p.isEmpty then some (.powerFailing, 0xFFFF)
    else if locked s then some (.locked, 0xFFFF)
    else match p.find? (fun e => acc e == some .rwp && !canWrite s h.path 2) with
    | some e => some (.authFail, e.1)
    | none =>
      match p.find? (fun e => !(memberOf e.1).any (valueOk e.1 e.2)) with
      | some e => some (.valueRange, e.1)
      | none =>
        match p.find? (fun e => acc e == some .rws && blockRuns s e.1) with
        | some e => some (.stopRequired, e.1)
        | none => (if p.isEmpty then none else relationFail s).map (fun i => (.valueRange, i))

/-- When a committed value comes into use now: TIME members outside FREE and HOLDOVER wait for an offset (R275). -/
def takesNow (s : State) (id : Nat) : Bool :=
  match effOf id with
  | .commit => true
  | .offset => s.te.servo == .free || s.te.servo == .holdover
  | _ => false

/-- The applied and scheduled values after one member's commit: at once, from the next power-up, or scheduled while it differs
from what is applied (R329). -/
def State.commitMember (s : State) (id v : Nat) : State :=
  if takesNow s id then (s.setPar id v).onPr fun p => { p with scheduled := assocDel p.scheduled id }
  else if effOf id == .powerUp || effOf id == .pmu then
    s.onPr fun p => { p with applied := assocSet p.applied id (par s id) }
  else
    s.onPr fun p =>
      { p with applied := assocSet p.applied id (par s id),
               scheduled := if par s id == v then assocDel p.scheduled id else assocSet p.scheduled id v }

/-- A committed alarm definition reaches the AON domain (R383). -/
def State.commitAlarm (s : State) (ids : List Nat) (k : Nat) : State :=
  if ids.any (fun i => pFam i == 27 && pInst i == k && pMem i < 3) then
    s.onAlarm k fun a => { a with cfg := par s (pid 27 k 0), mtch := par s (pid 27 k 1), mask := par s (pid 27 k 2),
                                  marker := none, pend := none, pendMask := 0, seqWait := false, deferred := false }
  else s

/-- A committed response reaches the AON domain and the Warden's ladder (R393). -/
def State.commitResponse (s : State) (e : Nat × Nat) : State :=
  if pFam e.1 == 28 && pMem e.1 == 0 then s.onSlot (pInst e.1) fun x => { x with resp := e.2, aonResp := e.2 } else s

/-- RTC_FOLLOW = 0 ends following (R376). -/
def State.commitFollow (s : State) : State :=
  if par s (pid 8 0 3) == 0 && s.rtc.following then s.stopFollowing else s

/-- TIME_SOURCE takes effect at once: it counts as another master, the next offset has no previous one, and NONE puts the servo
in FREE (R253, R254). -/
def State.commitSource (s : State) (old : Nat) : State :=
  let n := par s 0x3800
  if n == old then s
  else
    let s1 := s.onTe fun t => { t with sourceChanged := true, lastOffsetClk := none, gm := if n == 1 then (s.nt.master.map (·.1)).getD 0 else 0 }
    if n == 0 then s1.servoTo .free (s.te.offsetNs * 65536) else s1

/-- A PARAM_CHANGED event of a member (Table 18-4): old and new value, eight bytes each or ten for TIME80. -/
def State.logParam (s : State) (old : State) (e : Nat × Nat) : State :=
  match memberOf e.1 with
  | none => s
  | some d =>
    let w := if d.ty == .time80 then 10 else 8
    s.log 0x0104 (le 2 e.1 ++ le 1 d.ty.size ++ zeros 1 ++ le w (parCommitted old e.1)) [le w e.2]

/-- Members whose commit is logged with old and new value: RW-P members, and the definition of an alarm (R328, R383). -/
def loggedMember (id : Nat) : Bool :=
  (memberOf id).map (·.acc) == some .rwp || (pFam id == 27 && pMem id < 3)

/-- The value that a PMU member will have once all waiting changes have taken effect. -/
def pmuNext (s : State) (id : Nat) : Nat :=
  (s.pm.changes.reverse.findSome? fun c => c.2.lookup id).getD (par s id)

/-- A commit of PMU members waits for its own reporting instant; a value of one that still waits is replaced (R244, R329). -/
def State.commitPmu (s : State) (p : List (Nat × Nat)) : State :=
  let l := p.filter fun e => effOf e.1 == .pmu && !takesNow s e.1 && pmuNext s e.1 != e.2
  if l.isEmpty then s
  else s.onPm fun m =>
    { m with changes := ((m.changes.map fun c => (c.1, c.2.filter fun e => (l.lookup e.1).isNone)).filter (!·.2.isEmpty)) ++ [(s.clk, l)] }

/-- Values in use now take their effect on the engines that hold copies of them. -/
def State.commitEffects (s old : State) (p : List (Nat × Nat)) : State :=
  let ids := p.map (·.1)
  let s1 := (List.range 4).foldl (fun x k => x.commitAlarm ids k) s
  let s2 := p.foldl State.commitResponse s1
  let s3 := if locked s2 && !locked old then s2.lockActions else s2
  let s4 := (s3.commitSource (par old 0x3800)).commitFollow
  let s5 := match p.lookup 0x380E with
    | some v => s4.setLeap (v.land 3 + (par old 0x380E).land 4)
    | none => s4
  let s5 := (List.range 2).foldl (fun x k => if ids.contains (pid 29 k 0) then x.commitPhy k else x) s5
  let s6 := s5.commitPmu p
  if ids.any (fun i => pFam i == 13) then s6.onPw fun w => { w with aonPfail := (par s6 0x6800, par s6 0x6801, par s6 0x6802) }
  else s6

/-- The commit (R328): stored, counted, applied or scheduled member by member, logged; where a record cannot be written, the set is
kept and nothing is in force (R330, R357). -/
def State.commitAll (s : State) : State × Bool :=
  let p := s.pr.pending
  let s1 := (s.onNt fun n => { n with tokens := tokensNow s, tokenClk := s.clk }).onPr fun q =>
    { q with committed := assocAll q.committed p, pending := [], commitSeq := u32 (q.commitSeq + 1) }
  let (s2, stored) := s1.storeSet
  if !stored then (s2.onPr fun _ => s.pr, false)
  else
  let s3 := p.foldl (fun x e => x.commitMember e.1 e.2) s2
  let s4 := if pioBody s == pioBody s3 then s3 else s3.pioUpdate
  let s5 := s4.log 0x0103 (le 4 s4.pr.commitSeq ++ le 2 p.length)
  let s6 := (p.filter (fun e => loggedMember e.1)).foldl (fun x e => x.logParam s e) s5
  (s6.commitEffects s p, true)

end Sys2Proof.Machine
end

