-- ==== Sys2Proof/Machine/Serve.lean ====
section
/-! DEFINITION. The interpreter (R308, R323), and the instant of commit, which comes before every request received after its
COMMIT_PARAMS (R328). -/

namespace Sys2Proof.Machine

/-- Bytes of a COMMIT_PARAMS reply after STATUS. -/
def commitBytes (failId seq applied : Nat) : List Byte := le 2 failId ++ le 4 seq ++ le 2 applied ++ zeros 2

/-- The instant of commit of an accepted COMMIT_PARAMS (R328 steps 4 to 6): stored, applied and answered. Where PFAIL or LOCK has
come since, the commit fails with that status and the set is kept, and so where a record cannot be written (R357). -/
def State.finishCommit (s0 : State) (h : Hdr) : State :=
  let s := s0.onPr fun p => { p with committing := none }
  match commitFail s h with
  | some (st, i) => s.answer h 0x0106 st (commitBytes i 0 0)
  | none =>
    match s.commitAll with
    | (s1, true) => s1.answer h 0x0106 .ok (commitBytes 0xFFFF s1.pr.commitSeq s.pr.pending.length)
    | (s1, false) => s1.answer h 0x0106 .internalFault (commitBytes 0xFFFF 0 0)

/-- The state in which the next request is interpreted: after the instant of commit of an accepted COMMIT_PARAMS (R22, R328). -/
def State.settled (s : State) : State :=
  match s.pr.committing with
  | some h => s.finishCommit h
  | none => s

/-- One request through the interpreter, in the order of R308 and R323. While its lane's outbound stream is full it is not processed
(R304). At stage 0 nothing receives it; at stage 1 link
hardware answers the control lane and discards the bulk lane (Table 2-5). A network broadcast is carried out unanswered. A
request that comes while the Warden restarts at stage 2 is interpreted as at any other time (assumption 103). -/
def serveNow (op : Op) (h : Hdr) (lenOk : Bool) (checks : State → List (Bool × Status)) (act : State → Ans) (s : State) :
    State :=
  if s.pw.stage == 0 || consoleAbsent s h || streamFull s h then s
  else if s.pw.stage == 1 then
    match h.path, h.bulk with
    | .host, false => s.answer h op.code .notInStage [] false
    | .host, true => s.onLk fun l => { l with rxBulk := (readyReplies (l.rxBulk.drop 1)).2 }
    | _, _ => s
  else if !authentic s h then (s.secFail h.path).answer h op.code .authFail op.blank false
  else
    let s := (s.secPass h).onLk fun l => { l with cmdAccepted := l.cmdAccepted + 1 }
    if op.bulk.any (· != h.bulk) || consoleUnknown h op.code then s.answer h op.code .unknownOpcode []
    else if s.pw.stage < op.minStage || (op.warden && !s.wd.running) then s.answer h op.code .notInStage op.blank
    else if !lenOk || (h.more && !op.frag) then s.answer h op.code .badLength op.blank
    else
      match checkStatus s h op.code (checks s) with
      | some st => s.answer h op.code st op.blank
      | none =>
        let a := act s
        a.s.answer h op.code a.st a.bytes (h.sec.isSome && !op.plain)

/-- One request through the interpreter, after the instant of an earlier commit (R22, R328). -/
def serve (op : Op) (h : Hdr) (lenOk : Bool) (checks : State → List (Bool × Status)) (act : State → Ans) (s : State) :
    State := serveNow op h lenOk checks act s.settled

/-- Where no commit waits, a request is interpreted at once. -/
theorem serve_of_idle {op : Op} {h : Hdr} {lenOk : Bool} {checks : State → List (Bool × Status)} {act : State → Ans} {s : State}
    (hc : s.pr.committing = none) : serve op h lenOk checks act s = serveNow op h lenOk checks act s := by
  simp [serve, State.settled, hc]

end Sys2Proof.Machine
end

