-- ==== Sys2Proof/Machine/Tamper.lean ====
section
/-! DEFINITION. Tamper sources, the ladder, the Clearing, keys, JTAG and reprovisioning (chapter 17). -/

namespace Sys2Proof.Machine

/-- Any die temperature on the far side of a limit in °C. -/
def anyTemp (s : State) (p : Rat → Bool) : Bool := s.pw.temps.any (fun t => p (ratOfF32 t))

/-- Conditions that the evaluation judges (Table 17-1): the balls' levels against INPUT_CFG, the supply extremes, the instruction of
the TAP (R405), temperatures and VBAT on the latest readings; slot 5 only on VBAT, where its detectors do not run, and slot 18
while an instruction stands that no evaluation could raise yet. -/
def conditionOf (s : State) (x : TamperIn) (slot : Nat) : Bool :=
  match slot with
  | 5 => s.rtc.stalled
  | 7 => x.vcore.1 < 700 || 920 < x.vcore.2
  | 8 => x.vdd33.1 < 2900 || 3700 < x.vdd33.2
  | 9 => anyTemp s (fun t => decide (((parS s 16 (pid 10 0 4) : Int) : Rat) < t))
  | 10 => anyTemp s (fun t => decide (t < ((parS s 16 (pid 10 0 5) : Int) : Rat)))
  | 18 => true
  | 26 =>
    let v := s.pw.supplies.getD 4 0
    (v != 0 || !s.pw.vbat) && decide (ratOfF32 v < 11 / 5)
  | _ => bitAt x.balls slot == bitAt (par s (pid 10 0 6)) slot

/-- Slots that an evaluation judges. -/
def evaluatedSlots (s : State) : List Nat :=
  [0, 1, 2] ++ (if s.pw.stage == 0 then [5] else []) ++ [7, 8, 9, 10] ++ (if s.tp.jtagWait.isSome then [18] else []) ++ [26]

/-- R390, R395, R399. Sources raised together act together and write their entries in slot order; then the others take their
conditions. -/
def execTamperEvaluation (x : TamperIn) (s : State) : Host.Outcome State Fault Refusal :=
  if s.pw.aonUp then
    let up := (evaluatedSlots s).filter fun k => conditionOf s x k && raisesNow s k
    .next (((evaluatedSlots s).filter fun k => !up.contains k).foldl (fun y k => y.tamperCond k 0xFF (conditionOf s x k))
      (if up.isEmpty then s else s.raiseAll (up.map fun k => raiseOf s k 0xFF true)))
  else .next s

/-- R390. The condition has held for SRC_PERSIST_MS. -/
def execTamperPersistExpiry (slot : Fin 32) (s : State) : Host.Outcome State Fault Refusal :=
  if (s.slot slot).persisting && s.after (s.slot slot).since (persistMs s slot * cycMs) then .next (s.tamperRaise slot 0xFF true) else .next s

/-- Bits of the latched, active or other slots. -/
def slotBits (s : State) (f : Slot → Bool) : Nat := packFlags (s.tp.slots.map f)

/-- Both copies of the wrapped key copy are erased; one erased already is not written again (R403, R469). -/
def State.eraseWrapped (s : State) : State :=
  let p := pageAddr 0 keyRec.2
  if blankPair s 0 keyRec.2 then s else (s.wrPage [(p, zeros 256)]).wrPage [(p + 256, zeros 256)]

/-- Every password is CLEARED, and both copies of the password record are written, unless they say so already (R403, R469). -/
def State.clearPasswords (s : State) : State :=
  let s1 := s.onSe fun e => { e with pws := e.pws.map (fun _ => ⟨2, []⟩) }
  if payloadOf s pwRec 240 == some (pwBytes s1.se.pws) then s1
  else
    let s2 := s1.storePw.1
    match recordLatest s2 0 pwRec with
    | some (b, _) => s2.pageWrite 0 (pwRec.2 + if b then 0 else 1) (recordBytes s2 0 (pwRec.2 + if b then 1 else 0))
    | none => s2

/-- Steps 1 to 4 of the Clearing for the sources of a mask (Table 17-5), with its log entry and those of the raises. -/
def State.clearOnce (s : State) (job : ClearJob) : State :=
  let s1 := (s.onTp fun t =>
    { t with identity := none, wrapped := none, erased := true, keys := [], clearings := u32 (t.clearings + 1), clearedSinceUp := true,
             jtagIr := t.jtagWait.getD t.jtagIr, jtagWait := none }).eraseWrapped
  let s2 := (s1.clearPasswords.dropSessions fun _ => true).log 0x0A04 (le 4 job.mask)
  job.raises.foldl State.logRaise s2

/-- R403, R469. The first Clearing that waits is carried out. -/
def execClearing (s : State) : Host.Outcome State Fault Refusal :=
  match s.tp.clearQueue with
  | [] => .next s
  | m :: r => if s.pw.stage == 0 then .next s else .next ((s.onTp fun t => { t with clearQueue := r }).clearOnce m)

/-- R399, R442. After the loader the remaining steps of every Clearing that is pending are run. -/
def execClearPendingResume (s : State) : Host.Outcome State Fault Refusal :=
  if s.tp.clearPending && s.pw.phase == .loaded then
    let q := s.tp.clearQueue
    .next (q.foldl State.clearOnce (s.onTp fun t => { t with clearQueue := [], clearPending := false }))
  else .next s

/-! ### Clock monitors -/

/-- TIME cycles of a detector window (Table 17-2): 1.024 ms, and 32.768 ms for the 32.768 kHz clock. -/
def monWindow (clock : Nat) : Nat := if clock == 2 then 4194304 else 131072

/-- A detector reports HIGH, LOW or SHORT in a window (R391). -/
def detReports (s : State) (x : DetIn) : Bool :=
  decide ((par s (pid 10 0 3) : Rat) < absQ x.dev) || decide (x.shortest < 60)

/-- R391, R392. One window of a clock's two detectors. A clock source is raised when both detectors report in the same or
adjacent windows; three windows with one detector alone raise MONITOR_DISAGREE. -/
def execClockMonitorWindow (clock : Fin 3) (d a : DetIn) (s : State) : Host.Outcome State Fault Refusal :=
  if s.pw.stage == 0 || (s.tp.monClk.getD clock none).any (fun c => !s.after c (monWindow clock)) then .next s
  else
    let detD := detReports s d
    let detA := detReports s a
    let (pD, pA) := s.tp.detPrev.getD clock (false, false)
    let both := (detD && detA) || (detD && pA) || (detA && pD)
    let run := if detD != detA then s.tp.disagree.getD clock 0 + 1 else 0
    let s1 := s.onTp fun t => { t with monClk := modAt t.monClk clock (fun _ => some s.clk),
                                       detPrev := modAt t.detPrev clock (fun _ => (detD, detA)),
                                       disagree := modAt t.disagree clock (fun _ => run) }
    let s2 := s1.tamperCond (3 + clock) 0xFF both
    .next (s2.tamperCond 6 0xFF (s2.tp.disagree.any (3 ≤ ·) || s2.tp.injectBad))

/-- A detector passes an injection: the cycle of 50 % is SHORT to it, and it measures that of 200 % within 5 % (R392). -/
def injectPasses (x : InjectIn) : Bool := decide (x.short < 60) && decide (190 ≤ x.long) && decide (x.long ≤ 210)

/-- R392. The injection comes every 10 s. -/
def execMonitorInjection (d a : InjectIn) (s : State) : Host.Outcome State Fault Refusal :=
  if s.pw.stage == 0 || s.tp.injectClk.any (fun c => !s.after c (10 * cycS)) then .next s
  else
    let fails := (if injectPasses d then 0 else 1) + (if injectPasses a then 0 else 1)
    let s1 := s.onTp fun t => { t with injectFails := u32 (t.injectFails + fails), injectBad := fails != 0, injectClk := some s.clk }
    .next (s1.tamperCond 6 0xFF (s1.tp.disagree.any (3 ≤ ·) || s1.tp.injectBad))

/-! ### Keys and TRNG -/

/-- Restore an empty or failed key store from the wrapped copy (R400). -/
def State.restoreKeys (s : State) (ok : Bool) : State :=
  if !ok then s.onTp fun t => { t with identity := t.wrapped, keys := [] }
  else if s.tp.identity.isNone then s.onTp fun t => { t with identity := t.wrapped }
  else s

/-- R400. The key store is checked at stage 2 and hourly. -/
def execKeystoreCheck (ok : Bool) (s : State) : Host.Outcome State Fault Refusal :=
  if s.pw.stage < 2 || s.tp.keyClk.any (fun c => !s.after c (3600 * cycS)) then .next s
  else .next (((s.onTp fun t => { t with keyClk := some s.clk }).tamperCond 22 0xFF (!ok)).restoreKeys ok)

/-- R402. -/
def execTrngHealthFail (s : State) : Host.Outcome State Fault Refusal :=
  if s.pw.stage == 0 then .next s
  else .next ((s.onTp fun t => { t with trngOk := false, trngFails := u32 (t.trngFails + 1), trngClk := s.clk }).tamperCond
    21 0xFF true)

/-- R402. A restart is attempted every 10 s; one whose start tests pass brings output back. -/
def execTrngRestart (ok : Bool) (s : State) : Host.Outcome State Fault Refusal :=
  if s.pw.stage == 0 || s.tp.trngOk || !s.after s.tp.trngClk (10 * cycS) then .next s
  else if ok then .next ((s.onTp fun t => { t with trngOk := true }).tamperCond 21 0xFF false)
  else .next (s.onTp fun t => { t with trngFails := u32 (t.trngFails + 1), trngClk := s.clk })

/-! ### JTAG (R405) -/

/-- R405. BYPASS and IDCODE act at once; any other instruction raises DEBUG_OPEN and acts as BYPASS until the Clearing. -/
def execJtagUpdateIr (ir : BitVec 5) (s : State) : Host.Outcome State Fault Refusal :=
  if s.pw.phase == .off || s.pw.phase == .started then .next s
  else if ir == 31#5 || ir == 1#5 then .next ((s.onTp fun t => { t with jtagIr := ir.toNat, jtagWait := none }).tamperClear 18 0xFF)
  else
    let s1 := s.onTp fun t => { t with jtagIr := 31, jtagWait := some ir.toNat }
    if s.pw.stage == 0 then .next s1 else .next (s1.tamperRaise 18 0xFF true)

/-- What Capture-IR loads: 0b00x01, where x says that a Clearing has completed since power-up (R405). -/
def captureIr (s : State) : Nat := 1 + flagAt s.tp.clearedSinceUp 2

/-- What Capture-DR loads in the state of the register: the IDCODE of revision A1 (R405); BYPASS has one bit, 0; none for an
instruction that IEEE 1149.1 alone describes. -/
def captureDr (s : State) : Option Nat :=
  if s.tp.jtagIr == 1 then some 0x13640CA3 else if s.tp.jtagIr == 31 then some 0 else none

/-- R405. The register returns to IDCODE; nothing is undone. The TAP is powered from VDD33. -/
def execJtagReset (s : State) : Host.Outcome State Fault Refusal :=
  if s.pw.phase == .off || s.pw.phase == .started then .next s
  else .next ((s.onTp fun t => { t with jtagIr := 1, jtagWait := none }).tamperClear 18 0xFF)

/-! ### Opcodes -/

/-- PROVISION_REQUIRED: no identity key, or a password CLEARED (assumption 22). -/
def provisionRequired (s : State) : Bool := s.tp.identity.isNone || s.se.pws.any (fun p => p.st == 2)

/-- KEY_STATE (Table 17-11). -/
def keyState (s : State) : Nat :=
  flagAt s.tp.identity.isSome 0 + flagAt s.tp.owner.isSome 1 + flagAt s.tp.wrapped.isSome 2 + flagAt s.tp.trngOk 3 +
  flagAt s.tp.clearPending 4 + flagAt (provisionRequired s) 5

def opTamperRead : Op := { code := 0x0A01, minStage := 2, fixed := 30 }

/-- R390, Table 17-6. -/
def execTamperRead (h : Hdr) (s : State) : Host.Outcome State Fault Refusal :=
  .next (serve opTamperRead h (h.len == 0) (fun _ => [])
    (fun s => ⟨s, .ok, le 1 (ladder s) ++ le 1 (flagAt (provisionRequired s) 0 + flagAt s.tp.clearPending 1) ++
      le 4 (slotBits s (·.active)) ++ le 4 (slotBits s (·.latched)) ++ fitBytes 16 s.tp.challenge ++ le 4 s.tp.clearings⟩) s)

/-- An owner signature holds: it verifies under the key and was made over the current challenge (R406). -/
def sigOk (s : State) (x : SigIn) : Bool := x.valid && x.challenge == s.tp.challenge

/-- Slots that an acknowledgement unlatches (R398). -/
def ackSlots (s : State) (mask : Nat) : List Nat :=
  (List.range 32).filter (fun k => bitAt mask k && (s.slot k).latched && !(s.slot k).active)

/-- One of them has a response of LOCK or CLEAR, so that a signature is required. -/
def ackNeedsSig (s : State) (mask : Nat) : Bool := (ackSlots s mask).any (fun k => 2 ≤ (s.slot k).resp)

def opTamperAck : Op := { code := 0x0A02, minStage := 2, fixed := 6 }

/-- R398, Table 17-7. -/
def execTamperAck (h : Hdr) (mask : Nat) (signature : Option SigIn) (s : State) : Host.Outcome State Fault Refusal :=
  .next (serve opTamperAck h (h.len == (if signature.isSome then 72 else 8))
    (fun s => [(ackNeedsSig s mask && !(s.tp.owner.isSome && signature.any (sigOk s)), .authFail)])
    (fun s =>
      let s1 := (ackSlots s mask).foldl
        (fun x k =>
          (x.onSlot k fun y => { y with latched := false, onVbat := false }).log 0x0A03
            (le 1 k ++ le 1 (s.slot k).resp ++ le 1 0xFF)) s
      let s2 := if ackNeedsSig s mask then s1.newChallenge else s1
      ⟨s2, .ok, zeros 2 ++ le 4 (slotBits s2 (·.latched))⟩) s)

/-- Outputs of the crypto engine: `n` bytes of an uninterpreted function of purpose and input (assumption 3). -/
def crypto (purpose n : Nat) (bs : List Byte) : List Byte := (List.range n).map (Config.cryptoByte purpose bs)

/-- Public key of an identity key pair. -/
def identityPub (k : Nat) : List Byte := crypto 2 64 (le 8 k)

/-- A path of the network. -/
def isNetPath : Path → Bool
  | .net _ _ => true
  | _ => false

/-- Install a session key: it replaces the path's own, and among more than eight network paths the oldest (Table 17-4). -/
def setKey (l : List SessKey) (p : Path) (k : List Byte) : List SessKey :=
  let rest := l.filter (fun x => x.path != p)
  let nets := rest.filter (fun x => isNetPath x.path)
  let kept := if isNetPath p && 8 ≤ nets.length then
      match nets.head? with
      | some o => rest.filter (fun x => x.path != o.path)
      | none => rest
    else rest
  kept ++ [⟨p, k, 0, 0⟩]

def opKeyAgree : Op := { code := 0x0A10, plain := true, fixed := 194 }

/-- The prime of P-256 (assumption 3). -/
def p256 : Nat := 2 ^ 256 - 2 ^ 224 + 2 ^ 192 + 2 ^ 96 - 1

/-- A public key, x then y, big-endian, is a point of P-256 (R408). -/
def onCurve (pub : List Byte) : Bool :=
  let x := beAt pub 0 32
  let y := beAt pub 32 32
  x < p256 && y < p256 &&
    (y * y + 3 * x) % p256 == (x * x % p256 * x + 0x5ac635d8aa3a93e7b3ebbd55769886bc651d06b0cc53b0f63bce3c3e27d2604b) % p256

/-- R408, R402, R404. -/
def execKeyAgree (h : Hdr) (hostPub : List Byte) (keyLen : Nat) (s : State) :
    Host.Outcome State Fault Refusal :=
  if hostPub.length != 64 then .fault .malformedCommand
  else
    .next (serve opKeyAgree h (h.len == 68)
      (fun s => [(s.tp.identity.isNone, .authFail), (!onCurve hostPub, .valueRange), (keyLen != 16 && keyLen != 32, .valueRange),
        (!s.tp.trngOk, .internalFault)])
      (fun s =>
        let eph := freeBytes s 64
        let secret := sha256 (crypto 4 32 (hostPub ++ eph) ++ hostPub ++ eph)
        let sig := crypto 3 64 (le 8 (s.tp.identity.getD 0) ++ sha256 (hostPub ++ eph ++ uidBytes ++ le 2 s.nt.node))
        let s1 := (s.drew 64).onTp fun t => { t with keys := setKey t.keys h.path (secret.take keyLen) }
        ⟨s1, .ok, zeros 2 ++ eph ++ identityPub (s.tp.identity.getD 0) ++ sig⟩) s)

/-- PROVISION; the fixed part of the reply depends on PHASE (Table 17-9). -/
def opProvision (fixed : Nat) : Op := { code := 0x0A11, minStage := 2, frag := true, fixed := fixed }

/-- R407, R402. A request with more fragments to come is answered ACCEPTED_PENDING (R310). -/
def execProvisionGenerate (h : Hdr) (badPhase : Bool) (s : State) : Host.Outcome State Fault Refusal :=
  .next (serve (opProvision (if badPhase then 2 else 90)) h (h.more || badPhase || (fragOf s h 0x0A11).length + h.len == 4)
    (fun s => if h.more then [] else
      [(!badPhase && pfailing s, .powerFailing), (badPhase || s.tp.identity.isSome, .valueRange),
       (!s.tp.trngOk, .internalFault)])
    (fun s =>
      if h.more then ⟨s.fragAdd h 0x0A11 (zeros h.len), .pending, zeros 90⟩
      else
        let k := s.tp.keySerial + 1
        let (s0, ok) := (s.fragEnd h).itemPut 0 [keyRec] (wrappedBytes k)
        let s1 := (s0.onTp fun t => { t with keySerial := k, identity := some k, wrapped := some k, erased := false }).newChallenge
        if !ok then ⟨s0, .internalFault, zeros 90⟩
        else ⟨s1, .ok, zeros 2 ++ uidBytes ++ fitBytes 16 s1.tp.challenge ++ identityPub k⟩) s)

/-- The signature of an INSTALL holds (R407): under the stored owner key, or with none stored under NEW_OWNER_KEY, which is
accepted from the host interface and the console only. -/
def installAuth (s : State) (h : Hdr) (newOwner : Bool) (x : SigIn) : Bool :=
  sigOk s x && (s.tp.owner.isSome || (newOwner && !isNetPath h.path))

/-- R406, R407. `params` are the PARAMS of this packet before the signature; the passwords come out of the decryption, if its
tag holds. -/
def execProvisionInstall (h : Hdr) (params : List Byte) (decrypted : Option (List Nat)) (signature : SigIn) (s : State) :
    Host.Outcome State Fault Refusal :=
  if decrypted.any (fun l => l.length != 8) then .fault .malformedCommand
  else
    let msg := fragOf s h 0x0A11 ++ params
    let flags := (byteAt msg 1).toNat
    .next (serve (opProvision 2) h
      (h.more || (fragOf s h 0x0A11).length + h.len == (if bitAt flags 0 then 288 else 224))
      (fun s => if h.more then [] else
        [(pfailing s, .powerFailing),
         (!installAuth s h (bitAt flags 0) signature || s.tp.identity.isNone || decrypted.isNone, .authFail),
         (1 < flags || decrypted.any (fun l => l.any badPassword), .valueRange)])
      (fun s =>
        if h.more then ⟨s.fragAdd h 0x0A11 params, .pending, zeros 2⟩
        else
          let x := s.fragEnd h
          let (s1, ok) := (x.onSe fun e =>
            { e with pws := (decrypted.map fun l => l.map fun v => ⟨1, pwDigest v⟩).getD e.pws }).storePw
          let key := fitBytes 64 (msg.drop 160)
          let (s2, ok) := if !ok || !bitAt flags 0 then (s1, ok)
            else (s1.onTp fun t => { t with owner := some key }).itemPut 0 [ownerRec] key
          if ok then ⟨s2.newChallenge.log 0x0A05 (le 1 (flags % 2)), .ok, zeros 2⟩
          else ⟨(s2.onSe fun _ => x.se).onTp fun _ => x.tp, .internalFault, zeros 2⟩) s)

end Sys2Proof.Machine
end

