-- ==== Sys2Proof/Machine/Sequencer.lean ====
section
/-! DEFINITION. Sequencers SEQ0 to SEQ3 (R114 to R119): triggers, running jobs, the stands' check queues they feed, and the
commands that arm them. -/

namespace Sys2Proof.Machine

/-- SOURCE of a channel (CHAN_CFG): 0 NORMAL. -/
def chanSource (s : State) (c : Nat) : Nat := par s (pid 16 c 1)

/-- Stand of a channel (Table 1-4). -/
def standOf (c : Nat) : Nat := if c < 8 then c / 2 else (c - 8) / 7

/-- Class of a check in the order of R111: its lowest sequencer, then requests, then automatic checks. -/
def Check.cls (c : Check) : Nat := c.by_.foldl Nat.min 5

/-- Put a pending check behind those of its class, and behind one that an abort has placed at the head (R111, R112). -/
def insertCheck : List Check → Check → List Check
  | [], c => [c]
  | x :: r, c => if !x.head && c.cls < x.cls then c :: x :: r else x :: insertCheck r c

/-- A check becomes pending in its stand; a channel already pending runs once and satisfies both, at the earlier of the two
places (R111). -/
def State.queueCheck (s : State) (c : Check) : State :=
  s.onStand (standOf c.chan) fun d =>
    match d.queue.find? (fun x => x.chan == c.chan) with
    | none => { d with queue := insertCheck d.queue c }
    | some x =>
      let y : Check := ⟨x.by_ ++ c.by_, c.chan, x.baseline || c.baseline, x.head⟩
      if x.head || x.cls ≤ c.cls then { d with queue := d.queue.map (fun z => if z.chan == c.chan then y else z) }
      else { d with queue := insertCheck (d.queue.filter (fun z => z.chan != c.chan)) y }

/-- Place of a channel's check in its stand's queue, 1 = next; 0 when none is pending. -/
def checkPosition (s : State) (c : Nat) : Nat :=
  let q := (s.stand (standOf c)).queue
  if q.any (fun x => x.chan == c) then q.findIdx (fun x => x.chan == c) + 1 else 0

/-- Record the result of a check (PC_RESULT, PC_COUNT). -/
def State.setCheckResult (s : State) (c result : Nat) : State :=
  s.onChan c fun x => { x with pcResult := result, pcCount := u32 (x.pcCount + 1) }

/-- A BASELINE check that did not end well is logged with PATH_FAULT (R124; assumption 64). -/
def State.baseFailLog (s : State) (c : Check) (result ohm deg : Nat) : State :=
  if c.baseline then s.log 0x0309 (le 1 c.chan ++ le 1 result ++ zeros 2 ++ le 4 ohm ++ le 4 deg) else s

/-- The arming repeats: REPEAT, or a periodic TIME trigger (R116). -/
def Arming.repeats (a : Arming) : Bool := a.rep || (a.source == 3 && a.periodMs != 0)

/-- A sequencer's job has ended with nothing that follows it (R116). -/
def State.seqIdle (s : State) (n : Nat) : State :=
  s.onSeq n fun x => { x with st := if x.arm.any (·.repeats) then 1 else 0, left := [] }

/-- Start the job of sequencer `n` at a trigger instant: a check sequence queues its channels in list order (R111, R114); a
channel whose SOURCE is no longer NORMAL is skipped with result ABORTED (R124), and a sequence of which no channel is left ends
at once. -/
def State.seqRun (s : State) (n t : Nat) : State :=
  match (s.seq n).arm with
  | none => s
  | some a =>
    let s1 := s.onSeq n fun q => { q with st := 2, t := t }
    match a.job with
    | .snapshot _ => s1
    | .checks l =>
      let good := l.filter (fun c => chanSource s c == 0)
      let bad := l.filter (fun c => chanSource s c != 0)
      let s2 := bad.foldl (fun x c => x.setCheckResult c 0x20) s1
      let s3 := good.foldl (fun x c => x.queueCheck ⟨[n], c, false, false⟩) s2
      let s4 := s3.onSeq n fun q => { q with left := good }
      if good.isEmpty then s4.seqIdle n else s4

/-- A check that a sequencer gives up goes on for whoever else asked for it (R111, R117). -/
def Check.without (c : Check) (n : Nat) : Option Check :=
  let l := c.by_.filter (· != n)
  if l.isEmpty then none else some { c with by_ := l }

/-- Abandon the running job of a sequencer (R117 RESTART): its running check is ABORTED and not requeued for it, its pending
ones leave their queues. -/
def State.seqAbandon (s : State) (n : Nat) : State :=
  let s1 := (List.range 4).foldl
    (fun x k =>
      let d := x.stand k
      let q := d.queue.filterMap (fun c => c.without n)
      match d.active with
      | some c =>
        if c.by_.contains n then
          ((x.setCheckResult c.chan 0x20).baseFailLog c 0x20 0 0).onStand k fun y =>
            { y with active := none, queue := ((c.without n).map (fun e => { e with head := true })).toList ++ q }
        else x.onStand k fun y => { y with queue := q }
      | none => x.onStand k fun y => { y with queue := q }) s
  s1.onSeq n fun q => { q with left := [] }

/-- A trigger source sends its instant to every armed unit whose CFG names it (R169): 1 NOTCH, 2 ALARM, 4 SEQ with an index. -/
def State.unitsDue (s : State) (source index t : Nat) : State :=
  { s with units := s.units.map fun (u : CapUnit) =>
      if u.st != 0 && bitsAt u.cfg 4 3 == source && bitsAt u.cfg 8 3 == index then { u with due := u.due ++ [(t, source, 0)] } else u }

/-- First TIME instant of an arming, from a counter value on (R115): START, or the next future instant of its period. -/
def timeDue (a : Arming) (now : Nat) : Nat :=
  if a.source == 3 then
    if a.periodMs == 0 then Nat.max a.start 1
    else
      let p := a.periodMs * 65536000000
      if now < a.start then a.start else a.start + ((now - a.start) / p + 1) * p
  else 0

/-- Put an arming into force (R119): job and trigger replaced, any held trigger discarded. COMMAND fires at once, at the
instant of acceptance held in `start` (Table 5-2). -/
def State.seqInstall (s : State) (n : Nat) (a : Option Arming) : State :=
  match a with
  | none => s.onSeq n fun q => { q with st := 0, arm := none, held := none, next := none, left := [], due := 0, late := false }
  | some x =>
    let s1 := s.onSeq n fun q =>
      { q with st := 1, arm := some x, held := none, next := none, left := [], due := timeDue x s.now,
               late := x.source == 3 && x.periodMs == 0 && x.start < s.now }
    if x.source == 0 then (s1.unitsDue 4 n x.start).seqRun n x.start else s1

/-- A trigger reaches sequencer `n` at instant `t` (R114, R117, Table 5-3). Where a job restarted ends at once, an arming that waits
takes effect (R119). -/
def State.seqTrigger (s : State) (n t : Nat) : State :=
  let q := s.seq n
  if q.st == 1 then (s.unitsDue 4 n t).seqRun n t
  else if q.st == 2 then
    match q.arm.map (·.policy) with
    | some 0 => s.onSeq n fun x => { x with overrun := u32 (x.overrun + 1) }
    | some 1 =>
      if q.held.isSome then s.onSeq n fun x => { x with overrun := u32 (x.overrun + 1) }
      else (s.onSeq n fun x => { x with held := some t }).unitsDue 4 n t
    | _ =>
      let s1 := ((s.seqAbandon n).unitsDue 4 n t).seqRun n t
      match (s1.seq n).next with
      | some a => if (s1.seq n).st == 2 then s1 else s1.seqInstall n a
      | none => s1
  else s

/-- Trigger every sequencer armed with a source and index (R118), and the capture units that it triggers (R169). -/
def State.seqTriggerAll (s : State) (source index t : Nat) : State :=
  (List.range 4).foldl
    (fun x n => if (x.seq n).arm.any (fun a => a.source == source && a.index == index) then x.seqTrigger n t else x)
    (s.unitsDue source index t)

/-- The running job of sequencer `n` ends (R116, R117, R119). A trigger held under QUEUE_ONE while an arming waits is discarded
with the old arming (assumption 62). -/
def State.seqEnd (s : State) (n : Nat) : State :=
  let q := s.seq n
  match q.next with
  | some a => s.seqInstall n a
  | none =>
    match q.held with
    | some t => (s.onSeq n fun x => { x with held := none }).seqRun n t
    | none => s.seqIdle n

/-- A check has ended with a result: every sequence that it served moves on; one with nothing left ends (R114). -/
def State.seqChecked (s : State) (c : Check) : State :=
  (List.range 4).foldl
    (fun x n =>
      let q := x.seq n
      if q.st == 2 && c.by_.contains n && q.left.contains c.chan then
        let l := q.left.filter (· != c.chan)
        let x1 := x.onSeq n fun y => { y with left := l }
        if l.isEmpty then x1.seqEnd n else x1
      else x) s

/-- The arming holds a check sequence. -/
def Arming.isChecks (a : Arming) : Bool :=
  match a.job with
  | .checks _ => true
  | .snapshot _ => false

/-- SEQ_STATE byte of a sequencer (Table 5-8); bit 3 keeps the last arming's job while it is IDLE (assumption 112). -/
def seqByte (q : Seq) : Nat :=
  q.st + flagAt q.held.isSome 2 + flagAt (q.arm.any Arming.isChecks) 3

/-- Times that an accepted step jumps over (R270): a one-shot starts at the next tick, a periodic trigger passes to the first
grid instant not before the new counter, and after a backward step nothing repeats. -/
def Seq.stepped (q : Seq) (now : Nat) : Seq :=
  if q.st == 0 || q.due == 0 || now ≤ q.due then q
  else
    match q.arm with
    | some a => if a.source == 3 && a.periodMs != 0 then { q with due := timeDue a (now - 1) } else { q with late := true }
    | none => q

/-- The checks of R124 and Table 5-5 in the order of the fields. -/
def armChecks (s : State) (seq : Nat) (a : ArmIn) (flagMask : Nat) : List (Bool × Status) :=
  [(3 < seq, .valueRange),
   (3 < a.source && a.source != 0xFF, .valueRange),
   ((a.source == 1 && 7 < a.index) || (a.source == 2 && 3 < a.index), .valueRange),
   (2 < a.policy, .valueRange),
   (a.flags.land flagMask != a.flags, .valueRange),
   (!time80Ok a.start, .valueRange),
   (a.source == 3 && a.periodMs == 0 && !bitAt a.flags 1 && ofTime80 a.start < s.now, .timePast),
   (86400000 < a.periodMs, .valueRange)]

/-- Carry out an arming: at once, or when the running job ends (R119); an alarm whose SEQ response waits for this arming
triggers it at acceptance (R380). A COMMAND that waits for a running job keeps its acceptance as its instant (assumption 110). -/
def armSequencer (seq : Nat) (a : ArmIn) (job : Job) (s : State) : Ans :=
  let x : Option Arming :=
    if a.source == 0xFF then none
    else some ⟨job, a.source, a.index, a.policy, bitAt a.flags 0, if a.source == 0 then s.now else ofTime80 a.start, a.periodMs⟩
  if (s.seq seq).st == 2 then
    let s1 := s.onSeq seq fun q => { q with next := some x }
    ⟨s1, .pending, le 1 (seqByte (s1.seq seq)) ++ zeros 1⟩
  else
    let s1 := s.seqInstall seq x
    let wait := a.source == 2 && !s.pw.stage3At.any (s.after · (60 * cycS)) && ((s1.rtc.alarms.getD a.index Alarm.reset).seqWait)
    let s2 := if wait then
        (s1.onRtc fun r => { r with alarms := modAt r.alarms a.index fun al => { al with seqWait := false, deferred := false } }).seqTrigger
          seq s.now
      else s1
    ⟨s2, .ok, le 1 (seqByte (s2.seq seq)) ++ zeros 1⟩

/-- SNAPSHOT_ARM (Table 5-5). -/
def opSnapshotArm : Op := { code := 0x0310, fixed := 2 }

/-- R119. -/
def execSnapshotArm (h : Hdr) (seq : Nat) (arm : ArmIn) (s : State) : Host.Outcome State Fault Refusal :=
  .next (serve opSnapshotArm h (h.len == 24) (fun s => armChecks s seq arm 7)
    (armSequencer seq arm (.snapshot (bitAt arm.flags 2))) s)

/-- SEQ_START (Table 5-6). -/
def opSeqStart : Op := { code := 0x0311, fixed := 2 }

/-- R119, R124. -/
def execSeqStart (h : Hdr) (seq : Nat) (arm : ArmIn) (chans : List Nat) (s : State) : Host.Outcome State Fault Refusal :=
  .next (serve opSeqStart h (h.len == 28 + chans.length)
    (fun s => armChecks s seq arm 3 ++
      [(chans.isEmpty || 36 < chans.length, .valueRange),
       (chans.any (fun c => 35 < c || chanSource s c != 0), .valueRange)])
    (armSequencer seq arm (.checks chans)) s)

/-- R115. The programmed instant of a TIME trigger, or a late one-shot at the next tick. -/
def execSequencerTimeTick (seq : Fin 4) (s : State) : Host.Outcome State Fault Refusal :=
  let q := s.seq seq
  match q.arm with
  | some a =>
    if a.source == 3 && q.st != 0 && q.due != 0 && (q.late || q.due ≤ s.now) then
      let t := if q.late then s.now else q.due
      let s1 := s.onSeq seq fun x => { x with late := false, due := if a.periodMs == 0 then 0 else x.due + a.periodMs * 65536000000 }
      .next (s1.seqTrigger seq t)
    else .next s
  | none => .next s

end Sys2Proof.Machine
end

