-- ==== Sys2Proof/Machine/Queue.lean ====
section
/-! DEFINITION. Result queue (R154 to R167, R501) and snapshots (R120 to R123). -/

namespace Sys2Proof.Machine

/-- Number of the P instant at or before a counter value, from the epoch. -/
def pIdx (t : Nat) : Nat := t / pTick

/-- Group delay of the P stream: a frame delivers the sample of the instant that many P samples back (Table 6-2, R128). -/
def groupDelay : Nat := 34

/-- The instant of the P sample that the present frame delivers: the group delay before the latest input instant at or before the
time counter (R127, R128). While a step has left the sample phase off the grid, input instants lie off it by that amount, and each
sample is labelled with the nearest grid instant (R261). -/
def pInstant (s : State) : Nat := ((((s.te.cnt : Int) - s.te.align) / (pTick : Int)).toNat - groupDelay) * pTick

/-! ### Entries (R154 to R161) -/

/-- Words of the ring (R154). -/
def ringWords : Nat := 262144

/-- Number of the W instant at or before a counter value, from the epoch (15 per P instant). -/
def wIdx (t : Nat) : Nat := t * 3 / 524288000

/-- Nearest P instant to a trigger instant, the later one on a tie (R120). -/
def pNearest (t : Nat) : Nat := (2 * t + pTick) / (2 * pTick)

/-- Nearest W instant, the later one on a tie (R120). -/
def wNearest (t : Nat) : Nat := (6 * t + 524288000) / 1048576000

/-- Nanoseconds within the second. -/
def nsOf (t : Nat) : Nat := t % tickSec / 65536

/-- Seconds of a counter value. -/
def secOf (t : Nat) : Nat := t / tickSec % 2 ^ 48

/-- The tag word (Table 7-1). -/
def tagWord (ch stream flags index : Nat) : Nat := ch * 2 ^ 26 + stream * 2 ^ 24 + flags % 256 * 2 ^ 16 + index % 65536

/-- The time words of single entries and X records (R157). -/
def timeWords (t : Nat) : List Nat := [secOf t % 2 ^ 32, secOf t / 2 ^ 32 + nsOf t / 16384 * 65536]

/-- An X record (R157, R158). -/
def xRec (code flags value t : Nat) : List Nat := [tagWord code 2 flags (nsOf t % 16384), value % 2 ^ 32] ++ timeWords t

/-- A single P entry (R157). -/
def pEntry (ch flags t : Nat) (v : Int) : List Nat := [tagWord ch 0 flags (nsOf t / 40000), ofSigned 32 v] ++ timeWords t

/-- Bytes as little-endian words. -/
def toWords : List Byte → List Nat
  | a :: b :: c :: d :: r => leVal [a, b, c, d] :: toWords r
  | [] => []
  | l => [leVal l]

/-- Codes as three bytes each, zero-padded to whole words (Table 7-5). -/
def packCodes (l : List Int) : List Byte := pad4 (l.flatMap (fun v => le 3 (ofSigned 24 v)))

/-- A frame entry (R159): channels with code and flags, at an instant with an index, and flags that all carry. -/
def frameEntry (stream t index extra : Nat) (chs : List (Nat × Int × Nat)) : List Nat :=
  let flags := chs.foldl (fun a c => a.lor c.2.2) extra
  [tagWord 63 stream flags index, chs.length * 2 ^ 24 + secOf t % 256 * 2 ^ 16 + nsOf t / 16384] ++
    toWords (packCodes (chs.map (·.2.1)))

/-- FLAG_MAP records of a frame, in the order of R163 (R160). -/
def flagMaps (chs : List (Nat × Int × Nat)) : List (List Nat) :=
  [7, 6, 5, 4, 0].filterMap fun b =>
    let mask := chs.foldl (fun a c => if bitAt c.2.2 b then setBit a c.1 else a) 0
    if mask == 0 then none else some [tagWord 51 2 (2 ^ b) 0, mask % 2 ^ 32, mask / 2 ^ 32, 0]

/-- Entries of a frame with its FLAG_MAP and TIME_MARK records (R161, R163). -/
def frameGroup (mark : Option Nat) (stream t index extra : Nat) (chs : List (Nat × Int × Nat)) : List (List Nat) :=
  flagMaps chs ++ (if mark == some (secOf t / 256) then [] else [xRec 49 0 0 t]) ++ [frameEntry stream t index extra chs]

/-- Number of a P instant in a GAP record (R164). -/
def gapNo (t : Nat) : Nat := secOf t % 65536 * 25000 + nsOf t / 40000

/-! ### Writing and dropping (R154, R164) -/

/-- Words skipped before an entry of `n` words at the end of the ring. -/
def qSkip (q : Queue) (n : Nat) : Nat := if ringWords < q.wpos + n then ringWords - q.wpos else 0

/-- Append one entry. -/
def Queue.put (q : Queue) (ws : List Nat) : Queue :=
  let k := qSkip q ws.length
  let lv := q.level + k + ws.length
  { q with entries := q.entries ++ [(q.skipped + k, ws)], skipped := 0, level := lv, peak := Nat.max q.peak lv,
           wpos := if k == 0 then (q.wpos + ws.length) % ringWords else ws.length }

/-- Append entries in order. -/
def Queue.puts (q : Queue) (l : List (List Nat)) : Queue := l.foldl Queue.put q

/-- The GAP record of an open gap (R164). -/
def gapRec (g : Nat × Nat × Nat) : List Nat := [tagWord 48 2 0x20 0, g.1 % 2 ^ 32, g.2.1, g.2.2]

/-- An entry that does not fit in the words left before the end of the ring leaves them skipped, even where it is dropped (R154,
Table 7-7). -/
def Queue.skipEnd (q : Queue) (n : Nat) : Queue :=
  let k := qSkip q n
  if k == 0 || ringWords < q.level + k then q
  else { q with skipped := q.skipped + k, level := q.level + k, peak := Nat.max q.peak (q.level + k), wpos := 0 }

/-- Write an entry or group whole, after a GAP record when one is due, or drop it whole (R164). `build` makes the entries from
the marks of the P and W streams; `counted` entries are counted as dropped, between instants `a` and `b`; `upd` takes the
marks forward when the group is written. -/
def State.qGroup (s : State) (isX : Bool) (counted a b : Nat) (build : Option Nat → Option Nat → List (List Nat))
    (upd : Queue → Queue) : State :=
  let q := s.qu
  let es := match q.gap with
    | none => build q.markP q.markW
    | some _ => build none none
  let q1 := match q.gap with
    | none => q.puts es
    | some g => (q.put (gapRec g)).puts es
  if q1.level + (if q.gap.isNone then 4 else 0) ≤ ringWords then
    s.onQu fun _ =>
      let q2 := match q.gap with
        | none => q1
        | some _ => { q1 with gap := none, overflow := false, markP := none, markW := none }
      upd { q2 with irqLevel := par s 0x201C }
  else
    let g := match q.gap with
      | none => (counted, gapNo a, gapNo b)
      | some (n, f, l) =>
        if isX && !q.gapX then (n + counted, f, l) else (n + counted, if q.gapX && !isX then gapNo a else f, gapNo b)
    (s.onQu fun x =>
      { x.skipEnd ((es.head?.map List.length).getD 0) with gap := some g, gapX := isX && (q.gap.isNone || q.gapX), overflow := true, dropped := u32 (x.dropped + counted) }).irq 4

/-- One X record (R158). -/
def State.qX (s : State) (code flags value t : Nat) : State :=
  s.qGroup true 1 (pInstant s) (pInstant s) (fun _ _ => [xRec code flags value t]) id

/-! ### Selection and pacing (R162, R163) -/

/-- Channels of a mask, ascending. -/
def maskChans (m : Nat) : List Nat := (List.range 36).filter (fun c => bitAt m c)

/-- QUEUE_RATE of a selection (R162). -/
def queueRate (single frame div : Nat) : Nat :=
  let n := (maskChans frame).length
  let f := if n == 0 then 0 else 8 + 4 * ((3 * n + 3) / 4)
  if div == 0 then 0 else (16 * (maskChans single).length + f) * 25000 / div

/-- QUEUE_RATE of the applied selection. -/
def rateNow (s : State) : Nat := queueRate (par s (pid 4 0 0)) (par s (pid 4 0 1)) (par s (pid 4 0 2))

/-- The channels of a snap selected by a mask, with codes and flags. -/
def snapChans (m : Nat) (p : List Int) (f : List Nat) : List (Nat × Int × Nat) :=
  (maskChans m).map (fun c => (c, p.getD c 0, f.getD c 0))

/-- Write the entries of one P instant in the order of R163. -/
def State.writeInstant (s : State) (d : StreamDue) : State :=
  let x := d.snap
  let singles := snapChans d.single x.p x.pf
  let s1 := singles.foldl (fun y c => y.qGroup false 1 x.t x.t (fun _ _ => [pEntry c.1 c.2.2 x.t c.2.1]) id) s
  let frame := snapChans d.frame x.p x.pf
  if frame.isEmpty then s1
  else s1.qGroup false 1 x.t x.t (fun mp _ => frameGroup (if d.first then none else mp) 0 x.t (nsOf x.t / 40000) 0 frame)
    fun q => { q with markP := some (secOf x.t / 256) }

/-- A stream holds an instant (R162, R501). -/
def StreamWin.holds (w : StreamWin) (t : Nat) : Bool :=
  decide (w.after < t) && w.stop.all (fun e => t ≤ e) && (nsOf t / 40000) % Nat.max 1 w.div == 0

/-- A sample becomes available: where a stream selects its instant, its entries are due (R162, R163, R501). A stopped stream
ends with the first later instant. -/
def Queue.offer (q : Queue) (x : Snap) : Queue :=
  let ws := q.wins.filter (fun w => w.stop.all (fun e => x.t ≤ e))
  match ws.findIdx? (fun w => w.holds x.t) with
  | none => { q with wins := ws }
  | some k =>
    let w := ws.getD k ⟨0, none, 0, 0, 1, false⟩
    { q with wins := modAt ws k (fun v => { v with fresh := v.fresh && v.frame == 0 }),
             due := q.due ++ [⟨x, w.single, w.frame, w.fresh⟩] }

/-- R163. The entries of one P instant are written, or dropped when there is no room. -/
def execQueueEntryWrite (s : State) : Host.Outcome State Fault Refusal :=
  match s.qu.due with
  | [] => .next s
  | d :: r => .next ((s.onQu fun q => { q with due := r }).writeInstant d)

/-! ### QUEUE_STREAM (R501) -/

def opQueueStream : Op := { code := 0x0401, fixed := 6 }

/-- Reply of QUEUE_STREAM after STATUS. -/
def streamReply (s : State) : List Byte := zeros 2 ++ le 4 (rateNow s)

/-- R501, R161, R162, R167, R173, R287. -/
def execQueueStreamStart (h : Hdr) (push : Nat) (badAction : Bool) (s : State) : Host.Outcome State Fault Refusal :=
  .next (serve opQueueStream h (h.len == 4)
    (fun s =>
      [(!badAction && s.lk.hushed, .hushed),
       (badAction || 1 < push, .valueRange),
       (push == 1 && ipOf s (pid 11 0 13) == 0, .valueRange),
       (s.qu.streaming && s.qu.push != (push == 1), .stopRequired),
       (!s.qu.streaming && 4000000 < rateNow s, .queueFull)])
    (fun s =>
      let s1 := if s.qu.streaming then s
        else s.onQu fun q =>
          { q with streaming := true, push := push == 1, markP := none, markW := none,
                   wins := q.wins ++ [⟨s.now, none, par s (pid 4 0 0), par s (pid 4 0 1), par s (pid 4 0 2), true⟩] }
      ⟨s1, .ok, streamReply s1⟩) s)

/-- R501. -/
def execQueueStreamStop (h : Hdr) (push : Nat) (s : State) : Host.Outcome State Fault Refusal :=
  .next (serve opQueueStream h (h.len == 4) (fun _ => [(1 < push, .valueRange)])
    (fun s =>
      let s1 := if s.qu.streaming then
          s.onQu fun q =>
            { q with streaming := false, push := false, wins := q.wins.map fun w => { w with stop := some (w.stop.getD s.now) } }
        else s
      ⟨s1, .ok, streamReply s1⟩) s)

/-! ### QUEUE_READ (R165) and queue push (R166) -/

/-- How many whole entries fit a number of words. -/
def fitEntries : List (Nat × List Nat) → Nat → Nat
  | [], _ => 0
  | e :: r, w => if e.2.length ≤ w then fitEntries r (w - e.2.length) + 1 else 0

/-- The words of entries as bytes. -/
def entryBytes (l : List (Nat × List Nat)) : List Byte := l.flatMap (fun e => e.2.flatMap (le 4))

/-- Length of the oldest entry not yet sent. -/
def headWords (q : Queue) (sent : Nat) : Nat := ((q.entries.drop (q.inFlight + sent)).head?.map (·.2.length)).getD 0

def opQueueRead : Op := { code := 0x0402, bulk := some true, fixed := 6 }

/-- Answer a QUEUE_READ (R165), from the entries that no push packet on its way holds. -/
def queueReadAct (ackSeq maxWords : Nat) (s : State) : Ans :=
  if s.qu.sentCount != 0 && ackSeq != s.qu.readSeq then
    let sent := (s.qu.entries.drop s.qu.inFlight).take s.qu.sentCount
    let bs := entryBytes sent
    ⟨s, .ok, le 2 s.qu.readSeq ++ le 2 (bs.length / 4) ++ le 2 (headWords s.qu s.qu.sentCount) ++ bs⟩
  else
    let q := { s.qu.freeEntries s.qu.inFlight s.qu.sentCount with sentCount := 0 }
    let l := q.entries.drop q.inFlight
    let n := fitEntries l maxWords
    let q1 := if n == 0 then q else { q with sentCount := n, readSeq := (q.readSeq + 1) % 65536 }
    let bs := entryBytes (l.take n)
    ⟨s.onQu fun _ => q1, .ok, le 2 q1.readSeq ++ le 2 (bs.length / 4) ++ le 2 (headWords q1 n) ++ bs⟩

/-- R165, R166, R167. -/
def execQueueRead (h : Hdr) (ackSeq maxWords : Nat) (s : State) : Host.Outcome State Fault Refusal :=
  .next (serve opQueueRead h (h.len == 4)
    (fun s => [(s.lk.hushed, .hushed), (maxWords < 4 || 1018 < maxWords, .valueRange), (s.qu.push, .valueRange)])
    (queueReadAct ackSeq maxWords) s)

/-- R166, R287. One packet of whole entries of at most 1,400 bytes, once both limits of R285 admit it and no own frame waits ahead of
it; they are freed once it has left (`State.frameSent`), and no reply to a QUEUE_READ is repeated from then on (R165). Canopy's network stack sends it
(Table 1-8). The TAG of a QUEUE_PUSH is a free value (assumption 2). -/
def execQueuePush (s : State) : Host.Outcome State Fault Refusal :=
  let l := s.qu.entries.drop s.qu.inFlight
  let n := fitEntries l 350
  if !s.qu.push || s.lk.hushed || n == 0 || !s.nt.up || !s.wd.canopyRunning || !netReaches s (ipOf s (pid 11 0 13)) ||
      !s.nt.waiting.isEmpty then .next s
  else
    let params := le 2 s.qu.pushSeq ++ zeros 2 ++ entryBytes (l.take n)
    let f := udpFrame s 0 .bulk (ipOf s (pid 11 0 13), par s (pid 11 0 17)) 47310
      (packet 0x41 (Config.freeNat s.free % 256) 0x0403 s.nt.node params)
    if admits s f then
      .next ((((s.charge f).enqueue f).onQu fun q =>
        { q with flying := q.flying ++ [n], sentCount := 0, pushSeq := (q.pushSeq + 1) % 65536, pushHeld := false }).drew 1)
    else if limiterOk s f.ports || s.qu.pushHeld then .next s
    else .next ((s.onQu fun q => { q with pushHeld := true }).onNt fun x => { x with reserveHeld := u32 (x.reserveHeld + 1) })

/-! ### Snapshots (R120, R121) -/

/-- Offset of a trigger from an instant in 1/65,536 of the sample period, as S16 (R120). -/
def trigOffset (d : Rat) : Int :=
  let o := roundAway (d * 65536)
  if o < -32768 then -32768 else if 32767 < o then 32767 else o

/-- The snap of the history that holds a P instant. -/
def snapAt (s : State) (p : Nat) : Option Snap := s.hist.find? (fun x => pIdx x.t == p)

/-- Counter value of a W instant, in whole units. -/
def wTime (j : Nat) : Nat := j * 524288000 / 3

/-- The W codes and flags of a W instant in the snap that holds it. -/
def wOfSnap (x : Snap) (j : Nat) : List Int × List Nat :=
  let i := j - 15 * pIdx x.t
  (x.w.map (fun l => l.getD i 0), x.wf.map (fun l => l.getD i 0))

/-- The history no longer holds a P instant and will not take it: it holds later ones, or a time step has put the instant more than
its 4 ms ahead (assumption 110). -/
def snapGone (s : State) (p : Nat) : Bool :=
  (snapAt s p).isNone && s.hist.any (fun x => p < pIdx x.t || pIdx x.t + 100 < p)

/-- R121. The marker, the P frame and, where asked, the W frame are written together, or all dropped; then the job ends. A snapshot
whose instants the history has lost ends without entries (assumption 110). -/
def execSnapshotWrite (seq : Fin 4) (s : State) : Host.Outcome State Fault Refusal :=
  let q := s.seq seq
  match q.arm.map Arming.job with
  | some (.snapshot wf) =>
    if q.st != 2 then .next s
    else
      let np := pNearest q.t
      let nw := wNearest q.t
      match snapAt s np, snapAt s (nw / 15) with
      | some x, some y =>
        let oP := trigOffset (((q.t : Int) - (x.t : Int) : Int) / (pTick : Rat))
        let oW := trigOffset ((q.t : Rat) * 3 / 524288000 - (nw : Rat))
        let all := 2 ^ 36 - 1
        let (wc, wfl) := wOfSnap y nw
        let tw := wTime nw
        let s1 := s.qGroup false (if wf then 3 else 2) (if wf then Nat.min x.t y.t else x.t) (if wf then Nat.max x.t y.t else x.t)
          (fun mp mw =>
            [xRec (60 + seq) 0x10 (ofSigned 16 oW * 65536 + ofSigned 16 oP) q.t] ++
            frameGroup mp 0 x.t (nsOf x.t / 40000) 4 (snapChans all x.p x.pf) ++
            (if wf then frameGroup mw 1 tw (nw % 375000 % 65536) 4 (snapChans all wc wfl) else []))
          fun z => { z with markP := some (secOf x.t / 256), markW := if wf then some (secOf tw / 256) else z.markW }
        .next (s1.seqEnd seq)
      | _, _ => .next (if snapGone s np || snapGone s (nw / 15) then s.seqEnd seq else s)
  | _ => .next s

end Sys2Proof.Machine
end

