-- ==== Sys2Proof/Machine/TimeOps.lean ====
section
/-! DEFINITION. Shared operations of the time engine: the servo (R254 to R258), refused offsets and steps (R259 to R261),
UTC offset and leap seconds (R250, R251). -/

namespace Sys2Proof.Machine

/-- Rate limit of 50 ppm in 2^-40. -/
def rateLimit : Int := 54975581

/-- A gain given as M × 2^E (R254). -/
def gainOf (v : Nat) : Rat := ((bitsAt v 0 16 : Nat) : Rat) * pow2 (toSigned 8 (bitsAt v 16 8))

/-- SLEW_MAX as a rate. -/
def slewMax (s : State) : Rat := (par s (pid 7 0 5) : Rat) / 1000000000

/-- Clamp an exact value. -/
def clampQ (lim v : Rat) : Rat := if v < -lim then -lim else if lim < v then lim else v

/-- LOCK_NS in counter units. -/
def lockTicks (s : State) : Nat := par s (pid 7 0 7) * 65536

/-- STEP_LIMIT in counter units. -/
def stepLimitTicks (s : State) : Nat := par s (pid 7 0 6) * 65536000

/-- Whole nanoseconds of a magnitude in counter units, saturating. -/
def estNs (s : State) (t : Nat) : Nat := satN 0xFFFFFFFF (quant s 0 ((t : Rat) / 65536)).toNat

/-- TE_EST_NS (Table 11-2). -/
def teEst (s : State) : Nat := satN 0xFFFFFFFF ((teNs s).getD 0xFFFFFFFF)

/-- Free mode is in force (R256). -/
def freeMode (s : State) : Bool := par s (pid 7 0 1) == 1

/-- The rate of the slew that brings the sample phase back to the grid, in 2^-40: SLEW_MAX, faster while samples come late (R261).
-/
def alignRate (s : State) : Int :=
  if s.te.align == 0 then 0
  else
    let v : Int := ((par s (pid 7 0 5) * 2 ^ 40 / 1000000000 : Nat) : Int)
    if 0 < s.te.align then v else -v

/-- The rate by which the counter's increment differs from the nominal one, in 2^-40: r in free mode; in syntonised mode nothing,
but what takes back the slew that the PLL carries (R256, R261). -/
def counterRate (s : State) : Int := if freeMode s then s.te.r else -alignRate s

/-- The rate by which the root PLL and every domain but HOST and AON differ from nominal, in 2^-40: r and the slew in syntonised
mode (R256, R261). -/
def pllRate (s : State) : Int := if freeMode s then 0 else s.te.r + alignRate s

/-- The counter some TIME cycles from now, or before now, at the rate in force (R249, R256): 512,000 in 2^-16 ns a cycle times
1 plus its rate; and the fraction that is left. -/
def counterIn (s : State) (n : Int) : Int × Nat :=
  let t : Int := (s.te.frac : Int) + n * 512000 * counterRate s
  ((s.te.cnt : Int) + n * 512000 + t / 2 ^ 40, (t % 2 ^ 40).toNat)

/-- What one TIME cycle adds to the counter, and the fraction after it (R249, R256). -/
def countStep (s : State) : Nat × Nat := ((counterIn s 1).1.toNat - s.te.cnt, (counterIn s 1).2)

/-- Fold a phase into (−20 µs, +20 µs] (R261). -/
def foldPhase (v : Int) : Int :=
  let m := v % (pTick : Int)
  if (pTick : Int) / 2 < m then m - (pTick : Int) else m

/-- An armed blaze after the counter has jumped to `new`, with `d` what one TIME cycle adds (R270): a pulse in progress keeps
its width, a one-shot jumped over starts at the next TIME cycle, and a periodic one produces no edge jumped over. -/
def Blaze.jumped (b : Blaze) (old new d : Nat) : Blaze :=
  let c := { b with pulseEnd := b.pulseEnd + new - old }
  if !b.armed || b.next == 0 || new ≤ b.next then c
  else if b.period == 0 then { c with next := new + d, stepped := true }
  else
    let p := b.period * 65536
    { c with next := b.start + ((new - b.start + p - 1) / p) * p }

/-- A time step moves the instants between which streams run; the first frame after it is due a TIME_MARK (R161, R162, R501;
assumption 82). -/
def Queue.stepped (q : Queue) (delta : Int) : Queue :=
  { q with markP := none, markW := none,
           wins := q.wins.map fun w =>
             { w with after := ((w.after : Int) + delta).toNat, stop := w.stop.map (fun e => ((e : Int) + delta).toNat), fresh := true } }

/-- Move the counter by an accepted step (R260, R261, R270): labels, sample phase, log, and the marks that blocks, queue,
notches, blazes and triggers carry. The servo enters ACQUIRE unless it stays FREE; the offset that a step applies counts as
accepted (R258; assumption 46). -/
def State.acceptStep (s : State) (delta : Int) (acquire : Bool) : State :=
  let new := ((s.te.cnt : Int) + delta).toNat
  let al := foldPhase (s.te.align + delta)
  let s1 := ((s.pmuMissed s.now (Nat.max new s.now)).onPm fun p => { p with old := [] }).pqStep.onTe fun t =>
    { t with cnt := new, align := al, stepP := true, stepW := true, realigning := decide (655360 < al.natAbs),
             stepsAccepted := u32 (t.stepsAccepted + 1), jumpRefused := false, refusedRun := [], refusedNum := 0,
             goodRun := if acquire then 0 else t.goodRun,
             lastAcceptClk := if t.servo == .refused then s.clk else t.lastAcceptClk,
             notches := t.notches.map fun n => { n with stepMark := true },
             blazes := t.blazes.map fun b => b.jumped s.te.cnt new (countStep s).1 }
  let s2 := (s1.onQu fun q => q.stepped delta).onMe fun m => { m with blockStep := true, subEnd := none }
  let s3 := { s2 with seqs := s2.seqs.map (fun (q : Seq) => q.stepped new) }
  let s4 := s3.pqSync.log 0x0703 (le 8 (ofSigned 64 (roundAway ((delta : Rat) / 65536))))
  if acquire then s4.servoTo .acquire (s.te.offsetNs * 65536) else s4

/-- Median of sixteen values: the mean of the two in the middle (assumption 17). -/
def median16 (l : List Int) : Rat :=
  let o := l.mergeSort (fun a b => a ≤ b)
  ((o.getD 7 0 + o.getD 8 0 : Int) : Rat) / 2

/-- Sixteen refused offsets lie within STEP_CONSIST_NS of their median (R260). -/
def consistent (s : State) (l : List Int) : Bool :=
  let m := median16 l
  l.all (fun x => decide (absQ ((x : Rat) - m) ≤ ((par s (pid 7 0 12) * 65536 : Nat) : Rat)))

/-- A refused offset (R259). -/
def State.refuseOffset (s : State) (th : Int) (gm : Nat) : State :=
  let us := satS32 (quant s 0 ((th : Rat) / 65536000))
  let s1 := (s.onTe fun t =>
    { t with jumpRefused := true, refusedUs := us, stepsRefused := u32 (t.stepsRefused + 1),
             refusedRun := (th :: (if gm == t.refusedGm then t.refusedRun else [])).take 16, refusedGm := gm,
             refusedFromLocked := t.servo == .locked,
             refusedNum := if t.servo == .refused then t.refusedNum + 1 else 1,
             goodRun := 0 }).drew 1
  ((s1.irq 8).log 0x0702 (le 4 (ofSigned 32 us) ++ le 8 gm)).servoTo .refused th

/-- An offset within the limit: Table 11-3, then R254. -/
def State.goodOffset (s : State) (th : Int) (gm : Nat) (prev : Option Nat) : State :=
  let same := gm == s.te.gmLast && !s.te.sourceChanged
  let small := th.natAbs ≤ lockTicks s
  let base : Servo := match s.te.servo with
    | .locked => if same then .locked else .acquire
    | .holdover => if same && small then .locked else .acquire
    | .refused => if s.te.refusedFromLocked && s.te.refusedNum == 1 && same && small then .locked else .acquire
    | _ => .acquire
  let run := if base == .acquire then
      (if small then (if s.te.servo == .acquire then s.te.goodRun else 0) + 1 else 0)
    else 0
  let n : Servo := if base == .acquire && 16 ≤ run then .locked else base
  let x : Rat := (th : Rat) / (tickSec : Rat)
  let kp := gainOf (par s (pid 7 0 3))
  let ki := gainOf (par s (pid 7 0 4))
  let two40 : Rat := ((2 ^ 40 : Nat) : Rat)
  let dt : Rat := match prev with
    | none => 0
    | some c =>
      let d : Rat := ((s.clk - c : Nat) : Rat) / 128000000
      let lim : Rat := (par s (pid 7 0 8) : Rat) / 1000
      if d ≤ lim then d else lim
  let p := clampQ (slewMax s) (-(kp * x))
  let f := if absQ (kp * x) ≤ slewMax s then clampI rateLimit (quant s 0 ((s.te.f : Rat) - ki * x * dt * two40)) else s.te.f
  let r := clampI rateLimit (quant s 1 ((f : Rat) + p * two40))
  let ns := nsOfTicks s 2 th
  let s1 := (s.onTe fun t =>
    { t with f := f, r := r, jumpRefused := false, refusedRun := [], refusedNum := 0, offsetNs := ns, gmLast := gm,
             sourceChanged := false, lastAcceptClk := s.clk, recent := (th.natAbs :: t.recent).take 16 }).drew 3
  let s2 := s1.servoTo n th
  s2.onTe fun t => { t with goodRun := run }

/-- One offset from the selected source reaches the servo (R252 to R260): the new state, and whether it was refused. -/
def State.offset (s0 : State) (th : Int) (gm : Nat) : State × Bool :=
  let s := s0.takeScheduled (fun id => effOf id == .offset)
  let prev := s.te.lastOffsetClk
  let s := s.onTe fun t => { t with lastOffsetClk := some s.clk, quietClk := s.clk, gm := gm, latest := th.natAbs }
  if th.natAbs ≤ stepLimitTicks s then (s.goodOffset th gm prev, false)
  else
    let fl := par s (pid 7 0 11)
    let run := th :: (if gm == s.te.refusedGm then s.te.refusedRun else [])
    if (bitAt fl 1 || (bitAt fl 0 && !s.te.lockedOnce)) && 16 ≤ run.length && consistent s (run.take 16) then
      ((s.acceptStep (-th) true).onTe fun t => { t with gmLast := gm, sourceChanged := false }, false)
    else (s.refuseOffset th gm, true)

/-- Offsets are taken at stage 3 and above (they pass through Canopy core 0, R252) from the source in force. -/
def takesOffsets (s : State) (source : Nat) : Bool := 3 ≤ s.pw.stage && s.wd.canopyRunning && par s (pid 7 0 0) == source

/-- A change of UTC_OFFSET: applied, stored, and carried into the Pioneer record (R250). -/
def State.setUtc (s : State) (v : Int) : State :=
  if utcOffset s == v then s else (s.storePar (pid 7 0 13) (ofSigned 16 v)).pioUpdate

/-- LEAP in force. -/
def leapWord (s : State) : Nat := par s (pid 7 0 14)

end Sys2Proof.Machine
end

