-- ==== Sys2Proof/Machine/CoppiceOps.lean ====
section
/-! DEFINITION. Shared operations of the coppice: who serves a channel, splices, skipped slots, condemnation and takeover
(R81 to R101), and the effects on loads and path checks (R112, R144). Converter `n` below 36 is the home pair of channel
`n`; converter 36 + k is the spare of stand `k` (R11, R12). -/

namespace Sys2Proof.Machine

/-- Stand of a converter. -/
def standOfConv (v : Nat) : Nat := if v < 36 then standOf v else v - 36

/-- Channel of a stand's slot 0 to 8 (Table 4-1). -/
def slotChan (k i : Nat) : Nat := if i < 2 then 2 * k + i else 8 + 7 * k + (i - 2)

/-- Slot of a channel in its stand. -/
def slotOf (c : Nat) : Nat := if c < 8 then c % 2 else (c - 8) % 7 + 2

/-- Bit of CONDEMNED for a converter (Table 4-9). -/
def condBit (v : Nat) : Nat := if v < 36 then slotOf v else 9

/-- A converter is condemned. -/
def condemned (s : State) (v : Nat) : Bool := bitAt (s.stand (standOfConv v)).condemned (condBit v)

/-- The converter that serves a channel (R11). -/
def serving (s : State) (c : Nat) : Nat :=
  let d := s.stand (standOf c)
  if d.carrying && d.spareChan == c then 36 + standOf c else c

/-- The home pair is away from its input: at rest or under requalification (R89, R101). -/
def homeAway (d : Stand) (c : Nat) : Bool := (d.phase == 1 && d.spareChan == c) || d.requal == some c

/-- A converter is connected to its channel and settled on it. -/
def settledOn (s : State) (v c : Nat) : Bool :=
  (s.conv v).unsP == 0 && (36 ≤ v || !homeAway (s.stand (standOf c)) c)

/-- A converter's samples are unsettled for the spans of Table 6-10. -/
def State.unsettle (s : State) (v : Nat) : State :=
  s.onConv v fun x => { x with unsP := 68, unsW := 24 }

/-- Put queue flag bits on the next P and W entries of a channel. -/
def State.mark (s : State) (c bit : Nat) : State :=
  s.onChan c fun x => { x with markP := setBit x.markP bit, markW := setBit x.markW bit }

/-- Splice a channel of a stand between its pairs (R86). -/
def State.splice (s : State) (k c : Nat) (toSpare : Bool) : State :=
  (s.mark c 6).onStand k fun d => { d with carrying := toSpare, splices := u32 (d.splices + 1) }

/-- The instance behind a converter that connects to a channel copies the one that serves it (R138). -/
def State.copyInst (s : State) (v c : Nat) : State :=
  let src := s.inst (serving s c)
  s.onInst v fun _ => src

/-- The match of a stand starts anew (R64, R85). -/
def Stand.rematch (d : Stand) : Stand := { d with pairs := [], again := false }

/-- Connect a stand's spare to a channel in a phase, with a match that starts anew; a spare already on it stays settled. -/
def State.moveSpare (s : State) (k c phase : Nat) : State :=
  let d := s.stand k
  let s1 := s.onStand k fun x =>
    { x.rematch with spareChan := c, carrying := false, stored := false, phase := phase,
                     corr := if d.spareChan == c then d.corr else Corr.none }
  if d.spareChan == c then s1 else (s1.unsettle (36 + k)).copyInst (36 + k) c

/-- Count a skipped slot and log it at most once per hour (R84). -/
def State.skipSlot (s : State) (k : Nat) : State :=
  let d := s.stand k
  let n := d.skipLogged + 1
  let due := match d.skipLogClk with
    | none => true
    | some c => decide (c + 3600 * 128000000 ≤ s.clk)
  let s1 := s.onStand k fun x =>
    { x with skip := true, skipped := u32 (x.skipped + 1), skipLogged := if due then 0 else n,
             skipLogClk := if due then some s.clk else x.skipLogClk }
  if due then s1.log 0x0304 (le 1 k ++ zeros 3 ++ le 4 n) else s1

/-- The running check of a stand is aborted and goes back to the head of the queue (R112). -/
def State.abortCheck (s : State) (k : Nat) : State :=
  match (s.stand k).active with
  | none => s
  | some c =>
    ((s.setCheckResult c.chan 0x20).baseFailLog c 0x20 0 0).onStand k fun d =>
      { d with active := none, queue := { c with head := true } :: d.queue }

/-! ### Bank A loads on a home instance (R143, R144) -/

/-- Cleared biquad states of a set: v[n−1], v[n−2], y[n−1], y[n−2] for each. -/
def zeroStates (n : Nat) : List (List Rat) := List.replicate n [0, 0, 0, 0]

/-- The pending load is written into the stopped, cleared home instance (R143). -/
def State.loadStart (s : State) (c : Nat) : State :=
  match (s.filt c).load with
  | none => s
  | some (b, keep) =>
    (s.onFilt c fun f => { f with load := none, loading := some (b, keep) }).onInst c fun _ =>
      ⟨[], zeroStates b.biquads.length, [], []⟩

/-- Counter units of 200 ms (R180). -/
def blockTicks : Nat := 13107200000000

/-- Number of the 200 ms block that holds a counter value. -/
def blockIdx (t : Nat) : Nat := t / blockTicks

/-- The frame in progress delivers the sample of a block boundary (R180). -/
def atBlock (s : State) : Bool := pInstant s % blockTicks == 0

/-- The reload of the Pioneer branch that a completed load leaves due (R141): a KEEP load that changes the branch's biquads. -/
def pioNext (f : Filt) (b : CoefSet) (keep : Bool) (block : Nat) : Option (Nat × List (List Int)) :=
  if !keep then f.pioReload else if b.biquads == f.pioBq then none else some (block, b.biquads)

/-- The load in progress completes on the home instance's return (R143, R144): FILTER_CHANGE and FILTER_LOADED; a KEEP load
reaches the Pioneer branch at a later boundary (R141). -/
def State.loadDone (s : State) (c : Nat) : State :=
  match (s.filt c).loading with
  | none => s
  | some (b, keep) =>
    let s1 := s.onFilt c fun f =>
      { f with loading := none, bankA := b, actB := false, owed := false, pioReload := pioNext f b keep (blockIdx s.now), change := true }
    let k := standOf c
    let s2 := if (s.stand k).spareChan == c then s1.onInst (36 + k) fun _ => s1.inst c else s1
    s2.log 0x0305 (le 1 c ++ zeros 3 ++ le 4 b.id)

/-- A pending load is cancelled (R144). -/
def State.cancelLoad (s : State) (c : Nat) : State :=
  match (s.filt c).load with
  | none => s
  | some (b, _) => (s.onFilt c fun f => { f with load := none }).log 0x0306 (le 1 c ++ zeros 3 ++ le 4 b.id)

/-- A load in progress is cancelled: the home instance did not come back with it (R144). -/
def State.cancelLoading (s : State) (c : Nat) : State :=
  match (s.filt c).loading with
  | none => s
  | some (b, _) => (s.onFilt c fun f => { f with loading := none }).log 0x0306 (le 1 c ++ zeros 3 ++ le 4 b.id)

/-- Channels of a stand. -/
def standChans (k : Nat) : List Nat := (List.range 9).map (slotChan k)

/-! ### Condemnation and takeover (R96 to R100) -/

/-- A rest that is cut short leaves the pair the trims it had before it (Table 4-6, R98). -/
def State.restoreTrim (s : State) (k v : Nat) : State :=
  match (s.stand k).old with
  | none => s
  | some t => (s.onConv v fun x => { x with trim := t }).onStand k fun d => { d with old := none }

/-- The spare's own rest is aborted with its trims unchanged (Table 4-6, Table 4-7). -/
def State.abortSpareRest (s : State) (k : Nat) : State :=
  if (s.stand k).phase == 3 && (s.stand k).requal.isNone then s.restoreTrim k (36 + k) else s

/-- The home pair that the spare stands in for comes back: from its rest with its old trims and unsettled samples, else by a
splice (R97, R98). -/
def State.recallHome (s : State) (k : Nat) : State :=
  let d := s.stand k
  let c := d.spareChan
  if d.carrying && c < 36 && !condemned s c then
    if d.phase == 1 then ((((s.restoreTrim k c).unsettle c).loadDone c).onStand k fun x => { x with carrying := false })
    else (s.splice k c false).loadDone c
  else s

/-- A channel without a converter (R100). -/
def State.loseChan (s : State) (c : Nat) : State :=
  if (s.chan c).lost then s else (s.onChan c fun x => { x with lost := true }).log 0x0303 (le 1 c)

/-- The spare takes over the channel of a condemned home converter (Table 4-6), and the Pioneer record names it (R99): the
record is written where its spare assignment changes (R37). A takeover aborts the stand's check (R112). A spare that was
shadowing goes on with the running match; one that comes from elsewhere has none and serves without a correction (assumption
63). -/
def State.takeover (s : State) (k c : Nat) : State :=
  let d := s.stand k
  let s := s.abortCheck k
  let s1 :=
    if d.spareChan == c && d.carrying then s
    else if d.spareChan == c && (s.conv (36 + k)).unsP == 0 then s.splice k c true
    else
      let s0 := (((s.abortSpareRest k).recallHome k).unsettle (36 + k)).copyInst (36 + k) c
      s0.onStand k fun x => { x.rematch with spareChan := c, carrying := true, corr := Corr.none }
  let s2 := s1.onStand k fun x => { x with phase := 6, assign := c, old := none, requalBack := false }
  if d.assign == c then s2 else s2.pioUpdate

/-- A converter is condemned (R96 to R100). `cause`: 0 rest, 1 STUCK, 2 clamp or reset, 3 cross-check. At stage 1 the coppice
does not run and nothing is condemned (R32). The channel byte of a condemned spare's entry is what SPARE_CHANNEL reads
(assumption 65), and a committed set whose taps still wait for the channel's first slot counts as a pending load and is
cancelled (assumption 66). -/
def State.condemn (s : State) (v cause : Nat) : State :=
  let k := standOfConv v
  let d := s.stand k
  if d.st == 4 || condemned s v then s
  else
    let chan := if v < 36 then v else d.spareChan
    let first := d.condemned == 0
    let s1 := ((s.onStand k fun x => { x with condemned := setBit x.condemned (condBit v) }).storeDevice).log 0x0301
      (le 1 v ++ le 1 chan ++ le 1 cause)
    let s2 := s1.abortCheck k
    let s3 := if first then (standChans k).foldl State.cancelLoad s2 else s2
    let s4 :=
      if v < 36 then
        if bitAt d.condemned 9 || (d.carrying && d.spareChan < 36 && d.spareChan != v && condemned s d.spareChan) then
          s3.loseChan v
        else s3.takeover k v
      else
        let held := d.carrying && d.spareChan < 36 && condemned s d.spareChan
        let s0 := if held then s3.loseChan d.spareChan else s3.recallHome k
        s0.onStand k fun x => { x with spareChan := 0xFF, carrying := false, phase := 5 }
    let s5 := if first then (standChans k).foldl State.cancelLoading s4 else s4
    s5.onStand k fun x =>
      { x with st := 3, pinChan := 0xFF, pinReq := none, pauseReq := false, runOn := false, old := none, requalBack := false,
               requal := if x.requal == some v then none else x.requal }

end Sys2Proof.Machine
end

