-- ==== Sys2Proof/Machine/Coppice.lean ====
section
/-! DEFINITION. The coppice: slots, overlaps, rests, splices and COPPICE_CONTROL (chapter 04). The instants of Tables 4-2
and 4-3 come as events; whether an instant has come is judged by the P samples counted, and what it does is judged here. -/

namespace Sys2Proof.Machine

/-! ### The running match (R85 to R90) -/

/-- Full scale in codes (R92). -/
def fullScale : Rat := 6291456

/-- Volts at the input of one code at a gain code (R57). -/
def codeWeight (g : Nat) : Rat := 7 / 10 / (((2 ^ g : Nat) : Rat) * 6291456)

/-- The terms of a match (R85): o in codes, m, τ in ns, and the mean square of the home samples in codes². -/
structure Match where
  o : Rat
  m : Rat
  tau : Rat
  ms : Rat
deriving DecidableEq, Repr

/-- Sum and mean of a list. -/
def sumQ (l : List Rat) : Rat := l.foldl (· + ·) 0
def meanQ (l : List Rat) : Rat := if l.isEmpty then 0 else sumQ l / (l.length : Rat)

/-- The DFT bin at a frequency of samples at a rate, newest first, with the newest at the phase origin: Σ x·e^(−j2πft). -/
def binAt (rate f : Rat) (l : List Rat) : Rat × Rat :=
  (sumQ (l.mapIdx fun i x => x * Config.cosDeg (360 * f * (i : Rat) / rate)),
   sumQ (l.mapIdx fun i x => x * Config.cosDeg (360 * f * (i : Rat) / rate - 90)))

/-- The sample at a fractional place of a list, newest first: the sample itself at a whole place, else an interpolator
of 16 taps. A place beyond either end takes the sample there. -/
def tapWith (tap : Rat → Nat → Rat) (l : List Rat) (q : Rat) : Rat :=
  let at_ := fun (i : Int) => l.getD (Nat.min i.toNat (l.length - 1)) 0
  let k := q.floor
  let f := q - (k : Rat)
  if f = 0 then at_ k
  else (List.range 16).foldl (fun a i => a + tap f i * at_ (k + (i : Int) - 7)) 0

/-- The phase-delay interpolator (R130). -/
def tapAt (l : List Rat) (q : Rat) : Rat := tapWith Config.delayTap l q

/-- Samples of 40 µs delayed by steps of 40 µs/65,536 (R129, R130). -/
def delaySeq (steps : Int) (l : List Rat) : List Rat :=
  (List.range l.length).map fun i => tapAt l ((i : Rat) + (steps : Rat) / 65536)

/-- Steps of 40 µs/65,536 that a time difference in ns rounds to (R85). -/
def stepsOf (tau : Rat) : Int := roundAway (tau * 16384 / 10000)

/-- The match over pairs of home and spare samples at the measured fundamental (R85); without a variation of the spare's samples
the gain ratio is 1. -/
def matchOf (f1 : Rat) (pairs : List (Rat × Rat)) : Match :=
  let h := pairs.map (·.1)
  let s := pairs.map (·.2)
  let hb := binAt 25000 f1 h
  let sb := binAt 25000 f1 s
  let tau := if f1 = 0 then 0
    else Config.argHalf (sb.1 * hb.1 + sb.2 * hb.2) (sb.2 * hb.1 - sb.1 * hb.2) / (2 * f1) * 1000000000
  let s' := delaySeq (stepsOf tau) s
  let mh := meanQ h
  let ms := meanQ s'
  let den := sumQ (s'.map fun x => (x - ms) * (x - ms))
  { o := meanQ s - mh, tau := tau, ms := meanQ (h.map fun x => x * x),
    m := if den = 0 then 1 else sumQ ((h.zip s').map fun e => (e.1 - mh) * (e.2 - ms)) / den }

/-- Bus of a channel whose fundamental a match measures: that of R206. -/
def matchF1 (s : State) (c : Nat) : Rat := (s.pq.buses.getD (chanBus s c) PqBus.reset).f1

/-- The running match of a stand's spare on its channel. -/
def runMatch (s : State) (k : Nat) : Match := matchOf (matchF1 s (s.stand k).spareChan) (s.stand k).pairs

/-- The match is live: the channel's rms is at least MATCH_MIN_PCT of the full-scale sine rms (R88). -/
def matchLive (s : State) (k : Nat) (m : Match) : Bool :=
  !(s.stand k).pairs.isEmpty &&
    decide (((par s (pid 19 k 6) : Rat) / 10000) * ((par s (pid 19 k 6) : Rat) / 10000) * fullScale * fullScale / 2 ≤ m.ms)

/-- The cross-check of R90 fails. -/
def xcheckBad (live : Bool) (m : Match) : Bool :=
  decide (6291 < absQ m.o) || (live && (decide (1 / 1000 < absQ (m.m - 1)) || decide (100 < absQ m.tau)))

/-- The stored terms of a channel may stand in for a live match (R88). -/
def storedUsable (s : State) (k c : Nat) : Bool :=
  let x := s.chan c
  match x.matchClk with
  | none => false
  | some t =>
    decide (secsSince s t ≤ par s (pid 19 k 7)) &&
    decide (absQ (ratOfF32 (s.pw.temps.getD k 0) - ratOfF32 x.matchTemp) ≤ 5)

/-- Gain code of a channel. -/
def chanGain (s : State) (c : Nat) : Nat := par s (pid 16 c 0)

/-- A trim carried from the code of its calibration to another by the stored adjacent-gain ratios of its converter (R65). -/
def carryTrim (s : State) (v code : Nat) (x : Trim) : Rat :=
  let t : Rat := x.gain
  if x.code ≤ code then
    (List.range (code - x.code)).foldl (fun a i => a * Config.gainRatio (factoryImage s) v (x.code + i)) t
  else (List.range (x.code - code)).foldl (fun a i => a / Config.gainRatio (factoryImage s) v (code + i)) t

/-- The trim in use of a converter at a gain code. -/
def trimAt (s : State) (v code : Nat) : Rat := carryTrim s v code (s.conv v).trim

/-- The new GAIN_TRIM of a home pair over the one it used before its rest, both at the channel's gain (R89, R65). -/
def trimRatio (s : State) (k c : Nat) : Rat :=
  match (s.stand k).old with
  | some t =>
    let o := carryTrim s c (chanGain s c) t
    if o = 0 then 1 else trimAt s c (chanGain s c) / o
  | none => 1

/-- The stored terms count: in the second overlap of a slot without a further test, since the slot's first splice has met R88
(R89); elsewhere by R88. -/
def storedCounts (s : State) (k c : Nat) : Bool :=
  ((s.stand k).phase == 2 && !(s.stand k).requalBack) || storedUsable s k c

/-- The correction that a match gives (R85, R88, R89): offset, gain and phase where it is live; else the stored terms with the
live offset, the gain carried over to new trims of the home pair. A match too weak for either leaves a carried channel the gain and
phase it has; a shadow's gives its own terms, which only a takeover takes (Table 4-6). -/
def matchCorr (s : State) (k c : Nat) (live : Bool) (m : Match) : Corr :=
  if live then ⟨m.o, m.m, stepsOf m.tau⟩
  else if storedCounts s k c then
    ⟨m.o, ((s.chan c).matchGain : Rat) / 1073741824 * trimRatio s k c, (s.chan c).matchPhase⟩
  else if (s.stand k).carrying then ⟨m.o, (s.stand k).corr.gain, (s.stand k).corr.steps⟩
  else ⟨m.o, m.m, stepsOf m.tau⟩

/-- A splice on the running match holds R87: the match is live, or the stored terms count (R88). -/
def spliceHolds (s : State) (k c : Nat) (live : Bool) : Bool := !(s.stand k).pairs.isEmpty && (live || storedCounts s k c)

/-- Take the terms of a match: the offset always, gain and phase when it is live (R88, R89, Table 4-11). -/
def State.takeMatch (s : State) (k c : Nat) (live : Bool) (m : Match) : State :=
  let o := quant s 0 (256 * m.o)
  let g := (quant s 1 (m.m * 1073741824)).toNat
  let corr := matchCorr s k c live m
  let s1 := s.onChan c fun x =>
    if live then
      { x with matchOffset := o, matchGain := g, matchPhase := stepsOf m.tau,
               matchClk := some s.clk, matchTemp := s.pw.temps.getD k 0 }
    else { x with matchOffset := o }
  (s1.onStand k fun d =>
    { d with corr := corr,
             checks := if live then (c, true, s.clk) :: d.checks.filter (fun e => e.1 != c) else d.checks }).drew 2

/-- P samples of a slot, and pairs of an overlap (R81, Table 4-2). -/
def slotSamples : Nat := 160000
def overlapPairs : Nat := 19932

/-- The correction on its way from the first splice's to the new match in the second overlap: linear over the remaining samples,
the phase one step at a time (R89). -/
def rampCorr (d : Stand) (target : Corr) : Corr :=
  let n := d.pairs.length
  let total := if d.again then overlapPairs else n + (slotSamples - d.n)
  let x : Rat := if total ≤ n then 1 else (n : Rat) / (total : Rat)
  let steps := roundAway ((d.first.steps : Rat) + ((target.steps - d.first.steps : Int) : Rat) * x)
  { off := d.first.off + (target.off - d.first.off) * x, gain := d.first.gain + (target.gain - d.first.gain) * x,
    steps := d.corr.steps + clampI 1 (steps - d.corr.steps) }

/-- One more pair of the running match, of a home and a spare sample at R85's point; and the correction that follows from it.
The spare of a pinned channel is matched on (R102). -/
def State.matchStep (s : State) (k : Nat) (h p : Rat) : State :=
  let d := s.stand k
  let c := d.spareChan
  let held := d.phase == 1 || d.phase == 3 || condemned s c || condemned s (36 + k)
  if held || !settledOn s c c || !settledOn s (36 + k) c then s
  else
    let s1 := s.onStand k fun x => { x with pairs := ((h, p) :: x.pairs).take overlapPairs }
    let m := runMatch s1 k
    let live := matchLive s1 k m && !(d.phase == 2 && d.stored)
    let target := matchCorr s1 k c live m
    s1.onStand k fun x => { x with corr := if d.phase == 2 then rampCorr x target else target }

/-- A cross-check on channel `c` fails (R90, R96): the home converter is condemned when the spare's latest earlier live
cross-check on another channel passed within the last 64 s, else the spare. -/
def State.xcheckFail (s : State) (k c : Nat) (live : Bool) : State :=
  let good := match (s.stand k).checks.find? (fun e => e.1 != c) with
    | some (_, ok, t) => ok && decide (s.clk ≤ t + 64 * 128000000)
    | none => false
  let s1 := s.onStand k fun d =>
    { d with xcheckFails := u32 (d.xcheckFails + 1),
             checks := if live then (c, false, s.clk) :: d.checks.filter (fun e => e.1 != c) else d.checks }
  s1.condemn (if good then c else 36 + k) 3

/-! ### Slots (R81 to R84) -/

/-- Slot of a stand after the present one. -/
def nextSlot (d : Stand) : Nat := (d.slot + 1) % 10

/-- The spare goes to the channel that a slot rests, as a shadow; before slot 9 to the channel of slot 0, as in the
pre-shadow (R83). -/
def State.shadowFor (s : State) (k slot : Nat) : State :=
  if slot == 9 then s.moveSpare k (slotChan k 0) 4 else s.moveSpare k (slotChan k slot) 5

/-- A rest begins: the pair's calibration is kept, and its measurements start from SHORT (R92). -/
def State.restBegin (s : State) (k v : Nat) : State :=
  (s.onStand k fun d =>
    { d with old := some (s.conv v).trim, dac := 0, dacN := 0, meas := List.replicate 8 (0, 0) }).unsettle v

/-- At least a number of P samples have passed since the slot of a stand began (R82); the one in progress counts. -/
def slotAt (d : Stand) (n : Nat) : Bool := n ≤ d.n + 1

/-- A slot of a stand begins: the one before has had its 160,000 samples, and slot 0 begins at an epoch instant of R81 (R82). -/
def slotDue (s : State) (k : Nat) : Bool :=
  let d := s.stand k
  slotAt d slotSamples && (d.slot != 9 || (pInstant s + (64 - 16 * k) * tickSec) % (64 * tickSec) == 0)

/-- R81 to R84. A slot begins; values that wait for a slot boundary come into use (R104). Once per cycle, as slot 0 begins, the
trims go into the Pioneer record (R37, R94). -/
def execSlotStart (stand : Fin 4) (s : State) : Host.Outcome State Fault Refusal :=
  let k : Nat := stand
  let d := s.stand k
  if d.st == 4 || !slotDue s k then .next s
  else
    let n := nextSlot d
    let s0 := if n == 0 then s.pioUpdate else s
    let s1 := (s0.takeScheduled (fun id => effOf id == .slot && pFam id == 19 && pInst id == k)).onStand k fun x =>
      { x with slot := n, skip := false, n := 0 }
    if d.st != 0 || d.pinReq.isSome && d.phase == 0 then .next s1
    else if d.phase == 2 then .next ((s1.onStand k fun x => { x with runOn := true }).skipSlot k)
    else if n == 9 then
      .next ((s1.onStand k fun x =>
        { x.rematch with phase := 3, spareChan := 0xFE, carrying := false, stored := false, corr := Corr.none }).restBegin k (36 + k))
    else
      let c := slotChan k n
      if chanSource s1 c != 0 || condemned s1 c then .next ((s1.moveSpare k c 5).skipSlot k)
      else .next (s1.moveSpare k c 0)

/-- Completion of a COPPICE_CONTROL action that was answered ACCEPTED_PENDING (R102; assumption 51). -/
def State.coppiceDone (s : State) (k : Nat) : State :=
  s.log (Config.coppiceDoneCode % 65536) ((List.range 14).map (Config.coppiceDoneByte k))

/-- The splice of the first overlap, into a rest or into a pin (R86, R102). -/
def State.spliceIn (s : State) (k c : Nat) (stored : Bool) : State :=
  let s1 := (s.splice k c true).onStand k fun d => { d with stored := stored, first := d.corr }
  match (s.stand k).pinReq with
  | some _ => (s1.onStand k fun d => { d with st := 2, pinChan := c, pinReq := none, phase := 6 }).coppiceDone k
  | none => ((s1.onStand k fun d => { d with phase := 1 }).loadStart c).restBegin k c

/-- The first overlap has run to its end: 0.8 s from the slot's start, or for a pin and for one that was restarted 19,932 pairs
(Table 4-2, R64, R102). -/
def overlapOver (d : Stand) : Bool :=
  if d.pinReq.isSome || d.again then overlapPairs ≤ d.pairs.length else slotAt d 20000

/-- R88, R90. The end of the first overlap: spliced, skipped, or a cross-check fails. A channel whose SOURCE is no longer NORMAL
is passed over (R63). A pin that cannot be matched goes on overlapping (R102). -/
def execFirstOverlapEnd (stand : Fin 4) (s : State) : Host.Outcome State Fault Refusal :=
  let k : Nat := stand
  let d := s.stand k
  let c := d.spareChan
  if d.phase != 0 || 36 ≤ c || !(d.st == 0 || d.pinReq.isSome) || !overlapOver d then .next s
  else
    let m := runMatch s k
    let live := matchLive s k m
    let skips : State := if d.pinReq.isSome then s else (s.onStand k fun x => { x with phase := 5 }).skipSlot k
    if d.pairs.isEmpty || chanSource s c != 0 then .next skips
    else if xcheckBad live m then .next (s.xcheckFail k c live)
    else if live then .next ((s.takeMatch k c true m).spliceIn k c false)
    else if storedUsable s k c then .next ((s.takeMatch k c false m).spliceIn k c true)
    else .next skips

/-! ### The rest (R91 to R93) -/

/-- The converter that rests in a stand. -/
def resting (s : State) (k : Nat) : Option Nat :=
  let d := s.stand k
  if d.requal.isSome then d.requal
  else if d.phase == 1 then some d.spareChan
  else if d.phase == 3 then some (36 + k)
  else none

/-- The rest of a converter takes the linearity check: every LIN_EVERY-th one, and a requalification's (R92, R101, R104). -/
def linDue (s : State) (k v : Nat) : Bool :=
  (s.stand k).requal.isSome || ((s.conv v).rests + 1) % Nat.max 1 (par s (pid 19 k 8)) == 0

/-- The source after a level of the rest: SHORT, +0.5, −0.5 full scale, the five linearity points where they are due, then none
(R92). -/
def nextLevel (lin : Bool) (l : Nat) : Nat :=
  if l < 2 then l + 1 else if l == 2 then (if lin then 3 else 8) else if l < 8 then l + 1 else 8

/-- The gain code of the spare's rest: the code most used in its stand, the lowest on a tie (R91), as the channels have it when
the rest is judged (assumption 108). -/
def spareCode (s : State) (k : Nat) : Nat :=
  let codes := (standChans k).map (chanGain s)
  (List.range 8).foldl (fun best g => if codes.count best < codes.count g then g else best) 0

/-- Gain code at which a converter rests (R91). -/
def restCode (s : State) (v : Nat) : Nat := if v < 36 then chanGain s v else spareCode s (v - 36)

/-- What a rest has measured (R92): the means of raw codes with the input shorted and at ±0.5 full scale, and the INL in ppm of
full scale where the linearity points were measured. -/
structure Rest where
  z : Rat
  cp : Rat
  cn : Rat
  inl : Option Rat
deriving DecidableEq, Repr

/-- Mean of the raw codes of a level. -/
def levelMean (d : Stand) (l : Nat) : Rat :=
  let e := d.meas.getD l (0, 0)
  if e.1 == 0 then 0 else (e.2 : Rat) / (e.1 : Rat)

/-- Samples of a level: 20,000 after 50 ms for the first three, the settled ones of 0.21 s for a linearity point (Table 4-2). -/
def levelFrom (l : Nat) : Nat := if l < 3 then 1250 else 68
def levelTo (l : Nat) : Nat := if l < 3 then 21250 else 5250

/-- R92, Table 4-2. The source has stood its time and moves; the pair's samples settle anew. -/
def execRestSourceSwitch (stand : Fin 4) (s : State) : Host.Outcome State Fault Refusal :=
  let k : Nat := stand
  match resting s k with
  | none => .next s
  | some v =>
    if (s.stand k).dac == 8 || (s.stand k).dacN < levelTo (s.stand k).dac then .next s
    else .next ((s.onStand k fun d => { d with dac := nextLevel (linDue s k v) d.dac, dacN := 0 }).unsettle v)

/-- Every sample of a level has been measured. -/
def levelDone (d : Stand) (l : Nat) : Bool := (d.meas.getD l (0, 0)).1 == levelTo l - levelFrom l

/-- The resting pair's raw code is measured at the source's level (R92, Table 4-2). -/
def State.restStep (s : State) (k : Nat) (raw : Int) (settled : Bool) : State :=
  let d := s.stand k
  let l := d.dac
  let take := settled && l < 8 && levelFrom l ≤ d.dacN && d.dacN < levelTo l
  s.onStand k fun x =>
    { x with dacN := x.dacN + 1, meas := if take then modAt x.meas l fun e => (e.1 + 1, e.2 + raw) else x.meas }

/-- Levels of the five linearity points as fractions of full scale (R92). -/
def linPoints : List Rat := [-4 / 5, -2 / 5, 0, 2 / 5, 4 / 5]

/-- INL of five means after trims: the largest deviation from the least-squares line, in ppm of full scale (R92). -/
def inlOf (ys : List Rat) : Rat :=
  let a := meanQ ys
  let b := sumQ ((linPoints.zip ys).map fun e => e.1 * e.2) / sumQ (linPoints.map fun x => x * x)
  ((linPoints.zip ys).map fun e => absQ (e.2 - a - b * e.1)).foldl (fun m x => if m < x then x else m) 0 * 1000000 / fullScale

/-- The gain error of a rest (R92). -/
def restGain (r : Rest) : Rat := (r.cp - r.cn) / fullScale

/-- The new GAIN_TRIM of a rest (R92). -/
def restTrim (r : Rest) : Nat := if restGain r ≤ 0 then 0 else (roundAway (1073741824 / restGain r)).toNat

/-- The result of a stand's rest on a converter (R92): none while a measurement that belongs to it is incomplete. The linearity
points are taken after the trims in use (assumption 67). -/
def restOf (s : State) (k v : Nat) : Option Rest :=
  let d := s.stand k
  let lin := linDue s k v
  let t := (s.conv v).trim
  let code := fun (l : Nat) => (levelMean d l - (t.off : Rat) / 256) * trimAt s v (restCode s v) / 1073741824
  if levelDone d 0 && levelDone d 1 && levelDone d 2 && (!lin || (List.range 5).all (fun i => levelDone d (3 + i))) then
    some { z := levelMean d 0, cp := levelMean d 1, cn := levelMean d 2,
           inl := if lin then some (inlOf ((List.range 5).map fun i => code (3 + i))) else none }
  else none

/-- The acceptance of R93. -/
def restPasses (s : State) (v : Nat) (r : Rest) : Bool :=
  let e := restGain r
  let old := trimAt s v (restCode s v)
  decide (absQ r.z ≤ fullScale / 200) && decide (absQ (e - 1) ≤ 1 / 50) &&
  decide (absQ ((restTrim r : Rat) - old) * 5000 ≤ old) && decide (absQ ((r.cp + r.cn) / 2 - r.z) ≤ 50) &&
  (match r.inl with
   | none => true
   | some i => decide (i ≤ 50))

/-- LAST_INL and the converter's count of rests. -/
def State.restCount (s : State) (k v : Nat) (r : Rest) : State :=
  let s1 := s.onConv v fun x => { x with rests := x.rests + 1 }
  match r.inl with
  | none => s1
  | some i => (s1.onStand k fun d => { d with lastInl := satN 65535 (quant s 0 i).toNat }).drew 1

/-- The new trims of a rest that passed (R92). -/
def State.newTrims (s : State) (v : Nat) (r : Rest) : State :=
  let code := restCode s v
  s.onConv v fun x =>
    { x with trim := ⟨roundAway (256 * r.z), restTrim r, code, (code, s.clk) :: x.trim.cals.filter (fun e => e.1 != code)⟩ }

/-- P samples of a slot up to its acceptance check: 5.550 s, and 4.750 s in the spare's slot (Tables 4-2 and 4-3). -/
def acceptAt (d : Stand) : Nat := if d.phase == 3 then 118750 else 138750

/-- R93. A rest skipped under R64 leaves the trims as they are; a rest whose measurements are incomplete is not judged, and each
is judged once. -/
def execRestAcceptance (stand : Fin 4) (s : State) : Host.Outcome State Fault Refusal :=
  let k : Nat := stand
  let d := s.stand k
  if d.skip || d.requal.isSome || !slotAt d (acceptAt d) then .next s
  else
    match resting s k with
    | none => .next s
    | some v =>
      match restOf s k v with
      | none => .next s
      | some r =>
        let s1 := (s.restCount k v r).onStand k fun x => { x with meas := List.replicate 8 (0, 0) }
        if restPasses s v r then .next (s1.newTrims v r) else .next (s1.condemn v 0)

/-- R89, Table 4-2. At 5.600 s the home pair is back on its input; the second overlap begins, and the spare's correction moves
from here on. -/
def execHomeReturn (stand : Fin 4) (s : State) : Host.Outcome State Fault Refusal :=
  let k : Nat := stand
  let d := s.stand k
  if d.phase == 1 && d.spareChan < 36 && slotAt d 140000 then
    .next ((s.onStand k fun x => { x.rematch with phase := 2, dac := 8, first := x.corr }).unsettle d.spareChan)
  else .next s

/-- The spare takes a lost channel of its stand, if there is one: of several, the first in slot order (R100; assumption 68). -/
def State.rescue (s : State) (k : Nat) : State :=
  match (standChans k).find? (fun c => (s.chan c).lost) with
  | none => s
  | some c => (s.takeover k c).onChan c fun x => { x with lost := false }

/-- What follows a splice back (R99, R101, R102, R64): a stand without a condemnation rotates again, a PAUSE or a PIN that
waited takes effect, and a run-on overlap gives the slot back to its channel. -/
def State.afterBack (s : State) (k c : Nat) : State :=
  let d := s.stand k
  if d.st == 3 then
    let s1 := (s.onStand k fun x => { x with assign := 0xFF, phase := 5 }).pioUpdate
    if d.condemned == 0 then (s1.onStand k fun x => { x with st := 0 }).shadowFor k (nextSlot d) else s1.rescue k
  else if d.pauseReq then (s.onStand k fun x => { x with st := 1, phase := 5, pauseReq := false }).coppiceDone k
  else
    match d.pinReq with
    | some t => s.moveSpare k t 0
    | none =>
      if d.runOn then (s.onStand k fun x => { x with runOn := false }).shadowFor k d.slot
      else s.onStand k fun x => { x with spareChan := c, phase := 5 }

/-- The second overlap has run to the slot's end, or, one that was restarted, has matched 19,932 pairs (R64); and both pairs
have settled. -/
def backReady (s : State) (k c : Nat) : Bool :=
  settledOn s c c && settledOn s (36 + k) c && !(s.stand k).pairs.isEmpty &&
    (if (s.stand k).again then overlapPairs ≤ (s.stand k).pairs.length else slotAt (s.stand k) slotSamples)

/-- R89, R90. The end of the second overlap: the channel goes back to its home pair, unless a cross-check fails. After a
requalification a match that cannot hold R87 makes no splice, and the overlap goes on (R88). -/
def execSpliceBack (stand : Fin 4) (s : State) : Host.Outcome State Fault Refusal :=
  let k : Nat := stand
  let d := s.stand k
  let c := d.spareChan
  if d.phase != 2 || 36 ≤ c || !backReady s k c then .next s
  else
    let m := runMatch s k
    let live := matchLive s k m && !d.stored
    if xcheckBad live m then .next (s.xcheckFail k c live)
    else if !spliceHolds s k c live then .next s
    else
      .next (((((s.takeMatch k c live m).splice k c false).loadDone c).onStand k fun x =>
        { x.rematch with stored := false, old := none, requalBack := false }).afterBack k c)

/-- R83, Table 4-3. At 4.800 s of slot 9 the spare connects to the channel of slot 0. -/
def execPreshadowConnect (stand : Fin 4) (s : State) : Host.Outcome State Fault Refusal :=
  let k : Nat := stand
  if (s.stand k).phase == 3 && (s.stand k).st == 0 && slotAt (s.stand k) 120000 then
    .next ((s.moveSpare k (slotChan k 0) 4).onStand k fun d => { d with old := none, dac := 8 })
  else .next s

/-! ### COPPICE_CONTROL (R102, R103) -/

def opCoppice : Op := { code := 0x0320, fixed := 2 }

/-- The block of a stand in a reply (Table 4-8). -/
def standBlock (s : State) (k : Nat) : List Byte :=
  let d := s.stand k
  le 1 k ++ le 1 d.st ++ le 1 d.slot ++ le 1 d.phase ++ le 1 d.spareChan ++ le 1 d.pinChan ++ le 2 d.condemned

/-- The stands that STAND names. -/
def standsOf (stand : Nat) : List Nat := if stand == 0xFF then [0, 1, 2, 3] else [stand]

/-- Reply after STATUS. -/
def coppiceReply (s : State) (stand : Nat) : List Byte :=
  let l := standsOf stand
  le 1 l.length ++ zeros 1 ++ l.flatMap (standBlock s)

/-- An action on one stand, or on each in which it is permitted (R103). -/
def coppiceAct (stand : Nat) (permitted : Stand → Bool) (f : State → Nat → State × Bool) (s : State) : Ans :=
  let r := (standsOf stand).foldl
    (fun (a : State × Bool) k =>
      if permitted (a.1.stand k) then
        let b := f a.1 k
        (b.1, a.2 || b.2)
      else a) (s, false)
  ⟨r.1, if r.2 then .pending else .ok, coppiceReply r.1 stand⟩

/-- STAND names no stand, or one in which the action is not permitted. -/
def standBad (s : State) (stand : Nat) (all : Bool) (permitted : Stand → Bool) : Bool :=
  if stand == 0xFF then !all else 3 < stand || !permitted (s.stand stand)

/-- R102. QUERY needs no stage of the ladder; another action code is refused here. -/
def execCoppiceQuery (h : Hdr) (stand : Nat) (badAction : Bool) (s : State) : Host.Outcome State Fault Refusal :=
  .next (serve opCoppice h (h.len == 4)
    (fun s => [(badAction && locked s, .locked), (badAction || standBad s stand true (fun _ => true), .valueRange)])
    (fun s => ⟨s, .ok, coppiceReply s stand⟩) s)

/-- PAUSE on one stand; true when it waits for the splice back (Table 4-7). -/
def pauseStand (s : State) (k : Nat) : State × Bool :=
  let d := s.stand k
  if d.phase == 1 || d.phase == 2 then (s.onStand k fun x => { x with pauseReq := true, pinReq := none }, true)
  else if d.phase == 3 then
    ((((s.abortSpareRest k).moveSpare k (slotChan k 0) 5).onStand k fun x => { x with st := 1 }), false)
  else (s.onStand k fun x => { x with st := 1, phase := 5, pinReq := none }, false)

/-- R102. A TARGET other than 0xFF is not looked at, here and with QUERY, ROTATE and UNPIN (assumption 109). -/
def execCoppicePause (h : Hdr) (stand : Nat) (s : State) : Host.Outcome State Fault Refusal :=
  .next (serve opCoppice h (h.len == 4)
    (fun s => [(locked s, .locked), (standBad s stand true (fun d => d.st == 0), .valueRange)])
    (coppiceAct stand (fun d => d.st == 0) pauseStand) s)

/-- The pinned channel goes back to its home pair. -/
def State.unpin (s : State) (k : Nat) : State :=
  let d := s.stand k
  if d.st == 2 then
    (s.splice k d.pinChan false).onStand k fun x => { x with st := 1, phase := 5, pinChan := 0xFF }
  else s

/-- ROTATE on one stand (Table 4-7). In a ROTATING stand it withdraws a pause or pin that waits. -/
def rotateStand (s : State) (k : Nat) : State × Bool :=
  let d := s.stand k
  let s1 := (s.unpin k).onStand k fun x => { x with st := 0, pauseReq := false, pinReq := none }
  if d.st == 0 && !(d.phase == 0 && d.pinReq.isSome) then (s1, false) else (s1.shadowFor k (nextSlot d), false)

/-- R102. -/
def execCoppiceRotate (h : Hdr) (stand : Nat) (s : State) : Host.Outcome State Fault Refusal :=
  .next (serve opCoppice h (h.len == 4)
    (fun s => [(locked s, .locked), (standBad s stand true (fun d => d.st ≤ 2), .valueRange)])
    (coppiceAct stand (fun d => d.st ≤ 2) rotateStand) s)

/-- The spare shadows a channel (R97). -/
def shadowing (s : State) (k c : Nat) : Bool :=
  let d := s.stand k
  d.spareChan == c && !d.carrying && (s.conv (36 + k)).unsP == 0 && (d.phase == 0 || d.phase == 4 || d.phase == 5)

/-- PIN on one stand (Table 4-7). A shadow whose match cannot hold R87 overlaps first (R88). -/
def pinStand (c : Nat) (s : State) (k : Nat) : State × Bool :=
  let d := s.stand k
  let m := runMatch s k
  let live := matchLive s k m
  if d.st == 2 && d.pinChan == c then (s, false)
  else if shadowing s k c && spliceHolds s k c live then
    (((s.takeMatch k c live m).splice k c true).onStand k fun x => { x with st := 2, pinChan := c, pinReq := none, phase := 6 }, false)
  else if d.phase == 1 || d.phase == 2 then (s.onStand k fun x => { x with pinReq := some c, pauseReq := false }, true)
  else ((((s.abortSpareRest k).unpin k).moveSpare k c 0).onStand k fun x => { x with pinReq := some c }, true)

/-- R102, R103. -/
def execCoppicePin (h : Hdr) (stand target : Nat) (s : State) : Host.Outcome State Fault Refusal :=
  .next (serve opCoppice h (h.len == 4)
    (fun s => [(locked s, .locked),
      (standBad s stand false (fun d => d.st ≤ 2) || 35 < target || standOf target != stand, .valueRange)])
    (coppiceAct stand (fun _ => true) (pinStand target)) s)

/-- R102. -/
def execCoppiceUnpin (h : Hdr) (stand : Nat) (s : State) : Host.Outcome State Fault Refusal :=
  .next (serve opCoppice h (h.len == 4)
    (fun s => [(locked s, .locked), (standBad s stand false (fun d => d.st == 2), .valueRange)])
    (coppiceAct stand (fun _ => true) (fun s k => (s.unpin k, false))) s)

/-- R102, R103. -/
def execCoppiceShadow (h : Hdr) (stand target : Nat) (s : State) : Host.Outcome State Fault Refusal :=
  .next (serve opCoppice h (h.len == 4)
    (fun s => [(locked s, .locked),
      (standBad s stand false (fun d => d.st == 1) || 35 < target || standOf target != stand, .valueRange)])
    (coppiceAct stand (fun _ => true)
      (fun s k => ((s.moveSpare k target 5).onStand k fun x => { x with pinReq := none }, false))) s)

/-- A requalification that another one of the stand replaces ends: a home pair comes back to its input, the spare to no channel. -/
def State.endRequal (s : State) (k : Nat) : State :=
  match (s.stand k).requal with
  | none => s
  | some v =>
    if v < 36 then (s.onStand k fun d => { d with requal := none, old := none }).unsettle v
    else s.onStand k fun d => { d with requal := none, old := none, phase := 5, spareChan := 0xFF }

/-- R101, R103. A converter under test leaves its input; the spare itself goes to its rest. -/
def execCoppiceRequalify (h : Hdr) (stand target : Nat) (s : State) : Host.Outcome State Fault Refusal :=
  .next (serve opCoppice h (h.len == 4)
    (fun s => [(locked s, .locked), (!canWrite s h.path 2, .authFail),
      (standBad s stand false (fun d => d.st == 3) || 39 < target || standOfConv target != stand || !condemned s target,
       .valueRange)])
    (coppiceAct stand (fun _ => true)
      (fun s k =>
        (((s.endRequal k).restBegin k target).onStand k fun x =>
          if target < 36 then { x with requal := some target }
          else { x.rematch with requal := some target, old := none, phase := 3, spareChan := 0xFE }, true))) s)

/-- A requalified home converter takes its channel back: after a second overlap of 19,932 pairs when the spare carries it, else
at once, settling anew, and the spare assignment that named it returns to 0xFF (R99, R100, R101). -/
def State.requalHome (s : State) (k v : Nat) : State :=
  let d := s.stand k
  if d.carrying && d.spareChan == v then
    (s.onStand k fun x => { x with phase := 2, stored := false, pairs := [], again := true, requalBack := true, first := x.corr }).unsettle v
  else
    let s1 := ((s.onChan v fun x => { x with lost := false }).onStand k fun x => { x with old := none }).unsettle v
    let s2 := if d.assign == v then (s1.onStand k fun x => { x with assign := 0xFF }).pioUpdate else s1
    if d.condemned == 0 then (s2.onStand k fun x => { x with st := 0 }).shadowFor k (nextSlot d) else s2

/-- A requalified spare shadows again, or takes a lost channel (R100, R101). -/
def State.requalSpare (s : State) (k : Nat) : State :=
  let d := s.stand k
  if d.condemned == 0 then (s.onStand k fun x => { x with st := 0 }).shadowFor k (nextSlot d)
  else (s.onStand k fun x => { x with spareChan := 0xFF, phase := 5 }).rescue k

/-- R101. The result of a requalification rest, once all its measurements with the linearity check are complete: a pass clears
the condemnation and is logged, with channel 0xFF for a spare (assumption 69); the end of one that fails is logged as any action's
(R102). -/
def execRequalifyResult (stand : Fin 4) (s : State) : Host.Outcome State Fault Refusal :=
  let k : Nat := stand
  match (s.stand k).requal with
  | none => .next s
  | some v =>
    match restOf s k v with
    | none => .next s
    | some r =>
      let s1 := (s.restCount k v r).onStand k fun d =>
        { d with requal := none, old := if v < 36 then d.old else none, phase := if v < 36 then d.phase else 5, spareChan := if v < 36 then d.spareChan else 0xFF }
      if restPasses s v r then
        let s2 := ((s1.newTrims v r).onConv v fun x => { x with stuck := false }).onStand k fun d =>
          { d with condemned := clrBit d.condemned (condBit v) }
        let s3 := s2.storeDevice.log 0x0302 (le 1 v ++ le 1 (if v < 36 then v else 0xFF))
        .next (if v < 36 then s3.requalHome k v else s3.requalSpare k)
      else .next ((s1.onStand k fun d => { d with old := none }).coppiceDone k)

end Sys2Proof.Machine
end

