-- ==== Sys2Proof/Machine/Decimate.lean ====
section
/-! DEFINITION. The decimation chain of a converter, from its bit stream to the P and W codes (R126, Table 6-1), and the limits that
R127 sets on the coefficients that the spec leaves open. -/

namespace Sys2Proof.Machine

/-! ### Finite impulse responses -/

/-- Sum of two lists, the longer one's rest kept. -/
def addLists : List Rat → List Rat → List Rat
  | [], b => b
  | a, [] => a
  | x :: a, y :: b => (x + y) :: addLists a b

/-- The impulse response of two filters in a row. -/
def convolve (a b : List Rat) : List Rat := a.foldr (fun x r => addLists (b.map (x * ·)) (0 :: r)) []

/-- A filter's output for the newest of its samples, newest first; what lies before them is 0. -/
def firAt (taps xs : List Rat) : Rat := (taps.zip xs).foldl (fun a e => a + e.1 * e.2) 0

/-- The newest `n` outputs of a stage that decimates by `f`, newest first. -/
def decimate (taps : List Rat) (f : Nat) : Nat → List Rat → List Rat
  | 0, _ => []
  | n + 1, xs => firAt taps xs :: decimate taps f n (xs.drop f)

/-! ### The stages (Table 6-1) -/

/-- The CIC: five running means over its factor, 16. -/
def cicTaps : List Rat :=
  let box : List Rat := List.replicate 16 (1 / 16)
  convolve box (convolve box (convolve box (convolve box box)))

/-- A half-band filter: 1/2 in the centre and every second coefficient beside it 0, symmetric. -/
def halfBand (side : List Rat) : List Rat :=
  let r := side.flatMap fun x => [x, 0]
  r.reverse ++ [1 / 2] ++ r

/-- A symmetric filter: its phase is linear (R127). -/
def symmetric (side : List Rat) (centre : Rat) : List Rat := side.reverse ++ [centre] ++ side

/-- Coefficients of the stages: 0 the CIC, 1 half-band 1, 2 half-band 2 with the CIC's droop compensated, 3 and 4 the FIR decimators. -/
def stageTaps (k : Nat) : List Rat :=
  if k == 0 then cicTaps else if k == 1 then halfBand (Config.decimSide 1) else symmetric (Config.decimSide k) (Config.decimCentre k)

/-- Frames of the bit stream that reach the newest sample (Table 6-2: full settling). -/
def settleFrames : Nat := 68

/-- The bits of a frame as ±1, newest first. -/
def bitValues (b : Nat) : List Rat := (List.range 960).map fun i => if bitAt b (959 - i) then 1 else -1

/-- The code of a filtered value, of 24 bits (R57). -/
def decimCode (x : Rat) : Int := clampI 8388607 (Config.decimRound (Config.bitScale * x))

/-- The newest 375 kHz samples of a bit stream given in frames, newest first: the W stream. -/
def wStream (frames : List Nat) : List Rat :=
  let n := frames.length
  decimate (stageTaps 2) 2 (15 * n) (decimate (stageTaps 1) 2 (30 * n) (decimate (stageTaps 0) 16 (60 * n) (frames.flatMap bitValues)))

/-- What the chain delivers for the newest of its frames: both streams share the first three stages, and P goes on through two more
(R126). -/
def decimated (frames : List Nat) (marks : List Nat) : Dec :=
  let w := wStream frames
  let p := decimate (stageTaps 4) 3 1 (decimate (stageTaps 3) 5 (3 * frames.length) w)
  ⟨decimCode (p.headD 0), ((w.take 15).reverse).map decimCode, marks⟩

/-! ### Limits on the open coefficients -/

/-- Gain of a symmetric filter at a frequency and a sample rate, in Hz. -/
def firGain (taps : List Rat) (rate f : Rat) : Rat :=
  (taps.mapIdx fun k x => x * Config.cosDeg (360 * f * ((k : Rat) - ((taps.length : Rat) - 1) / 2) / rate)).foldl (· + ·) 0

/-- Gain of the W stream and of the P stream at an input frequency. -/
def wGain (f : Rat) : Rat := firGain (stageTaps 0) 24000000 f * firGain (stageTaps 1) 1500000 f * firGain (stageTaps 2) 750000 f
def pGain (f : Rat) : Rat := wGain f * firGain (stageTaps 3) 375000 f * firGain (stageTaps 4) 75000 f

/-- A gain within a band, up to a sign. -/
def gainIn (lo hi g : Rat) : Prop := (lo ≤ g ∧ g ≤ hi) ∨ (lo ≤ -g ∧ -g ≤ hi)

/-- Table 6-2: passband ripple of ±0.002 dB and ±0.02 dB, stopband attenuation of 100 dB and 85 dB, as bounds of the gain. A claim that
needs them takes this as a hypothesis: nothing in the model fixes the coefficients (assumption 61). -/
def StreamLimits : Prop :=
  (∀ f, 0 ≤ f → f ≤ 10000 → gainIn (999770 / 1000000) (1000230 / 1000000) (pGain f)) ∧
  (∀ f, 15000 ≤ f → f ≤ 12000000 → gainIn 0 (1 / 100000) (pGain f)) ∧
  (∀ f, 0 ≤ f → f ≤ 150000 → gainIn (99770 / 100000) (100230 / 100000) (wGain f)) ∧
  (∀ f, 225000 ≤ f → f ≤ 12000000 → gainIn 0 (5623 / 100000000) (wGain f))

end Sys2Proof.Machine
end

