-- ==== Sys2Proof/Machine/Filter.lean ====
section
/-! DEFINITION. The shaping filters' commands: stop, load, start, bank writes and swaps (R132 to R153). -/

namespace Sys2Proof.Machine

/-! ### Coefficient sets (R134 to R136) -/

/-- Signed words of bytes. -/
def s32s (n : Nat) (bs : List Byte) : List Int := (List.range n).map (fun k => toSigned 32 (fieldAt bs (4 * k) 4))

/-- A coefficient set as Table 6-4 lays it out; fields of unused biquads are ignored. -/
def coefSet (bs : List Byte) : CoefSet :=
  { id := fieldAt bs 4 4, taps := s32s (byteAt bs 0).toNat (bs.drop 48),
    biquads := (List.range (byteAt bs 1).toNat).map (fun k => s32s 5 (bs.drop (8 + 20 * k))) }

/-- |a2| ≥ 1 or |a1| ≥ 1 + a2 (R136). -/
def biquadBad (b : List Int) : Bool :=
  decide (2 ^ 28 ≤ (b.getD 4 0).natAbs) || decide (2 ^ 28 + b.getD 4 0 ≤ ((b.getD 3 0).natAbs : Int))

/-- A set that is refused (R136). -/
def setBad (bs : List Byte) : Bool :=
  128 < (byteAt bs 0).toNat || 2 < (byteAt bs 1).toNat || (coefSet bs).biquads.any biquadBad

/-- LENGTH of a request that carries a set (R136). -/
def setLen (h : Hdr) (bs : List Byte) : Bool := h.len == 4 + bs.length && h.len == 52 + 4 * (byteAt bs 0).toNat

/-! ### FILTER_STATE and replies (R152, Table 6-18) -/

/-- FILTER_STATE of a channel. -/
def filterWord (f : Filt) : Nat :=
  flagAt f.stopped 0 + flagAt f.actB 2 +
  (match f.swap with
   | none => 0
   | some w => if w.fading then 16 else 8) +
  flagAt f.held.isSome 5 + flagAt (f.load.isSome || f.loading.isSome) 6 + flagAt f.bankB.isSome 7

/-- Reply of the filter opcodes after STATUS (R152). -/
def filterReply (s : State) (c : Nat) : List Byte := zeros 2 ++ le 4 (filterWord (s.filt c))

/-- SET_ID of a bank. -/
def bankId (f : Filt) (b : Bool) : Nat := if b then (f.bankB.map CoefSet.id).getD 0 else f.bankA.id

/-! ### FILTER_STOP, FILTER_LOAD, FILTER_START (R142 to R146) -/

def opFilterStop : Op := { code := 0x0301, fixed := 6 }

/-- R145. -/
def State.filterStop (s : State) (c : Nat) : State :=
  let f := s.filt c
  let s1 := (s.cancelLoad c).cancelLoading c
  let s2 := match f.swap with
    | none => s1
    | some w => s1.log 0x0307 (le 1 c ++ zeros 3 ++ le 4 (bankId f w.toB))
  s2.onFilt c fun x => { x with stopped := true, swap := none, held := none }

/-- R144, R145, R152. -/
def execFilterStop (h : Hdr) (chan : Nat) (s : State) : Host.Outcome State Fault Refusal :=
  .next (serve opFilterStop h (h.len == 4) (fun s => [(locked s, .locked), (35 < chan, .valueRange)])
    (fun s =>
      let s1 := if (s.filt chan).stopped then s else s.filterStop chan
      ⟨s1, .ok, filterReply s1 chan⟩) s)

def opFilterLoad : Op := { code := 0x0302, fixed := 6 }

/-- A KEEP set has no place: no free biquad slot of the Pioneer record, or too few page pairs of P2 (R146, R343). -/
def keepFull (s : State) (c : Nat) (bs : List Byte) : Bool :=
  let l := setsWith s.hw.p2Sets c bs
  8 < (l.filter (fun e => 0 < setBiquads e.2)).length || 56 < pairsUsed l

/-- The set becomes the channel's committed bank A set, unless P2 does not take it (R146, R343, R357). -/
def State.keepPut (s : State) (c : Nat) (bs : List Byte) : State × Bool :=
  let r := (s.onHw fun h => { h with p2Sets := setsWith h.p2Sets c bs }).layoutSets
  if r.2 then (r.1.pioUpdate, true) else (r.1.onHw fun h => { h with p2Sets := s.hw.p2Sets }, false)

/-- A set kept where no answer reports a failure. -/
def State.keepSet (s : State) (c : Nat) (bs : List Byte) : State := (s.keepPut c bs).1

/-- The instances on a channel: the home pair's, and the spare's while it is on the channel (R137). -/
def State.onInsts (s : State) (c : Nat) (f : Inst → Inst) : State :=
  let s1 := s.onInst c f
  if (s.stand (standOf c)).spareChan == c then s1.onInst (36 + standOf c) f else s1

/-- The set is written to bank A of a stopped filter, and A becomes active (Table 6-7). -/
def State.writeBankA (s : State) (c : Nat) (b : CoefSet) (keep : Bool) : State :=
  (s.onFilt c fun f =>
    { f with bankA := b, actB := false, owed := false, pioReload := pioNext f b keep (blockIdx s.now) }).onInsts c fun x =>
      { x with stA := zeroStates b.biquads.length }

/-- R136, R142, R146, R152. -/
def execFilterLoad (h : Hdr) (chan : Nat) (keep : Bool) (set : List Byte) (s : State) :
    Host.Outcome State Fault Refusal :=
  .next (serve opFilterLoad h (setLen h set)
    (fun s =>
      let f := s.filt chan
      [(locked s, .locked), (keep && !canWrite s h.path 2, .authFail), (35 < chan || setBad set, .valueRange),
       (keep && keepFull s chan set, .valueRange), (f.swap.isSome || f.held.isSome, .bankBusy),
       (!f.stopped && ((s.stand (standOf chan)).st == 3 || chanSource s chan != 0), .stopRequired)])
    (fun s =>
      let b := coefSet set
      let (s1, kept) := if keep then s.keepPut chan set else (s, true)
      if !kept then ⟨s1, .internalFault, zeros 6⟩
      else if (s.filt chan).stopped then
        let s2 := s1.writeBankA chan b keep
        ⟨s2, .ok, filterReply s2 chan⟩
      else
        let s2 := s1.onFilt chan fun f => { f with load := some (b, keep) }
        ⟨s2, .pending, filterReply s2 chan⟩) s)

def opFilterStart : Op := { code := 0x0303, fixed := 6 }

/-- The active bank. -/
def activeBank (f : Filt) : CoefSet := if f.actB then f.bankB.getD CoefSet.empty else f.bankA

/-- BQ_SETTLE of a channel. -/
def bqSettle (s : State) (c : Nat) : Nat := par s (pid 16 c 5)

/-- Every instance on the channel restarts from a cleared state (R145). -/
def State.filterStart (s : State) (c : Nat) : State :=
  let q := bqSettle s c
  let g := s.filt c
  (s.onFilt c fun f => { f with stopped := false, change := true, uns := Nat.max f.uns (68 + (activeBank f).taps.length + q) }).onInsts c
    fun _ => ⟨[], zeroStates g.bankA.biquads.length, zeroStates ((g.bankB.map (fun b => b.biquads.length)).getD 0), []⟩

/-- R145, R152. A running filter is left running. -/
def execFilterStart (h : Hdr) (chan : Nat) (s : State) : Host.Outcome State Fault Refusal :=
  .next (serve opFilterStart h (h.len == 4) (fun s => [(locked s, .locked), (35 < chan, .valueRange)])
    (fun s =>
      let s1 := if (s.filt chan).stopped then s.filterStart chan else s
      ⟨s1, .ok, filterReply s1 chan⟩) s)

/-! ### Bank B (R147 to R150) -/

def opBankWrite : Op := { code := 0x0304, fixed := 6 }

/-- R136, R147, R152. -/
def execBankWrite (h : Hdr) (chan : Nat) (set : List Byte) (s : State) : Host.Outcome State Fault Refusal :=
  .next (serve opBankWrite h (setLen h set)
    (fun s =>
      let f := s.filt chan
      [(locked s, .locked), (35 < chan || setBad set, .valueRange), (f.actB || f.swap.isSome, .bankBusy)])
    (fun s =>
      let b := coefSet set
      let s1 := (s.onFilt chan fun f => { f with bankB := some b }).onInsts chan fun x =>
        { x with stB := zeroStates b.biquads.length }
      ⟨s1, .ok, filterReply s1 chan⟩) s)

/-- A swap to the inactive bank starts; the incoming bank's biquad states are zero at n0 (R148). -/
def State.startSwap (s : State) (c prime fade : Nat) : State :=
  let f := s.filt c
  (s.onFilt c fun g => { g with swap := some ⟨!g.actB, prime, fade, false, 0, bqSettle s c⟩ }).onInsts c fun x =>
    if f.actB then { x with stA := zeroStates f.bankA.biquads.length }
    else { x with stB := zeroStates ((f.bankB.map (fun b => b.biquads.length)).getD 0) }

def opBankSwap : Op := { code := 0x0305, fixed := 6 }

/-- Hold a request, displacing the one that waits (R149). -/
def State.holdSwap (s : State) (c prime fade : Nat) : State :=
  let f := s.filt c
  let s1 := s.onFilt c fun x => { x with held := some (prime, fade) }
  if f.held.isSome then
    (s1.onFilt c fun x => { x with displaced := u32 (x.displaced + 1) }).log 0x0308 (le 1 c ++ zeros 3 ++ le 4 (bankId f f.actB))
  else s1

/-- R149, R152. -/
def execBankSwap (h : Hdr) (chan prime fade : Nat) (s : State) : Host.Outcome State Fault Refusal :=
  .next (serve opBankSwap h (h.len == 8)
    (fun s =>
      let f := s.filt chan
      [(locked s, .locked), (35 < chan || 4095 < fade || (!f.actB && f.bankB.isNone), .valueRange),
       (f.stopped, .stopRequired), (f.load.isSome || f.loading.isSome, .bankBusy)])
    (fun s =>
      if (s.filt chan).swap.isSome then
        let s1 := s.holdSwap chan prime fade
        ⟨s1, .pending, filterReply s1 chan⟩
      else
        let s1 := s.startSwap chan prime fade
        ⟨s1, .ok, filterReply s1 chan⟩) s)

/-- R148. After PRIME samples the first sample of the incoming bank carries FILTER_CHANGE, and BQ_SETTLE − PRIME samples are
unsettled, with BQ_SETTLE as it stood at the start of the swap (R153). -/
def execBankSwapFadeStart (chan : Fin 36) (s : State) : Host.Outcome State Fault Refusal :=
  match (s.filt chan).swap with
  | none => .next s
  | some w =>
    if w.fading || w.n < w.prime then .next s
    else
      .next (s.onFilt chan fun f =>
        { f with swap := some { w with fading := true, n := 0 }, change := true, uns := Nat.max f.uns (w.settle - w.prime) })

/-- R148, R149. After FADE samples the incoming bank alone gives the output; a held request swaps back at once. -/
def execBankSwapEnd (chan : Fin 36) (s : State) : Host.Outcome State Fault Refusal :=
  match (s.filt chan).swap with
  | none => .next s
  | some w =>
    if !w.fading || w.n < w.fade then .next s
    else
      let s1 := s.onFilt chan fun f => { f with actB := w.toB, swap := none, held := none }
      match (s.filt chan).held with
      | none => .next s1
      | some (p, d) => .next (s1.startSwap chan p d)

end Sys2Proof.Machine
end

