-- ==== Sys2Proof/Machine/Recorder.lean ====
section
/-! DEFINITION. The waveform recorder (R168 to R172). -/

namespace Sys2Proof.Machine

/-- First ID of a capture unit's members (Table 7-15). -/
def cuBase (u : Nat) : Nat := pid 4 0 (8 + 5 * u)

/-- LAG in instants of the stream (R168). -/
def cuLag (cfg : Nat) : Nat := if bitAt cfg 0 then 18750 else 1250

/-- B, bytes of one packed instant (R168). -/
def cuInstantBytes (mask : Nat) : Nat := 4 * ((3 * (maskChans mask).length + 3) / 4)

/-- Slots that the committed configuration gives a unit's region (R168). -/
def cuSlots (s : State) (u : Nat) : Nat :=
  let b := cuBase u
  let cfg := par s b
  par s (b + 4) * 1024 / (48 + cuInstantBytes (par s (b + 1)) * (par s (b + 2) + cuLag cfg + par s (b + 3)))

/-- Slots in use: held captures and the one in progress. -/
def CapUnit.used (c : CapUnit) : Nat := c.held.length + (if c.cur.isSome then 1 else 0)

/-- Index of the oldest capture that is not being read. -/
def oldestFree (l : List Capture) : Option Nat := l.findIdx? (fun c => c.reading.isNone)

/-- Arm the next free slot (R169), or act by FULL_POLICY (R171). -/
def CapUnit.next (c : CapUnit) : CapUnit :=
  if c.used < c.slots then { c with st := 1, kept := [] }
  else if bitAt c.cfg 1 then
    match oldestFree c.held with
    | some k => { c with st := 1, kept := [], held := c.held.eraseIdx k, missed := u32 (c.missed + 1) }
    | none => { c with st := 3, kept := [] }
  else { c with st := 3, kept := [] }

/-- A free slot or an unread capture ends FULL (R171). -/
def CapUnit.unfull (c : CapUnit) : CapUnit := if c.st == 3 then c.next else c

/-- Bytes of a capture: header (Table 7-8) and packed instants (R170). -/
def captureBytes (unit : Nat) (c : Capture) : List Byte :=
  le 2 0x4350 ++ le 1 unit ++ le 1 c.stream ++ le 4 c.no ++ le 8 c.mask ++ le 10 (time80 c.t) ++ le 1 c.source ++
  le 1 c.flagsOr ++ le 4 c.eventId ++ le 4 c.pre ++ le 4 c.post ++ le 2 c.retriggers ++ le 2 (ofSigned 16 c.offset) ++
  zeros 4 ++ c.data.flatMap packCodes

/-- Number of the trigger sample in the unit's stream, and the trigger's offset from it (R169, R120). -/
def cuTrigger (cfg t : Nat) : Nat × Int :=
  if bitAt cfg 0 then (wNearest t, trigOffset ((t : Rat) * 3 / 524288000 - (wNearest t : Rat)))
  else (pNearest t, trigOffset ((t : Rat) / (pTick : Rat) - (pNearest t : Rat)))

/-- Number of an instant in the unit's stream. -/
def cuNo (cfg t : Nat) : Nat := if bitAt cfg 0 then wIdx (t + 1) else pIdx t

/-- An instant joins the capture in progress: the first one from the trigger sample on takes the pre-trigger instants kept with it,
and POST instants are recorded (R169, R170). -/
def Capture.take (k : Capture) (lead : List (Nat × List Int × Nat)) (codes : List Int) (flags : Nat) : Capture :=
  if k.data.length + lead.length < k.pre + lead.length + k.post then
    { k with pre := k.pre + lead.length, data := k.data ++ lead.reverse.map (·.2.1) ++ [codes],
             flagsOr := (lead.foldl (fun a x => a.lor x.2.2) k.flagsOr).lor flags }
  else k

/-- One more instant of the unit's stream: kept while armed and, after the trigger, until the trigger sample comes; recorded from
that on (R169). -/
def CapUnit.sample (c : CapUnit) (t : Nat) (codes : List Int) (flags : Nat) : CapUnit :=
  if c.st == 1 then { c with kept := ((t, codes, flags) :: c.kept).take (c.pre + cuLag c.cfg) }
  else if c.st == 2 then
    if cuNo c.cfg t < c.trig then { c with kept := ((t, codes, flags) :: c.kept).take c.pre }
    else { c with trig := 0, kept := [], cur := c.cur.map fun k => k.take c.kept codes flags }
  else c

/-- A trigger reaches a unit (R169, R171, R172); in the post phase of a capture it adds a retrigger and links its event. -/
def State.capture (s : State) (u t source eventId : Nat) : State :=
  s.onUnit u fun c =>
    if c.st == 1 then
      let (n, o) := cuTrigger c.cfg t
      let before := (c.kept.filter (fun k => cuNo c.cfg k.1 < n)).take c.pre
      let after := (c.kept.filter (fun k => n ≤ cuNo c.cfg k.1)).reverse
      let no := c.nextNo
      after.foldl (fun x k => x.sample k.1 k.2.1 k.2.2)
        { c with st := 2, nextNo := u32 (no + 1), kept := before, trig := Nat.max n 1,
                 cur := some ⟨no, t, source, eventId, 0, 0, c.post, 0, o, c.mask, c.cfg % 2, [], [], false, none⟩ }
    else if c.st == 2 then
      { c with cur := c.cur.map fun k =>
          { k with retriggers := satN 65535 (k.retriggers + 1), eventId := if k.eventId == 0 then eventId else k.eventId,
                   linked := if eventId == 0 then k.linked else k.linked ++ [eventId] } }
    else if c.st == 3 then { c with missed := u32 (c.missed + 1) }
    else c

/-! ### RECORDER_CONTROL -/

def opRecorder : Op := { code := 0x0410, fixed := 18 }

/-- Reply of RECORDER_CONTROL after STATUS. SLOTS above 255 reads 255 (assumption 31). -/
def recorderReply (c : CapUnit) : List Byte :=
  le 1 c.st ++ le 1 (satN 255 c.held.length) ++ le 1 (satN 255 c.slots) ++ zeros 3 ++
  le 4 ((c.held.head?.map Capture.no).getD 0) ++ le 4 ((c.held.getLast?.map Capture.no).getD 0) ++ le 4 c.missed

/-- R169, Table 7-12. -/
def execRecorderQuery (h : Hdr) (unit : Nat) (badAction : Bool) (s : State) : Host.Outcome State Fault Refusal :=
  .next (serve opRecorder h (h.len == 4) (fun _ => [(3 < unit || badAction, .valueRange)])
    (fun s => ⟨s, .ok, recorderReply (s.unit unit)⟩) s)

/-- R168, R169. Arming a unit that runs changes nothing (assumption 31). -/
def execRecorderArm (h : Hdr) (unit : Nat) (s : State) : Host.Outcome State Fault Refusal :=
  .next (serve opRecorder h (h.len == 4)
    (fun s => [(3 < unit, .valueRange), (par s (cuBase unit + 1) == 0 || cuSlots s unit == 0, .valueRange)])
    (fun s =>
      let b := cuBase unit
      let s1 := s.onUnit unit fun c =>
        if c.st == 0 then
          CapUnit.next { c with slots := cuSlots s unit, cfg := par s b, mask := par s (b + 1), pre := par s (b + 2),
                                post := par s (b + 3) }
        else c
      ⟨s1, .ok, recorderReply (s1.unit unit)⟩) s)

/-- R169. Held captures stay; one in its post phase is not completed. -/
def execRecorderStop (h : Hdr) (unit : Nat) (s : State) : Host.Outcome State Fault Refusal :=
  .next (serve opRecorder h (h.len == 4) (fun _ => [(3 < unit, .valueRange)])
    (fun s =>
      let s1 := s.onUnit unit fun c => { c with st := 0, kept := [], cur := none, due := [], trig := 0 }
      ⟨s1, .ok, recorderReply (s1.unit unit)⟩) s)

/-- R169, Table 7-12. The trigger acts at the instant of acceptance, with source code 0 (COMMAND). -/
def execRecorderTrigger (h : Hdr) (unit : Nat) (s : State) : Host.Outcome State Fault Refusal :=
  .next (serve opRecorder h (h.len == 4) (fun _ => [(3 < unit, .valueRange)])
    (fun s =>
      let s1 := s.capture unit s.now 0 0
      ⟨s1, .ok, recorderReply (s1.unit unit)⟩) s)

/-- R169, R172. The oldest trigger on its way to the unit reaches it. -/
def execCaptureTrigger (unit : Fin 4) (s : State) : Host.Outcome State Fault Refusal :=
  match (s.unit unit).due with
  | [] => .next s
  | (t, source, eventId) :: r => .next ((s.onUnit unit fun c => { c with due := r }).capture unit t source eventId)

/-- R169. A capture with all its POST instants is completed: CAPTURE_DONE, its interrupt, and the next slot. -/
def execCaptureDone (unit : Fin 4) (s : State) : Host.Outcome State Fault Refusal :=
  match (s.unit unit).cur with
  | some k =>
    if (s.unit unit).trig != 0 || k.data.length < k.pre + k.post then .next s
    else
      let s1 := (s.qX 50 0 (unit * 2 ^ 24 + k.no % 2 ^ 24) k.t).irq 11
      .next (s1.onUnit unit fun c => CapUnit.next { c with cur := none, held := c.held ++ [{ k with done := true }] })
  | none => .next s

/-! ### CAPTURE_READ and CAPTURE_RELEASE (R171) -/

def opCaptureRead : Op := { code := 0x0411, bulk := some true, fixed := 6 }

/-- A held capture by number. -/
def heldCapture (s : State) (unit no : Nat) : Option Capture := (s.unit unit).held.find? (fun c => c.no == no)

/-- TOTAL of a held capture; 0 when none is held. -/
def captureTotal (s : State) (unit no : Nat) : Nat := ((heldCapture s unit no).map (fun c => (captureBytes unit c).length)).getD 0

/-- R171, Table 7-13. -/
def execCaptureRead (h : Hdr) (unit no offset maxBytes : Nat) (s : State) : Host.Outcome State Fault Refusal :=
  .next (serve opCaptureRead h (h.len == 16)
    (fun s =>
      [(s.lk.hushed, .hushed), (3 < unit, .valueRange), ((heldCapture s unit no).isNone, .valueRange),
       (captureTotal s unit no ≤ offset, .valueRange), (maxBytes < 4 || 4064 < maxBytes, .valueRange)])
    (fun s =>
      match heldCapture s unit no with
      | none => refuse s opCaptureRead .valueRange
      | some c =>
        let bs := captureBytes unit c
        let s1 := s.onUnit unit fun u =>
          { u with held := u.held.map fun k => if k.no == no then { k with reading := some s.clk } else k }
        ⟨s1, .ok, zeros 2 ++ le 4 bs.length ++ (bs.drop offset).take maxBytes⟩) s)

def opCaptureRelease : Op := { code := 0x0412, fixed := 2 }

/-- R171, Table 7-14. -/
def execCaptureRelease (h : Hdr) (unit no : Nat) (s : State) : Host.Outcome State Fault Refusal :=
  .next (serve opCaptureRelease h (h.len == 8)
    (fun s => [(3 < unit, .valueRange), (no != 0xFFFFFFFF && (heldCapture s unit no).isNone, .valueRange)])
    (fun s =>
      let s1 := s.onUnit unit fun c =>
        CapUnit.unfull { c with held := if no == 0xFFFFFFFF then [] else c.held.filter (fun k => k.no != no) }
      ⟨s1, .ok, zeros 2⟩) s)

/-- R171. Ten seconds without a CAPTURE_READ end a capture's reading. -/
def execCaptureReadTimeout (unit : Fin 4) (no : Nat) (s : State) : Host.Outcome State Fault Refusal :=
  if (heldCapture s unit no).any (fun k => k.reading.any (fun c => c + 10 * 128000000 ≤ s.clk)) then
    .next (s.onUnit unit fun c =>
      CapUnit.unfull { c with held := c.held.map fun k => if k.no == no then { k with reading := none } else k })
  else .next s

end Sys2Proof.Machine
end

