-- ==== Sys2Proof/Machine/DspOps.lean ====
section
/-! DEFINITION. The sample chain of one 40 µs frame: clamp, trims, phase delay, correction, shaping filters, flags, the stands' matches
and measurements, history and recorder (R57, R75 to R79, R85, R92, R126 to R151). -/

namespace Sys2Proof.Machine

/-- Clamp level in codes (R57). -/
def clampLevel : Int := 7077888

/-- P samples of one nominal period for cycle repeat (Table 6-6). -/
def nominalSamples (s : State) : Nat := if par s (pid 2 0 0) == 60 then 417 else 500

/-- The channel that a converter is on. -/
def chanOf (s : State) (v : Nat) : Option Nat :=
  if v < 36 then some v
  else
    let c := (s.stand (v - 36)).spareChan
    if c < 36 then some c else none

/-! ### From the decimation chain to the match point (R75, R76, R85, R92, R126 to R130) -/

/-- P samples by which the chain's newest decimated sample is ahead of the one that a frame delivers: what the advance of the
phase-delay interpolator takes (R127, R129, R130; assumption 70). -/
def reserve : Nat := 10

/-- What a chain has delivered: the newest decimated samples, newest first. -/
def convIn (s : State) (v i : Nat) : Dec := (s.conv v).pipe.getD i ⟨0, [], []⟩

/-- In free mode the grid resampler places a sample on the counter's grid: the instant lies this part of a P sample after the newest
common edge of the root, which come every 5,120 TIME cycles from the modulators' start on (R256, R464). -/
def gridAhead (s : State) : Rat := if freeMode s then (((s.clk - s.pw.modClk) % 5120 : Nat) : Rat) / 5120 else 0

/-- Place of the delivered instant behind the newest decimated P sample (R127, R256). -/
def pPlace (s : State) : Rat := ((reserve : Nat) : Rat) - gridAhead s

/-- The P code of a converter for the instant that a frame delivers, before the clamp. -/
def labelP (s : State) (v : Nat) : Int := (convIn s v reserve).p

/-- A raw code after clamp and trims, at the gain of a channel (R75, R92). -/
def trimmed (s : State) (v c : Nat) (raw : Int) : Rat :=
  ((clampI clampLevel raw : Int) - ((s.conv v).trim.off : Rat) / 256) * trimAt s v (chanGain s c) / 1073741824

/-- PHASE_DELAY of a channel in steps of 40 µs/65,536 (R129). -/
def phaseSteps (s : State) (c : Nat) : Int := parS s 32 (pid 17 c 5)

/-- The correction of a converter's output on a channel: the spare's (R85). -/
def corrOf (s : State) (v : Nat) : Corr := if v < 36 then Corr.none else (s.stand (v - 36)).corr

/-- Phase delay of a converter on a channel; the sum exceeds ±80 µs by at most 100 ns (R130). -/
def delaySteps (s : State) (v c : Nat) : Int := clampI 131235 (phaseSteps s c + (corrOf s v).steps)

/-- P samples of a converter after trims, newest first. -/
def trimmedP (s : State) (v c : Nat) : List Rat := ((s.conv v).pipe.take 40).map fun x => trimmed s v c x.p

/-- W samples of a converter after trims, newest first. -/
def trimmedW (s : State) (v c : Nat) : List Rat := ((s.conv v).pipe.take 16).flatMap fun x => x.w.reverse.map (trimmed s v c)

/-- The P sample at the point of R85: after trims and the channel's phase delay. -/
def matchPoint (s : State) (v c : Nat) : Rat :=
  tapAt (trimmedP s v c) (pPlace s + (phaseSteps s c : Rat) / 65536)

/-- A sample corrected where the spare serves: (s − o) × m (R85). -/
def Corr.apply (k : Corr) (x : Rat) : Rat := (x - k.off) * k.gain

/-- Corrected P sample of a converter on a channel (R85, R129, R130). -/
def pSample (s : State) (v c : Nat) : Rat :=
  (corrOf s v).apply (tapAt (trimmedP s v c) (pPlace s + (delaySteps s v c : Rat) / 65536))

/-- Corrected W sample `j` of a frame: the same delay in W samples (R85, R130). -/
def wSample (s : State) (v c j : Nat) : Rat :=
  (corrOf s v).apply
    (tapAt (trimmedW s v c) (15 * pPlace s + ((14 - j : Nat) : Rat) + (delaySteps s v c : Rat) * 15 / 65536))

/-- Places of the overrange marks of a converter relative to the delivered instant, in MOD cycles: entry `i` of the pipe was
taken in during the 40 µs that end 34 − i P samples after it (R76). -/
def markPlaces (s : State) (v : Nat) : List Int :=
  ((s.conv v).pipe.take 68).mapIdx (fun i x => x.marks.map fun m => (33 - (i : Int)) * 960 + (m : Int)) |>.flatten

/-- A converter's delivered P sample is clamped, or within ±34 P samples of a mark (R75, R76). -/
def overP (s : State) (v : Nat) : Bool :=
  decide (clampLevel < ((labelP s v).natAbs : Int)) || (markPlaces s v).any fun m => decide (m.natAbs ≤ 34 * 960)

/-- W sample `j` of the delivered frame is clamped, or within ±12 W samples of a mark (R75, R76). -/
def overW (s : State) (v j : Nat) : Bool :=
  decide (clampLevel < (((convIn s v reserve).w.getD j 0).natAbs : Int)) ||
    (markPlaces s v).any fun m => decide ((m - 64 * (j : Int)).natAbs ≤ 12 * 64)

/-- Input of an instance or of the Pioneer branch on a channel (Table 6-6): `v` is the converter it stands behind, `ring` its
own earlier inputs. Until a nominal period of them is kept, a repeat takes the converter's own sample (assumption 113). -/
def chainInput (s : State) (ring : List Rat) (v c : Nat) : Rat :=
  let u := serving s c
  let lost := (s.chan c).lost
  if settledOn s v c && !lost then pSample s v c
  else if u != v && settledOn s u c && !lost then pSample s u c
  else (ring[nominalSamples s - 1]?).getD (pSample s v c)

/-- Input of the instance behind a converter (Table 6-6). -/
def instInput (s : State) (v c : Nat) : Rat := chainInput s (s.inst v).ring v c

/-- Input of a channel's Pioneer branch, which no bank action reaches (R140). -/
def pioInput (s : State) (c : Nat) : Rat := chainInput s (s.filt c).pioRing (serving s c) c

/-! ### Filter arithmetic (R132, R133) -/

/-- The FIR over a history, newest first (R132). -/
def firOut (taps : List Int) (hist : List Rat) : Rat :=
  if taps.isEmpty then hist.headD 0
  else ((taps.zip hist).foldl (fun a e => a + (e.1 : Rat) * e.2) 0) / 1073741824

/-- One biquad: its output and new states (R132). -/
def biquadStep (b : List Int) (st : List Rat) (v : Rat) : Rat × List Rat :=
  let g := fun n => ((b.getD n 0 : Int) : Rat)
  let y := Config.filterRound
    ((g 0 * v + g 1 * st.getD 0 0 + g 2 * st.getD 1 0 - g 3 * st.getD 2 0 - g 4 * st.getD 3 0) / 268435456)
  (y, [v, st.getD 0 0, y, st.getD 2 0])

/-- Biquads in turn. -/
def biquadsStep : List (List Int) → List (List Rat) → Rat → Rat × List (List Rat)
  | [], _, v => (v, [])
  | b :: r, st, v =>
    let (y, n) := biquadStep b (st.headD []) v
    let (z, ns) := biquadsStep r st.tail y
    (z, n :: ns)

/-- One bank on an instance. -/
def bankStep (b : CoefSet) (hist : List Rat) (st : List (List Rat)) : Rat × List (List Rat) :=
  biquadsStep b.biquads st (firOut b.taps hist)

/-- The instance behind a converter takes its input: new state, and the outputs of banks A and B (R137, R148). -/
def instStep (s : State) (v c : Nat) : Inst × Rat × Rat :=
  let f := s.filt c
  let x := s.inst v
  if f.stopped then (x, 0, 0)
  else
    let i := instInput s v c
    let hist := (i :: x.hist).take 128
    let own := v < 36 && f.loading.isSome
    let setA := if own then (f.loading.map (·.1)).getD CoefSet.empty else f.bankA
    let runA := own || !f.actB || f.swap.isSome
    let runB := !own && (f.actB || f.swap.isSome)
    let (a, sa) := if runA then bankStep setA hist x.stA else (0, x.stA)
    let (b, sb) := if runB then bankStep (f.bankB.getD CoefSet.empty) hist x.stB else (0, x.stB)
    (⟨hist, sa, sb, (i :: x.ring).take 500⟩, a, b)

/-- The shaped output from the two banks: outgoing, crossfade, or incoming (R148), with the XFADE mark. -/
def shaped (f : Filt) (a b : Rat) : Rat × Bool :=
  let act := if f.actB then b else a
  match f.swap with
  | none => (act, false)
  | some w =>
    let new := if w.toB then b else a
    if !w.fading then (act, false)
    else if w.n < w.fade then
      let k : Rat := ((w.n + 1 : Nat) : Rat) / ((w.fade + 1 : Nat) : Rat)
      ((1 - k) * act + k * new, true)
    else (new, false)

/-- Limit of the shaped output (R133). -/
def shapedLimit : Int := 8388607

/-- What one channel delivers in a frame. -/
structure ChanOut where
  p : Int
  flags : Nat
  w : List Int
  wf : List Nat
  /-- The Pioneer branch: its input, its sample, whether unsettled, and its new biquad states. -/
  pin : Rat
  pio : Rat
  pioUns : Bool
  pioSt : List (List Rat)
  /-- The sample is clamped (R76, R77). -/
  ovr : Bool
deriving DecidableEq, Repr

/-- The sample phase is off the grid by more than 10 ns (R261). -/
def offGrid (s : State) : Bool := decide (655360 < s.te.align.natAbs)

/-- No settled converter delivers the channel. -/
def chanDead (s : State) (c : Nat) : Bool := !settledOn s (serving s c) c || (s.chan c).lost

/-- The P and W samples of one channel (R72 to R79, R126 to R130, R151, R261). A sample near an overrange mark that a reset has
unsettled carries both flags (assumption 106). -/
def chanOut (s : State) (c : Nat) : ChanOut :=
  let v := serving s c
  let f := s.filt c
  let ch := s.chan c
  let spare := flagAt (36 ≤ v) 3
  let (_, a, b) := instStep s v c
  let (y, xf) := shaped f a b
  let code := roundAway y
  let lim := decide (shapedLimit < (code.natAbs : Int))
  let dead := chanDead s c
  let uns := dead || ch.unsP != 0 || f.uns != 0 || f.stopped
  let flags := flagAt uns 7 + flagAt (overP s v || lim) 4 + flagAt xf 5 + spare +
    flagAt (f.change || bitAt ch.markP 0) 0 + flagAt (s.te.stepP || offGrid s) 1 + flagAt (bitAt ch.markP 6) 6
  let raw := (List.range 15).map fun i => quant s (64 + 15 * c + i) (wSample s v c i)
  let wf := raw.mapIdx fun i r =>
    flagAt (ch.lost || i < (s.conv v).unsW || i < ch.unsW || (v < 36 && homeAway (s.stand (standOf c)) c)) 7 +
    flagAt (overW s v i || decide (clampLevel < (r.natAbs : Int))) 4 + spare +
    flagAt ((i == 0 && s.te.stepW) || offGrid s) 1 + flagAt (i == 0 && bitAt ch.markW 6) 6
  let pin := pioInput s c
  let (py, pst) := if f.pioBq.isEmpty then (pin, []) else biquadsStep f.pioBq f.pioSt pin
  { p := if f.stopped then 0 else clampI shapedLimit code, flags := flags, w := raw.map (clampI clampLevel), wf := wf, pin := pin,
    pio := py, pioUns := dead || ch.unsP != 0 || f.pioUns != 0, pioSt := pst, ovr := overP s v }

/-! ### What a frame leaves behind -/

/-- A clamp event is counted at its first clamped sample and ends after 68 unclamped ones (R77); a sample that an overrange mark
makes SATURATED counts as clamped (assumption 107). -/
def Chan.clamp (x : Chan) (ovr : Bool) : Chan :=
  if ovr then { x with satCount := if x.clampOpen then x.satCount else u32 (x.satCount + 1), clampOpen := true, clampQuiet := 0 }
  else if x.clampOpen then
    { x with clampQuiet := x.clampQuiet + 1, clampOpen := decide (x.clampQuiet + 1 < 68) }
  else x

/-- A channel after its frame. -/
def Chan.took (x : Chan) (o : ChanOut) : Chan :=
  { x.clamp o.ovr with
    p := o.p, flagsP := o.flags, w := o.w.getLast?.getD 0, flagsW := o.wf.getLast?.getD 0,
    unsP := x.unsP - 1, unsW := x.unsW - 15, peak := Nat.max x.peak o.p.natAbs,
    satBlock := x.satBlock || bitAt o.flags 4, unsBlock := x.unsBlock || bitAt o.flags 7, markP := 0, markW := 0 }

/-- A filter after its frame. -/
def Filt.took (f : Filt) (o : ChanOut) : Filt :=
  { f with uns := if f.stopped then f.uns else f.uns - 1, change := false, pioSt := o.pioSt, pioUns := f.pioUns - 1,
           pioRing := (o.pin :: f.pioRing).take 500, swap := f.swap.map fun w => { w with n := w.n + 1 } }

/-- One more code of the STUCK test: a run begins with a settled sample and grows while the code before the clamp stays (R78).
-/
def Conv.count (x : Conv) (code : Int) : Conv :=
  if x.unsP != 0 then { x with run := 0 }
  else if x.run != 0 && x.runCode == code then { x with run := x.run + 1 }
  else { x with run := 1, runCode := code }

/-- A converter after its frame. -/
def Conv.took (x : Conv) (code : Int) (ovr : Bool) : Conv :=
  { x.count code with ovr := ovr, resetNow := false, unsP := x.unsP - 1, unsW := x.unsW - 15 }

/-- A converter's decimation chain takes one frame of its bit stream (R126). -/
def Conv.fed (x : Conv) (i : ConvIn) : Conv :=
  let b := (i.bits :: x.bits).take settleFrames
  { x with bits := b, pipe := (decimated b i.marks :: x.pipe).take 69 }

/-- The decimation chains take one frame. -/
def State.intake (s : State) (ins : List ConvIn) : State :=
  { s with convs := (s.convs.zip ins).map fun e => e.1.fed e.2 }

/-- The chain moves on by one P instant. -/
def State.chainStep (s : State) (outs : List ChanOut) : State :=
  { s with
    insts := (List.range 40).map (fun v => match chanOf s v with
      | some c => (instStep s v c).1
      | none => s.inst v),
    chans := (s.chans.zip outs).map (fun e => e.1.took e.2),
    filts := (s.filts.zip outs).map (fun e => e.1.took e.2),
    convs := s.convs.mapIdx (fun v x => x.took (labelP s v) (overP s v)) }

/-- The 4 ms history (R122), and the queue's stream (R162). -/
def State.pushSnap (s : State) (t : Nat) (outs : List ChanOut) : State :=
  let x : Snap := ⟨t, outs.map (·.p), outs.map (·.flags), outs.map (·.w), outs.map (·.wf)⟩
  { s with hist := (x :: s.hist).take 100, qu := s.qu.offer x }

/-- Codes and OR of flags of a unit's channels. -/
def maskSamples (mask : Nat) (p : List Int) (f : List Nat) : List Int × Nat :=
  let l := snapChans mask p f
  (l.map (·.2.1), l.foldl (fun a e => a.lor e.2.2) 0)

/-- A recorder unit takes the frame's instants of its stream (R168, R169). -/
def CapUnit.frame (u : CapUnit) (t : Nat) (outs : List ChanOut) : CapUnit :=
  if u.st != 1 && u.st != 2 then u
  else if bitAt u.cfg 0 then
    (List.range 15).foldl
      (fun x i =>
        let (c, f) := maskSamples u.mask (outs.map (fun o => o.w.getD i 0)) (outs.map (fun o => o.wf.getD i 0))
        x.sample (wTime (15 * pIdx t + i)) c f) u
  else
    let (c, f) := maskSamples u.mask (outs.map (·.p)) (outs.map (·.flags))
    u.sample t c f

/-! ### Clamps and resets that one of two converters shows (R79) -/

/-- A converter shows an overload now: its latest sample is clamped, or the newest input carries a mark. -/
def showsNow (s : State) (v : Nat) : Bool := (s.conv v).ovr || !(convIn s v 0).marks.isEmpty

/-- The converter of a stand that shows a clamp or a modulator reset which the other converter on its channel, settled, does
not: a converter fault (R79). Resets of one overload fall into one frame (R75), so they are compared at its end. -/
def clampVerdict (s : State) (k : Nat) : Option Nat :=
  let c := (s.stand k).spareChan
  let p := 36 + k
  if 36 ≤ c || homeAway (s.stand k) c then none
  else
    let rh := (s.conv c).resetNow
    let rp := (s.conv p).resetNow
    if rh && !rp && settledOn s p c && !showsNow s p then some c
    else if rp && !rh && settledOn s c c && !showsNow s c then some p
    else if settledOn s c c && settledOn s p c then
      (if overP s c && !overP s p then some c else if overP s p && !overP s c then some p else none)
    else none

/-! ### What a frame brings the stands (R85, R92, R106) -/

/-- A stand takes a frame: the count of its slot, a pair of its running match, the measurement of a resting pair, and a sample
of its probe. -/
def State.standFrame (s : State) (k : Nat) : State :=
  let d := s.stand k
  if d.st == 4 then s
  else
    let c := d.spareChan
    let s1 := s.onStand k fun x => { x with n := x.n + 1 }
    let s2 := if c < 36 then s1.matchStep k (matchPoint s c c) (matchPoint s (36 + k) c) else s1
    let s3 := match resting s k with
      | some v => s2.restStep k (labelP s v) ((s.conv v).unsP == 0)
      | none => s2
    match d.active with
    | none => s3
    | some q =>
      let v := serving s q.chan
      let bad := chanDead s q.chan || (s.chan q.chan).unsP != 0 || overP s v
      if 10000 ≤ d.probe.length then s3
      else s3.onStand k fun x => { x with probe := matchPoint s v q.chan :: x.probe, probeBad := x.probeBad || bad }

/-- The sample-phase error moves towards zero at SLEW_MAX (R261). -/
def State.alignStep (s : State) : State :=
  let step : Int := (2621440000 * par s (pid 7 0 5) / 1000000000 : Nat)
  s.onTe fun t =>
    let a := if t.align < 0 then (if t.align + step < 0 then t.align + step else 0)
      else (if 0 < t.align - step then t.align - step else 0)
    { t with align := a, realigning := t.realigning && decide (655360 < a.natAbs), stepP := false, stepW := false }

end Sys2Proof.Machine
end

