-- ==== Sys2Proof/Machine/EnergyOps.lean ====
section
/-! DEFINITION. Energy kernels of both engines over a frame, calibration pulses, and the closing of a block (R174 to R197). -/

namespace Sys2Proof.Machine

/-! ### Primary values (R72) -/

/-- Primary units of one code of a channel (R72). -/
def primaryScale (s : State) (c : Nat) : Rat :=
  codeWeight (chanGain s c) * parF s (pid 16 c 3) * (par s (pid 17 c 0) : Rat) / 1073741824

/-- Primary value of the full-scale sine rms of a channel, in 1/√2 units: full scale peak. -/
def fullScalePrimary (s : State) (c : Nat) : Rat := primaryScale s c * 6291456

/-! ### One frame (R177, R185) -/

/-- A channel's primary value in one engine and whether it is a substitute. -/
structure Val where
  x : Rat
  sub : Bool
  sat : Bool
deriving DecidableEq, Repr

/-- The value of the full engine: the P entry, or the value one nominal period earlier when it is UNSETTLED (R185). A missing
earlier value is a free value. -/
def fullVal (s : State) (outs : List ChanOut) (c : Nat) : Val :=
  match outs[c]? with
  | none => ⟨0, false, false⟩
  | some o =>
    let sub := bitAt o.flags 7
    let x := if sub then
        ((s.me.ringF.getD c [])[nominalSamples s - 1]?).getD ((Config.freeInt (s.free + 604 + c) : Int) : Rat)
      else (o.p : Rat) * primaryScale s c
    ⟨x, sub, bitAt o.flags 4⟩

/-- The value of Pioneer, from its branch (R185, R195). -/
def pioVal (s : State) (outs : List ChanOut) (c : Nat) : Val :=
  match outs[c]? with
  | none => ⟨0, false, false⟩
  | some o =>
    let x := if o.pioUns then
        ((s.me.ringP.getD c [])[nominalSamples s - 1]?).getD ((Config.freeInt (s.free + 640 + c) : Int) : Rat)
      else o.pio * primaryScale s c
    ⟨x, o.pioUns, o.ovr⟩

/-- Values of all channels. -/
def frameVals (f : Nat → Val) : List Val := (List.range 36).map f

/-- A value of a list; zero for a channel that does not exist. -/
def valOf (l : List Val) (c : Nat) : Val := l.getD c ⟨0, false, false⟩

/-! ### The fundamental (R178) -/

/-- NOMINAL_HZ. -/
def nominalHz (s : State) : Rat := if par s (pid 2 0 0) == 60 then 60 else 50

/-- Frequency that the demodulator of a bus tracks: its fundamental, or NOMINAL_HZ without a reference phase (R178). -/
def trackHz (s : State) (b : Nat) : Rat := if (refPhase s b).isNone then nominalHz s else (pqBus s b).f1

/-- The fundamental analytic signal of a channel at its newest sample, in rms units: the quadrature demodulator over the latest
samples with substitutes in place, newest first (R178, R185). -/
def fundamental (f : Rat) (l : List Rat) : Rat × Rat :=
  (sumQ (l.mapIdx fun i x => x * Config.demodTap f i * Config.cosDeg (360 * f * (i : Rat) / 25000)),
   sumQ (l.mapIdx fun i x => x * Config.demodTap f i * Config.cosDeg (360 * f * (i : Rat) / 25000 - 90)))

/-- Square of the demodulator's output at a tracked frequency for a sine of amplitude 1 and rms 1/√2 at a frequency and phase. -/
def demodSq (hz f phase : Rat) : Rat :=
  let y := fundamental hz ((List.range 500).map fun i => Config.cosDeg (phase - 360 * f * (i : Rat) / 25000))
  y.1 ^ 2 + y.2 ^ 2

/-- R178: unit gain within ±0.01 % over ±5 Hz about nominal, and 80 dB against harmonic orders 2 to 63 of the tracked frequency. A claim
that needs them takes this as a hypothesis: nothing in the model fixes the demodulator's coefficients (assumption 61). -/
def DemodLimits (nominal : Rat) : Prop :=
  ∀ hz phase, nominal - 5 ≤ hz → hz ≤ nominal + 5 →
    (99980001 / 200000000 ≤ demodSq hz hz phase ∧ demodSq hz hz phase ≤ 100020001 / 200000000) ∧
    ∀ n : Nat, 2 ≤ n → n ≤ 63 → demodSq hz (n * hz) phase ≤ 1 / 200000000

/-- V1·I1* (Table 8-3). -/
def fundPower (v i : Rat × Rat) : Rat × Rat := (v.1 * i.1 + v.2 * i.2, v.2 * i.1 - v.1 * i.2)

/-- V1·I1* of an element at a sample, from the full engine's rings before it and the sample's values. -/
def elemFund (s : State) (vals : List Val) (e : Nat) : Rat × Rat :=
  let f := trackHz s (busOf (voltChan s e))
  let sig := fun (c : Nat) => fundamental f (((valOf vals c).x :: s.me.ringF.getD c []).take 500)
  fundPower (sig (voltChan s e)) (sig (curChan s e))

/-- One more sample of an element (Table 8-3). -/
def ElemAcc.add (a : ElemAcc) (v i : Val) (f : Rat × Rat) (nom long : Bool) : ElemAcc :=
  { n := a.n + 1, vi := a.vi + v.x * i.x, vv := a.vv + v.x * v.x, ii := a.ii + i.x * i.x, p1 := a.p1 + f.1, q1 := a.q1 + f.2,
    est := a.est || v.sub || i.sub, sat := a.sat || v.sat || i.sat, freqNom := a.freqNom || nom,
    long := a.long || long }

/-- One more sample of a circuit's apparent and tamper sums (R177, R194). -/
def circAdd (s : State) (vals : List Val) (c : Nat) (a : CircAcc) : CircAcc :=
  let es := circElems s c
  let v := es.map (fun e => (valOf vals (voltChan s e)).x)
  let i := es.map (fun e => (valOf vals (curChan s e)).x)
  let isum := i.foldl (· + ·) 0
  let n := (neutral s c).map (fun e => e.2 * (valOf vals e.1).x)
  let third := if es.length == 3 then n.getD isum else -isum
  let d1 := v.getD 0 0 - v.getD 1 0
  let d2 := v.getD 1 0 - v.getD 2 0
  let d3 := v.getD 2 0 - v.getD 0 0
  let vll := if es.length == 3 then d1 * d1 + d2 * d2 + d3 * d3
    else v.getD 0 0 * v.getD 0 0 + v.getD 1 0 * v.getD 1 0 + (v.getD 1 0 - v.getD 0 0) * (v.getD 1 0 - v.getD 0 0)
  let r := isum - n.getD 0
  let vn := (valOf vals (4 * circBus s c + 3)).x
  { ix := a.ix + third * third, vll := a.vll + vll, res := a.res + r * r, vn := a.vn + vn * vn }

/-- The Pioneer path has a record: a valid one, or a rebuilt one from its block boundary on (R36). -/
def recordInForce (s : State) : Bool := s.hw.pioSeq.isSome && !s.hw.pioWait

/-- Pioneer meters: a record is in force and the modulators deliver (R31, R36). -/
def pioMeters (s : State) : Bool := s.pw.phase == .metering && recordInForce s

/-- Samples after which a substitution is long (R184): 5 s. -/
def longSamples : Nat := 125000

/-- An element's substitution runs after a frame (R185). -/
def ElemRun.took (r : ElemRun) (subF subP fullRuns settled : Bool) : ElemRun :=
  let eff := if fullRuns then subF else subP
  { r with subst := if subF then r.subst + 1 else 0, substPio := if subP then r.substPio + 1 else 0,
           logged := r.logged && eff, settled := r.settled || settled }

/-- The length of an element's substitution that ESTIMATED_BLOCKS and the log follow (R185). -/
def substRun (s : State) (e : Nat) : Nat :=
  let r := s.me.elemRun.getD e ElemRun.reset
  if s.me.fromB1 then r.subst else r.substPio

/-- Log METRO_SUBST_LONG once per element and episode (R185). -/
def State.substLog (s : State) (e : Nat) : State :=
  let r := s.me.elemRun.getD e ElemRun.reset
  if elemOn s e && longSamples ≤ substRun s e && !r.logged then
    (s.onMe fun m => { m with elemRun := modAt m.elemRun e fun x => { x with logged := true } }).log 0x0204 (le 1 e)
  else s

/-- Push a value on a cycle-repeat ring of one channel. -/
def ringPush (l : List Rat) (x : Rat) : List Rat := (x :: l).take 500

/-- Both engines take a frame of values. -/
def State.energyFrame (s : State) (fv pv : List Val) : State :=
  let nomA := (refPhase s 0).isNone
  let nomB := (refPhase s 1).isNone
  let meters := pioMeters s
  let m := s.me
  let runs := (List.range 28).map fun e =>
    let r := m.elemRun.getD e ElemRun.reset
    if elemOn s e then
      let (v, i) := (voltChan s e, curChan s e)
      r.took ((valOf fv v).sub || (valOf fv i).sub) ((valOf pv v).sub || (valOf pv i).sub) m.fromB1
        (meters && !(valOf pv v).sub && !(valOf pv i).sub)
    else r
  let elemF := (List.range 28).map fun e =>
    let a := m.elemF.getD e ElemAcc.zero
    if m.fromB1 && elemOn s e then
      a.add (valOf fv (voltChan s e)) (valOf fv (curChan s e)) (elemFund s fv e) (if busOf (voltChan s e) == 0 then nomA else nomB)
        (decide (longSamples ≤ (runs.getD e ElemRun.reset).subst))
    else a
  let elemP := (List.range 28).map fun e =>
    let a := m.elemP.getD e ElemAcc.zero
    if meters && elemOn s e && (runs.getD e ElemRun.reset).settled then
      a.add (valOf pv (voltChan s e)) (valOf pv (curChan s e)) (0, 0) false
        (decide (longSamples ≤ (runs.getD e ElemRun.reset).substPio))
    else a
  let circF := (List.range 28).map fun c =>
    let a := m.circF.getD c CircAcc.zero
    if m.fromB1 && !(circElems s c).isEmpty then circAdd s fv c a else a
  let s1 := s.onMe fun m =>
    { m with ringF := if m.kernels then (m.ringF.zip fv).map (fun e => ringPush e.1 e.2.x) else m.ringF,
             ringP := (m.ringP.zip pv).map (fun e => ringPush e.1 e.2.x),
             elemF := elemF, elemP := elemP, circF := circF, elemRun := runs, blockN := m.blockN + 1 }
  (List.range 28).foldl State.substLog s1

/-! ### Calibration pulses (R189 to R192) -/

/-- Elements of a CF target: one element, or those of a circuit. -/
def cfElems (s : State) (k : Nat) : List Nat :=
  let t := par s (pid 26 k 1)
  if bitAt t 7 then circElems s (bitsAt t 0 5) else [bitsAt t 0 5]

/-- An output is enabled. -/
def cfOn (s : State) (k : Nat) : Bool := bitAt (par s (pid 26 k 2)) 0

/-- A quantity that Pioneer can pulse (R189). -/
def pioQuantity (q : Nat) : Bool := q == 0 || q == 1 || q == 14

/-- An output waits for the full engine (CF_STATUS bit WAITING). -/
def cfWaiting (s : State) (k : Nat) : Bool := cfOn s k && !pioQuantity (par s (pid 26 k 0)) && !s.me.fromB1

/-- What a CF quantity follows sample by sample (Table 8-2, Table 8-3): total active, fundamental active or fundamental reactive
power; apparent energy exists for a block alone. -/
inductive Flow where
  | total | active | reactive | block
deriving DecidableEq, Repr

def flowOf (q : Nat) : Flow :=
  if pioQuantity q then .total
  else if q == 2 || q == 3 then .active
  else if q < 8 || q == 12 || q == 13 then .reactive
  else .block

/-- Energy of a sample of an element in the full engine, in µWh or µvarh (R182). -/
def sampleFull (s : State) (vals : List Val) (flow : Flow) (e : Nat) : Rat :=
  if !elemOn s e || !s.me.fromB1 then 0
  else
    match flow with
    | .total => (valOf vals (voltChan s e)).x * (valOf vals (curChan s e)).x / 90
    | .active => (elemFund s vals e).1 / 90
    | .reactive => (elemFund s vals e).2 / 90
    | .block => 0

/-- Energy of a sample of an element in Pioneer, in µWh (R182). -/
def samplePio (s : State) (vals : List Val) (e : Nat) : Rat :=
  if elemOn s e && (s.me.elemRun.getD e ElemRun.reset).settled then
    (valOf vals (voltChan s e)).x * (valOf vals (curChan s e)).x / 90
  else 0

/-- Pulse weight in force in µWh (R190, R192). -/
def cfWeight (s : State) (k : Nat) (c : Cf) : Rat :=
  let w : Rat := par s (pid 26 k 4)
  if c.test then w / ((2 ^ par s (pid 26 k 5) : Nat) : Rat) else w

/-- Pulses that a frame may start: one, ten frames apart (R191); in test mode up to 40 kHz, eight in five frames (R192). -/
def cfRoom (c : Cf) (n : Nat) : Nat :=
  if c.test then 8 * (n + 1) / 5 - 8 * n / 5 else if 10 ≤ c.since + 1 then 1 else 0

/-- Where a frame's pulses start, in TIME cycles of 7.8125 ns after the P instant: at it, or in test mode where the accumulator,
growing from `a` by `e` over the 40 µs, crosses each weight (R190, R192). -/
def cfEdges (test : Bool) (a e w : Rat) (n : Nat) : List Nat :=
  (List.range n).map fun j =>
    if !test || e ≤ 0 then 0 else (roundAway ((((j + 1 : Nat) : Rat) * w - a) / e * 5120)).toNat

/-- Intervals in TIME cycles between each of a frame's pulse starts and the start before it; the start before the frame lies `back`
cycles before its P instant. -/
def cfGaps (back : Int) (last : Nat) : List Nat → List Nat
  | [] => []
  | o :: r => (back + o - last).toNat :: cfGaps 0 o r

/-- One output takes a frame: delivery of the energy of the sample one block earlier, and pulses (R189 to R192). An output that
waits for the full engine pulses nothing. -/
def cfStep (s : State) (fv pv : List Val) (k : Nat) (c : Cf) : Cf :=
  if !cfOn s k then c
  else
    let flow := flowOf (par s (pid 26 k 0))
    let e := c.ready.headD 0
    let acc := c.acc + e
    let w := cfWeight s k c
    let n := if cfWaiting s k then 0 else Nat.min (acc / w).floor.toNat (cfRoom c s.me.blockN)
    let left := acc - (n : Rat) * w
    let ed := cfEdges c.test c.acc e w n
    let iv := cfGaps (((c.since + 1 : Nat) : Int) * 5120 - c.lastOff) 0 ed
    { c with openE := c.openE ++ [(cfElems s k).map (sampleFull s fv flow)],
             openP := if flow == .total then c.openP ++ [(cfElems s k).map (samplePio s pv)] else c.openP,
             ready := c.ready.drop 1, acc := left, count := u32 (c.count + n), clipped := decide (w < left),
             pulse := c.pulse || n != 0, edges := ed, ends := ed.zipWith (fun o i => o + i / 2) iv,
             lastOff := ed.getLast?.getD c.lastOff, interval := iv.getLast?.getD c.interval, since := if n == 0 then c.since + 1 else 0 }

/-- Length of an output's pulse in TIME cycles: WIDTH_MS, or half the interval between the last two starts, in whole 40 µs, where
that is shorter than two widths (R191); in test mode always half the interval (R192). -/
def cfWidth (s : State) (k : Nat) (c : Cf) : Nat :=
  let w := cycMs * par s (pid 26 k 3)
  if c.test then c.interval / 2 else if c.interval < 2 * w then c.interval / 10240 * 5120 else w

/-- The pulse in progress ends in the present frame, or has had its length before it. -/
def cfOver (s : State) (k : Nat) (c : Cf) : Bool := c.lastOff + cfWidth s k c < (c.since + 1) * 5120

/-- In test mode an output is in a pulse at some TIME cycles after the latest frame's P instant: in one that the frame has started,
or in one that an earlier frame has (R192). -/
def cfTestHigh (c : Cf) (x : Nat) : Bool :=
  (c.edges.zip c.ends).any (fun e => e.1 ≤ x && x < e.2) || (c.edges.isEmpty && c.since * 5120 + x < c.lastOff + c.interval / 2)

/-- Level of an output: low while inactive, or high with ACTIVE_LOW (R189); low until a Pioneer record is in force (R36). -/
def cfLevel (s : State) (k : Nat) : Bool :=
  ((s.me.cfs.getD k Cf.reset).pulse && cfOn s k && !cfWaiting s k && recordInForce s) != (bitAt (par s (pid 26 k 2)) 1 && recordInForce s)

/-- All outputs take a frame; without a Pioneer record in force they stay low (R33, R36). -/
def State.cfFrame (s : State) (fv pv : List Val) : State :=
  if pioMeters s then s.onMe fun m => { m with cfs := m.cfs.mapIdx (cfStep s fv pv) } else s

/-! ### The stream that power quality and phasors read (R203, R228) -/

/-- Bit map of the places of a list that a predicate selects. -/
def mapBits {α : Type} (l : List α) (p : α → Bool) : Nat := packFlags (l.map p)

/-- Channels under a path check (R113). -/
def probedMap (s : State) : Nat :=
  packFlags ((List.range 36).map fun c => (s.stand (standOf c)).active.any (fun x => x.chan == c))

/-- The full engine's stream takes an instant. -/
def State.pushWave (s : State) (t : Nat) (outs : List ChanOut) (fv : List Val) : State :=
  if !s.me.kernels then s
  else
    let x : Wave :=
      { n := (s.wave.head?.map (·.n + 1)).getD 0, t := t, x := fv.map (·.x), w := outs.map (·.w), est := mapBits fv (·.sub), sat := mapBits fv (·.sat),
        wEst := (List.range 15).map fun j => mapBits outs fun o => bitAt (o.wf.getD j 0) 7,
        wSat := (List.range 15).map fun j => mapBits outs fun o => bitAt (o.wf.getD j 0) 4,
        probe := probedMap s, step := s.te.stepP }
    { s with wave := (x :: s.wave).take 40000 }

end Sys2Proof.Machine
end

