-- ==== Sys2Proof/Machine/DisplayOps.lean ====
section
/-! DEFINITION. The layout table of the display and the values that a block boundary latches for it (R447 to R451). -/

namespace Sys2Proof.Machine

/-- The ROM layout: circuit 0 total active import in kWh, eight digits with one decimal, on segment lines 0 to 7 (R447). -/
def romLayout : List Byte :=
  [1, 8, 1, 0, 5, 0, 0, 0] ++ [0, 1, 2, 3, 4, 5, 6, 7] ++ List.replicate 8 0xFF ++
  (List.range 16).flatMap (fun _ => le 2 0x8000) ++ ([0, 0, 0, 2, 1, 3, 0] ++ zeros 9) ++ zeros 408

/-- The layout table in force. -/
def layoutOf (s : State) : List Byte := (s.hm.layout.map (·.2)).getD romLayout

/-- DIGITS, ITEMS, SCROLL_S and HOLD_S of a table (Table 20-1). -/
def layDigits (l : List Byte) : Nat := (byteAt l 1).toNat
def layItems (l : List Byte) : Nat := (byteAt l 2).toNat
def layScroll (l : List Byte) : Nat := (byteAt l 3).toNat
def layHold (l : List Byte) : Nat := (byteAt l 4).toNat

/-- One item's 16 bytes (Table 20-2). -/
def layItem (l : List Byte) (n : Nat) : List Byte := (l.drop (56 + 16 * n)).take 16

/-- Scale an exact value by a power of ten and truncate (R449). -/
def scaleTen (x : Rat) (e : Int) : Int :=
  (if e < 0 then x / ((10 ^ e.natAbs : Nat) : Rat) else x * ((10 ^ e.natAbs : Nat) : Rat)).floor

/-- A register of a circuit or element for the display, in µWh; codes 0 and 1 follow ACCT, the others exist from B1 (R450). -/
def dispRegister (s : State) (elem : Bool) (i q : Nat) : Option Nat :=
  if 27 < i || 11 < q then none
  else
    let full := if elem then s.me.regElemF else s.me.regCircF
    let pio := if elem then s.me.regElemP else s.me.regCircP
    if q < 2 && !s.pw.acct then some ((pio.getD i (Regs.zero 2)).e.getD q 0 / 2 ^ 32)
    else if q < 2 || s.me.fromB1 then some ((full.getD i (Regs.zero 12)).e.getD q 0 / 2 ^ 32)
    else none

/-- The exact value of an item's source 2 to 4. -/
def dispValue (s : State) (src i : Nat) : Option Rat :=
  if src == 2 then (s.lk.snapP[i]?).map ratOfF32
  else if src == 3 then (pqResult s 0 0 i).map (fun r => ratOfF32 (r.vals.headD 0))
  else if src == 4 then
    match s.pq.buses[i]? with
    | some b => if b.freqEnd.isNone then none else some (ratOfF32 b.freq)
    | none => none
  else none

/-- The number that an item shows, negative under a minus sign; none shows '-' in every digit (R449, R450). -/
def itemDigits (s : State) (l it : List Byte) : Option Int :=
  let src := (byteAt it 0).toNat
  let i := (byteAt it 1).toNat
  let dec : Int := ((byteAt it 4).toNat : Nat)
  let ue := toSigned 8 (byteAt it 5).toNat
  let m : Int := (10 ^ layDigits l : Nat)
  let c := s.rtc.cal
  if src < 2 then (dispRegister s (src == 1) i (byteAt it 2).toNat).map fun r => scaleTen (r : Rat) (dec - ue - 6) % m
  else if src < 5 then (dispValue s src i).map fun x =>
    let d := scaleTen (absQ x) (dec - ue) % m
    if x < 0 then -d else d
  else if src == 5 then some (((c.year % 100 * 10000 + c.month * 100 + c.day : Nat) : Int) % m)
  else if src == 6 then some (((c.hour * 10000 + c.min * 100 + c.sec : Nat) : Int) % m)
  else none

/-- A new table comes into use: it scrolls or not, and an item that it does not have gives way to item 0 (R447, R451; assumption 127).
-/
def State.takeLayout (s : State) : State :=
  if s.hm.layoutNext.isNone then s
  else
    let s1 := s.onHm fun h => { h with layout := h.layoutNext, layoutNext := none }
    let l := layoutOf s1
    s1.onHm fun h => { h with item := if h.item < layItems l then h.item else 0, scrolling := !h.held && layScroll l != 0, itemClk := s.clk }

/-- Latch all items at a block boundary; a new table comes into use first (R447, R449). -/
def State.latchDisplay (s : State) : State :=
  let s1 := s.takeLayout
  let l := layoutOf s1
  s1.onHm fun h => { h with latched := (List.range (layItems l)).map (fun n => itemDigits s1 l (layItem l n)) }

end Sys2Proof.Machine
end

