-- ==== Sys2Proof/Machine/PathCheck.lean ====
section
/-! DEFINITION. Input path diagnosis (R105 to R113, R124): the queue of checks, the probe and its judgement. -/

namespace Sys2Proof.Machine

def opPathCheck : Op := { code := 0x0321, fixed := 2 }

/-- Queue a request and report its place (Table 5-7). -/
def pathCheckAct (chan : Nat) (baseline : Bool) (s : State) : Ans :=
  let s1 := s.queueCheck ⟨[4], chan, baseline, false⟩
  ⟨s1, .pending, le 1 (checkPosition s1 chan) ++ zeros 1⟩

/-- The channel does not exist or its SOURCE is not NORMAL (R124, Table 5-7). -/
def checkChanBad (s : State) (chan : Nat) : Bool := 35 < chan || chanSource s chan != 0

/-- R111, R124. -/
def execPathCheck (h : Hdr) (chan : Nat) (badMode : Bool) (s : State) : Host.Outcome State Fault Refusal :=
  .next (serve opPathCheck h (h.len == 4) (fun s => [(checkChanBad s chan || badMode, .valueRange)])
    (pathCheckAct chan false) s)

/-- R124. -/
def execPathCheckBaseline (h : Hdr) (chan : Nat) (s : State) : Host.Outcome State Fault Refusal :=
  .next (serve opPathCheck h (h.len == 4)
    (fun s => [(locked s, .locked), (!canWrite s h.path 2, .authFail), (checkChanBad s chan, .valueRange)])
    (pathCheckAct chan true) s)

/-- PC_AGE_S of a channel. -/
def checkAge (s : State) (c : Nat) : Nat :=
  match (s.chan c).pcClk with
  | none => 0xFFFFFFFF
  | some t => satN 0xFFFFFFFE (secsSince s t)

/-- A channel is due for an automatic check (R111). -/
def autoDue (s : State) (c : Nat) : Bool :=
  let iv := par s (pid 3 0 6)
  par s (pid 16 c 4) == 1 && chanSource s c == 0 && iv != 0 && decide (iv ≤ checkAge s c)

/-- The due channel of a stand with the largest PC_AGE_S, the lowest on a tie. -/
def autoNext (s : State) (k : Nat) : Option Nat :=
  (standChans k).foldl
    (fun best c =>
      if autoDue s c then
        match best with
        | none => some c
        | some b => if checkAge s b < checkAge s c then some c else best
      else best) none

/-- Channels at the head of a queue whose SOURCE is no longer NORMAL are skipped with result ABORTED (R124), a number of them at
most. A sequence that ends with one may queue its channels anew. -/
def skipChecks (s : State) (k : Nat) : Nat → State
  | 0 => s
  | n + 1 =>
    match (s.stand k).queue with
    | [] => s
    | c :: r =>
      if chanSource s c.chan != 0 then
        skipChecks ((((s.setCheckResult c.chan 0x20).baseFailLog c 0x20 0 0).onStand k fun d => { d with queue := r }).seqChecked c) k n
      else s

/-- P samples of a probe (R105). -/
def probeSamples : Nat := 10000

/-- Place in a slot is inside the window in which the tables leave the test DAC free, with 0.4 s of it left: 3.350 s to 5.550 s of
a home converter's slot, 2.550 s to 4.750 s of the spare's (R110, Tables 4-2 and 4-3). -/
def dacWindow (slot n : Nat) : Bool :=
  if slot == 9 then 63750 ≤ n && n + probeSamples ≤ 118750 else 83750 ≤ n && n + probeSamples ≤ 138750

/-- The test DAC of a stand is free for 0.4 s (R110): in a rotating stand inside the slot's window, once the measurements of a rest
are over; a slot without a rest has the same window. -/
def dacFree (d : Stand) : Bool :=
  d.active.isNone && d.st != 4 &&
    (d.st != 0 || (dacWindow d.slot d.n && ((d.phase != 1 && d.phase != 3) || d.dac == 8)))

/-- A check begins: its samples are still to come (R106). -/
def State.probeBegin (s : State) (k : Nat) (c : Check) (rest : List Check) : State :=
  s.onStand k fun d => { d with active := some c, queue := rest, probe := [], probeBad := false }

/-- R110, R111. The head of the queue starts, or a channel due for an automatic check. -/
def execPathCheckStart (stand : Fin 4) (s : State) : Host.Outcome State Fault Refusal :=
  let k : Nat := stand
  if s.pw.stage < 3 || !dacFree (s.stand k) then .next s
  else
    let s1 := skipChecks s k (s.stand k).queue.length
    match (s1.stand k).queue with
    | c :: r => .next (s1.probeBegin k c r)
    | [] =>
      match autoNext s1 k with
      | some c => .next (s1.probeBegin k ⟨[5], c, false, false⟩ [])
      | none => .next s1

/-! ### The judgement (R106 to R109) -/

/-- Frequency of the probe, Hz: bin 925 of 2.5 Hz (R105, R106). -/
def probeHz : Rat := 4625 / 2

/-- DAC amplitude of the probe on a channel, V peak (R105). -/
def probeAmp (c : Nat) : Rat := if c < 8 then 2 / 5 else 1 / 250

/-- R_INJ, Ω (R105). -/
def rInj : Rat := 200000

/-- R_IN of a channel, Ω, from the factory record (R106, R421). -/
def rIn (s : State) (c : Nat) : Rat := (factoryVal s 3 c : Rat)

/-- The phasor in V peak of a stand's probe at a frequency, from the samples of the serving converter (R106). -/
def probeBin (s : State) (k c : Nat) (f : Rat) : Rat × Rat :=
  let b := binAt 25000 f (s.stand k).probe
  let w := codeWeight (chanGain s c) / 5000
  (b.1 * w, b.2 * w)

/-- Quotient and squared magnitude of complex values. -/
def cdiv (a b : Rat × Rat) : Rat × Rat :=
  let d := b.1 * b.1 + b.2 * b.2
  ((a.1 * b.1 + a.2 * b.2) / d, (a.2 * b.1 - a.1 * b.2) / d)
def cnorm (a : Rat × Rat) : Rat := a.1 * a.1 + a.2 * a.2

/-- V / D of a stand's probe: the response over the drive phasor (R106). -/
def probeRatio (s : State) (k c : Nat) : Rat × Rat :=
  cdiv (probeBin s k c probeHz) (probeAmp c * (Config.drive k).1, probeAmp c * (Config.drive k).2)

/-- A bin beside the probe's exceeds 10 % of it (R107). -/
def probeNoisy (s : State) (k c : Nat) : Bool :=
  [2310, 2315].any fun f => decide (cnorm (probeBin s k c probeHz) < 100 * cnorm (probeBin s k c f))

/-- 1 / Zp of a probe: (1 − r) / (R_INJ r) − 1 / R_IN with r = V / D (R106). -/
def probeY (s : State) (c : Nat) (r : Rat × Rat) : Rat × Rat :=
  let d := cnorm r
  (r.1 / d / rInj - 1 / rInj - 1 / rIn s c, -r.2 / d / rInj)

/-- |Zp|² and Zp; none when the pins show no admittance. -/
def probeZ (s : State) (c : Nat) (p : Rat × Rat) : Option (Rat × Rat × Rat) :=
  if p.1 == 0 && p.2 == 0 then some (0, 0, 0)
  else
    let (a, b) := probeY s c p
    let q := a * a + b * b
    if q == 0 then none else some (1 / q, a / q, -b / q)

/-- SHIFT: |Zp / Zbase − 1| above PC_SHIFT_PCT (Table 5-1). -/
def pathShift (s : State) (c : Nat) (re im : Rat) : Bool :=
  let b := parF s (pid 17 c 3)
  let th := parF s (pid 17 c 4)
  let dr := re - b * Config.cosDeg th
  let di := im - b * Config.cosDeg (90 - th)
  let lim := (par s (pid 3 0 9) : Rat) / 100 * b
  decide (lim * lim < dr * dr + di * di)

/-- OPEN, SHORT and SHIFT of a clean check, as PC_RESULT bits (Table 5-1). -/
def pathVerdict (s : State) (c : Nat) (z : Option (Rat × Rat × Rat)) : Nat :=
  match z with
  | none => 2
  | some (q, re, im) =>
    let o : Rat := par s (pid 3 0 7)
    let h : Rat := par s (pid 3 0 8)
    if o * o < q then 2
    else if q < h * h then 4
    else if parF s (pid 17 c 3) != 0 && pathShift s c re im then 8
    else 0

/-- Log a transition of a channel's verdict (R109). -/
def State.pathLog (s : State) (c verdict result ohm deg : Nat) : State :=
  let old := (s.chan c).pcFault
  let d := le 1 c ++ le 1 result ++ zeros 2 ++ le 4 ohm ++ le 4 deg
  if verdict != 0 && verdict != old then (s.onChan c fun x => { x with pcFault := verdict }).log 0x0309 d
  else if verdict == 0 && old != 0 then (s.onChan c fun x => { x with pcFault := 0 }).log 0x030A d
  else s

/-- Store a baseline (R124): the two members take the values and record P2 holds them. -/
def State.storeBaseline (s : State) (c ohm deg : Nat) : State :=
  ((s.storePar (pid 17 c 3) ohm).storePar (pid 17 c 4) deg).storeP2.1

/-- A clean check gives a verdict and, as a BASELINE check without OPEN or SHORT, a baseline. -/
def State.cleanCheck (s : State) (c : Check) (p : Rat × Rat) : State :=
  let z := probeZ s c.chan p
  let (ohm, deg) := match z with
    | some (q, re, im) => (f32Sqrt q, f32OfRat (180 * Config.argHalf re im))
    | none => (Config.freeF32 s.free, Config.freeF32 (s.free + 1))
  let v := pathVerdict s c.chan z
  let result := 1 + v + (if parF s (pid 17 c.chan 3) = 0 then 0x40 else 0)
  let s1 := ((s.setCheckResult c.chan result).onChan c.chan fun x =>
    { x with pcOhm := ohm, pcDeg := deg, pcClk := some s.clk }).drew 2
  let s2 := s1.pathLog c.chan v result ohm deg
  if c.baseline then
    if v == 2 || v == 4 then (if (s.chan c.chan).pcFault == v then s2.baseFailLog c result ohm deg else s2)
    else s2.storeBaseline c.chan ohm deg
  else s2

/-- R107 to R109, R114. The probe's 10,000 samples are taken. A check with an unsettled or clamped sample is ABORTED, whatever
its bins show (assumption 76); the shaping filter's own flags are none of theirs (assumption 111). -/
def execPathCheckComplete (stand : Fin 4) (s : State) : Host.Outcome State Fault Refusal :=
  let k : Nat := stand
  let d := s.stand k
  match d.active with
  | none => .next s
  | some c =>
    if d.probe.length < probeSamples then .next s
    else
      let s0 := s.onStand k fun d => { d with active := none }
      let s1 :=
        if d.probeBad then (s0.setCheckResult c.chan 0x20).baseFailLog c 0x20 0 0
        else if probeNoisy s k c.chan then (s0.setCheckResult c.chan 0x10).baseFailLog c 0x10 0 0
        else s0.cleanCheck c (probeRatio s k c.chan)
      .next (s1.seqChecked c)

end Sys2Proof.Machine
end

