-- ==== Sys2Proof/Machine/UpdateOps.lean ====
section
/-! DEFINITION. Shared operations of updates: the open package, regions and their states, the update log entries, and the
failure of a trial (R418 to R424). -/

namespace Sys2Proof.Machine

/-- KIND, VERSION, ROLLBACK_MIN and LENGTH of a package header (Table 18-6). -/
def hdrKind (b : List Byte) : Nat := (byteAt b 2).toNat
def hdrVersion (b : List Byte) : Nat := fieldAt b 4 4
def hdrRollback (b : List Byte) : Nat := (byteAt b 8).toNat
def hdrLength (b : List Byte) : Nat := fieldAt b 12 4

/-- A region that holds no image. -/
def Region.blank : Region := ⟨0, 0, 0, 0, 0, false⟩

/-- Both regions of a kind, one of them, the active one's number and the other's. -/
def regionsOf (s : State) (k : Nat) : Region × Region := s.up.banks.getD k (Region.blank, Region.blank)
def region (s : State) (k b : Nat) : Region := if b == 0 then (regionsOf s k).1 else (regionsOf s k).2
def activeOf (s : State) (k : Nat) : Nat := s.up.active.getD k 0
def inactiveOf (s : State) (k : Nat) : Nat := 1 - activeOf s k

/-- Update one region of a kind. -/
def State.onRegion (s : State) (k b : Nat) (f : Region → Region) : State :=
  s.onUp fun u => { u with banks := modAt u.banks k fun r => if b == 0 then (f r.1, r.2) else (r.1, f r.2) }

/-- Run the other region of a kind from now on. -/
def State.runRegion (s : State) (k b : Nat) : State := s.onUp fun u => { u with active := modAt u.active k fun _ => b }

/-- A region whose ROLLBACK_MIN is below ROLLBACK is invalid (R420). -/
def regionValid (s : State) (r : Region) : Bool := r.valid && s.up.rollback ≤ r.rollbackMin

/-- A region that may run: valid, in TRIAL or GOOD (R420). -/
def regionRuns (s : State) (r : Region) : Bool := regionValid s r && (r.st == 1 || r.st == 2)

/-- An UPDATE_BEGIN to UPDATE_REFUSED entry for a package header (Table 18-4). Kinds 4 to 6 have no bank, and the spec gives no
value for them: a free byte. -/
def State.updLog (s : State) (code : Nat) (hd : List Byte) (bank cause : Nat) : State :=
  let k := hdrKind hd
  (s.log code (le 1 k ++ le 1 (if k < 4 then bank else Config.freeNat s.free) ++ le 2 cause ++ le 4 (hdrVersion hd) ++
    le 1 s.up.rollback)).drew 1

/-- No update is open any more. -/
def State.updIdle (s : State) : State := s.onUp fun u => { u with st := 0, header := [], payload := [], revert := none }

/-- The trial of a kind fails (R423, Table 18-8): its region becomes REVOKED, and the previous one is switched back at the
kind's next safe point, for kind 0 after the planned checkpoint (R55, Table 18-7). The spec gives no code for the cause: a free
value. -/
def State.trialFail (s : State) (kind : Nat) : State :=
  if s.up.st == 5 && hdrKind s.up.header == kind && s.up.revert.isNone then
    let s1 := ((s.onRegion kind (activeOf s kind) fun r => { r with st := 3 }).onUp fun u =>
      { u with revert := some (Config.freeNat s.free % 65536) }).drew 1
    if kind == 0 then s1.checkpoint s1 0 else s1
  else s

/-- A package that is open and not yet in TRIAL is abandoned: the inactive region stays WRITTEN, which is never run (R424). -/
def State.abandonUpdate (s : State) : State := if s.up.st == 0 || s.up.st == 5 then s else s.updIdle

end Sys2Proof.Machine
end

