-- ==== Sys2Proof/Machine/BlockOps.lean ====
section
/-! DEFINITION. The closing of a 200 ms block in both engines: registers, status words, pulses, cross-check, metering tamper
(R175 to R197). Energies are integers in 2^-32 µWh, µvarh or µVAh (R182). -/

namespace Sys2Proof.Machine

/-- 2^32 as an exact number. -/
def two32 : Rat := 4294967296

/-- Registers wrap modulo 2^64 with 32 fractional bits (R182). -/
def regWrap : Nat := 2 ^ 96

/-- The closed block of an element or a circuit in one engine. -/
structure Blk where
  /-- Samples. -/
  n : Nat
  /-- Measured total active energy, and as it counts after creep. -/
  p : Int
  pc : Int
  /-- Measured fundamental active and reactive energy, and as they count. -/
  p1 : Int
  p1c : Int
  q1 : Int
  q1c : Int
  /-- Arithmetic and effective apparent energy after creep. -/
  sa : Nat
  se : Nat
  status : Nat
deriving DecidableEq, Repr

def Blk.none : Blk := ⟨0, 0, 0, 0, 0, 0, 0, 0, 0, 0⟩

/-- Quadrant 0 to 3 of Table 8-1. -/
def quadrant (p1 q1 : Int) : Nat :=
  if 0 ≤ q1 then (if 0 ≤ p1 then 0 else 1) else (if p1 < 0 then 2 else 3)

/-- An energy lies below a creep threshold in millionths of a unit of power (R186): |E| / (N Ts) < threshold. -/
def creeps (e : Int) (n thr : Nat) : Bool := n != 0 && decide ((e.natAbs : Rat) / two32 * 90000000 / (n : Rat) < (thr : Rat))

/-- Integer square root of an exact non-negative value, with the free last bit of assumption 16. -/
def sqrtQuant (s : State) (k : Nat) (q : Rat) : Nat :=
  let v := q.floor.toNat
  if v.sqrt * v.sqrt == v && q.den == 1 then v.sqrt else v.sqrt + Config.freeNat (s.free + k) % 2

/-- √q µVAh of sums of squares over samples, as a register increment: one sample contributes 1/90 (R182). -/
def apparent (s : State) (k : Nat) (q : Rat) : Nat := sqrtQuant s k (q * two32 * two32 / 8100)

/-- The block of an element in the full engine (Table 8-3, R184, R186). -/
def elemBlk (s : State) (e : Nat) : Blk :=
  let a := s.me.elemF.getD e ElemAcc.zero
  if !elemOn s e || a.n == 0 then Blk.none
  else
    let p := quant s (100 + e) (a.vi / 90 * two32)
    let p1 := quant s (2 * e) (a.p1 / 90 * two32)
    let q1 := quant s (2 * e + 1) (a.q1 / 90 * two32)
    let cp := creeps p a.n (par s (pid 2 0 2))
    let cq := creeps q1 a.n (par s (pid 2 0 3))
    let sa := if cp then 0 else apparent s (200 + e) (a.vv * a.ii)
    { n := a.n, p := p, pc := if cp then 0 else p, p1 := p1, p1c := if cp then 0 else p1, q1 := q1,
      q1c := if cq then 0 else q1, sa := sa, se := sa,
      status := flagAt a.est 0 + flagAt a.sat 1 + flagAt a.long 2 + flagAt cp 3 + flagAt cq 4 + flagAt s.me.blockStep 5 +
        flagAt a.freqNom 9 + quadrant p1 q1 * 1024 + flagAt (decide (p < 0)) 12 }

/-- The block of an element in Pioneer (R195). -/
def elemBlkP (s : State) (e : Nat) : Blk :=
  let a := s.me.elemP.getD e ElemAcc.zero
  if !elemOn s e || a.n == 0 then Blk.none
  else
    let p := quant s (300 + e) (a.vi / 90 * two32)
    let cp := creeps p a.n (par s (pid 2 0 2))
    { Blk.none with
      n := a.n, p := p, pc := if cp then 0 else p,
      status := flagAt a.est 0 + flagAt a.sat 1 + flagAt a.long 2 + flagAt cp 3 + flagAt s.me.blockStep 5 +
        flagAt (decide (p < 0)) 12 }

/-- Sum of a field over blocks. -/
def sumI (l : List Blk) (f : Blk → Int) : Int := l.foldl (fun a b => a + f b) 0
def sumN (l : List Blk) (f : Blk → Nat) : Nat := l.foldl (fun a b => a + f b) 0

/-- Some block, or every block, carries a status bit. -/
def anyBit (l : List Blk) (b : Nat) : Bool := l.any (fun x => bitAt x.status b)
def allBit (l : List Blk) (b : Nat) : Bool := !l.isEmpty && l.all (fun x => bitAt x.status b)

/-- Effective apparent energy of a circuit (Table 8-3): S_I × S_V / 3 under the root for two elements, / 6 for three. -/
def effective (s : State) (c : Nat) (l : List Blk) : Nat :=
  let es := circElems s c
  let acc := es.map (fun e => s.me.elemF.getD e ElemAcc.zero)
  let k := s.me.circF.getD c CircAcc.zero
  let si := acc.foldl (fun a x => a + x.ii) 0 + k.ix
  if es.length == 1 then sumN l (·.sa)
  else if es.length == 2 then apparent s (400 + c) (si * k.vll / 3)
  else apparent s (400 + c) (si * (3 * acc.foldl (fun a x => a + x.vv) 0 + k.vll) / 6)

/-- The block of a circuit from its elements' blocks (R177, R184, R186). -/
def circBlk (s : State) (full : Bool) (blks : List Blk) (c : Nat) : Blk :=
  let l := (circElems s c).map (fun e => blks.getD e Blk.none)
  if l.isEmpty || l.all (fun b => b.n == 0) then Blk.none
  else
    let p := sumI l (·.p)
    let p1 := sumI l (·.p1)
    let q1 := sumI l (·.q1)
    let cp := allBit l 3
    let cq := full && allBit l 4
    { n := (l.headD Blk.none).n, p := p, pc := sumI l (·.pc), p1 := p1, p1c := sumI l (·.p1c), q1 := q1,
      q1c := sumI l (·.q1c), sa := sumN l (·.sa), se := if cp || !full then 0 else effective s c l,
      status := flagAt (anyBit l 0) 0 + flagAt (anyBit l 1) 1 + flagAt (anyBit l 2) 2 + flagAt cp 3 + flagAt cq 4 +
        flagAt (anyBit l 5) 5 + flagAt (anyBit l 9) 9 + (if full then quadrant p1 q1 * 1024 else 0) +
        flagAt (decide (p < 0)) 12 }

/-- Increments of the twelve registers (R179). Without `active` the total active registers take nothing (R44). -/
def increments (b : Blk) (active : Bool) : List Nat :=
  let imp := decide (0 ≤ b.pc)
  let a := if active then b.pc.natAbs else 0
  let f := b.p1c.natAbs
  let q := quadrant b.p1 b.q1
  [if imp then a else 0, if imp then 0 else a, if 0 ≤ b.p1c then f else 0, if 0 ≤ b.p1c then 0 else f] ++
    (List.range 4).map (fun k => if k == q then b.q1c.natAbs else 0) ++
    [if imp then b.sa else 0, if imp then 0 else b.sa, if imp then b.se else 0, if imp then 0 else b.se]

/-- Add increments to registers, with the block's status word (R182, R184). -/
def Regs.add (r : Regs) (inc : List Nat) (status : Nat) : Regs :=
  ⟨(r.e.zip inc).map (fun e => (e.1 + e.2) % regWrap), status⟩

/-- The full engine adds total active energy: from B1 on, but not between a start and its handover (R44, R45, R48). -/
def addsActive (s : State) : Bool := s.me.fromB1 && s.pw.shadow == .none

/-- All blocks of a closing. -/
structure Closed where
  ef : List Blk
  ep : List Blk
  cf : List Blk
  cp : List Blk
deriving DecidableEq, Repr

/-- The blocks that close now. -/
def closing (s : State) : Closed :=
  let ef := (List.range 28).map (fun e => if s.me.fromB1 then elemBlk s e else Blk.none)
  let ep := (List.range 28).map (elemBlkP s)
  { ef := ef, ep := ep, cf := (List.range 28).map (circBlk s true ef), cp := (List.range 28).map (circBlk s false ep) }

/-- Registers of one list take the increments of one list of blocks; an instance without samples keeps its registers with a
status of 0. -/
def addAll (rs : List Regs) (bs : List Blk) (active : Bool) (n : Nat) : List Regs :=
  (rs.zip bs).map (fun e => e.1.add ((increments e.2 active).take n) e.2.status)

/-! ### Pulses (R190) -/

/-- Per-sample energies of a target whose samples are known: those of its creeping elements are dropped, and the direction or the
quadrant of the target's block decides (R179, R190). -/
def pulseSamples (q : Nat) (blks : List Blk) (target : Blk) (opn : List (List Rat)) : List Rat :=
  let k := quadrant target.p1 target.q1
  let (creep, net, take) : Nat × Int × Bool := match flowOf q with
    | .reactive => (4, target.q1c, q == 4 + k || (q == 12 && k < 2) || (q == 13 && 2 ≤ k))
    | .active => (3, target.p1c, (q == 2) == decide (0 ≤ target.p1c))
    | _ => (3, target.pc, q == 14 || (q == 0) == decide (0 ≤ target.pc))
  opn.map fun l =>
    let t := (l.zip blks).foldl (fun a e => if bitAt e.2.status creep then a else a + e.1) 0
    if !take then 0 else if 0 ≤ net then t else -t

/-- An apparent energy of a block shared out over its samples, of which the manual gives no energy: free shares that keep the total
(assumption 2). -/
def shares (s : State) (k n total : Nat) : List Rat :=
  let l := (List.range (n - 1)).map (fun j => ((Config.freeInt (s.free + k + j) : Int) : Rat) / two32)
  if n == 0 then [] else l ++ [(total : Rat) / two32 - l.foldl (· + ·) 0]

/-- Increment of a CF quantity in a block (Table 8-2). -/
def quantityInc (q : Nat) (inc : List Nat) : Nat :=
  if q == 12 then inc.getD 4 0 + inc.getD 5 0 else if q == 13 then inc.getD 6 0 + inc.getD 7 0 else inc.getD q 0

/-- Keep at most one block of undelivered samples: what is overdue after a long block is delivered first. -/
def overdue (l : List Rat) : List Rat :=
  if l.length ≤ 5000 then l
  else
    let k := l.length - 4999
    (l.take k).foldl (· + ·) 0 :: l.drop k

/-- An output at a closing: the block's sample energies join those to be delivered one block after the sample. -/
def cfClose (s : State) (b : Closed) (k : Nat) (c : Cf) : Cf :=
  if !cfOn s k then { c with openE := [], openP := [] }
  else
    let q := par s (pid 26 k 0)
    let t := par s (pid 26 k 1)
    let full := s.pw.acct || !pioQuantity q
    let i := bitsAt t 0 5
    let eb := if full then b.ef else b.ep
    let tgt := if bitAt t 7 then (if full then b.cf else b.cp).getD i Blk.none else eb.getD i Blk.none
    let new :=
      if flowOf q != .block then
        pulseSamples q ((cfElems s k).map (fun e => eb.getD e Blk.none)) tgt (if full then c.openE else c.openP)
      else
        let fb := (if bitAt t 7 then b.cf else b.ef).getD i Blk.none
        if fb.n == 0 then List.replicate s.me.blockN 0
        else shares s (1000 + 10000 * k) s.me.blockN (quantityInc q (increments fb true))
    let due := 5000 - s.me.blockN
    let base := c.ready ++ List.replicate (due - c.ready.length) 0
    { c with openE := [], openP := [], ready := overdue (base ++ new) }

/-- Both engines close the block: registers and outputs. -/
def State.closeEngines (s : State) (b : Closed) : State :=
  let act := addsActive s
  s.onMe fun m =>
    { m with regElemF := if m.fromB1 then addAll m.regElemF b.ef act 12 else m.regElemF,
             regCircF := if m.fromB1 then addAll m.regCircF b.cf act 12 else m.regCircF,
             regElemP := addAll m.regElemP b.ep true 2, regCircP := addAll m.regCircP b.cp true 2,
             cfs := m.cfs.mapIdx (cfClose s b) }

/-! ### Block powers, demand and cross-check -/

/-- Power of a block energy, binary32 (W, var or VA). -/
def powerF32 (e : Int) (n : Nat) : Nat := if n == 0 then 0 else f32OfRat ((e : Rat) / two32 * 90 / (n : Rat))

/-- PF: P_W / S_VA, signed by EXPORT (Table 8-15); a free value when S_VA is 0. -/
def powerFactor (s : State) (c : Nat) (p q : Nat) (export_ : Bool) : Nat :=
  if q % 2 ^ 31 == 0 then Config.freeF32 (s.free + 500 + c)
  else
    let x := absQ (ratOfF32 p) / ratOfF32 q
    f32OfRat (if export_ then -x else x)

/-- The four demand quantities of a block (R187). -/
def demandParts (b : Blk) : List Nat :=
  let i := increments b true
  [i.getD 0 0, i.getD 1 0, i.getD 4 0 + i.getD 5 0, i.getD 10 0]

/-- A circuit's block results and demand sums. -/
def circTake (s : State) (b : Blk) (c : Nat) (r : CircRun) : CircRun :=
  let p := powerF32 b.pc b.n
  let q := powerF32 b.q1c b.n
  let v := powerF32 (b.se : Int) b.n
  { r with pW := p, qVar := q, sVa := v, pf := if b.n == 0 then 0 else powerFactor s c p v (bitAt b.status 12),
           subNow := ((List.range 4).zip (demandParts b)).map (fun e => r.subNow.getD e.1 0 + e.2) }

/-- The test of R196 on two energies. -/
def xcheckFails (ep ef : Int) : Bool :=
  let big := Nat.max ep.natAbs ef.natAbs
  let d := (ep - ef).natAbs
  decide (big < 1000 * d) && decide (1000000 * 2 ^ 32 < d)

/-- Energy in Wh, binary32. -/
def whSigned (e : Int) : Nat := f32OfRat ((e : Rat) / two32 / 1000000)

/-- Set a status bit on a circuit's full-engine block status. -/
def State.circBit (s : State) (c bit : Nat) : State :=
  s.onMe fun m => { m with regCircF := modAt m.regCircF c fun r => { r with status := setBit r.status bit } }

/-- Update a circuit's run state. -/
def State.onRun (s : State) (c : Nat) (f : CircRun → CircRun) : State :=
  s.onMe fun m => { m with circRun := modAt m.circRun c f }

def circRunOf (s : State) (c : Nat) : CircRun := s.me.circRun.getD c CircRun.reset

/-- One log entry of METRO_DISAGREE (R196). -/
def State.xlog (s : State) (c test : Nat) (ep ef sp sf : Int) : State :=
  s.log 0x0203 (le 1 c ++ le 1 test ++ le 1 1 ++ zeros 1 ++ le 4 (whSigned ep) ++ le 4 (whSigned ef))
    [le 4 (whSigned sp) ++ le 4 (whSigned sf)]

/-- Compare one circuit (R196, R197): the state, whether it was compared and whether it failed. -/
def xcheckCirc (b : Closed) (a : State × Bool × Bool) (c : Nat) : State × Bool × Bool :=
  let s := a.1
  if (circElems s c).isEmpty then a
  else
    let f := b.cf.getD c Blk.none
    let p := b.cp.getD c Blk.none
    if bitAt f.status 0 || bitAt p.status 0 || s.me.blockStep then
      ((s.circBit c 7).onRun c fun r => { r with xSkipped := u32 (r.xSkipped + 1) }, a.2)
    else
      let last := ((p.pc, f.pc) :: (circRunOf s c).xLast).take 50
      let sp := last.foldl (fun x e => x + e.1) 0
      let sf := last.foldl (fun x e => x + e.2) 0
      let bad0 := xcheckFails p.pc f.pc
      let bad1 := xcheckFails sp sf
      let s1 := s.onRun c fun r => { r with xLast := last }
      if bad0 || bad1 then
        let s2 := (s1.circBit c 6).onRun c fun r =>
          { r with xFails := u32 (r.xFails + (if bad0 then 1 else 0) + (if bad1 then 1 else 0)) }
        let s3 := if s.me.disagree && (circRunOf s c).xLogged then s2
          else (s2.xlog c (if bad0 then 0 else 1) p.pc f.pc sp sf).onRun c fun r => { r with xLogged := true }
        let s4 := if s.me.disagree then s3
          else ((s3.onMe fun m => { m with disagree := true }).tamperCond 12 c true).trialFail 2
        (s4, true, true)
      else (s1, true, a.2.2)

/-- The cross-check of all circuits, and the clearing of METRO_DISAGREE after 50 qualifying boundaries (R196). -/
def State.xcheck (s : State) (b : Closed) : State :=
  let (s1, compared, failed) := (List.range 28).foldl (xcheckCirc b) (s, false, false)
  let run := if failed then 0 else if compared then s1.me.cleanRun + 1 else s1.me.cleanRun
  let s2 := s1.onMe fun m => { m with cleanRun := run }
  if s2.me.disagree && 50 ≤ run then
    ((s2.onMe fun m => { m with disagree := false, cleanRun := 0,
                                circRun := m.circRun.map fun r => { r with xLogged := false } }).log 0x0203
      (le 1 0xFF ++ zeros 13) [zeros 14]).tamperCond 12 0xFF false
  else s2

/-! ### Metering tamper (R194) -/

/-- Square of I_MIN of a current channel. -/
def iMinSq (s : State) (ch : Nat) : Rat :=
  let f := fullScalePrimary s ch
  let k : Rat := (par s (pid 2 0 7) : Rat) / 10000
  f * f / 2 * k * k

/-- Mean square of current and voltage of an element's block, with its channels. -/
def meanSq (s : State) (e : Nat) : Rat × Rat :=
  let a := s.me.elemF.getD e ElemAcc.zero
  if a.n == 0 then (0, 0) else (a.ii / (a.n : Rat), a.vv / (a.n : Rat))

/-- Square of a share in % of VNOM. -/
def vnomSq (s : State) (pct : Nat) : Rat :=
  let v := parF s (pid 2 0 1) * (pct : Rat) / 100
  v * v

/-- The element of a circuit with the largest current. -/
def largest (s : State) (es : List Nat) : Nat :=
  es.foldl (fun b e => if (meanSq s b).1 < (meanSq s e).1 then e else b) (es.headD 0)

/-- The condition of TAMPER_EN bit `j` on a circuit's block (Table 8-7), and the squares of the two values tested. -/
def tampCond (s : State) (b : Closed) (c j : Nat) : Bool × Rat × Rat :=
  let es := circElems s c
  let blk := b.cf.getD c Blk.none
  let m := largest s es
  let im := (meanSq s m).1
  let strong := decide (iMinSq s (curChan s m) ≤ im)
  let k := s.me.circF.getD c CircAcc.zero
  let n : Rat := (blk.n : Rat)
  let pct : Rat := (par s (pid 2 0 8) : Rat) / 100
  if blk.n == 0 then (false, 0, 0)
  else if j == 0 then (bitAt blk.status 12 && !bitAt blk.status 3, 0, 0)
  else if j == 1 then
    ((neutral s c).isSome && strong && decide (pct * pct * im < k.res / n), k.res / n, im)
  else if j == 2 then
    let lim := vnomSq s (par s (pid 2 0 9)) * (if es.length == 2 then 3 else 1)
    match es.find? (fun e => decide (iMinSq s (curChan s e) ≤ (meanSq s e).1) && decide ((meanSq s e).2 < lim)) with
    | some e => (true, (meanSq s e).1, (meanSq s e).2)
    | none => (false, im, (meanSq s m).2)
  else (es.length == 3 && strong && decide (vnomSq s (par s (pid 2 0 10)) < k.vn / n), k.vn / n, im)

/-- The two values of a METRO_TAMPER entry: block power for REVERSE_ENERGY, else the two rms values tested. -/
def tampVals (r : CircRun) (j : Nat) (x y : Rat) : List Byte :=
  if j == 0 then le 4 r.pW ++ zeros 4 else le 4 (f32Sqrt x) ++ le 4 (f32Sqrt y)

/-- Judge one condition on one circuit (R194). The source stays raised while any circuit holds it. -/
def State.tampStep (s : State) (b : Closed) (c j : Nat) : State :=
  let r := circRunOf s c
  let (hit, x, y) := tampCond s b c j
  let holds := bitAt (par s (pid 21 c 4)) j && hit
  let need := par s (pid 2 0 6)
  let run := if holds then r.tampRun.getD j 0 + 1 else 0
  let clr := if holds then 0 else r.tampClear.getD j 0 + 1
  let up := r.tampUp.getD j false
  let up2 := if up then decide (clr < need) else decide (need ≤ run)
  let s1 := s.onRun c fun r =>
    { r with tampRun := modAt r.tampRun j fun _ => run, tampClear := modAt r.tampClear j fun _ => clr,
             tampUp := modAt r.tampUp j fun _ => up2 }
  if up == up2 then s1
  else
    let s2 := s1.log 0x0205 (le 1 c ++ le 1 (13 + j) ++ le 1 (flagAt up2 0) ++ zeros 1 ++ tampVals r j x y)
    s2.tamperCond (13 + j) c (s2.me.circRun.any (fun x => x.tampUp.getD j false))

/-- All conditions of all circuits. -/
def State.metroTamper (s : State) (b : Closed) : State :=
  (List.range 28).foldl
    (fun x c => if (circElems s c).isEmpty then x else (List.range 4).foldl (fun y j => y.tampStep b c j) x) s

end Sys2Proof.Machine
end

