-- ==== Sys2Proof/Machine/BlockApply.lean ====
section
/-! DEFINITION. What a block boundary applies and latches: front-end changes (R64, R71, R74, R131, R139), the data map (R16), CF
configuration (R190, R193), the handover (R44, R45), and CHAN_STAT (R80). -/

namespace Sys2Proof.Machine

/-! ### Gain, source and reference changes -/

/-- Scale filter states by the power-of-two gain ratio (R139). -/
def Inst.scale (x : Inst) (k : Rat) : Inst :=
  { x with hist := x.hist.map (· * k), stA := x.stA.map (·.map (· * k)), stB := x.stB.map (·.map (· * k)), ring := x.ring.map (· * k) }

/-- A gain or reference change while a stand's spare is on the channel (R64, R71): the running match starts anew. A first
overlap or a pre-shadow is abandoned and a rest gives no trims, each as a skipped slot; a second overlap, and the overlap of a
pin, goes on until it has matched anew. -/
def State.slotDisturb (s : State) (k : Nat) : State :=
  let d := s.stand k
  let s1 := s.onStand k fun x => { x with pairs := [] }
  if d.phase == 2 then s1.onStand k fun x => { x with again := true, first := x.corr }
  else if d.phase == 0 && d.pinReq.isSome then s1.onStand k fun x => { x with again := true }
  else if d.st != 0 then s1
  else if d.phase == 0 || d.phase == 4 then (s1.onStand k fun x => { x with phase := 5 }).skipSlot k
  else if d.phase == 1 || d.phase == 3 then (if d.skip then s1 else s1.skipSlot k)
  else s1

/-- The running check of a stand is aborted when it concerns a channel (R112). -/
def State.abortOn (s : State) (c : Nat) : State :=
  if (s.stand (standOf c)).active.any (fun x => x.chan == c) then s.abortCheck (standOf c) else s

/-- The converters on a channel's input settle anew, the spare too while it is on the channel. -/
def State.unsettleChan (s : State) (c : Nat) : State :=
  let s1 := s.unsettle c
  if (s.stand (standOf c)).spareChan == c then s1.unsettle (36 + standOf c) else s1

/-- A channel's gain changes from one code to another (R64, R74, R139). -/
def State.gainChange (s : State) (c old new : Nat) : State :=
  let k : Rat := pow2 ((new : Int) - (old : Int))
  let s1 := (s.onInsts c (·.scale k)).onFilt c fun f =>
    { f with pioSt := f.pioSt.map (·.map (· * k)), pioRing := f.pioRing.map (· * k) }
  let s2 := (s1.unsettleChan c).abortOn c
  if (s.stand (standOf c)).spareChan == c then s2.slotDisturb (standOf c) else s2

/-- What changed on a channel between two states (R74, R131). -/
def State.chanChange (old : State) (s : State) (c : Nat) : State :=
  let g0 := chanGain old c
  let g1 := chanGain s c
  let s1 := if g0 == g1 then s else s.gainChange c g0 g1
  let s2 := if chanSource old c == chanSource s c then s1 else (s1.unsettleChan c).abortOn c
  if par old (pid 17 c 5) == par s (pid 17 c 5) then s2
  else s2.onChan c fun x => { x with unsP := Nat.max x.unsP 16, unsW := Nat.max x.unsW 16 }

/-- A change of REF_USE moves all converters (R71, R112). -/
def State.refChange (s : State) : State :=
  let s1 := (List.range 40).foldl State.unsettle s
  let s2 := (List.range 4).foldl (fun x k => (x.abortCheck k).slotDisturb k) s1
  s2.onRef fun r => { r with onB := par s 0x1801 == 1 }

/-! ### The map and the outputs -/

/-- An element's definition: its enable and channels. -/
def elemDef (s : State) (e : Nat) : Nat × Nat × Nat := (par s (pid 20 e 0), curChan s e, voltChan s e)

/-- A circuit's definition: its neutral channel, and its elements with their definitions. -/
def circDef (s : State) (c : Nat) : Nat × List (Nat × Nat × Nat × Nat) :=
  (par s (pid 21 c 3), (circElems s c).map fun e => (e, elemDef s e))

/-- The MAP_CHANGED entry of a definition with registers (R16, Table 18-4). -/
def State.mapEntry (s : State) (c : Nat) (r : Regs) : State :=
  s.log 0x0105 (le 1 c ++ zeros 1 ++ le 8 (r.e.getD 0 0 / 2 ^ 32)) [le 8 (r.e.getD 1 0 / 2 ^ 32)]

/-- Log a redefined circuit with its registers (R16). -/
def State.mapLog (old : State) (s : State) (c : Nat) : State :=
  if circDef old c == circDef s c then s else s.mapEntry c (s.me.regCircF.getD c (Regs.zero 12))

/-- Log a redefined element that no circuit lists, with circuit 0xFF and its own registers (R16; assumption 72). -/
def State.elemLog (old : State) (s : State) (e : Nat) : State :=
  if elemDef old e == elemDef s e || circOfElem old e != 0xFF || circOfElem s e != 0xFF then s
  else s.mapEntry 0xFF (s.me.regElemF.getD e (Regs.zero 12))

/-- A change of QUANTITY, TARGET or PULSE_UWH clears an output's residue (R190). -/
def cfReset (old s : State) (k : Nat) (c : Cf) : Cf :=
  if [0, 1, 4].all (fun m => par old (pid 26 k m) == par s (pid 26 k m)) then c
  else { c with acc := 0, ready := [], openE := [], openP := [], clipped := false }

/-- The Pioneer branch takes new biquads at the first boundary strictly after a KEEP load (R141). -/
def State.pioReload (s : State) (c : Nat) : State :=
  match (s.filt c).pioReload with
  | none => s
  | some (b, bq) =>
    if b < blockIdx s.now then
      s.onFilt c fun f =>
        { f with pioReload := none, pioBq := bq, pioSt := zeroStates bq.length,
                 pioUns := Nat.max f.pioUns (bqSettle s c) }
    else s

/-- Committed changes that wait for a block boundary come into use, with their consequences (R16, R74, R131, R193, R202). -/
def State.applyBlock (s : State) : State :=
  let s1 := s.takeScheduled (fun id => effOf id == .block && (id != 0x1801 || s.me.kernels))
  let s2 := (List.range 36).foldl (State.chanChange s) s1
  let s3 := if par s 0x1801 == par s2 0x1801 then s2 else s2.refChange
  let s4 := (List.range 28).foldl (State.elemLog s) ((List.range 28).foldl (State.mapLog s) s3)
  let s5 := s4.onMe fun m => { m with cfs := m.cfs.mapIdx (cfReset s s4) }
  (List.range 36).foldl State.pioReload s5

/-! ### B1, B2 and the handover (R44 to R48, R54) -/

/-- Whether windows resume at B1, and the gap in ms (R54). -/
def resumes (s : State) : Option Nat :=
  match s.hw.resume with
  | none => none
  | some (t, src, utc, osf) =>
    let gap := (s.now - t) / 65536000000
    if gap < par s (pid 2 0 13) && t ≤ s.now && !osf && utc == utcOffset s && src == parCommitted s (pid 7 0 0) then some gap
    else none

/-- The aggregation state of the last complete checkpoint. -/
def savedSums (s : State) : Option PqSums :=
  match s.hw.ledger with
  | some (0, _) => s.pq.savedA
  | some (_, _) => s.pq.savedB
  | none => none

/-- A bus when its aggregation starts fresh, or from what a checkpoint holds; `same` says that the 10-minute interval is still
in progress. Pst values from before the gap make every Plt that holds them GAP_SPANNED (R54, R207, R218). -/
def PqBus.begin (r : PqBus) (from_ : Option PqBusSums) (same : Bool) : PqBus :=
  let r0 := { r with edge := none, old := none, events := 0, freqSum := 0, freqN := 0, freqOr := 0, aggN := 0, aggFresh := true,
                     aggDue := none, aggPars := none, pstFresh := true }
  match from_ with
  | none => { r0 with pstHist := List.replicate 3 [] }
  | some e =>
    let h := e.pstHist.map fun l => l.map fun v => (v.1, orStatus v.2 4)
    let r1 := { r0 with pstHist := h, plt := h.map pltOf }
    if same && e.edge.isNone then { r1 with events := e.events, freqSum := e.freqSum, freqN := e.freqN, freqOr := e.freqOr } else r1

/-- The sums of a checkpoint as they count at its end: where a 10-minute interval waited for its straddling window, its sums
have gone to the 2-hour interval, or nowhere where that ended too. -/
def resumedAccs (s : State) (c : PqSums) : List PqAcc :=
  (List.range 2).foldl
    (fun l b =>
      match (c.buses[b]?).bind (·.edge) with
      | none => l
      | some e =>
        let ended := fun (a : PqAcc) => accOfBus s b a && (a.level == 2 || e.two.isSome)
        let rest := l.filter fun a => !ended a
        if e.two.isSome then rest else feedTwoHours rest (l.filter ended) e.status) c.accs

/-- Aggregations start: resumed from a checkpoint with GAP_SPANNED, as far as their intervals are still in progress, or fresh
(R54, R55, R218). -/
def State.pqBegin (s : State) (from_ : Option PqSums) : State :=
  let s1 := s.pqSync
  s1.onPq fun q =>
    let q1 := { q with agg := true, aggWait := false, supraDue := [], tenClk := s.clk }
    match from_ with
    | none => { q1 with accs := [], mark10m := 2, mark2h := 2, buses := q.buses.map fun r => r.begin none false }
    | some c =>
      let same10 := utcIdx s c.t 600 == utcIdx s s.now 600
      let same2h := utcIdx s c.t 7200 == utcIdx s s.now 7200
      { q1 with accs := (resumedAccs s c).filter (fun a => if a.level == 2 then same10 else same2h),
                mark10m := if same10 then orStatus c.mark10m 4 else 2, mark2h := if same2h then orStatus c.mark2h 4 else 2,
                buses := q.buses.mapIdx fun b r => r.begin c.buses[b]? same10 }

/-- Demand and power-quality windows resume from the checkpoint at B1, or start fresh; a resumed demand window carries
GAP_SPANNED until it holds no sub-interval from before the gap (R53, R54, R218). A sub-interval end that falls into the gap
closes nothing: the resumed sub-interval runs on to the next end (assumption 79). -/
def State.resumeHistory (s : State) : State :=
  let s1 := s.onHw fun h => { h with resume := none }
  match resumes s with
  | some gap =>
    ((s1.pqBegin (savedSums s)).onMe fun m =>
      { m with circRun := m.circRun.map fun r => { r with gapLeft := m.demandCfg.2 } }).log 0x0109 (le 4 gap)
  | none =>
    (s1.pqBegin none).onMe fun m =>
      { m with circRun := m.circRun.map fun r => { r with subNow := [0, 0, 0, 0], subs := [], demHist := true } }

/-- The full engine accumulates from B1 (R44, R47). -/
def State.beginB1 (s : State) : State :=
  let s1 := (s.onMe fun m => { m with fromB1 := true }).onPw fun p => { p with shadow := .running, startGap := 0 }
  (s1.log 0x0201 (le 4 s.pw.startGap)).resumeHistory

/-- Total active registers of the full engine take Pioneer's values (R45). -/
def takeActive (f p : Regs) : Regs := { f with e := (p.e.take 2) ++ f.e.drop 2 }

/-- The full engine takes the books (R45). -/
def State.handover (s : State) : State :=
  let s1 := s.onMe fun m =>
    { m with regElemF := (m.regElemF.zip m.regElemP).map (fun e => takeActive e.1 e.2),
             regCircF := (m.regCircF.zip m.regCircP).map (fun e => takeActive e.1 e.2) }
  (s1.onPw fun p => { p with acct := true, handoverPending := false, shadow := .none }).log 0x0202
    (le 1 1 ++ le 1 s.pw.handoverCause)

/-- CF0 to CF7 and the display pass to Pioneer at the first boundary after a DSP reload (R411). -/
def State.reloadPass (s : State) : State :=
  if s.wd.dspReloadWait then
    let s1 := (s.onWd fun w => { w with dspReloadWait := false }).onPw fun p =>
      { p with acct := false, handoverPending := 3 ≤ p.stage, handoverCause := 2 }
    if s.pw.acct then s1.log 0x0202 (le 1 0 ++ le 1 2) else s1
  else s

/-- B1, B2 or Bh at this boundary. -/
def State.books (s : State) : State :=
  if s.me.kernels && !s.me.fromB1 then s.beginB1
  else
    let s1 := if s.pw.shadow == .running then s.onPw fun p => { p with shadow := .finished } else s
    if s1.me.fromB1 && !s1.pw.acct && 3 ≤ s1.pw.stage && s1.wd.canopyRunning then s1.handover else s1

/-- A rebuilt Pioneer record comes into use, and the gap is logged (R36). -/
def State.pioBegin (s : State) : State :=
  if s.hw.pioWait then
    (s.onHw fun h => { h with pioWait := false, pioGap := 0 }).log 0x0208 (le 4 s.hw.pioGap)
  else s

/-- DEMAND_RESET requests take effect: the maxima are cleared and logged (R188, R201). -/
def State.clearMax (s : State) (c : Nat) : State :=
  let r := circRunOf s c
  if r.resetReq then
    (s.onRun c fun x => { x with resetReq := false, maxP := 0, maxPTime := 0, maxS := 0, maxSTime := 0 }).log 0x0206
      (le 1 c ++ zeros 3 ++ le 4 r.maxP ++ le 4 r.maxS)
  else s

/-! ### Latched values (R80, R318) -/

/-- CAL_AGE_S of a channel. -/
def calAge (s : State) (c : Nat) : Nat :=
  let x := s.conv (serving s c)
  match x.trim.cals.lookup (chanGain s c) with
  | some t => satN 0xFFFFFFFE (secsSince s t)
  | none => 0xFFFFFFFF

/-- Members 0 to 19 of CHAN_STAT at a boundary. HEALTH bit 1 follows the serving converter (assumption 75). -/
def chanLatch (s : State) (c : Nat) : List Nat :=
  let x := s.chan c
  let f := s.filt c
  let v := serving s c
  let peak := satN 65535 (quant s (600 + c) ((x.peak : Rat) * 10000 / fullScale)).toNat
  let health := flagAt x.satBlock 0 + flagAt (s.conv v).stuck 1 + flagAt (36 ≤ v) 2 + flagAt x.unsBlock 3
  let age := match x.matchClk with
    | none => 0xFFFFFFFF
    | some t => satN 0xFFFFFFFE (secsSince s t)
  [x.satCount, (s.conv v).resets, peak, calAge s c, health, x.matchGain, ofSigned 32 x.matchOffset,
   ofSigned 32 x.matchPhase, age, x.pcResult, x.pcOhm, x.pcDeg, checkAge s c, x.pcCount, filterWord f, f.bankA.id,
   (f.bankB.map CoefSet.id).getD 0, f.displaced, rmsWin s c, (((pqResult s 1 0 c).map (·.vals)).getD []).getD 64 0]

/-- Latch the channels and start their next block. -/
def State.latchChans (s : State) : State :=
  { s with chans := s.chans.mapIdx fun c x =>
      let l := chanLatch s c
      { x with latch := l, peakPct := l.getD 2 0, health := l.getD 4 0, peak := 0, satBlock := false, unsBlock := false } }

/-- The snap window's block words (R318, Table 13-11). -/
def State.latchSnap (s : State) (b : Closed) : State :=
  let p := if s.pw.acct then b.cf else b.cp
  let est := if s.me.fromB1 then b.cf else b.cp
  s.onLk fun l =>
    { l with blockSeq := u32 (l.blockSeq + 1), snapP := p.map (fun x => powerF32 x.pc x.n),
             snapQ := b.cf.map (fun x => powerF32 x.q1c x.n), snapS := b.cf.map (fun x => powerF32 (x.se : Int) x.n),
             estimatedMap := packFlags (est.map (fun x => bitAt x.status 0)) }

/-- Demand values of a circuit are incomplete (R53, R187). -/
def demIncomplete (n : Nat) (r : CircRun) : Bool := r.subs.length < n || (r.subs.take n).any (·.2)

/-- Sums of a new block. -/
def Metro.fresh (m : Metro) (t : Nat) : Metro :=
  { m with elemF := List.replicate 28 ElemAcc.zero, elemP := List.replicate 28 ElemAcc.zero,
           circF := List.replicate 28 CircAcc.zero, blockEnd := t, blockN := 0, blockStep := false }

/-- ESTIMATED_BLOCKS follows the engine that runs (R185). -/
def State.countEstimated (s : State) (b : Closed) : State :=
  let l := if s.me.fromB1 then b.ef else b.ep
  s.onMe fun m =>
    { m with elemRun := (m.elemRun.zip l).map (fun e =>
        (if bitAt e.2.status 0 then { e.1 with estBlocks := u32 (e.1.estBlocks + 1) } else e.1)) }

/-- What the full engine derives from its block: powers, demand sums, cross-check and tamper conditions. -/
def State.judgeBlock (s : State) (b : Closed) : State :=
  if !s.me.fromB1 then s
  else
    let s1 := s.onMe fun m =>
      { m with circRun := (m.circRun.zip b.cf).mapIdx (fun c e => circTake s e.2 c e.1) }
    let s2 := (List.range 28).foldl
      (fun x c => if demIncomplete s.me.demandCfg.2 (circRunOf x c) then x.circBit c 8 else x) s1
    (s2.xcheck b).metroTamper b

end Sys2Proof.Machine
end

