-- ==== Sys2Proof/Machine/PqOps.lean ====
section
/-! DEFINITION. Power-quality windows, spectra, bands and events, computed from the stream (R203 to R217, R220 to R224). -/

namespace Sys2Proof.Machine

/-- A PQ member of a bus, and as a share of 1. -/
def pqPar (s : State) (b m : Nat) : Nat := par s (0x2800 + 16 * b + m)
def pqPct (s : State) (b m : Nat) : Rat := (pqPar s b m : Rat) / 10000

/-- The bus is three-wire (R15). -/
def threeWire (s : State) (b : Nat) : Bool := pqPar s b 0 == 1

/-! ### The stream (R203, R206, R208) -/

/-- What a bus measures of phase `p` at an instant: its channel, or on a three-wire bus in second place the third line-to-line
voltage, formed sample by sample: the channels of L1 and L3 carry L1–L2 and L3–L2 (R15, R208). -/
def phaseVal (s : State) (b p : Nat) (x : Wave) : Rat :=
  if threeWire s b && p == 1 then x.x.getD (4 * b + 2) 0 - x.x.getD (4 * b) 0 else x.x.getD (4 * b + p) 0

/-- The instants of the stream from one place to before another, newest first. -/
def waveSpan (s : State) (a e : Rat) : List Wave :=
  (s.wave.dropWhile fun x => decide (e ≤ (x.n : Rat))).takeWhile fun x => decide (a ≤ (x.n : Rat))

/-- The value between samples of a list, newest first (R206). -/
def interpAt (l : List Rat) (q : Rat) : Rat := tapWith Config.windowTap l q

/-- Points of a window, 1,024 to the cycle, oldest first (R206). -/
def winPoints (s : State) (val : Wave → Rat) (w : PqWin) (cycles : Nat) : List Rat :=
  let l := s.wave.map val
  (List.range (1024 * cycles)).map fun j => interpAt l ((waveN s : Rat) - (w.start + (j : Rat) * 25000 / (1024 * w.hz)))

/-- The place at which a window of whole cycles ends. -/
def winEnd (w : PqWin) (cycles : Nat) : Rat := w.start + (cycles : Rat) * 25000 / w.hz

/-- Half the amplitude phasor of a DFT bin. -/
def dftBin (l : List Rat) (k : Nat) : Rat × Rat :=
  let n : Rat := (l.length : Nat)
  (sumQ (l.mapIdx fun j x => x * Config.cosDeg (360 * (k : Rat) * (j : Rat) / n)) / n,
   sumQ (l.mapIdx fun j x => x * Config.cosDeg (360 * (k : Rat) * (j : Rat) / n + 90)) / n)

/-- C²(k): the squared rms of a DFT bin; C(0) is the DC value (R214). -/
def binRms (l : List Rat) (k : Nat) : Rat :=
  let z := dftBin l k
  if k == 0 then z.1 * z.1 else 2 * (z.1 * z.1 + z.2 * z.2)

/-- One channel's 10/12-cycle window (R206, R214): C²(k) for each DFT bin, the rms squared, the fundamental phasor, and whether
the window holds substitutes or clamped samples or overlaps a path check. -/
structure WinIn where
  chan : Nat
  c2 : List Rat
  ms : Rat
  re : Rat
  im : Rat
  est : Bool
  sat : Bool
  probe : Bool
deriving DecidableEq, Repr

/-! ### Spectra (R214, R215) -/

/-- Bins per order, and half of them (R214). -/
def binsN (s : State) : Nat := if par s (pid 2 0 0) == 60 then 12 else 10
def binsM (s : State) : Nat := binsN s / 2

/-- The two bins that bracket 2,312.5 Hz at the measured frequency (R113, R214). -/
def probeBins (s : State) (f1 : Rat) : List Nat :=
  if f1 ≤ 0 then [] else let k := (2312 + 1 / 2 : Rat) * (binsN s : Rat) / f1; [k.floor.toNat, k.floor.toNat + 1]

/-- C²(k) of a window without the excluded bins. -/
def binSq (w : WinIn) (ex : List Nat) (k : Nat) : Rat := if ex.contains k then 0 else w.c2.getD k 0

/-- Sum of C² over bins `lo` to `hi`. -/
def binSum (w : WinIn) (ex : List Nat) (lo hi : Nat) : Rat :=
  (List.range (hi + 1 - lo)).foldl (fun a k => a + binSq w ex (lo + k)) 0

/-- G_h² of an order: subgroup on voltages, group on currents; order 0 is the DC value (R214). -/
def harmSq (s : State) (w : WinIn) (ex : List Nat) (h : Nat) : Rat :=
  let n := binsN s
  let m := binsM s
  if h == 0 then binSq w ex 0
  else if isVolt w.chan then binSum w ex (n * h - 1) (n * h + 1)
  else binSq w ex (n * h - m) / 2 + binSum w ex (n * h - (m - 1)) (n * h + (m - 1)) + binSq w ex (n * h + m) / 2

/-- C_ih² of the band between orders h and h + 1 (R214). -/
def interSq (s : State) (w : WinIn) (ex : List Nat) (h : Nat) : Rat :=
  let n := binsN s
  if isVolt w.chan then binSum w ex (n * h + 2) (n * h + n - 2) else binSum w ex (n * h + 1) (n * h + n - 1)

/-- Σ G_h² over orders 2 to 40. -/
def distortion (g : List Rat) : Rat := (List.range 39).foldl (fun a k => a + g.getD (k + 2) 0) 0

/-- Squared THD in %² (R214); free when G_1 is 0. -/
def thdSq (s : State) (k : Nat) (g : List Rat) : Rat :=
  if g.getD 1 0 == 0 then let v := ratOfF32 (Config.freeF32 (s.free + k)); v * v else distortion g / g.getD 1 0 * 10000

/-- KIND 1 values of a window, squared: orders 0 to 63 and THD. -/
def harmonics (s : State) (w : WinIn) (ex : List Nat) : List Rat :=
  let g := (List.range 64).map (harmSq s w ex)
  g ++ [thdSq s w.chan g]

/-- An excluded bin lies in a harmonic value of the channel (R113). -/
def harmProbed (s : State) (w : WinIn) (ex : List Nat) : Bool :=
  !isVolt w.chan || ex.any (fun k => k % binsN s ≤ 1 || k % binsN s == binsN s - 1)

/-- The bins that measure a mains signalling frequency (R215): one that it meets to within 0.5 % of the spacing, or the four
nearest. -/
def msvBins (s : State) (f1 : Rat) (hz : Nat) : List Nat :=
  if hz == 0 || f1 ≤ 0 then []
  else
    let k := (hz : Rat) * (binsN s : Rat) / f1
    let near := (roundAway k).toNat
    if absQ (k - (near : Rat)) ≤ 1 / 200 then [near]
    else ((List.range 4).filter (fun j => k.floor.toNat + j != 0)).map fun j => k.floor.toNat + j - 1

/-- Squared mains signalling value of one frequency in a window, without the excluded bins (R113, R215). -/
def msvSq (s : State) (f1 : Rat) (w : WinIn) (hz : Nat) : Rat :=
  sumQ ((msvBins s f1 hz).map (binSq w (if w.probe then probeBins s f1 else [])))

/-- A bus's mains signalling values leave out a bin for a path check (R113, R205). -/
def msvProbed (s : State) (b : Nat) (f1 : Rat) (wins : List WinIn) : Bool :=
  wins.any fun w => w.probe && w.chan / 4 == b && w.chan % 4 != 3 && w.chan < 8 &&
    (List.range 4).any fun x => (msvBins s f1 (pqPar s b (9 + x))).any (probeBins s f1).contains

/-! ### Symmetrical components (R208) -/

/-- A phasor. -/
abbrev Ph := Rat × Rat

/-- A phasor turned by 120° `k` times. -/
def turn (p : Ph) (k : Nat) : Ph :=
  if k % 3 == 0 then p
  else if k % 3 == 1 then (-p.1 / 2 - sqrt3 / 2 * p.2, sqrt3 / 2 * p.1 - p.2 / 2)
  else (-p.1 / 2 + sqrt3 / 2 * p.2, -(sqrt3 / 2) * p.1 - p.2 / 2)

/-- Nine times the squared magnitude of the component in which phase k + 1 is turned by k·m·120°. -/
def compSq (l : List Ph) (m : Nat) : Rat :=
  let t := l.mapIdx (fun k p => turn p (k * m))
  let x := t.foldl (fun a p => a + p.1) 0
  let y := t.foldl (fun a p => a + p.2) 0
  x * x + y * y

/-- Squared unbalances u0 and u2 in %²; free when there is no positive-sequence component. -/
def unbalance (s : State) (k : Nat) (l : List Ph) : Rat × Rat :=
  let p := compSq l 1
  if p == 0 then
    let a := ratOfF32 (Config.freeF32 (s.free + k))
    let b := ratOfF32 (Config.freeF32 (s.free + k + 1))
    (a * a, b * b)
  else (compSq l 0 / p * 10000, compSq l 2 / p * 10000)

/-! ### A window (R206 to R208, R213) -/

/-- A channel's window from the stream. -/
def chanWin (s : State) (w : PqWin) (c : Nat) : WinIn :=
  let n := binsN s
  let pts := winPoints s (fun x => x.x.getD c 0) w n
  let span := waveSpan s w.start (winEnd w n)
  let f := dftBin pts n
  { chan := c, c2 := (List.range (64 * n + binsM s + 1)).map (binRms pts), ms := meanQ (pts.map fun x => x * x), re := f.1, im := f.2,
    est := span.any (fun x => bitAt x.est c), sat := span.any (fun x => bitAt x.sat c), probe := span.any (fun x => bitAt x.probe c) }

/-- The windows of the channels that follow a bus (R206). -/
def busWins (s : State) (b : Nat) (w : PqWin) : List WinIn := ((List.range 36).filter (fun c => chanBus s c == b)).map (chanWin s w)

/-- Squared magnitude of a bus's third line-to-line voltage over a window (R208). -/
def thirdMs (s : State) (b : Nat) (w : PqWin) : Rat := meanQ ((winPoints s (phaseVal s b 1) w (binsN s)).map fun x => x * x)

/-- The window of a channel. -/
def winOf (wins : List WinIn) (ch : Nat) : Option WinIn := wins.find? (fun w => w.chan == ch)

/-- Fundamental phasor of a channel's window. -/
def winPh (wins : List WinIn) (ch : Nat) : Ph := ((winOf wins ch).map (fun w => (w.re, w.im))).getD (0, 0)

/-- Squared magnitude of a channel's window. -/
def winMs (wins : List WinIn) (ch : Nat) : Rat := ((winOf wins ch).map (·.ms)).getD 0

/-- Squared magnitudes of a bus's three phases; a three-wire bus has the line-to-line voltage that the engine forms in the
second place (R208). -/
def busMs (s : State) (b : Nat) (third : Rat) (wins : List WinIn) : List Rat :=
  [winMs wins (4 * b), if threeWire s b then third else winMs wins (4 * b + 1), winMs wins (4 * b + 2)]

/-- u0² and u2² of a bus; a three-wire bus yields u2 only. Its channels carry L1–L2 and L3–L2 (R15). -/
def busUnbalance (s : State) (b : Nat) (wins : List WinIn) : List Rat :=
  let p := winPh wins (4 * b)
  let q := winPh wins (4 * b + 2)
  if threeWire s b then [0, (unbalance s (40 + 2 * b) [p, (-q.1, -q.2), (q.1 - p.1, q.2 - p.2)]).2]
  else let u := unbalance s (40 + 2 * b) [p, winPh wins (4 * b + 1), q]; [u.1, u.2]

/-- The twelve squared mains signalling values of a bus, frequency by frequency (Table 9-9). -/
def busMsv (s : State) (b : Nat) (f1 : Rat) (wins : List WinIn) : List Rat :=
  (List.range 12).map fun k => ((winOf wins (4 * b + k % 3)).map (fun w => msvSq s f1 w (pqPar s b (9 + k / 3)))).getD 0

/-- Squares limited at Udin from above and from below (R215). -/
def limited (u : Rat) (ms : List Rat) : List Rat :=
  ms.map (fun q => if q < u * u then q else u * u) ++ ms.map (fun q => if u * u < q then q else u * u)

/-- Status of a channel's window before the marks of a path check. -/
def winStatus (base : Nat) (w : WinIn) : Nat := base + flagAt w.est 4 + flagAt w.sat 5

/-- Status word of a window on a bus, less what its samples add. -/
def winBase (s : State) (b : Nat) (w : PqWin) : Nat :=
  orStatus w.mark (flagAt (pqBus s b).freqNominal 7 + unlockedBit s + (pqBus s b).flagged w.start (winEnd w (binsN s)))

/-- One channel's window: basic results and sums (R208). -/
def State.takeWin (s : State) (base endT : Nat) (f1 : Rat) (w : WinIn) : State :=
  if 36 ≤ w.chan then s
  else
    let ex := if w.probe then probeBins s f1 else []
    let st := winStatus base w
    let st1 := st + flagAt (w.probe && harmProbed s w ex) 3
    let st2 := st + flagAt w.probe 3
    let h := harmonics s w ex
    let i := (List.range 64).map (interSq s w ex)
    let put := fun (l : List PqRes) (k stt : Nat) (sq : List Rat) => putResult l ⟨k, 0, w.chan, stt, endT, sq.map f32Sqrt, (waveN s : Rat)⟩
    let feed := fun (l : List PqAcc) (k stt : Nat) (sq : List Rat) =>
      accFeed (accFeed l k 1 w.chan sq stt) k 2 w.chan sq stt
    s.onPq fun q =>
      { q with results := put (put (put q.results 0 st [w.ms]) 1 st1 h) 2 st2 i,
               accs := if q.agg then feed (feed (feed q.accs 0 st [w.ms]) 1 st1 h) 2 st2 i else q.accs }

/-- The bus's values of a window (KIND 4). -/
def State.takeBusWin (s : State) (b base endT : Nat) (f1 third : Rat) (wins : List WinIn) : State :=
  let st := orStatus (flagAt (msvProbed s b f1 wins) 3) <| [4 * b, 4 * b + 1, 4 * b + 2].foldl
    (fun a c => orStatus a (((winOf wins c).map (winStatus base)).getD base)) base
  let k4 := busUnbalance s b wins ++ busMsv s b f1 wins
  let k5 := limited (udin s b) (busMs s b third wins)
  s.onPq fun q =>
    { q with results := putResult q.results ⟨4, 0, b, st, endT, busVals (udin s b) k4 k5, (waveN s : Rat)⟩,
             accs := if q.agg then
                 [1, 2, 3].foldl (fun l v => accFeed l 5 v b k5 st) (accFeed (accFeed q.accs 4 1 b k4 st) 4 2 b (k4.take 2) st)
               else q.accs }

/-- CIRC_PQ values of a circuit on the bus (Table 9-15); 0.0 for one that lists no element. -/
def State.takeCircPq (s : State) (b base : Nat) (f1 : Rat) (wins : List WinIn) (c : Nat) : State :=
  let es := circElems s c
  if circBus s c != b then s
  else
    let ws := es.filterMap (fun e => winOf wins (curChan s e))
    let gs := ws.map (fun w => harmonics s w (if w.probe then probeBins s f1 else []))
    let un := if es.length == 3 then
        let u := unbalance s (44 + 2 * c) (es.map (fun e => winPh wins (curChan s e)))
        (f32Sqrt u.1, f32Sqrt u.2)
      else (0, 0)
    let il := parF s (pid 23 c 4)
    let top := fun (f : List Rat → Rat) => gs.foldl (fun a g => if a < f g then f g else a) 0
    let st := ws.foldl
      (fun a w => orStatus a (winStatus base w + flagAt (w.probe && harmProbed s w (probeBins s f1)) 3)) base
    let set := fun (l : List Nat) (v : Nat) => modAt l c fun _ => v
    s.onPq fun q =>
      { q with unb2 := set q.unb2 un.2, unb0 := set q.unb0 un.1, ithd := set q.ithd (f32Sqrt (top fun g => g.getD 64 0)),
               inRms := set q.inRms (((neutral s c).map (fun n => rmsWin s n.1)).getD 0),
               tdd := set q.tdd (if il ≤ 0 then 0 else f32Sqrt (top distortion / (il * il) * 10000)),
               status := set q.status st }

/-- Next sliding reference (R209): a window that is not FLAGGED moves it. -/
def slideNext (u : Rat) (old : Option (List Rat)) (ms : List Rat) (flagged : Bool) : Option (List Rat) :=
  if flagged then old
  else some (ms.mapIdx fun p q => (9967 : Rat) / 10000 * ((old.getD []).getD p u) + (33 : Rat) / 10000 * ratSqrt q)

/-- Bit 0 of a queued archive record's RESULT_STATUS, and its CRC. -/
def archiveFlag (bs : List Byte) : List Byte :=
  let body := modAt (bs.take 124) 4 fun x => x.or 1
  body ++ le 4 (crc32c body)

/-- FLAGGED on a frequency, a Pst and the 10-minute sums that have closed after a one-cycle interval began (R213). -/
def PqBus.flagLate (r : PqBus) (start : Rat) : PqBus :=
  let or1 := fun (v : Nat × Nat) => (v.1, orStatus v.2 1)
  let r1 : PqBus :=
    if r.start10 ≤ start then r
    else
      { r with freqStatus := orStatus r.freqStatus 1,
               edge := r.edge.map fun e => if r.freqEnd.any (· ≤ e.endT) then { e with freqOr := orStatus e.freqOr 1 } else e,
               freqOr := if r.edge.any (fun e => r.freqEnd.any (· ≤ e.endT)) || r.freqN == 0 then r.freqOr else orStatus r.freqOr 1 }
  if r1.pstPlace ≤ start || r1.pstEnd.isNone then r1
  else
    let h := r1.pstHist.map fun l => match l with
      | v :: k => or1 v :: k
      | [] => []
    { r1 with pst := r1.pst.map or1, pstHist := h, plt := r1.plt.map or1 }

/-- FLAGGED on the 200 ms intervals that have ended after a one-cycle interval began, and on the sums that hold them (R205). -/
def State.flagSupra (s : State) (b : Nat) (start : Rat) : State :=
  if s.pq.blockT ≤ instantOf s start then s
  else
    let mine := fun (c : Nat) => chanBus s c == b
    s.onPq fun q =>
      { q with results := q.results.map (fun x => if x.kind == 3 && mine x.chan && decide (instantOf s start < x.endT) then
                 { x with status := orStatus x.status 1 } else x),
               accs := q.accs.map fun a => if a.kind == 3 && mine a.chan then { a with status := orStatus a.status 1 } else a }

/-- FLAGGED on the windows that have ended after a one-cycle interval began, on what has been closed with them, and on the sums
that hold them (R213). -/
def State.flagLate (s : State) (b : Nat) (start : Rat) : State :=
  let r := pqBus s b
  if r.lastEnd ≤ start then s
  else
    let mine := fun (k c : Nat) => k != 3 && (if k == 4 then c == b else chanBus s c == b)
    let from_ := instantOf s r.lastStart
    (s.onPq fun q =>
      { q with results := q.results.map (fun x => if mine x.kind x.chan && decide (r.lastEnd ≤ x.formed) then
                 { x with status := orStatus x.status 1 } else x),
               accs := q.accs.map (fun a => if accOfBus s b a then { a with status := orStatus a.status 1 } else a),
               archive := q.archive.map (fun x =>
                 if fieldAt x 2 1 == b && from_ ≤ ofTime80 (fieldAt x 8 10) then archiveFlag x else x) }).onBus b
      fun v => { v with sliding := v.slidingPrev, aggDue := v.aggDue.map fun e => (e.1, orStatus e.2 1) }

/-! ### Events (R209 to R212, R220 to R224) -/

/-- Event value word of X records 40 and 41 (R224). -/
def eventWord (e : PqEvent) : Nat := e.cls * 2 ^ 24 + e.bus * 2 ^ 16 + e.id % 65536

/-- X record of an event, while the queue is streaming, and the interrupt of its start or end (R224, Table 13-10). -/
def State.eventMark (s : State) (code t : Nat) (e : PqEvent) : State :=
  (if s.qu.streaming then s.qX code 0 (eventWord e) t else s).irq 10

/-- The open event of a class on a bus; mains signalling events also by their index. -/
def openEvent (s : State) (b cls : Nat) (idx : Rat) : Option PqEvent :=
  (pqBus s b).open_.find? (fun e => e.cls == cls && (cls != 5 || e.second == idx))

/-- A class is open. -/
def isOpen (s : State) (b cls : Nat) : Bool := (pqBus s b).open_.any (fun e => e.cls == cls)

/-- The lowest unit in its post phase (R221). -/
def postUnit (s : State) : Nat × Nat :=
  match (List.range 4).find? (fun u => (s.unit u).st == 2) with
  | some u => (u, ((s.unit u).cur.map (·.no)).getD 0)
  | none => (0xFF, 0)

/-- A unit's CFG selects a class and a bus of power-quality events (Table 7-15). -/
def cuWants (cfg cls b : Nat) : Bool := bitsAt cfg 4 3 == 5 && cls < 5 && bitAt cfg (16 + cls) && bitAt cfg (24 + b)

/-- An event's start reaches the recorder (R169, R172, R212): a capture in its post phase is linked to it and counts a
retrigger; a unit that its class and bus trigger gets the trigger. -/
def State.eventToUnits (s : State) (cls b id t : Nat) : State :=
  { s with units := s.units.map fun (u : CapUnit) =>
      if u.st == 2 then
        { u with cur := u.cur.map fun k =>
            { k with eventId := if k.eventId == 0 then id else k.eventId, linked := k.linked ++ [id],
                     retriggers := satN 65535 (k.retriggers + 1) } }
      else if u.st != 0 && cuWants u.cfg cls b then { u with due := u.due ++ [(t, 5, id)] }
      else u }

/-- An event that starts at an instant counts in the 10-minute interval that holds it. -/
def PqBus.countEvent (r : PqBus) (t : Nat) : PqBus :=
  match r.edge with
  | some e =>
    if t < e.endT then { r with edge := some { e with events := satN 65535 (e.events + 1) } }
    else { r with events := satN 65535 (r.events + 1) }
  | none => { r with events := satN 65535 (r.events + 1) }

/-- An event starts at an instant (R209, R212, R220). -/
def State.eventOpen (s : State) (b t cls phases : Nat) (extreme second : Rat) (means : List Rat) : State :=
  let u := postUnit s
  let e : PqEvent :=
    { cls := cls, bus := b, id := s.pq.nextId, pos := s.pq.eventPos, start := t, phases := phases,
      eflags := 1 + flagAt (s.te.servo != .locked) 4 + flagAt (cls == 0 && pqPar s b 8 == 1) 5, dur := 0, extreme := extreme,
      second := second, means := means, cu := u.1, capture := u.2 }
  let s1 := (s.onPq fun q =>
    { q with nextId := if q.nextId == 0xFFFFFFFF then 1 else q.nextId + 1, eventPos := (q.eventPos + 1) % 1024,
             writes := q.writes ++ [e] }).eventToUnits cls b e.id t
  (s1.onBus b fun r => { r with open_ := r.open_ ++ [e] }.countEvent t).eventMark 40 t e

/-- Milliseconds between two instants. -/
def spanMs (s : State) (k a t : Nat) : Nat := satN 0xFFFFFFFF (quant s k (((t : Rat) - (a : Rat)) / 65536000000)).toNat

/-- An open event ends at an instant, with further flags (R209 to R211). -/
def State.eventEnd (s : State) (b t : Nat) (e : PqEvent) (flags : Nat) : State :=
  let done := { e with dur := spanMs s 0 e.start t, eflags := e.eflags - 1 + flags }
  let s1 := (s.onPq fun q => { q with writes := q.writes ++ [done] }).onBus b fun r =>
    { r with open_ := r.open_.filter (fun x => x.id != e.id) }
  (s1.eventMark 41 t done).drew 1

/-- Update an open event. -/
def State.onEvent (s : State) (b cls : Nat) (f : PqEvent → PqEvent) : State :=
  s.onBus b fun r => { r with open_ := r.open_.map (fun e => if e.cls == cls then f e else e) }

/-- Phases for which a test holds, as PHASES. -/
def phaseMask (l : List Bool) : Nat := packFlags (l.take 3)

/-- Least and greatest of three values. -/
def minQ (l : List Rat) : Rat := l.foldl (fun a x => if x < a then x else a) (l.headD 0)
def maxQ (l : List Rat) : Rat := l.foldl (fun a x => if a < x then x else a) (l.headD 0)

/-- Judge one class: start where none is open, follow the extreme, end. -/
def State.judge (s : State) (b t cls : Nat) (phases : Nat) (start stop : Bool) (x : Rat) (worse : Rat → Rat → Bool) : State :=
  match openEvent s b cls 0 with
  | none => if start then s.eventOpen b t cls phases x 0 [] else s
  | some e =>
    let e2 := { e with phases := e.phases.lor phases, extreme := if worse x e.extreme then x else e.extreme }
    if stop then s.eventEnd b t e2 0 else s.onEvent b cls fun _ => e2

/-- Sliding or fixed reference of a phase for dips (R209). -/
def dipRef (s : State) (b p : Nat) : Rat :=
  if pqPar s b 8 == 1 then (((pqBus s b).sliding).getD []).getD p (udin s b) else udin s b

/-- A share in % of a reference; free for a reference of 0. -/
def sharePct (s : State) (x ref : Rat) : Rat := if ref ≤ 0 then ratOfF32 (Config.freeF32 s.free) else x / ref * 100

/-- Dips, swells and interruptions on new values (Table 9-3). -/
def State.judgeMain (s : State) (b t : Nat) (u : List Rat) : State :=
  let n := udin s b
  let hy := pqPct s b 5
  let dips := u.mapIdx (fun p x => decide (x < pqPct s b 2 * dipRef s b p))
  let dipEnd := (u.mapIdx (fun p x => decide ((pqPct s b 2 + hy) * dipRef s b p ≤ x))).all id
  let swells := u.map (fun x => decide (pqPct s b 3 * n < x))
  let swellEnd := u.all (fun x => decide (x ≤ (pqPct s b 3 - hy) * n))
  let intr := u.map (fun x => decide (x < pqPct s b 4 * n))
  let intrEnd := u.any (fun x => decide ((pqPct s b 4 + hy) * n ≤ x))
  let s1 := s.judge b t 0 (phaseMask dips) (dips.any id) dipEnd (minQ (u.mapIdx (fun p x => sharePct s x (dipRef s b p))))
    (fun a c => decide (a < c))
  let s2 := s1.judge b t 1 (phaseMask swells) (swells.any id) swellEnd (sharePct s (maxQ u) n) (fun a c => decide (c < a))
  s2.judge b t 2 (phaseMask intr) (intr.all id) intrEnd (sharePct s (minQ u) n) (fun a c => decide (a < c))

/-- Values that steady state looks at (R211). -/
def steadyN (s : State) : Nat := if par s (pid 2 0 0) == 60 then 120 else 100

/-- Steady state of a bus (R211). -/
def steady (s : State) (b : Nat) : Bool :=
  (pqBus s b).half.all fun h =>
    let l := h.take (steadyN s)
    l.length == steadyN s && l.all (fun x => decide (absQ (x - meanQ l) ≤ pqPct s b 6 * udin s b))

/-- Means of the phases. -/
def halfMeans (s : State) (b : Nat) : List Rat := (pqBus s b).half.map (fun h => meanQ (h.take (steadyN s)))

/-- Departures of values from means. -/
def departures (u m : List Rat) : List Rat := (u.zip m).map (fun e => absQ (e.1 - e.2))

/-- Rapid voltage changes on new values (R211). A start of a dip or swell discards an open one and steady state forms anew. -/
def State.judgeRvc (s : State) (b t : Nat) (u : List Rat) (began : Bool) : State :=
  let n := udin s b
  if began then
    let s1 := match openEvent s b 3 0 with
      | some e => s.eventEnd b t e 4
      | none => s
    s1.onBus b fun r => { r with half := u.map (fun x => [x]), rvcArmed := false }
  else
    let m := halfMeans s b
    let d := departures u m
    let hit := d.map (fun x => decide (pqPct s b 6 * n < x))
    let push := fun (x : State) =>
      x.onBus b fun r => { r with half := (r.half.zip u).map (fun e => (e.2 :: e.1).take 120) }
    let s1 := match openEvent s b 3 0 with
      | some e =>
        let dm := departures u e.means
        let e2 := { e with phases := e.phases.lor (phaseMask (dm.map (fun x => decide (pqPct s b 6 * n < x)))),
                           extreme := if e.extreme < sharePct s (maxQ dm) n then sharePct s (maxQ dm) n else e.extreme }
        let p := push (s.onEvent b 3 fun _ => e2)
        if steady p b then p.eventEnd b t { e2 with second := sharePct s (maxQ (departures (halfMeans p b) e.means)) n } 0 else p
      | none =>
        if (pqBus s b).rvcArmed && hit.any id then push (s.eventOpen b t 3 (phaseMask hit) (sharePct s (maxQ d) n) 0 m)
        else push s
    let s2 := s1
    s2.onBus b fun r => { r with rvcArmed := steady s2 b && !isOpen s2 b 0 && !isOpen s2 b 1 && !isOpen s2 b 3 }

/-- Deviations on new values (R210, Table 9-3). -/
def State.judgeDev (s : State) (b t : Nat) (u : List Rat) (began : Bool) : State :=
  let n := udin s b
  let out := fun (w : Rat) => u.map (fun x => decide (x < n * (1 - w)) || decide (n * (1 + w) < x))
  let big := out (pqPct s b 7)
  let far := u.foldl (fun a x => if absQ (a - n) < absQ (x - n) then x else a) (u.headD 0)
  let x := sharePct s far n
  match openEvent s b 4 0 with
  | none => if big.any id && !isOpen s b 0 && !isOpen s b 1 then s.eventOpen b t 4 (phaseMask big) x 0 [] else s
  | some e =>
    let e2 := { e with phases := e.phases.lor (phaseMask big),
                       extreme := if absQ (e.extreme - 100) < absQ (x - 100) then x else e.extreme }
    if began then s.eventEnd b t e 2
    else if (out (pqPct s b 7 - pqPct s b 5 / 2)).any id then s.onEvent b 4 fun _ => e2
    else s.eventEnd b t e2 0

/-- A dip, swell or interruption is open. -/
def flags3 (s : State) (b : Nat) : Bool := isOpen s b 0 || isOpen s b 1 || isOpen s b 2

/-- Mains signalling events on a closed 150/180-cycle interval: index `x`, the three squared values (Table 9-3). -/
def State.judgeMsv (s : State) (b t x : Nat) (sq : List Rat) : State :=
  let n := udin s b
  let lim := pqPct s b 13 * n
  let hit := sq.map (fun q => decide (lim * lim < q))
  let top := sharePct s (ratSqrt (maxQ sq)) n
  match openEvent s b 5 (x : Rat) with
  | none => if pqPar s b (9 + x) != 0 && hit.any id then s.eventOpen b t 5 (phaseMask hit) top (x : Rat) [] else s
  | some e =>
    let e2 := { e with phases := e.phases.lor (phaseMask hit), extreme := if e.extreme < top then top else e.extreme }
    if hit.any id then
      s.onBus b fun r => { r with open_ := r.open_.map (fun v => if v.id == e.id then e2 else v) }
    else s.eventEnd b t e2 0

/-! ### Records (R219 to R223) -/

/-- A share in % as U16 in units of 0.01 %. -/
def centi (s : State) (k : Nat) (q : Rat) : Nat := satN 65535 (quant s k (q * 100)).toNat

/-- An event record (Table 9-5). -/
def eventBytes (s : State) (e : PqEvent) : List Byte :=
  le 1 e.cls ++ le 1 e.bus ++ le 1 e.phases ++ le 1 e.eflags ++ le 4 e.id ++ le 10 (time80 e.start) ++ le 4 e.dur ++
  le 2 (centi s 0 e.extreme) ++ le 2 (if e.cls == 5 then e.second.floor.toNat else centi s 1 e.second) ++ le 1 e.cu ++ zeros 1 ++
  le 4 e.capture

/-- Captures of a unit that name an event. -/
def unitCapture (c : CapUnit) (id : Nat) : Option Capture := (c.cur.toList ++ c.held).find? (fun k => k.eventId == id || k.linked.contains id)

/-- The capture linked to an event (R221): the lowest unit with a capture that the event triggered or was linked to. -/
def linkOf (s : State) (e : PqEvent) : Nat × Nat :=
  match (List.range 4).findSome? (fun u => (unitCapture (s.unit u) e.id).map (fun k => (u, k.no))) with
  | some l => if l.1 ≤ e.cu then l else (e.cu, e.capture)
  | none => (e.cu, e.capture)

/-- Byte address of an event record and of an archive record (Table 9-4). -/
def eventAddr (pos : Nat) : Nat := pageAddr 4 0 + 32 * pos
def archiveAddr (pos : Nat) : Nat := pageAddr 4 128 + 128 * pos

/-- Values and status of a 10-minute result of one interval; 0 where the interval has none. -/
def resAt (s : State) (endT kind ch : Nat) : Option PqRes := (pqResult s kind 2 ch).filter (fun r => r.endT == endT)
def resVal (s : State) (endT kind ch i : Nat) : Nat := (((resAt s endT kind ch).map (·.vals)).getD []).getD i 0
def resStatus (s : State) (endT kind ch : Nat) : Nat := ((resAt s endT kind ch).map (·.status)).getD 0

/-- Band of the largest 10-minute value on L1 to L3 (SUPRA_BAND). -/
def supraBand (s : State) (endT b : Nat) : Nat :=
  let rs := ([0, 1, 2].map (4 * b + ·)).filterMap (fun c => if par s (pid 16 c 6) == 1 then resAt s endT 3 c else none)
  let pick := fun (a : Option (Nat × Nat)) (e : Nat × Nat) =>
    match a with
    | none => some e
    | some x => if x.2 < e.2 then some e else some x
  match (rs.flatMap (fun r => r.vals.mapIdx (fun i v => (i, v)))).foldl pick none with
  | some x => x.1
  | none => 0xFFFF

/-- The archive record of a bus (Table 9-6); `accs` are the sums of the 10-minute interval that has just closed. -/
def archiveBytes (s : State) (accs : List PqAcc) (b : Nat) (e : PqEdge) : List Byte :=
  let ch := [4 * b, 4 * b + 1, 4 * b + 2]
  let end_ := fun (hi : Bool) (c : Nat) =>
    ((accs.find? (fun a => a.kind == 0 && a.level == 2 && a.chan == c)).map
      (fun a => f32Sqrt (if hi then a.hi else a.lo))).getD 0
  let r := pqBus s b
  let st := (ch ++ [4 * b + 3]).foldl (fun a c => orStatus (orStatus a (resStatus s e.endT 0 c)) (resStatus s e.endT 1 c))
    (orStatus (orStatus (resStatus s e.endT 4 b) e.status) e.freqOr)
  let st2 := ((ch.filter fun c => par s (pid 16 c 6) == 1).map (resStatus s e.endT 3)).foldl orStatus st
  let freq := if e.freqN == 0 then Config.freeF32 (s.free + 6 + b) else f32OfRat (e.freqSum / (e.freqN : Rat))
  let body := le 2 0x5051 ++ le 1 b ++ zeros 1 ++ le 4 ((r.pst ++ r.plt).foldl (fun a p => orStatus a p.2) st2) ++ le 10 (time80 e.endT) ++
    le 2 e.events ++ (ch ++ [4 * b + 3]).flatMap (fun c => le 4 (resVal s e.endT 0 c 0)) ++
    ch.flatMap (fun c => le 4 (end_ false c)) ++ ch.flatMap (fun c => le 4 (end_ true c)) ++ le 4 freq ++
    le 4 (resVal s e.endT 4 b 2) ++ le 4 (resVal s e.endT 4 b 1) ++ r.pst.flatMap (fun p => le 4 p.1) ++ r.plt.flatMap (fun p => le 4 p.1) ++
    ch.flatMap (fun c => le 4 (resVal s e.endT 1 c 64)) ++
    (List.range 6).flatMap (fun k => le 2 (centi s k (ratOfF32 (resVal s e.endT 4 b (9 + k))))) ++ le 2 (supraBand s e.endT b) ++ zeros 2
  body ++ le 4 (crc32c body)

/-- Bus and INTERVAL_END of an archive record. -/
def archKey (bs : List Byte) : Nat × Nat := (fieldAt bs 2 1, fieldAt bs 8 10)

/-- Queue an archive record, bus A before bus B of the same interval (R223). -/
def archiveAdd (l : List (List Byte)) (r : List Byte) : List (List Byte) :=
  match l.findIdx? (fun x => (archKey x).2 == (archKey r).2 && (archKey r).1 < (archKey x).1) with
  | some k => l.take k ++ [r] ++ l.drop k
  | none => l ++ [r]

/-- The 10-minute interval of a bus closes, and a 2-hour interval with it (R207). -/
def State.formEdge (s : State) (b : Nat) (e : PqEdge) : State :=
  let s0 := s.onBus b fun r => { r with edge := none }
  if !s.pq.agg then s0
  else
      let s1 := s0.closeAccs 2 e.endT e.status (accOfBus s b)
      let s2 := match e.two with
        | some st => s1.closeAccs 3 e.endT st (accOfBus s b)
        | none => s1
      let s3 := if e.restart && e.two.isNone then
          s2.onPq fun q => { q with mark2h := orStatus q.mark2h 2, accs := q.accs.filter (fun a => !(a.level == 3 && accOfBus s b a)) }
        else s2
      (s3.onPq fun q => { q with archive := archiveAdd q.archive (archiveBytes s3 s.pq.accs b e) }).drew 8

/-- What an operation does with the values that governed an interval, where members have changed since (R227). -/
def State.under (s : State) (p : Option (List (Nat × Nat))) (f : State → State) : State :=
  match p with
  | none => f s
  | some a => (f (s.onPr fun q => { q with applied := a })).onPr fun q => { q with applied := s.pr.applied }

/-- Values that govern an instant (R227). -/
def parsAt (s : State) (t : Nat) : Option (List (Nat × Nat)) := (s.pq.oldPars.filter fun e => t ≤ e.1).map (·.2)

/-- The 10-minute interval of a bus that waits for its straddling window closes, with the values that governed it (R207, R227). -/
def State.closeEdge (s : State) (b : Nat) : State :=
  match (pqBus s b).edge with
  | none => s
  | some e => s.under e.pars fun x => x.formEdge b e

/-- The 10 s frequency interval that ends at an instant counts in what ends there (R204, R208). -/
def State.tenAt (s : State) (b endT : Nat) : State :=
  if (pqBus s b).idx10 < utcIdx s endT 10 then
    (s.closeTen b (placeOf s endT) endT 0).onBus b fun r => { r with idx10 := utcIdx s endT 10 }
  else s

/-- It closes once that window and the 200 ms interval that ends at the boundary have ended (R207, R217, R223). -/
def State.edgeReady (s : State) (b : Nat) : State :=
  let r := pqBus s b
  if r.old.isNone && r.edge.any (fun e => e.endT ≤ s.pq.blockT || !s.pq.running) then
    ((r.edge.map (·.endT)).elim s (s.tenAt b)).closeEdge b
  else s

/-! ### One more instant of the stream (R206, R208, R213) -/

/-- What a bus takes of an instant: an upward crossing of its reference's fundamental, a sample of its flickermeters, what the
sample adds to the 10 s status and to the Pst status of each phase; the first instant after a start begins the window, the cycle
and the 10 s interval. -/
def PqBus.takeSample (r : PqBus) (n : Nat) (y : Rat) (vals : List Rat) (mark : Nat) (marks : List Nat) : PqBus :=
  let r1 := if r.win.isSome then r
    else { r with win := some ⟨(n : Rat), r.f1, 0, none⟩, halfN := some ((n : Rat) + 12500 / r.f1), start10 := (n : Rat) }
  { r1 with refY := y, crosses := if r.refY < 0 && 0 ≤ y then (((n : Rat) - y / (y - r.refY)) :: r.crosses).take 1000 else r.crosses,
            flick := (r.flick.zip vals).map fun e => Config.flickerStep e.1 e.2, pstOr := (r.pstOr.zip marks).map (fun e => orStatus e.1 (orStatus e.2 (flagAt r.freqNominal 7))),
            mark10s := orStatus r.mark10s (orStatus mark (flagAt r.freqNominal 7)) }

/-- What a sample of a channel adds to a status word. -/
def sampleMark (x : Wave) (c : Nat) : Nat := flagAt (bitAt x.est c) 4 + flagAt (bitAt x.sat c) 5

/-- A bus takes an instant of the stream: a Pst interval that the instant lies beyond has ended at its boundary (R204, R208). -/
def State.busSample (s : State) (x : Wave) (b : Nat) : State :=
  let idx := utcIdx s x.t 600
  let s1 := if (pqBus s b).pstIdx < idx then
      let endT := boundary s idx 600
      (s.closePst b 0 (placeOf s endT) endT false).onBus b fun r => { r with pstIdx := idx }
    else s
  let c := (refPhase s b).getD (4 * b)
  s1.onBus b fun r => r.takeSample x.n (fundamental (trackHz s b) (s.me.ringF.getD c [])).1
    ((List.range 3).map fun p => phaseVal s b p x) (sampleMark x c)
    ((List.range 3).map fun p =>
      if threeWire s b && p == 1 then orStatus (sampleMark x (4 * b)) (sampleMark x (4 * b + 2)) else sampleMark x (4 * b + p))

/-- The power-quality kernels take the newest instant of the stream. -/
def State.pqFrame (s : State) : State :=
  match s.wave.head? with
  | none => s
  | some x =>
    if !s.pq.running || !s.me.kernels then s
    else s.under (parsAt s (x.t + 1)) fun v => (List.range 2).foldl (fun v b => v.busSample x b) v

/-! ### Windows end (R206, R207) -/

/-- The state in which a window is computed: with the values that governed it when it began, where they have changed (R227). -/
def winState (s : State) (w : PqWin) : State :=
  match w.pars with
  | none => s
  | some p => s.onPr fun q => { q with applied := p }

/-- Close a 150/180-cycle interval, and judge mains signalling on it (R207, R208). -/
def State.formCycles (s : State) (b endT st : Nat) : State :=
    let m := ((s.pq.accs.find? (fun a => a.kind == 4 && a.level == 1 && a.chan == b)).map PqAcc.means).getD []
    let s1 := (s.onBus b fun r => { r with aggDue := none, aggPars := none }).closeAccs 1 endT st (accOfBus s b)
    if m.isEmpty then s1 else (List.range 4).foldl (fun x k => x.judgeMsv b endT k ((m.drop (2 + 3 * k)).take 3)) s1

/-- Close the 150/180-cycle interval that waits for it, with the values that governed it (R207, R208, R227). -/
def State.closeCycles (s : State) (b : Nat) : State :=
  match (pqBus s b).aggDue with
  | none => s
  | some (endT, st) => s.under (pqBus s b).aggPars fun x => x.formCycles b endT st

/-- The values of a window: channels, bus and circuits. -/
def State.takeWindow (s : State) (b endT : Nat) (w : PqWin) : State :=
  let v := winState s w
  let base := winBase v b w
  let wins := busWins v b w
  let third := thirdMs v b w
  let v1 := wins.foldl (fun x i => x.takeWin base endT w.hz i) v
  let v2 := v1.takeBusWin b base endT w.hz third wins
  let v3 := (List.range 28).foldl (fun x c => x.takeCircPq b base w.hz wins c) v2
  ({ s with pq := v3.pq }).onBus b fun r =>
    { r with slidingPrev := r.sliding, sliding := slideNext (udin v b) r.sliding (busMs v b third wins) (bitAt base 0) }

/-- A bus after its window: the frequency measured over it, at which the next one runs (R206, R178). Without a reference phase,
or without two crossings in the window, that is NOMINAL_HZ (assumption 77). -/
def PqBus.measured (r : PqBus) (nominal : Rat) (noRef : Bool) (a e : Rat) : PqBus :=
  { r with freqNominal := noRef, lastStart := a, lastEnd := e,
           f1 := if noRef then nominal else (hzBetween r.crosses a e).getD nominal }

/-- A window of a bus ends (R206 to R208, R214). The straddling window of a 10-minute boundary goes first and closes the
interval; otherwise the next window begins where this one ends. The fifteenth window of a 150/180-cycle interval ends it. -/
def State.closeWindow (s : State) (b : Nat) (w : PqWin) (straddles : Bool) : State :=
  let e := winEnd w (binsN (winState s w))
  let endT := instantOf s e
  let s1 := (if straddles then s else s.closeEdge b).takeWindow b endT w
  let noRef := (refPhase s1 b).isNone
  let s2 := s1.onBus b fun r =>
    let r1 : PqBus := { r.measured (nominalHz s1) noRef w.start e with aggN := if s.pq.agg then r.aggN + 1 else 0 }
    let due := fun (n : Nat) => if s.pq.agg then some (endT, flagAt (r.aggFresh && n < 15) 1 + unlockedBit s) else none
    let more := straddles && r.win.any (fun n => decide (e < n.start))
    if straddles && !more then { r1 with old := none, aggDue := due r1.aggN, aggPars := w.pars, aggN := 0, aggFresh := false }
    else
      let next : PqWin := ⟨e, r1.f1, 0, w.pars⟩
      let r2 : PqBus := if straddles then { r1 with old := some next } else { r1 with win := some next }
      if 15 ≤ r1.aggN then { r2 with aggDue := due 15, aggPars := w.pars, aggN := 0, aggFresh := false } else r2
  (s2.drew 100).edgeReady b

/-- The window of a bus that ends next, if the stream has reached its end: one that waits on a 10-minute boundary first. -/
def winDue (s : State) (b : Nat) : Option (PqWin × Bool) :=
  let r := pqBus s b
  let w := match r.old with
    | some x => some (x, true)
    | none => r.win.map fun x => (x, false)
  w.filter fun x => decide (winEnd x.1 (binsN (winState s x.1)) ≤ (waveN s : Rat))

/-! ### Urms(½) (R208, R209) -/

/-- The end of a bus's next one-cycle interval: half a cycle after the latest one (R208). -/
def nextHalf (s : State) (b : Nat) : Option Rat := (pqBus s b).halfN.map fun h => h + 12500 / (pqBus s b).f1

/-- Urms(½) of the three phases over the cycle that ends at a place. -/
def urmsAt (s : State) (b : Nat) (e : Rat) : List Rat :=
  let l := waveSpan s (e - 25000 / (pqBus s b).f1) e
  (List.range 3).map fun p => ratSqrt (meanQ (l.map fun x => phaseVal s b p x * phaseVal s b p x))

/-- New Urms(½) values at an instant: classes are judged in code order, and while a dip, swell or interruption is open the cycle
counts for the windows and intervals that it overlaps (R209 to R213). -/
def State.judgeHalf (s : State) (b : Nat) (e : Rat) (u : List Rat) : State :=
  let t := instantOf s e
  let start := e - 25000 / (pqBus s b).f1
  let was := flags3 s b
  let s1 := s.judgeMain b t u
  let began := (!isOpen s b 0 && isOpen s1 b 0) || (!isOpen s b 1 && isOpen s1 b 1)
  let s2 := (s1.judgeRvc b t u began).judgeDev b t u began
  let touched := was || flags3 s2 b
  let s3 := if touched then
      (((s2.flagLate b start).flagSupra b start).onBus b fun r => (r.flagLate start).touch start e)
    else s2
  (s3.onBus b fun r => { r with halfN := some e }).drew 1

/-- The next Urms(½) values of a bus, if the stream has reached them. -/
def State.halfStep (s : State) (b : Nat) : State :=
  match nextHalf s b with
  | none => s
  | some e =>
    if e ≤ (waveN s : Rat) then s.under (parsAt s (instantOf s e)) fun x => x.judgeHalf b e (urmsAt x b e) else s

/-! ### Bus A before bus B (R210, R220) -/

/-- Bus A up to a place of the stream, in order: its Urms(½) values, the ends of its windows, and its 150/180-cycle intervals; at
most `n` of them. -/
def State.busAUpTo : Nat → Rat → State → State
  | 0, _, s => s
  | n + 1, x, s =>
    let half := (nextHalf s 0).filter fun h => decide (h ≤ x)
    let win := (winDue s 0).filter fun w => decide (winEnd w.1 (binsN (winState s w.1)) ≤ x)
    match half, win with
    | none, none => if (pqBus s 0).aggDue.any (fun a => a.1 ≤ instantOf s x) then s.closeCycles 0 else s
    | some _, none => State.busAUpTo n x (s.halfStep 0)
    | none, some w => State.busAUpTo n x ((s.closeCycles 0).closeWindow 0 w.1 w.2)
    | some h, some w =>
      if h ≤ winEnd w.1 (binsN (winState s w.1)) then State.busAUpTo n x (s.halfStep 0)
      else State.busAUpTo n x ((s.closeCycles 0).closeWindow 0 w.1 w.2)

/-- What bus A has up to a place goes before bus B's values of that place (R210). -/
def State.busAFirst (s : State) (b : Nat) (x : Rat) : State := if b == 1 then State.busAUpTo (2 * waveN s + 2) x s else s

/-- A 150/180-cycle interval that waits closes (R207, R210). -/
def State.cyclesEnd (s : State) (b : Nat) : State :=
  match (pqBus s b).aggDue with
  | none => s
  | some a => (s.busAFirst b (placeOf s a.1)).closeCycles b

/-- A window of a bus ends, after the 150/180-cycle interval that waits (R206 to R208, R210). -/
def State.endWindow (s : State) (b : Nat) (w : PqWin) (straddles : Bool) : State :=
  (((s.cyclesEnd b).busAFirst b (winEnd w (binsN (winState s w)))).closeWindow b w straddles)

/-! ### Supraharmonics (R216, R217) -/

/-- What the 75,000 W samples of the 200 ms interval that ends with the newest instant hold, newest first: the W sample at that
instant and the 74,999 before it; the 14 that follow it belong to the next interval (R75, R216). -/
def supraSpan {α : Type} (s : State) (f : Wave → List α) : List α :=
  (((s.wave.take 5001).flatMap fun x => (f x).reverse).drop 14).take 75000

/-- W samples of a channel over the latest 200 ms interval in primary units, oldest first. -/
def supraSamples (s : State) (c : Nat) : List Rat :=
  (supraSpan s fun x => x.w.getD c []).reverse.map fun v => (v : Rat) * primaryScale s c

/-- Squared rms of the DFT bin at a frequency over one segment, rectangular window (R216). -/
def segmentSq (f : Rat) (l : List Rat) : Rat :=
  let n : Rat := (l.length : Nat)
  let re := sumQ (l.mapIdx fun j x => x * Config.cosDeg (360 * f * (j : Rat) / 375000)) / n
  let im := sumQ (l.mapIdx fun j x => x * Config.cosDeg (360 * f * (j : Rat) / 375000 + 90)) / n
  2 * (re * re + im * im)

/-- Centre of a band, Hz (R216). -/
def bandHz (b : Nat) : Rat := 2100 + 200 * (b : Rat)

/-- Squared correction of a band: the droop of the recommended network of R60, and on a ROGOWSKI channel 1/f from the nominal
frequency (R73, R127, R203; assumption 78). -/
def bandGain (s : State) (c b : Nat) : Rat :=
  let f := bandHz b
  let droop := 1 + (f / 362000) * (f / 362000)
  if par s (pid 16 c 2) == 2 then droop * (nominalHz s / f) * (nominalHz s / f) else droop

/-- Squared bands of a channel over the latest 200 ms interval: 40 segments of 1,875 samples, 740 bands; band 1 reads 0.0 where
it is excluded for a path check (R113, R216). -/
def bandSquares (s : State) (c : Nat) (probed : Bool) : List Rat :=
  let l := supraSamples s c
  let segs := (List.range 40).map fun m => (l.drop (1875 * m)).take 1875
  (List.range 740).map fun b =>
    if probed && b == 1 then 0 else meanQ (segs.map (segmentSq (bandHz b))) * bandGain s c b

/-- A channel's 200 ms interval that ends at a block boundary: the basic result, and where Canopy aggregates the sums (R216,
R217). -/
def State.takeSupra (s : State) (endT c : Nat) : State :=
  if par s (pid 16 c 6) != 1 then s
  else
    let probed := (s.wave.take 5001).any fun x => bitAt x.probe c
    let sq := bandSquares s c probed
    let r := pqBus s (chanBus s c)
    let st := orStatus (orStatus r.mark200 (r.flagged ((waveN s : Rat) - 5000) (waveN s : Rat)))
      (flagAt ((supraSpan s (·.wEst)).length < 75000) 1 + flagAt probed 3 + flagAt ((supraSpan s (·.wEst)).any (bitAt · c)) 4 +
       flagAt ((supraSpan s (·.wSat)).any (bitAt · c)) 5 + unlockedBit s)
    s.onPq fun q =>
      { q with results := putResult q.results ⟨3, 0, c, st, endT, sq.map f32Sqrt, (waveN s : Rat)⟩,
               accs := if q.agg then accFeed (accFeed q.accs 3 1 c sq st) 3 2 c sq st else q.accs }

/-- A 200 ms interval ends with a block (R216). -/
def State.supraStep (s : State) (endT : Nat) : State :=
  let s1 := if s.pq.running then
      (List.range 2).foldl (fun x b => x.onBus b fun r => { r with mark200 := 0 })
        ((s.under (parsAt s endT)) fun v => (List.range 36).foldl (fun x c => x.takeSupra endT c) v)
    else s
  let s2 := (s1.onPq fun q => { q with blockT := endT }).supraFlush
  (List.range 2).foldl State.edgeReady s2

end Sys2Proof.Machine
end

