-- ==== Sys2Proof/WellFormed.lean ====
section
/-! DEFINITION. Well-formed commands: every field of a request fits the width that the opcode's table gives it, and the lists that
an event brings have the length of what they stand for (R9, R180, R209, R232; assumption 5). -/

namespace Sys2Proof

/-- A value fits a field of `n` bits. -/
def fits (n v : Nat) : Bool := decide (v < 2 ^ n)

/-- A network path has an address of at most 128 bits and a UDP port. -/
def Path.wf : Path → Bool
  | .host => true
  | .net a p => fits 128 a && fits 16 p
  | .console => true

/-- Only a network packet can be a broadcast (R283). -/
def Path.network : Path → Bool
  | .host => false
  | .net _ _ => true
  | .console => false

/-- Packet fields (Table 14-1); NONCE has 64 bits (R311). -/
def Hdr.wf (h : Hdr) : Bool :=
  h.path.wf && fits 8 h.tag && fits 16 h.len && (!h.bcast || h.path.network) && !h.sec.any (fun x => !fits 64 x.1)

/-- The trigger fields of Table 5-5. -/
def ArmIn.wf (a : ArmIn) : Bool :=
  fits 8 a.source && fits 8 a.index && fits 8 a.policy && fits 8 a.flags && fits 80 a.start && fits 32 a.periodMs

/-- The sender of a C37.118 command frame (R243). -/
def PmuCmdIn.wf (c : PmuCmdIn) : Bool := fits 128 c.addr && fits 16 c.port

/-- A RESUME over the network is a packet. -/
def ResumeIn.wf : ResumeIn → Bool
  | .host _ => true
  | .network h => h.wf

/-- What the modulators bring in 40 µs: 960 bits of each of the 40 converters (R126, R470). -/
def frameShape (convs : List ConvIn) : Bool := convs.length == 40 && convs.all (fun x => fits 960 x.bits && x.marks.all (fun m => m < 960))

/-- The opcodes that a host may send on the control lane, on the bulk lane, and on either (Table 14-11). -/
def controlOpcodes : List Nat :=
  [0x0101, 0x0102, 0x0103, 0x0104, 0x0105, 0x0106, 0x0107, 0x0108, 0x0110, 0x0111, 0x0120, 0x0121, 0x0201, 0x0202, 0x0203,
   0x0301, 0x0302, 0x0303, 0x0304, 0x0305, 0x0310, 0x0311, 0x0320, 0x0321, 0x0401, 0x0410, 0x0412, 0x0502, 0x0601, 0x0602] ++
  [0x0701, 0x0702, 0x0703, 0x0704, 0x0705, 0x0710, 0x0720, 0x0801, 0x0802, 0x0901, 0x0902, 0x0903, 0x0904, 0x0905, 0x0906,
   0x0A01, 0x0A02, 0x0A10, 0x0A11, 0x0B01, 0x0B02, 0x0C01, 0x0C02, 0x0D01, 0x0E01, 0x0E10, 0x0E12, 0x0E13, 0x0F01, 0x0F02]
def bulkOpcodes : List Nat := [0x0402, 0x0411, 0x0501, 0x0503, 0x0E11, 0x0E20, 0x0E21]

/-- The device accepts an opcode on a lane (R335). -/
def acceptedOpcode (bulk : Bool) (code : Nat) : Bool := code == 0x0100 || (if bulk then bulkOpcodes else controlOpcodes).contains code

/-- A command is well formed. -/
def Instr.wf : Instr → Bool
  | .aonPowerUp => true
  | .aonBrownOut => true
  | .vauxStartThreshold _ _ => true
  | .vdd33Regulation _ _ _ => true
  | .vcoreRegulation => true
  | .crystalStable => true
  | .pllLock => true
  | .loaderComplete => true
  | .clearPendingResume => true
  | .modulatorStart => true
  | .firstSettledSample => true
  | .wardenStart _ _ => true
  | .dspStart _ _ => true
  | .canopyReady _ _ => true
  | .canopyRestart => true
  | .canopyBackoffExpiry => true
  | .pfailAssert => true
  | .powerFailCheckpoint => true
  | .pfailRelease => true
  | .vcoreTrip => true
  | .restartDelayExpiry => true
  | .buckCurrentLimit _ => true
  | .testEnRelease => true
  | .checkpointComplete => true
  | .dspFrame frames => frames.length ≤ 2 && frames.all frameShape
  | .cfPulseEnd _ => true
  | .stuckDetected _ => true
  | .modulatorOverloadReset _ => true
  | .blockBoundary => true
  | .demandSubintervalEnd => true
  | .refComparisonResult ratio => fits 32 ratio
  | .refBaselineCapture => true
  | .refRebase h value => h.wf && fits 8 value
  | .refinOutOfRange => true
  | .slotStart _ => true
  | .firstOverlapEnd _ => true
  | .restSourceSwitch _ => true
  | .restAcceptance _ => true
  | .homeReturn _ => true
  | .spliceBack _ => true
  | .preshadowConnect _ => true
  | .coppiceQuery h stand _ => h.wf && fits 8 stand
  | .coppicePause h stand => h.wf && fits 8 stand
  | .coppiceRotate h stand => h.wf && fits 8 stand
  | .coppicePin h stand target => h.wf && fits 8 stand && fits 8 target
  | .coppiceUnpin h stand => h.wf && fits 8 stand
  | .coppiceShadow h stand target => h.wf && fits 8 stand && fits 8 target
  | .coppiceRequalify h stand target => h.wf && fits 8 stand && fits 8 target
  | .requalifyResult _ => true
  | .pathCheck h chan _ => h.wf && fits 8 chan
  | .pathCheckBaseline h chan => h.wf && fits 8 chan
  | .pathCheckStart _ => true
  | .pathCheckComplete _ => true
  | .snapshotArm h seq arm => h.wf && fits 8 seq && arm.wf
  | .seqStart h seq arm chans => h.wf && fits 8 seq && arm.wf && chans.all (fits 8)
  | .sequencerTimeTick _ => true
  | .snapshotWrite _ => true
  | .filterStop h chan => h.wf && fits 8 chan
  | .filterLoad h chan _ _ => h.wf && fits 8 chan
  | .filterStart h chan => h.wf && fits 8 chan
  | .bankWrite h chan _ => h.wf && fits 8 chan
  | .bankSwap h chan prime fade => h.wf && fits 8 chan && fits 16 prime && fits 16 fade
  | .bankSwapFadeStart _ => true
  | .bankSwapEnd _ => true
  | .queueStreamStart h push _ => h.wf && fits 8 push
  | .queueStreamStop h push => h.wf && fits 8 push
  | .queueEntryWrite => true
  | .queueRead h ackSeq maxWords => h.wf && fits 16 ackSeq && fits 16 maxWords
  | .queuePush => true
  | .recorderQuery h unit _ => h.wf && fits 8 unit
  | .recorderArm h unit => h.wf && fits 8 unit
  | .recorderStop h unit => h.wf && fits 8 unit
  | .recorderTrigger h unit => h.wf && fits 8 unit
  | .captureTrigger _ => true
  | .captureDone _ => true
  | .captureRead h unit no offset maxBytes => h.wf && fits 8 unit && fits 32 no && fits 32 offset && fits 16 maxBytes
  | .captureRelease h unit no => h.wf && fits 8 unit && fits 32 no
  | .captureReadTimeout _ no => fits 32 no
  | .energyRead h source level first count mask => h.wf && fits 8 source && fits 8 level && fits 8 first && fits 8 count && fits 16 mask
  | .demandReset h circuit => h.wf && fits 8 circuit
  | .cfTestStart h mask durationS _ => h.wf && fits 8 mask && fits 16 durationS
  | .cfTestStop h => h.wf
  | .cfTestExpiry => true
  | .urmsHalfCycle _ => true
  | .eventRecordWrite => true
  | .openEventClose => true
  | .pqWindowEnd _ => true
  | .pqAggregateEnd _ => true
  | .frequencyIntervalEnd _ => true
  | .supra3sEnd => true
  | .tenMinuteBoundary => true
  | .twoHourBoundary => true
  | .archiveWrite => true
  | .pqRead h kind level chan first count => h.wf && fits 8 kind && fits 8 level && fits 8 chan && fits 16 first && fits 16 count
  | .pqEventRead h fromId count => h.wf && fits 32 fromId && fits 8 count
  | .pqArchiveRead h bus count fromT => h.wf && fits 8 bus && fits 8 count && fits 80 fromT
  | .phasorReport => true
  | .phasorFrameDrop => true
  | .pmuConfigTakeEffect => true
  | .pmuCmdDataOff cmd => cmd.wf
  | .pmuCmdDataOn cmd => cmd.wf
  | .pmuCmdSendCfg2 cmd => cmd.wf
  | .pmuCmdIgnored cmd => cmd.wf
  | .pmuRead h first count => h.wf && fits 8 first && fits 8 count
  | .pmuStart h _ => h.wf
  | .pmuStop h => h.wf
  | .pmuSendCfg2 h => h.wf
  | .ptpSync _ _ => true
  | .ptpFollowUp _ _ => true
  | .ptpAnnounce _ _ => true
  | .peerDelayRequest _ => true
  | .peerDelayResponse _ _ => true
  | .sourceTimeout => true
  | .holdoverLimit => true
  | .leapSecond => true
  | .leapOccurredClear => true
  | .lastLockedRateStore => true
  | .timeGet h => h.wf
  | .timeSet h time => h.wf && fits 80 time
  | .timeOffset h _ meas gmId => h.wf && fits 80 meas && fits 64 gmId
  | .timeAcceptStep h => h.wf
  | .txtsRead h max => h.wf && fits 8 max
  | .blazeArm h index _ flags start period width count => h.wf && fits 8 index && fits 8 flags && fits 80 start && fits 64 period && fits 32 width && fits 32 count
  | .blazeDisarm h index flags start => h.wf && fits 8 index && fits 8 flags && fits 80 start
  | .blazeEdge _ => true
  | .blazePulseEnd _ => true
  | .notchCapture _ _ _ _ => true
  | .notchRead h index max => h.wf && fits 8 index && fits 8 max
  | .frameTransmit _ => true
  | .linkUp _ _ _ => true
  | .linkDown _ => true
  | .supervisionSend => true
  | .ringOpen => true
  | .hsrFrameReceive _ _ => true
  | .discardEntryExpiry => true
  | .netTx h ports flags id _ => h.wf && fits 8 ports && fits 8 flags && fits 16 id
  | .netRxRead h => h.wf
  | .identifyBroadcastReply => true
  | .hush _ => true
  | .resume via => via.wf
  | .directWrite _ => true
  | .snapGroupLatch _ => true
  | .snapLatchTimeout _ => true
  | .calendarStageWrite _ => true
  | .calendarSecCommit _ => true
  | .calendarStagingDiscard => true
  | .unknownOpcode h opcode => h.wf && fits 16 opcode && !acceptedOpcode h.bulk opcode
  | .nop h _ => h.wf
  | .identify h => h.wf
  | .getParam h id which => h.wf && fits 16 id && fits 8 which
  | .setParam h id _ => h.wf && fits 16 id
  | .getParams h form which count first ids => h.wf && fits 8 form && fits 8 which && fits 16 count && fits 16 first && ids.all (fits 16)
  | .setParams h count items => h.wf && fits 16 count && items.all (fun e => fits 16 e.1)
  | .commitParams h => h.wf
  | .commit h => h.wf
  | .defaults h scope => h.wf && fits 8 scope
  | .discardParams h => h.wf
  | .getStage h => h.wf
  | .softRestart h reason => h.wf && fits 8 reason
  | .nvRead h part page offset count => h.wf && fits 8 part && fits 16 page && fits 8 offset && fits 16 count
  | .nvWrite h part page offset _ _ => h.wf && fits 8 part && fits 16 page && fits 8 offset
  | .sessionOpen h part kind password => h.wf && fits 8 part && fits 8 kind && fits 64 password
  | .sessionClose h part kind => h.wf && fits 8 part && fits 8 kind
  | .passwordSet h part kind new _ => h.wf && fits 8 part && fits 8 kind && fits 64 new
  | .nvStatusQuery h _ => h.wf
  | .nvStatusAcknowledge h part page => h.wf && fits 8 part && fits 16 page
  | .sessionTimeout path part _ => path.wf && fits 8 part
  | .lockoutExpiry _ => true
  | .scrubRead x => x.disturbed.all fun f => decide (f.word < 131072) && decide (0 < f.mask) && decide (f.mask < 2 ^ 39)
  | .rtcGet h => h.wf
  | .rtcSet h flags year month day hour min sec => h.wf && fits 8 flags && fits 16 year && fits 8 month && fits 8 day && fits 8 hour && fits 8 min && fits 8 sec
  | .osfClear h value => h.wf && fits 8 value
  | .alAck h _ value => h.wf && fits 8 value
  | .alarmMatch => true
  | .wakeHoldExpiry => true
  | .clock32Stall => true
  | .rtcFollowMeasurement => true
  | .trimLearning => true
  | .trimLearnedStore => true
  | .tamperEvaluation x => fits 3 x.balls
  | .tamperPersistExpiry _ => true
  | .clearing => true
  | .clockMonitorWindow _ _ _ => true
  | .monitorInjection _ _ => true
  | .keystoreCheck _ => true
  | .trngHealthFail => true
  | .trngRestart _ => true
  | .jtagUpdateIr _ => true
  | .jtagReset => true
  | .tamperRead h => h.wf
  | .tamperAck h mask _ => h.wf && fits 32 mask
  | .keyAgree h hostPub keyLen => h.wf && fits 8 keyLen && hostPub.length == 64
  | .provisionGenerate h _ => h.wf
  | .provisionInstall h _ decrypted _ => h.wf && !decrypted.any (fun l => l.length != 8)
  | .canopyWatchdog _ => true
  | .dspWatchdog => true
  | .wardenWatchdog => true
  | .wardenRestartComplete => true
  | .wardenHeartbeatTimeout => true
  | .sensorSample _ value => fits 32 value
  | .logEntryWrite => true
  | .logRead h fromSeq count => h.wf && fits 32 fromSeq && fits 8 count
  | .updateBegin h _ => h.wf
  | .updateEraseDone => true
  | .updateData h _ => h.wf
  | .updateActivate h _ _ => h.wf
  | .updateVerify h _ => h.wf
  | .updateAbort h => h.wf
  | .updateStatus h => h.wf
  | .updateSafePoint => true
  | .trialReadyTimeout => true
  | .updateTrialEnd => true
  | .transplantPrepare h _ destId _ _ => h.wf && fits 64 destId
  | .transplantPackageBuild => true
  | .transplantRead h offset maxBytes => h.wf && fits 32 offset && fits 16 maxBytes
  | .transplantDiscard h => h.wf
  | .transplantImport h _ _ _ _ => h.wf
  | .transplantApply => true
  | .powerStatus h => h.wf
  | .displayQuery h _ item => h.wf && fits 8 item
  | .displayShowItem h item => h.wf && fits 8 item
  | .displayResumeScroll h item => h.wf && fits 8 item
  | .segmentTest h item => h.wf && fits 8 item
  | .segmentTestEnd => true
  | .displayScroll => true
  | .displayHoldExpiry => true
  | .keyPress _ => true
  | .keyRelease _ => true
  | .keyLongPress _ => true
  | .keyRead h max => h.wf && fits 8 max
  | .consoleAttach _ => true
  | .consoleDetach _ => true
  | .consoleStatus _ => true
  | .consoleEnergy _ => true
  | .consoleRms _ => true
  | .consoleSupply _ => true
  | .consoleLog _ => true
  | .testTdacOn h _ code durationS => h.wf && fits 16 code && fits 16 durationS
  | .testTdacOff h code durationS => h.wf && fits 16 code && fits 16 durationS
  | .tdacLevelExpiry => true
  | .testOutputForce h output level durationS => h.wf && fits 8 output && fits 8 level && fits 16 durationS
  | .testOutputRelease h output durationS => h.wf && fits 8 output && fits 16 durationS
  | .testOutputExpiry _ => true
  | .spiPacketFrame _ => true
  | .uartFrameTransmit => true
  | .calendarLeapSecond => true
  | .calendarRangeEnd => true
  | .clock32Resume => true
  | .deferredSeqExpiry _ => true
  | .ownerAnswerTimeout h opcode owner => h.wf && fits 16 opcode && fits 8 owner
  | .restartDelayReset => true
  | .canopyRestartCountReset => true
  | .learningTableAgeing => true
  | .ownFrameAdmission => true

end Sys2Proof
end

