-- ==== Sys2Proof/Machine/Energy.lean ====
section
/-! DEFINITION. The DSP frame, block boundaries, demand, pulses and the energy commands (R174 to R202, R470). -/

namespace Sys2Proof.Machine

/-- The modulators deliver samples. -/
def delivers (s : State) : Bool := s.pw.phase == .modulators || s.pw.phase == .metering

/-- Counters of a frame: START_GAP (R47), the gap without Pioneer (R36), which counts every frame from the modulators' start
(assumption 105). -/
def State.countFrame (s : State) : State :=
  let s1 := if s.pw.phase == .metering && !s.me.fromB1 then s.onPw fun p => { p with startGap := p.startGap + 1 } else s
  if s.hw.pioSeq.isNone || s.hw.pioWait then s1.onHw fun h => { h with pioGap := h.pioGap + 1 } else s1

/-- The bit streams that a frame takes in: those between two common edges, or, where the grid resampler places samples on the
counter's grid, those of none, one or two such intervals (R256, R464). -/
def framesFit (s : State) (frames : List (List ConvIn)) : Bool :=
  frames.all frameShape && (if freeMode s then frames.length ≤ 2 else frames.length == 1)

/-- R470. One frame: the chain, both engines, the pulses, the stands' matches and measurements, the histories and the recorder,
and the comparison of clamps. -/
def execDspFrame (frames : List (List ConvIn)) (s : State) : Host.Outcome State Fault Refusal :=
  if !framesFit s frames then .fault .malformedCommand
  else if !delivers s then .next s
  else
    let s := frames.foldl State.intake s
    let t := pInstant s
    let outs := (List.range 36).map (chanOut s)
    let fv := frameVals (fullVal s outs)
    let pv := frameVals (pioVal s outs)
    let bad := (List.range 4).filterMap (clampVerdict s)
    let s1 := (s.energyFrame fv pv).cfFrame fv pv
    let s2 := (List.range 4).foldl State.standFrame s1
    let s3 := (((s2.chainStep outs).pushSnap t outs).pushWave t outs fv).pqFrame
    let s4 := { s3 with units := s3.units.map (fun (u : CapUnit) => u.frame t outs) }
    let s5 := bad.foldl (fun x v => x.condemn v 2) s4
    .next ((s5.countFrame.alignStep).drew 700)

/-- R191. The pulse in progress ends once it has lasted its length. -/
def execCfPulseEnd (k : Fin 8) (s : State) : Host.Outcome State Fault Refusal :=
  let c := s.me.cfs.getD k Cf.reset
  if !cfOver s k c then .next s
  else .next (s.onMe fun m => { m with cfs := modAt m.cfs k fun c => { c with pulse := false } })

/-- A block boundary is due: the frame delivers the sample of one (R180) that has not closed its block yet; after an accepted
step the same label may come again (R181). -/
def blockDue (s : State) : Bool := atBlock s && (s.me.blockEnd != time80 (pInstant s) || s.me.blockStep)

/-- R180 to R198, R44 to R48, R411, R318, R346. -/
def execBlockBoundary (s : State) : Host.Outcome State Fault Refusal :=
  if !delivers s || !s.te.running || !blockDue s then .next s
  else
    let s := s.reloadPass
    let b := closing s
    let t := pInstant s
    let s1 := (s.closeEngines b).countEstimated b
    let s2 := s1.judgeBlock b
    let s3 := (s2.onMe fun m => m.fresh (time80 t)).latchSnap b
    let s4 := s3.books.pioBegin
    let s5 := (List.range 28).foldl State.clearMax s4
    let s6 := (s5.supraStep t).applyBlock
    let s7 := s6.latchChans.latchDisplay
    .next ((s7.drew 100000).checkpoint (s7.drew 100000) 0)

/-! ### Demand (R187, R188) -/

/-- The UTC second at which the latest closed block ended, where it ended at a whole one (R180, R187). -/
def blockSec (s : State) : Option Int :=
  let t := ofTime80 s.me.blockEnd
  if t % tickSec == 0 then some (((t / tickSec : Nat) : Int) - utcOffset s) else none

/-- Sub-interval length of a configuration, s. -/
def subLen (cfg : Nat × Nat) : Nat := cfg.1 * 60 / Nat.max 1 cfg.2

/-- The demands of a circuit over its last sub-intervals, in W, var and VA. -/
def demandValues (cfg : Nat × Nat) (subs : List (List Nat × Bool)) : List Nat :=
  (List.range 4).map fun q =>
    let e : Nat := (subs.take cfg.2).foldl (fun a x => a + x.1.getD q 0) 0
    f32OfRat ((e : Rat) / two32 / 1000000 * 60 / ((Nat.max 1 cfg.1 : Nat) : Rat))

/-- Close a sub-interval of one circuit at an instant; a partial one never sets a maximum (R187, R188). No word has a place for
GAP_SPANNED of a resumed value, which `demGap` keeps (R54; assumption 104). -/
def CircRun.closeSub (r : CircRun) (cfg : Nat × Nat) (t : Nat) (part fresh : Bool) : CircRun :=
  let subs := ((r.subNow, r.demHist || part) :: r.subs).take 15
  let d := demandValues cfg subs
  let r1 := { r with subs := subs, demand := d, subNow := [0, 0, 0, 0], demHist := false, demGap := r.gapLeft != 0, gapLeft := r.gapLeft - 1 }
  let ok := !demIncomplete cfg.2 r1
  let r2 := if ok && decide (ratOfF32 r.maxP < ratOfF32 (d.getD 0 0)) then { r1 with maxP := d.getD 0 0, maxPTime := t } else r1
  let r3 := if ok && decide (ratOfF32 r.maxS < ratOfF32 (d.getD 3 0)) then { r2 with maxS := d.getD 3 0, maxSTime := t } else r2
  if fresh then { r3 with subs := [] } else r3

/-- Canopy closes the sub-intervals that ended while it was stopped, each with its own end instant (R55). -/
def State.closeOwed (s : State) : State :=
  s.onMe fun m =>
    { m with subOwed := [],
             circRun := m.circRun.mapIdx fun c r =>
               let x := m.subOwed.foldl
                 (fun (x : CircRun) (o : OwedSub) =>
                   let e := o.now.getD c ([0, 0, 0, 0], true)
                   { x with subNow := e.1, demHist := e.2 }.closeSub o.cfg o.t o.part o.fresh) r
               { x with subNow := r.subNow, demHist := r.demHist } }

/-- R55, R187, R188. A sub-interval ends with the block that ends at a whole second of UTC that its length divides; a committed change of DEMAND_MIN or
DEMAND_SUB comes into use at a boundary of the new length. While Canopy is stopped the DSP engine keeps the energies until it
returns. -/
def execDemandSubintervalEnd (s : State) : Host.Outcome State Fault Refusal :=
  if !s.me.fromB1 then .next s
  else
    let cfg := s.me.demandCfg
    let id := pid 2 0 4
    let waits := s.pr.scheduled.any (fun e => e.1 == id || e.1 == id + 1)
    let new := (((s.pr.scheduled.lookup id).getD (par s id)), ((s.pr.scheduled.lookup (id + 1)).getD (par s (id + 1))))
    match blockSec s with
    | none => .next s
    | some sec =>
    let change := waits && sec % (subLen new : Int) == 0
    let part := sec % (subLen cfg : Int) != 0
    let t := s.me.blockEnd
    if (part && !change) || s.me.subEnd == some sec then .next s
    else
    let s1 := s.onMe fun m =>
      if s.wd.canopyRunning then { m with subEnd := some sec, circRun := m.circRun.map (fun r => r.closeSub cfg t part change) }
      else
        { m with subEnd := some sec, subOwed := m.subOwed ++ [⟨cfg, t, part, change, m.circRun.map fun r => (r.subNow, r.demHist)⟩],
                 circRun := m.circRun.map fun r => { r with subNow := [0, 0, 0, 0], demHist := false } }
    if change then
      .next ((s1.takeScheduled (fun i => i == id || i == id + 1)).onMe fun m => { m with demandCfg := new })
    else .next s1

def opDemandReset : Op := { code := 0x0202, fixed := 2 }

/-- R201. -/
def execDemandReset (h : Hdr) (circuit : Nat) (s : State) : Host.Outcome State Fault Refusal :=
  .next (serve opDemandReset h (h.len == 4)
    (fun s => [(locked s, .locked), (!canWrite s h.path 1, .authFail), (27 < circuit && circuit != 0xFF, .valueRange)])
    (fun s =>
      ⟨s.onMe fun m => { m with circRun := m.circRun.mapIdx fun c r =>
        if circuit == 0xFF || c == circuit then { r with resetReq := true } else r }, .ok, zeros 2⟩) s)

/-! ### ENERGY_READ (R200) -/

def opEnergyRead : Op := { code := 0x0201, fixed := 14 }

/-- Registers that a reply reads. -/
def readRegs (s : State) (source level : Nat) : List Regs :=
  if source == 0 then (if level == 0 then s.me.regElemF else s.me.regCircF)
  else if level == 0 then s.me.regElemP else s.me.regCircP

/-- One entry of a reply. -/
def energyEntry (mask : Nat) (r : Regs) : List Byte :=
  le 4 r.status ++ ((List.range 12).filter (bitAt mask)).flatMap (fun q => le 8 (r.e.getD q 0 / 2 ^ 32))

/-- R200. -/
def execEnergyRead (h : Hdr) (source level first count mask : Nat) (s : State) : Host.Outcome State Fault Refusal :=
  .next (serve opEnergyRead h (h.len == 8)
    (fun _ =>
      [(1 < source || 1 < level || count == 0 || 28 < first + count || mask == 0 || 4095 < mask ||
        (source == 1 && 3 < mask), .valueRange)])
    (fun s =>
      ⟨s, .ok, zeros 2 ++ le 10 s.me.blockEnd ++ zeros 2 ++
        (((readRegs s source level).drop first).take count).flatMap (energyEntry mask)⟩) s)

/-! ### CF_TEST (R192, R201) -/

def opCfTest : Op := { code := 0x0203, fixed := 2 }

/-- A MASK that names a disabled output or one that waits. -/
def cfMaskBad (s : State) (mask : Nat) : Bool :=
  255 < mask || (List.range 8).any (fun k => bitAt mask k && (!cfOn s k || cfWaiting s k))

/-- An output enters test mode for a duration, or one that is in it goes on for one: at most a longest time after it entered, in
TIME cycles (R192). -/
def Cf.testMode (c : Cf) (clk dur max : Nat) : Cf :=
  let from_ := if c.test then c.testFrom else clk
  { c with test := true, testFrom := from_, testEnd := Nat.min (clk + dur) (from_ + max) }

/-- R192, R201. -/
def execCfTestStart (h : Hdr) (mask durationS : Nat) (badAction : Bool) (s : State) : Host.Outcome State Fault Refusal :=
  .next (serve opCfTest h (h.len == 4)
    (fun s => [(locked s, .locked), (!canWrite s h.path 2, .authFail), (badAction, .valueRange),
      (durationS == 0 || par s (pid 2 0 11) < durationS, .valueRange), (cfMaskBad s mask, .valueRange)])
    (fun s =>
      let l := s.me.cfs.mapIdx fun k c =>
        if bitAt mask k then c.testMode s.clk (durationS * cycS) (par s (pid 2 0 11) * cycS) else c
      let s1 := s.onMe fun m =>
        { m with testActive := true, cfs := l,
                 testEnd := if mask == 0 then Nat.max m.testEnd (s.clk + durationS * cycS)
                   else maxOf ((l.filter (·.test)).map (·.testEnd)) }
      ⟨s1.log 0x0207 (le 1 mask ++ le 1 1), .ok, zeros 2⟩) s)

/-- R192, R201. -/
def execCfTestStop (h : Hdr) (s : State) : Host.Outcome State Fault Refusal :=
  .next (serve opCfTest h (h.len == 4) (fun s => [(locked s, .locked), (!canWrite s h.path 2, .authFail)])
    (fun s => ⟨s.endCfTest, .ok, zeros 2⟩) s)

/-- R192. The test ends when the requested duration is over. -/
def execCfTestExpiry (s : State) : Host.Outcome State Fault Refusal :=
  if s.clk < s.me.testEnd && !s.me.cfs.any (fun c => c.test && c.testEnd ≤ s.clk) then .next s
  else if s.me.testActive then .next (s.leaveCfTest (fun c => c.testEnd ≤ s.clk) (decide (s.clk < s.me.testEnd)))
  else .next s

end Sys2Proof.Machine
end

