-- ==== Sys2Proof/Machine/FrontEnd.lean ====
section
/-! DEFINITION. Front-end commands: overload and stuck converters, references (chapter 03). -/

namespace Sys2Proof.Machine

/-- R78, R96. A converter whose run of equal codes has reached 250 samples is STUCK: a converter fault where the coppice runs.
-/
def execStuckDetected (conv : Fin 40) (s : State) : Host.Outcome State Fault Refusal :=
  if (s.conv conv).run < 250 then .next s
  else .next ((s.onConv conv fun x => { x with stuck := true }).condemn conv 1)

/-- R75, R76, R78. A reset converter yields the unsettled samples of a stream restart and starts its STUCK run anew; whether the
second converter on the channel shows the overload too is judged at the end of the frame (R79). -/
def execModulatorOverloadReset (conv : Fin 40) (s : State) : Host.Outcome State Fault Refusal :=
  if s.pw.phase != .metering && s.pw.phase != .modulators then .next s
  else
    .next ((s.onConv conv fun x => { x with resets := u32 (x.resets + 1), resetNow := true, run := 0 }).unsettle conv)

/-! ### References (R66 to R71) -/

/-- REF_STATUS (Table 3-3), once it is live (R70). -/
def refStatus (s : State) : Nat :=
  if s.ref.live then
    flagAt s.ref.disagree 0 + flagAt s.ref.baseline.isSome 1 + flagAt s.ref.bad 2 + flagAt s.ref.onB 3
  else 0

/-- Raise or clear REF_DISAGREE with its log entry (R69). -/
def State.refDisagree (s : State) (up : Bool) : State :=
  if s.ref.disagree == up then s
  else
    (((s.onRef fun r => { r with disagree := up }).log 0x030C (le 1 (flagAt up 0) ++ zeros 3 ++ le 4 (ofSigned 32 s.ref.dev))).tamperCond
      11 0xFF up)

/-- The ratio of the primary reference to REF_B that a comparison yields, free of REF_B's temperature dependence: the converter
compares the reference in use with the check reference, which is the primary one while REF_B is in use (R68). Ratios are in units of 2^-30
(assumption 115). -/
def refRatio (s : State) (ratio : Nat) : Nat :=
  let k := Config.refBComp (factoryImage s) (s.pw.temps.map ratOfF32)
  if s.ref.onB then (if ratio == 0 then 0 else (quant s 1 (1152921504606846976 / (ratio : Rat) * k)).toNat)
  else (quant s 1 ((ratio : Rat) * k)).toNat

/-- Deviation of a ratio from the baseline, 0.01 ppm (REF_DEV). -/
def refDeviation (s : State) (ratio : Nat) : Int :=
  match s.ref.baseline with
  | none => 0
  | some b => if b == 0 then 0 else satS32 (quant s 0 ((((ratio : Int) - (b : Int) : Int) : Rat) * 100000000 / (b : Rat)))

/-- A new baseline, stored in P0 where REFIN is primary (R70). -/
def State.setBaseline (s : State) (ratio : Nat) : State :=
  let s1 := s.onRef fun r => { r with baseline := some ratio, stored := if s.pw.refsel then some ratio else r.stored }
  if s.pw.refsel then s1.storeDevice.storeBoot.1 else s1

/-- R68, R69, R70. One result is formed every 1 s. A result, given as the ratio of the reference in use to the check reference,
counts as bad or good against REF_ALARM_PPM; a rebase takes it as the baseline. -/
def execRefComparisonResult (raw : Nat) (s : State) : Host.Outcome State Fault Refusal :=
  if !s.ref.live || s.ref.resClk.any (fun c => !s.after c cycS) then .next s
  else
    let ratio := refRatio s raw
    let old := s.ref.baseline.getD 0
    let s0 := if s.ref.rebase then
        ((s.setBaseline ratio).onRef fun r => { r with rebase := false }).log 0x030D (le 4 old ++ le 4 ratio)
      else s
    let dev := refDeviation s0 ratio
    let out := s0.ref.baseline.isSome && par s0 0x1803 * 100 < dev.natAbs
    let s1 := (s0.onRef fun r =>
      { r with ratio := ratio, dev := dev, resClk := some s.clk, badRun := if out then r.badRun + 1 else 0,
               goodRun := if out then 0 else r.goodRun + 1 }).drew 2
    if out && 2 ≤ s1.ref.badRun then .next (s1.refDisagree true)
    else if !out && 10 ≤ s1.ref.goodRun then .next (s1.refDisagree false)
    else .next s1

/-- R70. With REFIN primary the baseline is captured 60 s after the first stage 2 at which REFIN is in range and none is stored.
-/
def execRefBaselineCapture (s : State) : Host.Outcome State Fault Refusal :=
  if s.pw.stage2At.any (s.after · (60 * cycS)) && s.pw.refsel && s.ref.live && !s.ref.bad && s.ref.stored.isNone &&
      s.ref.ratio != 0 then .next (s.setBaseline s.ref.ratio)
  else .next s

/-- The request that writes REF_REBASE (SET_PARAM, Table 14-6). -/
def opRefRebase : Op := { code := 0x0103, fixed := 2 }

/-- R70, R23. -/
def execRefRebase (h : Hdr) (value : Nat) (s : State) : Host.Outcome State Fault Refusal :=
  .next (serve opRefRebase h (h.len == 5) (fun s => [(locked s, .locked), (value != 1, .valueRange)])
    (fun s => ⟨s.onRef fun r => { r with rebase := true }, .ok, le 2 0x1804⟩) s)

/-- R67, R70. REFIN leaves its range while in use; the device does not change reference. It counts as in use while REF_USE = 1
too, where it is the check reference (assumption 73). REF_DISAGREE is raised where a baseline exists, and clears only after ten
good results from then on (R69). -/
def execRefinOutOfRange (s : State) : Host.Outcome State Fault Refusal :=
  if s.pw.refsel && !s.ref.bad && s.pw.stage != 0 then
    let s1 := s.onRef fun r => { r with bad := true, goodRun := 0 }
    let s2 := s1.log 0x030B (le 4 (refStatus s1))
    .next (if s.ref.baseline.isSome then s2.refDisagree true else s2)
  else .next s

end Sys2Proof.Machine
end

