-- ==== Sys2Proof/Machine/Heartwood.lean ====
section
/-! DEFINITION. Heartwood commands: host reads and writes, sessions and passwords, torn pages and the scrub (chapter 15). -/

namespace Sys2Proof.Machine

/-! ### Passwords and sessions (R347 to R350) -/

/-- Partitions with sessions (R347). -/
def sessParts : List Nat := [1, 2, 4, 5]

/-- Place of a password in the password record. -/
def pwIdx (part kind : Nat) : Nat := 2 * sessParts.findIdx (· == part) + kind

/-- A password. -/
def pwOf (s : State) (part kind : Nat) : Pw := s.se.pws.getD (pwIdx part kind) ⟨0, []⟩

/-- A value opens a session of a kind (R348). -/
def pwOpens (w : Pw) (kind v : Nat) : Bool := w.st == 0 || (w.st == 1 && w.digest == pwDigest v) || (w.st == 2 && kind == 0)

/-- Code of a path in a SESSION_FAIL entry, in the order of the SESSIONS member. -/
def pathCode : Path → Nat
  | .host => 0 | .net _ _ => 1 | .console => 2

/-- A plain packet from the network (R350). -/
def plainNet (h : Hdr) : Bool :=
  match h.path with
  | .net _ _ => h.sec.isNone
  | _ => false

/-- Lockout state of a partition. -/
def lockOf (s : State) (part : Nat) : Lockout := s.se.locks.getD part Lockout.reset

/-- Update the lockout state of a partition. -/
def State.onLock (s : State) (part : Nat) (f : Lockout → Lockout) : State :=
  s.onSe fun e => { e with locks := modAt e.locks part f }

/-- A checked password was wrong (R349): counted, logged, a lockout from the fifth on, a tamper source at the sixteenth. -/
def State.sessionFail (s : State) (part : Nat) (p : Path) : State :=
  let n := (lockOf s part).fails + 1
  let s1 := s.onLock part fun l =>
    { l with fails := n, authFails := u32 (l.authFails + 1), lockS := if 5 ≤ n then l.nextS else 0,
             nextS := if 5 ≤ n then satN 3600 (2 * l.nextS) else l.nextS, lockClk := s.clk, logged := false }
  let s2 := s1.log 0x010A (le 1 part ++ le 1 (pathCode p) ++ le 2 (satN 65535 n))
  if n == 16 then s2.tamperCond 17 0xFF true else s2

/-- A request during a lockout (R349): not checked, counted in AUTH_FAILS, the first of each lockout logged. -/
def State.sessionLocked (s : State) (part : Nat) (p : Path) : State :=
  let l := lockOf s part
  let s1 := s.onLock part fun l => { l with authFails := u32 (l.authFails + 1), logged := true }
  if l.logged then s1 else s1.log 0x010A (le 1 part ++ le 1 (pathCode p) ++ le 2 (satN 65535 l.fails))

/-- A success resets the count; the password source ends with the last partition's run. -/
def State.sessionPass (s : State) (part : Nat) : State :=
  let s1 := s.onLock part fun l => { l with fails := 0, lockS := 0, nextS := 60, logged := false }
  if s1.se.locks.any (fun l => 16 ≤ l.fails) then s1 else s1.tamperClear 17 0xFF

/-- SESSION_OPEN on a partition is locked out (R349): LOCKOUT_S has not passed since the failure that set it. -/
def lockedOut (s : State) (part : Nat) : Bool :=
  (lockOf s part).lockS != 0 && !s.after (lockOf s part).lockClk ((lockOf s part).lockS * cycS)

def opSessionOpen : Op := { code := 0x0903, minStage := 2, fixed := 6 }

/-- R347 to R350, R363. -/
def execSessionOpen (h : Hdr) (part kind password : Nat) (s : State) : Host.Outcome State Fault Refusal :=
  .next (serve opSessionOpen h (h.len == 12)
    (fun s => [(kind == 1 && locked s, .locked), (plainNet h, .authFail), (!sessParts.contains part, .valueRange),
      (1 < kind && !lockedOut s part, .valueRange)])
    (fun s =>
      if lockedOut s part then ⟨s.sessionLocked part h.path, .authFail, zeros 6⟩
      else if pwOpens (pwOf s part kind) kind password then
        let x : Session := ⟨part, kind == 1, h.path⟩
        let s1 := (s.sessionPass part).onSe fun e => { e with open_ := e.open_.filter (· != x) ++ [x] }
        ⟨s1, .ok, zeros 2 ++ le 4 (par s (pid 9 0 2))⟩
      else ⟨s.sessionFail part h.path, .authFail, zeros 6⟩) s)

def opSessionClose : Op := { code := 0x0904, minStage := 2, fixed := 2 }

/-- A session that SESSION_CLOSE names on its own path. -/
def closes (p : Path) (part kind : Nat) (x : Session) : Bool :=
  x.path == p && (part == 0xFF || x.part == part) && (kind == 2 || x.write == (kind == 1))

/-- R347. Closing a session that is not open answers OK. -/
def execSessionClose (h : Hdr) (part kind : Nat) (s : State) : Host.Outcome State Fault Refusal :=
  .next (serve opSessionClose h (h.len == 4)
    (fun _ => [(part != 0xFF && !sessParts.contains part, .valueRange), (2 < kind, .valueRange)])
    (fun s => ⟨s.dropSessions (closes h.path part kind), .ok, zeros 2⟩) s)

/-- Put a password into the record; where the record is not written, it stays as it was (R348, R357). -/
def State.setPw (s : State) (part kind : Nat) (w : Pw) : State × Bool :=
  let r := (s.onSe fun e => { e with pws := modAt e.pws (pwIdx part kind) fun _ => w }).storePw
  if r.2 then r else (r.1.onSe fun _ => s.se, false)

def opPasswordSet : Op := { code := 0x0905, minStage := 2, fixed := 2 }

/-- R350, R353, R362, R363. Sessions of the same kind on the partition that other paths hold are closed. A request that a Clearing
overtakes was accepted before it: it is abandoned after a free number of its accesses and answered AUTH_FAIL. -/
def execPasswordSet (h : Hdr) (part kind new : Nat) (overtaken : Bool) (s : State) : Host.Outcome State Fault Refusal :=
  .next (serve opPasswordSet h (h.len == 12)
    (fun s => [(pfailing s, .powerFailing), (locked s && !(overtaken && !s.tp.clearQueue.isEmpty), .locked), (plainNet h, .authFail),
      (sessParts.contains part && !canWrite s h.path part && !(overtaken && !s.tp.clearQueue.isEmpty), .authFail),
      (!sessParts.contains part, .valueRange), (1 < kind, .valueRange), (badPassword new, .valueRange)])
    (fun s =>
      let r := s.landed.setPw part kind ⟨1, pwDigest new⟩
      if overtaken && !s.tp.clearQueue.isEmpty then ⟨(s.onHw fun _ => r.1.cutFlight.hw).drew 1, .authFail, zeros 2⟩
      else if !r.2 then ⟨r.1, .internalFault, zeros 2⟩
      else ⟨r.1.dropSessions fun x => x.part == part && x.write == (kind == 1) && x.path != h.path, .ok, zeros 2⟩) s)

/-- R347. SESSION_TIMEOUT_S has passed without an authorised request on the path of a session. -/
def execSessionTimeout (path : Path) (part : Nat) (write : Bool) (s : State) : Host.Outcome State Fault Refusal :=
  .next (if (s.lk.heard.lookup path).any (fun c => !s.after c (par s (pid 9 0 2) * cycS)) then s
    else s.dropSessions (· == ⟨part, write, path⟩))

/-- R349. -/
def execLockoutExpiry (part : Fin 6) (s : State) : Host.Outcome State Fault Refusal :=
  .next (if lockedOut s part then s else s.onLock part fun l => { l with lockS := 0 })

/-! ### NV_READ and NV_WRITE (R351 to R353) -/

def opNvRead : Op := { code := 0x0901, minStage := 2, fixed := 6 }

/-- R351, R341, R359, Table 15-7. P3 needs no session; P0 is never read. -/
def execNvRead (h : Hdr) (part page offset count : Nat) (s : State) : Host.Outcome State Fault Refusal :=
  .next (serve opNvRead h (h.len == 8)
    (fun s => [(sessParts.contains part && !canRead s h.path part, .authFail),
      (part == 0 || 5 < part, .valueRange), (partPages part ≤ page, .valueRange),
      (255 < offset || count == 0 || 1024 < count || partPages part * 256 < page * 256 + offset + count, .valueRange)])
    (fun s =>
      let a := pageAddr part page + offset
      let bad := badIn s a count
      let first := match bad.foldl (fun m w => some (Nat.min (m.getD w) w)) none with
        | none => 0xFFFF
        | some w => 4 * w - a
      ⟨s.sense a count, .ok, le 2 bad.length ++ le 2 first ++ zeros 2 ++ peek s a count⟩) s)

/-- The parts in which bytes from an offset lie in a page of P5, in their order, wrapping inside the page (R352). -/
def nvParts (page offset : Nat) (bs : List Byte) : List (Nat × List Byte) :=
  [(pageAddr 5 page + offset, bs.take (256 - offset)), (pageAddr 5 page, bs.drop (256 - offset))].filter fun e => !e.2.isEmpty

/-- Put a page into a list once. -/
def addPage (l : List Nat) (p : Nat) : List Nat := if l.contains p then l else l ++ [p]

def opNvWrite : Op := { code := 0x0902, minStage := 2, fixed := 2 }

/-- R352 to R355. `pfailAfter` words are completed before PFAIL asserts: the rest stays unwritten and the page torn. -/
def execNvWrite (h : Hdr) (part page offset : Nat) (data : List Byte) (pfailAfter : Option Nat) (s : State) :
    Host.Outcome State Fault Refusal :=
  .next (serve opNvWrite h (h.len == 8 + data.length)
    (fun s => [(pfailing s, .powerFailing), (locked s, .locked), (part == 5 && !canWrite s h.path 5, .authFail),
      (part != 5, .valueRange), (511 < page, .valueRange), (255 < offset, .valueRange),
      (data.isEmpty || 256 < data.length, .valueRange)])
    (fun s =>
      let chunks := wordChunks offset data.length
      let cut := pfailAfter.any (· < chunks.length)
      let done := if cut then chunks.take (pfailAfter.getD 0) else chunks
      let n := done.foldl (· + ·) 0
      let s1 := (if n == 0 then s else s.wrPage (nvParts page offset (data.take n))).onHw fun x =>
        { x with hostWrites := u32 (x.hostWrites + done.length),
                 mem := if cut then markTorn x.mem (partFirst 5 + page) true else x.mem,
                 tornList := if cut then addPage x.tornList page else x.tornList.filter (· != page) }
      ⟨s1, if cut then .powerFailing else .ok, le 2 n⟩) s)

/-! ### NV_STATUS (R355) -/

/-- NV_FLAGS (Table 15-11). -/
def nvFlags (s : State) : Nat :=
  flagAt s.hw.scrubRunning 0 + flagAt (!s.hw.tornList.isEmpty) 1 + flagAt s.hw.uncorrSeen 2 + flagAt s.pw.pfail 3 +
  flagAt s.hw.ledger.isSome 4

def opNvStatus : Op := { code := 0x0906, minStage := 2, fixed := 6 }

/-- Reply of NV_STATUS after STATUS (Table 15-10). -/
def nvStatusReply (s : State) : List Byte :=
  let l := s.hw.tornList.take 64
  le 2 l.length ++ le 4 (nvFlags s) ++ l.flatMap (fun p => le 1 5 ++ zeros 1 ++ le 2 p)

/-- R355. -/
def execNvStatusQuery (h : Hdr) (badAction : Bool) (s : State) : Host.Outcome State Fault Refusal :=
  .next (serve opNvStatus h (h.len == 4) (fun _ => [(badAction, .valueRange)]) (fun s => ⟨s, .ok, nvStatusReply s⟩) s)

/-- R355. An acknowledged page leaves the list and its bit is cleared. -/
def execNvStatusAcknowledge (h : Hdr) (part page : Nat) (s : State) : Host.Outcome State Fault Refusal :=
  .next (serve opNvStatus h (h.len == 4)
    (fun s => [(!canWrite s h.path 5, .authFail), (part != 5, .valueRange), (511 < page && page != 0xFFFF, .valueRange)])
    (fun s =>
      let gone := s.hw.tornList.filter (fun p => page == 0xFFFF || p == page)
      let s1 := s.onHw fun x =>
        { x with tornList := x.tornList.filter (fun p => !gone.contains p),
                 mem := gone.foldl (fun m p => markTorn m (partFirst 5 + p) false) x.mem }
      ⟨s1, .ok, nvStatusReply s1⟩) s)

/-! ### Scrub (R359, R360) -/

/-- Words of the store. -/
def storeWords : Nat := 131072

/-- TIME cycles between two scrub reads: a pass of SCRUB_PERIOD_H hours, spread evenly over the words (R359). -/
def scrubPace (s : State) : Nat := par s (pid 9 0 0) * 3515625

/-- The scrub passes over a page: its torn bit is set, or it holds the wrapped key copy that the Clearing has erased (R360). -/
def scrubSkips (s : State) (page : Nat) : Bool := tornBit s.hw.mem page || (s.tp.erased && (page == 16 || page == 17))

/-- Words with inverted bits after more of them have been disturbed, ascending. -/
def addFlip (l : List Flip) (f : Flip) : List Flip :=
  let old := l.find? (·.word == f.word)
  l.filter (·.word < f.word) ++ ⟨f.word, f.mask.lor ((old.map (·.mask)).getD 0), f.stuck || old.any (·.stuck)⟩ ::
    l.filter (f.word < ·.word)

/-- The rewrites that wait at scrub priority are carried out (R359, R360): a word takes new check bits, and one that was weak counts
as refreshed. -/
def State.rewriteAll (s : State) : State :=
  s.onHw fun h =>
    { h with rewrites := [], flips := h.flips.filter fun f => f.stuck || flipBad f || !h.rewrites.any (·.1 == f.word),
             refreshed := u32 (h.refreshed + (h.rewrites.filter (·.2)).length) }

/-- R359, R360. Rewrites that have waited go first; then one word of the pass is read. A word that is disturbed shows it from here
on (assumption 123). -/
def execScrubRead (outcome : ScrubIn) (s0 : State) : Host.Outcome State Fault Refusal :=
  let s := s0.onHw fun h => { h with flips := outcome.disturbed.foldl addFlip h.flips }
  if s.pw.stage < 2 || !s.after s.hw.scrubClk (scrubPace s) then .next s
  else
    let w := s.hw.scrubPos
    let s1 := s.rewriteAll.onHw fun h =>
      if w + 1 == storeWords then
        { h with scrubRunning := true, scrubClk := s.clk, scrubPos := 0, scrubPasses := u32 (h.scrubPasses + 1) }
      else { h with scrubRunning := true, scrubClk := s.clk, scrubPos := w + 1 }
    if scrubSkips s (w / 64) then .next s1
    else if (flipsIn s1 (4 * w) 4).isEmpty && outcome.weak then
      .next (s1.onHw fun h => { h with rewrites := h.rewrites ++ [(w, true)] })
    else .next (s1.sense (4 * w) 4)

end Sys2Proof.Machine
end

