-- ==== Sys2Proof/Machine/RtcOps.lean ====
section
/-! DEFINITION. Shared operations of the calendar and its alarms: counting and trim (R365, R367), matches and their responses
(R378 to R382), adjustments (R384 to R387) and following (R375). -/

namespace Sys2Proof.Machine

/-! ### Counting -/

/-- The applied trim (R367). -/
def appliedTrim (s : State) : Int := clampI 17180 (parS s 16 (pid 8 0 1) + s.rtc.trimLearned)

/-- OSF sets (R368). -/
def Rtc.setOsf (r : Rtc) : Rtc := { r with osf := true, setSince := false }

/-- The end of the calendar's range (R365). -/
def Rtc.wrapRange (r : Rtc) : Rtc := { r with cal := Cal.powerUp }.setOsf

/-- The last second of the range. -/
def atRangeEnd (c : Cal) : Bool := c.year == 199 && c.month == 12 && c.day == 31 && c.hour == 23 && c.min == 59 && c.sec == 59

/-- The last second of the last UTC day of a month. -/
def atMonthEnd (c : Cal) (sec : Nat) : Bool :=
  c.day == calMonthDays c.year c.month && c.hour == 23 && c.min == 59 && c.sec == sec

/-- Enter the next second; a doubled second is entered again (R377). -/
def Rtc.nextSecond (r : Rtc) : Rtc :=
  if r.leapDoubled then { r with leapDoubled := false, cal := { r.cal with sub := 0 } }
  else if atRangeEnd r.cal then r.wrapRange
  else { r with cal := calOfSeconds (calSeconds r.cal + 1) }

/-- Advance SUBSEC by some counts, at most two, over a second's end if it comes. -/
def Rtc.addSub (r : Rtc) : Nat → Rtc
  | 0 => r
  | n + 1 =>
    (if r.cal.sub + 1 < 32768 then { r with cal := { r.cal with sub := r.cal.sub + 1 } } else r.nextSecond).addSub n

/-- The count by which the slew moves the prescaler at this tick: none, one held back or one extra (R375). -/
def Rtc.slewNow (r : Rtc) : Int :=
  if r.slewing && r.slewLeft != 0 && r.slewSlot ≤ r.cal.sub / 1024 then (if 0 < r.errorUs then -1 else 1) else 0

/-- A count of the slew is taken, at most one in 1/32 s (R375). -/
def Rtc.tookSlew (r : Rtc) : Rtc :=
  if r.slewNow == 0 then r
  else { r with slewLeft := r.slewLeft - 1, slewSlot := r.cal.sub / 1024 + 1, slewSum := r.slewSum + r.slewNow }

/-- One tick of the 32.768 kHz clock: the prescaler with the trim accumulator of R367 and the slew of R375. The first edge after
a commit begins the second that it set (R371). -/
def Rtc.tick32 (r : Rtc) (trim : Int) : Rtc :=
  let a := r.trimAcc + trim
  let (acc, adj) : Int × Int := if 2 ^ 24 ≤ a then (a - 2 ^ 25, 1) else if a < -2 ^ 24 then (a + 2 ^ 25, -1) else (a, 0)
  let n := (1 + adj + r.slewNow).toNat
  if r.begins then { r with trimAcc := acc, begins := false, begun := true }
  else { r.tookSlew with trimAcc := acc, begun := decide (32768 ≤ r.cal.sub + n) }.addSub n

/-- The TIME cycle in progress is the first of a crystal tick: the edge has just come. -/
def Rtc.atEdge (r : Rtc) : Bool := !r.stalled && r.phase < 32768

/-- A tick edge at which SUBSEC is 0 (R375). -/
def Rtc.secondEdge (r : Rtc) : Bool := r.atEdge && r.cal.sub == 0

/-- The tick edge at which a second begins (R378); an extra count of the prescaler may carry SUBSEC past 0 at it. -/
def Rtc.newSecond (r : Rtc) : Bool := r.atEdge && r.begun

/-- Length of a crystal tick in TIME cycles times 32,768 while the TIME domain runs at 1 + `rate` times nominal, in 2^-40 (R256),
with what the one before left. -/
def Rtc.tickLen (r : Rtc) (rate : Int) : Int := 128000000 + (128000000 * rate + r.phaseRem) / 2 ^ 40

/-- TIME cycles to the next crystal edge. -/
def Rtc.toEdge (r : Rtc) (rate : Int) : Nat := (r.tickLen rate - r.phase + 32767).toNat / 32768

/-- One TIME cycle of the calendar; it stands still while its clock has stopped (R368). `now` is the counter after the cycle. -/
def Rtc.cycle (r : Rtc) (trim rate : Int) (now : Nat) : Rtc :=
  if r.stalled then r
  else if ((r.phase + 32768 : Nat) : Int) < r.tickLen rate then { r with phase := r.phase + 32768 }
  else
    { r with phase := (((r.phase + 32768 : Nat) : Int) - r.tickLen rate).toNat, phaseRem := (128000000 * rate + r.phaseRem) % 2 ^ 40,
             edgeCnt := now }.tick32 trim

/-! ### Alarm matches -/

/-- The date fields that AL_MASK names agree (R378). -/
def dateMatch (a : Alarm) (c : Cal) : Bool :=
  (!bitAt a.mask 3 || alDay a.mtch == c.day) && (!bitAt a.mask 4 || alMonth a.mtch == c.month) &&
  (!bitAt a.mask 5 || alWeekday a.mtch == calWeekday c)

/-- An enabled alarm matches a second (R378). -/
def alarmMatches (a : Alarm) (c : Cal) : Bool :=
  bitAt a.cfg 0 && dateMatch a c && (!bitAt a.mask 0 || alSec a.mtch == c.sec) &&
  (!bitAt a.mask 1 || alMin a.mtch == c.min) && (!bitAt a.mask 2 || alHour a.mtch == c.hour)

/-- The entry of an alarm that fired (ALARM_FIRED, Table 18-4). -/
def firedData (k : Nat) (a : Alarm) (m count : Nat) : List Byte :=
  le 1 k ++ le 1 (flagAt a.fired 0 + flagAt a.skipped 1 + flagAt a.deferred 2 + flagAt a.missed 3) ++ zeros 2 ++ le 8 m ++
  le 1 (satN 255 count)

/-- The calendar reading of a CAL64 value. -/
def ofCal64 (v : Nat) : Cal :=
  ⟨bitsAt v 0 16, bitsAt v 16 8, bitsAt v 24 8, bitsAt v 32 8, bitsAt v 40 8, bitsAt v 48 8, bitsAt v 56 8⟩

/-- TIME of a log entry whose event has a calendar time (Table 18-3). -/
def calTime (s : State) (m : Nat) : Nat := time80 (calToTai (ofCal64 m) (utcOffset s))

/-- Responses that wait for a later stage (Table 16-3), as bits of AL_CFG. -/
def deferredBits (stage cfg : Nat) : Nat :=
  (if stage == 0 then flagAt (bitAt cfg 1) 1 else 0) + (if stage < 3 then flagAt (bitAt cfg 3) 3 else 0) +
  (if stage < 2 then flagAt (bitAt cfg 4) 4 else 0)

/-- Carry out or miss what an alarm has pending (R380): LATE_OK decides. -/
def State.resolvePend (s : State) (k : Nat) : State :=
  let a := s.alarm k
  match a.pend with
  | none => s
  | some (m, later) =>
    if bitAt a.cfg 5 then
      let s1 := if bitAt a.pendMask 1 then s.irq 12 else s
      let s2 := if bitAt a.pendMask 4 then
          s1.logAt (calTime s m) 0x0802 false true (firedData k a m (later + 1)) [] else s1
      let seq := bitAt a.pendMask 3
      s2.onAlarm k fun x => { x with pend := none, pendMask := 0, seqWait := seq, deferred := seq }
    else
      let n := later + 1
      ((s.onAlarm k fun x =>
        { x with pend := none, pendMask := 0, deferred := false, missed := true, missedCount := u32 (x.missedCount + n) }).logAt
          (calTime s m) 0x0803 false false (le 1 k ++ zeros 1 ++ le 2 n ++ le 8 m) [])

/-- An alarm acts for a match (R379, Table 16-3). `m` is the match in CAL64, `count` the matches jumped over, `sec` the
second its marker takes. -/
def State.alarmAct (s : State) (k m count sec : Nat) (skipped : Bool) : State :=
  let a := s.alarm k
  let d := deferredBits s.pw.stage a.cfg
  let s1 := s.onAlarm k fun x =>
    { x with fired := true, skipped := x.skipped || skipped, last := m, count := u32 (x.count + 1), marker := some sec,
             wake := x.wake || bitAt x.cfg 2,
             deferred := x.deferred || d != 0,
             pend := if d == 0 then x.pend else match x.pend with
               | none => some (m, 0)
               | some (f, n) => some (f, satN 255 (n + 1)),
             pendMask := x.pendMask.lor d }
  let s1 := if bitAt a.cfg 2 then s1.onRtc fun r => { r with wakeClk := s.clk } else s1
  let s2 := if bitAt a.cfg 1 && !bitAt d 1 then s1.irq 12 else s1
  let s3 := if bitAt a.cfg 4 && !bitAt d 4 then s2.log 0x0802 (firedData k (s1.alarm k) m count) else s2
  let s4 := if bitAt a.cfg 3 && !bitAt d 3 then s3.seqTriggerAll 2 k s.now else s3
  if s.pw.stage == 2 && d != 0 then s4.resolvePend k else s4

/-- Judge every alarm on the second in progress (R378, R385, R387). -/
def State.matchSecond (s : State) : State :=
  let sec := calSeconds s.rtc.cal
  (List.range 4).foldl
    (fun x k =>
      let a := x.alarm k
      let x1 := if a.marker.any (· < sec) then x.onAlarm k fun y => { y with marker := none } else x
      if alarmMatches a s.rtc.cal && !a.marker.any (sec ≤ ·) then
        x1.alarmAct k (cal64 { s.rtc.cal with sub := 0 }) 0 sec false
      else x1) s

/-! ### Adjustments (R384 to R387) -/

/-- Number of a field's values below `v` that match: the one named, or all. -/
def cntBelow (named : Bool) (f v : Nat) : Nat := if named then (if f < v then 1 else 0) else v

/-- Seconds of the day below `x` that match (R378). -/
def todBelow (a : Alarm) (x : Nat) : Nat :=
  let ns := cntBelow (bitAt a.mask 0) (alSec a.mtch) 60
  let nm := cntBelow (bitAt a.mask 1) (alMin a.mtch) 60
  let hOk := !bitAt a.mask 2 || alHour a.mtch == x / 3600
  let mOk := !bitAt a.mask 1 || alMin a.mtch == x / 60 % 60
  cntBelow (bitAt a.mask 2) (alHour a.mtch) (x / 3600) * nm * ns +
    (if hOk then cntBelow (bitAt a.mask 1) (alMin a.mtch) (x / 60 % 60) * ns +
      (if mOk then cntBelow (bitAt a.mask 0) (alSec a.mtch) (x % 60) else 0) else 0)

/-- Matches of a day number with second of the day in [lo, hi). -/
def dayMatches (a : Alarm) (d lo hi : Nat) : Nat :=
  if dateMatch a (calOfSeconds (d * 86400)) then todBelow a hi - todBelow a lo else 0

/-- The part of a day that lies strictly between two seconds. -/
def dayPart (o n d : Nat) : Nat × Nat :=
  (if o / 86400 == d then o % 86400 + 1 else 0, if n / 86400 == d then n % 86400 else 86400)

/-- Match seconds strictly between two seconds: count, first and last (R386). -/
def jumpedOver (a : Alarm) (o n : Nat) : Option (Nat × Nat × Nat) :=
  if !bitAt a.cfg 0 then none
  else
    let days := ((List.range (n / 86400 + 1 - o / 86400)).map (· + o / 86400)).filterMap fun d =>
      let (lo, hi) := dayPart o n d
      let c := dayMatches a d lo hi
      if c == 0 then none else some (d, c)
    let total := days.foldl (fun x e => x + e.2) 0
    match days.head?, days.getLast? with
    | some (f, _), some (l, _) =>
      let (lo, _) := dayPart o n f
      let (_, hi) := dayPart o n l
      let first := ((List.range 86400).find? (fun t => lo ≤ t && todBelow a (t + 1) != todBelow a t)).getD 0
      let last := ((List.range 86400).reverse.find? (fun t => t < hi && todBelow a (t + 1) != todBelow a t)).getD 0
      some (total, f * 86400 + first, l * 86400 + last)
    | _, _ => none

/-- What an adjustment from second `o` to second `n` does to one alarm (R386, R387). -/
def State.adjustAlarm (s : State) (k o n : Nat) : State :=
  let s0 := if n ≤ o && bitAt (s.alarm k).cfg 7 then s.onAlarm k fun x => { x with marker := none } else s
  let a := s0.alarm k
  let newCal := { s.rtc.cal with sub := 0 }
  let hit := alarmMatches a newCal && !a.marker.any (n ≤ ·)
  match (if o + 1 < n then jumpedOver a o n else none) with
  | none => if hit then s0.alarmAct k (cal64 newCal) 0 n false else s0
  | some (cnt, first, last) =>
    let m := cal64 (calOfSeconds first)
    if bitAt a.cfg 6 then
      let s1 := (s0.onAlarm k fun x =>
        { x with marker := some last, missed := true, missedCount := u32 (x.missedCount + 1) }).logAt (s.now80) 0x0803 false
          false (le 1 k ++ zeros 1 ++ le 2 (satN 255 cnt) ++ le 8 m) []
      if hit then s1.alarmAct k (cal64 newCal) 0 n false else s1
    else
      let s1 := s0.alarmAct k m cnt (if hit then n else last) true
      if hit then s1.onAlarm k fun x => { x with last := cal64 newCal } else s1

/-- Drop what is staged (R372). -/
def Rtc.unstage (r : Rtc) : Rtc :=
  { r with stMin := none, stHour := none, stDay := none, stMonth := none, stYear := none }

/-- Set the calendar to a second that begins at the next crystal edge (R371, R384): SUBSEC and prescaler restart, and the alarms are
judged. A set, which a leap second is not, drops what is staged (R372), and a learning interval of R376 begins anew. -/
def State.adjustCal (s : State) (c : Cal) (set : Bool) : State :=
  let o := calSeconds s.rtc.cal
  let c0 := { c with sub := 0 }
  let s1 := s.onRtc fun r =>
    let x := { r with cal := c0, begins := true }
    if set then { x.unstage with stepDue := false, learn := none, setSince := true } else x
  (List.range 4).foldl (fun x k => x.adjustAlarm k o (calSeconds c0)) s1

/-! ### Write-only members and status -/

/-- RTC_STATUS (Table 16-7). -/
def rtcStatus (s : State) : Nat :=
  let r := s.rtc
  let staged := r.stMin.isSome || r.stHour.isSome || r.stDay.isSome || r.stMonth.isSome || r.stYear.isSome
  flagAt r.osf 0 + flagAt staged 1 + flagAt r.following 2 + flagAt r.slewing 3 + flagAt (r.leap61 || r.leap59) 4

/-- Counter value at the crystal tick that began what the calendar reads (R370): the latest one, or the next one after a commit. While
the 32.768 kHz clock stands still, that next one is not known: a free value (assumption 126). -/
def tickCounter (s : State) : Nat :=
  if !s.rtc.begins then s.rtc.edgeCnt
  else if s.rtc.stalled then Config.freeNat s.free
  else (counterIn s (s.rtc.toEdge (pllRate s) : Int)).1.toNat

/-- Calendar error against UTC in counter units (R375); 2,000,000,000 of them are one count of SUBSEC. -/
def calError (s : State) : Int :=
  ((calSeconds s.rtc.cal * 32768 + s.rtc.cal.sub : Nat) : Int) * 2000000000 -
    ((s.te.cnt : Int) - (utcOffset s + (epoch2000 : Int)) * tickSec)

/-- The whole UTC second nearest the counter (R375). -/
def nearestUtc (s : State) : Nat :=
  (((s.te.cnt + tickSec / 2) / tickSec : Nat) - (utcOffset s) - (epoch2000 : Int)).toNat

/-- R375. The step of a calendar more than 2 s out is carried out at the crystal edge nearest a whole UTC second. -/
def State.followStep (s : State) : State :=
  if s.rtc.stepDue && s.rtc.atEdge && (s.te.cnt + 1000000000) % tickSec < 2000000000 then
    let c := calOfSeconds (nearestUtc s)
    ((s.adjustCal c true).log 0x0801 (le 8 (cal64 s.rtc.cal)) [le 8 (cal64 c)]).onRtc fun r =>
      { r with steps := u32 (r.steps + 1), begins := false }
  else s

/-- OSF_CLEAR (R369): clears OSF once the calendar has been set since OSF last set. -/
def State.clearOsf (s : State) : State :=
  (s.onRtc fun r => { r with osf := false, osfBrownOut := false }).tamperClear 23 0xFF

/-- OSF_CLEAR acts only once the calendar has been set since OSF last set (R369). -/
def osfClearAct (s : State) : State × Status := if s.rtc.setSince then (s.clearOsf, .ok) else (s, .valueRange)

/-- AL_ACK (R381, R382). -/
def State.alAck (s : State) (k : Nat) : State :=
  s.onAlarm k fun a => { a with fired := false, skipped := false, missed := false, wake := false }

end Sys2Proof.Machine
end

