-- ==== Sys2Proof/Machine/Rtc.lean ====
section
/-! DEFINITION. Calendar and alarm commands (chapter 16). -/

namespace Sys2Proof.Machine

/-- Snap address of a staged calendar field: MIN, HOUR, DAY, MONTH, YEAR (Table 16-1). -/
def stageAddr (field : Nat) : Nat := 0x1A + field

/-- Range of a staged field (R372). -/
def stageRange (field v : Nat) : Bool :=
  match field with
  | 0 => v < 60 | 1 => v < 24 | 2 => 1 ≤ v && v ≤ 31 | 3 => 1 ≤ v && v ≤ 12 | _ => 2000 ≤ v && v ≤ 2199

/-- Hold a staged field. -/
def Rtc.stage (r : Rtc) (field v : Nat) : Rtc :=
  match field with
  | 0 => { r with stMin := some v } | 1 => { r with stHour := some v } | 2 => { r with stDay := some v }
  | 3 => { r with stMonth := some v } | _ => { r with stYear := some (v - 2000) }

/-- A write of a staged field with a good CRC (R371, R372, R374). -/
def State.stageWrite (s : State) (field value : Nat) : State :=
  if locked s then s.directLog (stageAddr field) .locked
  else if stageRange field value then (s.onRtc fun r => { r.stage field value with stClk := s.clk }).directLog (stageAddr field) .accepted
  else s.directLog (stageAddr field) .refused

/-- The calendar that a write of SEC commits (R371). -/
def committedCal (r : Rtc) (sec : Nat) : Cal :=
  { sub := 0, sec := sec, min := r.stMin.getD r.cal.min, hour := r.stHour.getD r.cal.hour, day := r.stDay.getD r.cal.day,
    month := r.stMonth.getD r.cal.month, year := r.stYear.getD r.cal.year }

/-- A write of SEC with a good CRC (R371, R372, R374). -/
def State.secWrite (s : State) (value : Nat) : State :=
  if locked s then s.directLog 0x19 .locked
  else if 60 ≤ value then s.directLog 0x19 .refused
  else
    let c := committedCal s.rtc value
    if calValid c then (s.adjustCal c true).directLog 0x19 .accepted
    else (s.onRtc Rtc.unstage).directLog 0x19 .refused

/-- R372. Staged fields are discarded 10 s after the last staging write. -/
def execCalendarStagingDiscard (s : State) : Host.Outcome State Fault Refusal :=
  .next (if s.after s.rtc.stClk (10 * cycS) then s.onRtc Rtc.unstage else s)

def opRtcGet : Op := { code := 0x0801, minStage := 2, fixed := 26 }

/-- R370, Table 16-5. -/
def execRtcGet (h : Hdr) (s : State) : Host.Outcome State Fault Refusal :=
  .next (serve opRtcGet h (h.len == 0) (fun _ => [])
    (fun s => ⟨s.drew 1, .ok, le 1 (calWeekday s.rtc.cal) ++ zeros 1 ++ le 8 (cal64 s.rtc.cal) ++ le 10 (time80 (tickCounter s)) ++
      zeros 2 ++ le 4 (rtcStatus s)⟩) s)

def opRtcSet : Op := { code := 0x0802, minStage := 2, fixed := 14 }

/-- R373, R374, R388. The whole request is checked before anything is set: CLEAR_OSF is judged on the calendar as it was. -/
def execRtcSet (h : Hdr) (flags year month day hour min sec : Nat) (s : State) : Host.Outcome State Fault Refusal :=
  let c : Cal := ⟨0, sec, min, hour, day, month, year - 2000⟩
  .next (serve opRtcSet h (h.len == 12)
    (fun s => [(locked s, .locked),
      (1 < flags || (bitAt flags 0 && !s.rtc.setSince), .valueRange),
      (year < 2000 || !calValid c, .valueRange)])
    (fun s =>
      let s1 := s.adjustCal c true
      let s2 := if bitAt flags 0 then s1.clearOsf else s1
      ⟨s2.drew 1, .ok, zeros 2 ++ le 10 (time80 (tickCounter s2)) ++ zeros 2⟩) s)

/-- The request that writes a write-only member (SET_PARAM, Table 14-6). -/
def opWriteOnly : Op := { code := 0x0103, minStage := 2, fixed := 2, warden := true }

/-- R369, R374. OSF_CLEAR acts at LOCK. -/
def execOsfClear (h : Hdr) (value : Nat) (s : State) : Host.Outcome State Fault Refusal :=
  .next (serve opWriteOnly h (h.len == 5)
    (fun s => [(value != 1 || (osfClearAct s).2 != .ok, .valueRange)])
    (fun s => ⟨(osfClearAct s).1, .ok, le 2 0x4005⟩) s)

/-- R381, R382, R374. AL_ACK acts at LOCK. -/
def execAlAck (h : Hdr) (alarm : Fin 4) (value : Nat) (s : State) : Host.Outcome State Fault Refusal :=
  .next (serve opWriteOnly h (h.len == 5) (fun _ => [(value != 1, .valueRange)])
    (fun s => ⟨s.alAck alarm, .ok, le 2 (pid 27 alarm 4)⟩) s)

/-- R378, R379. The alarms are matched in the AON domain at the tick at which SUBSEC becomes 0. -/
def execAlarmMatch (s : State) : Host.Outcome State Fault Refusal :=
  .next (if s.pw.aonUp && s.rtc.newSecond then s.matchSecond else s)

/-- R381. WAKE_N is released WAKE_HOLD_S after the latest match. -/
def execWakeHoldExpiry (s : State) : Host.Outcome State Fault Refusal :=
  if par s (pid 8 0 7) == 0 || !s.after s.rtc.wakeClk (par s (pid 8 0 7) * cycS) then .next s
  else .next (s.onRtc fun r => { r with alarms := r.alarms.map fun a => { a with wake := false } })

/-- R368. The calendar stands still and OSF sets. -/
def execClock32Stall (s : State) : Host.Outcome State Fault Refusal :=
  .next (s.onRtc fun r => { r with stalled := true }.setOsf)

/-- R368. The calendar counts on from where it stood. -/
def execClock32Resume (s : State) : Host.Outcome State Fault Refusal := .next (s.onRtc fun r => { r with stalled := false })

/-- R375, R376. Once per second, at a tick edge with SUBSEC = 0, the Warden measures e while it follows, and steps, slews or
leaves the calendar. -/
def execRtcFollowMeasurement (s : State) : Host.Outcome State Fault Refusal :=
  if !(s.wd.running && par s (pid 8 0 3) == 1 && s.te.servo == .locked && s.rtc.secondEdge) then .next s
  else
    let e := calError s
    let us := satS32 (quant s 0 ((e : Rat) / 65536000))
    let slew := decide (61 * 65536000 < e.natAbs ∧ e.natAbs ≤ 2 * tickSec)
    .next ((s.onRtc fun r =>
      { r with following := true, errorUs := us, stepDue := decide (2 * tickSec < e.natAbs), slewing := slew,
               slewLeft := if slew then satN 32 (e.natAbs / 2000000000) else 0, slewSlot := 0,
               learn := r.learn <|> some (s.clk, e), slewSum := if r.learn.isNone then 0 else r.slewSum }).drew 1)

/-- R376. After 1,024 s of following, the rate error over the interval with the slew excluded is added to TRIM_LEARNED: one
count of SUBSEC in 1,024 s is one step of 2^-25, and a calendar that has gained is slowed (assumption 83). -/
def execTrimLearning (s : State) : Host.Outcome State Fault Refusal :=
  match s.rtc.learn with
  | none => .next s
  | some (c, e0) =>
    if s.rtc.following && s.rtc.secondEdge && s.after c (1024 * cycS) then
      let e := calError s
      let d := quant s 0 ((s.rtc.slewSum : Rat) - ((e - e0 : Int) : Rat) / 2000000000)
      .next ((s.onRtc fun r =>
        { r with trimLearned := clampI 32767 (r.trimLearned + clampI 336 d), learn := some (s.clk, e), slewSum := 0 }).drew 1)
    else .next s

/-- R376. TRIM_LEARNED is stored in P0 hourly. -/
def execTrimLearnedStore (s : State) : Host.Outcome State Fault Refusal :=
  if s.wd.running && s.after s.rtc.storeClk (3600 * cycS) then
    .next (s.onRtc fun r => { r with trimStored := r.trimLearned, storeClk := s.clk }).storeDevice
  else .next s

/-- R377. leap61 doubles 23:59:59; leap59 passes from 23:59:58 to 00:00:00 at the end of that second, an adjustment
over 23:59:59. -/
def execCalendarLeapSecond (s : State) : Host.Outcome State Fault Refusal :=
  if s.rtc.leap61 && atMonthEnd s.rtc.cal 59 then .next (s.onRtc fun r => { r with leap61 := false, leapDoubled := true })
  else if s.rtc.leap59 && atMonthEnd s.rtc.cal 58 && s.rtc.cal.sub == 32767 then
    .next ((s.onRtc fun r => { r with leap59 := false }).adjustCal (calOfSeconds (calSeconds s.rtc.cal + 2)) false)
  else .next s

/-- R365. The last second of the range ends at the next crystal edge. -/
def execCalendarRangeEnd (s : State) : Host.Outcome State Fault Refusal :=
  if atRangeEnd s.rtc.cal && s.rtc.cal.sub == 32767 then .next (s.onRtc fun r => { r.wrapRange with begins := true })
  else .next s

/-- R380. No sequencer was armed in time: the SEQ response counts as missed. -/
def execDeferredSeqExpiry (alarm : Fin 4) (s : State) : Host.Outcome State Fault Refusal :=
  .next (s.onAlarm alarm fun a =>
    if a.seqWait && s.pw.stage3At.any (s.after · (60 * cycS)) then
      { a with seqWait := false, deferred := false, missed := true, missedCount := u32 (a.missedCount + 1) }
    else a)

end Sys2Proof.Machine
end

