-- ==== Sys2Proof/Machine/Time.lean ====
section
/-! DEFINITION. Time engine commands: servo timing (R255, R258), leap seconds (R251), TIME opcodes (R262, R274), blazes (R267 to
R270) and notches (R271 to R273). -/

namespace Sys2Proof.Machine

/-- R258. No offset for SOURCE_TIMEOUT_MS. -/
def execSourceTimeout (s : State) : Host.Outcome State Fault Refusal :=
  if (s.te.servo == .acquire || s.te.servo == .locked) && s.after s.te.quietClk (par s (pid 7 0 8) * cycMs) then
    .next (s.servoTo .holdover (s.te.offsetNs * 65536))
  else .next s

/-- R258. HOLDOVER_LIMIT_S since the last accepted offset. -/
def execHoldoverLimit (s : State) : Host.Outcome State Fault Refusal :=
  if s.te.servo == .holdover && s.after s.te.lastAcceptClk (par s (pid 7 0 10) * cycS) then
    .next (s.servoTo .free (s.te.offsetNs * 65536))
  else .next s

/-- The TIME cycle at which a second of the UTC day ends: the counter has just reached second `n` of the day, counted with the
UTC offset in force. -/
def utcDaySecond (s : State) (n : Int) : Bool :=
  decide (s.te.cnt % tickSec < (countStep s).1 ∧ (((s.te.cnt / tickSec : Nat) : Int) - utcOffset s) % 86400 = n)

/-- R251. At the instant that ends the last second of the UTC day (23:59:60 for leap61, 23:59:58 for leap59) the pending leap
takes effect on UTC_OFFSET, the pending bit clears and OCCURRED sets. -/
def execLeapSecond (s : State) : Host.Outcome State Fault Refusal :=
  let w := leapWord s
  let t := s.onTe fun t => { t with leapClk := s.clk }
  if bitAt w 0 then .next (if utcDaySecond s 1 then (t.setUtc (utcOffset s + 1)).setLeap 4 else s)
  else if bitAt w 1 then .next (if utcDaySecond s 86399 then (t.setUtc (utcOffset s - 1)).setLeap 4 else s)
  else .next s

/-- R251. OCCURRED clears 24 h later. -/
def execLeapOccurredClear (s : State) : Host.Outcome State Fault Refusal :=
  .next (if bitAt (leapWord s) 2 && s.after s.te.leapClk (86400 * cycS) then s.setLeap (clrBit (leapWord s) 2) else s)

/-- R255. Hourly while LOCKED the Warden stores f. -/
def execLastLockedRateStore (s : State) : Host.Outcome State Fault Refusal :=
  if s.te.servo == .locked && s.wd.running && s.after s.te.storeClk (3600 * cycS) then
    .next (s.onTe fun t => { t with lastLocked := t.f, storeClk := s.clk }).storeDevice
  else .next s

def opTimeGet : Op := { code := 0x0701, fixed := 22 }

/-- R274, Table 11-7. -/
def execTimeGet (h : Hdr) (s : State) : Host.Outcome State Fault Refusal :=
  .next (serve opTimeGet h (h.len == 0) (fun _ => [])
    (fun s => ⟨s, .ok, le 1 s.te.servo.code ++ zeros 1 ++ le 10 s.now80 ++ le 2 (s.te.cnt % 65536) ++ le 4 (teEst s) ++
      le 2 (ofSigned 16 (utcOffset s)) ++ zeros 2⟩) s)

def opTimeSet : Op := { code := 0x0702, fixed := 2 }

/-- The counter value that TIME_SET asks for (R262): all of it with source NONE, the whole seconds alone with PPS. -/
def timeSetTarget (s : State) (time : Nat) : Nat :=
  if par s (pid 7 0 0) == 0 then ofTime80 time else time80Sec time * tickSec + s.te.cnt % tickSec

/-- R262, R274. -/
def execTimeSet (h : Hdr) (time : Nat) (s : State) : Host.Outcome State Fault Refusal :=
  .next (serve opTimeSet h (h.len == 12)
    (fun s => [(locked s, .locked),
      (!time80Ok time || (par s (pid 7 0 0) != 0 && par s (pid 7 0 0) != 2), .valueRange)])
    (fun s => ⟨s.acceptStep ((timeSetTarget s time : Int) - (s.te.cnt : Int)) (s.te.servo != .free), .ok, zeros 2⟩) s)

def opTimeOffset : Op := { code := 0x0703, fixed := 2 }

/-- R252, R259, R260, R274. -/
def execTimeOffset (h : Hdr) (offset : Int) (meas gmId : Nat) (s : State) : Host.Outcome State Fault Refusal :=
  .next (serve opTimeOffset h (h.len == 28)
    (fun s => [(par s (pid 7 0 0) != 3 || !time80Ok meas || s.now < ofTime80 meas || ofTime80 meas + 2 * tickSec < s.now,
      .valueRange)])
    (fun s =>
      let (s1, refused) := s.offset offset gmId
      if refused then refuse s1 opTimeOffset .stepRefused else ⟨s1, .ok, le 1 s1.te.servo.code ++ zeros 1⟩) s)

def opTimeAcceptStep : Op := { code := 0x0704, fixed := 10 }

/-- R260, R274. The latest refused offset is applied as a step. -/
def execTimeAcceptStep (h : Hdr) (s : State) : Host.Outcome State Fault Refusal :=
  .next (serve opTimeAcceptStep h (h.len == 0)
    (fun s => [(locked s, .locked), (s.te.servo != .refused, .valueRange)])
    (fun s =>
      let th := s.te.refusedRun.headD 0
      ⟨s.acceptStep (-th) true, .ok, zeros 2 ++ le 8 (ofSigned 64 (roundAway (((-th : Int) : Rat) / 65536)))⟩) s)

/-- A TX timestamp entry (Table 11-6). -/
def txBytes (e : TxEntry) : List Byte := le 2 e.id ++ le 1 e.port ++ le 1 (flagAt e.stepped 0) ++ le 10 e.time ++ zeros 2

def opTxtsRead : Op := { code := 0x0705, fixed := 6 }

/-- R266, R274, Table 11-11. -/
def execTxtsRead (h : Hdr) (max : Nat) (s : State) : Host.Outcome State Fault Refusal :=
  .next (serve opTxtsRead h (h.len == 4) (fun _ => [(max == 0 || 16 < max, .valueRange)])
    (fun s =>
      let out := s.te.txHost.take max
      let rest := s.te.txHost.drop max
      ⟨s.onTe fun t => { t with txHost := rest, txOvHost := t.txOvHost && !rest.isEmpty }, .ok,
       le 1 out.length ++ zeros 1 ++ le 4 s.te.txLostHost ++ out.flatMap txBytes⟩) s)

/-! ### Blazes -/

def State.blaze (s : State) (k : Nat) : Blaze := s.te.blazes.getD k Blaze.reset
def State.onBlaze (s : State) (k : Nat) (f : Blaze → Blaze) : State := s.onTe fun t => { t with blazes := modAt t.blazes k f }

/-- BL_STATUS (Table 11-15). -/
def blazeStatus (b : Blaze) : Nat :=
  flagAt b.armed 0 + flagAt b.done 1 + flagAt b.late 2 + flagAt b.stepped 3 + flagAt b.activeLow 4

/-- The first edge of a program accepted at a counter value, with `d` what one TIME cycle adds (R267, R268). -/
def firstEdge (start periodNs now d : Nat) : Nat :=
  if periodNs == 0 then (if start < now then now + d else start)
  else if now < start then start
  else start + ((now - start) / (periodNs * 65536) + 1) * (periodNs * 65536)

/-- The program that BLAZE_ARM puts into an output (R267 to R269); a pulse in progress completes. -/
def armBlaze (b : Blaze) (flags start period width count now d : Nat) : Blaze :=
  let st := ofTime80 start
  { armed := true, done := false, late := period == 0 && st < now, stepped := false, activeLow := bitAt flags 1,
    start := st, period := period, width := width, count := count, edges := 0, next := firstEdge st period now d,
    pulse := b.pulse, pulseEnd := b.pulseEnd }

def opBlazeArm : Op := { code := 0x0710, fixed := 18 }

/-- Reply of BLAZE_ARM after STATUS (Table 11-12). -/
def blazeReply (b : Blaze) : List Byte :=
  zeros 2 ++ le 4 (blazeStatus b) ++ le 10 (if b.next == 0 then 0 else time80 b.next) ++ zeros 2

/-- Checks on the fields common to both actions of BLAZE_ARM, in their order. -/
def blazeChecks (s : State) (index : Nat) (badAction : Bool) (flags start : Nat) : List (Bool × Status) :=
  [(locked s, .locked), (7 < index, .valueRange), (badAction, .valueRange), (3 < flags, .valueRange),
   (!time80Ok start, .valueRange)]

/-- R267, R268, R269. -/
def execBlazeArm (h : Hdr) (index : Nat) (badAction : Bool) (flags start period width count : Nat) (s : State) :
    Host.Outcome State Fault Refusal :=
  .next (serve opBlazeArm h (h.len == 32)
    (fun s => blazeChecks s index badAction flags start ++
      [(period == 0 && !bitAt flags 0 && ofTime80 start < s.now, .timePast),
       (period != 0 && (period < 100 || 86400000000000 < period), .valueRange),
       (width < 10 || 4294967295 < width || (period != 0 && period < width + 10), .valueRange)])
    (fun s =>
      let s1 := s.onBlaze index fun b => armBlaze b flags start period width count s.now (countStep s).1
      ⟨s1, .ok, blazeReply (s1.blaze index)⟩) s)

/-- R269. The remaining fields of the request are not used. -/
def execBlazeDisarm (h : Hdr) (index flags start : Nat) (s : State) : Host.Outcome State Fault Refusal :=
  .next (serve opBlazeArm h (h.len == 32) (fun s => blazeChecks s index false flags start)
    (fun s =>
      let s1 := s.onBlaze index fun b => { b with armed := false, next := 0 }
      ⟨s1, .ok, blazeReply (s1.blaze index)⟩) s)

/-- The last pulse of a program has begun. -/
def Blaze.last (b : Blaze) : Bool := b.period == 0 || (b.count != 0 && b.count ≤ b.edges)

/-- R267. A pulse starts at its programmed instant; nothing happens on an output without one or before it. -/
def execBlazeEdge (k : Fin 8) (s : State) : Host.Outcome State Fault Refusal :=
  if (s.blaze k).armed && (s.blaze k).next != 0 && (s.blaze k).next ≤ s.te.cnt then
    .next (s.onBlaze k fun b =>
      let c := { b with pulse := true, pulseEnd := b.next + b.width * 65536, edges := u32 (b.edges + 1) }
      { c with next := if c.last then 0 else b.next + b.period * 65536 })
  else .next s

/-- R267, R269. A pulse ends after its width; DONE sets after the last one and the program is no longer armed
(assumption 18). -/
def execBlazePulseEnd (k : Fin 8) (s : State) : Host.Outcome State Fault Refusal :=
  .next (s.onBlaze k fun b =>
    if b.pulse && b.pulseEnd ≤ s.te.cnt then
      if b.armed && b.last && b.next == 0 then { b with pulse := false, armed := false, done := true }
      else { b with pulse := false }
    else b)

/-! ### Notches and PPS -/

def State.notch (s : State) (k : Nat) : Notch := s.te.notches.getD k Notch.reset
def State.onNotch (s : State) (k : Nat) (f : Notch → Notch) : State := s.onTe fun t => { t with notches := modAt t.notches k f }

/-- The edge is one that EDGE selects (Table 11-16). -/
def edgeSelected (cfg : Nat) (rising : Bool) : Bool :=
  let e := bitsAt cfg 0 2
  e == 3 || (e == 1 && rising) || (e == 2 && !rising)

/-- Write a capture to the FIFO (R271, R272). -/
def Notch.capture (n : Notch) (t : Nat) (rising : Bool) : Notch :=
  let n1 := { n with count := u32 (n.count + 1), stepMark := false }
  if n.fifo.length < 8 then { n1 with fifo := n.fifo ++ [⟨t, rising, n.stepMark⟩] }
  else { n1 with lost := u32 (n.lost + 1), overflow := true }

/-- The PPS offset that a capture of NOTCH0 gives (R273): the first edge within ±0.5 s of a whole second. A PPS_DELAY_NS that waits
for the next offset counts for this one (R275). -/
def State.ppsOffset (s : State) (t : Int) : State :=
  let v := s.takeScheduled (fun id => effOf id == .offset)
  let x := t - parS v 32 (pid 7 0 27) * 65536
  let n := (x + (tickSec / 2 : Nat)) / (tickSec : Int)
  if takesOffsets s 2 && s.te.ppsSecond != some n.toNat then
    ((v.onTe fun e => { e with ppsSecond := some n.toNat }).offset (x - n * tickSec) 0).1
  else s

/-- An edge counts: EDGE selects it, and with NT_FILTER_NS not 0 the new level holds that long (R271). -/
def edgeCounts (s : State) (k : Nat) (rising : Bool) (held : Nat) : Bool :=
  edgeSelected (par s (pid 25 k 0)) rising && par s (pid 25 k 1) ≤ held

/-- R271 to R273. The capture carries the time of the edge; it enters the FIFO, triggers sequencers with source NOTCH, and on
NOTCH0 gives the PPS offset. -/
def execNotchCapture (k : Fin 8) (time : Nat) (rising : Bool) (held : Nat) (s : State) : Host.Outcome State Fault Refusal :=
  let s0 := s.onNotch k fun n => { n with level := rising }
  let cfg := par s (pid 25 k 0)
  if s.te.running && edgeCounts s k rising held then
    let t : Int := (time : Int) - parS s 32 (pid 25 k 2) * 65536
    let s1 := s0.onNotch k fun n => n.capture t.toNat rising
    let s2 := if bitAt cfg 2 then s1.irq 9 else s1
    let s3 := s2.seqTriggerAll 1 k t.toNat
    .next (if k.val == 0 then s3.ppsOffset t else s3)
  else .next s0

def opNotchRead : Op := { code := 0x0720, fixed := 6 }

/-- A capture in NOTCH_READ (Table 11-13). -/
def notchBytes (e : NotchEntry) : List Byte := le 10 (time80 e.time) ++ le 1 (flagAt e.rising 0 + flagAt e.stepped 1) ++ zeros 1

/-- R272, R274. -/
def execNotchRead (h : Hdr) (index max : Nat) (s : State) : Host.Outcome State Fault Refusal :=
  .next (serve opNotchRead h (h.len == 4)
    (fun _ => [(7 < index, .valueRange), (max == 0 || 8 < max, .valueRange)])
    (fun s =>
      let n := s.notch index
      let out := n.fifo.take max
      let rest := n.fifo.drop max
      ⟨s.onNotch index fun x => { x with fifo := rest, overflow := x.overflow && !rest.isEmpty }, .ok,
       le 1 out.length ++ zeros 1 ++ le 4 n.lost ++ out.flatMap notchBytes⟩) s)

end Sys2Proof.Machine
end

