-- ==== Sys2Proof/Machine/Flags.lean ====
section
/-! DEFINITION. Status words and levels that the device derives from its state: the snap window's STATUS, IRQ_STATUS, STAGE and lane
words, the status members of the families, and the levels of HIRQ_N, the display and the LEDs. -/

namespace Sys2Proof.Machine

/-- STAGE word (Table 2-2). -/
def stageWord (s : State) : Nat :=
  s.pw.stage + flagAt s.pw.acct 4 + flagAt s.pw.handoverPending 5 + s.pw.bootFault * 256

/-- LEVEL_WORDS reaches IRQ_LEVEL_WORDS as the latest queue write took it, when that is not 0 (R319, Table 13-10). -/
def queueLevel (s : State) : Bool := s.qu.irqLevel != 0 && s.qu.irqLevel ≤ s.qu.level

/-- IRQ_STATUS: event bits and state bits (Table 13-10). -/
def irqStatus (s : State) : Nat :=
  s.lk.irq + flagAt (outBytes s.lk.ctrlOut != 0) 1 + flagAt (outBytes s.lk.bulkOut != 0) 2 + flagAt (queueLevel s) 3 +
  flagAt s.pw.pfail 7

/-- Level of HIRQ_N: low while an unmasked bit stands, high otherwise (R315). -/
def hirqN (s : State) : Bool := (irqStatus s).land s.lk.irqMask == 0

/-- Lane and D of a packet frame started now (R303, R304); nothing of the bulk lane is sent while hushed (R313). -/
def frameChoice (s : State) : Bool × Nat :=
  if outBytes s.lk.ctrlOut != 0 then (false, satN 4095 (outBytes s.lk.ctrlOut))
  else if outBytes s.lk.bulkOut != 0 && !s.lk.hushed then (true, satN (par s 0x0811) (outBytes s.lk.bulkOut))
  else (false, 0)

/-- LANE_STATUS (Table 13-11). -/
def laneStatus (s : State) : Nat :=
  let (bulk, d) := frameChoice s
  d + flagAt bulk 12 + flagAt (outBytes s.lk.ctrlOut != 0) 13 + flagAt (outBytes s.lk.bulkOut != 0) 14 +
  flagAt s.lk.hushed 15 + (4 - buffersUsed s.lk.rxCtrl) * 2 ^ 16 + (2 - buffersUsed s.lk.rxBulk) * 2 ^ 20

/-- HUSH word (Table 13-11). -/
def hushWord (s : State) : Nat := flagAt s.lk.hushed 0 + s.lk.hushSrc * 2 + s.lk.hushCount * 2 ^ 16

/-- DIRECT_LOG (Table 13-11). -/
def directLogWord (s : State) : Nat :=
  s.lk.dlAddr + flagAt s.lk.dlAccepted 8 + flagAt s.lk.dlBadCrc 9 + flagAt s.lk.dlRefused 10 + flagAt s.lk.dlLocked 11 +
  s.lk.dlCount * 2 ^ 16

/-- HOST_INFO (Table 13-11). -/
def hostInfo (s : State) : Nat := flagAt s.pw.hsel 0 + par s 0x0811 * 2 ^ 16

/-- Some stand is DEGRADED (Table 13-12). -/
def anyDegraded (s : State) : Bool := s.stands.any (fun k => k.st == 3)

/-- STATUS (Table 13-12). -/
def statusWord (s : State) : Nat :=
  flagAt s.pw.pfail 0 + flagAt s.lk.hushed 1 + flagAt s.lk.directCrcErr 2 + flagAt s.lk.directRoErr 3 +
  flagAt (locked s) 4 + flagAt (s.te.servo == .locked) 5 + flagAt (anyDegraded s) 6 + flagAt s.me.disagree 7 +
  flagAt s.nt.ringOpen 8 + flagAt s.rtc.osf 9 + flagAt (s.pw.bootFault != 0) 10 + flagAt s.ref.disagree 11

/-- METRO_STATUS (Table 8-12). -/
def metroStatus (s : State) : Nat :=
  flagAt s.pw.acct 0 + flagAt s.pw.handoverPending 1 + flagAt s.me.disagree 2 + flagAt s.me.testActive 3 +
  flagAt s.hw.restarted 4

/-- QUEUE_STATE (Table 7-15). -/
def queueState (s : State) : Nat :=
  flagAt s.qu.streaming 0 + flagAt s.qu.push 1 + flagAt s.qu.overflow 2 + flagAt s.lk.hushed 3

/-- SEQ_STATE (Table 5-8): one byte per sequencer. -/
def seqState (s : State) : Nat :=
  leVal (s.seqs.map fun q =>
    let isSeq := match q.arm.map Arming.job with
      | some (.checks _) => true
      | _ => false
    BitVec.ofNat 8 (q.st + flagAt q.held.isSome 2 + flagAt isSeq 3))

/-- PC_ACTIVE (Table 5-8). -/
def pcActive (s : State) : Nat := leVal (s.stands.map fun k => BitVec.ofNat 8 ((k.active.map Check.chan).getD 0xFF))

/-- SPARE_STATES (Table 13-11). -/
def spareStates (s : State) : Nat := leVal (s.stands.map fun k => BitVec.ofNat 8 k.st)

/-- RING_STATUS (Table 12-6); 0 until the switch runs (Table 13-11). -/
def ringStatus (s : State) : Nat :=
  if s.nt.up then
    flagAt ((s.nt.ports.getD 0 Port.reset).link != 0) 0 + flagAt ((s.nt.ports.getD 1 Port.reset).link != 0) 1 +
    flagAt s.nt.ringOpen 2 + flagAt s.lk.hushed 3
  else 0

/-- BUS_STATUS of a bus (Table 9-12). -/
def busStatus (s : State) (b : Nat) : Nat :=
  let x := s.pq.buses.getD b PqBus.reset
  (List.range 6).foldl (fun a k => a + flagAt (x.open_.any (fun e => e.cls == k)) k) 0 + flagAt x.rvcArmed 6 +
  flagAt x.freqNominal 7

/-- PMU_STATUS (Table 10-12). -/
def pmuStatus (s : State) : Nat :=
  flagAt s.pm.on 0 + flagAt s.pm.waiting 1 + flagAt (!s.pm.changes.isEmpty) 2 + flagAt s.pm.histIncomplete 3

/-- TIME_STATUS (Table 11-14). -/
def timeStatus (s : State) : Nat :=
  flagAt s.te.jumpRefused 0 + flagAt s.te.realigning 1 + flagAt s.te.txOvInt 2 + flagAt s.te.txOvHost 3

/-- Snap word SERVO (Table 13-11). -/
def servoWord (s : State) : Nat := s.te.servo.code + flagAt s.te.jumpRefused 3 + flagAt s.te.realigning 4

/-- POWER_STATE (Table 19-7). -/
def powerState (s : State) : Nat :=
  flagAt s.pw.pfail 0 + flagAt s.pw.pfailReleased 1 + flagAt s.pw.ext33 2 +
  flagAt (decide ((2 : Rat) ≤ ratOfF32 (s.pw.supplies.getD 4 0))) 3 + flagAt (s.slot 26).active 4 +
  flagAt s.pw.clearAtPowerUp 5

/-- BUCK_STATUS (Table 19-7). -/
def buckStatus (s : State) : Nat :=
  flagAt s.pw.buckVdd33 0 + flagAt s.pw.buckVcore 1 + flagAt s.pw.buckRoot 2 + flagAt s.pw.limitVdd33 3 +
  flagAt s.pw.limitVcore 4

/-- BANKS (Table 18-13). -/
def banksWord (s : State) : Nat :=
  (List.range 4).foldl (fun a k =>
    let b := s.up.banks.getD k (⟨0, 0, 0, 0, 0, false⟩, ⟨0, 0, 0, 0, 0, false⟩)
    a + b.1.st * 2 ^ (4 * k) + b.2.st * 2 ^ (4 * k + 2) + s.up.active.getD k 0 * 2 ^ (16 + k)) 0

/-- KIND of the open update; 0xFF none. -/
def updateKind (s : State) : Nat := if s.up.st == 0 then 0xFF else (byteAt s.up.header 2).toNat

/-- VERSION of the image in force of a kind; 0 when no valid image exists (R337). -/
def imageVer (s : State) (k : Nat) : Nat :=
  let b := s.up.banks.getD k (⟨0, 0, 0, 0, 0, false⟩, ⟨0, 0, 0, 0, 0, false⟩)
  let r := if s.up.active.getD k 0 == 0 then b.1 else b.2
  if r.valid && !s.up.absent.contains k then r.version % 2 ^ 32 else 0

/-- TRANSPLANT_STATE (Table 18-13). -/
def transplantState (s : State) : Nat :=
  flagAt s.tx.package.isSome 0 + flagAt s.tx.importBody.isSome 1 + flagAt s.tx.imported 2

/-- CONSOLE_STATE (Table 20-8). -/
def consoleState (s : State) : Nat :=
  s.hm.owner + flagAt s.hm.probe 2 + flagAt s.hm.cable 3 + consoleLevel s * 16

/-- No valid Pioneer record: the display shows the fault layout (R451). -/
def faultLayout (s : State) : Bool := s.hw.pioSeq.isNone

/-- DISPLAY_STATE (Table 20-8). -/
def displayState (s : State) : Nat :=
  s.hm.item + flagAt s.hm.scrolling 5 + flagAt s.hm.held 6 + flagAt s.hm.segTest 7 + flagAt (faultLayout s) 8 +
  flagAt s.hm.layout.isNone 9

/-- TDAC_STATE (Table 20-9). -/
def tdacState (s : State) : Nat := flagAt s.hm.tdacOn 0 + flagAt s.hm.tdacConsole 1 + s.hm.tdacCode * 2 ^ 16

/-- FORCE_STATE (Table 20-9). -/
def forceState (s : State) : Nat := packFlags ((List.range 20).map (fun o => s.hm.forces.any (fun f => f.output == o)))

/-- CF_STATUS (Table 8-16). -/
def cfStatus (s : State) (k : Nat) : Nat :=
  let c := s.me.cfs.getD k Cf.reset
  let full := if pioQuantity (par s (pid 26 k 0)) then s.pw.acct else s.me.fromB1
  flagAt full 0 + flagAt c.clipped 1 + flagAt c.test 2 + flagAt (cfWaiting s k) 3

/-- NT_STATUS (Table 11-16). -/
def notchStatus (n : Notch) : Nat := flagAt n.overflow 0 + flagAt n.level 1

/-- AL_STATUS (Table 16-8). -/
def alarmStatus (a : Alarm) : Nat := flagAt a.fired 0 + flagAt a.skipped 1 + flagAt a.deferred 2 + flagAt a.missed 3

/-- SRC_STATE (Table 17-12); slot 18 cannot be changed. -/
def srcState (s : State) (k : Nat) : Nat :=
  flagAt (s.slot k).active 0 + flagAt (s.slot k).latched 1 + flagAt (k == 18) 2 + flagAt (s.slot k).onVbat 3

/-- PW_STATE of a partition (Table 15-12): two bits for the read and two for the write password. -/
def pwState (s : State) (p : Nat) : Nat :=
  if sessParts.contains p then (pwOf s p 0).st + (pwOf s p 1).st * 4 else 0

/-- SESSIONS of a partition (Table 15-12). -/
def sessionsWord (s : State) (p : Nat) : Nat :=
  s.se.open_.foldl
    (fun a x => if x.part == p then a.lor (2 ^ (pathCode x.path + (if x.write then 4 else 0))) else a) 0

/-! ### Display and LEDs (R446 to R454) -/

/-- A digit as shown: a character, with or without its decimal point; blank is a space. -/
def padDigits (n : Nat) (v : Nat) : List Char :=
  ((List.range n).map (fun k => Char.ofNat (48 + v / 10 ^ k % 10))).reverse

/-- Blank zeros to the left of the first significant digit and of the digit that carries the decimal point (R449). -/
def blankZeros : Nat → List Char → List Char
  | _, [] => []
  | 0, l => l
  | k + 1, c :: r => if c == '0' then ' ' :: blankZeros k r else c :: r

/-- The characters of an item (R448 to R450). -/
def itemChars (s : State) (n : Nat) : List Char :=
  let l := layoutOf s
  let it := layItem l n
  let d := layDigits l
  match (s.hm.latched[n]?).getD none with
  | none => List.replicate d '-'
  | some v =>
    let cs := padDigits d v.natAbs
    if bitAt (byteAt it 3).toNat 0 then cs else blankZeros (d - 1 - (byteAt it 4).toNat) cs

/-- The characters that the display shows, leftmost first; none while it is off or in a segment test, which lights every
segment (R446, R451, R453). -/
def displayChars (s : State) : Option (List Char) :=
  if s.pw.stage == 0 || bitAt (par s 0x6000) 16 || s.hm.segTest then none
  else if faultLayout s then
    some (List.replicate (layDigits (layoutOf s) - 3) '-' ++ ['F'] ++ padDigits 2 s.pw.bootFault)
  else some (itemChars s s.hm.item)

/-- State annunciators 0 to 7, apart from the 1 Hz flashing of 3 (Table 20-3); 5 follows the full engine while it runs (R185).
-/
def annunciators (s : State) : List Bool :=
  let l := layoutOf s
  let it := layItem l s.hm.item
  let src := (byteAt it 0).toNat
  let i := (byteAt it 1).toNat
  let st := fun (full : Bool) => if src == 1 then (if full then s.me.regElemF else s.me.regElemP).getD i (Regs.zero 0)
    else (if full then s.me.regCircF else s.me.regCircP).getD i (Regs.zero 0)
  let onCirc := src == 0 || src == 2
  let neg := ((s.hm.latched[s.hm.item]?).getD none).any (fun v => decide (v < 0))
  [decide (1 ≤ ladder s), locked s, s.te.servo == .locked, s.nt.ringOpen, neg || (onCirc && bitAt (st s.pw.acct).status 12),
   (onCirc || src == 1) && bitAt (st s.me.fromB1).status 0, s.hm.owner != 0, (s.slot 26).active]

/-- Segments of a character, a to g as bits 0 to 6 (R448). PRESUMED: the usual seven-segment shapes (assumption 101). -/
def glyph (c : Char) : Nat :=
  if c == '-' then 0x40 else if c == 'F' then 0x71 else
    if c.toNat < 48 then 0 else
      [0x3F, 0x06, 0x5B, 0x4F, 0x66, 0x6D, 0x7D, 0x07, 0x7F, 0x6F].getD (c.toNat - 48) 0

/-- The digit that carries the decimal point of the item shown (R449). -/
def pointDigit (s : State) : Option Nat :=
  let l := layoutOf s
  let dec := (byteAt (layItem l s.hm.item) 4).toNat
  if faultLayout s || dec == 0 || layDigits l ≤ dec then none else some (layDigits l - 1 - dec)

/-- Annunciators 0 to 15, apart from the flashing of 3: 8 to 15 are lit by the item shown (R448, R451). -/
def allAnnunciators (s : State) : List Bool :=
  let own := (byteAt (layItem (layoutOf s) s.hm.item) 6).toNat
  annunciators s ++ (List.range 8).map fun j => !faultLayout s && bitAt own j

/-- The segment lines and commons that are driven (R446 to R451): none while the display is off, and every one in a segment
test. -/
def litSegments (s : State) : List (Nat × Nat) :=
  let all := (List.range 40).flatMap fun l => (List.range 8).map fun c => (l, c)
  if s.pw.stage == 0 || bitAt (par s 0x6000) 16 then []
  else match displayChars s with
    | none => all
    | some cs =>
      let lay := layoutOf s
      let digit := fun (d : Nat) (line : Nat) =>
        ((List.range 8).filter (bitAt (glyph (cs.getD d ' ') + (if pointDigit s == some d then 128 else 0)))).map (fun c => (line, c))
      let digits := (List.range (Nat.min 16 (layDigits lay))).flatMap fun d =>
        let line := (byteAt lay (8 + d)).toNat
        if line < 40 then digit d line else []
      let marks := (List.range 16).filterMap fun a =>
        let w := fieldAt lay (24 + 2 * a) 2
        if (allAnnunciators s).getD a false && !bitAt w 15 then some (bitsAt w 0 6, bitsAt w 8 3) else none
      digits ++ marks

/-- LED_FUNC of an LED and its steady state: lit, or blinking STAGE pulses of 0.1 s in every 2 s (R454); released until stage 1 (R492). -/
def ledLit (s : State) (k : Nat) : Bool × Nat :=
  let f := bitsAt (par s 0x6004) (4 * k) 4
  if s.pw.stage == 0 then (false, 0)
  else if f == 1 then (bitAt (par s 0x6005) k, 0)
  else if f == 2 then (false, s.pw.stage)
  else if f == 3 then (decide (1 ≤ ladder s), 0)
  else if f == 4 then (s.te.servo == .locked, 0)
  else if f == 5 then
    ((s.nt.ports.getD 0 Port.reset).link != 0 && (s.nt.ports.getD 1 Port.reset).link != 0 && !s.nt.ringOpen, 0)
  else (false, 0)

/-- Level of a BLAZE ball: high in a pulse and low outside, the other way round with ACTIVE_LOW (R267). -/
def blazeLevel (b : Blaze) : Bool := b.pulse != b.activeLow

/-- Nominal level of TDAC_OUT, V; none at high impedance (R459). -/
def tdacVolts (s : State) : Option Rat := if s.hm.tdacOn then some ((s.hm.tdacCode : Rat) * (6 / 5) / 65536) else none

/-- The level that a ball is forced to (R460, Table 20-6). -/
def forcedLevel (s : State) (o : Nat) : Option Bool := (s.hm.forces.find? (fun f => f.output == o)).map (·.level)

/-- Levels of the open-drain balls WAKE_N (R381) and PFAIL_N, which VDD33 brings up (R440, R492): true is released. -/
def wakeN (s : State) : Bool := !s.rtc.alarms.any (·.wake)
def pfailN (s : State) : Bool := s.pw.phase == .off || s.pw.phase == .started || !s.pw.pfail

end Sys2Proof.Machine
end

