-- ==== Sys2Proof/Machine/PmuOps.lean ====
section
/-! DEFINITION. Phasor estimation from the stream, reports, C37.118.2 data frames and CFG-2 (R228 to R246). -/

namespace Sys2Proof.Machine

/-! ### Sequence components (R233, Table 10-3) -/

/-- A third of the sum of three phasors with phase k + 1 turned by k·m·120° (R233). -/
def seqPh (l : List Ph) (m : Nat) : Ph :=
  let t := l.mapIdx (fun k p => turn p (k * m))
  (t.foldl (fun a p => a + p.1) 0 / 3, t.foldl (fun a p => a + p.2) 0 / 3)

/-- A line-to-line component as its phase-to-neutral equivalent: divided by √3 and turned by −30° or, with `up`, +30°. -/
def toNeutral (p : Ph) (up : Bool) : Ph :=
  let k := (if up then 1 else -1) / (2 * sqrt3)
  (p.1 / 2 - k * p.2, k * p.1 + p.2 / 2)

/-- Positive, negative and zero sequence of a bus, from the channels' phasors (Table 10-2). -/
def busSeq (s : State) (ph : Nat → Ph) (b : Nat) : List Ph :=
  let p := ph (4 * b)
  let q := ph (4 * b + 2)
  if threeWire s b then
    let l := [p, (-q.1, -q.2), (q.1 - p.1, q.2 - p.2)]
    [toNeutral (seqPh l 1) false, toNeutral (seqPh l 2) true, (0, 0)]
  else
    let l := [p, ph (4 * b + 1), q]
    [seqPh l 1, seqPh l 2, seqPh l 0]

/-- Positive, negative and zero sequence of a circuit (Table 10-2). -/
def circSeq (s : State) (ph : Nat → Ph) (c : Nat) : List Ph :=
  let i := (circElems s c).map (fun e => ph (curChan s e))
  if !(circElems s c).all (elemOn s) then [(0, 0), (0, 0), (0, 0)]
  else if i.length == 3 then [seqPh i 1, seqPh i 2, seqPh i 0]
  else if i.length == 2 then
    let a := i.getD 0 (0, 0)
    let d := i.getD 1 (0, 0)
    let l := [a, (-(a.1 + d.1), -(a.2 + d.2)), d]
    [seqPh l 1, seqPh l 2, (0, 0)]
  else [(0, 0), (0, 0), (0, 0)]

/-- Squared magnitude. -/
def phSq (p : Ph) : Rat := p.1 * p.1 + p.2 * p.2

/-- π to 30 decimal places (assumption 6). -/
def piQ : Rat := 3141592653589793238462643383279 / 1000000000000000000000000000000

/-- Magnitude and angle in radians, binary32. -/
def polar (p : Ph) : Nat × Nat := (f32Sqrt (phSq p), f32OfRat (Config.argHalf p.1 p.2 * piQ))

/-! ### Frequency (R232) -/

/-- Nominal frequency. -/
def nomHz (s : State) : Nat := if par s (pid 2 0 0) == 60 then 60 else 50

/-- Half the frequency measurement range (Table 10-1). -/
def freqRange (s : State) : Rat :=
  let fs : Rat := par s (pid 6 0 1)
  if par s (pid 6 0 0) == 1 && fs / 5 < 5 then fs / 5 else 5

/-! ### Estimation (R228 to R232) -/

/-- M class is in force. -/
def mClass (s : State) : Bool := par s (pid 6 0 0) == 1

/-- The ratio of two numbers rounded to the nearest whole number. -/
def roundDiv (a b : Nat) : Nat := (2 * a + b) / (2 * b)

/-- Half span of the class filter and half-width of the fit, ms (Table 10-1). -/
def classHalf (s : State) : Nat := if mClass s then roundDiv 5000 (pmuRate s) else roundDiv 1000 (nomHz s)
def fitHalf (s : State) : Nat := if mClass s then roundDiv 1000 (pmuRate s) else roundDiv 500 (nomHz s)

/-- sin πx / πx. -/
def sinc (x : Rat) : Rat := if x = 0 then 1 else Config.cosDeg (180 * x - 90) / (piQ * x)

/-- Coefficient of the class filter at an offset in ms: a triangle that reaches zero one tap beyond its last, or a
Hamming-windowed sinc with its cutoff at Fs/4 (Table 10-1; assumption 80). -/
def classTap (s : State) (tau : Rat) : Rat :=
  let h : Rat := (classHalf s : Nat)
  if h < absQ tau then 0
  else if mClass s then
    sinc (2 * ((pmuRate s : Nat) : Rat) / 4 * tau / 1000) * (54 / 100 + 46 / 100 * Config.cosDeg (180 * tau / h))
  else 1 - absQ tau / (h + 1)

/-- The value of a channel at a place, demodulated by e^(−j2π·f0·t) with t from the start of its second (R228). -/
def demodAt (s : State) (c : Nat) (n : Int) : Ph :=
  match if n < 0 then none else s.wave[waveN s - n.toNat]? with
  | none => (0, 0)
  | some x =>
    let a : Rat := 360 * ((nomHz s : Nat) : Rat) * (((x.t % tickSec : Nat) : Rat) / (tickSec : Rat))
    (x.x.getD c 0 * Config.cosDeg a, x.x.getD c 0 * Config.cosDeg (a + 90))

/-- A baseband sample: the decimation filter about a place, 50 samples of 40 µs to either side, its group delay of 2 ms taken
out (R228). -/
def baseband (s : State) (c : Nat) (n : Int) : Ph :=
  (List.range 101).foldl
    (fun (a : Ph) (i : Nat) =>
      let z := demodAt s c (n + (i : Int) - 50)
      (a.1 + Config.baseTap i * z.1, a.2 + Config.baseTap i * z.2)) (0, 0)

/-- Baseband samples that the class filter reads about a place: their places on the 1 ms grid, of which `grid` is one, with the
offset in ms from the place (R231). -/
def classGrid (s : State) (grid : Int) (place : Rat) : List (Int × Rat) :=
  let m := ((place - (grid : Rat)) / 25).floor
  let h := classHalf s + 1
  ((List.range (2 * h + 1)).map fun i =>
    let n := grid + 25 * (m + (i : Int) - (h : Int))
    (n, ((n : Rat) - place) / 25)).filter fun e => decide (absQ e.2 ≤ ((classHalf s : Nat) : Rat))

/-- The class filter's output at a place, in rms: √2 times the weighted mean of the baseband samples (R228, R229, R231). -/
def classPh (s : State) (c : Nat) (grid : Int) (place : Rat) : Ph :=
  let l := classGrid s grid place
  let w := sumQ (l.map fun e => classTap s e.2)
  let k := if w = 0 then 0 else ratSqrt 2 / w
  (k * sumQ (l.map fun e => classTap s e.2 * (baseband s c e.1).1), k * sumQ (l.map fun e => classTap s e.2 * (baseband s c e.1).2))

/-- Gain of the class filter at a frequency offset (R229). -/
def classGain (s : State) (grid : Int) (place df : Rat) : Rat :=
  let l := classGrid s grid place
  let w := sumQ (l.map fun e => classTap s e.2)
  if w = 0 then 1 else sumQ (l.map fun e => classTap s e.2 * Config.cosDeg (360 * df * e.2 / 1000)) / w

/-- Angles of successive phasors in half-turns, each next one within half a turn of the one before (R232). -/
def unwrap : Rat → List Ph → List Rat
  | a, p :: q :: r => a :: unwrap (a + Config.argHalf (q.1 * p.1 + q.2 * p.2) (q.2 * p.1 - q.1 * p.2)) (q :: r)
  | a, [_] => [a]
  | _, [] => []

/-- First and second coefficient of the least-squares quadratic through values at τ = −W to +W ms, per s and per s² (R232). -/
def quadFit (w : Nat) (y : List Rat) : Rat × Rat :=
  let l := y.mapIdx fun i v => ((((i : Int) - (w : Int) : Int) : Rat) / 1000, v)
  let n : Rat := (l.length : Nat)
  let t2 := sumQ (l.map fun e => e.1 * e.1)
  let t4 := sumQ (l.map fun e => e.1 * e.1 * e.1 * e.1)
  let c1 := sumQ (l.map fun e => e.1 * e.2)
  let c2 := n * sumQ (l.map fun e => e.1 * e.1 * e.2) - t2 * sumQ (l.map (·.2))
  (if t2 = 0 then 0 else c1 / t2, if n * t4 - t2 * t2 = 0 then 0 else c2 / (n * t4 - t2 * t2))

/-- Frequency and ROCOF of a bus from the fit to its positive-sequence voltage about a place (R232). -/
def fitBus (s : State) (b : Nat) (grid : Int) (place : Rat) : Rat × Rat :=
  let w := fitHalf s
  let v := (List.range (2 * w + 1)).map fun i =>
    (busSeq s (fun c => classPh s c grid (place + 25 * (((i : Int) - (w : Int) : Int) : Rat))) b).headD (0, 0)
  let p := v.headD (0, 0)
  let c := quadFit w (unwrap (Config.argHalf p.1 p.2) v)
  (((nomHz s : Nat) : Rat) + c.1 / 2, c.2)

/-- A phasor report (R228 to R235): its instant in counter units, the 36 channel phasors (real and imaginary part, primary rms),
frequency in Hz and ROCOF in Hz/s from the fits of the two buses, the channels whose window holds substitutes or clamped samples
as bit maps, and whether the window spans a time step or reaches back before the start. -/
structure ReportIn where
  t : Nat
  ph : List Ph
  freqA : Rat
  rocofA : Rat
  freqB : Rat
  rocofB : Rat
  est : Nat
  sat : Nat
  spanning : Bool
  incomplete : Bool
deriving DecidableEq, Repr

/-- A channel's phasor in a report. -/
def repPh (r : ReportIn) (c : Nat) : Ph := r.ph.getD c (0, 0)

/-- The 126 phasors of a report (Table 10-3). -/
def allPh (s : State) (r : ReportIn) : List Ph :=
  (List.range 36).map (repPh r) ++ busSeq s (repPh r) 0 ++ busSeq s (repPh r) 1 ++ (List.range 28).flatMap (circSeq s (repPh r))

/-- Samples to either side of a reporting instant that its report rests on: the decimation filter, the class filter and the fit
(R235). -/
def reportSpan (s : State) : Nat := 25 * (classHalf s + fitHalf s) + 50

/-- The first reporting instant at or after a counter value, k/Fs from the start of its second (R231), to the next 2^-16 ns. -/
def gridAt (fs t : Nat) : Nat :=
  let k := (t % tickSec * fs + tickSec - 1) / tickSec
  t / tickSec * tickSec + (k * tickSec + fs - 1) / fs

/-- The reporting instant that lies in the sample period from an instant of the stream on. -/
def gridIn (s : State) (x : Wave) : Option Nat :=
  let t := gridAt (pmuRate s) x.t
  if t < x.t + pTick then some t else none

/-- Changes of PMU members that are in effect at an instant, of those that State still holds (R244). -/
def pmuPhase (s : State) (t : Nat) : Nat := (s.pm.old.filter fun e => decide (e.at_ ≤ t)).length

/-- The state with the PMU members that were in force after the first `k` of those changes (R244). -/
def viewOf (s : State) (k : Nat) : State :=
  match s.pm.old[k]? with
  | none => s
  | some e =>
    (s.onPr fun p => { p with applied := assocAll p.applied ((s.pm.old.drop k).reverse.flatMap (·.vals)) }).onPm fun p =>
      { p with startN := e.startN }

/-- Reporting instants of which the stream holds all that their reports rest on, newest first, each under the members in force at
it (R231, R235, R244). -/
def reportList (s : State) : List (Wave × Nat) :=
  (List.range (s.pm.old.length + 1)).reverse.flatMap fun k =>
    let v := viewOf s k
    ((s.wave.drop (reportSpan v)).filterMap fun x => (gridIn v x).map fun t => (x, t)).filter fun e => pmuPhase s e.2 == k

/-- The next report: the oldest instant after the latest one reported, or before any report the newest one, of which the stream
holds all that its report rests on (R231, R235, R238). -/
def reportDue (s : State) : Option (Wave × Nat) :=
  let l := reportList s
  match s.pm.lastReported with
  | none => l.head?
  | some last => (l.takeWhile fun e => decide (last < e.2)).getLast?

/-- The report of an instant of the stream (R228 to R235, R238, R245). -/
def reportOf (s : State) (x : Wave) (t : Nat) : ReportIn :=
  let place := (x.n : Rat) + ((t : Rat) - (x.t : Rat)) / (pTick : Rat)
  let grid : Int := (x.n : Int) - ((x.t % tickSec / pTick % 25 : Nat) : Int)
  let fitA := fitBus s 0 grid place
  let fitB := fitBus s 1 grid place
  let ph := (List.range 36).map fun c =>
    let f := if chanBus s c == 0 then fitA.1 else fitB.1
    let g := classGain s grid place (f - ((nomHz s : Nat) : Rat))
    let p := classPh s c grid place
    if g = 0 then p else (p.1 / g, p.2 / g)
  let span : Rat := (reportSpan s : Nat)
  let l := waveSpan s (place - span) (place + span + 1)
  let bits := fun (f : Wave → Nat) => packFlags ((List.range 36).map fun c => l.any fun y => bitAt (f y) c)
  { t := t, ph := ph, freqA := fitA.1, rocofA := fitA.2, freqB := fitB.1, rocofB := fitB.2, est := bits Wave.est, sat := bits Wave.sat,
    spanning := l.dropLast.any (·.step), incomplete := decide (place - span < ((s.pm.startN : Int) : Rat)) }

/-! ### What a bus reports (R232) -/

/-- The bus's frequency can be measured: |V1| is at least 20 % of VNOM and f lies in the range. -/
def freqOk (s : State) (r : ReportIn) (b : Nat) : Bool :=
  let v := parF s (pid 2 0 1) / 5
  let f := if b == 0 then r.freqA else r.freqB
  decide (v * v ≤ phSq ((busSeq s (repPh r) b).headD (0, 0))) && decide (absQ (f - (nomHz s : Rat)) ≤ freqRange s)

/-- Frequency and ROCOF that a bus reports, binary32. -/
def busFreq (s : State) (r : ReportIn) (b : Nat) : Nat × Nat :=
  if freqOk s r b then
    if b == 0 then (f32OfRat r.freqA, f32OfRat r.rocofA) else (f32OfRat r.freqB, f32OfRat r.rocofB)
  else (f32OfRat (nomHz s : Rat), 0)

/-! ### Blocks (R240) -/

/-- Channels of a block, whatever is selected (R240). -/
def blockChans (s : State) (b : Nat) : List Nat := (List.range 36).filter fun c => chanBus s c == b

/-- Channels that PMU_PHASOR_MASK selects, ascending. -/
def pmuChans (s : State) : List Nat := (List.range 36).filter (fun c => bitAt (par s (pid 6 0 3)) c)

/-! ### STAT and FRACSEC (R241) -/

/-- PMU sync: 0 in LOCKED, and in HOLDOVER at an estimate of at most 1 µs. -/
def pmuSync (s : State) : Nat :=
  if s.te.servo == .locked || (s.te.servo == .holdover && (teNs s).any (fun e => e ≤ 1000)) then 0 else 1

/-- STAT bits 8:6. -/
def timeQuality (s : State) : Nat :=
  match teNs s with
  | none => 7
  | some e =>
  if e ≤ 100 then 1 else if e ≤ 1000 then 2 else if e ≤ 10000 then 3 else if e ≤ 100000 then 4
  else if e ≤ 1000000 then 5 else if e ≤ 10000000 then 6 else 7

/-- STAT bits 5:4. -/
def unlockedTime (s : State) : Nat :=
  if s.te.servo == .locked then 0
  else
    match s.pm.unlockClk with
    | none => 3
    | some c =>
      let t := s.clk - c
      if t < 10 * 128000000 then 0 else if t < 100 * 128000000 then 1 else if t ≤ 1000 * 128000000 then 2 else 3

/-- Instant of the counter at a model clock of the past. -/
def instantAt (s : State) (clk : Nat) : Nat := s.now - (s.clk - clk) * 512000

/-- A committed change is pending at a reporting instant (R241, R244). -/
def pmuPending (s : State) (t : Nat) : Bool :=
  s.pm.changes.any (fun c => instantAt s c.1 ≤ t) || s.pm.old.any fun e => e.commitT ≤ t && t < e.at_

/-- STAT of a block (Table 10-6). -/
def statWord (s : State) (r : ReportIn) (b : Nat) : Nat :=
  let used := blockChans s b
  let err := if r.spanning || used.any (bitAt r.sat) then 3
    else if used.any (fun c => chanSource s c != 0) then 2
    else if !freqOk s r b then 1 else 0
  let reason := if isOpen s b 0 || isOpen s b 2 then 1 else if isOpen s b 1 then 2 else 0
  err * 16384 + pmuSync s * 8192 + flagAt (flags3 s b) 11 + flagAt (pmuPending s r.t) 10 +
    flagAt (used.any (bitAt r.est)) 9 + timeQuality s * 64 + unlockedTime s * 16 + reason

/-- Decade of the time-error estimate, 1 for up to 1 ns to 0xB for up to 10 s, 0xF above (FRACSEC bits 27:24). -/
def decade (e : Nat) : Nat := ((List.range 11).find? (fun k => e ≤ 10 ^ k)).getD 14 + 1

/-- FRACSEC bits 31:24: leap-second bits from LEAP, and the message time quality. -/
def fracQuality (s : State) : Nat :=
  let l := par s 0x380E
  let q := if s.te.servo == .locked then 0
    else if s.te.servo == .free || s.te.servo == .refused then 15
    else ((teNs s).map decade).getD 15
  flagAt (bitAt l 1) 6 + flagAt (bitAt l 2) 5 + flagAt (bitAt l 0 || bitAt l 1) 4 + q

/-- SOC and FRACSEC of an instant. -/
def socFrac (s : State) (t : Nat) : List Byte :=
  be 4 ((((t / tickSec : Nat) : Int) - utcOffset s) % 2 ^ 32).toNat ++ be 1 (fracQuality s) ++
  be 3 (roundAway ((t % tickSec : Nat) / 65536000)).toNat

/-! ### Frames -/

/-- Close a C37.118 frame: FRAMESIZE at offset 2 and CHK. `body` is what follows FRAMESIZE. -/
def c37 (sync : Nat) (body : List Byte) : List Byte :=
  let b := be 2 sync ++ be 2 (body.length + 6) ++ body
  b ++ be 2 (crc16 b)

/-- The quiet NaN of R238. -/
def pmuNan : Nat := 0x7FC00000

/-- One block of a data frame (Table 10-5). -/
def blockBytes (s : State) (r : ReportIn) (phs : List Ph) (b : Nat) : List Byte :=
  let f := busFreq s r b
  let val := fun (x : Nat) => be 4 (if r.spanning then pmuNan else x)
  be 2 (statWord s r b) ++
  (blockIdxs s (selNow s) b).flatMap (fun k =>
    let p := phs.getD k (0, 0)
    if bitAt (selNow s 2) 3 then val (polar p).1 ++ val (polar p).2 else val (f32OfRat p.1) ++ val (f32OfRat p.2)) ++
  val f.1 ++ val f.2

/-- A data frame (R240). -/
def dataFrame (s : State) (r : ReportIn) : List Byte :=
  let phs := allPh s r
  c37 0xAA02 (be 2 (selNow s 7) ++ socFrac s r.t ++ blockBytes s r phs 0 ++ blockBytes s r phs 1)

/-- Text padded with spaces to 16 characters. -/
def text16 (t : String) : List Byte := (ascii t ++ List.replicate 16 32).take 16

/-- Upper-case hexadecimal digit. -/
def hexDigit (d : Nat) : Char := Char.ofNat (if d < 10 then 48 + d else 55 + d)

/-- Three hexadecimal digits. -/
def hex3 (v : Nat) : String := String.ofList [hexDigit (v / 256 % 16), hexDigit (v / 16 % 16), hexDigit (v % 16)]

/-- CHNAM of a phasor index (Table 10-7). -/
def chName (k : Nat) : String :=
  if k < 8 then "V" ++ toString (k + 1)
  else if k < 36 then "I" ++ toString (k - 7)
  else if k < 42 then ["VA+", "VA-", "VA0", "VB+", "VB-", "VB0"].getD (k - 36) ""
  else "C" ++ toString ((k - 42) / 3) ++ [" I+", " I-", " I0"].getD ((k - 42) % 3) ""

/-- PHUNIT of a phasor index: voltage or current. -/
def phUnit (k : Nat) : Nat := if k < 8 || (36 ≤ k && k < 42) then 0 else 0x01000000

/-- The state as its committed parameters describe it (R242). -/
def committedView (s : State) : State := s.onPr fun p => { p with applied := p.committed }

/-- One block of CFG-2, in the field order of IEEE C37.118.2-2011. -/
def cfgBlock (s : State) (b : Nat) : List Byte :=
  let l := blockIdxs s (selNow s) b
  text16 ("N" ++ hex3 s.nt.node ++ (if b == 0 then " BUS A" else " BUS B")) ++ be 2 (selNow s (8 + b)) ++
  be 2 (if bitAt (selNow s 2) 3 then 0x000B else 0x000A) ++ be 2 l.length ++ be 2 0 ++ be 2 0 ++
  l.flatMap (fun k => text16 (chName k)) ++ l.flatMap (fun k => be 4 (phUnit k)) ++
  be 2 (if nomHz s == 50 then 1 else 0) ++ be 2 s.pm.cfgCnt

/-- CFG-2, from the committed parameters (R242). -/
def cfg2 (s : State) : List Byte :=
  let v := committedView s
  c37 0xAA32 (be 2 (selNow v 7) ++ socFrac s s.now ++ be 4 1000000 ++ be 2 2 ++ cfgBlock v 0 ++ cfgBlock v 1 ++ be 2 (selNow v 1))

/-- Send CFG-2 to an address and port. -/
def State.sendCfg2 (s : State) (dst : Nat × Nat) : State :=
  s.sendFrame (udpFrame s 6 .config dst (selNow s 15) (cfg2 s))

/-! ### Queue records (R246) -/

/-- FSp of a channel: full-scale sine rms in primary units (Table 10-8). -/
def fullScaleRms (s : State) (c : Nat) : Rat := 495 / 1000 / (2 ^ chanGain s c : Nat) * parF s (pid 16 c 3)

/-- Value word of a phasor record. -/
def phasorWord (s : State) (c : Nat) (p : Ph) : Nat :=
  let fs := fullScaleRms s c
  let mag := if fs ≤ 0 then Config.freeNat (s.free + c) % 65536
    else satN 65535 (roundAway (ratSqrt (phSq p) * 32768 / fs)).toNat
  mag * 65536 + ofSigned 16 (roundAway (32768 * Config.argHalf p.1 p.2))

/-- Flags of a phasor X record: ESTIMATED, HISTORY_INCOMPLETE, TIMESTEP (Table 7-2). -/
def phasorFlags (r : ReportIn) (est : Bool) : Nat := flagAt est 7 + flagAt r.incomplete 6 + flagAt r.spanning 3

/-- Write the records of a report. -/
def State.phasorRecords (s : State) (r : ReportIn) : State :=
  let s1 := (pmuChans s).foldl
    (fun x c => x.qX c (phasorFlags r (bitAt r.est c)) (phasorWord s c (repPh r c)) r.t) s
  let bus := fun (b : Nat) => phasorFlags r ([4 * b, 4 * b + 1, 4 * b + 2].any (bitAt r.est))
  let a := busFreq s r 0
  let d := busFreq s r 1
  (((s1.qX 44 (bus 0) a.1 r.t).qX 45 (bus 0) a.2 r.t).qX 46 (bus 1) d.1 r.t).qX 47 (bus 1) d.2 r.t

/-! ### Changes (R244) -/

/-- A change takes effect at an instant: CFGCNT counts it, a change of class or rate starts the windows anew, and reports of
earlier instants are still formed with the values before it (R244, R245). -/
def State.pmuApply (s : State) (commitT at_ : Nat) (l : List (Nat × Nat)) : State :=
  let s1 := s.onPr fun p => { p with applied := assocAll p.applied l }
  let anew := par s (pid 6 0 0) != par s1 (pid 6 0 0) || par s (pid 6 0 1) != par s1 (pid 6 0 1)
  (s1.onPm fun p =>
    { p with cfgCnt := (p.cfgCnt + 1) % 65536, histIncomplete := p.histIncomplete || anew, startN := if anew then (placeOf s at_).floor else p.startN,
             old := (p.old ++ [(⟨commitT, at_, l.map (fun e => (e.1, par s e.1)), p.startN⟩ : PmuOld)]).drop (p.old.length - 63) }).storeDevice

/-- Every waiting change takes effect at once, oldest first (R244). -/
def State.pmuTake (s : State) : State :=
  s.pm.changes.foldl (fun x c => x.pmuApply (instantAt s c.1) s.now c.2) (s.onPm fun p => { p with changes := [] })

/-- The reporting instant at which a committed change takes effect: while output is on the first one at least 60 s after its
commit, else the next one after it; none while that time runs (R244). -/
def pmuEffect (s : State) (c : Nat) : Option Nat :=
  let due := c + (if s.pm.on then 60 * 128000000 else 0)
  if due ≤ s.clk then some (gridAt (pmuRate s) (instantAt s due)) else none

/-- The changes whose reporting instant has come take effect, oldest first (R244). -/
def State.pmuDue (s : State) : State :=
  let late := fun (c : Nat × List (Nat × Nat)) => (pmuEffect s c.1).any (· ≤ s.now)
  (s.pm.changes.takeWhile late).foldl (fun x c => x.pmuApply (instantAt s c.1) ((pmuEffect s c.1).getD s.now) c.2)
    (s.onPm fun p => { p with changes := p.changes.dropWhile late })

/-- Network output stops, and a start that waits with it (R243, R247). -/
def State.pmuStop (s : State) : State :=
  (s.pmuMissed s.now s.now).onPm fun p => { p with on := false, waiting := false, gapFrom := none }

/-- PMU_CONTROL start, also by command frame: output is on at stage 4 and waits for it at stage 3; a change that was pending
over a stop is applied (R244, R247). -/
def State.pmuStart (s : State) : State :=
  let s1 := if s.pm.on then s else s.pmuTake
  if s1.pm.on then s1
  else if 4 ≤ s.pw.stage then s1.onPm fun p => { p with on := true, waiting := false }
  else s1.onPm fun p => { p with waiting := true }

end Sys2Proof.Machine
end

