-- ==== Sys2Proof/Machine/Readback.lean ====
section
/-! DEFINITION. What a read returns: the present value of every read-only member (Tables of R336), the four kinds of
value of R333, the snap window of Table 13-11 and the fields of IDENTIFY. -/

namespace Sys2Proof.Machine

/-- A signed quantity in 2^-16 ns as whole ns in 32 bits. -/
def nsField (s : State) (t : Int) : Nat := ofSigned 32 (nsOfTicks s 900 t)

/-- MAC address: production value of the boot configuration in P0 (Table 12-6). -/
def macAddr : Nat := Config.otpValue 0x5802 % 2 ^ 48

/-- SYS members (Table 14-14). -/
def roSys (s : State) (m : Nat) : Nat :=
  match m with
  | 0 => 0x36400A01
  | 1 => Config.uniqueId % 2 ^ 64
  | 2 => imageVer s 0
  | 3 => imageVer s 1
  | 4 => imageVer s 2
  | 5 => s.up.rollback
  | 6 => s.pr.commitSeq
  | 7 => s.pr.pending.length
  | 8 => secsSince s s.pw.startClk
  | 9 => s.lk.cmdAccepted
  | 10 => s.lk.cmdRefused
  | 11 => s.lk.lastRefused
  | _ => 0

/-- FE members (Tables 3-3 and 5-8). -/
def roFe (s : State) (m : Nat) : Nat :=
  match m with
  | 0 => flagAt s.pw.refsel 0
  | 2 => ofSigned 32 s.ref.dev
  | 5 => refStatus s
  | 10 => pcActive s
  | 11 => seqState s
  | n => if 12 ≤ n && n ≤ 15 then (s.seq (n - 12)).overrun else 0

/-- QUEUE members (Table 7-15). -/
def roQueue (s : State) (m : Nat) : Nat :=
  match m with
  | 3 => queueRate (parCommitted s 0x2000) (parCommitted s 0x2001) (parCommitted s 0x2002)
  | 4 => s.qu.level
  | 5 => s.qu.dropped
  | 6 => queueState s
  | 7 => s.qu.peak
  | _ => 0

/-- PMU members (Table 10-12). -/
def roPmu (s : State) (m : Nat) : Nat :=
  match m with
  | 16 => s.pm.cfgCnt
  | 17 => pmuStatus s
  | 18 => s.pm.sent
  | 19 => s.pm.skipped
  | 20 => s.pm.cmdReceived
  | 21 => s.pm.cmdIgnored
  | 22 => s.pm.freqA
  | 23 => s.pm.rocofA
  | 24 => s.pm.freqB
  | 25 => s.pm.rocofB
  | _ => 0

/-- TIME members (Table 11-14). -/
def roTime (s : State) (m : Nat) : Nat :=
  match m with
  | 2 => s.te.servo.code
  | 16 => ofSigned 32 s.te.offsetNs
  | 17 => ofSigned 32 s.te.r
  | 18 => teEst s
  | 19 => nsField s s.te.align
  | 20 => timeStatus s
  | 21 => s.te.gm % 2 ^ 64
  | 22 => ofSigned 32 s.te.refusedUs
  | 23 => s.te.stepsRefused
  | 24 => s.te.stepsAccepted
  | 25 => s.te.txLostInt
  | 26 => s.te.txLostHost
  | 28 => ofSigned 32 s.te.lastLocked
  | _ => 0

/-- RTC members (Table 16-7). -/
def roRtc (s : State) (m : Nat) : Nat :=
  match m with
  | 0 => rtcStatus s
  | 2 => ofSigned 16 s.rtc.trimLearned
  | 4 => ofSigned 32 s.rtc.errorUs
  | 6 => s.rtc.steps
  | _ => 0

/-- NV members (Table 15-11). -/
def roNv (s : State) (m : Nat) : Nat :=
  match m with
  | 3 => nvFlags s
  | 4 => s.hw.scrubPos * 10000 / storeWords
  | 5 => s.hw.scrubPasses
  | 6 => s.hw.refreshed
  | 7 => s.hw.eccCorrected
  | 8 => s.hw.eccUncorrectable
  | 9 => s.hw.twins
  | 10 => s.hw.repairs
  | 11 => s.hw.tornList.length
  | 12 => (s.hw.ledger.map (·.2)).getD 0
  | 13 => s.hw.ckptUs
  | _ => 0

/-- TAMPER members (Table 17-11). -/
def roTamper (s : State) (m : Nat) : Nat :=
  match m with
  | 0 => ladder s
  | 1 => slotBits s (·.active)
  | 2 => slotBits s (·.latched)
  | 7 => keyState s
  | 8 => s.tp.clearings
  | 9 => s.tp.vbatEntries
  | 10 => s.tp.vbatOverflow
  | 11 => s.tp.injectFails
  | 12 => s.tp.trngFails
  | _ => 0

/-- NET members (Table 12-6). -/
def roNet (s : State) (m : Nat) : Nat :=
  match m with
  | 2 => macAddr
  | 22 => ringStatus s
  | 23 => s.nt.dupDiscarded
  | 24 => s.nt.dupPassed
  | 25 => s.nt.reserveHeld
  | 26 => s.nt.cmdWrongNode
  | 27 => s.nt.rxLost
  | _ => 0

/-- HMI members (Table 20-8). -/
def roHmi (s : State) (m : Nat) : Nat :=
  match m with
  | 8 => displayState s
  | 9 => (s.hm.layout.map (·.1)).getD 0
  | 10 => consoleState s
  | 11 => s.hm.keyEvents
  | 12 => s.hm.attaches
  | _ => 0

/-- POWER members (Table 19-7). -/
def roPower (s : State) (m : Nat) : Nat :=
  match m with
  | 3 => powerState s
  | 4 => s.pw.pfailCount
  | 5 => s.pw.pfailLastUs
  | 6 => s.pw.lastHoldupUs
  | 7 => s.pw.restartDelayMs
  | 8 => buckStatus s
  | 9 => s.pw.pInMw
  | _ => 0

/-- Seconds left in the trial of 60 s (R423, TRIAL_REMAIN_S). -/
def trialRemain (s : State) : Nat := if s.up.st == 5 then 60 - secsSince s s.up.trialClk else 0

/-- WARDEN members (Table 18-13). -/
def roWarden (s : State) (m : Nat) : Nat :=
  match m with
  | 3 => s.wd.health
  | 4 => s.wd.buffer.length
  | 5 => s.wd.lost
  | 6 => s.up.st
  | 7 => updateKind s
  | 8 => trialRemain s
  | 9 => banksWord s
  | 10 => s.wd.canopyRestarts
  | 11 => s.wd.dspReloads
  | 12 => s.wd.wardenRestarts
  | 13 => transplantState s
  | _ => 0

/-- SPARE members of a stand (Table 4-9). -/
def roSpare (s : State) (k m : Nat) : Nat :=
  let d := s.stand k
  match m with
  | 0 => d.st
  | 1 => d.slot
  | 2 => d.phase
  | 3 => d.spareChan
  | 4 => d.pinChan
  | 5 => d.condemned
  | 9 => ofSigned 32 (s.conv (36 + k)).trim.off
  | 10 => (s.conv (36 + k)).trim.gain
  | 11 => (s.conv (36 + k)).trim.code
  | 12 => d.splices
  | 13 => d.skipped
  | 14 => d.xcheckFails
  | 15 => d.lastInl
  | _ => 0

/-- CIRC_ENERGY members of a circuit (Table 8-15). -/
def roCircEnergy (s : State) (c m : Nat) : Nat :=
  let r := s.me.circRun.getD c CircRun.reset
  let f := s.me.regCircF.getD c (Regs.zero 12)
  let p := s.me.regCircP.getD c (Regs.zero 2)
  if m < 12 then f.e.getD m 0 / 2 ^ 32
  else match m with
    | 12 => f.status
    | 13 => r.pW
    | 14 => r.qVar
    | 15 => r.sVa
    | 16 => r.pf
    | 17 => r.demand.getD 0 0
    | 18 => r.demand.getD 1 0
    | 19 => r.demand.getD 2 0
    | 20 => r.demand.getD 3 0
    | 21 => r.maxP
    | 22 => r.maxPTime
    | 23 => r.maxS
    | 24 => r.maxSTime
    | 25 => p.e.getD 0 0 / 2 ^ 32
    | 26 => p.e.getD 1 0 / 2 ^ 32
    | 27 => r.xFails
    | 28 => r.xSkipped
    | _ => 0

/-- CIRC_PQ members of a circuit (Table 9-15). -/
def roCircPq (s : State) (c m : Nat) : Nat :=
  match m with
  | 0 => s.pq.unb2.getD c 0
  | 1 => s.pq.unb0.getD c 0
  | 2 => s.pq.ithd.getD c 0
  | 3 => s.pq.inRms.getD c 0
  | 5 => s.pq.tdd.getD c 0
  | 6 => s.pq.status.getD c 0
  | _ => 0

/-- BLAZE members of an output (Table 11-15). -/
def roBlaze (s : State) (k m : Nat) : Nat :=
  let b := s.blaze k
  match m with
  | 0 => blazeStatus b
  | 1 => time80 b.start
  | 2 => b.period
  | 3 => b.width
  | 4 => b.count
  | 5 => b.edges
  | 6 => time80 b.next
  | _ => 0

/-- NOTCH members of an input (Table 11-16). -/
def roNotch (s : State) (k m : Nat) : Nat :=
  let n := s.notch k
  match m with
  | 3 => n.fifo.length
  | 4 => n.lost
  | 5 => notchStatus n
  | 6 => n.count
  | _ => 0

/-- ALARM members of an alarm (Table 16-8). -/
def roAlarm (s : State) (k m : Nat) : Nat :=
  let a := s.alarm k
  match m with
  | 3 => alarmStatus a
  | 5 => a.last
  | 6 => a.count
  | 7 => a.missedCount
  | _ => 0

/-- TAMPER_SRC members of a slot (Table 17-12). -/
def roSrc (s : State) (k m : Nat) : Nat :=
  match m with
  | 1 => slotFloors.getD k 0
  | 2 => srcState s k
  | 3 => (s.slot k).count
  | 4 => (s.slot k).last
  | _ => 0

/-- PORT members of a port (Table 12-7). -/
def roPort (s : State) (k m : Nat) : Nat :=
  let p := s.nt.ports.getD k Port.reset
  match m with
  | 1 => p.link
  | 2 => latency s k 2
  | 3 => latency s k 3
  | 5 => match p.peerDelay with
    | some d => satN 0xFFFFFFFE (quant s 900 ((d : Rat) / 65536)).toNat
    | none => 0xFFFFFFFF
  | 6 => p.linkDowns
  | 7 => p.rxFrames
  | 8 => p.txFrames
  | 9 => p.rxErrors
  | 10 => p.sqi
  | _ => 0

/-- PARTITION members of a partition (Table 15-12). -/
def roPart (s : State) (k m : Nat) : Nat :=
  match m with
  | 0 => partFirst k
  | 1 => partPages k
  | n =>
    if k == 0 then 0
    else match n with
      | 2 => pwState s k
      | 3 => sessionsWord s k
      | 4 => (lockOf s k).authFails
      | 5 => (lockOf s k).lockS - secsSince s (lockOf s k).lockClk
      | 6 => if k == 5 then s.hw.hostWrites else 0
      | _ => 0

/-- The present value of a read-only member. -/
def roValue (s : State) (id : Nat) : Nat :=
  let i := pInst id
  let m := pMem id
  match pFam id with
  | 1 => roSys s m
  | 2 => if m == 12 then metroStatus s else 0
  | 3 => roFe s m
  | 4 => roQueue s m
  | 5 =>
    let b := m / 16
    if m % 16 == 14 then (s.pq.buses.getD b PqBus.reset).freq else busStatus s b
  | 6 => roPmu s m
  | 7 => roTime s m
  | 8 => roRtc s m
  | 9 => roNv s m
  | 10 => roTamper s m
  | 11 => roNet s m
  | 12 => roHmi s m
  | 13 => roPower s m
  | 14 => roWarden s m
  | 15 => if m == 0 then tdacState s else if m == 1 then forceState s else parReset s id
  | 17 => if m == 1 then ofSigned 32 (s.conv i).trim.off else (s.conv i).trim.gain
  | 18 =>
    if m == 14 then filterWord (s.filt i)
    else match (s.chan i).latch[m]? with
      | some v => v
      | none => parReset s id
  | 19 => roSpare s i m
  | 20 => if m == 3 then circOfElem s i else (s.me.elemRun.getD i ElemRun.reset).estBlocks
  | 22 => roCircEnergy s i m
  | 23 => roCircPq s i m
  | 24 => roBlaze s i m
  | 25 => roNotch s i m
  | 26 => if m == 6 then cfStatus s i else (s.me.cfs.getD i Cf.reset).count
  | 27 => roAlarm s i m
  | 28 => roSrc s i m
  | 29 => roPort s i m
  | 30 => roPart s i m
  | _ => 0

/-- The reset of a member is stored (From P0, OTP or Ledger, an image or the flash), so that WHICH 3 returns the stored value
(R333). -/
def Rst.stored : Rst → Bool
  | .otp => true
  | .held => true
  | .p0 _ => true
  | .pioneer => true
  | _ => false

/-- The value of a member of a kind, or the status that refuses it (R333). Registers of the ledger are read-only members whose
stored value is the present one (R202, R364). -/
def readMember (s : State) (id which : Nat) : Status × Nat :=
  match memberOf id with
  | none => (.badParamId, 0)
  | some d =>
    if 3 < which then (.valueRange, 0)
    else match d.acc with
      | .wo => (.ok, 0)
      | .ro =>
        if which == 2 then (.valueRange, 0)
        else if which == 3 && !d.rst.stored then (.ok, parReset s id)
        else (.ok, roValue s id)
      | _ =>
        if which == 0 then (.ok, par s id)
        else if which == 1 then (.ok, parNext s id)
        else if which == 2 || d.rst.stored then (.ok, parCommitted s id)
        else (.ok, parDefault s id)

/-! ### Snap window (R316 to R318, Table 13-11) -/

/-- The Warden's words of the snap window: they read 0 at stage 1, where the Warden does not run yet (R41, R316). -/
def wardenWord (a : Nat) : Bool := a == 0x6A || a == 0x6B || (0x70 ≤ a && a ≤ 0x7A)

/-- The time group at a counter value. -/
def timeWord (cnt a : Nat) : Nat :=
  if a == 0x10 then secOf cnt % 2 ^ 32
  else if a == 0x11 then secOf cnt / 2 ^ 32
  else if a == 0x12 then nsOf cnt
  else cnt % 65536

/-- The calendar group at a reading. -/
def calWord (c : Cal) (a : Nat) : Nat :=
  match a with
  | 0x18 => c.sub
  | 0x19 => c.sec
  | 0x1A => c.min
  | 0x1B => c.hour
  | 0x1C => c.day
  | 0x1D => c.month
  | _ => 2000 + c.year

/-- The latches in force: each is released 2 ms after latching (R317). -/
def timeLatched (s : State) : Option Nat := if s.after s.lk.timeLatchClk (2 * cycMs) then none else s.lk.timeLatch
def calLatched (s : State) : Option Cal := if s.after s.lk.calLatchClk (2 * cycMs) then none else s.lk.calLatch

/-- The present value of a snap word outside the latched groups. -/
def snapWord (s : State) (a : Nat) : Nat :=
  if s.pw.stage == 1 && (wardenWord a || a == 0x3D || a == 0x6E || a == 0x6F || (0x66 ≤ a && a ≤ 0x69)) then 0
  else if 0x20 ≤ a && a ≤ 0x3B then s.lk.snapP.getD (a - 0x20) 0
  else if 0x40 ≤ a && a ≤ 0x63 then roValue s (pid 18 (a - 0x40) 18)
  else if 0x70 ≤ a && a ≤ 0x73 then s.pw.temps.getD (a - 0x70) 0
  else if 0x74 ≤ a && a ≤ 0x79 then s.pw.supplies.getD (a - 0x74) 0
  else if 0x80 ≤ a && a ≤ 0x9B then s.lk.snapQ.getD (a - 0x80) 0
  else if 0xA0 ≤ a && a ≤ 0xBB then s.lk.snapS.getD (a - 0xA0) 0
  else if 0xC0 ≤ a && a ≤ 0xDF then s.lk.scratch.getD (a - 0xC0) 0
  else if 0x10 ≤ a && a ≤ 0x13 then timeWord ((timeLatched s).getD s.now) a
  else if 0x18 ≤ a && a ≤ 0x1E then calWord ((calLatched s).getD s.rtc.cal) a
  else match a with
    | 0x00 => 0x36400A01
    | 0x01 => statusWord s
    | 0x02 => irqStatus s
    | 0x03 => s.lk.irqMask
    | 0x04 => stageWord s
    | 0x05 => laneStatus s
    | 0x06 => hushWord s
    | 0x07 => directLogWord s
    | 0x08 => s.lk.rxDropped
    | 0x09 => s.lk.frameErrors
    | 0x0A => hostInfo s
    | 0x14 => servoWord s
    | 0x15 => teEst s
    | 0x16 => ofSigned 32 s.te.offsetNs
    | 0x1F => calWeekday s.rtc.cal
    | 0x3C => s.lk.blockSeq
    | 0x3D => s.lk.estimatedMap
    | 0x64 => roValue s 0x280E
    | 0x65 => roValue s 0x281E
    | 0x66 => s.qu.level
    | 0x67 => queueState s
    | 0x68 => s.qu.dropped
    | 0x69 => metroStatus s
    | 0x6A => ladder s
    | 0x6B => slotBits s (·.active)
    | 0x6C => refStatus s
    | 0x6D => ringStatus s
    | 0x6E => spareStates s
    | 0x6F => pcActive s
    | 0x7A => s.wd.logSeq
    | 0xFF => 0x5AA5C33C
    | _ => 0

/-- Fields of IDENTIFY after STATUS (Table 14-5). -/
def identifyBytes (s : State) : List Byte :=
  le 2 s.nt.node ++ le 4 0x36400A01 ++ uidBytes ++ le 6 macAddr ++ zeros 2 ++ le 4 (stageWord s) ++
  le 4 (imageVer s 0) ++ le 4 (imageVer s 1) ++ le 4 (imageVer s 2) ++ le 1 s.up.rollback ++ zeros 3 ++ le 4 s.pr.commitSeq

end Sys2Proof.Machine
end

