-- ==== Sys2Proof/Machine/WardenOps.lean ====
section
/-! DEFINITION. Shared operations of starts and restarts: Canopy stopping (R25, R48, R55, R412), the DSP kernels starting (R39, R40,
R83) or being reloaded (R411), power-quality tables reloading, and the Warden restarting (R426). -/

namespace Sys2Proof.Machine

/-! ### Canopy -/

/-- Wait before the next unplanned restart, s, by the unplanned restarts already counted (R412). -/
def backoffFor (n : Nat) : Option Nat :=
  if 9 ≤ n then some 60 else if 6 ≤ n then some 10 else if 3 ≤ n then some 1 else none

/-- The unplanned restarts that count: none once ten minutes have passed without one (R412). -/
def unplannedNow (s : State) : Nat := if s.after s.wd.unplannedClk (600 * cycS) then 0 else s.wd.unplanned

/-- Canopy stops at a block boundary: accounting passes to Pioneer (R48), the servo holds over on its last rate (Table 1-8), the
stage falls to 2 (R26), aggregation pauses (R55), and Canopy's firmware state is lost: messages not yet whole, uncommitted values of
its families, a commit not yet carried out, and what its PTP stack and its broadcast replies held (R24). `cause` and `reason` are those of CANOPY_RESTART (Table 18-4). -/
def State.canopyStop (s : State) (cause reason : Nat) : State :=
  if !s.wd.canopyRunning then
    s.onWd fun w =>
      { w with stopCause := (cause, reason), restartReq := none, restartUnplanned := false,
               canopyRestarts := if cause == 3 then u32 (w.canopyRestarts + 1) else w.canopyRestarts }
  else
    let s1 := if s.pw.acct then
        (s.onPw fun p => { p with acct := false, handoverCause := 1 }).log 0x0202 (le 1 0 ++ le 1 1)
      else s
    let s2 := s1.onWd fun w =>
      { w with canopyRunning := false, stopCause := (cause, reason), stopClk := s.clk, restartReq := none,
               restartUnplanned := false, canopyRestarts := u32 (w.canopyRestarts + 1),
               unplanned := if cause == 2 then unplannedNow s + 1 else w.unplanned,
               unplannedClk := if cause == 2 then s.clk else w.unplannedClk,
               backoff := if cause == 2 then backoffFor (unplannedNow s) else none }
    let s3 := (s2.onPw fun p => { p with handoverPending := false }).enterStage 2
    let s4 := if s.te.servo == .acquire || s.te.servo == .locked then s3.servoTo .holdover (s.te.offsetNs * 65536) else s3
    let s5 := (s4.onPr fun p => { p with committing := none }).onNt fun n =>
      { n with master := none, foreign := [], neigh := [], idents := [],
               ports := n.ports.map fun p =>
                 { p with peerAsk := false, resp := none, syncWait := none, peerRun := if p.peerDelay.isSome then p.peerRun else 0 } }
    (((s5.onPq fun q => { q with agg := false, aggWait := false }).onLk fun l => { l with frag := [] }).dropPending .canopy)

/-! ### Power-quality kernels -/

/-- The kernels of the power-quality engine start: windows and intervals begin with the next sample, at NOMINAL_HZ (R53, R206).
-/
def State.pqFresh (s : State) : State :=
  s.pqSync.onPq fun q =>
    { q with startClk := s.clk, tenClk := s.clk, supraDue := [],
             buses := q.buses.map fun b =>
               { b with half := [[], [], []], rvcArmed := false, sliding := none, slidingPrev := none, freqNominal := true,
                        f1 := nominalHz s, win := none, old := none, lastStart := 0, lastEnd := 0, halfN := none, refY := 0,
                        crosses := [], aggN := 0, aggFresh := true, aggDue := none, aggPars := none, flick := List.replicate 3 [],
                        pstOr := [0, 0, 0], pstPlace := 0, pstClk := s.clk, pstFresh := true, spans := [], mark10s := 0, mark200 := 0, fresh10s := true } }

/-- The power-quality tables are reloaded: every window and interval starts fresh, with HISTORY_INCOMPLETE (R218, Table 1-8),
and the engine's uncommitted values are lost (R24). -/
def State.pqReload (s : State) : State :=
  ((s.dropPending .pq).pqBegin none).pqFresh.onPq fun q =>
    { q with agg := s.pq.agg, aggWait := s.pq.aggWait,
             buses := q.buses.map fun b =>
               { b with win := if s.wave.isEmpty then none else some ⟨((waveN s + 1 : Nat) : Rat), nominalHz s, 2, none⟩,
                        halfN := if s.wave.isEmpty then none else some (((waveN s + 1 : Nat) : Rat) + 12500 / nominalHz s),
                        start10 := ((waveN s + 1 : Nat) : Rat), pstPlace := ((waveN s + 1 : Nat) : Rat), mark10s := 2, mark200 := 2 } }

/-! ### The DSP kernels (R39, R40, R83) -/

/-- Trims of the factory record in every converter (R36, R421). -/
def State.factoryTrims (s : State) : State :=
  { s with convs := s.convs.mapIdx fun v x =>
      { x with trim := ⟨factoryVal s 0 v, (factoryVal s 1 v).toNat % 2 ^ 32, restCode s v, []⟩ } }

/-- A committed bank A set at the DSP start (R40); a reload leaves the banks as they stand (R411): without taps it counts as loaded; with taps it waits for the channel's slot,
and in a DEGRADED stand it is loaded visibly. -/
def State.filterInit (s : State) (c : Nat) : State :=
  match (if s.wd.dspReloadWait then none else s.hw.p2Sets.lookup c) with
  | none => s
  | some bs =>
    let b := coefSet bs
    if b.taps.isEmpty then
      (s.onFilt c fun f => { f with bankA := b, owed := false }).onInsts c fun x =>
        if x.stA.length == b.biquads.length then x else { x with stA := zeroStates b.biquads.length }
    else if (s.stand (standOf c)).st == 3 then
      ((s.onFilt c fun f => { f with stopped := true }).writeBankA c b false).filterStart c
    else s.onFilt c fun f => { f with load := some (b, false), owed := true }

/-- Length of a slot in counter units (R81: 6.4 s). -/
def slotTicks : Nat := 419430400000000

/-- Slot of a stand that its cycle is in (R81). -/
def slotNow (s : State) (k : Nat) : Nat := (pInstant s + (64 - 16 * k) * tickSec) % (64 * tickSec) / slotTicks

/-- What `standStart` does but for converters that are STUCK. The coppice starts on a stand (R83): the spare shadows the channel
of the next slot, or serves a channel whose home converter is condemned (R99); a channel without a converter is lost (R100). -/
def State.standJoin (s : State) (k : Nat) : State :=
  let d := s.stand k
  let s1 := s.onStand k fun x =>
    { x with slot := slotNow s k, skip := false, runOn := false, pauseReq := false, pinReq := none, pinChan := 0xFF,
             requal := none, stored := false, old := none, dac := 8,
             n := (pInstant s + (64 - 16 * k) * tickSec) % slotTicks / pTick, pairs := [], again := false, requalBack := false, probe := [] }
  if d.condemned == 0 then
    (s1.onStand k fun x => { x with st := 0, phase := 5 }).shadowFor k (nextSlot (s1.stand k))
  else
    let s2 := s1.onStand k fun x => { x with st := 3 }
    let bad := (standChans k).filter (condemned s)
    if bitAt d.condemned 9 then
      bad.foldl State.loseChan (s2.onStand k fun x => { x with spareChan := 0xFF, carrying := false, phase := 5 })
    else
      let c := if d.assign < 36 then d.assign else bad.headD 0xFF
      (bad.filter (· != c)).foldl State.loseChan
        (if d.carrying && d.spareChan == c then s2.onStand k fun x => { x with phase := 6 } else s2.takeover k c)

/-- The coppice starts on a stand; a converter that has shown STUCK before is condemned now (R78, R96). -/
def State.standStart (s : State) (k : Nat) : State :=
  ((List.range 9).map (slotChan k) ++ [36 + k]).foldl (fun x v => if (x.conv v).stuck then x.condemn v 1 else x) (s.standJoin k)

/-- The DSP microcode starts: energy, power-quality and phasor kernels, full shaping filters and coppice (R39). B1 is the first
block boundary after it (R44). A baseline that REF_REBASE has set with REF_A primary is not kept: the OTP ratio counts again
(assumption 74). -/
def State.kernelsStart (s : State) : State :=
  let s1 := if s.hw.pioSeq.isNone then s.factoryTrims else s
  let s2 := (List.range 4).foldl State.standStart s1
  let s3 := (List.range 36).foldl State.filterInit s2
  let s4 := (s3.onMe fun m => { m with kernels := true, fromB1 := false }).onPw fun p => { p with shadow := .waiting }
  let s5 := s4.onRef fun r =>
    { r with live := true,
             baseline := if s.pw.refsel then r.stored else some (factoryVal s 2 0).toNat }
  let s6 := ({ s5 with wave := [] }).pqFresh.onPq fun q => { q with running := true }
  let s7 := s6.onPm fun p =>
    { p with running := true, histIncomplete := true, startN := 0, old := [], gapFrom := if p.on then p.lastReported else none }
  s7.onWd fun w =>
    { w with dspRunning := true, missedFrames := 0 }

/-- Where a complete ledger copy lies, what R54 compares: its instant, TIME_SOURCE and UTC offset, and OSF. -/
def resumeOf (s : State) (b : Bool) : Nat × Nat × Int × Bool :=
  let a := ledgerBase b
  (ofTime80 (peekVal s (a + 16) 10), peekVal s (a + 12) 1, toSigned 16 (peekVal s (a + 34) 2), s.rtc.osf)

/-- A stand whose microcode restarts: a check is aborted, and the home pair in its rest comes back with its old trims and
unsettled samples (R411). -/
def State.standAbort (s : State) (k : Nat) : State :=
  let s1 := s.abortCheck k
  let s3 := (s1.abortSpareRest k).recallHome k
  match (s1.stand k).requal with
  | some v => s3.unsettle v
  | none => s3

/-- A full shaping filter starts again: loads and swaps are given up, and bank A runs with cleared states. Both banks keep their sets,
which last until power-down (R411, R146, R147), a committed set that still waits for its slot goes on waiting, and an unsettled count that runs longer goes on (R151). -/
def State.filterReload (s : State) (c : Nat) : State :=
  let s1 := if (s.filt c).owed then s.onFilt c fun f => { f with load := f.load <|> f.loading, loading := none }
    else (s.cancelLoad c).cancelLoading c
  let s2 := match (s.filt c).swap with
    | none => s1
    | some w => s1.log 0x0307 (le 1 c ++ zeros 3 ++ le 4 (bankId (s.filt c) w.toB))
  let q := bqSettle s c
  (s2.onFilt c fun f =>
    { f with stopped := false, actB := false, swap := none, held := none, change := true,
             uns := Nat.max f.uns (68 + f.bankA.taps.length + q) }).onInsts c fun _ =>
      ⟨[], zeroStates (s.filt c).bankA.biquads.length, [], []⟩

/-- A DSP reload (R411): the same bank, or the other one when a second expiry falls within 60 s of the first; kernels, filters
and coppice start again, the engine's uncommitted values are lost (R24), and accounting goes to Pioneer at the next boundary and
comes back by R44 and R45. -/
def State.dspReload (s : State) : State :=
  let again := s.wd.dspExpiryClk.any (fun c => s.clk ≤ c + 60 * 128000000)
  let other := inactiveOf s 2
  let s1 := if again && regionRuns s (region s 2 other) then s.runRegion 2 other else s
  let s2 := (List.range 36).foldl State.filterReload s1
  let s3 := (List.range 4).foldl State.standAbort s2
  let s4 := s3.onWd fun w =>
    { w with dspReloads := u32 (w.dspReloads + 1), dspExpiryClk := some s.clk, dspReloadWait := true }
  let s5 := (s4.onPw fun p => { p with startGap := 0 }).onHw fun h =>
    { h with resume := (lastCheckpoint s).map (fun e => resumeOf s e.1) }
  (s5.dropPending .dsp).kernelsStart

/-! ### The Warden (R426) -/

/-- The Warden restarts: sessions close, session keys are lost, the calendar stops following, an update before TRIAL is
abandoned (R424), and its firmware state is lost (R24): uncommitted values, messages not yet whole, readings and HEALTH, the counts and
waits of its supervision, and the packages and the import that its RAM holds (R428). A Canopy restart already due stays due
(assumption 114). `cause` is that of WARDEN_RESTART. -/
def State.wardenStop (s : State) (cause : Nat) : State :=
  let s1 := s.onWd fun w =>
    { w with running := false, wardenCause := cause, wardenClk := s.clk, wardenRestarts := u32 (w.wardenRestarts + 1),
             sensorRun := Warden.reset.sensorRun, sensorClk := Warden.reset.sensorClk, health := 0, unplanned := 0,
             unplannedClk := 0, backoff := none, dspExpiryClk := none, missedFrames := 0 }
  let s2 := (s1.dropSessions fun _ => true).onTp fun t => { t with keys := [] }
  let s3 := (s2.stopFollowing.abandonUpdate).onTx fun t => { t with prepare := none, package := none, importBody := none }
  ((s3.onLk fun l => { l with frag := [] }).onPr fun p => { p with committing := none }).dropPending .warden

/-- Switch a kind to its other region and let it run: Canopy and the Warden restart, microcode is swapped at the frame boundary,
tables are reloaded (R422, R425). -/
def State.switchKind (s : State) (k cause wardenCause : Nat) : State :=
  let s1 := s.runRegion k (inactiveOf s k)
  if k == 0 then s1.canopyStop cause 0 else if k == 1 then s1.wardenStop wardenCause else if k == 3 then s1.pqReload
  else s1.dropPending .dsp

end Sys2Proof.Machine
end

