-- ==== Sys2Proof/Machine/Warden.lean ====
section
/-! DEFINITION. The Warden's events and its log: watchdogs, restarts, sensors, the log client and LOG_READ (R410 to R417, R426). -/

namespace Sys2Proof.Machine

/-! ### Watchdogs (R410 to R412) -/

/-- A WATCHDOG entry (Table 18-4). The spec gives no code for the action: a free byte. -/
def State.watchdogLog (s : State) (watched : Nat) : State :=
  (s.log 0x0E01 (le 1 watched ++ le 1 (Config.freeNat s.free))).drew 1

/-- R410, Table 18-8. An unplanned restart follows at the next block boundary. -/
def execCanopyWatchdog (core : Fin 2) (s : State) : Host.Outcome State Fault Refusal :=
  if s.wd.running && s.wd.canopyRunning then
    .next ((((s.watchdogLog core).tamperPulse 25).onWd fun w => { w with restartUnplanned := true }).trialFail 0)
  else .next s

/-- R410, R411, Table 18-8. -/
def execDspWatchdog (s : State) : Host.Outcome State Fault Refusal :=
  if s.wd.running && s.me.kernels then
    .next ((((s.watchdogLog 2).tamperPulse 25).trialFail 2).dspReload)
  else .next s

/-- R410, R426, Table 18-8. The Warden timer raises no tamper source. -/
def execWardenWatchdog (s : State) : Host.Outcome State Fault Refusal :=
  if s.wd.running then .next (((s.watchdogLog 3).trialFail 1).wardenStop 1) else .next s

/-- R426. A heartbeat later than 150 ms no longer counts: the boot ROM takes the previous region. -/
def execWardenRestartComplete (s : State) : Host.Outcome State Fault Refusal :=
  if s.wd.running || s.pw.stage < 2 || decide (s.wd.wardenClk + 150 * cycMs < s.clk) then .next s
  else
    .next ((s.onWd fun w => { w with running := true }).log 0x010B
      (le 1 s.wd.wardenCause ++ zeros 1 ++ le 2 (satN 65535 (msSince s s.wd.wardenClk))))

/-- R426, Table 18-8. No heartbeat within 150 ms: the boot ROM runs the previous region, where that one may run; a trial fails
with it and is reverted at once. -/
def execWardenHeartbeatTimeout (s : State) : Host.Outcome State Fault Refusal :=
  if s.wd.running || s.pw.stage < 2 || !s.after s.wd.wardenClk (150 * cycMs) then .next s
  else
    let s1 := s.trialFail 1
    let other := inactiveOf s 1
    let s2 := if regionRuns s1 (region s1 1 other) then s1.runRegion 1 other else s1
    let s3 := s2.onWd fun w =>
      { w with wardenCause := 2, wardenClk := s.clk, wardenRestarts := u32 (w.wardenRestarts + 1) }
    match s1.up.revert with
    | some c => if hdrKind s.up.header == 1 then .next ((s3.updLog 0x0E05 s.up.header other c).updIdle) else .next s3
    | none => .next s3

/-- R25, R334, R412. At a block boundary Canopy stops for the restart that was asked for, or for the watchdog's. -/
def execCanopyRestart (s : State) : Host.Outcome State Fault Refusal :=
  if !s.wd.canopyRunning || !atBlock s then .next s
  else if s.wd.restartUnplanned then .next (s.canopyStop 2 0)
  else match s.wd.restartReq with
    | some r => .next (s.canopyStop 0 r)
    | none => .next s

/-- R412. The wait before the restart is over. -/
def execCanopyBackoffExpiry (s : State) : Host.Outcome State Fault Refusal :=
  .next (if s.wd.backoff.any (fun n => s.after s.wd.stopClk (n * cycS)) then s.onWd fun w => { w with backoff := none } else s)

/-- R412. Ten minutes have passed without an unplanned restart. -/
def execCanopyRestartCountReset (s : State) : Host.Outcome State Fault Refusal :=
  .next (if s.after s.wd.unplannedClk (600 * cycS) then s.onWd fun w => { w with unplanned := 0 } else s)

/-! ### Sensors (R413) -/

/-- Windows of SUPPLY0 to SUPPLY5, V (Table 18-2). -/
def supplyWindows : List (Rat × Rat) :=
  [(9 / 2, 40), (31 / 10, 7 / 2), (77 / 100, 83 / 100), (174 / 100, 186 / 100), (11 / 5, 18 / 5), (105 / 100, 135 / 100)]

/-- A reading outside its window: supplies 0 to 5 in V and temperatures 6 to 9 in °C as binary32, crystal amplitudes 10 and 11
in % of the production value (Table 18-2). -/
def sensorOutside (s : State) (sensor value : Nat) : Bool :=
  if sensor < 6 then
    let (lo, hi) := supplyWindows.getD sensor (0, 0)
    decide (ratOfF32 value < lo) || decide (hi < ratOfF32 value)
  else if sensor < 10 then decide (((parS s 16 0x7002 : Int) : Rat) < ratOfF32 value)
  else value < 50

/-- A reading of SUPPLY0 is the first of its 100 ms, in which the estimate of VAUX power is formed (Table 19-7). -/
def pInDue (s : State) : Bool := (s.wd.sensorClk.getD 0 none).all fun c => c / (100 * cycMs) != s.clk / (100 * cycMs)

/-- Keep a reading: supplies with the estimate of VAUX power, a free value (Table 19-7), and temperatures. A reading of VBAT below
2.0 V says that no cell is fitted any more, and one above it that one is (R436; assumption 102). -/
def State.keepReading (s : State) (sensor value : Nat) : State :=
  if sensor < 6 then
    (s.onPw fun p => { p with supplies := modAt p.supplies sensor fun _ => value,
                              pInMw := if sensor == 0 && pInDue s then Config.freeNat s.free % 65536 else p.pInMw,
                              vbat := if sensor == 4 then decide ((2 : Rat) ≤ ratOfF32 value) else p.vbat }).drew 1
  else if sensor < 10 then s.onPw fun p => { p with temps := modAt p.temps (sensor - 6) fun _ => value }
  else s

/-- Entry of a sensor that leaves or re-enters its window (Table 18-4). -/
def State.sensorLog (s : State) (sensor value : Nat) (outside : Bool) : State :=
  let o := le 1 (flagAt outside 0)
  if sensor < 6 then s.log 0x0D01 (o ++ le 1 sensor ++ zeros 2 ++ le 4 value)
  else if sensor < 10 then s.log 0x0D02 (o ++ le 1 (sensor - 6) ++ zeros 2 ++ le 4 value)
  else s.log 0x0D03 (o ++ le 1 (sensor - 10) ++ le 2 value)

/-- TIME cycles between two readings of a sensor (Table 13-11); the spec gives none for the crystals. -/
def samplePeriod (sensor : Nat) : Nat := if sensor < 6 then 10 * cycMs else if sensor < 10 then 100 * cycMs else 0

/-- R413. A reading comes at the rate of Table 13-11. Three consecutive readings on the other side of the window write an entry
and change HEALTH. -/
def execSensorSample (sensor : Fin 12) (value : Nat) (s : State) : Host.Outcome State Fault Refusal :=
  if !s.wd.running || (s.wd.sensorClk.getD sensor none).any (fun c => !s.after c (samplePeriod sensor)) then .next s
  else
    let s1 := (s.keepReading sensor (u32 value)).onWd fun w => { w with sensorClk := modAt w.sensorClk sensor fun _ => some s.clk }
    let out := sensorOutside s sensor (u32 value)
    if out == bitAt s.wd.health sensor then .next (s1.onWd fun w => { w with sensorRun := modAt w.sensorRun sensor fun _ => 0 })
    else if s.wd.sensorRun.getD sensor 0 < 2 then
      .next (s1.onWd fun w => { w with sensorRun := modAt w.sensorRun sensor fun n => n + 1 })
    else
      .next ((s1.onWd fun w =>
        { w with sensorRun := modAt w.sensorRun sensor fun _ => 0,
                 health := if out then setBit w.health sensor else clrBit w.health sensor }).sensorLog sensor (u32 value) out)

/-! ### The event log (R414 to R417) -/

/-- Write one entry to the ring with the next SEQ (R414). -/
def State.writeEntry (s : State) (e : LogEntry) : State :=
  let q := nextSeq s.wd.logSeq
  (s.wr (logAddr (logIndex q)) (logBytes q e (decide (e.clk + 128000000 < s.clk)))).onWd fun w => { w with logSeq := q }

/-- R414, R416. The log client writes the oldest entry; the first one after a discard is preceded by LOG_LOST. -/
def execLogEntryWrite (s : State) : Host.Outcome State Fault Refusal :=
  match s.wd.buffer with
  | [] => .next s
  | e :: r =>
    if !s.wd.running then .next s
    else
      let s1 := s.onWd fun w => { w with buffer := r, lostSince := 0 }
      let s2 := if s.wd.lostSince == 0 then s1
        else s1.writeEntry ⟨s.now80, 0x0108, fitBytes 14 (le 4 s.wd.lostSince), logFlags s false false false, s.clk⟩
      .next (s2.writeEntry e)

/-- Valid entries of the ring from a SEQ on, ascending (R417). -/
def logFrom (s : State) (fromSeq : Nat) : List (List Byte) :=
  ((List.range 4096).filterMap (fun i => logRead s ((logIndex (nextSeq s.wd.logSeq) + i) % 4096))).filter
    (fun b => fromSeq ≤ fieldAt b 0 4)

/-- LOG_READ reads the entries of a range of SEQs (R359). -/
def State.senseLog (s : State) (first last : Nat) : State :=
  (List.range (Nat.min 4096 (last + 1 - first))).foldl (fun x k => x.sense (logAddr (logIndex (first + k))) 32) s

def opLogRead : Op := { code := 0x0E01, minStage := 2, warden := true, fixed := 6 }

/-- R417, Table 18-5. With nothing to return NEXT_SEQ is FROM_SEQ, or for FROM_SEQ 0 the SEQ that comes next. -/
def execLogRead (h : Hdr) (fromSeq count : Nat) (s : State) : Host.Outcome State Fault Refusal :=
  .next (serve opLogRead h (h.len == 8) (fun _ => [(count == 0 || 32 < count, .valueRange)])
    (fun s =>
      let l := (logFrom s fromSeq).take count
      let next := match l.getLast? with
        | some b => nextSeq (fieldAt b 0 4)
        | none => if fromSeq == 0 then nextSeq s.wd.logSeq else fromSeq
      ⟨s.senseLog ((l.head?.map (fieldAt · 0 4)).getD 1) ((l.getLast?.map (fieldAt · 0 4)).getD 0), .ok,
       le 1 l.length ++ zeros 1 ++ le 4 next ++ l.flatten⟩) s)

end Sys2Proof.Machine
end

