-- ==== Sys2Proof/Machine/Hmi.lean ====
section
/-! DEFINITION. Display, keys, console and test outputs (chapter 20). -/

namespace Sys2Proof.Machine

/-! ### Display (R447, R451, R453) -/

/-- The display scrolls when its layout says so. -/
def scrolls (s : State) : Bool := layScroll (layoutOf s) != 0

/-- An item is in the scroll. -/
def inScroll (l : List Byte) (n : Nat) : Bool := bitAt (byteAt (layItem l n) 3).toNat 1

/-- The scrolled item after an item, if there is one. -/
def nextScrolled (s : State) : Option Nat :=
  let l := layoutOf s
  let n := layItems l
  ((List.range n).map (fun k => (s.hm.item + k + 1) % Nat.max 1 n)).find? (inScroll l)

/-- Show an item and hold it for HOLD_S. -/
def State.showItem (s : State) (n : Nat) : State :=
  s.onHm fun h => { h with item := n, held := true, scrolling := false, itemClk := s.clk }

/-- Scrolling resumes. -/
def State.resumeScroll (s : State) : State := s.onHm fun h => { h with held := false, scrolling := scrolls s, itemClk := s.clk }

/-- A segment test begins. -/
def State.segmentTest (s : State) : State := s.onHm fun h => { h with segTest := true, segClk := s.clk }

def opDisplay : Op := { code := 0x0C01, fixed := 6 }

/-- Reply of DISPLAY_CONTROL after STATUS. -/
def displayReply (s : State) : List Byte := zeros 2 ++ le 4 (displayState s)

/-- R451, Table 20-5. ITEM counts in ACTION 1 alone. -/
def execDisplayQuery (h : Hdr) (badAction : Bool) (item : Nat) (s : State) : Host.Outcome State Fault Refusal :=
  .next (serve opDisplay h (h.len == 4) (fun _ => [(badAction || 255 < item, .valueRange)])
    (fun s => ⟨s, .ok, displayReply s⟩) s)

/-- R451, Table 20-5. -/
def execDisplayShowItem (h : Hdr) (item : Nat) (s : State) : Host.Outcome State Fault Refusal :=
  .next (serve opDisplay h (h.len == 4) (fun s => [(layItems (layoutOf s) ≤ item, .valueRange)])
    (fun s => ⟨s.showItem item, .ok, displayReply (s.showItem item)⟩) s)

/-- R451, Table 20-5. -/
def execDisplayResumeScroll (h : Hdr) (item : Nat) (s : State) : Host.Outcome State Fault Refusal :=
  .next (serve opDisplay h (h.len == 4) (fun _ => [(255 < item, .valueRange)])
    (fun s => ⟨s.resumeScroll, .ok, displayReply s.resumeScroll⟩) s)

/-- R453, Table 20-5. -/
def execSegmentTest (h : Hdr) (item : Nat) (s : State) : Host.Outcome State Fault Refusal :=
  .next (serve opDisplay h (h.len == 4) (fun _ => [(255 < item, .valueRange)])
    (fun s => ⟨s.segmentTest, .ok, displayReply s.segmentTest⟩) s)

/-- R453. A segment test lasts 5 s. -/
def execSegmentTestEnd (s : State) : Host.Outcome State Fault Refusal :=
  .next (if s.after s.hm.segClk (5 * cycS) then s.onHm fun h => { h with segTest := false } else s)

/-- R451. Each scrolled item is shown for SCROLL_S. -/
def execDisplayScroll (s : State) : Host.Outcome State Fault Refusal :=
  if s.hm.scrolling && s.after s.hm.itemClk (layScroll (layoutOf s) * cycS) then
    match nextScrolled s with
    | some n => .next (s.onHm fun h => { h with item := n, itemClk := s.clk })
    | none => .next s
  else .next s

/-- R451. HOLD_S has passed without a key. -/
def execDisplayHoldExpiry (s : State) : Host.Outcome State Fault Refusal :=
  if s.hm.held && s.after s.hm.itemClk (layHold (layoutOf s) * cycS) then .next s.resumeScroll else .next s

/-! ### Keys (R452, R453) -/

/-- A key is enabled by KEY_MODE; the keys work from stage 1. -/
def keyOn (s : State) (k : Nat) : Bool := s.pw.stage != 0 && bitsAt (par s 0x6001) (2 * k) 2 != 0

/-- KEY_FUNC of a key: 1 NEXT, 2 PREV, 3 TEST, 4 HOST. -/
def keyFunc (s : State) (k : Nat) : Nat := bitsAt (par s 0x6002) (4 * k) 4

/-- A key event enters the FIFO of 16, or is discarded and counted; a hold of the display starts anew (R451). -/
def State.keyEvent (s : State) (k ev : Nat) : State :=
  s.onHm fun h0 =>
    let h := { h0 with itemClk := if h0.held then s.clk else h0.itemClk }
    if h.fifo.length < 16 then { h with keyEvents := u32 (h.keyEvents + 1), fifo := h.fifo ++ [⟨s.now80, k, ev⟩] }
    else { h with keyEvents := u32 (h.keyEvents + 1), lost := u32 (h.lost + 1) }

/-- NEXT or PREV acts: the item after or before the one shown. -/
def State.keyStep (s : State) (f : Nat) : State :=
  let n := Nat.max 1 (layItems (layoutOf s))
  (s.showItem (if f == 1 then (s.hm.item + 1) % n else (s.hm.item + n - 1) % n)).onHm fun h => { h with step := none }

/-- 20 ms in cycles of the model clock. -/
def keyWindow : Nat := 2560000

/-- A NEXT or PREV acts once 20 ms have passed without the other. -/
def State.keyTick (s : State) : State :=
  match s.hm.step with
  | some (f, c) => if c + keyWindow ≤ s.clk then s.keyStep f else s
  | none => s

/-- A press of NEXT or PREV: with the other one not yet acted on, neither acts. -/
def State.keyNextPrev (s : State) (f : Nat) : State :=
  match s.hm.step with
  | some (g, _) =>
    if g == f then (s.keyStep g).onHm fun h => { h with step := some (f, s.clk) }
    else s.onHm fun h => { h with step := none }
  | none => s.onHm fun h => { h with step := some (f, s.clk) }

/-- R452, R453. -/
def execKeyPress (key : Fin 8) (s : State) : Host.Outcome State Fault Refusal :=
  if !keyOn s key || s.hm.keys.getD key false then .next s
  else
    let s1 := (s.keyTick.onHm fun h =>
      { h with keys := modAt h.keys key fun _ => true, keyClk := modAt h.keyClk key fun _ => s.clk,
               longs := modAt h.longs key fun _ => false }).keyEvent key 0
    let f := keyFunc s key
    if s.hm.segTest || !(f == 1 || f == 2) then .next s1 else .next (s1.keyNextPrev f)

/-- R452, R453. -/
def execKeyRelease (key : Fin 8) (s : State) : Host.Outcome State Fault Refusal :=
  if !keyOn s key || !s.hm.keys.getD key false then .next s
  else .next ((s.onHm fun h => { h with keys := modAt h.keys key fun _ => false }).keyEvent key 1)

/-- R452, R453. A press held for 2 s is a long press, once. -/
def execKeyLongPress (key : Fin 8) (s : State) : Host.Outcome State Fault Refusal :=
  if !keyOn s key || !s.hm.keys.getD key false || s.hm.longs.getD key false || !s.after (s.hm.keyClk.getD key 0) (2 * cycS) then .next s
  else
    let s1 := (s.onHm fun h => { h with longs := modAt h.longs key fun _ => true }).keyEvent key 2
    if keyFunc s key == 3 && !s.hm.segTest then .next s1.segmentTest else .next s1

def opKeyRead : Op := { code := 0x0C02, fixed := 6 }

/-- Bytes of a key event (Table 20-5). -/
def keyBytes (e : KeyEvent) : List Byte := le 10 e.time ++ le 1 e.key ++ le 1 e.event

/-- Table 20-5. Events read leave the FIFO. -/
def execKeyRead (h : Hdr) (max : Nat) (s : State) : Host.Outcome State Fault Refusal :=
  .next (serve opKeyRead h (h.len == 4) (fun _ => [(max == 0 || 16 < max, .valueRange)])
    (fun s =>
      let l := s.hm.fifo.take max
      ⟨s.onHm fun m => { m with fifo := m.fifo.drop max }, .ok, le 1 l.length ++ zeros 1 ++ le 4 s.hm.lost ++ l.flatMap keyBytes⟩)
    s)

/-! ### Console (R455 to R458) -/

/-- CONSOLE_FLAGS lets a path be a console: the service UART is 1, the optical port 2. -/
def consoleOn (s : State) (p : Nat) : Bool := bitAt (par s 0x6007) (p - 1)

/-- The console is given to an attached path, the service UART first (R456). -/
def State.consoleClaim (s : State) : State :=
  if s.hm.owner != 0 || s.pw.stage < 2 then s
  else if s.hm.cable && consoleOn s 1 then s.onHm fun h => { h with owner := 1, ownerClk := s.clk }
  else if s.hm.probe && consoleOn s 2 then s.onHm fun h => { h with owner := 2, ownerClk := s.clk }
  else s

/-- R455, R456, R462. A path that attaches while the other owns the console receives BUSY; of two that attach in the same instant the
service UART wins. -/
def execConsoleAttach (optical : Bool) (s : State) : Host.Outcome State Fault Refusal :=
  let s0 := s.takeScheduled (fun id => effOf id == .attach)
  let s1 := s0.onHm fun h =>
    { h with probe := h.probe || optical, cable := h.cable || !optical, attaches := u32 (h.attaches + 1),
             suBaud := par s0 0x6006 }
  let p := if optical then 2 else 1
  if s.pw.stage == 0 then .next (s.onHm fun h => { h with probe := h.probe || optical, cable := h.cable || !optical })
  else if p == 1 && s.hm.owner == 2 && s.hm.ownerClk == s.clk && consoleOn s 1 then
    .next (s1.onHm fun h => { h with owner := 1, out := h.out ++ [ascii "BUSY"] })
  else if s.hm.owner != 0 && s.hm.owner != p && consoleOn s p then .next (s1.onHm fun h => { h with out := h.out ++ [ascii "BUSY"] })
  else .next s1.consoleClaim

/-- R456, R460. The console's sessions close, its forces end, and TDAC_OUT ends where the console set it. The other path, if it
is attached, owns the console from now on. -/
def execConsoleDetach (optical : Bool) (s : State) : Host.Outcome State Fault Refusal :=
  let s1 := s.onHm fun h => { h with probe := h.probe && !optical, cable := h.cable && optical }
  if s.hm.owner != (if optical then 2 else 1) then .next s1
  else
    let s2 := (s1.dropSessions fun x => x.path == .console).onHm fun h =>
      { h with owner := 0, forces := h.forces.filter (fun f => f.path != .console), tdacOn := h.tdacOn && !h.tdacConsole,
               tdacConsole := false, tdacCode := if h.tdacConsole then 0 else h.tdacCode }
    .next s2.consoleClaim

/-- The words of a line: its characters between spaces (R457). -/
def lineWords (bs : List Byte) : List (List Byte) :=
  (bs.foldr
    (fun (b : Byte) (a : List (List Byte)) => if b == 0x20 then [] :: a else match a with
      | [] => [[b]]
      | w :: r => (b :: w) :: r) [[]]).filter (fun w => !w.isEmpty)

/-- The value of a digit, decimal or hexadecimal. -/
def digitOf (b : Byte) : Option Nat :=
  let n := b.toNat
  if 48 ≤ n && n ≤ 57 then some (n - 48) else if 97 ≤ n && n ≤ 102 then some (n - 87)
  else if 65 ≤ n && n ≤ 70 then some (n - 55) else none

/-- A number in a base. -/
def numBase (base : Nat) (w : List Byte) : Option Nat :=
  if w.isEmpty then none
  else w.foldl (fun a b => a.bind fun n => (digitOf b).bind fun d => if d < base then some (n * base + d) else none) (some 0)

/-- A word as a number: decimal, or hexadecimal after 0x (R457). -/
def lineNum (w : List Byte) : Option Nat :=
  if w.take 2 == ascii "0x" then numBase 16 (w.drop 2) else numBase 10 w

/-- The status of a line for a command (R457, R323): its length, its first word, the stage, and its numbers, which `bad` judges. A
word that is no number, or one too many or too few, counts as out of range (assumption 127). -/
def lineStatus (s : State) (cmd : String) (x : LineIn) (minStage : Nat) (bad : List Nat → Bool) : Status :=
  let args := ((lineWords x.bytes).drop 1).map lineNum
  if x.overflowed || 80 < x.bytes.length then .badLength
  else if (lineWords x.bytes).head? != some (ascii cmd) then .unknownOpcode
  else if s.pw.stage < minStage then .notInStage
  else if args.any Option.isNone || bad (args.filterMap id) then .valueRange
  else .ok

/-- A line of the console that no opcode stands for: answered ERR with its status, or with the command's output and OK. The spec
gives no text for the output: it stands as its fields in little-endian bytes (assumption 38). -/
def consoleServe (cmd : String) (x : LineIn) (minStage : Nat) (bad : List Nat → Bool)
    (run : List Nat → State → State × List Byte) (s : State) : State :=
  if s.hm.owner == 0 || !s.wd.running || s.pw.stage < 2 then s
  else
    let st := lineStatus s cmd x minStage bad
    let s1 := s.onLk fun l =>
      { l with cmdAccepted := l.cmdAccepted + 1,
               cmdRefused := if st.refused then l.cmdRefused + 1 else l.cmdRefused,
               lastRefused := if st.refused then st.code else l.lastRefused }
    let r := if st.refused then (s1, []) else run (((lineWords x.bytes).drop 1).filterMap lineNum) s1
    r.1.onHm fun h => { h with out := h.out ++ [consoleLine st r.2] }

/-- Output that only reads the state. -/
def showing (bytes : State → List Nat → List Byte) (args : List Nat) (s : State) : State × List Byte := (s, bytes s args)

/-- Table 20-4: STATUS, STAGE, ladder level, ACTIVE, SPARE_STATES, RING_STATUS, servo state. -/
def execConsoleStatus (line : LineIn) (s : State) : Host.Outcome State Fault Refusal :=
  .next (consoleServe "status" line 2 (fun a => !a.isEmpty) (showing fun s _ =>
    le 4 (statusWord s) ++ le 4 (stageWord s) ++ le 1 (ladder s) ++ le 4 (slotBits s (·.active)) ++
    le 4 (spareStates s) ++ le 4 (ringStatus s) ++ le 1 s.te.servo.code) s)

/-- Table 20-4: registers 0 to 11 and Pioneer totals of a circuit. -/
def execConsoleEnergy (line : LineIn) (s : State) : Host.Outcome State Fault Refusal :=
  .next (consoleServe "energy" line 3 (fun a => a.length != 1 || 27 < a.headD 0) (showing fun s a =>
    regBytes (s.me.regCircF.getD (a.headD 0) (Regs.zero 12)) 12 ++ regBytes (s.me.regCircP.getD (a.headD 0) (Regs.zero 2)) 2) s)

/-- Table 20-4: RMS_WIN of one channel, or of all 36. -/
def execConsoleRms (line : LineIn) (s : State) : Host.Outcome State Fault Refusal :=
  .next (consoleServe "rms" line 3 (fun a => 1 < a.length || 35 < a.headD 0) (showing fun s a =>
    (if a.isEmpty then List.range 36 else a).flatMap (fun c => le 4 (rmsWin s c))) s)

/-- Table 20-4: SUPPLY0 to 5, TEMP0 to 3, LAST_HOLDUP_US. -/
def execConsoleSupply (line : LineIn) (s : State) : Host.Outcome State Fault Refusal :=
  .next (consoleServe "supply" line 2 (fun a => !a.isEmpty) (showing fun s _ =>
    s.pw.supplies.flatMap (le 4) ++ s.pw.temps.flatMap (le 4) ++ le 4 s.pw.lastHoldupUs) s)

/-- Table 20-4: the latest entries, up to 32. How many a line without a number shows is free. -/
def execConsoleLog (line : LineIn) (s : State) : Host.Outcome State Fault Refusal :=
  .next (consoleServe "log" line 2 (fun a => 1 < a.length || a.head? == some 0 || 32 < a.headD 0)
    (fun a s =>
      let n := a.headD (Config.freeNat s.free % 32 + 1)
      let l := logFrom s 0
      let r := l.drop (l.length - n)
      ((s.senseLog ((r.head?.map (fieldAt · 0 4)).getD 1) ((r.getLast?.map (fieldAt · 0 4)).getD 0)).drew 1, r.flatten)) s)

/-! ### TDAC_OUT and forced outputs (R459 to R461) -/

def opTdac : Op := { code := 0x0F01, fixed := 6 }

/-- Reply of TEST_TDAC after STATUS. -/
def tdacReply (s : State) : List Byte := zeros 2 ++ le 4 (tdacState s)

/-- TDAC_OUT goes to high impedance. -/
def State.tdacEnd (s : State) : State := s.onHm fun h => { h with tdacOn := false, tdacConsole := false, tdacCode := 0 }

/-- R459, R461. -/
def execTestTdacOn (h : Hdr) (badAction : Bool) (code durationS : Nat) (s : State) : Host.Outcome State Fault Refusal :=
  .next (serve opTdac h (h.len == 8)
    (fun s => [(badAction || 65535 < code || durationS == 0 || par s 0x7802 < durationS, .valueRange)])
    (fun s =>
      let s1 := s.onHm fun m =>
        { m with tdacOn := true, tdacConsole := h.path == .console, tdacCode := code, tdacClk := s.clk, tdacS := durationS }
      ⟨s1, .ok, tdacReply s1⟩) s)

/-- R459, R461. CODE and DURATION_S count in ACTION 1 alone. -/
def execTestTdacOff (h : Hdr) (code durationS : Nat) (s : State) : Host.Outcome State Fault Refusal :=
  .next (serve opTdac h (h.len == 8) (fun _ => [(65535 < code || 65535 < durationS, .valueRange)])
    (fun s => ⟨s.tdacEnd, .ok, tdacReply s.tdacEnd⟩) s)

/-- R459, R460. A level or force that began at a model clock has run for its duration, or for TEST_MAX_S as it stands now. -/
def testOver (s : State) (clk durS : Nat) : Bool := s.after clk (Nat.min durS (par s 0x7802) * cycS)

/-- R459. The level ends when its duration has run, and in any case after TEST_MAX_S. -/
def execTdacLevelExpiry (s : State) : Host.Outcome State Fault Refusal :=
  .next (if s.hm.tdacOn && testOver s s.hm.tdacClk s.hm.tdacS then s.tdacEnd else s)

def opOutput : Op := { code := 0x0F02, fixed := 6 }

/-- Reply of TEST_OUTPUT after STATUS. -/
def outputReply (s : State) : List Byte := zeros 2 ++ le 4 (forceState s)

/-- A force ends; the function behind the ball has run on. -/
def State.unforce (s : State) (o : Nat) : State := s.onHm fun h => { h with forces := h.forces.filter (fun f => f.output != o) }

/-- R460, R461. -/
def execTestOutputForce (h : Hdr) (output level durationS : Nat) (s : State) : Host.Outcome State Fault Refusal :=
  .next (serve opOutput h (h.len == 4)
    (fun s => [(locked s, .locked), (!canWrite s h.path 2, .authFail), (19 < output || 1 < level, .valueRange),
      (durationS == 0 || par s 0x7802 < durationS, .valueRange)])
    (fun s =>
      let s1 := (s.unforce output).onHm fun m => { m with forces := m.forces ++ [⟨output, level == 1, h.path, s.clk, durationS⟩] }
      ⟨s1, .ok, outputReply s1⟩) s)

/-- R460, R461. DURATION_S counts in a force alone. -/
def execTestOutputRelease (h : Hdr) (output durationS : Nat) (s : State) : Host.Outcome State Fault Refusal :=
  .next (serve opOutput h (h.len == 4)
    (fun s => [(locked s, .locked), (!canWrite s h.path 2, .authFail), (19 < output || 65535 < durationS, .valueRange)])
    (fun s => ⟨s.unforce output, .ok, outputReply (s.unforce output)⟩) s)

/-- Level of an output ball: CF0 to CF7, BLAZE0 to BLAZE7 or LED0 to LED3 (true is lit), forced or as the function behind it has
it; a STAGE LED's blinking is apart (R460, R454). -/
def outputLevel (s : State) (o : Nat) : Bool :=
  (forcedLevel s o).getD
    (if o < 8 then cfLevel s o else if o < 16 then blazeLevel (s.te.blazes.getD (o - 8) Blaze.reset) else (ledLit s (o - 16)).1)

/-- R460. A force ends when its duration or TEST_MAX_S has run. -/
def execTestOutputExpiry (output : Fin 20) (s : State) : Host.Outcome State Fault Refusal :=
  .next (if s.hm.forces.any (fun f => f.output == output.val && testOver s f.clk f.durS) then s.unforce output else s)

end Sys2Proof.Machine
end

