-- ==== Sys2Proof/Machine/Ethernet.lean ====
section
/-! DEFINITION. Frames on the ring taken apart and put together: Ethernet with the HSR tag (R279), UDP over IPv4 and IPv6 (R282), the
command packets in it (R283, R294) and PTP messages (R289, R290). The spec names these protocols and does not lay out their frames: the
layouts are those of IEEE 802.3, IEC 62439-3, IPv4, IPv6, UDP and IEEE 1588-2019 (assumption 117). -/

namespace Sys2Proof.Machine

/-! ### Ethernet and UDP -/

/-- An Ethernet frame without its FCS: addresses, HSR sequence number if it is tagged, EtherType and what follows it. -/
structure Eth where
  dst : Nat
  src : Nat
  seq : Option Nat
  etype : Nat
  body : List Byte

/-- A frame taken apart; a tag is recognised in HSR mode. -/
def ethOf (hsr : Bool) (bs : List Byte) : Eth :=
  if hsr && beAt bs 12 2 == 0x892F then ⟨beAt bs 0 6, beAt bs 6 6, some (beAt bs 16 2), beAt bs 18 2, bs.drop 20⟩
  else ⟨beAt bs 0 6, beAt bs 6 6, none, beAt bs 12 2, bs.drop 14⟩

/-- A frame without its HSR tag. -/
def untagged (bs : List Byte) (e : Eth) : List Byte := if e.seq.isSome then bs.take 12 ++ bs.drop 18 else bs

/-- The frame that a port received, without its FCS. -/
def frameBody (f : FrameIn) : List Byte := f.bytes.take (f.bytes.length - 4)

/-- A whole frame with a correct FCS. -/
def frameGood (f : FrameIn) : Bool := 64 ≤ f.bytes.length && fcs (frameBody f) == fieldAt f.bytes (f.bytes.length - 4) 4

/-- A UDP datagram: addresses in the 128-bit form of Table 10-12, ports and payload. -/
structure Udp where
  src : Nat
  dst : Nat
  sport : Nat
  dport : Nat
  data : List Byte

/-- The datagram that stands at the UDP header `u`. -/
def udpAt (src dst : Nat) (u : List Byte) : Udp := ⟨src, dst, beAt u 0 2, beAt u 2 2, (u.drop 8).take (beAt u 4 2 - 8)⟩

/-- The UDP datagram of a frame; a fragment of a larger IP packet is none. -/
def udpOf (e : Eth) : Option Udp :=
  let b := e.body
  if e.etype == 0x0800 && beAt b 0 1 / 16 == 4 && beAt b 9 1 == 17 && beAt b 6 2 % 2 ^ 14 == 0 then
    some (udpAt (ofIpv4 (beAt b 12 4)) (ofIpv4 (beAt b 16 4)) (b.drop (beAt b 0 1 % 16 * 4)))
  else if e.etype == 0x86DD && beAt b 0 1 / 16 == 6 && beAt b 6 1 == 17 then some (udpAt (beAt b 8 16) (beAt b 24 16) (b.drop 40))
  else none

/-! ### Addresses (R282) -/

/-- The 64-bit identifier formed from a MAC address. -/
def eui64 (mac : Nat) : Nat := mac / 2 ^ 24 * 2 ^ 40 + 0xFFFE * 2 ^ 24 + mac % 2 ^ 24

/-- The IPv6 link-local address formed from the MAC address, its universal/local bit inverted. -/
def linkLocal : Nat := eui64 (macAddr.xor 0x020000000000) + 0xFE80 * 2 ^ 112

/-- The device takes UDP to an address: its IPv4 address where IPv4 is on, its global or link-local IPv6 address; and, for broadcast
packets (R283), a broadcast or multicast address of the protocol (assumption 118). -/
def ownAddress (s : State) (a : Nat) : Bool :=
  let v := a % 2 ^ 32
  let bc := v == 0xFFFFFFFF || v / 2 ^ 28 == 14 ||
    (par s 0x5804 != 0 && v == (par s 0x5803).land (par s 0x5804) + (0xFFFFFFFF - par s 0x5804))
  if isIpv6 a then a == linkLocal || (ipOf s 0x5806 != 0 && a == ipOf s 0x5806) || a / 2 ^ 120 == 0xFF
  else par s 0x5803 != 0 && (v == par s 0x5803 || bc)

/-- The command packet of a datagram: on port 47310 and a request (R282, R294). -/
def commandOf (u : Udp) : Option (List Byte) :=
  if u.dport == 47310 && 10 ≤ u.data.length && !bitAt (beAt u.data 0 1) 7 then some u.data else none

/-- The CRC-16 at the end of a packet is correct. -/
def packetOk (pkt : List Byte) : Bool := crc16 (pkt.take (pkt.length - 2)) == fieldAt pkt (pkt.length - 2) 2

/-! ### PTP messages -/

/-- A PTP message of a frame: it travels untagged (R289). -/
def ptpOf (e : Eth) : Option (List Byte) := if e.etype == 0x88F7 && e.seq.isNone && 34 ≤ e.body.length then some e.body else none

/-- Fields of a PTP header: messageType, domainNumber, correctionField, sourcePortIdentity, sequenceId. -/
def ptpType (m : List Byte) : Nat := beAt m 0 1 % 16
def ptpDomain (m : List Byte) : Nat := beAt m 4 1
def ptpCorr (m : List Byte) : Int := toSigned 64 (beAt m 8 8)
def ptpSource (m : List Byte) : Nat := beAt m 20 10
def ptpSeq (m : List Byte) : Nat := beAt m 30 2

/-- twoStepFlag. -/
def ptpTwoStep (m : List Byte) : Bool := bitAt (beAt m 6 1) 1

/-- The timestamp after the header, in counter units. -/
def ptpStamp (m : List Byte) : Nat := (beAt m 34 6 * 1000000000 + beAt m 40 4) * 65536

/-- requestingPortIdentity of a response. -/
def ptpAsked (m : List Byte) : Nat := beAt m 44 10

/-- What the best-master algorithm compares of an Announce message that came in on a port, in this order and the lower value better:
priority1, clockClass with accuracy and variance, priority2, grandmaster, stepsRemoved, sender and port. -/
def announceRank (port : Nat) (m : List Byte) : List Nat :=
  [beAt m 47 1, beAt m 48 4, beAt m 52 1, beAt m 53 8, beAt m 61 2, ptpSource m, port]

/-- grandmasterIdentity of an Announce message. -/
def announceGm (m : List Byte) : Nat := beAt m 53 8

/-- The first of two lists that differ where it is lower. -/
def lexLess : List Nat → List Nat → Bool
  | a :: r, b :: t => a < b || (a == b && lexLess r t)
  | _, _ => false

/-- Clock identity formed from the MAC address, and a port's identity. -/
def clockIdentity : Nat := eui64 macAddr
def portIdentity (port : Nat) : Nat := clockIdentity * 65536 + (port + 1)

/-- A timestamp as a PTP message carries it. -/
def ptpTime (t : Nat) : List Byte := be 6 (t / 65536 / 1000000000) ++ be 4 (t / 65536 % 1000000000)

/-- A peer-delay message of the device: type, domain, flags, correctionField, sequenceId and what follows the header. -/
def peerMessage (port type domain flags : Nat) (corr : Int) (seq : Nat) (body : List Byte) : List Byte :=
  be 6 0x0180C200000E ++ be 6 macAddr ++ be 2 0x88F7 ++ be 1 type ++ be 1 2 ++ be 2 (34 + body.length) ++ be 1 domain ++ zeros 1 ++
  be 2 flags ++ be 8 (ofSigned 64 corr) ++ zeros 4 ++ be 10 (portIdentity port) ++ be 2 seq ++ be 1 5 ++ be 1 0x7F ++ body

/-- The bytes of a PTP frame with another correctionField (bytes 22 to 29). -/
def withCorr (bs : List Byte) (corr : Int) : List Byte := bs.take 22 ++ be 8 (ofSigned 64 corr) ++ bs.drop 30

/-! ### C37.118 command frames (R243) -/

/-- Fields of a command frame: IDCODE, and the command word. -/
def cmdIdcode (c : PmuCmdIn) : Nat := beAt c.bytes 4 2
def cmdWord (c : PmuCmdIn) : Nat := beAt c.bytes 14 2

/-- SYNC of a command frame, FRAMESIZE equal to its length, and a correct CHK. -/
def cmdFrameOk (c : PmuCmdIn) : Bool :=
  let n := c.bytes.length
  beAt c.bytes 0 1 == 0xAA && beAt c.bytes 1 1 / 16 % 8 == 4 && 18 ≤ n && beAt c.bytes 2 2 == n &&
    crc16 (c.bytes.take (n - 2)) == beAt c.bytes (n - 2) 2

end Sys2Proof.Machine
end

