-- ==== Sys2Proof/Machine/HostOps.lean ====
section
/-! DEFINITION. The link hardware of the host interface (chapter 13): hush, direct frames and the snap window's latches, packet frames on
SPI and the frames of the host UART, from the bytes that the host sends. -/

namespace Sys2Proof.Machine

/-! ### Hush (R312 to R314) -/

/-- A bulk frame in transmission on the UART is cut by a delimiter: the bytes sent so far and 0x00 (R313). -/
def Link.cutBulk (l : Link) (clk : Nat) : Link :=
  match l.line with
  | some (true, bs, start) => { l with line := none, sent := (bs.take (satN (bs.length - 1) ((clk - start) * l.baud / 1280000000))) ++ [0] }
  | _ => l

/-- HUSH recognised: bulk replies not yet sent are discarded, own network output of priority 6 and 0 stops (R313). -/
def State.hush (s : State) (src : Nat) : State :=
  let s1 := (s.onLk fun l => ({ l with hushed := true, hushSrc := src, hushCount := satN 65535 (l.hushCount + 1),
                                       bulkOut := [] }).cutBulk s.clk).hushNet
  if s.lk.hushed then s1 else s1.irq 13

/-- RESUME recognised: it ends the hushed state on every path and starts nothing by itself (R314). -/
def State.resume (s : State) (src : Nat) : State :=
  let s1 := s.onLk fun l => { l with hushed := false, hushSrc := src }
  if s.lk.hushed then s1.irq 13 else s1

/-- Place a reply at the head of the control stream, behind the rest of a reply already begun (R309). -/
def State.headReply (s : State) (bs : List Byte) : State :=
  s.onLk fun l =>
    { l with ctrlOut := if l.ctrlCut then l.ctrlOut.take 1 ++ [bs] ++ l.ctrlOut.drop 1 else bs :: l.ctrlOut }

/-- The reply of link hardware to HUSH and RESUME (Table 13-9). It leaves on the control lane. -/
def hushReply (s : State) (tag opcode : Nat) : List Byte :=
  packet 0x81 tag opcode s.nt.node (le 2 0 ++ zeros 2 ++ le 4 (hushWord s))

/-- Source code of a packet on the host interface (Table 13-11, HUSH). -/
def hostSrc (s : State) : Nat := if s.pw.hsel then 3 else 2

/-! ### Direct frames and the snap window (R297 to R300, R306, R316, R317) -/

/-- Count a discarded packet (R302, R308, R315). -/
def State.frameError (s : State) : State :=
  (s.onLk fun l => { l with frameErrors := u32 (l.frameErrors + 1) }).irq 14

/-- Count a direct frame cut short, or of a wrong length on the UART; it sets no LINK_ERR (R300, R306, Table 13-10). -/
def State.directError (s : State) : State := s.onLk fun l => { l with frameErrors := u32 (l.frameErrors + 1) }

/-- Bytes driven during an SPI frame. -/
def State.drives (s : State) (bs : List Byte) : State := s.onLk fun l => { l with sent := bs }

/-- Clear the bits of a word that are 1 in another (write 1 to clear). -/
def clearBits (v w : Nat) : Nat := v - v.land w

/-- A direct write with a good CRC (R300, Table 13-11). A one in a reserved bit is a value that the word does not accept. -/
def State.directWord (s : State) (a v : Nat) : State :=
  if a == 0x19 then s.secWrite v
  else if 0x1A ≤ a && a ≤ 0x1E then s.stageWrite (a - 0x1A) v
  else if a == 0x01 && v < 2 ^ 12 then
    (s.onLk fun l => { l with directCrcErr := l.directCrcErr && !bitAt v 2, directRoErr := l.directRoErr && !bitAt v 3 }).directLog
      a .accepted
  else if a == 0x02 && v < 2 ^ 15 then (s.onLk fun l => { l with irq := clearBits l.irq v }).directLog a .accepted
  else if a == 0x03 && v < 2 ^ 15 then (s.onLk fun l => { l with irqMask := v }).directLog a .accepted
  else if a == 0x06 && v == 1 then (s.hush (if s.pw.hsel then 3 else 1)).directLog a .accepted
  else if a == 0x06 && v == 2 then (s.resume (if s.pw.hsel then 3 else 1)).directLog a .accepted
  else if 0xC0 ≤ a && a ≤ 0xDF then
    (s.onLk fun l => { l with scratch := modAt l.scratch (a - 0xC0) (fun _ => v) }).directLog a .accepted
  else s.directLog a .refused

/-- A direct write of seven bytes: its CRC is checked over header and data, and the write takes effect or is refused (R298, R300). -/
def State.writeFrame (s : State) (bs : List Byte) : State :=
  let a := beAt bs 1 1
  if crc8 (bs.take 6) == beAt bs 6 1 then s.directWord a (beAt bs 2 4) else s.directLog a .badCrc

/-- The effect of a read on the group that a word belongs to: the first read latches, the read of the last word releases
(R317). The time group latches the counter as it stood 0 to 40 ns earlier, a free value within that bound. -/
def State.latchFor (s : State) (a : Nat) : State :=
  if 0x10 ≤ a && a ≤ 0x13 && (timeLatched s).isNone then
    (s.onLk fun l =>
      { l with timeLatch := some (s.now - Config.freeNat s.free % (40 * 65536 + 1)), timeLatchClk := s.clk }).drew 1
  else if 0x18 ≤ a && a ≤ 0x1E && (calLatched s).isNone then
    s.onLk fun l => { l with calLatch := some s.rtc.cal, calLatchClk := s.clk }
  else s

/-- Release a group after the read of its last word (R317). -/
def State.unlatchFor (s : State) (a : Nat) : State :=
  s.onLk fun l => { l with timeLatch := if a == 0x13 then none else l.timeLatch,
                           calLatch := if a == 0x1E then none else l.calLatch }

/-- What the device answers to a direct read after the header: the word, and a CRC over the header as received and the word (R298, R299).
-/
def directReply (s : State) (hd : List Byte) (a : Nat) : List Byte :=
  let w := be 4 (u32 (snapWord s a))
  w ++ be 1 (crc8 (hd ++ w))

/-- A direct frame on SPI. A read latches at the 16th edge and its word leaves in the same frame, with 0 before the word and beyond the
frame's end; one cut short is counted. A write takes effect at the 56th edge, and the device drives 0 (R297 to R300). -/
def State.spiDirect (s : State) (bs : List Byte) : State :=
  let a := beAt bs 1 1
  let s1 := if bs.length < 7 then s.directError else s
  if bitAt (beAt bs 0 1) 6 then
    (if bs.length < 7 then s1 else s1.writeFrame (bs.take 7)).drives (zeros bs.length)
  else if bs.length < 2 then s1.drives (zeros bs.length)
  else
    let s2 := s1.latchFor a
    (s2.unlatchFor a).drives (fitBytes bs.length (zeros 2 ++ directReply s2 (bs.take 2) a))

/-- A decoded direct frame on the UART: a read is answered with a direct frame, which waits for its turn; a write is not answered; one of
another length is counted (R306). The CRC of a read is not checked (assumption 122). -/
def State.uartDirect (s : State) (bs : List Byte) : State :=
  let a := beAt bs 1 1
  if bs.length != 7 then s.directError
  else if bitAt (beAt bs 0 1) 6 then s.writeFrame bs
  else
    let s1 := s.latchFor a
    (s1.unlatchFor a).onLk fun l => { l with directOut := l.directOut ++ [bs.take 2 ++ directReply s1 (bs.take 2) a] }

/-! ### Packets (R301 to R305, R308, R309, R312) -/

/-- Length of the packet at the head of the bytes: header, PARAMS, CRC-16, and nonce and tag of a secured packet. -/
def packetSize (bs : List Byte) : Nat := 10 + fieldAt bs 4 2 + (if bitAt (byteAt bs 0).toNat 4 then 24 else 0)

/-- A reply of link hardware enters its lane's stream in the order of the lane's requests: behind those that still wait (R309). It counts
as refused like every other (Table 14-14). -/
def State.linkReply (s : State) (pkt : List Byte) (st : Status) (rest : List Byte) : State :=
  let bulk := bitAt (byteAt pkt 0).toNat 6
  let bs := packet (0x81 + flagAt bulk 6) (byteAt pkt 1).toNat (fieldAt pkt 2 2) s.nt.node (le 2 st.code ++ rest)
  s.onLk fun l =>
    let l1 := { l with cmdRefused := l.cmdRefused + 1, lastRefused := fieldAt pkt 2 2 * 65536 + st.code }
    if bulk then
      if l.rxBulk.isEmpty then { l1 with bulkOut := l.bulkOut ++ [bs] } else { l1 with rxBulk := l.rxBulk ++ [.reply bs] }
    else if l.rxCtrl.isEmpty then { l1 with ctrlOut := l.ctrlOut ++ [bs] } else { l1 with rxCtrl := l.rxCtrl ++ [.reply bs] }

/-- Put a packet into a receive buffer of its lane, where one is free (R309, check 6 of R308). -/
def State.rxBuffer (s : State) (bulk : Bool) (pkt : List Byte) : State :=
  if (if bulk then 2 else 4) ≤ buffersUsed (if bulk then s.lk.rxBulk else s.lk.rxCtrl) then
    (s.onLk fun l => { l with rxDropped := u32 (l.rxDropped + 1) }).irq 14
  else s.onLk fun l =>
    if bulk then { l with rxBulk := l.rxBulk ++ [.request pkt] } else { l with rxCtrl := l.rxCtrl ++ [.request pkt] }

/-- The checks of Table 13-6 from 2 on, for a whole packet that came on a lane. At stage 1 link hardware answers the control
lane and discards the bulk lane (Table 2-5). A HUSH or RESUME with a bad CRC keeps the layout of Table 13-9 (R321). -/
def State.packetCheck (s : State) (bulk : Bool) (pkt : List Byte) : State :=
  let f := (byteAt pkt 0).toNat
  let op := fieldAt pkt 2 2
  let node := fieldAt pkt 6 2 % 4096
  let hushing := op == 0x0110 || op == 0x0111
  if f % 16 != 1 || bitAt f 7 || bitAt f 6 != bulk then s.frameError
  else if node != s.nt.node && node != 0xFFF then s.frameError
  else if crc16 (pkt.take (pkt.length - 2)) != fieldAt pkt (pkt.length - 2) 2 then
    s.linkReply pkt .badCrc (if hushing then zeros 6 else [])
  else if (if bitAt f 4 then 4056 else 4080) < fieldAt pkt 4 2 then s.linkReply pkt .badLength []
  else if hushing then
    let s1 := if op == 0x0110 then s.hush (hostSrc s) else s.resume (hostSrc s)
    s1.headReply (hushReply s1 (byteAt pkt 1).toNat op)
  else if s.pw.stage == 1 then (if bulk then s else s.linkReply pkt .notInStage [])
  else s.rxBuffer bulk pkt

/-- Packets of a frame one after another (R302). `h` is what the header announced and is still to come; a packet that the frame
does not hold whole is discarded with everything after it. -/
def State.packets (s : State) (bulk : Bool) : Nat → Nat → List Byte → State
  | 0, _, _ => s
  | fuel + 1, h, bs =>
    if h == 0 then s
    else if bs.length < 10 || bs.length < packetSize bs then s.frameError
    else
      let n := packetSize bs
      (s.packetCheck bulk (bs.take n)).packets bulk fuel (h - n) (bs.drop n)

/-- Take bytes off the head of a stream: the bytes, the stream left, and whether a packet is left cut. -/
def takeBytes : Nat → List (List Byte) → List Byte × List (List Byte) × Bool
  | _, [] => ([], [], false)
  | n, p :: r =>
    if n == 0 then ([], p :: r, false)
    else if n < p.length then (p.take n, p.drop n :: r, true)
    else
      let (a, b, c) := takeBytes (n - p.length) r
      (p ++ a, b, c)

/-- A packet frame on SPI: the device's header and the bytes of its lane leave while the host's packets come in; the device's header is
fixed before the host's bytes are checked (R301 to R304, R308). -/
def State.spiPackets (s : State) (bs : List Byte) : State :=
  let hbulk := bitAt (beAt bs 0 2) 14
  let h := beAt bs 0 2 % 4096
  let (bulk, d) := frameChoice s
  let (out, rest, cut) := takeBytes (Nat.min d (bs.length - 2)) (if bulk then s.lk.bulkOut else s.lk.ctrlOut)
  let s1 := s.onLk fun l =>
    { l with sent := fitBytes bs.length (be 2 (d + flagAt bulk 14) ++ out),
             bulkOut := if bulk then rest else l.bulkOut,
             ctrlOut := if bulk then l.ctrlOut else rest,
             ctrlCut := if bulk || out.isEmpty then l.ctrlCut else cut }
  if bs.length < 2 then s1
  else if hbulk && par s 0x0811 < h then s1.frameError
  else s1.packets hbulk 410 h ((bs.drop 2).take h)

/-- A block between two delimiters on the UART (R305, R306): nothing, a direct frame, or one packet on the lane of its FLAGS; what is not
a whole packet is discarded and counted (R308). -/
def State.uartBlock (s : State) (bs : List Byte) : State :=
  if bs.isEmpty then s
  else match uncobs bs with
    | none => s.frameError
    | some d =>
      if bitAt (beAt d 0 1) 7 then s.uartDirect d
      else if d.length < 10 || d.length != packetSize d then s.frameError
      else s.packetCheck (bitAt (beAt d 0 1) 6) d

/-- A frame arrives on the host interface, which runs from stage 1 (R296, R297, R305): bit 15 of its header picks a direct or a packet
frame. What the answers shifted out with it report is complete (assumption 124). -/
def State.hostFrame (s0 : State) (bs : List Byte) : State :=
  let s := s0.landed
  if s.pw.stage == 0 then s
  else if s.pw.hsel then s.uartBlock bs
  else if bs.isEmpty then s
  else if bitAt (beAt bs 0 1) 7 then s.spiDirect bs
  else s.spiPackets bs

end Sys2Proof.Machine
end

