-- ==== Sys2Proof/Machine/Network.lean ====
section
/-! DEFINITION. Network commands: links (R277), switch and HSR (R278 to R281), egress and admission (R284, R285), the transparent clock
and PTP (R252, R289 to R291), and host frames (R293). -/

namespace Sys2Proof.Machine

/-! ### Links (R276, R277) -/

/-- R276, R277. The amplitude is the forced one, or in automatic mode the negotiated one. -/
def execLinkUp (port : Fin 2) (high : Bool) (sqi : Fin 8) (s : State) : Host.Outcome State Fault Refusal :=
  let m := par s (pid 29 port 0)
  let l := if m == 1 then 1 else if m == 2 then 2 else if high then 1 else 2
  if portOn s port && (s.port port).link == 0 then
    .next (((s.onPort port fun p => { p with link := l, sqi := sqi }).irq 5).log 0x0B01 (le 1 port ++ le 1 l))
  else .next s

/-- R277. -/
def execLinkDown (port : Fin 2) (s : State) : Host.Outcome State Fault Refusal :=
  if portUp s port then .next (s.portDown port) else .next s

/-! ### PTP egress (R289, R290) -/

/-- The residence record of a Sync that left a port. -/
def residenceFor (s : State) (k source seq : Nat) : Option Nat :=
  ((s.port k).residence.find? fun e => e.1 == source && e.2.1 == seq).map (·.2.2)

/-- A PTP frame as it leaves a port: a one-step Sync carries its residence time and ingress delay in its correctionField, a Follow_Up
those of its own Sync (R290). -/
def corrected (s : State) (k : Nat) (f : OwnFrame) : List Byte :=
  match f.ptp with
  | some (.sync _ _ rx (some d) true corr) =>
    withCorr f.bytes (corr + ((s.now + latency s k 2 : Nat) : Int) - (rx : Int) + (d : Int))
  | some (.followUp source seq corr) =>
    match residenceFor s k source seq with
    | some r => withCorr f.bytes (corr + (r : Int))
    | none => f.bytes
  | _ => f.bytes

/-- What a two-step Sync that leaves a port notes for its Follow_Up; nothing where its ingress delay is not valid. -/
def residenceOf (s : State) (k : Nat) (f : OwnFrame) : List (Nat × Nat × Nat) :=
  let l := (s.port k).residence
  match f.ptp with
  | some (.sync source seq rx d false _) =>
    let r := l.filter fun e => e.1 != source
    match d with
    | some d => r ++ [(source, seq, s.now + latency s k 2 - rx + d)]
    | none => r
  | some (.followUp source seq _) => l.filter fun e => !(e.1 == source && e.2.1 == seq)
  | _ => l

/-- The TX timestamp of an own frame that asked for one (R264). -/
def State.stampFrame (s : State) (k : Nat) (f : OwnFrame) : State :=
  match f.tsId with
  | some n => s.txStamp (f.kind == .host) n k (s.te.stepsAccepted != f.stepMark)
  | none => s

/-- Canopy takes the TX timestamp of an event message out of the internal queue (R264, R266). -/
def State.takeStamp (s : State) (port id : Nat) : State × Option Nat :=
  let mine := fun (e : TxEntry) => e.port == port && e.id == id
  let l := s.te.txInt.filter fun e => !mine e
  (s.onTe fun t => { t with txInt := l, txOvInt := t.txOvInt && !l.isEmpty }, (s.te.txInt.find? mine).map fun e => ofTime80 e.time)

/-- Timestamp IDs that the PTP stack chooses for its requests and its responses (R265; assumption 117). -/
def requestId (seq : Nat) : Nat := seq % 32768
def responseId (seq : Nat) : Nat := 32768 + seq % 32768

/-- A frame of the PTP stack in Canopy: at priority 7 on one port (R284, R289). -/
def State.sendPeer (s : State) (port : Nat) (bytes : List Byte) (id : Option Nat) (m : Option PtpMark) : State :=
  s.sendFrame { rawFrame 7 .ptp bytes (2 ^ port) with tsId := id, stepMark := s.te.stepsAccepted, ptp := m }

/-- After a Pdelay_Resp has left, its Pdelay_Resp_Follow_Up gives the instant (R289, assumption 117). -/
def State.answerFollow (s : State) (port : Nat) (f : OwnFrame) : State :=
  match f.ptp with
  | some (.response asker seq corr) =>
    if !s.wd.canopyRunning then s
    else match s.takeStamp port (responseId seq) with
      | (x, some t3) =>
        x.sendPeer port (peerMessage port 10 (beAt f.bytes 18 1) 0 corr seq (ptpTime t3 ++ be 10 asker)) none none
      | (x, none) => x
  | _ => s

/-! ### Egress (R284, R285) -/

/-- R166, R264, R284, R289, R290. The port's next frame leaves; on a port without link it is lost. -/
def execFrameTransmit (port : Fin 2) (s : State) : Host.Outcome State Fault Refusal :=
  match nextFrame port 0 s.nt.egress none with
  | none => .next s
  | some (i, f) =>
    let rest := clrBit f.ports port
    let up := portUp s port
    let s0 := if up && !f.left then s.frameSent f else s
    let s1 := s0.onNt fun n =>
      { n with egress := if rest == 0 then n.egress.eraseIdx i
                         else modAt n.egress i (fun x => { x with ports := rest, left := x.left || up }) }
    if up then
      let s2 := s1.onPort port fun p =>
        { p with txFrames := u32 (p.txFrames + 1), last := some { f with bytes := corrected s port f },
                 sentLog := (s.clk, wireBytes s f) :: p.sentLog.filter (fun e => s.clk < e.1 + 12800000),
                 residence := residenceOf s port f }
      .next ((s2.stampFrame port f).answerFollow port f).landed
    else if rest == 0 && !f.left then .next (s1.frameLost f)
    else .next s1

/-- The waiting own frame that comes next: the oldest of priority 6, else of priority 0 (R285). -/
def waitingNext (s : State) : Option (Nat × OwnFrame) :=
  match s.nt.waiting.findIdx? (fun f => f.prio == 6) with
  | some k => (s.nt.waiting[k]?).map (fun f => (k, f))
  | none => (s.nt.waiting[0]?).map (fun f => (0, f))

/-- R285. The frame that comes next is admitted when both limits allow it; one that the reserve limiter holds back is counted
once. -/
def execOwnFrameAdmission (s : State) : Host.Outcome State Fault Refusal :=
  match waitingNext s with
  | none => .next s
  | some (k, f) =>
    if admits s f then
      let s1 := ((s.onNt fun n => { n with waiting := n.waiting.eraseIdx k }).charge f).enqueue f
      .next (if f.kind == .phasor then s1.onPm fun p => { p with waitEnd := p.waitEnd.drop 1 } else s1)
    else if limiterOk s f.ports || f.held then .next s
    else .next (s.onNt fun n =>
      { n with waiting := modAt n.waiting k (fun x => { x with held := true }), reserveHeld := u32 (n.reserveHeld + 1) })

/-! ### The MAC (R282, R283, R293, R294) -/

/-- A received frame that the switch has passed on: what it carries, the frame without FCS as it came, port and receive instant. -/
structure Heard where
  eth : Eth
  bytes : List Byte
  port : Nat
  rx : Nat

/-- Addressed to the device, or multicast (R279). -/
def forDevice (e : Eth) : Bool := e.dst == macAddr || bitAt e.dst 40

/-- A frame that the host asked for is held with its receive time and port (R293). -/
def State.hostHold (s : State) (f : Heard) : State :=
  let udp := (udpOf f.eth).any fun u => u.dport != 0 && u.dport == par s 0x5813
  if !((f.eth.etype != 0 && f.eth.etype == par s 0x5812) || udp) then s
  else s.onNt fun n =>
    if n.rxQueue.length < 16 then { n with rxQueue := n.rxQueue ++ [⟨f.port, f.rx, untagged f.bytes f.eth⟩] }
    else { n with rxLost := u32 (n.rxLost + 1) }

/-- The IP address of a frame's sender is reached at its source MAC address from now on (assumption 118). -/
def State.learnAddress (s : State) (e : Eth) : State :=
  match udpOf e with
  | some u => s.onNt fun n =>
      let l := n.neigh.filter (fun x => x.1 != u.src) ++ [(u.src, e.src)]
      { n with neigh := l.drop (l.length - 256) }
  | none => s

/-- A command packet for the device's addresses (R283, R294): one for another node is counted, a HUSH with a correct CRC-16 is
recognised here, and is discarded with HUSH_EN clear. Any other goes to the interpreter, whose commands are rows of their own. -/
def State.macCommand (s : State) (u : Udp) (pkt : List Byte) : State :=
  let node := fieldAt pkt 6 2 % 4096
  if node != s.nt.node && node != 0xFFF then s.onNt fun n => { n with cmdWrongNode := u32 (n.cmdWrongNode + 1) }
  else if fieldAt pkt 2 2 == 0x0110 && packetOk pkt && bitAt (par s (pid 11 0 20)) 0 then
    let s1 := s.hush 4
    if node == 0xFFF then s1
    else s1.enqueue (udpFrame s1 7 .reply (u.src, u.sport) 47310 (hushReply s1 (beAt pkt 1 1) 0x0110))
  else s

/-- The MAC takes a frame. -/
def State.toMac (s : State) (f : Heard) : State :=
  let s1 := (s.hostHold f).learnAddress f.eth
  match udpOf f.eth with
  | some u =>
    match commandOf u with
    | some pkt => if ownAddress s u.dst then s1.macCommand u pkt else s1
    | none => s1
  | none => s1

/-! ### Switch and HSR (R278 to R281) -/

/-- Priority of a forwarded frame: command packets and replies 7, phasor frames 6, the rest 0 (R284). PRESUMED: told apart by their UDP
ports (assumption 40). -/
def forwardPrio (s : State) (e : Eth) : Nat :=
  match udpOf e with
  | some u =>
    if u.dport == 47310 || u.sport == 47310 then 7
    else if u.dport != 0 && (u.dport == par s 0x300E || u.dport == par s 0x300F) then 6 else 0
  | none => 0

/-- Forward a frame to the other port as it came. -/
def State.forward (s : State) (f : Heard) : State :=
  s.onNt fun n => { n with egress := n.egress ++
    [{ rawFrame (forwardPrio s f.eth) .forwarded f.bytes (2 - f.port) with hsrSeq := f.eth.seq.getD 0 }] }

/-- Marks of frames whose second copy may still come; those of a source are dropped once its sequence numbers have gone half round
(assumption 120). -/
def marksAfter (l : List (Nat × Nat)) (key : Nat × Nat) : List (Nat × Nat) :=
  l.filter fun e => !(e.1 == key.1 && (e.2 == key.2 || 32768 ≤ (key.2 + 65536 - e.2) % 65536))

/-- Enter a first copy into the discard table; a full table gives up its oldest entry. A second copy that finds no entry is treated as a
first one and counted (R280). -/
def State.firstCopy (s : State) (key : Nat × Nat) : State :=
  s.onNt fun n =>
    let full := 512 ≤ n.discard.length
    let marks := marksAfter n.expired key
    { n with dupPassed := if n.expired.contains key then u32 (n.dupPassed + 1) else n.dupPassed,
             discard := (if full then n.discard.drop 1 else n.discard) ++ [(key, s.clk)],
             expired := if full then marks ++ [(n.discard.headD ((0, 0), 0)).1] else marks }

/-- The own supervision frame returned on a port; RING_OPEN clears at the first return on both (R281). The LINK value of the
entry for both ports is not stated: a free value. -/
def State.superReturn (s : State) (port : Nat) : State :=
  let s1 := s.onPort port fun p => { p with superBack := true, superMiss := 0 }
  if s1.nt.ringOpen && s1.nt.ports.all (·.superBack) then
    ((s1.onNt fun n => { n with ringOpen := false }).irq 5 |>.log 0x0B04 (le 1 0xFF ++ le 1 (Config.freeNat s.free))).drew 1
  else s1

/-- A tagged frame in HSR mode (R279, R280). -/
def State.hsrTagged (s : State) (f : Heard) (seq : Nat) : State :=
  let key := (f.eth.src, seq)
  if f.eth.src == macAddr then (if f.eth.etype == 0x88FB then s.superReturn f.port else s)
  else if s.nt.discard.any (fun e => e.1 == key) then
    s.onNt fun n => { n with discard := n.discard.filter (fun e => e.1 != key), dupDiscarded := u32 (n.dupDiscarded + 1) }
  else
    let s1 := s.firstCopy key
    let s2 := if forDevice f.eth then s1.toMac f else s1
    if f.eth.dst == macAddr then s2 else s2.forward f

/-- A frame in LINE mode: the bridge learns its source and forwards it by its destination (Table 12-2). -/
def State.bridge (s : State) (f : Heard) : State :=
  let s1 := s.onNt fun n =>
    let l := n.learn.filter (fun e => e.1 != f.eth.src) ++ [(f.eth.src, f.port, s.clk)]
    { n with learn := l.drop (l.length - 256) }
  let s2 := if forDevice f.eth then s1.toMac f else s1
  if f.eth.dst == macAddr || (s.nt.learn.lookup f.eth.dst).any (fun e => e.1 == f.port) then s2 else s2.forward f

/-! ### PTP (R252, R289 to R291) -/

/-- Link delay of a port with its asymmetry correction, where it is valid (R288, R291). -/
def linkDelay (s : State) (k : Nat) : Option Nat :=
  (s.port k).peerDelay.map fun d =>
    ((d : Int) + quant s 8 (((parS s 32 (pid 29 k 4) : Int) : Rat) * 65536 / 1000)).toNat

/-- Forward a PTP message to the other port at priority 7 (R290); SINGLE mode has no transparent clock. -/
def State.forwardPtp (s : State) (f : Heard) (m : Option PtpMark) : State :=
  if s.nt.mode == 2 then s
  else s.onNt fun n => { n with egress := n.egress ++ [{ rawFrame 7 .forwarded f.bytes (2 - f.port) with ptp := m }] }

/-- PORT_A delivers the selected master's Sync: it has a valid peer delay and has done so within SOURCE_TIMEOUT_MS (R291). -/
def portADelivers (s : State) : Bool :=
  let p := s.port 0
  p.peerDelay.isSome && p.syncClk.any (fun c => msSince s c < par s (pid 7 0 8))

/-- The device takes the offset of a message that came in on a port (R252, R291). -/
def takesFrom (s : State) (port : Nat) : Bool := takesOffsets s 1 && (port == 0 || !portADelivers s)

/-- The message comes from the selected master in PTP_DOMAIN (R252). -/
def fromMaster (s : State) (m : List Byte) : Bool :=
  s.wd.canopyRunning && ptpDomain m == par s (pid 7 0 15) && s.nt.master.any (fun x => x.2 == ptpSource m)

/-- One offset from PTP: receive instant against origin, corrections and link delay (R252). -/
def State.ptpOffset (s : State) (rx origin : Nat) (corr : Int) (delay : Nat) : State :=
  (s.offset ((rx : Int) - ((origin : Int) + corr + (delay : Int))) ((s.nt.master.map (·.1)).getD 0)).1

/-- A Sync: forwarded, and with a valid peer delay used where it is the selected master's (R290, R291, R252). -/
def State.takeSync (s : State) (f : Heard) (m : List Byte) : State :=
  let d := linkDelay s f.port
  let s1 := (s.forwardPtp f (some (.sync (ptpSource m) (ptpSeq m) f.rx d (!ptpTwoStep m) (ptpCorr m)))).drew 9
  match d with
  | none => s1
  | some delay =>
    if !fromMaster s m then s1
    else
      let s2 := s1.onPort f.port fun p =>
        { p with syncClk := some s.clk,
                 syncWait := if ptpTwoStep m then some ⟨ptpSource m, ptpSeq m, f.rx, ptpCorr m⟩ else p.syncWait }
      if !ptpTwoStep m && takesFrom s2 f.port then s2.ptpOffset f.rx (ptpStamp m) (ptpCorr m) delay else s2

/-- A Follow_Up: forwarded, and the offset of the port's Sync that waits for it completed (R290, R252). -/
def State.takeFollowUp (s : State) (f : Heard) (m : List Byte) : State :=
  let s1 := s.forwardPtp f (some (.followUp (ptpSource m) (ptpSeq m) (ptpCorr m)))
  match (s.port f.port).syncWait, linkDelay s f.port with
  | some w, some delay =>
    if w.source == ptpSource m && w.seq == ptpSeq m && fromMaster s m then
      let s2 := (s1.onPort f.port fun p => { p with syncWait := none }).drew 9
      if takesFrom s2 f.port then s2.ptpOffset w.rx (ptpStamp m) (w.corr + ptpCorr m) delay else s2
    else s1
  | _, _ => s1

/-- A master is qualified: two Announce messages within four intervals of 1 s, the latest at most three ago, and fewer than 255 steps
(R252, assumption 121). -/
def qualified (s : State) (x : Foreign) : Bool :=
  !s.after x.clk (3 * cycS) && x.prev.any (fun p => x.clk ≤ p + 4 * cycS) && x.rank.getD 4 0 < 255

/-- The best qualified master. -/
def bestMaster (s : State) : List Foreign → Option Foreign
  | [] => none
  | x :: r =>
    match bestMaster s r with
    | none => if qualified s x then some x else none
    | some y => if qualified s x && lexLess x.rank y.rank then some x else some y

/-- What the selected master's Announce sets (R250, R251). -/
def State.masterAnnounce (s : State) (m : List Byte) : State :=
  if par s (pid 7 0 0) != 1 then s
  else
    let fl := beAt m 7 1
    let s2 := if bitAt fl 2 then s.setUtc (toSigned 16 (beAt m 44 2)) else s
    let w := flagAt (bitAt fl 0) 0 + flagAt (bitAt fl 1 && !bitAt fl 0) 1 + flagAt (bitAt (leapWord s2) 2) 2
    if leapWord s2 == w then s2 else s2.setLeap w

/-- Enter an Announce into the masters heard, and choose among them; GM_ID follows the choice while TIME_SOURCE is PTP (R252). -/
def State.chooseMaster (s : State) (f : Heard) (m : List Byte) : State :=
  let here := fun (x : Foreign) => x.port == f.port && x.source == ptpSource m
  let x : Foreign := ⟨f.port, ptpSource m, s.clk, (s.nt.foreign.find? here).map (·.clk), announceGm m, announceRank f.port m⟩
  let l := s.nt.foreign.filter (fun y => !here y && !s.after y.clk (3 * cycS)) ++ [x]
  let best := bestMaster s l
  let s1 := s.onNt fun n => { n with foreign := l, master := best.map fun y => (y.gm, y.source) }
  match best with
  | some y => if par s (pid 7 0 0) == 1 then s1.onTe fun t => { t with gm := y.gm } else s1
  | none => s1

/-- An Announce: forwarded, and in PTP_DOMAIN taken by the best-master algorithm (R252, R290). -/
def State.takeAnnounce (s : State) (f : Heard) (m : List Byte) : State :=
  let s1 := s.forwardPtp f none
  if !s.wd.canopyRunning || ptpDomain m != par s (pid 7 0 15) || ptpSource m / 65536 == clockIdentity then s1
  else
    let s2 := s1.chooseMaster f m
    if s2.nt.master.any (fun x => x.2 == ptpSource m) then s2.masterAnnounce m else s2

/-- A Pdelay_Req is answered with the instant at which it arrived (R289, assumption 117). -/
def State.answerPeer (s : State) (f : Heard) (m : List Byte) : State :=
  if !s.wd.canopyRunning then s
  else s.sendPeer f.port
    (peerMessage f.port 3 (ptpDomain m) 0x0200 (-((f.rx % 65536 : Nat) : Int)) (ptpSeq m) (ptpTime f.rx ++ be 10 (ptpSource m)))
    (some (responseId (ptpSeq m))) (some (.response (ptpSource m) (ptpSeq m) (ptpCorr m)))

/-- The mean link delay from the four instants and the corrections; valid from the third response in a row (R289). -/
def State.peerResult (s : State) (port : Nat) (t2 t3 t4 : Nat) (corr : Int) : State :=
  match s.takeStamp port (requestId ((s.port port).peerSeq + 65535)) with
  | (x, none) => x
  | (x, some t1) =>
    let d := (quant s 0 (((((t4 : Int) - t1) - ((t3 : Int) - t2) - corr : Int) : Rat) / 2)).toNat
    (x.onPort port fun p =>
      { p with peerAsk := false, resp := none, peerRun := satN 3 (p.peerRun + 1),
               peerDelay := if 2 ≤ p.peerRun then some d else p.peerDelay }).drew 1

/-- A Pdelay_Resp to the port's latest request: a one-step response holds the neighbour's turnaround in its correctionField, a two-step
one waits for its follow-up (R289, assumption 117). -/
def State.takeResponse (s : State) (f : Heard) (m : List Byte) : State :=
  let p := s.port f.port
  if !(s.wd.canopyRunning && p.peerAsk && ptpAsked m == portIdentity f.port && ptpSeq m == (p.peerSeq + 65535) % 65536) then s
  else if ptpType m == 3 then
    if ptpTwoStep m then s.onPort f.port fun p => { p with resp := some ⟨ptpSeq m, ptpStamp m, f.rx, ptpCorr m⟩ }
    else s.peerResult f.port 0 0 f.rx (ptpCorr m)
  else match p.resp with
    | some w => if w.seq == ptpSeq m then s.peerResult f.port w.t2 (ptpStamp m) w.t4 (w.corr + ptpCorr m) else s
    | none => s

/-- A PTP message (R289, R290). The transparent clock forwards Sync, Follow_Up and Announce; peer-delay messages end at the port. -/
def State.takePtp (s : State) (f : Heard) (m : List Byte) : State :=
  match ptpType m with
  | 0 => s.takeSync f m
  | 2 => s.answerPeer f m
  | 3 => s.takeResponse f m
  | 8 => s.takeFollowUp f m
  | 10 => s.takeResponse f m
  | 11 => s.takeAnnounce f m
  | _ => s

/-! ### Reception -/

/-- A frame that passed its FCS, by the switch mode: PTP messages are handled at the port, in HSR mode other frames need a tag (R278,
R279, R289). -/
def State.switchFrame (s : State) (f : Heard) : State :=
  match ptpOf f.eth with
  | some m => ((if forDevice f.eth then s.hostHold f else s)).takePtp f m
  | none =>
    if s.nt.mode == 0 then
      match f.eth.seq with
      | none => s.onPort f.port fun p => { p with rxErrors := u32 (p.rxErrors + 1) }
      | some q => s.hsrTagged f q
    else if s.nt.mode == 1 then s.bridge f
    else if forDevice f.eth then s.toMac f
    else s

/-- A frame arrives on a port (R279, R288): its receive instant is the MII instant less the port's receive latency. -/
def State.receive (s : State) (port : Fin 2) (frame : FrameIn) : State :=
  if !portUp s port then s
  else
    let s1 := s.onPort port fun p => { p with rxFrames := u32 (p.rxFrames + 1), sqi := frame.sqi }
    if !frameGood frame then s1.onPort port fun p => { p with rxErrors := u32 (p.rxErrors + 1) }
    else s1.switchFrame ⟨ethOf (s.nt.mode == 0) (frameBody frame), frameBody frame, port, frame.rx - latency s port 3⟩

/-- R279, R278, R293, R294. -/
def execHsrFrameReceive (port : Fin 2) (frame : FrameIn) (s : State) : Host.Outcome State Fault Refusal := .next (s.receive port frame)

/-- R290, R291, R252. The frame of a Sync arrives. -/
def execPtpSync (port : Fin 2) (frame : FrameIn) (s : State) : Host.Outcome State Fault Refusal := .next (s.receive port frame)

/-- R290, R252. The frame of a Follow_Up arrives. -/
def execPtpFollowUp (port : Fin 2) (frame : FrameIn) (s : State) : Host.Outcome State Fault Refusal := .next (s.receive port frame)

/-- R252, R290. The frame of an Announce arrives. -/
def execPtpAnnounce (port : Fin 2) (frame : FrameIn) (s : State) : Host.Outcome State Fault Refusal := .next (s.receive port frame)

/-- R289. The frame of a Pdelay_Resp or of its follow-up arrives. -/
def execPeerDelayResponse (port : Fin 2) (frame : FrameIn) (s : State) : Host.Outcome State Fault Refusal :=
  .next (s.receive port frame)

/-- R289. Once per second Canopy's PTP stack asks the neighbour; a request that was not answered ends a run of responses not yet
complete, and its timestamp is not waited for any more. -/
def execPeerDelayRequest (port : Fin 2) (s : State) : Host.Outcome State Fault Refusal :=
  if !portUp s port || !s.wd.canopyRunning || (s.port port).askClk.any (fun c => !s.after c cycS) then .next s
  else
    let q := (s.port port).peerSeq
    let s1 := (s.takeStamp port (requestId (q + 65535))).1.onPort port fun p =>
      { p with peerAsk := true, askClk := some s.clk, peerSeq := (q + 1) % 65536, resp := none,
               peerRun := if p.peerAsk && p.peerDelay.isNone then 0 else p.peerRun }
    .next (s1.sendPeer port (peerMessage port 2 (par s (pid 7 0 15)) 0 0 q (zeros 20)) (some (requestId q)) none)

/-- R280. The oldest entry is cleared after DUP_HOLD_MS. -/
def execDiscardEntryExpiry (s : State) : Host.Outcome State Fault Refusal :=
  .next (match s.nt.discard with
    | [] => s
    | k :: r =>
      if s.after k.2 (par s (pid 11 0 21) * cycMs) then s.onNt fun n => { n with discard := r, expired := n.expired ++ [k.1] } else s)

/-- R278. The oldest learned destination ages out after 300 s. -/
def execLearningTableAgeing (s : State) : Host.Outcome State Fault Refusal :=
  .next (match s.nt.learn with
    | [] => s
    | e :: r => if s.after e.2.2 (300 * cycS) then s.onNt fun n => { n with learn := r } else s)

/-! ### Supervision (R281) -/

/-- The HSR supervision frame (assumption 117: IEC 62439-3, multicast 01-15-4E-00-01-00, EtherType 0x88FB, path and version, sequence,
TLV 23 with the MAC address). -/
def superFrame (seq : Nat) : List Byte :=
  be 6 0x01154E000100 ++ be 6 macAddr ++ be 2 0x88FB ++ be 2 1 ++ be 2 seq ++ be 1 23 ++ be 1 6 ++ be 6 macAddr ++ zeros 2 ++
  zeros 32

/-- R281. Every 2 s the interval before is judged on each port, and the next frame is sent on both. -/
def execSupervisionSend (s : State) : Host.Outcome State Fault Refusal :=
  if !(s.nt.up && s.nt.mode == 0) || s.nt.superClk.any (fun c => !s.after c (2 * cycS)) then .next s
  else
    let s1 := s.onNt fun n =>
      { n with superSent := true, superClk := some s.clk,
               ports := n.ports.map fun p =>
                 { p with superMiss := if p.superBack || !n.superSent then 0 else satN 3 (p.superMiss + 1), superBack := false } }
    .next (s1.sendFrame (rawFrame 7 .supervision (superFrame s.nt.hsrSeq) 3))

/-- R281. Three intervals in a row without the frame's return on a port. -/
def execRingOpen (s : State) : Host.Outcome State Fault Refusal :=
  let m := fun (k : Nat) => 3 ≤ (s.port k).superMiss
  if s.nt.ringOpen || !(m 0 || m 1) then .next s
  else
    let p := if m 0 && m 1 then 0xFF else if m 0 then 0 else 1
    let l := if p == 0xFF then Config.freeNat s.free else (s.port p).link
    .next ((((s.onNt fun n => { n with ringOpen := true }).irq 5).log 0x0B03 (le 1 p ++ le 1 l)).drew 1)

/-! ### Host frames (R293) -/

/-- Ports from which a host frame leaves (Tables 12-2 and 12-4). -/
def hostPorts (s : State) (ports : Nat) (frame : List Byte) : Nat :=
  if s.nt.mode == 2 then 1
  else if ports != 0 then ports
  else if s.nt.mode == 0 then 3
  else linePorts s (some (beAt frame 0 6))

def opNetTx : Op := { code := 0x0B01, fixed := 2 }

/-- R293, R264, Table 12-4. -/
def execNetTx (h : Hdr) (ports flags id : Nat) (frame : List Byte) (s : State) : Host.Outcome State Fault Refusal :=
  .next (serve opNetTx h (h.len == 4 + frame.length && 14 ≤ frame.length && frame.length ≤ 1514)
    (fun s => [(!bitAt flags 0 && s.lk.hushed, .hushed), (3 < ports || 1 < flags, .valueRange)])
    (fun s =>
      let stamp := bitAt flags 0
      ⟨s.sendFrame { rawFrame (if stamp then 7 else 0) .host frame (hostPorts s ports frame) with
          tsId := if stamp then some id else none, stepMark := s.te.stepsAccepted }, .ok, zeros 2⟩) s)

def opNetRxRead : Op := { code := 0x0B02, fixed := 18 }

/-- R293, Table 12-5. -/
def execNetRxRead (h : Hdr) (s : State) : Host.Outcome State Fault Refusal :=
  .next (serve opNetRxRead h (h.len == 0) (fun _ => [])
    (fun s =>
      match s.nt.rxQueue with
      | [] => ⟨s, .ok, zeros 14 ++ le 4 s.nt.rxLost⟩
      | f :: r => ⟨s.onNt fun n => { n with rxQueue := r }, .ok,
          le 1 f.port ++ zeros 1 ++ le 10 (time80 f.time) ++ zeros 2 ++ le 4 s.nt.rxLost ++ f.bytes⟩) s)

/-- R283. The reply to the broadcast IDENTIFY that has waited longest leaves NODE × 250 µs (32,000 TIME cycles) after it. -/
def execIdentifyBroadcastReply (s : State) : Host.Outcome State Fault Refusal :=
  match s.nt.idents with
  | [] => .next s
  | (clk, addr, udpPort, tag) :: r =>
    if s.nt.up && 2 ≤ s.pw.stage && s.after clk (32000 * s.nt.node) then
      .next ((s.onNt fun n => { n with idents := r }).sendFrame
        (udpFrame s 7 .reply (addr, udpPort) 47310 (packet 0x81 tag 0x0101 s.nt.node (le 2 0 ++ identifyBytes s))))
    else .next s

end Sys2Proof.Machine
end

