-- ==== Sys2Proof/Machine/HostIf.lean ====
section
/-! DEFINITION. Host interface commands (chapter 13). A frame on the host interface arrives as its bytes, and whatever it holds is
received; the rows differ in what such a frame holds (assumption 122). -/

namespace Sys2Proof.Machine

/-! ### Hush (R312 to R314) -/

/-- R312, R313, R294, Table 13-8. -/
def execHush (via : HushIn) (s : State) : Host.Outcome State Fault Refusal :=
  match via with
  | .host frame => .next (s.hostFrame frame)
  | .network port frame => .next (s.receive port frame)

def opResume : Op := { code := 0x0111, minStage := 1, fixed := 6 }

/-- R312, R314, Table 13-8. A RESUME over the network comes by the normal command path (R294). -/
def execResume (via : ResumeIn) (s : State) : Host.Outcome State Fault Refusal :=
  match via with
  | .host frame => .next (s.hostFrame frame)
  | .network h => .next (serve opResume h true (fun _ => [])
      (fun s => let s1 := s.resume 4; ⟨s1, .ok, zeros 2 ++ le 4 (hushWord s1)⟩) s)

/-! ### Direct frames (R297 to R300, R306, R316, R317, R371) -/

/-- R300, R306. -/
def execDirectWrite (frame : List Byte) (s : State) : Host.Outcome State Fault Refusal := .next (s.hostFrame frame)

/-- R299, R306, R317. -/
def execSnapGroupLatch (frame : List Byte) (s : State) : Host.Outcome State Fault Refusal := .next (s.hostFrame frame)

/-- R371, R372, R374. -/
def execCalendarStageWrite (frame : List Byte) (s : State) : Host.Outcome State Fault Refusal := .next (s.hostFrame frame)

/-- R371, R372, R374. -/
def execCalendarSecCommit (frame : List Byte) (s : State) : Host.Outcome State Fault Refusal := .next (s.hostFrame frame)

/-- R317. A latch is released 2 ms after latching. -/
def execSnapLatchTimeout (calendar : Bool) (s : State) : Host.Outcome State Fault Refusal :=
  .next (s.onLk fun l =>
    if calendar then { l with calLatch := calLatched s }
    else { l with timeLatch := timeLatched s })

/-! ### Packet frames (R301 to R309) -/

/-- R301 to R305, R308. -/
def execSpiPacketFrame (frame : List Byte) (s : State) : Host.Outcome State Fault Refusal := .next (s.hostFrame frame)

/-- The next frame of the UART: a direct reply, else a control reply, else a bulk reply unless hushed (R307). -/
def Link.nextLine (l : Link) (clk : Nat) : Link :=
  match l.directOut, l.ctrlOut, l.bulkOut with
  | p :: r, _, _ => { l with directOut := r, line := some (false, cobs p ++ [0], clk) }
  | [], p :: r, _ => { l with ctrlOut := r, line := some (false, cobs p ++ [0], clk) }
  | [], [], p :: r => if l.hushed then l else { l with bulkOut := r, line := some (true, cobs p ++ [0], clk) }
  | [], [], [] => l

/-- R307, R305. The UART has sent the frame in transmission, and starts its next. -/
def execUartFrameTransmit (s : State) : Host.Outcome State Fault Refusal :=
  if s.pw.stage == 0 || !s.pw.hsel then .next s
  else .next (s.landed.onLk fun l =>
    ({ l with sent := match l.line with
                | some (_, bs, _) => bs
                | none => l.sent, line := none }).nextLine s.clk)

/-! ### Requests that no opcode carries out -/

/-- R335, R321. An opcode that its lane does not accept; the reply carries STATUS alone. An opcode that it accepts has its own row. -/
def execUnknownOpcode (h : Hdr) (opcode : Nat) (s : State) : Host.Outcome State Fault Refusal :=
  if acceptedOpcode h.bulk opcode then .fault .malformedCommand
  else .next (serve { code := opcode, bulk := some (!h.bulk), minStage := 2, fixed := 0 } h true (fun _ => [])
    (fun s => ⟨s, .unknownOpcode, []⟩) s)

/-- Bytes of the fixed part of each opcode's reply after STATUS (R321), by opcode. -/
def fixedParts : List (Nat × Nat) :=
  [(0x0101, 46), (0x0102, 6), (0x0103, 2), (0x0104, 2), (0x0105, 2), (0x0106, 10), (0x0107, 2), (0x0108, 2), (0x0120, 4),
   (0x0121, 2), (0x0201, 14), (0x0202, 2), (0x0203, 2), (0x0301, 6), (0x0302, 6), (0x0303, 6), (0x0304, 6), (0x0305, 6),
   (0x0310, 2), (0x0311, 2), (0x0320, 2), (0x0321, 2)] ++
  [(0x0401, 6), (0x0402, 6), (0x0410, 18), (0x0411, 6), (0x0412, 2), (0x0501, 18), (0x0502, 6), (0x0503, 6), (0x0601, 34),
   (0x0602, 2), (0x0701, 22), (0x0702, 2), (0x0703, 2), (0x0704, 10), (0x0705, 6), (0x0710, 18), (0x0720, 6), (0x0801, 26),
   (0x0802, 14), (0x0901, 6), (0x0902, 2), (0x0903, 6), (0x0904, 2), (0x0905, 2), (0x0906, 6)] ++
  [(0x0A01, 30), (0x0A02, 6), (0x0A10, 194), (0x0B01, 2), (0x0B02, 18), (0x0C01, 6), (0x0C02, 6), (0x0D01, 42), (0x0E01, 6),
   (0x0E10, 2), (0x0E11, 6), (0x0E12, 2), (0x0E13, 18), (0x0E20, 6), (0x0E21, 2), (0x0F01, 6), (0x0F02, 6)]

/-- R322, R323, Table 18-8. The owner gave no answer: the interpreter replies INTERNAL_FAULT, and the Warden logs opcode, TAG
and owner. -/
def execOwnerAnswerTimeout (h : Hdr) (opcode owner : Nat) (s : State) : Host.Outcome State Fault Refusal :=
  if s.pw.stage < 2 then .next s
  else
    let s1 := (s.answer h opcode .internalFault (zeros ((fixedParts.lookup opcode).getD 0))).log 0x0107
      (le 2 opcode ++ le 1 h.tag ++ le 1 owner)
    .next (if 3 ≤ s.pw.stage then s1.trialFail 0 else s1)

end Sys2Proof.Machine
end

