-- ==== Sys2Proof/Machine/ParamOps.lean ====
section
/-! DEFINITION. The pending set (R326, R327, R332): the checks of one write, and the members that DEFAULTS stages. -/

namespace Sys2Proof.Machine

/-! ### One write -/

/-- Conditions of a write that its member's own rule adds: SOURCE (R63) and LEAP (Table 11-14). -/
def writeOk (s : State) (id v : Nat) : Bool :=
  !(pFam id == 16 && pMem id == 1 && v != 0 && channelUsed (future s) (pInst id)) &&
  !(id == 0x380E && par s 0x3800 == 1)

/-- OSF_CLEAR and AL_ACK act at LOCK (R23, R374). -/
def actsAtLock (id : Nat) : Bool := id == 0x4005 || (pFam id == 27 && pMem id == 4)

/-- What a write to a write-only member does: REF_REBASE, OSF_CLEAR, AL_ACK. -/
def State.woAct (s : State) (id : Nat) : State :=
  if id == 0x1804 then s.onRef fun r => { r with rebase := true }
  else if id == 0x4005 then (osfClearAct s).1
  else if pFam id == 27 && pMem id == 4 then s.alAck (pInst id)
  else s

/-- The status of a write of bytes to a member, in the order of R323; none when it is accepted. -/
def writeStatus (s : State) (h : Hdr) (id : Nat) (value : List Byte) : Option Status :=
  let v := leVal value
  match memberOf id with
  | none => firstFail [(locked s, .locked), (true, .badParamId)]
  | some d =>
    firstFail [(ownerAbsent s id, .notInStage), (value.length != d.ty.size, .badLength),
      (locked s && !actsAtLock id, .locked), (d.acc == .rwp && !canWrite s h.path 2, .authFail),
      (d.acc == .ro, .readOnly),
      (!valueOk id v d || !writeOk s id v || (id == 0x4005 && (osfClearAct s).2 != .ok), .valueRange),
      (d.acc == .rws && blockRuns s id, .stopRequired)]

/-- Members that a list of writes adds to the pending set. -/
def addedIds (s : State) (ids : List Nat) : Nat :=
  (ids.eraseDups.filter (fun i => !(s.pr.pending.any (·.1 == i)) && ((memberOf i).map (·.acc)) != some .wo)).length

/-- Stage a member, or act where it is write-only (R327, Table 14-4). -/
def State.stageMember (s : State) (id : Nat) (value : List Byte) : State :=
  if (memberOf id).map (·.acc) == some .wo then s.woAct id
  else s.onPr fun p => { p with pending := assocSet p.pending id (leVal value) }

/-! ### Defaults (R332) -/

/-- The members that DEFAULTS stages with a scope, with their values: a PMU identity code is computed from the node number in
force, and UTC_OFFSET is what the Pioneer record holds (R248, R250, R332). -/
def defaultSet (s : State) (scope : Nat) : List (Nat × Nat) :=
  let s0 := s.onPr fun p => { p with applied := [], idNode := none }
  ((List.range 31).flatMap fun f => (List.range (famInsts f)).flatMap fun i => (famMembers f).filterMap fun d =>
    let id := pid f i d.member
    let go := d.acc == .rw || (d.acc == .rws && !blockRuns s id) || (d.acc == .rwp && scope == 1)
    let stored := match d.rst with
      | .otp => true
      | .p0 _ => true
      | .held => true
      | _ => false
    if go && !stored then some (id, if d.rst == .pioneer then parCommitted s id else parReset s0 id) else none)

end Sys2Proof.Machine
end

