-- ==== Sys2Proof/Machine/Params.lean ====
section
/-! DEFINITION. System opcodes (chapter 14, R327 to R334): NOP, IDENTIFY, parameter access, the commit, defaults, stage and restart. -/

namespace Sys2Proof.Machine

def opNop : Op := { code := 0x0100, bulk := none, minStage := 2, fixed := 0 }
def opIdentify : Op := { code := 0x0101, minStage := 2, fixed := 46 }
def opGetParam : Op := { code := 0x0102, minStage := 2, fixed := 6 }
def opSetParam : Op := { code := 0x0103, minStage := 2, fixed := 2 }
def opGetParams : Op := { code := 0x0104, minStage := 2, fixed := 2 }
def opSetParams : Op := { code := 0x0105, minStage := 2, fixed := 2, fill := le 2 0xFFFF }
def opCommit : Op := { code := 0x0106, minStage := 2, fixed := 10, fill := commitBytes 0xFFFF 0 0 }
def opDefaults : Op := { code := 0x0107, fixed := 2 }
def opDiscard : Op := { code := 0x0108, minStage := 2, fixed := 2 }
def opGetStage : Op := { code := 0x0120, minStage := 2, fixed := 4 }
def opSoftRestart : Op := { code := 0x0121, fixed := 2 }

/-- Table 14-5. -/
def execNop (h : Hdr) (params : List Byte) (s : State) : Host.Outcome State Fault Refusal :=
  .next (serve opNop h (params.length ≤ 4078) (fun _ => []) (fun s => ⟨s, .ok, params⟩) s)

/-- A broadcast IDENTIFY waits for its delay before it is answered (R283). -/
def State.holdIdentify (s : State) (h : Hdr) : State :=
  match h.bcast, h.path with
  | true, .net a p => s.onNt fun n => { n with idents := n.idents ++ [(s.clk, a, p, h.tag)] }
  | _, _ => s

/-- Table 14-5, R333. A broadcast is answered by IDENTIFY_BROADCAST_REPLY after its delay (R283). -/
def execIdentify (h : Hdr) (s : State) : Host.Outcome State Fault Refusal :=
  .next (serve opIdentify h (h.len == 0) (fun _ => []) (fun s => ⟨s.holdIdentify h, .ok, identifyBytes s⟩) s)

/-! ### Reads (Tables 14-6 and 14-7) -/

/-- Status and value of a read in the order of R323. -/
def readStatus (s : State) (id which : Nat) : Status × Nat :=
  if ownerAbsent s id && (memberOf id).isSome then (.notInStage, 0) else readMember s id which

/-- R333, Table 14-6. -/
def execGetParam (h : Hdr) (id which : Nat) (s : State) : Host.Outcome State Fault Refusal :=
  .next (serve opGetParam h (h.len == 4) (fun _ => [])
    (fun s =>
      match readStatus s id which, memberOf id with
      | (.ok, v), some d => ⟨s, .ok, le 2 id ++ le 1 d.ty.code ++ le 1 d.acc.code ++ zeros 2 ++ le d.ty.size v⟩
      | (st, _), _ => refuse s opGetParam st) s)

/-- One item of GET_PARAMS; an item that is refused has TYPE 0 and SIZE 0. -/
def readItem (s : State) (which id : Nat) : List Byte :=
  match readStatus s id which, memberOf id with
  | (.ok, v), some d => le 2 id ++ le 2 0 ++ le 1 d.ty.code ++ le 1 d.ty.size ++ zeros 2 ++ pad4 (le d.ty.size v)
  | (st, _), _ => le 2 id ++ le 2 st.code ++ zeros 4

/-- R333, Table 14-7. -/
def execGetParams (h : Hdr) (form which count first : Nat) (ids : List Nat) (s : State) :
    Host.Outcome State Fault Refusal :=
  .next (serve opGetParams h
    (if form == 0 then h.len == 4 + 2 * count && ids.length == count else form != 1 || h.len == 8)
    (fun _ => [(1 < form || 3 < which || count == 0 || 200 < count || (form == 1 && 0x10000 < first + count), .valueRange)])
    (fun s =>
      let l := if form == 0 then ids else (List.range count).map (first + ·)
      ⟨s, .ok, le 2 count ++ l.flatMap (readItem s which)⟩) s)

/-! ### Writes (R327) -/

/-- R327, Table 14-6. -/
def execSetParam (h : Hdr) (id : Nat) (value : List Byte) (s : State) : Host.Outcome State Fault Refusal :=
  .next (serve opSetParam h (h.len == 4 + value.length) (fun _ => [])
    (fun s =>
      match writeStatus s h id value with
      | some st => refuse s opSetParam st
      | none =>
        if 2048 < s.pr.pending.length + addedIds s [id] then refuse s opSetParam .queueFull
        else ⟨s.stageMember id value, .ok, le 2 id⟩) s)

/-- The first item that fails, with its index and status. -/
def firstBad (s : State) (h : Hdr) : Nat → List (Nat × List Byte) → Option (Nat × Status)
  | _, [] => none
  | k, e :: r =>
    match writeStatus s h e.1 e.2 with
    | some st => some (k, st)
    | none => firstBad s h (k + 1) r

/-- Length of a SET_PARAMS request with these items. -/
def itemsLength (items : List (Nat × List Byte)) : Nat := items.foldl (fun a e => a + 4 + (pad4 e.2).length) 4

/-- Statuses that R323 tests before the range of a field. -/
def beforeRange (st : Status) : Bool := st == .notInStage || st == .badLength || st == .locked || st == .authFail

/-- R327, R333, Table 14-7. Every item is checked before any is staged; INDEX is 0xFFFF where no item fails. An item's NOT_IN_STAGE,
BAD_LENGTH, LOCKED or AUTH_FAIL comes before the range of COUNT (R323). -/
def execSetParams (h : Hdr) (count : Nat) (items : List (Nat × List Byte)) (s : State) : Host.Outcome State Fault Refusal :=
  .next (serve opSetParams h true (fun _ => [])
    (fun s =>
      if h.len != itemsLength items || items.length != count then ⟨s, .badLength, le 2 0xFFFF⟩
      else match (firstBad s h 0 items).filter (fun e => (1 ≤ count && count ≤ 200) || beforeRange e.2) with
      | some (k, st) => ⟨s, st, le 2 k⟩
      | none =>
        if count == 0 || 200 < count then ⟨s, .valueRange, le 2 0xFFFF⟩
        else if 2048 < s.pr.pending.length + addedIds s (items.map (·.1)) then ⟨s, .queueFull, le 2 0xFFFF⟩
        else ⟨items.foldl (fun x e => x.stageMember e.1 e.2) s, .ok, le 2 0xFFFF⟩) s)

/-! ### Commit (R328 to R331) -/

/-- A COMMIT_PARAMS that the interpreter accepts and that a commit will answer (R328). -/
def commitGoes (s : State) (h : Hdr) : Bool :=
  2 ≤ s.pw.stage && authentic s h && !consoleAbsent s h && !streamFull s h && !consoleShort s h 0x0106 && !h.bulk && h.len == 0 &&
    !h.more && !s.pr.pending.isEmpty && (commitFail s h).isNone

/-- R328 steps 1 to 3, R331. A set that passes is stored and answered at the instant of commit, which comes at row COMMIT or, as
R22 and R328 ask, before the next request is interpreted; an empty one is answered at once. -/
def execCommitParams (h : Hdr) (s : State) : Host.Outcome State Fault Refusal :=
  if commitGoes s.settled h then
    .next (((s.settled.secPass h).onLk fun l => { l with cmdAccepted := l.cmdAccepted + 1 }).onPr fun p => { p with committing := some h })
  else .next (serve opCommit h (h.len == 0) (fun _ => [])
    (fun s =>
      match commitFail s h with
      | some (st, i) => ⟨s, st, commitBytes i 0 0⟩
      | none => ⟨s, .ok, commitBytes 0xFFFF s.pr.commitSeq 0⟩) s)

/-- R328 steps 4 to 6, R329: the instant of commit of an accepted COMMIT_PARAMS, at which the OK reply enters the outbound
stream. Where no such request waits, or a later request has already brought the instant, nothing happens. -/
def execCommit (h : Hdr) (s : State) : Host.Outcome State Fault Refusal :=
  .next (if s.pr.committing == some h then s.finishCommit h else s)

/-! ### Defaults and discard -/

/-- R332, Table 14-8. -/
def execDefaults (h : Hdr) (scope : Nat) (s : State) : Host.Outcome State Fault Refusal :=
  .next (serve opDefaults h (h.len == 4)
    (fun s => [(locked s, .locked), (scope == 1 && !canWrite s h.path 2, .authFail), (1 < scope, .valueRange)])
    (fun s =>
      let l := defaultSet s scope
      ⟨s.onPr fun p => { p with pending := assocAll p.pending l }, .ok, le 2 l.length⟩) s)

/-- R333, Table 14-8. -/
def execDiscardParams (h : Hdr) (s : State) : Host.Outcome State Fault Refusal :=
  .next (serve opDiscard h (h.len == 0) (fun _ => [])
    (fun s => ⟨s.onPr fun p => { p with pending := [] }, .ok, le 2 s.pr.pending.length⟩) s)

/-! ### Stage and restart -/

/-- R28, Table 14-9. -/
def execGetStage (h : Hdr) (s : State) : Host.Outcome State Fault Refusal :=
  .next (serve opGetStage h (h.len == 0) (fun _ => []) (fun s => ⟨s, .ok, le 4 (stageWord s)⟩) s)

/-- R334, R55. The planned checkpoint is taken, and Canopy restarts at the next block boundary. A second request before it
causes no second restart. -/
def execSoftRestart (h : Hdr) (reason : Nat) (s : State) : Host.Outcome State Fault Refusal :=
  .next (serve opSoftRestart h (h.len == 4)
    (fun s => [(pfailing s, .powerFailing), (s.up.st != 0, .stopRequired)])
    (fun s =>
      if s.wd.restartReq.isSome then ⟨s, .ok, zeros 2⟩
      else ⟨(s.checkpoint s 0).onWd fun w => { w with restartReq := some (reason % 256) }, .ok, zeros 2⟩) s)

end Sys2Proof.Machine
end

