-- ==== Sys2Proof/Machine/Pmu.lean ====
section
/-! DEFINITION. Synchrophasor reports, changes, command frames and opcodes (R235 to R247). -/

namespace Sys2Proof.Machine

/-- Model clock at which 1/Fs has passed since a reporting instant (R285). -/
def frameEnd (s : State) (t : Nat) : Nat :=
  ((s.clk : Int) + ((t : Int) + (tickSec / Nat.max 1 (selNow s 1) : Nat) - (s.now : Int)) / 512000).toNat

/-- A report is completed: it is latched, its X records go to the queue and its data frame to the MAC, or its instant is counted
as skipped (R234, R235, R238 to R240, R245, R246). -/
def State.takeReport (s : State) (rep : ReportIn) : State :=
  let a := busFreq s rep 0
  let d := busFreq s rep 1
  let s1 := (s.pmuMissed (rep.t - 1) rep.t).onPm fun p =>
    { p with gapFrom := none, freqA := a.1, rocofA := a.2, freqB := d.1, rocofB := d.2, statA := statWord s rep 0, statB := statWord s rep 1,
             reportTime := time80 rep.t, phasors := (allPh s rep).map polar, lastReported := some rep.t,
             histIncomplete := rep.incomplete }
  let s2 := if s.qu.streaming && bitAt (selNow s 2) 1 then (s1.phasorRecords rep).drew 36 else s1
  if !s.pm.on then s2
  else if s.lk.hushed || !s.wd.canopyRunning || rep.incomplete || !s.nt.up || !netReaches s (pmuDst s).1 then
    s2.onPm fun p => { p with skipped := u32 (p.skipped + 1) }
  else
    (s2.onPm fun p => { p with waitEnd := p.waitEnd ++ [frameEnd s rep.t] }).sendFrame
      (udpFrame s 6 .phasor (pmuDst s) (selNow s 15) (dataFrame s rep))

/-- The report of an instant, with the PMU members in force at it (R244). -/
def State.reportAt (s : State) (x : Wave) (t : Nat) : State :=
  let v := viewOf s (pmuPhase s t)
  s.under (some v.pr.applied) fun y => y.takeReport (reportOf v x t)

/-- R228 to R235. The report for the next reporting instant, if the stream holds all that it rests on. -/
def execPhasorReport (s : State) : Host.Outcome State Fault Refusal :=
  if !s.pm.running then .next s
  else
    let s := s.pmuDue
    match reportDue s with
    | none => .next s
    | some (x, t) => .next (s.reportAt x t)

/-- R285. A phasor frame that is not admitted within 1/Fs of its reporting instant is dropped and counted; the oldest comes
first. -/
def execPhasorFrameDrop (s : State) : Host.Outcome State Fault Refusal :=
  match s.nt.waiting.findIdx? (fun f => f.kind == .phasor) with
  | none => .next s
  | some k =>
    if s.clk < s.pm.waitEnd.headD 0 then .next s
    else
      .next ((s.onNt fun n => { n with waiting := n.waiting.eraseIdx k }).onPm fun p =>
        { p with skipped := u32 (p.skipped + 1), waitEnd := p.waitEnd.drop 1 })

/-- R244. A reporting instant at which committed changes may take effect. -/
def execPmuConfigTakeEffect (s : State) : Host.Outcome State Fault Refusal := .next s.pmuDue

/-! ### Command frames (R243) -/

/-- A frame on the command port is accepted. -/
def cmdAccepted (s : State) (c : PmuCmdIn) : Bool :=
  s.nt.up && s.wd.canopyRunning && bitAt (selNow s 2) 2 && cmdIdcode c == selNow s 7 && cmdFrameOk c

/-- Count an accepted command. -/
def State.cmdCount (s : State) : State := s.onPm fun p => { p with cmdReceived := u32 (p.cmdReceived + 1) }

/-- Count an ignored command. -/
def State.cmdIgnore (s : State) : State := s.onPm fun p => { p with cmdIgnored := u32 (p.cmdIgnored + 1) }

/-- R243. Data off; a frame that is not accepted, or another command, changes nothing here. -/
def execPmuCmdDataOff (cmd : PmuCmdIn) (s : State) : Host.Outcome State Fault Refusal :=
  if cmdAccepted s cmd && cmdWord cmd == 1 then .next s.cmdCount.pmuStop
  else .next s

/-- R243. Data on acts as PMU_CONTROL start, and is ignored while hushed or without a destination. -/
def execPmuCmdDataOn (cmd : PmuCmdIn) (s : State) : Host.Outcome State Fault Refusal :=
  if cmdAccepted s cmd && cmdWord cmd == 2 then
    if s.lk.hushed || (pmuDst s).1 == 0 then .next s.cmdCount.cmdIgnore else .next s.cmdCount.pmuStart
  else .next s

/-- R243. CFG-2 goes to the command's source. -/
def execPmuCmdSendCfg2 (cmd : PmuCmdIn) (s : State) : Host.Outcome State Fault Refusal :=
  if cmdAccepted s cmd && cmdWord cmd == 5 then .next (s.cmdCount.sendCfg2 (cmd.addr, cmd.port)) else .next s

/-- R243. Any other command of an accepted frame is ignored and counted. -/
def execPmuCmdIgnored (cmd : PmuCmdIn) (s : State) : Host.Outcome State Fault Refusal :=
  if cmdAccepted s cmd && cmdWord cmd != 1 && cmdWord cmd != 2 && cmdWord cmd != 5 then .next s.cmdCount.cmdIgnore else .next s

/-! ### Opcodes (R247) -/

def opPmuRead : Op := { code := 0x0601, fixed := 34 }

/-- R247, Table 10-10. -/
def execPmuRead (h : Hdr) (first count : Nat) (s : State) : Host.Outcome State Fault Refusal :=
  .next (serve opPmuRead h (h.len == 4)
    (fun _ => [(125 < first || count == 0 || 126 < count || 126 < first + count, .valueRange)])
    (fun s => ⟨s, .ok, le 2 s.pm.statA ++ le 2 s.pm.statB ++ zeros 2 ++ le 10 s.pm.reportTime ++ zeros 2 ++ le 4 s.pm.freqA ++
      le 4 s.pm.rocofA ++ le 4 s.pm.freqB ++ le 4 s.pm.rocofB ++
      ((s.pm.phasors.drop first).take count).flatMap (fun p => le 4 p.1 ++ le 4 p.2)⟩) s)

def opPmuControl : Op := { code := 0x0602, fixed := 2 }

/-- R247, Table 10-11. -/
def execPmuStart (h : Hdr) (badAction : Bool) (s : State) : Host.Outcome State Fault Refusal :=
  .next (serve opPmuControl h (h.len == 4)
    (fun s => [(s.lk.hushed && !badAction, .hushed), (badAction || (pmuDst s).1 == 0, .valueRange)])
    (fun s => ⟨s.pmuStart, if s.pm.on || 4 ≤ s.pw.stage then .ok else .pending, zeros 2⟩) s)

/-- R247. Stop ends output and a start that waits. -/
def execPmuStop (h : Hdr) (s : State) : Host.Outcome State Fault Refusal :=
  .next (serve opPmuControl h (h.len == 4) (fun _ => [])
    (fun s => ⟨s.pmuStop, .ok, zeros 2⟩) s)

/-- R247. -/
def execPmuSendCfg2 (h : Hdr) (s : State) : Host.Outcome State Fault Refusal :=
  .next (serve opPmuControl h (h.len == 4) (fun s => [((pmuDst s).1 == 0, .valueRange)])
    (fun s => ⟨s.sendCfg2 (pmuDst s), .ok, zeros 2⟩) s)

end Sys2Proof.Machine
end

