-- ==== Sys2Proof/Machine/Update.lean ====
section
/-! DEFINITION. Updates: UPDATE_BEGIN, UPDATE_DATA, UPDATE_FINISH, UPDATE_STATUS, the safe point and the trial (R418 to R425). -/

namespace Sys2Proof.Machine

/-! ### UPDATE_BEGIN and UPDATE_DATA -/

/-- Maximum LENGTH by kind (Table 18-7). -/
def kindMax : List Nat := [3670016, 516096, 393216, 126976, 480, 32768, 2032]

/-- Step 1 of R419; a display layout has exactly 480 bytes (R447). DEVICE_ID is 0x3640, revision 0x0A01 (R337). -/
def headerBad (b : List Byte) : Bool :=
  fieldAt b 0 2 != 0x5550 || 6 < hdrKind b || kindMax.getD (hdrKind b) 0 < hdrLength b ||
  (hdrKind b == 4 && hdrLength b != 480) || fieldAt b 48 2 != 0x3640 || 0x0A01 < fieldAt b 50 2

def opUpdateBegin : Op := { code := 0x0E10, minStage := 2, warden := true, fixed := 2 }

/-- R419, R422, R424, R447. -/
def execUpdateBegin (h : Hdr) (header : List Byte) (s : State) : Host.Outcome State Fault Refusal :=
  .next (serve opUpdateBegin h (h.len == 192 && header.length == 192)
    (fun s => [(4 ≤ hdrKind header && locked s, .locked)])
    (fun s =>
      let k := hdrKind header
      let b := inactiveOf s k
      if headerBad header then ⟨s.updLog 0x0E06 header b 0x0105, .valueRange, zeros 2⟩
      else if s.up.st != 0 then refuse s opUpdateBegin .stopRequired
      else
        let s1 := s.onUp fun u => { u with st := if k < 4 then 1 else 2, header := header, payload := [], revert := none }
        if k < 4 then
          ⟨(s1.onRegion k b fun r => { Region.blank with act := r.act }).updLog 0x0E02 header b 0, .pending, zeros 2⟩
        else ⟨s1.updLog 0x0E02 header b 0, .ok, zeros 2⟩) s)

/-- R422. -/
def execUpdateEraseDone (s : State) : Host.Outcome State Fault Refusal :=
  if s.up.st == 1 then .next (s.onUp fun u => { u with st := 2 }) else .next s

def opUpdateData : Op := { code := 0x0E11, bulk := some true, minStage := 2, frag := true, warden := true, fixed := 6 }

/-- NEXT_OFFSET in a reply. -/
def nextOffset (s : State) : List Byte := zeros 2 ++ le 4 s.up.payload.length

/-- R422, R310. `params` are the PARAMS of this packet. -/
def execUpdateData (h : Hdr) (params : List Byte) (s : State) : Host.Outcome State Fault Refusal :=
  let msg := fragOf s h 0x0E11 ++ params
  .next (serve opUpdateData h (h.len == params.length && msg.length ≤ 65540 && (h.more || 5 ≤ msg.length)) (fun _ => [])
    (fun s =>
      if h.more then ⟨s.fragAdd h 0x0E11 params, .pending, nextOffset s⟩
      else
        let s := s.fragEnd h
        let n := s.up.payload.length
        if fieldAt msg 0 4 != n || (s.up.st == 2 && hdrLength s.up.header < n + (msg.length - 4)) then
          refuse s opUpdateData .valueRange
        else if s.up.st != 2 then refuse s opUpdateData .stopRequired
        else
          let s1 := s.onUp fun u => { u with payload := u.payload ++ msg.drop 4 }
          ⟨s1, .ok, nextOffset s1⟩) s)

/-! ### UPDATE_FINISH (R419, R420) -/

/-- The root-key hash that OTP holds under an index (R421). -/
def rootHash (idx : Nat) : List Byte := sha256 (fitBytes 64 (Config.rootKey idx))

/-- The signer key of R419 step 2: its SHA-256 is the root-key hash named; an owner key must equal the one in P0. -/
def signerOk (s : State) : Bool :=
  let b := s.up.header
  let idx := (byteAt b 3).toNat
  if idx < 4 then sha256 ((b.drop 64).take 64) == rootHash idx && hdrKind b < 4
  else idx == 0xFF && 4 ≤ hdrKind b && s.tp.owner == some ((b.drop 64).take 64)

/-- Step 4 of R419: the payload is complete and has the digest that the header gives. -/
def digestOk (s : State) : Bool :=
  sha256 s.up.payload == (s.up.header.drop 16).take 32 && s.up.payload.length == hdrLength s.up.header

/-- Steps 2 to 5 of R419 on the open package; `sigOk` says that the ECDSA signature verifies (assumption 3). -/
def verifyFail (s : State) (sigOk : Bool) : Option Status :=
  let b := s.up.header
  if !(signerOk s && sigOk && digestOk s) then some .authFail
  else if hdrKind b < 4 && hdrRollback b < s.up.rollback then some .valueRange
  else none

/-- A package fails verification: logged, and with AUTH_FAIL the source UPDATE_AUTH is raised (R419). -/
def State.verifyRefused (s : State) (st : Status) : State :=
  let s1 := if st == .authFail then s.tamperPulse 20 else s
  s1.updLog 0x0E06 s.up.header (inactiveOf s (hdrKind s.up.header)) st.code

/-- Members that a Pioneer record payload carries (Table 2-4), in ascending order of ID; a circuit lists its elements by number.
-/
def recordMembers (b : List Byte) : List (Nat × Nat) :=
  let byte := fun o => (byteAt b o).toNat
  let glob := [(0x1000, byte 0), (0x1002, fieldAt b 4 4), (0x380D, fieldAt b 2 2)]
  let chan := (List.range 36).flatMap fun n =>
    let o := 32 + 16 * n
    [(pid 16 n 0, byte o), (pid 17 n 0, fieldAt b (o + 4) 4), (pid 17 n 5, fieldAt b (o + 8) 4), (pid 16 n 3, fieldAt b (o + 12) 4)]
  let elem := (List.range 28).flatMap fun e =>
    let o := 928 + 4 * e
    [(pid 20 e 1, byte o), (pid 20 e 2, byte (o + 1)), (pid 20 e 0, byte (o + 3))]
  let circ := (List.range 28).flatMap fun c =>
    let l := (List.range 28).filter (fun e => byte (928 + 4 * e + 2) == c)
    (List.range 3).map (fun k => (pid 21 c k, l.getD k 0xFF))
  let biq := (List.range 8).filterMap fun k =>
    let o := 1040 + 44 * k
    let n := byte o
    if n < 36 && bitAt (byte (32 + 16 * n + 1)) 0 && bitsAt (byte (32 + 16 * n + 1)) 1 3 == k then
      some (pid 16 n 5, fieldAt b (o + 2) 2)
    else none
  let cf := (List.range 8).flatMap fun k =>
    let o := 1392 + 16 * k
    [(pid 26 k 0, byte o), (pid 26 k 1, byte (o + 1)), (pid 26 k 2, byte (o + 2)), (pid 26 k 3, byte (o + 3)),
     (pid 26 k 4, fieldAt b (o + 4) 8)]
  (glob ++ chan ++ elem ++ circ ++ biq ++ cf).foldl (fun a e => assocSet a e.1 e.2) []

/-- A request on the owner's authority: no session is asked of it. -/
def ownerHdr : Hdr := ⟨.host, 0, false, false, 0, false, none⟩

/-- The status that a list of members would meet as one commit (R328), apart from sessions. -/
def membersFail (s : State) (l : List (Nat × Nat)) : Option Status :=
  let s1 := (s.onPr fun p => { p with pending := l }).onSe fun e => { e with open_ := [⟨2, true, .host⟩] }
  (commitFail s1 ownerHdr).map (·.1)

/-- Commit a list of members; the host's own pending values stay as they are. -/
def State.commitMembers (s : State) (l : List (Nat × Nat)) : State × Bool :=
  let r := (s.onPr fun p => { p with pending := l }).commitAll
  (r.1.onPr fun p => { p with pending := s.pr.pending }, r.2)

/-- Channel and set of each entry of a kind-5 payload (R420); none when an entry is cut short. -/
def setList : Nat → List Byte → Option (List (Nat × List Byte))
  | _, [] => some []
  | 0, _ :: _ => none
  | fuel + 1, b :: r =>
    let set := (b :: r).drop 4
    let n := 48 + 4 * (byteAt set 0).toNat
    if set.length < n then none
    else (setList fuel (set.drop n)).map (fun l => (b.toNat, set.take n) :: l)

/-- The sets of a kind-5 payload one after another, each as a FILTER_LOAD with KEEP (R142, R146): the state, or the status of
the first that is refused. -/
def loadSets (s : State) : List (Nat × List Byte) → State × Option Status
  | [] => (s, none)
  | (c, bs) :: r =>
    let f := s.filt c
    if 35 < c || setBad bs || keepFull s c bs then (s, some .valueRange)
    else if f.swap.isSome || f.held.isSome ||
        (!f.stopped && ((s.stand (standOf c)).st == 3 || chanSource s c != 0)) then (s, some .stopRequired)
    else
      match s.keepPut c bs with
      | (s1, false) => (s1, some .internalFault)
      | (s1, true) =>
        loadSets (if f.stopped then s1.writeBankA c (coefSet bs) true
          else s1.onFilt c fun g => { g with load := some (coefSet bs, true) }) r

/-- A verified package of kinds 4 to 6 is applied: the state, or the status with which it is refused (R420, R447). -/
def applyPackage (s : State) : State × Option Status :=
  let k := hdrKind s.up.header
  let b := s.up.payload
  if k == 4 then
    match s.storeLayout b with
    | (s1, true) => (s1.onHm fun m => { m with layoutNext := layoutRead s1 }, none)
    | (s1, false) => (s1, some .internalFault)
  else if s.pw.stage < 3 then (s, some .notInStage)
  else if k == 5 then
    match setList 700 b with
    | none => (s, some .valueRange)
    | some l =>
      match loadSets s l with
      | (s1, some .internalFault) => (s1, some .internalFault)
      | (_, some st) => (s, some st)
      | r => r
  else
    let l := recordMembers b
    match membersFail s l with
    | some st => (s, some st)
    | none =>
      match s.commitMembers l with
      | (s1, true) => (s1, none)
      | (s1, false) => (s1, some .internalFault)

def opUpdateFinish : Op := { code := 0x0E12, minStage := 2, warden := true, fixed := 2 }

/-- UPDATE_STATE in a reply. -/
def updateBytes (s : State) : List Byte := le 1 s.up.st ++ zeros 1

/-- R419, R420, R422, R55. The planned checkpoint is taken before a Canopy update. -/
def execUpdateActivate (h : Hdr) (badAction sigOk : Bool) (s : State) : Host.Outcome State Fault Refusal :=
  .next (serve opUpdateFinish h (h.len == 4)
    (fun s => [(!badAction && s.up.st != 0 && 4 ≤ hdrKind s.up.header && locked s, .locked), (badAction, .valueRange),
      (s.up.st != 2 && s.up.st != 3, .stopRequired)])
    (fun s =>
      match verifyFail s sigOk with
      | some st => refuse (s.verifyRefused st) opUpdateFinish st
      | none =>
        let k := hdrKind s.up.header
        if k < 4 then
          let s1 := s.onUp fun u => { u with st := 4 }
          ⟨if k == 0 then s1.checkpoint s1 0 else s1, .pending, updateBytes s1⟩
        else
          match applyPackage s with
          | (s1, some st) => refuse s1 opUpdateFinish st
          | (s1, none) =>
            let s2 := (s1.updLog 0x0E03 s.up.header 0 0).updIdle
            ⟨s2, .ok, updateBytes s2⟩) s)

/-- R419, R422. -/
def execUpdateVerify (h : Hdr) (sigOk : Bool) (s : State) : Host.Outcome State Fault Refusal :=
  .next (serve opUpdateFinish h (h.len == 4) (fun s => [(s.up.st != 2 && s.up.st != 3, .stopRequired)])
    (fun s =>
      match verifyFail s sigOk with
      | some st => refuse (s.verifyRefused st) opUpdateFinish st
      | none =>
        let s1 := s.onUp fun u => { u with st := 3 }
        ⟨s1, .ok, updateBytes s1⟩) s)

/-- R424. An update in TRIAL is not aborted; with none open nothing changes. -/
def execUpdateAbort (h : Hdr) (s : State) : Host.Outcome State Fault Refusal :=
  .next (serve opUpdateFinish h (h.len == 4) (fun s => [(s.up.st == 5, .stopRequired)])
    (fun s =>
      let s1 := s.abandonUpdate
      ⟨s1, .ok, updateBytes s1⟩) s)

def opUpdateStatus : Op := { code := 0x0E13, minStage := 2, warden := true, fixed := 18 }

/-- Table 18-9. -/
def execUpdateStatus (h : Hdr) (s : State) : Host.Outcome State Fault Refusal :=
  .next (serve opUpdateStatus h (h.len == 0) (fun _ => [])
    (fun s => ⟨s, .ok, le 1 s.up.st ++ le 1 (updateKind s) ++ le 4 (hdrVersion s.up.header) ++ le 4 s.up.payload.length ++
      le 2 (trialRemain s) ++ zeros 2 ++ le 4 (banksWord s)⟩) s)

/-! ### Safe point and trial (R422, R423) -/

/-- Canopy is restarting, or about to, for another cause than this update. -/
def otherRestart (s : State) : Bool :=
  let w := s.wd
  let mine := s.up.revert.isSome && hdrKind s.up.header == 0
  !mine && (w.restartReq.isSome || w.restartUnplanned ||
    (!w.canopyRunning && w.canopyRestarts != 0 && s.pw.bootFault != 4))

/-- The switch may be taken now (R422). -/
def safeNow (s : State) : Bool := !s.pw.pfail && ladder s != 3 && s.wd.running && !otherRestart s

/-- The region of the open package goes into TRIAL with the next activation number, and the kind switches. The trial count that
it starts with is a free value. -/
def State.startTrial (s : State) : State :=
  let hd := s.up.header
  let k := hdrKind hd
  let b := inactiveOf s k
  let n := Nat.max (regionsOf s k).1.act (regionsOf s k).2.act + 1
  let s1 := (s.onRegion k b fun _ => ⟨1, n, Config.freeNat s.free % 256, hdrVersion hd, hdrRollback hd, true⟩).onUp fun u =>
    { u with st := 5, trialClk := s.clk }
  ((s1.drew 1).switchKind k 1 0).updLog 0x0E03 hd b 0

/-- The previous region is switched back, unless it runs already, and the update ends (R423, R425). -/
def State.revertTrial (s : State) (cause : Nat) : State :=
  let hd := s.up.header
  let k := hdrKind hd
  let s1 := if (region s k (activeOf s k)).st == 3 then s.switchKind k 3 2 else s
  (s1.updLog 0x0E05 hd (activeOf s1 k) cause).updIdle

/-- No checkpoint that began before this instant is still in progress: the planned one is complete (R55). -/
def plannedDone (s : State) : Bool := s.hw.ckpt.all fun c => fieldAt c.image 16 10 == s.now80

/-- The safe point of a kind (Table 18-7): a block boundary, for kind 0 once the planned checkpoint is complete, for kind 1 with no
commit in progress; for microcode any frame boundary. -/
def safePoint (s : State) (kind : Nat) : Bool :=
  kind == 2 || (atBlock s && (kind != 0 || plannedDone s) && (kind != 1 || s.pr.committing.isNone))

/-- R422, R423. -/
def execUpdateSafePoint (s : State) : Host.Outcome State Fault Refusal :=
  if !safeNow s || !safePoint s (hdrKind s.up.header) then .next s
  else match s.up.revert with
    | some c => .next (s.revertTrial c)
    | none => if s.up.st == 4 then .next s.startTrial else .next s

/-- R423, Table 18-8. Canopy is not ready 400 ms after the switch. -/
def execTrialReadyTimeout (s : State) : Host.Outcome State Fault Refusal :=
  if s.wd.canopyRunning || !s.after s.up.trialClk (400 * cycMs) then .next s else .next (s.trialFail 0)

/-- Regions whose ROLLBACK_MIN is below ROLLBACK become REVOKED (R423). -/
def State.revokeBelow (s : State) (kb : Nat × Nat) : State :=
  let r := region s kb.1 kb.2
  if r.valid && r.st != 3 && r.rollbackMin < s.up.rollback then
    (s.onRegion kb.1 kb.2 fun x => { x with st := 3 }).log 0x0E07 (le 1 kb.1 ++ le 1 kb.2)
  else s

/-- All regions, by kind. -/
def allRegions : List (Nat × Nat) := (List.range 4).flatMap (fun k => [(k, 0), (k, 1)])

/-- R423. The trial is passed 60 s after the switch. -/
def execUpdateTrialEnd (s : State) : Host.Outcome State Fault Refusal :=
  if s.up.st == 5 && s.up.revert.isNone && s.after s.up.trialClk (60 * cycS) then
    let hd := s.up.header
    let k := hdrKind hd
    let s1 := (s.onRegion k (activeOf s k) fun r => { r with st := 2 }).onUp fun u =>
      { u with rollback := Nat.max u.rollback (satN 64 (hdrRollback hd)) }
    let s2 := s1.updLog 0x0E04 hd (activeOf s k) 0
    let s3 := if s.up.rollback < s2.up.rollback then allRegions.foldl State.revokeBelow s2 else s2
    .next s3.updIdle
  else .next s

end Sys2Proof.Machine
end

