-- ==== Sys2Proof/Machine/Transplant.lean ====
section
/-! DEFINITION. The books of a ledger copy taken up into both engines (R345, R429), and transplants: TRANSPLANT_EXPORT,
TRANSPLANT_IMPORT, building and applying a package (R427 to R429). -/

namespace Sys2Proof.Machine

/-! ### The books of a ledger copy (Table 15-3) -/

/-- Registers of 28 instances at an offset of a copy. -/
def booksAt (img : List Byte) (off n : Nat) (old : List Regs) : List Regs :=
  old.mapIdx fun i r => { r with e := regOfBytes img (off + 8 * n * i) n }

/-- The Pioneer totals of a copy. -/
def State.takeTotals (s : State) (img : List Byte) : State :=
  s.onMe fun m => { m with regElemP := booksAt img 48 2 m.regElemP, regCircP := booksAt img 496 2 m.regCircP }

/-- The full-engine registers, CF residues and maximum demands of a copy. -/
def State.takeRegisters (s : State) (img : List Byte) : State :=
  s.onMe fun m =>
    { m with regElemF := booksAt img 944 12 m.regElemF, regCircF := booksAt img 3632 12 m.regCircF,
             cfs := m.cfs.mapIdx fun k c =>
               { c with acc := (fieldAt img (6320 + 16 * k) 8 : Rat) + (fieldAt img (6328 + 16 * k) 4 : Rat) / two32,
                        ready := [], openE := [], openP := [] },
             circRun := m.circRun.mapIdx fun c r =>
               let o := 6448 + 32 * c
               { r with maxP := fieldAt img o 4, maxPTime := fieldAt img (o + 4) 10, maxS := fieldAt img (o + 14) 4,
                        maxSTime := fieldAt img (o + 18) 10 } }

/-- A stored sub-interval energy in 2^-32 units: whole µ-units of the stored Wh, varh or VAh (assumption 14). -/
def demandEnergy (w : Nat) : Nat := (ratOfF32 (w % 2 ^ 31) * 1000000 * two32).floor.toNat

/-- The demand state of a circuit in a copy (assumption 14). -/
def takeDemand (img : List Byte) (c : Nat) (r : CircRun) : CircRun :=
  let w := fun q k => fieldAt img (7344 + 256 * c + 64 * q + 4 * k) 4
  let n := (List.range 15).takeWhile (fun k => w 0 (k + 1) != 0xFFFFFFFF)
  { r with subNow := (List.range 4).map (fun q => demandEnergy (w q 0)), demHist := bitAt (w 0 0) 31,
           subs := n.map fun k => ((List.range 4).map (fun q => demandEnergy (w q (k + 1))), bitAt (w 0 (k + 1)) 31) }

/-- Demand and power-quality windows start fresh (R53). -/
def State.freshWindows (s : State) : State :=
  ((s.pqBegin none).onPq fun q => { q with agg := s.pq.agg, aggWait := s.pq.aggWait }).onMe fun m =>
    { m with circRun := m.circRun.map fun r => { r with subNow := [0, 0, 0, 0], subs := [], demHist := true } }

/-! ### TRANSPLANT_EXPORT (R428) -/

/-- An owner signature that the device accepts (R406). -/
def ownerSigned (s : State) (x : SigIn) : Bool := s.tp.owner.isSome && sigOk s x

def opExport : Op := { code := 0x0E20, bulk := some true, warden := true, fixed := 6 }

/-- TOTAL of the package held. -/
def totalBytes (s : State) : List Byte := zeros 2 ++ le 4 ((s.tx.package.map List.length).getD 0)

/-- R428, R406, R402. Without an identity key the package cannot be signed. -/
def execTransplantPrepare (h : Hdr) (badAction : Bool) (destId : Nat) (destPub : List Byte) (signature : SigIn)
    (s : State) : Host.Outcome State Fault Refusal :=
  .next (serve opExport h (badAction || h.len == 140)
    (fun s => [(!badAction && !(ownerSigned s signature && s.tp.identity.isSome), .authFail), (badAction, .valueRange),
      (!s.tp.trngOk, .internalFault)])
    (fun s =>
      let s1 := (s.newChallenge).onTx fun t => { t with prepare := some (destId % 2 ^ 64, fitBytes 64 destPub), package := none }
      ⟨s1, .pending, totalBytes s1⟩) s)

/-- The ledger copy of Bx: the routine checkpoint that the boundary has begun, or the last complete one. -/
def boundaryCopy (s : State) : Option (List Byte) :=
  match s.hw.ckpt with
  | some c => some c.image
  | none => (lastCheckpoint s).map (fun e => peek s (ledgerBase e.1) 16384)

/-- A section of the body with its length. -/
def section4 (bs : List Byte) : List Byte := le 4 bs.length ++ bs

/-- The plaintext body (R428). The fields of the summary stand packed in the order named. -/
def exportBody (s : State) (copy : List Byte) : List Byte :=
  let summary := le 2 s.nt.node ++ le 4 0x36400A01 ++ le 4 s.pr.commitSeq ++ le 4 (fieldAt copy 4 4) ++ le 4 (imageVer s 0) ++
    le 4 (imageVer s 1) ++ le 4 (imageVer s 2) ++ le 4 s.tp.clearings
  let items := s.pr.committed.flatMap fun e =>
    match memberOf e.1 with
    | some d => paramItem e.1 d.ty.size e.2
    | none => []
  section4 (fitBytes 256 summary) ++ section4 copy ++ section4 items ++
  section4 (s.hw.p2Sets.flatMap fun e => le 4 e.1 ++ e.2)

/-- The package of Table 18-10: ephemeral key and IV are TRNG bytes, ciphertext, tag and signature opaque (assumption 3). -/
def exportPackage (s : State) (dest : Nat) (pub copy : List Byte) : List Byte :=
  let body := exportBody s copy
  let free := freeBytes s 76
  let head := le 2 0x5450 ++ le 2 1 ++ uidBytes ++ le 8 dest ++ le 10 (time80 (pInstant s)) ++ zeros 2 ++
    identityPub (s.tp.identity.getD 0) ++ free ++ le 4 body.length
  let all := head ++ crypto 5 (body.length + 16) (pub ++ head ++ body)
  all ++ crypto 3 64 (le 8 (s.tp.identity.getD 0) ++ sha256 all)

/-- R428. The package is built at a block boundary, once it has begun its routine checkpoint. -/
def execTransplantPackageBuild (s : State) : Host.Outcome State Fault Refusal :=
  match s.tx.prepare, boundaryCopy s with
  | some (dest, pub), some copy =>
    .next <| if !atBlock s || s.me.blockEnd != time80 (pInstant s) then s
      else (((s.drew 76).onTx fun t => { t with prepare := none, package := some (exportPackage s dest pub copy) }).log 0x0E10
      (le 8 dest) [le 10 (time80 (pInstant s))])
  | _, _ => .next s

/-- R428, R313. -/
def execTransplantRead (h : Hdr) (offset maxBytes : Nat) (s : State) : Host.Outcome State Fault Refusal :=
  .next (serve opExport h (h.len == 12) (fun s => [(s.lk.hushed, .hushed), (maxBytes < 4 || 4064 < maxBytes, .valueRange)])
    (fun s => ⟨s, .ok, totalBytes s ++ ((s.tx.package.getD []).drop offset).take maxBytes⟩) s)

/-- R428. -/
def execTransplantDiscard (h : Hdr) (s : State) : Host.Outcome State Fault Refusal :=
  .next (serve opExport h (h.len == 4) (fun _ => [])
    (fun s =>
      let s1 := s.onTx fun t => { t with package := none }
      ⟨s1, .ok, totalBytes s1⟩) s)

/-! ### TRANSPLANT_IMPORT (R429) -/

/-- Section `n` of a plaintext body. -/
def bodySection : Nat → List Byte → List Byte
  | 0, b => (b.drop 4).take (fieldAt b 0 4)
  | n + 1, b => bodySection n (b.drop (4 + fieldAt b 0 4))

/-- Members and sets that a body brings, when its sections are whole. -/
def importParts (body : List Byte) : Option (List (Nat × Nat) × List (Nat × List Byte)) :=
  match itemList 3000 (bodySection 2 body), setList 700 (bodySection 3 body) with
  | some m, some l => if (bodySection 1 body).length == 16384 then some (m, l) else none
  | _, _ => none

/-- The sets that P2 would hold find no place there: more than 56 page pairs, or more than eight with biquads (R146, R343). -/
def setsFull (s : State) (l : List (Nat × List Byte)) : Bool :=
  let m := l.foldl (fun a e => setsWith a e.1 e.2) s.hw.p2Sets
  8 < (m.filter (fun e => 0 < setBiquads e.2)).length || 56 < pairsUsed m

/-- The members as one set, and the sets, pass their checks (R429, R328, R136, R343). -/
def importOk (s : State) (body : List Byte) : Bool :=
  match importParts body with
  | none => false
  | some (m, l) =>
    (membersFail s (m.foldl (fun a e => assocSet a e.1 e.2) [])).isNone && l.all (fun e => e.1 < 36 && !setBad e.2) && !setsFull s l

def opImport : Op := { code := 0x0E21, bulk := some true, frag := true, warden := true, fixed := 2 }

/-- R429, R310, R424. `params` are the PARAMS of this packet before the signature; `body` is the plaintext, when the GCM tag
verifies. -/
def execTransplantImport (h : Hdr) (params : List Byte) (body : Option (List Byte)) (signature : SigIn)
    (srcSigOk : Bool) (s : State) : Host.Outcome State Fault Refusal :=
  let msg := fragOf s h 0x0E21 ++ params
  .next (serve opImport h
    (h.more || ((fragOf s h 0x0E21).length + h.len == 68 + fieldAt msg 0 4 && 260 ≤ msg.length && msg.length == 4 + fieldAt msg 0 4))
    (fun s => if h.more then [] else
      [(pfailing s, .powerFailing), (locked s, .locked), (!ownerSigned s signature, .authFail),
       (fieldAt msg 4 2 != 0x5450 || fieldAt msg 6 2 != 1 || fieldAt msg 16 8 != Config.uniqueId % 2 ^ 64, .valueRange),
       (!srcSigOk || body.isNone, .authFail), (!(body.any (importOk s)), .valueRange),
       (!s.pr.pending.isEmpty || s.up.st != 0, .stopRequired)])
    (fun s =>
      if h.more then ⟨s.fragAdd h 0x0E21 params, .pending, zeros 2⟩
      else
        let s1 := ((s.fragEnd h).newChallenge).onTx fun t =>
          { t with importBody := body.map (fun b => (b, fieldAt msg 24 10)), srcId := fieldAt msg 8 8 }
        ⟨s1, .pending, zeros 2⟩) s)

/-- Log a circuit's registers that an import replaces. -/
def State.replacedLog (s : State) (c : Nat) : State :=
  let r := (s.me.regCircF.getD c (Regs.zero 12)).e
  if r.all (· / 2 ^ 32 == 0) then s
  else s.log 0x0E12 (le 1 c ++ zeros 1 ++ le 8 (r.getD 0 0 / 2 ^ 32)) [le 8 (r.getD 1 0 / 2 ^ 32)]

/-- A set of an import becomes the channel's committed bank A set, and is loaded as FILTER_LOAD with KEEP would (R142). -/
def State.importSet (s : State) (e : Nat × List Byte) : State :=
  let s1 := s.keepSet e.1 e.2
  if (s.filt e.1).stopped then s1.writeBankA e.1 (coefSet e.2) true
  else if (s.stand (standOf e.1)).st == 3 || chanSource s e.1 != 0 then s1
  else s1.onFilt e.1 fun f => { f with load := some (coefSet e.2, true) }

/-- R429. At Bi the replaced registers are logged, the books come in, sections 3 and 4 are committed and a routine checkpoint is
written. -/
def execTransplantApply (s : State) : Host.Outcome State Fault Refusal :=
  match s.tx.importBody with
  | none => .next s
  | some (body, bx) =>
    if !atBlock s then .next s else
    let (m, l) := (importParts body).getD ([], [])
    let s1 := (List.range 28).foldl State.replacedLog s
    let s2 := ((s1.takeTotals (bodySection 1 body)).takeRegisters (bodySection 1 body)).freshWindows
    let s3 := l.foldl State.importSet (s2.commitMembers (m.foldl (fun a e => assocSet a e.1 e.2) [])).1
    let s4 := s3.onTx fun t => { t with importBody := none, imported := true }
    .next ((s4.checkpoint s4 0).log 0x0E11 (le 8 s.tx.srcId) [le 10 bx])

end Sys2Proof.Machine
end

