-- ==== Sys2Proof/Machine/Power.lean ====
section
/-! DEFINITION. Supplies and power failure: the always-on domain (R368, R397, R436), PFAIL and its checkpoints (R49 to R51, R438),
the VCORE trip (R52), the restart delay (R441), checkpoints completing (R346) and POWER_STATUS. -/

namespace Sys2Proof.Machine

/-! ### The always-on domain -/

/-- Applied values that the always-on domain holds copies of: RTC, INPUT_CFG, TAMPER_SRC and UTC_OFFSET. -/
def aonKept (id : Nat) : Bool := pFam id == 8 || pFam id == 28 || id == 0x5006 || id == 0x380D

/-- What an AON brown-out loses (R368, R397, R439, R441): the calendar, the alarms, the ladder, the tamper buffer, the key store
and the copies of committed values. -/
def State.brownOut (s : State) : State :=
  let s1 := s.onRtc fun r =>
    ({ r with cal := Cal.powerUp, phase := 0, trimAcc := 0, trimLearned := 0, osfBrownOut := true, leap61 := false,
              leap59 := false, leapDoubled := false, alarms := List.replicate 4 Alarm.reset }).setOsf
  let s2 := s1.onTp fun t =>
    { t with slots := resetResponses.map (fun r => ⟨false, false, false, 0, 0, r, r, false, 0⟩), buffer := [], overflow := 0,
             clearPending := false, clearQueue := [], identity := none, keys := [] }
  let s3 := s2.onPw fun p => { p with aonPfail := (4200, 200, 20), restartDelayMs := 1, lastHoldupUs := 0xFFFFFFFF }
  s3.onPr fun p => { p with applied := p.applied.filter (fun e => !aonKept e.1) }

/-- R368, Table 2-1. -/
def execAonPowerUp (s : State) : Host.Outcome State Fault Refusal :=
  if s.pw.aonUp then .next (s.onPw fun p => { p with vbat := true })
  else
    .next ((s.onPw fun p => { p with aonUp := true, vbat := true }).onRtc fun r =>
      ({ r with cal := Cal.powerUp, phase := 0, trimAcc := 0 }).setOsf)

/-- R368. -/
def execAonBrownOut (s : State) : Host.Outcome State Fault Refusal :=
  if s.pw.aonUp then .next s.brownOut else .next s

/-! ### PFAIL (R49 to R51, R438) -/

/-- A power-fail checkpoint covers the registers with the open block (R49). -/
def State.failCheckpoint (s : State) : State :=
  (s.checkpoint (s.closeEngines (closing s)) 1).onPw fun p => { p with failClk := s.clk }

/-- R49, R438. The comparator works from the first microsecond; at stage 0 nothing runs that takes a checkpoint. -/
def execPfailAssert (s : State) : Host.Outcome State Fault Refusal :=
  if (s.pw.phase == .off && s.pw.stage == 0) || s.pw.pfail then .next s
  else
    let s1 := s.onPw fun p => { p with pfail := true, pfailCount := u32 (p.pfailCount + 1), pfailClk := s.clk }
    .next (if s.pw.stage == 0 then s1 else s1.failCheckpoint)

/-- R50, R438. The checkpoint is repeated every 1 ms; until PFAIL has been released since power-up, it is not. -/
def execPowerFailCheckpoint (s : State) : Host.Outcome State Fault Refusal :=
  if s.pw.stage != 0 && s.pw.pfail && s.pw.pfailReleased && s.after s.pw.failClk cycMs then .next s.failCheckpoint else .next s

/-- R51, R438. PFAIL_LAST_US gives an episode that began after power-up. -/
def execPfailRelease (s : State) : Host.Outcome State Fault Refusal :=
  if s.pw.phase == .off || !s.pw.pfail then .next s
  else
    .next (s.onPw fun p =>
      { p with pfail := false, pfailReleased := true,
               pfailLastUs := if p.pfailReleased then u32 ((s.clk - p.pfailClk) / 128) else p.pfailLastUs })

/-- R346. The checkpoint becomes the last complete one. CHECKPOINT_US is a free value. -/
def execCheckpointComplete (s : State) : Host.Outcome State Fault Refusal :=
  match s.hw.ckpt with
  | none => .next s
  | some c =>
    let copy := if c.base == ledgerBase false then 0 else 1
    let s1 := (s.ckptWritten c).onHw fun h => { h with ledger := some (copy, c.seq), ckptUs := Config.freeNat s.free % 65536 }
    .next ((s1.onPq fun q =>
      { q with saving := none, savedA := if copy == 0 then q.saving else q.savedA,
               savedB := if copy == 1 then q.saving else q.savedB }).drew 1)

/-! ### The VCORE trip (R52, R436, R441, R442) -/

/-- The restart delay after a trip: doubled, up to 128 ms, for a trip within 1 s of the previous start (R441). -/
def delayAfterTrip (s : State) : Nat :=
  if s.clk ≤ s.pw.startClk + 128000000 then satN 128 (2 * s.pw.restartDelayMs) else s.pw.restartDelayMs

/-- PFAIL to trip in AON ticks, as µs; unknown when PFAIL was not asserted since its release (Table 19-7). -/
def holdup (s : State) : Nat :=
  if s.pw.pfail && s.pw.pfailReleased then
    u32 (quant s 0 ((((s.clk - s.pw.pfailClk) * 32768 / 128000000 : Nat) : Rat) * 1000000 / 32768)).toNat
  else 0xFFFFFFFF

/-- Supplies after a trip. -/
def Power.tripped (s : State) : Power :=
  { Power.reset with aonUp := s.pw.aonUp, vbat := s.pw.vbat, aonPfail := s.pw.aonPfail, restartDelayMs := delayAfterTrip s,
                     restartWait := true, lastHoldupUs := holdup s, startClk := s.pw.startClk, tripClk := s.clk }

/-- The calendar after a trip: it counts on; what Warden and link hardware kept about it is gone. -/
def Rtc.tripped (r : Rtc) : Rtc :=
  { r with stMin := none, stHour := none, stDay := none, stMonth := none, stYear := none, following := false,
           slewing := false, slewLeft := 0, errorUs := 0x7FFFFFFF, steps := 0, stepDue := false, learn := none,
           alarms := r.alarms.map fun a =>
             { a with count := 0, missedCount := 0, seqWait := false, deferred := a.deferred && !a.seqWait } }

/-- The store after a trip: its bytes and its inverted bits. -/
def Heart.tripped (h : Heart) : Heart := { Heart.reset with mem := h.mem, flips := h.flips }

/-- Tamper state after a trip: latched sources, committed responses, the buffer and the key store stay in the always-on domain;
only the sources of slots 0, 1, 2 and 5 are judged from now on (R397, R399). -/
def Tamper.tripped (t : Tamper) : Tamper :=
  { Tamper.reset with
    slots := t.slots.mapIdx fun k x =>
      { x with active := x.active && (k < 3 || k == 5), persisting := false, count := 0, resp := x.aonResp },
    buffer := t.buffer, overflow := t.overflow, clearPending := t.clearPending || !t.clearQueue.isEmpty,
    clearQueue := t.clearQueue.map (fun j => { j with raises := [] }), identity := t.identity, keySerial := t.keySerial,
    keys := t.keys, erased := t.erased }

/-- Everything but the always-on domain, the store, the flash and OTP returns to its state before power (R52). What the model keeps
beside the store's bytes is the sums of checkpoints, whose layout is open (assumption 14), the phasor changes that wait, and the
node number of R248. -/
def State.tripped (s : State) : State :=
  { State.reset with
    pw := Power.tripped s, rtc := s.rtc.tripped, hw := s.hw.tripped,
    pr := { Params.reset with applied := s.pr.applied.filter (fun e => aonKept e.1), idNode := s.pr.idNode },
    tp := s.tp.tripped,
    up := { Update.reset with banks := s.up.banks, active := s.up.active, rollback := s.up.rollback },
    hm := { Hmi.reset with probe := s.hm.probe, cable := s.hm.cable },
    pq := { Pq.reset with savedA := s.pq.savedA, savedB := s.pq.savedB },
    pm := { Pmu.reset with changes := s.pm.changes },
    clk := s.clk, free := s.free, pending := s.pending }

/-- Writes that a trip may cut short (R330, R354): the checkpoint in progress, the last write, and those of a commit that has been
accepted. -/
def State.cutWrites (s : State) : State :=
  let s1 := match s.pr.committing with
    | some h =>
      let x := (s.finishCommit h).cutFlight
      (s.onHw fun _ => x.hw).drew (x.free - s.free)
    | none => s.cutFlight
  s1.cutCheckpoint

/-- R52, R354, R436, R441. Without VBAT the always-on domain browns out and stops too. -/
def execVcoreTrip (s : State) : Host.Outcome State Fault Refusal :=
  if s.pw.phase == .off || s.pw.phase == .started then .next s
  else
    let s1 := (s.cutWrites.tripped).drew 1
    if s.pw.vbat then .next s1 else .next (s1.brownOut.onPw fun p => { p with aonUp := false })

/-- R441. The delay returns to 1 ms after 10 s at stage 2 or above. -/
def execRestartDelayReset (s : State) : Host.Outcome State Fault Refusal :=
  if 2 ≤ s.pw.stage && s.pw.stage2At.any (s.after · (10 * cycS)) then .next (s.onPw fun p => { p with restartDelayMs := 1 }) else .next s

/-- R432. -/
def execBuckCurrentLimit (vcore : Bool) (s : State) : Host.Outcome State Fault Refusal :=
  .next (s.onPw fun p =>
    { p with limitVdd33 := p.limitVdd33 || (!vcore && p.buckVdd33), limitVcore := p.limitVcore || (vcore && p.buckVcore) })

/-! ### POWER_STATUS -/

def opPowerStatus : Op := { code := 0x0D01, minStage := 2, warden := true, fixed := 42 }

/-- Table 19-6. -/
def execPowerStatus (h : Hdr) (s : State) : Host.Outcome State Fault Refusal :=
  .next (serve opPowerStatus h (h.len == 0) (fun _ => [])
    (fun s => ⟨s, .ok, zeros 2 ++ le 4 (powerState s) ++ s.pw.supplies.flatMap (le 4) ++ le 2 s.pw.pInMw ++ zeros 2 ++
      le 4 s.pw.lastHoldupUs ++ le 4 s.pw.pfailCount⟩) s)

end Sys2Proof.Machine
end

