-- ==== Sys2Proof/Machine/Pq.lean ====
section
/-! DEFINITION. Power-quality events, windows, intervals, archive and read-out (R206 to R226). Each command that reports an end acts
where the stream, or the counter, has reached that end; what it computes comes from the stream. -/

namespace Sys2Proof.Machine

/-! ### What the engine does on its own -/

/-- R209 to R213. The next Urms(½) values of a bus; what bus A has up to the same instant goes first (R210). -/
def execUrmsHalfCycle (bus : Fin 2) (s : State) : Host.Outcome State Fault Refusal :=
  if !s.pq.running then .next s
  else .next ((s.busAFirst bus (((nextHalf s bus).filter fun e => decide (e ≤ (waveN s : Rat))).getD (-1))).halfStep bus)

/-- R212, R220, R221. The oldest event record that is due is written to its place in the ring; Canopy writes it. -/
def execEventRecordWrite (s : State) : Host.Outcome State Fault Refusal :=
  match s.pq.writes with
  | [] => .next s
  | e :: r =>
    if !s.wd.canopyRunning then .next s
    else
      let l := linkOf s e
      let e2 := { e with cu := l.1, capture := l.2 }
      let s1 := (s.onPq fun q => { q with writes := r.map (fun x => if x.id == e.id then { x with cu := l.1, capture := l.2 } else x) }).onBus
        e.bus fun v => { v with open_ := v.open_.map (fun x => if x.id == e.id then { x with cu := l.1, capture := l.2 } else x) }
      .next ((s1.wr (eventAddr e.pos) (eventBytes s e2)).drew 2)

/-- The first ring record that is OPEN and belongs to no event of this run. -/
def staleOpen (s : State) : Option Nat :=
  (List.range 1024).find? fun k =>
    let id := peekVal s (eventAddr k + 4) 4
    id != 0 && bitAt (sensedByte s.hw (eventAddr k + 3)).toNat 0 &&
      !(s.pq.writes ++ s.pq.buses.flatMap (·.open_)).any (fun e => e.id == id)

/-- R222. A record still OPEN from before power-down is closed at the checkpoint instant with POWER_LOSS. -/
def execOpenEventClose (s : State) : Host.Outcome State Fault Refusal :=
  if !s.wd.canopyRunning then .next s
  else
    match staleOpen s with
    | none => .next s
    | some k =>
      let a := eventAddr k
      let start := ofTime80 (peekVal s (a + 8) 10)
      let fl := (sensedByte s.hw (a + 3)).toNat
      .next (((s.sense a 32).wrPage [(a + 18, le 4 (spanMs s 0 start s.pq.lossT)), (a + 3, le 1 (setBit (clrBit fl 0) 3))]).drew 1)

/-! ### Windows and intervals -/

/-- The gap of the aggregations after a Canopy restart, in ms, when they resume (R54, R55). -/
def aggGap (s : State) : Option (Nat × PqSums) :=
  match savedSums s, lastCheckpoint s with
  | some c, some e =>
    let r := resumeOf s e.1
    let gap := (s.now - c.t) / 65536000000
    if gap < par s (pid 2 0 13) && c.t ≤ s.now && !s.rtc.osf && r.2.2.1 == utcOffset s && r.2.1 == parCommitted s (pid 7 0 0) then
      some (gap, c)
    else none
  | _, _ => none

/-- Canopy aggregates again with the first window after a restart: resumed, or fresh (R55). -/
def State.aggResume (s : State) : State :=
  if !s.pq.aggWait then s
  else match aggGap s with
    | some (gap, c) => (s.pqBegin (some c)).log 0x0109 (le 4 gap)
    | none => s.pqBegin none

/-- R206 to R208, R213, R214. A window of a bus ends: the next one that the stream has filled. -/
def execPqWindowEnd (bus : Fin 2) (s : State) : Host.Outcome State Fault Refusal :=
  if !s.pq.running then .next s
  else match winDue s bus with
    | none => .next s
    | some (w, straddles) => .next (s.aggResume.endWindow bus w straddles)

/-- R207, R208. The 150/180-cycle interval that its last window has ended closes, and mains signalling events are judged on it;
what bus A has up to the same instant goes first (R210). -/
def execPqAggregateEnd (bus : Fin 2) (s : State) : Host.Outcome State Fault Refusal :=
  if !s.pq.agg then .next s
  else .next (s.cyclesEnd bus)

/-- R204, R208, R213. A 10 s frequency interval of a bus ends at its boundary, once the stream has reached it. -/
def execFrequencyIntervalEnd (bus : Fin 2) (s : State) : Host.Outcome State Fault Refusal :=
  let idx := utcIdx s (waveT s + pTick) 10
  if !s.pq.running || s.wave.isEmpty || idx ≤ (pqBus s bus).idx10 then .next s
  else
    let endT := boundary s idx 10
    .next (((s.closeTen bus (placeOf s endT) endT 0).onBus bus fun r => { r with idx10 := idx }).drew 2)

/-- R204, R217. The 3 s supraharmonic aggregates close at their boundary. -/
def execSupra3sEnd (s : State) : Host.Outcome State Fault Refusal :=
  let idx := utcIdx s s.now 3
  if !s.pq.running || idx ≤ s.pq.idx3s then .next s
  else
    let s1 := s.onPq fun q => { q with idx3s := idx }
    if !s.pq.agg then .next s1
    else .next (s1.supraClose (1, boundary s idx 3, unlockedBit s, false))

/-- A bus at a 10-minute boundary (R207): where Canopy aggregates, the 10-minute interval waits for the window that straddles the
boundary; a new window begins exactly at it. The Pst interval ends with the stream. -/
def State.tenMinuteBus (old : State) (st : Nat) (restart : Bool) (s : State) (b : Nat) : State :=
  let endT := boundary s (utcIdx s s.now 600) 600
  let place := placeOf s endT
  let pars := if restart then some old.pr.applied else none
  let edge : PqEdge := ⟨endT, (pqBus s b).events, (pqBus s b).freqSum, (pqBus s b).freqN, (pqBus s b).freqOr, st, none, restart, pars⟩
  let s1 := s.onBus b fun r =>
    let r1 := if s.pq.agg then { r with edge := some edge, events := 0, freqSum := 0, freqN := 0, freqOr := 0 } else r
    match r.win with
    | some w =>
      if w.start < place then
        { r1 with old := some { w with pars := if restart then pars else w.pars }, win := some ⟨place, r.f1, 0, none⟩ }
      else r1
    | none => r1
  s1.edgeReady b

/-- A 10-minute boundary of the time counter in UTC (R204, R207, R208, R217, R218, R227): scheduled members come into use, and
the intervals end. Without aggregation only the number of the interval moves on. -/
def State.tenMinute (s : State) : State :=
  let idx := utcIdx s s.now 600
  if idx ≤ s.pq.idx10m then s
  else
    let restart := s.pr.scheduled.any (fun e => effOf e.1 == .tenMin)
    let s1 := (s.takeScheduled (fun id => effOf id == .tenMin)).onPq fun q =>
      { q with idx10m := idx, oldPars := if restart then some (boundary s idx 600, s.pr.applied) else q.oldPars }
    if !s.pq.agg then (List.range 2).foldl (State.tenMinuteBus s 0 restart) s1
    else
      let endT := boundary s idx 600
      let st := orStatus s.pq.mark10m (unlockedBit s)
      let s2 := s1.supraClose (2, endT, st, restart && idx % 12 != 0)
      let s3 := (List.range 2).foldl (State.tenMinuteBus s st restart) s2
      (s3.onPq fun q => { q with mark10m := 0, tenClk := s.clk }).drew 2

/-- R204, R207, R208, R218, R227. -/
def execTenMinuteBoundary (s : State) : Host.Outcome State Fault Refusal := .next s.tenMinute

/-- R204. A 2-hour boundary, which is a 10-minute boundary too: a bus whose 10-minute interval waits for its straddling window
closes with it. -/
def execTwoHourBoundary (s : State) : Host.Outcome State Fault Refusal :=
  let idx := utcIdx s s.now 7200
  if idx ≤ s.pq.idx2h then .next s
  else
    let s0 := s.tenMinute.onPq fun q => { q with idx2h := idx }
    if !s.pq.agg then .next s0
    else
      let endT := boundary s idx 7200
      let st := orStatus s.pq.mark2h (unlockedBit s)
      let s1 := s0.supraClose (3, endT, st, false)
      let s2 := (List.range 2).foldl
        (fun x b =>
          if (pqBus x b).edge.isSome then x.onBus b fun r => { r with edge := r.edge.map (fun e => { e with two := some st }) }
          else x.closeAccs 3 endT st (accOfBus x b)) s1
      .next (s2.onPq fun q => { q with mark2h := 0 })

/-- R223. The next archive record is written; a record of bus B waits for that of bus A. -/
def execArchiveWrite (s : State) : Host.Outcome State Fault Refusal :=
  match s.pq.archive with
  | [] => .next s
  | r :: l =>
    if !s.wd.canopyRunning || ((archKey r).1 == 1 && (pqBus s 0).edge.any (fun e => time80 e.endT == (archKey r).2)) then .next s
    else
      .next ((s.wr (archiveAddr s.pq.archivePos) r).onPq fun q =>
        { q with archive := l, archivePos := (q.archivePos + 1) % 1024 })

/-! ### PQ_READ (R225) -/

def opPqRead : Op := { code := 0x0501, bulk := some true, fixed := 18 }

/-- Values of a KIND (Table 9-9). -/
def kindCount (kind : Nat) : Nat := [1, 65, 64, 740, 27].getD kind 0

/-- A value of KIND 4 with its status and the end of its interval: the latest completed frequency, Pst or Plt, whatever LEVEL
is, or a value of the level (R225). -/
def busRead (s : State) (b level i : Nat) : Option (Nat × Nat × Nat) :=
  let r := pqBus s b
  if i == 0 then r.freqEnd.map fun t => (r.freq, r.freqStatus, t)
  else if 3 ≤ i && i ≤ 8 then
    r.pstEnd.map fun t => let v := (if i < 6 then r.pst.getD (i - 3) (0, 0) else r.plt.getD (i - 6) (0, 0)); (v.1, v.2, t)
  else (pqResult s 4 level b).bind fun x => (x.vals[i]?).map fun v => (v, x.status, x.endT)

/-- Values asked for, each with its status and the end of its interval; a value that does not exist yet is missing. -/
def pqValues (s : State) (kind level chan first count : Nat) : List (Nat × Nat × Nat) :=
  (List.range count).filterMap fun k =>
    if kind == 4 then busRead s chan level (first + k)
    else (pqResult s kind level chan).bind fun x => (x.vals[first + k]?).map fun v => (v, x.status, x.endT)

/-- INTERVAL_END of a reply: that of the level's result where it is among the values, else the latest one. -/
def readEnd (s : State) (kind level chan : Nat) (v : List (Nat × Nat × Nat)) : Nat :=
  match pqResult s kind level chan with
  | some x => if v.any (fun e => e.2.2 == x.endT) then x.endT else v.foldl (fun a e => Nat.max a e.2.2) 0
  | none => v.foldl (fun a e => Nat.max a e.2.2) 0

/-- R225, Table 9-8. -/
def execPqRead (h : Hdr) (kind level chan first count : Nat) (s : State) : Host.Outcome State Fault Refusal :=
  .next (serve opPqRead h (h.len == 8)
    (fun s =>
      [(s.lk.hushed, .hushed),
       (4 < kind || 3 < level || (if kind == 4 then 1 else 35) < chan || count == 0 || 1015 < count, .valueRange),
       (kindCount kind < first + count, .valueRange),
       (kind == 3 && par s (pid 16 chan 6) != 1, .valueRange),
       ((pqValues s kind level chan first count).length < count, .valueRange)])
    (fun s =>
      let v := pqValues s kind level chan first count
      ⟨s, .ok, zeros 2 ++ le 4 (v.foldl (fun a e => orStatus a e.2.1) 0) ++ le 10 (time80 (readEnd s kind level chan v)) ++ zeros 2 ++
        v.flatMap (fun e => le 4 e.1)⟩) s)

/-! ### PQ_EVENT_READ and PQ_ARCHIVE_READ (R226) -/

def opPqEventRead : Op := { code := 0x0502, fixed := 6 }

/-- Event records of the ring from a number on, ascending. -/
def eventsFrom (s : State) (fromId : Nat) : List (Nat × List Byte) :=
  (((List.range 1024).map (fun k => (peekVal s (eventAddr k + 4) 4, peek s (eventAddr k) 32))).filter
    (fun e => e.1 != 0 && fromId ≤ e.1)).mergeSort (fun a b => a.1 ≤ b.1)

/-- R226, Table 9-10. -/
def execPqEventRead (h : Hdr) (fromId count : Nat) (s : State) : Host.Outcome State Fault Refusal :=
  .next (serve opPqEventRead h (h.len == 8)
    (fun s => [(!canRead s h.path 4, .authFail), (count == 0 || 32 < count, .valueRange)])
    (fun s =>
      let l := (eventsFrom s fromId).take count
      ⟨s.sense (eventAddr 0) 32768, .ok, le 1 l.length ++ zeros 1 ++ le 4 s.pq.nextId ++ l.flatMap (·.2)⟩) s)

def opPqArchiveRead : Op := { code := 0x0503, bulk := some true, fixed := 6 }

/-- An archive record is valid: MAGIC and CRC. -/
def archiveOk (bs : List Byte) : Bool := fieldAt bs 0 2 == 0x5051 && crc32c (bs.take 124) == fieldAt bs 124 4

/-- Archive records of the selected buses from an instant on, oldest first. -/
def archiveFrom (s : State) (bus fromT : Nat) : List (List Byte) :=
  (((List.range 1024).map (fun k => peek s (archiveAddr k) 128)).filter (fun r =>
    archiveOk r && (bus == 0xFF || (archKey r).1 == bus) && ofTime80 fromT ≤ ofTime80 (archKey r).2)).mergeSort
      (fun a b => 2 * ofTime80 (archKey a).2 + (archKey a).1 ≤ 2 * ofTime80 (archKey b).2 + (archKey b).1)

/-- R226, Table 9-11. -/
def execPqArchiveRead (h : Hdr) (bus count fromT : Nat) (s : State) : Host.Outcome State Fault Refusal :=
  .next (serve opPqArchiveRead h (h.len == 16)
    (fun s =>
      [(!canRead s h.path 4, .authFail), (s.lk.hushed, .hushed),
       ((1 < bus && bus != 0xFF) || count == 0 || 31 < count || !time80Ok fromT, .valueRange)])
    (fun s =>
      let l := (archiveFrom s bus fromT).take count
      ⟨s.sense (archiveAddr 0) 131072, .ok, le 1 l.length ++ zeros 5 ++ l.flatten⟩) s)

end Sys2Proof.Machine
end

