-- ==== Sys2Proof/Machine/StartOps.lean ====
section
/-! DEFINITION. Shared operations of the staged start: the Pioneer record taken up (R32, R35, R36), the ledger taken up (R345), the
image that a kind runs (R38, R420), and what the Warden does on its entry (R38, R355, R380, R397, R399). -/

namespace Sys2Proof.Machine

/-! ### VAUX -/

/-- The start sequence begins with straps EXT33 and TEST_EN (R29, R434, R438). -/
def State.powerStart (s : State) (ext33 testEn : Bool) : State :=
  s.onPw fun p =>
    { p with phase := .started, startClk := s.clk, ext33 := ext33, testEn := testEn, buckVdd33 := !ext33, bootFault := 0,
             pfail := true, pfailReleased := false, pfailClk := s.clk, vauxWaiting := false, restartWait := false,
             clearAtPowerUp := s.tp.clearPending }

/-! ### The Pioneer record (R32, R35, R37) -/

/-- Biquads of a slot of the record's body. The slot has no count: the first is used, and the second where a field of it is not
0 (R135; assumption 71). -/
def slotBiquads (body : List Byte) (slot : Nat) : List (List Int) :=
  let b := fun (k : Nat) => s32s 5 (body.drop (1040 + 44 * slot + 4 + 20 * k))
  if (b 1).any (· != 0) then [b 0, b 1] else [b 0]

/-- Biquads that the record gives a channel at stage 1 (R31). -/
def recordBiquads (body : List Byte) (c : Nat) : List (List Int) :=
  let fl := (byteAt body (33 + 16 * c)).toNat
  if bitAt fl 0 then slotBiquads body (bitsAt fl 1 3) else []

/-- The stage-1 form of a channel's filter: no taps, and the record's biquads (R31). -/
def State.recordFilter (s : State) (body : List Byte) (c : Nat) : State :=
  let b := recordBiquads body c
  (s.onFilt c fun f => { f with bankA := ⟨0, [], b⟩, pioBq := b, pioSt := zeroStates b.length }).onInsts c fun x =>
    { x with stA := zeroStates b.length }

/-- A stand as the record's spare assignment sets it (R32, R99). -/
def recordStand (body : List Byte) (k : Nat) (d : Stand) : Stand :=
  let c := (byteAt body (8 + k)).toNat
  if c < 36 then { d with assign := c, spareChan := c, carrying := true, phase := 6, corr := Corr.none }
  else { d with assign := 0xFF }

/-- The loader sets PGAs, phase delays, trims, biquads, the map and the outputs from the record (R35). -/
def State.loadRecord (s : State) (seq : Nat) (body : List Byte) : State :=
  let s1 := (s.onPr fun p => { p with applied := assocAll p.applied (recordMembers body) }).onHw fun h => { h with pioSeq := some seq }
  let s2 := { s1 with stands := s1.stands.mapIdx (recordStand body) }
  let s3 := { s2 with convs := s2.convs.mapIdx fun v x =>
    { x with trim := ⟨toSigned 32 (fieldAt body (608 + 8 * v) 4), fieldAt body (612 + 8 * v) 4, restCode s2 v, []⟩ } }
  (List.range 36).foldl (fun x c => x.recordFilter body c) s3

/-- A rebuilt record reaches the running Pioneer path (R36, R37): its configuration is the committed one, and each channel's
Pioneer branch takes the slot's biquads. -/
def State.rebuildRecord (s : State) : State :=
  let s1 := s.pioWrite.onHw fun h => { h with pioWait := true }
  let body := pioBody s
  (List.range 36).foldl
    (fun x c =>
      let b := recordBiquads body c
      x.onFilt c fun f => { f with pioBq := b, pioSt := zeroStates b.length, pioUns := if b.isEmpty then 0 else bqSettle s c }) s1

/-- At stage 2 the Warden repairs an invalid or differing copy, and logs a twin or a lost record (R35, R357). -/
def State.repairRecord (s0 : State) : State :=
  let s := (s0.sense (pioBase false) 2048).sense (pioBase true) 2048
  match pioRead s false, pioRead s true with
  | some a, some b =>
    if a.1 == b.1 && a.2 != b.2 then
      ((s.wr (pioBase true) (pioCopy a.2 a.1)).onHw fun h => { h with twins := u32 (h.twins + 1) }).log 0x0902 (zeros 2 ++ le 2 1)
    else s
  | some a, none => (s.wr (pioBase true) (pioCopy a.2 a.1)).onHw fun h => { h with repairs := u32 (h.repairs + 1) }
  | none, some b => (s.wr (pioBase false) (pioCopy b.2 b.1)).onHw fun h => { h with repairs := u32 (h.repairs + 1) }
  | none, none => s.log 0x0903 (zeros 2 ++ le 2 1)

/-! ### The ledger (R345) -/

/-- The copy whose Pioneer totals are used, with its SEQUENCE (R35, R344). -/
def totalsFrom (s : State) : Option (Bool × Nat) := laterCopy (ledgerUsable s false) (ledgerUsable s true)

/-- Cause of LEDGER_FAULT (R345). -/
def ledgerCause (s : State) : Option Nat :=
  match totalsFrom s, lastCheckpoint s with
  | some t, some c => if t.1 == c.1 then none else some 1
  | _, _ => if ledgerMagic s false || ledgerMagic s true then some 2 else some 0

/-- The loader takes the Pioneer totals; which copy everything else comes from, and what R54 compares, is settled with it. -/
def State.loadTotals (s : State) : State :=
  let t := totalsFrom s
  let c := lastCheckpoint s
  let idx := fun (b : Bool) => if b then 1 else 0
  let s1 := match t with
    | some (b, _) => s.takeTotals (peek s (ledgerBase b) 16384)
    | none => s
  let s2 := s1.onHw fun h =>
    { h with totalsCopy := t.map (fun e => (idx e.1, e.2)), restCopy := c.map (fun e => idx e.1),
             ledger := c.map (fun e => (idx e.1, e.2)), resume := c.map (fun e => resumeOf s e.1),
             faultCause := ledgerCause s, restarted := t.isNone || c.isNone }
  match s2.hw.resume with
  | some r => s2.onPq fun q => { q with lossT := r.1 }
  | none => s2

/-- Registers, residues, maxima and demand state of the copy come into the DSP engine; a residue adds to what an output has
received since stage 1 (R190). -/
def State.loadBooks (s : State) (img : List Byte) : State :=
  let s1 := s.takeRegisters img
  s1.onMe fun m =>
    { m with cfs := (m.cfs.zip s.me.cfs).map (fun e => { e.2 with acc := e.2.acc + e.1.acc }),
             circRun := m.circRun.mapIdx fun c r => takeDemand img c r }

/-- The Warden loads the rest of the ledger; stage-1 checkpoints have copied it on (R345, R346). -/
def State.loadLedger (s0 : State) : State :=
  let s := (s0.sense (ledgerBase false) 16384).sense (ledgerBase true) 16384
  let s1 := match s.hw.restCopy, s.hw.ledger with
    | some _, some (c, _) => s.loadBooks (peek s (ledgerBase (c == 1)) 16384)
    | _, _ => s
  let s2 := s1.onHw fun h => { h with loaded := true, resume := h.resume.map (fun r => (r.1, r.2.1, r.2.2.1, s.rtc.osf)) }
  match s.hw.faultCause with
  | none => s2
  | some c =>
    s2.log 0x0907 (le 1 c ++ le 1 ((s.hw.totalsCopy.map (·.1)).getD 0xFF) ++ zeros 2 ++ le 4 ((s.hw.totalsCopy.map (·.2)).getD 0))

/-! ### Images and regions (R38, R39, R420) -/

/-- The region that the boot ROM or the Warden tries first: of those that may run, the one with the higher activation number. -/
def firstRegion (s : State) (k : Nat) : Nat :=
  let r0 := (regionsOf s k).1
  let r1 := (regionsOf s k).2
  if regionRuns s r1 && (!regionRuns s r0 || r0.act < r1.act) then 1 else 0

/-- A region found in TRIAL at power-up is run once more; with its count used up it becomes REVOKED (R420). -/
def State.countTrial (s : State) (k b : Nat) : State :=
  if (region s k b).st == 1 then
    s.onRegion k b fun r => { r with trials := r.trials - 1, st := if r.trials ≤ 1 then 3 else 1 }
  else s

/-- The trial of a region found in TRIAL goes on from this power-up. -/
def State.resumeTrial (s : State) (k b : Nat) : State :=
  let r := region s k b
  if r.st == 1 && s.up.st == 0 then
    s.onUp fun u =>
      { u with st := 5, trialClk := s.clk, revert := none, payload := [],
               header := fitBytes 192 (le 2 0x5550 ++ le 1 k ++ zeros 1 ++ le 4 r.version ++ le 1 r.rollbackMin) }
  else s

/-- An image or the microcode fails verification at boot: BOOT_AUTH (slot 19). -/
def State.bootAuth (s : State) (ok : Bool) : State := if ok then s else s.tamperPulse 19

/-- Choose and run a kind's region: `firstOk` and `otherOk` say that the image of the region tried first, and of the other one,
verifies. Answers whether one runs, and whether it is not the one tried first. -/
def State.bootChoice (s : State) (k : Nat) (firstOk otherOk powerUp : Bool) : State × Bool × Bool :=
  let b := if powerUp then firstRegion s k else activeOf s k
  let s1 := if powerUp then s.countTrial k b else s
  if regionRuns s1 (region s1 k b) && firstOk then ((s1.runRegion k b).resumeTrial k b, true, false)
  else
    let s2 := if regionRuns s1 (region s1 k b) then s1.bootAuth false else s1
    let o := 1 - b
    if regionRuns s2 (region s2 k o) && otherOk then ((s2.runRegion k o).resumeTrial k o, true, true)
    else (if regionRuns s2 (region s2 k o) then s2.bootAuth false else s2, false, false)

/-- The choice, and whether the kind has a valid image (R337). -/
def State.bootKind (s : State) (k : Nat) (firstOk otherOk powerUp : Bool) : State × Bool × Bool :=
  let r := s.bootChoice k firstOk otherOk powerUp
  (r.1.onUp fun u => { u with absent := if r.2.1 then u.absent.filter (· != k) else if u.absent.contains k then u.absent else u.absent ++ [k] },
   r.2.1, r.2.2)

/-- Set BOOT_FAULT (R28). -/
def State.bootFaultTo (s : State) (n : Nat) : State := s.onPw fun p => { p with bootFault := n }

/-- DATA of a START entry (Table 18-4). -/
def startData (s : State) (fault : Nat) : List Byte :=
  le 1 fault ++ le 1 (flagAt s.rtc.osf 0) ++ zeros 2 ++ le 4 (s.hw.pioSeq.getD 0) ++ le 4 ((s.hw.ledger.map (·.2)).getD 0)

/-- START entries are the log's first: they go ahead of what has waited since stage 1 (R38, R416). -/
def State.startFirst (s : State) (faults : List Nat) : State :=
  let new := faults.map fun f =>
    (⟨s.now80, 0x0101, fitBytes 14 (startData s f), logFlags s false false false, s.clk⟩ : LogEntry)
  s.onWd fun w =>
    let l := new ++ w.buffer
    { w with buffer := l.take 256, lost := u32 (w.lost + (l.length - 256)), lostSince := w.lostSince + (l.length - 256) }

/-! ### What the Warden does on its entry -/

/-- Committed values come into use; REF_USE waits for the first boundary after the DSP start (R71, R329, R330). The Warden
brings up ports and switch with NET_MODE (R38, R278); NODE has applied from the loader on (R282). -/
def State.takeCommitted (s : State) : State :=
  let s1 := s.onNt fun n => { n with up := true, mode := parCommitted s 0x5800 }
  let s2 := s1.onPr fun p =>
    { p with applied := assocAll p.applied (p.committed.filter (fun e => e.1 != 0x1801)),
             scheduled := p.committed.filter (fun e => e.1 == 0x1801) }
  let s3 := s2.onNt fun n => { n with tokens := par s2 0x580B * tokenByte, tokenClk := s.clk }
  let s4 := s3.onPw fun p => { p with aonPfail := (par s3 0x6800, par s3 0x6801, par s3 0x6802) }
  let s4 := if s4.pm.changes.isEmpty then s4
    else (s4.onPm fun m => { m with changes := [], cfgCnt := (m.cfgCnt + m.changes.length) % 65536 }).storeDevice
  (s4.onMe fun m => { m with demandCfg := (par s2 (pid 2 0 4), par s2 (pid 2 0 5)) }).onHm fun h => { h with suBaud := par s4 0x6006 }

/-- Committed responses, and what each LATCHED source of LOCK or CLEAR then does (R393, R394). -/
def State.takeResponses (s : State) : State :=
  let s1 := s.onTp fun t =>
    { t with slots := t.slots.mapIdx fun k x => { x with resp := par s (pid 28 k 0), aonResp := par s (pid 28 k 0) } }
  if locked s1 then s1.lockActions else s1

/-- The committed alarms are in the AON domain (R368), LAST_LOCKED_RATE and TRIM_LEARNED are loaded (R255, R376). -/
def State.takeStored (s : State) : State :=
  let s1 := (List.range 4).foldl
    (fun x k => x.onAlarm k fun a =>
      { a with cfg := par s (pid 27 k 0), mtch := par s (pid 27 k 1), mask := par s (pid 27 k 2) }) s
  ((s1.onTe fun t => { t with f := t.lastLocked, r := if t.servo == .free then t.lastLocked else t.r }).onRtc fun r => { r with trimLearned := r.trimStored }).onRef fun r =>
    { r with baseline := if s.pw.refsel then r.stored else r.baseline }

/-- The tamper buffer goes to the log, and NOTIFY is carried out (R399). -/
def State.takeVbat (s : State) : State :=
  let s1 := s.tp.buffer.foldl
    (fun x e => x.logAt (calTime x e.2) 0x0A01 true false (le 1 e.1 ++ le 1 (s.slot e.1).aonResp ++ le 1 0xFF) []) s
  let s2 := s1.onTp fun t => { t with vbatEntries := t.buffer.length, vbatOverflow := t.overflow, buffer := [], overflow := 0 }
  if s.tp.buffer.any (fun e => 1 ≤ (s.slot e.1).aonResp) then s2.irq 6 else s2

/-- The latest TAMPER_RAISED at LOCK or CLEAR, or TAMPER_ACKED, of a source in the log is a raise (R397). -/
def raisedInLog (l : List (List Byte)) (slot : Nat) : Bool :=
  match (l.filter (fun b =>
      (byteAt b 16).toNat == slot && (fieldAt b 14 2 == 0x0A03 || (fieldAt b 14 2 == 0x0A01 && 2 ≤ (byteAt b 17).toNat)))).getLast? with
  | some b => fieldAt b 14 2 == 0x0A01
  | none => false

/-- After an AON brown-out the sources that the log holds are LATCHED again, and AON_LOSS is raised (R397). -/
def State.takeAonLoss (s : State) : State :=
  if s.rtc.osfBrownOut && s.rtc.osf then
    let l := logFrom s 0
    let s1 := s.onTp fun t => { t with slots := t.slots.mapIdx fun k x => if raisedInLog l k then { x with latched := true } else x }
    s1.tamperCond 23 0xFF true
  else s

/-- The Warden reads the bitmap, logs every marked page, and lists those of P5 by their number in the partition (R341, R355). -/
def State.logTorn (s0 : State) : State :=
  let s := s0.sense 0 256
  let l := tornPages s.hw.mem
  (l.foldl (fun x p => x.log 0x0901 (le 2 p)) s).onHw fun h =>
    { h with tornList := (l.filter (partFirst 5 ≤ ·)).map (· - partFirst 5) }

/-- The bits of P0 to P4 are cleared, once their records have been read (R355). -/
def State.clearTorn (s : State) : State :=
  s.onHw fun h => { h with mem := ((tornPages h.mem).filter (· < partFirst 5)).foldl (fun m p => markTorn m p false) h.mem }

/-- The Warden takes a copy of the factory record; that neither matches FACTORY_HASH is logged (R421). -/
def State.takeFactory (s : State) : State :=
  let s1 := s.onUp fun u => { u with factory := factoryChoice }
  if factoryMatches 0 || factoryMatches 1 then s1 else s1.log 0x0E08 (le 1 3 ++ le 1 factoryChoice)

/-- Number and place of the next event, from the highest number in the ring (R220). -/
def eventNext (s : State) : Nat × Nat :=
  let best := (List.range 1024).foldl
    (fun (a : Nat × Nat) k =>
      let id := peekVal s (eventAddr k + 4) 4
      if a.1 < id then (id, k) else a) (0, 1023)
  (if best.1 == 0xFFFFFFFF then 1 else best.1 + 1, (best.2 + 1) % 1024)

/-- Place of the next archive record, after the latest valid one. -/
def archiveNext (s : State) : Nat :=
  let best := (List.range 1024).foldl
    (fun (a : Nat × Nat) k =>
      if peekVal s (archiveAddr k) 2 == 0 then a
      else
        let r := peek s (archiveAddr k) 128
        let key := 2 * ofTime80 (archKey r).2 + (archKey r).1 + 1
        if archiveOk r && a.1 < key then (key, k) else a) (0, 1023)
  (best.2 + 1) % 1024

end Sys2Proof.Machine
end

