-- ==== Sys2Proof/Machine/StartUp.lean ====
section
/-! DEFINITION. The staged start, row by row of Table 2-3 and on to the Warden, the DSP microcode and Canopy (R29 to R39, R420,
R434, R441, R494). An event out of its place in the sequence changes nothing. -/

namespace Sys2Proof.Machine

/-- R29, R434, R441, R494. A rise within the restart delay starts at its end. -/
def execVauxStartThreshold (ext33 testEn : Bool) (s : State) : Host.Outcome State Fault Refusal :=
  if s.pw.phase != .off then .next s
  else if s.pw.restartWait then .next (s.onPw fun p => { p with vauxWaiting := true, ext33 := ext33, testEn := testEn })
  else .next (s.powerStart ext33 testEn)

/-- R441. The restart delay has run since the trip. -/
def execRestartDelayExpiry (s : State) : Host.Outcome State Fault Refusal :=
  if !s.after s.pw.tripClk (s.pw.restartDelayMs * cycMs) then .next s
  else if s.pw.vauxWaiting then .next (s.powerStart s.pw.ext33 s.pw.testEn)
  else .next (s.onPw fun p => { p with restartWait := false })

/-- R29, R66, R67, R296, R436, R494. An AON domain without power until now starts. -/
def execVdd33Regulation (hsel refsel refinOk : Bool) (s : State) : Host.Outcome State Fault Refusal :=
  if s.pw.phase != .started then .next s
  else
    let s1 := (s.onPw fun p => { p with phase := .vdd33, hsel := hsel, refsel := refsel, buckVcore := !p.testEn }).onRef fun r =>
      { r with bad := refsel && !refinOk }
    if s.pw.aonUp then .next s1
    else
      .next ((s1.onPw fun p => { p with aonUp := true }).onRtc fun r =>
        ({ r with cal := Cal.powerUp, phase := 0, phaseRem := 0, edgeCnt := 0, trimAcc := 0 }).setOsf)

/-- R29, R494. With TEST_EN high the VCORE buck is held off. -/
def execVcoreRegulation (s : State) : Host.Outcome State Fault Refusal :=
  if s.pw.phase == .vdd33 && s.pw.buckVcore then .next (s.onPw fun p => { p with phase := .vcore }) else .next s

/-- R494. -/
def execTestEnRelease (s : State) : Host.Outcome State Fault Refusal :=
  .next (s.onPw fun p => { p with testEn := false, buckVcore := p.buckVcore || (p.testEn && p.phase == .vdd33) })

/-- R29. -/
def execCrystalStable (s : State) : Host.Outcome State Fault Refusal :=
  if s.pw.phase == .vcore then .next (s.onPw fun p => { p with phase := .crystal }) else .next s

/-- R30, R250, R402, R432. The TRNG's start tests pass unless an event says otherwise. -/
def execPllLock (s : State) : Host.Outcome State Fault Refusal :=
  if s.pw.phase != .crystal then .next s
  else
    let s1 := (s.onPw fun p => { p with phase := .pll, buckRoot := true }).setPar 0x380D (ofSigned 16 (pioUtc s))
    let now := calToTai s.rtc.cal (pioUtc s)
    let s2 := (s1.onTe fun t => { t with running := true, cnt := now, frac := 0 }).onRtc fun r =>
      { r with edgeCnt := now - r.phase / 32768 * 512000 }
    .next (s2.onTp fun t => { t with trngOk := true })

/-- R35, R36, R447. The boot configuration is in force from here on (R256, R278, R282, R319): hardware takes it without any entry of
R359. -/
def execLoaderComplete (s : State) : Host.Outcome State Fault Refusal :=
  if s.pw.phase != .pll then .next s
  else
    let s1 := match pioSelect s with
      | some (_, seq, body) => s.loadRecord seq body
      | none => s.bootFaultTo 6
    let s2 := s1.loadTotals
    let v := bootValues s2 (markSeq s2)
    let s3 := s2.onPr fun p => { p with applied := assocAll p.applied v, committed := assocAll p.committed v }
    let s3 := ((s3.onNt fun n => { n with node := parCommitted s3 0x5801 }).onLk fun l => { l with baud := parCommitted s3 0x0810 }).onPr
      fun p => { p with idNode := p.idNode.or (some (parCommitted s3 0x5801)) }
    let s4 := s3.onHm fun h => { h with layout := layoutRead s3 }
    .next ((s4.onPw fun p => { p with phase := .loaded }).onHm fun h => { h with scrolling := scrolls s4 })

/-- R29, R31, R464. -/
def execModulatorStart (s : State) : Host.Outcome State Fault Refusal :=
  if s.pw.phase != .loaded then .next s
  else
    let s1 := (List.range 40).foldl State.unsettle s
    let s2 := (List.range 36).foldl
      (fun x c => x.onFilt c fun f => { f with uns := 68 + bqSettle s c, pioUns := 68 + bqSettle s c }) s1
    .next (s2.onPw fun p => { p with phase := .modulators, modClk := s.clk })

/-- R27, R31, R393. From here on every source uses its reset response, raised to its floor. -/
def execFirstSettledSample (s : State) : Host.Outcome State Fault Refusal :=
  if s.pw.phase != .modulators then .next s
  else
    let s1 := (s.onPw fun p => { p with phase := .metering }).onTp fun t =>
      { t with slots := t.slots.mapIdx fun k x => { x with resp := Nat.max (resetResponses.getD k 0) (slotFloors.getD k 0) } }
    .next (s1.enterStage 1)

/-- Entry of the Warden on a verified image (R38): the start entry, then what was stored while it did not run. -/
def State.wardenEntry (s : State) (faults : List Nat) : State :=
  let s1 := (((((s.onWd fun w => { w with running := true, logSeq := logHighest s }).startFirst faults).enterStage 2).logTorn).sense
    (pageAddr 3 0) 131072).sense (pageAddr 4 0) 163840
  let s2 := (s1.takeFactory.readP0.takeCommitted.takeStored).takeVbat
  let s3 := s2.takeAonLoss.takeResponses
  let s4 := ((s3.restoreKeys true).repairRecord).clearTorn.loadLedger
  let s5 := (List.range 4).foldl State.resolvePend s4
  let s6 := if s5.ref.bad then s5.log 0x030B (le 4 (refStatus (s5.onRef fun r => { r with live := true }))) else s5
  (s6.newChallenge.onPq fun q =>
    { q with nextId := (eventNext s).1, eventPos := (eventNext s).2, archivePos := archiveNext s }).consoleClaim

/-- R38, R28, R420. Without a valid image the device stays at stage 1, and the entry waits for a Warden that runs. -/
def execWardenStart (activeOk otherOk : Bool) (s : State) : Host.Outcome State Fault Refusal :=
  if s.pw.stage != 1 || s.wd.running then .next s
  else
    match s.bootKind 1 activeOk otherOk true with
    | (s1, true, fallback) =>
      let old := if s.pw.bootFault == 6 then [6] else []
      .next (if fallback then (s1.bootFaultTo 1).wardenEntry (old ++ [1]) else s1.wardenEntry [s.pw.bootFault])
    | (s1, false, _) =>
      let s2 := if s.pw.bootFault == 6 then s1.log 0x0101 (startData s1 6) else s1
      .next ((s2.bootFaultTo 2).log 0x0101 (startData s2 2))

/-- R39, R83, R420. Without valid microcode the device stays at stage 2. The table region is chosen with the microcode. -/
def execDspStart (activeOk otherOk : Bool) (s : State) : Host.Outcome State Fault Refusal :=
  if s.pw.stage < 2 || !s.wd.running || s.me.kernels then .next s
  else
    match s.bootKind 2 activeOk otherOk true with
    | (s1, true, _) => .next ((s1.bootKind 3 true true true).1.kernelsStart)
    | (s1, false, _) =>
      let s2 := s1.bootFaultTo 5
      .next (s2.log 0x0101 (startData s2 5))

/-- Canopy that is ready only later than 400 ms after the switch has failed its trial (Table 18-8). -/
def State.readyLate (s : State) : State := if s.up.trialClk + 400 * cycMs < s.clk then s.trialFail 0 else s

/-- Canopy runs: the end of a restart is logged, stage 3 is entered, and a missing Pioneer record is rebuilt (R25, R27, R36). -/
def State.canopyEntry (s : State) : State :=
  let s1 := s.onWd fun w => { w with canopyRunning := true, backoff := none }
  let s2 := if s.wd.canopyRestarts == 0 then s1
    else s1.log 0x0106 (le 1 s.wd.stopCause.1 ++ le 1 s.wd.stopCause.2 ++ le 2 (satN 65535 (msSince s s.wd.stopClk)))
  let s3 := (s2.enterStage 3).onPw fun p => { p with handoverPending := !p.acct }
  let s4 := if s3.hw.pioSeq.isNone then s3.rebuildRecord else s3
  ((s4.onPq fun q => { q with aggWait := s4.me.fromB1 && !q.agg }).closeOwed).restage.readyLate

/-- R27, R28, R39, R412, R420. Canopy is not started during its back-off, nor while no DSP microcode runs. -/
def execCanopyReady (activeOk otherOk : Bool) (s : State) : Host.Outcome State Fault Refusal :=
  if s.pw.stage != 2 || !s.wd.running || !s.me.kernels || s.wd.canopyRunning || s.wd.backoff.isSome then .next s
  else
    match s.bootKind 0 activeOk otherOk (s.wd.canopyRestarts == 0) with
    | (s1, true, false) => .next s1.canopyEntry
    | (s1, true, true) =>
      let s2 := s1.bootFaultTo 3
      .next (s2.log 0x0101 (startData s2 3)).canopyEntry
    | (s1, false, _) =>
      let s2 := s1.bootFaultTo 4
      .next (s2.log 0x0101 (startData s2 4))

end Sys2Proof.Machine
end

