-- ==== Sys2Proof/Machine/Dispatch.lean ====
section
/-! DEFINITION. One arm per command: the meaning it has on everything but the queue. -/

namespace Sys2Proof.Machine

/-- The effect of one command, in the order of the opcode table. -/
def exec (i : Instr) (s : State) : Host.Outcome State Fault Refusal :=
  match i with
  | .aonPowerUp => Sys2Proof.Machine.execAonPowerUp s
  | .aonBrownOut => Sys2Proof.Machine.execAonBrownOut s
  | .vauxStartThreshold ext33 testEn => Sys2Proof.Machine.execVauxStartThreshold ext33 testEn s
  | .vdd33Regulation hsel refsel refinOk => Sys2Proof.Machine.execVdd33Regulation hsel refsel refinOk s
  | .vcoreRegulation => Sys2Proof.Machine.execVcoreRegulation s
  | .crystalStable => Sys2Proof.Machine.execCrystalStable s
  | .pllLock => Sys2Proof.Machine.execPllLock s
  | .loaderComplete => Sys2Proof.Machine.execLoaderComplete s
  | .clearPendingResume => Sys2Proof.Machine.execClearPendingResume s
  | .modulatorStart => Sys2Proof.Machine.execModulatorStart s
  | .firstSettledSample => Sys2Proof.Machine.execFirstSettledSample s
  | .wardenStart activeOk otherOk => Sys2Proof.Machine.execWardenStart activeOk otherOk s
  | .dspStart activeOk otherOk => Sys2Proof.Machine.execDspStart activeOk otherOk s
  | .canopyReady activeOk otherOk => Sys2Proof.Machine.execCanopyReady activeOk otherOk s
  | .canopyRestart => Sys2Proof.Machine.execCanopyRestart s
  | .canopyBackoffExpiry => Sys2Proof.Machine.execCanopyBackoffExpiry s
  | .pfailAssert => Sys2Proof.Machine.execPfailAssert s
  | .powerFailCheckpoint => Sys2Proof.Machine.execPowerFailCheckpoint s
  | .pfailRelease => Sys2Proof.Machine.execPfailRelease s
  | .vcoreTrip => Sys2Proof.Machine.execVcoreTrip s
  | .restartDelayExpiry => Sys2Proof.Machine.execRestartDelayExpiry s
  | .buckCurrentLimit vcore => Sys2Proof.Machine.execBuckCurrentLimit vcore s
  | .testEnRelease => Sys2Proof.Machine.execTestEnRelease s
  | .checkpointComplete => Sys2Proof.Machine.execCheckpointComplete s
  | .dspFrame frames => Sys2Proof.Machine.execDspFrame frames s
  | .cfPulseEnd k => Sys2Proof.Machine.execCfPulseEnd k s
  | .stuckDetected conv => Sys2Proof.Machine.execStuckDetected conv s
  | .modulatorOverloadReset conv => Sys2Proof.Machine.execModulatorOverloadReset conv s
  | .blockBoundary => Sys2Proof.Machine.execBlockBoundary s
  | .demandSubintervalEnd => Sys2Proof.Machine.execDemandSubintervalEnd s
  | .refComparisonResult ratio => Sys2Proof.Machine.execRefComparisonResult ratio s
  | .refBaselineCapture => Sys2Proof.Machine.execRefBaselineCapture s
  | .refRebase h value => Sys2Proof.Machine.execRefRebase h value s
  | .refinOutOfRange => Sys2Proof.Machine.execRefinOutOfRange s
  | .slotStart stand => Sys2Proof.Machine.execSlotStart stand s
  | .firstOverlapEnd stand => Sys2Proof.Machine.execFirstOverlapEnd stand s
  | .restSourceSwitch stand => Sys2Proof.Machine.execRestSourceSwitch stand s
  | .restAcceptance stand => Sys2Proof.Machine.execRestAcceptance stand s
  | .homeReturn stand => Sys2Proof.Machine.execHomeReturn stand s
  | .spliceBack stand => Sys2Proof.Machine.execSpliceBack stand s
  | .preshadowConnect stand => Sys2Proof.Machine.execPreshadowConnect stand s
  | .coppiceQuery h stand badAction => Sys2Proof.Machine.execCoppiceQuery h stand badAction s
  | .coppicePause h stand => Sys2Proof.Machine.execCoppicePause h stand s
  | .coppiceRotate h stand => Sys2Proof.Machine.execCoppiceRotate h stand s
  | .coppicePin h stand target => Sys2Proof.Machine.execCoppicePin h stand target s
  | .coppiceUnpin h stand => Sys2Proof.Machine.execCoppiceUnpin h stand s
  | .coppiceShadow h stand target => Sys2Proof.Machine.execCoppiceShadow h stand target s
  | .coppiceRequalify h stand target => Sys2Proof.Machine.execCoppiceRequalify h stand target s
  | .requalifyResult stand => Sys2Proof.Machine.execRequalifyResult stand s
  | .pathCheck h chan badMode => Sys2Proof.Machine.execPathCheck h chan badMode s
  | .pathCheckBaseline h chan => Sys2Proof.Machine.execPathCheckBaseline h chan s
  | .pathCheckStart stand => Sys2Proof.Machine.execPathCheckStart stand s
  | .pathCheckComplete stand => Sys2Proof.Machine.execPathCheckComplete stand s
  | .snapshotArm h seq arm => Sys2Proof.Machine.execSnapshotArm h seq arm s
  | .seqStart h seq arm chans => Sys2Proof.Machine.execSeqStart h seq arm chans s
  | .sequencerTimeTick seq => Sys2Proof.Machine.execSequencerTimeTick seq s
  | .snapshotWrite seq => Sys2Proof.Machine.execSnapshotWrite seq s
  | .filterStop h chan => Sys2Proof.Machine.execFilterStop h chan s
  | .filterLoad h chan keep set => Sys2Proof.Machine.execFilterLoad h chan keep set s
  | .filterStart h chan => Sys2Proof.Machine.execFilterStart h chan s
  | .bankWrite h chan set => Sys2Proof.Machine.execBankWrite h chan set s
  | .bankSwap h chan prime fade => Sys2Proof.Machine.execBankSwap h chan prime fade s
  | .bankSwapFadeStart chan => Sys2Proof.Machine.execBankSwapFadeStart chan s
  | .bankSwapEnd chan => Sys2Proof.Machine.execBankSwapEnd chan s
  | .queueStreamStart h push badAction => Sys2Proof.Machine.execQueueStreamStart h push badAction s
  | .queueStreamStop h push => Sys2Proof.Machine.execQueueStreamStop h push s
  | .queueEntryWrite => Sys2Proof.Machine.execQueueEntryWrite s
  | .queueRead h ackSeq maxWords => Sys2Proof.Machine.execQueueRead h ackSeq maxWords s
  | .queuePush => Sys2Proof.Machine.execQueuePush s
  | .recorderQuery h unit badAction => Sys2Proof.Machine.execRecorderQuery h unit badAction s
  | .recorderArm h unit => Sys2Proof.Machine.execRecorderArm h unit s
  | .recorderStop h unit => Sys2Proof.Machine.execRecorderStop h unit s
  | .recorderTrigger h unit => Sys2Proof.Machine.execRecorderTrigger h unit s
  | .captureTrigger unit => Sys2Proof.Machine.execCaptureTrigger unit s
  | .captureDone unit => Sys2Proof.Machine.execCaptureDone unit s
  | .captureRead h unit no offset maxBytes => Sys2Proof.Machine.execCaptureRead h unit no offset maxBytes s
  | .captureRelease h unit no => Sys2Proof.Machine.execCaptureRelease h unit no s
  | .captureReadTimeout unit no => Sys2Proof.Machine.execCaptureReadTimeout unit no s
  | .energyRead h source level first count mask => Sys2Proof.Machine.execEnergyRead h source level first count mask s
  | .demandReset h circuit => Sys2Proof.Machine.execDemandReset h circuit s
  | .cfTestStart h mask durationS badAction => Sys2Proof.Machine.execCfTestStart h mask durationS badAction s
  | .cfTestStop h => Sys2Proof.Machine.execCfTestStop h s
  | .cfTestExpiry => Sys2Proof.Machine.execCfTestExpiry s
  | .urmsHalfCycle bus => Sys2Proof.Machine.execUrmsHalfCycle bus s
  | .eventRecordWrite => Sys2Proof.Machine.execEventRecordWrite s
  | .openEventClose => Sys2Proof.Machine.execOpenEventClose s
  | .pqWindowEnd bus => Sys2Proof.Machine.execPqWindowEnd bus s
  | .pqAggregateEnd bus => Sys2Proof.Machine.execPqAggregateEnd bus s
  | .frequencyIntervalEnd bus => Sys2Proof.Machine.execFrequencyIntervalEnd bus s
  | .supra3sEnd => Sys2Proof.Machine.execSupra3sEnd s
  | .tenMinuteBoundary => Sys2Proof.Machine.execTenMinuteBoundary s
  | .twoHourBoundary => Sys2Proof.Machine.execTwoHourBoundary s
  | .archiveWrite => Sys2Proof.Machine.execArchiveWrite s
  | .pqRead h kind level chan first count => Sys2Proof.Machine.execPqRead h kind level chan first count s
  | .pqEventRead h fromId count => Sys2Proof.Machine.execPqEventRead h fromId count s
  | .pqArchiveRead h bus count fromT => Sys2Proof.Machine.execPqArchiveRead h bus count fromT s
  | .phasorReport => Sys2Proof.Machine.execPhasorReport s
  | .phasorFrameDrop => Sys2Proof.Machine.execPhasorFrameDrop s
  | .pmuConfigTakeEffect => Sys2Proof.Machine.execPmuConfigTakeEffect s
  | .pmuCmdDataOff cmd => Sys2Proof.Machine.execPmuCmdDataOff cmd s
  | .pmuCmdDataOn cmd => Sys2Proof.Machine.execPmuCmdDataOn cmd s
  | .pmuCmdSendCfg2 cmd => Sys2Proof.Machine.execPmuCmdSendCfg2 cmd s
  | .pmuCmdIgnored cmd => Sys2Proof.Machine.execPmuCmdIgnored cmd s
  | .pmuRead h first count => Sys2Proof.Machine.execPmuRead h first count s
  | .pmuStart h badAction => Sys2Proof.Machine.execPmuStart h badAction s
  | .pmuStop h => Sys2Proof.Machine.execPmuStop h s
  | .pmuSendCfg2 h => Sys2Proof.Machine.execPmuSendCfg2 h s
  | .ptpSync port frame => Sys2Proof.Machine.execPtpSync port frame s
  | .ptpFollowUp port frame => Sys2Proof.Machine.execPtpFollowUp port frame s
  | .ptpAnnounce port frame => Sys2Proof.Machine.execPtpAnnounce port frame s
  | .peerDelayRequest port => Sys2Proof.Machine.execPeerDelayRequest port s
  | .peerDelayResponse port frame => Sys2Proof.Machine.execPeerDelayResponse port frame s
  | .sourceTimeout => Sys2Proof.Machine.execSourceTimeout s
  | .holdoverLimit => Sys2Proof.Machine.execHoldoverLimit s
  | .leapSecond => Sys2Proof.Machine.execLeapSecond s
  | .leapOccurredClear => Sys2Proof.Machine.execLeapOccurredClear s
  | .lastLockedRateStore => Sys2Proof.Machine.execLastLockedRateStore s
  | .timeGet h => Sys2Proof.Machine.execTimeGet h s
  | .timeSet h time => Sys2Proof.Machine.execTimeSet h time s
  | .timeOffset h offset meas gmId => Sys2Proof.Machine.execTimeOffset h offset meas gmId s
  | .timeAcceptStep h => Sys2Proof.Machine.execTimeAcceptStep h s
  | .txtsRead h max => Sys2Proof.Machine.execTxtsRead h max s
  | .blazeArm h index badAction flags start period width count => Sys2Proof.Machine.execBlazeArm h index badAction flags start period width count s
  | .blazeDisarm h index flags start => Sys2Proof.Machine.execBlazeDisarm h index flags start s
  | .blazeEdge k => Sys2Proof.Machine.execBlazeEdge k s
  | .blazePulseEnd k => Sys2Proof.Machine.execBlazePulseEnd k s
  | .notchCapture k time rising held => Sys2Proof.Machine.execNotchCapture k time rising held s
  | .notchRead h index max => Sys2Proof.Machine.execNotchRead h index max s
  | .frameTransmit port => Sys2Proof.Machine.execFrameTransmit port s
  | .linkUp port high sqi => Sys2Proof.Machine.execLinkUp port high sqi s
  | .linkDown port => Sys2Proof.Machine.execLinkDown port s
  | .supervisionSend => Sys2Proof.Machine.execSupervisionSend s
  | .ringOpen => Sys2Proof.Machine.execRingOpen s
  | .hsrFrameReceive port frame => Sys2Proof.Machine.execHsrFrameReceive port frame s
  | .discardEntryExpiry => Sys2Proof.Machine.execDiscardEntryExpiry s
  | .netTx h ports flags id frame => Sys2Proof.Machine.execNetTx h ports flags id frame s
  | .netRxRead h => Sys2Proof.Machine.execNetRxRead h s
  | .identifyBroadcastReply => Sys2Proof.Machine.execIdentifyBroadcastReply s
  | .hush via => Sys2Proof.Machine.execHush via s
  | .resume via => Sys2Proof.Machine.execResume via s
  | .directWrite frame => Sys2Proof.Machine.execDirectWrite frame s
  | .snapGroupLatch frame => Sys2Proof.Machine.execSnapGroupLatch frame s
  | .snapLatchTimeout calendar => Sys2Proof.Machine.execSnapLatchTimeout calendar s
  | .calendarStageWrite frame => Sys2Proof.Machine.execCalendarStageWrite frame s
  | .calendarSecCommit frame => Sys2Proof.Machine.execCalendarSecCommit frame s
  | .calendarStagingDiscard => Sys2Proof.Machine.execCalendarStagingDiscard s
  | .unknownOpcode h opcode => Sys2Proof.Machine.execUnknownOpcode h opcode s
  | .nop h params => Sys2Proof.Machine.execNop h params s
  | .identify h => Sys2Proof.Machine.execIdentify h s
  | .getParam h id which => Sys2Proof.Machine.execGetParam h id which s
  | .setParam h id value => Sys2Proof.Machine.execSetParam h id value s
  | .getParams h form which count first ids => Sys2Proof.Machine.execGetParams h form which count first ids s
  | .setParams h count items => Sys2Proof.Machine.execSetParams h count items s
  | .commitParams h => Sys2Proof.Machine.execCommitParams h s
  | .commit h => Sys2Proof.Machine.execCommit h s
  | .defaults h scope => Sys2Proof.Machine.execDefaults h scope s
  | .discardParams h => Sys2Proof.Machine.execDiscardParams h s
  | .getStage h => Sys2Proof.Machine.execGetStage h s
  | .softRestart h reason => Sys2Proof.Machine.execSoftRestart h reason s
  | .nvRead h part page offset count => Sys2Proof.Machine.execNvRead h part page offset count s
  | .nvWrite h part page offset data pfailAfter => Sys2Proof.Machine.execNvWrite h part page offset data pfailAfter s
  | .sessionOpen h part kind password => Sys2Proof.Machine.execSessionOpen h part kind password s
  | .sessionClose h part kind => Sys2Proof.Machine.execSessionClose h part kind s
  | .passwordSet h part kind new overtaken => Sys2Proof.Machine.execPasswordSet h part kind new overtaken s
  | .nvStatusQuery h badAction => Sys2Proof.Machine.execNvStatusQuery h badAction s
  | .nvStatusAcknowledge h part page => Sys2Proof.Machine.execNvStatusAcknowledge h part page s
  | .sessionTimeout path part write => Sys2Proof.Machine.execSessionTimeout path part write s
  | .lockoutExpiry part => Sys2Proof.Machine.execLockoutExpiry part s
  | .scrubRead outcome => Sys2Proof.Machine.execScrubRead outcome s
  | .rtcGet h => Sys2Proof.Machine.execRtcGet h s
  | .rtcSet h flags year month day hour min sec => Sys2Proof.Machine.execRtcSet h flags year month day hour min sec s
  | .osfClear h value => Sys2Proof.Machine.execOsfClear h value s
  | .alAck h alarm value => Sys2Proof.Machine.execAlAck h alarm value s
  | .alarmMatch => Sys2Proof.Machine.execAlarmMatch s
  | .wakeHoldExpiry => Sys2Proof.Machine.execWakeHoldExpiry s
  | .clock32Stall => Sys2Proof.Machine.execClock32Stall s
  | .rtcFollowMeasurement => Sys2Proof.Machine.execRtcFollowMeasurement s
  | .trimLearning => Sys2Proof.Machine.execTrimLearning s
  | .trimLearnedStore => Sys2Proof.Machine.execTrimLearnedStore s
  | .tamperEvaluation x => Sys2Proof.Machine.execTamperEvaluation x s
  | .tamperPersistExpiry slot => Sys2Proof.Machine.execTamperPersistExpiry slot s
  | .clearing => Sys2Proof.Machine.execClearing s
  | .clockMonitorWindow clock d a => Sys2Proof.Machine.execClockMonitorWindow clock d a s
  | .monitorInjection d a => Sys2Proof.Machine.execMonitorInjection d a s
  | .keystoreCheck ok => Sys2Proof.Machine.execKeystoreCheck ok s
  | .trngHealthFail => Sys2Proof.Machine.execTrngHealthFail s
  | .trngRestart ok => Sys2Proof.Machine.execTrngRestart ok s
  | .jtagUpdateIr ir => Sys2Proof.Machine.execJtagUpdateIr ir s
  | .jtagReset => Sys2Proof.Machine.execJtagReset s
  | .tamperRead h => Sys2Proof.Machine.execTamperRead h s
  | .tamperAck h mask signature => Sys2Proof.Machine.execTamperAck h mask signature s
  | .keyAgree h hostPub keyLen => Sys2Proof.Machine.execKeyAgree h hostPub keyLen s
  | .provisionGenerate h badPhase => Sys2Proof.Machine.execProvisionGenerate h badPhase s
  | .provisionInstall h params decrypted signature => Sys2Proof.Machine.execProvisionInstall h params decrypted signature s
  | .canopyWatchdog core => Sys2Proof.Machine.execCanopyWatchdog core s
  | .dspWatchdog => Sys2Proof.Machine.execDspWatchdog s
  | .wardenWatchdog => Sys2Proof.Machine.execWardenWatchdog s
  | .wardenRestartComplete => Sys2Proof.Machine.execWardenRestartComplete s
  | .wardenHeartbeatTimeout => Sys2Proof.Machine.execWardenHeartbeatTimeout s
  | .sensorSample sensor value => Sys2Proof.Machine.execSensorSample sensor value s
  | .logEntryWrite => Sys2Proof.Machine.execLogEntryWrite s
  | .logRead h fromSeq count => Sys2Proof.Machine.execLogRead h fromSeq count s
  | .updateBegin h header => Sys2Proof.Machine.execUpdateBegin h header s
  | .updateEraseDone => Sys2Proof.Machine.execUpdateEraseDone s
  | .updateData h params => Sys2Proof.Machine.execUpdateData h params s
  | .updateActivate h badAction sigOk => Sys2Proof.Machine.execUpdateActivate h badAction sigOk s
  | .updateVerify h sigOk => Sys2Proof.Machine.execUpdateVerify h sigOk s
  | .updateAbort h => Sys2Proof.Machine.execUpdateAbort h s
  | .updateStatus h => Sys2Proof.Machine.execUpdateStatus h s
  | .updateSafePoint => Sys2Proof.Machine.execUpdateSafePoint s
  | .trialReadyTimeout => Sys2Proof.Machine.execTrialReadyTimeout s
  | .updateTrialEnd => Sys2Proof.Machine.execUpdateTrialEnd s
  | .transplantPrepare h badAction destId destPub signature => Sys2Proof.Machine.execTransplantPrepare h badAction destId destPub signature s
  | .transplantPackageBuild => Sys2Proof.Machine.execTransplantPackageBuild s
  | .transplantRead h offset maxBytes => Sys2Proof.Machine.execTransplantRead h offset maxBytes s
  | .transplantDiscard h => Sys2Proof.Machine.execTransplantDiscard h s
  | .transplantImport h params body signature srcSigOk => Sys2Proof.Machine.execTransplantImport h params body signature srcSigOk s
  | .transplantApply => Sys2Proof.Machine.execTransplantApply s
  | .powerStatus h => Sys2Proof.Machine.execPowerStatus h s
  | .displayQuery h badAction item => Sys2Proof.Machine.execDisplayQuery h badAction item s
  | .displayShowItem h item => Sys2Proof.Machine.execDisplayShowItem h item s
  | .displayResumeScroll h item => Sys2Proof.Machine.execDisplayResumeScroll h item s
  | .segmentTest h item => Sys2Proof.Machine.execSegmentTest h item s
  | .segmentTestEnd => Sys2Proof.Machine.execSegmentTestEnd s
  | .displayScroll => Sys2Proof.Machine.execDisplayScroll s
  | .displayHoldExpiry => Sys2Proof.Machine.execDisplayHoldExpiry s
  | .keyPress key => Sys2Proof.Machine.execKeyPress key s
  | .keyRelease key => Sys2Proof.Machine.execKeyRelease key s
  | .keyLongPress key => Sys2Proof.Machine.execKeyLongPress key s
  | .keyRead h max => Sys2Proof.Machine.execKeyRead h max s
  | .consoleAttach optical => Sys2Proof.Machine.execConsoleAttach optical s
  | .consoleDetach optical => Sys2Proof.Machine.execConsoleDetach optical s
  | .consoleStatus line => Sys2Proof.Machine.execConsoleStatus line s
  | .consoleEnergy line => Sys2Proof.Machine.execConsoleEnergy line s
  | .consoleRms line => Sys2Proof.Machine.execConsoleRms line s
  | .consoleSupply line => Sys2Proof.Machine.execConsoleSupply line s
  | .consoleLog line => Sys2Proof.Machine.execConsoleLog line s
  | .testTdacOn h badAction code durationS => Sys2Proof.Machine.execTestTdacOn h badAction code durationS s
  | .testTdacOff h code durationS => Sys2Proof.Machine.execTestTdacOff h code durationS s
  | .tdacLevelExpiry => Sys2Proof.Machine.execTdacLevelExpiry s
  | .testOutputForce h output level durationS => Sys2Proof.Machine.execTestOutputForce h output level durationS s
  | .testOutputRelease h output durationS => Sys2Proof.Machine.execTestOutputRelease h output durationS s
  | .testOutputExpiry output => Sys2Proof.Machine.execTestOutputExpiry output s
  | .spiPacketFrame frame => Sys2Proof.Machine.execSpiPacketFrame frame s
  | .uartFrameTransmit => Sys2Proof.Machine.execUartFrameTransmit s
  | .calendarLeapSecond => Sys2Proof.Machine.execCalendarLeapSecond s
  | .calendarRangeEnd => Sys2Proof.Machine.execCalendarRangeEnd s
  | .clock32Resume => Sys2Proof.Machine.execClock32Resume s
  | .deferredSeqExpiry alarm => Sys2Proof.Machine.execDeferredSeqExpiry alarm s
  | .ownerAnswerTimeout h opcode owner => Sys2Proof.Machine.execOwnerAnswerTimeout h opcode owner s
  | .restartDelayReset => Sys2Proof.Machine.execRestartDelayReset s
  | .canopyRestartCountReset => Sys2Proof.Machine.execCanopyRestartCountReset s
  | .learningTableAgeing => Sys2Proof.Machine.execLearningTableAgeing s
  | .ownFrameAdmission => Sys2Proof.Machine.execOwnFrameAdmission s

end Sys2Proof.Machine
end

