-- ==== Sys2Proof/Machine/Tick.lean ====
section
/-! DEFINITION. One TIME cycle, which is what a step does when no command waits: the time counter, the calendar and the action of a
key count on (R249, R256, R367, R453; assumption 1). -/

namespace Sys2Proof.Machine

/-- The counter after one TIME cycle; it runs from PLL lock (R30). -/
def TimeEng.cycle (t : TimeEng) (d : Nat × Nat) : TimeEng := if t.running then { t with cnt := t.cnt + d.1, frac := d.2 } else t

/-- One TIME cycle of 7.8125 ns. -/
def State.tick (s : State) : State :=
  let te := s.te.cycle (countStep s)
  let s1 := { s with te := te, rtc := if s.pw.aonUp then s.rtc.cycle (appliedTrim s) (pllRate s) te.cnt else s.rtc, clk := s.clk + 1 }
  s1.followStep.keyTick

end Sys2Proof.Machine
end

