-- ==== Sys2Proof/Safety.lean ====
section
/-! DEFINITION. What counts as a safe state of the machine, in the terms that statements use: the store in its canonical form, the
log buffer within Warden RAM, a stage of Table 2-1, and every bank of registers with the number of entries that the chip has. -/

namespace Sys2Proof.Machine

/-- Every bank of registers has as many entries as the chip has: channels, converters, filters, stands, sequencers and capture
units, time outputs and inputs, ports, buses, alarms, lockouts, passwords, tamper slots, clock detectors, images and SCRATCH words. -/
def State.Shape (s : State) : Prop :=
  s.chans.length = 36 ∧ s.convs.length = 40 ∧ s.filts.length = 36 ∧ s.stands.length = 4 ∧ s.seqs.length = 4 ∧
  s.units.length = 4 ∧ s.te.blazes.length = 8 ∧ s.te.notches.length = 8 ∧ s.nt.ports.length = 2 ∧ s.pq.buses.length = 2 ∧
  s.rtc.alarms.length = 4 ∧ s.se.locks.length = 6 ∧ s.se.pws.length = 8 ∧ s.tp.slots.length = 32 ∧ s.tp.detPrev.length = 3 ∧
  s.up.banks.length = 4 ∧ s.up.active.length = 4 ∧ s.lk.scratch.length = 32

/-- The store lists no address outside the array, none twice and no byte that an unlisted address reads as; the log buffer holds
at most 256 entries; the stage is one of Table 2-1 and not above 2 while Canopy does not run; every bank has its number of
entries (R26, R27, R338, R416). -/
def State.Inv (s : State) : Prop :=
  memWf s.hw.mem = true ∧ s.wd.buffer.length ≤ 256 ∧ s.pw.stage ≤ 4 ∧ (s.wd.canopyRunning = false → s.pw.stage ≤ 2) ∧ s.Shape

/-- The state in which an accepted request acts: its NONCE recorded, the run of authentication failures over, the request counted
(R311, Table 14-14). -/
def State.accepted (s : State) (h : Hdr) : State := (s.secPass h).onLk fun l => { l with cmdAccepted := l.cmdAccepted + 1 }

/-- A request gets past the checks that precede those of its own opcode (R22, R304, R308, R311, R323, R328, R456 to R458): no earlier
commit waits, the outbound stream of its lane has room, a stage that serves the opcode, an authentic packet on its lane, and on the
console a known command at its level. -/
abbrev Opens (op : Op) (h : Hdr) (s : State) : Prop :=
  s.pr.committing = none ∧ streamFull s h = false ∧ 2 ≤ s.pw.stage ∧ op.minStage ≤ s.pw.stage ∧
    (op.warden = true → s.wd.running = true) ∧ consoleAbsent s h = false ∧ authentic s h = true ∧ (∀ b, op.bulk = some b → h.bulk = b) ∧ consoleUnknown h op.code = false ∧
    consoleShort (s.accepted h) h op.code = false ∧ (h.more = true → op.frag = true)

/-- The reply to a request that its opcode answers, from the state that the opcode leaves: status and the bytes after it, secured
where the request was, but for opcodes whose reply is always plain (R311, R320, R408). -/
def State.replied (s : State) (op : Op) (h : Hdr) (st : Status) (bytes : List Byte) : State :=
  s.answer h op.code st bytes (h.sec.isSome && !op.plain)

/-- From `s` to `t` every byte of the store outside some ranges, each an address and a length, reads as before. -/
def keepsBytes (s t : State) (l : List (Nat × Nat)) : Prop :=
  ∀ a, (∀ e ∈ l, a < e.1 ∨ e.1 + e.2 ≤ a) → rdByte t.hw.mem a = rdByte s.hw.mem a

/-- The host interface, out of power-up, receives a whole direct write `bs` to an address: on SPI the frame is the write itself, on the
UART it decodes to it (R296 to R298, R305, R306). -/
def HearsWrite (s : State) (frame bs : List Byte) (addr : Nat) : Prop :=
  s.pw.stage ≠ 0 ∧ bs.length = 7 ∧ bitAt (beAt bs 0 1) 7 = true ∧ bitAt (beAt bs 0 1) 6 = true ∧ beAt bs 1 1 = addr ∧
    (s.pw.hsel = false → frame = bs) ∧ (s.pw.hsel = true → frame ≠ [] ∧ uncobs frame = some bs)

/-- After a whole direct write: on SPI the device has driven zeros, on the UART it sends nothing (R300, R306). -/
def State.wroteDirect (s : State) : State := if s.pw.hsel then s else s.drives (zeros 7)

/-- The host interface, out of power-up, receives one whole control packet for the device with a correct CRC-16: on SPI a frame that
announces and holds exactly it, on the UART a frame that decodes to it (R301, R302, R305, R308). -/
def Brings (s : State) (frame pkt : List Byte) : Prop :=
  s.pw.stage ≠ 0 ∧ pkt.length = packetSize pkt ∧ pkt.length < 4096 ∧ beAt pkt 0 1 % 16 = 1 ∧ bitAt (beAt pkt 0 1) 7 = false ∧
    bitAt (beAt pkt 0 1) 6 = false ∧ (fieldAt pkt 6 2 % 4096 = s.nt.node ∨ fieldAt pkt 6 2 % 4096 = 0xFFF) ∧
    packetOk pkt = true ∧ fieldAt pkt 4 2 ≤ (if bitAt (beAt pkt 0 1) 4 then 4056 else 4080) ∧
    (s.pw.hsel = false → frame = be 2 pkt.length ++ pkt) ∧ (s.pw.hsel = true → frame ≠ [] ∧ uncobs frame = some pkt)

/-- The outcome is a next state. -/
def Runs (o : Host.Outcome State Fault Refusal) : Prop := ∃ t, o = .next t

/-- The command answers a next state, of which a property holds. -/
def Gives (i : Instr) (s : State) (p : State → Prop) : Prop := ∃ t, exec i s = .next t ∧ p t

/-- The request is answered with a status; a property holds of the state that its opcode leaves and of the bytes after STATUS. -/
def Answers (i : Instr) (s : State) (op : Op) (h : Hdr) (st : Status) (p : State → List Byte → Prop) : Prop :=
  ∃ v bs, exec i s = .next (v.replied op h st bs) ∧ p v bs

end Sys2Proof.Machine
end

