-- ==== Sys2Proof/Certificates/Slice0/Obligations.lean ====
section
/-! DEFINITION. Statements about the machine, each a proposition named by what it states; OBLIGATIONS.json lists them. -/

open Sys2Proof Sys2Proof.Machine

/-! ### The machine as a whole -/

/-- A step runs the command at the front of the queue on the state with the queue's rest (assumption 1). For every command c and
state s, a step of s with c at the front of its queue is exec of c on s with the queue's rest; with an empty queue a step is one
cycle of the TIME clock, which moves the model clock by one and leaves the store, the registers, the parameters and the stage
alone. That the queue exists, and that a cycle passes on an empty one, is the model's choice (assumption 1). -/
def Obligations.StepRunsTheFrontCommand : Prop :=
  ∀ s : State,
    (∀ c r, step { s with pending := c :: r } = exec c { s with pending := r }) ∧
    (s.pending = [] → ∃ t, step s = .next t ∧ t.clk = s.clk + 1 ∧ t.hw = s.hw ∧ t.me = s.me ∧ t.pr = s.pr ∧ t.pw = s.pw ∧
      t.pending = [] ∧ (s.te.running = false → t.te = s.te) ∧ (s.te.running = true → s.te.cnt ≤ t.te.cnt))

/-- The reset state is safe, powered down, and holds nothing. In the reset state the device is at stage 0 with no command
waiting and nothing in the store, the log buffer, the result queue, the outbound streams, the sessions or the pending set; no
tamper source is latched or active and each has its reset response, the time counter stands still in FREE, OSF is clear,
IRQ_MASK is 1 and NOMINAL_HZ 50; the safety invariant, and with it the number of entries of every bank, holds. Values that the
spec does not give are the model's (assumption 7). -/
def Obligations.ResetStateIsSafe : Prop :=
  State.reset.Inv ∧ State.reset.pw.stage = 0 ∧ State.reset.pending = [] ∧ State.reset.hw.mem = [] ∧
    State.reset.wd.buffer = [] ∧ State.reset.qu.entries = [] ∧ State.reset.lk.ctrlOut = [] ∧ State.reset.lk.bulkOut = [] ∧
    State.reset.se.open_ = [] ∧
    State.reset.te.running = false ∧ State.reset.te.servo = .free ∧ State.reset.rtc.osf = false ∧ State.reset.lk.irqMask = 1 ∧
    (∀ k < 32, (State.reset.slot k).latched = false ∧ (State.reset.slot k).active = false ∧
      (State.reset.slot k).resp = resetResponses.getD k 0) ∧
    State.reset.pr.pending = [] ∧ par State.reset (pid 2 0 0) = 50

/-- Every step keeps the store canonical, the log buffer within 256, the stage within what Canopy allows, and every bank whole.
For every state in which the store lists its cells in rising order inside the array without a zero, the log buffer holds at most
256 entries, the stage is at most 4 and at most 2 while Canopy does not run, and each bank of registers has as many entries as
the chip has (36 channels, 40 converters, 36 filters, 4 stands, sequencers, capture units and alarms, 8 blazes and notches, 2
ports and buses, 6 lockouts, 8 passwords, 32 tamper slots, 3 clock detectors, 4 images, 32 SCRATCH words): if a step answers a
next state, that state is again such a state, whatever command was at the front. The other statements take parts of this as
premises. -/
def Obligations.StepKeepsTheInvariant : Prop :=
  ∀ s t : State, s.Inv → step s = .next t → t.Inv

/-- A well-formed command answers a next state; a malformed event is the only fault, and nothing is refused. For every state,
exec of a command whose fields fit their widths and whose lists have the length of what they stand for answers a next state,
where a DSP frame brings the P periods of the state's mode: one in syntonised mode, at most two in free mode; and no command,
well formed or not, is refused, and its only fault is malformedCommand. -/
def Obligations.WellFormedCommandsRun : Prop :=
  ∀ (c : Instr) (s : State), (c.wf = true → (∀ f, c = .dspFrame f → framesFit s f = true) → ∃ t, exec c s = .next t) ∧
    ((∃ t, exec c s = .next t) ∨ exec c s = .fault .malformedCommand)

/-- No command changes the queue of waiting commands or the model clock. Whatever the command and the state, a next state that
exec answers has the queue and the model clock of the state it ran on: only a step takes commands, and only an idle cycle lets
time pass (assumption 1). -/
def Obligations.CommandsLeaveTheQueueAlone : Prop :=
  ∀ (c : Instr) (s t : State), exec c s = .next t → t.pending = s.pending ∧ t.clk = s.clk

/-! ### The start of supplies, clocks and stages -/

/-- The first rows of the start sequence: VAUX, VDD33, VCORE, crystal and PLL. From phase off with no restart delay a VAUX rise
starts the sequence with its straps, PFAIL asserted and BOOT_FAULT 0; within the delay it is kept for the delay's end. VDD33
regulation latches HSEL and REFSEL, judges REFIN and starts an AON domain that had no power, leaving one that had power as it
was; VCORE regulation (nothing while TEST_EN holds the buck), a stable crystal and PLL lock each take the next phase; at PLL
lock the time counter runs from the calendar read as TAI with the Pioneer record's UTC offset, and the TRNG gives output. Each
row changes the subsystems that its clause names only. -/
def Obligations.StartSequenceRunsThroughPll : Prop :=
  ∀ s : State,
    (∀ e33 te, s.pw.phase = .off → s.pw.restartWait = false → Gives (.vauxStartThreshold e33 te) s fun t =>
      t.pw.phase = .started ∧ t.pw.ext33 = e33 ∧ t.pw.testEn = te ∧ t.pw.buckVdd33 = !e33 ∧ t.pw.bootFault = 0 ∧
      t.pw.pfail = true ∧ t.pw.startClk = s.clk ∧ t.pw.stage = s.pw.stage ∧ t = { s with pw := t.pw }) ∧
    (∀ e33 te, s.pw.phase = .off → s.pw.restartWait = true →
      exec (.vauxStartThreshold e33 te) s =
        .next { s with pw := { s.pw with vauxWaiting := true, ext33 := e33, testEn := te } }) ∧
    (∀ hsel refsel ok, s.pw.phase = .started → Gives (.vdd33Regulation hsel refsel ok) s fun t =>
      t.pw.phase = .vdd33 ∧ t.pw.hsel = hsel ∧ t.pw.refsel = refsel ∧ t.pw.buckVcore = !s.pw.testEn ∧
      t.ref.bad = (refsel && !ok) ∧ t.pw.aonUp = true ∧ (s.pw.aonUp = true → t.rtc = s.rtc) ∧
      (s.pw.aonUp = false → t.rtc.cal = Cal.powerUp ∧ t.rtc.osf = true) ∧
      t = { s with pw := t.pw, ref := t.ref, rtc := t.rtc }) ∧
    (s.pw.phase = .vdd33 → s.pw.buckVcore = true →
      exec .vcoreRegulation s = .next { s with pw := { s.pw with phase := .vcore } }) ∧
    (s.pw.phase = .vdd33 → s.pw.buckVcore = false → exec .vcoreRegulation s = .next s) ∧
    (s.pw.phase = .vcore → exec .crystalStable s = .next { s with pw := { s.pw with phase := .crystal } }) ∧
    (s.pw.phase = .crystal → Gives .pllLock s fun t =>
      t.pw = { s.pw with phase := .pll, buckRoot := true } ∧ t.te.running = true ∧
      t.te.cnt = calToTai s.rtc.cal (pioUtc s) ∧ t.te.frac = 0 ∧ par t 0x380D = ofSigned 16 (pioUtc s) ∧
      t.tp = { s.tp with trngOk := true } ∧ t.rtc = { s.rtc with edgeCnt := t.rtc.edgeCnt } ∧
      t = { s with pw := t.pw, te := t.te, tp := t.tp, pr := t.pr, rtc := t.rtc })

/-- Loader, modulator start and first settled sample bring the device to stage 1. After PLL lock the loader takes the valid
Pioneer record with the later sequence, or sets BOOT_FAULT 6, and takes the committed NODE into use; it leaves the store, the
stage, the clocks and the tamper state as they were. Every Clearing that was left pending is then finished: identity key,
wrapped copy, session keys and sessions are gone, every password is CLEARED, and no byte of the store changes but those of the
password record, of the wrapped key copy and of the torn bitmap. The modulators start with every channel unsettled for 68
samples and its biquads' settling time. The first settled sample enters stage 1, gives each tamper source its reset response
raised to its floor, and leaves the stage-change interrupt and its log entry. -/
def Obligations.LoaderAndModulatorsReachStageOne : Prop :=
  ∀ s : State,
    (s.pw.phase = .pll → Gives .loaderComplete s fun t =>
      t.pw.phase = .loaded ∧ t.nt.node = parCommitted t 0x5801 ∧ t.hw.mem = s.hw.mem ∧ t.pw.stage = s.pw.stage ∧
      (pioSelect s = none → t.pw.bootFault = 6) ∧
      (∀ b q body, pioSelect s = some (b, q, body) → t.hw.pioSeq = some q ∧ t.pw.bootFault = s.pw.bootFault) ∧
      t.hw.faultCause = ledgerCause s ∧ t.wd = s.wd ∧ t.tp = s.tp ∧ t.te = s.te ∧ t.rtc = s.rtc ∧ t.se = s.se) ∧
    (s.tp.clearPending = true → s.pw.phase = .loaded → memWf s.hw.mem = true → Gives .clearPendingResume s fun t =>
      t.tp.clearPending = false ∧ t.tp.clearQueue = [] ∧
      (s.tp.clearQueue ≠ [] → t.tp.identity = none ∧ t.tp.wrapped = none ∧ t.tp.keys = [] ∧ t.se.open_ = [] ∧
        ∀ p ∈ t.se.pws, p.st = 2) ∧
      keepsBytes s t [(0, 256), (pageAddr 0 pwRec.2, 512), (pageAddr 0 keyRec.2, 512)] ∧
      t = { s with tp := t.tp, se := t.se, hm := t.hm, wd := t.wd, hw := t.hw }) ∧
    (s.pw.phase = .loaded → Gives .modulatorStart s fun t =>
      t.pw = { s.pw with phase := .modulators, modClk := s.clk } ∧
      (s.filts.length = 36 → ∀ c < 36, (t.filt c).uns = 68 + bqSettle s c ∧ (t.filt c).pioUns = 68 + bqSettle s c) ∧
      t = { s with pw := t.pw, convs := t.convs, filts := t.filts }) ∧
    (s.pw.phase = .modulators → s.pw.stage = 0 → s.wd.buffer.length < 256 → s.tp.slots.length = 32 →
      Gives .firstSettledSample s fun t =>
      t.pw = { s.pw with phase := .metering, stage := 1 } ∧ t.lk = { s.lk with irq := setBit s.lk.irq 0 } ∧
      (∀ k < 32, t.slot k = { s.slot k with resp := Nat.max (resetResponses.getD k 0) (slotFloors.getD k 0) }) ∧
      t.wd.buffer = s.wd.buffer ++
        [⟨s.now80, 0x0102, fitBytes 14 (le 1 0 ++ le 1 1), logFlags s false false false, s.clk⟩] ∧
      t = { s with pw := t.pw, lk := t.lk, tp := t.tp, wd := t.wd })

/-- AON power-up, brown-out, VCORE trip and the restart delay. An AON domain that receives power starts its calendar at the
power-up date with OSF set. A brown-out of the running domain resets calendar, alarms and learned trim with OSF, and forgets the
latched sources, the tamper buffer, a pending Clearing and the key store. A VCORE trip returns everything but the always-on
domain, the store, the flash and what the model keeps beside them (assumption 14) to its state before power: stage 0, phase off,
no sessions, the time counter stopped, with the restart delay begun; the store's bytes stay where no checkpoint, no commit and
no write of less than the programming time ago is cut, and with VBAT present the calendar and the key store stay. The end of the
delay starts the sequence where VAUX has risen, and frees the next rise where it has not; ten seconds after stage 2 was entered
it returns to 1 ms. -/
def Obligations.AlwaysOnDomainKeepsAndLoses : Prop :=
  ∀ s : State,
    (s.pw.aonUp = false → exec .aonPowerUp s = .next { s with
      pw := { s.pw with aonUp := true, vbat := true },
      rtc := { s.rtc with cal := Cal.powerUp, phase := 0, trimAcc := 0, osf := true, setSince := false } }) ∧
    (s.pw.aonUp = true → exec .aonPowerUp s = .next { s with pw := { s.pw with vbat := true } }) ∧
    (s.pw.aonUp = true → Gives .aonBrownOut s fun t =>
      t.rtc.cal = Cal.powerUp ∧ t.rtc.osf = true ∧ t.rtc.trimLearned = 0 ∧ t.rtc.alarms = List.replicate 4 Alarm.reset ∧
      t.tp.identity = none ∧ t.tp.keys = [] ∧ t.tp.buffer = [] ∧ t.tp.clearPending = false ∧
      (∀ x ∈ t.tp.slots, x.latched = false ∧ x.active = false) ∧ t.pw.restartDelayMs = 1 ∧
      t = { s with rtc := t.rtc, tp := t.tp, pw := t.pw, pr := t.pr }) ∧
    (s.pw.phase ≠ .off → s.pw.phase ≠ .started → Gives .vcoreTrip s fun t =>
      t.pw.stage = 0 ∧ t.pw.phase = .off ∧ t.pw.restartWait = true ∧ t.pr.pending = [] ∧ t.up.banks = s.up.banks ∧
      t.up.active = s.up.active ∧
      (s.hw.ckpt = none → s.pr.committing = none → s.hw.flightClk + 25000 + 5 * s.hw.flight.length < s.clk →
        t.hw.mem = s.hw.mem) ∧
      (s.pw.vbat = true → t.rtc.cal = s.rtc.cal ∧ t.rtc.osf = s.rtc.osf ∧ t.tp.identity = s.tp.identity ∧
        t.tp.keys = s.tp.keys ∧ t.pw.aonUp = s.pw.aonUp) ∧
      (s.pw.vbat = false → t.rtc.osf = true ∧ t.tp.identity = none ∧ t.pw.aonUp = false) ∧
      t = { State.reset with pw := t.pw, rtc := t.rtc, hw := { Heart.reset with mem := t.hw.mem, flips := t.hw.flips },
                             pr := t.pr, tp := t.tp, up := t.up, hm := t.hm, pq := t.pq, pm := t.pm, clk := s.clk,
                             free := t.free, pending := s.pending }) ∧
    (s.pw.vauxWaiting = true → s.after s.pw.tripClk (s.pw.restartDelayMs * cycMs) = true → Gives .restartDelayExpiry s fun t =>
      t.pw.phase = .started ∧ t.pw.ext33 = s.pw.ext33 ∧ t.pw.testEn = s.pw.testEn ∧ t.pw.restartWait = false ∧
      t.pw.vauxWaiting = false ∧ t = { s with pw := t.pw }) ∧
    (s.pw.vauxWaiting = false → s.after s.pw.tripClk (s.pw.restartDelayMs * cycMs) = true →
      exec .restartDelayExpiry s = .next { s with pw := { s.pw with restartWait := false } }) ∧
    (2 ≤ s.pw.stage → s.pw.stage2At.any (s.after · (10 * cycS)) = true →
      exec .restartDelayReset s = .next { s with pw := { s.pw with restartDelayMs := 1 } })

/-- PFAIL, power-fail checkpoints, their completion, buck limits, TEST_EN and POWER_STATUS. PFAIL from stage 1 on sets the flag,
counts it and begins a power-fail checkpoint in the copy that does not hold the last complete one, one sequence later, without
changing the running registers; where it cuts no checkpoint short it changes no byte of the store. While PFAIL lasts after a
first release the checkpoint is repeated a millisecond after the last. PFAIL's release clears the flag and gives the length of
an episode that began after power-up. A finished checkpoint lays its image into the store at its copy, becomes the last complete
one, and changes no byte outside it but the torn bits of its pages. A buck's current limit is recorded for a running buck,
TEST_EN's release lets the VCORE buck start, and POWER_STATUS answers the supplies and changes nothing. -/
def Obligations.PowerFailAndCheckpoints : Prop :=
  ∀ s : State,
    (s.pw.stage ≠ 0 → s.pw.pfail = false → Gives .pfailAssert s fun t =>
      t.pw = { s.pw with
        pfail := true, pfailCount := u32 (s.pw.pfailCount + 1), pfailClk := s.clk, failClk := s.clk } ∧
      (∃ c, t.hw.ckpt = some c ∧ c.kind = 1 ∧
        (∀ k n, s.hw.ledger = some (k, n) → c.base = ledgerBase (1 - k == 1) ∧ c.seq = (n + 1) % 2 ^ 32) ∧
        (s.hw.ledger = none → c.base = ledgerBase false ∧ c.seq = 1)) ∧
      (s.hw.ckpt = none → t.hw.mem = s.hw.mem) ∧
      t = { s with pw := t.pw, hw := t.hw, wd := t.wd, pq := t.pq, free := t.free }) ∧
    (s.pw.stage ≠ 0 → s.pw.pfail = true → s.pw.pfailReleased = true → s.after s.pw.failClk cycMs = true →
      Gives .powerFailCheckpoint s fun t =>
      (∃ c, t.hw.ckpt = some c ∧ c.kind = 1 ∧
        (∀ k n, s.hw.ledger = some (k, n) → c.base = ledgerBase (1 - k == 1) ∧ c.seq = (n + 1) % 2 ^ 32) ∧
        (s.hw.ledger = none → c.base = ledgerBase false ∧ c.seq = 1)) ∧
      (s.hw.ckpt = none → t.hw.mem = s.hw.mem) ∧ t.pw = { s.pw with failClk := s.clk } ∧
      t = { s with pw := t.pw, hw := t.hw, wd := t.wd, pq := t.pq, free := t.free }) ∧
    (s.pw.phase ≠ .off → s.pw.pfail = true → exec .pfailRelease s = .next { s with pw := { s.pw with
      pfail := false, pfailReleased := true,
      pfailLastUs := if s.pw.pfailReleased then u32 ((s.clk - s.pw.pfailClk) / 128) else s.pw.pfailLastUs } }) ∧
    (∀ c, s.hw.ckpt = some c → c.base = ledgerBase false ∨ c.base = ledgerBase true → c.image.length = 16384 →
      memWf s.hw.mem = true → Gives .checkpointComplete s fun t =>
      t.hw.ckpt = none ∧ t.hw.ledger = some (if c.base = ledgerBase false then 0 else 1, c.seq) ∧
      rdBytes t.hw.mem c.base 16384 = c.image ∧ keepsBytes s t [(c.base, 16384), (c.base / 2048, 8)] ∧
      t = { s with hw := t.hw, pq := t.pq, free := t.free }) ∧
    (∀ v, exec (.buckCurrentLimit v) s = .next { s with pw := { s.pw with
      limitVdd33 := s.pw.limitVdd33 || (!v && s.pw.buckVdd33), limitVcore := s.pw.limitVcore || (v && s.pw.buckVcore) } }) ∧
    (exec .testEnRelease s = .next { s with pw := { s.pw with
      testEn := false, buckVcore := s.pw.buckVcore || (s.pw.testEn && s.pw.phase == .vdd33) } }) ∧
    (∀ h, Opens opPowerStatus h s → h.len = 0 →
      exec (.powerStatus h) s = .next ((s.accepted h).replied opPowerStatus h .ok
        (zeros 2 ++ le 4 (powerState (s.accepted h)) ++ s.pw.supplies.flatMap (le 4) ++ le 2 s.pw.pInMw ++ zeros 2 ++
          le 4 s.pw.lastHoldupUs ++ le 4 s.pw.pfailCount)))

/-- Warden, DSP and Canopy start, with their fallbacks, and Canopy restarts. At stage 1 a Warden image that may run and verifies
brings stage 2, the network with the committed NET_MODE, an empty tamper buffer and the ledger loaded; running the region that
was not tried first sets BOOT_FAULT 1, and no valid image leaves stage 1 with BOOT_FAULT 2. The DSP microcode starts the kernels
of energy, power quality and phasors, with Pioneer's shadow waiting for its boundary; without it BOOT_FAULT is 5 and no kernel
runs. At stage 2 with the kernels running a Canopy image that may run and verifies, outside the back-off, brings stage 3, or
stage 4 where the servo is LOCKED already. A requested or a watchdog restart stops Canopy at a block boundary: stage 2,
accounting with Pioneer, aggregation paused, no commit in progress, a servo that was tracking in HOLDOVER. Back-off and count of
unplanned restarts end when their times have passed. -/
def Obligations.WardenDspAndCanopyStart : Prop :=
  ∀ s : State,
    (∀ a o, s.pw.stage = 1 → s.wd.running = false → (s.bootKind 1 a o true).2.1 = true →
      Gives (.wardenStart a o) s fun t =>
        t.wd.running = true ∧ t.pw.stage = 2 ∧ t.nt.up = true ∧ t.nt.mode = parCommitted t 0x5800 ∧ t.tp.buffer = [] ∧
        t.hw.loaded = true ∧ t.pw.bootFault = (if (s.bootKind 1 a o true).2.2 then 1 else s.pw.bootFault) ∧
        t.te.cnt = s.te.cnt ∧ t.me.kernels = s.me.kernels ∧ t.pw.phase = s.pw.phase) ∧
    (∀ a o, s.pw.stage = 1 → s.wd.running = false → (s.bootKind 1 a o true).2.1 = false →
      Gives (.wardenStart a o) s fun t => t.pw = { s.pw with bootFault := 2 } ∧ t.wd.running = false ∧ t.hw = s.hw ∧
        t.te = s.te ∧ t.pr = s.pr ∧ t.nt = s.nt) ∧
    (∀ a o, 2 ≤ s.pw.stage → s.wd.running = true → s.me.kernels = false → (s.bootKind 2 a o true).2.1 = true →
      Gives (.dspStart a o) s fun t =>
        t.me.kernels = true ∧ t.me.fromB1 = false ∧ t.pw.shadow = .waiting ∧ t.pq.running = true ∧ t.pm.running = true ∧
        t.wd.dspRunning = true ∧ t.wd.missedFrames = 0 ∧ t.pw.stage = s.pw.stage ∧ t.te = s.te ∧ t.pr = s.pr ∧
        t.nt = s.nt ∧ t.rtc = s.rtc) ∧
    (∀ a o, 2 ≤ s.pw.stage → s.wd.running = true → s.me.kernels = false → (s.bootKind 2 a o true).2.1 = false →
      Gives (.dspStart a o) s fun t => t.pw = { s.pw with bootFault := 5 } ∧ t.me.kernels = false ∧ t.hw = s.hw ∧
        t.te = s.te ∧ t.pr = s.pr ∧ t.nt = s.nt) ∧
    (∀ a o, s.pw.stage = 2 → s.wd.running = true → s.me.kernels = true → s.wd.canopyRunning = false → s.wd.backoff = none →
      (s.bootKind 0 a o (s.wd.canopyRestarts == 0)).2.1 = true → Gives (.canopyReady a o) s fun t =>
        t.wd.canopyRunning = true ∧ t.pw.stage = (if s.te.servo = .locked then 4 else 3) ∧
        t.pw.handoverPending = !s.pw.acct ∧ bitAt t.lk.irq 0 = true ∧ t.te = s.te ∧ t.pr = s.pr ∧ t.nt = s.nt ∧
        t.rtc = s.rtc) ∧
    (s.wd.canopyRunning = true → atBlock s = true → s.wd.restartUnplanned = true ∨ s.wd.restartReq.isSome = true →
      Gives .canopyRestart s fun t =>
        t.wd.canopyRunning = false ∧ t.pw.stage = 2 ∧ t.pw.acct = false ∧ t.pw.handoverPending = false ∧
        t.pq.agg = false ∧ t.wd.restartReq = none ∧ t.wd.canopyRestarts = u32 (s.wd.canopyRestarts + 1) ∧
        t.wd.stopCause = (if s.wd.restartUnplanned then (2, 0) else (0, s.wd.restartReq.getD 0)) ∧
        t.pr.committing = none ∧ t.pr.committed = s.pr.committed ∧
        t.te.servo = (if s.te.servo = .acquire ∨ s.te.servo = .locked then .holdover else s.te.servo) ∧
        t.te.cnt = s.te.cnt ∧ t.hw = s.hw ∧ t.me = s.me) ∧
    (∀ n, s.wd.backoff = some n → s.after s.wd.stopClk (n * cycS) = true →
      exec .canopyBackoffExpiry s = .next { s with wd := { s.wd with backoff := none } }) ∧
    (s.after s.wd.unplannedClk (600 * cycS) = true →
      exec .canopyRestartCountReset s = .next { s with wd := { s.wd with unplanned := 0 } })

/-! ### Time engine (chapter 11) -/

/-- Source timeout, holdover limit, leap seconds and the stored rate. Without offsets for SOURCE_TIMEOUT_MS an acquiring or
locked servo enters HOLDOVER on its integral rate, and after HOLDOVER_LIMIT_S the servo in HOLDOVER goes FREE; either change
leaves counter and store alone, raises the servo interrupt and leaves no stage above 3. A pending leap second moves UTC_OFFSET
by one second at its second of the UTC day, its bit clears and OCCURRED sets; at any other instant nothing happens. OCCURRED
clears a day later. Hourly the Warden keeps the locked servo's integral rate, in the device record's pages of the store only.
Each changes the subsystems that its clause names only. -/
def Obligations.ServoTimeoutsAndLeapSeconds : Prop :=
  ∀ s : State,
    (s.te.servo = .acquire ∨ s.te.servo = .locked → s.after s.te.quietClk (par s (pid 7 0 8) * cycMs) = true →
      Gives .sourceTimeout s fun t =>
      t.te.servo = .holdover ∧ t.te.f = s.te.f ∧ t.te.r = s.te.f ∧ t.te.cnt = s.te.cnt ∧ t.te.holdEst = teNs s ∧
      t.pw.stage = Nat.min s.pw.stage 3 ∧ bitAt t.lk.irq 8 = true ∧ t.rtc.cal = s.rtc.cal ∧
      (s.te.servo = .locked → t.rtc.following = false) ∧ (s.te.servo = .acquire → t.rtc = s.rtc) ∧
      t = { s with pw := t.pw, te := t.te, rtc := t.rtc, pr := t.pr, lk := t.lk, wd := t.wd, pm := t.pm, free := t.free }) ∧
    (s.te.servo = .holdover → s.after s.te.lastAcceptClk (par s (pid 7 0 10) * cycS) = true → Gives .holdoverLimit s fun t =>
      t.te.servo = .free ∧ t.te.f = s.te.f ∧ t.te.r = s.te.f ∧ t.te.cnt = s.te.cnt ∧
      t.pw.stage = Nat.min s.pw.stage 3 ∧ bitAt t.lk.irq 8 = true ∧
      t = { s with pw := t.pw, te := t.te, pr := t.pr, lk := t.lk, wd := t.wd, free := t.free }) ∧
    (bitAt (leapWord s) 0 = true → utcDaySecond s 1 = true → utcOffset s < 32767 → Gives .leapSecond s fun t =>
      utcOffset t = utcOffset s + 1 ∧ leapWord t = 4 ∧
      t = { s with pr := t.pr, hw := t.hw, wd := t.wd, rtc := t.rtc, te := { s.te with leapClk := s.clk } }) ∧
    (bitAt (leapWord s) 0 = false → bitAt (leapWord s) 1 = true → utcDaySecond s 86399 = true → -32768 < utcOffset s →
      Gives .leapSecond s fun t => utcOffset t = utcOffset s - 1 ∧ leapWord t = 4 ∧
        t = { s with pr := t.pr, hw := t.hw, wd := t.wd, rtc := t.rtc, te := { s.te with leapClk := s.clk } }) ∧
    ((bitAt (leapWord s) 0 = true → utcDaySecond s 1 = false) →
      (bitAt (leapWord s) 0 = false → bitAt (leapWord s) 1 = true → utcDaySecond s 86399 = false) →
      exec .leapSecond s = .next s) ∧
    (bitAt (leapWord s) 2 = true → s.after s.te.leapClk (86400 * cycS) = true → Gives .leapOccurredClear s fun t =>
      leapWord t = clrBit (leapWord s) 2 ∧ utcOffset t = utcOffset s ∧
      t = { s with pr := t.pr, hw := t.hw, wd := t.wd, rtc := t.rtc }) ∧
    (s.te.servo = .locked → s.wd.running = true → s.after s.te.storeClk (3600 * cycS) = true →
      Gives .lastLockedRateStore s fun t => t.te = { s.te with lastLocked := s.te.f, storeClk := s.clk } ∧
        keepsBytes s t [(0, 256), (pageAddr 0 deviceRec.2, 512)] ∧ t = { s with te := t.te, hw := t.hw, wd := t.wd })

/-- TIME_GET, TIME_SET, TIME_OFFSET, TIME_ACCEPT_STEP and TXTS_READ. TIME_GET answers the servo state, the counter, the estimate
and UTC_OFFSET. TIME_SET with source NONE or PPS and ladder below LOCK moves the counter to its target as an accepted step,
leaving FREE as it is and any other servo state for ACQUIRE. TIME_OFFSET from a host source hands its offset to the servo and
answers OK with the servo state, or STEP_REFUSED with zeros. TIME_ACCEPT_STEP applies the latest refused offset. TXTS_READ takes
the oldest host timestamps out of their FIFO. None of them writes the store but for what TIME_OFFSET makes the servo do. -/
def Obligations.TimeRequestsAct : Prop :=
  ∀ (s : State) (h : Hdr),
    (Opens opTimeGet h s → h.len = 0 →
      exec (.timeGet h) s = .next ((s.accepted h).replied opTimeGet h .ok
        (le 1 (s.accepted h).te.servo.code ++ zeros 1 ++ le 10 (s.accepted h).now80 ++
          le 2 ((s.accepted h).te.cnt % 65536) ++ le 4 (teEst (s.accepted h)) ++
          le 2 (ofSigned 16 (utcOffset (s.accepted h))) ++ zeros 2))) ∧
    (∀ time, Opens opTimeSet h s → h.len = 12 → locked (s.accepted h) = false → time80Ok time = true →
      (par (s.accepted h) (pid 7 0 0) = 0 ∨ par (s.accepted h) (pid 7 0 0) = 2) →
      Answers (.timeSet h time) s opTimeSet h .ok fun v bs =>
        bs = zeros 2 ∧ v.te.cnt = timeSetTarget (s.accepted h) time ∧ v.te.stepP = true ∧ v.te.stepW = true ∧
        v.te.stepsAccepted = u32 ((s.accepted h).te.stepsAccepted + 1) ∧ v.te.jumpRefused = false ∧
        v.te.servo = (if (s.accepted h).te.servo = .free then .free else .acquire) ∧ v.rtc.cal = (s.accepted h).rtc.cal ∧
        v = { s.accepted h with pw := v.pw, te := v.te, rtc := v.rtc, lk := v.lk, wd := v.wd, seqs := v.seqs, qu := v.qu,
                                me := v.me, pq := v.pq, pm := v.pm, free := v.free }) ∧
    (∀ off meas gm, Opens opTimeOffset h s → h.len = 28 → par (s.accepted h) (pid 7 0 0) = 3 → time80Ok meas = true →
      ofTime80 meas ≤ (s.accepted h).now → (s.accepted h).now ≤ ofTime80 meas + 2 * tickSec →
      exec (.timeOffset h off meas gm) s =
        .next (((s.accepted h).offset off gm).1.replied opTimeOffset h
          (if ((s.accepted h).offset off gm).2 then .stepRefused else .ok)
          (if ((s.accepted h).offset off gm).2 then zeros 2
            else le 1 ((s.accepted h).offset off gm).1.te.servo.code ++ zeros 1))) ∧
    (Opens opTimeAcceptStep h s → h.len = 0 → locked (s.accepted h) = false → (s.accepted h).te.servo = .refused →
      Answers (.timeAcceptStep h) s opTimeAcceptStep h .ok fun v bs =>
        v.te.cnt = (((s.accepted h).te.cnt : Int) - (s.accepted h).te.refusedRun.headD 0).toNat ∧
        v.te.servo = .acquire ∧ v.te.jumpRefused = false ∧ v.te.refusedRun = [] ∧
        bs = zeros 2 ++ le 8 (ofSigned 64 (roundAway (((-(s.accepted h).te.refusedRun.headD 0 : Int) : Rat) / 65536))) ∧
        v.rtc.cal = (s.accepted h).rtc.cal ∧
        v = { s.accepted h with pw := v.pw, te := v.te, rtc := v.rtc, lk := v.lk, wd := v.wd, seqs := v.seqs, qu := v.qu,
                                me := v.me, pq := v.pq, pm := v.pm, free := v.free }) ∧
    (∀ max, Opens opTxtsRead h s → h.len = 4 → 1 ≤ max → max ≤ 16 →
      Answers (.txtsRead h max) s opTxtsRead h .ok fun v bs =>
        v.te.txHost = (s.accepted h).te.txHost.drop max ∧
        bs = le 1 ((s.accepted h).te.txHost.take max).length ++ zeros 1 ++ le 4 (s.accepted h).te.txLostHost ++
          ((s.accepted h).te.txHost.take max).flatMap txBytes ∧
        v.te.txOvHost = ((s.accepted h).te.txOvHost && !v.te.txHost.isEmpty) ∧
        v = { s.accepted h with te := { (s.accepted h).te with txHost := v.te.txHost, txOvHost := v.te.txOvHost } })

/-- An offset within the step limit steers the rate, one beyond it is refused or becomes a step, and only a step moves the
counter. An offset within STEP_LIMIT, judged after the scheduled time parameters came into use, is accepted: it becomes the
latest offset of its master, ends a run of refusals and leaves the counter alone; the rate stays within the rate limit of 50 ppm
while the servo is ACQUIRE or LOCKED. An offset beyond the limit is refused where the step flags do not allow a step: the servo
is REFUSED, the refusal is counted and reported, and the counter is left alone. The counter moves only when sixteen consistent
offsets allow the step, and then by the negated offset. Neither an accepted nor a refused offset changes more than stage, time
engine, calendar following, store, parameters, host status, log and synchrophasor status. -/
def Obligations.OffsetsSteerOrAreRefused : Prop :=
  ∀ (s : State) (th : Int) (gm : Nat),
    let u := s.takeScheduled (fun id => effOf id == .offset)
    let fl := par u (pid 7 0 11)
    let run := th :: (if gm = u.te.refusedGm then u.te.refusedRun else [])
    let only := fun t : State => t = { s with
      pw := t.pw, te := t.te, rtc := t.rtc, hw := t.hw, pr := t.pr, lk := t.lk, wd := t.wd, pm := t.pm, free := t.free }
    (th.natAbs ≤ stepLimitTicks u →
      (s.offset th gm).2 = false ∧ (s.offset th gm).1.te.cnt = s.te.cnt ∧ (s.offset th gm).1.te.gm = gm ∧
      (s.offset th gm).1.te.jumpRefused = false ∧ (s.offset th gm).1.te.refusedRun = [] ∧
      (s.offset th gm).1.te.lastAcceptClk = s.clk ∧
      ((s.offset th gm).1.te.servo = .acquire ∨ (s.offset th gm).1.te.servo = .locked) ∧
      -rateLimit ≤ (s.offset th gm).1.te.r ∧ (s.offset th gm).1.te.r ≤ rateLimit ∧ only (s.offset th gm).1) ∧
    (stepLimitTicks u < th.natAbs →
      ((bitAt fl 1 || (bitAt fl 0 && !u.te.lockedOnce)) && 16 ≤ run.length && consistent u (run.take 16)) = false →
      (s.offset th gm).2 = true ∧ (s.offset th gm).1.te.servo = .refused ∧ (s.offset th gm).1.te.cnt = s.te.cnt ∧
      (s.offset th gm).1.te.jumpRefused = true ∧ bitAt (s.offset th gm).1.lk.irq 8 = true ∧ (s.offset th gm).1.te.gm = gm ∧
      (s.offset th gm).1.te.stepsRefused = u32 (s.te.stepsRefused + 1) ∧
      (s.offset th gm).1.te.refusedRun = run.take 16 ∧ only (s.offset th gm).1) ∧
    (stepLimitTicks u < th.natAbs →
      ((bitAt fl 1 || (bitAt fl 0 && !u.te.lockedOnce)) && 16 ≤ run.length && consistent u (run.take 16)) = true →
      (s.offset th gm).2 = false ∧ (s.offset th gm).1.te.servo = .acquire ∧
      (s.offset th gm).1.te.cnt = ((s.te.cnt : Int) - th).toNat ∧
      (s.offset th gm).1.te.gm = gm ∧ (s.offset th gm).1.te.stepsAccepted = u32 (s.te.stepsAccepted + 1))

/-- Blaze outputs are armed, pulse, finish and are disarmed; notch inputs capture edges and give them up. BLAZE_ARM below LOCK
with legal fields puts its program into the output and answers its status and first edge; BLAZE_DISARM leaves it unarmed without
a further edge. An armed output whose next edge has come pulses for its width and counts the edge, and takes the next edge one
period on or none after the last; the pulse's end then clears it, and after the last one the program is DONE and no longer
armed. A selected edge enters its notch's FIFO of eight with its corrected time, or is counted as lost, and raises the notch
interrupt where configured; an edge that is not selected, or whose new level does not hold for the filter time, or that comes
while the counter stands still, changes the level alone. NOTCH_READ takes the oldest captures. -/
def Obligations.BlazesAndNotches : Prop :=
  ∀ s : State,
    (∀ h index flags start period width count, Opens opBlazeArm h s → h.len = 32 → locked (s.accepted h) = false →
      index ≤ 7 → flags ≤ 3 → time80Ok start = true →
      (period = 0 → bitAt flags 0 = true ∨ (s.accepted h).now ≤ ofTime80 start) →
      (period ≠ 0 → 100 ≤ period ∧ period ≤ 86400000000000 ∧ width + 10 ≤ period) → 10 ≤ width → width ≤ 4294967295 →
      exec (.blazeArm h index false flags start period width count) s =
        .next (((s.accepted h).onBlaze index fun b => armBlaze b flags start period width count (s.accepted h).now
          (countStep (s.accepted h)).1).replied
          opBlazeArm h .ok (blazeReply (((s.accepted h).onBlaze index fun b =>
            armBlaze b flags start period width count (s.accepted h).now (countStep (s.accepted h)).1).blaze index)))) ∧
    (∀ h index flags start, Opens opBlazeArm h s → h.len = 32 → locked (s.accepted h) = false → index ≤ 7 → flags ≤ 3 →
      time80Ok start = true →
      exec (.blazeDisarm h index flags start) s =
        .next (((s.accepted h).onBlaze index fun b => { b with armed := false, next := 0 }).replied opBlazeArm h .ok
          (blazeReply (((s.accepted h).onBlaze index fun b => { b with armed := false, next := 0 }).blaze index)))) ∧
    (∀ k : Fin 8, s.te.blazes.length = 8 → (s.blaze k).armed = true → (s.blaze k).next ≠ 0 → (s.blaze k).next ≤ s.te.cnt →
      Gives (.blazeEdge k) s fun t =>
        t.blaze k = { s.blaze k with pulse := true, pulseEnd := (s.blaze k).next + (s.blaze k).width * 65536,
                                     edges := u32 ((s.blaze k).edges + 1), next := (t.blaze k).next } ∧
        (t.blaze k).next = (if (s.blaze k).period = 0 ∨
            ((s.blaze k).count ≠ 0 ∧ (s.blaze k).count ≤ u32 ((s.blaze k).edges + 1)) then 0
          else (s.blaze k).next + (s.blaze k).period * 65536) ∧
        (∀ j, j ≠ k.val → t.blaze j = s.blaze j) ∧ t = { s with te := { s.te with blazes := t.te.blazes } }) ∧
    (∀ k : Fin 8, s.te.blazes.length = 8 → (s.blaze k).pulse = true → (s.blaze k).pulseEnd ≤ s.te.cnt →
      Gives (.blazePulseEnd k) s fun t =>
        ((s.blaze k).armed = true → (s.blaze k).last = true → (s.blaze k).next = 0 →
          t.blaze k = { s.blaze k with pulse := false, armed := false, done := true }) ∧
        ((s.blaze k).armed = false ∨ (s.blaze k).last = false ∨ (s.blaze k).next ≠ 0 →
          t.blaze k = { s.blaze k with pulse := false }) ∧
        (∀ j, j ≠ k.val → t.blaze j = s.blaze j) ∧ t = { s with te := { s.te with blazes := t.te.blazes } }) ∧
    (∀ (k : Fin 8) time rising held, s.te.notches.length = 8 → s.te.running = true →
      edgeSelected (par s (pid 25 k 0)) rising = true → par s (pid 25 k 1) ≤ held →
      Gives (.notchCapture k time rising held) s fun t =>
        (t.notch k).level = rising ∧ (t.notch k).count = u32 ((s.notch k).count + 1) ∧
        (t.notch k).fifo = (if (s.notch k).fifo.length < 8 then (s.notch k).fifo ++
            [⟨((time : Int) - parS s 32 (pid 25 k 2) * 65536).toNat, rising, (s.notch k).stepMark⟩]
          else (s.notch k).fifo) ∧
        (t.notch k).lost = (if (s.notch k).fifo.length < 8 then (s.notch k).lost else u32 ((s.notch k).lost + 1)) ∧
        (∀ j, j ≠ k.val → (t.notch j).fifo = (s.notch j).fifo) ∧
        (bitAt (par s (pid 25 k 0)) 2 = true → bitAt t.lk.irq 9 = true) ∧
        (k ≠ 0 → t = { s with te := { s.te with notches := t.te.notches }, lk := t.lk, wd := t.wd, chans := t.chans,
                              stands := t.stands, seqs := t.seqs, units := t.units }) ∧
        t = { s with pw := t.pw, te := t.te, rtc := t.rtc, hw := t.hw, pr := t.pr, lk := t.lk, wd := t.wd, chans := t.chans,
                     stands := t.stands, seqs := t.seqs, qu := t.qu, units := t.units, me := t.me, pq := t.pq, pm := t.pm,
                     free := t.free }) ∧
    (∀ (k : Fin 8) time rising held,
      edgeSelected (par s (pid 25 k 0)) rising = false ∨ held < par s (pid 25 k 1) ∨ s.te.running = false →
      exec (.notchCapture k time rising held) s = .next (s.onNotch k fun n => { n with level := rising })) ∧
    (∀ h index max, Opens opNotchRead h s → h.len = 4 → index ≤ 7 → 1 ≤ max → max ≤ 8 →
      s.te.notches.length = 8 → Answers (.notchRead h index max) s opNotchRead h .ok fun v bs =>
        (v.notch index).fifo = (s.notch index).fifo.drop max ∧ (∀ j, j ≠ index → v.notch j = s.notch j) ∧
        bs = le 1 ((s.notch index).fifo.take max).length ++ zeros 1 ++ le 4 (s.notch index).lost ++
          ((s.notch index).fifo.take max).flatMap notchBytes ∧
        v = { s.accepted h with te := { (s.accepted h).te with notches := v.te.notches } })

/-! ### Calendar and alarms (chapter 16) -/

/-- Reading and setting the calendar by packets and by direct writes, OSF_CLEAR and AL_ACK. RTC_GET answers the calendar with
the counter at its latest tick. RTC_SET below LOCK with a valid date sets the calendar to the start of that second, with
CLEAR_OSF where asked and allowed. OSF_CLEAR acts once the calendar has been set, AL_ACK clears an alarm's latched bits, both at
any ladder level. A direct write to a calendar field from stage 1 on, heard on SPI or on the UART, is staged below LOCK when it
is in range; a write to SEC below LOCK then commits the staged fields as one date when it is valid, and drops them when it is
not; a bad CRC, LOCK, a bad range and a bad date are recorded as such in the status of direct writes. Staged fields are
discarded ten seconds later. -/
def Obligations.CalendarRequestsAndDirectWrites : Prop :=
  ∀ s : State,
    (∀ h, Opens opRtcGet h s → h.len = 0 → exec (.rtcGet h) s = .next (((s.accepted h).drew 1).replied opRtcGet h .ok
      (le 1 (calWeekday (s.accepted h).rtc.cal) ++ zeros 1 ++ le 8 (cal64 (s.accepted h).rtc.cal) ++
        le 10 (time80 (tickCounter (s.accepted h))) ++ zeros 2 ++ le 4 (rtcStatus (s.accepted h))))) ∧
    (∀ h flags year month day hour min sec, Opens opRtcSet h s → h.len = 12 → locked (s.accepted h) = false → flags ≤ 1 →
      (flags = 1 → (s.accepted h).rtc.setSince = true) → 2000 ≤ year →
      calValid ⟨0, sec, min, hour, day, month, year - 2000⟩ = true →
      Answers (.rtcSet h flags year month day hour min sec) s opRtcSet h .ok fun v bs =>
        v.rtc.cal = ⟨0, sec, min, hour, day, month, year - 2000⟩ ∧ v.rtc.begins = true ∧ v.rtc.setSince = true ∧
        v.rtc.osf = (if flags = 1 then false else (s.accepted h).rtc.osf) ∧
        bs = zeros 2 ++ le 10 (time80 (tickCounter { v with free := s.free })) ++ zeros 2 ∧
        v = { s.accepted h with rtc := v.rtc, tp := v.tp, lk := v.lk, wd := v.wd, chans := v.chans, stands := v.stands,
                                seqs := v.seqs, units := v.units, free := v.free }) ∧
    (∀ h, Opens opWriteOnly h s → h.len = 5 → (s.accepted h).rtc.setSince = true →
      Answers (.osfClear h 1) s opWriteOnly h .ok fun v bs =>
        v.rtc = { (s.accepted h).rtc with osf := false, osfBrownOut := false } ∧ bs = le 2 0x4005 ∧
        v = { s.accepted h with rtc := v.rtc, tp := v.tp, wd := v.wd }) ∧
    (∀ h (k : Fin 4), Opens opWriteOnly h s → h.len = 5 →
      exec (.alAck h k 1) s = .next (((s.accepted h).onAlarm k fun a =>
        { a with fired := false, skipped := false, missed := false, wake := false }).replied opWriteOnly h .ok
          (le 2 (pid 27 k 4)))) ∧
    (∀ frame bs (f : Fin 5), HearsWrite s frame bs (0x1A + f) →
      (crc8 (bs.take 6) ≠ beAt bs 6 1 →
        exec (.calendarStageWrite frame) s = .next ((s.landed.directLog (0x1A + f) .badCrc).wroteDirect)) ∧
      (crc8 (bs.take 6) = beAt bs 6 1 → locked s = true →
        exec (.calendarStageWrite frame) s = .next ((s.landed.directLog (0x1A + f) .locked).wroteDirect)) ∧
      (crc8 (bs.take 6) = beAt bs 6 1 → locked s = false → stageRange f (beAt bs 2 4) = true →
        exec (.calendarStageWrite frame) s = .next (((s.landed.onRtc fun r =>
          { r.stage f (beAt bs 2 4) with stClk := s.clk }).directLog (0x1A + f) .accepted).wroteDirect)) ∧
      (crc8 (bs.take 6) = beAt bs 6 1 → locked s = false → stageRange f (beAt bs 2 4) = false →
        exec (.calendarStageWrite frame) s = .next ((s.landed.directLog (0x1A + f) .refused).wroteDirect))) ∧
    (∀ frame bs, HearsWrite s frame bs 0x19 →
      (crc8 (bs.take 6) ≠ beAt bs 6 1 →
        exec (.calendarSecCommit frame) s = .next ((s.landed.directLog 0x19 .badCrc).wroteDirect)) ∧
      (crc8 (bs.take 6) = beAt bs 6 1 → locked s = true →
        exec (.calendarSecCommit frame) s = .next ((s.landed.directLog 0x19 .locked).wroteDirect)) ∧
      (crc8 (bs.take 6) = beAt bs 6 1 → locked s = false → 60 ≤ beAt bs 2 4 →
        exec (.calendarSecCommit frame) s = .next ((s.landed.directLog 0x19 .refused).wroteDirect)) ∧
      (crc8 (bs.take 6) = beAt bs 6 1 → locked s = false → beAt bs 2 4 < 60 →
        calValid (committedCal s.rtc (beAt bs 2 4)) = false → exec (.calendarSecCommit frame) s =
          .next (((s.landed.onRtc Rtc.unstage).directLog 0x19 .refused).wroteDirect)) ∧
      (crc8 (bs.take 6) = beAt bs 6 1 → locked s = false → beAt bs 2 4 < 60 →
        calValid (committedCal s.rtc (beAt bs 2 4)) = true → Gives (.calendarSecCommit frame) s fun t =>
        t.rtc.cal = committedCal s.rtc (beAt bs 2 4) ∧ t.rtc.begins = true ∧ t.rtc.setSince = true ∧ t.rtc.stMin = none ∧
        t.rtc.stHour = none ∧ t.rtc.stDay = none ∧ t.rtc.stMonth = none ∧ t.rtc.stYear = none ∧
        t.lk.dlAccepted = true ∧ t.lk.dlAddr = 0x19 ∧
        t = { s.landed with rtc := t.rtc, lk := t.lk, wd := t.wd, chans := t.chans, stands := t.stands, seqs := t.seqs,
                            units := t.units })) ∧
    (s.after s.rtc.stClk (10 * cycS) = true → exec .calendarStagingDiscard s = .next { s with rtc := { s.rtc with
      stMin := none, stHour := none, stDay := none, stMonth := none, stYear := none } })

/-- Alarm matches, the 32 kHz clock, following, trim learning, leap seconds and the end of the calendar's range. At the tick
that begins a second which an enabled alarm matches and its marker does not bar, the alarm fires, remembers the match and its
second; an alarm that does not match neither fires nor counts; at no other tick is an alarm judged. The wake output's hold ends
every wake. A stopped 32 kHz clock holds the calendar and sets OSF; its return lets it count. At the start of a second in LOCKED
with following on, an error above two seconds makes a step due, a smaller one beyond the dead band a slew, and the rest nothing.
After 1,024 s of following learning moves TRIM_LEARNED by at most 336 within its limits; hourly it is stored, in the device
record's pages only. A leap second doubles the last second of the month or skips it, without dropping staged fields; the last
second of 2199 wraps to the power-up date with OSF. A SEQ response that no sequencer has taken a minute after stage 3 counts as
missed. -/
def Obligations.AlarmsAndCalendarEvents : Prop :=
  ∀ s : State,
    (s.rtc.alarms.length = 4 → s.pw.aonUp = true → s.rtc.newSecond = true → Gives .alarmMatch s fun t =>
      (∀ k < 4, alarmMatches (s.alarm k) s.rtc.cal = true → (s.alarm k).marker.any (calSeconds s.rtc.cal ≤ ·) = false →
        (t.alarm k).fired = true ∧ (t.alarm k).last = cal64 { s.rtc.cal with sub := 0 } ∧
        (t.alarm k).count = u32 ((s.alarm k).count + 1) ∧ (t.alarm k).marker = some (calSeconds s.rtc.cal)) ∧
      (∀ k < 4, alarmMatches (s.alarm k) s.rtc.cal = false →
        (t.alarm k).fired = (s.alarm k).fired ∧ (t.alarm k).count = (s.alarm k).count) ∧
      t = { s with rtc := { s.rtc with alarms := t.rtc.alarms, wakeClk := t.rtc.wakeClk }, lk := t.lk, wd := t.wd,
                   chans := t.chans, stands := t.stands, seqs := t.seqs, units := t.units }) ∧
    (s.pw.aonUp = false ∨ s.rtc.newSecond = false → exec .alarmMatch s = .next s) ∧
    (par s (pid 8 0 7) ≠ 0 → s.after s.rtc.wakeClk (par s (pid 8 0 7) * cycS) = true →
      exec .wakeHoldExpiry s = .next { s with rtc := { s.rtc with
        alarms := s.rtc.alarms.map fun a => { a with wake := false } } }) ∧
    (exec .clock32Stall s = .next { s with rtc := { s.rtc with stalled := true, osf := true, setSince := false } }) ∧
    (exec .clock32Resume s = .next { s with rtc := { s.rtc with stalled := false } }) ∧
    (s.wd.running = true → par s (pid 8 0 3) = 1 → s.te.servo = .locked → s.rtc.secondEdge = true →
      Gives .rtcFollowMeasurement s fun t =>
        t.rtc.following = true ∧ t.rtc.stepDue = decide (2 * tickSec < (calError s).natAbs) ∧
        t.rtc.slewing = decide (61 * 65536000 < (calError s).natAbs ∧ (calError s).natAbs ≤ 2 * tickSec) ∧
        t.rtc.cal = s.rtc.cal ∧ t.rtc.steps = s.rtc.steps ∧ t.rtc.alarms = s.rtc.alarms ∧
        t.rtc.trimLearned = s.rtc.trimLearned ∧ t = { s with rtc := t.rtc, free := t.free }) ∧
    (∀ c e, s.rtc.learn = some (c, e) → s.rtc.following = true → s.rtc.secondEdge = true →
      s.after c (1024 * cycS) = true → Gives .trimLearning s fun t =>
        t.rtc.trimLearned.natAbs ≤ 32767 ∧
        (s.rtc.trimLearned.natAbs ≤ 32767 → (t.rtc.trimLearned - s.rtc.trimLearned).natAbs ≤ 336) ∧
        t = { s with rtc := { s.rtc with trimLearned := t.rtc.trimLearned, learn := some (s.clk, calError s), slewSum := 0 },
                     free := t.free }) ∧
    (s.wd.running = true → s.after s.rtc.storeClk (3600 * cycS) = true → Gives .trimLearnedStore s fun t =>
      t.rtc = { s.rtc with trimStored := s.rtc.trimLearned, storeClk := s.clk } ∧
      keepsBytes s t [(0, 256), (pageAddr 0 deviceRec.2, 512)] ∧ t = { s with rtc := t.rtc, hw := t.hw, wd := t.wd }) ∧
    (s.rtc.leap61 = true → atMonthEnd s.rtc.cal 59 = true → exec .calendarLeapSecond s = .next { s with
      rtc := { s.rtc with leap61 := false, leapDoubled := true } }) ∧
    ((s.rtc.leap61 && atMonthEnd s.rtc.cal 59) = false → s.rtc.leap59 = true → atMonthEnd s.rtc.cal 58 = true →
      s.rtc.cal.sub = 32767 → Gives .calendarLeapSecond s fun t =>
        t.rtc.cal = { calOfSeconds (calSeconds s.rtc.cal + 2) with sub := 0 } ∧
        t = { s with rtc := { s.rtc with cal := t.rtc.cal, leap59 := false, begins := true, alarms := t.rtc.alarms,
                                         wakeClk := t.rtc.wakeClk },
                     lk := t.lk, wd := t.wd, chans := t.chans, stands := t.stands, seqs := t.seqs, units := t.units }) ∧
    (atRangeEnd s.rtc.cal = true → s.rtc.cal.sub = 32767 → exec .calendarRangeEnd s = .next { s with
      rtc := { s.rtc with cal := Cal.powerUp, osf := true, setSince := false, begins := true } }) ∧
    (∀ k : Fin 4, (s.alarm k).seqWait = true → s.pw.stage3At.any (s.after · (60 * cycS)) = true →
      exec (.deferredSeqExpiry k) s = .next (s.onAlarm k fun a =>
        { a with seqWait := false, deferred := false, missed := true, missedCount := u32 (a.missedCount + 1) }))

/-! ### Tamper, keys and the Clearing (chapter 17) -/

/-- Tamper evaluation, persistence, clock monitors, monitor injection and the Clearing. An evaluation of the running AON domain
latches every judged source that has no persistence time, whose condition holds and that was neither ACTIVE nor persisting, and
counts it; one with a persistence time begins to persist; a judged source whose condition has gone is no longer ACTIVE but stays
LATCHED as it was. A source that has persisted long enough is latched. A clock source is raised when both its detectors report
in the same or in adjacent windows; injected faults that a detector missed are counted. A Clearing of the queue's first job
erases identity key, wrapped copy and session keys, sets every password CLEARED, closes every session and counts itself; of the
store it writes the password record, the wrapped key copy and the torn bitmap only. None of them changes more than sessions,
host status, tamper state, log, forced outputs, CF test and challenge, and the Clearing the store. -/
def Obligations.TamperSourcesLatchAndClear : Prop :=
  ∀ s : State,
    let only := fun t : State =>
      t = { s with se := t.se, lk := t.lk, tp := t.tp, wd := t.wd, hm := t.hm, me := t.me, free := t.free }
    (∀ c, s.pw.aonUp = true → s.tp.slots.length = 32 → Gives (.tamperEvaluation c) s fun t =>
      (∀ k ∈ evaluatedSlots s, slotFrom.getD k 5 ≤ s.pw.stage → conditionOf s c k = true → persistMs s k = 0 →
        (s.slot k).active = false → (s.slot k).persisting = false →
        (t.slot k).active = true ∧ (t.slot k).latched = true ∧ (t.slot k).count = u32 ((s.slot k).count + 1)) ∧
      (∀ k ∈ evaluatedSlots s, slotFrom.getD k 5 ≤ s.pw.stage → conditionOf s c k = true → persistMs s k ≠ 0 →
        (s.slot k).active = false → (s.slot k).persisting = false →
        t.slot k = { s.slot k with persisting := true, since := s.clk }) ∧
      (∀ k ∈ evaluatedSlots s, slotFrom.getD k 5 ≤ s.pw.stage → conditionOf s c k = false →
        t.slot k = { s.slot k with active := false, persisting := false }) ∧ only t) ∧
    (∀ k : Fin 32, s.tp.slots.length = 32 → (s.slot k).persisting = true →
      s.after (s.slot k).since (persistMs s k * cycMs) = true → Gives (.tamperPersistExpiry k) s fun t =>
      (t.slot k).active = true ∧ (t.slot k).latched = true ∧ (t.slot k).persisting = false ∧
      (t.slot k).count = u32 ((s.slot k).count + 1) ∧ (∀ j, j ≠ k.val → t.slot j = s.slot j) ∧ only t) ∧
    (∀ m r, s.tp.clearQueue = m :: r → s.pw.stage ≠ 0 → Gives .clearing s fun t =>
      t.tp.clearQueue = r ∧ t.tp.identity = none ∧ t.tp.wrapped = none ∧ t.tp.keys = [] ∧ t.se.open_ = [] ∧
      (∀ p ∈ t.se.pws, p.st = 2) ∧ t.tp.clearings = u32 (s.tp.clearings + 1) ∧ t.tp.clearedSinceUp = true ∧
      t.tp.owner = s.tp.owner ∧ t.tp.slots = s.tp.slots ∧
      keepsBytes s t [(0, 256), (pageAddr 0 pwRec.2, 512), (pageAddr 0 keyRec.2, 512)] ∧
      t = { s with tp := t.tp, se := t.se, hm := t.hm, wd := t.wd, hw := t.hw }) ∧
    (∀ (k : Fin 3) d a, s.pw.stage ≠ 0 → (s.tp.monClk.getD k none).any (fun c => !s.after c (monWindow k)) = false →
      s.tp.detPrev.length = 3 → s.tp.slots.length = 32 → Gives (.clockMonitorWindow k d a) s fun t =>
        t.tp.detPrev.getD k (false, false) = (detReports s d, detReports s a) ∧
        ((detReports s d && detReports s a) || (detReports s d && (s.tp.detPrev.getD k (false, false)).2) ||
            (detReports s a && (s.tp.detPrev.getD k (false, false)).1) = true →
          slotFrom.getD (3 + k) 5 ≤ s.pw.stage → persistMs s (3 + k) = 0 → (s.slot (3 + k)).active = false →
          (s.slot (3 + k)).persisting = false →
          (t.slot (3 + k)).active = true ∧ (t.slot (3 + k)).latched = true) ∧ only t) ∧
    (∀ d a, s.pw.stage ≠ 0 → s.tp.injectClk.any (fun c => !s.after c (10 * cycS)) = false →
      Gives (.monitorInjection d a) s fun t =>
      t.tp.injectFails =
        u32 (s.tp.injectFails + ((if injectPasses d then 0 else 1) + (if injectPasses a then 0 else 1))) ∧
      t.tp.injectBad = !(injectPasses d && injectPasses a) ∧ only t)

/-- Key-store check, TRNG failure and restart, JTAG instructions. A failed key-store check takes the identity key from the
wrapped copy and drops the session keys; a good one restores an empty key store, and leaves one that is not empty and the
session keys. A TRNG health failure stops its output and counts; a restart whose start tests pass brings output back, one that
fails counts again. BYPASS and IDCODE load at once and close DEBUG_OPEN; any other JTAG instruction from stage 1 on acts as
BYPASS, is kept back and latches DEBUG_OPEN; a JTAG reset selects IDCODE. None of them writes the store, the parameters or a
clock. -/
def Obligations.KeyStoreRandomnessAndJtag : Prop :=
  ∀ s : State,
    let only := fun t : State =>
      t = { s with se := t.se, lk := t.lk, tp := t.tp, wd := t.wd, hm := t.hm, me := t.me, free := t.free }
    (2 ≤ s.pw.stage → s.tp.keyClk.any (fun c => !s.after c (3600 * cycS)) = false → Gives (.keystoreCheck false) s fun t =>
      t.tp.identity = s.tp.wrapped ∧ t.tp.keys = [] ∧ t.tp.wrapped = s.tp.wrapped ∧ only t) ∧
    (2 ≤ s.pw.stage → s.tp.keyClk.any (fun c => !s.after c (3600 * cycS)) = false → Gives (.keystoreCheck true) s fun t =>
      t.tp.identity = (if s.tp.identity.isNone then s.tp.wrapped else s.tp.identity) ∧ t.tp.keys = s.tp.keys ∧ only t) ∧
    (s.pw.stage ≠ 0 → Gives .trngHealthFail s fun t =>
      t.tp.trngOk = false ∧ t.tp.trngFails = u32 (s.tp.trngFails + 1) ∧ t.tp.identity = s.tp.identity ∧ only t) ∧
    (s.pw.stage ≠ 0 → s.tp.trngOk = false → s.after s.tp.trngClk (10 * cycS) = true → Gives (.trngRestart true) s fun t =>
      t.tp.trngOk = true ∧ t.tp.trngFails = s.tp.trngFails ∧ (t.slot 21).latched = (s.slot 21).latched ∧
      t = { s with tp := t.tp, wd := t.wd }) ∧
    (s.pw.stage ≠ 0 → s.tp.trngOk = false → s.after s.tp.trngClk (10 * cycS) = true → exec (.trngRestart false) s =
      .next { s with tp := { s.tp with trngFails := u32 (s.tp.trngFails + 1), trngClk := s.clk } }) ∧
    (∀ ir : BitVec 5, s.pw.phase ≠ .off → s.pw.phase ≠ .started → ir = 31#5 ∨ ir = 1#5 →
      Gives (.jtagUpdateIr ir) s fun t =>
        t.tp.jtagIr = ir.toNat ∧ t.tp.jtagWait = none ∧ (s.tp.slots.length = 32 → (t.slot 18).active = false) ∧
        (t.slot 18).latched = (s.slot 18).latched ∧ t = { s with tp := t.tp, wd := t.wd }) ∧
    (∀ ir : BitVec 5, s.pw.phase ≠ .off → s.pw.phase ≠ .started → s.pw.stage ≠ 0 → s.tp.slots.length = 32 →
      ir ≠ 31#5 → ir ≠ 1#5 → Gives (.jtagUpdateIr ir) s fun t =>
        t.tp.jtagIr = 31 ∧ t.tp.jtagWait = some ir.toNat ∧ (t.slot 18).latched = true ∧ (t.slot 18).active = true ∧
        only t) ∧
    (s.pw.phase ≠ .off → s.pw.phase ≠ .started → Gives .jtagReset s fun t => t.tp.jtagIr = 1 ∧ t.tp.jtagWait = none ∧
      (t.slot 18).latched = (s.slot 18).latched ∧ t = { s with tp := t.tp, wd := t.wd })

/-- TAMPER_READ, TAMPER_ACK, KEY_AGREE and PROVISION. TAMPER_READ answers ladder, slots, challenge and Clearings. TAMPER_ACK
unlatches exactly the named sources that are LATCHED and no longer ACTIVE, with an owner signature where one of them has a
response of LOCK or CLEAR. KEY_AGREE on a point of the curve gives the path a session key and answers plain. PROVISION GENERATE
makes an identity key where there is none, kept wrapped in its record, with a new challenge; INSTALL under the owner's signature
sets the eight passwords, and the owner key where FLAGS ask for it, in their records. Where a record cannot be written, either
answers INTERNAL_FAULT, and keys and passwords stay as they were. Of the store only those records and the torn bitmap change. -/
def Obligations.TamperRequestsAndKeyAgreement : Prop :=
  ∀ (s : State) (h : Hdr),
    (Opens opTamperRead h s → h.len = 0 → exec (.tamperRead h) s = .next ((s.accepted h).replied opTamperRead h .ok
      (le 1 (ladder (s.accepted h)) ++
        le 1 (flagAt (provisionRequired (s.accepted h)) 0 + flagAt (s.accepted h).tp.clearPending 1) ++
        le 4 (slotBits (s.accepted h) (·.active)) ++ le 4 (slotBits (s.accepted h) (·.latched)) ++
        fitBytes 16 (s.accepted h).tp.challenge ++ le 4 (s.accepted h).tp.clearings))) ∧
    (∀ mask sig, Opens opTamperAck h s → h.len = (if sig.isSome then 72 else 8) →
      (ackNeedsSig (s.accepted h) mask = true →
        (s.accepted h).tp.owner.isSome = true ∧ sig.any (sigOk (s.accepted h)) = true) →
      Answers (.tamperAck h mask sig) s opTamperAck h .ok fun v bs =>
        (∀ k, (v.slot k).latched = (((s.accepted h).slot k).latched &&
          !(decide (k < 32) && bitAt mask k && !((s.accepted h).slot k).active))) ∧
        (∀ k, (v.slot k).active = ((s.accepted h).slot k).active) ∧
        bs = zeros 2 ++ le 4 (slotBits v (·.latched)) ∧
        v = { s.accepted h with tp := v.tp, wd := v.wd, free := v.free }) ∧
    (∀ pub n, pub.length = 64 → (n = 16 ∨ n = 32) → Opens opKeyAgree h s → h.len = 68 → onCurve pub = true →
      (s.accepted h).tp.identity.isSome = true → (s.accepted h).tp.trngOk = true →
      Answers (.keyAgree h pub n) s opKeyAgree h .ok fun v bs =>
        (∃ key, key.length = n ∧ v.tp.keys = setKey (s.accepted h).tp.keys h.path key) ∧ bs.length = 194 ∧
        v = { s.accepted h with tp := { (s.accepted h).tp with keys := v.tp.keys }, free := v.free }) ∧
    (Opens (opProvision 90) h s → h.more = false → (fragOf s h 0x0A11).length + h.len = 4 → (s.accepted h).pw.pfail = false →
      (s.accepted h).tp.identity = none → (s.accepted h).tp.trngOk = true →
      let x := ((s.accepted h).fragEnd h).itemPut 0 [keyRec] (wrappedBytes ((s.accepted h).tp.keySerial + 1))
      (x.2 = true → Answers (.provisionGenerate h false) s (opProvision 90) h .ok fun v bs =>
        v.tp.identity = some ((s.accepted h).tp.keySerial + 1) ∧ v.tp.wrapped = v.tp.identity ∧
        v.tp.keySerial = (s.accepted h).tp.keySerial + 1 ∧
        bs = zeros 2 ++ uidBytes ++ fitBytes 16 v.tp.challenge ++ identityPub ((s.accepted h).tp.keySerial + 1) ∧
        v.tp.slots = (s.accepted h).tp.slots ∧ v.hw = x.1.hw ∧ keepsBytes s v [(0, 256), (pageAddr 0 keyRec.2, 512)] ∧
        v = { s.accepted h with tp := v.tp, lk := v.lk, hw := v.hw, wd := v.wd, free := v.free }) ∧
      (x.2 = false → Answers (.provisionGenerate h false) s (opProvision 90) h .internalFault fun v bs =>
        bs = zeros 90 ∧ v = { s.accepted h with lk := v.lk, hw := v.hw, wd := v.wd })) ∧
    (∀ params l sig, Opens (opProvision 2) h s → h.more = false → List.length l = 8 →
      let msg := fragOf s h 0x0A11 ++ params
      let new := bitAt (byteAt msg 1).toNat 0
      let x := (((s.accepted h).fragEnd h).onSe fun e => { e with pws := l.map fun v => ⟨1, pwDigest v⟩ }).storePw
      let y := if new then
          (x.1.onTp fun t => { t with owner := some (fitBytes 64 (msg.drop 160)) }).itemPut 0 [ownerRec]
            (fitBytes 64 (msg.drop 160))
        else (x.1, true)
      (fragOf s h 0x0A11).length + h.len = (if new then 288 else 224) → (byteAt msg 1).toNat ≤ 1 →
      (s.accepted h).pw.pfail = false → installAuth (s.accepted h) h new sig = true →
      (s.accepted h).tp.identity.isSome = true → l.any badPassword = false →
      (x.2 = true → y.2 = true → Answers (.provisionInstall h params (some l) sig) s (opProvision 2) h .ok fun v bs =>
        v.se.pws = l.map (fun x => ⟨1, pwDigest x⟩) ∧ bs = zeros 2 ∧
        v.tp.owner = (if new then some (fitBytes 64 (msg.drop 160)) else (s.accepted h).tp.owner) ∧
        v.tp.identity = (s.accepted h).tp.identity ∧ v.tp.slots = (s.accepted h).tp.slots ∧
        keepsBytes s v [(0, 256), (pageAddr 0 pwRec.2, 512), (pageAddr 0 ownerRec.2, 512)] ∧
        v = { s.accepted h with se := { (s.accepted h).se with pws := v.se.pws }, tp := v.tp, lk := v.lk, hw := v.hw,
                                wd := v.wd, free := v.free }) ∧
      ((x.2 && y.2) = false → Answers (.provisionInstall h params (some l) sig) s (opProvision 2) h .internalFault fun v bs =>
        bs = zeros 2 ∧ v = { s.accepted h with lk := v.lk, hw := v.hw, wd := v.wd }))

/-! ### Warden: supervision, log, updates and transplant (chapter 18) -/

/-- Watchdogs of Canopy, DSP and Warden, the Warden's restart and its missing heartbeat. A Canopy watchdog asks for an unplanned
restart at the next block boundary. A DSP watchdog reloads the microcode: kernels run again, accounting is to be found anew, the
reload is counted and its instant kept. The Warden's watchdog stops the Warden: sessions close, session keys are gone, no commit
is in progress and the restart is counted; its return within 150 ms runs it again and logs the cause, and one that comes later
does nothing. A heartbeat that has not come 150 ms later counts another restart of cause 2, and outside a trial the other region
runs from then on where it may. The counter goes on, and no byte of the store changes, but for what a DSP reload notes of
condemned converters. -/
def Obligations.WatchdogsAndWardenRestart : Prop :=
  ∀ s : State,
    (∀ k : Fin 2, s.wd.running = true → s.wd.canopyRunning = true → Gives (.canopyWatchdog k) s fun t =>
      t.wd.restartUnplanned = true ∧ t.wd.canopyRunning = true ∧ t.wd.running = true ∧ t.hw.mem = s.hw.mem ∧
      t = { s with hw := t.hw, se := t.se, lk := t.lk, tp := t.tp, wd := t.wd, up := t.up, hm := t.hm, me := t.me, pq := t.pq,
                   free := t.free }) ∧
    (s.wd.running = true → s.me.kernels = true → Gives .dspWatchdog s fun t =>
      t.me.kernels = true ∧ t.me.fromB1 = false ∧ t.pw.shadow = .waiting ∧ t.pw.startGap = 0 ∧
      t.wd.dspReloads = u32 (s.wd.dspReloads + 1) ∧ t.wd.dspExpiryClk = some s.clk ∧ t.wd.dspRunning = true ∧
      t.pw.stage = s.pw.stage ∧ t.wd.running = true ∧
      ((∀ k < 4, (s.stand k).condemned = 0) → (∀ v < 40, (s.conv v).stuck = false) → t.hw.mem = s.hw.mem) ∧
      t = { s with pw := t.pw, hw := t.hw, se := t.se, pr := t.pr, lk := t.lk, tp := t.tp, wd := t.wd, up := t.up, hm := t.hm,
                   ref := t.ref, chans := t.chans, convs := t.convs, stands := t.stands, filts := t.filts, insts := t.insts,
                   wave := t.wave, me := t.me, pq := t.pq, pm := t.pm, free := t.free }) ∧
    (s.wd.running = true → Gives .wardenWatchdog s fun t =>
      t.wd.running = false ∧ t.wd.wardenCause = 1 ∧ t.wd.wardenClk = s.clk ∧
      t.wd.wardenRestarts = u32 (s.wd.wardenRestarts + 1) ∧ t.se.open_ = [] ∧ t.tp.keys = [] ∧ t.hm.forces = [] ∧
      t.rtc.following = false ∧ t.pr.committing = none ∧ t.pr.committed = s.pr.committed ∧
      t = { s with rtc := t.rtc, se := t.se, pr := t.pr, lk := t.lk, tp := t.tp, wd := t.wd, up := t.up, tx := t.tx,
                   hm := t.hm, free := t.free }) ∧
    (s.wd.running = false → 2 ≤ s.pw.stage → s.clk ≤ s.wd.wardenClk + 150 * cycMs → s.wd.buffer.length < 256 →
      Gives .wardenRestartComplete s fun t =>
      t.wd.running = true ∧ t.wd.buffer = s.wd.buffer ++ [⟨s.now80, 0x010B, fitBytes 14 (le 1 s.wd.wardenCause ++ zeros 1 ++
        le 2 (satN 65535 (msSince s s.wd.wardenClk))), logFlags s false false false, s.clk⟩] ∧
      t = { s with wd := { s.wd with running := true, buffer := t.wd.buffer } }) ∧
    (s.wd.wardenClk + 150 * cycMs < s.clk → exec .wardenRestartComplete s = .next s) ∧
    (s.wd.running = false → 2 ≤ s.pw.stage → s.after s.wd.wardenClk (150 * cycMs) = true →
      Gives .wardenHeartbeatTimeout s fun t =>
      t.wd.wardenCause = 2 ∧ t.wd.wardenClk = s.clk ∧ t.wd.wardenRestarts = u32 (s.wd.wardenRestarts + 1) ∧
      t.wd.running = false ∧
      (s.up.st ≠ 5 → activeOf t 1 = (if regionRuns s (region s 1 (inactiveOf s 1)) ∧ 1 < s.up.active.length
        then inactiveOf s 1 else activeOf s 1)) ∧ t = { s with wd := t.wd, up := t.up, free := t.free })

/-- Sensor windows, writing and reading the event log. A sensor reading on the same side of its window as before ends its run,
and a first or second one on the other side lengthens it; the third consecutive one changes HEALTH and is logged. The log client
takes the oldest entry of the buffer and stores its 32 bytes under the next SEQ in the ring; nothing of the store changes but
those bytes and the torn bitmap, and with entries lost before it a LOG_LOST entry with their number takes the SEQ before.
LOG_READ answers at most COUNT valid entries from FROM_SEQ on, ascending, and the SEQ that comes next, and writes no byte of the
store. -/
def Obligations.SensorsAndTheEventLog : Prop :=
  ∀ s : State,
    (∀ (k : Fin 12) v, s.wd.running = true → (s.wd.sensorClk.getD k none).any (fun c => !s.after c (samplePeriod k)) = false →
      sensorOutside s k (u32 v) = bitAt s.wd.health k → Gives (.sensorSample k v) s fun t =>
        t.wd = { s.wd with sensorRun := modAt s.wd.sensorRun k fun _ => 0,
                           sensorClk := modAt s.wd.sensorClk k fun _ => some s.clk } ∧
        t = { s with wd := t.wd, pw := t.pw, free := t.free }) ∧
    (∀ (k : Fin 12) v, s.wd.running = true → (s.wd.sensorClk.getD k none).any (fun c => !s.after c (samplePeriod k)) = false →
      sensorOutside s k (u32 v) ≠ bitAt s.wd.health k → s.wd.sensorRun.getD k 0 < 2 → Gives (.sensorSample k v) s fun t =>
        t.wd = { s.wd with sensorRun := modAt s.wd.sensorRun k fun n => n + 1,
                           sensorClk := modAt s.wd.sensorClk k fun _ => some s.clk } ∧
        t = { s with wd := t.wd, pw := t.pw, free := t.free }) ∧
    (∀ (k : Fin 12) v, s.wd.running = true → (s.wd.sensorClk.getD k none).any (fun c => !s.after c (samplePeriod k)) = false →
      sensorOutside s k (u32 v) ≠ bitAt s.wd.health k →
      2 ≤ s.wd.sensorRun.getD k 0 → s.wd.buffer.length < 256 → Gives (.sensorSample k v) s fun t =>
        bitAt t.wd.health k = sensorOutside s k (u32 v) ∧ t.wd.sensorRun = modAt s.wd.sensorRun k (fun _ => 0) ∧
        t.wd.buffer.length = s.wd.buffer.length + 1 ∧ t = { s with wd := t.wd, pw := t.pw, free := t.free }) ∧
    (∀ e r, s.wd.buffer = e :: r → s.wd.running = true → s.wd.lostSince = 0 →
      let q := nextSeq s.wd.logSeq
      Gives .logEntryWrite s fun t =>
        t.wd = { s.wd with buffer := r, logSeq := q } ∧
        rdBytes t.hw.mem (logAddr (logIndex q)) 32 = logBytes q e (decide (e.clk + 128000000 < s.clk)) ∧
        keepsBytes s t [(0, 256), (logAddr (logIndex q), 32)] ∧ t = { s with hw := t.hw, wd := t.wd }) ∧
    (∀ e r, s.wd.buffer = e :: r → s.wd.running = true → s.wd.lostSince ≠ 0 →
      let q := nextSeq s.wd.logSeq
      Gives .logEntryWrite s fun t =>
        t.wd = { s.wd with buffer := r, lostSince := 0, logSeq := nextSeq q } ∧
        rdBytes t.hw.mem (logAddr (logIndex q)) 32 =
          logBytes q ⟨s.now80, 0x0108, fitBytes 14 (le 4 s.wd.lostSince), logFlags s false false false, s.clk⟩ false ∧
        rdBytes t.hw.mem (logAddr (logIndex (nextSeq q))) 32 =
          logBytes (nextSeq q) e (decide (e.clk + 128000000 < s.clk)) ∧
        keepsBytes s t [(0, 256), (logAddr (logIndex q), 32), (logAddr (logIndex (nextSeq q)), 32)] ∧
        t = { s with hw := t.hw, wd := t.wd }) ∧
    (∀ h fromSeq count, Opens opLogRead h s → h.len = 8 → 1 ≤ count → count ≤ 32 →
      Answers (.logRead h fromSeq count) s opLogRead h .ok fun v bs =>
        v.hw.mem = s.hw.mem ∧ v = { s.accepted h with hw := v.hw, wd := v.wd } ∧
        ∃ n, bs = le 1 ((logFrom s fromSeq).take count).length ++ zeros 1 ++ le 4 n ++
          ((logFrom s fromSeq).take count).flatten ∧
        (∀ b, ((logFrom s fromSeq).take count).getLast? = some b → n = nextSeq (fieldAt b 0 4)) ∧
        ((logFrom s fromSeq).take count = [] → n = if fromSeq = 0 then nextSeq s.wd.logSeq else fromSeq))

/-- Updates from UPDATE_BEGIN to the end of the trial. UPDATE_BEGIN with a good header and none open opens a package, erasing
the inactive region of a banked kind (PENDING) or ready at once. The erase's end makes it ready; UPDATE_DATA at the next offset
appends its bytes; VERIFY and ACTIVATE check it and refuse one that fails, which stays open; a banked kind then waits for its
safe point, where the inactive region becomes the running one in TRIAL with the next activation number. A Canopy that is not
ready in time fails its trial, whose region is REVOKED. A trial that ends well leaves its region GOOD where its ROLLBACK_MIN
allows, and ROLLBACK never falls. ABORT outside TRIAL leaves no package open and the banks alone. UPDATE_STATUS reports. No byte
of the store changes but for what applying a package of kinds 4 to 6 commits. -/
def Obligations.UpdatePackagesAndTrials : Prop :=
  ∀ (s : State) (h : Hdr),
    (∀ hd, Opens opUpdateBegin h s → h.len = 192 → List.length hd = 192 → headerBad hd = false →
      (s.accepted h).up.st = 0 → (4 ≤ hdrKind hd → locked (s.accepted h) = false) →
      Answers (.updateBegin h hd) s opUpdateBegin h (if hdrKind hd < 4 then .pending else .ok) fun v bs =>
        v.up.st = (if hdrKind hd < 4 then 1 else 2) ∧ v.up.header = hd ∧ v.up.payload = [] ∧ bs = zeros 2 ∧
        v.up.active = s.up.active ∧ v.up.rollback = s.up.rollback ∧
        (4 ≤ hdrKind hd → v.up.banks = s.up.banks) ∧
        (hdrKind hd < 4 → s.up.banks.length = 4 → region v (hdrKind hd) (inactiveOf s (hdrKind hd)) =
          { Region.blank with act := (region s (hdrKind hd) (inactiveOf s (hdrKind hd))).act }) ∧
        v = { s.accepted h with up := v.up, wd := v.wd, free := v.free }) ∧
    (s.up.st = 1 → exec .updateEraseDone s = .next { s with up := { s.up with st := 2 } }) ∧
    (∀ p, Opens opUpdateData h s → h.more = false → h.len = List.length p →
      let msg := fragOf s h 0x0E11 ++ p
      msg.length ≤ 65540 → 5 ≤ msg.length → (s.accepted h).up.st = 2 →
      fieldAt msg 0 4 = (s.accepted h).up.payload.length →
      (s.accepted h).up.payload.length + (msg.length - 4) ≤ hdrLength (s.accepted h).up.header →
      Answers (.updateData h p) s opUpdateData h .ok fun v bs =>
        v.up = { (s.accepted h).up with payload := (s.accepted h).up.payload ++ msg.drop 4 } ∧
        bs = zeros 2 ++ le 4 v.up.payload.length ∧ v = { s.accepted h with up := v.up, lk := v.lk }) ∧
    (∀ g, Opens opUpdateFinish h s → h.len = 4 → (s.accepted h).up.st = 2 ∨ (s.accepted h).up.st = 3 →
      (verifyFail (s.accepted h) g = none → exec (.updateVerify h g) s =
        .next (((s.accepted h).onUp fun u => { u with st := 3 }).replied opUpdateFinish h .ok (le 1 3 ++ zeros 1))) ∧
      (∀ st, verifyFail (s.accepted h) g = some st → Answers (.updateVerify h g) s opUpdateFinish h st fun v bs =>
        v.up = (s.accepted h).up ∧ bs = zeros 2 ∧ v.hw = (s.accepted h).hw)) ∧
    (∀ g, Opens opUpdateFinish h s → h.len = 4 → (s.accepted h).up.st = 2 ∨ (s.accepted h).up.st = 3 →
      (4 ≤ hdrKind (s.accepted h).up.header → locked (s.accepted h) = false) →
      (verifyFail (s.accepted h) g = none → hdrKind (s.accepted h).up.header < 4 →
        Answers (.updateActivate h false g) s opUpdateFinish h .pending fun v bs =>
          v.up = { (s.accepted h).up with st := 4 } ∧ bs = le 1 4 ++ zeros 1 ∧ v.hw.mem = (s.accepted h).hw.mem ∧
          v = { s.accepted h with up := v.up, hw := v.hw, wd := v.wd, pq := v.pq, free := v.free }) ∧
      (∀ a, verifyFail (s.accepted h) g = none → 4 ≤ hdrKind (s.accepted h).up.header →
        applyPackage (s.accepted h) = (a, none) →
        Answers (.updateActivate h false g) s opUpdateFinish h .ok fun v bs =>
          v.up.st = 0 ∧ v.up.header = [] ∧ v.up.payload = [] ∧ bs = zeros 2 ∧
          v = { a with up := v.up, wd := v.wd, free := v.free }) ∧
      (∀ st, verifyFail (s.accepted h) g = some st → Answers (.updateActivate h false g) s opUpdateFinish h st fun v bs =>
        v.up = (s.accepted h).up ∧ bs = zeros 2 ∧ v.hw = (s.accepted h).hw)) ∧
    (Opens opUpdateFinish h s → h.len = 4 → (s.accepted h).up.st ≠ 5 →
      Answers (.updateAbort h) s opUpdateFinish h .ok fun v bs =>
        v.up.st = 0 ∧ bs = zeros 2 ∧ v.up.banks = (s.accepted h).up.banks ∧ v.up.active = (s.accepted h).up.active ∧
        v = { s.accepted h with up := v.up }) ∧
    (Opens opUpdateStatus h s → h.len = 0 → exec (.updateStatus h) s = .next ((s.accepted h).replied opUpdateStatus h .ok
      (le 1 (s.accepted h).up.st ++ le 1 (updateKind (s.accepted h)) ++ le 4 (hdrVersion (s.accepted h).up.header) ++
        le 4 (s.accepted h).up.payload.length ++ le 2 (trialRemain (s.accepted h)) ++ zeros 2 ++
        le 4 (banksWord (s.accepted h))))) ∧
    (safeNow s = true → safePoint s (hdrKind s.up.header) = true → s.up.revert = none → s.up.st = 4 →
      hdrKind s.up.header < 4 → s.up.banks.length = 4 → s.up.active.length = 4 → Gives .updateSafePoint s fun t =>
        t.up.st = 5 ∧ activeOf t (hdrKind s.up.header) = inactiveOf s (hdrKind s.up.header) ∧
        (region t (hdrKind s.up.header) (activeOf t (hdrKind s.up.header))).st = 1 ∧
        (region t (hdrKind s.up.header) (activeOf t (hdrKind s.up.header))).act =
          Nat.max (regionsOf s (hdrKind s.up.header)).1.act (regionsOf s (hdrKind s.up.header)).2.act + 1 ∧
        t.up.rollback = s.up.rollback ∧
        t = { s with pw := t.pw, te := t.te, rtc := t.rtc, se := t.se, pr := t.pr, lk := t.lk, tp := t.tp, wd := t.wd, up := t.up,
                     tx := t.tx, nt := t.nt, hm := t.hm, pq := t.pq, pm := t.pm, free := t.free }) ∧
    (safeNow s = true → safePoint s (hdrKind s.up.header) = true → s.up.revert.isSome = true → Gives .updateSafePoint s fun t =>
        t.up.st = 0 ∧ t.up.revert = none ∧ t.up.rollback = s.up.rollback ∧
        t = { s with pw := t.pw, te := t.te, rtc := t.rtc, se := t.se, pr := t.pr, lk := t.lk, tp := t.tp, wd := t.wd, up := t.up,
                     tx := t.tx, nt := t.nt, hm := t.hm, pq := t.pq, pm := t.pm, free := t.free }) ∧
    (s.wd.canopyRunning = false → s.up.st = 5 → hdrKind s.up.header = 0 → s.up.revert = none → s.up.banks.length = 4 →
      s.after s.up.trialClk (400 * cycMs) = true → Gives .trialReadyTimeout s fun t =>
        t.up.revert.isSome = true ∧ (region t 0 (activeOf s 0)).st = 3 ∧ t.up.active = s.up.active ∧
        t.hw.mem = s.hw.mem ∧ t = { s with hw := t.hw, wd := t.wd, up := t.up, pq := t.pq, free := t.free }) ∧
    (s.up.st = 5 → s.up.revert = none → s.after s.up.trialClk (60 * cycS) = true → Gives .updateTrialEnd s fun t =>
        t.up.st = 0 ∧ t.up.rollback = Nat.max s.up.rollback (satN 64 (hdrRollback s.up.header)) ∧
        t.up.active = s.up.active ∧
        (satN 64 (hdrRollback s.up.header) ≤ s.up.rollback ∨ Nat.max s.up.rollback (satN 64 (hdrRollback s.up.header)) ≤
            (region s (hdrKind s.up.header) (activeOf s (hdrKind s.up.header))).rollbackMin →
          hdrKind s.up.header < s.up.banks.length →
          (region t (hdrKind s.up.header) (activeOf s (hdrKind s.up.header))).st = 2) ∧
        t = { s with wd := t.wd, up := t.up, free := t.free })

/-- Transplant: prepare, build, read, discard, import and apply. PREPARE under the owner's signature keeps the destination and
answers PENDING with a fresh challenge. At the boundary, once its block has ended, the package is built from the ledger copy for
that destination. READ gives at most MAX_BYTES from an offset and changes nothing; DISCARD drops the package. IMPORT of a whole,
signed package for this device whose contents pass their checks is kept and answered PENDING. At the boundary the import's
Pioneer totals replace the device's, it counts as imported, its body is gone, and a routine checkpoint begins unless a
power-fail one is in progress. -/
def Obligations.TransplantExportsAndImports : Prop :=
  ∀ (s : State) (h : Hdr),
    (∀ d pub sig, Opens opExport h s → h.len = 140 → ownerSigned (s.accepted h) sig = true →
      (s.accepted h).tp.identity.isSome = true → (s.accepted h).tp.trngOk = true →
      Answers (.transplantPrepare h false d pub sig) s opExport h .pending fun v bs =>
        v.tx.prepare = some (d % 2 ^ 64, fitBytes 64 pub) ∧ v.tx.package = none ∧ bs = zeros 2 ++ le 4 0 ∧
        v = { s.accepted h with tx := v.tx, tp := { (s.accepted h).tp with challenge := v.tp.challenge }, free := v.free }) ∧
    (∀ d pub copy, s.tx.prepare = some (d, pub) → boundaryCopy s = some copy → atBlock s = true →
      s.me.blockEnd = time80 (pInstant s) → Gives .transplantPackageBuild s fun t =>
        t.tx = { s.tx with prepare := none, package := some (exportPackage s d pub copy) } ∧
        t = { s with tx := t.tx, wd := t.wd, free := t.free }) ∧
    (∀ off n, Opens opExport h s → h.len = 12 → (s.accepted h).lk.hushed = false → 4 ≤ n → n ≤ 4064 →
      exec (.transplantRead h off n) s = .next ((s.accepted h).replied opExport h .ok
        (totalBytes (s.accepted h) ++ (((s.accepted h).tx.package.getD []).drop off).take n))) ∧
    (Opens opExport h s → h.len = 4 → exec (.transplantDiscard h) s =
      .next (((s.accepted h).onTx fun t => { t with package := none }).replied opExport h .ok (zeros 2 ++ le 4 0))) ∧
    (∀ p b sig, Opens opImport h s → h.more = false →
      let msg := fragOf s h 0x0E21 ++ p
      (fragOf s h 0x0E21).length + h.len = 68 + fieldAt msg 0 4 → 260 ≤ msg.length → msg.length = 4 + fieldAt msg 0 4 →
      (s.accepted h).pw.pfail = false → locked (s.accepted h) = false → ownerSigned (s.accepted h) sig = true →
      fieldAt msg 4 2 = 0x5450 → fieldAt msg 6 2 = 1 → fieldAt msg 16 8 = Config.uniqueId % 2 ^ 64 →
      importOk (s.accepted h) b = true → (s.accepted h).pr.pending = [] → (s.accepted h).up.st = 0 →
      Answers (.transplantImport h p (some b) sig true) s opImport h .pending fun v bs =>
        v.tx.importBody = some (b, fieldAt msg 24 10) ∧ v.tx.srcId = fieldAt msg 8 8 ∧ bs = zeros 2 ∧
        v = { s.accepted h with tx := v.tx, lk := v.lk, tp := { (s.accepted h).tp with challenge := v.tp.challenge },
                                free := v.free }) ∧
    (∀ b bx, s.tx.importBody = some (b, bx) → atBlock s = true → Gives .transplantApply s fun t =>
        t.tx.importBody = none ∧ t.tx.imported = true ∧
        t.me.regElemP = booksAt (bodySection 1 b) 48 2 s.me.regElemP ∧
        t.me.regCircP = booksAt (bodySection 1 b) 496 2 s.me.regCircP ∧
        ((∀ c, s.hw.ckpt = some c → c.kind ≠ 1) → ∃ c, t.hw.ckpt = some c ∧ c.kind = 0))

/-! ### Converters, references and the coppice (chapters 03 and 04) -/

/-- Stuck and overloaded converters, reference comparison, baseline, rebase and REFIN. A converter whose run of equal codes
reaches 250 samples is marked stuck and, in a stand whose coppice runs, condemned; an overload reset is counted, the pair's
samples settle anew and its run starts anew. A reference comparison, once live and a second after the last, takes its
temperature-compensated ratio and deviation; the second result in a row beyond the alarm raises REF_DISAGREE, the tenth within
it ends it, and a requested rebase takes the ratio as baseline. Sixty seconds after stage 2 the ratio becomes the stored
baseline of a primary REFIN, REF_REBASE asks for a rebase, and a REFIN that leaves its range sets its bits, and REF_DISAGREE
where a baseline exists, without a change of reference. A stored baseline changes the store in the device and boot records and
the torn bitmap only, and clocks and registers stay as they were throughout. -/
def Obligations.ConverterFaultsAndReferences : Prop :=
  ∀ s : State,
    let only := fun t : State =>
      t = { s with ref := t.ref, se := t.se, lk := t.lk, tp := t.tp, wd := t.wd, hm := t.hm, me := t.me, free := t.free }
    (∀ v : Fin 40, 250 ≤ (s.conv v).run → s.convs.length = 40 → s.stands.length = 4 →
      Gives (.stuckDetected v) s fun t =>
        (t.conv v).stuck = true ∧ ((s.stand (standOfConv v)).st ≠ 4 → condemned t v = true) ∧
        t = { s with hw := t.hw, wd := t.wd, chans := t.chans, convs := t.convs, stands := t.stands, filts := t.filts,
                     insts := t.insts }) ∧
    (∀ v : Fin 40, (s.pw.phase = .metering ∨ s.pw.phase = .modulators) → s.convs.length = 40 →
      Gives (.modulatorOverloadReset v) s fun t =>
        (t.conv v).resets = u32 ((s.conv v).resets + 1) ∧ (t.conv v).unsP = 68 ∧ (t.conv v).unsW = 24 ∧
        (t.conv v).resetNow = true ∧ (t.conv v).run = 0 ∧ t = { s with convs := t.convs }) ∧
    (∀ r, s.ref.live = true → s.ref.resClk.any (fun c => !s.after c cycS) = false → s.ref.rebase = false →
      Gives (.refComparisonResult r) s fun t =>
        t.ref.ratio = refRatio s r ∧ t.ref.dev = refDeviation s (refRatio s r) ∧ t.ref.baseline = s.ref.baseline ∧
        t.ref.resClk = some s.clk ∧
        (s.ref.baseline.isSome = true → par s 0x1803 * 100 < (refDeviation s (refRatio s r)).natAbs → 1 ≤ s.ref.badRun →
          t.ref.disagree = true) ∧
        (s.ref.baseline.isSome = true → (refDeviation s (refRatio s r)).natAbs ≤ par s 0x1803 * 100 → 9 ≤ s.ref.goodRun →
          t.ref.disagree = false) ∧
        (s.ref.baseline.isSome = true → par s 0x1803 * 100 < (refDeviation s (refRatio s r)).natAbs → s.ref.badRun = 0 →
          t.ref.disagree = s.ref.disagree) ∧ only t) ∧
    (∀ r, s.ref.live = true → s.ref.resClk.any (fun c => !s.after c cycS) = false → s.ref.rebase = true →
      Gives (.refComparisonResult r) s fun t =>
        t.ref.ratio = refRatio s r ∧ t.ref.baseline = some (refRatio s r) ∧ t.ref.rebase = false ∧
        t.ref.stored = (if s.pw.refsel then some (refRatio s r) else s.ref.stored) ∧
        (s.pw.refsel = false → t.hw = s.hw) ∧
        keepsBytes s t [(0, 256), (pageAddr 0 deviceRec.2, 512), (pageAddr 0 bootRec.2, 512)] ∧
        t = { s with ref := t.ref, hw := t.hw, se := t.se, lk := t.lk, tp := t.tp, wd := t.wd, hm := t.hm, me := t.me,
                     free := t.free }) ∧
    (s.pw.refsel = true → s.ref.live = true → s.ref.bad = false → s.ref.stored = none → s.ref.ratio ≠ 0 →
      s.pw.stage2At.any (s.after · (60 * cycS)) = true → Gives .refBaselineCapture s fun t =>
        t.ref = { s.ref with baseline := some s.ref.ratio, stored := some s.ref.ratio } ∧
        keepsBytes s t [(0, 256), (pageAddr 0 deviceRec.2, 512), (pageAddr 0 bootRec.2, 512)] ∧
        t = { s with ref := t.ref, hw := t.hw, wd := t.wd }) ∧
    (∀ h, Opens opRefRebase h s → h.len = 5 → locked (s.accepted h) = false →
      exec (.refRebase h 1) s = .next (((s.accepted h).onRef fun r => { r with rebase := true }).replied opRefRebase h .ok
        (le 2 0x1804))) ∧
    (s.pw.refsel = true → s.ref.bad = false → s.pw.stage ≠ 0 → Gives .refinOutOfRange s fun t =>
        t.ref = { s.ref with bad := true, goodRun := 0,
                             disagree := if s.ref.baseline.isSome then true else s.ref.disagree } ∧ only t)

/-- The rotation of a stand: slots, first overlaps, home return, splices back and the pre-shadow. When a slot's 160,000 samples
are over a running coppice takes the next of ten slots; in a ROTATING stand that is not overlapping back, slot 9 rests the spare
and any other slot moves the spare to its channel, counting a skip where the channel is not NORMAL or its home converter is
condemned; one that still overlaps back runs on and counts a skip; a stand that does not rotate takes the slot alone. At the end
of the first overlap a match that is live or backed by usable stored terms splices the channel to the spare and rests the home
pair, or pins it where a pin waits; a failed cross-check is counted, and a channel no longer NORMAL, never matched or matched
too weakly is passed over and counted. At 5.600 s the home pair returns for a second overlap that starts from the correction in
use, whose good end splices the channel back, whose failed cross-check is counted, and which goes on where the match cannot
hold; at 4.800 s of the spare's slot the spare shadows slot 0's channel. Clocks and registers stay as they were. -/
def Obligations.CoppiceCycleOfAStand : Prop :=
  ∀ (s : State) (k : Fin 4), s.stands.length = 4 → s.convs.length = 40 → s.chans.length = 36 →
    let only := fun t : State =>
      t = { s with hw := t.hw, wd := t.wd, chans := t.chans, convs := t.convs, stands := t.stands, filts := t.filts,
                   insts := t.insts, free := t.free }
    ((s.stand k).st ≠ 4 → slotDue s k = true → Gives (.slotStart k) s fun t =>
      (t.stand k).slot = nextSlot (s.stand k) ∧ (t.stand k).st = (s.stand k).st ∧
      ((s.stand k).st = 0 → (s.stand k).pinReq = none → (s.stand k).phase ≠ 2 → nextSlot (s.stand k) = 9 →
        (t.stand k).phase = 3 ∧ (t.stand k).spareChan = 0xFE ∧ (t.stand k).carrying = false) ∧
      ((s.stand k).st = 0 → (s.stand k).pinReq = none → (s.stand k).phase ≠ 2 → nextSlot (s.stand k) ≠ 9 →
        (t.stand k).spareChan = slotChan k (nextSlot (s.stand k)) ∧ (t.stand k).carrying = false ∧
        (chanSource s (slotChan k (nextSlot (s.stand k))) = 0 →
          condemned s (slotChan k (nextSlot (s.stand k))) = false → (t.stand k).phase = 0 ∧ (t.stand k).skip = false) ∧
        (chanSource s (slotChan k (nextSlot (s.stand k))) ≠ 0 ∨ condemned s (slotChan k (nextSlot (s.stand k))) = true →
          (t.stand k).phase = 5 ∧ (t.stand k).skip = true ∧ (t.stand k).skipped = u32 ((s.stand k).skipped + 1))) ∧
      ((s.stand k).st = 0 → (s.stand k).phase = 2 → (t.stand k).phase = 2 ∧ (t.stand k).runOn = true ∧
        (t.stand k).spareChan = (s.stand k).spareChan ∧ (t.stand k).carrying = (s.stand k).carrying ∧
        (t.stand k).skipped = u32 ((s.stand k).skipped + 1)) ∧
      ((s.stand k).st ≠ 0 → t.stand k = { s.stand k with slot := nextSlot (s.stand k), skip := false, n := 0 }) ∧
      t = { s with hw := t.hw, pr := t.pr, wd := t.wd, convs := t.convs, stands := t.stands, insts := t.insts }) ∧
    ((s.stand k).phase = 0 → (s.stand k).spareChan < 36 → (s.stand k).st = 0 ∨ (s.stand k).pinReq.isSome = true →
      overlapOver (s.stand k) = true → (s.stand k).pairs ≠ [] → chanSource s (s.stand k).spareChan = 0 →
      (xcheckBad (matchLive s k (runMatch s k)) (runMatch s k) = false →
        matchLive s k (runMatch s k) = true ∨ storedUsable s k (s.stand k).spareChan = true →
        Gives (.firstOverlapEnd k) s fun t =>
          (t.stand k).carrying = true ∧ (t.stand k).stored = !(matchLive s k (runMatch s k)) ∧
          (t.stand k).splices = u32 ((s.stand k).splices + 1) ∧
          (t.chan (s.stand k).spareChan).matchOffset = quant s 0 (256 * (runMatch s k).o) ∧
          ((s.stand k).pinReq = none → (t.stand k).phase = 1 ∧ (t.conv (s.stand k).spareChan).unsP = 68) ∧
          ((s.stand k).pinReq.isSome = true → (t.stand k).phase = 6 ∧ (t.stand k).st = 2 ∧
            (t.stand k).pinChan = (s.stand k).spareChan ∧ (t.stand k).pinReq = none) ∧ t.hw = s.hw ∧ only t) ∧
      (xcheckBad (matchLive s k (runMatch s k)) (runMatch s k) = true → Gives (.firstOverlapEnd k) s fun t =>
        (t.stand k).xcheckFails = u32 ((s.stand k).xcheckFails + 1) ∧ only t)) ∧
    ((s.stand k).phase = 0 → (s.stand k).spareChan < 36 → (s.stand k).st = 0 → (s.stand k).pinReq = none →
      overlapOver (s.stand k) = true → ((s.stand k).pairs = [] ∨ chanSource s (s.stand k).spareChan ≠ 0 ∨
        (xcheckBad (matchLive s k (runMatch s k)) (runMatch s k) = false ∧ matchLive s k (runMatch s k) = false ∧
          storedUsable s k (s.stand k).spareChan = false)) →
      Gives (.firstOverlapEnd k) s fun t =>
        (t.stand k).phase = 5 ∧ (t.stand k).skipped = u32 ((s.stand k).skipped + 1) ∧
        (t.stand k).carrying = (s.stand k).carrying ∧ t = { s with stands := t.stands, wd := t.wd }) ∧
    ((s.stand k).phase = 1 → (s.stand k).spareChan < 36 → slotAt (s.stand k) 140000 = true →
      Gives (.homeReturn k) s fun t =>
        t.stand k = { (s.stand k).rematch with phase := 2, dac := 8, first := (s.stand k).corr } ∧
        (t.conv (s.stand k).spareChan).unsP = 68 ∧ t = { s with stands := t.stands, convs := t.convs }) ∧
    ((s.stand k).phase = 2 → (s.stand k).spareChan < 36 → backReady s k (s.stand k).spareChan = true →
      (xcheckBad (matchLive s k (runMatch s k) && !(s.stand k).stored) (runMatch s k) = true →
        Gives (.spliceBack k) s fun t => (t.stand k).xcheckFails = u32 ((s.stand k).xcheckFails + 1) ∧ only t) ∧
      (xcheckBad (matchLive s k (runMatch s k) && !(s.stand k).stored) (runMatch s k) = false →
        spliceHolds s k (s.stand k).spareChan (matchLive s k (runMatch s k) && !(s.stand k).stored) = false →
        exec (.spliceBack k) s = .next s) ∧
      (xcheckBad (matchLive s k (runMatch s k) && !(s.stand k).stored) (runMatch s k) = false →
        spliceHolds s k (s.stand k).spareChan (matchLive s k (runMatch s k) && !(s.stand k).stored) = true →
        (s.stand k).st = 0 → (s.stand k).pauseReq = false → (s.stand k).pinReq = none → (s.stand k).runOn = false →
        Gives (.spliceBack k) s fun t =>
        (t.stand k).carrying = false ∧ (t.stand k).phase = 5 ∧ (t.stand k).spareChan = (s.stand k).spareChan ∧
        (t.stand k).splices = u32 ((s.stand k).splices + 1) ∧ (t.stand k).st = 0 ∧ (t.stand k).pairs = [] ∧
        (t.stand k).old = none ∧ t.hw = s.hw ∧ only t)) ∧
    ((s.stand k).phase = 3 → (s.stand k).st = 0 → slotAt (s.stand k) 120000 = true → Gives (.preshadowConnect k) s fun t =>
        (t.stand k).phase = 4 ∧ (t.stand k).spareChan = slotChan k 0 ∧ (t.stand k).carrying = false ∧
        (t.stand k).dac = 8 ∧ (t.stand k).old = none ∧
        t = { s with stands := t.stands, convs := t.convs, insts := t.insts })

/-- The rest of a converter: its sources, its acceptance, its new trims, and a requalification. While a converter rests, its
source moves on to the level that follows once it has given the samples that its level needs, and the converter's samples settle
anew. At the acceptance instant a rest that has all its measurements and passes gives the converter the trims formed from them
at the code of the rest; a failed one condemns the converter. A requalification that passes gives the converter such trims and
clears its condemnation; one that fails leaves trims and condemnation. Each of them, passed or failed, counts one rest. Clocks
and registers stay as they were. -/
def Obligations.RestsCalibrateConverters : Prop :=
  ∀ (s : State) (k : Fin 4), s.stands.length = 4 → s.convs.length = 40 → s.chans.length = 36 →
    let only := fun t : State =>
      t = { s with hw := t.hw, wd := t.wd, chans := t.chans, convs := t.convs, stands := t.stands, filts := t.filts,
                   insts := t.insts, free := t.free }
    let trims := fun (v : Nat) (r : Rest) => (⟨roundAway (256 * r.z), restTrim r, restCode s v,
      (restCode s v, s.clk) :: (s.conv v).trim.cals.filter (fun e => e.1 != restCode s v)⟩ : Trim)
    (∀ v, resting s k = some v → v < 40 → (s.stand k).dac ≠ 8 → levelTo (s.stand k).dac ≤ (s.stand k).dacN →
      Gives (.restSourceSwitch k) s fun t =>
        t.stand k = { s.stand k with dac := nextLevel (linDue s k v) (s.stand k).dac, dacN := 0 } ∧
        t.conv v = { s.conv v with unsP := 68, unsW := 24 } ∧ (∀ j, j ≠ k.val → t.stand j = s.stand j) ∧
        (∀ w, w ≠ v → t.conv w = s.conv w) ∧ t = { s with stands := t.stands, convs := t.convs }) ∧
    (∀ v r, (s.stand k).skip = false → (s.stand k).requal = none → slotAt (s.stand k) (acceptAt (s.stand k)) = true →
      resting s k = some v → v < 40 → restOf s k v = some r → restPasses s v r = true →
      Gives (.restAcceptance k) s fun t =>
        (t.conv v).trim = trims v r ∧ (t.conv v).rests = (s.conv v).rests + 1 ∧
        (t.stand k).condemned = (s.stand k).condemned ∧
        t = { s with convs := t.convs, stands := t.stands, free := t.free }) ∧
    (∀ v r, (s.stand k).skip = false → (s.stand k).requal = none → slotAt (s.stand k) (acceptAt (s.stand k)) = true →
      resting s k = some v → v < 40 → standOfConv v = k → (s.stand k).st ≠ 4 → restOf s k v = some r →
      restPasses s v r = false → Gives (.restAcceptance k) s fun t =>
        condemned t v = true ∧ (t.conv v).rests = (s.conv v).rests + 1 ∧ only t) ∧
    (∀ v r, (s.stand k).requal = some v → v < 40 → restOf s k v = some r → restPasses s v r = true →
      Gives (.requalifyResult k) s fun t =>
        (t.stand k).requal = none ∧ bitAt (t.stand k).condemned (condBit v) = false ∧ (t.conv v).trim = trims v r ∧
        (t.conv v).rests = (s.conv v).rests + 1 ∧ only t) ∧
    (∀ v r, (s.stand k).requal = some v → v < 40 → restOf s k v = some r → restPasses s v r = false →
      Gives (.requalifyResult k) s fun t =>
        (t.stand k).requal = none ∧ (t.stand k).condemned = (s.stand k).condemned ∧
        (t.conv v).trim = (s.conv v).trim ∧ (t.conv v).rests = (s.conv v).rests + 1 ∧
        t = { s with stands := t.stands, convs := t.convs, wd := t.wd, free := t.free })

/-- COPPICE_CONTROL: query, pause, rotate, pin, unpin, shadow and requalify. Each action on the stands that STAND names, where
it is permitted and the ladder is below LOCK (QUERY at any level, REQUALIFY with a P2 write session), is carried out by its
stand operation and answered PENDING where it waits, OK otherwise, with the stands' blocks; PAUSE and ROTATE on all stands act
on those in which they are permitted. -/
def Obligations.CoppiceControlRequests : Prop :=
  ∀ (s : State) (h : Hdr) (stand : Nat), h.len = 4 → Opens opCoppice h s →
    (standBad (s.accepted h) stand true (fun _ => true) = false →
      exec (.coppiceQuery h stand false) s =
        .next ((s.accepted h).replied opCoppice h .ok (coppiceReply (s.accepted h) stand))) ∧
    (locked (s.accepted h) = false → standBad (s.accepted h) stand true (fun d => d.st == 0) = false →
      exec (.coppicePause h stand) s =
        let a := coppiceAct stand (fun d => d.st == 0) pauseStand (s.accepted h)
        .next (a.s.replied opCoppice h a.st a.bytes)) ∧
    (locked (s.accepted h) = false → standBad (s.accepted h) stand true (fun d => d.st ≤ 2) = false →
      exec (.coppiceRotate h stand) s =
        let a := coppiceAct stand (fun d => d.st ≤ 2) rotateStand (s.accepted h)
        .next (a.s.replied opCoppice h a.st a.bytes)) ∧
    (∀ c, locked (s.accepted h) = false → standBad (s.accepted h) stand false (fun d => d.st ≤ 2) = false → c ≤ 35 →
      standOf c = stand →
      exec (.coppicePin h stand c) s = .next ((pinStand c (s.accepted h) stand).1.replied opCoppice h
        (if (pinStand c (s.accepted h) stand).2 then .pending else .ok)
        (coppiceReply (pinStand c (s.accepted h) stand).1 stand))) ∧
    (locked (s.accepted h) = false → standBad (s.accepted h) stand false (fun d => d.st == 2) = false →
      exec (.coppiceUnpin h stand) s = .next (((s.accepted h).unpin stand).replied opCoppice h .ok
        (coppiceReply ((s.accepted h).unpin stand) stand))) ∧
    (∀ c, locked (s.accepted h) = false → standBad (s.accepted h) stand false (fun d => d.st == 1) = false → c ≤ 35 →
      standOf c = stand → Answers (.coppiceShadow h stand c) s opCoppice h .ok fun v bs =>
        v = (((s.accepted h).moveSpare stand c 5).onStand stand fun x => { x with pinReq := none }) ∧
        bs = coppiceReply v stand) ∧
    (∀ c, locked (s.accepted h) = false → canWrite (s.accepted h) h.path 2 = true →
      standBad (s.accepted h) stand false (fun d => d.st == 3) = false → c ≤ 39 → standOfConv c = stand →
      condemned (s.accepted h) c = true → (s.accepted h).stands.length = 4 →
      Answers (.coppiceRequalify h stand c) s opCoppice h .pending fun v bs =>
        (v.stand stand).requal = some c ∧ (v.stand stand).dac = 0 ∧ bs = coppiceReply v stand ∧
        (v.stand stand).meas = List.replicate 8 (0, 0) ∧
        (v.stand stand).phase = (if c < 36 then
            (if (s.stand stand).requal.any (36 ≤ ·) then 5 else (s.stand stand).phase) else 3) ∧
        (v.conv c) = { (s.accepted h).conv c with unsP := (v.conv c).unsP, unsW := (v.conv c).unsW } ∧
        (∀ j, j ≠ stand → v.stand j = s.stand j) ∧ v = { s.accepted h with stands := v.stands, convs := v.convs })

/-- What PAUSE, ROTATE, PIN and UNPIN do to one stand. PAUSE waits for the splice back of a channel in its rest or second
overlap, and otherwise pauses at once. ROTATE leaves the stand ROTATING with no pause or pin waiting. PIN of the channel already
pinned changes nothing; a shadowed, settled channel whose match holds is spliced to the spare at once; otherwise the pin waits.
UNPIN of a PINNED stand splices its channel home and leaves it PAUSED. None of them touches another stand, the clocks, the store
or the registers. -/
def Obligations.StandActionsMoveTheSpare : Prop :=
  ∀ (s : State) (k : Nat), k < 4 → s.stands.length = 4 →
    let only := fun t : State => (∀ j, j ≠ k → t.stand j = s.stand j) ∧
      t = { s with chans := t.chans, convs := t.convs, stands := t.stands, insts := t.insts, free := t.free }
    (((s.stand k).phase = 1 ∨ (s.stand k).phase = 2 →
        (pauseStand s k).2 = true ∧ ((pauseStand s k).1.stand k).pauseReq = true ∧
        ((pauseStand s k).1.stand k).pinReq = none ∧ ((pauseStand s k).1.stand k).st = (s.stand k).st) ∧
      ((s.stand k).phase ≠ 1 → (s.stand k).phase ≠ 2 →
        (pauseStand s k).2 = false ∧ ((pauseStand s k).1.stand k).st = 1 ∧ ((pauseStand s k).1.stand k).phase = 5) ∧
      only (pauseStand s k).1) ∧
    ((rotateStand s k).2 = false ∧ ((rotateStand s k).1.stand k).st = 0 ∧
      ((rotateStand s k).1.stand k).pauseReq = false ∧ ((rotateStand s k).1.stand k).pinReq = none ∧
      only (rotateStand s k).1) ∧
    (∀ c, ((s.stand k).st = 2 → (s.stand k).pinChan = c → pinStand c s k = (s, false)) ∧
      (¬((s.stand k).st = 2 ∧ (s.stand k).pinChan = c) →
        (shadowing s k c && spliceHolds s k c (matchLive s k (runMatch s k))) = true →
        (pinStand c s k).2 = false ∧ ((pinStand c s k).1.stand k).st = 2 ∧ ((pinStand c s k).1.stand k).pinChan = c ∧
        ((pinStand c s k).1.stand k).carrying = true ∧ ((pinStand c s k).1.stand k).phase = 6 ∧
        ((pinStand c s k).1.stand k).splices = u32 ((s.stand k).splices + 1)) ∧
      (¬((s.stand k).st = 2 ∧ (s.stand k).pinChan = c) →
        (shadowing s k c && spliceHolds s k c (matchLive s k (runMatch s k))) = false →
        (pinStand c s k).2 = true ∧ ((pinStand c s k).1.stand k).pinReq = some c) ∧ only (pinStand c s k).1) ∧
    ((s.stand k).st = 2 → ((s.unpin k).stand k).st = 1 ∧ ((s.unpin k).stand k).phase = 5 ∧
      ((s.unpin k).stand k).carrying = false ∧ ((s.unpin k).stand k).pinChan = 0xFF ∧
      (∀ j, j ≠ k → (s.unpin k).stand j = s.stand j) ∧
      s.unpin k = { s with stands := (s.unpin k).stands, chans := (s.unpin k).chans })

/-! ### Path checks, sequencers and snapshots (chapter 05) -/

/-- Path checks are queued, started when the test DAC is free, and judged. A check of a NORMAL channel, or a baseline check
below LOCK with a P2 write session, joins its stand's queue once and is answered PENDING with its place. From stage 3 on, with
the DAC free, the head of a stand's queue becomes the running check. A probe whose 10,000 samples are taken ends the running
check and, where no sequence that runs starts another job with it, counts it on its channel and gives ABORTED for a spoiled
probe, the neighbour result for a disturbed one, and otherwise the verdict with the done bit, and NO_BASELINE where the channel
has none. Only a baseline check writes parameters and store. -/
def Obligations.PathChecksQueueStartAndJudge : Prop :=
  ∀ s : State,
    (∀ h c, Opens opPathCheck h s → h.len = 4 → c ≤ 35 → chanSource (s.accepted h) c = 0 →
      Answers (.pathCheck h c false) s opPathCheck h .pending fun v bs =>
        v = (s.accepted h).queueCheck ⟨[4], c, false, false⟩ ∧ bs = le 1 (checkPosition v c) ++ zeros 1) ∧
    (∀ h c, Opens opPathCheck h s → h.len = 4 → c ≤ 35 → chanSource (s.accepted h) c = 0 →
      locked (s.accepted h) = false → canWrite (s.accepted h) h.path 2 = true →
      Answers (.pathCheckBaseline h c) s opPathCheck h .pending fun v bs =>
        v = (s.accepted h).queueCheck ⟨[4], c, true, false⟩ ∧ bs = le 1 (checkPosition v c) ++ zeros 1) ∧
    (∀ c, s.stands.length = 4 → c.chan ≤ 35 →
      ((s.stand (standOf c.chan)).queue.filter (fun x => x.chan == c.chan)).length ≤ 1 →
      1 ≤ checkPosition (s.queueCheck c) c.chan ∧
      (((s.queueCheck c).stand (standOf c.chan)).queue.filter (fun x => x.chan == c.chan)).length = 1) ∧
    (∀ (k : Fin 4) c r, s.stands.length = 4 → 3 ≤ s.pw.stage → dacFree (s.stand k) = true → (s.stand k).queue = c :: r →
      chanSource s c.chan = 0 → exec (.pathCheckStart k) s =
        .next (s.onStand k fun d => { d with active := some c, queue := r, probe := [], probeBad := false })) ∧
    (∀ (k : Fin 4) c, s.stands.length = 4 → s.chans.length = 36 → c.chan ≤ 35 → (s.stand k).active = some c →
      probeSamples ≤ (s.stand k).probe.length → Gives (.pathCheckComplete k) s fun t =>
        ((∀ n : Fin 4, (s.seq n).st ≠ 2) →
          (t.stand k).active = none ∧ (t.chan c.chan).pcCount = u32 ((s.chan c.chan).pcCount + 1) ∧
          ((s.stand k).probeBad = true → (t.chan c.chan).pcResult = 0x20) ∧
          ((s.stand k).probeBad = false → probeNoisy s k c.chan = true → (t.chan c.chan).pcResult = 0x10) ∧
          ((s.stand k).probeBad = false → probeNoisy s k c.chan = false →
            (t.chan c.chan).pcResult = 1 + pathVerdict s c.chan (probeZ s c.chan (probeRatio s k c.chan)) +
              (if parF s (pid 17 c.chan 3) = 0 then 0x40 else 0) ∧
            (t.chan c.chan).pcClk = some s.clk)) ∧
        (c.baseline = false → t.hw = s.hw ∧ t.pr = s.pr) ∧
        t = { s with hw := t.hw, pr := t.pr, wd := t.wd, chans := t.chans, stands := t.stands, seqs := t.seqs,
                     units := t.units, free := t.free })

/-- Arming a sequencer with a snapshot or a list of checks, its time trigger, and the snapshot's entries. SNAPSHOT_ARM and
SEQ_START with legal trigger fields install the arming, at once or when the running job ends (PENDING). A time trigger that is
due starts an armed sequencer and takes its next instant. A running snapshot whose instants lie in the history writes its marker
and frames as one group, which the ring takes or drops and counts whole, then ends: a waiting arming or disarming is installed
first, else a held trigger starts the job again, else a repeating arming is armed again and another one is idle. -/
def Obligations.SequencersArmTriggerAndWriteSnapshots : Prop :=
  ∀ s : State,
    (∀ h n a, Opens opSnapshotArm h s → h.len = 24 → firstFail (armChecks (s.accepted h) n a 7) = none →
      exec (.snapshotArm h n a) s =
        let x := armSequencer n a (.snapshot (bitAt a.flags 2)) (s.accepted h)
        .next (x.s.replied opSnapshotArm h x.st x.bytes)) ∧
    (∀ h n a l, Opens opSeqStart h s → h.len = 28 + List.length l → firstFail (armChecks (s.accepted h) n a 3) = none →
      l ≠ [] → l.length ≤ 36 → (∀ c ∈ l, c ≤ 35 ∧ chanSource (s.accepted h) c = 0) →
      exec (.seqStart h n a l) s =
        let x := armSequencer n a (.checks l) (s.accepted h)
        .next (x.s.replied opSeqStart h x.st x.bytes)) ∧
    (∀ n a job, n < 4 → s.seqs.length = 4 → a.source ≤ 3 → (s.seq n).st = 2 →
      (armSequencer n a job s).st = .pending ∧ ((armSequencer n a job s).s.seq n).next.isSome = true ∧
      ((armSequencer n a job s).s.seq n).st = 2) ∧
    (∀ n a wf, n < 4 → s.seqs.length = 4 → (a.source = 1 ∨ a.source = 3) → (s.seq n).st ≠ 2 →
      (armSequencer n a (.snapshot wf) s).st = .ok ∧ ((armSequencer n a (.snapshot wf) s).s.seq n).st = 1 ∧
      ((armSequencer n a (.snapshot wf) s).s.seq n).arm =
        some ⟨.snapshot wf, a.source, a.index, a.policy, bitAt a.flags 0, ofTime80 a.start, a.periodMs⟩) ∧
    (∀ (n : Fin 4) a, s.seqs.length = 4 → (s.seq n).arm = some a → a.source = 3 → (s.seq n).st = 1 → (s.seq n).due ≠ 0 →
      ((s.seq n).late = true ∨ (s.seq n).due ≤ s.now) → Gives (.sequencerTimeTick n) s fun t =>
        (t.seq n).due = (if a.periodMs = 0 then 0 else (s.seq n).due + a.periodMs * 65536000000) ∧
        (t.seq n).t = (if (s.seq n).late then s.now else (s.seq n).due) ∧
        ((∃ wf, a.job = .snapshot wf) ∨ (∃ l, a.job = .checks l ∧ ∃ c ∈ l, chanSource s c = 0) → (t.seq n).st = 2) ∧
        t = { s with wd := t.wd, chans := t.chans, stands := t.stands, seqs := t.seqs, units := t.units }) ∧
    (∀ (n : Fin 4) a wf x y, s.seqs.length = 4 → (s.seq n).arm = some a → a.job = .snapshot wf → (s.seq n).st = 2 →
      snapAt s (pNearest (s.seq n).t) = some x → snapAt s (wNearest (s.seq n).t / 15) = some y →
      Gives (.snapshotWrite n) s fun t =>
        ((s.seq n).next = none → (s.seq n).held = none →
          (t.seq n).st = (if a.repeats then 1 else 0) ∧ t = { s with seqs := t.seqs, qu := t.qu, lk := t.lk }) ∧
        ((s.seq n).next = none → ∀ u, (s.seq n).held = some u →
          (t.seq n).st = 2 ∧ (t.seq n).t = u ∧ (t.seq n).held = none) ∧
        ((s.seq n).next = some none → (t.seq n).st = 0 ∧ (t.seq n).arm = none) ∧
        (∀ b, (s.seq n).next = some (some b) → b.source ≠ 0 → (t.seq n).st = 1 ∧ (t.seq n).arm = some b ∧
          (t.seq n).next = none) ∧
        (t.qu.dropped = s.qu.dropped ∨ t.qu.dropped = u32 (s.qu.dropped + (if wf then 3 else 2))) ∧
        t = { s with lk := t.lk, chans := t.chans, stands := t.stands, seqs := t.seqs, qu := t.qu, units := t.units })

/-! ### Shaping filters (chapter 06) -/

/-- FILTER_STOP, FILTER_LOAD, FILTER_START, BANK_WRITE, BANK_SWAP and the stages of a swap. Below LOCK, FILTER_STOP stops a
running filter, giving up loads and swaps; FILTER_START runs a stopped one with unsettled samples. A good set goes into bank A
of a stopped filter at once, or waits for the channel's rest in a running one (PENDING), and with KEEP becomes the channel's
stored set; where the store does not take it the request answers INTERNAL_FAULT and no filter changes. BANK_WRITE fills bank B
while A is active. BANK_SWAP starts a swap to the other bank, or waits behind one in progress. After PRIME samples the fade
starts, after FADE more the incoming bank is active, and a held request starts the swap back. The filters of other channels stay
as they were, and of the store only P2, the Pioneer copies and the torn bitmap may change, by KEEP. -/
def Obligations.FilterLoadsAndSwaps : Prop :=
  ∀ s : State,
    let others := fun (c : Nat) (v : State) => ∀ j, j ≠ c → v.filt j = s.filt j
    (∀ h c, Opens opFilterStop h s → h.len = 4 → locked (s.accepted h) = false → c ≤ 35 → s.filts.length = 36 →
      Answers (.filterStop h c) s opFilterStop h .ok fun v bs =>
        (v.filt c).stopped = true ∧ bs = filterReply v c ∧
        ((s.filt c).stopped = false → (v.filt c).swap = none ∧ (v.filt c).held = none ∧ (v.filt c).load = none ∧
          (v.filt c).loading = none) ∧
        others c v ∧ v = { s.accepted h with filts := v.filts, wd := v.wd }) ∧
    (∀ h c set, Opens opFilterLoad h s → setLen h set = true → locked (s.accepted h) = false → c ≤ 35 → setBad set = false →
      s.filts.length = 36 → (s.filt c).swap = none → (s.filt c).held = none → (s.filt c).stopped = true →
      Answers (.filterLoad h c false set) s opFilterLoad h .ok fun v bs =>
        (v.filt c).bankA = coefSet set ∧ (v.filt c).actB = false ∧ (v.filt c).stopped = true ∧ bs = filterReply v c ∧
        others c v ∧ v = { s.accepted h with filts := v.filts, insts := v.insts }) ∧
    (∀ h c set, Opens opFilterLoad h s → setLen h set = true → locked (s.accepted h) = false → c ≤ 35 → setBad set = false →
      s.filts.length = 36 → (s.filt c).swap = none → (s.filt c).held = none → (s.filt c).stopped = false →
      (s.stand (standOf c)).st ≠ 3 → chanSource (s.accepted h) c = 0 →
      Answers (.filterLoad h c false set) s opFilterLoad h .pending fun v bs =>
        (v.filt c).load = some (coefSet set, false) ∧ (v.filt c).bankA = (s.filt c).bankA ∧ bs = filterReply v c ∧
        others c v ∧ v = { s.accepted h with filts := v.filts }) ∧
    (∀ h c set, Opens opFilterLoad h s → setLen h set = true → locked (s.accepted h) = false → c ≤ 35 → setBad set = false →
      canWrite (s.accepted h) h.path 2 = true → keepFull (s.accepted h) c set = false →
      s.filts.length = 36 → (s.filt c).swap = none → (s.filt c).held = none →
      ((s.filt c).stopped = true ∨ (s.stand (standOf c)).st ≠ 3 ∧ chanSource (s.accepted h) c = 0) →
      (((s.accepted h).keepPut c set).2 = true →
        Answers (.filterLoad h c true set) s opFilterLoad h (if (s.filt c).stopped then .ok else .pending) fun v bs =>
          (if (s.filt c).stopped then (v.filt c).bankA = coefSet set else (v.filt c).load = some (coefSet set, true)) ∧
          v.hw.p2Sets = setsWith s.hw.p2Sets c set ∧ bs = filterReply v c ∧ others c v ∧
          keepsBytes s v [(0, 256), (pageAddr 2 0, 128 * 256), (pioBase false, 2048), (pioBase true, 2048)] ∧
          v = { s.accepted h with filts := v.filts, insts := v.insts, hw := v.hw, wd := v.wd }) ∧
      (((s.accepted h).keepPut c set).2 = false →
        Answers (.filterLoad h c true set) s opFilterLoad h .internalFault fun v bs =>
          bs = zeros 6 ∧ v.hw.p2Sets = s.hw.p2Sets ∧ v.filts = s.filts ∧
          keepsBytes s v [(0, 256), (pageAddr 2 0, 128 * 256)] ∧ v = { s.accepted h with hw := v.hw, wd := v.wd })) ∧
    (∀ h c, Opens opFilterStart h s → h.len = 4 → locked (s.accepted h) = false → c ≤ 35 → s.filts.length = 36 →
      Answers (.filterStart h c) s opFilterStart h .ok fun v bs =>
        (v.filt c).stopped = false ∧ bs = filterReply v c ∧
        ((s.filt c).stopped = true → (v.filt c).change = true ∧
          (v.filt c).uns = Nat.max (s.filt c).uns (68 + (activeBank (s.filt c)).taps.length + bqSettle (s.accepted h) c)) ∧
        ((s.filt c).stopped = false → v = s.accepted h) ∧ others c v ∧
        v = { s.accepted h with filts := v.filts, insts := v.insts }) ∧
    (∀ h c set, Opens opBankWrite h s → setLen h set = true → locked (s.accepted h) = false → c ≤ 35 → setBad set = false →
      s.filts.length = 36 → (s.filt c).actB = false → (s.filt c).swap = none →
      Answers (.bankWrite h c set) s opBankWrite h .ok fun v bs =>
        (v.filt c).bankB = some (coefSet set) ∧ (v.filt c).bankA = (s.filt c).bankA ∧ (v.filt c).actB = false ∧
        bs = filterReply v c ∧ others c v ∧ v = { s.accepted h with filts := v.filts, insts := v.insts }) ∧
    (∀ h c prime fade, Opens opBankSwap h s → h.len = 8 → locked (s.accepted h) = false → c ≤ 35 → fade ≤ 4095 →
      ((s.filt c).actB = true ∨ (s.filt c).bankB.isSome = true) → (s.filt c).stopped = false → (s.filt c).load = none →
      (s.filt c).loading = none → s.filts.length = 36 →
      ((s.filt c).swap = none → Answers (.bankSwap h c prime fade) s opBankSwap h .ok fun v bs =>
        (v.filt c).swap = some ⟨!(s.filt c).actB, prime, fade, false, 0, bqSettle (s.accepted h) c⟩ ∧
        (v.filt c).actB = (s.filt c).actB ∧ bs = filterReply v c ∧ others c v ∧
        v = { s.accepted h with filts := v.filts, insts := v.insts }) ∧
      ((s.filt c).swap.isSome = true → Answers (.bankSwap h c prime fade) s opBankSwap h .pending fun v bs =>
        (v.filt c).held = some (prime, fade) ∧ (v.filt c).swap = (s.filt c).swap ∧ bs = filterReply v c ∧
        (v.filt c).displaced = (if (s.filt c).held.isSome then u32 ((s.filt c).displaced + 1) else (s.filt c).displaced) ∧
        others c v ∧ v = { s.accepted h with filts := v.filts, wd := v.wd })) ∧
    (∀ (c : Fin 36) w, s.filts.length = 36 → (s.filt c).swap = some w → w.fading = false → w.prime ≤ w.n →
      Gives (.bankSwapFadeStart c) s fun t =>
        (t.filt c).swap = some { w with fading := true, n := 0 } ∧ (t.filt c).change = true ∧
        (t.filt c).uns = Nat.max (s.filt c).uns (w.settle - w.prime) ∧ (t.filt c).actB = (s.filt c).actB ∧
        others c t ∧ t = { s with filts := t.filts }) ∧
    (∀ (c : Fin 36) w, s.filts.length = 36 → (s.filt c).swap = some w → w.fading = true → w.fade ≤ w.n →
      Gives (.bankSwapEnd c) s fun t =>
        (t.filt c).actB = w.toB ∧ (t.filt c).held = none ∧
        (t.filt c).swap = (s.filt c).held.map (fun e => ⟨!w.toB, e.1, e.2, false, 0, bqSettle s c⟩) ∧
        others c t ∧ t = { s with filts := t.filts, insts := t.insts })

/-! ### Result queue and recorder (chapter 07) -/

/-- QUEUE_STREAM, the writing of instants, QUEUE_READ and queue push. A stream that the rate allows starts at the present
instant, and starting again in the same mode changes nothing; stopping keeps what lies before the stop. The oldest due instant
of the streams is written whole, or dropped and counted with the overflow interrupt; the ring never holds more than its words.
QUEUE_READ repeats what was sent under an older sequence number, and otherwise frees it and sends whole entries that fit. A push
sends one packet of whole entries that the limits admit; they are freed once it has left. -/
def Obligations.ResultQueueStreamsAndIsRead : Prop :=
  ∀ s : State,
    (∀ h p, Opens opQueueStream h s → h.len = 4 → (s.accepted h).lk.hushed = false → p ≤ 1 →
      (p = 1 → ipOf (s.accepted h) (pid 11 0 13) ≠ 0) → s.qu.streaming = false → rateNow (s.accepted h) ≤ 4000000 →
      exec (.queueStreamStart h p false) s = .next (((s.accepted h).onQu fun q =>
        { q with streaming := true, push := p == 1, markP := none, markW := none,
                 wins := q.wins ++ [⟨(s.accepted h).now, none, par (s.accepted h) (pid 4 0 0), par (s.accepted h) (pid 4 0 1),
                   par (s.accepted h) (pid 4 0 2), true⟩] }).replied
          opQueueStream h .ok (zeros 2 ++ le 4 (rateNow (s.accepted h))))) ∧
    (∀ h p, Opens opQueueStream h s → h.len = 4 → (s.accepted h).lk.hushed = false → p ≤ 1 →
      (p = 1 → ipOf (s.accepted h) (pid 11 0 13) ≠ 0) → s.qu.streaming = true → s.qu.push = (p == 1) →
      exec (.queueStreamStart h p false) s =
        .next ((s.accepted h).replied opQueueStream h .ok (zeros 2 ++ le 4 (rateNow (s.accepted h))))) ∧
    (∀ h p, Opens opQueueStream h s → h.len = 4 → p ≤ 1 → Answers (.queueStreamStop h p) s opQueueStream h .ok fun v bs =>
      v.qu.streaming = false ∧ v.qu.entries = s.qu.entries ∧
      (s.qu.streaming = true → v.qu.push = false ∧
        v.qu.wins = s.qu.wins.map fun w => { w with stop := some (w.stop.getD s.now) }) ∧
      bs = zeros 2 ++ le 4 (rateNow (s.accepted h)) ∧ v = { s.accepted h with qu := v.qu }) ∧
    (∀ d r, s.qu.due = d :: r → Gives .queueEntryWrite s fun t =>
      (∃ l, t.qu.entries = s.qu.entries ++ l) ∧ t.qu.due = r ∧ t.qu.wins = s.qu.wins ∧
      (s.qu.level ≤ ringWords → t.qu.level ≤ ringWords) ∧
      (t.lk = s.lk ∨ t.lk.irq = setBit s.lk.irq 4 ∧ s.qu.dropped ≠ t.qu.dropped) ∧
      t = { s with qu := t.qu, lk := { s.lk with irq := t.lk.irq } }) ∧
    (∀ h ack n, Opens opQueueRead h s → h.len = 4 → (s.accepted h).lk.hushed = false → 4 ≤ n → n ≤ 1018 →
      s.qu.push = false →
      (s.qu.sentCount ≠ 0 → ack ≠ s.qu.readSeq →
        exec (.queueRead h ack n) s = .next ((s.accepted h).replied opQueueRead h .ok
          (le 2 s.qu.readSeq ++
            le 2 ((entryBytes ((s.qu.entries.drop s.qu.inFlight).take s.qu.sentCount)).length / 4) ++
            le 2 (headWords s.qu s.qu.sentCount) ++ entryBytes ((s.qu.entries.drop s.qu.inFlight).take s.qu.sentCount)))) ∧
      ((s.qu.sentCount = 0 ∨ ack = s.qu.readSeq) → Answers (.queueRead h ack n) s opQueueRead h .ok fun v bs =>
        let sent := (v.qu.entries.drop s.qu.inFlight).take v.qu.sentCount
        bs = le 2 v.qu.readSeq ++ le 2 ((entryBytes sent).length / 4) ++ le 2 (headWords v.qu v.qu.sentCount) ++
          entryBytes sent ∧
        v.qu.entries = s.qu.entries.take s.qu.inFlight ++ (s.qu.entries.drop s.qu.inFlight).drop s.qu.sentCount ∧
        v.qu.sentCount = fitEntries ((s.qu.entries.drop s.qu.inFlight).drop s.qu.sentCount) n ∧
        v.qu.readSeq = (if v.qu.sentCount = 0 then s.qu.readSeq else (s.qu.readSeq + 1) % 65536) ∧
        v = { s.accepted h with qu := v.qu })) ∧
    (let l := s.qu.entries.drop s.qu.inFlight
     let n := fitEntries l 350
     let f := udpFrame s 0 .bulk (ipOf s (pid 11 0 13), par s (pid 11 0 17)) 47310
       (packet 0x41 (Config.freeNat s.free % 256) 0x0403 s.nt.node (le 2 s.qu.pushSeq ++ zeros 2 ++ entryBytes (l.take n)))
     s.qu.push = true → s.lk.hushed = false → s.nt.up = true → s.wd.canopyRunning = true → s.nt.waiting = [] → n ≠ 0 →
      netReaches s (ipOf s (pid 11 0 13)) = true → admits s f = true → Gives .queuePush s fun t =>
        t.qu = { s.qu with flying := s.qu.flying ++ [n], sentCount := 0, pushSeq := (s.qu.pushSeq + 1) % 65536,
                           pushHeld := false } ∧
        t.nt.egress = ((s.charge f).enqueue f).nt.egress ∧ t = { s with qu := t.qu, nt := t.nt, free := s.free + 1 })

/-- RECORDER_CONTROL, triggers, completion and reading of captures. QUERY reports a unit; ARM takes the applied configuration
into a stopped unit with room for a capture; STOP abandons the capture in progress and keeps those held; TRIGGER, or the oldest
trigger on its way from the unit's source, starts the capture of an armed unit with its number, counts as a retrigger during
POST and as missed when FULL. A capture with all its instants becomes held and DONE, with its record and interrupt. CAPTURE_READ
returns bytes of a held capture and marks it as being read, RELEASE drops it, and ten seconds without reading end the reading;
either makes room for a FULL unit. Other units stay as they were. -/
def Obligations.CaptureUnitsRecordAndAreRead : Prop :=
  ∀ s : State,
    (∀ h u, Opens opRecorder h s → h.len = 4 → u ≤ 3 →
      exec (.recorderQuery h u false) s =
        .next ((s.accepted h).replied opRecorder h .ok (recorderReply (s.unit u)))) ∧
    (∀ h u, Opens opRecorder h s → h.len = 4 → u ≤ 3 → s.units.length = 4 → (s.unit u).st = 0 →
      par (s.accepted h) (cuBase u + 1) ≠ 0 → cuSlots (s.accepted h) u ≠ 0 →
      Answers (.recorderArm h u) s opRecorder h .ok fun v bs =>
        ((s.unit u).held = [] → (s.unit u).cur = none → (v.unit u).st = 1 ∧ (v.unit u).kept = []) ∧
        (v.unit u).slots = cuSlots (s.accepted h) u ∧ (v.unit u).cfg = par (s.accepted h) (cuBase u) ∧
        (v.unit u).mask = par (s.accepted h) (cuBase u + 1) ∧ (v.unit u).pre = par (s.accepted h) (cuBase u + 2) ∧
        (v.unit u).post = par (s.accepted h) (cuBase u + 3) ∧
        bs = recorderReply (v.unit u) ∧ (∀ j, j ≠ u → v.unit j = s.unit j) ∧ v = { s.accepted h with units := v.units }) ∧
    (∀ h u, Opens opRecorder h s → h.len = 4 → u ≤ 3 → s.units.length = 4 →
      Answers (.recorderStop h u) s opRecorder h .ok fun v bs =>
        v.unit u = { s.unit u with st := 0, kept := [], cur := none, due := [], trig := 0 } ∧ bs = recorderReply (v.unit u) ∧
        (∀ j, j ≠ u → v.unit j = s.unit j) ∧ v = { s.accepted h with units := v.units }) ∧
    (∀ h u, Opens opRecorder h s → h.len = 4 → u ≤ 3 →
      exec (.recorderTrigger h u) s = .next (((s.accepted h).capture u s.now 0 0).replied opRecorder h .ok
        (recorderReply (((s.accepted h).capture u s.now 0 0).unit u)))) ∧
    (∀ (u : Fin 4) t src eid r, s.units.length = 4 → (s.unit u).due = (t, src, eid) :: r → Gives (.captureTrigger u) s fun v =>
      (v.unit u).due = r ∧
      ((s.unit u).st = 1 → (v.unit u).st = 2 ∧ (v.unit u).nextNo = u32 ((s.unit u).nextNo + 1) ∧
        ∃ c, (v.unit u).cur = some c ∧ c.no = (s.unit u).nextNo ∧ c.t = t ∧ c.source = src ∧ c.eventId = eid ∧
          c.retriggers = 0 ∧
          c.data.length ≤ (s.unit u).pre + (s.unit u).post) ∧
      ((s.unit u).st = 2 → (v.unit u).cur = (s.unit u).cur.map fun k =>
        { k with retriggers := satN 65535 (k.retriggers + 1), eventId := if k.eventId == 0 then eid else k.eventId,
                 linked := if eid == 0 then k.linked else k.linked ++ [eid] }) ∧
      ((s.unit u).st = 3 → (v.unit u).missed = u32 ((s.unit u).missed + 1)) ∧
      ((s.unit u).st = 0 → v.unit u = { s.unit u with due := r }) ∧ (∀ j, j ≠ u.val → v.unit j = s.unit j) ∧
      v = { s with units := v.units }) ∧
    (∀ (u : Fin 4) k, s.units.length = 4 → (s.unit u).cur = some k → k.pre + k.post ≤ k.data.length →
      (s.unit u).trig = 0 → (s.unit u).held.length + 1 < (s.unit u).slots → Gives (.captureDone u) s fun t =>
        (t.unit u).cur = none ∧ (t.unit u).held = (s.unit u).held ++ [{ k with done := true }] ∧ (t.unit u).st = 1 ∧
        bitAt t.lk.irq 11 = true ∧ (∀ j, j ≠ u.val → t.unit j = s.unit j) ∧
        t.qu = (s.qX 50 0 (u * 2 ^ 24 + k.no % 2 ^ 24) k.t).qu ∧
        t = { s with units := t.units, qu := t.qu, lk := { s.lk with irq := t.lk.irq } }) ∧
    (∀ h u no off n c, Opens opCaptureRead h s → h.len = 16 → (s.accepted h).lk.hushed = false → u ≤ 3 →
      heldCapture s u no = some c → off < (captureBytes u c).length → 4 ≤ n → n ≤ 4064 →
      Answers (.captureRead h u no off n) s opCaptureRead h .ok fun v bs =>
        bs = zeros 2 ++ le 4 (captureBytes u c).length ++ ((captureBytes u c).drop off).take n ∧
        v = (s.accepted h).onUnit u fun x =>
          { x with held := x.held.map fun k => if k.no == no then { k with reading := some s.clk } else k }) ∧
    (∀ h u no, Opens opCaptureRelease h s → h.len = 8 → u ≤ 3 → s.units.length = 4 →
      (no = 0xFFFFFFFF ∨ (heldCapture s u no).isSome = true) →
      Answers (.captureRelease h u no) s opCaptureRelease h .ok fun v bs =>
        v.unit u = CapUnit.unfull { s.unit u with
          held := if no = 0xFFFFFFFF then [] else (s.unit u).held.filter (fun k => k.no != no) } ∧
        bs = zeros 2 ∧ (∀ j, j ≠ u → v.unit j = s.unit j) ∧ v = { s.accepted h with units := v.units }) ∧
    (∀ (u : Fin 4) no, s.units.length = 4 →
      (heldCapture s u no).any (fun k => k.reading.any (fun c => c + 10 * 128000000 ≤ s.clk)) = true →
      Gives (.captureReadTimeout u no) s fun t =>
        t.unit u = CapUnit.unfull { s.unit u with
          held := (s.unit u).held.map fun k => if k.no == no then { k with reading := none } else k } ∧
        (∀ j, j ≠ u.val → t.unit j = s.unit j) ∧ t = { s with units := t.units })

/-! ### Energy metrology and calibration pulses (chapters 06 and 08) -/

/-- A DSP frame leaves the registers alone and its samples in the channels; a block boundary closes the block. While the
modulators deliver, a frame that fits the grid, of forty converters each, puts each channel's new sample and flags into place
and the instant at the head of the 4 ms history, and changes no energy register, clock, parameter or host register; otherwise it
does nothing, and a frame that does not fit is no event of the machine (the model's choice). A pulse that has lasted its length
ends on that output alone. A block boundary that is due adds the closed block to the Pioneer totals, starts a new block whose
end is the boundary, advances BLOCK_SEQ, brings B1 or the handover of the books where they are due, and begins a routine
checkpoint in the copy that does not hold the last complete one unless a power-fail checkpoint runs; time, RTC, sequencers,
recorder, queue, network and phasors stay as they were. -/
def Obligations.FramesBlocksAndRegisters : Prop :=
  ∀ s : State,
    (∀ frames, framesFit s frames = true → delivers s = true → s.chans.length = 36 → Gives (.dspFrame frames) s fun t =>
      (∀ c < 36, (t.chan c).p = (chanOut (frames.foldl State.intake s) c).p ∧
        (t.chan c).flagsP = (chanOut (frames.foldl State.intake s) c).flags) ∧
      (∃ x, t.hist = (x :: s.hist).take 100 ∧ x.t = pInstant s ∧ x.p.length = 36) ∧
      t.me.regElemF = s.me.regElemF ∧ t.me.regCircF = s.me.regCircF ∧ t.me.regElemP = s.me.regElemP ∧
      t.me.regCircP = s.me.regCircP ∧ t.te.cnt = s.te.cnt ∧ t.te.stepP = false ∧ t.pr = s.pr ∧ t.pw.stage = s.pw.stage ∧
      t = { s with pw := t.pw, te := t.te, hw := t.hw, wd := t.wd, chans := t.chans, convs := t.convs, stands := t.stands,
                   filts := t.filts, insts := t.insts, hist := t.hist, wave := t.wave, qu := t.qu, units := t.units,
                   me := t.me, pq := t.pq, free := t.free }) ∧
    (∀ frames, framesFit s frames = true → delivers s = false → exec (.dspFrame frames) s = .next s) ∧
    (∀ frames, framesFit s frames = false → exec (.dspFrame frames) s = .fault .malformedCommand) ∧
    (∀ k : Fin 8, cfOver s k (s.me.cfs.getD k Cf.reset) = true →
      exec (.cfPulseEnd k) s = .next { s with me := { s.me with
        cfs := modAt s.me.cfs k fun c => { c with pulse := false } } }) ∧
    (delivers s = true → s.te.running = true → blockDue s = true → Gives .blockBoundary s fun t =>
      t.me.regElemP = addAll s.me.regElemP (closing s.reloadPass).ep true 2 ∧
      t.me.regCircP = addAll s.me.regCircP (closing s.reloadPass).cp true 2 ∧
      t.me.blockEnd = time80 (pInstant s) ∧ t.me.blockN = 0 ∧
      t.lk.blockSeq = u32 (s.lk.blockSeq + 1) ∧ t.te.cnt = s.te.cnt ∧ t.pw.stage = s.pw.stage ∧
      (s.me.kernels = true → s.me.fromB1 = false → t.me.fromB1 = true ∧ t.pw.shadow = .running ∧ t.pw.startGap = 0) ∧
      (s.me.fromB1 = true → s.wd.dspReloadWait = false → s.pw.acct = false → 3 ≤ s.pw.stage →
        s.wd.canopyRunning = true → t.pw.acct = true ∧ t.pw.handoverPending = false) ∧
      (s.hw.ckpt.any (fun c => c.kind == 1) = true → t.hw.ckpt = s.hw.ckpt) ∧
      (s.hw.ckpt.any (fun c => c.kind == 1) = false → ∃ c, t.hw.ckpt = some c ∧ c.kind = 0 ∧
        (∀ k n, s.hw.ledger = some (k, n) → c.base = ledgerBase (1 - k == 1) ∧ c.seq = (n + 1) % 2 ^ 32) ∧
        (s.hw.ledger = none → c.base = ledgerBase false ∧ c.seq = 1)) ∧
      t = { s with pw := t.pw, hw := t.hw, se := t.se, pr := t.pr, lk := t.lk, tp := t.tp, wd := t.wd, up := t.up, hm := t.hm,
                   ref := t.ref, chans := t.chans, convs := t.convs, stands := t.stands, filts := t.filts, insts := t.insts,
                   me := t.me, pq := t.pq, free := t.free })

/-- Demand sub-intervals, DEMAND_RESET, ENERGY_READ and the CF test mode. From B1 on, where the block just ended reached a whole
second of UTC that the sub-interval's length divides, once for that second, every circuit's sub-interval is closed while Canopy
runs, and kept for it while it is stopped, and no register changes; scheduled demand lengths are taken where the second fits
them, closing the sub-interval in progress as part of one if it does not divide. DEMAND_RESET below LOCK with a P1 write session
asks the named circuit, or all, for a reset and changes nothing else. ENERGY_READ answers the named registers and changes
nothing. CF_TEST with a P2 write session puts the named outputs into test mode; each leaves it after its duration, at most the
longest from when it entered; stopping ends it on every output; start and stop are logged. -/
def Obligations.DemandEnergyReadAndCfTest : Prop :=
  ∀ s : State,
    (let id := pid 2 0 4
     let new := ((s.pr.scheduled.lookup id).getD (par s id), (s.pr.scheduled.lookup (id + 1)).getD (par s (id + 1)))
     let waits := s.pr.scheduled.any fun e => e.1 == id || e.1 == id + 1
     let nextRuns := fun (v : State) (part change : Bool) =>
      if s.wd.canopyRunning then
        v.me.subOwed = s.me.subOwed ∧
          v.me.circRun = s.me.circRun.map fun r => r.closeSub s.me.demandCfg s.me.blockEnd part change
      else
        v.me.subOwed = s.me.subOwed ++
            [⟨s.me.demandCfg, s.me.blockEnd, part, change, s.me.circRun.map fun r => (r.subNow, r.demHist)⟩] ∧
          v.me.circRun = s.me.circRun.map fun r => { r with subNow := [0, 0, 0, 0], demHist := false }
     (∀ sec, s.me.fromB1 = true → blockSec s = some sec → s.me.subEnd ≠ some sec →
        ((waits && decide (sec % (subLen new : Int) = 0)) = false → sec % (subLen s.me.demandCfg : Int) = 0 →
          Gives .demandSubintervalEnd s fun t =>
            nextRuns t false false ∧
              t = { s with me := { s.me with subEnd := some sec, circRun := t.me.circRun, subOwed := t.me.subOwed } }) ∧
        ((waits && decide (sec % (subLen new : Int) = 0)) = true → Gives .demandSubintervalEnd s fun t =>
          nextRuns t (decide (sec % (subLen s.me.demandCfg : Int) ≠ 0)) true ∧
            t.pr.scheduled.lookup id = none ∧ t.pr.scheduled.lookup (id + 1) = none ∧
            t = { s with pr := t.pr, me := { s.me with
              subEnd := some sec, circRun := t.me.circRun, subOwed := t.me.subOwed, demandCfg := new } })) ∧
      ((s.me.fromB1 = false ∨ blockSec s = none ∨ s.me.subEnd = blockSec s) → exec .demandSubintervalEnd s = .next s)) ∧
    (∀ h c, Opens opDemandReset h s → h.len = 4 → locked (s.accepted h) = false →
      canWrite (s.accepted h) h.path 1 = true → (c ≤ 27 ∨ c = 0xFF) →
      exec (.demandReset h c) s = .next (((s.accepted h).onMe fun m => { m with
        circRun := m.circRun.mapIdx fun i r => if c = 0xFF ∨ i = c then { r with resetReq := true } else r }).replied
          opDemandReset h .ok (zeros 2))) ∧
    (∀ h source level first count mask, Opens opEnergyRead h s → h.len = 8 → source ≤ 1 → level ≤ 1 → 1 ≤ count →
      first + count ≤ 28 → 1 ≤ mask → mask ≤ (if source = 1 then 3 else 4095) →
      exec (.energyRead h source level first count mask) s = .next ((s.accepted h).replied opEnergyRead h .ok
        (zeros 2 ++ le 10 s.me.blockEnd ++ zeros 2 ++
          (((readRegs s source level).drop first).take count).flatMap (energyEntry mask)))) ∧
    (∀ h mask d, Opens opCfTest h s → h.len = 4 → locked (s.accepted h) = false →
      canWrite (s.accepted h) h.path 2 = true → 1 ≤ d → d ≤ par (s.accepted h) (pid 2 0 11) →
      cfMaskBad (s.accepted h) mask = false → Answers (.cfTestStart h mask d false) s opCfTest h .ok fun v bs =>
        let most := par (s.accepted h) (pid 2 0 11) * 128000000
        v.me.testActive = true ∧ bs = zeros 2 ∧
        v.me.cfs = s.me.cfs.mapIdx (fun k c => if bitAt mask k then c.testMode s.clk (d * 128000000) most else c) ∧
        v.me.testEnd = (if mask = 0 then Nat.max s.me.testEnd (s.clk + d * 128000000)
          else maxOf ((v.me.cfs.filter (·.test)).map (·.testEnd))) ∧
        (s.wd.buffer.length < 256 → ∃ e, e.code = 0x0207 ∧ v.wd.buffer = s.wd.buffer ++ [e]) ∧
        v = { s.accepted h with
              me := { s.me with testActive := true, testEnd := v.me.testEnd, cfs := v.me.cfs }, wd := v.wd }) ∧
    (∀ h, Opens opCfTest h s → h.len = 4 → locked (s.accepted h) = false → canWrite (s.accepted h) h.path 2 = true →
      (s.me.testActive = false → exec (.cfTestStop h) s = .next ((s.accepted h).replied opCfTest h .ok (zeros 2))) ∧
      (s.me.testActive = true → Answers (.cfTestStop h) s opCfTest h .ok fun v bs =>
        v.me.cfs = (s.me.cfs.mapIdx fun k c => cfLeaveTest (par s (pid 26 k 5)) c) ∧ bs = zeros 2 ∧
        (s.wd.buffer.length < 256 → ∃ e, e.code = 0x0207 ∧ v.wd.buffer = s.wd.buffer ++ [e]) ∧
        v = { s.accepted h with me := { s.me with testActive := false, cfs := v.me.cfs }, wd := v.wd })) ∧
    (s.me.testActive = true → (s.me.testEnd ≤ s.clk ∨ ∃ c ∈ s.me.cfs, c.test = true ∧ c.testEnd ≤ s.clk) →
      Gives .cfTestExpiry s fun t =>
        t.me.cfs = (s.me.cfs.mapIdx fun k c => if c.testEnd ≤ s.clk then cfLeaveTest (par s (pid 26 k 5)) c else c) ∧
        t.me.testActive = decide (s.clk < s.me.testEnd) ∧
        t = { s with me := { s.me with testActive := t.me.testActive, cfs := t.me.cfs }, wd := t.wd })

/-! ### Power quality (chapter 09) -/

/-- A dip opens and closes an event, its record is written in place, and an event left open over a power loss is closed. Where
the stream has reached the end of a bus's next one-cycle interval, and bus A has been brought up to that place, its half-cycle
values follow from the samples and the members in use there. With no event open on the bus, a value below the dip threshold
opens a dip at that instant with the next number, the phases below, and its record due; with one dip open, values that all reach
threshold plus hysteresis leave no dip open and queue its closing record with the duration. Either way the cycle joins the
places that FLAGGED comes from, and only power quality, queue, capture units and host status change. Writing the oldest due
record changes the 32 bytes of its place and nothing else of the store but the torn bitmap. A record still open from before a
power loss gets duration and POWER_LOSS in those five bytes alone. -/
def Obligations.DipsOpenCloseAndAreRecorded : Prop :=
  ∀ s : State,
    let only := fun t : State =>
      t = { s with lk := { s.lk with irq := t.lk.irq }, qu := t.qu, units := t.units, pq := t.pq, free := t.free }
    (∀ (b : Fin 2) (e : Rat), s.pq.running = true → s.pq.buses.length = 2 → nextHalf s b = some e → e ≤ (waveN s : Rat) →
      let s1 := s.busAFirst b e
      let x := s1.onPr fun q => { q with applied := (parsAt s1 (instantOf s1 e)).getD q.applied }
      nextHalf s1 b = some e → e ≤ (waveN s1 : Rat) →
      ((pqBus s1 b).open_ = [] → (∃ (p : Nat) (v : Rat), (urmsAt x b e)[p]? = some v ∧ v < pqPct x b 2 * dipRef x b p) →
        Gives (.urmsHalfCycle b) s fun t =>
          (∃ d ∈ (pqBus t b).open_, d.cls = 0 ∧ d.id = s1.pq.nextId ∧ d.start = instantOf x e ∧
            d.phases = phaseMask ((urmsAt x b e).mapIdx fun p v => decide (v < pqPct x b 2 * dipRef x b p)) ∧
            d ∈ t.pq.writes) ∧
          (pqBus t b).spans = ((pqBus s1 b).touch (e - 25000 / (pqBus s1 b).f1) e).spans ∧
          (pqBus t b).halfN = some e ∧ only t) ∧
      (∀ v : PqEvent, (pqBus s1 b).open_ = [v] → v.cls = 0 →
        (∀ (p : Nat) (u : Rat), (urmsAt x b e)[p]? = some u → (pqPct x b 2 + pqPct x b 5) * dipRef x b p ≤ u) →
        Gives (.urmsHalfCycle b) s fun t =>
          (∀ d ∈ (pqBus t b).open_, d.cls ≠ 0) ∧
          (∃ d ∈ t.pq.writes, d.id = v.id ∧ d.cls = 0 ∧ d.dur = spanMs x 0 v.start (instantOf x e) ∧
            d.eflags = v.eflags - 1) ∧
          (pqBus t b).spans = ((pqBus s1 b).touch (e - 25000 / (pqBus s1 b).f1) e).spans ∧
          (pqBus t b).halfN = some e ∧ only t)) ∧
    (∀ e r, s.pq.writes = e :: r → s.wd.canopyRunning = true → e.pos < 1024 → Gives .eventRecordWrite s fun t =>
        t.pq.writes.map (·.id) = r.map (·.id) ∧
        rdBytes t.hw.mem (eventAddr e.pos) 32 =
          eventBytes s { e with cu := (linkOf s e).1, capture := (linkOf s e).2 } ∧
        keepsBytes s t [(0, 256), (eventAddr e.pos, 32)] ∧ t = { s with hw := t.hw, pq := t.pq, free := t.free }) ∧
    (∀ k, s.wd.canopyRunning = true → staleOpen s = some k → Gives .openEventClose s fun t =>
        rdVal t.hw.mem (eventAddr k + 18) 4 = spanMs s 0 (ofTime80 (peekVal s (eventAddr k + 8) 10)) s.pq.lossT ∧
        (rdByte t.hw.mem (eventAddr k + 3)).toNat =
          setBit (clrBit (sensedByte s.hw (eventAddr k + 3)).toNat 0) 3 ∧
        keepsBytes s t [(0, 256), (eventAddr k + 18, 4), (eventAddr k + 3, 1)] ∧
        t = { s with hw := t.hw, wd := t.wd, free := t.free })

/-- A window, a 150/180-cycle interval, a 10 s frequency interval and a 3 s supraharmonic aggregate leave their results. A
window that the stream has filled, once earlier work of its bus and of bus A is done, gives each channel of its bus the rms of
its interpolated samples as the newest basic result, at the window's end, and moves the bus on to that place. A 150/180-cycle
interval that waits closes exactly the bus's level-1 sums at its end, under the members it began with; a sum that closes alone
is the result. A 10 s interval latches the frequency of its whole cycles with the boundary as its end and feeds the 10-minute
mean. A 3 s boundary closes the supraharmonic sums at once where the 200 ms intervals reach it, and otherwise with the interval
that does. None of them changes store, clock, parameters or registers. -/
def Obligations.WindowsAndAggregates : Prop :=
  ∀ s : State,
    let only := fun t : State =>
      t = { s with lk := { s.lk with irq := t.lk.irq }, wd := t.wd, qu := t.qu, units := t.units, pq := t.pq, free := t.free }
    (∀ (b : Fin 2) (w : PqWin) (x : Bool), s.pq.running = true → s.pq.buses.length = 2 → winDue s b = some (w, x) →
      let s0 := s.aggResume.cyclesEnd b
      let s1 := s0.busAFirst b (winEnd w (binsN (winState s0 w)))
      let e := winEnd w (binsN (winState s1 w))
      let s2 := if x then s1 else s1.closeEdge b
      Gives (.pqWindowEnd b) s fun t =>
        (∀ c < 36, chanBus (winState s2 w) c = b →
          ∃ r, pqResult t 0 0 c = some r ∧ r.endT = instantOf s1 e ∧ r.vals = [f32Sqrt (chanWin (winState s2 w) w c).ms]) ∧
        (pqBus t b).lastStart = w.start ∧ (pqBus t b).lastEnd = e ∧ only t) ∧
    (∀ (b : Fin 2) (endT st : Nat), s.pq.agg = true → s.pq.buses.length = 2 → (pqBus s b).aggDue = some (endT, st) →
      let s1 := s.busAFirst b (placeOf s endT)
      let y := s1.onPr fun q => { q with applied := ((pqBus s1 b).aggPars).getD q.applied }
      (pqBus s1 b).aggDue = some (endT, st) → Gives (.pqAggregateEnd b) s fun t =>
        t.pq.accs = s1.pq.accs.filter (fun a => !(a.level == 1 && accOfBus y b a)) ∧ (pqBus t b).aggDue = none ∧
        (∀ a, s1.pq.accs.filter (fun v => v.level == 1 && accOfBus y b v) = [a] → a.kind = 0 →
          pqResult t 0 1 a.chan = some (accResult y [a] endT st a)) ∧ only t) ∧
    (∀ (b : Fin 2) (f : Rat), s.pq.running = true → s.pq.buses.length = 2 → s.wave ≠ [] →
      (pqBus s b).idx10 < utcIdx s (waveT s + pTick) 10 →
      hzBetween (pqBus s b).crosses (pqBus s b).start10 (placeOf s (boundary s (utcIdx s (waveT s + pTick) 10) 10)) = some f →
      Gives (.frequencyIntervalEnd b) s fun t =>
        (pqBus t b).freq = f32OfRat f ∧ (pqBus t b).freqEnd = some (boundary s (utcIdx s (waveT s + pTick) 10) 10) ∧
        (pqBus t b).idx10 = utcIdx s (waveT s + pTick) 10 ∧
        (s.pq.agg = true → (pqBus s b).edge = none →
          (pqBus t b).freqSum = (pqBus s b).freqSum + f ∧ (pqBus t b).freqN = (pqBus s b).freqN + 1) ∧
        (∀ v, (pqBus s b).edge = some v → boundary s (utcIdx s (waveT s + pTick) 10) 10 ≤ v.endT →
          (pqBus t b).edge.map (fun z => (z.endT, z.freqSum, z.freqN)) = some (v.endT, v.freqSum + f, v.freqN + 1)) ∧
        (∀ c, c ≠ b.val → pqBus t c = pqBus s c) ∧ t = { s with pq := t.pq, free := t.free } ∧
        t.pq.results = s.pq.results ∧ t.pq.accs = s.pq.accs) ∧
    (s.pq.running = true → s.pq.idx3s < utcIdx s s.now 3 → s.pq.agg = true → Gives .supra3sEnd s fun t =>
        t.pq.idx3s = utcIdx s s.now 3 ∧ t = { s with pq := t.pq } ∧
        (boundary s (utcIdx s s.now 3) 3 ≤ s.pq.blockT → (∀ a ∈ t.pq.accs, ¬(a.kind = 3 ∧ a.level = 1)) ∧
          ∀ a, s.pq.accs.filter (fun x => x.level == 1 && x.kind == 3) = [a] →
            pqResult t 3 1 a.chan = some (accResult s [a] (boundary s (utcIdx s s.now 3) 3) (unlockedBit s) a)) ∧
        (s.pq.blockT < boundary s (utcIdx s s.now 3) 3 → t.pq.accs = s.pq.accs ∧
          t.pq.supraDue = s.pq.supraDue ++ [(1, boundary s (utcIdx s s.now 3) 3, unlockedBit s, false)])) ∧
    (utcIdx s s.now 3 ≤ s.pq.idx3s → exec .supra3sEnd s = .next s)

/-- 10-minute and 2-hour boundaries end their intervals, and an archive record goes to its place. A 10-minute boundary of UTC
takes scheduled members into use and, with aggregation running, starts each bus's event count and frequency mean anew; where a
window straddles it, the interval waits for that window with the boundary as its end and a new window begins there, and where
none does and the supraharmonics reach it, its level-2 sums close at once. Pst values are the stream's and stay. At a 2-hour
boundary the supraharmonic 2-hour sums close and the status starts anew. Without aggregation members come into use and no sum
closes; before its instant neither does anything. Writing the oldest archive record changes the 128 bytes of its place and the
torn bitmap alone, and moves on by one of 1,024. Registers, clocks and the rest stay. -/
def Obligations.ClockAlignedIntervalsAndArchive : Prop :=
  ∀ s : State,
    let p := s.takeScheduled fun id => effOf id == .tenMin
    let edgeT := boundary p (utcIdx p p.now 600) 600
    let only := fun t : State => t = { s with pr := p.pr, pq := t.pq, free := t.free }
    (s.pq.agg = true → s.pq.buses.length = 2 → s.pq.idx10m < utcIdx s s.now 600 → Gives .tenMinuteBoundary s fun t =>
        (∀ k < 2, (pqBus t k).events = 0 ∧ (pqBus t k).freqN = 0 ∧ (pqBus t k).freqSum = 0 ∧
          (pqBus t k).pst = (pqBus s k).pst ∧ (pqBus t k).pstHist = (pqBus s k).pstHist ∧
          (∀ w, (pqBus s k).win = some w → w.start < placeOf p edgeT →
            (pqBus t k).edge.map (·.endT) = some edgeT ∧
            (∃ a, (pqBus t k).old = some { w with pars := a }) ∧
            (pqBus t k).win = some ⟨placeOf p edgeT, (pqBus s k).f1, 0, none⟩) ∧
          ((∀ w, (pqBus s k).win = some w → placeOf p edgeT ≤ w.start) → (pqBus s k).old = none →
            edgeT ≤ s.pq.blockT ∨ s.pq.running = false →
            (pqBus t k).edge = none ∧ ∀ a ∈ t.pq.accs, ¬(a.level = 2 ∧ a.kind = 4 ∧ a.chan = k))) ∧
        t.pq.idx10m = utcIdx s s.now 600 ∧ t.pq.mark10m = 0 ∧ t.pq.tenClk = s.clk ∧ only t) ∧
    (s.pq.agg = false → s.pq.idx10m < utcIdx s s.now 600 → Gives .tenMinuteBoundary s fun t =>
        t.pq.idx10m = utcIdx s s.now 600 ∧ (∀ k < 2, (pqBus t k).pst = (pqBus s k).pst) ∧ t.pq.accs = s.pq.accs ∧ only t) ∧
    (utcIdx s s.now 600 ≤ s.pq.idx10m → exec .tenMinuteBoundary s = .next s) ∧
    (s.pq.agg = true → s.pq.idx2h < utcIdx s s.now 7200 → Gives .twoHourBoundary s fun t =>
      t.pq.idx2h = utcIdx s s.now 7200 ∧ t.pq.mark2h = 0 ∧
      (boundary s (utcIdx s s.now 7200) 7200 ≤ s.pq.blockT → ∀ a ∈ t.pq.accs, ¬(a.kind = 3 ∧ a.level = 3)) ∧
      t = { s with pr := t.pr, pq := t.pq, free := t.free } ∧ (t.pr = s.pr ∨ t.pr = p.pr)) ∧
    (s.pq.agg = false → s.pq.idx2h < utcIdx s s.now 7200 → Gives .twoHourBoundary s fun t =>
      t.pq.idx2h = utcIdx s s.now 7200 ∧ t.pq.accs = s.pq.accs ∧
      t = { s with pr := t.pr, pq := t.pq, free := t.free } ∧ (t.pr = s.pr ∨ t.pr = p.pr)) ∧
    (utcIdx s s.now 7200 ≤ s.pq.idx2h → exec .twoHourBoundary s = .next s) ∧
    (∀ r l, s.pq.archive = r :: l → s.wd.canopyRunning = true → r.length = 128 → s.pq.archivePos < 1024 →
      ((archKey r).1 = 1 → ∀ e, (pqBus s 0).edge = some e → time80 e.endT ≠ (archKey r).2) → Gives .archiveWrite s fun t =>
        rdBytes t.hw.mem (archiveAddr s.pq.archivePos) 128 = r ∧ t.pq.archive = l ∧
        t.pq.archivePos = (s.pq.archivePos + 1) % 1024 ∧
        keepsBytes s t [(0, 256), (archiveAddr s.pq.archivePos, 128)] ∧ t = { s with hw := t.hw, pq := t.pq })

/-- PQ_READ, PQ_EVENT_READ and PQ_ARCHIVE_READ answer the results and records. PQ_READ for values of a KIND that all exist
answers status, end and values, frequency, Pst and Plt of a bus whatever LEVEL is; PQ_EVENT_READ and PQ_ARCHIVE_READ with a P4
read session answer the records of the rings that they ask for, in order, as the store reads them. PQ_READ changes nothing but
what any answered request changes; the other two record besides the bad words that reading their ring meets (R359). -/
def Obligations.PowerQualityIsRead : Prop :=
  ∀ (s : State) (h : Hdr),
    (∀ kind level chan first count, Opens opPqRead h s → h.len = 8 → s.lk.hushed = false → kind ≤ 4 → level ≤ 3 →
      chan ≤ (if kind = 4 then 1 else 35) → 1 ≤ count → first + count ≤ kindCount kind →
      (kind = 3 → par (s.accepted h) (pid 16 chan 6) = 1) →
      (pqValues (s.accepted h) kind level chan first count).length = count →
      exec (.pqRead h kind level chan first count) s =
        let v := pqValues (s.accepted h) kind level chan first count
        .next ((s.accepted h).replied opPqRead h .ok
          (zeros 2 ++ le 4 (v.foldl (fun a e => orStatus a e.2.1) 0) ++
            le 10 (time80 (readEnd (s.accepted h) kind level chan v)) ++ zeros 2 ++ v.flatMap (fun e => le 4 e.1)))) ∧
    (∀ level r, pqResult s 0 level 0 = some r → r.vals ≠ [] → (pqValues s 0 level 0 0 1).length = 1) ∧
    (∀ b level t, (pqBus s b).freqEnd = some t → pqValues s 4 level b 0 1 = [((pqBus s b).freq, (pqBus s b).freqStatus, t)]) ∧
    (∀ fromId count, Opens opPqEventRead h s → h.len = 8 → canRead (s.accepted h) h.path 4 = true → 1 ≤ count → count ≤ 32 →
      exec (.pqEventRead h fromId count) s = .next (((s.accepted h).sense (eventAddr 0) 32768).replied opPqEventRead h .ok
        (le 1 ((eventsFrom (s.accepted h) fromId).take count).length ++ zeros 1 ++ le 4 s.pq.nextId ++
          ((eventsFrom (s.accepted h) fromId).take count).flatMap (·.2)))) ∧
    (∀ bus count fromT, Opens opPqArchiveRead h s → h.len = 16 → canRead (s.accepted h) h.path 4 = true →
      s.lk.hushed = false → (bus ≤ 1 ∨ bus = 0xFF) → 1 ≤ count → count ≤ 31 → time80Ok fromT = true →
      exec (.pqArchiveRead h bus count fromT) s = .next (((s.accepted h).sense (archiveAddr 0) 131072).replied opPqArchiveRead h .ok
        (le 1 ((archiveFrom (s.accepted h) bus fromT).take count).length ++ zeros 5 ++
          ((archiveFrom (s.accepted h) bus fromT).take count).flatten)))

/-! ### Synchrophasors (chapter 10) -/

/-- A phasor report is latched and sent or skipped, a dropped frame is counted, and a change takes effect. The report of the
next reporting instant, formed from the stream once it holds all that the report rests on and under the members in use at that
instant, is latched: its frequencies, ROCOF, STAT, instant and phasors. With output on its frame then waits to go out; hushed,
with Canopy down, history incomplete, link down or no way to the destination it is counted as skipped instead, and with output
off neither happens; instants lost before it are counted too. A phasor frame that has waited 1/Fs is dropped and counted. A
committed change takes effect at its reporting instant, while output is on the first one 60 s after its own commit, and not
before: its values come into use, CFGCNT counts it and the device record keeps that. -/
def Obligations.ReportsAreLatchedAndSent : Prop :=
  ∀ s : State,
    let s1 := s.pmuDue
    (∀ (x : Wave) (u : Nat), s.pm.running = true → reportDue s1 = some (x, u) →
      let v := viewOf s1 (pmuPhase s1 u)
      let y := s1.onPr fun p => { p with applied := v.pr.applied }
      let rep := reportOf v x u
      let gone := (s1.pm.gapFrom.map fun g => gridCount (pmuRate y) g (u - 1 + 1)).getD 0
      Gives .phasorReport s fun t =>
        rep.t = u ∧ t.pm.reportTime = time80 u ∧ t.pm.phasors = (allPh y rep).map polar ∧ t.pm.lastReported = some u ∧
        t.pm.statA = statWord y rep 0 ∧ t.pm.statB = statWord y rep 1 ∧ (t.pm.freqA, t.pm.rocofA) = busFreq y rep 0 ∧
        (t.pm.freqB, t.pm.rocofB) = busFreq y rep 1 ∧
        (s1.pm.on = false → t.pm.skipped = u32 (s1.pm.skipped + gone) ∧ t.nt = s.nt) ∧
        (s1.pm.on = true →
          (s.lk.hushed = true ∨ s.wd.canopyRunning = false ∨ rep.incomplete = true ∨ s.nt.up = false ∨
            netReaches y (pmuDst y).1 = false) →
          t.pm.skipped = u32 (u32 (s1.pm.skipped + gone) + 1) ∧ t.nt = s.nt) ∧
        (s1.pm.on = true → s.lk.hushed = false → s.wd.canopyRunning = true → rep.incomplete = false → s.nt.up = true →
          netReaches y (pmuDst y).1 = true →
          t.nt = { s.nt with waiting := s.nt.waiting ++
            [udpFrame y 6 .phasor (pmuDst y) (selNow y 15) (dataFrame y rep)] } ∧
          t.pm.waitEnd = s1.pm.waitEnd ++ [frameEnd y u] ∧ t.pm.skipped = u32 (s1.pm.skipped + gone)) ∧
        t = { s1 with lk := { s.lk with irq := t.lk.irq }, nt := t.nt, qu := t.qu, pm := t.pm, free := t.free }) ∧
    (s.pm.running = true → reportDue s1 = none → exec .phasorReport s = .next s1) ∧
    (s.pm.running = false → exec .phasorReport s = .next s) ∧
    (∀ k, s.nt.waiting.findIdx? (fun f => f.kind == .phasor) = some k → s.pm.waitEnd.headD 0 ≤ s.clk →
      exec .phasorFrameDrop s = .next { s with nt := { s.nt with waiting := s.nt.waiting.eraseIdx k },
                                               pm := { s.pm with skipped := u32 (s.pm.skipped + 1),
                                                                  waitEnd := s.pm.waitEnd.drop 1 } }) ∧
    (∀ c l a, s.pm.changes = [(c, l)] → pmuEffect s c = some a → a ≤ s.now → Gives .pmuConfigTakeEffect s fun t =>
        t.pm.changes = [] ∧ t.pm.cfgCnt = (s.pm.cfgCnt + 1) % 65536 ∧ t.pm.on = s.pm.on ∧
        t.pr = { s.pr with applied := assocAll s.pr.applied l } ∧
        keepsBytes s t [(0, 256), (pageAddr 0 deviceRec.2, 512)] ∧
        t = { s with hw := t.hw, pr := t.pr, wd := t.wd, pm := t.pm }) ∧
    (∀ c l r, s.pm.changes = (c, l) :: r → (∀ a, pmuEffect s c = some a → s.now < a) →
      exec .pmuConfigTakeEffect s = .next s) ∧
    (∀ c, s.pm.on = true → s.clk < c + 60 * 128000000 → pmuEffect s c = none)

/-- Command frames and PMU_CONTROL start and stop output and send CFG-2; PMU_READ answers the latched report. An accepted
command frame is counted: data off ends output, counting the instants already lost as skipped; data on starts it at stage 4,
makes it wait below, and takes the waiting changes into use, unless the chip is hushed or has no destination, when it is counted
as ignored; send CFG-2 sends the frame to the command's source; another command is ignored and counted; a frame not accepted
does nothing. PMU_CONTROL start answers OK at stage 4 and PENDING below; stop ends output and a waiting start; send CFG-2 sends
it to the destination. PMU_READ answers the latched report. Of the store only device record and torn bitmap may change. -/
def Obligations.SynchrophasorCommandsAndRequests : Prop :=
  ∀ s : State,
    let starts := fun (a t : State) =>
      (a.pm.on = true → t.pm = a.pm ∧ t.pr = a.pr) ∧ (a.pm.on = false → t.pm.changes = []) ∧
      (4 ≤ s.pw.stage → t.pm.on = true) ∧
      (s.pw.stage < 4 → a.pm.on = false → t.pm.waiting = true ∧ t.pm.on = false) ∧
      t.pm.cmdReceived = a.pm.cmdReceived ∧ t.pm.cmdIgnored = a.pm.cmdIgnored ∧
      keepsBytes s t [(0, 256), (pageAddr 0 deviceRec.2, 512)] ∧ t = { a with hw := t.hw, pr := t.pr, wd := t.wd, pm := t.pm }
    let stopped := fun a : State =>
      { a.pm with on := false, waiting := false, gapFrom := none,
                  skipped := u32 (a.pm.skipped + (a.pm.gapFrom.map fun g => gridCount (pmuRate a) g (a.now + 1)).getD 0) }
    let seen := { s with pm := { s.pm with cmdReceived := u32 (s.pm.cmdReceived + 1) } }
    let ignored := { s with pm := { s.pm with cmdReceived := u32 (s.pm.cmdReceived + 1),
                                              cmdIgnored := u32 (s.pm.cmdIgnored + 1) } }
    (∀ c : PmuCmdIn, cmdAccepted s c = true → cmdWord c = 1 → exec (.pmuCmdDataOff c) s =
      .next { s with pm := { stopped s with cmdReceived := u32 (s.pm.cmdReceived + 1) } }) ∧
    (∀ c : PmuCmdIn, cmdAccepted s c = true → cmdWord c = 2 →
      (s.lk.hushed = true ∨ (pmuDst s).1 = 0 → exec (.pmuCmdDataOn c) s = .next ignored) ∧
      (s.lk.hushed = false → (pmuDst s).1 ≠ 0 → Gives (.pmuCmdDataOn c) s (starts seen))) ∧
    (∀ c : PmuCmdIn, cmdAccepted s c = true → cmdWord c = 5 → exec (.pmuCmdSendCfg2 c) s =
      .next (seen.sendCfg2 (c.addr, c.port))) ∧
    (∀ c : PmuCmdIn, cmdAccepted s c = true → cmdWord c ≠ 1 → cmdWord c ≠ 2 → cmdWord c ≠ 5 →
      exec (.pmuCmdIgnored c) s = .next ignored) ∧
    (∀ c : PmuCmdIn, cmdAccepted s c = false → exec (.pmuCmdDataOff c) s = .next s ∧ exec (.pmuCmdDataOn c) s = .next s ∧
      exec (.pmuCmdSendCfg2 c) s = .next s ∧ exec (.pmuCmdIgnored c) s = .next s) ∧
    (∀ h first count, Opens opPmuRead h s → h.len = 4 → 1 ≤ count → first + count ≤ 126 →
      exec (.pmuRead h first count) s = .next ((s.accepted h).replied opPmuRead h .ok
        (le 2 s.pm.statA ++ le 2 s.pm.statB ++ zeros 2 ++ le 10 s.pm.reportTime ++ zeros 2 ++ le 4 s.pm.freqA ++
          le 4 s.pm.rocofA ++ le 4 s.pm.freqB ++ le 4 s.pm.rocofB ++
          ((s.pm.phasors.drop first).take count).flatMap fun p => le 4 p.1 ++ le 4 p.2))) ∧
    (∀ h, Opens opPmuControl h s → h.len = 4 → s.lk.hushed = false → (pmuDst (s.accepted h)).1 ≠ 0 →
      Answers (.pmuStart h false) s opPmuControl h (if s.pm.on ∨ 4 ≤ s.pw.stage then .ok else .pending) fun v bs =>
        bs = zeros 2 ∧ starts (s.accepted h) v) ∧
    (∀ h, Opens opPmuControl h s → h.len = 4 → exec (.pmuStop h) s = .next
      (({ s.accepted h with pm := stopped (s.accepted h) } : State).replied opPmuControl h .ok (zeros 2))) ∧
    (∀ h, Opens opPmuControl h s → h.len = 4 → (pmuDst (s.accepted h)).1 ≠ 0 → exec (.pmuSendCfg2 h) s = .next
      (((s.accepted h).sendCfg2 (pmuDst (s.accepted h))).replied opPmuControl h .ok (zeros 2)))

/-! ### Network (chapter 12) -/

/-- Links, egress, admission, host frames and the reply to a broadcast IDENTIFY. A port that is on and down comes up at its
forced or negotiated amplitude; a link that goes down is counted and forgets its peer delay, and with both down no network
session stays. The port's next frame leaves its queue, with its correction, and is counted where the link is up, freeing a push
packet's entries; on a port without link it is lost, and a push packet lost on every port keeps its entries. A waiting frame
that both limits allow joins the egress queues and is charged to the bucket; one that the reserve holds back is counted once.
NET_TX hands its frame over; NET_RX_READ takes the oldest held frame, or says that none is held; the reply to the oldest
broadcast IDENTIFY leaves at priority 7 once its delay of 0.25 ms for each unit of NODE has passed. -/
def Obligations.LinksFramesAndHostFrames : Prop :=
  ∀ s : State,
    let others := fun (k : Fin 2) (t : State) => ∀ j, j ≠ k.val → t.port j = s.port j
    (∀ (k : Fin 2) (high : Bool) (sqi : Fin 8), portOn s k = true → (s.port k).link = 0 → s.nt.ports.length = 2 →
      Gives (.linkUp k high sqi) s fun t =>
        t.port k = { s.port k with sqi := sqi, link :=
          (if par s (pid 29 k 0) = 1 then 1 else if par s (pid 29 k 0) = 2 then 2 else if high then 1 else 2) } ∧
        others k t ∧ bitAt t.lk.irq 5 = true ∧
        t = { s with nt := { s.nt with ports := t.nt.ports }, lk := { s.lk with irq := t.lk.irq }, wd := t.wd }) ∧
    (∀ k : Fin 2, portUp s k = true → s.nt.ports.length = 2 → Gives (.linkDown k) s fun t =>
        (t.port k).link = 0 ∧ (t.port k).peerDelay = none ∧ (t.port k).linkDowns = u32 ((s.port k).linkDowns + 1) ∧
        others k t ∧ bitAt t.lk.irq 5 = true ∧
        ((s.port (1 - k)).link = 0 → ∀ x ∈ t.se.open_, netSession x = false) ∧
        ((s.port (1 - k)).link ≠ 0 → t.se = s.se ∧ t.hm = s.hm) ∧
        t = { s with nt := { s.nt with ports := t.nt.ports }, lk := { s.lk with irq := t.lk.irq }, wd := t.wd,
                     se := { s.se with open_ := t.se.open_ }, hm := { s.hm with forces := t.hm.forces } }) ∧
    (∀ (k : Fin 2) i f, nextFrame k 0 s.nt.egress none = some (i, f) → s.nt.ports.length = 2 →
      let rest := if clrBit f.ports k = 0 then s.nt.egress.eraseIdx i
        else modAt s.nt.egress i fun x => { x with ports := clrBit f.ports k, left := x.left || portUp s k }
      (portUp s k = true → Gives (.frameTransmit k) s fun t =>
        (t.port k).txFrames = u32 ((s.port k).txFrames + 1) ∧
        (t.port k).last = some { f with bytes := corrected s k f } ∧ others k t ∧
        (∃ l, t.nt.egress = rest ++ l ∧ ((∀ a q c, f.ptp ≠ some (.response a q c)) → l = [] ∧ (f.tsId = none → t.te = s.te))) ∧
        (f.kind = .bulk → f.left = false →
          t.qu = { s.qu.freeEntries 0 (s.qu.flying.headD 0) with flying := s.qu.flying.drop 1 }) ∧
        (¬(f.kind = .bulk ∧ f.left = false) → t.qu = s.qu) ∧
        (f.kind = .phasor → f.left = false → t.pm = { s.pm with sent := u32 (s.pm.sent + 1) }) ∧
        (¬(f.kind = .phasor ∧ f.left = false) → t.pm = s.pm) ∧ t.te.cnt = s.te.cnt ∧
        t = { s with nt := { s.nt with egress := t.nt.egress, ports := t.nt.ports }, hw := { s.hw with flight := [] },
                     te := t.te, qu := t.qu, pm := t.pm }) ∧
      (portUp s k = false → Gives (.frameTransmit k) s fun t =>
        (f.kind ≠ .bulk → t.nt.egress = rest ∧ t.qu = s.qu) ∧
        (f.kind = .bulk → clrBit f.ports k = 0 → f.left = false →
          t.nt.egress = rest.filter (fun x => x.kind != .bulk) ∧ t.qu = { s.qu with flying := [] }) ∧
        t = { s with nt := { s.nt with egress := t.nt.egress }, qu := { s.qu with flying := t.qu.flying },
                     pm := { s.pm with skipped := t.pm.skipped } })) ∧
    (∀ k : Fin 2, nextFrame k 0 s.nt.egress none = none → exec (.frameTransmit k) s = .next s) ∧
    (∀ i f, waitingNext s = some (i, f) → admits s f = true → Gives .ownFrameAdmission s fun t =>
        t.nt.waiting = s.nt.waiting.eraseIdx i ∧ t.nt.tokens = tokensNow s - wireBytes s f * tokenByte ∧
        t.nt.tokenClk = s.clk ∧ (∃ q, t.nt.egress = s.nt.egress ++ [{ f with hsrSeq := q }]) ∧
        t = { s with pm := { s.pm with waitEnd := t.pm.waitEnd },
                     nt := { s.nt with waiting := t.nt.waiting, tokens := t.nt.tokens, tokenClk := t.nt.tokenClk,
                                       egress := t.nt.egress, hsrSeq := t.nt.hsrSeq } }) ∧
    (∀ i f, waitingNext s = some (i, f) → admits s f = false → (limiterOk s f.ports = true ∨ f.held = true) →
      exec .ownFrameAdmission s = .next s) ∧
    (∀ i f, waitingNext s = some (i, f) → limiterOk s f.ports = false → f.held = false →
      exec .ownFrameAdmission s = .next { s with nt := { s.nt with
        waiting := modAt s.nt.waiting i fun x => { x with held := true }, reserveHeld := u32 (s.nt.reserveHeld + 1) } }) ∧
    (waitingNext s = none → exec .ownFrameAdmission s = .next s) ∧
    (∀ h ports flags id frame, Opens opNetTx h s → h.len = 4 + frame.length → 14 ≤ frame.length → frame.length ≤ 1514 →
      (flags = 1 ∨ (flags = 0 ∧ s.lk.hushed = false)) → ports ≤ 3 →
      exec (.netTx h ports flags id frame) s = .next (((s.accepted h).sendFrame
        { rawFrame (if flags = 1 then 7 else 0) .host frame (hostPorts (s.accepted h) ports frame) with
          tsId := if flags = 1 then some id else none, stepMark := s.te.stepsAccepted }).replied opNetTx h .ok (zeros 2))) ∧
    (∀ h f r, Opens opNetRxRead h s → h.len = 0 → s.nt.rxQueue = f :: r →
      exec (.netRxRead h) s = .next (((s.accepted h).onNt fun n => { n with rxQueue := r }).replied opNetRxRead h .ok
        (le 1 f.port ++ zeros 1 ++ le 10 (time80 f.time) ++ zeros 2 ++ le 4 s.nt.rxLost ++ f.bytes))) ∧
    (∀ h, Opens opNetRxRead h s → h.len = 0 → s.nt.rxQueue = [] → exec (.netRxRead h) s =
      .next ((s.accepted h).replied opNetRxRead h .ok (zeros 14 ++ le 4 s.nt.rxLost))) ∧
    (∀ clk addr port tag r, s.nt.idents = (clk, addr, port, tag) :: r → s.after clk (32000 * s.nt.node) = true →
      s.nt.up = true → 2 ≤ s.pw.stage → Gives .identifyBroadcastReply s fun t =>
        t.nt.idents = r ∧ (∃ g, t.nt.egress = s.nt.egress ++ [g] ∧ g.prio = 7 ∧ g.dst = (addr, port) ∧
          g.bytes = packet 0x81 tag 0x0101 s.nt.node (le 2 0 ++ identifyBytes s)) ∧
        t = { s with nt := { s.nt with idents := r, egress := t.nt.egress, hsrSeq := t.nt.hsrSeq } })

/-- A frame in the ring is forwarded once, tables age, and supervision opens and closes the ring. On a port that is up each
frame is counted; a bad one also as an error. In HSR mode, where PTP messages alone travel untagged, a first copy of another
node's frame is entered into the discard table and, but for the device alone, forwarded on the other port as it came; a second
copy is discarded, counted and its entry cleared; one that finds no entry any more is counted as passed. In LINE mode the source
is learned and the frame goes on unless its destination is the device or lies behind its own port; in SINGLE mode nothing is
forwarded. The oldest entry of either table expires once its time has passed. Two seconds after the last a supervision frame
goes out on both ports; three intervals without its return open the ring, and its return on both closes it. -/
def Obligations.RingForwardsOnceAndSupervises : Prop :=
  ∀ s : State,
    let fwd := fun t : State => t.nt.egress.filter fun x => x.kind == .forwarded
    (∀ (k : Fin 2) (f : FrameIn), portUp s k = true → s.nt.ports.length = 2 →
      let e := ethOf (s.nt.mode == 0) (frameBody f)
      let counts := fun t : State => (t.port k).rxFrames = u32 ((s.port k).rxFrames + 1) ∧ (t.port k).sqi = f.sqi ∧
        ∀ j, j ≠ k.val → t.port j = s.port j
      let passes := fun t : State => ∃ g, fwd t = fwd s ++ [g] ∧ g.bytes = frameBody f ∧ g.ports = 2 - k.val ∧
        ∀ q, e.seq = some q → g.hsrSeq = q
      let only := fun t : State => t = { s with lk := t.lk, nt := t.nt, qu := t.qu, pm := t.pm }
      let error := .next (s.onPort k fun p =>
        { p with rxFrames := u32 (p.rxFrames + 1), sqi := f.sqi, rxErrors := u32 (p.rxErrors + 1) })
      (frameGood f = false → exec (.hsrFrameReceive k f) s = error) ∧
      (frameGood f = true → ptpOf e = none → s.nt.mode = 0 → e.seq = none → exec (.hsrFrameReceive k f) s = error) ∧
      (∀ q, frameGood f = true → s.nt.mode = 0 → e.seq = some q → e.src ≠ macAddr → Gives (.hsrFrameReceive k f) s fun t =>
        counts t ∧ only t ∧
        (s.nt.discard.any (fun x => x.1 == (e.src, q)) = true →
          t.nt.discard = s.nt.discard.filter (fun x => x.1 != (e.src, q)) ∧
          t.nt.dupDiscarded = u32 (s.nt.dupDiscarded + 1) ∧ t.nt.egress = s.nt.egress) ∧
        (s.nt.discard.any (fun x => x.1 == (e.src, q)) = false →
          t.nt.discard = (if 512 ≤ s.nt.discard.length then s.nt.discard.drop 1 else s.nt.discard) ++ [((e.src, q), s.clk)] ∧
          t.nt.dupPassed = (if s.nt.expired.contains (e.src, q) then u32 (s.nt.dupPassed + 1) else s.nt.dupPassed) ∧
          (e.dst = macAddr → fwd t = fwd s) ∧ (e.dst ≠ macAddr → passes t))) ∧
      (∀ q, frameGood f = true → s.nt.mode = 0 → e.seq = some q → e.src = macAddr → e.etype = 0x88FB →
        Gives (.hsrFrameReceive k f) s fun t =>
          counts t ∧ (t.port k).superBack = true ∧ (t.port k).superMiss = 0 ∧ t.nt.egress = s.nt.egress ∧
          t.nt.discard = s.nt.discard ∧
          (s.nt.ringOpen = true → (t.nt.ringOpen = false ↔ (s.port (1 - k)).superBack = true)) ∧
          t = { s with lk := { s.lk with irq := t.lk.irq }, nt := t.nt, wd := t.wd, free := t.free }) ∧
      (frameGood f = true → ptpOf e = none → s.nt.mode = 1 → Gives (.hsrFrameReceive k f) s fun t =>
        counts t ∧ only t ∧ t.nt.learn.getLast? = some (e.src, k.val, s.clk) ∧ t.nt.learn.length ≤ 256 ∧
        (e.dst = macAddr ∨ (s.nt.learn.lookup e.dst).any (fun x => x.1 == k.val) = true → fwd t = fwd s) ∧
        (e.dst ≠ macAddr → (s.nt.learn.lookup e.dst).any (fun x => x.1 == k.val) = false → passes t)) ∧
      (frameGood f = true → ptpOf e = none → s.nt.mode = 2 → Gives (.hsrFrameReceive k f) s fun t =>
        counts t ∧ only t ∧ fwd t = fwd s)) ∧
    (∀ e r, s.nt.discard = e :: r → s.after e.2 (par s (pid 11 0 21) * cycMs) = true →
      exec .discardEntryExpiry s = .next { s with nt := { s.nt with discard := r, expired := s.nt.expired ++ [e.1] } }) ∧
    (∀ e r, s.nt.discard = e :: r → s.after e.2 (par s (pid 11 0 21) * cycMs) = false →
      exec .discardEntryExpiry s = .next s) ∧
    (∀ e r, s.nt.learn = e :: r → s.after e.2.2 (300 * cycS) = true →
      exec .learningTableAgeing s = .next { s with nt := { s.nt with learn := r } }) ∧
    (∀ e r, s.nt.learn = e :: r → s.after e.2.2 (300 * cycS) = false → exec .learningTableAgeing s = .next s) ∧
    (s.nt.up = true → s.nt.mode = 0 → s.nt.superClk.any (fun c => !s.after c (2 * cycS)) = false →
      exec .supervisionSend s = .next { s with nt := { s.nt with
        superSent := true, superClk := some s.clk, hsrSeq := (s.nt.hsrSeq + 1) % 65536,
        egress := s.nt.egress ++ [{ rawFrame 7 .supervision (superFrame s.nt.hsrSeq) 3 with hsrSeq := s.nt.hsrSeq }],
        ports := s.nt.ports.map fun p =>
          { p with superMiss := if p.superBack || !s.nt.superSent then 0 else satN 3 (p.superMiss + 1), superBack := false } } }) ∧
    (s.nt.ringOpen = false → (3 ≤ (s.port 0).superMiss ∨ 3 ≤ (s.port 1).superMiss) → Gives .ringOpen s fun t =>
        t.nt = { s.nt with ringOpen := true } ∧ bitAt t.lk.irq 5 = true ∧
        t = { s with nt := t.nt, lk := { s.lk with irq := t.lk.irq }, wd := t.wd, free := t.free })

/-- Sync, Follow_Up, Announce and peer delay. A PTP frame on a port with link is counted, and Sync, Follow_Up and Announce go on
outside SINGLE mode at priority 7. Without a valid peer delay, or from another than the selected master, a Sync steers nothing;
a two-step one waits at its port for its Follow_Up, which ends the wait; a one-step Sync or the Follow_Up on PORT_A gives its
offset where the device takes offsets from PTP. An Announce of the domain is entered among the masters heard and the best
qualified one is selected; one from it sets, with TIME_SOURCE PTP, UTC_OFFSET where it is valid. A second after the last a
peer-delay request goes out with the next number and asks for a timestamp; a neighbour's request is answered; a response to the
latest request completes the four instants, or waits for its follow-up, and from the third in a row the mean link delay is
valid. -/
def Obligations.PtpMessagesSteerAndMeasure : Prop :=
  ∀ (s : State) (k : Fin 2) (f : FrameIn) (m : List Byte),
    let e := ethOf (s.nt.mode == 0) (frameBody f)
    let rx := f.rx - latency s k 3
    let counts := fun t : State => (t.port k).rxFrames = u32 ((s.port k).rxFrames + 1)
    let goesOn := fun t : State => (s.nt.mode = 2 → t.nt.egress = s.nt.egress) ∧
      (s.nt.mode ≠ 2 → ∃ g, t.nt.egress = s.nt.egress ++ [g] ∧ g.bytes = frameBody f ∧ g.prio = 7 ∧ g.ports = 2 - k.val)
    let still := fun t : State => t = { s with nt := t.nt, free := t.free }
    (portUp s k = true → s.nt.ports.length = 2 → frameGood f = true → ptpOf e = some m →
      (ptpType m = 0 → Gives (.ptpSync k f) s fun t =>
        counts t ∧ goesOn t ∧ (linkDelay s k = none ∨ fromMaster s m = false → still t) ∧
        (linkDelay s k ≠ none → fromMaster s m = true → ptpTwoStep m = true →
          (t.port k).syncWait = some ⟨ptpSource m, ptpSeq m, rx, ptpCorr m⟩ ∧ still t) ∧
        (linkDelay s k ≠ none → fromMaster s m = true → ptpTwoStep m = false → takesOffsets s 1 = true → k = 0 →
          t.te.lastOffsetClk = some s.clk ∧ t.te.gm = (s.nt.master.map (·.1)).getD 0) ∧
        (takesOffsets s 1 = false → still t)) ∧
      (∀ w, ptpType m = 8 → (s.port k).syncWait = some w → Gives (.ptpFollowUp k f) s fun t =>
        counts t ∧ goesOn t ∧
        (linkDelay s k ≠ none → w.source = ptpSource m → w.seq = ptpSeq m → fromMaster s m = true →
          (t.port k).syncWait = none ∧ (takesOffsets s 1 = true → k = 0 → t.te.lastOffsetClk = some s.clk)) ∧
        (¬(linkDelay s k ≠ none ∧ w.source = ptpSource m ∧ w.seq = ptpSeq m ∧ fromMaster s m = true) →
          (t.port k).syncWait = some w ∧ still t) ∧ (takesOffsets s 1 = false → still t)) ∧
      (ptpType m = 11 →
        let x : Foreign := ⟨k, ptpSource m, s.clk,
          (s.nt.foreign.find? fun y => y.port == k.val && y.source == ptpSource m).map (·.clk), announceGm m, announceRank k m⟩
        let l := s.nt.foreign.filter
          (fun y => !(y.port == k.val && y.source == ptpSource m) && !s.after y.clk (3 * cycS)) ++ [x]
        let best := bestMaster s l
        let heard := s.wd.canopyRunning = true ∧ ptpDomain m = par s (pid 7 0 15) ∧ ptpSource m / 65536 ≠ clockIdentity
        Gives (.ptpAnnounce k f) s fun t =>
        counts t ∧ goesOn t ∧ t.te.cnt = s.te.cnt ∧
        (heard → t.nt.foreign = l ∧ t.nt.master = best.map (fun y => (y.gm, y.source)) ∧
          (∀ y, best = some y → par s (pid 7 0 0) = 1 → t.te.gm = y.gm ∧
            (y.source = ptpSource m → bitAt (beAt m 7 1) 2 = true → utcOffset t = toSigned 16 (beAt m 44 2)))) ∧
        (¬heard → t.nt.master = s.nt.master ∧ still t) ∧
        t = { s with te := { s.te with gm := t.te.gm }, rtc := t.rtc, hw := t.hw, pr := t.pr, wd := t.wd, nt := t.nt }) ∧
      (ptpType m = 2 → s.wd.canopyRunning = true → Gives (.hsrFrameReceive k f) s fun t =>
        counts t ∧ still t ∧ ∃ g, t.nt.egress = s.nt.egress ++ [g] ∧ g.prio = 7 ∧ g.ports = 2 ^ k.val ∧
          g.tsId = some (responseId (ptpSeq m)) ∧ g.ptp = some (.response (ptpSource m) (ptpSeq m) (ptpCorr m)))) ∧
    (portUp s k = true → s.nt.ports.length = 2 → s.wd.canopyRunning = true →
      (s.port k).askClk.any (fun c => !s.after c cycS) = false → Gives (.peerDelayRequest k) s fun t =>
        (t.port k).peerAsk = true ∧ (t.port k).askClk = some s.clk ∧ (t.port k).peerSeq = ((s.port k).peerSeq + 1) % 65536 ∧
        (t.port k).peerDelay = (s.port k).peerDelay ∧
        (∃ g, t.nt.egress = s.nt.egress ++ [g] ∧ g.prio = 7 ∧ g.ports = 2 ^ k.val ∧
          g.tsId = some (requestId (s.port k).peerSeq)) ∧
        t = { s with nt := t.nt, te := { s.te with txInt := t.te.txInt, txOvInt := t.te.txOvInt } }) ∧
    (portUp s k = true → s.nt.ports.length = 2 → frameGood f = true → ptpOf e = some m → s.wd.canopyRunning = true →
      (s.port k).peerAsk = true → ptpAsked m = portIdentity k → ptpSeq m = ((s.port k).peerSeq + 65535) % 65536 →
      let done := fun (t1 t2 t3 t4 : Nat) (corr : Int) (t : State) =>
        (t.port k).peerAsk = false ∧ (t.port k).peerRun = satN 3 ((s.port k).peerRun + 1) ∧
        (t.port k).peerDelay = (if 2 ≤ (s.port k).peerRun then
          some (quant s 0 (((((t4 : Int) - t1) - ((t3 : Int) - t2) - corr : Int) : Rat) / 2)).toNat else (s.port k).peerDelay)
      let only := fun t : State =>
        t = { s with nt := t.nt, te := { s.te with txInt := t.te.txInt, txOvInt := t.te.txOvInt }, free := t.free }
      let stamp := s.te.txInt.find? fun x => x.port == k.val && x.id == requestId ((s.port k).peerSeq + 65535)
      (ptpType m = 3 → ptpTwoStep m = true → Gives (.peerDelayResponse k f) s fun t =>
        (t.port k).resp = some ⟨ptpSeq m, ptpStamp m, rx, ptpCorr m⟩ ∧ (t.port k).peerAsk = true ∧ counts t ∧ still t) ∧
      (∀ x, ptpType m = 3 → ptpTwoStep m = false → stamp = some x → Gives (.peerDelayResponse k f) s fun t =>
        done (ofTime80 x.time) 0 0 rx (ptpCorr m) t ∧ counts t ∧ only t) ∧
      (∀ x w, ptpType m = 10 → (s.port k).resp = some w → w.seq = ptpSeq m → stamp = some x →
        Gives (.peerDelayResponse k f) s fun t =>
          done (ofTime80 x.time) w.t2 (ptpStamp m) w.t4 (w.corr + ptpCorr m) t ∧ counts t ∧ only t))

/-! ### Host interface and parameters (chapters 13 and 14) -/

/-- HUSH and RESUME set and end the hushed state on each way in. From stage 1 on, HUSH by a direct write, a packet, or a frame
of the network that the switch passes on while HUSH_EN is set, hushes the chip, records the source, counts itself, drops every
bulk reply not yet sent and every own frame of priority 6 and 0, of which phasor frames count as skipped and queue entries stay;
with HUSH_EN clear the network's does nothing to it. RESUME, by the same ways but on the network an ordinary request, ends the
hushed state and starts nothing. A packet is answered at the head of the control stream. Store, clock, registers and parameters
stay. -/
def Obligations.HushAndResume : Prop :=
  ∀ s : State, s.pw.stage ≠ 0 →
    let hushes := fun (src : Nat) (t : State) =>
      t.lk.hushed = true ∧ t.lk.hushSrc = src ∧ t.lk.hushCount = satN 65535 (s.lk.hushCount + 1) ∧ t.lk.bulkOut = [] ∧
      t.nt.waiting = [] ∧ (∀ f ∈ t.nt.egress, f.prio = 7 ∨ f.kind = .forwarded) ∧ t.qu.entries = s.qu.entries ∧
      t.qu.flying = [] ∧ t.pm = { s.pm with waitEnd := [], skipped := t.pm.skipped } ∧
      t = { s with lk := t.lk, nt := t.nt, qu := t.qu, pm := t.pm, hw := { s.hw with flight := t.hw.flight } }
    let resumes := fun (src : Nat) (t : State) =>
      t.lk.hushed = false ∧ t.lk.hushSrc = src ∧ t.lk.hushCount = s.lk.hushCount ∧
      t = { s with lk := t.lk, hw := { s.hw with flight := t.hw.flight } }
    let atHead := fun t : State => s.pw.hsel = true → s.lk.ctrlCut = false → ∃ r, t.lk.ctrlOut = r :: s.lk.ctrlOut
    (∀ frame bs, HearsWrite s frame bs 0x06 → crc8 (bs.take 6) = beAt bs 6 1 →
      (beAt bs 2 4 = 1 → Gives (.hush (.host frame)) s fun t =>
        hushes (if s.pw.hsel then 3 else 1) t ∧ t.lk.ctrlOut = s.lk.ctrlOut ∧ t.lk.dlAccepted = true) ∧
      (beAt bs 2 4 = 2 → Gives (.resume (.host frame)) s fun t =>
        resumes (if s.pw.hsel then 3 else 1) t ∧ t.lk.ctrlOut = s.lk.ctrlOut ∧ t.lk.bulkOut = s.lk.bulkOut ∧
          t.lk.dlAccepted = true)) ∧
    (∀ frame pkt, Brings s frame pkt →
      (fieldAt pkt 2 2 = 0x0110 → Gives (.hush (.host frame)) s fun t => hushes (hostSrc s) t ∧ atHead t) ∧
      (fieldAt pkt 2 2 = 0x0111 → Gives (.resume (.host frame)) s fun t => resumes (hostSrc s) t ∧ atHead t)) ∧
    (∀ (k : Fin 2) (f : FrameIn) (u : Udp) pkt, portUp s k = true → s.nt.ports.length = 2 → frameGood f = true →
      let e := ethOf (s.nt.mode == 0) (frameBody f)
      let node := fieldAt pkt 6 2 % 4096
      udpOf e = some u → commandOf u = some pkt → ownAddress s u.dst = true → forDevice e = true → s.nt.mode ≤ 2 →
      (s.nt.mode = 0 → ∃ q, e.seq = some q ∧ e.src ≠ macAddr ∧ s.nt.discard.any (fun x => x.1 == (e.src, q)) = false) →
      (node = s.nt.node ∨ node = 0xFFF) → fieldAt pkt 2 2 = 0x0110 → packetOk pkt = true →
      (bitAt (par s (pid 11 0 20)) 0 = true → Gives (.hush (.network k f)) s fun t =>
        hushes 4 t ∧ t.hw = s.hw ∧ t.lk.ctrlOut = s.lk.ctrlOut ∧
          (node ≠ 0xFFF → ∃ g ∈ t.nt.egress, g.kind = .reply ∧ g.dst = (u.src, u.sport))) ∧
      (bitAt (par s (pid 11 0 20)) 0 = false → Gives (.hush (.network k f)) s fun t =>
        t = { s with nt := t.nt } ∧ t.nt.waiting = s.nt.waiting)) ∧
    (∀ h, Opens opResume h s → exec (.resume (.network h)) s =
      .next (((s.accepted h).resume 4).replied opResume h .ok (zeros 2 ++ le 4 (hushWord ((s.accepted h).resume 4)))))

/-- Direct writes and reads of the snap window. From stage 1 on a direct write with a good CRC clears flagged interrupt bits,
sets the mask or a SCRATCH word, and is recorded as accepted; with a bad CRC, or to a word that takes no write, it changes no
word and is recorded as refused; one cut short, or of another length on the UART, only counts. A direct read latches its group
at its first word and releases it at its last; on SPI the word and its CRC leave in the same frame, on the UART in a frame of
their own. A latch is released 2 ms after latching. -/
def Obligations.DirectFramesReachTheSnapWindow : Prop :=
  ∀ s : State, s.pw.stage ≠ 0 →
    let only := fun t : State => t = { s with lk := t.lk, hw := { s.hw with flight := [] } }
    (∀ frame bs a, HearsWrite s frame bs a → crc8 (bs.take 6) = beAt bs 6 1 →
      let v := beAt bs 2 4
      let taken := fun t : State => t.lk.dlAccepted = true ∧ t.lk.dlCount = satN 65535 (s.lk.dlCount + 1) ∧ only t
      (a = 0x02 → v < 2 ^ 15 → Gives (.directWrite frame) s fun t => t.lk.irq = clearBits s.lk.irq v ∧ taken t) ∧
      (a = 0x03 → v < 2 ^ 15 → Gives (.directWrite frame) s fun t =>
        t.lk.irqMask = v ∧ t.lk.irq = s.lk.irq ∧ taken t) ∧
      (0xC0 ≤ a → a ≤ 0xDF → Gives (.directWrite frame) s fun t =>
        t.lk.scratch = modAt s.lk.scratch (a - 0xC0) (fun _ => v) ∧ taken t) ∧
      (0x20 ≤ a → a < 0xC0 → Gives (.directWrite frame) s fun t =>
        t.lk.dlRefused = true ∧ t.lk.directRoErr = true ∧ t.lk.scratch = s.lk.scratch ∧ t.lk.irqMask = s.lk.irqMask ∧
        t.lk.hushed = s.lk.hushed ∧ t.lk.dlCount = s.lk.dlCount ∧ only t)) ∧
    (∀ frame bs a, HearsWrite s frame bs a → crc8 (bs.take 6) ≠ beAt bs 6 1 → Gives (.directWrite frame) s fun t =>
      t.lk.dlBadCrc = true ∧ t.lk.directCrcErr = true ∧ t.lk.scratch = s.lk.scratch ∧ t.lk.irqMask = s.lk.irqMask ∧
      t.lk.hushed = s.lk.hushed ∧ t.lk.dlCount = s.lk.dlCount ∧ only t) ∧
    (∀ frame : List Byte, s.pw.hsel = false → frame ≠ [] → frame.length < 7 → bitAt (beAt frame 0 1) 7 = true →
      Gives (.directWrite frame) s fun t =>
        t.lk.frameErrors = u32 (s.lk.frameErrors + 1) ∧ t.lk.scratch = s.lk.scratch ∧ t.lk.dlCount = s.lk.dlCount ∧
        t.lk.irq = s.lk.irq ∧ t.lk.sent.length = frame.length ∧
        t = { s with lk := t.lk, hw := { s.hw with flight := [] }, free := t.free }) ∧
    (∀ frame bs : List Byte, s.pw.hsel = true → frame ≠ [] → uncobs frame = some bs → bitAt (beAt bs 0 1) 7 = true → bs.length ≠ 7 →
      exec (.directWrite frame) s = .next { s with
        lk := { s.lk with frameErrors := u32 (s.lk.frameErrors + 1) }, hw := { s.hw with flight := [] } }) ∧
    (∀ frame bs : List Byte, bitAt (beAt bs 0 1) 7 = true → bitAt (beAt bs 0 1) 6 = false →
      let a := beAt bs 1 1
      let x := s.landed.latchFor a
      let latches := fun t : State =>
        (a = 0x13 → t.lk.timeLatch = none) ∧ (a = 0x1E → t.lk.calLatch = none) ∧
        (0x18 ≤ a → a ≤ 0x1D → calLatched s = none → t.lk.calLatch = some s.rtc.cal) ∧
        (0x10 ≤ a → a ≤ 0x12 → timeLatched s = none → ∃ c, t.lk.timeLatch = some c ∧ c ≤ s.now ∧ s.now ≤ c + 40 * 65536) ∧
        t = { s with lk := t.lk, hw := { s.hw with flight := [] }, free := t.free }
      (s.pw.hsel = false → frame = bs → 7 ≤ bs.length → Gives (.snapGroupLatch frame) s fun t =>
        t.lk.sent = fitBytes bs.length (zeros 2 ++ directReply x (bs.take 2) a) ∧ latches t) ∧
      (s.pw.hsel = true → frame ≠ [] → uncobs frame = some bs → bs.length = 7 → Gives (.snapGroupLatch frame) s fun t =>
        t.lk.directOut = s.lk.directOut ++ [bs.take 2 ++ directReply x (bs.take 2) a] ∧ latches t)) ∧
    (s.after s.lk.calLatchClk (2 * cycMs) = true →
      exec (.snapLatchTimeout true) s = .next { s with lk := { s.lk with calLatch := none } }) ∧
    (s.after s.lk.timeLatchClk (2 * cycMs) = true →
      exec (.snapLatchTimeout false) s = .next { s with lk := { s.lk with timeLatch := none } })

/-- SPI packet frames, UART frames, and requests that no opcode answers. An SPI frame from stage 1 on sends the device's header
and the head of the lane it chose, and takes those bytes from that stream; bytes of the host that hold no whole packet count as
a frame error; an announced length above BULK_MAX on the bulk lane discards the frame. A whole control packet that link hardware
does not answer itself takes a free receive buffer from stage 2 on. The UART sends the frame in transmission and starts a direct
reply before a control reply before a bulk reply, and no bulk reply while hushed. An unknown opcode is answered UNKNOWN_OPCODE
alone; an owner that does not answer gives INTERNAL_FAULT, which counts as a refusal, is logged, and ends a Canopy trial. -/
def Obligations.PacketFramesMoveBothStreams : Prop :=
  ∀ s : State, s.pw.stage ≠ 0 →
    let only := fun t : State => t = { s with lk := t.lk, hw := { s.hw with flight := [] } }
    (∀ f : List Byte, s.pw.hsel = false → 2 ≤ f.length → bitAt (beAt f 0 1) 7 = false →
      let n := beAt f 0 2 % 4096
      let bulk := bitAt (beAt f 0 2) 14
      let d := frameChoice s
      let inRange := bulk = true → n ≤ par s 0x0811
      (n = 0 → Gives (.spiPacketFrame f) s fun t =>
        t.lk.sent.length = f.length ∧ t.lk.sent.take 2 = be 2 (d.2 + flagAt d.1 14) ∧
        (d.1 = true → t.lk.ctrlOut = s.lk.ctrlOut ∧
          t.lk.bulkOut = (takeBytes (Nat.min d.2 (f.length - 2)) s.lk.bulkOut).2.1) ∧
        (d.1 = false → t.lk.bulkOut = s.lk.bulkOut ∧
          t.lk.ctrlOut = (takeBytes (Nat.min d.2 (f.length - 2)) s.lk.ctrlOut).2.1) ∧
        t.lk.frameErrors = s.lk.frameErrors ∧ t.lk.rxCtrl = s.lk.rxCtrl ∧ t.lk.rxBulk = s.lk.rxBulk ∧ only t) ∧
      (n ≠ 0 → inRange → ((f.drop 2).take n).length < 10 → Gives (.spiPacketFrame f) s fun t =>
        t.lk.frameErrors = u32 (s.lk.frameErrors + 1) ∧ t.lk.rxCtrl = s.lk.rxCtrl ∧ t.lk.rxBulk = s.lk.rxBulk ∧ only t) ∧
      (bulk = true → par s 0x0811 < n → Gives (.spiPacketFrame f) s fun t =>
        t.lk.frameErrors = u32 (s.lk.frameErrors + 1) ∧ t.lk.rxCtrl = s.lk.rxCtrl ∧ t.lk.rxBulk = s.lk.rxBulk ∧ only t)) ∧
    (∀ frame pkt, Brings s frame pkt → 2 ≤ s.pw.stage → fieldAt pkt 2 2 ≠ 0x0110 → fieldAt pkt 2 2 ≠ 0x0111 →
      buffersUsed s.lk.rxCtrl < 4 → Gives (.spiPacketFrame frame) s fun t =>
        t.lk.rxCtrl = s.lk.rxCtrl ++ [.request pkt] ∧ t.lk.rxBulk = s.lk.rxBulk ∧ t.lk.frameErrors = s.lk.frameErrors ∧
        t.lk.rxDropped = s.lk.rxDropped ∧ only t) ∧
    (s.pw.hsel = true →
      let out := match s.lk.line with
        | some (_, bs, _) => bs
        | none => s.lk.sent
      let done := fun l : Link => ({ s with lk := l, hw := { s.hw with flight := [] } } : State)
      (∀ p r, s.lk.directOut = p :: r → exec .uartFrameTransmit s =
        .next (done { s.lk with directOut := r, sent := out, line := some (false, cobs p ++ [0], s.clk) })) ∧
      (∀ p r, s.lk.directOut = [] → s.lk.ctrlOut = p :: r → exec .uartFrameTransmit s =
        .next (done { s.lk with ctrlOut := r, sent := out, line := some (false, cobs p ++ [0], s.clk) })) ∧
      (∀ p r, s.lk.directOut = [] → s.lk.ctrlOut = [] → s.lk.bulkOut = p :: r → exec .uartFrameTransmit s =
        .next (done (if s.lk.hushed then { s.lk with sent := out, line := none }
          else { s.lk with bulkOut := r, sent := out, line := some (true, cobs p ++ [0], s.clk) }))) ∧
      (s.lk.directOut = [] → s.lk.ctrlOut = [] → s.lk.bulkOut = [] → exec .uartFrameTransmit s =
        .next (done { s.lk with sent := out, line := none }))) ∧
    (∀ h op, 2 ≤ s.pw.stage → s.pr.committing = none → streamFull s h = false → consoleAbsent s h = false →
      authentic s h = true → acceptedOpcode h.bulk op = false →
      exec (.unknownOpcode h op) s = .next ((s.accepted h).answer h op .unknownOpcode [])) ∧
    (∀ h op, acceptedOpcode h.bulk op = true → exec (.unknownOpcode h op) s = .fault .malformedCommand) ∧
    (∀ h op owner, 2 ≤ s.pw.stage → Gives (.ownerAnswerTimeout h op owner) s fun t =>
      t.lk.cmdRefused = s.lk.cmdRefused + 1 ∧ t.lk.lastRefused = op * 65536 + Status.internalFault.code ∧
      ((s.up.st ≠ 5 ∨ s.up.revert.isSome = true ∨ s.pw.stage = 2) →
        (s.wd.buffer.length < 256 → ∃ e, e.code = 0x0107 ∧ t.wd.buffer = s.wd.buffer ++ [e]) ∧
        t = { s with lk := t.lk, tp := t.tp, nt := t.nt, hm := t.hm, wd := t.wd }) ∧
      (s.up.st = 5 → hdrKind s.up.header = 0 → s.up.revert = none → 3 ≤ s.pw.stage → t.up.revert.isSome = true) ∧
      t = { s with hw := t.hw, lk := t.lk, tp := t.tp, wd := t.wd, up := t.up, nt := t.nt, hm := t.hm, pq := t.pq,
                   free := t.free })

/-- Parameter reads answer, writes are staged, and a commit stores and empties the pending set. GET_PARAM answers type, access
and the value read, or the status that refuses it, and changes nothing; GET_PARAMS answers item by item, for a list or a range.
SET_PARAM and SET_PARAMS stage valid values and change no committed or applied value; a write-only member acts at once, and an
invalid value is answered with its status. DEFAULTS stages the defaults of its scope, DISCARD_PARAMS empties the pending set. A
COMMIT_PARAMS that a check stops answers it, with nothing pending it answers at once; otherwise it is accepted, and at the
instant of commit, where the checks hold again, every pending value but LEAP's is committed as it stands, the set is empty and
COMMIT_SEQ counts, with only P0 and P2 of the store written; where the store does not take it, nothing is committed and
INTERNAL_FAULT answers. A commit that no longer waits does nothing. -/
def Obligations.ParametersAreReadStagedAndCommitted : Prop :=
  ∀ s : State,
    (∀ h id which d v, Opens opGetParam h s → h.len = 4 → readStatus (s.accepted h) id which = (.ok, v) →
      memberOf id = some d → exec (.getParam h id which) s = .next ((s.accepted h).replied opGetParam h .ok
        (le 2 id ++ le 1 d.ty.code ++ le 1 d.acc.code ++ zeros 2 ++ le d.ty.size v))) ∧
    (∀ h id which st v, Opens opGetParam h s → h.len = 4 → readStatus (s.accepted h) id which = (st, v) → st ≠ .ok →
      exec (.getParam h id which) s = .next ((s.accepted h).replied opGetParam h st (zeros 6))) ∧
    (∀ h which ids, Opens opGetParams h s → h.len = 4 + 2 * ids.length → which ≤ 3 → 1 ≤ ids.length → ids.length ≤ 200 →
      exec (.getParams h 0 which ids.length 0 ids) s = .next ((s.accepted h).replied opGetParams h .ok
        (le 2 ids.length ++ ids.flatMap (readItem (s.accepted h) which)))) ∧
    (∀ h which first count, Opens opGetParams h s → h.len = 8 → which ≤ 3 → 1 ≤ count → count ≤ 200 → first + count ≤ 0x10000 →
      exec (.getParams h 1 which count first []) s = .next ((s.accepted h).replied opGetParams h .ok
        (le 2 count ++ ((List.range count).map (first + ·)).flatMap (readItem (s.accepted h) which)))) ∧
    (∀ h id bs, Opens opSetParam h s → h.len = 4 + bs.length → writeStatus (s.accepted h) h id bs = none →
      s.pr.pending.length < 2048 → (memberOf id).map (·.acc) ≠ some .wo →
      exec (.setParam h id bs) s = .next (((s.accepted h).onPr fun p =>
        { p with pending := assocSet p.pending id (leVal bs) }).replied opSetParam h .ok (le 2 id))) ∧
    (∀ h id bs, Opens opSetParam h s → h.len = 4 + bs.length → writeStatus (s.accepted h) h id bs = none →
      s.pr.pending.length ≤ 2048 → (memberOf id).map (·.acc) = some .wo →
      exec (.setParam h id bs) s = .next (((s.accepted h).woAct id).replied opSetParam h .ok (le 2 id))) ∧
    (∀ h id bs st, Opens opSetParam h s → h.len = 4 + bs.length → writeStatus (s.accepted h) h id bs = some st →
      exec (.setParam h id bs) s = .next ((s.accepted h).replied opSetParam h st opSetParam.blank)) ∧
    (∀ h items, Opens opSetParams h s → h.len = itemsLength items → 1 ≤ items.length → items.length ≤ 200 →
      firstBad (s.accepted h) h 0 items = none → (∀ e ∈ items, (memberOf e.1).map (·.acc) ≠ some .wo) →
      s.pr.pending.length + items.length ≤ 2048 → exec (.setParams h items.length items) s = .next
        ((items.foldl (fun x e => x.onPr fun p => { p with pending := assocSet p.pending e.1 (leVal e.2) })
          (s.accepted h)).replied opSetParams h .ok (le 2 0xFFFF))) ∧
    (∀ h, commitGoes s h = true → exec (.commitParams h) s =
      .next ((s.accepted h).onPr fun p => { p with committing := some h })) ∧
    (∀ h st i, Opens opCommit h s → h.len = 0 → commitFail s h = some (st, i) → commitFail (s.accepted h) h = some (st, i) →
      exec (.commitParams h) s = .next ((s.accepted h).replied opCommit h st (commitBytes i 0 0))) ∧
    (∀ h, Opens opCommit h s → h.len = 0 → s.pr.pending = [] → commitFail (s.accepted h) h = none →
      exec (.commitParams h) s = .next ((s.accepted h).replied opCommit h .ok (commitBytes 0xFFFF s.pr.commitSeq 0))) ∧
    (∀ h, s.pr.committing = some h →
      let x := s.onPr fun p => { p with committing := none }
      (∀ st i, commitFail x h = some (st, i) →
        exec (.commit h) s = .next (x.answer h 0x0106 st (commitBytes i 0 0))) ∧
      (commitFail x h = none → x.commitAll.2 = true → ∃ v, exec (.commit h) s =
        .next (v.answer h 0x0106 .ok (commitBytes 0xFFFF v.pr.commitSeq s.pr.pending.length)) ∧
          v.pr.pending = [] ∧ v.pr.committing = none ∧ v.pr.commitSeq = u32 (s.pr.commitSeq + 1) ∧
          ((s.pr.pending.map (·.1)).Nodup → ∀ id u, (id, u) ∈ s.pr.pending → id ≠ 0x380E → parCommitted v id = u) ∧
          v.te.cnt = s.te.cnt ∧ v.me.regElemF = s.me.regElemF ∧ v.me.regCircF = s.me.regCircF ∧
          keepsBytes s v [(0, 128 * 256), (pageAddr 2 0, 128 * 256)] ∧
          v = { s with pw := v.pw, te := v.te, rtc := v.rtc, hw := v.hw, se := v.se, pr := v.pr, lk := v.lk, tp := v.tp,
                       wd := v.wd, nt := v.nt, hm := v.hm, me := v.me, pm := v.pm, free := v.free }) ∧
      (commitFail x h = none → x.commitAll.2 = false → ∃ v, exec (.commit h) s =
        .next (v.answer h 0x0106 .internalFault (commitBytes 0xFFFF 0 0)) ∧ v.pr = x.pr ∧
          keepsBytes s v [(0, 128 * 256), (pageAddr 2 0, 128 * 256)])) ∧
    (∀ h, s.pr.committing ≠ some h → exec (.commit h) s = .next s) ∧
    (∀ h scope, Opens opDefaults h s → h.len = 4 → locked (s.accepted h) = false →
      (scope = 0 ∨ scope = 1 ∧ canWrite (s.accepted h) h.path 2 = true) → exec (.defaults h scope) s = .next
      (((s.accepted h).onPr fun p => { p with pending := assocAll p.pending (defaultSet (s.accepted h) scope) }).replied
        opDefaults h .ok (le 2 (defaultSet (s.accepted h) scope).length))) ∧
    (∀ h, Opens opDiscard h s → h.len = 0 → exec (.discardParams h) s = .next
      (((s.accepted h).onPr fun p => { p with pending := [] }).replied opDiscard h .ok (le 2 s.pr.pending.length)))

/-- NOP, IDENTIFY, GET_STAGE and SOFT_RESTART. NOP answers the bytes it was given, IDENTIFY and GET_STAGE answer identity and
stage word; they change nothing else, except that a broadcast IDENTIFY waits to be answered. SOFT_RESTART with power good and no
update in progress records its reason for a restart of Canopy at the next block boundary, once. -/
def Obligations.SystemRequestsAnswer : Prop :=
  ∀ (s : State) (h : Hdr),
    (∀ bs : List Byte, Opens opNop h s → bs.length ≤ 4078 → exec (.nop h bs) s = .next ((s.accepted h).replied opNop h .ok bs)) ∧
    (Opens opIdentify h s → h.len = 0 →
      exec (.identify h) s = .next (((s.accepted h).holdIdentify h).replied opIdentify h .ok (identifyBytes (s.accepted h)))) ∧
    (h.bcast = false → (s.accepted h).holdIdentify h = s.accepted h) ∧
    (Opens opGetStage h s → h.len = 0 →
      exec (.getStage h) s = .next ((s.accepted h).replied opGetStage h .ok (le 4 (stageWord (s.accepted h))))) ∧
    (∀ reason, Opens opSoftRestart h s → h.len = 4 → pfailing (s.accepted h) = false → s.up.st = 0 →
      Answers (.softRestart h reason) s opSoftRestart h .ok fun v bs => bs = zeros 2 ∧
        (s.wd.restartReq = none → v.wd.restartReq = some (reason % 256)) ∧
        (s.wd.restartReq ≠ none → v = s.accepted h) ∧ v.te = s.te ∧ v.pr = s.pr ∧ v.me = s.me)

/-- A request after a COMMIT_PARAMS acts on the committed set, and one whose outbound stream is full waits. While an accepted
COMMIT_PARAMS waits for its instant, any of the named requests first brings that instant and then acts as it would act from
there, and after it no commit waits. Where no commit waits and the outbound stream of the request's lane is full, none of them
changes anything. -/
def Obligations.RequestsWaitForCommitAndStream : Prop :=
  ∀ (s : State) (h : Hdr) (bs : List Byte) (id which n : Nat) (ids : List Nat) (items : List (Nat × List Byte)),
    ∀ i ∈ ([.nop h bs, .identify h, .getStage h, .softRestart h n, .getParam h id which, .getParams h n which id n ids,
      .setParam h id bs, .setParams h n items, .commitParams h, .defaults h n, .discardParams h, .coppiceQuery h n false,
      .energyRead h id which n n n, .queueRead h n n, .filterStart h n, .nvRead h id n n n, .nvWrite h id n n bs none,
      .sessionOpen h id n n, .pmuStop h, .netRxRead h, .timeGet h, .rtcGet h, .keyRead h n] : List Instr),
      (∀ c, s.pr.committing = some c →
        (s.finishCommit c).pr.committing = none ∧ exec i s = exec i (s.finishCommit c)) ∧
      (s.pr.committing = none → streamFull s h = true → exec i s = .next s)

/-! ### Heartwood engine (chapter 15) -/

/-- NV_READ, NV_WRITE, NV_STATUS and the scrub: what is read, and which bytes a write changes. NV_READ answers the bytes of a
readable range as the array gives them, with its uncorrectable words, and writes nothing. NV_WRITE with a P5 write session puts
its bytes at their place in the page, wrapping inside it, takes the page off the torn list, counts its word accesses and changes
no other byte but the torn bit; cut by a power failure it has written whole words up to there, answers POWER_FAILING and lists
the page as torn. NV_STATUS answers flags and torn pages; an acknowledged page, or every one, leaves the list. A scrub read, due
at its pace, does the rewrites that wait, moves the position on, passes over torn pages and an erased key copy, asks for a
rewrite of a weak or corrected word, counts and logs what it corrected or could not, and changes no byte. Only the store, and
the log for the scrub and a read, change. -/
def Obligations.StoreIsReadWrittenAndScrubbed : Prop :=
  ∀ s : State,
    (∀ h part page offset count, Opens opNvRead h s → h.len = 8 → 1 ≤ part → part ≤ 5 →
      (part = 3 ∨ canRead (s.accepted h) h.path part = true) → page < partPages part → offset ≤ 255 → 1 ≤ count →
      count ≤ 1024 → page * 256 + offset + count ≤ partPages part * 256 →
      let a := pageAddr part page + offset
      Answers (.nvRead h part page offset count) s opNvRead h .ok fun v bs =>
        bs.drop 6 = peek s a count ∧ bs.take 2 = le 2 (badIn s a count).length ∧
        v = (s.accepted h).sense a count ∧ v.hw.mem = s.hw.mem ∧
        v = { s.accepted h with hw := v.hw, wd := v.wd } ∧
        (flipsIn s a count = [] → v = s.accepted h ∧ bs = le 2 0 ++ le 2 0xFFFF ++ zeros 2 ++ rdBytes s.hw.mem a count)) ∧
    (∀ h page offset data, Opens opNvWrite h s → h.len = 8 + data.length → pfailing (s.accepted h) = false →
      locked (s.accepted h) = false → canWrite (s.accepted h) h.path 5 = true → page ≤ 511 → offset ≤ 255 →
      1 ≤ data.length → data.length ≤ 256 →
      let chunks := wordChunks offset data.length
      let writes := fun (n : Nat) (v : State) =>
        (∀ k < n, rdByte v.hw.mem (pageAddr 5 page + (offset + k) % 256) = data.getD k 0) ∧
        (∀ k, n ≤ k → k < 256 → rdByte v.hw.mem (pageAddr 5 page + (offset + k) % 256) =
          rdByte s.hw.mem (pageAddr 5 page + (offset + k) % 256)) ∧
        keepsBytes s v [((1536 + page) / 8, 1), (pageAddr 5 page, 256)] ∧ v = { s.accepted h with hw := v.hw }
      Answers (.nvWrite h 5 page offset data none) s opNvWrite h .ok (fun v bs =>
        bs = le 2 data.length ∧ writes data.length v ∧ page ∉ v.hw.tornList ∧ tornBit v.hw.mem (1536 + page) = false ∧
        v.hw.hostWrites = u32 (s.hw.hostWrites + chunks.length)) ∧
      (∀ n, n < chunks.length → Answers (.nvWrite h 5 page offset data (some n)) s opNvWrite h .powerFailing fun v bs =>
        let m := (chunks.take n).foldl (· + ·) 0
        bs = le 2 m ∧ writes m v ∧ page ∈ v.hw.tornList ∧ tornBit v.hw.mem (1536 + page) = true ∧
        v.hw.hostWrites = u32 (s.hw.hostWrites + n))) ∧
    (∀ h, Opens opNvStatus h s → h.len = 4 → exec (.nvStatusQuery h false) s =
      .next ((s.accepted h).replied opNvStatus h .ok (nvStatusReply (s.accepted h)))) ∧
    (∀ h page, Opens opNvStatus h s → h.len = 4 → canWrite (s.accepted h) h.path 5 = true → page ≤ 511 ∨ page = 0xFFFF →
      (∀ p ∈ s.hw.tornList, p ≤ 511) →
      Answers (.nvStatusAcknowledge h 5 page) s opNvStatus h .ok fun v bs =>
        v.hw.tornList = (if page = 0xFFFF then [] else s.hw.tornList.filter (fun p => p != page)) ∧ bs = nvStatusReply v ∧
        keepsBytes s v [(192, 64)] ∧ v = { s.accepted h with hw := { s.hw with tornList := v.hw.tornList, mem := v.hw.mem } }) ∧
    (2 ≤ s.pw.stage → s.after s.hw.scrubClk (scrubPace s) = true → ∀ o : ScrubIn,
      let w := s.hw.scrubPos
      let x := (s.onHw fun h => { h with flips := o.disturbed.foldl addFlip h.flips }).rewriteAll
      let moved := fun t : State => t.hw.scrubClk = s.clk ∧ t.hw.scrubPos = (if w + 1 = storeWords then 0 else w + 1) ∧
        t.hw.mem = s.hw.mem ∧ t.hw.flips = x.hw.flips ∧ t.hw.refreshed = x.hw.refreshed ∧
        t = { s with hw := t.hw, wd := t.wd }
      Gives (.scrubRead o) s fun t => moved t ∧
        (scrubSkips s (w / 64) = true → t.hw.rewrites = [] ∧ t.hw.eccCorrected = s.hw.eccCorrected ∧
          t.hw.eccUncorrectable = s.hw.eccUncorrectable ∧ t.wd = s.wd) ∧
        (scrubSkips s (w / 64) = false → flipsIn x (4 * w) 4 = [] → t.hw.rewrites = (if o.weak then [(w, true)] else []) ∧
          t.hw.eccCorrected = s.hw.eccCorrected ∧ t.hw.eccUncorrectable = s.hw.eccUncorrectable ∧ t.wd = s.wd) ∧
        (∀ f, scrubSkips s (w / 64) = false → flipsIn x (4 * w) 4 = [f] →
          (flipBad f = false → t.hw.eccCorrected = u32 (s.hw.eccCorrected + 1) ∧ t.hw.rewrites = [(f.word, false)]) ∧
          (flipBad f = true → t.hw.eccUncorrectable = u32 (s.hw.eccUncorrectable + 1) ∧ t.hw.uncorrSeen = true ∧
            t.hw.rewrites = []) ∧
          (s.wd.buffer.length < 256 →
            ∃ e, e.code = (if flipBad f then 0x0906 else 0x0905) ∧ t.wd.buffer = s.wd.buffer ++ [e])))

/-- SESSION_OPEN, SESSION_CLOSE and PASSWORD_SET; wrong passwords, lockouts and expiry. Outside a lockout the password of a
partition opens a session on the request's path and resets the count of failures; a wrong one is answered AUTH_FAIL, counted,
and from the fifth on starts a lockout, which its expiry ends; no session opens or closes by it (the sixteenth in a row raises a
tamper source, whose response may close sessions). In a lockout nothing is checked. SESSION_CLOSE and an idle limit close
exactly the named sessions. PASSWORD_SET with a write session sets the password and closes that kind's sessions on other paths.
PASSWORD_SET writes the password record and the torn bitmap; where the store does not take it nothing is set and INTERNAL_FAULT
answers, and overtaken by a Clearing it answers AUTH_FAIL with nothing set. The others leave the store alone. -/
def Obligations.SessionsAndPasswords : Prop :=
  ∀ s : State,
    (∀ h part kind pw, Opens opSessionOpen h s → h.len = 12 → plainNet h = false → sessParts.contains part = true → kind ≤ 1 →
      (kind = 1 → locked (s.accepted h) = false) → lockedOut s part = false → pwOpens (pwOf s part kind) kind pw = true →
      s.se.locks.length = 6 → Answers (.sessionOpen h part kind pw) s opSessionOpen h .ok fun v bs =>
        (⟨part, kind == 1, h.path⟩ : Session) ∈ v.se.open_ ∧
        (∀ x, x ≠ ⟨part, kind == 1, h.path⟩ → (x ∈ v.se.open_ ↔ x ∈ s.se.open_)) ∧ (lockOf v part).fails = 0 ∧
        v.se.pws = s.se.pws ∧ bs = zeros 2 ++ le 4 (par (s.accepted h) (pid 9 0 2)) ∧
        v = { s.accepted h with se := v.se, tp := v.tp, wd := v.wd }) ∧
    (∀ h part kind pw, Opens opSessionOpen h s → h.len = 12 → plainNet h = false → sessParts.contains part = true → kind ≤ 1 →
      (kind = 1 → locked (s.accepted h) = false) → lockedOut s part = false → pwOpens (pwOf s part kind) kind pw = false →
      s.se.locks.length = 6 → Answers (.sessionOpen h part kind pw) s opSessionOpen h .authFail fun v bs =>
        ((lockOf s part).fails ≠ 15 → v.se.open_ = s.se.open_) ∧ (lockOf v part).fails = (lockOf s part).fails + 1 ∧
        (4 ≤ (lockOf s part).fails → (lockOf v part).lockS = (lockOf s part).nextS) ∧ bs = zeros 6 ∧
        v.se.pws = s.se.pws ∧ v = { s.accepted h with se := v.se, lk := v.lk, tp := v.tp, wd := v.wd, hm := v.hm, me := v.me,
                                                      free := v.free }) ∧
    (∀ h part kind pw, Opens opSessionOpen h s → h.len = 12 → plainNet h = false → sessParts.contains part = true →
      (kind = 1 → locked (s.accepted h) = false) → lockedOut s part = true →
      Answers (.sessionOpen h part kind pw) s opSessionOpen h .authFail fun v bs =>
        v.se.open_ = s.se.open_ ∧ (lockOf v part).fails = (lockOf s part).fails ∧ bs = zeros 6 ∧
        v.se.pws = s.se.pws ∧ v = { s.accepted h with se := v.se, wd := v.wd }) ∧
    (∀ h part kind, Opens opSessionClose h s → h.len = 4 → (part = 0xFF ∨ sessParts.contains part = true) → kind ≤ 2 →
      exec (.sessionClose h part kind) s = .next (((s.accepted h).dropSessions (closes h.path part kind)).replied
        opSessionClose h .ok (zeros 2))) ∧
    (∀ h part kind new, Opens opPasswordSet h s → h.len = 12 → pfailing (s.accepted h) = false → plainNet h = false →
      sessParts.contains part = true → kind ≤ 1 → badPassword new = false → s.se.pws.length = 8 →
      let w : Pw := ⟨1, pwDigest new⟩
      let stored := ((s.accepted h).landed.setPw part kind w).2
      let only := fun v : State => keepsBytes s v [(0, 256), (pageAddr 0 pwRec.2, 512)]
      (locked (s.accepted h) = false → canWrite (s.accepted h) h.path part = true →
        (stored = true → Answers (.passwordSet h part kind new false) s opPasswordSet h .ok fun v bs =>
          pwOf v part kind = w ∧ (∀ p ∈ sessParts, ∀ k ≤ 1, p ≠ part ∨ k ≠ kind → pwOf v p k = pwOf s p k) ∧
          v.se.open_ = s.se.open_.filter (fun x => !(x.part == part && x.write == (kind == 1) && x.path != h.path)) ∧
          bs = zeros 2 ∧ only v ∧ v = { s.accepted h with se := v.se, hm := v.hm, hw := v.hw, wd := v.wd }) ∧
        (stored = false → Answers (.passwordSet h part kind new false) s opPasswordSet h .internalFault fun v bs =>
          bs = zeros 2 ∧ only v ∧ v = { s.accepted h with hw := v.hw, wd := v.wd })) ∧
      (s.tp.clearQueue ≠ [] → Answers (.passwordSet h part kind new true) s opPasswordSet h .authFail fun v bs =>
        bs = zeros 2 ∧ only v ∧ v = { s.accepted h with hw := v.hw, free := v.free })) ∧
    (∀ path part write, (s.lk.heard.lookup path).any (fun c => !s.after c (par s (pid 9 0 2) * cycS)) = false →
      Gives (.sessionTimeout path part write) s fun t =>
        t.se.open_ = s.se.open_.filter (fun x => x != ⟨part, write, path⟩) ∧ t = { s with se := t.se, hm := t.hm }) ∧
    (∀ p : Fin 6, s.se.locks.length = 6 → lockedOut s p = false → Gives (.lockoutExpiry p) s fun t =>
        (lockOf t p).lockS = 0 ∧ (lockOf t p).fails = (lockOf s p).fails ∧ t = { s with se := t.se })

/-! ### Display, keys, console and test outputs (chapter 20) -/

/-- DISPLAY_CONTROL, scrolling, the segment test and the keys. DISPLAY_CONTROL answers the display's state; showing an item
holds it, resuming lets the display scroll where its layout says so, a segment test runs until its end. A scroll shows the next
scrolled item; an expired hold resumes, each at its time. An enabled key's press, long press and release enter the FIFO of 16 or
are counted as lost, each press being long once at most, and a long press of a TEST key begins a segment test; a key that is off
does nothing; KEY_READ takes the oldest events. None of it touches registers, store or clock. -/
def Obligations.DisplayAndKeys : Prop :=
  ∀ s : State,
    let shows := fun (item : Nat) (held scrolling : Bool) =>
      { s.hm with item := item, held := held, scrolling := scrolling, itemClk := s.clk }
    (∀ h item, Opens opDisplay h s → h.len = 4 → item ≤ 255 → exec (.displayQuery h false item) s =
      .next ((s.accepted h).replied opDisplay h .ok (displayReply (s.accepted h)))) ∧
    (∀ h item, Opens opDisplay h s → h.len = 4 → item < layItems (layoutOf s) →
      Answers (.displayShowItem h item) s opDisplay h .ok fun v bs =>
        v = { s.accepted h with hm := shows item true false } ∧ bs = displayReply v) ∧
    (∀ h item, Opens opDisplay h s → h.len = 4 → item ≤ 255 → Answers (.displayResumeScroll h item) s opDisplay h .ok fun v bs =>
        v = { s.accepted h with hm := shows s.hm.item false (scrolls s) } ∧ bs = displayReply v) ∧
    (∀ h item, Opens opDisplay h s → h.len = 4 → item ≤ 255 → Answers (.segmentTest h item) s opDisplay h .ok fun v bs =>
        v = { s.accepted h with hm := { s.hm with segTest := true, segClk := s.clk } } ∧ bs = displayReply v) ∧
    (s.after s.hm.segClk (5 * cycS) = false → exec .segmentTestEnd s = .next s) ∧
    (s.after s.hm.segClk (5 * cycS) = true → exec .segmentTestEnd s = .next { s with hm := { s.hm with segTest := false } }) ∧
    (∀ n, s.hm.scrolling = true → s.after s.hm.itemClk (layScroll (layoutOf s) * cycS) = true → nextScrolled s = some n →
      exec .displayScroll s = .next { s with hm := { s.hm with item := n, itemClk := s.clk } }) ∧
    (s.hm.held = true → s.after s.hm.itemClk (layHold (layoutOf s) * cycS) = true → exec .displayHoldExpiry s =
      .next { s with hm := shows s.hm.item false (scrolls s) }) ∧
    (∀ k : Fin 8, keyOn s k = true → s.hm.keys.getD k false = false → Gives (.keyPress k) s fun t =>
      t.hm.keyEvents = u32 (s.hm.keyEvents + 1) ∧ t.hm.keys = modAt s.hm.keys k (fun _ => true) ∧
      t.hm.keyClk = modAt s.hm.keyClk k (fun _ => s.clk) ∧
      (s.hm.fifo.length < 16 → t.hm.fifo = s.hm.fifo ++ [⟨s.now80, k, 0⟩] ∧ t.hm.lost = s.hm.lost) ∧
      (16 ≤ s.hm.fifo.length → t.hm.fifo = s.hm.fifo ∧ t.hm.lost = u32 (s.hm.lost + 1)) ∧
      (s.hm.step = none → s.hm.segTest = false → keyFunc s k = 1 ∨ keyFunc s k = 2 → t.hm.step = some (keyFunc s k, s.clk)) ∧
      t.hm.longs = modAt s.hm.longs k (fun _ => false) ∧ t = { s with hm := t.hm }) ∧
    (∀ k : Fin 8, keyOn s k = true → s.hm.keys.getD k false = true → Gives (.keyRelease k) s fun t =>
      t.hm.keyEvents = u32 (s.hm.keyEvents + 1) ∧ t.hm.keys = modAt s.hm.keys k (fun _ => false) ∧
      (s.hm.fifo.length < 16 → t.hm.fifo = s.hm.fifo ++ [⟨s.now80, k, 1⟩]) ∧ t = { s with hm := t.hm }) ∧
    (∀ k : Fin 8, keyOn s k = true → s.hm.keys.getD k false = true → s.hm.longs.getD k false = false →
      s.after (s.hm.keyClk.getD k 0) (2 * cycS) = true → Gives (.keyLongPress k) s fun t =>
      t.hm.longs = modAt s.hm.longs k (fun _ => true) ∧
      t.hm.keyEvents = u32 (s.hm.keyEvents + 1) ∧
      (s.hm.fifo.length < 16 → t.hm.fifo = s.hm.fifo ++ [⟨s.now80, k, 2⟩]) ∧
      (keyFunc s k = 3 → t.hm.segTest = true) ∧ (keyFunc s k ≠ 3 → t.hm.segTest = s.hm.segTest) ∧ t = { s with hm := t.hm }) ∧
    (∀ k : Fin 8, keyOn s k = false → exec (.keyPress k) s = .next s ∧ exec (.keyRelease k) s = .next s ∧
      exec (.keyLongPress k) s = .next s) ∧
    (∀ h max, Opens opKeyRead h s → h.len = 4 → 1 ≤ max → max ≤ 16 → exec (.keyRead h max) s =
      .next (((s.accepted h).onHm fun m => { m with fifo := m.fifo.drop max }).replied opKeyRead h .ok
        (le 1 (s.hm.fifo.take max).length ++ zeros 1 ++ le 4 s.hm.lost ++ (s.hm.fifo.take max).flatMap keyBytes)))

/-- Attach, detach and the console's own lines. A path that attaches while no console is owned takes it from stage 2 on where
CONSOLE_FLAGS let it; one that attaches while the other owns it gets BUSY, but of two in the same instant the service UART wins;
its baud rate comes into use. The owner's detach closes the console's sessions, ends its forces and a test level that it set,
and gives the console to the other path where it is attached and may own it, else to none. Each line of a console that is owned
is counted and, where it is well formed and its numbers are in range, answered with its fields, from stage 2, and for energy and
rms from stage 3; any other is answered with its status alone and counted as refused. The log line records besides the bad words
that it meets. -/
def Obligations.ConsoleAttachesAndAnswers : Prop :=
  ∀ s : State,
    (∀ o : Bool,
      let p := if o then 2 else 1
      let a := s.takeScheduled fun id => effOf id == .attach
      let joined := { s.hm with probe := s.hm.probe || o, cable := s.hm.cable || !o, attaches := u32 (s.hm.attaches + 1),
                                suBaud := par a 0x6006 }
      let second := p = 1 ∧ s.hm.owner = 2 ∧ s.hm.ownerClk = s.clk
      (s.pw.stage = 0 → exec (.consoleAttach o) s =
        .next { s with hm := { s.hm with probe := s.hm.probe || o, cable := s.hm.cable || !o } }) ∧
      (2 ≤ s.pw.stage → s.hm.owner = 0 → s.hm.cable = false → s.hm.probe = false → consoleOn a p = true →
        exec (.consoleAttach o) s = .next { s with pr := a.pr, hm := { joined with owner := p, ownerClk := s.clk } }) ∧
      (2 ≤ s.pw.stage → s.hm.owner ≠ 0 → s.hm.owner ≠ p → consoleOn s p = true → ¬second →
        exec (.consoleAttach o) s = .next { s with pr := a.pr, hm := { joined with out := s.hm.out ++ [ascii "BUSY"] } }) ∧
      (2 ≤ s.pw.stage → second → consoleOn s 1 = true → exec (.consoleAttach o) s =
        .next { s with pr := a.pr, hm := { joined with owner := 1, out := s.hm.out ++ [ascii "BUSY"] } })) ∧
    (∀ o : Bool, s.hm.owner = (if o then 2 else 1) → Gives (.consoleDetach o) s fun t =>
        t.se.open_ = s.se.open_.filter (fun x => x.path != .console) ∧ (∀ f ∈ t.hm.forces, f.path ≠ .console) ∧
        (s.hm.tdacConsole = true → t.hm.tdacOn = false) ∧ (s.hm.tdacConsole = false → t.hm.tdacOn = s.hm.tdacOn) ∧
        t.hm.owner = (if 2 ≤ s.pw.stage ∧ (if o then s.hm.cable else s.hm.probe) = true ∧
          consoleOn s (if o then 1 else 2) = true then (if o then 1 else 2) else 0) ∧
        t = { s with se := t.se, hm := t.hm }) ∧
    (∀ o : Bool, s.hm.owner ≠ (if o then 2 else 1) → exec (.consoleDetach o) s =
      .next { s with hm := { s.hm with probe := s.hm.probe && !o, cable := s.hm.cable && o } }) ∧
    (∀ x : LineIn, s.hm.owner ≠ 0 → s.wd.running = true → 2 ≤ s.pw.stage →
      let v := s.onLk fun l => { l with cmdAccepted := l.cmdAccepted + 1 }
      let prints := fun bs : List Byte => .next (v.onHm fun m => { m with out := m.out ++ [consoleLine .ok bs] })
      let refuses := fun st : Status => .next ({ v with
        lk := { v.lk with cmdRefused := s.lk.cmdRefused + 1, lastRefused := st.code },
        hm := { s.hm with out := s.hm.out ++ [consoleLine st []] } } : State)
      let args := ((lineWords x.bytes).drop 1).filterMap lineNum
      let c := args.headD 0
      let status := lineStatus s "status" x 2 fun a => !a.isEmpty
      let supply := lineStatus s "supply" x 2 fun a => !a.isEmpty
      let energy := lineStatus s "energy" x 3 fun a => a.length != 1 || 27 < a.headD 0
      let rms := lineStatus s "rms" x 3 fun a => 1 < a.length || 35 < a.headD 0
      let log := lineStatus s "log" x 2 fun a => 1 < a.length || a.head? == some 0 || 32 < a.headD 0
      (status = .ok → exec (.consoleStatus x) s = prints (le 4 (statusWord v) ++ le 4 (stageWord v) ++ le 1 (ladder v) ++
        le 4 (slotBits v (·.active)) ++ le 4 (spareStates v) ++ le 4 (ringStatus v) ++ le 1 v.te.servo.code)) ∧
      (supply = .ok → exec (.consoleSupply x) s =
        prints (s.pw.supplies.flatMap (le 4) ++ s.pw.temps.flatMap (le 4) ++ le 4 s.pw.lastHoldupUs)) ∧
      (energy = .ok → exec (.consoleEnergy x) s = prints (regBytes (s.me.regCircF.getD c (Regs.zero 12)) 12 ++
        regBytes (s.me.regCircP.getD c (Regs.zero 2)) 2)) ∧
      (rms = .ok → exec (.consoleRms x) s =
        prints ((if args = [] then List.range 36 else args).flatMap fun c => le 4 (rmsWin s c))) ∧
      (log = .ok → Gives (.consoleLog x) s fun t =>
        let l := logFrom v 0
        t.hm.out = s.hm.out ++ [consoleLine .ok (l.drop (l.length - args.headD (Config.freeNat s.free % 32 + 1))).flatten] ∧
        t.hw.mem = s.hw.mem ∧ t = { v with hm := { s.hm with out := t.hm.out }, hw := t.hw, wd := t.wd, free := t.free }) ∧
      (status.refused = true → exec (.consoleStatus x) s = refuses status) ∧
      (supply.refused = true → exec (.consoleSupply x) s = refuses supply) ∧
      (energy.refused = true → exec (.consoleEnergy x) s = refuses energy) ∧
      (rms.refused = true → exec (.consoleRms x) s = refuses rms) ∧
      (log.refused = true → exec (.consoleLog x) s = refuses log))

/-- TEST_TDAC and TEST_OUTPUT: levels, forces and their ends. TEST_TDAC on drives the code for its duration, off or its expiry
return the pin to high impedance. TEST_OUTPUT below LOCK with a P2 write session forces one output to a level under the
request's path in place of an earlier force of that output, and that is the level of its ball; release and expiry end the force
of that output alone. Either ends after TEST_MAX_S at the latest. Nothing but the test state changes. -/
def Obligations.TestOutputsAreForcedAndReleased : Prop :=
  ∀ s : State,
    (∀ h code d, Opens opTdac h s → h.len = 8 → code ≤ 65535 → 1 ≤ d → d ≤ par (s.accepted h) 0x7802 →
      Answers (.testTdacOn h false code d) s opTdac h .ok fun v bs =>
        v = { s.accepted h with hm := { s.hm with
          tdacOn := true, tdacConsole := h.path == .console, tdacCode := code, tdacClk := s.clk, tdacS := d } } ∧
        bs = tdacReply v) ∧
    (∀ h code d, Opens opTdac h s → h.len = 8 → code ≤ 65535 → d ≤ 65535 →
      Answers (.testTdacOff h code d) s opTdac h .ok fun v bs =>
        v = { s.accepted h with hm := { s.hm with tdacOn := false, tdacConsole := false, tdacCode := 0 } } ∧ bs = tdacReply v) ∧
    (s.hm.tdacOn = true → (s.after s.hm.tdacClk (s.hm.tdacS * cycS) = true ∨ s.after s.hm.tdacClk (par s 0x7802 * cycS) = true) →
      exec .tdacLevelExpiry s = .next { s with hm := { s.hm with tdacOn := false, tdacConsole := false, tdacCode := 0 } }) ∧
    ((s.hm.tdacOn = false ∨ testOver s s.hm.tdacClk s.hm.tdacS = false) → exec .tdacLevelExpiry s = .next s) ∧
    (∀ h o l d, Opens opOutput h s → h.len = 4 → locked (s.accepted h) = false → canWrite (s.accepted h) h.path 2 = true →
      o ≤ 19 → l ≤ 1 → 1 ≤ d → d ≤ par (s.accepted h) 0x7802 → Answers (.testOutputForce h o l d) s opOutput h .ok fun v bs =>
        v.hm.forces = s.hm.forces.filter (fun f => f.output != o) ++ [⟨o, l == 1, h.path, s.clk, d⟩] ∧ bs = outputReply v ∧
        outputLevel v o = (l == 1) ∧ v = { s.accepted h with hm := { s.hm with forces := v.hm.forces } }) ∧
    (∀ h o d, Opens opOutput h s → h.len = 4 → locked (s.accepted h) = false → canWrite (s.accepted h) h.path 2 = true →
      o ≤ 19 → d ≤ 65535 → Answers (.testOutputRelease h o d) s opOutput h .ok fun v bs =>
        v.hm.forces = s.hm.forces.filter (fun f => f.output != o) ∧ bs = outputReply v ∧
        v = { s.accepted h with hm := { s.hm with forces := v.hm.forces } }) ∧
    (∀ o : Fin 20, s.hm.forces.any (fun f => f.output == o.val && testOver s f.clk f.durS) = true →
      exec (.testOutputExpiry o) s =
        .next { s with hm := { s.hm with forces := s.hm.forces.filter fun f => f.output != o.val } }) ∧
    (∀ o : Fin 20, s.hm.forces.any (fun f => f.output == o.val && testOver s f.clk f.durS) = false →
      exec (.testOutputExpiry o) s = .next s)

/-! ### Rules of the spec stated whole -/

/-- While Canopy is restarting, STAGE reads 2 and requests that need stage 3 return NOT_IN_STAGE. In every state of the safety
invariant in which Canopy does not run although the Warden does (stage 2 or above), bits 2 to 0 of snap word STAGE read 2, and
every authentic request on its lane whose opcode needs stage 3 is answered NOT_IN_STAGE, whatever its operands, with its details
blank. (A commit in progress is finished first, and a lane whose outbound stream is full waits.) -/
def Obligations.CanopyRestartReadsStageTwo : Prop :=
  ∀ s : State, s.Inv → s.wd.canopyRunning = false → 2 ≤ s.pw.stage →
    snapWord s 0x04 % 8 = 2 ∧
    (∀ (op : Op) h lenOk checks act, op.minStage = 3 → s.pr.committing = none → streamFull s h = false →
      consoleAbsent s h = false → authentic s h = true →
      (∀ b, op.bulk = some b → h.bulk = b) → consoleUnknown h op.code = false →
      serve op h lenOk checks act s = (s.accepted h).answer h op.code .notInStage op.blank) ∧
    (∀ op ∈ [opEnergyRead, opDemandReset, opCfTest, opPqRead, opPqEventRead, opPqArchiveRead, opPmuRead, opPmuControl, opNetTx,
      opNetRxRead, opDisplay, opKeyRead, opTdac, opOutput, opDefaults, opSoftRestart], op.minStage = 3)

/-- The CRC of a direct frame is CRC-8 with polynomial 0x07 and initial value 0xFF over header and data, bit by bit. For every
snap word and every header, as received, the reply of a direct read is the word, most significant byte first, and the register
of a bit-serial CRC-8: initial value 0xFF, polynomial 0x07, no reflection, no final XOR, fed with the 16 header bits and the 32
data bits, most significant bit first. The same register decides over the first six bytes of a direct write whether it is taken.
-/
def Obligations.DirectFramesCarryCrc8 : Prop :=
  ∀ (s : State) (a : Nat) (hd : List Byte), hd.length = 2 →
    let crc := fun v : Nat => ((List.range 48).map fun k => v.testBit (47 - k)).foldl
      (fun (c : Nat) b => if (c.testBit 7) != b then (2 * c % 256) ^^^ 0x07 else 2 * c % 256) 0xFF
    directReply s hd a = be 4 (u32 (snapWord s a)) ++ be 1 (crc (beAt hd 0 2 * 2 ^ 32 + u32 (snapWord s a))) ∧
    (∀ bs : List Byte, bs.length = 7 →
      s.writeFrame bs = if crc (beAt bs 0 6) = beAt bs 6 1 then s.directWord (beAt bs 1 1) (beAt bs 2 4)
        else s.directLog (beAt bs 1 1) .badCrc)

/-- Which test and display requests LOCK lets through. DISPLAY_CONTROL, KEY_READ and TEST_TDAC are answered OK whatever the
ladder. TEST_OUTPUT, force or release, is answered LOCKED at LOCK and above, and below LOCK without a P2 write session
AUTH_FAIL; with one it is answered OK. -/
def Obligations.TestRequestsAtLock : Prop :=
  ∀ (s : State) (h : Hdr),
    (Opens opDisplay h s → h.len = 4 → ∀ item, item ≤ 255 →
      Answers (.displayQuery h false item) s opDisplay h .ok (fun _ _ => True) ∧
      (item < layItems (layoutOf s) → Answers (.displayShowItem h item) s opDisplay h .ok (fun _ _ => True)) ∧
      Answers (.displayResumeScroll h item) s opDisplay h .ok (fun _ _ => True) ∧
      Answers (.segmentTest h item) s opDisplay h .ok (fun _ _ => True)) ∧
    (Opens opKeyRead h s → h.len = 4 → ∀ max, 1 ≤ max → max ≤ 16 →
      Answers (.keyRead h max) s opKeyRead h .ok (fun _ _ => True)) ∧
    (Opens opTdac h s → h.len = 8 → ∀ code d, code ≤ 65535 → 1 ≤ d → d ≤ 65535 →
      (d ≤ par (s.accepted h) 0x7802 → Answers (.testTdacOn h false code d) s opTdac h .ok (fun _ _ => True)) ∧
      Answers (.testTdacOff h code d) s opTdac h .ok (fun _ _ => True)) ∧
    (Opens opOutput h s → h.len = 4 → ∀ o l d, o ≤ 19 → l ≤ 1 → 1 ≤ d → d ≤ par (s.accepted h) 0x7802 → d ≤ 65535 →
      (locked (s.accepted h) = true →
        exec (.testOutputForce h o l d) s = .next ((s.accepted h).answer h 0x0F02 .locked (zeros 6)) ∧
        exec (.testOutputRelease h o d) s = .next ((s.accepted h).answer h 0x0F02 .locked (zeros 6))) ∧
      (locked (s.accepted h) = false → canWrite (s.accepted h) h.path 2 = false →
        exec (.testOutputForce h o l d) s = .next ((s.accepted h).answer h 0x0F02 .authFail (zeros 6)) ∧
        exec (.testOutputRelease h o d) s = .next ((s.accepted h).answer h 0x0F02 .authFail (zeros 6))) ∧
      (locked (s.accepted h) = false → canWrite (s.accepted h) h.path 2 = true →
        Answers (.testOutputForce h o l d) s opOutput h .ok (fun _ _ => True) ∧
        Answers (.testOutputRelease h o d) s opOutput h .ok (fun _ _ => True)))

/-- Sessions and passwords over the network need secured packets; a change of password closes that kind's other sessions. A
plain network packet with SESSION_OPEN or PASSWORD_SET, where no earlier check refuses it, is answered AUTH_FAIL and opens or
changes nothing. PASSWORD_SET with a write session on the partition that the store takes changes that one password, a value of 0
or of all ones is answered VALUE_RANGE and changes nothing, and the change closes every session of the same kind on that
partition held by another path. -/
def Obligations.NetworkSessionsNeedSecuredPackets : Prop :=
  ∀ (s : State) (h : Hdr) (part kind v : Nat), sessParts.contains part = true → kind ≤ 1 → h.len = 12 →
    (plainNet h = true → Opens opSessionOpen h s → (kind = 1 → locked (s.accepted h) = false) →
      exec (.sessionOpen h part kind v) s = .next ((s.accepted h).answer h 0x0903 .authFail (zeros 6))) ∧
    (∀ o : Bool, plainNet h = true → Opens opPasswordSet h s → pfailing (s.accepted h) = false → locked (s.accepted h) = false →
      exec (.passwordSet h part kind v o) s = .next ((s.accepted h).answer h 0x0905 .authFail (zeros 2))) ∧
    (∀ o : Bool, (o = true → s.tp.clearQueue = []) → plainNet h = false → Opens opPasswordSet h s →
      pfailing (s.accepted h) = false → locked (s.accepted h) = false →
      (canWrite (s.accepted h) h.path part = false →
        exec (.passwordSet h part kind v o) s = .next ((s.accepted h).answer h 0x0905 .authFail (zeros 2))) ∧
      (canWrite (s.accepted h) h.path part = true → v = 0 ∨ v = 0xFFFFFFFFFFFFFFFF →
        exec (.passwordSet h part kind v o) s = .next ((s.accepted h).answer h 0x0905 .valueRange (zeros 2))) ∧
      (canWrite (s.accepted h) h.path part = true → s.se.pws.length = 8 → v ≠ 0 → v ≠ 0xFFFFFFFFFFFFFFFF →
        ((s.accepted h).landed.setPw part kind ⟨1, pwDigest v⟩).2 = true →
        Answers (.passwordSet h part kind v o) s opPasswordSet h .ok fun t _ =>
          pwOf t part kind = ⟨1, pwDigest v⟩ ∧
          (∀ p ∈ sessParts, ∀ k ≤ 1, p ≠ part ∨ k ≠ kind → pwOf t p k = pwOf s p k) ∧
          t.se.open_ = s.se.open_.filter fun x => !(x.part == part && x.write == (kind == 1) && x.path != h.path)))

/-- NV_WRITE and PASSWORD_SET while PFAIL is asserted, and an NV_WRITE that PFAIL cuts short. While PFAIL is asserted NV_WRITE
and PASSWORD_SET are answered POWER_FAILING and change nothing. An NV_WRITE during which PFAIL asserts after n whole words is
answered POWER_FAILING with the number of data bytes in those words; exactly those bytes are in the store and every other byte
is as it was, but for the torn bitmap byte of the page. -/
def Obligations.PowerFailStopsStoreWrites : Prop :=
  ∀ (s : State) (h : Hdr),
    (∀ part page offset data cut, Opens opNvWrite h s → h.len = 8 + data.length → pfailing (s.accepted h) = true →
      exec (.nvWrite h part page offset data cut) s = .next ((s.accepted h).answer h 0x0902 .powerFailing (zeros 2))) ∧
    (∀ part kind v o, Opens opPasswordSet h s → h.len = 12 → pfailing (s.accepted h) = true →
      exec (.passwordSet h part kind v o) s = .next ((s.accepted h).answer h 0x0905 .powerFailing (zeros 2))) ∧
    (∀ page offset data n, Opens opNvWrite h s → h.len = 8 + data.length → pfailing (s.accepted h) = false →
      locked (s.accepted h) = false → canWrite (s.accepted h) h.path 5 = true → page ≤ 511 → offset ≤ 255 →
      1 ≤ data.length → data.length ≤ 256 → n < (wordChunks offset data.length).length →
      Answers (.nvWrite h 5 page offset data (some n)) s opNvWrite h .powerFailing fun v bs =>
        ∀ w, w = ((wordChunks offset data.length).take n).foldl (· + ·) 0 → bs = le 2 w ∧
          (∀ k < w, rdByte v.hw.mem (pageAddr 5 page + (offset + k) % 256) = data.getD k 0) ∧
          (∀ a, a ≠ (1536 + page) / 8 → (∀ k < w, a ≠ pageAddr 5 page + (offset + k) % 256) →
            rdByte v.hw.mem a = rdByte s.hw.mem a))
end

