-- ==== Sys2Proof/Laws/State.lean ====
section
/-! SUPPORT. One lemma per field and update of the state, true by rfl. -/

namespace Sys2Proof.Machine

variable (s : State)

/-! ### `onPw` -/

@[simp] theorem onPw_pw (f : Power → Power) : (s.onPw f).pw = f s.pw := rfl
@[simp] theorem onPw_te (f : Power → Power) : (s.onPw f).te = s.te := rfl
@[simp] theorem onPw_rtc (f : Power → Power) : (s.onPw f).rtc = s.rtc := rfl
@[simp] theorem onPw_hw (f : Power → Power) : (s.onPw f).hw = s.hw := rfl
@[simp] theorem onPw_se (f : Power → Power) : (s.onPw f).se = s.se := rfl
@[simp] theorem onPw_pr (f : Power → Power) : (s.onPw f).pr = s.pr := rfl
@[simp] theorem onPw_lk (f : Power → Power) : (s.onPw f).lk = s.lk := rfl
@[simp] theorem onPw_tp (f : Power → Power) : (s.onPw f).tp = s.tp := rfl
@[simp] theorem onPw_wd (f : Power → Power) : (s.onPw f).wd = s.wd := rfl
@[simp] theorem onPw_up (f : Power → Power) : (s.onPw f).up = s.up := rfl
@[simp] theorem onPw_tx (f : Power → Power) : (s.onPw f).tx = s.tx := rfl
@[simp] theorem onPw_nt (f : Power → Power) : (s.onPw f).nt = s.nt := rfl
@[simp] theorem onPw_hm (f : Power → Power) : (s.onPw f).hm = s.hm := rfl
@[simp] theorem onPw_ref (f : Power → Power) : (s.onPw f).ref = s.ref := rfl
@[simp] theorem onPw_chans (f : Power → Power) : (s.onPw f).chans = s.chans := rfl
@[simp] theorem onPw_convs (f : Power → Power) : (s.onPw f).convs = s.convs := rfl
@[simp] theorem onPw_stands (f : Power → Power) : (s.onPw f).stands = s.stands := rfl
@[simp] theorem onPw_seqs (f : Power → Power) : (s.onPw f).seqs = s.seqs := rfl
@[simp] theorem onPw_filts (f : Power → Power) : (s.onPw f).filts = s.filts := rfl
@[simp] theorem onPw_insts (f : Power → Power) : (s.onPw f).insts = s.insts := rfl
@[simp] theorem onPw_hist (f : Power → Power) : (s.onPw f).hist = s.hist := rfl
@[simp] theorem onPw_wave (f : Power → Power) : (s.onPw f).wave = s.wave := rfl
@[simp] theorem onPw_qu (f : Power → Power) : (s.onPw f).qu = s.qu := rfl
@[simp] theorem onPw_units (f : Power → Power) : (s.onPw f).units = s.units := rfl
@[simp] theorem onPw_me (f : Power → Power) : (s.onPw f).me = s.me := rfl
@[simp] theorem onPw_pq (f : Power → Power) : (s.onPw f).pq = s.pq := rfl
@[simp] theorem onPw_pm (f : Power → Power) : (s.onPw f).pm = s.pm := rfl
@[simp] theorem onPw_clk (f : Power → Power) : (s.onPw f).clk = s.clk := rfl
@[simp] theorem onPw_free (f : Power → Power) : (s.onPw f).free = s.free := rfl
@[simp] theorem onPw_pending (f : Power → Power) : (s.onPw f).pending = s.pending := rfl

/-! ### `onTe` -/

@[simp] theorem onTe_pw (f : TimeEng → TimeEng) : (s.onTe f).pw = s.pw := rfl
@[simp] theorem onTe_te (f : TimeEng → TimeEng) : (s.onTe f).te = f s.te := rfl
@[simp] theorem onTe_rtc (f : TimeEng → TimeEng) : (s.onTe f).rtc = s.rtc := rfl
@[simp] theorem onTe_hw (f : TimeEng → TimeEng) : (s.onTe f).hw = s.hw := rfl
@[simp] theorem onTe_se (f : TimeEng → TimeEng) : (s.onTe f).se = s.se := rfl
@[simp] theorem onTe_pr (f : TimeEng → TimeEng) : (s.onTe f).pr = s.pr := rfl
@[simp] theorem onTe_lk (f : TimeEng → TimeEng) : (s.onTe f).lk = s.lk := rfl
@[simp] theorem onTe_tp (f : TimeEng → TimeEng) : (s.onTe f).tp = s.tp := rfl
@[simp] theorem onTe_wd (f : TimeEng → TimeEng) : (s.onTe f).wd = s.wd := rfl
@[simp] theorem onTe_up (f : TimeEng → TimeEng) : (s.onTe f).up = s.up := rfl
@[simp] theorem onTe_tx (f : TimeEng → TimeEng) : (s.onTe f).tx = s.tx := rfl
@[simp] theorem onTe_nt (f : TimeEng → TimeEng) : (s.onTe f).nt = s.nt := rfl
@[simp] theorem onTe_hm (f : TimeEng → TimeEng) : (s.onTe f).hm = s.hm := rfl
@[simp] theorem onTe_ref (f : TimeEng → TimeEng) : (s.onTe f).ref = s.ref := rfl
@[simp] theorem onTe_chans (f : TimeEng → TimeEng) : (s.onTe f).chans = s.chans := rfl
@[simp] theorem onTe_convs (f : TimeEng → TimeEng) : (s.onTe f).convs = s.convs := rfl
@[simp] theorem onTe_stands (f : TimeEng → TimeEng) : (s.onTe f).stands = s.stands := rfl
@[simp] theorem onTe_seqs (f : TimeEng → TimeEng) : (s.onTe f).seqs = s.seqs := rfl
@[simp] theorem onTe_filts (f : TimeEng → TimeEng) : (s.onTe f).filts = s.filts := rfl
@[simp] theorem onTe_insts (f : TimeEng → TimeEng) : (s.onTe f).insts = s.insts := rfl
@[simp] theorem onTe_hist (f : TimeEng → TimeEng) : (s.onTe f).hist = s.hist := rfl
@[simp] theorem onTe_wave (f : TimeEng → TimeEng) : (s.onTe f).wave = s.wave := rfl
@[simp] theorem onTe_qu (f : TimeEng → TimeEng) : (s.onTe f).qu = s.qu := rfl
@[simp] theorem onTe_units (f : TimeEng → TimeEng) : (s.onTe f).units = s.units := rfl
@[simp] theorem onTe_me (f : TimeEng → TimeEng) : (s.onTe f).me = s.me := rfl
@[simp] theorem onTe_pq (f : TimeEng → TimeEng) : (s.onTe f).pq = s.pq := rfl
@[simp] theorem onTe_pm (f : TimeEng → TimeEng) : (s.onTe f).pm = s.pm := rfl
@[simp] theorem onTe_clk (f : TimeEng → TimeEng) : (s.onTe f).clk = s.clk := rfl
@[simp] theorem onTe_free (f : TimeEng → TimeEng) : (s.onTe f).free = s.free := rfl
@[simp] theorem onTe_pending (f : TimeEng → TimeEng) : (s.onTe f).pending = s.pending := rfl

/-! ### `onRtc` -/

@[simp] theorem onRtc_pw (f : Rtc → Rtc) : (s.onRtc f).pw = s.pw := rfl
@[simp] theorem onRtc_te (f : Rtc → Rtc) : (s.onRtc f).te = s.te := rfl
@[simp] theorem onRtc_rtc (f : Rtc → Rtc) : (s.onRtc f).rtc = f s.rtc := rfl
@[simp] theorem onRtc_hw (f : Rtc → Rtc) : (s.onRtc f).hw = s.hw := rfl
@[simp] theorem onRtc_se (f : Rtc → Rtc) : (s.onRtc f).se = s.se := rfl
@[simp] theorem onRtc_pr (f : Rtc → Rtc) : (s.onRtc f).pr = s.pr := rfl
@[simp] theorem onRtc_lk (f : Rtc → Rtc) : (s.onRtc f).lk = s.lk := rfl
@[simp] theorem onRtc_tp (f : Rtc → Rtc) : (s.onRtc f).tp = s.tp := rfl
@[simp] theorem onRtc_wd (f : Rtc → Rtc) : (s.onRtc f).wd = s.wd := rfl
@[simp] theorem onRtc_up (f : Rtc → Rtc) : (s.onRtc f).up = s.up := rfl
@[simp] theorem onRtc_tx (f : Rtc → Rtc) : (s.onRtc f).tx = s.tx := rfl
@[simp] theorem onRtc_nt (f : Rtc → Rtc) : (s.onRtc f).nt = s.nt := rfl
@[simp] theorem onRtc_hm (f : Rtc → Rtc) : (s.onRtc f).hm = s.hm := rfl
@[simp] theorem onRtc_ref (f : Rtc → Rtc) : (s.onRtc f).ref = s.ref := rfl
@[simp] theorem onRtc_chans (f : Rtc → Rtc) : (s.onRtc f).chans = s.chans := rfl
@[simp] theorem onRtc_convs (f : Rtc → Rtc) : (s.onRtc f).convs = s.convs := rfl
@[simp] theorem onRtc_stands (f : Rtc → Rtc) : (s.onRtc f).stands = s.stands := rfl
@[simp] theorem onRtc_seqs (f : Rtc → Rtc) : (s.onRtc f).seqs = s.seqs := rfl
@[simp] theorem onRtc_filts (f : Rtc → Rtc) : (s.onRtc f).filts = s.filts := rfl
@[simp] theorem onRtc_insts (f : Rtc → Rtc) : (s.onRtc f).insts = s.insts := rfl
@[simp] theorem onRtc_hist (f : Rtc → Rtc) : (s.onRtc f).hist = s.hist := rfl
@[simp] theorem onRtc_wave (f : Rtc → Rtc) : (s.onRtc f).wave = s.wave := rfl
@[simp] theorem onRtc_qu (f : Rtc → Rtc) : (s.onRtc f).qu = s.qu := rfl
@[simp] theorem onRtc_units (f : Rtc → Rtc) : (s.onRtc f).units = s.units := rfl
@[simp] theorem onRtc_me (f : Rtc → Rtc) : (s.onRtc f).me = s.me := rfl
@[simp] theorem onRtc_pq (f : Rtc → Rtc) : (s.onRtc f).pq = s.pq := rfl
@[simp] theorem onRtc_pm (f : Rtc → Rtc) : (s.onRtc f).pm = s.pm := rfl
@[simp] theorem onRtc_clk (f : Rtc → Rtc) : (s.onRtc f).clk = s.clk := rfl
@[simp] theorem onRtc_free (f : Rtc → Rtc) : (s.onRtc f).free = s.free := rfl
@[simp] theorem onRtc_pending (f : Rtc → Rtc) : (s.onRtc f).pending = s.pending := rfl

/-! ### `onHw` -/

@[simp] theorem onHw_pw (f : Heart → Heart) : (s.onHw f).pw = s.pw := rfl
@[simp] theorem onHw_te (f : Heart → Heart) : (s.onHw f).te = s.te := rfl
@[simp] theorem onHw_rtc (f : Heart → Heart) : (s.onHw f).rtc = s.rtc := rfl
@[simp] theorem onHw_hw (f : Heart → Heart) : (s.onHw f).hw = f s.hw := rfl
@[simp] theorem onHw_se (f : Heart → Heart) : (s.onHw f).se = s.se := rfl
@[simp] theorem onHw_pr (f : Heart → Heart) : (s.onHw f).pr = s.pr := rfl
@[simp] theorem onHw_lk (f : Heart → Heart) : (s.onHw f).lk = s.lk := rfl
@[simp] theorem onHw_tp (f : Heart → Heart) : (s.onHw f).tp = s.tp := rfl
@[simp] theorem onHw_wd (f : Heart → Heart) : (s.onHw f).wd = s.wd := rfl
@[simp] theorem onHw_up (f : Heart → Heart) : (s.onHw f).up = s.up := rfl
@[simp] theorem onHw_tx (f : Heart → Heart) : (s.onHw f).tx = s.tx := rfl
@[simp] theorem onHw_nt (f : Heart → Heart) : (s.onHw f).nt = s.nt := rfl
@[simp] theorem onHw_hm (f : Heart → Heart) : (s.onHw f).hm = s.hm := rfl
@[simp] theorem onHw_ref (f : Heart → Heart) : (s.onHw f).ref = s.ref := rfl
@[simp] theorem onHw_chans (f : Heart → Heart) : (s.onHw f).chans = s.chans := rfl
@[simp] theorem onHw_convs (f : Heart → Heart) : (s.onHw f).convs = s.convs := rfl
@[simp] theorem onHw_stands (f : Heart → Heart) : (s.onHw f).stands = s.stands := rfl
@[simp] theorem onHw_seqs (f : Heart → Heart) : (s.onHw f).seqs = s.seqs := rfl
@[simp] theorem onHw_filts (f : Heart → Heart) : (s.onHw f).filts = s.filts := rfl
@[simp] theorem onHw_insts (f : Heart → Heart) : (s.onHw f).insts = s.insts := rfl
@[simp] theorem onHw_hist (f : Heart → Heart) : (s.onHw f).hist = s.hist := rfl
@[simp] theorem onHw_wave (f : Heart → Heart) : (s.onHw f).wave = s.wave := rfl
@[simp] theorem onHw_qu (f : Heart → Heart) : (s.onHw f).qu = s.qu := rfl
@[simp] theorem onHw_units (f : Heart → Heart) : (s.onHw f).units = s.units := rfl
@[simp] theorem onHw_me (f : Heart → Heart) : (s.onHw f).me = s.me := rfl
@[simp] theorem onHw_pq (f : Heart → Heart) : (s.onHw f).pq = s.pq := rfl
@[simp] theorem onHw_pm (f : Heart → Heart) : (s.onHw f).pm = s.pm := rfl
@[simp] theorem onHw_clk (f : Heart → Heart) : (s.onHw f).clk = s.clk := rfl
@[simp] theorem onHw_free (f : Heart → Heart) : (s.onHw f).free = s.free := rfl
@[simp] theorem onHw_pending (f : Heart → Heart) : (s.onHw f).pending = s.pending := rfl

/-! ### `onSe` -/

@[simp] theorem onSe_pw (f : Sess → Sess) : (s.onSe f).pw = s.pw := rfl
@[simp] theorem onSe_te (f : Sess → Sess) : (s.onSe f).te = s.te := rfl
@[simp] theorem onSe_rtc (f : Sess → Sess) : (s.onSe f).rtc = s.rtc := rfl
@[simp] theorem onSe_hw (f : Sess → Sess) : (s.onSe f).hw = s.hw := rfl
@[simp] theorem onSe_se (f : Sess → Sess) : (s.onSe f).se = f s.se := rfl
@[simp] theorem onSe_pr (f : Sess → Sess) : (s.onSe f).pr = s.pr := rfl
@[simp] theorem onSe_lk (f : Sess → Sess) : (s.onSe f).lk = s.lk := rfl
@[simp] theorem onSe_tp (f : Sess → Sess) : (s.onSe f).tp = s.tp := rfl
@[simp] theorem onSe_wd (f : Sess → Sess) : (s.onSe f).wd = s.wd := rfl
@[simp] theorem onSe_up (f : Sess → Sess) : (s.onSe f).up = s.up := rfl
@[simp] theorem onSe_tx (f : Sess → Sess) : (s.onSe f).tx = s.tx := rfl
@[simp] theorem onSe_nt (f : Sess → Sess) : (s.onSe f).nt = s.nt := rfl
@[simp] theorem onSe_hm (f : Sess → Sess) : (s.onSe f).hm = s.hm := rfl
@[simp] theorem onSe_ref (f : Sess → Sess) : (s.onSe f).ref = s.ref := rfl
@[simp] theorem onSe_chans (f : Sess → Sess) : (s.onSe f).chans = s.chans := rfl
@[simp] theorem onSe_convs (f : Sess → Sess) : (s.onSe f).convs = s.convs := rfl
@[simp] theorem onSe_stands (f : Sess → Sess) : (s.onSe f).stands = s.stands := rfl
@[simp] theorem onSe_seqs (f : Sess → Sess) : (s.onSe f).seqs = s.seqs := rfl
@[simp] theorem onSe_filts (f : Sess → Sess) : (s.onSe f).filts = s.filts := rfl
@[simp] theorem onSe_insts (f : Sess → Sess) : (s.onSe f).insts = s.insts := rfl
@[simp] theorem onSe_hist (f : Sess → Sess) : (s.onSe f).hist = s.hist := rfl
@[simp] theorem onSe_wave (f : Sess → Sess) : (s.onSe f).wave = s.wave := rfl
@[simp] theorem onSe_qu (f : Sess → Sess) : (s.onSe f).qu = s.qu := rfl
@[simp] theorem onSe_units (f : Sess → Sess) : (s.onSe f).units = s.units := rfl
@[simp] theorem onSe_me (f : Sess → Sess) : (s.onSe f).me = s.me := rfl
@[simp] theorem onSe_pq (f : Sess → Sess) : (s.onSe f).pq = s.pq := rfl
@[simp] theorem onSe_pm (f : Sess → Sess) : (s.onSe f).pm = s.pm := rfl
@[simp] theorem onSe_clk (f : Sess → Sess) : (s.onSe f).clk = s.clk := rfl
@[simp] theorem onSe_free (f : Sess → Sess) : (s.onSe f).free = s.free := rfl
@[simp] theorem onSe_pending (f : Sess → Sess) : (s.onSe f).pending = s.pending := rfl

/-! ### `onPr` -/

@[simp] theorem onPr_pw (f : Params → Params) : (s.onPr f).pw = s.pw := rfl
@[simp] theorem onPr_te (f : Params → Params) : (s.onPr f).te = s.te := rfl
@[simp] theorem onPr_rtc (f : Params → Params) : (s.onPr f).rtc = s.rtc := rfl
@[simp] theorem onPr_hw (f : Params → Params) : (s.onPr f).hw = s.hw := rfl
@[simp] theorem onPr_se (f : Params → Params) : (s.onPr f).se = s.se := rfl
@[simp] theorem onPr_pr (f : Params → Params) : (s.onPr f).pr = f s.pr := rfl
@[simp] theorem onPr_lk (f : Params → Params) : (s.onPr f).lk = s.lk := rfl
@[simp] theorem onPr_tp (f : Params → Params) : (s.onPr f).tp = s.tp := rfl
@[simp] theorem onPr_wd (f : Params → Params) : (s.onPr f).wd = s.wd := rfl
@[simp] theorem onPr_up (f : Params → Params) : (s.onPr f).up = s.up := rfl
@[simp] theorem onPr_tx (f : Params → Params) : (s.onPr f).tx = s.tx := rfl
@[simp] theorem onPr_nt (f : Params → Params) : (s.onPr f).nt = s.nt := rfl
@[simp] theorem onPr_hm (f : Params → Params) : (s.onPr f).hm = s.hm := rfl
@[simp] theorem onPr_ref (f : Params → Params) : (s.onPr f).ref = s.ref := rfl
@[simp] theorem onPr_chans (f : Params → Params) : (s.onPr f).chans = s.chans := rfl
@[simp] theorem onPr_convs (f : Params → Params) : (s.onPr f).convs = s.convs := rfl
@[simp] theorem onPr_stands (f : Params → Params) : (s.onPr f).stands = s.stands := rfl
@[simp] theorem onPr_seqs (f : Params → Params) : (s.onPr f).seqs = s.seqs := rfl
@[simp] theorem onPr_filts (f : Params → Params) : (s.onPr f).filts = s.filts := rfl
@[simp] theorem onPr_insts (f : Params → Params) : (s.onPr f).insts = s.insts := rfl
@[simp] theorem onPr_hist (f : Params → Params) : (s.onPr f).hist = s.hist := rfl
@[simp] theorem onPr_wave (f : Params → Params) : (s.onPr f).wave = s.wave := rfl
@[simp] theorem onPr_qu (f : Params → Params) : (s.onPr f).qu = s.qu := rfl
@[simp] theorem onPr_units (f : Params → Params) : (s.onPr f).units = s.units := rfl
@[simp] theorem onPr_me (f : Params → Params) : (s.onPr f).me = s.me := rfl
@[simp] theorem onPr_pq (f : Params → Params) : (s.onPr f).pq = s.pq := rfl
@[simp] theorem onPr_pm (f : Params → Params) : (s.onPr f).pm = s.pm := rfl
@[simp] theorem onPr_clk (f : Params → Params) : (s.onPr f).clk = s.clk := rfl
@[simp] theorem onPr_free (f : Params → Params) : (s.onPr f).free = s.free := rfl
@[simp] theorem onPr_pending (f : Params → Params) : (s.onPr f).pending = s.pending := rfl

/-! ### `onLk` -/

@[simp] theorem onLk_pw (f : Link → Link) : (s.onLk f).pw = s.pw := rfl
@[simp] theorem onLk_te (f : Link → Link) : (s.onLk f).te = s.te := rfl
@[simp] theorem onLk_rtc (f : Link → Link) : (s.onLk f).rtc = s.rtc := rfl
@[simp] theorem onLk_hw (f : Link → Link) : (s.onLk f).hw = s.hw := rfl
@[simp] theorem onLk_se (f : Link → Link) : (s.onLk f).se = s.se := rfl
@[simp] theorem onLk_pr (f : Link → Link) : (s.onLk f).pr = s.pr := rfl
@[simp] theorem onLk_lk (f : Link → Link) : (s.onLk f).lk = f s.lk := rfl
@[simp] theorem onLk_tp (f : Link → Link) : (s.onLk f).tp = s.tp := rfl
@[simp] theorem onLk_wd (f : Link → Link) : (s.onLk f).wd = s.wd := rfl
@[simp] theorem onLk_up (f : Link → Link) : (s.onLk f).up = s.up := rfl
@[simp] theorem onLk_tx (f : Link → Link) : (s.onLk f).tx = s.tx := rfl
@[simp] theorem onLk_nt (f : Link → Link) : (s.onLk f).nt = s.nt := rfl
@[simp] theorem onLk_hm (f : Link → Link) : (s.onLk f).hm = s.hm := rfl
@[simp] theorem onLk_ref (f : Link → Link) : (s.onLk f).ref = s.ref := rfl
@[simp] theorem onLk_chans (f : Link → Link) : (s.onLk f).chans = s.chans := rfl
@[simp] theorem onLk_convs (f : Link → Link) : (s.onLk f).convs = s.convs := rfl
@[simp] theorem onLk_stands (f : Link → Link) : (s.onLk f).stands = s.stands := rfl
@[simp] theorem onLk_seqs (f : Link → Link) : (s.onLk f).seqs = s.seqs := rfl
@[simp] theorem onLk_filts (f : Link → Link) : (s.onLk f).filts = s.filts := rfl
@[simp] theorem onLk_insts (f : Link → Link) : (s.onLk f).insts = s.insts := rfl
@[simp] theorem onLk_hist (f : Link → Link) : (s.onLk f).hist = s.hist := rfl
@[simp] theorem onLk_wave (f : Link → Link) : (s.onLk f).wave = s.wave := rfl
@[simp] theorem onLk_qu (f : Link → Link) : (s.onLk f).qu = s.qu := rfl
@[simp] theorem onLk_units (f : Link → Link) : (s.onLk f).units = s.units := rfl
@[simp] theorem onLk_me (f : Link → Link) : (s.onLk f).me = s.me := rfl
@[simp] theorem onLk_pq (f : Link → Link) : (s.onLk f).pq = s.pq := rfl
@[simp] theorem onLk_pm (f : Link → Link) : (s.onLk f).pm = s.pm := rfl
@[simp] theorem onLk_clk (f : Link → Link) : (s.onLk f).clk = s.clk := rfl
@[simp] theorem onLk_free (f : Link → Link) : (s.onLk f).free = s.free := rfl
@[simp] theorem onLk_pending (f : Link → Link) : (s.onLk f).pending = s.pending := rfl

/-! ### `onTp` -/

@[simp] theorem onTp_pw (f : Tamper → Tamper) : (s.onTp f).pw = s.pw := rfl
@[simp] theorem onTp_te (f : Tamper → Tamper) : (s.onTp f).te = s.te := rfl
@[simp] theorem onTp_rtc (f : Tamper → Tamper) : (s.onTp f).rtc = s.rtc := rfl
@[simp] theorem onTp_hw (f : Tamper → Tamper) : (s.onTp f).hw = s.hw := rfl
@[simp] theorem onTp_se (f : Tamper → Tamper) : (s.onTp f).se = s.se := rfl
@[simp] theorem onTp_pr (f : Tamper → Tamper) : (s.onTp f).pr = s.pr := rfl
@[simp] theorem onTp_lk (f : Tamper → Tamper) : (s.onTp f).lk = s.lk := rfl
@[simp] theorem onTp_tp (f : Tamper → Tamper) : (s.onTp f).tp = f s.tp := rfl
@[simp] theorem onTp_wd (f : Tamper → Tamper) : (s.onTp f).wd = s.wd := rfl
@[simp] theorem onTp_up (f : Tamper → Tamper) : (s.onTp f).up = s.up := rfl
@[simp] theorem onTp_tx (f : Tamper → Tamper) : (s.onTp f).tx = s.tx := rfl
@[simp] theorem onTp_nt (f : Tamper → Tamper) : (s.onTp f).nt = s.nt := rfl
@[simp] theorem onTp_hm (f : Tamper → Tamper) : (s.onTp f).hm = s.hm := rfl
@[simp] theorem onTp_ref (f : Tamper → Tamper) : (s.onTp f).ref = s.ref := rfl
@[simp] theorem onTp_chans (f : Tamper → Tamper) : (s.onTp f).chans = s.chans := rfl
@[simp] theorem onTp_convs (f : Tamper → Tamper) : (s.onTp f).convs = s.convs := rfl
@[simp] theorem onTp_stands (f : Tamper → Tamper) : (s.onTp f).stands = s.stands := rfl
@[simp] theorem onTp_seqs (f : Tamper → Tamper) : (s.onTp f).seqs = s.seqs := rfl
@[simp] theorem onTp_filts (f : Tamper → Tamper) : (s.onTp f).filts = s.filts := rfl
@[simp] theorem onTp_insts (f : Tamper → Tamper) : (s.onTp f).insts = s.insts := rfl
@[simp] theorem onTp_hist (f : Tamper → Tamper) : (s.onTp f).hist = s.hist := rfl
@[simp] theorem onTp_wave (f : Tamper → Tamper) : (s.onTp f).wave = s.wave := rfl
@[simp] theorem onTp_qu (f : Tamper → Tamper) : (s.onTp f).qu = s.qu := rfl
@[simp] theorem onTp_units (f : Tamper → Tamper) : (s.onTp f).units = s.units := rfl
@[simp] theorem onTp_me (f : Tamper → Tamper) : (s.onTp f).me = s.me := rfl
@[simp] theorem onTp_pq (f : Tamper → Tamper) : (s.onTp f).pq = s.pq := rfl
@[simp] theorem onTp_pm (f : Tamper → Tamper) : (s.onTp f).pm = s.pm := rfl
@[simp] theorem onTp_clk (f : Tamper → Tamper) : (s.onTp f).clk = s.clk := rfl
@[simp] theorem onTp_free (f : Tamper → Tamper) : (s.onTp f).free = s.free := rfl
@[simp] theorem onTp_pending (f : Tamper → Tamper) : (s.onTp f).pending = s.pending := rfl

/-! ### `onWd` -/

@[simp] theorem onWd_pw (f : Warden → Warden) : (s.onWd f).pw = s.pw := rfl
@[simp] theorem onWd_te (f : Warden → Warden) : (s.onWd f).te = s.te := rfl
@[simp] theorem onWd_rtc (f : Warden → Warden) : (s.onWd f).rtc = s.rtc := rfl
@[simp] theorem onWd_hw (f : Warden → Warden) : (s.onWd f).hw = s.hw := rfl
@[simp] theorem onWd_se (f : Warden → Warden) : (s.onWd f).se = s.se := rfl
@[simp] theorem onWd_pr (f : Warden → Warden) : (s.onWd f).pr = s.pr := rfl
@[simp] theorem onWd_lk (f : Warden → Warden) : (s.onWd f).lk = s.lk := rfl
@[simp] theorem onWd_tp (f : Warden → Warden) : (s.onWd f).tp = s.tp := rfl
@[simp] theorem onWd_wd (f : Warden → Warden) : (s.onWd f).wd = f s.wd := rfl
@[simp] theorem onWd_up (f : Warden → Warden) : (s.onWd f).up = s.up := rfl
@[simp] theorem onWd_tx (f : Warden → Warden) : (s.onWd f).tx = s.tx := rfl
@[simp] theorem onWd_nt (f : Warden → Warden) : (s.onWd f).nt = s.nt := rfl
@[simp] theorem onWd_hm (f : Warden → Warden) : (s.onWd f).hm = s.hm := rfl
@[simp] theorem onWd_ref (f : Warden → Warden) : (s.onWd f).ref = s.ref := rfl
@[simp] theorem onWd_chans (f : Warden → Warden) : (s.onWd f).chans = s.chans := rfl
@[simp] theorem onWd_convs (f : Warden → Warden) : (s.onWd f).convs = s.convs := rfl
@[simp] theorem onWd_stands (f : Warden → Warden) : (s.onWd f).stands = s.stands := rfl
@[simp] theorem onWd_seqs (f : Warden → Warden) : (s.onWd f).seqs = s.seqs := rfl
@[simp] theorem onWd_filts (f : Warden → Warden) : (s.onWd f).filts = s.filts := rfl
@[simp] theorem onWd_insts (f : Warden → Warden) : (s.onWd f).insts = s.insts := rfl
@[simp] theorem onWd_hist (f : Warden → Warden) : (s.onWd f).hist = s.hist := rfl
@[simp] theorem onWd_wave (f : Warden → Warden) : (s.onWd f).wave = s.wave := rfl
@[simp] theorem onWd_qu (f : Warden → Warden) : (s.onWd f).qu = s.qu := rfl
@[simp] theorem onWd_units (f : Warden → Warden) : (s.onWd f).units = s.units := rfl
@[simp] theorem onWd_me (f : Warden → Warden) : (s.onWd f).me = s.me := rfl
@[simp] theorem onWd_pq (f : Warden → Warden) : (s.onWd f).pq = s.pq := rfl
@[simp] theorem onWd_pm (f : Warden → Warden) : (s.onWd f).pm = s.pm := rfl
@[simp] theorem onWd_clk (f : Warden → Warden) : (s.onWd f).clk = s.clk := rfl
@[simp] theorem onWd_free (f : Warden → Warden) : (s.onWd f).free = s.free := rfl
@[simp] theorem onWd_pending (f : Warden → Warden) : (s.onWd f).pending = s.pending := rfl

/-! ### `onUp` -/

@[simp] theorem onUp_pw (f : Update → Update) : (s.onUp f).pw = s.pw := rfl
@[simp] theorem onUp_te (f : Update → Update) : (s.onUp f).te = s.te := rfl
@[simp] theorem onUp_rtc (f : Update → Update) : (s.onUp f).rtc = s.rtc := rfl
@[simp] theorem onUp_hw (f : Update → Update) : (s.onUp f).hw = s.hw := rfl
@[simp] theorem onUp_se (f : Update → Update) : (s.onUp f).se = s.se := rfl
@[simp] theorem onUp_pr (f : Update → Update) : (s.onUp f).pr = s.pr := rfl
@[simp] theorem onUp_lk (f : Update → Update) : (s.onUp f).lk = s.lk := rfl
@[simp] theorem onUp_tp (f : Update → Update) : (s.onUp f).tp = s.tp := rfl
@[simp] theorem onUp_wd (f : Update → Update) : (s.onUp f).wd = s.wd := rfl
@[simp] theorem onUp_up (f : Update → Update) : (s.onUp f).up = f s.up := rfl
@[simp] theorem onUp_tx (f : Update → Update) : (s.onUp f).tx = s.tx := rfl
@[simp] theorem onUp_nt (f : Update → Update) : (s.onUp f).nt = s.nt := rfl
@[simp] theorem onUp_hm (f : Update → Update) : (s.onUp f).hm = s.hm := rfl
@[simp] theorem onUp_ref (f : Update → Update) : (s.onUp f).ref = s.ref := rfl
@[simp] theorem onUp_chans (f : Update → Update) : (s.onUp f).chans = s.chans := rfl
@[simp] theorem onUp_convs (f : Update → Update) : (s.onUp f).convs = s.convs := rfl
@[simp] theorem onUp_stands (f : Update → Update) : (s.onUp f).stands = s.stands := rfl
@[simp] theorem onUp_seqs (f : Update → Update) : (s.onUp f).seqs = s.seqs := rfl
@[simp] theorem onUp_filts (f : Update → Update) : (s.onUp f).filts = s.filts := rfl
@[simp] theorem onUp_insts (f : Update → Update) : (s.onUp f).insts = s.insts := rfl
@[simp] theorem onUp_hist (f : Update → Update) : (s.onUp f).hist = s.hist := rfl
@[simp] theorem onUp_wave (f : Update → Update) : (s.onUp f).wave = s.wave := rfl
@[simp] theorem onUp_qu (f : Update → Update) : (s.onUp f).qu = s.qu := rfl
@[simp] theorem onUp_units (f : Update → Update) : (s.onUp f).units = s.units := rfl
@[simp] theorem onUp_me (f : Update → Update) : (s.onUp f).me = s.me := rfl
@[simp] theorem onUp_pq (f : Update → Update) : (s.onUp f).pq = s.pq := rfl
@[simp] theorem onUp_pm (f : Update → Update) : (s.onUp f).pm = s.pm := rfl
@[simp] theorem onUp_clk (f : Update → Update) : (s.onUp f).clk = s.clk := rfl
@[simp] theorem onUp_free (f : Update → Update) : (s.onUp f).free = s.free := rfl
@[simp] theorem onUp_pending (f : Update → Update) : (s.onUp f).pending = s.pending := rfl

/-! ### `onTx` -/

@[simp] theorem onTx_pw (f : Transplant → Transplant) : (s.onTx f).pw = s.pw := rfl
@[simp] theorem onTx_te (f : Transplant → Transplant) : (s.onTx f).te = s.te := rfl
@[simp] theorem onTx_rtc (f : Transplant → Transplant) : (s.onTx f).rtc = s.rtc := rfl
@[simp] theorem onTx_hw (f : Transplant → Transplant) : (s.onTx f).hw = s.hw := rfl
@[simp] theorem onTx_se (f : Transplant → Transplant) : (s.onTx f).se = s.se := rfl
@[simp] theorem onTx_pr (f : Transplant → Transplant) : (s.onTx f).pr = s.pr := rfl
@[simp] theorem onTx_lk (f : Transplant → Transplant) : (s.onTx f).lk = s.lk := rfl
@[simp] theorem onTx_tp (f : Transplant → Transplant) : (s.onTx f).tp = s.tp := rfl
@[simp] theorem onTx_wd (f : Transplant → Transplant) : (s.onTx f).wd = s.wd := rfl
@[simp] theorem onTx_up (f : Transplant → Transplant) : (s.onTx f).up = s.up := rfl
@[simp] theorem onTx_tx (f : Transplant → Transplant) : (s.onTx f).tx = f s.tx := rfl
@[simp] theorem onTx_nt (f : Transplant → Transplant) : (s.onTx f).nt = s.nt := rfl
@[simp] theorem onTx_hm (f : Transplant → Transplant) : (s.onTx f).hm = s.hm := rfl
@[simp] theorem onTx_ref (f : Transplant → Transplant) : (s.onTx f).ref = s.ref := rfl
@[simp] theorem onTx_chans (f : Transplant → Transplant) : (s.onTx f).chans = s.chans := rfl
@[simp] theorem onTx_convs (f : Transplant → Transplant) : (s.onTx f).convs = s.convs := rfl
@[simp] theorem onTx_stands (f : Transplant → Transplant) : (s.onTx f).stands = s.stands := rfl
@[simp] theorem onTx_seqs (f : Transplant → Transplant) : (s.onTx f).seqs = s.seqs := rfl
@[simp] theorem onTx_filts (f : Transplant → Transplant) : (s.onTx f).filts = s.filts := rfl
@[simp] theorem onTx_insts (f : Transplant → Transplant) : (s.onTx f).insts = s.insts := rfl
@[simp] theorem onTx_hist (f : Transplant → Transplant) : (s.onTx f).hist = s.hist := rfl
@[simp] theorem onTx_wave (f : Transplant → Transplant) : (s.onTx f).wave = s.wave := rfl
@[simp] theorem onTx_qu (f : Transplant → Transplant) : (s.onTx f).qu = s.qu := rfl
@[simp] theorem onTx_units (f : Transplant → Transplant) : (s.onTx f).units = s.units := rfl
@[simp] theorem onTx_me (f : Transplant → Transplant) : (s.onTx f).me = s.me := rfl
@[simp] theorem onTx_pq (f : Transplant → Transplant) : (s.onTx f).pq = s.pq := rfl
@[simp] theorem onTx_pm (f : Transplant → Transplant) : (s.onTx f).pm = s.pm := rfl
@[simp] theorem onTx_clk (f : Transplant → Transplant) : (s.onTx f).clk = s.clk := rfl
@[simp] theorem onTx_free (f : Transplant → Transplant) : (s.onTx f).free = s.free := rfl
@[simp] theorem onTx_pending (f : Transplant → Transplant) : (s.onTx f).pending = s.pending := rfl

/-! ### `onNt` -/

@[simp] theorem onNt_pw (f : Net → Net) : (s.onNt f).pw = s.pw := rfl
@[simp] theorem onNt_te (f : Net → Net) : (s.onNt f).te = s.te := rfl
@[simp] theorem onNt_rtc (f : Net → Net) : (s.onNt f).rtc = s.rtc := rfl
@[simp] theorem onNt_hw (f : Net → Net) : (s.onNt f).hw = s.hw := rfl
@[simp] theorem onNt_se (f : Net → Net) : (s.onNt f).se = s.se := rfl
@[simp] theorem onNt_pr (f : Net → Net) : (s.onNt f).pr = s.pr := rfl
@[simp] theorem onNt_lk (f : Net → Net) : (s.onNt f).lk = s.lk := rfl
@[simp] theorem onNt_tp (f : Net → Net) : (s.onNt f).tp = s.tp := rfl
@[simp] theorem onNt_wd (f : Net → Net) : (s.onNt f).wd = s.wd := rfl
@[simp] theorem onNt_up (f : Net → Net) : (s.onNt f).up = s.up := rfl
@[simp] theorem onNt_tx (f : Net → Net) : (s.onNt f).tx = s.tx := rfl
@[simp] theorem onNt_nt (f : Net → Net) : (s.onNt f).nt = f s.nt := rfl
@[simp] theorem onNt_hm (f : Net → Net) : (s.onNt f).hm = s.hm := rfl
@[simp] theorem onNt_ref (f : Net → Net) : (s.onNt f).ref = s.ref := rfl
@[simp] theorem onNt_chans (f : Net → Net) : (s.onNt f).chans = s.chans := rfl
@[simp] theorem onNt_convs (f : Net → Net) : (s.onNt f).convs = s.convs := rfl
@[simp] theorem onNt_stands (f : Net → Net) : (s.onNt f).stands = s.stands := rfl
@[simp] theorem onNt_seqs (f : Net → Net) : (s.onNt f).seqs = s.seqs := rfl
@[simp] theorem onNt_filts (f : Net → Net) : (s.onNt f).filts = s.filts := rfl
@[simp] theorem onNt_insts (f : Net → Net) : (s.onNt f).insts = s.insts := rfl
@[simp] theorem onNt_hist (f : Net → Net) : (s.onNt f).hist = s.hist := rfl
@[simp] theorem onNt_wave (f : Net → Net) : (s.onNt f).wave = s.wave := rfl
@[simp] theorem onNt_qu (f : Net → Net) : (s.onNt f).qu = s.qu := rfl
@[simp] theorem onNt_units (f : Net → Net) : (s.onNt f).units = s.units := rfl
@[simp] theorem onNt_me (f : Net → Net) : (s.onNt f).me = s.me := rfl
@[simp] theorem onNt_pq (f : Net → Net) : (s.onNt f).pq = s.pq := rfl
@[simp] theorem onNt_pm (f : Net → Net) : (s.onNt f).pm = s.pm := rfl
@[simp] theorem onNt_clk (f : Net → Net) : (s.onNt f).clk = s.clk := rfl
@[simp] theorem onNt_free (f : Net → Net) : (s.onNt f).free = s.free := rfl
@[simp] theorem onNt_pending (f : Net → Net) : (s.onNt f).pending = s.pending := rfl

/-! ### `onHm` -/

@[simp] theorem onHm_pw (f : Hmi → Hmi) : (s.onHm f).pw = s.pw := rfl
@[simp] theorem onHm_te (f : Hmi → Hmi) : (s.onHm f).te = s.te := rfl
@[simp] theorem onHm_rtc (f : Hmi → Hmi) : (s.onHm f).rtc = s.rtc := rfl
@[simp] theorem onHm_hw (f : Hmi → Hmi) : (s.onHm f).hw = s.hw := rfl
@[simp] theorem onHm_se (f : Hmi → Hmi) : (s.onHm f).se = s.se := rfl
@[simp] theorem onHm_pr (f : Hmi → Hmi) : (s.onHm f).pr = s.pr := rfl
@[simp] theorem onHm_lk (f : Hmi → Hmi) : (s.onHm f).lk = s.lk := rfl
@[simp] theorem onHm_tp (f : Hmi → Hmi) : (s.onHm f).tp = s.tp := rfl
@[simp] theorem onHm_wd (f : Hmi → Hmi) : (s.onHm f).wd = s.wd := rfl
@[simp] theorem onHm_up (f : Hmi → Hmi) : (s.onHm f).up = s.up := rfl
@[simp] theorem onHm_tx (f : Hmi → Hmi) : (s.onHm f).tx = s.tx := rfl
@[simp] theorem onHm_nt (f : Hmi → Hmi) : (s.onHm f).nt = s.nt := rfl
@[simp] theorem onHm_hm (f : Hmi → Hmi) : (s.onHm f).hm = f s.hm := rfl
@[simp] theorem onHm_ref (f : Hmi → Hmi) : (s.onHm f).ref = s.ref := rfl
@[simp] theorem onHm_chans (f : Hmi → Hmi) : (s.onHm f).chans = s.chans := rfl
@[simp] theorem onHm_convs (f : Hmi → Hmi) : (s.onHm f).convs = s.convs := rfl
@[simp] theorem onHm_stands (f : Hmi → Hmi) : (s.onHm f).stands = s.stands := rfl
@[simp] theorem onHm_seqs (f : Hmi → Hmi) : (s.onHm f).seqs = s.seqs := rfl
@[simp] theorem onHm_filts (f : Hmi → Hmi) : (s.onHm f).filts = s.filts := rfl
@[simp] theorem onHm_insts (f : Hmi → Hmi) : (s.onHm f).insts = s.insts := rfl
@[simp] theorem onHm_hist (f : Hmi → Hmi) : (s.onHm f).hist = s.hist := rfl
@[simp] theorem onHm_wave (f : Hmi → Hmi) : (s.onHm f).wave = s.wave := rfl
@[simp] theorem onHm_qu (f : Hmi → Hmi) : (s.onHm f).qu = s.qu := rfl
@[simp] theorem onHm_units (f : Hmi → Hmi) : (s.onHm f).units = s.units := rfl
@[simp] theorem onHm_me (f : Hmi → Hmi) : (s.onHm f).me = s.me := rfl
@[simp] theorem onHm_pq (f : Hmi → Hmi) : (s.onHm f).pq = s.pq := rfl
@[simp] theorem onHm_pm (f : Hmi → Hmi) : (s.onHm f).pm = s.pm := rfl
@[simp] theorem onHm_clk (f : Hmi → Hmi) : (s.onHm f).clk = s.clk := rfl
@[simp] theorem onHm_free (f : Hmi → Hmi) : (s.onHm f).free = s.free := rfl
@[simp] theorem onHm_pending (f : Hmi → Hmi) : (s.onHm f).pending = s.pending := rfl

/-! ### `onRef` -/

@[simp] theorem onRef_pw (f : Ref → Ref) : (s.onRef f).pw = s.pw := rfl
@[simp] theorem onRef_te (f : Ref → Ref) : (s.onRef f).te = s.te := rfl
@[simp] theorem onRef_rtc (f : Ref → Ref) : (s.onRef f).rtc = s.rtc := rfl
@[simp] theorem onRef_hw (f : Ref → Ref) : (s.onRef f).hw = s.hw := rfl
@[simp] theorem onRef_se (f : Ref → Ref) : (s.onRef f).se = s.se := rfl
@[simp] theorem onRef_pr (f : Ref → Ref) : (s.onRef f).pr = s.pr := rfl
@[simp] theorem onRef_lk (f : Ref → Ref) : (s.onRef f).lk = s.lk := rfl
@[simp] theorem onRef_tp (f : Ref → Ref) : (s.onRef f).tp = s.tp := rfl
@[simp] theorem onRef_wd (f : Ref → Ref) : (s.onRef f).wd = s.wd := rfl
@[simp] theorem onRef_up (f : Ref → Ref) : (s.onRef f).up = s.up := rfl
@[simp] theorem onRef_tx (f : Ref → Ref) : (s.onRef f).tx = s.tx := rfl
@[simp] theorem onRef_nt (f : Ref → Ref) : (s.onRef f).nt = s.nt := rfl
@[simp] theorem onRef_hm (f : Ref → Ref) : (s.onRef f).hm = s.hm := rfl
@[simp] theorem onRef_ref (f : Ref → Ref) : (s.onRef f).ref = f s.ref := rfl
@[simp] theorem onRef_chans (f : Ref → Ref) : (s.onRef f).chans = s.chans := rfl
@[simp] theorem onRef_convs (f : Ref → Ref) : (s.onRef f).convs = s.convs := rfl
@[simp] theorem onRef_stands (f : Ref → Ref) : (s.onRef f).stands = s.stands := rfl
@[simp] theorem onRef_seqs (f : Ref → Ref) : (s.onRef f).seqs = s.seqs := rfl
@[simp] theorem onRef_filts (f : Ref → Ref) : (s.onRef f).filts = s.filts := rfl
@[simp] theorem onRef_insts (f : Ref → Ref) : (s.onRef f).insts = s.insts := rfl
@[simp] theorem onRef_hist (f : Ref → Ref) : (s.onRef f).hist = s.hist := rfl
@[simp] theorem onRef_wave (f : Ref → Ref) : (s.onRef f).wave = s.wave := rfl
@[simp] theorem onRef_qu (f : Ref → Ref) : (s.onRef f).qu = s.qu := rfl
@[simp] theorem onRef_units (f : Ref → Ref) : (s.onRef f).units = s.units := rfl
@[simp] theorem onRef_me (f : Ref → Ref) : (s.onRef f).me = s.me := rfl
@[simp] theorem onRef_pq (f : Ref → Ref) : (s.onRef f).pq = s.pq := rfl
@[simp] theorem onRef_pm (f : Ref → Ref) : (s.onRef f).pm = s.pm := rfl
@[simp] theorem onRef_clk (f : Ref → Ref) : (s.onRef f).clk = s.clk := rfl
@[simp] theorem onRef_free (f : Ref → Ref) : (s.onRef f).free = s.free := rfl
@[simp] theorem onRef_pending (f : Ref → Ref) : (s.onRef f).pending = s.pending := rfl

/-! ### `onQu` -/

@[simp] theorem onQu_pw (f : Queue → Queue) : (s.onQu f).pw = s.pw := rfl
@[simp] theorem onQu_te (f : Queue → Queue) : (s.onQu f).te = s.te := rfl
@[simp] theorem onQu_rtc (f : Queue → Queue) : (s.onQu f).rtc = s.rtc := rfl
@[simp] theorem onQu_hw (f : Queue → Queue) : (s.onQu f).hw = s.hw := rfl
@[simp] theorem onQu_se (f : Queue → Queue) : (s.onQu f).se = s.se := rfl
@[simp] theorem onQu_pr (f : Queue → Queue) : (s.onQu f).pr = s.pr := rfl
@[simp] theorem onQu_lk (f : Queue → Queue) : (s.onQu f).lk = s.lk := rfl
@[simp] theorem onQu_tp (f : Queue → Queue) : (s.onQu f).tp = s.tp := rfl
@[simp] theorem onQu_wd (f : Queue → Queue) : (s.onQu f).wd = s.wd := rfl
@[simp] theorem onQu_up (f : Queue → Queue) : (s.onQu f).up = s.up := rfl
@[simp] theorem onQu_tx (f : Queue → Queue) : (s.onQu f).tx = s.tx := rfl
@[simp] theorem onQu_nt (f : Queue → Queue) : (s.onQu f).nt = s.nt := rfl
@[simp] theorem onQu_hm (f : Queue → Queue) : (s.onQu f).hm = s.hm := rfl
@[simp] theorem onQu_ref (f : Queue → Queue) : (s.onQu f).ref = s.ref := rfl
@[simp] theorem onQu_chans (f : Queue → Queue) : (s.onQu f).chans = s.chans := rfl
@[simp] theorem onQu_convs (f : Queue → Queue) : (s.onQu f).convs = s.convs := rfl
@[simp] theorem onQu_stands (f : Queue → Queue) : (s.onQu f).stands = s.stands := rfl
@[simp] theorem onQu_seqs (f : Queue → Queue) : (s.onQu f).seqs = s.seqs := rfl
@[simp] theorem onQu_filts (f : Queue → Queue) : (s.onQu f).filts = s.filts := rfl
@[simp] theorem onQu_insts (f : Queue → Queue) : (s.onQu f).insts = s.insts := rfl
@[simp] theorem onQu_hist (f : Queue → Queue) : (s.onQu f).hist = s.hist := rfl
@[simp] theorem onQu_wave (f : Queue → Queue) : (s.onQu f).wave = s.wave := rfl
@[simp] theorem onQu_qu (f : Queue → Queue) : (s.onQu f).qu = f s.qu := rfl
@[simp] theorem onQu_units (f : Queue → Queue) : (s.onQu f).units = s.units := rfl
@[simp] theorem onQu_me (f : Queue → Queue) : (s.onQu f).me = s.me := rfl
@[simp] theorem onQu_pq (f : Queue → Queue) : (s.onQu f).pq = s.pq := rfl
@[simp] theorem onQu_pm (f : Queue → Queue) : (s.onQu f).pm = s.pm := rfl
@[simp] theorem onQu_clk (f : Queue → Queue) : (s.onQu f).clk = s.clk := rfl
@[simp] theorem onQu_free (f : Queue → Queue) : (s.onQu f).free = s.free := rfl
@[simp] theorem onQu_pending (f : Queue → Queue) : (s.onQu f).pending = s.pending := rfl

/-! ### `onMe` -/

@[simp] theorem onMe_pw (f : Metro → Metro) : (s.onMe f).pw = s.pw := rfl
@[simp] theorem onMe_te (f : Metro → Metro) : (s.onMe f).te = s.te := rfl
@[simp] theorem onMe_rtc (f : Metro → Metro) : (s.onMe f).rtc = s.rtc := rfl
@[simp] theorem onMe_hw (f : Metro → Metro) : (s.onMe f).hw = s.hw := rfl
@[simp] theorem onMe_se (f : Metro → Metro) : (s.onMe f).se = s.se := rfl
@[simp] theorem onMe_pr (f : Metro → Metro) : (s.onMe f).pr = s.pr := rfl
@[simp] theorem onMe_lk (f : Metro → Metro) : (s.onMe f).lk = s.lk := rfl
@[simp] theorem onMe_tp (f : Metro → Metro) : (s.onMe f).tp = s.tp := rfl
@[simp] theorem onMe_wd (f : Metro → Metro) : (s.onMe f).wd = s.wd := rfl
@[simp] theorem onMe_up (f : Metro → Metro) : (s.onMe f).up = s.up := rfl
@[simp] theorem onMe_tx (f : Metro → Metro) : (s.onMe f).tx = s.tx := rfl
@[simp] theorem onMe_nt (f : Metro → Metro) : (s.onMe f).nt = s.nt := rfl
@[simp] theorem onMe_hm (f : Metro → Metro) : (s.onMe f).hm = s.hm := rfl
@[simp] theorem onMe_ref (f : Metro → Metro) : (s.onMe f).ref = s.ref := rfl
@[simp] theorem onMe_chans (f : Metro → Metro) : (s.onMe f).chans = s.chans := rfl
@[simp] theorem onMe_convs (f : Metro → Metro) : (s.onMe f).convs = s.convs := rfl
@[simp] theorem onMe_stands (f : Metro → Metro) : (s.onMe f).stands = s.stands := rfl
@[simp] theorem onMe_seqs (f : Metro → Metro) : (s.onMe f).seqs = s.seqs := rfl
@[simp] theorem onMe_filts (f : Metro → Metro) : (s.onMe f).filts = s.filts := rfl
@[simp] theorem onMe_insts (f : Metro → Metro) : (s.onMe f).insts = s.insts := rfl
@[simp] theorem onMe_hist (f : Metro → Metro) : (s.onMe f).hist = s.hist := rfl
@[simp] theorem onMe_wave (f : Metro → Metro) : (s.onMe f).wave = s.wave := rfl
@[simp] theorem onMe_qu (f : Metro → Metro) : (s.onMe f).qu = s.qu := rfl
@[simp] theorem onMe_units (f : Metro → Metro) : (s.onMe f).units = s.units := rfl
@[simp] theorem onMe_me (f : Metro → Metro) : (s.onMe f).me = f s.me := rfl
@[simp] theorem onMe_pq (f : Metro → Metro) : (s.onMe f).pq = s.pq := rfl
@[simp] theorem onMe_pm (f : Metro → Metro) : (s.onMe f).pm = s.pm := rfl
@[simp] theorem onMe_clk (f : Metro → Metro) : (s.onMe f).clk = s.clk := rfl
@[simp] theorem onMe_free (f : Metro → Metro) : (s.onMe f).free = s.free := rfl
@[simp] theorem onMe_pending (f : Metro → Metro) : (s.onMe f).pending = s.pending := rfl

/-! ### `onPq` -/

@[simp] theorem onPq_pw (f : Pq → Pq) : (s.onPq f).pw = s.pw := rfl
@[simp] theorem onPq_te (f : Pq → Pq) : (s.onPq f).te = s.te := rfl
@[simp] theorem onPq_rtc (f : Pq → Pq) : (s.onPq f).rtc = s.rtc := rfl
@[simp] theorem onPq_hw (f : Pq → Pq) : (s.onPq f).hw = s.hw := rfl
@[simp] theorem onPq_se (f : Pq → Pq) : (s.onPq f).se = s.se := rfl
@[simp] theorem onPq_pr (f : Pq → Pq) : (s.onPq f).pr = s.pr := rfl
@[simp] theorem onPq_lk (f : Pq → Pq) : (s.onPq f).lk = s.lk := rfl
@[simp] theorem onPq_tp (f : Pq → Pq) : (s.onPq f).tp = s.tp := rfl
@[simp] theorem onPq_wd (f : Pq → Pq) : (s.onPq f).wd = s.wd := rfl
@[simp] theorem onPq_up (f : Pq → Pq) : (s.onPq f).up = s.up := rfl
@[simp] theorem onPq_tx (f : Pq → Pq) : (s.onPq f).tx = s.tx := rfl
@[simp] theorem onPq_nt (f : Pq → Pq) : (s.onPq f).nt = s.nt := rfl
@[simp] theorem onPq_hm (f : Pq → Pq) : (s.onPq f).hm = s.hm := rfl
@[simp] theorem onPq_ref (f : Pq → Pq) : (s.onPq f).ref = s.ref := rfl
@[simp] theorem onPq_chans (f : Pq → Pq) : (s.onPq f).chans = s.chans := rfl
@[simp] theorem onPq_convs (f : Pq → Pq) : (s.onPq f).convs = s.convs := rfl
@[simp] theorem onPq_stands (f : Pq → Pq) : (s.onPq f).stands = s.stands := rfl
@[simp] theorem onPq_seqs (f : Pq → Pq) : (s.onPq f).seqs = s.seqs := rfl
@[simp] theorem onPq_filts (f : Pq → Pq) : (s.onPq f).filts = s.filts := rfl
@[simp] theorem onPq_insts (f : Pq → Pq) : (s.onPq f).insts = s.insts := rfl
@[simp] theorem onPq_hist (f : Pq → Pq) : (s.onPq f).hist = s.hist := rfl
@[simp] theorem onPq_wave (f : Pq → Pq) : (s.onPq f).wave = s.wave := rfl
@[simp] theorem onPq_qu (f : Pq → Pq) : (s.onPq f).qu = s.qu := rfl
@[simp] theorem onPq_units (f : Pq → Pq) : (s.onPq f).units = s.units := rfl
@[simp] theorem onPq_me (f : Pq → Pq) : (s.onPq f).me = s.me := rfl
@[simp] theorem onPq_pq (f : Pq → Pq) : (s.onPq f).pq = f s.pq := rfl
@[simp] theorem onPq_pm (f : Pq → Pq) : (s.onPq f).pm = s.pm := rfl
@[simp] theorem onPq_clk (f : Pq → Pq) : (s.onPq f).clk = s.clk := rfl
@[simp] theorem onPq_free (f : Pq → Pq) : (s.onPq f).free = s.free := rfl
@[simp] theorem onPq_pending (f : Pq → Pq) : (s.onPq f).pending = s.pending := rfl

/-! ### `onPm` -/

@[simp] theorem onPm_pw (f : Pmu → Pmu) : (s.onPm f).pw = s.pw := rfl
@[simp] theorem onPm_te (f : Pmu → Pmu) : (s.onPm f).te = s.te := rfl
@[simp] theorem onPm_rtc (f : Pmu → Pmu) : (s.onPm f).rtc = s.rtc := rfl
@[simp] theorem onPm_hw (f : Pmu → Pmu) : (s.onPm f).hw = s.hw := rfl
@[simp] theorem onPm_se (f : Pmu → Pmu) : (s.onPm f).se = s.se := rfl
@[simp] theorem onPm_pr (f : Pmu → Pmu) : (s.onPm f).pr = s.pr := rfl
@[simp] theorem onPm_lk (f : Pmu → Pmu) : (s.onPm f).lk = s.lk := rfl
@[simp] theorem onPm_tp (f : Pmu → Pmu) : (s.onPm f).tp = s.tp := rfl
@[simp] theorem onPm_wd (f : Pmu → Pmu) : (s.onPm f).wd = s.wd := rfl
@[simp] theorem onPm_up (f : Pmu → Pmu) : (s.onPm f).up = s.up := rfl
@[simp] theorem onPm_tx (f : Pmu → Pmu) : (s.onPm f).tx = s.tx := rfl
@[simp] theorem onPm_nt (f : Pmu → Pmu) : (s.onPm f).nt = s.nt := rfl
@[simp] theorem onPm_hm (f : Pmu → Pmu) : (s.onPm f).hm = s.hm := rfl
@[simp] theorem onPm_ref (f : Pmu → Pmu) : (s.onPm f).ref = s.ref := rfl
@[simp] theorem onPm_chans (f : Pmu → Pmu) : (s.onPm f).chans = s.chans := rfl
@[simp] theorem onPm_convs (f : Pmu → Pmu) : (s.onPm f).convs = s.convs := rfl
@[simp] theorem onPm_stands (f : Pmu → Pmu) : (s.onPm f).stands = s.stands := rfl
@[simp] theorem onPm_seqs (f : Pmu → Pmu) : (s.onPm f).seqs = s.seqs := rfl
@[simp] theorem onPm_filts (f : Pmu → Pmu) : (s.onPm f).filts = s.filts := rfl
@[simp] theorem onPm_insts (f : Pmu → Pmu) : (s.onPm f).insts = s.insts := rfl
@[simp] theorem onPm_hist (f : Pmu → Pmu) : (s.onPm f).hist = s.hist := rfl
@[simp] theorem onPm_wave (f : Pmu → Pmu) : (s.onPm f).wave = s.wave := rfl
@[simp] theorem onPm_qu (f : Pmu → Pmu) : (s.onPm f).qu = s.qu := rfl
@[simp] theorem onPm_units (f : Pmu → Pmu) : (s.onPm f).units = s.units := rfl
@[simp] theorem onPm_me (f : Pmu → Pmu) : (s.onPm f).me = s.me := rfl
@[simp] theorem onPm_pq (f : Pmu → Pmu) : (s.onPm f).pq = s.pq := rfl
@[simp] theorem onPm_pm (f : Pmu → Pmu) : (s.onPm f).pm = f s.pm := rfl
@[simp] theorem onPm_clk (f : Pmu → Pmu) : (s.onPm f).clk = s.clk := rfl
@[simp] theorem onPm_free (f : Pmu → Pmu) : (s.onPm f).free = s.free := rfl
@[simp] theorem onPm_pending (f : Pmu → Pmu) : (s.onPm f).pending = s.pending := rfl

/-! ### `onChan` -/

@[simp] theorem onChan_pw (n : Nat) (f : Chan → Chan) : (s.onChan n f).pw = s.pw := rfl
@[simp] theorem onChan_te (n : Nat) (f : Chan → Chan) : (s.onChan n f).te = s.te := rfl
@[simp] theorem onChan_rtc (n : Nat) (f : Chan → Chan) : (s.onChan n f).rtc = s.rtc := rfl
@[simp] theorem onChan_hw (n : Nat) (f : Chan → Chan) : (s.onChan n f).hw = s.hw := rfl
@[simp] theorem onChan_se (n : Nat) (f : Chan → Chan) : (s.onChan n f).se = s.se := rfl
@[simp] theorem onChan_pr (n : Nat) (f : Chan → Chan) : (s.onChan n f).pr = s.pr := rfl
@[simp] theorem onChan_lk (n : Nat) (f : Chan → Chan) : (s.onChan n f).lk = s.lk := rfl
@[simp] theorem onChan_tp (n : Nat) (f : Chan → Chan) : (s.onChan n f).tp = s.tp := rfl
@[simp] theorem onChan_wd (n : Nat) (f : Chan → Chan) : (s.onChan n f).wd = s.wd := rfl
@[simp] theorem onChan_up (n : Nat) (f : Chan → Chan) : (s.onChan n f).up = s.up := rfl
@[simp] theorem onChan_tx (n : Nat) (f : Chan → Chan) : (s.onChan n f).tx = s.tx := rfl
@[simp] theorem onChan_nt (n : Nat) (f : Chan → Chan) : (s.onChan n f).nt = s.nt := rfl
@[simp] theorem onChan_hm (n : Nat) (f : Chan → Chan) : (s.onChan n f).hm = s.hm := rfl
@[simp] theorem onChan_ref (n : Nat) (f : Chan → Chan) : (s.onChan n f).ref = s.ref := rfl
@[simp] theorem onChan_chans (n : Nat) (f : Chan → Chan) : (s.onChan n f).chans = modAt s.chans n f := rfl
@[simp] theorem onChan_convs (n : Nat) (f : Chan → Chan) : (s.onChan n f).convs = s.convs := rfl
@[simp] theorem onChan_stands (n : Nat) (f : Chan → Chan) : (s.onChan n f).stands = s.stands := rfl
@[simp] theorem onChan_seqs (n : Nat) (f : Chan → Chan) : (s.onChan n f).seqs = s.seqs := rfl
@[simp] theorem onChan_filts (n : Nat) (f : Chan → Chan) : (s.onChan n f).filts = s.filts := rfl
@[simp] theorem onChan_insts (n : Nat) (f : Chan → Chan) : (s.onChan n f).insts = s.insts := rfl
@[simp] theorem onChan_hist (n : Nat) (f : Chan → Chan) : (s.onChan n f).hist = s.hist := rfl
@[simp] theorem onChan_wave (n : Nat) (f : Chan → Chan) : (s.onChan n f).wave = s.wave := rfl
@[simp] theorem onChan_qu (n : Nat) (f : Chan → Chan) : (s.onChan n f).qu = s.qu := rfl
@[simp] theorem onChan_units (n : Nat) (f : Chan → Chan) : (s.onChan n f).units = s.units := rfl
@[simp] theorem onChan_me (n : Nat) (f : Chan → Chan) : (s.onChan n f).me = s.me := rfl
@[simp] theorem onChan_pq (n : Nat) (f : Chan → Chan) : (s.onChan n f).pq = s.pq := rfl
@[simp] theorem onChan_pm (n : Nat) (f : Chan → Chan) : (s.onChan n f).pm = s.pm := rfl
@[simp] theorem onChan_clk (n : Nat) (f : Chan → Chan) : (s.onChan n f).clk = s.clk := rfl
@[simp] theorem onChan_free (n : Nat) (f : Chan → Chan) : (s.onChan n f).free = s.free := rfl
@[simp] theorem onChan_pending (n : Nat) (f : Chan → Chan) : (s.onChan n f).pending = s.pending := rfl

/-! ### `onConv` -/

@[simp] theorem onConv_pw (n : Nat) (f : Conv → Conv) : (s.onConv n f).pw = s.pw := rfl
@[simp] theorem onConv_te (n : Nat) (f : Conv → Conv) : (s.onConv n f).te = s.te := rfl
@[simp] theorem onConv_rtc (n : Nat) (f : Conv → Conv) : (s.onConv n f).rtc = s.rtc := rfl
@[simp] theorem onConv_hw (n : Nat) (f : Conv → Conv) : (s.onConv n f).hw = s.hw := rfl
@[simp] theorem onConv_se (n : Nat) (f : Conv → Conv) : (s.onConv n f).se = s.se := rfl
@[simp] theorem onConv_pr (n : Nat) (f : Conv → Conv) : (s.onConv n f).pr = s.pr := rfl
@[simp] theorem onConv_lk (n : Nat) (f : Conv → Conv) : (s.onConv n f).lk = s.lk := rfl
@[simp] theorem onConv_tp (n : Nat) (f : Conv → Conv) : (s.onConv n f).tp = s.tp := rfl
@[simp] theorem onConv_wd (n : Nat) (f : Conv → Conv) : (s.onConv n f).wd = s.wd := rfl
@[simp] theorem onConv_up (n : Nat) (f : Conv → Conv) : (s.onConv n f).up = s.up := rfl
@[simp] theorem onConv_tx (n : Nat) (f : Conv → Conv) : (s.onConv n f).tx = s.tx := rfl
@[simp] theorem onConv_nt (n : Nat) (f : Conv → Conv) : (s.onConv n f).nt = s.nt := rfl
@[simp] theorem onConv_hm (n : Nat) (f : Conv → Conv) : (s.onConv n f).hm = s.hm := rfl
@[simp] theorem onConv_ref (n : Nat) (f : Conv → Conv) : (s.onConv n f).ref = s.ref := rfl
@[simp] theorem onConv_chans (n : Nat) (f : Conv → Conv) : (s.onConv n f).chans = s.chans := rfl
@[simp] theorem onConv_convs (n : Nat) (f : Conv → Conv) : (s.onConv n f).convs = modAt s.convs n f := rfl
@[simp] theorem onConv_stands (n : Nat) (f : Conv → Conv) : (s.onConv n f).stands = s.stands := rfl
@[simp] theorem onConv_seqs (n : Nat) (f : Conv → Conv) : (s.onConv n f).seqs = s.seqs := rfl
@[simp] theorem onConv_filts (n : Nat) (f : Conv → Conv) : (s.onConv n f).filts = s.filts := rfl
@[simp] theorem onConv_insts (n : Nat) (f : Conv → Conv) : (s.onConv n f).insts = s.insts := rfl
@[simp] theorem onConv_hist (n : Nat) (f : Conv → Conv) : (s.onConv n f).hist = s.hist := rfl
@[simp] theorem onConv_wave (n : Nat) (f : Conv → Conv) : (s.onConv n f).wave = s.wave := rfl
@[simp] theorem onConv_qu (n : Nat) (f : Conv → Conv) : (s.onConv n f).qu = s.qu := rfl
@[simp] theorem onConv_units (n : Nat) (f : Conv → Conv) : (s.onConv n f).units = s.units := rfl
@[simp] theorem onConv_me (n : Nat) (f : Conv → Conv) : (s.onConv n f).me = s.me := rfl
@[simp] theorem onConv_pq (n : Nat) (f : Conv → Conv) : (s.onConv n f).pq = s.pq := rfl
@[simp] theorem onConv_pm (n : Nat) (f : Conv → Conv) : (s.onConv n f).pm = s.pm := rfl
@[simp] theorem onConv_clk (n : Nat) (f : Conv → Conv) : (s.onConv n f).clk = s.clk := rfl
@[simp] theorem onConv_free (n : Nat) (f : Conv → Conv) : (s.onConv n f).free = s.free := rfl
@[simp] theorem onConv_pending (n : Nat) (f : Conv → Conv) : (s.onConv n f).pending = s.pending := rfl

/-! ### `onStand` -/

@[simp] theorem onStand_pw (n : Nat) (f : Stand → Stand) : (s.onStand n f).pw = s.pw := rfl
@[simp] theorem onStand_te (n : Nat) (f : Stand → Stand) : (s.onStand n f).te = s.te := rfl
@[simp] theorem onStand_rtc (n : Nat) (f : Stand → Stand) : (s.onStand n f).rtc = s.rtc := rfl
@[simp] theorem onStand_hw (n : Nat) (f : Stand → Stand) : (s.onStand n f).hw = s.hw := rfl
@[simp] theorem onStand_se (n : Nat) (f : Stand → Stand) : (s.onStand n f).se = s.se := rfl
@[simp] theorem onStand_pr (n : Nat) (f : Stand → Stand) : (s.onStand n f).pr = s.pr := rfl
@[simp] theorem onStand_lk (n : Nat) (f : Stand → Stand) : (s.onStand n f).lk = s.lk := rfl
@[simp] theorem onStand_tp (n : Nat) (f : Stand → Stand) : (s.onStand n f).tp = s.tp := rfl
@[simp] theorem onStand_wd (n : Nat) (f : Stand → Stand) : (s.onStand n f).wd = s.wd := rfl
@[simp] theorem onStand_up (n : Nat) (f : Stand → Stand) : (s.onStand n f).up = s.up := rfl
@[simp] theorem onStand_tx (n : Nat) (f : Stand → Stand) : (s.onStand n f).tx = s.tx := rfl
@[simp] theorem onStand_nt (n : Nat) (f : Stand → Stand) : (s.onStand n f).nt = s.nt := rfl
@[simp] theorem onStand_hm (n : Nat) (f : Stand → Stand) : (s.onStand n f).hm = s.hm := rfl
@[simp] theorem onStand_ref (n : Nat) (f : Stand → Stand) : (s.onStand n f).ref = s.ref := rfl
@[simp] theorem onStand_chans (n : Nat) (f : Stand → Stand) : (s.onStand n f).chans = s.chans := rfl
@[simp] theorem onStand_convs (n : Nat) (f : Stand → Stand) : (s.onStand n f).convs = s.convs := rfl
@[simp] theorem onStand_stands (n : Nat) (f : Stand → Stand) : (s.onStand n f).stands = modAt s.stands n f := rfl
@[simp] theorem onStand_seqs (n : Nat) (f : Stand → Stand) : (s.onStand n f).seqs = s.seqs := rfl
@[simp] theorem onStand_filts (n : Nat) (f : Stand → Stand) : (s.onStand n f).filts = s.filts := rfl
@[simp] theorem onStand_insts (n : Nat) (f : Stand → Stand) : (s.onStand n f).insts = s.insts := rfl
@[simp] theorem onStand_hist (n : Nat) (f : Stand → Stand) : (s.onStand n f).hist = s.hist := rfl
@[simp] theorem onStand_wave (n : Nat) (f : Stand → Stand) : (s.onStand n f).wave = s.wave := rfl
@[simp] theorem onStand_qu (n : Nat) (f : Stand → Stand) : (s.onStand n f).qu = s.qu := rfl
@[simp] theorem onStand_units (n : Nat) (f : Stand → Stand) : (s.onStand n f).units = s.units := rfl
@[simp] theorem onStand_me (n : Nat) (f : Stand → Stand) : (s.onStand n f).me = s.me := rfl
@[simp] theorem onStand_pq (n : Nat) (f : Stand → Stand) : (s.onStand n f).pq = s.pq := rfl
@[simp] theorem onStand_pm (n : Nat) (f : Stand → Stand) : (s.onStand n f).pm = s.pm := rfl
@[simp] theorem onStand_clk (n : Nat) (f : Stand → Stand) : (s.onStand n f).clk = s.clk := rfl
@[simp] theorem onStand_free (n : Nat) (f : Stand → Stand) : (s.onStand n f).free = s.free := rfl
@[simp] theorem onStand_pending (n : Nat) (f : Stand → Stand) : (s.onStand n f).pending = s.pending := rfl

/-! ### `onSeq` -/

@[simp] theorem onSeq_pw (n : Nat) (f : Seq → Seq) : (s.onSeq n f).pw = s.pw := rfl
@[simp] theorem onSeq_te (n : Nat) (f : Seq → Seq) : (s.onSeq n f).te = s.te := rfl
@[simp] theorem onSeq_rtc (n : Nat) (f : Seq → Seq) : (s.onSeq n f).rtc = s.rtc := rfl
@[simp] theorem onSeq_hw (n : Nat) (f : Seq → Seq) : (s.onSeq n f).hw = s.hw := rfl
@[simp] theorem onSeq_se (n : Nat) (f : Seq → Seq) : (s.onSeq n f).se = s.se := rfl
@[simp] theorem onSeq_pr (n : Nat) (f : Seq → Seq) : (s.onSeq n f).pr = s.pr := rfl
@[simp] theorem onSeq_lk (n : Nat) (f : Seq → Seq) : (s.onSeq n f).lk = s.lk := rfl
@[simp] theorem onSeq_tp (n : Nat) (f : Seq → Seq) : (s.onSeq n f).tp = s.tp := rfl
@[simp] theorem onSeq_wd (n : Nat) (f : Seq → Seq) : (s.onSeq n f).wd = s.wd := rfl
@[simp] theorem onSeq_up (n : Nat) (f : Seq → Seq) : (s.onSeq n f).up = s.up := rfl
@[simp] theorem onSeq_tx (n : Nat) (f : Seq → Seq) : (s.onSeq n f).tx = s.tx := rfl
@[simp] theorem onSeq_nt (n : Nat) (f : Seq → Seq) : (s.onSeq n f).nt = s.nt := rfl
@[simp] theorem onSeq_hm (n : Nat) (f : Seq → Seq) : (s.onSeq n f).hm = s.hm := rfl
@[simp] theorem onSeq_ref (n : Nat) (f : Seq → Seq) : (s.onSeq n f).ref = s.ref := rfl
@[simp] theorem onSeq_chans (n : Nat) (f : Seq → Seq) : (s.onSeq n f).chans = s.chans := rfl
@[simp] theorem onSeq_convs (n : Nat) (f : Seq → Seq) : (s.onSeq n f).convs = s.convs := rfl
@[simp] theorem onSeq_stands (n : Nat) (f : Seq → Seq) : (s.onSeq n f).stands = s.stands := rfl
@[simp] theorem onSeq_seqs (n : Nat) (f : Seq → Seq) : (s.onSeq n f).seqs = modAt s.seqs n f := rfl
@[simp] theorem onSeq_filts (n : Nat) (f : Seq → Seq) : (s.onSeq n f).filts = s.filts := rfl
@[simp] theorem onSeq_insts (n : Nat) (f : Seq → Seq) : (s.onSeq n f).insts = s.insts := rfl
@[simp] theorem onSeq_hist (n : Nat) (f : Seq → Seq) : (s.onSeq n f).hist = s.hist := rfl
@[simp] theorem onSeq_wave (n : Nat) (f : Seq → Seq) : (s.onSeq n f).wave = s.wave := rfl
@[simp] theorem onSeq_qu (n : Nat) (f : Seq → Seq) : (s.onSeq n f).qu = s.qu := rfl
@[simp] theorem onSeq_units (n : Nat) (f : Seq → Seq) : (s.onSeq n f).units = s.units := rfl
@[simp] theorem onSeq_me (n : Nat) (f : Seq → Seq) : (s.onSeq n f).me = s.me := rfl
@[simp] theorem onSeq_pq (n : Nat) (f : Seq → Seq) : (s.onSeq n f).pq = s.pq := rfl
@[simp] theorem onSeq_pm (n : Nat) (f : Seq → Seq) : (s.onSeq n f).pm = s.pm := rfl
@[simp] theorem onSeq_clk (n : Nat) (f : Seq → Seq) : (s.onSeq n f).clk = s.clk := rfl
@[simp] theorem onSeq_free (n : Nat) (f : Seq → Seq) : (s.onSeq n f).free = s.free := rfl
@[simp] theorem onSeq_pending (n : Nat) (f : Seq → Seq) : (s.onSeq n f).pending = s.pending := rfl

/-! ### `onFilt` -/

@[simp] theorem onFilt_pw (n : Nat) (f : Filt → Filt) : (s.onFilt n f).pw = s.pw := rfl
@[simp] theorem onFilt_te (n : Nat) (f : Filt → Filt) : (s.onFilt n f).te = s.te := rfl
@[simp] theorem onFilt_rtc (n : Nat) (f : Filt → Filt) : (s.onFilt n f).rtc = s.rtc := rfl
@[simp] theorem onFilt_hw (n : Nat) (f : Filt → Filt) : (s.onFilt n f).hw = s.hw := rfl
@[simp] theorem onFilt_se (n : Nat) (f : Filt → Filt) : (s.onFilt n f).se = s.se := rfl
@[simp] theorem onFilt_pr (n : Nat) (f : Filt → Filt) : (s.onFilt n f).pr = s.pr := rfl
@[simp] theorem onFilt_lk (n : Nat) (f : Filt → Filt) : (s.onFilt n f).lk = s.lk := rfl
@[simp] theorem onFilt_tp (n : Nat) (f : Filt → Filt) : (s.onFilt n f).tp = s.tp := rfl
@[simp] theorem onFilt_wd (n : Nat) (f : Filt → Filt) : (s.onFilt n f).wd = s.wd := rfl
@[simp] theorem onFilt_up (n : Nat) (f : Filt → Filt) : (s.onFilt n f).up = s.up := rfl
@[simp] theorem onFilt_tx (n : Nat) (f : Filt → Filt) : (s.onFilt n f).tx = s.tx := rfl
@[simp] theorem onFilt_nt (n : Nat) (f : Filt → Filt) : (s.onFilt n f).nt = s.nt := rfl
@[simp] theorem onFilt_hm (n : Nat) (f : Filt → Filt) : (s.onFilt n f).hm = s.hm := rfl
@[simp] theorem onFilt_ref (n : Nat) (f : Filt → Filt) : (s.onFilt n f).ref = s.ref := rfl
@[simp] theorem onFilt_chans (n : Nat) (f : Filt → Filt) : (s.onFilt n f).chans = s.chans := rfl
@[simp] theorem onFilt_convs (n : Nat) (f : Filt → Filt) : (s.onFilt n f).convs = s.convs := rfl
@[simp] theorem onFilt_stands (n : Nat) (f : Filt → Filt) : (s.onFilt n f).stands = s.stands := rfl
@[simp] theorem onFilt_seqs (n : Nat) (f : Filt → Filt) : (s.onFilt n f).seqs = s.seqs := rfl
@[simp] theorem onFilt_filts (n : Nat) (f : Filt → Filt) : (s.onFilt n f).filts = modAt s.filts n f := rfl
@[simp] theorem onFilt_insts (n : Nat) (f : Filt → Filt) : (s.onFilt n f).insts = s.insts := rfl
@[simp] theorem onFilt_hist (n : Nat) (f : Filt → Filt) : (s.onFilt n f).hist = s.hist := rfl
@[simp] theorem onFilt_wave (n : Nat) (f : Filt → Filt) : (s.onFilt n f).wave = s.wave := rfl
@[simp] theorem onFilt_qu (n : Nat) (f : Filt → Filt) : (s.onFilt n f).qu = s.qu := rfl
@[simp] theorem onFilt_units (n : Nat) (f : Filt → Filt) : (s.onFilt n f).units = s.units := rfl
@[simp] theorem onFilt_me (n : Nat) (f : Filt → Filt) : (s.onFilt n f).me = s.me := rfl
@[simp] theorem onFilt_pq (n : Nat) (f : Filt → Filt) : (s.onFilt n f).pq = s.pq := rfl
@[simp] theorem onFilt_pm (n : Nat) (f : Filt → Filt) : (s.onFilt n f).pm = s.pm := rfl
@[simp] theorem onFilt_clk (n : Nat) (f : Filt → Filt) : (s.onFilt n f).clk = s.clk := rfl
@[simp] theorem onFilt_free (n : Nat) (f : Filt → Filt) : (s.onFilt n f).free = s.free := rfl
@[simp] theorem onFilt_pending (n : Nat) (f : Filt → Filt) : (s.onFilt n f).pending = s.pending := rfl

/-! ### `onInst` -/

@[simp] theorem onInst_pw (n : Nat) (f : Inst → Inst) : (s.onInst n f).pw = s.pw := rfl
@[simp] theorem onInst_te (n : Nat) (f : Inst → Inst) : (s.onInst n f).te = s.te := rfl
@[simp] theorem onInst_rtc (n : Nat) (f : Inst → Inst) : (s.onInst n f).rtc = s.rtc := rfl
@[simp] theorem onInst_hw (n : Nat) (f : Inst → Inst) : (s.onInst n f).hw = s.hw := rfl
@[simp] theorem onInst_se (n : Nat) (f : Inst → Inst) : (s.onInst n f).se = s.se := rfl
@[simp] theorem onInst_pr (n : Nat) (f : Inst → Inst) : (s.onInst n f).pr = s.pr := rfl
@[simp] theorem onInst_lk (n : Nat) (f : Inst → Inst) : (s.onInst n f).lk = s.lk := rfl
@[simp] theorem onInst_tp (n : Nat) (f : Inst → Inst) : (s.onInst n f).tp = s.tp := rfl
@[simp] theorem onInst_wd (n : Nat) (f : Inst → Inst) : (s.onInst n f).wd = s.wd := rfl
@[simp] theorem onInst_up (n : Nat) (f : Inst → Inst) : (s.onInst n f).up = s.up := rfl
@[simp] theorem onInst_tx (n : Nat) (f : Inst → Inst) : (s.onInst n f).tx = s.tx := rfl
@[simp] theorem onInst_nt (n : Nat) (f : Inst → Inst) : (s.onInst n f).nt = s.nt := rfl
@[simp] theorem onInst_hm (n : Nat) (f : Inst → Inst) : (s.onInst n f).hm = s.hm := rfl
@[simp] theorem onInst_ref (n : Nat) (f : Inst → Inst) : (s.onInst n f).ref = s.ref := rfl
@[simp] theorem onInst_chans (n : Nat) (f : Inst → Inst) : (s.onInst n f).chans = s.chans := rfl
@[simp] theorem onInst_convs (n : Nat) (f : Inst → Inst) : (s.onInst n f).convs = s.convs := rfl
@[simp] theorem onInst_stands (n : Nat) (f : Inst → Inst) : (s.onInst n f).stands = s.stands := rfl
@[simp] theorem onInst_seqs (n : Nat) (f : Inst → Inst) : (s.onInst n f).seqs = s.seqs := rfl
@[simp] theorem onInst_filts (n : Nat) (f : Inst → Inst) : (s.onInst n f).filts = s.filts := rfl
@[simp] theorem onInst_insts (n : Nat) (f : Inst → Inst) : (s.onInst n f).insts = modAt s.insts n f := rfl
@[simp] theorem onInst_hist (n : Nat) (f : Inst → Inst) : (s.onInst n f).hist = s.hist := rfl
@[simp] theorem onInst_wave (n : Nat) (f : Inst → Inst) : (s.onInst n f).wave = s.wave := rfl
@[simp] theorem onInst_qu (n : Nat) (f : Inst → Inst) : (s.onInst n f).qu = s.qu := rfl
@[simp] theorem onInst_units (n : Nat) (f : Inst → Inst) : (s.onInst n f).units = s.units := rfl
@[simp] theorem onInst_me (n : Nat) (f : Inst → Inst) : (s.onInst n f).me = s.me := rfl
@[simp] theorem onInst_pq (n : Nat) (f : Inst → Inst) : (s.onInst n f).pq = s.pq := rfl
@[simp] theorem onInst_pm (n : Nat) (f : Inst → Inst) : (s.onInst n f).pm = s.pm := rfl
@[simp] theorem onInst_clk (n : Nat) (f : Inst → Inst) : (s.onInst n f).clk = s.clk := rfl
@[simp] theorem onInst_free (n : Nat) (f : Inst → Inst) : (s.onInst n f).free = s.free := rfl
@[simp] theorem onInst_pending (n : Nat) (f : Inst → Inst) : (s.onInst n f).pending = s.pending := rfl

/-! ### `onUnit` -/

@[simp] theorem onUnit_pw (n : Nat) (f : CapUnit → CapUnit) : (s.onUnit n f).pw = s.pw := rfl
@[simp] theorem onUnit_te (n : Nat) (f : CapUnit → CapUnit) : (s.onUnit n f).te = s.te := rfl
@[simp] theorem onUnit_rtc (n : Nat) (f : CapUnit → CapUnit) : (s.onUnit n f).rtc = s.rtc := rfl
@[simp] theorem onUnit_hw (n : Nat) (f : CapUnit → CapUnit) : (s.onUnit n f).hw = s.hw := rfl
@[simp] theorem onUnit_se (n : Nat) (f : CapUnit → CapUnit) : (s.onUnit n f).se = s.se := rfl
@[simp] theorem onUnit_pr (n : Nat) (f : CapUnit → CapUnit) : (s.onUnit n f).pr = s.pr := rfl
@[simp] theorem onUnit_lk (n : Nat) (f : CapUnit → CapUnit) : (s.onUnit n f).lk = s.lk := rfl
@[simp] theorem onUnit_tp (n : Nat) (f : CapUnit → CapUnit) : (s.onUnit n f).tp = s.tp := rfl
@[simp] theorem onUnit_wd (n : Nat) (f : CapUnit → CapUnit) : (s.onUnit n f).wd = s.wd := rfl
@[simp] theorem onUnit_up (n : Nat) (f : CapUnit → CapUnit) : (s.onUnit n f).up = s.up := rfl
@[simp] theorem onUnit_tx (n : Nat) (f : CapUnit → CapUnit) : (s.onUnit n f).tx = s.tx := rfl
@[simp] theorem onUnit_nt (n : Nat) (f : CapUnit → CapUnit) : (s.onUnit n f).nt = s.nt := rfl
@[simp] theorem onUnit_hm (n : Nat) (f : CapUnit → CapUnit) : (s.onUnit n f).hm = s.hm := rfl
@[simp] theorem onUnit_ref (n : Nat) (f : CapUnit → CapUnit) : (s.onUnit n f).ref = s.ref := rfl
@[simp] theorem onUnit_chans (n : Nat) (f : CapUnit → CapUnit) : (s.onUnit n f).chans = s.chans := rfl
@[simp] theorem onUnit_convs (n : Nat) (f : CapUnit → CapUnit) : (s.onUnit n f).convs = s.convs := rfl
@[simp] theorem onUnit_stands (n : Nat) (f : CapUnit → CapUnit) : (s.onUnit n f).stands = s.stands := rfl
@[simp] theorem onUnit_seqs (n : Nat) (f : CapUnit → CapUnit) : (s.onUnit n f).seqs = s.seqs := rfl
@[simp] theorem onUnit_filts (n : Nat) (f : CapUnit → CapUnit) : (s.onUnit n f).filts = s.filts := rfl
@[simp] theorem onUnit_insts (n : Nat) (f : CapUnit → CapUnit) : (s.onUnit n f).insts = s.insts := rfl
@[simp] theorem onUnit_hist (n : Nat) (f : CapUnit → CapUnit) : (s.onUnit n f).hist = s.hist := rfl
@[simp] theorem onUnit_wave (n : Nat) (f : CapUnit → CapUnit) : (s.onUnit n f).wave = s.wave := rfl
@[simp] theorem onUnit_qu (n : Nat) (f : CapUnit → CapUnit) : (s.onUnit n f).qu = s.qu := rfl
@[simp] theorem onUnit_units (n : Nat) (f : CapUnit → CapUnit) : (s.onUnit n f).units = modAt s.units n f := rfl
@[simp] theorem onUnit_me (n : Nat) (f : CapUnit → CapUnit) : (s.onUnit n f).me = s.me := rfl
@[simp] theorem onUnit_pq (n : Nat) (f : CapUnit → CapUnit) : (s.onUnit n f).pq = s.pq := rfl
@[simp] theorem onUnit_pm (n : Nat) (f : CapUnit → CapUnit) : (s.onUnit n f).pm = s.pm := rfl
@[simp] theorem onUnit_clk (n : Nat) (f : CapUnit → CapUnit) : (s.onUnit n f).clk = s.clk := rfl
@[simp] theorem onUnit_free (n : Nat) (f : CapUnit → CapUnit) : (s.onUnit n f).free = s.free := rfl
@[simp] theorem onUnit_pending (n : Nat) (f : CapUnit → CapUnit) : (s.onUnit n f).pending = s.pending := rfl

/-! ### `drew` -/

@[simp] theorem drew_pw (n : Nat) : (s.drew n).pw = s.pw := rfl
@[simp] theorem drew_te (n : Nat) : (s.drew n).te = s.te := rfl
@[simp] theorem drew_rtc (n : Nat) : (s.drew n).rtc = s.rtc := rfl
@[simp] theorem drew_hw (n : Nat) : (s.drew n).hw = s.hw := rfl
@[simp] theorem drew_se (n : Nat) : (s.drew n).se = s.se := rfl
@[simp] theorem drew_pr (n : Nat) : (s.drew n).pr = s.pr := rfl
@[simp] theorem drew_lk (n : Nat) : (s.drew n).lk = s.lk := rfl
@[simp] theorem drew_tp (n : Nat) : (s.drew n).tp = s.tp := rfl
@[simp] theorem drew_wd (n : Nat) : (s.drew n).wd = s.wd := rfl
@[simp] theorem drew_up (n : Nat) : (s.drew n).up = s.up := rfl
@[simp] theorem drew_tx (n : Nat) : (s.drew n).tx = s.tx := rfl
@[simp] theorem drew_nt (n : Nat) : (s.drew n).nt = s.nt := rfl
@[simp] theorem drew_hm (n : Nat) : (s.drew n).hm = s.hm := rfl
@[simp] theorem drew_ref (n : Nat) : (s.drew n).ref = s.ref := rfl
@[simp] theorem drew_chans (n : Nat) : (s.drew n).chans = s.chans := rfl
@[simp] theorem drew_convs (n : Nat) : (s.drew n).convs = s.convs := rfl
@[simp] theorem drew_stands (n : Nat) : (s.drew n).stands = s.stands := rfl
@[simp] theorem drew_seqs (n : Nat) : (s.drew n).seqs = s.seqs := rfl
@[simp] theorem drew_filts (n : Nat) : (s.drew n).filts = s.filts := rfl
@[simp] theorem drew_insts (n : Nat) : (s.drew n).insts = s.insts := rfl
@[simp] theorem drew_hist (n : Nat) : (s.drew n).hist = s.hist := rfl
@[simp] theorem drew_wave (n : Nat) : (s.drew n).wave = s.wave := rfl
@[simp] theorem drew_qu (n : Nat) : (s.drew n).qu = s.qu := rfl
@[simp] theorem drew_units (n : Nat) : (s.drew n).units = s.units := rfl
@[simp] theorem drew_me (n : Nat) : (s.drew n).me = s.me := rfl
@[simp] theorem drew_pq (n : Nat) : (s.drew n).pq = s.pq := rfl
@[simp] theorem drew_pm (n : Nat) : (s.drew n).pm = s.pm := rfl
@[simp] theorem drew_clk (n : Nat) : (s.drew n).clk = s.clk := rfl
@[simp] theorem drew_free (n : Nat) : (s.drew n).free = s.free + n := rfl
@[simp] theorem drew_pending (n : Nat) : (s.drew n).pending = s.pending := rfl

end Sys2Proof.Machine
end

