-- ==== Sys2Proof/Laws/Store.lean ====
section
/-! SUPPORT. The Heartwood array: a write keeps the canonical form, puts its bytes in place and leaves every other
byte; the bytes of a number give it back. -/

namespace Sys2Proof.Machine

theorem memWfFrom_mono : ∀ {m : List Host.Cell} {lo lo' : Nat}, lo' ≤ lo → memWfFrom lo m = true → memWfFrom lo' m = true
  | [], _, _, _, _ => rfl
  | (a, b) :: r, lo, lo', hl, h => by
    simp only [memWfFrom, Bool.and_eq_true, decide_eq_true_eq] at h ⊢
    exact ⟨⟨⟨by omega, h.1.1.2⟩, h.1.2⟩, h.2⟩

/-- The part above a bound of a canonical list is canonical from that bound. -/
theorem memWfFrom_above : ∀ {m : List Host.Cell} {lo : Nat} (b : Nat), memWfFrom lo m = true →
    memWfFrom b (m.filter fun c => decide (b ≤ c.1)) = true
  | [], _, _, _ => rfl
  | (a, x) :: r, lo, b, h => by
    simp only [memWfFrom, Bool.and_eq_true, decide_eq_true_eq] at h
    have ih := memWfFrom_above b h.2
    simp only [List.filter_cons]
    split
    · rename_i hb
      simp only [decide_eq_true_eq] at hb
      simp only [memWfFrom, Bool.and_eq_true, decide_eq_true_eq]
      have e : (r.filter fun c => decide (b ≤ c.1)) = r.filter fun c => decide (a + 1 ≤ c.1) := by
        have hr : ∀ c ∈ r, a + 1 ≤ c.1 := memWfFrom_low h.2
        apply List.filter_congr
        intro c hc
        have := hr c hc
        simp only [decide_eq_decide]
        omega
      rw [e]
      exact ⟨⟨⟨hb, h.1.1.2⟩, h.1.2⟩, memWfFrom_above (a + 1) h.2⟩
    · exact ih
where
  memWfFrom_low : ∀ {m : List Host.Cell} {lo : Nat}, memWfFrom lo m = true → ∀ c ∈ m, lo ≤ c.1
    | [], _, _, _, hc => by cases hc
    | (a, x) :: r, lo, h, c, hc => by
      simp only [memWfFrom, Bool.and_eq_true, decide_eq_true_eq] at h
      cases hc with
      | head => exact h.1.1.1
      | tail _ hc => have := memWfFrom_low h.2 c hc; omega

/-- Cells laid from an address on, followed by a canonical rest above them, are canonical. -/
theorem memWfFrom_cells : ∀ (bs : List Byte) (a : Nat) (r : List Host.Cell), memWfFrom (a + bs.length) r = true →
    memWfFrom a (cellsOf a bs ++ r) = true
  | [], a, r, h => by simpa [cellsOf] using h
  | b :: bs, a, r, h => by
    have ih := memWfFrom_cells bs (a + 1) r (by simpa [Nat.add_assoc, Nat.add_comm 1] using h)
    simp only [cellsOf]
    split
    · rename_i hb
      simp only [List.cons_append, memWfFrom, Bool.and_eq_true, decide_eq_true_eq]
      exact ⟨⟨⟨Nat.le_refl a, hb.1⟩, hb.2⟩, ih⟩
    · exact memWfFrom_mono (by omega) ih

/-- A canonical list below a bound, followed by a list canonical from that bound, is canonical. -/
theorem memWfFrom_append : ∀ {m : List Host.Cell} {lo : Nat} (b : Nat) (r : List Host.Cell), memWfFrom lo m = true →
    lo ≤ b → memWfFrom b r = true → memWfFrom lo (m.filter (fun c => decide (c.1 < b)) ++ r) = true
  | [], _, b, r, _, hl, hr => by simpa using memWfFrom_mono hl hr
  | (a, x) :: m, lo, b, r, h, hl, hr => by
    simp only [memWfFrom, Bool.and_eq_true, decide_eq_true_eq] at h
    simp only [List.filter_cons]
    split
    · rename_i hb
      simp only [decide_eq_true_eq] at hb
      simp only [List.cons_append, memWfFrom, Bool.and_eq_true, decide_eq_true_eq]
      exact ⟨h.1, memWfFrom_append b r h.2 hb hr⟩
    · exact memWfFrom_append b r (memWfFrom_mono (by omega) h.2) hl hr

/-- A write keeps the canonical form (R338). -/
theorem wrBytes_wf {m : List Host.Cell} (a : Nat) (bs : List Byte) (h : memWf m = true) : memWf (wrBytes m a bs) = true := by
  unfold wrBytes memWf at *
  rw [List.append_assoc]
  exact memWfFrom_append a _ h (Nat.zero_le a) (memWfFrom_cells bs a _ (memWfFrom_above _ h))

theorem lookup_step (k a : Nat) (b : Byte) (r : List Host.Cell) :
    List.lookup k ((a, b) :: r) = if k = a then some b else List.lookup k r := by
  rw [List.lookup_cons]
  by_cases h : k = a
  · subst h; simp
  · have : (k == a) = false := by simp [h]
    simp [this, h]

theorem lookup_filter_of {p : Nat → Bool} {a : Nat} (h : p a = true) : ∀ m : List Host.Cell,
    (m.filter fun c => p c.1).lookup a = m.lookup a
  | [] => rfl
  | (x, b) :: r => by
    have ih := lookup_filter_of h r
    rw [lookup_step, List.filter_cons]
    by_cases hc : a = x
    · subst hc; simp only [h, if_true]; rw [lookup_step]; simp
    · simp only [hc, if_false]
      split
      · rw [lookup_step]; simp only [hc, if_false]; exact ih
      · exact ih

theorem lookup_filter_not {p : Nat → Bool} {a : Nat} (h : p a = false) : ∀ m : List Host.Cell,
    (m.filter fun c => p c.1).lookup a = none
  | [] => rfl
  | (x, b) :: r => by
    have ih := lookup_filter_not h r
    rw [List.filter_cons]
    split
    · rename_i hc
      have hx : a ≠ x := by rintro rfl; simp [h] at hc
      rw [lookup_step]; simp only [hx, if_false]; exact ih
    · exact ih

theorem lookup_append_none {a : Nat} {r : List Host.Cell} : ∀ {m : List Host.Cell}, m.lookup a = none →
    (m ++ r).lookup a = r.lookup a
  | [], _ => rfl
  | (x, b) :: m, h => by
    rw [lookup_step] at h
    split at h
    · cases h
    · rename_i hx
      rw [List.cons_append, lookup_step]; simp only [hx, if_false]; exact lookup_append_none h

theorem lookup_append_some {a : Nat} {b : Byte} {r : List Host.Cell} : ∀ {m : List Host.Cell}, m.lookup a = some b →
    (m ++ r).lookup a = some b
  | [], h => by cases h
  | (x, y) :: m, h => by
    rw [lookup_step] at h
    rw [List.cons_append, lookup_step]
    split at h
    · rename_i hx; simp only [hx, if_true]; exact h
    · rename_i hx; simp only [hx, if_false]; exact lookup_append_some h

theorem cellsOf_lookup_out : ∀ (bs : List Byte) (a k : Nat), (k < a ∨ a + bs.length ≤ k) → (cellsOf a bs).lookup k = none
  | [], _, _, _ => rfl
  | b :: bs, a, k, h => by
    simp only [List.length_cons] at h
    have ih := cellsOf_lookup_out bs (a + 1) k (by omega)
    unfold cellsOf
    split
    · rw [lookup_step, if_neg (by omega)]; exact ih
    · exact ih

theorem cellsOf_lookup_in : ∀ (bs : List Byte) (a i : Nat), i < bs.length → a + i < storeSize →
    ((cellsOf a bs).lookup (a + i)).getD 0 = bs.getD i 0
  | [], _, _, h, _ => by cases h
  | b :: bs, a, 0, _, hs => by
    unfold cellsOf
    simp only [Nat.add_zero] at hs ⊢
    split
    · rw [lookup_step, if_pos rfl]; rfl
    · rename_i hb
      have : b = 0 := by
        by_contra hne; exact hb ⟨hs, hne⟩
      rw [cellsOf_lookup_out bs (a + 1) a (Or.inl (by omega)), this]; rfl
  | b :: bs, a, i + 1, h, hs => by
    have ih := cellsOf_lookup_in bs (a + 1) i (by simpa using h) (by omega)
    have hk : a + (i + 1) = a + 1 + i := by omega
    unfold cellsOf
    rw [hk]
    split
    · rw [lookup_step, if_neg (by omega)]; simpa using ih
    · simpa using ih

/-- Every byte outside those written is as it was (R338). -/
theorem rdByte_wrBytes_out {m : List Host.Cell} {a k : Nat} (bs : List Byte) (h : k < a ∨ a + bs.length ≤ k) :
    rdByte (wrBytes m a bs) k = rdByte m k := by
  unfold rdByte wrBytes
  rw [List.append_assoc]
  rcases h with h | h
  · have e := lookup_filter_of (p := fun x => decide (x < a)) (a := k) (by simp [h]) m
    cases hm : m.lookup k with
    | some b => rw [hm] at e; rw [lookup_append_some e]
    | none =>
      rw [hm] at e
      rw [lookup_append_none e, lookup_append_none (cellsOf_lookup_out bs a k (Or.inl h)),
        lookup_filter_not (p := fun x => decide (a + bs.length ≤ x)) (by simp; omega) m]
  · rw [lookup_append_none (lookup_filter_not (p := fun x => decide (x < a)) (by simp; omega) m),
      lookup_append_none (cellsOf_lookup_out bs a k (Or.inr h)),
      lookup_filter_of (p := fun x => decide (a + bs.length ≤ x)) (by simp [h]) m]

/-- A byte written inside the array reads back (R338). -/
theorem rdByte_wrBytes_in {m : List Host.Cell} {a i : Nat} (bs : List Byte) (h : i < bs.length) (hs : a + i < storeSize) :
    rdByte (wrBytes m a bs) (a + i) = bs.getD i 0 := by
  unfold rdByte wrBytes
  rw [List.append_assoc, lookup_append_none (lookup_filter_not (p := fun x => decide (x < a)) (by simp) m)]
  have e := cellsOf_lookup_in bs a i h hs
  cases hc : (cellsOf a bs).lookup (a + i) with
  | some b => rw [lookup_append_some hc]; rw [hc] at e; exact e
  | none =>
    rw [lookup_append_none hc, lookup_filter_not (p := fun x => decide (a + bs.length ≤ x)) (by simp; omega) m]
    rw [hc] at e; exact e

/-- Bytes written inside the array read back. -/
theorem rdBytes_wrBytes {m : List Host.Cell} {a : Nat} (bs : List Byte) (hs : a + bs.length ≤ storeSize) :
    rdBytes (wrBytes m a bs) a bs.length = bs := by
  unfold rdBytes
  apply List.ext_getElem
  · simp
  · intro i h1 h2
    simp only [List.getElem_map, List.getElem_range]
    rw [rdByte_wrBytes_in bs h2 (by omega)]
    simp [List.getD_eq_getElem?_getD, List.getElem?_eq_getElem h2]

/-! ### Writes with their torn bits (R339, R354) -/

/-- A torn bit lies in page 0: no other byte changes with it (R342). -/
theorem rdByte_markTorn {m : List Host.Cell} {p k : Nat} (on : Bool) (hp : p < 2048) (hk : 256 ≤ k) :
    rdByte (markTorn m p on) k = rdByte m k := by
  unfold markTorn
  split
  · rfl
  · exact rdByte_wrBytes_out _ (Or.inr (by simp; omega))

theorem markTorn_wf {m : List Host.Cell} (p : Nat) (on : Bool) (h : memWf m = true) : memWf (markTorn m p on) = true := by
  unfold markTorn
  split
  · exact h
  · exact wrBytes_wf _ _ h

/-- A write to one page touches the Heartwood engine alone. -/
theorem wrPage_frame (s : State) (ps : List (Nat × List Byte)) : s.wrPage ps = { s with hw := (s.wrPage ps).hw } := rfl

theorem wrPage_mem (s : State) (e : Nat × List Byte) :
    (s.wrPage [e]).hw.mem = markTorn (wrBytes s.hw.mem e.1 e.2) (e.1 / 256) false := rfl

theorem wrPage_wf {s : State} (ps : List (Nat × List Byte)) (h : memWf s.hw.mem = true) : memWf (s.wrPage ps).hw.mem = true := by
  have e : ∀ (l : List (Nat × List Byte)) (m : List Host.Cell), memWf m = true →
      memWf (l.foldl (fun m e => wrBytes m e.1 e.2) m) = true := by
    intro l
    induction l with
    | nil => exact fun m h => h
    | cons a l ih => exact fun m h => ih _ (wrBytes_wf _ _ h)
  exact markTorn_wf _ _ (e ps _ h)

/-- What holds of a state and is kept by every write to one page holds after a write. -/
theorem wr_keeps {P : State → Prop} (hP : ∀ x ps, P x → P (State.wrPage x ps)) {s : State} (a : Nat) (bs : List Byte) (h : P s) :
    P (s.wr a bs) := by
  have e : ∀ (l : List (Nat × List Byte)) (x : State), P x → P (l.foldl (fun x e => x.wrPage [e]) x) := by
    intro l
    induction l with
    | nil => exact fun x h => h
    | cons a l ih => exact fun x h => ih _ (hP x [a] h)
  exact e _ _ h

/-- A write touches the Heartwood engine alone. -/
theorem wr_frame (s : State) (a : Nat) (bs : List Byte) : s.wr a bs = { s with hw := (s.wr a bs).hw } :=
  wr_keeps (P := fun x => x = { s with hw := x.hw }) (fun x ps h => by rw [wrPage_frame x ps]; rw [h]) a bs rfl

theorem wr_wf {s : State} (a : Nat) (bs : List Byte) (h : memWf s.hw.mem = true) : memWf (s.wr a bs).hw.mem = true :=
  wr_keeps (P := fun x => memWf x.hw.mem = true) (fun _ ps h => wrPage_wf ps h) a bs h

/-- The parts of a write, one a page. -/
theorem pageParts_mem {a : Nat} {bs : List Byte} {e : Nat × List Byte} (h : e ∈ pageParts a bs) :
    a ≤ e.1 ∧ e.1 + e.2.length ≤ a + bs.length ∧ (e.1 < a + bs.length ∨ e.1 = a ∧ a % 256 ≠ 0) := by
  unfold pageParts at h
  obtain ⟨k, hk, rfl⟩ := List.mem_map.1 h
  have hk := List.mem_range.1 hk
  by_cases h0 : k = 0
  · subst h0
    simp
    omega
  · simp [h0]
    omega

/-- Bytes outside those written, the torn-page bitmap apart, are as they were (R338, R354). -/
theorem wr_out {s : State} {a k : Nat} {bs : List Byte} (hs : a + bs.length ≤ storeSize) (hk : 256 ≤ k)
    (h : k < a ∨ a + bs.length ≤ k) : rdByte (s.wr a bs).hw.mem k = rdByte s.hw.mem k := by
  have e : ∀ (l : List (Nat × List Byte)) (x : State), (∀ e ∈ l, e ∈ pageParts a bs) →
      rdByte (l.foldl (fun x e => x.wrPage [e]) x).hw.mem k = rdByte x.hw.mem k := by
    intro l
    induction l with
    | nil => exact fun x _ => rfl
    | cons b l ih =>
      intro x hl
      obtain ⟨h1, h2, h3⟩ := pageParts_mem (hl b (List.mem_cons_self ..))
      rw [List.foldl_cons, ih _ fun e he => hl e (List.mem_cons_of_mem _ he), wrPage_mem]
      have hsz : storeSize = 524288 := rfl
      rw [rdByte_markTorn false (by omega) hk, rdByte_wrBytes_out _ (by omega)]
  exact e _ s fun _ h => h

/-- Bytes written outside page 0 read back (R338). -/
theorem wr_in {s : State} {a i : Nat} {bs : List Byte} (h : i < bs.length) (hs : a + bs.length ≤ storeSize) (ha : 256 ≤ a) :
    rdByte (s.wr a bs).hw.mem (a + i) = bs.getD i 0 := by
  have hsz : storeSize = 524288 := rfl
  have e : ∀ n, n ≤ (a % 256 + bs.length + 255) / 256 → ∀ i, i < bs.length → i + a % 256 < 256 * n →
      rdByte (((List.range n).map fun k =>
        if k == 0 then (a, bs.take (256 - a % 256)) else (a + 256 * k - a % 256, (bs.drop (256 * k - a % 256)).take 256)).foldl
          (fun (x : State) e => x.wrPage [e]) s).hw.mem (a + i) = bs.getD i 0 := by
    intro n
    induction n with
    | zero => intro _ i _ h; omega
    | succ n ih =>
      intro hn i hi hlt
      rw [List.range_succ, List.map_append, List.foldl_append]
      simp only [List.map_cons, List.map_nil, List.foldl_cons, List.foldl_nil]
      rw [wrPage_mem]
      by_cases h0 : n = 0
      · subst h0
        simp only [BEq.rfl, if_true]
        rw [rdByte_markTorn false (by omega) (by omega)]
        rw [rdByte_wrBytes_in _ (by simp; omega) (by omega)]
        simp only [List.getD_eq_getElem?_getD, List.getElem?_take]
        rw [if_pos (by omega)]
      · have hb : (n == 0) = false := by simpa using h0
        simp only [hb, if_false, Bool.false_eq_true]
        rw [rdByte_markTorn false (by omega) (by omega)]
        by_cases hc : i + a % 256 < 256 * n
        · rw [rdByte_wrBytes_out _ (by left; omega)]
          exact ih (by omega) i hi hc
        · have e1 : a + i = a + 256 * n - a % 256 + (i + a % 256 - 256 * n) := by omega
          rw [e1, rdByte_wrBytes_in _ (by simp; omega) (by omega)]
          simp only [List.getD_eq_getElem?_getD, List.getElem?_take, List.getElem?_drop]
          rw [if_pos (by omega)]
          congr 2
          omega
  exact e _ (Nat.le_refl _) i h (by omega)

/-- The bytes of a number give it back. -/
theorem leVal_le (k v : Nat) : leVal (le k v) = v % 256 ^ k := by
  induction k generalizing v with
  | zero => simp [le, leVal, Nat.mod_one]
  | succ k ih =>
    have e : v % 256 ^ (k + 1) = v % 256 + 256 * (v / 256 % 256 ^ k) := by rw [← Nat.mod_mul, Nat.mul_comm, Nat.pow_succ]
    rw [le, leVal, ih, BitVec.toNat_ofNat, e]

end Sys2Proof.Machine
end

