-- ==== Sys2Proof/Laws/Changes.lean ====
section
/-! SUPPORT. Which parts of the state an operation may change: one statement form, and its rules for updates of one subsystem,
choices and folds. -/

namespace Sys2Proof.Machine

/-- A part of the state, by the field that holds it. -/
inductive Part where
  | pw
  | te
  | rtc
  | hw
  | se
  | pr
  | lk
  | tp
  | wd
  | up
  | tx
  | nt
  | hm
  | ref
  | chans
  | convs
  | stands
  | seqs
  | filts
  | insts
  | hist
  | wave
  | qu
  | units
  | me
  | pq
  | pm
  | clk
  | free
  | pending
deriving DecidableEq, Repr

/-- Two states agree in a part. -/
def Part.same : Part → State → State → Prop
  | .pw, s, t => t.pw = s.pw
  | .te, s, t => t.te = s.te
  | .rtc, s, t => t.rtc = s.rtc
  | .hw, s, t => t.hw = s.hw
  | .se, s, t => t.se = s.se
  | .pr, s, t => t.pr = s.pr
  | .lk, s, t => t.lk = s.lk
  | .tp, s, t => t.tp = s.tp
  | .wd, s, t => t.wd = s.wd
  | .up, s, t => t.up = s.up
  | .tx, s, t => t.tx = s.tx
  | .nt, s, t => t.nt = s.nt
  | .hm, s, t => t.hm = s.hm
  | .ref, s, t => t.ref = s.ref
  | .chans, s, t => t.chans = s.chans
  | .convs, s, t => t.convs = s.convs
  | .stands, s, t => t.stands = s.stands
  | .seqs, s, t => t.seqs = s.seqs
  | .filts, s, t => t.filts = s.filts
  | .insts, s, t => t.insts = s.insts
  | .hist, s, t => t.hist = s.hist
  | .wave, s, t => t.wave = s.wave
  | .qu, s, t => t.qu = s.qu
  | .units, s, t => t.units = s.units
  | .me, s, t => t.me = s.me
  | .pq, s, t => t.pq = s.pq
  | .pm, s, t => t.pm = s.pm
  | .clk, s, t => t.clk = s.clk
  | .free, s, t => t.free = s.free
  | .pending, s, t => t.pending = s.pending

/-- From `s` to `t` nothing changes outside the parts `q`. -/
structure Changes (q : List Part) (s t : State) : Prop where
  keeps : ∀ p, p ∉ q → p.same s t

/-- Every part of one list is in the other. -/
def within (a b : List Part) : Bool := a.all (b.contains ·)

theorem wt {a b q : List Part} (h : within b q = true) (hab : within a b = true := by rfl) : within a q = true := by
  simp only [within, List.all_eq_true] at *
  intro p hp
  exact h p (by simpa using hab p hp)

theorem Changes.refl (q : List Part) (s : State) : Changes q s s := ⟨fun p _ => by cases p <;> rfl⟩

theorem Changes.trans {q : List Part} {s t u : State} (h : Changes q s t) (g : Changes q t u) : Changes q s u := ⟨fun p hp => by
  have a := h.keeps p hp
  have b := g.keeps p hp
  cases p <;> exact b.trans a⟩

theorem Changes.mono {a q : List Part} {s t : State} (h : Changes a s t) (hs : within a q = true) : Changes q s t :=
  ⟨fun p hp => h.keeps p fun ha => hp (by simpa using List.all_eq_true.mp hs p ha)⟩

/-- What an operation does to a state reached within `q` stays within `q`. -/
theorem Changes.op {a q : List Part} {z s t : State} (H : Changes q z s) (hs : within a q = true) (h : Changes a s t) :
    Changes q z t := H.trans (h.mono hs)

theorem Changes.pw {q : List Part} {s t : State} (h : Changes q s t) (hq : q.contains .pw = false) : t.pw = s.pw :=
  h.keeps .pw (by simpa using hq)
theorem Changes.te {q : List Part} {s t : State} (h : Changes q s t) (hq : q.contains .te = false) : t.te = s.te :=
  h.keeps .te (by simpa using hq)
theorem Changes.rtc {q : List Part} {s t : State} (h : Changes q s t) (hq : q.contains .rtc = false) : t.rtc = s.rtc :=
  h.keeps .rtc (by simpa using hq)
theorem Changes.hw {q : List Part} {s t : State} (h : Changes q s t) (hq : q.contains .hw = false) : t.hw = s.hw :=
  h.keeps .hw (by simpa using hq)
theorem Changes.se {q : List Part} {s t : State} (h : Changes q s t) (hq : q.contains .se = false) : t.se = s.se :=
  h.keeps .se (by simpa using hq)
theorem Changes.pr {q : List Part} {s t : State} (h : Changes q s t) (hq : q.contains .pr = false) : t.pr = s.pr :=
  h.keeps .pr (by simpa using hq)
theorem Changes.lk {q : List Part} {s t : State} (h : Changes q s t) (hq : q.contains .lk = false) : t.lk = s.lk :=
  h.keeps .lk (by simpa using hq)
theorem Changes.tp {q : List Part} {s t : State} (h : Changes q s t) (hq : q.contains .tp = false) : t.tp = s.tp :=
  h.keeps .tp (by simpa using hq)
theorem Changes.wd {q : List Part} {s t : State} (h : Changes q s t) (hq : q.contains .wd = false) : t.wd = s.wd :=
  h.keeps .wd (by simpa using hq)
theorem Changes.up {q : List Part} {s t : State} (h : Changes q s t) (hq : q.contains .up = false) : t.up = s.up :=
  h.keeps .up (by simpa using hq)
theorem Changes.tx {q : List Part} {s t : State} (h : Changes q s t) (hq : q.contains .tx = false) : t.tx = s.tx :=
  h.keeps .tx (by simpa using hq)
theorem Changes.nt {q : List Part} {s t : State} (h : Changes q s t) (hq : q.contains .nt = false) : t.nt = s.nt :=
  h.keeps .nt (by simpa using hq)
theorem Changes.hm {q : List Part} {s t : State} (h : Changes q s t) (hq : q.contains .hm = false) : t.hm = s.hm :=
  h.keeps .hm (by simpa using hq)
theorem Changes.ref {q : List Part} {s t : State} (h : Changes q s t) (hq : q.contains .ref = false) : t.ref = s.ref :=
  h.keeps .ref (by simpa using hq)
theorem Changes.chans {q : List Part} {s t : State} (h : Changes q s t) (hq : q.contains .chans = false) : t.chans = s.chans :=
  h.keeps .chans (by simpa using hq)
theorem Changes.convs {q : List Part} {s t : State} (h : Changes q s t) (hq : q.contains .convs = false) : t.convs = s.convs :=
  h.keeps .convs (by simpa using hq)
theorem Changes.stands {q : List Part} {s t : State} (h : Changes q s t) (hq : q.contains .stands = false) : t.stands = s.stands :=
  h.keeps .stands (by simpa using hq)
theorem Changes.seqs {q : List Part} {s t : State} (h : Changes q s t) (hq : q.contains .seqs = false) : t.seqs = s.seqs :=
  h.keeps .seqs (by simpa using hq)
theorem Changes.filts {q : List Part} {s t : State} (h : Changes q s t) (hq : q.contains .filts = false) : t.filts = s.filts :=
  h.keeps .filts (by simpa using hq)
theorem Changes.insts {q : List Part} {s t : State} (h : Changes q s t) (hq : q.contains .insts = false) : t.insts = s.insts :=
  h.keeps .insts (by simpa using hq)
theorem Changes.hist {q : List Part} {s t : State} (h : Changes q s t) (hq : q.contains .hist = false) : t.hist = s.hist :=
  h.keeps .hist (by simpa using hq)
theorem Changes.wave {q : List Part} {s t : State} (h : Changes q s t) (hq : q.contains .wave = false) : t.wave = s.wave :=
  h.keeps .wave (by simpa using hq)
theorem Changes.qu {q : List Part} {s t : State} (h : Changes q s t) (hq : q.contains .qu = false) : t.qu = s.qu :=
  h.keeps .qu (by simpa using hq)
theorem Changes.units {q : List Part} {s t : State} (h : Changes q s t) (hq : q.contains .units = false) : t.units = s.units :=
  h.keeps .units (by simpa using hq)
theorem Changes.me {q : List Part} {s t : State} (h : Changes q s t) (hq : q.contains .me = false) : t.me = s.me :=
  h.keeps .me (by simpa using hq)
theorem Changes.pq {q : List Part} {s t : State} (h : Changes q s t) (hq : q.contains .pq = false) : t.pq = s.pq :=
  h.keeps .pq (by simpa using hq)
theorem Changes.pm {q : List Part} {s t : State} (h : Changes q s t) (hq : q.contains .pm = false) : t.pm = s.pm :=
  h.keeps .pm (by simpa using hq)
theorem Changes.clk {q : List Part} {s t : State} (h : Changes q s t) (hq : q.contains .clk = false) : t.clk = s.clk :=
  h.keeps .clk (by simpa using hq)
theorem Changes.free {q : List Part} {s t : State} (h : Changes q s t) (hq : q.contains .free = false) : t.free = s.free :=
  h.keeps .free (by simpa using hq)
theorem Changes.pending {q : List Part} {s t : State} (h : Changes q s t) (hq : q.contains .pending = false) : t.pending = s.pending :=
  h.keeps .pending (by simpa using hq)

theorem ch_ite {q : List Part} {z : State} {c : Prop} [Decidable c] {a b : State} (ha : c → Changes q z a)
    (hb : ¬c → Changes q z b) : Changes q z (if c then a else b) := by
  split
  · exact ha ‹_›
  · exact hb ‹_›

theorem ch_foldl {q : List Part} {z : State} {α : Type} {f : State → α → State} {l : List α} {s : State}
    (hf : ∀ s a, Changes q z s → Changes q z (f s a)) (H : Changes q z s) : Changes q z (l.foldl f s) := by
  induction l generalizing s with
  | nil => exact H
  | cons a l ih => exact ih (hf s a H)

theorem ch_foldl_fst {q : List Part} {z : State} {α β : Type} {f : State × β → α → State × β} {l : List α} {p : State × β}
    (hf : ∀ p a, Changes q z p.1 → Changes q z (f p a).1) (H : Changes q z p.1) : Changes q z (l.foldl f p).1 := by
  induction l generalizing p with
  | nil => exact H
  | cons a l ih => exact ih (hf p a H)

theorem ch_elim {q : List Part} {z s : State} {α : Type} {o : Option α} {f : α → State} (H : Changes q z s)
    (hf : ∀ a, Changes q z (f a)) : Changes q z (o.elim s f) := by
  cases o with
  | none => exact H
  | some a => exact hf a

/-- A record written out whole changes the parts in which it differs. -/
theorem ch_of {q : List Part} {z s t : State} (H : Changes q z s) (h : Changes q s t) : Changes q z t := H.trans h

theorem onPw_ch {q : List Part} {z s : State} {f : Power → Power} (H : Changes q z s) (hq : within [.pw] q = true) :
    Changes q z (s.onPw f) :=
  H.op hq ⟨fun p hp => by cases p <;> first | rfl | simp at hp⟩
theorem onTe_ch {q : List Part} {z s : State} {f : TimeEng → TimeEng} (H : Changes q z s) (hq : within [.te] q = true) :
    Changes q z (s.onTe f) :=
  H.op hq ⟨fun p hp => by cases p <;> first | rfl | simp at hp⟩
theorem onRtc_ch {q : List Part} {z s : State} {f : Rtc → Rtc} (H : Changes q z s) (hq : within [.rtc] q = true) :
    Changes q z (s.onRtc f) :=
  H.op hq ⟨fun p hp => by cases p <;> first | rfl | simp at hp⟩
theorem onHw_ch {q : List Part} {z s : State} {f : Heart → Heart} (H : Changes q z s) (hq : within [.hw] q = true) :
    Changes q z (s.onHw f) :=
  H.op hq ⟨fun p hp => by cases p <;> first | rfl | simp at hp⟩
theorem onSe_ch {q : List Part} {z s : State} {f : Sess → Sess} (H : Changes q z s) (hq : within [.se] q = true) :
    Changes q z (s.onSe f) :=
  H.op hq ⟨fun p hp => by cases p <;> first | rfl | simp at hp⟩
theorem onPr_ch {q : List Part} {z s : State} {f : Params → Params} (H : Changes q z s) (hq : within [.pr] q = true) :
    Changes q z (s.onPr f) :=
  H.op hq ⟨fun p hp => by cases p <;> first | rfl | simp at hp⟩
theorem onLk_ch {q : List Part} {z s : State} {f : Link → Link} (H : Changes q z s) (hq : within [.lk] q = true) :
    Changes q z (s.onLk f) :=
  H.op hq ⟨fun p hp => by cases p <;> first | rfl | simp at hp⟩
theorem onTp_ch {q : List Part} {z s : State} {f : Tamper → Tamper} (H : Changes q z s) (hq : within [.tp] q = true) :
    Changes q z (s.onTp f) :=
  H.op hq ⟨fun p hp => by cases p <;> first | rfl | simp at hp⟩
theorem onWd_ch {q : List Part} {z s : State} {f : Warden → Warden} (H : Changes q z s) (hq : within [.wd] q = true) :
    Changes q z (s.onWd f) :=
  H.op hq ⟨fun p hp => by cases p <;> first | rfl | simp at hp⟩
theorem onUp_ch {q : List Part} {z s : State} {f : Update → Update} (H : Changes q z s) (hq : within [.up] q = true) :
    Changes q z (s.onUp f) :=
  H.op hq ⟨fun p hp => by cases p <;> first | rfl | simp at hp⟩
theorem onTx_ch {q : List Part} {z s : State} {f : Transplant → Transplant} (H : Changes q z s) (hq : within [.tx] q = true) :
    Changes q z (s.onTx f) :=
  H.op hq ⟨fun p hp => by cases p <;> first | rfl | simp at hp⟩
theorem onNt_ch {q : List Part} {z s : State} {f : Net → Net} (H : Changes q z s) (hq : within [.nt] q = true) :
    Changes q z (s.onNt f) :=
  H.op hq ⟨fun p hp => by cases p <;> first | rfl | simp at hp⟩
theorem onHm_ch {q : List Part} {z s : State} {f : Hmi → Hmi} (H : Changes q z s) (hq : within [.hm] q = true) :
    Changes q z (s.onHm f) :=
  H.op hq ⟨fun p hp => by cases p <;> first | rfl | simp at hp⟩
theorem onRef_ch {q : List Part} {z s : State} {f : Ref → Ref} (H : Changes q z s) (hq : within [.ref] q = true) :
    Changes q z (s.onRef f) :=
  H.op hq ⟨fun p hp => by cases p <;> first | rfl | simp at hp⟩
theorem onQu_ch {q : List Part} {z s : State} {f : Queue → Queue} (H : Changes q z s) (hq : within [.qu] q = true) :
    Changes q z (s.onQu f) :=
  H.op hq ⟨fun p hp => by cases p <;> first | rfl | simp at hp⟩
theorem onMe_ch {q : List Part} {z s : State} {f : Metro → Metro} (H : Changes q z s) (hq : within [.me] q = true) :
    Changes q z (s.onMe f) :=
  H.op hq ⟨fun p hp => by cases p <;> first | rfl | simp at hp⟩
theorem onPq_ch {q : List Part} {z s : State} {f : Pq → Pq} (H : Changes q z s) (hq : within [.pq] q = true) :
    Changes q z (s.onPq f) :=
  H.op hq ⟨fun p hp => by cases p <;> first | rfl | simp at hp⟩
theorem onPm_ch {q : List Part} {z s : State} {f : Pmu → Pmu} (H : Changes q z s) (hq : within [.pm] q = true) :
    Changes q z (s.onPm f) :=
  H.op hq ⟨fun p hp => by cases p <;> first | rfl | simp at hp⟩
theorem onChan_ch {q : List Part} {z s : State} {n : Nat} {f : Chan → Chan} (H : Changes q z s) (hq : within [.chans] q = true) :
    Changes q z (s.onChan n f) :=
  H.op hq ⟨fun p hp => by cases p <;> first | rfl | simp at hp⟩
theorem onConv_ch {q : List Part} {z s : State} {n : Nat} {f : Conv → Conv} (H : Changes q z s) (hq : within [.convs] q = true) :
    Changes q z (s.onConv n f) :=
  H.op hq ⟨fun p hp => by cases p <;> first | rfl | simp at hp⟩
theorem onStand_ch {q : List Part} {z s : State} {n : Nat} {f : Stand → Stand} (H : Changes q z s) (hq : within [.stands] q = true) :
    Changes q z (s.onStand n f) :=
  H.op hq ⟨fun p hp => by cases p <;> first | rfl | simp at hp⟩
theorem onSeq_ch {q : List Part} {z s : State} {n : Nat} {f : Seq → Seq} (H : Changes q z s) (hq : within [.seqs] q = true) :
    Changes q z (s.onSeq n f) :=
  H.op hq ⟨fun p hp => by cases p <;> first | rfl | simp at hp⟩
theorem onFilt_ch {q : List Part} {z s : State} {n : Nat} {f : Filt → Filt} (H : Changes q z s) (hq : within [.filts] q = true) :
    Changes q z (s.onFilt n f) :=
  H.op hq ⟨fun p hp => by cases p <;> first | rfl | simp at hp⟩
theorem onInst_ch {q : List Part} {z s : State} {n : Nat} {f : Inst → Inst} (H : Changes q z s) (hq : within [.insts] q = true) :
    Changes q z (s.onInst n f) :=
  H.op hq ⟨fun p hp => by cases p <;> first | rfl | simp at hp⟩
theorem onUnit_ch {q : List Part} {z s : State} {n : Nat} {f : CapUnit → CapUnit} (H : Changes q z s) (hq : within [.units] q = true) :
    Changes q z (s.onUnit n f) :=
  H.op hq ⟨fun p hp => by cases p <;> first | rfl | simp at hp⟩
theorem drew_ch {q : List Part} {z s : State} {n : Nat} (H : Changes q z s) (hq : within [.free] q = true) :
    Changes q z (s.drew n) :=
  H.op hq ⟨fun p hp => by cases p <;> first | rfl | simp at hp⟩
theorem wr_ch {q : List Part} {z s : State} {a : Nat} {bs : List Byte} (H : Changes q z s) (hq : within [.hw] q = true) :
    Changes q z (s.wr a bs) :=
  H.op hq ⟨fun p hp => by rw [wr_frame]; cases p <;> first | rfl | simp at hp⟩

theorem ch_fst {q : List Part} {z : State} {α : Type} {p : State × α} {a : State} {b : α} (h : p = (a, b))
    (H : Changes q z p.1) : Changes q z a := by
  rw [h] at H; exact H

/-- The state of an answer. -/
def AnsCh (q : List Part) (z : State) (a : Ans) : Prop := Changes q z a.s
theorem AnsCh.mk {q : List Part} {z s : State} {st bs} (H : Changes q z s) : AnsCh q z ⟨s, st, bs⟩ := H
theorem AnsCh.s {q : List Part} {z : State} {a : Ans} (H : AnsCh q z a) : Changes q z a.s := H
theorem ansch_ite {q : List Part} {z : State} {c : Prop} [Decidable c] {a b : Ans} (ha : c → AnsCh q z a)
    (hb : ¬c → AnsCh q z b) : AnsCh q z (if c then a else b) := by
  split
  · exact ha ‹_›
  · exact hb ‹_›

/-- Whatever next state an outcome has differs in the parts `q` at most. -/
structure OutCh (q : List Part) (z : State) (o : Host.Outcome State Fault Refusal) : Prop where
  next_of : ∀ t, o = .next t → Changes q z t
theorem OutCh.next {q : List Part} {z t : State} (H : Changes q z t) : OutCh q z (.next t) := by
  exact ⟨fun u hu => by cases hu; exact H⟩
theorem OutCh.mono {a q : List Part} {z : State} {o : Host.Outcome State Fault Refusal} (h : OutCh a z o)
    (hs : within a q = true) : OutCh q z o := ⟨fun t ht => (h.next_of t ht).mono hs⟩
theorem OutCh.fault {q : List Part} {z : State} (f : Fault) : OutCh q z (.fault f) := by
  exact ⟨fun u hu => by cases hu⟩
theorem outch_ite {q : List Part} {z : State} {c : Prop} [Decidable c] {a b : Host.Outcome State Fault Refusal}
    (ha : c → OutCh q z a) (hb : ¬c → OutCh q z b) : OutCh q z (if c then a else b) := by
  split
  · exact ha ‹_›
  · exact hb ‹_›

end Sys2Proof.Machine
end

