-- ==== Sys2Proof/Laws/Frames.lean ====
section
/-! SUPPORT. For each shared operation the parts of the state that it may change. -/

namespace Sys2Proof.Machine

set_option Elab.async false

variable {q : List Part} {z s : State}

theorem updIdle_ch (H : Changes q z s) (hq : within [.up] q = true) :
    Changes q z (State.updIdle s) := by
  refine H.op hq ?_
  have H := Changes.refl [.up] s
  unfold State.updIdle
  repeat' first
    | with_reducible assumption | (intro _) | with_reducible apply onUp_ch | rfl

theorem abandonUpdate_ch (H : Changes q z s) (hq : within [.up] q = true) :
    Changes q z (State.abandonUpdate s) := by
  refine H.op hq ?_
  have H := Changes.refl [.up] s
  unfold State.abandonUpdate
  repeat' first
    | with_reducible assumption | with_reducible apply updIdle_ch | rfl
    | with_reducible refine ch_ite (fun _ => ?_) fun _ => ?_

theorem pushLog_ch {e : LogEntry} (H : Changes q z s) (hq : within [.wd] q = true) :
    Changes q z (State.pushLog s e) := by
  refine H.op hq ?_
  have H := Changes.refl [.wd] s
  unfold State.pushLog
  repeat' first
    | with_reducible assumption | (intro _) | with_reducible apply onWd_ch | rfl

theorem pushConts_ch {time code fl : Nat} {l : List (List Byte)} (H : Changes q z s) (hq : within [.wd] q = true) :
    Changes q z (s.pushConts time code fl l) := by
  induction l generalizing s with
  | nil => exact H
  | cons d r ih => exact ih (pushLog_ch H hq)

theorem logAt_ch {time : ℕ} {code : ℕ} {vbat : Bool} {deferred : Bool} {data : List Byte} {conts : List (List Byte)} (H :
    Changes q z s) (hq : within [.wd] q = true) :
    Changes q z (State.logAt s time code vbat deferred data conts) := by
  refine H.op hq ?_
  have H := Changes.refl [.wd] s
  unfold State.logAt
  repeat' first
    | with_reducible assumption | with_reducible apply pushConts_ch | with_reducible apply pushLog_ch | rfl

theorem log_ch {code : ℕ} {data : List Byte} {conts : optParam (List (List Byte)) []} (H : Changes q z s) (hq : within [.wd] q
    = true) :
    Changes q z (State.log s code data conts) := by
  refine H.op hq ?_
  have H := Changes.refl [.wd] s
  unfold State.log
  repeat' first
    | with_reducible assumption | with_reducible apply logAt_ch | rfl

theorem baseFailLog_ch {c : Check} {result : ℕ} {ohm : ℕ} {deg : ℕ} (H : Changes q z s) (hq : within [.wd] q = true) :
    Changes q z (State.baseFailLog s c result ohm deg) := by
  refine H.op hq ?_
  have H := Changes.refl [.wd] s
  unfold State.baseFailLog
  repeat' first
    | with_reducible assumption | with_reducible apply log_ch | rfl | with_reducible refine ch_ite (fun _ => ?_) fun _ => ?_

theorem setCheckResult_ch {c : ℕ} {result : ℕ} (H : Changes q z s) (hq : within [.chans] q = true) :
    Changes q z (State.setCheckResult s c result) := by
  refine H.op hq ?_
  have H := Changes.refl [.chans] s
  unfold State.setCheckResult
  repeat' first
    | with_reducible assumption | (intro _) | with_reducible apply onChan_ch | rfl

theorem abortCheck_ch {k : ℕ} (H : Changes q z s) (hq : within [.wd, .chans, .stands] q = true) :
    Changes q z (State.abortCheck s k) := by
  refine H.op hq ?_
  have H := Changes.refl [.wd, .chans, .stands] s
  unfold State.abortCheck
  repeat' first
    | with_reducible assumption | (intro _) | with_reducible apply baseFailLog_ch | with_reducible apply setCheckResult_ch
    | with_reducible apply onStand_ch | with_reducible refine ch_fst (by assumption) ?_ | rfl | split

theorem abortOn_ch {c : ℕ} (H : Changes q z s) (hq : within [.wd, .chans, .stands] q = true) :
    Changes q z (State.abortOn s c) := by
  refine H.op hq ?_
  have H := Changes.refl [.wd, .chans, .stands] s
  unfold State.abortOn
  repeat' first
    | with_reducible assumption | (intro _) | with_reducible apply abortCheck_ch | rfl
    | with_reducible refine ch_ite (fun _ => ?_) fun _ => ?_

theorem restoreTrim_ch {k : ℕ} {v : ℕ} (H : Changes q z s) (hq : within [.convs, .stands] q = true) :
    Changes q z (State.restoreTrim s k v) := by
  refine H.op hq ?_
  have H := Changes.refl [.convs, .stands] s
  unfold State.restoreTrim
  repeat' first
    | with_reducible assumption | (intro _) | with_reducible apply onStand_ch | with_reducible apply onConv_ch
    | with_reducible refine ch_fst (by assumption) ?_ | rfl | split

theorem abortSpareRest_ch {k : ℕ} (H : Changes q z s) (hq : within [.convs, .stands] q = true) :
    Changes q z (State.abortSpareRest s k) := by
  refine H.op hq ?_
  have H := Changes.refl [.convs, .stands] s
  unfold State.abortSpareRest
  repeat' first
    | with_reducible assumption | with_reducible apply restoreTrim_ch | rfl
    | with_reducible refine ch_ite (fun _ => ?_) fun _ => ?_

theorem onBus_ch {b : ℕ} {f : PqBus → PqBus} (H : Changes q z s) (hq : within [.pq] q = true) :
    Changes q z (State.onBus s b f) := by
  refine H.op hq ?_
  have H := Changes.refl [.pq] s
  unfold State.onBus
  repeat' first
    | with_reducible assumption | (intro _) | with_reducible apply onPq_ch | rfl

theorem closeTen_ch {b : ℕ} {place : ℚ} {endT : ℕ} {extra : ℕ} (H : Changes q z s) (hq : within [.pq] q = true) :
    Changes q z (State.closeTen s b place endT extra) := by
  refine H.op hq ?_
  have H := Changes.refl [.pq] s
  unfold State.closeTen
  repeat' first
    | with_reducible assumption | (intro _) | with_reducible apply onBus_ch | with_reducible refine ch_fst (by assumption) ?_
    | rfl

theorem closeAccs_ch {level : ℕ} {endT : ℕ} {extra : ℕ} {sel : PqAcc → Bool} (H : Changes q z s) (hq : within [.pq] q = true) :
    Changes q z (State.closeAccs s level endT extra sel) := by
  refine H.op hq ?_
  have H := Changes.refl [.pq] s
  unfold State.closeAccs
  repeat' first
    | with_reducible assumption | (intro _) | with_reducible apply ch_foldl | with_reducible apply ch_foldl_fst
    | with_reducible apply onPq_ch | rfl

theorem closeSupra_ch {e : ℕ × ℕ × ℕ × Bool} (H : Changes q z s) (hq : within [.pq] q = true) :
    Changes q z (State.closeSupra s e) := by
  refine H.op hq ?_
  have H := Changes.refl [.pq] s
  unfold State.closeSupra
  repeat' first
    | with_reducible assumption | (intro _)
    | (extract_lets +onlyGivenNames x; have hx : Changes [.pq] s x; (on_goal 1 => unfold x; clear x); on_goal 2 => clear_value x)
    | with_reducible apply closeAccs_ch | with_reducible apply onPq_ch | rfl
    | with_reducible refine ch_ite (fun _ => ?_) fun _ => ?_

theorem closePst_ch {b : ℕ} {extra : ℕ} {place : ℚ} {endT : ℕ} {fresh : Bool} (H : Changes q z s) (hq : within [.pq] q = true) :
    Changes q z (State.closePst s b extra place endT fresh) := by
  refine H.op hq ?_
  have H := Changes.refl [.pq] s
  unfold State.closePst
  repeat' first
    | with_reducible assumption | (intro _) | with_reducible apply onBus_ch | rfl

theorem pqStep_ch (H : Changes q z s) (hq : within [.pq, .free] q = true) :
    Changes q z (State.pqStep s) := by
  refine H.op hq ?_
  have H := Changes.refl [.pq, .free] s
  unfold State.pqStep
  repeat' first
    | with_reducible assumption | (intro _)
    | (extract_lets +onlyGivenNames x; have hx : Changes [.pq, .free] s x; (on_goal 1 => unfold x; clear x); on_goal 2 => clear_value x)
    | (extract_lets +onlyGivenNames x; have : x = x := by (unfold x; rfl)
       clear this; clear_value x)
    | with_reducible apply ch_foldl | with_reducible apply ch_foldl_fst | with_reducible apply onBus_ch
    | with_reducible apply closeTen_ch | with_reducible apply closeAccs_ch | with_reducible apply closeSupra_ch
    | with_reducible apply closePst_ch | with_reducible apply drew_ch | with_reducible apply onPq_ch | rfl
    | with_reducible refine ch_ite (fun _ => ?_) fun _ => ?_

theorem pmuMissed_ch {upTo : ℕ} {from_ : ℕ} (H : Changes q z s) (hq : within [.pm] q = true) :
    Changes q z (State.pmuMissed s upTo from_) := by
  refine H.op hq ?_
  have H := Changes.refl [.pm] s
  unfold State.pmuMissed
  repeat' first
    | with_reducible assumption | (intro _) | with_reducible apply onPm_ch | rfl

theorem pqSync_ch (H : Changes q z s) (hq : within [.pq] q = true) :
    Changes q z (State.pqSync s) := by
  refine H.op hq ?_
  have H := Changes.refl [.pq] s
  unfold State.pqSync
  repeat' first
    | with_reducible assumption | (intro _) | with_reducible apply onPq_ch | rfl

theorem uncorrectable_ch {w : ℕ} (H : Changes q z s) (hq : within [.hw, .wd] q = true) :
    Changes q z (State.uncorrectable s w) := by
  refine H.op hq ?_
  have H := Changes.refl [.hw, .wd] s
  unfold State.uncorrectable
  repeat' first
    | with_reducible assumption | (intro _) | with_reducible apply log_ch | with_reducible apply onHw_ch | rfl

theorem senseFlip_ch {f : Flip} (H : Changes q z s) (hq : within [.hw, .wd] q = true) :
    Changes q z (State.senseFlip s f) := by
  refine H.op hq ?_
  have H := Changes.refl [.hw, .wd] s
  unfold State.senseFlip
  repeat' first
    | with_reducible assumption | (intro _) | with_reducible apply uncorrectable_ch | with_reducible apply log_ch
    | with_reducible apply onHw_ch | rfl | with_reducible refine ch_ite (fun _ => ?_) fun _ => ?_

theorem sense_ch {a : ℕ} {n : ℕ} (H : Changes q z s) (hq : within [.hw, .wd] q = true) :
    Changes q z (State.sense s a n) := by
  refine H.op hq ?_
  have H := Changes.refl [.hw, .wd] s
  unfold State.sense
  repeat' first
    | with_reducible assumption | (intro _) | with_reducible apply ch_foldl | with_reducible apply ch_foldl_fst
    | with_reducible apply senseFlip_ch | rfl

theorem sensePair_ch {part : ℕ} {page : ℕ} (H : Changes q z s) (hq : within [.hw, .wd] q = true) :
    Changes q z (State.sensePair s part page) := by
  refine H.op hq ?_
  have H := Changes.refl [.hw, .wd] s
  unfold State.sensePair
  repeat' first
    | with_reducible assumption | with_reducible apply sense_ch | rfl

theorem wrPage_ch {ps : List (ℕ × List Byte)} (H : Changes q z s) (hq : within [.hw] q = true) :
    Changes q z (State.wrPage s ps) := by
  refine H.op hq ?_
  have H := Changes.refl [.hw] s
  unfold State.wrPage
  repeat' first
    | with_reducible assumption | (intro _)
    | (extract_lets +onlyGivenNames x; have : x = x := by (unfold x; rfl)
       clear this; clear_value x)
    | with_reducible apply ch_foldl | with_reducible apply ch_foldl_fst | with_reducible apply onHw_ch | rfl

theorem pageWrite_ch {part : ℕ} {page : ℕ} {bs : List Byte} (H : Changes q z s) (hq : within [.hw] q = true) :
    Changes q z (State.pageWrite s part page bs) := by
  refine H.op hq ?_
  have H := Changes.refl [.hw] s
  unfold State.pageWrite
  repeat' first
    | with_reducible assumption | with_reducible apply wrPage_ch | rfl

theorem recordFix_ch {part : ℕ} {id : ℕ} {page : ℕ} (H : Changes q z s) (hq : within [.hw, .wd] q = true) :
    Changes q z (State.recordFix s part id page) := by
  refine H.op hq ?_
  have H := Changes.refl [.hw, .wd] s
  unfold State.recordFix
  repeat' first
    | with_reducible assumption | (intro _)
    | (extract_lets +onlyGivenNames x; have hx : Changes [.hw, .wd] s x; (on_goal 1 => unfold x; clear x); on_goal 2 => clear_value x)
    | with_reducible apply sensePair_ch | with_reducible apply log_ch | with_reducible apply pageWrite_ch
    | with_reducible apply onHw_ch | with_reducible refine ch_fst (by assumption) ?_ | rfl
    | with_reducible refine ch_ite (fun _ => ?_) fun _ => ?_ | split

theorem fixRecord_ch {part : Nat} {e : Nat × Nat} (H : Changes q z s) (hq : within [.hw, .wd] q = true) :
    Changes q z (s.fixRecord part e) := ch_ite (fun _ => H) fun _ => recordFix_ch H hq

theorem andThen_ch {r : State × Bool} {f : State → State × Bool} (H : Changes q z r.1)
    (hf : ∀ x, Changes q z x → Changes q z (f x).1) : Changes q z (andThen r f).1 := by
  unfold andThen; split
  · exact hf _ H
  · exact H

theorem recordPut_ch {part : Nat} {e : Nat × Nat} {flags seq : Nat} {payload : List Byte} (H : Changes q z s)
    (hq : within [.hw, .wd] q = true) : Changes q z (s.recordPut part e flags seq payload).1 := by
  unfold State.recordPut
  extract_lets page put good s1 s2
  have hp : ∀ x, Changes q z x → Changes q z (put x) := fun x h => sense_ch (pageWrite_ch h (wt hq)) (wt hq)
  split
  · exact hp s H
  · split
    · exact hp _ (hp s H)
    · exact log_ch (hp _ (hp s H)) (wt hq)

theorem itemPut_ch {part : ℕ} {l : List (ℕ × ℕ)} {bs : List Byte} (H : Changes q z s) (hq : within [.hw, .wd] q = true) :
    Changes q z (State.itemPut s part l bs).1 := by
  refine Changes.op H hq ?_
  have H := Changes.refl [.hw, .wd] s
  unfold State.itemPut
  repeat' first
    | with_reducible assumption | (intro _)
    | (extract_lets +onlyGivenNames x; have hx : Changes [.hw, .wd] s x; (on_goal 1 => unfold x; clear x); on_goal 2 => clear_value x)
    | (extract_lets +onlyGivenNames x; have : x = x := by (unfold x; rfl)
       clear this; clear_value x)
    | with_reducible apply ch_foldl | with_reducible apply ch_foldl_fst | with_reducible apply fixRecord_ch
    | with_reducible apply andThen_ch | with_reducible apply recordPut_ch | rfl

theorem itemWrite_ch {part : ℕ} {l : List (ℕ × ℕ)} {bs : List Byte} (H : Changes q z s) (hq : within [.hw, .wd] q = true) :
    Changes q z (State.itemWrite s part l bs) := by
  refine H.op hq ?_
  have H := Changes.refl [.hw, .wd] s
  unfold State.itemWrite
  repeat' first
    | with_reducible assumption | with_reducible apply itemPut_ch | rfl

theorem storeDevice_ch (H : Changes q z s) (hq : within [.hw, .wd] q = true) :
    Changes q z (State.storeDevice s) := by
  refine H.op hq ?_
  have H := Changes.refl [.hw, .wd] s
  unfold State.storeDevice
  repeat' first
    | with_reducible assumption | with_reducible apply itemWrite_ch | rfl

theorem stopFollowing_ch (H : Changes q z s) (hq : within [.rtc] q = true) :
    Changes q z (State.stopFollowing s) := by
  refine H.op hq ?_
  have H := Changes.refl [.rtc] s
  unfold State.stopFollowing
  repeat' first
    | with_reducible assumption | (intro _) | with_reducible apply onRtc_ch | rfl

theorem irq_ch {b : ℕ} (H : Changes q z s) (hq : within [.lk] q = true) :
    Changes q z (State.irq s b) := by
  refine H.op hq ?_
  have H := Changes.refl [.lk] s
  unfold State.irq
  repeat' first
    | with_reducible assumption | (intro _) | with_reducible apply onLk_ch | rfl

theorem pmuAutoStart_ch (H : Changes q z s) (hq : within [.pm] q = true) :
    Changes q z (State.pmuAutoStart s) := by
  refine H.op hq ?_
  have H := Changes.refl [.pm] s
  unfold State.pmuAutoStart
  repeat' first
    | with_reducible assumption | (intro _) | with_reducible apply onPm_ch | rfl
    | with_reducible refine ch_ite (fun _ => ?_) fun _ => ?_

theorem enterStage_ch {n : ℕ} (H : Changes q z s) (hq : within [.pw, .lk, .wd] q = true) :
    Changes q z (State.enterStage s n) := by
  refine H.op hq ?_
  have H := Changes.refl [.pw, .lk, .wd] s
  unfold State.enterStage
  repeat' first
    | with_reducible assumption | (intro _) | with_reducible apply log_ch | with_reducible apply irq_ch
    | with_reducible apply onPw_ch | rfl | with_reducible refine ch_ite (fun _ => ?_) fun _ => ?_

theorem restage_ch (H : Changes q z s) (hq : within [.pw, .lk, .wd, .pm] q = true) :
    Changes q z (State.restage s) := by
  refine H.op hq ?_
  have H := Changes.refl [.pw, .lk, .wd, .pm] s
  unfold State.restage
  repeat' first
    | with_reducible assumption | with_reducible apply pmuAutoStart_ch | with_reducible apply enterStage_ch | rfl
    | with_reducible refine ch_ite (fun _ => ?_) fun _ => ?_

theorem takeScheduled_ch {p : ℕ → Bool} (H : Changes q z s) (hq : within [.pr] q = true) :
    Changes q z (State.takeScheduled s p) := by
  refine H.op hq ?_
  have H := Changes.refl [.pr] s
  unfold State.takeScheduled
  repeat' first
    | with_reducible assumption | (intro _) | with_reducible apply onPr_ch | rfl

theorem servoTo_ch {n : Servo} {th : ℤ} (H : Changes q z s) (hq : within [.pw, .te, .rtc, .hw, .pr, .lk, .wd, .pm, .free] q =
    true) :
    Changes q z (State.servoTo s n th) := by
  refine H.op hq ?_
  have H := Changes.refl [.pw, .te, .rtc, .hw, .pr, .lk, .wd, .pm, .free] s
  unfold State.servoTo
  repeat' first
    | with_reducible assumption | (intro _)
    | (extract_lets +onlyGivenNames x; have hx : Changes [.pw, .te, .rtc, .hw, .pr, .lk, .wd, .pm, .free] s x; (on_goal 1 => unfold x; clear x); on_goal 2 => clear_value x)
    | (extract_lets +onlyGivenNames x; have : x = x := by (unfold x; rfl)
       clear this; clear_value x)
    | with_reducible apply storeDevice_ch | with_reducible apply stopFollowing_ch | with_reducible apply log_ch
    | with_reducible apply irq_ch | with_reducible apply restage_ch | with_reducible apply takeScheduled_ch
    | with_reducible apply onTe_ch | with_reducible apply onPm_ch | with_reducible apply drew_ch | rfl
    | with_reducible refine ch_ite (fun _ => ?_) fun _ => ?_

theorem acceptStep_ch {delta : ℤ} {acquire : Bool} (H : Changes q z s) (hq : within [.pw, .te, .rtc, .hw, .pr, .lk, .wd, .seqs,
    .qu, .me, .pq, .pm, .free] q = true) :
    Changes q z (State.acceptStep s delta acquire) := by
  refine H.op hq ?_
  have H := Changes.refl [.pw, .te, .rtc, .hw, .pr, .lk, .wd, .seqs, .qu, .me, .pq, .pm, .free] s
  unfold State.acceptStep
  repeat' first
    | with_reducible assumption | (intro _)
    | (extract_lets +onlyGivenNames x; have hx : Changes [.pw, .te, .rtc, .hw, .pr, .lk, .wd, .seqs, .qu, .me, .pq, .pm, .free] s x; (on_goal 1 => unfold x; clear x); on_goal 2 => clear_value x)
    | (extract_lets +onlyGivenNames x; have : x = x := by (unfold x; rfl)
       clear this; clear_value x)
    | with_reducible apply pqStep_ch | with_reducible apply pmuMissed_ch | with_reducible apply log_ch
    | with_reducible apply pqSync_ch | with_reducible apply servoTo_ch | with_reducible apply onTe_ch
    | with_reducible apply onPm_ch | with_reducible apply onMe_ch | with_reducible apply onQu_ch
    | (refine Changes.op (a := [.seqs]) hx (by rfl) ⟨?_⟩; intro p hp; cases p <;> first | exact absurd (by decide) hp | rfl)
    | rfl | with_reducible refine ch_ite (fun _ => ?_) fun _ => ?_

theorem onKey_ch {p : Path} {f : SessKey → SessKey} (H : Changes q z s) (hq : within [.tp] q = true) :
    Changes q z (State.onKey s p f) := by
  refine H.op hq ?_
  have H := Changes.refl [.tp] s
  unfold State.onKey
  repeat' first
    | with_reducible assumption | (intro _) | with_reducible apply onTp_ch | rfl

theorem onSlot_ch {n : ℕ} {f : Slot → Slot} (H : Changes q z s) (hq : within [.tp] q = true) :
    Changes q z (State.onSlot s n f) := by
  refine H.op hq ?_
  have H := Changes.refl [.tp] s
  unfold State.onSlot
  repeat' first
    | with_reducible assumption | (intro _) | with_reducible apply onTp_ch | rfl

theorem tamperClear_ch {slot : ℕ} {circuit : ℕ} (H : Changes q z s) (hq : within [.tp, .wd] q = true) :
    Changes q z (State.tamperClear s slot circuit) := by
  refine H.op hq ?_
  have H := Changes.refl [.tp, .wd] s
  unfold State.tamperClear
  repeat' first
    | with_reducible assumption | (intro _) | with_reducible apply onSlot_ch | with_reducible apply log_ch | rfl
    | with_reducible refine ch_ite (fun _ => ?_) fun _ => ?_

theorem secPass_ch {h : Hdr} (H : Changes q z s) (hq : within [.tp, .wd] q = true) :
    Changes q z (State.secPass s h) := by
  refine H.op hq ?_
  have H := Changes.refl [.tp, .wd] s
  unfold State.secPass
  repeat' first
    | with_reducible assumption | (intro _)
    | (extract_lets +onlyGivenNames x; have hx : Changes [.tp, .wd] s x; (on_goal 1 => unfold x; clear x); on_goal 2 => clear_value x)
    | with_reducible apply onKey_ch | with_reducible apply tamperClear_ch | with_reducible apply onTp_ch
    | with_reducible refine ch_fst (by assumption) ?_ | rfl | with_reducible refine ch_ite (fun _ => ?_) fun _ => ?_ | split

theorem accepted_ch {h : Hdr} (H : Changes q z s) (hq : within [.lk, .tp, .wd] q = true) :
    Changes q z (State.accepted s h) := by
  refine H.op hq ?_
  have H := Changes.refl [.lk, .tp, .wd] s
  unfold State.accepted
  repeat' first
    | with_reducible assumption | (intro _) | with_reducible apply secPass_ch | with_reducible apply onLk_ch | rfl

theorem onAlarm_ch {k : ℕ} {f : Alarm → Alarm} (H : Changes q z s) (hq : within [.rtc] q = true) :
    Changes q z (State.onAlarm s k f) := by
  refine H.op hq ?_
  have H := Changes.refl [.rtc] s
  unfold State.onAlarm
  repeat' first
    | with_reducible assumption | (intro _) | with_reducible apply onRtc_ch | rfl

theorem queueCheck_ch {c : Check} (H : Changes q z s) (hq : within [.stands] q = true) :
    Changes q z (State.queueCheck s c) := by
  refine H.op hq ?_
  have H := Changes.refl [.stands] s
  unfold State.queueCheck
  repeat' first
    | with_reducible assumption | (intro _) | with_reducible apply onStand_ch | with_reducible refine ch_fst (by assumption) ?_
    | rfl

theorem seqIdle_ch {n : ℕ} (H : Changes q z s) (hq : within [.seqs] q = true) :
    Changes q z (State.seqIdle s n) := by
  refine H.op hq ?_
  have H := Changes.refl [.seqs] s
  unfold State.seqIdle
  repeat' first
    | with_reducible assumption | (intro _) | with_reducible apply onSeq_ch | rfl

theorem seqRun_ch {n : ℕ} {t : ℕ} (H : Changes q z s) (hq : within [.chans, .stands, .seqs] q = true) :
    Changes q z (State.seqRun s n t) := by
  refine H.op hq ?_
  have H := Changes.refl [.chans, .stands, .seqs] s
  unfold State.seqRun
  repeat' first
    | with_reducible assumption | (intro _)
    | (extract_lets +onlyGivenNames x; have hx : Changes [.chans, .stands, .seqs] s x; (on_goal 1 => unfold x; clear x); on_goal 2 => clear_value x)
    | (extract_lets +onlyGivenNames x; have : x = x := by (unfold x; rfl)
       clear this; clear_value x)
    | with_reducible apply ch_foldl | with_reducible apply ch_foldl_fst | with_reducible apply setCheckResult_ch
    | with_reducible apply queueCheck_ch | with_reducible apply seqIdle_ch | with_reducible apply onSeq_ch
    | with_reducible refine ch_fst (by assumption) ?_ | rfl | with_reducible refine ch_ite (fun _ => ?_) fun _ => ?_ | split

theorem unitsDue_ch {source : ℕ} {index : ℕ} {t : ℕ} (H : Changes q z s) (hq : within [.units] q = true) :
    Changes q z (State.unitsDue s source index t) := by
  refine H.op hq ?_
  have H := Changes.refl [.units] s
  unfold State.unitsDue
  repeat' first
    | with_reducible assumption | (intro _)
    | (refine Changes.op (a := [.units]) H (by rfl) ⟨?_⟩; intro p hp; cases p <;> first | exact absurd (by decide) hp | rfl)

theorem seqAbandon_ch {n : ℕ} (H : Changes q z s) (hq : within [.wd, .chans, .stands, .seqs] q = true) :
    Changes q z (State.seqAbandon s n) := by
  refine H.op hq ?_
  have H := Changes.refl [.wd, .chans, .stands, .seqs] s
  unfold State.seqAbandon
  repeat' first
    | with_reducible assumption | (intro _)
    | (extract_lets +onlyGivenNames x; have hx : Changes [.wd, .chans, .stands, .seqs] s x; (on_goal 1 => unfold x; clear x); on_goal 2 => clear_value x)
    | (extract_lets +onlyGivenNames x; have : x = x := by (unfold x; rfl)
       clear this; clear_value x)
    | with_reducible apply ch_foldl | with_reducible apply ch_foldl_fst | with_reducible apply baseFailLog_ch
    | with_reducible apply setCheckResult_ch | with_reducible apply onStand_ch | with_reducible apply onSeq_ch
    | with_reducible refine ch_fst (by assumption) ?_ | rfl | with_reducible refine ch_ite (fun _ => ?_) fun _ => ?_ | split

theorem seqInstall_ch {n : ℕ} {a : Option Arming} (H : Changes q z s) (hq : within [.chans, .stands, .seqs, .units] q = true) :
    Changes q z (State.seqInstall s n a) := by
  refine H.op hq ?_
  have H := Changes.refl [.chans, .stands, .seqs, .units] s
  unfold State.seqInstall
  repeat' first
    | with_reducible assumption | (intro _)
    | (extract_lets +onlyGivenNames x; have hx : Changes [.chans, .stands, .seqs, .units] s x; (on_goal 1 => unfold x; clear x); on_goal 2 => clear_value x)
    | with_reducible apply seqRun_ch | with_reducible apply unitsDue_ch | with_reducible apply onSeq_ch
    | with_reducible refine ch_fst (by assumption) ?_ | rfl | with_reducible refine ch_ite (fun _ => ?_) fun _ => ?_ | split

theorem seqTrigger_ch {n : ℕ} {t : ℕ} (H : Changes q z s) (hq : within [.wd, .chans, .stands, .seqs, .units] q = true) :
    Changes q z (State.seqTrigger s n t) := by
  refine H.op hq ?_
  have H := Changes.refl [.wd, .chans, .stands, .seqs, .units] s
  unfold State.seqTrigger
  repeat' first
    | with_reducible assumption | (intro _)
    | (extract_lets +onlyGivenNames x; have hx : Changes [.wd, .chans, .stands, .seqs, .units] s x; (on_goal 1 => unfold x; clear x); on_goal 2 => clear_value x)
    | (extract_lets +onlyGivenNames x; have : x = x := by (unfold x; rfl)
       clear this; clear_value x)
    | with_reducible apply seqRun_ch | with_reducible apply unitsDue_ch | with_reducible apply seqAbandon_ch
    | with_reducible apply seqInstall_ch | with_reducible apply onSeq_ch | with_reducible refine ch_fst (by assumption) ?_
    | rfl | with_reducible refine ch_ite (fun _ => ?_) fun _ => ?_ | split

theorem seqTriggerAll_ch {source : ℕ} {index : ℕ} {t : ℕ} (H : Changes q z s) (hq : within [.wd, .chans, .stands, .seqs,
    .units] q = true) :
    Changes q z (State.seqTriggerAll s source index t) := by
  refine H.op hq ?_
  have H := Changes.refl [.wd, .chans, .stands, .seqs, .units] s
  unfold State.seqTriggerAll
  repeat' first
    | with_reducible assumption | (intro _) | with_reducible apply ch_foldl | with_reducible apply ch_foldl_fst
    | with_reducible apply seqTrigger_ch | with_reducible apply unitsDue_ch | rfl
    | with_reducible refine ch_ite (fun _ => ?_) fun _ => ?_

theorem resolvePend_ch {k : ℕ} (H : Changes q z s) (hq : within [.rtc, .lk, .wd] q = true) :
    Changes q z (State.resolvePend s k) := by
  refine H.op hq ?_
  have H := Changes.refl [.rtc, .lk, .wd] s
  unfold State.resolvePend
  repeat' first
    | with_reducible assumption | (intro _)
    | (extract_lets +onlyGivenNames x; have hx : Changes [.rtc, .lk, .wd] s x; (on_goal 1 => unfold x; clear x); on_goal 2 => clear_value x)
    | (extract_lets +onlyGivenNames x; have : x = x := by (unfold x; rfl)
       clear this; clear_value x)
    | with_reducible apply irq_ch | with_reducible apply logAt_ch | with_reducible apply onAlarm_ch
    | with_reducible refine ch_fst (by assumption) ?_ | rfl | with_reducible refine ch_ite (fun _ => ?_) fun _ => ?_ | split

theorem alarmAct_ch {k : ℕ} {m : ℕ} {count : ℕ} {sec : ℕ} {skipped : Bool} (H : Changes q z s) (hq : within [.rtc, .lk, .wd,
    .chans, .stands, .seqs, .units] q = true) :
    Changes q z (State.alarmAct s k m count sec skipped) := by
  refine H.op hq ?_
  have H := Changes.refl [.rtc, .lk, .wd, .chans, .stands, .seqs, .units] s
  unfold State.alarmAct
  repeat' first
    | with_reducible assumption | (intro _)
    | (extract_lets +onlyGivenNames x; have hx : Changes [.rtc, .lk, .wd, .chans, .stands, .seqs, .units] s x; (on_goal 1 => unfold x; clear x); on_goal 2 => clear_value x)
    | (extract_lets +onlyGivenNames x; have : x = x := by (unfold x; rfl)
       clear this; clear_value x)
    | with_reducible apply onAlarm_ch | with_reducible apply irq_ch | with_reducible apply log_ch
    | with_reducible apply seqTriggerAll_ch | with_reducible apply resolvePend_ch | with_reducible apply onRtc_ch
    | with_reducible refine ch_fst (by assumption) ?_ | rfl | with_reducible refine ch_ite (fun _ => ?_) fun _ => ?_

theorem adjustAlarm_ch {k : ℕ} {o : ℕ} {n : ℕ} (H : Changes q z s) (hq : within [.rtc, .lk, .wd, .chans, .stands, .seqs,
    .units] q = true) :
    Changes q z (State.adjustAlarm s k o n) := by
  refine H.op hq ?_
  have H := Changes.refl [.rtc, .lk, .wd, .chans, .stands, .seqs, .units] s
  unfold State.adjustAlarm
  repeat' first
    | with_reducible assumption | (intro _)
    | (extract_lets +onlyGivenNames x; have hx : Changes [.rtc, .lk, .wd, .chans, .stands, .seqs, .units] s x; (on_goal 1 => unfold x; clear x); on_goal 2 => clear_value x)
    | (extract_lets +onlyGivenNames x; have : x = x := by (unfold x; rfl)
       clear this; clear_value x)
    | with_reducible apply onAlarm_ch | with_reducible apply alarmAct_ch | with_reducible apply logAt_ch
    | with_reducible refine ch_fst (by assumption) ?_ | rfl | with_reducible refine ch_ite (fun _ => ?_) fun _ => ?_ | split

theorem adjustCal_ch {c : Cal} {set : Bool} (H : Changes q z s) (hq : within [.rtc, .lk, .wd, .chans, .stands, .seqs, .units] q
    = true) :
    Changes q z (State.adjustCal s c set) := by
  refine H.op hq ?_
  have H := Changes.refl [.rtc, .lk, .wd, .chans, .stands, .seqs, .units] s
  unfold State.adjustCal
  repeat' first
    | with_reducible assumption | (intro _)
    | (extract_lets +onlyGivenNames x; have hx : Changes [.rtc, .lk, .wd, .chans, .stands, .seqs, .units] s x; (on_goal 1 => unfold x; clear x); on_goal 2 => clear_value x)
    | (extract_lets +onlyGivenNames x; have : x = x := by (unfold x; rfl)
       clear this; clear_value x)
    | with_reducible apply ch_foldl | with_reducible apply ch_foldl_fst | with_reducible apply adjustAlarm_ch
    | with_reducible apply onRtc_ch | rfl

theorem pioWrite_ch (H : Changes q z s) (hq : within [.hw] q = true) :
    Changes q z (State.pioWrite s) := by
  refine H.op hq ?_
  have H := Changes.refl [.hw] s
  unfold State.pioWrite
  repeat' first
    | with_reducible assumption | (intro _)
    | (extract_lets +onlyGivenNames x; have : x = x := by (unfold x; rfl)
       clear this; clear_value x)
    | with_reducible apply onHw_ch | with_reducible apply wr_ch | with_reducible refine ch_fst (by assumption) ?_ | rfl | split

theorem pioUpdate_ch (H : Changes q z s) (hq : within [.hw] q = true) :
    Changes q z (State.pioUpdate s) := by
  refine H.op hq ?_
  have H := Changes.refl [.hw] s
  unfold State.pioUpdate
  repeat' first
    | with_reducible assumption | with_reducible apply pioWrite_ch | rfl
    | with_reducible refine ch_ite (fun _ => ?_) fun _ => ?_

theorem copyInst_ch {v : ℕ} {c : ℕ} (H : Changes q z s) (hq : within [.insts] q = true) :
    Changes q z (State.copyInst s v c) := by
  refine H.op hq ?_
  have H := Changes.refl [.insts] s
  unfold State.copyInst
  repeat' first
    | with_reducible assumption | (intro _)
    | (extract_lets +onlyGivenNames x; have : x = x := by (unfold x; rfl)
       clear this; clear_value x)
    | with_reducible apply onInst_ch | rfl

theorem unsettle_ch {v : ℕ} (H : Changes q z s) (hq : within [.convs] q = true) :
    Changes q z (State.unsettle s v) := by
  refine H.op hq ?_
  have H := Changes.refl [.convs] s
  unfold State.unsettle
  repeat' first
    | with_reducible assumption | (intro _) | with_reducible apply onConv_ch | rfl

theorem moveSpare_ch {k : ℕ} {c : ℕ} {phase : ℕ} (H : Changes q z s) (hq : within [.convs, .stands, .insts] q = true) :
    Changes q z (State.moveSpare s k c phase) := by
  refine H.op hq ?_
  have H := Changes.refl [.convs, .stands, .insts] s
  unfold State.moveSpare
  repeat' first
    | with_reducible assumption | (intro _)
    | (extract_lets +onlyGivenNames x; have hx : Changes [.convs, .stands, .insts] s x; (on_goal 1 => unfold x; clear x); on_goal 2 => clear_value x)
    | (extract_lets +onlyGivenNames x; have : x = x := by (unfold x; rfl)
       clear this; clear_value x)
    | with_reducible apply copyInst_ch | with_reducible apply unsettle_ch | with_reducible apply onStand_ch
    | with_reducible refine ch_fst (by assumption) ?_ | rfl | with_reducible refine ch_ite (fun _ => ?_) fun _ => ?_

theorem shadowFor_ch {k : ℕ} {slot : ℕ} (H : Changes q z s) (hq : within [.convs, .stands, .insts] q = true) :
    Changes q z (State.shadowFor s k slot) := by
  refine H.op hq ?_
  have H := Changes.refl [.convs, .stands, .insts] s
  unfold State.shadowFor
  repeat' first
    | with_reducible assumption | with_reducible apply moveSpare_ch | rfl
    | with_reducible refine ch_ite (fun _ => ?_) fun _ => ?_

theorem mark_ch {c : ℕ} {bit : ℕ} (H : Changes q z s) (hq : within [.chans] q = true) :
    Changes q z (State.mark s c bit) := by
  refine H.op hq ?_
  have H := Changes.refl [.chans] s
  unfold State.mark
  repeat' first
    | with_reducible assumption | (intro _) | with_reducible apply onChan_ch | rfl

theorem splice_ch {k : ℕ} {c : ℕ} {toSpare : Bool} (H : Changes q z s) (hq : within [.chans, .stands] q = true) :
    Changes q z (State.splice s k c toSpare) := by
  refine H.op hq ?_
  have H := Changes.refl [.chans, .stands] s
  unfold State.splice
  repeat' first
    | with_reducible assumption | (intro _) | with_reducible apply mark_ch | with_reducible apply onStand_ch | rfl

theorem loadDone_ch {c : ℕ} (H : Changes q z s) (hq : within [.wd, .filts, .insts] q = true) :
    Changes q z (State.loadDone s c) := by
  refine H.op hq ?_
  have H := Changes.refl [.wd, .filts, .insts] s
  unfold State.loadDone
  repeat' first
    | with_reducible assumption | (intro _)
    | (extract_lets +onlyGivenNames x; have hx : Changes [.wd, .filts, .insts] s x; (on_goal 1 => unfold x; clear x); on_goal 2 => clear_value x)
    | (extract_lets +onlyGivenNames x; have : x = x := by (unfold x; rfl)
       clear this; clear_value x)
    | with_reducible apply log_ch | with_reducible apply onFilt_ch | with_reducible apply onInst_ch
    | with_reducible refine ch_fst (by assumption) ?_ | rfl | with_reducible refine ch_ite (fun _ => ?_) fun _ => ?_ | split

theorem recallHome_ch {k : ℕ} (H : Changes q z s) (hq : within [.wd, .chans, .convs, .stands, .filts, .insts] q = true) :
    Changes q z (State.recallHome s k) := by
  refine H.op hq ?_
  have H := Changes.refl [.wd, .chans, .convs, .stands, .filts, .insts] s
  unfold State.recallHome
  repeat' first
    | with_reducible assumption | (intro _)
    | (extract_lets +onlyGivenNames x; have : x = x := by (unfold x; rfl)
       clear this; clear_value x)
    | with_reducible apply loadDone_ch | with_reducible apply unsettle_ch | with_reducible apply restoreTrim_ch
    | with_reducible apply splice_ch | with_reducible apply onStand_ch | rfl
    | with_reducible refine ch_ite (fun _ => ?_) fun _ => ?_

theorem takeover_ch {k : ℕ} {c : ℕ} (H : Changes q z s) (hq : within [.hw, .wd, .chans, .convs, .stands, .filts, .insts] q =
    true) :
    Changes q z (State.takeover s k c) := by
  refine H.op hq ?_
  have H := Changes.refl [.hw, .wd, .chans, .convs, .stands, .filts, .insts] s
  unfold State.takeover
  repeat' first
    | with_reducible assumption | (intro _)
    | (extract_lets +onlyGivenNames x; have hx : Changes [.hw, .wd, .chans, .convs, .stands, .filts, .insts] s x; (on_goal 1 => unfold x; clear x); on_goal 2 => clear_value x)
    | (extract_lets +onlyGivenNames x; have : x = x := by (unfold x; rfl)
       clear this; clear_value x)
    | with_reducible apply abortCheck_ch | with_reducible apply splice_ch | with_reducible apply copyInst_ch
    | with_reducible apply unsettle_ch | with_reducible apply recallHome_ch | with_reducible apply abortSpareRest_ch
    | with_reducible apply pioUpdate_ch | with_reducible apply onStand_ch | with_reducible refine ch_fst (by assumption) ?_
    | rfl | with_reducible refine ch_ite (fun _ => ?_) fun _ => ?_

theorem rescue_ch {k : ℕ} (H : Changes q z s) (hq : within [.hw, .wd, .chans, .convs, .stands, .filts, .insts] q = true) :
    Changes q z (State.rescue s k) := by
  refine H.op hq ?_
  have H := Changes.refl [.hw, .wd, .chans, .convs, .stands, .filts, .insts] s
  unfold State.rescue
  repeat' first
    | with_reducible assumption | (intro _) | with_reducible apply takeover_ch | with_reducible apply onChan_ch
    | with_reducible refine ch_fst (by assumption) ?_ | rfl | split

theorem coppiceDone_ch {k : ℕ} (H : Changes q z s) (hq : within [.wd] q = true) :
    Changes q z (State.coppiceDone s k) := by
  refine H.op hq ?_
  have H := Changes.refl [.wd] s
  unfold State.coppiceDone
  repeat' first
    | with_reducible assumption | with_reducible apply log_ch | rfl

theorem afterBack_ch {k : ℕ} {c : ℕ} (H : Changes q z s) (hq : within [.hw, .wd, .chans, .convs, .stands, .filts, .insts] q =
    true) :
    Changes q z (State.afterBack s k c) := by
  refine H.op hq ?_
  have H := Changes.refl [.hw, .wd, .chans, .convs, .stands, .filts, .insts] s
  unfold State.afterBack
  repeat' first
    | with_reducible assumption | (intro _)
    | (extract_lets +onlyGivenNames x; have hx : Changes [.hw, .wd, .chans, .convs, .stands, .filts, .insts] s x; (on_goal 1 => unfold x; clear x); on_goal 2 => clear_value x)
    | (extract_lets +onlyGivenNames x; have : x = x := by (unfold x; rfl)
       clear this; clear_value x)
    | with_reducible apply pioUpdate_ch | with_reducible apply shadowFor_ch | with_reducible apply rescue_ch
    | with_reducible apply coppiceDone_ch | with_reducible apply moveSpare_ch | with_reducible apply onStand_ch
    | with_reducible refine ch_fst (by assumption) ?_ | rfl | with_reducible refine ch_ite (fun _ => ?_) fun _ => ?_ | split

theorem pqBegin_ch {from_ : Option PqSums} (H : Changes q z s) (hq : within [.pq] q = true) :
    Changes q z (State.pqBegin s from_) := by
  refine H.op hq ?_
  have H := Changes.refl [.pq] s
  unfold State.pqBegin
  repeat' first
    | with_reducible assumption | (intro _)
    | (extract_lets +onlyGivenNames x; have hx : Changes [.pq] s x; (on_goal 1 => unfold x; clear x); on_goal 2 => clear_value x)
    | with_reducible apply pqSync_ch | with_reducible apply onPq_ch | with_reducible refine ch_fst (by assumption) ?_ | rfl

theorem aggResume_ch (H : Changes q z s) (hq : within [.wd, .pq] q = true) :
    Changes q z (State.aggResume s) := by
  refine H.op hq ?_
  have H := Changes.refl [.wd, .pq] s
  unfold State.aggResume
  repeat' first
    | with_reducible assumption | with_reducible apply log_ch | with_reducible apply pqBegin_ch
    | with_reducible refine ch_fst (by assumption) ?_ | rfl | with_reducible refine ch_ite (fun _ => ?_) fun _ => ?_ | split

theorem alAck_ch {k : ℕ} (H : Changes q z s) (hq : within [.rtc] q = true) :
    Changes q z (State.alAck s k) := by
  refine H.op hq ?_
  have H := Changes.refl [.rtc] s
  unfold State.alAck
  repeat' first
    | with_reducible assumption | (intro _) | with_reducible apply onAlarm_ch | rfl

theorem alignStep_ch (H : Changes q z s) (hq : within [.te] q = true) :
    Changes q z (State.alignStep s) := by
  refine H.op hq ?_
  have H := Changes.refl [.te] s
  unfold State.alignStep
  repeat' first
    | with_reducible assumption | (intro _)
    | (extract_lets +onlyGivenNames x; have : x = x := by (unfold x; rfl)
       clear this; clear_value x)
    | with_reducible apply onTe_ch | rfl

theorem enqueue_ch {f : OwnFrame} (H : Changes q z s) (hq : within [.nt] q = true) :
    Changes q z (State.enqueue s f) := by
  refine H.op hq ?_
  have H := Changes.refl [.nt] s
  unfold State.enqueue
  repeat' first
    | with_reducible assumption | (intro _)
    | (extract_lets +onlyGivenNames x; have : x = x := by (unfold x; rfl)
       clear this; clear_value x)
    | with_reducible apply onNt_ch | rfl

theorem deliver_ch {h : Hdr} {bs : List Byte} (H : Changes q z s) (hq : within [.lk, .nt, .hm] q = true) :
    Changes q z (State.deliver s h bs) := by
  refine H.op hq ?_
  have H := Changes.refl [.lk, .nt, .hm] s
  unfold State.deliver
  repeat' first
    | with_reducible assumption | (intro _) | with_reducible apply enqueue_ch | with_reducible apply onLk_ch
    | with_reducible apply onHm_ch | with_reducible refine ch_fst (by assumption) ?_ | rfl
    | with_reducible refine ch_ite (fun _ => ?_) fun _ => ?_ | split

theorem replyRaw_ch {h : Hdr} {opcode : ℕ} {params : List Byte} {sec : Bool} (H : Changes q z s) (hq : within [.lk, .tp, .nt,
    .hm] q = true) :
    Changes q z (State.replyRaw s h opcode params sec) := by
  refine H.op hq ?_
  have H := Changes.refl [.lk, .tp, .nt, .hm] s
  unfold State.replyRaw
  repeat' first
    | with_reducible assumption | (intro _) | with_reducible apply deliver_ch | with_reducible apply onKey_ch
    | with_reducible refine ch_fst (by assumption) ?_ | rfl | split

theorem answer_ch {h : Hdr} {opcode : ℕ} {st : Status} {bytes : List Byte} {sec : optParam Bool h.sec.isSome} (H : Changes q z
    s) (hq : within [.lk, .tp, .nt, .hm] q = true) :
    Changes q z (State.answer s h opcode st bytes sec) := by
  refine H.op hq ?_
  have H := Changes.refl [.lk, .tp, .nt, .hm] s
  unfold State.answer
  repeat' first
    | with_reducible assumption | (intro _)
    | (extract_lets +onlyGivenNames x; have hx : Changes [.lk, .tp, .nt, .hm] s x; (on_goal 1 => unfold x; clear x); on_goal 2 => clear_value x)
    | with_reducible apply deliver_ch | with_reducible apply replyRaw_ch | with_reducible apply onLk_ch
    | with_reducible refine ch_fst (by assumption) ?_ | rfl | with_reducible refine ch_ite (fun _ => ?_) fun _ => ?_ | split

theorem takeStamp_ch {port : ℕ} {id : ℕ} (H : Changes q z s) (hq : within [.te] q = true) :
    Changes q z (State.takeStamp s port id).1 := by
  refine Changes.op H hq ?_
  have H := Changes.refl [.te] s
  unfold State.takeStamp
  repeat' first
    | with_reducible assumption | (intro _)
    | (extract_lets +onlyGivenNames x; have : x = x := by (unfold x; rfl)
       clear this; clear_value x)
    | with_reducible apply onTe_ch | rfl

theorem sendFrame_ch {f : OwnFrame} (H : Changes q z s) (hq : within [.nt] q = true) :
    Changes q z (State.sendFrame s f) := by
  refine H.op hq ?_
  have H := Changes.refl [.nt] s
  unfold State.sendFrame
  repeat' first
    | with_reducible assumption | (intro _) | with_reducible apply enqueue_ch | with_reducible apply onNt_ch | rfl
    | with_reducible refine ch_ite (fun _ => ?_) fun _ => ?_

theorem sendPeer_ch {port : ℕ} {bytes : List Byte} {id : Option ℕ} {m : Option PtpMark} (H : Changes q z s) (hq : within [.nt]
    q = true) :
    Changes q z (State.sendPeer s port bytes id m) := by
  refine H.op hq ?_
  have H := Changes.refl [.nt] s
  unfold State.sendPeer
  repeat' first
    | with_reducible assumption | with_reducible apply sendFrame_ch | rfl

theorem answerFollow_ch {port : ℕ} {f : OwnFrame} (H : Changes q z s) (hq : within [.te, .nt] q = true) :
    Changes q z (State.answerFollow s port f) := by
  refine H.op hq ?_
  have H := Changes.refl [.te, .nt] s
  unfold State.answerFollow
  repeat' first
    | with_reducible assumption | with_reducible apply takeStamp_ch | with_reducible apply sendPeer_ch
    | with_reducible refine ch_fst (by assumption) ?_ | rfl | with_reducible refine ch_ite (fun _ => ?_) fun _ => ?_ | split

theorem answerPeer_ch {f : Heard} {m : List Byte} (H : Changes q z s) (hq : within [.nt] q = true) :
    Changes q z (State.answerPeer s f m) := by
  refine H.op hq ?_
  have H := Changes.refl [.nt] s
  unfold State.answerPeer
  repeat' first
    | with_reducible assumption | with_reducible apply sendPeer_ch | rfl
    | with_reducible refine ch_ite (fun _ => ?_) fun _ => ?_

theorem onInsts_ch {c : ℕ} {f : Inst → Inst} (H : Changes q z s) (hq : within [.insts] q = true) :
    Changes q z (State.onInsts s c f) := by
  refine H.op hq ?_
  have H := Changes.refl [.insts] s
  unfold State.onInsts
  repeat' first
    | with_reducible assumption
    | (extract_lets +onlyGivenNames x; have hx : Changes [.insts] s x; (on_goal 1 => unfold x; clear x); on_goal 2 => clear_value x)
    | with_reducible apply onInst_ch | rfl | with_reducible refine ch_ite (fun _ => ?_) fun _ => ?_

theorem unsettleChan_ch {c : ℕ} (H : Changes q z s) (hq : within [.convs] q = true) :
    Changes q z (State.unsettleChan s c) := by
  refine H.op hq ?_
  have H := Changes.refl [.convs] s
  unfold State.unsettleChan
  repeat' first
    | with_reducible assumption
    | (extract_lets +onlyGivenNames x; have hx : Changes [.convs] s x; (on_goal 1 => unfold x; clear x); on_goal 2 => clear_value x)
    | with_reducible apply unsettle_ch | rfl | with_reducible refine ch_ite (fun _ => ?_) fun _ => ?_

theorem skipSlot_ch {k : ℕ} (H : Changes q z s) (hq : within [.wd, .stands] q = true) :
    Changes q z (State.skipSlot s k) := by
  refine H.op hq ?_
  have H := Changes.refl [.wd, .stands] s
  unfold State.skipSlot
  repeat' first
    | with_reducible assumption | (intro _)
    | (extract_lets +onlyGivenNames x; have hx : Changes [.wd, .stands] s x; (on_goal 1 => unfold x; clear x); on_goal 2 => clear_value x)
    | (extract_lets +onlyGivenNames x; have : x = x := by (unfold x; rfl)
       clear this; clear_value x)
    | with_reducible apply log_ch | with_reducible apply onStand_ch | with_reducible refine ch_fst (by assumption) ?_ | rfl
    | with_reducible refine ch_ite (fun _ => ?_) fun _ => ?_

theorem slotDisturb_ch {k : ℕ} (H : Changes q z s) (hq : within [.wd, .stands] q = true) :
    Changes q z (State.slotDisturb s k) := by
  refine H.op hq ?_
  have H := Changes.refl [.wd, .stands] s
  unfold State.slotDisturb
  repeat' first
    | with_reducible assumption | (intro _)
    | (extract_lets +onlyGivenNames x; have hx : Changes [.wd, .stands] s x; (on_goal 1 => unfold x; clear x); on_goal 2 => clear_value x)
    | (extract_lets +onlyGivenNames x; have : x = x := by (unfold x; rfl)
       clear this; clear_value x)
    | with_reducible apply skipSlot_ch | with_reducible apply onStand_ch | rfl
    | with_reducible refine ch_ite (fun _ => ?_) fun _ => ?_

theorem gainChange_ch {c : ℕ} {old : ℕ} {new : ℕ} (H : Changes q z s) (hq : within [.wd, .chans, .convs, .stands, .filts,
    .insts] q = true) :
    Changes q z (State.gainChange s c old new) := by
  refine H.op hq ?_
  have H := Changes.refl [.wd, .chans, .convs, .stands, .filts, .insts] s
  unfold State.gainChange
  repeat' first
    | with_reducible assumption | (intro _)
    | (extract_lets +onlyGivenNames x; have hx : Changes [.wd, .chans, .convs, .stands, .filts, .insts] s x; (on_goal 1 => unfold x; clear x); on_goal 2 => clear_value x)
    | (extract_lets +onlyGivenNames x; have : x = x := by (unfold x; rfl)
       clear this; clear_value x)
    | with_reducible apply onInsts_ch | with_reducible apply abortOn_ch | with_reducible apply unsettleChan_ch
    | with_reducible apply slotDisturb_ch | with_reducible apply onFilt_ch | rfl
    | with_reducible refine ch_ite (fun _ => ?_) fun _ => ?_

theorem chanChange_ch {old : State} {c : ℕ} (H : Changes q z s) (hq : within [.wd, .chans, .convs, .stands, .filts, .insts] q =
    true) :
    Changes q z (State.chanChange old s c) := by
  refine H.op hq ?_
  have H := Changes.refl [.wd, .chans, .convs, .stands, .filts, .insts] s
  unfold State.chanChange
  repeat' first
    | with_reducible assumption | (intro _)
    | (extract_lets +onlyGivenNames x; have hx : Changes [.wd, .chans, .convs, .stands, .filts, .insts] s x; (on_goal 1 => unfold x; clear x); on_goal 2 => clear_value x)
    | (extract_lets +onlyGivenNames x; have : x = x := by (unfold x; rfl)
       clear this; clear_value x)
    | with_reducible apply gainChange_ch | with_reducible apply abortOn_ch | with_reducible apply unsettleChan_ch
    | with_reducible apply onChan_ch | rfl | with_reducible refine ch_ite (fun _ => ?_) fun _ => ?_

theorem refChange_ch (H : Changes q z s) (hq : within [.wd, .ref, .chans, .convs, .stands] q = true) :
    Changes q z (State.refChange s) := by
  refine H.op hq ?_
  have H := Changes.refl [.wd, .ref, .chans, .convs, .stands] s
  unfold State.refChange
  repeat' first
    | with_reducible assumption | (intro _)
    | (extract_lets +onlyGivenNames x; have hx : Changes [.wd, .ref, .chans, .convs, .stands] s x; (on_goal 1 => unfold x; clear x); on_goal 2 => clear_value x)
    | with_reducible apply ch_foldl | with_reducible apply ch_foldl_fst | with_reducible apply unsettle_ch
    | with_reducible apply slotDisturb_ch | with_reducible apply abortCheck_ch | with_reducible apply onRef_ch | rfl

theorem mapEntry_ch {c : ℕ} {r : Regs} (H : Changes q z s) (hq : within [.wd] q = true) :
    Changes q z (State.mapEntry s c r) := by
  refine H.op hq ?_
  have H := Changes.refl [.wd] s
  unfold State.mapEntry
  repeat' first
    | with_reducible assumption | with_reducible apply log_ch | rfl

theorem elemLog_ch {old : State} {e : ℕ} (H : Changes q z s) (hq : within [.wd] q = true) :
    Changes q z (State.elemLog old s e) := by
  refine H.op hq ?_
  have H := Changes.refl [.wd] s
  unfold State.elemLog
  repeat' first
    | with_reducible assumption | with_reducible apply mapEntry_ch | rfl
    | with_reducible refine ch_ite (fun _ => ?_) fun _ => ?_

theorem mapLog_ch {old : State} {c : ℕ} (H : Changes q z s) (hq : within [.wd] q = true) :
    Changes q z (State.mapLog old s c) := by
  refine H.op hq ?_
  have H := Changes.refl [.wd] s
  unfold State.mapLog
  repeat' first
    | with_reducible assumption | with_reducible apply mapEntry_ch | rfl
    | with_reducible refine ch_ite (fun _ => ?_) fun _ => ?_

theorem pioReload_ch {c : ℕ} (H : Changes q z s) (hq : within [.filts] q = true) :
    Changes q z (State.pioReload s c) := by
  refine H.op hq ?_
  have H := Changes.refl [.filts] s
  unfold State.pioReload
  repeat' first
    | with_reducible assumption | (intro _) | with_reducible apply onFilt_ch | with_reducible refine ch_fst (by assumption) ?_
    | rfl | with_reducible refine ch_ite (fun _ => ?_) fun _ => ?_ | split

theorem applyBlock_ch (H : Changes q z s) (hq : within [.pr, .wd, .ref, .chans, .convs, .stands, .filts, .insts, .me] q = true)
    :
    Changes q z (State.applyBlock s) := by
  refine H.op hq ?_
  have H := Changes.refl [.pr, .wd, .ref, .chans, .convs, .stands, .filts, .insts, .me] s
  unfold State.applyBlock
  repeat' first
    | with_reducible assumption | (intro _)
    | (extract_lets +onlyGivenNames x; have hx : Changes [.pr, .wd, .ref, .chans, .convs, .stands, .filts, .insts, .me] s x; (on_goal 1 => unfold x; clear x); on_goal 2 => clear_value x)
    | with_reducible apply ch_foldl | with_reducible apply ch_foldl_fst | with_reducible apply takeScheduled_ch
    | with_reducible apply chanChange_ch | with_reducible apply refChange_ch | with_reducible apply elemLog_ch
    | with_reducible apply mapLog_ch | with_reducible apply pioReload_ch | with_reducible apply onMe_ch | rfl
    | with_reducible refine ch_ite (fun _ => ?_) fun _ => ?_

theorem resumeHistory_ch (H : Changes q z s) (hq : within [.hw, .wd, .me, .pq] q = true) :
    Changes q z (State.resumeHistory s) := by
  refine H.op hq ?_
  have H := Changes.refl [.hw, .wd, .me, .pq] s
  unfold State.resumeHistory
  repeat' first
    | with_reducible assumption | (intro _)
    | (extract_lets +onlyGivenNames x; have hx : Changes [.hw, .wd, .me, .pq] s x; (on_goal 1 => unfold x; clear x); on_goal 2 => clear_value x)
    | with_reducible apply log_ch | with_reducible apply pqBegin_ch | with_reducible apply onHw_ch
    | with_reducible apply onMe_ch | with_reducible refine ch_fst (by assumption) ?_ | rfl | split

theorem beginB1_ch (H : Changes q z s) (hq : within [.pw, .hw, .wd, .me, .pq] q = true) :
    Changes q z (State.beginB1 s) := by
  refine H.op hq ?_
  have H := Changes.refl [.pw, .hw, .wd, .me, .pq] s
  unfold State.beginB1
  repeat' first
    | with_reducible assumption | (intro _)
    | (extract_lets +onlyGivenNames x; have hx : Changes [.pw, .hw, .wd, .me, .pq] s x; (on_goal 1 => unfold x; clear x); on_goal 2 => clear_value x)
    | with_reducible apply resumeHistory_ch | with_reducible apply log_ch | with_reducible apply onPw_ch
    | with_reducible apply onMe_ch | rfl

theorem handover_ch (H : Changes q z s) (hq : within [.pw, .wd, .me] q = true) :
    Changes q z (State.handover s) := by
  refine H.op hq ?_
  have H := Changes.refl [.pw, .wd, .me] s
  unfold State.handover
  repeat' first
    | with_reducible assumption | (intro _)
    | (extract_lets +onlyGivenNames x; have hx : Changes [.pw, .wd, .me] s x; (on_goal 1 => unfold x; clear x); on_goal 2 => clear_value x)
    | with_reducible apply log_ch | with_reducible apply onMe_ch | with_reducible apply onPw_ch | rfl

theorem books_ch (H : Changes q z s) (hq : within [.pw, .hw, .wd, .me, .pq] q = true) :
    Changes q z (State.books s) := by
  refine H.op hq ?_
  have H := Changes.refl [.pw, .hw, .wd, .me, .pq] s
  unfold State.books
  repeat' first
    | with_reducible assumption | (intro _)
    | (extract_lets +onlyGivenNames x; have hx : Changes [.pw, .hw, .wd, .me, .pq] s x; (on_goal 1 => unfold x; clear x); on_goal 2 => clear_value x)
    | with_reducible apply beginB1_ch | with_reducible apply handover_ch | with_reducible apply onPw_ch | rfl
    | with_reducible refine ch_ite (fun _ => ?_) fun _ => ?_

theorem latchRaise_ch {r : Raise} (H : Changes q z s) (hq : within [.tp] q = true) :
    Changes q z (State.latchRaise s r) := by
  refine H.op hq ?_
  have H := Changes.refl [.tp] s
  unfold State.latchRaise
  repeat' first
    | with_reducible assumption | (intro _) | with_reducible apply onSlot_ch | rfl

theorem bufferRaise_ch {slot : ℕ} (H : Changes q z s) (hq : within [.tp] q = true) :
    Changes q z (State.bufferRaise s slot) := by
  refine H.op hq ?_
  have H := Changes.refl [.tp] s
  unfold State.bufferRaise
  repeat' first
    | with_reducible assumption | (intro _) | with_reducible apply onTp_ch | rfl

theorem leaveCfTest_ch {p : Cf → Bool} {stays : Bool} (H : Changes q z s) (hq : within [.wd, .me] q = true) :
    Changes q z (State.leaveCfTest s p stays) := by
  refine H.op hq ?_
  have H := Changes.refl [.wd, .me] s
  unfold State.leaveCfTest
  repeat' first
    | with_reducible assumption | (intro _)
    | (extract_lets +onlyGivenNames x; have : x = x := by (unfold x; rfl)
       clear this; clear_value x)
    | with_reducible apply log_ch | with_reducible apply onMe_ch | rfl

theorem endCfTest_ch (H : Changes q z s) (hq : within [.wd, .me] q = true) :
    Changes q z (State.endCfTest s) := by
  refine H.op hq ?_
  have H := Changes.refl [.wd, .me] s
  unfold State.endCfTest
  repeat' first
    | with_reducible assumption | (intro _) | with_reducible apply leaveCfTest_ch | rfl
    | with_reducible refine ch_ite (fun _ => ?_) fun _ => ?_

theorem lockActions_ch (H : Changes q z s) (hq : within [.se, .wd, .hm, .me] q = true) :
    Changes q z (State.lockActions s) := by
  refine H.op hq ?_
  have H := Changes.refl [.se, .wd, .hm, .me] s
  unfold State.lockActions
  repeat' first
    | with_reducible assumption | (intro _) | with_reducible apply endCfTest_ch | with_reducible apply onHm_ch
    | with_reducible apply onSe_ch | rfl

theorem respond_ch {resp : ℕ} (H : Changes q z s) (hq : within [.se, .lk, .wd, .hm, .me] q = true) :
    Changes q z (State.respond s resp) := by
  refine H.op hq ?_
  have H := Changes.refl [.se, .lk, .wd, .hm, .me] s
  unfold State.respond
  repeat' first
    | with_reducible assumption
    | (extract_lets +onlyGivenNames x; have hx : Changes [.se, .lk, .wd, .hm, .me] s x; (on_goal 1 => unfold x; clear x); on_goal 2 => clear_value x)
    | with_reducible apply lockActions_ch | with_reducible apply irq_ch | rfl
    | with_reducible refine ch_ite (fun _ => ?_) fun _ => ?_

theorem newChallenge_ch (H : Changes q z s) (hq : within [.tp, .free] q = true) :
    Changes q z (State.newChallenge s) := by
  refine H.op hq ?_
  have H := Changes.refl [.tp, .free] s
  unfold State.newChallenge
  repeat' first
    | with_reducible assumption | (intro _) | with_reducible apply drew_ch | with_reducible apply onTp_ch | rfl

theorem logRaise_ch {r : Raise} (H : Changes q z s) (hq : within [.wd] q = true) :
    Changes q z (State.logRaise s r) := by
  refine H.op hq ?_
  have H := Changes.refl [.wd] s
  unfold State.logRaise
  repeat' first
    | with_reducible assumption
    | (extract_lets +onlyGivenNames x; have hx : Changes [.wd] s x; (on_goal 1 => unfold x; clear x); on_goal 2 => clear_value x)
    | (extract_lets +onlyGivenNames x; have : x = x := by (unfold x; rfl)
       clear this; clear_value x)
    | with_reducible apply logAt_ch | rfl | with_reducible refine ch_ite (fun _ => ?_) fun _ => ?_

theorem raiseAll_ch {l : List Raise} (H : Changes q z s) (hq : within [.se, .lk, .tp, .wd, .hm, .me, .free] q = true) :
    Changes q z (State.raiseAll s l) := by
  refine H.op hq ?_
  have H := Changes.refl [.se, .lk, .tp, .wd, .hm, .me, .free] s
  unfold State.raiseAll
  repeat' first
    | with_reducible assumption | (intro _)
    | (extract_lets +onlyGivenNames x; have hx : Changes [.se, .lk, .tp, .wd, .hm, .me, .free] s x; (on_goal 1 => unfold x; clear x); on_goal 2 => clear_value x)
    | (extract_lets +onlyGivenNames x; have : x = x := by (unfold x; rfl)
       clear this; clear_value x)
    | with_reducible apply ch_foldl | with_reducible apply ch_foldl_fst | with_reducible apply latchRaise_ch
    | with_reducible apply bufferRaise_ch | with_reducible apply respond_ch | with_reducible apply newChallenge_ch
    | with_reducible apply logRaise_ch | with_reducible apply onTp_ch | rfl
    | with_reducible refine ch_ite (fun _ => ?_) fun _ => ?_

theorem tamperRaise_ch {slot : ℕ} {circuit : ℕ} {holds : Bool} (H : Changes q z s) (hq : within [.se, .lk, .tp, .wd, .hm, .me,
    .free] q = true) :
    Changes q z (State.tamperRaise s slot circuit holds) := by
  refine H.op hq ?_
  have H := Changes.refl [.se, .lk, .tp, .wd, .hm, .me, .free] s
  unfold State.tamperRaise
  repeat' first
    | with_reducible assumption | with_reducible apply raiseAll_ch | rfl

theorem tamperPulse_ch {slot : ℕ} (H : Changes q z s) (hq : within [.se, .lk, .tp, .wd, .hm, .me, .free] q = true) :
    Changes q z (State.tamperPulse s slot) := by
  refine H.op hq ?_
  have H := Changes.refl [.se, .lk, .tp, .wd, .hm, .me, .free] s
  unfold State.tamperPulse
  repeat' first
    | with_reducible assumption | with_reducible apply tamperRaise_ch | rfl
    | with_reducible refine ch_ite (fun _ => ?_) fun _ => ?_

theorem bootAuth_ch {ok : Bool} (H : Changes q z s) (hq : within [.se, .lk, .tp, .wd, .hm, .me, .free] q = true) :
    Changes q z (State.bootAuth s ok) := by
  refine H.op hq ?_
  have H := Changes.refl [.se, .lk, .tp, .wd, .hm, .me, .free] s
  unfold State.bootAuth
  repeat' first
    | with_reducible assumption | with_reducible apply tamperPulse_ch | rfl
    | with_reducible refine ch_ite (fun _ => ?_) fun _ => ?_

theorem onRegion_ch {k : ℕ} {b : ℕ} {f : Region → Region} (H : Changes q z s) (hq : within [.up] q = true) :
    Changes q z (State.onRegion s k b f) := by
  refine H.op hq ?_
  have H := Changes.refl [.up] s
  unfold State.onRegion
  repeat' first
    | with_reducible assumption | (intro _) | with_reducible apply onUp_ch | rfl

theorem countTrial_ch {k : ℕ} {b : ℕ} (H : Changes q z s) (hq : within [.up] q = true) :
    Changes q z (State.countTrial s k b) := by
  refine H.op hq ?_
  have H := Changes.refl [.up] s
  unfold State.countTrial
  repeat' first
    | with_reducible assumption | (intro _) | with_reducible apply onRegion_ch | rfl
    | with_reducible refine ch_ite (fun _ => ?_) fun _ => ?_

theorem resumeTrial_ch {k : ℕ} {b : ℕ} (H : Changes q z s) (hq : within [.up] q = true) :
    Changes q z (State.resumeTrial s k b) := by
  refine H.op hq ?_
  have H := Changes.refl [.up] s
  unfold State.resumeTrial
  repeat' first
    | with_reducible assumption | (intro _)
    | (extract_lets +onlyGivenNames x; have : x = x := by (unfold x; rfl)
       clear this; clear_value x)
    | with_reducible apply onUp_ch | rfl | with_reducible refine ch_ite (fun _ => ?_) fun _ => ?_

theorem runRegion_ch {k : ℕ} {b : ℕ} (H : Changes q z s) (hq : within [.up] q = true) :
    Changes q z (State.runRegion s k b) := by
  refine H.op hq ?_
  have H := Changes.refl [.up] s
  unfold State.runRegion
  repeat' first
    | with_reducible assumption | (intro _) | with_reducible apply onUp_ch | rfl

theorem bootChoice_ch {k : ℕ} {firstOk : Bool} {otherOk : Bool} {powerUp : Bool} (H : Changes q z s) (hq : within [.se, .lk,
    .tp, .wd, .up, .hm, .me, .free] q = true) :
    Changes q z (State.bootChoice s k firstOk otherOk powerUp).1 := by
  refine Changes.op H hq ?_
  have H := Changes.refl [.se, .lk, .tp, .wd, .up, .hm, .me, .free] s
  unfold State.bootChoice
  repeat' first
    | with_reducible assumption
    | (extract_lets +onlyGivenNames x; have hx : Changes [.se, .lk, .tp, .wd, .up, .hm, .me, .free] s x; (on_goal 1 => unfold x; clear x); on_goal 2 => clear_value x)
    | (extract_lets +onlyGivenNames x; have : x = x := by (unfold x; rfl)
       clear this; clear_value x)
    | with_reducible apply countTrial_ch | with_reducible apply resumeTrial_ch | with_reducible apply runRegion_ch
    | with_reducible apply bootAuth_ch | rfl | with_reducible refine ch_ite (fun _ => ?_) fun _ => ?_ | split

theorem bootFaultTo_ch {n : ℕ} (H : Changes q z s) (hq : within [.pw] q = true) :
    Changes q z (State.bootFaultTo s n) := by
  refine H.op hq ?_
  have H := Changes.refl [.pw] s
  unfold State.bootFaultTo
  repeat' first
    | with_reducible assumption | (intro _) | with_reducible apply onPw_ch | rfl

theorem bootKind_ch {k : ℕ} {firstOk : Bool} {otherOk : Bool} {powerUp : Bool} (H : Changes q z s) (hq : within [.se, .lk, .tp,
    .wd, .up, .hm, .me, .free] q = true) :
    Changes q z (State.bootKind s k firstOk otherOk powerUp).1 := by
  refine Changes.op H hq ?_
  have H := Changes.refl [.se, .lk, .tp, .wd, .up, .hm, .me, .free] s
  unfold State.bootKind
  repeat' first
    | with_reducible assumption | (intro _)
    | (extract_lets +onlyGivenNames x; have hx : Changes [.se, .lk, .tp, .wd, .up, .hm, .me, .free] s x.1; (on_goal 1 => unfold x; clear x); on_goal 2 => clear_value x)
    | with_reducible apply bootChoice_ch | with_reducible apply onUp_ch | rfl

theorem learnAddress_ch {e : Eth} (H : Changes q z s) (hq : within [.nt] q = true) :
    Changes q z (State.learnAddress s e) := by
  refine H.op hq ?_
  have H := Changes.refl [.nt] s
  unfold State.learnAddress
  repeat' first
    | with_reducible assumption | (intro _) | with_reducible apply onNt_ch | with_reducible refine ch_fst (by assumption) ?_
    | rfl | split

theorem hostHold_ch {f : Heard} (H : Changes q z s) (hq : within [.nt] q = true) :
    Changes q z (State.hostHold s f) := by
  refine H.op hq ?_
  have H := Changes.refl [.nt] s
  unfold State.hostHold
  repeat' first
    | with_reducible assumption | (intro _)
    | (extract_lets +onlyGivenNames x; have : x = x := by (unfold x; rfl)
       clear this; clear_value x)
    | with_reducible apply onNt_ch | rfl | with_reducible refine ch_ite (fun _ => ?_) fun _ => ?_

theorem hushNet_ch (H : Changes q z s) (hq : within [.nt, .qu, .pm] q = true) :
    Changes q z (State.hushNet s) := by
  refine H.op hq ?_
  have H := Changes.refl [.nt, .qu, .pm] s
  unfold State.hushNet
  repeat' first
    | with_reducible assumption | (intro _)
    | (extract_lets +onlyGivenNames x; have : x = x := by (unfold x; rfl)
       clear this; clear_value x)
    | with_reducible apply onPm_ch | with_reducible apply onQu_ch | with_reducible apply onNt_ch | rfl

theorem hush_ch {src : ℕ} (H : Changes q z s) (hq : within [.lk, .nt, .qu, .pm] q = true) :
    Changes q z (State.hush s src) := by
  refine H.op hq ?_
  have H := Changes.refl [.lk, .nt, .qu, .pm] s
  unfold State.hush
  repeat' first
    | with_reducible assumption | (intro _)
    | (extract_lets +onlyGivenNames x; have hx : Changes [.lk, .nt, .qu, .pm] s x; (on_goal 1 => unfold x; clear x); on_goal 2 => clear_value x)
    | with_reducible apply hushNet_ch | with_reducible apply irq_ch | with_reducible apply onLk_ch | rfl
    | with_reducible refine ch_ite (fun _ => ?_) fun _ => ?_

theorem macCommand_ch {u : Udp} {pkt : List Byte} (H : Changes q z s) (hq : within [.lk, .nt, .qu, .pm] q = true) :
    Changes q z (State.macCommand s u pkt) := by
  refine H.op hq ?_
  have H := Changes.refl [.lk, .nt, .qu, .pm] s
  unfold State.macCommand
  repeat' first
    | with_reducible assumption | (intro _)
    | (extract_lets +onlyGivenNames x; have hx : Changes [.lk, .nt, .qu, .pm] s x; (on_goal 1 => unfold x; clear x); on_goal 2 => clear_value x)
    | (extract_lets +onlyGivenNames x; have : x = x := by (unfold x; rfl)
       clear this; clear_value x)
    | with_reducible apply hush_ch | with_reducible apply enqueue_ch | with_reducible apply onNt_ch | rfl
    | with_reducible refine ch_ite (fun _ => ?_) fun _ => ?_

theorem toMac_ch {f : Heard} (H : Changes q z s) (hq : within [.lk, .nt, .qu, .pm] q = true) :
    Changes q z (State.toMac s f) := by
  refine H.op hq ?_
  have H := Changes.refl [.lk, .nt, .qu, .pm] s
  unfold State.toMac
  repeat' first
    | with_reducible assumption
    | (extract_lets +onlyGivenNames x; have hx : Changes [.lk, .nt, .qu, .pm] s x; (on_goal 1 => unfold x; clear x); on_goal 2 => clear_value x)
    | with_reducible apply learnAddress_ch | with_reducible apply hostHold_ch | with_reducible apply macCommand_ch
    | with_reducible refine ch_fst (by assumption) ?_ | rfl | with_reducible refine ch_ite (fun _ => ?_) fun _ => ?_ | split

theorem forward_ch {f : Heard} (H : Changes q z s) (hq : within [.nt] q = true) :
    Changes q z (State.forward s f) := by
  refine H.op hq ?_
  have H := Changes.refl [.nt] s
  unfold State.forward
  repeat' first
    | with_reducible assumption | (intro _) | with_reducible apply onNt_ch | rfl

theorem bridge_ch {f : Heard} (H : Changes q z s) (hq : within [.lk, .nt, .qu, .pm] q = true) :
    Changes q z (State.bridge s f) := by
  refine H.op hq ?_
  have H := Changes.refl [.lk, .nt, .qu, .pm] s
  unfold State.bridge
  repeat' first
    | with_reducible assumption | (intro _)
    | (extract_lets +onlyGivenNames x; have hx : Changes [.lk, .nt, .qu, .pm] s x; (on_goal 1 => unfold x; clear x); on_goal 2 => clear_value x)
    | with_reducible apply toMac_ch | with_reducible apply forward_ch | with_reducible apply onNt_ch | rfl
    | with_reducible refine ch_ite (fun _ => ?_) fun _ => ?_

theorem brownOut_ch (H : Changes q z s) (hq : within [.pw, .rtc, .pr, .tp] q = true) :
    Changes q z (State.brownOut s) := by
  refine H.op hq ?_
  have H := Changes.refl [.pw, .rtc, .pr, .tp] s
  unfold State.brownOut
  repeat' first
    | with_reducible assumption | (intro _)
    | (extract_lets +onlyGivenNames x; have hx : Changes [.pw, .rtc, .pr, .tp] s x; (on_goal 1 => unfold x; clear x); on_goal 2 => clear_value x)
    | with_reducible apply onRtc_ch | with_reducible apply onTp_ch | with_reducible apply onPw_ch
    | with_reducible apply onPr_ch | rfl

theorem under_ch {p : Option (List (Nat × Nat))} {f : State → State} (H : Changes q z s) (hq : within [.pr] q = true)
    (hf : ∀ x, Changes q z x → Changes q z (f x)) : Changes q z (s.under p f) := by
  unfold State.under; split
  · exact hf _ H
  · exact onPr_ch (hf _ (onPr_ch H hq)) hq

theorem eventToUnits_ch {cls : ℕ} {b : ℕ} {id : ℕ} {t : ℕ} (H : Changes q z s) (hq : within [.units] q = true) :
    Changes q z (State.eventToUnits s cls b id t) := by
  refine H.op hq ?_
  have H := Changes.refl [.units] s
  unfold State.eventToUnits
  repeat' first
    | with_reducible assumption | (intro _)
    | (refine Changes.op (a := [.units]) H (by rfl) ⟨?_⟩; intro p hp; cases p <;> first | exact absurd (by decide) hp | rfl)

theorem qGroup_ch {isX : Bool} {counted : ℕ} {a : ℕ} {b : ℕ} {build : Option ℕ → Option ℕ → List (List ℕ)} {upd : Queue →
    Queue} (H : Changes q z s) (hq : within [.lk, .qu] q = true) :
    Changes q z (State.qGroup s isX counted a b build upd) := by
  refine H.op hq ?_
  have H := Changes.refl [.lk, .qu] s
  unfold State.qGroup
  repeat' first
    | with_reducible assumption | (intro _)
    | (extract_lets +onlyGivenNames x; have : x = x := by (unfold x; rfl)
       clear this; clear_value x)
    | with_reducible apply irq_ch | with_reducible apply onQu_ch | with_reducible refine ch_fst (by assumption) ?_ | rfl
    | with_reducible refine ch_ite (fun _ => ?_) fun _ => ?_

theorem qX_ch {code : ℕ} {flags : ℕ} {value : ℕ} {t : ℕ} (H : Changes q z s) (hq : within [.lk, .qu] q = true) :
    Changes q z (State.qX s code flags value t) := by
  refine H.op hq ?_
  have H := Changes.refl [.lk, .qu] s
  unfold State.qX
  repeat' first
    | with_reducible assumption | (intro _) | with_reducible apply qGroup_ch | rfl

theorem eventMark_ch {code : ℕ} {t : ℕ} {e : PqEvent} (H : Changes q z s) (hq : within [.lk, .qu] q = true) :
    Changes q z (State.eventMark s code t e) := by
  refine H.op hq ?_
  have H := Changes.refl [.lk, .qu] s
  unfold State.eventMark
  repeat' first
    | with_reducible assumption | with_reducible apply irq_ch | with_reducible apply qX_ch | rfl
    | with_reducible refine ch_ite (fun _ => ?_) fun _ => ?_

theorem eventOpen_ch {b : ℕ} {t : ℕ} {cls : ℕ} {phases : ℕ} {extreme : ℚ} {second : ℚ} {means : List ℚ} (H : Changes q z s) (hq
    : within [.lk, .qu, .units, .pq] q = true) :
    Changes q z (State.eventOpen s b t cls phases extreme second means) := by
  refine H.op hq ?_
  have H := Changes.refl [.lk, .qu, .units, .pq] s
  unfold State.eventOpen
  repeat' first
    | with_reducible assumption | (intro _)
    | (extract_lets +onlyGivenNames x; have hx : Changes [.lk, .qu, .units, .pq] s x; (on_goal 1 => unfold x; clear x); on_goal 2 => clear_value x)
    | (extract_lets +onlyGivenNames x; have : x = x := by (unfold x; rfl)
       clear this; clear_value x)
    | with_reducible apply eventToUnits_ch | with_reducible apply eventMark_ch | with_reducible apply onBus_ch
    | with_reducible apply onPq_ch | rfl

theorem eventEnd_ch {b : ℕ} {t : ℕ} {e : PqEvent} {flags : ℕ} (H : Changes q z s) (hq : within [.lk, .qu, .pq, .free] q = true)
    :
    Changes q z (State.eventEnd s b t e flags) := by
  refine H.op hq ?_
  have H := Changes.refl [.lk, .qu, .pq, .free] s
  unfold State.eventEnd
  repeat' first
    | with_reducible assumption | (intro _)
    | (extract_lets +onlyGivenNames x; have hx : Changes [.lk, .qu, .pq, .free] s x; (on_goal 1 => unfold x; clear x); on_goal 2 => clear_value x)
    | (extract_lets +onlyGivenNames x; have : x = x := by (unfold x; rfl)
       clear this; clear_value x)
    | with_reducible apply onBus_ch | with_reducible apply eventMark_ch | with_reducible apply onPq_ch
    | with_reducible apply drew_ch | rfl

theorem judgeMsv_ch {b : ℕ} {t : ℕ} {x : ℕ} {sq : List ℚ} (H : Changes q z s) (hq : within [.lk, .qu, .units, .pq, .free] q =
    true) :
    Changes q z (State.judgeMsv s b t x sq) := by
  refine H.op hq ?_
  have H := Changes.refl [.lk, .qu, .units, .pq, .free] s
  unfold State.judgeMsv
  repeat' first
    | with_reducible assumption | (intro _)
    | (extract_lets +onlyGivenNames x; have : x = x := by (unfold x; rfl)
       clear this; clear_value x)
    | with_reducible apply eventOpen_ch | with_reducible apply onBus_ch | with_reducible apply eventEnd_ch
    | with_reducible refine ch_fst (by assumption) ?_ | rfl | with_reducible refine ch_ite (fun _ => ?_) fun _ => ?_ | split

theorem formCycles_ch {b : ℕ} {endT : ℕ} {st : ℕ} (H : Changes q z s) (hq : within [.lk, .qu, .units, .pq, .free] q = true) :
    Changes q z (State.formCycles s b endT st) := by
  refine H.op hq ?_
  have H := Changes.refl [.lk, .qu, .units, .pq, .free] s
  unfold State.formCycles
  repeat' first
    | with_reducible assumption | (intro _)
    | (extract_lets +onlyGivenNames x; have hx : Changes [.lk, .qu, .units, .pq, .free] s x; (on_goal 1 => unfold x; clear x); on_goal 2 => clear_value x)
    | (extract_lets +onlyGivenNames x; have : x = x := by (unfold x; rfl)
       clear this; clear_value x)
    | with_reducible apply ch_foldl | with_reducible apply ch_foldl_fst | with_reducible apply closeAccs_ch
    | with_reducible apply onBus_ch | with_reducible apply judgeMsv_ch | rfl
    | with_reducible refine ch_ite (fun _ => ?_) fun _ => ?_

theorem closeCycles_ch {b : ℕ} (H : Changes q z s) (hq : within [.pr, .lk, .qu, .units, .pq, .free] q = true) :
    Changes q z (State.closeCycles s b) := by
  refine H.op hq ?_
  have H := Changes.refl [.pr, .lk, .qu, .units, .pq, .free] s
  unfold State.closeCycles
  repeat' first
    | with_reducible assumption | (intro _) | with_reducible apply under_ch | with_reducible apply formCycles_ch
    | with_reducible refine ch_fst (by assumption) ?_ | rfl | split

theorem winState_ch {w : PqWin} (H : Changes q z s) (hq : within [.pr] q = true) :
    Changes q z (winState s w) := by
  refine H.op hq ?_
  have H := Changes.refl [.pr] s
  unfold winState
  repeat' first
    | with_reducible assumption | (intro _) | with_reducible apply onPr_ch | with_reducible refine ch_fst (by assumption) ?_
    | rfl | split

theorem onEvent_ch {b : ℕ} {cls : ℕ} {f : PqEvent → PqEvent} (H : Changes q z s) (hq : within [.pq] q = true) :
    Changes q z (State.onEvent s b cls f) := by
  refine H.op hq ?_
  have H := Changes.refl [.pq] s
  unfold State.onEvent
  repeat' first
    | with_reducible assumption | (intro _) | with_reducible apply onBus_ch | rfl

theorem judge_ch {b : ℕ} {t : ℕ} {cls : ℕ} {phases : ℕ} {start : Bool} {stop : Bool} {x : ℚ} {worse : ℚ → ℚ → Bool} (H :
    Changes q z s) (hq : within [.lk, .qu, .units, .pq, .free] q = true) :
    Changes q z (State.judge s b t cls phases start stop x worse) := by
  refine H.op hq ?_
  have H := Changes.refl [.lk, .qu, .units, .pq, .free] s
  unfold State.judge
  repeat' first
    | with_reducible assumption | (intro _)
    | (extract_lets +onlyGivenNames x; have : x = x := by (unfold x; rfl)
       clear this; clear_value x)
    | with_reducible apply eventOpen_ch | with_reducible apply eventEnd_ch | with_reducible apply onEvent_ch
    | with_reducible refine ch_fst (by assumption) ?_ | rfl | with_reducible refine ch_ite (fun _ => ?_) fun _ => ?_ | split

theorem judgeMain_ch {b : ℕ} {t : ℕ} {u : List ℚ} (H : Changes q z s) (hq : within [.lk, .qu, .units, .pq, .free] q = true) :
    Changes q z (State.judgeMain s b t u) := by
  refine H.op hq ?_
  have H := Changes.refl [.lk, .qu, .units, .pq, .free] s
  unfold State.judgeMain
  repeat' first
    | with_reducible assumption | (intro _)
    | (extract_lets +onlyGivenNames x; have hx : Changes [.lk, .qu, .units, .pq, .free] s x; (on_goal 1 => unfold x; clear x); on_goal 2 => clear_value x)
    | (extract_lets +onlyGivenNames x; have : x = x := by (unfold x; rfl)
       clear this; clear_value x)
    | with_reducible apply judge_ch | rfl

theorem judgeDev_ch {b : ℕ} {t : ℕ} {u : List ℚ} {began : Bool} (H : Changes q z s) (hq : within [.lk, .qu, .units, .pq, .free]
    q = true) :
    Changes q z (State.judgeDev s b t u began) := by
  refine H.op hq ?_
  have H := Changes.refl [.lk, .qu, .units, .pq, .free] s
  unfold State.judgeDev
  repeat' first
    | with_reducible assumption | (intro _)
    | (extract_lets +onlyGivenNames x; have : x = x := by (unfold x; rfl)
       clear this; clear_value x)
    | with_reducible apply ch_foldl | with_reducible apply ch_foldl_fst | with_reducible apply eventOpen_ch
    | with_reducible apply eventEnd_ch | with_reducible apply onEvent_ch | with_reducible refine ch_fst (by assumption) ?_
    | rfl | with_reducible refine ch_ite (fun _ => ?_) fun _ => ?_ | split

theorem judgeRvc_ch {b t : Nat} {u : List Rat} {began : Bool} (H : Changes q z s) (hq : within [.lk, .qu, .units, .pq, .free] q = true) :
    Changes q z (s.judgeRvc b t u began) := by
  unfold State.judgeRvc
  extract_lets n s1 m d hit push s2 s3
  have hp : ∀ x, Changes q z x → Changes q z (push x) := fun x h => onBus_ch h (wt hq)
  have h1 : Changes q z s1 := by
    unfold s1; split
    · exact eventEnd_ch H (wt hq)
    · exact H
  suffices h2 : Changes q z s2 from ch_ite (fun _ => onBus_ch h1 (wt hq)) fun _ => onBus_ch h2 (wt hq)
  · unfold s2; split
    · extract_lets dm e2 p
      have h1 : Changes q z p := hp _ (onEvent_ch H (wt hq))
      clear_value p
      exact ch_ite (fun _ => eventEnd_ch h1 (wt hq)) fun _ => h1
    · exact ch_ite (fun _ => hp _ (eventOpen_ch H (wt hq))) fun _ => hp _ H

theorem flagSupra_ch {b : ℕ} {start : ℚ} (H : Changes q z s) (hq : within [.pq] q = true) :
    Changes q z (State.flagSupra s b start) := by
  refine H.op hq ?_
  have H := Changes.refl [.pq] s
  unfold State.flagSupra
  repeat' first
    | with_reducible assumption | (intro _)
    | (extract_lets +onlyGivenNames x; have : x = x := by (unfold x; rfl)
       clear this; clear_value x)
    | with_reducible apply onPq_ch | rfl | with_reducible refine ch_ite (fun _ => ?_) fun _ => ?_

theorem flagLate_ch {b : ℕ} {start : ℚ} (H : Changes q z s) (hq : within [.pq] q = true) :
    Changes q z (State.flagLate s b start) := by
  refine H.op hq ?_
  have H := Changes.refl [.pq] s
  unfold State.flagLate
  repeat' first
    | with_reducible assumption | (intro _)
    | (extract_lets +onlyGivenNames x; have : x = x := by (unfold x; rfl)
       clear this; clear_value x)
    | with_reducible apply onBus_ch | with_reducible apply onPq_ch | rfl
    | with_reducible refine ch_ite (fun _ => ?_) fun _ => ?_

theorem judgeHalf_ch {b : ℕ} {e : ℚ} {u : List ℚ} (H : Changes q z s) (hq : within [.lk, .qu, .units, .pq, .free] q = true) :
    Changes q z (State.judgeHalf s b e u) := by
  refine H.op hq ?_
  have H := Changes.refl [.lk, .qu, .units, .pq, .free] s
  unfold State.judgeHalf
  repeat' first
    | with_reducible assumption | (intro _)
    | (extract_lets +onlyGivenNames x; have hx : Changes [.lk, .qu, .units, .pq, .free] s x; (on_goal 1 => unfold x; clear x); on_goal 2 => clear_value x)
    | (extract_lets +onlyGivenNames x; have : x = x := by (unfold x; rfl)
       clear this; clear_value x)
    | with_reducible apply judgeMain_ch | with_reducible apply judgeDev_ch | with_reducible apply judgeRvc_ch
    | with_reducible apply onBus_ch | with_reducible apply flagSupra_ch | with_reducible apply flagLate_ch
    | with_reducible apply drew_ch | rfl | with_reducible refine ch_ite (fun _ => ?_) fun _ => ?_

theorem halfStep_ch {b : ℕ} (H : Changes q z s) (hq : within [.pr, .lk, .qu, .units, .pq, .free] q = true) :
    Changes q z (State.halfStep s b) := by
  refine H.op hq ?_
  have H := Changes.refl [.pr, .lk, .qu, .units, .pq, .free] s
  unfold State.halfStep
  repeat' first
    | with_reducible assumption | (intro _) | with_reducible apply under_ch | with_reducible apply judgeHalf_ch
    | with_reducible refine ch_fst (by assumption) ?_ | rfl | with_reducible refine ch_ite (fun _ => ?_) fun _ => ?_ | split

theorem takeWin_ch {base : ℕ} {endT : ℕ} {f1 : ℚ} {w : WinIn} (H : Changes q z s) (hq : within [.pq] q = true) :
    Changes q z (State.takeWin s base endT f1 w) := by
  refine H.op hq ?_
  have H := Changes.refl [.pq] s
  unfold State.takeWin
  repeat' first
    | with_reducible assumption | (intro _)
    | (extract_lets +onlyGivenNames x; have : x = x := by (unfold x; rfl)
       clear this; clear_value x)
    | with_reducible apply onPq_ch | rfl | with_reducible refine ch_ite (fun _ => ?_) fun _ => ?_

theorem takeBusWin_ch {b : ℕ} {base : ℕ} {endT : ℕ} {f1 : ℚ} {third : ℚ} {wins : List WinIn} (H : Changes q z s) (hq : within
    [.pq] q = true) :
    Changes q z (State.takeBusWin s b base endT f1 third wins) := by
  refine H.op hq ?_
  have H := Changes.refl [.pq] s
  unfold State.takeBusWin
  repeat' first
    | with_reducible assumption | (intro _)
    | (extract_lets +onlyGivenNames x; have : x = x := by (unfold x; rfl)
       clear this; clear_value x)
    | with_reducible apply ch_foldl | with_reducible apply ch_foldl_fst | with_reducible apply onPq_ch | rfl

theorem takeCircPq_ch {b : ℕ} {base : ℕ} {f1 : ℚ} {wins : List WinIn} {c : ℕ} (H : Changes q z s) (hq : within [.pq] q = true) :
    Changes q z (State.takeCircPq s b base f1 wins c) := by
  refine H.op hq ?_
  have H := Changes.refl [.pq] s
  unfold State.takeCircPq
  repeat' first
    | with_reducible assumption | (intro _)
    | (extract_lets +onlyGivenNames x; have : x = x := by (unfold x; rfl)
       clear this; clear_value x)
    | with_reducible apply ch_foldl | with_reducible apply ch_foldl_fst | with_reducible apply onPq_ch | rfl
    | with_reducible refine ch_ite (fun _ => ?_) fun _ => ?_

theorem takeWindow_ch {b endT : Nat} {w : PqWin} (H : Changes q z s) (hq : within [.pq] q = true) :
    Changes q z (s.takeWindow b endT w) := by
  unfold State.takeWindow
  extract_lets v base wins third v1 v2 v3
  clear_value v1 v2 v3
  have h1 : Changes q z { s with pq := v3.pq } := H.op hq ⟨fun p hp => by cases p <;> first | exact absurd (by decide) hp | rfl⟩
  exact onBus_ch h1 hq

theorem formEdge_ch {b : ℕ} {e : PqEdge} (H : Changes q z s) (hq : within [.pq, .free] q = true) :
    Changes q z (State.formEdge s b e) := by
  refine H.op hq ?_
  have H := Changes.refl [.pq, .free] s
  unfold State.formEdge
  repeat' first
    | with_reducible assumption | (intro _)
    | (extract_lets +onlyGivenNames x; have hx : Changes [.pq, .free] s x; (on_goal 1 => unfold x; clear x); on_goal 2 => clear_value x)
    | with_reducible apply onBus_ch | with_reducible apply closeAccs_ch | with_reducible apply onPq_ch
    | with_reducible apply drew_ch | with_reducible refine ch_fst (by assumption) ?_ | rfl
    | with_reducible refine ch_ite (fun _ => ?_) fun _ => ?_ | split

theorem closeEdge_ch {b : ℕ} (H : Changes q z s) (hq : within [.pr, .pq, .free] q = true) :
    Changes q z (State.closeEdge s b) := by
  refine H.op hq ?_
  have H := Changes.refl [.pr, .pq, .free] s
  unfold State.closeEdge
  repeat' first
    | with_reducible assumption | (intro _) | with_reducible apply under_ch | with_reducible apply formEdge_ch
    | with_reducible refine ch_fst (by assumption) ?_ | rfl | split

theorem tenAt_ch {b : ℕ} {endT : ℕ} (H : Changes q z s) (hq : within [.pq] q = true) :
    Changes q z (State.tenAt s b endT) := by
  refine H.op hq ?_
  have H := Changes.refl [.pq] s
  unfold State.tenAt
  repeat' first
    | with_reducible assumption | (intro _) | with_reducible apply onBus_ch | with_reducible apply closeTen_ch | rfl
    | with_reducible refine ch_ite (fun _ => ?_) fun _ => ?_

theorem edgeReady_ch {b : ℕ} (H : Changes q z s) (hq : within [.pr, .pq, .free] q = true) :
    Changes q z (State.edgeReady s b) := by
  refine H.op hq ?_
  have H := Changes.refl [.pr, .pq, .free] s
  unfold State.edgeReady
  repeat' first
    | with_reducible assumption | (intro _)
    | (extract_lets +onlyGivenNames x; have : x = x := by (unfold x; rfl)
       clear this; clear_value x)
    | with_reducible apply closeEdge_ch | with_reducible apply tenAt_ch | rfl
    | with_reducible refine ch_ite (fun _ => ?_) fun _ => ?_ | with_reducible apply ch_elim

theorem closeWindow_ch {b : ℕ} {w : PqWin} {straddles : Bool} (H : Changes q z s) (hq : within [.pr, .pq, .free] q = true) :
    Changes q z (State.closeWindow s b w straddles) := by
  refine H.op hq ?_
  have H := Changes.refl [.pr, .pq, .free] s
  unfold State.closeWindow
  repeat' first
    | with_reducible assumption | (intro _)
    | (extract_lets +onlyGivenNames x; have hx : Changes [.pr, .pq, .free] s x; (on_goal 1 => unfold x; clear x); on_goal 2 => clear_value x)
    | (extract_lets +onlyGivenNames x; have : x = x := by (unfold x; rfl)
       clear this; clear_value x)
    | with_reducible apply winState_ch | with_reducible apply takeWindow_ch | with_reducible apply closeEdge_ch
    | with_reducible apply onBus_ch | with_reducible apply edgeReady_ch | with_reducible apply drew_ch | rfl
    | with_reducible refine ch_ite (fun _ => ?_) fun _ => ?_

theorem busAUpTo_ch {n : Nat} {x : Rat} (H : Changes q z s) (hq : within [.pr, .lk, .qu, .units, .pq, .free] q = true) :
    Changes q z (State.busAUpTo n x s) := by
  induction n generalizing s with
  | zero => exact H
  | succ n ih =>
    unfold State.busAUpTo
    extract_lets half win
    clear_value half win
    split
    · exact ch_ite (fun _ => closeCycles_ch H (wt hq)) fun _ => H
    · exact ih (halfStep_ch H (wt hq))
    · exact ih (closeWindow_ch (closeCycles_ch H (wt hq)) (wt hq))
    · exact ch_ite (fun _ => ih (halfStep_ch H (wt hq))) fun _ => ih (closeWindow_ch (closeCycles_ch H (wt hq)) (wt hq))

theorem busAFirst_ch {b : ℕ} {x : ℚ} (H : Changes q z s) (hq : within [.pr, .lk, .qu, .units, .pq, .free] q = true) :
    Changes q z (State.busAFirst s b x) := by
  refine H.op hq ?_
  have H := Changes.refl [.pr, .lk, .qu, .units, .pq, .free] s
  unfold State.busAFirst
  repeat' first
    | with_reducible assumption | with_reducible apply busAUpTo_ch | rfl
    | with_reducible refine ch_ite (fun _ => ?_) fun _ => ?_

theorem busSample_ch {x : Wave} {b : ℕ} (H : Changes q z s) (hq : within [.pq] q = true) :
    Changes q z (State.busSample s x b) := by
  refine H.op hq ?_
  have H := Changes.refl [.pq] s
  unfold State.busSample
  repeat' first
    | with_reducible assumption | (intro _)
    | (extract_lets +onlyGivenNames x; have hx : Changes [.pq] s x; (on_goal 1 => unfold x; clear x); on_goal 2 => clear_value x)
    | (extract_lets +onlyGivenNames x; have : x = x := by (unfold x; rfl)
       clear this; clear_value x)
    | with_reducible apply onBus_ch | with_reducible apply closePst_ch | rfl
    | with_reducible refine ch_ite (fun _ => ?_) fun _ => ?_

theorem cancelLoad_ch {c : ℕ} (H : Changes q z s) (hq : within [.wd, .filts] q = true) :
    Changes q z (State.cancelLoad s c) := by
  refine H.op hq ?_
  have H := Changes.refl [.wd, .filts] s
  unfold State.cancelLoad
  repeat' first
    | with_reducible assumption | (intro _) | with_reducible apply log_ch | with_reducible apply onFilt_ch
    | with_reducible refine ch_fst (by assumption) ?_ | rfl | split

theorem cancelLoading_ch {c : ℕ} (H : Changes q z s) (hq : within [.wd, .filts] q = true) :
    Changes q z (State.cancelLoading s c) := by
  refine H.op hq ?_
  have H := Changes.refl [.wd, .filts] s
  unfold State.cancelLoading
  repeat' first
    | with_reducible assumption | (intro _) | with_reducible apply log_ch | with_reducible apply onFilt_ch
    | with_reducible refine ch_fst (by assumption) ?_ | rfl | split

theorem rebuildRecord_ch (H : Changes q z s) (hq : within [.hw, .filts] q = true) :
    Changes q z (State.rebuildRecord s) := by
  refine H.op hq ?_
  have H := Changes.refl [.hw, .filts] s
  unfold State.rebuildRecord
  repeat' first
    | with_reducible assumption | (intro _)
    | (extract_lets +onlyGivenNames x; have hx : Changes [.hw, .filts] s x; (on_goal 1 => unfold x; clear x); on_goal 2 => clear_value x)
    | (extract_lets +onlyGivenNames x; have : x = x := by (unfold x; rfl)
       clear this; clear_value x)
    | with_reducible apply ch_foldl | with_reducible apply ch_foldl_fst | with_reducible apply pioWrite_ch
    | with_reducible apply onHw_ch | with_reducible apply onFilt_ch | rfl

theorem cutCheckpoint_ch (H : Changes q z s) (hq : within [.hw, .free] q = true) :
    Changes q z (State.cutCheckpoint s) := by
  refine H.op hq ?_
  have H := Changes.refl [.hw, .free] s
  unfold State.cutCheckpoint
  repeat' first
    | with_reducible assumption | (intro _)
    | (extract_lets +onlyGivenNames x; have : x = x := by (unfold x; rfl)
       clear this; clear_value x)
    | with_reducible apply ch_foldl | with_reducible apply ch_foldl_fst | with_reducible apply drew_ch
    | with_reducible apply onHw_ch | with_reducible refine ch_fst (by assumption) ?_ | rfl
    | with_reducible refine ch_ite (fun _ => ?_) fun _ => ?_ | split

theorem checkpoint_ch {src : State} {kind : ℕ} (H : Changes q z s) (hq : within [.hw, .wd, .pq, .free] q = true) :
    Changes q z (State.checkpoint s src kind) := by
  refine H.op hq ?_
  have H := Changes.refl [.hw, .wd, .pq, .free] s
  unfold State.checkpoint
  repeat' first
    | with_reducible assumption | (intro _)
    | (extract_lets +onlyGivenNames x; have hx : Changes [.hw, .wd, .pq, .free] s x; (on_goal 1 => unfold x; clear x); on_goal 2 => clear_value x)
    | (extract_lets +onlyGivenNames x; have : x = x := by (unfold x; rfl)
       clear this; clear_value x)
    | with_reducible apply cutCheckpoint_ch | with_reducible apply sense_ch | with_reducible apply drew_ch
    | with_reducible apply onPq_ch | with_reducible apply onHw_ch | with_reducible refine ch_fst (by assumption) ?_ | rfl
    | with_reducible refine ch_ite (fun _ => ?_) fun _ => ?_ | with_reducible apply ch_elim

theorem trialFail_ch {kind : ℕ} (H : Changes q z s) (hq : within [.hw, .wd, .up, .pq, .free] q = true) :
    Changes q z (State.trialFail s kind) := by
  refine H.op hq ?_
  have H := Changes.refl [.hw, .wd, .up, .pq, .free] s
  unfold State.trialFail
  repeat' first
    | with_reducible assumption | (intro _)
    | (extract_lets +onlyGivenNames x; have hx : Changes [.hw, .wd, .up, .pq, .free] s x; (on_goal 1 => unfold x; clear x); on_goal 2 => clear_value x)
    | with_reducible apply onRegion_ch | with_reducible apply checkpoint_ch | with_reducible apply drew_ch
    | with_reducible apply onUp_ch | rfl | with_reducible refine ch_ite (fun _ => ?_) fun _ => ?_

theorem readyLate_ch (H : Changes q z s) (hq : within [.hw, .wd, .up, .pq, .free] q = true) :
    Changes q z (State.readyLate s) := by
  refine H.op hq ?_
  have H := Changes.refl [.hw, .wd, .up, .pq, .free] s
  unfold State.readyLate
  repeat' first
    | with_reducible assumption | with_reducible apply trialFail_ch | rfl
    | with_reducible refine ch_ite (fun _ => ?_) fun _ => ?_

theorem closeOwed_ch (H : Changes q z s) (hq : within [.me] q = true) :
    Changes q z (State.closeOwed s) := by
  refine H.op hq ?_
  have H := Changes.refl [.me] s
  unfold State.closeOwed
  repeat' first
    | with_reducible assumption | (intro _) | with_reducible apply ch_foldl | with_reducible apply ch_foldl_fst
    | with_reducible apply onMe_ch | rfl

theorem canopyEntry_ch (H : Changes q z s) (hq : within [.pw, .hw, .lk, .wd, .up, .filts, .me, .pq, .pm, .free] q = true) :
    Changes q z (State.canopyEntry s) := by
  refine H.op hq ?_
  have H := Changes.refl [.pw, .hw, .lk, .wd, .up, .filts, .me, .pq, .pm, .free] s
  unfold State.canopyEntry
  repeat' first
    | with_reducible assumption | (intro _)
    | (extract_lets +onlyGivenNames x; have hx : Changes [.pw, .hw, .lk, .wd, .up, .filts, .me, .pq, .pm, .free] s x; (on_goal 1 => unfold x; clear x); on_goal 2 => clear_value x)
    | with_reducible apply log_ch | with_reducible apply enterStage_ch | with_reducible apply rebuildRecord_ch
    | with_reducible apply readyLate_ch | with_reducible apply restage_ch | with_reducible apply closeOwed_ch
    | with_reducible apply onWd_ch | with_reducible apply onPw_ch | with_reducible apply onPq_ch | rfl
    | with_reducible refine ch_ite (fun _ => ?_) fun _ => ?_

theorem dropPending_ch {o : Owner} (H : Changes q z s) (hq : within [.pr] q = true) :
    Changes q z (State.dropPending s o) := by
  refine H.op hq ?_
  have H := Changes.refl [.pr] s
  unfold State.dropPending
  repeat' first
    | with_reducible assumption | (intro _) | with_reducible apply onPr_ch | rfl

theorem canopyStop_ch {cause : ℕ} {reason : ℕ} (H : Changes q z s) (hq : within [.pw, .te, .rtc, .hw, .pr, .lk, .wd, .nt, .pq,
    .pm, .free] q = true) :
    Changes q z (State.canopyStop s cause reason) := by
  refine H.op hq ?_
  have H := Changes.refl [.pw, .te, .rtc, .hw, .pr, .lk, .wd, .nt, .pq, .pm, .free] s
  unfold State.canopyStop
  repeat' first
    | with_reducible assumption | (intro _)
    | (extract_lets +onlyGivenNames x; have hx : Changes [.pw, .te, .rtc, .hw, .pr, .lk, .wd, .nt, .pq, .pm, .free] s x; (on_goal 1 => unfold x; clear x); on_goal 2 => clear_value x)
    | with_reducible apply log_ch | with_reducible apply enterStage_ch | with_reducible apply servoTo_ch
    | with_reducible apply dropPending_ch | with_reducible apply onWd_ch | with_reducible apply onPw_ch
    | with_reducible apply onNt_ch | with_reducible apply onPr_ch | with_reducible apply onLk_ch | with_reducible apply onPq_ch
    | rfl | with_reducible refine ch_ite (fun _ => ?_) fun _ => ?_

theorem capture_ch {u : ℕ} {t : ℕ} {source : ℕ} {eventId : ℕ} (H : Changes q z s) (hq : within [.units] q = true) :
    Changes q z (State.capture s u t source eventId) := by
  refine H.op hq ?_
  have H := Changes.refl [.units] s
  unfold State.capture
  repeat' first
    | with_reducible assumption | (intro _) | with_reducible apply ch_foldl | with_reducible apply ch_foldl_fst
    | with_reducible apply onUnit_ch | rfl

theorem cfFrame_ch {fv : List Val} {pv : List Val} (H : Changes q z s) (hq : within [.me] q = true) :
    Changes q z (State.cfFrame s fv pv) := by
  refine H.op hq ?_
  have H := Changes.refl [.me] s
  unfold State.cfFrame
  repeat' first
    | with_reducible assumption | (intro _) | with_reducible apply onMe_ch | rfl
    | with_reducible refine ch_ite (fun _ => ?_) fun _ => ?_

theorem chainStep_ch {outs : List ChanOut} (H : Changes q z s) (hq : within [.chans, .convs, .filts, .insts] q = true) :
    Changes q z (State.chainStep s outs) := by
  refine H.op hq ?_
  have H := Changes.refl [.chans, .convs, .filts, .insts] s
  unfold State.chainStep
  repeat' first
    | with_reducible assumption | (intro _)
    | (refine Changes.op (a := [.chans, .convs, .filts, .insts]) H (by rfl) ⟨?_⟩; intro p hp; cases p <;> first | exact absurd (by decide) hp | rfl)

theorem charge_ch {f : OwnFrame} (H : Changes q z s) (hq : within [.nt] q = true) :
    Changes q z (State.charge s f) := by
  refine H.op hq ?_
  have H := Changes.refl [.nt] s
  unfold State.charge
  repeat' first
    | with_reducible assumption | (intro _) | with_reducible apply onNt_ch | rfl

theorem chooseMaster_ch {f : Heard} {m : List Byte} (H : Changes q z s) (hq : within [.te, .nt] q = true) :
    Changes q z (State.chooseMaster s f m) := by
  refine H.op hq ?_
  have H := Changes.refl [.te, .nt] s
  unfold State.chooseMaster
  repeat' first
    | with_reducible assumption | (intro _)
    | (extract_lets +onlyGivenNames x; have hx : Changes [.te, .nt] s x; (on_goal 1 => unfold x; clear x); on_goal 2 => clear_value x)
    | (extract_lets +onlyGivenNames x; have : x = x := by (unfold x; rfl)
       clear this; clear_value x)
    | with_reducible apply onNt_ch | with_reducible apply onTe_ch | with_reducible refine ch_fst (by assumption) ?_ | rfl
    | with_reducible refine ch_ite (fun _ => ?_) fun _ => ?_ | split

theorem circBit_ch {c : ℕ} {bit : ℕ} (H : Changes q z s) (hq : within [.me] q = true) :
    Changes q z (State.circBit s c bit) := by
  refine H.op hq ?_
  have H := Changes.refl [.me] s
  unfold State.circBit
  repeat' first
    | with_reducible assumption | (intro _) | with_reducible apply onMe_ch | rfl

theorem ckptWritten_ch {c : Ckpt} (H : Changes q z s) (hq : within [.hw] q = true) :
    Changes q z (State.ckptWritten s c) := by
  refine H.op hq ?_
  have H := Changes.refl [.hw] s
  unfold State.ckptWritten
  repeat' first
    | with_reducible assumption | (intro _) | with_reducible apply onHw_ch | rfl

theorem pathLog_ch {c : ℕ} {verdict : ℕ} {result : ℕ} {ohm : ℕ} {deg : ℕ} (H : Changes q z s) (hq : within [.wd, .chans] q =
    true) :
    Changes q z (State.pathLog s c verdict result ohm deg) := by
  refine H.op hq ?_
  have H := Changes.refl [.wd, .chans] s
  unfold State.pathLog
  repeat' first
    | with_reducible assumption | (intro _)
    | (extract_lets +onlyGivenNames x; have : x = x := by (unfold x; rfl)
       clear this; clear_value x)
    | with_reducible apply log_ch | with_reducible apply onChan_ch | rfl
    | with_reducible refine ch_ite (fun _ => ?_) fun _ => ?_

theorem putChanged_ch {part : ℕ} {e : ℕ × ℕ} {none0 : List Byte} {bs : List Byte} (H : Changes q z s) (hq : within [.hw, .wd] q
    = true) :
    Changes q z (State.putChanged s part e none0 bs).1 := by
  refine Changes.op H hq ?_
  have H := Changes.refl [.hw, .wd] s
  unfold State.putChanged
  repeat' first
    | with_reducible assumption | with_reducible apply itemPut_ch | rfl
    | with_reducible refine ch_ite (fun _ => ?_) fun _ => ?_ | split

theorem storeP2_ch (H : Changes q z s) (hq : within [.hw, .wd] q = true) :
    Changes q z (State.storeP2 s).1 := by
  refine Changes.op H hq ?_
  have H := Changes.refl [.hw, .wd] s
  unfold State.storeP2
  repeat' first
    | with_reducible assumption | (intro _)
    | (extract_lets +onlyGivenNames x; have : x = x := by (unfold x; rfl)
       clear this; clear_value x)
    | with_reducible apply ch_foldl | with_reducible apply ch_foldl_fst | with_reducible apply andThen_ch
    | with_reducible apply putChanged_ch | rfl

theorem storePar_ch {id : ℕ} {v : ℕ} (H : Changes q z s) (hq : within [.pr] q = true) :
    Changes q z (State.storePar s id v) := by
  refine H.op hq ?_
  have H := Changes.refl [.pr] s
  unfold State.storePar
  repeat' first
    | with_reducible assumption | (intro _) | with_reducible apply onPr_ch | rfl

theorem storeBaseline_ch {c : ℕ} {ohm : ℕ} {deg : ℕ} (H : Changes q z s) (hq : within [.hw, .pr, .wd] q = true) :
    Changes q z (State.storeBaseline s c ohm deg) := by
  refine H.op hq ?_
  have H := Changes.refl [.hw, .pr, .wd] s
  unfold State.storeBaseline
  repeat' first
    | with_reducible assumption | with_reducible apply storeP2_ch | with_reducible apply storePar_ch | rfl

theorem cleanCheck_ch {c : Check} {p : ℚ × ℚ} (H : Changes q z s) (hq : within [.hw, .pr, .wd, .chans, .free] q = true) :
    Changes q z (State.cleanCheck s c p) := by
  refine H.op hq ?_
  have H := Changes.refl [.hw, .pr, .wd, .chans, .free] s
  unfold State.cleanCheck
  repeat' first
    | with_reducible assumption | (intro _)
    | (extract_lets +onlyGivenNames x; have : x = x := by (unfold x; rfl)
       clear this; clear_value x)
    | with_reducible apply setCheckResult_ch | with_reducible apply pathLog_ch | with_reducible apply baseFailLog_ch
    | with_reducible apply storeBaseline_ch | with_reducible apply drew_ch | with_reducible apply onChan_ch
    | with_reducible refine ch_fst (by assumption) ?_ | rfl | with_reducible refine ch_ite (fun _ => ?_) fun _ => ?_

theorem onRun_ch {c : ℕ} {f : CircRun → CircRun} (H : Changes q z s) (hq : within [.me] q = true) :
    Changes q z (State.onRun s c f) := by
  refine H.op hq ?_
  have H := Changes.refl [.me] s
  unfold State.onRun
  repeat' first
    | with_reducible assumption | (intro _) | with_reducible apply onMe_ch | rfl

theorem clearMax_ch {c : ℕ} (H : Changes q z s) (hq : within [.wd, .me] q = true) :
    Changes q z (State.clearMax s c) := by
  refine H.op hq ?_
  have H := Changes.refl [.wd, .me] s
  unfold State.clearMax
  repeat' first
    | with_reducible assumption | (intro _)
    | (extract_lets +onlyGivenNames x; have : x = x := by (unfold x; rfl)
       clear this; clear_value x)
    | with_reducible apply log_ch | with_reducible apply onRun_ch | rfl
    | with_reducible refine ch_ite (fun _ => ?_) fun _ => ?_

theorem eraseWrapped_ch (H : Changes q z s) (hq : within [.hw] q = true) : Changes q z s.eraseWrapped := by
  unfold State.eraseWrapped
  extract_lets p
  clear_value p
  exact ch_ite (fun _ => H) fun _ => wrPage_ch (wrPage_ch H hq) hq

theorem dropSessions_ch {p : Session → Bool} (H : Changes q z s) (hq : within [.se, .hm] q = true) :
    Changes q z (State.dropSessions s p) := by
  refine H.op hq ?_
  have H := Changes.refl [.se, .hm] s
  unfold State.dropSessions
  repeat' first
    | with_reducible assumption | (intro _)
    | (extract_lets +onlyGivenNames x; have hx : Changes [.se, .hm] s x; (on_goal 1 => unfold x; clear x); on_goal 2 => clear_value x)
    | with_reducible apply onSe_ch | with_reducible apply onHm_ch | rfl

theorem storePw_ch (H : Changes q z s) (hq : within [.hw, .wd] q = true) :
    Changes q z (State.storePw s).1 := by
  refine Changes.op H hq ?_
  have H := Changes.refl [.hw, .wd] s
  unfold State.storePw
  repeat' first
    | with_reducible assumption | with_reducible apply itemPut_ch | rfl

theorem clearPasswords_ch (H : Changes q z s) (hq : within [.hw, .se, .wd] q = true) :
    Changes q z (State.clearPasswords s) := by
  refine H.op hq ?_
  have H := Changes.refl [.hw, .se, .wd] s
  unfold State.clearPasswords
  repeat' first
    | with_reducible assumption | (intro _)
    | (extract_lets +onlyGivenNames x; have hx : Changes [.hw, .se, .wd] s x; (on_goal 1 => unfold x; clear x); on_goal 2 => clear_value x)
    | with_reducible apply storePw_ch | with_reducible apply pageWrite_ch | with_reducible apply onSe_ch
    | with_reducible refine ch_fst (by assumption) ?_ | rfl | with_reducible refine ch_ite (fun _ => ?_) fun _ => ?_ | split

theorem clearOnce_ch {job : ClearJob} (H : Changes q z s) (hq : within [.hw, .se, .tp, .wd, .hm] q = true) :
    Changes q z (State.clearOnce s job) := by
  refine H.op hq ?_
  have H := Changes.refl [.hw, .se, .tp, .wd, .hm] s
  unfold State.clearOnce
  repeat' first
    | with_reducible assumption | (intro _)
    | (extract_lets +onlyGivenNames x; have hx : Changes [.hw, .se, .tp, .wd, .hm] s x; (on_goal 1 => unfold x; clear x); on_goal 2 => clear_value x)
    | with_reducible apply ch_foldl | with_reducible apply ch_foldl_fst | with_reducible apply eraseWrapped_ch
    | with_reducible apply log_ch | with_reducible apply dropSessions_ch | with_reducible apply clearPasswords_ch
    | with_reducible apply logRaise_ch | with_reducible apply onTp_ch | rfl

theorem clearOsf_ch (H : Changes q z s) (hq : within [.rtc, .tp, .wd] q = true) :
    Changes q z (State.clearOsf s) := by
  refine H.op hq ?_
  have H := Changes.refl [.rtc, .tp, .wd] s
  unfold State.clearOsf
  repeat' first
    | with_reducible assumption | (intro _) | with_reducible apply tamperClear_ch | with_reducible apply onRtc_ch | rfl

theorem clearTorn_ch (H : Changes q z s) (hq : within [.hw] q = true) :
    Changes q z (State.clearTorn s) := by
  refine H.op hq ?_
  have H := Changes.refl [.hw] s
  unfold State.clearTorn
  repeat' first
    | with_reducible assumption | (intro _) | with_reducible apply ch_foldl | with_reducible apply ch_foldl_fst
    | with_reducible apply onHw_ch | rfl

theorem closeEngines_ch {b : Closed} (H : Changes q z s) (hq : within [.me] q = true) :
    Changes q z (State.closeEngines s b) := by
  refine H.op hq ?_
  have H := Changes.refl [.me] s
  unfold State.closeEngines
  repeat' first
    | with_reducible assumption | (intro _)
    | (extract_lets +onlyGivenNames x; have : x = x := by (unfold x; rfl)
       clear this; clear_value x)
    | with_reducible apply onMe_ch | rfl

theorem cmdCount_ch (H : Changes q z s) (hq : within [.pm] q = true) :
    Changes q z (State.cmdCount s) := by
  refine H.op hq ?_
  have H := Changes.refl [.pm] s
  unfold State.cmdCount
  repeat' first
    | with_reducible assumption | (intro _) | with_reducible apply onPm_ch | rfl

theorem cmdIgnore_ch (H : Changes q z s) (hq : within [.pm] q = true) :
    Changes q z (State.cmdIgnore s) := by
  refine H.op hq ?_
  have H := Changes.refl [.pm] s
  unfold State.cmdIgnore
  repeat' first
    | with_reducible assumption | (intro _) | with_reducible apply onPm_ch | rfl

theorem commitAlarm_ch {ids : List ℕ} {k : ℕ} (H : Changes q z s) (hq : within [.rtc] q = true) :
    Changes q z (State.commitAlarm s ids k) := by
  refine H.op hq ?_
  have H := Changes.refl [.rtc] s
  unfold State.commitAlarm
  repeat' first
    | with_reducible assumption | (intro _) | with_reducible apply onAlarm_ch | rfl
    | with_reducible refine ch_ite (fun _ => ?_) fun _ => ?_

theorem storeBoot_ch (H : Changes q z s) (hq : within [.hw, .wd] q = true) :
    Changes q z (State.storeBoot s).1 := by
  refine Changes.op H hq ?_
  have H := Changes.refl [.hw, .wd] s
  unfold State.storeBoot
  repeat' first
    | with_reducible assumption | (intro _) | with_reducible apply putChanged_ch | rfl

theorem storeP0_ch (H : Changes q z s) (hq : within [.hw, .wd] q = true) :
    Changes q z (State.storeP0 s).1 := by
  refine Changes.op H hq ?_
  have H := Changes.refl [.hw, .wd] s
  unfold State.storeP0
  repeat' first
    | with_reducible assumption | (intro _)
    | (extract_lets +onlyGivenNames x; have hx : Changes [.hw, .wd] s x.1; (on_goal 1 => unfold x; clear x); on_goal 2 => clear_value x)
    | (extract_lets +onlyGivenNames x; have : x = x := by (unfold x; rfl)
       clear this; clear_value x)
    | with_reducible apply ch_foldl | with_reducible apply ch_foldl_fst | with_reducible apply andThen_ch
    | with_reducible apply putChanged_ch | with_reducible apply storeBoot_ch | with_reducible apply itemPut_ch | rfl
    | with_reducible refine ch_ite (fun _ => ?_) fun _ => ?_ | split

theorem storeSet_ch (H : Changes q z s) (hq : within [.hw, .wd] q = true) : Changes q z s.storeSet.1 :=
  andThen_ch (storeP2_ch H (wt hq)) fun _ hx => storeP0_ch hx (wt hq)

theorem setPar_ch {id : ℕ} {v : ℕ} (H : Changes q z s) (hq : within [.pr] q = true) :
    Changes q z (State.setPar s id v) := by
  refine H.op hq ?_
  have H := Changes.refl [.pr] s
  unfold State.setPar
  repeat' first
    | with_reducible assumption | (intro _) | with_reducible apply onPr_ch | rfl

theorem commitMember_ch {id : ℕ} {v : ℕ} (H : Changes q z s) (hq : within [.pr] q = true) :
    Changes q z (State.commitMember s id v) := by
  refine H.op hq ?_
  have H := Changes.refl [.pr] s
  unfold State.commitMember
  repeat' first
    | with_reducible assumption | (intro _) | with_reducible apply setPar_ch | with_reducible apply onPr_ch | rfl
    | with_reducible refine ch_ite (fun _ => ?_) fun _ => ?_

theorem logParam_ch {old : State} {e : ℕ × ℕ} (H : Changes q z s) (hq : within [.wd] q = true) :
    Changes q z (State.logParam s old e) := by
  refine H.op hq ?_
  have H := Changes.refl [.wd] s
  unfold State.logParam
  repeat' first
    | with_reducible assumption
    | (extract_lets +onlyGivenNames x; have : x = x := by (unfold x; rfl)
       clear this; clear_value x)
    | with_reducible apply log_ch | with_reducible refine ch_fst (by assumption) ?_ | rfl
    | with_reducible refine ch_ite (fun _ => ?_) fun _ => ?_ | split

theorem commitResponse_ch {e : ℕ × ℕ} (H : Changes q z s) (hq : within [.tp] q = true) :
    Changes q z (State.commitResponse s e) := by
  refine H.op hq ?_
  have H := Changes.refl [.tp] s
  unfold State.commitResponse
  repeat' first
    | with_reducible assumption | (intro _) | with_reducible apply onSlot_ch | rfl
    | with_reducible refine ch_ite (fun _ => ?_) fun _ => ?_

theorem commitFollow_ch (H : Changes q z s) (hq : within [.rtc] q = true) :
    Changes q z (State.commitFollow s) := by
  refine H.op hq ?_
  have H := Changes.refl [.rtc] s
  unfold State.commitFollow
  repeat' first
    | with_reducible assumption | with_reducible apply stopFollowing_ch | rfl
    | with_reducible refine ch_ite (fun _ => ?_) fun _ => ?_

theorem commitSource_ch {old : ℕ} (H : Changes q z s) (hq : within [.pw, .te, .rtc, .hw, .pr, .lk, .wd, .pm, .free] q = true) :
    Changes q z (State.commitSource s old) := by
  refine H.op hq ?_
  have H := Changes.refl [.pw, .te, .rtc, .hw, .pr, .lk, .wd, .pm, .free] s
  unfold State.commitSource
  repeat' first
    | with_reducible assumption | (intro _)
    | (extract_lets +onlyGivenNames x; have hx : Changes [.pw, .te, .rtc, .hw, .pr, .lk, .wd, .pm, .free] s x; (on_goal 1 => unfold x; clear x); on_goal 2 => clear_value x)
    | (extract_lets +onlyGivenNames x; have : x = x := by (unfold x; rfl)
       clear this; clear_value x)
    | with_reducible apply servoTo_ch | with_reducible apply onTe_ch | rfl
    | with_reducible refine ch_ite (fun _ => ?_) fun _ => ?_

theorem setLeap_ch {v : ℕ} (H : Changes q z s) (hq : within [.rtc, .hw, .pr, .wd] q = true) :
    Changes q z (State.setLeap s v) := by
  refine H.op hq ?_
  have H := Changes.refl [.rtc, .hw, .pr, .wd] s
  unfold State.setLeap
  repeat' first
    | with_reducible assumption | (intro _) | with_reducible apply storeP0_ch | with_reducible apply storePar_ch
    | with_reducible apply onRtc_ch | rfl

theorem onPort_ch {k : ℕ} {f : Port → Port} (H : Changes q z s) (hq : within [.nt] q = true) :
    Changes q z (State.onPort s k f) := by
  refine H.op hq ?_
  have H := Changes.refl [.nt] s
  unfold State.onPort
  repeat' first
    | with_reducible assumption | (intro _) | with_reducible apply onNt_ch | rfl

theorem portDown_ch {k : ℕ} (H : Changes q z s) (hq : within [.se, .lk, .wd, .nt, .hm] q = true) :
    Changes q z (State.portDown s k) := by
  refine H.op hq ?_
  have H := Changes.refl [.se, .lk, .wd, .nt, .hm] s
  unfold State.portDown
  repeat' first
    | with_reducible assumption | (intro _)
    | (extract_lets +onlyGivenNames x; have hx : Changes [.se, .lk, .wd, .nt, .hm] s x; (on_goal 1 => unfold x; clear x); on_goal 2 => clear_value x)
    | with_reducible apply log_ch | with_reducible apply irq_ch | with_reducible apply onPort_ch
    | with_reducible apply dropSessions_ch | rfl | with_reducible refine ch_ite (fun _ => ?_) fun _ => ?_

theorem commitPhy_ch {k : ℕ} (H : Changes q z s) (hq : within [.se, .lk, .wd, .nt, .hm] q = true) :
    Changes q z (State.commitPhy s k) := by
  refine H.op hq ?_
  have H := Changes.refl [.se, .lk, .wd, .nt, .hm] s
  unfold State.commitPhy
  repeat' first
    | with_reducible assumption | with_reducible apply portDown_ch | rfl
    | with_reducible refine ch_ite (fun _ => ?_) fun _ => ?_

theorem commitPmu_ch {p : List (ℕ × ℕ)} (H : Changes q z s) (hq : within [.pm] q = true) :
    Changes q z (State.commitPmu s p) := by
  refine H.op hq ?_
  have H := Changes.refl [.pm] s
  unfold State.commitPmu
  repeat' first
    | with_reducible assumption | (intro _)
    | (extract_lets +onlyGivenNames x; have : x = x := by (unfold x; rfl)
       clear this; clear_value x)
    | with_reducible apply onPm_ch | rfl | with_reducible refine ch_ite (fun _ => ?_) fun _ => ?_

theorem commitEffects_ch {old : State} {p : List (ℕ × ℕ)} (H : Changes q z s) (hq : within [.pw, .te, .rtc, .hw, .se, .pr, .lk,
    .tp, .wd, .nt, .hm, .me, .pm, .free] q = true) :
    Changes q z (State.commitEffects s old p) := by
  refine H.op hq ?_
  have H := Changes.refl [.pw, .te, .rtc, .hw, .se, .pr, .lk, .tp, .wd, .nt, .hm, .me, .pm, .free] s
  unfold State.commitEffects
  repeat' first
    | with_reducible assumption | (intro _)
    | (extract_lets +onlyGivenNames x; have hx : Changes [.pw, .te, .rtc, .hw, .se, .pr, .lk, .tp, .wd, .nt, .hm, .me, .pm, .free] s x; (on_goal 1 => unfold x; clear x); on_goal 2 => clear_value x)
    | (extract_lets +onlyGivenNames x; have : x = x := by (unfold x; rfl)
       clear this; clear_value x)
    | with_reducible apply ch_foldl | with_reducible apply ch_foldl_fst | with_reducible apply commitAlarm_ch
    | with_reducible apply commitResponse_ch | with_reducible apply lockActions_ch | with_reducible apply commitFollow_ch
    | with_reducible apply commitSource_ch | with_reducible apply setLeap_ch | with_reducible apply commitPhy_ch
    | with_reducible apply commitPmu_ch | with_reducible apply onPw_ch | with_reducible refine ch_fst (by assumption) ?_ | rfl
    | with_reducible refine ch_ite (fun _ => ?_) fun _ => ?_ | split

theorem commitAll_ch (H : Changes q z s) (hq : within [.pw, .te, .rtc, .hw, .se, .pr, .lk, .tp, .wd, .nt, .hm, .me, .pm, .free] q = true) : Changes q z (State.commitAll s).1 := by
  unfold State.commitAll
  extract_lets p s1
  have h1 : Changes q z s1 := onPr_ch (onNt_ch H (wt hq)) (wt hq)
  clear_value s1
  have h2 := storeSet_ch h1 (wt hq)
  split
  rename_i s2 stored he
  rw [he] at h2
  replace h2 : Changes q z s2 := h2
  split
  · dsimp only; exact onPr_ch h2 (wt hq)
  · extract_lets s3 s4 s5 s6
    have h3 : Changes q z s3 := ch_foldl (fun x e h => commitMember_ch h (wt hq)) h2
    clear_value s3
    have h4 : Changes q z s4 := ch_ite (fun _ => h3) fun _ => pioUpdate_ch h3 (wt hq)
    clear_value s4
    have h6 : Changes q z s6 := ch_foldl (fun x e h => logParam_ch h (wt hq)) (log_ch h4 (wt hq))
    clear_value s6
    exact commitEffects_ch h6 (wt hq)

theorem commitMembers_ch {l : List (ℕ × ℕ)} (H : Changes q z s) (hq : within [.pw, .te, .rtc, .hw, .se, .pr, .lk, .tp, .wd,
    .nt, .hm, .me, .pm, .free] q = true) :
    Changes q z (State.commitMembers s l).1 := by
  refine Changes.op H hq ?_
  have H := Changes.refl [.pw, .te, .rtc, .hw, .se, .pr, .lk, .tp, .wd, .nt, .hm, .me, .pm, .free] s
  unfold State.commitMembers
  repeat' first
    | with_reducible assumption | (intro _)
    | (extract_lets +onlyGivenNames x; have hx : Changes [.pw, .te, .rtc, .hw, .se, .pr, .lk, .tp, .wd, .nt, .hm, .me, .pm, .free] s x.1; (on_goal 1 => unfold x; clear x); on_goal 2 => clear_value x)
    | with_reducible apply commitAll_ch | with_reducible apply onPr_ch | rfl

theorem loseChan_ch {c : ℕ} (H : Changes q z s) (hq : within [.wd, .chans] q = true) :
    Changes q z (State.loseChan s c) := by
  refine H.op hq ?_
  have H := Changes.refl [.wd, .chans] s
  unfold State.loseChan
  repeat' first
    | with_reducible assumption | (intro _) | with_reducible apply log_ch | with_reducible apply onChan_ch | rfl
    | with_reducible refine ch_ite (fun _ => ?_) fun _ => ?_

theorem condemn_ch {v : ℕ} {cause : ℕ} (H : Changes q z s) (hq : within [.hw, .wd, .chans, .convs, .stands, .filts, .insts] q =
    true) :
    Changes q z (State.condemn s v cause) := by
  refine H.op hq ?_
  have H := Changes.refl [.hw, .wd, .chans, .convs, .stands, .filts, .insts] s
  unfold State.condemn
  repeat' first
    | with_reducible assumption | (intro _)
    | (extract_lets +onlyGivenNames x; have hx : Changes [.hw, .wd, .chans, .convs, .stands, .filts, .insts] s x; (on_goal 1 => unfold x; clear x); on_goal 2 => clear_value x)
    | (extract_lets +onlyGivenNames x; have : x = x := by (unfold x; rfl)
       clear this; clear_value x)
    | with_reducible apply ch_foldl | with_reducible apply ch_foldl_fst | with_reducible apply log_ch
    | with_reducible apply storeDevice_ch | with_reducible apply abortCheck_ch | with_reducible apply cancelLoad_ch
    | with_reducible apply loseChan_ch | with_reducible apply takeover_ch | with_reducible apply recallHome_ch
    | with_reducible apply cancelLoading_ch | with_reducible apply onStand_ch | rfl
    | with_reducible refine ch_ite (fun _ => ?_) fun _ => ?_

theorem consoleClaim_ch (H : Changes q z s) (hq : within [.hm] q = true) :
    Changes q z (State.consoleClaim s) := by
  refine H.op hq ?_
  have H := Changes.refl [.hm] s
  unfold State.consoleClaim
  repeat' first
    | with_reducible assumption | (intro _) | with_reducible apply onHm_ch | rfl
    | with_reducible refine ch_ite (fun _ => ?_) fun _ => ?_

theorem countEstimated_ch {b : Closed} (H : Changes q z s) (hq : within [.me] q = true) :
    Changes q z (State.countEstimated s b) := by
  refine H.op hq ?_
  have H := Changes.refl [.me] s
  unfold State.countEstimated
  repeat' first
    | with_reducible assumption | (intro _)
    | (extract_lets +onlyGivenNames x; have : x = x := by (unfold x; rfl)
       clear this; clear_value x)
    | with_reducible apply onMe_ch | rfl

theorem countFrame_ch (H : Changes q z s) (hq : within [.pw, .hw] q = true) :
    Changes q z (State.countFrame s) := by
  refine H.op hq ?_
  have H := Changes.refl [.pw, .hw] s
  unfold State.countFrame
  repeat' first
    | with_reducible assumption | (intro _)
    | (extract_lets +onlyGivenNames x; have hx : Changes [.pw, .hw] s x; (on_goal 1 => unfold x; clear x); on_goal 2 => clear_value x)
    | with_reducible apply onPw_ch | with_reducible apply onHw_ch | rfl
    | with_reducible refine ch_ite (fun _ => ?_) fun _ => ?_

theorem cutFlight_ch (H : Changes q z s) (hq : within [.hw, .free] q = true) :
    Changes q z (State.cutFlight s) := by
  refine H.op hq ?_
  have H := Changes.refl [.hw, .free] s
  unfold State.cutFlight
  repeat' first
    | with_reducible assumption | (intro _)
    | (extract_lets +onlyGivenNames x; have : x = x := by (unfold x; rfl)
       clear this; clear_value x)
    | with_reducible apply ch_foldl | with_reducible apply ch_foldl_fst | with_reducible apply drew_ch
    | with_reducible apply onHw_ch | rfl | with_reducible refine ch_ite (fun _ => ?_) fun _ => ?_

theorem finishCommit_ch {h : Hdr} (H : Changes q z s) (hq : within [.pw, .te, .rtc, .hw, .se, .pr, .lk, .tp, .wd, .nt, .hm,
    .me, .pm, .free] q = true) :
    Changes q z (State.finishCommit s h) := by
  refine H.op hq ?_
  have H := Changes.refl [.pw, .te, .rtc, .hw, .se, .pr, .lk, .tp, .wd, .nt, .hm, .me, .pm, .free] s
  unfold State.finishCommit
  repeat' first
    | with_reducible assumption | (intro _)
    | (extract_lets +onlyGivenNames x; have hx : Changes [.pw, .te, .rtc, .hw, .se, .pr, .lk, .tp, .wd, .nt, .hm, .me, .pm, .free] s x; (on_goal 1 => unfold x; clear x); on_goal 2 => clear_value x)
    | with_reducible apply answer_ch | with_reducible apply commitAll_ch | with_reducible apply onPr_ch
    | with_reducible refine ch_fst (by assumption) ?_ | rfl | split

theorem cutWrites_ch (H : Changes q z s) (hq : within [.pw, .te, .rtc, .hw, .se, .pr, .lk, .tp, .wd, .nt, .hm, .me, .pm, .free]
    q = true) :
    Changes q z (State.cutWrites s) := by
  refine H.op hq ?_
  have H := Changes.refl [.pw, .te, .rtc, .hw, .se, .pr, .lk, .tp, .wd, .nt, .hm, .me, .pm, .free] s
  unfold State.cutWrites
  repeat' first
    | with_reducible assumption | (intro _)
    | (extract_lets +onlyGivenNames x; have hx : Changes [.pw, .te, .rtc, .hw, .se, .pr, .lk, .tp, .wd, .nt, .hm, .me, .pm, .free] s x; (on_goal 1 => unfold x; clear x); on_goal 2 => clear_value x)
    | with_reducible apply cutFlight_ch | with_reducible apply finishCommit_ch | with_reducible apply cutCheckpoint_ch
    | with_reducible apply drew_ch | with_reducible apply onHw_ch | with_reducible refine ch_fst (by assumption) ?_ | rfl
    | split

theorem cyclesEnd_ch {b : ℕ} (H : Changes q z s) (hq : within [.pr, .lk, .qu, .units, .pq, .free] q = true) :
    Changes q z (State.cyclesEnd s b) := by
  refine H.op hq ?_
  have H := Changes.refl [.pr, .lk, .qu, .units, .pq, .free] s
  unfold State.cyclesEnd
  repeat' first
    | with_reducible assumption | with_reducible apply closeCycles_ch | with_reducible apply busAFirst_ch
    | with_reducible refine ch_fst (by assumption) ?_ | rfl | split

theorem directError_ch (H : Changes q z s) (hq : within [.lk] q = true) :
    Changes q z (State.directError s) := by
  refine H.op hq ?_
  have H := Changes.refl [.lk] s
  unfold State.directError
  repeat' first
    | with_reducible assumption | (intro _) | with_reducible apply onLk_ch | rfl

theorem directLog_ch {addr : ℕ} {d : Direct} (H : Changes q z s) (hq : within [.lk] q = true) :
    Changes q z (State.directLog s addr d) := by
  refine H.op hq ?_
  have H := Changes.refl [.lk] s
  unfold State.directLog
  repeat' first
    | with_reducible assumption | (intro _)
    | (extract_lets +onlyGivenNames x; have hx : Changes [.lk] s x; (on_goal 1 => unfold x; clear x); on_goal 2 => clear_value x)
    | with_reducible apply irq_ch | with_reducible apply onLk_ch | rfl | with_reducible refine ch_ite (fun _ => ?_) fun _ => ?_

theorem secWrite_ch {value : ℕ} (H : Changes q z s) (hq : within [.rtc, .lk, .wd, .chans, .stands, .seqs, .units] q = true) :
    Changes q z (State.secWrite s value) := by
  refine H.op hq ?_
  have H := Changes.refl [.rtc, .lk, .wd, .chans, .stands, .seqs, .units] s
  unfold State.secWrite
  repeat' first
    | with_reducible assumption
    | (extract_lets +onlyGivenNames x; have : x = x := by (unfold x; rfl)
       clear this; clear_value x)
    | with_reducible apply directLog_ch | with_reducible apply adjustCal_ch | with_reducible apply onRtc_ch | rfl
    | with_reducible refine ch_ite (fun _ => ?_) fun _ => ?_

theorem stageWrite_ch {field : ℕ} {value : ℕ} (H : Changes q z s) (hq : within [.rtc, .lk] q = true) :
    Changes q z (State.stageWrite s field value) := by
  refine H.op hq ?_
  have H := Changes.refl [.rtc, .lk] s
  unfold State.stageWrite
  repeat' first
    | with_reducible assumption | (intro _) | with_reducible apply directLog_ch | with_reducible apply onRtc_ch | rfl
    | with_reducible refine ch_ite (fun _ => ?_) fun _ => ?_

theorem resume_ch {src : ℕ} (H : Changes q z s) (hq : within [.lk] q = true) :
    Changes q z (State.resume s src) := by
  refine H.op hq ?_
  have H := Changes.refl [.lk] s
  unfold State.resume
  repeat' first
    | with_reducible assumption | (intro _)
    | (extract_lets +onlyGivenNames x; have hx : Changes [.lk] s x; (on_goal 1 => unfold x; clear x); on_goal 2 => clear_value x)
    | with_reducible apply irq_ch | with_reducible apply onLk_ch | rfl | with_reducible refine ch_ite (fun _ => ?_) fun _ => ?_

theorem directWord_ch {a : ℕ} {v : ℕ} (H : Changes q z s) (hq : within [.rtc, .lk, .wd, .nt, .chans, .stands, .seqs, .qu,
    .units, .pm] q = true) :
    Changes q z (State.directWord s a v) := by
  refine H.op hq ?_
  have H := Changes.refl [.rtc, .lk, .wd, .nt, .chans, .stands, .seqs, .qu, .units, .pm] s
  unfold State.directWord
  repeat' first
    | with_reducible assumption | (intro _) | with_reducible apply secWrite_ch | with_reducible apply stageWrite_ch
    | with_reducible apply directLog_ch | with_reducible apply hush_ch | with_reducible apply resume_ch
    | with_reducible apply onLk_ch | rfl | with_reducible refine ch_ite (fun _ => ?_) fun _ => ?_

theorem drives_ch {bs : List Byte} (H : Changes q z s) (hq : within [.lk] q = true) :
    Changes q z (State.drives s bs) := by
  refine H.op hq ?_
  have H := Changes.refl [.lk] s
  unfold State.drives
  repeat' first
    | with_reducible assumption | (intro _) | with_reducible apply onLk_ch | rfl

theorem filterReload_ch {c : ℕ} (H : Changes q z s) (hq : within [.wd, .filts, .insts] q = true) :
    Changes q z (State.filterReload s c) := by
  refine H.op hq ?_
  have H := Changes.refl [.wd, .filts, .insts] s
  unfold State.filterReload
  repeat' first
    | with_reducible assumption | (intro _)
    | (extract_lets +onlyGivenNames x; have hx : Changes [.wd, .filts, .insts] s x; (on_goal 1 => unfold x; clear x); on_goal 2 => clear_value x)
    | (extract_lets +onlyGivenNames x; have : x = x := by (unfold x; rfl)
       clear this; clear_value x)
    | with_reducible apply cancelLoading_ch | with_reducible apply cancelLoad_ch | with_reducible apply log_ch
    | with_reducible apply onInsts_ch | with_reducible apply onFilt_ch | with_reducible refine ch_fst (by assumption) ?_ | rfl
    | with_reducible refine ch_ite (fun _ => ?_) fun _ => ?_ | split

theorem standAbort_ch {k : ℕ} (H : Changes q z s) (hq : within [.wd, .chans, .convs, .stands, .filts, .insts] q = true) :
    Changes q z (State.standAbort s k) := by
  refine H.op hq ?_
  have H := Changes.refl [.wd, .chans, .convs, .stands, .filts, .insts] s
  unfold State.standAbort
  repeat' first
    | with_reducible assumption
    | (extract_lets +onlyGivenNames x; have hx : Changes [.wd, .chans, .convs, .stands, .filts, .insts] s x; (on_goal 1 => unfold x; clear x); on_goal 2 => clear_value x)
    | with_reducible apply abortCheck_ch | with_reducible apply recallHome_ch | with_reducible apply abortSpareRest_ch
    | with_reducible apply unsettle_ch | with_reducible refine ch_fst (by assumption) ?_ | rfl | split

theorem factoryTrims_ch (H : Changes q z s) (hq : within [.convs] q = true) :
    Changes q z (State.factoryTrims s) := by
  refine H.op hq ?_
  have H := Changes.refl [.convs] s
  unfold State.factoryTrims
  repeat' first
    | with_reducible assumption | (intro _)
    | (refine Changes.op (a := [.convs]) H (by rfl) ⟨?_⟩; intro p hp; cases p <;> first | exact absurd (by decide) hp | rfl)

theorem standJoin_ch {k : ℕ} (H : Changes q z s) (hq : within [.hw, .wd, .chans, .convs, .stands, .filts, .insts] q = true) :
    Changes q z (State.standJoin s k) := by
  refine H.op hq ?_
  have H := Changes.refl [.hw, .wd, .chans, .convs, .stands, .filts, .insts] s
  unfold State.standJoin
  repeat' first
    | with_reducible assumption | (intro _)
    | (extract_lets +onlyGivenNames x; have hx : Changes [.hw, .wd, .chans, .convs, .stands, .filts, .insts] s x; (on_goal 1 => unfold x; clear x); on_goal 2 => clear_value x)
    | (extract_lets +onlyGivenNames x; have : x = x := by (unfold x; rfl)
       clear this; clear_value x)
    | with_reducible apply ch_foldl | with_reducible apply ch_foldl_fst | with_reducible apply shadowFor_ch
    | with_reducible apply loseChan_ch | with_reducible apply takeover_ch | with_reducible apply onStand_ch | rfl
    | with_reducible refine ch_ite (fun _ => ?_) fun _ => ?_

theorem standStart_ch {k : ℕ} (H : Changes q z s) (hq : within [.hw, .wd, .chans, .convs, .stands, .filts, .insts] q = true) :
    Changes q z (State.standStart s k) := by
  refine H.op hq ?_
  have H := Changes.refl [.hw, .wd, .chans, .convs, .stands, .filts, .insts] s
  unfold State.standStart
  repeat' first
    | with_reducible assumption | (intro _) | with_reducible apply ch_foldl | with_reducible apply ch_foldl_fst
    | with_reducible apply condemn_ch | with_reducible apply standJoin_ch | rfl
    | with_reducible refine ch_ite (fun _ => ?_) fun _ => ?_

theorem filterStart_ch {c : ℕ} (H : Changes q z s) (hq : within [.filts, .insts] q = true) :
    Changes q z (State.filterStart s c) := by
  refine H.op hq ?_
  have H := Changes.refl [.filts, .insts] s
  unfold State.filterStart
  repeat' first
    | with_reducible assumption | (intro _)
    | (extract_lets +onlyGivenNames x; have : x = x := by (unfold x; rfl)
       clear this; clear_value x)
    | with_reducible apply onInsts_ch | with_reducible apply onFilt_ch | rfl

theorem writeBankA_ch {c : ℕ} {b : CoefSet} {keep : Bool} (H : Changes q z s) (hq : within [.filts, .insts] q = true) :
    Changes q z (State.writeBankA s c b keep) := by
  refine H.op hq ?_
  have H := Changes.refl [.filts, .insts] s
  unfold State.writeBankA
  repeat' first
    | with_reducible assumption | (intro _) | with_reducible apply onInsts_ch | with_reducible apply onFilt_ch | rfl

theorem filterInit_ch {c : ℕ} (H : Changes q z s) (hq : within [.filts, .insts] q = true) :
    Changes q z (State.filterInit s c) := by
  refine H.op hq ?_
  have H := Changes.refl [.filts, .insts] s
  unfold State.filterInit
  repeat' first
    | with_reducible assumption | (intro _)
    | (extract_lets +onlyGivenNames x; have : x = x := by (unfold x; rfl)
       clear this; clear_value x)
    | with_reducible apply onInsts_ch | with_reducible apply filterStart_ch | with_reducible apply writeBankA_ch
    | with_reducible apply onFilt_ch | with_reducible refine ch_fst (by assumption) ?_ | rfl
    | with_reducible refine ch_ite (fun _ => ?_) fun _ => ?_ | split

theorem pqFresh_ch (H : Changes q z s) (hq : within [.pq] q = true) :
    Changes q z (State.pqFresh s) := by
  refine H.op hq ?_
  have H := Changes.refl [.pq] s
  unfold State.pqFresh
  repeat' first
    | with_reducible assumption | (intro _) | with_reducible apply pqSync_ch | with_reducible apply onPq_ch | rfl

theorem kernelsStart_ch (H : Changes q z s) (hq : within [.pw, .hw, .wd, .ref, .chans, .convs, .stands, .filts, .insts, .wave,
    .me, .pq, .pm] q = true) :
    Changes q z (State.kernelsStart s) := by
  refine H.op hq ?_
  have H := Changes.refl [.pw, .hw, .wd, .ref, .chans, .convs, .stands, .filts, .insts, .wave, .me, .pq, .pm] s
  unfold State.kernelsStart
  repeat' first
    | with_reducible assumption | (intro _)
    | (extract_lets +onlyGivenNames x; have hx : Changes [.pw, .hw, .wd, .ref, .chans, .convs, .stands, .filts, .insts, .wave, .me, .pq, .pm] s x; (on_goal 1 => unfold x; clear x); on_goal 2 => clear_value x)
    | with_reducible apply ch_foldl | with_reducible apply ch_foldl_fst | with_reducible apply factoryTrims_ch
    | with_reducible apply standStart_ch | with_reducible apply filterInit_ch | with_reducible apply pqFresh_ch
    | with_reducible apply onPw_ch | with_reducible apply onMe_ch | with_reducible apply onRef_ch
    | with_reducible apply onPq_ch | with_reducible apply onPm_ch | with_reducible apply onWd_ch
    | (refine Changes.op (a := [.wave]) hx (by rfl) ⟨?_⟩; intro p hp; cases p <;> first | exact absurd (by decide) hp | rfl)
    | rfl | with_reducible refine ch_ite (fun _ => ?_) fun _ => ?_

theorem dspReload_ch (H : Changes q z s) (hq : within [.pw, .hw, .pr, .wd, .up, .ref, .chans, .convs, .stands, .filts, .insts,
    .wave, .me, .pq, .pm] q = true) :
    Changes q z (State.dspReload s) := by
  refine H.op hq ?_
  have H := Changes.refl [.pw, .hw, .pr, .wd, .up, .ref, .chans, .convs, .stands, .filts, .insts, .wave, .me, .pq, .pm] s
  unfold State.dspReload
  repeat' first
    | with_reducible assumption | (intro _)
    | (extract_lets +onlyGivenNames x; have hx : Changes [.pw, .hw, .pr, .wd, .up, .ref, .chans, .convs, .stands, .filts, .insts, .wave, .me, .pq, .pm] s x; (on_goal 1 => unfold x; clear x); on_goal 2 => clear_value x)
    | (extract_lets +onlyGivenNames x; have : x = x := by (unfold x; rfl)
       clear this; clear_value x)
    | with_reducible apply ch_foldl | with_reducible apply ch_foldl_fst | with_reducible apply runRegion_ch
    | with_reducible apply filterReload_ch | with_reducible apply standAbort_ch | with_reducible apply kernelsStart_ch
    | with_reducible apply dropPending_ch | with_reducible apply onWd_ch | with_reducible apply onHw_ch
    | with_reducible apply onPw_ch | rfl | with_reducible refine ch_ite (fun _ => ?_) fun _ => ?_

theorem endRequal_ch {k : ℕ} (H : Changes q z s) (hq : within [.convs, .stands] q = true) :
    Changes q z (State.endRequal s k) := by
  refine H.op hq ?_
  have H := Changes.refl [.convs, .stands] s
  unfold State.endRequal
  repeat' first
    | with_reducible assumption | (intro _) | with_reducible apply unsettle_ch | with_reducible apply onStand_ch
    | with_reducible refine ch_fst (by assumption) ?_ | rfl | with_reducible refine ch_ite (fun _ => ?_) fun _ => ?_ | split

theorem endWindow_ch {b : ℕ} {w : PqWin} {straddles : Bool} (H : Changes q z s) (hq : within [.pr, .lk, .qu, .units, .pq,
    .free] q = true) :
    Changes q z (State.endWindow s b w straddles) := by
  refine H.op hq ?_
  have H := Changes.refl [.pr, .lk, .qu, .units, .pq, .free] s
  unfold State.endWindow
  repeat' first
    | with_reducible assumption | with_reducible apply closeWindow_ch | with_reducible apply busAFirst_ch
    | with_reducible apply cyclesEnd_ch | with_reducible apply winState_ch | rfl

theorem substLog_ch {e : ℕ} (H : Changes q z s) (hq : within [.wd, .me] q = true) :
    Changes q z (State.substLog s e) := by
  refine H.op hq ?_
  have H := Changes.refl [.wd, .me] s
  unfold State.substLog
  repeat' first
    | with_reducible assumption | (intro _)
    | (extract_lets +onlyGivenNames x; have : x = x := by (unfold x; rfl)
       clear this; clear_value x)
    | with_reducible apply log_ch | with_reducible apply onMe_ch | rfl | with_reducible refine ch_ite (fun _ => ?_) fun _ => ?_

theorem energyFrame_ch {fv : List Val} {pv : List Val} (H : Changes q z s) (hq : within [.wd, .me] q = true) :
    Changes q z (State.energyFrame s fv pv) := by
  refine H.op hq ?_
  have H := Changes.refl [.wd, .me] s
  unfold State.energyFrame
  repeat' first
    | with_reducible assumption | (intro _)
    | (extract_lets +onlyGivenNames x; have hx : Changes [.wd, .me] s x; (on_goal 1 => unfold x; clear x); on_goal 2 => clear_value x)
    | (extract_lets +onlyGivenNames x; have : x = x := by (unfold x; rfl)
       clear this; clear_value x)
    | with_reducible apply ch_foldl | with_reducible apply ch_foldl_fst | with_reducible apply substLog_ch
    | with_reducible apply onMe_ch | rfl

theorem failCheckpoint_ch (H : Changes q z s) (hq : within [.pw, .hw, .wd, .me, .pq, .free] q = true) :
    Changes q z (State.failCheckpoint s) := by
  refine H.op hq ?_
  have H := Changes.refl [.pw, .hw, .wd, .me, .pq, .free] s
  unfold State.failCheckpoint
  repeat' first
    | with_reducible assumption | (intro _) | with_reducible apply checkpoint_ch | with_reducible apply closeEngines_ch
    | with_reducible apply onPw_ch | rfl

theorem filterStop_ch {c : ℕ} (H : Changes q z s) (hq : within [.wd, .filts] q = true) :
    Changes q z (State.filterStop s c) := by
  refine H.op hq ?_
  have H := Changes.refl [.wd, .filts] s
  unfold State.filterStop
  repeat' first
    | with_reducible assumption | (intro _)
    | (extract_lets +onlyGivenNames x; have hx : Changes [.wd, .filts] s x; (on_goal 1 => unfold x; clear x); on_goal 2 => clear_value x)
    | (extract_lets +onlyGivenNames x; have : x = x := by (unfold x; rfl)
       clear this; clear_value x)
    | with_reducible apply cancelLoading_ch | with_reducible apply cancelLoad_ch | with_reducible apply log_ch
    | with_reducible apply onFilt_ch | with_reducible refine ch_fst (by assumption) ?_ | rfl | split

theorem firstCopy_ch {key : ℕ × ℕ} (H : Changes q z s) (hq : within [.nt] q = true) :
    Changes q z (State.firstCopy s key) := by
  refine H.op hq ?_
  have H := Changes.refl [.nt] s
  unfold State.firstCopy
  repeat' first
    | with_reducible assumption | (intro _) | with_reducible apply onNt_ch | rfl

theorem fixItem_ch {part : ℕ} {l : List (ℕ × ℕ)} (H : Changes q z s) (hq : within [.hw, .wd] q = true) :
    Changes q z (State.fixItem s part l) := by
  refine H.op hq ?_
  have H := Changes.refl [.hw, .wd] s
  unfold State.fixItem
  repeat' first
    | with_reducible assumption | (intro _)
    | (extract_lets +onlyGivenNames x; have hx : Changes [.hw, .wd] s x; (on_goal 1 => unfold x; clear x); on_goal 2 => clear_value x)
    | with_reducible apply ch_foldl | with_reducible apply ch_foldl_fst | with_reducible apply fixRecord_ch
    | with_reducible apply log_ch | rfl | with_reducible refine ch_ite (fun _ => ?_) fun _ => ?_

theorem followStep_ch (H : Changes q z s) (hq : within [.rtc, .lk, .wd, .chans, .stands, .seqs, .units] q = true) :
    Changes q z (State.followStep s) := by
  refine H.op hq ?_
  have H := Changes.refl [.rtc, .lk, .wd, .chans, .stands, .seqs, .units] s
  unfold State.followStep
  repeat' first
    | with_reducible assumption | (intro _)
    | (extract_lets +onlyGivenNames x; have : x = x := by (unfold x; rfl)
       clear this; clear_value x)
    | with_reducible apply log_ch | with_reducible apply adjustCal_ch | with_reducible apply onRtc_ch | rfl
    | with_reducible refine ch_ite (fun _ => ?_) fun _ => ?_

theorem forwardPtp_ch {f : Heard} {m : Option PtpMark} (H : Changes q z s) (hq : within [.nt] q = true) :
    Changes q z (State.forwardPtp s f m) := by
  refine H.op hq ?_
  have H := Changes.refl [.nt] s
  unfold State.forwardPtp
  repeat' first
    | with_reducible assumption | (intro _) | with_reducible apply onNt_ch | rfl
    | with_reducible refine ch_ite (fun _ => ?_) fun _ => ?_

theorem fragEnd_ch {h : Hdr} (H : Changes q z s) (hq : within [.lk] q = true) :
    Changes q z (State.fragEnd s h) := by
  refine H.op hq ?_
  have H := Changes.refl [.lk] s
  unfold State.fragEnd
  repeat' first
    | with_reducible assumption | (intro _) | with_reducible apply onLk_ch | rfl

theorem fragAdd_ch {h : Hdr} {code : ℕ} {bs : List Byte} (H : Changes q z s) (hq : within [.lk] q = true) :
    Changes q z (State.fragAdd s h code bs) := by
  refine H.op hq ?_
  have H := Changes.refl [.lk] s
  unfold State.fragAdd
  repeat' first
    | with_reducible assumption | (intro _) | with_reducible apply fragEnd_ch | with_reducible apply onLk_ch | rfl

theorem frameError_ch (H : Changes q z s) (hq : within [.lk] q = true) :
    Changes q z (State.frameError s) := by
  refine H.op hq ?_
  have H := Changes.refl [.lk] s
  unfold State.frameError
  repeat' first
    | with_reducible assumption | (intro _) | with_reducible apply irq_ch | with_reducible apply onLk_ch | rfl

theorem frameLost_ch {f : OwnFrame} (H : Changes q z s) (hq : within [.nt, .qu, .pm] q = true) :
    Changes q z (State.frameLost s f) := by
  refine H.op hq ?_
  have H := Changes.refl [.nt, .qu, .pm] s
  unfold State.frameLost
  repeat' first
    | with_reducible assumption | (intro _) | with_reducible apply onQu_ch | with_reducible apply onNt_ch
    | with_reducible apply onPm_ch | rfl | with_reducible refine ch_ite (fun _ => ?_) fun _ => ?_

theorem frameSent_ch {f : OwnFrame} (H : Changes q z s) (hq : within [.qu, .pm] q = true) :
    Changes q z (State.frameSent s f) := by
  refine H.op hq ?_
  have H := Changes.refl [.qu, .pm] s
  unfold State.frameSent
  repeat' first
    | with_reducible assumption | (intro _) | with_reducible apply onQu_ch | with_reducible apply onPm_ch | rfl
    | with_reducible refine ch_ite (fun _ => ?_) fun _ => ?_

theorem freshWindows_ch (H : Changes q z s) (hq : within [.me, .pq] q = true) :
    Changes q z (State.freshWindows s) := by
  refine H.op hq ?_
  have H := Changes.refl [.me, .pq] s
  unfold State.freshWindows
  repeat' first
    | with_reducible assumption | (intro _) | with_reducible apply pqBegin_ch | with_reducible apply onMe_ch
    | with_reducible apply onPq_ch | rfl

theorem goodOffset_ch {th : ℤ} {gm : ℕ} {prev : Option ℕ} (H : Changes q z s) (hq : within [.pw, .te, .rtc, .hw, .pr, .lk, .wd,
    .pm, .free] q = true) :
    Changes q z (State.goodOffset s th gm prev) := by
  refine H.op hq ?_
  have H := Changes.refl [.pw, .te, .rtc, .hw, .pr, .lk, .wd, .pm, .free] s
  unfold State.goodOffset
  repeat' first
    | with_reducible assumption | (intro _)
    | (extract_lets +onlyGivenNames x; have : x = x := by (unfold x; rfl)
       clear this; clear_value x)
    | with_reducible apply servoTo_ch | with_reducible apply drew_ch | with_reducible apply onTe_ch
    | with_reducible refine ch_fst (by assumption) ?_ | rfl

theorem headReply_ch {bs : List Byte} (H : Changes q z s) (hq : within [.lk] q = true) :
    Changes q z (State.headReply s bs) := by
  refine H.op hq ?_
  have H := Changes.refl [.lk] s
  unfold State.headReply
  repeat' first
    | with_reducible assumption | (intro _) | with_reducible apply onLk_ch | rfl

theorem holdIdentify_ch {h : Hdr} (H : Changes q z s) (hq : within [.nt] q = true) :
    Changes q z (State.holdIdentify s h) := by
  refine H.op hq ?_
  have H := Changes.refl [.nt] s
  unfold State.holdIdentify
  repeat' first
    | with_reducible assumption | (intro _) | with_reducible apply onNt_ch | with_reducible refine ch_fst (by assumption) ?_
    | rfl | split

theorem holdSwap_ch {c : ℕ} {prime : ℕ} {fade : ℕ} (H : Changes q z s) (hq : within [.wd, .filts] q = true) :
    Changes q z (State.holdSwap s c prime fade) := by
  refine H.op hq ?_
  have H := Changes.refl [.wd, .filts] s
  unfold State.holdSwap
  repeat' first
    | with_reducible assumption | (intro _)
    | (extract_lets +onlyGivenNames x; have hx : Changes [.wd, .filts] s x; (on_goal 1 => unfold x; clear x); on_goal 2 => clear_value x)
    | (extract_lets +onlyGivenNames x; have : x = x := by (unfold x; rfl)
       clear this; clear_value x)
    | with_reducible apply log_ch | with_reducible apply onFilt_ch | rfl
    | with_reducible refine ch_ite (fun _ => ?_) fun _ => ?_

theorem landed_ch (H : Changes q z s) (hq : within [.hw] q = true) :
    Changes q z (State.landed s) := by
  refine H.op hq ?_
  have H := Changes.refl [.hw] s
  unfold State.landed
  repeat' first
    | with_reducible assumption | (intro _) | with_reducible apply onHw_ch | rfl

theorem writeFrame_ch {bs : List Byte} (H : Changes q z s) (hq : within [.rtc, .lk, .wd, .nt, .chans, .stands, .seqs, .qu,
    .units, .pm] q = true) :
    Changes q z (State.writeFrame s bs) := by
  refine H.op hq ?_
  have H := Changes.refl [.rtc, .lk, .wd, .nt, .chans, .stands, .seqs, .qu, .units, .pm] s
  unfold State.writeFrame
  repeat' first
    | with_reducible assumption
    | (extract_lets +onlyGivenNames x; have : x = x := by (unfold x; rfl)
       clear this; clear_value x)
    | with_reducible apply directWord_ch | with_reducible apply directLog_ch | rfl
    | with_reducible refine ch_ite (fun _ => ?_) fun _ => ?_

theorem latchFor_ch {a : ℕ} (H : Changes q z s) (hq : within [.lk, .free] q = true) :
    Changes q z (State.latchFor s a) := by
  refine H.op hq ?_
  have H := Changes.refl [.lk, .free] s
  unfold State.latchFor
  repeat' first
    | with_reducible assumption | (intro _) | with_reducible apply drew_ch | with_reducible apply onLk_ch | rfl
    | with_reducible refine ch_ite (fun _ => ?_) fun _ => ?_

theorem unlatchFor_ch {a : ℕ} (H : Changes q z s) (hq : within [.lk] q = true) :
    Changes q z (State.unlatchFor s a) := by
  refine H.op hq ?_
  have H := Changes.refl [.lk] s
  unfold State.unlatchFor
  repeat' first
    | with_reducible assumption | (intro _) | with_reducible apply onLk_ch | rfl

theorem uartDirect_ch {bs : List Byte} (H : Changes q z s) (hq : within [.rtc, .lk, .wd, .nt, .chans, .stands, .seqs, .qu,
    .units, .pm, .free] q = true) :
    Changes q z (State.uartDirect s bs) := by
  refine H.op hq ?_
  have H := Changes.refl [.rtc, .lk, .wd, .nt, .chans, .stands, .seqs, .qu, .units, .pm, .free] s
  unfold State.uartDirect
  repeat' first
    | with_reducible assumption | (intro _)
    | (extract_lets +onlyGivenNames x; have hx : Changes [.rtc, .lk, .wd, .nt, .chans, .stands, .seqs, .qu, .units, .pm, .free] s x; (on_goal 1 => unfold x; clear x); on_goal 2 => clear_value x)
    | (extract_lets +onlyGivenNames x; have : x = x := by (unfold x; rfl)
       clear this; clear_value x)
    | with_reducible apply directError_ch | with_reducible apply writeFrame_ch | with_reducible apply latchFor_ch
    | with_reducible apply unlatchFor_ch | with_reducible apply onLk_ch | rfl
    | with_reducible refine ch_ite (fun _ => ?_) fun _ => ?_

theorem linkReply_ch {pkt : List Byte} {st : Status} {rest : List Byte} (H : Changes q z s) (hq : within [.lk] q = true) :
    Changes q z (State.linkReply s pkt st rest) := by
  refine H.op hq ?_
  have H := Changes.refl [.lk] s
  unfold State.linkReply
  repeat' first
    | with_reducible assumption | (intro _)
    | (extract_lets +onlyGivenNames x; have : x = x := by (unfold x; rfl)
       clear this; clear_value x)
    | with_reducible apply onLk_ch | rfl

theorem rxBuffer_ch {bulk : Bool} {pkt : List Byte} (H : Changes q z s) (hq : within [.lk] q = true) :
    Changes q z (State.rxBuffer s bulk pkt) := by
  refine H.op hq ?_
  have H := Changes.refl [.lk] s
  unfold State.rxBuffer
  repeat' first
    | with_reducible assumption | (intro _) | with_reducible apply irq_ch | with_reducible apply onLk_ch | rfl
    | with_reducible refine ch_ite (fun _ => ?_) fun _ => ?_

theorem packetCheck_ch {bulk : Bool} {pkt : List Byte} (H : Changes q z s) (hq : within [.lk, .nt, .qu, .pm] q = true) :
    Changes q z (State.packetCheck s bulk pkt) := by
  refine H.op hq ?_
  have H := Changes.refl [.lk, .nt, .qu, .pm] s
  unfold State.packetCheck
  repeat' first
    | with_reducible assumption
    | (extract_lets +onlyGivenNames x; have hx : Changes [.lk, .nt, .qu, .pm] s x; (on_goal 1 => unfold x; clear x); on_goal 2 => clear_value x)
    | (extract_lets +onlyGivenNames x; have : x = x := by (unfold x; rfl)
       clear this; clear_value x)
    | with_reducible apply frameError_ch | with_reducible apply linkReply_ch | with_reducible apply hush_ch
    | with_reducible apply resume_ch | with_reducible apply headReply_ch | with_reducible apply rxBuffer_ch | rfl
    | with_reducible refine ch_ite (fun _ => ?_) fun _ => ?_

theorem uartBlock_ch {bs : List Byte} (H : Changes q z s) (hq : within [.rtc, .lk, .wd, .nt, .chans, .stands, .seqs, .qu,
    .units, .pm, .free] q = true) :
    Changes q z (State.uartBlock s bs) := by
  refine H.op hq ?_
  have H := Changes.refl [.rtc, .lk, .wd, .nt, .chans, .stands, .seqs, .qu, .units, .pm, .free] s
  unfold State.uartBlock
  repeat' first
    | with_reducible assumption | with_reducible apply frameError_ch | with_reducible apply uartDirect_ch
    | with_reducible apply packetCheck_ch | with_reducible refine ch_fst (by assumption) ?_ | rfl
    | with_reducible refine ch_ite (fun _ => ?_) fun _ => ?_ | split

theorem spiDirect_ch {bs : List Byte} (H : Changes q z s) (hq : within [.rtc, .lk, .wd, .nt, .chans, .stands, .seqs, .qu,
    .units, .pm, .free] q = true) :
    Changes q z (State.spiDirect s bs) := by
  refine H.op hq ?_
  have H := Changes.refl [.rtc, .lk, .wd, .nt, .chans, .stands, .seqs, .qu, .units, .pm, .free] s
  unfold State.spiDirect
  repeat' first
    | with_reducible assumption
    | (extract_lets +onlyGivenNames x; have hx : Changes [.rtc, .lk, .wd, .nt, .chans, .stands, .seqs, .qu, .units, .pm, .free] s x; (on_goal 1 => unfold x; clear x); on_goal 2 => clear_value x)
    | (extract_lets +onlyGivenNames x; have : x = x := by (unfold x; rfl)
       clear this; clear_value x)
    | with_reducible apply directError_ch | with_reducible apply drives_ch | with_reducible apply writeFrame_ch
    | with_reducible apply latchFor_ch | with_reducible apply unlatchFor_ch | rfl
    | with_reducible refine ch_ite (fun _ => ?_) fun _ => ?_

theorem packets_ch {bulk : Bool} {fuel h : Nat} {bs : List Byte} (H : Changes q z s) (hq : within [.lk, .nt, .qu, .pm] q = true) :
    Changes q z (s.packets bulk fuel h bs) := by
  induction fuel generalizing s h bs with
  | zero => exact H
  | succ fuel ih =>
    unfold State.packets
    exact ch_ite (fun _ => H) fun _ => ch_ite (fun _ => frameError_ch H (wt hq)) fun _ => ih (packetCheck_ch H hq)

theorem spiPackets_ch {bs : List Byte} (H : Changes q z s) (hq : within [.lk, .nt, .qu, .pm] q = true) :
    Changes q z (State.spiPackets s bs) := by
  refine H.op hq ?_
  have H := Changes.refl [.lk, .nt, .qu, .pm] s
  unfold State.spiPackets
  repeat' first
    | with_reducible assumption | (intro _)
    | (extract_lets +onlyGivenNames x; have : x = x := by (unfold x; rfl)
       clear this; clear_value x)
    | with_reducible apply frameError_ch | with_reducible apply packets_ch | with_reducible apply onLk_ch | rfl
    | with_reducible refine ch_ite (fun _ => ?_) fun _ => ?_

theorem hostFrame_ch {bs : List Byte} (H : Changes q z s) (hq : within [.rtc, .hw, .lk, .wd, .nt, .chans, .stands, .seqs, .qu,
    .units, .pm, .free] q = true) :
    Changes q z (State.hostFrame s bs) := by
  refine H.op hq ?_
  have H := Changes.refl [.rtc, .hw, .lk, .wd, .nt, .chans, .stands, .seqs, .qu, .units, .pm, .free] s
  unfold State.hostFrame
  repeat' first
    | with_reducible assumption
    | (extract_lets +onlyGivenNames x; have hx : Changes [.rtc, .hw, .lk, .wd, .nt, .chans, .stands, .seqs, .qu, .units, .pm, .free] s x; (on_goal 1 => unfold x; clear x); on_goal 2 => clear_value x)
    | with_reducible apply landed_ch | with_reducible apply uartBlock_ch | with_reducible apply spiDirect_ch
    | with_reducible apply spiPackets_ch | rfl | with_reducible refine ch_ite (fun _ => ?_) fun _ => ?_

theorem superReturn_ch {port : ℕ} (H : Changes q z s) (hq : within [.lk, .wd, .nt, .free] q = true) :
    Changes q z (State.superReturn s port) := by
  refine H.op hq ?_
  have H := Changes.refl [.lk, .wd, .nt, .free] s
  unfold State.superReturn
  repeat' first
    | with_reducible assumption | (intro _)
    | (extract_lets +onlyGivenNames x; have hx : Changes [.lk, .wd, .nt, .free] s x; (on_goal 1 => unfold x; clear x); on_goal 2 => clear_value x)
    | with_reducible apply onPort_ch | with_reducible apply log_ch | with_reducible apply irq_ch | with_reducible apply drew_ch
    | with_reducible apply onNt_ch | rfl | with_reducible refine ch_ite (fun _ => ?_) fun _ => ?_

theorem hsrTagged_ch {f : Heard} {seq : ℕ} (H : Changes q z s) (hq : within [.lk, .wd, .nt, .qu, .pm, .free] q = true) :
    Changes q z (State.hsrTagged s f seq) := by
  refine H.op hq ?_
  have H := Changes.refl [.lk, .wd, .nt, .qu, .pm, .free] s
  unfold State.hsrTagged
  repeat' first
    | with_reducible assumption | (intro _)
    | (extract_lets +onlyGivenNames x; have hx : Changes [.lk, .wd, .nt, .qu, .pm, .free] s x; (on_goal 1 => unfold x; clear x); on_goal 2 => clear_value x)
    | (extract_lets +onlyGivenNames x; have : x = x := by (unfold x; rfl)
       clear this; clear_value x)
    | with_reducible apply superReturn_ch | with_reducible apply firstCopy_ch | with_reducible apply toMac_ch
    | with_reducible apply forward_ch | with_reducible apply onNt_ch | rfl
    | with_reducible refine ch_ite (fun _ => ?_) fun _ => ?_

theorem writeParts_ch {pair : ℕ} {parts : ℕ} {bs : List Byte} (H : Changes q z s) (hq : within [.hw, .wd] q = true) :
    Changes q z (State.writeParts s pair parts bs).1 := by
  refine Changes.op H hq ?_
  have H := Changes.refl [.hw, .wd] s
  unfold State.writeParts
  repeat' first
    | with_reducible assumption | (intro _)
    | (extract_lets +onlyGivenNames x; have : x = x := by (unfold x; rfl)
       clear this; clear_value x)
    | with_reducible apply itemPut_ch | rfl | with_reducible refine ch_ite (fun _ => ?_) fun _ => ?_ | split

theorem layoutSets_ch (H : Changes q z s) (hq : within [.hw, .wd] q = true) : Changes q z (State.layoutSets s).1 := by
  unfold State.layoutSets
  extract_lets r
  have hr : Changes q z r.1.1 := by
    have go : ∀ (l : List (Nat × List Byte)) (a : (State × Bool) × Nat), Changes q z a.1.1 → Changes q z (l.foldl
        (fun (a : (State × Bool) × Nat) e =>
          let n := setPairs (byteAt e.2 0).toNat
          (andThen a.1 fun x => x.writeParts a.2 n (le 4 e.1 ++ e.2), a.2 + n)) a).1.1 := by
      intro l
      induction l with
      | nil => exact fun _ h => h
      | cons e l ih => exact fun a h => ih _ (andThen_ch h fun x hx => writeParts_ch hx (wt hq))
    exact go _ _ H
  clear_value r
  refine ch_foldl_fst (fun a k h => andThen_ch h fun x hx => ?_) hr
  split
  · exact hx
  · exact itemPut_ch hx (wt hq)

theorem keepPut_ch {c : ℕ} {bs : List Byte} (H : Changes q z s) (hq : within [.hw, .wd] q = true) :
    Changes q z (State.keepPut s c bs).1 := by
  refine Changes.op H hq ?_
  have H := Changes.refl [.hw, .wd] s
  unfold State.keepPut
  repeat' first
    | with_reducible assumption | (intro _)
    | (extract_lets +onlyGivenNames x; have hx : Changes [.hw, .wd] s x.1; (on_goal 1 => unfold x; clear x); on_goal 2 => clear_value x)
    | with_reducible apply layoutSets_ch | with_reducible apply pioUpdate_ch | with_reducible apply onHw_ch | rfl
    | with_reducible refine ch_ite (fun _ => ?_) fun _ => ?_ | split

theorem keepSet_ch {c : ℕ} {bs : List Byte} (H : Changes q z s) (hq : within [.hw, .wd] q = true) :
    Changes q z (State.keepSet s c bs) := by
  refine H.op hq ?_
  have H := Changes.refl [.hw, .wd] s
  unfold State.keepSet
  repeat' first
    | with_reducible assumption | with_reducible apply keepPut_ch | rfl

theorem importSet_ch {e : ℕ × List Byte} (H : Changes q z s) (hq : within [.hw, .wd, .filts, .insts] q = true) :
    Changes q z (State.importSet s e) := by
  refine H.op hq ?_
  have H := Changes.refl [.hw, .wd, .filts, .insts] s
  unfold State.importSet
  repeat' first
    | with_reducible assumption | (intro _)
    | (extract_lets +onlyGivenNames x; have hx : Changes [.hw, .wd, .filts, .insts] s x; (on_goal 1 => unfold x; clear x); on_goal 2 => clear_value x)
    | with_reducible apply keepSet_ch | with_reducible apply writeBankA_ch | with_reducible apply onFilt_ch | rfl
    | with_reducible refine ch_ite (fun _ => ?_) fun _ => ?_

theorem intake_ch {ins : List ConvIn} (H : Changes q z s) (hq : within [.convs] q = true) :
    Changes q z (State.intake s ins) := by
  refine H.op hq ?_
  have H := Changes.refl [.convs] s
  unfold State.intake
  repeat' first
    | with_reducible assumption | (intro _)
    | (refine Changes.op (a := [.convs]) H (by rfl) ⟨?_⟩; intro p hp; cases p <;> first | exact absurd (by decide) hp | rfl)

theorem tamperCond_ch {slot : ℕ} {circuit : ℕ} {holds : Bool} (H : Changes q z s) (hq : within [.se, .lk, .tp, .wd, .hm, .me,
    .free] q = true) :
    Changes q z (State.tamperCond s slot circuit holds) := by
  refine H.op hq ?_
  have H := Changes.refl [.se, .lk, .tp, .wd, .hm, .me, .free] s
  unfold State.tamperCond
  repeat' first
    | with_reducible assumption | (intro _)
    | (extract_lets +onlyGivenNames x; have : x = x := by (unfold x; rfl)
       clear this; clear_value x)
    | with_reducible apply tamperRaise_ch | with_reducible apply onSlot_ch | with_reducible apply tamperClear_ch | rfl
    | with_reducible refine ch_ite (fun _ => ?_) fun _ => ?_

theorem tampStep_ch {b : Closed} {c : ℕ} {j : ℕ} (H : Changes q z s) (hq : within [.se, .lk, .tp, .wd, .hm, .me, .free] q =
    true) :
    Changes q z (State.tampStep s b c j) := by
  refine H.op hq ?_
  have H := Changes.refl [.se, .lk, .tp, .wd, .hm, .me, .free] s
  unfold State.tampStep
  repeat' first
    | with_reducible assumption | (intro _)
    | (extract_lets +onlyGivenNames x; have hx : Changes [.se, .lk, .tp, .wd, .hm, .me, .free] s x; (on_goal 1 => unfold x; clear x); on_goal 2 => clear_value x)
    | (extract_lets +onlyGivenNames x; have : x = x := by (unfold x; rfl)
       clear this; clear_value x)
    | with_reducible apply onRun_ch | with_reducible apply log_ch | with_reducible apply tamperCond_ch | rfl
    | with_reducible refine ch_ite (fun _ => ?_) fun _ => ?_

theorem metroTamper_ch {b : Closed} (H : Changes q z s) (hq : within [.se, .lk, .tp, .wd, .hm, .me, .free] q = true) :
    Changes q z (State.metroTamper s b) := by
  refine H.op hq ?_
  have H := Changes.refl [.se, .lk, .tp, .wd, .hm, .me, .free] s
  unfold State.metroTamper
  repeat' first
    | with_reducible assumption | (intro _) | with_reducible apply ch_foldl | with_reducible apply ch_foldl_fst
    | with_reducible apply tampStep_ch | rfl | with_reducible refine ch_ite (fun _ => ?_) fun _ => ?_

theorem xlog_ch {c : ℕ} {test : ℕ} {ep : ℤ} {ef : ℤ} {sp : ℤ} {sf : ℤ} (H : Changes q z s) (hq : within [.wd] q = true) :
    Changes q z (State.xlog s c test ep ef sp sf) := by
  refine H.op hq ?_
  have H := Changes.refl [.wd] s
  unfold State.xlog
  repeat' first
    | with_reducible assumption | with_reducible apply log_ch | rfl

theorem xcheckCirc_ch {b : Closed} {a : State × Bool × Bool} {c : Nat} (H : Changes q z a.1) (hq : within [.hw, .se, .lk, .tp, .wd, .up, .hm, .me, .pq, .free] q = true) :
    Changes q z (xcheckCirc b a c).1 := by
  unfold xcheckCirc
  extract_lets s f p last sp sf bad0 bad1 s1 s2 s3 s4
  have h1 : Changes q z s1 := onRun_ch H (wt hq)
  have h2 : Changes q z s2 := onRun_ch (circBit_ch h1 (wt hq)) (wt hq)
  have h3 : Changes q z s3 := ch_ite (fun _ => h2) fun _ => onRun_ch (xlog_ch h2 (wt hq)) (wt hq)
  have h4 : Changes q z s4 := ch_ite (fun _ => h3) fun _ =>
    trialFail_ch (tamperCond_ch (onMe_ch h3 (wt hq)) (wt hq)) (wt hq)
  clear_value s4 s3 s2 s1
  split
  · exact H
  · split
    · exact onRun_ch (circBit_ch H (wt hq)) (wt hq)
    · split
      · exact h4
      · exact h1

theorem xcheck_ch {b : Closed} (H : Changes q z s) (hq : within [.hw, .se, .lk, .tp, .wd, .up, .hm, .me, .pq, .free] q = true) : Changes q z (s.xcheck b) := by
  unfold State.xcheck
  have h1 : Changes q z ((List.range 28).foldl (xcheckCirc b) (s, false, false)).1 :=
    ch_foldl_fst (fun a c h => xcheckCirc_ch h (wt hq)) H
  split
  rename_i s1 compared failed he
  rw [he] at h1
  extract_lets run s2
  have h2 : Changes q z s2 := onMe_ch h1 (wt hq)
  clear_value s2
  exact ch_ite (fun _ => tamperCond_ch (log_ch (onMe_ch h2 (wt hq)) (wt hq)) (wt hq)) fun _ => h2

theorem judgeBlock_ch {b : Closed} (H : Changes q z s) (hq : within [.hw, .se, .lk, .tp, .wd, .up, .hm, .me, .pq, .free] q =
    true) :
    Changes q z (State.judgeBlock s b) := by
  refine H.op hq ?_
  have H := Changes.refl [.hw, .se, .lk, .tp, .wd, .up, .hm, .me, .pq, .free] s
  unfold State.judgeBlock
  repeat' first
    | with_reducible assumption | (intro _)
    | (extract_lets +onlyGivenNames x; have hx : Changes [.hw, .se, .lk, .tp, .wd, .up, .hm, .me, .pq, .free] s x; (on_goal 1 => unfold x; clear x); on_goal 2 => clear_value x)
    | with_reducible apply ch_foldl | with_reducible apply ch_foldl_fst | with_reducible apply circBit_ch
    | with_reducible apply metroTamper_ch | with_reducible apply xcheck_ch | with_reducible apply onMe_ch | rfl
    | with_reducible refine ch_ite (fun _ => ?_) fun _ => ?_

theorem keepReading_ch {sensor : ℕ} {value : ℕ} (H : Changes q z s) (hq : within [.pw, .free] q = true) :
    Changes q z (State.keepReading s sensor value) := by
  refine H.op hq ?_
  have H := Changes.refl [.pw, .free] s
  unfold State.keepReading
  repeat' first
    | with_reducible assumption | (intro _) | with_reducible apply drew_ch | with_reducible apply onPw_ch | rfl
    | with_reducible refine ch_ite (fun _ => ?_) fun _ => ?_

theorem keyEvent_ch {k : ℕ} {ev : ℕ} (H : Changes q z s) (hq : within [.hm] q = true) :
    Changes q z (State.keyEvent s k ev) := by
  refine H.op hq ?_
  have H := Changes.refl [.hm] s
  unfold State.keyEvent
  repeat' first
    | with_reducible assumption | (intro _) | with_reducible apply onHm_ch | rfl

theorem showItem_ch {n : ℕ} (H : Changes q z s) (hq : within [.hm] q = true) :
    Changes q z (State.showItem s n) := by
  refine H.op hq ?_
  have H := Changes.refl [.hm] s
  unfold State.showItem
  repeat' first
    | with_reducible assumption | (intro _) | with_reducible apply onHm_ch | rfl

theorem keyStep_ch {f : ℕ} (H : Changes q z s) (hq : within [.hm] q = true) :
    Changes q z (State.keyStep s f) := by
  refine H.op hq ?_
  have H := Changes.refl [.hm] s
  unfold State.keyStep
  repeat' first
    | with_reducible assumption | (intro _)
    | (extract_lets +onlyGivenNames x; have : x = x := by (unfold x; rfl)
       clear this; clear_value x)
    | with_reducible apply showItem_ch | with_reducible apply onHm_ch | rfl

theorem keyNextPrev_ch {f : ℕ} (H : Changes q z s) (hq : within [.hm] q = true) :
    Changes q z (State.keyNextPrev s f) := by
  refine H.op hq ?_
  have H := Changes.refl [.hm] s
  unfold State.keyNextPrev
  repeat' first
    | with_reducible assumption | (intro _) | with_reducible apply keyStep_ch | with_reducible apply onHm_ch
    | with_reducible refine ch_fst (by assumption) ?_ | rfl | with_reducible refine ch_ite (fun _ => ?_) fun _ => ?_ | split

theorem keyTick_ch (H : Changes q z s) (hq : within [.hm] q = true) :
    Changes q z (State.keyTick s) := by
  refine H.op hq ?_
  have H := Changes.refl [.hm] s
  unfold State.keyTick
  repeat' first
    | with_reducible assumption | with_reducible apply keyStep_ch | with_reducible refine ch_fst (by assumption) ?_ | rfl
    | with_reducible refine ch_ite (fun _ => ?_) fun _ => ?_ | split

theorem latchChans_ch (H : Changes q z s) (hq : within [.chans] q = true) :
    Changes q z (State.latchChans s) := by
  refine H.op hq ?_
  have H := Changes.refl [.chans] s
  unfold State.latchChans
  repeat' first
    | with_reducible assumption | (intro _)
    | (refine Changes.op (a := [.chans]) H (by rfl) ⟨?_⟩; intro p hp; cases p <;> first | exact absurd (by decide) hp | rfl)

theorem takeLayout_ch (H : Changes q z s) (hq : within [.hm] q = true) :
    Changes q z (State.takeLayout s) := by
  refine H.op hq ?_
  have H := Changes.refl [.hm] s
  unfold State.takeLayout
  repeat' first
    | with_reducible assumption | (intro _)
    | (extract_lets +onlyGivenNames x; have hx : Changes [.hm] s x; (on_goal 1 => unfold x; clear x); on_goal 2 => clear_value x)
    | (extract_lets +onlyGivenNames x; have : x = x := by (unfold x; rfl)
       clear this; clear_value x)
    | with_reducible apply onHm_ch | rfl | with_reducible refine ch_ite (fun _ => ?_) fun _ => ?_

theorem latchDisplay_ch (H : Changes q z s) (hq : within [.hm] q = true) :
    Changes q z (State.latchDisplay s) := by
  refine H.op hq ?_
  have H := Changes.refl [.hm] s
  unfold State.latchDisplay
  repeat' first
    | with_reducible assumption | (intro _)
    | (extract_lets +onlyGivenNames x; have hx : Changes [.hm] s x; (on_goal 1 => unfold x; clear x); on_goal 2 => clear_value x)
    | (extract_lets +onlyGivenNames x; have : x = x := by (unfold x; rfl)
       clear this; clear_value x)
    | with_reducible apply takeLayout_ch | with_reducible apply onHm_ch | rfl

theorem latchSnap_ch {b : Closed} (H : Changes q z s) (hq : within [.lk] q = true) :
    Changes q z (State.latchSnap s b) := by
  refine H.op hq ?_
  have H := Changes.refl [.lk] s
  unfold State.latchSnap
  repeat' first
    | with_reducible assumption | (intro _)
    | (extract_lets +onlyGivenNames x; have : x = x := by (unfold x; rfl)
       clear this; clear_value x)
    | with_reducible apply onLk_ch | rfl

theorem takeRegisters_ch {img : List Byte} (H : Changes q z s) (hq : within [.me] q = true) :
    Changes q z (State.takeRegisters s img) := by
  refine H.op hq ?_
  have H := Changes.refl [.me] s
  unfold State.takeRegisters
  repeat' first
    | with_reducible assumption | (intro _) | with_reducible apply onMe_ch | rfl

theorem loadBooks_ch {img : List Byte} (H : Changes q z s) (hq : within [.me] q = true) :
    Changes q z (State.loadBooks s img) := by
  refine H.op hq ?_
  have H := Changes.refl [.me] s
  unfold State.loadBooks
  repeat' first
    | with_reducible assumption | (intro _)
    | (extract_lets +onlyGivenNames x; have hx : Changes [.me] s x; (on_goal 1 => unfold x; clear x); on_goal 2 => clear_value x)
    | with_reducible apply takeRegisters_ch | with_reducible apply onMe_ch | rfl

theorem loadLedger_ch (H : Changes q z s) (hq : within [.hw, .wd, .me] q = true) :
    Changes q z (State.loadLedger s) := by
  refine H.op hq ?_
  have H := Changes.refl [.hw, .wd, .me] s
  unfold State.loadLedger
  repeat' first
    | with_reducible assumption | (intro _)
    | (extract_lets +onlyGivenNames x; have hx : Changes [.hw, .wd, .me] s x; (on_goal 1 => unfold x; clear x); on_goal 2 => clear_value x)
    | with_reducible apply sense_ch | with_reducible apply loadBooks_ch | with_reducible apply log_ch
    | with_reducible apply onHw_ch | with_reducible refine ch_fst (by assumption) ?_ | rfl | split

theorem recordFilter_ch {body : List Byte} {c : ℕ} (H : Changes q z s) (hq : within [.filts, .insts] q = true) :
    Changes q z (State.recordFilter s body c) := by
  refine H.op hq ?_
  have H := Changes.refl [.filts, .insts] s
  unfold State.recordFilter
  repeat' first
    | with_reducible assumption | (intro _)
    | (extract_lets +onlyGivenNames x; have : x = x := by (unfold x; rfl)
       clear this; clear_value x)
    | with_reducible apply onInsts_ch | with_reducible apply onFilt_ch | rfl

theorem loadRecord_ch {seq : ℕ} {body : List Byte} (H : Changes q z s) (hq : within [.hw, .pr, .convs, .stands, .filts, .insts]
    q = true) :
    Changes q z (State.loadRecord s seq body) := by
  refine H.op hq ?_
  have H := Changes.refl [.hw, .pr, .convs, .stands, .filts, .insts] s
  unfold State.loadRecord
  repeat' first
    | with_reducible assumption | (intro _)
    | (extract_lets +onlyGivenNames x; have hx : Changes [.hw, .pr, .convs, .stands, .filts, .insts] s x; (on_goal 1 => unfold x; clear x); on_goal 2 => clear_value x)
    | with_reducible apply ch_foldl | with_reducible apply ch_foldl_fst | with_reducible apply recordFilter_ch
    | with_reducible apply onHw_ch | with_reducible apply onPr_ch
    | (refine Changes.op (a := [.convs, .stands]) hx (by rfl) ⟨?_⟩; intro p hp; cases p <;> first | exact absurd (by decide) hp | rfl)
    | rfl

theorem loadStart_ch {c : ℕ} (H : Changes q z s) (hq : within [.filts, .insts] q = true) :
    Changes q z (State.loadStart s c) := by
  refine H.op hq ?_
  have H := Changes.refl [.filts, .insts] s
  unfold State.loadStart
  repeat' first
    | with_reducible assumption | (intro _) | with_reducible apply onInst_ch | with_reducible apply onFilt_ch
    | with_reducible refine ch_fst (by assumption) ?_ | rfl | split

theorem takeTotals_ch {img : List Byte} (H : Changes q z s) (hq : within [.me] q = true) :
    Changes q z (State.takeTotals s img) := by
  refine H.op hq ?_
  have H := Changes.refl [.me] s
  unfold State.takeTotals
  repeat' first
    | with_reducible assumption | (intro _) | with_reducible apply onMe_ch | rfl

theorem loadTotals_ch (H : Changes q z s) (hq : within [.hw, .me, .pq] q = true) :
    Changes q z (State.loadTotals s) := by
  refine H.op hq ?_
  have H := Changes.refl [.hw, .me, .pq] s
  unfold State.loadTotals
  repeat' first
    | with_reducible assumption | (intro _)
    | (extract_lets +onlyGivenNames x; have hx : Changes [.hw, .me, .pq] s x; (on_goal 1 => unfold x; clear x); on_goal 2 => clear_value x)
    | (extract_lets +onlyGivenNames x; have : x = x := by (unfold x; rfl)
       clear this; clear_value x)
    | with_reducible apply takeTotals_ch | with_reducible apply onHw_ch | with_reducible apply onPq_ch
    | with_reducible refine ch_fst (by assumption) ?_ | rfl | with_reducible refine ch_ite (fun _ => ?_) fun _ => ?_ | split

theorem logTorn_ch (H : Changes q z s) (hq : within [.hw, .wd] q = true) :
    Changes q z (State.logTorn s) := by
  refine H.op hq ?_
  have H := Changes.refl [.hw, .wd] s
  unfold State.logTorn
  repeat' first
    | with_reducible assumption | (intro _)
    | (extract_lets +onlyGivenNames x; have hx : Changes [.hw, .wd] s x; (on_goal 1 => unfold x; clear x); on_goal 2 => clear_value x)
    | (extract_lets +onlyGivenNames x; have : x = x := by (unfold x; rfl)
       clear this; clear_value x)
    | with_reducible apply ch_foldl | with_reducible apply ch_foldl_fst | with_reducible apply sense_ch
    | with_reducible apply log_ch | with_reducible apply onHw_ch | rfl

theorem setUtc_ch {v : ℤ} (H : Changes q z s) (hq : within [.hw, .pr] q = true) :
    Changes q z (State.setUtc s v) := by
  refine H.op hq ?_
  have H := Changes.refl [.hw, .pr] s
  unfold State.setUtc
  repeat' first
    | with_reducible assumption | with_reducible apply pioUpdate_ch | with_reducible apply storePar_ch | rfl
    | with_reducible refine ch_ite (fun _ => ?_) fun _ => ?_

theorem masterAnnounce_ch {m : List Byte} (H : Changes q z s) (hq : within [.rtc, .hw, .pr, .wd] q = true) :
    Changes q z (State.masterAnnounce s m) := by
  refine H.op hq ?_
  have H := Changes.refl [.rtc, .hw, .pr, .wd] s
  unfold State.masterAnnounce
  repeat' first
    | with_reducible assumption
    | (extract_lets +onlyGivenNames x; have hx : Changes [.rtc, .hw, .pr, .wd] s x; (on_goal 1 => unfold x; clear x); on_goal 2 => clear_value x)
    | (extract_lets +onlyGivenNames x; have : x = x := by (unfold x; rfl)
       clear this; clear_value x)
    | with_reducible apply setUtc_ch | with_reducible apply setLeap_ch | rfl
    | with_reducible refine ch_ite (fun _ => ?_) fun _ => ?_

theorem matchSecond_ch (H : Changes q z s) (hq : within [.rtc, .lk, .wd, .chans, .stands, .seqs, .units] q = true) :
    Changes q z (State.matchSecond s) := by
  refine H.op hq ?_
  have H := Changes.refl [.rtc, .lk, .wd, .chans, .stands, .seqs, .units] s
  unfold State.matchSecond
  repeat' first
    | with_reducible assumption | (intro _)
    | (extract_lets +onlyGivenNames x; have hx : Changes [.rtc, .lk, .wd, .chans, .stands, .seqs, .units] s x; (on_goal 1 => unfold x; clear x); on_goal 2 => clear_value x)
    | (extract_lets +onlyGivenNames x; have : x = x := by (unfold x; rfl)
       clear this; clear_value x)
    | with_reducible apply ch_foldl | with_reducible apply ch_foldl_fst | with_reducible apply onAlarm_ch
    | with_reducible apply alarmAct_ch | with_reducible refine ch_fst (by assumption) ?_ | rfl
    | with_reducible refine ch_ite (fun _ => ?_) fun _ => ?_

theorem matchStep_ch {k : ℕ} {h : ℚ} {p : ℚ} (H : Changes q z s) (hq : within [.stands] q = true) :
    Changes q z (State.matchStep s k h p) := by
  refine H.op hq ?_
  have H := Changes.refl [.stands] s
  unfold State.matchStep
  repeat' first
    | with_reducible assumption | (intro _)
    | (extract_lets +onlyGivenNames x; have hx : Changes [.stands] s x; (on_goal 1 => unfold x; clear x); on_goal 2 => clear_value x)
    | (extract_lets +onlyGivenNames x; have : x = x := by (unfold x; rfl)
       clear this; clear_value x)
    | with_reducible apply onStand_ch | with_reducible refine ch_fst (by assumption) ?_ | rfl
    | with_reducible refine ch_ite (fun _ => ?_) fun _ => ?_

theorem newTrims_ch {v : ℕ} {r : Rest} (H : Changes q z s) (hq : within [.convs] q = true) :
    Changes q z (State.newTrims s v r) := by
  refine H.op hq ?_
  have H := Changes.refl [.convs] s
  unfold State.newTrims
  repeat' first
    | with_reducible assumption | (intro _)
    | (extract_lets +onlyGivenNames x; have : x = x := by (unfold x; rfl)
       clear this; clear_value x)
    | with_reducible apply onConv_ch | rfl

theorem refuseOffset_ch {th : ℤ} {gm : ℕ} (H : Changes q z s) (hq : within [.pw, .te, .rtc, .hw, .pr, .lk, .wd, .pm, .free] q =
    true) :
    Changes q z (State.refuseOffset s th gm) := by
  refine H.op hq ?_
  have H := Changes.refl [.pw, .te, .rtc, .hw, .pr, .lk, .wd, .pm, .free] s
  unfold State.refuseOffset
  repeat' first
    | with_reducible assumption | (intro _)
    | (extract_lets +onlyGivenNames x; have hx : Changes [.pw, .te, .rtc, .hw, .pr, .lk, .wd, .pm, .free] s x; (on_goal 1 => unfold x; clear x); on_goal 2 => clear_value x)
    | (extract_lets +onlyGivenNames x; have : x = x := by (unfold x; rfl)
       clear this; clear_value x)
    | with_reducible apply servoTo_ch | with_reducible apply log_ch | with_reducible apply irq_ch
    | with_reducible apply drew_ch | with_reducible apply onTe_ch | rfl

theorem offset_ch {th : ℤ} {gm : ℕ} (H : Changes q z s) (hq : within [.pw, .te, .rtc, .hw, .pr, .lk, .wd, .seqs, .qu, .me, .pq,
    .pm, .free] q = true) :
    Changes q z (State.offset s th gm).1 := by
  refine Changes.op H hq ?_
  have H := Changes.refl [.pw, .te, .rtc, .hw, .pr, .lk, .wd, .seqs, .qu, .me, .pq, .pm, .free] s
  unfold State.offset
  repeat' first
    | with_reducible assumption | (intro _)
    | (extract_lets +onlyGivenNames x; have hx : Changes [.pw, .te, .rtc, .hw, .pr, .lk, .wd, .seqs, .qu, .me, .pq, .pm, .free] s x; (on_goal 1 => unfold x; clear x); on_goal 2 => clear_value x)
    | (extract_lets +onlyGivenNames x; have : x = x := by (unfold x; rfl)
       clear this; clear_value x)
    | with_reducible apply takeScheduled_ch | with_reducible apply goodOffset_ch | with_reducible apply acceptStep_ch
    | with_reducible apply refuseOffset_ch | with_reducible apply onTe_ch | rfl
    | with_reducible refine ch_ite (fun _ => ?_) fun _ => ?_ | split

theorem onBlaze_ch {k : ℕ} {f : Blaze → Blaze} (H : Changes q z s) (hq : within [.te] q = true) :
    Changes q z (State.onBlaze s k f) := by
  refine H.op hq ?_
  have H := Changes.refl [.te] s
  unfold State.onBlaze
  repeat' first
    | with_reducible assumption | (intro _) | with_reducible apply onTe_ch | rfl

theorem onLock_ch {part : ℕ} {f : Lockout → Lockout} (H : Changes q z s) (hq : within [.se] q = true) :
    Changes q z (State.onLock s part f) := by
  refine H.op hq ?_
  have H := Changes.refl [.se] s
  unfold State.onLock
  repeat' first
    | with_reducible assumption | (intro _) | with_reducible apply onSe_ch | rfl

theorem onNotch_ch {k : ℕ} {f : Notch → Notch} (H : Changes q z s) (hq : within [.te] q = true) :
    Changes q z (State.onNotch s k f) := by
  refine H.op hq ?_
  have H := Changes.refl [.te] s
  unfold State.onNotch
  repeat' first
    | with_reducible assumption | (intro _) | with_reducible apply onTe_ch | rfl

theorem peerResult_ch {port : ℕ} {t2 : ℕ} {t3 : ℕ} {t4 : ℕ} {corr : ℤ} (H : Changes q z s) (hq : within [.te, .nt, .free] q =
    true) :
    Changes q z (State.peerResult s port t2 t3 t4 corr) := by
  refine H.op hq ?_
  have H := Changes.refl [.te, .nt, .free] s
  unfold State.peerResult
  repeat' first
    | with_reducible assumption | (intro _)
    | (extract_lets +onlyGivenNames x; have : x = x := by (unfold x; rfl)
       clear this; clear_value x)
    | with_reducible apply takeStamp_ch | with_reducible apply onPort_ch | with_reducible apply drew_ch
    | with_reducible refine ch_fst (by assumption) ?_ | rfl | with_reducible refine ch_ite (fun _ => ?_) fun _ => ?_ | split

theorem phasorRecords_ch {r : ReportIn} (H : Changes q z s) (hq : within [.lk, .qu] q = true) :
    Changes q z (State.phasorRecords s r) := by
  refine H.op hq ?_
  have H := Changes.refl [.lk, .qu] s
  unfold State.phasorRecords
  repeat' first
    | with_reducible assumption | (intro _)
    | (extract_lets +onlyGivenNames x; have hx : Changes [.lk, .qu] s x; (on_goal 1 => unfold x; clear x); on_goal 2 => clear_value x)
    | (extract_lets +onlyGivenNames x; have : x = x := by (unfold x; rfl)
       clear this; clear_value x)
    | with_reducible apply ch_foldl | with_reducible apply ch_foldl_fst | with_reducible apply qX_ch | rfl

theorem pioBegin_ch (H : Changes q z s) (hq : within [.hw, .wd] q = true) :
    Changes q z (State.pioBegin s) := by
  refine H.op hq ?_
  have H := Changes.refl [.hw, .wd] s
  unfold State.pioBegin
  repeat' first
    | with_reducible assumption | (intro _) | with_reducible apply log_ch | with_reducible apply onHw_ch | rfl
    | with_reducible refine ch_ite (fun _ => ?_) fun _ => ?_

theorem pmuApply_ch {commitT : ℕ} {at_ : ℕ} {l : List (ℕ × ℕ)} (H : Changes q z s) (hq : within [.hw, .pr, .wd, .pm] q = true) :
    Changes q z (State.pmuApply s commitT at_ l) := by
  refine H.op hq ?_
  have H := Changes.refl [.hw, .pr, .wd, .pm] s
  unfold State.pmuApply
  repeat' first
    | with_reducible assumption | (intro _)
    | (extract_lets +onlyGivenNames x; have hx : Changes [.hw, .pr, .wd, .pm] s x; (on_goal 1 => unfold x; clear x); on_goal 2 => clear_value x)
    | (extract_lets +onlyGivenNames x; have : x = x := by (unfold x; rfl)
       clear this; clear_value x)
    | with_reducible apply storeDevice_ch | with_reducible apply onPr_ch | with_reducible apply onPm_ch | rfl

theorem pmuDue_ch (H : Changes q z s) (hq : within [.hw, .pr, .wd, .pm] q = true) :
    Changes q z (State.pmuDue s) := by
  refine H.op hq ?_
  have H := Changes.refl [.hw, .pr, .wd, .pm] s
  unfold State.pmuDue
  repeat' first
    | with_reducible assumption | (intro _)
    | (extract_lets +onlyGivenNames x; have : x = x := by (unfold x; rfl)
       clear this; clear_value x)
    | with_reducible apply ch_foldl | with_reducible apply ch_foldl_fst | with_reducible apply pmuApply_ch
    | with_reducible apply onPm_ch | rfl

theorem pmuTake_ch (H : Changes q z s) (hq : within [.hw, .pr, .wd, .pm] q = true) :
    Changes q z (State.pmuTake s) := by
  refine H.op hq ?_
  have H := Changes.refl [.hw, .pr, .wd, .pm] s
  unfold State.pmuTake
  repeat' first
    | with_reducible assumption | (intro _) | with_reducible apply ch_foldl | with_reducible apply ch_foldl_fst
    | with_reducible apply pmuApply_ch | with_reducible apply onPm_ch | rfl

theorem pmuStart_ch (H : Changes q z s) (hq : within [.hw, .pr, .wd, .pm] q = true) :
    Changes q z (State.pmuStart s) := by
  refine H.op hq ?_
  have H := Changes.refl [.hw, .pr, .wd, .pm] s
  unfold State.pmuStart
  repeat' first
    | with_reducible assumption | (intro _)
    | (extract_lets +onlyGivenNames x; have hx : Changes [.hw, .pr, .wd, .pm] s x; (on_goal 1 => unfold x; clear x); on_goal 2 => clear_value x)
    | with_reducible apply pmuTake_ch | with_reducible apply onPm_ch | rfl
    | with_reducible refine ch_ite (fun _ => ?_) fun _ => ?_

theorem pmuStop_ch (H : Changes q z s) (hq : within [.pm] q = true) :
    Changes q z (State.pmuStop s) := by
  refine H.op hq ?_
  have H := Changes.refl [.pm] s
  unfold State.pmuStop
  repeat' first
    | with_reducible assumption | (intro _) | with_reducible apply pmuMissed_ch | with_reducible apply onPm_ch | rfl

theorem powerStart_ch {ext33 : Bool} {testEn : Bool} (H : Changes q z s) (hq : within [.pw] q = true) :
    Changes q z (State.powerStart s ext33 testEn) := by
  refine H.op hq ?_
  have H := Changes.refl [.pw] s
  unfold State.powerStart
  repeat' first
    | with_reducible assumption | (intro _) | with_reducible apply onPw_ch | rfl

theorem ppsOffset_ch {t : ℤ} (H : Changes q z s) (hq : within [.pw, .te, .rtc, .hw, .pr, .lk, .wd, .seqs, .qu, .me, .pq, .pm,
    .free] q = true) :
    Changes q z (State.ppsOffset s t) := by
  refine H.op hq ?_
  have H := Changes.refl [.pw, .te, .rtc, .hw, .pr, .lk, .wd, .seqs, .qu, .me, .pq, .pm, .free] s
  unfold State.ppsOffset
  repeat' first
    | with_reducible assumption | (intro _)
    | (extract_lets +onlyGivenNames x; have hx : Changes [.pw, .te, .rtc, .hw, .pr, .lk, .wd, .seqs, .qu, .me, .pq, .pm, .free] s x; (on_goal 1 => unfold x; clear x); on_goal 2 => clear_value x)
    | (extract_lets +onlyGivenNames x; have : x = x := by (unfold x; rfl)
       clear this; clear_value x)
    | with_reducible apply takeScheduled_ch | with_reducible apply offset_ch | with_reducible apply onTe_ch | rfl
    | with_reducible refine ch_ite (fun _ => ?_) fun _ => ?_

theorem pqFrame_ch (H : Changes q z s) (hq : within [.pr, .pq] q = true) :
    Changes q z (State.pqFrame s) := by
  refine H.op hq ?_
  have H := Changes.refl [.pr, .pq] s
  unfold State.pqFrame
  repeat' first
    | with_reducible assumption | (intro _) | with_reducible apply ch_foldl | with_reducible apply ch_foldl_fst
    | with_reducible apply under_ch | with_reducible apply busSample_ch | with_reducible refine ch_fst (by assumption) ?_ | rfl
    | with_reducible refine ch_ite (fun _ => ?_) fun _ => ?_ | split

theorem pqReload_ch (H : Changes q z s) (hq : within [.pr, .pq] q = true) :
    Changes q z (State.pqReload s) := by
  refine H.op hq ?_
  have H := Changes.refl [.pr, .pq] s
  unfold State.pqReload
  repeat' first
    | with_reducible assumption | (intro _) | with_reducible apply pqFresh_ch | with_reducible apply pqBegin_ch
    | with_reducible apply dropPending_ch | with_reducible apply onPq_ch | rfl

theorem probeBegin_ch {k : ℕ} {c : Check} {rest : List Check} (H : Changes q z s) (hq : within [.stands] q = true) :
    Changes q z (State.probeBegin s k c rest) := by
  refine H.op hq ?_
  have H := Changes.refl [.stands] s
  unfold State.probeBegin
  repeat' first
    | with_reducible assumption | (intro _) | with_reducible apply onStand_ch | rfl

theorem ptpOffset_ch {rx : ℕ} {origin : ℕ} {corr : ℤ} {delay : ℕ} (H : Changes q z s) (hq : within [.pw, .te, .rtc, .hw, .pr,
    .lk, .wd, .seqs, .qu, .me, .pq, .pm, .free] q = true) :
    Changes q z (State.ptpOffset s rx origin corr delay) := by
  refine H.op hq ?_
  have H := Changes.refl [.pw, .te, .rtc, .hw, .pr, .lk, .wd, .seqs, .qu, .me, .pq, .pm, .free] s
  unfold State.ptpOffset
  repeat' first
    | with_reducible assumption | with_reducible apply offset_ch | rfl

theorem pushSnap_ch {t : ℕ} {outs : List ChanOut} (H : Changes q z s) (hq : within [.hist, .qu] q = true) :
    Changes q z (State.pushSnap s t outs) := by
  refine H.op hq ?_
  have H := Changes.refl [.hist, .qu] s
  unfold State.pushSnap
  repeat' first
    | with_reducible assumption
    | (extract_lets +onlyGivenNames x; have : x = x := by (unfold x; rfl)
       clear this; clear_value x)
    | (refine Changes.op (a := [.hist, .qu]) H (by rfl) ⟨?_⟩; intro p hp; cases p <;> first | exact absurd (by decide) hp | rfl)

theorem pushWave_ch {t : ℕ} {outs : List ChanOut} {fv : List Val} (H : Changes q z s) (hq : within [.wave] q = true) :
    Changes q z (State.pushWave s t outs fv) := by
  refine H.op hq ?_
  have H := Changes.refl [.wave] s
  unfold State.pushWave
  repeat' first
    | with_reducible assumption | (intro _)
    | (extract_lets +onlyGivenNames x; have : x = x := by (unfold x; rfl)
       clear this; clear_value x)
    | (refine Changes.op (a := [.wave]) H (by rfl) ⟨?_⟩; intro p hp; cases p <;> first | exact absurd (by decide) hp | rfl)
    | rfl | with_reducible refine ch_ite (fun _ => ?_) fun _ => ?_

theorem takeRecord_ch {part : ℕ} {mark : ℕ} {e : ℕ × ℕ} (H : Changes q z s) (hq : within [.hw, .wd] q = true) :
    Changes q z (State.takeRecord s part mark e) := by
  refine H.op hq ?_
  have H := Changes.refl [.hw, .wd] s
  unfold State.takeRecord
  repeat' first
    | with_reducible assumption
    | (extract_lets +onlyGivenNames x; have hx : Changes [.hw, .wd] s x; (on_goal 1 => unfold x; clear x); on_goal 2 => clear_value x)
    | with_reducible apply fixRecord_ch | with_reducible apply pageWrite_ch | with_reducible refine ch_fst (by assumption) ?_
    | rfl | with_reducible refine ch_ite (fun _ => ?_) fun _ => ?_ | split

theorem readSets_ch (H : Changes q z s) (hq : within [.hw, .wd] q = true) : Changes q z s.readSets := by
  unfold State.readSets
  extract_lets r
  have hr : Changes q z r.1 := by
    refine ch_foldl_fst (fun a pair h => ?_) H
    obtain ⟨x, skip, l⟩ := a
    dsimp only
    split
    · exact h
    · split
      · exact h
      · have h1 := fixRecord_ch (part := 2) (e := setRec pair) h (wt hq)
        generalize x.fixRecord 2 (setRec pair) = s1 at h1 ⊢
        have h2 : Changes q z (if ((setRecs s1 pair).length == 1) = true then s1 else s1.fixItem 2 (setRecs s1 pair)) :=
          ch_ite (fun _ => h1) fun _ => fixItem_ch h1 (wt hq)
        split <;> exact h2
  clear_value r
  exact onHw_ch hr (wt hq)

theorem takeDevice_ch (H : Changes q z s) (hq : within [.te, .rtc, .ref, .stands, .pm] q = true) :
    Changes q z (State.takeDevice s) := by
  refine H.op hq ?_
  have H := Changes.refl [.te, .rtc, .ref, .stands, .pm] s
  unfold State.takeDevice
  repeat' first
    | with_reducible assumption | (intro _)
    | (extract_lets +onlyGivenNames x; have hx : Changes [.te, .rtc, .ref, .stands, .pm] s x; (on_goal 1 => unfold x; clear x); on_goal 2 => clear_value x)
    | with_reducible apply onRtc_ch | with_reducible apply onPm_ch | with_reducible apply onTe_ch
    | with_reducible apply onRef_ch
    | (refine Changes.op (a := [.stands]) H (by rfl) ⟨?_⟩; intro p hp; cases p <;> first | exact absurd (by decide) hp | rfl)
    | with_reducible refine ch_fst (by assumption) ?_ | rfl | with_reducible refine ch_ite (fun _ => ?_) fun _ => ?_ | split

theorem readP0_ch (H : Changes q z s) (hq : within [.te, .rtc, .hw, .se, .pr, .tp, .wd, .ref, .stands, .pm] q = true) :
    Changes q z (State.readP0 s) := by
  refine H.op hq ?_
  have H := Changes.refl [.te, .rtc, .hw, .se, .pr, .tp, .wd, .ref, .stands, .pm] s
  unfold State.readP0
  repeat' first
    | with_reducible assumption | (intro _)
    | (extract_lets +onlyGivenNames x; have hx : Changes [.te, .rtc, .hw, .se, .pr, .tp, .wd, .ref, .stands, .pm] s x; (on_goal 1 => unfold x; clear x); on_goal 2 => clear_value x)
    | (extract_lets +onlyGivenNames x; have : x = x := by (unfold x; rfl)
       clear this; clear_value x)
    | with_reducible apply ch_foldl | with_reducible apply ch_foldl_fst | with_reducible apply fixRecord_ch
    | with_reducible apply takeRecord_ch | with_reducible apply fixItem_ch | with_reducible apply readSets_ch
    | with_reducible apply takeDevice_ch | with_reducible apply onPr_ch | with_reducible apply onTp_ch
    | with_reducible apply onSe_ch | rfl

theorem takeSync_ch {f : Heard} {m : List Byte} (H : Changes q z s) (hq : within [.pw, .te, .rtc, .hw, .pr, .lk, .wd, .nt,
    .seqs, .qu, .me, .pq, .pm, .free] q = true) :
    Changes q z (State.takeSync s f m) := by
  refine H.op hq ?_
  have H := Changes.refl [.pw, .te, .rtc, .hw, .pr, .lk, .wd, .nt, .seqs, .qu, .me, .pq, .pm, .free] s
  unfold State.takeSync
  repeat' first
    | with_reducible assumption | (intro _)
    | (extract_lets +onlyGivenNames x; have hx : Changes [.pw, .te, .rtc, .hw, .pr, .lk, .wd, .nt, .seqs, .qu, .me, .pq, .pm, .free] s x; (on_goal 1 => unfold x; clear x); on_goal 2 => clear_value x)
    | (extract_lets +onlyGivenNames x; have : x = x := by (unfold x; rfl)
       clear this; clear_value x)
    | with_reducible apply forwardPtp_ch | with_reducible apply onPort_ch | with_reducible apply ptpOffset_ch
    | with_reducible apply drew_ch | with_reducible refine ch_fst (by assumption) ?_ | rfl
    | with_reducible refine ch_ite (fun _ => ?_) fun _ => ?_ | split

theorem takeResponse_ch {f : Heard} {m : List Byte} (H : Changes q z s) (hq : within [.te, .nt, .free] q = true) :
    Changes q z (State.takeResponse s f m) := by
  refine H.op hq ?_
  have H := Changes.refl [.te, .nt, .free] s
  unfold State.takeResponse
  repeat' first
    | with_reducible assumption | (intro _)
    | (extract_lets +onlyGivenNames x; have : x = x := by (unfold x; rfl)
       clear this; clear_value x)
    | with_reducible apply onPort_ch | with_reducible apply peerResult_ch | with_reducible refine ch_fst (by assumption) ?_
    | rfl | with_reducible refine ch_ite (fun _ => ?_) fun _ => ?_ | split

theorem takeFollowUp_ch {f : Heard} {m : List Byte} (H : Changes q z s) (hq : within [.pw, .te, .rtc, .hw, .pr, .lk, .wd, .nt,
    .seqs, .qu, .me, .pq, .pm, .free] q = true) :
    Changes q z (State.takeFollowUp s f m) := by
  refine H.op hq ?_
  have H := Changes.refl [.pw, .te, .rtc, .hw, .pr, .lk, .wd, .nt, .seqs, .qu, .me, .pq, .pm, .free] s
  unfold State.takeFollowUp
  repeat' first
    | with_reducible assumption | (intro _)
    | (extract_lets +onlyGivenNames x; have hx : Changes [.pw, .te, .rtc, .hw, .pr, .lk, .wd, .nt, .seqs, .qu, .me, .pq, .pm, .free] s x; (on_goal 1 => unfold x; clear x); on_goal 2 => clear_value x)
    | with_reducible apply forwardPtp_ch | with_reducible apply onPort_ch | with_reducible apply ptpOffset_ch
    | with_reducible apply drew_ch | with_reducible refine ch_fst (by assumption) ?_ | rfl
    | with_reducible refine ch_ite (fun _ => ?_) fun _ => ?_ | split

theorem takeAnnounce_ch {f : Heard} {m : List Byte} (H : Changes q z s) (hq : within [.te, .rtc, .hw, .pr, .wd, .nt] q = true) :
    Changes q z (State.takeAnnounce s f m) := by
  refine H.op hq ?_
  have H := Changes.refl [.te, .rtc, .hw, .pr, .wd, .nt] s
  unfold State.takeAnnounce
  repeat' first
    | with_reducible assumption | (intro _)
    | (extract_lets +onlyGivenNames x; have hx : Changes [.te, .rtc, .hw, .pr, .wd, .nt] s x; (on_goal 1 => unfold x; clear x); on_goal 2 => clear_value x)
    | with_reducible apply forwardPtp_ch | with_reducible apply chooseMaster_ch | with_reducible apply masterAnnounce_ch | rfl
    | with_reducible refine ch_ite (fun _ => ?_) fun _ => ?_

theorem takePtp_ch {f : Heard} {m : List Byte} (H : Changes q z s) (hq : within [.pw, .te, .rtc, .hw, .pr, .lk, .wd, .nt,
    .seqs, .qu, .me, .pq, .pm, .free] q = true) :
    Changes q z (State.takePtp s f m) := by
  refine H.op hq ?_
  have H := Changes.refl [.pw, .te, .rtc, .hw, .pr, .lk, .wd, .nt, .seqs, .qu, .me, .pq, .pm, .free] s
  unfold State.takePtp
  repeat' first
    | with_reducible assumption | with_reducible apply takeSync_ch | with_reducible apply answerPeer_ch
    | with_reducible apply takeResponse_ch | with_reducible apply takeFollowUp_ch | with_reducible apply takeAnnounce_ch
    | with_reducible refine ch_fst (by assumption) ?_ | rfl | split

theorem switchFrame_ch {f : Heard} (H : Changes q z s) (hq : within [.pw, .te, .rtc, .hw, .pr, .lk, .wd, .nt, .seqs, .qu, .me,
    .pq, .pm, .free] q = true) :
    Changes q z (State.switchFrame s f) := by
  refine H.op hq ?_
  have H := Changes.refl [.pw, .te, .rtc, .hw, .pr, .lk, .wd, .nt, .seqs, .qu, .me, .pq, .pm, .free] s
  unfold State.switchFrame
  repeat' first
    | with_reducible assumption | (intro _) | with_reducible apply takePtp_ch | with_reducible apply hostHold_ch
    | with_reducible apply onPort_ch | with_reducible apply hsrTagged_ch | with_reducible apply bridge_ch
    | with_reducible apply toMac_ch | with_reducible refine ch_fst (by assumption) ?_ | rfl
    | with_reducible refine ch_ite (fun _ => ?_) fun _ => ?_ | split

theorem receive_ch {port : Fin 2} {frame : FrameIn} (H : Changes q z s) (hq : within [.pw, .te, .rtc, .hw, .pr, .lk, .wd, .nt,
    .seqs, .qu, .me, .pq, .pm, .free] q = true) :
    Changes q z (State.receive s port frame) := by
  refine H.op hq ?_
  have H := Changes.refl [.pw, .te, .rtc, .hw, .pr, .lk, .wd, .nt, .seqs, .qu, .me, .pq, .pm, .free] s
  unfold State.receive
  repeat' first
    | with_reducible assumption | (intro _)
    | (extract_lets +onlyGivenNames x; have hx : Changes [.pw, .te, .rtc, .hw, .pr, .lk, .wd, .nt, .seqs, .qu, .me, .pq, .pm, .free] s x; (on_goal 1 => unfold x; clear x); on_goal 2 => clear_value x)
    | with_reducible apply onPort_ch | with_reducible apply switchFrame_ch | rfl
    | with_reducible refine ch_ite (fun _ => ?_) fun _ => ?_

theorem refDisagree_ch {up : Bool} (H : Changes q z s) (hq : within [.se, .lk, .tp, .wd, .hm, .ref, .me, .free] q = true) :
    Changes q z (State.refDisagree s up) := by
  refine H.op hq ?_
  have H := Changes.refl [.se, .lk, .tp, .wd, .hm, .ref, .me, .free] s
  unfold State.refDisagree
  repeat' first
    | with_reducible assumption | (intro _) | with_reducible apply tamperCond_ch | with_reducible apply log_ch
    | with_reducible apply onRef_ch | rfl | with_reducible refine ch_ite (fun _ => ?_) fun _ => ?_

theorem reloadPass_ch (H : Changes q z s) (hq : within [.pw, .wd] q = true) :
    Changes q z (State.reloadPass s) := by
  refine H.op hq ?_
  have H := Changes.refl [.pw, .wd] s
  unfold State.reloadPass
  repeat' first
    | with_reducible assumption | (intro _)
    | (extract_lets +onlyGivenNames x; have hx : Changes [.pw, .wd] s x; (on_goal 1 => unfold x; clear x); on_goal 2 => clear_value x)
    | with_reducible apply log_ch | with_reducible apply onPw_ch | with_reducible apply onWd_ch | rfl
    | with_reducible refine ch_ite (fun _ => ?_) fun _ => ?_

theorem repairRecord_ch (H : Changes q z s) (hq : within [.hw, .wd] q = true) :
    Changes q z (State.repairRecord s) := by
  refine H.op hq ?_
  have H := Changes.refl [.hw, .wd] s
  unfold State.repairRecord
  repeat' first
    | with_reducible assumption | (intro _)
    | (extract_lets +onlyGivenNames x; have hx : Changes [.hw, .wd] s x; (on_goal 1 => unfold x; clear x); on_goal 2 => clear_value x)
    | with_reducible apply sense_ch | with_reducible apply log_ch | with_reducible apply onHw_ch | with_reducible apply wr_ch
    | with_reducible refine ch_fst (by assumption) ?_ | rfl | with_reducible refine ch_ite (fun _ => ?_) fun _ => ?_ | split

theorem replacedLog_ch {c : ℕ} (H : Changes q z s) (hq : within [.wd] q = true) :
    Changes q z (State.replacedLog s c) := by
  refine H.op hq ?_
  have H := Changes.refl [.wd] s
  unfold State.replacedLog
  repeat' first
    | with_reducible assumption
    | (extract_lets +onlyGivenNames x; have : x = x := by (unfold x; rfl)
       clear this; clear_value x)
    | with_reducible apply log_ch | rfl | with_reducible refine ch_ite (fun _ => ?_) fun _ => ?_

theorem replied_ch {op : Op} {h : Hdr} {st : Status} {bytes : List Byte} (H : Changes q z s) (hq : within [.lk, .tp, .nt, .hm]
    q = true) :
    Changes q z (State.replied s op h st bytes) := by
  refine H.op hq ?_
  have H := Changes.refl [.lk, .tp, .nt, .hm] s
  unfold State.replied
  repeat' first
    | with_reducible assumption | with_reducible apply answer_ch | rfl

theorem viewOf_ch {k : ℕ} (H : Changes q z s) (hq : within [.pr, .pm] q = true) :
    Changes q z (viewOf s k) := by
  refine H.op hq ?_
  have H := Changes.refl [.pr, .pm] s
  unfold viewOf
  repeat' first
    | with_reducible assumption | (intro _) | with_reducible apply onPm_ch | with_reducible apply onPr_ch
    | with_reducible refine ch_fst (by assumption) ?_ | rfl | split

theorem takeReport_ch {rep : ReportIn} (H : Changes q z s) (hq : within [.lk, .nt, .qu, .pm, .free] q = true) :
    Changes q z (State.takeReport s rep) := by
  refine H.op hq ?_
  have H := Changes.refl [.lk, .nt, .qu, .pm, .free] s
  unfold State.takeReport
  repeat' first
    | with_reducible assumption | (intro _)
    | (extract_lets +onlyGivenNames x; have hx : Changes [.lk, .nt, .qu, .pm, .free] s x; (on_goal 1 => unfold x; clear x); on_goal 2 => clear_value x)
    | (extract_lets +onlyGivenNames x; have : x = x := by (unfold x; rfl)
       clear this; clear_value x)
    | with_reducible apply pmuMissed_ch | with_reducible apply phasorRecords_ch | with_reducible apply sendFrame_ch
    | with_reducible apply onPm_ch | with_reducible apply drew_ch | rfl
    | with_reducible refine ch_ite (fun _ => ?_) fun _ => ?_

theorem reportAt_ch {x : Wave} {t : ℕ} (H : Changes q z s) (hq : within [.pr, .lk, .nt, .qu, .pm, .free] q = true) :
    Changes q z (State.reportAt s x t) := by
  refine H.op hq ?_
  have H := Changes.refl [.pr, .lk, .nt, .qu, .pm, .free] s
  unfold State.reportAt
  repeat' first
    | with_reducible assumption | (intro _)
    | (extract_lets +onlyGivenNames x; have hx : Changes [.pr, .lk, .nt, .qu, .pm, .free] s x; (on_goal 1 => unfold x; clear x); on_goal 2 => clear_value x)
    | with_reducible apply viewOf_ch | with_reducible apply under_ch | with_reducible apply takeReport_ch | rfl

theorem requalHome_ch {k : ℕ} {v : ℕ} (H : Changes q z s) (hq : within [.hw, .chans, .convs, .stands, .insts] q = true) :
    Changes q z (State.requalHome s k v) := by
  refine H.op hq ?_
  have H := Changes.refl [.hw, .chans, .convs, .stands, .insts] s
  unfold State.requalHome
  repeat' first
    | with_reducible assumption | (intro _)
    | (extract_lets +onlyGivenNames x; have hx : Changes [.hw, .chans, .convs, .stands, .insts] s x; (on_goal 1 => unfold x; clear x); on_goal 2 => clear_value x)
    | (extract_lets +onlyGivenNames x; have : x = x := by (unfold x; rfl)
       clear this; clear_value x)
    | with_reducible apply unsettle_ch | with_reducible apply pioUpdate_ch | with_reducible apply shadowFor_ch
    | with_reducible apply onStand_ch | with_reducible apply onChan_ch | rfl
    | with_reducible refine ch_ite (fun _ => ?_) fun _ => ?_

theorem requalSpare_ch {k : ℕ} (H : Changes q z s) (hq : within [.hw, .wd, .chans, .convs, .stands, .filts, .insts] q = true) :
    Changes q z (State.requalSpare s k) := by
  refine H.op hq ?_
  have H := Changes.refl [.hw, .wd, .chans, .convs, .stands, .filts, .insts] s
  unfold State.requalSpare
  repeat' first
    | with_reducible assumption | (intro _)
    | (extract_lets +onlyGivenNames x; have : x = x := by (unfold x; rfl)
       clear this; clear_value x)
    | with_reducible apply shadowFor_ch | with_reducible apply rescue_ch | with_reducible apply onStand_ch | rfl
    | with_reducible refine ch_ite (fun _ => ?_) fun _ => ?_

theorem restBegin_ch {k : ℕ} {v : ℕ} (H : Changes q z s) (hq : within [.convs, .stands] q = true) :
    Changes q z (State.restBegin s k v) := by
  refine H.op hq ?_
  have H := Changes.refl [.convs, .stands] s
  unfold State.restBegin
  repeat' first
    | with_reducible assumption | (intro _) | with_reducible apply unsettle_ch | with_reducible apply onStand_ch | rfl

theorem restCount_ch {k : ℕ} {v : ℕ} {r : Rest} (H : Changes q z s) (hq : within [.convs, .stands, .free] q = true) :
    Changes q z (State.restCount s k v r) := by
  refine H.op hq ?_
  have H := Changes.refl [.convs, .stands, .free] s
  unfold State.restCount
  repeat' first
    | with_reducible assumption | (intro _)
    | (extract_lets +onlyGivenNames x; have hx : Changes [.convs, .stands, .free] s x; (on_goal 1 => unfold x; clear x); on_goal 2 => clear_value x)
    | with_reducible apply onConv_ch | with_reducible apply drew_ch | with_reducible apply onStand_ch
    | with_reducible refine ch_fst (by assumption) ?_ | rfl | split

theorem restStep_ch {k : ℕ} {raw : ℤ} {settled : Bool} (H : Changes q z s) (hq : within [.stands] q = true) :
    Changes q z (State.restStep s k raw settled) := by
  refine H.op hq ?_
  have H := Changes.refl [.stands] s
  unfold State.restStep
  repeat' first
    | with_reducible assumption | (intro _)
    | (extract_lets +onlyGivenNames x; have : x = x := by (unfold x; rfl)
       clear this; clear_value x)
    | with_reducible apply onStand_ch | rfl

theorem restoreKeys_ch {ok : Bool} (H : Changes q z s) (hq : within [.tp] q = true) :
    Changes q z (State.restoreKeys s ok) := by
  refine H.op hq ?_
  have H := Changes.refl [.tp] s
  unfold State.restoreKeys
  repeat' first
    | with_reducible assumption | (intro _) | with_reducible apply onTp_ch | rfl
    | with_reducible refine ch_ite (fun _ => ?_) fun _ => ?_

theorem resumeScroll_ch (H : Changes q z s) (hq : within [.hm] q = true) :
    Changes q z (State.resumeScroll s) := by
  refine H.op hq ?_
  have H := Changes.refl [.hm] s
  unfold State.resumeScroll
  repeat' first
    | with_reducible assumption | (intro _) | with_reducible apply onHm_ch | rfl

theorem wardenStop_ch {cause : ℕ} (H : Changes q z s) (hq : within [.rtc, .se, .pr, .lk, .tp, .wd, .up, .tx, .hm] q = true) :
    Changes q z (State.wardenStop s cause) := by
  refine H.op hq ?_
  have H := Changes.refl [.rtc, .se, .pr, .lk, .tp, .wd, .up, .tx, .hm] s
  unfold State.wardenStop
  repeat' first
    | with_reducible assumption | (intro _)
    | (extract_lets +onlyGivenNames x; have hx : Changes [.rtc, .se, .pr, .lk, .tp, .wd, .up, .tx, .hm] s x; (on_goal 1 => unfold x; clear x); on_goal 2 => clear_value x)
    | with_reducible apply dropSessions_ch | with_reducible apply abandonUpdate_ch | with_reducible apply stopFollowing_ch
    | with_reducible apply dropPending_ch | with_reducible apply onWd_ch | with_reducible apply onTp_ch
    | with_reducible apply onTx_ch | with_reducible apply onPr_ch | with_reducible apply onLk_ch | rfl

theorem switchKind_ch {k : ℕ} {cause : ℕ} {wardenCause : ℕ} (H : Changes q z s) (hq : within [.pw, .te, .rtc, .hw, .se, .pr,
    .lk, .tp, .wd, .up, .tx, .nt, .hm, .pq, .pm, .free] q = true) :
    Changes q z (State.switchKind s k cause wardenCause) := by
  refine H.op hq ?_
  have H := Changes.refl [.pw, .te, .rtc, .hw, .se, .pr, .lk, .tp, .wd, .up, .tx, .nt, .hm, .pq, .pm, .free] s
  unfold State.switchKind
  repeat' first
    | with_reducible assumption
    | (extract_lets +onlyGivenNames x; have hx : Changes [.pw, .te, .rtc, .hw, .se, .pr, .lk, .tp, .wd, .up, .tx, .nt, .hm, .pq, .pm, .free] s x; (on_goal 1 => unfold x; clear x); on_goal 2 => clear_value x)
    | with_reducible apply runRegion_ch | with_reducible apply canopyStop_ch | with_reducible apply wardenStop_ch
    | with_reducible apply pqReload_ch | with_reducible apply dropPending_ch | rfl
    | with_reducible refine ch_ite (fun _ => ?_) fun _ => ?_

theorem updLog_ch {code : ℕ} {hd : List Byte} {bank : ℕ} {cause : ℕ} (H : Changes q z s) (hq : within [.wd, .free] q = true) :
    Changes q z (State.updLog s code hd bank cause) := by
  refine H.op hq ?_
  have H := Changes.refl [.wd, .free] s
  unfold State.updLog
  repeat' first
    | with_reducible assumption
    | (extract_lets +onlyGivenNames x; have : x = x := by (unfold x; rfl)
       clear this; clear_value x)
    | with_reducible apply log_ch | with_reducible apply drew_ch | rfl

theorem revertTrial_ch {cause : ℕ} (H : Changes q z s) (hq : within [.pw, .te, .rtc, .hw, .se, .pr, .lk, .tp, .wd, .up, .tx,
    .nt, .hm, .pq, .pm, .free] q = true) :
    Changes q z (State.revertTrial s cause) := by
  refine H.op hq ?_
  have H := Changes.refl [.pw, .te, .rtc, .hw, .se, .pr, .lk, .tp, .wd, .up, .tx, .nt, .hm, .pq, .pm, .free] s
  unfold State.revertTrial
  repeat' first
    | with_reducible assumption
    | (extract_lets +onlyGivenNames x; have hx : Changes [.pw, .te, .rtc, .hw, .se, .pr, .lk, .tp, .wd, .up, .tx, .nt, .hm, .pq, .pm, .free] s x; (on_goal 1 => unfold x; clear x); on_goal 2 => clear_value x)
    | (extract_lets +onlyGivenNames x; have : x = x := by (unfold x; rfl)
       clear this; clear_value x)
    | with_reducible apply switchKind_ch | with_reducible apply updIdle_ch | with_reducible apply updLog_ch | rfl
    | with_reducible refine ch_ite (fun _ => ?_) fun _ => ?_

theorem revokeBelow_ch {kb : ℕ × ℕ} (H : Changes q z s) (hq : within [.wd, .up] q = true) :
    Changes q z (State.revokeBelow s kb) := by
  refine H.op hq ?_
  have H := Changes.refl [.wd, .up] s
  unfold State.revokeBelow
  repeat' first
    | with_reducible assumption | (intro _)
    | (extract_lets +onlyGivenNames x; have : x = x := by (unfold x; rfl)
       clear this; clear_value x)
    | with_reducible apply log_ch | with_reducible apply onRegion_ch | rfl
    | with_reducible refine ch_ite (fun _ => ?_) fun _ => ?_

theorem rewriteAll_ch (H : Changes q z s) (hq : within [.hw] q = true) :
    Changes q z (State.rewriteAll s) := by
  refine H.op hq ?_
  have H := Changes.refl [.hw] s
  unfold State.rewriteAll
  repeat' first
    | with_reducible assumption | (intro _) | with_reducible apply onHw_ch | rfl

theorem secFail_ch {p : Path} (H : Changes q z s) (hq : within [.se, .lk, .tp, .wd, .hm, .me, .free] q = true) :
    Changes q z (State.secFail s p) := by
  refine H.op hq ?_
  have H := Changes.refl [.se, .lk, .tp, .wd, .hm, .me, .free] s
  unfold State.secFail
  repeat' first
    | with_reducible assumption | (intro _)
    | (extract_lets +onlyGivenNames x; have hx : Changes [.se, .lk, .tp, .wd, .hm, .me, .free] s x; (on_goal 1 => unfold x; clear x); on_goal 2 => clear_value x)
    | (extract_lets +onlyGivenNames x; have : x = x := by (unfold x; rfl)
       clear this; clear_value x)
    | with_reducible apply tamperCond_ch | with_reducible apply onTp_ch | rfl
    | with_reducible refine ch_ite (fun _ => ?_) fun _ => ?_

theorem segmentTest_ch (H : Changes q z s) (hq : within [.hm] q = true) :
    Changes q z (State.segmentTest s) := by
  refine H.op hq ?_
  have H := Changes.refl [.hm] s
  unfold State.segmentTest
  repeat' first
    | with_reducible assumption | (intro _) | with_reducible apply onHm_ch | rfl

theorem sendCfg2_ch {dst : ℕ × ℕ} (H : Changes q z s) (hq : within [.nt] q = true) :
    Changes q z (State.sendCfg2 s dst) := by
  refine H.op hq ?_
  have H := Changes.refl [.nt] s
  unfold State.sendCfg2
  repeat' first
    | with_reducible assumption | with_reducible apply sendFrame_ch | rfl

theorem senseLog_ch {first : ℕ} {last : ℕ} (H : Changes q z s) (hq : within [.hw, .wd] q = true) :
    Changes q z (State.senseLog s first last) := by
  refine H.op hq ?_
  have H := Changes.refl [.hw, .wd] s
  unfold State.senseLog
  repeat' first
    | with_reducible assumption | (intro _) | with_reducible apply ch_foldl | with_reducible apply ch_foldl_fst
    | with_reducible apply sense_ch | rfl

theorem sensorLog_ch {sensor : ℕ} {value : ℕ} {outside : Bool} (H : Changes q z s) (hq : within [.wd] q = true) :
    Changes q z (State.sensorLog s sensor value outside) := by
  refine H.op hq ?_
  have H := Changes.refl [.wd] s
  unfold State.sensorLog
  repeat' first
    | with_reducible assumption
    | (extract_lets +onlyGivenNames x; have : x = x := by (unfold x; rfl)
       clear this; clear_value x)
    | with_reducible apply log_ch | rfl | with_reducible refine ch_ite (fun _ => ?_) fun _ => ?_

theorem seqEnd_ch {n : ℕ} (H : Changes q z s) (hq : within [.chans, .stands, .seqs, .units] q = true) :
    Changes q z (State.seqEnd s n) := by
  refine H.op hq ?_
  have H := Changes.refl [.chans, .stands, .seqs, .units] s
  unfold State.seqEnd
  repeat' first
    | with_reducible assumption | (intro _)
    | (extract_lets +onlyGivenNames x; have : x = x := by (unfold x; rfl)
       clear this; clear_value x)
    | with_reducible apply seqInstall_ch | with_reducible apply seqRun_ch | with_reducible apply seqIdle_ch
    | with_reducible apply onSeq_ch | with_reducible refine ch_fst (by assumption) ?_ | rfl | split

theorem seqChecked_ch {c : Check} (H : Changes q z s) (hq : within [.chans, .stands, .seqs, .units] q = true) :
    Changes q z (State.seqChecked s c) := by
  refine H.op hq ?_
  have H := Changes.refl [.chans, .stands, .seqs, .units] s
  unfold State.seqChecked
  repeat' first
    | with_reducible assumption | (intro _)
    | (extract_lets +onlyGivenNames x; have hx : Changes [.chans, .stands, .seqs, .units] s x; (on_goal 1 => unfold x; clear x); on_goal 2 => clear_value x)
    | (extract_lets +onlyGivenNames x; have : x = x := by (unfold x; rfl)
       clear this; clear_value x)
    | with_reducible apply ch_foldl | with_reducible apply ch_foldl_fst | with_reducible apply seqEnd_ch
    | with_reducible apply onSeq_ch | rfl | with_reducible refine ch_ite (fun _ => ?_) fun _ => ?_

theorem sessionFail_ch {part : ℕ} {p : Path} (H : Changes q z s) (hq : within [.se, .lk, .tp, .wd, .hm, .me, .free] q = true) :
    Changes q z (State.sessionFail s part p) := by
  refine H.op hq ?_
  have H := Changes.refl [.se, .lk, .tp, .wd, .hm, .me, .free] s
  unfold State.sessionFail
  repeat' first
    | with_reducible assumption | (intro _)
    | (extract_lets +onlyGivenNames x; have hx : Changes [.se, .lk, .tp, .wd, .hm, .me, .free] s x; (on_goal 1 => unfold x; clear x); on_goal 2 => clear_value x)
    | (extract_lets +onlyGivenNames x; have : x = x := by (unfold x; rfl)
       clear this; clear_value x)
    | with_reducible apply onLock_ch | with_reducible apply log_ch | with_reducible apply tamperCond_ch | rfl
    | with_reducible refine ch_ite (fun _ => ?_) fun _ => ?_

theorem sessionLocked_ch {part : ℕ} {p : Path} (H : Changes q z s) (hq : within [.se, .wd] q = true) :
    Changes q z (State.sessionLocked s part p) := by
  refine H.op hq ?_
  have H := Changes.refl [.se, .wd] s
  unfold State.sessionLocked
  repeat' first
    | with_reducible assumption | (intro _)
    | (extract_lets +onlyGivenNames x; have hx : Changes [.se, .wd] s x; (on_goal 1 => unfold x; clear x); on_goal 2 => clear_value x)
    | (extract_lets +onlyGivenNames x; have : x = x := by (unfold x; rfl)
       clear this; clear_value x)
    | with_reducible apply onLock_ch | with_reducible apply log_ch | rfl
    | with_reducible refine ch_ite (fun _ => ?_) fun _ => ?_

theorem sessionPass_ch {part : ℕ} (H : Changes q z s) (hq : within [.se, .tp, .wd] q = true) :
    Changes q z (State.sessionPass s part) := by
  refine H.op hq ?_
  have H := Changes.refl [.se, .tp, .wd] s
  unfold State.sessionPass
  repeat' first
    | with_reducible assumption | (intro _)
    | (extract_lets +onlyGivenNames x; have hx : Changes [.se, .tp, .wd] s x; (on_goal 1 => unfold x; clear x); on_goal 2 => clear_value x)
    | with_reducible apply onLock_ch | with_reducible apply tamperClear_ch | rfl
    | with_reducible refine ch_ite (fun _ => ?_) fun _ => ?_

theorem setBaseline_ch {ratio : ℕ} (H : Changes q z s) (hq : within [.hw, .wd, .ref] q = true) :
    Changes q z (State.setBaseline s ratio) := by
  refine H.op hq ?_
  have H := Changes.refl [.hw, .wd, .ref] s
  unfold State.setBaseline
  repeat' first
    | with_reducible assumption | (intro _)
    | (extract_lets +onlyGivenNames x; have hx : Changes [.hw, .wd, .ref] s x; (on_goal 1 => unfold x; clear x); on_goal 2 => clear_value x)
    | with_reducible apply storeBoot_ch | with_reducible apply storeDevice_ch | with_reducible apply onRef_ch | rfl
    | with_reducible refine ch_ite (fun _ => ?_) fun _ => ?_

theorem setPw_ch {part : ℕ} {kind : ℕ} {w : Pw} (H : Changes q z s) (hq : within [.hw, .se, .wd] q = true) :
    Changes q z (State.setPw s part kind w).1 := by
  refine Changes.op H hq ?_
  have H := Changes.refl [.hw, .se, .wd] s
  unfold State.setPw
  repeat' first
    | with_reducible assumption | (intro _)
    | (extract_lets +onlyGivenNames x; have hx : Changes [.hw, .se, .wd] s x.1; (on_goal 1 => unfold x; clear x); on_goal 2 => clear_value x)
    | with_reducible apply storePw_ch | with_reducible apply onSe_ch | rfl
    | with_reducible refine ch_ite (fun _ => ?_) fun _ => ?_ | split

theorem settled_ch (H : Changes q z s) (hq : within [.pw, .te, .rtc, .hw, .se, .pr, .lk, .tp, .wd, .nt, .hm, .me, .pm, .free] q
    = true) :
    Changes q z (State.settled s) := by
  refine H.op hq ?_
  have H := Changes.refl [.pw, .te, .rtc, .hw, .se, .pr, .lk, .tp, .wd, .nt, .hm, .me, .pm, .free] s
  unfold State.settled
  repeat' first
    | with_reducible assumption | with_reducible apply finishCommit_ch | with_reducible refine ch_fst (by assumption) ?_ | rfl
    | split

theorem spliceIn_ch {k : ℕ} {c : ℕ} {stored : Bool} (H : Changes q z s) (hq : within [.wd, .chans, .convs, .stands, .filts,
    .insts] q = true) :
    Changes q z (State.spliceIn s k c stored) := by
  refine H.op hq ?_
  have H := Changes.refl [.wd, .chans, .convs, .stands, .filts, .insts] s
  unfold State.spliceIn
  repeat' first
    | with_reducible assumption | (intro _)
    | (extract_lets +onlyGivenNames x; have hx : Changes [.wd, .chans, .convs, .stands, .filts, .insts] s x; (on_goal 1 => unfold x; clear x); on_goal 2 => clear_value x)
    | with_reducible apply splice_ch | with_reducible apply coppiceDone_ch | with_reducible apply restBegin_ch
    | with_reducible apply loadStart_ch | with_reducible apply onStand_ch | with_reducible refine ch_fst (by assumption) ?_
    | rfl | split

theorem osfClearAct_ch (H : Changes q z s) (hq : within [.rtc, .tp, .wd] q = true) :
    Changes q z (osfClearAct s).1 := by
  refine Changes.op H hq ?_
  have H := Changes.refl [.rtc, .tp, .wd] s
  unfold osfClearAct
  repeat' first
    | with_reducible assumption | with_reducible apply clearOsf_ch | rfl
    | with_reducible refine ch_ite (fun _ => ?_) fun _ => ?_ | split

theorem woAct_ch {id : ℕ} (H : Changes q z s) (hq : within [.rtc, .tp, .wd, .ref] q = true) :
    Changes q z (State.woAct s id) := by
  refine H.op hq ?_
  have H := Changes.refl [.rtc, .tp, .wd, .ref] s
  unfold State.woAct
  repeat' first
    | with_reducible assumption | (intro _) | with_reducible apply osfClearAct_ch | with_reducible apply alAck_ch
    | with_reducible apply onRef_ch | rfl | with_reducible refine ch_ite (fun _ => ?_) fun _ => ?_

theorem stageMember_ch {id : ℕ} {value : List Byte} (H : Changes q z s) (hq : within [.rtc, .pr, .tp, .wd, .ref] q = true) :
    Changes q z (State.stageMember s id value) := by
  refine H.op hq ?_
  have H := Changes.refl [.rtc, .pr, .tp, .wd, .ref] s
  unfold State.stageMember
  repeat' first
    | with_reducible assumption | (intro _) | with_reducible apply woAct_ch | with_reducible apply onPr_ch | rfl
    | with_reducible refine ch_ite (fun _ => ?_) fun _ => ?_

theorem txStamp_ch {host : Bool} {id : ℕ} {port : ℕ} {stepped : Bool} (H : Changes q z s) (hq : within [.te] q = true) :
    Changes q z (State.txStamp s host id port stepped) := by
  refine H.op hq ?_
  have H := Changes.refl [.te] s
  unfold State.txStamp
  repeat' first
    | with_reducible assumption | (intro _)
    | (extract_lets +onlyGivenNames x; have : x = x := by (unfold x; rfl)
       clear this; clear_value x)
    | with_reducible apply onTe_ch | rfl

theorem stampFrame_ch {k : ℕ} {f : OwnFrame} (H : Changes q z s) (hq : within [.te] q = true) :
    Changes q z (State.stampFrame s k f) := by
  refine H.op hq ?_
  have H := Changes.refl [.te] s
  unfold State.stampFrame
  repeat' first
    | with_reducible assumption | with_reducible apply txStamp_ch | with_reducible refine ch_fst (by assumption) ?_ | rfl
    | split

theorem standFrame_ch {k : ℕ} (H : Changes q z s) (hq : within [.stands] q = true) :
    Changes q z (State.standFrame s k) := by
  refine H.op hq ?_
  have H := Changes.refl [.stands] s
  unfold State.standFrame
  repeat' first
    | with_reducible assumption | (intro _)
    | (extract_lets +onlyGivenNames x; have hx : Changes [.stands] s x; (on_goal 1 => unfold x; clear x); on_goal 2 => clear_value x)
    | (extract_lets +onlyGivenNames x; have : x = x := by (unfold x; rfl)
       clear this; clear_value x)
    | with_reducible apply matchStep_ch | with_reducible apply restStep_ch | with_reducible apply onStand_ch
    | with_reducible refine ch_fst (by assumption) ?_ | rfl | with_reducible refine ch_ite (fun _ => ?_) fun _ => ?_ | split

theorem startFirst_ch {faults : List ℕ} (H : Changes q z s) (hq : within [.wd] q = true) :
    Changes q z (State.startFirst s faults) := by
  refine H.op hq ?_
  have H := Changes.refl [.wd] s
  unfold State.startFirst
  repeat' first
    | with_reducible assumption | (intro _)
    | (extract_lets +onlyGivenNames x; have : x = x := by (unfold x; rfl)
       clear this; clear_value x)
    | with_reducible apply onWd_ch | rfl

theorem startSwap_ch {c : ℕ} {prime : ℕ} {fade : ℕ} (H : Changes q z s) (hq : within [.filts, .insts] q = true) :
    Changes q z (State.startSwap s c prime fade) := by
  refine H.op hq ?_
  have H := Changes.refl [.filts, .insts] s
  unfold State.startSwap
  repeat' first
    | with_reducible assumption | (intro _)
    | (extract_lets +onlyGivenNames x; have : x = x := by (unfold x; rfl)
       clear this; clear_value x)
    | with_reducible apply onInsts_ch | with_reducible apply onFilt_ch | rfl

theorem startTrial_ch (H : Changes q z s) (hq : within [.pw, .te, .rtc, .hw, .se, .pr, .lk, .tp, .wd, .up, .tx, .nt, .hm, .pq,
    .pm, .free] q = true) :
    Changes q z (State.startTrial s) := by
  refine H.op hq ?_
  have H := Changes.refl [.pw, .te, .rtc, .hw, .se, .pr, .lk, .tp, .wd, .up, .tx, .nt, .hm, .pq, .pm, .free] s
  unfold State.startTrial
  repeat' first
    | with_reducible assumption | (intro _)
    | (extract_lets +onlyGivenNames x; have hx : Changes [.pw, .te, .rtc, .hw, .se, .pr, .lk, .tp, .wd, .up, .tx, .nt, .hm, .pq, .pm, .free] s x; (on_goal 1 => unfold x; clear x); on_goal 2 => clear_value x)
    | (extract_lets +onlyGivenNames x; have : x = x := by (unfold x; rfl)
       clear this; clear_value x)
    | with_reducible apply onRegion_ch | with_reducible apply updLog_ch | with_reducible apply switchKind_ch
    | with_reducible apply onUp_ch | with_reducible apply drew_ch | rfl

theorem storeLayout_ch {bs : List Byte} (H : Changes q z s) (hq : within [.hw, .wd] q = true) :
    Changes q z (State.storeLayout s bs).1 := by
  refine Changes.op H hq ?_
  have H := Changes.refl [.hw, .wd] s
  unfold State.storeLayout
  repeat' first
    | with_reducible assumption | with_reducible apply itemPut_ch | rfl

theorem supraClose_ch {e : ℕ × ℕ × ℕ × Bool} (H : Changes q z s) (hq : within [.pq] q = true) :
    Changes q z (State.supraClose s e) := by
  refine H.op hq ?_
  have H := Changes.refl [.pq] s
  unfold State.supraClose
  repeat' first
    | with_reducible assumption | (intro _) | with_reducible apply closeSupra_ch | with_reducible apply onPq_ch | rfl
    | with_reducible refine ch_ite (fun _ => ?_) fun _ => ?_

theorem supraFlush_ch (H : Changes q z s) (hq : within [.pq] q = true) :
    Changes q z (State.supraFlush s) := by
  refine H.op hq ?_
  have H := Changes.refl [.pq] s
  unfold State.supraFlush
  repeat' first
    | with_reducible assumption | (intro _) | with_reducible apply ch_foldl | with_reducible apply ch_foldl_fst
    | with_reducible apply closeSupra_ch | with_reducible apply onPq_ch | rfl

theorem takeSupra_ch {endT : ℕ} {c : ℕ} (H : Changes q z s) (hq : within [.pq] q = true) :
    Changes q z (State.takeSupra s endT c) := by
  refine H.op hq ?_
  have H := Changes.refl [.pq] s
  unfold State.takeSupra
  repeat' first
    | with_reducible assumption | (intro _)
    | (extract_lets +onlyGivenNames x; have : x = x := by (unfold x; rfl)
       clear this; clear_value x)
    | with_reducible apply onPq_ch | rfl | with_reducible refine ch_ite (fun _ => ?_) fun _ => ?_

theorem supraStep_ch {endT : ℕ} (H : Changes q z s) (hq : within [.pr, .pq, .free] q = true) :
    Changes q z (State.supraStep s endT) := by
  refine H.op hq ?_
  have H := Changes.refl [.pr, .pq, .free] s
  unfold State.supraStep
  repeat' first
    | with_reducible assumption | (intro _)
    | (extract_lets +onlyGivenNames x; have hx : Changes [.pr, .pq, .free] s x; (on_goal 1 => unfold x; clear x); on_goal 2 => clear_value x)
    | with_reducible apply ch_foldl | with_reducible apply ch_foldl_fst | with_reducible apply onBus_ch
    | with_reducible apply under_ch | with_reducible apply takeSupra_ch | with_reducible apply supraFlush_ch
    | with_reducible apply edgeReady_ch | with_reducible apply onPq_ch | rfl
    | with_reducible refine ch_ite (fun _ => ?_) fun _ => ?_

theorem takeAonLoss_ch (H : Changes q z s) (hq : within [.se, .lk, .tp, .wd, .hm, .me, .free] q = true) :
    Changes q z (State.takeAonLoss s) := by
  refine H.op hq ?_
  have H := Changes.refl [.se, .lk, .tp, .wd, .hm, .me, .free] s
  unfold State.takeAonLoss
  repeat' first
    | with_reducible assumption | (intro _)
    | (extract_lets +onlyGivenNames x; have hx : Changes [.se, .lk, .tp, .wd, .hm, .me, .free] s x; (on_goal 1 => unfold x; clear x); on_goal 2 => clear_value x)
    | (extract_lets +onlyGivenNames x; have : x = x := by (unfold x; rfl)
       clear this; clear_value x)
    | with_reducible apply tamperCond_ch | with_reducible apply onTp_ch | rfl
    | with_reducible refine ch_ite (fun _ => ?_) fun _ => ?_

theorem takeCommitted_ch (H : Changes q z s) (hq : within [.pw, .hw, .pr, .wd, .nt, .hm, .me, .pm] q = true) :
    Changes q z (State.takeCommitted s) := by
  refine H.op hq ?_
  have H := Changes.refl [.pw, .hw, .pr, .wd, .nt, .hm, .me, .pm] s
  unfold State.takeCommitted
  repeat' first
    | with_reducible assumption | (intro _)
    | (extract_lets +onlyGivenNames x; have hx : Changes [.pw, .hw, .pr, .wd, .nt, .hm, .me, .pm] s x; (on_goal 1 => unfold x; clear x); on_goal 2 => clear_value x)
    | with_reducible apply storeDevice_ch | with_reducible apply onNt_ch | with_reducible apply onPr_ch
    | with_reducible apply onPw_ch | with_reducible apply onPm_ch | with_reducible apply onHm_ch | with_reducible apply onMe_ch
    | rfl | with_reducible refine ch_ite (fun _ => ?_) fun _ => ?_

theorem takeFactory_ch (H : Changes q z s) (hq : within [.wd, .up] q = true) :
    Changes q z (State.takeFactory s) := by
  refine H.op hq ?_
  have H := Changes.refl [.wd, .up] s
  unfold State.takeFactory
  repeat' first
    | with_reducible assumption | (intro _)
    | (extract_lets +onlyGivenNames x; have hx : Changes [.wd, .up] s x; (on_goal 1 => unfold x; clear x); on_goal 2 => clear_value x)
    | with_reducible apply log_ch | with_reducible apply onUp_ch | rfl | with_reducible refine ch_ite (fun _ => ?_) fun _ => ?_

theorem takeMatch_ch {k : ℕ} {c : ℕ} {live : Bool} {m : Match} (H : Changes q z s) (hq : within [.chans, .stands, .free] q =
    true) :
    Changes q z (State.takeMatch s k c live m) := by
  refine H.op hq ?_
  have H := Changes.refl [.chans, .stands, .free] s
  unfold State.takeMatch
  repeat' first
    | with_reducible assumption | (intro _)
    | (extract_lets +onlyGivenNames x; have hx : Changes [.chans, .stands, .free] s x; (on_goal 1 => unfold x; clear x); on_goal 2 => clear_value x)
    | (extract_lets +onlyGivenNames x; have : x = x := by (unfold x; rfl)
       clear this; clear_value x)
    | with_reducible apply onChan_ch | with_reducible apply drew_ch | with_reducible apply onStand_ch
    | with_reducible refine ch_fst (by assumption) ?_ | rfl

theorem takeResponses_ch (H : Changes q z s) (hq : within [.se, .tp, .wd, .hm, .me] q = true) :
    Changes q z (State.takeResponses s) := by
  refine H.op hq ?_
  have H := Changes.refl [.se, .tp, .wd, .hm, .me] s
  unfold State.takeResponses
  repeat' first
    | with_reducible assumption | (intro _)
    | (extract_lets +onlyGivenNames x; have hx : Changes [.se, .tp, .wd, .hm, .me] s x; (on_goal 1 => unfold x; clear x); on_goal 2 => clear_value x)
    | with_reducible apply lockActions_ch | with_reducible apply onTp_ch | rfl
    | with_reducible refine ch_ite (fun _ => ?_) fun _ => ?_

theorem takeStored_ch (H : Changes q z s) (hq : within [.te, .rtc, .ref] q = true) :
    Changes q z (State.takeStored s) := by
  refine H.op hq ?_
  have H := Changes.refl [.te, .rtc, .ref] s
  unfold State.takeStored
  repeat' first
    | with_reducible assumption | (intro _)
    | (extract_lets +onlyGivenNames x; have hx : Changes [.te, .rtc, .ref] s x; (on_goal 1 => unfold x; clear x); on_goal 2 => clear_value x)
    | with_reducible apply ch_foldl | with_reducible apply ch_foldl_fst | with_reducible apply onAlarm_ch
    | with_reducible apply onRef_ch | with_reducible apply onRtc_ch | with_reducible apply onTe_ch | rfl

theorem takeVbat_ch (H : Changes q z s) (hq : within [.lk, .tp, .wd] q = true) :
    Changes q z (State.takeVbat s) := by
  refine H.op hq ?_
  have H := Changes.refl [.lk, .tp, .wd] s
  unfold State.takeVbat
  repeat' first
    | with_reducible assumption | (intro _)
    | (extract_lets +onlyGivenNames x; have hx : Changes [.lk, .tp, .wd] s x; (on_goal 1 => unfold x; clear x); on_goal 2 => clear_value x)
    | with_reducible apply ch_foldl | with_reducible apply ch_foldl_fst | with_reducible apply logAt_ch
    | with_reducible apply irq_ch | with_reducible apply onTp_ch | rfl | with_reducible refine ch_ite (fun _ => ?_) fun _ => ?_

theorem tdacEnd_ch (H : Changes q z s) (hq : within [.hm] q = true) :
    Changes q z (State.tdacEnd s) := by
  refine H.op hq ?_
  have H := Changes.refl [.hm] s
  unfold State.tdacEnd
  repeat' first
    | with_reducible assumption | (intro _) | with_reducible apply onHm_ch | rfl

theorem tenMinuteBus_ch {old : State} {st : ℕ} {restart : Bool} {b : ℕ} (H : Changes q z s) (hq : within [.pr, .pq, .free] q =
    true) :
    Changes q z (State.tenMinuteBus old st restart s b) := by
  refine H.op hq ?_
  have H := Changes.refl [.pr, .pq, .free] s
  unfold State.tenMinuteBus
  repeat' first
    | with_reducible assumption | (intro _)
    | (extract_lets +onlyGivenNames x; have hx : Changes [.pr, .pq, .free] s x; (on_goal 1 => unfold x; clear x); on_goal 2 => clear_value x)
    | (extract_lets +onlyGivenNames x; have : x = x := by (unfold x; rfl)
       clear this; clear_value x)
    | with_reducible apply onBus_ch | with_reducible apply edgeReady_ch | with_reducible refine ch_fst (by assumption) ?_ | rfl

theorem tenMinute_ch (H : Changes q z s) (hq : within [.pr, .pq, .free] q = true) :
    Changes q z (State.tenMinute s) := by
  refine H.op hq ?_
  have H := Changes.refl [.pr, .pq, .free] s
  unfold State.tenMinute
  repeat' first
    | with_reducible assumption | (intro _)
    | (extract_lets +onlyGivenNames x; have hx : Changes [.pr, .pq, .free] s x; (on_goal 1 => unfold x; clear x); on_goal 2 => clear_value x)
    | (extract_lets +onlyGivenNames x; have : x = x := by (unfold x; rfl)
       clear this; clear_value x)
    | with_reducible apply ch_foldl | with_reducible apply ch_foldl_fst | with_reducible apply takeScheduled_ch
    | with_reducible apply tenMinuteBus_ch | with_reducible apply supraClose_ch | with_reducible apply onPq_ch
    | with_reducible apply drew_ch | rfl | with_reducible refine ch_ite (fun _ => ?_) fun _ => ?_

theorem tick_ch (H : Changes q z s) (hq : within [.te, .rtc, .lk, .wd, .hm, .chans, .stands, .seqs, .units, .clk] q = true) :
    Changes q z (State.tick s) := by
  refine H.op hq ?_
  have H := Changes.refl [.te, .rtc, .lk, .wd, .hm, .chans, .stands, .seqs, .units, .clk] s
  unfold State.tick
  repeat' first
    | with_reducible assumption
    | (extract_lets +onlyGivenNames x; have hx : Changes [.te, .rtc, .lk, .wd, .hm, .chans, .stands, .seqs, .units, .clk] s x; (on_goal 1 => unfold x; clear x); on_goal 2 => clear_value x)
    | (extract_lets +onlyGivenNames x; have : x = x := by (unfold x; rfl)
       clear this; clear_value x)
    | with_reducible apply keyTick_ch | with_reducible apply followStep_ch
    | (refine Changes.op (a := [.te, .rtc, .clk]) H (by rfl) ⟨?_⟩; intro p hp; cases p <;> first | exact absurd (by decide) hp | rfl)
    | rfl

theorem tripped_ch (H : Changes q z s) (hq : within [.pw, .te, .rtc, .hw, .se, .pr, .lk, .tp, .wd, .up, .tx, .nt, .hm, .ref, .chans, .convs, .stands, .seqs, .filts, .insts, .hist, .wave, .qu, .units, .me, .pq, .pm] q = true) :
    Changes q z s.tripped :=
  H.op hq ⟨fun p hp => by cases p <;> first | exact absurd (by decide) hp | rfl⟩

theorem unforce_ch {o : ℕ} (H : Changes q z s) (hq : within [.hm] q = true) :
    Changes q z (State.unforce s o) := by
  refine H.op hq ?_
  have H := Changes.refl [.hm] s
  unfold State.unforce
  repeat' first
    | with_reducible assumption | (intro _) | with_reducible apply onHm_ch | rfl

theorem unpin_ch {k : ℕ} (H : Changes q z s) (hq : within [.chans, .stands] q = true) :
    Changes q z (State.unpin s k) := by
  refine H.op hq ?_
  have H := Changes.refl [.chans, .stands] s
  unfold State.unpin
  repeat' first
    | with_reducible assumption | (intro _)
    | (extract_lets +onlyGivenNames x; have : x = x := by (unfold x; rfl)
       clear this; clear_value x)
    | with_reducible apply splice_ch | with_reducible apply onStand_ch | rfl
    | with_reducible refine ch_ite (fun _ => ?_) fun _ => ?_

theorem verifyRefused_ch {st : Status} (H : Changes q z s) (hq : within [.se, .lk, .tp, .wd, .hm, .me, .free] q = true) :
    Changes q z (State.verifyRefused s st) := by
  refine H.op hq ?_
  have H := Changes.refl [.se, .lk, .tp, .wd, .hm, .me, .free] s
  unfold State.verifyRefused
  repeat' first
    | with_reducible assumption
    | (extract_lets +onlyGivenNames x; have hx : Changes [.se, .lk, .tp, .wd, .hm, .me, .free] s x; (on_goal 1 => unfold x; clear x); on_goal 2 => clear_value x)
    | with_reducible apply tamperPulse_ch | with_reducible apply updLog_ch | rfl
    | with_reducible refine ch_ite (fun _ => ?_) fun _ => ?_

theorem wardenEntry_ch {faults : List ℕ} (H : Changes q z s) (hq : within [.pw, .te, .rtc, .hw, .se, .pr, .lk, .tp, .wd, .up,
    .nt, .hm, .ref, .stands, .me, .pq, .pm, .free] q = true) :
    Changes q z (State.wardenEntry s faults) := by
  refine H.op hq ?_
  have H := Changes.refl [.pw, .te, .rtc, .hw, .se, .pr, .lk, .tp, .wd, .up, .nt, .hm, .ref, .stands, .me, .pq, .pm, .free] s
  unfold State.wardenEntry
  repeat' first
    | with_reducible assumption | (intro _)
    | (extract_lets +onlyGivenNames x; have hx : Changes [.pw, .te, .rtc, .hw, .se, .pr, .lk, .tp, .wd, .up, .nt, .hm, .ref, .stands, .me, .pq, .pm, .free] s x; (on_goal 1 => unfold x; clear x); on_goal 2 => clear_value x)
    | with_reducible apply ch_foldl | with_reducible apply ch_foldl_fst | with_reducible apply sense_ch
    | with_reducible apply logTorn_ch | with_reducible apply enterStage_ch | with_reducible apply startFirst_ch
    | with_reducible apply takeVbat_ch | with_reducible apply takeStored_ch | with_reducible apply takeCommitted_ch
    | with_reducible apply readP0_ch | with_reducible apply takeFactory_ch | with_reducible apply takeResponses_ch
    | with_reducible apply takeAonLoss_ch | with_reducible apply loadLedger_ch | with_reducible apply clearTorn_ch
    | with_reducible apply repairRecord_ch | with_reducible apply restoreKeys_ch | with_reducible apply resolvePend_ch
    | with_reducible apply log_ch | with_reducible apply consoleClaim_ch | with_reducible apply newChallenge_ch
    | with_reducible apply onWd_ch | with_reducible apply onRef_ch | with_reducible apply onPq_ch | rfl
    | with_reducible refine ch_ite (fun _ => ?_) fun _ => ?_

theorem watchdogLog_ch {watched : ℕ} (H : Changes q z s) (hq : within [.wd, .free] q = true) :
    Changes q z (State.watchdogLog s watched) := by
  refine H.op hq ?_
  have H := Changes.refl [.wd, .free] s
  unfold State.watchdogLog
  repeat' first
    | with_reducible assumption | with_reducible apply log_ch | with_reducible apply drew_ch | rfl

theorem withFetchWord_ch {nbits : ℕ} {w : ℕ} (H : Changes q z s) (hq : within [.pending] q = true) :
    Changes q z (State.withFetchWord s nbits w) := by
  refine H.op hq ?_
  have H := Changes.refl [.pending] s
  unfold State.withFetchWord
  repeat' first
    | with_reducible assumption
    | (refine Changes.op (a := [.pending]) H (by rfl) ⟨?_⟩; intro p hp; cases p <;> first | exact absurd (by decide) hp | rfl)

theorem writeEntry_ch {e : LogEntry} (H : Changes q z s) (hq : within [.hw, .wd] q = true) :
    Changes q z (State.writeEntry s e) := by
  refine H.op hq ?_
  have H := Changes.refl [.hw, .wd] s
  unfold State.writeEntry
  repeat' first
    | with_reducible assumption | (intro _)
    | (extract_lets +onlyGivenNames x; have : x = x := by (unfold x; rfl)
       clear this; clear_value x)
    | with_reducible apply onWd_ch | with_reducible apply wr_ch | rfl

theorem writeInstant_ch {d : StreamDue} (H : Changes q z s) (hq : within [.lk, .qu] q = true) :
    Changes q z (State.writeInstant s d) := by
  refine H.op hq ?_
  have H := Changes.refl [.lk, .qu] s
  unfold State.writeInstant
  repeat' first
    | with_reducible assumption | (intro _)
    | (extract_lets +onlyGivenNames x; have hx : Changes [.lk, .qu] s x; (on_goal 1 => unfold x; clear x); on_goal 2 => clear_value x)
    | (extract_lets +onlyGivenNames x; have : x = x := by (unfold x; rfl)
       clear this; clear_value x)
    | with_reducible apply ch_foldl | with_reducible apply ch_foldl_fst | with_reducible apply qGroup_ch | rfl
    | with_reducible refine ch_ite (fun _ => ?_) fun _ => ?_

theorem xcheckFail_ch {k : ℕ} {c : ℕ} {live : Bool} (H : Changes q z s) (hq : within [.hw, .wd, .chans, .convs, .stands,
    .filts, .insts] q = true) :
    Changes q z (State.xcheckFail s k c live) := by
  refine H.op hq ?_
  have H := Changes.refl [.hw, .wd, .chans, .convs, .stands, .filts, .insts] s
  unfold State.xcheckFail
  repeat' first
    | with_reducible assumption | (intro _)
    | (extract_lets +onlyGivenNames x; have hx : Changes [.hw, .wd, .chans, .convs, .stands, .filts, .insts] s x; (on_goal 1 => unfold x; clear x); on_goal 2 => clear_value x)
    | (extract_lets +onlyGivenNames x; have : x = x := by (unfold x; rfl)
       clear this; clear_value x)
    | with_reducible apply condemn_ch | with_reducible apply onStand_ch | with_reducible refine ch_fst (by assumption) ?_ | rfl

theorem loadSets_ch {l : List (Nat × List Byte)} (H : Changes q z s) (hq : within [.hw, .wd, .filts, .insts] q = true) :
    Changes q z (loadSets s l).1 := by
  induction l generalizing s with
  | nil => exact H
  | cons e r ih =>
    obtain ⟨c, bs⟩ := e
    unfold loadSets
    extract_lets f
    have hk := keepPut_ch (c := c) (bs := bs) H (wt hq)
    split
    · exact H
    · split
      · exact H
      · split
        · rename_i s1 he; rw [he] at hk; exact hk
        · rename_i s1 he
          rw [he] at hk
          exact ih (ch_ite (fun _ => writeBankA_ch hk (wt hq)) fun _ => onFilt_ch hk (wt hq))

theorem applyPackage_ch (H : Changes q z s) (hq : within [.pw, .te, .rtc, .hw, .se, .pr, .lk, .tp, .wd, .nt, .hm, .filts, .insts, .me, .pm, .free] q = true) : Changes q z (applyPackage s).1 := by
  unfold applyPackage
  extract_lets k b l
  clear_value l k
  split
  · have h1 := storeLayout_ch (bs := b) H (wt hq)
    split
    · rename_i s1 he; rw [he] at h1; dsimp only; exact onHm_ch h1 (wt hq)
    · rename_i s1 he; rw [he] at h1; exact h1
  · split
    · exact H
    · split
      · split
        · exact H
        · rename_i ls _
          have h1 := loadSets_ch (l := ls) H (wt hq)
          split
          · rename_i s1 he; rw [he] at h1; exact h1
          · exact H
          · exact h1
      · split
        · exact H
        · have h1 := commitMembers_ch (l := l) H (wt hq)
          split
          · rename_i s1 he; rw [he] at h1; exact h1
          · rename_i s1 he; rw [he] at h1; exact h1

theorem armSequencer_ch {seq : ℕ} {a : ArmIn} {job : Job} (H : Changes q z s) (hq : within [.rtc, .wd, .chans, .stands, .seqs,
    .units] q = true) :
    AnsCh q z (armSequencer seq a job s) := by
  refine Changes.op H hq ?_
  show AnsCh [.rtc, .wd, .chans, .stands, .seqs, .units] s (armSequencer seq a job s)
  have H := Changes.refl [.rtc, .wd, .chans, .stands, .seqs, .units] s
  unfold armSequencer
  repeat' first
    | with_reducible assumption | (intro _)
    | (extract_lets +onlyGivenNames x; have hx : Changes [.rtc, .wd, .chans, .stands, .seqs, .units] s x; (on_goal 1 => unfold x; clear x); on_goal 2 => clear_value x)
    | (extract_lets +onlyGivenNames x; have : x = x := by (unfold x; rfl)
       clear this; clear_value x)
    | with_reducible apply seqInstall_ch | with_reducible apply seqTrigger_ch | with_reducible apply onSeq_ch
    | with_reducible apply onRtc_ch | with_reducible apply AnsCh.mk | rfl
    | with_reducible refine ch_ite (fun _ => ?_) fun _ => ?_ | split

theorem committedView_ch (H : Changes q z s) (hq : within [.pr] q = true) :
    Changes q z (committedView s) := by
  refine H.op hq ?_
  have H := Changes.refl [.pr] s
  unfold committedView
  repeat' first
    | with_reducible assumption | (intro _) | with_reducible apply onPr_ch | rfl

theorem consoleServe_ch {cmd : String} {x : LineIn} {minStage : Nat} {bad : List Nat → Bool}
    {run : List Nat → State → State × List Byte} (H : Changes q z s) (hq : within [.lk, .hm] q = true)
    (hr : ∀ l s, Changes q z s → Changes q z (run l s).1) : Changes q z (consoleServe cmd x minStage bad run s) := by
  unfold consoleServe
  extract_lets st s1 r
  have h1 : Changes q z s1 := onLk_ch H (wt hq)
  clear_value s1
  have h2 : Changes q z r.1 := by
    unfold r; split
    · exact h1
    · exact hr _ _ h1
  clear_value r
  exact ch_ite (fun _ => H) fun _ => onHm_ch h2 (wt hq)

theorem coppiceAct_ch {stand : Nat} {permitted : Stand → Bool} {f : State → Nat → State × Bool}
    (hf : ∀ s k, Changes q z s → Changes q z (f s k).1) (H : Changes q z s) : AnsCh q z (coppiceAct stand permitted f s) := by
  refine AnsCh.mk (ch_foldl_fst (fun p a h => ?_) H)
  dsimp only
  split
  · exact hf _ _ h
  · exact h

theorem future_ch (H : Changes q z s) (hq : within [.pr] q = true) :
    Changes q z (future s) := by
  refine H.op hq ?_
  have H := Changes.refl [.pr] s
  unfold future
  repeat' first
    | with_reducible assumption | (intro _) | with_reducible apply onPr_ch | rfl

theorem pathCheckAct_ch {chan : ℕ} {baseline : Bool} (H : Changes q z s) (hq : within [.stands] q = true) :
    AnsCh q z (pathCheckAct chan baseline s) := by
  refine Changes.op H hq ?_
  show AnsCh [.stands] s (pathCheckAct chan baseline s)
  have H := Changes.refl [.stands] s
  unfold pathCheckAct
  repeat' first
    | with_reducible assumption
    | (extract_lets +onlyGivenNames x; have hx : Changes [.stands] s x; (on_goal 1 => unfold x; clear x); on_goal 2 => clear_value x)
    | with_reducible apply queueCheck_ch | with_reducible apply AnsCh.mk | rfl

theorem pauseStand_ch {k : ℕ} (H : Changes q z s) (hq : within [.convs, .stands, .insts] q = true) :
    Changes q z (pauseStand s k).1 := by
  refine Changes.op H hq ?_
  have H := Changes.refl [.convs, .stands, .insts] s
  unfold pauseStand
  repeat' first
    | with_reducible assumption | (intro _)
    | (extract_lets +onlyGivenNames x; have : x = x := by (unfold x; rfl)
       clear this; clear_value x)
    | with_reducible apply moveSpare_ch | with_reducible apply abortSpareRest_ch | with_reducible apply onStand_ch | rfl
    | with_reducible refine ch_ite (fun _ => ?_) fun _ => ?_ | split

theorem pinStand_ch {c : ℕ} {k : ℕ} (H : Changes q z s) (hq : within [.chans, .convs, .stands, .insts, .free] q = true) :
    Changes q z (pinStand c s k).1 := by
  refine Changes.op H hq ?_
  have H := Changes.refl [.chans, .convs, .stands, .insts, .free] s
  unfold pinStand
  repeat' first
    | with_reducible assumption | (intro _)
    | (extract_lets +onlyGivenNames x; have : x = x := by (unfold x; rfl)
       clear this; clear_value x)
    | with_reducible apply splice_ch | with_reducible apply takeMatch_ch | with_reducible apply moveSpare_ch
    | with_reducible apply unpin_ch | with_reducible apply abortSpareRest_ch | with_reducible apply onStand_ch
    | with_reducible refine ch_fst (by assumption) ?_ | rfl | with_reducible refine ch_ite (fun _ => ?_) fun _ => ?_ | split

theorem queueReadAct_ch {ackSeq : ℕ} {maxWords : ℕ} (H : Changes q z s) (hq : within [.qu] q = true) :
    AnsCh q z (queueReadAct ackSeq maxWords s) := by
  refine Changes.op H hq ?_
  show AnsCh [.qu] s (queueReadAct ackSeq maxWords s)
  have H := Changes.refl [.qu] s
  unfold queueReadAct
  repeat' first
    | with_reducible assumption | (intro _)
    | (extract_lets +onlyGivenNames x; have : x = x := by (unfold x; rfl)
       clear this; clear_value x)
    | with_reducible apply onQu_ch | with_reducible apply AnsCh.mk | rfl
    | with_reducible refine ch_ite (fun _ => ?_) fun _ => ?_ | split

theorem refuse_ch {op : Op} {st : Status} (H : Changes q z s) : AnsCh q z (refuse s op st) := AnsCh.mk H

theorem rotateStand_ch {k : ℕ} (H : Changes q z s) (hq : within [.chans, .convs, .stands, .insts] q = true) :
    Changes q z (rotateStand s k).1 := by
  refine Changes.op H hq ?_
  have H := Changes.refl [.chans, .convs, .stands, .insts] s
  unfold rotateStand
  repeat' first
    | with_reducible assumption | (intro _)
    | (extract_lets +onlyGivenNames x; have hx : Changes [.chans, .convs, .stands, .insts] s x; (on_goal 1 => unfold x; clear x); on_goal 2 => clear_value x)
    | (extract_lets +onlyGivenNames x; have : x = x := by (unfold x; rfl)
       clear this; clear_value x)
    | with_reducible apply unpin_ch | with_reducible apply shadowFor_ch | with_reducible apply onStand_ch | rfl
    | with_reducible refine ch_ite (fun _ => ?_) fun _ => ?_ | split

theorem serveNow_ch {op : Op} {h : Hdr} {lenOk : Bool} {checks : State → List (Bool × Status)} {act : State → Ans}
    (H : Changes q z s) (hq : within [.se, .lk, .tp, .wd, .nt, .hm, .me, .free] q = true) (ha : ∀ s, Changes q z s → AnsCh q z (act s)) :
    Changes q z (serveNow op h lenOk checks act s) := by
  have H1 : Changes q z ((s.secPass h).onLk fun l => { l with cmdAccepted := l.cmdAccepted + 1 }) :=
    onLk_ch (secPass_ch H (wt hq)) (wt hq)
  unfold serveNow
  refine ch_ite (fun _ => H) fun _ => ch_ite (fun _ => ?_) fun _ =>
    ch_ite (fun _ => answer_ch (secFail_ch H (wt hq)) (wt hq)) fun _ => ?_
  · split
    · exact answer_ch H (wt hq)
    · exact onLk_ch H (wt hq)
    · exact H
  · dsimp only
    refine ch_ite (fun _ => answer_ch H1 (wt hq)) fun _ => ch_ite (fun _ => answer_ch H1 (wt hq)) fun _ =>
      ch_ite (fun _ => answer_ch H1 (wt hq)) fun _ => ?_
    split
    · exact answer_ch H1 (wt hq)
    · exact answer_ch (ha _ H1) (wt hq)

theorem serve_ch {op : Op} {h : Hdr} {lenOk : Bool} {checks : State → List (Bool × Status)} {act : State → Ans}
    (H : Changes q z s) (hq : within [.pw, .te, .rtc, .hw, .se, .pr, .lk, .tp, .wd, .nt, .hm, .me, .pm, .free] q = true) (ha : ∀ s, Changes q z s → AnsCh q z (act s)) :
    Changes q z (serve op h lenOk checks act s) :=
  serveNow_ch (settled_ch H (wt hq)) (wt hq) ha

theorem showing_ch {bytes : State → List ℕ → List Byte} {args : List ℕ} (H : Changes q z s) (hq : within [] q = true) :
    Changes q z (showing bytes args s).1 := by
  refine Changes.op H hq ?_
  have H := Changes.refl [] s
  unfold showing
  repeat' first
    | with_reducible assumption

theorem skipChecks_ch {k n : Nat} (H : Changes q z s) (hq : within [.wd, .chans, .stands, .seqs, .units] q = true) : Changes q z (skipChecks s k n) := by
  induction n generalizing s with
  | zero => exact H
  | succ n ih =>
    unfold skipChecks
    split
    · exact H
    · exact ch_ite (fun _ => ih (seqChecked_ch (onStand_ch (baseFailLog_ch (setCheckResult_ch H (wt hq)) (wt hq)) (wt hq))
        (wt hq))) fun _ => H

end Sys2Proof.Machine
end

