-- ==== Sys2Proof/Laws/Lists.lean ====
section
/-! SUPPORT. Updates of one place of a list. -/

namespace Sys2Proof.Machine

@[simp] theorem modAt_length {α : Type} (l : List α) (n : Nat) (f : α → α) : (modAt l n f).length = l.length :=
  List.length_modify f l n

theorem modAt_getElem? {α : Type} (l : List α) (n k : Nat) (f : α → α) :
    (modAt l n f)[k]? = if n = k then (l[k]?).map f else l[k]? := by
  unfold modAt; rw [List.getElem?_modify]; split <;> simp_all

theorem modAt_getD_self {α : Type} (l : List α) (n : Nat) (f : α → α) (d : α) (h : n < l.length) :
    (modAt l n f).getD n d = f (l.getD n d) := by
  rw [List.getD_eq_getElem?_getD, modAt_getElem?, List.getD_eq_getElem?_getD, List.getElem?_eq_getElem h]; simp

theorem modAt_getD_ne {α : Type} (l : List α) (n k : Nat) (f : α → α) (d : α) (h : k ≠ n) :
    (modAt l n f).getD k d = l.getD k d := by
  rw [List.getD_eq_getElem?_getD, modAt_getElem?, if_neg (Ne.symm h), List.getD_eq_getElem?_getD]

end Sys2Proof.Machine
end

