-- ==== Sys2Proof/Laws/InvBase.lean ====
section
/-! SUPPORT. The safety invariant over the updates of one subsystem, choices, folds and the interpreter. -/

namespace Sys2Proof.Machine

theorem inv_ite {c : Prop} [Decidable c] {a b : State} (ha : c → a.Inv) (hb : ¬c → b.Inv) : (if c then a else b).Inv := by
  split
  · exact ha ‹_›
  · exact hb ‹_›

theorem inv_foldl {α : Type} {f : State → α → State} {l : List α} {s : State}
    (hf : ∀ s a, s.Inv → (f s a).Inv) (H : s.Inv) : (l.foldl f s).Inv := by
  induction l generalizing s with
  | nil => exact H
  | cons a l ih => exact ih (hf s a H)

/-- A state that agrees with a safe one in what the invariant looks at is safe. -/
theorem inv_of {s t : State} (H : s.Inv) (hm : t.hw.mem = s.hw.mem) (hb : t.wd.buffer = s.wd.buffer)
    (hc : t.wd.canopyRunning = s.wd.canopyRunning) (hp : t.pw.stage = s.pw.stage) (hs : s.Shape → t.Shape) : t.Inv := by
  obtain ⟨h1, h2, h3, h4, h5⟩ := H
  exact ⟨hm ▸ h1, hb ▸ h2, hp ▸ h3, by rw [hc, hp]; exact h4, hs h5⟩

variable {s : State}

theorem onPr_inv {f} (H : s.Inv) : (s.onPr f).Inv := H
theorem onTx_inv {f} (H : s.Inv) : (s.onTx f).Inv := H
theorem onHm_inv {f} (H : s.Inv) : (s.onHm f).Inv := H
theorem onRef_inv {f} (H : s.Inv) : (s.onRef f).Inv := H
theorem onQu_inv {f} (H : s.Inv) : (s.onQu f).Inv := H
theorem onMe_inv {f} (H : s.Inv) : (s.onMe f).Inv := H
theorem onPm_inv {f} (H : s.Inv) : (s.onPm f).Inv := H
theorem onInst_inv {n f} (H : s.Inv) : (s.onInst n f).Inv := H
theorem drew_inv {n} (H : s.Inv) : (s.drew n).Inv := H

theorem onHw_inv {f} (H : s.Inv) (h : (f s.hw).mem = s.hw.mem) : (s.onHw f).Inv := inv_of H h rfl rfl rfl id
theorem onPw_inv {f} (H : s.Inv) (h : (f s.pw).stage = s.pw.stage) : (s.onPw f).Inv := inv_of H rfl rfl rfl h id
theorem onWd_inv {f} (H : s.Inv) (h : (f s.wd).buffer = s.wd.buffer) (hc : (f s.wd).canopyRunning = s.wd.canopyRunning) :
    (s.onWd f).Inv := inv_of H rfl h hc rfl id
theorem onTe_inv {f} (H : s.Inv) (h : (f s.te).blazes.length = s.te.blazes.length)
    (hn : (f s.te).notches.length = s.te.notches.length) : (s.onTe f).Inv :=
  inv_of H rfl rfl rfl rfl fun hs => by simpa [State.Shape, h, hn] using hs
theorem onNt_inv {f} (H : s.Inv) (h : (f s.nt).ports.length = s.nt.ports.length) : (s.onNt f).Inv :=
  inv_of H rfl rfl rfl rfl fun hs => by simpa [State.Shape, h] using hs
theorem onPq_inv {f} (H : s.Inv) (h : (f s.pq).buses.length = s.pq.buses.length) : (s.onPq f).Inv :=
  inv_of H rfl rfl rfl rfl fun hs => by simpa [State.Shape, h] using hs
theorem onRtc_inv {f} (H : s.Inv) (h : (f s.rtc).alarms.length = s.rtc.alarms.length) : (s.onRtc f).Inv :=
  inv_of H rfl rfl rfl rfl fun hs => by simpa [State.Shape, h] using hs
theorem onSe_inv {f} (H : s.Inv) (h : (f s.se).locks.length = s.se.locks.length)
    (hn : (f s.se).pws.length = s.se.pws.length) : (s.onSe f).Inv :=
  inv_of H rfl rfl rfl rfl fun hs => by simpa [State.Shape, h, hn] using hs
theorem onTp_inv {f} (H : s.Inv) (h : (f s.tp).slots.length = s.tp.slots.length)
    (hn : (f s.tp).detPrev.length = s.tp.detPrev.length) : (s.onTp f).Inv :=
  inv_of H rfl rfl rfl rfl fun hs => by simpa [State.Shape, h, hn] using hs
theorem onUp_inv {f} (H : s.Inv) (h : (f s.up).banks.length = s.up.banks.length)
    (hn : (f s.up).active.length = s.up.active.length) : (s.onUp f).Inv :=
  inv_of H rfl rfl rfl rfl fun hs => by simpa [State.Shape, h, hn] using hs
theorem onLk_inv {f} (H : s.Inv) (h : (f s.lk).scratch.length = s.lk.scratch.length) : (s.onLk f).Inv :=
  inv_of H rfl rfl rfl rfl fun hs => by simpa [State.Shape, h] using hs
theorem onChan_inv {n f} (H : s.Inv) : (s.onChan n f).Inv :=
  inv_of H rfl rfl rfl rfl fun hs => by simpa [State.Shape] using hs
theorem onConv_inv {n f} (H : s.Inv) : (s.onConv n f).Inv :=
  inv_of H rfl rfl rfl rfl fun hs => by simpa [State.Shape] using hs
theorem onStand_inv {n f} (H : s.Inv) : (s.onStand n f).Inv :=
  inv_of H rfl rfl rfl rfl fun hs => by simpa [State.Shape] using hs
theorem onSeq_inv {n f} (H : s.Inv) : (s.onSeq n f).Inv :=
  inv_of H rfl rfl rfl rfl fun hs => by simpa [State.Shape] using hs
theorem onFilt_inv {n f} (H : s.Inv) : (s.onFilt n f).Inv :=
  inv_of H rfl rfl rfl rfl fun hs => by simpa [State.Shape] using hs
theorem onUnit_inv {n f} (H : s.Inv) : (s.onUnit n f).Inv :=
  inv_of H rfl rfl rfl rfl fun hs => by simpa [State.Shape] using hs

theorem wr_inv {a bs} (H : s.Inv) : (s.wr a bs).Inv := by
  obtain ⟨h1, h2, h3, h4, h5⟩ := H
  have hw := wr_wf a bs h1
  rw [wr_frame]
  exact ⟨hw, h2, h3, h4, h5⟩

/-- An answer leaves a safe state. -/
def AnsOk (a : Ans) : Prop := a.s.Inv

theorem AnsOk.mk {st bs} (H : s.Inv) : AnsOk ⟨s, st, bs⟩ := H
theorem ans_ite {c : Prop} [Decidable c] {a b : Ans} (ha : c → AnsOk a) (hb : ¬c → AnsOk b) : AnsOk (if c then a else b) := by
  split
  · exact ha ‹_›
  · exact hb ‹_›

/-- Whatever next state an outcome has is safe. -/
def OutOk (o : Host.Outcome State Fault Refusal) : Prop := ∀ t, o = .next t → t.Inv

theorem OutOk.next {t : State} (H : t.Inv) : OutOk (.next t) := by
  intro u hu; cases hu; exact H
theorem OutOk.fault (f : Fault) : OutOk (.fault f) := by
  intro u hu; cases hu
theorem out_ite {c : Prop} [Decidable c] {a b : Host.Outcome State Fault Refusal} (ha : c → OutOk a) (hb : ¬c → OutOk b) :
    OutOk (if c then a else b) := by
  split
  · exact ha ‹_›
  · exact hb ‹_›

end Sys2Proof.Machine
end

