-- ==== Sys2Proof/Laws/Serve.lean ====
section
/-! SUPPORT. What the interpreter does with a request, said once: what accepting it leaves alone, and how one that its opcode
serves is answered. -/

namespace Sys2Proof.Machine

/-! ### An entry of the log, and a source that ceases -/

/-- Putting an entry into the log buffer changes the buffer and its counts of lost entries alone. -/
theorem pushLog_eq (s : State) (e : LogEntry) : s.pushLog e = { s with wd := { s.wd with
    buffer := (s.pushLog e).wd.buffer, lost := (s.pushLog e).wd.lost, lostSince := (s.pushLog e).wd.lostSince } } := by
  unfold State.pushLog State.onWd; dsimp only; split <;> rfl

/-- So does an event without continuation entries. -/
theorem log_eq (s : State) (c : Nat) (d : List Byte) : s.log c d = { s with wd := { s.wd with
    buffer := (s.log c d).wd.buffer, lost := (s.log c d).wd.lost, lostSince := (s.log c d).wd.lostSince } } := by
  simp only [State.log, State.logAt, State.pushConts]; exact pushLog_eq _ _

@[simp] theorem pushLog_pw (s : State) (e : LogEntry) : (s.pushLog e).pw = s.pw := by rw [pushLog_eq]
@[simp] theorem pushLog_te (s : State) (e : LogEntry) : (s.pushLog e).te = s.te := by rw [pushLog_eq]
@[simp] theorem pushLog_rtc (s : State) (e : LogEntry) : (s.pushLog e).rtc = s.rtc := by rw [pushLog_eq]
@[simp] theorem pushLog_hw (s : State) (e : LogEntry) : (s.pushLog e).hw = s.hw := by rw [pushLog_eq]
@[simp] theorem pushLog_se (s : State) (e : LogEntry) : (s.pushLog e).se = s.se := by rw [pushLog_eq]
@[simp] theorem pushLog_pr (s : State) (e : LogEntry) : (s.pushLog e).pr = s.pr := by rw [pushLog_eq]
@[simp] theorem pushLog_up (s : State) (e : LogEntry) : (s.pushLog e).up = s.up := by rw [pushLog_eq]
@[simp] theorem pushLog_tx (s : State) (e : LogEntry) : (s.pushLog e).tx = s.tx := by rw [pushLog_eq]
@[simp] theorem pushLog_nt (s : State) (e : LogEntry) : (s.pushLog e).nt = s.nt := by rw [pushLog_eq]
@[simp] theorem pushLog_hm (s : State) (e : LogEntry) : (s.pushLog e).hm = s.hm := by rw [pushLog_eq]
@[simp] theorem pushLog_ref (s : State) (e : LogEntry) : (s.pushLog e).ref = s.ref := by rw [pushLog_eq]
@[simp] theorem pushLog_chans (s : State) (e : LogEntry) : (s.pushLog e).chans = s.chans := by rw [pushLog_eq]
@[simp] theorem pushLog_convs (s : State) (e : LogEntry) : (s.pushLog e).convs = s.convs := by rw [pushLog_eq]
@[simp] theorem pushLog_stands (s : State) (e : LogEntry) : (s.pushLog e).stands = s.stands := by rw [pushLog_eq]
@[simp] theorem pushLog_seqs (s : State) (e : LogEntry) : (s.pushLog e).seqs = s.seqs := by rw [pushLog_eq]
@[simp] theorem pushLog_filts (s : State) (e : LogEntry) : (s.pushLog e).filts = s.filts := by rw [pushLog_eq]
@[simp] theorem pushLog_insts (s : State) (e : LogEntry) : (s.pushLog e).insts = s.insts := by rw [pushLog_eq]
@[simp] theorem pushLog_hist (s : State) (e : LogEntry) : (s.pushLog e).hist = s.hist := by rw [pushLog_eq]
@[simp] theorem pushLog_qu (s : State) (e : LogEntry) : (s.pushLog e).qu = s.qu := by rw [pushLog_eq]
@[simp] theorem pushLog_units (s : State) (e : LogEntry) : (s.pushLog e).units = s.units := by rw [pushLog_eq]
@[simp] theorem pushLog_me (s : State) (e : LogEntry) : (s.pushLog e).me = s.me := by rw [pushLog_eq]
@[simp] theorem pushLog_pq (s : State) (e : LogEntry) : (s.pushLog e).pq = s.pq := by rw [pushLog_eq]
@[simp] theorem pushLog_pm (s : State) (e : LogEntry) : (s.pushLog e).pm = s.pm := by rw [pushLog_eq]
@[simp] theorem pushLog_clk (s : State) (e : LogEntry) : (s.pushLog e).clk = s.clk := by rw [pushLog_eq]
@[simp] theorem pushLog_free (s : State) (e : LogEntry) : (s.pushLog e).free = s.free := by rw [pushLog_eq]
@[simp] theorem pushLog_pending (s : State) (e : LogEntry) : (s.pushLog e).pending = s.pending := by rw [pushLog_eq]
@[simp] theorem pushLog_lk (s : State) (e : LogEntry) : (s.pushLog e).lk = s.lk := by rw [pushLog_eq]
@[simp] theorem pushLog_tp (s : State) (e : LogEntry) : (s.pushLog e).tp = s.tp := by rw [pushLog_eq]
@[simp] theorem pushLog_wd_running (s : State) (e : LogEntry) : (s.pushLog e).wd.running = s.wd.running := by rw [pushLog_eq]
@[simp] theorem pushLog_wd_canopyRunning (s : State) (e : LogEntry) : (s.pushLog e).wd.canopyRunning = s.wd.canopyRunning := by rw [pushLog_eq]
@[simp] theorem pushLog_wd_dspRunning (s : State) (e : LogEntry) : (s.pushLog e).wd.dspRunning = s.wd.dspRunning := by rw [pushLog_eq]
@[simp] theorem pushLog_wd_logSeq (s : State) (e : LogEntry) : (s.pushLog e).wd.logSeq = s.wd.logSeq := by rw [pushLog_eq]
@[simp] theorem pushLog_wd_health (s : State) (e : LogEntry) : (s.pushLog e).wd.health = s.wd.health := by rw [pushLog_eq]
@[simp] theorem pushLog_wd_sensorRun (s : State) (e : LogEntry) : (s.pushLog e).wd.sensorRun = s.wd.sensorRun := by rw [pushLog_eq]
@[simp] theorem pushLog_wd_canopyRestarts (s : State) (e : LogEntry) : (s.pushLog e).wd.canopyRestarts = s.wd.canopyRestarts := by rw [pushLog_eq]
@[simp] theorem pushLog_wd_unplanned (s : State) (e : LogEntry) : (s.pushLog e).wd.unplanned = s.wd.unplanned := by rw [pushLog_eq]
@[simp] theorem pushLog_wd_restartReq (s : State) (e : LogEntry) : (s.pushLog e).wd.restartReq = s.wd.restartReq := by rw [pushLog_eq]
@[simp] theorem pushLog_wd_restartUnplanned (s : State) (e : LogEntry) : (s.pushLog e).wd.restartUnplanned = s.wd.restartUnplanned := by rw [pushLog_eq]
@[simp] theorem pushLog_wd_backoff (s : State) (e : LogEntry) : (s.pushLog e).wd.backoff = s.wd.backoff := by rw [pushLog_eq]
@[simp] theorem pushLog_wd_stopCause (s : State) (e : LogEntry) : (s.pushLog e).wd.stopCause = s.wd.stopCause := by rw [pushLog_eq]
@[simp] theorem pushLog_wd_stopClk (s : State) (e : LogEntry) : (s.pushLog e).wd.stopClk = s.wd.stopClk := by rw [pushLog_eq]
@[simp] theorem pushLog_wd_dspReloads (s : State) (e : LogEntry) : (s.pushLog e).wd.dspReloads = s.wd.dspReloads := by rw [pushLog_eq]
@[simp] theorem pushLog_wd_dspExpiryClk (s : State) (e : LogEntry) : (s.pushLog e).wd.dspExpiryClk = s.wd.dspExpiryClk := by rw [pushLog_eq]
@[simp] theorem pushLog_wd_dspReloadWait (s : State) (e : LogEntry) : (s.pushLog e).wd.dspReloadWait = s.wd.dspReloadWait := by rw [pushLog_eq]
@[simp] theorem pushLog_wd_wardenRestarts (s : State) (e : LogEntry) : (s.pushLog e).wd.wardenRestarts = s.wd.wardenRestarts := by rw [pushLog_eq]
@[simp] theorem pushLog_wd_wardenCause (s : State) (e : LogEntry) : (s.pushLog e).wd.wardenCause = s.wd.wardenCause := by rw [pushLog_eq]
@[simp] theorem pushLog_wd_wardenClk (s : State) (e : LogEntry) : (s.pushLog e).wd.wardenClk = s.wd.wardenClk := by rw [pushLog_eq]
@[simp] theorem pushLog_wd_missedFrames (s : State) (e : LogEntry) : (s.pushLog e).wd.missedFrames = s.wd.missedFrames := by rw [pushLog_eq]
@[simp] theorem log_pw (s : State) (c : Nat) (d : List Byte) : (s.log c d).pw = s.pw := by rw [log_eq]
@[simp] theorem log_te (s : State) (c : Nat) (d : List Byte) : (s.log c d).te = s.te := by rw [log_eq]
@[simp] theorem log_rtc (s : State) (c : Nat) (d : List Byte) : (s.log c d).rtc = s.rtc := by rw [log_eq]
@[simp] theorem log_hw (s : State) (c : Nat) (d : List Byte) : (s.log c d).hw = s.hw := by rw [log_eq]
@[simp] theorem log_se (s : State) (c : Nat) (d : List Byte) : (s.log c d).se = s.se := by rw [log_eq]
@[simp] theorem log_pr (s : State) (c : Nat) (d : List Byte) : (s.log c d).pr = s.pr := by rw [log_eq]
@[simp] theorem log_up (s : State) (c : Nat) (d : List Byte) : (s.log c d).up = s.up := by rw [log_eq]
@[simp] theorem log_tx (s : State) (c : Nat) (d : List Byte) : (s.log c d).tx = s.tx := by rw [log_eq]
@[simp] theorem log_nt (s : State) (c : Nat) (d : List Byte) : (s.log c d).nt = s.nt := by rw [log_eq]
@[simp] theorem log_hm (s : State) (c : Nat) (d : List Byte) : (s.log c d).hm = s.hm := by rw [log_eq]
@[simp] theorem log_ref (s : State) (c : Nat) (d : List Byte) : (s.log c d).ref = s.ref := by rw [log_eq]
@[simp] theorem log_chans (s : State) (c : Nat) (d : List Byte) : (s.log c d).chans = s.chans := by rw [log_eq]
@[simp] theorem log_convs (s : State) (c : Nat) (d : List Byte) : (s.log c d).convs = s.convs := by rw [log_eq]
@[simp] theorem log_stands (s : State) (c : Nat) (d : List Byte) : (s.log c d).stands = s.stands := by rw [log_eq]
@[simp] theorem log_seqs (s : State) (c : Nat) (d : List Byte) : (s.log c d).seqs = s.seqs := by rw [log_eq]
@[simp] theorem log_filts (s : State) (c : Nat) (d : List Byte) : (s.log c d).filts = s.filts := by rw [log_eq]
@[simp] theorem log_insts (s : State) (c : Nat) (d : List Byte) : (s.log c d).insts = s.insts := by rw [log_eq]
@[simp] theorem log_hist (s : State) (c : Nat) (d : List Byte) : (s.log c d).hist = s.hist := by rw [log_eq]
@[simp] theorem log_qu (s : State) (c : Nat) (d : List Byte) : (s.log c d).qu = s.qu := by rw [log_eq]
@[simp] theorem log_units (s : State) (c : Nat) (d : List Byte) : (s.log c d).units = s.units := by rw [log_eq]
@[simp] theorem log_me (s : State) (c : Nat) (d : List Byte) : (s.log c d).me = s.me := by rw [log_eq]
@[simp] theorem log_pq (s : State) (c : Nat) (d : List Byte) : (s.log c d).pq = s.pq := by rw [log_eq]
@[simp] theorem log_pm (s : State) (c : Nat) (d : List Byte) : (s.log c d).pm = s.pm := by rw [log_eq]
@[simp] theorem log_clk (s : State) (c : Nat) (d : List Byte) : (s.log c d).clk = s.clk := by rw [log_eq]
@[simp] theorem log_free (s : State) (c : Nat) (d : List Byte) : (s.log c d).free = s.free := by rw [log_eq]
@[simp] theorem log_pending (s : State) (c : Nat) (d : List Byte) : (s.log c d).pending = s.pending := by rw [log_eq]
@[simp] theorem log_lk (s : State) (c : Nat) (d : List Byte) : (s.log c d).lk = s.lk := by rw [log_eq]
@[simp] theorem log_tp (s : State) (c : Nat) (d : List Byte) : (s.log c d).tp = s.tp := by rw [log_eq]
@[simp] theorem log_wd_running (s : State) (c : Nat) (d : List Byte) : (s.log c d).wd.running = s.wd.running := by rw [log_eq]
@[simp] theorem log_wd_canopyRunning (s : State) (c : Nat) (d : List Byte) : (s.log c d).wd.canopyRunning = s.wd.canopyRunning := by rw [log_eq]
@[simp] theorem log_wd_dspRunning (s : State) (c : Nat) (d : List Byte) : (s.log c d).wd.dspRunning = s.wd.dspRunning := by rw [log_eq]
@[simp] theorem log_wd_logSeq (s : State) (c : Nat) (d : List Byte) : (s.log c d).wd.logSeq = s.wd.logSeq := by rw [log_eq]
@[simp] theorem log_wd_health (s : State) (c : Nat) (d : List Byte) : (s.log c d).wd.health = s.wd.health := by rw [log_eq]
@[simp] theorem log_wd_sensorRun (s : State) (c : Nat) (d : List Byte) : (s.log c d).wd.sensorRun = s.wd.sensorRun := by rw [log_eq]
@[simp] theorem log_wd_canopyRestarts (s : State) (c : Nat) (d : List Byte) : (s.log c d).wd.canopyRestarts = s.wd.canopyRestarts := by rw [log_eq]
@[simp] theorem log_wd_unplanned (s : State) (c : Nat) (d : List Byte) : (s.log c d).wd.unplanned = s.wd.unplanned := by rw [log_eq]
@[simp] theorem log_wd_restartReq (s : State) (c : Nat) (d : List Byte) : (s.log c d).wd.restartReq = s.wd.restartReq := by rw [log_eq]
@[simp] theorem log_wd_restartUnplanned (s : State) (c : Nat) (d : List Byte) : (s.log c d).wd.restartUnplanned = s.wd.restartUnplanned := by rw [log_eq]
@[simp] theorem log_wd_backoff (s : State) (c : Nat) (d : List Byte) : (s.log c d).wd.backoff = s.wd.backoff := by rw [log_eq]
@[simp] theorem log_wd_stopCause (s : State) (c : Nat) (d : List Byte) : (s.log c d).wd.stopCause = s.wd.stopCause := by rw [log_eq]
@[simp] theorem log_wd_stopClk (s : State) (c : Nat) (d : List Byte) : (s.log c d).wd.stopClk = s.wd.stopClk := by rw [log_eq]
@[simp] theorem log_wd_dspReloads (s : State) (c : Nat) (d : List Byte) : (s.log c d).wd.dspReloads = s.wd.dspReloads := by rw [log_eq]
@[simp] theorem log_wd_dspExpiryClk (s : State) (c : Nat) (d : List Byte) : (s.log c d).wd.dspExpiryClk = s.wd.dspExpiryClk := by rw [log_eq]
@[simp] theorem log_wd_dspReloadWait (s : State) (c : Nat) (d : List Byte) : (s.log c d).wd.dspReloadWait = s.wd.dspReloadWait := by rw [log_eq]
@[simp] theorem log_wd_wardenRestarts (s : State) (c : Nat) (d : List Byte) : (s.log c d).wd.wardenRestarts = s.wd.wardenRestarts := by rw [log_eq]
@[simp] theorem log_wd_wardenCause (s : State) (c : Nat) (d : List Byte) : (s.log c d).wd.wardenCause = s.wd.wardenCause := by rw [log_eq]
@[simp] theorem log_wd_wardenClk (s : State) (c : Nat) (d : List Byte) : (s.log c d).wd.wardenClk = s.wd.wardenClk := by rw [log_eq]
@[simp] theorem log_wd_missedFrames (s : State) (c : Nat) (d : List Byte) : (s.log c d).wd.missedFrames = s.wd.missedFrames := by rw [log_eq]

/-- A source that ceases to be ACTIVE changes its slot and the log buffer alone. -/
theorem tamperClear_eq (s : State) (n c : Nat) : s.tamperClear n c = { s with
    tp := { s.tp with slots := (s.tamperClear n c).tp.slots },
    wd := { s.wd with buffer := (s.tamperClear n c).wd.buffer, lost := (s.tamperClear n c).wd.lost,
                      lostSince := (s.tamperClear n c).wd.lostSince } } := by
  unfold State.tamperClear
  split
  · rfl
  · split
    · rw [log_eq]; rfl
    · rfl

/-! ### Accepting a request (R311, Table 14-14) -/

theorem secPass_eq (s : State) (h : Hdr) : s.secPass h = { s with
    tp := { s.tp with slots := (s.secPass h).tp.slots, keys := (s.secPass h).tp.keys, authRuns := (s.secPass h).tp.authRuns },
    wd := { s.wd with buffer := (s.secPass h).wd.buffer, lost := (s.secPass h).wd.lost,
                      lostSince := (s.secPass h).wd.lostSince } } := by
  unfold State.secPass
  split
  · rfl
  · dsimp only
    split
    · rfl
    · rw [tamperClear_eq]; rfl

/-- Accepting a request changes the sessions' nonces and runs of failures, slot 24, the log buffer and the count of accepted
requests alone. -/
theorem accepted_eq (s : State) (h : Hdr) : s.accepted h = { s with
    lk := { s.lk with cmdAccepted := s.lk.cmdAccepted + 1 },
    tp := { s.tp with slots := (s.accepted h).tp.slots, keys := (s.accepted h).tp.keys, authRuns := (s.accepted h).tp.authRuns },
    wd := { s.wd with buffer := (s.accepted h).wd.buffer, lost := (s.accepted h).wd.lost,
                      lostSince := (s.accepted h).wd.lostSince } } := by
  unfold State.accepted; rw [secPass_eq]; rfl

@[simp] theorem accepted_pw (s : State) (h : Hdr) : (s.accepted h).pw = s.pw := by rw [accepted_eq]
@[simp] theorem accepted_te (s : State) (h : Hdr) : (s.accepted h).te = s.te := by rw [accepted_eq]
@[simp] theorem accepted_rtc (s : State) (h : Hdr) : (s.accepted h).rtc = s.rtc := by rw [accepted_eq]
@[simp] theorem accepted_hw (s : State) (h : Hdr) : (s.accepted h).hw = s.hw := by rw [accepted_eq]
@[simp] theorem accepted_se (s : State) (h : Hdr) : (s.accepted h).se = s.se := by rw [accepted_eq]
@[simp] theorem accepted_pr (s : State) (h : Hdr) : (s.accepted h).pr = s.pr := by rw [accepted_eq]
@[simp] theorem accepted_up (s : State) (h : Hdr) : (s.accepted h).up = s.up := by rw [accepted_eq]
@[simp] theorem accepted_tx (s : State) (h : Hdr) : (s.accepted h).tx = s.tx := by rw [accepted_eq]
@[simp] theorem accepted_nt (s : State) (h : Hdr) : (s.accepted h).nt = s.nt := by rw [accepted_eq]
@[simp] theorem accepted_hm (s : State) (h : Hdr) : (s.accepted h).hm = s.hm := by rw [accepted_eq]
@[simp] theorem accepted_ref (s : State) (h : Hdr) : (s.accepted h).ref = s.ref := by rw [accepted_eq]
@[simp] theorem accepted_chans (s : State) (h : Hdr) : (s.accepted h).chans = s.chans := by rw [accepted_eq]
@[simp] theorem accepted_convs (s : State) (h : Hdr) : (s.accepted h).convs = s.convs := by rw [accepted_eq]
@[simp] theorem accepted_stands (s : State) (h : Hdr) : (s.accepted h).stands = s.stands := by rw [accepted_eq]
@[simp] theorem accepted_seqs (s : State) (h : Hdr) : (s.accepted h).seqs = s.seqs := by rw [accepted_eq]
@[simp] theorem accepted_filts (s : State) (h : Hdr) : (s.accepted h).filts = s.filts := by rw [accepted_eq]
@[simp] theorem accepted_insts (s : State) (h : Hdr) : (s.accepted h).insts = s.insts := by rw [accepted_eq]
@[simp] theorem accepted_hist (s : State) (h : Hdr) : (s.accepted h).hist = s.hist := by rw [accepted_eq]
@[simp] theorem accepted_qu (s : State) (h : Hdr) : (s.accepted h).qu = s.qu := by rw [accepted_eq]
@[simp] theorem accepted_units (s : State) (h : Hdr) : (s.accepted h).units = s.units := by rw [accepted_eq]
@[simp] theorem accepted_me (s : State) (h : Hdr) : (s.accepted h).me = s.me := by rw [accepted_eq]
@[simp] theorem accepted_pq (s : State) (h : Hdr) : (s.accepted h).pq = s.pq := by rw [accepted_eq]
@[simp] theorem accepted_pm (s : State) (h : Hdr) : (s.accepted h).pm = s.pm := by rw [accepted_eq]
@[simp] theorem accepted_clk (s : State) (h : Hdr) : (s.accepted h).clk = s.clk := by rw [accepted_eq]
@[simp] theorem accepted_free (s : State) (h : Hdr) : (s.accepted h).free = s.free := by rw [accepted_eq]
@[simp] theorem accepted_pending (s : State) (h : Hdr) : (s.accepted h).pending = s.pending := by rw [accepted_eq]
@[simp] theorem accepted_lk (s : State) (h : Hdr) :
    (s.accepted h).lk = { s.lk with cmdAccepted := s.lk.cmdAccepted + 1 } := by rw [accepted_eq]
@[simp] theorem accepted_wd_running (s : State) (h : Hdr) : (s.accepted h).wd.running = s.wd.running := by rw [accepted_eq]
@[simp] theorem accepted_wd_canopyRunning (s : State) (h : Hdr) : (s.accepted h).wd.canopyRunning = s.wd.canopyRunning := by rw [accepted_eq]
@[simp] theorem accepted_wd_dspRunning (s : State) (h : Hdr) : (s.accepted h).wd.dspRunning = s.wd.dspRunning := by rw [accepted_eq]
@[simp] theorem accepted_wd_logSeq (s : State) (h : Hdr) : (s.accepted h).wd.logSeq = s.wd.logSeq := by rw [accepted_eq]
@[simp] theorem accepted_wd_health (s : State) (h : Hdr) : (s.accepted h).wd.health = s.wd.health := by rw [accepted_eq]
@[simp] theorem accepted_wd_sensorRun (s : State) (h : Hdr) : (s.accepted h).wd.sensorRun = s.wd.sensorRun := by rw [accepted_eq]
@[simp] theorem accepted_wd_canopyRestarts (s : State) (h : Hdr) : (s.accepted h).wd.canopyRestarts = s.wd.canopyRestarts := by rw [accepted_eq]
@[simp] theorem accepted_wd_unplanned (s : State) (h : Hdr) : (s.accepted h).wd.unplanned = s.wd.unplanned := by rw [accepted_eq]
@[simp] theorem accepted_wd_restartReq (s : State) (h : Hdr) : (s.accepted h).wd.restartReq = s.wd.restartReq := by rw [accepted_eq]
@[simp] theorem accepted_wd_restartUnplanned (s : State) (h : Hdr) : (s.accepted h).wd.restartUnplanned = s.wd.restartUnplanned := by rw [accepted_eq]
@[simp] theorem accepted_wd_backoff (s : State) (h : Hdr) : (s.accepted h).wd.backoff = s.wd.backoff := by rw [accepted_eq]
@[simp] theorem accepted_wd_stopCause (s : State) (h : Hdr) : (s.accepted h).wd.stopCause = s.wd.stopCause := by rw [accepted_eq]
@[simp] theorem accepted_wd_stopClk (s : State) (h : Hdr) : (s.accepted h).wd.stopClk = s.wd.stopClk := by rw [accepted_eq]
@[simp] theorem accepted_wd_dspReloads (s : State) (h : Hdr) : (s.accepted h).wd.dspReloads = s.wd.dspReloads := by rw [accepted_eq]
@[simp] theorem accepted_wd_dspExpiryClk (s : State) (h : Hdr) : (s.accepted h).wd.dspExpiryClk = s.wd.dspExpiryClk := by rw [accepted_eq]
@[simp] theorem accepted_wd_dspReloadWait (s : State) (h : Hdr) : (s.accepted h).wd.dspReloadWait = s.wd.dspReloadWait := by rw [accepted_eq]
@[simp] theorem accepted_wd_wardenRestarts (s : State) (h : Hdr) : (s.accepted h).wd.wardenRestarts = s.wd.wardenRestarts := by rw [accepted_eq]
@[simp] theorem accepted_wd_wardenCause (s : State) (h : Hdr) : (s.accepted h).wd.wardenCause = s.wd.wardenCause := by rw [accepted_eq]
@[simp] theorem accepted_wd_wardenClk (s : State) (h : Hdr) : (s.accepted h).wd.wardenClk = s.wd.wardenClk := by rw [accepted_eq]
@[simp] theorem accepted_wd_missedFrames (s : State) (h : Hdr) : (s.accepted h).wd.missedFrames = s.wd.missedFrames := by rw [accepted_eq]
@[simp] theorem accepted_tp_buffer (s : State) (h : Hdr) : (s.accepted h).tp.buffer = s.tp.buffer := by rw [accepted_eq]
@[simp] theorem accepted_tp_overflow (s : State) (h : Hdr) : (s.accepted h).tp.overflow = s.tp.overflow := by rw [accepted_eq]
@[simp] theorem accepted_tp_vbatEntries (s : State) (h : Hdr) : (s.accepted h).tp.vbatEntries = s.tp.vbatEntries := by rw [accepted_eq]
@[simp] theorem accepted_tp_vbatOverflow (s : State) (h : Hdr) : (s.accepted h).tp.vbatOverflow = s.tp.vbatOverflow := by rw [accepted_eq]
@[simp] theorem accepted_tp_clearPending (s : State) (h : Hdr) : (s.accepted h).tp.clearPending = s.tp.clearPending := by rw [accepted_eq]
@[simp] theorem accepted_tp_clearQueue (s : State) (h : Hdr) : (s.accepted h).tp.clearQueue = s.tp.clearQueue := by rw [accepted_eq]
@[simp] theorem accepted_tp_clearings (s : State) (h : Hdr) : (s.accepted h).tp.clearings = s.tp.clearings := by rw [accepted_eq]
@[simp] theorem accepted_tp_identity (s : State) (h : Hdr) : (s.accepted h).tp.identity = s.tp.identity := by rw [accepted_eq]
@[simp] theorem accepted_tp_wrapped (s : State) (h : Hdr) : (s.accepted h).tp.wrapped = s.tp.wrapped := by rw [accepted_eq]
@[simp] theorem accepted_tp_keySerial (s : State) (h : Hdr) : (s.accepted h).tp.keySerial = s.tp.keySerial := by rw [accepted_eq]
@[simp] theorem accepted_tp_owner (s : State) (h : Hdr) : (s.accepted h).tp.owner = s.tp.owner := by rw [accepted_eq]
@[simp] theorem accepted_tp_challenge (s : State) (h : Hdr) : (s.accepted h).tp.challenge = s.tp.challenge := by rw [accepted_eq]
@[simp] theorem accepted_tp_trngOk (s : State) (h : Hdr) : (s.accepted h).tp.trngOk = s.tp.trngOk := by rw [accepted_eq]
@[simp] theorem accepted_tp_trngFails (s : State) (h : Hdr) : (s.accepted h).tp.trngFails = s.tp.trngFails := by rw [accepted_eq]
@[simp] theorem accepted_tp_injectFails (s : State) (h : Hdr) : (s.accepted h).tp.injectFails = s.tp.injectFails := by rw [accepted_eq]
@[simp] theorem accepted_tp_disagree (s : State) (h : Hdr) : (s.accepted h).tp.disagree = s.tp.disagree := by rw [accepted_eq]
@[simp] theorem accepted_tp_detPrev (s : State) (h : Hdr) : (s.accepted h).tp.detPrev = s.tp.detPrev := by rw [accepted_eq]
@[simp] theorem accepted_tp_injectBad (s : State) (h : Hdr) : (s.accepted h).tp.injectBad = s.tp.injectBad := by rw [accepted_eq]
@[simp] theorem accepted_tp_jtagIr (s : State) (h : Hdr) : (s.accepted h).tp.jtagIr = s.tp.jtagIr := by rw [accepted_eq]
@[simp] theorem accepted_tp_jtagWait (s : State) (h : Hdr) : (s.accepted h).tp.jtagWait = s.tp.jtagWait := by rw [accepted_eq]
@[simp] theorem accepted_tp_clearedSinceUp (s : State) (h : Hdr) : (s.accepted h).tp.clearedSinceUp = s.tp.clearedSinceUp := by rw [accepted_eq]

/-! ### A request that its opcode serves -/

/-- A request that opens, has its length and passes its opcode's checks is carried out on the accepted state. -/
theorem serve_opens {op : Op} {h : Hdr} {s : State} {lenOk : Bool} {checks : State → List (Bool × Status)}
    {act : State → Ans} (ho : Opens op h s) (hl : lenOk = true) (hc : firstFail (checks (s.accepted h)) = none) :
    serve op h lenOk checks act s =
      (act (s.accepted h)).s.replied op h (act (s.accepted h)).st (act (s.accepted h)).bytes := by
  obtain ⟨hcm, hsf, h2, hm, hw, ha, hau, hb, hu, hs, hf⟩ := ho
  have hb' : op.bulk.any (· != h.bulk) = false := by
    cases hq : op.bulk with
    | none => rfl
    | some b => simp [hb b hq]
  have hck : checkStatus (s.accepted h) h op.code (checks (s.accepted h)) = none := by
    simp [checkStatus, hc, hs]
  have hw' : (op.warden && !(s.accepted h).wd.running) = false := by
    rw [accepted_wd_running]; cases hq : op.warden with
    | false => rfl
    | true => simp [hw hq]
  have hf' : (h.more && !op.frag) = false := by
    cases hq : h.more with
    | false => rfl
    | true => simp [hf hq]
  have e0 : (s.pw.stage == 0) = false := by simp; omega
  have e1 : (s.pw.stage == 1) = false := by simp; omega
  rw [serve_of_idle hcm]; unfold serveNow
  rw [e0, ha, hsf, e1, hau]
  change (if _ then _ else _) = _
  have hpw := accepted_pw s h
  unfold State.accepted at hpw hw' hck ⊢
  simp only [Bool.or_self, Bool.not_true, if_false, Bool.false_eq_true, hb', hu, hw', hpw, hl, hf', hck, decide_eq_false (Nat.not_lt.mpr hm)]
  rfl

/-- A request that opens and has its length is refused by the first check that fails. -/
theorem serve_refuses {op : Op} {h : Hdr} {s : State} {lenOk : Bool} {checks : State → List (Bool × Status)}
    {act : State → Ans} {st : Status} (ho : Opens op h s) (hl : lenOk = true)
    (hc : firstFail (checks (s.accepted h)) = some st) :
    serve op h lenOk checks act s = (s.accepted h).answer h op.code st op.blank := by
  obtain ⟨hcm, hsf, h2, hm, hw, ha, hau, hb, hu, hs, hf⟩ := ho
  have hb' : op.bulk.any (· != h.bulk) = false := by
    cases hq : op.bulk with
    | none => rfl
    | some b => simp [hb b hq]
  have hck : checkStatus (s.accepted h) h op.code (checks (s.accepted h)) = some st := by
    simp [checkStatus, hc, hs]
  have hw' : (op.warden && !(s.accepted h).wd.running) = false := by
    rw [accepted_wd_running]; cases hq : op.warden with
    | false => rfl
    | true => simp [hw hq]
  have hf' : (h.more && !op.frag) = false := by
    cases hq : h.more with
    | false => rfl
    | true => simp [hf hq]
  have e0 : (s.pw.stage == 0) = false := by simp; omega
  have e1 : (s.pw.stage == 1) = false := by simp; omega
  rw [serve_of_idle hcm]; unfold serveNow
  rw [e0, ha, hsf, e1, hau]
  change (if _ then _ else _) = _
  have hpw := accepted_pw s h
  unfold State.accepted at hpw hw' hck ⊢
  simp only [Bool.or_self, Bool.not_true, if_false, Bool.false_eq_true, hb', hu, hw', hpw, hl, hf', hck, decide_eq_false (Nat.not_lt.mpr hm)]

/-- A command that is such a request answers with what its opcode makes of the accepted state. -/
theorem answers_of {i : Instr} {op : Op} {h : Hdr} {s : State} {lenOk : Bool} {checks : State → List (Bool × Status)}
    {act : State → Ans} {st : Status} {p : State → List Byte → Prop}
    (he : exec i s = .next (serve op h lenOk checks act s)) (ho : Opens op h s) (hl : lenOk = true)
    (hc : firstFail (checks (s.accepted h)) = none) (hst : (act (s.accepted h)).st = st)
    (hp : p (act (s.accepted h)).s (act (s.accepted h)).bytes) : Answers i s op h st p :=
  ⟨_, _, by rw [he, serve_opens ho hl hc, hst], hp⟩

end Sys2Proof.Machine
end

