-- ==== Sys2Proof/Machine/Requests.lean ====
section
/-! DEFINITION. Which command a request packet is: the OPCODE picks the command (R320, R335), and its fields come out of PARAMS as the
request column of each opcode's table lays them out. -/

namespace Sys2Proof.Machine

/-- What the bytes of a request do not say by themselves: verdicts of the crypto engine (assumption 3), and events that come while the
request is in progress. -/
structure Verdicts where
  /-- The challenge an owner signature was made over, and whether it verifies (R406). -/
  owner : SigIn
  /-- The signature of an update package verifies (R419). -/
  package : Bool
  /-- The source signature of a transplant package verifies, and the plaintext of its body where the GCM tag holds (R429). -/
  source : Bool
  body : Option (List Byte)
  /-- The passwords of PROVISION INSTALL, where the GCM tag holds (R407). -/
  passwords : Option (List Nat)
  /-- Words of an NV_WRITE completed before PFAIL asserts, and a Clearing that starts during a PASSWORD_SET (R353, R362). -/
  pfailAfter : Option Nat
  overtaken : Bool
deriving DecidableEq, Repr

/-- The byte, 16-bit, 32-bit and 64-bit field and the TIME80 at an offset of PARAMS (R320). -/
def u8At (p : List Byte) (o : Nat) : Nat := (byteAt p o).toNat
def u16At (p : List Byte) (o : Nat) : Nat := fieldAt p o 2
def u32At (p : List Byte) (o : Nat) : Nat := fieldAt p o 4
def u64At (p : List Byte) (o : Nat) : Nat := fieldAt p o 8
def t80At (p : List Byte) (o : Nat) : Nat := fieldAt p o 10

/-- The trigger fields of SNAPSHOT_ARM and SEQ_START (Table 5-5). -/
def armAt (p : List Byte) : ArmIn := ⟨u8At p 1, u8At p 2, u8At p 3, u8At p 4, t80At p 8, u32At p 20⟩

/-- Items of SET_PARAMS: ID, SIZE, and the value, zero-padded to a multiple of 4 bytes (Table 14-7). -/
def paramItems : Nat → List Byte → List (Nat × List Byte)
  | 0, _ => []
  | _, [] => []
  | n + 1, p =>
    let size := u8At p 2
    (u16At p 0, (p.drop 4).take size) :: paramItems n (p.drop (4 + (size + 3) / 4 * 4))

/-- Families 01 and 02 (chapters 08, 14). HUSH comes as a frame of its own (R312, R314). -/
def requestLow (h : Hdr) (op : Nat) (p : List Byte) : Option Instr :=
  if op == 0x0100 then some (.nop h p)
  else if op == 0x0101 then some (.identify h)
  else if op == 0x0102 then some (.getParam h (u16At p 0) (u8At p 2))
  else if op == 0x0103 then
    let id := u16At p 0
    if id == 0x1804 then some (.refRebase h (fieldAt p 4 (p.length - 4)))
    else if id == 0x4005 then some (.osfClear h (fieldAt p 4 (p.length - 4)))
    else if pFam id == 27 && pMem id == 4 then some (.alAck h (Fin.ofNat 4 (pInst id)) (fieldAt p 4 (p.length - 4)))
    else some (.setParam h id (p.drop 4))
  else if op == 0x0104 then
    some (.getParams h (u8At p 0) (u8At p 1) (u16At p 2) (u16At p 4)
      ((List.range (if u8At p 0 == 0 then (p.length - 4) / 2 else 0)).map fun k => u16At p (4 + 2 * k)))
  else if op == 0x0105 then some (.setParams h (u16At p 0) (paramItems 1024 (p.drop 4)))
  else if op == 0x0106 then some (.commitParams h)
  else if op == 0x0107 then some (.defaults h (u8At p 0))
  else if op == 0x0108 then some (.discardParams h)
  else if op == 0x0111 then some (.resume (.network h))
  else if op == 0x0120 then some (.getStage h)
  else if op == 0x0121 then some (.softRestart h (u8At p 0))
  else if op == 0x0201 then some (.energyRead h (u8At p 0) (u8At p 1) (u8At p 2) (u8At p 3) (u16At p 4))
  else if op == 0x0202 then some (.demandReset h (u8At p 0))
  else if op == 0x0203 then
    if u8At p 0 == 0 then some (.cfTestStop h) else some (.cfTestStart h (u8At p 1) (u16At p 2) (1 < u8At p 0))
  else none

/-- Family 03 (chapters 04 to 06). -/
def requestFilter (h : Hdr) (op : Nat) (p : List Byte) : Option Instr :=
  let a := u8At p 1
  if op == 0x0301 then some (.filterStop h (u8At p 0))
  else if op == 0x0302 then some (.filterLoad h (u8At p 0) (bitAt a 0) (p.drop 4))
  else if op == 0x0303 then some (.filterStart h (u8At p 0))
  else if op == 0x0304 then some (.bankWrite h (u8At p 0) (p.drop 4))
  else if op == 0x0305 then some (.bankSwap h (u8At p 0) (u16At p 2) (u16At p 4))
  else if op == 0x0310 then some (.snapshotArm h (u8At p 0) (armAt p))
  else if op == 0x0311 then some (.seqStart h (u8At p 0) (armAt p) ((p.drop 28).map (·.toNat)))
  else if op == 0x0320 then
    let k := u8At p 0
    if a == 1 then some (.coppicePause h k) else if a == 2 then some (.coppiceRotate h k)
    else if a == 3 then some (.coppicePin h k (u8At p 2)) else if a == 4 then some (.coppiceUnpin h k)
    else if a == 5 then some (.coppiceShadow h k (u8At p 2)) else if a == 6 then some (.coppiceRequalify h k (u8At p 2))
    else some (.coppiceQuery h k (a != 0))
  else if op == 0x0321 then
    if a == 1 then some (.pathCheckBaseline h (u8At p 0)) else some (.pathCheck h (u8At p 0) (a != 0))
  else none

/-- Families 04 to 06 (chapters 07, 09, 10). -/
def requestStream (h : Hdr) (op : Nat) (p : List Byte) : Option Instr :=
  let a := u8At p 0
  if op == 0x0401 then
    if a == 0 then some (.queueStreamStop h (u8At p 1)) else some (.queueStreamStart h (u8At p 1) (a != 1))
  else if op == 0x0402 then some (.queueRead h (u16At p 0) (u16At p 2))
  else if op == 0x0410 then
    let b := u8At p 1
    if b == 1 then some (.recorderArm h a) else if b == 2 then some (.recorderStop h a)
    else if b == 3 then some (.recorderTrigger h a) else some (.recorderQuery h a (b != 0))
  else if op == 0x0411 then some (.captureRead h a (u32At p 4) (u32At p 8) (u16At p 12))
  else if op == 0x0412 then some (.captureRelease h a (u32At p 4))
  else if op == 0x0501 then some (.pqRead h a (u8At p 1) (u8At p 2) (u16At p 4) (u16At p 6))
  else if op == 0x0502 then some (.pqEventRead h (u32At p 0) (u8At p 4))
  else if op == 0x0503 then some (.pqArchiveRead h a (u8At p 1) (t80At p 4))
  else if op == 0x0601 then some (.pmuRead h a (u8At p 1))
  else if op == 0x0602 then
    if a == 0 then some (.pmuStop h) else if a == 2 then some (.pmuSendCfg2 h) else some (.pmuStart h (a != 1))
  else none

/-- Families 07 and 08 (chapters 11, 16). -/
def requestTime (h : Hdr) (op : Nat) (p : List Byte) : Option Instr :=
  if op == 0x0701 then some (.timeGet h)
  else if op == 0x0702 then some (.timeSet h (t80At p 0))
  else if op == 0x0703 then some (.timeOffset h (toSigned 64 (u64At p 0)) (t80At p 8) (u64At p 20))
  else if op == 0x0704 then some (.timeAcceptStep h)
  else if op == 0x0705 then some (.txtsRead h (u8At p 0))
  else if op == 0x0710 then
    if u8At p 1 == 0 then some (.blazeDisarm h (u8At p 0) (u8At p 2) (t80At p 4))
    else some (.blazeArm h (u8At p 0) (u8At p 1 != 1) (u8At p 2) (t80At p 4) (u64At p 16) (u32At p 24) (u32At p 28))
  else if op == 0x0720 then some (.notchRead h (u8At p 0) (u8At p 1))
  else if op == 0x0801 then some (.rtcGet h)
  else if op == 0x0802 then
    some (.rtcSet h (u8At p 0) (u16At p 2) (u8At p 4) (u8At p 5) (u8At p 6) (u8At p 7) (u8At p 8))
  else none

/-- Families 09 and 0A (chapters 15, 17). -/
def requestSecure (h : Hdr) (op : Nat) (p : List Byte) (v : Verdicts) : Option Instr :=
  if op == 0x0901 then some (.nvRead h (u8At p 0) (u16At p 2) (u8At p 4) (u16At p 6))
  else if op == 0x0902 then some (.nvWrite h (u8At p 0) (u16At p 2) (u8At p 4) (p.drop 8) v.pfailAfter)
  else if op == 0x0903 then some (.sessionOpen h (u8At p 0) (u8At p 1) (u64At p 4))
  else if op == 0x0904 then some (.sessionClose h (u8At p 0) (u8At p 1))
  else if op == 0x0905 then some (.passwordSet h (u8At p 0) (u8At p 1) (u64At p 4) v.overtaken)
  else if op == 0x0906 then
    if u8At p 0 == 1 then some (.nvStatusAcknowledge h (u8At p 1) (u16At p 2)) else some (.nvStatusQuery h (u8At p 0 != 0))
  else if op == 0x0A01 then some (.tamperRead h)
  else if op == 0x0A02 then some (.tamperAck h (u32At p 0) (if p.length == 72 then some v.owner else none))
  else if op == 0x0A10 then some (.keyAgree h (p.take 64) (u8At p 64))
  else if op == 0x0A11 then
    if h.more || u8At p 0 == 1 then some (.provisionInstall h (if h.more then p else p.take (p.length - 64)) v.passwords v.owner) else some (.provisionGenerate h (u8At p 0 != 0))
  else none

/-- Families 0B to 0F (chapters 12, 18 to 20). -/
def requestHigh (h : Hdr) (op : Nat) (p : List Byte) (v : Verdicts) : Option Instr :=
  let a := u8At p 0
  if op == 0x0B01 then some (.netTx h a (u8At p 1) (u16At p 2) (p.drop 4))
  else if op == 0x0B02 then some (.netRxRead h)
  else if op == 0x0C01 then
    let item := u8At p 1
    if a == 1 then some (.displayShowItem h item) else if a == 2 then some (.displayResumeScroll h item)
    else if a == 3 then some (.segmentTest h item) else some (.displayQuery h (a != 0) item)
  else if op == 0x0C02 then some (.keyRead h a)
  else if op == 0x0D01 then some (.powerStatus h)
  else if op == 0x0E01 then some (.logRead h (u32At p 0) (u8At p 4))
  else if op == 0x0E10 then some (.updateBegin h p)
  else if op == 0x0E11 then some (.updateData h p)
  else if op == 0x0E12 then
    if a == 1 then some (.updateVerify h v.package) else if a == 2 then some (.updateAbort h)
    else some (.updateActivate h (a != 0) v.package)
  else if op == 0x0E13 then some (.updateStatus h)
  else if op == 0x0E20 then
    if a == 1 then some (.transplantRead h (u32At p 4) (u16At p 8)) else if a == 2 then some (.transplantDiscard h)
    else some (.transplantPrepare h (a != 0) (u64At p 4) ((p.drop 12).take 64) v.owner)
  else if op == 0x0E21 then
    some (.transplantImport h (if h.more then p else p.take (p.length - 64)) v.body v.owner v.source)
  else if op == 0x0F01 then
    if a == 0 then some (.testTdacOff h (u16At p 2) (u16At p 4)) else some (.testTdacOn h (a != 1) (u16At p 2) (u16At p 4))
  else if op == 0x0F02 then
    if u8At p 1 == 2 then some (.testOutputRelease h a (u16At p 2)) else some (.testOutputForce h a (u8At p 1) (u16At p 2))
  else none

/-- The command of a request packet: its OPCODE, on the lane that FLAGS bit 6 names, picks it, and an opcode that the lane does not
accept is answered UNKNOWN_OPCODE (R320, R335). None for HUSH, which is a frame of its own. -/
def requestOf (h : Hdr) (op : Nat) (p : List Byte) (v : Verdicts) : Option Instr :=
  if !acceptedOpcode h.bulk op then some (.unknownOpcode h op)
  else if op < 0x0300 then requestLow h op p
  else if op < 0x0400 then requestFilter h op p
  else if op < 0x0700 then requestStream h op p
  else if op < 0x0900 then requestTime h op p
  else if op < 0x0B00 then requestSecure h op p v
  else requestHigh h op p v

end Sys2Proof.Machine
end

