-- ==== Sys2Proof/Tests/Bench.lean ====
section
/-! SUPPORT. Small states and packet headers that tests and witnesses are built from. -/

namespace Sys2Proof.Machine

/-- A control-lane packet of the host, with its LENGTH. -/
def ctl (n : Nat) : Hdr := ⟨.host, 1, false, false, n, false, none⟩

/-- A bulk-lane packet of the host. -/
def blk (n : Nat) : Hdr := ⟨.host, 1, true, false, n, false, none⟩

/-- A plain control-lane packet from the network. -/
def net (n : Nat) : Hdr := ⟨.net 0x0A000002 5000, 1, false, false, n, false, none⟩

/-- The device at stage 4 with every subsystem running, both links up, the servo LOCKED and no session. -/
def up4 : State := { State.reset with
  pw := { Power.reset with aonUp := true, vbat := true, phase := .metering, stage := 4, acct := true, pfail := false,
                           pfailReleased := true, buckVcore := true },
  te := { TimeEng.reset with running := true, cnt := 1800000000 * tickSec, servo := .locked, lockedOnce := true },
  wd := { Warden.reset with running := true, canopyRunning := true, dspRunning := true },
  nt := { Net.reset with up := true, ports := List.replicate 2 { Port.reset with link := 1 } },
  stands := List.replicate 4 { Stand.reset with st := 0 },
  tp := { Tamper.reset with trngOk := true, identity := some 1, wrapped := some 1, keySerial := 1, owner := some (zeros 64) },
  me := { Metro.reset with kernels := true, fromB1 := true },
  pq := { Pq.reset with running := true, agg := true },
  pm := { Pmu.reset with running := true } }

/-- The same with write sessions of the host on P1, P2, P4 and P5. -/
def sess4 : State := { up4 with se := { Sess.reset with
  open_ := [⟨1, true, .host⟩, ⟨2, true, .host⟩, ⟨4, true, .host⟩, ⟨5, true, .host⟩],
  pws := List.replicate 8 ⟨1, pwDigest 1234⟩ } }

/-- The device at stage 1, before the Warden runs. -/
def up1 : State := { State.reset with
  pw := { Power.reset with aonUp := true, vbat := true, phase := .metering, stage := 1, pfail := false, pfailReleased := true },
  te := { TimeEng.reset with running := true, cnt := 1800000000 * tickSec },
  tp := { Tamper.reset with trngOk := true } }

/-- An empty outbound stream is not full. -/
theorem streamFull_nil {h : Hdr} {s : State} (e : (if h.bulk then s.lk.bulkOut else s.lk.ctrlOut) = []) : streamFull s h = false := by
  simp only [streamFull, e, outBytes, List.foldl_nil, Bool.and_eq_false_iff, decide_eq_false_iff_not]; omega

end Sys2Proof.Machine
end

