-- ==== Sys2Proof/Tests/Slice0.lean ====
section
/-! SUPPORT. The smoke test of WellFormed, and tests on values that the spec works out itself or that are reckoned by hand from its
tables; the comment of each names where its expected value stands. -/

namespace Sys2Proof.Machine

set_option Elab.async false

/-! ### WellFormed: one ill-formed term for each check -/

def q : Hdr := ctl 0
def qTag : Hdr := { q with tag := 2 ^ 8 }
/-- A direct write with its CRC. -/
def dirWrite (a v : Nat) : List Byte := be 2 (0xC000 + a) ++ be 4 v ++ be 1 (crc8 (be 2 (0xC000 + a) ++ be 4 v))
def arm : ArmIn := ⟨0, 0, 0, 0, 0, 0⟩
def sig : SigIn := ⟨[], true⟩

/-- Every command of a list is ill formed. -/
def refused (l : List Instr) : Bool := l.all fun i => !i.wf

theorem test_ill_formed_headers : [{ q with path := .net (2 ^ 128) 0 }, { q with path := .net 0 (2 ^ 16) }, qTag,
    { q with len := 2 ^ 16 }, { q with bcast := true }, { q with sec := some (2 ^ 64, true) }].all (fun h => !h.wf) = true := by
  decide +kernel

theorem test_ill_formed_records : ([⟨2 ^ 8, 0, 0, 0, 0, 0⟩, ⟨0, 2 ^ 8, 0, 0, 0, 0⟩, ⟨0, 0, 2 ^ 8, 0, 0, 0⟩, ⟨0, 0, 0, 2 ^ 8, 0, 0⟩,
      ⟨0, 0, 0, 0, 2 ^ 80, 0⟩, ⟨0, 0, 0, 0, 0, 2 ^ 32⟩] : List ArmIn).all (fun a => !a.wf) = true ∧
    ([⟨2 ^ 128, 0, []⟩, ⟨0, 2 ^ 16, []⟩] : List PmuCmdIn).all
      (fun c => !c.wf) = true ∧
    frameShape (List.replicate 39 ⟨0, []⟩) = false ∧
    frameShape (List.replicate 40 ⟨2 ^ 960, []⟩) = false ∧
    frameShape (List.replicate 40 ⟨0, [960]⟩) = false ∧
    frameShape (List.replicate 40 ⟨2 ^ 960 - 1, [959]⟩) = true := by decide +kernel

theorem test_well_formed_extremes : [.setParam { q with len := 65535 } 65535 [], .sessionOpen q 255 255 (2 ^ 64 - 1),
    .timeSet q (2 ^ 80 - 1), .spiPacketFrame [255], .urmsHalfCycle 1,
    .keyAgree q (List.replicate 64 0) 255, .dspFrame [], .unknownOpcode q 65535, .refComparisonResult (2 ^ 32 - 1)].all Instr.wf = true := by decide +kernel

theorem test_ill_formed_1 : refused [
    .dspFrame [[]], .dspFrame (List.replicate 3 (List.replicate 40 ⟨0, []⟩)), .refComparisonResult (2 ^ 32), .refRebase qTag 0, .refRebase q (2 ^ 8),
    .coppiceQuery qTag 0 false, .coppiceQuery q (2 ^ 8) false, .coppicePause qTag 0, .coppicePause q (2 ^ 8),
    .coppiceRotate qTag 0, .coppiceRotate q (2 ^ 8), .coppicePin qTag 0 0, .coppicePin q (2 ^ 8) 0, .coppicePin q 0 (2 ^ 8),
    .coppiceUnpin qTag 0, .coppiceUnpin q (2 ^ 8), .coppiceShadow qTag 0 0, .coppiceShadow q (2 ^ 8) 0,
    .coppiceShadow q 0 (2 ^ 8), .coppiceRequalify qTag 0 0, .coppiceRequalify q (2 ^ 8) 0, .coppiceRequalify q 0 (2 ^ 8),
    .pathCheck qTag 0 false, .pathCheck q (2 ^ 8) false, .pathCheckBaseline qTag 0, .pathCheckBaseline q (2 ^ 8),
    .snapshotArm qTag 0 arm, .snapshotArm q (2 ^ 8) arm] = true := by
  decide +kernel

theorem test_ill_formed_2 : refused [
    .snapshotArm q 0 ⟨2 ^ 8, 0, 0, 0, 0, 0⟩, .seqStart qTag 0 arm [], .seqStart q (2 ^ 8) arm [],
    .seqStart q 0 ⟨2 ^ 8, 0, 0, 0, 0, 0⟩ [], .seqStart q 0 arm [0, 2 ^ 8], .filterStop qTag 0, .filterStop q (2 ^ 8),
    .filterLoad qTag 0 false [], .filterLoad q (2 ^ 8) false [], .filterStart qTag 0, .filterStart q (2 ^ 8),
    .bankWrite qTag 0 [], .bankWrite q (2 ^ 8) [], .bankSwap qTag 0 0 0, .bankSwap q (2 ^ 8) 0 0, .bankSwap q 0 (2 ^ 16) 0,
    .bankSwap q 0 0 (2 ^ 16), .queueStreamStart qTag 0 false, .queueStreamStart q (2 ^ 8) false, .queueStreamStop qTag 0,
    .queueStreamStop q (2 ^ 8), .queueRead qTag 0 0, .queueRead q (2 ^ 16) 0, .queueRead q 0 (2 ^ 16),
    .recorderQuery qTag 0 false, .recorderQuery q (2 ^ 8) false, .recorderArm qTag 0, .recorderArm q (2 ^ 8)] = true := by
  decide +kernel

theorem test_ill_formed_3 : refused [
    .recorderStop qTag 0, .recorderStop q (2 ^ 8), .recorderTrigger qTag 0, .recorderTrigger q (2 ^ 8),
    .captureRead qTag 0 0 0 0, .captureRead q (2 ^ 8) 0 0 0, .captureRead q 0 (2 ^ 32) 0 0,
    .captureRead q 0 0 (2 ^ 32) 0, .captureRead q 0 0 0 (2 ^ 16), .captureRelease qTag 0 0, .captureRelease q (2 ^ 8) 0,
    .captureRelease q 0 (2 ^ 32), .captureReadTimeout 0 (2 ^ 32), .energyRead qTag 0 0 0 0 0, .energyRead q (2 ^ 8) 0 0 0 0,
    .energyRead q 0 (2 ^ 8) 0 0 0, .energyRead q 0 0 (2 ^ 8) 0 0, .energyRead q 0 0 0 (2 ^ 8) 0,
    .energyRead q 0 0 0 0 (2 ^ 16), .demandReset qTag 0, .demandReset q (2 ^ 8), .cfTestStart qTag 0 0 false,
    .cfTestStart q (2 ^ 8) 0 false, .cfTestStart q 0 (2 ^ 16) false, .cfTestStop qTag] = true := by
  decide +kernel

theorem test_ill_formed_4 : refused [
    .pqRead qTag 0 0 0 0 0, .pqRead q (2 ^ 8) 0 0 0 0, .pqRead q 0 (2 ^ 8) 0 0 0, .pqRead q 0 0 (2 ^ 8) 0 0,
    .pqRead q 0 0 0 (2 ^ 16) 0, .pqRead q 0 0 0 0 (2 ^ 16), .pqEventRead qTag 0 0, .pqEventRead q (2 ^ 32) 0,
    .pqEventRead q 0 (2 ^ 8), .pqArchiveRead qTag 0 0 0, .pqArchiveRead q (2 ^ 8) 0 0, .pqArchiveRead q 0 (2 ^ 8) 0,
    .pqArchiveRead q 0 0 (2 ^ 80), .pmuCmdDataOff ⟨2 ^ 128, 0, []⟩,
    .pmuCmdDataOn ⟨2 ^ 128, 0, []⟩, .pmuCmdSendCfg2 ⟨2 ^ 128, 0, []⟩,
    .pmuCmdIgnored ⟨2 ^ 128, 0, []⟩, .pmuRead qTag 0 0, .pmuRead q (2 ^ 8) 0, .pmuRead q 0 (2 ^ 8),
    .pmuStart qTag false, .pmuStop qTag, .pmuSendCfg2 qTag, .timeGet qTag, .timeSet qTag 0, .timeSet q (2 ^ 80),
    .timeOffset qTag 0 0 0] = true := by
  decide +kernel

theorem test_ill_formed_5 : refused [
    .timeOffset q 0 (2 ^ 80) 0, .timeOffset q 0 0 (2 ^ 64), .timeAcceptStep qTag, .txtsRead qTag 0, .txtsRead q (2 ^ 8),
    .blazeArm qTag 0 false 0 0 0 0 0, .blazeArm q (2 ^ 8) false 0 0 0 0 0, .blazeArm q 0 false (2 ^ 8) 0 0 0 0,
    .blazeArm q 0 false 0 (2 ^ 80) 0 0 0, .blazeArm q 0 false 0 0 (2 ^ 64) 0 0, .blazeArm q 0 false 0 0 0 (2 ^ 32) 0,
    .blazeArm q 0 false 0 0 0 0 (2 ^ 32), .blazeDisarm qTag 0 0 0, .blazeDisarm q (2 ^ 8) 0 0, .blazeDisarm q 0 (2 ^ 8) 0,
    .blazeDisarm q 0 0 (2 ^ 80), .notchRead qTag 0 0, .notchRead q (2 ^ 8) 0, .notchRead q 0 (2 ^ 8), .netTx qTag 0 0 0 [],
    .netTx q (2 ^ 8) 0 0 [], .netTx q 0 (2 ^ 8) 0 [], .netTx q 0 0 (2 ^ 16) [], .netRxRead qTag] = true := by
  decide +kernel

theorem test_ill_formed_6 : refused [
    .resume (.network qTag), .unknownOpcode qTag 0, .unknownOpcode q 0x0101, .unknownOpcode (blk 0) 0x0402,
    .unknownOpcode q (2 ^ 16), .nop qTag [], .identify qTag, .getParam qTag 0 0, .getParam q (2 ^ 16) 0,
    .getParam q 0 (2 ^ 8), .setParam qTag 0 [], .setParam q (2 ^ 16) [], .getParams qTag 0 0 0 0 [],
    .getParams q (2 ^ 8) 0 0 0 [], .getParams q 0 (2 ^ 8) 0 0 [], .getParams q 0 0 (2 ^ 16) 0 [],
    .getParams q 0 0 0 (2 ^ 16) [], .getParams q 0 0 0 0 [0, 2 ^ 16], .setParams qTag 0 [], .setParams q (2 ^ 16) [],
    .setParams q 0 [(0, []), (2 ^ 16, [])], .commitParams qTag, .commit qTag, .defaults qTag 0, .defaults q (2 ^ 8)] = true := by
  decide +kernel

theorem test_ill_formed_7 : refused [
    .discardParams qTag, .getStage qTag, .softRestart qTag 0, .softRestart q (2 ^ 8), .nvRead qTag 0 0 0 0,
    .nvRead q (2 ^ 8) 0 0 0, .nvRead q 0 (2 ^ 16) 0 0, .nvRead q 0 0 (2 ^ 8) 0, .nvRead q 0 0 0 (2 ^ 16),
    .nvWrite qTag 0 0 0 [] none, .nvWrite q (2 ^ 8) 0 0 [] none, .nvWrite q 0 (2 ^ 16) 0 [] none,
    .nvWrite q 0 0 (2 ^ 8) [] none, .sessionOpen qTag 0 0 0, .sessionOpen q (2 ^ 8) 0 0, .sessionOpen q 0 (2 ^ 8) 0,
    .sessionOpen q 0 0 (2 ^ 64), .sessionClose qTag 0 0, .sessionClose q (2 ^ 8) 0, .sessionClose q 0 (2 ^ 8),
    .passwordSet qTag 0 0 0 true, .passwordSet q (2 ^ 8) 0 0 true, .passwordSet q 0 (2 ^ 8) 0 true, .passwordSet q 0 0 (2 ^ 64) true,
    .nvStatusQuery qTag false, .nvStatusAcknowledge qTag 0 0, .nvStatusAcknowledge q (2 ^ 8) 0,
    .nvStatusAcknowledge q 0 (2 ^ 16)] = true := by
  decide +kernel

theorem test_ill_formed_8 : refused [
    .sessionTimeout (.net (2 ^ 128) 0) 0 false, .sessionTimeout .host (2 ^ 8) false, .rtcGet qTag,
    .rtcSet qTag 0 0 0 0 0 0 0, .rtcSet q (2 ^ 8) 0 0 0 0 0 0, .rtcSet q 0 (2 ^ 16) 0 0 0 0 0, .rtcSet q 0 0 (2 ^ 8) 0 0 0 0,
    .rtcSet q 0 0 0 (2 ^ 8) 0 0 0, .rtcSet q 0 0 0 0 (2 ^ 8) 0 0, .rtcSet q 0 0 0 0 0 (2 ^ 8) 0,
    .rtcSet q 0 0 0 0 0 0 (2 ^ 8), .osfClear qTag 0, .osfClear q (2 ^ 8), .alAck qTag 0 0, .alAck q 0 (2 ^ 8),
    .scrubRead ⟨false, [⟨131072, 1, false⟩]⟩, .scrubRead ⟨false, [⟨0, 0, false⟩]⟩, .scrubRead ⟨false, [⟨0, 2 ^ 39, false⟩]⟩, .tamperRead qTag, .tamperAck qTag 0 none, .tamperAck q (2 ^ 32) none,
    .keyAgree qTag (List.replicate 64 0) 0, .keyAgree q (List.replicate 64 0) (2 ^ 8), .keyAgree q [0] 0,
    .provisionGenerate qTag false, .provisionInstall qTag [] none sig, .provisionInstall q [] (some [0]) sig,
    .sensorSample 0 (2 ^ 32), .logRead qTag 0 0, .logRead q (2 ^ 32) 0] = true := by
  decide +kernel

theorem test_ill_formed_9 : refused [
    .logRead q 0 (2 ^ 8), .updateBegin qTag [], .updateData qTag [], .updateActivate qTag false false,
    .updateVerify qTag false, .updateAbort qTag, .updateStatus qTag, .transplantPrepare qTag false 0 [] sig,
    .transplantPrepare q false (2 ^ 64) [] sig, .transplantRead qTag 0 0, .transplantRead q (2 ^ 32) 0,
    .transplantRead q 0 (2 ^ 16), .transplantDiscard qTag, .transplantImport qTag [] none sig false, .powerStatus qTag,
    .displayQuery qTag false 0, .displayQuery q false (2 ^ 8), .displayShowItem qTag 0, .displayShowItem q (2 ^ 8),
    .displayResumeScroll qTag 0, .displayResumeScroll q (2 ^ 8), .segmentTest qTag 0, .segmentTest q (2 ^ 8),
    .keyRead qTag 0, .keyRead q (2 ^ 8), .testTdacOn qTag false 0 0, .testTdacOn q false (2 ^ 16) 0] = true := by
  decide +kernel

theorem test_ill_formed_10 : refused [
    .testTdacOn q false 0 (2 ^ 16), .testTdacOff qTag 0 0, .testTdacOff q (2 ^ 16) 0, .testTdacOff q 0 (2 ^ 16),
    .testOutputForce qTag 0 0 0, .testOutputForce q (2 ^ 8) 0 0, .testOutputForce q 0 (2 ^ 8) 0,
    .testOutputForce q 0 0 (2 ^ 16), .testOutputRelease qTag 0 0, .testOutputRelease q (2 ^ 8) 0,
    .testOutputRelease q 0 (2 ^ 16), .ownerAnswerTimeout qTag 0 0, .ownerAnswerTimeout q (2 ^ 16) 0,
    .ownerAnswerTimeout q 0 (2 ^ 8)] = true := by
  decide +kernel

/-! ### Words on the wire -/

/-- The CRC-16 of the GET_STAGE request and its UART frame (chapter 13, the examples of Tables 13-5 and R307). -/
theorem test_get_stage_request : packet 0x01 0x07 0x0120 0x123 [] = [0x01, 0x07, 0x20, 0x01, 0, 0, 0x23, 0x01, 0x64, 0xB3] ∧
    cobs (packet 0x01 0x07 0x0120 0x123 []) ++ [0] =
      [0x05, 0x01, 0x07, 0x20, 0x01, 0x01, 0x05, 0x23, 0x01, 0x64, 0xB3, 0x00] := by decide +kernel

/-- STAGE reads 4 with ACCT set, and GET_STAGE answers it (Table 13-5, frame 2). -/
theorem test_get_stage_answers : stageWord up4 = 0x14 ∧
    (match exec (.getStage (ctl 0)) up4 with | .next t => t.lk.ctrlOut | _ => []) =
      [packet 0x81 1 0x0120 0 [0, 0, 0x14, 0, 0, 0]] := by
  simp only [exec, execGetStage]
  rw [serve_of_idle (s := up4) rfl]
  unfold serveNow
  rw [streamFull_nil rfl]
  decide +kernel

/-- A single P entry and a snapshot marker (Table 7-3). -/
theorem test_queue_entries :
    pEntry 13 0x08 (1800000000 * tickSec + 10427 * 40000 * 65536) 2103456 = [0x340828BB, 0x002018A0, 0x6B49D200, 0x63700000] ∧
    xRec 60 0x10 (ofSigned 16 (-2048) * 65536 + 21709) (1800000000 * tickSec + 417093250 * 65536) =
      [0xF2101682, 0xF80054CD, 0x6B49D200, 0x63710000] := by decide +kernel

/-- Word accesses of a write of 12 bytes at offset 250 (Table 15-4). -/
theorem test_wrapping_write_words : wordChunks 250 12 = [2, 4, 4, 2] := by decide +kernel

/-- An NV_WRITE cut after two words leaves six bytes and answers how many (Tables 15-4 and 15-5). -/
theorem test_cut_nv_write :
    (match exec (.nvWrite (ctl 20) 5 7 250 [0xA0, 0xA1, 0xA2, 0xA3, 0xA4, 0xA5, 0xA6, 0xA7, 0xA8, 0xA9, 0xAA, 0xAB] (some 2)) sess4 with
      | .next t => rdBytes t.hw.mem (pageAddr 5 7 + 248) 8 | _ => []) = [0, 0, 0xA0, 0xA1, 0xA2, 0xA3, 0xA4, 0xA5] := by
  simp only [exec, execNvWrite]
  rw [serve_of_idle (s := sess4) rfl]
  unfold serveNow
  rw [streamFull_nil rfl]
  decide +kernel

/-! ### Numbers and time -/

/-- Codes of binary32 and the weekday of the power-up date (IEEE 754; Table 16-1). -/
theorem test_codes : f32OfRat 1 = 0x3F800000 ∧ f32OfRat (1 / 10) = 0x3DCCCCCD ∧ f32OfRat (-2) = 0xC0000000 ∧
    calWeekday Cal.powerUp = 6 := by decide +kernel

/-- The first edge of the 25 kHz strobe (chapter 11, example after R270). -/
theorem test_first_edge :
    firstEdge (1800000000 * tickSec + 250000000 * 65536) 40000 (1800000000 * tickSec + 750003100 * 65536) 512000 =
      1800000000 * tickSec + 750040000 * 65536 := by decide +kernel

/-- A one-shot in the past is answered TIME_PAST, and with LATE_OK fires at the next TIME cycle (the same example, R268). -/
theorem test_past_one_shot :
    (match exec (.blazeArm (ctl 32) 2 false 0 (time80 (1700000000 * tickSec)) 0 2000 1) up4 with
      | .next t => ((t.lk.ctrlOut.getD 0 []).drop 8).take 2 | _ => []) = [0x03, 0x03] ∧
    (match exec (.blazeArm (ctl 32) 2 false 1 (time80 (1700000000 * tickSec)) 0 2000 1) up4 with
      | .next t => (t.blaze 2).next | _ => 0) = 1800000000 * tickSec + 512000 := by
  refine ⟨?_, ?_⟩ <;> simp only [exec, execBlazeArm] <;> rw [serve_of_idle (s := up4) rfl] <;> unfold serveNow <;>
    rw [streamFull_nil rfl] <;> decide +kernel

/-- Quadrants (Table 8-1). -/
theorem test_quadrants : quadrant 1 1 = 0 ∧ quadrant (-1) 1 = 1 ∧ quadrant (-1) (-1) = 2 ∧ quadrant 1 (-1) = 3 := by
  decide +kernel

/-- Estimate in HOLDOVER, 4 s after an offset with 40 ns held (Table 11-4). -/
theorem test_holdover_estimate :
    teEst { up4 with clk := 512000000, te := { up4.te with servo := .holdover, holdEst := some 40 } } = 440 := by decide +kernel

/-! ### Parameters (Tables 14-15 and 14-16) -/

/-- CREEP_UW and PULSE_UWH of CF0 with a pulse weight below 1,000: VALUE_RANGE with INDEX 1, nothing staged. -/
theorem test_set_params_refused :
    (match exec (.setParams (ctl 24) 2 [(0x1002, [0x00, 0x2D, 0x31, 0x01]), (0xD004, [0xF4, 0x01, 0, 0, 0, 0, 0, 0])]) sess4 with
      | .next t => (t.pr.pending, ((t.lk.ctrlOut.getD 0 []).drop 8).take 4) | _ => ([(0, 0)], [])) = ([], [0x05, 0x01, 1, 0]) := by
  simp only [exec, execSetParams]
  rw [serve_of_idle (s := sess4) rfl]
  unfold serveNow
  rw [streamFull_nil rfl]
  decide +kernel

/-- The corrected request is staged whole. -/
theorem test_set_params_staged :
    (match exec (.setParams (ctl 24) 2 [(0x1002, [0x00, 0x2D, 0x31, 0x01]), (0xD004, [0x00, 0xC2, 0xEB, 0x0B, 0, 0, 0, 0])]) sess4 with
      | .next t => (t.pr.pending, par t 0xD004) | _ => ([], 0)) = ([(0x1002, 20000000), (0xD004, 200000000)], 1000000000) := by
  simp only [exec, execSetParams]
  rw [serve_of_idle (s := sess4) rfl]
  unfold serveNow
  rw [streamFull_nil rfl]
  decide +kernel

/-! ### Alarms and the calendar (Table 16-4) -/

/-- Direct writes of HOUR and MIN are staged, SEC commits them; an alarm jumped over acts once with SKIPPED. -/
def yard : State := { up4 with rtc := { Rtc.reset with
  cal := ⟨0, 31, 58, 1, 14, 3, 26⟩, osf := true,
  alarms := [Alarm.reset, { Alarm.reset with cfg := 0x19, mtch := 0x2000, mask := 7 }, Alarm.reset, Alarm.reset] } }

theorem test_sec_commit :
    (match exec (.calendarStageWrite (dirWrite 0x1B 2)) yard with
      | .next a => match exec (.calendarStageWrite (dirWrite 0x1A 12)) a with
        | .next b => match exec (.calendarSecCommit (dirWrite 0x19 6)) b with
          | .next t => (t.rtc.cal, (t.alarm 1).skipped, (t.alarm 1).count) | _ => (Cal.powerUp, false, 0)
        | _ => (Cal.powerUp, false, 0)
      | _ => (Cal.powerUp, false, 0)) = (⟨0, 6, 12, 2, 14, 3, 26⟩, true, 1) := by decide +kernel

/-! ### Stages, tamper and faults -/

/-- Before the Warden runs a control request is answered NOT_IN_STAGE and a bulk request dropped (Table 2-5). -/
theorem test_stage_one_answers :
    (match exec (.timeGet (ctl 0)) up1 with | .next t => ((t.lk.ctrlOut.getD 0 []).drop 8).take 2 | _ => []) = [0x03, 0x02] ∧
    (match exec (.nvRead (blk 8) 5 0 0 4) up1 with | .next t => t.lk.bulkOut | _ => [[]]) = [] := by
  refine ⟨?_, ?_⟩ <;> simp only [exec, execTimeGet, execNvRead] <;> rw [serve_of_idle (s := up1) rfl] <;> unfold serveNow <;>
    rw [streamFull_nil rfl] <;> decide +kernel

/-- At stage 0 a request has no effect (R27). -/
theorem test_stage_zero : exec (.timeGet (ctl 0)) State.reset = .next State.reset := rfl

/-- MCOV opens at stage 0 with response CLEAR and has held for its persistence time: slot 1 is buffered, the identity key is gone and
the Clearing is left pending (Table 17-10). -/
theorem test_front_removed :
    (let s := { State.reset with pw := { Power.reset with aonUp := true, vbat := true },
                                 tp := { Tamper.reset with identity := some 1, slots := modAt Tamper.reset.slots 1 fun x =>
                                   { x with resp := 3, aonResp := 3 } } }
     match exec (.tamperEvaluation ⟨6, (800, 800), (3300, 3300)⟩) s with
     | .next t => match exec (.tamperPersistExpiry 1) { t with clk := t.clk + 300000 * 128000 } with
       | .next u => (u.tp.identity, u.tp.clearPending, u.tp.buffer.map (·.1), (t.slot 1).latched, (u.slot 1).latched)
       | _ => (some 0, false, [], false, false)
     | _ => (some 0, false, [], false, false)) = (none, true, [1], false, true) := by decide +kernel

/-- A pulse of the strobe: the edge sets the pulse, the end clears it, and the next edge lies one period on (R267). -/
theorem test_blaze_pulse :
    (let s := up4.onBlaze 1 fun _ => ⟨true, false, false, false, false, 5, 40000, 2000, 0, 0, 7, false, 0⟩
     match exec (.blazeEdge 1) s with
     | .next t => ((t.blaze 1).pulse, (t.blaze 1).edges, (t.blaze 1).next) | _ => (false, 0, 0)) = (true, 1, 7 + 40000 * 65536) := by
  decide +kernel

/-- HUSH by a direct write on SPI: source 1, own bulk dropped (Table 13-8, R313). -/
theorem test_hush :
    (match exec (.hush (.host (dirWrite 0x06 1))) { up4 with lk := { up4.lk with bulkOut := [[1, 2]] } } with
      | .next t => (t.lk.hushed, t.lk.hushSrc, t.lk.bulkOut) | _ => (false, 0, [[]])) = (true, 1, []) := by decide +kernel

/-- An OPEN password opens a write session with any value, a CLEARED one opens none and the failure is counted (Table 15-6, R350). -/
def clearedP4 : State := { up4 with se := { up4.se with pws := List.replicate 8 ⟨2, []⟩ } }

theorem test_sessions :
    (match exec (.sessionOpen (ctl 12) 2 1 1234) up4 with | .next t => t.se.open_ | _ => []) = [⟨2, true, .host⟩] ∧
    (match exec (.sessionOpen (ctl 12) 2 1 1234) clearedP4 with | .next u => (u.se.open_, (lockOf u 2).fails) | _ => ([], 0)) =
      ([], 1) := by
  refine ⟨?_, ?_⟩ <;> simp only [exec, execSessionOpen] <;> rw [serve_of_idle rfl] <;> unfold serveNow <;>
    rw [streamFull_nil rfl] <;> decide +kernel

/-- A frame without its forty converters is malformed. -/
theorem test_malformed : (match exec (.dspFrame []) up4 with | .fault _ => true | _ => false) = true := by
  decide +kernel

/-- A step takes the front command and leaves the rest of the queue waiting. -/
theorem test_step_takes_front :
    (match step { up4 with pending := [.linkDown 0, .timeGet (ctl 0)] } with
      | .next t => t.pending | _ => []) = [.timeGet (ctl 0)] := by decide +kernel

end Sys2Proof.Machine
end

