-- ==== Sys2Proof/Tests/Witness.lean ====
section
/-! SUPPORT. For every statement with hypotheses, states and operands that meet the hypotheses of each of its clauses, at the end
of a range where a clause has one. -/

namespace Sys2Proof.Machine

set_option Elab.async false

/-- The three states of the bench, long after each of their clocks, with a block boundary at hand. -/
def late (s : State) : State := { s with
  clk := 2 ^ 60
  pw := { s.pw with stage2At := some 0, stage3At := some 0 }
  te := { s.te with cnt := 1800000000 * tickSec + 34 * pTick } }
def old4 : State := late up4
def oldS : State := late sess4
def old1 : State := late up1

/-- A log entry, and a log buffer with one place left. -/
def entry0 : LogEntry := ⟨0, 0x0102, zeros 14, 0, 0⟩
def log255 : List LogEntry := List.replicate 255 entry0

/-- Tamper source 0 is latched with the response LOCK. -/
def lockedUp : State := { oldS with tp := { oldS.tp with
  slots := modAt oldS.tp.slots 0 fun x => { x with latched := true, resp := 2 } } }

/-- P1 to P5 are locked out. -/
def lockedAll : State := { oldS with se := { oldS.se with 
  locks := List.replicate 6 { Lockout.reset with lockS := 60, lockClk := 2 ^ 60 } } }

/-- Every sensor has differed from its health bit twice; the log buffer has one place left. -/
def sensorRunUp : State := { old4 with wd := { old4.wd with
  sensorRun := List.replicate 12 2, buffer := log255 } }

/-- A package of zeros of a kind and length, its header signed by root key 0, or by the owner. -/
def updKey (kind : Nat) : List Byte := if kind < 4 then fitBytes 64 (Config.rootKey 0) else zeros 64
def updHeader (kind n : Nat) : List Byte :=
  (le 2 0x5550 ++ le 1 kind ++ le 1 (if kind < 4 then 0 else 0xFF) ++ zeros 8 ++ le 4 n) ++ (sha256 (zeros n) ++
    ((le 2 0x3640 ++ le 2 0x0A01 ++ zeros 12) ++ (updKey kind ++ zeros 64)))
def plainHeader (n : Nat) : List Byte := le 2 0x5550 ++ zeros 10 ++ le 4 n ++ zeros 32 ++ le 2 0x3640 ++ le 2 0x0A01 ++ zeros 140
def loadedUp (kind : Nat) : State :=
  { old4 with up := { old4.up with st := 2, header := updHeader kind 480, payload := zeros 480 } }

/-- A TRANSPLANT package for this device: its length, MAGIC, version and target, and the body that it deciphers to. -/
def importBytes : List Byte := le 4 256 ++ (le 2 0x5450 ++ le 2 1 ++ zeros 8) ++ le 8 Config.uniqueId ++ zeros 236
def importBody : List Byte := le 4 0 ++ le 4 16384 ++ zeros 16384 ++ le 4 0 ++ le 4 0

/-- A word of each of some pages of the store is stuck inverted. -/
def stuckAt (s : State) (page n : Nat) : State := { s with hw := { s.hw with
  flips := (List.range n).map fun i => ⟨64 * (page + i) + 1, 255, true⟩ } }

/-- The bytes of a direct write with the right CRC and with a wrong one, and of a direct read. -/
def dw (a v : Nat) : List Byte := be 2 (0xC000 + a) ++ be 4 v ++ be 1 (crc8 (be 2 (0xC000 + a) ++ be 4 v))
def dwBad (a v : Nat) : List Byte := be 2 (0xC000 + a) ++ be 4 v ++ be 1 (255 - crc8 (be 2 (0xC000 + a) ++ be 4 v))
def dr (a : Nat) : List Byte := be 2 (0x8000 + a) ++ zeros 5

/-- A control packet for every node. -/
def reqPkt (op : Nat) (params : List Byte) : List Byte := packet 1 7 op 0xFFF params

/-- The interface is the UART. -/
def uart (s : State) : State := { s with pw := { s.pw with hsel := true } }

/-- A frame with its FCS. -/
def frameOf (b : List Byte) : FrameIn := ⟨b ++ le 4 (fcs b), 2 ^ 20, 3⟩

/-- A plain frame from station 2 to station 6, an HSR frame from a sender, and an untagged PTP message. -/
def ethFrame : List Byte := be 6 6 ++ be 6 2 ++ be 2 0x0800 ++ zeros 46
def hsrFrame (src type seq : Nat) : List Byte :=
  be 6 0x01154E000100 ++ be 6 src ++ be 2 0x892F ++ be 2 50 ++ be 2 seq ++ be 2 type ++ zeros 40
def ptpBody (type flags seq : Nat) (rest : List Byte) : List Byte :=
  be 1 type ++ be 1 2 ++ be 2 54 ++ zeros 2 ++ be 2 flags ++ zeros 8 ++ zeros 4 ++ be 10 1 ++ be 2 seq ++ be 1 5 ++ be 1 0x7F ++ rest
def ptpFrame (b : List Byte) : List Byte := be 6 0x0180C200000E ++ be 6 2 ++ be 2 0x88F7 ++ b

/-- A datagram over IPv4 to port 47310 of every station. -/
def udpBytes (d : List Byte) : List Byte :=
  be 6 0xFFFFFFFFFFFF ++ be 6 2 ++ be 2 0x0800 ++ be 2 0x4500 ++ be 2 (28 + d.length) ++ zeros 4 ++ be 2 0x4011 ++ zeros 2 ++
    be 4 0x0A000002 ++ be 4 0xFFFFFFFF ++ be 2 5000 ++ be 2 47310 ++ be 2 (8 + d.length) ++ zeros 2 ++ d ++ zeros (18 - d.length)

/-- Every stand, every capture unit, and both buses as given. -/
def standsAll (s : State) (d : Stand) : State := { s with stands := List.replicate 4 d }
def unitsAll (u : CapUnit) : State := { old4 with units := List.replicate 4 u }
def busesAll (b : PqBus) : State := { old4 with pq := { old4.pq with buses := List.replicate 2 b } }

/-- Staged fields: 30 or 31 November 2026, 23:59. -/
def stagedUp (day : Nat) : State := { old4 with rtc := { old4.rtc with
  stMin := some 59, stHour := some 23, stDay := some day, stMonth := some 11, stYear := some 26 } }

/-- The time counter enters a second, with LEAP as given. -/
def leapUp (leap n : Nat) : State :=
  { old4.setPar 0x380E leap with te := { old4.te with cnt := n * tickSec } }

/-- The first overlap of channel 35 is over, with a match at rest. -/
def matchUp : State :=
  let d := { Stand.reset with st := 0, phase := 0, spareChan := 35, n := 19999, pairs := [(2000000, 2000000)] }
  { standsAll old4 d with pq := { old4.pq with buses := List.replicate 2 { PqBus.reset with f1 := 0 } } }

/-- The overlap out of channel 35 is over with the given pairs, and both converters are settled. -/
def backStand (l : List (Rat × Rat)) : Stand :=
  { Stand.reset with st := 0, phase := 2, spareChan := 35, n := 160000, pairs := l }
def backUp (l : List (Rat × Rat)) : State := { standsAll old4 (backStand l) with
  convs := List.replicate 40 { Conv.reset with unsP := 0, unsW := 0 }
  pq := { old4.pq with buses := List.replicate 2 { PqBus.reset with f1 := 0 } } }

/-- The same at the end of a requalification, with nothing to go by. -/
def requalBackUp : State :=
  { backUp [] with stands := List.replicate 4 { backStand [(0, 0)] with requalBack := true } }

/-- An instant of the stream that is due. -/
def dueUp : StreamDue := ⟨⟨0, [], [], [], []⟩, 0, 0, false⟩

/-- A rest on channel 35 of stand 3 with the given measurements, and a requalification of its converter with them. -/
def restUp (m : List (Nat × Int)) : State := { old4 with
  stands := List.replicate 4 { Stand.reset with st := 0, phase := 1, spareChan := 35, n := 138750, meas := m } }
def requalUp (m : List (Nat × Int)) : State := { old4 with
  stands := List.replicate 4 { Stand.reset with st := 3, requal := some 35, meas := m } }

/-- Measurements that find the gain and the line that the converter has, and measurements that find neither. -/
def goodMeas : List (Nat × Int) :=
  [(levelTo 0 - levelFrom 0, 0), (levelTo 1 - levelFrom 1, 3145728 * ((levelTo 1 - levelFrom 1 : Nat) : Int)),
   (levelTo 2 - levelFrom 2, -3145728 * ((levelTo 2 - levelFrom 2 : Nat) : Int))] ++ List.replicate 5 (levelTo 3 - levelFrom 3, 0)
def badMeas : List (Nat × Int) :=
  List.replicate 3 (levelTo 0 - levelFrom 0, 0) ++ List.replicate 5 (levelTo 3 - levelFrom 3, 0)

/-- One instant of the stream with every channel at the same value. -/
def wave0 (n : Nat) : Wave :=
  ⟨n, 0, List.replicate 36 1000, List.replicate 36 (List.replicate 15 0), 0, 0, [], [], 0, false⟩

/-- The largest coefficient set: 128 taps and two biquads. -/
def bigSet : List Byte := [128, 2] ++ zeros 558

/-- One cycle of the reference in the 10 s interval that ends. -/
def freqUp : State := { busesAll { PqBus.reset with crosses := [5000, 0] } with
  wave := [{ wave0 5000 with t := 1800000000 * tickSec }] }

/-- A half-cycle of both buses ends at place 250; events are open, and the voltage is high where one is. -/
def dipUp (l : List PqEvent) : State := { old4 with
  pq := { old4.pq with buses := [{ PqBus.reset with halfN := some 1000, open_ := l },
    { PqBus.reset with halfN := some 0, open_ := l }] },
  wave := [wave0 250, if l = [] then { wave0 249 with x := [] } else wave0 249] }

/-- The stream holds what the report of the first instant rests on. -/
def reportUp : State := { old4 with wave := List.replicate 801 (wave0 0) }

/-- The last place of the event ring holds the record of an event that was open when Canopy stopped. -/
def staleUp : State := { old4 with hw := { old4.hw with mem := wrBytes [] (eventAddr 1023) [0, 0, 0, 1, 1, 0, 0, 0] } }

/-- Commands of a client are taken; a command frame of it. -/
def pmuUp : State := (old4.setPar (pid 6 0 2) 4).setPar (pid 6 0 7) 7
def cmdBytes (w : Nat) : List Byte :=
  let b := be 2 0xAA41 ++ be 2 18 ++ be 2 7 ++ zeros 8 ++ be 2 w
  b ++ be 2 (crc16 b)
def pmuCmd (w : Nat) : PmuCmdIn := ⟨0xFFFF0A000002, 4712, cmdBytes w⟩

/-- Every link as given. -/
def portsAll (p : Port) : State := { old4 with nt := { old4.nt with ports := List.replicate 2 p } }

/-- The delays of both links are known, and a two-step Sync waits at each. -/
def syncUp : State := { portsAll { Port.reset with link := 1, peerDelay := some 0, syncWait := some ⟨1, 1, 0, 0⟩ } with
  te := { old4.te with txInt := [] } }

/-- The device has asked its neighbours for their delay and its request was stamped; a response waits for its follow-up. -/
def stampUp : TxEntry := ⟨requestId 65535, 0, false, 0⟩
def askedUp : State := { portsAll { Port.reset with link := 1, peerAsk := true, resp := some ⟨65535, 0, 0, 0⟩ } with
  te := { old4.te with txInt := [stampUp] } }

/-- Frames wait, and the reserve limiter holds them. -/
def reserveUp : State := { old4.setPar (pid 11 0 12) 100 with nt := { old4.nt with waiting := [rawFrame 7 .reply [] 3] } }

/-- HUSH is taken from the network, in LINE mode with IPv4 on, or not. -/
def hushNetUp (en : Nat) : State :=
  { (old4.setPar 0x5803 0x0A000001).setPar (pid 11 0 20) en with nt := { old4.nt with mode := 1 } }

/-- The outbound stream of the control lane is full. -/
def fullUp : State := { old4 with lk := { old4.lk with ctrlOut := [zeros (4090 + Config.streamSpare false)] } }

theorem fullUp_full : streamFull fullUp (ctl 0) = true := by
  simp [streamFull, fullUp, ctl, outBytes, zeros]

/-- Every tamper source waits for its persistence. -/
def persistUp : State := { old4 with tp := { old4.tp with
  slots := List.replicate 32 ⟨false, false, false, 0, 0, 1, 1, true, 0⟩ } }

/-- Every sequencer as given, with one instant of history. -/
def seqUp (q : Seq) : State := { old4 with seqs := List.replicate 4 q, hist := [⟨0, [], [], [], []⟩] }

/-- The spares shadow, settled, channel 35. -/
def shadowUp : State := { old4 with
  stands := List.replicate 4 { Stand.reset with st := 0, phase := 0, spareChan := 35, pairs := [(2000000, 2000000)] }
  pq := { old4.pq with buses := List.replicate 2 { PqBus.reset with f1 := 0 } }
  convs := List.replicate 40 { Conv.reset with unsP := 0, unsW := 0 } }

theorem importBytes_target :
    fieldAt (fragOf old4 (blk 324) 0x0E21 ++ importBytes) 16 8 = Config.uniqueId % 2 ^ 64 :=
  leVal_le 8 Config.uniqueId

theorem le_length (n v : Nat) : (le n v).length = n := by
  induction n generalizing v with
  | zero => rfl
  | succ n ih => simp [le, ih]

theorem sha256_length (b : List Byte) : (sha256 b).length = 32 := by simp [sha256]

theorem updKey_length (k : Nat) : (updKey k).length = 64 := by
  unfold updKey
  split
  · simp only [fitBytes, zeros, List.length_append, List.length_take, List.length_replicate]; omega
  · rfl

theorem updHeader_digest (k n : Nat) : ((updHeader k n).drop 16).take 32 = sha256 (zeros n) := by
  rw [updHeader, List.drop_left' (by simp [le_length, zeros]), List.take_left' (sha256_length _)]

theorem updHeader_key (k n : Nat) : ((updHeader k n).drop 64).take 64 = updKey k := by
  rw [updHeader, ← List.append_assoc, ← List.append_assoc,
    List.drop_left' (by simp [le_length, zeros, sha256_length]), List.take_left' (updKey_length k)]

theorem pair_of {α β : Type} {p : α × β} {b : β} (h : p.2 = b) : p = (p.1, b) := by cases h; rfl

theorem pair_with {α β : Type} {p : α × β} {a : α} (h : p.1 = a) : p = (a, p.2) := by cases h; rfl

/-- The package of every kind verifies. -/
theorem loadedUp_verifies {k : Nat} (hk : k = 0 ∨ k = 3 ∨ k = 4) : verifyFail ((loadedUp k).accepted (ctl 4)) true = none := by
  have e : ((loadedUp k).accepted (ctl 4)).up = (loadedUp k).up := rfl
  have s : signerOk ((loadedUp k).accepted (ctl 4)) = true := by
    rcases hk with rfl | rfl | rfl
    · simp only [signerOk, e]; rw [show (loadedUp 0).up.header = updHeader 0 480 from rfl, updHeader_key]
      simp [show (byteAt (updHeader 0 480) 3).toNat = 0 by decide +kernel, rootHash, updKey,
        show hdrKind (updHeader 0 480) = 0 by decide +kernel]
    · simp only [signerOk, e]; rw [show (loadedUp 3).up.header = updHeader 3 480 from rfl, updHeader_key]
      simp [show (byteAt (updHeader 3 480) 3).toNat = 0 by decide +kernel, rootHash, updKey,
        show hdrKind (updHeader 3 480) = 3 by decide +kernel]
    · simp only [signerOk, e]; rw [show (loadedUp 4).up.header = updHeader 4 480 from rfl, updHeader_key]
      decide +kernel
  have d : digestOk ((loadedUp k).accepted (ctl 4)) = true := by
    simp only [digestOk, e]; rw [show (loadedUp k).up.header = updHeader k 480 from rfl, updHeader_digest]
    simp only [show (loadedUp k).up.payload = zeros 480 from rfl, beq_self_eq_true, Bool.true_and, beq_iff_eq]
    rcases hk with rfl | rfl | rfl <;> decide +kernel
  simp only [verifyFail, s, d, e]
  rcases hk with rfl | rfl | rfl <;> decide +kernel

/-- A request opens where the rest of its checks pass and nothing waits in its outbound stream. -/
theorem opens {op : Op} {h : Hdr} {s : State} (e : (if h.bulk then s.lk.bulkOut else s.lk.ctrlOut) = [])
    (r : s.pr.committing = none ∧ 2 ≤ s.pw.stage ∧ op.minStage ≤ s.pw.stage ∧ (op.warden = true → s.wd.running = true) ∧
      consoleAbsent s h = false ∧ authentic s h = true ∧ (∀ b, op.bulk = some b → h.bulk = b) ∧
      consoleUnknown h op.code = false ∧ consoleShort (s.accepted h) h op.code = false ∧ (h.more = true → op.frag = true)) :
    Opens op h s :=
  ⟨r.1, streamFull_nil e, r.2⟩

theorem fcs_lt (b : List Byte) : fcs b < 2 ^ 32 := by
  have h1 (c : Nat) (hc : c < 2 ^ 32) : crc32Bit c < 2 ^ 32 := by
    unfold crc32Bit
    split
    · exact Nat.xor_lt_two_pow (by omega) (by decide)
    · omega
  have h2 : ∀ (l : List Nat) (c : Nat), c < 2 ^ 32 → l.foldl (fun c _ => crc32Bit c) c < 2 ^ 32 := by
    intro l
    induction l with
    | nil => exact fun _ h => h
    | cons _ _ ih => exact fun c h => ih _ (h1 c h)
  have h3 : ∀ (l : List Byte) (c : Nat), c < 2 ^ 32 → l.foldl crc32Byte c < 2 ^ 32 := by
    intro l
    induction l with
    | nil => exact fun _ h => h
    | cons x _ ih => exact fun c h => ih _ (h2 _ _ (Nat.xor_lt_two_pow h (by have := x.isLt; omega)))
  exact Nat.xor_lt_two_pow (h3 b _ (by decide)) (by decide)

theorem frameBody_frameOf (b : List Byte) : frameBody (frameOf b) = b := by
  simp [frameBody, frameOf, le_length]

theorem frameGood_frameOf {b : List Byte} (h : 60 ≤ b.length) : frameGood (frameOf b) = true := by
  have e : (frameOf b).bytes = b ++ le 4 (fcs b) := rfl
  have l := le_length 4 (fcs b)
  simp only [frameGood, frameBody_frameOf, e, List.length_append, l, fieldAt, Nat.add_sub_cancel, List.drop_left,
    Bool.and_eq_true, decide_eq_true_eq, beq_iff_eq]
  refine ⟨by omega, ?_⟩
  rw [List.take_of_length_le (by omega), leVal_le]
  exact (Nat.mod_eq_of_lt (fcs_lt b)).symm

theorem beVal_be (n v : Nat) : beVal (be n v) = v % 256 ^ n := by
  have h : ∀ l : List Byte, l.foldr (fun x y => y * 256 + x.toNat) 0 = leVal l := by
    intro l
    induction l with
    | nil => rfl
    | cons b r ih => simp only [List.foldr_cons, ih, leVal]; omega
  simp only [beVal, be, List.foldl_reverse, h, leVal_le]

theorem hsrFrame_src (v type seq : Nat) : (ethOf true (hsrFrame v type seq)).src = v % 2 ^ 48 :=
  beVal_be 6 v

theorem macAddr_lt : macAddr < 2 ^ 48 := Nat.mod_lt _ (by decide)

/-- A peer-delay message that answers the device's own request on PORT_A. -/
def respBody (type flags : Nat) : List Byte := ptpBody type flags 65535 (zeros 10 ++ be 10 (portIdentity 0) ++ zeros 10)

theorem ptpBody_asked (type flags seq v : Nat) : ptpAsked (ptpBody type flags seq (zeros 10 ++ be 10 v ++ zeros 10)) = v % 256 ^ 10 :=
  beVal_be 10 v

theorem portIdentity_lt {p : Nat} (hp : p < 2) : portIdentity p < 256 ^ 10 := by
  have h (m : Nat) (h : m < 281474976710656) : eui64 m * 65536 + (p + 1) < 1208925819614629174706176 := by
    unfold eui64; omega
  rw [portIdentity, show clockIdentity = eui64 macAddr from rfl]
  exact h _ macAddr_lt

theorem respBody_asked (type flags : Nat) : ptpAsked (respBody type flags) = portIdentity 0 := by
  rw [respBody, ptpBody_asked]
  exact Nat.mod_eq_of_lt (portIdentity_lt (by decide))

/-- A commit that is accepted. -/
theorem goes {h : Hdr} {s : State} (e : (if h.bulk then s.lk.bulkOut else s.lk.ctrlOut) = [])
    (r : 2 ≤ s.pw.stage ∧ authentic s h = true ∧ consoleAbsent s h = false ∧ consoleShort s h 0x0106 = false ∧ h.bulk = false ∧
      h.len = 0 ∧ h.more = false ∧ s.pr.pending.isEmpty = false ∧ (commitFail s h).isNone = true) : commitGoes s h = true := by
  simp [commitGoes, streamFull_nil e, r]

/-- Sixteen equal offsets agree. -/
theorem sixteen_agree (s : State) (x : Int) : consistent s (List.replicate 16 x) = true := by
  have h : (List.replicate 16 x).mergeSort (fun a b => a ≤ b) = List.replicate 16 x := by
    apply List.mergeSort_of_pairwise
    rw [List.pairwise_replicate]; simp
  simp only [consistent, median16, h, List.all_eq_true, decide_eq_true_eq]
  intro y hy
  obtain rfl := List.eq_of_mem_replicate hy
  simp [absQ]

/-- Three high half-cycles end a dip on bus 1. -/
def dipEv : PqEvent := ⟨0, 0, 1, 1023, 0, 0, 0, 0, 0, 0, [], 0xFF, 0⟩
def dipPars (l : List PqEvent) : State :=
  let s1 := (dipUp l).busAFirst 1 250
  s1.onPr fun q => { q with applied := (parsAt s1 (instantOf s1 250)).getD q.applied }

theorem dip_high (p : Nat) (x : Rat) (h : (urmsAt (dipPars [dipEv]) 1 250)[p]? = some x) :
    (pqPct (dipPars [dipEv]) 1 2 + pqPct (dipPars [dipEv]) 1 5) * dipRef (dipPars [dipEv]) 1 p ≤ x := by
  have e : urmsAt (dipPars [dipEv]) 1 250 = [1000, 1000, 1000] := by decide +kernel
  rw [e] at h
  rcases p with _ | _ | _ | p <;> cases h <;> decide +kernel

theorem witness_StepRunsTheFrontCommand :
    ∃ s : State, s.pending = [] :=
  ⟨State.reset, by decide +kernel⟩

theorem witness_StepKeepsTheInvariant :
    ∃ s t : State, s.Inv ∧ step s = .next t :=
  ⟨{ oldS with pending := [.segmentTestEnd] }, _, ⟨⟨by decide +kernel, by decide +kernel, by decide +kernel, by decide +kernel,
    by unfold State.Shape; decide +kernel⟩, rfl⟩⟩

theorem witness_WellFormedCommandsRun :
    ∃ c : Instr, ∃ s : State, c.wf = true ∧ (∀ f, c = .dspFrame f → framesFit s f = true) :=
  ⟨.keyAgree (ctl 68) (List.replicate 64 0xFF#8) 32, old4, by decide +kernel, fun _ h => nomatch h⟩

theorem witness_CommandsLeaveTheQueueAlone :
    ∃ c : Instr, ∃ s t : State, exec c s = .next t :=
  ⟨.segmentTestEnd, oldS, _, rfl⟩

theorem witness_StartSequenceRunsThroughPll :
    (∃ s : State, s.pw.phase = .off ∧ s.pw.restartWait = false) ∧
    (∃ s : State, s.pw.phase = .off ∧ s.pw.restartWait = true) ∧
    (∃ s : State, s.pw.phase = .started) ∧
    (∃ s : State, s.pw.phase = .vdd33 ∧ s.pw.buckVcore = true) ∧
    (∃ s : State, s.pw.phase = .vdd33 ∧ s.pw.buckVcore = false) ∧
    (∃ s : State, s.pw.phase = .vcore) ∧
    (∃ s : State, s.pw.phase = .crystal) :=
  ⟨⟨State.reset, by decide +kernel⟩,
   ⟨{ State.reset with pw := { State.reset.pw with restartWait := true } }, by decide +kernel⟩,
   ⟨{ State.reset with pw := { State.reset.pw with phase := .started } }, by decide +kernel⟩,
   ⟨{ State.reset with pw := { State.reset.pw with phase := .vdd33, buckVcore := true } }, by decide +kernel⟩,
   ⟨{ State.reset with pw := { State.reset.pw with phase := .vdd33 } }, by decide +kernel⟩,
   ⟨{ State.reset with pw := { State.reset.pw with phase := .vcore } }, by decide +kernel⟩,
   ⟨{ State.reset with pw := { State.reset.pw with phase := .crystal } }, by decide +kernel⟩⟩

theorem witness_LoaderAndModulatorsReachStageOne :
    (∃ s : State, s.pw.phase = .pll) ∧
    (∃ s : State, s.tp.clearPending = true ∧ s.pw.phase = .loaded ∧ memWf s.hw.mem = true) ∧
    (∃ s : State, s.pw.phase = .loaded) ∧
    (∃ s : State, s.pw.phase = .modulators ∧ s.pw.stage = 0 ∧ s.wd.buffer.length < 256 ∧ s.tp.slots.length = 32) :=
  ⟨⟨{ State.reset with pw := { State.reset.pw with phase := .pll } }, by decide +kernel⟩,
   ⟨{ State.reset with pw := { State.reset.pw with phase := .loaded }, tp := { Tamper.reset with clearPending := true, clearQueue
     := [⟨1, []⟩] } }, by decide +kernel⟩,
   ⟨{ State.reset with pw := { State.reset.pw with phase := .loaded } }, by decide +kernel⟩,
   ⟨{ State.reset with pw := { State.reset.pw with phase := .modulators }, wd := { Warden.reset with buffer := log255 } },
     by decide +kernel⟩⟩

theorem witness_AlwaysOnDomainKeepsAndLoses :
    (∃ s : State, s.pw.aonUp = false) ∧
    (∃ s : State, s.pw.aonUp = true) ∧
    (∃ s : State, s.pw.phase ≠ .off ∧ s.pw.phase ≠ .started) ∧
    (∃ s : State, s.pw.vauxWaiting = true ∧ s.after s.pw.tripClk (s.pw.restartDelayMs * cycMs) = true) ∧
    (∃ s : State, s.pw.vauxWaiting = false ∧ s.after s.pw.tripClk (s.pw.restartDelayMs * cycMs) = true) ∧
    (∃ s : State, 2 ≤ s.pw.stage ∧ s.pw.stage2At.any (s.after · (10 * cycS)) = true) :=
  ⟨⟨State.reset, by decide +kernel⟩,
   ⟨old1, by decide +kernel⟩,
   ⟨old1, by decide +kernel⟩,
   ⟨{ old1 with pw := { old1.pw with vauxWaiting := true } }, by decide +kernel⟩,
   ⟨old1, by decide +kernel⟩,
   ⟨{ old1 with pw := { old1.pw with stage := 2 } }, by decide +kernel⟩⟩

theorem witness_PowerFailAndCheckpoints :
    (∃ s : State, s.pw.stage ≠ 0 ∧ s.pw.pfail = false) ∧
    (∃ s : State, s.pw.stage ≠ 0 ∧ s.pw.pfail = true ∧ s.pw.pfailReleased = true ∧ s.after s.pw.failClk cycMs = true) ∧
    (∃ s : State, s.pw.phase ≠ .off ∧ s.pw.pfail = true) ∧
    (∃ s : State, ∃ c, s.hw.ckpt = some c ∧ (c.base = ledgerBase false ∨ c.base = ledgerBase true) ∧ c.image.length = 16384 ∧ memWf
      s.hw.mem = true) ∧
    (∃ s : State, ∃ h : Hdr, Opens opPowerStatus h s ∧ h.len = 0) :=
  ⟨⟨old1, by decide +kernel⟩,
   ⟨{ old1 with pw := { old1.pw with pfail := true, pfailReleased := true } }, by decide +kernel⟩,
   ⟨{ old1 with pw := { old1.pw with pfail := true } }, by decide +kernel⟩,
   ⟨{ old4 with hw := { old4.hw with ckpt := some ⟨ledgerBase true, 1, 1, zeros 16384⟩ } }, ⟨ledgerBase true, 1, 1, zeros 16384⟩,
     ⟨rfl, .inr rfl, List.length_replicate, by decide +kernel⟩⟩,
   ⟨old4, ctl 0, opens rfl (by decide +kernel), by decide +kernel⟩⟩

theorem witness_WardenDspAndCanopyStart :
    (∃ s : State, ∃ a o, s.pw.stage = 1 ∧ s.wd.running = false ∧ (s.bootKind 1 a o true).2.1 = true) ∧
    (∃ s : State, ∃ a o, s.pw.stage = 1 ∧ s.wd.running = false ∧ (s.bootKind 1 a o true).2.1 = false) ∧
    (∃ s : State, ∃ a o, 2 ≤ s.pw.stage ∧ s.wd.running = true ∧ s.me.kernels = false ∧ (s.bootKind 2 a o true).2.1 = true) ∧
    (∃ s : State, ∃ a o, 2 ≤ s.pw.stage ∧ s.wd.running = true ∧ s.me.kernels = false ∧ (s.bootKind 2 a o true).2.1 = false) ∧
    (∃ s : State, ∃ a o, s.pw.stage = 2 ∧ s.wd.running = true ∧ s.me.kernels = true ∧ s.wd.canopyRunning = false ∧ s.wd.backoff =
      none ∧ (s.bootKind 0 a o (s.wd.canopyRestarts == 0)).2.1 = true) ∧
    (∃ s : State, s.wd.canopyRunning = true ∧ atBlock s = true ∧ (s.wd.restartUnplanned = true ∨ s.wd.restartReq.isSome = true)) ∧
    (∃ s : State, ∃ n, s.wd.backoff = some n ∧ s.after s.wd.stopClk (n * cycS) = true) ∧
    (∃ s : State, s.after s.wd.unplannedClk (600 * cycS) = true) :=
  ⟨⟨old1, true, 0, by decide +kernel⟩,
   ⟨old1, false, 0, by decide +kernel⟩,
   ⟨{ old4 with me := Metro.reset }, true, 0, by decide +kernel⟩,
   ⟨{ old4 with me := Metro.reset }, false, 0, by decide +kernel⟩,
   ⟨{ old4 with pw := { old4.pw with stage := 2 }, wd := { Warden.reset with running := true } }, true, 0, by decide +kernel⟩,
   ⟨{ old4 with wd := { old4.wd with restartUnplanned := true } }, by decide +kernel⟩,
   ⟨{ old4 with wd := { old4.wd with backoff := some 10 } }, 10, by decide +kernel⟩,
   ⟨old1, by decide +kernel⟩⟩

theorem witness_ServoTimeoutsAndLeapSeconds :
    (∃ s : State, (s.te.servo = .acquire ∨ s.te.servo = .locked) ∧ s.after s.te.quietClk (par s (pid 7 0 8) * cycMs) = true) ∧
    (∃ s : State, s.te.servo = .holdover ∧ s.after s.te.lastAcceptClk (par s (pid 7 0 10) * cycS) = true) ∧
    (∃ s : State, bitAt (leapWord s) 0 = true ∧ utcDaySecond s 1 = true ∧ utcOffset s < 32767) ∧
    (∃ s : State, bitAt (leapWord s) 0 = false ∧ bitAt (leapWord s) 1 = true ∧ utcDaySecond s 86399 = true ∧ -32768 < utcOffset s) ∧
    (∃ s : State, (bitAt (leapWord s) 0 = true → utcDaySecond s 1 = false) ∧ (bitAt (leapWord s) 0 = false → bitAt (leapWord s) 1 =
      true → utcDaySecond s 86399 = false)) ∧
    (∃ s : State, bitAt (leapWord s) 2 = true ∧ s.after s.te.leapClk (86400 * cycS) = true) ∧
    (∃ s : State, s.te.servo = .locked ∧ s.wd.running = true ∧ s.after s.te.storeClk (3600 * cycS) = true) :=
  ⟨⟨old4, by decide +kernel⟩,
   ⟨{ old4 with te := { old4.te with servo := .holdover } }, by decide +kernel⟩,
   ⟨(leapUp 1 1799971201), by decide +kernel⟩,
   ⟨(leapUp 2 1799971199), by decide +kernel⟩,
   ⟨old4, by decide +kernel⟩,
   ⟨old4.setPar 0x380E 4, by decide +kernel⟩,
   ⟨old4, by decide +kernel⟩⟩

theorem witness_TimeRequestsAct :
    (∃ s : State, ∃ h : Hdr, Opens opTimeGet h s ∧ h.len = 0) ∧
    (∃ s : State, ∃ h : Hdr, ∃ time, Opens opTimeSet h s ∧ h.len = 12 ∧ locked (s.accepted h) = false ∧ time80Ok time = true ∧ (par
      (s.accepted h) (pid 7 0 0) = 0 ∨ par (s.accepted h) (pid 7 0 0) = 2)) ∧
    (∃ s : State, ∃ h : Hdr, ∃ meas, Opens opTimeOffset h s ∧ h.len = 28 ∧ par (s.accepted h) (pid 7 0 0) = 3 ∧ time80Ok meas = true
      ∧ ofTime80 meas ≤ (s.accepted h).now ∧ (s.accepted h).now ≤ ofTime80 meas + 2 * tickSec) ∧
    (∃ s : State, ∃ h : Hdr, Opens opTimeAcceptStep h s ∧ h.len = 0 ∧ locked (s.accepted h) = false ∧ (s.accepted h).te.servo =
      .refused) ∧
    (∃ s : State, ∃ h : Hdr, ∃ max, Opens opTxtsRead h s ∧ h.len = 4 ∧ 1 ≤ max ∧ max ≤ 16) :=
  ⟨⟨oldS, ctl 0, opens rfl (by decide +kernel), by decide +kernel⟩,
   ⟨oldS.setPar (pid 7 0 0) 2, ctl 12, time80 (1800000000 * tickSec), opens rfl (by decide +kernel), by decide +kernel⟩,
   ⟨oldS.setPar (pid 7 0 0) 3, ctl 28, time80 (1800000000 * tickSec + 34 * pTick - 2 * tickSec), opens rfl (by decide +kernel),
     by decide +kernel⟩,
   ⟨{ oldS with te := { oldS.te with servo := .refused } }, ctl 0, opens rfl (by decide +kernel), by decide +kernel⟩,
   ⟨oldS, ctl 4, 16, opens rfl (by decide +kernel), by decide +kernel⟩⟩

theorem witness_OffsetsSteerOrAreRefused :
    (∃ s : State, ∃ th : Int, let u := s.takeScheduled (fun id => effOf id == .offset); th.natAbs ≤ stepLimitTicks u) ∧
    (∃ s : State, ∃ th : Int, ∃ gm : Nat, let u := s.takeScheduled (fun id => effOf id == .offset); let fl := par u (pid 7 0 11);
      let run := th :: (if gm = u.te.refusedGm then u.te.refusedRun else []); stepLimitTicks u < th.natAbs ∧ ((bitAt fl 1 ||
      (bitAt fl 0 && !u.te.lockedOnce)) && 16 ≤ run.length && consistent u (run.take 16)) = false) ∧
    (∃ s : State, ∃ th : Int, ∃ gm : Nat, let u := s.takeScheduled (fun id => effOf id == .offset); let fl := par u (pid 7 0 11);
      let run := th :: (if gm = u.te.refusedGm then u.te.refusedRun else []); stepLimitTicks u < th.natAbs ∧ ((bitAt fl 1 ||
      (bitAt fl 0 && !u.te.lockedOnce)) && 16 ≤ run.length && consistent u (run.take 16)) = true) :=
  ⟨⟨old4, -(stepLimitTicks old4 : Int), by decide +kernel⟩,
   ⟨old4, -(stepLimitTicks old4 + 1 : Int), 0, by decide +kernel⟩,
   ⟨{ old4.setPar (pid 7 0 11) 2 with te := { old4.te with refusedRun := List.replicate 15 65536000001 } }, 65536000001, 0,
     by decide +kernel, (Bool.and_eq_true ..).mpr ⟨by decide +kernel, sixteen_agree _ 65536000001⟩⟩⟩

theorem witness_BlazesAndNotches :
    (∃ s : State, ∃ h : Hdr, ∃ index flags start period width, Opens opBlazeArm h s ∧ h.len = 32 ∧ locked (s.accepted h) = false ∧
      index ≤ 7 ∧ flags ≤ 3 ∧ time80Ok start = true ∧ (period = 0 → bitAt flags 0 = true ∨ (s.accepted h).now ≤ ofTime80 start)
      ∧ (period ≠ 0 → 100 ≤ period ∧ period ≤ 86400000000000 ∧ width + 10 ≤ period) ∧ 10 ≤ width ∧ width ≤ 4294967295) ∧
    (∃ s : State, ∃ h : Hdr, ∃ index flags start, Opens opBlazeArm h s ∧ h.len = 32 ∧ locked (s.accepted h) = false ∧ index ≤ 7 ∧
      flags ≤ 3 ∧ time80Ok start = true) ∧
    (∃ s : State, ∃ k : Fin 8, s.te.blazes.length = 8 ∧ (s.blaze k).armed = true ∧ (s.blaze k).next ≠ 0 ∧ (s.blaze k).next ≤
      s.te.cnt) ∧
    (∃ s : State, ∃ k : Fin 8, s.te.blazes.length = 8 ∧ (s.blaze k).pulse = true ∧ (s.blaze k).pulseEnd ≤ s.te.cnt) ∧
    (∃ s : State, ∃ k : Fin 8, ∃ rising : Bool, ∃ held, s.te.notches.length = 8 ∧ s.te.running = true ∧ edgeSelected (par s (pid 25
      k 0)) rising = true ∧ par s (pid 25 k 1) ≤ held) ∧
    (∃ s : State, ∃ k : Fin 8, ∃ rising : Bool, ∃ held, (edgeSelected (par s (pid 25 k 0)) rising = false ∨ held < par s (pid 25 k
      1) ∨ s.te.running = false)) ∧
    (∃ s : State, ∃ h : Hdr, ∃ index max, Opens opNotchRead h s ∧ h.len = 4 ∧ index ≤ 7 ∧ 1 ≤ max ∧ max ≤ 8 ∧ s.te.notches.length =
      8) :=
  ⟨⟨oldS, ctl 32, 7, 0, time80 (1800000000 * tickSec + 2 ^ 40), 100, 90, opens rfl (by decide +kernel), by decide +kernel⟩,
   ⟨oldS, ctl 32, 7, 3, 0, opens rfl (by decide +kernel), by decide +kernel⟩,
   ⟨{ old4 with te := { old4.te with blazes := List.replicate 8 { Blaze.reset with armed := true, next := 1 } } }, 7,
     by decide +kernel⟩,
   ⟨{ old4 with te := { old4.te with blazes := List.replicate 8 { Blaze.reset with pulse := true } } }, 7, by decide +kernel⟩,
   ⟨old4.setPar (pid 25 7 0) 3, 7, false, 0, by decide +kernel⟩,
   ⟨old4.setPar (pid 25 7 0) 1, 7, false, 0, by decide +kernel⟩,
   ⟨oldS, ctl 4, 7, 8, opens rfl (by decide +kernel), by decide +kernel⟩⟩

theorem witness_CalendarRequestsAndDirectWrites :
    (∃ s : State, ∃ h : Hdr, Opens opRtcGet h s ∧ h.len = 0) ∧
    (∃ s : State, ∃ h : Hdr, ∃ flags year month day hour min sec, Opens opRtcSet h s ∧ h.len = 12 ∧ locked (s.accepted h) = false ∧
      flags ≤ 1 ∧ (flags = 1 → (s.accepted h).rtc.setSince = true) ∧ 2000 ≤ year ∧ calValid ⟨0, sec, min, hour, day, month, year
      - 2000⟩ = true) ∧
    (∃ s : State, ∃ h : Hdr, Opens opWriteOnly h s ∧ h.len = 5 ∧ (s.accepted h).rtc.setSince = true) ∧
    (∃ s : State, ∃ h : Hdr, Opens opWriteOnly h s ∧ h.len = 5) ∧
    (∃ s : State, ∃ frame bs : List Byte, ∃ f : Fin 5, HearsWrite s frame bs (0x1A + f) ∧ crc8 (bs.take 6) ≠ beAt bs 6 1) ∧
    (∃ s : State, ∃ frame bs : List Byte, ∃ f : Fin 5, HearsWrite s frame bs (0x1A + f) ∧ crc8 (bs.take 6) = beAt bs 6 1 ∧ locked s
      = true) ∧
    (∃ s : State, ∃ frame bs : List Byte, ∃ f : Fin 5, HearsWrite s frame bs (0x1A + f) ∧ crc8 (bs.take 6) = beAt bs 6 1 ∧ locked s
      = false ∧ stageRange f (beAt bs 2 4) = true) ∧
    (∃ s : State, ∃ frame bs : List Byte, ∃ f : Fin 5, HearsWrite s frame bs (0x1A + f) ∧ crc8 (bs.take 6) = beAt bs 6 1 ∧ locked s
      = false ∧ stageRange f (beAt bs 2 4) = false) ∧
    (∃ s : State, ∃ frame bs : List Byte, HearsWrite s frame bs 0x19 ∧ crc8 (bs.take 6) ≠ beAt bs 6 1) ∧
    (∃ s : State, ∃ frame bs : List Byte, HearsWrite s frame bs 0x19 ∧ crc8 (bs.take 6) = beAt bs 6 1 ∧ locked s = true) ∧
    (∃ s : State, ∃ frame bs : List Byte, HearsWrite s frame bs 0x19 ∧ crc8 (bs.take 6) = beAt bs 6 1 ∧ locked s = false ∧ 60 ≤ beAt
      bs 2 4) ∧
    (∃ s : State, ∃ frame bs : List Byte, HearsWrite s frame bs 0x19 ∧ crc8 (bs.take 6) = beAt bs 6 1 ∧ locked s = false ∧ beAt bs 2
      4 < 60 ∧ calValid (committedCal s.rtc (beAt bs 2 4)) = false) ∧
    (∃ s : State, ∃ frame bs : List Byte, HearsWrite s frame bs 0x19 ∧ crc8 (bs.take 6) = beAt bs 6 1 ∧ locked s = false ∧ beAt bs 2
      4 < 60 ∧ calValid (committedCal s.rtc (beAt bs 2 4)) = true) ∧
    (∃ s : State, s.after s.rtc.stClk (10 * cycS) = true) :=
  ⟨⟨old4, ctl 0, opens rfl (by decide +kernel), by decide +kernel⟩,
   ⟨{ old4 with rtc := { old4.rtc with setSince := true } }, ctl 12, 1, 2199, 12, 31, 23, 59, 59, opens rfl (by decide +kernel),
     by decide +kernel⟩,
   ⟨{ old4 with rtc := { old4.rtc with setSince := true } }, ctl 5, opens rfl (by decide +kernel), by decide +kernel⟩,
   ⟨old4, ctl 5, opens rfl (by decide +kernel), by decide +kernel⟩,
   ⟨old4, dwBad 0x1E 2026, dwBad 0x1E 2026, 4, by unfold HearsWrite; decide +kernel, by decide +kernel⟩,
   ⟨lockedUp, dw 0x1E 2026, dw 0x1E 2026, 4, by unfold HearsWrite; decide +kernel, by decide +kernel⟩,
   ⟨old4, dw 0x1E 2199, dw 0x1E 2199, 4, by unfold HearsWrite; decide +kernel, by decide +kernel⟩,
   ⟨uart old4, cobs (dw 0x1E 2200), dw 0x1E 2200, 4, by unfold HearsWrite; decide +kernel, by decide +kernel⟩,
   ⟨old4, dwBad 0x19 59, dwBad 0x19 59, by unfold HearsWrite; decide +kernel, by decide +kernel⟩,
   ⟨lockedUp, dw 0x19 59, dw 0x19 59, by unfold HearsWrite; decide +kernel, by decide +kernel⟩,
   ⟨old4, dw 0x19 60, dw 0x19 60, by unfold HearsWrite; decide +kernel, by decide +kernel⟩,
   ⟨stagedUp 31, dw 0x19 59, dw 0x19 59, by unfold HearsWrite; decide +kernel, by decide +kernel⟩,
   ⟨stagedUp 30, dw 0x19 59, dw 0x19 59, by unfold HearsWrite; decide +kernel, by decide +kernel⟩,
   ⟨old4, by decide +kernel⟩⟩

theorem witness_AlarmsAndCalendarEvents :
    (∃ s : State, s.rtc.alarms.length = 4 ∧ s.pw.aonUp = true ∧ s.rtc.newSecond = true) ∧
    (∃ s : State, (s.pw.aonUp = false ∨ s.rtc.newSecond = false)) ∧
    (∃ s : State, par s (pid 8 0 7) ≠ 0 ∧ s.after s.rtc.wakeClk (par s (pid 8 0 7) * cycS) = true) ∧
    (∃ s : State, s.wd.running = true ∧ par s (pid 8 0 3) = 1 ∧ s.te.servo = .locked ∧ s.rtc.secondEdge = true) ∧
    (∃ s : State, ∃ c e, s.rtc.learn = some (c, e) ∧ s.rtc.following = true ∧ s.rtc.secondEdge = true ∧ s.after c (1024 * cycS) =
      true) ∧
    (∃ s : State, s.wd.running = true ∧ s.after s.rtc.storeClk (3600 * cycS) = true) ∧
    (∃ s : State, s.rtc.leap61 = true ∧ atMonthEnd s.rtc.cal 59 = true) ∧
    (∃ s : State, (s.rtc.leap61 && atMonthEnd s.rtc.cal 59) = false ∧ s.rtc.leap59 = true ∧ atMonthEnd s.rtc.cal 58 = true ∧
      s.rtc.cal.sub = 32767) ∧
    (∃ s : State, atRangeEnd s.rtc.cal = true ∧ s.rtc.cal.sub = 32767) ∧
    (∃ s : State, ∃ k : Fin 4, (s.alarm k).seqWait = true ∧ s.pw.stage3At.any (s.after · (60 * cycS)) = true) :=
  ⟨⟨{ old4 with rtc := { old4.rtc with begun := true } }, by decide +kernel⟩,
   ⟨old4, by decide +kernel⟩,
   ⟨old4.setPar (pid 8 0 7) 1, by decide +kernel⟩,
   ⟨{ old4.setPar (pid 8 0 3) 1 with rtc := old4.rtc }, by decide +kernel⟩,
   ⟨{ old4 with rtc := { old4.rtc with following := true, learn := some (0, 0) } }, 0, 0, by decide +kernel⟩,
   ⟨old4, by decide +kernel⟩,
   ⟨{ old4 with rtc := { old4.rtc with leap61 := true, cal := ⟨0, 59, 59, 23, 30, 6, 26⟩ } }, by decide +kernel⟩,
   ⟨{ old4 with rtc := { old4.rtc with leap59 := true, cal := ⟨32767, 58, 59, 23, 30, 6, 26⟩ } }, by decide +kernel⟩,
   ⟨{ old4 with rtc := { old4.rtc with cal := ⟨32767, 59, 59, 23, 31, 12, 199⟩ } }, by decide +kernel⟩,
   ⟨{ old4 with rtc := { old4.rtc with alarms := List.replicate 4 { Alarm.reset with seqWait := true } } }, 3, by decide +kernel⟩⟩

theorem witness_TamperSourcesLatchAndClear :
    (∃ s : State, s.pw.aonUp = true ∧ s.tp.slots.length = 32) ∧
    (∃ s : State, ∃ k : Fin 32, s.tp.slots.length = 32 ∧ (s.slot k).persisting = true ∧ s.after (s.slot k).since (persistMs s k *
      cycMs) = true) ∧
    (∃ s : State, ∃ m r, s.tp.clearQueue = m :: r ∧ s.pw.stage ≠ 0) ∧
    (∃ s : State, ∃ k : Fin 3, s.pw.stage ≠ 0 ∧ (s.tp.monClk.getD k none).any (fun c => !s.after c (monWindow k)) = false ∧
      s.tp.detPrev.length = 3 ∧ s.tp.slots.length = 32) ∧
    (∃ s : State, s.pw.stage ≠ 0 ∧ s.tp.injectClk.any (fun c => !s.after c (10 * cycS)) = false) :=
  ⟨⟨old4, by decide +kernel⟩,
   ⟨persistUp, 31, by decide +kernel⟩,
   ⟨{ old4 with tp := { old4.tp with clearQueue := [⟨1, []⟩] } }, ⟨1, []⟩, [], by decide +kernel⟩,
   ⟨old4, 2, by decide +kernel⟩,
   ⟨old4, by decide +kernel⟩⟩

theorem witness_KeyStoreRandomnessAndJtag :
    (∃ s : State, 2 ≤ s.pw.stage ∧ s.tp.keyClk.any (fun c => !s.after c (3600 * cycS)) = false) ∧
    (∃ s : State, s.pw.stage ≠ 0 ∧ s.tp.trngOk = false ∧ s.after s.tp.trngClk (10 * cycS) = true) ∧
    (∃ s : State, ∃ ir : BitVec 5, s.pw.phase ≠ .off ∧ s.pw.phase ≠ .started ∧ (ir = 31#5 ∨ ir = 1#5)) ∧
    (∃ s : State, ∃ ir : BitVec 5, s.pw.phase ≠ .off ∧ s.pw.phase ≠ .started ∧ s.pw.stage ≠ 0 ∧ s.tp.slots.length = 32 ∧ ir ≠ 31#5 ∧
      ir ≠ 1#5) ∧
    (∃ s : State, s.pw.phase ≠ .off ∧ s.pw.phase ≠ .started) :=
  ⟨⟨old4, by decide +kernel⟩,
   ⟨{ old4 with tp := { old4.tp with trngOk := false } }, by decide +kernel⟩,
   ⟨old4, 31, by decide +kernel⟩,
   ⟨old4, 30, by decide +kernel⟩,
   ⟨old4, by decide +kernel⟩⟩

theorem witness_TamperRequestsAndKeyAgreement :
    (∃ s : State, ∃ h : Hdr, Opens opTamperRead h s ∧ h.len = 0) ∧
    (∃ s : State, ∃ h : Hdr, ∃ mask, ∃ sig : Option SigIn, Opens opTamperAck h s ∧ h.len = (if sig.isSome then 72 else 8) ∧
      (ackNeedsSig (s.accepted h) mask = true → (s.accepted h).tp.owner.isSome = true ∧ sig.any (sigOk (s.accepted h)) = true)) ∧
    (∃ s : State, ∃ h : Hdr, ∃ pub : List Byte, ∃ n, pub.length = 64 ∧ (n = 16 ∨ n = 32) ∧ Opens opKeyAgree h s ∧ h.len = 68 ∧
      onCurve pub = true ∧ (s.accepted h).tp.identity.isSome = true ∧ (s.accepted h).tp.trngOk = true) ∧
    (∃ s : State, ∃ h : Hdr, Opens (opProvision 90) h s ∧ h.more = false ∧ (fragOf s h 0x0A11).length + h.len = 4 ∧ (s.accepted
      h).pw.pfail = false ∧ (s.accepted h).tp.identity = none ∧ (s.accepted h).tp.trngOk = true ∧
      (let x := ((s.accepted h).fragEnd h).itemPut 0 [keyRec] (wrappedBytes ((s.accepted h).tp.keySerial + 1)); x.2 = true)) ∧
    (∃ s : State, ∃ h : Hdr, Opens (opProvision 90) h s ∧ h.more = false ∧ (fragOf s h 0x0A11).length + h.len = 4 ∧ (s.accepted
      h).pw.pfail = false ∧ (s.accepted h).tp.identity = none ∧ (s.accepted h).tp.trngOk = true ∧
      (let x := ((s.accepted h).fragEnd h).itemPut 0 [keyRec] (wrappedBytes ((s.accepted h).tp.keySerial + 1)); x.2 = false)) ∧
    (∃ s : State, ∃ h : Hdr, ∃ params l sig, Opens (opProvision 2) h s ∧ h.more = false ∧ List.length l = 8 ∧
      (let msg := fragOf s h 0x0A11 ++ params; let new := bitAt (byteAt msg 1).toNat 0;
      let x := (((s.accepted h).fragEnd h).onSe fun e => { e with pws := l.map fun v => ⟨1, pwDigest v⟩ }).storePw;
      let y := if new then (x.1.onTp fun t => { t with owner := some (fitBytes 64 (msg.drop 160)) }).itemPut 0 [ownerRec] (fitBytes 64 (msg.drop 160)) else (x.1, true);
      (fragOf s h 0x0A11).length + h.len = (if new then 288 else 224) ∧ (byteAt msg 1).toNat ≤ 1 ∧ (s.accepted h).pw.pfail =
      false ∧ installAuth (s.accepted h) h new sig = true ∧ (s.accepted h).tp.identity.isSome = true ∧ l.any badPassword = false
      ∧ x.2 = true ∧ y.2 = true)) ∧
    (∃ s : State, ∃ h : Hdr, ∃ params l sig, Opens (opProvision 2) h s ∧ h.more = false ∧ List.length l = 8 ∧
      (let msg := fragOf s h 0x0A11 ++ params; let new := bitAt (byteAt msg 1).toNat 0;
      let x := (((s.accepted h).fragEnd h).onSe fun e => { e with pws := l.map fun v => ⟨1, pwDigest v⟩ }).storePw;
      let y := if new then (x.1.onTp fun t => { t with owner := some (fitBytes 64 (msg.drop 160)) }).itemPut 0 [ownerRec] (fitBytes 64 (msg.drop 160)) else (x.1, true);
      (fragOf s h 0x0A11).length + h.len = (if new then 288 else 224) ∧ (byteAt msg 1).toNat ≤ 1 ∧ (s.accepted h).pw.pfail =
      false ∧ installAuth (s.accepted h) h new sig = true ∧ (s.accepted h).tp.identity.isSome = true ∧ l.any badPassword = false
      ∧ (x.2 && y.2) = false)) :=
  ⟨⟨old4, ctl 0, opens rfl (by decide +kernel), by decide +kernel⟩,
   ⟨lockedUp, ctl 72, 1, some ⟨lockedUp.tp.challenge, true⟩, opens rfl (by decide +kernel), by decide +kernel⟩,
   ⟨old4, ctl 68, be 64
     0x6b17d1f2e12c4247f8bce6e563a440f277037d812deb33a0f4a13945d898c2964fe342e2fe1a7f9b8ee7eb4a7c0f9e162bce33576b315ececbb6406837bf51f5,
     32, by decide +kernel, by decide +kernel, opens rfl (by decide +kernel), by decide +kernel⟩,
   ⟨{ old4 with tp := { old4.tp with identity := none } }, ctl 4, opens rfl (by decide +kernel), by decide +kernel⟩,
   ⟨stuckAt { old4 with tp := { old4.tp with identity := none } } 16 2, ctl 4, opens rfl (by decide +kernel), by decide +kernel⟩,
   ⟨old4, ctl 224, zeros 224, List.replicate 8 1, ⟨old4.tp.challenge, true⟩, opens rfl (by decide +kernel), by decide +kernel⟩,
   ⟨stuckAt old4 4 2, ctl 288, [0, 1] ++ zeros 286, List.replicate 8 1, ⟨old4.tp.challenge, true⟩, opens rfl (by decide +kernel),
     by decide +kernel⟩⟩

theorem witness_WatchdogsAndWardenRestart :
    (∃ s : State, s.wd.running = true ∧ s.wd.canopyRunning = true) ∧
    (∃ s : State, s.wd.running = true ∧ s.me.kernels = true) ∧
    (∃ s : State, s.wd.running = false ∧ 2 ≤ s.pw.stage ∧ s.clk ≤ s.wd.wardenClk + 150 * cycMs ∧ s.wd.buffer.length < 256) ∧
    (∃ s : State, s.wd.wardenClk + 150 * cycMs < s.clk) ∧
    (∃ s : State, s.wd.running = false ∧ 2 ≤ s.pw.stage ∧ s.after s.wd.wardenClk (150 * cycMs) = true) :=
  ⟨⟨old4, by decide +kernel⟩,
   ⟨old4, by decide +kernel⟩,
   ⟨{ old4 with pw := { old4.pw with stage := 2 }, wd := { Warden.reset with buffer := log255, wardenClk := 2 ^ 60 - 150 * cycMs }
     }, by decide +kernel⟩,
   ⟨old4, by decide +kernel⟩,
   ⟨{ old4 with wd := Warden.reset }, by decide +kernel⟩⟩

theorem witness_SensorsAndTheEventLog :
    (∃ s : State, ∃ k : Fin 12, ∃ v, s.wd.running = true ∧ (s.wd.sensorClk.getD k none).any (fun c => !s.after c (samplePeriod k)) =
      false ∧ sensorOutside s k (u32 v) = bitAt s.wd.health k) ∧
    (∃ s : State, ∃ k : Fin 12, ∃ v, s.wd.running = true ∧ (s.wd.sensorClk.getD k none).any (fun c => !s.after c (samplePeriod k)) =
      false ∧ sensorOutside s k (u32 v) ≠ bitAt s.wd.health k ∧ s.wd.sensorRun.getD k 0 < 2) ∧
    (∃ s : State, ∃ k : Fin 12, ∃ v, s.wd.running = true ∧ (s.wd.sensorClk.getD k none).any (fun c => !s.after c (samplePeriod k)) =
      false ∧ sensorOutside s k (u32 v) ≠ bitAt s.wd.health k ∧ 2 ≤ s.wd.sensorRun.getD k 0 ∧ s.wd.buffer.length < 256) ∧
    (∃ s : State, ∃ e r, s.wd.buffer = e :: r ∧ s.wd.running = true ∧ s.wd.lostSince = 0) ∧
    (∃ s : State, ∃ e r, s.wd.buffer = e :: r ∧ s.wd.running = true ∧ s.wd.lostSince ≠ 0) ∧
    (∃ s : State, ∃ h : Hdr, ∃ count, Opens opLogRead h s ∧ h.len = 8 ∧ 1 ≤ count ∧ count ≤ 32) :=
  ⟨⟨old4, 11, 50, by decide +kernel⟩,
   ⟨old4, 11, 49, by decide +kernel⟩,
   ⟨sensorRunUp, 11, 49, by decide +kernel⟩,
   ⟨{ old4 with wd := { old4.wd with buffer := [entry0] } }, entry0, [], by decide +kernel⟩,
   ⟨{ old4 with wd := { old4.wd with buffer := [entry0], lostSince := 1 } }, entry0, [], by decide +kernel⟩,
   ⟨old4, ctl 8, 32, opens rfl (by decide +kernel), by decide +kernel⟩⟩

theorem witness_UpdatePackagesAndTrials :
    (∃ s : State, ∃ h : Hdr, ∃ hd : List Byte, Opens opUpdateBegin h s ∧ h.len = 192 ∧ List.length hd = 192 ∧ headerBad hd = false ∧
      (s.accepted h).up.st = 0 ∧ (4 ≤ hdrKind hd → locked (s.accepted h) = false)) ∧
    (∃ s : State, s.up.st = 1) ∧
    (∃ s : State, ∃ h : Hdr, ∃ p, Opens opUpdateData h s ∧ h.more = false ∧ h.len = List.length p ∧
      (let msg := fragOf s h 0x0E11 ++ p; msg.length ≤ 65540 ∧ 5 ≤ msg.length ∧ (s.accepted h).up.st = 2 ∧ fieldAt msg 0 4 =
      (s.accepted h).up.payload.length ∧ (s.accepted h).up.payload.length + (msg.length - 4) ≤ hdrLength (s.accepted
      h).up.header)) ∧
    (∃ s : State, ∃ h : Hdr, ∃ g, Opens opUpdateFinish h s ∧ h.len = 4 ∧ ((s.accepted h).up.st = 2 ∨ (s.accepted h).up.st = 3) ∧
      verifyFail (s.accepted h) g = none) ∧
    (∃ s : State, ∃ h : Hdr, ∃ g, ∃ st : Status, Opens opUpdateFinish h s ∧ h.len = 4 ∧ ((s.accepted h).up.st = 2 ∨ (s.accepted
      h).up.st = 3) ∧ verifyFail (s.accepted h) g = some st) ∧
    (∃ s : State, ∃ h : Hdr, ∃ g, Opens opUpdateFinish h s ∧ h.len = 4 ∧ ((s.accepted h).up.st = 2 ∨ (s.accepted h).up.st = 3) ∧ (4
      ≤ hdrKind (s.accepted h).up.header → locked (s.accepted h) = false) ∧ verifyFail (s.accepted h) g = none ∧ hdrKind
      (s.accepted h).up.header < 4) ∧
    (∃ s : State, ∃ h : Hdr, ∃ g a, Opens opUpdateFinish h s ∧ h.len = 4 ∧ ((s.accepted h).up.st = 2 ∨ (s.accepted h).up.st = 3) ∧
      (4 ≤ hdrKind (s.accepted h).up.header → locked (s.accepted h) = false) ∧ verifyFail (s.accepted h) g = none ∧ 4 ≤ hdrKind
      (s.accepted h).up.header ∧ applyPackage (s.accepted h) = (a, none)) ∧
    (∃ s : State, ∃ h : Hdr, ∃ g, ∃ st : Status, Opens opUpdateFinish h s ∧ h.len = 4 ∧ ((s.accepted h).up.st = 2 ∨ (s.accepted
      h).up.st = 3) ∧ (4 ≤ hdrKind (s.accepted h).up.header → locked (s.accepted h) = false) ∧ verifyFail (s.accepted h) g =
      some st) ∧
    (∃ s : State, ∃ h : Hdr, Opens opUpdateFinish h s ∧ h.len = 4 ∧ (s.accepted h).up.st ≠ 5) ∧
    (∃ s : State, ∃ h : Hdr, Opens opUpdateStatus h s ∧ h.len = 0) ∧
    (∃ s : State, safeNow s = true ∧ safePoint s (hdrKind s.up.header) = true ∧ s.up.revert = none ∧ s.up.st = 4 ∧ hdrKind
      s.up.header < 4 ∧ s.up.banks.length = 4 ∧ s.up.active.length = 4) ∧
    (∃ s : State, safeNow s = true ∧ safePoint s (hdrKind s.up.header) = true ∧ s.up.revert.isSome = true) ∧
    (∃ s : State, s.wd.canopyRunning = false ∧ s.up.st = 5 ∧ hdrKind s.up.header = 0 ∧ s.up.revert = none ∧ s.up.banks.length = 4 ∧
      s.after s.up.trialClk (400 * cycMs) = true) ∧
    (∃ s : State, s.up.st = 5 ∧ s.up.revert = none ∧ s.after s.up.trialClk (60 * cycS) = true) :=
  ⟨⟨old4, ctl 192, plainHeader 3670016, opens rfl (by decide +kernel), by decide +kernel⟩,
   ⟨{ old4 with up := { old4.up with st := 1 } }, by decide +kernel⟩,
   ⟨{ old4 with up := { old4.up with st := 2, header := updHeader 0 480 } }, blk 484, zeros 484, opens rfl (by decide +kernel),
     by decide +kernel⟩,
   ⟨loadedUp 0, ctl 4, true, opens rfl (by decide +kernel), rfl, .inl rfl, loadedUp_verifies (.inl rfl)⟩,
   ⟨loadedUp 0, ctl 4, false, .authFail, opens rfl (by decide +kernel), rfl, .inl rfl, by simp [verifyFail]⟩,
   ⟨loadedUp 3, ctl 4, true, opens rfl (by decide +kernel), rfl, .inl rfl, by decide +kernel, loadedUp_verifies (.inr (.inl rfl)),
     by decide +kernel⟩,
   ⟨loadedUp 4, ctl 4, true, (applyPackage ((loadedUp 4).accepted (ctl 4))).1, opens rfl (by decide +kernel), rfl, .inl rfl,
     by decide +kernel, loadedUp_verifies (.inr (.inr rfl)), by decide +kernel, pair_of (by decide +kernel)⟩,
   ⟨loadedUp 0, ctl 4, false, .authFail, opens rfl (by decide +kernel), rfl, .inl rfl, by decide +kernel, by simp [verifyFail]⟩,
   ⟨old4, ctl 4, opens rfl (by decide +kernel), by decide +kernel⟩,
   ⟨old4, ctl 0, opens rfl (by decide +kernel), by decide +kernel⟩,
   ⟨{ old4 with up := { old4.up with st := 4, header := updHeader 0 480 } }, by decide +kernel⟩,
   ⟨{ old4 with up := { old4.up with revert := some 1 } }, by decide +kernel⟩,
   ⟨{ old4 with up := { old4.up with st := 5, header := updHeader 0 480 }, wd := { Warden.reset with running := true } },
     by decide +kernel⟩,
   ⟨{ old4 with up := { old4.up with st := 5 } }, by decide +kernel⟩⟩

theorem witness_TransplantExportsAndImports :
    (∃ s : State, ∃ h : Hdr, ∃ sig, Opens opExport h s ∧ h.len = 140 ∧ ownerSigned (s.accepted h) sig = true ∧ (s.accepted
      h).tp.identity.isSome = true ∧ (s.accepted h).tp.trngOk = true) ∧
    (∃ s : State, ∃ d pub copy, s.tx.prepare = some (d, pub) ∧ boundaryCopy s = some copy ∧ atBlock s = true ∧ s.me.blockEnd =
      time80 (pInstant s)) ∧
    (∃ s : State, ∃ h : Hdr, ∃ n, Opens opExport h s ∧ h.len = 12 ∧ (s.accepted h).lk.hushed = false ∧ 4 ≤ n ∧ n ≤ 4064) ∧
    (∃ s : State, ∃ h : Hdr, Opens opExport h s ∧ h.len = 4) ∧
    (∃ s : State, ∃ h : Hdr, ∃ p b sig, Opens opImport h s ∧ h.more = false ∧ (let msg := fragOf s h 0x0E21 ++ p; (fragOf s h
      0x0E21).length + h.len = 68 + fieldAt msg 0 4 ∧ 260 ≤ msg.length ∧ msg.length = 4 + fieldAt msg 0 4 ∧ (s.accepted
      h).pw.pfail = false ∧ locked (s.accepted h) = false ∧ ownerSigned (s.accepted h) sig = true ∧ fieldAt msg 4 2 = 0x5450 ∧
      fieldAt msg 6 2 = 1 ∧ fieldAt msg 16 8 = Config.uniqueId % 2 ^ 64 ∧ importOk (s.accepted h) b = true ∧ (s.accepted
      h).pr.pending = [] ∧ (s.accepted h).up.st = 0)) ∧
    (∃ s : State, ∃ b bx, s.tx.importBody = some (b, bx) ∧ atBlock s = true) :=
  ⟨⟨old4, blk 140, ⟨old4.tp.challenge, true⟩, opens rfl (by decide +kernel), by decide +kernel⟩,
   ⟨{ old4 with tx := { old4.tx with prepare := some (1, zeros 64) }, hw := { Heart.reset with ckpt := some ⟨0, 0, 1, [1]⟩ }, me :=
     { old4.me with blockEnd := time80 (pInstant old4) } }, 1, zeros 64, [1], by decide +kernel⟩,
   ⟨old4, blk 12, 4064, opens rfl (by decide +kernel), by decide +kernel⟩,
   ⟨old4, blk 4, opens rfl (by decide +kernel), by decide +kernel⟩,
   ⟨old4, blk 324, importBytes, importBody, ⟨old4.tp.challenge, true⟩, opens rfl (by decide +kernel), rfl, by decide +kernel,
     by decide +kernel, by decide +kernel, by decide +kernel, by decide +kernel, by decide +kernel, by decide +kernel,
     by decide +kernel, importBytes_target, by decide +kernel, rfl, rfl⟩,
   ⟨{ old4 with tx := { old4.tx with importBody := some (zeros 256, 1) } }, zeros 256, 1, by decide +kernel⟩⟩

theorem witness_ConverterFaultsAndReferences :
    (∃ s : State, ∃ v : Fin 40, 250 ≤ (s.conv v).run ∧ s.convs.length = 40 ∧ s.stands.length = 4) ∧
    (∃ s : State, (s.pw.phase = .metering ∨ s.pw.phase = .modulators) ∧ s.convs.length = 40) ∧
    (∃ s : State, s.ref.live = true ∧ s.ref.resClk.any (fun c => !s.after c cycS) = false ∧ s.ref.rebase = false) ∧
    (∃ s : State, s.ref.live = true ∧ s.ref.resClk.any (fun c => !s.after c cycS) = false ∧ s.ref.rebase = true) ∧
    (∃ s : State, s.pw.refsel = true ∧ s.ref.live = true ∧ s.ref.bad = false ∧ s.ref.stored = none ∧ s.ref.ratio ≠ 0 ∧
      s.pw.stage2At.any (s.after · (60 * cycS)) = true) ∧
    (∃ s : State, ∃ h : Hdr, Opens opRefRebase h s ∧ h.len = 5 ∧ locked (s.accepted h) = false) ∧
    (∃ s : State, s.pw.refsel = true ∧ s.ref.bad = false ∧ s.pw.stage ≠ 0) :=
  ⟨⟨{ old4 with convs := List.replicate 40 { Conv.reset with run := 250 } }, 39, by decide +kernel⟩,
   ⟨old4, by decide +kernel⟩,
   ⟨{ old4 with ref := { old4.ref with live := true } }, by decide +kernel⟩,
   ⟨{ old4 with ref := { old4.ref with live := true, rebase := true } }, by decide +kernel⟩,
   ⟨{ old4 with pw := { old4.pw with refsel := true }, ref := { Ref.reset with live := true, ratio := 1 } }, by decide +kernel⟩,
   ⟨old4, ctl 5, opens rfl (by decide +kernel), by decide +kernel⟩,
   ⟨{ old4 with pw := { old4.pw with refsel := true } }, by decide +kernel⟩⟩

theorem witness_CoppiceCycleOfAStand :
    (∃ s : State, ∃ k : Fin 4, s.stands.length = 4 ∧ s.convs.length = 40 ∧ s.chans.length = 36 ∧ (s.stand k).st ≠ 4 ∧ slotDue s k =
      true) ∧
    (∃ s : State, ∃ k : Fin 4, s.stands.length = 4 ∧ s.convs.length = 40 ∧ s.chans.length = 36 ∧ (s.stand k).phase = 0 ∧ (s.stand
      k).spareChan < 36 ∧ ((s.stand k).st = 0 ∨ (s.stand k).pinReq.isSome = true) ∧ overlapOver (s.stand k) = true ∧ (s.stand
      k).pairs ≠ [] ∧ chanSource s (s.stand k).spareChan = 0 ∧ xcheckBad (matchLive s k (runMatch s k)) (runMatch s k) = false ∧
      (matchLive s k (runMatch s k) = true ∨ storedUsable s k (s.stand k).spareChan = true)) ∧
    (∃ s : State, ∃ k : Fin 4, s.stands.length = 4 ∧ s.convs.length = 40 ∧ s.chans.length = 36 ∧ (s.stand k).phase = 0 ∧ (s.stand
      k).spareChan < 36 ∧ ((s.stand k).st = 0 ∨ (s.stand k).pinReq.isSome = true) ∧ overlapOver (s.stand k) = true ∧ (s.stand
      k).pairs ≠ [] ∧ chanSource s (s.stand k).spareChan = 0 ∧ xcheckBad (matchLive s k (runMatch s k)) (runMatch s k) = true) ∧
    (∃ s : State, ∃ k : Fin 4, s.stands.length = 4 ∧ s.convs.length = 40 ∧ s.chans.length = 36 ∧ (s.stand k).phase = 0 ∧ (s.stand
      k).spareChan < 36 ∧ (s.stand k).st = 0 ∧ (s.stand k).pinReq = none ∧ overlapOver (s.stand k) = true ∧ ((s.stand k).pairs =
      [] ∨ chanSource s (s.stand k).spareChan ≠ 0 ∨ (xcheckBad (matchLive s k (runMatch s k)) (runMatch s k) = false ∧ matchLive
      s k (runMatch s k) = false ∧ storedUsable s k (s.stand k).spareChan = false))) ∧
    (∃ s : State, ∃ k : Fin 4, s.stands.length = 4 ∧ s.convs.length = 40 ∧ s.chans.length = 36 ∧ (s.stand k).phase = 1 ∧ (s.stand
      k).spareChan < 36 ∧ slotAt (s.stand k) 140000 = true) ∧
    (∃ s : State, ∃ k : Fin 4, s.stands.length = 4 ∧ s.convs.length = 40 ∧ s.chans.length = 36 ∧ (s.stand k).phase = 2 ∧ (s.stand
      k).spareChan < 36 ∧ backReady s k (s.stand k).spareChan = true ∧ xcheckBad (matchLive s k (runMatch s k) && !(s.stand
      k).stored) (runMatch s k) = true) ∧
    (∃ s : State, ∃ k : Fin 4, s.stands.length = 4 ∧ s.convs.length = 40 ∧ s.chans.length = 36 ∧ (s.stand k).phase = 2 ∧ (s.stand
      k).spareChan < 36 ∧ backReady s k (s.stand k).spareChan = true ∧ xcheckBad (matchLive s k (runMatch s k) && !(s.stand
      k).stored) (runMatch s k) = false ∧ spliceHolds s k (s.stand k).spareChan (matchLive s k (runMatch s k) && !(s.stand
      k).stored) = false) ∧
    (∃ s : State, ∃ k : Fin 4, s.stands.length = 4 ∧ s.convs.length = 40 ∧ s.chans.length = 36 ∧ (s.stand k).phase = 2 ∧ (s.stand
      k).spareChan < 36 ∧ backReady s k (s.stand k).spareChan = true ∧ xcheckBad (matchLive s k (runMatch s k) && !(s.stand
      k).stored) (runMatch s k) = false ∧ spliceHolds s k (s.stand k).spareChan (matchLive s k (runMatch s k) && !(s.stand
      k).stored) = true ∧ (s.stand k).st = 0 ∧ (s.stand k).pauseReq = false ∧ (s.stand k).pinReq = none ∧ (s.stand k).runOn =
      false) ∧
    (∃ s : State, ∃ k : Fin 4, s.stands.length = 4 ∧ s.convs.length = 40 ∧ s.chans.length = 36 ∧ (s.stand k).phase = 3 ∧ (s.stand
      k).st = 0 ∧ slotAt (s.stand k) 120000 = true) :=
  ⟨⟨(standsAll old4 { Stand.reset with st := 0, n := 160000 }), 3, by decide +kernel⟩,
   ⟨matchUp, 3, by decide +kernel⟩,
   ⟨(standsAll old4 { Stand.reset with st := 0, phase := 0, spareChan := 35, n := 19999, pairs := [(0, 6292)] }), 3,
     by decide +kernel⟩,
   ⟨(standsAll old4 { Stand.reset with st := 0, phase := 0, spareChan := 35, n := 19999 }), 3, by decide +kernel⟩,
   ⟨(standsAll old4 { Stand.reset with st := 0, phase := 1, spareChan := 35, carrying := true, n := 139999 }), 3,
     by decide +kernel⟩,
   ⟨backUp [(0, 6292)], 3, by decide +kernel⟩,
   ⟨requalBackUp, 3, by decide +kernel⟩,
   ⟨backUp [(2000000, 2000000)], 3, by decide +kernel⟩,
   ⟨(standsAll old4 { Stand.reset with st := 0, phase := 3, n := 119999 }), 3, by decide +kernel⟩⟩

theorem witness_RestsCalibrateConverters :
    (∃ s : State, ∃ k : Fin 4, ∃ v, s.stands.length = 4 ∧ s.convs.length = 40 ∧ s.chans.length = 36 ∧ resting s k = some v ∧ v < 40
      ∧ (s.stand k).dac ≠ 8 ∧ levelTo (s.stand k).dac ≤ (s.stand k).dacN) ∧
    (∃ s : State, ∃ k : Fin 4, ∃ v r, s.stands.length = 4 ∧ s.convs.length = 40 ∧ s.chans.length = 36 ∧ (s.stand k).skip = false ∧
      (s.stand k).requal = none ∧ slotAt (s.stand k) (acceptAt (s.stand k)) = true ∧ resting s k = some v ∧ v < 40 ∧ restOf s k
      v = some r ∧ restPasses s v r = true) ∧
    (∃ s : State, ∃ k : Fin 4, ∃ v r, s.stands.length = 4 ∧ s.convs.length = 40 ∧ s.chans.length = 36 ∧ (s.stand k).skip = false ∧
      (s.stand k).requal = none ∧ slotAt (s.stand k) (acceptAt (s.stand k)) = true ∧ resting s k = some v ∧ v < 40 ∧ standOfConv
      v = k ∧ (s.stand k).st ≠ 4 ∧ restOf s k v = some r ∧ restPasses s v r = false) ∧
    (∃ s : State, ∃ k : Fin 4, ∃ v r, s.stands.length = 4 ∧ s.convs.length = 40 ∧ s.chans.length = 36 ∧ (s.stand k).requal = some v
      ∧ v < 40 ∧ restOf s k v = some r ∧ restPasses s v r = true) ∧
    (∃ s : State, ∃ k : Fin 4, ∃ v r, s.stands.length = 4 ∧ s.convs.length = 40 ∧ s.chans.length = 36 ∧ (s.stand k).requal = some v
      ∧ v < 40 ∧ restOf s k v = some r ∧ restPasses s v r = false) :=
  ⟨⟨(standsAll old4 { Stand.reset with st := 0, phase := 1, spareChan := 35, dacN := 21250 }), 3, 35, by decide +kernel⟩,
   ⟨restUp goodMeas, 3, 35, ⟨0, 3145728, -3145728, none⟩, by decide +kernel⟩,
   ⟨restUp badMeas, 3, 35, ⟨0, 0, 0, none⟩, by decide +kernel⟩,
   ⟨requalUp goodMeas, 3, 35, ⟨0, 3145728, -3145728, some 0⟩, by decide +kernel⟩,
   ⟨requalUp badMeas, 3, 35, ⟨0, 0, 0, some 0⟩, by decide +kernel⟩⟩

theorem witness_CoppiceControlRequests :
    (∃ s : State, ∃ h : Hdr, ∃ stand : Nat, h.len = 4 ∧ Opens opCoppice h s ∧ standBad (s.accepted h) stand true (fun _ => true) =
      false) ∧
    (∃ s : State, ∃ h : Hdr, ∃ stand : Nat, h.len = 4 ∧ Opens opCoppice h s ∧ locked (s.accepted h) = false ∧ standBad (s.accepted
      h) stand true (fun d => d.st == 0) = false) ∧
    (∃ s : State, ∃ h : Hdr, ∃ stand : Nat, h.len = 4 ∧ Opens opCoppice h s ∧ locked (s.accepted h) = false ∧ standBad (s.accepted
      h) stand true (fun d => d.st ≤ 2) = false) ∧
    (∃ s : State, ∃ h : Hdr, ∃ stand : Nat, ∃ c, h.len = 4 ∧ Opens opCoppice h s ∧ locked (s.accepted h) = false ∧ standBad
      (s.accepted h) stand false (fun d => d.st ≤ 2) = false ∧ c ≤ 35 ∧ standOf c = stand) ∧
    (∃ s : State, ∃ h : Hdr, ∃ stand : Nat, h.len = 4 ∧ Opens opCoppice h s ∧ locked (s.accepted h) = false ∧ standBad (s.accepted
      h) stand false (fun d => d.st == 2) = false) ∧
    (∃ s : State, ∃ h : Hdr, ∃ stand : Nat, ∃ c, h.len = 4 ∧ Opens opCoppice h s ∧ locked (s.accepted h) = false ∧ standBad
      (s.accepted h) stand false (fun d => d.st == 1) = false ∧ c ≤ 35 ∧ standOf c = stand) ∧
    (∃ s : State, ∃ h : Hdr, ∃ stand : Nat, ∃ c, h.len = 4 ∧ Opens opCoppice h s ∧ locked (s.accepted h) = false ∧ canWrite
      (s.accepted h) h.path 2 = true ∧ standBad (s.accepted h) stand false (fun d => d.st == 3) = false ∧ c ≤ 39 ∧ standOfConv c
      = stand ∧ condemned (s.accepted h) c = true ∧ (s.accepted h).stands.length = 4) :=
  ⟨⟨oldS, ctl 4, 0xFF, by decide +kernel, opens rfl (by decide +kernel), by decide +kernel⟩,
   ⟨oldS, ctl 4, 0xFF, by decide +kernel, opens rfl (by decide +kernel), by decide +kernel⟩,
   ⟨oldS, ctl 4, 0xFF, by decide +kernel, opens rfl (by decide +kernel), by decide +kernel⟩,
   ⟨oldS, ctl 4, 3, 35, by decide +kernel, opens rfl (by decide +kernel), by decide +kernel⟩,
   ⟨(standsAll oldS { Stand.reset with st := 2 }), ctl 4, 3, by decide +kernel, opens rfl (by decide +kernel), by decide +kernel⟩,
   ⟨(standsAll oldS { Stand.reset with st := 1 }), ctl 4, 3, 35, by decide +kernel, opens rfl (by decide +kernel),
     by decide +kernel⟩,
   ⟨(standsAll oldS { Stand.reset with st := 3, condemned := 1023 }), ctl 4, 3, 39, by decide +kernel, opens rfl
     (by decide +kernel), by decide +kernel⟩⟩

theorem witness_StandActionsMoveTheSpare :
    (∃ s : State, ∃ k : Nat, k < 4 ∧ s.stands.length = 4 ∧ ((s.stand k).phase = 1 ∨ (s.stand k).phase = 2)) ∧
    (∃ s : State, ∃ k : Nat, k < 4 ∧ s.stands.length = 4 ∧ (s.stand k).phase ≠ 1 ∧ (s.stand k).phase ≠ 2) ∧
    (∃ s : State, ∃ k : Nat, ∃ c, k < 4 ∧ s.stands.length = 4 ∧ (s.stand k).st = 2 ∧ (s.stand k).pinChan = c) ∧
    (∃ s : State, ∃ k : Nat, ∃ c, k < 4 ∧ s.stands.length = 4 ∧ (¬((s.stand k).st = 2 ∧ (s.stand k).pinChan = c)) ∧ (shadowing s k c
      && spliceHolds s k c (matchLive s k (runMatch s k))) = true) ∧
    (∃ s : State, ∃ k : Nat, ∃ c, k < 4 ∧ s.stands.length = 4 ∧ (¬((s.stand k).st = 2 ∧ (s.stand k).pinChan = c)) ∧ (shadowing s k c
      && spliceHolds s k c (matchLive s k (runMatch s k))) = false) ∧
    (∃ s : State, ∃ k : Nat, ∃ j, k < 4 ∧ s.stands.length = 4 ∧ (s.stand k).st = 2 ∧ j ≠ k) :=
  ⟨⟨(standsAll old4 { Stand.reset with st := 0, phase := 2 }), 3, by decide +kernel⟩,
   ⟨(standsAll old4 { Stand.reset with st := 0, phase := 0 }), 3, by decide +kernel⟩,
   ⟨(standsAll old4 { Stand.reset with st := 2, pinChan := 35 }), 3, 35, by decide +kernel⟩,
   ⟨shadowUp, 3, 35, by decide +kernel⟩,
   ⟨(standsAll old4 { Stand.reset with st := 0, phase := 1, spareChan := 35 }), 3, 35, by decide +kernel⟩,
   ⟨(standsAll old4 { Stand.reset with st := 2 }), 3, 0, by decide +kernel⟩⟩

theorem witness_PathChecksQueueStartAndJudge :
    (∃ s : State, ∃ h : Hdr, ∃ c, Opens opPathCheck h s ∧ h.len = 4 ∧ c ≤ 35 ∧ chanSource (s.accepted h) c = 0 ∧ locked (s.accepted
      h) = false ∧ canWrite (s.accepted h) h.path 2 = true) ∧
    (∃ s : State, ∃ c : Check, s.stands.length = 4 ∧ c.chan ≤ 35 ∧ ((s.stand (standOf c.chan)).queue.filter (fun x => x.chan ==
      c.chan)).length ≤ 1) ∧
    (∃ s : State, ∃ k : Fin 4, ∃ c r, s.stands.length = 4 ∧ 3 ≤ s.pw.stage ∧ dacFree (s.stand k) = true ∧ (s.stand k).queue = c :: r
      ∧ chanSource s c.chan = 0) ∧
    (∃ s : State, ∃ k : Fin 4, ∃ c, s.stands.length = 4 ∧ s.chans.length = 36 ∧ c.chan ≤ 35 ∧ (s.stand k).active = some c ∧
      probeSamples ≤ (s.stand k).probe.length) :=
  ⟨⟨oldS, ctl 4, 35, opens rfl (by decide +kernel), by decide +kernel⟩,
   ⟨oldS, ⟨[0], 35, false, false⟩, by decide +kernel⟩,
   ⟨(standsAll old4 { Stand.reset with st := 1, queue := [⟨[0], 35, false, false⟩] }), 3, ⟨[0], 35, false, false⟩, [],
     by decide +kernel⟩,
   ⟨(standsAll old4 { Stand.reset with st := 1, active := some ⟨[0], 35, false, false⟩, probe := List.replicate 10000 0 }), 3,
     ⟨[0], 35, false, false⟩, by decide +kernel⟩⟩

theorem witness_SequencersArmTriggerAndWriteSnapshots :
    (∃ s : State, ∃ h : Hdr, ∃ n a, Opens opSnapshotArm h s ∧ h.len = 24 ∧ firstFail (armChecks (s.accepted h) n a 7) = none) ∧
    (∃ s : State, ∃ h : Hdr, ∃ n a l, Opens opSeqStart h s ∧ h.len = 28 + List.length l ∧ firstFail (armChecks (s.accepted h) n a 3)
      = none ∧ l ≠ [] ∧ l.length ≤ 36 ∧ (∀ c ∈ l, c ≤ 35 ∧ chanSource (s.accepted h) c = 0)) ∧
    (∃ s : State, ∃ n, ∃ a : ArmIn, n < 4 ∧ s.seqs.length = 4 ∧ a.source ≤ 3 ∧ (s.seq n).st = 2) ∧
    (∃ s : State, ∃ n, ∃ a : ArmIn, n < 4 ∧ s.seqs.length = 4 ∧ (a.source = 1 ∨ a.source = 3) ∧ (s.seq n).st ≠ 2) ∧
    (∃ s : State, ∃ n : Fin 4, ∃ a, s.seqs.length = 4 ∧ (s.seq n).arm = some a ∧ a.source = 3 ∧ (s.seq n).st = 1 ∧ (s.seq n).due ≠ 0
      ∧ ((s.seq n).late = true ∨ (s.seq n).due ≤ s.now)) ∧
    (∃ s : State, ∃ n : Fin 4, ∃ a wf x y, s.seqs.length = 4 ∧ (s.seq n).arm = some a ∧ a.job = .snapshot wf ∧ (s.seq n).st = 2 ∧
      snapAt s (pNearest (s.seq n).t) = some x ∧ snapAt s (wNearest (s.seq n).t / 15) = some y) :=
  ⟨⟨old4, ctl 24, 3, ⟨3, 0, 2, 0, time80 (1800000000 * tickSec), 86400000⟩, opens rfl (by decide +kernel), by decide +kernel⟩,
   ⟨old4, ctl 64, 3, ⟨3, 0, 2, 0, time80 (1800000000 * tickSec), 86400000⟩, List.replicate 36 35, opens rfl (by decide +kernel),
     by decide +kernel⟩,
   ⟨seqUp { Seq.reset with st := 2 }, 3, ⟨3, 0, 2, 0, time80 (1800000000 * tickSec), 86400000⟩, by decide +kernel⟩,
   ⟨old4, 3, ⟨3, 0, 2, 0, time80 (1800000000 * tickSec), 86400000⟩, by decide +kernel⟩,
   ⟨seqUp { Seq.reset with st := 1, due := 1, arm := some ⟨.snapshot true, 3, 0, 2, false, 0, 0⟩ }, 3, ⟨.snapshot true, 3, 0, 2,
     false, 0, 0⟩, by decide +kernel⟩,
   ⟨seqUp { Seq.reset with st := 2, t := 0, arm := some ⟨.snapshot true, 3, 0, 2, false, 0, 0⟩ }, 3, ⟨.snapshot true, 3, 0, 2,
     false, 0, 0⟩, true, ⟨0, [], [], [], []⟩, ⟨0, [], [], [], []⟩, by decide +kernel⟩⟩

theorem witness_FilterLoadsAndSwaps :
    (∃ s : State, ∃ h : Hdr, ∃ c, Opens opFilterStop h s ∧ h.len = 4 ∧ locked (s.accepted h) = false ∧ c ≤ 35 ∧ s.filts.length = 36) ∧
    (∃ s : State, ∃ h : Hdr, ∃ c, ∃ set : List Byte, Opens opFilterLoad h s ∧ setLen h set = true ∧ locked (s.accepted h) = false ∧
      c ≤ 35 ∧ setBad set = false ∧ s.filts.length = 36 ∧ (s.filt c).swap = none ∧ (s.filt c).held = none ∧ (s.filt c).stopped =
      true) ∧
    (∃ s : State, ∃ h : Hdr, ∃ c, ∃ set : List Byte, Opens opFilterLoad h s ∧ setLen h set = true ∧ locked (s.accepted h) = false ∧
      c ≤ 35 ∧ setBad set = false ∧ s.filts.length = 36 ∧ (s.filt c).swap = none ∧ (s.filt c).held = none ∧ (s.filt c).stopped =
      false ∧ (s.stand (standOf c)).st ≠ 3 ∧ chanSource (s.accepted h) c = 0) ∧
    (∃ s : State, ∃ h : Hdr, ∃ c, ∃ set : List Byte, Opens opFilterLoad h s ∧ setLen h set = true ∧ locked (s.accepted h) = false ∧
      c ≤ 35 ∧ setBad set = false ∧ canWrite (s.accepted h) h.path 2 = true ∧ keepFull (s.accepted h) c set = false ∧
      s.filts.length = 36 ∧ (s.filt c).swap = none ∧ (s.filt c).held = none ∧ ((s.filt c).stopped = true ∨ (s.stand (standOf
      c)).st ≠ 3 ∧ chanSource (s.accepted h) c = 0) ∧ ((s.accepted h).keepPut c set).2 = true) ∧
    (∃ s : State, ∃ h : Hdr, ∃ c, ∃ set : List Byte, Opens opFilterLoad h s ∧ setLen h set = true ∧ locked (s.accepted h) = false ∧
      c ≤ 35 ∧ setBad set = false ∧ canWrite (s.accepted h) h.path 2 = true ∧ keepFull (s.accepted h) c set = false ∧
      s.filts.length = 36 ∧ (s.filt c).swap = none ∧ (s.filt c).held = none ∧ ((s.filt c).stopped = true ∨ (s.stand (standOf
      c)).st ≠ 3 ∧ chanSource (s.accepted h) c = 0) ∧ ((s.accepted h).keepPut c set).2 = false) ∧
    (∃ s : State, ∃ h : Hdr, ∃ c, Opens opFilterStart h s ∧ h.len = 4 ∧ locked (s.accepted h) = false ∧ c ≤ 35 ∧ s.filts.length =
      36) ∧
    (∃ s : State, ∃ h : Hdr, ∃ c, ∃ set : List Byte, Opens opBankWrite h s ∧ setLen h set = true ∧ locked (s.accepted h) = false ∧ c
      ≤ 35 ∧ setBad set = false ∧ s.filts.length = 36 ∧ (s.filt c).actB = false ∧ (s.filt c).swap = none) ∧
    (∃ s : State, ∃ h : Hdr, ∃ c fade, Opens opBankSwap h s ∧ h.len = 8 ∧ locked (s.accepted h) = false ∧ c ≤ 35 ∧ fade ≤ 4095 ∧
      ((s.filt c).actB = true ∨ (s.filt c).bankB.isSome = true) ∧ (s.filt c).stopped = false ∧ (s.filt c).load = none ∧ (s.filt
      c).loading = none ∧ s.filts.length = 36 ∧ (s.filt c).swap = none) ∧
    (∃ s : State, ∃ h : Hdr, ∃ c fade, Opens opBankSwap h s ∧ h.len = 8 ∧ locked (s.accepted h) = false ∧ c ≤ 35 ∧ fade ≤ 4095 ∧
      ((s.filt c).actB = true ∨ (s.filt c).bankB.isSome = true) ∧ (s.filt c).stopped = false ∧ (s.filt c).load = none ∧ (s.filt
      c).loading = none ∧ s.filts.length = 36 ∧ (s.filt c).swap.isSome = true) ∧
    (∃ s : State, ∃ c : Fin 36, ∃ w, s.filts.length = 36 ∧ (s.filt c).swap = some w ∧ w.fading = false ∧ w.prime ≤ w.n) ∧
    (∃ s : State, ∃ c : Fin 36, ∃ w, s.filts.length = 36 ∧ (s.filt c).swap = some w ∧ w.fading = true ∧ w.fade ≤ w.n) :=
  ⟨⟨oldS, ctl 4, 35, opens rfl (by decide +kernel), by decide +kernel⟩,
   ⟨{ old4 with filts := List.replicate 36 { Filt.reset with stopped := true } }, ctl 564, 35, bigSet, opens rfl
     (by decide +kernel), by decide +kernel⟩,
   ⟨oldS, ctl 564, 35, bigSet, opens rfl (by decide +kernel), by decide +kernel⟩,
   ⟨{ oldS with filts := List.replicate 36 { Filt.reset with stopped := true } }, ctl 52, 35, zeros 48, opens rfl
     (by decide +kernel), by decide +kernel⟩,
   ⟨stuckAt oldS (partFirst 2) 128, ctl 564, 35, bigSet, opens rfl (by decide +kernel), by decide +kernel⟩,
   ⟨oldS, ctl 4, 35, opens rfl (by decide +kernel), by decide +kernel⟩,
   ⟨oldS, ctl 564, 35, bigSet, opens rfl (by decide +kernel), by decide +kernel⟩,
   ⟨{ old4 with filts := List.replicate 36 { Filt.reset with actB := true } }, ctl 8, 35, 4095, opens rfl (by decide +kernel),
     by decide +kernel⟩,
   ⟨{ old4 with filts := List.replicate 36 { Filt.reset with actB := true, swap := some ⟨true, 0, 0, false, 0, 0⟩ } }, ctl 8, 35,
     4095, opens rfl (by decide +kernel), by decide +kernel⟩,
   ⟨{ old4 with filts := List.replicate 36 { Filt.reset with swap := some ⟨true, 0, 0, false, 0, 0⟩ } }, 35, ⟨true, 0, 0, false, 0,
     0⟩, by decide +kernel⟩,
   ⟨{ old4 with filts := List.replicate 36 { Filt.reset with swap := some ⟨true, 0, 0, true, 0, 0⟩ } }, 35, ⟨true, 0, 0, true, 0,
     0⟩, by decide +kernel⟩⟩

theorem witness_ResultQueueStreamsAndIsRead :
    (∃ s : State, ∃ h : Hdr, ∃ p, Opens opQueueStream h s ∧ h.len = 4 ∧ (s.accepted h).lk.hushed = false ∧ p ≤ 1 ∧ (p = 1 → ipOf
      (s.accepted h) (pid 11 0 13) ≠ 0) ∧ s.qu.streaming = false ∧ rateNow (s.accepted h) ≤ 4000000) ∧
    (∃ s : State, ∃ h : Hdr, ∃ p, Opens opQueueStream h s ∧ h.len = 4 ∧ (s.accepted h).lk.hushed = false ∧ p ≤ 1 ∧ (p = 1 → ipOf
      (s.accepted h) (pid 11 0 13) ≠ 0) ∧ s.qu.streaming = true ∧ s.qu.push = (p == 1)) ∧
    (∃ s : State, ∃ h : Hdr, ∃ p, Opens opQueueStream h s ∧ h.len = 4 ∧ p ≤ 1) ∧
    (∃ s : State, ∃ d r, s.qu.due = d :: r) ∧
    (∃ s : State, ∃ h : Hdr, ∃ ack n, Opens opQueueRead h s ∧ h.len = 4 ∧ (s.accepted h).lk.hushed = false ∧ 4 ≤ n ∧ n ≤ 1018 ∧
      s.qu.push = false ∧ s.qu.sentCount ≠ 0 ∧ ack ≠ s.qu.readSeq) ∧
    (∃ s : State, ∃ h : Hdr, ∃ ack n, Opens opQueueRead h s ∧ h.len = 4 ∧ (s.accepted h).lk.hushed = false ∧ 4 ≤ n ∧ n ≤ 1018 ∧
      s.qu.push = false ∧ (s.qu.sentCount = 0 ∨ ack = s.qu.readSeq)) ∧
    (∃ s : State, let l := s.qu.entries.drop s.qu.inFlight; let n := fitEntries l 350;
      let f := udpFrame s 0 .bulk (ipOf s (pid 11 0 13), par s (pid 11 0 17)) 47310 (packet 0x41 (Config.freeNat s.free % 256) 0x0403 s.nt.node (le 2 s.qu.pushSeq ++ zeros 2 ++ entryBytes (l.take n)));
      s.qu.push = true ∧ s.lk.hushed = false ∧ s.nt.up = true ∧ s.wd.canopyRunning = true ∧ s.nt.waiting = [] ∧ n ≠ 0 ∧
      netReaches s (ipOf s (pid 11 0 13)) = true ∧ admits s f = true) :=
  ⟨⟨old4, ctl 4, 0, opens rfl (by decide +kernel), by decide +kernel⟩,
   ⟨{ old4 with qu := { old4.qu with streaming := true, push := false } }, ctl 4, 0, opens rfl (by decide +kernel),
     by decide +kernel⟩,
   ⟨old4, ctl 4, 1, opens rfl (by decide +kernel), by decide +kernel⟩,
   ⟨{ old4 with qu := { old4.qu with streaming := true, due := [dueUp] } }, dueUp, [], by decide +kernel⟩,
   ⟨{ old4 with qu := { old4.qu with sentCount := 1 } }, blk 4, 1, 1018, opens rfl (by decide +kernel), by decide +kernel⟩,
   ⟨old4, blk 4, 0, 4, opens rfl (by decide +kernel), by decide +kernel⟩,
   ⟨{ (old4.setPar 0x5803 0x0A000001) with qu := { (old4.setPar 0x5803 0x0A000001).qu with push := true, entries := [(0,
     List.replicate 350 0)] } }, by decide +kernel⟩⟩

theorem witness_CaptureUnitsRecordAndAreRead :
    (∃ s : State, ∃ h : Hdr, ∃ u, Opens opRecorder h s ∧ h.len = 4 ∧ u ≤ 3 ∧ s.units.length = 4 ∧ (s.unit u).st = 0 ∧ par
      (s.accepted h) (cuBase u + 1) ≠ 0 ∧ cuSlots (s.accepted h) u ≠ 0) ∧
    (∃ s : State, ∃ u : Fin 4, ∃ t src eid r, s.units.length = 4 ∧ (s.unit u).due = (t, src, eid) :: r) ∧
    (∃ s : State, ∃ u : Fin 4, ∃ k, s.units.length = 4 ∧ (s.unit u).cur = some k ∧ k.pre + k.post ≤ k.data.length ∧ (s.unit u).trig
      = 0 ∧ (s.unit u).held.length + 1 < (s.unit u).slots) ∧
    (∃ s : State, ∃ h : Hdr, ∃ u no off n c, Opens opCaptureRead h s ∧ h.len = 16 ∧ (s.accepted h).lk.hushed = false ∧ u ≤ 3 ∧
      heldCapture s u no = some c ∧ off < (captureBytes u c).length ∧ 4 ≤ n ∧ n ≤ 4064) ∧
    (∃ s : State, ∃ h : Hdr, ∃ u no, Opens opCaptureRelease h s ∧ h.len = 8 ∧ u ≤ 3 ∧ s.units.length = 4 ∧ (no = 0xFFFFFFFF ∨
      (heldCapture s u no).isSome = true)) ∧
    (∃ s : State, ∃ u : Fin 4, ∃ no, s.units.length = 4 ∧ (heldCapture s u no).any (fun k => k.reading.any (fun c => c + 10 *
      128000000 ≤ s.clk)) = true) :=
  ⟨⟨(((old4.setPar (cuBase 3 + 1) 1).setPar (cuBase 3 + 4) 7168).setPar (cuBase 3 + 3) 1), ctl 4, 3, opens rfl (by decide +kernel),
     by decide +kernel⟩,
   ⟨(unitsAll { CapUnit.reset with due := [(0, 3, 7)] }), 3, 0, 3, 7, [], by decide +kernel⟩,
   ⟨(unitsAll { CapUnit.reset with st := 2, slots := 2, cur := some ⟨1, 0, 0, 0, 0, 0, 1, 0, 0, 1, 0, [], [[0]], true, none⟩ }), 3,
     ⟨1, 0, 0, 0, 0, 0, 1, 0, 0, 1, 0, [], [[0]], true, none⟩, by decide +kernel⟩,
   ⟨(unitsAll { CapUnit.reset with held := [⟨1, 0, 0, 0, 0, 0, 1, 0, 0, 1, 0, [], [[0]], true, none⟩] }), blk 16, 3, 1, 0, 4064,
     ⟨1, 0, 0, 0, 0, 0, 1, 0, 0, 1, 0, [], [[0]], true, none⟩, opens rfl (by decide +kernel), by decide +kernel⟩,
   ⟨old4, ctl 8, 3, 0xFFFFFFFF, opens rfl (by decide +kernel), by decide +kernel⟩,
   ⟨(unitsAll { CapUnit.reset with held := [⟨1, 0, 0, 0, 0, 0, 1, 0, 0, 1, 0, [], [[0]], true, (some 0)⟩] }), 3, 1,
     by decide +kernel⟩⟩

theorem witness_FramesBlocksAndRegisters :
    (∃ s : State, ∃ frames : List (List ConvIn), framesFit s frames = true ∧ delivers s = true ∧ s.chans.length = 36) ∧
    (∃ s : State, ∃ frames : List (List ConvIn), framesFit s frames = true ∧ delivers s = false) ∧
    (∃ s : State, ∃ frames : List (List ConvIn), framesFit s frames = false) ∧
    (∃ s : State, ∃ k : Fin 8, cfOver s k (s.me.cfs.getD k Cf.reset) = true) ∧
    (∃ s : State, delivers s = true ∧ s.te.running = true ∧ blockDue s = true) :=
  ⟨⟨old4, [List.replicate 40 ⟨2 ^ 960 - 1, [959]⟩], by decide +kernel⟩,
   ⟨{ old4 with pw := { old4.pw with phase := .loaded } }, [List.replicate 40 ⟨0, []⟩], by decide +kernel⟩,
   ⟨old4, [[]], by decide +kernel⟩,
   ⟨{ old4 with me := { old4.me with cfs := List.replicate 8 { Cf.reset with pulse := true, since := 2 ^ 20 } } }, 7,
     by decide +kernel⟩,
   ⟨old4, by decide +kernel⟩⟩

theorem witness_DemandEnergyReadAndCfTest :
    (∃ s : State, ∃ sec, let id := pid 2 0 4;
      let new := ((s.pr.scheduled.lookup id).getD (par s id), (s.pr.scheduled.lookup (id + 1)).getD (par s (id + 1)));
      let waits := s.pr.scheduled.any fun e => e.1 == id || e.1 == id + 1; s.me.fromB1 = true ∧ blockSec s = some sec ∧
      s.me.subEnd ≠ some sec ∧ (waits && decide (sec % (subLen new : Int) = 0)) = false ∧ sec % (subLen s.me.demandCfg : Int) =
      0) ∧
    (∃ s : State, ∃ sec, let id := pid 2 0 4;
      let new := ((s.pr.scheduled.lookup id).getD (par s id), (s.pr.scheduled.lookup (id + 1)).getD (par s (id + 1)));
      let waits := s.pr.scheduled.any fun e => e.1 == id || e.1 == id + 1; s.me.fromB1 = true ∧ blockSec s = some sec ∧
      s.me.subEnd ≠ some sec ∧ (waits && decide (sec % (subLen new : Int) = 0)) = true) ∧
    (∃ s : State, (s.me.fromB1 = false ∨ blockSec s = none ∨ s.me.subEnd = blockSec s)) ∧
    (∃ s : State, ∃ h : Hdr, ∃ c, Opens opDemandReset h s ∧ h.len = 4 ∧ locked (s.accepted h) = false ∧ canWrite (s.accepted h)
      h.path 1 = true ∧ (c ≤ 27 ∨ c = 0xFF)) ∧
    (∃ s : State, ∃ h : Hdr, ∃ source level first count mask, Opens opEnergyRead h s ∧ h.len = 8 ∧ source ≤ 1 ∧ level ≤ 1 ∧ 1 ≤
      count ∧ first + count ≤ 28 ∧ 1 ≤ mask ∧ mask ≤ (if source = 1 then 3 else 4095)) ∧
    (∃ s : State, ∃ h : Hdr, ∃ mask d, Opens opCfTest h s ∧ h.len = 4 ∧ locked (s.accepted h) = false ∧ canWrite (s.accepted h)
      h.path 2 = true ∧ 1 ≤ d ∧ d ≤ par (s.accepted h) (pid 2 0 11) ∧ cfMaskBad (s.accepted h) mask = false) ∧
    (∃ s : State, ∃ h : Hdr, Opens opCfTest h s ∧ h.len = 4 ∧ locked (s.accepted h) = false ∧ canWrite (s.accepted h) h.path 2 =
      true ∧ s.me.testActive = false) ∧
    (∃ s : State, ∃ h : Hdr, Opens opCfTest h s ∧ h.len = 4 ∧ locked (s.accepted h) = false ∧ canWrite (s.accepted h) h.path 2 =
      true ∧ s.me.testActive = true) ∧
    (∃ s : State, s.me.testActive = true ∧ (s.me.testEnd ≤ s.clk ∨ ∃ c ∈ s.me.cfs, c.test = true ∧ c.testEnd ≤ s.clk)) :=
  ⟨⟨{ oldS with me := { oldS.me with fromB1 := true, blockEnd := time80 (1800000000 * tickSec) } }, 1800000000, by decide +kernel⟩,
   ⟨{ oldS with me := { oldS.me with fromB1 := true, blockEnd := time80 (1800000000 * tickSec) }, pr := { oldS.pr with scheduled :=
     [(pid 2 0 4, 15), (pid 2 0 4 + 1, 1)] } }, 1800000000, by decide +kernel⟩,
   ⟨{ oldS with me := { oldS.me with fromB1 := false } }, by decide +kernel⟩,
   ⟨oldS, ctl 4, 27, opens rfl (by decide +kernel), by decide +kernel⟩,
   ⟨oldS, ctl 8, 1, 1, 27, 1, 3, opens rfl (by decide +kernel), by decide +kernel⟩,
   ⟨oldS, ctl 4, 0, 1, opens rfl (by decide +kernel), by decide +kernel⟩,
   ⟨oldS, ctl 4, opens rfl (by decide +kernel), by decide +kernel⟩,
   ⟨{ oldS with me := { oldS.me with testActive := true } }, ctl 4, opens rfl (by decide +kernel), by decide +kernel⟩,
   ⟨{ oldS with me := { oldS.me with testActive := true } }, rfl, .inl (by decide +kernel)⟩⟩

theorem witness_DipsOpenCloseAndAreRecorded :
    (∃ s : State, ∃ b : Fin 2, ∃ e : Rat, s.pq.running = true ∧ s.pq.buses.length = 2 ∧ nextHalf s b = some e ∧ e ≤ (waveN s : Rat)
      ∧ (let s1 := s.busAFirst b e; let x := s1.onPr fun q => { q with applied := (parsAt s1 (instantOf s1 e)).getD q.applied };
      nextHalf s1 b = some e ∧ e ≤ (waveN s1 : Rat) ∧ (pqBus s1 b).open_ = [] ∧ (∃ (p : Nat) (v : Rat), (urmsAt x b e)[p]? =
      some v ∧ v < pqPct x b 2 * dipRef x b p))) ∧
    (∃ s : State, ∃ b : Fin 2, ∃ e : Rat, ∃ v : PqEvent, s.pq.running = true ∧ s.pq.buses.length = 2 ∧ nextHalf s b = some e ∧ e ≤
      (waveN s : Rat) ∧ (let s1 := s.busAFirst b e;
      let x := s1.onPr fun q => { q with applied := (parsAt s1 (instantOf s1 e)).getD q.applied }; nextHalf s1 b = some e ∧ e ≤
      (waveN s1 : Rat) ∧ (pqBus s1 b).open_ = [v] ∧ v.cls = 0 ∧ (∀ (p : Nat) (u : Rat), (urmsAt x b e)[p]? = some u → (pqPct x b
      2 + pqPct x b 5) * dipRef x b p ≤ u))) ∧
    (∃ s : State, ∃ e r, s.pq.writes = e :: r ∧ s.wd.canopyRunning = true ∧ e.pos < 1024) ∧
    (∃ s : State, ∃ k, s.wd.canopyRunning = true ∧ staleOpen s = some k) :=
  ⟨⟨dipUp [], 1, 250, by decide +kernel, by decide +kernel, by decide +kernel, by decide +kernel, by decide +kernel,
     by decide +kernel, by decide +kernel, 0, 0, by decide +kernel, by decide +kernel⟩,
   ⟨dipUp [dipEv], 1, 250, dipEv, by decide +kernel, by decide +kernel, by decide +kernel, by decide +kernel, by decide +kernel,
     by decide +kernel, by decide +kernel, by decide +kernel, dip_high⟩,
   ⟨{ old4 with pq := { old4.pq with writes := [dipEv] } }, dipEv, [], by decide +kernel⟩,
   ⟨staleUp, 1023, by decide +kernel⟩⟩

theorem witness_WindowsAndAggregates :
    (∃ s : State, ∃ b : Fin 2, ∃ w : PqWin, ∃ x : Bool, s.pq.running = true ∧ s.pq.buses.length = 2 ∧ winDue s b = some (w, x)) ∧
    (∃ s : State, ∃ b : Fin 2, ∃ endT st : Nat, s.pq.agg = true ∧ s.pq.buses.length = 2 ∧ (pqBus s b).aggDue = some (endT, st) ∧
      (let s1 := s.busAFirst b (placeOf s endT); (pqBus s1 b).aggDue = some (endT, st))) ∧
    (∃ s : State, ∃ b : Fin 2, ∃ f : Rat, s.pq.running = true ∧ s.pq.buses.length = 2 ∧ s.wave ≠ [] ∧ (pqBus s b).idx10 < utcIdx s
      (waveT s + pTick) 10 ∧ hzBetween (pqBus s b).crosses (pqBus s b).start10 (placeOf s (boundary s (utcIdx s (waveT s +
      pTick) 10) 10)) = some f) ∧
    (∃ s : State, s.pq.running = true ∧ s.pq.idx3s < utcIdx s s.now 3 ∧ s.pq.agg = true) ∧
    (∃ s : State, utcIdx s s.now 3 ≤ s.pq.idx3s) :=
  ⟨⟨{ busesAll { PqBus.reset with win := some ⟨0, 50, 0, none⟩ } with wave := [wave0 5000] }, 1, ⟨0, 50, 0, none⟩, false,
     by decide +kernel⟩,
   ⟨(busesAll { PqBus.reset with aggDue := some (0, 0) }), 0, 0, 0, by decide +kernel⟩,
   ⟨freqUp, 1, 5, by decide +kernel⟩,
   ⟨old4, by decide +kernel⟩,
   ⟨{ old4 with pq := { old4.pq with idx3s := 2 ^ 40 } }, by decide +kernel⟩⟩

theorem witness_ClockAlignedIntervalsAndArchive :
    (∃ s : State, s.pq.agg = true ∧ s.pq.buses.length = 2 ∧ s.pq.idx10m < utcIdx s s.now 600) ∧
    (∃ s : State, s.pq.agg = false ∧ s.pq.idx10m < utcIdx s s.now 600) ∧
    (∃ s : State, utcIdx s s.now 600 ≤ s.pq.idx10m) ∧
    (∃ s : State, s.pq.agg = true ∧ s.pq.idx2h < utcIdx s s.now 7200) ∧
    (∃ s : State, s.pq.agg = false ∧ s.pq.idx2h < utcIdx s s.now 7200) ∧
    (∃ s : State, utcIdx s s.now 7200 ≤ s.pq.idx2h) ∧
    (∃ s : State, ∃ r l, s.pq.archive = r :: l ∧ s.wd.canopyRunning = true ∧ r.length = 128 ∧ s.pq.archivePos < 1024 ∧ ((archKey
      r).1 = 1 → ∀ e, (pqBus s 0).edge = some e → time80 e.endT ≠ (archKey r).2)) :=
  ⟨⟨old4, by decide +kernel⟩,
   ⟨{ old4 with pq := { old4.pq with agg := false } }, by decide +kernel⟩,
   ⟨{ old4 with pq := { old4.pq with idx10m := 2 ^ 40 } }, by decide +kernel⟩,
   ⟨old4, by decide +kernel⟩,
   ⟨{ old4 with pq := { old4.pq with agg := false } }, by decide +kernel⟩,
   ⟨{ old4 with pq := { old4.pq with idx2h := 2 ^ 40 } }, by decide +kernel⟩,
   ⟨{ old4 with pq := { old4.pq with archive := [zeros 128], archivePos := 1023 } }, zeros 128, [], rfl, rfl, rfl, by decide, fun h
     => absurd h (by decide +kernel)⟩⟩

theorem witness_PowerQualityIsRead :
    (∃ s : State, ∃ h : Hdr, ∃ kind level chan first count, Opens opPqRead h s ∧ h.len = 8 ∧ s.lk.hushed = false ∧ kind ≤ 4 ∧ level
      ≤ 3 ∧ chan ≤ (if kind = 4 then 1 else 35) ∧ 1 ≤ count ∧ first + count ≤ kindCount kind ∧ (kind = 3 → par (s.accepted h)
      (pid 16 chan 6) = 1) ∧ (pqValues (s.accepted h) kind level chan first count).length = count) ∧
    (∃ s : State, ∃ level r, pqResult s 0 level 0 = some r ∧ r.vals ≠ []) ∧
    (∃ s : State, ∃ b t, (pqBus s b).freqEnd = some t) ∧
    (∃ s : State, ∃ h : Hdr, ∃ count, Opens opPqEventRead h s ∧ h.len = 8 ∧ canRead (s.accepted h) h.path 4 = true ∧ 1 ≤ count ∧
      count ≤ 32) ∧
    (∃ s : State, ∃ h : Hdr, ∃ bus count fromT, Opens opPqArchiveRead h s ∧ h.len = 16 ∧ canRead (s.accepted h) h.path 4 = true ∧
      s.lk.hushed = false ∧ (bus ≤ 1 ∨ bus = 0xFF) ∧ 1 ≤ count ∧ count ≤ 31 ∧ time80Ok fromT = true) :=
  ⟨⟨{ old4 with pq := { old4.pq with results := [⟨4, 3, 1, 0, 0, List.replicate 27 0, 0⟩] } }, blk 8, 4, 3, 1, 26, 1, opens rfl
     (by decide +kernel), by decide +kernel⟩,
   ⟨{ old4 with pq := { old4.pq with results := [⟨0, 3, 0, 0, 0, [0], 0⟩] } }, 3, ⟨0, 3, 0, 0, 0, [0], 0⟩, by decide +kernel⟩,
   ⟨(busesAll { PqBus.reset with freqEnd := some 0 }), 1, 0, by decide +kernel⟩,
   ⟨oldS, ctl 8, 32, opens rfl (by decide +kernel), by decide +kernel⟩,
   ⟨oldS, blk 16, 0xFF, 31, 0, opens rfl (by decide +kernel), by decide +kernel⟩⟩

theorem witness_ReportsAreLatchedAndSent :
    (∃ s : State, ∃ x : Wave, ∃ u : Nat, let s1 := s.pmuDue; s.pm.running = true ∧ reportDue s1 = some (x, u)) ∧
    (∃ s : State, let s1 := s.pmuDue; s.pm.running = true ∧ reportDue s1 = none) ∧
    (∃ s : State, s.pm.running = false) ∧
    (∃ s : State, ∃ k, s.nt.waiting.findIdx? (fun f => f.kind == .phasor) = some k ∧ s.pm.waitEnd.headD 0 ≤ s.clk) ∧
    (∃ s : State, ∃ c l a, s.pm.changes = [(c, l)] ∧ pmuEffect s c = some a ∧ a ≤ s.now) ∧
    (∃ s : State, ∃ c l r, s.pm.changes = (c, l) :: r ∧ (∀ a, pmuEffect s c = some a → s.now < a)) ∧
    (∃ s : State, ∃ c, s.pm.on = true ∧ s.clk < c + 60 * 128000000) :=
  ⟨⟨reportUp, wave0 0, 0, rfl, by decide +kernel⟩,
   ⟨old4, by decide +kernel⟩,
   ⟨{ old4 with pm := { old4.pm with running := false } }, by decide +kernel⟩,
   ⟨{ old4 with nt := { old4.nt with waiting := [rawFrame 6 .phasor [] 3] } }, 0, by decide +kernel⟩,
   ⟨{ old4 with pm := { old4.pm with changes := [(0, [])], on := true } }, 0, [], 0, by decide +kernel⟩,
   ⟨{ old4 with pm := { old4.pm with changes := [(2 ^ 60, [])], on := true } }, 2 ^ 60, [], [], rfl, fun a h => nomatch h⟩,
   ⟨{ old4 with pm := { old4.pm with on := true } }, 2 ^ 60, by decide +kernel⟩⟩

theorem witness_SynchrophasorCommandsAndRequests :
    (∃ s : State, ∃ c : PmuCmdIn, cmdAccepted s c = true ∧ cmdWord c = 1) ∧
    (∃ s : State, ∃ c : PmuCmdIn, cmdAccepted s c = true ∧ cmdWord c = 2 ∧ (s.lk.hushed = true ∨ (pmuDst s).1 = 0)) ∧
    (∃ s : State, ∃ c : PmuCmdIn, cmdAccepted s c = true ∧ cmdWord c = 2 ∧ s.lk.hushed = false ∧ (pmuDst s).1 ≠ 0) ∧
    (∃ s : State, ∃ c : PmuCmdIn, cmdAccepted s c = true ∧ cmdWord c = 5) ∧
    (∃ s : State, ∃ c : PmuCmdIn, cmdAccepted s c = true ∧ cmdWord c ≠ 1 ∧ cmdWord c ≠ 2 ∧ cmdWord c ≠ 5) ∧
    (∃ s : State, ∃ c : PmuCmdIn, cmdAccepted s c = false) ∧
    (∃ s : State, ∃ h : Hdr, ∃ first count, Opens opPmuRead h s ∧ h.len = 4 ∧ 1 ≤ count ∧ first + count ≤ 126) ∧
    (∃ s : State, ∃ h : Hdr, Opens opPmuControl h s ∧ h.len = 4 ∧ s.lk.hushed = false ∧ (pmuDst (s.accepted h)).1 ≠ 0) ∧
    (∃ s : State, ∃ h : Hdr, Opens opPmuControl h s ∧ h.len = 4 ∧ (pmuDst (s.accepted h)).1 ≠ 0) :=
  ⟨⟨pmuUp, pmuCmd 1, by decide +kernel⟩,
   ⟨pmuUp, pmuCmd 2, by decide +kernel⟩,
   ⟨(pmuUp.setPar (pid 6 0 13) 0x0A000002), pmuCmd 2, by decide +kernel⟩,
   ⟨pmuUp, pmuCmd 5, by decide +kernel⟩,
   ⟨pmuUp, pmuCmd 3, by decide +kernel⟩,
   ⟨pmuUp, ⟨0, 0, []⟩, by decide +kernel⟩,
   ⟨old4, ctl 4, 125, 1, opens rfl (by decide +kernel), by decide +kernel⟩,
   ⟨(pmuUp.setPar (pid 6 0 13) 0x0A000002), ctl 4, opens rfl (by decide +kernel), by decide +kernel⟩,
   ⟨(pmuUp.setPar (pid 6 0 13) 0x0A000002), ctl 4, opens rfl (by decide +kernel), by decide +kernel⟩⟩

theorem witness_LinksFramesAndHostFrames :
    (∃ s : State, ∃ k : Fin 2, portOn s k = true ∧ (s.port k).link = 0 ∧ s.nt.ports.length = 2) ∧
    (∃ s : State, ∃ k : Fin 2, portUp s k = true ∧ s.nt.ports.length = 2) ∧
    (∃ s : State, ∃ k : Fin 2, ∃ i f, nextFrame k 0 s.nt.egress none = some (i, f) ∧ s.nt.ports.length = 2 ∧ portUp s k = true) ∧
    (∃ s : State, ∃ k : Fin 2, ∃ i f, nextFrame k 0 s.nt.egress none = some (i, f) ∧ s.nt.ports.length = 2 ∧ portUp s k = false) ∧
    (∃ s : State, ∃ k : Fin 2, nextFrame k 0 s.nt.egress none = none) ∧
    (∃ s : State, ∃ i f, waitingNext s = some (i, f) ∧ admits s f = true) ∧
    (∃ s : State, ∃ i f, waitingNext s = some (i, f) ∧ admits s f = false ∧ (limiterOk s f.ports = true ∨ f.held = true)) ∧
    (∃ s : State, ∃ i f, waitingNext s = some (i, f) ∧ limiterOk s f.ports = false ∧ f.held = false) ∧
    (∃ s : State, waitingNext s = none) ∧
    (∃ s : State, ∃ h : Hdr, ∃ ports flags, ∃ frame : List Byte, Opens opNetTx h s ∧ h.len = 4 + frame.length ∧ 14 ≤ frame.length ∧
      frame.length ≤ 1514 ∧ (flags = 1 ∨ (flags = 0 ∧ s.lk.hushed = false)) ∧ ports ≤ 3) ∧
    (∃ s : State, ∃ h : Hdr, ∃ f r, Opens opNetRxRead h s ∧ h.len = 0 ∧ s.nt.rxQueue = f :: r) ∧
    (∃ s : State, ∃ h : Hdr, Opens opNetRxRead h s ∧ h.len = 0 ∧ s.nt.rxQueue = []) ∧
    (∃ s : State, ∃ clk addr port tag r, s.nt.idents = (clk, addr, port, tag) :: r ∧ s.after clk (32000 * s.nt.node) = true ∧
      s.nt.up = true ∧ 2 ≤ s.pw.stage) :=
  ⟨⟨portsAll Port.reset, 1, by decide +kernel⟩,
   ⟨old4, 1, by decide +kernel⟩,
   ⟨{ old4 with nt := { old4.nt with egress := [rawFrame 7 .reply [] 3] } }, 1, 0, rawFrame 7 .reply [] 3, by decide +kernel⟩,
   ⟨{ old4 with nt := { old4.nt with egress := [rawFrame 7 .reply [] 3], ports := List.replicate 2 Port.reset } }, 1, 0, rawFrame 7
     .reply [] 3, by decide +kernel⟩,
   ⟨old4, 1, by decide +kernel⟩,
   ⟨{ old4 with nt := { old4.nt with waiting := [rawFrame 7 .reply [] 3], tokens := 2 ^ 40 } }, 0, rawFrame 7 .reply [] 3,
     by decide +kernel⟩,
   ⟨{ old4 with nt := { old4.nt with waiting := [rawFrame 7 .reply [] 3], tokens := 0, tokenClk := 2 ^ 60 } }, 0, rawFrame 7 .reply
     [] 3, by decide +kernel⟩,
   ⟨reserveUp, 0, rawFrame 7 .reply [] 3, by decide +kernel⟩,
   ⟨old4, by decide +kernel⟩,
   ⟨old4, ctl 1518, 3, 1, zeros 1514, opens rfl (by decide +kernel), by decide +kernel⟩,
   ⟨{ old4 with nt := { old4.nt with rxQueue := [⟨0, 0, zeros 60⟩] } }, ctl 0, ⟨0, 0, zeros 60⟩, [], opens rfl (by decide +kernel),
     by decide +kernel⟩,
   ⟨old4, ctl 0, opens rfl (by decide +kernel), by decide +kernel⟩,
   ⟨{ old4 with nt := { old4.nt with idents := [(0, 0, 0, 0)] } }, 0, 0, 0, 0, [], rfl, by decide +kernel⟩⟩

theorem witness_RingForwardsOnceAndSupervises :
    (∃ s : State, ∃ k : Fin 2, ∃ f : FrameIn, portUp s k = true ∧ s.nt.ports.length = 2 ∧ frameGood f = false) ∧
    (∃ s : State, ∃ k : Fin 2, ∃ f : FrameIn, portUp s k = true ∧ s.nt.ports.length = 2 ∧
      (let e := ethOf (s.nt.mode == 0) (frameBody f); frameGood f = true ∧ ptpOf e = none ∧ s.nt.mode = 0 ∧ e.seq = none)) ∧
    (∃ s : State, ∃ k : Fin 2, ∃ f : FrameIn, ∃ q, portUp s k = true ∧ s.nt.ports.length = 2 ∧
      (let e := ethOf (s.nt.mode == 0) (frameBody f); frameGood f = true ∧ s.nt.mode = 0 ∧ e.seq = some q ∧ e.src ≠ macAddr)) ∧
    (∃ s : State, ∃ k : Fin 2, ∃ f : FrameIn, ∃ q, portUp s k = true ∧ s.nt.ports.length = 2 ∧
      (let e := ethOf (s.nt.mode == 0) (frameBody f); frameGood f = true ∧ s.nt.mode = 0 ∧ e.seq = some q ∧ e.src = macAddr ∧
      e.etype = 0x88FB)) ∧
    (∃ s : State, ∃ k : Fin 2, ∃ f : FrameIn, portUp s k = true ∧ s.nt.ports.length = 2 ∧
      (let e := ethOf (s.nt.mode == 0) (frameBody f); frameGood f = true ∧ ptpOf e = none ∧ s.nt.mode = 1)) ∧
    (∃ s : State, ∃ k : Fin 2, ∃ f : FrameIn, portUp s k = true ∧ s.nt.ports.length = 2 ∧
      (let e := ethOf (s.nt.mode == 0) (frameBody f); frameGood f = true ∧ ptpOf e = none ∧ s.nt.mode = 2)) ∧
    (∃ s : State, ∃ e r, s.nt.discard = e :: r ∧ s.after e.2 (par s (pid 11 0 21) * cycMs) = true) ∧
    (∃ s : State, ∃ e r, s.nt.discard = e :: r ∧ s.after e.2 (par s (pid 11 0 21) * cycMs) = false) ∧
    (∃ s : State, ∃ e r, s.nt.learn = e :: r ∧ s.after e.2.2 (300 * cycS) = true) ∧
    (∃ s : State, ∃ e r, s.nt.learn = e :: r ∧ s.after e.2.2 (300 * cycS) = false) ∧
    (∃ s : State, s.nt.up = true ∧ s.nt.mode = 0 ∧ s.nt.superClk.any (fun c => !s.after c (2 * cycS)) = false) ∧
    (∃ s : State, s.nt.ringOpen = false ∧ (3 ≤ (s.port 0).superMiss ∨ 3 ≤ (s.port 1).superMiss)) :=
  ⟨⟨old4, 1, ⟨zeros 64, 0, 0⟩, by decide +kernel⟩,
   ⟨old4, 1, frameOf ethFrame, by decide +kernel⟩,
   ⟨old4, 1, frameOf (hsrFrame (macAddr + 1) 0x0800 65535), 65535, by decide +kernel, rfl, frameGood_frameOf (by decide), rfl,
     by rw [frameBody_frameOf]; rfl,
     by rw [frameBody_frameOf]; exact fun h => absurd ((hsrFrame_src ..).symm.trans h) (by have := macAddr_lt; omega)⟩,
   ⟨old4, 1, frameOf (hsrFrame macAddr 0x88FB 65535), 65535, by decide +kernel, rfl, frameGood_frameOf (by decide), rfl,
     by rw [frameBody_frameOf]; rfl, by rw [frameBody_frameOf]; exact (hsrFrame_src ..).trans (Nat.mod_eq_of_lt macAddr_lt),
     by rw [frameBody_frameOf]; rfl⟩,
   ⟨{ old4 with nt := { old4.nt with mode := 1 } }, 1, frameOf ethFrame, by decide +kernel⟩,
   ⟨{ old4 with nt := { old4.nt with mode := 2 } }, 0, frameOf ethFrame, by decide +kernel⟩,
   ⟨{ old4 with nt := { old4.nt with discard := [((1, 1), 0)] } }, ((1, 1), 0), [], by decide +kernel⟩,
   ⟨{ old4 with nt := { old4.nt with discard := [((1, 1), 2 ^ 60)] } }, ((1, 1), 2 ^ 60), [], by decide +kernel⟩,
   ⟨{ old4 with nt := { old4.nt with learn := [(1, 1, 0)] } }, (1, 1, 0), [], by decide +kernel⟩,
   ⟨{ old4 with nt := { old4.nt with learn := [(1, 1, 2 ^ 60)] } }, (1, 1, 2 ^ 60), [], by decide +kernel⟩,
   ⟨old4, by decide +kernel⟩,
   ⟨portsAll { Port.reset with superMiss := 3 }, by decide +kernel⟩⟩

theorem witness_PtpMessagesSteerAndMeasure :
    (∃ s : State, ∃ k : Fin 2, ∃ f : FrameIn, ∃ m : List Byte, let e := ethOf (s.nt.mode == 0) (frameBody f); portUp s k = true ∧
      s.nt.ports.length = 2 ∧ frameGood f = true ∧ ptpOf e = some m ∧ ptpType m = 0) ∧
    (∃ s : State, ∃ k : Fin 2, ∃ f : FrameIn, ∃ m : List Byte, ∃ w, let e := ethOf (s.nt.mode == 0) (frameBody f); portUp s k = true
      ∧ s.nt.ports.length = 2 ∧ frameGood f = true ∧ ptpOf e = some m ∧ ptpType m = 8 ∧ (s.port k).syncWait = some w) ∧
    (∃ s : State, ∃ k : Fin 2, ∃ f : FrameIn, ∃ m : List Byte, let e := ethOf (s.nt.mode == 0) (frameBody f); portUp s k = true ∧
      s.nt.ports.length = 2 ∧ frameGood f = true ∧ ptpOf e = some m ∧ ptpType m = 11) ∧
    (∃ s : State, ∃ k : Fin 2, ∃ f : FrameIn, ∃ m : List Byte, let e := ethOf (s.nt.mode == 0) (frameBody f); portUp s k = true ∧
      s.nt.ports.length = 2 ∧ frameGood f = true ∧ ptpOf e = some m ∧ ptpType m = 2 ∧ s.wd.canopyRunning = true) ∧
    (∃ s : State, ∃ k : Fin 2, portUp s k = true ∧ s.nt.ports.length = 2 ∧ s.wd.canopyRunning = true ∧ (s.port k).askClk.any (fun c
      => !s.after c cycS) = false) ∧
    (∃ s : State, ∃ k : Fin 2, ∃ f : FrameIn, ∃ m : List Byte, let e := ethOf (s.nt.mode == 0) (frameBody f); portUp s k = true ∧
      s.nt.ports.length = 2 ∧ frameGood f = true ∧ ptpOf e = some m ∧ s.wd.canopyRunning = true ∧ (s.port k).peerAsk = true ∧
      ptpAsked m = portIdentity k ∧ ptpSeq m = ((s.port k).peerSeq + 65535) % 65536 ∧ ptpType m = 3 ∧ ptpTwoStep m = true) ∧
    (∃ s : State, ∃ k : Fin 2, ∃ f : FrameIn, ∃ m : List Byte, ∃ x, let e := ethOf (s.nt.mode == 0) (frameBody f); portUp s k = true
      ∧ s.nt.ports.length = 2 ∧ frameGood f = true ∧ ptpOf e = some m ∧ s.wd.canopyRunning = true ∧ (s.port k).peerAsk = true ∧
      ptpAsked m = portIdentity k ∧ ptpSeq m = ((s.port k).peerSeq + 65535) % 65536 ∧
      (let stamp := s.te.txInt.find? fun x => x.port == k.val && x.id == requestId ((s.port k).peerSeq + 65535); ptpType m = 3 ∧
      ptpTwoStep m = false ∧ stamp = some x)) ∧
    (∃ s : State, ∃ k : Fin 2, ∃ f : FrameIn, ∃ m : List Byte, ∃ x w, let e := ethOf (s.nt.mode == 0) (frameBody f); portUp s k =
      true ∧ s.nt.ports.length = 2 ∧ frameGood f = true ∧ ptpOf e = some m ∧ s.wd.canopyRunning = true ∧ (s.port k).peerAsk =
      true ∧ ptpAsked m = portIdentity k ∧ ptpSeq m = ((s.port k).peerSeq + 65535) % 65536 ∧
      (let stamp := s.te.txInt.find? fun x => x.port == k.val && x.id == requestId ((s.port k).peerSeq + 65535); ptpType m = 10
      ∧ (s.port k).resp = some w ∧ w.seq = ptpSeq m ∧ stamp = some x)) :=
  ⟨⟨old4, 1, frameOf (ptpFrame (ptpBody 0 0 1 (zeros 30))), ptpBody 0 0 1 (zeros 30), by decide +kernel⟩,
   ⟨syncUp, 1, frameOf (ptpFrame (ptpBody 8 0 1 (zeros 30))), ptpBody 8 0 1 (zeros 30), ⟨1, 1, 0, 0⟩, by decide +kernel⟩,
   ⟨old4, 1, frameOf (ptpFrame (ptpBody 11 0 1 (zeros 30))), ptpBody 11 0 1 (zeros 30), by decide +kernel⟩,
   ⟨old4, 1, frameOf (ptpFrame (ptpBody 2 0 1 (zeros 30))), ptpBody 2 0 1 (zeros 30), by decide +kernel⟩,
   ⟨old4, 1, by decide +kernel⟩,
   ⟨askedUp, 0, frameOf (ptpFrame (respBody 3 512)), respBody 3 512, by decide +kernel, rfl, frameGood_frameOf (by decide),
     by rw [frameBody_frameOf]; rfl, rfl, rfl, respBody_asked .., rfl, rfl, rfl⟩,
   ⟨askedUp, 0, frameOf (ptpFrame (respBody 3 0)), respBody 3 0, stampUp, by decide +kernel, rfl, frameGood_frameOf (by decide),
     by rw [frameBody_frameOf]; rfl, rfl, rfl, respBody_asked .., rfl, rfl, rfl, rfl⟩,
   ⟨askedUp, 0, frameOf (ptpFrame (respBody 10 0)), respBody 10 0, stampUp, ⟨65535, 0, 0, 0⟩, by decide +kernel, rfl,
     frameGood_frameOf (by decide), by rw [frameBody_frameOf]; rfl, rfl, rfl, respBody_asked .., rfl, rfl, rfl, rfl, rfl⟩⟩

theorem witness_HushAndResume :
    (∃ s : State, ∃ frame bs : List Byte, s.pw.stage ≠ 0 ∧ HearsWrite s frame bs 0x06 ∧ crc8 (bs.take 6) = beAt bs 6 1 ∧ beAt bs 2 4
      = 1) ∧
    (∃ s : State, ∃ frame bs : List Byte, s.pw.stage ≠ 0 ∧ HearsWrite s frame bs 0x06 ∧ crc8 (bs.take 6) = beAt bs 6 1 ∧ beAt bs 2 4
      = 2) ∧
    (∃ s : State, ∃ frame pkt : List Byte, s.pw.stage ≠ 0 ∧ Brings s frame pkt ∧ fieldAt pkt 2 2 = 0x0110) ∧
    (∃ s : State, ∃ frame pkt : List Byte, s.pw.stage ≠ 0 ∧ Brings s frame pkt ∧ fieldAt pkt 2 2 = 0x0111) ∧
    (∃ s : State, ∃ k : Fin 2, ∃ f : FrameIn, ∃ u : Udp, ∃ pkt : List Byte, s.pw.stage ≠ 0 ∧ portUp s k = true ∧ s.nt.ports.length =
      2 ∧ frameGood f = true ∧ (let e := ethOf (s.nt.mode == 0) (frameBody f); let node := fieldAt pkt 6 2 % 4096; udpOf e =
      some u ∧ commandOf u = some pkt ∧ ownAddress s u.dst = true ∧ forDevice e = true ∧ s.nt.mode ≤ 2 ∧ (s.nt.mode = 0 → ∃ q,
      e.seq = some q ∧ e.src ≠ macAddr ∧ s.nt.discard.any (fun x => x.1 == (e.src, q)) = false) ∧ (node = s.nt.node ∨ node =
      0xFFF) ∧ fieldAt pkt 2 2 = 0x0110 ∧ packetOk pkt = true ∧ bitAt (par s (pid 11 0 20)) 0 = true)) ∧
    (∃ s : State, ∃ k : Fin 2, ∃ f : FrameIn, ∃ u : Udp, ∃ pkt : List Byte, s.pw.stage ≠ 0 ∧ portUp s k = true ∧ s.nt.ports.length =
      2 ∧ frameGood f = true ∧ (let e := ethOf (s.nt.mode == 0) (frameBody f); let node := fieldAt pkt 6 2 % 4096; udpOf e =
      some u ∧ commandOf u = some pkt ∧ ownAddress s u.dst = true ∧ forDevice e = true ∧ s.nt.mode ≤ 2 ∧ (s.nt.mode = 0 → ∃ q,
      e.seq = some q ∧ e.src ≠ macAddr ∧ s.nt.discard.any (fun x => x.1 == (e.src, q)) = false) ∧ (node = s.nt.node ∨ node =
      0xFFF) ∧ fieldAt pkt 2 2 = 0x0110 ∧ packetOk pkt = true ∧ bitAt (par s (pid 11 0 20)) 0 = false)) ∧
    (∃ s : State, ∃ h : Hdr, s.pw.stage ≠ 0 ∧ Opens opResume h s) :=
  ⟨⟨old4, dw 0x06 1, dw 0x06 1, by decide +kernel, by unfold HearsWrite; decide +kernel, by decide +kernel⟩,
   ⟨uart old4, cobs (dw 0x06 2), dw 0x06 2, by decide +kernel, by unfold HearsWrite; decide +kernel, by decide +kernel⟩,
   ⟨old4, be 2 10 ++ reqPkt 0x0110 [], reqPkt 0x0110 [], by decide +kernel, by unfold Brings; decide +kernel, by decide +kernel⟩,
   ⟨uart old4, cobs (reqPkt 0x0111 []), reqPkt 0x0111 [], by decide +kernel, by unfold Brings; decide +kernel, by decide +kernel⟩,
   ⟨hushNetUp 1, 1, frameOf (udpBytes (reqPkt 0x0110 [])), ⟨0xFFFF0A000002, 0xFFFFFFFFFFFF, 5000, 47310, reqPkt 0x0110 []⟩, reqPkt
     0x0110 [], by decide, by decide +kernel, by decide +kernel, by decide +kernel, rfl, by decide +kernel, by decide +kernel,
     (Bool.or_eq_true ..).mpr (.inr (by decide +kernel)), by decide, fun h => absurd h (by decide), by decide +kernel⟩,
   ⟨hushNetUp 0, 1, frameOf (udpBytes (reqPkt 0x0110 [])), ⟨0xFFFF0A000002, 0xFFFFFFFFFFFF, 5000, 47310, reqPkt 0x0110 []⟩, reqPkt
     0x0110 [], by decide, by decide +kernel, by decide +kernel, by decide +kernel, rfl, by decide +kernel, by decide +kernel,
     (Bool.or_eq_true ..).mpr (.inr (by decide +kernel)), by decide, fun h => absurd h (by decide), by decide +kernel⟩,
   ⟨old4, ctl 0, by decide, opens rfl (by decide +kernel)⟩⟩

theorem witness_DirectFramesReachTheSnapWindow :
    (∃ s : State, ∃ frame bs : List Byte, ∃ a, s.pw.stage ≠ 0 ∧ HearsWrite s frame bs a ∧ crc8 (bs.take 6) = beAt bs 6 1 ∧
      (let v := beAt bs 2 4; a = 0x02 ∧ v < 2 ^ 15)) ∧
    (∃ s : State, ∃ frame bs : List Byte, ∃ a, s.pw.stage ≠ 0 ∧ HearsWrite s frame bs a ∧ crc8 (bs.take 6) = beAt bs 6 1 ∧
      (let v := beAt bs 2 4; a = 0x03 ∧ v < 2 ^ 15)) ∧
    (∃ s : State, ∃ frame bs : List Byte, ∃ a, s.pw.stage ≠ 0 ∧ HearsWrite s frame bs a ∧ crc8 (bs.take 6) = beAt bs 6 1 ∧ 0xC0 ≤ a
      ∧ a ≤ 0xDF) ∧
    (∃ s : State, ∃ frame bs : List Byte, ∃ a, s.pw.stage ≠ 0 ∧ HearsWrite s frame bs a ∧ crc8 (bs.take 6) = beAt bs 6 1 ∧ 0x20 ≤ a
      ∧ a < 0xC0) ∧
    (∃ s : State, ∃ frame bs : List Byte, ∃ a, s.pw.stage ≠ 0 ∧ HearsWrite s frame bs a ∧ crc8 (bs.take 6) ≠ beAt bs 6 1) ∧
    (∃ s : State, ∃ frame : List Byte, s.pw.stage ≠ 0 ∧ s.pw.hsel = false ∧ frame ≠ [] ∧ frame.length < 7 ∧ bitAt (beAt frame 0 1) 7
      = true) ∧
    (∃ s : State, ∃ frame bs : List Byte, s.pw.stage ≠ 0 ∧ s.pw.hsel = true ∧ frame ≠ [] ∧ uncobs frame = some bs ∧ bitAt (beAt bs 0
      1) 7 = true ∧ bs.length ≠ 7) ∧
    (∃ s : State, ∃ frame bs : List Byte, s.pw.stage ≠ 0 ∧ bitAt (beAt bs 0 1) 7 = true ∧ bitAt (beAt bs 0 1) 6 = false ∧ s.pw.hsel
      = false ∧ frame = bs ∧ 7 ≤ bs.length) ∧
    (∃ s : State, ∃ frame bs : List Byte, s.pw.stage ≠ 0 ∧ bitAt (beAt bs 0 1) 7 = true ∧ bitAt (beAt bs 0 1) 6 = false ∧ s.pw.hsel
      = true ∧ frame ≠ [] ∧ uncobs frame = some bs ∧ bs.length = 7) ∧
    (∃ s : State, s.pw.stage ≠ 0 ∧ s.after s.lk.calLatchClk (2 * cycMs) = true) ∧
    (∃ s : State, s.pw.stage ≠ 0 ∧ s.after s.lk.timeLatchClk (2 * cycMs) = true) :=
  ⟨⟨old1, dw 2 32767, dw 2 32767, 2, by decide +kernel, by unfold HearsWrite; decide +kernel, by decide +kernel⟩,
   ⟨uart old1, cobs (dw 3 32767), dw 3 32767, 3, by decide +kernel, by unfold HearsWrite; decide +kernel, by decide +kernel⟩,
   ⟨old1, dw 0xDF 1, dw 0xDF 1, 0xDF, by decide +kernel, by unfold HearsWrite; decide +kernel, by decide +kernel⟩,
   ⟨old1, dw 0xBF 1, dw 0xBF 1, 0xBF, by decide +kernel, by unfold HearsWrite; decide +kernel, by decide +kernel⟩,
   ⟨old1, dwBad 255 1, dwBad 255 1, 255, by decide +kernel, by unfold HearsWrite; decide +kernel, by decide +kernel⟩,
   ⟨old1, List.replicate 6 0xC0, by decide +kernel⟩,
   ⟨uart old1, cobs (dw 3 0 ++ [0]), dw 3 0 ++ [0], by decide +kernel⟩,
   ⟨old1, dr 0x13, dr 0x13, by decide +kernel⟩,
   ⟨uart old1, cobs (dr 0x1E), dr 0x1E, by decide +kernel⟩,
   ⟨old1, by decide +kernel⟩,
   ⟨old1, by decide +kernel⟩⟩

theorem witness_PacketFramesMoveBothStreams :
    (∃ s : State, ∃ f : List Byte, s.pw.stage ≠ 0 ∧ s.pw.hsel = false ∧ 2 ≤ f.length ∧ bitAt (beAt f 0 1) 7 = false ∧
      (let n := beAt f 0 2 % 4096; n = 0)) ∧
    (∃ s : State, ∃ f : List Byte, s.pw.stage ≠ 0 ∧ s.pw.hsel = false ∧ 2 ≤ f.length ∧ bitAt (beAt f 0 1) 7 = false ∧
      (let n := beAt f 0 2 % 4096; let bulk := bitAt (beAt f 0 2) 14; let inRange := bulk = true → n ≤ par s 0x0811; n ≠ 0 ∧
      inRange ∧ ((f.drop 2).take n).length < 10)) ∧
    (∃ s : State, ∃ f : List Byte, s.pw.stage ≠ 0 ∧ s.pw.hsel = false ∧ 2 ≤ f.length ∧ bitAt (beAt f 0 1) 7 = false ∧
      (let n := beAt f 0 2 % 4096; let bulk := bitAt (beAt f 0 2) 14; bulk = true ∧ par s 0x0811 < n)) ∧
    (∃ s : State, ∃ frame pkt : List Byte, s.pw.stage ≠ 0 ∧ Brings s frame pkt ∧ 2 ≤ s.pw.stage ∧ fieldAt pkt 2 2 ≠ 0x0110 ∧ fieldAt
      pkt 2 2 ≠ 0x0111 ∧ buffersUsed s.lk.rxCtrl < 4) ∧
    (∃ s : State, ∃ p r, s.pw.stage ≠ 0 ∧ s.pw.hsel = true ∧ s.lk.directOut = p :: r) ∧
    (∃ s : State, ∃ p r, s.pw.stage ≠ 0 ∧ s.pw.hsel = true ∧ s.lk.directOut = [] ∧ s.lk.ctrlOut = p :: r) ∧
    (∃ s : State, ∃ p r, s.pw.stage ≠ 0 ∧ s.pw.hsel = true ∧ s.lk.directOut = [] ∧ s.lk.ctrlOut = [] ∧ s.lk.bulkOut = p :: r) ∧
    (∃ s : State, s.pw.stage ≠ 0 ∧ s.pw.hsel = true ∧ s.lk.directOut = [] ∧ s.lk.ctrlOut = [] ∧ s.lk.bulkOut = []) ∧
    (∃ s : State, ∃ h : Hdr, ∃ op, s.pw.stage ≠ 0 ∧ 2 ≤ s.pw.stage ∧ s.pr.committing = none ∧ streamFull s h = false ∧ consoleAbsent
      s h = false ∧ authentic s h = true ∧ acceptedOpcode h.bulk op = false) ∧
    (∃ s : State, ∃ h : Hdr, ∃ op, s.pw.stage ≠ 0 ∧ acceptedOpcode h.bulk op = true) ∧
    (∃ s : State, s.pw.stage ≠ 0 ∧ 2 ≤ s.pw.stage) :=
  ⟨⟨old1, zeros 4, by decide +kernel⟩,
   ⟨old1, be 2 9 ++ zeros 9, by decide +kernel⟩,
   ⟨old1, be 2 (0x4000 + (par old1 0x0811 + 1)), by decide +kernel⟩,
   ⟨old4, be 2 10 ++ reqPkt 0x0101 [], reqPkt 0x0101 [], by decide +kernel, by unfold Brings; decide +kernel, by decide +kernel⟩,
   ⟨{ uart old1 with lk := { old1.lk with directOut := [[]] } }, [], [], by decide +kernel⟩,
   ⟨{ uart old1 with lk := { old1.lk with ctrlOut := [[]] } }, [], [], by decide +kernel⟩,
   ⟨{ uart old1 with lk := { old1.lk with bulkOut := [[]] } }, [], [], by decide +kernel⟩,
   ⟨uart old1, by decide +kernel⟩,
   ⟨old4, ctl 0, 0x0BAD, by decide, by decide, rfl, streamFull_nil rfl, by decide +kernel⟩,
   ⟨old1, ctl 0, 0x0101, by decide +kernel⟩,
   ⟨old4, by decide +kernel⟩⟩

theorem witness_ParametersAreReadStagedAndCommitted :
    (∃ s : State, ∃ h : Hdr, ∃ id which d v, Opens opGetParam h s ∧ h.len = 4 ∧ readStatus (s.accepted h) id which = (.ok, v) ∧
      memberOf id = some d) ∧
    (∃ s : State, ∃ h : Hdr, ∃ id which, ∃ st : Status, ∃ v, Opens opGetParam h s ∧ h.len = 4 ∧ readStatus (s.accepted h) id which =
      (st, v) ∧ st ≠ .ok) ∧
    (∃ s : State, ∃ h : Hdr, ∃ which, ∃ ids : List Nat, Opens opGetParams h s ∧ h.len = 4 + 2 * ids.length ∧ which ≤ 3 ∧ 1 ≤
      ids.length ∧ ids.length ≤ 200) ∧
    (∃ s : State, ∃ h : Hdr, ∃ which first count, Opens opGetParams h s ∧ h.len = 8 ∧ which ≤ 3 ∧ 1 ≤ count ∧ count ≤ 200 ∧ first +
      count ≤ 0x10000) ∧
    (∃ s : State, ∃ h : Hdr, ∃ id, ∃ bs : List Byte, Opens opSetParam h s ∧ h.len = 4 + bs.length ∧ writeStatus (s.accepted h) h id
      bs = none ∧ s.pr.pending.length < 2048 ∧ (memberOf id).map (·.acc) ≠ some .wo) ∧
    (∃ s : State, ∃ h : Hdr, ∃ id, ∃ bs : List Byte, Opens opSetParam h s ∧ h.len = 4 + bs.length ∧ writeStatus (s.accepted h) h id
      bs = none ∧ s.pr.pending.length ≤ 2048 ∧ (memberOf id).map (·.acc) = some .wo) ∧
    (∃ s : State, ∃ h : Hdr, ∃ id, ∃ bs : List Byte, ∃ st : Status, Opens opSetParam h s ∧ h.len = 4 + bs.length ∧ writeStatus
      (s.accepted h) h id bs = some st) ∧
    (∃ s : State, ∃ h : Hdr, ∃ items : List (Nat × List Byte), Opens opSetParams h s ∧ h.len = itemsLength items ∧ 1 ≤ items.length
      ∧ items.length ≤ 200 ∧ firstBad (s.accepted h) h 0 items = none ∧ (∀ e ∈ items, (memberOf e.1).map (·.acc) ≠ some .wo) ∧
      s.pr.pending.length + items.length ≤ 2048) ∧
    (∃ s : State, ∃ h : Hdr, commitGoes s h = true) ∧
    (∃ s : State, ∃ h : Hdr, ∃ st : Status, ∃ i, Opens opCommit h s ∧ h.len = 0 ∧ commitFail s h = some (st, i) ∧ commitFail
      (s.accepted h) h = some (st, i)) ∧
    (∃ s : State, ∃ h : Hdr, Opens opCommit h s ∧ h.len = 0 ∧ s.pr.pending = [] ∧ commitFail (s.accepted h) h = none) ∧
    (∃ s : State, ∃ h : Hdr, ∃ st : Status, ∃ i, s.pr.committing = some h ∧ (let x := s.onPr fun p => { p with committing := none };
      commitFail x h = some (st, i))) ∧
    (∃ s : State, ∃ h : Hdr, s.pr.committing = some h ∧ (let x := s.onPr fun p => { p with committing := none }; commitFail x h =
      none ∧ x.commitAll.2 = true)) ∧
    (∃ s : State, ∃ h : Hdr, s.pr.committing = some h ∧ (let x := s.onPr fun p => { p with committing := none }; commitFail x h =
      none ∧ x.commitAll.2 = false)) ∧
    (∃ s : State, ∃ h : Hdr, s.pr.committing ≠ some h) ∧
    (∃ s : State, ∃ h : Hdr, ∃ scope, Opens opDefaults h s ∧ h.len = 4 ∧ locked (s.accepted h) = false ∧ (scope = 0 ∨ scope = 1 ∧
      canWrite (s.accepted h) h.path 2 = true)) ∧
    (∃ s : State, ∃ h : Hdr, Opens opDiscard h s ∧ h.len = 0) :=
  ⟨⟨oldS, ctl 4, 0x6001, 3, _, (readStatus (oldS.accepted (ctl 4)) 0x6001 3).2, opens rfl (by decide +kernel), rfl, pair_with
     (by decide +kernel), rfl⟩,
   ⟨oldS, ctl 4, 0xFFFF, 0, .badParamId, 0, opens rfl (by decide +kernel), by decide +kernel⟩,
   ⟨oldS, ctl 404, 3, List.replicate 200 0x6001, opens rfl (by decide +kernel), by decide +kernel⟩,
   ⟨oldS, ctl 8, 3, 0xFFFF, 1, opens rfl (by decide +kernel), by decide +kernel⟩,
   ⟨oldS, ctl 8, 0x6001, [1, 0, 0, 0], opens rfl (by decide +kernel), by decide +kernel⟩,
   ⟨oldS, ctl 5, pid 27 0 4, [1], opens rfl (by decide +kernel), by decide +kernel⟩,
   ⟨oldS, ctl 4, 0x6001, [], .badLength, opens rfl (by decide +kernel), by decide +kernel⟩,
   ⟨oldS, ctl 12, [(0x6001, [1, 0, 0, 0])], opens rfl (by decide +kernel), by decide +kernel⟩,
   ⟨{ oldS with pr := { oldS.pr with pending := [(0x6001, 1)] } }, ctl 0, goes rfl (by decide +kernel)⟩,
   ⟨{ oldS with pr := { oldS.pr with pending := [(0x6001, 0xFFFFFFFF)] } }, ctl 0, .valueRange, 0x6001, opens rfl
     (by decide +kernel), by decide +kernel⟩,
   ⟨oldS, ctl 0, opens rfl (by decide +kernel), by decide +kernel⟩,
   ⟨{ oldS with pr := { oldS.pr with pending := [(0x6001, 0xFFFFFFFF)], committing := some (ctl 0) } }, ctl 0, .valueRange, 0x6001,
     by decide +kernel⟩,
   ⟨{ oldS with pr := { oldS.pr with pending := [(0x6001, 1)], committing := some (ctl 0) } }, ctl 0, by decide +kernel⟩,
   ⟨stuckAt { oldS with pr := { oldS.pr with pending := [(0x6001, 1)], committing := some (ctl 0) } } 0 128, ctl 0,
     by decide +kernel⟩,
   ⟨oldS, ctl 0, by decide +kernel⟩,
   ⟨oldS, ctl 4, 1, opens rfl (by decide +kernel), by decide +kernel⟩,
   ⟨oldS, ctl 0, opens rfl (by decide +kernel), by decide +kernel⟩⟩

theorem witness_SystemRequestsAnswer :
    (∃ s : State, ∃ h : Hdr, ∃ bs : List Byte, Opens opNop h s ∧ bs.length ≤ 4078) ∧
    (∃ s : State, ∃ h : Hdr, Opens opIdentify h s ∧ h.len = 0) ∧
    (∃ h : Hdr, h.bcast = false) ∧
    (∃ s : State, ∃ h : Hdr, Opens opGetStage h s ∧ h.len = 0) ∧
    (∃ s : State, ∃ h : Hdr, Opens opSoftRestart h s ∧ h.len = 4 ∧ pfailing (s.accepted h) = false ∧ s.up.st = 0) :=
  ⟨⟨oldS, ctl 4078, zeros 4078, opens rfl (by decide +kernel), by decide +kernel⟩,
   ⟨oldS, ctl 0, opens rfl (by decide +kernel), by decide +kernel⟩,
   ⟨ctl 0, by decide +kernel⟩,
   ⟨oldS, ctl 0, opens rfl (by decide +kernel), by decide +kernel⟩,
   ⟨oldS, ctl 4, opens rfl (by decide +kernel), by decide +kernel⟩⟩

theorem witness_RequestsWaitForCommitAndStream :
    (∃ s : State, ∃ h : Hdr, ∃ bs : List Byte, ∃ id which n : Nat, ∃ ids : List Nat, ∃ items : List (Nat × List Byte), ∃ i c, i ∈
      ([.nop h bs, .identify h, .getStage h, .softRestart h n, .getParam h id which, .getParams h n which id n ids, .setParam h
      id bs, .setParams h n items, .commitParams h, .defaults h n, .discardParams h, .coppiceQuery h n false, .energyRead h id
      which n n n, .queueRead h n n, .filterStart h n, .nvRead h id n n n, .nvWrite h id n n bs none, .sessionOpen h id n n,
      .pmuStop h, .netRxRead h, .timeGet h, .rtcGet h, .keyRead h n] : List Instr) ∧ s.pr.committing = some c) ∧
    (∃ s : State, ∃ h : Hdr, ∃ bs : List Byte, ∃ id which n : Nat, ∃ ids : List Nat, ∃ items : List (Nat × List Byte), ∃ i, i ∈
      ([.nop h bs, .identify h, .getStage h, .softRestart h n, .getParam h id which, .getParams h n which id n ids, .setParam h
      id bs, .setParams h n items, .commitParams h, .defaults h n, .discardParams h, .coppiceQuery h n false, .energyRead h id
      which n n n, .queueRead h n n, .filterStart h n, .nvRead h id n n n, .nvWrite h id n n bs none, .sessionOpen h id n n,
      .pmuStop h, .netRxRead h, .timeGet h, .rtcGet h, .keyRead h n] : List Instr) ∧ s.pr.committing = none ∧ streamFull s h =
      true) :=
  ⟨⟨{ oldS with pr := { oldS.pr with pending := [(0x6001, 1)], committing := some (ctl 0) } }, ctl 0, [], 0, 0, 0, [], [],
     .getStage (ctl 0), ctl 0, by simp, rfl⟩,
   ⟨fullUp, ctl 0, [], 0, 0, 0, [], [], .getStage (ctl 0), by simp, rfl, fullUp_full⟩⟩

theorem witness_StoreIsReadWrittenAndScrubbed :
    (∃ s : State, ∃ h : Hdr, ∃ part page offset count, Opens opNvRead h s ∧ h.len = 8 ∧ 1 ≤ part ∧ part ≤ 5 ∧ (part = 3 ∨ canRead
      (s.accepted h) h.path part = true) ∧ page < partPages part ∧ offset ≤ 255 ∧ 1 ≤ count ∧ count ≤ 1024 ∧ page * 256 + offset
      + count ≤ partPages part * 256) ∧
    (∃ s : State, ∃ h : Hdr, ∃ page offset, ∃ data : List Byte, ∃ n, Opens opNvWrite h s ∧ h.len = 8 + data.length ∧ pfailing
      (s.accepted h) = false ∧ locked (s.accepted h) = false ∧ canWrite (s.accepted h) h.path 5 = true ∧ page ≤ 511 ∧ offset ≤
      255 ∧ 1 ≤ data.length ∧ data.length ≤ 256 ∧ (let chunks := wordChunks offset data.length; n < chunks.length)) ∧
    (∃ s : State, ∃ h : Hdr, Opens opNvStatus h s ∧ h.len = 4) ∧
    (∃ s : State, ∃ h : Hdr, ∃ page, Opens opNvStatus h s ∧ h.len = 4 ∧ canWrite (s.accepted h) h.path 5 = true ∧ (page ≤ 511 ∨ page
      = 0xFFFF) ∧ (∀ p ∈ s.hw.tornList, p ≤ 511)) ∧
    (∃ s : State, 2 ≤ s.pw.stage ∧ s.after s.hw.scrubClk (scrubPace s) = true) :=
  ⟨⟨oldS, ctl 8, 3, 511, 255, 1, opens rfl (by decide +kernel), by decide +kernel⟩,
   ⟨oldS, ctl 264, 511, 255, List.replicate 256 0xA5, 64, opens rfl (by decide +kernel), by decide +kernel⟩,
   ⟨oldS, ctl 4, opens rfl (by decide +kernel), by decide +kernel⟩,
   ⟨oldS, ctl 4, 511, opens rfl (by decide +kernel), by decide +kernel⟩,
   ⟨oldS, by decide +kernel⟩⟩

theorem witness_SessionsAndPasswords :
    (∃ s : State, ∃ h : Hdr, ∃ part kind pw, Opens opSessionOpen h s ∧ h.len = 12 ∧ plainNet h = false ∧ sessParts.contains part =
      true ∧ kind ≤ 1 ∧ (kind = 1 → locked (s.accepted h) = false) ∧ lockedOut s part = false ∧ pwOpens (pwOf s part kind) kind
      pw = true ∧ s.se.locks.length = 6) ∧
    (∃ s : State, ∃ h : Hdr, ∃ part kind pw, Opens opSessionOpen h s ∧ h.len = 12 ∧ plainNet h = false ∧ sessParts.contains part =
      true ∧ kind ≤ 1 ∧ (kind = 1 → locked (s.accepted h) = false) ∧ lockedOut s part = false ∧ pwOpens (pwOf s part kind) kind
      pw = false ∧ s.se.locks.length = 6) ∧
    (∃ s : State, ∃ h : Hdr, ∃ part kind, Opens opSessionOpen h s ∧ h.len = 12 ∧ plainNet h = false ∧ sessParts.contains part = true
      ∧ (kind = 1 → locked (s.accepted h) = false) ∧ lockedOut s part = true) ∧
    (∃ s : State, ∃ h : Hdr, ∃ part kind, Opens opSessionClose h s ∧ h.len = 4 ∧ (part = 0xFF ∨ sessParts.contains part = true) ∧
      kind ≤ 2) ∧
    (∃ s : State, ∃ h : Hdr, ∃ part kind new, Opens opPasswordSet h s ∧ h.len = 12 ∧ pfailing (s.accepted h) = false ∧ plainNet h =
      false ∧ sessParts.contains part = true ∧ kind ≤ 1 ∧ badPassword new = false ∧ s.se.pws.length = 8 ∧
      (let w : Pw := ⟨1, pwDigest new⟩; let stored := ((s.accepted h).landed.setPw part kind w).2; locked (s.accepted h) = false
      ∧ canWrite (s.accepted h) h.path part = true ∧ stored = true)) ∧
    (∃ s : State, ∃ h : Hdr, ∃ part kind new, Opens opPasswordSet h s ∧ h.len = 12 ∧ pfailing (s.accepted h) = false ∧ plainNet h =
      false ∧ sessParts.contains part = true ∧ kind ≤ 1 ∧ badPassword new = false ∧ s.se.pws.length = 8 ∧
      (let w : Pw := ⟨1, pwDigest new⟩; let stored := ((s.accepted h).landed.setPw part kind w).2; locked (s.accepted h) = false
      ∧ canWrite (s.accepted h) h.path part = true ∧ stored = false)) ∧
    (∃ s : State, ∃ h : Hdr, ∃ part kind new, Opens opPasswordSet h s ∧ h.len = 12 ∧ pfailing (s.accepted h) = false ∧ plainNet h =
      false ∧ sessParts.contains part = true ∧ kind ≤ 1 ∧ badPassword new = false ∧ s.se.pws.length = 8 ∧ s.tp.clearQueue ≠ []) ∧
    (∃ s : State, ∃ path, (s.lk.heard.lookup path).any (fun c => !s.after c (par s (pid 9 0 2) * cycS)) = false) ∧
    (∃ s : State, ∃ p : Fin 6, s.se.locks.length = 6 ∧ lockedOut s p = false) :=
  ⟨⟨oldS, ctl 12, 5, 1, 1234, opens rfl (by decide +kernel), rfl, rfl, by decide, by decide, by decide +kernel, by decide +kernel,
     by rw [show pwOf oldS 5 1 = ⟨1, pwDigest 1234⟩ from rfl]; simp [pwOpens], rfl⟩,
   ⟨{ oldS with se := { oldS.se with pws := List.replicate 8 ⟨1, []⟩ } }, ctl 12, 5, 1, 1235, opens rfl (by decide +kernel),
     by decide +kernel⟩,
   ⟨lockedAll, ctl 12, 5, 1, opens rfl (by decide +kernel), by decide +kernel⟩,
   ⟨oldS, ctl 4, 0xFF, 2, opens rfl (by decide +kernel), by decide +kernel⟩,
   ⟨oldS, ctl 12, 5, 1, 2 ^ 64 - 2, opens rfl (by decide +kernel), by decide +kernel⟩,
   ⟨stuckAt oldS 4 2, ctl 12, 5, 1, 2 ^ 64 - 2, opens rfl (by decide +kernel), by decide +kernel⟩,
   ⟨{ oldS with tp := { oldS.tp with clearQueue := [⟨1, []⟩] } }, ctl 12, 5, 1, 1, opens rfl (by decide +kernel),
     by decide +kernel⟩,
   ⟨oldS, .host, by decide +kernel⟩,
   ⟨oldS, 5, by decide +kernel⟩⟩

theorem witness_DisplayAndKeys :
    (∃ s : State, ∃ h : Hdr, ∃ item, Opens opDisplay h s ∧ h.len = 4 ∧ item ≤ 255) ∧
    (∃ s : State, ∃ h : Hdr, ∃ item, Opens opDisplay h s ∧ h.len = 4 ∧ item < layItems (layoutOf s)) ∧
    (∃ s : State, s.after s.hm.segClk (5 * cycS) = false) ∧
    (∃ s : State, s.after s.hm.segClk (5 * cycS) = true) ∧
    (∃ s : State, ∃ n, s.hm.scrolling = true ∧ s.after s.hm.itemClk (layScroll (layoutOf s) * cycS) = true ∧ nextScrolled s = some
      n) ∧
    (∃ s : State, s.hm.held = true ∧ s.after s.hm.itemClk (layHold (layoutOf s) * cycS) = true) ∧
    (∃ s : State, ∃ k : Fin 8, keyOn s k = true ∧ s.hm.keys.getD k false = false) ∧
    (∃ s : State, ∃ k : Fin 8, keyOn s k = true ∧ s.hm.keys.getD k false = true ∧ s.hm.longs.getD k false = false ∧ s.after
      (s.hm.keyClk.getD k 0) (2 * cycS) = true) ∧
    (∃ s : State, ∃ k : Fin 8, keyOn s k = false) ∧
    (∃ s : State, ∃ h : Hdr, ∃ max, Opens opKeyRead h s ∧ h.len = 4 ∧ 1 ≤ max ∧ max ≤ 16) :=
  ⟨⟨old4, ctl 4, 255, opens rfl (by decide +kernel), by decide +kernel⟩,
   ⟨old4, ctl 4, 0, opens rfl (by decide +kernel), by decide +kernel⟩,
   ⟨{ old4 with hm := { old4.hm with segClk := 2 ^ 60 } }, by decide +kernel⟩,
   ⟨old4, by decide +kernel⟩,
   ⟨{ old4 with hm := { old4.hm with scrolling := true } }, 0, by decide +kernel⟩,
   ⟨{ old4 with hm := { old4.hm with held := true } }, by decide +kernel⟩,
   ⟨old4.setPar 0x6001 0x5555, 7, by decide +kernel⟩,
   ⟨{ old4.setPar 0x6001 0x5555 with hm := { Hmi.reset with keys := List.replicate 8 true } }, 7, by decide +kernel⟩,
   ⟨old4, 7, by decide +kernel⟩,
   ⟨old4, ctl 4, 16, opens rfl (by decide +kernel), by decide +kernel⟩⟩

theorem witness_ConsoleAttachesAndAnswers :
    (∃ s : State, s.pw.stage = 0) ∧
    (∃ s : State, ∃ o : Bool, let p := if o then 2 else 1; let a := s.takeScheduled fun id => effOf id == .attach; 2 ≤ s.pw.stage ∧
      s.hm.owner = 0 ∧ s.hm.cable = false ∧ s.hm.probe = false ∧ consoleOn a p = true) ∧
    (∃ s : State, ∃ o : Bool, let p := if o then 2 else 1; let second := p = 1 ∧ s.hm.owner = 2 ∧ s.hm.ownerClk = s.clk; 2 ≤
      s.pw.stage ∧ s.hm.owner ≠ 0 ∧ s.hm.owner ≠ p ∧ consoleOn s p = true ∧ (¬second)) ∧
    (∃ s : State, ∃ o : Bool, let p := if o then 2 else 1; let second := p = 1 ∧ s.hm.owner = 2 ∧ s.hm.ownerClk = s.clk; 2 ≤
      s.pw.stage ∧ second ∧ consoleOn s 1 = true) ∧
    (∃ s : State, ∃ o : Bool, s.hm.owner = (if o then 2 else 1)) ∧
    (∃ s : State, ∃ o : Bool, s.hm.owner ≠ (if o then 2 else 1)) ∧
    (∃ s : State, ∃ x : LineIn, s.hm.owner ≠ 0 ∧ s.wd.running = true ∧ 2 ≤ s.pw.stage ∧
      (let status := lineStatus s "status" x 2 fun a => !a.isEmpty; status = .ok)) ∧
    (∃ s : State, ∃ x : LineIn, s.hm.owner ≠ 0 ∧ s.wd.running = true ∧ 2 ≤ s.pw.stage ∧
      (let supply := lineStatus s "supply" x 2 fun a => !a.isEmpty; supply = .ok)) ∧
    (∃ s : State, ∃ x : LineIn, s.hm.owner ≠ 0 ∧ s.wd.running = true ∧ 2 ≤ s.pw.stage ∧
      (let energy := lineStatus s "energy" x 3 fun a => a.length != 1 || 27 < a.headD 0; energy = .ok)) ∧
    (∃ s : State, ∃ x : LineIn, s.hm.owner ≠ 0 ∧ s.wd.running = true ∧ 2 ≤ s.pw.stage ∧
      (let rms := lineStatus s "rms" x 3 fun a => 1 < a.length || 35 < a.headD 0; rms = .ok)) ∧
    (∃ s : State, ∃ x : LineIn, s.hm.owner ≠ 0 ∧ s.wd.running = true ∧ 2 ≤ s.pw.stage ∧
      (let log := lineStatus s "log" x 2 fun a => 1 < a.length || a.head? == some 0 || 32 < a.headD 0; log = .ok)) ∧
    (∃ s : State, ∃ x : LineIn, s.hm.owner ≠ 0 ∧ s.wd.running = true ∧ 2 ≤ s.pw.stage ∧
      (let status := lineStatus s "status" x 2 fun a => !a.isEmpty; status.refused = true)) ∧
    (∃ s : State, ∃ x : LineIn, s.hm.owner ≠ 0 ∧ s.wd.running = true ∧ 2 ≤ s.pw.stage ∧
      (let supply := lineStatus s "supply" x 2 fun a => !a.isEmpty; supply.refused = true)) ∧
    (∃ s : State, ∃ x : LineIn, s.hm.owner ≠ 0 ∧ s.wd.running = true ∧ 2 ≤ s.pw.stage ∧
      (let energy := lineStatus s "energy" x 3 fun a => a.length != 1 || 27 < a.headD 0; energy.refused = true)) ∧
    (∃ s : State, ∃ x : LineIn, s.hm.owner ≠ 0 ∧ s.wd.running = true ∧ 2 ≤ s.pw.stage ∧
      (let rms := lineStatus s "rms" x 3 fun a => 1 < a.length || 35 < a.headD 0; rms.refused = true)) ∧
    (∃ s : State, ∃ x : LineIn, s.hm.owner ≠ 0 ∧ s.wd.running = true ∧ 2 ≤ s.pw.stage ∧
      (let log := lineStatus s "log" x 2 fun a => 1 < a.length || a.head? == some 0 || 32 < a.headD 0; log.refused = true)) :=
  ⟨⟨State.reset, by decide +kernel⟩,
   ⟨(old4.setPar 0x6007 3), true, by decide +kernel⟩,
   ⟨{ (old4.setPar 0x6007 3) with hm := { Hmi.reset with owner := 1 } }, true, by decide +kernel⟩,
   ⟨{ (old4.setPar 0x6007 3) with hm := { Hmi.reset with owner := 2, ownerClk := 2 ^ 60 } }, false, by decide +kernel⟩,
   ⟨{ old4 with hm := { Hmi.reset with owner := 2 } }, true, by decide +kernel⟩,
   ⟨old4, true, by decide +kernel⟩,
   ⟨{ old4 with hm := { Hmi.reset with owner := 1 } }, ⟨ascii "status", false⟩, by decide +kernel⟩,
   ⟨{ old4 with hm := { Hmi.reset with owner := 1 } }, ⟨ascii "supply", false⟩, by decide +kernel⟩,
   ⟨{ old4 with hm := { Hmi.reset with owner := 1 } }, ⟨ascii "energy 27", false⟩, by decide +kernel⟩,
   ⟨{ old4 with hm := { Hmi.reset with owner := 1 } }, ⟨ascii "rms 35", false⟩, by decide +kernel⟩,
   ⟨{ old4 with hm := { Hmi.reset with owner := 1 } }, ⟨ascii "log 32", false⟩, by decide +kernel⟩,
   ⟨{ old4 with hm := { Hmi.reset with owner := 1 } }, ⟨ascii "status 1", false⟩, by decide +kernel⟩,
   ⟨{ old4 with hm := { Hmi.reset with owner := 1 } }, ⟨ascii "supply 1", false⟩, by decide +kernel⟩,
   ⟨{ old4 with hm := { Hmi.reset with owner := 1 } }, ⟨ascii "energy 28", false⟩, by decide +kernel⟩,
   ⟨{ old4 with hm := { Hmi.reset with owner := 1 } }, ⟨ascii "rms 36", false⟩, by decide +kernel⟩,
   ⟨{ old4 with hm := { Hmi.reset with owner := 1 } }, ⟨ascii "log 33", false⟩, by decide +kernel⟩⟩

theorem witness_TestOutputsAreForcedAndReleased :
    (∃ s : State, ∃ h : Hdr, ∃ code d, Opens opTdac h s ∧ h.len = 8 ∧ code ≤ 65535 ∧ 1 ≤ d ∧ d ≤ par (s.accepted h) 0x7802) ∧
    (∃ s : State, ∃ h : Hdr, ∃ code d, Opens opTdac h s ∧ h.len = 8 ∧ code ≤ 65535 ∧ d ≤ 65535) ∧
    (∃ s : State, s.hm.tdacOn = true ∧ (s.after s.hm.tdacClk (s.hm.tdacS * cycS) = true ∨ s.after s.hm.tdacClk (par s 0x7802 * cycS)
      = true)) ∧
    (∃ s : State, (s.hm.tdacOn = false ∨ testOver s s.hm.tdacClk s.hm.tdacS = false)) ∧
    (∃ s : State, ∃ h : Hdr, ∃ o l d, Opens opOutput h s ∧ h.len = 4 ∧ locked (s.accepted h) = false ∧ canWrite (s.accepted h)
      h.path 2 = true ∧ o ≤ 19 ∧ l ≤ 1 ∧ 1 ≤ d ∧ d ≤ par (s.accepted h) 0x7802) ∧
    (∃ s : State, ∃ h : Hdr, ∃ o d, Opens opOutput h s ∧ h.len = 4 ∧ locked (s.accepted h) = false ∧ canWrite (s.accepted h) h.path
      2 = true ∧ o ≤ 19 ∧ d ≤ 65535) ∧
    (∃ s : State, ∃ o : Fin 20, s.hm.forces.any (fun f => f.output == o.val && testOver s f.clk f.durS) = true) ∧
    (∃ s : State, ∃ o : Fin 20, s.hm.forces.any (fun f => f.output == o.val && testOver s f.clk f.durS) = false) :=
  ⟨⟨oldS, ctl 8, 65535, par oldS 0x7802, opens rfl (by decide +kernel), by decide +kernel⟩,
   ⟨oldS, ctl 8, 65535, 65535, opens rfl (by decide +kernel), by decide +kernel⟩,
   ⟨{ oldS with hm := { oldS.hm with tdacOn := true } }, by decide +kernel⟩,
   ⟨oldS, by decide +kernel⟩,
   ⟨oldS, ctl 4, 19, 1, par oldS 0x7802, opens rfl (by decide +kernel), by decide +kernel⟩,
   ⟨oldS, ctl 4, 19, 65535, opens rfl (by decide +kernel), by decide +kernel⟩,
   ⟨{ oldS with hm := { oldS.hm with forces := [⟨19, true, .host, 0, 1⟩] } }, 19, by decide +kernel⟩,
   ⟨oldS, 19, by decide +kernel⟩⟩

theorem witness_CanopyRestartReadsStageTwo :
    (∃ s : State, ∃ op : Op, ∃ h : Hdr, s.Inv ∧ s.wd.canopyRunning = false ∧ 2 ≤ s.pw.stage ∧ op.minStage = 3 ∧ s.pr.committing =
      none ∧ streamFull s h = false ∧ consoleAbsent s h = false ∧ authentic s h = true ∧ (∀ b, op.bulk = some b → h.bulk = b) ∧
      consoleUnknown h op.code = false) ∧
    (∃ s : State, ∃ op, op ∈ [opEnergyRead, opDemandReset, opCfTest, opPqRead, opPqEventRead, opPqArchiveRead, opPmuRead,
      opPmuControl, opNetTx, opNetRxRead, opDisplay, opKeyRead, opTdac, opOutput, opDefaults, opSoftRestart] ∧ s.Inv ∧
      s.wd.canopyRunning = false ∧ 2 ≤ s.pw.stage) :=
  ⟨⟨{ old4 with pw := { old4.pw with stage := 2 }, wd := { Warden.reset with running := true } }, opDisplay, ctl 4,
     ⟨by decide +kernel, by decide +kernel, by decide +kernel, by decide +kernel, by unfold State.Shape; decide +kernel⟩, rfl,
     by decide, rfl, rfl, streamFull_nil rfl, by decide +kernel⟩,
   ⟨{ old4 with pw := { old4.pw with stage := 2 }, wd := { Warden.reset with running := true } }, opDisplay, by simp,
     ⟨by decide +kernel, by decide +kernel, by decide +kernel, by decide +kernel, by unfold State.Shape; decide +kernel⟩, rfl,
     by decide⟩⟩

theorem witness_DirectFramesCarryCrc8 :
    ∃ hd bs : List Byte, hd.length = 2 ∧ bs.length = 7 :=
  ⟨zeros 2, zeros 7, by decide +kernel⟩

theorem witness_TestRequestsAtLock :
    (∃ s : State, ∃ h : Hdr, ∃ item, Opens opDisplay h s ∧ h.len = 4 ∧ item ≤ 255 ∧ item < layItems (layoutOf s)) ∧
    (∃ s : State, ∃ h : Hdr, ∃ max, Opens opKeyRead h s ∧ h.len = 4 ∧ 1 ≤ max ∧ max ≤ 16) ∧
    (∃ s : State, ∃ h : Hdr, ∃ code d, Opens opTdac h s ∧ h.len = 8 ∧ code ≤ 65535 ∧ 1 ≤ d ∧ d ≤ 65535 ∧ d ≤ par (s.accepted h)
      0x7802) ∧
    (∃ s : State, ∃ h : Hdr, ∃ o l d, Opens opOutput h s ∧ h.len = 4 ∧ o ≤ 19 ∧ l ≤ 1 ∧ 1 ≤ d ∧ d ≤ par (s.accepted h) 0x7802 ∧ d ≤
      65535 ∧ locked (s.accepted h) = true) ∧
    (∃ s : State, ∃ h : Hdr, ∃ o l d, Opens opOutput h s ∧ h.len = 4 ∧ o ≤ 19 ∧ l ≤ 1 ∧ 1 ≤ d ∧ d ≤ par (s.accepted h) 0x7802 ∧ d ≤
      65535 ∧ locked (s.accepted h) = false ∧ canWrite (s.accepted h) h.path 2 = false) ∧
    (∃ s : State, ∃ h : Hdr, ∃ o l d, Opens opOutput h s ∧ h.len = 4 ∧ o ≤ 19 ∧ l ≤ 1 ∧ 1 ≤ d ∧ d ≤ par (s.accepted h) 0x7802 ∧ d ≤
      65535 ∧ locked (s.accepted h) = false ∧ canWrite (s.accepted h) h.path 2 = true) :=
  ⟨⟨oldS, ctl 4, 0, opens rfl (by decide +kernel), by decide +kernel⟩,
   ⟨oldS, ctl 4, 16, opens rfl (by decide +kernel), by decide +kernel⟩,
   ⟨oldS, ctl 8, 65535, par oldS 0x7802, opens rfl (by decide +kernel), by decide +kernel⟩,
   ⟨lockedUp, ctl 4, 19, 1, par oldS 0x7802, opens rfl (by decide +kernel), by decide +kernel⟩,
   ⟨old4, ctl 4, 19, 1, par oldS 0x7802, opens rfl (by decide +kernel), by decide +kernel⟩,
   ⟨oldS, ctl 4, 19, 1, par oldS 0x7802, opens rfl (by decide +kernel), by decide +kernel⟩⟩

theorem witness_NetworkSessionsNeedSecuredPackets :
    (∃ s : State, ∃ h : Hdr, ∃ part kind : Nat, sessParts.contains part = true ∧ kind ≤ 1 ∧ h.len = 12 ∧ plainNet h = true ∧ Opens
      opSessionOpen h s ∧ (kind = 1 → locked (s.accepted h) = false)) ∧
    (∃ s : State, ∃ h : Hdr, ∃ part kind : Nat, sessParts.contains part = true ∧ kind ≤ 1 ∧ h.len = 12 ∧ plainNet h = true ∧ Opens
      opPasswordSet h s ∧ pfailing (s.accepted h) = false ∧ locked (s.accepted h) = false) ∧
    (∃ s : State, ∃ h : Hdr, ∃ part kind : Nat, ∃ o : Bool, sessParts.contains part = true ∧ kind ≤ 1 ∧ h.len = 12 ∧ (o = true →
      s.tp.clearQueue = []) ∧ plainNet h = false ∧ Opens opPasswordSet h s ∧ pfailing (s.accepted h) = false ∧ locked
      (s.accepted h) = false ∧ canWrite (s.accepted h) h.path part = false) ∧
    (∃ s : State, ∃ h : Hdr, ∃ part kind v : Nat, ∃ o : Bool, sessParts.contains part = true ∧ kind ≤ 1 ∧ h.len = 12 ∧ (o = true →
      s.tp.clearQueue = []) ∧ plainNet h = false ∧ Opens opPasswordSet h s ∧ pfailing (s.accepted h) = false ∧ locked
      (s.accepted h) = false ∧ canWrite (s.accepted h) h.path part = true ∧ (v = 0 ∨ v = 0xFFFFFFFFFFFFFFFF)) ∧
    (∃ s : State, ∃ h : Hdr, ∃ part kind v : Nat, ∃ o : Bool, sessParts.contains part = true ∧ kind ≤ 1 ∧ h.len = 12 ∧ (o = true →
      s.tp.clearQueue = []) ∧ plainNet h = false ∧ Opens opPasswordSet h s ∧ pfailing (s.accepted h) = false ∧ locked
      (s.accepted h) = false ∧ canWrite (s.accepted h) h.path part = true ∧ s.se.pws.length = 8 ∧ v ≠ 0 ∧ v ≠ 0xFFFFFFFFFFFFFFFF
      ∧ ((s.accepted h).landed.setPw part kind ⟨1, pwDigest v⟩).2 = true) :=
  ⟨⟨oldS, net 12, 5, 1, by decide +kernel, by decide +kernel, by decide +kernel, by decide +kernel, opens rfl (by decide +kernel),
     by decide +kernel⟩,
   ⟨oldS, net 12, 5, 1, by decide +kernel, by decide +kernel, by decide +kernel, by decide +kernel, opens rfl (by decide +kernel),
     by decide +kernel⟩,
   ⟨old4, ctl 12, 5, 1, false, by decide +kernel, by decide +kernel, by decide +kernel, by decide +kernel, by decide +kernel, opens
     rfl (by decide +kernel), by decide +kernel⟩,
   ⟨oldS, ctl 12, 5, 1, 0xFFFFFFFFFFFFFFFF, false, by decide +kernel, by decide +kernel, by decide +kernel, by decide +kernel,
     by decide +kernel, opens rfl (by decide +kernel), by decide +kernel⟩,
   ⟨oldS, ctl 12, 5, 1, 0xFFFFFFFFFFFFFFFE, false, by decide +kernel, by decide +kernel, by decide +kernel, by decide +kernel,
     by decide +kernel, opens rfl (by decide +kernel), by decide +kernel⟩⟩

theorem witness_PowerFailStopsStoreWrites :
    (∃ s : State, ∃ h : Hdr, ∃ data : List Byte, Opens opNvWrite h s ∧ h.len = 8 + data.length ∧ pfailing (s.accepted h) = true) ∧
    (∃ s : State, ∃ h : Hdr, Opens opPasswordSet h s ∧ h.len = 12 ∧ pfailing (s.accepted h) = true) ∧
    (∃ s : State, ∃ h : Hdr, ∃ page offset, ∃ data : List Byte, ∃ n, Opens opNvWrite h s ∧ h.len = 8 + data.length ∧ pfailing
      (s.accepted h) = false ∧ locked (s.accepted h) = false ∧ canWrite (s.accepted h) h.path 5 = true ∧ page ≤ 511 ∧ offset ≤
      255 ∧ 1 ≤ data.length ∧ data.length ≤ 256 ∧ n < (wordChunks offset data.length).length) :=
  ⟨⟨{ oldS with pw := { oldS.pw with pfail := true } }, ctl 9, [0], opens rfl (by decide +kernel), by decide +kernel⟩,
   ⟨{ oldS with pw := { oldS.pw with pfail := true } }, ctl 12, opens rfl (by decide +kernel), by decide +kernel⟩,
   ⟨oldS, ctl 264, 511, 255, List.replicate 256 0xA5, 64, opens rfl (by decide +kernel), by decide +kernel⟩⟩

end Sys2Proof.Machine
end

section
/-! O4: which commands answer a next state. An arm of `exec` builds its outcome from next states behind guards and case splits; only
four arms ask for a shape of what the command brings (assumption 5), and only these can stop, with `malformedCommand`. -/

namespace Sys2Proof.Machine

/-! ### The shapes that outcomes are built from -/

theorem Runs.next (t : State) : Runs (.next t) := ⟨t, rfl⟩

theorem Runs.ite {c : Prop} [Decidable c] {a b : Host.Outcome State Fault Refusal} (ha : Runs a) (hb : Runs b) :
    Runs (if c then a else b) := by
  split
  · exact ha
  · exact hb

/-- The usual arm: what is not due, or not allowed, gives its next state at once. -/
theorem Runs.guard {c : Prop} [Decidable c] {t : State} {b : Host.Outcome State Fault Refusal} (hb : Runs b) :
    Runs (if c then .next t else b) :=
  .ite (.next t) hb

theorem Runs.unlessFault {c : Prop} [Decidable c] {f : Fault} {b : Host.Outcome State Fault Refusal} (hc : ¬c) (hb : Runs b) :
    Runs (if c then .fault f else b) := by
  rw [if_neg hc]
  exact hb

/-! ### The commands that ask for a shape -/

/-- What a command brings has the shape that its arm of `exec` asks for. -/
def shapeHolds (s : State) : Instr → Bool
  | .dspFrame frames => framesFit s frames
  | .keyAgree _ hostPub _ => hostPub.length == 64
  | .provisionInstall _ _ decrypted _ => !decrypted.any (fun l => l.length != 8)
  | .unknownOpcode h opcode => !acceptedOpcode h.bulk opcode
  | _ => true

theorem execDspFrame_runs {frames : List (List ConvIn)} {s : State} (hs : framesFit s frames = true) :
    Runs (execDspFrame frames s) :=
  .unlessFault (by simp [hs]) (.guard (.next _))

theorem execKeyAgree_runs {h : Hdr} {hostPub : List Byte} {keyLen : Nat} {s : State} (hs : (hostPub.length == 64) = true) :
    Runs (execKeyAgree h hostPub keyLen s) :=
  .unlessFault (by simpa using hs) (.next _)

theorem execProvisionInstall_runs {h : Hdr} {params : List Byte} {decrypted : Option (List Nat)} {signature : SigIn} {s : State}
    (hs : (!decrypted.any fun l => l.length != 8) = true) : Runs (execProvisionInstall h params decrypted signature s) :=
  .unlessFault (by simpa using hs) (.next _)

theorem execUnknownOpcode_runs {h : Hdr} {opcode : Nat} {s : State} (hs : (!acceptedOpcode h.bulk opcode) = true) :
    Runs (execUnknownOpcode h opcode s) :=
  .unlessFault (by simpa using hs) (.next _)

/-! ### Commands whose arm has a shape of its own -/

theorem execCanopyRestart_runs (s : State) : Runs (execCanopyRestart s) := by
  unfold execCanopyRestart
  refine .guard (.guard ?_)
  split
  · exact .next _
  · exact .next _

theorem execUpdateSafePoint_runs (s : State) : Runs (execUpdateSafePoint s) := by
  unfold execUpdateSafePoint
  refine .guard ?_
  split
  · exact .next _
  · exact .guard (.next _)

theorem execWardenHeartbeatTimeout_runs (s : State) : Runs (execWardenHeartbeatTimeout s) := by
  unfold execWardenHeartbeatTimeout
  refine .guard ?_
  extract_lets
  split
  · exact .guard (.next _)
  · exact .next _

theorem execDemandSubintervalEnd_runs (s : State) : Runs (execDemandSubintervalEnd s) := by
  unfold execDemandSubintervalEnd
  refine .guard ?_
  split
  · exact .next _
  · exact .guard (.guard (.next _))

theorem execDisplayScroll_runs (s : State) : Runs (execDisplayScroll s) := by
  unfold execDisplayScroll
  refine .ite ?_ (.next _)
  split
  · exact .next _
  · exact .next _

theorem execRequalifyResult_runs (stand : Fin 4) (s : State) : Runs (execRequalifyResult stand s) := by
  unfold execRequalifyResult
  extract_lets
  split
  · exact .next _
  · split
    · exact .next _
    · exact .guard (.next _)

theorem execRestAcceptance_runs (stand : Fin 4) (s : State) : Runs (execRestAcceptance stand s) := by
  unfold execRestAcceptance
  refine .guard ?_
  split
  · exact .next _
  · split
    · exact .next _
    · exact .guard (.next _)

theorem execBankSwapEnd_runs (chan : Fin 36) (s : State) : Runs (execBankSwapEnd chan s) := by
  unfold execBankSwapEnd
  split
  · exact .next _
  · refine .guard ?_
    split
    · exact .next _
    · exact .next _

theorem execPathCheckStart_runs (stand : Fin 4) (s : State) : Runs (execPathCheckStart stand s) := by
  unfold execPathCheckStart
  refine .guard ?_
  extract_lets
  split
  · exact .next _
  · split
    · exact .next _
    · exact .next _

theorem execSnapshotWrite_runs (seq : Fin 4) (s : State) : Runs (execSnapshotWrite seq s) := by
  unfold execSnapshotWrite
  extract_lets
  split
  · refine .guard ?_
    split
    · exact .next _
    · exact .next _
  · exact .next _

theorem execCanopyReady_runs (activeOk otherOk : Bool) (s : State) : Runs (execCanopyReady activeOk otherOk s) := by
  unfold execCanopyReady
  refine .guard ?_
  split
  · exact .next _
  · exact .next _
  · exact .next _

/-! ### Every command -/

/-- A command of the shape that its arm asks for answers a next state; the arms that answer one outright come last. -/
theorem exec_runs_of_shapeHolds {c : Instr} {s : State} (hs : shapeHolds s c = true) : Runs (exec c s) := by
  cases c
  case dspFrame => exact execDspFrame_runs hs
  case keyAgree => exact execKeyAgree_runs hs
  case provisionInstall => exact execProvisionInstall_runs hs
  case unknownOpcode => exact execUnknownOpcode_runs hs
  -- Commands whose arm has a shape of its own.
  case canopyRestart => exact execCanopyRestart_runs s
  case updateSafePoint => exact execUpdateSafePoint_runs s
  case wardenHeartbeatTimeout => exact execWardenHeartbeatTimeout_runs s
  case demandSubintervalEnd => exact execDemandSubintervalEnd_runs s
  case displayScroll => exact execDisplayScroll_runs s
  case requalifyResult => exact execRequalifyResult_runs _ s
  case restAcceptance => exact execRestAcceptance_runs _ s
  case bankSwapEnd => exact execBankSwapEnd_runs _ s
  case pathCheckStart => exact execPathCheckStart_runs _ s
  case snapshotWrite => exact execSnapshotWrite_runs _ s
  case canopyReady => exact execCanopyReady_runs _ _ s
  -- Commands that look first whether something waits for them.
  case queueEntryWrite | captureTrigger | checkpointComplete | transplantPackageBuild =>
    dsimp only [exec, execQueueEntryWrite, execCaptureTrigger, execCheckpointComplete, execTransplantPackageBuild]
    split
    · exact .next _
    · exact .next _
  case clearing | logEntryWrite | identifyBroadcastReply | eventRecordWrite | archiveWrite | restSourceSwitch |
      bankSwapFadeStart | pathCheckComplete | trimLearning | phasorFrameDrop | transplantApply =>
    dsimp only [exec, execClearing, execLogEntryWrite, execIdentifyBroadcastReply, execEventRecordWrite, execArchiveWrite,
      execRestSourceSwitch, execBankSwapFadeStart, execPathCheckComplete, execTrimLearning, execPhasorFrameDrop,
      execTransplantApply]
    split
    · exact .next _
    · exact .guard (.next _)
  case sequencerTimeTick | captureDone =>
    dsimp only [exec, execSequencerTimeTick, execCaptureDone]
    split
    · exact .guard (.next _)
    · exact .next _
  case frameTransmit | ownFrameAdmission =>
    dsimp only [exec, execFrameTransmit, execOwnFrameAdmission]
    split
    · exact .next _
    · exact .guard (.guard (.next _))
  case openEventClose | pqWindowEnd | phasorReport =>
    dsimp only [exec, execOpenEventClose, execPqWindowEnd, execPhasorReport]
    refine .guard ?_
    split
    · exact .next _
    · exact .next _
  -- Commands that try the regions of an image.
  case wardenStart | dspStart =>
    dsimp only [exec, execWardenStart, execDspStart]
    refine .guard ?_
    split
    · exact .next _
    · exact .next _
  -- Commands that come from the host or as a network packet.
  case hush via | resume via =>
    cases via
    · exact .next _
    · exact .next _
  -- Commands behind one guard after another, each of them giving a next state.
  case slotStart | firstOverlapEnd => exact .guard (.guard (.guard (.guard (.guard (.next _)))))
  case jtagUpdateIr | queuePush | refComparisonResult | scrubRead | sensorSample | consoleAttach | spliceBack =>
    exact .guard (.guard (.guard (.next _)))
  case trngRestart | cfTestExpiry | calendarLeapSecond | leapSecond | keyPress | keyLongPress | vcoreTrip | supra3sEnd |
      twoHourBoundary | vauxStartThreshold | restartDelayExpiry | vdd33Regulation =>
    exact .guard (.guard (.next _))
  case pmuCmdDataOn => exact .ite (.guard (.next _)) (.next _)
  case tamperEvaluation | tamperPersistExpiry | clearPendingResume | clockMonitorWindow | monitorInjection | keystoreCheck |
      trngHealthFail | jtagReset | preshadowConnect | homeReturn | captureReadTimeout | cfPulseEnd | blockBoundary |
      stuckDetected | modulatorOverloadReset | refBaselineCapture | refinOutOfRange | wakeHoldExpiry | rtcFollowMeasurement |
      trimLearnedStore | calendarRangeEnd | sourceTimeout | holdoverLimit | lastLockedRateStore | blazeEdge | notchCapture |
      canopyWatchdog | dspWatchdog | wardenWatchdog | wardenRestartComplete | displayHoldExpiry | keyRelease | consoleDetach |
      linkUp | linkDown | peerDelayRequest | supervisionSend | ringOpen | ownerAnswerTimeout | pmuCmdDataOff | pmuCmdSendCfg2 |
      pmuCmdIgnored | updateEraseDone | trialReadyTimeout | updateTrialEnd | aonPowerUp | aonBrownOut | pfailAssert |
      powerFailCheckpoint | pfailRelease | restartDelayReset | urmsHalfCycle | pqAggregateEnd | frequencyIntervalEnd |
      vcoreRegulation | crystalStable | pllLock | loaderComplete | modulatorStart | firstSettledSample | uartFrameTransmit |
      commitParams =>
    exact .guard (.next _)
  -- Commands that answer a next state outright: the other requests, and the events that always have an effect.
  all_goals exact .next _

theorem exec_fault_of_not_shapeHolds {c : Instr} {s : State} (hs : shapeHolds s c = false) :
    exec c s = .fault .malformedCommand := by
  unfold shapeHolds at hs
  split at hs
  case h_1 frames => exact if_pos (by simp [hs])
  case h_2 h hostPub keyLen => exact if_pos (by simpa using hs)
  case h_3 h params decrypted signature => exact if_pos (by simpa using hs)
  case h_4 h opcode => exact if_pos (by simpa using hs)
  case h_5 => exact nomatch hs

/-- The checks of `Instr.wf` cover every shape but that of a DSP frame, which also depends on the state's mode. -/
theorem shapeHolds_of_wf {c : Instr} {s : State} (hwf : c.wf = true) (hf : ∀ f, c = .dspFrame f → framesFit s f = true) :
    shapeHolds s c = true := by
  unfold shapeHolds
  split
  case h_1 frames => exact hf frames rfl
  case h_2 h hostPub keyLen => exact Bool.and_elim_right (a := h.wf && fits 8 keyLen) hwf
  case h_3 h params decrypted signature => exact Bool.and_elim_right (a := h.wf) hwf
  case h_4 h opcode => exact Bool.and_elim_right (a := h.wf && fits 16 opcode) hwf
  case h_5 => rfl

/-- Settles O4: what `Instr.wf` and `framesFit` check is the shape that the arms of `exec` ask for, and a command runs where it has
this shape and stops with `malformedCommand` where it has not. -/
theorem wellFormedCommandsRun : Obligations.WellFormedCommandsRun := by
  intro c s
  refine ⟨fun hwf hf => exec_runs_of_shapeHolds (shapeHolds_of_wf hwf hf), ?_⟩
  cases hs : shapeHolds s c with
  | true => exact .inl (exec_runs_of_shapeHolds hs)
  | false => exact .inr (exec_fault_of_not_shapeHolds hs)

end Sys2Proof.Machine
end

section
/-! LEMMAS. `Safe z t`: the state `t`, reached from `z`, has the queue and the clock of `z`, and meets the safety invariant where `z`
does. Its rules for choices, folds and answers, and for the accessors of the state. -/

namespace Sys2Proof.Machine

variable {z s t : State}

/-- What every operation and every command keeps: the queue, the model clock and the safety invariant. -/
structure Safe (z t : State) : Prop where
  pending : t.pending = z.pending
  clk : t.clk = z.clk
  inv : z.Inv → t.Inv

theorem State.Inv.memWf {s : State} (h : s.Inv) : memWf s.hw.mem = true := h.1
theorem State.Inv.buffer_le {s : State} (h : s.Inv) : s.wd.buffer.length ≤ 256 := h.2.1
theorem State.Inv.stage_le {s : State} (h : s.Inv) : s.pw.stage ≤ 4 := h.2.2.1
theorem State.Inv.stage_le_two {s : State} (h : s.Inv) (hc : s.wd.canopyRunning = false) : s.pw.stage ≤ 2 := h.2.2.2.1 hc
theorem State.Inv.shape {s : State} (h : s.Inv) : s.Shape := h.2.2.2.2

theorem Safe.refl (s : State) : Safe s s := ⟨rfl, rfl, id⟩

theorem Safe.trans {s t u : State} (h : Safe s t) (g : Safe t u) : Safe s u :=
  ⟨g.pending.trans h.pending, g.clk.trans h.clk, fun hi => g.inv (h.inv hi)⟩

/-- An operation that touches neither queue nor clock needs only its rule for the invariant. -/
theorem Safe.of (H : Safe z s) (hp : t.pending = s.pending) (hc : t.clk = s.clk) (hi : s.Inv → t.Inv) : Safe z t :=
  H.trans ⟨hp, hc, hi⟩

theorem safe_ite {c : Prop} [Decidable c] {a b : State} (ha : Safe z a) (hb : Safe z b) : Safe z (if c then a else b) := by
  split
  · exact ha
  · exact hb

theorem safe_ite_fst {α : Type} {c : Prop} [Decidable c] {a b : State × α} (ha : Safe z a.1) (hb : Safe z b.1) :
    Safe z (if c then a else b).1 := by
  split
  · exact ha
  · exact hb

theorem safe_pair {α : Type} {b : α} (H : Safe z s) : Safe z (s, b).1 := H

theorem safe_foldl {α : Type} {f : State → α → State} {l : List α} {s : State}
    (hf : ∀ s a, Safe z s → Safe z (f s a)) (H : Safe z s) : Safe z (l.foldl f s) :=
  List.foldlRecOn l f H fun _ h _ _ => hf _ _ h

theorem safe_foldl_fst {α β : Type} {f : State × β → α → State × β} {l : List α} {p : State × β}
    (hf : ∀ p a, Safe z p.1 → Safe z (f p a).1) (H : Safe z p.1) : Safe z (l.foldl f p).1 :=
  List.foldlRecOn (motive := fun p => Safe z p.1) l f H fun _ h _ _ => hf _ _ h

theorem safe_elim {α : Type} {o : Option α} {f : α → State} (H : Safe z s) (hf : ∀ a, Safe z (f a)) :
    Safe z (o.elim s f) := by
  cases o with
  | none => exact H
  | some a => exact hf a

theorem safe_fst {α : Type} {p : State × α} {a : State} {b : α} (h : p = (a, b)) (H : Safe z p.1) : Safe z a := by
  rw [h] at H; exact H

/-- The state that an opcode leaves is safe from `z`. -/
def AnsSafe (z : State) (a : Ans) : Prop := Safe z a.s

theorem AnsSafe.mk {st bs} (H : Safe z s) : AnsSafe z ⟨s, st, bs⟩ := H

theorem anssafe_ite {c : Prop} [Decidable c] {a b : Ans} (ha : AnsSafe z a) (hb : AnsSafe z b) :
    AnsSafe z (if c then a else b) := by
  split
  · exact ha
  · exact hb

/-- The next state, where the outcome is one, is safe from `z`. -/
def OutSafe (z : State) (o : Host.Outcome State Fault Refusal) : Prop := ∀ t, o = .next t → Safe z t

theorem OutSafe.next (H : Safe z t) : OutSafe z (.next t) := by
  intro u hu; cases hu; exact H

theorem OutSafe.fault (f : Fault) : OutSafe z (.fault f) := by
  intro u hu; cases hu

theorem outsafe_ite {c : Prop} [Decidable c] {a b : Host.Outcome State Fault Refusal} (ha : OutSafe z a)
    (hb : OutSafe z b) : OutSafe z (if c then a else b) := by
  split
  · exact ha
  · exact hb

/-! The accessors, each by its rule in `onX_inv`; where the invariant speaks of a part, the update keeps what it says. -/

theorem onPr_safe {f} (H : Safe z s) : Safe z (s.onPr f) := H.of rfl rfl onPr_inv
theorem onTx_safe {f} (H : Safe z s) : Safe z (s.onTx f) := H.of rfl rfl onTx_inv
theorem onHm_safe {f} (H : Safe z s) : Safe z (s.onHm f) := H.of rfl rfl onHm_inv
theorem onRef_safe {f} (H : Safe z s) : Safe z (s.onRef f) := H.of rfl rfl onRef_inv
theorem onQu_safe {f} (H : Safe z s) : Safe z (s.onQu f) := H.of rfl rfl onQu_inv
theorem onMe_safe {f} (H : Safe z s) : Safe z (s.onMe f) := H.of rfl rfl onMe_inv
theorem onPm_safe {f} (H : Safe z s) : Safe z (s.onPm f) := H.of rfl rfl onPm_inv
theorem onInst_safe {n f} (H : Safe z s) : Safe z (s.onInst n f) := H.of rfl rfl onInst_inv
theorem drew_safe {n} (H : Safe z s) : Safe z (s.drew n) := H.of rfl rfl drew_inv
theorem onChan_safe {n f} (H : Safe z s) : Safe z (s.onChan n f) := H.of rfl rfl onChan_inv
theorem onConv_safe {n f} (H : Safe z s) : Safe z (s.onConv n f) := H.of rfl rfl onConv_inv
theorem onStand_safe {n f} (H : Safe z s) : Safe z (s.onStand n f) := H.of rfl rfl onStand_inv
theorem onSeq_safe {n f} (H : Safe z s) : Safe z (s.onSeq n f) := H.of rfl rfl onSeq_inv
theorem onFilt_safe {n f} (H : Safe z s) : Safe z (s.onFilt n f) := H.of rfl rfl onFilt_inv
theorem onUnit_safe {n f} (H : Safe z s) : Safe z (s.onUnit n f) := H.of rfl rfl onUnit_inv
theorem wr_safe {a bs} (H : Safe z s) : Safe z (s.wr a bs) := H.of (by rw [wr_frame]) (by rw [wr_frame]) wr_inv

theorem onHw_safe {f} (H : Safe z s) (h : ∀ x, (f x).mem = x.mem) : Safe z (s.onHw f) :=
  H.of rfl rfl fun hi => onHw_inv hi (h _)
theorem onPw_safe {f} (H : Safe z s) (h : ∀ x, (f x).stage = x.stage) : Safe z (s.onPw f) :=
  H.of rfl rfl fun hi => onPw_inv hi (h _)
theorem onWd_safe {f} (H : Safe z s) (h : ∀ x, (f x).buffer = x.buffer)
    (hc : ∀ x, (f x).canopyRunning = x.canopyRunning) : Safe z (s.onWd f) :=
  H.of rfl rfl fun hi => onWd_inv hi (h _) (hc _)
theorem onTe_safe {f} (H : Safe z s) (h : ∀ x, (f x).blazes.length = x.blazes.length)
    (hn : ∀ x, (f x).notches.length = x.notches.length) : Safe z (s.onTe f) :=
  H.of rfl rfl fun hi => onTe_inv hi (h _) (hn _)
theorem onNt_safe {f} (H : Safe z s) (h : ∀ x, (f x).ports.length = x.ports.length) : Safe z (s.onNt f) :=
  H.of rfl rfl fun hi => onNt_inv hi (h _)
theorem onPq_safe {f} (H : Safe z s) (h : ∀ x, (f x).buses.length = x.buses.length) : Safe z (s.onPq f) :=
  H.of rfl rfl fun hi => onPq_inv hi (h _)
theorem onRtc_safe {f} (H : Safe z s) (h : ∀ x, (f x).alarms.length = x.alarms.length) : Safe z (s.onRtc f) :=
  H.of rfl rfl fun hi => onRtc_inv hi (h _)
theorem onSe_safe {f} (H : Safe z s) (h : ∀ x, (f x).locks.length = x.locks.length)
    (hn : ∀ x, (f x).pws.length = x.pws.length) : Safe z (s.onSe f) :=
  H.of rfl rfl fun hi => onSe_inv hi (h _) (hn _)
theorem onTp_safe {f} (H : Safe z s) (h : ∀ x, (f x).slots.length = x.slots.length)
    (hn : ∀ x, (f x).detPrev.length = x.detPrev.length) : Safe z (s.onTp f) :=
  H.of rfl rfl fun hi => onTp_inv hi (h _) (hn _)
theorem onUp_safe {f} (H : Safe z s) (h : ∀ x, (f x).banks.length = x.banks.length)
    (hn : ∀ x, (f x).active.length = x.active.length) : Safe z (s.onUp f) :=
  H.of rfl rfl fun hi => onUp_inv hi (h _) (hn _)
theorem onLk_safe {f} (H : Safe z s) (h : ∀ x, (f x).scratch.length = x.scratch.length) : Safe z (s.onLk f) :=
  H.of rfl rfl fun hi => onLk_inv hi (h _)

/-! A whole bank replaced by one as long. -/

theorem onHw_safe_of_memWf {f} (H : Safe z s) (h : memWf s.hw.mem = true → memWf (f s.hw).mem = true) : Safe z (s.onHw f) :=
  H.of rfl rfl fun ⟨hm, hb, hp, hc, hs⟩ => ⟨h hm, hb, hp, hc, hs⟩

theorem chans_safe {l : List Chan} (H : Safe z s) (h : l.length = s.chans.length) : Safe z { s with chans := l } :=
  H.of rfl rfl fun hi => inv_of hi rfl rfl rfl rfl fun hs => by simpa [State.Shape, h] using hs
theorem convs_safe {l : List Conv} (H : Safe z s) (h : l.length = s.convs.length) : Safe z { s with convs := l } :=
  H.of rfl rfl fun hi => inv_of hi rfl rfl rfl rfl fun hs => by simpa [State.Shape, h] using hs
theorem stands_safe {l : List Stand} (H : Safe z s) (h : l.length = s.stands.length) : Safe z { s with stands := l } :=
  H.of rfl rfl fun hi => inv_of hi rfl rfl rfl rfl fun hs => by simpa [State.Shape, h] using hs
theorem seqs_safe {l : List Seq} (H : Safe z s) (h : l.length = s.seqs.length) : Safe z { s with seqs := l } :=
  H.of rfl rfl fun hi => inv_of hi rfl rfl rfl rfl fun hs => by simpa [State.Shape, h] using hs
theorem units_safe {l : List CapUnit} (H : Safe z s) (h : l.length = s.units.length) : Safe z { s with units := l } :=
  H.of rfl rfl fun hi => inv_of hi rfl rfl rfl rfl fun hs => by simpa [State.Shape, h] using hs

theorem wave_safe {l : List Wave} (H : Safe z s) : Safe z { s with wave := l } := H.of rfl rfl id

theorem foldl_wrBytes_wf {l : List (Nat × List Byte)} {m : List Host.Cell} (h : memWf m = true) :
    memWf (l.foldl (fun m e => wrBytes m e.1 e.2) m) = true :=
  List.foldlRecOn (motive := fun m => memWf m = true) l _ h fun _ h e _ => wrBytes_wf e.1 e.2 h

/-! A part taken over from another state that is safe from the same one. -/

theorem Safe.withHw (H : Safe z s) (Ht : Safe z t) : Safe z { s with hw := t.hw } :=
  ⟨H.pending, H.clk, fun hi => ⟨(Ht.inv hi).1, (H.inv hi).2⟩⟩

theorem Safe.withPq (H : Safe z s) (Ht : Safe z t) : Safe z { s with pq := t.pq } :=
  ⟨H.pending, H.clk, fun hi => inv_of (H.inv hi) rfl rfl rfl rfl fun hs => by
    have ht := (Ht.inv hi).shape
    unfold State.Shape at ht hs ⊢
    simp only [ht, hs, and_self]⟩

theorem Safe.withSe (H : Safe z s) (Ht : Safe z t) : Safe z { s with se := t.se } :=
  ⟨H.pending, H.clk, fun hi => inv_of (H.inv hi) rfl rfl rfl rfl fun hs => by
    have ht := (Ht.inv hi).shape
    unfold State.Shape at ht hs ⊢
    simp only [ht, hs, and_self]⟩

theorem Safe.withTp (H : Safe z s) (Ht : Safe z t) : Safe z { s with tp := t.tp } :=
  ⟨H.pending, H.clk, fun hi => inv_of (H.inv hi) rfl rfl rfl rfl fun hs => by
    have ht := (Ht.inv hi).shape
    unfold State.Shape at ht hs ⊢
    simp only [ht, hs, and_self]⟩

/-! What some updates leave of the banks that the invariant counts. -/

@[simp] theorem staged_stage (p : Power) (n clk : Nat) : (p.staged n clk).stage = n := rfl
@[simp] theorem setOsf_alarms (r : Rtc) : r.setOsf.alarms = r.alarms := rfl
@[simp] theorem unstage_alarms (r : Rtc) : r.unstage.alarms = r.alarms := rfl
@[simp] theorem stage_alarms (r : Rtc) (field v : Nat) : (r.stage field v).alarms = r.alarms := by
  unfold Rtc.stage; split <;> rfl
@[simp] theorem hear_scratch (l : Link) (p : Path) (clk : Nat) : (l.hear p clk).scratch = l.scratch := rfl
@[simp] theorem linkReplied_scratch (l : Link) (bulk : Bool) (bs : List Byte) : (l.replied bulk bs).scratch = l.scratch := by
  unfold Link.replied; split <;> rfl
@[simp] theorem nextLine_scratch (l : Link) (clk : Nat) : (l.nextLine clk).scratch = l.scratch := by
  unfold Link.nextLine
  split
  · rfl
  · rfl
  · split <;> rfl
  · rfl
@[simp] theorem cutBulk_scratch (l : Link) (clk : Nat) : (l.cutBulk clk).scratch = l.scratch := by
  unfold Link.cutBulk; split <;> rfl

theorem frame_length {frames : List (List ConvIn)} {f : List ConvIn} (h : framesFit s frames = true) (hf : f ∈ frames) :
    f.length = 40 := by
  simp only [framesFit, Bool.and_eq_true, List.all_eq_true] at h
  have hs := h.1 f hf
  simp only [frameShape, Bool.and_eq_true, beq_iff_eq] at hs
  exact hs.1

end Sys2Proof.Machine
end

section
/-! LEMMAS. Every operation that commands share is safe: one rule for each, callees first, `H` being how its argument was
reached. -/

namespace Sys2Proof.Machine

variable {z s : State}

theorem updIdle_safe (H : Safe z s) : Safe z s.updIdle :=
  onUp_safe H (fun _ => rfl) (fun _ => rfl)

theorem abandonUpdate_safe (H : Safe z s) : Safe z s.abandonUpdate :=
  safe_ite H (updIdle_safe H)

theorem pushLog_safe {e : LogEntry} (H : Safe z s) : Safe z (s.pushLog e) := by
  unfold State.pushLog
  refine H.of rfl rfl fun ⟨hm, hb, hp, hc, hs⟩ => ⟨hm, ?_, hp, ?_, hs⟩
  · rw [onWd_wd]
    split
    case isTrue hl => simpa using hl
    case isFalse => exact hb
  · rw [onWd_wd, onWd_pw]
    split
    · exact hc
    · exact hc

theorem pushConts_safe {time code fl : Nat} {l : List (List Byte)} (H : Safe z s) : Safe z (s.pushConts time code fl l) := by
  induction l generalizing s with
  | nil => exact H
  | cons d r ih => exact ih (pushLog_safe H)

theorem logAt_safe {time code : Nat} {vbat deferred : Bool} {data : List Byte} {conts : List (List Byte)} (H : Safe z s) :
    Safe z (s.logAt time code vbat deferred data conts) :=
  pushConts_safe (pushLog_safe H)

theorem log_safe {code : Nat} {data : List Byte} {conts : List (List Byte)} (H : Safe z s) :
    Safe z (s.log code data conts) :=
  logAt_safe H

theorem baseFailLog_safe {c : Check} {result ohm deg : Nat} (H : Safe z s) : Safe z (s.baseFailLog c result ohm deg) :=
  safe_ite (log_safe H) H

theorem setCheckResult_safe {c result : Nat} (H : Safe z s) : Safe z (s.setCheckResult c result) :=
  onChan_safe H

theorem abortCheck_safe {k : Nat} (H : Safe z s) : Safe z (s.abortCheck k) := by
  unfold State.abortCheck
  split
  · exact H
  · exact onStand_safe (baseFailLog_safe (setCheckResult_safe H))

theorem abortOn_safe {c : Nat} (H : Safe z s) : Safe z (s.abortOn c) :=
  safe_ite (abortCheck_safe H) H

theorem restoreTrim_safe {k v : Nat} (H : Safe z s) : Safe z (s.restoreTrim k v) := by
  unfold State.restoreTrim
  split
  · exact H
  · exact onStand_safe (onConv_safe H)

theorem abortSpareRest_safe {k : Nat} (H : Safe z s) : Safe z (s.abortSpareRest k) :=
  safe_ite (restoreTrim_safe H) H

theorem onBus_safe {b : Nat} {f : PqBus → PqBus} (H : Safe z s) : Safe z (s.onBus b f) :=
  onPq_safe H (fun _ => by simp)

theorem closeTen_safe {b : Nat} {place : Rat} {endT extra : Nat} (H : Safe z s) :
    Safe z (s.closeTen b place endT extra) :=
  onBus_safe H

theorem closeAccs_safe {level endT extra : Nat} {sel : PqAcc → Bool} (H : Safe z s) :
    Safe z (s.closeAccs level endT extra sel) :=
  onPq_safe H (fun _ => rfl)

theorem closeSupra_safe {e : Nat × Nat × Nat × Bool} (H : Safe z s) : Safe z (s.closeSupra e) := by
  unfold State.closeSupra
  extract_lets s1
  have h1 : Safe z s1 := closeAccs_safe H
  exact safe_ite (onPq_safe h1 (fun _ => rfl)) h1

theorem closePst_safe {b extra : Nat} {place : Rat} {endT : Nat} {fresh : Bool} (H : Safe z s) :
    Safe z (s.closePst b extra place endT fresh) :=
  onBus_safe H

theorem pqStep_safe (H : Safe z s) : Safe z s.pqStep := by
  unfold State.pqStep
  refine safe_ite H ?_
  extract_lets mark s0 un sel s1 s2 s3
  have h0 : Safe z s0 := safe_foldl (fun _ _ h => onBus_safe (closeTen_safe h)) H
  have h1 : Safe z s1 := closeAccs_safe (closeAccs_safe h0)
  have h2 : Safe z s2 := closeSupra_safe (closeSupra_safe (closeSupra_safe h1))
  have h3 : Safe z s3 := safe_foldl (fun _ _ h => onBus_safe (closePst_safe h)) h2
  exact safe_ite h0 (drew_safe (onPq_safe h3 (fun _ => rfl)))

theorem pmuMissed_safe {upTo from_ : Nat} (H : Safe z s) : Safe z (s.pmuMissed upTo from_) :=
  onPm_safe H

theorem pqSync_safe (H : Safe z s) : Safe z s.pqSync :=
  onPq_safe H (fun _ => by simp)

theorem uncorrectable_safe {w : Nat} (H : Safe z s) : Safe z (s.uncorrectable w) :=
  log_safe (onHw_safe H (fun _ => rfl))

theorem senseFlip_safe {f : Flip} (H : Safe z s) : Safe z (s.senseFlip f) :=
  safe_ite (uncorrectable_safe H) (log_safe (onHw_safe H (fun _ => rfl)))

theorem sense_safe {a n : Nat} (H : Safe z s) : Safe z (s.sense a n) :=
  safe_foldl (fun _ _ h => senseFlip_safe h) H

theorem sensePair_safe {part page : Nat} (H : Safe z s) : Safe z (s.sensePair part page) :=
  sense_safe H

theorem wrPage_safe {ps : List (Nat × List Byte)} (H : Safe z s) : Safe z (s.wrPage ps) :=
  onHw_safe_of_memWf H fun hm => wrPage_wf ps hm

theorem pageWrite_safe {part page : Nat} {bs : List Byte} (H : Safe z s) : Safe z (s.pageWrite part page bs) :=
  wrPage_safe H

theorem recordFix_safe {part id page : Nat} (H : Safe z s) : Safe z (s.recordFix part id page) := by
  unfold State.recordFix
  extract_lets s1
  have h1 : Safe z s1 := sensePair_safe H
  split
  · exact safe_ite (log_safe (onHw_safe (pageWrite_safe h1) (fun _ => rfl))) h1
  · exact onHw_safe (pageWrite_safe h1) (fun _ => rfl)
  · exact onHw_safe (pageWrite_safe h1) (fun _ => rfl)
  · exact log_safe h1

theorem fixRecord_safe {part : Nat} {e : Nat × Nat} (H : Safe z s) : Safe z (s.fixRecord part e) :=
  safe_ite H (recordFix_safe H)

theorem andThen_safe {r : State × Bool} {f : State → State × Bool} (H : Safe z r.1) (hf : ∀ x, Safe z x → Safe z (f x).1) :
    Safe z (andThen r f).1 :=
  safe_ite_fst (hf _ H) H

theorem recordPut_safe {part : Nat} {e : Nat × Nat} {flags seq : Nat} {payload : List Byte} (H : Safe z s) :
    Safe z (s.recordPut part e flags seq payload).1 := by
  unfold State.recordPut
  extract_lets page put good s1 s2
  have h1 : Safe z s1 := sense_safe (pageWrite_safe H)
  have h2 : Safe z s2 := sense_safe (pageWrite_safe h1)
  exact safe_ite_fst h1 (safe_ite_fst h2 (safe_pair (log_safe h2)))

theorem itemPut_safe {part : Nat} {l : List (Nat × Nat)} {bs : List Byte} (H : Safe z s) :
    Safe z (s.itemPut part l bs).1 := by
  unfold State.itemPut
  extract_lets s1 q
  have h1 : Safe z s1 := safe_foldl (fun _ _ h => fixRecord_safe h) H
  exact safe_foldl_fst (fun _ _ h => andThen_safe h (fun _ h2 => recordPut_safe h2)) h1

theorem itemWrite_safe {part : Nat} {l : List (Nat × Nat)} {bs : List Byte} (H : Safe z s) :
    Safe z (s.itemWrite part l bs) :=
  itemPut_safe H

theorem storeDevice_safe (H : Safe z s) : Safe z s.storeDevice :=
  itemWrite_safe H

theorem stopFollowing_safe (H : Safe z s) : Safe z s.stopFollowing :=
  onRtc_safe H (fun _ => rfl)

theorem irq_safe {b : Nat} (H : Safe z s) : Safe z (s.irq b) :=
  onLk_safe H (fun _ => rfl)

theorem pmuAutoStart_safe (H : Safe z s) : Safe z s.pmuAutoStart :=
  safe_ite (onPm_safe H) H

theorem enterStage_safe_of_runs {n : Nat} (H : Safe z s) (hn : n ≤ 4) (hr : s.Inv → s.wd.canopyRunning = false → n ≤ 2) :
    Safe z (s.enterStage n) :=
  safe_ite H (log_safe (irq_safe (H.of rfl rfl fun hi => ⟨hi.memWf, hi.buffer_le, hn, hr hi, hi.shape⟩)))

/-- A stage that needs no Canopy. -/
theorem enterStage_safe {n : Nat} (H : Safe z s) (hn : n ≤ 2) : Safe z (s.enterStage n) :=
  enterStage_safe_of_runs H (by omega) fun _ _ => hn

theorem restage_safe (H : Safe z s) : Safe z s.restage := by
  unfold State.restage
  split
  case isTrue => exact H
  case isFalse hs =>
    have hr : s.Inv → s.wd.canopyRunning = false → 4 ≤ 2 := fun hi hc => absurd (hi.stage_le_two hc) (by omega)
    exact safe_ite (safe_ite H (pmuAutoStart_safe (enterStage_safe_of_runs H le_rfl hr)))
      (enterStage_safe_of_runs H (by decide) fun hi hc => absurd (hr hi hc) (by decide))

theorem takeScheduled_safe {p : Nat → Bool} (H : Safe z s) : Safe z (s.takeScheduled p) :=
  onPr_safe H

theorem servoTo_safe {n : Servo} {th : Int} (H : Safe z s) : Safe z (s.servoTo n th) := by
  unfold State.servoTo
  refine safe_ite H ?_
  extract_lets frozen s1 s11 s12 s2 s3
  have h1 : Safe z s1 := onTe_safe H (fun _ => rfl) (fun _ => rfl)
  have h11 : Safe z s11 := safe_ite (storeDevice_safe h1) h1
  have h12 : Safe z s12 := safe_ite (stopFollowing_safe (onPm_safe h11)) h11
  have h2 : Safe z s2 := log_safe (irq_safe h12)
  have h3 : Safe z s3 := restage_safe (drew_safe h2)
  exact safe_ite (takeScheduled_safe h3) h3

theorem acceptStep_safe {delta : Int} {acquire : Bool} (H : Safe z s) : Safe z (s.acceptStep delta acquire) := by
  unfold State.acceptStep
  extract_lets new al s1 s2 s3 s4
  have h1 : Safe z s1 := onTe_safe (pqStep_safe (onPm_safe (pmuMissed_safe H))) (fun _ => by simp) (fun _ => by simp)
  have h2 : Safe z s2 := onMe_safe (onQu_safe h1)
  have h3 : Safe z s3 := seqs_safe h2 (by simp)
  have h4 : Safe z s4 := log_safe (pqSync_safe h3)
  exact safe_ite (servoTo_safe h4) h4

theorem onKey_safe {p : Path} {f : SessKey → SessKey} (H : Safe z s) : Safe z (s.onKey p f) :=
  onTp_safe H (fun _ => rfl) (fun _ => rfl)

theorem onSlot_safe {n : Nat} {f : Slot → Slot} (H : Safe z s) : Safe z (s.onSlot n f) :=
  onTp_safe H (fun _ => by simp) (fun _ => rfl)

theorem tamperClear_safe {slot circuit : Nat} (H : Safe z s) : Safe z (s.tamperClear slot circuit) :=
  safe_ite (onSlot_safe H) (safe_ite (log_safe (onSlot_safe H)) H)

theorem secPass_safe {h : Hdr} (H : Safe z s) : Safe z (s.secPass h) := by
  unfold State.secPass
  split
  · exact H
  · extract_lets s1 s2
    have h1 : Safe z s1 := onKey_safe H
    have h2 : Safe z s2 := onTp_safe h1 (fun _ => rfl) (fun _ => rfl)
    exact safe_ite h2 (tamperClear_safe h2)

theorem onAlarm_safe {k : Nat} {f : Alarm → Alarm} (H : Safe z s) : Safe z (s.onAlarm k f) :=
  onRtc_safe H (fun _ => by simp)

theorem queueCheck_safe {c : Check} (H : Safe z s) : Safe z (s.queueCheck c) :=
  onStand_safe H

theorem seqIdle_safe {n : Nat} (H : Safe z s) : Safe z (s.seqIdle n) :=
  onSeq_safe H

theorem seqRun_safe {n t : Nat} (H : Safe z s) : Safe z (s.seqRun n t) := by
  unfold State.seqRun
  split
  · exact H
  · extract_lets s1
    have h1 : Safe z s1 := onSeq_safe H
    split
    · exact h1
    · extract_lets good bad s2 s3 s4
      have h2 : Safe z s2 := safe_foldl (fun _ _ h => setCheckResult_safe h) h1
      have h3 : Safe z s3 := safe_foldl (fun _ _ h => queueCheck_safe h) h2
      have h4 : Safe z s4 := onSeq_safe h3
      exact safe_ite (seqIdle_safe h4) h4

theorem unitsDue_safe {source index t : Nat} (H : Safe z s) : Safe z (s.unitsDue source index t) :=
  units_safe H (by simp)

theorem seqAbandon_safe {n : Nat} (H : Safe z s) : Safe z (s.seqAbandon n) := by
  unfold State.seqAbandon
  extract_lets s1
  have h1 : Safe z s1 := by
    refine safe_foldl (fun s2 a h => ?_) H
    extract_lets d q
    split
    · exact safe_ite (onStand_safe (baseFailLog_safe (setCheckResult_safe h))) (onStand_safe h)
    · exact onStand_safe h
  exact onSeq_safe h1

theorem seqInstall_safe {n : Nat} {a : Option Arming} (H : Safe z s) : Safe z (s.seqInstall n a) := by
  unfold State.seqInstall
  split
  · exact onSeq_safe H
  · extract_lets s1
    have h1 : Safe z s1 := onSeq_safe H
    exact safe_ite (seqRun_safe (unitsDue_safe h1)) h1

theorem seqTrigger_safe {n t : Nat} (H : Safe z s) : Safe z (s.seqTrigger n t) := by
  unfold State.seqTrigger
  extract_lets q s1
  have h1 : Safe z s1 := seqRun_safe (unitsDue_safe (seqAbandon_safe H))
  refine safe_ite (seqRun_safe (unitsDue_safe H)) (safe_ite ?_ H)
  split
  · exact onSeq_safe H
  · exact safe_ite (onSeq_safe H) (unitsDue_safe (onSeq_safe H))
  · split
    · exact safe_ite h1 (seqInstall_safe h1)
    · exact h1

theorem seqTriggerAll_safe {source index t : Nat} (H : Safe z s) : Safe z (s.seqTriggerAll source index t) :=
  safe_foldl (fun _ _ h => safe_ite (seqTrigger_safe h) h) (unitsDue_safe H)

theorem resolvePend_safe {k : Nat} (H : Safe z s) : Safe z (s.resolvePend k) := by
  unfold State.resolvePend
  extract_lets a s1 seq
  have h1 : Safe z s1 := safe_ite (irq_safe H) H
  split
  · exact H
  · refine safe_ite ?_ ?_
    · extract_lets s2
      have h2 : Safe z s2 := safe_ite (logAt_safe h1) h1
      exact onAlarm_safe h2
    · extract_lets n
      exact logAt_safe (onAlarm_safe H)

theorem alarmAct_safe {k m count sec : Nat} {skipped : Bool} (H : Safe z s) : Safe z (s.alarmAct k m count sec skipped) := by
  unfold State.alarmAct
  extract_lets a d s1 s11 s2 s3 s4
  have h1 : Safe z s1 := onAlarm_safe H
  have h11 : Safe z s11 := safe_ite (onRtc_safe h1 (fun _ => rfl)) h1
  have h2 : Safe z s2 := safe_ite (irq_safe h11) h11
  have h3 : Safe z s3 := safe_ite (log_safe h2) h2
  have h4 : Safe z s4 := safe_ite (seqTriggerAll_safe h3) h3
  exact safe_ite (resolvePend_safe h4) h4

theorem adjustAlarm_safe {k o n : Nat} (H : Safe z s) : Safe z (s.adjustAlarm k o n) := by
  unfold State.adjustAlarm
  extract_lets s0 a x newCal hit
  have h0 : Safe z s0 := safe_ite (onAlarm_safe H) H
  split
  · exact safe_ite (alarmAct_safe h0) h0
  · extract_lets m s1 s11
    have h1 : Safe z s1 := logAt_safe (onAlarm_safe h0)
    have h11 : Safe z s11 := alarmAct_safe h0
    exact safe_ite (safe_ite (alarmAct_safe h1) h1) (safe_ite (onAlarm_safe h11) h11)

theorem adjustCal_safe {c : Cal} {set : Bool} (H : Safe z s) : Safe z (s.adjustCal c set) := by
  unfold State.adjustCal
  extract_lets o c0 s1
  have h1 : Safe z s1 := onRtc_safe H (fun _ => by split <;> rfl)
  exact safe_foldl (fun _ _ h => adjustAlarm_safe h) h1

theorem pioWrite_safe (H : Safe z s) : Safe z s.pioWrite := by
  unfold State.pioWrite
  split
  · extract_lets q
    exact onHw_safe (wr_safe H) (fun _ => rfl)
  · extract_lets img
    exact onHw_safe (wr_safe (wr_safe H)) (fun _ => rfl)

theorem pioUpdate_safe (H : Safe z s) : Safe z s.pioUpdate :=
  safe_ite (pioWrite_safe H) H

theorem copyInst_safe {v c : Nat} (H : Safe z s) : Safe z (s.copyInst v c) :=
  onInst_safe H

theorem unsettle_safe {v : Nat} (H : Safe z s) : Safe z (s.unsettle v) :=
  onConv_safe H

theorem moveSpare_safe {k c phase : Nat} (H : Safe z s) : Safe z (s.moveSpare k c phase) := by
  unfold State.moveSpare
  extract_lets d s1
  have h1 : Safe z s1 := onStand_safe H
  exact safe_ite h1 (copyInst_safe (unsettle_safe h1))

theorem shadowFor_safe {k slot : Nat} (H : Safe z s) : Safe z (s.shadowFor k slot) :=
  safe_ite (moveSpare_safe H) (moveSpare_safe H)

theorem mark_safe {c bit : Nat} (H : Safe z s) : Safe z (s.mark c bit) :=
  onChan_safe H

theorem splice_safe {k c : Nat} {toSpare : Bool} (H : Safe z s) : Safe z (s.splice k c toSpare) :=
  onStand_safe (mark_safe H)

theorem loadDone_safe {c : Nat} (H : Safe z s) : Safe z (s.loadDone c) := by
  unfold State.loadDone
  split
  · exact H
  · extract_lets s1 k s2
    have h1 : Safe z s1 := onFilt_safe H
    have h2 : Safe z s2 := safe_ite (onInst_safe h1) h1
    exact log_safe h2

theorem recallHome_safe {k : Nat} (H : Safe z s) : Safe z (s.recallHome k) :=
  safe_ite (safe_ite (onStand_safe (loadDone_safe (unsettle_safe (restoreTrim_safe H))))
    (loadDone_safe (splice_safe H))) H

theorem takeover_safe {k c : Nat} (H : Safe z s) : Safe z (s.takeover k c) := by
  unfold State.takeover
  extract_lets d s1 s0 s11 s2
  have h1 : Safe z s1 := abortCheck_safe H
  have h0 : Safe z s0 := copyInst_safe (unsettle_safe (recallHome_safe (abortSpareRest_safe h1)))
  have h11 : Safe z s11 := safe_ite h1 (safe_ite (splice_safe h1) (onStand_safe h0))
  have h2 : Safe z s2 := onStand_safe h11
  exact safe_ite h2 (pioUpdate_safe h2)

theorem rescue_safe {k : Nat} (H : Safe z s) : Safe z (s.rescue k) := by
  unfold State.rescue
  split
  · exact H
  · exact onChan_safe (takeover_safe H)

theorem coppiceDone_safe {k : Nat} (H : Safe z s) : Safe z (s.coppiceDone k) :=
  log_safe H

theorem afterBack_safe {k c : Nat} (H : Safe z s) : Safe z (s.afterBack k c) := by
  unfold State.afterBack
  extract_lets d s1
  have h1 : Safe z s1 := pioUpdate_safe (onStand_safe H)
  refine safe_ite (safe_ite (shadowFor_safe (onStand_safe h1)) (rescue_safe h1))
    (safe_ite (coppiceDone_safe (onStand_safe H)) ?_)
  split
  · exact moveSpare_safe H
  · exact safe_ite (shadowFor_safe (onStand_safe H)) (onStand_safe H)

theorem pqBegin_safe {from_ : Option PqSums} (H : Safe z s) : Safe z (s.pqBegin from_) := by
  unfold State.pqBegin
  extract_lets s1
  have h1 : Safe z s1 := pqSync_safe H
  exact onPq_safe h1 (fun _ => by split <;> simp)

theorem aggResume_safe (H : Safe z s) : Safe z s.aggResume := by
  unfold State.aggResume
  refine safe_ite H ?_
  split
  · exact log_safe (pqBegin_safe H)
  · exact pqBegin_safe H

theorem alAck_safe {k : Nat} (H : Safe z s) : Safe z (s.alAck k) :=
  onAlarm_safe H

theorem alignStep_safe (H : Safe z s) : Safe z s.alignStep := by
  unfold State.alignStep
  exact onTe_safe H (fun _ => rfl) (fun _ => rfl)

theorem enqueue_safe {f : OwnFrame} (H : Safe z s) : Safe z (s.enqueue f) := by
  unfold State.enqueue
  exact onNt_safe H (fun _ => rfl)

theorem deliver_safe {h : Hdr} {bs : List Byte} (H : Safe z s) : Safe z (s.deliver h bs) := by
  unfold State.deliver
  split
  · exact onLk_safe H (fun _ => by simp)
  · exact safe_ite H (enqueue_safe H)
  · exact safe_ite H (onHm_safe H)

theorem replyRaw_safe {h : Hdr} {opcode : Nat} {params : List Byte} {sec : Bool} (H : Safe z s) :
    Safe z (s.replyRaw h opcode params sec) := by
  unfold State.replyRaw
  split
  · exact deliver_safe (onKey_safe H)
  · exact deliver_safe H

theorem answer_safe {h : Hdr} {opcode : Nat} {st : Status} {bytes : List Byte} {sec : Bool} (H : Safe z s) :
    Safe z (s.answer h opcode st bytes sec) := by
  unfold State.answer
  extract_lets s1
  have h1 : Safe z s1 := safe_ite (onLk_safe H (fun _ => rfl)) (safe_ite (onLk_safe H (fun _ => rfl)) H)
  split
  · exact deliver_safe h1
  · exact replyRaw_safe h1

theorem takeStamp_safe {port id : Nat} (H : Safe z s) : Safe z (s.takeStamp port id).1 :=
  safe_pair (onTe_safe H (fun _ => rfl) (fun _ => rfl))

theorem sendFrame_safe {f : OwnFrame} (H : Safe z s) : Safe z (s.sendFrame f) :=
  safe_ite H (safe_ite (enqueue_safe H) (safe_ite H (onNt_safe H (fun _ => rfl))))

theorem sendPeer_safe {port : Nat} {bytes : List Byte} {id : Option Nat} {m : Option PtpMark} (H : Safe z s) :
    Safe z (s.sendPeer port bytes id m) :=
  sendFrame_safe H

theorem answerFollow_safe {port : Nat} {f : OwnFrame} (H : Safe z s) : Safe z (s.answerFollow port f) := by
  unfold State.answerFollow
  split
  · refine safe_ite H ?_
    split
    next _ _ _ heq1 =>
      exact sendPeer_safe (safe_fst heq1 (takeStamp_safe H))
    next _ _ heq1 =>
      exact safe_fst heq1 (takeStamp_safe H)
  · exact H

theorem answerPeer_safe {f : Heard} {m : List Byte} (H : Safe z s) : Safe z (s.answerPeer f m) :=
  safe_ite H (sendPeer_safe H)

theorem onInsts_safe {c : Nat} {f : Inst → Inst} (H : Safe z s) : Safe z (s.onInsts c f) := by
  unfold State.onInsts
  extract_lets s1
  have h1 : Safe z s1 := onInst_safe H
  exact safe_ite (onInst_safe h1) h1

theorem unsettleChan_safe {c : Nat} (H : Safe z s) : Safe z (s.unsettleChan c) := by
  unfold State.unsettleChan
  extract_lets s1
  have h1 : Safe z s1 := unsettle_safe H
  exact safe_ite (unsettle_safe h1) h1

theorem skipSlot_safe {k : Nat} (H : Safe z s) : Safe z (s.skipSlot k) := by
  unfold State.skipSlot
  extract_lets d n due s1
  have h1 : Safe z s1 := onStand_safe H
  exact safe_ite (log_safe h1) h1

theorem slotDisturb_safe {k : Nat} (H : Safe z s) : Safe z (s.slotDisturb k) := by
  unfold State.slotDisturb
  extract_lets d s1
  have h1 : Safe z s1 := onStand_safe H
  exact safe_ite (onStand_safe h1) (safe_ite (onStand_safe h1)
    (safe_ite h1 (safe_ite (skipSlot_safe (onStand_safe h1)) (safe_ite (safe_ite h1 (skipSlot_safe h1)) h1))))

theorem gainChange_safe {c old new : Nat} (H : Safe z s) : Safe z (s.gainChange c old new) := by
  unfold State.gainChange
  extract_lets k s1 s2
  have h1 : Safe z s1 := onFilt_safe (onInsts_safe H)
  have h2 : Safe z s2 := abortOn_safe (unsettleChan_safe h1)
  exact safe_ite (slotDisturb_safe h2) h2

theorem chanChange_safe {old : State} {c : Nat} (H : Safe z s) : Safe z (State.chanChange old s c) := by
  unfold State.chanChange
  extract_lets g0 g1 s1 s2
  have h1 : Safe z s1 := safe_ite H (gainChange_safe H)
  have h2 : Safe z s2 := safe_ite h1 (abortOn_safe (unsettleChan_safe h1))
  exact safe_ite h2 (onChan_safe h2)

theorem refChange_safe (H : Safe z s) : Safe z s.refChange := by
  unfold State.refChange
  extract_lets s1 s2
  have h1 : Safe z s1 := safe_foldl (fun _ _ h => unsettle_safe h) H
  have h2 : Safe z s2 := safe_foldl (fun _ _ h => slotDisturb_safe (abortCheck_safe h)) h1
  exact onRef_safe h2

theorem mapEntry_safe {c : Nat} {r : Regs} (H : Safe z s) : Safe z (s.mapEntry c r) :=
  log_safe H

theorem elemLog_safe {old : State} {e : Nat} (H : Safe z s) : Safe z (State.elemLog old s e) :=
  safe_ite H (mapEntry_safe H)

theorem mapLog_safe {old : State} {c : Nat} (H : Safe z s) : Safe z (State.mapLog old s c) :=
  safe_ite H (mapEntry_safe H)

theorem pioReload_safe {c : Nat} (H : Safe z s) : Safe z (s.pioReload c) := by
  unfold State.pioReload
  split
  · exact H
  · exact safe_ite (onFilt_safe H) H

theorem applyBlock_safe (H : Safe z s) : Safe z s.applyBlock := by
  unfold State.applyBlock
  extract_lets s1 s2 s3 s4 s5
  have h1 : Safe z s1 := takeScheduled_safe H
  have h2 : Safe z s2 := safe_foldl (fun _ _ h => chanChange_safe h) h1
  have h3 : Safe z s3 := safe_ite h2 (refChange_safe h2)
  have h4 : Safe z s4 := safe_foldl (fun _ _ h => elemLog_safe h) (safe_foldl (fun _ _ h => mapLog_safe h) h3)
  have h5 : Safe z s5 := onMe_safe h4
  exact safe_foldl (fun _ _ h => pioReload_safe h) h5

theorem resumeHistory_safe (H : Safe z s) : Safe z s.resumeHistory := by
  unfold State.resumeHistory
  extract_lets s1
  have h1 : Safe z s1 := onHw_safe H (fun _ => rfl)
  split
  · exact log_safe (onMe_safe (pqBegin_safe h1))
  · exact onMe_safe (pqBegin_safe h1)

theorem beginB1_safe (H : Safe z s) : Safe z s.beginB1 := by
  unfold State.beginB1
  extract_lets s1
  have h1 : Safe z s1 := onPw_safe (onMe_safe H) (fun _ => rfl)
  exact resumeHistory_safe (log_safe h1)

theorem handover_safe (H : Safe z s) : Safe z s.handover := by
  unfold State.handover
  extract_lets s1
  have h1 : Safe z s1 := onMe_safe H
  exact log_safe (onPw_safe h1 (fun _ => rfl))

theorem books_safe (H : Safe z s) : Safe z s.books := by
  unfold State.books
  refine safe_ite (beginB1_safe H) ?_
  extract_lets s1
  have h1 : Safe z s1 := safe_ite (onPw_safe H (fun _ => rfl)) H
  exact safe_ite (handover_safe h1) h1

theorem latchRaise_safe {r : Raise} (H : Safe z s) : Safe z (s.latchRaise r) :=
  onSlot_safe H

theorem bufferRaise_safe {slot : Nat} (H : Safe z s) : Safe z (s.bufferRaise slot) :=
  onTp_safe H (fun _ => by split <;> rfl) (fun _ => by split <;> rfl)

theorem leaveCfTest_safe {p : Cf → Bool} {stays : Bool} (H : Safe z s) : Safe z (s.leaveCfTest p stays) :=
  log_safe (onMe_safe H)

theorem endCfTest_safe (H : Safe z s) : Safe z s.endCfTest :=
  safe_ite (leaveCfTest_safe H) H

theorem lockActions_safe (H : Safe z s) : Safe z s.lockActions :=
  onHm_safe (endCfTest_safe (onSe_safe H (fun _ => rfl) (fun _ => rfl)))

theorem respond_safe {resp : Nat} (H : Safe z s) : Safe z (s.respond resp) := by
  unfold State.respond
  extract_lets s1
  have h1 : Safe z s1 := safe_ite (lockActions_safe H) H
  exact safe_ite (irq_safe h1) h1

theorem newChallenge_safe (H : Safe z s) : Safe z s.newChallenge :=
  drew_safe (onTp_safe H (fun _ => rfl) (fun _ => rfl))

theorem logRaise_safe {r : Raise} (H : Safe z s) : Safe z (s.logRaise r) := by
  unfold State.logRaise
  extract_lets d s1
  have h1 : Safe z s1 := logAt_safe H
  exact safe_ite h1 (logAt_safe h1)

theorem raiseAll_safe {l : List Raise} (H : Safe z s) : Safe z (s.raiseAll l) := by
  unfold State.raiseAll
  extract_lets s1 mask s2 s21
  have h1 : Safe z s1 := safe_foldl (fun _ _ h => latchRaise_safe h) H
  have h2 : Safe z s2 := safe_foldl (fun _ _ h => bufferRaise_safe h) h1
  have h21 : Safe z s21 := respond_safe (safe_foldl (fun _ _ h => newChallenge_safe h) h1)
  exact safe_ite (safe_ite h2 (onTp_safe h2 (fun _ => rfl) (fun _ => rfl)))
    (safe_ite (safe_foldl (fun _ _ h => logRaise_safe h) h21) (onTp_safe h21 (fun _ => rfl) (fun _ => rfl)))

theorem tamperRaise_safe {slot circuit : Nat} {holds : Bool} (H : Safe z s) : Safe z (s.tamperRaise slot circuit holds) :=
  raiseAll_safe H

theorem tamperPulse_safe {slot : Nat} (H : Safe z s) : Safe z (s.tamperPulse slot) :=
  safe_ite H (tamperRaise_safe H)

theorem bootAuth_safe {ok : Bool} (H : Safe z s) : Safe z (s.bootAuth ok) :=
  safe_ite H (tamperPulse_safe H)

theorem onRegion_safe {k b : Nat} {f : Region → Region} (H : Safe z s) : Safe z (s.onRegion k b f) :=
  onUp_safe H (fun _ => by simp) (fun _ => rfl)

theorem countTrial_safe {k b : Nat} (H : Safe z s) : Safe z (s.countTrial k b) :=
  safe_ite (onRegion_safe H) H

theorem resumeTrial_safe {k b : Nat} (H : Safe z s) : Safe z (s.resumeTrial k b) :=
  safe_ite (onUp_safe H (fun _ => rfl) (fun _ => rfl)) H

theorem runRegion_safe {k b : Nat} (H : Safe z s) : Safe z (s.runRegion k b) :=
  onUp_safe H (fun _ => rfl) (fun _ => by simp)

theorem bootChoice_safe {k : Nat} {firstOk otherOk powerUp : Bool} (H : Safe z s) :
    Safe z (s.bootChoice k firstOk otherOk powerUp).1 := by
  unfold State.bootChoice
  extract_lets b s1 s2 o
  have h1 : Safe z s1 := safe_ite (countTrial_safe H) H
  have h2 : Safe z s2 := safe_ite (bootAuth_safe h1) h1
  exact safe_ite_fst (safe_pair (resumeTrial_safe (runRegion_safe h1)))
    (safe_ite_fst (safe_pair (resumeTrial_safe (runRegion_safe h2))) (safe_pair (safe_ite (bootAuth_safe h2) h2)))

theorem bootFaultTo_safe {n : Nat} (H : Safe z s) : Safe z (s.bootFaultTo n) :=
  onPw_safe H (fun _ => rfl)

theorem bootKind_safe {k : Nat} {firstOk otherOk powerUp : Bool} (H : Safe z s) :
    Safe z (s.bootKind k firstOk otherOk powerUp).1 := by
  unfold State.bootKind
  extract_lets r
  have hr : Safe z r.1 := bootChoice_safe H
  exact safe_pair (onUp_safe hr (fun _ => rfl) (fun _ => rfl))

theorem learnAddress_safe {e : Eth} (H : Safe z s) : Safe z (s.learnAddress e) := by
  unfold State.learnAddress
  split
  · exact onNt_safe H (fun _ => rfl)
  · exact H

theorem hostHold_safe {f : Heard} (H : Safe z s) : Safe z (s.hostHold f) :=
  safe_ite H (onNt_safe H (fun _ => by split <;> rfl))

theorem hushNet_safe (H : Safe z s) : Safe z s.hushNet := by
  unfold State.hushNet
  exact onPm_safe (onQu_safe (onNt_safe H (fun _ => rfl)))

theorem hush_safe {src : Nat} (H : Safe z s) : Safe z (s.hush src) := by
  unfold State.hush
  extract_lets s1
  have h1 : Safe z s1 := hushNet_safe (onLk_safe H (fun _ => by simp))
  exact safe_ite h1 (irq_safe h1)

theorem macCommand_safe {u : Udp} {pkt : List Byte} (H : Safe z s) : Safe z (s.macCommand u pkt) := by
  unfold State.macCommand
  extract_lets node s1
  have h1 : Safe z s1 := hush_safe H
  exact safe_ite (onNt_safe H (fun _ => rfl)) (safe_ite (safe_ite h1 (enqueue_safe h1)) H)

theorem toMac_safe {f : Heard} (H : Safe z s) : Safe z (s.toMac f) := by
  unfold State.toMac
  extract_lets s1
  have h1 : Safe z s1 := learnAddress_safe (hostHold_safe H)
  split
  · split
    · exact safe_ite (macCommand_safe h1) h1
    · exact h1
  · exact h1

theorem forward_safe {f : Heard} (H : Safe z s) : Safe z (s.forward f) :=
  onNt_safe H (fun _ => rfl)

theorem bridge_safe {f : Heard} (H : Safe z s) : Safe z (s.bridge f) := by
  unfold State.bridge
  extract_lets s1 s2
  have h1 : Safe z s1 := onNt_safe H (fun _ => rfl)
  have h2 : Safe z s2 := safe_ite (toMac_safe h1) h1
  exact safe_ite h2 (forward_safe h2)

theorem brownOut_safe (H : Safe z s) : Safe z s.brownOut :=
  H.of rfl rfl fun hi => inv_of hi rfl rfl rfl rfl fun hs => by
    have ha : s.brownOut.rtc.alarms.length = 4 := rfl
    have ht : s.brownOut.tp.slots.length = 32 := rfl
    obtain ⟨h1, h2, h3, h4, h5, h6, h7, h8, h9, h10, _, h12, h13, _, h15⟩ := hs
    exact ⟨h1, h2, h3, h4, h5, h6, h7, h8, h9, h10, ha, h12, h13, ht, h15⟩

theorem under_safe {p : Option (List (Nat × Nat))} {f : State → State} (H : Safe z s) (hf : ∀ x, Safe z x → Safe z (f x)) :
    Safe z (s.under p f) := by
  unfold State.under
  split
  · exact hf _ H
  · exact onPr_safe (hf _ (onPr_safe H))

theorem eventToUnits_safe {cls b id t : Nat} (H : Safe z s) : Safe z (s.eventToUnits cls b id t) :=
  units_safe H (by simp)

theorem qGroup_safe {isX : Bool} {counted a b : Nat} {build : Option Nat → Option Nat → List (List Nat)}
    {upd : Queue → Queue} (H : Safe z s) :
    Safe z (s.qGroup isX counted a b build upd) :=
  safe_ite (onQu_safe H) (irq_safe (onQu_safe H))

theorem qX_safe {code flags value t : Nat} (H : Safe z s) : Safe z (s.qX code flags value t) :=
  qGroup_safe H

theorem eventMark_safe {code t : Nat} {e : PqEvent} (H : Safe z s) : Safe z (s.eventMark code t e) :=
  irq_safe (safe_ite (qX_safe H) H)

theorem eventOpen_safe {b t cls phases : Nat} {extreme second : Rat} {means : List Rat} (H : Safe z s) :
    Safe z (s.eventOpen b t cls phases extreme second means) := by
  unfold State.eventOpen
  extract_lets u e s1
  have h1 : Safe z s1 := eventToUnits_safe (onPq_safe H (fun _ => rfl))
  exact eventMark_safe (onBus_safe h1)

theorem eventEnd_safe {b t : Nat} {e : PqEvent} {flags : Nat} (H : Safe z s) : Safe z (s.eventEnd b t e flags) := by
  unfold State.eventEnd
  extract_lets done s1
  have h1 : Safe z s1 := onBus_safe (onPq_safe H (fun _ => rfl))
  exact drew_safe (eventMark_safe h1)

theorem judgeMsv_safe {b t x : Nat} {sq : List Rat} (H : Safe z s) : Safe z (s.judgeMsv b t x sq) := by
  unfold State.judgeMsv
  split
  · exact safe_ite (eventOpen_safe H) H
  · extract_lets e2
    exact safe_ite (onBus_safe H) (eventEnd_safe H)

theorem formCycles_safe {b endT st : Nat} (H : Safe z s) : Safe z (s.formCycles b endT st) := by
  unfold State.formCycles
  extract_lets m s1
  have h1 : Safe z s1 := closeAccs_safe (onBus_safe H)
  exact safe_ite h1 (safe_foldl (fun _ _ h => judgeMsv_safe h) h1)

theorem closeCycles_safe {b : Nat} (H : Safe z s) : Safe z (s.closeCycles b) := by
  unfold State.closeCycles
  split
  · exact H
  · exact under_safe H (fun _ h => formCycles_safe h)

theorem winState_safe {w : PqWin} (H : Safe z s) : Safe z (winState s w) := by
  unfold winState
  split
  · exact H
  · exact onPr_safe H

theorem onEvent_safe {b cls : Nat} {f : PqEvent → PqEvent} (H : Safe z s) : Safe z (s.onEvent b cls f) :=
  onBus_safe H

theorem judge_safe {b t cls phases : Nat} {start stop : Bool} {x : Rat} {worse : Rat → Rat → Bool} (H : Safe z s) :
    Safe z (s.judge b t cls phases start stop x worse) := by
  unfold State.judge
  split
  · exact safe_ite (eventOpen_safe H) H
  · extract_lets e2
    exact safe_ite (eventEnd_safe H) (onEvent_safe H)

theorem judgeMain_safe {b t : Nat} {u : List Rat} (H : Safe z s) : Safe z (s.judgeMain b t u) := by
  unfold State.judgeMain
  extract_lets n hy dips dipEnd swells swellEnd intr intrEnd s1 s2
  have h1 : Safe z s1 := judge_safe H
  have h2 : Safe z s2 := judge_safe h1
  exact judge_safe h2

theorem judgeDev_safe {b t : Nat} {u : List Rat} {began : Bool} (H : Safe z s) : Safe z (s.judgeDev b t u began) := by
  unfold State.judgeDev
  split
  · exact safe_ite (eventOpen_safe H) H
  · extract_lets e2
    exact safe_ite (eventEnd_safe H) (safe_ite (onEvent_safe H) (eventEnd_safe H))

theorem judgeRvc_safe {b t : Nat} {u : List Rat} {began : Bool} (H : Safe z s) : Safe z (s.judgeRvc b t u began) := by
  unfold State.judgeRvc
  extract_lets n s1 m d hit push s11 s2
  have h1 : Safe z s1 := by
    unfold s1
    split
    · exact eventEnd_safe H
    · exact H
  have h11 : Safe z s11 := by
    unfold s11
    split
    · extract_lets dm e2 p
      have hp : Safe z p := onBus_safe (onEvent_safe H)
      exact safe_ite (eventEnd_safe hp) hp
    · exact safe_ite (onBus_safe (eventOpen_safe H)) (onBus_safe H)
  have h2 : Safe z s2 := h11
  exact safe_ite (onBus_safe h1) (onBus_safe h2)

theorem flagSupra_safe {b : Nat} {start : Rat} (H : Safe z s) : Safe z (s.flagSupra b start) := by
  unfold State.flagSupra
  refine safe_ite H ?_
  exact onPq_safe H (fun _ => rfl)

theorem flagLate_safe {b : Nat} {start : Rat} (H : Safe z s) : Safe z (s.flagLate b start) :=
  safe_ite H (onBus_safe (onPq_safe H (fun _ => rfl)))

theorem judgeHalf_safe {b : Nat} {e : Rat} {u : List Rat} (H : Safe z s) : Safe z (s.judgeHalf b e u) := by
  unfold State.judgeHalf
  extract_lets t start was s1 began s2 touched s3
  have h1 : Safe z s1 := judgeMain_safe H
  have h2 : Safe z s2 := judgeDev_safe (judgeRvc_safe h1)
  have h3 : Safe z s3 := safe_ite (onBus_safe (flagSupra_safe (flagLate_safe h2))) h2
  exact drew_safe (onBus_safe h3)

theorem halfStep_safe {b : Nat} (H : Safe z s) : Safe z (s.halfStep b) := by
  unfold State.halfStep
  split
  · exact H
  · exact safe_ite (under_safe H (fun _ h => judgeHalf_safe h)) H

theorem takeWin_safe {base endT : Nat} {f1 : Rat} {w : WinIn} (H : Safe z s) : Safe z (s.takeWin base endT f1 w) := by
  unfold State.takeWin
  refine safe_ite H ?_
  exact onPq_safe H (fun _ => rfl)

theorem takeBusWin_safe {b base endT : Nat} {f1 third : Rat} {wins : List WinIn} (H : Safe z s) :
    Safe z (s.takeBusWin b base endT f1 third wins) := by
  unfold State.takeBusWin
  exact onPq_safe H (fun _ => rfl)

theorem takeCircPq_safe {b base : Nat} {f1 : Rat} {wins : List WinIn} {c : Nat} (H : Safe z s) :
    Safe z (s.takeCircPq b base f1 wins c) :=
  safe_ite H (onPq_safe H (fun _ => rfl))

theorem takeWindow_safe {b endT : Nat} {w : PqWin} (H : Safe z s) : Safe z (s.takeWindow b endT w) := by
  unfold State.takeWindow
  extract_lets v base wins third v1 v2 v3
  have hv : Safe z v := winState_safe H
  have hv1 : Safe z v1 := safe_foldl (fun _ _ h => takeWin_safe h) hv
  have hv2 : Safe z v2 := takeBusWin_safe hv1
  have hv3 : Safe z v3 := safe_foldl (fun _ _ h => takeCircPq_safe h) hv2
  exact onBus_safe (H.withPq hv3)

theorem formEdge_safe {b : Nat} {e : PqEdge} (H : Safe z s) : Safe z (s.formEdge b e) := by
  unfold State.formEdge
  extract_lets s0 s1 s2 s3
  have h0 : Safe z s0 := onBus_safe H
  have h1 : Safe z s1 := closeAccs_safe h0
  have h2 : Safe z s2 := by
    unfold s2
    split
    · exact closeAccs_safe h1
    · exact h1
  have h3 : Safe z s3 := safe_ite (onPq_safe h2 (fun _ => rfl)) h2
  exact safe_ite h0 (drew_safe (onPq_safe h3 (fun _ => rfl)))

theorem closeEdge_safe {b : Nat} (H : Safe z s) : Safe z (s.closeEdge b) := by
  unfold State.closeEdge
  split
  · exact H
  · exact under_safe H (fun _ h => formEdge_safe h)

theorem tenAt_safe {b endT : Nat} (H : Safe z s) : Safe z (s.tenAt b endT) :=
  safe_ite (onBus_safe (closeTen_safe H)) H

theorem edgeReady_safe {b : Nat} (H : Safe z s) : Safe z (s.edgeReady b) :=
  safe_ite (closeEdge_safe (safe_elim H (fun _ => tenAt_safe H))) H

theorem closeWindow_safe {b : Nat} {w : PqWin} {straddles : Bool} (H : Safe z s) : Safe z (s.closeWindow b w straddles) := by
  unfold State.closeWindow
  extract_lets e endT s1 noRef s2
  have h1 : Safe z s1 := takeWindow_safe (safe_ite H (closeEdge_safe H))
  have h2 : Safe z s2 := onBus_safe h1
  exact edgeReady_safe (drew_safe h2)

theorem busAUpTo_safe {n : Nat} {x : Rat} (H : Safe z s) : Safe z (State.busAUpTo n x s) := by
  induction n generalizing s with
  | zero => exact H
  | succ n ih =>
    unfold State.busAUpTo
    extract_lets half win
    clear_value half win
    split
    · exact safe_ite (closeCycles_safe H) H
    · exact ih (halfStep_safe H)
    · exact ih (closeWindow_safe (closeCycles_safe H))
    · exact safe_ite (ih (halfStep_safe H)) (ih (closeWindow_safe (closeCycles_safe H)))

theorem busAFirst_safe {b : Nat} {x : Rat} (H : Safe z s) : Safe z (s.busAFirst b x) :=
  safe_ite (busAUpTo_safe H) H

theorem busSample_safe {x : Wave} {b : Nat} (H : Safe z s) : Safe z (s.busSample x b) := by
  unfold State.busSample
  extract_lets idx endT s1 c
  have h1 : Safe z s1 := safe_ite (onBus_safe (closePst_safe H)) H
  exact onBus_safe h1

theorem cancelLoad_safe {c : Nat} (H : Safe z s) : Safe z (s.cancelLoad c) := by
  unfold State.cancelLoad
  split
  · exact H
  · exact log_safe (onFilt_safe H)

theorem cancelLoading_safe {c : Nat} (H : Safe z s) : Safe z (s.cancelLoading c) := by
  unfold State.cancelLoading
  split
  · exact H
  · exact log_safe (onFilt_safe H)

theorem rebuildRecord_safe (H : Safe z s) : Safe z s.rebuildRecord := by
  unfold State.rebuildRecord
  extract_lets s1 body
  have h1 : Safe z s1 := onHw_safe (pioWrite_safe H) (fun _ => rfl)
  refine safe_foldl (fun s2 a h => ?_) h1
  exact onFilt_safe h

theorem cutCheckpoint_safe (H : Safe z s) : Safe z s.cutCheckpoint := by
  unfold State.cutCheckpoint
  split
  · exact H
  · extract_lets n k w page parts
    exact drew_safe (onHw_safe_of_memWf H fun hm => markTorn_wf _ _ (foldl_wrBytes_wf (wrBytes_wf _ _ hm)))

theorem checkpoint_safe {src : State} {kind : Nat} (H : Safe z s) : Safe z (s.checkpoint src kind) := by
  unfold State.checkpoint
  refine safe_ite H ?_
  extract_lets s1 old marks rest s11
  have h1 : Safe z s1 := safe_ite (cutCheckpoint_safe H) H
  have h11 : Safe z s11 := safe_ite h1 (safe_elim h1 (fun _ => sense_safe h1))
  split
  · extract_lets img
    exact drew_safe (onPq_safe (onHw_safe h11 (fun _ => rfl)) (fun _ => rfl))

theorem trialFail_safe {kind : Nat} (H : Safe z s) : Safe z (s.trialFail kind) := by
  unfold State.trialFail
  refine safe_ite ?_ H
  extract_lets s1
  have h1 : Safe z s1 := drew_safe (onUp_safe (onRegion_safe H) (fun _ => rfl) (fun _ => rfl))
  exact safe_ite (checkpoint_safe h1) h1

theorem readyLate_safe (H : Safe z s) : Safe z s.readyLate :=
  safe_ite (trialFail_safe H) H

theorem closeOwed_safe (H : Safe z s) : Safe z s.closeOwed :=
  onMe_safe H

theorem canopyEntry_safe (H : Safe z s) : Safe z s.canopyEntry := by
  unfold State.canopyEntry
  extract_lets s1 s2 s3 s4
  have h1 : Safe z s1 := H.of rfl rfl fun hi => ⟨hi.memWf, hi.buffer_le, hi.stage_le, nofun, hi.shape⟩
  have h2 : Safe z s2 := safe_ite h1 (log_safe h1)
  have hr : s2.wd.canopyRunning = true := by
    unfold s2
    split
    · rfl
    · exact log_wd_canopyRunning ..
  have h3 : Safe z s3 := onPw_safe (enterStage_safe_of_runs h2 (by decide) fun _ hf => by simp [hr] at hf) (fun _ => rfl)
  have h4 : Safe z s4 := safe_ite (rebuildRecord_safe h3) h3
  exact readyLate_safe (restage_safe (closeOwed_safe (onPq_safe h4 (fun _ => rfl))))

theorem dropPending_safe {o : Owner} (H : Safe z s) : Safe z (s.dropPending o) :=
  onPr_safe H

/-- Stage 2 is allowed whether Canopy runs or not. -/
theorem enterStage_two_inv (hm : memWf s.hw.mem = true) (hb : s.wd.buffer.length ≤ 256) (hs : s.Shape) :
  (s.enterStage 2).Inv := by
  have hw : (s.onPw fun p => p.staged 2 s.clk).Inv := ⟨hm, hb, by simp, fun _ => by simp, hs⟩
  unfold State.enterStage
  split
  case isTrue h2 =>
    have h2 : s.pw.stage = 2 := by simpa using h2
    exact ⟨hm, hb, by omega, fun _ => by omega, hs⟩
  case isFalse => exact (log_safe (irq_safe (Safe.refl _))).inv hw

theorem canopyStop_safe {cause reason : Nat} (H : Safe z s) : Safe z (s.canopyStop cause reason) := by
  unfold State.canopyStop
  refine safe_ite (onWd_safe H (fun _ => rfl) (fun _ => rfl)) ?_
  extract_lets s1 s2 s3 s4 s5
  have h1 : Safe z s1 := safe_ite (log_safe (onPw_safe H (fun _ => rfl))) H
  have h3 : Safe z s3 := by
    have he : Changes [.pw, .lk, .wd] (s2.onPw fun p => { p with handoverPending := false }) s3 := enterStage_ch (.refl _ _)
      rfl
    exact h1.of (he.pending rfl) (he.clk rfl) fun ⟨hm, hb, _, _, hs⟩ => enterStage_two_inv hm hb hs
  have h4 : Safe z s4 := safe_ite (servoTo_safe h3) h3
  have h5 : Safe z s5 := onNt_safe (onPr_safe h4) fun _ => by simp
  exact dropPending_safe (onLk_safe (onPq_safe h5 (fun _ => rfl)) (fun _ => rfl))

theorem capture_safe {u t source eventId : Nat} (H : Safe z s) : Safe z (s.capture u t source eventId) :=
  onUnit_safe H

theorem cfFrame_safe {fv pv : List Val} (H : Safe z s) : Safe z (s.cfFrame fv pv) :=
  safe_ite (onMe_safe H) H

theorem chainStep_safe {outs : List ChanOut} (H : Safe z s) (ho : outs.length = 36) : Safe z (s.chainStep outs) :=
  H.of rfl rfl fun hi => inv_of hi rfl rfl rfl rfl fun hs => by
    obtain ⟨hc, hv, hf, hr⟩ := hs
    exact ⟨by simp [State.chainStep, hc, ho], by simp [State.chainStep, hv], by simp [State.chainStep, hf, ho], hr⟩

theorem charge_safe {f : OwnFrame} (H : Safe z s) : Safe z (s.charge f) :=
  onNt_safe H (fun _ => rfl)

theorem chooseMaster_safe {f : Heard} {m : List Byte} (H : Safe z s) : Safe z (s.chooseMaster f m) := by
  unfold State.chooseMaster
  extract_lets here x l best s1
  have h1 : Safe z s1 := onNt_safe H (fun _ => rfl)
  clear_value best
  split
  · exact safe_ite (onTe_safe h1 (fun _ => rfl) (fun _ => rfl)) h1
  · exact h1

theorem circBit_safe {c bit : Nat} (H : Safe z s) : Safe z (s.circBit c bit) :=
  onMe_safe H

theorem ckptWritten_safe {c : Ckpt} (H : Safe z s) : Safe z (s.ckptWritten c) :=
  onHw_safe_of_memWf H fun hm => wrBytes_wf _ _ (wrBytes_wf _ _ hm)

theorem pathLog_safe {c verdict result ohm deg : Nat} (H : Safe z s) : Safe z (s.pathLog c verdict result ohm deg) :=
  safe_ite (log_safe (onChan_safe H)) (safe_ite (log_safe (onChan_safe H)) H)

theorem putChanged_safe {part : Nat} {e : Nat × Nat} {none0 bs : List Byte} (H : Safe z s) :
    Safe z (s.putChanged part e none0 bs).1 :=
  safe_ite_fst H (itemPut_safe H)

theorem storeP2_safe (H : Safe z s) : Safe z s.storeP2.1 :=
  safe_foldl_fst (fun _ _ h => andThen_safe h (fun _ h1 => putChanged_safe h1)) H

theorem storePar_safe {id v : Nat} (H : Safe z s) : Safe z (s.storePar id v) :=
  onPr_safe H

theorem storeBaseline_safe {c ohm deg : Nat} (H : Safe z s) : Safe z (s.storeBaseline c ohm deg) :=
  storeP2_safe (storePar_safe (storePar_safe H))

theorem cleanCheck_safe {c : Check} {p : Rat × Rat} (H : Safe z s) : Safe z (s.cleanCheck c p) := by
  unfold State.cleanCheck
  extract_lets z1 v result
  split
  · extract_lets s1 s2
    have h1 : Safe z s1 := drew_safe (onChan_safe (setCheckResult_safe H))
    have h2 : Safe z s2 := pathLog_safe h1
    exact safe_ite (safe_ite (safe_ite (baseFailLog_safe h2) h2) (storeBaseline_safe h2)) h2

theorem onRun_safe {c : Nat} {f : CircRun → CircRun} (H : Safe z s) : Safe z (s.onRun c f) :=
  onMe_safe H

theorem clearMax_safe {c : Nat} (H : Safe z s) : Safe z (s.clearMax c) :=
  safe_ite (log_safe (onRun_safe H)) H

theorem eraseWrapped_safe (H : Safe z s) : Safe z s.eraseWrapped := by
  unfold State.eraseWrapped
  exact safe_ite H (wrPage_safe (wrPage_safe H))

theorem dropSessions_safe {p : Session → Bool} (H : Safe z s) : Safe z (s.dropSessions p) := by
  unfold State.dropSessions
  extract_lets s1
  have h1 : Safe z s1 := onSe_safe H (fun _ => rfl) (fun _ => rfl)
  exact onHm_safe h1

theorem storePw_safe (H : Safe z s) : Safe z s.storePw.1 :=
  itemPut_safe H

theorem clearPasswords_safe (H : Safe z s) : Safe z s.clearPasswords := by
  unfold State.clearPasswords
  extract_lets s1 s2
  have h1 : Safe z s1 := onSe_safe H (hn := fun _ => by simp) (fun _ => rfl)
  have h2 : Safe z s2 := storePw_safe h1
  clear_value s1 s2
  refine safe_ite h1 ?_
  split
  · exact pageWrite_safe h2
  · exact h2

theorem clearOnce_safe {job : ClearJob} (H : Safe z s) : Safe z (s.clearOnce job) := by
  unfold State.clearOnce
  extract_lets s1 s2
  have h1 : Safe z s1 := eraseWrapped_safe (onTp_safe H (fun _ => rfl) (fun _ => rfl))
  have h2 : Safe z s2 := log_safe (dropSessions_safe (clearPasswords_safe h1))
  exact safe_foldl (fun _ _ h => logRaise_safe h) h2

theorem clearOsf_safe (H : Safe z s) : Safe z s.clearOsf :=
  tamperClear_safe (onRtc_safe H (fun _ => rfl))

theorem clearTorn_safe (H : Safe z s) : Safe z s.clearTorn :=
  onHw_safe_of_memWf H fun hm => List.foldlRecOn (motive := fun m => memWf m = true) _ _ hm
    fun _ h _ _ => markTorn_wf _ _ h

theorem closeEngines_safe {b : Closed} (H : Safe z s) : Safe z (s.closeEngines b) := by
  unfold State.closeEngines
  exact onMe_safe H

theorem cmdCount_safe (H : Safe z s) : Safe z s.cmdCount :=
  onPm_safe H

theorem cmdIgnore_safe (H : Safe z s) : Safe z s.cmdIgnore :=
  onPm_safe H

theorem commitAlarm_safe {ids : List Nat} {k : Nat} (H : Safe z s) : Safe z (s.commitAlarm ids k) :=
  safe_ite (onAlarm_safe H) H

theorem storeBoot_safe (H : Safe z s) : Safe z s.storeBoot.1 :=
  putChanged_safe H

theorem storeP0_safe (H : Safe z s) : Safe z s.storeP0.1 := by
  unfold State.storeP0
  extract_lets l r
  have hr : Safe z r.1 := safe_foldl_fst (fun _ _ h => andThen_safe h (fun _ h1 => putChanged_safe h1)) H
  exact andThen_safe (andThen_safe hr (fun _ h => storeBoot_safe h)) (fun _ h => safe_ite_fst h (itemPut_safe h))

theorem storeSet_safe (H : Safe z s) : Safe z s.storeSet.1 :=
  andThen_safe (storeP2_safe H) (fun _ h => storeP0_safe h)

theorem setPar_safe {id v : Nat} (H : Safe z s) : Safe z (s.setPar id v) :=
  onPr_safe H

theorem commitMember_safe {id v : Nat} (H : Safe z s) : Safe z (s.commitMember id v) :=
  safe_ite (onPr_safe (setPar_safe H)) (safe_ite (onPr_safe H) (onPr_safe H))

theorem logParam_safe {old : State} {e : Nat × Nat} (H : Safe z s) : Safe z (s.logParam old e) := by
  unfold State.logParam
  split
  · exact H
  · extract_lets w
    exact log_safe H

theorem commitResponse_safe {e : Nat × Nat} (H : Safe z s) : Safe z (s.commitResponse e) :=
  safe_ite (onSlot_safe H) H

theorem commitFollow_safe (H : Safe z s) : Safe z s.commitFollow :=
  safe_ite (stopFollowing_safe H) H

theorem commitSource_safe {old : Nat} (H : Safe z s) : Safe z (s.commitSource old) := by
  unfold State.commitSource
  extract_lets n s1
  have h1 : Safe z s1 := onTe_safe H (fun _ => rfl) (fun _ => rfl)
  exact safe_ite H (safe_ite (servoTo_safe h1) h1)

theorem setLeap_safe {v : Nat} (H : Safe z s) : Safe z (s.setLeap v) :=
  onRtc_safe (storeP0_safe (storePar_safe H)) (fun _ => rfl)

theorem onPort_safe {k : Nat} {f : Port → Port} (H : Safe z s) : Safe z (s.onPort k f) :=
  onNt_safe H (fun _ => by simp)

theorem portDown_safe {k : Nat} (H : Safe z s) : Safe z (s.portDown k) := by
  unfold State.portDown
  extract_lets s1
  have h1 : Safe z s1 := log_safe (irq_safe (onPort_safe H))
  exact safe_ite (dropSessions_safe h1) h1

theorem commitPhy_safe {k : Nat} (H : Safe z s) : Safe z (s.commitPhy k) :=
  safe_ite (portDown_safe H) H

theorem commitPmu_safe {p : List (Nat × Nat)} (H : Safe z s) : Safe z (s.commitPmu p) :=
  safe_ite H (onPm_safe H)

theorem commitEffects_safe {old : State} {p : List (Nat × Nat)} (H : Safe z s) : Safe z (s.commitEffects old p) := by
  unfold State.commitEffects
  extract_lets ids s1 s2 s3 s4 s5 s51 s6
  have h1 : Safe z s1 := safe_foldl (fun _ _ h => commitAlarm_safe h) H
  have h2 : Safe z s2 := safe_foldl (fun _ _ h => commitResponse_safe h) h1
  have h3 : Safe z s3 := safe_ite (lockActions_safe h2) h2
  have h4 : Safe z s4 := commitFollow_safe (commitSource_safe h3)
  have h5 : Safe z s5 := by
    unfold s5
    split
    · exact setLeap_safe h4
    · exact h4
  have h51 : Safe z s51 := safe_foldl (fun _ _ h => safe_ite (commitPhy_safe h) h) h5
  have h6 : Safe z s6 := commitPmu_safe h51
  exact safe_ite (onPw_safe h6 (fun _ => rfl)) h6

theorem commitAll_safe (H : Safe z s) : Safe z s.commitAll.1 := by
  unfold State.commitAll
  extract_lets p s1
  have h1 : Safe z s1 := onPr_safe (onNt_safe H (fun _ => rfl))
  split
  next _ _ _ heq =>
    refine safe_ite_fst (safe_pair (onPr_safe (safe_fst heq (storeSet_safe h1)))) ?_
    extract_lets s3 s4 s5 s6
    have h3 : Safe z s3 := safe_foldl (fun _ _ h => commitMember_safe h) (safe_fst heq (storeSet_safe h1))
    have h4 : Safe z s4 := safe_ite h3 (pioUpdate_safe h3)
    have h5 : Safe z s5 := log_safe h4
    have h6 : Safe z s6 := safe_foldl (fun _ _ h => logParam_safe h) h5
    exact safe_pair (commitEffects_safe h6)

theorem commitMembers_safe {l : List (Nat × Nat)} (H : Safe z s) : Safe z (s.commitMembers l).1 := by
  unfold State.commitMembers
  extract_lets r
  have hr : Safe z r.1 := commitAll_safe (onPr_safe H)
  exact safe_pair (onPr_safe hr)

theorem loseChan_safe {c : Nat} (H : Safe z s) : Safe z (s.loseChan c) :=
  safe_ite H (log_safe (onChan_safe H))

theorem condemn_safe {v cause : Nat} (H : Safe z s) : Safe z (s.condemn v cause) := by
  unfold State.condemn
  extract_lets k d chan first s1 s2 s3 held s0 s4 s5
  have h1 : Safe z s1 := log_safe (storeDevice_safe (onStand_safe H))
  have h2 : Safe z s2 := abortCheck_safe h1
  have h3 : Safe z s3 := safe_ite (safe_foldl (fun _ _ h => cancelLoad_safe h) h2) h2
  have h0 : Safe z s0 := safe_ite (loseChan_safe h3) (recallHome_safe h3)
  have h4 : Safe z s4 := safe_ite (safe_ite (loseChan_safe h3) (takeover_safe h3)) (onStand_safe h0)
  have h5 : Safe z s5 := safe_ite (safe_foldl (fun _ _ h => cancelLoading_safe h) h4) h4
  exact safe_ite H (onStand_safe h5)

theorem consoleClaim_safe (H : Safe z s) : Safe z s.consoleClaim :=
  safe_ite H (safe_ite (onHm_safe H) (safe_ite (onHm_safe H) H))

theorem countEstimated_safe {b : Closed} (H : Safe z s) : Safe z (s.countEstimated b) := by
  unfold State.countEstimated
  exact onMe_safe H

theorem countFrame_safe (H : Safe z s) : Safe z s.countFrame := by
  unfold State.countFrame
  extract_lets s1
  have h1 : Safe z s1 := safe_ite (onPw_safe H (fun _ => rfl)) H
  exact safe_ite (onHw_safe h1 (fun _ => rfl)) h1

theorem cutFlight_safe (H : Safe z s) : Safe z s.cutFlight :=
  safe_ite H (drew_safe (onHw_safe_of_memWf H fun hm => foldl_wrBytes_wf hm))

theorem finishCommit_safe {h : Hdr} (H : Safe z s) : Safe z (s.finishCommit h) := by
  unfold State.finishCommit
  extract_lets s1
  have h1 : Safe z s1 := onPr_safe H
  split
  · exact answer_safe h1
  · split
    next _ _ heq1 =>
      exact answer_safe (safe_fst heq1 (commitAll_safe h1))
    next _ _ heq1 =>
      exact answer_safe (safe_fst heq1 (commitAll_safe h1))

theorem cutWrites_safe (H : Safe z s) : Safe z s.cutWrites := by
  unfold State.cutWrites
  extract_lets s1
  have h1 : Safe z s1 := by
    unfold s1
    split
    · extract_lets x
      exact drew_safe (H.withHw (cutFlight_safe (finishCommit_safe H)))
    · exact cutFlight_safe H
  exact cutCheckpoint_safe h1

theorem cyclesEnd_safe {b : Nat} (H : Safe z s) : Safe z (s.cyclesEnd b) := by
  unfold State.cyclesEnd
  split
  · exact H
  · exact closeCycles_safe (busAFirst_safe H)

theorem directError_safe (H : Safe z s) : Safe z s.directError :=
  onLk_safe H (fun _ => rfl)

theorem directLog_safe {addr : Nat} {d : Direct} (H : Safe z s) : Safe z (s.directLog addr d) := by
  unfold State.directLog
  extract_lets s1
  have h1 : Safe z s1 := onLk_safe H (fun _ => rfl)
  exact safe_ite (irq_safe h1) h1

theorem secWrite_safe {value : Nat} (H : Safe z s) : Safe z (s.secWrite value) := by
  unfold State.secWrite
  refine safe_ite (directLog_safe H) (safe_ite (directLog_safe H) ?_)
  exact safe_ite (directLog_safe (adjustCal_safe H)) (directLog_safe (onRtc_safe H (fun _ => rfl)))

theorem stageWrite_safe {field value : Nat} (H : Safe z s) : Safe z (s.stageWrite field value) :=
  safe_ite (directLog_safe H) (safe_ite (directLog_safe (onRtc_safe H (fun _ => by simp))) (directLog_safe H))

theorem resume_safe {src : Nat} (H : Safe z s) : Safe z (s.resume src) := by
  unfold State.resume
  extract_lets s1
  have h1 : Safe z s1 := onLk_safe H (fun _ => rfl)
  exact safe_ite (irq_safe h1) h1

theorem directWord_safe {a v : Nat} (H : Safe z s) : Safe z (s.directWord a v) :=
  safe_ite (secWrite_safe H) (safe_ite (stageWrite_safe H)
    (safe_ite (directLog_safe (onLk_safe H (fun _ => rfl))) (safe_ite (directLog_safe (onLk_safe H (fun _ => rfl)))
    (safe_ite (directLog_safe (onLk_safe H (fun _ => rfl))) (safe_ite (directLog_safe (hush_safe H))
    (safe_ite (directLog_safe (resume_safe H)) (safe_ite (directLog_safe (onLk_safe H (fun _ => by simp)))
    (directLog_safe H))))))))

theorem drives_safe {bs : List Byte} (H : Safe z s) : Safe z (s.drives bs) :=
  onLk_safe H (fun _ => rfl)

theorem filterReload_safe {c : Nat} (H : Safe z s) : Safe z (s.filterReload c) := by
  unfold State.filterReload
  extract_lets s1 s2 q
  have h1 : Safe z s1 := safe_ite (onFilt_safe H) (cancelLoading_safe (cancelLoad_safe H))
  have h2 : Safe z s2 := by
    unfold s2
    split
    · exact h1
    · exact log_safe h1
  exact onInsts_safe (onFilt_safe h2)

theorem standAbort_safe {k : Nat} (H : Safe z s) : Safe z (s.standAbort k) := by
  unfold State.standAbort
  extract_lets s1 s3
  have h1 : Safe z s1 := abortCheck_safe H
  have h3 : Safe z s3 := recallHome_safe (abortSpareRest_safe h1)
  split
  · exact unsettle_safe h3
  · exact h3

theorem factoryTrims_safe (H : Safe z s) : Safe z s.factoryTrims :=
  convs_safe H (by simp)

theorem standJoin_safe {k : Nat} (H : Safe z s) : Safe z (s.standJoin k) := by
  unfold State.standJoin
  extract_lets d s1 s2 bad c
  have h1 : Safe z s1 := onStand_safe H
  have h2 : Safe z s2 := onStand_safe h1
  exact safe_ite (shadowFor_safe (onStand_safe h1))
    (safe_ite (safe_foldl (fun _ _ h => loseChan_safe h) (onStand_safe h2))
    (safe_foldl (fun _ _ h => loseChan_safe h) (safe_ite (onStand_safe h2) (takeover_safe h2))))

theorem standStart_safe {k : Nat} (H : Safe z s) : Safe z (s.standStart k) :=
  safe_foldl (fun _ _ h => safe_ite (condemn_safe h) h) (standJoin_safe H)

theorem filterStart_safe {c : Nat} (H : Safe z s) : Safe z (s.filterStart c) :=
  onInsts_safe (onFilt_safe H)

theorem writeBankA_safe {c : Nat} {b : CoefSet} {keep : Bool} (H : Safe z s) : Safe z (s.writeBankA c b keep) :=
  onInsts_safe (onFilt_safe H)

theorem filterInit_safe {c : Nat} (H : Safe z s) : Safe z (s.filterInit c) := by
  unfold State.filterInit
  split
  · exact H
  · extract_lets b
    exact safe_ite (onInsts_safe (onFilt_safe H)) (safe_ite (filterStart_safe (writeBankA_safe (onFilt_safe H)))
      (onFilt_safe H))

theorem pqFresh_safe (H : Safe z s) : Safe z s.pqFresh :=
  onPq_safe (pqSync_safe H) (fun _ => by simp)

theorem kernelsStart_safe (H : Safe z s) : Safe z s.kernelsStart := by
  unfold State.kernelsStart
  extract_lets s1 s2 s3 s4 s5 s6 s7
  have h1 : Safe z s1 := safe_ite (factoryTrims_safe H) H
  have h2 : Safe z s2 := safe_foldl (fun _ _ h => standStart_safe h) h1
  have h3 : Safe z s3 := safe_foldl (fun _ _ h => filterInit_safe h) h2
  have h5 : Safe z s5 := onRef_safe (onPw_safe (onMe_safe h3) (fun _ => rfl))
  have h6 : Safe z s6 := onPq_safe (pqFresh_safe (wave_safe h5)) (fun _ => rfl)
  exact onWd_safe (onPm_safe h6) (fun _ => rfl) (fun _ => rfl)

theorem dspReload_safe (H : Safe z s) : Safe z s.dspReload := by
  unfold State.dspReload
  extract_lets again other s1 s2 s3 s4 s5
  have h1 : Safe z s1 := safe_ite (runRegion_safe H) H
  have h2 : Safe z s2 := safe_foldl (fun _ _ h => filterReload_safe h) h1
  have h3 : Safe z s3 := safe_foldl (fun _ _ h => standAbort_safe h) h2
  have h4 : Safe z s4 := onWd_safe h3 (fun _ => rfl) (fun _ => rfl)
  have h5 : Safe z s5 := onHw_safe (onPw_safe h4 (fun _ => rfl)) (fun _ => rfl)
  exact kernelsStart_safe (dropPending_safe h5)

theorem endRequal_safe {k : Nat} (H : Safe z s) : Safe z (s.endRequal k) := by
  unfold State.endRequal
  split
  · exact H
  · exact safe_ite (unsettle_safe (onStand_safe H)) (onStand_safe H)

theorem endWindow_safe {b : Nat} {w : PqWin} {straddles : Bool} (H : Safe z s) : Safe z (s.endWindow b w straddles) :=
  closeWindow_safe (busAFirst_safe (cyclesEnd_safe H))

theorem substLog_safe {e : Nat} (H : Safe z s) : Safe z (s.substLog e) :=
  safe_ite (log_safe (onMe_safe H)) H

theorem energyFrame_safe {fv pv : List Val} (H : Safe z s) : Safe z (s.energyFrame fv pv) := by
  unfold State.energyFrame
  extract_lets nomA nomB meters m runs elemF elemP circF s1
  have h1 : Safe z s1 := onMe_safe H
  exact safe_foldl (fun _ _ h => substLog_safe h) h1

theorem failCheckpoint_safe (H : Safe z s) : Safe z s.failCheckpoint :=
  onPw_safe (checkpoint_safe H) (fun _ => rfl)

theorem filterStop_safe {c : Nat} (H : Safe z s) : Safe z (s.filterStop c) := by
  unfold State.filterStop
  extract_lets f s1 s2
  have h1 : Safe z s1 := cancelLoading_safe (cancelLoad_safe H)
  have h2 : Safe z s2 := by
    unfold s2
    split
    · exact h1
    · exact log_safe h1
  exact onFilt_safe h2

theorem firstCopy_safe {key : Nat × Nat} (H : Safe z s) : Safe z (s.firstCopy key) :=
  onNt_safe H (fun _ => rfl)

theorem fixItem_safe {part : Nat} {l : List (Nat × Nat)} (H : Safe z s) : Safe z (s.fixItem part l) := by
  unfold State.fixItem
  extract_lets s1
  have h1 : Safe z s1 := safe_foldl (fun _ _ h => fixRecord_safe h) H
  exact safe_ite (log_safe h1) h1

theorem followStep_safe (H : Safe z s) : Safe z s.followStep := by
  unfold State.followStep
  refine safe_ite ?_ H
  exact onRtc_safe (log_safe (adjustCal_safe H)) (fun _ => rfl)

theorem forwardPtp_safe {f : Heard} {m : Option PtpMark} (H : Safe z s) : Safe z (s.forwardPtp f m) :=
  safe_ite H (onNt_safe H (fun _ => rfl))

theorem fragEnd_safe {h : Hdr} (H : Safe z s) : Safe z (s.fragEnd h) :=
  onLk_safe H (fun _ => rfl)

theorem fragAdd_safe {h : Hdr} {code : Nat} {bs : List Byte} (H : Safe z s) : Safe z (s.fragAdd h code bs) :=
  onLk_safe (fragEnd_safe H) (fun _ => rfl)

theorem frameError_safe (H : Safe z s) : Safe z s.frameError :=
  irq_safe (onLk_safe H (fun _ => rfl))

theorem frameLost_safe {f : OwnFrame} (H : Safe z s) : Safe z (s.frameLost f) :=
  safe_ite (onQu_safe (onNt_safe H (fun _ => rfl))) (safe_ite (onPm_safe H) H)

theorem frameSent_safe {f : OwnFrame} (H : Safe z s) : Safe z (s.frameSent f) :=
  safe_ite (onQu_safe H) (safe_ite (onPm_safe H) H)

theorem freshWindows_safe (H : Safe z s) : Safe z s.freshWindows :=
  onMe_safe (onPq_safe (pqBegin_safe H) (fun _ => rfl))

theorem goodOffset_safe {th : Int} {gm : Nat} {prev : Option Nat} (H : Safe z s) : Safe z (s.goodOffset th gm prev) := by
  unfold State.goodOffset
  extract_lets same small base run n x kp ki two40 lim dt p f r ns s1 s2
  have h1 : Safe z s1 := drew_safe (onTe_safe H (fun _ => rfl) (fun _ => rfl))
  have h2 : Safe z s2 := servoTo_safe h1
  exact onTe_safe h2 (fun _ => rfl) (fun _ => rfl)

theorem headReply_safe {bs : List Byte} (H : Safe z s) : Safe z (s.headReply bs) :=
  onLk_safe H (fun _ => rfl)

theorem holdIdentify_safe {h : Hdr} (H : Safe z s) : Safe z (s.holdIdentify h) := by
  unfold State.holdIdentify
  split
  · exact onNt_safe H (fun _ => rfl)
  · exact H

theorem holdSwap_safe {c prime fade : Nat} (H : Safe z s) : Safe z (s.holdSwap c prime fade) := by
  unfold State.holdSwap
  extract_lets f s1
  have h1 : Safe z s1 := onFilt_safe H
  exact safe_ite (log_safe (onFilt_safe h1)) h1

theorem landed_safe (H : Safe z s) : Safe z s.landed :=
  onHw_safe H (fun _ => rfl)

theorem writeFrame_safe {bs : List Byte} (H : Safe z s) : Safe z (s.writeFrame bs) :=
  safe_ite (directWord_safe H) (directLog_safe H)

theorem latchFor_safe {a : Nat} (H : Safe z s) : Safe z (s.latchFor a) :=
  safe_ite (drew_safe (onLk_safe H (fun _ => rfl))) (safe_ite (onLk_safe H (fun _ => rfl)) H)

theorem unlatchFor_safe {a : Nat} (H : Safe z s) : Safe z (s.unlatchFor a) :=
  onLk_safe H (fun _ => rfl)

theorem uartDirect_safe {bs : List Byte} (H : Safe z s) : Safe z (s.uartDirect bs) := by
  unfold State.uartDirect
  extract_lets a s1
  have h1 : Safe z s1 := latchFor_safe H
  exact safe_ite (directError_safe H) (safe_ite (writeFrame_safe H) (onLk_safe (unlatchFor_safe h1) (fun _ => rfl)))

theorem linkReply_safe {pkt : List Byte} {st : Status} {rest : List Byte} (H : Safe z s) :
    Safe z (s.linkReply pkt st rest) := by
  unfold State.linkReply
  refine onLk_safe H fun _ => ?_
  split
  · split <;> rfl
  · split <;> rfl

theorem rxBuffer_safe {bulk : Bool} {pkt : List Byte} (H : Safe z s) : Safe z (s.rxBuffer bulk pkt) :=
  safe_ite (irq_safe (onLk_safe H (fun _ => rfl))) (onLk_safe H (fun _ => by split <;> rfl))

theorem packetCheck_safe {bulk : Bool} {pkt : List Byte} (H : Safe z s) : Safe z (s.packetCheck bulk pkt) := by
  unfold State.packetCheck
  extract_lets f op node hushing s1
  have h1 : Safe z s1 := safe_ite (hush_safe H) (resume_safe H)
  exact safe_ite (frameError_safe H) (safe_ite (frameError_safe H)
    (safe_ite (linkReply_safe H) (safe_ite (linkReply_safe H)
    (safe_ite (headReply_safe h1) (safe_ite (safe_ite H (linkReply_safe H)) (rxBuffer_safe H))))))

theorem uartBlock_safe {bs : List Byte} (H : Safe z s) : Safe z (s.uartBlock bs) := by
  unfold State.uartBlock
  refine safe_ite H ?_
  split
  · exact frameError_safe H
  · exact safe_ite (uartDirect_safe H) (safe_ite (frameError_safe H) (packetCheck_safe H))

theorem spiDirect_safe {bs : List Byte} (H : Safe z s) : Safe z (s.spiDirect bs) := by
  unfold State.spiDirect
  extract_lets a s1 s2
  have h1 : Safe z s1 := safe_ite (directError_safe H) H
  have h2 : Safe z s2 := latchFor_safe h1
  exact safe_ite (drives_safe (safe_ite h1 (writeFrame_safe h1)))
    (safe_ite (drives_safe h1) (drives_safe (unlatchFor_safe h2)))

theorem packets_safe {bulk : Bool} {fuel h : Nat} {bs : List Byte} (H : Safe z s) : Safe z (s.packets bulk fuel h bs) := by
  induction fuel generalizing s h bs with
  | zero => exact H
  | succ fuel ih =>
    unfold State.packets
    exact safe_ite H (safe_ite (frameError_safe H) (ih (packetCheck_safe H)))

theorem spiPackets_safe {bs : List Byte} (H : Safe z s) : Safe z (s.spiPackets bs) := by
  unfold State.spiPackets
  extract_lets hbulk h
  split
  · split
    · extract_lets s1
      have h1 : Safe z s1 := onLk_safe H (fun _ => rfl)
      exact safe_ite h1 (safe_ite (frameError_safe h1) (packets_safe h1))

theorem hostFrame_safe {bs : List Byte} (H : Safe z s) : Safe z (s.hostFrame bs) := by
  unfold State.hostFrame
  extract_lets s1
  have h1 : Safe z s1 := landed_safe H
  exact safe_ite h1 (safe_ite (uartBlock_safe h1) (safe_ite h1 (safe_ite (spiDirect_safe h1) (spiPackets_safe h1))))

theorem superReturn_safe {port : Nat} (H : Safe z s) : Safe z (s.superReturn port) := by
  unfold State.superReturn
  extract_lets s1
  have h1 : Safe z s1 := onPort_safe H
  exact safe_ite (drew_safe (log_safe (irq_safe (onNt_safe h1 (fun _ => rfl))))) h1

theorem hsrTagged_safe {f : Heard} {seq : Nat} (H : Safe z s) : Safe z (s.hsrTagged f seq) := by
  unfold State.hsrTagged
  extract_lets key s1 s2
  have h1 : Safe z s1 := firstCopy_safe H
  have h2 : Safe z s2 := safe_ite (toMac_safe h1) h1
  exact safe_ite (safe_ite (superReturn_safe H) H) (safe_ite (onNt_safe H (fun _ => rfl)) (safe_ite h2 (forward_safe h2)))

theorem writeParts_safe {pair parts : Nat} {bs : List Byte} (H : Safe z s) : Safe z (s.writeParts pair parts bs).1 :=
  safe_ite_fst H (itemPut_safe H)

theorem layoutSets_safe (H : Safe z s) : Safe z s.layoutSets.1 := by
  unfold State.layoutSets
  extract_lets r
  have hr : Safe z r.1.1 := List.foldlRecOn (motive := fun a : (State × Bool) × Nat => Safe z a.1.1) _ _ H
    fun _ h _ _ => andThen_safe h fun _ hx => writeParts_safe hx
  exact safe_foldl_fst (fun _ _ h => andThen_safe h fun _ hx => safe_ite_fst hx (itemPut_safe hx)) hr

theorem keepPut_safe {c : Nat} {bs : List Byte} (H : Safe z s) : Safe z (s.keepPut c bs).1 := by
  unfold State.keepPut
  extract_lets r
  have hr : Safe z r.1 := layoutSets_safe (onHw_safe H (fun _ => rfl))
  exact safe_ite_fst (safe_pair (pioUpdate_safe hr)) (safe_pair (onHw_safe hr (fun _ => rfl)))

theorem keepSet_safe {c : Nat} {bs : List Byte} (H : Safe z s) : Safe z (s.keepSet c bs) :=
  keepPut_safe H

theorem importSet_safe {e : Nat × List Byte} (H : Safe z s) : Safe z (s.importSet e) := by
  unfold State.importSet
  extract_lets s1
  have h1 : Safe z s1 := keepSet_safe H
  exact safe_ite (writeBankA_safe h1) (safe_ite h1 (onFilt_safe h1))

theorem intake_safe {ins : List ConvIn} (H : Safe z s) (hl : ins.length = 40) : Safe z (s.intake ins) :=
  H.of rfl rfl fun hi => inv_of hi rfl rfl rfl rfl fun hs => by
    obtain ⟨hc, hv, hr⟩ := hs
    exact ⟨hc, by simp [State.intake, hv, hl], hr⟩

theorem tamperCond_safe {slot circuit : Nat} {holds : Bool} (H : Safe z s) : Safe z (s.tamperCond slot circuit holds) :=
  safe_ite H (safe_ite (safe_ite H (safe_ite (tamperRaise_safe H) (onSlot_safe H))) (tamperClear_safe (onSlot_safe H)))

theorem tampStep_safe {b : Closed} {c j : Nat} (H : Safe z s) : Safe z (s.tampStep b c j) := by
  unfold State.tampStep
  extract_lets r need up
  split
  · extract_lets holds run clr up2 s1 s2
    have h1 : Safe z s1 := onRun_safe H
    have h2 : Safe z s2 := log_safe h1
    exact safe_ite h1 (tamperCond_safe h2)

theorem metroTamper_safe {b : Closed} (H : Safe z s) : Safe z (s.metroTamper b) :=
  safe_foldl (fun _ _ h => safe_ite h (safe_foldl (fun _ _ h1 => tampStep_safe h1) h)) H

theorem xlog_safe {c test : Nat} {ep ef sp sf : Int} (H : Safe z s) : Safe z (s.xlog c test ep ef sp sf) :=
  log_safe H

theorem xcheckCirc_safe {b : Closed} {a : State × Bool × Bool} {c : Nat} (H : Safe z a.1) : Safe z (xcheckCirc b a c).1 := by
  unfold xcheckCirc
  extract_lets s f p last sp sf bad0 bad1 s1 s2 s3 s4
  have hs : Safe z s := H
  have h1 : Safe z s1 := onRun_safe hs
  have h2 : Safe z s2 := onRun_safe (circBit_safe h1)
  have h3 : Safe z s3 := safe_ite h2 (onRun_safe (xlog_safe h2))
  have h4 : Safe z s4 := safe_ite h3 (trialFail_safe (tamperCond_safe (onMe_safe h3)))
  exact safe_ite_fst H (safe_ite_fst (safe_pair (onRun_safe (circBit_safe hs))) (safe_ite_fst h4 h1))

theorem xcheck_safe {b : Closed} (H : Safe z s) : Safe z (s.xcheck b) := by
  unfold State.xcheck
  have h0 : Safe z ((List.range 28).foldl (xcheckCirc b) (s, false, false)).1 := safe_foldl_fst
    (fun _ _ h => xcheckCirc_safe h) H
  split
  next s1 _ _ he =>
    have h1 : Safe z s1 := safe_fst he h0
    extract_lets run s2
    have h2 : Safe z s2 := onMe_safe h1
    exact safe_ite (tamperCond_safe (log_safe (onMe_safe h2))) h2

theorem judgeBlock_safe {b : Closed} (H : Safe z s) : Safe z (s.judgeBlock b) := by
  unfold State.judgeBlock
  refine safe_ite H ?_
  extract_lets s1 s2
  have h1 : Safe z s1 := onMe_safe H
  have h2 : Safe z s2 := safe_foldl (fun _ _ h => safe_ite (circBit_safe h) h) h1
  exact metroTamper_safe (xcheck_safe h2)

theorem keepReading_safe {sensor value : Nat} (H : Safe z s) : Safe z (s.keepReading sensor value) :=
  safe_ite (drew_safe (onPw_safe H (fun _ => rfl))) (safe_ite (onPw_safe H (fun _ => rfl)) H)

theorem keyEvent_safe {k ev : Nat} (H : Safe z s) : Safe z (s.keyEvent k ev) :=
  onHm_safe H

theorem showItem_safe {n : Nat} (H : Safe z s) : Safe z (s.showItem n) :=
  onHm_safe H

theorem keyStep_safe {f : Nat} (H : Safe z s) : Safe z (s.keyStep f) := by
  unfold State.keyStep
  exact onHm_safe (showItem_safe H)

theorem keyNextPrev_safe {f : Nat} (H : Safe z s) : Safe z (s.keyNextPrev f) := by
  unfold State.keyNextPrev
  split
  · exact safe_ite (onHm_safe (keyStep_safe H)) (onHm_safe H)
  · exact onHm_safe H

theorem keyTick_safe (H : Safe z s) : Safe z s.keyTick := by
  unfold State.keyTick
  split
  · exact safe_ite (keyStep_safe H) H
  · exact H

theorem latchChans_safe (H : Safe z s) : Safe z s.latchChans :=
  chans_safe H (by simp)

theorem takeLayout_safe (H : Safe z s) : Safe z s.takeLayout := by
  unfold State.takeLayout
  refine safe_ite H ?_
  extract_lets s1 l
  have h1 : Safe z s1 := onHm_safe H
  exact onHm_safe h1

theorem latchDisplay_safe (H : Safe z s) : Safe z s.latchDisplay := by
  unfold State.latchDisplay
  extract_lets s1 l
  have h1 : Safe z s1 := takeLayout_safe H
  exact onHm_safe h1

theorem latchSnap_safe {b : Closed} (H : Safe z s) : Safe z (s.latchSnap b) := by
  unfold State.latchSnap
  exact onLk_safe H (fun _ => rfl)

theorem takeRegisters_safe {img : List Byte} (H : Safe z s) : Safe z (s.takeRegisters img) :=
  onMe_safe H

theorem loadBooks_safe {img : List Byte} (H : Safe z s) : Safe z (s.loadBooks img) := by
  unfold State.loadBooks
  extract_lets s1
  have h1 : Safe z s1 := takeRegisters_safe H
  exact onMe_safe h1

theorem loadLedger_safe (H : Safe z s) : Safe z s.loadLedger := by
  unfold State.loadLedger
  extract_lets s1 s11 s2
  have h1 : Safe z s1 := sense_safe (sense_safe H)
  have h11 : Safe z s11 := by
    unfold s11
    split
    · exact loadBooks_safe h1
    · exact h1
  have h2 : Safe z s2 := onHw_safe h11 (fun _ => rfl)
  split
  · exact h2
  · exact log_safe h2

theorem recordFilter_safe {body : List Byte} {c : Nat} (H : Safe z s) : Safe z (s.recordFilter body c) :=
  onInsts_safe (onFilt_safe H)

theorem loadRecord_safe {seq : Nat} {body : List Byte} (H : Safe z s) : Safe z (s.loadRecord seq body) := by
  unfold State.loadRecord
  extract_lets s1 s2 s3
  have h1 : Safe z s1 := onHw_safe (onPr_safe H) (fun _ => rfl)
  have h2 : Safe z s2 := stands_safe h1 (by simp)
  have h3 : Safe z s3 := convs_safe h2 (by simp)
  exact safe_foldl (fun _ _ h => recordFilter_safe h) h3

theorem loadStart_safe {c : Nat} (H : Safe z s) : Safe z (s.loadStart c) := by
  unfold State.loadStart
  split
  · exact H
  · exact onInst_safe (onFilt_safe H)

theorem takeTotals_safe {img : List Byte} (H : Safe z s) : Safe z (s.takeTotals img) :=
  onMe_safe H

theorem loadTotals_safe (H : Safe z s) : Safe z s.loadTotals := by
  unfold State.loadTotals
  extract_lets t c idx s1 s2
  have h1 : Safe z s1 := by
    unfold s1
    clear_value t
    split
    · exact takeTotals_safe H
    · exact H
  have h2 : Safe z s2 := onHw_safe h1 (fun _ => rfl)
  split
  · exact onPq_safe h2 (fun _ => rfl)
  · exact h2

theorem logTorn_safe (H : Safe z s) : Safe z s.logTorn := by
  unfold State.logTorn
  extract_lets s1 l
  have h1 : Safe z s1 := sense_safe H
  exact onHw_safe (safe_foldl (fun _ _ h => log_safe h) h1) (fun _ => rfl)

theorem setUtc_safe {v : Int} (H : Safe z s) : Safe z (s.setUtc v) :=
  safe_ite H (pioUpdate_safe (storePar_safe H))

theorem masterAnnounce_safe {m : List Byte} (H : Safe z s) : Safe z (s.masterAnnounce m) := by
  unfold State.masterAnnounce
  refine safe_ite H ?_
  extract_lets fl s2 w
  have h2 : Safe z s2 := safe_ite (setUtc_safe H) H
  exact safe_ite h2 (setLeap_safe h2)

theorem matchSecond_safe (H : Safe z s) : Safe z s.matchSecond := by
  unfold State.matchSecond
  refine safe_foldl (fun s1 a h => ?_) H
  extract_lets a1 x1
  have hx1 : Safe z x1 := safe_ite (onAlarm_safe h) h
  exact safe_ite (alarmAct_safe hx1) hx1

theorem matchStep_safe {k : Nat} {h p : Rat} (H : Safe z s) : Safe z (s.matchStep k h p) := by
  unfold State.matchStep
  extract_lets d c held s1 m live target
  have h1 : Safe z s1 := onStand_safe H
  exact safe_ite H (onStand_safe h1)

theorem newTrims_safe {v : Nat} {r : Rest} (H : Safe z s) : Safe z (s.newTrims v r) :=
  onConv_safe H

theorem refuseOffset_safe {th : Int} {gm : Nat} (H : Safe z s) : Safe z (s.refuseOffset th gm) := by
  unfold State.refuseOffset
  extract_lets us s1
  have h1 : Safe z s1 := drew_safe (onTe_safe H (fun _ => rfl) (fun _ => rfl))
  exact servoTo_safe (log_safe (irq_safe h1))

theorem offset_safe {th : Int} {gm : Nat} (H : Safe z s) : Safe z (s.offset th gm).1 := by
  unfold State.offset
  extract_lets s1 prev s2 fl run
  have h1 : Safe z s1 := takeScheduled_safe H
  have h2 : Safe z s2 := onTe_safe h1 (fun _ => rfl) (fun _ => rfl)
  exact safe_ite_fst (safe_pair (goodOffset_safe h2))
    (safe_ite_fst (safe_pair (onTe_safe (acceptStep_safe h2) (fun _ => rfl) (fun _ => rfl))) (safe_pair (refuseOffset_safe h2)))

theorem onBlaze_safe {k : Nat} {f : Blaze → Blaze} (H : Safe z s) : Safe z (s.onBlaze k f) :=
  onTe_safe H (fun _ => by simp) (fun _ => rfl)

theorem onLock_safe {part : Nat} {f : Lockout → Lockout} (H : Safe z s) : Safe z (s.onLock part f) :=
  onSe_safe H (fun _ => by simp) (fun _ => rfl)

theorem onNotch_safe {k : Nat} {f : Notch → Notch} (H : Safe z s) : Safe z (s.onNotch k f) :=
  onTe_safe H (fun _ => rfl) (fun _ => by simp)

theorem peerResult_safe {port t2 t3 t4 : Nat} {corr : Int} (H : Safe z s) : Safe z (s.peerResult port t2 t3 t4 corr) := by
  unfold State.peerResult
  split
  next _ _ heq =>
    exact safe_fst heq (takeStamp_safe H)
  next _ _ _ heq =>
    exact drew_safe (onPort_safe (safe_fst heq (takeStamp_safe H)))

theorem phasorRecords_safe {r : ReportIn} (H : Safe z s) : Safe z (s.phasorRecords r) := by
  unfold State.phasorRecords
  extract_lets s1 bus a d
  have h1 : Safe z s1 := safe_foldl (fun _ _ h => qX_safe h) H
  exact qX_safe (qX_safe (qX_safe (qX_safe h1)))

theorem pioBegin_safe (H : Safe z s) : Safe z s.pioBegin :=
  safe_ite (log_safe (onHw_safe H (fun _ => rfl))) H

theorem pmuApply_safe {commitT at_ : Nat} {l : List (Nat × Nat)} (H : Safe z s) : Safe z (s.pmuApply commitT at_ l) := by
  unfold State.pmuApply
  extract_lets s1 anew
  have h1 : Safe z s1 := onPr_safe H
  exact storeDevice_safe (onPm_safe h1)

theorem pmuDue_safe (H : Safe z s) : Safe z s.pmuDue :=
  safe_foldl (fun _ _ h => pmuApply_safe h) (onPm_safe H)

theorem pmuTake_safe (H : Safe z s) : Safe z s.pmuTake :=
  safe_foldl (fun _ _ h => pmuApply_safe h) (onPm_safe H)

theorem pmuStart_safe (H : Safe z s) : Safe z s.pmuStart := by
  unfold State.pmuStart
  extract_lets s1
  have h1 : Safe z s1 := safe_ite H (pmuTake_safe H)
  exact safe_ite h1 (safe_ite (onPm_safe h1) (onPm_safe h1))

theorem pmuStop_safe (H : Safe z s) : Safe z s.pmuStop :=
  onPm_safe (pmuMissed_safe H)

theorem powerStart_safe {ext33 testEn : Bool} (H : Safe z s) : Safe z (s.powerStart ext33 testEn) :=
  onPw_safe H (fun _ => rfl)

theorem ppsOffset_safe {t : Int} (H : Safe z s) : Safe z (s.ppsOffset t) := by
  unfold State.ppsOffset
  extract_lets v x n
  have hv : Safe z v := takeScheduled_safe H
  exact safe_ite (offset_safe (onTe_safe hv (fun _ => rfl) (fun _ => rfl))) H

theorem pqFrame_safe (H : Safe z s) : Safe z s.pqFrame := by
  unfold State.pqFrame
  split
  · exact H
  · exact safe_ite H (under_safe H (fun _ h => safe_foldl (fun _ _ h1 => busSample_safe h1) h))

theorem pqReload_safe (H : Safe z s) : Safe z s.pqReload :=
  onPq_safe (pqFresh_safe (pqBegin_safe (dropPending_safe H))) (fun _ => by simp)

theorem probeBegin_safe {k : Nat} {c : Check} {rest : List Check} (H : Safe z s) : Safe z (s.probeBegin k c rest) :=
  onStand_safe H

theorem ptpOffset_safe {rx origin : Nat} {corr : Int} {delay : Nat} (H : Safe z s) :
    Safe z (s.ptpOffset rx origin corr delay) :=
  offset_safe H

theorem pushSnap_safe {t : Nat} {outs : List ChanOut} (H : Safe z s) : Safe z (s.pushSnap t outs) :=
  Safe.of H rfl rfl id

theorem pushWave_safe {t : Nat} {outs : List ChanOut} {fv : List Val} (H : Safe z s) : Safe z (s.pushWave t outs fv) := by
  unfold State.pushWave
  refine safe_ite H ?_
  exact wave_safe H

theorem takeRecord_safe {part mark : Nat} {e : Nat × Nat} (H : Safe z s) : Safe z (s.takeRecord part mark e) := by
  unfold State.takeRecord
  extract_lets s1
  have h1 : Safe z s1 := fixRecord_safe H
  split
  · exact safe_ite (pageWrite_safe h1) h1
  · exact h1

theorem readSets_safe (H : Safe z s) : Safe z s.readSets := by
  unfold State.readSets
  extract_lets r
  have hr : Safe z r.1 := by
    refine safe_foldl_fst (fun a pair h => ?_) H
    obtain ⟨x, skip, l⟩ := a
    refine safe_ite_fst h (safe_ite_fst h ?_)
    extract_lets s1 recs s2
    have h1 : Safe z s1 := fixRecord_safe h
    have h2 : Safe z s2 := safe_ite h1 (fixItem_safe h1)
    split
    · exact safe_pair h2
    · exact safe_pair h2
  exact onHw_safe hr (fun _ => rfl)

theorem takeDevice_safe (H : Safe z s) : Safe z s.takeDevice := by
  unfold State.takeDevice
  split
  · exact H
  · extract_lets s1
    have h1 : Safe z s1 := stands_safe H (by simp)
    exact onRtc_safe (onPm_safe (onTe_safe (onRef_safe h1) (fun _ => rfl) (fun _ => rfl))) (fun _ => rfl)

theorem pwsRead_length (h : s.se.pws.length = 8) : (pwsRead s).length = 8 := by
  unfold pwsRead
  split
  · simp
  · split
    · exact h
    · simpa using h

theorem readP0_safe (H : Safe z s) : Safe z s.readP0 := by
  unfold State.readP0
  extract_lets s1 m s2 s3 s4 utc s5
  have h1 : Safe z s1 := fixRecord_safe H
  have h2 : Safe z s2 := safe_foldl (fun _ _ h => takeRecord_safe h) h1
  have h3 : Safe z s3 := safe_foldl (fun _ _ h => takeRecord_safe h) h2
  have h4 : Safe z s4 := fixItem_safe (safe_foldl (fun _ _ h => fixRecord_safe h) h3)
  have h5 : Safe z s5 := onPr_safe (readSets_safe h4)
  clear_value s5
  have h6 : Safe z (s5.onSe fun e => { e with pws := pwsRead s5 }) :=
    h5.of rfl rfl fun hi => inv_of hi rfl rfl rfl rfl fun hs => by
      unfold State.Shape at hs ⊢
      have hp : (pwsRead s5).length = 8 := pwsRead_length (by simp only [hs])
      simp [hp, hs]
  exact takeDevice_safe (onTp_safe h6 (fun _ => rfl) (fun _ => rfl))

theorem takeSync_safe {f : Heard} {m : List Byte} (H : Safe z s) : Safe z (s.takeSync f m) := by
  unfold State.takeSync
  extract_lets +onlyGivenNames d s1
  have h1 : Safe z s1 := drew_safe (forwardPtp_safe H)
  clear_value d s1
  split
  · exact h1
  · refine safe_ite h1 ?_
    extract_lets s2
    have h2 : Safe z s2 := onPort_safe h1
    exact safe_ite (ptpOffset_safe h2) h2

theorem takeResponse_safe {f : Heard} {m : List Byte} (H : Safe z s) : Safe z (s.takeResponse f m) := by
  unfold State.takeResponse
  refine safe_ite H (safe_ite (safe_ite (onPort_safe H) (peerResult_safe H)) ?_)
  split
  · exact safe_ite (peerResult_safe H) H
  · exact H

theorem takeFollowUp_safe {f : Heard} {m : List Byte} (H : Safe z s) : Safe z (s.takeFollowUp f m) := by
  unfold State.takeFollowUp
  extract_lets s1 s2
  have h1 : Safe z s1 := forwardPtp_safe H
  have h2 : Safe z s2 := drew_safe (onPort_safe h1)
  split
  · exact safe_ite (safe_ite (ptpOffset_safe h2) h2) h1
  · exact h1

theorem takeAnnounce_safe {f : Heard} {m : List Byte} (H : Safe z s) : Safe z (s.takeAnnounce f m) := by
  unfold State.takeAnnounce
  extract_lets s1 s2
  have h1 : Safe z s1 := forwardPtp_safe H
  have h2 : Safe z s2 := chooseMaster_safe h1
  exact safe_ite h1 (safe_ite (masterAnnounce_safe h2) h2)

theorem takePtp_safe {f : Heard} {m : List Byte} (H : Safe z s) : Safe z (s.takePtp f m) := by
  unfold State.takePtp
  split
  · exact takeSync_safe H
  · exact answerPeer_safe H
  · exact takeResponse_safe H
  · exact takeFollowUp_safe H
  · exact takeResponse_safe H
  · exact takeAnnounce_safe H
  · exact H

theorem switchFrame_safe {f : Heard} (H : Safe z s) : Safe z (s.switchFrame f) := by
  unfold State.switchFrame
  split
  · exact takePtp_safe (safe_ite (hostHold_safe H) H)
  · refine safe_ite ?_ (safe_ite (bridge_safe H) (safe_ite (toMac_safe H) H))
    split
    · exact onPort_safe H
    · exact hsrTagged_safe H

theorem receive_safe {port : Fin 2} {frame : FrameIn} (H : Safe z s) : Safe z (s.receive port frame) := by
  unfold State.receive
  refine safe_ite H ?_
  extract_lets s1
  have h1 : Safe z s1 := onPort_safe H
  exact safe_ite (onPort_safe h1) (switchFrame_safe h1)

theorem refDisagree_safe {up : Bool} (H : Safe z s) : Safe z (s.refDisagree up) :=
  safe_ite H (tamperCond_safe (log_safe (onRef_safe H)))

theorem reloadPass_safe (H : Safe z s) : Safe z s.reloadPass := by
  unfold State.reloadPass
  refine safe_ite ?_ H
  extract_lets s1
  have h1 : Safe z s1 := onPw_safe (onWd_safe H (fun _ => rfl) (fun _ => rfl)) (fun _ => rfl)
  exact safe_ite (log_safe h1) h1

theorem repairRecord_safe (H : Safe z s) : Safe z s.repairRecord := by
  unfold State.repairRecord
  extract_lets s1
  have h1 : Safe z s1 := sense_safe (sense_safe H)
  split
  · exact safe_ite (log_safe (onHw_safe (wr_safe h1) (fun _ => rfl))) h1
  · exact onHw_safe (wr_safe h1) (fun _ => rfl)
  · exact onHw_safe (wr_safe h1) (fun _ => rfl)
  · exact log_safe h1

theorem replacedLog_safe {c : Nat} (H : Safe z s) : Safe z (s.replacedLog c) :=
  safe_ite H (log_safe H)

theorem viewOf_safe {k : Nat} (H : Safe z s) : Safe z (viewOf s k) := by
  unfold viewOf
  split
  · exact H
  · exact onPm_safe (onPr_safe H)

theorem takeReport_safe {rep : ReportIn} (H : Safe z s) : Safe z (s.takeReport rep) := by
  unfold State.takeReport
  extract_lets a d s1 s2
  have h1 : Safe z s1 := onPm_safe (pmuMissed_safe H)
  have h2 : Safe z s2 := safe_ite (drew_safe (phasorRecords_safe h1)) h1
  exact safe_ite h2 (safe_ite (onPm_safe h2) (sendFrame_safe (onPm_safe h2)))

theorem reportAt_safe {x : Wave} {t : Nat} (H : Safe z s) : Safe z (s.reportAt x t) := by
  unfold State.reportAt
  extract_lets v
  have hv : Safe z v := viewOf_safe H
  exact under_safe H (fun _ h => takeReport_safe h)

theorem requalHome_safe {k v : Nat} (H : Safe z s) : Safe z (s.requalHome k v) := by
  unfold State.requalHome
  extract_lets d s1 s2
  have h1 : Safe z s1 := unsettle_safe (onStand_safe (onChan_safe H))
  have h2 : Safe z s2 := safe_ite (pioUpdate_safe (onStand_safe h1)) h1
  exact safe_ite (unsettle_safe (onStand_safe H)) (safe_ite (shadowFor_safe (onStand_safe h2)) h2)

theorem requalSpare_safe {k : Nat} (H : Safe z s) : Safe z (s.requalSpare k) :=
  safe_ite (shadowFor_safe (onStand_safe H)) (rescue_safe (onStand_safe H))

theorem restBegin_safe {k v : Nat} (H : Safe z s) : Safe z (s.restBegin k v) :=
  unsettle_safe (onStand_safe H)

theorem restCount_safe {k v : Nat} {r : Rest} (H : Safe z s) : Safe z (s.restCount k v r) := by
  unfold State.restCount
  extract_lets s1
  have h1 : Safe z s1 := onConv_safe H
  split
  · exact h1
  · exact drew_safe (onStand_safe h1)

theorem restStep_safe {k : Nat} {raw : Int} {settled : Bool} (H : Safe z s) : Safe z (s.restStep k raw settled) :=
  onStand_safe H

theorem restoreKeys_safe {ok : Bool} (H : Safe z s) : Safe z (s.restoreKeys ok) :=
  safe_ite (onTp_safe H (fun _ => rfl) (fun _ => rfl)) (safe_ite (onTp_safe H (fun _ => rfl) (fun _ => rfl)) H)

theorem resumeScroll_safe (H : Safe z s) : Safe z s.resumeScroll :=
  onHm_safe H

theorem wardenStop_safe {cause : Nat} (H : Safe z s) : Safe z (s.wardenStop cause) := by
  unfold State.wardenStop
  extract_lets s1 s2 s3
  have h1 : Safe z s1 := onWd_safe H (fun _ => rfl) (fun _ => rfl)
  have h2 : Safe z s2 := onTp_safe (dropSessions_safe h1) (fun _ => rfl) (fun _ => rfl)
  have h3 : Safe z s3 := onTx_safe (abandonUpdate_safe (stopFollowing_safe h2))
  exact dropPending_safe (onPr_safe (onLk_safe h3 (fun _ => rfl)))

theorem switchKind_safe {k cause wardenCause : Nat} (H : Safe z s) : Safe z (s.switchKind k cause wardenCause) := by
  unfold State.switchKind
  extract_lets s1
  have h1 : Safe z s1 := runRegion_safe H
  exact safe_ite (canopyStop_safe h1) (safe_ite (wardenStop_safe h1) (safe_ite (pqReload_safe h1) (dropPending_safe h1)))

theorem updLog_safe {code : Nat} {hd : List Byte} {bank cause : Nat} (H : Safe z s) :
    Safe z (s.updLog code hd bank cause) :=
  drew_safe (log_safe H)

theorem revertTrial_safe {cause : Nat} (H : Safe z s) : Safe z (s.revertTrial cause) := by
  unfold State.revertTrial
  extract_lets hd k s1
  have h1 : Safe z s1 := safe_ite (switchKind_safe H) H
  exact updIdle_safe (updLog_safe h1)

theorem revokeBelow_safe {kb : Nat × Nat} (H : Safe z s) : Safe z (s.revokeBelow kb) :=
  safe_ite (log_safe (onRegion_safe H)) H

theorem rewriteAll_safe (H : Safe z s) : Safe z s.rewriteAll :=
  onHw_safe H (fun _ => rfl)

theorem secFail_safe {p : Path} (H : Safe z s) : Safe z (s.secFail p) := by
  unfold State.secFail
  extract_lets n s1
  have h1 : Safe z s1 := onTp_safe H (fun _ => rfl) (fun _ => rfl)
  exact safe_ite (tamperCond_safe h1) h1

theorem segmentTest_safe (H : Safe z s) : Safe z s.segmentTest :=
  onHm_safe H

theorem sendCfg2_safe {dst : Nat × Nat} (H : Safe z s) : Safe z (s.sendCfg2 dst) :=
  sendFrame_safe H

theorem senseLog_safe {first last : Nat} (H : Safe z s) : Safe z (s.senseLog first last) :=
  safe_foldl (fun _ _ h => sense_safe h) H

theorem sensorLog_safe {sensor value : Nat} {outside : Bool} (H : Safe z s) : Safe z (s.sensorLog sensor value outside) :=
  safe_ite (log_safe H) (safe_ite (log_safe H) (log_safe H))

theorem seqEnd_safe {n : Nat} (H : Safe z s) : Safe z (s.seqEnd n) := by
  unfold State.seqEnd
  extract_lets q
  split
  · exact seqInstall_safe H
  · split
    · exact seqRun_safe (onSeq_safe H)
    · exact seqIdle_safe H

theorem seqChecked_safe {c : Check} (H : Safe z s) : Safe z (s.seqChecked c) := by
  unfold State.seqChecked
  refine safe_foldl (fun s1 a h => ?_) H
  extract_lets q l x1
  have hx1 : Safe z x1 := onSeq_safe h
  exact safe_ite (safe_ite (seqEnd_safe hx1) hx1) h

theorem sessionFail_safe {part : Nat} {p : Path} (H : Safe z s) : Safe z (s.sessionFail part p) := by
  unfold State.sessionFail
  extract_lets n s1 s2
  have h1 : Safe z s1 := onLock_safe H
  have h2 : Safe z s2 := log_safe h1
  exact safe_ite (tamperCond_safe h2) h2

theorem sessionLocked_safe {part : Nat} {p : Path} (H : Safe z s) : Safe z (s.sessionLocked part p) := by
  unfold State.sessionLocked
  extract_lets l s1
  have h1 : Safe z s1 := onLock_safe H
  exact safe_ite h1 (log_safe h1)

theorem sessionPass_safe {part : Nat} (H : Safe z s) : Safe z (s.sessionPass part) := by
  unfold State.sessionPass
  extract_lets s1
  have h1 : Safe z s1 := onLock_safe H
  exact safe_ite h1 (tamperClear_safe h1)

theorem setBaseline_safe {ratio : Nat} (H : Safe z s) : Safe z (s.setBaseline ratio) := by
  unfold State.setBaseline
  extract_lets s1
  have h1 : Safe z s1 := onRef_safe H
  exact safe_ite (storeBoot_safe (storeDevice_safe h1)) h1

theorem setPw_safe {part kind : Nat} {w : Pw} (H : Safe z s) : Safe z (s.setPw part kind w).1 := by
  unfold State.setPw
  extract_lets r
  have hr : Safe z r.1 := storePw_safe (onSe_safe H (hn := fun _ => modAt_length ..) (fun _ => rfl))
  exact safe_ite_fst hr (hr.withSe H)

theorem settled_safe (H : Safe z s) : Safe z s.settled := by
  unfold State.settled
  split
  · exact finishCommit_safe H
  · exact H

theorem spliceIn_safe {k c : Nat} {stored : Bool} (H : Safe z s) : Safe z (s.spliceIn k c stored) := by
  unfold State.spliceIn
  extract_lets s1
  have h1 : Safe z s1 := onStand_safe (splice_safe H)
  split
  · exact coppiceDone_safe (onStand_safe h1)
  · exact restBegin_safe (loadStart_safe (onStand_safe h1))

theorem osfClearAct_safe (H : Safe z s) : Safe z (osfClearAct s).1 :=
  safe_ite_fst (safe_pair (clearOsf_safe H)) H

theorem woAct_safe {id : Nat} (H : Safe z s) : Safe z (s.woAct id) :=
  safe_ite (onRef_safe H) (safe_ite (osfClearAct_safe H) (safe_ite (alAck_safe H) H))

theorem stageMember_safe {id : Nat} {value : List Byte} (H : Safe z s) : Safe z (s.stageMember id value) :=
  safe_ite (woAct_safe H) (onPr_safe H)

theorem txStamp_safe {host : Bool} {id port : Nat} {stepped : Bool} (H : Safe z s) :
    Safe z (s.txStamp host id port stepped) := by
  unfold State.txStamp
  refine onTe_safe H (fun _ => ?_) fun _ => ?_
  · split
    · split <;> rfl
    · split <;> rfl
  · split
    · split <;> rfl
    · split <;> rfl

theorem stampFrame_safe {k : Nat} {f : OwnFrame} (H : Safe z s) : Safe z (s.stampFrame k f) := by
  unfold State.stampFrame
  split
  · exact txStamp_safe H
  · exact H

theorem standFrame_safe {k : Nat} (H : Safe z s) : Safe z (s.standFrame k) := by
  unfold State.standFrame
  extract_lets d c s1 s2 s3
  have h1 : Safe z s1 := onStand_safe H
  have h2 : Safe z s2 := safe_ite (matchStep_safe h1) h1
  have h3 : Safe z s3 := by
    unfold s3
    split
    · exact restStep_safe h2
    · exact h2
  refine safe_ite H ?_
  split
  · exact h3
  · extract_lets v bad
    exact safe_ite h3 (onStand_safe h3)

theorem startFirst_safe {faults : List Nat} (H : Safe z s) : Safe z (s.startFirst faults) :=
  H.of rfl rfl fun ⟨hm, _, hp, hc, hs⟩ => ⟨hm, by simp [State.startFirst], hp, hc, hs⟩

theorem startSwap_safe {c prime fade : Nat} (H : Safe z s) : Safe z (s.startSwap c prime fade) :=
  onInsts_safe (onFilt_safe H)

theorem startTrial_safe (H : Safe z s) : Safe z s.startTrial := by
  unfold State.startTrial
  extract_lets hd k b n s1
  have h1 : Safe z s1 := onUp_safe (onRegion_safe H) (fun _ => rfl) (fun _ => rfl)
  exact updLog_safe (switchKind_safe (drew_safe h1))

theorem storeLayout_safe {bs : List Byte} (H : Safe z s) : Safe z (s.storeLayout bs).1 :=
  itemPut_safe H

theorem supraClose_safe {e : Nat × Nat × Nat × Bool} (H : Safe z s) : Safe z (s.supraClose e) :=
  safe_ite (closeSupra_safe H) (onPq_safe H (fun _ => rfl))

theorem supraFlush_safe (H : Safe z s) : Safe z s.supraFlush :=
  safe_foldl (fun _ _ h => closeSupra_safe h) (onPq_safe H (fun _ => rfl))

theorem takeSupra_safe {endT c : Nat} (H : Safe z s) : Safe z (s.takeSupra endT c) := by
  unfold State.takeSupra
  refine safe_ite H ?_
  exact onPq_safe H (fun _ => rfl)

theorem supraStep_safe {endT : Nat} (H : Safe z s) : Safe z (s.supraStep endT) := by
  unfold State.supraStep
  extract_lets s1 s2
  have h1 : Safe z s1 := safe_ite (safe_foldl (fun _ _ h => onBus_safe h)
    (under_safe H (fun _ h => safe_foldl (fun _ _ h1 => takeSupra_safe h1) h))) H
  have h2 : Safe z s2 := supraFlush_safe (onPq_safe h1 (fun _ => rfl))
  exact safe_foldl (fun _ _ h => edgeReady_safe h) h2

theorem takeAonLoss_safe (H : Safe z s) : Safe z s.takeAonLoss := by
  unfold State.takeAonLoss
  refine safe_ite ?_ H
  extract_lets l s1
  have h1 : Safe z s1 := onTp_safe H (fun _ => by simp) (fun _ => rfl)
  exact tamperCond_safe h1

theorem takeCommitted_safe (H : Safe z s) : Safe z s.takeCommitted := by
  unfold State.takeCommitted
  extract_lets s1 s2 s3 s4 s41
  have h1 : Safe z s1 := onNt_safe H (fun _ => rfl)
  have h2 : Safe z s2 := onPr_safe h1
  have h3 : Safe z s3 := onNt_safe h2 (fun _ => rfl)
  have h4 : Safe z s4 := onPw_safe h3 (fun _ => rfl)
  have h41 : Safe z s41 := safe_ite h4 (storeDevice_safe (onPm_safe h4))
  exact onHm_safe (onMe_safe h41)

theorem takeFactory_safe (H : Safe z s) : Safe z s.takeFactory := by
  unfold State.takeFactory
  extract_lets s1
  have h1 : Safe z s1 := onUp_safe H (fun _ => rfl) (fun _ => rfl)
  exact safe_ite h1 (log_safe h1)

theorem takeMatch_safe {k c : Nat} {live : Bool} {m : Match} (H : Safe z s) : Safe z (s.takeMatch k c live m) := by
  unfold State.takeMatch
  extract_lets o g corr s1
  have h1 : Safe z s1 := onChan_safe H
  exact drew_safe (onStand_safe h1)

theorem takeResponses_safe (H : Safe z s) : Safe z s.takeResponses := by
  unfold State.takeResponses
  extract_lets s1
  have h1 : Safe z s1 := onTp_safe H (fun _ => by simp) (fun _ => rfl)
  exact safe_ite (lockActions_safe h1) h1

theorem takeStored_safe (H : Safe z s) : Safe z s.takeStored := by
  unfold State.takeStored
  extract_lets s1
  have h1 : Safe z s1 := safe_foldl (fun _ _ h => onAlarm_safe h) H
  exact onRef_safe (onRtc_safe (onTe_safe h1 (fun _ => rfl) (fun _ => rfl)) (fun _ => rfl))

theorem takeVbat_safe (H : Safe z s) : Safe z s.takeVbat := by
  unfold State.takeVbat
  extract_lets s1 s2
  have h1 : Safe z s1 := safe_foldl (fun _ _ h => logAt_safe h) H
  have h2 : Safe z s2 := onTp_safe h1 (fun _ => rfl) (fun _ => rfl)
  exact safe_ite (irq_safe h2) h2

theorem tdacEnd_safe (H : Safe z s) : Safe z s.tdacEnd :=
  onHm_safe H

theorem tenMinuteBus_safe {old : State} {st : Nat} {restart : Bool} {b : Nat} (H : Safe z s) :
    Safe z (State.tenMinuteBus old st restart s b) := by
  unfold State.tenMinuteBus
  extract_lets endT place pars edge s1
  have h1 : Safe z s1 := onBus_safe H
  exact edgeReady_safe h1

theorem tenMinute_safe (H : Safe z s) : Safe z s.tenMinute := by
  unfold State.tenMinute
  extract_lets idx restart s1 endT st s2 s3
  have h1 : Safe z s1 := onPq_safe (takeScheduled_safe H) (fun _ => rfl)
  have h2 : Safe z s2 := supraClose_safe h1
  have h3 : Safe z s3 := safe_foldl (fun _ _ h => tenMinuteBus_safe h) h2
  exact safe_ite H (safe_ite (safe_foldl (fun _ _ h => tenMinuteBus_safe h) h1) (drew_safe (onPq_safe h3 (fun _ => rfl))))

theorem tripped_safe (H : Safe z s) : Safe z s.tripped :=
  H.of rfl rfl fun ⟨hm, _, _, _, hs⟩ => by
    obtain ⟨-, -, -, -, -, -, -, -, -, -, ha, -, -, ht, -, hb, hc, -⟩ := hs
    exact ⟨hm, Nat.zero_le 256, Nat.zero_le 4, fun _ => Nat.zero_le 2, rfl, rfl, rfl, rfl, rfl, rfl, rfl, rfl, rfl, rfl,
      (List.length_map _).trans ha, rfl, rfl, List.length_mapIdx.trans ht, rfl, hb, hc, rfl⟩

theorem unforce_safe {o : Nat} (H : Safe z s) : Safe z (s.unforce o) :=
  onHm_safe H

theorem unpin_safe {k : Nat} (H : Safe z s) : Safe z (s.unpin k) :=
  safe_ite (onStand_safe (splice_safe H)) H

theorem verifyRefused_safe {st : Status} (H : Safe z s) : Safe z (s.verifyRefused st) := by
  unfold State.verifyRefused
  extract_lets s1
  have h1 : Safe z s1 := safe_ite (tamperPulse_safe H) H
  exact updLog_safe h1

theorem wardenEntry_safe {faults : List Nat} (H : Safe z s) : Safe z (s.wardenEntry faults) := by
  unfold State.wardenEntry
  extract_lets s1 s2 s3 s4 s5 s6
  have h1 : Safe z s1 := sense_safe (sense_safe (logTorn_safe
    (enterStage_safe (startFirst_safe (onWd_safe H (fun _ => rfl) (fun _ => rfl))) (by decide))))
  have h2 : Safe z s2 := takeVbat_safe (takeStored_safe (takeCommitted_safe (readP0_safe (takeFactory_safe h1))))
  have h3 : Safe z s3 := takeResponses_safe (takeAonLoss_safe h2)
  have h4 : Safe z s4 := loadLedger_safe (clearTorn_safe (repairRecord_safe (restoreKeys_safe h3)))
  have h5 : Safe z s5 := safe_foldl (fun _ _ h => resolvePend_safe h) h4
  have h6 : Safe z s6 := safe_ite (log_safe h5) h5
  exact consoleClaim_safe (onPq_safe (newChallenge_safe h6) (fun _ => rfl))

theorem watchdogLog_safe {watched : Nat} (H : Safe z s) : Safe z (s.watchdogLog watched) :=
  drew_safe (log_safe H)

theorem writeEntry_safe {e : LogEntry} (H : Safe z s) : Safe z (s.writeEntry e) := by
  unfold State.writeEntry
  exact onWd_safe (wr_safe H) (fun _ => rfl) (fun _ => rfl)

theorem writeInstant_safe {d : StreamDue} (H : Safe z s) : Safe z (s.writeInstant d) := by
  unfold State.writeInstant
  extract_lets x singles s1 frame
  have h1 : Safe z s1 := safe_foldl (fun _ _ h => qGroup_safe h) H
  exact safe_ite h1 (qGroup_safe h1)

theorem xcheckFail_safe {k c : Nat} {live : Bool} (H : Safe z s) : Safe z (s.xcheckFail k c live) := by
  unfold State.xcheckFail
  extract_lets good s1
  have h1 : Safe z s1 := onStand_safe H
  exact condemn_safe h1

theorem loadSets_safe {l : List (Nat × List Byte)} (H : Safe z s) : Safe z (loadSets s l).1 := by
  induction l generalizing s with
  | nil => exact H
  | cons e r ih =>
    obtain ⟨c, bs⟩ := e
    unfold loadSets
    have hk : Safe z (s.keepPut c bs).1 := keepPut_safe H
    refine safe_ite_fst H (safe_ite_fst H ?_)
    split
    next _ he => exact safe_fst he hk
    next s1 he =>
      have h1 : Safe z s1 := safe_fst he hk
      exact ih (safe_ite (writeBankA_safe h1) (onFilt_safe h1))

theorem applyPackage_safe (H : Safe z s) : Safe z (applyPackage s).1 := by
  unfold applyPackage
  extract_lets k b l
  refine safe_ite_fst ?_ (safe_ite_fst H (safe_ite_fst ?_ ?_))
  · split
    next _ _ heq =>
      exact safe_pair (onHm_safe (safe_fst heq (storeLayout_safe H)))
    next _ _ heq =>
      exact safe_pair (safe_fst heq (storeLayout_safe H))
  · split
    · exact H
    · split
      next _ _ heq1 =>
        exact safe_pair (safe_fst heq1 (loadSets_safe H))
      · exact H
      · exact loadSets_safe H
  · split
    · exact H
    · split
      next _ _ heq1 =>
        exact safe_pair (safe_fst heq1 (commitMembers_safe H))
      next _ _ heq1 =>
        exact safe_pair (safe_fst heq1 (commitMembers_safe H))

theorem armSequencer_safe {seq : Nat} {a : ArmIn} {job : Job} (H : Safe z s) : AnsSafe z (armSequencer seq a job s) := by
  unfold armSequencer
  extract_lets x s1 s11 wait s2
  have h1 : Safe z s1 := onSeq_safe H
  have h11 : Safe z s11 := seqInstall_safe H
  have h2 : Safe z s2 := safe_ite (seqTrigger_safe (onRtc_safe h11 (fun _ => by simp))) h11
  exact anssafe_ite (.mk h1) (.mk h2)

theorem consoleServe_safe {cmd : String} {x : LineIn} {minStage : Nat} {bad : List Nat → Bool}
    {run : List Nat → State → State × List Byte} (H : Safe z s) (hr : ∀ l s, Safe z s → Safe z (run l s).1) :
    Safe z (consoleServe cmd x minStage bad run s) := by
  unfold consoleServe
  extract_lets st s1 r
  have h1 : Safe z s1 := onLk_safe H (fun _ => rfl)
  have h2 : Safe z r.1 := safe_ite_fst h1 (hr _ _ h1)
  exact safe_ite H (onHm_safe h2)

theorem coppiceAct_safe {stand : Nat} {permitted : Stand → Bool} {f : State → Nat → State × Bool}
    (hf : ∀ s k, Safe z s → Safe z (f s k).1) (H : Safe z s) : AnsSafe z (coppiceAct stand permitted f s) := by
  refine .mk (safe_foldl_fst (fun p a h => ?_) H)
  dsimp only
  split
  · exact hf _ _ h
  · exact h

theorem pathCheckAct_safe {chan : Nat} {baseline : Bool} (H : Safe z s) : AnsSafe z (pathCheckAct chan baseline s) := by
  unfold pathCheckAct
  extract_lets s1
  have h1 : Safe z s1 := queueCheck_safe H
  exact .mk h1

theorem pauseStand_safe {k : Nat} (H : Safe z s) : Safe z (pauseStand s k).1 :=
  safe_ite_fst (safe_pair (onStand_safe H)) (safe_ite_fst
    (safe_pair (onStand_safe (moveSpare_safe (abortSpareRest_safe H)))) (safe_pair (onStand_safe H)))

theorem pinStand_safe {c k : Nat} (H : Safe z s) : Safe z (pinStand c s k).1 :=
  safe_ite_fst H (safe_ite_fst (safe_pair (onStand_safe (splice_safe (takeMatch_safe H))))
    (safe_ite_fst (safe_pair (onStand_safe H)) (safe_pair
    (onStand_safe (moveSpare_safe (unpin_safe (abortSpareRest_safe H)))))))

theorem queueReadAct_safe {ackSeq maxWords : Nat} (H : Safe z s) : AnsSafe z (queueReadAct ackSeq maxWords s) := by
  unfold queueReadAct
  refine anssafe_ite ?_ ?_
  · extract_lets sent bs
    exact .mk H
  · extract_lets x q l n q1 bs
    exact .mk (onQu_safe H)

theorem refuse_safe {op : Op} {st : Status} (H : Safe z s) : AnsSafe z (refuse s op st) :=
  .mk H

theorem rotateStand_safe {k : Nat} (H : Safe z s) : Safe z (rotateStand s k).1 := by
  unfold rotateStand
  extract_lets d s1
  have h1 : Safe z s1 := onStand_safe (unpin_safe H)
  exact safe_ite_fst h1 (safe_pair (shadowFor_safe h1))

theorem serveNow_safe {op : Op} {h : Hdr} {lenOk : Bool} {checks : State → List (Bool × Status)} {act : State → Ans}
    (H : Safe z s) (ha : ∀ s, Safe z s → AnsSafe z (act s)) :
    Safe z (serveNow op h lenOk checks act s) := by
  unfold serveNow
  refine safe_ite H (safe_ite ?_ (safe_ite (answer_safe (secFail_safe H)) ?_))
  · split
    · exact answer_safe H
    · exact onLk_safe H (fun _ => rfl)
    · exact H
  · extract_lets s1 a
    have h1 : Safe z s1 := onLk_safe (secPass_safe H) (fun _ => rfl)
    have ha1 : AnsSafe z a := ha _ h1
    refine safe_ite (answer_safe h1) (safe_ite (answer_safe h1) (safe_ite (answer_safe h1) ?_))
    split
    · exact answer_safe h1
    · exact answer_safe ha1

theorem serve_safe {op : Op} {h : Hdr} {lenOk : Bool} {checks : State → List (Bool × Status)} {act : State → Ans}
    (H : Safe z s) (ha : ∀ s, Safe z s → AnsSafe z (act s)) :
    Safe z (serve op h lenOk checks act s) :=
  serveNow_safe (settled_safe H) (fun _ h1 => ha _ h1)

theorem showing_safe {bytes : State → List Nat → List Byte} {args : List Nat} (H : Safe z s) :
    Safe z (showing bytes args s).1 :=
  H

theorem skipChecks_safe {k n : Nat} (H : Safe z s) : Safe z (skipChecks s k n) := by
  induction n generalizing s with
  | zero => exact H
  | succ n ih =>
    unfold skipChecks
    split
    · exact H
    · exact safe_ite (ih (seqChecked_safe (onStand_safe (baseFailLog_safe (setCheckResult_safe H))))) H

end Sys2Proof.Machine
end

section
/-! LEMMAS. Every arm of `exec` is safe (R22, R26, R338, R416). -/

namespace Sys2Proof.Machine

variable {z s : State}

theorem execTamperEvaluation_safe {x : TamperIn} (H : Safe z s) : OutSafe z (execTamperEvaluation x s) := by
  unfold execTamperEvaluation
  refine outsafe_ite ?_ (.next H)
  exact .next (safe_foldl (fun _ _ h => tamperCond_safe h) (safe_ite H (raiseAll_safe H)))

theorem execTamperPersistExpiry_safe {slot : Fin 32} (H : Safe z s) : OutSafe z (execTamperPersistExpiry slot s) :=
  outsafe_ite (.next (tamperRaise_safe H)) (.next H)

theorem execClearing_safe (H : Safe z s) : OutSafe z (execClearing s) := by
  unfold execClearing
  split
  · exact .next H
  · exact outsafe_ite (.next H) (.next (clearOnce_safe (onTp_safe H (fun _ => rfl) (fun _ => rfl))))

theorem execClearPendingResume_safe (H : Safe z s) : OutSafe z (execClearPendingResume s) := by
  unfold execClearPendingResume
  refine outsafe_ite ?_ (.next H)
  exact .next (safe_foldl (fun _ _ h => clearOnce_safe h) (onTp_safe H (fun _ => rfl) (fun _ => rfl)))

theorem execClockMonitorWindow_safe {clock : Fin 3} {d a : DetIn} (H : Safe z s) :
    OutSafe z (execClockMonitorWindow clock d a s) := by
  unfold execClockMonitorWindow
  refine outsafe_ite (.next H) ?_
  extract_lets detD detA run s1
  have h1 : Safe z s1 := onTp_safe H (fun _ => rfl) (fun _ => by simp)
  split
  · extract_lets both s2
    have h2 : Safe z s2 := tamperCond_safe h1
    exact .next (tamperCond_safe h2)

theorem execMonitorInjection_safe {d a : InjectIn} (H : Safe z s) : OutSafe z (execMonitorInjection d a s) := by
  unfold execMonitorInjection
  refine outsafe_ite (.next H) ?_
  extract_lets fails s1
  have h1 : Safe z s1 := onTp_safe H (fun _ => rfl) (fun _ => rfl)
  exact .next (tamperCond_safe h1)

theorem execKeystoreCheck_safe {ok : Bool} (H : Safe z s) : OutSafe z (execKeystoreCheck ok s) :=
  outsafe_ite (.next H) (.next (restoreKeys_safe (tamperCond_safe (onTp_safe H (fun _ => rfl) (fun _ => rfl)))))

theorem execTrngHealthFail_safe (H : Safe z s) : OutSafe z (execTrngHealthFail s) :=
  outsafe_ite (.next H) (.next (tamperCond_safe (onTp_safe H (fun _ => rfl) (fun _ => rfl))))

theorem execTrngRestart_safe {ok : Bool} (H : Safe z s) : OutSafe z (execTrngRestart ok s) :=
  outsafe_ite (.next H) (outsafe_ite (.next (tamperCond_safe (onTp_safe H (fun _ => rfl) (fun _ => rfl))))
    (.next (onTp_safe H (fun _ => rfl) (fun _ => rfl))))

theorem execJtagUpdateIr_safe {ir : BitVec 5} (H : Safe z s) : OutSafe z (execJtagUpdateIr ir s) := by
  unfold execJtagUpdateIr
  refine outsafe_ite (.next H) (outsafe_ite (.next (tamperClear_safe (onTp_safe H (fun _ => rfl) (fun _ => rfl)))) ?_)
  extract_lets s1
  have h1 : Safe z s1 := onTp_safe H (fun _ => rfl) (fun _ => rfl)
  exact outsafe_ite (.next h1) (.next (tamperRaise_safe h1))

theorem execJtagReset_safe (H : Safe z s) : OutSafe z (execJtagReset s) :=
  outsafe_ite (.next H) (.next (tamperClear_safe (onTp_safe H (fun _ => rfl) (fun _ => rfl))))

theorem execTamperRead_safe {h : Hdr} (H : Safe z s) : OutSafe z (execTamperRead h s) :=
  .next (serve_safe H (fun _ h1 => .mk h1))

theorem execTamperAck_safe {h : Hdr} {mask : Nat} {signature : Option SigIn} (H : Safe z s) :
    OutSafe z (execTamperAck h mask signature s) := by
  unfold execTamperAck
  refine .next (serve_safe H (fun s1 h1 => ?_))
  extract_lets s11 s2
  have h11 : Safe z s11 := safe_foldl (fun _ _ h2 => log_safe (onSlot_safe h2)) h1
  have h2 : Safe z s2 := safe_ite (newChallenge_safe h11) h11
  exact .mk h2

theorem execKeyAgree_safe {h : Hdr} {hostPub : List Byte} {keyLen : Nat} (H : Safe z s) :
    OutSafe z (execKeyAgree h hostPub keyLen s) := by
  unfold execKeyAgree
  refine outsafe_ite (.fault _) (.next (serve_safe H (fun s1 h1 => ?_)))
  extract_lets eph secret sig s11
  have h11 : Safe z s11 := onTp_safe (drew_safe h1) (fun _ => rfl) (fun _ => rfl)
  exact .mk h11

theorem execProvisionGenerate_safe {h : Hdr} {badPhase : Bool} (H : Safe z s) :
    OutSafe z (execProvisionGenerate h badPhase s) := by
  unfold execProvisionGenerate
  refine .next (serve_safe H (fun s1 h1 => anssafe_ite (.mk (fragAdd_safe h1)) ?_))
  extract_lets k
  split
  next _ _ _ heq =>
    extract_lets s11
    have h11 : Safe z s11 := newChallenge_safe (onTp_safe (safe_fst heq (itemPut_safe (fragEnd_safe h1))) (fun _ => rfl)
      (fun _ => rfl))
    exact anssafe_ite (.mk (safe_fst heq (itemPut_safe (fragEnd_safe h1)))) (.mk h11)

theorem installPws_safe {decrypted : Option (List Nat)} (H : Safe z s) (hd : ¬ (decrypted.any fun l => l.length != 8) = true) :
    Safe z (s.onSe fun e => { e with pws := (decrypted.map fun l => l.map fun v => ⟨1, pwDigest v⟩).getD e.pws }) :=
  H.of rfl rfl fun hi => inv_of hi rfl rfl rfl rfl fun hs => by
    unfold State.Shape at hs ⊢
    cases decrypted with
    | none => exact hs
    | some l =>
      have hl : l.length = 8 := by simpa using hd
      simp [hs, hl]

theorem execProvisionInstall_safe {h : Hdr} {params : List Byte} {decrypted : Option (List Nat)} {signature : SigIn}
    (H : Safe z s) : OutSafe z (execProvisionInstall h params decrypted signature s) := by
  unfold execProvisionInstall
  split
  case isTrue => exact .fault _
  case isFalse hd =>
    extract_lets msg flags key
    refine .next (serve_safe H fun s1 h1 => anssafe_ite (.mk (fragAdd_safe h1)) ?_)
    extract_lets x
    have hx : Safe z x := fragEnd_safe h1
    clear_value x key flags
    have hp := storePw_safe (installPws_safe hx hd)
    split
    next s2 ok he =>
      have h2 : Safe z s2 := safe_fst he hp
      have h3 : Safe z (if !ok || !bitAt flags 0 then (s2, ok)
          else (s2.onTp fun t => { t with owner := some key }).itemPut 0 [ownerRec] key).1 :=
        safe_ite_fst h2 (itemPut_safe (onTp_safe h2 (fun _ => rfl) (fun _ => rfl)))
      split
      next s3 ok' he' =>
        have h3 : Safe z s3 := safe_fst he' h3
        exact anssafe_ite (.mk (log_safe (newChallenge_safe h3))) (.mk ((h3.withSe hx).withTp hx))

theorem execSnapshotArm_safe {h : Hdr} {seq : Nat} {arm : ArmIn} (H : Safe z s) :
    OutSafe z (execSnapshotArm h seq arm s) :=
  .next (serve_safe H (fun _ h1 => armSequencer_safe h1))

theorem execSeqStart_safe {h : Hdr} {seq : Nat} {arm : ArmIn} {chans : List Nat} (H : Safe z s) :
    OutSafe z (execSeqStart h seq arm chans s) :=
  .next (serve_safe H (fun _ h1 => armSequencer_safe h1))

theorem execSequencerTimeTick_safe {seq : Fin 4} (H : Safe z s) : OutSafe z (execSequencerTimeTick seq s) := by
  unfold execSequencerTimeTick
  extract_lets q t
  split
  · refine outsafe_ite ?_ (.next H)
    extract_lets s1
    have h1 : Safe z s1 := onSeq_safe H
    exact .next (seqTrigger_safe h1)
  · exact .next H

theorem execQueueEntryWrite_safe (H : Safe z s) : OutSafe z (execQueueEntryWrite s) := by
  unfold execQueueEntryWrite
  split
  · exact .next H
  · exact .next (writeInstant_safe (onQu_safe H))

theorem execQueueStreamStart_safe {h : Hdr} {push : Nat} {badAction : Bool} (H : Safe z s) :
    OutSafe z (execQueueStreamStart h push badAction s) := by
  unfold execQueueStreamStart
  refine .next (serve_safe H (fun s1 h1 => ?_))
  extract_lets s11
  have h11 : Safe z s11 := safe_ite h1 (onQu_safe h1)
  exact .mk h11

theorem execQueueStreamStop_safe {h : Hdr} {push : Nat} (H : Safe z s) : OutSafe z (execQueueStreamStop h push s) := by
  unfold execQueueStreamStop
  refine .next (serve_safe H (fun s1 h1 => ?_))
  extract_lets s11
  have h11 : Safe z s11 := safe_ite (onQu_safe h1) h1
  exact .mk h11

theorem execQueueRead_safe {h : Hdr} {ackSeq maxWords : Nat} (H : Safe z s) :
    OutSafe z (execQueueRead h ackSeq maxWords s) :=
  .next (serve_safe H (fun _ h1 => queueReadAct_safe h1))

theorem execQueuePush_safe (H : Safe z s) : OutSafe z (execQueuePush s) :=
  outsafe_ite (.next H) (outsafe_ite (.next (drew_safe (onQu_safe (enqueue_safe (charge_safe H)))))
    (outsafe_ite (.next H) (.next (onNt_safe (onQu_safe H) (fun _ => rfl)))))

theorem execSnapshotWrite_safe {seq : Fin 4} (H : Safe z s) : OutSafe z (execSnapshotWrite seq s) := by
  unfold execSnapshotWrite
  extract_lets q np nw oW all tw
  split
  · refine outsafe_ite (.next H) ?_
    split
    · extract_lets oP
      split
      · extract_lets s1
        have h1 : Safe z s1 := qGroup_safe H
        exact .next (seqEnd_safe h1)
    · exact .next (safe_ite (seqEnd_safe H) H)
  · exact .next H

theorem execSlotStart_safe {stand : Fin 4} (H : Safe z s) : OutSafe z (execSlotStart stand s) := by
  unfold execSlotStart
  extract_lets k d n s0 s1 c
  have h0 : Safe z s0 := safe_ite (pioUpdate_safe H) H
  have h1 : Safe z s1 := onStand_safe (takeScheduled_safe h0)
  exact outsafe_ite (.next H) (outsafe_ite (.next h1)
    (outsafe_ite (.next (skipSlot_safe (onStand_safe h1)))
    (outsafe_ite (.next (restBegin_safe (onStand_safe h1)))
    (outsafe_ite (.next (skipSlot_safe (moveSpare_safe h1))) (.next (moveSpare_safe h1))))))

theorem execFirstOverlapEnd_safe {stand : Fin 4} (H : Safe z s) : OutSafe z (execFirstOverlapEnd stand s) := by
  unfold execFirstOverlapEnd
  extract_lets k d c m live skips
  have hskips : Safe z skips := safe_ite H (skipSlot_safe (onStand_safe H))
  exact outsafe_ite (.next H) (outsafe_ite (.next hskips)
    (outsafe_ite (.next (xcheckFail_safe H)) (outsafe_ite (.next (spliceIn_safe (takeMatch_safe H)))
    (outsafe_ite (.next (spliceIn_safe (takeMatch_safe H))) (.next hskips)))))

theorem execRestSourceSwitch_safe {stand : Fin 4} (H : Safe z s) : OutSafe z (execRestSourceSwitch stand s) := by
  unfold execRestSourceSwitch
  extract_lets k
  split
  · exact .next H
  · exact outsafe_ite (.next H) (.next (unsettle_safe (onStand_safe H)))

theorem execRestAcceptance_safe {stand : Fin 4} (H : Safe z s) : OutSafe z (execRestAcceptance stand s) := by
  unfold execRestAcceptance
  refine outsafe_ite (.next H) ?_
  split
  · exact .next H
  · split
    · exact .next H
    · extract_lets s1
      have h1 : Safe z s1 := onStand_safe (restCount_safe H)
      exact outsafe_ite (.next (newTrims_safe h1)) (.next (condemn_safe h1))

theorem execHomeReturn_safe {stand : Fin 4} (H : Safe z s) : OutSafe z (execHomeReturn stand s) :=
  outsafe_ite (.next (unsettle_safe (onStand_safe H))) (.next H)

theorem execSpliceBack_safe {stand : Fin 4} (H : Safe z s) : OutSafe z (execSpliceBack stand s) :=
  outsafe_ite (.next H) (outsafe_ite (.next (xcheckFail_safe H))
    (outsafe_ite (.next H) (.next (afterBack_safe (onStand_safe (loadDone_safe (splice_safe (takeMatch_safe H))))))))

theorem execPreshadowConnect_safe {stand : Fin 4} (H : Safe z s) : OutSafe z (execPreshadowConnect stand s) :=
  outsafe_ite (.next (onStand_safe (moveSpare_safe H))) (.next H)

theorem execCoppiceQuery_safe {h : Hdr} {stand : Nat} {badAction : Bool} (H : Safe z s) :
    OutSafe z (execCoppiceQuery h stand badAction s) :=
  .next (serve_safe H (fun _ h1 => .mk h1))

theorem execCoppicePause_safe {h : Hdr} {stand : Nat} (H : Safe z s) : OutSafe z (execCoppicePause h stand s) :=
  .next (serve_safe H (fun _ h1 => coppiceAct_safe (fun _ _ h2 => pauseStand_safe h2) h1))

theorem execCoppiceRotate_safe {h : Hdr} {stand : Nat} (H : Safe z s) : OutSafe z (execCoppiceRotate h stand s) :=
  .next (serve_safe H (fun _ h1 => coppiceAct_safe (fun _ _ h2 => rotateStand_safe h2) h1))

theorem execCoppicePin_safe {h : Hdr} {stand target : Nat} (H : Safe z s) : OutSafe z (execCoppicePin h stand target s) :=
  .next (serve_safe H (fun _ h1 => coppiceAct_safe (fun _ _ h2 => pinStand_safe h2) h1))

theorem execCoppiceUnpin_safe {h : Hdr} {stand : Nat} (H : Safe z s) : OutSafe z (execCoppiceUnpin h stand s) :=
  .next (serve_safe H (fun _ h1 => coppiceAct_safe (fun _ _ h2 => safe_pair (unpin_safe h2)) h1))

theorem execCoppiceShadow_safe {h : Hdr} {stand target : Nat} (H : Safe z s) :
    OutSafe z (execCoppiceShadow h stand target s) :=
  .next (serve_safe H (fun _ h1 => coppiceAct_safe (fun _ _ h2 => safe_pair (onStand_safe (moveSpare_safe h2))) h1))

theorem execCoppiceRequalify_safe {h : Hdr} {stand target : Nat} (H : Safe z s) :
    OutSafe z (execCoppiceRequalify h stand target s) :=
  .next (serve_safe H (fun _ h1 => coppiceAct_safe
    (fun _ _ h2 => safe_pair (onStand_safe (restBegin_safe (endRequal_safe h2)))) h1))

theorem execRequalifyResult_safe {stand : Fin 4} (H : Safe z s) : OutSafe z (execRequalifyResult stand s) := by
  unfold execRequalifyResult
  extract_lets k
  split
  · exact .next H
  · split
    · exact .next H
    · extract_lets s1 s2 s3
      have h1 : Safe z s1 := onStand_safe (restCount_safe H)
      have h2 : Safe z s2 := onStand_safe (onConv_safe (newTrims_safe h1))
      have h3 : Safe z s3 := log_safe (storeDevice_safe h2)
      exact outsafe_ite (.next (safe_ite (requalHome_safe h3) (requalSpare_safe h3)))
        (.next (coppiceDone_safe (onStand_safe h1)))

theorem execFilterStop_safe {h : Hdr} {chan : Nat} (H : Safe z s) : OutSafe z (execFilterStop h chan s) := by
  unfold execFilterStop
  refine .next (serve_safe H (fun s1 h1 => ?_))
  extract_lets s11
  have h11 : Safe z s11 := safe_ite h1 (filterStop_safe h1)
  exact .mk h11

theorem execFilterLoad_safe {h : Hdr} {chan : Nat} {keep : Bool} {set : List Byte} (H : Safe z s) :
    OutSafe z (execFilterLoad h chan keep set s) := by
  unfold execFilterLoad
  refine .next (serve_safe H (fun s1 h1 => ?_))
  split
  next _ _ _ heq =>
    refine anssafe_ite (.mk (safe_fst heq (safe_ite_fst (keepPut_safe h1) h1))) (anssafe_ite ?_ ?_)
    · extract_lets s21
      have h21 : Safe z s21 := writeBankA_safe (safe_fst heq (safe_ite_fst (keepPut_safe h1) h1))
      exact .mk h21
    · extract_lets s21
      have h21 : Safe z s21 := onFilt_safe (safe_fst heq (safe_ite_fst (keepPut_safe h1) h1))
      exact .mk h21

theorem execFilterStart_safe {h : Hdr} {chan : Nat} (H : Safe z s) : OutSafe z (execFilterStart h chan s) := by
  unfold execFilterStart
  refine .next (serve_safe H (fun s1 h1 => ?_))
  extract_lets s11
  have h11 : Safe z s11 := safe_ite (filterStart_safe h1) h1
  exact .mk h11

theorem execBankWrite_safe {h : Hdr} {chan : Nat} {set : List Byte} (H : Safe z s) :
    OutSafe z (execBankWrite h chan set s) := by
  unfold execBankWrite
  refine .next (serve_safe H (fun s1 h1 => ?_))
  extract_lets b s11
  have h11 : Safe z s11 := onInsts_safe (onFilt_safe h1)
  exact .mk h11

theorem execBankSwap_safe {h : Hdr} {chan prime fade : Nat} (H : Safe z s) :
    OutSafe z (execBankSwap h chan prime fade s) := by
  unfold execBankSwap
  refine .next (serve_safe H (fun s1 h1 => anssafe_ite ?_ ?_))
  · extract_lets s11
    have h11 : Safe z s11 := holdSwap_safe h1
    exact .mk h11
  · extract_lets s11
    have h11 : Safe z s11 := startSwap_safe h1
    exact .mk h11

theorem execBankSwapFadeStart_safe {chan : Fin 36} (H : Safe z s) : OutSafe z (execBankSwapFadeStart chan s) := by
  unfold execBankSwapFadeStart
  split
  · exact .next H
  · exact outsafe_ite (.next H) (.next (onFilt_safe H))

theorem execBankSwapEnd_safe {chan : Fin 36} (H : Safe z s) : OutSafe z (execBankSwapEnd chan s) := by
  unfold execBankSwapEnd
  split
  · exact .next H
  · refine outsafe_ite (.next H) ?_
    extract_lets s1
    have h1 : Safe z s1 := onFilt_safe H
    split
    · exact .next h1
    · exact .next (startSwap_safe h1)

theorem execRecorderQuery_safe {h : Hdr} {unit : Nat} {badAction : Bool} (H : Safe z s) :
    OutSafe z (execRecorderQuery h unit badAction s) :=
  .next (serve_safe H (fun _ h1 => .mk h1))

theorem execRecorderArm_safe {h : Hdr} {unit : Nat} (H : Safe z s) : OutSafe z (execRecorderArm h unit s) := by
  unfold execRecorderArm
  refine .next (serve_safe H (fun s1 h1 => ?_))
  extract_lets b s11
  have h11 : Safe z s11 := onUnit_safe h1
  exact .mk h11

theorem execRecorderStop_safe {h : Hdr} {unit : Nat} (H : Safe z s) : OutSafe z (execRecorderStop h unit s) := by
  unfold execRecorderStop
  refine .next (serve_safe H (fun s1 h1 => ?_))
  extract_lets s11
  have h11 : Safe z s11 := onUnit_safe h1
  exact .mk h11

theorem execRecorderTrigger_safe {h : Hdr} {unit : Nat} (H : Safe z s) : OutSafe z (execRecorderTrigger h unit s) := by
  unfold execRecorderTrigger
  refine .next (serve_safe H (fun s1 h1 => ?_))
  extract_lets s11
  have h11 : Safe z s11 := capture_safe h1
  exact .mk h11

theorem execCaptureTrigger_safe {unit : Fin 4} (H : Safe z s) : OutSafe z (execCaptureTrigger unit s) := by
  unfold execCaptureTrigger
  split
  · exact .next H
  · exact .next (capture_safe (onUnit_safe H))

theorem execCaptureDone_safe {unit : Fin 4} (H : Safe z s) : OutSafe z (execCaptureDone unit s) := by
  unfold execCaptureDone
  split
  · refine outsafe_ite (.next H) ?_
    extract_lets s1
    have h1 : Safe z s1 := irq_safe (qX_safe H)
    exact .next (onUnit_safe h1)
  · exact .next H

theorem execCaptureRead_safe {h : Hdr} {unit no offset maxBytes : Nat} (H : Safe z s) :
    OutSafe z (execCaptureRead h unit no offset maxBytes s) := by
  unfold execCaptureRead
  refine .next (serve_safe H (fun s1 h1 => ?_))
  split
  · exact refuse_safe h1
  · extract_lets bs s11
    have h11 : Safe z s11 := onUnit_safe h1
    exact .mk h11

theorem execCaptureRelease_safe {h : Hdr} {unit no : Nat} (H : Safe z s) : OutSafe z (execCaptureRelease h unit no s) := by
  unfold execCaptureRelease
  refine .next (serve_safe H (fun s1 h1 => ?_))
  extract_lets s11
  have h11 : Safe z s11 := onUnit_safe h1
  exact .mk h11

theorem execCaptureReadTimeout_safe {unit : Fin 4} {no : Nat} (H : Safe z s) :
    OutSafe z (execCaptureReadTimeout unit no s) :=
  outsafe_ite (.next (onUnit_safe H)) (.next H)

theorem execPathCheck_safe {h : Hdr} {chan : Nat} {badMode : Bool} (H : Safe z s) :
    OutSafe z (execPathCheck h chan badMode s) :=
  .next (serve_safe H (fun _ h1 => pathCheckAct_safe h1))

theorem execPathCheckBaseline_safe {h : Hdr} {chan : Nat} (H : Safe z s) : OutSafe z (execPathCheckBaseline h chan s) :=
  .next (serve_safe H (fun _ h1 => pathCheckAct_safe h1))

theorem execPathCheckStart_safe {stand : Fin 4} (H : Safe z s) : OutSafe z (execPathCheckStart stand s) := by
  unfold execPathCheckStart
  extract_lets k s1
  have h1 : Safe z s1 := skipChecks_safe H
  refine outsafe_ite (.next H) ?_
  split
  · exact .next (probeBegin_safe h1)
  · split
    · exact .next (probeBegin_safe h1)
    · exact .next h1

theorem execPathCheckComplete_safe {stand : Fin 4} (H : Safe z s) : OutSafe z (execPathCheckComplete stand s) := by
  unfold execPathCheckComplete
  extract_lets k d s0
  have h0 : Safe z s0 := onStand_safe H
  split
  · exact .next H
  · refine outsafe_ite (.next H) ?_
    extract_lets s1
    have h1 : Safe z s1 := safe_ite (baseFailLog_safe (setCheckResult_safe h0))
      (safe_ite (baseFailLog_safe (setCheckResult_safe h0)) (cleanCheck_safe h0))
    exact .next (seqChecked_safe h1)

theorem execDspFrame_safe {frames : List (List ConvIn)} (H : Safe z s) : OutSafe z (execDspFrame frames s) := by
  unfold execDspFrame
  split
  case isTrue => exact .fault _
  case isFalse hf =>
    have hl : ∀ f ∈ frames, f.length = 40 := fun f h => frame_length (by simpa using hf) h
    refine outsafe_ite (.next H) ?_
    extract_lets s0 t outs fv pv bad s1 s2 s3 s4 s5
    have h0 : Safe z s0 := List.foldlRecOn frames _ H fun _ h f hm => intake_safe h (hl f hm)
    have h1 : Safe z s1 := cfFrame_safe (energyFrame_safe h0)
    have h2 : Safe z s2 := safe_foldl (fun _ _ h => standFrame_safe h) h1
    have h3 : Safe z s3 := pqFrame_safe (pushWave_safe (pushSnap_safe (chainStep_safe h2 (by simp [outs]))))
    have h4 : Safe z s4 := units_safe h3 (by simp)
    have h5 : Safe z s5 := safe_foldl (fun _ _ h => condemn_safe h) h4
    exact .next (drew_safe (alignStep_safe (countFrame_safe h5)))

theorem execCfPulseEnd_safe {k : Fin 8} (H : Safe z s) : OutSafe z (execCfPulseEnd k s) :=
  outsafe_ite (.next H) (.next (onMe_safe H))

theorem execBlockBoundary_safe (H : Safe z s) : OutSafe z (execBlockBoundary s) := by
  unfold execBlockBoundary
  refine outsafe_ite (.next H) ?_
  extract_lets s1 b t s11 s2 s3 s4 s5 s6 s7
  have h1 : Safe z s1 := reloadPass_safe H
  have h11 : Safe z s11 := countEstimated_safe (closeEngines_safe h1)
  have h2 : Safe z s2 := judgeBlock_safe h11
  have h3 : Safe z s3 := latchSnap_safe (onMe_safe h2)
  have h4 : Safe z s4 := pioBegin_safe (books_safe h3)
  have h5 : Safe z s5 := safe_foldl (fun _ _ h => clearMax_safe h) h4
  have h6 : Safe z s6 := applyBlock_safe (supraStep_safe h5)
  have h7 : Safe z s7 := latchDisplay_safe (latchChans_safe h6)
  exact .next (checkpoint_safe (drew_safe h7))

theorem execDemandSubintervalEnd_safe (H : Safe z s) : OutSafe z (execDemandSubintervalEnd s) := by
  unfold execDemandSubintervalEnd
  split
  · exact .next H
  · split
    · exact .next H
    · exact outsafe_ite (.next H)
        (outsafe_ite (.next (onMe_safe (takeScheduled_safe (onMe_safe H)))) (.next (onMe_safe H)))

theorem execDemandReset_safe {h : Hdr} {circuit : Nat} (H : Safe z s) : OutSafe z (execDemandReset h circuit s) :=
  .next (serve_safe H (fun _ h1 => .mk (onMe_safe h1)))

theorem execEnergyRead_safe {h : Hdr} {source level first count mask : Nat} (H : Safe z s) :
    OutSafe z (execEnergyRead h source level first count mask s) :=
  .next (serve_safe H (fun _ h1 => .mk h1))

theorem execCfTestStart_safe {h : Hdr} {mask durationS : Nat} {badAction : Bool} (H : Safe z s) :
    OutSafe z (execCfTestStart h mask durationS badAction s) := by
  unfold execCfTestStart
  refine .next (serve_safe H (fun s1 h1 => ?_))
  extract_lets l s11
  have h11 : Safe z s11 := onMe_safe h1
  exact .mk (log_safe h11)

theorem execCfTestStop_safe {h : Hdr} (H : Safe z s) : OutSafe z (execCfTestStop h s) :=
  .next (serve_safe H (fun _ h1 => .mk (endCfTest_safe h1)))

theorem execCfTestExpiry_safe (H : Safe z s) : OutSafe z (execCfTestExpiry s) :=
  outsafe_ite (.next H) (outsafe_ite (.next (leaveCfTest_safe H)) (.next H))

theorem execStuckDetected_safe {conv : Fin 40} (H : Safe z s) : OutSafe z (execStuckDetected conv s) :=
  outsafe_ite (.next H) (.next (condemn_safe (onConv_safe H)))

theorem execModulatorOverloadReset_safe {conv : Fin 40} (H : Safe z s) : OutSafe z (execModulatorOverloadReset conv s) :=
  outsafe_ite (.next H) (.next (unsettle_safe (onConv_safe H)))

theorem execRefComparisonResult_safe {raw : Nat} (H : Safe z s) : OutSafe z (execRefComparisonResult raw s) := by
  unfold execRefComparisonResult
  refine outsafe_ite (.next H) ?_
  extract_lets ratio old s0 dev out s1
  have h0 : Safe z s0 := safe_ite (log_safe (onRef_safe (setBaseline_safe H))) H
  have h1 : Safe z s1 := drew_safe (onRef_safe h0)
  exact outsafe_ite (.next (refDisagree_safe h1)) (outsafe_ite (.next (refDisagree_safe h1)) (.next h1))

theorem execRefBaselineCapture_safe (H : Safe z s) : OutSafe z (execRefBaselineCapture s) :=
  outsafe_ite (.next (setBaseline_safe H)) (.next H)

theorem execRefRebase_safe {h : Hdr} {value : Nat} (H : Safe z s) : OutSafe z (execRefRebase h value s) :=
  .next (serve_safe H (fun _ h1 => .mk (onRef_safe h1)))

theorem execRefinOutOfRange_safe (H : Safe z s) : OutSafe z (execRefinOutOfRange s) := by
  unfold execRefinOutOfRange
  refine outsafe_ite ?_ (.next H)
  extract_lets s1 s2
  have h1 : Safe z s1 := onRef_safe H
  have h2 : Safe z s2 := log_safe h1
  exact .next (safe_ite (refDisagree_safe h2) h2)

theorem execSessionOpen_safe {h : Hdr} {part kind password : Nat} (H : Safe z s) :
    OutSafe z (execSessionOpen h part kind password s) := by
  unfold execSessionOpen
  refine .next (serve_safe H (fun s1 h1 => anssafe_ite (.mk (sessionLocked_safe h1))
    (anssafe_ite ?_ (.mk (sessionFail_safe h1)))))
  extract_lets x s11
  have h11 : Safe z s11 := onSe_safe (sessionPass_safe h1) (fun _ => rfl) (fun _ => rfl)
  exact .mk h11

theorem execSessionClose_safe {h : Hdr} {part kind : Nat} (H : Safe z s) : OutSafe z (execSessionClose h part kind s) :=
  .next (serve_safe H (fun _ h1 => .mk (dropSessions_safe h1)))

theorem execPasswordSet_safe {h : Hdr} {part kind new : Nat} {overtaken : Bool} (H : Safe z s) :
    OutSafe z (execPasswordSet h part kind new overtaken s) := by
  unfold execPasswordSet
  refine .next (serve_safe H fun s1 h1 => ?_)
  extract_lets r
  have hr : Safe z r.1 := setPw_safe (landed_safe h1)
  clear_value r
  exact anssafe_ite (.mk (drew_safe (h1.withHw (cutFlight_safe hr)))) (anssafe_ite (.mk hr) (.mk (dropSessions_safe hr)))

theorem execSessionTimeout_safe {path : Path} {part : Nat} {write : Bool} (H : Safe z s) :
    OutSafe z (execSessionTimeout path part write s) :=
  .next (safe_ite H (dropSessions_safe H))

theorem execLockoutExpiry_safe {part : Fin 6} (H : Safe z s) : OutSafe z (execLockoutExpiry part s) :=
  .next (safe_ite H (onLock_safe H))

theorem execNvRead_safe {h : Hdr} {part page offset count : Nat} (H : Safe z s) :
    OutSafe z (execNvRead h part page offset count s) := by
  unfold execNvRead
  refine .next (serve_safe H (fun s1 h1 => ?_))
  exact .mk (sense_safe h1)

theorem execNvWrite_safe {h : Hdr} {part page offset : Nat} {data : List Byte} {pfailAfter : Option Nat} (H : Safe z s) :
    OutSafe z (execNvWrite h part page offset data pfailAfter s) := by
  unfold execNvWrite
  refine .next (serve_safe H fun s1 h1 => ?_)
  extract_lets chunks cut done n s2
  refine .mk (onHw_safe_of_memWf (safe_ite h1 (wrPage_safe h1)) fun hm => ?_)
  dsimp only
  split
  · exact markTorn_wf _ _ hm
  · exact hm

theorem execNvStatusQuery_safe {h : Hdr} {badAction : Bool} (H : Safe z s) :
    OutSafe z (execNvStatusQuery h badAction s) :=
  .next (serve_safe H (fun _ h1 => .mk h1))

theorem execNvStatusAcknowledge_safe {h : Hdr} {part page : Nat} (H : Safe z s) :
    OutSafe z (execNvStatusAcknowledge h part page s) := by
  unfold execNvStatusAcknowledge
  refine .next (serve_safe H fun s1 h1 => ?_)
  exact .mk (onHw_safe_of_memWf h1 fun hm => List.foldlRecOn (motive := fun m => memWf m = true) _ _ hm
    fun _ h _ _ => markTorn_wf _ _ h)

theorem execScrubRead_safe {outcome : ScrubIn} (H : Safe z s) : OutSafe z (execScrubRead outcome s) := by
  unfold execScrubRead
  extract_lets s1 w s11
  have h1 : Safe z s1 := onHw_safe H (fun _ => rfl)
  have h11 : Safe z s11 := onHw_safe (rewriteAll_safe h1) (fun _ => by split <;> rfl)
  exact outsafe_ite (.next h1) (outsafe_ite (.next h11)
    (outsafe_ite (.next (onHw_safe h11 (fun _ => rfl))) (.next (sense_safe h11))))

theorem execCalendarStagingDiscard_safe (H : Safe z s) : OutSafe z (execCalendarStagingDiscard s) :=
  .next (safe_ite (onRtc_safe H (fun _ => rfl)) H)

theorem execRtcGet_safe {h : Hdr} (H : Safe z s) : OutSafe z (execRtcGet h s) :=
  .next (serve_safe H (fun _ h1 => .mk (drew_safe h1)))

theorem execRtcSet_safe {h : Hdr} {flags year month day hour min sec : Nat} (H : Safe z s) :
    OutSafe z (execRtcSet h flags year month day hour min sec s) := by
  unfold execRtcSet
  refine .next (serve_safe H (fun s1 h1 => ?_))
  extract_lets s11 s2
  have h11 : Safe z s11 := adjustCal_safe h1
  have h2 : Safe z s2 := safe_ite (clearOsf_safe h11) h11
  exact .mk (drew_safe h2)

theorem execOsfClear_safe {h : Hdr} {value : Nat} (H : Safe z s) : OutSafe z (execOsfClear h value s) :=
  .next (serve_safe H (fun _ h1 => .mk (osfClearAct_safe h1)))

theorem execAlAck_safe {h : Hdr} {alarm : Fin 4} {value : Nat} (H : Safe z s) : OutSafe z (execAlAck h alarm value s) :=
  .next (serve_safe H (fun _ h1 => .mk (alAck_safe h1)))

theorem execAlarmMatch_safe (H : Safe z s) : OutSafe z (execAlarmMatch s) :=
  .next (safe_ite (matchSecond_safe H) H)

theorem execWakeHoldExpiry_safe (H : Safe z s) : OutSafe z (execWakeHoldExpiry s) :=
  outsafe_ite (.next H) (.next (onRtc_safe H (fun _ => by simp)))

theorem execClock32Stall_safe (H : Safe z s) : OutSafe z (execClock32Stall s) :=
  .next (onRtc_safe H (fun _ => rfl))

theorem execClock32Resume_safe (H : Safe z s) : OutSafe z (execClock32Resume s) :=
  .next (onRtc_safe H (fun _ => rfl))

theorem execRtcFollowMeasurement_safe (H : Safe z s) : OutSafe z (execRtcFollowMeasurement s) := by
  unfold execRtcFollowMeasurement
  refine outsafe_ite (.next H) ?_
  exact .next (drew_safe (onRtc_safe H (fun _ => rfl)))

theorem execTrimLearning_safe (H : Safe z s) : OutSafe z (execTrimLearning s) := by
  unfold execTrimLearning
  split
  · exact .next H
  · refine outsafe_ite ?_ (.next H)
    exact .next (drew_safe (onRtc_safe H (fun _ => rfl)))

theorem execTrimLearnedStore_safe (H : Safe z s) : OutSafe z (execTrimLearnedStore s) :=
  outsafe_ite (.next (storeDevice_safe (onRtc_safe H (fun _ => rfl)))) (.next H)

theorem execCalendarLeapSecond_safe (H : Safe z s) : OutSafe z (execCalendarLeapSecond s) :=
  outsafe_ite (.next (onRtc_safe H (fun _ => rfl)))
    (outsafe_ite (.next (adjustCal_safe (onRtc_safe H (fun _ => rfl)))) (.next H))

theorem execCalendarRangeEnd_safe (H : Safe z s) : OutSafe z (execCalendarRangeEnd s) :=
  outsafe_ite (.next (onRtc_safe H (fun _ => rfl))) (.next H)

theorem execDeferredSeqExpiry_safe {alarm : Fin 4} (H : Safe z s) : OutSafe z (execDeferredSeqExpiry alarm s) :=
  .next (onAlarm_safe H)

theorem execSourceTimeout_safe (H : Safe z s) : OutSafe z (execSourceTimeout s) :=
  outsafe_ite (.next (servoTo_safe H)) (.next H)

theorem execHoldoverLimit_safe (H : Safe z s) : OutSafe z (execHoldoverLimit s) :=
  outsafe_ite (.next (servoTo_safe H)) (.next H)

theorem execLeapSecond_safe (H : Safe z s) : OutSafe z (execLeapSecond s) := by
  unfold execLeapSecond
  extract_lets w t
  have ht : Safe z t := onTe_safe H (fun _ => rfl) (fun _ => rfl)
  exact outsafe_ite (.next (safe_ite (setLeap_safe (setUtc_safe ht)) H))
    (outsafe_ite (.next (safe_ite (setLeap_safe (setUtc_safe ht)) H)) (.next H))

theorem execLeapOccurredClear_safe (H : Safe z s) : OutSafe z (execLeapOccurredClear s) :=
  .next (safe_ite (setLeap_safe H) H)

theorem execLastLockedRateStore_safe (H : Safe z s) : OutSafe z (execLastLockedRateStore s) :=
  outsafe_ite (.next (storeDevice_safe (onTe_safe H (fun _ => rfl) (fun _ => rfl)))) (.next H)

theorem execTimeGet_safe {h : Hdr} (H : Safe z s) : OutSafe z (execTimeGet h s) :=
  .next (serve_safe H (fun _ h1 => .mk h1))

theorem execTimeSet_safe {h : Hdr} {time : Nat} (H : Safe z s) : OutSafe z (execTimeSet h time s) :=
  .next (serve_safe H (fun _ h1 => .mk (acceptStep_safe h1)))

theorem execTimeOffset_safe {h : Hdr} {offset : Int} {meas gmId : Nat} (H : Safe z s) :
    OutSafe z (execTimeOffset h offset meas gmId s) := by
  unfold execTimeOffset
  refine .next (serve_safe H (fun s1 h1 => ?_))
  split
  next _ _ _ heq =>
    exact anssafe_ite (refuse_safe (safe_fst heq (offset_safe h1))) (.mk (safe_fst heq (offset_safe h1)))

theorem execTimeAcceptStep_safe {h : Hdr} (H : Safe z s) : OutSafe z (execTimeAcceptStep h s) := by
  unfold execTimeAcceptStep
  refine .next (serve_safe H (fun s1 h1 => ?_))
  exact .mk (acceptStep_safe h1)

theorem execTxtsRead_safe {h : Hdr} {max : Nat} (H : Safe z s) : OutSafe z (execTxtsRead h max s) := by
  unfold execTxtsRead
  refine .next (serve_safe H (fun s1 h1 => ?_))
  exact .mk (onTe_safe h1 (fun _ => rfl) (fun _ => rfl))

theorem execBlazeArm_safe {h : Hdr} {index : Nat} {badAction : Bool} {flags start period width count : Nat} (H : Safe z s) :
    OutSafe z (execBlazeArm h index badAction flags start period width count s) := by
  unfold execBlazeArm
  refine .next (serve_safe H (fun s1 h1 => ?_))
  extract_lets s11
  have h11 : Safe z s11 := onBlaze_safe h1
  exact .mk h11

theorem execBlazeDisarm_safe {h : Hdr} {index flags start : Nat} (H : Safe z s) :
    OutSafe z (execBlazeDisarm h index flags start s) := by
  unfold execBlazeDisarm
  refine .next (serve_safe H (fun s1 h1 => ?_))
  extract_lets s11
  have h11 : Safe z s11 := onBlaze_safe h1
  exact .mk h11

theorem execBlazeEdge_safe {k : Fin 8} (H : Safe z s) : OutSafe z (execBlazeEdge k s) :=
  outsafe_ite (.next (onBlaze_safe H)) (.next H)

theorem execBlazePulseEnd_safe {k : Fin 8} (H : Safe z s) : OutSafe z (execBlazePulseEnd k s) :=
  .next (onBlaze_safe H)

theorem execNotchCapture_safe {k : Fin 8} {time : Nat} {rising : Bool} {held : Nat} (H : Safe z s) :
    OutSafe z (execNotchCapture k time rising held s) := by
  unfold execNotchCapture
  extract_lets s0 cfg t s1 s2 s3
  have h0 : Safe z s0 := onNotch_safe H
  have h1 : Safe z s1 := onNotch_safe h0
  have h2 : Safe z s2 := safe_ite (irq_safe h1) h1
  have h3 : Safe z s3 := seqTriggerAll_safe h2
  exact outsafe_ite (.next (safe_ite (ppsOffset_safe h3) h3)) (.next h0)

theorem execNotchRead_safe {h : Hdr} {index max : Nat} (H : Safe z s) : OutSafe z (execNotchRead h index max s) := by
  unfold execNotchRead
  refine .next (serve_safe H (fun s1 h1 => ?_))
  exact .mk (onNotch_safe h1)

theorem execCanopyWatchdog_safe {core : Fin 2} (H : Safe z s) : OutSafe z (execCanopyWatchdog core s) :=
  outsafe_ite (.next (trialFail_safe (onWd_safe (tamperPulse_safe (watchdogLog_safe H)) (fun _ => rfl) (fun _ => rfl))))
    (.next H)

theorem execDspWatchdog_safe (H : Safe z s) : OutSafe z (execDspWatchdog s) :=
  outsafe_ite (.next (dspReload_safe (trialFail_safe (tamperPulse_safe (watchdogLog_safe H))))) (.next H)

theorem execWardenWatchdog_safe (H : Safe z s) : OutSafe z (execWardenWatchdog s) :=
  outsafe_ite (.next (wardenStop_safe (trialFail_safe (watchdogLog_safe H)))) (.next H)

theorem execWardenRestartComplete_safe (H : Safe z s) : OutSafe z (execWardenRestartComplete s) :=
  outsafe_ite (.next H) (.next (log_safe (onWd_safe H (fun _ => rfl) (fun _ => rfl))))

theorem execWardenHeartbeatTimeout_safe (H : Safe z s) : OutSafe z (execWardenHeartbeatTimeout s) := by
  unfold execWardenHeartbeatTimeout
  refine outsafe_ite (.next H) ?_
  extract_lets s1 other s2 s3
  have h1 : Safe z s1 := trialFail_safe H
  have h2 : Safe z s2 := safe_ite (runRegion_safe h1) h1
  have h3 : Safe z s3 := onWd_safe h2 (fun _ => rfl) (fun _ => rfl)
  split
  · exact outsafe_ite (.next (updIdle_safe (updLog_safe h3))) (.next h3)
  · exact .next h3

theorem execCanopyRestart_safe (H : Safe z s) : OutSafe z (execCanopyRestart s) := by
  unfold execCanopyRestart
  refine outsafe_ite (.next H) (outsafe_ite (.next (canopyStop_safe H)) ?_)
  split
  · exact .next (canopyStop_safe H)
  · exact .next H

theorem execCanopyBackoffExpiry_safe (H : Safe z s) : OutSafe z (execCanopyBackoffExpiry s) :=
  .next (safe_ite (onWd_safe H (fun _ => rfl) (fun _ => rfl)) H)

theorem execCanopyRestartCountReset_safe (H : Safe z s) : OutSafe z (execCanopyRestartCountReset s) :=
  .next (safe_ite (onWd_safe H (fun _ => rfl) (fun _ => rfl)) H)

theorem execSensorSample_safe {sensor : Fin 12} {value : Nat} (H : Safe z s) :
    OutSafe z (execSensorSample sensor value s) := by
  unfold execSensorSample
  refine outsafe_ite (.next H) ?_
  extract_lets s1 out
  have h1 : Safe z s1 := onWd_safe (keepReading_safe H) (fun _ => rfl) (fun _ => rfl)
  exact outsafe_ite (.next (onWd_safe h1 (fun _ => rfl) (fun _ => rfl)))
    (outsafe_ite (.next (onWd_safe h1 (fun _ => rfl) (fun _ => rfl)))
    (.next (sensorLog_safe (onWd_safe h1 (fun _ => rfl) (fun _ => rfl)))))

theorem execLogEntryWrite_safe (H : Safe z s) : OutSafe z (execLogEntryWrite s) := by
  unfold execLogEntryWrite
  split
  case h_1 => exact .next H
  case h_2 e r hb =>
    refine outsafe_ite (.next H) ?_
    extract_lets s1 s2
    have h1 : Safe z s1 := H.of rfl rfl fun ⟨hm, hl, hp⟩ => ⟨hm, by rw [hb] at hl; exact Nat.le_of_succ_le hl, hp⟩
    have h2 : Safe z s2 := safe_ite h1 (writeEntry_safe h1)
    exact .next (writeEntry_safe h2)

theorem execLogRead_safe {h : Hdr} {fromSeq count : Nat} (H : Safe z s) : OutSafe z (execLogRead h fromSeq count s) := by
  unfold execLogRead
  refine .next (serve_safe H (fun s1 h1 => ?_))
  exact .mk (senseLog_safe h1)

theorem execDisplayQuery_safe {h : Hdr} {badAction : Bool} {item : Nat} (H : Safe z s) :
    OutSafe z (execDisplayQuery h badAction item s) :=
  .next (serve_safe H (fun _ h1 => .mk h1))

theorem execDisplayShowItem_safe {h : Hdr} {item : Nat} (H : Safe z s) : OutSafe z (execDisplayShowItem h item s) :=
  .next (serve_safe H (fun _ h1 => .mk (showItem_safe h1)))

theorem execDisplayResumeScroll_safe {h : Hdr} {item : Nat} (H : Safe z s) :
    OutSafe z (execDisplayResumeScroll h item s) :=
  .next (serve_safe H (fun _ h1 => .mk (resumeScroll_safe h1)))

theorem execSegmentTest_safe {h : Hdr} {item : Nat} (H : Safe z s) : OutSafe z (execSegmentTest h item s) :=
  .next (serve_safe H (fun _ h1 => .mk (segmentTest_safe h1)))

theorem execSegmentTestEnd_safe (H : Safe z s) : OutSafe z (execSegmentTestEnd s) :=
  .next (safe_ite (onHm_safe H) H)

theorem execDisplayScroll_safe (H : Safe z s) : OutSafe z (execDisplayScroll s) := by
  unfold execDisplayScroll
  refine outsafe_ite ?_ (.next H)
  split
  · exact .next (onHm_safe H)
  · exact .next H

theorem execDisplayHoldExpiry_safe (H : Safe z s) : OutSafe z (execDisplayHoldExpiry s) :=
  outsafe_ite (.next (resumeScroll_safe H)) (.next H)

theorem execKeyPress_safe {key : Fin 8} (H : Safe z s) : OutSafe z (execKeyPress key s) := by
  unfold execKeyPress
  refine outsafe_ite (.next H) ?_
  extract_lets s1 f
  have h1 : Safe z s1 := keyEvent_safe (onHm_safe (keyTick_safe H))
  exact outsafe_ite (.next h1) (.next (keyNextPrev_safe h1))

theorem execKeyRelease_safe {key : Fin 8} (H : Safe z s) : OutSafe z (execKeyRelease key s) :=
  outsafe_ite (.next H) (.next (keyEvent_safe (onHm_safe H)))

theorem execKeyLongPress_safe {key : Fin 8} (H : Safe z s) : OutSafe z (execKeyLongPress key s) := by
  unfold execKeyLongPress
  refine outsafe_ite (.next H) ?_
  extract_lets s1
  have h1 : Safe z s1 := keyEvent_safe (onHm_safe H)
  exact outsafe_ite (.next (segmentTest_safe h1)) (.next h1)

theorem execKeyRead_safe {h : Hdr} {max : Nat} (H : Safe z s) : OutSafe z (execKeyRead h max s) := by
  unfold execKeyRead
  refine .next (serve_safe H (fun s1 h1 => ?_))
  exact .mk (onHm_safe h1)

theorem execConsoleAttach_safe {optical : Bool} (H : Safe z s) : OutSafe z (execConsoleAttach optical s) := by
  unfold execConsoleAttach
  extract_lets s0 s1 p
  have h0 : Safe z s0 := takeScheduled_safe H
  have h1 : Safe z s1 := onHm_safe h0
  exact outsafe_ite (.next (onHm_safe H)) (outsafe_ite (.next (onHm_safe h1))
    (outsafe_ite (.next (onHm_safe h1)) (.next (consoleClaim_safe h1))))

theorem execConsoleDetach_safe {optical : Bool} (H : Safe z s) : OutSafe z (execConsoleDetach optical s) := by
  unfold execConsoleDetach
  extract_lets s1 s2
  have h1 : Safe z s1 := onHm_safe H
  have h2 : Safe z s2 := onHm_safe (dropSessions_safe h1)
  exact outsafe_ite (.next h1) (.next (consoleClaim_safe h2))

theorem execConsoleStatus_safe {line : LineIn} (H : Safe z s) : OutSafe z (execConsoleStatus line s) :=
  .next (consoleServe_safe H (fun _ _ h => showing_safe h))

theorem execConsoleEnergy_safe {line : LineIn} (H : Safe z s) : OutSafe z (execConsoleEnergy line s) :=
  .next (consoleServe_safe H (fun _ _ h => showing_safe h))

theorem execConsoleRms_safe {line : LineIn} (H : Safe z s) : OutSafe z (execConsoleRms line s) :=
  .next (consoleServe_safe H (fun _ _ h => showing_safe h))

theorem execConsoleSupply_safe {line : LineIn} (H : Safe z s) : OutSafe z (execConsoleSupply line s) :=
  .next (consoleServe_safe H (fun _ _ h => showing_safe h))

theorem execConsoleLog_safe {line : LineIn} (H : Safe z s) : OutSafe z (execConsoleLog line s) := by
  unfold execConsoleLog
  refine .next (consoleServe_safe H (fun l s1 h => ?_))
  exact safe_pair (drew_safe (senseLog_safe h))

theorem execTestTdacOn_safe {h : Hdr} {badAction : Bool} {code durationS : Nat} (H : Safe z s) :
    OutSafe z (execTestTdacOn h badAction code durationS s) := by
  unfold execTestTdacOn
  refine .next (serve_safe H (fun s1 h1 => ?_))
  extract_lets s11
  have h11 : Safe z s11 := onHm_safe h1
  exact .mk h11

theorem execTestTdacOff_safe {h : Hdr} {code durationS : Nat} (H : Safe z s) :
    OutSafe z (execTestTdacOff h code durationS s) :=
  .next (serve_safe H (fun _ h1 => .mk (tdacEnd_safe h1)))

theorem execTdacLevelExpiry_safe (H : Safe z s) : OutSafe z (execTdacLevelExpiry s) :=
  .next (safe_ite (tdacEnd_safe H) H)

theorem execTestOutputForce_safe {h : Hdr} {output level durationS : Nat} (H : Safe z s) :
    OutSafe z (execTestOutputForce h output level durationS s) := by
  unfold execTestOutputForce
  refine .next (serve_safe H (fun s1 h1 => ?_))
  extract_lets s11
  have h11 : Safe z s11 := onHm_safe (unforce_safe h1)
  exact .mk h11

theorem execTestOutputRelease_safe {h : Hdr} {output durationS : Nat} (H : Safe z s) :
    OutSafe z (execTestOutputRelease h output durationS s) :=
  .next (serve_safe H (fun _ h1 => .mk (unforce_safe h1)))

theorem execTestOutputExpiry_safe {output : Fin 20} (H : Safe z s) : OutSafe z (execTestOutputExpiry output s) :=
  .next (safe_ite (unforce_safe H) H)

theorem execLinkUp_safe {port : Fin 2} {high : Bool} {sqi : Fin 8} (H : Safe z s) :
    OutSafe z (execLinkUp port high sqi s) :=
  outsafe_ite (.next (log_safe (irq_safe (onPort_safe H)))) (.next H)

theorem execLinkDown_safe {port : Fin 2} (H : Safe z s) : OutSafe z (execLinkDown port s) :=
  outsafe_ite (.next (portDown_safe H)) (.next H)

theorem execFrameTransmit_safe {port : Fin 2} (H : Safe z s) : OutSafe z (execFrameTransmit port s) := by
  unfold execFrameTransmit
  split
  · exact .next H
  · extract_lets rest up s0 s1 s2
    have h0 : Safe z s0 := safe_ite (frameSent_safe H) H
    have h1 : Safe z s1 := onNt_safe h0 (fun _ => rfl)
    have h2 : Safe z s2 := onPort_safe h1
    exact outsafe_ite (.next (landed_safe (answerFollow_safe (stampFrame_safe h2))))
      (outsafe_ite (.next (frameLost_safe h1)) (.next h1))

theorem execOwnFrameAdmission_safe (H : Safe z s) : OutSafe z (execOwnFrameAdmission s) := by
  unfold execOwnFrameAdmission
  split
  · exact .next H
  · refine outsafe_ite ?_ (outsafe_ite (.next H) (.next (onNt_safe H (fun _ => rfl))))
    extract_lets s1
    have h1 : Safe z s1 := enqueue_safe (charge_safe (onNt_safe H (fun _ => rfl)))
    exact .next (safe_ite (onPm_safe h1) h1)

theorem execHsrFrameReceive_safe {port : Fin 2} {frame : FrameIn} (H : Safe z s) :
    OutSafe z (execHsrFrameReceive port frame s) :=
  .next (receive_safe H)

theorem execPtpSync_safe {port : Fin 2} {frame : FrameIn} (H : Safe z s) : OutSafe z (execPtpSync port frame s) :=
  .next (receive_safe H)

theorem execPtpFollowUp_safe {port : Fin 2} {frame : FrameIn} (H : Safe z s) : OutSafe z (execPtpFollowUp port frame s) :=
  .next (receive_safe H)

theorem execPtpAnnounce_safe {port : Fin 2} {frame : FrameIn} (H : Safe z s) : OutSafe z (execPtpAnnounce port frame s) :=
  .next (receive_safe H)

theorem execPeerDelayResponse_safe {port : Fin 2} {frame : FrameIn} (H : Safe z s) :
    OutSafe z (execPeerDelayResponse port frame s) :=
  .next (receive_safe H)

theorem execPeerDelayRequest_safe {port : Fin 2} (H : Safe z s) : OutSafe z (execPeerDelayRequest port s) := by
  unfold execPeerDelayRequest
  refine outsafe_ite (.next H) ?_
  extract_lets q s1
  have h1 : Safe z s1 := onPort_safe (takeStamp_safe H)
  exact .next (sendPeer_safe h1)

theorem execDiscardEntryExpiry_safe (H : Safe z s) : OutSafe z (execDiscardEntryExpiry s) := by
  unfold execDiscardEntryExpiry
  refine .next ?_
  split
  · exact H
  · exact safe_ite (onNt_safe H (fun _ => rfl)) H

theorem execLearningTableAgeing_safe (H : Safe z s) : OutSafe z (execLearningTableAgeing s) := by
  unfold execLearningTableAgeing
  refine .next ?_
  split
  · exact H
  · exact safe_ite (onNt_safe H (fun _ => rfl)) H

theorem execSupervisionSend_safe (H : Safe z s) : OutSafe z (execSupervisionSend s) := by
  unfold execSupervisionSend
  refine outsafe_ite (.next H) ?_
  extract_lets s1
  have h1 : Safe z s1 := onNt_safe H (fun _ => by simp)
  exact .next (sendFrame_safe h1)

theorem execRingOpen_safe (H : Safe z s) : OutSafe z (execRingOpen s) :=
  outsafe_ite (.next H) (.next (drew_safe (log_safe (irq_safe (onNt_safe H (fun _ => rfl))))))

theorem execNetTx_safe {h : Hdr} {ports flags id : Nat} {frame : List Byte} (H : Safe z s) :
    OutSafe z (execNetTx h ports flags id frame s) := by
  unfold execNetTx
  refine .next (serve_safe H (fun s1 h1 => ?_))
  exact .mk (sendFrame_safe h1)

theorem execNetRxRead_safe {h : Hdr} (H : Safe z s) : OutSafe z (execNetRxRead h s) := by
  unfold execNetRxRead
  refine .next (serve_safe H (fun s1 h1 => ?_))
  split
  · exact .mk h1
  · exact .mk (onNt_safe h1 (fun _ => rfl))

theorem execIdentifyBroadcastReply_safe (H : Safe z s) : OutSafe z (execIdentifyBroadcastReply s) := by
  unfold execIdentifyBroadcastReply
  split
  · exact .next H
  · exact outsafe_ite (.next (sendFrame_safe (onNt_safe H (fun _ => rfl)))) (.next H)

theorem execHush_safe {via : HushIn} (H : Safe z s) : OutSafe z (execHush via s) := by
  unfold execHush
  split
  · exact .next (hostFrame_safe H)
  · exact .next (receive_safe H)

theorem execResume_safe {via : ResumeIn} (H : Safe z s) : OutSafe z (execResume via s) := by
  unfold execResume
  split
  · exact .next (hostFrame_safe H)
  · refine .next (serve_safe H (fun s1 h => ?_))
    extract_lets s11
    have h11 : Safe z s11 := resume_safe h
    exact .mk h11

theorem execDirectWrite_safe {frame : List Byte} (H : Safe z s) : OutSafe z (execDirectWrite frame s) :=
  .next (hostFrame_safe H)

theorem execSnapGroupLatch_safe {frame : List Byte} (H : Safe z s) : OutSafe z (execSnapGroupLatch frame s) :=
  .next (hostFrame_safe H)

theorem execCalendarStageWrite_safe {frame : List Byte} (H : Safe z s) : OutSafe z (execCalendarStageWrite frame s) :=
  .next (hostFrame_safe H)

theorem execCalendarSecCommit_safe {frame : List Byte} (H : Safe z s) : OutSafe z (execCalendarSecCommit frame s) :=
  .next (hostFrame_safe H)

theorem execSnapLatchTimeout_safe {calendar : Bool} (H : Safe z s) : OutSafe z (execSnapLatchTimeout calendar s) :=
  .next (onLk_safe H (fun _ => by split <;> rfl))

theorem execSpiPacketFrame_safe {frame : List Byte} (H : Safe z s) : OutSafe z (execSpiPacketFrame frame s) :=
  .next (hostFrame_safe H)

theorem execUartFrameTransmit_safe (H : Safe z s) : OutSafe z (execUartFrameTransmit s) :=
  outsafe_ite (.next H) (.next (onLk_safe (landed_safe H) fun _ => by simp))

theorem execUnknownOpcode_safe {h : Hdr} {opcode : Nat} (H : Safe z s) : OutSafe z (execUnknownOpcode h opcode s) :=
  outsafe_ite (.fault _) (.next (serve_safe H (fun _ h1 => .mk h1)))

theorem execOwnerAnswerTimeout_safe {h : Hdr} {opcode owner : Nat} (H : Safe z s) :
    OutSafe z (execOwnerAnswerTimeout h opcode owner s) := by
  unfold execOwnerAnswerTimeout
  refine outsafe_ite (.next H) ?_
  extract_lets s1
  have h1 : Safe z s1 := log_safe (answer_safe H)
  exact .next (safe_ite (trialFail_safe h1) h1)

theorem execNop_safe {h : Hdr} {params : List Byte} (H : Safe z s) : OutSafe z (execNop h params s) :=
  .next (serve_safe H (fun _ h1 => .mk h1))

theorem execIdentify_safe {h : Hdr} (H : Safe z s) : OutSafe z (execIdentify h s) :=
  .next (serve_safe H (fun _ h1 => .mk (holdIdentify_safe h1)))

theorem execGetParam_safe {h : Hdr} {id which : Nat} (H : Safe z s) : OutSafe z (execGetParam h id which s) := by
  unfold execGetParam
  refine .next (serve_safe H (fun s1 h1 => ?_))
  split
  · exact .mk h1
  · exact refuse_safe h1

theorem execGetParams_safe {h : Hdr} {form which count first : Nat} {ids : List Nat} (H : Safe z s) :
    OutSafe z (execGetParams h form which count first ids s) := by
  unfold execGetParams
  refine .next (serve_safe H (fun s1 h1 => ?_))
  exact .mk h1

theorem execSetParam_safe {h : Hdr} {id : Nat} {value : List Byte} (H : Safe z s) :
    OutSafe z (execSetParam h id value s) := by
  unfold execSetParam
  refine .next (serve_safe H (fun s1 h1 => ?_))
  split
  · exact refuse_safe h1
  · exact anssafe_ite (refuse_safe h1) (.mk (stageMember_safe h1))

theorem execSetParams_safe {h : Hdr} {count : Nat} {items : List (Nat × List Byte)} (H : Safe z s) :
    OutSafe z (execSetParams h count items s) := by
  unfold execSetParams
  refine .next (serve_safe H (fun s1 h1 => anssafe_ite (.mk h1) ?_))
  split
  · exact .mk h1
  · exact anssafe_ite (.mk h1) (anssafe_ite (.mk h1) (.mk (safe_foldl (fun _ _ h2 => stageMember_safe h2) h1)))

theorem execCommitParams_safe {h : Hdr} (H : Safe z s) : OutSafe z (execCommitParams h s) := by
  unfold execCommitParams
  refine outsafe_ite (.next (onPr_safe (onLk_safe (secPass_safe (settled_safe H)) (fun _ => rfl))))
    (.next (serve_safe H (fun s1 h1 => ?_)))
  split
  · exact .mk h1
  · exact .mk h1

theorem execCommit_safe {h : Hdr} (H : Safe z s) : OutSafe z (execCommit h s) :=
  .next (safe_ite (finishCommit_safe H) H)

theorem execDefaults_safe {h : Hdr} {scope : Nat} (H : Safe z s) : OutSafe z (execDefaults h scope s) := by
  unfold execDefaults
  refine .next (serve_safe H (fun s1 h1 => ?_))
  exact .mk (onPr_safe h1)

theorem execDiscardParams_safe {h : Hdr} (H : Safe z s) : OutSafe z (execDiscardParams h s) :=
  .next (serve_safe H (fun _ h1 => .mk (onPr_safe h1)))

theorem execGetStage_safe {h : Hdr} (H : Safe z s) : OutSafe z (execGetStage h s) :=
  .next (serve_safe H (fun _ h1 => .mk h1))

theorem execSoftRestart_safe {h : Hdr} {reason : Nat} (H : Safe z s) : OutSafe z (execSoftRestart h reason s) :=
  .next (serve_safe H (fun _ h1 => anssafe_ite (.mk h1) (.mk (onWd_safe (checkpoint_safe h1) (fun _ => rfl) (fun _ => rfl)))))

theorem execPhasorReport_safe (H : Safe z s) : OutSafe z (execPhasorReport s) := by
  unfold execPhasorReport
  refine outsafe_ite (.next H) ?_
  extract_lets s1
  have h1 : Safe z s1 := pmuDue_safe H
  split
  · exact .next h1
  · exact .next (reportAt_safe h1)

theorem execPhasorFrameDrop_safe (H : Safe z s) : OutSafe z (execPhasorFrameDrop s) := by
  unfold execPhasorFrameDrop
  split
  · exact .next H
  · exact outsafe_ite (.next H) (.next (onPm_safe (onNt_safe H (fun _ => rfl))))

theorem execPmuConfigTakeEffect_safe (H : Safe z s) : OutSafe z (execPmuConfigTakeEffect s) :=
  .next (pmuDue_safe H)

theorem execPmuCmdDataOff_safe {cmd : PmuCmdIn} (H : Safe z s) : OutSafe z (execPmuCmdDataOff cmd s) :=
  outsafe_ite (.next (pmuStop_safe (cmdCount_safe H))) (.next H)

theorem execPmuCmdDataOn_safe {cmd : PmuCmdIn} (H : Safe z s) : OutSafe z (execPmuCmdDataOn cmd s) :=
  outsafe_ite (outsafe_ite (.next (cmdIgnore_safe (cmdCount_safe H))) (.next (pmuStart_safe (cmdCount_safe H))))
    (.next H)

theorem execPmuCmdSendCfg2_safe {cmd : PmuCmdIn} (H : Safe z s) : OutSafe z (execPmuCmdSendCfg2 cmd s) :=
  outsafe_ite (.next (sendCfg2_safe (cmdCount_safe H))) (.next H)

theorem execPmuCmdIgnored_safe {cmd : PmuCmdIn} (H : Safe z s) : OutSafe z (execPmuCmdIgnored cmd s) :=
  outsafe_ite (.next (cmdIgnore_safe (cmdCount_safe H))) (.next H)

theorem execPmuRead_safe {h : Hdr} {first count : Nat} (H : Safe z s) : OutSafe z (execPmuRead h first count s) :=
  .next (serve_safe H (fun _ h1 => .mk h1))

theorem execPmuStart_safe {h : Hdr} {badAction : Bool} (H : Safe z s) : OutSafe z (execPmuStart h badAction s) :=
  .next (serve_safe H (fun _ h1 => .mk (pmuStart_safe h1)))

theorem execPmuStop_safe {h : Hdr} (H : Safe z s) : OutSafe z (execPmuStop h s) :=
  .next (serve_safe H (fun _ h1 => .mk (pmuStop_safe h1)))

theorem execPmuSendCfg2_safe {h : Hdr} (H : Safe z s) : OutSafe z (execPmuSendCfg2 h s) :=
  .next (serve_safe H (fun _ h1 => .mk (sendCfg2_safe h1)))

theorem execUpdateBegin_safe {h : Hdr} {header : List Byte} (H : Safe z s) : OutSafe z (execUpdateBegin h header s) := by
  unfold execUpdateBegin
  refine .next (serve_safe H (fun s1 h1 => ?_))
  extract_lets k b s11 x
  have h11 : Safe z s11 := onUp_safe h1 (fun _ => rfl) (fun _ => rfl)
  exact anssafe_ite (.mk (updLog_safe h1)) (anssafe_ite (refuse_safe h1)
    (anssafe_ite (.mk (updLog_safe (onRegion_safe h11))) (.mk (updLog_safe h11))))

theorem execUpdateEraseDone_safe (H : Safe z s) : OutSafe z (execUpdateEraseDone s) :=
  outsafe_ite (.next (onUp_safe H (fun _ => rfl) (fun _ => rfl))) (.next H)

theorem execUpdateData_safe {h : Hdr} {params : List Byte} (H : Safe z s) : OutSafe z (execUpdateData h params s) := by
  unfold execUpdateData
  refine .next (serve_safe H (fun s1 h1 => anssafe_ite (.mk (fragAdd_safe h1)) ?_))
  extract_lets s2 n s11
  have h2 : Safe z s2 := fragEnd_safe h1
  have h11 : Safe z s11 := onUp_safe h2 (fun _ => rfl) (fun _ => rfl)
  exact anssafe_ite (refuse_safe h2) (anssafe_ite (refuse_safe h2) (.mk h11))

theorem execUpdateActivate_safe {h : Hdr} {badAction sigOk : Bool} (H : Safe z s) :
    OutSafe z (execUpdateActivate h badAction sigOk s) := by
  unfold execUpdateActivate
  refine .next (serve_safe H (fun s1 h1 => ?_))
  split
  · exact refuse_safe (verifyRefused_safe h1)
  · extract_lets k s11
    have h11 : Safe z s11 := onUp_safe h1 (fun _ => rfl) (fun _ => rfl)
    refine anssafe_ite (.mk (safe_ite (checkpoint_safe h11) h11)) ?_
    split
    next _ _ _ heq1 =>
      exact refuse_safe (safe_fst heq1 (applyPackage_safe h1))
    next _ _ heq1 =>
      extract_lets s2
      have h2 : Safe z s2 := updIdle_safe (updLog_safe (safe_fst heq1 (applyPackage_safe h1)))
      exact .mk h2

theorem execUpdateVerify_safe {h : Hdr} {sigOk : Bool} (H : Safe z s) : OutSafe z (execUpdateVerify h sigOk s) := by
  unfold execUpdateVerify
  refine .next (serve_safe H (fun s1 h1 => ?_))
  split
  · exact refuse_safe (verifyRefused_safe h1)
  · extract_lets s11
    have h11 : Safe z s11 := onUp_safe h1 (fun _ => rfl) (fun _ => rfl)
    exact .mk h11

theorem execUpdateAbort_safe {h : Hdr} (H : Safe z s) : OutSafe z (execUpdateAbort h s) := by
  unfold execUpdateAbort
  refine .next (serve_safe H (fun s1 h1 => ?_))
  extract_lets s11
  have h11 : Safe z s11 := abandonUpdate_safe h1
  exact .mk h11

theorem execUpdateStatus_safe {h : Hdr} (H : Safe z s) : OutSafe z (execUpdateStatus h s) :=
  .next (serve_safe H (fun _ h1 => .mk h1))

theorem execUpdateSafePoint_safe (H : Safe z s) : OutSafe z (execUpdateSafePoint s) := by
  unfold execUpdateSafePoint
  refine outsafe_ite (.next H) ?_
  split
  · exact .next (revertTrial_safe H)
  · exact outsafe_ite (.next (startTrial_safe H)) (.next H)

theorem execTrialReadyTimeout_safe (H : Safe z s) : OutSafe z (execTrialReadyTimeout s) :=
  outsafe_ite (.next H) (.next (trialFail_safe H))

theorem execUpdateTrialEnd_safe (H : Safe z s) : OutSafe z (execUpdateTrialEnd s) := by
  unfold execUpdateTrialEnd
  refine outsafe_ite ?_ (.next H)
  extract_lets hd k s1 s2 s3
  have h1 : Safe z s1 := onUp_safe (onRegion_safe H) (fun _ => rfl) (fun _ => rfl)
  have h2 : Safe z s2 := updLog_safe h1
  have h3 : Safe z s3 := safe_ite (safe_foldl (fun _ _ h => revokeBelow_safe h) h2) h2
  exact .next (updIdle_safe h3)

theorem execTransplantPrepare_safe {h : Hdr} {badAction : Bool} {destId : Nat} {destPub : List Byte} {signature : SigIn}
    (H : Safe z s) :
    OutSafe z (execTransplantPrepare h badAction destId destPub signature s) := by
  unfold execTransplantPrepare
  refine .next (serve_safe H (fun s1 h1 => ?_))
  extract_lets s11
  have h11 : Safe z s11 := onTx_safe (newChallenge_safe h1)
  exact .mk h11

theorem execTransplantPackageBuild_safe (H : Safe z s) : OutSafe z (execTransplantPackageBuild s) := by
  unfold execTransplantPackageBuild
  split
  · exact .next (safe_ite H (log_safe (onTx_safe (drew_safe H))))
  · exact .next H

theorem execTransplantRead_safe {h : Hdr} {offset maxBytes : Nat} (H : Safe z s) :
    OutSafe z (execTransplantRead h offset maxBytes s) :=
  .next (serve_safe H (fun _ h1 => .mk h1))

theorem execTransplantDiscard_safe {h : Hdr} (H : Safe z s) : OutSafe z (execTransplantDiscard h s) := by
  unfold execTransplantDiscard
  refine .next (serve_safe H (fun s1 h1 => ?_))
  extract_lets s11
  have h11 : Safe z s11 := onTx_safe h1
  exact .mk h11

theorem execTransplantImport_safe {h : Hdr} {params : List Byte} {body : Option (List Byte)} {signature : SigIn}
    {srcSigOk : Bool} (H : Safe z s) :
    OutSafe z (execTransplantImport h params body signature srcSigOk s) := by
  unfold execTransplantImport
  refine .next (serve_safe H (fun s1 h1 => anssafe_ite (.mk (fragAdd_safe h1)) ?_))
  extract_lets s11
  have h11 : Safe z s11 := onTx_safe (newChallenge_safe (fragEnd_safe h1))
  exact .mk h11

theorem execTransplantApply_safe (H : Safe z s) : OutSafe z (execTransplantApply s) := by
  unfold execTransplantApply
  split
  · exact .next H
  · refine outsafe_ite (.next H) ?_
    split
    · extract_lets s1 s2 s3 s4
      have h1 : Safe z s1 := safe_foldl (fun _ _ h => replacedLog_safe h) H
      have h2 : Safe z s2 := freshWindows_safe (takeRegisters_safe (takeTotals_safe h1))
      have h3 : Safe z s3 := safe_foldl (fun _ _ h => importSet_safe h) (commitMembers_safe h2)
      have h4 : Safe z s4 := onTx_safe h3
      exact .next (log_safe (checkpoint_safe h4))

theorem execAonPowerUp_safe (H : Safe z s) : OutSafe z (execAonPowerUp s) :=
  outsafe_ite (.next (onPw_safe H (fun _ => rfl))) (.next (onRtc_safe (onPw_safe H (fun _ => rfl)) (fun _ => rfl)))

theorem execAonBrownOut_safe (H : Safe z s) : OutSafe z (execAonBrownOut s) :=
  outsafe_ite (.next (brownOut_safe H)) (.next H)

theorem execPfailAssert_safe (H : Safe z s) : OutSafe z (execPfailAssert s) := by
  unfold execPfailAssert
  refine outsafe_ite (.next H) ?_
  extract_lets s1
  have h1 : Safe z s1 := onPw_safe H (fun _ => rfl)
  exact .next (safe_ite h1 (failCheckpoint_safe h1))

theorem execPowerFailCheckpoint_safe (H : Safe z s) : OutSafe z (execPowerFailCheckpoint s) :=
  outsafe_ite (.next (failCheckpoint_safe H)) (.next H)

theorem execPfailRelease_safe (H : Safe z s) : OutSafe z (execPfailRelease s) :=
  outsafe_ite (.next H) (.next (onPw_safe H (fun _ => rfl)))

theorem execCheckpointComplete_safe (H : Safe z s) : OutSafe z (execCheckpointComplete s) := by
  unfold execCheckpointComplete
  split
  · exact .next H
  · extract_lets copy s1
    have h1 : Safe z s1 := onHw_safe (ckptWritten_safe H) (fun _ => rfl)
    exact .next (drew_safe (onPq_safe h1 (fun _ => rfl)))

theorem execVcoreTrip_safe (H : Safe z s) : OutSafe z (execVcoreTrip s) := by
  unfold execVcoreTrip
  refine outsafe_ite (.next H) ?_
  extract_lets s1
  have h1 : Safe z s1 := drew_safe (tripped_safe (cutWrites_safe H))
  exact outsafe_ite (.next h1) (.next (onPw_safe (brownOut_safe h1) (fun _ => rfl)))

theorem execRestartDelayReset_safe (H : Safe z s) : OutSafe z (execRestartDelayReset s) :=
  outsafe_ite (.next (onPw_safe H (fun _ => rfl))) (.next H)

theorem execBuckCurrentLimit_safe {vcore : Bool} (H : Safe z s) : OutSafe z (execBuckCurrentLimit vcore s) :=
  .next (onPw_safe H (fun _ => rfl))

theorem execPowerStatus_safe {h : Hdr} (H : Safe z s) : OutSafe z (execPowerStatus h s) :=
  .next (serve_safe H (fun _ h1 => .mk h1))

theorem execUrmsHalfCycle_safe {bus : Fin 2} (H : Safe z s) : OutSafe z (execUrmsHalfCycle bus s) :=
  outsafe_ite (.next H) (.next (halfStep_safe (busAFirst_safe H)))

theorem execEventRecordWrite_safe (H : Safe z s) : OutSafe z (execEventRecordWrite s) := by
  unfold execEventRecordWrite
  split
  · exact .next H
  · refine outsafe_ite (.next H) ?_
    extract_lets l e2 s1
    have h1 : Safe z s1 := onBus_safe (onPq_safe H (fun _ => rfl))
    exact .next (drew_safe (wr_safe h1))

theorem execOpenEventClose_safe (H : Safe z s) : OutSafe z (execOpenEventClose s) := by
  unfold execOpenEventClose
  refine outsafe_ite (.next H) ?_
  split
  · exact .next H
  · extract_lets a start fl
    exact .next (drew_safe (wrPage_safe (sense_safe H)))

theorem execPqWindowEnd_safe {bus : Fin 2} (H : Safe z s) : OutSafe z (execPqWindowEnd bus s) := by
  unfold execPqWindowEnd
  refine outsafe_ite (.next H) ?_
  split
  · exact .next H
  · exact .next (endWindow_safe (aggResume_safe H))

theorem execPqAggregateEnd_safe {bus : Fin 2} (H : Safe z s) : OutSafe z (execPqAggregateEnd bus s) :=
  outsafe_ite (.next H) (.next (cyclesEnd_safe H))

theorem execFrequencyIntervalEnd_safe {bus : Fin 2} (H : Safe z s) : OutSafe z (execFrequencyIntervalEnd bus s) :=
  outsafe_ite (.next H) (.next (drew_safe (onBus_safe (closeTen_safe H))))

theorem execSupra3sEnd_safe (H : Safe z s) : OutSafe z (execSupra3sEnd s) := by
  unfold execSupra3sEnd
  extract_lets idx s1
  have h1 : Safe z s1 := onPq_safe H (fun _ => rfl)
  exact outsafe_ite (.next H) (outsafe_ite (.next h1) (.next (supraClose_safe h1)))

theorem execTenMinuteBoundary_safe (H : Safe z s) : OutSafe z (execTenMinuteBoundary s) :=
  .next (tenMinute_safe H)

theorem execTwoHourBoundary_safe (H : Safe z s) : OutSafe z (execTwoHourBoundary s) := by
  unfold execTwoHourBoundary
  extract_lets idx s0 endT st s1 s2
  have h0 : Safe z s0 := onPq_safe (tenMinute_safe H) (fun _ => rfl)
  have h1 : Safe z s1 := supraClose_safe h0
  have h2 : Safe z s2 := safe_foldl (fun _ _ h => safe_ite (onBus_safe h) (closeAccs_safe h)) h1
  exact outsafe_ite (.next H) (outsafe_ite (.next h0) (.next (onPq_safe h2 (fun _ => rfl))))

theorem execArchiveWrite_safe (H : Safe z s) : OutSafe z (execArchiveWrite s) := by
  unfold execArchiveWrite
  split
  · exact .next H
  · exact outsafe_ite (.next H) (.next (onPq_safe (wr_safe H) (fun _ => rfl)))

theorem execPqRead_safe {h : Hdr} {kind level chan first count : Nat} (H : Safe z s) :
    OutSafe z (execPqRead h kind level chan first count s) := by
  unfold execPqRead
  refine .next (serve_safe H (fun s1 h1 => ?_))
  exact .mk h1

theorem execPqEventRead_safe {h : Hdr} {fromId count : Nat} (H : Safe z s) :
    OutSafe z (execPqEventRead h fromId count s) := by
  unfold execPqEventRead
  refine .next (serve_safe H (fun s1 h1 => ?_))
  exact .mk (sense_safe h1)

theorem execPqArchiveRead_safe {h : Hdr} {bus count fromT : Nat} (H : Safe z s) :
    OutSafe z (execPqArchiveRead h bus count fromT s) := by
  unfold execPqArchiveRead
  refine .next (serve_safe H (fun s1 h1 => ?_))
  exact .mk (sense_safe h1)

theorem execVauxStartThreshold_safe {ext33 testEn : Bool} (H : Safe z s) :
    OutSafe z (execVauxStartThreshold ext33 testEn s) :=
  outsafe_ite (.next H) (outsafe_ite (.next (onPw_safe H (fun _ => rfl))) (.next (powerStart_safe H)))

theorem execRestartDelayExpiry_safe (H : Safe z s) : OutSafe z (execRestartDelayExpiry s) :=
  outsafe_ite (.next H) (outsafe_ite (.next (powerStart_safe H)) (.next (onPw_safe H (fun _ => rfl))))

theorem execVdd33Regulation_safe {hsel refsel refinOk : Bool} (H : Safe z s) :
    OutSafe z (execVdd33Regulation hsel refsel refinOk s) := by
  unfold execVdd33Regulation
  refine outsafe_ite (.next H) ?_
  extract_lets s1
  have h1 : Safe z s1 := onRef_safe (onPw_safe H (fun _ => rfl))
  exact outsafe_ite (.next h1) (.next (onRtc_safe (onPw_safe h1 (fun _ => rfl)) (fun _ => rfl)))

theorem execVcoreRegulation_safe (H : Safe z s) : OutSafe z (execVcoreRegulation s) :=
  outsafe_ite (.next (onPw_safe H (fun _ => rfl))) (.next H)

theorem execTestEnRelease_safe (H : Safe z s) : OutSafe z (execTestEnRelease s) :=
  .next (onPw_safe H (fun _ => rfl))

theorem execCrystalStable_safe (H : Safe z s) : OutSafe z (execCrystalStable s) :=
  outsafe_ite (.next (onPw_safe H (fun _ => rfl))) (.next H)

theorem execPllLock_safe (H : Safe z s) : OutSafe z (execPllLock s) := by
  unfold execPllLock
  refine outsafe_ite (.next H) ?_
  extract_lets s1 now s2
  have h1 : Safe z s1 := setPar_safe (onPw_safe H (fun _ => rfl))
  have h2 : Safe z s2 := onRtc_safe (onTe_safe h1 (fun _ => rfl) (fun _ => rfl)) (fun _ => rfl)
  exact .next (onTp_safe h2 (fun _ => rfl) (fun _ => rfl))

theorem execLoaderComplete_safe (H : Safe z s) : OutSafe z (execLoaderComplete s) := by
  unfold execLoaderComplete
  refine outsafe_ite (.next H) ?_
  extract_lets s1 s2 v s3 s31 s4
  have h1 : Safe z s1 := by
    unfold s1
    split
    · exact loadRecord_safe H
    · exact bootFaultTo_safe H
  have h2 : Safe z s2 := loadTotals_safe h1
  have h3 : Safe z s3 := onPr_safe h2
  have h31 : Safe z s31 := onPr_safe (onLk_safe (onNt_safe h3 (fun _ => rfl)) (fun _ => rfl))
  have h4 : Safe z s4 := onHm_safe h31
  exact .next (onHm_safe (onPw_safe h4 (fun _ => rfl)))

theorem execModulatorStart_safe (H : Safe z s) : OutSafe z (execModulatorStart s) := by
  unfold execModulatorStart
  refine outsafe_ite (.next H) ?_
  extract_lets s1 s2
  have h1 : Safe z s1 := safe_foldl (fun _ _ h => unsettle_safe h) H
  have h2 : Safe z s2 := safe_foldl (fun _ _ h => onFilt_safe h) h1
  exact .next (onPw_safe h2 (fun _ => rfl))

theorem execFirstSettledSample_safe (H : Safe z s) : OutSafe z (execFirstSettledSample s) := by
  unfold execFirstSettledSample
  refine outsafe_ite (.next H) ?_
  extract_lets s1
  have h1 : Safe z s1 := onTp_safe (onPw_safe H (fun _ => rfl)) (fun _ => by simp) (fun _ => rfl)
  exact .next (enterStage_safe h1 (by decide))

theorem execWardenStart_safe {activeOk otherOk : Bool} (H : Safe z s) : OutSafe z (execWardenStart activeOk otherOk s) := by
  unfold execWardenStart
  refine outsafe_ite (.next H) ?_
  split
  next _ _ _ heq =>
    exact .next (safe_ite (wardenEntry_safe (bootFaultTo_safe (safe_fst heq (bootKind_safe H))))
      (wardenEntry_safe (safe_fst heq (bootKind_safe H))))
  next _ _ _ heq =>
    extract_lets s2
    have h2 : Safe z s2 := safe_ite (log_safe (safe_fst heq (bootKind_safe H))) (safe_fst heq (bootKind_safe H))
    exact .next (log_safe (bootFaultTo_safe h2))

theorem execDspStart_safe {activeOk otherOk : Bool} (H : Safe z s) : OutSafe z (execDspStart activeOk otherOk s) := by
  unfold execDspStart
  refine outsafe_ite (.next H) ?_
  split
  next _ _ _ heq =>
    exact .next (kernelsStart_safe (bootKind_safe (safe_fst heq (bootKind_safe H))))
  next _ _ _ heq =>
    extract_lets s2
    have h2 : Safe z s2 := bootFaultTo_safe (safe_fst heq (bootKind_safe H))
    exact .next (log_safe h2)

theorem execCanopyReady_safe {activeOk otherOk : Bool} (H : Safe z s) : OutSafe z (execCanopyReady activeOk otherOk s) := by
  unfold execCanopyReady
  refine outsafe_ite (.next H) ?_
  split
  next _ _ heq =>
    exact .next (canopyEntry_safe (safe_fst heq (bootKind_safe H)))
  next _ _ heq =>
    extract_lets s2
    have h2 : Safe z s2 := bootFaultTo_safe (safe_fst heq (bootKind_safe H))
    exact .next (canopyEntry_safe (log_safe h2))
  next _ _ _ heq =>
    extract_lets s2
    have h2 : Safe z s2 := bootFaultTo_safe (safe_fst heq (bootKind_safe H))
    exact .next (log_safe h2)

end Sys2Proof.Machine
end

section
/-! THEOREMS. What `exec` and an idle cycle keep, and with it the statements about the machine as a whole (O1, O3, O5). -/

namespace Sys2Proof.Machine

theorem exec_safe (c : Instr) (s : State) : OutSafe s (exec c s) := by
  cases c with
  | aonPowerUp => exact execAonPowerUp_safe (.refl s)
  | aonBrownOut => exact execAonBrownOut_safe (.refl s)
  | vauxStartThreshold _ _ => exact execVauxStartThreshold_safe (.refl s)
  | vdd33Regulation _ _ _ => exact execVdd33Regulation_safe (.refl s)
  | vcoreRegulation => exact execVcoreRegulation_safe (.refl s)
  | crystalStable => exact execCrystalStable_safe (.refl s)
  | pllLock => exact execPllLock_safe (.refl s)
  | loaderComplete => exact execLoaderComplete_safe (.refl s)
  | clearPendingResume => exact execClearPendingResume_safe (.refl s)
  | modulatorStart => exact execModulatorStart_safe (.refl s)
  | firstSettledSample => exact execFirstSettledSample_safe (.refl s)
  | wardenStart _ _ => exact execWardenStart_safe (.refl s)
  | dspStart _ _ => exact execDspStart_safe (.refl s)
  | canopyReady _ _ => exact execCanopyReady_safe (.refl s)
  | canopyRestart => exact execCanopyRestart_safe (.refl s)
  | canopyBackoffExpiry => exact execCanopyBackoffExpiry_safe (.refl s)
  | pfailAssert => exact execPfailAssert_safe (.refl s)
  | powerFailCheckpoint => exact execPowerFailCheckpoint_safe (.refl s)
  | pfailRelease => exact execPfailRelease_safe (.refl s)
  | vcoreTrip => exact execVcoreTrip_safe (.refl s)
  | restartDelayExpiry => exact execRestartDelayExpiry_safe (.refl s)
  | buckCurrentLimit _ => exact execBuckCurrentLimit_safe (.refl s)
  | testEnRelease => exact execTestEnRelease_safe (.refl s)
  | checkpointComplete => exact execCheckpointComplete_safe (.refl s)
  | dspFrame _ => exact execDspFrame_safe (.refl s)
  | cfPulseEnd _ => exact execCfPulseEnd_safe (.refl s)
  | stuckDetected _ => exact execStuckDetected_safe (.refl s)
  | modulatorOverloadReset _ => exact execModulatorOverloadReset_safe (.refl s)
  | blockBoundary => exact execBlockBoundary_safe (.refl s)
  | demandSubintervalEnd => exact execDemandSubintervalEnd_safe (.refl s)
  | refComparisonResult _ => exact execRefComparisonResult_safe (.refl s)
  | refBaselineCapture => exact execRefBaselineCapture_safe (.refl s)
  | refRebase _ _ => exact execRefRebase_safe (.refl s)
  | refinOutOfRange => exact execRefinOutOfRange_safe (.refl s)
  | slotStart _ => exact execSlotStart_safe (.refl s)
  | firstOverlapEnd _ => exact execFirstOverlapEnd_safe (.refl s)
  | restSourceSwitch _ => exact execRestSourceSwitch_safe (.refl s)
  | restAcceptance _ => exact execRestAcceptance_safe (.refl s)
  | homeReturn _ => exact execHomeReturn_safe (.refl s)
  | spliceBack _ => exact execSpliceBack_safe (.refl s)
  | preshadowConnect _ => exact execPreshadowConnect_safe (.refl s)
  | coppiceQuery _ _ _ => exact execCoppiceQuery_safe (.refl s)
  | coppicePause _ _ => exact execCoppicePause_safe (.refl s)
  | coppiceRotate _ _ => exact execCoppiceRotate_safe (.refl s)
  | coppicePin _ _ _ => exact execCoppicePin_safe (.refl s)
  | coppiceUnpin _ _ => exact execCoppiceUnpin_safe (.refl s)
  | coppiceShadow _ _ _ => exact execCoppiceShadow_safe (.refl s)
  | coppiceRequalify _ _ _ => exact execCoppiceRequalify_safe (.refl s)
  | requalifyResult _ => exact execRequalifyResult_safe (.refl s)
  | pathCheck _ _ _ => exact execPathCheck_safe (.refl s)
  | pathCheckBaseline _ _ => exact execPathCheckBaseline_safe (.refl s)
  | pathCheckStart _ => exact execPathCheckStart_safe (.refl s)
  | pathCheckComplete _ => exact execPathCheckComplete_safe (.refl s)
  | snapshotArm _ _ _ => exact execSnapshotArm_safe (.refl s)
  | seqStart _ _ _ _ => exact execSeqStart_safe (.refl s)
  | sequencerTimeTick _ => exact execSequencerTimeTick_safe (.refl s)
  | snapshotWrite _ => exact execSnapshotWrite_safe (.refl s)
  | filterStop _ _ => exact execFilterStop_safe (.refl s)
  | filterLoad _ _ _ _ => exact execFilterLoad_safe (.refl s)
  | filterStart _ _ => exact execFilterStart_safe (.refl s)
  | bankWrite _ _ _ => exact execBankWrite_safe (.refl s)
  | bankSwap _ _ _ _ => exact execBankSwap_safe (.refl s)
  | bankSwapFadeStart _ => exact execBankSwapFadeStart_safe (.refl s)
  | bankSwapEnd _ => exact execBankSwapEnd_safe (.refl s)
  | queueStreamStart _ _ _ => exact execQueueStreamStart_safe (.refl s)
  | queueStreamStop _ _ => exact execQueueStreamStop_safe (.refl s)
  | queueEntryWrite => exact execQueueEntryWrite_safe (.refl s)
  | queueRead _ _ _ => exact execQueueRead_safe (.refl s)
  | queuePush => exact execQueuePush_safe (.refl s)
  | recorderQuery _ _ _ => exact execRecorderQuery_safe (.refl s)
  | recorderArm _ _ => exact execRecorderArm_safe (.refl s)
  | recorderStop _ _ => exact execRecorderStop_safe (.refl s)
  | recorderTrigger _ _ => exact execRecorderTrigger_safe (.refl s)
  | captureTrigger _ => exact execCaptureTrigger_safe (.refl s)
  | captureDone _ => exact execCaptureDone_safe (.refl s)
  | captureRead _ _ _ _ _ => exact execCaptureRead_safe (.refl s)
  | captureRelease _ _ _ => exact execCaptureRelease_safe (.refl s)
  | captureReadTimeout _ _ => exact execCaptureReadTimeout_safe (.refl s)
  | energyRead _ _ _ _ _ _ => exact execEnergyRead_safe (.refl s)
  | demandReset _ _ => exact execDemandReset_safe (.refl s)
  | cfTestStart _ _ _ _ => exact execCfTestStart_safe (.refl s)
  | cfTestStop _ => exact execCfTestStop_safe (.refl s)
  | cfTestExpiry => exact execCfTestExpiry_safe (.refl s)
  | urmsHalfCycle _ => exact execUrmsHalfCycle_safe (.refl s)
  | eventRecordWrite => exact execEventRecordWrite_safe (.refl s)
  | openEventClose => rw [exec]; exact execOpenEventClose_safe (.refl s)
  | pqWindowEnd _ => exact execPqWindowEnd_safe (.refl s)
  | pqAggregateEnd _ => exact execPqAggregateEnd_safe (.refl s)
  | frequencyIntervalEnd _ => exact execFrequencyIntervalEnd_safe (.refl s)
  | supra3sEnd => exact execSupra3sEnd_safe (.refl s)
  | tenMinuteBoundary => exact execTenMinuteBoundary_safe (.refl s)
  | twoHourBoundary => exact execTwoHourBoundary_safe (.refl s)
  | archiveWrite => exact execArchiveWrite_safe (.refl s)
  | pqRead _ _ _ _ _ _ => exact execPqRead_safe (.refl s)
  | pqEventRead _ _ _ => exact execPqEventRead_safe (.refl s)
  | pqArchiveRead _ _ _ _ => exact execPqArchiveRead_safe (.refl s)
  | phasorReport => exact execPhasorReport_safe (.refl s)
  | phasorFrameDrop => exact execPhasorFrameDrop_safe (.refl s)
  | pmuConfigTakeEffect => exact execPmuConfigTakeEffect_safe (.refl s)
  | pmuCmdDataOff _ => exact execPmuCmdDataOff_safe (.refl s)
  | pmuCmdDataOn _ => exact execPmuCmdDataOn_safe (.refl s)
  | pmuCmdSendCfg2 _ => exact execPmuCmdSendCfg2_safe (.refl s)
  | pmuCmdIgnored _ => exact execPmuCmdIgnored_safe (.refl s)
  | pmuRead _ _ _ => exact execPmuRead_safe (.refl s)
  | pmuStart _ _ => exact execPmuStart_safe (.refl s)
  | pmuStop _ => exact execPmuStop_safe (.refl s)
  | pmuSendCfg2 _ => exact execPmuSendCfg2_safe (.refl s)
  | ptpSync _ _ => exact execPtpSync_safe (.refl s)
  | ptpFollowUp _ _ => exact execPtpFollowUp_safe (.refl s)
  | ptpAnnounce _ _ => exact execPtpAnnounce_safe (.refl s)
  | peerDelayRequest _ => exact execPeerDelayRequest_safe (.refl s)
  | peerDelayResponse _ _ => exact execPeerDelayResponse_safe (.refl s)
  | sourceTimeout => exact execSourceTimeout_safe (.refl s)
  | holdoverLimit => exact execHoldoverLimit_safe (.refl s)
  | leapSecond => exact execLeapSecond_safe (.refl s)
  | leapOccurredClear => exact execLeapOccurredClear_safe (.refl s)
  | lastLockedRateStore => exact execLastLockedRateStore_safe (.refl s)
  | timeGet _ => exact execTimeGet_safe (.refl s)
  | timeSet _ _ => exact execTimeSet_safe (.refl s)
  | timeOffset _ _ _ _ => exact execTimeOffset_safe (.refl s)
  | timeAcceptStep _ => exact execTimeAcceptStep_safe (.refl s)
  | txtsRead _ _ => exact execTxtsRead_safe (.refl s)
  | blazeArm _ _ _ _ _ _ _ _ => exact execBlazeArm_safe (.refl s)
  | blazeDisarm _ _ _ _ => exact execBlazeDisarm_safe (.refl s)
  | blazeEdge _ => exact execBlazeEdge_safe (.refl s)
  | blazePulseEnd _ => exact execBlazePulseEnd_safe (.refl s)
  | notchCapture _ _ _ _ => exact execNotchCapture_safe (.refl s)
  | notchRead _ _ _ => exact execNotchRead_safe (.refl s)
  | frameTransmit _ => exact execFrameTransmit_safe (.refl s)
  | linkUp _ _ _ => exact execLinkUp_safe (.refl s)
  | linkDown _ => exact execLinkDown_safe (.refl s)
  | supervisionSend => exact execSupervisionSend_safe (.refl s)
  | ringOpen => exact execRingOpen_safe (.refl s)
  | hsrFrameReceive _ _ => exact execHsrFrameReceive_safe (.refl s)
  | discardEntryExpiry => exact execDiscardEntryExpiry_safe (.refl s)
  | netTx _ _ _ _ _ => exact execNetTx_safe (.refl s)
  | netRxRead _ => exact execNetRxRead_safe (.refl s)
  | identifyBroadcastReply => exact execIdentifyBroadcastReply_safe (.refl s)
  | hush _ => exact execHush_safe (.refl s)
  | resume _ => exact execResume_safe (.refl s)
  | directWrite _ => exact execDirectWrite_safe (.refl s)
  | snapGroupLatch _ => exact execSnapGroupLatch_safe (.refl s)
  | snapLatchTimeout _ => exact execSnapLatchTimeout_safe (.refl s)
  | calendarStageWrite _ => exact execCalendarStageWrite_safe (.refl s)
  | calendarSecCommit _ => exact execCalendarSecCommit_safe (.refl s)
  | calendarStagingDiscard => exact execCalendarStagingDiscard_safe (.refl s)
  | unknownOpcode _ _ => exact execUnknownOpcode_safe (.refl s)
  | nop _ _ => exact execNop_safe (.refl s)
  | identify _ => exact execIdentify_safe (.refl s)
  | getParam _ _ _ => exact execGetParam_safe (.refl s)
  | setParam _ _ _ => exact execSetParam_safe (.refl s)
  | getParams _ _ _ _ _ _ => exact execGetParams_safe (.refl s)
  | setParams _ _ _ => exact execSetParams_safe (.refl s)
  | commitParams _ => exact execCommitParams_safe (.refl s)
  | commit _ => exact execCommit_safe (.refl s)
  | defaults _ _ => exact execDefaults_safe (.refl s)
  | discardParams _ => exact execDiscardParams_safe (.refl s)
  | getStage _ => exact execGetStage_safe (.refl s)
  | softRestart _ _ => exact execSoftRestart_safe (.refl s)
  | nvRead _ _ _ _ _ => exact execNvRead_safe (.refl s)
  | nvWrite _ _ _ _ _ _ => exact execNvWrite_safe (.refl s)
  | sessionOpen _ _ _ _ => exact execSessionOpen_safe (.refl s)
  | sessionClose _ _ _ => exact execSessionClose_safe (.refl s)
  | passwordSet _ _ _ _ _ => exact execPasswordSet_safe (.refl s)
  | nvStatusQuery _ _ => exact execNvStatusQuery_safe (.refl s)
  | nvStatusAcknowledge _ _ _ => exact execNvStatusAcknowledge_safe (.refl s)
  | sessionTimeout _ _ _ => exact execSessionTimeout_safe (.refl s)
  | lockoutExpiry _ => exact execLockoutExpiry_safe (.refl s)
  | scrubRead _ => exact execScrubRead_safe (.refl s)
  | rtcGet _ => exact execRtcGet_safe (.refl s)
  | rtcSet _ _ _ _ _ _ _ _ => exact execRtcSet_safe (.refl s)
  | osfClear _ _ => exact execOsfClear_safe (.refl s)
  | alAck _ _ _ => exact execAlAck_safe (.refl s)
  | alarmMatch => exact execAlarmMatch_safe (.refl s)
  | wakeHoldExpiry => exact execWakeHoldExpiry_safe (.refl s)
  | clock32Stall => exact execClock32Stall_safe (.refl s)
  | rtcFollowMeasurement => exact execRtcFollowMeasurement_safe (.refl s)
  | trimLearning => exact execTrimLearning_safe (.refl s)
  | trimLearnedStore => exact execTrimLearnedStore_safe (.refl s)
  | tamperEvaluation _ => exact execTamperEvaluation_safe (.refl s)
  | tamperPersistExpiry _ => exact execTamperPersistExpiry_safe (.refl s)
  | clearing => exact execClearing_safe (.refl s)
  | clockMonitorWindow _ _ _ => exact execClockMonitorWindow_safe (.refl s)
  | monitorInjection _ _ => exact execMonitorInjection_safe (.refl s)
  | keystoreCheck _ => exact execKeystoreCheck_safe (.refl s)
  | trngHealthFail => exact execTrngHealthFail_safe (.refl s)
  | trngRestart _ => exact execTrngRestart_safe (.refl s)
  | jtagUpdateIr _ => exact execJtagUpdateIr_safe (.refl s)
  | jtagReset => exact execJtagReset_safe (.refl s)
  | tamperRead _ => exact execTamperRead_safe (.refl s)
  | tamperAck _ _ _ => exact execTamperAck_safe (.refl s)
  | keyAgree _ _ _ => exact execKeyAgree_safe (.refl s)
  | provisionGenerate _ _ => exact execProvisionGenerate_safe (.refl s)
  | provisionInstall _ _ _ _ => exact execProvisionInstall_safe (.refl s)
  | canopyWatchdog _ => exact execCanopyWatchdog_safe (.refl s)
  | dspWatchdog => exact execDspWatchdog_safe (.refl s)
  | wardenWatchdog => exact execWardenWatchdog_safe (.refl s)
  | wardenRestartComplete => exact execWardenRestartComplete_safe (.refl s)
  | wardenHeartbeatTimeout => exact execWardenHeartbeatTimeout_safe (.refl s)
  | sensorSample _ _ => exact execSensorSample_safe (.refl s)
  | logEntryWrite => exact execLogEntryWrite_safe (.refl s)
  | logRead _ _ _ => exact execLogRead_safe (.refl s)
  | updateBegin _ _ => exact execUpdateBegin_safe (.refl s)
  | updateEraseDone => exact execUpdateEraseDone_safe (.refl s)
  | updateData _ _ => exact execUpdateData_safe (.refl s)
  | updateActivate _ _ _ => exact execUpdateActivate_safe (.refl s)
  | updateVerify _ _ => exact execUpdateVerify_safe (.refl s)
  | updateAbort _ => exact execUpdateAbort_safe (.refl s)
  | updateStatus _ => exact execUpdateStatus_safe (.refl s)
  | updateSafePoint => exact execUpdateSafePoint_safe (.refl s)
  | trialReadyTimeout => exact execTrialReadyTimeout_safe (.refl s)
  | updateTrialEnd => exact execUpdateTrialEnd_safe (.refl s)
  | transplantPrepare _ _ _ _ _ => exact execTransplantPrepare_safe (.refl s)
  | transplantPackageBuild => exact execTransplantPackageBuild_safe (.refl s)
  | transplantRead _ _ _ => exact execTransplantRead_safe (.refl s)
  | transplantDiscard _ => exact execTransplantDiscard_safe (.refl s)
  | transplantImport _ _ _ _ _ => exact execTransplantImport_safe (.refl s)
  | transplantApply => exact execTransplantApply_safe (.refl s)
  | powerStatus _ => exact execPowerStatus_safe (.refl s)
  | displayQuery _ _ _ => exact execDisplayQuery_safe (.refl s)
  | displayShowItem _ _ => exact execDisplayShowItem_safe (.refl s)
  | displayResumeScroll _ _ => exact execDisplayResumeScroll_safe (.refl s)
  | segmentTest _ _ => exact execSegmentTest_safe (.refl s)
  | segmentTestEnd => exact execSegmentTestEnd_safe (.refl s)
  | displayScroll => exact execDisplayScroll_safe (.refl s)
  | displayHoldExpiry => exact execDisplayHoldExpiry_safe (.refl s)
  | keyPress _ => exact execKeyPress_safe (.refl s)
  | keyRelease _ => exact execKeyRelease_safe (.refl s)
  | keyLongPress _ => exact execKeyLongPress_safe (.refl s)
  | keyRead _ _ => exact execKeyRead_safe (.refl s)
  | consoleAttach _ => exact execConsoleAttach_safe (.refl s)
  | consoleDetach _ => exact execConsoleDetach_safe (.refl s)
  | consoleStatus _ => exact execConsoleStatus_safe (.refl s)
  | consoleEnergy _ => exact execConsoleEnergy_safe (.refl s)
  | consoleRms _ => exact execConsoleRms_safe (.refl s)
  | consoleSupply _ => exact execConsoleSupply_safe (.refl s)
  | consoleLog _ => exact execConsoleLog_safe (.refl s)
  | testTdacOn _ _ _ _ => exact execTestTdacOn_safe (.refl s)
  | testTdacOff _ _ _ => exact execTestTdacOff_safe (.refl s)
  | tdacLevelExpiry => exact execTdacLevelExpiry_safe (.refl s)
  | testOutputForce _ _ _ _ => exact execTestOutputForce_safe (.refl s)
  | testOutputRelease _ _ _ => exact execTestOutputRelease_safe (.refl s)
  | testOutputExpiry _ => exact execTestOutputExpiry_safe (.refl s)
  | spiPacketFrame _ => exact execSpiPacketFrame_safe (.refl s)
  | uartFrameTransmit => exact execUartFrameTransmit_safe (.refl s)
  | calendarLeapSecond => exact execCalendarLeapSecond_safe (.refl s)
  | calendarRangeEnd => exact execCalendarRangeEnd_safe (.refl s)
  | clock32Resume => exact execClock32Resume_safe (.refl s)
  | deferredSeqExpiry _ => exact execDeferredSeqExpiry_safe (.refl s)
  | ownerAnswerTimeout _ _ _ => exact execOwnerAnswerTimeout_safe (.refl s)
  | restartDelayReset => exact execRestartDelayReset_safe (.refl s)
  | canopyRestartCountReset => exact execCanopyRestartCountReset_safe (.refl s)
  | learningTableAgeing => exact execLearningTableAgeing_safe (.refl s)
  | ownFrameAdmission => exact execOwnFrameAdmission_safe (.refl s)

/-! The idle cycle. -/

@[simp] theorem cycle_blazes (t : TimeEng) (d : Nat × Nat) : (t.cycle d).blazes = t.blazes := by
  unfold TimeEng.cycle; split <;> rfl

@[simp] theorem cycle_notches (t : TimeEng) (d : Nat × Nat) : (t.cycle d).notches = t.notches := by
  unfold TimeEng.cycle; split <;> rfl

theorem cycle_of_stopped {t : TimeEng} (h : t.running = false) (d : Nat × Nat) : t.cycle d = t := by
  simp [TimeEng.cycle, h]

theorem le_cycle_cnt (t : TimeEng) (d : Nat × Nat) : t.cnt ≤ (t.cycle d).cnt := by
  unfold TimeEng.cycle
  split
  · exact Nat.le_add_right _ _
  · exact le_rfl

@[simp] theorem nextSecond_alarms (r : Rtc) : r.nextSecond.alarms = r.alarms := by
  unfold Rtc.nextSecond
  split
  · rfl
  · split <;> rfl

@[simp] theorem addSub_alarms (r : Rtc) (n : Nat) : (r.addSub n).alarms = r.alarms := by
  induction n generalizing r with
  | zero => rfl
  | succ n ih =>
    rw [Rtc.addSub, ih]
    split
    · rfl
    · exact nextSecond_alarms r

@[simp] theorem tookSlew_alarms (r : Rtc) : r.tookSlew.alarms = r.alarms := by
  unfold Rtc.tookSlew; split <;> rfl

@[simp] theorem tick32_alarms (r : Rtc) (trim : Int) : (r.tick32 trim).alarms = r.alarms := by
  unfold Rtc.tick32
  simp only
  split
  · rfl
  · rw [addSub_alarms]; exact tookSlew_alarms r

@[simp] theorem rtc_cycle_alarms (r : Rtc) (trim rate : Int) (now : Nat) : (r.cycle trim rate now).alarms = r.alarms := by
  unfold Rtc.cycle
  split
  · rfl
  · split
    · rfl
    · exact tick32_alarms _ _

/-- What an idle cycle does before the calendar's due step and the action of a key: the counters move. -/
def State.counted (s : State) : State :=
  { s with te := s.te.cycle (countStep s),
           rtc := if s.pw.aonUp then s.rtc.cycle (appliedTrim s) (pllRate s) (s.te.cycle (countStep s)).cnt else s.rtc,
           clk := s.clk + 1 }

theorem counted_inv {s : State} (hi : s.Inv) : s.counted.Inv :=
  inv_of hi rfl rfl rfl rfl fun hs => by
    have ha : s.counted.rtc.alarms = s.rtc.alarms := by
      unfold State.counted
      split
      · exact rtc_cycle_alarms ..
      · rfl
    unfold State.Shape at hs ⊢
    rw [ha]
    simpa [State.counted] using hs

theorem tick_safe_of_counted (s : State) : Safe s.counted s.tick := keyTick_safe (followStep_safe (.refl _))

theorem tick_changes_of_counted (s : State) :
    Changes [.rtc, .lk, .wd, .hm, .chans, .stands, .seqs, .units] s.counted s.tick :=
  keyTick_ch (followStep_ch (.refl _ _) rfl) rfl

/-- Settles O5: every arm of `exec` keeps the queue and the clock. -/
theorem commandsLeaveTheQueueAlone : Obligations.CommandsLeaveTheQueueAlone := by
  intro c s t h
  have H := exec_safe c s t h
  exact ⟨H.pending, H.clk⟩

/-- Settles O3: every arm of `exec` keeps the invariant, and so does an idle cycle. -/
theorem stepKeepsTheInvariant : Obligations.StepKeepsTheInvariant := by
  intro s t hi h
  unfold step at h
  split at h
  next =>
    obtain rfl := Host.Outcome.next.inj h
    exact (tick_safe_of_counted s).inv (counted_inv hi)
  next c r _ => exact (exec_safe c _ t h).inv hi

/-- Settles O1: an idle cycle moves the counters, and what follows it touches none of the parts named. -/
theorem stepRunsTheFrontCommand : Obligations.StepRunsTheFrontCommand := by
  intro s
  refine ⟨fun _ _ => rfl, fun hp => ⟨s.tick, by simp [step, hp], ?_⟩⟩
  have hs := tick_safe_of_counted s
  have hc := tick_changes_of_counted s
  have hte : s.tick.te = s.te.cycle (countStep s) := hc.te rfl
  refine ⟨hs.clk, hc.hw rfl, hc.me rfl, hc.pr rfl, hc.pw rfl, hs.pending.trans hp, ?_, ?_⟩
  · exact fun hr => hte.trans (cycle_of_stopped hr _)
  · exact fun _ => hte ▸ le_cycle_cnt _ _

end Sys2Proof.Machine
end

section
/-! THEOREMS. Requests wait for the instant of an earlier commit and for room in the outbound stream (R22, R304, R328; O50). -/

namespace Sys2Proof.Machine

variable {s : State}

/-! ### What ends a commit (R328) -/

/-- A change of the servo takes offsets that waited into use, and changes nothing else of the parameters. -/
theorem servoTo_pr (s : State) (n : Servo) (th : Int) : (s.servoTo n th).pr =
    { s.pr with applied := (s.servoTo n th).pr.applied, scheduled := (s.servoTo n th).pr.scheduled } := by
  unfold State.servoTo
  split
  · rfl
  · extract_lets frozen s1 s11 s12 s2 s3
    have h1 : Changes [.pw, .te, .rtc, .hw, .lk, .wd, .pm, .free] s s1 := onTe_ch (.refl _ _) rfl
    have h11 : Changes [.pw, .te, .rtc, .hw, .lk, .wd, .pm, .free] s s11 :=
      ch_ite (fun _ => storeDevice_ch h1 rfl) fun _ => h1
    have h12 : Changes [.pw, .te, .rtc, .hw, .lk, .wd, .pm, .free] s s12 :=
      ch_ite (fun _ => stopFollowing_ch (onPm_ch h11 rfl) rfl) fun _ => h11
    have h3 : s3.pr = s.pr := (restage_ch (drew_ch (log_ch (irq_ch h12 rfl) rfl) rfl) rfl).pr rfl
    split
    · rw [State.takeScheduled, onPr_pr, h3]
    · rw [h3]

@[simp] theorem servoTo_committing (s : State) (n : Servo) (th : Int) : (s.servoTo n th).pr.committing = s.pr.committing := by
  rw [servoTo_pr]

@[simp] theorem servoTo_committed (s : State) (n : Servo) (th : Int) : (s.servoTo n th).pr.committed = s.pr.committed := by
  rw [servoTo_pr]

@[simp] theorem commitMember_committing (s : State) (id v : Nat) :
    (s.commitMember id v).pr.committing = s.pr.committing := by
  unfold State.commitMember
  split
  · rfl
  · split <;> rfl

@[simp] theorem commitSource_committing (s : State) (old : Nat) : (s.commitSource old).pr.committing = s.pr.committing := by
  unfold State.commitSource
  extract_lets n s1
  split
  · rfl
  · split
    · exact servoTo_committing ..
    · rfl

@[simp] theorem setLeap_committing (s : State) (v : Nat) : (s.setLeap v).pr.committing = s.pr.committing := by
  have h : Changes [.hw, .wd, .rtc] (s.storePar (pid 7 0 14) v) (s.setLeap v) := onRtc_ch (storeP0_ch (.refl _ _) rfl) rfl
  rw [h.pr rfl]
  rfl

theorem commitEffects_committing (s old : State) (p : List (Nat × Nat)) :
    (s.commitEffects old p).pr.committing = s.pr.committing := by
  unfold State.commitEffects
  extract_lets ids s1 s2 s3 s4 s5 s51 s6
  have h3 : Changes [.rtc, .tp, .se, .wd, .hm, .me] s s3 := by
    have h2 : Changes [.rtc, .tp, .se, .wd, .hm, .me] s s2 :=
      ch_foldl (fun _ _ h => commitResponse_ch h rfl) (ch_foldl (fun _ _ h => commitAlarm_ch h rfl) (.refl _ _))
    exact ch_ite (fun _ => lockActions_ch h2 rfl) fun _ => h2
  have h4 : s4.pr.committing = s.pr.committing := by
    have h : Changes [.rtc] (s3.commitSource (par old 0x3800)) s4 := commitFollow_ch (.refl _ _) rfl
    rw [h.pr rfl, commitSource_committing, h3.pr rfl]
  have h5 : s5.pr.committing = s.pr.committing := by
    unfold s5
    split
    · rw [setLeap_committing, h4]
    · exact h4
  have h6 : s6.pr.committing = s.pr.committing := by
    have h : Changes [.se, .lk, .wd, .nt, .hm, .pm] s5 s6 :=
      commitPmu_ch (ch_foldl (fun _ _ h => ch_ite (fun _ => commitPhy_ch h rfl) fun _ => h) (.refl _ _)) rfl
    rw [h.pr rfl, h5]
  split
  · exact h6
  · exact h6

theorem commitAll_committing (s : State) : s.commitAll.1.pr.committing = s.pr.committing := by
  unfold State.commitAll
  extract_lets p s1
  split
  next s2 stored he =>
    have h2 : Changes [.hw, .wd] s1 s2 := by
      have h := storeSet_ch (.refl [.hw, .wd] s1) rfl
      rwa [he] at h
    split
    · rfl
    · extract_lets s3 s4 s5 s6
      have h3 : s3.pr.committing = s.pr.committing :=
        List.foldlRecOn (motive := fun x : State => x.pr.committing = s.pr.committing) _ _ (by rw [h2.pr rfl]; rfl)
          fun x h e _ => (commitMember_committing ..).trans h
      have h6 : Changes [.hw, .wd] s3 s6 :=
        ch_foldl (fun _ _ h => logParam_ch h rfl)
          (log_ch (ch_ite (fun _ => .refl _ _) fun _ => pioUpdate_ch (.refl _ _) rfl) rfl)
      exact (commitEffects_committing ..).trans (by rw [h6.pr rfl, h3])

@[simp] theorem answer_pr (s : State) (h : Hdr) (opcode : Nat) (st : Status) (bytes : List Byte) (sec : Bool) :
    (s.answer h opcode st bytes sec).pr = s.pr :=
  (answer_ch (.refl [.lk, .tp, .nt, .hm] s) rfl).pr rfl

/-- After the instant of a commit none waits. -/
theorem finishCommit_committing (s : State) (h : Hdr) : (s.finishCommit h).pr.committing = none := by
  unfold State.finishCommit
  extract_lets s1
  have h2 := commitAll_committing s1
  split
  · rw [answer_pr]; rfl
  · split
    next s2 he => rw [answer_pr]; rw [he] at h2; exact h2
    next s2 he => rw [answer_pr]; rw [he] at h2; exact h2

theorem settled_of_committing {c : Hdr} (hc : s.pr.committing = some c) : s.settled = s.finishCommit c := by
  simp [State.settled, hc]

theorem settled_of_idle (hc : s.pr.committing = none) : s.settled = s := by
  simp [State.settled, hc]

@[simp] theorem settled_settled (s : State) : s.settled.settled = s.settled := by
  cases hc : s.pr.committing with
  | none => rw [settled_of_idle hc, settled_of_idle hc]
  | some c => rw [settled_of_committing hc, settled_of_idle (finishCommit_committing s c)]

/-! ### Requests that depend on the settled state alone -/

/-- What a request does depends on the state after the instant of an earlier commit alone, and where none waits and its lane's
outbound stream is full, it does nothing. -/
def Waits (i : Instr) (h : Hdr) : Prop :=
  (∀ s, exec i s.settled = exec i s) ∧ ∀ s, s.pr.committing = none → streamFull s h = true → exec i s = .next s

theorem serve_settled (op : Op) (h : Hdr) (lenOk : Bool) (checks : State → List (Bool × Status)) (act : State → Ans) (s : State) :
    serve op h lenOk checks act s.settled = serve op h lenOk checks act s := by
  simp [serve]

theorem serve_of_streamFull {op : Op} {h : Hdr} {lenOk : Bool} {checks : State → List (Bool × Status)} {act : State → Ans}
    (hc : s.pr.committing = none) (hf : streamFull s h = true) : serve op h lenOk checks act s = s := by
  simp [serve_of_idle hc, serveNow, hf]

theorem waits_of_serve {i : Instr} {op : Op} {h : Hdr} {lenOk : Bool} {checks : State → List (Bool × Status)} {act : State → Ans}
    (he : ∀ s, exec i s = .next (serve op h lenOk checks act s)) : Waits i h :=
  ⟨fun s => by rw [he, he, serve_settled], fun s hc hf => by rw [he, serve_of_streamFull hc hf]⟩

theorem commitGoes_of_streamFull {h : Hdr} (hf : streamFull s h = true) : commitGoes s h = false := by
  simp [commitGoes, hf]

/-- A COMMIT_PARAMS is judged and noted on the settled state; one that no commit will answer is served as the others are. -/
theorem waits_commitParams (h : Hdr) : Waits (.commitParams h) h := by
  refine ⟨fun s => ?_, fun s hc hf => ?_⟩
  · dsimp only [exec, execCommitParams]
    rw [settled_settled, serve_settled]
  · dsimp only [exec, execCommitParams]
    rw [settled_of_idle hc, commitGoes_of_streamFull hf, if_neg Bool.false_ne_true, serve_of_streamFull hc hf]

/-- Settles O50: COMMIT_PARAMS is the ninth of these requests, and the interpreter alone serves every other. -/
theorem requestsWaitForCommitAndStream : Obligations.RequestsWaitForCommitAndStream := by
  intro s h bs id which n ids items i hi
  have hw : Waits i h := by
    simp only [List.mem_cons, List.not_mem_nil, or_false] at hi
    rcases hi with rfl | rfl | rfl | rfl | rfl | rfl | rfl | rfl | rfl | rfl | rfl | rfl | rfl | rfl | rfl | rfl | rfl | rfl |
      rfl | rfl | rfl | rfl | rfl
    pick_goal 9
    · exact waits_commitParams h
    all_goals exact waits_of_serve fun _ => rfl
  obtain ⟨hs, hf⟩ := hw
  exact ⟨fun c hc => ⟨finishCommit_committing s c, by rw [← settled_of_committing hc, hs]⟩, hf s⟩

end Sys2Proof.Machine
end

section
/-! THEOREMS. Without Canopy the stage is 2, and what needs stage 3 is answered NOT_IN_STAGE (R26; O56). -/

namespace Sys2Proof.Machine

/-- A request whose opcode needs a higher stage is answered NOT_IN_STAGE on the accepted state, before its length, its operands
and the checks of its opcode are looked at. -/
theorem serve_of_low_stage {op : Op} {h : Hdr} {s : State} {lenOk : Bool} {checks : State → List (Bool × Status)}
    {act : State → Ans} (hcm : s.pr.committing = none) (hsf : streamFull s h = false) (ha : consoleAbsent s h = false)
    (hau : authentic s h = true) (hb : ∀ b, op.bulk = some b → h.bulk = b) (hu : consoleUnknown h op.code = false)
    (h2 : 2 ≤ s.pw.stage) (hm : s.pw.stage < op.minStage) :
    serve op h lenOk checks act s = (s.accepted h).answer h op.code .notInStage op.blank := by
  have hb' : op.bulk.any (· != h.bulk) = false := by
    cases hq : op.bulk with
    | none => rfl
    | some b => simp [hb b hq]
  have h0 : (s.pw.stage == 0) = false := by simp; omega
  have h1 : (s.pw.stage == 1) = false := by simp; omega
  have hpw := accepted_pw s h
  rw [serve_of_idle hcm]
  unfold serveNow
  unfold State.accepted at hpw ⊢
  simp only [h0, h1, ha, hsf, hau, hb', hu, hpw, hm, Bool.or_self, Bool.not_true, if_false, Bool.false_eq_true, decide_true,
    Bool.true_or, if_true]

/-- While the Warden serves, bits 2 to 0 of snap word STAGE hold the stage. -/
theorem snapWord_stage_mod (s : State) (h : s.pw.stage ≠ 1) (hs : s.pw.stage < 8) : snapWord s 0x04 % 8 = s.pw.stage := by
  have hw : snapWord s 0x04 = stageWord s := by
    simp [snapWord, h]
  have hf (b : Bool) : flagAt b 4 % 8 = 0 ∧ flagAt b 5 % 8 = 0 := by cases b <;> decide
  have h4 := (hf s.pw.acct).1
  have h5 := (hf s.pw.handoverPending).2
  rw [hw, stageWord]
  omega

/-- Settles O56: without Canopy the invariant leaves no stage but 2, below what the opcode needs. -/
theorem canopyRestartReadsStageTwo : Obligations.CanopyRestartReadsStageTwo := by
  intro s hi hc h2
  have hs : s.pw.stage = 2 := le_antisymm (hi.stage_le_two hc) h2
  refine ⟨by rw [snapWord_stage_mod s (by omega) (by omega), hs], ?_, by decide⟩
  intro op h lenOk checks act hm hcm hsf ha hau hb hu
  exact serve_of_low_stage hcm hsf ha hau hb hu h2 (by omega)

end Sys2Proof.Machine
end

section
/-! LEMMAS. `Quiet z t`: from `z` to `t` the Warden's state changes in its log buffer alone, and kernels and time counter not at all.
Reading and writing the store, logging and the answer to a tamper event are quiet. -/

namespace Sys2Proof.Machine

variable {z s t : State}

/-- Parts in which a change leaves every field of `Quiet` as it was. -/
def calm : List Part := [.pw, .rtc, .hw, .se, .pr, .lk, .tp, .up, .tx, .nt, .hm, .ref, .chans, .convs, .stands, .seqs, .filts,
  .insts, .hist, .wave, .qu, .units, .pq, .pm, .clk, .free, .pending]

/-- What reading and writing the store, logging and the answer to a tamper event leave alone: the Warden's state but for its log
buffer, the kernels, and the time counter. -/
structure Quiet (z t : State) : Prop where
  wd : t.wd = { z.wd with buffer := t.wd.buffer, lost := t.wd.lost, lostSince := t.wd.lostSince }
  kernels : t.me.kernels = z.me.kernels
  fromB1 : t.me.fromB1 = z.me.fromB1
  cnt : t.te.cnt = z.te.cnt

theorem Quiet.refl (s : State) : Quiet s s := ⟨rfl, rfl, rfl, rfl⟩

theorem Quiet.trans {s t u : State} (h : Quiet s t) (g : Quiet t u) : Quiet s u :=
  ⟨by rw [g.wd, h.wd], g.kernels.trans h.kernels, g.fromB1.trans h.fromB1, g.cnt.trans h.cnt⟩

theorem Quiet.calm (H : Quiet z s) (h : Changes calm s t) : Quiet z t :=
  H.trans ⟨by rw [h.wd rfl], by rw [h.me rfl], by rw [h.me rfl], by rw [h.te rfl]⟩

theorem quiet_ite {c : Prop} [Decidable c] {a b : State} (ha : Quiet z a) (hb : Quiet z b) : Quiet z (if c then a else b) := by
  split
  · exact ha
  · exact hb

theorem quiet_ite_fst {α : Type} {c : Prop} [Decidable c] {a b : State × α} (ha : Quiet z a.1) (hb : Quiet z b.1) :
    Quiet z (if c then a else b).1 := by
  split
  · exact ha
  · exact hb

theorem quiet_pair {α : Type} {b : α} (H : Quiet z s) : Quiet z (s, b).1 := H

theorem quiet_foldl {α : Type} {f : State → α → State} {l : List α} {s : State}
    (hf : ∀ s a, Quiet z s → Quiet z (f s a)) (H : Quiet z s) : Quiet z (l.foldl f s) :=
  List.foldlRecOn l f H fun _ h _ _ => hf _ _ h

theorem quiet_foldl_fst {α β : Type} {f : State × β → α → State × β} {l : List α} {p : State × β}
    (hf : ∀ p a, Quiet z p.1 → Quiet z (f p a).1) (H : Quiet z p.1) : Quiet z (l.foldl f p).1 :=
  List.foldlRecOn (motive := fun p => Quiet z p.1) l f H fun _ h _ _ => hf _ _ h

theorem quiet_elim {α : Type} {o : Option α} {f : α → State} (H : Quiet z s) (hf : ∀ a, Quiet z (f a)) :
    Quiet z (o.elim s f) := by
  cases o with
  | none => exact H
  | some a => exact hf a

theorem onPw_quiet {f : Power → Power} (H : Quiet z s) : Quiet z (s.onPw f) := H.calm (onPw_ch (.refl _ _) rfl)
theorem onRtc_quiet {f : Rtc → Rtc} (H : Quiet z s) : Quiet z (s.onRtc f) := H.calm (onRtc_ch (.refl _ _) rfl)
theorem onHw_quiet {f : Heart → Heart} (H : Quiet z s) : Quiet z (s.onHw f) := H.calm (onHw_ch (.refl _ _) rfl)
theorem onSe_quiet {f : Sess → Sess} (H : Quiet z s) : Quiet z (s.onSe f) := H.calm (onSe_ch (.refl _ _) rfl)
theorem onPr_quiet {f : Params → Params} (H : Quiet z s) : Quiet z (s.onPr f) := H.calm (onPr_ch (.refl _ _) rfl)
theorem onTp_quiet {f : Tamper → Tamper} (H : Quiet z s) : Quiet z (s.onTp f) := H.calm (onTp_ch (.refl _ _) rfl)
theorem onUp_quiet {f : Update → Update} (H : Quiet z s) : Quiet z (s.onUp f) := H.calm (onUp_ch (.refl _ _) rfl)
theorem onNt_quiet {f : Net → Net} (H : Quiet z s) : Quiet z (s.onNt f) := H.calm (onNt_ch (.refl _ _) rfl)
theorem onHm_quiet {f : Hmi → Hmi} (H : Quiet z s) : Quiet z (s.onHm f) := H.calm (onHm_ch (.refl _ _) rfl)
theorem onRef_quiet {f : Ref → Ref} (H : Quiet z s) : Quiet z (s.onRef f) := H.calm (onRef_ch (.refl _ _) rfl)
theorem onPq_quiet {f : Pq → Pq} (H : Quiet z s) : Quiet z (s.onPq f) := H.calm (onPq_ch (.refl _ _) rfl)
theorem onPm_quiet {f : Pmu → Pmu} (H : Quiet z s) : Quiet z (s.onPm f) := H.calm (onPm_ch (.refl _ _) rfl)
theorem onStand_quiet {n : Nat} {f : Stand → Stand} (H : Quiet z s) : Quiet z (s.onStand n f) := H.calm
    (onStand_ch (.refl _ _) rfl)
theorem onChan_quiet {n : Nat} {f : Chan → Chan} (H : Quiet z s) : Quiet z (s.onChan n f) := H.calm (onChan_ch (.refl _ _) rfl)
theorem onFilt_quiet {n : Nat} {f : Filt → Filt} (H : Quiet z s) : Quiet z (s.onFilt n f) := H.calm (onFilt_ch (.refl _ _) rfl)
theorem onInst_quiet {n : Nat} {f : Inst → Inst} (H : Quiet z s) : Quiet z (s.onInst n f) := H.calm (onInst_ch (.refl _ _) rfl)
theorem drew_quiet {n : Nat} (H : Quiet z s) : Quiet z (s.drew n) := H.calm (drew_ch (.refl _ _) rfl)
theorem wr_quiet {a : Nat} {bs : List Byte} (H : Quiet z s) : Quiet z (s.wr a bs) := H.calm (wr_ch (.refl _ _) rfl)

theorem stands_quiet {l : List Stand} (H : Quiet z s) : Quiet z { s with stands := l } := H.trans ⟨rfl, rfl, rfl, rfl⟩

theorem onMe_quiet {f : Metro → Metro} (H : Quiet z s) (h : ∀ m, (f m).kernels = m.kernels)
    (hb : ∀ m, (f m).fromB1 = m.fromB1) :
    Quiet z (s.onMe f) :=
  H.trans ⟨rfl, h _, hb _, rfl⟩

theorem onTe_quiet {f : TimeEng → TimeEng} (H : Quiet z s) (h : ∀ t, (f t).cnt = t.cnt) : Quiet z (s.onTe f) :=
  H.trans ⟨rfl, rfl, rfl, h _⟩

theorem pushLog_quiet {e : LogEntry} (H : Quiet z s) : Quiet z (s.pushLog e) :=
  H.trans ⟨congrArg State.wd (pushLog_eq s e), by simp, by simp, by simp⟩

theorem pushConts_quiet {time code fl : Nat} {l : List (List Byte)} (H : Quiet z s) : Quiet z (s.pushConts time code fl l) := by
  induction l generalizing s with
  | nil => exact H
  | cons d r ih => exact ih (pushLog_quiet H)

theorem logAt_quiet {time code : Nat} {vbat deferred : Bool} {data : List Byte} {conts : List (List Byte)} (H : Quiet z s) :
    Quiet z (s.logAt time code vbat deferred data conts) :=
  pushConts_quiet (pushLog_quiet H)

theorem log_quiet {code : Nat} {data : List Byte} {conts : List (List Byte)} (H : Quiet z s) :
    Quiet z (s.log code data conts) :=
  logAt_quiet H

theorem baseFailLog_quiet {c : Check} {result ohm deg : Nat} (H : Quiet z s) : Quiet z (s.baseFailLog c result ohm deg) :=
  quiet_ite (log_quiet H) H

theorem setCheckResult_quiet {c result : Nat} (H : Quiet z s) : Quiet z (s.setCheckResult c result) :=
  H.calm (setCheckResult_ch (.refl _ _) rfl)

theorem abortCheck_quiet {k : Nat} (H : Quiet z s) : Quiet z (s.abortCheck k) := by
  unfold State.abortCheck
  split
  · exact H
  · exact onStand_quiet (baseFailLog_quiet (setCheckResult_quiet H))

theorem restoreTrim_quiet {k v : Nat} (H : Quiet z s) : Quiet z (s.restoreTrim k v) :=
  H.calm (restoreTrim_ch (.refl _ _) rfl)

theorem abortSpareRest_quiet {k : Nat} (H : Quiet z s) : Quiet z (s.abortSpareRest k) :=
  H.calm (abortSpareRest_ch (.refl _ _) rfl)

theorem uncorrectable_quiet {w : Nat} (H : Quiet z s) : Quiet z (s.uncorrectable w) :=
  log_quiet (onHw_quiet H)

theorem senseFlip_quiet {f : Flip} (H : Quiet z s) : Quiet z (s.senseFlip f) :=
  quiet_ite (uncorrectable_quiet H) (log_quiet (onHw_quiet H))

theorem sense_quiet {a n : Nat} (H : Quiet z s) : Quiet z (s.sense a n) :=
  quiet_foldl (fun _ _ h => senseFlip_quiet h) H

theorem sensePair_quiet {part page : Nat} (H : Quiet z s) : Quiet z (s.sensePair part page) :=
  sense_quiet H

theorem pageWrite_quiet {part page : Nat} {bs : List Byte} (H : Quiet z s) : Quiet z (s.pageWrite part page bs) :=
  H.calm (pageWrite_ch (.refl _ _) rfl)

theorem recordFix_quiet {part id page : Nat} (H : Quiet z s) : Quiet z (s.recordFix part id page) := by
  unfold State.recordFix
  extract_lets s1
  have h1 : Quiet z s1 := sensePair_quiet H
  split
  · exact quiet_ite (log_quiet (onHw_quiet (pageWrite_quiet h1))) h1
  · exact onHw_quiet (pageWrite_quiet h1)
  · exact onHw_quiet (pageWrite_quiet h1)
  · exact log_quiet h1

theorem fixRecord_quiet {part : Nat} {e : Nat × Nat} (H : Quiet z s) : Quiet z (s.fixRecord part e) :=
  quiet_ite H (recordFix_quiet H)

theorem andThen_quiet {r : State × Bool} {f : State → State × Bool} (H : Quiet z r.1) (hf : ∀ x, Quiet z x → Quiet z (f x).1) :
    Quiet z (andThen r f).1 :=
  quiet_ite_fst (hf _ H) H

theorem recordPut_quiet {part : Nat} {e : Nat × Nat} {flags seq : Nat} {payload : List Byte} (H : Quiet z s) :
    Quiet z (s.recordPut part e flags seq payload).1 := by
  unfold State.recordPut
  extract_lets page put good s1 s2
  have h1 : Quiet z s1 := sense_quiet (pageWrite_quiet H)
  have h2 : Quiet z s2 := sense_quiet (pageWrite_quiet h1)
  exact quiet_ite_fst h1 (quiet_ite_fst h2 (quiet_pair (log_quiet h2)))

theorem itemPut_quiet {part : Nat} {l : List (Nat × Nat)} {bs : List Byte} (H : Quiet z s) :
    Quiet z (s.itemPut part l bs).1 := by
  unfold State.itemPut
  extract_lets s1 q
  have h1 : Quiet z s1 := quiet_foldl (fun _ _ h => fixRecord_quiet h) H
  exact quiet_foldl_fst (fun _ _ h => andThen_quiet h (fun _ h2 => recordPut_quiet h2)) h1

theorem itemWrite_quiet {part : Nat} {l : List (Nat × Nat)} {bs : List Byte} (H : Quiet z s) :
    Quiet z (s.itemWrite part l bs) :=
  itemPut_quiet H

theorem storeDevice_quiet (H : Quiet z s) : Quiet z s.storeDevice :=
  itemWrite_quiet H

theorem stopFollowing_quiet (H : Quiet z s) : Quiet z s.stopFollowing :=
  H.calm (stopFollowing_ch (.refl _ _) rfl)

theorem irq_quiet {b : Nat} (H : Quiet z s) : Quiet z (s.irq b) :=
  H.calm (irq_ch (.refl _ _) rfl)

theorem pmuAutoStart_quiet (H : Quiet z s) : Quiet z s.pmuAutoStart :=
  H.calm (pmuAutoStart_ch (.refl _ _) rfl)

theorem enterStage_quiet {n : Nat} (H : Quiet z s) : Quiet z (s.enterStage n) :=
  quiet_ite H (log_quiet (irq_quiet (onPw_quiet H)))

theorem restage_quiet (H : Quiet z s) : Quiet z s.restage := by
  unfold State.restage
  exact quiet_ite H (quiet_ite (quiet_ite H (pmuAutoStart_quiet (enterStage_quiet H))) (enterStage_quiet H))

theorem takeScheduled_quiet {p : Nat → Bool} (H : Quiet z s) : Quiet z (s.takeScheduled p) :=
  H.calm (takeScheduled_ch (.refl _ _) rfl)

theorem servoTo_quiet {n : Servo} {th : Int} (H : Quiet z s) : Quiet z (s.servoTo n th) := by
  unfold State.servoTo
  refine quiet_ite H ?_
  extract_lets frozen s1 s11 s12 s2 s3
  have h1 : Quiet z s1 := onTe_quiet H (fun _ => rfl)
  have h11 : Quiet z s11 := quiet_ite (storeDevice_quiet h1) h1
  have h12 : Quiet z s12 := quiet_ite (stopFollowing_quiet (onPm_quiet h11)) h11
  have h2 : Quiet z s2 := log_quiet (irq_quiet h12)
  have h3 : Quiet z s3 := restage_quiet (drew_quiet h2)
  exact quiet_ite (takeScheduled_quiet h3) h3

theorem onSlot_quiet {n : Nat} {f : Slot → Slot} (H : Quiet z s) : Quiet z (s.onSlot n f) :=
  H.calm (onSlot_ch (.refl _ _) rfl)

theorem tamperClear_quiet {slot circuit : Nat} (H : Quiet z s) : Quiet z (s.tamperClear slot circuit) :=
  quiet_ite (onSlot_quiet H) (quiet_ite (log_quiet (onSlot_quiet H)) H)

theorem onAlarm_quiet {k : Nat} {f : Alarm → Alarm} (H : Quiet z s) : Quiet z (s.onAlarm k f) :=
  H.calm (onAlarm_ch (.refl _ _) rfl)

theorem resolvePend_quiet {k : Nat} (H : Quiet z s) : Quiet z (s.resolvePend k) := by
  unfold State.resolvePend
  extract_lets a s1 seq
  have h1 : Quiet z s1 := quiet_ite (irq_quiet H) H
  split
  · exact H
  · refine quiet_ite ?_ ?_
    · extract_lets s2
      have h2 : Quiet z s2 := quiet_ite (logAt_quiet h1) h1
      exact onAlarm_quiet h2
    · extract_lets n
      exact logAt_quiet (onAlarm_quiet H)

theorem pioUpdate_quiet (H : Quiet z s) : Quiet z s.pioUpdate :=
  H.calm (pioUpdate_ch (.refl _ _) rfl)

theorem copyInst_quiet {v c : Nat} (H : Quiet z s) : Quiet z (s.copyInst v c) :=
  H.calm (copyInst_ch (.refl _ _) rfl)

theorem unsettle_quiet {v : Nat} (H : Quiet z s) : Quiet z (s.unsettle v) :=
  H.calm (unsettle_ch (.refl _ _) rfl)

theorem shadowFor_quiet {k slot : Nat} (H : Quiet z s) : Quiet z (s.shadowFor k slot) :=
  H.calm (shadowFor_ch (.refl _ _) rfl)

theorem splice_quiet {k c : Nat} {toSpare : Bool} (H : Quiet z s) : Quiet z (s.splice k c toSpare) :=
  H.calm (splice_ch (.refl _ _) rfl)

theorem loadDone_quiet {c : Nat} (H : Quiet z s) : Quiet z (s.loadDone c) := by
  unfold State.loadDone
  split
  · exact H
  · extract_lets s1 k s2
    have h1 : Quiet z s1 := onFilt_quiet H
    have h2 : Quiet z s2 := quiet_ite (onInst_quiet h1) h1
    exact log_quiet h2

theorem recallHome_quiet {k : Nat} (H : Quiet z s) : Quiet z (s.recallHome k) :=
  quiet_ite (quiet_ite (onStand_quiet (loadDone_quiet (unsettle_quiet (restoreTrim_quiet H))))
    (loadDone_quiet (splice_quiet H))) H

theorem takeover_quiet {k c : Nat} (H : Quiet z s) : Quiet z (s.takeover k c) := by
  unfold State.takeover
  extract_lets d s1 s0 s11 s2
  have h1 : Quiet z s1 := abortCheck_quiet H
  have h0 : Quiet z s0 := copyInst_quiet (unsettle_quiet (recallHome_quiet (abortSpareRest_quiet h1)))
  have h11 : Quiet z s11 := quiet_ite h1 (quiet_ite (splice_quiet h1) (onStand_quiet h0))
  have h2 : Quiet z s2 := onStand_quiet h11
  exact quiet_ite h2 (pioUpdate_quiet h2)

theorem onInsts_quiet {c : Nat} {f : Inst → Inst} (H : Quiet z s) : Quiet z (s.onInsts c f) :=
  H.calm (onInsts_ch (.refl _ _) rfl)

theorem latchRaise_quiet {r : Raise} (H : Quiet z s) : Quiet z (s.latchRaise r) :=
  H.calm (latchRaise_ch (.refl _ _) rfl)

theorem bufferRaise_quiet {slot : Nat} (H : Quiet z s) : Quiet z (s.bufferRaise slot) :=
  H.calm (bufferRaise_ch (.refl _ _) rfl)

theorem leaveCfTest_quiet {p : Cf → Bool} {stays : Bool} (H : Quiet z s) : Quiet z (s.leaveCfTest p stays) :=
  log_quiet (onMe_quiet H (fun _ => rfl) (fun _ => rfl))

theorem endCfTest_quiet (H : Quiet z s) : Quiet z s.endCfTest :=
  quiet_ite (leaveCfTest_quiet H) H

theorem lockActions_quiet (H : Quiet z s) : Quiet z s.lockActions :=
  onHm_quiet (endCfTest_quiet (onSe_quiet H))

theorem respond_quiet {resp : Nat} (H : Quiet z s) : Quiet z (s.respond resp) := by
  unfold State.respond
  extract_lets s1
  have h1 : Quiet z s1 := quiet_ite (lockActions_quiet H) H
  exact quiet_ite (irq_quiet h1) h1

theorem newChallenge_quiet (H : Quiet z s) : Quiet z s.newChallenge :=
  H.calm (newChallenge_ch (.refl _ _) rfl)

theorem logRaise_quiet {r : Raise} (H : Quiet z s) : Quiet z (s.logRaise r) := by
  unfold State.logRaise
  extract_lets d s1
  have h1 : Quiet z s1 := logAt_quiet H
  exact quiet_ite h1 (logAt_quiet h1)

theorem raiseAll_quiet {l : List Raise} (H : Quiet z s) : Quiet z (s.raiseAll l) := by
  unfold State.raiseAll
  extract_lets s1 mask s2 s21
  have h1 : Quiet z s1 := quiet_foldl (fun _ _ h => latchRaise_quiet h) H
  have h2 : Quiet z s2 := quiet_foldl (fun _ _ h => bufferRaise_quiet h) h1
  have h21 : Quiet z s21 := respond_quiet (quiet_foldl (fun _ _ h => newChallenge_quiet h) h1)
  exact quiet_ite (quiet_ite h2 (onTp_quiet h2))
    (quiet_ite (quiet_foldl (fun _ _ h => logRaise_quiet h) h21) (onTp_quiet h21))

theorem tamperRaise_quiet {slot circuit : Nat} {holds : Bool} (H : Quiet z s) : Quiet z (s.tamperRaise slot circuit holds) :=
  raiseAll_quiet H

theorem tamperPulse_quiet {slot : Nat} (H : Quiet z s) : Quiet z (s.tamperPulse slot) :=
  quiet_ite H (tamperRaise_quiet H)

theorem bootAuth_quiet {ok : Bool} (H : Quiet z s) : Quiet z (s.bootAuth ok) :=
  quiet_ite H (tamperPulse_quiet H)

theorem onRegion_quiet {k b : Nat} {f : Region → Region} (H : Quiet z s) : Quiet z (s.onRegion k b f) :=
  H.calm (onRegion_ch (.refl _ _) rfl)

theorem countTrial_quiet {k b : Nat} (H : Quiet z s) : Quiet z (s.countTrial k b) :=
  H.calm (countTrial_ch (.refl _ _) rfl)

theorem resumeTrial_quiet {k b : Nat} (H : Quiet z s) : Quiet z (s.resumeTrial k b) :=
  H.calm (resumeTrial_ch (.refl _ _) rfl)

theorem runRegion_quiet {k b : Nat} (H : Quiet z s) : Quiet z (s.runRegion k b) :=
  H.calm (runRegion_ch (.refl _ _) rfl)

theorem bootChoice_quiet {k : Nat} {firstOk otherOk powerUp : Bool} (H : Quiet z s) :
    Quiet z (s.bootChoice k firstOk otherOk powerUp).1 := by
  unfold State.bootChoice
  extract_lets b s1 s2 o
  have h1 : Quiet z s1 := quiet_ite (countTrial_quiet H) H
  have h2 : Quiet z s2 := quiet_ite (bootAuth_quiet h1) h1
  exact quiet_ite_fst (quiet_pair (resumeTrial_quiet (runRegion_quiet h1)))
    (quiet_ite_fst (quiet_pair (resumeTrial_quiet (runRegion_quiet h2))) (quiet_pair (quiet_ite (bootAuth_quiet h2) h2)))

theorem bootKind_quiet {k : Nat} {firstOk otherOk powerUp : Bool} (H : Quiet z s) :
    Quiet z (s.bootKind k firstOk otherOk powerUp).1 := by
  unfold State.bootKind
  extract_lets r
  have hr : Quiet z r.1 := bootChoice_quiet H
  exact quiet_pair (onUp_quiet hr)

theorem cancelLoad_quiet {c : Nat} (H : Quiet z s) : Quiet z (s.cancelLoad c) := by
  unfold State.cancelLoad
  split
  · exact H
  · exact log_quiet (onFilt_quiet H)

theorem cancelLoading_quiet {c : Nat} (H : Quiet z s) : Quiet z (s.cancelLoading c) := by
  unfold State.cancelLoading
  split
  · exact H
  · exact log_quiet (onFilt_quiet H)

theorem cutCheckpoint_quiet (H : Quiet z s) : Quiet z s.cutCheckpoint :=
  H.calm (cutCheckpoint_ch (.refl _ _) rfl)

theorem checkpoint_quiet {src : State} {kind : Nat} (H : Quiet z s) : Quiet z (s.checkpoint src kind) := by
  unfold State.checkpoint
  refine quiet_ite H ?_
  extract_lets s1 old marks rest s11
  have h1 : Quiet z s1 := quiet_ite (cutCheckpoint_quiet H) H
  have h11 : Quiet z s11 := quiet_ite h1 (quiet_elim h1 (fun _ => sense_quiet h1))
  split
  · extract_lets img
    exact drew_quiet (onPq_quiet (onHw_quiet h11))

theorem trialFail_quiet {kind : Nat} (H : Quiet z s) : Quiet z (s.trialFail kind) := by
  unfold State.trialFail
  refine quiet_ite ?_ H
  extract_lets s1
  have h1 : Quiet z s1 := drew_quiet (onUp_quiet (onRegion_quiet H))
  exact quiet_ite (checkpoint_quiet h1) h1

theorem readyLate_quiet (H : Quiet z s) : Quiet z s.readyLate :=
  quiet_ite (trialFail_quiet H) H

theorem closeOwed_quiet (H : Quiet z s) : Quiet z s.closeOwed :=
  onMe_quiet H (fun _ => rfl) (fun _ => rfl)

theorem loseChan_quiet {c : Nat} (H : Quiet z s) : Quiet z (s.loseChan c) :=
  quiet_ite H (log_quiet (onChan_quiet H))

theorem condemn_quiet {v cause : Nat} (H : Quiet z s) : Quiet z (s.condemn v cause) := by
  unfold State.condemn
  extract_lets k d chan first s1 s2 s3 held s0 s4 s5
  have h1 : Quiet z s1 := log_quiet (storeDevice_quiet (onStand_quiet H))
  have h2 : Quiet z s2 := abortCheck_quiet h1
  have h3 : Quiet z s3 := quiet_ite (quiet_foldl (fun _ _ h => cancelLoad_quiet h) h2) h2
  have h0 : Quiet z s0 := quiet_ite (loseChan_quiet h3) (recallHome_quiet h3)
  have h4 : Quiet z s4 := quiet_ite (quiet_ite (loseChan_quiet h3) (takeover_quiet h3)) (onStand_quiet h0)
  have h5 : Quiet z s5 := quiet_ite (quiet_foldl (fun _ _ h => cancelLoading_quiet h) h4) h4
  exact quiet_ite H (onStand_quiet h5)

theorem filterReload_quiet {c : Nat} (H : Quiet z s) : Quiet z (s.filterReload c) := by
  unfold State.filterReload
  extract_lets s1 s2 q
  have h1 : Quiet z s1 := quiet_ite (onFilt_quiet H) (cancelLoading_quiet (cancelLoad_quiet H))
  have h2 : Quiet z s2 := by
    unfold s2
    split
    · exact h1
    · exact log_quiet h1
  exact onInsts_quiet (onFilt_quiet h2)

theorem standAbort_quiet {k : Nat} (H : Quiet z s) : Quiet z (s.standAbort k) := by
  unfold State.standAbort
  extract_lets s1 s3
  have h1 : Quiet z s1 := abortCheck_quiet H
  have h3 : Quiet z s3 := recallHome_quiet (abortSpareRest_quiet h1)
  split
  · exact unsettle_quiet h3
  · exact h3

theorem standJoin_quiet {k : Nat} (H : Quiet z s) : Quiet z (s.standJoin k) := by
  unfold State.standJoin
  extract_lets d s1 s2 bad c
  have h1 : Quiet z s1 := onStand_quiet H
  have h2 : Quiet z s2 := onStand_quiet h1
  exact quiet_ite (shadowFor_quiet (onStand_quiet h1))
    (quiet_ite (quiet_foldl (fun _ _ h => loseChan_quiet h) (onStand_quiet h2))
    (quiet_foldl (fun _ _ h => loseChan_quiet h) (quiet_ite (onStand_quiet h2) (takeover_quiet h2))))

theorem standStart_quiet {k : Nat} (H : Quiet z s) : Quiet z (s.standStart k) :=
  quiet_foldl (fun _ _ h => quiet_ite (condemn_quiet h) h) (standJoin_quiet H)

theorem fixItem_quiet {part : Nat} {l : List (Nat × Nat)} (H : Quiet z s) : Quiet z (s.fixItem part l) := by
  unfold State.fixItem
  extract_lets s1
  have h1 : Quiet z s1 := quiet_foldl (fun _ _ h => fixRecord_quiet h) H
  exact quiet_ite (log_quiet h1) h1

theorem tamperCond_quiet {slot circuit : Nat} {holds : Bool} (H : Quiet z s) : Quiet z (s.tamperCond slot circuit holds) :=
  quiet_ite H (quiet_ite (quiet_ite H (quiet_ite (tamperRaise_quiet H) (onSlot_quiet H))) (tamperClear_quiet (onSlot_quiet H)))

theorem takeRegisters_quiet {img : List Byte} (H : Quiet z s) : Quiet z (s.takeRegisters img) :=
  onMe_quiet H (fun _ => rfl) (fun _ => rfl)

theorem loadBooks_quiet {img : List Byte} (H : Quiet z s) : Quiet z (s.loadBooks img) := by
  unfold State.loadBooks
  extract_lets s1
  have h1 : Quiet z s1 := takeRegisters_quiet H
  exact onMe_quiet h1 (fun _ => rfl) (fun _ => rfl)

theorem loadLedger_quiet (H : Quiet z s) : Quiet z s.loadLedger := by
  unfold State.loadLedger
  extract_lets s1 s11 s2
  have h1 : Quiet z s1 := sense_quiet (sense_quiet H)
  have h11 : Quiet z s11 := by
    unfold s11
    split
    · exact loadBooks_quiet h1
    · exact h1
  have h2 : Quiet z s2 := onHw_quiet h11
  split
  · exact h2
  · exact log_quiet h2

theorem logTorn_quiet (H : Quiet z s) : Quiet z s.logTorn := by
  unfold State.logTorn
  extract_lets s1 l
  have h1 : Quiet z s1 := sense_quiet H
  exact onHw_quiet (quiet_foldl (fun _ _ h => log_quiet h) h1)

theorem takeRecord_quiet {part mark : Nat} {e : Nat × Nat} (H : Quiet z s) : Quiet z (s.takeRecord part mark e) := by
  unfold State.takeRecord
  extract_lets s1
  have h1 : Quiet z s1 := fixRecord_quiet H
  split
  · exact quiet_ite (pageWrite_quiet h1) h1
  · exact h1

theorem readSets_quiet (H : Quiet z s) : Quiet z s.readSets := by
  unfold State.readSets
  extract_lets r
  have hr : Quiet z r.1 := by
    refine quiet_foldl_fst (fun a pair h => ?_) H
    obtain ⟨x, skip, l⟩ := a
    refine quiet_ite_fst h (quiet_ite_fst h ?_)
    extract_lets s1 recs s2
    have h1 : Quiet z s1 := fixRecord_quiet h
    have h2 : Quiet z s2 := quiet_ite h1 (fixItem_quiet h1)
    split
    · exact quiet_pair h2
    · exact quiet_pair h2
  exact onHw_quiet hr

theorem takeDevice_quiet (H : Quiet z s) : Quiet z s.takeDevice := by
  unfold State.takeDevice
  split
  · exact H
  · extract_lets s1
    have h1 : Quiet z s1 := stands_quiet H
    exact onRtc_quiet (onPm_quiet (onTe_quiet (onRef_quiet h1) (fun _ => rfl)))

theorem readP0_quiet (H : Quiet z s) : Quiet z s.readP0 := by
  unfold State.readP0
  extract_lets s1 m s2 s3 s4 utc s5
  have h1 : Quiet z s1 := fixRecord_quiet H
  have h2 : Quiet z s2 := quiet_foldl (fun _ _ h => takeRecord_quiet h) h1
  have h3 : Quiet z s3 := quiet_foldl (fun _ _ h => takeRecord_quiet h) h2
  have h4 : Quiet z s4 := fixItem_quiet (quiet_foldl (fun _ _ h => fixRecord_quiet h) h3)
  have h5 : Quiet z s5 := onPr_quiet (readSets_quiet h4)
  exact takeDevice_quiet (onTp_quiet (onSe_quiet h5))

theorem repairRecord_quiet (H : Quiet z s) : Quiet z s.repairRecord := by
  unfold State.repairRecord
  extract_lets s1
  have h1 : Quiet z s1 := sense_quiet (sense_quiet H)
  split
  · exact quiet_ite (log_quiet (onHw_quiet (wr_quiet h1))) h1
  · exact onHw_quiet (wr_quiet h1)
  · exact onHw_quiet (wr_quiet h1)
  · exact log_quiet h1

theorem updLog_quiet {code : Nat} {hd : List Byte} {bank cause : Nat} (H : Quiet z s) :
    Quiet z (s.updLog code hd bank cause) :=
  drew_quiet (log_quiet H)

theorem takeAonLoss_quiet (H : Quiet z s) : Quiet z s.takeAonLoss := by
  unfold State.takeAonLoss
  refine quiet_ite ?_ H
  extract_lets l s1
  have h1 : Quiet z s1 := onTp_quiet H
  exact tamperCond_quiet h1

theorem takeCommitted_quiet (H : Quiet z s) : Quiet z s.takeCommitted := by
  unfold State.takeCommitted
  extract_lets s1 s2 s3 s4 s41
  have h1 : Quiet z s1 := onNt_quiet H
  have h2 : Quiet z s2 := onPr_quiet h1
  have h3 : Quiet z s3 := onNt_quiet h2
  have h4 : Quiet z s4 := onPw_quiet h3
  have h41 : Quiet z s41 := quiet_ite h4 (storeDevice_quiet (onPm_quiet h4))
  exact onHm_quiet (onMe_quiet h41 (fun _ => rfl) (fun _ => rfl))

theorem takeFactory_quiet (H : Quiet z s) : Quiet z s.takeFactory := by
  unfold State.takeFactory
  extract_lets s1
  have h1 : Quiet z s1 := onUp_quiet H
  exact quiet_ite h1 (log_quiet h1)

theorem takeResponses_quiet (H : Quiet z s) : Quiet z s.takeResponses := by
  unfold State.takeResponses
  extract_lets s1
  have h1 : Quiet z s1 := onTp_quiet H
  exact quiet_ite (lockActions_quiet h1) h1

theorem takeStored_quiet (H : Quiet z s) : Quiet z s.takeStored := by
  unfold State.takeStored
  extract_lets s1
  have h1 : Quiet z s1 := quiet_foldl (fun _ _ h => onAlarm_quiet h) H
  exact onRef_quiet (onRtc_quiet (onTe_quiet h1 (fun _ => rfl)))

theorem takeVbat_quiet (H : Quiet z s) : Quiet z s.takeVbat := by
  unfold State.takeVbat
  extract_lets s1 s2
  have h1 : Quiet z s1 := quiet_foldl (fun _ _ h => logAt_quiet h) H
  have h2 : Quiet z s2 := onTp_quiet h1
  exact quiet_ite (irq_quiet h2) h2

theorem watchdogLog_quiet {watched : Nat} (H : Quiet z s) : Quiet z (s.watchdogLog watched) :=
  drew_quiet (log_quiet H)

end Sys2Proof.Machine
end

section
/-! THEOREMS. The Warden, the DSP microcode and Canopy start, and Canopy stops (R24 to R28, R38, R39, R44, R278, R412, R420; O10). -/

namespace Sys2Proof.Machine

variable {z s t : State} {n : Nat}

/-! ### What a quiet step leaves of the Warden's state -/

theorem Quiet.running (H : Quiet z t) : t.wd.running = z.wd.running := by rw [H.wd]
theorem Quiet.canopyRunning (H : Quiet z t) : t.wd.canopyRunning = z.wd.canopyRunning := by rw [H.wd]

/-! ### Stages -/

@[simp] theorem enterStage_stage (s : State) (n : Nat) : (s.enterStage n).pw.stage = n := by
  unfold State.enterStage
  split
  next h => simpa using h
  · simp [State.irq]

theorem enterStage_pw (s : State) (n : Nat) : (s.enterStage n).pw =
    { s.pw with stage := n, stage2At := (s.enterStage n).pw.stage2At, stage3At := (s.enterStage n).pw.stage3At } := by
  unfold State.enterStage
  split
  next h => rw [← (show s.pw.stage = n by simpa using h)]
  · rw [log_pw]; rfl

theorem takeCommitted_pw (s : State) : s.takeCommitted.pw = { s.pw with aonPfail := s.takeCommitted.pw.aonPfail } := by
  unfold State.takeCommitted
  extract_lets s1 s2 s3 s4 s5
  have h5 : Changes [.pm, .hw, .wd] s4 s5 := ch_ite (fun _ => .refl _ _) fun _ => storeDevice_ch (onPm_ch (.refl _ _) rfl) rfl
  rw [onHm_pw, onMe_pw, h5.pw rfl]
  rfl

/-! ### The tamper buffer (R399) -/

theorem raiseAll_buffer {l : List Raise} (h : s.pw.stage ≠ 0) : (s.raiseAll l).tp.buffer = s.tp.buffer := by
  unfold State.raiseAll
  extract_lets s1 mask s2 s3
  have h1 : s1.tp.buffer = s.tp.buffer :=
    List.foldlRecOn (motive := fun x : State => x.tp.buffer = s.tp.buffer) _ _ rfl fun x h _ _ => h
  have h3 : s3.tp.buffer = s.tp.buffer := by
    have hc : (l.foldl (fun x _ => x.newChallenge) s1).tp.buffer = s.tp.buffer :=
      List.foldlRecOn (motive := fun x : State => x.tp.buffer = s.tp.buffer) _ _ h1 fun x h _ _ => h
    have hr : Changes [.se, .lk, .wd, .hm, .me] (l.foldl (fun x _ => x.newChallenge) s1) s3 := respond_ch (.refl _ _) rfl
    rw [hr.tp rfl, hc]
  have hl : Changes [.wd] s3 (l.foldl State.logRaise s3) := ch_foldl (fun _ _ h => logRaise_ch h rfl) (.refl _ _)
  rw [if_neg (by simpa using h)]
  split
  · rw [hl.tp rfl, h3]
  · exact h3

theorem tamperCond_buffer {slot circuit : Nat} {holds : Bool} (h : s.pw.stage ≠ 0) :
    (s.tamperCond slot circuit holds).tp.buffer = s.tp.buffer := by
  unfold State.tamperCond
  dsimp only
  split
  · rfl
  · split
    · split
      · rfl
      · split
        · exact raiseAll_buffer h
        · rfl
    · rw [tamperClear_eq]; rfl

theorem takeAonLoss_buffer (h : s.pw.stage ≠ 0) : s.takeAonLoss.tp.buffer = s.tp.buffer := by
  unfold State.takeAonLoss
  split
  · exact tamperCond_buffer h
  · rfl

theorem takeResponses_buffer (s : State) : s.takeResponses.tp.buffer = s.tp.buffer := by
  unfold State.takeResponses
  extract_lets s1
  split
  · rw [(lockActions_ch (.refl [.se, .wd, .hm, .me] s1) rfl).tp rfl]; rfl
  · rfl

theorem restoreKeys_buffer (s : State) (ok : Bool) : (s.restoreKeys ok).tp.buffer = s.tp.buffer := by
  unfold State.restoreKeys
  split
  · rfl
  · split <;> rfl

theorem newChallenge_buffer (s : State) : s.newChallenge.tp.buffer = s.tp.buffer := rfl

theorem takeVbat_buffer (s : State) : s.takeVbat.tp.buffer = [] := by
  unfold State.takeVbat
  extract_lets s1 s2
  split <;> rfl

/-! ### The Warden's entry (R38) -/

theorem loadLedger_loaded (s : State) : s.loadLedger.hw.loaded = true := by
  unfold State.loadLedger
  extract_lets s1 s2 s3
  split
  · rfl
  · rw [log_hw]; rfl

theorem takeCommitted_nt (s : State) : s.takeCommitted.nt.up = true ∧ s.takeCommitted.nt.mode = parCommitted s 0x5800 := by
  unfold State.takeCommitted
  extract_lets s1 s2 s3 s4 s5
  have h5 : Changes [.pm, .hw, .wd] s4 s5 := ch_ite (fun _ => .refl _ _) fun _ => storeDevice_ch (onPm_ch (.refl _ _) rfl) rfl
  rw [onHm_nt, onMe_nt, h5.nt rfl]
  exact ⟨rfl, rfl⟩

theorem takeCommitted_committed (s : State) : s.takeCommitted.pr.committed = s.pr.committed := by
  unfold State.takeCommitted
  extract_lets s1 s2 s3 s4 s5
  have h5 : Changes [.pm, .hw, .wd] s4 s5 := ch_ite (fun _ => .refl _ _) fun _ => storeDevice_ch (onPm_ch (.refl _ _) rfl) rfl
  rw [onHm_pr, onMe_pr, h5.pr rfl]
  rfl

/-- NET_MODE has one reset value in every state. -/
theorem parCommitted_netMode_congr (h : t.pr.committed = s.pr.committed) : parCommitted t 0x5800 = parCommitted s 0x5800 := by
  unfold parCommitted
  rw [h]
  rfl

/-- The Warden that begins its entry: it runs, and its START entries are in the log. -/
def State.wardenUp (s : State) (faults : List Nat) : State :=
  (s.onWd fun w => { w with running := true, logSeq := logHighest s }).startFirst faults

/-- The Warden's entry up to what the store holds of P0. -/
def State.wardenRead (s : State) (faults : List Nat) : State :=
  (((((s.wardenUp faults).enterStage 2).logTorn).sense (pageAddr 3 0) 131072).sense (pageAddr 4 0) 163840).takeFactory.readP0

/-- And on, through the committed values and the tamper buffer, to the ledger. -/
def State.wardenLoaded (s : State) (faults : List Nat) : State :=
  ((((s.wardenRead faults).takeCommitted.takeStored.takeVbat).takeAonLoss.takeResponses.restoreKeys
    true).repairRecord).clearTorn.loadLedger

theorem wardenUp_running (s : State) (faults : List Nat) : (s.wardenUp faults).wd.running = true := rfl

theorem wardenUp_changes (s : State) (faults : List Nat) : Changes [.wd] s (s.wardenUp faults) :=
  startFirst_ch (onWd_ch (.refl _ _) rfl) rfl

theorem wardenEntry_changes (s : State) (faults : List Nat) :
    Changes [.rtc, .lk, .wd, .tp, .free, .pq, .hm] (s.wardenLoaded faults) (s.wardenEntry faults) := by
  unfold State.wardenEntry
  extract_lets s1 s2 s3 s4 s5 s6
  have h5 : Changes [.rtc, .lk, .wd, .tp, .free, .pq, .hm] (s.wardenLoaded faults) s5 :=
    ch_foldl (fun _ _ h => resolvePend_ch h rfl) (.refl _ _)
  have h6 : Changes [.rtc, .lk, .wd, .tp, .free, .pq, .hm] (s.wardenLoaded faults) s6 :=
    ch_ite (fun _ => log_ch h5 rfl) fun _ => h5
  exact consoleClaim_ch (onPq_ch (newChallenge_ch h6 rfl) rfl) rfl

theorem wardenEntry_quiet (s : State) (faults : List Nat) : Quiet (s.wardenUp faults) (s.wardenEntry faults) := by
  unfold State.wardenEntry
  extract_lets s1 s2 s3 s4 s5 s6
  have h1 : Quiet (s.wardenUp faults) s1 := sense_quiet (sense_quiet (logTorn_quiet (enterStage_quiet (.refl _))))
  have h2 : Quiet (s.wardenUp faults) s2 :=
    takeVbat_quiet (takeStored_quiet (takeCommitted_quiet (readP0_quiet (takeFactory_quiet h1))))
  have h3 : Quiet (s.wardenUp faults) s3 := takeResponses_quiet (takeAonLoss_quiet h2)
  have h4 : Quiet (s.wardenUp faults) s4 :=
    loadLedger_quiet ((repairRecord_quiet (h3.calm (restoreKeys_ch (.refl _ _) rfl))).calm (clearTorn_ch (.refl _ _) rfl))
  have h5 : Quiet (s.wardenUp faults) s5 := quiet_foldl (fun _ _ h => resolvePend_quiet h) h4
  have h6 : Quiet (s.wardenUp faults) s6 := quiet_ite (log_quiet h5) h5
  exact (onPq_quiet (newChallenge_quiet h6)).calm (consoleClaim_ch (.refl _ _) rfl)

theorem wardenRead_changes (s : State) (faults : List Nat) :
    Changes [.wd, .hw, .up, .te, .rtc, .se, .pr, .tp, .ref, .stands, .pm] ((s.wardenUp faults).enterStage 2)
      (s.wardenRead faults) :=
  readP0_ch (takeFactory_ch (sense_ch (sense_ch (logTorn_ch (.refl _ _) rfl) rfl) rfl) rfl) rfl

theorem wardenLoaded_changes (s : State) (faults : List Nat) :
    Changes [.te, .rtc, .ref, .lk, .tp, .wd, .se, .hm, .me, .free, .hw] (s.wardenRead faults).takeCommitted
      (s.wardenLoaded faults) :=
  loadLedger_ch (clearTorn_ch (repairRecord_ch (restoreKeys_ch (takeResponses_ch (takeAonLoss_ch (takeVbat_ch
    (takeStored_ch (.refl _ _) rfl) rfl) rfl) rfl) rfl) rfl) rfl) rfl

/-- The Warden's entry brings stage 2 and keeps phase and BOOT_FAULT. -/
theorem wardenEntry_pw (s : State) (faults : List Nat) :
    (s.wardenEntry faults).pw = { s.pw with
      stage := 2, stage2At := (s.wardenEntry faults).pw.stage2At, stage3At := (s.wardenEntry faults).pw.stage3At,
      aonPfail := (s.wardenEntry faults).pw.aonPfail } := by
  have he : (s.wardenEntry faults).pw = (s.wardenRead faults).takeCommitted.pw := by
    rw [(wardenEntry_changes s faults).pw rfl, (wardenLoaded_changes s faults).pw rfl]
  rw [he, takeCommitted_pw, (wardenRead_changes s faults).pw rfl, enterStage_pw, (wardenUp_changes s faults).pw rfl]

theorem wardenEntry_net (s : State) (faults : List Nat) :
    (s.wardenEntry faults).nt.up = true ∧ (s.wardenEntry faults).nt.mode = parCommitted (s.wardenEntry faults) 0x5800 := by
  have hl := wardenLoaded_changes s faults
  have he := wardenEntry_changes s faults
  obtain ⟨hup, hmode⟩ := takeCommitted_nt (s.wardenRead faults)
  have hc : (s.wardenEntry faults).pr.committed = (s.wardenRead faults).pr.committed := by
    rw [he.pr rfl, hl.pr rfl, takeCommitted_committed]
  rw [he.nt rfl, hl.nt rfl, parCommitted_netMode_congr hc]
  exact ⟨hup, hmode⟩

theorem wardenEntry_loaded (s : State) (faults : List Nat) : (s.wardenEntry faults).hw.loaded = true := by
  rw [(wardenEntry_changes s faults).hw rfl, State.wardenLoaded, loadLedger_loaded]

theorem wardenLoaded_buffer (s : State) (faults : List Nat) : (s.wardenLoaded faults).tp.buffer = [] := by
  have hs : (s.wardenRead faults).takeCommitted.takeStored.takeVbat.pw.stage ≠ 0 := by
    rw [(takeVbat_ch (.refl [.lk, .tp, .wd] _) rfl).pw rfl, (takeStored_ch (.refl [.te, .rtc, .ref] _) rfl).pw rfl,
      takeCommitted_pw, (wardenRead_changes s faults).pw rfl]
    simp
  unfold State.wardenLoaded
  rw [(loadLedger_ch (.refl [.hw, .wd, .me] _) rfl).tp rfl, (clearTorn_ch (.refl [.hw] _) rfl).tp rfl,
    (repairRecord_ch (.refl [.hw, .wd] _) rfl).tp rfl, restoreKeys_buffer, takeResponses_buffer, takeAonLoss_buffer hs,
    takeVbat_buffer]

theorem wardenEntry_buffer (s : State) (faults : List Nat) : (s.wardenEntry faults).tp.buffer = [] := by
  unfold State.wardenEntry
  extract_lets s1 s2 s3 s4 s5 s6
  have h5 : Changes [.rtc, .lk, .wd] (s.wardenLoaded faults) s5 := ch_foldl (fun _ _ h => resolvePend_ch h rfl) (.refl _ _)
  have h6 : Changes [.rtc, .lk, .wd] (s.wardenLoaded faults) s6 := ch_ite (fun _ => log_ch h5 rfl) fun _ => h5
  rw [(consoleClaim_ch (.refl [.hm] _) rfl).tp rfl, onPq_tp, newChallenge_buffer, h6.tp rfl, wardenLoaded_buffer]

/-- What the Warden's entry brings on a state that the choice of its image left. -/
theorem wardenEntry_brings {x : State} {n : Nat} {faults : List Nat} (ht : x.wardenEntry faults = t) (hx : Quiet s x)
    (hp : x.pw = { s.pw with bootFault := n }) :
    t.wd.running = true ∧ t.pw.stage = 2 ∧ t.nt.up = true ∧ t.nt.mode = parCommitted t 0x5800 ∧ t.tp.buffer = [] ∧
      t.hw.loaded = true ∧ t.pw.bootFault = n ∧ t.te.cnt = s.te.cnt ∧ t.me.kernels = s.me.kernels ∧ t.pw.phase = s.pw.phase
        := by
  have hq := wardenEntry_quiet x faults
  have hu := wardenUp_changes x faults
  have hpw := wardenEntry_pw x faults
  have hnet := wardenEntry_net x faults
  have hb := wardenEntry_buffer x faults
  have hl := wardenEntry_loaded x faults
  rw [ht] at hq hpw hnet hb hl
  rw [hp] at hpw
  refine ⟨hq.running.trans (wardenUp_running x faults), by rw [hpw], hnet.1, hnet.2, hb, hl, by rw [hpw], ?_, ?_, by rw [hpw]⟩
  · rw [hq.cnt, hu.te rfl, hx.cnt]
  · rw [hq.kernels, hu.me rfl, hx.kernels]

/-! ### The choice of an image (R38, R420) -/

/-- The parts that choosing an image may touch; BOOT_AUTH is a tamper event. -/
theorem bootKind_changes (s : State) (k : Nat) (a o p : Bool) :
    Changes [.se, .lk, .tp, .wd, .up, .hm, .me, .free] s (s.bootKind k a o p).1 :=
  bootKind_ch (.refl _ _) rfl

theorem execWardenStart_of_image {a o : Bool} (h1 : s.pw.stage = 1) (hr : s.wd.running = false)
    (hi : (s.bootKind 1 a o true).2.1 = true) :
    ∃ x faults, exec (.wardenStart a o) s = .next (x.wardenEntry faults) ∧ Quiet s x ∧
      x.pw = { s.pw with bootFault := if (s.bootKind 1 a o true).2.2 then 1 else s.pw.bootFault } := by
  have hc := bootKind_changes s 1 a o true
  have hq : Quiet s (s.bootKind 1 a o true).1 := bootKind_quiet (.refl s)
  dsimp only [exec, execWardenStart]
  rw [if_neg (by simp [h1, hr])]
  generalize s.bootKind 1 a o true = r at *
  obtain ⟨x, image, fallback⟩ := r
  obtain rfl : image = true := hi
  have hp : x.pw = s.pw := hc.pw rfl
  cases fallback with
  | false => exact ⟨x, [s.pw.bootFault], by simp, hq, hp⟩
  | true => exact ⟨x.bootFaultTo 1, (if s.pw.bootFault == 6 then [6] else []) ++ [1], by simp, hq.calm
    (bootFaultTo_ch (.refl _ _) rfl), by rw [State.bootFaultTo, onPw_pw, hp]; rfl⟩

/-! ### The DSP kernels (R39, R83) -/

/-- Trims, stands and filters at the start of the kernels. -/
def State.kernelsReady (s : State) : State :=
  (List.range 36).foldl State.filterInit
    ((List.range 4).foldl State.standStart (if s.hw.pioSeq.isNone then s.factoryTrims else s))

theorem kernelsReady_changes (s : State) : Changes [.hw, .wd, .chans, .convs, .stands, .filts, .insts] s s.kernelsReady :=
  ch_foldl (fun _ _ h => filterInit_ch h rfl) (ch_foldl (fun _ _ h => standStart_ch h rfl)
    (ch_ite (fun _ => factoryTrims_ch (.refl _ _) rfl) fun _ => .refl _ _))

theorem kernelsReady_quiet (s : State) : Quiet s s.kernelsReady :=
  quiet_foldl (fun _ _ h => h.calm (filterInit_ch (.refl _ _) rfl)) (quiet_foldl (fun _ _ h => standStart_quiet h)
    (quiet_ite ((Quiet.refl s).calm (factoryTrims_ch (.refl _ _) rfl)) (.refl s)))

/-- The kernels run on a state in which trims, stands and filters are ready; REFSEL is read as `refsel`, the OTP ratio as `otp`. -/
def State.kernelsRun (x : State) (refsel : Bool) (otp : Nat) : State :=
  let s4 := (x.onMe fun m => { m with kernels := true, fromB1 := false }).onPw fun p => { p with shadow := .waiting }
  let s5 := s4.onRef fun r => { r with live := true, baseline := if refsel then r.stored else some otp }
  let s6 := ({ s5 with wave := [] }).pqFresh.onPq fun q => { q with running := true }
  let s7 := s6.onPm fun p =>
    { p with running := true, histIncomplete := true, startN := 0, old := [], gapFrom := if p.on then p.lastReported else none }
  s7.onWd fun w => { w with dspRunning := true, missedFrames := 0 }

theorem kernelsStart_eq (s : State) : s.kernelsStart = s.kernelsReady.kernelsRun s.pw.refsel (factoryVal s 2 0).toNat := by
  unfold State.kernelsStart State.kernelsRun State.kernelsReady
  rfl

section
variable (x : State) (refsel : Bool) (otp : Nat)

@[simp] theorem kernelsRun_hw : (x.kernelsRun refsel otp).hw = x.hw := rfl
@[simp] theorem kernelsRun_me : (x.kernelsRun refsel otp).me = { x.me with kernels := true, fromB1 := false } := rfl
@[simp] theorem kernelsRun_pw : (x.kernelsRun refsel otp).pw = { x.pw with shadow := .waiting } := rfl
@[simp] theorem kernelsRun_wd : (x.kernelsRun refsel otp).wd = { x.wd with dspRunning := true, missedFrames := 0 } := rfl
@[simp] theorem kernelsRun_pq_running : (x.kernelsRun refsel otp).pq.running = true := rfl
@[simp] theorem kernelsRun_pm_running : (x.kernelsRun refsel otp).pm.running = true := rfl

end

theorem kernelsStart_pw (s : State) : s.kernelsStart.pw = { s.pw with shadow := .waiting } := by
  rw [kernelsStart_eq, kernelsRun_pw, (kernelsReady_changes s).pw rfl]

theorem kernelsStart_me (s : State) : s.kernelsStart.me.kernels = true ∧ s.kernelsStart.me.fromB1 = false := by
  rw [kernelsStart_eq, kernelsRun_me]
  exact ⟨rfl, rfl⟩

theorem kernelsStart_wd (s : State) : s.kernelsStart.wd = { s.wd with
    dspRunning := true, missedFrames := 0, buffer := s.kernelsStart.wd.buffer, lost := s.kernelsStart.wd.lost,
    lostSince := s.kernelsStart.wd.lostSince } := by
  rw [kernelsStart_eq, kernelsRun_wd, (kernelsReady_quiet s).wd]

theorem kernelsStart_engines (s : State) : s.kernelsStart.pq.running = true ∧ s.kernelsStart.pm.running = true := by
  rw [kernelsStart_eq]
  exact ⟨rfl, rfl⟩

theorem kernelsStart_changes (s : State) :
    Changes [.pw, .hw, .wd, .ref, .chans, .convs, .stands, .filts, .insts, .wave, .me, .pq, .pm] s s.kernelsStart :=
  kernelsStart_ch (.refl _ _) rfl

/-! ### Interrupts of a change of stage (R27) -/

theorem bitAt_setBit_self (v b : Nat) : bitAt (setBit v b) b = true := by
  unfold setBit
  split
  next h => exact h
  next h =>
    simp only [bitAt, beq_iff_eq] at h ⊢
    rw [Nat.add_div_right _ (Nat.two_pow_pos b)]
    omega

theorem enterStage_irq (h : s.pw.stage ≠ n) : bitAt (s.enterStage n).lk.irq 0 = true := by
  unfold State.enterStage
  rw [if_neg (by simpa using h), log_lk]
  exact bitAt_setBit_self _ _

theorem enterStage_irq_of_irq (h : bitAt s.lk.irq 0 = true) : bitAt (s.enterStage n).lk.irq 0 = true := by
  by_cases hs : s.pw.stage = n
  · rw [State.enterStage, if_pos (by simpa using hs)]; exact h
  · exact enterStage_irq hs

/-! ### Canopy's entry (R25 to R27) -/

/-- At stage 3 the stage follows the servo: 4 where it is LOCKED. The handover stays due, and a stage-change interrupt pending. -/
theorem restage_of_three (h : s.pw.stage = 3) :
    s.restage.pw.stage = (if s.te.servo = .locked then 4 else 3) ∧ s.restage.pw.handoverPending = s.pw.handoverPending ∧
      (bitAt s.lk.irq 0 = true → bitAt s.restage.lk.irq 0 = true) := by
  unfold State.restage
  by_cases hl : s.te.servo = .locked
  · have hp := pmuAutoStart_ch (.refl [.pm] (s.enterStage 4)) rfl
    simp only [h, hl, beq_self_eq_true, if_true, Nat.lt_irrefl, if_false, Nat.reduceBEq, Bool.false_eq_true]
    rw [hp.pw rfl, hp.lk rfl]
    exact ⟨enterStage_stage s 4, by rw [enterStage_pw], enterStage_irq_of_irq⟩
  · have hb : (s.te.servo == .locked) = false := by simpa using hl
    simp only [h, hl, hb, if_false, Nat.lt_irrefl, Bool.false_eq_true]
    exact ⟨enterStage_stage s 3, by rw [enterStage_pw], enterStage_irq_of_irq⟩

/-- What Canopy's entry brings at stage 2. -/
theorem canopyEntry_brings (h2 : s.pw.stage = 2) :
    s.canopyEntry.wd.canopyRunning = true ∧ s.canopyEntry.pw.stage = (if s.te.servo = .locked then 4 else 3) ∧
      s.canopyEntry.pw.handoverPending = !s.pw.acct ∧ bitAt s.canopyEntry.lk.irq 0 = true := by
  unfold State.canopyEntry
  extract_lets s1 s2 s3 s4
  have h12 : Changes [.wd] s s2 := by
    have h1 : Changes [.wd] s s1 := onWd_ch (.refl _ _) rfl
    exact ch_ite (fun _ => h1) fun _ => log_ch h1 rfl
  have h34 : Changes [.pq, .me, .hw, .filts] s3 (s4.onPq fun q => { q with aggWait := s4.me.fromB1 && !q.agg }).closeOwed :=
    closeOwed_ch (onPq_ch (ch_ite (fun _ => rebuildRecord_ch (.refl _ _) rfl) fun _ => .refl _ _) rfl) rfl
  have hq : Quiet s1 ((s4.onPq fun q => { q with aggWait := s4.me.fromB1 && !q.agg }).closeOwed).restage.readyLate := by
    have hq2 : Quiet s1 s2 := quiet_ite (.refl s1) (log_quiet (.refl s1))
    have hq3 : Quiet s1 s3 := onPw_quiet (enterStage_quiet hq2)
    have hq4 : Quiet s1 s4 := quiet_ite (hq3.calm (rebuildRecord_ch (.refl _ _) rfl)) hq3
    exact readyLate_quiet (restage_quiet (closeOwed_quiet (onPq_quiet hq4)))
  generalize (s4.onPq fun q => { q with aggWait := s4.me.fromB1 && !q.agg }).closeOwed = s5 at h34 hq ⊢
  have h3te : s3.te = s.te := by
    change (s2.enterStage 3).te = s.te
    rw [(enterStage_ch (.refl [.pw, .lk, .wd] s2) rfl).te rfl, h12.te rfl]
  have h5 : s5.pw.stage = 3 := by rw [h34.pw rfl]; exact enterStage_stage s2 3
  have hirq : bitAt s5.lk.irq 0 = true := by
    rw [h34.lk rfl]
    exact enterStage_irq (by rw [h12.pw rfl, h2]; decide)
  have hhand : s5.pw.handoverPending = !s.pw.acct := by
    rw [h34.pw rfl]
    change (!(s2.enterStage 3).pw.acct) = _
    rw [enterStage_pw, h12.pw rfl]
  obtain ⟨hstage, hover, hbit⟩ := restage_of_three h5
  have hlate : Changes [.hw, .wd, .up, .pq, .free] s5.restage s5.restage.readyLate := readyLate_ch (.refl _ _) rfl
  rw [hlate.pw rfl, hlate.lk rfl, hstage, hover, hhand, h34.te rfl, h3te]
  exact ⟨hq.canopyRunning, rfl, rfl, hbit hirq⟩

theorem canopyEntry_changes (s : State) :
    Changes [.pw, .hw, .lk, .wd, .up, .filts, .me, .pq, .pm, .free] s s.canopyEntry :=
  canopyEntry_ch (.refl _ _) rfl

/-! ### The servo leaves LOCKED (Table 1-8) -/

theorem restage_of_low (h : s.pw.stage < 3) : s.restage = s := by
  unfold State.restage
  rw [if_pos h]

/-- Below stage 3 a servo that does not become LOCKED leaves stage and store alone. -/
theorem servoTo_changes_of_low {m : Servo} {th : Int} (h : s.pw.stage < 3) (hm : m ≠ .locked) :
    Changes [.te, .rtc, .pr, .lk, .wd, .pm, .free] s (s.servoTo m th) := by
  unfold State.servoTo
  refine ch_ite (fun _ => .refl _ _) fun _ => ?_
  extract_lets frozen s1 s11 s12 s2 s3
  have h11 : Changes [.te, .rtc, .pr, .lk, .wd, .pm, .free] s s11 := by
    unfold s11
    rw [if_neg (by simp [hm])]
    exact onTe_ch (.refl _ _) rfl
  have h12 : Changes [.te, .rtc, .pr, .lk, .wd, .pm, .free] s s12 :=
    ch_ite (fun _ => stopFollowing_ch (onPm_ch h11 rfl) rfl) fun _ => h11
  have hd : Changes [.te, .rtc, .pr, .lk, .wd, .pm, .free] s (s2.drew 1) := drew_ch (log_ch (irq_ch h12 rfl) rfl) rfl
  have h3 : Changes [.te, .rtc, .pr, .lk, .wd, .pm, .free] s s3 := by
    unfold s3
    rwa [restage_of_low (by rw [hd.pw rfl]; exact h)]
  exact ch_ite (fun _ => takeScheduled_ch h3 rfl) fun _ => h3

@[simp] theorem servoTo_servo (s : State) (m : Servo) (th : Int) : (s.servoTo m th).te.servo = m := by
  unfold State.servoTo
  split
  next h => simpa using h
  · extract_lets frozen s1 s11 s12 s2 s3
    have h11 : Changes [.hw, .wd] s1 s11 := ch_ite (fun _ => storeDevice_ch (.refl _ _) rfl) fun _ => .refl _ _
    have h3 : Changes [.hw, .wd, .rtc, .lk, .pw, .pm, .free] s1 s3 := by
      have h12 : Changes [.hw, .wd, .rtc, .lk, .pw, .pm, .free] s1 s12 :=
        ch_ite (fun _ => stopFollowing_ch (onPm_ch (h11.mono rfl) rfl) rfl) fun _ => h11.mono rfl
      exact restage_ch (drew_ch (log_ch (irq_ch h12 rfl) rfl) rfl) rfl
    have hs : s3.te.servo = m := by rw [h3.te rfl]; rfl
    split
    · exact hs
    · exact hs

/-! ### Canopy stops (R24 to R26, R48, R412) -/

/-- Canopy that stops: accounting has passed to Pioneer, and the Warden has noted stop and cause. -/
def State.canopyHalted (s : State) (cause reason : Nat) : State :=
  let s1 := if s.pw.acct then
      (s.onPw fun p => { p with acct := false, handoverCause := 1 }).log 0x0202 (le 1 0 ++ le 1 1)
    else s
  s1.onWd fun w =>
    { w with canopyRunning := false, stopCause := (cause, reason), stopClk := s.clk, restartReq := none,
             restartUnplanned := false, canopyRestarts := u32 (w.canopyRestarts + 1),
             unplanned := if cause == 2 then unplannedNow s + 1 else w.unplanned,
             unplannedClk := if cause == 2 then s.clk else w.unplannedClk,
             backoff := if cause == 2 then backoffFor (unplannedNow s) else none }

theorem canopyHalted_changes (s : State) (cause reason : Nat) : Changes [.pw, .wd] s (s.canopyHalted cause reason) := by
  unfold State.canopyHalted
  exact onWd_ch (ch_ite (fun _ => log_ch (onPw_ch (.refl _ _) rfl) rfl) fun _ => .refl _ _) rfl

theorem canopyHalted_acct (s : State) (cause reason : Nat) : (s.canopyHalted cause reason).pw.acct = false := by
  unfold State.canopyHalted
  rw [onWd_pw]
  split
  · rw [log_pw]; rfl
  next h => simpa using h

theorem canopyHalted_restarts (s : State) (cause reason : Nat) :
    (s.canopyHalted cause reason).wd.canopyRestarts = u32 (s.wd.canopyRestarts + 1) := by
  unfold State.canopyHalted
  rw [onWd_wd]
  split
  · rw [log_wd_canopyRestarts]; rfl
  · rfl

/-- The rest of the stop: stage, servo, and the firmware state that is lost. -/
def State.canopyDown (x s : State) : State :=
  let s3 := (x.onPw fun p => { p with handoverPending := false }).enterStage 2
  let s4 := if s.te.servo == .acquire || s.te.servo == .locked then s3.servoTo .holdover (s.te.offsetNs * 65536) else s3
  let s5 := (s4.onPr fun p => { p with committing := none }).onNt fun n =>
    { n with master := none, foreign := [], neigh := [], idents := [],
             ports := n.ports.map fun p =>
               { p with peerAsk := false, resp := none, syncWait := none, peerRun := if p.peerDelay.isSome then p.peerRun
                 else 0 } }
  (((s5.onPq fun q => { q with agg := false, aggWait := false }).onLk fun l => { l with frag := [] }).dropPending .canopy)

theorem canopyStop_eq {cause reason : Nat} (hr : s.wd.canopyRunning = true) :
    s.canopyStop cause reason = (s.canopyHalted cause reason).canopyDown s := by
  unfold State.canopyStop
  rw [if_neg (by simp [hr])]
  rfl

/-- What the stop leaves of a halted Canopy's state `x`. -/
theorem canopyDown_brings {x : State} (ht : x.canopyDown s = t) (hte : x.te = s.te) :
    t.pw.stage = 2 ∧ t.pw.acct = x.pw.acct ∧ t.pw.handoverPending = false ∧ t.pq.agg = false ∧ t.pr.committing = none ∧
      t.pr.committed = x.pr.committed ∧
      t.te.servo = (if s.te.servo = .acquire ∨ s.te.servo = .locked then .holdover else s.te.servo) ∧
      t.te.cnt = x.te.cnt ∧ t.hw = x.hw ∧ t.me = x.me ∧ Quiet x t := by
  unfold State.canopyDown at ht
  extract_lets s3 s4 s5 at ht
  have h3 : Changes [.pw, .lk, .wd] x s3 := enterStage_ch (onPw_ch (.refl _ _) rfl) rfl
  have h3pw : s3.pw.stage = 2 ∧ s3.pw.acct = x.pw.acct ∧ s3.pw.handoverPending = false := by
    unfold s3
    rw [enterStage_pw]
    exact ⟨rfl, rfl, rfl⟩
  have h4 : Changes [.te, .rtc, .pr, .lk, .wd, .pm, .free] s3 s4 :=
    ch_ite (fun _ => servoTo_changes_of_low (by omega) (by decide)) fun _ => .refl _ _
  have h4pr : s4.pr.committed = s3.pr.committed := by
    unfold s4
    split
    · exact servoTo_committed ..
    · rfl
  have h4te : s4.te.servo = if s.te.servo = .acquire ∨ s.te.servo = .locked then .holdover else s.te.servo := by
    unfold s4
    simp only [Bool.or_eq_true, beq_iff_eq]
    split
    · exact servoTo_servo ..
    · rw [h3.te rfl, hte]
  have h4q : Quiet x s4 := by
    have h3q : Quiet x s3 := enterStage_quiet (onPw_quiet (.refl x))
    exact quiet_ite (servoTo_quiet h3q) h3q
  have h5 : Changes [.pr, .nt, .pq, .lk] s4 t := by
    subst ht
    exact dropPending_ch (onLk_ch (onPq_ch (onNt_ch (onPr_ch (.refl _ _) rfl) rfl) rfl) rfl) rfl
  have h5pr : t.pr.committing = none ∧ t.pr.committed = s4.pr.committed ∧ t.pq.agg = false := by
    subst ht
    exact ⟨rfl, rfl, rfl⟩
  obtain ⟨hstage, hacct, hover⟩ := h3pw
  obtain ⟨hcm, hcd, hagg⟩ := h5pr
  refine ⟨?_, ?_, ?_, hagg, hcm, ?_, ?_, ?_, ?_, ?_, h4q.calm (h5.mono rfl)⟩
  · rw [h5.pw rfl, h4.pw rfl, hstage]
  · rw [h5.pw rfl, h4.pw rfl, hacct]
  · rw [h5.pw rfl, h4.pw rfl, hover]
  · rw [hcd, h4pr, h3.pr rfl]
  · rw [h5.te rfl, h4te]
  · rw [h5.te rfl, h4q.cnt]
  · rw [h5.hw rfl, h4.hw rfl, h3.hw rfl]
  · rw [h5.me rfl, h4.me rfl, h3.me rfl]

/-- What a stop of a running Canopy leaves. -/
theorem canopyStop_brings {cause reason : Nat} (hr : s.wd.canopyRunning = true) (ht : s.canopyStop cause reason = t) :
    t.wd.canopyRunning = false ∧ t.pw.stage = 2 ∧ t.pw.acct = false ∧ t.pw.handoverPending = false ∧ t.pq.agg = false ∧
      t.wd.restartReq = none ∧ t.wd.canopyRestarts = u32 (s.wd.canopyRestarts + 1) ∧ t.wd.stopCause = (cause, reason) ∧
      t.pr.committing = none ∧ t.pr.committed = s.pr.committed ∧
      t.te.servo = (if s.te.servo = .acquire ∨ s.te.servo = .locked then .holdover else s.te.servo) ∧ t.te.cnt = s.te.cnt ∧
      t.hw = s.hw ∧ t.me = s.me := by
  have hh := canopyHalted_changes s cause reason
  rw [canopyStop_eq hr] at ht
  obtain ⟨hstage, hacct, hover, hagg, hcm, hcd, hservo, hcnt, hhw, hme, hq⟩ := canopyDown_brings ht (hh.te rfl)
  rw [hcd, hcnt, hhw, hme, hh.pr rfl, hh.te rfl, hh.hw rfl, hh.me rfl, hq.wd]
  exact ⟨rfl, hstage, hacct.trans (canopyHalted_acct s cause reason), hover, hagg, rfl, canopyHalted_restarts s cause reason,
    rfl, hcm, rfl, hservo, rfl, rfl, rfl⟩

/-! ### Arms of the start -/

/-- A kind without a valid image leaves BOOT_FAULT and an entry of the log. -/
theorem bootFault_brings {x : State} {c : Nat} {d : List Byte}
    (hc : Changes [.se, .lk, .tp, .wd, .up, .hm, .me, .free] s x) (hq : Quiet s x) (ht : (x.bootFaultTo n).log c d = t) :
    t.pw = { s.pw with bootFault := n } ∧ t.wd.running = s.wd.running ∧ t.me.kernels = s.me.kernels ∧ t.hw = s.hw ∧
      t.te = s.te ∧ t.pr = s.pr ∧ t.nt = s.nt := by
  have hl : Changes [.wd] (x.bootFaultTo n) t := ht ▸ log_ch (.refl _ _) rfl
  have hb : Changes [.pw] x (x.bootFaultTo n) := bootFaultTo_ch (.refl _ _) rfl
  have hqt : Quiet s t := ht ▸ log_quiet (hq.calm (bootFaultTo_ch (.refl _ _) rfl))
  refine ⟨?_, hqt.running, hqt.kernels, ?_, ?_, ?_, ?_⟩
  · rw [hl.pw rfl, State.bootFaultTo, onPw_pw, hc.pw rfl]
  · rw [hl.hw rfl, hb.hw rfl, hc.hw rfl]
  · rw [hl.te rfl, hb.te rfl, hc.te rfl]
  · rw [hl.pr rfl, hb.pr rfl, hc.pr rfl]
  · rw [hl.nt rfl, hb.nt rfl, hc.nt rfl]

theorem execWardenStart_of_no_image {a o : Bool} (h1 : s.pw.stage = 1) (hr : s.wd.running = false)
    (hi : (s.bootKind 1 a o true).2.1 = false) :
    ∃ x d, exec (.wardenStart a o) s = .next ((x.bootFaultTo 2).log 0x0101 d) ∧
      Changes [.se, .lk, .tp, .wd, .up, .hm, .me, .free] s x ∧ Quiet s x := by
  have hc := bootKind_changes s 1 a o true
  have hq : Quiet s (s.bootKind 1 a o true).1 := bootKind_quiet (.refl s)
  dsimp only [exec, execWardenStart]
  rw [if_neg (by simp [h1, hr])]
  generalize s.bootKind 1 a o true = r at *
  obtain ⟨x, image, fallback⟩ := r
  obtain rfl : image = false := hi
  exact ⟨_, _, rfl, ch_ite (fun _ => log_ch hc rfl) fun _ => hc, quiet_ite (log_quiet hq) hq⟩

theorem execDspStart_of_image {a o : Bool} (h2 : 2 ≤ s.pw.stage) (hr : s.wd.running = true) (hk : s.me.kernels = false)
    (hi : (s.bootKind 2 a o true).2.1 = true) :
    ∃ x, exec (.dspStart a o) s = .next x.kernelsStart ∧ Changes [.se, .lk, .tp, .wd, .up, .hm, .me, .free] s x := by
  have hc := bootKind_changes s 2 a o true
  dsimp only [exec, execDspStart]
  rw [if_neg (by simp [hr, hk]; omega)]
  generalize s.bootKind 2 a o true = r at *
  obtain ⟨x, image, fallback⟩ := r
  obtain rfl : image = true := hi
  exact ⟨_, rfl, hc.trans (bootKind_changes x 3 true true true)⟩

theorem execDspStart_of_no_image {a o : Bool} (h2 : 2 ≤ s.pw.stage) (hr : s.wd.running = true) (hk : s.me.kernels = false)
    (hi : (s.bootKind 2 a o true).2.1 = false) :
    ∃ x d, exec (.dspStart a o) s = .next ((x.bootFaultTo 5).log 0x0101 d) ∧
      Changes [.se, .lk, .tp, .wd, .up, .hm, .me, .free] s x ∧ Quiet s x := by
  have hc := bootKind_changes s 2 a o true
  have hq : Quiet s (s.bootKind 2 a o true).1 := bootKind_quiet (.refl s)
  dsimp only [exec, execDspStart]
  rw [if_neg (by simp [hr, hk]; omega)]
  generalize s.bootKind 2 a o true = r at *
  obtain ⟨x, image, fallback⟩ := r
  obtain rfl : image = false := hi
  exact ⟨x, _, rfl, hc, hq⟩

theorem execCanopyReady_of_image {a o : Bool} (h2 : s.pw.stage = 2) (hr : s.wd.running = true) (hk : s.me.kernels = true)
    (hc : s.wd.canopyRunning = false) (hb : s.wd.backoff = none)
    (hi : (s.bootKind 0 a o (s.wd.canopyRestarts == 0)).2.1 = true) :
    ∃ x m, exec (.canopyReady a o) s = .next x.canopyEntry ∧
      Changes [.pw, .se, .lk, .tp, .wd, .up, .hm, .me, .free] s x ∧ x.pw = { s.pw with bootFault := m } := by
  have hx := bootKind_changes s 0 a o (s.wd.canopyRestarts == 0)
  dsimp only [exec, execCanopyReady]
  rw [if_neg (by simp [h2, hr, hk, hc, hb])]
  generalize s.bootKind 0 a o (s.wd.canopyRestarts == 0) = r at *
  obtain ⟨x, image, fallback⟩ := r
  obtain rfl : image = true := hi
  have hp : x.pw = s.pw := hx.pw rfl
  cases fallback with
  | false => exact ⟨x, s.pw.bootFault, rfl, hx.mono rfl, hp⟩
  | true =>
    refine ⟨_, 3, rfl, log_ch (bootFaultTo_ch (hx.mono rfl) rfl) rfl, ?_⟩
    rw [log_pw, State.bootFaultTo, onPw_pw, hp]

theorem execCanopyRestart_of_due (hr : s.wd.canopyRunning = true) (hb : atBlock s = true)
    (hd : s.wd.restartUnplanned = true ∨ s.wd.restartReq.isSome = true) :
    ∃ cause reason, exec .canopyRestart s = .next (s.canopyStop cause reason) ∧
      (cause, reason) = if s.wd.restartUnplanned then (2, 0) else (0, s.wd.restartReq.getD 0) := by
  dsimp only [exec, execCanopyRestart]
  rw [if_neg (by simp [hr, hb])]
  cases hu : s.wd.restartUnplanned with
  | true => exact ⟨2, 0, rfl, rfl⟩
  | false =>
    obtain ⟨r, hreq⟩ := Option.isSome_iff_exists.1 (hd.resolve_left (by simp [hu]))
    exact ⟨0, r, by simp [hreq], by simp [hreq]⟩

theorem execCanopyBackoffExpiry_of_due {m : Nat} (hm : s.wd.backoff = some m) (hd : s.after s.wd.stopClk (m * cycS) = true) :
    exec .canopyBackoffExpiry s = .next { s with wd := { s.wd with backoff := none } } := by
  have h : s.wd.backoff.any (fun n => s.after s.wd.stopClk (n * cycS)) = true := by rw [hm, Option.any_some, hd]
  have he : exec .canopyBackoffExpiry s = execCanopyBackoffExpiry s := by rw [exec]
  rw [he, execCanopyBackoffExpiry, if_pos h, State.onWd]

theorem execCanopyRestartCountReset_of_due (hd : s.after s.wd.unplannedClk (600 * cycS) = true) :
    exec .canopyRestartCountReset s = .next { s with wd := { s.wd with unplanned := 0 } } := by
  have he : exec .canopyRestartCountReset s = execCanopyRestartCountReset s := by rw [exec]
  rw [he, execCanopyRestartCountReset, if_pos hd, State.onWd]

/-- Settles O10: each arm comes down to the entry, the start or the stop that it names, and what these leave. -/
theorem wardenDspAndCanopyStart : Obligations.WardenDspAndCanopyStart := by
  intro s
  refine ⟨?_, ?_, ?_, ?_, ?_, ?_, ?_, ?_⟩
  case refine_1 =>
    intro a o h1 hr hi
    obtain ⟨x, faults, he, hq, hp⟩ := execWardenStart_of_image h1 hr hi
    exact ⟨_, he, wardenEntry_brings rfl hq hp⟩
  case refine_2 =>
    intro a o h1 hr hi
    obtain ⟨x, d, he, hc, hq⟩ := execWardenStart_of_no_image h1 hr hi
    obtain ⟨hpw, hrun, -, hhw, hte, hpr, hnt⟩ := bootFault_brings hc hq rfl
    exact ⟨_, he, hpw, hrun.trans hr, hhw, hte, hpr, hnt⟩
  case refine_3 =>
    intro a o h2 hr hk hi
    obtain ⟨x, he, hc⟩ := execDspStart_of_image h2 hr hk hi
    have hs := kernelsStart_changes x
    obtain ⟨hker, hb1⟩ := kernelsStart_me x
    obtain ⟨hpq, hpm⟩ := kernelsStart_engines x
    have hwd := kernelsStart_wd x
    refine ⟨_, he, hker, hb1, by rw [kernelsStart_pw], hpq, hpm, by rw [hwd], by rw [hwd], ?_, ?_, ?_, ?_, ?_⟩
    · rw [kernelsStart_pw, hc.pw rfl]
    · rw [hs.te rfl, hc.te rfl]
    · rw [hs.pr rfl, hc.pr rfl]
    · rw [hs.nt rfl, hc.nt rfl]
    · rw [hs.rtc rfl, hc.rtc rfl]
  case refine_4 =>
    intro a o h2 hr hk hi
    obtain ⟨x, d, he, hc, hq⟩ := execDspStart_of_no_image h2 hr hk hi
    obtain ⟨hpw, -, hker, hhw, hte, hpr, hnt⟩ := bootFault_brings hc hq rfl
    exact ⟨_, he, hpw, hker.trans hk, hhw, hte, hpr, hnt⟩
  case refine_5 =>
    intro a o h2 hr hk hcr hb hi
    obtain ⟨x, m, he, hc, hp⟩ := execCanopyReady_of_image h2 hr hk hcr hb hi
    obtain ⟨hrun, hstage, hover, hirq⟩ := canopyEntry_brings (s := x) (by rw [hp]; exact h2)
    have hs := canopyEntry_changes x
    rw [hc.te rfl] at hstage
    rw [hp] at hover
    refine ⟨_, he, hrun, hstage, hover, hirq, ?_, ?_, ?_, ?_⟩
    · rw [hs.te rfl, hc.te rfl]
    · rw [hs.pr rfl, hc.pr rfl]
    · rw [hs.nt rfl, hc.nt rfl]
    · rw [hs.rtc rfl, hc.rtc rfl]
  case refine_6 =>
    intro hr hb hd
    obtain ⟨cause, reason, he, hcr⟩ := execCanopyRestart_of_due hr hb hd
    rw [← hcr]
    exact ⟨_, he, canopyStop_brings hr rfl⟩
  case refine_7 => exact fun _ hm hd => execCanopyBackoffExpiry_of_due hm hd
  case refine_8 => exact execCanopyRestartCountReset_of_due

end Sys2Proof.Machine
end

section
/-! THEOREMS. Watchdogs, the DSP reload, and the Warden that stops and comes back or does not (R24, R347, R410 to R412, R424, R426; O20). -/

namespace Sys2Proof.Machine

variable {z s t : State}

/-! ### Store words read, and the image of a checkpoint: no byte changes -/

theorem sense_mem (s : State) (a n : Nat) : (s.sense a n).hw.mem = s.hw.mem := by
  unfold State.sense
  refine List.foldlRecOn (motive := fun x : State => x.hw.mem = s.hw.mem) _ _ rfl fun x h f _ => ?_
  unfold State.senseFlip State.uncorrectable
  split
  · rw [log_hw]; exact h
  · rw [log_hw]; exact h

theorem checkpoint_mem (s src : State) {kind : Nat} (hk : kind ≠ 1) : (s.checkpoint src kind).hw.mem = s.hw.mem := by
  unfold State.checkpoint
  split
  · rfl
  · extract_lets s1 old marks rest s2
    have h1 : s1 = s := if_neg (by simpa using hk)
    have h2 : s2.hw.mem = s1.hw.mem := by
      unfold s2
      split
      · rfl
      · cases old with
        | none => rfl
        | some a => exact sense_mem ..
    split
    exact h2.trans (by rw [h1])

theorem trialFail_mem (s : State) (kind : Nat) : (s.trialFail kind).hw.mem = s.hw.mem := by
  unfold State.trialFail
  split
  · extract_lets s1
    split
    · exact checkpoint_mem s1 s1 (by decide)
    · rfl
  · rfl

/-- Only the failed trial of a Canopy image makes a checkpoint. -/
theorem trialFail_changes_of_ne {kind : Nat} (hk : kind ≠ 0) : Changes [.up, .free] s (s.trialFail kind) := by
  unfold State.trialFail
  refine ch_ite (fun _ => ?_) fun _ => .refl _ _
  extract_lets s1
  rw [if_neg (by simpa using hk)]
  exact drew_ch (onUp_ch (onRegion_ch (.refl _ _) rfl) rfl) rfl

/-! ### What stays of converters and stands while nothing is condemned (R78, R96) -/

theorem map_modAt_of_keeps {α β : Type} {g : α → β} {f : α → α} (h : ∀ a, g (f a) = g a) (l : List α) (n : Nat) :
    (modAt l n f).map g = l.map g := by
  unfold modAt
  induction l generalizing n with
  | nil => simp
  | cons a l ih => cases n <;> simp [h, ih]

/-- From `z` to `t` no converter becomes STUCK or ceases to be, and no converter is condemned. -/
structure Sound (z t : State) : Prop where
  stuck : t.convs.map Conv.stuck = z.convs.map Conv.stuck
  condemned : t.stands.map Stand.condemned = z.stands.map Stand.condemned

theorem Sound.refl (s : State) : Sound s s := ⟨rfl, rfl⟩

theorem Sound.trans {s t u : State} (h : Sound s t) (g : Sound t u) : Sound s u :=
  ⟨g.stuck.trans h.stuck, g.condemned.trans h.condemned⟩

theorem Sound.conv_stuck (h : Sound z t) (v : Nat) : (t.conv v).stuck = (z.conv v).stuck := by
  have hm (s : State) : (s.conv v).stuck = (s.convs.map Conv.stuck).getD v Conv.reset.stuck := by
    rw [State.conv, List.getD_map]
  rw [hm, hm, h.stuck]

theorem Sound.stand_condemned (h : Sound z t) (k : Nat) : (t.stand k).condemned = (z.stand k).condemned := by
  have hm (s : State) : (s.stand k).condemned = (s.stands.map Stand.condemned).getD k Stand.reset.condemned := by
    rw [State.stand, List.getD_map]
  rw [hm, hm, h.condemned]

theorem Sound.of_changes {q : List Part} (H : Sound z s) (h : Changes q s t) (hc : q.contains .convs = false)
    (hs : q.contains .stands = false) : Sound z t :=
  H.trans ⟨by rw [h.convs hc], by rw [h.stands hs]⟩

theorem onConv_sound {v : Nat} {f : Conv → Conv} (H : Sound z s) (h : ∀ x, (f x).stuck = x.stuck) : Sound z (s.onConv v f) :=
  H.trans ⟨map_modAt_of_keeps h _ _, rfl⟩

theorem onStand_sound {k : Nat} {f : Stand → Stand} (H : Sound z s) (h : ∀ x, (f x).condemned = x.condemned) :
    Sound z (s.onStand k f) :=
  H.trans ⟨rfl, map_modAt_of_keeps h _ _⟩

theorem sound_ite {c : Prop} [Decidable c] {a b : State} (ha : Sound z a) (hb : Sound z b) : Sound z (if c then a else b) := by
  split
  · exact ha
  · exact hb

theorem sound_foldl {α : Type} {f : State → α → State} {l : List α} {s : State}
    (hf : ∀ s a, Sound z s → Sound z (f s a)) (H : Sound z s) : Sound z (l.foldl f s) :=
  List.foldlRecOn l f H fun _ h _ _ => hf _ _ h

theorem unsettle_sound {v : Nat} (H : Sound z s) : Sound z (s.unsettle v) := onConv_sound H fun _ => rfl

theorem restoreTrim_sound {k v : Nat} (H : Sound z s) : Sound z (s.restoreTrim k v) := by
  unfold State.restoreTrim
  split
  · exact H
  · exact onStand_sound (onConv_sound H fun _ => rfl) fun _ => rfl

theorem splice_sound {k c : Nat} {toSpare : Bool} (H : Sound z s) : Sound z (s.splice k c toSpare) :=
  onStand_sound (H.of_changes (mark_ch (.refl [.chans] _) rfl) rfl rfl) fun _ => rfl

theorem loadDone_sound {c : Nat} (H : Sound z s) : Sound z (s.loadDone c) :=
  H.of_changes (loadDone_ch (.refl [.wd, .filts, .insts] _) rfl) rfl rfl

theorem abortCheck_sound {k : Nat} (H : Sound z s) : Sound z (s.abortCheck k) := by
  unfold State.abortCheck
  split
  · exact H
  · exact onStand_sound (H.of_changes (baseFailLog_ch (setCheckResult_ch (.refl [.chans, .wd] _) rfl) rfl) rfl rfl) fun _ => rfl

theorem recallHome_sound {k : Nat} (H : Sound z s) : Sound z (s.recallHome k) := by
  unfold State.recallHome
  exact sound_ite (sound_ite (onStand_sound (loadDone_sound (unsettle_sound (restoreTrim_sound H))) fun _ => rfl)
    (loadDone_sound (splice_sound H))) H

theorem standAbort_sound {k : Nat} (H : Sound z s) : Sound z (s.standAbort k) := by
  unfold State.standAbort
  extract_lets s1 s3
  have h1 : Sound z s1 := abortCheck_sound H
  have h3 : Sound z s3 := recallHome_sound (sound_ite (restoreTrim_sound h1) h1)
  split
  · exact unsettle_sound h3
  · exact h3

theorem moveSpare_sound {k c phase : Nat} (H : Sound z s) : Sound z (s.moveSpare k c phase) := by
  unfold State.moveSpare
  extract_lets d s1
  have h1 : Sound z s1 := onStand_sound H fun _ => rfl
  exact sound_ite h1 ((unsettle_sound h1).of_changes (copyInst_ch (.refl [.insts] _) rfl) rfl rfl)

theorem shadowFor_sound {k slot : Nat} (H : Sound z s) : Sound z (s.shadowFor k slot) :=
  sound_ite (moveSpare_sound H) (moveSpare_sound H)

theorem factoryTrims_sound (H : Sound z s) : Sound z s.factoryTrims :=
  H.trans ⟨List.ext_getElem (by simp [State.factoryTrims]) fun _ _ _ => by simp [State.factoryTrims], rfl⟩

/-- A stand without a condemned converter joins with its spare as a shadow; no record is written. -/
theorem standJoin_sound {k : Nat} (hk : (s.stand k).condemned = 0) : Sound s (s.standJoin k) ∧ (s.standJoin k).hw = s.hw := by
  unfold State.standJoin
  extract_lets d s1 s2 bad c
  rw [if_pos (by simp [d, hk])]
  have h1 : Sound s s1 := onStand_sound (.refl s) fun _ => rfl
  refine ⟨shadowFor_sound (onStand_sound h1 fun _ => rfl), ?_⟩
  have hc : Changes [.convs, .stands, .insts] s ((s1.onStand k fun x => { x with st := 0, phase := 5 }).shadowFor k
    (nextSlot (s1.stand k))) :=
    shadowFor_ch (onStand_ch (onStand_ch (.refl _ _) rfl) rfl) rfl
  exact hc.hw rfl

/-- No converter of the chip is STUCK, and none is condemned. -/
def Healthy (s : State) : Prop := (∀ k < 4, (s.stand k).condemned = 0) ∧ ∀ v < 40, (s.conv v).stuck = false

theorem Healthy.of_sound (h : Healthy s) (hs : Sound s t) : Healthy t :=
  ⟨fun k hk => (hs.stand_condemned k).trans (h.1 k hk), fun v hv => (hs.conv_stuck v).trans (h.2 v hv)⟩

theorem slotConv_lt {k v : Nat} (hk : k < 4) (hv : v ∈ (List.range 9).map (slotChan k) ++ [36 + k]) : v < 40 := by
  simp only [List.mem_append, List.mem_map, List.mem_range, List.mem_singleton, slotChan] at hv
  obtain ⟨i, hi, rfl⟩ | rfl := hv
  · split <;> omega
  · omega

theorem standStart_of_healthy {k : Nat} (hk : k < 4) (h : Healthy s) : s.standStart k = s.standJoin k := by
  obtain ⟨hs, -⟩ := standJoin_sound (h.1 k hk)
  have hj := h.of_sound hs
  unfold State.standStart
  refine List.foldlRecOn (motive := fun x => x = s.standJoin k) _ _ rfl fun x hx v hv => ?_
  subst hx
  rw [if_neg (by simp [hj.2 v (slotConv_lt hk hv)])]

/-- Where no converter is condemned or STUCK the start of the stands writes nothing. -/
theorem standStarts_sound (h : Healthy s) :
    Sound s ((List.range 4).foldl State.standStart s) ∧ ((List.range 4).foldl State.standStart s).hw = s.hw := by
  refine List.foldlRecOn (motive := fun x => Sound s x ∧ x.hw = s.hw) _ _ ⟨.refl s, rfl⟩ fun x ⟨hx, hw⟩ k hk => ?_
  have hxh := h.of_sound hx
  have hk4 : k < 4 := List.mem_range.1 hk
  rw [standStart_of_healthy hk4 hxh]
  obtain ⟨hs, hjw⟩ := standJoin_sound (hxh.1 k hk4)
  exact ⟨hx.trans hs, hjw.trans hw⟩

theorem kernelsReady_hw (h : Healthy s) : s.kernelsReady.hw = s.hw := by
  unfold State.kernelsReady
  have hf : Sound s (if s.hw.pioSeq.isNone then s.factoryTrims else s) := sound_ite (factoryTrims_sound (.refl s)) (.refl s)
  have hfw : (if s.hw.pioSeq.isNone then s.factoryTrims else s).hw = s.hw := by
    split <;> rfl
  generalize (if s.hw.pioSeq.isNone then s.factoryTrims else s) = x at hf hfw ⊢
  have hi : Changes [.filts, .insts] ((List.range 4).foldl State.standStart x)
      ((List.range 36).foldl State.filterInit ((List.range 4).foldl State.standStart x)) :=
    ch_foldl (fun _ _ h => filterInit_ch h rfl) (.refl _ _)
  rw [hi.hw rfl, (standStarts_sound (h.of_sound hf)).2, hfw]

/-! ### A DSP reload (R411) -/

/-- Filters and stands give up what they were doing. -/
def State.dspGivenUp (s : State) : State := (List.range 4).foldl State.standAbort ((List.range 36).foldl State.filterReload s)

theorem dspGivenUp_quiet (s : State) : Quiet s s.dspGivenUp :=
  quiet_foldl (fun _ _ h => standAbort_quiet h) (quiet_foldl (fun _ _ h => filterReload_quiet h) (.refl s))

theorem dspGivenUp_changes (s : State) : Changes [.wd, .chans, .convs, .stands, .filts, .insts] s s.dspGivenUp :=
  ch_foldl (fun _ _ h => standAbort_ch h rfl) (ch_foldl (fun _ _ h => filterReload_ch h rfl) (.refl _ _))

theorem dspGivenUp_sound (s : State) : Sound s s.dspGivenUp :=
  sound_foldl (fun _ _ h => standAbort_sound h) (sound_foldl
    (fun _ _ h => h.of_changes (filterReload_ch (.refl [.wd, .filts, .insts] _) rfl) rfl rfl) (.refl s))

/-- The reload counted, on a state in which filters and stands have given up. -/
def State.dspReady (x s : State) : State :=
  let s4 := x.onWd fun w => { w with dspReloads := u32 (w.dspReloads + 1), dspExpiryClk := some s.clk, dspReloadWait := true }
  let s5 := (s4.onPw fun p => { p with startGap := 0 }).onHw fun h =>
    { h with resume := (lastCheckpoint s).map (fun e => resumeOf s e.1) }
  s5.dropPending .dsp

theorem dspReload_eq (s : State) : ∃ b, (b = s ∨ b = s.runRegion 2 (inactiveOf s 2)) ∧
    s.dspReload = (b.dspGivenUp.dspReady s).kernelsStart := by
  unfold State.dspReload State.dspReady State.dspGivenUp
  extract_lets again other s1 s2 s3 s4 s5
  refine ⟨s1, ?_, rfl⟩
  unfold s1
  split
  · exact .inr rfl
  · exact .inl rfl

theorem dspReady_changes (x s : State) : Changes [.wd, .pw, .hw, .pr] x (x.dspReady s) :=
  dropPending_ch (onHw_ch (onPw_ch (onWd_ch (.refl _ _) rfl) rfl) rfl) rfl

theorem dspReady_wd (x s : State) : (x.dspReady s).wd =
    { x.wd with dspReloads := u32 (x.wd.dspReloads + 1), dspExpiryClk := some s.clk, dspReloadWait := true } := rfl

theorem dspReady_pw (x s : State) : (x.dspReady s).pw = { x.pw with startGap := 0 } := rfl

theorem dspReady_mem (x s : State) : (x.dspReady s).hw.mem = x.hw.mem := rfl

/-- What a reload of the microcode brings. -/
theorem dspReload_brings (ht : s.dspReload = t) :
    t.me.kernels = true ∧ t.me.fromB1 = false ∧ t.pw.shadow = .waiting ∧ t.pw.startGap = 0 ∧
      t.wd.dspReloads = u32 (s.wd.dspReloads + 1) ∧ t.wd.dspExpiryClk = some s.clk ∧ t.wd.dspRunning = true ∧
      t.pw.stage = s.pw.stage ∧ t.wd.running = s.wd.running ∧ (Healthy s → t.hw.mem = s.hw.mem) := by
  obtain ⟨b, hb, he⟩ := dspReload_eq s
  rw [he] at ht
  have hbc : Changes [.up] s b := by
    rcases hb with rfl | rfl
    · exact .refl _ _
    · exact runRegion_ch (.refl _ _) rfl
  have hg := dspGivenUp_changes b
  have hgq := dspGivenUp_quiet b
  have hrc := dspReady_changes b.dspGivenUp s
  have hk := kernelsStart_me (b.dspGivenUp.dspReady s)
  have hpw := kernelsStart_pw (b.dspGivenUp.dspReady s)
  have hwd := kernelsStart_wd (b.dspGivenUp.dspReady s)
  rw [ht] at hk hpw hwd
  rw [dspReady_pw, hg.pw rfl, hbc.pw rfl] at hpw
  rw [dspReady_wd, hgq.wd, hbc.wd rfl] at hwd
  refine ⟨hk.1, hk.2, by rw [hpw], by rw [hpw], by rw [hwd], by rw [hwd], by rw [hwd], by rw [hpw], by rw [hwd], fun hs => ?_⟩
  have hr : Healthy (b.dspGivenUp.dspReady s) :=
    ((hs.of_sound ((Sound.refl s).of_changes hbc rfl rfl)).of_sound (dspGivenUp_sound b)).of_sound
      ((Sound.refl _).of_changes hrc rfl rfl)
  rw [← ht, kernelsStart_eq, kernelsRun_hw, kernelsReady_hw hr, dspReady_mem, hg.hw rfl, hbc.hw rfl]

/-! ### The Warden stops (R24, R426) -/

theorem wardenStop_brings {cause : Nat} (ht : s.wardenStop cause = t) :
    t.wd.running = false ∧ t.wd.wardenCause = cause ∧ t.wd.wardenClk = s.clk ∧
      t.wd.wardenRestarts = u32 (s.wd.wardenRestarts + 1) ∧ t.se.open_ = [] ∧ t.tp.keys = [] ∧ t.hm.forces = [] ∧
      t.rtc.following = false ∧ t.pr.committing = none ∧ t.pr.committed = s.pr.committed := by
  unfold State.wardenStop at ht
  extract_lets s1 s2 s3 at ht
  have h12 : Changes [.se, .hm, .tp] s1 s2 := onTp_ch (dropSessions_ch (.refl _ _) rfl) rfl
  have h23 : Changes [.rtc, .up, .tx] s2 s3 := onTx_ch (abandonUpdate_ch (stopFollowing_ch (.refl _ _) rfl) rfl) rfl
  have hrtc : s3.rtc = s2.stopFollowing.rtc :=
    (onTx_ch (abandonUpdate_ch (.refl [.up, .tx] _) rfl) rfl).rtc rfl
  have h3t : Changes [.lk, .pr] s3 t := by
    rw [← ht]
    exact dropPending_ch (onPr_ch (onLk_ch (.refl _ _) rfl) rfl) rfl
  have hpr : t.pr.committing = none ∧ t.pr.committed = s3.pr.committed := by
    rw [← ht, State.dropPending, onPr_pr, onPr_pr, onLk_pr]
    exact ⟨rfl, rfl⟩
  have hopen : s2.se.open_ = [] := by simp [s2, State.dropSessions]
  have hforces : s2.hm.forces = [] := by simp [s2, State.dropSessions, canWrite, hasSession]
  obtain ⟨hcm, hcd⟩ := hpr
  rw [h3t.wd rfl, h23.wd rfl, h12.wd rfl, h3t.se rfl, h23.se rfl, h3t.tp rfl, h23.tp rfl, h3t.hm rfl, h23.hm rfl, h3t.rtc rfl,
    hrtc, hcd, h23.pr rfl, h12.pr rfl]
  exact ⟨rfl, rfl, rfl, rfl, hopen, rfl, hforces, rfl, hcm, rfl⟩

/-! ### A frame as an equation -/

/-- `s` with the parts `q` of `t`. -/
def State.pick (q : List Part) (s t : State) : State where
  pw := bif q.contains .pw then t.pw else s.pw
  te := bif q.contains .te then t.te else s.te
  rtc := bif q.contains .rtc then t.rtc else s.rtc
  hw := bif q.contains .hw then t.hw else s.hw
  se := bif q.contains .se then t.se else s.se
  pr := bif q.contains .pr then t.pr else s.pr
  lk := bif q.contains .lk then t.lk else s.lk
  tp := bif q.contains .tp then t.tp else s.tp
  wd := bif q.contains .wd then t.wd else s.wd
  up := bif q.contains .up then t.up else s.up
  tx := bif q.contains .tx then t.tx else s.tx
  nt := bif q.contains .nt then t.nt else s.nt
  hm := bif q.contains .hm then t.hm else s.hm
  ref := bif q.contains .ref then t.ref else s.ref
  chans := bif q.contains .chans then t.chans else s.chans
  convs := bif q.contains .convs then t.convs else s.convs
  stands := bif q.contains .stands then t.stands else s.stands
  seqs := bif q.contains .seqs then t.seqs else s.seqs
  filts := bif q.contains .filts then t.filts else s.filts
  insts := bif q.contains .insts then t.insts else s.insts
  hist := bif q.contains .hist then t.hist else s.hist
  wave := bif q.contains .wave then t.wave else s.wave
  qu := bif q.contains .qu then t.qu else s.qu
  units := bif q.contains .units then t.units else s.units
  me := bif q.contains .me then t.me else s.me
  pq := bif q.contains .pq then t.pq else s.pq
  pm := bif q.contains .pm then t.pm else s.pm
  clk := bif q.contains .clk then t.clk else s.clk
  free := bif q.contains .free then t.free else s.free
  pending := bif q.contains .pending then t.pending else s.pending

theorem bif_eq_right_of_keeps {α : Type} {b : Bool} {x y : α} (h : b = false → x = y) : x = bif b then x else y := by
  cases b with
  | true => rfl
  | false => exact h rfl

/-- A state that differs in the parts `q` alone is the old one with these parts of the new one. -/
theorem Changes.eq_pick {q : List Part} (h : Changes q s t) : t = s.pick q t := by
  unfold State.pick
  rw [← bif_eq_right_of_keeps h.pw, ← bif_eq_right_of_keeps h.te, ← bif_eq_right_of_keeps h.rtc,
    ← bif_eq_right_of_keeps h.hw, ← bif_eq_right_of_keeps h.se, ← bif_eq_right_of_keeps h.pr,
    ← bif_eq_right_of_keeps h.lk, ← bif_eq_right_of_keeps h.tp, ← bif_eq_right_of_keeps h.wd,
    ← bif_eq_right_of_keeps h.up, ← bif_eq_right_of_keeps h.tx, ← bif_eq_right_of_keeps h.nt,
    ← bif_eq_right_of_keeps h.hm, ← bif_eq_right_of_keeps h.ref, ← bif_eq_right_of_keeps h.chans,
    ← bif_eq_right_of_keeps h.convs, ← bif_eq_right_of_keeps h.stands, ← bif_eq_right_of_keeps h.seqs,
    ← bif_eq_right_of_keeps h.filts, ← bif_eq_right_of_keeps h.insts, ← bif_eq_right_of_keeps h.hist,
    ← bif_eq_right_of_keeps h.wave, ← bif_eq_right_of_keeps h.qu, ← bif_eq_right_of_keeps h.units,
    ← bif_eq_right_of_keeps h.me, ← bif_eq_right_of_keeps h.pq, ← bif_eq_right_of_keeps h.pm,
    ← bif_eq_right_of_keeps h.clk, ← bif_eq_right_of_keeps h.free, ← bif_eq_right_of_keeps h.pending]

/-! ### Arms of the watchdogs (R410 to R412, R426) -/

theorem execCanopyWatchdog_brings (k : Fin 2) (hr : s.wd.running = true) (hc : s.wd.canopyRunning = true) :
    Gives (.canopyWatchdog k) s fun t =>
      t.wd.restartUnplanned = true ∧ t.wd.canopyRunning = true ∧ t.wd.running = true ∧ t.hw.mem = s.hw.mem ∧
      t = { s with hw := t.hw, se := t.se, lk := t.lk, tp := t.tp, wd := t.wd, up := t.up, hm := t.hm, me := t.me, pq := t.pq,
                   free := t.free } := by
  have hq : Quiet s ((s.watchdogLog k).tamperPulse 25) := tamperPulse_quiet (watchdogLog_quiet (.refl s))
  have hc1 : Changes [.se, .lk, .tp, .wd, .hm, .me, .free] s ((s.watchdogLog k).tamperPulse 25) :=
    tamperPulse_ch (watchdogLog_ch (.refl _ _) rfl) rfl
  have he : exec (.canopyWatchdog k) s = .next ((((s.watchdogLog k).tamperPulse 25).onWd fun w =>
      { w with restartUnplanned := true }).trialFail 0) := by
    dsimp only [exec, execCanopyWatchdog]
    rw [if_pos (by simp [hr, hc])]
  generalize (s.watchdogLog k).tamperPulse 25 = x at hq hc1 he
  have hqt : Quiet (x.onWd fun w => { w with restartUnplanned := true }) _ := trialFail_quiet (kind := 0) (.refl _)
  have hct : Changes [.hw, .se, .lk, .tp, .wd, .up, .hm, .me, .pq, .free] s _ :=
    trialFail_ch (kind := 0) (onWd_ch (f := fun w => { w with restartUnplanned := true }) (hc1.mono rfl) rfl) rfl
  refine ⟨_, he, ?_, ?_, ?_, ?_, hct.eq_pick⟩
  · rw [hqt.wd]; rfl
  · rw [hqt.canopyRunning]; exact hq.canopyRunning.trans hc
  · rw [hqt.running]; exact hq.running.trans hr
  · rw [trialFail_mem]; exact congrArg Heart.mem (hc1.hw rfl)

theorem execDspWatchdog_brings (hr : s.wd.running = true) (hk : s.me.kernels = true) :
    Gives .dspWatchdog s fun t =>
      t.me.kernels = true ∧ t.me.fromB1 = false ∧ t.pw.shadow = .waiting ∧ t.pw.startGap = 0 ∧
      t.wd.dspReloads = u32 (s.wd.dspReloads + 1) ∧ t.wd.dspExpiryClk = some s.clk ∧ t.wd.dspRunning = true ∧
      t.pw.stage = s.pw.stage ∧ t.wd.running = true ∧
      ((∀ k < 4, (s.stand k).condemned = 0) → (∀ v < 40, (s.conv v).stuck = false) → t.hw.mem = s.hw.mem) ∧
      t = { s with pw := t.pw, hw := t.hw, se := t.se, pr := t.pr, lk := t.lk, tp := t.tp, wd := t.wd, up := t.up, hm := t.hm,
                   ref := t.ref, chans := t.chans, convs := t.convs, stands := t.stands, filts := t.filts, insts := t.insts,
                   wave := t.wave, me := t.me, pq := t.pq, pm := t.pm, free := t.free } := by
  have hq : Quiet s (((s.watchdogLog 2).tamperPulse 25).trialFail 2) :=
    trialFail_quiet (tamperPulse_quiet (watchdogLog_quiet (.refl s)))
  have hc : Changes [.se, .lk, .tp, .wd, .up, .hm, .me, .free] s (((s.watchdogLog 2).tamperPulse 25).trialFail 2) :=
    (tamperPulse_ch (watchdogLog_ch (.refl _ _) rfl) rfl).trans ((trialFail_changes_of_ne (by decide)).mono rfl)
  have he : exec .dspWatchdog s = .next (((s.watchdogLog 2).tamperPulse 25).trialFail 2).dspReload := by
    dsimp only [exec, execDspWatchdog]
    rw [if_pos (by simp [hr, hk])]
  generalize ((s.watchdogLog 2).tamperPulse 25).trialFail 2 = x at hq hc he
  obtain ⟨hker, hb1, hsh, hgap, hrel, hexp, hdsp, hst, hrun, hmem⟩ := dspReload_brings (s := x) rfl
  have hct : Changes [.pw, .hw, .se, .pr, .lk, .tp, .wd, .up, .hm, .ref, .chans, .convs, .stands, .filts, .insts, .wave, .me,
      .pq, .pm, .free] s x.dspReload := dspReload_ch (hc.mono rfl) rfl
  refine ⟨_, he, hker, hb1, hsh, hgap, ?_, ?_, hdsp, ?_, ?_, fun hs hv => ?_, hct.eq_pick⟩
  · rw [hrel, hq.wd]
  · rw [hexp, hc.clk rfl]
  · rw [hst, hc.pw rfl]
  · exact hrun.trans (hq.running.trans hr)
  · have hx : Healthy x := Healthy.of_sound (s := s) ⟨hs, hv⟩ ((Sound.refl s).of_changes hc rfl rfl)
    rw [hmem hx, hc.hw rfl]

theorem execWardenWatchdog_brings (hr : s.wd.running = true) :
    Gives .wardenWatchdog s fun t =>
      t.wd.running = false ∧ t.wd.wardenCause = 1 ∧ t.wd.wardenClk = s.clk ∧
      t.wd.wardenRestarts = u32 (s.wd.wardenRestarts + 1) ∧ t.se.open_ = [] ∧ t.tp.keys = [] ∧ t.hm.forces = [] ∧
      t.rtc.following = false ∧ t.pr.committing = none ∧ t.pr.committed = s.pr.committed ∧
      t = { s with rtc := t.rtc, se := t.se, pr := t.pr, lk := t.lk, tp := t.tp, wd := t.wd, up := t.up, tx := t.tx,
                   hm := t.hm, free := t.free } := by
  have hq : Quiet s ((s.watchdogLog 3).trialFail 1) := trialFail_quiet (watchdogLog_quiet (.refl s))
  have hc : Changes [.wd, .up, .free] s ((s.watchdogLog 3).trialFail 1) :=
    (watchdogLog_ch (.refl _ _) rfl).trans ((trialFail_changes_of_ne (by decide)).mono rfl)
  have he : exec .wardenWatchdog s = .next (((s.watchdogLog 3).trialFail 1).wardenStop 1) := by
    dsimp only [exec, execWardenWatchdog]
    rw [if_pos hr]
  generalize (s.watchdogLog 3).trialFail 1 = x at hq hc he
  obtain ⟨hrun, hcause, hclk, hrst, hopen, hkeys, hforces, hfol, hcm, hcd⟩ := wardenStop_brings (s := x) (cause := 1) rfl
  have hct : Changes [.rtc, .se, .pr, .lk, .tp, .wd, .up, .tx, .hm, .free] s (x.wardenStop 1) := wardenStop_ch (hc.mono rfl) rfl
  refine ⟨_, he, hrun, hcause, ?_, ?_, hopen, hkeys, hforces, hfol, hcm, ?_, hct.eq_pick⟩
  · rw [hclk, hc.clk rfl]
  · rw [hrst, hq.wd]
  · rw [hcd, hc.pr rfl]

/-! ### The Warden comes back, or does not (R426) -/

/-- With room in the buffer an entry without continuation joins it, and nothing else changes. -/
theorem log_of_room {code : Nat} {data : List Byte} (hb : s.wd.buffer.length < 256) :
    s.log code data = { s with wd := { s.wd with
      buffer := s.wd.buffer ++ [⟨s.now80, code, fitBytes 14 data, logFlags s false false false, s.clk⟩] } } := by
  unfold State.log State.logAt State.pushConts State.pushLog State.onWd
  beta_reduce
  rw [if_pos hb]

theorem execWardenRestartComplete_brings (hr : s.wd.running = false) (h2 : 2 ≤ s.pw.stage)
    (ht : s.clk ≤ s.wd.wardenClk + 150 * cycMs) (hb : s.wd.buffer.length < 256) :
    Gives .wardenRestartComplete s fun t =>
      t.wd.running = true ∧ t.wd.buffer = s.wd.buffer ++ [⟨s.now80, 0x010B, fitBytes 14 (le 1 s.wd.wardenCause ++ zeros 1 ++
        le 2 (satN 65535 (msSince s s.wd.wardenClk))), logFlags s false false false, s.clk⟩] ∧
      t = { s with wd := { s.wd with running := true, buffer := t.wd.buffer } } := by
  have he : exec .wardenRestartComplete s = .next ((s.onWd fun w => { w with running := true }).log 0x010B
      (le 1 s.wd.wardenCause ++ zeros 1 ++ le 2 (satN 65535 (msSince s s.wd.wardenClk)))) := by
    have hl : decide (s.wd.wardenClk + 150 * cycMs < s.clk) = false := by simpa using ht
    have h2' : decide (s.pw.stage < 2) = false := decide_eq_false (Nat.not_lt.2 h2)
    have he : exec .wardenRestartComplete s = execWardenRestartComplete s := by rw [exec]
    rw [he, execWardenRestartComplete, if_neg (by rw [hr, h2', hl]; decide)]
  rw [log_of_room (by exact hb)] at he
  exact ⟨_, he, rfl, rfl, rfl⟩

theorem execWardenRestartComplete_of_late (h : s.wd.wardenClk + 150 * cycMs < s.clk) :
    exec .wardenRestartComplete s = .next s := by
  have he : exec .wardenRestartComplete s = execWardenRestartComplete s := by rw [exec]
  rw [he, execWardenRestartComplete, if_pos (by rw [decide_eq_true h, Bool.or_true])]

theorem activeOf_runRegion (s : State) (k b : Nat) :
    activeOf (s.runRegion k b) k = if k < s.up.active.length then b else activeOf s k := by
  unfold activeOf State.runRegion
  rw [onUp_up]
  split
  next h => rw [modAt_getD_self _ _ _ _ h]
  next h =>
    rw [List.getD_eq_default _ _ (by simpa using h), List.getD_eq_default _ _ (by simpa using h)]

/-- The Warden's other region runs where it may. -/
def State.wardenOther (s x : State) : State :=
  if regionRuns x (region x 1 (inactiveOf s 1)) then x.runRegion 1 (inactiveOf s 1) else x

/-- The missing heartbeat noted, after a failed trial and the choice of the other region. -/
def State.heartbeatMissed (s : State) : State :=
  (s.wardenOther (s.trialFail 1)).onWd fun w =>
    { w with wardenCause := 2, wardenClk := s.clk, wardenRestarts := u32 (w.wardenRestarts + 1) }

theorem wardenOther_changes (s x : State) : Changes [.up] x (s.wardenOther x) :=
  ch_ite (fun _ => runRegion_ch (.refl _ _) rfl) fun _ => .refl _ _

theorem trialFail_of_no_trial {kind : Nat} (h : s.up.st ≠ 5) : s.trialFail kind = s := by
  unfold State.trialFail
  rw [if_neg (by simp [h])]

theorem heartbeatMissed_active (h : s.up.st ≠ 5) : activeOf s.heartbeatMissed 1 =
    if regionRuns s (region s 1 (inactiveOf s 1)) ∧ 1 < s.up.active.length then inactiveOf s 1 else activeOf s 1 := by
  have hm : activeOf s.heartbeatMissed 1 = activeOf (s.wardenOther s) 1 := by
    unfold State.heartbeatMissed
    rw [trialFail_of_no_trial h]
    rfl
  rw [hm, State.wardenOther]
  by_cases hr : regionRuns s (region s 1 (inactiveOf s 1)) = true
  · simp only [hr, if_true, true_and, activeOf_runRegion]
  · rw [if_neg hr, if_neg fun h => hr h.1]

theorem execWardenHeartbeatTimeout_of_due (hr : s.wd.running = false) (h2 : 2 ≤ s.pw.stage)
    (ht : s.after s.wd.wardenClk (150 * cycMs) = true) :
    ∃ t, exec .wardenHeartbeatTimeout s = .next t ∧ Quiet s.heartbeatMissed t ∧
      Changes [.wd, .up, .free] s.heartbeatMissed t ∧ t.up.active = s.heartbeatMissed.up.active := by
  have h2' : decide (s.pw.stage < 2) = false := decide_eq_false (Nat.not_lt.2 h2)
  have he : exec .wardenHeartbeatTimeout s = execWardenHeartbeatTimeout s := by rw [exec]
  rw [he, execWardenHeartbeatTimeout, if_neg (by rw [hr, h2', ht]; decide)]
  change ∃ t, (match (s.trialFail 1).up.revert with
    | some c => if hdrKind s.up.header == 1 then
        .next ((s.heartbeatMissed.updLog 0x0E05 s.up.header (inactiveOf s 1) c).updIdle) else .next s.heartbeatMissed
    | none => .next s.heartbeatMissed) = Host.Outcome.next t ∧ _
  split
  next c _ =>
    split
    · have hl : Changes [.wd, .free] s.heartbeatMissed (s.heartbeatMissed.updLog 0x0E05 s.up.header (inactiveOf s 1) c) :=
        updLog_ch (.refl _ _) rfl
      exact ⟨_, rfl, (updLog_quiet (.refl _)).calm (updIdle_ch (.refl _ _) rfl), updIdle_ch (hl.mono rfl) rfl, by
          rw [State.updIdle, onUp_up, hl.up rfl]⟩
    · exact ⟨_, rfl, .refl _, .refl _ _, rfl⟩
  · exact ⟨_, rfl, .refl _, .refl _ _, rfl⟩

theorem execWardenHeartbeatTimeout_brings (hr : s.wd.running = false) (h2 : 2 ≤ s.pw.stage)
    (ht : s.after s.wd.wardenClk (150 * cycMs) = true) :
    Gives .wardenHeartbeatTimeout s fun t =>
      t.wd.wardenCause = 2 ∧ t.wd.wardenClk = s.clk ∧ t.wd.wardenRestarts = u32 (s.wd.wardenRestarts + 1) ∧
      t.wd.running = false ∧
      (s.up.st ≠ 5 → activeOf t 1 = (if regionRuns s (region s 1 (inactiveOf s 1)) ∧ 1 < s.up.active.length
        then inactiveOf s 1 else activeOf s 1)) ∧ t = { s with wd := t.wd, up := t.up, free := t.free } := by
  obtain ⟨t, he, hq, hc, hact⟩ := execWardenHeartbeatTimeout_of_due hr h2 ht
  have hx : Changes [.wd, .up, .free] s (s.wardenOther (s.trialFail 1)) :=
    ((trialFail_changes_of_ne (by decide)).mono rfl).trans ((wardenOther_changes s _).mono rfl)
  have hxq : Quiet s (s.wardenOther (s.trialFail 1)) := (trialFail_quiet (.refl s)).calm ((wardenOther_changes s _).mono rfl)
  have hm : Changes [.wd, .up, .free] s s.heartbeatMissed := onWd_ch hx rfl
  have hrst : s.heartbeatMissed.wd.wardenRestarts = u32 (s.wd.wardenRestarts + 1) := by
    change u32 ((s.wardenOther (s.trialFail 1)).wd.wardenRestarts + 1) = _
    rw [hxq.wd]
  refine ⟨t, he, ?_, ?_, ?_, ?_, fun h5 => ?_, (hm.trans hc).eq_pick⟩
  · rw [hq.wd]; rfl
  · rw [hq.wd]; rfl
  · rw [hq.wd]; exact hrst
  · exact hq.running.trans (hxq.running.trans hr)
  · rw [← heartbeatMissed_active h5, activeOf, activeOf, hact]

/-- Settles O20: each arm comes down to the tamper pulse, the failed trial, the reload or the stop that it names. -/
theorem watchdogsAndWardenRestart : Obligations.WatchdogsAndWardenRestart := fun _ =>
  ⟨execCanopyWatchdog_brings, execDspWatchdog_brings, execWardenWatchdog_brings, execWardenRestartComplete_brings,
    execWardenRestartComplete_of_late, execWardenHeartbeatTimeout_brings⟩

end Sys2Proof.Machine
end

section
/-! LEMMAS. Which bytes of the store a write to a page, a record and an item may change (R339, R354, R356 to R358). -/

namespace Sys2Proof.Machine

variable {s t u : State} {l : List (Nat × Nat)} {part page : Nat}

/-! ### Bytes kept -/

theorem keepsBytes_of_mem (h : t.hw.mem = s.hw.mem) : keepsBytes s t l := fun _ _ => by rw [h]

theorem keepsBytes_refl (s : State) (l : List (Nat × Nat)) : keepsBytes s s l := fun _ _ => rfl

theorem keepsBytes_trans (h : keepsBytes s t l) (g : keepsBytes t u l) : keepsBytes s u l :=
  fun a ha => (g a ha).trans (h a ha)

theorem onHw_keepsBytes {f : Heart → Heart} (H : keepsBytes s t l) (h : ∀ x, (f x).mem = x.mem) : keepsBytes s (t.onHw f) l :=
  keepsBytes_trans H (keepsBytes_of_mem (h t.hw))

theorem log_keepsBytes {code : Nat} {data : List Byte} (H : keepsBytes s t l) : keepsBytes s (t.log code data) l :=
  keepsBytes_trans H (keepsBytes_of_mem (by rw [log_hw]))

theorem sense_keepsBytes {a n : Nat} (H : keepsBytes s t l) : keepsBytes s (t.sense a n) l :=
  keepsBytes_trans H (keepsBytes_of_mem (sense_mem t a n))

theorem keepsBytes_foldl {α : Type} {f : State → α → State} {as : List α} (hf : ∀ x, ∀ a ∈ as, keepsBytes x (f x a) l) :
    keepsBytes s (as.foldl f s) l :=
  List.foldlRecOn (motive := fun x => keepsBytes s x l) as f (keepsBytes_refl s l) fun x h a ha => keepsBytes_trans h (hf x a ha)

theorem andThen_keepsBytes {r : State × Bool} {f : State → State × Bool} (H : keepsBytes s r.1 l)
    (hf : ∀ x, keepsBytes x (f x).1 l) : keepsBytes s (andThen r f).1 l := by
  unfold andThen
  split
  · exact keepsBytes_trans H (hf r.1)
  · exact H

/-! ### Writes to a page (R339, R354) -/

/-- Bytes of a part of a page lie in one of some ranges. -/
def LiesIn (l : List (Nat × Nat)) (e : Nat × List Byte) : Prop := ∃ r ∈ l, r.1 ≤ e.1 ∧ e.1 + e.2.length ≤ r.1 + r.2

theorem rdByte_foldl_wrBytes_out {a : Nat} {ps : List (Nat × List Byte)} (h : ∀ e ∈ ps, a < e.1 ∨ e.1 + e.2.length ≤ a)
    (m : List Host.Cell) : rdByte (ps.foldl (fun m e => wrBytes m e.1 e.2) m) a = rdByte m a := by
  induction ps generalizing m with
  | nil => rfl
  | cons e ps ih =>
    rw [List.foldl_cons, ih fun e he => h e (List.mem_cons_of_mem _ he), rdByte_wrBytes_out _ (h e (List.mem_cons_self ..))]

/-- A write to a page changes its parts and the torn bitmap. -/
theorem wrPage_keepsBytes {ps : List (Nat × List Byte)} (h0 : (0, 256) ∈ l) (hp : (ps.headD (0, [])).1 / 256 < 2048)
    (h : ∀ e ∈ ps, LiesIn l e) : keepsBytes s (s.wrPage ps) l := by
  intro a ha
  have h256 : 256 ≤ a := by
    have := ha _ h0
    omega
  have hm : (s.wrPage ps).hw.mem =
      markTorn (ps.foldl (fun m e => wrBytes m e.1 e.2) s.hw.mem) ((ps.headD (0, [])).1 / 256) false := rfl
  rw [hm, rdByte_markTorn false hp h256, rdByte_foldl_wrBytes_out]
  intro e he
  obtain ⟨r, hr, h1, h2⟩ := h e he
  have := ha r hr
  omega

/-- The torn bitmap and the page pair of a record are among some ranges. -/
def PairIn (l : List (Nat × Nat)) (part page : Nat) : Prop :=
  (0, 256) ∈ l ∧ (pageAddr part page, 512) ∈ l ∧ partFirst part + page + 1 < 2048

/-- One page of a record's pair is written with the pair's bytes alone. -/
theorem pageWrite_keepsBytes {k : Nat} {bs : List Byte} (h : PairIn l part page) (hk : k ≤ 1) (hb : bs.length ≤ 256) :
    keepsBytes s (s.pageWrite part (page + k) bs) l := by
  obtain ⟨h0, hpair, hlt⟩ := h
  have ha (n : Nat) : pageAddr part n = 256 * (partFirst part + n) := Nat.mul_comm ..
  refine wrPage_keepsBytes h0 ?_ fun e he => ⟨_, hpair, ?_⟩
  · simp only [List.headD_cons, ha]
    omega
  · simp only [List.mem_cons, List.not_mem_nil, or_false] at he
    rcases he with rfl | rfl
    · simp only [ha, List.length_drop]
      omega
    · simp only [ha, List.length_take]
      omega

/-! ### Records of the record layer (R356, R357) -/

theorem recordBytes_length (s : State) (part page : Nat) :
    (recordBytes s part page).length = 16 + peekVal s (pageAddr part page + 4) 2 := by
  simp [recordBytes, peek]

/-- A valid copy fills its page at most. -/
theorem recordBytes_length_le {id n : Nat} (h : recordRead s part id page = some n) :
    (recordBytes s part page).length ≤ 256 := by
  rw [recordBytes_length]
  unfold recordRead at h
  dsimp only at h
  split at h
  next hc =>
    simp only [Bool.and_eq_true, decide_eq_true_eq] at hc
    omega
  · cases h

theorem recordCopy_length (id flags seq : Nat) (payload : List Byte) :
    (recordCopy id flags seq payload).length = 16 + payload.length := by
  simp [recordCopy, le]
  omega

theorem laterCopy_some {x y : Option Nat} {b : Bool} {n : Nat} (h : laterCopy x y = some (b, n)) :
    (if b then y else x) = some n := by
  unfold laterCopy at h
  split at h
  · split at h <;> cases h <;> rfl
  · cases h; rfl
  · cases h; rfl
  · cases h

/-- The copy of a record that is current fills its page at most. -/
theorem recordLatest_length_le {e : Nat × Nat} {b : Bool} {n : Nat} (h : recordLatest s part e = some (b, n)) :
    (recordBytes s part (e.2 + if b then 1 else 0)).length ≤ 256 := by
  have hr := laterCopy_some h
  cases b with
  | false => exact recordBytes_length_le hr
  | true => exact recordBytes_length_le hr

theorem recordFix_keepsBytes {id : Nat} (h : PairIn l part page) : keepsBytes s (s.recordFix part id page) l := by
  unfold State.recordFix
  extract_lets s1
  have h1 : keepsBytes s s1 l := sense_keepsBytes (keepsBytes_refl s l)
  have hfirst {n : Nat} (hr : recordRead s1 part id (page + 1) = some n) :
      keepsBytes s (s1.pageWrite part page (recordBytes s1 part (page + 1))) l :=
    keepsBytes_trans h1 (pageWrite_keepsBytes (k := 0) h (Nat.zero_le _) (recordBytes_length_le hr))
  have hsecond {n : Nat} (hr : recordRead s1 part id page = some n) :
      keepsBytes s (s1.pageWrite part (page + 1) (recordBytes s1 part page)) l :=
    keepsBytes_trans h1 (pageWrite_keepsBytes h le_rfl (recordBytes_length_le hr))
  split
  next x y hx hy =>
    split
    · exact log_keepsBytes (onHw_keepsBytes (hsecond hx) fun _ => rfl)
    · exact h1
  next x hx hy => exact onHw_keepsBytes (hsecond hx) fun _ => rfl
  next y hx hy => exact onHw_keepsBytes (hfirst hy) fun _ => rfl
  · exact log_keepsBytes h1

theorem fixRecord_keepsBytes {e : Nat × Nat} (h : PairIn l part e.2) : keepsBytes s (s.fixRecord part e) l := by
  unfold State.fixRecord
  split
  · exact keepsBytes_refl s l
  · exact recordFix_keepsBytes h

theorem recordPut_keepsBytes {e : Nat × Nat} {flags seq : Nat} {payload : List Byte} (h : PairIn l part e.2)
    (hl : payload.length ≤ 240) : keepsBytes s (s.recordPut part e flags seq payload).1 l := by
  unfold State.recordPut
  extract_lets page put good s1 s2
  have hput (x : State) : keepsBytes x (put x) l := by
    have hw : keepsBytes x (x.pageWrite part page (recordCopy e.1 flags seq payload)) l := by
      have hlen : (recordCopy e.1 flags seq payload).length ≤ 256 := by rw [recordCopy_length]; omega
      unfold page
      split
      · exact pageWrite_keepsBytes h le_rfl hlen
      · exact pageWrite_keepsBytes (k := 0) h (Nat.zero_le _) hlen
    exact sense_keepsBytes hw
  split
  · exact hput s
  · split
    · exact keepsBytes_trans (hput s) (hput s1)
    · exact log_keepsBytes (keepsBytes_trans (hput s) (hput s1))

/-- An item changes the page pairs of its records and the torn bitmap. -/
theorem itemPut_keepsBytes {es : List (Nat × Nat)} {bs : List Byte} (h : ∀ e ∈ es, PairIn l part e.2) :
    keepsBytes s (s.itemPut part es bs).1 l := by
  unfold State.itemPut
  extract_lets s1 q
  have h1 : keepsBytes s s1 l := keepsBytes_foldl fun x e he => fixRecord_keepsBytes (h e he)
  refine List.foldlRecOn (motive := fun r : State × Bool => keepsBytes s r.1 l) _ _ h1 fun r hr e he => ?_
  exact andThen_keepsBytes hr fun x => recordPut_keepsBytes (h _ (List.fst_mem_of_mem_zipIdx he)) (List.length_take_le ..)

end Sys2Proof.Machine
end

section
/-! THEOREMS. The state before power, and the requests for identity, stage and a restart (R27, R28, R333, R334; O2, O49). -/

namespace Sys2Proof.Machine

variable {s : State} {h : Hdr}

/-! ### The state before power (R27, R390) -/

theorem reset_shape : State.reset.Shape :=
  ⟨rfl, rfl, rfl, rfl, rfl, rfl, rfl, rfl, rfl, rfl, rfl, rfl, rfl, rfl, rfl, rfl, rfl, rfl⟩

theorem reset_inv : State.reset.Inv := ⟨rfl, Nat.zero_le _, Nat.zero_le _, fun _ => Nat.zero_le _, reset_shape⟩

theorem reset_slots : State.reset.tp.slots =
    resetResponses.map (fun r => ⟨false, false, false, 0, 0, r, r, false, 0⟩) := rfl

/-- Before power each tamper source stands at its reset response, neither latched nor active. -/
theorem reset_slot {k : Nat} (hk : k < 32) :
    (State.reset.slot k).latched = false ∧ (State.reset.slot k).active = false ∧
      (State.reset.slot k).resp = resetResponses.getD k 0 := by
  have hl : k < resetResponses.length := hk
  have he : State.reset.slot k = ⟨false, false, false, 0, 0, resetResponses[k], resetResponses[k], false, 0⟩ := by
    rw [State.slot, reset_slots, List.getD_eq_getElem _ _ (by simpa using hl), List.getElem_map]
  rw [he, List.getD_eq_getElem _ _ hl]
  exact ⟨rfl, rfl, rfl⟩

/-- Settles O2: the fields are those of the state's definition, and the slots come from the list of reset responses. -/
theorem resetStateIsSafe : Obligations.ResetStateIsSafe :=
  ⟨reset_inv, rfl, rfl, rfl, rfl, rfl, rfl, rfl, rfl, rfl, rfl, rfl, rfl, fun _ hk => reset_slot hk, rfl, by decide⟩

/-! ### NOP, IDENTIFY, GET_STAGE and SOFT_RESTART (R28, R333, R334) -/

theorem holdIdentify_of_unicast (hb : h.bcast = false) : s.holdIdentify h = s := by
  unfold State.holdIdentify
  split
  next hb' _ => rw [hb] at hb'; cases hb'
  · rfl

theorem execNop_of_opens {bs : List Byte} (ho : Opens opNop h s) (hl : bs.length ≤ 4078) :
    exec (.nop h bs) s = .next ((s.accepted h).replied opNop h .ok bs) := by
  have he : exec (.nop h bs) s = execNop h bs s := rfl
  rw [he, execNop, serve_opens ho (decide_eq_true hl) rfl]

theorem execIdentify_of_opens (ho : Opens opIdentify h s) (hl : h.len = 0) :
    exec (.identify h) s =
      .next (((s.accepted h).holdIdentify h).replied opIdentify h .ok (identifyBytes (s.accepted h))) := by
  have he : exec (.identify h) s = execIdentify h s := rfl
  rw [he, execIdentify, serve_opens ho (beq_iff_eq.2 hl) rfl]

theorem execGetStage_of_opens (ho : Opens opGetStage h s) (hl : h.len = 0) :
    exec (.getStage h) s = .next ((s.accepted h).replied opGetStage h .ok (le 4 (stageWord (s.accepted h)))) := by
  have he : exec (.getStage h) s = execGetStage h s := rfl
  rw [he, execGetStage, serve_opens ho (beq_iff_eq.2 hl) rfl]

/-- The accepted SOFT_RESTART: its planned checkpoint and its reason, unless one waits already. -/
def State.restartAsked (s : State) (reason : Nat) : State :=
  if s.wd.restartReq.isSome then s
  else (s.checkpoint s 0).onWd fun w => { w with restartReq := some (reason % 256) }

theorem restartAsked_changes (s : State) (reason : Nat) : Changes [.hw, .wd, .pq, .free] s (s.restartAsked reason) :=
  ch_ite (fun _ => .refl _ _) fun _ => onWd_ch (checkpoint_ch (.refl _ _) rfl) rfl

theorem restartAsked_of_none {reason : Nat} (hn : s.wd.restartReq = none) :
    (s.restartAsked reason).wd.restartReq = some (reason % 256) := by
  rw [State.restartAsked, if_neg (by simp [hn])]
  rfl

theorem restartAsked_of_some {reason : Nat} (hn : s.wd.restartReq ≠ none) : s.restartAsked reason = s :=
  if_pos (Option.isSome_iff_ne_none.2 hn)

theorem execSoftRestart_eq (h : Hdr) (reason : Nat) (s : State) : exec (.softRestart h reason) s =
    .next (serve opSoftRestart h (h.len == 4) (fun s => [(pfailing s, .powerFailing), (s.up.st != 0, .stopRequired)])
      (fun s => ⟨s.restartAsked reason, .ok, zeros 2⟩) s) := by
  have ha : (fun s : State => (⟨s.restartAsked reason, .ok, zeros 2⟩ : Ans)) = fun s =>
      if s.wd.restartReq.isSome then ⟨s, .ok, zeros 2⟩
      else ⟨(s.checkpoint s 0).onWd fun w => { w with restartReq := some (reason % 256) }, .ok, zeros 2⟩ := by
    funext s
    unfold State.restartAsked
    split <;> rfl
  rw [ha]
  rfl

theorem execSoftRestart_answers {reason : Nat} (ho : Opens opSoftRestart h s) (hl : h.len = 4)
    (hp : pfailing (s.accepted h) = false) (hu : s.up.st = 0) :
    Answers (.softRestart h reason) s opSoftRestart h .ok fun v bs => bs = zeros 2 ∧
      (s.wd.restartReq = none → v.wd.restartReq = some (reason % 256)) ∧
      (s.wd.restartReq ≠ none → v = s.accepted h) ∧ v.te = s.te ∧ v.pr = s.pr ∧ v.me = s.me := by
  have hc := restartAsked_changes (s.accepted h) reason
  have hr := accepted_wd_restartReq s h
  refine answers_of (execSoftRestart_eq h reason s) ho (beq_iff_eq.2 hl) (by simp [firstFail, hp, hu]) rfl
    ⟨rfl, fun hn => restartAsked_of_none (hr.trans hn), fun hn => restartAsked_of_some (hr ▸ hn), ?_, ?_, ?_⟩
  · rw [hc.te rfl, accepted_te]
  · rw [hc.pr rfl, accepted_pr]
  · rw [hc.me rfl, accepted_me]

/-- Settles O49: the interpreter carries each request out on the accepted state. -/
theorem systemRequestsAnswer : Obligations.SystemRequestsAnswer := fun _ _ =>
  ⟨fun _ => execNop_of_opens, execIdentify_of_opens, holdIdentify_of_unicast, execGetStage_of_opens,
    fun _ => execSoftRestart_answers⟩

end Sys2Proof.Machine
end

section
/-! THEOREMS. The start sequence from VAUX to PLL lock (R29, R30, R66, R434, R494; O6). -/

namespace Sys2Proof.Machine

variable {s : State}

/-! ### The UTC offset that the time counter starts from (R30, R250) -/

@[simp] theorem lookup_assocSet_self (l : List (Nat × Nat)) (k v : Nat) : (assocSet l k v).lookup k = some v := by
  induction l with
  | nil => simp [assocSet]
  | cons e r ih =>
    obtain ⟨a, b⟩ := e
    rw [assocSet]
    split
    · simp
    · split
      · simp
      next hne =>
        rw [List.lookup_cons, Bool.eq_false_of_not_eq_true hne]
        exact ih

/-- A member taken into use reads as that value. -/
theorem par_setPar_self (s : State) (id v : Nat) : par (s.setPar id v) id = v := by
  simp [par, State.setPar]

/-! ### The rows of Table 2-3 up to PLL lock -/

theorem execVauxStartThreshold_starts {e33 te : Bool} (hp : s.pw.phase = .off) (hw : s.pw.restartWait = false) :
    exec (.vauxStartThreshold e33 te) s = .next (s.powerStart e33 te) := by
  have he : exec (.vauxStartThreshold e33 te) s = execVauxStartThreshold e33 te s := rfl
  rw [he, execVauxStartThreshold, if_neg (by simp [hp]), if_neg (by simp [hw])]

theorem execVauxStartThreshold_waits {e33 te : Bool} (hp : s.pw.phase = .off) (hw : s.pw.restartWait = true) :
    exec (.vauxStartThreshold e33 te) s =
      .next { s with pw := { s.pw with vauxWaiting := true, ext33 := e33, testEn := te } } := by
  have he : exec (.vauxStartThreshold e33 te) s = execVauxStartThreshold e33 te s := rfl
  rw [he, execVauxStartThreshold, if_neg (by simp [hp]), if_pos hw, State.onPw]

theorem execVdd33Regulation_brings {hsel refsel ok : Bool} (hp : s.pw.phase = .started) :
    Gives (.vdd33Regulation hsel refsel ok) s fun t =>
      t.pw.phase = .vdd33 ∧ t.pw.hsel = hsel ∧ t.pw.refsel = refsel ∧ t.pw.buckVcore = !s.pw.testEn ∧
      t.ref.bad = (refsel && !ok) ∧ t.pw.aonUp = true ∧ (s.pw.aonUp = true → t.rtc = s.rtc) ∧
      (s.pw.aonUp = false → t.rtc.cal = Cal.powerUp ∧ t.rtc.osf = true) ∧
      t = { s with pw := t.pw, ref := t.ref, rtc := t.rtc } := by
  have he : exec (.vdd33Regulation hsel refsel ok) s = execVdd33Regulation hsel refsel ok s := rfl
  rw [Gives, he, execVdd33Regulation, if_neg (by simp [hp])]
  cases ha : s.pw.aonUp with
  | true => exact ⟨_, rfl, rfl, rfl, rfl, rfl, rfl, ha, fun _ => rfl, nofun, rfl⟩
  | false => exact ⟨_, rfl, rfl, rfl, rfl, rfl, rfl, rfl, nofun, fun _ => ⟨rfl, rfl⟩, rfl⟩

theorem execVcoreRegulation_of_buck (hp : s.pw.phase = .vdd33) (hb : s.pw.buckVcore = true) :
    exec .vcoreRegulation s = .next { s with pw := { s.pw with phase := .vcore } } := by
  have he : exec .vcoreRegulation s = execVcoreRegulation s := rfl
  rw [he, execVcoreRegulation, if_pos (by simp [hp, hb]), State.onPw]

theorem execVcoreRegulation_of_held (hb : s.pw.buckVcore = false) : exec .vcoreRegulation s = .next s := by
  have he : exec .vcoreRegulation s = execVcoreRegulation s := rfl
  rw [he, execVcoreRegulation, if_neg (by simp [hb])]

theorem execCrystalStable_of_vcore (hp : s.pw.phase = .vcore) :
    exec .crystalStable s = .next { s with pw := { s.pw with phase := .crystal } } := by
  have he : exec .crystalStable s = execCrystalStable s := rfl
  rw [he, execCrystalStable, if_pos (by simp [hp]), State.onPw]

theorem execPllLock_brings (hp : s.pw.phase = .crystal) :
    Gives .pllLock s fun t =>
      t.pw = { s.pw with phase := .pll, buckRoot := true } ∧ t.te.running = true ∧
      t.te.cnt = calToTai s.rtc.cal (pioUtc s) ∧ t.te.frac = 0 ∧ par t 0x380D = ofSigned 16 (pioUtc s) ∧
      t.tp = { s.tp with trngOk := true } ∧ t.rtc = { s.rtc with edgeCnt := t.rtc.edgeCnt } ∧
      t = { s with pw := t.pw, te := t.te, tp := t.tp, pr := t.pr, rtc := t.rtc } := by
  have he : exec .pllLock s = execPllLock s := rfl
  rw [Gives, he, execPllLock, if_neg (by simp [hp])]
  exact ⟨_, rfl, rfl, rfl, rfl, rfl, par_setPar_self (s.onPw _) _ _, rfl, rfl, rfl⟩

/-- Settles O6: each row of the sequence has one guard, and behind it writes the parts that it names. -/
theorem startSequenceRunsThroughPll : Obligations.StartSequenceRunsThroughPll := fun _ =>
  ⟨fun _ _ hp hw => ⟨_, execVauxStartThreshold_starts hp hw, rfl, rfl, rfl, rfl, rfl, rfl, rfl, rfl, rfl⟩,
    fun _ _ => execVauxStartThreshold_waits, fun _ _ _ => execVdd33Regulation_brings, execVcoreRegulation_of_buck,
    fun _ => execVcoreRegulation_of_held, execCrystalStable_of_vcore, execPllLock_brings⟩

end Sys2Proof.Machine
end

section
/-! THEOREMS. Loader, the Clearings that waited, modulators and the first settled sample (R27, R31, R35, R393, R403, R442; O7). -/

namespace Sys2Proof.Machine

variable {s t : State} {l : List (Nat × Nat)}

/-! ### The Clearing (R403, R469) -/

theorem eraseWrapped_keepsBytes (h : PairIn l 0 keyRec.2) : keepsBytes s s.eraseWrapped l := by
  obtain ⟨h0, hpair, -⟩ := h
  unfold State.eraseWrapped
  extract_lets p
  split
  · exact keepsBytes_refl s l
  · have hz (a : Nat) (ha : a = p ∨ a = p + 256) : ∀ e ∈ [(a, zeros 256)], LiesIn l e := by
      intro e he
      obtain rfl := List.mem_singleton.1 he
      refine ⟨_, hpair, ?_⟩
      simp only [zeros, List.length_replicate]
      change p ≤ a ∧ a + 256 ≤ p + 512
      omega
    exact keepsBytes_trans (wrPage_keepsBytes h0 (by decide) (hz p (.inl rfl)))
      (wrPage_keepsBytes h0 (by decide) (hz (p + 256) (.inr rfl)))

theorem clearPasswords_keepsBytes (h : PairIn l 0 pwRec.2) : keepsBytes s s.clearPasswords l := by
  unfold State.clearPasswords
  extract_lets s1 s2
  split
  · exact keepsBytes_of_mem rfl
  · have h1 : keepsBytes s s1 l := keepsBytes_of_mem rfl
    have hput (x : State) : keepsBytes x x.storePw.1 l :=
      itemPut_keepsBytes fun e he => by rw [List.mem_singleton.1 he]; exact h
    have h2 : keepsBytes s s2 l := keepsBytes_trans h1 (hput s1)
    split
    next b n hb =>
      refine keepsBytes_trans h2 (pageWrite_keepsBytes h (by split <;> omega) ?_)
      exact recordLatest_length_le hb
    · exact h2

theorem clearPasswords_pws (s : State) : s.clearPasswords.se.pws = s.se.pws.map fun _ => ⟨2, []⟩ := by
  unfold State.clearPasswords
  extract_lets s1 s2
  have h2 : Changes [.hw, .wd] s1 s2 := storePw_ch (.refl _ _) rfl
  split
  · rfl
  · split
    · rw [(pageWrite_ch h2 rfl).se rfl]; rfl
    · rw [h2.se rfl]; rfl

/-- Identity key, wrapped copy, session keys and sessions are gone, and every password is CLEARED (Table 17-5). -/
structure Cleared (t : State) : Prop where
  identity : t.tp.identity = none
  wrapped : t.tp.wrapped = none
  keys : t.tp.keys = []
  sessions : t.se.open_ = []
  passwords : ∀ p ∈ t.se.pws, p.st = 2

/-- The key store zeroised, the first step of the Clearing. -/
def State.zeroised (s : State) : State :=
  s.onTp fun t =>
    { t with identity := none, wrapped := none, erased := true, keys := [], clearings := u32 (t.clearings + 1),
             clearedSinceUp := true, jtagIr := t.jtagWait.getD t.jtagIr, jtagWait := none }

theorem clearOnce_eq (s : State) (job : ClearJob) : s.clearOnce job = job.raises.foldl State.logRaise
    ((s.zeroised.eraseWrapped.clearPasswords.dropSessions fun _ => true).log 0x0A04 (le 4 job.mask)) := rfl

theorem clearOnce_keepsBytes {job : ClearJob} (hk : PairIn l 0 keyRec.2) (hp : PairIn l 0 pwRec.2) :
    keepsBytes s (s.clearOnce job) l := by
  rw [clearOnce_eq]
  have h0 : keepsBytes s s.zeroised l := keepsBytes_of_mem rfl
  have h1 : keepsBytes s s.zeroised.eraseWrapped l := keepsBytes_trans h0 (eraseWrapped_keepsBytes hk)
  have h2 : keepsBytes s s.zeroised.eraseWrapped.clearPasswords l := keepsBytes_trans h1 (clearPasswords_keepsBytes hp)
  generalize s.zeroised.eraseWrapped.clearPasswords = x at h2 ⊢
  have h3 : Changes [.se, .hm, .wd] x
      (job.raises.foldl State.logRaise ((x.dropSessions fun _ => true).log 0x0A04 (le 4 job.mask))) :=
    ch_foldl (fun _ _ h => logRaise_ch h rfl) (log_ch (dropSessions_ch (.refl _ _) rfl) rfl)
  exact keepsBytes_trans h2 (keepsBytes_of_mem (by rw [h3.hw rfl]))

theorem dropSessions_all (s : State) : (s.dropSessions fun _ => true).se = { s.se with open_ := [] } := by
  simp [State.dropSessions]

/-- A Clearing clears keys, sessions and passwords, and leaves the queue of those that wait. -/
theorem clearOnce_brings (s : State) (job : ClearJob) :
    Cleared (s.clearOnce job) ∧ (s.clearOnce job).tp.clearPending = s.tp.clearPending ∧
      (s.clearOnce job).tp.clearQueue = s.tp.clearQueue := by
  rw [clearOnce_eq]
  have h1 : Changes [.hw] s.zeroised s.zeroised.eraseWrapped := eraseWrapped_ch (.refl _ _) rfl
  have hpws : ∀ p ∈ s.zeroised.eraseWrapped.clearPasswords.se.pws, p.st = 2 := by
    rw [clearPasswords_pws]
    intro p hp
    obtain ⟨w, -, rfl⟩ := List.mem_map.1 hp
    rfl
  have h2 : Changes [.hw, .se, .wd] s.zeroised s.zeroised.eraseWrapped.clearPasswords :=
    clearPasswords_ch (h1.mono rfl) rfl
  generalize s.zeroised.eraseWrapped.clearPasswords = x at hpws h2 ⊢
  have h3 : Changes [.wd] (x.dropSessions fun _ => true)
      (job.raises.foldl State.logRaise ((x.dropSessions fun _ => true).log 0x0A04 (le 4 job.mask))) :=
    ch_foldl (fun _ _ h => logRaise_ch h rfl) (log_ch (.refl _ _) rfl)
  generalize job.raises.foldl State.logRaise _ = t at h3 ⊢
  have htp : t.tp = s.zeroised.tp := by
    rw [h3.tp rfl, (dropSessions_ch (.refl [.se, .hm] x) rfl).tp rfl, h2.tp rfl]
  have hse : t.se = { x.se with open_ := [] } := by rw [h3.se rfl, dropSessions_all]
  refine ⟨⟨?_, ?_, ?_, ?_, ?_⟩, ?_, ?_⟩
  · rw [htp]; rfl
  · rw [htp]; rfl
  · rw [htp]; rfl
  · rw [hse]
  · rw [hse]; exact hpws
  · rw [htp]; rfl
  · rw [htp]; rfl

/-- Every Clearing that waits, on a state whose queue is empty. -/
theorem clearings_bring {js : List ClearJob} (hp : s.tp.clearPending = false) (hq : s.tp.clearQueue = []) :
    (js.foldl State.clearOnce s).tp.clearPending = false ∧ (js.foldl State.clearOnce s).tp.clearQueue = [] ∧
      (js ≠ [] → Cleared (js.foldl State.clearOnce s)) := by
  induction js using List.reverseRecOn with
  | nil => exact ⟨hp, hq, fun h => absurd rfl h⟩
  | append_singleton js j ih =>
    obtain ⟨hp', hq', -⟩ := ih
    rw [List.foldl_append]
    obtain ⟨hc, hp2, hq2⟩ := clearOnce_brings (js.foldl State.clearOnce s) j
    exact ⟨hp2.trans hp', hq2.trans hq', fun _ => hc⟩

/-- No Clearing waits or is pending any more. -/
def State.clearingsTaken (s : State) : State := s.onTp fun t => { t with clearQueue := [], clearPending := false }

theorem execClearPendingResume_of_pending (hp : s.tp.clearPending = true) (hl : s.pw.phase = .loaded) :
    exec .clearPendingResume s = .next (s.tp.clearQueue.foldl State.clearOnce s.clearingsTaken) := by
  have he : exec .clearPendingResume s = execClearPendingResume s := rfl
  rw [he, execClearPendingResume, if_pos (by simp [hp, hl])]
  rfl

theorem execClearPendingResume_brings (hp : s.tp.clearPending = true) (hl : s.pw.phase = .loaded) :
    Gives .clearPendingResume s fun t =>
      t.tp.clearPending = false ∧ t.tp.clearQueue = [] ∧
      (s.tp.clearQueue ≠ [] → t.tp.identity = none ∧ t.tp.wrapped = none ∧ t.tp.keys = [] ∧ t.se.open_ = [] ∧
        ∀ p ∈ t.se.pws, p.st = 2) ∧
      keepsBytes s t [(0, 256), (pageAddr 0 pwRec.2, 512), (pageAddr 0 keyRec.2, 512)] ∧
      t = { s with tp := t.tp, se := t.se, hm := t.hm, wd := t.wd, hw := t.hw } := by
  obtain ⟨hpend, hqueue, hcl⟩ := clearings_bring (js := s.tp.clearQueue) (s := s.clearingsTaken) rfl rfl
  have h0 : Changes [.tp, .se, .hm, .wd, .hw] s s.clearingsTaken := onTp_ch (.refl _ _) rfl
  have hc : Changes [.tp, .se, .hm, .wd, .hw] s (s.tp.clearQueue.foldl State.clearOnce s.clearingsTaken) :=
    ch_foldl (fun _ _ h => clearOnce_ch h rfl) h0
  refine ⟨_, execClearPendingResume_of_pending hp hl, hpend, hqueue, fun hne => ?_, ?_, hc.eq_pick⟩
  · obtain ⟨hi, hw, hk, ho, hpw⟩ := hcl hne
    exact ⟨hi, hw, hk, ho, hpw⟩
  · have hb : keepsBytes s s.clearingsTaken [(0, 256), (pageAddr 0 pwRec.2, 512), (pageAddr 0 keyRec.2, 512)] :=
      keepsBytes_of_mem rfl
    exact keepsBytes_trans hb (keepsBytes_foldl fun x j _ =>
      clearOnce_keepsBytes ⟨by decide, by decide, by decide⟩ ⟨by decide, by decide, by decide⟩)

/-! ### The loader (R35, R36, R282) -/

/-- What a read of the store returns depends on its bytes and its inverted bits alone. -/
theorem peek_congr (hm : t.hw.mem = s.hw.mem) (hf : t.hw.flips = s.hw.flips) : peek t = peek s := by
  funext a n
  simp only [peek, sensedByte, hm, hf]

theorem ledgerCause_congr (hm : t.hw.mem = s.hw.mem) (hf : t.hw.flips = s.hw.flips) : ledgerCause t = ledgerCause s := by
  have hp := peek_congr hm hf
  have hu (b : Bool) : ledgerUsable t b = ledgerUsable s b := by
    unfold ledgerUsable peekVal
    rw [hp]
  have hc (b : Bool) : ledgerComplete t b = ledgerComplete s b := by
    unfold ledgerComplete peekVal
    rw [hp]
  have hg (b : Bool) : ledgerMagic t b = ledgerMagic s b := by
    unfold ledgerMagic peekVal
    rw [hp]
  unfold ledgerCause totalsFrom lastCheckpoint
  rw [hu, hu, hc, hc, hg, hg]

theorem loadRecord_hw (s : State) (seq : Nat) (body : List Byte) :
    (s.loadRecord seq body).hw = { s.hw with pioSeq := some seq } := by
  unfold State.loadRecord
  extract_lets s1 s2 s3
  have h : Changes [.filts, .insts] s3 ((List.range 36).foldl (fun x c => x.recordFilter body c) s3) :=
    ch_foldl (fun _ _ h => recordFilter_ch h rfl) (.refl _ _)
  rw [h.hw rfl]
  rfl

/-- The loader has taken up the valid Pioneer record with the later sequence, or found none. -/
def State.pioneerTaken (s : State) : State :=
  match pioSelect s with
  | some (_, seq, body) => s.loadRecord seq body
  | none => s.bootFaultTo 6

theorem pioneerTaken_of_none (h : pioSelect s = none) : s.pioneerTaken = s.bootFaultTo 6 := by
  unfold State.pioneerTaken
  rw [h]

theorem pioneerTaken_of_some {b : Bool} {seq : Nat} {body : List Byte} (h : pioSelect s = some (b, seq, body)) :
    s.pioneerTaken = s.loadRecord seq body := by
  unfold State.pioneerTaken
  rw [h]

theorem pioneerTaken_pw_of_some {b : Bool} {seq : Nat} {body : List Byte} (h : pioSelect s = some (b, seq, body)) :
    s.pioneerTaken.pw = s.pw := by
  rw [pioneerTaken_of_some h]
  exact (loadRecord_ch (.refl [.hw, .pr, .convs, .stands, .filts, .insts] s) rfl).pw rfl

/-- Record or none, of the supplies BOOT_FAULT alone may change, and of the store's engine the record's sequence. -/
theorem pioneerTaken_brings (s : State) :
    Changes [.pw, .hw, .pr, .convs, .stands, .filts, .insts] s s.pioneerTaken ∧
      s.pioneerTaken.pw = { s.pw with bootFault := s.pioneerTaken.pw.bootFault } ∧
      s.pioneerTaken.hw = { s.hw with pioSeq := s.pioneerTaken.hw.pioSeq } := by
  cases h : pioSelect s with
  | none =>
    rw [pioneerTaken_of_none h]
    exact ⟨bootFaultTo_ch (.refl _ _) rfl, rfl, rfl⟩
  | some r =>
    obtain ⟨b, seq, body⟩ := r
    rw [pioneerTaken_pw_of_some h, pioneerTaken_of_some h, loadRecord_hw]
    exact ⟨loadRecord_ch (.refl _ _) rfl, rfl, rfl⟩

/-- Taking the totals up leaves bytes and Pioneer record, and settles the cause of LEDGER_FAULT (R345). -/
theorem loadTotals_store (s : State) : s.loadTotals.hw.mem = s.hw.mem ∧ s.loadTotals.hw.pioSeq = s.hw.pioSeq ∧
    s.loadTotals.hw.faultCause = ledgerCause s := by
  unfold State.loadTotals
  extract_lets tot ck idx s1 s2
  have h1 : s1.hw = s.hw := by
    unfold s1 tot
    cases totalsFrom s with
    | none => rfl
    | some e => rfl
  clear_value s1
  have h2 : s2.hw.mem = s.hw.mem ∧ s2.hw.pioSeq = s.hw.pioSeq ∧ s2.hw.faultCause = ledgerCause s := by
    rw [← h1]
    exact ⟨rfl, rfl, rfl⟩
  split
  · exact h2
  · exact h2

/-- The boot configuration and the display layout come into use on a state with record and totals. -/
def State.bootTaken (s : State) : State :=
  let v := bootValues s (markSeq s)
  let s3 := s.onPr fun p => { p with applied := assocAll p.applied v, committed := assocAll p.committed v }
  let s4 := ((s3.onNt fun n => { n with node := parCommitted s3 0x5801 }).onLk fun l =>
    { l with baud := parCommitted s3 0x0810 }).onPr fun p => { p with idNode := p.idNode.or (some (parCommitted s3 0x5801)) }
  let s5 := s4.onHm fun h => { h with layout := layoutRead s4 }
  (s5.onPw fun p => { p with phase := .loaded }).onHm fun h => { h with scrolling := scrolls s5 }

theorem bootTaken_changes (s : State) : Changes [.pw, .lk, .nt, .pr, .hm] s s.bootTaken := by
  unfold State.bootTaken
  extract_lets v s3 s4 s5
  have h3 : Changes [.pw, .lk, .nt, .pr, .hm] s s3 := onPr_ch (.refl _ _) rfl
  have h4 : Changes [.pw, .lk, .nt, .pr, .hm] s s4 := onPr_ch (onLk_ch (onNt_ch h3 rfl) rfl) rfl
  exact onHm_ch (onPw_ch (onHm_ch h4 rfl) rfl) rfl

theorem bootTaken_pw (s : State) : s.bootTaken.pw = { s.pw with phase := .loaded } := rfl

/-- NODE has one reset value in every state. -/
theorem parCommitted_node_congr (h : t.pr.committed = s.pr.committed) : parCommitted t 0x5801 = parCommitted s 0x5801 := by
  unfold parCommitted
  rw [h]
  rfl

theorem bootTaken_node (s : State) : s.bootTaken.nt.node = parCommitted s.bootTaken 0x5801 :=
  (parCommitted_node_congr (s := s.onPr fun p => { p with
    applied := assocAll p.applied (bootValues s (markSeq s)),
    committed := assocAll p.committed (bootValues s (markSeq s)) }) rfl).symm

theorem execLoaderComplete_of_pll (hp : s.pw.phase = .pll) :
    exec .loaderComplete s = .next s.pioneerTaken.loadTotals.bootTaken := by
  have he : exec .loaderComplete s = execLoaderComplete s := rfl
  rw [he, execLoaderComplete, if_neg (by simp [hp])]
  rfl

theorem execLoaderComplete_brings (hp : s.pw.phase = .pll) : Gives .loaderComplete s fun t =>
      t.pw.phase = .loaded ∧ t.nt.node = parCommitted t 0x5801 ∧ t.hw.mem = s.hw.mem ∧ t.pw.stage = s.pw.stage ∧
      (pioSelect s = none → t.pw.bootFault = 6) ∧
      (∀ b q body, pioSelect s = some (b, q, body) → t.hw.pioSeq = some q ∧ t.pw.bootFault = s.pw.bootFault) ∧
      t.hw.faultCause = ledgerCause s ∧ t.wd = s.wd ∧ t.tp = s.tp ∧ t.te = s.te ∧ t.rtc = s.rtc ∧ t.se = s.se := by
  obtain ⟨h1, h1pw, h1hw⟩ := pioneerTaken_brings s
  have h2 : Changes [.hw, .me, .pq] s.pioneerTaken s.pioneerTaken.loadTotals := loadTotals_ch (.refl _ _) rfl
  have h3 := bootTaken_changes s.pioneerTaken.loadTotals
  have hc : Changes [.pw, .hw, .pr, .convs, .stands, .filts, .insts, .me, .pq, .lk, .nt, .hm] s
      s.pioneerTaken.loadTotals.bootTaken :=
    ((h1.mono rfl).trans (h2.mono rfl)).trans (h3.mono rfl)
  have hpw : s.pioneerTaken.loadTotals.bootTaken.pw = { s.pioneerTaken.pw with phase := .loaded } := by
    rw [bootTaken_pw, h2.pw rfl]
  obtain ⟨hmem, hseq, hcause⟩ := loadTotals_store s.pioneerTaken
  have hsame : ledgerCause s.pioneerTaken = ledgerCause s := ledgerCause_congr (by rw [h1hw]) (by rw [h1hw])
  refine ⟨_, execLoaderComplete_of_pll hp, ?_, bootTaken_node _, ?_, ?_, fun hn => ?_, fun b q body hs => ⟨?_, ?_⟩, ?_,
    hc.wd rfl, hc.tp rfl, hc.te rfl, hc.rtc rfl, hc.se rfl⟩
  · rw [hpw]
  · rw [h3.hw rfl, hmem, h1hw]
  · rw [hpw, h1pw]
  · rw [hpw, pioneerTaken_of_none hn]; rfl
  · rw [h3.hw rfl, hseq, pioneerTaken_of_some hs, loadRecord_hw]
  · rw [hpw, pioneerTaken_pw_of_some hs]
  · rw [h3.hw rfl, hcause, hsame]

/-! ### The modulators start (R31) -/

theorem onFilts_filts_length (n : Nat) (f : Nat → Filt → Filt) (s : State) :
    ((List.range n).foldl (fun x c => x.onFilt c (f c)) s).filts.length = s.filts.length :=
  List.foldlRecOn (motive := fun x : State => x.filts.length = s.filts.length) _ _ rfl fun x h c _ => by simp [h]

/-- An update of the first `n` filters, each by its number. -/
theorem onFilts_filt {n : Nat} (f : Nat → Filt → Filt) (s : State) (hn : n ≤ s.filts.length) (c : Nat) :
    ((List.range n).foldl (fun x c => x.onFilt c (f c)) s).filt c = if c < n then f c (s.filt c) else s.filt c := by
  induction n with
  | zero => rfl
  | succ n ih =>
    have hlen := onFilts_filts_length n f s
    have ih := ih (by omega)
    rw [List.range_succ, List.foldl_append]
    simp only [List.foldl_cons, List.foldl_nil]
    generalize (List.range n).foldl (fun x c => x.onFilt c (f c)) s = x at hlen ih ⊢
    rw [State.filt, onFilt_filts]
    by_cases hc : c = n
    · subst hc
      rw [if_neg (Nat.lt_irrefl _), State.filt] at ih
      rw [modAt_getD_self _ _ _ _ (by omega), ih, if_pos (Nat.lt_succ_self _)]
    · rw [modAt_getD_ne _ _ _ _ _ hc]
      rw [State.filt] at ih
      rw [ih]
      simp only [show c < n + 1 ↔ c < n by omega]

/-- A channel's filter unsettled for 68 samples and its biquads' settling time. -/
def State.settling (s : State) (c : Nat) (f : Filt) : Filt := { f with uns := 68 + bqSettle s c, pioUns := 68 + bqSettle s c }

theorem execModulatorStart_of_loaded (hp : s.pw.phase = .loaded) : exec .modulatorStart s =
    .next (((List.range 36).foldl (fun x c => x.onFilt c (s.settling c)) ((List.range 40).foldl State.unsettle s)).onPw fun p =>
      { p with phase := .modulators, modClk := s.clk }) := by
  have he : exec .modulatorStart s = execModulatorStart s := rfl
  rw [he, execModulatorStart, if_neg (by simp [hp])]
  rfl

theorem execModulatorStart_brings (hp : s.pw.phase = .loaded) : Gives .modulatorStart s fun t =>
      t.pw = { s.pw with phase := .modulators, modClk := s.clk } ∧
      (s.filts.length = 36 → ∀ c < 36, (t.filt c).uns = 68 + bqSettle s c ∧ (t.filt c).pioUns = 68 + bqSettle s c) ∧
      t = { s with pw := t.pw, convs := t.convs, filts := t.filts } := by
  have he := execModulatorStart_of_loaded hp
  have h1 : Changes [.convs] s ((List.range 40).foldl State.unsettle s) := ch_foldl (fun _ _ h => unsettle_ch h rfl) (.refl _ _)
  generalize (List.range 40).foldl State.unsettle s = s1 at h1 he
  have hf := onFilts_filt (n := 36) s.settling s1
  have h2 : Changes [.convs, .filts] s ((List.range 36).foldl (fun x c => x.onFilt c (s.settling c)) s1) :=
    ch_foldl (fun _ _ h => onFilt_ch h rfl) (h1.mono rfl)
  generalize (List.range 36).foldl (fun x c => x.onFilt c (s.settling c)) s1 = s2 at h2 he hf
  have hc : Changes [.pw, .convs, .filts] s (s2.onPw fun p => { p with phase := .modulators, modClk := s.clk }) :=
    onPw_ch (h2.mono rfl) rfl
  refine ⟨_, he, ?_, fun hl c hlt => ?_, hc.eq_pick⟩
  · rw [onPw_pw, h2.pw rfl]
  · have hv : s2.filt c = s.settling c (s1.filt c) := (hf (by rw [h1.filts rfl, hl]) c).trans (if_pos hlt)
    change (s2.filt c).uns = _ ∧ (s2.filt c).pioUns = _
    rw [hv]
    exact ⟨rfl, rfl⟩

/-! ### The first settled sample (R27, R31, R393) -/

/-- The first entry to stage 1, with room in the log buffer. -/
theorem enterStage_one_of_zero (h0 : s.pw.stage = 0) (hb : s.wd.buffer.length < 256) : s.enterStage 1 = { s with
    pw := { s.pw with stage := 1 }, lk := { s.lk with irq := setBit s.lk.irq 0 },
    wd := { s.wd with buffer := s.wd.buffer ++
      [⟨s.now80, 0x0102, fitBytes 14 (le 1 0 ++ le 1 1), logFlags s false false false, s.clk⟩] } } := by
  rw [State.enterStage, if_neg (by simp [h0]), log_of_room (s := (s.onPw fun p => p.staged 1 s.clk).irq 0) hb, h0]
  rfl

theorem slot_of_mapIdx {f : Nat → Slot → Slot} {k : Nat} (hk : k < s.tp.slots.length) :
    (s.onTp fun t => { t with slots := t.slots.mapIdx f }).slot k = f k (s.slot k) := by
  rw [State.slot, State.slot, List.getD_eq_getElem _ _ hk, onTp_tp, List.getD_eq_getElem _ _ (by simpa using hk),
    List.getElem_mapIdx]

theorem execFirstSettledSample_brings (hp : s.pw.phase = .modulators) (h0 : s.pw.stage = 0) (hb : s.wd.buffer.length < 256)
    (hs : s.tp.slots.length = 32) : Gives .firstSettledSample s fun t =>
      t.pw = { s.pw with phase := .metering, stage := 1 } ∧ t.lk = { s.lk with irq := setBit s.lk.irq 0 } ∧
      (∀ k < 32, t.slot k = { s.slot k with resp := Nat.max (resetResponses.getD k 0) (slotFloors.getD k 0) }) ∧
      t.wd.buffer = s.wd.buffer ++
        [⟨s.now80, 0x0102, fitBytes 14 (le 1 0 ++ le 1 1), logFlags s false false false, s.clk⟩] ∧
      t = { s with pw := t.pw, lk := t.lk, tp := t.tp, wd := t.wd } := by
  have he : exec .firstSettledSample s = execFirstSettledSample s := rfl
  rw [Gives, he, execFirstSettledSample, if_neg (by simp [hp])]
  extract_lets s1
  rw [enterStage_one_of_zero (s := s1) h0 hb]
  refine ⟨_, rfl, rfl, rfl, fun k hk => ?_, rfl, rfl⟩
  exact slot_of_mapIdx (s := s.onPw fun p => { p with phase := .metering }) (hs ▸ hk)

/-- Settles O7: each arm comes down to record, totals and boot configuration, to the Clearings that waited, to the unsettled
filters, or to the entry to stage 1. -/
theorem loaderAndModulatorsReachStageOne : Obligations.LoaderAndModulatorsReachStageOne := fun _ =>
  ⟨execLoaderComplete_brings, fun hp hl _ => execClearPendingResume_brings hp hl, execModulatorStart_brings,
    execFirstSettledSample_brings⟩

end Sys2Proof.Machine
end

section
/-! THEOREMS. The always-on domain, the VCORE trip and the restart delay (R52, R354, R368, R397, R399, R436, R441; O8). -/

namespace Sys2Proof.Machine

variable {s c : State}

/-! ### The always-on domain (R368) -/

theorem execAonPowerUp_of_off (ha : s.pw.aonUp = false) : exec .aonPowerUp s = .next { s with
    pw := { s.pw with aonUp := true, vbat := true },
    rtc := { s.rtc with cal := Cal.powerUp, phase := 0, trimAcc := 0, osf := true, setSince := false } } := by
  have he : exec .aonPowerUp s = execAonPowerUp s := rfl
  rw [he, execAonPowerUp, if_neg (by simp [ha])]
  rfl

theorem execAonPowerUp_of_on (ha : s.pw.aonUp = true) :
    exec .aonPowerUp s = .next { s with pw := { s.pw with vbat := true } } := by
  have he : exec .aonPowerUp s = execAonPowerUp s := rfl
  rw [he, execAonPowerUp, if_pos ha, State.onPw]

theorem brownOut_slots {x : Slot} (hx : x ∈ s.brownOut.tp.slots) : x.latched = false ∧ x.active = false := by
  have hs : s.brownOut.tp.slots = resetResponses.map (fun r => ⟨false, false, false, 0, 0, r, r, false, 0⟩) := rfl
  rw [hs] at hx
  obtain ⟨r, -, rfl⟩ := List.mem_map.1 hx
  exact ⟨rfl, rfl⟩

theorem execAonBrownOut_brings (ha : s.pw.aonUp = true) : Gives .aonBrownOut s fun t =>
      t.rtc.cal = Cal.powerUp ∧ t.rtc.osf = true ∧ t.rtc.trimLearned = 0 ∧ t.rtc.alarms = List.replicate 4 Alarm.reset ∧
      t.tp.identity = none ∧ t.tp.keys = [] ∧ t.tp.buffer = [] ∧ t.tp.clearPending = false ∧
      (∀ x ∈ t.tp.slots, x.latched = false ∧ x.active = false) ∧ t.pw.restartDelayMs = 1 ∧
      t = { s with rtc := t.rtc, tp := t.tp, pw := t.pw, pr := t.pr } := by
  have he : exec .aonBrownOut s = execAonBrownOut s := rfl
  rw [Gives, he, execAonBrownOut, if_pos ha]
  exact ⟨_, rfl, rfl, rfl, rfl, rfl, rfl, rfl, rfl, rfl, fun _ => brownOut_slots, rfl, rfl⟩

/-! ### Writes that a trip cuts short (R330, R354) -/

theorem cutFlight_of_landed (h : s.hw.flightClk + 25000 + 5 * s.hw.flight.length < s.clk) : s.cutFlight = s := if_pos h

theorem cutCheckpoint_of_none (h : s.hw.ckpt = none) : s.cutCheckpoint = s := by
  unfold State.cutCheckpoint
  rw [h]

/-- What a trip cuts short lies in the store; of the other parts free values alone are drawn. -/
theorem cutWrites_changes (s : State) : Changes [.hw, .free] s s.cutWrites := by
  unfold State.cutWrites
  split
  · exact cutCheckpoint_ch (drew_ch (onHw_ch (.refl _ _) rfl) rfl) rfl
  · exact cutCheckpoint_ch (cutFlight_ch (.refl _ _) rfl) rfl

theorem cutWrites_of_idle (hk : s.hw.ckpt = none) (hc : s.pr.committing = none)
    (hf : s.hw.flightClk + 25000 + 5 * s.hw.flight.length < s.clk) : s.cutWrites = s := by
  unfold State.cutWrites
  rw [hc]
  exact (congrArg State.cutCheckpoint (cutFlight_of_landed hf)).trans (cutCheckpoint_of_none hk)

/-! ### The VCORE trip (R52, R399, R436) -/

/-- The state after a trip, whether the always-on domain stays powered or not. -/
def State.afterTrip (s : State) : State :=
  if s.pw.vbat then s.cutWrites.tripped.drew 1
  else (s.cutWrites.tripped.drew 1).brownOut.onPw fun p => { p with aonUp := false }

theorem execVcoreTrip_of_powered (h0 : s.pw.phase ≠ .off) (h1 : s.pw.phase ≠ .started) :
    exec .vcoreTrip s = .next s.afterTrip := by
  have he : exec .vcoreTrip s = execVcoreTrip s := rfl
  rw [he, execVcoreTrip, if_neg (by simp [h0, h1]), State.afterTrip]
  split <;> rfl

theorem afterTrip_of_vbat (h : s.pw.vbat = true) : s.afterTrip = s.cutWrites.tripped.drew 1 := if_pos h

theorem afterTrip_of_no_vbat (h : s.pw.vbat = false) :
    s.afterTrip = (s.cutWrites.tripped.drew 1).brownOut.onPw fun p => { p with aonUp := false } := if_neg (by simp [h])

/-- Everything outside the always-on domain, the store and the flash stands as before power. -/
theorem tripped_frame (hc : Changes [.hw, .free] s c) {t : State}
    (ht : Changes [.pw, .rtc, .pr, .tp, .free] c.tripped t) :
    t = { State.reset with
      pw := t.pw, rtc := t.rtc, hw := { Heart.reset with mem := t.hw.mem, flips := t.hw.flips }, pr := t.pr, tp := t.tp,
      up := t.up, hm := t.hm, pq := t.pq, pm := t.pm, clk := s.clk, free := t.free, pending := s.pending } := by
  have hw : Changes [.pw, .rtc, .pr, .tp, .free, .up, .hm, .pq, .pm] c.tripped t := ht.mono rfl
  rw [ht.hw rfl, ← hc.clk rfl, ← hc.pending rfl]
  exact hw.eq_pick

theorem afterTrip_changes (s : State) : Changes [.pw, .rtc, .pr, .tp, .free] s.cutWrites.tripped s.afterTrip :=
  ch_ite (fun _ => drew_ch (.refl _ _) rfl) fun _ => onPw_ch (brownOut_ch (drew_ch (.refl _ _) rfl) rfl) rfl

/-- What a trip leaves whether a backup cell is fitted or not. -/
theorem afterTrip_supplies (s : State) :
    s.afterTrip.pw.stage = 0 ∧ s.afterTrip.pw.phase = .off ∧ s.afterTrip.pw.restartWait = true ∧
      s.afterTrip.pr.pending = [] := by
  cases h : s.pw.vbat with
  | true => rw [afterTrip_of_vbat h]; exact ⟨rfl, rfl, rfl, rfl⟩
  | false => rw [afterTrip_of_no_vbat h]; exact ⟨rfl, rfl, rfl, rfl⟩

theorem execVcoreTrip_brings (h0 : s.pw.phase ≠ .off) (h1 : s.pw.phase ≠ .started) : Gives .vcoreTrip s fun t =>
      t.pw.stage = 0 ∧ t.pw.phase = .off ∧ t.pw.restartWait = true ∧ t.pr.pending = [] ∧ t.up.banks = s.up.banks ∧
      t.up.active = s.up.active ∧
      (s.hw.ckpt = none → s.pr.committing = none → s.hw.flightClk + 25000 + 5 * s.hw.flight.length < s.clk →
        t.hw.mem = s.hw.mem) ∧
      (s.pw.vbat = true → t.rtc.cal = s.rtc.cal ∧ t.rtc.osf = s.rtc.osf ∧ t.tp.identity = s.tp.identity ∧
        t.tp.keys = s.tp.keys ∧ t.pw.aonUp = s.pw.aonUp) ∧
      (s.pw.vbat = false → t.rtc.osf = true ∧ t.tp.identity = none ∧ t.pw.aonUp = false) ∧
      t = { State.reset with pw := t.pw, rtc := t.rtc, hw := { Heart.reset with mem := t.hw.mem, flips := t.hw.flips },
                             pr := t.pr, tp := t.tp, up := t.up, hm := t.hm, pq := t.pq, pm := t.pm, clk := s.clk,
                             free := t.free, pending := s.pending } := by
  have hc := cutWrites_changes s
  have ht := afterTrip_changes s
  obtain ⟨hstage, hphase, hwait, hpend⟩ := afterTrip_supplies s
  refine ⟨_, execVcoreTrip_of_powered h0 h1, hstage, hphase, hwait, hpend, ?_, ?_, fun hk hcm hf => ?_, fun hv => ?_,
    fun hv => ?_, tripped_frame hc ht⟩
  · rw [ht.up rfl, ← hc.up rfl]; rfl
  · rw [ht.up rfl, ← hc.up rfl]; rfl
  · rw [ht.hw rfl, cutWrites_of_idle hk hcm hf]; rfl
  · rw [afterTrip_of_vbat hv, ← hc.rtc rfl, ← hc.tp rfl, ← hc.pw rfl]
    exact ⟨rfl, rfl, rfl, rfl, rfl⟩
  · rw [afterTrip_of_no_vbat hv]
    exact ⟨rfl, rfl, rfl⟩

/-! ### The restart delay (R441) -/

theorem execRestartDelayExpiry_starts (hv : s.pw.vauxWaiting = true)
    (hd : s.after s.pw.tripClk (s.pw.restartDelayMs * cycMs) = true) :
    exec .restartDelayExpiry s = .next (s.powerStart s.pw.ext33 s.pw.testEn) := by
  have he : exec .restartDelayExpiry s = execRestartDelayExpiry s := rfl
  rw [he, execRestartDelayExpiry, if_neg (by simp [hd]), if_pos hv]

theorem execRestartDelayExpiry_frees (hv : s.pw.vauxWaiting = false)
    (hd : s.after s.pw.tripClk (s.pw.restartDelayMs * cycMs) = true) :
    exec .restartDelayExpiry s = .next { s with pw := { s.pw with restartWait := false } } := by
  have he : exec .restartDelayExpiry s = execRestartDelayExpiry s := rfl
  rw [he, execRestartDelayExpiry, if_neg (by simp [hd]), if_neg (by simp [hv]), State.onPw]

theorem execRestartDelayReset_of_due (h2 : 2 ≤ s.pw.stage) (hd : s.pw.stage2At.any (s.after · (10 * cycS)) = true) :
    exec .restartDelayReset s = .next { s with pw := { s.pw with restartDelayMs := 1 } } := by
  have he : exec .restartDelayReset s = execRestartDelayReset s := rfl
  rw [he, execRestartDelayReset, if_pos (by simp only [decide_eq_true h2, hd, Bool.and_self]), State.onPw]

/-- Settles O8: a brown-out writes its parts out; a trip cuts writes in the store alone, then leaves the state before power. -/
theorem alwaysOnDomainKeepsAndLoses : Obligations.AlwaysOnDomainKeepsAndLoses := fun _ =>
  ⟨execAonPowerUp_of_off, execAonPowerUp_of_on, execAonBrownOut_brings, execVcoreTrip_brings,
    fun hv hd => ⟨_, execRestartDelayExpiry_starts hv hd, rfl, rfl, rfl, rfl, rfl, rfl⟩, execRestartDelayExpiry_frees,
    execRestartDelayReset_of_due⟩

end Sys2Proof.Machine
end

section
/-! THEOREMS. PFAIL and its checkpoints, buck limits, TEST_EN and POWER_STATUS (R49 to R51, R346, R432, R438, R494; O9). -/

namespace Sys2Proof.Machine

variable {s t : State} {c : Ckpt}

/-! ### Checkpoints at a power failure (R49, R50, R346) -/

theorem cutCheckpoint_ledger (s : State) : s.cutCheckpoint.hw.ledger = s.hw.ledger := by
  unfold State.cutCheckpoint
  split <;> rfl

/-- A power-fail checkpoint of the copy that does not hold the last complete one, one sequence later (R346). -/
def IsNextCopy (s : State) (c : Ckpt) : Prop :=
  c.kind = 1 ∧
    (∀ k n, s.hw.ledger = some (k, n) → c.base = ledgerBase (1 - k == 1) ∧ c.seq = (n + 1) % 2 ^ 32) ∧
    (s.hw.ledger = none → c.base = ledgerBase false ∧ c.seq = 1)

theorem powerFail_checkpoint_isNextCopy (s src : State) : ∃ c, (s.checkpoint src 1).hw.ckpt = some c ∧ IsNextCopy s c := by
  unfold State.checkpoint
  rw [if_neg (by simp)]
  extract_lets s1 old marks rest s2
  have hl : s1.hw.ledger = s.hw.ledger := cutCheckpoint_ledger s
  rw [hl]
  cases h : s.hw.ledger with
  | none =>
    refine ⟨_, rfl, rfl, fun k n hk => ?_, fun _ => ⟨rfl, rfl⟩⟩
    rw [h] at hk
    cases hk
  | some e =>
    refine ⟨_, rfl, rfl, fun k n hk => ?_, fun hk => ?_⟩
    · rw [h] at hk
      cases hk
      exact ⟨rfl, rfl⟩
    · rw [h] at hk
      cases hk

/-- Beginning a power-fail checkpoint changes no byte but those of one that it cuts short. -/
theorem powerFail_checkpoint_mem (s src : State) : (s.checkpoint src 1).hw.mem = s.cutCheckpoint.hw.mem := by
  unfold State.checkpoint
  rw [if_neg (by simp)]
  extract_lets s1 old marks rest s2
  have h2 : s2.hw.mem = s1.hw.mem := by
    unfold s2
    split
    · rfl
    · cases old with
      | none => rfl
      | some a => exact sense_mem ..
  split
  exact h2

/-- What a power-fail checkpoint of the running registers brings. -/
theorem failCheckpoint_brings (s : State) :
    (∃ c, s.failCheckpoint.hw.ckpt = some c ∧ IsNextCopy s c) ∧
      (s.hw.ckpt = none → s.failCheckpoint.hw.mem = s.hw.mem) ∧ s.failCheckpoint.pw = { s.pw with failClk := s.clk } ∧
      Changes [.pw, .hw, .wd, .pq, .free] s s.failCheckpoint := by
  have hc : Changes [.hw, .wd, .pq, .free] s (s.checkpoint (s.closeEngines (closing s)) 1) := checkpoint_ch (.refl _ _) rfl
  refine ⟨powerFail_checkpoint_isNextCopy s _, fun hk => ?_, ?_, onPw_ch (hc.mono rfl) rfl⟩
  · rw [State.failCheckpoint, onPw_hw, powerFail_checkpoint_mem, cutCheckpoint_of_none hk]
  · rw [State.failCheckpoint, onPw_pw, hc.pw rfl]

/-- PFAIL noted, before its checkpoint. -/
def State.pfailNoted (s : State) : State :=
  s.onPw fun p => { p with pfail := true, pfailCount := u32 (p.pfailCount + 1), pfailClk := s.clk }

theorem execPfailAssert_of_running (h0 : s.pw.stage ≠ 0) (hp : s.pw.pfail = false) :
    exec .pfailAssert s = .next s.pfailNoted.failCheckpoint := by
  have he : exec .pfailAssert s = execPfailAssert s := rfl
  have hb : (s.pw.stage == 0) = false := beq_eq_false_iff_ne.2 h0
  rw [he, execPfailAssert, if_neg (by simp [hb, hp])]
  dsimp only
  rw [if_neg (by simp [hb]), State.pfailNoted]

theorem execPfailAssert_brings (h0 : s.pw.stage ≠ 0) (hp : s.pw.pfail = false) : Gives .pfailAssert s fun t =>
      t.pw = { s.pw with
        pfail := true, pfailCount := u32 (s.pw.pfailCount + 1), pfailClk := s.clk, failClk := s.clk } ∧
      (∃ c, t.hw.ckpt = some c ∧ IsNextCopy s c) ∧
      (s.hw.ckpt = none → t.hw.mem = s.hw.mem) ∧
      t = { s with pw := t.pw, hw := t.hw, wd := t.wd, pq := t.pq, free := t.free } := by
  obtain ⟨hk, hm, hpw, hc⟩ := failCheckpoint_brings s.pfailNoted
  have hn : Changes [.pw, .hw, .wd, .pq, .free] s s.pfailNoted := onPw_ch (.refl _ _) rfl
  exact ⟨_, execPfailAssert_of_running h0 hp, hpw, hk, hm, (hn.trans hc).eq_pick⟩

theorem execPowerFailCheckpoint_brings (h0 : s.pw.stage ≠ 0) (hp : s.pw.pfail = true) (hr : s.pw.pfailReleased = true)
    (hd : s.after s.pw.failClk cycMs = true) : Gives .powerFailCheckpoint s fun t =>
      (∃ c, t.hw.ckpt = some c ∧ IsNextCopy s c) ∧
      (s.hw.ckpt = none → t.hw.mem = s.hw.mem) ∧ t.pw = { s.pw with failClk := s.clk } ∧
      t = { s with pw := t.pw, hw := t.hw, wd := t.wd, pq := t.pq, free := t.free } := by
  obtain ⟨hk, hm, hpw, hc⟩ := failCheckpoint_brings s
  have he : exec .powerFailCheckpoint s = .next s.failCheckpoint := by
    have he : exec .powerFailCheckpoint s = execPowerFailCheckpoint s := rfl
    rw [he, execPowerFailCheckpoint, if_pos (by simp [h0, hp, hr, hd])]
  exact ⟨_, he, hk, hm, hpw, hc.eq_pick⟩

theorem execPfailRelease_of_pfail (hp : s.pw.phase ≠ .off) (hf : s.pw.pfail = true) :
    exec .pfailRelease s = .next { s with pw := { s.pw with
      pfail := false, pfailReleased := true,
      pfailLastUs := if s.pw.pfailReleased then u32 ((s.clk - s.pw.pfailClk) / 128) else s.pw.pfailLastUs } } := by
  have he : exec .pfailRelease s = execPfailRelease s := rfl
  rw [he, execPfailRelease, if_neg (by simp [hp, hf]), State.onPw]

/-! ### A checkpoint completes (R346) -/

/-- A checkpoint that is written is its image in its copy, with the torn bits of its 64 pages clear. -/
theorem ckptWritten_mem (s : State) (c : Ckpt) :
    (s.ckptWritten c).hw.mem = wrBytes (wrBytes s.hw.mem c.base c.image) (c.base / 2048) (zeros 8) := rfl

/-- Both copies lie in the array, above page 0. -/
theorem ledgerBase_bounds (b : Bool) :
    256 ≤ ledgerBase b ∧ ledgerBase b / 2048 + 8 ≤ 256 ∧ ledgerBase b + 16384 ≤ storeSize := by
  cases b <;> decide

theorem ckptWritten_reads (hb : c.base = ledgerBase false ∨ c.base = ledgerBase true) (hl : c.image.length = 16384) :
    rdBytes (s.ckptWritten c).hw.mem c.base 16384 = c.image := by
  have hbd : 256 ≤ c.base ∧ c.base / 2048 + 8 ≤ 256 ∧ c.base + 16384 ≤ storeSize := by
    rcases hb with h | h <;> rw [h] <;> exact ledgerBase_bounds _
  have ho (k : Nat) (hk : 256 ≤ k) : rdByte (s.ckptWritten c).hw.mem k = rdByte (wrBytes s.hw.mem c.base c.image) k :=
    rdByte_wrBytes_out _ (.inr (by simp [zeros]; omega))
  have hr := rdBytes_wrBytes (m := s.hw.mem) (a := c.base) c.image (by omega)
  rw [hl] at hr
  rw [← hr, rdBytes, rdBytes]
  exact List.map_congr_left fun k _ => ho _ (by omega)

theorem ckptWritten_keepsBytes (hl : c.image.length = 16384) :
    keepsBytes s (s.ckptWritten c) [(c.base, 16384), (c.base / 2048, 8)] := by
  intro a ha
  have h1 := ha (c.base, 16384) (by simp)
  have h2 := ha (c.base / 2048, 8) (by simp)
  rw [ckptWritten_mem, rdByte_wrBytes_out _ (by simpa [zeros] using h2), rdByte_wrBytes_out _ (by simpa [hl] using h1)]

/-- A written checkpoint is the last complete one, and the aggregation state that it took is the one of its copy. -/
def State.ckptDone (s : State) (c : Ckpt) : State :=
  let copy := if c.base == ledgerBase false then 0 else 1
  let s1 := (s.ckptWritten c).onHw fun h => { h with ledger := some (copy, c.seq), ckptUs := Config.freeNat s.free % 65536 }
  (s1.onPq fun q =>
    { q with saving := none, savedA := if copy == 0 then q.saving else q.savedA,
             savedB := if copy == 1 then q.saving else q.savedB }).drew 1

theorem ckptDone_ckpt (s : State) (c : Ckpt) : (s.ckptDone c).hw.ckpt = none := rfl

theorem ckptDone_mem (s : State) (c : Ckpt) : (s.ckptDone c).hw.mem = (s.ckptWritten c).hw.mem := rfl

theorem ckptDone_ledger (s : State) (c : Ckpt) :
    (s.ckptDone c).hw.ledger = some (if c.base = ledgerBase false then 0 else 1, c.seq) := by
  simp only [State.ckptDone, State.drew, onPq_hw, onHw_hw, beq_iff_eq]

theorem ckptDone_changes (s : State) (c : Ckpt) : Changes [.hw, .pq, .free] s (s.ckptDone c) := by
  unfold State.ckptDone
  exact drew_ch (onPq_ch (onHw_ch (ckptWritten_ch (.refl _ _) rfl) rfl) rfl) rfl

theorem execCheckpointComplete_of_some (hk : s.hw.ckpt = some c) : exec .checkpointComplete s = .next (s.ckptDone c) := by
  have he : exec .checkpointComplete s = execCheckpointComplete s := rfl
  rw [he, execCheckpointComplete, hk]
  rfl

theorem execCheckpointComplete_brings (hk : s.hw.ckpt = some c) (hb : c.base = ledgerBase false ∨ c.base = ledgerBase true)
    (hl : c.image.length = 16384) : Gives .checkpointComplete s fun t =>
      t.hw.ckpt = none ∧ t.hw.ledger = some (if c.base = ledgerBase false then 0 else 1, c.seq) ∧
      rdBytes t.hw.mem c.base 16384 = c.image ∧ keepsBytes s t [(c.base, 16384), (c.base / 2048, 8)] ∧
      t = { s with hw := t.hw, pq := t.pq, free := t.free } := by
  refine ⟨_, execCheckpointComplete_of_some hk, ckptDone_ckpt s c, ckptDone_ledger s c, ?_, ?_, (ckptDone_changes s c).eq_pick⟩
  · rw [ckptDone_mem, ckptWritten_reads hb hl]
  · exact keepsBytes_trans (ckptWritten_keepsBytes hl) (keepsBytes_of_mem (ckptDone_mem s c))

/-! ### Bucks, TEST_EN and POWER_STATUS -/

theorem execBuckCurrentLimit_eq (v : Bool) (s : State) :
    exec (.buckCurrentLimit v) s = .next { s with pw := { s.pw with
      limitVdd33 := s.pw.limitVdd33 || (!v && s.pw.buckVdd33), limitVcore := s.pw.limitVcore || (v && s.pw.buckVcore) } } := rfl

theorem execTestEnRelease_eq (s : State) : exec .testEnRelease s = .next { s with pw := { s.pw with
      testEn := false, buckVcore := s.pw.buckVcore || (s.pw.testEn && s.pw.phase == .vdd33) } } := rfl

theorem execPowerStatus_of_opens {h : Hdr} (ho : Opens opPowerStatus h s) (hl : h.len = 0) :
    exec (.powerStatus h) s = .next ((s.accepted h).replied opPowerStatus h .ok
        (zeros 2 ++ le 4 (powerState (s.accepted h)) ++ s.pw.supplies.flatMap (le 4) ++ le 2 s.pw.pInMw ++ zeros 2 ++
          le 4 s.pw.lastHoldupUs ++ le 4 s.pw.pfailCount)) := by
  have he : exec (.powerStatus h) s = execPowerStatus h s := rfl
  rw [he, execPowerStatus, serve_opens ho (beq_iff_eq.2 hl) rfl]
  simp only [accepted_pw]

/-- Settles O9: both arms of PFAIL begin the one power-fail checkpoint, and a finished one is two writes to the store. -/
theorem powerFailAndCheckpoints : Obligations.PowerFailAndCheckpoints := fun s =>
  ⟨execPfailAssert_brings, execPowerFailCheckpoint_brings, execPfailRelease_of_pfail,
    fun _ hk hb hl _ => execCheckpointComplete_brings hk hb hl, fun v => execBuckCurrentLimit_eq v s, execTestEnRelease_eq s,
    fun _ => execPowerStatus_of_opens⟩

end Sys2Proof.Machine
end

section
/-! LEMMAS. One stand, converter or channel after an update, and what condemning a converter leaves of the others (R78, R90, R96). -/

namespace Sys2Proof.Machine

variable {z s t u : State} {k v c : Nat}

/-! ### The element that an update names, and those of another bank -/

@[simp] theorem onStand_stand (f : Stand → Stand) (h : k < s.stands.length) : (s.onStand k f).stand k = f (s.stand k) :=
  modAt_getD_self _ _ _ _ h

@[simp] theorem onConv_conv (f : Conv → Conv) (h : v < s.convs.length) : (s.onConv v f).conv v = f (s.conv v) :=
  modAt_getD_self _ _ _ _ h

@[simp] theorem onChan_chan (f : Chan → Chan) (h : c < s.chans.length) : (s.onChan c f).chan c = f (s.chan c) :=
  modAt_getD_self _ _ _ _ h

@[simp] theorem onConv_stand (f : Conv → Conv) : (s.onConv v f).stand k = s.stand k := rfl

@[simp] theorem onChan_stand (f : Chan → Chan) : (s.onChan c f).stand k = s.stand k := rfl

@[simp] theorem onStand_conv (f : Stand → Stand) : (s.onStand k f).conv v = s.conv v := rfl

@[simp] theorem onStand_chan (f : Stand → Stand) : (s.onStand k f).chan c = s.chan c := rfl

@[simp] theorem drew_stand (n : Nat) : (s.drew n).stand k = s.stand k := rfl

@[simp] theorem drew_chan (n : Nat) : (s.drew n).chan c = s.chan c := rfl

theorem Changes.stand {q : List Part} (h : Changes q s t) (hq : q.contains .stands = false) (k : Nat) : t.stand k = s.stand k := by
  rw [State.stand, h.stands hq, State.stand]

theorem Changes.conv {q : List Part} (h : Changes q s t) (hq : q.contains .convs = false) (v : Nat) : t.conv v = s.conv v := by
  rw [State.conv, h.convs hq, State.conv]

theorem Changes.chan {q : List Part} (h : Changes q s t) (hq : q.contains .chans = false) (c : Nat) : t.chan c = s.chan c := by
  rw [State.chan, h.chans hq, State.chan]

@[simp] theorem log_stand (s : State) (n : Nat) (d : List Byte) : (s.log n d).stand k = s.stand k :=
  (log_ch (.refl [.wd] s) rfl).stand rfl k

theorem stand_of_map {α : Type} {g : Stand → α} (h : t.stands.map g = s.stands.map g) (k : Nat) :
    g (t.stand k) = g (s.stand k) := by
  have hm (s : State) : g (s.stand k) = (s.stands.map g).getD k (g Stand.reset) := by
    rw [State.stand, List.getD_map]
  rw [hm, hm, h]

/-- Whatever an update of stands leaves as it was stays for every stand. -/
theorem onStand_keeps {α : Type} {g : Stand → α} {f : Stand → Stand} (h : ∀ x, g (f x) = g x) (s : State) (k j : Nat) :
    g ((s.onStand k f).stand j) = g (s.stand j) :=
  stand_of_map (map_modAt_of_keeps h _ _) j

/-! ### What stays of converters and stands where a converter is condemned -/

/-- What a stand holds that neither a takeover nor an aborted rest or check changes: which of its converters are condemned, and how
many cross-checks have failed. -/
def Stand.tally (d : Stand) : Nat × Nat := (d.condemned, d.xcheckFails)

/-- From `z` to `t` no converter becomes STUCK or ceases to be, and every stand keeps its tally. -/
structure Steady (z t : State) : Prop where
  stuck : t.convs.map Conv.stuck = z.convs.map Conv.stuck
  tally : t.stands.map Stand.tally = z.stands.map Stand.tally

theorem Steady.refl (s : State) : Steady s s := ⟨rfl, rfl⟩

theorem Steady.trans (h : Steady s t) (g : Steady t u) : Steady s u := ⟨g.stuck.trans h.stuck, g.tally.trans h.tally⟩

theorem Steady.conv_stuck (h : Steady z t) (v : Nat) : (t.conv v).stuck = (z.conv v).stuck := by
  have hm (s : State) : (s.conv v).stuck = (s.convs.map Conv.stuck).getD v Conv.reset.stuck := by
    rw [State.conv, List.getD_map]
  rw [hm, hm, h.stuck]

theorem Steady.stand_tally (h : Steady z t) (k : Nat) : (t.stand k).tally = (z.stand k).tally := stand_of_map h.tally k

theorem Steady.condemned (h : Steady z t) (v : Nat) : condemned t v = condemned z v :=
  congrArg (bitAt · (condBit v)) (congrArg Prod.fst (h.stand_tally (standOfConv v)))

theorem Steady.xcheckFails (h : Steady z t) (k : Nat) : (t.stand k).xcheckFails = (z.stand k).xcheckFails :=
  congrArg Prod.snd (h.stand_tally k)

theorem Steady.of_changes {q : List Part} (H : Steady z s) (h : Changes q s t) (hc : q.contains .convs = false)
    (hs : q.contains .stands = false) : Steady z t :=
  H.trans ⟨by rw [h.convs hc], by rw [h.stands hs]⟩

theorem onConv_steady {f : Conv → Conv} (H : Steady z s) (h : ∀ x, (f x).stuck = x.stuck) : Steady z (s.onConv v f) :=
  H.trans ⟨map_modAt_of_keeps h _ _, rfl⟩

theorem onStand_steady {f : Stand → Stand} (H : Steady z s) (h : ∀ x, (f x).tally = x.tally) : Steady z (s.onStand k f) :=
  H.trans ⟨rfl, map_modAt_of_keeps h _ _⟩

theorem steady_ite {p : Prop} [Decidable p] {a b : State} (ha : Steady z a) (hb : Steady z b) :
    Steady z (if p then a else b) := by
  split
  · exact ha
  · exact hb

theorem unsettle_steady (H : Steady z s) : Steady z (s.unsettle v) := onConv_steady H fun _ => rfl

theorem splice_steady {toSpare : Bool} (H : Steady z s) : Steady z (s.splice k c toSpare) :=
  onStand_steady (H.of_changes (mark_ch (.refl [.chans] _) rfl) rfl rfl) fun _ => rfl

theorem loadDone_steady (H : Steady z s) : Steady z (s.loadDone c) :=
  H.of_changes (loadDone_ch (.refl [.wd, .filts, .insts] _) rfl) rfl rfl

theorem abortCheck_steady (H : Steady z s) : Steady z (s.abortCheck k) := by
  unfold State.abortCheck
  split
  · exact H
  · exact onStand_steady (H.of_changes (baseFailLog_ch (setCheckResult_ch (.refl [.chans, .wd] _) rfl) rfl) rfl rfl) fun _ => rfl

theorem restoreTrim_steady (H : Steady z s) : Steady z (s.restoreTrim k v) := by
  unfold State.restoreTrim
  split
  · exact H
  · exact onStand_steady (onConv_steady H fun _ => rfl) fun _ => rfl

theorem recallHome_steady (H : Steady z s) : Steady z (s.recallHome k) := by
  unfold State.recallHome
  exact steady_ite (steady_ite (onStand_steady (loadDone_steady (unsettle_steady (restoreTrim_steady H))) fun _ => rfl)
    (loadDone_steady (splice_steady H))) H

theorem takeover_steady (H : Steady z s) : Steady z (s.takeover k c) := by
  unfold State.takeover
  extract_lets d s0 x s1 s2
  have h0 : Steady z s0 := abortCheck_steady H
  have hr : Steady z (s0.abortSpareRest k) := steady_ite (restoreTrim_steady h0) h0
  have hx : Steady z x :=
    (unsettle_steady (recallHome_steady hr)).of_changes (copyInst_ch (.refl [.insts] _) rfl) rfl rfl
  have h1 : Steady z s1 := steady_ite h0 (steady_ite (splice_steady h0) (onStand_steady hx fun _ => rfl))
  have h2 : Steady z s2 := onStand_steady h1 fun _ => rfl
  exact steady_ite h2 (h2.of_changes (pioUpdate_ch (.refl [.hw] _) rfl) rfl rfl)

/-- A converter that is not condemned yet is entered in CONDEMNED; what else it means for its stand changes no other entry. -/
theorem condemn_steady {cause : Nat} (h : ((s.stand (standOfConv v)).st == 4 || condemned s v) = false) :
    Steady (s.onStand (standOfConv v) fun x => { x with condemned := setBit x.condemned (condBit v) }) (s.condemn v cause) := by
  unfold State.condemn
  extract_lets k d chan first s1 s2 s3 held s0 s4 s5
  rw [if_neg (by simpa [d, k] using h)]
  generalize hz : (s.onStand (standOfConv v) fun x => { x with condemned := setBit x.condemned (condBit v) }) = z
  have hs1 : s1 = z.storeDevice.log 0x0301 (le 1 v ++ le 1 chan ++ le 1 cause) := by rw [← hz]
  have hlose {x : State} {c : Nat} (hx : Steady z x) : Steady z (x.loseChan c) :=
    hx.of_changes (loseChan_ch (.refl [.wd, .chans] _) rfl) rfl rfl
  have h1 : Steady z s1 := by
    rw [hs1]
    exact (Steady.refl z).of_changes (log_ch (storeDevice_ch (.refl [.hw, .wd] z) rfl) rfl) rfl rfl
  have h2 : Steady z s2 := abortCheck_steady h1
  have h3 : Steady z s3 :=
    steady_ite (h2.of_changes (ch_foldl (fun _ _ h => cancelLoad_ch h rfl) (.refl [.wd, .filts] _)) rfl rfl) h2
  have h0 : Steady z s0 := steady_ite (hlose h3) (recallHome_steady h3)
  have h4 : Steady z s4 := steady_ite (steady_ite (hlose h3) (takeover_steady h3)) (onStand_steady h0 fun _ => rfl)
  have h5 : Steady z s5 :=
    steady_ite (h4.of_changes (ch_foldl (fun _ _ h => cancelLoading_ch h rfl) (.refl [.wd, .filts] _)) rfl rfl) h4
  exact onStand_steady h5 fun _ => rfl

theorem condemn_of_condemned {cause : Nat} (h : ((s.stand (standOfConv v)).st == 4 || condemned s v) = true) :
    s.condemn v cause = s := by
  unfold State.condemn
  exact if_pos h

theorem condemn_conv_stuck (s : State) (v cause w : Nat) : ((s.condemn v cause).conv w).stuck = (s.conv w).stuck := by
  cases h : (s.stand (standOfConv v)).st == 4 || condemned s v with
  | false => exact (condemn_steady h).conv_stuck w
  | true => rw [condemn_of_condemned h]

theorem condemn_xcheckFails (s : State) (v cause j : Nat) :
    ((s.condemn v cause).stand j).xcheckFails = (s.stand j).xcheckFails := by
  cases h : (s.stand (standOfConv v)).st == 4 || condemned s v with
  | false =>
    rw [(condemn_steady h).xcheckFails j]
    exact onStand_keeps (g := Stand.xcheckFails)
      (f := fun x => { x with condemned := setBit x.condemned (condBit v) }) (fun _ => rfl) s _ j
  | true => rw [condemn_of_condemned h]

/-- Where the coppice of its stand runs, a condemned converter is entered in CONDEMNED. -/
theorem condemned_condemn {cause : Nat} (hl : standOfConv v < s.stands.length) (hst : (s.stand (standOfConv v)).st ≠ 4) :
    condemned (s.condemn v cause) v = true := by
  cases h : (s.stand (standOfConv v)).st == 4 || condemned s v with
  | false =>
    rw [(condemn_steady h).condemned v, condemned, onStand_stand _ hl]
    exact bitAt_setBit_self _ _
  | true =>
    rw [condemn_of_condemned h]
    simpa [hst] using h

end Sys2Proof.Machine
end

section
/-! THEOREMS. Stuck and overloaded converters, the comparison of references, baseline, rebase and REFIN (R67 to R70, R75, R78, R79, R96;
O24). -/

namespace Sys2Proof.Machine

variable {s : State} {l : List (Nat × Nat)}

/-! ### Converters (R75, R78) -/

theorem standOfConv_lt (v : Fin 40) : standOfConv v < 4 := by
  have hv := v.isLt
  unfold standOfConv standOf
  split
  · split <;> omega
  · omega

theorem execStuckDetected_brings (v : Fin 40) (hr : 250 ≤ (s.conv v).run) (hc : s.convs.length = 40)
    (hs : s.stands.length = 4) : Gives (.stuckDetected v) s fun t =>
      (t.conv v).stuck = true ∧ ((s.stand (standOfConv v)).st ≠ 4 → condemned t v = true) ∧
      t = { s with hw := t.hw, wd := t.wd, chans := t.chans, convs := t.convs, stands := t.stands, filts := t.filts,
                   insts := t.insts } := by
  have he : exec (.stuckDetected v) s = .next ((s.onConv v fun x => { x with stuck := true }).condemn v 1) := by
    have he : exec (.stuckDetected v) s = execStuckDetected v s := rfl
    rw [he, execStuckDetected, if_neg (Nat.not_lt.2 hr)]
  refine ⟨_, he, ?_, fun hst => condemned_condemn ?_ hst, ?_⟩
  · rw [condemn_conv_stuck, onConv_conv _ (by rw [hc]; exact v.isLt)]
  · rw [onConv_stands, hs]
    exact standOfConv_lt v
  · exact (condemn_ch (onConv_ch (.refl [.hw, .wd, .chans, .convs, .stands, .filts, .insts] s) rfl) rfl).eq_pick

theorem execModulatorOverloadReset_brings (v : Fin 40) (hp : s.pw.phase = .metering ∨ s.pw.phase = .modulators)
    (hc : s.convs.length = 40) : Gives (.modulatorOverloadReset v) s fun t =>
      (t.conv v).resets = u32 ((s.conv v).resets + 1) ∧ (t.conv v).unsP = 68 ∧ (t.conv v).unsW = 24 ∧
      (t.conv v).resetNow = true ∧ (t.conv v).run = 0 ∧ t = { s with convs := t.convs } := by
  have he : exec (.modulatorOverloadReset v) s = .next
      ((s.onConv v fun x => { x with resets := u32 (x.resets + 1), resetNow := true, run := 0 }).unsettle v) := by
    have he : exec (.modulatorOverloadReset v) s = execModulatorOverloadReset v s := rfl
    rw [he, execModulatorOverloadReset, if_neg (by rcases hp with hp | hp <;> simp [hp])]
  have hv : v.val < s.convs.length := by rw [hc]; exact v.isLt
  have hx := onConv_conv (fun x => { x with resets := u32 (x.resets + 1), resetNow := true, run := 0 }) hv
  have ht : ((s.onConv v fun x => { x with resets := u32 (x.resets + 1), resetNow := true, run := 0 }).unsettle v).conv v =
      { s.conv v with resets := u32 ((s.conv v).resets + 1), resetNow := true, run := 0, unsP := 68, unsW := 24 } := by
    rw [State.unsettle, onConv_conv _ (by simpa using hv), hx]
  exact ⟨_, he, by rw [ht], by rw [ht], by rw [ht], by rw [ht], by rw [ht], rfl⟩

/-! ### A comparison result (R68, R69) -/

theorem refDisagree_ref (s : State) (up : Bool) : (s.refDisagree up).ref = { s.ref with disagree := up } := by
  unfold State.refDisagree
  split
  next h => rw [← beq_iff_eq.1 h]
  · rw [(tamperCond_ch (.refl [.se, .lk, .tp, .wd, .hm, .me, .free] _) rfl).ref rfl, log_ref, onRef_ref]

/-- A ratio deviates from the baseline by more than the alarm. -/
def refBeyond (s : State) (ratio : Nat) : Bool := s.ref.baseline.isSome && par s 0x1803 * 100 < (refDeviation s ratio).natAbs

/-- A result noted at an instant, and counted against the alarm. -/
def State.refCounted (s : State) (ratio clk : Nat) : State :=
  (s.onRef fun r =>
    { r with ratio := ratio, dev := refDeviation s ratio, resClk := some clk,
             badRun := if refBeyond s ratio then r.badRun + 1 else 0,
             goodRun := if refBeyond s ratio then 0 else r.goodRun + 1 }).drew 2

/-- A result counted, and REF_DISAGREE raised or ended by it. -/
def State.refJudged (s : State) (ratio clk : Nat) : State :=
  if refBeyond s ratio && 2 ≤ (s.refCounted ratio clk).ref.badRun then (s.refCounted ratio clk).refDisagree true
  else if !refBeyond s ratio && 10 ≤ (s.refCounted ratio clk).ref.goodRun then (s.refCounted ratio clk).refDisagree false
  else s.refCounted ratio clk

/-- A rebase that waits takes a ratio as the baseline. -/
def State.refRebased (s : State) (ratio : Nat) : State :=
  if s.ref.rebase then
    ((s.setBaseline ratio).onRef fun r => { r with rebase := false }).log 0x030D (le 4 (s.ref.baseline.getD 0) ++ le 4 ratio)
  else s

theorem execRefComparisonResult_of_due {r : Nat} (hl : s.ref.live = true)
    (hd : s.ref.resClk.any (fun c => !s.after c cycS) = false) : exec (.refComparisonResult r) s =
      .next ((s.refRebased (refRatio s r)).refJudged (refRatio s r) s.clk) := by
  have he : exec (.refComparisonResult r) s = execRefComparisonResult r s := rfl
  rw [he, execRefComparisonResult, if_neg (by rw [hl, hd]; decide), State.refJudged, apply_ite Host.Outcome.next,
    apply_ite Host.Outcome.next]
  rfl

/-- Beyond the alarm the second result in a row raises REF_DISAGREE, within it the tenth ends it. -/
theorem refJudged_ref (s : State) (ratio clk : Nat) : (s.refJudged ratio clk).ref =
    { s.ref with ratio := ratio, dev := refDeviation s ratio, resClk := some clk,
                 badRun := if refBeyond s ratio then s.ref.badRun + 1 else 0,
                 goodRun := if refBeyond s ratio then 0 else s.ref.goodRun + 1,
                 disagree := if refBeyond s ratio then s.ref.disagree || 1 ≤ s.ref.badRun
                             else s.ref.disagree && s.ref.goodRun < 9 } := by
  unfold State.refJudged
  have hc : (s.refCounted ratio clk).ref =
      { s.ref with ratio := ratio, dev := refDeviation s ratio, resClk := some clk,
                   badRun := if refBeyond s ratio then s.ref.badRun + 1 else 0,
                   goodRun := if refBeyond s ratio then 0 else s.ref.goodRun + 1 } := rfl
  cases hb : refBeyond s ratio with
  | true =>
    by_cases h1 : 1 ≤ s.ref.badRun
    · rw [if_pos (by simp [hc, hb, h1]), refDisagree_ref, hc]
      simp [hb, h1]
    · rw [if_neg (by simp [hc, hb]; omega), if_neg (by simp), hc]
      simp [hb, h1]
  | false =>
    by_cases h9 : 9 ≤ s.ref.goodRun
    · rw [if_neg (by simp), if_pos (by simp [hc, hb, h9]), refDisagree_ref, hc]
      simp [hb, Nat.not_lt.2 h9]
    · rw [if_neg (by simp), if_neg (by simp [hc, hb]; omega), hc]
      simp [hb, Nat.lt_of_not_le h9]

theorem refJudged_changes (s : State) (ratio clk : Nat) :
    Changes [.ref, .se, .lk, .tp, .wd, .hm, .me, .free] s (s.refJudged ratio clk) := by
  have hc : Changes [.ref, .se, .lk, .tp, .wd, .hm, .me, .free] s (s.refCounted ratio clk) :=
    drew_ch (onRef_ch (.refl _ _) rfl) rfl
  exact ch_ite (fun _ => refDisagree_ch hc rfl) fun _ => ch_ite (fun _ => refDisagree_ch hc rfl) fun _ => hc

theorem execRefComparisonResult_judges (r : Nat) (hl : s.ref.live = true)
    (hd : s.ref.resClk.any (fun c => !s.after c cycS) = false) (hb : s.ref.rebase = false) :
    Gives (.refComparisonResult r) s fun t =>
      t.ref.ratio = refRatio s r ∧ t.ref.dev = refDeviation s (refRatio s r) ∧ t.ref.baseline = s.ref.baseline ∧
      t.ref.resClk = some s.clk ∧
      (s.ref.baseline.isSome = true → par s 0x1803 * 100 < (refDeviation s (refRatio s r)).natAbs → 1 ≤ s.ref.badRun →
        t.ref.disagree = true) ∧
      (s.ref.baseline.isSome = true → (refDeviation s (refRatio s r)).natAbs ≤ par s 0x1803 * 100 → 9 ≤ s.ref.goodRun →
        t.ref.disagree = false) ∧
      (s.ref.baseline.isSome = true → par s 0x1803 * 100 < (refDeviation s (refRatio s r)).natAbs → s.ref.badRun = 0 →
        t.ref.disagree = s.ref.disagree) ∧
      t = { s with ref := t.ref, se := t.se, lk := t.lk, tp := t.tp, wd := t.wd, hm := t.hm, me := t.me, free := t.free } := by
  have he := execRefComparisonResult_of_due (r := r) hl hd
  rw [State.refRebased, if_neg (by simp [hb])] at he
  refine ⟨_, he, ?_⟩
  have hbeyond (hs : s.ref.baseline.isSome = true)
      (hd : par s 0x1803 * 100 < (refDeviation s (refRatio s r)).natAbs) : refBeyond s (refRatio s r) = true := by
    simp [refBeyond, hs, hd]
  refine ⟨?_, ?_, ?_, ?_, fun hs hd h1 => ?_, fun hs hd h9 => ?_, fun hs hd h0 => ?_, (refJudged_changes ..).eq_pick⟩
  · rw [refJudged_ref]
  · rw [refJudged_ref]
  · rw [refJudged_ref]
  · rw [refJudged_ref]
  · simp [refJudged_ref, hbeyond hs hd, h1]
  · simp [refJudged_ref, refBeyond, Nat.not_lt.2 hd, Nat.not_lt.2 h9]
  · simp [refJudged_ref, hbeyond hs hd, h0]

/-! ### Baselines and their record (R70) -/

theorem storeDevice_keepsBytes (h : PairIn l 0 deviceRec.2) : keepsBytes s s.storeDevice l :=
  itemPut_keepsBytes fun _ he => by rw [List.mem_singleton.1 he]; exact h

theorem putChanged_keepsBytes {part : Nat} {e : Nat × Nat} {none0 bs : List Byte} (h : PairIn l part e.2) :
    keepsBytes s (s.putChanged part e none0 bs).1 l := by
  unfold State.putChanged
  split
  · exact keepsBytes_refl s l
  · exact itemPut_keepsBytes fun _ he => by rw [List.mem_singleton.1 he]; exact h

theorem storeBoot_keepsBytes (h : PairIn l 0 bootRec.2) : keepsBytes s s.storeBoot.1 l := putChanged_keepsBytes h

/-- The bytes that a stored baseline may change: the torn bitmap, the device record and the boot record. -/
abbrev baselineBytes : List (Nat × Nat) := [(0, 256), (pageAddr 0 deviceRec.2, 512), (pageAddr 0 bootRec.2, 512)]

theorem setBaseline_keepsBytes (s : State) (ratio : Nat) : keepsBytes s (s.setBaseline ratio) baselineBytes := by
  have hd : PairIn baselineBytes 0 deviceRec.2 := ⟨by decide, by decide, by decide⟩
  have hb : PairIn baselineBytes 0 bootRec.2 := ⟨by decide, by decide, by decide⟩
  unfold State.setBaseline
  extract_lets s1
  have h1 : keepsBytes s s1 baselineBytes := keepsBytes_of_mem rfl
  split
  · exact keepsBytes_trans h1 (keepsBytes_trans (storeDevice_keepsBytes hd) (storeBoot_keepsBytes hb))
  · exact h1

theorem setBaseline_ref (s : State) (ratio : Nat) : (s.setBaseline ratio).ref =
    { s.ref with baseline := some ratio, stored := if s.pw.refsel then some ratio else s.ref.stored } := by
  unfold State.setBaseline
  extract_lets s1
  change _ = s1.ref
  split
  · exact (storeBoot_ch (storeDevice_ch (.refl [.hw, .wd] s1) rfl) rfl).ref rfl
  · rfl

theorem setBaseline_hw (h : s.pw.refsel = false) (ratio : Nat) : (s.setBaseline ratio).hw = s.hw := by
  simp [State.setBaseline, h]

/-- What a rebase that waits brings, before the result counts. -/
theorem refRebased_brings (hb : s.ref.rebase = true) (ratio : Nat) :
    (s.refRebased ratio).ref = { s.ref with baseline := some ratio, rebase := false,
                                            stored := if s.pw.refsel then some ratio else s.ref.stored } ∧
      (s.refRebased ratio).hw = (s.setBaseline ratio).hw ∧ Changes [.hw, .wd, .ref] s (s.refRebased ratio) := by
  rw [State.refRebased, if_pos hb]
  refine ⟨?_, ?_, log_ch (onRef_ch (setBaseline_ch (.refl _ _) rfl) rfl) rfl⟩
  · rw [log_ref, onRef_ref, setBaseline_ref]
  · rw [log_hw, onRef_hw]

theorem execRefComparisonResult_rebases (r : Nat) (hl : s.ref.live = true)
    (hd : s.ref.resClk.any (fun c => !s.after c cycS) = false) (hb : s.ref.rebase = true) :
    Gives (.refComparisonResult r) s fun t =>
      t.ref.ratio = refRatio s r ∧ t.ref.baseline = some (refRatio s r) ∧ t.ref.rebase = false ∧
      t.ref.stored = (if s.pw.refsel then some (refRatio s r) else s.ref.stored) ∧ (s.pw.refsel = false → t.hw = s.hw) ∧
      keepsBytes s t baselineBytes ∧
      t = { s with ref := t.ref, hw := t.hw, se := t.se, lk := t.lk, tp := t.tp, wd := t.wd, hm := t.hm, me := t.me,
                   free := t.free } := by
  refine ⟨_, execRefComparisonResult_of_due hl hd, ?_⟩
  obtain ⟨href, hhw, hch⟩ := refRebased_brings hb (refRatio s r)
  generalize s.refRebased (refRatio s r) = x at href hhw hch ⊢
  have hj := refJudged_changes x (refRatio s r) s.clk
  have hjr := refJudged_ref x (refRatio s r) s.clk
  have hjh : (x.refJudged (refRatio s r) s.clk).hw = (s.setBaseline (refRatio s r)).hw := (hj.hw rfl).trans hhw
  rw [href] at hjr
  refine ⟨?_, ?_, ?_, ?_, fun hs => ?_, ?_, ?_⟩
  · rw [hjr]
  · rw [hjr]
  · rw [hjr]
  · rw [hjr]
  · rw [hjh, setBaseline_hw hs]
  · exact keepsBytes_trans (setBaseline_keepsBytes s _) (keepsBytes_of_mem (by rw [hjh]))
  · exact ((hch.mono (q := [.ref, .hw, .se, .lk, .tp, .wd, .hm, .me, .free]) rfl).trans (hj.mono rfl)).eq_pick

theorem execRefBaselineCapture_brings (hr : s.pw.refsel = true) (hl : s.ref.live = true) (hb : s.ref.bad = false)
    (hs : s.ref.stored = none) (h0 : s.ref.ratio ≠ 0) (hd : s.pw.stage2At.any (s.after · (60 * cycS)) = true) :
    Gives .refBaselineCapture s fun t =>
      t.ref = { s.ref with baseline := some s.ref.ratio, stored := some s.ref.ratio } ∧ keepsBytes s t baselineBytes ∧
      t = { s with ref := t.ref, hw := t.hw, wd := t.wd } := by
  have he : exec .refBaselineCapture s = .next (s.setBaseline s.ref.ratio) := by
    have he : exec .refBaselineCapture s = execRefBaselineCapture s := rfl
    rw [he, execRefBaselineCapture, if_pos (by simp [hr, hl, hb, hs, h0, hd])]
  refine ⟨_, he, ?_, setBaseline_keepsBytes s _, (setBaseline_ch (.refl [.hw, .wd, .ref] s) rfl).eq_pick⟩
  rw [setBaseline_ref, if_pos hr]

theorem execRefRebase_of_opens {h : Hdr} (ho : Opens opRefRebase h s) (hl : h.len = 5)
    (hk : locked (s.accepted h) = false) : exec (.refRebase h 1) s =
      .next (((s.accepted h).onRef fun r => { r with rebase := true }).replied opRefRebase h .ok (le 2 0x1804)) := by
  have he : exec (.refRebase h 1) s = execRefRebase h 1 s := rfl
  rw [he, execRefRebase, serve_opens ho (beq_iff_eq.2 hl) (by simp [firstFail, hk])]

/-! ### REFIN leaves its range (R67, R70) -/

theorem execRefinOutOfRange_brings (hr : s.pw.refsel = true) (hb : s.ref.bad = false) (hst : s.pw.stage ≠ 0) :
    Gives .refinOutOfRange s fun t =>
      t.ref = { s.ref with bad := true, goodRun := 0,
                           disagree := if s.ref.baseline.isSome then true else s.ref.disagree } ∧
      t = { s with ref := t.ref, se := t.se, lk := t.lk, tp := t.tp, wd := t.wd, hm := t.hm, me := t.me, free := t.free } := by
  have he : exec .refinOutOfRange s = execRefinOutOfRange s := rfl
  rw [execRefinOutOfRange, if_pos (by simp [hr, hb, hst])] at he
  have hc : Changes [.ref, .se, .lk, .tp, .wd, .hm, .me, .free] s (s.onRef fun r => { r with bad := true, goodRun := 0 }) :=
    onRef_ch (.refl _ _) rfl
  extract_lets s1 s2 at he
  cases hbase : s.ref.baseline.isSome with
  | true =>
    rw [if_pos hbase] at he
    exact ⟨_, he, by rw [refDisagree_ref, log_ref]; rfl, (refDisagree_ch (log_ch hc rfl) rfl).eq_pick⟩
  | false =>
    rw [if_neg (ne_true_of_eq_false hbase)] at he
    exact ⟨_, he, by rw [log_ref]; rfl, (log_ch hc rfl).eq_pick⟩

/-- Settles O24: condemning keeps the STUCK mark, a comparison result is one count against the alarm after any rebase, and a baseline
that is stored is two records of P0. -/
theorem converterFaultsAndReferences : Obligations.ConverterFaultsAndReferences := fun _ =>
  ⟨execStuckDetected_brings, execModulatorOverloadReset_brings, execRefComparisonResult_judges,
    execRefComparisonResult_rebases, execRefBaselineCapture_brings, fun _ => execRefRebase_of_opens, execRefinOutOfRange_brings⟩

end Sys2Proof.Machine
end

section
/-! LEMMAS. What the operations of the coppice make of the stand, the converter and the channel that they name (R83 to R92, R102). -/

namespace Sys2Proof.Machine

variable {s : State} {k c v : Nat}

/-! ### Settling, splices and loads -/

theorem unsettle_conv (hv : v < s.convs.length) : (s.unsettle v).conv v = { s.conv v with unsP := 68, unsW := 24 } :=
  onConv_conv _ hv

@[simp] theorem unsettle_stand (s : State) (v k : Nat) : (s.unsettle v).stand k = s.stand k := rfl

@[simp] theorem copyInst_stand (s : State) (v c k : Nat) : (s.copyInst v c).stand k = s.stand k := rfl

@[simp] theorem splice_stands_length (s : State) (k c : Nat) (toSpare : Bool) :
    (s.splice k c toSpare).stands.length = s.stands.length := modAt_length _ _ _

theorem splice_stand {toSpare : Bool} (hk : k < s.stands.length) :
    (s.splice k c toSpare).stand k = { s.stand k with carrying := toSpare, splices := u32 ((s.stand k).splices + 1) } :=
  onStand_stand _ hk

theorem splice_matchOffset {toSpare : Bool} (hc : c < s.chans.length) :
    ((s.splice k c toSpare).chan c).matchOffset = (s.chan c).matchOffset := by
  rw [State.splice, onStand_chan, State.mark, onChan_chan _ hc]

@[simp] theorem loadStart_stand (s : State) (c k : Nat) : (s.loadStart c).stand k = s.stand k :=
  (loadStart_ch (.refl [.filts, .insts] s) rfl).stand rfl k

@[simp] theorem loadStart_stands (s : State) (c : Nat) : (s.loadStart c).stands = s.stands :=
  (loadStart_ch (.refl [.filts, .insts] s) rfl).stands rfl

@[simp] theorem loadDone_stand (s : State) (c k : Nat) : (s.loadDone c).stand k = s.stand k :=
  (loadDone_ch (.refl [.wd, .filts, .insts] s) rfl).stand rfl k

@[simp] theorem loadDone_stands (s : State) (c : Nat) : (s.loadDone c).stands = s.stands :=
  (loadDone_ch (.refl [.wd, .filts, .insts] s) rfl).stands rfl

@[simp] theorem coppiceDone_stand (s : State) (k j : Nat) : (s.coppiceDone k).stand j = s.stand j := log_stand ..

/-! ### The spare moves, a slot is skipped, a rest begins -/

@[simp] theorem moveSpare_stands_length (s : State) (k c phase : Nat) :
    (s.moveSpare k c phase).stands.length = s.stands.length := by
  unfold State.moveSpare
  extract_lets d s1
  have h1 : s1.stands.length = s.stands.length := modAt_length _ _ _
  split <;> exact h1

/-- The spare is on its new channel as a shadow, with a match that starts anew. -/
theorem moveSpare_stand {phase : Nat} (hk : k < s.stands.length) : (s.moveSpare k c phase).stand k =
    { (s.stand k).rematch with
      spareChan := c, carrying := false, stored := false, phase := phase,
      corr := if (s.stand k).spareChan == c then (s.stand k).corr else Corr.none } := by
  unfold State.moveSpare
  extract_lets d s1
  have h1 : s1.stand k = { (s.stand k).rematch with
      spareChan := c, carrying := false, stored := false, phase := phase,
      corr := if (s.stand k).spareChan == c then (s.stand k).corr else Corr.none } := onStand_stand _ hk
  refine Eq.trans ?_ h1
  split <;> rfl

/-- The entry for skipped slots is due: none has been made for an hour (R84). -/
def skipLogNow (s : State) (k : Nat) : Bool := (s.stand k).skipLogClk.all fun c => decide (c + 3600 * 128000000 ≤ s.clk)

theorem skipSlot_stand (hk : k < s.stands.length) : (s.skipSlot k).stand k =
    { s.stand k with
      skip := true, skipped := u32 ((s.stand k).skipped + 1),
      skipLogged := if skipLogNow s k then 0 else (s.stand k).skipLogged + 1,
      skipLogClk := if skipLogNow s k then some s.clk else (s.stand k).skipLogClk } := by
  unfold State.skipSlot
  extract_lets d n due s1
  have hdue : due = skipLogNow s k := by
    unfold due d skipLogNow
    cases (s.stand k).skipLogClk with
    | none => rfl
    | some a => rw [Option.all_some]
  have h1 : s1.stand k = { s.stand k with
      skip := true, skipped := u32 ((s.stand k).skipped + 1),
      skipLogged := if skipLogNow s k then 0 else (s.stand k).skipLogged + 1,
      skipLogClk := if skipLogNow s k then some s.clk else (s.stand k).skipLogClk } := by
    rw [← hdue]
    exact onStand_stand _ hk
  refine Eq.trans ?_ h1
  split
  · exact log_stand ..
  · rfl

theorem restBegin_stand (hk : k < s.stands.length) : (s.restBegin k v).stand k =
    { s.stand k with old := some (s.conv v).trim, dac := 0, dacN := 0, meas := List.replicate 8 (0, 0) } :=
  onStand_stand _ hk

theorem restBegin_unsP (hv : v < s.convs.length) : ((s.restBegin k v).conv v).unsP = 68 := by
  rw [State.restBegin, unsettle_conv (by exact hv)]

/-! ### The terms of a match, and the splice of the first overlap -/

@[simp] theorem takeMatch_stands_length (s : State) (k c : Nat) (live : Bool) (m : Match) :
    (s.takeMatch k c live m).stands.length = s.stands.length := modAt_length _ _ _

/-- Of its stand a match sets the correction, and the cross-check of its channel where it is live. -/
theorem takeMatch_stand {live : Bool} {m : Match} (hk : k < s.stands.length) : (s.takeMatch k c live m).stand k =
    { s.stand k with
      corr := matchCorr s k c live m,
      checks := if live then (c, true, s.clk) :: (s.stand k).checks.filter (fun e => e.1 != c) else (s.stand k).checks } :=
  onStand_stand _ hk

theorem takeMatch_matchOffset {live : Bool} {m : Match} (hc : c < s.chans.length) :
    ((s.takeMatch k c live m).chan c).matchOffset = quant s 0 (256 * m.o) := by
  unfold State.takeMatch
  extract_lets o g corr s1
  have h1 : s1.chan c = _ := onChan_chan _ hc
  rw [drew_chan, onStand_chan, h1]
  split <;> rfl

theorem takeMatch_chans_length (s : State) (k c : Nat) (live : Bool) (m : Match) :
    (s.takeMatch k c live m).chans.length = s.chans.length := modAt_length _ _ _

theorem spliceIn_eq_of_none {stored : Bool} (hp : (s.stand k).pinReq = none) : s.spliceIn k c stored =
    ((((s.splice k c true).onStand k fun d => { d with stored := stored, first := d.corr }).onStand k fun d =>
      { d with phase := 1 }).loadStart c).restBegin k c := by
  rw [State.spliceIn, hp]

theorem spliceIn_eq_of_some {stored : Bool} {t : Nat} (hp : (s.stand k).pinReq = some t) : s.spliceIn k c stored =
    (((s.splice k c true).onStand k fun d => { d with stored := stored, first := d.corr }).onStand k fun d =>
      { d with st := 2, pinChan := c, pinReq := none, phase := 6 }).coppiceDone k := by
  rw [State.spliceIn, hp]

/-- The spare serves the channel, and the home pair rests, or the stand is pinned where a pin waits. -/
theorem spliceIn_stand {stored : Bool} (hk : k < s.stands.length) :
    ((s.spliceIn k c stored).stand k).carrying = true ∧ ((s.spliceIn k c stored).stand k).stored = stored ∧
      ((s.spliceIn k c stored).stand k).splices = u32 ((s.stand k).splices + 1) ∧
      ((s.stand k).pinReq = none → ((s.spliceIn k c stored).stand k).phase = 1) ∧
      ((s.stand k).pinReq.isSome = true → ((s.spliceIn k c stored).stand k).phase = 6 ∧
        ((s.spliceIn k c stored).stand k).st = 2 ∧ ((s.spliceIn k c stored).stand k).pinChan = c ∧
        ((s.spliceIn k c stored).stand k).pinReq = none) := by
  cases hp : (s.stand k).pinReq with
  | none => simp [spliceIn_eq_of_none hp, restBegin_stand, splice_stand, hk]
  | some t => simp [spliceIn_eq_of_some hp, splice_stand, hk]

theorem spliceIn_unsP {stored : Bool} (hp : (s.stand k).pinReq = none) (hc : c < s.convs.length) :
    ((s.spliceIn k c stored).conv c).unsP = 68 := by
  rw [spliceIn_eq_of_none hp]
  refine restBegin_unsP ?_
  rw [(loadStart_ch (.refl [.filts, .insts] _) rfl).convs rfl]
  exact hc

theorem spliceIn_matchOffset {stored : Bool} (hc : c < s.chans.length) :
    ((s.spliceIn k c stored).chan c).matchOffset = (s.chan c).matchOffset := by
  have hx : Changes [.wd, .convs, .stands, .filts, .insts] (s.splice k c true) (s.spliceIn k c stored) := by
    have h1 : Changes [.wd, .convs, .stands, .filts, .insts] (s.splice k c true)
        ((s.splice k c true).onStand k fun d => { d with stored := stored, first := d.corr }) := onStand_ch (.refl _ _) rfl
    cases hp : (s.stand k).pinReq with
    | none => rw [spliceIn_eq_of_none hp]; exact restBegin_ch (loadStart_ch (onStand_ch h1 rfl) rfl) rfl
    | some t => rw [spliceIn_eq_of_some hp]; exact log_ch (onStand_ch h1 rfl) rfl
  rw [hx.chan rfl, splice_matchOffset hc]

/-! ### A failed cross-check, and what follows a splice back -/

theorem xcheckFail_xcheckFails {live : Bool} (hk : k < s.stands.length) :
    ((s.xcheckFail k c live).stand k).xcheckFails = u32 ((s.stand k).xcheckFails + 1) := by
  unfold State.xcheckFail
  extract_lets good s1
  have h1 : s1.stand k = _ := onStand_stand _ hk
  rw [condemn_xcheckFails, h1]

theorem afterBack_of_rotating (h0 : (s.stand k).st = 0) (hpause : (s.stand k).pauseReq = false)
    (hpin : (s.stand k).pinReq = none) (hrun : (s.stand k).runOn = false) :
    s.afterBack k c = s.onStand k fun x => { x with spareChan := c, phase := 5 } := by
  unfold State.afterBack
  extract_lets d s1
  rw [if_neg (by simp [d, h0]), if_neg (by simp [d, hpause])]
  simp [d, hpin, hrun]

end Sys2Proof.Machine
end

section
/-! THEOREMS. The rotation of a stand: slots, overlaps, home return, splices back and the pre-shadow (R81 to R90, R102, R104; O25). -/

namespace Sys2Proof.Machine

variable {s : State} {k : Fin 4}

/-! ### A slot begins (R81 to R84) -/

theorem lookup_assocSet_ne {j k : Nat} (h : j ≠ k) (l : List (Nat × Nat)) (v : Nat) :
    (assocSet l k v).lookup j = l.lookup j := by
  induction l with
  | nil => simp [assocSet, h]
  | cons e r ih =>
    obtain ⟨a, b⟩ := e
    have hk : (j == k) = false := beq_false_of_ne h
    rw [assocSet]
    split
    · simp only [List.lookup_cons, hk]
    · split
      next ha =>
        obtain rfl := beq_iff_eq.1 ha
        simp only [List.lookup_cons, hk]
      · simp only [List.lookup_cons, ih]

theorem lookup_assocAll_of_absent {j : Nat} {m : List (Nat × Nat)} (h : ∀ e ∈ m, j ≠ e.1) (l : List (Nat × Nat)) :
    (assocAll l m).lookup j = l.lookup j :=
  List.foldlRecOn (motive := fun a : List (Nat × Nat) => a.lookup j = l.lookup j) m _ rfl fun a ha e he => by
    rw [lookup_assocSet_ne (h e he), ha]

/-- Scheduled values that come into use leave a member that is not among them, and on which no reset value depends that is. -/
theorem par_takeScheduled {p : Nat → Bool} {id : Nat} (hid : p id = false) (hf : p 0x1000 = false) (s : State) :
    par (s.takeScheduled p) id = par s id := by
  have hl {j : Nat} (hj : p j = false) : (s.takeScheduled p).pr.applied.lookup j = s.pr.applied.lookup j := by
    refine lookup_assocAll_of_absent (fun e he hje => ?_) _
    rw [hje, (List.mem_filter.1 he).2] at hj
    cases hj
  unfold par parReset
  rw [hl hid, hl hf]
  rfl

/-- Members of a stand whose values wait for its next slot (R104). -/
def slotMember (k id : Nat) : Bool := effOf id == .slot && pFam id == 19 && pInst id == k

/-- The next slot of a stand is counted, with the values that waited for it in use. -/
def State.slotTaken (s : State) (k : Nat) : State :=
  ((if nextSlot (s.stand k) == 0 then s.pioUpdate else s).takeScheduled (slotMember k)).onStand k fun x =>
    { x with slot := nextSlot (s.stand k), skip := false, n := 0 }

/-- The record written at slot 0 and the values taken into use leave the stands. -/
theorem scheduled_changes (s : State) (k : Nat) : Changes [.hw, .pr] s
    ((if nextSlot (s.stand k) == 0 then s.pioUpdate else s).takeScheduled (slotMember k)) :=
  takeScheduled_ch (ch_ite (fun _ => pioUpdate_ch (.refl _ _) rfl) fun _ => .refl _ _) rfl

theorem slotTaken_changes (s : State) (k : Nat) : Changes [.hw, .pr, .stands] s (s.slotTaken k) :=
  onStand_ch ((scheduled_changes s k).mono rfl) rfl

@[simp] theorem slotTaken_stands_length (s : State) (k : Nat) : (s.slotTaken k).stands.length = s.stands.length := by
  rw [State.slotTaken, onStand_stands, modAt_length, (scheduled_changes s k).stands rfl]

theorem slotTaken_stand {k : Nat} (hk : k < s.stands.length) : (s.slotTaken k).stand k =
    { s.stand k with slot := nextSlot (s.stand k), skip := false, n := 0 } := by
  rw [State.slotTaken, onStand_stand _ (by rw [(scheduled_changes s k).stands rfl]; exact hk), (scheduled_changes s k).stand rfl]

theorem chanSource_slotTaken {c : Nat} (hc : c < 64) (s : State) (k : Nat) : chanSource (s.slotTaken k) c = chanSource s c := by
  have hfam : pFam (pid 16 c 1) = 16 := by
    unfold pFam pid
    omega
  have hp : chanSource (s.slotTaken k) c = _ := par_takeScheduled (p := slotMember k) (id := pid 16 c 1)
    (by simp [slotMember, hfam]) (by simp [slotMember, pFam]) (if nextSlot (s.stand k) == 0 then s.pioUpdate else s)
  rw [hp]
  split
  · have hu : Changes [.hw] s s.pioUpdate := pioUpdate_ch (.refl _ _) rfl
    unfold chanSource par parReset factoryVal factoryImage
    rw [hu.pr rfl, hu.up rfl, hu.nt rfl, hu.pw rfl]
  · rfl

theorem condemned_slotTaken (s : State) (k v : Nat) : condemned (s.slotTaken k) v = condemned s v := by
  unfold condemned State.slotTaken
  rw [onStand_keeps (g := Stand.condemned) (f := fun x => { x with slot := nextSlot (s.stand k), skip := false, n := 0 })
    (fun _ => rfl), (scheduled_changes s k).stand rfl]

theorem slotChan_lt {i : Nat} (k : Fin 4) (hi : i < 9) : slotChan k i < 36 := by
  have hk := k.isLt
  unfold slotChan
  split <;> omega

theorem nextSlot_lt {d : Stand} (h : nextSlot d ≠ 9) : nextSlot d < 9 := by
  unfold nextSlot at h ⊢
  omega

/-- What becomes of a stand whose next slot has been taken. -/
def State.slotBegun (s : State) (k : Nat) : State :=
  if (s.stand k).st != 0 || (s.stand k).pinReq.isSome && (s.stand k).phase == 0 then s.slotTaken k
  else if (s.stand k).phase == 2 then ((s.slotTaken k).onStand k fun x => { x with runOn := true }).skipSlot k
  else if nextSlot (s.stand k) == 9 then
    ((s.slotTaken k).onStand k fun x =>
      { x.rematch with phase := 3, spareChan := 0xFE, carrying := false, stored := false, corr := Corr.none }).restBegin k (36 + k)
  else if chanSource (s.slotTaken k) (slotChan k (nextSlot (s.stand k))) != 0 ||
      condemned (s.slotTaken k) (slotChan k (nextSlot (s.stand k))) then
    ((s.slotTaken k).moveSpare k (slotChan k (nextSlot (s.stand k))) 5).skipSlot k
  else (s.slotTaken k).moveSpare k (slotChan k (nextSlot (s.stand k))) 0

theorem execSlotStart_of_due (hst : (s.stand k).st ≠ 4) (hd : slotDue s k = true) :
    exec (.slotStart k) s = .next (s.slotBegun k) := by
  have he : exec (.slotStart k) s = execSlotStart k s := rfl
  refine (he.trans (if_neg (by simp [hst, hd]))).trans ?_
  rw [State.slotBegun, apply_ite Host.Outcome.next, apply_ite Host.Outcome.next,
    apply_ite Host.Outcome.next, apply_ite Host.Outcome.next]
  rfl

theorem slotBegun_changes (s : State) (k : Nat) :
    Changes [.hw, .pr, .wd, .convs, .stands, .insts] s (s.slotBegun k) := by
  have h1 : Changes [.hw, .pr, .wd, .convs, .stands, .insts] s (s.slotTaken k) := (slotTaken_changes s k).mono rfl
  exact ch_ite (fun _ => h1) fun _ => ch_ite (fun _ => skipSlot_ch (onStand_ch h1 rfl) rfl) fun _ =>
    ch_ite (fun _ => restBegin_ch (onStand_ch h1 rfl) rfl) fun _ =>
      ch_ite (fun _ => skipSlot_ch (moveSpare_ch h1 rfl) rfl) fun _ => moveSpare_ch h1 rfl

/-- In every case the stand counts its slot and keeps its state. -/
theorem slotBegun_slot {k : Nat} (hk : k < s.stands.length) :
    ((s.slotBegun k).stand k).slot = nextSlot (s.stand k) ∧ ((s.slotBegun k).stand k).st = (s.stand k).st := by
  have h1 := slotTaken_stand hk
  unfold State.slotBegun
  split
  · rw [h1]; exact ⟨rfl, rfl⟩
  · split
    · rw [skipSlot_stand (by simpa using hk), onStand_stand _ (by simpa using hk), h1]; exact ⟨rfl, rfl⟩
    · split
      · rw [restBegin_stand (by simpa using hk), onStand_stand _ (by simpa using hk), h1]; exact ⟨rfl, rfl⟩
      · split
        · rw [skipSlot_stand (by simpa using hk), moveSpare_stand (by simpa using hk), h1]; exact ⟨rfl, rfl⟩
        · rw [moveSpare_stand (by simpa using hk), h1]; exact ⟨rfl, rfl⟩

theorem slotBegun_of_idle {k : Nat} (h : (s.stand k).st ≠ 0) : s.slotBegun k = s.slotTaken k := by
  rw [State.slotBegun, if_pos (by simp [h])]

theorem slotBegun_of_back {k : Nat} (h0 : (s.stand k).st = 0) (hp : (s.stand k).phase = 2) :
    s.slotBegun k = ((s.slotTaken k).onStand k fun x => { x with runOn := true }).skipSlot k := by
  rw [State.slotBegun, if_neg (by simp [h0, hp]), if_pos (by simp [hp])]

theorem slotBegun_of_nine {k : Nat} (h0 : (s.stand k).st = 0) (hpin : (s.stand k).pinReq = none) (hp : (s.stand k).phase ≠ 2)
    (hn : nextSlot (s.stand k) = 9) : s.slotBegun k = ((s.slotTaken k).onStand k fun x =>
      { x.rematch with phase := 3, spareChan := 0xFE, carrying := false, stored := false, corr := Corr.none }).restBegin k (36 + k) := by
  rw [State.slotBegun, if_neg (by simp [h0, hpin]), if_neg (by simp [hp]), if_pos (by simp [hn])]

/-- The spare moves to the slot's channel; one that is not NORMAL or whose home converter is condemned is skipped. -/
theorem slotBegun_of_channel (h0 : (s.stand k).st = 0) (hpin : (s.stand k).pinReq = none) (hp : (s.stand k).phase ≠ 2)
    (hn : nextSlot (s.stand k) ≠ 9) : s.slotBegun k =
      if chanSource s (slotChan k (nextSlot (s.stand k))) != 0 || condemned s (slotChan k (nextSlot (s.stand k))) then
        ((s.slotTaken k).moveSpare k (slotChan k (nextSlot (s.stand k))) 5).skipSlot k
      else (s.slotTaken k).moveSpare k (slotChan k (nextSlot (s.stand k))) 0 := by
  have hc := slotChan_lt k (nextSlot_lt hn)
  rw [State.slotBegun, if_neg (by simp [h0, hpin]), if_neg (by simp [hp]), if_neg (by simp [hn]),
    chanSource_slotTaken (by omega), condemned_slotTaken]

/-- A slot given to a channel moves the spare there; whether its rest is skipped follows the channel. -/
theorem slotBegun_spare (hk : k < s.stands.length) (h0 : (s.stand k).st = 0) (hpin : (s.stand k).pinReq = none)
    (hp : (s.stand k).phase ≠ 2) (hn : nextSlot (s.stand k) ≠ 9) :
    ((s.slotBegun k).stand k).spareChan = slotChan k (nextSlot (s.stand k)) ∧ ((s.slotBegun k).stand k).carrying = false ∧
      (chanSource s (slotChan k (nextSlot (s.stand k))) = 0 → condemned s (slotChan k (nextSlot (s.stand k))) = false →
        ((s.slotBegun k).stand k).phase = 0 ∧ ((s.slotBegun k).stand k).skip = false) ∧
      (chanSource s (slotChan k (nextSlot (s.stand k))) ≠ 0 ∨ condemned s (slotChan k (nextSlot (s.stand k))) = true →
        ((s.slotBegun k).stand k).phase = 5 ∧ ((s.slotBegun k).stand k).skip = true ∧
          ((s.slotBegun k).stand k).skipped = u32 ((s.stand k).skipped + 1)) := by
  have h1 := slotTaken_stand hk
  rw [slotBegun_of_channel h0 hpin hp hn]
  split
  next hb =>
    rw [skipSlot_stand (by simpa using hk), moveSpare_stand (by simpa using hk), h1]
    exact ⟨rfl, rfl, fun hs hc => by simp [hs, hc] at hb, fun _ => ⟨rfl, rfl, rfl⟩⟩
  next hb =>
    rw [moveSpare_stand (by simpa using hk), h1]
    exact ⟨rfl, rfl, fun _ _ => ⟨rfl, rfl⟩, fun hs => by rcases hs with hs | hs <;> simp [hs] at hb⟩

theorem execSlotStart_brings (hk : k < s.stands.length) (hst : (s.stand k).st ≠ 4) (hd : slotDue s k = true) :
    Gives (.slotStart k) s fun t =>
      (t.stand k).slot = nextSlot (s.stand k) ∧ (t.stand k).st = (s.stand k).st ∧
      ((s.stand k).st = 0 → (s.stand k).pinReq = none → (s.stand k).phase ≠ 2 → nextSlot (s.stand k) = 9 →
        (t.stand k).phase = 3 ∧ (t.stand k).spareChan = 0xFE ∧ (t.stand k).carrying = false) ∧
      ((s.stand k).st = 0 → (s.stand k).pinReq = none → (s.stand k).phase ≠ 2 → nextSlot (s.stand k) ≠ 9 →
        (t.stand k).spareChan = slotChan k (nextSlot (s.stand k)) ∧ (t.stand k).carrying = false ∧
        (chanSource s (slotChan k (nextSlot (s.stand k))) = 0 →
          condemned s (slotChan k (nextSlot (s.stand k))) = false → (t.stand k).phase = 0 ∧ (t.stand k).skip = false) ∧
        (chanSource s (slotChan k (nextSlot (s.stand k))) ≠ 0 ∨ condemned s (slotChan k (nextSlot (s.stand k))) = true →
          (t.stand k).phase = 5 ∧ (t.stand k).skip = true ∧ (t.stand k).skipped = u32 ((s.stand k).skipped + 1))) ∧
      ((s.stand k).st = 0 → (s.stand k).phase = 2 → (t.stand k).phase = 2 ∧ (t.stand k).runOn = true ∧
        (t.stand k).spareChan = (s.stand k).spareChan ∧ (t.stand k).carrying = (s.stand k).carrying ∧
        (t.stand k).skipped = u32 ((s.stand k).skipped + 1)) ∧
      ((s.stand k).st ≠ 0 → t.stand k = { s.stand k with slot := nextSlot (s.stand k), skip := false, n := 0 }) ∧
      t = { s with hw := t.hw, pr := t.pr, wd := t.wd, convs := t.convs, stands := t.stands, insts := t.insts } := by
  have h1 := slotTaken_stand hk
  obtain ⟨hslot, hstate⟩ := slotBegun_slot hk
  refine ⟨_, execSlotStart_of_due hst hd, hslot, hstate, fun h0 hpin hp hn => ?_, slotBegun_spare hk, fun h0 hp => ?_,
    fun h => ?_, (slotBegun_changes s k).eq_pick⟩
  · rw [slotBegun_of_nine h0 hpin hp hn, restBegin_stand (by simpa using hk), onStand_stand _ (by simpa using hk)]
    exact ⟨rfl, rfl, rfl⟩
  · rw [slotBegun_of_back h0 hp, skipSlot_stand (by simpa using hk), onStand_stand _ (by simpa using hk), h1]
    exact ⟨hp, rfl, rfl, rfl, rfl⟩
  · rw [slotBegun_of_idle h, h1]

/-! ### The end of the first overlap (R63, R86 to R90) -/

/-- The first overlap of a stand that rotates or waits for a pin has run to its end on a channel. -/
structure OverlapEnds (s : State) (k : Nat) : Prop where
  phase : (s.stand k).phase = 0
  chan : (s.stand k).spareChan < 36
  rotates : (s.stand k).st = 0 ∨ (s.stand k).pinReq.isSome = true
  ended : overlapOver (s.stand k) = true

/-- The channel is passed over, but for a pin, which goes on overlapping (R102). -/
def State.overlapPassed (s : State) (k : Nat) : State :=
  if (s.stand k).pinReq.isSome then s else (s.onStand k fun x => { x with phase := 5 }).skipSlot k

theorem execFirstOverlapEnd_of_ends (h : OverlapEnds s k) : exec (.firstOverlapEnd k) s = .next (
    if (s.stand k).pairs.isEmpty || chanSource s (s.stand k).spareChan != 0 then s.overlapPassed k
    else if xcheckBad (matchLive s k (runMatch s k)) (runMatch s k) then
      s.xcheckFail k (s.stand k).spareChan (matchLive s k (runMatch s k))
    else if matchLive s k (runMatch s k) then
      (s.takeMatch k (s.stand k).spareChan true (runMatch s k)).spliceIn k (s.stand k).spareChan false
    else if storedUsable s k (s.stand k).spareChan then
      (s.takeMatch k (s.stand k).spareChan false (runMatch s k)).spliceIn k (s.stand k).spareChan true
    else s.overlapPassed k) := by
  obtain ⟨hp, hc, hr, ho⟩ := h
  have hr' : ((s.stand k).st == 0 || (s.stand k).pinReq.isSome) = true := by simpa using hr
  have he : exec (.firstOverlapEnd k) s = execFirstOverlapEnd k s := rfl
  refine (he.trans (if_neg (by simp only [hp, ho, hr', decide_eq_false (Nat.not_le.2 hc)]; decide))).trans ?_
  simp only [State.overlapPassed, apply_ite Host.Outcome.next]

/-- A match that is live, or backed by usable stored terms, is taken and spliced. -/
theorem execFirstOverlapEnd_of_match (h : OverlapEnds s k) (hpairs : (s.stand k).pairs ≠ [])
    (hs : chanSource s (s.stand k).spareChan = 0) (hx : xcheckBad (matchLive s k (runMatch s k)) (runMatch s k) = false)
    (hl : matchLive s k (runMatch s k) = true ∨ storedUsable s k (s.stand k).spareChan = true) :
    exec (.firstOverlapEnd k) s = .next ((s.takeMatch k (s.stand k).spareChan (matchLive s k (runMatch s k)) (runMatch s k)).spliceIn
      k (s.stand k).spareChan !(matchLive s k (runMatch s k))) := by
  rw [execFirstOverlapEnd_of_ends h, if_neg (by simp [hpairs, hs]), if_neg (ne_true_of_eq_false hx)]
  cases hm : matchLive s k (runMatch s k) with
  | true => rw [if_pos rfl]; rfl
  | false => rw [if_neg Bool.false_ne_true, if_pos (hl.resolve_left (ne_true_of_eq_false hm))]; rfl

/-- The terms of a match taken, and the channel spliced to the spare on them. -/
theorem takeMatch_spliceIn {k c : Nat} {live stored : Bool} {m : Match} (hk : k < s.stands.length) (hc : c < s.chans.length)
    (hv : c < s.convs.length) :
    let t := (s.takeMatch k c live m).spliceIn k c stored
    (t.stand k).carrying = true ∧ (t.stand k).stored = stored ∧ (t.stand k).splices = u32 ((s.stand k).splices + 1) ∧
      (t.chan c).matchOffset = quant s 0 (256 * m.o) ∧
      ((s.stand k).pinReq = none → (t.stand k).phase = 1 ∧ (t.conv c).unsP = 68) ∧
      ((s.stand k).pinReq.isSome = true → (t.stand k).phase = 6 ∧ (t.stand k).st = 2 ∧ (t.stand k).pinChan = c ∧
        (t.stand k).pinReq = none) := by
  intro t
  have hms := takeMatch_stand (c := c) (live := live) (m := m) hk
  obtain ⟨hcarry, hstored, hsplices, hrest, hpinned⟩ := spliceIn_stand (s := s.takeMatch k c live m) (c := c) (stored := stored)
    (by simpa using hk)
  rw [hms] at hsplices hrest hpinned
  refine ⟨hcarry, hstored, hsplices, ?_, fun hp => ⟨hrest hp, ?_⟩, hpinned⟩
  · rw [spliceIn_matchOffset (by rw [takeMatch_chans_length]; exact hc), takeMatch_matchOffset hc]
  · exact spliceIn_unsP (by rw [hms]; exact hp) hv

theorem execFirstOverlapEnd_splices (hk : k < s.stands.length) (hcv : s.convs.length = 40) (hch : s.chans.length = 36)
    (h : OverlapEnds s k) (hpairs : (s.stand k).pairs ≠ []) (hs : chanSource s (s.stand k).spareChan = 0)
    (hx : xcheckBad (matchLive s k (runMatch s k)) (runMatch s k) = false)
    (hl : matchLive s k (runMatch s k) = true ∨ storedUsable s k (s.stand k).spareChan = true) :
    Gives (.firstOverlapEnd k) s fun t =>
      (t.stand k).carrying = true ∧ (t.stand k).stored = !(matchLive s k (runMatch s k)) ∧
      (t.stand k).splices = u32 ((s.stand k).splices + 1) ∧
      (t.chan (s.stand k).spareChan).matchOffset = quant s 0 (256 * (runMatch s k).o) ∧
      ((s.stand k).pinReq = none → (t.stand k).phase = 1 ∧ (t.conv (s.stand k).spareChan).unsP = 68) ∧
      ((s.stand k).pinReq.isSome = true → (t.stand k).phase = 6 ∧ (t.stand k).st = 2 ∧
        (t.stand k).pinChan = (s.stand k).spareChan ∧ (t.stand k).pinReq = none) ∧ t.hw = s.hw ∧
      t = { s with hw := t.hw, wd := t.wd, chans := t.chans, convs := t.convs, stands := t.stands, filts := t.filts,
                   insts := t.insts, free := t.free } := by
  have hc := h.chan
  obtain ⟨hcarry, hstored, hsplices, hoff, hrest, hpinned⟩ := takeMatch_spliceIn (c := (s.stand k).spareChan)
    (live := matchLive s k (runMatch s k)) (stored := !(matchLive s k (runMatch s k))) (m := runMatch s k) hk (by omega) (by omega)
  have hf : Changes [.wd, .chans, .convs, .stands, .filts, .insts, .free] s
      ((s.takeMatch k (s.stand k).spareChan (matchLive s k (runMatch s k)) (runMatch s k)).spliceIn k (s.stand k).spareChan
        !(matchLive s k (runMatch s k))) := spliceIn_ch (takeMatch_ch (.refl _ _) rfl) rfl
  exact ⟨_, execFirstOverlapEnd_of_match h hpairs hs hx hl, hcarry, hstored, hsplices, hoff, hrest, hpinned, hf.hw rfl,
    (hf.mono (q := [.hw, .wd, .chans, .convs, .stands, .filts, .insts, .free]) rfl).eq_pick⟩

theorem execFirstOverlapEnd_fails (hk : k < s.stands.length) (h : OverlapEnds s k) (hpairs : (s.stand k).pairs ≠ [])
    (hs : chanSource s (s.stand k).spareChan = 0) (hx : xcheckBad (matchLive s k (runMatch s k)) (runMatch s k) = true) :
    Gives (.firstOverlapEnd k) s fun t =>
      (t.stand k).xcheckFails = u32 ((s.stand k).xcheckFails + 1) ∧
      t = { s with hw := t.hw, wd := t.wd, chans := t.chans, convs := t.convs, stands := t.stands, filts := t.filts,
                   insts := t.insts, free := t.free } := by
  have he := execFirstOverlapEnd_of_ends h
  rw [if_neg (by simp [hpairs, hs]), if_pos hx] at he
  exact ⟨_, he, xcheckFail_xcheckFails hk,
    (xcheckFail_ch (.refl [.hw, .wd, .chans, .convs, .stands, .filts, .insts, .free] s) rfl).eq_pick⟩

theorem execFirstOverlapEnd_passes (hk : k < s.stands.length) (h : OverlapEnds s k) (hpin : (s.stand k).pinReq = none)
    (hno : (s.stand k).pairs = [] ∨ chanSource s (s.stand k).spareChan ≠ 0 ∨
      (xcheckBad (matchLive s k (runMatch s k)) (runMatch s k) = false ∧ matchLive s k (runMatch s k) = false ∧
        storedUsable s k (s.stand k).spareChan = false)) :
    Gives (.firstOverlapEnd k) s fun t =>
      (t.stand k).phase = 5 ∧ (t.stand k).skipped = u32 ((s.stand k).skipped + 1) ∧
      (t.stand k).carrying = (s.stand k).carrying ∧ t = { s with stands := t.stands, wd := t.wd } := by
  have he : exec (.firstOverlapEnd k) s = .next (s.overlapPassed k) := by
    rw [execFirstOverlapEnd_of_ends h]
    split
    · rfl
    next hb =>
      simp only [Bool.or_eq_true, List.isEmpty_iff, bne_iff_ne] at hb
      obtain ⟨hx, hl, hu⟩ := (hno.resolve_left fun h => hb (.inl h)).resolve_left fun h => hb (.inr h)
      rw [if_neg (ne_true_of_eq_false hx), if_neg (ne_true_of_eq_false hl), if_neg (ne_true_of_eq_false hu)]
  rw [State.overlapPassed, if_neg (by simp [hpin])] at he
  refine ⟨_, he, ?_, ?_, ?_, (skipSlot_ch (onStand_ch (.refl [.wd, .stands] s) rfl) rfl).eq_pick⟩
  all_goals rw [skipSlot_stand (by simpa using hk), onStand_stand _ hk]

/-! ### Home return, splice back and pre-shadow (R83, R89, R90) -/

theorem execHomeReturn_brings (hk : k < s.stands.length) (hcv : s.convs.length = 40) (hp : (s.stand k).phase = 1)
    (hc : (s.stand k).spareChan < 36) (hd : slotAt (s.stand k) 140000 = true) : Gives (.homeReturn k) s fun t =>
      t.stand k = { (s.stand k).rematch with phase := 2, dac := 8, first := (s.stand k).corr } ∧
      (t.conv (s.stand k).spareChan).unsP = 68 ∧ t = { s with stands := t.stands, convs := t.convs } := by
  have he : exec (.homeReturn k) s = .next ((s.onStand k fun x =>
      { x.rematch with phase := 2, dac := 8, first := x.corr }).unsettle (s.stand k).spareChan) := by
    have he : exec (.homeReturn k) s = execHomeReturn k s := rfl
    rw [he, execHomeReturn]
    exact if_pos (by simp [hp, hc, hd])
  refine ⟨_, he, ?_, ?_, rfl⟩
  · rw [unsettle_stand, onStand_stand _ hk]
  · rw [unsettle_conv (by rw [onStand_convs, hcv]; omega)]

/-- The channel spliced back to its home pair on the terms of a match, before what follows for the stand. -/
def State.splicedBack (s : State) (k c : Nat) (live : Bool) (m : Match) : State :=
  (((s.takeMatch k c live m).splice k c false).loadDone c).onStand k fun x =>
    { x.rematch with stored := false, old := none, requalBack := false }

@[simp] theorem splicedBack_stands_length (s : State) (k c : Nat) (live : Bool) (m : Match) :
    (s.splicedBack k c live m).stands.length = s.stands.length := by
  simp [State.splicedBack]

theorem splicedBack_stand {k c : Nat} {live : Bool} {m : Match} (hk : k < s.stands.length) :
    (s.splicedBack k c live m).stand k = { ((s.takeMatch k c live m).stand k).rematch with
      carrying := false, splices := u32 ((s.stand k).splices + 1), stored := false, old := none, requalBack := false } := by
  rw [State.splicedBack, onStand_stand _ (by simpa using hk), loadDone_stand, splice_stand (by simpa using hk), takeMatch_stand hk]
  rfl

theorem splicedBack_changes (s : State) (k c : Nat) (live : Bool) (m : Match) :
    Changes [.wd, .chans, .stands, .filts, .insts, .free] s (s.splicedBack k c live m) :=
  onStand_ch (loadDone_ch (splice_ch (takeMatch_ch (.refl _ _) rfl) rfl) rfl) rfl

/-- A stand that rotates with nothing waiting goes on rotating; the spare stays on the channel as a shadow. -/
theorem splicedBack_afterBack {k c : Nat} {live : Bool} {m : Match} (hk : k < s.stands.length) (h0 : (s.stand k).st = 0)
    (hpause : (s.stand k).pauseReq = false) (hpin : (s.stand k).pinReq = none) (hrun : (s.stand k).runOn = false) :
    (s.splicedBack k c live m).afterBack k c = (s.splicedBack k c live m).onStand k fun x => { x with spareChan := c, phase := 5 } := by
  have hb := splicedBack_stand (c := c) (live := live) (m := m) hk
  rw [takeMatch_stand hk] at hb
  exact afterBack_of_rotating (by rw [hb]; exact h0) (by rw [hb]; exact hpause) (by rw [hb]; exact hpin) (by rw [hb]; exact hrun)

/-- What the end of a second overlap comes down to. -/
theorem execSpliceBack_of_ready (hp : (s.stand k).phase = 2) (hc : (s.stand k).spareChan < 36)
    (hr : backReady s k (s.stand k).spareChan = true) : exec (.spliceBack k) s = .next (
      if xcheckBad (matchLive s k (runMatch s k) && !(s.stand k).stored) (runMatch s k) then
        s.xcheckFail k (s.stand k).spareChan (matchLive s k (runMatch s k) && !(s.stand k).stored)
      else if !spliceHolds s k (s.stand k).spareChan (matchLive s k (runMatch s k) && !(s.stand k).stored) then s
      else (s.splicedBack k (s.stand k).spareChan (matchLive s k (runMatch s k) && !(s.stand k).stored)
        (runMatch s k)).afterBack k (s.stand k).spareChan) := by
  have he : exec (.spliceBack k) s = execSpliceBack k s := rfl
  refine (he.trans (if_neg (by simp only [hp, hr, decide_eq_false (Nat.not_le.2 hc)]; decide))).trans ?_
  rw [apply_ite Host.Outcome.next, apply_ite Host.Outcome.next, State.splicedBack]

theorem execSpliceBack_splices (hk : k < s.stands.length) (hp : (s.stand k).phase = 2) (hc : (s.stand k).spareChan < 36)
    (hr : backReady s k (s.stand k).spareChan = true)
    (hx : xcheckBad (matchLive s k (runMatch s k) && !(s.stand k).stored) (runMatch s k) = false)
    (hh : spliceHolds s k (s.stand k).spareChan (matchLive s k (runMatch s k) && !(s.stand k).stored) = true)
    (h0 : (s.stand k).st = 0) (hpause : (s.stand k).pauseReq = false) (hpin : (s.stand k).pinReq = none)
    (hrun : (s.stand k).runOn = false) : Gives (.spliceBack k) s fun t =>
      (t.stand k).carrying = false ∧ (t.stand k).phase = 5 ∧ (t.stand k).spareChan = (s.stand k).spareChan ∧
      (t.stand k).splices = u32 ((s.stand k).splices + 1) ∧ (t.stand k).st = 0 ∧ (t.stand k).pairs = [] ∧
      (t.stand k).old = none ∧ t.hw = s.hw ∧
      t = { s with hw := t.hw, wd := t.wd, chans := t.chans, convs := t.convs, stands := t.stands, filts := t.filts,
                   insts := t.insts, free := t.free } := by
  have he := execSpliceBack_of_ready hp hc hr
  rw [if_neg (ne_true_of_eq_false hx), if_neg (by rw [hh]; decide), splicedBack_afterBack hk h0 hpause hpin hrun] at he
  generalize (matchLive s k (runMatch s k) && !(s.stand k).stored) = live at he
  have hb := splicedBack_stand (c := (s.stand k).spareChan) (live := live) (m := runMatch s k) hk
  rw [takeMatch_stand hk] at hb
  have hc : Changes [.wd, .chans, .stands, .filts, .insts, .free] s
      ((s.splicedBack k (s.stand k).spareChan live (runMatch s k)).onStand k fun x =>
        { x with spareChan := (s.stand k).spareChan, phase := 5 }) := onStand_ch (splicedBack_changes ..) rfl
  have ht := onStand_stand (s := s.splicedBack k (s.stand k).spareChan live (runMatch s k))
    (fun x => { x with spareChan := (s.stand k).spareChan, phase := 5 }) (by simpa using hk)
  rw [hb] at ht
  exact ⟨_, he, by rw [ht], by rw [ht], by rw [ht], by rw [ht], by rw [ht]; exact h0, by rw [ht]; rfl, by rw [ht], hc.hw rfl,
    (hc.mono (q := [.hw, .wd, .chans, .convs, .stands, .filts, .insts, .free]) rfl).eq_pick⟩

theorem execSpliceBack_fails (hk : k < s.stands.length) (hp : (s.stand k).phase = 2) (hc : (s.stand k).spareChan < 36)
    (hr : backReady s k (s.stand k).spareChan = true)
    (hx : xcheckBad (matchLive s k (runMatch s k) && !(s.stand k).stored) (runMatch s k) = true) :
    Gives (.spliceBack k) s fun t => (t.stand k).xcheckFails = u32 ((s.stand k).xcheckFails + 1) ∧
      t = { s with hw := t.hw, wd := t.wd, chans := t.chans, convs := t.convs, stands := t.stands, filts := t.filts,
                   insts := t.insts, free := t.free } := by
  have he := execSpliceBack_of_ready hp hc hr
  rw [if_pos hx] at he
  exact ⟨_, he, xcheckFail_xcheckFails hk,
    (xcheckFail_ch (.refl [.hw, .wd, .chans, .convs, .stands, .filts, .insts, .free] s) rfl).eq_pick⟩

/-- A match that cannot hold makes no splice, and the overlap goes on. -/
theorem execSpliceBack_goesOn (hp : (s.stand k).phase = 2) (hc : (s.stand k).spareChan < 36)
    (hr : backReady s k (s.stand k).spareChan = true)
    (hx : xcheckBad (matchLive s k (runMatch s k) && !(s.stand k).stored) (runMatch s k) = false)
    (hh : spliceHolds s k (s.stand k).spareChan (matchLive s k (runMatch s k) && !(s.stand k).stored) = false) :
    exec (.spliceBack k) s = .next s := by
  rw [execSpliceBack_of_ready hp hc hr, if_neg (ne_true_of_eq_false hx), if_pos (by rw [hh]; decide)]

theorem execPreshadowConnect_brings (hk : k < s.stands.length) (hp : (s.stand k).phase = 3) (h0 : (s.stand k).st = 0)
    (hd : slotAt (s.stand k) 120000 = true) : Gives (.preshadowConnect k) s fun t =>
      (t.stand k).phase = 4 ∧ (t.stand k).spareChan = slotChan k 0 ∧ (t.stand k).carrying = false ∧ (t.stand k).dac = 8 ∧
      (t.stand k).old = none ∧ t = { s with stands := t.stands, convs := t.convs, insts := t.insts } := by
  have he : exec (.preshadowConnect k) s = .next ((s.moveSpare k (slotChan k 0) 4).onStand k fun d =>
      { d with old := none, dac := 8 }) := by
    have he : exec (.preshadowConnect k) s = execPreshadowConnect k s := rfl
    rw [he, execPreshadowConnect]
    exact if_pos (by simp [hp, h0, hd])
  have ht := onStand_stand (s := s.moveSpare k (slotChan k 0) 4) (fun d => { d with old := none, dac := 8 })
    (by simpa using hk)
  rw [moveSpare_stand hk] at ht
  refine ⟨_, he, ?_, ?_, ?_, ?_, ?_, (onStand_ch (moveSpare_ch (.refl [.convs, .stands, .insts] s) rfl) rfl).eq_pick⟩
  all_goals rw [ht]

/-- Settles O25: each instant of a slot has one case for what the stand, its match and the slot's channel are, and each case is one
operation on the stand. -/
theorem coppiceCycleOfAStand : Obligations.CoppiceCycleOfAStand := fun s k hst hcv hch => by
  have hk : k < s.stands.length := by rw [hst]; exact k.isLt
  refine ⟨execSlotStart_brings hk, fun hp hc hr ho hpairs hs => ⟨?_, ?_⟩, fun hp hc h0 hpin ho => ?_, execHomeReturn_brings hk hcv,
    fun hp hc hr => ⟨execSpliceBack_fails hk hp hc hr, execSpliceBack_goesOn hp hc hr, execSpliceBack_splices hk hp hc hr⟩,
    execPreshadowConnect_brings hk⟩
  · exact execFirstOverlapEnd_splices hk hcv hch ⟨hp, hc, hr, ho⟩ hpairs hs
  · exact execFirstOverlapEnd_fails hk ⟨hp, hc, hr, ho⟩ hpairs hs
  · exact execFirstOverlapEnd_passes hk ⟨hp, hc, .inl h0, ho⟩ hpin

end Sys2Proof.Machine
end

section
/-! LEMMAS. What the operations of the coppice leave of the other stands, and of calibrations and tests (R92, R96, R101, R102). -/

namespace Sys2Proof.Machine

variable {s t z : State} {j k v c : Nat}

/-! ### The other stands -/

theorem onStand_stand_ne (s : State) (f : Stand → Stand) (h : j ≠ k) : (s.onStand k f).stand j = s.stand j :=
  modAt_getD_ne _ _ _ _ _ h

theorem onConv_conv_ne (s : State) (f : Conv → Conv) {w : Nat} (h : w ≠ v) : (s.onConv v f).conv w = s.conv w :=
  modAt_getD_ne _ _ _ _ _ h

/-- From `z` to `t` no stand but one changes. -/
structure OnlyStand (k : Nat) (z t : State) : Prop where
  others : ∀ j, j ≠ k → t.stand j = z.stand j

theorem OnlyStand.refl (k : Nat) (s : State) : OnlyStand k s s := ⟨fun _ _ => rfl⟩

theorem OnlyStand.of_changes {q : List Part} (H : OnlyStand k z s) (h : Changes q s t) (hq : q.contains .stands = false) :
    OnlyStand k z t :=
  ⟨fun j hj => (h.stand hq j).trans (H.others j hj)⟩

theorem OnlyStand.onStand {f : Stand → Stand} (H : OnlyStand k z s) : OnlyStand k z (s.onStand k f) :=
  ⟨fun j hj => (onStand_stand_ne s f hj).trans (H.others j hj)⟩

theorem OnlyStand.ite {p : Prop} [Decidable p] {a b : State} (ha : OnlyStand k z a) (hb : OnlyStand k z b) :
    OnlyStand k z (if p then a else b) := by
  split
  · exact ha
  · exact hb

theorem OnlyStand.unsettle (H : OnlyStand k z s) : OnlyStand k z (s.unsettle v) :=
  H.of_changes (unsettle_ch (.refl [.convs] s) rfl) rfl

theorem OnlyStand.splice {toSpare : Bool} (H : OnlyStand k z s) : OnlyStand k z (s.splice k c toSpare) :=
  (H.of_changes (mark_ch (.refl [.chans] s) rfl) rfl).onStand

theorem OnlyStand.takeMatch {live : Bool} {m : Match} (H : OnlyStand k z s) : OnlyStand k z (s.takeMatch k c live m) :=
  (OnlyStand.onStand (H.of_changes (onChan_ch (.refl [.chans] s) rfl) rfl)).of_changes (drew_ch (.refl [.free] _) rfl) rfl

theorem OnlyStand.moveSpare {phase : Nat} (H : OnlyStand k z s) : OnlyStand k z (s.moveSpare k c phase) := by
  unfold State.moveSpare
  extract_lets d s1
  have h1 : OnlyStand k z s1 := H.onStand
  exact h1.ite (h1.unsettle.of_changes (copyInst_ch (.refl [.insts] _) rfl) rfl)

theorem OnlyStand.shadowFor {slot : Nat} (H : OnlyStand k z s) : OnlyStand k z (s.shadowFor k slot) :=
  H.moveSpare.ite H.moveSpare

theorem OnlyStand.abortSpareRest (H : OnlyStand k z s) : OnlyStand k z (s.abortSpareRest k) := by
  refine OnlyStand.ite ?_ H
  unfold State.restoreTrim
  split
  · exact H
  · exact (H.of_changes (onConv_ch (.refl [.convs] s) rfl) rfl).onStand

theorem OnlyStand.unpin (H : OnlyStand k z s) : OnlyStand k z (s.unpin k) := H.splice.onStand.ite H

theorem OnlyStand.restBegin (H : OnlyStand k z s) : OnlyStand k z (s.restBegin k v) := H.onStand.unsettle

theorem OnlyStand.endRequal (H : OnlyStand k z s) : OnlyStand k z (s.endRequal k) := by
  unfold State.endRequal
  split
  · exact H
  · exact H.onStand.unsettle.ite H.onStand

/-! ### What a reading of converters and stands keeps -/

/-- From `z` to `t` every converter keeps what `g` reads of it, and every stand what `f` does. -/
structure Keeps {α β : Type} (g : Conv → α) (f : Stand → β) (z t : State) : Prop where
  convs : t.convs.map g = z.convs.map g
  stands : t.stands.map f = z.stands.map f

section
variable {α β : Type} {g : Conv → α} {f : Stand → β}

theorem Keeps.refl (g : Conv → α) (f : Stand → β) (s : State) : Keeps g f s s := ⟨rfl, rfl⟩

theorem Keeps.trans (h : Keeps g f z s) (i : Keeps g f s t) : Keeps g f z t :=
  ⟨i.convs.trans h.convs, i.stands.trans h.stands⟩

theorem Keeps.conv (h : Keeps g f z t) (v : Nat) : g (t.conv v) = g (z.conv v) := by
  have hm (s : State) : g (s.conv v) = (s.convs.map g).getD v (g Conv.reset) := by
    rw [State.conv, List.getD_map]
  rw [hm, hm, h.convs]

theorem Keeps.stand (h : Keeps g f z t) (k : Nat) : f (t.stand k) = f (z.stand k) := stand_of_map h.stands k

theorem Keeps.of_changes {q : List Part} (H : Keeps g f z s) (h : Changes q s t) (hc : q.contains .convs = false)
    (hs : q.contains .stands = false) : Keeps g f z t :=
  H.trans ⟨by rw [h.convs hc], by rw [h.stands hs]⟩

theorem Keeps.onConv {i : Conv → Conv} (H : Keeps g f z s) (h : ∀ x, g (i x) = g x) : Keeps g f z (s.onConv v i) :=
  H.trans ⟨map_modAt_of_keeps h _ _, rfl⟩

theorem Keeps.onStand {i : Stand → Stand} (H : Keeps g f z s) (h : ∀ x, f (i x) = f x) : Keeps g f z (s.onStand k i) :=
  H.trans ⟨rfl, map_modAt_of_keeps h _ _⟩

theorem Keeps.ite {p : Prop} [Decidable p] {a b : State} (ha : Keeps g f z a) (hb : Keeps g f z b) :
    Keeps g f z (if p then a else b) := by
  split
  · exact ha
  · exact hb

theorem Keeps.splice {toSpare : Bool} (H : Keeps g f z s)
    (h : ∀ (x : Stand) (b : Bool) (n : Nat), f { x with carrying := b, splices := n } = f x) :
    Keeps g f z (s.splice k c toSpare) :=
  Keeps.onStand (H.of_changes (mark_ch (.refl [.chans] s) rfl) rfl rfl) fun x => h x ..

theorem Keeps.loadDone (H : Keeps g f z s) : Keeps g f z (s.loadDone c) :=
  H.of_changes (loadDone_ch (.refl [.wd, .filts, .insts] s) rfl) rfl rfl

theorem Keeps.pioUpdate (H : Keeps g f z s) : Keeps g f z s.pioUpdate :=
  H.of_changes (pioUpdate_ch (.refl [.hw] s) rfl) rfl rfl

/-- An aborted check changes the stand's check and its queue alone. -/
theorem Keeps.abortCheck (H : Keeps g f z s)
    (h : ∀ (x : Stand) (a : Option Check) (l : List Check), f { x with active := a, queue := l } = f x) :
    Keeps g f z (s.abortCheck k) := by
  unfold State.abortCheck
  split
  · exact H
  · exact Keeps.onStand (H.of_changes (baseFailLog_ch (setCheckResult_ch (.refl [.chans, .wd] s) rfl) rfl) rfl rfl)
      fun x => h x ..

end

/-! ### Condemning a converter leaves the counts of rests -/

/-- From `z` to `t` every converter keeps its count of rests. -/
abbrev KeepsRests : State → State → Prop := Keeps Conv.rests fun _ => ()

theorem unsettle_keepsRests (H : KeepsRests z s) : KeepsRests z (s.unsettle v) := H.onConv fun _ => rfl

theorem restoreTrim_keepsRests (H : KeepsRests z s) : KeepsRests z (s.restoreTrim k v) := by
  unfold State.restoreTrim
  split
  · exact H
  · exact Keeps.onStand (Keeps.onConv H fun _ => rfl) fun _ => rfl

theorem recallHome_keepsRests (H : KeepsRests z s) : KeepsRests z (s.recallHome k) := by
  have hrest : KeepsRests z ((((s.restoreTrim k (s.stand k).spareChan).unsettle (s.stand k).spareChan).loadDone
      (s.stand k).spareChan).onStand k fun x => { x with carrying := false }) :=
    (unsettle_keepsRests (restoreTrim_keepsRests H)).loadDone.onStand fun _ => rfl
  exact (hrest.ite (H.splice fun _ _ _ => rfl).loadDone).ite H

theorem takeover_keepsRests (H : KeepsRests z s) : KeepsRests z (s.takeover k c) := by
  unfold State.takeover
  extract_lets d s0 x s1 s2
  have h0 : KeepsRests z s0 := H.abortCheck fun _ _ _ => rfl
  have hr : KeepsRests z (s0.abortSpareRest k) := (restoreTrim_keepsRests h0).ite h0
  have hx : KeepsRests z x :=
    (unsettle_keepsRests (recallHome_keepsRests hr)).of_changes (copyInst_ch (.refl [.insts] _) rfl) rfl rfl
  have h1 : KeepsRests z s1 := h0.ite ((h0.splice fun _ _ _ => rfl).ite (hx.onStand fun _ => rfl))
  have h2 : KeepsRests z s2 := h1.onStand fun _ => rfl
  exact h2.ite h2.pioUpdate

theorem condemn_keepsRests (s : State) (v cause : Nat) : KeepsRests s (s.condemn v cause) := by
  unfold State.condemn
  extract_lets k d chan first s1 s2 s3 held s0 s4 s5
  have hlose {x : State} {c : Nat} (hx : KeepsRests s x) : KeepsRests s (x.loseChan c) :=
    hx.of_changes (loseChan_ch (.refl [.wd, .chans] x) rfl) rfl rfl
  have h1 : KeepsRests s s1 := Keeps.of_changes (q := [.hw, .wd])
    ((Keeps.refl _ _ s).onStand (k := k) (i := fun x => { x with condemned := setBit x.condemned (condBit v) }) fun _ => rfl)
    (log_ch (storeDevice_ch (.refl _ _) rfl) rfl) rfl rfl
  have h2 : KeepsRests s s2 := h1.abortCheck fun _ _ _ => rfl
  have h3 : KeepsRests s s3 := Keeps.ite
    (h2.of_changes (ch_foldl (fun _ _ h => cancelLoad_ch h rfl) (.refl [.wd, .filts] _)) rfl rfl) h2
  have h0 : KeepsRests s s0 := (hlose h3).ite (recallHome_keepsRests h3)
  have h4 : KeepsRests s s4 := ((hlose h3).ite (takeover_keepsRests h3)).ite (h0.onStand fun _ => rfl)
  have h5 : KeepsRests s s5 := Keeps.ite
    (h4.of_changes (ch_foldl (fun _ _ h => cancelLoading_ch h rfl) (.refl [.wd, .filts] _)) rfl rfl) h4
  exact (Keeps.refl _ _ s).ite (h5.onStand fun _ => rfl)

/-! ### What follows a requalification leaves calibrations and tests -/

/-- The calibration of a converter: its trims and its count of rests. -/
def Conv.calibration (x : Conv) : Trim × Nat := (x.trim, x.rests)

/-- The converter that a stand tests, and which of its converters are condemned. -/
def Stand.tests (d : Stand) : Option Nat × Nat := (d.requal, d.condemned)

/-- From `z` to `t` every converter keeps its calibration and every stand its tests. -/
abbrev KeepsTests : State → State → Prop := Keeps Conv.calibration Stand.tests

theorem unsettle_keepsTests (H : KeepsTests z s) : KeepsTests z (s.unsettle v) := H.onConv fun _ => rfl

theorem copyInst_keepsTests (H : KeepsTests z s) : KeepsTests z (s.copyInst v c) :=
  H.of_changes (copyInst_ch (.refl [.insts] s) rfl) rfl rfl

theorem shadowFor_keepsTests {slot : Nat} (H : KeepsTests z s) : KeepsTests z (s.shadowFor k slot) := by
  have hmove {c phase : Nat} : KeepsTests z (s.moveSpare k c phase) := by
    unfold State.moveSpare
    extract_lets d s1
    have h1 : KeepsTests z s1 := H.onStand fun _ => rfl
    exact h1.ite (copyInst_keepsTests (unsettle_keepsTests h1))
  exact hmove.ite hmove

/-- A takeover cuts a rest short only where one is in progress (Table 4-6). -/
theorem takeover_keepsTests (h1 : (s.stand k).phase ≠ 1) (h3 : (s.stand k).phase ≠ 3) (H : KeepsTests z s) :
    KeepsTests z (s.takeover k c) := by
  unfold State.takeover
  extract_lets d s0 x s1 s2
  have hp : (s0.stand k).phase = (s.stand k).phase :=
    ((Keeps.refl Conv.calibration Stand.phase s).abortCheck fun _ _ _ => rfl).stand k
  have h0 : KeepsTests z s0 := H.abortCheck fun _ _ _ => rfl
  have ha : s0.abortSpareRest k = s0 := if_neg (by simp [hp, h3])
  have hh : KeepsTests z (s0.recallHome k) := by
    unfold State.recallHome
    extract_lets d c
    rw [if_neg (c := (d.phase == 1) = true) (by simp [d, hp, h1])]
    exact (h0.splice fun _ _ _ => rfl).loadDone.ite h0
  have hx : KeepsTests z x := by
    unfold x
    rw [ha]
    exact copyInst_keepsTests (unsettle_keepsTests hh)
  have h1 : KeepsTests z s1 := h0.ite ((h0.splice fun _ _ _ => rfl).ite (hx.onStand fun _ => rfl))
  have h2 : KeepsTests z s2 := h1.onStand fun _ => rfl
  exact h2.ite h2.pioUpdate

theorem requalHome_keepsTests (H : KeepsTests z s) : KeepsTests z (s.requalHome k v) := by
  unfold State.requalHome
  extract_lets d s1 s2
  have h1 : KeepsTests z s1 := unsettle_keepsTests
    (Keeps.onStand (H.of_changes (onChan_ch (.refl [.chans] s) rfl) rfl rfl) fun _ => rfl)
  have h2 : KeepsTests z s2 := Keeps.ite (Keeps.pioUpdate (Keeps.onStand h1 fun _ => rfl)) h1
  exact Keeps.ite (unsettle_keepsTests (Keeps.onStand H fun _ => rfl))
    (Keeps.ite (shadowFor_keepsTests (Keeps.onStand h2 fun _ => rfl)) h2)

theorem requalSpare_keepsTests (hk : k < s.stands.length) (H : KeepsTests z s) : KeepsTests z (s.requalSpare k) := by
  unfold State.requalSpare
  refine Keeps.ite (shadowFor_keepsTests (Keeps.onStand H fun _ => rfl)) ?_
  generalize hx : (s.onStand k fun x => { x with spareChan := 0xFF, phase := 5 }) = x
  have hp : (x.stand k).phase = 5 := by rw [← hx, onStand_stand _ hk]
  have h : KeepsTests z x := hx ▸ H.onStand fun _ => rfl
  unfold State.rescue
  split
  · exact h
  · exact (takeover_keepsTests (by simp [hp]) (by simp [hp]) h).of_changes (onChan_ch (.refl [.chans] _) rfl) rfl rfl

end Sys2Proof.Machine
end

section
/-! THEOREMS. What PAUSE, ROTATE, PIN and UNPIN do to one stand (R88, R102, Table 4-7; O28). -/

namespace Sys2Proof.Machine

variable {s : State} {k c : Nat}

/-! ### The stand after the operations that these actions share -/

@[simp] theorem abortSpareRest_stands_length (s : State) (k : Nat) : (s.abortSpareRest k).stands.length = s.stands.length := by
  unfold State.abortSpareRest State.restoreTrim
  split
  · split
    · rfl
    · exact modAt_length _ _ _
  · rfl

@[simp] theorem unpin_stands_length (s : State) (k : Nat) : (s.unpin k).stands.length = s.stands.length := by
  unfold State.unpin
  extract_lets d
  split
  · simp
  · rfl

/-- A PINNED stand splices its channel home and is PAUSED. -/
theorem unpin_of_pinned (h : (s.stand k).st = 2) : s.unpin k =
    (s.splice k (s.stand k).pinChan false).onStand k fun x => { x with st := 1, phase := 5, pinChan := 0xFF } :=
  if_pos (beq_iff_eq.2 h)

theorem unpin_stand_of_pinned (hk : k < s.stands.length) (h : (s.stand k).st = 2) : (s.unpin k).stand k =
    { s.stand k with st := 1, phase := 5, carrying := false, pinChan := 0xFF, splices := u32 ((s.stand k).splices + 1) } := by
  rw [unpin_of_pinned h, onStand_stand _ (by simpa using hk), splice_stand hk]

/-- Going to a channel as a shadow leaves the stand's state and what waits in it. -/
theorem shadowFor_waits (hk : k < s.stands.length) (slot : Nat) :
    ((s.shadowFor k slot).stand k).st = (s.stand k).st ∧
      ((s.shadowFor k slot).stand k).pauseReq = (s.stand k).pauseReq ∧
      ((s.shadowFor k slot).stand k).pinReq = (s.stand k).pinReq := by
  unfold State.shadowFor
  split
  · rw [moveSpare_stand hk]; exact ⟨rfl, rfl, rfl⟩
  · rw [moveSpare_stand hk]; exact ⟨rfl, rfl, rfl⟩

/-! ### PAUSE -/

theorem pauseStand_of_away (h : (s.stand k).phase = 1 ∨ (s.stand k).phase = 2) : pauseStand s k =
    (s.onStand k fun x => { x with pauseReq := true, pinReq := none }, true) :=
  if_pos (by simpa using h)

theorem pauseStand_of_spareRest (h : (s.stand k).phase = 3) : pauseStand s k =
    (((s.abortSpareRest k).moveSpare k (slotChan k 0) 5).onStand k fun x => { x with st := 1 }, false) :=
  (if_neg (by simp [h])).trans (if_pos (by simp [h]))

theorem pauseStand_of_home (h1 : (s.stand k).phase ≠ 1) (h2 : (s.stand k).phase ≠ 2) (h3 : (s.stand k).phase ≠ 3) :
    pauseStand s k = (s.onStand k fun x => { x with st := 1, phase := 5, pinReq := none }, false) :=
  (if_neg (by simp [h1, h2])).trans (if_neg (by simp [h3]))

theorem pauseStand_waits (hk : k < s.stands.length) (h : (s.stand k).phase = 1 ∨ (s.stand k).phase = 2) :
    (pauseStand s k).2 = true ∧ ((pauseStand s k).1.stand k).pauseReq = true ∧
      ((pauseStand s k).1.stand k).pinReq = none ∧ ((pauseStand s k).1.stand k).st = (s.stand k).st := by
  rw [pauseStand_of_away h, onStand_stand _ hk]
  exact ⟨rfl, rfl, rfl, rfl⟩

theorem pauseStand_pauses (hk : k < s.stands.length) (h1 : (s.stand k).phase ≠ 1) (h2 : (s.stand k).phase ≠ 2) :
    (pauseStand s k).2 = false ∧ ((pauseStand s k).1.stand k).st = 1 ∧ ((pauseStand s k).1.stand k).phase = 5 := by
  by_cases h3 : (s.stand k).phase = 3
  · rw [pauseStand_of_spareRest h3, onStand_stand _ (by simpa using hk), moveSpare_stand (by simpa using hk)]
    exact ⟨rfl, rfl, rfl⟩
  · rw [pauseStand_of_home h1 h2 h3, onStand_stand _ hk]
    exact ⟨rfl, rfl, rfl⟩

theorem pauseStand_onlyStand (s : State) (k : Nat) : OnlyStand k s (pauseStand s k).1 := by
  unfold pauseStand
  extract_lets d
  split
  · exact (OnlyStand.refl k s).onStand
  · split
    · exact (OnlyStand.refl k s).abortSpareRest.moveSpare.onStand
    · exact (OnlyStand.refl k s).onStand

/-! ### ROTATE -/

/-- The stand unpinned and ROTATING, with what waited withdrawn. -/
def State.rotating (s : State) (k : Nat) : State :=
  (s.unpin k).onStand k fun x => { x with st := 0, pauseReq := false, pinReq := none }

theorem rotateStand_eq (s : State) (k : Nat) : rotateStand s k =
    (if (s.stand k).st == 0 && !((s.stand k).phase == 0 && (s.stand k).pinReq.isSome) then s.rotating k
     else (s.rotating k).shadowFor k (nextSlot (s.stand k)), false) := by
  unfold rotateStand
  extract_lets d s1
  split <;> rfl

theorem rotateStand_rotates (hk : k < s.stands.length) :
    (rotateStand s k).2 = false ∧ ((rotateStand s k).1.stand k).st = 0 ∧
      ((rotateStand s k).1.stand k).pauseReq = false ∧ ((rotateStand s k).1.stand k).pinReq = none := by
  have h1 : (s.rotating k).stand k = { (s.unpin k).stand k with st := 0, pauseReq := false, pinReq := none } :=
    onStand_stand _ (by simpa using hk)
  rw [rotateStand_eq]
  refine ⟨rfl, ?_⟩
  split
  · rw [h1]
    exact ⟨rfl, rfl, rfl⟩
  · obtain ⟨hst, hpause, hpin⟩ := shadowFor_waits (s := s.rotating k) (k := k) (by simpa [State.rotating] using hk)
      (nextSlot (s.stand k))
    rw [hst, hpause, hpin, h1]
    exact ⟨rfl, rfl, rfl⟩

theorem rotateStand_onlyStand (s : State) (k : Nat) : OnlyStand k s (rotateStand s k).1 := by
  have h1 : OnlyStand k s (s.rotating k) := (OnlyStand.refl k s).unpin.onStand
  rw [rotateStand_eq]
  exact h1.ite h1.shadowFor

/-! ### PIN -/

theorem pinStand_of_pinned (hst : (s.stand k).st = 2) (hc : (s.stand k).pinChan = c) : pinStand c s k = (s, false) :=
  if_pos (by simp [hst, hc])

/-- The shadow serves the channel at once on the terms of its match. -/
theorem pinStand_of_match (hn : ¬((s.stand k).st = 2 ∧ (s.stand k).pinChan = c))
    (h : (shadowing s k c && spliceHolds s k c (matchLive s k (runMatch s k))) = true) : pinStand c s k =
      (((s.takeMatch k c (matchLive s k (runMatch s k)) (runMatch s k)).splice k c true).onStand k fun x =>
        { x with st := 2, pinChan := c, pinReq := none, phase := 6 }, false) :=
  (if_neg (by simpa using hn)).trans (if_pos h)

/-- The pin waits: for the splice back of a channel whose home pair is away, else for an overlap with its own channel. -/
theorem pinStand_of_no_match (hn : ¬((s.stand k).st = 2 ∧ (s.stand k).pinChan = c))
    (h : (shadowing s k c && spliceHolds s k c (matchLive s k (runMatch s k))) = false) : pinStand c s k =
      (if (s.stand k).phase == 1 || (s.stand k).phase == 2 then
        s.onStand k fun x => { x with pinReq := some c, pauseReq := false }
       else (((s.abortSpareRest k).unpin k).moveSpare k c 0).onStand k fun x => { x with pinReq := some c }, true) := by
  refine ((if_neg (by simpa using hn)).trans (if_neg (ne_true_of_eq_false h))).trans ?_
  split <;> rfl

theorem pinStand_splices (hk : k < s.stands.length) (hn : ¬((s.stand k).st = 2 ∧ (s.stand k).pinChan = c))
    (h : (shadowing s k c && spliceHolds s k c (matchLive s k (runMatch s k))) = true) :
    (pinStand c s k).2 = false ∧ ((pinStand c s k).1.stand k).st = 2 ∧ ((pinStand c s k).1.stand k).pinChan = c ∧
      ((pinStand c s k).1.stand k).carrying = true ∧ ((pinStand c s k).1.stand k).phase = 6 ∧
      ((pinStand c s k).1.stand k).splices = u32 ((s.stand k).splices + 1) := by
  rw [pinStand_of_match hn h, onStand_stand _ (by simpa using hk), splice_stand (by simpa using hk), takeMatch_stand hk]
  exact ⟨rfl, rfl, rfl, rfl, rfl, rfl⟩

theorem pinStand_waits (hk : k < s.stands.length) (hn : ¬((s.stand k).st = 2 ∧ (s.stand k).pinChan = c))
    (h : (shadowing s k c && spliceHolds s k c (matchLive s k (runMatch s k))) = false) :
    (pinStand c s k).2 = true ∧ ((pinStand c s k).1.stand k).pinReq = some c := by
  rw [pinStand_of_no_match hn h]
  refine ⟨rfl, ?_⟩
  split
  · rw [onStand_stand _ hk]
  · rw [onStand_stand _ (by simpa using hk)]

theorem pinStand_onlyStand (s : State) (k c : Nat) : OnlyStand k s (pinStand c s k).1 := by
  have h0 := OnlyStand.refl k s
  by_cases hn : (s.stand k).st = 2 ∧ (s.stand k).pinChan = c
  · rw [pinStand_of_pinned hn.1 hn.2]
    exact h0
  · cases h : shadowing s k c && spliceHolds s k c (matchLive s k (runMatch s k)) with
    | true =>
      rw [pinStand_of_match hn h]
      exact h0.takeMatch.splice.onStand
    | false =>
      rw [pinStand_of_no_match hn h]
      exact h0.onStand.ite h0.abortSpareRest.unpin.moveSpare.onStand

/-- Settles O28: each action is one case of its stand operation, and all that these use names the one stand; that ROTATE withdraws
what waits is the model's choice (assumption 51). -/
theorem standActionsMoveTheSpare : Obligations.StandActionsMoveTheSpare := fun s k hk4 hst => by
  have hk : k < s.stands.length := hst ▸ hk4
  refine ⟨⟨pauseStand_waits hk, pauseStand_pauses hk, (pauseStand_onlyStand s k).others, ?_⟩, ?_,
    fun c => ⟨pinStand_of_pinned, pinStand_splices hk, pinStand_waits hk, (pinStand_onlyStand s k c).others, ?_⟩,
    fun h => ?_⟩
  · exact (pauseStand_ch (.refl [.chans, .convs, .stands, .insts, .free] s) rfl).eq_pick
  · obtain ⟨hnow, h0, hpause, hpin⟩ := rotateStand_rotates hk
    exact ⟨hnow, h0, hpause, hpin, (rotateStand_onlyStand s k).others,
      (rotateStand_ch (.refl [.chans, .convs, .stands, .insts, .free] s) rfl).eq_pick⟩
  · exact (pinStand_ch (.refl [.chans, .convs, .stands, .insts, .free] s) rfl).eq_pick
  · rw [unpin_stand_of_pinned hk h]
    exact ⟨rfl, rfl, rfl, rfl, (OnlyStand.refl k s).unpin.others, (unpin_ch (.refl [.chans, .stands] s) rfl).eq_pick⟩

end Sys2Proof.Machine
end

section
/-! THEOREMS. COPPICE_CONTROL: query, pause, rotate, pin, unpin, shadow and requalify (R101 to R103, Tables 4-7 and 4-8; O27). -/

namespace Sys2Proof.Machine

variable {s : State} {h : Hdr} {stand k c : Nat}

/-! ### An action on one stand -/

/-- A STAND that an action on one stand takes is one of the four. -/
theorem lt_of_standBad {p : Stand → Bool} (hb : standBad s stand false p = false) : stand < 4 := by
  unfold standBad at hb
  split at hb
  · cases hb
  · simp only [Bool.or_eq_false_iff, decide_eq_false_iff_not] at hb
    omega

theorem coppiceAct_of_lt (h : stand < 4) (f : State → Nat → State × Bool) (s : State) :
    coppiceAct stand (fun _ => true) f s =
      ⟨(f s stand).1, if (f s stand).2 then .pending else .ok, coppiceReply (f s stand).1 stand⟩ := by
  have hl : standsOf stand = [stand] := if_neg (by simp; omega)
  simp [coppiceAct, hl]

/-! ### Query and the actions that a stand operation carries out -/

theorem execCoppiceQuery_of_opens (ho : Opens opCoppice h s) (hl : h.len = 4)
    (hb : standBad (s.accepted h) stand true (fun _ => true) = false) : exec (.coppiceQuery h stand false) s =
      .next ((s.accepted h).replied opCoppice h .ok (coppiceReply (s.accepted h) stand)) := by
  have he : exec (.coppiceQuery h stand false) s = execCoppiceQuery h stand false s := rfl
  rw [he, execCoppiceQuery, serve_opens ho (beq_iff_eq.2 hl) (by simp [firstFail, hb])]

theorem execCoppicePause_of_opens (ho : Opens opCoppice h s) (hl : h.len = 4) (hk : locked (s.accepted h) = false)
    (hb : standBad (s.accepted h) stand true (fun d => d.st == 0) = false) : exec (.coppicePause h stand) s =
      let a := coppiceAct stand (fun d => d.st == 0) pauseStand (s.accepted h)
      .next (a.s.replied opCoppice h a.st a.bytes) := by
  have he : exec (.coppicePause h stand) s = execCoppicePause h stand s := rfl
  rw [he, execCoppicePause, serve_opens ho (beq_iff_eq.2 hl) (by simp [firstFail, hk, hb])]

theorem execCoppiceRotate_of_opens (ho : Opens opCoppice h s) (hl : h.len = 4) (hk : locked (s.accepted h) = false)
    (hb : standBad (s.accepted h) stand true (fun d => d.st ≤ 2) = false) : exec (.coppiceRotate h stand) s =
      let a := coppiceAct stand (fun d => d.st ≤ 2) rotateStand (s.accepted h)
      .next (a.s.replied opCoppice h a.st a.bytes) := by
  have he : exec (.coppiceRotate h stand) s = execCoppiceRotate h stand s := rfl
  rw [he, execCoppiceRotate, serve_opens ho (beq_iff_eq.2 hl) (by simp [firstFail, hk, hb])]

theorem execCoppicePin_of_opens (ho : Opens opCoppice h s) (hl : h.len = 4) (hk : locked (s.accepted h) = false)
    (hb : standBad (s.accepted h) stand false (fun d => d.st ≤ 2) = false) (hc : c ≤ 35) (hs : standOf c = stand) :
    exec (.coppicePin h stand c) s = .next ((pinStand c (s.accepted h) stand).1.replied opCoppice h
      (if (pinStand c (s.accepted h) stand).2 then .pending else .ok)
      (coppiceReply (pinStand c (s.accepted h) stand).1 stand)) := by
  have he : exec (.coppicePin h stand c) s = execCoppicePin h stand c s := rfl
  rw [he, execCoppicePin, serve_opens ho (beq_iff_eq.2 hl) (by simp [firstFail, hk, hb, hc, hs]),
    coppiceAct_of_lt (lt_of_standBad hb)]

theorem execCoppiceUnpin_of_opens (ho : Opens opCoppice h s) (hl : h.len = 4) (hk : locked (s.accepted h) = false)
    (hb : standBad (s.accepted h) stand false (fun d => d.st == 2) = false) : exec (.coppiceUnpin h stand) s =
      .next (((s.accepted h).unpin stand).replied opCoppice h .ok (coppiceReply ((s.accepted h).unpin stand) stand)) := by
  have he : exec (.coppiceUnpin h stand) s = execCoppiceUnpin h stand s := rfl
  rw [he, execCoppiceUnpin, serve_opens ho (beq_iff_eq.2 hl) (by simp [firstFail, hk, hb]),
    coppiceAct_of_lt (lt_of_standBad hb)]
  rfl

theorem execCoppiceShadow_answers (ho : Opens opCoppice h s) (hl : h.len = 4) (hk : locked (s.accepted h) = false)
    (hb : standBad (s.accepted h) stand false (fun d => d.st == 1) = false) (hc : c ≤ 35) (hs : standOf c = stand) :
    Answers (.coppiceShadow h stand c) s opCoppice h .ok fun v bs =>
      v = (((s.accepted h).moveSpare stand c 5).onStand stand fun x => { x with pinReq := none }) ∧
      bs = coppiceReply v stand := by
  have he : exec (.coppiceShadow h stand c) s = execCoppiceShadow h stand c s := rfl
  refine ⟨_, _, ?_, rfl, rfl⟩
  rw [he, execCoppiceShadow, serve_opens ho (beq_iff_eq.2 hl) (by simp [firstFail, hk, hb, hc, hs]),
    coppiceAct_of_lt (lt_of_standBad hb)]
  rfl

/-! ### Requalification (R101) -/

@[simp] theorem endRequal_stands_length (s : State) (k : Nat) : (s.endRequal k).stands.length = s.stands.length := by
  unfold State.endRequal
  split
  · rfl
  · split
    · exact modAt_length _ _ _
    · exact modAt_length _ _ _

/-- A spare whose requalification is replaced rests no more; a stand whose home pair was under test keeps its phase. -/
theorem endRequal_phase (hk : k < s.stands.length) : ((s.endRequal k).stand k).phase =
    if (s.stand k).requal.any (36 ≤ ·) then 5 else (s.stand k).phase := by
  unfold State.endRequal
  cases hq : (s.stand k).requal with
  | none => rfl
  | some v =>
    by_cases hv : v < 36
    · simp [hv, hk]
    · simp [hv, hk, Nat.not_lt.1 hv]

@[simp] theorem restBegin_stands_length (s : State) (k v : Nat) : (s.restBegin k v).stands.length = s.stands.length :=
  modAt_length _ _ _

/-- A requalification of a converter begun in a stand, in place of one that ran there. -/
def State.requalBegun (s : State) (k c : Nat) : State :=
  ((s.endRequal k).restBegin k c).onStand k fun x =>
    if c < 36 then { x with requal := some c }
    else { x.rematch with requal := some c, old := none, phase := 3, spareChan := 0xFE }

/-- The rest of the converter under test starts from SHORT; a spare leaves its channel for it. -/
theorem requalBegun_stand (hk : k < s.stands.length) :
    ((s.requalBegun k c).stand k).requal = some c ∧ ((s.requalBegun k c).stand k).dac = 0 ∧
      ((s.requalBegun k c).stand k).meas = List.replicate 8 (0, 0) ∧
      ((s.requalBegun k c).stand k).phase =
        if c < 36 then (if (s.stand k).requal.any (36 ≤ ·) then 5 else (s.stand k).phase) else 3 := by
  rw [State.requalBegun, onStand_stand _ (by simpa using hk), restBegin_stand (by simpa using hk), ← endRequal_phase hk]
  split
  · exact ⟨rfl, rfl, rfl, rfl⟩
  · exact ⟨rfl, rfl, rfl, rfl⟩

/-- A converter but for its unsettled samples. -/
def Conv.settled (x : Conv) : Conv := { x with unsP := 0, unsW := 0 }

theorem Conv.eq_of_settled {x y : Conv} (h : x.settled = y.settled) : x = { y with unsP := x.unsP, unsW := x.unsW } := by
  cases x
  cases y
  simpa [Conv.settled] using h

theorem requalBegun_conv (s : State) (k c v : Nat) : (s.requalBegun k c).conv v =
    { s.conv v with unsP := ((s.requalBegun k c).conv v).unsP, unsW := ((s.requalBegun k c).conv v).unsW } := by
  have h0 : Keeps Conv.settled (fun _ => ()) s s := .refl _ _ s
  have h1 : Keeps Conv.settled (fun _ => ()) s (s.endRequal k) := by
    unfold State.endRequal
    split
    · exact h0
    · exact Keeps.ite (Keeps.onConv (Keeps.onStand h0 fun _ => rfl) fun _ => rfl) (Keeps.onStand h0 fun _ => rfl)
  have h2 : Keeps Conv.settled (fun _ => ()) s (s.requalBegun k c) :=
    Keeps.onStand (Keeps.onConv (Keeps.onStand h1 fun _ => rfl) fun _ => rfl) fun _ => rfl
  exact Conv.eq_of_settled (h2.conv v)

theorem requalBegun_changes (s : State) (k c : Nat) : Changes [.convs, .stands] s (s.requalBegun k c) :=
  onStand_ch (restBegin_ch (endRequal_ch (.refl _ _) rfl) rfl) rfl

theorem execCoppiceRequalify_answers (ho : Opens opCoppice h s) (hl : h.len = 4) (hk : locked (s.accepted h) = false)
    (hw : canWrite (s.accepted h) h.path 2 = true)
    (hb : standBad (s.accepted h) stand false (fun d => d.st == 3) = false) (hc : c ≤ 39) (hs : standOfConv c = stand)
    (hcond : condemned (s.accepted h) c = true) (hst : (s.accepted h).stands.length = 4) :
    Answers (.coppiceRequalify h stand c) s opCoppice h .pending fun v bs =>
      (v.stand stand).requal = some c ∧ (v.stand stand).dac = 0 ∧ bs = coppiceReply v stand ∧
      (v.stand stand).meas = List.replicate 8 (0, 0) ∧
      (v.stand stand).phase = (if c < 36 then
          (if (s.stand stand).requal.any (36 ≤ ·) then 5 else (s.stand stand).phase) else 3) ∧
      (v.conv c) = { (s.accepted h).conv c with unsP := (v.conv c).unsP, unsW := (v.conv c).unsW } ∧
      (∀ j, j ≠ stand → v.stand j = s.stand j) ∧ v = { s.accepted h with stands := v.stands, convs := v.convs } := by
  have h4 : stand < (s.accepted h).stands.length := hst ▸ lt_of_standBad hb
  have hstand (j : Nat) : (s.accepted h).stand j = s.stand j := by rw [State.stand, accepted_stands, State.stand]
  have he : exec (.coppiceRequalify h stand c) s = execCoppiceRequalify h stand c s := rfl
  obtain ⟨hrequal, hdac, hmeas, hphase⟩ := requalBegun_stand (c := c) h4
  rw [hstand] at hphase
  refine ⟨(s.accepted h).requalBegun stand c, _, ?_, hrequal, hdac, rfl, hmeas, hphase, requalBegun_conv .., fun j hj => ?_,
    (requalBegun_changes ..).eq_pick⟩
  · rw [he, execCoppiceRequalify, serve_opens ho (beq_iff_eq.2 hl) (by simp [firstFail, hk, hw, hb, hc, hs, hcond]),
      coppiceAct_of_lt (lt_of_standBad hb)]
    rfl
  · rw [← hstand j]
    exact (OnlyStand.refl stand (s.accepted h)).endRequal.restBegin.onStand.others j hj

/-- Settles O27: the interpreter carries each action out on the accepted state by its stand operation; that a second REQUALIFY
replaces the first is the model's choice (assumption 51). -/
theorem coppiceControlRequests : Obligations.CoppiceControlRequests := fun _ _ _ hl ho =>
  ⟨execCoppiceQuery_of_opens ho hl, execCoppicePause_of_opens ho hl, execCoppiceRotate_of_opens ho hl,
    fun _ => execCoppicePin_of_opens ho hl, execCoppiceUnpin_of_opens ho hl, fun _ => execCoppiceShadow_answers ho hl,
    fun _ => execCoppiceRequalify_answers ho hl⟩

end Sys2Proof.Machine
end

section
/-! THEOREMS. The rest of a converter: its sources, its acceptance, its new trims, and a requalification (R91 to R93, R96,
R101; O26). -/

namespace Sys2Proof.Machine

variable {s t : State} {v : Nat} {r : Rest}

/-! ### The trims that a rest gives, and what counting it leaves (R91, R92) -/

/-- The trims formed from a rest's measurements, at the gain code of the rest. -/
def restTrims (s : State) (v : Nat) (r : Rest) : Trim :=
  ⟨roundAway (256 * r.z), restTrim r, restCode s v,
    (restCode s v, s.clk) :: (s.conv v).trim.cals.filter (fun e => e.1 != restCode s v)⟩

theorem newTrims_conv (hv : v < s.convs.length) :
    (s.newTrims v r).conv v = { s.conv v with trim := restTrims s v r } := onConv_conv _ hv

/-- A rest is held at a gain code that follows from parameters alone. -/
theorem restCode_of_changes (h : Changes [.convs, .stands, .free] s t) (v : Nat) : restCode t v = restCode s v := by
  have hg : chanGain t = chanGain s := by
    funext c
    unfold chanGain par parReset factoryVal factoryImage
    rw [h.pr rfl, h.up rfl, h.nt rfl, h.pw rfl]
  unfold restCode spareCode
  rw [hg]

theorem restCount_changes (s : State) (k v : Nat) (r : Rest) : Changes [.convs, .stands, .free] s (s.restCount k v r) :=
  restCount_ch (.refl _ _) rfl

@[simp] theorem restCount_convs (s : State) (k v : Nat) (r : Rest) :
    (s.restCount k v r).convs = modAt s.convs v fun x => { x with rests := x.rests + 1 } := by
  unfold State.restCount
  extract_lets s1
  cases r.inl with
  | none => rfl
  | some i => rfl

theorem restCount_conv (hv : v < s.convs.length) (k : Nat) (r : Rest) :
    (s.restCount k v r).conv v = { s.conv v with rests := (s.conv v).rests + 1 } := by
  rw [State.conv, restCount_convs]
  exact modAt_getD_self _ _ _ _ hv

/-- Of its stand a counted rest sets LAST_INL at most. -/
theorem restCount_keepsStands {β : Type} {f : Stand → β} (h : ∀ x n, f { x with lastInl := n } = f x) (s : State) (k v : Nat)
    (r : Rest) : (s.restCount k v r).stands.map f = s.stands.map f := by
  unfold State.restCount
  extract_lets s1
  cases r.inl with
  | none => rfl
  | some i => exact map_modAt_of_keeps (fun x => h x _) _ _

@[simp] theorem restCount_stands_length (s : State) (k v : Nat) (r : Rest) :
    (s.restCount k v r).stands.length = s.stands.length := by
  simpa using congrArg List.length (restCount_keepsStands (f := fun _ => ()) (fun _ _ => rfl) s k v r)

/-- The trims formed are the same once the rest is counted and the stand has moved on. -/
theorem restTrims_of_counted (h : Changes [.convs, .stands, .free] s t) (hc : (t.conv v).trim = (s.conv v).trim) :
    restTrims t v r = restTrims s v r := by
  rw [restTrims, restTrims, restCode_of_changes h, h.clk rfl, hc]

/-! ### The source moves on (R92, Table 4-2) -/

theorem execRestSourceSwitch_brings {k : Fin 4} (hk : k < s.stands.length) (hv : v < s.convs.length)
    (hr : resting s k = some v) (h8 : (s.stand k).dac ≠ 8) (hn : levelTo (s.stand k).dac ≤ (s.stand k).dacN) :
    Gives (.restSourceSwitch k) s fun t =>
      t.stand k = { s.stand k with dac := nextLevel (linDue s k v) (s.stand k).dac, dacN := 0 } ∧
      t.conv v = { s.conv v with unsP := 68, unsW := 24 } ∧ (∀ j, j ≠ k.val → t.stand j = s.stand j) ∧
      (∀ w, w ≠ v → t.conv w = s.conv w) ∧ t = { s with stands := t.stands, convs := t.convs } := by
  have he : exec (.restSourceSwitch k) s = .next ((s.onStand k fun d =>
      { d with dac := nextLevel (linDue s k v) d.dac, dacN := 0 }).unsettle v) := by
    have he : exec (.restSourceSwitch k) s = execRestSourceSwitch k s := rfl
    rw [he, execRestSourceSwitch, hr]
    exact if_neg (by simp [h8, hn])
  refine ⟨_, he, ?_, ?_, (OnlyStand.refl k s).onStand.unsettle.others, fun w hw => ?_, rfl⟩
  · rw [unsettle_stand, onStand_stand _ hk]
  · exact unsettle_conv hv
  · exact onConv_conv_ne _ _ hw

/-! ### Acceptance (R93, R96) -/

/-- The rest counted as judged, with its measurements used up. -/
def State.restJudged (s : State) (k v : Nat) (r : Rest) : State :=
  (s.restCount k v r).onStand k fun x => { x with meas := List.replicate 8 (0, 0) }

theorem restJudged_changes (s : State) (k v : Nat) (r : Rest) : Changes [.convs, .stands, .free] s (s.restJudged k v r) :=
  onStand_ch (restCount_changes ..) rfl

/-- A judged rest leaves the state of its stand, and which converters are condemned there. -/
theorem restJudged_stand (s : State) (k v : Nat) (r : Rest) (j : Nat) :
    ((s.restJudged k v r).stand j).st = (s.stand j).st ∧
      ((s.restJudged k v r).stand j).condemned = (s.stand j).condemned := by
  have hcount := stand_of_map (restCount_keepsStands (f := fun d => (d.st, d.condemned)) (fun _ _ => rfl) s k v r) j
  have hmeas := onStand_keeps (g := fun d : Stand => (d.st, d.condemned))
    (f := fun x => { x with meas := List.replicate 8 (0, 0) }) (fun _ => rfl) (s.restCount k v r) k j
  exact Prod.mk.inj (hmeas.trans hcount)

/-- A rest of a stand has come to its acceptance with all its measurements. -/
structure RestDue (s : State) (k v : Nat) (r : Rest) : Prop where
  taken : (s.stand k).skip = false
  scheduled : (s.stand k).requal = none
  due : slotAt (s.stand k) (acceptAt (s.stand k)) = true
  rests : resting s k = some v
  measured : restOf s k v = some r

theorem execRestAcceptance_of_due {k : Fin 4} (h : RestDue s k v r) : exec (.restAcceptance k) s = .next
    (if restPasses s v r then (s.restJudged k v r).newTrims v r else (s.restJudged k v r).condemn v 0) := by
  obtain ⟨hskip, hrequal, hdue, hrest, hmeas⟩ := h
  have he : exec (.restAcceptance k) s = execRestAcceptance k s := rfl
  refine (he.trans (if_neg (by simp [hskip, hrequal, hdue]))).trans ?_
  rw [hrest]
  dsimp only
  rw [hmeas, apply_ite Host.Outcome.next]
  rfl

theorem execRestAcceptance_passes {k : Fin 4} (hv : v < s.convs.length) (h : RestDue s k v r) (hp : restPasses s v r = true) :
    Gives (.restAcceptance k) s fun t =>
      (t.conv v).trim = restTrims s v r ∧ (t.conv v).rests = (s.conv v).rests + 1 ∧
      (t.stand k).condemned = (s.stand k).condemned ∧
      t = { s with convs := t.convs, stands := t.stands, free := t.free } := by
  have he := execRestAcceptance_of_due h
  rw [if_pos hp] at he
  have hj : (s.restJudged k v r).conv v = _ := restCount_conv hv k r
  have hc : ((s.restJudged k v r).newTrims v r).conv v = _ := newTrims_conv (by simpa [State.restJudged] using hv)
  refine ⟨_, he, ?_, ?_, (restJudged_stand s k v r k).2, ?_⟩
  · rw [hc]
    exact restTrims_of_counted (restJudged_changes ..) (by rw [hj])
  · rw [hc, hj]
  · exact (newTrims_ch (restJudged_changes s k v r) rfl).eq_pick

theorem execRestAcceptance_condemns {k : Fin 4} (hk : k < s.stands.length) (hv : v < s.convs.length)
    (hs : standOfConv v = k) (hst : (s.stand k).st ≠ 4) (h : RestDue s k v r) (hp : restPasses s v r = false) :
    Gives (.restAcceptance k) s fun t =>
      condemned t v = true ∧ (t.conv v).rests = (s.conv v).rests + 1 ∧
      t = { s with hw := t.hw, wd := t.wd, chans := t.chans, convs := t.convs, stands := t.stands, filts := t.filts,
                   insts := t.insts, free := t.free } := by
  have he := execRestAcceptance_of_due h
  rw [if_neg (ne_true_of_eq_false hp)] at he
  refine ⟨_, he, condemned_condemn ?_ ?_, ?_, ?_⟩
  · rw [hs]
    simpa [State.restJudged] using hk
  · rw [hs, (restJudged_stand s k v r k).1]
    exact hst
  · rw [(condemn_keepsRests _ v 0).conv v, State.restJudged, onStand_conv, restCount_conv hv]
  · have hj : Changes [.hw, .wd, .chans, .convs, .stands, .filts, .insts, .free] s (s.restJudged k v r) :=
      (restJudged_changes ..).mono rfl
    exact (condemn_ch hj rfl).eq_pick

/-! ### The result of a requalification (R101) -/

theorem bitAt_clrBit_self (v b : Nat) : bitAt (clrBit v b) b = false := by
  unfold clrBit
  split
  next h =>
    simp only [bitAt, beq_iff_eq, beq_eq_false_iff_ne] at h ⊢
    have hle : 2 ^ b ≤ v := by
      by_contra hlt
      rw [Nat.div_eq_of_lt (Nat.lt_of_not_le hlt)] at h
      cases h
    have hd : (v - 2 ^ b) / 2 ^ b = v / 2 ^ b - 1 := by simpa using Nat.sub_mul_div v (2 ^ b) 1
    omega
  next h => simpa using h

/-- The test of a requalification is over, and its rest is counted. -/
def State.requalJudged (s : State) (k v : Nat) (r : Rest) : State :=
  (s.restCount k v r).onStand k fun d =>
    { d with requal := none, old := if v < 36 then d.old else none, phase := if v < 36 then d.phase else 5,
             spareChan := if v < 36 then d.spareChan else 0xFF }

/-- The converter that passed has its new trims, is no longer STUCK or condemned, and its pass is logged. -/
def State.requalCleared (s : State) (k v : Nat) (r : Rest) : State :=
  (((((s.requalJudged k v r).newTrims v r).onConv v fun x => { x with stuck := false }).onStand k fun d =>
    { d with condemned := clrBit d.condemned (condBit v) }).storeDevice).log 0x0302
      (le 1 v ++ le 1 (if v < 36 then v else 0xFF))

theorem execRequalifyResult_of_measured {k : Fin 4} (hq : (s.stand k).requal = some v) (hm : restOf s k v = some r) :
    exec (.requalifyResult k) s = .next (
      if restPasses s v r then
        if v < 36 then (s.requalCleared k v r).requalHome k v else (s.requalCleared k v r).requalSpare k
      else ((s.requalJudged k v r).onStand k fun d => { d with old := none }).coppiceDone k) := by
  have he : exec (.requalifyResult k) s = execRequalifyResult k s := rfl
  rw [he, execRequalifyResult]
  dsimp only
  rw [hq]
  dsimp only
  rw [hm, apply_ite Host.Outcome.next]
  rfl

theorem requalJudged_changes (s : State) (k v : Nat) (r : Rest) :
    Changes [.convs, .stands, .free] s (s.requalJudged k v r) := onStand_ch (restCount_changes ..) rfl

@[simp] theorem requalJudged_stands_length (s : State) (k v : Nat) (r : Rest) :
    (s.requalJudged k v r).stands.length = s.stands.length := by
  simp [State.requalJudged]

theorem requalJudged_tests {k : Nat} (hk : k < s.stands.length) (v : Nat) (r : Rest) :
    ((s.requalJudged k v r).stand k).requal = none ∧
      ((s.requalJudged k v r).stand k).condemned = (s.stand k).condemned := by
  rw [State.requalJudged, onStand_stand _ (by simpa using hk)]
  exact ⟨rfl, stand_of_map (g := Stand.condemned) (restCount_keepsStands (fun _ _ => rfl) s k v r) k⟩

/-- The requalified converter has the new trims of a counted rest, and its bit of CONDEMNED is clear. -/
theorem requalCleared_brings {k : Nat} (hk : k < s.stands.length) (hv : v < s.convs.length) (r : Rest) :
    ((s.requalCleared k v r).conv v).calibration = (restTrims s v r, (s.conv v).rests + 1) ∧
      ((s.requalCleared k v r).stand k).tests = (none, clrBit (s.stand k).condemned (condBit v)) := by
  obtain ⟨hrequal, hcond⟩ := requalJudged_tests hk v r
  have hj : (s.requalJudged k v r).conv v = _ := restCount_conv hv k r
  have hstore (z : State) (d : List Byte) : Changes [.hw, .wd] z (z.storeDevice.log 0x0302 d) :=
    log_ch (storeDevice_ch (.refl _ _) rfl) rfl
  refine ⟨?_, ?_⟩
  · have hn := newTrims_conv (s := s.requalJudged k v r) (v := v) (r := r) (by simpa [State.requalJudged] using hv)
    rw [State.requalCleared, (hstore ..).conv rfl, onStand_conv,
      onConv_conv _ (by simpa [State.newTrims, State.requalJudged] using hv), hn, hj,
      restTrims_of_counted (requalJudged_changes ..) (by rw [hj])]
    rfl
  · rw [State.requalCleared, (hstore ..).stand rfl, onStand_stand _ (by simpa [State.newTrims] using hk), onConv_stand,
      State.newTrims, onConv_stand, Stand.tests, hrequal, hcond]

theorem requalCleared_changes (s : State) (k v : Nat) (r : Rest) :
    Changes [.hw, .wd, .convs, .stands, .free] s (s.requalCleared k v r) :=
  log_ch (storeDevice_ch (onStand_ch (onConv_ch (newTrims_ch ((requalJudged_changes s k v r).mono rfl) rfl) rfl) rfl) rfl) rfl

theorem execRequalifyResult_passes {k : Fin 4} (hk : k < s.stands.length) (hv : v < s.convs.length)
    (hq : (s.stand k).requal = some v) (hm : restOf s k v = some r) (hp : restPasses s v r = true) :
    Gives (.requalifyResult k) s fun t =>
      (t.stand k).requal = none ∧ bitAt (t.stand k).condemned (condBit v) = false ∧ (t.conv v).trim = restTrims s v r ∧
      (t.conv v).rests = (s.conv v).rests + 1 ∧
      t = { s with hw := t.hw, wd := t.wd, chans := t.chans, convs := t.convs, stands := t.stands, filts := t.filts,
                   insts := t.insts, free := t.free } := by
  have he := execRequalifyResult_of_measured hq hm
  rw [if_pos hp] at he
  obtain ⟨hcal, htests⟩ := requalCleared_brings hk hv r
  have hlen : k < (s.requalCleared k v r).stands.length := by
    rw [State.requalCleared, (log_ch (storeDevice_ch (.refl [.hw, .wd] _) rfl) rfl).stands rfl]
    simpa [State.newTrims] using hk
  have h0 := Keeps.refl Conv.calibration Stand.tests (s.requalCleared k v r)
  have hkeep := (requalHome_keepsTests (k := k) (v := v) h0).ite (p := v < 36) (requalSpare_keepsTests hlen h0)
  have hc := (hkeep.conv v).trans hcal
  have ht := (hkeep.stand k).trans htests
  simp only [Conv.calibration, Stand.tests, Prod.mk.injEq] at hc ht
  obtain ⟨htrim, hrests⟩ := hc
  obtain ⟨hrequal, hcond⟩ := ht
  have hch : Changes [.hw, .wd, .chans, .convs, .stands, .filts, .insts, .free] s (s.requalCleared k v r) :=
    (requalCleared_changes s k v r).mono rfl
  refine ⟨_, he, hrequal, ?_, htrim, hrests, ?_⟩
  · rw [hcond]
    exact bitAt_clrBit_self _ _
  · exact (ch_ite (fun _ => requalHome_ch hch rfl) fun _ => requalSpare_ch hch rfl).eq_pick

theorem execRequalifyResult_fails {k : Fin 4} (hk : k < s.stands.length) (hv : v < s.convs.length)
    (hq : (s.stand k).requal = some v) (hm : restOf s k v = some r) (hp : restPasses s v r = false) :
    Gives (.requalifyResult k) s fun t =>
      (t.stand k).requal = none ∧ (t.stand k).condemned = (s.stand k).condemned ∧ (t.conv v).trim = (s.conv v).trim ∧
      (t.conv v).rests = (s.conv v).rests + 1 ∧
      t = { s with stands := t.stands, convs := t.convs, wd := t.wd, free := t.free } := by
  have he := execRequalifyResult_of_measured hq hm
  rw [if_neg (ne_true_of_eq_false hp)] at he
  obtain ⟨hrequal, hcond⟩ := requalJudged_tests hk v r
  have ht : (((s.requalJudged k v r).onStand k fun d => { d with old := none }).coppiceDone k).stand k = _ :=
    (coppiceDone_stand ..).trans (onStand_stand _ (by simpa using hk))
  have hc : (((s.requalJudged k v r).onStand k fun d => { d with old := none }).coppiceDone k).conv v = _ :=
    ((coppiceDone_ch (.refl [.wd] _) rfl).conv rfl v).trans (restCount_conv hv k r)
  refine ⟨_, he, ?_, ?_, ?_, ?_, ?_⟩
  · rw [ht, hrequal]
  · rw [ht, hcond]
  · rw [hc]
  · rw [hc]
  · have hj : Changes [.stands, .convs, .wd, .free] s (s.requalJudged k v r) := (requalJudged_changes ..).mono rfl
    exact (coppiceDone_ch (onStand_ch hj rfl) rfl).eq_pick

/-- Settles O26: each result is one count of the rest, and behind it the new trims, the condemnation or the return that the verdict
brings, of which none touches the counts, and a return neither trims nor condemnations. -/
theorem restsCalibrateConverters : Obligations.RestsCalibrateConverters := fun s k hst hcv _ => by
  have hk : k < s.stands.length := by rw [hst]; exact k.isLt
  have hlt {v : Nat} (hv : v < 40) : v < s.convs.length := hcv ▸ hv
  refine ⟨fun v hr hv => execRestSourceSwitch_brings hk (hlt hv) hr, fun v r hskip hq hd hr hv hm hp => ?_,
    fun v r hskip hq hd hr hv hs h4 hm hp => ?_, fun v r hq hv hm hp => ?_, fun v r hq hv hm hp => ?_⟩
  · exact execRestAcceptance_passes (hlt hv) ⟨hskip, hq, hd, hr, hm⟩ hp
  · exact execRestAcceptance_condemns hk (hlt hv) hs h4 ⟨hskip, hq, hd, hr, hm⟩ hp
  · exact execRequalifyResult_passes hk (hlt hv) hq hm hp
  · exact execRequalifyResult_fails hk (hlt hv) hq hm hp

end Sys2Proof.Machine
end

section
/-! LEMMAS. What a reading of the channels keeps. -/

namespace Sys2Proof.Machine

variable {β : Type} {g : Chan → β} {z s t : State} {c : Nat}

/-- From `z` to `t` every channel keeps what `g` reads of it. -/
structure KeepsChans (g : Chan → β) (z t : State) : Prop where
  chans : t.chans.map g = z.chans.map g

theorem KeepsChans.refl (g : Chan → β) (s : State) : KeepsChans g s s := ⟨rfl⟩

theorem KeepsChans.trans (h : KeepsChans g z s) (i : KeepsChans g s t) : KeepsChans g z t := ⟨i.chans.trans h.chans⟩

theorem KeepsChans.chan (h : KeepsChans g z t) (c : Nat) : g (t.chan c) = g (z.chan c) := by
  have hm (s : State) : g (s.chan c) = (s.chans.map g).getD c (g Chan.reset) := by
    rw [State.chan, List.getD_map]
  rw [hm, hm, h.chans]

theorem KeepsChans.of_changes {q : List Part} (H : KeepsChans g z s) (h : Changes q s t) (hq : q.contains .chans = false) :
    KeepsChans g z t :=
  H.trans ⟨by rw [h.chans hq]⟩

theorem KeepsChans.onChan {f : Chan → Chan} (H : KeepsChans g z s) (h : ∀ x, g (f x) = g x) : KeepsChans g z (s.onChan c f) :=
  H.trans ⟨map_modAt_of_keeps h _ _⟩

theorem KeepsChans.ite {p : Prop} [Decidable p] {a b : State} (ha : KeepsChans g z a) (hb : KeepsChans g z b) :
    KeepsChans g z (if p then a else b) := by
  split
  · exact ha
  · exact hb

end Sys2Proof.Machine
end

section
/-! THEOREMS. Path checks: queued once for each channel, started while the test DAC is free, judged when the probe is complete
(R107 to R112, R114, R124, Table 5-7; O29). -/

namespace Sys2Proof.Machine

variable {s : State} {h : Hdr} {c : Check} {l r : List Check} {k n : Nat}

/-! ### A stand's queue (R111) -/

theorem insertCheck_perm (l : List Check) (c : Check) : (insertCheck l c).Perm (c :: l) := by
  induction l with
  | nil => exact .refl _
  | cons x r ih =>
    unfold insertCheck
    split
    · exact .refl _
    · exact (ih.cons x).trans (.swap c x r)

theorem countP_insertCheck (p : Check → Bool) (l : List Check) (c : Check) :
    (insertCheck l c).countP p = l.countP p + if p c then 1 else 0 := by
  rw [(insertCheck_perm l c).countP_eq, List.countP_cons]

theorem standOf_lt {c : Nat} (hc : c ≤ 35) : standOf c < 4 := by
  unfold standOf
  split <;> omega

/-- A channel that is pending at most once is pending exactly once behind a request for its check. -/
theorem queueCheck_once (hk : standOf c.chan < s.stands.length)
    (h1 : (s.stand (standOf c.chan)).queue.countP (fun x => x.chan == c.chan) ≤ 1) :
    ((s.queueCheck c).stand (standOf c.chan)).queue.countP (fun x => x.chan == c.chan) = 1 := by
  rw [State.queueCheck, onStand_stand _ hk]
  generalize s.stand (standOf c.chan) = d at h1 ⊢
  split
  next hf =>
    have h0 : d.queue.countP (fun x => x.chan == c.chan) = 0 := List.countP_eq_zero.2 (List.find?_eq_none.1 hf)
    simp [countP_insertCheck, h0]
  next x hf =>
    extract_lets y
    split
    · have hp : 0 < d.queue.countP (fun x => x.chan == c.chan) :=
        List.countP_pos_iff.2 ⟨x, List.mem_of_find?_eq_some hf, by simpa using List.find?_some hf⟩
      have hsame : (fun x : Check => x.chan == c.chan) ∘ (fun z => if z.chan == c.chan then y else z) =
          fun x => x.chan == c.chan := by
        funext z
        rw [Function.comp_apply]
        split
        next hz => rw [hz, beq_self_eq_true]
        next => rfl
      rw [List.countP_map, hsame]
      omega
    · simp [countP_insertCheck, List.countP_filter, y]

theorem checkPosition_pos {c : Nat} (hq : (s.stand (standOf c)).queue.countP (fun x => x.chan == c) = 1) :
    1 ≤ checkPosition s c := by
  have ha : (s.stand (standOf c)).queue.any (fun x => x.chan == c) = true := by
    rw [List.any_eq_true]
    exact List.countP_pos_iff.1 (by omega)
  rw [checkPosition, if_pos ha]
  exact Nat.le_add_left 1 _

/-! ### PATH_CHECK (R111, R124) -/

theorem execPathCheck_answers {c : Nat} (ho : Opens opPathCheck h s) (hl : h.len = 4) (hc : c ≤ 35)
    (hs : chanSource (s.accepted h) c = 0) : Answers (.pathCheck h c false) s opPathCheck h .pending fun v bs =>
      v = (s.accepted h).queueCheck ⟨[4], c, false, false⟩ ∧ bs = le 1 (checkPosition v c) ++ zeros 1 :=
  answers_of (lenOk := h.len == 4) (act := pathCheckAct c false) rfl ho (beq_iff_eq.2 hl)
    (by simp [firstFail, checkChanBad, hc, hs]) rfl ⟨rfl, rfl⟩

theorem execPathCheckBaseline_answers {c : Nat} (ho : Opens opPathCheck h s) (hl : h.len = 4) (hc : c ≤ 35)
    (hs : chanSource (s.accepted h) c = 0) (hk : locked (s.accepted h) = false)
    (hw : canWrite (s.accepted h) h.path 2 = true) :
    Answers (.pathCheckBaseline h c) s opPathCheck h .pending fun v bs =>
      v = (s.accepted h).queueCheck ⟨[4], c, true, false⟩ ∧ bs = le 1 (checkPosition v c) ++ zeros 1 :=
  answers_of (lenOk := h.len == 4) (act := pathCheckAct c true) rfl ho (beq_iff_eq.2 hl)
    (by simp [firstFail, checkChanBad, hc, hs, hk, hw]) rfl ⟨rfl, rfl⟩

/-! ### A check starts (R110, R111) -/

/-- Nothing is skipped while the check at the head of the queue is one of a NORMAL channel. -/
theorem skipChecks_of_normal (hq : (s.stand k).queue = c :: r) (hc : chanSource s c.chan = 0) (n : Nat) :
    skipChecks s k n = s := by
  cases n with
  | zero => rfl
  | succ n => simp [skipChecks, hq, hc]

theorem execPathCheckStart_of_free {k : Fin 4} (h3 : 3 ≤ s.pw.stage) (hd : dacFree (s.stand k) = true)
    (hq : (s.stand k).queue = c :: r) (hc : chanSource s c.chan = 0) : exec (.pathCheckStart k) s =
      .next (s.onStand k fun d => { d with active := some c, queue := r, probe := [], probeBad := false }) := by
  have he : exec (.pathCheckStart k) s = execPathCheckStart k s := rfl
  rw [he, execPathCheckStart]
  extract_lets s1
  have hs1 : s1 = s := skipChecks_of_normal hq hc _
  rw [if_neg (by simp [hd, Nat.not_lt.2 h3]), hs1, hq]
  rfl

/-! ### A check ends (R107 to R109, R114) -/

/-- A check that has ended leaves the stand and gives its result, before the sequences that it served move on. -/
def State.checkJudged (s : State) (k : Nat) (c : Check) : State :=
  let s0 := s.onStand k fun d => { d with active := none }
  if (s.stand k).probeBad then (s0.setCheckResult c.chan 0x20).baseFailLog c 0x20 0 0
  else if probeNoisy s k c.chan then (s0.setCheckResult c.chan 0x10).baseFailLog c 0x10 0 0
  else s0.cleanCheck c (probeRatio s k c.chan)

theorem execPathCheckComplete_of_complete {k : Fin 4} (ha : (s.stand k).active = some c)
    (hp : probeSamples ≤ (s.stand k).probe.length) :
    exec (.pathCheckComplete k) s = .next ((s.checkJudged k c).seqChecked c) := by
  have he : exec (.pathCheckComplete k) s = execPathCheckComplete k s := rfl
  rw [he, execPathCheckComplete, ha]
  exact if_neg (Nat.not_lt.2 hp)

theorem seqChecked_of_idle (hi : ∀ n : Fin 4, (s.seq n).st ≠ 2) (c : Check) : s.seqChecked c = s := by
  refine List.foldlRecOn (motive := (· = s)) _ _ rfl fun t ht n hn => ?_
  have hst := hi ⟨n, List.mem_range.1 hn⟩
  rw [ht, if_neg (by simp [hst])]

theorem setCheckResult_chan {c : Nat} (hc : c < s.chans.length) (result : Nat) : (s.setCheckResult c result).chan c =
    { s.chan c with pcResult := result, pcCount := u32 ((s.chan c).pcCount + 1) } := onChan_chan _ hc

@[simp] theorem baseFailLog_chan (s : State) (c : Check) (result ohm deg i : Nat) :
    (s.baseFailLog c result ohm deg).chan i = s.chan i := (baseFailLog_ch (.refl [.wd] s) rfl).chan rfl i

/-- What a channel tells of its latest check: result, count and instant. -/
def Chan.checked (x : Chan) : Nat × Nat × Option Nat := (x.pcResult, x.pcCount, x.pcClk)

/-- A fault logged is noted on the channel, whose check stays as it was. -/
theorem pathLog_checked (s : State) (c v result ohm deg i : Nat) :
    ((s.pathLog c v result ohm deg).chan i).checked = (s.chan i).checked := by
  have hnote (n code : Nat) (d : List Byte) :
      KeepsChans Chan.checked s ((s.onChan c fun x => { x with pcFault := n }).log code d) := by
    refine KeepsChans.of_changes (q := [.wd]) ?_ (log_ch (.refl _ _) rfl) rfl
    exact (KeepsChans.refl _ s).onChan fun _ => rfl
  unfold State.pathLog
  extract_lets old d
  split
  · exact (hnote v _ d).chan i
  · split
    · exact (hnote 0 _ d).chan i
    · rfl

@[simp] theorem storeBaseline_chan (s : State) (c ohm deg i : Nat) : (s.storeBaseline c ohm deg).chan i = s.chan i :=
  (storeBaseline_ch (.refl [.hw, .pr, .wd] s) rfl).chan rfl i

/-- The result of a clean check: done, the verdict, and whether the channel has no baseline (Table 5-1). -/
def cleanResult (s : State) (c : Nat) (p : Rat × Rat) : Nat :=
  1 + pathVerdict s c (probeZ s c p) + if parF s (pid 17 c 3) = 0 then 0x40 else 0

/-- A result follows from parameters and the factory record, which a check that leaves its stand does not touch. -/
theorem cleanResult_of_changes {t : State} (h : Changes [.stands] s t) (c : Nat) (p : Rat × Rat) :
    cleanResult t c p = cleanResult s c p := by
  have hf : factoryVal t = factoryVal s := by
    funext i j
    unfold factoryVal factoryImage
    rw [h.up rfl]
  have hpar : par t = par s := by
    funext id
    unfold par parReset
    rw [hf, h.pr rfl, h.nt rfl, h.pw rfl]
  unfold cleanResult pathVerdict pathShift probeZ probeY rIn parF
  rw [hf, hpar]

theorem cleanCheck_checked (hc : c.chan < s.chans.length) (p : Rat × Rat) : ((s.cleanCheck c p).chan c.chan).checked =
    (cleanResult s c.chan p, u32 ((s.chan c.chan).pcCount + 1), some s.clk) := by
  unfold State.cleanCheck
  extract_lets z v result
  split
  extract_lets s1 s2
  have h1 : (s1.chan c.chan).checked = (cleanResult s c.chan p, u32 ((s.chan c.chan).pcCount + 1), some s.clk) := by
    rw [drew_chan, onChan_chan _ (by simpa [State.setCheckResult] using hc), setCheckResult_chan hc]
    rfl
  have h2 : (s2.chan c.chan).checked = (cleanResult s c.chan p, u32 ((s.chan c.chan).pcCount + 1), some s.clk) :=
    (pathLog_checked ..).trans h1
  split
  · split
    · split
      · rw [baseFailLog_chan]; exact h2
      · exact h2
    · rw [storeBaseline_chan]; exact h2
  · exact h2

/-- Only a baseline check writes parameters and store (R124). -/
theorem cleanCheck_keeps (hb : c.baseline = false) (p : Rat × Rat) : Changes [.wd, .chans, .free] s (s.cleanCheck c p) := by
  unfold State.cleanCheck
  extract_lets z v result
  split
  extract_lets s1 s2
  rw [if_neg (by simp [hb])]
  exact pathLog_ch (drew_ch (onChan_ch (setCheckResult_ch (.refl _ s) rfl) rfl) rfl) rfl

/-- The result of a check, counted on its channel (R107 to R109). -/
theorem checkJudged_checked (hc : c.chan < s.chans.length) :
    ((s.checkJudged k c).chan c.chan).pcCount = u32 ((s.chan c.chan).pcCount + 1) ∧
      ((s.stand k).probeBad = true → ((s.checkJudged k c).chan c.chan).pcResult = 0x20) ∧
      ((s.stand k).probeBad = false → probeNoisy s k c.chan = true → ((s.checkJudged k c).chan c.chan).pcResult = 0x10) ∧
      ((s.stand k).probeBad = false → probeNoisy s k c.chan = false →
        ((s.checkJudged k c).chan c.chan).pcResult = cleanResult s c.chan (probeRatio s k c.chan) ∧
        ((s.checkJudged k c).chan c.chan).pcClk = some s.clk) := by
  unfold State.checkJudged
  extract_lets s0
  have h0 : c.chan < s0.chans.length := hc
  cases hbad : (s.stand k).probeBad with
  | true => simp [setCheckResult_chan h0, s0]
  | false =>
    cases hn : probeNoisy s k c.chan with
    | true => simp [setCheckResult_chan h0, s0]
    | false =>
      have hclean := cleanCheck_checked h0 (probeRatio s k c.chan)
      rw [cleanResult_of_changes (onStand_ch (.refl _ s) rfl)] at hclean
      simp only [Chan.checked, Prod.mk.injEq, s0, onStand_chan, onStand_clk] at hclean
      obtain ⟨hres, hcount, hclk⟩ := hclean
      simpa [s0, hres, hclk] using hcount

theorem checkJudged_changes (s : State) (k : Nat) (c : Check) :
    Changes [.hw, .pr, .wd, .chans, .stands, .free] s (s.checkJudged k c) := by
  unfold State.checkJudged
  extract_lets s0
  have h0 : Changes [.hw, .pr, .wd, .chans, .stands, .free] s s0 := onStand_ch (.refl _ s) rfl
  exact ch_ite (fun _ => baseFailLog_ch (setCheckResult_ch h0 rfl) rfl) fun _ =>
    ch_ite (fun _ => baseFailLog_ch (setCheckResult_ch h0 rfl) rfl) fun _ => cleanCheck_ch h0 rfl

theorem checkJudged_keeps (hb : c.baseline = false) : Changes [.wd, .chans, .stands, .free] s (s.checkJudged k c) := by
  unfold State.checkJudged
  extract_lets s0
  have h0 : Changes [.wd, .chans, .stands, .free] s s0 := onStand_ch (.refl _ s) rfl
  exact ch_ite (fun _ => baseFailLog_ch (setCheckResult_ch h0 rfl) rfl) fun _ =>
    ch_ite (fun _ => baseFailLog_ch (setCheckResult_ch h0 rfl) rfl) fun _ => h0.op rfl (cleanCheck_keeps hb _)

/-- Of its stand a check that has ended changes that it runs there. -/
theorem checkJudged_active (hk : k < s.stands.length) (c : Check) : ((s.checkJudged k c).stand k).active = none := by
  unfold State.checkJudged
  extract_lets s0
  have hch : Changes [.hw, .pr, .wd, .chans, .free] s0 (s.checkJudged k c) :=
    ch_ite (fun _ => baseFailLog_ch (setCheckResult_ch (.refl _ s0) rfl) rfl) fun _ =>
      ch_ite (fun _ => baseFailLog_ch (setCheckResult_ch (.refl _ s0) rfl) rfl) fun _ => cleanCheck_ch (.refl _ s0) rfl
  have h0 : s0.stand k = { s.stand k with active := none } := onStand_stand _ hk
  exact (congrArg Stand.active (hch.stand rfl k)).trans (by rw [h0])

theorem execPathCheckComplete_brings {k : Fin 4} (hst : s.stands.length = 4) (hch : s.chans.length = 36) (hc : c.chan ≤ 35)
    (ha : (s.stand k).active = some c) (hp : probeSamples ≤ (s.stand k).probe.length) :
    Gives (.pathCheckComplete k) s fun t =>
      ((∀ n : Fin 4, (s.seq n).st ≠ 2) →
        (t.stand k).active = none ∧ (t.chan c.chan).pcCount = u32 ((s.chan c.chan).pcCount + 1) ∧
        ((s.stand k).probeBad = true → (t.chan c.chan).pcResult = 0x20) ∧
        ((s.stand k).probeBad = false → probeNoisy s k c.chan = true → (t.chan c.chan).pcResult = 0x10) ∧
        ((s.stand k).probeBad = false → probeNoisy s k c.chan = false →
          (t.chan c.chan).pcResult = cleanResult s c.chan (probeRatio s k c.chan) ∧ (t.chan c.chan).pcClk = some s.clk)) ∧
      (c.baseline = false → t.hw = s.hw ∧ t.pr = s.pr) ∧
      t = { s with hw := t.hw, pr := t.pr, wd := t.wd, chans := t.chans, stands := t.stands, seqs := t.seqs,
                   units := t.units, free := t.free } := by
  have hj := checkJudged_changes s k c
  refine ⟨_, execPathCheckComplete_of_complete ha hp, fun hi => ?_, fun hb => ?_, ?_⟩
  · have hseq (n : Nat) : (s.checkJudged k c).seq n = s.seq n := by rw [State.seq, hj.seqs rfl, State.seq]
    rw [seqChecked_of_idle fun n => by rw [hseq]; exact hi n]
    exact ⟨checkJudged_active (by rw [hst]; exact k.isLt) c, checkJudged_checked (by omega)⟩
  · have hn : Changes [.wd, .chans, .stands, .seqs, .units, .free] s ((s.checkJudged k c).seqChecked c) :=
      seqChecked_ch ((checkJudged_keeps hb).mono rfl) rfl
    exact ⟨hn.hw rfl, hn.pr rfl⟩
  · have hf : Changes [.hw, .pr, .wd, .chans, .stands, .seqs, .units, .free] s ((s.checkJudged k c).seqChecked c) :=
      seqChecked_ch (hj.mono rfl) rfl
    exact hf.eq_pick

/-- Settles O29: a request joins the queue by its channel, the head of the queue starts as it stands, and a complete probe is
judged in one of three cases; that a spoiled probe is ABORTED whatever its bins show is the model's choice (assumption 76). -/
theorem pathChecksQueueStartAndJudge : Obligations.PathChecksQueueStartAndJudge := fun _ => by
  refine ⟨fun h c ho hl hc hs => execPathCheck_answers ho hl hc hs,
    fun h c ho hl hc hs hk hw => execPathCheckBaseline_answers ho hl hc hs hk hw, fun c hst hc h1 => ?_,
    fun k c r _ h3 hd hq hs => execPathCheckStart_of_free h3 hd hq hs,
    fun k c hst hch hc ha hp => execPathCheckComplete_brings hst hch hc ha hp⟩
  rw [← List.countP_eq_length_filter] at h1 ⊢
  have hq := queueCheck_once (hst ▸ standOf_lt hc) h1
  exact ⟨checkPosition_pos hq, hq⟩

end Sys2Proof.Machine
end

section
/-! THEOREMS. Sequencers: arming them, their time trigger, and the entries of a snapshot (R114 to R121, R164, Tables 5-5 and 5-6;
O30). -/

namespace Sys2Proof.Machine

variable {s : State} {h : Hdr} {n : Nat} {a : Arming}

/-! ### One sequencer -/

@[simp] theorem onSeq_seq (f : Seq → Seq) (hn : n < s.seqs.length) : (s.onSeq n f).seq n = f (s.seq n) :=
  modAt_getD_self _ _ _ _ hn

@[simp] theorem unitsDue_seq (s : State) (source index t n : Nat) : (s.unitsDue source index t).seq n = s.seq n := rfl

theorem Changes.seq {q : List Part} {s t : State} (h : Changes q s t) (hq : q.contains .seqs = false) (n : Nat) :
    t.seq n = s.seq n := by
  rw [State.seq, h.seqs hq, State.seq]

/-! ### A job runs, and ends (R114, R116, R119) -/

theorem seqRun_of_snapshot {wf : Bool} (ha : (s.seq n).arm = some a) (hj : a.job = .snapshot wf) (t : Nat) :
    s.seqRun n t = s.onSeq n fun q => { q with st := 2, t := t } := by
  simp only [State.seqRun, ha, hj]

/-- The channels of a list that are NORMAL, which a sequence of checks queues (R124). -/
def normalOf (s : State) (l : List Nat) : List Nat := l.filter fun c => chanSource s c == 0

/-- A sequence of checks runs while a channel is left to check; else it has ended at once. -/
theorem seqRun_seq_of_checks {l : List Nat} (hn : n < s.seqs.length) (ha : (s.seq n).arm = some a) (hj : a.job = .checks l)
    (t : Nat) : (s.seqRun n t).seq n =
      { s.seq n with st := if (normalOf s l).isEmpty then (if a.repeats then 1 else 0) else 2, t := t,
                     left := normalOf s l } := by
  simp -zeta only [State.seqRun, ha, hj]
  extract_lets s1 good bad s2 s3 s4
  have h3 : Changes [.chans, .stands] s1 s3 :=
    ch_foldl (fun _ _ H => queueCheck_ch H rfl) (ch_foldl (fun _ _ H => setCheckResult_ch H rfl) (.refl _ s1))
  have hn3 : n < s3.seqs.length := by rw [h3.seqs rfl]; simpa [s1] using hn
  have h4 : s4.seq n = { s.seq n with st := 2, t := t, left := good } := by
    rw [onSeq_seq _ hn3, h3.seq rfl, onSeq_seq _ hn]
  have hg : normalOf s l = good := rfl
  rw [hg]
  cases he : good.isEmpty with
  | true =>
    rw [if_pos rfl, if_pos rfl, State.seqIdle, onSeq_seq _ (by simpa [s4] using hn3), h4, List.isEmpty_iff.1 he, ha]
    rfl
  | false =>
    rw [if_neg Bool.false_ne_true, if_neg Bool.false_ne_true]
    exact h4

theorem seqInstall_of_source {x : Arming} (h0 : x.source ≠ 0) : s.seqInstall n (some x) = s.onSeq n fun q =>
    { q with st := 1, arm := some x, held := none, next := none, left := [], due := timeDue x s.now,
             late := x.source == 3 && x.periodMs == 0 && x.start < s.now } :=
  if_neg (by simpa using h0)

theorem seqEnd_of_next {x : Option Arming} (hx : (s.seq n).next = some x) : s.seqEnd n = s.seqInstall n x := by
  simp only [State.seqEnd, hx]

theorem seqEnd_of_held {u : Nat} (hx : (s.seq n).next = none) (hh : (s.seq n).held = some u) :
    s.seqEnd n = (s.onSeq n fun x => { x with held := none }).seqRun n u := by
  simp only [State.seqEnd, hx, hh]

theorem seqEnd_of_alone (hx : (s.seq n).next = none) (hh : (s.seq n).held = none) : s.seqEnd n = s.seqIdle n := by
  simp only [State.seqEnd, hx, hh]

/-! ### Arming (R119, Tables 5-5 and 5-6) -/

theorem armSequencer_of_running {x : ArmIn} (hn : n < s.seqs.length) (hr : (s.seq n).st = 2) (job : Job) :
    (armSequencer n x job s).st = .pending ∧ ((armSequencer n x job s).s.seq n).next.isSome = true ∧
      ((armSequencer n x job s).s.seq n).st = 2 := by
  unfold armSequencer
  extract_lets arm s1
  rw [if_pos (beq_iff_eq.2 hr)]
  have h1 : s1.seq n = { s.seq n with next := some arm } := onSeq_seq _ hn
  rw [h1]
  exact ⟨rfl, rfl, hr⟩

/-- Nothing waits for an arming that no alarm triggers. -/
theorem armSequencer_of_notAlarm {x : ArmIn} (hn : n < s.seqs.length) (h13 : x.source = 1 ∨ x.source = 3)
    (hr : (s.seq n).st ≠ 2) (job : Job) :
    (armSequencer n x job s).st = .ok ∧ ((armSequencer n x job s).s.seq n).st = 1 ∧
      ((armSequencer n x job s).s.seq n).arm =
        some ⟨job, x.source, x.index, x.policy, bitAt x.flags 0, ofTime80 x.start, x.periodMs⟩ := by
  have h0 : x.source ≠ 0 := by omega
  have h2 : x.source ≠ 2 := by omega
  have hff : x.source ≠ 0xFF := by omega
  unfold armSequencer
  extract_lets arm s1 s2 wait s3
  have harm : arm = some ⟨job, x.source, x.index, x.policy, bitAt x.flags 0, ofTime80 x.start, x.periodMs⟩ := by
    simp [arm, h0, hff]
  have h3 : s3 = s2 := if_neg (by simp [wait, h2])
  have h1 : s2 = _ := (congrArg (s.seqInstall n) harm).trans (seqInstall_of_source h0)
  rw [if_neg (by simpa using hr), h3, h1, onSeq_seq _ hn]
  exact ⟨rfl, rfl, rfl⟩

theorem firstFail_append_of_none {l m : List (Bool × Status)} (hl : firstFail l = none) :
    firstFail (l ++ m) = firstFail m := by
  induction l with
  | nil => rfl
  | cons x r ih =>
    obtain ⟨b, st⟩ := x
    cases b with
    | true => cases hl
    | false => exact ih hl

theorem execSnapshotArm_of_opens {x : ArmIn} (ho : Opens opSnapshotArm h s) (hl : h.len = 24)
    (hc : firstFail (armChecks (s.accepted h) n x 7) = none) : exec (.snapshotArm h n x) s =
      let y := armSequencer n x (.snapshot (bitAt x.flags 2)) (s.accepted h)
      .next (y.s.replied opSnapshotArm h y.st y.bytes) := by
  have he : exec (.snapshotArm h n x) s = execSnapshotArm h n x s := rfl
  rw [he, execSnapshotArm, serve_opens ho (beq_iff_eq.2 hl) hc]

theorem execSeqStart_of_opens {x : ArmIn} {l : List Nat} (ho : Opens opSeqStart h s) (hl : h.len = 28 + l.length)
    (hc : firstFail (armChecks (s.accepted h) n x 3) = none) (h0 : l ≠ []) (h36 : l.length ≤ 36)
    (hch : ∀ c ∈ l, c ≤ 35 ∧ chanSource (s.accepted h) c = 0) : exec (.seqStart h n x l) s =
      let y := armSequencer n x (.checks l) (s.accepted h)
      .next (y.s.replied opSeqStart h y.st y.bytes) := by
  have he : exec (.seqStart h n x l) s = execSeqStart h n x l s := rfl
  have hbad : l.any (fun c => 35 < c || chanSource (s.accepted h) c != 0) = false := by
    rw [List.any_eq_false]
    intro c hmem
    obtain ⟨hc35, hs⟩ := hch c hmem
    simp [hs, Nat.not_lt.2 hc35]
  rw [he, execSeqStart, serve_opens ho (beq_iff_eq.2 hl)]
  rw [firstFail_append_of_none hc]
  simp [firstFail, h0, hbad, Nat.not_lt.2 h36]

/-! ### The time trigger (R115) -/

theorem execSequencerTimeTick_of_due {n : Fin 4} (hn : n < s.seqs.length) (ha : (s.seq n).arm = some a) (h3 : a.source = 3)
    (h1 : (s.seq n).st = 1) (h0 : (s.seq n).due ≠ 0) (hd : (s.seq n).late = true ∨ (s.seq n).due ≤ s.now) :
    exec (.sequencerTimeTick n) s =
      let t := if (s.seq n).late then s.now else (s.seq n).due
      .next (((s.onSeq n fun x => { x with
        late := false, due := if a.periodMs == 0 then 0 else x.due + a.periodMs * 65536000000 }).unitsDue 4 n t).seqRun n t) := by
  have he : exec (.sequencerTimeTick n) s = execSequencerTimeTick n s := rfl
  rw [he, execSequencerTimeTick]
  rw [ha]
  dsimp only
  rw [if_pos (by rcases hd with hd | hd <;> simp [h3, h1, h0, hd]), State.seqTrigger,
    if_pos (by simp [onSeq_seq _ hn, h1])]

theorem execSequencerTimeTick_brings (n : Fin 4) (hst : s.seqs.length = 4) (ha : (s.seq n).arm = some a) (h3 : a.source = 3)
    (h1 : (s.seq n).st = 1) (h0 : (s.seq n).due ≠ 0) (hd : (s.seq n).late = true ∨ (s.seq n).due ≤ s.now) :
    Gives (.sequencerTimeTick n) s fun t =>
      (t.seq n).due = (if a.periodMs = 0 then 0 else (s.seq n).due + a.periodMs * 65536000000) ∧
      (t.seq n).t = (if (s.seq n).late then s.now else (s.seq n).due) ∧
      ((∃ wf, a.job = .snapshot wf) ∨ (∃ l, a.job = .checks l ∧ ∃ c ∈ l, chanSource s c = 0) → (t.seq n).st = 2) ∧
      t = { s with wd := t.wd, chans := t.chans, stands := t.stands, seqs := t.seqs, units := t.units } := by
  have hn : n.val < s.seqs.length := by rw [hst]; exact n.isLt
  refine ⟨_, execSequencerTimeTick_of_due hn ha h3 h1 h0 hd, ?_⟩
  generalize (if (s.seq n).late then s.now else (s.seq n).due) = u
  generalize hx : ((s.onSeq n fun x => { x with
    late := false, due := if a.periodMs == 0 then 0 else x.due + a.periodMs * 65536000000 }).unitsDue 4 n u) = x
  have hxc : Changes [.wd, .chans, .stands, .seqs, .units] s x := hx ▸ unitsDue_ch (onSeq_ch (.refl _ s) rfl) rfl
  have hxs : x.seq n = { s.seq n with
      late := false, due := if a.periodMs = 0 then 0 else (s.seq n).due + a.periodMs * 65536000000 } := by
    rw [← hx, unitsDue_seq, onSeq_seq _ hn]
    simp only [beq_iff_eq]
  have hxn : n.val < x.seqs.length := by rw [← hx]; simpa [State.unitsDue] using hn
  have hxa : (x.seq n).arm = some a := by rw [hxs]; exact ha
  have hf := (seqRun_ch (n := n) (t := u) hxc rfl).eq_pick
  cases hj : a.job with
  | snapshot wf =>
    have ht : (x.seqRun n u).seq n = _ := (congrArg (State.seq · n) (seqRun_of_snapshot hxa hj u)).trans (onSeq_seq _ hxn)
    rw [ht, hxs]
    exact ⟨rfl, rfl, fun _ => rfl, hf⟩
  | checks l =>
    have hnormal : normalOf x l = normalOf s l := by rw [← hx]; rfl
    rw [seqRun_seq_of_checks hxn hxa hj, hxs, hnormal]
    refine ⟨rfl, rfl, fun hgood => ?_, hf⟩
    obtain ⟨wf, hwf⟩ | ⟨l', hl', c, hc, hs⟩ := hgood
    · cases hwf
    · cases hl'
      have hmem : c ∈ normalOf s l := List.mem_filter.2 ⟨hc, beq_iff_eq.2 hs⟩
      exact if_neg (by simpa using List.ne_nil_of_mem hmem)

/-! ### Entries of a group are written whole or dropped whole (R164) -/

@[simp] theorem put_dropped (q : Queue) (ws : List Nat) : (q.put ws).dropped = q.dropped := rfl

@[simp] theorem puts_dropped (q : Queue) (l : List (List Nat)) : (q.puts l).dropped = q.dropped :=
  List.foldlRecOn (motive := fun x : Queue => x.dropped = q.dropped) l Queue.put rfl fun _ hx _ _ => hx

theorem qGroup_dropped {upd : Queue → Queue} (hu : ∀ q, (upd q).dropped = q.dropped) (s : State) (isX : Bool)
    (counted i j : Nat) (build : Option Nat → Option Nat → List (List Nat)) :
    (s.qGroup isX counted i j build upd).qu.dropped = s.qu.dropped ∨
      (s.qGroup isX counted i j build upd).qu.dropped = u32 (s.qu.dropped + counted) := by
  unfold State.qGroup
  extract_lets q es q1 q2 g
  generalize q1.level + (if q.gap.isNone then 4 else 0) = words
  split
  · refine Or.inl ((hu _).trans ?_)
    cases hg : q.gap <;> simp [q2, q1, hg, q]
  · exact Or.inr rfl

/-! ### A snapshot is written (R120, R121) -/

/-- A snapshot whose instants the history holds is one group of two or three entries; then its job ends. -/
theorem execSnapshotWrite_of_held {n : Fin 4} {wf : Bool} {x y : Snap} (ha : (s.seq n).arm = some a)
    (hj : a.job = .snapshot wf) (hr : (s.seq n).st = 2) (hx : snapAt s (pNearest (s.seq n).t) = some x)
    (hy : snapAt s (wNearest (s.seq n).t / 15) = some y) :
    ∃ i j build upd, (∀ q : Queue, (upd q).dropped = q.dropped) ∧ exec (.snapshotWrite n) s =
      .next ((s.qGroup false (if wf then 3 else 2) i j build upd).seqEnd n) := by
  have he : exec (.snapshotWrite n) s = execSnapshotWrite n s := rfl
  have hm : (s.seq n).arm.map Arming.job = some (.snapshot wf) := by rw [ha, Option.map_some, hj]
  rw [he, execSnapshotWrite, hm]
  dsimp only
  rw [if_neg (by simp [hr]), hx, hy]
  dsimp only [wOfSnap]
  refine ⟨_, _, _, _, ?_, rfl⟩
  exact fun _ => rfl

theorem execSnapshotWrite_brings (n : Fin 4) {wf : Bool} {x y : Snap} (hst : s.seqs.length = 4)
    (ha : (s.seq n).arm = some a) (hj : a.job = .snapshot wf) (hr : (s.seq n).st = 2)
    (hx : snapAt s (pNearest (s.seq n).t) = some x) (hy : snapAt s (wNearest (s.seq n).t / 15) = some y) :
    Gives (.snapshotWrite n) s fun t =>
      ((s.seq n).next = none → (s.seq n).held = none →
        (t.seq n).st = (if a.repeats then 1 else 0) ∧ t = { s with seqs := t.seqs, qu := t.qu, lk := t.lk }) ∧
      ((s.seq n).next = none → ∀ u, (s.seq n).held = some u →
        (t.seq n).st = 2 ∧ (t.seq n).t = u ∧ (t.seq n).held = none) ∧
      ((s.seq n).next = some none → (t.seq n).st = 0 ∧ (t.seq n).arm = none) ∧
      (∀ b, (s.seq n).next = some (some b) → b.source ≠ 0 → (t.seq n).st = 1 ∧ (t.seq n).arm = some b ∧
        (t.seq n).next = none) ∧
      (t.qu.dropped = s.qu.dropped ∨ t.qu.dropped = u32 (s.qu.dropped + (if wf then 3 else 2))) ∧
      t = { s with lk := t.lk, chans := t.chans, stands := t.stands, seqs := t.seqs, qu := t.qu, units := t.units } := by
  obtain ⟨i, j, build, upd, hu, he⟩ := execSnapshotWrite_of_held ha hj hr hx hy
  refine ⟨_, he, ?_⟩
  have hdrop := qGroup_dropped hu s false (if wf then 3 else 2) i j build
  have hw : Changes [.lk, .qu] s (s.qGroup false (if wf then 3 else 2) i j build upd) := qGroup_ch (.refl _ s) rfl
  generalize s.qGroup false (if wf then 3 else 2) i j build upd = w at hdrop hw ⊢
  have hn : n.val < w.seqs.length := by rw [hw.seqs rfl, hst]; exact n.isLt
  have hq : w.seq n = s.seq n := hw.seq rfl n
  have hend : Changes [.chans, .stands, .seqs, .units] w (w.seqEnd n) := seqEnd_ch (.refl _ w) rfl
  refine ⟨fun hx hh => ?_, fun hx u hh => ?_, fun hx => ?_, fun b hx h0 => ?_, ?_, ?_⟩
  · rw [seqEnd_of_alone (by rw [hq, hx]) (by rw [hq, hh])]
    refine ⟨?_, (seqIdle_ch (hw.mono (q := [.lk, .seqs, .qu]) rfl) rfl).eq_pick⟩
    rw [State.seqIdle, onSeq_seq _ hn, hq, ha]
    rfl
  · rw [seqEnd_of_held (by rw [hq, hx]) (by rw [hq, hh])]
    have ht : (w.onSeq n fun x => { x with held := none }).seq n = { s.seq n with held := none } := by
      rw [onSeq_seq _ hn, hq]
    rw [seqRun_of_snapshot (a := a) (by rw [ht]; exact ha) hj, onSeq_seq _ (by simpa using hn), ht]
    exact ⟨rfl, rfl, rfl⟩
  · rw [seqEnd_of_next (by rw [hq, hx])]
    have ht : (w.seqInstall n none).seq n = _ := onSeq_seq _ hn
    rw [ht]
    exact ⟨rfl, rfl⟩
  · rw [seqEnd_of_next (by rw [hq, hx]), seqInstall_of_source h0, onSeq_seq _ hn]
    exact ⟨rfl, rfl, rfl⟩
  · rw [hend.qu rfl]
    exact hdrop
  · exact ((hw.mono (q := [.lk, .chans, .stands, .seqs, .qu, .units]) rfl).trans (hend.mono rfl)).eq_pick

/-- Settles O30: an arming is installed or waits, a due time trigger runs the job at its instant, and a snapshot is one group, whose
end has one case for what waits; that a waiting arming goes before a held trigger is the model's choice (assumption 62). -/
theorem sequencersArmTriggerAndWriteSnapshots : Obligations.SequencersArmTriggerAndWriteSnapshots := fun _ =>
  ⟨fun _ _ _ ho hl hc => execSnapshotArm_of_opens ho hl hc,
    fun _ _ _ _ ho hl hc h0 h36 hch => execSeqStart_of_opens ho hl hc h0 h36 hch,
    fun _ _ job h4 hst _ hr => armSequencer_of_running (hst ▸ h4) hr job,
    fun _ _ wf h4 hst h13 hr => armSequencer_of_notAlarm (hst ▸ h4) h13 hr (.snapshot wf),
    fun n _ hst ha h3 h1 h0 hd => execSequencerTimeTick_brings n hst ha h3 h1 h0 hd,
    fun n _ _ _ _ hst ha hj hr hx hy => execSnapshotWrite_brings n hst ha hj hr hx hy⟩

end Sys2Proof.Machine
end

section
/-! LEMMAS. Condemning a converter leaves the samples of every channel (R96 to R100). -/

namespace Sys2Proof.Machine

variable {z s : State} {k v c : Nat}

/-- The latest P sample of a channel, with its flags. -/
def Chan.sample (x : Chan) : Int × Nat := (x.p, x.flagsP)

/-- From `z` to `t` every channel keeps its latest P sample. -/
abbrev KeepsSamples : State → State → Prop := KeepsChans Chan.sample

theorem mark_keepsSamples {bit : Nat} (H : KeepsSamples z s) : KeepsSamples z (s.mark c bit) := H.onChan fun _ => rfl

theorem setCheckResult_keepsSamples {result : Nat} (H : KeepsSamples z s) : KeepsSamples z (s.setCheckResult c result) :=
  H.onChan fun _ => rfl

theorem splice_keepsSamples {toSpare : Bool} (H : KeepsSamples z s) : KeepsSamples z (s.splice k c toSpare) :=
  (mark_keepsSamples H).of_changes (onStand_ch (.refl [.stands] _) rfl) rfl

theorem loadDone_keepsSamples (H : KeepsSamples z s) : KeepsSamples z (s.loadDone c) :=
  H.of_changes (loadDone_ch (.refl [.wd, .filts, .insts] s) rfl) rfl

theorem loseChan_keepsSamples (H : KeepsSamples z s) : KeepsSamples z (s.loseChan c) := by
  have hlost : KeepsSamples z (s.onChan c fun x => { x with lost := true }) := H.onChan fun _ => rfl
  exact H.ite (hlost.of_changes (log_ch (.refl [.wd] _) rfl) rfl)

theorem abortCheck_keepsSamples (H : KeepsSamples z s) : KeepsSamples z (s.abortCheck k) := by
  unfold State.abortCheck
  split
  · exact H
  · exact (setCheckResult_keepsSamples H).of_changes (onStand_ch (baseFailLog_ch (.refl [.wd, .stands] _) rfl) rfl) rfl

theorem recallHome_keepsSamples (H : KeepsSamples z s) : KeepsSamples z (s.recallHome k) := by
  unfold State.recallHome
  extract_lets d c
  have hrest : KeepsSamples z ((((s.restoreTrim k c).unsettle c).loadDone c).onStand k fun x => { x with carrying := false }) :=
    H.of_changes (onStand_ch (loadDone_ch (unsettle_ch (restoreTrim_ch (.refl [.wd, .convs, .stands, .filts, .insts] s) rfl)
      rfl) rfl) rfl) rfl
  exact (hrest.ite (loadDone_keepsSamples (splice_keepsSamples H))).ite H

theorem takeover_keepsSamples (H : KeepsSamples z s) : KeepsSamples z (s.takeover k c) := by
  unfold State.takeover
  extract_lets d s0 x s1 s2
  have h0 : KeepsSamples z s0 := abortCheck_keepsSamples H
  have hx : KeepsSamples z x :=
    (recallHome_keepsSamples (h0.of_changes (abortSpareRest_ch (.refl [.convs, .stands] s0) rfl) rfl)).of_changes
      (copyInst_ch (unsettle_ch (.refl [.convs, .insts] _) rfl) rfl) rfl
  have h1 : KeepsSamples z s1 :=
    h0.ite ((splice_keepsSamples h0).ite (hx.of_changes (onStand_ch (.refl [.stands] x) rfl) rfl))
  have h2 : KeepsSamples z s2 := h1.of_changes (onStand_ch (.refl [.stands] s1) rfl) rfl
  exact h2.ite (h2.of_changes (pioUpdate_ch (.refl [.hw] s2) rfl) rfl)

theorem condemn_keepsSamples {cause : Nat} (H : KeepsSamples z s) : KeepsSamples z (s.condemn v cause) := by
  unfold State.condemn
  extract_lets k d chan first s1 s2 s3 held s0 s4 s5
  have h1 : KeepsSamples z s1 :=
    H.of_changes (log_ch (storeDevice_ch (onStand_ch (.refl [.hw, .wd, .stands] s) rfl) rfl) rfl) rfl
  have h2 : KeepsSamples z s2 := abortCheck_keepsSamples h1
  have h3 : KeepsSamples z s3 :=
    KeepsChans.ite (h2.of_changes (ch_foldl (fun _ _ h => cancelLoad_ch h rfl) (.refl [.wd, .filts] _)) rfl) h2
  have h0 : KeepsSamples z s0 := (loseChan_keepsSamples h3).ite (recallHome_keepsSamples h3)
  have h4 : KeepsSamples z s4 := ((loseChan_keepsSamples h3).ite (takeover_keepsSamples h3)).ite
    (h0.of_changes (onStand_ch (.refl [.stands] s0) rfl) rfl)
  have h5 : KeepsSamples z s5 :=
    KeepsChans.ite (h4.of_changes (ch_foldl (fun _ _ h => cancelLoading_ch h rfl) (.refl [.wd, .filts] _)) rfl) h4
  exact H.ite (h5.of_changes (onStand_ch (.refl [.stands] s5) rfl) rfl)

end Sys2Proof.Machine
end

section
/-! THEOREMS. The frame that the DSP takes every 40 µs, and the end of a calibration pulse (R122, R126, R185, R191, R470; O34). -/

namespace Sys2Proof.Machine

variable {s : State} {frames : List (List ConvIn)}

/-! ### Registers and parameters through a frame -/

/-- A part that ends as it began has not changed. -/
theorem Changes.of_same {p : Part} {q : List Part} {t : State} (h : Changes (p :: q) s t) (hp : p.same s t) :
    Changes q s t := ⟨fun r hr => by
  by_cases hrp : r = p
  · exact hrp ▸ hp
  · exact h.keeps r (by simp [hrp, hr])⟩

/-- The registers of both engines. -/
def Metro.registers (m : Metro) : List Regs × List Regs × List Regs × List Regs :=
  (m.regElemF, m.regCircF, m.regElemP, m.regCircP)

theorem substLog_registers (s : State) (e : Nat) : (s.substLog e).me.registers = s.me.registers := by
  unfold State.substLog
  extract_lets r
  split
  · rw [log_me]; rfl
  · rfl

theorem energyFrame_registers (s : State) (fv pv : List Val) : (s.energyFrame fv pv).me.registers = s.me.registers := by
  unfold State.energyFrame
  exact List.foldlRecOn (motive := fun x : State => x.me.registers = s.me.registers) _ State.substLog rfl
    fun x hx e _ => (substLog_registers x e).trans hx

theorem cfFrame_registers (s : State) (fv pv : List Val) : (s.cfFrame fv pv).me.registers = s.me.registers := by
  unfold State.cfFrame
  split <;> rfl

/-- What is done under other values leaves the parameters, where it does not write them itself. -/
theorem under_pr {p : Option (List (Nat × Nat))} {f : State → State} (hf : ∀ x, (f x).pr = x.pr) (s : State) :
    (s.under p f).pr = s.pr := by
  unfold State.under
  split
  · exact hf s
  · rw [onPr_pr, hf]
    rfl

theorem pqFrame_pr (s : State) : s.pqFrame.pr = s.pr := by
  unfold State.pqFrame
  split
  · rfl
  · split
    · rfl
    · exact under_pr (fun v => (ch_foldl (fun _ _ H => busSample_ch H rfl) (.refl [.pq] v)).pr rfl) s

@[simp] theorem countFrame_stage (s : State) : s.countFrame.pw.stage = s.pw.stage := by
  unfold State.countFrame
  extract_lets s1
  have h1 : s1.pw.stage = s.pw.stage := by
    unfold s1
    split <;> rfl
  split
  · exact h1
  · exact h1

@[simp] theorem alignStep_cnt (s : State) : s.alignStep.te.cnt = s.te.cnt := rfl

@[simp] theorem alignStep_stepP (s : State) : s.alignStep.te.stepP = false := rfl

/-! ### The channels take their samples -/

@[simp] theorem Chan.clamp_sample (x : Chan) (ovr : Bool) : (x.clamp ovr).sample = x.sample := by
  unfold Chan.clamp
  split
  · rfl
  · split <;> rfl

theorem chainStep_sample {outs : List ChanOut} {c : Nat} {o : ChanOut} (hc : c < s.chans.length) (ho : outs[c]? = some o) :
    ((s.chainStep outs).chan c).sample = (o.p, o.flags) := by
  have hget : (s.chainStep outs).chans[c]? = some (s.chans[c].took o) := by
    have hz : (s.chans.zip outs)[c]? = some (s.chans[c], o) := List.getElem?_zip_eq_some.2 ⟨List.getElem?_eq_getElem hc, ho⟩
    rw [State.chainStep, List.getElem?_map, hz, Option.map_some]
  rw [State.chan, List.getD_eq_getElem?_getD, hget]
  rfl

/-! ### A frame (R470) -/

/-- The samples of all channels. -/
def outsOf (s : State) : List ChanOut := (List.range 36).map (chanOut s)

/-- Both engines and the stands have taken a frame. -/
def State.frameEngines (s : State) : State :=
  let fv := frameVals (fullVal s (outsOf s))
  let pv := frameVals (pioVal s (outsOf s))
  (List.range 4).foldl State.standFrame ((s.energyFrame fv pv).cfFrame fv pv)

/-- The channels, the histories and the power-quality kernels have taken it too. -/
def State.frameSeen (s : State) : State :=
  (((s.frameEngines.chainStep (outsOf s)).pushSnap (pInstant s) (outsOf s)).pushWave (pInstant s) (outsOf s)
    (frameVals (fullVal s (outsOf s)))).pqFrame

/-- And the recorder. -/
def State.frameTaken (s : State) : State :=
  { s.frameSeen with units := s.frameSeen.units.map fun u => u.frame (pInstant s) (outsOf s) }

/-- The frame is over: converters that their pair has shown faulty are condemned, counters and sample phase move on. -/
def State.frameOver (s : State) : State :=
  ((((List.range 4).filterMap (clampVerdict s)).foldl (fun x v => x.condemn v 2) s.frameTaken).countFrame.alignStep).drew 700

theorem execDspFrame_of_delivers (hf : framesFit s frames = true) (hd : delivers s = true) :
    exec (.dspFrame frames) s = .next (frames.foldl State.intake s).frameOver := by
  have he : exec (.dspFrame frames) s = execDspFrame frames s := rfl
  rw [he, execDspFrame, if_neg (by simp [hf]), if_neg (by simp [hd])]
  rfl

theorem execDspFrame_of_still (hf : framesFit s frames = true) (hd : delivers s = false) :
    exec (.dspFrame frames) s = .next s := by
  have he : exec (.dspFrame frames) s = execDspFrame frames s := rfl
  rw [he, execDspFrame, if_neg (by simp [hf]), if_pos (by simp [hd])]

theorem execDspFrame_of_misfit (hf : framesFit s frames = false) : exec (.dspFrame frames) s = .fault .malformedCommand := by
  have he : exec (.dspFrame frames) s = execDspFrame frames s := rfl
  rw [he, execDspFrame, if_pos (by simp [hf])]

theorem intake_changes (s : State) (frames : List (List ConvIn)) : Changes [.convs] s (frames.foldl State.intake s) :=
  ch_foldl (fun _ _ H => H.trans ⟨fun p hp => by
    cases p with
    | convs => simp at hp
    | _ => rfl⟩) (.refl _ s)

theorem frameEngines_changes (s : State) : Changes [.wd, .stands, .me] s s.frameEngines :=
  ch_foldl (fun _ _ H => standFrame_ch H rfl) (cfFrame_ch (energyFrame_ch (.refl _ s) rfl) rfl)

theorem frameEngines_registers (s : State) : s.frameEngines.me.registers = s.me.registers := by
  unfold State.frameEngines
  extract_lets fv pv
  rw [(ch_foldl (fun _ _ H => standFrame_ch H rfl) (.refl [.stands] _)).me rfl, cfFrame_registers, energyFrame_registers]

theorem frameSeen_changes (s : State) :
    Changes [.pr, .hist, .wave, .qu, .pq] (s.frameEngines.chainStep (outsOf s)) s.frameSeen :=
  pqFrame_ch (pushWave_ch (pushSnap_ch (.refl _ _) rfl) rfl) rfl

theorem units_changes (s : State) (l : List CapUnit) : Changes [.units] s { s with units := l } := ⟨fun p hp => by
  cases p with
  | units => simp at hp
  | _ => rfl⟩

theorem frameTaken_units (s : State) : Changes [.units] s.frameSeen s.frameTaken := by
  unfold State.frameTaken
  exact units_changes _ _

/-- The channels of a frame taken are those that the chain leaves. -/
theorem frameTaken_changes (s : State) : Changes [.pr, .hist, .wave, .qu, .units, .pq]
    (s.frameEngines.chainStep (outsOf s)) s.frameTaken :=
  ((frameSeen_changes s).mono rfl).trans ((frameTaken_units s).mono rfl)

theorem frameTaken_pr (s : State) : s.frameTaken.pr = s.pr := by
  have hseen : Changes [.hist, .wave, .qu] (s.frameEngines.chainStep (outsOf s)) _ :=
    pushWave_ch (t := pInstant s) (outs := outsOf s) (fv := frameVals (fullVal s (outsOf s)))
      (pushSnap_ch (t := pInstant s) (outs := outsOf s) (.refl _ _) rfl) rfl
  calc s.frameTaken.pr = s.frameSeen.pr := (frameTaken_units s).pr rfl
    _ = (s.frameEngines.chainStep (outsOf s)).pr := (pqFrame_pr _).trans (hseen.pr rfl)
    _ = s.frameEngines.pr := (chainStep_ch (.refl [.chans, .convs, .filts, .insts] _) rfl).pr rfl
    _ = s.pr := (frameEngines_changes s).pr rfl

theorem pushSnap_hist (s : State) (t : Nat) (outs : List ChanOut) : (s.pushSnap t outs).hist =
    (⟨t, outs.map (·.p), outs.map (·.flags), outs.map (·.w), outs.map (·.wf)⟩ :: s.hist).take 100 := rfl

/-- A frame puts the instant that it delivers at the head of the history (R122). -/
theorem frameTaken_hist (s : State) :
    ∃ x, s.frameTaken.hist = (x :: s.hist).take 100 ∧ x.t = pInstant s ∧ x.p.length = 36 := by
  have hpush : s.frameTaken.hist = ((s.frameEngines.chainStep (outsOf s)).pushSnap (pInstant s) (outsOf s)).hist :=
    ((frameTaken_units s).hist rfl).trans ((pqFrame_ch (pushWave_ch (.refl [.pr, .wave, .pq] _) rfl) rfl).hist rfl)
  rw [pushSnap_hist, (chainStep_ch (.refl [.chans, .convs, .filts, .insts] _) rfl).hist rfl,
    (frameEngines_changes s).hist rfl] at hpush
  exact ⟨_, hpush, rfl, by simp [outsOf]⟩

theorem frameOver_changes (s : State) : Changes [.pw, .te, .hw, .wd, .chans, .convs, .stands, .filts, .insts, .free]
    s.frameTaken s.frameOver :=
  drew_ch (alignStep_ch (countFrame_ch (ch_foldl (fun _ _ H => condemn_ch H rfl) (.refl _ _)) rfl) rfl) rfl

theorem frameOver_keepsSamples (s : State) : KeepsSamples (s.frameEngines.chainStep (outsOf s)) s.frameOver := by
  have h0 : KeepsSamples (s.frameEngines.chainStep (outsOf s)) s.frameTaken :=
    (KeepsChans.refl _ _).of_changes (frameTaken_changes s) rfl
  have h1 := List.foldlRecOn (motive := KeepsSamples (s.frameEngines.chainStep (outsOf s)))
    ((List.range 4).filterMap (clampVerdict s)) (fun x v => x.condemn v 2) h0 fun _ hx _ _ => condemn_keepsSamples hx
  exact h1.of_changes (drew_ch (alignStep_ch (countFrame_ch (.refl [.pw, .te, .hw, .free] _) rfl) rfl) rfl) rfl

theorem frameOver_sample {c : Nat} (hl : s.chans.length = 36) (hc : c < 36) : (s.frameOver.chan c).sample =
    ((chanOut s c).p, (chanOut s c).flags) := by
  rw [(frameOver_keepsSamples s).chan c]
  refine chainStep_sample ?_ (by simp [outsOf, hc])
  rw [(frameEngines_changes s).chans rfl, hl]
  exact hc

theorem frameOver_registers (s : State) : s.frameOver.me.registers = s.me.registers := by
  rw [(frameOver_changes s).me rfl, (frameTaken_changes s).me rfl,
    (chainStep_ch (.refl [.chans, .convs, .filts, .insts] _) rfl).me rfl, frameEngines_registers]

theorem frameOver_stage (s : State) : s.frameOver.pw.stage = s.pw.stage := by
  unfold State.frameOver
  rw [drew_pw, (alignStep_ch (.refl [.te] _) rfl).pw rfl, countFrame_stage,
    (ch_foldl (fun _ _ H => condemn_ch H rfl) (.refl [.hw, .wd, .chans, .convs, .stands, .filts, .insts] _)).pw rfl,
    (frameTaken_changes s).pw rfl, (chainStep_ch (.refl [.chans, .convs, .filts, .insts] _) rfl).pw rfl,
    (frameEngines_changes s).pw rfl]

theorem frameOver_te (s : State) : s.frameOver.te.cnt = s.te.cnt ∧ s.frameOver.te.stepP = false := by
  unfold State.frameOver
  rw [drew_te, alignStep_cnt, alignStep_stepP]
  refine ⟨?_, rfl⟩
  rw [(countFrame_ch (.refl [.pw, .hw] _) rfl).te rfl,
    (ch_foldl (fun _ _ H => condemn_ch H rfl) (.refl [.hw, .wd, .chans, .convs, .stands, .filts, .insts] _)).te rfl,
    (frameTaken_changes s).te rfl, (chainStep_ch (.refl [.chans, .convs, .filts, .insts] _) rfl).te rfl,
    (frameEngines_changes s).te rfl]

theorem execDspFrame_brings (hf : framesFit s frames = true) (hd : delivers s = true) (hl : s.chans.length = 36) :
    Gives (.dspFrame frames) s fun t =>
      (∀ c < 36, (t.chan c).p = (chanOut (frames.foldl State.intake s) c).p ∧
        (t.chan c).flagsP = (chanOut (frames.foldl State.intake s) c).flags) ∧
      (∃ x, t.hist = (x :: s.hist).take 100 ∧ x.t = pInstant s ∧ x.p.length = 36) ∧
      t.me.regElemF = s.me.regElemF ∧ t.me.regCircF = s.me.regCircF ∧ t.me.regElemP = s.me.regElemP ∧
      t.me.regCircP = s.me.regCircP ∧ t.te.cnt = s.te.cnt ∧ t.te.stepP = false ∧ t.pr = s.pr ∧ t.pw.stage = s.pw.stage ∧
      t = { s with pw := t.pw, te := t.te, hw := t.hw, wd := t.wd, chans := t.chans, convs := t.convs, stands := t.stands,
                   filts := t.filts, insts := t.insts, hist := t.hist, wave := t.wave, qu := t.qu, units := t.units,
                   me := t.me, pq := t.pq, free := t.free } := by
  refine ⟨_, execDspFrame_of_delivers hf hd, ?_⟩
  have hi := intake_changes s frames
  generalize frames.foldl State.intake s = x at hi ⊢
  have hpr : x.frameOver.pr = s.pr := by rw [(frameOver_changes x).pr rfl, frameTaken_pr, hi.pr rfl]
  have hall : Changes [.pr, .pw, .te, .hw, .wd, .chans, .convs, .stands, .filts, .insts, .hist, .wave, .qu, .units, .me, .pq,
      .free] s x.frameOver :=
    ((((hi.mono rfl).trans ((frameEngines_changes x).mono rfl)).trans (chainStep_ch (.refl _ _) rfl)).trans
      ((frameTaken_changes x).mono rfl)).trans ((frameOver_changes x).mono rfl)
  have hregs := frameOver_registers x
  rw [hi.me rfl] at hregs
  simp only [Metro.registers, Prod.mk.injEq] at hregs
  obtain ⟨hef, hcf, hep, hcp⟩ := hregs
  obtain ⟨hcnt, hstep⟩ := frameOver_te x
  obtain ⟨y, hy, hyt, hyp⟩ := frameTaken_hist x
  have hpi : pInstant x = pInstant s := by rw [pInstant, hi.te rfl, pInstant]
  refine ⟨fun c hc => ?_, ⟨y, ?_, hyt.trans hpi, hyp⟩, hef, hcf, hep, hcp, ?_, hstep, hpr, ?_, (hall.of_same hpr).eq_pick⟩
  · have hs := frameOver_sample (by rw [hi.chans rfl, hl]) hc
    simpa [Chan.sample] using hs
  · rw [(frameOver_changes x).hist rfl, hy, hi.hist rfl]
  · rw [hcnt, hi.te rfl]
  · rw [frameOver_stage, hi.pw rfl]

theorem execCfPulseEnd_of_over (k : Fin 8) (ho : cfOver s k (s.me.cfs.getD k Cf.reset) = true) : exec (.cfPulseEnd k) s =
    .next { s with me := { s.me with cfs := modAt s.me.cfs k fun c => { c with pulse := false } } } := by
  have he : exec (.cfPulseEnd k) s = execCfPulseEnd k s := rfl
  rw [he, execCfPulseEnd]
  rw [if_neg (by rw [ho]; decide)]
  rfl

end Sys2Proof.Machine
end

section
/-! LEMMAS. What the full engine's judgement of a block leaves: the cross-check, the tamper conditions and what they raise (R184,
R187, R194, R196). -/

namespace Sys2Proof.Machine

variable {z s t : State} {c : Nat} {b : Closed}

/-- Of the energy engines what only the closing of a block and the start of accumulation change: Pioneer's totals, the end and the
samples of the block, and whether the full engine runs and accumulates. -/
def Metro.block (m : Metro) : List Regs × List Regs × Nat × Nat × Bool × Bool :=
  (m.regElemP, m.regCircP, m.blockEnd, m.blockN, m.kernels, m.fromB1)

/-- From `z` to `t` the block, Canopy, BLOCK_SEQ and the Heartwood engine stay as they were. -/
structure Judges (z t : State) : Prop where
  block : t.me.block = z.me.block
  canopy : t.wd.canopyRunning = z.wd.canopyRunning
  seq : t.lk.blockSeq = z.lk.blockSeq
  hw : t.hw = z.hw

theorem Judges.refl (s : State) : Judges s s := ⟨rfl, rfl, rfl, rfl⟩

theorem Judges.trans (h : Judges z s) (g : Judges s t) : Judges z t :=
  ⟨g.block.trans h.block, g.canopy.trans h.canopy, g.seq.trans h.seq, g.hw.trans h.hw⟩

/-- So does whatever is quiet and keeps to other parts but for the log. -/
theorem Judges.quiet {q : List Part} (H : Judges z s) (hw : Quiet s t) (h : Changes q s t) (hm : q.contains .me = false)
    (hl : q.contains .lk = false) (hh : q.contains .hw = false) : Judges z t :=
  H.trans ⟨by rw [h.me hm], by rw [hw.wd], by rw [h.lk hl], h.hw hh⟩

theorem Judges.of_changes {q : List Part} (H : Judges z s) (h : Changes q s t) (hm : q.contains .me = false)
    (hw : q.contains .wd = false) (hl : q.contains .lk = false) (hh : q.contains .hw = false) : Judges z t :=
  H.trans ⟨by rw [h.me hm], by rw [h.wd hw], by rw [h.lk hl], h.hw hh⟩

theorem Judges.onMe {f : Metro → Metro} (H : Judges z s) (h : ∀ m, (f m).block = m.block) : Judges z (s.onMe f) :=
  H.trans ⟨h _, rfl, rfl, rfl⟩

theorem judges_ite {p : Prop} [Decidable p] {x y : State} (hx : Judges z x) (hy : Judges z y) :
    Judges z (if p then x else y) := by
  split
  · exact hx
  · exact hy

theorem judges_foldl {α : Type} {f : State → α → State} {l : List α} (hf : ∀ s a, Judges z s → Judges z (f s a))
    (H : Judges z s) : Judges z (l.foldl f s) :=
  List.foldlRecOn l f H fun _ h _ _ => hf _ _ h

theorem log_judges {code : Nat} {d : List Byte} {conts : List (List Byte)} (H : Judges z s) :
    Judges z (s.log code d conts) :=
  H.quiet (log_quiet (.refl s)) (log_ch (.refl [.wd] s) rfl) rfl rfl rfl

/-! ### The answer to a tamper source (R192, R390, R394) -/

theorem irq_judges {n : Nat} (H : Judges z s) : Judges z (s.irq n) := H.trans ⟨rfl, rfl, rfl, rfl⟩

theorem leaveCfTest_judges {p : Cf → Bool} {stays : Bool} (H : Judges z s) : Judges z (s.leaveCfTest p stays) :=
  log_judges (H.onMe fun _ => rfl)

theorem endCfTest_judges (H : Judges z s) : Judges z s.endCfTest := judges_ite (leaveCfTest_judges H) H

theorem lockActions_judges (H : Judges z s) : Judges z s.lockActions :=
  (endCfTest_judges (H.of_changes (onSe_ch (.refl [.se] s) rfl) rfl rfl rfl rfl)).of_changes (onHm_ch (.refl [.hm] _) rfl)
    rfl rfl rfl rfl

theorem respond_judges {resp : Nat} (H : Judges z s) : Judges z (s.respond resp) := by
  unfold State.respond
  extract_lets s1
  have h1 : Judges z s1 := judges_ite (lockActions_judges H) H
  exact judges_ite (irq_judges h1) h1

theorem logRaise_judges {r : Raise} (H : Judges z s) : Judges z (s.logRaise r) :=
  H.quiet (logRaise_quiet (.refl s)) (logRaise_ch (.refl [.wd] s) rfl) rfl rfl rfl

theorem raiseAll_judges {l : List Raise} (H : Judges z s) : Judges z (s.raiseAll l) := by
  unfold State.raiseAll
  extract_lets s1 mask s2 s3
  have hlatch : Changes [.tp, .free] s s1 := ch_foldl (fun _ _ h => latchRaise_ch h rfl) (.refl _ s)
  have h1 : Judges z s1 := H.of_changes hlatch rfl rfl rfl rfl
  have h2 : Judges z s2 :=
    h1.of_changes (ch_foldl (fun _ _ h => bufferRaise_ch h rfl) (.refl [.tp] s1)) rfl rfl rfl rfl
  have h3 : Judges z s3 := respond_judges
    (h1.of_changes (ch_foldl (fun _ _ h => newChallenge_ch h rfl) (.refl [.tp, .free] s1)) rfl rfl rfl rfl)
  have htp {x : State} {f : Tamper → Tamper} (hx : Judges z x) : Judges z (x.onTp f) :=
    hx.of_changes (onTp_ch (.refl [.tp] x) rfl) rfl rfl rfl rfl
  exact judges_ite (judges_ite h2 (htp h2)) (judges_ite (judges_foldl (fun _ _ => logRaise_judges) h3) (htp h3))

theorem tamperCond_judges {slot circuit : Nat} {holds : Bool} (H : Judges z s) :
    Judges z (s.tamperCond slot circuit holds) := by
  have hslot {f : Slot → Slot} : Judges z (s.onSlot slot f) :=
    H.of_changes (onSlot_ch (.refl [.tp] s) rfl) rfl rfl rfl rfl
  unfold State.tamperCond
  extract_lets x
  refine judges_ite H (judges_ite (judges_ite H (judges_ite (raiseAll_judges H) hslot)) ?_)
  exact hslot.quiet (tamperClear_quiet (.refl _)) (tamperClear_ch (.refl [.tp, .wd] _) rfl) rfl rfl rfl

/-- Of the trials that fail, only the Warden's takes the planned checkpoint (Table 18-7). -/
theorem trialFail_judges {kind : Nat} (hk : kind ≠ 0) (H : Judges z s) : Judges z (s.trialFail kind) := by
  unfold State.trialFail
  extract_lets s1
  have h1 : Changes [.up, .free] s s1 := drew_ch (onUp_ch (onRegion_ch (.refl _ s) rfl) rfl) rfl
  rw [if_neg (c := (kind == 0) = true) (by simpa using hk)]
  exact judges_ite (H.of_changes h1 rfl rfl rfl rfl) H

/-! ### The cross-check and the tamper conditions (R194, R196) -/

theorem onRun_judges {f : CircRun → CircRun} (H : Judges z s) : Judges z (s.onRun c f) := H.onMe fun _ => rfl

theorem circBit_judges {bit : Nat} (H : Judges z s) : Judges z (s.circBit c bit) := H.onMe fun _ => rfl

theorem xcheckCirc_judges {a : State × Bool × Bool} (H : Judges z a.1) : Judges z (xcheckCirc b a c).1 := by
  unfold xcheckCirc
  extract_lets s f p last sp sf bad0 bad1 s1 s2 s3 s4
  have h1 : Judges z s1 := onRun_judges H
  have h2 : Judges z s2 := onRun_judges (circBit_judges h1)
  have h3 : Judges z s3 := judges_ite h2 (onRun_judges (log_judges h2))
  have h4 : Judges z s4 := judges_ite h3 (trialFail_judges (by decide) (tamperCond_judges (h3.onMe fun _ => rfl)))
  split
  · exact H
  · split
    · exact onRun_judges (circBit_judges H)
    · split
      · exact h4
      · exact h1

theorem xcheck_judges (H : Judges z s) : Judges z (s.xcheck b) := by
  have hf : Judges z ((List.range 28).foldl (xcheckCirc b) (s, false, false)).1 :=
    List.foldlRecOn (motive := fun a : State × Bool × Bool => Judges z a.1) _ _ H fun _ h _ _ => xcheckCirc_judges h
  unfold State.xcheck
  split
  next s1 compared failed he =>
    rw [he] at hf
    extract_lets run s2
    have h2 : Judges z s2 := hf.onMe fun _ => rfl
    exact judges_ite (tamperCond_judges (log_judges (h2.onMe fun _ => rfl))) h2

theorem tampStep_judges {j : Nat} (H : Judges z s) : Judges z (s.tampStep b c j) := by
  unfold State.tampStep
  extract_lets r need up
  split
  extract_lets holds run clr up2 s1 s2
  have h1 : Judges z s1 := onRun_judges H
  exact judges_ite h1 (tamperCond_judges (log_judges h1))

theorem metroTamper_judges (H : Judges z s) : Judges z (s.metroTamper b) :=
  judges_foldl (fun _ _ h => judges_ite h (judges_foldl (fun _ _ => tampStep_judges) h)) H

theorem judgeBlock_judges (s : State) (b : Closed) : Judges s (s.judgeBlock b) := by
  have H := Judges.refl s
  unfold State.judgeBlock
  extract_lets s1 s2
  have h1 : Judges s s1 := H.onMe fun _ => rfl
  have h2 : Judges s s2 := judges_foldl (fun _ _ h => judges_ite (circBit_judges h) h) h1
  exact judges_ite H (metroTamper_judges (xcheck_judges h2))

end Sys2Proof.Machine
end

section
/-! THEOREMS. A block boundary (R44 to R48, R180 to R185, R318, R346, R411; O34). -/

namespace Sys2Proof.Machine

variable {s : State}

/-! ### A DSP reload and the books (R44 to R48, R411) -/

theorem reloadPass_of_none (h : s.wd.dspReloadWait = false) : s.reloadPass = s := if_neg (by simp [h])

@[simp] theorem reloadPass_stage (s : State) : s.reloadPass.pw.stage = s.pw.stage := by
  unfold State.reloadPass
  split
  · extract_lets s1
    split
    · rw [log_pw]; rfl
    · rfl
  · rfl

/-- B1 is reached at this boundary: the full engine runs and does not accumulate yet. -/
def atB1 (s : State) : Bool := s.me.kernels && !s.me.fromB1

theorem resumeHistory_block (s : State) : s.resumeHistory.me.block = s.me.block := by
  unfold State.resumeHistory
  extract_lets s1
  have hbegin (p : Option PqSums) : (s1.pqBegin p).me = s.me := (pqBegin_ch (.refl [.pq] s1) rfl).me rfl
  split
  · rw [log_me, onMe_me, ← hbegin (savedSums s)]; rfl
  · rw [onMe_me, ← hbegin none]; rfl

theorem resumeHistory_ckpt (s : State) :
    s.resumeHistory.hw.ckpt = s.hw.ckpt ∧ s.resumeHistory.hw.ledger = s.hw.ledger := by
  unfold State.resumeHistory
  extract_lets s1
  have hbegin (p : Option PqSums) : (s1.pqBegin p).hw = s1.hw := (pqBegin_ch (.refl [.pq] s1) rfl).hw rfl
  split
  · rw [log_hw, onMe_hw, hbegin]; exact ⟨rfl, rfl⟩
  · rw [onMe_hw, hbegin]; exact ⟨rfl, rfl⟩

theorem beginB1_pw (s : State) : s.beginB1.pw = { s.pw with shadow := .running, startGap := 0 } := by
  unfold State.beginB1
  extract_lets s1
  rw [(resumeHistory_ch (.refl [.hw, .wd, .me, .pq] _) rfl).pw rfl, log_pw]
  rfl

theorem handover_pw (s : State) : s.handover.pw = { s.pw with acct := true, handoverPending := false, shadow := .none } := by
  unfold State.handover
  extract_lets s1
  rw [log_pw]
  rfl

theorem handover_block (s : State) : s.handover.me.block = s.me.block := by
  unfold State.handover
  extract_lets s1
  rw [log_me]
  rfl

/-- The boundary after B1, before a handover: the full engine's first block is finished. -/
def State.shadowEnds (s : State) : State :=
  if s.pw.shadow == .running then s.onPw fun p => { p with shadow := .finished } else s

theorem shadowEnds_pw (s : State) : s.shadowEnds.pw = { s.pw with shadow := s.shadowEnds.pw.shadow } := by
  unfold State.shadowEnds
  split <;> rfl

theorem shadowEnds_changes (s : State) : Changes [.pw] s s.shadowEnds :=
  ch_ite (fun _ => onPw_ch (.refl _ s) rfl) fun _ => .refl _ s

theorem books_of_B1 (h : atB1 s = true) : s.books = s.beginB1 := if_pos h

theorem books_of_later (h : atB1 s = false) : s.books =
    if s.me.fromB1 && !s.pw.acct && 3 ≤ s.pw.stage && s.wd.canopyRunning then s.shadowEnds.handover else s.shadowEnds := by
  have hb : s.books = if s.shadowEnds.me.fromB1 && !s.shadowEnds.pw.acct && 3 ≤ s.shadowEnds.pw.stage &&
      s.shadowEnds.wd.canopyRunning then s.shadowEnds.handover else s.shadowEnds := if_neg (ne_true_of_eq_false h)
  rw [hb, (shadowEnds_changes s).me rfl, (shadowEnds_changes s).wd rfl, shadowEnds_pw]

/-- Of the block the books change at most that the full engine accumulates. -/
theorem books_block (s : State) : s.books.me.block = { s.me with fromB1 := s.me.fromB1 || atB1 s }.block := by
  cases h : atB1 s with
  | true =>
    have hb : s.beginB1.me.block = { s.me with fromB1 := true }.block := by
      unfold State.beginB1
      extract_lets s1
      rw [resumeHistory_block, log_me]
      rfl
    rw [books_of_B1 h, hb, Bool.or_true]
  | false =>
    rw [books_of_later h, Bool.or_false]
    split
    · rw [handover_block, (shadowEnds_changes s).me rfl]
    · rw [(shadowEnds_changes s).me rfl]

theorem books_ckpt (s : State) : s.books.hw.ckpt = s.hw.ckpt ∧ s.books.hw.ledger = s.hw.ledger := by
  cases h : atB1 s with
  | true =>
    rw [books_of_B1 h]
    unfold State.beginB1
    extract_lets s1
    obtain ⟨hc, hl⟩ := resumeHistory_ckpt (s1.log 0x0201 (le 4 s.pw.startGap))
    rw [hc, hl, log_hw]
    exact ⟨rfl, rfl⟩
  | false =>
    have hch : Changes [.pw, .wd, .me] s s.books := by
      rw [books_of_later h]
      exact ch_ite (fun _ => handover_ch ((shadowEnds_changes s).mono rfl) rfl) fun _ => (shadowEnds_changes s).mono rfl
    rw [hch.hw rfl]
    exact ⟨rfl, rfl⟩

theorem books_stage (s : State) : s.books.pw.stage = s.pw.stage := by
  cases h : atB1 s with
  | true => rw [books_of_B1 h, beginB1_pw]
  | false =>
    rw [books_of_later h]
    split
    · rw [handover_pw, shadowEnds_pw]
    · rw [shadowEnds_pw]

theorem books_hands_over (h1 : s.me.fromB1 = true) (ha : s.pw.acct = false) (h3 : 3 ≤ s.pw.stage)
    (hc : s.wd.canopyRunning = true) : s.books.pw.acct = true ∧ s.books.pw.handoverPending = false := by
  rw [books_of_later (by simp [atB1, h1]), if_pos (by simp [h1, ha, h3, hc]), handover_pw]
  exact ⟨rfl, rfl⟩

theorem pioBegin_ckpt (s : State) : s.pioBegin.hw.ckpt = s.hw.ckpt ∧ s.pioBegin.hw.ledger = s.hw.ledger := by
  unfold State.pioBegin
  split
  · rw [log_hw]; exact ⟨rfl, rfl⟩
  · exact ⟨rfl, rfl⟩

/-! ### The block closes (R180 to R185, R318) -/

/-- Both engines have closed the block and begun the next; the snap window holds its words. -/
def State.blockClosed (s : State) : State :=
  ((((s.closeEngines (closing s)).countEstimated (closing s)).judgeBlock (closing s)).onMe
    fun m => m.fresh (time80 (pInstant s))).latchSnap (closing s)

theorem blockClosed_changes (s : State) : Changes [.hw, .se, .lk, .tp, .wd, .up, .hm, .me, .pq, .free] s s.blockClosed :=
  latchSnap_ch (onMe_ch (judgeBlock_ch (countEstimated_ch (closeEngines_ch (.refl _ s) rfl) rfl) rfl) rfl) rfl

theorem blockClosed_brings (s : State) :
    s.blockClosed.me.block =
      (addAll s.me.regElemP (closing s).ep true 2, addAll s.me.regCircP (closing s).cp true 2, time80 (pInstant s), 0,
        s.me.kernels, s.me.fromB1) ∧
      s.blockClosed.wd.canopyRunning = s.wd.canopyRunning ∧ s.blockClosed.lk.blockSeq = u32 (s.lk.blockSeq + 1) ∧
      s.blockClosed.hw = s.hw := by
  have hj := judgeBlock_judges ((s.closeEngines (closing s)).countEstimated (closing s)) (closing s)
  have hm := hj.block
  simp only [Metro.block, Prod.mk.injEq] at hm
  obtain ⟨hep, hcp, -, -, hk, h1⟩ := hm
  refine ⟨?_, hj.canopy, congrArg (fun n => u32 (n + 1)) hj.seq, hj.hw⟩
  simp only [Metro.block, Prod.mk.injEq]
  exact ⟨hep, hcp, rfl, rfl, hk, h1⟩

/-! ### What the boundary applies and latches (R16, R80, R131, R188, R190) -/

theorem clearMax_block (s : State) (c : Nat) : (s.clearMax c).me.block = s.me.block := by
  unfold State.clearMax
  extract_lets r
  split
  · rw [log_me]; rfl
  · rfl

theorem applyBlock_block (s : State) : s.applyBlock.me.block = s.me.block := by
  unfold State.applyBlock
  extract_lets s1 s2 s3 s4 s5
  have h4 : Changes [.pr, .wd, .ref, .chans, .convs, .stands, .filts, .insts] s s4 := by
    have h1 : Changes [.pr, .wd, .ref, .chans, .convs, .stands, .filts, .insts] s s1 := takeScheduled_ch (.refl _ s) rfl
    have h2 : Changes [.pr, .wd, .ref, .chans, .convs, .stands, .filts, .insts] s s2 :=
      ch_foldl (fun _ _ H => chanChange_ch H rfl) h1
    have h3 : Changes [.pr, .wd, .ref, .chans, .convs, .stands, .filts, .insts] s s3 :=
      ch_ite (fun _ => h2) fun _ => refChange_ch h2 rfl
    exact ch_foldl (fun _ _ H => elemLog_ch H rfl) (ch_foldl (fun _ _ H => mapLog_ch H rfl) h3)
  have h5 : s5.me.block = s4.me.block := rfl
  rw [(ch_foldl (fun _ _ H => pioReload_ch H rfl) (.refl [.filts] s5)).me rfl, h5, h4.me rfl]

/-- The books, and what comes into use and is latched at a boundary. -/
def State.blockApplied (s : State) (t : Nat) : State :=
  (((((List.range 28).foldl State.clearMax s.books.pioBegin).supraStep t).applyBlock).latchChans.latchDisplay).drew 100000

theorem blockApplied_changes (s : State) (t : Nat) : Changes
    [.pr, .wd, .ref, .chans, .convs, .stands, .filts, .insts, .me, .pq, .free, .hm] s.books.pioBegin (s.blockApplied t) :=
  drew_ch (latchDisplay_ch (latchChans_ch (applyBlock_ch (supraStep_ch
    (ch_foldl (fun _ _ H => clearMax_ch H rfl) (.refl _ _)) rfl) rfl) rfl) rfl) rfl

theorem blockApplied_block (s : State) (t : Nat) :
    (s.blockApplied t).me.block = { s.me with fromB1 := s.me.fromB1 || atB1 s }.block := by
  unfold State.blockApplied
  have hclear : ((List.range 28).foldl State.clearMax s.books.pioBegin).me.block = s.books.pioBegin.me.block :=
    List.foldlRecOn (motive := fun x : State => x.me.block = s.books.pioBegin.me.block) _ _ rfl
      fun x hx c _ => (clearMax_block x c).trans hx
  rw [drew_me, (latchDisplay_ch (latchChans_ch (.refl [.chans, .hm] _) rfl) rfl).me rfl, applyBlock_block,
    (supraStep_ch (.refl [.pr, .pq, .free] _) rfl).me rfl, hclear, (pioBegin_ch (.refl [.hw, .wd] _) rfl).me rfl, books_block]

theorem blockApplied_pw (s : State) (t : Nat) : (s.blockApplied t).pw = s.books.pw := by
  rw [(blockApplied_changes s t).pw rfl, (pioBegin_ch (.refl [.hw, .wd] _) rfl).pw rfl]

theorem blockApplied_ckpt (s : State) (t : Nat) :
    (s.blockApplied t).hw.ckpt = s.hw.ckpt ∧ (s.blockApplied t).hw.ledger = s.hw.ledger := by
  obtain ⟨hbc, hbl⟩ := books_ckpt s
  obtain ⟨hpc, hpl⟩ := pioBegin_ckpt s.books
  rw [(blockApplied_changes s t).hw rfl]
  exact ⟨hpc.trans hbc, hpl.trans hbl⟩

/-! ### The routine checkpoint (R346) -/

theorem checkpoint_of_pfail (h : s.hw.ckpt.any (fun c => c.kind == 1) = true) (src : State) : s.checkpoint src 0 = s :=
  if_pos (by simp [h])

/-- It goes to the copy that does not hold the last complete one, with SEQUENCE one later. -/
theorem checkpoint_routine (h : s.hw.ckpt.any (fun c => c.kind == 1) = false) (src : State) :
    ∃ c, (s.checkpoint src 0).hw.ckpt = some c ∧ c.kind = 0 ∧
      (∀ k n, s.hw.ledger = some (k, n) → c.base = ledgerBase (1 - k == 1) ∧ c.seq = (n + 1) % 2 ^ 32) ∧
      (s.hw.ledger = none → c.base = ledgerBase false ∧ c.seq = 1) := by
  unfold State.checkpoint
  rw [if_neg (by simp [h])]
  extract_lets s1 old marks rest s2
  have hl : s1 = s := if_neg (by decide)
  rw [hl]
  cases h : s.hw.ledger with
  | none => exact ⟨_, rfl, rfl, nofun, fun _ => ⟨rfl, rfl⟩⟩
  | some e =>
    refine ⟨_, rfl, rfl, fun k n he => ?_, nofun⟩
    cases he
    exact ⟨rfl, rfl⟩

/-! ### The boundary -/

/-- The block has closed, what follows from it is done, and a routine checkpoint of it has begun. -/
def State.boundaryDone (s : State) : State :=
  (s.blockClosed.blockApplied (pInstant s)).checkpoint (s.blockClosed.blockApplied (pInstant s)) 0

theorem execBlockBoundary_of_due (hd : delivers s = true) (hr : s.te.running = true) (hb : blockDue s = true) :
    exec .blockBoundary s = .next s.reloadPass.boundaryDone := by
  have he : exec .blockBoundary s = execBlockBoundary s := rfl
  rw [he, execBlockBoundary, if_neg (by simp [hd, hr, hb])]
  rfl

/-- After the block has closed the host registers, sessions, tamper state and updates stay as they are. -/
theorem boundaryDone_changes_of_closed (s : State) : Changes
    [.pw, .hw, .pr, .wd, .hm, .ref, .chans, .convs, .stands, .filts, .insts, .me, .pq, .free] s.blockClosed s.boundaryDone :=
  checkpoint_ch ((pioBegin_ch (books_ch (.refl _ _) rfl) rfl).trans ((blockApplied_changes _ _).mono rfl)) rfl

theorem boundaryDone_changes (s : State) : Changes [.pw, .hw, .se, .pr, .lk, .tp, .wd, .up, .hm, .ref, .chans, .convs, .stands,
    .filts, .insts, .me, .pq, .free] s s.boundaryDone :=
  ((blockClosed_changes s).mono rfl).trans ((boundaryDone_changes_of_closed s).mono rfl)

theorem boundaryDone_block (s : State) : s.boundaryDone.me.block =
    (addAll s.me.regElemP (closing s).ep true 2, addAll s.me.regCircP (closing s).cp true 2, time80 (pInstant s), 0,
      s.me.kernels, s.me.fromB1 || atB1 s) := by
  obtain ⟨hv, -, -, -⟩ := blockClosed_brings s
  have ht : s.boundaryDone.me = (s.blockClosed.blockApplied (pInstant s)).me :=
    (checkpoint_ch (.refl [.hw, .wd, .pq, .free] _) rfl).me rfl
  rw [ht, blockApplied_block]
  simp only [Metro.block, Prod.mk.injEq, atB1] at hv ⊢
  obtain ⟨hep, hcp, hend, hn, hk, h1⟩ := hv
  rw [hep, hcp, hend, hn, hk, h1]
  exact ⟨rfl, rfl, rfl, rfl, rfl, rfl⟩

theorem boundaryDone_blockSeq (s : State) : s.boundaryDone.lk.blockSeq = u32 (s.lk.blockSeq + 1) := by
  obtain ⟨-, -, hseq, -⟩ := blockClosed_brings s
  rw [(boundaryDone_changes_of_closed s).lk rfl, hseq]

theorem boundaryDone_pw (s : State) : s.boundaryDone.pw = s.blockClosed.books.pw := by
  rw [← blockApplied_pw _ (pInstant s)]
  exact (checkpoint_ch (.refl [.hw, .wd, .pq, .free] _) rfl).pw rfl

theorem boundaryDone_stage (s : State) : s.boundaryDone.pw.stage = s.pw.stage := by
  rw [boundaryDone_pw, books_stage, (blockClosed_changes s).pw rfl]

theorem boundaryDone_begins_B1 (hk : s.me.kernels = true) (h1 : s.me.fromB1 = false) :
    s.boundaryDone.me.fromB1 = true ∧ s.boundaryDone.pw.shadow = .running ∧ s.boundaryDone.pw.startGap = 0 := by
  have hb := boundaryDone_block s
  obtain ⟨hv, -, -, -⟩ := blockClosed_brings s
  simp only [Metro.block, Prod.mk.injEq] at hb hv
  obtain ⟨-, -, -, -, -, hfrom⟩ := hb
  obtain ⟨-, -, -, -, hvk, hv1⟩ := hv
  have hat : atB1 s.blockClosed = true := by rw [atB1, hvk, hv1, hk, h1]; rfl
  rw [boundaryDone_pw, books_of_B1 hat, beginB1_pw, hfrom]
  exact ⟨by simp [atB1, hk, h1], rfl, rfl⟩

theorem boundaryDone_hands_over (h1 : s.me.fromB1 = true) (ha : s.pw.acct = false) (h3 : 3 ≤ s.pw.stage)
    (hc : s.wd.canopyRunning = true) :
    s.boundaryDone.pw.acct = true ∧ s.boundaryDone.pw.handoverPending = false := by
  obtain ⟨hv, hcanopy, -, -⟩ := blockClosed_brings s
  simp only [Metro.block, Prod.mk.injEq] at hv
  obtain ⟨-, -, -, -, -, hv1⟩ := hv
  have hpw : s.blockClosed.pw = s.pw := (blockClosed_changes s).pw rfl
  rw [boundaryDone_pw]
  exact books_hands_over (hv1.trans h1) (by rw [hpw, ha]) (by rw [hpw]; exact h3) (hcanopy.trans hc)

theorem boundaryDone_ckpt (s : State) :
    (s.hw.ckpt.any (fun c => c.kind == 1) = true → s.boundaryDone.hw.ckpt = s.hw.ckpt) ∧
      (s.hw.ckpt.any (fun c => c.kind == 1) = false → ∃ c, s.boundaryDone.hw.ckpt = some c ∧ c.kind = 0 ∧
        (∀ k n, s.hw.ledger = some (k, n) → c.base = ledgerBase (1 - k == 1) ∧ c.seq = (n + 1) % 2 ^ 32) ∧
        (s.hw.ledger = none → c.base = ledgerBase false ∧ c.seq = 1)) := by
  obtain ⟨-, -, -, hhw⟩ := blockClosed_brings s
  obtain ⟨hck, hled⟩ := blockApplied_ckpt s.blockClosed (pInstant s)
  rw [hhw] at hck hled
  rw [← hck, ← hled, State.boundaryDone]
  exact ⟨fun h => by rw [checkpoint_of_pfail h], fun h => checkpoint_routine h _⟩

theorem execBlockBoundary_brings (hd : delivers s = true) (hr : s.te.running = true) (hb : blockDue s = true) :
    Gives .blockBoundary s fun t =>
      t.me.regElemP = addAll s.me.regElemP (closing s.reloadPass).ep true 2 ∧
      t.me.regCircP = addAll s.me.regCircP (closing s.reloadPass).cp true 2 ∧
      t.me.blockEnd = time80 (pInstant s) ∧ t.me.blockN = 0 ∧
      t.lk.blockSeq = u32 (s.lk.blockSeq + 1) ∧ t.te.cnt = s.te.cnt ∧ t.pw.stage = s.pw.stage ∧
      (s.me.kernels = true → s.me.fromB1 = false → t.me.fromB1 = true ∧ t.pw.shadow = .running ∧ t.pw.startGap = 0) ∧
      (s.me.fromB1 = true → s.wd.dspReloadWait = false → s.pw.acct = false → 3 ≤ s.pw.stage →
        s.wd.canopyRunning = true → t.pw.acct = true ∧ t.pw.handoverPending = false) ∧
      (s.hw.ckpt.any (fun c => c.kind == 1) = true → t.hw.ckpt = s.hw.ckpt) ∧
      (s.hw.ckpt.any (fun c => c.kind == 1) = false → ∃ c, t.hw.ckpt = some c ∧ c.kind = 0 ∧
        (∀ k n, s.hw.ledger = some (k, n) → c.base = ledgerBase (1 - k == 1) ∧ c.seq = (n + 1) % 2 ^ 32) ∧
        (s.hw.ledger = none → c.base = ledgerBase false ∧ c.seq = 1)) ∧
      t = { s with pw := t.pw, hw := t.hw, se := t.se, pr := t.pr, lk := t.lk, tp := t.tp, wd := t.wd, up := t.up, hm := t.hm,
                   ref := t.ref, chans := t.chans, convs := t.convs, stands := t.stands, filts := t.filts, insts := t.insts,
                   me := t.me, pq := t.pq, free := t.free } := by
  have hp : Changes [.pw, .wd] s s.reloadPass := reloadPass_ch (.refl _ s) rfl
  have hall := (hp.mono rfl).trans (boundaryDone_changes s.reloadPass)
  have hblock := boundaryDone_block s.reloadPass
  have hpi : pInstant s.reloadPass = pInstant s := by rw [pInstant, hp.te rfl, pInstant]
  rw [hp.me rfl, hpi] at hblock
  simp only [Metro.block, Prod.mk.injEq] at hblock
  obtain ⟨hep, hcp, hend, hn, -, -⟩ := hblock
  have hck := boundaryDone_ckpt s.reloadPass
  rw [hp.hw rfl] at hck
  obtain ⟨hpfail, hroutine⟩ := hck
  refine ⟨_, execBlockBoundary_of_due hd hr hb, hep, hcp, hend, hn, ?_, ?_, ?_, fun hk h1 => ?_, fun h1 hw ha h3 hc => ?_,
    hpfail, hroutine, hall.eq_pick⟩
  · rw [boundaryDone_blockSeq, hp.lk rfl]
  · rw [hall.te rfl]
  · rw [boundaryDone_stage, reloadPass_stage]
  · exact boundaryDone_begins_B1 (by rw [hp.me rfl]; exact hk) (by rw [hp.me rfl]; exact h1)
  · rw [reloadPass_of_none hw]
    exact boundaryDone_hands_over h1 ha h3 hc

/-- Settles O34: a frame is the chain's samples in the channels, which condemned converters leave as they are, and a boundary closes
the block before it settles the books and begins a checkpoint; that a frame off the grid is no event is the model's choice
(assumption 5). -/
theorem framesBlocksAndRegisters : Obligations.FramesBlocksAndRegisters := fun _ =>
  ⟨fun _ hf hd hl => execDspFrame_brings hf hd hl, fun _ hf hd => execDspFrame_of_still hf hd,
    fun _ hf => execDspFrame_of_misfit hf, fun k ho => execCfPulseEnd_of_over k ho,
    fun hd hr hb => execBlockBoundary_brings hd hr hb⟩

end Sys2Proof.Machine
end

section
/-! LEMMAS. A set that is kept: where its pages lie, and what of the store its writing leaves (R34, R36, R146, R343, R356 to
R358). -/

namespace Sys2Proof.Machine

variable {s t : State} {l : List (Nat × Nat)} {c : Nat} {bs : List Byte}

/-! ### Bytes kept, and a write across pages (R338, R354) -/

/-- Bytes kept outside some ranges are kept outside ranges that hold these. -/
theorem keepsBytes_widen {m : List (Nat × Nat)} (h : keepsBytes s t l)
    (hm : ∀ e ∈ l, ∃ r ∈ m, r.1 ≤ e.1 ∧ e.1 + e.2 ≤ r.1 + r.2) : keepsBytes s t m := fun a ha => h a fun e he => by
  obtain ⟨r, hr, hlo, hhi⟩ := hm e he
  have := ha r hr
  omega

theorem wr_keepsBytes {a : Nat} (h0 : (0, 256) ∈ l) (ha : (a, bs.length) ∈ l) (hs : a + bs.length ≤ storeSize) :
    keepsBytes s (s.wr a bs) l := fun k hk => by
  have h256 := hk _ h0
  exact wr_out hs (by omega) (hk _ ha)

/-! ### The record layer leaves the list of kept sets -/

/-- What holds of a chain of stores and is kept by the next one holds behind it. -/
theorem andThen_keeps {P : State → Prop} {r : State × Bool} {f : State → State × Bool} (hr : P r.1)
    (hf : ∀ x, P x → P (f x).1) : P (andThen r f).1 := by
  unfold andThen
  split
  · exact hf _ hr
  · exact hr

theorem sense_p2Sets (s : State) (a n : Nat) : (s.sense a n).hw.p2Sets = s.hw.p2Sets := by
  unfold State.sense
  refine List.foldlRecOn (motive := fun x : State => x.hw.p2Sets = s.hw.p2Sets) _ _ rfl fun x h f _ => ?_
  unfold State.senseFlip State.uncorrectable
  split
  · rw [log_hw]; exact h
  · rw [log_hw]; exact h

theorem pageWrite_p2Sets (s : State) (part page : Nat) (bs : List Byte) :
    (s.pageWrite part page bs).hw.p2Sets = s.hw.p2Sets := rfl

theorem fixRecord_p2Sets (s : State) (part : Nat) (e : Nat × Nat) : (s.fixRecord part e).hw.p2Sets = s.hw.p2Sets := by
  unfold State.fixRecord State.recordFix
  split
  · rfl
  · extract_lets s1
    have h1 : s1.hw.p2Sets = s.hw.p2Sets := sense_p2Sets ..
    split
    · split
      · rw [log_hw]; exact h1
      · exact h1
    · exact h1
    · exact h1
    · rw [log_hw]; exact h1

theorem recordPut_p2Sets (s : State) (part : Nat) (e : Nat × Nat) (flags seq : Nat) (bs : List Byte) :
    (s.recordPut part e flags seq bs).1.hw.p2Sets = s.hw.p2Sets := by
  unfold State.recordPut
  extract_lets page put good s1 s2
  have hput (x : State) : (put x).hw.p2Sets = x.hw.p2Sets := by
    rw [sense_p2Sets, pageWrite_p2Sets]
  have h2 : s2.hw.p2Sets = s.hw.p2Sets := (hput s1).trans (hput s)
  split
  · exact hput s
  · split
    · exact h2
    · rw [log_hw]; exact h2

theorem itemPut_p2Sets (s : State) (part : Nat) (es : List (Nat × Nat)) (bs : List Byte) :
    (s.itemPut part es bs).1.hw.p2Sets = s.hw.p2Sets := by
  unfold State.itemPut
  extract_lets s1 q
  have h1 : s1.hw.p2Sets = s.hw.p2Sets :=
    List.foldlRecOn (motive := fun x : State => x.hw.p2Sets = s.hw.p2Sets) _ _ rfl fun x h e _ =>
      (fixRecord_p2Sets x part e).trans h
  refine List.foldlRecOn (motive := fun r : State × Bool => r.1.hw.p2Sets = s.hw.p2Sets) _ _ h1 fun r hr e _ => ?_
  exact andThen_keeps (P := fun x => x.hw.p2Sets = s.hw.p2Sets) hr fun x hx => (recordPut_p2Sets x ..).trans hx

/-! ### The layout of the sets (R343) -/

theorem pairsUsed_cons (e : Nat × List Byte) (l : List (Nat × List Byte)) :
    pairsUsed (e :: l) = setPairs (byteAt e.2 0).toNat + pairsUsed l := by
  have hsum (l : List (Nat × List Byte)) : pairsUsed l = (l.map fun e => setPairs (byteAt e.2 0).toNat).sum := by
    rw [pairsUsed, List.sum_eq_foldl, List.foldl_map]
  rw [hsum, hsum, List.map_cons, List.sum_cons]

/-- The records of an item lie in the page pairs that hold sets. -/
def SetRecs (es : List (Nat × Nat)) : Prop := ∀ e ∈ es, ∃ k < 56, setRec k = e

/-- One set laid out in the page pairs behind those of the sets before it. -/
def layNext (a : (State × Bool) × Nat) (e : Nat × List Byte) : (State × Bool) × Nat :=
  (andThen a.1 fun x => x.writeParts a.2 (setPairs (byteAt e.2 0).toNat) (le 4 e.1 ++ e.2),
    a.2 + setPairs (byteAt e.2 0).toNat)

/-- A page pair behind the sets is freed. -/
def State.freePair (x : State) (k : Nat) : State × Bool :=
  if blankPair x 2 (setRec k).2 || recordPayload x 2 (setRec k).1 (setRec k).2 == some [] then (x, true)
  else x.itemPut 2 [setRec k] []

theorem layoutSets_eq (s : State) : s.layoutSets =
    ((List.range 56).drop (s.hw.p2Sets.foldl layNext ((s, true), 0)).2).foldl (fun a k => andThen a fun x => x.freePair k)
      (s.hw.p2Sets.foldl layNext ((s, true), 0)).1 := rfl

section
variable {P : State → Prop} (hput : ∀ x es bs, SetRecs es → P x → P (x.itemPut 2 es bs).1)
include hput

theorem writeParts_induction {pair parts : Nat} (hfit : pair + parts ≤ 56) (hs : P s) : P (s.writeParts pair parts bs).1 := by
  unfold State.writeParts
  extract_lets es
  split
  · exact hs
  · refine hput _ _ _ (fun e he => ?_) hs
    obtain ⟨k, hk, rfl⟩ := List.mem_map.1 he
    have := List.mem_range.1 hk
    exact ⟨pair + k, by omega, rfl⟩

theorem layNext_foldl_induction (sets : List (Nat × List Byte)) (a : (State × Bool) × Nat) (ha : P a.1.1)
    (hfit : a.2 + pairsUsed sets ≤ 56) : P (sets.foldl layNext a).1.1 := by
  induction sets generalizing a with
  | nil => exact ha
  | cons e sets ih =>
    rw [pairsUsed_cons] at hfit
    have he : P (layNext a e).1.1 := andThen_keeps ha fun x hx => writeParts_induction hput (by omega) hx
    exact ih _ he (by simp only [layNext]; omega)

theorem freePair_induction {k : Nat} (hk : k < 56) (hs : P s) : P (s.freePair k).1 := by
  unfold State.freePair
  split
  · exact hs
  · exact hput _ _ _ (fun e he => ⟨k, hk, (List.mem_singleton.1 he).symm⟩) hs

/-- What every item written to the sets' page pairs keeps holds after a layout of sets that fit them. -/
theorem layoutSets_induction (hs : P s) (hfit : pairsUsed s.hw.p2Sets ≤ 56) : P s.layoutSets.1 := by
  rw [layoutSets_eq]
  have hlaid := layNext_foldl_induction hput s.hw.p2Sets ((s, true), 0) hs (by simpa using hfit)
  refine List.foldlRecOn (motive := fun q : State × Bool => P q.1) _ _ hlaid fun q hq k hk => ?_
  have hk := List.mem_range.1 (List.mem_of_mem_drop hk)
  exact andThen_keeps hq fun x hx => freePair_induction hput hk hx

end

theorem layoutSets_p2Sets (hfit : pairsUsed s.hw.p2Sets ≤ 56) : s.layoutSets.1.hw.p2Sets = s.hw.p2Sets :=
  layoutSets_induction (P := fun x => x.hw.p2Sets = s.hw.p2Sets)
    (fun x es bs _ h => (itemPut_p2Sets x 2 es bs).trans h) rfl hfit

/-- The torn bitmap and the page pairs that hold sets. -/
def setRanges : List (Nat × Nat) := (0, 256) :: (List.range 56).map fun k => (pageAddr 2 (setRec k).2, 512)

theorem setRanges_pairIn {k : Nat} (hk : k < 56) : PairIn setRanges 2 (setRec k).2 := by
  refine ⟨List.mem_cons_self .., List.mem_cons_of_mem _ (List.mem_map.2 ⟨k, List.mem_range.2 hk, rfl⟩), ?_⟩
  change 256 + (16 + 2 * k) + 1 < 2048
  omega

/-- A layout of the sets changes P2 and the torn bitmap. -/
theorem layoutSets_keepsBytes (hfit : pairsUsed s.hw.p2Sets ≤ 56) (h0 : (0, 256) ∈ l) (h2 : (pageAddr 2 0, 128 * 256) ∈ l) :
    keepsBytes s s.layoutSets.1 l := by
  have hput (x : State) {es : List (Nat × Nat)} {bs : List Byte} (hes : SetRecs es) :
      keepsBytes x (x.itemPut 2 es bs).1 setRanges := itemPut_keepsBytes fun e he => by
    obtain ⟨k, hk, rfl⟩ := hes e he
    exact setRanges_pairIn hk
  have h : keepsBytes s s.layoutSets.1 setRanges :=
    layoutSets_induction (P := fun x => keepsBytes s x setRanges) (fun x es bs hes hx => keepsBytes_trans hx (hput x hes))
      (keepsBytes_refl s _) hfit
  refine keepsBytes_widen h fun e he => ?_
  obtain rfl | he := List.mem_cons.1 he
  · exact ⟨_, h0, Nat.le_refl _, Nat.le_refl _⟩
  · obtain ⟨k, hk, rfl⟩ := List.mem_map.1 he
    have := List.mem_range.1 hk
    refine ⟨_, h2, ?_⟩
    change (256 + 0) * 256 ≤ (256 + (16 + 2 * k)) * 256 ∧ (256 + (16 + 2 * k)) * 256 + 512 ≤ (256 + 0) * 256 + 128 * 256
    omega

/-! ### The Pioneer record (R34, R36) -/

theorem pioCopy_length (s : State) (seq : Nat) : (pioCopy (pioBody s) seq).length = 2048 := by
  have hfit (n : Nat) (bs : List Byte) : (fitBytes n bs).length = n := by
    simp [fitBytes, zeros]
    omega
  have hbody : (pioBody s).length = 2032 := hfit ..
  simp [pioCopy, hbody, le, zeros]

theorem wr_p2Sets (s : State) (a : Nat) (bs : List Byte) : (s.wr a bs).hw.p2Sets = s.hw.p2Sets :=
  wr_keeps (P := fun x => x.hw.p2Sets = s.hw.p2Sets) (fun _ _ h => h) a bs rfl

theorem pioUpdate_p2Sets (s : State) : s.pioUpdate.hw.p2Sets = s.hw.p2Sets := by
  unfold State.pioUpdate State.pioWrite
  split
  · split
    · exact wr_p2Sets ..
    · exact (wr_p2Sets ..).trans (wr_p2Sets ..)
  · rfl

/-- A rewrite of the Pioneer record changes its copies and the torn bitmap. -/
theorem pioUpdate_keepsBytes (h0 : (0, 256) ∈ l) (hp : ∀ b, (pioBase b, 2048) ∈ l) : keepsBytes s s.pioUpdate l := by
  have hwr (x : State) (b : Bool) (y : State) (q : Nat) : keepsBytes x (x.wr (pioBase b) (pioCopy (pioBody y) q)) l := by
    have hlen := pioCopy_length y q
    refine wr_keepsBytes h0 (by rw [hlen]; exact hp b) ?_
    rw [hlen]
    cases b <;> decide
  unfold State.pioUpdate State.pioWrite
  split
  · split
    · exact onHw_keepsBytes (hwr _ _ _ _) fun _ => rfl
    · exact onHw_keepsBytes (keepsBytes_trans (hwr _ _ _ _) (hwr _ _ _ _)) fun _ => rfl
  · exact keepsBytes_refl s l

/-! ### A set is kept, or is not (R146, R343, R357) -/

/-- The set takes its place among those that are to be laid out. -/
def State.withSet (s : State) (c : Nat) (bs : List Byte) : State :=
  s.onHw fun h => { h with p2Sets := setsWith h.p2Sets c bs }

/-- A set that has a place in P2 leaves the sets within the page pairs. -/
theorem withSet_fits (h : keepFull s c bs = false) : pairsUsed (s.withSet c bs).hw.p2Sets ≤ 56 := by
  simp only [keepFull, Bool.or_eq_false_iff, decide_eq_false_iff_not, Nat.not_lt] at h
  exact h.2

theorem withSet_layout_keepsBytes (hf : keepFull s c bs = false) (h0 : (0, 256) ∈ l) (h2 : (pageAddr 2 0, 128 * 256) ∈ l) :
    keepsBytes s (s.withSet c bs).layoutSets.1 l :=
  keepsBytes_trans (keepsBytes_of_mem rfl) (layoutSets_keepsBytes (withSet_fits hf) h0 h2)

theorem keepPut_eq (s : State) (c : Nat) (bs : List Byte) : s.keepPut c bs =
    if (s.withSet c bs).layoutSets.2 then ((s.withSet c bs).layoutSets.1.pioUpdate, true)
    else ((s.withSet c bs).layoutSets.1.onHw fun h => { h with p2Sets := s.hw.p2Sets }, false) := rfl

theorem keepPut_of_held (hf : keepFull s c bs = false) (hk : (s.keepPut c bs).2 = true) (h0 : (0, 256) ∈ l)
    (h2 : (pageAddr 2 0, 128 * 256) ∈ l) (hp : ∀ b, (pioBase b, 2048) ∈ l) :
    (s.keepPut c bs).1.hw.p2Sets = setsWith s.hw.p2Sets c bs ∧ keepsBytes s (s.keepPut c bs).1 l := by
  rw [keepPut_eq] at hk ⊢
  split at hk
  next hl =>
    rw [if_pos hl]
    exact ⟨(pioUpdate_p2Sets _).trans (layoutSets_p2Sets (withSet_fits hf)),
      keepsBytes_trans (withSet_layout_keepsBytes hf h0 h2) (pioUpdate_keepsBytes h0 hp)⟩
  next => cases hk

theorem keepPut_of_failed (hf : keepFull s c bs = false) (hk : (s.keepPut c bs).2 = false) (h0 : (0, 256) ∈ l)
    (h2 : (pageAddr 2 0, 128 * 256) ∈ l) :
    (s.keepPut c bs).1.hw.p2Sets = s.hw.p2Sets ∧ keepsBytes s (s.keepPut c bs).1 l := by
  rw [keepPut_eq] at hk ⊢
  split at hk
  next => cases hk
  next hl =>
    rw [if_neg hl]
    exact ⟨rfl, onHw_keepsBytes (withSet_layout_keepsBytes hf h0 h2) fun _ => rfl⟩

end Sys2Proof.Machine
end

section
/-! THEOREMS. Shaping filters: stop, load, start, bank writes, and the stages of a swap (R136, R142 to R149, R152, R153, Table 6-18;
O31). -/

namespace Sys2Proof.Machine

variable {s t u : State} {h : Hdr} {c : Nat} {x : Filt} {set : List Byte}

/-! ### One filter among the others -/

/-- From `s` to `t` filter `c` becomes `x` and every other filter stays as it was. -/
structure FiltTo (c : Nat) (x : Filt) (s t : State) : Prop where
  lt : c < t.filts.length
  filt : t.filt c = x
  others : ∀ j, j ≠ c → t.filt j = s.filt j

theorem FiltTo.refl (hc : c < s.filts.length) : FiltTo c (s.filt c) s s := ⟨hc, rfl, fun _ _ => rfl⟩

theorem FiltTo.onFilt (H : FiltTo c x s t) (f : Filt → Filt) : FiltTo c (f x) s (t.onFilt c f) where
  lt := by rw [onFilt_filts, modAt_length]; exact H.lt
  filt := by rw [← H.filt]; exact modAt_getD_self _ _ _ _ H.lt
  others j hj := (modAt_getD_ne _ _ _ _ _ hj).trans (H.others j hj)

theorem FiltTo.of_filts (H : FiltTo c x s t) (h : u.filts = t.filts) : FiltTo c x s u := by
  have hf (j : Nat) : u.filt j = t.filt j := by rw [State.filt, h, State.filt]
  exact ⟨by rw [h]; exact H.lt, (hf c).trans H.filt, fun j hj => (hf j).trans (H.others j hj)⟩

theorem FiltTo.log (H : FiltTo c x s t) (code : Nat) (d : List Byte) : FiltTo c x s (t.log code d) :=
  H.of_filts (log_filts ..)

theorem FiltTo.onInsts (H : FiltTo c x s t) (n : Nat) (f : Inst → Inst) : FiltTo c x s (t.onInsts n f) :=
  H.of_filts ((onInsts_ch (.refl [.insts] t) rfl).filts rfl)

/-- An accepted request has the filters as they were. -/
theorem FiltTo.accepted (h : Hdr) (hl : s.filts.length = 36) (hc : c ≤ 35) : FiltTo c (s.filt c) s (s.accepted h) :=
  (FiltTo.refl (by omega)).of_filts (accepted_filts s h)

@[simp] theorem accepted_filt (s : State) (h : Hdr) (c : Nat) : (s.accepted h).filt c = s.filt c := by
  rw [State.filt, accepted_filts, State.filt]

/-! ### What the operations make of a filter -/

theorem FiltTo.cancelLoad (H : FiltTo c x s t) : FiltTo c { x with load := none } s (t.cancelLoad c) := by
  unfold State.cancelLoad
  split
  next hn =>
    rw [H.filt] at hn
    rw [← hn]
    exact H
  next => exact (H.onFilt fun f => { f with load := none }).log ..

theorem FiltTo.cancelLoading (H : FiltTo c x s t) : FiltTo c { x with loading := none } s (t.cancelLoading c) := by
  unfold State.cancelLoading
  split
  next hn =>
    rw [H.filt] at hn
    rw [← hn]
    exact H
  next => exact (H.onFilt fun f => { f with loading := none }).log ..

/-- A stop gives up loads and swaps (R145). -/
theorem FiltTo.filterStop (H : FiltTo c x s t) :
    FiltTo c { x with load := none, loading := none, stopped := true, swap := none, held := none } s (t.filterStop c) := by
  unfold State.filterStop
  extract_lets f s1 s2
  have h1 : FiltTo c { x with load := none, loading := none } s s1 := H.cancelLoad.cancelLoading
  have h2 : FiltTo c { x with load := none, loading := none } s s2 := by
    unfold s2
    split
    · exact h1
    · exact h1.log ..
  exact h2.onFilt fun y => { y with stopped := true, swap := none, held := none }

theorem FiltTo.writeBankA (H : FiltTo c x s t) (b : CoefSet) (keep : Bool) :
    FiltTo c { x with bankA := b, actB := false, owed := false, pioReload := pioNext x b keep (blockIdx t.now) } s
      (t.writeBankA c b keep) :=
  (H.onFilt fun f => { f with bankA := b, actB := false, owed := false, pioReload := pioNext f b keep (blockIdx t.now) }).onInsts ..

theorem FiltTo.filterStart (H : FiltTo c x s t) :
    FiltTo c { x with stopped := false, change := true,
                      uns := Nat.max x.uns (68 + (activeBank x).taps.length + bqSettle t c) } s (t.filterStart c) :=
  (H.onFilt fun f => { f with stopped := false, change := true,
                              uns := Nat.max f.uns (68 + (activeBank f).taps.length + bqSettle t c) }).onInsts ..

theorem FiltTo.startSwap (H : FiltTo c x s t) (prime fade : Nat) :
    FiltTo c { x with swap := some ⟨!x.actB, prime, fade, false, 0, bqSettle t c⟩ } s (t.startSwap c prime fade) :=
  (H.onFilt fun f => { f with swap := some ⟨!f.actB, prime, fade, false, 0, bqSettle t c⟩ }).onInsts ..

/-- A request that waits displaces the one that waited before it (R149). -/
theorem FiltTo.holdSwap (H : FiltTo c x s t) (prime fade : Nat) :
    FiltTo c { x with held := some (prime, fade),
                      displaced := if x.held.isSome then u32 (x.displaced + 1) else x.displaced } s
      (t.holdSwap c prime fade) := by
  unfold State.holdSwap
  extract_lets f s1
  have h1 : FiltTo c { x with held := some (prime, fade) } s s1 := H.onFilt fun y => { y with held := some (prime, fade) }
  have hf : f = x := H.filt
  rw [hf]
  split
  · exact (h1.onFilt fun y => { y with displaced := u32 (y.displaced + 1) }).log ..
  · exact h1

/-! ### Requests -/

/-- A filter request that is served answers with the filter's state behind it (R152). -/
theorem answers_of_filterReply {i : Instr} {op : Op} {lenOk : Bool} {checks : State → List (Bool × Status)}
    {act : State → Ans} {st : Status} {v : State} {p : State → List Byte → Prop}
    (he : exec i s = .next (serve op h lenOk checks act s)) (ho : Opens op h s) (hl : lenOk = true)
    (hc : firstFail (checks (s.accepted h)) = none) (ha : act (s.accepted h) = ⟨v, st, filterReply v c⟩)
    (hp : p v (filterReply v c)) : Answers i s op h st p :=
  answers_of he ho hl hc (by rw [ha]) (by rw [ha]; exact hp)

/-- The checks of an opcode that a channel below LOCK passes. -/
theorem channelChecks_pass (hk : locked (s.accepted h) = false) (hc : c ≤ 35) :
    firstFail [(locked (s.accepted h), .locked), (35 < c, .valueRange)] = none := by
  simp [firstFail, hk, hc]

theorem execFilterStop_answers (ho : Opens opFilterStop h s) (hl : h.len = 4) (hk : locked (s.accepted h) = false)
    (hc : c ≤ 35) (hf : s.filts.length = 36) :
    Answers (.filterStop h c) s opFilterStop h .ok fun v bs =>
      (v.filt c).stopped = true ∧ bs = filterReply v c ∧
      ((s.filt c).stopped = false → (v.filt c).swap = none ∧ (v.filt c).held = none ∧ (v.filt c).load = none ∧
        (v.filt c).loading = none) ∧
      (∀ j, j ≠ c → v.filt j = s.filt j) ∧ v = { s.accepted h with filts := v.filts, wd := v.wd } := by
  have H := FiltTo.accepted h hf hc
  have hck := channelChecks_pass hk hc
  have hlen : (h.len == 4) = true := beq_iff_eq.2 hl
  cases hs : (s.filt c).stopped with
  | true =>
    refine answers_of_filterReply (c := c) (v := s.accepted h) rfl ho hlen hck (by simp [hs]) ?_
    exact ⟨by rw [H.filt, hs], rfl, fun hn => absurd hn.symm Bool.false_ne_true, H.others, rfl⟩
  | false =>
    refine answers_of_filterReply (c := c) (v := (s.accepted h).filterStop c) rfl ho hlen hck (by simp [hs]) ?_
    have H1 := H.filterStop
    refine ⟨by rw [H1.filt], rfl, fun _ => ?_, H1.others, (filterStop_ch (.refl [.filts, .wd] _) rfl).eq_pick⟩
    rw [H1.filt]
    exact ⟨rfl, rfl, rfl, rfl⟩

theorem execFilterStart_answers (ho : Opens opFilterStart h s) (hl : h.len = 4) (hk : locked (s.accepted h) = false)
    (hc : c ≤ 35) (hf : s.filts.length = 36) :
    Answers (.filterStart h c) s opFilterStart h .ok fun v bs =>
      (v.filt c).stopped = false ∧ bs = filterReply v c ∧
      ((s.filt c).stopped = true → (v.filt c).change = true ∧
        (v.filt c).uns = Nat.max (s.filt c).uns (68 + (activeBank (s.filt c)).taps.length + bqSettle (s.accepted h) c)) ∧
      ((s.filt c).stopped = false → v = s.accepted h) ∧ (∀ j, j ≠ c → v.filt j = s.filt j) ∧
      v = { s.accepted h with filts := v.filts, insts := v.insts } := by
  have H := FiltTo.accepted h hf hc
  have hck := channelChecks_pass hk hc
  have hlen : (h.len == 4) = true := beq_iff_eq.2 hl
  cases hs : (s.filt c).stopped with
  | false =>
    refine answers_of_filterReply (c := c) (v := s.accepted h) rfl ho hlen hck (by simp [hs]) ?_
    exact ⟨by rw [H.filt, hs], rfl, fun hn => absurd hn Bool.false_ne_true, fun _ => rfl, H.others, rfl⟩
  | true =>
    refine answers_of_filterReply (c := c) (v := (s.accepted h).filterStart c) rfl ho hlen hck (by simp [hs]) ?_
    have H1 := H.filterStart
    refine ⟨by rw [H1.filt], rfl, fun _ => ?_, fun hn => absurd hn.symm Bool.false_ne_true, H1.others,
      (filterStart_ch (.refl [.filts, .insts] _) rfl).eq_pick⟩
    rw [H1.filt]
    exact ⟨rfl, rfl⟩

theorem execBankWrite_answers (ho : Opens opBankWrite h s) (hl : setLen h set = true) (hk : locked (s.accepted h) = false)
    (hc : c ≤ 35) (hb : setBad set = false) (hf : s.filts.length = 36) (ha : (s.filt c).actB = false)
    (hw : (s.filt c).swap = none) :
    Answers (.bankWrite h c set) s opBankWrite h .ok fun v bs =>
      (v.filt c).bankB = some (coefSet set) ∧ (v.filt c).bankA = (s.filt c).bankA ∧ (v.filt c).actB = false ∧
      bs = filterReply v c ∧ (∀ j, j ≠ c → v.filt j = s.filt j) ∧
      v = { s.accepted h with filts := v.filts, insts := v.insts } := by
  refine answers_of_filterReply rfl ho hl (by simp [firstFail, hk, hc, hb, ha, hw]) rfl ?_
  have H := ((FiltTo.accepted h hf hc).onFilt fun f => { f with bankB := some (coefSet set) }).onInsts c fun x =>
    { x with stB := zeroStates (coefSet set).biquads.length }
  refine ⟨by rw [H.filt], by rw [H.filt], by rw [H.filt, ha], rfl, H.others, ?_⟩
  exact (onInsts_ch (onFilt_ch (.refl [.filts, .insts] _) rfl) rfl).eq_pick

/-! ### FILTER_LOAD (R136, R142, R146) -/

/-- The set goes into bank A of a stopped filter, or waits for the channel's rest. -/
def State.takeSet (s : State) (c : Nat) (b : CoefSet) (keep : Bool) : State :=
  if (s.filt c).stopped then s.writeBankA c b keep else s.onFilt c fun f => { f with load := some (b, keep) }

theorem takeSet_of_stopped (hs : (s.filt c).stopped = true) (b : CoefSet) (keep : Bool) :
    s.takeSet c b keep = s.writeBankA c b keep := if_pos hs

theorem takeSet_of_running (hs : (s.filt c).stopped = false) (b : CoefSet) (keep : Bool) :
    s.takeSet c b keep = s.onFilt c fun f => { f with load := some (b, keep) } := if_neg (ne_true_of_eq_false hs)

theorem takeSet_changes (s : State) (c : Nat) (b : CoefSet) (keep : Bool) :
    Changes [.filts, .insts] s (s.takeSet c b keep) :=
  ch_ite (fun _ => writeBankA_ch (.refl _ s) rfl) fun _ => onFilt_ch (.refl _ s) rfl

/-- The checks that FILTER_LOAD makes of its own. -/
def filterLoadChecks (h : Hdr) (c : Nat) (keep : Bool) (set : List Byte) (s : State) : List (Bool × Status) :=
  [(locked s, .locked), (keep && !canWrite s h.path 2, .authFail), (35 < c || setBad set, .valueRange),
    (keep && keepFull s c set, .valueRange), ((s.filt c).swap.isSome || (s.filt c).held.isSome, .bankBusy),
    (!(s.filt c).stopped && ((s.stand (standOf c)).st == 3 || chanSource s c != 0), .stopRequired)]

/-- What FILTER_LOAD does once they pass. -/
def filterLoadAct (c : Nat) (keep : Bool) (set : List Byte) (s : State) : Ans :=
  let r := if keep then s.keepPut c set else (s, true)
  if !r.2 then ⟨r.1, .internalFault, zeros 6⟩
  else if (s.filt c).stopped then
    ⟨r.1.writeBankA c (coefSet set) keep, .ok, filterReply (r.1.writeBankA c (coefSet set) keep) c⟩
  else
    let t := r.1.onFilt c fun f => { f with load := some (coefSet set, keep) }
    ⟨t, .pending, filterReply t c⟩

theorem execFilterLoad_eq (h : Hdr) (c : Nat) (keep : Bool) (set : List Byte) (s : State) :
    exec (.filterLoad h c keep set) s =
      .next (serve opFilterLoad h (setLen h set) (filterLoadChecks h c keep set) (filterLoadAct c keep set) s) := rfl

/-- A request brings a good set for a channel below LOCK that has no swap in progress. -/
structure BringsSet (h : Hdr) (c : Nat) (set : List Byte) (s : State) : Prop where
  opens : Opens opFilterLoad h s
  len : setLen h set = true
  unlocked : locked (s.accepted h) = false
  chan : c ≤ 35
  good : setBad set = false
  filts : s.filts.length = 36
  swap : (s.filt c).swap = none
  held : (s.filt c).held = none

/-- The filter is stopped, or its channel comes to a rest in which a load can act. -/
def CanTake (h : Hdr) (c : Nat) (s : State) : Prop :=
  (s.filt c).stopped = true ∨ (s.stand (standOf c)).st ≠ 3 ∧ chanSource (s.accepted h) c = 0

theorem filterLoadChecks_pass {keep : Bool} (hb : BringsSet h c set s) (hr : CanTake h c s)
    (hp : keep = true → canWrite (s.accepted h) h.path 2 = true ∧ keepFull (s.accepted h) c set = false) :
    firstFail (filterLoadChecks h c keep set (s.accepted h)) = none := by
  have hstand : (s.accepted h).stand (standOf c) = s.stand (standOf c) := by
    rw [State.stand, accepted_stands, State.stand]
  have hrest : (!(s.filt c).stopped && ((s.stand (standOf c)).st == 3 || chanSource (s.accepted h) c != 0)) = false := by
    obtain hs | ⟨h3, h0⟩ := hr
    · simp [hs]
    · simp [h3, h0]
  have hkeep : (keep && !canWrite (s.accepted h) h.path 2) = false ∧ (keep && keepFull (s.accepted h) c set) = false := by
    cases keep with
    | false => exact ⟨rfl, rfl⟩
    | true =>
      obtain ⟨hcan, hfull⟩ := hp rfl
      simp [hcan, hfull]
  simp [filterLoadChecks, firstFail, hb.unlocked, hb.chan, hb.good, hb.swap, hb.held, hstand, hrest, hkeep]

/-- A set that needs no place in the store, or has it, is taken. -/
theorem execFilterLoad_takes {keep : Bool} {y : State} {p : State → List Byte → Prop} (hb : BringsSet h c set s)
    (hck : firstFail (filterLoadChecks h c keep set (s.accepted h)) = none)
    (hy : (if keep then (s.accepted h).keepPut c set else (s.accepted h, true)) = (y, true)) (hf : y.filts = s.filts)
    (hp : p (y.takeSet c (coefSet set) keep) (filterReply (y.takeSet c (coefSet set) keep) c)) :
    Answers (.filterLoad h c keep set) s opFilterLoad h (if (s.filt c).stopped then .ok else .pending) p := by
  have hyf : y.filt c = s.filt c := by rw [State.filt, hf, State.filt]
  refine answers_of_filterReply (execFilterLoad_eq ..) hb.opens hb.len hck ?_ hp
  rw [filterLoadAct, hy, accepted_filt, State.takeSet, hyf]
  cases (s.filt c).stopped with
  | true => rfl
  | false => rfl

theorem execFilterLoad_of_stopped (hb : BringsSet h c set s) (hs : (s.filt c).stopped = true) :
    Answers (.filterLoad h c false set) s opFilterLoad h .ok fun v bs =>
      (v.filt c).bankA = coefSet set ∧ (v.filt c).actB = false ∧ (v.filt c).stopped = true ∧ bs = filterReply v c ∧
      (∀ j, j ≠ c → v.filt j = s.filt j) ∧ v = { s.accepted h with filts := v.filts, insts := v.insts } := by
  have H := (FiltTo.accepted h hb.filts hb.chan).writeBankA (coefSet set) false
  rw [← takeSet_of_stopped (by rw [accepted_filt, hs])] at H
  have hst : Status.ok = if (s.filt c).stopped then .ok else .pending := (if_pos hs).symm
  rw [hst]
  refine execFilterLoad_takes hb (filterLoadChecks_pass hb (.inl hs) nofun) rfl (accepted_filts s h) ?_
  exact ⟨by rw [H.filt], by rw [H.filt], by rw [H.filt, hs], rfl, H.others, (takeSet_changes ..).eq_pick⟩

theorem execFilterLoad_of_running (hb : BringsSet h c set s) (hs : (s.filt c).stopped = false)
    (h3 : (s.stand (standOf c)).st ≠ 3) (h0 : chanSource (s.accepted h) c = 0) :
    Answers (.filterLoad h c false set) s opFilterLoad h .pending fun v bs =>
      (v.filt c).load = some (coefSet set, false) ∧ (v.filt c).bankA = (s.filt c).bankA ∧ bs = filterReply v c ∧
      (∀ j, j ≠ c → v.filt j = s.filt j) ∧ v = { s.accepted h with filts := v.filts } := by
  have H := (FiltTo.accepted h hb.filts hb.chan).onFilt fun f => { f with load := some (coefSet set, false) }
  have hrun := takeSet_of_running (s := s.accepted h) (by rw [accepted_filt, hs]) (coefSet set) false
  rw [← hrun] at H
  have hst : Status.pending = if (s.filt c).stopped then .ok else .pending := (if_neg (ne_true_of_eq_false hs)).symm
  rw [hst]
  refine execFilterLoad_takes hb (filterLoadChecks_pass hb (.inr ⟨h3, h0⟩) nofun) rfl (accepted_filts s h) ?_
  refine ⟨by rw [H.filt], by rw [H.filt], rfl, H.others, ?_⟩
  rw [hrun]
  rfl

/-- The bytes that a kept set may change: the torn bitmap, P2 and both copies of the Pioneer record. -/
def keepRanges : List (Nat × Nat) := [(0, 256), (pageAddr 2 0, 128 * 256), (pioBase false, 2048), (pioBase true, 2048)]

theorem keepsBytes_of_accepted {l : List (Nat × Nat)} (H : keepsBytes (s.accepted h) t l) : keepsBytes s t l :=
  keepsBytes_trans (keepsBytes_of_mem (by rw [accepted_hw])) H

/-- What a taken set makes of the filter, a load that waits included. -/
theorem FiltTo.takeSet (H : FiltTo c x s t) (b : CoefSet) (keep : Bool) :
    (if x.stopped then ((t.takeSet c b keep).filt c).bankA = b else ((t.takeSet c b keep).filt c).load = some (b, keep)) ∧
      ∀ j, j ≠ c → (t.takeSet c b keep).filt j = s.filt j := by
  cases hs : x.stopped with
  | true =>
    have H1 := H.writeBankA b keep
    rw [← takeSet_of_stopped (by rw [H.filt, hs])] at H1
    exact ⟨by rw [H1.filt]; rfl, H1.others⟩
  | false =>
    have H1 := H.onFilt fun f => { f with load := some (b, keep) }
    rw [← takeSet_of_running (by rw [H.filt, hs])] at H1
    exact ⟨by rw [H1.filt]; rfl, H1.others⟩

/-- A KEEP set that the store takes becomes the channel's stored set, also where the load waits. -/
theorem execFilterLoad_of_kept (hb : BringsSet h c set s) (hr : CanTake h c s)
    (hcan : canWrite (s.accepted h) h.path 2 = true) (hfull : keepFull (s.accepted h) c set = false)
    (hput : ((s.accepted h).keepPut c set).2 = true) :
    Answers (.filterLoad h c true set) s opFilterLoad h (if (s.filt c).stopped then .ok else .pending) fun v bs =>
      (if (s.filt c).stopped then (v.filt c).bankA = coefSet set else (v.filt c).load = some (coefSet set, true)) ∧
      v.hw.p2Sets = setsWith s.hw.p2Sets c set ∧ bs = filterReply v c ∧ (∀ j, j ≠ c → v.filt j = s.filt j) ∧
      keepsBytes s v keepRanges ∧
      v = { s.accepted h with filts := v.filts, insts := v.insts, hw := v.hw, wd := v.wd } := by
  obtain ⟨hsets, hbytes⟩ := keepPut_of_held (l := keepRanges) hfull hput (by simp [keepRanges]) (by simp [keepRanges])
    fun b => by cases b <;> simp [keepRanges]
  have hch : Changes [.hw, .wd] (s.accepted h) ((s.accepted h).keepPut c set).1 := keepPut_ch (.refl _ _) rfl
  have hy : (s.accepted h).keepPut c set = (((s.accepted h).keepPut c set).1, true) := Prod.ext rfl hput
  generalize ((s.accepted h).keepPut c set).1 = y at hsets hbytes hch hy
  have htake := takeSet_changes y c (coefSet set) true
  have hall : Changes [.filts, .insts, .hw, .wd] (s.accepted h) (y.takeSet c (coefSet set) true) :=
    (hch.mono rfl).trans (htake.mono rfl)
  obtain ⟨htaken, hothers⟩ := ((FiltTo.accepted h hb.filts hb.chan).of_filts (hch.filts rfl)).takeSet (coefSet set) true
  refine execFilterLoad_takes hb (filterLoadChecks_pass hb hr fun _ => ⟨hcan, hfull⟩) hy
    ((hch.filts rfl).trans (accepted_filts s h)) ⟨htaken, ?_, rfl, hothers, ?_, hall.eq_pick⟩
  · rw [htake.hw rfl, hsets, accepted_hw]
  · exact keepsBytes_of_accepted (keepsBytes_trans hbytes (keepsBytes_of_mem (by rw [htake.hw rfl])))

/-- A KEEP set that the store does not take changes no filter. -/
theorem execFilterLoad_of_unkept (hb : BringsSet h c set s) (hr : CanTake h c s)
    (hcan : canWrite (s.accepted h) h.path 2 = true) (hfull : keepFull (s.accepted h) c set = false)
    (hput : ((s.accepted h).keepPut c set).2 = false) :
    Answers (.filterLoad h c true set) s opFilterLoad h .internalFault fun v bs =>
      bs = zeros 6 ∧ v.hw.p2Sets = s.hw.p2Sets ∧ v.filts = s.filts ∧
      keepsBytes s v [(0, 256), (pageAddr 2 0, 128 * 256)] ∧ v = { s.accepted h with hw := v.hw, wd := v.wd } := by
  obtain ⟨hsets, hbytes⟩ := keepPut_of_failed (l := [(0, 256), (pageAddr 2 0, 128 * 256)]) hfull hput (by simp) (by simp)
  have hch : Changes [.hw, .wd] (s.accepted h) ((s.accepted h).keepPut c set).1 := keepPut_ch (.refl _ _) rfl
  have ha : filterLoadAct c true set (s.accepted h) = ⟨((s.accepted h).keepPut c set).1, .internalFault, zeros 6⟩ := by
    simp [filterLoadAct, hput]
  refine answers_of (execFilterLoad_eq ..) hb.opens hb.len (filterLoadChecks_pass hb hr fun _ => ⟨hcan, hfull⟩) (by rw [ha]) ?_
  rw [ha]
  exact ⟨rfl, by rw [hsets, accepted_hw], by rw [hch.filts rfl, accepted_filts], keepsBytes_of_accepted hbytes, hch.eq_pick⟩

/-! ### BANK_SWAP and the stages of a swap (R148, R149, R153) -/

/-- A request asks for a swap of a running filter whose other bank holds a set and that no load waits for. -/
structure AsksSwap (h : Hdr) (c fade : Nat) (s : State) : Prop where
  opens : Opens opBankSwap h s
  len : h.len = 8
  unlocked : locked (s.accepted h) = false
  chan : c ≤ 35
  fade : fade ≤ 4095
  bank : (s.filt c).actB = true ∨ (s.filt c).bankB.isSome = true
  running : (s.filt c).stopped = false
  load : (s.filt c).load = none
  loading : (s.filt c).loading = none
  filts : s.filts.length = 36

theorem bankSwapChecks_pass {fade : Nat} (ha : AsksSwap h c fade s) :
    firstFail [(locked (s.accepted h), .locked),
      (35 < c || 4095 < fade || (!((s.accepted h).filt c).actB && ((s.accepted h).filt c).bankB.isNone), .valueRange),
      (((s.accepted h).filt c).stopped, .stopRequired),
      (((s.accepted h).filt c).load.isSome || ((s.accepted h).filt c).loading.isSome, .bankBusy)] = none := by
  have hbank : (!(s.filt c).actB && (s.filt c).bankB.isNone) = false := by
    obtain hA | hB := ha.bank
    · rw [hA, Bool.not_true, Bool.false_and]
    · rw [Option.isNone_eq_false_iff.2 hB, Bool.and_false]
  simp [firstFail, ha.unlocked, ha.chan, ha.fade, hbank, ha.running, ha.load, ha.loading]

theorem execBankSwap_starts {prime fade : Nat} (ha : AsksSwap h c fade s) (hw : (s.filt c).swap = none) :
    Answers (.bankSwap h c prime fade) s opBankSwap h .ok fun v bs =>
      (v.filt c).swap = some ⟨!(s.filt c).actB, prime, fade, false, 0, bqSettle (s.accepted h) c⟩ ∧
      (v.filt c).actB = (s.filt c).actB ∧ bs = filterReply v c ∧ (∀ j, j ≠ c → v.filt j = s.filt j) ∧
      v = { s.accepted h with filts := v.filts, insts := v.insts } := by
  refine answers_of_filterReply (c := c) (v := (s.accepted h).startSwap c prime fade) rfl ha.opens (beq_iff_eq.2 ha.len)
    (bankSwapChecks_pass ha) (by simp [hw]) ?_
  have H := (FiltTo.accepted h ha.filts ha.chan).startSwap prime fade
  exact ⟨by rw [H.filt], by rw [H.filt], rfl, H.others, (startSwap_ch (.refl [.filts, .insts] _) rfl).eq_pick⟩

theorem execBankSwap_waits {prime fade : Nat} (ha : AsksSwap h c fade s) (hw : (s.filt c).swap.isSome = true) :
    Answers (.bankSwap h c prime fade) s opBankSwap h .pending fun v bs =>
      (v.filt c).held = some (prime, fade) ∧ (v.filt c).swap = (s.filt c).swap ∧ bs = filterReply v c ∧
      (v.filt c).displaced = (if (s.filt c).held.isSome then u32 ((s.filt c).displaced + 1) else (s.filt c).displaced) ∧
      (∀ j, j ≠ c → v.filt j = s.filt j) ∧ v = { s.accepted h with filts := v.filts, wd := v.wd } := by
  refine answers_of_filterReply (c := c) (v := (s.accepted h).holdSwap c prime fade) rfl ha.opens (beq_iff_eq.2 ha.len)
    (bankSwapChecks_pass ha) (by simp [hw]) ?_
  have H := (FiltTo.accepted h ha.filts ha.chan).holdSwap prime fade
  exact ⟨by rw [H.filt], by rw [H.filt], rfl, by rw [H.filt], H.others, (holdSwap_ch (.refl [.filts, .wd] _) rfl).eq_pick⟩

theorem execBankSwapFadeStart_of_primed {c : Fin 36} {w : Swap} (hw : (s.filt c).swap = some w) (hfd : w.fading = false)
    (hn : w.prime ≤ w.n) : exec (.bankSwapFadeStart c) s = .next (s.onFilt c fun f =>
      { f with swap := some { w with fading := true, n := 0 }, change := true,
               uns := Nat.max f.uns (w.settle - w.prime) }) := by
  have he : exec (.bankSwapFadeStart c) s = execBankSwapFadeStart c s := rfl
  rw [he, execBankSwapFadeStart, hw]
  exact if_neg (by simp [hfd, Nat.not_lt.2 hn])

theorem execBankSwapFadeStart_gives {c : Fin 36} {w : Swap} (hf : s.filts.length = 36) (hw : (s.filt c).swap = some w)
    (hfd : w.fading = false) (hn : w.prime ≤ w.n) : Gives (.bankSwapFadeStart c) s fun t =>
      (t.filt c).swap = some { w with fading := true, n := 0 } ∧ (t.filt c).change = true ∧
      (t.filt c).uns = Nat.max (s.filt c).uns (w.settle - w.prime) ∧ (t.filt c).actB = (s.filt c).actB ∧
      (∀ j, j ≠ c.val → t.filt j = s.filt j) ∧ t = { s with filts := t.filts } := by
  have H := (FiltTo.refl (c := c) (s := s) (by omega)).onFilt fun f =>
    { f with swap := some { w with fading := true, n := 0 }, change := true, uns := Nat.max f.uns (w.settle - w.prime) }
  exact ⟨_, execBankSwapFadeStart_of_primed hw hfd hn, by rw [H.filt], by rw [H.filt], by rw [H.filt], by rw [H.filt],
    H.others, rfl⟩

/-- The incoming bank is active, and no swap is in progress. -/
def State.swapEnded (s : State) (c : Nat) (w : Swap) : State :=
  s.onFilt c fun f => { f with actB := w.toB, swap := none, held := none }

theorem FiltTo.swapEnded (H : FiltTo c x s t) (w : Swap) :
    FiltTo c { x with actB := w.toB, swap := none, held := none } s (t.swapEnded c w) :=
  H.onFilt fun f => { f with actB := w.toB, swap := none, held := none }

theorem swapEnded_changes (s : State) (c : Nat) (w : Swap) : Changes [.filts] s (s.swapEnded c w) := onFilt_ch (.refl _ s) rfl

/-- BQ_SETTLE is a parameter, which the end of a swap leaves. -/
theorem swapEnded_bqSettle (s : State) (c : Nat) (w : Swap) : bqSettle (s.swapEnded c w) c = bqSettle s c := rfl

/-- At its end a swap makes way for the one that waits. -/
theorem execBankSwapEnd_of_faded {c : Fin 36} {w : Swap} (hw : (s.filt c).swap = some w) (hfd : w.fading = true)
    (hn : w.fade ≤ w.n) : exec (.bankSwapEnd c) s =
      .next ((s.filt c).held.elim (s.swapEnded c w) fun e => (s.swapEnded c w).startSwap c e.1 e.2) := by
  have he : exec (.bankSwapEnd c) s = execBankSwapEnd c s := rfl
  rw [he, execBankSwapEnd, hw]
  dsimp only
  rw [if_neg (by simp [hfd, Nat.not_lt.2 hn])]
  cases (s.filt c).held with
  | none => rfl
  | some e => rfl

theorem execBankSwapEnd_gives {c : Fin 36} {w : Swap} (hf : s.filts.length = 36) (hw : (s.filt c).swap = some w)
    (hfd : w.fading = true) (hn : w.fade ≤ w.n) : Gives (.bankSwapEnd c) s fun t =>
      (t.filt c).actB = w.toB ∧ (t.filt c).held = none ∧
      (t.filt c).swap = (s.filt c).held.map (fun e => ⟨!w.toB, e.1, e.2, false, 0, bqSettle s c⟩) ∧
      (∀ j, j ≠ c.val → t.filt j = s.filt j) ∧ t = { s with filts := t.filts, insts := t.insts } := by
  have H := (FiltTo.refl (c := c) (s := s) (by omega)).swapEnded w
  refine ⟨_, execBankSwapEnd_of_faded hw hfd hn, ?_⟩
  cases (s.filt c).held with
  | none =>
    exact ⟨by rw [Option.elim_none, H.filt], by rw [Option.elim_none, H.filt], by rw [Option.elim_none, H.filt, Option.map_none],
      H.others, ((swapEnded_changes s c w).mono (q := [.filts, .insts]) rfl).eq_pick⟩
  | some e =>
    have H1 := H.startSwap e.1 e.2
    rw [swapEnded_bqSettle] at H1
    exact ⟨by rw [Option.elim_some, H1.filt], by rw [Option.elim_some, H1.filt],
      by rw [Option.elim_some, H1.filt, Option.map_some], H1.others,
      (startSwap_ch ((swapEnded_changes s c w).mono (q := [.filts, .insts]) rfl) rfl).eq_pick⟩

/-- Settles O31: each request is one update of its filter, behind which the others stay, and of the store a kept set writes the page
pairs of P2 and the Pioneer record alone; that KEEP stores at acceptance and that a swap takes BQ_SETTLE at its start is the
model's choice (assumption 53). -/
theorem filterLoadsAndSwaps : Obligations.FilterLoadsAndSwaps := fun _ =>
  ⟨fun _ _ ho hl hk hc hf => execFilterStop_answers ho hl hk hc hf,
    fun _ _ _ ho hl hk hc hg hf hw hh hs => execFilterLoad_of_stopped ⟨ho, hl, hk, hc, hg, hf, hw, hh⟩ hs,
    fun _ _ _ ho hl hk hc hg hf hw hh hs h3 h0 => execFilterLoad_of_running ⟨ho, hl, hk, hc, hg, hf, hw, hh⟩ hs h3 h0,
    fun _ _ _ ho hl hk hc hg hcan hfull hf hw hh hr =>
      have hb : BringsSet _ _ _ _ := ⟨ho, hl, hk, hc, hg, hf, hw, hh⟩
      ⟨execFilterLoad_of_kept hb hr hcan hfull, execFilterLoad_of_unkept hb hr hcan hfull⟩,
    fun _ _ ho hl hk hc hf => execFilterStart_answers ho hl hk hc hf,
    fun _ _ _ ho hl hk hc hg hf ha hw => execBankWrite_answers ho hl hk hc hg hf ha hw,
    fun _ _ _ _ ho hl hk hc hfade hbank hrun hload hloading hf =>
      have ha : AsksSwap _ _ _ _ := ⟨ho, hl, hk, hc, hfade, hbank, hrun, hload, hloading, hf⟩
      ⟨execBankSwap_starts ha, execBankSwap_waits ha⟩,
    fun _ _ hf hw hfd hn => execBankSwapFadeStart_gives hf hw hfd hn,
    fun _ _ hf hw hfd hn => execBankSwapEnd_gives hf hw hfd hn⟩

end Sys2Proof.Machine
end

section
/-! THEOREMS. The result queue: streams, the writing of an instant, QUEUE_READ and push (R154, R162 to R167, R501; O32). -/

namespace Sys2Proof.Machine

variable {s t u : State} {h : Hdr} {m n p ack : Nat}

/-! ### Entries are appended (R154) -/

/-- From `q` to `r` entries have been appended; streams, and what they have due, are as they were. -/
structure Queue.Grew (q r : Queue) : Prop where
  entries : ∃ l, r.entries = q.entries ++ l
  due : r.due = q.due
  wins : r.wins = q.wins

theorem Queue.Grew.refl (q : Queue) : q.Grew q := ⟨⟨[], (List.append_nil _).symm⟩, rfl, rfl⟩

theorem Queue.Grew.trans {q r x : Queue} (H : q.Grew r) (G : r.Grew x) : q.Grew x := by
  obtain ⟨l, hl⟩ := H.entries
  obtain ⟨k, hk⟩ := G.entries
  exact ⟨⟨l ++ k, by rw [hk, hl, List.append_assoc]⟩, G.due.trans H.due, G.wins.trans H.wins⟩

theorem put_grew (q : Queue) (ws : List Nat) : q.Grew (q.put ws) := ⟨⟨_, rfl⟩, rfl, rfl⟩

theorem puts_grew (q : Queue) (l : List (List Nat)) : q.Grew (q.puts l) :=
  List.foldlRecOn l Queue.put (.refl q) fun _ hx ws _ => hx.trans (put_grew _ ws)

theorem skipEnd_grew (q : Queue) (n : Nat) : q.Grew (q.skipEnd n) := by
  unfold Queue.skipEnd
  extract_lets k
  split
  · exact .refl q
  · exact ⟨⟨[], (List.append_nil _).symm⟩, rfl, rfl⟩

/-- Words are skipped only where they fit. -/
theorem skipEnd_level {q : Queue} (hq : q.level ≤ ringWords) (n : Nat) : (q.skipEnd n).level ≤ ringWords := by
  unfold Queue.skipEnd
  extract_lets k
  split
  · exact hq
  next hk =>
    simp only [Bool.or_eq_true, decide_eq_true_eq, not_or, Nat.not_lt] at hk
    exact hk.2

/-! ### Groups are written whole, or dropped and counted (R164) -/

/-- From `s` to `t` groups have been written to the queue or, at most `m` of them, dropped: a dropped one is counted and raises the
overflow interrupt. -/
structure Wrote (m : Nat) (s t : State) : Prop where
  grew : s.qu.Grew t.qu
  level : s.qu.level ≤ ringWords → t.qu.level ≤ ringWords
  drops : t.lk = s.lk ∧ t.qu.dropped = s.qu.dropped ∨
    t.lk = { s.lk with irq := setBit s.lk.irq 4 } ∧ ∃ n, 0 < n ∧ n ≤ m ∧ t.qu.dropped = u32 (s.qu.dropped + n)

theorem Wrote.refl (s : State) : Wrote 0 s s := ⟨.refl _, id, .inl ⟨rfl, rfl⟩⟩

theorem setBit_setBit_self (v b : Nat) : setBit (setBit v b) b = setBit v b := by
  rw [setBit, if_pos (bitAt_setBit_self v b)]

theorem u32_u32_add (a b : Nat) : u32 (u32 a + b) = u32 (a + b) := Nat.mod_add_mod a _ b

theorem Wrote.trans (H : Wrote m s t) (G : Wrote n t u) : Wrote (m + n) s u := by
  refine ⟨H.grew.trans G.grew, fun hs => G.level (H.level hs), ?_⟩
  obtain ⟨hl, hd⟩ | ⟨hl, a, ha0, ha, hd⟩ := H.drops
  · obtain ⟨gl, gd⟩ | ⟨gl, b, hb0, hb, gd⟩ := G.drops
    · exact .inl ⟨gl.trans hl, gd.trans hd⟩
    · exact .inr ⟨by rw [gl, hl], b, hb0, by omega, by rw [gd, hd]⟩
  · obtain ⟨gl, gd⟩ | ⟨gl, b, hb0, hb, gd⟩ := G.drops
    · exact .inr ⟨gl.trans hl, a, ha0, by omega, gd.trans hd⟩
    · refine .inr ⟨?_, a + b, by omega, by omega, ?_⟩
      · rw [gl, hl]
        dsimp only
        rw [setBit_setBit_self]
      · rw [gd, hd, u32_u32_add, Nat.add_assoc]

theorem Wrote.mono (H : Wrote m s t) (hmn : m ≤ n) : Wrote n s t := by
  obtain hd | ⟨hl, a, ha0, ha, hd⟩ := H.drops
  · exact ⟨H.grew, H.level, .inl hd⟩
  · exact ⟨H.grew, H.level, .inr ⟨hl, a, ha0, ha.trans hmn, hd⟩⟩

/-- One group is written, or dropped. -/
theorem qGroup_wrote {upd : Queue → Queue}
    (hu : ∀ q : Queue, upd q = { q with markP := (upd q).markP, markW := (upd q).markW }) (s : State) (isX : Bool)
    (i j : Nat) (build : Option Nat → Option Nat → List (List Nat)) : Wrote 1 s (s.qGroup isX 1 i j build upd) := by
  unfold State.qGroup
  extract_lets q es q1 q2 g
  have h1 : q.Grew q1 ∧ q1.dropped = q.dropped := by
    unfold q1
    cases q.gap with
    | none => exact ⟨puts_grew _ _, puts_dropped _ _⟩
    | some x => exact ⟨(put_grew _ _).trans (puts_grew _ _), puts_dropped _ _⟩
  obtain ⟨hg1, hd1⟩ := h1
  generalize hwords : q1.level + (if q.gap.isNone then 4 else 0) = words
  have hlevel : q1.level ≤ words := hwords ▸ Nat.le_add_right ..
  split
  next hroom =>
    have h2 : q2.entries = q1.entries ∧ q2.due = q1.due ∧ q2.wins = q1.wins ∧ q2.level = q1.level ∧
        q2.dropped = q1.dropped := by
      unfold q2
      cases q.gap <;> exact ⟨rfl, rfl, rfl, rfl, rfl⟩
    obtain ⟨he2, hdue2, hw2, hl2, hd2⟩ := h2
    rw [hu]
    obtain ⟨l, hl⟩ := hg1.entries
    exact ⟨⟨⟨l, he2.trans hl⟩, hdue2.trans hg1.due, hw2.trans hg1.wins⟩, fun _ => hl2.trans_le (hlevel.trans hroom),
      .inl ⟨rfl, hd2.trans hd1⟩⟩
  · have hs := skipEnd_grew s.qu ((es.head?.map List.length).getD 0)
    exact ⟨⟨hs.entries, hs.due, hs.wins⟩, fun hq => skipEnd_level hq _, .inr ⟨rfl, 1, one_pos, le_rfl, rfl⟩⟩

/-- An X record is a group of its own. -/
theorem qX_wrote (s : State) (code flags value t : Nat) : Wrote 1 s (s.qX code flags value t) :=
  qGroup_wrote (fun _ => rfl) ..

theorem wrote_foldl {α : Type} {f : State → α → State} (hf : ∀ s a, Wrote 1 s (f s a)) (l : List α) (s : State) :
    Wrote l.length s (l.foldl f s) := by
  induction l generalizing s with
  | nil => exact .refl s
  | cons a l ih =>
    rw [List.length_cons, Nat.add_comm]
    exact (hf s a).trans (ih (f s a))

theorem snapChans_length_le (k : Nat) (l : List Int) (f : List Nat) : (snapChans k l f).length ≤ 36 := by
  rw [snapChans, List.length_map, maskChans]
  exact (List.length_filter_le _ _).trans_eq List.length_range

/-- An instant is at most 36 single entries and a frame with its records, each a group (R163). -/
theorem writeInstant_wrote (s : State) (d : StreamDue) : Wrote 37 s (s.writeInstant d) := by
  unfold State.writeInstant
  extract_lets x singles s1 frame
  have h1 : Wrote 36 s s1 :=
    (wrote_foldl (fun _ _ => qGroup_wrote (fun _ => rfl) ..) singles s).mono (snapChans_length_le ..)
  split
  · exact h1.mono (by decide)
  · exact h1.trans (qGroup_wrote (fun _ => rfl) ..)

/-- What is dropped shows in the count, which wraps at 2^32. -/
theorem ne_u32_add (v : Nat) (h0 : 0 < n) (hn : n < 2 ^ 32) : v ≠ u32 (v + n) := by
  unfold u32 wrapN
  omega

/-- What writing changes of the link's registers is the interrupt bit alone. -/
theorem Wrote.eq_of_changes (H : Wrote m s t) (hc : Changes [.lk, .qu] s t) :
    t = { s with qu := t.qu, lk := { s.lk with irq := t.lk.irq } } := by
  have hlk : t.lk = { s.lk with irq := t.lk.irq } := by
    obtain ⟨hl, -⟩ | ⟨hl, -⟩ := H.drops <;> rw [hl]
  rw [← hlk]
  exact hc.eq_pick

theorem execQueueEntryWrite_gives {d : StreamDue} {r : List StreamDue} (hd : s.qu.due = d :: r) :
    Gives .queueEntryWrite s fun t =>
      (∃ l, t.qu.entries = s.qu.entries ++ l) ∧ t.qu.due = r ∧ t.qu.wins = s.qu.wins ∧
      (s.qu.level ≤ ringWords → t.qu.level ≤ ringWords) ∧
      (t.lk = s.lk ∨ t.lk.irq = setBit s.lk.irq 4 ∧ s.qu.dropped ≠ t.qu.dropped) ∧
      t = { s with qu := t.qu, lk := { s.lk with irq := t.lk.irq } } := by
  have he : exec .queueEntryWrite s = .next ((s.onQu fun q => { q with due := r }).writeInstant d) := by
    change execQueueEntryWrite s = _
    rw [execQueueEntryWrite, hd]
  have H := writeInstant_wrote (s.onQu fun q => { q with due := r }) d
  refine ⟨_, he, H.grew.entries, H.grew.due, H.grew.wins, H.level, ?_,
    H.eq_of_changes (writeInstant_ch (.refl [.lk, .qu] _) rfl)⟩
  obtain ⟨hl, -⟩ | ⟨hl, n, h0, hn, hdrop⟩ := H.drops
  · exact .inl hl
  · exact .inr ⟨congrArg Link.irq hl, by rw [hdrop]; exact ne_u32_add _ h0 (by omega)⟩

/-! ### QUEUE_STREAM (R162, R501) -/

@[simp] theorem accepted_now (s : State) (h : Hdr) : (s.accepted h).now = s.now := by
  rw [State.now, accepted_te, State.now]

/-- A start passes where it is not hushed, a push has its destination, and it goes on in its mode or has a rate within the limit. -/
theorem streamChecks_pass (hh : (s.accepted h).lk.hushed = false) (hp : p ≤ 1)
    (hip : p = 1 → ipOf (s.accepted h) (pid 11 0 13) ≠ 0)
    (hm : s.qu.streaming = true → s.qu.push = (p == 1)) (hr : s.qu.streaming = false → rateNow (s.accepted h) ≤ 4000000) :
    firstFail [((s.accepted h).lk.hushed, .hushed), (1 < p, .valueRange),
      ((p == 1 && ipOf (s.accepted h) (pid 11 0 13) == 0), .valueRange),
      (((s.accepted h).qu.streaming && (s.accepted h).qu.push != (p == 1)), .stopRequired),
      ((!(s.accepted h).qu.streaming && decide (4000000 < rateNow (s.accepted h))), .queueFull)] = none := by
  have hdst : (p == 1 && ipOf (s.accepted h) (pid 11 0 13) == 0) = false := by simpa using hip
  have hmode : (s.qu.streaming && s.qu.push != (p == 1)) = false := by simpa using hm
  have hrate : (!s.qu.streaming && decide (4000000 < rateNow (s.accepted h))) = false := by simpa using hr
  rw [accepted_qu, hh, hdst, hmode, hrate]
  simp [firstFail, hp]

theorem execQueueStreamStart_of_stopped (ho : Opens opQueueStream h s) (hl : h.len = 4)
    (hh : (s.accepted h).lk.hushed = false) (hp : p ≤ 1) (hip : p = 1 → ipOf (s.accepted h) (pid 11 0 13) ≠ 0)
    (hs : s.qu.streaming = false) (hr : rateNow (s.accepted h) ≤ 4000000) :
    exec (.queueStreamStart h p false) s = .next (((s.accepted h).onQu fun q =>
      { q with streaming := true, push := p == 1, markP := none, markW := none,
               wins := q.wins ++ [⟨(s.accepted h).now, none, par (s.accepted h) (pid 4 0 0), par (s.accepted h) (pid 4 0 1),
                 par (s.accepted h) (pid 4 0 2), true⟩] }).replied
        opQueueStream h .ok (zeros 2 ++ le 4 (rateNow (s.accepted h)))) := by
  have he : exec (.queueStreamStart h p false) s = execQueueStreamStart h p false s := rfl
  rw [he, execQueueStreamStart, serve_opens ho (beq_iff_eq.2 hl)
    (streamChecks_pass hh hp hip (by simp [hs]) fun _ => hr), accepted_qu, hs]
  rfl

theorem execQueueStreamStart_of_streaming (ho : Opens opQueueStream h s) (hl : h.len = 4)
    (hh : (s.accepted h).lk.hushed = false) (hp : p ≤ 1) (hip : p = 1 → ipOf (s.accepted h) (pid 11 0 13) ≠ 0)
    (hs : s.qu.streaming = true) (hm : s.qu.push = (p == 1)) :
    exec (.queueStreamStart h p false) s =
      .next ((s.accepted h).replied opQueueStream h .ok (zeros 2 ++ le 4 (rateNow (s.accepted h)))) := by
  have he : exec (.queueStreamStart h p false) s = execQueueStreamStart h p false s := rfl
  rw [he, execQueueStreamStart, serve_opens ho (beq_iff_eq.2 hl)
    (streamChecks_pass hh hp hip (fun _ => hm) (by simp [hs])), accepted_qu, hs]
  rfl

theorem execQueueStreamStop_answers (ho : Opens opQueueStream h s) (hl : h.len = 4) (hp : p ≤ 1) :
    Answers (.queueStreamStop h p) s opQueueStream h .ok fun v bs =>
      v.qu.streaming = false ∧ v.qu.entries = s.qu.entries ∧
      (s.qu.streaming = true → v.qu.push = false ∧
        v.qu.wins = s.qu.wins.map fun w => { w with stop := some (w.stop.getD s.now) }) ∧
      bs = zeros 2 ++ le 4 (rateNow (s.accepted h)) ∧ v = { s.accepted h with qu := v.qu } := by
  refine answers_of rfl ho (beq_iff_eq.2 hl) (by simp [firstFail, hp]) rfl ?_
  rw [← accepted_qu s h, ← accepted_now s h]
  dsimp only
  cases hs : (s.accepted h).qu.streaming with
  | true => exact ⟨rfl, rfl, fun _ => ⟨rfl, rfl⟩, rfl, rfl⟩
  | false => exact ⟨hs, rfl, fun hn => absurd hn Bool.false_ne_true, rfl, rfl⟩

/-! ### QUEUE_READ (R165) -/

/-- Freed entries leave the queue; the send state stays. -/
theorem freeEntries_eq (q : Queue) (k n : Nat) : q.freeEntries k n =
    { q with entries := q.entries.take k ++ (q.entries.drop k).drop n, level := (q.freeEntries k n).level,
             skipped := (q.freeEntries k n).skipped } := by
  unfold Queue.freeEntries
  extract_lets used l
  have hl : q.entries.take k ++ (q.entries.drop k).drop n = l := by rw [List.drop_drop]
  rw [hl]
  split
  next he => rw [List.isEmpty_iff.1 he]
  · rfl

/-- Where entries behind the first `k` leave a list, those after them stand there instead. -/
theorem drop_take_append {α : Type} (l : List α) (k n : Nat) :
    (l.take k ++ (l.drop k).drop n).drop k = (l.drop k).drop n := by
  obtain hk | hk := Nat.le_total k l.length
  · exact List.drop_left' (List.length_take_of_le hk)
  · rw [List.drop_eq_nil_of_le hk, List.drop_nil, List.append_nil, List.take_of_length_le hk, List.drop_eq_nil_of_le hk]

theorem queueReadChecks_pass (hh : (s.accepted h).lk.hushed = false) (h4 : 4 ≤ n) (h1018 : n ≤ 1018)
    (hp : s.qu.push = false) :
    firstFail [((s.accepted h).lk.hushed, .hushed), ((decide (n < 4) || decide (1018 < n)), .valueRange),
      ((s.accepted h).qu.push, .valueRange)] = none := by
  rw [accepted_qu, hh, hp]
  simp [firstFail, h4, h1018]

/-- What was sent is repeated while its number is not acknowledged. -/
theorem execQueueRead_of_unacknowledged (ho : Opens opQueueRead h s) (hl : h.len = 4)
    (hh : (s.accepted h).lk.hushed = false) (h4 : 4 ≤ n) (h1018 : n ≤ 1018) (hp : s.qu.push = false)
    (hsent : s.qu.sentCount ≠ 0) (hack : ack ≠ s.qu.readSeq) :
    exec (.queueRead h ack n) s = .next ((s.accepted h).replied opQueueRead h .ok
      (le 2 s.qu.readSeq ++
        le 2 ((entryBytes ((s.qu.entries.drop s.qu.inFlight).take s.qu.sentCount)).length / 4) ++
        le 2 (headWords s.qu s.qu.sentCount) ++ entryBytes ((s.qu.entries.drop s.qu.inFlight).take s.qu.sentCount))) := by
  have he : exec (.queueRead h ack n) s = execQueueRead h ack n s := rfl
  rw [he, execQueueRead, serve_opens ho (beq_iff_eq.2 hl) (queueReadChecks_pass hh h4 h1018 hp), queueReadAct,
    accepted_qu, if_pos (by simp [hsent, hack])]

/-- An acknowledged reply is freed, and the next one holds the whole entries behind it that fit. -/
theorem queueReadAct_of_acknowledged (hack : s.qu.sentCount = 0 ∨ ack = s.qu.readSeq) :
    ∃ q, queueReadAct ack n s = ⟨s.onQu fun _ => q, .ok,
        le 2 q.readSeq ++ le 2 ((entryBytes ((q.entries.drop s.qu.inFlight).take q.sentCount)).length / 4) ++
          le 2 (headWords q q.sentCount) ++ entryBytes ((q.entries.drop s.qu.inFlight).take q.sentCount)⟩ ∧
      q.entries = s.qu.entries.take s.qu.inFlight ++ (s.qu.entries.drop s.qu.inFlight).drop s.qu.sentCount ∧
      q.sentCount = fitEntries ((s.qu.entries.drop s.qu.inFlight).drop s.qu.sentCount) n ∧
      q.readSeq = (if q.sentCount = 0 then s.qu.readSeq else (s.qu.readSeq + 1) % 65536) := by
  have hr : (s.qu.sentCount != 0 && ack != s.qu.readSeq) = false := by
    simpa [or_iff_not_imp_left] using hack
  unfold queueReadAct
  rw [hr, if_neg Bool.false_ne_true]
  extract_lets src q l fit q1 bs
  have hfree := freeEntries_eq s.qu s.qu.inFlight s.qu.sentCount
  have hqe : q.entries = s.qu.entries.take s.qu.inFlight ++ (s.qu.entries.drop s.qu.inFlight).drop s.qu.sentCount :=
    congrArg Queue.entries hfree
  have hqf : q.inFlight = s.qu.inFlight :=
    (congrArg Queue.inFlight hfree :)
  have hl : l = (s.qu.entries.drop s.qu.inFlight).drop s.qu.sentCount := by
    unfold l
    rw [hqf, hqe, drop_take_append]
  have h1 : q1.entries = q.entries ∧ q1.sentCount = fit ∧
      q1.readSeq = (if fit = 0 then s.qu.readSeq else (s.qu.readSeq + 1) % 65536) := by
    have hseq : q.readSeq = s.qu.readSeq := (congrArg Queue.readSeq hfree :)
    unfold q1
    rw [← hseq]
    split
    next h0 =>
      rw [beq_iff_eq] at h0
      exact ⟨rfl, h0.symm, (if_pos h0).symm⟩
    next h0 => exact ⟨rfl, rfl, (if_neg (by simpa using h0)).symm⟩
  obtain ⟨he, hn, hseq⟩ := h1
  have hd : q1.entries.drop s.qu.inFlight = l := by rw [he, ← hqf]
  refine ⟨q1, ?_, he.trans hqe, by rw [hn, ← hl], by rw [hn, hseq]⟩
  rw [hd, hn]

theorem execQueueRead_of_acknowledged (ho : Opens opQueueRead h s) (hl : h.len = 4)
    (hh : (s.accepted h).lk.hushed = false) (h4 : 4 ≤ n) (h1018 : n ≤ 1018) (hp : s.qu.push = false)
    (hack : s.qu.sentCount = 0 ∨ ack = s.qu.readSeq) :
    Answers (.queueRead h ack n) s opQueueRead h .ok fun v bs =>
      let sent := (v.qu.entries.drop s.qu.inFlight).take v.qu.sentCount
      bs = le 2 v.qu.readSeq ++ le 2 ((entryBytes sent).length / 4) ++ le 2 (headWords v.qu v.qu.sentCount) ++
        entryBytes sent ∧
      v.qu.entries = s.qu.entries.take s.qu.inFlight ++ (s.qu.entries.drop s.qu.inFlight).drop s.qu.sentCount ∧
      v.qu.sentCount = fitEntries ((s.qu.entries.drop s.qu.inFlight).drop s.qu.sentCount) n ∧
      v.qu.readSeq = (if v.qu.sentCount = 0 then s.qu.readSeq else (s.qu.readSeq + 1) % 65536) ∧
      v = { s.accepted h with qu := v.qu } := by
  rw [← accepted_qu s h] at hack
  obtain ⟨q, hact, he, hn, hseq⟩ := queueReadAct_of_acknowledged (n := n) hack
  refine answers_of rfl ho (beq_iff_eq.2 hl) (queueReadChecks_pass hh h4 h1018 hp) (by rw [hact]) ?_
  rw [hact]
  rw [accepted_qu] at he hn hseq ⊢
  exact ⟨rfl, he, hn, hseq, rfl⟩

/-! ### Queue push (R166) -/

/-- The frame of a push packet (R166). -/
def pushFrame (s : State) (n : Nat) : OwnFrame :=
  udpFrame s 0 .bulk (ipOf s (pid 11 0 13), par s (pid 11 0 17)) 47310
    (packet 0x41 (Config.freeNat s.free % 256) 0x0403 s.nt.node
      (le 2 s.qu.pushSeq ++ zeros 2 ++ entryBytes ((s.qu.entries.drop s.qu.inFlight).take n)))

theorem execQueuePush_of_admitted (hn : fitEntries (s.qu.entries.drop s.qu.inFlight) 350 = n) (hp : s.qu.push = true)
    (hh : s.lk.hushed = false) (hup : s.nt.up = true) (hc : s.wd.canopyRunning = true) (hw : s.nt.waiting = [])
    (h0 : n ≠ 0) (hreach : netReaches s (ipOf s (pid 11 0 13)) = true) (ha : admits s (pushFrame s n) = true) :
    exec .queuePush s = .next ((((s.charge (pushFrame s n)).enqueue (pushFrame s n)).onQu fun q =>
      { q with flying := q.flying ++ [n], sentCount := 0, pushSeq := (q.pushSeq + 1) % 65536, pushHeld := false }).drew 1) := by
  subst hn
  have he : exec .queuePush s = execQueuePush s := rfl
  have hskip : (!s.qu.push || s.lk.hushed || fitEntries (s.qu.entries.drop s.qu.inFlight) 350 == 0 || !s.nt.up ||
      !s.wd.canopyRunning || !netReaches s (ipOf s (pid 11 0 13)) || !s.nt.waiting.isEmpty) = false := by
    simp [hp, hh, hup, hc, hw, h0, hreach]
  rw [he, execQueuePush]
  dsimp only
  rw [hskip, if_neg Bool.false_ne_true]
  exact if_pos ha

/-- After a change of the network alone, an update of the queue and draws of free values change these three parts. -/
theorem Changes.eq_of_onQu_drew (hnt : Changes [.nt] s t) (f : Queue → Queue) (n : Nat) : (t.onQu f).drew n =
    { s with qu := ((t.onQu f).drew n).qu, nt := ((t.onQu f).drew n).nt, free := s.free + n } := by
  rw [← hnt.free rfl]
  exact (drew_ch (onQu_ch (hnt.mono (q := [.nt, .qu, .free]) rfl) rfl) rfl).eq_pick

theorem execQueuePush_gives (hn : fitEntries (s.qu.entries.drop s.qu.inFlight) 350 = n) (hp : s.qu.push = true)
    (hh : s.lk.hushed = false) (hup : s.nt.up = true) (hc : s.wd.canopyRunning = true) (hw : s.nt.waiting = [])
    (h0 : n ≠ 0) (hreach : netReaches s (ipOf s (pid 11 0 13)) = true) (ha : admits s (pushFrame s n) = true) :
    Gives .queuePush s fun t =>
      t.qu = { s.qu with flying := s.qu.flying ++ [n], sentCount := 0, pushSeq := (s.qu.pushSeq + 1) % 65536,
                         pushHeld := false } ∧
      t.nt.egress = ((s.charge (pushFrame s n)).enqueue (pushFrame s n)).nt.egress ∧
      t = { s with qu := t.qu, nt := t.nt, free := s.free + 1 } := by
  have he := execQueuePush_of_admitted hn hp hh hup hc hw h0 hreach ha
  have hnt : Changes [.nt] s ((s.charge (pushFrame s n)).enqueue (pushFrame s n)) := enqueue_ch (charge_ch (.refl _ s) rfl) rfl
  generalize (s.charge (pushFrame s n)).enqueue (pushFrame s n) = v at he hnt ⊢
  refine ⟨_, he, ?_, rfl, ?_⟩
  · rw [drew_qu, onQu_qu, hnt.qu rfl]
  · exact hnt.eq_of_onQu_drew _ _

/-- Settles O32: a request is one update of the queue, an instant is at most 37 groups, each written or dropped whole, and a push is
one frame on its way; that a stop also ends a push is the model's choice (assumption 49). -/
theorem resultQueueStreamsAndIsRead : Obligations.ResultQueueStreamsAndIsRead := fun _ =>
  ⟨fun _ _ ho hl hh hp hip hs hr => execQueueStreamStart_of_stopped ho hl hh hp hip hs hr,
    fun _ _ ho hl hh hp hip hs hm => execQueueStreamStart_of_streaming ho hl hh hp hip hs hm,
    fun _ _ ho hl hp => execQueueStreamStop_answers ho hl hp,
    fun _ _ hd => execQueueEntryWrite_gives hd,
    fun _ _ _ ho hl hh h4 h1018 hp =>
      ⟨fun hsent hack => execQueueRead_of_unacknowledged ho hl hh h4 h1018 hp hsent hack,
        fun hack => execQueueRead_of_acknowledged ho hl hh h4 h1018 hp hack⟩,
    fun hp hh hup hc hw h0 hreach ha => execQueuePush_gives rfl hp hh hup hc hw h0 hreach ha⟩

end Sys2Proof.Machine
end

section
/-! THEOREMS. The waveform recorder: its control, triggers, completion and the reading of captures (R168 to R172, Tables 7-12 to 7-14;
O33). -/

namespace Sys2Proof.Machine

variable {s t v : State} {h : Hdr} {n u no off : Nat} {x y : CapUnit} {k : Capture}

/-! ### One unit among the others -/

/-- From `s` to `t` unit `n` becomes `x` and every other unit stays as it was. -/
structure UnitTo (n : Nat) (x : CapUnit) (s t : State) : Prop where
  lt : n < t.units.length
  unit : t.unit n = x
  others : ∀ j, j ≠ n → t.unit j = s.unit j

theorem UnitTo.refl (hn : n < s.units.length) : UnitTo n (s.unit n) s s := ⟨hn, rfl, fun _ _ => rfl⟩

theorem UnitTo.onUnit (H : UnitTo n x s t) {f : CapUnit → CapUnit} (hf : f x = y) : UnitTo n y s (t.onUnit n f) where
  lt := by rw [onUnit_units, modAt_length]; exact H.lt
  unit := by rw [← hf, ← H.unit]; exact modAt_getD_self _ _ _ _ H.lt
  others j hj := (modAt_getD_ne _ _ _ _ _ hj).trans (H.others j hj)

theorem UnitTo.of_units (H : UnitTo n x s t) (h : v.units = t.units) : UnitTo n x s v := by
  have hv (j : Nat) : v.unit j = t.unit j := by rw [State.unit, h, State.unit]
  exact ⟨by rw [h]; exact H.lt, (hv n).trans H.unit, fun j hj => (hv j).trans (H.others j hj)⟩

/-- An accepted request has the units as they were. -/
theorem UnitTo.accepted (h : Hdr) (hl : s.units.length = 4) (hn : n ≤ 3) : UnitTo n (s.unit n) s (s.accepted h) :=
  (UnitTo.refl (by omega)).of_units (accepted_units s h)

@[simp] theorem accepted_unit (s : State) (h : Hdr) (n : Nat) : (s.accepted h).unit n = s.unit n := by
  rw [State.unit, accepted_units, State.unit]

/-! ### The next slot (R169, R171) -/

theorem CapUnit.next_of_room (hu : x.used < x.slots) : x.next = { x with st := 1, kept := [] } := if_pos hu

/-- The next slot, or FULL, leaves the configuration that the unit took at ARM. -/
theorem CapUnit.next_eq (x : CapUnit) : x.next =
    { x with st := x.next.st, kept := x.next.kept, held := x.next.held, missed := x.next.missed } := by
  unfold CapUnit.next
  split
  · rfl
  · split
    · cases oldestFree x.held <;> rfl
    · rfl

/-! ### An instant joins the capture (R169, R170) -/

/-- Recording changes the samples, their number before the trigger and their flags. -/
theorem Capture.take_eq (k : Capture) (lead : List (Nat × List Int × Nat)) (codes : List Int) (flags : Nat) :
    k.take lead codes flags = { k with pre := (k.take lead codes flags).pre, data := (k.take lead codes flags).data,
                                       flagsOr := (k.take lead codes flags).flagsOr } := by
  unfold Capture.take
  split <;> rfl

theorem Capture.take_pre_le (k : Capture) (lead : List (Nat × List Int × Nat)) (codes : List Int) (flags : Nat) :
    (k.take lead codes flags).pre ≤ k.pre + lead.length := by
  unfold Capture.take
  split
  · exact le_rfl
  · exact Nat.le_add_right ..

/-- A capture never holds more instants than those before its trigger and POST. -/
theorem Capture.take_data_le (hk : k.data.length ≤ k.pre + k.post) (lead : List (Nat × List Int × Nat)) (codes : List Int) (flags : Nat) :
    (k.take lead codes flags).data.length ≤ (k.take lead codes flags).pre + k.post := by
  unfold Capture.take
  split
  next hroom =>
    simp only [List.length_append, List.length_map, List.length_reverse, List.length_singleton]
    omega
  · exact hk

/-- Unit `y` in POST records the capture that began as `k`, and is now `x`: the instants before the trigger are no more than PRE, all
of them still kept while the trigger sample is to come. -/
structure Records (y : CapUnit) (k : Capture) (x : CapUnit) : Prop where
  unit : x = { y with kept := x.kept, trig := x.trig, cur := x.cur }
  cur : ∃ c : Capture, x.cur = some c ∧ c = { k with pre := c.pre, data := c.data, flagsOr := c.flagsOr } ∧
    c.pre + x.kept.length ≤ y.pre ∧ (x.trig ≠ 0 → c.pre = 0) ∧ c.data.length ≤ c.pre + c.post

theorem Records.sample (H : Records y k x) (hst : y.st = 2) (t : Nat) (codes : List Int) (flags : Nat) :
    Records y k (x.sample t codes flags) := by
  obtain ⟨c, hc, hck, hpre, hzero, hdata⟩ := H.cur
  have hx := H.unit
  have hxst : x.st = 2 := by rw [hx, hst]
  have hxpre : x.pre = y.pre := by rw [hx]
  unfold CapUnit.sample
  rw [if_neg (by simp [hxst]), if_pos (by simp [hxst])]
  split
  next hlead =>
    have h0 : c.pre = 0 := hzero (by omega)
    refine ⟨?_, c, hc, hck, ?_, hzero, hdata⟩
    · rw [hx]
    · dsimp only
      rw [h0, Nat.zero_add, ← hxpre]
      exact List.length_take_le ..
  · refine ⟨?_, c.take x.kept codes flags, ?_, ?_, ?_, fun hn => absurd rfl hn, ?_⟩
    · rw [hx]
    · dsimp only
      rw [hc, Option.map_some]
    · rw [Capture.take_eq, hck]
    · exact (Capture.take_pre_le ..).trans hpre
    · have hp : (c.take x.kept codes flags).post = c.post := by rw [Capture.take_eq]
      rw [hp]
      exact Capture.take_data_le hdata ..

theorem Records.foldl (H : Records y k x) (hst : y.st = 2) (l : List (Nat × List Int × Nat)) :
    Records y k (l.foldl (fun z i => z.sample i.1 i.2.1 i.2.2) x) :=
  List.foldlRecOn (motive := Records y k) l _ H fun _ hz i _ => hz.sample hst i.1 i.2.1 i.2.2

/-- A capture that has just begun holds no instant, and those kept for it are no more than PRE. -/
theorem Records.begin (hc : y.cur = some k) (h0 : k.pre = 0) (hd : k.data = []) (hkept : y.kept.length ≤ y.pre) :
    Records y k y :=
  ⟨rfl, k, hc, rfl, by rw [h0, Nat.zero_add]; exact hkept, fun _ => h0, by rw [hd]; exact Nat.zero_le _⟩

/-- What recording leaves of the unit and of the capture's record. -/
theorem Records.keeps (H : Records y k x) : x.due = y.due ∧ x.st = y.st ∧ x.nextNo = y.nextNo ∧
    ∃ c, x.cur = some c ∧ c.no = k.no ∧ c.t = k.t ∧ c.source = k.source ∧ c.eventId = k.eventId ∧
      c.retriggers = k.retriggers ∧ c.data.length ≤ y.pre + k.post := by
  obtain ⟨c, hc, hck, hpre, -, hdata⟩ := H.cur
  have hx := H.unit
  have hpost : c.post = k.post := by rw [hck]
  refine ⟨by rw [hx], by rw [hx], by rw [hx], c, hc, by rw [hck], by rw [hck], by rw [hck], by rw [hck], by rw [hck], ?_⟩
  omega

/-! ### A trigger reaches a unit (R169, R171, R172) -/

/-- The capture that a trigger begins in an armed unit: it holds no instant yet (R169). -/
def CapUnit.begins (c : CapUnit) (i source eventId : Nat) : Capture :=
  ⟨c.nextNo, i, source, eventId, 0, 0, c.post, 0, (cuTrigger c.cfg i).2, c.mask, c.cfg % 2, [], [], false, none⟩

/-- A trigger starts the capture of an armed unit, with the unit's next number. -/
theorem UnitTo.capture_of_armed (H : UnitTo n x s t) (h1 : x.st = 1) (i source eventId : Nat) :
    ∃ z, UnitTo n z s (t.capture n i source eventId) ∧ z.due = x.due ∧ z.st = 2 ∧ z.nextNo = u32 (x.nextNo + 1) ∧
      ∃ c, z.cur = some c ∧ c.no = x.nextNo ∧ c.t = i ∧ c.source = source ∧ c.eventId = eventId ∧ c.retriggers = 0 ∧
        c.data.length ≤ x.pre + x.post := by
  unfold State.capture
  refine ⟨_, H.onUnit rfl, ?_⟩
  rw [if_pos (beq_iff_eq.2 h1)]
  refine ((Records.begin (k := x.begins i source eventId) ?_ ?_ ?_ ?_).foldl ?_ _).keeps
  exacts [rfl, rfl, rfl, List.length_take_le .., rfl]

theorem UnitTo.capture_of_post (H : UnitTo n x s t) (h2 : x.st = 2) (i source eventId : Nat) :
    UnitTo n { x with cur := x.cur.map fun k =>
      { k with retriggers := satN 65535 (k.retriggers + 1), eventId := if k.eventId == 0 then eventId else k.eventId,
               linked := if eventId == 0 then k.linked else k.linked ++ [eventId] } } s (t.capture n i source eventId) := by
  unfold State.capture
  exact H.onUnit (by simp [h2])

theorem UnitTo.capture_of_full (H : UnitTo n x s t) (h3 : x.st = 3) (i source eventId : Nat) :
    UnitTo n { x with missed := u32 (x.missed + 1) } s (t.capture n i source eventId) := by
  unfold State.capture
  exact H.onUnit (by simp [h3])

/-- A unit that is stopped, or in no state of Table 7-12, does not see a trigger. -/
theorem UnitTo.capture_of_idle (H : UnitTo n x s t) (h1 : x.st ≠ 1) (h2 : x.st ≠ 2) (h3 : x.st ≠ 3) (i source eventId : Nat) :
    UnitTo n x s (t.capture n i source eventId) := by
  unfold State.capture
  exact H.onUnit (by simp [h1, h2, h3])

theorem execCaptureTrigger_gives {u : Fin 4} {i source eventId : Nat} {r : List (Nat × Nat × Nat)} (hu : s.units.length = 4)
    (hd : (s.unit u).due = (i, source, eventId) :: r) : Gives (.captureTrigger u) s fun v =>
      (v.unit u).due = r ∧
      ((s.unit u).st = 1 → (v.unit u).st = 2 ∧ (v.unit u).nextNo = u32 ((s.unit u).nextNo + 1) ∧
        ∃ c, (v.unit u).cur = some c ∧ c.no = (s.unit u).nextNo ∧ c.t = i ∧ c.source = source ∧ c.eventId = eventId ∧
          c.retriggers = 0 ∧ c.data.length ≤ (s.unit u).pre + (s.unit u).post) ∧
      ((s.unit u).st = 2 → (v.unit u).cur = (s.unit u).cur.map fun k =>
        { k with retriggers := satN 65535 (k.retriggers + 1), eventId := if k.eventId == 0 then eventId else k.eventId,
                 linked := if eventId == 0 then k.linked else k.linked ++ [eventId] }) ∧
      ((s.unit u).st = 3 → (v.unit u).missed = u32 ((s.unit u).missed + 1)) ∧
      ((s.unit u).st = 0 → v.unit u = { s.unit u with due := r }) ∧ (∀ j, j ≠ u.val → v.unit j = s.unit j) ∧
      v = { s with units := v.units } := by
  have he : exec (.captureTrigger u) s =
      .next ((s.onUnit u fun c => { c with due := r }).capture u i source eventId) := by
    change execCaptureTrigger u s = _
    rw [execCaptureTrigger, hd]
  have hlt : u.val < s.units.length := by rw [hu]; exact u.isLt
  have H : UnitTo u { s.unit u with due := r } s (s.onUnit u fun c => { c with due := r }) := (UnitTo.refl hlt).onUnit rfl
  have hf := (capture_ch (u := u) (t := i) (source := source) (eventId := eventId)
    (onUnit_ch (n := u) (f := fun c => { c with due := r }) (.refl [.units] s) rfl) rfl).eq_pick
  refine ⟨_, he, ?_⟩
  beta_reduce
  by_cases h1 : (s.unit u).st = 1
  · obtain ⟨z, Z, hdue, hst, hno, hcur⟩ := H.capture_of_armed h1 i source eventId
    rw [Z.unit]
    exact ⟨hdue, fun _ => ⟨hst, hno, hcur⟩, by omega, by omega, by omega, Z.others, hf⟩
  by_cases h2 : (s.unit u).st = 2
  · have Z := H.capture_of_post h2 i source eventId
    rw [Z.unit]
    exact ⟨rfl, by omega, fun _ => rfl, by omega, by omega, Z.others, hf⟩
  by_cases h3 : (s.unit u).st = 3
  · have Z := H.capture_of_full h3 i source eventId
    rw [Z.unit]
    exact ⟨rfl, by omega, by omega, fun _ => rfl, by omega, Z.others, hf⟩
  · have Z := H.capture_of_idle h1 h2 h3 i source eventId
    rw [Z.unit]
    exact ⟨rfl, by omega, by omega, by omega, fun _ => rfl, Z.others, hf⟩

/-! ### RECORDER_CONTROL (R168, R169, Table 7-12) -/

theorem execRecorderQuery_of_opens (ho : Opens opRecorder h s) (hl : h.len = 4) (hu : u ≤ 3) :
    exec (.recorderQuery h u false) s = .next ((s.accepted h).replied opRecorder h .ok (recorderReply (s.unit u))) := by
  have he : exec (.recorderQuery h u false) s = execRecorderQuery h u false s := rfl
  rw [he, execRecorderQuery, serve_opens ho (beq_iff_eq.2 hl) (by simp [firstFail, hu]), accepted_unit]

theorem execRecorderArm_answers (ho : Opens opRecorder h s) (hl : h.len = 4) (hu : u ≤ 3) (h4 : s.units.length = 4)
    (hst : (s.unit u).st = 0) (hm : par (s.accepted h) (cuBase u + 1) ≠ 0) (hslots : cuSlots (s.accepted h) u ≠ 0) :
    Answers (.recorderArm h u) s opRecorder h .ok fun v bs =>
      ((s.unit u).held = [] → (s.unit u).cur = none → (v.unit u).st = 1 ∧ (v.unit u).kept = []) ∧
      (v.unit u).slots = cuSlots (s.accepted h) u ∧ (v.unit u).cfg = par (s.accepted h) (cuBase u) ∧
      (v.unit u).mask = par (s.accepted h) (cuBase u + 1) ∧ (v.unit u).pre = par (s.accepted h) (cuBase u + 2) ∧
      (v.unit u).post = par (s.accepted h) (cuBase u + 3) ∧
      bs = recorderReply (v.unit u) ∧ (∀ j, j ≠ u → v.unit j = s.unit j) ∧ v = { s.accepted h with units := v.units } := by
  refine answers_of rfl ho (beq_iff_eq.2 hl) (by simp [firstFail, hu, hm, hslots]) rfl ?_
  have H := (UnitTo.accepted h h4 hu).onUnit (f := fun c => if c.st == 0 then
    CapUnit.next { c with slots := cuSlots (s.accepted h) u, cfg := par (s.accepted h) (cuBase u),
                          mask := par (s.accepted h) (cuBase u + 1), pre := par (s.accepted h) (cuBase u + 2),
                          post := par (s.accepted h) (cuBase u + 3) } else c) (if_pos (beq_iff_eq.2 hst))
  dsimp only
  rw [H.unit]
  refine ⟨fun hh hc => ?_, ?_, ?_, ?_, ?_, ?_, rfl, H.others, rfl⟩
  · rw [CapUnit.next_of_room (by simpa [CapUnit.used, hh, hc] using Nat.pos_of_ne_zero hslots)]
    exact ⟨rfl, rfl⟩
  all_goals rw [CapUnit.next_eq]

theorem execRecorderStop_answers (ho : Opens opRecorder h s) (hl : h.len = 4) (hu : u ≤ 3) (h4 : s.units.length = 4) :
    Answers (.recorderStop h u) s opRecorder h .ok fun v bs =>
      v.unit u = { s.unit u with st := 0, kept := [], cur := none, due := [], trig := 0 } ∧ bs = recorderReply (v.unit u) ∧
      (∀ j, j ≠ u → v.unit j = s.unit j) ∧ v = { s.accepted h with units := v.units } := by
  have H := (UnitTo.accepted h h4 hu).onUnit
    (f := fun c => { c with st := 0, kept := [], cur := none, due := [], trig := 0 }) rfl
  exact answers_of rfl ho (beq_iff_eq.2 hl) (by simp [firstFail, hu]) rfl ⟨H.unit, rfl, H.others, rfl⟩

theorem execRecorderTrigger_of_opens (ho : Opens opRecorder h s) (hl : h.len = 4) (hu : u ≤ 3) :
    exec (.recorderTrigger h u) s = .next (((s.accepted h).capture u s.now 0 0).replied opRecorder h .ok
      (recorderReply (((s.accepted h).capture u s.now 0 0).unit u))) := by
  have he : exec (.recorderTrigger h u) s = execRecorderTrigger h u s := rfl
  rw [he, execRecorderTrigger, serve_opens ho (beq_iff_eq.2 hl) (by simp [firstFail, hu]), accepted_now]

/-! ### A capture is complete (R169) -/

theorem execCaptureDone_gives {u : Fin 4} (h4 : s.units.length = 4) (hc : (s.unit u).cur = some k)
    (hall : k.pre + k.post ≤ k.data.length) (ht : (s.unit u).trig = 0)
    (hroom : (s.unit u).held.length + 1 < (s.unit u).slots) : Gives (.captureDone u) s fun t =>
      (t.unit u).cur = none ∧ (t.unit u).held = (s.unit u).held ++ [{ k with done := true }] ∧ (t.unit u).st = 1 ∧
      bitAt t.lk.irq 11 = true ∧ (∀ j, j ≠ u.val → t.unit j = s.unit j) ∧
      t.qu = (s.qX 50 0 (u * 2 ^ 24 + k.no % 2 ^ 24) k.t).qu ∧
      t = { s with units := t.units, qu := t.qu, lk := { s.lk with irq := t.lk.irq } } := by
  have he : exec (.captureDone u) s = .next (((s.qX 50 0 (u * 2 ^ 24 + k.no % 2 ^ 24) k.t).irq 11).onUnit u fun c =>
      CapUnit.next { c with cur := none, held := c.held ++ [{ k with done := true }] }) := by
    change execCaptureDone u s = _
    rw [execCaptureDone, hc]
    exact if_neg (by simp [ht, hall])
  have hq : Changes [.lk, .qu] s (s.qX 50 0 (u * 2 ^ 24 + k.no % 2 ^ 24) k.t) := qX_ch (.refl _ s) rfl
  have hw := (qX_wrote s 50 0 (u * 2 ^ 24 + k.no % 2 ^ 24) k.t).eq_of_changes hq
  generalize s.qX 50 0 (u * 2 ^ 24 + k.no % 2 ^ 24) k.t = w at he hq hw
  have hlt : u.val < s.units.length := by rw [h4]; exact u.isLt
  have H := ((UnitTo.refl hlt).of_units (v := w.irq 11) (hq.units rfl)).onUnit
    (f := fun c => CapUnit.next { c with cur := none, held := c.held ++ [{ k with done := true }] })
    (CapUnit.next_of_room (by simpa [CapUnit.used] using hroom))
  refine ⟨_, he, ?_⟩
  beta_reduce
  rw [H.unit]
  refine ⟨rfl, rfl, rfl, bitAt_setBit_self _ _, H.others, rfl, ?_⟩
  rw [hw]
  rfl

/-! ### Held captures are read and released (R171, Tables 7-13 and 7-14) -/

theorem execCaptureRead_answers (ho : Opens opCaptureRead h s) (hl : h.len = 16) (hh : (s.accepted h).lk.hushed = false)
    (hu : u ≤ 3) (hc : heldCapture s u no = some k) (hoff : off < (captureBytes u k).length) (h4 : 4 ≤ n) (h4064 : n ≤ 4064) :
    Answers (.captureRead h u no off n) s opCaptureRead h .ok fun v bs =>
      bs = zeros 2 ++ le 4 (captureBytes u k).length ++ ((captureBytes u k).drop off).take n ∧
      v = (s.accepted h).onUnit u fun x =>
        { x with held := x.held.map fun k => if k.no == no then { k with reading := some s.clk } else k } := by
  have hca : heldCapture (s.accepted h) u no = some k := by rw [heldCapture, accepted_unit, ← hc, heldCapture]
  have htotal : captureTotal (s.accepted h) u no = (captureBytes u k).length := by rw [captureTotal, hca]; rfl
  refine answers_of rfl ho (beq_iff_eq.2 hl) ?_ ?_ ?_
  · rw [hh, hca, htotal]
    simp [firstFail, Nat.not_lt.2 hu, Nat.not_le.2 hoff, Nat.not_lt.2 h4, Nat.not_lt.2 h4064]
  · rw [hca]
  · rw [hca]
    exact ⟨rfl, by rw [accepted_clk]⟩

theorem execCaptureRelease_answers (ho : Opens opCaptureRelease h s) (hl : h.len = 8) (hu : u ≤ 3) (h4 : s.units.length = 4)
    (hno : no = 0xFFFFFFFF ∨ (heldCapture s u no).isSome = true) :
    Answers (.captureRelease h u no) s opCaptureRelease h .ok fun v bs =>
      v.unit u = CapUnit.unfull { s.unit u with
        held := if no = 0xFFFFFFFF then [] else (s.unit u).held.filter (fun k => k.no != no) } ∧
      bs = zeros 2 ∧ (∀ j, j ≠ u → v.unit j = s.unit j) ∧ v = { s.accepted h with units := v.units } := by
  have hheld : (no != 0xFFFFFFFF && (heldCapture (s.accepted h) u no).isNone) = false := by
    rw [heldCapture, accepted_unit, ← heldCapture]
    obtain hno | hno := hno
    · simp [hno]
    · simp [Option.isNone_eq_false_iff.2 hno]
  have H := (UnitTo.accepted h h4 hu).onUnit (f := fun c =>
    CapUnit.unfull { c with held := if no == 0xFFFFFFFF then [] else c.held.filter (fun k => k.no != no) }) rfl
  refine answers_of rfl ho (beq_iff_eq.2 hl) (by rw [hheld]; simp [firstFail, hu]) rfl ⟨?_, rfl, H.others, rfl⟩
  refine H.unit.trans ?_
  simp only [beq_iff_eq]

theorem execCaptureReadTimeout_gives {u : Fin 4} (h4 : s.units.length = 4)
    (hlate : (heldCapture s u no).any (fun k => k.reading.any (fun c => c + 10 * 128000000 ≤ s.clk)) = true) :
    Gives (.captureReadTimeout u no) s fun t =>
      t.unit u = CapUnit.unfull { s.unit u with
        held := (s.unit u).held.map fun k => if k.no == no then { k with reading := none } else k } ∧
      (∀ j, j ≠ u.val → t.unit j = s.unit j) ∧ t = { s with units := t.units } := by
  have hlt : u.val < s.units.length := by rw [h4]; exact u.isLt
  have H := (UnitTo.refl hlt).onUnit (f := fun c =>
    CapUnit.unfull { c with held := c.held.map fun k => if k.no == no then { k with reading := none } else k }) rfl
  exact ⟨_, if_pos hlate, H.unit, H.others, rfl⟩

/-- Settles O33: each request and event is one update of its unit, behind which the others stay; that a capture keeps the first event
number it meets, and takes one where no event began it, is the model's choice (assumption 89). -/
theorem captureUnitsRecordAndAreRead : Obligations.CaptureUnitsRecordAndAreRead := fun _ =>
  ⟨fun _ _ ho hl hu => execRecorderQuery_of_opens ho hl hu,
    fun _ _ ho hl hu h4 hst hm hslots => execRecorderArm_answers ho hl hu h4 hst hm hslots,
    fun _ _ ho hl hu h4 => execRecorderStop_answers ho hl hu h4,
    fun _ _ ho hl hu => execRecorderTrigger_of_opens ho hl hu,
    fun _ _ _ _ _ h4 hd => execCaptureTrigger_gives h4 hd,
    fun _ _ h4 hc hall ht hroom => execCaptureDone_gives h4 hc hall ht hroom,
    fun _ _ _ _ _ _ ho hl hh hu hc hoff h4 h4064 => execCaptureRead_answers ho hl hh hu hc hoff h4 h4064,
    fun _ _ _ ho hl hu h4 hno => execCaptureRelease_answers ho hl hu h4 hno,
    fun _ _ h4 hlate => execCaptureReadTimeout_gives h4 hlate⟩

end Sys2Proof.Machine
end

section
/-! THEOREMS. A request for the CF test mode that ends a run of authentication failures logs two entries, not one (R192, R311, R394;
O35). -/

namespace Sys2Proof.Machine

variable {s : State} {h : Hdr} {n : Nat}

/-- A reply leaves the Warden and its log buffer. -/
theorem replied_wd (s : State) (op : Op) (h : Hdr) (st : Status) (bs : List Byte) : (s.replied op h st bs).wd = s.wd :=
  (replied_ch (.refl [.lk, .tp, .nt, .hm] s) rfl).wd rfl

/-- Two accounts of how one request is answered speak of the same log buffer. -/
theorem Answers.wd_unique {i : Instr} {op : Op} {st : Status} {p q : State → List Byte → Prop} (hp : Answers i s op h st p)
    (hq : Answers i s op h st q) : ∃ v w bs cs, p v bs ∧ q w cs ∧ v.wd = w.wd := by
  obtain ⟨v, bs, hv, hp⟩ := hp
  obtain ⟨w, cs, hw, hq⟩ := hq
  have hvw : v.replied op h st bs = w.replied op h st cs := Host.Outcome.next.inj (hv.symm.trans hw)
  exact ⟨v, w, bs, cs, hp, hq, by rw [← replied_wd v op h st bs, hvw, replied_wd]⟩

/-! ### A source that ceases is logged (R394, Table 17-3) -/

theorem tamperClear_logs {c : Nat} (h0 : s.pw.stage ≠ 0) (ha : (s.slot n).active = true) (hb : s.wd.buffer.length < 256) :
    ∃ e, e.code = 0x0A02 ∧ (s.tamperClear n c).wd.buffer = s.wd.buffer ++ [e] := by
  unfold State.tamperClear
  rw [if_neg (by simpa using h0), if_pos ha, log_of_room (by exact hb)]
  exact ⟨_, rfl, rfl⟩

/-- Accepting a secured request ends its path's run of failures; where no other path has one, SECURED_REPLAY (slot 24) ceases, and
that is logged. -/
theorem accepted_logs_clearing {ok : Bool} (hs : h.sec = some (n, ok))
    (hruns : (s.tp.authRuns.filter fun e => e.1 != h.path).any (fun e => 16 ≤ e.2) = false) (h0 : s.pw.stage ≠ 0)
    (ha : (s.slot 24).active = true) (hb : s.wd.buffer.length < 256) :
    ∃ e, e.code = 0x0A02 ∧ (s.accepted h).wd.buffer = s.wd.buffer ++ [e] := by
  unfold State.accepted State.secPass
  rw [hs]
  dsimp only
  rw [if_neg (by rw [Bool.not_eq_true]; exact hruns)]
  exact tamperClear_logs h0 ha hb

/-! ### CF_TEST (R192, R201) -/

/-- The start of a CF test adds its entry to the log buffer of the state in which the request is accepted. -/
theorem execCfTestStart_logs {mask d : Nat} (ho : Opens opCfTest h s) (hl : h.len = 4) (hk : locked (s.accepted h) = false)
    (hw : canWrite (s.accepted h) h.path 2 = true) (h1 : 1 ≤ d) (hd : d ≤ par (s.accepted h) (pid 2 0 11))
    (hm : cfMaskBad (s.accepted h) mask = false) (hb : (s.accepted h).wd.buffer.length < 256) :
    Answers (.cfTestStart h mask d false) s opCfTest h .ok fun v _ =>
      ∃ e, e.code = 0x0207 ∧ v.wd.buffer = (s.accepted h).wd.buffer ++ [e] := by
  refine answers_of rfl ho (beq_iff_eq.2 hl) (by simp [firstFail, hk, hw, hm, Nat.ne_of_gt h1, Nat.not_lt.2 hd]) rfl ?_
  dsimp only
  rw [log_of_room (by exact hb)]
  exact ⟨_, rfl, rfl⟩

/-- At stage 3 sixteen secured requests of the host have failed, and SECURED_REPLAY is ACTIVE and LATCHED with its reset response;
the host has a session key and a write session on P2. -/
def replayedState : State := { State.reset with
  pw := { Power.reset with stage := 3 }
  wd := { Warden.reset with running := true, canopyRunning := true }
  se := { Sess.reset with open_ := [⟨2, true, .host⟩] }
  tp := { Tamper.reset with
    keys := [⟨.host, zeros 16, 0, 0⟩], authRuns := [(.host, 16)]
    slots := modAt Tamper.reset.slots 24 fun x => { x with active := true, latched := true } } }

/-- A secured request of the host, of four bytes, with a later NONCE and a tag that verifies. -/
def securedRequest : Hdr := ⟨.host, 1, false, false, 4, false, some (1, true)⟩

/-- Refutes O35: the request that starts the test is secured and ends a run of authentication failures, so that SECURED_REPLAY
ceases; its TAMPER_CLEARED entry (Table 17-3) joins the log buffer before the entry of the start, and the buffer gains two entries
where the statement says one. -/
theorem not_demandEnergyReadAndCfTest : ¬ Obligations.DemandEnergyReadAndCfTest := by
  intro h
  obtain ⟨-, -, -, hstart, -⟩ := h replayedState
  have hfree : streamFull replayedState securedRequest = false := by
    have hout : outBytes replayedState.lk.ctrlOut = 0 := rfl
    simp [streamFull, securedRequest, hout]
  have ho : Opens opCfTest securedRequest replayedState := ⟨rfl, hfree, by decide +kernel⟩
  have hk : locked (replayedState.accepted securedRequest) = false := by decide +kernel
  have hw : canWrite (replayedState.accepted securedRequest) securedRequest.path 2 = true := by decide +kernel
  have hd : 1 ≤ par (replayedState.accepted securedRequest) (pid 2 0 11) := by decide +kernel
  have hm : cfMaskBad (replayedState.accepted securedRequest) 1 = false := by decide +kernel
  obtain ⟨c, -, hc⟩ : ∃ e, e.code = 0x0A02 ∧ (replayedState.accepted securedRequest).wd.buffer = [] ++ [e] :=
    accepted_logs_clearing rfl (by decide +kernel) (by decide +kernel) (by decide +kernel) (by decide +kernel)
  have hroom : (replayedState.accepted securedRequest).wd.buffer.length < 256 := by rw [hc, List.length_append]; simp
  obtain ⟨v, w, _, _, ⟨-, -, -, -, hone, -⟩, ⟨e, -, htwo⟩, hwd⟩ :=
    (hstart securedRequest 1 1 ho rfl hk hw le_rfl hd hm).wd_unique (execCfTestStart_logs ho rfl hk hw le_rfl hd hm hroom)
  obtain ⟨x, -, hone⟩ : ∃ e, e.code = 0x0207 ∧ v.wd.buffer = [] ++ [e] := hone (by decide +kernel)
  rw [hwd, htwo, hc] at hone
  simp at hone

end Sys2Proof.Machine
end

section
/-! THEOREMS. PQ_READ, PQ_EVENT_READ and PQ_ARCHIVE_READ (R225, R226, Tables 9-8 to 9-11; O39). -/

namespace Sys2Proof.Machine

variable {s : State} {h : Hdr} {kind level chan first count fromId bus fromT : Nat}

/-- No KIND holds more than its 740 bands (Table 9-9). -/
theorem kindCount_le (kind : Nat) : kindCount kind ≤ 740 := by
  unfold kindCount
  rcases kind with _ | _ | _ | _ | _ | n <;> simp

/-! ### PQ_READ (R225) -/

theorem execPqRead_of_opens (ho : Opens opPqRead h s) (hl : h.len = 8) (hh : s.lk.hushed = false) (hk : kind ≤ 4)
    (hv : level ≤ 3) (hc : chan ≤ (if kind = 4 then 1 else 35)) (h1 : 1 ≤ count) (hn : first + count ≤ kindCount kind)
    (h3 : kind = 3 → par (s.accepted h) (pid 16 chan 6) = 1)
    (hall : (pqValues (s.accepted h) kind level chan first count).length = count) :
    exec (.pqRead h kind level chan first count) s =
      let v := pqValues (s.accepted h) kind level chan first count
      .next ((s.accepted h).replied opPqRead h .ok
        (zeros 2 ++ le 4 (v.foldl (fun a e => orStatus a e.2.1) 0) ++
          le 10 (time80 (readEnd (s.accepted h) kind level chan v)) ++ zeros 2 ++ v.flatMap (fun e => le 4 e.1))) := by
  have hcount : count ≤ 1015 := by
    have := kindCount_le kind
    omega
  have hsupra : (kind == 3 && par (s.accepted h) (pid 16 chan 6) != 1) = false := by
    by_cases hk3 : kind = 3
    · simp [h3 hk3]
    · simp [hk3]
  have he : exec (.pqRead h kind level chan first count) s = execPqRead h kind level chan first count s := rfl
  rw [he, execPqRead, serve_opens ho (beq_iff_eq.2 hl)]
  rw [accepted_lk, hh, hall, hsupra]
  simp [firstFail, Nat.not_lt.2 hk, Nat.not_lt.2 hv, Nat.not_lt.2 hc, Nat.one_le_iff_ne_zero.1 h1, Nat.not_lt.2 hcount,
    Nat.not_lt.2 hn]

theorem pqValues_length_of_result {r : PqRes} (hr : pqResult s 0 level 0 = some r) (hv : r.vals ≠ []) :
    (pqValues s 0 level 0 0 1).length = 1 := by
  obtain ⟨v, l, hl⟩ := List.exists_cons_of_ne_nil hv
  simp [pqValues, hr, hl]

theorem pqValues_frequency {b t : Nat} (ht : (pqBus s b).freqEnd = some t) :
    pqValues s 4 level b 0 1 = [((pqBus s b).freq, (pqBus s b).freqStatus, t)] := by
  simp [pqValues, busRead, ht]

/-! ### PQ_EVENT_READ and PQ_ARCHIVE_READ (R226) -/

theorem execPqEventRead_of_opens (ho : Opens opPqEventRead h s) (hl : h.len = 8) (hr : canRead (s.accepted h) h.path 4 = true)
    (h1 : 1 ≤ count) (h32 : count ≤ 32) :
    exec (.pqEventRead h fromId count) s = .next (((s.accepted h).sense (eventAddr 0) 32768).replied opPqEventRead h .ok
      (le 1 ((eventsFrom (s.accepted h) fromId).take count).length ++ zeros 1 ++ le 4 s.pq.nextId ++
        ((eventsFrom (s.accepted h) fromId).take count).flatMap (·.2))) := by
  have he : exec (.pqEventRead h fromId count) s = execPqEventRead h fromId count s := rfl
  rw [he, execPqEventRead, serve_opens ho (beq_iff_eq.2 hl)
    (by simp [firstFail, hr, Nat.one_le_iff_ne_zero.1 h1, Nat.not_lt.2 h32]), accepted_pq]

theorem execPqArchiveRead_of_opens (ho : Opens opPqArchiveRead h s) (hl : h.len = 16)
    (hr : canRead (s.accepted h) h.path 4 = true) (hh : s.lk.hushed = false) (hb : bus ≤ 1 ∨ bus = 0xFF) (h1 : 1 ≤ count)
    (h31 : count ≤ 31) (ht : time80Ok fromT = true) :
    exec (.pqArchiveRead h bus count fromT) s = .next (((s.accepted h).sense (archiveAddr 0) 131072).replied opPqArchiveRead h .ok
      (le 1 ((archiveFrom (s.accepted h) bus fromT).take count).length ++ zeros 5 ++
        ((archiveFrom (s.accepted h) bus fromT).take count).flatten)) := by
  have hbus : (decide (1 < bus) && bus != 0xFF) = false := by
    rcases hb with hb | rfl
    · simp [Nat.not_lt.2 hb]
    · rfl
  have he : exec (.pqArchiveRead h bus count fromT) s = execPqArchiveRead h bus count fromT s := rfl
  rw [he, execPqArchiveRead, serve_opens ho (beq_iff_eq.2 hl)]
  rw [accepted_lk, hh, hr, hbus, ht]
  simp [firstFail, Nat.one_le_iff_ne_zero.1 h1, Nat.not_lt.2 h31]

/-- Settles O39: each request that opens passes the checks of its own opcode, and the answer is formed on the accepted state. -/
theorem powerQualityIsRead : Obligations.PowerQualityIsRead := fun _ _ =>
  ⟨fun _ _ _ _ _ => execPqRead_of_opens, fun _ _ => pqValues_length_of_result, fun _ _ _ => pqValues_frequency,
    fun _ _ => execPqEventRead_of_opens, fun _ _ _ => execPqArchiveRead_of_opens⟩

end Sys2Proof.Machine
end

section
/-! LEMMAS. One bus, one result and the sums of a level after the updates that the power-quality engine is made of (R205 to R208,
R215, R217). -/

namespace Sys2Proof.Machine

variable {s t : State} {b k : Nat} {f : PqBus → PqBus}

/-! ### One bus among the others -/

@[simp] theorem onBus_count (s : State) (b : Nat) (f : PqBus → PqBus) :
    (s.onBus b f).pq.buses.length = s.pq.buses.length := modAt_length ..

theorem onBus_bus (hb : b < s.pq.buses.length) (f : PqBus → PqBus) : pqBus (s.onBus b f) b = f (pqBus s b) :=
  modAt_getD_self _ _ _ _ hb

theorem onBus_bus_ne (h : k ≠ b) (s : State) (f : PqBus → PqBus) : pqBus (s.onBus b f) k = pqBus s k :=
  modAt_getD_ne _ _ _ _ _ h

/-- Beyond the buses there is nothing to update. -/
theorem onBus_of_absent (hb : s.pq.buses.length ≤ b) (f : PqBus → PqBus) : s.onBus b f = s := by
  have h : modAt s.pq.buses b f = s.pq.buses := List.modify_eq_self hb
  have hq : (s.onBus b f).pq = { s.pq with buses := s.pq.buses } := congrArg (fun l => { s.pq with buses := l }) h
  exact congrArg (fun q => { s with pq := q }) hq

/-- What an update keeps of its bus it keeps of every bus. -/
theorem onBus_keeps {α : Type} {g : PqBus → α} (h : g (f (pqBus s b)) = g (pqBus s b)) (k : Nat) :
    g (pqBus (s.onBus b f) k) = g (pqBus s k) := by
  by_cases hk : k = b
  · subst hk
    by_cases hb : k < s.pq.buses.length
    · rw [onBus_bus hb, h]
    · rw [onBus_of_absent (Nat.le_of_not_lt hb)]
  · rw [onBus_bus_ne hk]

theorem pqBus_congr (h : t.pq.buses = s.pq.buses) (k : Nat) : pqBus t k = pqBus s k := by rw [pqBus, h, pqBus]

/-! ### One result among the others (R205, Table 9-9) -/

/-- The result is that of a kind, level and channel. -/
def PqRes.isAt (kind level ch : Nat) (r : PqRes) : Bool := r.kind == kind && r.level == level && r.chan == ch

theorem PqRes.isAt_iff {kind level ch : Nat} {r : PqRes} :
    r.isAt kind level ch = true ↔ (r.kind, r.level, r.chan) = (kind, level, ch) := by
  simp [PqRes.isAt, and_assoc]

/-- The result of a kind, level and channel in a list. -/
def resultIn (l : List PqRes) (kind level ch : Nat) : Option PqRes := l.find? (PqRes.isAt kind level ch)

theorem pqResult_eq (s : State) (kind level ch : Nat) : pqResult s kind level ch = resultIn s.pq.results kind level ch := rfl

theorem putResult_eq (l : List PqRes) (r : PqRes) :
    putResult l r = l.filter (fun x => !x.isAt r.kind r.level r.chan) ++ [r] := rfl

theorem putResult_result (l : List PqRes) (r : PqRes) : resultIn (putResult l r) r.kind r.level r.chan = some r := by
  have hnone : (l.filter fun x => !x.isAt r.kind r.level r.chan).find? (PqRes.isAt r.kind r.level r.chan) = none :=
    List.find?_eq_none.2 fun x hx => by simpa using (List.mem_filter.1 hx).2
  rw [resultIn, putResult_eq, List.find?_append, hnone, List.find?_cons_of_pos (PqRes.isAt_iff.2 rfl)]
  rfl

theorem putResult_result_ne {r : PqRes} {kind level ch : Nat} (h : (r.kind, r.level, r.chan) ≠ (kind, level, ch))
    (l : List PqRes) : resultIn (putResult l r) kind level ch = resultIn l kind level ch := by
  have hr : ¬r.isAt kind level ch = true := fun hr => h (PqRes.isAt_iff.1 hr)
  have hx (x : PqRes) : decide ((!x.isAt r.kind r.level r.chan) = true ∧ x.isAt kind level ch = true) = x.isAt kind level ch := by
    by_cases hx : x.isAt kind level ch = true
    · have hne : ¬x.isAt r.kind r.level r.chan = true := fun hxr =>
        h ((PqRes.isAt_iff.1 hxr).symm.trans (PqRes.isAt_iff.1 hx))
      simp [hx, hne]
    · simp [hx]
  rw [resultIn, putResult_eq, List.find?_append, List.find?_filter, funext hx, List.find?_cons_of_neg hr, List.find?_nil,
    Option.or_none, resultIn]

/-! ### Sums (R208) -/

/-- A value fed to a level leaves the sums of the other levels. -/
theorem mem_accFeed_of_level {l : List PqAcc} {a : PqAcc} {kind level ch status : Nat} {sq : List Rat}
    (ha : a ∈ accFeed l kind level ch sq status) (hl : a.level ≠ level) : a ∈ l := by
  unfold accFeed at ha
  split at ha
  · obtain ⟨x, hx, rfl⟩ := List.mem_map.1 ha
    split at hl
    next hk =>
      simp only [Bool.and_eq_true, beq_iff_eq] at hk
      exact absurd hk.1.2 hl
    next hk => rwa [if_neg hk]
  · rcases List.mem_append.1 ha with ha | ha
    · exact ha
    · rw [List.mem_singleton.1 ha] at hl
      exact absurd rfl hl

theorem mem_feedTwoHours {accs mine : List PqAcc} {extra : Nat} {a : PqAcc} (ha : a ∈ feedTwoHours accs mine extra)
    (hl : a.level ≠ 3) : a ∈ accs :=
  List.foldlRecOn (motive := fun l : List PqAcc => a ∈ l → a ∈ accs) _ _ id (fun _ ih _ _ h => ih (mem_accFeed_of_level h hl)) ha

variable {level endT extra : Nat} {sel : PqAcc → Bool} {a : PqAcc}

/-- A sum that is there after a level closes was there before, and was not among the closed ones; level 3 alone gains. -/
theorem mem_closeAccs (ha : a ∈ (s.closeAccs level endT extra sel).pq.accs) (hl : level = 2 → a.level ≠ 3) :
    a ∈ s.pq.accs ∧ ¬(a.level = level ∧ sel a = true) := by
  have hrest : a ∈ s.pq.accs.filter fun a => !(a.level == level && sel a) := by
    unfold State.closeAccs at ha
    simp only [onPq_pq] at ha
    split at ha
    next h2 => exact mem_feedTwoHours ha (hl (beq_iff_eq.1 h2))
    next => exact ha
  simpa [not_and_or, imp_iff_not_or] using hrest

/-- But for level 2, which feeds level 3, closing takes away the closed sums alone. -/
theorem closeAccs_accs (h2 : level ≠ 2) :
    (s.closeAccs level endT extra sel).pq.accs = s.pq.accs.filter fun a => !(a.level == level && sel a) :=
  if_neg (by simpa using h2)

/-- Closing forms no result of another level. -/
theorem closeAccs_result_ne {kind lv ch : Nat} (h : lv ≠ level) :
    pqResult (s.closeAccs level endT extra sel) kind lv ch = pqResult s kind lv ch := by
  refine List.foldlRecOn (motive := fun l : List PqRes => resultIn l kind lv ch = pqResult s kind lv ch) _ _ rfl fun l hl a ha => ?_
  rw [putResult_result_ne _ l, hl]
  have hlevel : a.level = level := by
    have := (List.mem_filter.1 (List.mem_filter.1 ha).1).2
    simp only [Bool.and_eq_true, beq_iff_eq] at this
    exact this.1
  rintro ⟨⟩
  exact h hlevel

/-- A sum that closes alone is the result of its channel. -/
theorem closeAccs_result_of_one (h : s.pq.accs.filter (fun x => x.level == level && sel x) = [a]) (h5 : a.kind ≠ 5) :
    pqResult (s.closeAccs level endT extra sel) a.kind level a.chan = some (accResult s [a] endT extra a) := by
  have hlevel : a.level = level := by
    have ha : a ∈ s.pq.accs.filter fun x => x.level == level && sel x := by rw [h]; exact List.mem_singleton_self a
    have := (List.mem_filter.1 ha).2
    simp only [Bool.and_eq_true, beq_iff_eq] at this
    exact this.1
  unfold State.closeAccs
  rw [pqResult_eq, onPq_pq, ← hlevel]
  simp only
  rw [hlevel, h, List.filter_cons_of_pos (by simpa using h5)]
  rw [← hlevel]
  exact putResult_result s.pq.results (accResult s [a] endT extra a)

end Sys2Proof.Machine
end

section
/-! LEMMAS. `Engine z t`: from `z` to `t` the power-quality engine acts, whose operations leave the parameters, the number of buses and,
but for the interrupts they raise, the host link. `Events z t`: it opens, follows and ends events alone, which leaves results and
sums, the spans that FLAGGED comes from and the intervals that wait, and adds records to write (R207 to R213, R220 to R224). -/

namespace Sys2Proof.Machine

variable {z s t : State} {b : Nat}

structure Engine (z t : State) : Prop where
  pr : t.pr = z.pr
  lk : t.lk = { z.lk with irq := t.lk.irq }
  count : t.pq.buses.length = z.pq.buses.length

theorem Engine.refl (s : State) : Engine s s := ⟨rfl, rfl, rfl⟩

theorem Engine.trans (h : Engine z s) (g : Engine s t) : Engine z t :=
  ⟨g.pr.trans h.pr, g.lk.trans (congrArg (fun l => { l with irq := t.lk.irq }) h.lk), g.count.trans h.count⟩

/-- An operation that leaves parameters and host link keeps both as they are reached. -/
theorem Engine.of_changes {q : List Part} (h : Changes q s t) (hp : q.contains .pr = false) (hl : q.contains .lk = false)
    (hc : t.pq.buses.length = s.pq.buses.length) : Engine s t := by
  refine ⟨h.pr hp, ?_, hc⟩
  rw [h.lk hl]

theorem Engine.onPq {f : Pq → Pq} (H : Engine z s)
    (hf : ∀ q, (f q).buses.length = q.buses.length := by exact fun _ => rfl) : Engine z (s.onPq f) :=
  H.trans ⟨rfl, rfl, hf s.pq⟩

theorem Engine.onBus {f : PqBus → PqBus} (H : Engine z s) : Engine z (s.onBus b f) := H.onPq fun _ => modAt_length ..

theorem Engine.drew {n : Nat} (H : Engine z s) : Engine z (s.drew n) := H.trans ⟨rfl, rfl, rfl⟩

theorem Engine.ite {p : Prop} [Decidable p] (hs : Engine z s) (ht : Engine z t) : Engine z (if p then s else t) := by
  split
  · exact hs
  · exact ht

theorem Engine.foldl {α : Type} {f : State → α → State} {l : List α} (H : Engine z s)
    (hf : ∀ x a, Engine z x → Engine z (f x a)) : Engine z (l.foldl f s) :=
  List.foldlRecOn (motive := Engine z) l f H fun x hx a _ => hf x a hx

/-- What an operation does under the values that governed an interval, it does without changing the values in force (R227). -/
theorem Engine.under {p : Option (List (Nat × Nat))} {f : State → State} (H : Engine z s) (hf : ∀ x, Engine x (f x)) :
    Engine z (s.under p f) := by
  unfold State.under
  split
  · exact H.trans (hf s)
  next a =>
    have h := hf (s.onPr fun q => { q with applied := a })
    refine H.trans ⟨?_, h.lk, h.count⟩
    rw [onPr_pr, h.pr]
    rfl

structure Events (z t : State) : Prop where
  engine : Engine z t
  results : t.pq.results = z.pq.results
  accs : t.pq.accs = z.pq.accs
  writes : z.pq.writes ⊆ t.pq.writes
  spans : ∀ k, (pqBus t k).spans = (pqBus z k).spans
  aggDue : ∀ k, (pqBus t k).aggDue = (pqBus z k).aggDue

theorem Events.refl (s : State) : Events s s := ⟨.refl s, rfl, rfl, List.Subset.refl _, fun _ => rfl, fun _ => rfl⟩

theorem Events.trans (h : Events z s) (g : Events s t) : Events z t :=
  ⟨h.engine.trans g.engine, g.results.trans h.results, g.accs.trans h.accs, List.Subset.trans h.writes g.writes,
    fun k => (g.spans k).trans (h.spans k), fun k => (g.aggDue k).trans (h.aggDue k)⟩

theorem Events.ite {p : Prop} [Decidable p] (hs : Events z s) (ht : Events z t) : Events z (if p then s else t) := by
  split
  · exact hs
  · exact ht

theorem Events.foldl {α : Type} {f : State → α → State} {l : List α} (H : Events z s)
    (hf : ∀ x a, Events z x → Events z (f x a)) : Events z (l.foldl f s) :=
  List.foldlRecOn (motive := Events z) l f H fun x hx a _ => hf x a hx

theorem Events.onBus {f : PqBus → PqBus} (H : Events z s) (hs : (f (pqBus s b)).spans = (pqBus s b).spans)
    (ha : (f (pqBus s b)).aggDue = (pqBus s b).aggDue) : Events z (s.onBus b f) :=
  H.trans ⟨(Engine.refl s).onBus, rfl, rfl, List.Subset.refl _, onBus_keeps (g := PqBus.spans) hs,
    onBus_keeps (g := PqBus.aggDue) ha⟩

theorem Events.drew {n : Nat} (H : Events z s) : Events z (s.drew n) :=
  H.trans ⟨(Engine.refl s).drew, rfl, rfl, List.Subset.refl _, fun _ => rfl, fun _ => rfl⟩

/-- What leaves the state of power quality alone. -/
theorem Events.of_pq (H : Events z s) (he : Engine s t) (hpq : t.pq = s.pq) : Events z t := by
  have hbus (k : Nat) : pqBus t k = pqBus s k := pqBus_congr (by rw [hpq]) k
  exact H.trans ⟨he, by rw [hpq], by rw [hpq], by rw [hpq]; exact List.Subset.refl _, fun k => by rw [hbus], fun k => by rw [hbus]⟩

theorem Events.irq {n : Nat} (H : Events z s) : Events z (s.irq n) := H.of_pq ⟨rfl, rfl, rfl⟩ rfl

theorem Events.onQu {f : Queue → Queue} (H : Events z s) : Events z (s.onQu f) := H.of_pq ⟨rfl, rfl, rfl⟩ rfl

/-! ### Events are opened, followed and ended (R209 to R213, R220 to R224) -/

theorem qX_events {code flags value t : Nat} (H : Events z s) : Events z (s.qX code flags value t) := .ite H.onQu H.onQu.irq

theorem eventMark_events {code t : Nat} {e : PqEvent} (H : Events z s) : Events z (s.eventMark code t e) :=
  (Events.ite (qX_events H) H).irq

theorem Events.due {f : Pq → Pq} (H : Events z s) (hr : (f s.pq).results = s.pq.results) (ha : (f s.pq).accs = s.pq.accs)
    (hb : (f s.pq).buses = s.pq.buses) (hw : s.pq.writes ⊆ (f s.pq).writes) : Events z (s.onPq f) := by
  have hbus (k : Nat) : pqBus (s.onPq f) k = pqBus s k := pqBus_congr hb k
  exact H.trans ⟨⟨rfl, rfl, by rw [onPq_pq, hb]⟩, hr, ha, hw, fun k => by rw [hbus], fun k => by rw [hbus]⟩

/-- Counting an event of a bus leaves all but its count and the interval that waits (R219). -/
theorem countEvent_keeps {α : Type} {g : PqBus → α} (he : ∀ (r : PqBus) (e : Option PqEdge), g { r with edge := e } = g r)
    (hn : ∀ (r : PqBus) (n : Nat), g { r with events := n } = g r) (r : PqBus) (t : Nat) : g (r.countEvent t) = g r := by
  unfold PqBus.countEvent
  split
  · split
    · exact he ..
    · exact hn ..
  · exact hn ..

variable {u : List Rat} {began : Bool} {at_ cls phases flags : Nat} {extreme second : Rat} {means : List Rat} {e : PqEvent}

theorem eventOpen_events (H : Events z s) : Events z (s.eventOpen b at_ cls phases extreme second means) := by
  unfold State.eventOpen
  extract_lets u e s1
  have hdue := H.due (f := fun q => { q with
    nextId := if q.nextId == 0xFFFFFFFF then 1 else q.nextId + 1, eventPos := (q.eventPos + 1) % 1024,
    writes := q.writes ++ [e] }) rfl rfl rfl (List.subset_append_left ..)
  have h1 : Events z s1 := hdue.of_pq ⟨rfl, rfl, rfl⟩ rfl
  exact eventMark_events (h1.onBus (countEvent_keeps (fun _ _ => rfl) (fun _ _ => rfl) _ at_)
    (countEvent_keeps (fun _ _ => rfl) (fun _ _ => rfl) _ at_))

theorem eventEnd_events (H : Events z s) : Events z (s.eventEnd b at_ e flags) := by
  unfold State.eventEnd
  extract_lets done s1
  have h1 : Events z s1 := (H.due rfl rfl rfl (List.subset_append_left ..)).onBus rfl rfl
  exact (eventMark_events h1).drew

theorem onEvent_events {f : PqEvent → PqEvent} (H : Events z s) : Events z (s.onEvent b cls f) := H.onBus rfl rfl

theorem judge_events {start stop : Bool} {x : Rat} {worse : Rat → Rat → Bool} (H : Events z s) :
    Events z (s.judge b at_ cls phases start stop x worse) := by
  unfold State.judge
  split
  · exact .ite (eventOpen_events H) H
  · exact .ite (eventEnd_events H) (onEvent_events H)

theorem judgeMain_events (H : Events z s) : Events z (s.judgeMain b at_ u) := by
  unfold State.judgeMain
  extract_lets n hy dips dipEnd swells swellEnd intr intrEnd s1 s2
  have h1 : Events z s1 := judge_events H
  have h2 : Events z s2 := judge_events h1
  exact judge_events h2

theorem judgeRvc_events (H : Events z s) : Events z (s.judgeRvc b at_ u began) := by
  unfold State.judgeRvc
  extract_lets n s1 m d hit push s2
  have h1 : Events z s1 := by
    unfold s1
    split
    · exact eventEnd_events H
    · exact H
  have hpush (x : State) (hx : Events z x) : Events z (push x) := hx.onBus rfl rfl
  have h2 : Events z s2 := by
    unfold s2
    split
    · extract_lets dm e2 p
      have hp : Events z p := hpush _ (onEvent_events H)
      exact .ite (eventEnd_events hp) hp
    · exact .ite (hpush _ (eventOpen_events H)) (hpush s H)
  exact .ite (h1.onBus rfl rfl) (h2.onBus rfl rfl)

theorem judgeDev_events (H : Events z s) : Events z (s.judgeDev b at_ u began) := by
  unfold State.judgeDev
  split
  · exact .ite (eventOpen_events H) H
  · exact .ite (eventEnd_events H) (.ite (onEvent_events H) (eventEnd_events H))

theorem judgeMsv_events {x : Nat} (H : Events z s) : Events z (s.judgeMsv b at_ x u) := by
  unfold State.judgeMsv
  split
  · exact .ite (eventOpen_events H) H
  · exact .ite (H.onBus rfl rfl) (eventEnd_events H)

/-! ### The engine's operations on cycles, windows and intervals (R206 to R213, R227) -/

variable {e : Rat} {endT st extra n : Nat} {place x : Rat} {w : PqWin} {straddles : Bool}

theorem flagLate_engine (H : Engine z s) : Engine z (s.flagLate b x) := .ite H (H.onPq).onBus

theorem flagSupra_engine (H : Engine z s) : Engine z (s.flagSupra b x) := .ite H (H.onPq)

theorem judgeHalf_engine (H : Engine z s) : Engine z (s.judgeHalf b e u) := by
  unfold State.judgeHalf
  extract_lets t start was s1 began s2 touched s3
  have h2 : Engine z s2 := H.trans (judgeDev_events (judgeRvc_events (judgeMain_events (.refl s)))).engine
  have h3 : Engine z s3 := .ite (flagSupra_engine (flagLate_engine h2)).onBus h2
  exact h3.onBus.drew

theorem halfStep_engine (H : Engine z s) : Engine z (s.halfStep b) := by
  unfold State.halfStep
  split
  · exact H
  · exact .ite (H.under fun x => judgeHalf_engine (.refl x)) H

theorem formCycles_engine (H : Engine z s) : Engine z (s.formCycles b endT st) := by
  unfold State.formCycles
  extract_lets m s1
  have h1 : Engine z s1 := H.onBus.onPq
  exact .ite h1 (h1.foldl fun x _ hx => hx.trans (judgeMsv_events (.refl x)).engine)

theorem closeCycles_engine (H : Engine z s) : Engine z (s.closeCycles b) := by
  unfold State.closeCycles
  split
  · exact H
  · exact H.under fun x => formCycles_engine (.refl x)

theorem formEdge_engine {e : PqEdge} (H : Engine z s) : Engine z (s.formEdge b e) := by
  unfold State.formEdge
  extract_lets s0 s1 s2 s3
  have h0 : Engine z s0 := H.onBus
  have h1 : Engine z s1 := h0.onPq
  have h2 : Engine z s2 := by
    unfold s2
    split
    · exact h1.onPq
    · exact h1
  have h3 : Engine z s3 := .ite (h2.onPq) h2
  exact .ite h0 (h3.onPq).drew

theorem closeEdge_engine (H : Engine z s) : Engine z (s.closeEdge b) := by
  unfold State.closeEdge
  split
  · exact H
  · exact H.under fun x => formEdge_engine (.refl x)

theorem tenAt_engine (H : Engine z s) : Engine z (s.tenAt b endT) := .ite H.onBus.onBus H

theorem edgeReady_engine (H : Engine z s) : Engine z (s.edgeReady b) := by
  refine .ite (closeEdge_engine ?_) H
  cases (pqBus s b).edge with
  | none => exact H
  | some e => exact tenAt_engine H

/-- What each step of a fold keeps, the fold keeps. -/
theorem foldl_keeps {α β : Type} {f : State → α → State} {g : State → β} (hf : ∀ x a, g (f x a) = g x) (l : List α) (s : State) :
    g (l.foldl f s) = g s :=
  List.foldlRecOn (motive := fun x : State => g x = g s) l f rfl fun x hx a _ => (hf x a).trans hx

theorem takeWin_buses (s : State) (base endT : Nat) (f1 : Rat) (w : WinIn) :
    (s.takeWin base endT f1 w).pq.buses = s.pq.buses := by
  unfold State.takeWin
  extract_lets ex st st1 st2 h i put feed
  split
  · rfl
  · rfl

theorem takeBusWin_buses (s : State) (b base endT : Nat) (f1 third : Rat) (wins : List WinIn) :
    (s.takeBusWin b base endT f1 third wins).pq.buses = s.pq.buses := rfl

theorem takeCircPq_buses (s : State) (b base : Nat) (f1 : Rat) (wins : List WinIn) (c : Nat) :
    (s.takeCircPq b base f1 wins c).pq.buses = s.pq.buses := by
  unfold State.takeCircPq
  extract_lets es
  split
  · rfl
  · rfl

theorem takeCircs_buses (s : State) (b base : Nat) (f1 : Rat) (wins : List WinIn) (l : List Nat) :
    (l.foldl (fun x c => x.takeCircPq b base f1 wins c) s).pq.buses = s.pq.buses :=
  foldl_keeps (g := fun x => x.pq.buses) (fun x c => takeCircPq_buses x b base f1 wins c) l s

theorem winState_pq (s : State) (w : PqWin) : (winState s w).pq = s.pq := by
  unfold winState
  split
  · rfl
  · rfl

/-- The values of a window are results and sums: the state of the buses stays but for the sliding reference. -/
theorem takeWindow_engine (H : Engine z s) : Engine z (s.takeWindow b endT w) := by
  unfold State.takeWindow
  extract_lets v base wins third v1 v2 v3
  have h1 : v1.pq.buses = v.pq.buses :=
    foldl_keeps (g := fun x => x.pq.buses) (fun x i => takeWin_buses x base endT w.hz i) wins v
  have h2 : v2.pq.buses = v1.pq.buses := takeBusWin_buses v1 b base endT w.hz third wins
  have e3 : v3 = (List.range 28).foldl (fun x c => x.takeCircPq b base w.hz wins c) v2 := rfl
  have h3 : v3.pq.buses = v2.pq.buses := by
    rw [e3]
    exact takeCircs_buses v2 b base w.hz wins _
  have hs : Engine s { s with pq := v3.pq } := ⟨rfl, rfl, by rw [h3, h2, h1, winState_pq]⟩
  exact (H.trans hs).onBus

theorem closeWindow_engine (H : Engine z s) : Engine z (s.closeWindow b w straddles) := by
  unfold State.closeWindow
  extract_lets e endT s1 noRef s2
  have h1 : Engine z s1 := takeWindow_engine (.ite H (closeEdge_engine H))
  exact edgeReady_engine h1.onBus.drew

theorem busAUpTo_engine (H : Engine z s) : Engine z (State.busAUpTo n x s) := by
  induction n generalizing s with
  | zero => exact H
  | succ n ih =>
    have hhalf := ih (halfStep_engine (b := 0) H)
    have hwin (w : PqWin × Bool) := ih (closeWindow_engine (b := 0) (w := w.1) (straddles := w.2) (closeCycles_engine (b := 0) H))
    unfold State.busAUpTo
    extract_lets half win
    clear_value half win
    cases half with
    | none =>
      cases win with
      | none => exact .ite (closeCycles_engine H) H
      | some w => exact hwin w
    | some h =>
      cases win with
      | none => exact hhalf
      | some w => exact .ite hhalf (hwin w)

theorem busAFirst_engine (H : Engine z s) : Engine z (s.busAFirst b x) := .ite (busAUpTo_engine H) H

theorem cyclesEnd_engine (H : Engine z s) : Engine z (s.cyclesEnd b) := by
  unfold State.cyclesEnd
  split
  · exact H
  · exact closeCycles_engine (busAFirst_engine H)

theorem pqBegin_engine {c : Option PqSums} (H : Engine z s) : Engine z (s.pqBegin c) := by
  have hsync : Engine z s.pqSync := H.onPq fun _ => List.length_map ..
  unfold State.pqBegin
  cases c with
  | none => exact hsync.onPq fun q => List.length_map ..
  | some c => exact hsync.onPq fun q => List.length_mapIdx

theorem aggResume_engine (H : Engine z s) : Engine z s.aggResume := by
  refine .ite H ?_
  split
  · exact (pqBegin_engine H).trans (.of_changes (log_ch (.refl [.wd] _) rfl) rfl rfl (by rw [log_pq]))
  · exact pqBegin_engine H

/-- Where the engine acts, power quality, the queue, capture units, interrupts, the log and the free values may change. -/
theorem Engine.frame (H : Engine s t) (h : Changes [.pr, .lk, .wd, .qu, .units, .pq, .free] s t) :
    t = { s with lk := { s.lk with irq := t.lk.irq }, wd := t.wd, qu := t.qu, units := t.units, pq := t.pq, free := t.free } := by
  have hlk : t = { s with lk := t.lk, wd := t.wd, qu := t.qu, units := t.units, pq := t.pq, free := t.free } :=
    (h.of_same H.pr).eq_pick
  exact hlk.trans (congrArg (fun l => { s with lk := l, wd := t.wd, qu := t.qu, units := t.units, pq := t.pq, free := t.free }) H.lk)

end Sys2Proof.Machine
end

section
/-! THEOREMS. Dips open and close on one-cycle values, records are written in place, and an event left open over a power loss is
closed (R208 to R213, R220 to R222, Tables 9-3 and 9-5; O36). -/

namespace Sys2Proof.Machine

variable {s : State} {b t cls phases flags : Nat} {extreme second : Rat} {means : List Rat} {d e : PqEvent} {u : List Rat}

/-! ### Open events of a bus, and records due (R209, R220) -/

/-- The record of an event that starts (Table 9-5). -/
def eventStart (s : State) (b t cls phases : Nat) (extreme second : Rat) (means : List Rat) : PqEvent :=
  { cls := cls, bus := b, id := s.pq.nextId, pos := s.pq.eventPos, start := t, phases := phases,
    eflags := 1 + flagAt (s.te.servo != .locked) 4 + flagAt (cls == 0 && pqPar s b 8 == 1) 5, dur := 0, extreme := extreme,
    second := second, means := means, cu := (postUnit s).1, capture := (postUnit s).2 }

/-- The record of an event that ends (Table 9-5). -/
def eventDone (s : State) (t : Nat) (e : PqEvent) (flags : Nat) : PqEvent :=
  { e with dur := spanMs s 0 e.start t, eflags := e.eflags - 1 + flags }

theorem eventOpen_pq (s : State) (b t cls phases : Nat) (extreme second : Rat) (means : List Rat) :
    (s.eventOpen b t cls phases extreme second means).pq =
      let e := eventStart s b t cls phases extreme second means
      { s.pq with
        nextId := if s.pq.nextId == 0xFFFFFFFF then 1 else s.pq.nextId + 1, eventPos := (s.pq.eventPos + 1) % 1024,
        writes := s.pq.writes ++ [e],
        buses := modAt s.pq.buses b fun r => { r with open_ := r.open_ ++ [e] }.countEvent t } :=
  (eventMark_ch (.refl [.lk, .qu] _) rfl).pq rfl

theorem eventEnd_pq (s : State) (b t : Nat) (e : PqEvent) (flags : Nat) :
    (s.eventEnd b t e flags).pq = { s.pq with
      writes := s.pq.writes ++ [eventDone s t e flags],
      buses := modAt s.pq.buses b fun r => { r with open_ := r.open_.filter fun x => x.id != e.id } } :=
  (drew_ch (eventMark_ch (.refl [.lk, .qu, .free] _) rfl) rfl).pq rfl

/-- What holds of a bus as it is and of the bus updated holds of the bus after the update. -/
theorem onBus_rec {P : PqBus → Prop} {f : PqBus → PqBus} (h : P (pqBus s b)) (hf : P (f (pqBus s b))) :
    P (pqBus (s.onBus b f) b) := by
  by_cases hb : b < s.pq.buses.length
  · rwa [onBus_bus hb]
  · rwa [onBus_of_absent (Nat.le_of_not_lt hb)]

theorem eventOpen_open (hb : b < s.pq.buses.length) :
    (pqBus (s.eventOpen b t cls phases extreme second means) b).open_ =
      (pqBus s b).open_ ++ [eventStart s b t cls phases extreme second means] := by
  rw [pqBus, eventOpen_pq]
  exact (congrArg PqBus.open_ (modAt_getD_self _ _ _ _ hb)).trans
    (countEvent_keeps (g := PqBus.open_) (fun _ _ => rfl) (fun _ _ => rfl) _ t)

theorem eventOpen_due : eventStart s b t cls phases extreme second means ∈
    (s.eventOpen b t cls phases extreme second means).pq.writes := by
  rw [eventOpen_pq]
  exact List.mem_append_right _ (List.mem_singleton_self _)

theorem eventEnd_open (hb : b < s.pq.buses.length) :
    (pqBus (s.eventEnd b t e flags) b).open_ = (pqBus s b).open_.filter fun x => x.id != e.id := by
  rw [pqBus, eventEnd_pq]
  exact congrArg PqBus.open_ (modAt_getD_self _ _ _ _ hb)

theorem eventEnd_due : eventDone s t e flags ∈ (s.eventEnd b t e flags).pq.writes := by
  rw [eventEnd_pq]
  exact List.mem_append_right _ (List.mem_singleton_self _)

theorem openEvent_of_absent {idx : Rat} (h : ∀ e ∈ (pqBus s b).open_, e.cls ≠ cls) : openEvent s b cls idx = none :=
  List.find?_eq_none.2 fun e he => by simp [h e he]

theorem cls_of_openEvent {idx : Rat} (h : openEvent s b cls idx = some e) : e.cls = cls := by
  have := List.find?_some h
  simp only [Bool.and_eq_true, beq_iff_eq] at this
  exact this.1

theorem isOpen_of_mem (hd : d ∈ (pqBus s b).open_) (hc : d.cls = cls) : isOpen s b cls = true :=
  List.any_eq_true.2 ⟨d, hd, beq_iff_eq.2 hc⟩

/-! ### A class is judged (Table 9-3) -/

theorem judge_of_closed {start stop : Bool} {x : Rat} {worse : Rat → Rat → Bool} (h : openEvent s b cls 0 = none) :
    s.judge b t cls phases start stop x worse = if start then s.eventOpen b t cls phases x 0 [] else s := by
  unfold State.judge
  rw [h]

/-- An open event with what the latest values make of its phases and its extreme. -/
def eventAt (e : PqEvent) (phases : Nat) (x : Rat) (worse : Rat → Rat → Bool) : PqEvent :=
  { e with phases := e.phases.lor phases, extreme := if worse x e.extreme then x else e.extreme }

theorem judge_of_open {start stop : Bool} {x : Rat} {worse : Rat → Rat → Bool} (h : openEvent s b cls 0 = some e) :
    s.judge b t cls phases start stop x worse =
      if stop then s.eventEnd b t (eventAt e phases x worse) 0 else s.onEvent b cls fun _ => eventAt e phases x worse := by
  unfold State.judge
  rw [h]
  rfl

/-! ### A dip starts (R209, Table 9-3) -/

/-- An event is open and its record due, and the open events are of the classes below one. -/
structure OpenBelow (d : PqEvent) (n b : Nat) (s : State) : Prop where
  isOpen : d ∈ (pqBus s b).open_
  due : d ∈ s.pq.writes
  below : ∀ e ∈ (pqBus s b).open_, e.cls < n

theorem OpenBelow.openEvent {n : Nat} {idx : Rat} (h : OpenBelow d n b s) : openEvent s b n idx = none :=
  openEvent_of_absent fun e he => Nat.ne_of_lt (h.below e he)

theorem OpenBelow.mono {n m : Nat} (h : OpenBelow d n b s) (hm : n ≤ m) : OpenBelow d m b s :=
  ⟨h.isOpen, h.due, fun e he => (h.below e he).trans_le hm⟩

theorem OpenBelow.onBus {n : Nat} {f : PqBus → PqBus} (h : OpenBelow d n b s) (hf : ∀ r, (f r).open_ = r.open_) :
    OpenBelow d n b (s.onBus b f) := by
  have ho : (pqBus (s.onBus b f) b).open_ = (pqBus s b).open_ := onBus_keeps (g := PqBus.open_) (hf _) b
  exact ⟨ho ▸ h.isOpen, h.due, ho ▸ h.below⟩

/-- An event that starts is open, above those of the classes before its own. -/
theorem eventOpen_openBelow (hb : b < s.pq.buses.length) (h : ∀ e ∈ (pqBus s b).open_, e.cls < cls + 1) :
    OpenBelow (eventStart s b t cls phases extreme second means) (cls + 1) b
      (s.eventOpen b t cls phases extreme second means) := by
  refine ⟨?_, eventOpen_due, fun e he => ?_⟩
  · rw [eventOpen_open hb]
    exact List.mem_append_right _ (List.mem_singleton_self _)
  · rw [eventOpen_open hb] at he
    rcases List.mem_append.1 he with he | he
    · exact h e he
    · rw [List.mem_singleton.1 he]
      exact Nat.lt_succ_self cls

/-- The next class, judged where it is not open, leaves the open events as they are. -/
theorem OpenBelow.judge {n : Nat} {start stop : Bool} {x : Rat} {worse : Rat → Rat → Bool} (h : OpenBelow d n b s)
    (hb : b < s.pq.buses.length) : OpenBelow d (n + 1) b (s.judge b t n phases start stop x worse) := by
  rw [judge_of_closed h.openEvent]
  have hs := h.mono (Nat.le_succ n)
  split
  · have ho := eventOpen_openBelow (t := t) (phases := phases) (extreme := x) (second := 0) (means := []) hb hs.below
    refine ⟨?_, (eventOpen_events (.refl s)).writes h.due, ho.below⟩
    rw [eventOpen_open hb]
    exact List.mem_append_left _ h.isOpen
  · exact hs

/-- Where no event is open, the event that starts is the only one. -/
theorem openBelow_of_none {stop : Bool} {x : Rat} {worse : Rat → Rat → Bool} {l : List Bool} (hb : b < s.pq.buses.length)
    (h0 : (pqBus s b).open_ = []) (hl : l.any id = true) :
    OpenBelow (eventStart s b t cls (phaseMask l) x 0 []) (cls + 1) b (s.judge b t cls (phaseMask l) (l.any id) stop x worse) := by
  rw [judge_of_closed (openEvent_of_absent (by simp [h0])), if_pos hl]
  exact eventOpen_openBelow hb (by simp [h0])

/-- The phases in which a value lies below the dip threshold (Table 9-3). -/
def dipPhases (s : State) (b : Nat) (u : List Rat) : List Bool :=
  u.mapIdx fun p v => decide (v < pqPct s b 2 * dipRef s b p)

theorem dipPhases_any (h : ∃ (p : Nat) (v : Rat), u[p]? = some v ∧ v < pqPct s b 2 * dipRef s b p) :
    (dipPhases s b u).any id = true := by
  obtain ⟨p, v, hp, hv⟩ := h
  refine List.any_eq_true.2 ⟨true, List.mem_iff_getElem?.2 ⟨p, ?_⟩, rfl⟩
  rw [dipPhases, List.getElem?_mapIdx, hp]
  exact congrArg some (decide_eq_true hv)

/-- With no event open, a value below the dip threshold opens a dip, and what else it opens are a swell and an interruption. -/
theorem judgeMain_opens_dip (hb : b < s.pq.buses.length) (h0 : (pqBus s b).open_ = [])
    (hu : ∃ (p : Nat) (v : Rat), u[p]? = some v ∧ v < pqPct s b 2 * dipRef s b p) :
    ∃ x, OpenBelow (eventStart s b t 0 (phaseMask (dipPhases s b u)) x 0 []) 3 b (s.judgeMain b t u) := by
  unfold State.judgeMain
  extract_lets n hy dips dipEnd swells swellEnd intr intrEnd s1 s2
  have o1 : OpenBelow _ 1 b s1 := openBelow_of_none hb h0 (dipPhases_any hu)
  have c1 : s1.pq.buses.length = s.pq.buses.length := (judge_events (.refl s)).engine.count
  have c2 : s2.pq.buses.length = s1.pq.buses.length := (judge_events (.refl s1)).engine.count
  exact ⟨_, (o1.judge (c1 ▸ hb)).judge (by rwa [c2, c1])⟩

/-! ### A dip ends (R209, Table 9-3) -/

/-- No dip is open on the bus. -/
def NoDip (r : PqBus) : Prop := ∀ d ∈ r.open_, d.cls ≠ 0

theorem NoDip.of_open {r v : PqBus} (h : NoDip r) (ho : v.open_ = r.open_) : NoDip v := fun d hd => h d (ho ▸ hd)

theorem NoDip.eventOpen (h : NoDip (pqBus s b)) (hc : cls ≠ 0) :
    NoDip (pqBus (s.eventOpen b t cls phases extreme second means) b) := by
  by_cases hb : b < s.pq.buses.length
  · intro d hd
    rw [eventOpen_open hb] at hd
    rcases List.mem_append.1 hd with hd | hd
    · exact h d hd
    · rw [List.mem_singleton.1 hd]
      exact hc
  · rw [pqBus, eventOpen_pq]
    dsimp only
    rw [modAt, List.modify_eq_self (Nat.le_of_not_lt hb)]
    exact h

theorem NoDip.eventEnd (h : NoDip (pqBus s b)) : NoDip (pqBus (s.eventEnd b t e flags) b) := by
  by_cases hb : b < s.pq.buses.length
  · intro d hd
    rw [eventEnd_open hb] at hd
    exact h d (List.mem_filter.1 hd).1
  · rw [pqBus, eventEnd_pq]
    dsimp only
    rw [modAt, List.modify_eq_self (Nat.le_of_not_lt hb)]
    exact h

/-- Following an event leaves its class. -/
theorem NoDip.onEvent (h : NoDip (pqBus s b)) (hc : cls ≠ 0) (he : e.cls = cls) :
    NoDip (pqBus (s.onEvent b cls fun _ => e) b) := by
  refine onBus_rec (P := NoDip) h fun d hd => ?_
  obtain ⟨x, hx, rfl⟩ := List.mem_map.1 hd
  split
  · rwa [he]
  · exact h x hx

theorem NoDip.onBus {f : PqBus → PqBus} (h : NoDip (pqBus s b)) (hf : ∀ r, (f r).open_ = r.open_) :
    NoDip (pqBus (s.onBus b f) b) := onBus_rec (P := NoDip) h (h.of_open (hf _))

/-- No class but the first opens a dip. -/
theorem NoDip.judge {start stop : Bool} {x : Rat} {worse : Rat → Rat → Bool} (h : NoDip (pqBus s b)) (hc : cls ≠ 0) :
    NoDip (pqBus (s.judge b t cls phases start stop x worse) b) := by
  cases ho : openEvent s b cls 0 with
  | none =>
    rw [judge_of_closed ho]
    split
    · exact h.eventOpen hc
    · exact h
  | some e =>
    rw [judge_of_open ho]
    split
    · exact h.eventEnd
    · exact h.onEvent hc (show e.cls = cls from cls_of_openEvent ho)

theorem NoDip.judgeRvc {began : Bool} (h : NoDip (pqBus s b)) : NoDip (pqBus (s.judgeRvc b t u began) b) := by
  unfold State.judgeRvc
  extract_lets n dropped m d hit push followed
  have hpush (x : State) (hx : NoDip (pqBus x b)) : NoDip (pqBus (push x) b) := hx.onBus fun _ => rfl
  split
  · refine NoDip.onBus ?_ fun _ => rfl
    unfold dropped
    split
    · exact h.eventEnd
    · exact h
  · refine NoDip.onBus (?_ : NoDip (pqBus followed b)) fun _ => rfl
    unfold followed
    split
    next e he =>
      extract_lets dm e2 p
      have hp : NoDip (pqBus p b) := hpush _ (h.onEvent (by decide) (show e.cls = _ from cls_of_openEvent he))
      split
      · exact hp.eventEnd
      · exact hp
    next =>
      split
      · exact hpush _ (h.eventOpen (by decide))
      · exact hpush _ h

theorem NoDip.judgeDev {began : Bool} (h : NoDip (pqBus s b)) : NoDip (pqBus (s.judgeDev b t u began) b) := by
  unfold State.judgeDev
  extract_lets n out big far x
  split
  · split
    · exact h.eventOpen (by decide)
    · exact h
  next e he =>
    extract_lets e2
    split
    · exact h.eventEnd
    · split
      · exact h.onEvent (by decide) (show e.cls = _ from cls_of_openEvent he)
      · exact h.eventEnd

/-- Values that all reach threshold plus hysteresis end the dip that is the one open event: its record is due, and whatever starts
with them is of another class. -/
theorem judgeMain_ends_dip (hb : b < s.pq.buses.length) (h1 : (pqBus s b).open_ = [e]) (h0 : e.cls = 0)
    (hu : ∀ (p : Nat) (v : Rat), u[p]? = some v → (pqPct s b 2 + pqPct s b 5) * dipRef s b p ≤ v) :
    NoDip (pqBus (s.judgeMain b t u) b) ∧
      ∃ phases x worse, eventDone s t (eventAt e phases x worse) 0 ∈ (s.judgeMain b t u).pq.writes := by
  have hopen : openEvent s b 0 0 = some e := by simp [openEvent, h1, h0]
  have hend : (u.mapIdx fun p x => decide ((pqPct s b 2 + pqPct s b 5) * dipRef s b p ≤ x)).all id = true := by
    refine List.all_eq_true.2 fun d hd => ?_
    obtain ⟨p, hp⟩ := List.mem_iff_getElem?.1 hd
    rw [List.getElem?_mapIdx] at hp
    obtain ⟨v, hv, rfl⟩ := Option.map_eq_some_iff.1 hp
    exact decide_eq_true (hu p v hv)
  unfold State.judgeMain
  extract_lets n hy dips dipEnd swells swellEnd intr intrEnd s1 s2
  have hstop : dipEnd = true := hend
  have hs1 : s1 = s.eventEnd b t (eventAt e (phaseMask dips) _ _) 0 := (judge_of_open hopen).trans (if_pos hstop)
  have hnone : NoDip (pqBus s1 b) := by
    intro d hd
    rw [hs1, eventEnd_open hb, h1] at hd
    simp [eventAt] at hd
  have h2 : Events s1 s2 := judge_events (.refl s1)
  have hdue : eventDone s t (eventAt e (phaseMask dips) _ _) 0 ∈ s1.pq.writes := hs1 ▸ eventEnd_due
  exact ⟨(hnone.judge (by decide)).judge (by decide), _, _, _, (judge_events h2).writes hdue⟩

/-! ### One-cycle values (R208, R209, R213) -/

/-- What new one-cycle values make of the events of a bus: the classes in code order (R209 to R211). -/
def State.halfEvents (s : State) (b t : Nat) (u : List Rat) : State :=
  let s1 := s.judgeMain b t u
  let began := (!isOpen s b 0 && isOpen s1 b 0) || (!isOpen s b 1 && isOpen s1 b 1)
  (s1.judgeRvc b t u began).judgeDev b t u began

theorem halfEvents_events (s : State) (b t : Nat) (u : List Rat) : Events s (s.halfEvents b t u) :=
  judgeDev_events (judgeRvc_events (judgeMain_events (.refl s)))

/-- The start of a dip lets no rapid voltage change and no deviation begin (R210, R211). -/
theorem OpenBelow.began (h : OpenBelow d 3 b s) (h0 : d.cls = 0) :
    OpenBelow d 3 b ((s.judgeRvc b t u true).judgeDev b t u true) := by
  have hrvc : OpenBelow d 3 b (s.judgeRvc b t u true) := by
    unfold State.judgeRvc
    rw [h.openEvent]
    exact h.onBus fun _ => rfl
  unfold State.judgeDev
  rw [(hrvc.mono (by decide : 3 ≤ 4)).openEvent, isOpen_of_mem hrvc.isOpen h0]
  simpa using hrvc

/-- A value below the dip threshold, with no event open, opens a dip that is still open when every class has been judged. -/
theorem halfEvents_opens_dip (hb : b < s.pq.buses.length) (h0 : (pqBus s b).open_ = [])
    (hu : ∃ (p : Nat) (v : Rat), u[p]? = some v ∧ v < pqPct s b 2 * dipRef s b p) :
    ∃ x, OpenBelow (eventStart s b t 0 (phaseMask (dipPhases s b u)) x 0 []) 3 b (s.halfEvents b t u) := by
  obtain ⟨x, h1⟩ := judgeMain_opens_dip (t := t) hb h0 hu
  have hopen : isOpen (s.judgeMain b t u) b 0 = true := isOpen_of_mem h1.isOpen rfl
  have hwas : isOpen s b 0 = false := by simp [isOpen, h0]
  have hbegan : ((!isOpen s b 0 && isOpen (s.judgeMain b t u) b 0) ||
      (!isOpen s b 1 && isOpen (s.judgeMain b t u) b 1)) = true := by rw [hwas, hopen]; rfl
  unfold State.halfEvents
  dsimp only
  rw [hbegan]
  exact ⟨x, h1.began rfl⟩

theorem halfEvents_ends_dip (hb : b < s.pq.buses.length) (h1 : (pqBus s b).open_ = [e]) (h0 : e.cls = 0)
    (hu : ∀ (p : Nat) (v : Rat), u[p]? = some v → (pqPct s b 2 + pqPct s b 5) * dipRef s b p ≤ v) :
    NoDip (pqBus (s.halfEvents b t u) b) ∧
      ∃ phases x worse, eventDone s t (eventAt e phases x worse) 0 ∈ (s.halfEvents b t u).pq.writes := by
  obtain ⟨hnone, phases, x, worse, hdue⟩ := judgeMain_ends_dip (t := t) hb h1 h0 hu
  exact ⟨hnone.judgeRvc.judgeDev, phases, x, worse, (judgeDev_events (judgeRvc_events (.refl _))).writes hdue⟩

theorem flagLate_keeps {α : Type} {g : PqBus → α} {start : Rat}
    (hg : ∀ (r : PqBus) x y, g { r with sliding := x, aggDue := y } = g r) (s : State) (b : Nat) :
    g (pqBus (s.flagLate b start) b) = g (pqBus s b) := by
  unfold State.flagLate
  extract_lets r mine from_
  split
  · rfl
  · exact onBus_keeps (hg _ _ _) b

theorem flagLate_writes (s : State) (b : Nat) (start : Rat) : (s.flagLate b start).pq.writes = s.pq.writes := by
  unfold State.flagLate
  extract_lets r mine from_
  split
  · rfl
  · rfl

theorem flagSupra_bus (s : State) (b k : Nat) (start : Rat) : pqBus (s.flagSupra b start) k = pqBus s k := by
  unfold State.flagSupra
  extract_lets mine
  split
  · rfl
  · rfl

theorem flagSupra_writes (s : State) (b : Nat) (start : Rat) : (s.flagSupra b start).pq.writes = s.pq.writes := by
  unfold State.flagSupra
  extract_lets mine
  split
  · rfl
  · rfl

theorem PqBus.flagLate_keeps {α : Type} {g : PqBus → α}
    (hg : ∀ (r : PqBus) a b c d e f, g { r with freqStatus := a, edge := b, freqOr := c, pst := d, pstHist := e, plt := f } = g r)
    (r : PqBus) (start : Rat) : g (r.flagLate start) = g r := by
  unfold PqBus.flagLate
  extract_lets or1 r1 h
  have h1 : g r1 = g r := by
    unfold r1
    split
    · rfl
    · exact hg ..
  split
  · exact h1
  · exact (hg r1 ..).trans h1

theorem PqBus.touch_open (r : PqBus) (a e : Rat) : (r.touch a e).open_ = r.open_ := by
  unfold PqBus.touch
  split
  · split
    · rfl
    · rfl
  · rfl

theorem PqBus.touch_spans {r v : PqBus} (h : r.spans = v.spans) (a e : Rat) : (r.touch a e).spans = (v.touch a e).spans := by
  unfold PqBus.touch
  rw [h]
  split
  · split
    · rfl
    · rfl
  · rfl

variable {n : Rat}

/-- A one-cycle interval joins the places that FLAGGED comes from, and what it reaches back to is flagged (R205, R213). -/
def State.cycleFlagged (s : State) (b : Nat) (start n : Rat) : State :=
  ((s.flagLate b start).flagSupra b start).onBus b fun r => (r.flagLate start).touch start n

variable {start : Rat}

theorem cycleFlagged_engine (s : State) : Engine s (s.cycleFlagged b start n) := (flagSupra_engine (flagLate_engine (.refl s))).onBus

theorem cycleFlagged_writes (s : State) : (s.cycleFlagged b start n).pq.writes = s.pq.writes :=
  (flagSupra_writes ..).trans (flagLate_writes ..)

theorem cycleFlagged_open (s : State) : (pqBus (s.cycleFlagged b start n) b).open_ = (pqBus s b).open_ := by
  have h := flagLate_keeps (g := PqBus.open_) (start := start) (fun _ _ _ => rfl) s b
  refine (onBus_keeps (g := PqBus.open_) ?_ b).trans ((congrArg PqBus.open_ (flagSupra_bus ..)).trans h)
  exact (PqBus.touch_open ..).trans (PqBus.flagLate_keeps (fun _ _ _ _ _ _ _ => rfl) _ start)

theorem cycleFlagged_spans (hb : b < s.pq.buses.length) :
    (pqBus (s.cycleFlagged b start n) b).spans = ((pqBus s b).touch start n).spans := by
  have h := flagLate_keeps (g := PqBus.spans) (start := start) (fun _ _ _ => rfl) s b
  have hc : b < ((s.flagLate b start).flagSupra b start).pq.buses.length := by
    rwa [(flagSupra_engine (flagLate_engine (.refl s))).count]
  unfold State.cycleFlagged
  rw [onBus_bus hc, flagSupra_bus]
  exact PqBus.touch_spans ((PqBus.flagLate_keeps (g := PqBus.spans) (fun _ _ _ _ _ _ _ => rfl) _ start).trans h) start n

/-- Where an event was open or is, the cycle is flagged. -/
theorem judgeHalf_of_open (ht : flags3 s b = true ∨ flags3 (s.halfEvents b (instantOf s n) u) b = true) :
    s.judgeHalf b n u =
      (((s.halfEvents b (instantOf s n) u).cycleFlagged b (n - 25000 / (pqBus s b).f1) n).onBus b
        fun r => { r with halfN := some n }).drew 1 := by
  unfold State.judgeHalf
  extract_lets t start was s1 began s2 touched s3
  have h3 : s3 = s2.cycleFlagged b start n := if_pos (Bool.or_eq_true_iff.2 ht)
  rw [h3]
  rfl

theorem judgeHalf_brings (hb : b < s.pq.buses.length)
    (ht : flags3 s b = true ∨ flags3 (s.halfEvents b (instantOf s n) u) b = true) :
    (pqBus (s.judgeHalf b n u) b).open_ = (pqBus (s.halfEvents b (instantOf s n) u) b).open_ ∧
      (s.judgeHalf b n u).pq.writes = (s.halfEvents b (instantOf s n) u).pq.writes ∧
      (pqBus (s.judgeHalf b n u) b).spans = ((pqBus s b).touch (n - 25000 / (pqBus s b).f1) n).spans ∧
      (pqBus (s.judgeHalf b n u) b).halfN = some n := by
  rw [judgeHalf_of_open ht]
  have hv := halfEvents_events s b (instantOf s n) u
  generalize s.halfEvents b (instantOf s n) u = v at hv ⊢
  generalize n - 25000 / (pqBus s b).f1 = start
  have hbv : b < v.pq.buses.length := hv.engine.count ▸ hb
  have hopen := cycleFlagged_open (b := b) (start := start) (n := n) v
  have hdue := cycleFlagged_writes (b := b) (start := start) (n := n) v
  have hspans := (cycleFlagged_spans (start := start) (n := n) hbv).trans (PqBus.touch_spans (hv.spans b) start n)
  have hbc : b < (v.cycleFlagged b start n).pq.buses.length := (cycleFlagged_engine v).count ▸ hbv
  generalize v.cycleFlagged b start n = c at hopen hdue hspans hbc ⊢
  have hbus : pqBus ((c.onBus b fun r => { r with halfN := some n }).drew 1) b = { pqBus c b with halfN := some n } :=
    onBus_bus hbc _
  rw [hbus]
  exact ⟨hopen, hdue, hspans, rfl⟩

/-! ### The next one-cycle values of a bus (R208, R210) -/

/-- What is done under the values that governed an interval makes of power quality what it makes of it where these are in force. -/
theorem under_pq (s : State) (p : Option (List (Nat × Nat))) (f : State → State) :
    (s.under p f).pq = (f (s.onPr fun q => { q with applied := p.getD q.applied })).pq := by
  cases p with
  | none => rfl
  | some a => rfl

/-- Bus A has gone first, and the stream has reached the end of the bus's next cycle. -/
theorem execUrmsHalfCycle_of_due {b : Fin 2} (hr : s.pq.running = true) (hn : nextHalf s b = some n) (hw : n ≤ (waveN s : Rat)) :
    exec (.urmsHalfCycle b) s = .next ((s.busAFirst b n).halfStep b) := by
  have he : exec (.urmsHalfCycle b) s = execUrmsHalfCycle b s := rfl
  rw [he, execUrmsHalfCycle, hr, hn]
  simp [Option.filter, hw]

/-- The state that a bus's one-cycle values at a place are formed in: the values that governed the instant are in force (R227). -/
def halfState (s : State) (n : Rat) : State := s.onPr fun q => { q with applied := (parsAt s (instantOf s n)).getD q.applied }

theorem halfStep_pq (hn : nextHalf s b = some n) (hw : n ≤ (waveN s : Rat)) :
    (s.halfStep b).pq = ((halfState s n).judgeHalf b n (urmsAt (halfState s n) b n)).pq := by
  unfold State.halfStep
  rw [hn]
  dsimp only
  rw [if_pos hw, under_pq]
  rfl

/-- Where an event was open or is, new one-cycle values leave the events as the classes judge them, and the cycle is flagged. -/
theorem halfStep_brings (hb : b < s.pq.buses.length) (hn : nextHalf s b = some n) (hw : n ≤ (waveN s : Rat))
    (hu : u = urmsAt (halfState s n) b n)
    (ht : flags3 (halfState s n) b = true ∨ flags3 ((halfState s n).halfEvents b (instantOf (halfState s n) n) u) b = true) :
    let v := (halfState s n).halfEvents b (instantOf (halfState s n) n) u
    (pqBus (s.halfStep b) b).open_ = (pqBus v b).open_ ∧ (s.halfStep b).pq.writes = v.pq.writes ∧
      (pqBus (s.halfStep b) b).spans = ((pqBus s b).touch (n - 25000 / (pqBus s b).f1) n).spans ∧
      (pqBus (s.halfStep b) b).halfN = some n := by
  have hpq := halfStep_pq hn hw
  rw [← hu] at hpq
  have hbus : pqBus (s.halfStep b) b = pqBus ((halfState s n).judgeHalf b n u) b := pqBus_congr (by rw [hpq]) b
  rw [hbus, hpq]
  exact judgeHalf_brings (s := halfState s n) hb ht

/-- Engine operations that reach no log entry leave the Warden too. -/
theorem Engine.frame_of_still {t : State} (H : Engine s t) (h : Changes [.pr, .lk, .qu, .units, .pq, .free] s t) :
    t = { s with lk := { s.lk with irq := t.lk.irq }, qu := t.qu, units := t.units, pq := t.pq, free := t.free } := by
  have hf := H.frame (h.mono rfl)
  rwa [h.wd rfl] at hf

theorem execUrmsHalfCycle_frame (s : State) (b : Nat) (n : Rat) :
    let t := (s.busAFirst b n).halfStep b
    t = { s with lk := { s.lk with irq := t.lk.irq }, qu := t.qu, units := t.units, pq := t.pq, free := t.free } :=
  (halfStep_engine (busAFirst_engine (.refl s))).frame_of_still (halfStep_ch (busAFirst_ch (.refl _ s) rfl) rfl)

theorem execUrmsHalfCycle_opens_dip {b : Fin 2} (hr : s.pq.running = true) (h2 : s.pq.buses.length = 2)
    (hn : nextHalf s b = some n) (hw : n ≤ (waveN s : Rat)) :
    let s1 := s.busAFirst b n
    let x := halfState s1 n
    nextHalf s1 b = some n → n ≤ (waveN s1 : Rat) → (pqBus s1 b).open_ = [] →
    (∃ (p : Nat) (v : Rat), (urmsAt x b n)[p]? = some v ∧ v < pqPct x b 2 * dipRef x b p) →
    Gives (.urmsHalfCycle b) s fun t =>
      (∃ d ∈ (pqBus t b).open_, d.cls = 0 ∧ d.id = s1.pq.nextId ∧ d.start = instantOf x n ∧
        d.phases = phaseMask (dipPhases x b (urmsAt x b n)) ∧ d ∈ t.pq.writes) ∧
      (pqBus t b).spans = ((pqBus s1 b).touch (n - 25000 / (pqBus s1 b).f1) n).spans ∧ (pqBus t b).halfN = some n ∧
      t = { s with lk := { s.lk with irq := t.lk.irq }, qu := t.qu, units := t.units, pq := t.pq, free := t.free } := by
  intro s1 x hn1 hw1 h0 hu
  have hb : b.val < x.pq.buses.length := by
    change b.val < s1.pq.buses.length
    rw [(busAFirst_engine (.refl s)).count, h2]
    exact b.isLt
  obtain ⟨y, hopen⟩ := halfEvents_opens_dip (t := instantOf x n) hb h0 hu
  have hflag : flags3 (x.halfEvents b (instantOf x n) (urmsAt x b n)) b = true := by
    simp [flags3, isOpen_of_mem (cls := 0) hopen.isOpen rfl]
  obtain ⟨ho, hdue, hspans, hhalf⟩ := halfStep_brings (s := s1) hb hn1 hw1 rfl (.inr hflag)
  refine ⟨_, execUrmsHalfCycle_of_due hr hn hw, ?_, hspans, hhalf, execUrmsHalfCycle_frame s b n⟩
  rw [ho, hdue]
  exact ⟨_, hopen.isOpen, rfl, rfl, rfl, rfl, hopen.due⟩

theorem execUrmsHalfCycle_ends_dip {b : Fin 2} (hr : s.pq.running = true) (h2 : s.pq.buses.length = 2)
    (hn : nextHalf s b = some n) (hw : n ≤ (waveN s : Rat)) :
    let s1 := s.busAFirst b n
    let x := halfState s1 n
    nextHalf s1 b = some n → n ≤ (waveN s1 : Rat) → ∀ v : PqEvent, (pqBus s1 b).open_ = [v] → v.cls = 0 →
    (∀ (p : Nat) (u : Rat), (urmsAt x b n)[p]? = some u → (pqPct x b 2 + pqPct x b 5) * dipRef x b p ≤ u) →
    Gives (.urmsHalfCycle b) s fun t =>
      (∀ d ∈ (pqBus t b).open_, d.cls ≠ 0) ∧
      (∃ d ∈ t.pq.writes, d.id = v.id ∧ d.cls = 0 ∧ d.dur = spanMs x 0 v.start (instantOf x n) ∧ d.eflags = v.eflags - 1) ∧
      (pqBus t b).spans = ((pqBus s1 b).touch (n - 25000 / (pqBus s1 b).f1) n).spans ∧ (pqBus t b).halfN = some n ∧
      t = { s with lk := { s.lk with irq := t.lk.irq }, qu := t.qu, units := t.units, pq := t.pq, free := t.free } := by
  intro s1 x hn1 hw1 v hv h0 hu
  have hb : b.val < x.pq.buses.length := by
    change b.val < s1.pq.buses.length
    rw [(busAFirst_engine (.refl s)).count, h2]
    exact b.isLt
  obtain ⟨hnone, phases, y, worse, hdone⟩ := halfEvents_ends_dip (t := instantOf x n) hb hv h0 hu
  have hmem : v ∈ (pqBus x b).open_ := (show (pqBus x b).open_ = [v] from hv) ▸ List.mem_singleton_self v
  have hflag : flags3 x b = true := by simp [flags3, isOpen_of_mem (cls := 0) hmem h0]
  obtain ⟨ho, hdue, hspans, hhalf⟩ := halfStep_brings (s := s1) hb hn1 hw1 rfl (.inl hflag)
  refine ⟨_, execUrmsHalfCycle_of_due hr hn hw, ?_, ?_, hspans, hhalf, execUrmsHalfCycle_frame s b n⟩
  · rw [ho]
    exact hnone
  · rw [hdue]
    exact ⟨_, hdone, rfl, h0, rfl, rfl⟩

/-! ### Records in the event ring (R212, R220 to R222, Table 9-5) -/

/-- A write outside page 0 reads back, and changes no other byte but the torn bitmap's (R338, R354). -/
theorem wr_reads {a : Nat} {bs : List Byte} (ha : 256 ≤ a) (hs : a + bs.length ≤ storeSize) :
    rdBytes (s.wr a bs).hw.mem a bs.length = bs ∧ keepsBytes s (s.wr a bs) [(0, 256), (a, bs.length)] := by
  refine ⟨List.ext_getElem (by simp [rdBytes]) fun i hi hi' => ?_, wr_keepsBytes (by simp) (by simp) hs⟩
  have hread := wr_in (s := s) hi' hs ha
  simpa [rdBytes, hi'] using hread

theorem eventAddr_bounds {k : Nat} (hk : k < 1024) : 256 ≤ eventAddr k ∧ eventAddr k + 32 ≤ storeSize := by
  have ha : eventAddr k = 229376 + 32 * k := rfl
  have hs : storeSize = 524288 := rfl
  omega

theorem eventBytes_length (s : State) (e : PqEvent) : (eventBytes s e).length = 32 := by simp [eventBytes, le, zeros]

/-- The record of an event with the capture linked to it as it is written (R221). -/
def eventLinked (s : State) (e : PqEvent) : PqEvent := { e with cu := (linkOf s e).1, capture := (linkOf s e).2 }

theorem execEventRecordWrite_brings {r : List PqEvent} (hw : s.pq.writes = e :: r) (hc : s.wd.canopyRunning = true)
    (hpos : e.pos < 1024) :
    Gives .eventRecordWrite s fun t =>
      t.pq.writes.map (·.id) = r.map (·.id) ∧ rdBytes t.hw.mem (eventAddr e.pos) 32 = eventBytes s (eventLinked s e) ∧
      keepsBytes s t [(0, 256), (eventAddr e.pos, 32)] ∧ t = { s with hw := t.hw, pq := t.pq, free := t.free } := by
  have he : exec .eventRecordWrite s = execEventRecordWrite s := rfl
  obtain ⟨hlo, hhi⟩ := eventAddr_bounds hpos
  have hlen := eventBytes_length s (eventLinked s e)
  let link := fun x : PqEvent => if x.id == e.id then { x with cu := (linkOf s e).1, capture := (linkOf s e).2 } else x
  let s1 := (s.onPq fun q => { q with writes := r.map link }).onBus e.bus fun v => { v with open_ := v.open_.map link }
  obtain ⟨hread, hkeep⟩ := wr_reads (s := s1) (bs := eventBytes s (eventLinked s e)) hlo (by rwa [hlen])
  rw [hlen] at hread hkeep
  refine ⟨(s1.wr (eventAddr e.pos) (eventBytes s (eventLinked s e))).drew 2, ?_, ?_, hread, hkeep, ?_⟩
  · rw [he, execEventRecordWrite, hw]
    exact if_neg (by simp [hc])
  · rw [drew_pq, wr_frame]
    refine (List.map_map ..).trans (List.map_congr_left fun x _ => ?_)
    exact (apply_ite PqEvent.id _ _ _).trans (ite_self _)
  · rw [wr_frame]
    rfl

/-- DURATION_MS is a 32-bit number. -/
theorem spanMs_lt (s : State) (k a t : Nat) : spanMs s k a t < 256 ^ 4 := by
  unfold spanMs satN
  split
  · omega
  · omega

/-- EFLAGS of a record closed with POWER_LOSS is a byte. -/
theorem closedFlags_lt {v : Nat} (h : v < 256) : setBit (clrBit v 0) 3 < 256 := by
  have hclr : clrBit v 0 < 256 := by
    unfold clrBit
    split <;> omega
  unfold setBit
  split
  · exact hclr
  · next hb =>
    simp only [bitAt, beq_iff_eq] at hb
    omega

theorem staleOpen_lt {k : Nat} (h : staleOpen s = some k) : k < 1024 := by
  unfold staleOpen at h
  exact List.mem_range.1 (List.mem_of_find?_eq_some h)

theorem execOpenEventClose_brings {k : Nat} (hc : s.wd.canopyRunning = true) (hk : staleOpen s = some k) :
    Gives .openEventClose s fun t =>
      rdVal t.hw.mem (eventAddr k + 18) 4 = spanMs s 0 (ofTime80 (peekVal s (eventAddr k + 8) 10)) s.pq.lossT ∧
      (rdByte t.hw.mem (eventAddr k + 3)).toNat = setBit (clrBit (sensedByte s.hw (eventAddr k + 3)).toNat 0) 3 ∧
      keepsBytes s t [(0, 256), (eventAddr k + 18, 4), (eventAddr k + 3, 1)] ∧
      t = { s with hw := t.hw, wd := t.wd, free := t.free } := by
  have hk1024 := staleOpen_lt hk
  obtain ⟨hlo, hhi⟩ := eventAddr_bounds hk1024
  have hsize : storeSize = 524288 := rfl
  let ms := spanMs s 0 (ofTime80 (peekVal s (eventAddr k + 8) 10)) s.pq.lossT
  let fl := setBit (clrBit (sensedByte s.hw (eventAddr k + 3)).toNat 0) 3
  let ps := [(eventAddr k + 18, le 4 ms), (eventAddr k + 3, le 1 fl)]
  let s1 := s.sense (eventAddr k) 32
  have he : exec .openEventClose s = .next ((s1.wrPage ps).drew 1) := by
    have hx : exec .openEventClose s = execOpenEventClose s := rfl
    rw [hx, execOpenEventClose, hk]
    exact if_neg (by simp [hc])
  have hmem : (s1.wrPage ps).hw.mem = markTorn (wrBytes (wrBytes s1.hw.mem (eventAddr k + 18) (le 4 ms)) (eventAddr k + 3) (le 1 fl))
      ((eventAddr k + 18) / 256) false := rfl
  have hl4 : (le 4 ms).length = 4 := by simp [le]
  have hl1 : (le 1 fl).length = 1 := by simp [le]
  refine ⟨_, he, ?_, ?_, ?_, ?_⟩
  · have hread : rdBytes (s1.wrPage ps).hw.mem (eventAddr k + 18) 4 = le 4 ms := by
      rw [hmem]
      refine List.ext_getElem (by simp [rdBytes, hl4]) fun i hi hi' => ?_
      rw [hl4] at hi'
      simp only [rdBytes, List.getElem_map, List.getElem_range]
      rw [rdByte_markTorn false (by omega) (by omega), rdByte_wrBytes_out _ (by omega), rdByte_wrBytes_in _ (by omega) (by omega)]
      simp [List.getD_eq_getElem?_getD, hl4, hi']
    exact (congrArg leVal hread).trans ((leVal_le 4 ms).trans (Nat.mod_eq_of_lt (spanMs_lt ..)))
  · have hread : rdByte (s1.wrPage ps).hw.mem (eventAddr k + 3) = BitVec.ofNat 8 fl := by
      rw [hmem, rdByte_markTorn false (by omega) (by omega)]
      exact rdByte_wrBytes_in (i := 0) (le 1 fl) (by omega) (by omega)
    refine (congrArg BitVec.toNat hread).trans ((BitVec.toNat_ofNat ..).trans (Nat.mod_eq_of_lt ?_))
    exact closedFlags_lt (BitVec.isLt _)
  · refine keepsBytes_trans (sense_keepsBytes (keepsBytes_refl s _)) (wrPage_keepsBytes (ps := ps) (by simp) (by simp [ps]; omega) ?_)
    intro e he
    rcases List.mem_cons.1 he with rfl | he
    · exact ⟨(eventAddr k + 18, 4), by simp, by simp [hl4]⟩
    · rw [List.mem_singleton.1 he]
      exact ⟨(eventAddr k + 3, 1), by simp, by simp [hl1]⟩
  · exact (drew_ch (onHw_ch (sense_ch (.refl [.hw, .wd, .free] s) rfl) rfl) rfl).eq_pick

/-- Settles O36: with no event open a dip is the first class judged and stays open through the others; the one open dip ends first,
and no other class opens one; a record, and what a power loss leaves of one, are single writes to its place. -/
theorem dipsOpenCloseAndAreRecorded : Obligations.DipsOpenCloseAndAreRecorded := fun _ =>
  ⟨fun _ _ hr h2 hn hw hn1 hw1 =>
      ⟨execUrmsHalfCycle_opens_dip hr h2 hn hw hn1 hw1, execUrmsHalfCycle_ends_dip hr h2 hn hw hn1 hw1⟩,
    fun _ _ => execEventRecordWrite_brings, fun _ => execOpenEventClose_brings⟩

end Sys2Proof.Machine
end

section
/-! LEMMAS. `EdgeCloses b z t`: from `z` to `t` a 10-minute interval of a bus that waits closes, with the 10 s interval that ends at its
end: the other buses stay, and of its own bus all but the interval and the 10 s frequency (R204, R207, R208). -/

namespace Sys2Proof.Machine

variable {z z' s t t' : State} {b : Nat}

/-- A bus with the 10-minute interval that waits, and the latest 10 s frequency, of another. -/
def PqBus.tenFrom (r v : PqBus) : PqBus :=
  { r with edge := v.edge, freq := v.freq, freqEnd := v.freqEnd, freqStatus := v.freqStatus, mark10s := v.mark10s,
           fresh10s := v.fresh10s, start10 := v.start10, idx10 := v.idx10 }

/-- Power quality with the buses, results, sums and records to archive of another. -/
def Pq.closedFrom (q v : Pq) : Pq :=
  { q with buses := v.buses, results := v.results, accs := v.accs, mark2h := v.mark2h, archive := v.archive }

structure EdgeCloses (b : Nat) (z t : State) : Prop where
  pq : t.pq = z.pq.closedFrom t.pq
  count : t.pq.buses.length = z.pq.buses.length
  own : pqBus t b = (pqBus z b).tenFrom (pqBus t b)
  others : ∀ k ≠ b, pqBus t k = pqBus z k
  basic : ∀ kind ch, pqResult t kind 0 ch = pqResult z kind 0 ch
  tens : ∀ a ∈ t.pq.accs, a.level = 2 → a ∈ z.pq.accs
  still : z.pq.agg = false → t.pq.accs = z.pq.accs

theorem EdgeCloses.refl (b : Nat) (s : State) : EdgeCloses b s s :=
  ⟨rfl, rfl, rfl, fun _ _ => rfl, fun _ _ => rfl, fun _ ha _ => ha, fun _ => rfl⟩

theorem EdgeCloses.agg (h : EdgeCloses b z t) : t.pq.agg = z.pq.agg := by rw [h.pq, Pq.closedFrom]

theorem EdgeCloses.trans (h : EdgeCloses b z s) (g : EdgeCloses b s t) : EdgeCloses b z t where
  pq := g.pq.trans (congrArg (fun q : Pq => q.closedFrom t.pq) h.pq :)
  count := g.count.trans h.count
  own := g.own.trans (congrArg (fun r : PqBus => r.tenFrom (pqBus t b)) h.own :)
  others k hk := (g.others k hk).trans (h.others k hk)
  basic kind ch := (g.basic kind ch).trans (h.basic kind ch)
  tens a ha hl := h.tens a (g.tens a ha hl) hl
  still hn := (g.still (h.agg.trans hn)).trans (h.still hn)

/-- Closing an interval concerns power quality alone. -/
theorem EdgeCloses.of_pq (h : EdgeCloses b z t) (hz : z'.pq = z.pq) (ht : t'.pq = t.pq) : EdgeCloses b z' t' := by
  have bz (k : Nat) : pqBus z' k = pqBus z k := pqBus_congr (by rw [hz]) k
  have bt (k : Nat) : pqBus t' k = pqBus t k := pqBus_congr (by rw [ht]) k
  obtain ⟨hpq, hcount, hown, hothers, hbasic, htens, hstill⟩ := h
  refine ⟨by rw [hz, ht]; exact hpq, by rw [hz, ht]; exact hcount, by rw [bz, bt]; exact hown, fun k hk => ?_, fun kind ch => ?_,
    by rw [hz, ht]; exact htens, by rw [hz, ht]; exact hstill⟩
  · rw [bz, bt, hothers k hk]
  · rw [pqResult_eq, pqResult_eq, hz, ht]
    exact hbasic kind ch

theorem EdgeCloses.under {p : Option (List (Nat × Nat))} {f : State → State} (hf : ∀ x, EdgeCloses b x (f x)) :
    EdgeCloses b s (s.under p f) :=
  EdgeCloses.of_pq (hf (s.onPr fun q => { q with applied := p.getD q.applied })) rfl (under_pq s p f)

/-- An update of the bus that reaches only its 10-minute interval and 10 s frequency. -/
theorem EdgeCloses.onBus {f : PqBus → PqBus} (H : EdgeCloses b z s) (hf : f (pqBus s b) = (pqBus s b).tenFrom (f (pqBus s b))) :
    EdgeCloses b z (s.onBus b f) := by
  refine H.trans ⟨rfl, onBus_count .., ?_, fun k hk => onBus_bus_ne hk s f, fun _ _ => rfl, fun _ ha _ => ha, fun _ => rfl⟩
  by_cases hb : b < s.pq.buses.length
  · rw [onBus_bus hb]
    exact hf
  · rw [onBus_of_absent (Nat.le_of_not_lt hb)]
    rfl

variable {e : PqEdge} {endT : Nat}

/-- The 10 s interval that ends with the 10-minute interval counts in that one: the sums of the next stay. -/
theorem closeTen_edgeCloses (he : (pqBus s b).edge = some e) (place : Rat) (extra : Nat) :
    EdgeCloses b s (s.closeTen b place e.endT extra) := by
  refine EdgeCloses.onBus (.refl b s) ?_
  simp only [he, le_refl, if_true]
  rfl

theorem tenAt_edgeCloses (he : (pqBus s b).edge = some e) : EdgeCloses b s (s.tenAt b e.endT) := by
  unfold State.tenAt
  split
  · exact (closeTen_edgeCloses he _ 0).onBus rfl
  · exact .refl b s

variable {level extra : Nat} {sel : PqAcc → Bool}

/-- What leaves the buses and the basic results, and adds no sum of level 2. -/
theorem EdgeCloses.onPq {f : Pq → Pq} (H : EdgeCloses b z s) (hagg : z.pq.agg = true) (hf : f s.pq = s.pq.closedFrom (f s.pq))
    (hb : (f s.pq).buses = s.pq.buses) (hr : ∀ kind ch, resultIn (f s.pq).results kind 0 ch = resultIn s.pq.results kind 0 ch)
    (ha : ∀ a ∈ (f s.pq).accs, a.level = 2 → a ∈ s.pq.accs) : EdgeCloses b z (s.onPq f) := by
  have hbus (k : Nat) : pqBus (s.onPq f) k = pqBus s k := pqBus_congr hb k
  refine H.trans ⟨hf, by rw [onPq_pq, hb], by rw [hbus]; rfl, fun k _ => hbus k, hr, ha, fun hn => ?_⟩
  exact absurd (H.agg.trans hagg) (by simp [hn])

theorem closeAccs_edgeCloses (H : EdgeCloses b z s) (hagg : z.pq.agg = true) (h0 : level ≠ 0) :
    EdgeCloses b z (s.closeAccs level endT extra sel) :=
  H.onPq hagg rfl rfl (fun _ _ => closeAccs_result_ne h0.symm) fun _ ha hl => (mem_closeAccs ha fun _ => by omega).1

theorem formEdge_edgeCloses (s : State) (b : Nat) (e : PqEdge) : EdgeCloses b s (s.formEdge b e) := by
  unfold State.formEdge
  extract_lets s0 s1 s2 s3
  have h0 : EdgeCloses b s s0 := (EdgeCloses.refl b s).onBus rfl
  by_cases hagg : s.pq.agg = true
  · have h1 : EdgeCloses b s s1 := closeAccs_edgeCloses h0 hagg (by decide)
    have h2 : EdgeCloses b s s2 := by
      unfold s2
      split
      · exact closeAccs_edgeCloses h1 hagg (by decide)
      · exact h1
    have h3 : EdgeCloses b s s3 := by
      unfold s3
      split
      · exact h2.onPq hagg rfl rfl (fun _ _ => rfl) fun _ ha _ => (List.mem_filter.1 ha).1
      · exact h2
    rw [if_neg (by simp [hagg])]
    have h4 := h3.onPq (f := fun q => { q with archive := archiveAdd q.archive (archiveBytes s3 s.pq.accs b e) }) hagg rfl rfl
      (fun _ _ => rfl) fun _ ha _ => ha
    exact h4.of_pq rfl rfl
  · rw [if_pos (by simpa using hagg)]
    exact h0

theorem closeEdge_edgeCloses (s : State) (b : Nat) : EdgeCloses b s (s.closeEdge b) := by
  unfold State.closeEdge
  split
  · exact .refl b s
  next e _ => exact .under fun x => formEdge_edgeCloses x b e

theorem edgeReady_edgeCloses (s : State) (b : Nat) : EdgeCloses b s (s.edgeReady b) := by
  unfold State.edgeReady
  extract_lets r
  split
  · cases he : r.edge with
    | none => exact closeEdge_edgeCloses s b
    | some e => exact (tenAt_edgeCloses he).trans (closeEdge_edgeCloses _ b)
  · exact .refl b s

end Sys2Proof.Machine
end

section
/-! THEOREMS. Windows, 150/180-cycle intervals, 10 s frequencies and 3 s supraharmonic aggregates leave their results (R203 to R210,
R217, Table 9-8; O37). -/

namespace Sys2Proof.Machine

variable {s t v : State} {b c base endT : Nat} {f1 : Rat} {w : PqWin} {i : WinIn} {x : Bool} {a : PqAcc} {st : Nat}

/-! ### The basic results of a window (R206, R208) -/

/-- The basic result of a channel, KIND 0, ends at an instant with the rms of a mean square. -/
def BasicIs (endT c : Nat) (ms : Rat) (t : State) : Prop :=
  ∃ r, pqResult t 0 0 c = some r ∧ r.endT = endT ∧ r.vals = [f32Sqrt ms]

theorem BasicIs.congr {ms : Rat} (H : BasicIs endT c ms s) (h : pqResult t 0 0 c = pqResult s 0 0 c) : BasicIs endT c ms t := by
  rwa [BasicIs, h]

theorem takeWin_basicIs (hi : i.chan < 36) (s : State) : BasicIs endT i.chan i.ms (s.takeWin base endT f1 i) := by
  unfold State.takeWin
  extract_lets ex st st1 st2 h is put feed
  rw [if_neg (by omega)]
  refine ⟨⟨0, 0, i.chan, st, endT, [i.ms].map f32Sqrt, (waveN s : Rat)⟩, ?_, rfl, rfl⟩
  rw [pqResult_eq, onPq_pq]
  simp only [put]
  rw [putResult_result_ne (by simp), putResult_result_ne (by simp)]
  exact putResult_result ..

theorem takeWin_result_ne (hi : i.chan ≠ c) (s : State) : pqResult (s.takeWin base endT f1 i) 0 0 c = pqResult s 0 0 c := by
  unfold State.takeWin
  extract_lets ex st st1 st2 h is put feed
  split
  · rfl
  · rw [pqResult_eq, onPq_pq]
    simp only [put]
    rw [putResult_result_ne (by simp), putResult_result_ne (by simp), putResult_result_ne (by simpa using hi), pqResult_eq]

/-- A window gives each of its channels the rms of its samples. -/
theorem takeWins_basicIs (hc : c < 36) {l : List Nat} (hl : c ∈ l) (s : State) :
    BasicIs endT c (chanWin v w c).ms ((l.map (chanWin v w)).foldl (fun x i => x.takeWin base endT f1 i) s) := by
  obtain ⟨l1, l2, rfl⟩ := List.append_of_mem hl
  rw [List.map_append, List.map_cons, List.foldl_append, List.foldl_cons]
  have hat (k : Nat) : (chanWin v w k).chan = k := rfl
  refine List.foldlRecOn (motive := BasicIs endT c (chanWin v w c).ms) _ _ (takeWin_basicIs (i := chanWin v w c) hc _) fun u hu k hk => ?_
  obtain ⟨k, -, rfl⟩ := List.mem_map.1 hk
  by_cases hkc : k = c
  · rw [hkc]
    exact takeWin_basicIs (i := chanWin v w c) hc u
  · exact hu.congr (takeWin_result_ne hkc u)

theorem takeBusWin_result {third : Rat} {wins : List WinIn} (s : State) :
    pqResult (s.takeBusWin b base endT f1 third wins) 0 0 c = pqResult s 0 0 c :=
  putResult_result_ne (by simp) _

theorem takeCircPq_result {wins : List WinIn} (s : State) (k : Nat) :
    pqResult (s.takeCircPq b base f1 wins k) 0 0 c = pqResult s 0 0 c := by
  unfold State.takeCircPq
  extract_lets es
  split
  · rfl
  · rfl

theorem takeCircs_result {wins : List WinIn} (s : State) (l : List Nat) :
    pqResult (l.foldl (fun x k => x.takeCircPq b base f1 wins k) s) 0 0 c = pqResult s 0 0 c :=
  foldl_keeps (g := fun x => pqResult x 0 0 c) takeCircPq_result l s

theorem takeWindow_basicIs (hc : c < 36) (hb : chanBus (winState s w) c = b) :
    BasicIs endT c (chanWin (winState s w) w c).ms (s.takeWindow b endT w) := by
  unfold State.takeWindow
  extract_lets v base wins third v1 v2 v3
  have hv : winState s w = v := rfl
  rw [hv] at hb ⊢
  have hmem : c ∈ (List.range 36).filter fun c => chanBus v c == b := List.mem_filter.2 ⟨List.mem_range.2 hc, beq_iff_eq.2 hb⟩
  have h1 : BasicIs endT c (chanWin v w c).ms v1 := takeWins_basicIs hc hmem v
  have h2 : BasicIs endT c (chanWin v w c).ms v2 := h1.congr (takeBusWin_result v1)
  have e3 : v3 = (List.range 28).foldl (fun x k => x.takeCircPq b base w.hz wins k) v2 := rfl
  clear_value v3 v2 v1
  have h3 : BasicIs endT c (chanWin v w c).ms v3 := h2.congr (by rw [e3]; exact takeCircs_result v2 _)
  exact h3.congr rfl

/-- A window's values are formed at its end, and the bus moves on to that place. -/
theorem closeWindow_eq (s : State) (b : Nat) (w : PqWin) (x : Bool) :
    ∃ f : PqBus → PqBus,
      (∀ r, (f r).lastStart = w.start ∧ (f r).lastEnd = winEnd w (binsN (winState s w))) ∧
      s.closeWindow b w x =
        ((((if x then s else s.closeEdge b).takeWindow b (instantOf s (winEnd w (binsN (winState s w)))) w).onBus b f).drew
          100).edgeReady b := by
  refine ⟨_, fun r => ⟨?_, ?_⟩, rfl⟩
  · simp only [apply_ite PqBus.lastStart, PqBus.measured, ite_self]
  · simp only [apply_ite PqBus.lastEnd, PqBus.measured, ite_self]

theorem closeWindow_brings (hb : b < s.pq.buses.length) {s2 : State} (h2 : s2 = if x then s else s.closeEdge b) :
    (∀ c < 36, chanBus (winState s2 w) c = b →
        BasicIs (instantOf s (winEnd w (binsN (winState s w)))) c (chanWin (winState s2 w) w c).ms (s.closeWindow b w x)) ∧
      (pqBus (s.closeWindow b w x) b).lastStart = w.start ∧
      (pqBus (s.closeWindow b w x) b).lastEnd = winEnd w (binsN (winState s w)) := by
  obtain ⟨f, hf, heq⟩ := closeWindow_eq s b w x
  have hcount : s2.pq.buses.length = s.pq.buses.length := by
    rw [h2]
    exact (Engine.ite (.refl s) (closeEdge_engine (.refl s))).count
  rw [heq, ← h2]
  generalize winEnd w (binsN (winState s w)) = e at hf ⊢
  have hwin (c : Nat) (hc : c < 36) (hcb : chanBus (winState s2 w) c = b) :=
    takeWindow_basicIs (endT := instantOf s e) hc hcb
  have h1 : b < (s2.takeWindow b (instantOf s e) w).pq.buses.length := by
    rw [(takeWindow_engine (.refl s2)).count, hcount]
    exact hb
  generalize s2.takeWindow b (instantOf s e) w = s1 at hwin h1 ⊢
  have hready := edgeReady_edgeCloses ((s1.onBus b f).drew 100) b
  have hbus : pqBus ((s1.onBus b f).drew 100) b = f (pqBus s1 b) := onBus_bus h1 f
  rw [hready.own, hbus]
  exact ⟨fun c hc hcb => (hwin c hc hcb).congr (hready.basic 0 c), hf _⟩

/-! ### A window ends, after earlier work of its bus and of bus A (R206 to R208, R210) -/

/-- Earlier work of a bus leaves the number of cycles in its windows. -/
theorem cyclesEnd_binsN (s : State) (b : Nat) (w : PqWin) :
    binsN (winState (s.cyclesEnd b) w) = binsN (winState s w) := by
  have h := (cyclesEnd_engine (b := b) (.refl s)).frame_of_still (cyclesEnd_ch (.refl _ s) rfl)
  rw [h]
  unfold winState
  split
  · rfl
  · rfl

theorem endWindow_eq (s : State) (b : Nat) (w : PqWin) (x : Bool) :
    s.endWindow b w x =
      ((s.cyclesEnd b).busAFirst b (winEnd w (binsN (winState (s.cyclesEnd b) w)))).closeWindow b w x := by
  rw [cyclesEnd_binsN]
  rfl

theorem execPqWindowEnd_brings {b : Fin 2} (hr : s.pq.running = true) (h2 : s.pq.buses.length = 2)
    (hw : winDue s b = some (w, x)) :
    let s0 := s.aggResume.cyclesEnd b
    let s1 := s0.busAFirst b (winEnd w (binsN (winState s0 w)))
    let e := winEnd w (binsN (winState s1 w))
    let s2 := if x then s1 else s1.closeEdge b
    Gives (.pqWindowEnd b) s fun t =>
      (∀ c < 36, chanBus (winState s2 w) c = b →
        ∃ r, pqResult t 0 0 c = some r ∧ r.endT = instantOf s1 e ∧ r.vals = [f32Sqrt (chanWin (winState s2 w) w c).ms]) ∧
      (pqBus t b).lastStart = w.start ∧ (pqBus t b).lastEnd = e ∧
      t = { s with lk := { s.lk with irq := t.lk.irq }, wd := t.wd, qu := t.qu, units := t.units, pq := t.pq, free := t.free } := by
  intro s0 s1 e s2
  have he : exec (.pqWindowEnd b) s = .next (s1.closeWindow b w x) := by
    have hx : exec (.pqWindowEnd b) s = execPqWindowEnd b s := rfl
    rw [hx, execPqWindowEnd, hr, hw]
    exact congrArg Host.Outcome.next (endWindow_eq s.aggResume b w x)
  have h1 : Engine s s1 := busAFirst_engine (cyclesEnd_engine (aggResume_engine (.refl s)))
  have hc1 : Changes [.pr, .lk, .wd, .qu, .units, .pq, .free] s s1 :=
    busAFirst_ch (cyclesEnd_ch (aggResume_ch (.refl _ s) rfl) rfl) rfl
  have hb : (b : Nat) < s1.pq.buses.length := by
    rw [h1.count, h2]
    exact b.isLt
  obtain ⟨hres, hstart, hend⟩ := closeWindow_brings (w := w) (x := x) hb (s2 := s2) rfl
  exact ⟨_, he, hres, hstart, hend, (closeWindow_engine h1).frame (closeWindow_ch hc1 rfl)⟩

/-! ### A 150/180-cycle interval closes (R207, R208) -/

theorem formCycles_brings (hb : b < s.pq.buses.length) :
    let t := s.formCycles b endT st
    t.pq.accs = s.pq.accs.filter (fun a => !(a.level == 1 && accOfBus s b a)) ∧ (pqBus t b).aggDue = none ∧
      ∀ a, s.pq.accs.filter (fun v => v.level == 1 && accOfBus s b v) = [a] → a.kind = 0 →
        pqResult t 0 1 a.chan = some (accResult s [a] endT st a) := by
  let u := s.onBus b fun r => { r with aggDue := none, aggPars := none }
  let s1 := u.closeAccs 1 endT st (accOfBus s b)
  have hev : Events s1 (s.formCycles b endT st) := by
    unfold State.formCycles
    extract_lets m s2
    exact .ite (.refl s2) ((Events.refl s2).foldl fun x k hx => judgeMsv_events hx)
  have hbus : pqBus s1 b = { pqBus s b with aggDue := none, aggPars := none } := onBus_bus hb _
  refine ⟨hev.accs.trans (closeAccs_accs (by decide)), (hev.aggDue b).trans (by rw [hbus]), fun a hone hk => ?_⟩
  have hres : pqResult s1 a.kind 1 a.chan = some (accResult u [a] endT st a) :=
    closeAccs_result_of_one (s := u) hone (by omega)
  rw [hk] at hres
  rw [pqResult_eq, hev.results, ← pqResult_eq, hres]
  rfl

theorem execPqAggregateEnd_brings {b : Fin 2} (hagg : s.pq.agg = true) (h2 : s.pq.buses.length = 2)
    (hdue : (pqBus s b).aggDue = some (endT, st)) :
    let s1 := s.busAFirst b (placeOf s endT)
    let y := s1.onPr fun q => { q with applied := ((pqBus s1 b).aggPars).getD q.applied }
    (pqBus s1 b).aggDue = some (endT, st) → Gives (.pqAggregateEnd b) s fun t =>
      t.pq.accs = s1.pq.accs.filter (fun a => !(a.level == 1 && accOfBus y b a)) ∧ (pqBus t b).aggDue = none ∧
      (∀ a, s1.pq.accs.filter (fun v => v.level == 1 && accOfBus y b v) = [a] → a.kind = 0 →
        pqResult t 0 1 a.chan = some (accResult y [a] endT st a)) ∧
      t = { s with lk := { s.lk with irq := t.lk.irq }, wd := t.wd, qu := t.qu, units := t.units, pq := t.pq, free := t.free } := by
  intro s1 y hdue1
  have he : exec (.pqAggregateEnd b) s = .next (s1.closeCycles b) := by
    have hx : exec (.pqAggregateEnd b) s = execPqAggregateEnd b s := rfl
    rw [hx, execPqAggregateEnd, hagg, State.cyclesEnd, hdue]
    rfl
  have h1 : Engine s s1 := busAFirst_engine (.refl s)
  have hb : (b : Nat) < y.pq.buses.length := by
    change (b : Nat) < s1.pq.buses.length
    rw [h1.count, h2]
    exact b.isLt
  have hpq : (s1.closeCycles b).pq = (y.formCycles b endT st).pq := by
    rw [State.closeCycles, hdue1]
    exact under_pq ..
  obtain ⟨haccs, hnone, hres⟩ := formCycles_brings (s := y) (endT := endT) (st := st) hb
  refine ⟨_, he, ?_, (congrArg PqBus.aggDue (pqBus_congr (by rw [hpq]) b)).trans hnone, fun a hone hk => ?_, ?_⟩
  · rw [hpq]
    exact haccs
  · rw [pqResult_eq, hpq, ← pqResult_eq]
    exact hres a hone hk
  · exact (closeCycles_engine h1).frame (closeCycles_ch (busAFirst_ch (.refl _ s) rfl) rfl)

/-! ### A 10 s frequency interval ends (R204, R208) -/

theorem closeTen_bus {f place : Rat} {extra : Nat} (hb : b < s.pq.buses.length)
    (hf : hzBetween (pqBus s b).crosses (pqBus s b).start10 place = some f) :
    let r := pqBus (s.closeTen b place endT extra) b
    r.freq = f32OfRat f ∧ r.freqEnd = some endT ∧
      (s.pq.agg = true → (pqBus s b).edge = none →
        r.freqSum = (pqBus s b).freqSum + f ∧ r.freqN = (pqBus s b).freqN + 1) ∧
      ∀ v, (pqBus s b).edge = some v → endT ≤ v.endT →
        r.edge.map (fun z => (z.endT, z.freqSum, z.freqN)) = some (v.endT, v.freqSum + f, v.freqN + 1) := by
  intro r
  have hr : r = _ := onBus_bus hb _
  rw [hr, hf]
  dsimp only
  cases he : (pqBus s b).edge with
  | none =>
    refine ⟨(apply_ite PqBus.freq ..).trans (ite_self _), (apply_ite PqBus.freqEnd ..).trans (ite_self _), ?_, ?_⟩
    · intro hagg _
      rw [if_pos hagg]
      exact ⟨rfl, rfl⟩
    · intro v hv
      cases hv
  | some v =>
    refine ⟨?_, ?_, ?_, ?_⟩
    · simp only [apply_ite PqBus.freq, ite_self, Option.getD_some]
    · simp only [apply_ite PqBus.freqEnd, ite_self]
    · intro _ hn
      cases hn
    · intro u hu hle
      obtain rfl := Option.some.inj hu
      simp only [if_pos hle]
      rfl

theorem execFrequencyIntervalEnd_brings {b : Fin 2} {f : Rat} (hr : s.pq.running = true) (h2 : s.pq.buses.length = 2)
    (hwave : s.wave ≠ []) (hdue : (pqBus s b).idx10 < utcIdx s (waveT s + pTick) 10)
    (hf : hzBetween (pqBus s b).crosses (pqBus s b).start10
      (placeOf s (boundary s (utcIdx s (waveT s + pTick) 10) 10)) = some f) :
    Gives (.frequencyIntervalEnd b) s fun t =>
      (pqBus t b).freq = f32OfRat f ∧ (pqBus t b).freqEnd = some (boundary s (utcIdx s (waveT s + pTick) 10) 10) ∧
      (pqBus t b).idx10 = utcIdx s (waveT s + pTick) 10 ∧
      (s.pq.agg = true → (pqBus s b).edge = none →
        (pqBus t b).freqSum = (pqBus s b).freqSum + f ∧ (pqBus t b).freqN = (pqBus s b).freqN + 1) ∧
      (∀ v, (pqBus s b).edge = some v → boundary s (utcIdx s (waveT s + pTick) 10) 10 ≤ v.endT →
        (pqBus t b).edge.map (fun z => (z.endT, z.freqSum, z.freqN)) = some (v.endT, v.freqSum + f, v.freqN + 1)) ∧
      (∀ c, c ≠ b.val → pqBus t c = pqBus s c) ∧ t = { s with pq := t.pq, free := t.free } ∧
      t.pq.results = s.pq.results ∧ t.pq.accs = s.pq.accs := by
  have hexec : exec (.frequencyIntervalEnd b) s = execFrequencyIntervalEnd b s := rfl
  rw [Gives, hexec, execFrequencyIntervalEnd]
  generalize utcIdx s (waveT s + pTick) 10 = idx at hdue hf ⊢
  generalize boundary s idx 10 = endT at hf ⊢
  have hb : (b : Nat) < s.pq.buses.length := b.isLt.trans_eq h2.symm
  obtain ⟨hfreq, hend, hsums, hedge⟩ := closeTen_bus (endT := endT) (extra := 0) hb hf
  let u := s.closeTen b (placeOf s endT) endT 0
  have hbu : (b : Nat) < u.pq.buses.length := hb.trans_eq (onBus_count ..).symm
  let t := (u.onBus b fun r => { r with idx10 := idx }).drew 2
  have hbus : pqBus t b = { pqBus u b with idx10 := idx } := onBus_bus (s := u) hbu _
  have hothers (c : Nat) (hc : c ≠ b.val) : pqBus t c = pqBus s c := (onBus_bus_ne hc u _).trans (onBus_bus_ne hc s _)
  refine ⟨t, if_neg (by simp [hr, hwave, hdue]), ?_⟩
  rw [hbus]
  exact ⟨hfreq, hend, rfl, hsums, hedge, hothers, rfl, rfl, rfl⟩

/-! ### A 3 s supraharmonic aggregate closes (R217) -/

variable {e : Nat × Nat × Nat × Bool}

theorem supraClose_of_reached (h : e.2.1 ≤ s.pq.blockT) : s.supraClose e = s.closeSupra e := if_pos h

theorem supraClose_of_ahead (h : s.pq.blockT < e.2.1) :
    s.supraClose e = s.onPq fun q => { q with supraDue := q.supraDue ++ [e] } :=
  if_neg (Nat.not_le.2 h)

theorem execSupra3sEnd_brings (hr : s.pq.running = true) (hdue : s.pq.idx3s < utcIdx s s.now 3) (hagg : s.pq.agg = true) :
    Gives .supra3sEnd s fun t =>
      t.pq.idx3s = utcIdx s s.now 3 ∧ t = { s with pq := t.pq } ∧
      (boundary s (utcIdx s s.now 3) 3 ≤ s.pq.blockT → (∀ a ∈ t.pq.accs, ¬(a.kind = 3 ∧ a.level = 1)) ∧
        ∀ a, s.pq.accs.filter (fun x => x.level == 1 && x.kind == 3) = [a] →
          pqResult t 3 1 a.chan = some (accResult s [a] (boundary s (utcIdx s s.now 3) 3) (unlockedBit s) a)) ∧
      (s.pq.blockT < boundary s (utcIdx s s.now 3) 3 → t.pq.accs = s.pq.accs ∧
        t.pq.supraDue = s.pq.supraDue ++ [(1, boundary s (utcIdx s s.now 3) 3, unlockedBit s, false)]) := by
  have hexec : exec .supra3sEnd s = execSupra3sEnd s := rfl
  rw [Gives, hexec, execSupra3sEnd]
  generalize utcIdx s s.now 3 = idx at hdue ⊢
  generalize boundary s idx 3 = endT
  let s1 := s.onPq fun q => { q with idx3s := idx }
  refine ⟨s1.supraClose (1, endT, unlockedBit s, false), ?_, ?_⟩
  · dsimp only
    rw [if_neg (by simp [hr, hdue]), if_neg (by simp [hagg])]
  · by_cases hle : endT ≤ s.pq.blockT
    · rw [supraClose_of_reached (s := s1) hle]
      refine ⟨rfl, rfl, fun _ => ⟨fun a ha hk => ?_, fun a hone => ?_⟩, fun hlt => absurd hle (Nat.not_le.2 hlt)⟩
      · exact (mem_closeAccs (s := s1) (level := 1) ha fun h => nomatch h).2 ⟨hk.2, beq_iff_eq.2 hk.1⟩
      · have hk : a.kind = 3 := by
          have ha : a ∈ s.pq.accs.filter fun x => x.level == 1 && x.kind == 3 := by rw [hone]; exact List.mem_singleton_self a
          exact beq_iff_eq.1 (Bool.and_eq_true_iff.1 (List.mem_filter.1 ha).2).2
        have hres := closeAccs_result_of_one (s := s1) (endT := endT) (extra := unlockedBit s) hone (by omega)
        rw [hk] at hres
        exact hres
    · rw [supraClose_of_ahead (s := s1) (Nat.lt_of_not_le hle)]
      exact ⟨rfl, rfl, fun h => absurd h hle, fun _ => ⟨rfl, rfl⟩⟩

theorem execSupra3sEnd_of_early (h : utcIdx s s.now 3 ≤ s.pq.idx3s) : exec .supra3sEnd s = .next s := by
  have hexec : exec .supra3sEnd s = execSupra3sEnd s := rfl
  rw [hexec, execSupra3sEnd]
  exact if_pos (by simp [h])

/-- Settles O37: each end first brings its bus up to date, and then closes the sums of one level, or one bus's interval, alone. -/
theorem windowsAndAggregates : Obligations.WindowsAndAggregates := fun _ =>
  ⟨fun _ _ _ => execPqWindowEnd_brings, fun _ _ _ => execPqAggregateEnd_brings, fun _ _ => execFrequencyIntervalEnd_brings,
    execSupra3sEnd_brings, execSupra3sEnd_of_early⟩

end Sys2Proof.Machine
end

section
/-! THEOREMS. 10-minute and 2-hour boundaries of UTC end their intervals, and an archive record goes to its place (R204, R207, R208,
R218, R223, R227; O38). -/

namespace Sys2Proof.Machine

variable {s t v z old : State} {b k st edgeT : Nat} {place : Rat} {restart : Bool} {e : PqEdge}

/-! ### The 10-minute interval of a bus closes (R207) -/

/-- Its sums of level 2, those of the bus's own values among them, go. -/
theorem formEdge_closes (hb : b < s.pq.buses.length) (hagg : s.pq.agg = true) :
    (pqBus (s.formEdge b e) b).edge = none ∧ ∀ a ∈ (s.formEdge b e).pq.accs, ¬(a.level = 2 ∧ a.kind = 4 ∧ a.chan = b) := by
  unfold State.formEdge
  extract_lets s0 s1 s2 s3
  rw [if_neg (by simp [hagg])]
  have h2 : s2.pq.buses = s1.pq.buses ∧ ∀ a ∈ s2.pq.accs, a.level = 2 → a ∈ s1.pq.accs := by
    unfold s2
    split
    · exact ⟨rfl, fun a ha hl => (mem_closeAccs ha fun _ => by omega).1⟩
    · exact ⟨rfl, fun _ ha _ => ha⟩
  have h3 : s3.pq.buses = s2.pq.buses ∧ ∀ a ∈ s3.pq.accs, a.level = 2 → a ∈ s2.pq.accs := by
    unfold s3
    split
    · exact ⟨rfl, fun _ ha _ => (List.mem_filter.1 ha).1⟩
    · exact ⟨rfl, fun _ ha _ => ha⟩
  constructor
  · have hbus : pqBus s3 b = { pqBus s b with edge := none } := (pqBus_congr (h3.1.trans h2.1) b).trans (onBus_bus hb _)
    exact congrArg PqBus.edge hbus
  · rintro a ha ⟨hl, hk, hc⟩
    have h1 : a ∈ s1.pq.accs := h2.2 a (h3.2 a ha hl) hl
    exact (mem_closeAccs h1 fun _ => by omega).2 ⟨hl, by simp [accOfBus, hk, hc]⟩

theorem closeEdge_closes (hb : b < s.pq.buses.length) (hagg : s.pq.agg = true) (he : (pqBus s b).edge = some e) :
    (pqBus (s.closeEdge b) b).edge = none ∧ ∀ a ∈ (s.closeEdge b).pq.accs, ¬(a.level = 2 ∧ a.kind = 4 ∧ a.chan = b) := by
  have hpq : (s.closeEdge b).pq = ((s.onPr fun q => { q with applied := e.pars.getD q.applied }).formEdge b e).pq := by
    rw [State.closeEdge, he]
    exact under_pq ..
  rw [pqBus_congr (congrArg Pq.buses hpq), hpq]
  exact formEdge_closes hb hagg

/-- A 10 s interval that ends leaves an interval that waits waiting. -/
theorem tenAt_edge (he : (pqBus s b).edge = some e) : ∃ e', (pqBus (s.tenAt b edgeT) b).edge = some e' := by
  by_cases hb : b < s.pq.buses.length
  · unfold State.tenAt
    split
    · have hu : b < (s.closeTen b (placeOf s edgeT) edgeT 0).pq.buses.length := hb.trans_eq (onBus_count ..).symm
      rw [onBus_bus hu, State.closeTen, onBus_bus hb]
      simp only [he]
      split
      · exact ⟨_, rfl⟩
      · split
        · exact ⟨_, rfl⟩
        · exact ⟨_, rfl⟩
    · exact ⟨e, he⟩
  · have hr : (pqBus s b).edge = none := by
      rw [pqBus, List.getD_eq_default _ _ (Nat.le_of_not_lt hb)]
      rfl
    rw [he] at hr
    cases hr

/-- Where no window straddles it and the 200 ms intervals reach it, the interval closes at once. -/
theorem edgeReady_closes (hb : b < s.pq.buses.length) (hagg : s.pq.agg = true) (he : (pqBus s b).edge = some e)
    (ho : (pqBus s b).old = none) (hreach : e.endT ≤ s.pq.blockT ∨ s.pq.running = false) :
    (pqBus (s.edgeReady b) b).edge = none ∧ ∀ a ∈ (s.edgeReady b).pq.accs, ¬(a.level = 2 ∧ a.kind = 4 ∧ a.chan = b) := by
  have hready : s.edgeReady b = (s.tenAt b e.endT).closeEdge b := by
    unfold State.edgeReady
    dsimp only
    rw [he, ho]
    exact if_pos (by simpa using hreach)
  have hten := tenAt_edgeCloses he
  obtain ⟨e', he'⟩ := tenAt_edge (edgeT := e.endT) he
  rw [hready]
  exact closeEdge_closes (hten.count.symm ▸ hb) (hten.agg.trans hagg) he'

/-- While a window straddles it, the interval waits. -/
theorem edgeReady_of_old {w : PqWin} (ho : (pqBus s b).old = some w) : s.edgeReady b = s := by
  unfold State.edgeReady
  dsimp only
  rw [ho]
  exact if_neg (by simp)

/-! ### A bus at a 10-minute boundary (R207) -/

/-- The bus `r` before the boundary turns into `u`: the ended interval waits, the next has no events and no frequencies, and a window
that straddles the boundary makes way for one that begins there. -/
structure PqBus.TurnsInto (r u : PqBus) (edgeT : Nat) (place : Rat) : Prop where
  events : u.events = 0
  freqN : u.freqN = 0
  freqSum : u.freqSum = 0
  edge : u.edge.map (·.endT) = some edgeT
  straddled : ∀ w, r.win = some w → w.start < place →
    (∃ a, u.old = some { w with pars := a }) ∧ u.win = some ⟨place, r.f1, 0, none⟩
  clear : (∀ w, r.win = some w → place ≤ w.start) → u.old = r.old

theorem tenMinuteBus_eq (old : State) (st : Nat) (restart : Bool) (s : State) (b : Nat) :
    ∃ f : PqBus → PqBus,
      (∀ r, (f r).pst = r.pst ∧ (f r).pstHist = r.pstHist) ∧
      (s.pq.agg = true → ∀ r : PqBus, r.TurnsInto (f r) (boundary s (utcIdx s s.now 600) 600)
        (placeOf s (boundary s (utcIdx s s.now 600) 600))) ∧
      State.tenMinuteBus old st restart s b = (s.onBus b f).edgeReady b := by
  refine ⟨_, fun r => ?_, fun hagg r => ?_, rfl⟩
  · cases r.win with
    | none => exact ⟨(apply_ite PqBus.pst ..).trans (ite_self _), (apply_ite PqBus.pstHist ..).trans (ite_self _)⟩
    | some w =>
      constructor
      · simp only [apply_ite PqBus.pst, ite_self]
      · simp only [apply_ite PqBus.pstHist, ite_self]
  · simp only [hagg, if_true]
    split
    next w hw =>
      split
      next hlt =>
        refine ⟨rfl, rfl, rfl, rfl, fun w' hw' _ => ?_, fun h => absurd hlt (Rat.not_lt.2 (h w hw))⟩
        obtain rfl := Option.some.inj (hw.symm.trans hw')
        exact ⟨⟨_, rfl⟩, rfl⟩
      next hge =>
        refine ⟨rfl, rfl, rfl, rfl, fun w' hw' hlt => ?_, fun _ => rfl⟩
        obtain rfl := Option.some.inj (hw.symm.trans hw')
        exact absurd hlt hge
    next hw =>
      refine ⟨rfl, rfl, rfl, rfl, fun w' hw' _ => ?_, fun _ => rfl⟩
      rw [hw] at hw'
      cases hw'

/-- What a 10-minute boundary leaves of a bus `r` in a state: its intervals are new, the Pst values stay, and the ended interval waits
for the window that straddles the boundary or, where it need not wait, is closed. -/
def TurnedBus (b : Nat) (r : PqBus) (edgeT : Nat) (place : Rat) (reached : Prop) (t : State) : Prop :=
  (pqBus t b).events = 0 ∧ (pqBus t b).freqN = 0 ∧ (pqBus t b).freqSum = 0 ∧
  (pqBus t b).pst = r.pst ∧ (pqBus t b).pstHist = r.pstHist ∧
  (∀ w, r.win = some w → w.start < place →
    (pqBus t b).edge.map (·.endT) = some edgeT ∧ (∃ a, (pqBus t b).old = some { w with pars := a }) ∧
    (pqBus t b).win = some ⟨place, r.f1, 0, none⟩) ∧
  ((∀ w, r.win = some w → place ≤ w.start) → r.old = none → reached →
    (pqBus t b).edge = none ∧ ∀ a ∈ t.pq.accs, ¬(a.level = 2 ∧ a.kind = 4 ∧ a.chan = b))

/-- It stays so where the bus stays and no sum of level 2 comes. -/
theorem TurnedBus.of_bus {r : PqBus} {reached : Prop} (h : TurnedBus b r edgeT place reached s) (hbus : pqBus t b = pqBus s b)
    (haccs : ∀ a ∈ t.pq.accs, a.level = 2 → a ∈ s.pq.accs) : TurnedBus b r edgeT place reached t := by
  unfold TurnedBus at h ⊢
  rw [hbus]
  obtain ⟨hev, hn, hsum, hpst, hhist, hold, hnone⟩ := h
  refine ⟨hev, hn, hsum, hpst, hhist, hold, fun hw ho hr => ?_⟩
  obtain ⟨hedge, hclosed⟩ := hnone hw ho hr
  exact ⟨hedge, fun a ha hk => hclosed a (haccs a ha hk.1) hk⟩

theorem tenMinuteBus_turned (hb : b < s.pq.buses.length) (hagg : s.pq.agg = true)
    (he : boundary s (utcIdx s s.now 600) 600 = edgeT) (hp : placeOf s edgeT = place) :
    TurnedBus b (pqBus s b) edgeT place (edgeT ≤ s.pq.blockT ∨ s.pq.running = false) (State.tenMinuteBus old st restart s b) := by
  subst he hp
  obtain ⟨f, hpst, hturns, heq⟩ := tenMinuteBus_eq old st restart s b
  have hf := hturns hagg (pqBus s b)
  have hready := edgeReady_edgeCloses (s.onBus b f) b
  have hbus : pqBus (s.onBus b f) b = f (pqBus s b) := onBus_bus hb f
  rw [heq]
  have hown := hready.own
  rw [hbus] at hown
  have hfields := congrArg (fun r : PqBus => (r.events, r.freqN, r.freqSum, r.pst, r.pstHist)) hown
  simp only [PqBus.tenFrom, Prod.mk.injEq] at hfields
  obtain ⟨hev, hn, hsum, hp, hh⟩ := hfields
  refine ⟨hev.trans hf.events, hn.trans hf.freqN, hsum.trans hf.freqSum, hp.trans (hpst _).1, hh.trans (hpst _).2,
    fun w hw hlt => ?_, fun hw ho hr => ?_⟩
  · obtain ⟨⟨a, ho⟩, hwin⟩ := hf.straddled w hw hlt
    rw [edgeReady_of_old (hbus ▸ ho), hbus]
    exact ⟨hf.edge, ⟨a, ho⟩, hwin⟩
  · obtain ⟨e, he, hend⟩ := Option.map_eq_some_iff.1 hf.edge
    refine edgeReady_closes (e := e) (hb.trans_eq (onBus_count ..).symm) hagg (by rw [hbus, he]) ?_ (by rw [hend]; exact hr)
    rw [hbus, hf.clear hw, ho]

/-! ### What the turn of one bus leaves (R207) -/

theorem tenMinuteBus_others (hk : k ≠ b) : pqBus (State.tenMinuteBus old st restart s b) k = pqBus s k := by
  obtain ⟨f, -, -, heq⟩ := tenMinuteBus_eq old st restart s b
  rw [heq, (edgeReady_edgeCloses _ b).others k hk]
  exact onBus_bus_ne hk s f

theorem tenMinuteBus_tens : ∀ a ∈ (State.tenMinuteBus old st restart s b).pq.accs, a.level = 2 → a ∈ s.pq.accs := by
  obtain ⟨f, -, -, heq⟩ := tenMinuteBus_eq old st restart s b
  rw [heq]
  exact (edgeReady_edgeCloses (s.onBus b f) b).tens

/-- The numbers of the intervals, where the 200 ms intervals have come to, and whether power quality runs and aggregates stay. -/
structure KeepsIntervals (z t : State) : Prop where
  idx10m : t.pq.idx10m = z.pq.idx10m
  idx2h : t.pq.idx2h = z.pq.idx2h
  agg : t.pq.agg = z.pq.agg
  running : t.pq.running = z.pq.running
  blockT : t.pq.blockT = z.pq.blockT

theorem KeepsIntervals.trans (h : KeepsIntervals z s) (g : KeepsIntervals s t) : KeepsIntervals z t :=
  ⟨g.idx10m.trans h.idx10m, g.idx2h.trans h.idx2h, g.agg.trans h.agg, g.running.trans h.running, g.blockT.trans h.blockT⟩

theorem EdgeCloses.keepsIntervals (h : EdgeCloses b z t) : KeepsIntervals z t :=
  ⟨(congrArg Pq.idx10m h.pq :), (congrArg Pq.idx2h h.pq :), h.agg, (congrArg Pq.running h.pq :), (congrArg Pq.blockT h.pq :)⟩

theorem tenMinuteBus_keepsIntervals : KeepsIntervals s (State.tenMinuteBus old st restart s b) := by
  obtain ⟨f, -, -, heq⟩ := tenMinuteBus_eq old st restart s b
  have hf : KeepsIntervals s (s.onBus b f) := ⟨rfl, rfl, rfl, rfl, rfl⟩
  rw [heq]
  exact hf.trans (edgeReady_edgeCloses (s.onBus b f) b).keepsIntervals

theorem tenMinuteBus_engine : Engine s (State.tenMinuteBus old st restart s b) := by
  obtain ⟨f, -, -, heq⟩ := tenMinuteBus_eq old st restart s b
  rw [heq]
  exact edgeReady_engine (Engine.refl s).onBus

theorem tenMinuteBus_pst (k : Nat) : (pqBus (State.tenMinuteBus old st restart s b) k).pst = (pqBus s k).pst := by
  obtain ⟨f, hpst, -, heq⟩ := tenMinuteBus_eq old st restart s b
  have hready := edgeReady_edgeCloses (s.onBus b f) b
  have hf : (pqBus (s.onBus b f) k).pst = (pqBus s k).pst := onBus_keeps (g := PqBus.pst) (hpst _).1 k
  rw [heq, ← hf]
  by_cases hk : k = b
  · rw [hk]
    exact (congrArg PqBus.pst hready.own :)
  · rw [hready.others k hk]

theorem tenMinuteBus_still (hagg : s.pq.agg = false) : (State.tenMinuteBus old st restart s b).pq.accs = s.pq.accs := by
  obtain ⟨f, -, -, heq⟩ := tenMinuteBus_eq old st restart s b
  rw [heq]
  exact (edgeReady_edgeCloses (s.onBus b f) b).still hagg

/-! ### A 10-minute boundary (R204, R207, R208, R227) -/

/-- Members scheduled for 10-minute boundaries. -/
def atTenMinutes (id : Nat) : Bool := effOf id == .tenMin

/-- They come into use, and the number of the 10-minute interval moves on. -/
def State.turnMembers (s : State) : State :=
  (s.takeScheduled atTenMinutes).onPq fun q =>
    { q with idx10m := utcIdx s s.now 600,
             oldPars := if s.pr.scheduled.any (fun e => atTenMinutes e.1) then some (boundary s (utcIdx s s.now 600) 600, s.pr.applied)
               else q.oldPars }

/-- Then the two buses turn, bus A first. -/
def turnBuses (old : State) (st : Nat) (restart : Bool) (s : State) : State :=
  State.tenMinuteBus old st restart (State.tenMinuteBus old st restart s 0) 1

variable {e : Nat × Nat × Nat × Bool} {p : State}

theorem tenMinute_of_agg (h : s.pq.idx10m < utcIdx s s.now 600) (hagg : s.pq.agg = true) :
    ∃ st restart e, s.tenMinute.pr = (turnBuses s st restart (s.turnMembers.supraClose e)).pr ∧
      s.tenMinute.pq = { (turnBuses s st restart (s.turnMembers.supraClose e)).pq with mark10m := 0, tenClk := s.clk } := by
  unfold State.tenMinute
  extract_lets idx restart s1 endT st s2 s3
  rw [if_neg (Int.not_le.2 h), if_neg (by simp [hagg])]
  have h2 : s2 = s.turnMembers.supraClose (2, endT, st, restart && idx % 12 != 0) := rfl
  have h3 : s3 = turnBuses s st restart s2 := rfl
  refine ⟨st, restart, (2, endT, st, restart && idx % 12 != 0), ?_⟩
  rw [← h2, ← h3]
  clear_value s3
  exact ⟨rfl, rfl⟩

theorem tenMinute_of_rest (h : s.pq.idx10m < utcIdx s s.now 600) (hagg : s.pq.agg = false) :
    ∃ restart, s.tenMinute = turnBuses s 0 restart s.turnMembers := by
  unfold State.tenMinute
  extract_lets idx restart s1 endT st s2 s3
  rw [if_neg (Int.not_le.2 h), if_pos (by simp [hagg])]
  exact ⟨restart, rfl⟩

theorem tenMinute_of_early (h : utcIdx s s.now 600 ≤ s.pq.idx10m) : s.tenMinute = s := if_pos h

theorem supraClose_keepsIntervals : KeepsIntervals s (s.supraClose e) ∧ (s.supraClose e).pq.buses = s.pq.buses := by
  unfold State.supraClose State.closeSupra
  extract_lets s1
  split
  · split
    · exact ⟨⟨rfl, rfl, rfl, rfl, rfl⟩, rfl⟩
    · exact ⟨⟨rfl, rfl, rfl, rfl, rfl⟩, rfl⟩
  · exact ⟨⟨rfl, rfl, rfl, rfl, rfl⟩, rfl⟩

theorem supraClose_pr : (s.supraClose e).pr = s.pr := (supraClose_ch (.refl [.pq] s) rfl).pr rfl

theorem turnBuses_keepsIntervals : KeepsIntervals s (turnBuses old st restart s) :=
  tenMinuteBus_keepsIntervals.trans tenMinuteBus_keepsIntervals

theorem turnBuses_engine : Engine s (turnBuses old st restart s) := tenMinuteBus_engine.trans tenMinuteBus_engine

/-- Instants and places are those of the clock, the stream and the parameters. -/
theorem edge_of_frame (h : Changes [.pr, .pq, .free] p s) (hpr : s.pr = p.pr) :
    let edgeT := boundary p (utcIdx p p.now 600) 600
    boundary s (utcIdx s s.now 600) 600 = edgeT ∧ placeOf s edgeT = placeOf p edgeT := by
  rw [show s = { p with pq := s.pq, free := s.free } from (h.of_same hpr).eq_pick]
  exact ⟨rfl, rfl⟩

/-- Where Canopy aggregates, each bus turns at the boundary. -/
theorem turnBuses_turned (h2 : s.pq.buses.length = 2) (hagg : s.pq.agg = true) (h : Changes [.pr, .pq, .free] p s)
    (hpr : s.pr = p.pr) (hk : k < 2) :
    let edgeT := boundary p (utcIdx p p.now 600) 600
    TurnedBus k (pqBus s k) edgeT (placeOf p edgeT) (edgeT ≤ s.pq.blockT ∨ s.pq.running = false) (turnBuses old st restart s) := by
  intro edgeT
  obtain ⟨hs, hsp⟩ := edge_of_frame h hpr
  obtain rfl | rfl : k = 0 ∨ k = 1 := by omega
  · have h0 := tenMinuteBus_turned (b := 0) (old := old) (st := st) (restart := restart) (by omega) hagg hs hsp
    exact h0.of_bus (tenMinuteBus_others (by decide)) tenMinuteBus_tens
  · have hst : KeepsIntervals s (State.tenMinuteBus old st restart s 0) := tenMinuteBus_keepsIntervals
    have hbus : pqBus (State.tenMinuteBus old st restart s 0) 1 = pqBus s 1 := tenMinuteBus_others (by decide)
    have hx : Engine s (State.tenMinuteBus old st restart s 0) := tenMinuteBus_engine
    obtain ⟨hxs, hxp⟩ := edge_of_frame (tenMinuteBus_ch (b := 0) (old := old) (st := st) (restart := restart) h rfl)
      (hx.pr.trans hpr)
    have h1 := tenMinuteBus_turned (b := 1) (old := old) (st := st) (restart := restart) (by rw [hx.count]; omega)
      (hst.agg.trans hagg) hxs hxp
    rw [hbus, hst.blockT, hst.running] at h1
    exact h1

theorem execTenMinuteBoundary_turns (hagg : s.pq.agg = true) (h2 : s.pq.buses.length = 2)
    (hdue : s.pq.idx10m < utcIdx s s.now 600) :
    let p := s.takeScheduled atTenMinutes
    let edgeT := boundary p (utcIdx p p.now 600) 600
    Gives .tenMinuteBoundary s fun t =>
      (∀ k < 2, TurnedBus k (pqBus s k) edgeT (placeOf p edgeT) (edgeT ≤ s.pq.blockT ∨ s.pq.running = false) t) ∧
      t.pq.idx10m = utcIdx s s.now 600 ∧ t.pq.mark10m = 0 ∧ t.pq.tenClk = s.clk ∧
      t = { s with pr := p.pr, pq := t.pq, free := t.free } := by
  intro p edgeT
  obtain ⟨st, restart, e, hpr, hpq⟩ := tenMinute_of_agg hdue hagg
  have hexec : exec .tenMinuteBoundary s = .next s.tenMinute := rfl
  have hch : Changes [.pr, .pq, .free] s s.tenMinute := tenMinute_ch (.refl _ s) rfl
  have hu : Changes [.pr, .pq, .free] p (s.turnMembers.supraClose e) := supraClose_ch (onPq_ch (.refl _ p) rfl) rfl
  have hupr : (s.turnMembers.supraClose e).pr = p.pr := supraClose_pr
  obtain ⟨hust, hubus⟩ := supraClose_keepsIntervals (s := s.turnMembers) (e := e)
  generalize s.turnMembers.supraClose e = u at hpr hpq hu hupr hust hubus
  have hbus (k : Nat) : pqBus u k = pqBus s k := pqBus_congr hubus k
  have hturn (k : Nat) (hk : k < 2) := turnBuses_turned (old := s) (st := st) (restart := restart)
    ((congrArg List.length hubus).trans h2) (hust.agg.trans hagg) hu hupr hk
  have hturned : (turnBuses s st restart u).pr = u.pr := turnBuses_engine.pr
  have hwst : KeepsIntervals u (turnBuses s st restart u) := turnBuses_keepsIntervals
  generalize turnBuses s st restart u = w at hpr hpq hturn hturned hwst
  refine ⟨s.tenMinute, hexec, fun k hk => ?_, ?_, ?_, ?_, ?_⟩
  · have hk := hturn k hk
    rw [hbus, hust.blockT, hust.running] at hk
    exact hk.of_bus (pqBus_congr (by rw [hpq]) k) fun a ha _ => by rwa [hpq] at ha
  · exact (congrArg Pq.idx10m hpq).trans (hwst.idx10m.trans hust.idx10m)
  · rw [hpq]
  · rw [hpq]
  · rw [← hupr, ← hturned, ← hpr]
    exact hch.eq_pick

theorem execTenMinuteBoundary_rests (hagg : s.pq.agg = false) (hdue : s.pq.idx10m < utcIdx s s.now 600) :
    Gives .tenMinuteBoundary s fun t =>
      t.pq.idx10m = utcIdx s s.now 600 ∧ (∀ k < 2, (pqBus t k).pst = (pqBus s k).pst) ∧ t.pq.accs = s.pq.accs ∧
      t = { s with pr := (s.takeScheduled atTenMinutes).pr, pq := t.pq, free := t.free } := by
  obtain ⟨restart, heq⟩ := tenMinute_of_rest hdue hagg
  have hexec : exec .tenMinuteBoundary s = .next s.tenMinute := rfl
  let u := s.turnMembers
  have hch : Changes [.pr, .pq, .free] s s.tenMinute := tenMinute_ch (.refl _ s) rfl
  have hpr : s.tenMinute.pr = (s.takeScheduled atTenMinutes).pr := by
    rw [heq]
    exact turnBuses_engine.pr
  refine ⟨s.tenMinute, hexec, ?_, fun k _ => ?_, ?_, ?_⟩
  · rw [heq]
    exact turnBuses_keepsIntervals.idx10m
  · rw [heq]
    exact (tenMinuteBus_pst k).trans (tenMinuteBus_pst k)
  · have hagg0 : (State.tenMinuteBus s 0 restart u 0).pq.agg = false := tenMinuteBus_keepsIntervals.agg.trans hagg
    rw [heq]
    exact (tenMinuteBus_still hagg0).trans (tenMinuteBus_still hagg)
  · rw [← hpr]
    exact hch.eq_pick

theorem execTenMinuteBoundary_of_early (h : utcIdx s s.now 600 ≤ s.pq.idx10m) : exec .tenMinuteBoundary s = .next s :=
  congrArg Host.Outcome.next (tenMinute_of_early h)

/-! ### A 2-hour boundary (R204, R207, R208) -/

/-- Members come into use with the 10-minute boundary, or came into use before. -/
theorem tenMinute_pr : s.tenMinute.pr = s.pr ∨ s.tenMinute.pr = (s.takeScheduled atTenMinutes).pr := by
  by_cases hdue : s.pq.idx10m < utcIdx s s.now 600
  · right
    cases hagg : s.pq.agg with
    | true =>
      obtain ⟨st, restart, e, hpr, -⟩ := tenMinute_of_agg hdue hagg
      exact hpr.trans (turnBuses_engine.pr.trans supraClose_pr)
    | false =>
      obtain ⟨restart, heq⟩ := tenMinute_of_rest hdue hagg
      rw [heq]
      exact turnBuses_engine.pr
  · rw [tenMinute_of_early (Int.not_lt.1 hdue)]
    exact .inl rfl

/-- The 200 ms interval in progress goes on. -/
theorem tenMinute_blockT : s.tenMinute.pq.blockT = s.pq.blockT := by
  by_cases hdue : s.pq.idx10m < utcIdx s s.now 600
  · cases hagg : s.pq.agg with
    | true =>
      obtain ⟨st, restart, e, -, hpq⟩ := tenMinute_of_agg hdue hagg
      exact (congrArg Pq.blockT hpq).trans (turnBuses_keepsIntervals.blockT.trans supraClose_keepsIntervals.1.blockT)
    | false =>
      obtain ⟨restart, heq⟩ := tenMinute_of_rest hdue hagg
      rw [heq]
      exact turnBuses_keepsIntervals.blockT
  · rw [tenMinute_of_early (Int.not_lt.1 hdue)]

theorem tenMinute_still (hagg : s.pq.agg = false) : s.tenMinute.pq.accs = s.pq.accs := by
  by_cases hdue : s.pq.idx10m < utcIdx s s.now 600
  · obtain ⟨t, ht, -, -, haccs, -⟩ := execTenMinuteBoundary_rests hagg hdue
    obtain rfl : s.tenMinute = t := Host.Outcome.next.inj ht
    exact haccs
  · rw [tenMinute_of_early (Int.not_lt.1 hdue)]

/-- A bus at a 2-hour boundary: its sums close, or the 10-minute interval that waits takes them along. -/
def twoHourBus (endT st : Nat) (x : State) (b : Nat) : State :=
  if (pqBus x b).edge.isSome then x.onBus b fun r => { r with edge := r.edge.map (fun e => { e with two := some st }) }
  else x.closeAccs 3 endT st (accOfBus x b)

theorem twoHourBus_accs {endT : Nat} : ∀ a ∈ (twoHourBus endT st s b).pq.accs, a ∈ s.pq.accs := by
  intro a ha
  unfold twoHourBus at ha
  split at ha
  · exact ha
  · exact (mem_closeAccs (level := 3) ha fun h => nomatch h).1

theorem twoHourBus_keeps {endT : Nat} :
    (twoHourBus endT st s b).pq.idx2h = s.pq.idx2h ∧ (twoHourBus endT st s b).pr = s.pr := by
  unfold twoHourBus
  split
  · exact ⟨rfl, rfl⟩
  · exact ⟨rfl, rfl⟩

theorem twoHourBus_ch {q : List Part} {endT : Nat} (H : Changes q z s) (hq : within [.pq] q = true) :
    Changes q z (twoHourBus endT st s b) := by
  unfold twoHourBus
  split
  · exact onBus_ch H hq
  · exact closeAccs_ch H hq

/-- The sums of the supraharmonics close, and the two buses follow, bus A first. -/
def twoHours (endT st : Nat) (s : State) : State :=
  (twoHourBus endT st (twoHourBus endT st (s.supraClose (3, endT, st, false)) 0) 1).onPq fun q => { q with mark2h := 0 }

theorem twoHours_brings {endT : Nat} (s : State) (st : Nat) :
    (twoHours endT st s).pq.idx2h = s.pq.idx2h ∧ (twoHours endT st s).pr = s.pr ∧
      (endT ≤ s.pq.blockT → ∀ a ∈ (twoHours endT st s).pq.accs, ¬(a.kind = 3 ∧ a.level = 3)) := by
  have hidx : (s.supraClose (3, endT, st, false)).pq.idx2h = s.pq.idx2h := supraClose_keepsIntervals.1.idx2h
  have hpr : (s.supraClose (3, endT, st, false)).pr = s.pr := supraClose_pr
  have hclosed (hle : endT ≤ s.pq.blockT) :
      ∀ a ∈ (s.supraClose (3, endT, st, false)).pq.accs, ¬(a.kind = 3 ∧ a.level = 3) := by
    rw [supraClose_of_reached hle]
    rintro a ha ⟨hk, hl⟩
    exact (mem_closeAccs (level := 3) ha fun h => nomatch h).2 ⟨hl, beq_iff_eq.2 hk⟩
  unfold twoHours
  generalize s.supraClose (3, endT, st, false) = u at hidx hpr hclosed
  obtain ⟨hidx0, hpr0⟩ := twoHourBus_keeps (s := u) (b := 0) (st := st) (endT := endT)
  have haccs0 := twoHourBus_accs (s := u) (b := 0) (st := st) (endT := endT)
  generalize twoHourBus endT st u 0 = u0 at hidx0 hpr0 haccs0
  obtain ⟨hidx1, hpr1⟩ := twoHourBus_keeps (s := u0) (b := 1) (st := st) (endT := endT)
  exact ⟨hidx1.trans (hidx0.trans hidx), hpr1.trans (hpr0.trans hpr),
    fun hle a ha => hclosed hle a (haccs0 a (twoHourBus_accs a ha))⟩

theorem twoHours_ch {q : List Part} {endT : Nat} (H : Changes q z s) (hq : within [.pq] q = true) :
    Changes q z (twoHours endT st s) :=
  onPq_ch (twoHourBus_ch (twoHourBus_ch (supraClose_ch H hq) hq) hq) hq

theorem execTwoHourBoundary_turns (hagg : s.pq.agg = true) (hdue : s.pq.idx2h < utcIdx s s.now 7200) :
    Gives .twoHourBoundary s fun t =>
      t.pq.idx2h = utcIdx s s.now 7200 ∧ t.pq.mark2h = 0 ∧
      (boundary s (utcIdx s s.now 7200) 7200 ≤ s.pq.blockT → ∀ a ∈ t.pq.accs, ¬(a.kind = 3 ∧ a.level = 3)) ∧
      t = { s with pr := t.pr, pq := t.pq, free := t.free } ∧
      (t.pr = s.pr ∨ t.pr = (s.takeScheduled atTenMinutes).pr) := by
  have hexec : exec .twoHourBoundary s = execTwoHourBoundary s := rfl
  rw [Gives, hexec, execTwoHourBoundary]
  have hpr := tenMinute_pr (s := s)
  have hblock := tenMinute_blockT (s := s)
  have hch : Changes [.pr, .pq, .free] s s.tenMinute := tenMinute_ch (.refl _ s) rfl
  generalize s.tenMinute = m at hpr hblock hch
  generalize utcIdx s s.now 7200 = idx at hdue
  generalize boundary s idx 7200 = endT
  generalize orStatus s.pq.mark2h (unlockedBit s) = st
  let s0 := m.onPq fun q => { q with idx2h := idx }
  obtain ⟨hidx, htpr, hclosed⟩ := twoHours_brings (endT := endT) s0 st
  refine ⟨twoHours endT st s0, ?_, hidx, rfl, fun hle => hclosed (hle.trans_eq hblock.symm), ?_, ?_⟩
  · dsimp only
    rw [if_neg (Int.not_le.2 hdue), if_neg (by simp [hagg])]
    rfl
  · exact (twoHours_ch (onPq_ch hch rfl : Changes _ s s0) rfl).eq_pick
  · rw [htpr]
    exact hpr

theorem execTwoHourBoundary_rests (hagg : s.pq.agg = false) (hdue : s.pq.idx2h < utcIdx s s.now 7200) :
    Gives .twoHourBoundary s fun t =>
      t.pq.idx2h = utcIdx s s.now 7200 ∧ t.pq.accs = s.pq.accs ∧
      t = { s with pr := t.pr, pq := t.pq, free := t.free } ∧
      (t.pr = s.pr ∨ t.pr = (s.takeScheduled atTenMinutes).pr) := by
  have hexec : exec .twoHourBoundary s = execTwoHourBoundary s := rfl
  rw [Gives, hexec, execTwoHourBoundary]
  have hch : Changes [.pr, .pq, .free] s s.tenMinute := tenMinute_ch (.refl _ s) rfl
  refine ⟨s.tenMinute.onPq fun q => { q with idx2h := utcIdx s s.now 7200 }, ?_, rfl, tenMinute_still hagg,
    (onPq_ch hch rfl).eq_pick, tenMinute_pr⟩
  dsimp only
  rw [if_neg (Int.not_le.2 hdue), if_pos (by simp [hagg])]

theorem execTwoHourBoundary_of_early (h : utcIdx s s.now 7200 ≤ s.pq.idx2h) : exec .twoHourBoundary s = .next s := by
  have hexec : exec .twoHourBoundary s = execTwoHourBoundary s := rfl
  rw [hexec, execTwoHourBoundary]
  exact if_pos h

/-! ### Records in the archive ring (R223) -/

theorem archiveAddr_bounds {k : Nat} (hk : k < 1024) : 256 ≤ archiveAddr k ∧ archiveAddr k + 128 ≤ storeSize := by
  have ha : archiveAddr k = 262144 + 128 * k := rfl
  have hs : storeSize = 524288 := rfl
  omega

theorem execArchiveWrite_brings {r : List Byte} {l : List (List Byte)} (hw : s.pq.archive = r :: l)
    (hc : s.wd.canopyRunning = true) (hlen : r.length = 128) (hpos : s.pq.archivePos < 1024)
    (hfirst : (archKey r).1 = 1 → ∀ e, (pqBus s 0).edge = some e → time80 e.endT ≠ (archKey r).2) :
    Gives .archiveWrite s fun t =>
      rdBytes t.hw.mem (archiveAddr s.pq.archivePos) 128 = r ∧ t.pq.archive = l ∧
      t.pq.archivePos = (s.pq.archivePos + 1) % 1024 ∧
      keepsBytes s t [(0, 256), (archiveAddr s.pq.archivePos, 128)] ∧ t = { s with hw := t.hw, pq := t.pq } := by
  have he : exec .archiveWrite s = execArchiveWrite s := rfl
  obtain ⟨hlo, hhi⟩ := archiveAddr_bounds hpos
  obtain ⟨hread, hkeep⟩ := wr_reads (s := s) (bs := r) hlo (by rwa [hlen])
  rw [hlen] at hread hkeep
  have hturn : ¬((archKey r).1 == 1 && (pqBus s 0).edge.any fun e => time80 e.endT == (archKey r).2) = true := by
    simp only [Bool.and_eq_true, beq_iff_eq, Option.any_eq_true]
    rintro ⟨hb, e, hedge, hend⟩
    exact hfirst hb e hedge hend
  refine ⟨(s.wr (archiveAddr s.pq.archivePos) r).onPq fun q =>
    { q with archive := l, archivePos := (q.archivePos + 1) % 1024 }, ?_, hread, rfl, ?_, hkeep, ?_⟩
  · rw [he, execArchiveWrite, hw]
    exact if_neg (by simpa [hc] using hturn)
  · rw [wr_frame]
    rfl
  · rw [wr_frame]
    rfl

/-- Settles O38: members come into use first, then bus A and bus B turn, each of them closing at once or behind the window that
straddles the boundary; a 2-hour boundary is a 10-minute boundary first. -/
theorem clockAlignedIntervalsAndArchive : Obligations.ClockAlignedIntervalsAndArchive := fun _ =>
  ⟨execTenMinuteBoundary_turns, execTenMinuteBoundary_rests, execTenMinuteBoundary_of_early, execTwoHourBoundary_turns,
    execTwoHourBoundary_rests, execTwoHourBoundary_of_early, fun _ _ => execArchiveWrite_brings⟩

end Sys2Proof.Machine
end

section
/-! LEMMAS. What committed changes of PMU members that take effect make of the phasor engine, and what they leave (R244). -/

namespace Sys2Proof.Machine

variable {z s t : State} {c a : Nat} {m : List (Nat × Nat)} {l : List (Nat × List (Nat × Nat))}

/-! ### The device record (R244) -/

@[simp] theorem storeDevice_pm (s : State) : s.storeDevice.pm = s.pm := (storeDevice_ch (.refl [.hw, .wd] s) rfl).pm rfl

@[simp] theorem storeDevice_pr (s : State) : s.storeDevice.pr = s.pr := (storeDevice_ch (.refl [.hw, .wd] s) rfl).pr rfl

/-- The bytes that storing the device record may change: the torn bitmap and the record's pages. -/
abbrev deviceArea : List (Nat × Nat) := [(0, 256), (pageAddr 0 deviceRec.2, 512)]

theorem deviceArea_pairIn : PairIn deviceArea 0 deviceRec.2 := ⟨by decide, by decide, by decide⟩

/-! ### Changes take effect -/

/-- From `z` to `t` changes of PMU members take effect: network output, the changes that still wait, the counts of commands and
whether Canopy runs stay, and of the store the device record and the torn bitmap may change. -/
structure TakesEffect (z t : State) : Prop where
  changes : t.pm.changes = z.pm.changes
  on : t.pm.on = z.pm.on
  cmdReceived : t.pm.cmdReceived = z.pm.cmdReceived
  cmdIgnored : t.pm.cmdIgnored = z.pm.cmdIgnored
  canopyRunning : t.wd.canopyRunning = z.wd.canopyRunning
  bytes : keepsBytes z t deviceArea

theorem TakesEffect.refl (s : State) : TakesEffect s s := ⟨rfl, rfl, rfl, rfl, rfl, keepsBytes_refl s _⟩

theorem TakesEffect.trans (h : TakesEffect z s) (g : TakesEffect s t) : TakesEffect z t :=
  ⟨g.changes.trans h.changes, g.on.trans h.on, g.cmdReceived.trans h.cmdReceived, g.cmdIgnored.trans h.cmdIgnored,
    g.canopyRunning.trans h.canopyRunning, keepsBytes_trans h.bytes g.bytes⟩

theorem storeDevice_takesEffect (s : State) : TakesEffect s s.storeDevice := by
  have hcanopy := (storeDevice_quiet (.refl s)).canopyRunning
  have hbytes := storeDevice_keepsBytes (s := s) deviceArea_pairIn
  refine ⟨?_, ?_, ?_, ?_, hcanopy, hbytes⟩ <;> rw [storeDevice_pm]

/-- One change is an update of the parameters and of the engine's registers, which the device record then keeps. -/
theorem pmuApply_takesEffect (s : State) (c a : Nat) (m : List (Nat × Nat)) : TakesEffect s (s.pmuApply c a m) := by
  unfold State.pmuApply
  refine .trans ?_ (storeDevice_takesEffect _)
  exact ⟨rfl, rfl, rfl, rfl, rfl, keepsBytes_of_mem rfl⟩

@[simp] theorem pmuApply_cfgCnt (s : State) (c a : Nat) (m : List (Nat × Nat)) :
    (s.pmuApply c a m).pm.cfgCnt = (s.pm.cfgCnt + 1) % 65536 := by
  rw [State.pmuApply, storeDevice_pm]
  rfl

@[simp] theorem pmuApply_pr (s : State) (c a : Nat) (m : List (Nat × Nat)) :
    (s.pmuApply c a m).pr = { s.pr with applied := assocAll s.pr.applied m } := by
  rw [State.pmuApply, storeDevice_pr]
  rfl

theorem takesEffect_foldl {α : Type} {f : State → α → State} {as : List α} (hf : ∀ x e, TakesEffect x (f x e)) :
    TakesEffect s (as.foldl f s) :=
  List.foldlRecOn (motive := TakesEffect s) as f (.refl s) fun x h e _ => h.trans (hf x e)

theorem pmuTake_takesEffect (s : State) : TakesEffect (s.onPm fun p => { p with changes := [] }) s.pmuTake :=
  takesEffect_foldl fun _ _ => pmuApply_takesEffect ..

@[simp] theorem pmuDue_canopyRunning (s : State) : s.pmuDue.wd.canopyRunning = s.wd.canopyRunning :=
  (takesEffect_foldl fun _ _ => pmuApply_takesEffect ..).canopyRunning

@[simp] theorem pmuDue_lk (s : State) : s.pmuDue.lk = s.lk := (pmuDue_ch (.refl [.hw, .pr, .wd, .pm] s) rfl).lk rfl

@[simp] theorem pmuDue_nt (s : State) : s.pmuDue.nt = s.nt := (pmuDue_ch (.refl [.hw, .pr, .wd, .pm] s) rfl).nt rfl

/-! ### The instant at which a change takes effect -/

/-- While output is on, a change waits for 60 s after its commit. -/
theorem pmuEffect_of_early (hon : s.pm.on = true) (h : s.clk < c + 60 * 128000000) : pmuEffect s c = none := by
  unfold pmuEffect
  rw [if_pos hon]
  exact if_neg (Nat.not_le.2 h)

/-- The reporting instant of a waiting change has come. -/
def changeLate (s : State) (e : Nat × List (Nat × Nat)) : Bool := (pmuEffect s e.1).any (· ≤ s.now)

theorem pmuDue_eq (s : State) : s.pmuDue =
    (s.pm.changes.takeWhile (changeLate s)).foldl (fun x e => x.pmuApply (instantAt s e.1) ((pmuEffect s e.1).getD s.now) e.2)
      (s.onPm fun p => { p with changes := s.pm.changes.dropWhile (changeLate s) }) := rfl

/-- The only change that waits takes effect once its reporting instant has come. -/
theorem pmuDue_of_one (hl : s.pm.changes = [(c, m)]) (he : pmuEffect s c = some a) (ha : a ≤ s.now) :
    s.pmuDue = (s.onPm fun p => { p with changes := [] }).pmuApply (instantAt s c) a m := by
  have hlate : changeLate s (c, m) = true := by simp [changeLate, he, ha]
  rw [pmuDue_eq, hl, List.takeWhile_cons_of_pos hlate, List.dropWhile_cons_of_pos hlate, List.takeWhile_nil,
    List.dropWhile_nil, List.foldl_cons, List.foldl_nil, he, Option.getD_some]

/-- While the oldest change waits for its reporting instant, nothing happens. -/
theorem pmuDue_of_early (hl : s.pm.changes = (c, m) :: l) (h : ∀ a, pmuEffect s c = some a → s.now < a) : s.pmuDue = s := by
  have hlate : ¬changeLate s (c, m) = true := by
    simp only [changeLate, Option.any_eq_true, decide_eq_true_eq, not_exists, not_and, Nat.not_le]
    exact h
  rw [pmuDue_eq, hl, List.takeWhile_cons_of_neg hlate, List.dropWhile_cons_of_neg hlate, List.foldl_nil, ← hl]
  rfl

end Sys2Proof.Machine
end

section
/-! THEOREMS. Phasor reports are latched and sent or skipped, a late frame is dropped, and committed changes take effect (R228, R231,
R235, R239, R240, R244, R245, R285; O40). -/

namespace Sys2Proof.Machine

variable {s : State} {c a k u : Nat} {m : List (Nat × Nat)} {l : List (Nat × List (Nat × Nat))} {r : ReportIn} {x : Wave}

/-! ### A report is latched (R234, R239, R246) -/

/-- The engine's registers once a report is latched: the reporting instants lost before it are counted. -/
def latched (s : State) (r : ReportIn) : Pmu :=
  { s.pm with
    skipped := u32 (s.pm.skipped + (s.pm.gapFrom.map fun g => gridCount (pmuRate s) g (r.t - 1 + 1)).getD 0)
    gapFrom := none, freqA := (busFreq s r 0).1, rocofA := (busFreq s r 0).2, freqB := (busFreq s r 1).1
    rocofB := (busFreq s r 1).2, statA := statWord s r 0, statB := statWord s r 1, reportTime := time80 r.t
    phasors := (allPh s r).map polar, lastReported := some r.t, histIncomplete := r.incomplete }

/-- The state with a report latched and, where the queue takes them, its X records written. -/
def State.reported (s : State) (r : ReportIn) : State :=
  let s1 := s.onPm fun _ => latched s r
  if s.qu.streaming && bitAt (selNow s 2) 1 then (s1.phasorRecords r).drew 36 else s1

/-- What keeps a report's frame from the network (R239, R245). -/
def frameBarred (s : State) (r : ReportIn) : Bool :=
  s.lk.hushed || !s.wd.canopyRunning || r.incomplete || !s.nt.up || !netReaches s (pmuDst s).1

theorem frameBarred_of (h : s.lk.hushed = true ∨ s.wd.canopyRunning = false ∨ r.incomplete = true ∨
    s.nt.up = false ∨ netReaches s (pmuDst s).1 = false) : frameBarred s r = true := by
  simpa [frameBarred, or_assoc] using h

theorem frameBarred_of_free (hhush : s.lk.hushed = false) (hcan : s.wd.canopyRunning = true)
    (hinc : r.incomplete = false) (hup : s.nt.up = true) (hreach : netReaches s (pmuDst s).1 = true) :
    frameBarred s r = false := by
  simp [frameBarred, hhush, hcan, hinc, hup, hreach]

theorem takeReport_eq (s : State) (r : ReportIn) : s.takeReport r =
    if !s.pm.on then s.reported r
    else if frameBarred s r then (s.reported r).onPm fun p => { p with skipped := u32 (p.skipped + 1) }
    else ((s.reported r).onPm fun p => { p with waitEnd := p.waitEnd ++ [frameEnd s r.t] }).sendFrame
      (udpFrame s 6 .phasor (pmuDst s) (selNow s 15) (dataFrame s r)) := rfl

theorem phasorRecords_wrote (s : State) (r : ReportIn) : Wrote ((pmuChans s).length + 4) s (s.phasorRecords r) := by
  unfold State.phasorRecords
  exact ((((wrote_foldl (fun _ _ => qX_wrote ..) _ _).trans (qX_wrote ..)).trans (qX_wrote ..)).trans (qX_wrote ..)).trans
    (qX_wrote ..)

/-- Records change the queue, and of the link at most its interrupts. -/
theorem phasorRecords_frame (s : State) (r : ReportIn) : s.phasorRecords r =
    { s with qu := (s.phasorRecords r).qu, lk := { s.lk with irq := (s.phasorRecords r).lk.irq } } :=
  (phasorRecords_wrote s r).eq_of_changes (phasorRecords_ch (.refl [.lk, .qu] s) rfl)

/-- Latching a report changes the engine's registers; its records change the queue and raise at most interrupts. -/
theorem reported_frame (s : State) (r : ReportIn) : s.reported r =
    { s with pm := latched s r, qu := (s.reported r).qu, lk := { s.lk with irq := (s.reported r).lk.irq },
             free := (s.reported r).free } := by
  unfold State.reported
  extract_lets s1
  split
  · have h := phasorRecords_frame s1 r
    generalize s1.phasorRecords r = t at h ⊢
    rw [h]
    rfl
  · rfl

@[simp] theorem reported_pm (s : State) (r : ReportIn) : (s.reported r).pm = latched s r := by rw [reported_frame]
@[simp] theorem reported_nt (s : State) (r : ReportIn) : (s.reported r).nt = s.nt := by rw [reported_frame]

theorem reported_lk (s : State) (r : ReportIn) : (s.reported r).lk = { s.lk with irq := (s.reported r).lk.irq } := by
  rw [reported_frame]

/-! ### Its frame waits to go out, or its instant is skipped (R239, R240, R245) -/

theorem takeReport_of_off (hoff : s.pm.on = false) : s.takeReport r = s.reported r := by
  rw [takeReport_eq, hoff]
  rfl

theorem takeReport_of_barred (hon : s.pm.on = true) (hb : frameBarred s r = true) :
    s.takeReport r = (s.reported r).onPm fun p => { p with skipped := u32 (p.skipped + 1) } := by
  rw [takeReport_eq, hon, hb]
  rfl

/-- A frame of another priority than 7 waits for admission (R285). -/
theorem sendFrame_waits {f : OwnFrame} (hup : s.nt.up = true) (hp : f.prio ≠ 7) (hhush : s.lk.hushed = false) :
    s.sendFrame f = s.onNt fun n => { n with waiting := n.waiting ++ [f] } := by
  rw [State.sendFrame, if_neg (by simp [hup]), if_neg (by simpa using hp), if_neg (by simp [hhush])]

theorem takeReport_of_sent (hon : s.pm.on = true) (hb : frameBarred s r = false) :
    s.takeReport r = ((s.reported r).onPm fun p => { p with waitEnd := p.waitEnd ++ [frameEnd s r.t] }).onNt fun n =>
      { n with waiting := n.waiting ++ [udpFrame s 6 .phasor (pmuDst s) (selNow s 15) (dataFrame s r)] } := by
  rw [takeReport_eq, if_neg (by simp [hon]), if_neg (by simp [hb])]
  simp only [frameBarred, Bool.or_eq_false_iff, Bool.not_eq_false'] at hb
  obtain ⟨⟨⟨⟨hhush, -⟩, -⟩, hup⟩, -⟩ := hb
  refine sendFrame_waits ?_ (by simp [udpFrame]) ?_
  · rw [onPm_nt, reported_nt, hup]
  · rw [onPm_lk, reported_lk, hhush]

/-- Whatever becomes of its frame, a report is latched, and the link changes by interrupts at most. -/
theorem takeReport_latches (s : State) (r : ReportIn) :
    (∃ n w, (s.takeReport r).pm = { latched s r with skipped := n, waitEnd := w }) ∧
    (s.takeReport r).lk = { s.lk with irq := (s.takeReport r).lk.irq } := by
  cases hon : s.pm.on with
  | false =>
    rw [takeReport_of_off hon]
    exact ⟨⟨_, _, reported_pm s r⟩, reported_lk s r⟩
  | true =>
    cases hb : frameBarred s r with
    | true =>
      rw [takeReport_of_barred hon hb, onPm_pm, reported_pm]
      exact ⟨⟨_, _, rfl⟩, reported_lk s r⟩
    | false =>
      rw [takeReport_of_sent hon hb, onNt_pm, onPm_pm, reported_pm]
      exact ⟨⟨_, _, rfl⟩, reported_lk s r⟩

theorem takeReport_registers (s : State) (r : ReportIn) :
    (s.takeReport r).pm.reportTime = time80 r.t ∧ (s.takeReport r).pm.phasors = (allPh s r).map polar ∧
    (s.takeReport r).pm.lastReported = some r.t ∧ (s.takeReport r).pm.statA = statWord s r 0 ∧
    (s.takeReport r).pm.statB = statWord s r 1 ∧
    ((s.takeReport r).pm.freqA, (s.takeReport r).pm.rocofA) = busFreq s r 0 ∧
    ((s.takeReport r).pm.freqB, (s.takeReport r).pm.rocofB) = busFreq s r 1 := by
  obtain ⟨⟨n, w, hpm⟩, -⟩ := takeReport_latches s r
  rw [hpm]
  exact ⟨rfl, rfl, rfl, rfl, rfl, rfl, rfl⟩

/-- With output off, what the report leaves of the counts and the network. -/
theorem takeReport_off (hoff : s.pm.on = false) :
    (s.takeReport r).pm.skipped = (latched s r).skipped ∧ (s.takeReport r).nt = s.nt := by
  rw [takeReport_of_off hoff]
  exact ⟨congrArg Pmu.skipped (reported_pm s r), reported_nt s r⟩

theorem takeReport_skips (hon : s.pm.on = true) (hb : frameBarred s r = true) :
    (s.takeReport r).pm.skipped = u32 ((latched s r).skipped + 1) ∧ (s.takeReport r).nt = s.nt := by
  rw [takeReport_of_barred hon hb, onPm_pm, onPm_nt, reported_pm, reported_nt]
  exact ⟨rfl, rfl⟩

theorem takeReport_sends (hon : s.pm.on = true) (hb : frameBarred s r = false) :
    (s.takeReport r).nt = { s.nt with waiting := s.nt.waiting ++
      [udpFrame s 6 .phasor (pmuDst s) (selNow s 15) (dataFrame s r)] } ∧
    (s.takeReport r).pm.waitEnd = s.pm.waitEnd ++ [frameEnd s r.t] ∧
    (s.takeReport r).pm.skipped = (latched s r).skipped := by
  rw [takeReport_of_sent hon hb, onNt_pm, onNt_nt, onPm_pm, onPm_nt, reported_pm, reported_nt]
  exact ⟨rfl, rfl, rfl⟩

/-! ### The next report (R231, R244) -/

/-- Beyond the registers of a report, its records and its frame, nothing changes. -/
theorem reportAt_frame (s : State) (x : Wave) (u : Nat) : s.reportAt x u =
    { s with lk := { s.lk with irq := (s.reportAt x u).lk.irq }, nt := (s.reportAt x u).nt, qu := (s.reportAt x u).qu,
             pm := (s.reportAt x u).pm, free := (s.reportAt x u).free } := by
  have hpr : (s.reportAt x u).pr = s.pr :=
    under_pr (fun y => (takeReport_ch (.refl [.lk, .nt, .qu, .pm, .free] y) rfl).pr rfl) s
  have hlk : (s.reportAt x u).lk = { s.lk with irq := (s.reportAt x u).lk.irq } := (takeReport_latches _ _).2
  rw [← hlk]
  exact (Changes.of_same (reportAt_ch (.refl [.pr, .lk, .nt, .qu, .pm, .free] s) rfl) hpr).eq_pick

theorem execPhasorReport_of_due (hrun : s.pm.running = true) (hdue : reportDue s.pmuDue = some (x, u)) :
    exec .phasorReport s = .next (s.pmuDue.reportAt x u) := by
  have he : exec .phasorReport s = execPhasorReport s := rfl
  rw [he, execPhasorReport, if_neg (by simp [hrun])]
  dsimp only
  rw [hdue]

theorem execPhasorReport_of_none (hrun : s.pm.running = true) (hdue : reportDue s.pmuDue = none) :
    exec .phasorReport s = .next s.pmuDue := by
  have he : exec .phasorReport s = execPhasorReport s := rfl
  rw [he, execPhasorReport, if_neg (by simp [hrun])]
  dsimp only
  rw [hdue]

theorem execPhasorReport_of_stopped (hrun : s.pm.running = false) : exec .phasorReport s = .next s := by
  have he : exec .phasorReport s = execPhasorReport s := rfl
  rw [he, execPhasorReport, hrun]
  rfl

/-! ### A frame that waits too long, and changes that take effect (R244, R285) -/

theorem execPhasorFrameDrop_of_late (hk : s.nt.waiting.findIdx? (fun f => f.kind == .phasor) = some k)
    (hlate : s.pm.waitEnd.headD 0 ≤ s.clk) :
    exec .phasorFrameDrop s = .next { s with
      nt := { s.nt with waiting := s.nt.waiting.eraseIdx k }
      pm := { s.pm with skipped := u32 (s.pm.skipped + 1), waitEnd := s.pm.waitEnd.drop 1 } } := by
  have he : exec .phasorFrameDrop s = execPhasorFrameDrop s := rfl
  rw [he, execPhasorFrameDrop, hk]
  exact if_neg (Nat.not_lt.2 hlate)

theorem execPmuConfigTakeEffect_gives (hl : s.pm.changes = [(c, m)]) (he : pmuEffect s c = some a) (ha : a ≤ s.now) :
    Gives .pmuConfigTakeEffect s fun t =>
      t.pm.changes = [] ∧ t.pm.cfgCnt = (s.pm.cfgCnt + 1) % 65536 ∧ t.pm.on = s.pm.on ∧
      t.pr = { s.pr with applied := assocAll s.pr.applied m } ∧ keepsBytes s t deviceArea ∧
      t = { s with hw := t.hw, pr := t.pr, wd := t.wd, pm := t.pm } := by
  have H := pmuApply_takesEffect (s.onPm fun p => { p with changes := [] }) (instantAt s c) a m
  have hf : Changes [.hw, .pr, .wd, .pm] s s.pmuDue := pmuDue_ch (.refl _ s) rfl
  refine ⟨s.pmuDue, rfl, ?_, ?_, ?_, ?_, ?_, hf.eq_pick⟩ <;> rw [pmuDue_of_one hl he ha]
  · exact H.changes
  · exact pmuApply_cfgCnt ..
  · exact H.on
  · exact pmuApply_pr ..
  · exact H.bytes

theorem execPmuConfigTakeEffect_of_early (hl : s.pm.changes = (c, m) :: l) (h : ∀ a, pmuEffect s c = some a → s.now < a) :
    exec .pmuConfigTakeEffect s = .next s :=
  congrArg Host.Outcome.next (pmuDue_of_early hl h)

/-- Settles O40: a report is latched under the members of its instant, its frame is barred or waits, and a change takes effect as one
update that the device record keeps. -/
theorem reportsAreLatchedAndSent : Obligations.ReportsAreLatchedAndSent := by
  intro s s1
  have hlk : s1.lk = s.lk := pmuDue_lk s
  have hnt : s1.nt = s.nt := pmuDue_nt s
  have hwd : s1.wd.canopyRunning = s.wd.canopyRunning := pmuDue_canopyRunning s
  refine ⟨fun x u hrun hdue => ?_, execPhasorReport_of_none, execPhasorReport_of_stopped, fun _ => execPhasorFrameDrop_of_late,
    fun _ _ _ => execPmuConfigTakeEffect_gives, fun _ _ _ => execPmuConfigTakeEffect_of_early, fun _ => pmuEffect_of_early⟩
  intro v y rep gone
  obtain ⟨htime, hph, hlast, hA, hB, hfA, hfB⟩ := takeReport_registers y rep
  refine ⟨s1.reportAt x u, execPhasorReport_of_due hrun hdue, rfl, htime, hph, hlast, hA, hB, hfA, hfB, fun hoff => ?_,
    fun hon hbar => ?_, fun hon hhush hcan hinc hup hreach => ?_, ?_⟩
  · rw [← hnt]
    exact takeReport_off (s := y) (r := rep) hoff
  · rw [← hlk, ← hwd, ← hnt] at hbar
    rw [← hnt]
    exact takeReport_skips (s := y) hon (frameBarred_of hbar)
  · rw [← hlk] at hhush
    rw [← hwd] at hcan
    rw [← hnt] at hup ⊢
    exact takeReport_sends (s := y) hon (frameBarred_of_free hhush hcan hinc hup hreach)
  · rw [← hlk]
    exact reportAt_frame s1 x u

end Sys2Proof.Machine
end

section
/-! THEOREMS. Command frames, PMU_CONTROL and PMU_READ (R243, R244, R247, Tables 10-10 and 10-11; O41). -/

namespace Sys2Proof.Machine

variable {s : State} {h : Hdr} {cmd : PmuCmdIn} {first count : Nat}

/-! ### Output starts and stops (R243, R244, R247) -/

/-- From `a` to `t` output is started: where it is on already nothing changes; otherwise the waiting changes come into use, and
output is on at stage 4 and waits for it below. -/
structure OutputStarts (a t : State) : Prop where
  asIs : a.pm.on = true → t.pm = a.pm ∧ t.pr = a.pr
  taken : a.pm.on = false → t.pm.changes = []
  starts : 4 ≤ a.pw.stage → t.pm.on = true
  waits : a.pw.stage < 4 → a.pm.on = false → t.pm.waiting = true ∧ t.pm.on = false
  cmdReceived : t.pm.cmdReceived = a.pm.cmdReceived
  cmdIgnored : t.pm.cmdIgnored = a.pm.cmdIgnored
  bytes : keepsBytes a t deviceArea
  frame : t = { a with hw := t.hw, pr := t.pr, wd := t.wd, pm := t.pm }

theorem pmuStart_of_on (hon : s.pm.on = true) : s.pmuStart = s := by
  simp [State.pmuStart, hon]

theorem pmuStart_of_off (hoff : s.pm.on = false) : s.pmuStart =
    if 4 ≤ s.pw.stage then s.pmuTake.onPm fun p => { p with on := true, waiting := false }
    else s.pmuTake.onPm fun p => { p with waiting := true } := by
  have htake : s.pmuTake.pm.on = false := (pmuTake_takesEffect s).on.trans hoff
  simp [State.pmuStart, hoff, htake]

theorem pmuStart_starts (s : State) : OutputStarts s s.pmuStart := by
  have hframe := (pmuStart_ch (.refl [.hw, .pr, .wd, .pm] s) rfl).eq_pick
  cases hon : s.pm.on with
  | true =>
    rw [pmuStart_of_on hon] at hframe ⊢
    exact ⟨fun _ => ⟨rfl, rfl⟩, fun hoff => absurd hon (by simp [hoff]), fun _ => hon,
      fun _ hoff => absurd hon (by simp [hoff]), rfl, rfl, keepsBytes_refl s _, hframe⟩
  | false =>
    have H := pmuTake_takesEffect s
    by_cases h4 : 4 ≤ s.pw.stage
    · rw [pmuStart_of_off hon, if_pos h4] at hframe ⊢
      exact ⟨fun h => absurd h (by simp [hon]), fun _ => H.changes, fun _ => rfl, fun hlt => absurd h4 (Nat.not_le.2 hlt),
        H.cmdReceived, H.cmdIgnored, H.bytes, hframe⟩
    · rw [pmuStart_of_off hon, if_neg h4] at hframe ⊢
      exact ⟨fun h => absurd h (by simp [hon]), fun _ => H.changes, fun h => absurd h h4, fun _ _ => ⟨rfl, H.on.trans hon⟩,
        H.cmdReceived, H.cmdIgnored, H.bytes, hframe⟩

/-- The engine's registers after a stop: the instants already lost are counted. -/
def stoppedPm (s : State) : Pmu :=
  { s.pm with on := false, waiting := false, gapFrom := none
              skipped := u32 (s.pm.skipped + (s.pm.gapFrom.map fun g => gridCount (pmuRate s) g (s.now + 1)).getD 0) }

theorem pmuStop_eq (s : State) : s.pmuStop = { s with pm := stoppedPm s } := rfl

/-! ### Command frames (R243) -/

theorem execPmuCmdDataOff_of_accepted (ha : cmdAccepted s cmd = true) (hw : cmdWord cmd = 1) :
    exec (.pmuCmdDataOff cmd) s =
      .next { s with pm := { stoppedPm s with cmdReceived := u32 (s.pm.cmdReceived + 1) } } := by
  have he : exec (.pmuCmdDataOff cmd) s = execPmuCmdDataOff cmd s := rfl
  rw [he, execPmuCmdDataOff, if_pos (by simp [ha, hw])]
  rfl

/-- Data on is ignored while hushed (R243) or without a destination (assumption 45). -/
theorem execPmuCmdDataOn_of_ignored (ha : cmdAccepted s cmd = true) (hw : cmdWord cmd = 2)
    (hno : s.lk.hushed = true ∨ (pmuDst s).1 = 0) : exec (.pmuCmdDataOn cmd) s = .next s.cmdCount.cmdIgnore := by
  have he : exec (.pmuCmdDataOn cmd) s = execPmuCmdDataOn cmd s := rfl
  rw [he, execPmuCmdDataOn, if_pos (by simp [ha, hw]), if_pos (by simpa using hno)]

theorem execPmuCmdDataOn_of_started (ha : cmdAccepted s cmd = true) (hw : cmdWord cmd = 2) (hh : s.lk.hushed = false)
    (hd : (pmuDst s).1 ≠ 0) : exec (.pmuCmdDataOn cmd) s = .next s.cmdCount.pmuStart := by
  have he : exec (.pmuCmdDataOn cmd) s = execPmuCmdDataOn cmd s := rfl
  rw [he, execPmuCmdDataOn, if_pos (by simp [ha, hw]), if_neg (by simp [hh, hd])]

theorem execPmuCmdSendCfg2_of_accepted (ha : cmdAccepted s cmd = true) (hw : cmdWord cmd = 5) :
    exec (.pmuCmdSendCfg2 cmd) s = .next (s.cmdCount.sendCfg2 (cmd.addr, cmd.port)) := by
  have he : exec (.pmuCmdSendCfg2 cmd) s = execPmuCmdSendCfg2 cmd s := rfl
  rw [he, execPmuCmdSendCfg2, if_pos (by simp [ha, hw])]

theorem execPmuCmdIgnored_of_accepted (ha : cmdAccepted s cmd = true) (h1 : cmdWord cmd ≠ 1) (h2 : cmdWord cmd ≠ 2)
    (h5 : cmdWord cmd ≠ 5) : exec (.pmuCmdIgnored cmd) s = .next s.cmdCount.cmdIgnore := by
  have he : exec (.pmuCmdIgnored cmd) s = execPmuCmdIgnored cmd s := rfl
  rw [he, execPmuCmdIgnored, if_pos (by simp [ha, h1, h2, h5])]

theorem execPmuCmd_of_refused (ha : cmdAccepted s cmd = false) :
    exec (.pmuCmdDataOff cmd) s = .next s ∧ exec (.pmuCmdDataOn cmd) s = .next s ∧
    exec (.pmuCmdSendCfg2 cmd) s = .next s ∧ exec (.pmuCmdIgnored cmd) s = .next s :=
  ⟨if_neg (by simp [ha]), if_neg (by simp [ha]), if_neg (by simp [ha]), if_neg (by simp [ha])⟩

/-! ### PMU_READ and PMU_CONTROL (R247) -/

theorem execPmuRead_of_opens (ho : Opens opPmuRead h s) (hl : h.len = 4) (h1 : 1 ≤ count) (hn : first + count ≤ 126) :
    exec (.pmuRead h first count) s = .next ((s.accepted h).replied opPmuRead h .ok
      (le 2 s.pm.statA ++ le 2 s.pm.statB ++ zeros 2 ++ le 10 s.pm.reportTime ++ zeros 2 ++ le 4 s.pm.freqA ++
        le 4 s.pm.rocofA ++ le 4 s.pm.freqB ++ le 4 s.pm.rocofB ++
        ((s.pm.phasors.drop first).take count).flatMap fun p => le 4 p.1 ++ le 4 p.2)) := by
  have hpass : (125 < first || count == 0 || 126 < count || 126 < first + count) = false := by
    simp only [Bool.or_eq_false_iff, decide_eq_false_iff_not, beq_eq_false_iff_ne]
    omega
  have he : exec (.pmuRead h first count) s = execPmuRead h first count s := rfl
  rw [he, execPmuRead, serve_opens ho (beq_iff_eq.2 hl) (by rw [hpass]; rfl), accepted_pm]

theorem execPmuStart_answers (ho : Opens opPmuControl h s) (hl : h.len = 4) (hh : s.lk.hushed = false)
    (hd : (pmuDst (s.accepted h)).1 ≠ 0) :
    Answers (.pmuStart h false) s opPmuControl h (if s.pm.on ∨ 4 ≤ s.pw.stage then .ok else .pending) fun v bs =>
      bs = zeros 2 ∧ OutputStarts (s.accepted h) v :=
  answers_of rfl ho (beq_iff_eq.2 hl) (by simp [firstFail, hh, hd]) (by simp) ⟨rfl, pmuStart_starts _⟩

theorem execPmuStop_of_opens (ho : Opens opPmuControl h s) (hl : h.len = 4) : exec (.pmuStop h) s = .next
    (({ s.accepted h with pm := stoppedPm (s.accepted h) } : State).replied opPmuControl h .ok (zeros 2)) := by
  have he : exec (.pmuStop h) s = execPmuStop h s := rfl
  rw [he, execPmuStop, serve_opens ho (beq_iff_eq.2 hl) rfl]
  rfl

theorem execPmuSendCfg2_of_opens (ho : Opens opPmuControl h s) (hl : h.len = 4) (hd : (pmuDst (s.accepted h)).1 ≠ 0) :
    exec (.pmuSendCfg2 h) s = .next
      (((s.accepted h).sendCfg2 (pmuDst (s.accepted h))).replied opPmuControl h .ok (zeros 2)) := by
  have he : exec (.pmuSendCfg2 h) s = execPmuSendCfg2 h s := rfl
  rw [he, execPmuSendCfg2, serve_opens ho (beq_iff_eq.2 hl) (by simp [firstFail, hd])]

/-- Settles O41: command frames and PMU_CONTROL share one start and one stop of output; that data on without a destination is ignored
and counted is the model's choice (assumption 45). -/
theorem synchrophasorCommandsAndRequests : Obligations.SynchrophasorCommandsAndRequests := by
  intro s starts stopped seen ignored
  refine ⟨fun _ => execPmuCmdDataOff_of_accepted,
    fun c ha hw => ⟨execPmuCmdDataOn_of_ignored ha hw, fun hh hd =>
      ⟨seen.pmuStart, execPmuCmdDataOn_of_started ha hw hh hd, ?_⟩⟩,
    fun _ => execPmuCmdSendCfg2_of_accepted, fun _ => execPmuCmdIgnored_of_accepted, fun _ => execPmuCmd_of_refused,
    fun _ _ _ => execPmuRead_of_opens, fun h ho hl hh hd => ?_, fun _ => execPmuStop_of_opens,
    fun _ => execPmuSendCfg2_of_opens⟩
  · obtain ⟨hon, hoff, h4, hlt, hrec, hign, hbytes, hframe⟩ := pmuStart_starts seen
    exact ⟨hon, hoff, h4, hlt, hrec, hign, hbytes, hframe⟩
  · obtain ⟨v, bs, he, hbs, hon, hoff, h4, hlt, hrec, hign, hbytes, hframe⟩ := execPmuStart_answers ho hl hh hd
    rw [accepted_pw] at h4 hlt
    exact ⟨v, bs, he, hbs, hon, hoff, h4, hlt, hrec, hign, keepsBytes_of_accepted hbytes, hframe⟩

end Sys2Proof.Machine
end

section
/-! THEOREMS. TEST_TDAC and TEST_OUTPUT: levels, forces and their ends, and which test and display requests LOCK lets through
(R451, R452, R459 to R461, Tables 20-5 and 20-6; O55, O58). -/

namespace Sys2Proof.Machine

variable {s : State} {h : Hdr} {code d o l item max : Nat}

theorem Answers.imp {i : Instr} {op : Op} {st : Status} {p q : State → List Byte → Prop} (H : Answers i s op h st p)
    (hpq : ∀ v bs, p v bs → q v bs) : Answers i s op h st q := by
  obtain ⟨v, bs, he, hp⟩ := H
  exact ⟨v, bs, he, hpq v bs hp⟩

/-! ### TDAC_OUT (R459) -/

theorem execTestTdacOn_answers (ho : Opens opTdac h s) (hl : h.len = 8) (hc : code ≤ 65535) (h1 : 1 ≤ d)
    (hd : d ≤ par (s.accepted h) 0x7802) : Answers (.testTdacOn h false code d) s opTdac h .ok fun v bs =>
      v = { s.accepted h with hm := { s.hm with
        tdacOn := true, tdacConsole := h.path == .console, tdacCode := code, tdacClk := s.clk, tdacS := d } } ∧
      bs = tdacReply v := by
  refine answers_of rfl ho (beq_iff_eq.2 hl) (by simp [firstFail, hc, hd, Nat.one_le_iff_ne_zero.1 h1]) rfl ⟨?_, rfl⟩
  rw [← accepted_hm s h, ← accepted_clk s h]
  rfl

theorem execTestTdacOff_answers (ho : Opens opTdac h s) (hl : h.len = 8) (hc : code ≤ 65535) (hd : d ≤ 65535) :
    Answers (.testTdacOff h code d) s opTdac h .ok fun v bs =>
      v = { s.accepted h with hm := { s.hm with tdacOn := false, tdacConsole := false, tdacCode := 0 } } ∧
      bs = tdacReply v := by
  refine answers_of rfl ho (beq_iff_eq.2 hl) (by simp [firstFail, hc, hd]) rfl ⟨?_, rfl⟩
  rw [← accepted_hm s h]
  rfl

/-- A level or force is over after its own duration as well as after TEST_MAX_S. -/
theorem testOver_of_after {c n : Nat} (H : s.after c (n * cycS) = true ∨ s.after c (par s 0x7802 * cycS) = true) :
    testOver s c n = true := by
  simp only [testOver, State.after, decide_eq_true_eq] at H ⊢
  rcases H with H | H
  · exact (Nat.add_le_add_left (Nat.mul_le_mul_right _ (Nat.min_le_left ..)) _).trans H
  · exact (Nat.add_le_add_left (Nat.mul_le_mul_right _ (Nat.min_le_right ..)) _).trans H

theorem execTdacLevelExpiry_of_over (hon : s.hm.tdacOn = true) (hv : testOver s s.hm.tdacClk s.hm.tdacS = true) :
    exec .tdacLevelExpiry s = .next { s with hm := { s.hm with tdacOn := false, tdacConsole := false, tdacCode := 0 } } := by
  have he : exec .tdacLevelExpiry s = execTdacLevelExpiry s := rfl
  rw [he, execTdacLevelExpiry, if_pos (by simp [hon, hv])]
  rfl

theorem execTdacLevelExpiry_of_lasting (H : s.hm.tdacOn = false ∨ testOver s s.hm.tdacClk s.hm.tdacS = false) :
    exec .tdacLevelExpiry s = .next s := by
  have he : exec .tdacLevelExpiry s = execTdacLevelExpiry s := rfl
  rw [he, execTdacLevelExpiry, if_neg (by simpa [or_iff_not_imp_left] using H)]

/-! ### Forced outputs (R460) -/

/-- A force put last under an output without an earlier one is the level of its ball. -/
theorem outputLevel_of_forced {fs : List Force} {f : Force} (hf : s.hm.forces = fs ++ [f])
    (hn : ∀ g ∈ fs, g.output ≠ f.output) : outputLevel s f.output = f.level := by
  have hfind : s.hm.forces.find? (fun g => g.output == f.output) = some f := by
    rw [hf, List.find?_append, List.find?_eq_none.2 (by simpa using hn)]
    simp
  simp [outputLevel, forcedLevel, hfind]

theorem execTestOutputForce_answers (ho : Opens opOutput h s) (hl : h.len = 4) (hk : locked (s.accepted h) = false)
    (hw : canWrite (s.accepted h) h.path 2 = true) (h19 : o ≤ 19) (hlv : l ≤ 1) (h1 : 1 ≤ d)
    (hd : d ≤ par (s.accepted h) 0x7802) : Answers (.testOutputForce h o l d) s opOutput h .ok fun v bs =>
      v.hm.forces = s.hm.forces.filter (fun f => f.output != o) ++ [⟨o, l == 1, h.path, s.clk, d⟩] ∧ bs = outputReply v ∧
      outputLevel v o = (l == 1) ∧ v = { s.accepted h with hm := { s.hm with forces := v.hm.forces } } := by
  refine answers_of rfl ho (beq_iff_eq.2 hl) ?_ rfl ⟨?_, rfl, ?_, ?_⟩
  · simp [firstFail, hk, hw, Nat.not_lt.2 h19, Nat.not_lt.2 hlv, Nat.not_lt.2 hd, Nat.one_le_iff_ne_zero.1 h1]
  · rw [← accepted_hm s h, ← accepted_clk s h]
    rfl
  · exact outputLevel_of_forced (f := ⟨o, l == 1, h.path, (s.accepted h).clk, d⟩) rfl fun g hg => by
      simpa using (List.mem_filter.1 hg).2
  · rw [← accepted_hm s h]
    rfl

theorem execTestOutputRelease_answers (ho : Opens opOutput h s) (hl : h.len = 4) (hk : locked (s.accepted h) = false)
    (hw : canWrite (s.accepted h) h.path 2 = true) (h19 : o ≤ 19) (hd : d ≤ 65535) :
    Answers (.testOutputRelease h o d) s opOutput h .ok fun v bs =>
      v.hm.forces = s.hm.forces.filter (fun f => f.output != o) ∧ bs = outputReply v ∧
      v = { s.accepted h with hm := { s.hm with forces := v.hm.forces } } := by
  refine answers_of rfl ho (beq_iff_eq.2 hl) (by simp [firstFail, hk, hw, h19, hd]) rfl ⟨?_, rfl, ?_⟩
  · rw [← accepted_hm s h]
    rfl
  · rw [← accepted_hm s h]
    rfl

theorem execTestOutput_of_locked (ho : Opens opOutput h s) (hl : h.len = 4) (hk : locked (s.accepted h) = true) :
    exec (.testOutputForce h o l d) s = .next ((s.accepted h).answer h 0x0F02 .locked (zeros 6)) ∧
      exec (.testOutputRelease h o d) s = .next ((s.accepted h).answer h 0x0F02 .locked (zeros 6)) :=
  ⟨congrArg _ (serve_refuses ho (beq_iff_eq.2 hl) (by simp [firstFail, hk])),
    congrArg _ (serve_refuses ho (beq_iff_eq.2 hl) (by simp [firstFail, hk]))⟩

theorem execTestOutput_of_no_session (ho : Opens opOutput h s) (hl : h.len = 4) (hk : locked (s.accepted h) = false)
    (hw : canWrite (s.accepted h) h.path 2 = false) :
    exec (.testOutputForce h o l d) s = .next ((s.accepted h).answer h 0x0F02 .authFail (zeros 6)) ∧
      exec (.testOutputRelease h o d) s = .next ((s.accepted h).answer h 0x0F02 .authFail (zeros 6)) :=
  ⟨congrArg _ (serve_refuses ho (beq_iff_eq.2 hl) (by simp [firstFail, hk, hw])),
    congrArg _ (serve_refuses ho (beq_iff_eq.2 hl) (by simp [firstFail, hk, hw]))⟩

theorem execTestOutputExpiry_of_over {o : Fin 20}
    (H : s.hm.forces.any (fun f => f.output == o.val && testOver s f.clk f.durS) = true) : exec (.testOutputExpiry o) s =
      .next { s with hm := { s.hm with forces := s.hm.forces.filter fun f => f.output != o.val } } := by
  have he : exec (.testOutputExpiry o) s = execTestOutputExpiry o s := rfl
  rw [he, execTestOutputExpiry, if_pos H]
  rfl

theorem execTestOutputExpiry_of_lasting {o : Fin 20}
    (H : s.hm.forces.any (fun f => f.output == o.val && testOver s f.clk f.durS) = false) :
    exec (.testOutputExpiry o) s = .next s := by
  have he : exec (.testOutputExpiry o) s = execTestOutputExpiry o s := rfl
  rw [he, execTestOutputExpiry, if_neg (by simp [H])]

/-- Settles O55: each request and each end is one update of the test state. -/
theorem testOutputsAreForcedAndReleased : Obligations.TestOutputsAreForcedAndReleased := fun _ =>
  ⟨fun _ _ _ => execTestTdacOn_answers, fun _ _ _ => execTestTdacOff_answers,
    fun hon hv => execTdacLevelExpiry_of_over hon (testOver_of_after hv), execTdacLevelExpiry_of_lasting,
    fun _ _ _ _ => execTestOutputForce_answers, fun _ _ _ => execTestOutputRelease_answers,
    fun _ => execTestOutputExpiry_of_over, fun _ => execTestOutputExpiry_of_lasting⟩

/-! ### DISPLAY_CONTROL, KEY_READ and the requests at LOCK (R451, R461) -/

theorem execDisplayQuery_of_opens (ho : Opens opDisplay h s) (hl : h.len = 4) (hi : item ≤ 255) :
    exec (.displayQuery h false item) s =
      .next ((s.accepted h).replied opDisplay h .ok (displayReply (s.accepted h))) :=
  congrArg _ (serve_opens ho (beq_iff_eq.2 hl) (by simp [firstFail, hi]))

theorem execDisplayShowItem_answers (ho : Opens opDisplay h s) (hl : h.len = 4) (hi : item < layItems (layoutOf s)) :
    Answers (.displayShowItem h item) s opDisplay h .ok fun v bs =>
      v = { s.accepted h with hm := { s.hm with item := item, held := true, scrolling := false, itemClk := s.clk } } ∧
      bs = displayReply v := by
  have hlay : layoutOf (s.accepted h) = layoutOf s := by rw [layoutOf, accepted_hm, layoutOf]
  refine answers_of rfl ho (beq_iff_eq.2 hl) (by simp [firstFail, hlay, hi]) rfl ⟨?_, rfl⟩
  rw [← accepted_hm s h, ← accepted_clk s h]
  rfl

theorem scrolls_accepted (s : State) (h : Hdr) : scrolls (s.accepted h) = scrolls s := by
  rw [scrolls, layoutOf, accepted_hm, scrolls, layoutOf]

theorem execDisplayResumeScroll_answers (ho : Opens opDisplay h s) (hl : h.len = 4) (hi : item ≤ 255) :
    Answers (.displayResumeScroll h item) s opDisplay h .ok fun v bs =>
      v = { s.accepted h with hm := { s.hm with item := s.hm.item, held := false, scrolling := scrolls s, itemClk := s.clk } } ∧
      bs = displayReply v := by
  refine answers_of rfl ho (beq_iff_eq.2 hl) (by simp [firstFail, hi]) rfl ⟨?_, rfl⟩
  rw [← accepted_hm s h, ← accepted_clk s h, ← scrolls_accepted s h]
  rfl

theorem execSegmentTest_answers (ho : Opens opDisplay h s) (hl : h.len = 4) (hi : item ≤ 255) :
    Answers (.segmentTest h item) s opDisplay h .ok fun v bs =>
      v = { s.accepted h with hm := { s.hm with segTest := true, segClk := s.clk } } ∧ bs = displayReply v := by
  refine answers_of rfl ho (beq_iff_eq.2 hl) (by simp [firstFail, hi]) rfl ⟨?_, rfl⟩
  rw [← accepted_hm s h, ← accepted_clk s h]
  rfl

theorem execKeyRead_of_opens (ho : Opens opKeyRead h s) (hl : h.len = 4) (h1 : 1 ≤ max) (h16 : max ≤ 16) :
    exec (.keyRead h max) s =
      .next (((s.accepted h).onHm fun m => { m with fifo := m.fifo.drop max }).replied opKeyRead h .ok
        (le 1 (s.hm.fifo.take max).length ++ zeros 1 ++ le 4 s.hm.lost ++ (s.hm.fifo.take max).flatMap keyBytes)) := by
  have he : exec (.keyRead h max) s = execKeyRead h max s := rfl
  rw [he, execKeyRead, serve_opens ho (beq_iff_eq.2 hl) (by simp [firstFail, h16, Nat.one_le_iff_ne_zero.1 h1]), accepted_hm]

/-- Settles O58: each request passes or fails the checks of its own opcode, which name LOCK for TEST_OUTPUT alone. -/
theorem testRequestsAtLock : Obligations.TestRequestsAtLock := fun _ _ =>
  ⟨fun ho hl _ hi => ⟨⟨_, _, execDisplayQuery_of_opens ho hl hi, trivial⟩,
      fun hn => (execDisplayShowItem_answers ho hl hn).imp fun _ _ _ => trivial,
      (execDisplayResumeScroll_answers ho hl hi).imp fun _ _ _ => trivial,
      (execSegmentTest_answers ho hl hi).imp fun _ _ _ => trivial⟩,
    fun ho hl _ h1 h16 => ⟨_, _, execKeyRead_of_opens ho hl h1 h16, trivial⟩,
    fun ho hl _ _ hc h1 hd => ⟨fun hm => (execTestTdacOn_answers ho hl hc h1 hm).imp fun _ _ _ => trivial,
      (execTestTdacOff_answers ho hl hc hd).imp fun _ _ _ => trivial⟩,
    fun ho hl _ _ _ h19 hlv h1 hm hd => ⟨execTestOutput_of_locked ho hl, execTestOutput_of_no_session ho hl, fun hk hw =>
      ⟨(execTestOutputForce_answers ho hl hk hw h19 hlv h1 hm).imp fun _ _ _ => trivial,
        (execTestOutputRelease_answers ho hl hk hw h19 hd).imp fun _ _ _ => trivial⟩⟩⟩

end Sys2Proof.Machine
end

section
/-! THEOREMS. Scrolling, the hold of an item, the segment test and the keys (R451 to R453, Table 20-5; O53). -/

namespace Sys2Proof.Machine

variable {s t : State} {k : Fin 8} {ev n : Nat}

/-! ### The display moves on (R451, R453) -/

theorem execSegmentTestEnd_of_running (hd : s.after s.hm.segClk (5 * cycS) = false) : exec .segmentTestEnd s = .next s := by
  have he : exec .segmentTestEnd s = execSegmentTestEnd s := rfl
  rw [he, execSegmentTestEnd, hd, if_neg Bool.false_ne_true]

theorem execSegmentTestEnd_of_over (hd : s.after s.hm.segClk (5 * cycS) = true) :
    exec .segmentTestEnd s = .next { s with hm := { s.hm with segTest := false } } := by
  have he : exec .segmentTestEnd s = execSegmentTestEnd s := rfl
  rw [he, execSegmentTestEnd, if_pos hd]
  rfl

theorem execDisplayScroll_of_due (hs : s.hm.scrolling = true)
    (hd : s.after s.hm.itemClk (layScroll (layoutOf s) * cycS) = true) (hn : nextScrolled s = some n) :
    exec .displayScroll s = .next { s with hm := { s.hm with item := n, itemClk := s.clk } } := by
  have he : exec .displayScroll s = execDisplayScroll s := rfl
  rw [he, execDisplayScroll, if_pos (by simp [hs, hd]), hn]
  rfl

theorem execDisplayHoldExpiry_of_due (hh : s.hm.held = true)
    (hd : s.after s.hm.itemClk (layHold (layoutOf s) * cycS) = true) : exec .displayHoldExpiry s = .next { s with
      hm := { s.hm with item := s.hm.item, held := false, scrolling := scrolls s, itemClk := s.clk } } := by
  have he : exec .displayHoldExpiry s = execDisplayHoldExpiry s := rfl
  rw [he, execDisplayHoldExpiry, if_pos (by simp [hh, hd])]
  rfl

/-! ### Key events (R452) -/

/-- From `a` to `b` an event of a key is counted and enters the FIFO of 16 or is counted as lost; keys, their clocks and long
presses, the step that waits and the segment test stay. -/
structure KeyCounted (s : State) (k ev : Nat) (a b : Hmi) : Prop where
  events : b.keyEvents = u32 (a.keyEvents + 1)
  enters : a.fifo.length < 16 → b.fifo = a.fifo ++ [⟨s.now80, k, ev⟩] ∧ b.lost = a.lost
  isLost : 16 ≤ a.fifo.length → b.fifo = a.fifo ∧ b.lost = u32 (a.lost + 1)
  keys : b.keys = a.keys
  keyClk : b.keyClk = a.keyClk
  longs : b.longs = a.longs
  step : b.step = a.step
  segTest : b.segTest = a.segTest

theorem keyEvent_hm (s : State) (k ev : Nat) : KeyCounted s k ev s.hm (s.keyEvent k ev).hm := by
  unfold State.keyEvent State.onHm
  dsimp only
  split
  next hlt => exact ⟨rfl, fun _ => ⟨rfl, rfl⟩, fun hge => absurd hge (Nat.not_le.2 hlt), rfl, rfl, rfl, rfl, rfl⟩
  next hge => exact ⟨rfl, fun hlt => absurd hlt hge, fun _ => ⟨rfl, rfl⟩, rfl, rfl, rfl, rfl, rfl⟩

theorem keyTick_hm (s : State) : s.keyTick = s ∨ ∃ f, s.keyTick = s.keyStep f := by
  unfold State.keyTick
  split
  next f c _ =>
    split
    · exact .inr ⟨f, rfl⟩
    · exact .inl rfl
  · exact .inl rfl

theorem keyTick_of_none (hs : s.hm.step = none) : s.keyTick = s := by
  rw [State.keyTick, hs]

theorem keyNextPrev_of_none {f : Nat} (hs : s.hm.step = none) :
    s.keyNextPrev f = s.onHm fun h => { h with step := some (f, s.clk) } := by
  rw [State.keyNextPrev, hs]

/-- A press of NEXT or PREV leaves keys, FIFO and counts. -/
theorem keyNextPrev_eq (s : State) (f : Nat) : s.keyNextPrev f = { s with hm := { s.hm with
    item := (s.keyNextPrev f).hm.item, held := (s.keyNextPrev f).hm.held, scrolling := (s.keyNextPrev f).hm.scrolling,
    itemClk := (s.keyNextPrev f).hm.itemClk, step := (s.keyNextPrev f).hm.step } } := by
  unfold State.keyNextPrev
  split
  · split <;> rfl
  · rfl

/-! ### The keys (R452, R453) -/

theorem execKey_of_off (hk : keyOn s k = false) :
    exec (.keyPress k) s = .next s ∧ exec (.keyRelease k) s = .next s ∧ exec (.keyLongPress k) s = .next s :=
  ⟨if_pos (by simp [hk]), if_pos (by simp [hk]), if_pos (by simp [hk])⟩

/-- The key `k` goes down and its event is counted. -/
def State.keyDown (s : State) (k : Fin 8) : State :=
  (s.keyTick.onHm fun h => { h with keys := modAt h.keys k fun _ => true, keyClk := modAt h.keyClk k fun _ => s.clk
                                    longs := modAt h.longs k fun _ => false }).keyEvent k 0

theorem execKeyPress_of_on (hk : keyOn s k = true) (hu : s.hm.keys.getD k false = false) :
    exec (.keyPress k) s = .next (if s.hm.segTest || !(keyFunc s k == 1 || keyFunc s k == 2) then s.keyDown k
      else (s.keyDown k).keyNextPrev (keyFunc s k)) := by
  have he : exec (.keyPress k) s = execKeyPress k s := rfl
  rw [he, execKeyPress, if_neg (by rw [hk, hu]; exact Bool.false_ne_true), apply_ite Host.Outcome.next]
  rfl

/-- From `s` to `t` the key `k` has gone down and its press is counted. -/
structure KeyPressed (s t : State) (k : Fin 8) : Prop where
  events : t.hm.keyEvents = u32 (s.hm.keyEvents + 1)
  keys : t.hm.keys = modAt s.hm.keys k fun _ => true
  keyClk : t.hm.keyClk = modAt s.hm.keyClk k fun _ => s.clk
  enters : s.hm.fifo.length < 16 → t.hm.fifo = s.hm.fifo ++ [⟨s.now80, k, 0⟩] ∧ t.hm.lost = s.hm.lost
  isLost : 16 ≤ s.hm.fifo.length → t.hm.fifo = s.hm.fifo ∧ t.hm.lost = u32 (s.hm.lost + 1)
  longs : t.hm.longs = modAt s.hm.longs k fun _ => false
  frame : Changes [.hm] s t

theorem keyDown_pressed (s : State) (k : Fin 8) : KeyPressed s (s.keyDown k) k := by
  have H (u : State) := keyEvent_hm (u.onHm fun h => { h with
    keys := modAt h.keys k fun _ => true, keyClk := modAt h.keyClk k fun _ => s.clk, longs := modAt h.longs k fun _ => false }) k 0
  have hc : Changes [.hm] s (s.keyDown k) := keyEvent_ch (onHm_ch (keyTick_ch (.refl _ _) rfl) rfl) rfl
  rw [State.keyDown] at hc ⊢
  rcases keyTick_hm s with ht | ⟨f, ht⟩ <;> rw [ht] at hc ⊢
  · exact ⟨(H s).events, (H s).keys, (H s).keyClk, (H s).enters, (H s).isLost, (H s).longs, hc⟩
  · have K := H (s.keyStep f)
    exact ⟨K.events, K.keys, K.keyClk, K.enters, K.isLost, K.longs, hc⟩

theorem keyDown_step (hn : s.hm.step = none) (k : Fin 8) : (s.keyDown k).hm.step = none := by
  rw [State.keyDown, (keyEvent_hm _ _ _).step, onHm_hm, keyTick_of_none hn]
  exact hn

theorem KeyPressed.keyNextPrev (H : KeyPressed s t k) (f : Nat) : KeyPressed s (t.keyNextPrev f) k := by
  refine ⟨?_, ?_, ?_, ?_, ?_, ?_, keyNextPrev_ch H.frame rfl⟩ <;> rw [keyNextPrev_eq]
  exacts [H.events, H.keys, H.keyClk, H.enters, H.isLost, H.longs]

theorem execKeyPress_brings (hk : keyOn s k = true) (hu : s.hm.keys.getD k false = false) : Gives (.keyPress k) s fun t =>
    KeyPressed s t k ∧
    (s.hm.step = none → s.hm.segTest = false → keyFunc s k = 1 ∨ keyFunc s k = 2 → t.hm.step = some (keyFunc s k, s.clk)) := by
  have H := keyDown_pressed s k
  refine ⟨_, execKeyPress_of_on hk hu, ?_⟩
  split
  next hc =>
    refine ⟨H, fun _ hs hf => absurd hc ?_⟩
    rcases hf with hf | hf <;> simp [hs, hf]
  next hc =>
    refine ⟨H.keyNextPrev _, fun hn _ _ => ?_⟩
    rw [keyNextPrev_of_none (keyDown_step hn k), onHm_hm, H.frame.clk rfl]

theorem execKeyRelease_brings (hk : keyOn s k = true) (hd : s.hm.keys.getD k false = true) : Gives (.keyRelease k) s fun t =>
    t.hm.keyEvents = u32 (s.hm.keyEvents + 1) ∧ t.hm.keys = modAt s.hm.keys k (fun _ => false) ∧
    (s.hm.fifo.length < 16 → t.hm.fifo = s.hm.fifo ++ [⟨s.now80, k, 1⟩]) ∧ t = { s with hm := t.hm } := by
  have H := keyEvent_hm (s.onHm fun h => { h with keys := modAt h.keys k fun _ => false }) k 1
  exact ⟨_, if_neg (by rw [hk, hd]; exact Bool.false_ne_true), H.events, H.keys, fun hlt => (H.enters hlt).1, rfl⟩

theorem execKeyLongPress_brings (hk : keyOn s k = true) (hd : s.hm.keys.getD k false = true)
    (hn : s.hm.longs.getD k false = false) (ha : s.after (s.hm.keyClk.getD k 0) (2 * cycS) = true) :
    Gives (.keyLongPress k) s fun t =>
      t.hm.longs = modAt s.hm.longs k (fun _ => true) ∧ t.hm.keyEvents = u32 (s.hm.keyEvents + 1) ∧
      (s.hm.fifo.length < 16 → t.hm.fifo = s.hm.fifo ++ [⟨s.now80, k, 2⟩]) ∧ (keyFunc s k = 3 → t.hm.segTest = true) ∧
      (keyFunc s k ≠ 3 → t.hm.segTest = s.hm.segTest) ∧ t = { s with hm := t.hm } := by
  have he : exec (.keyLongPress k) s = execKeyLongPress k s := rfl
  have H := keyEvent_hm (s.onHm fun h => { h with longs := modAt h.longs k fun _ => true }) k 2
  have hin := fun hlt => (H.enters hlt).1
  rw [Gives, he, execKeyLongPress, if_neg (by rw [hk, hd, hn, ha]; exact Bool.false_ne_true)]
  dsimp only
  split
  next hc =>
    have h3 : keyFunc s k = 3 := by simpa using (Bool.and_eq_true_iff.1 hc).1
    exact ⟨_, rfl, H.longs, H.events, hin, fun _ => rfl, fun hne => absurd h3 hne, rfl⟩
  next hc =>
    refine ⟨_, rfl, H.longs, H.events, hin, fun h3 => ?_, fun _ => H.segTest, rfl⟩
    rw [H.segTest]
    simpa [h3] using hc

/-- Settles O53: each request, instant and key is one update of the operator's state; a press of NEXT or PREV waits for the other
key where no step waits yet. -/
theorem displayAndKeys : Obligations.DisplayAndKeys := by
  intro s shows
  refine ⟨fun _ _ => execDisplayQuery_of_opens, fun _ _ => execDisplayShowItem_answers,
    fun _ _ => execDisplayResumeScroll_answers, fun _ _ => execSegmentTest_answers, execSegmentTestEnd_of_running,
    execSegmentTestEnd_of_over, fun _ => execDisplayScroll_of_due, execDisplayHoldExpiry_of_due, fun k hk hu => ?_,
    fun _ => execKeyRelease_brings, fun _ => execKeyLongPress_brings, fun _ => execKey_of_off, fun _ _ => execKeyRead_of_opens⟩
  obtain ⟨t, he, ⟨hev, hkeys, hclk, hin, hlost, hlongs, hf⟩, hstep⟩ := execKeyPress_brings hk hu
  exact ⟨t, he, hev, hkeys, hclk, hin, hlost, hstep, hlongs, hf.eq_pick⟩

end Sys2Proof.Machine
end

section
/-! LEMMAS. A write of bytes to one page of P5 that wraps inside it, whole or cut after some words, and the torn bit of a page (R339,
R342, R352 to R354). -/

namespace Sys2Proof.Machine

variable {s : State} {page offset : Nat} {bs data : List Byte}

/-! ### The torn bit of a page (R342, R354) -/

theorem bitAt_eq_testBit (v b : Nat) : bitAt v b = v.testBit b := by
  rw [bitAt, Nat.testBit_eq_decide_div_mod_eq]
  rfl

theorem tornBit_markTorn {m : List Host.Cell} {p : Nat} (on : Bool) (hp : p < 2048) : tornBit (markTorn m p on) p = on := by
  unfold markTorn
  split
  next h => exact beq_iff_eq.1 h
  next h =>
    have hlt : p % 8 < 8 := Nat.mod_lt _ (by decide)
    have hrd (v : Byte) : rdByte (wrBytes m (p / 8) [v]) (p / 8) = v :=
      rdByte_wrBytes_in (i := 0) [v] Nat.one_pos (Nat.lt_of_lt_of_le (Nat.div_lt_of_lt_mul hp) (by decide : 256 ≤ storeSize))
    unfold tornBit
    rw [hrd, BitVec.toNat_ofNat, bitAt_eq_testBit, Nat.testBit_mod_two_pow, decide_eq_true hlt, Bool.true_and, ← bitAt_eq_testBit]
    cases on with
    | true => exact bitAt_setBit_self _ _
    | false => exact bitAt_clrBit_self _ _

theorem rdByte_markTorn_of_ne {m : List Host.Cell} {p a : Nat} (on : Bool) (ha : a ≠ p / 8) :
    rdByte (markTorn m p on) a = rdByte m a := by
  unfold markTorn
  split
  · rfl
  · exact rdByte_wrBytes_out _ (by simp only [List.length_singleton]; omega)

/-! ### The words of a write (R339, R352) -/

theorem sum_range_min_four (m j : Nat) : ((List.range j).map fun k => Nat.min 4 (m - 4 * k)).sum = Nat.min (4 * j) m := by
  induction j with
  | zero => simp
  | succ j ih =>
    rw [List.range_succ, List.map_append, List.sum_append, ih, List.map_singleton, List.sum_singleton]
    simp only [Nat.min_def]
    split <;> split <;> split <;> omega

/-- The data bytes of the first `n` words of a write. -/
def wordBytes (offset count n : Nat) : Nat := ((wordChunks offset count).take n).foldl (· + ·) 0

/-- Bytes in the first word of a write. -/
def headBytes (offset count : Nat) : Nat := Nat.min (4 - offset % 4) count

theorem headBytes_le (offset count : Nat) : headBytes offset count ≤ count := Nat.min_le_right ..

theorem wordBytes_succ {count : Nat} (h : count ≠ 0) (offset n : Nat) : wordBytes offset count (n + 1) = headBytes offset count +
    Nat.min (4 * Nat.min n ((count - headBytes offset count + 3) / 4)) (count - headBytes offset count) := by
  rw [wordBytes, wordChunks, if_neg (by simpa using h), ← List.sum_eq_foldl, List.take_succ_cons, List.sum_cons, ← List.map_take,
    List.take_range, sum_range_min_four]
  rfl

theorem wordBytes_le (offset count n : Nat) : wordBytes offset count n ≤ count := by
  cases n with
  | zero => exact Nat.zero_le _
  | succ n =>
    by_cases h : count = 0
    · simp [wordBytes, wordChunks, h]
    · have hrest : Nat.min (4 * Nat.min n ((count - headBytes offset count + 3) / 4)) (count - headBytes offset count) ≤
        count - headBytes offset count := Nat.min_le_right ..
      have hhead := headBytes_le offset count
      rw [wordBytes_succ h]
      omega

/-- All words of a write hold all its bytes. -/
theorem wordBytes_length (offset count : Nat) : wordBytes offset count (wordChunks offset count).length = count := by
  by_cases h : count = 0
  · simp [wordBytes, wordChunks, h]
  · have hl : (wordChunks offset count).length = (count - headBytes offset count + 3) / 4 + 1 := by
      simp [wordChunks, headBytes, h]
    have hhead := headBytes_le offset count
    rw [hl, wordBytes_succ h]
    generalize headBytes offset count = f at hhead ⊢
    have hmin : Nat.min (4 * Nat.min ((count - f + 3) / 4) ((count - f + 3) / 4)) (count - f) = count - f := by
      rw [show Nat.min ((count - f + 3) / 4) ((count - f + 3) / 4) = _ from Nat.min_self _]
      exact Nat.min_eq_right (by omega)
    omega

/-! ### Bytes laid into a page of P5 (R352) -/

/-- From `s` to `t` the bytes `bs` stand in the page from the offset on, wrapping inside it, and every other byte of the store but
the page's byte of the torn bitmap reads as before. -/
structure LaidIn (s t : State) (page offset : Nat) (bs : List Byte) : Prop where
  inside : ∀ k < bs.length, rdByte t.hw.mem (pageAddr 5 page + (offset + k) % 256) = bs.getD k 0
  outside : ∀ a, a ≠ (1536 + page) / 8 → (∀ k < bs.length, a ≠ pageAddr 5 page + (offset + k) % 256) →
    rdByte t.hw.mem a = rdByte s.hw.mem a

theorem pageAddr_five (page : Nat) : pageAddr 5 page = (1536 + page) * 256 := rfl

/-- The parts of a write, laid one after the other. -/
theorem rdByte_nvParts (ho : offset ≤ 255) (m : List Host.Cell) (page : Nat) (bs : List Byte) (a : Nat) :
    rdByte ((nvParts page offset bs).foldl (fun m e => wrBytes m e.1 e.2) m) a =
      rdByte (wrBytes (wrBytes m (pageAddr 5 page + offset) (bs.take (256 - offset))) (pageAddr 5 page) (bs.drop (256 - offset))) a := by
  have hnil (m : List Host.Cell) (b : Nat) : rdByte (wrBytes m b []) a = rdByte m a := rdByte_wrBytes_out [] (by simp; omega)
  unfold nvParts
  cases bs with
  | nil => simp [hnil]
  | cons b bs =>
    obtain ⟨n, hn⟩ : ∃ n, 256 - offset = n + 1 := ⟨255 - offset, by omega⟩
    rw [hn]
    cases h2 : (b :: bs).drop (n + 1) <;> simp [hnil]

/-- The page that a write marks and unmarks is the one that it names. -/
theorem nvParts_page (ho : offset ≤ 255) (h0 : bs ≠ []) : ((nvParts page offset bs).headD (0, [])).1 / 256 = 1536 + page := by
  have hne : (bs.take (256 - offset)).isEmpty = false := by
    cases bs with
    | nil => exact absurd rfl h0
    | cons b bs =>
      obtain ⟨n, hn⟩ : ∃ n, 256 - offset = n + 1 := ⟨255 - offset, by omega⟩
      rw [hn]
      rfl
  simp only [nvParts, List.filter_cons, hne, Bool.not_false, if_true, List.headD_cons, pageAddr_five]
  omega

/-- Laying bytes into a page of P5 and unmarking it. -/
theorem wrPage_laidIn (hp : page ≤ 511) (ho : offset ≤ 255) (h0 : bs ≠ []) (hl : bs.length ≤ 256) :
    LaidIn s (s.wrPage (nvParts page offset bs)) page offset bs := by
  have hm : (s.wrPage (nvParts page offset bs)).hw.mem =
      markTorn ((nvParts page offset bs).foldl (fun m e => wrBytes m e.1 e.2) s.hw.mem) (1536 + page) false := by
    rw [← nvParts_page ho h0]
    rfl
  have hsize : storeSize = 524288 := rfl
  refine ⟨fun k hk => ?_, fun a ha hout => ?_⟩
  · rw [hm, rdByte_markTorn_of_ne false (by rw [pageAddr_five]; omega), rdByte_nvParts ho]
    by_cases hw : offset + k < 256
    · rw [Nat.mod_eq_of_lt hw, rdByte_wrBytes_out _ (by simp only [List.length_drop]; omega), ← Nat.add_assoc,
        rdByte_wrBytes_in _ (by simp only [List.length_take]; omega) (by rw [pageAddr_five]; omega)]
      simp [List.getD_eq_getElem?_getD, show k < 256 - offset by omega]
    · obtain ⟨j, rfl⟩ : ∃ j, k = 256 - offset + j := ⟨k - (256 - offset), by omega⟩
      have hj : (offset + (256 - offset + j)) % 256 = j := by omega
      rw [hj, rdByte_wrBytes_in _ (by simp only [List.length_drop]; omega) (by rw [pageAddr_five]; omega)]
      simp [List.getD_eq_getElem?_getD, List.getElem?_drop]
  · rw [hm, rdByte_markTorn_of_ne false ha, rdByte_nvParts ho]
    rw [rdByte_wrBytes_out, rdByte_wrBytes_out]
    · by_contra hin
      refine hout (a - (pageAddr 5 page + offset)) ?_ ?_ <;> simp only [List.length_take] at hin <;> omega
    · by_contra hin
      simp only [List.length_drop] at hin
      exact hout (256 - offset + (a - pageAddr 5 page)) (by omega) (by omega)

/-! ### NV_WRITE (R352 to R355) -/

/-- What NV_WRITE makes of the store: the bytes laid into the page, then the accesses counted, and the page listed as torn or taken
off the list. -/
def State.nvPut (s : State) (page offset : Nat) (bs : List Byte) (words : Nat) (cut : Bool) : State :=
  (if bs.length == 0 then s else s.wrPage (nvParts page offset bs)).onHw fun x =>
    { x with hostWrites := u32 (x.hostWrites + words), mem := if cut then markTorn x.mem (partFirst 5 + page) true else x.mem
             tornList := if cut then addPage x.tornList page else x.tornList.filter (· != page) }

theorem nvPut_frame (s : State) (page offset : Nat) (bs : List Byte) (words : Nat) (cut : Bool) :
    s.nvPut page offset bs words cut = { s with hw := (s.nvPut page offset bs words cut).hw } := by
  unfold State.nvPut
  split <;> rfl

theorem nvPut_hostWrites (s : State) (page offset : Nat) (bs : List Byte) (words : Nat) (cut : Bool) :
    (s.nvPut page offset bs words cut).hw.hostWrites = u32 (s.hw.hostWrites + words) := by
  unfold State.nvPut
  split <;> rfl

theorem nvPut_laidIn (hp : page ≤ 511) (ho : offset ≤ 255) (hl : bs.length ≤ 256) (words : Nat) (cut : Bool) :
    LaidIn s (s.nvPut page offset bs words cut) page offset bs := by
  have hput : LaidIn s (if bs.length == 0 then s else s.wrPage (nvParts page offset bs)) page offset bs := by
    split
    next h0 => exact ⟨fun k hk => absurd hk (by rw [beq_iff_eq.1 h0]; omega), fun _ _ _ => rfl⟩
    next h0 => exact wrPage_laidIn hp ho (fun h => h0 (by rw [h]; rfl)) hl
  unfold State.nvPut
  generalize (if bs.length == 0 then s else s.wrPage (nvParts page offset bs)) = x at hput
  cases cut with
  | false => exact ⟨hput.inside, hput.outside⟩
  | true =>
    have hrd {a : Nat} (ha : a ≠ (1536 + page) / 8) : rdByte (markTorn x.hw.mem (partFirst 5 + page) true) a = rdByte x.hw.mem a :=
      rdByte_markTorn_of_ne true ha
    refine ⟨fun k hk => (hrd ?_).trans (hput.inside k hk), fun a ha hout => (hrd ha).trans (hput.outside a ha hout)⟩
    rw [pageAddr_five]
    omega

theorem mem_addPage (l : List Nat) (p : Nat) : p ∈ addPage l p := by
  unfold addPage
  split
  next h => exact List.contains_iff_mem.1 h
  · exact List.mem_append_right _ (List.mem_singleton_self p)

theorem nvPut_tornList (s : State) (page offset : Nat) (bs : List Byte) (words : Nat) (cut : Bool) :
    page ∈ (s.nvPut page offset bs words cut).hw.tornList ↔ cut = true := by
  cases cut with
  | false => simp [State.nvPut]
  | true => simp [State.nvPut, mem_addPage]

theorem nvPut_tornBit (hp : page ≤ 511) {words : Nat} {cut : Bool} (h0 : cut = false → bs ≠ []) (ho : offset ≤ 255) :
    tornBit (s.nvPut page offset bs words cut).hw.mem (1536 + page) = cut := by
  cases cut with
  | true => exact tornBit_markTorn (p := 1536 + page) true (by omega)
  | false =>
    have hne : (bs.length == 0) = false := by simpa using h0 rfl
    have hm : (s.nvPut page offset bs words false).hw.mem = markTorn ((nvParts page offset bs).foldl
        (fun m e => wrBytes m e.1 e.2) s.hw.mem) (((nvParts page offset bs).headD (0, [])).1 / 256) false := by
      unfold State.nvPut
      rw [hne]
      rfl
    rw [hm, nvParts_page ho (h0 rfl)]
    exact tornBit_markTorn false (by omega)

section
variable {h : Hdr} (hop : Opens opNvWrite h s) (hlen : h.len = 8 + data.length) (hpf : pfailing (s.accepted h) = false)
  (hlk : locked (s.accepted h) = false) (hw : canWrite (s.accepted h) h.path 5 = true) (hp : page ≤ 511) (ho : offset ≤ 255)
  (h1 : 1 ≤ data.length) (h256 : data.length ≤ 256)
include hop hlen hpf hlk hw hp ho h1 h256

theorem execNvWrite_of_whole : exec (.nvWrite h 5 page offset data none) s =
    .next (((s.accepted h).nvPut page offset data (wordChunks offset data.length).length false).replied opNvWrite h .ok
      (le 2 data.length)) := by
  have hne : data ≠ [] := List.ne_nil_of_length_pos h1
  have hsum : (wordChunks offset data.length).foldl (· + ·) 0 = data.length := by
    simpa [wordBytes] using wordBytes_length offset data.length
  have he : exec (.nvWrite h 5 page offset data none) s = execNvWrite h 5 page offset data none s := rfl
  rw [he, execNvWrite, serve_opens hop (beq_iff_eq.2 hlen) 
    (by simp [firstFail, hpf, hlk, hw, Nat.not_lt.2 hp, Nat.not_lt.2 ho, Nat.not_lt.2 h256, hne])]
  simp only [Option.any_none, Bool.false_eq_true, if_false, hsum, List.take_length]
  rfl

theorem execNvWrite_of_cut {n : Nat} (hn : n < (wordChunks offset data.length).length) :
    exec (.nvWrite h 5 page offset data (some n)) s =
      .next (((s.accepted h).nvPut page offset (data.take (wordBytes offset data.length n)) n true).replied opNvWrite h
        .powerFailing (le 2 (wordBytes offset data.length n))) := by
  have hne : data ≠ [] := List.ne_nil_of_length_pos h1
  have hlen' : (data.take (wordBytes offset data.length n)).length = wordBytes offset data.length n := by
    rw [List.length_take, Nat.min_eq_left (wordBytes_le ..)]
  have hdone : ((wordChunks offset data.length).take n).length = n := by
    rw [List.length_take, Nat.min_eq_left hn.le]
  have he : exec (.nvWrite h 5 page offset data (some n)) s = execNvWrite h 5 page offset data (some n) s := rfl
  rw [he, execNvWrite, serve_opens hop (beq_iff_eq.2 hlen) 
    (by simp [firstFail, hpf, hlk, hw, Nat.not_lt.2 hp, Nat.not_lt.2 ho, Nat.not_lt.2 h256, hne]), State.nvPut,
    hlen']
  simp only [Option.any_some, decide_eq_true hn, if_true, Option.getD_some, hdone]
  rfl

end

/-! ### Power failure (R353) -/

theorem execNvWrite_of_pfail {h : Hdr} {part : Nat} {cut : Option Nat} (hop : Opens opNvWrite h s)
    (hlen : h.len = 8 + data.length) (hpf : pfailing (s.accepted h) = true) :
    exec (.nvWrite h part page offset data cut) s = .next ((s.accepted h).answer h 0x0902 .powerFailing (zeros 2)) :=
  congrArg _ (serve_refuses hop (beq_iff_eq.2 hlen) (by simp [firstFail, hpf]))

theorem execPasswordSet_of_pfail {h : Hdr} {part kind v : Nat} {o : Bool} (hop : Opens opPasswordSet h s) (hlen : h.len = 12)
    (hpf : pfailing (s.accepted h) = true) :
    exec (.passwordSet h part kind v o) s = .next ((s.accepted h).answer h 0x0905 .powerFailing (zeros 2)) :=
  congrArg _ (serve_refuses hop (beq_iff_eq.2 hlen) (by simp [firstFail, hpf]))

theorem getD_take {bs : List Byte} {n k : Nat} (h : k < n) : (bs.take n).getD k 0 = bs.getD k 0 := by
  simp [List.getD_eq_getElem?_getD, h]

/-- Settles O60: PFAIL is the first check of both requests, and a write cut short lays the bytes of its whole words. -/
theorem powerFailStopsStoreWrites : Obligations.PowerFailStopsStoreWrites := by
  refine fun s h => ⟨fun _ _ _ _ _ => execNvWrite_of_pfail, fun _ _ _ _ => execPasswordSet_of_pfail,
    fun page offset data n hop hlen hpf hlk hw hp ho h1 h256 hn =>
      ⟨_, _, execNvWrite_of_cut hop hlen hpf hlk hw hp ho h1 h256 hn, ?_⟩⟩
  rintro w rfl
  have hle := wordBytes_le offset data.length n
  have hl : (data.take (wordBytes offset data.length n)).length = wordBytes offset data.length n := by
    rw [List.length_take, Nat.min_eq_left hle]
  obtain ⟨hin, hout⟩ := nvPut_laidIn (s := s.accepted h) (bs := data.take (wordBytes offset data.length n)) hp ho
    (hl.trans_le (hle.trans h256)) n true
  rw [hl] at hin hout
  rw [accepted_hw] at hout
  exact ⟨rfl, fun k hk => (hin k hk).trans (getD_take hk), hout⟩

end Sys2Proof.Machine
end

section
/-! THEOREMS. NV_READ, NV_WRITE, NV_STATUS and the scrub (R338, R341, R351 to R355, R359, R360, Tables 15-7 and 15-10; O51). That more
than two inverted bits of a word read as an uncorrectable one is the model's choice (assumption 123). -/

namespace Sys2Proof.Machine

variable {s : State} {h : Hdr} {part page offset count a : Nat} {f : Flip} {o : ScrubIn}

/-! ### NV_READ (R341, R351, R359) -/

theorem sense_of_clean (hf : flipsIn s a count = []) : s.sense a count = s := by
  rw [State.sense, hf, List.foldl_nil]

/-- A range without inverted bits reads as the array holds it. -/
theorem peek_of_clean (hf : flipsIn s a count = []) : peek s a count = rdBytes s.hw.mem a count := by
  refine List.map_congr_left fun k hk => ?_
  have hk := List.mem_range.1 hk
  have hnone : s.hw.flips.find? (fun f => f.word == (a + k) / 4 && flipBad f) = none := by
    refine List.find?_eq_none.2 fun f hfl hb => ?_
    have hw : f.word = (a + k) / 4 := beq_iff_eq.1 (Bool.and_eq_true_iff.1 hb).1
    have hin : f ∈ flipsIn s a count := List.mem_filter.2 ⟨hfl, by simp only [hw, Bool.and_eq_true, decide_eq_true_eq]; omega⟩
    rw [hf] at hin
    cases hin
  rw [sensedByte, hnone]

theorem badIn_of_clean (hf : flipsIn s a count = []) : badIn s a count = [] := by
  rw [badIn, hf]
  rfl

theorem peek_accepted (s : State) (h : Hdr) : peek (s.accepted h) = peek s := by
  rw [peek_congr] <;> rw [accepted_hw]

theorem flipsIn_accepted (s : State) (h : Hdr) : flipsIn (s.accepted h) = flipsIn s := by
  funext a n
  rw [flipsIn, accepted_hw, flipsIn]

theorem badIn_accepted (s : State) (h : Hdr) : badIn (s.accepted h) = badIn s := by
  funext a n
  rw [badIn, flipsIn_accepted, badIn]

theorem execNvRead_answers (hop : Opens opNvRead h s) (hl : h.len = 8) (h1 : 1 ≤ part) (h5 : part ≤ 5)
    (hr : part = 3 ∨ canRead (s.accepted h) h.path part = true) (hp : page < partPages part) (ho : offset ≤ 255)
    (hc : 1 ≤ count) (hc2 : count ≤ 1024) (hend : page * 256 + offset + count ≤ partPages part * 256) :
    Answers (.nvRead h part page offset count) s opNvRead h .ok fun v bs =>
      bs.drop 6 = peek s (pageAddr part page + offset) count ∧
      bs.take 2 = le 2 (badIn s (pageAddr part page + offset) count).length ∧
      v = (s.accepted h).sense (pageAddr part page + offset) count ∧ v.hw.mem = s.hw.mem ∧
      v = { s.accepted h with hw := v.hw, wd := v.wd } ∧
      (flipsIn s (pageAddr part page + offset) count = [] → v = s.accepted h ∧
        bs = le 2 0 ++ le 2 0xFFFF ++ zeros 2 ++ rdBytes s.hw.mem (pageAddr part page + offset) count) := by
  have hsess : (sessParts.contains part && !canRead (s.accepted h) h.path part) = false := by
    rcases hr with rfl | hr
    · rfl
    · rw [hr, Bool.not_true, Bool.and_false]
  have hpart : (part == 0 || 5 < part : Bool) = false := by simpa using ⟨Nat.one_le_iff_ne_zero.1 h1, h5⟩
  have hrange : (255 < offset || count == 0 || 1024 < count || partPages part * 256 < page * 256 + offset + count : Bool) = false := by
    simpa using ⟨⟨⟨ho, Nat.one_le_iff_ne_zero.1 hc⟩, hc2⟩, hend⟩
  refine answers_of rfl hop (beq_iff_eq.2 hl) ?_ rfl ⟨?_, ?_, rfl, ?_, (sense_ch (.refl [.hw, .wd] _) rfl).eq_pick, fun hf => ?_⟩
  · simp only [firstFail, hsess, hpart, hrange, decide_eq_false (Nat.not_le.2 hp)]
    rfl
  · rw [peek_accepted]
    rfl
  · rw [badIn_accepted]
    rfl
  · rw [sense_mem, accepted_hw]
  · dsimp only
    rw [badIn_accepted, badIn_of_clean hf, peek_accepted, peek_of_clean hf]
    exact ⟨sense_of_clean (by rw [flipsIn_accepted]; exact hf), rfl⟩

/-! ### NV_WRITE (R352, R353) -/

/-- The clause on a write of O51, for the bytes that it lays into the page. -/
theorem nvPut_writes {data bs : List Byte} {n words : Nat} {cut : Bool} (hp : page ≤ 511) (ho : offset ≤ 255)
    (hn : n ≤ data.length) (h256 : data.length ≤ 256) (hbs : bs = data.take n) :
    let v := (s.accepted h).nvPut page offset bs words cut
    (∀ k < n, rdByte v.hw.mem (pageAddr 5 page + (offset + k) % 256) = data.getD k 0) ∧
      (∀ k, n ≤ k → k < 256 → rdByte v.hw.mem (pageAddr 5 page + (offset + k) % 256) =
        rdByte s.hw.mem (pageAddr 5 page + (offset + k) % 256)) ∧
      keepsBytes s v [((1536 + page) / 8, 1), (pageAddr 5 page, 256)] ∧ v = { s.accepted h with hw := v.hw } := by
  have hl : bs.length = n := by rw [hbs, List.length_take, Nat.min_eq_left hn]
  obtain ⟨hin, hout⟩ := nvPut_laidIn (s := s.accepted h) (bs := bs) hp ho (hl.trans_le (hn.trans h256)) words cut
  rw [hl] at hin hout
  rw [accepted_hw] at hout
  refine ⟨fun k hk => (hin k hk).trans (by rw [hbs, getD_take hk]), fun k hk hk2 => hout _ ?_ fun j hj => ?_, fun b hb => hout b ?_ fun j hj => ?_,
    nvPut_frame ..⟩
  · rw [pageAddr_five]
    omega
  · omega
  · have := hb _ (List.mem_cons_self ..)
    dsimp only at this
    omega
  · have := hb _ (List.mem_cons_of_mem _ (List.mem_cons_self ..))
    dsimp only at this
    omega

/-! ### NV_STATUS (R355) -/

theorem execNvStatusQuery_of_opens (hop : Opens opNvStatus h s) (hl : h.len = 4) : exec (.nvStatusQuery h false) s =
    .next ((s.accepted h).replied opNvStatus h .ok (nvStatusReply (s.accepted h))) :=
  congrArg _ (serve_opens hop (beq_iff_eq.2 hl) rfl)

theorem foldl_markTorn_out {l : List Nat} {b : Nat} (h : ∀ p ∈ l, b ≠ (partFirst 5 + p) / 8) (m : List Host.Cell) :
    rdByte (l.foldl (fun m p => markTorn m (partFirst 5 + p) false) m) b = rdByte m b := by
  induction l generalizing m with
  | nil => rfl
  | cons p l ih =>
    rw [List.foldl_cons, ih fun q hq => h q (List.mem_cons_of_mem _ hq), rdByte_markTorn_of_ne false (h p (List.mem_cons_self ..))]

theorem execNvStatusAcknowledge_answers (hop : Opens opNvStatus h s) (hl : h.len = 4)
    (hw : canWrite (s.accepted h) h.path 5 = true) (hp : page ≤ 511 ∨ page = 0xFFFF) (ht : ∀ p ∈ s.hw.tornList, p ≤ 511) :
    Answers (.nvStatusAcknowledge h 5 page) s opNvStatus h .ok fun v bs =>
      v.hw.tornList = (if page = 0xFFFF then [] else s.hw.tornList.filter (fun p => p != page)) ∧ bs = nvStatusReply v ∧
      keepsBytes s v [(192, 64)] ∧ v = { s.accepted h with hw := { s.hw with tornList := v.hw.tornList, mem := v.hw.mem } } := by
  have hpage : (511 < page && page != 0xFFFF : Bool) = false := by
    rcases hp with hp | rfl
    · simp [Nat.not_lt.2 hp]
    · rfl
  refine answers_of rfl hop (beq_iff_eq.2 hl) (by simp [firstFail, hw, hpage]) rfl ⟨?_, rfl, fun b hb => ?_, ?_⟩
  · simp only [accepted_hw, onHw_hw]
    split
    next he => simp [he]
    next he =>
      refine List.filter_congr fun p hp => ?_
      simp [he, hp, bne, beq_eq_decide]
  · simp only [accepted_hw, onHw_hw]
    refine foldl_markTorn_out (fun p hp => ?_) _
    have hle := ht p (List.mem_filter.1 hp).1
    have := hb _ (List.mem_singleton_self _)
    have h5 : partFirst 5 = 1536 := rfl
    dsimp only at this
    omega
  · rw [← accepted_hw s h]
    rfl

/-! ### The scrub (R359, R360) -/

/-- The words disturbed up to now show it, and the rewrites that wait are carried out. -/
def State.refreshed (s : State) (o : ScrubIn) : State :=
  (s.onHw fun h => { h with flips := o.disturbed.foldl addFlip h.flips }).rewriteAll

/-- The scrub's position moves on. -/
def State.scrubMoved (s : State) (o : ScrubIn) : State :=
  (s.refreshed o).onHw fun h =>
    if s.hw.scrubPos + 1 == storeWords then
      { h with scrubRunning := true, scrubClk := s.clk, scrubPos := 0, scrubPasses := u32 (h.scrubPasses + 1) }
    else { h with scrubRunning := true, scrubClk := s.clk, scrubPos := s.hw.scrubPos + 1 }

/-- From `s` to `t` the scrub has done the rewrites that wait and has moved on, and no byte has changed. -/
structure ScrubMoved (s t : State) (o : ScrubIn) : Prop where
  clk : t.hw.scrubClk = s.clk
  pos : t.hw.scrubPos = if s.hw.scrubPos + 1 = storeWords then 0 else s.hw.scrubPos + 1
  mem : t.hw.mem = s.hw.mem
  flips : t.hw.flips = (s.refreshed o).hw.flips
  refreshed : t.hw.refreshed = (s.refreshed o).hw.refreshed
  frame : Changes [.hw, .wd] s t

theorem scrubMoved_moved (s : State) (o : ScrubIn) : ScrubMoved s (s.scrubMoved o) o := by
  have hc : Changes [.hw, .wd] s (s.refreshed o) := rewriteAll_ch (onHw_ch (.refl _ _) rfl) rfl
  unfold State.scrubMoved
  split
  next h => exact ⟨rfl, (if_pos (beq_iff_eq.1 h)).symm, rfl, rfl, rfl, onHw_ch hc rfl⟩
  next h => exact ⟨rfl, (if_neg fun e => h (beq_iff_eq.2 e)).symm, rfl, rfl, rfl, onHw_ch hc rfl⟩

theorem flipsIn_scrubMoved (s : State) (o : ScrubIn) (a n : Nat) :
    flipsIn (s.scrubMoved o) a n = flipsIn (s.refreshed o) a n := by
  rw [flipsIn, (scrubMoved_moved s o).flips, flipsIn]

theorem execScrubRead_of_due (h2 : 2 ≤ s.pw.stage) (hd : s.after s.hw.scrubClk (scrubPace s) = true) :
    exec (.scrubRead o) s = if scrubSkips s (s.hw.scrubPos / 64) then .next (s.scrubMoved o)
      else if (flipsIn (s.refreshed o) (4 * s.hw.scrubPos) 4).isEmpty && o.weak then
        .next ((s.scrubMoved o).onHw fun h => { h with rewrites := h.rewrites ++ [(s.hw.scrubPos, true)] })
      else .next ((s.scrubMoved o).sense (4 * s.hw.scrubPos) 4) := by
  have he : exec (.scrubRead o) s = execScrubRead o s := rfl
  have hd' : (s.onHw fun h => { h with flips := o.disturbed.foldl addFlip h.flips }).after s.hw.scrubClk
      (scrubPace (s.onHw fun h => { h with flips := o.disturbed.foldl addFlip h.flips })) = true := hd
  rw [he, execScrubRead, ← flipsIn_scrubMoved]
  dsimp only
  rw [if_neg (by simpa [Nat.not_lt.2 h2] using hd')]
  rfl

/-- A read of one word that shows inverted bits counts it as corrected or uncorrectable, and logs it. -/
theorem senseFlip_brings (s : State) (f : Flip) : (s.senseFlip f).hw.mem = s.hw.mem ∧ (s.senseFlip f).hw.flips = s.hw.flips ∧
    (s.senseFlip f).hw.refreshed = s.hw.refreshed ∧ (s.senseFlip f).hw.scrubClk = s.hw.scrubClk ∧
    (s.senseFlip f).hw.scrubPos = s.hw.scrubPos ∧
    (flipBad f = false → (s.senseFlip f).hw.eccCorrected = u32 (s.hw.eccCorrected + 1) ∧
      (s.senseFlip f).hw.rewrites = s.hw.rewrites.filter (·.1 != f.word) ++ [(f.word, false)]) ∧
    (flipBad f = true → (s.senseFlip f).hw.eccUncorrectable = u32 (s.hw.eccUncorrectable + 1) ∧
      (s.senseFlip f).hw.uncorrSeen = true ∧ (s.senseFlip f).hw.rewrites = s.hw.rewrites) ∧
    (s.wd.buffer.length < 256 → ∃ e, e.code = (if flipBad f then 0x0906 else 0x0905) ∧
      (s.senseFlip f).wd.buffer = s.wd.buffer ++ [e]) := by
  have hlog (x : State) (c : Nat) (d : List Byte) (hx : x.wd = s.wd) (hb : s.wd.buffer.length < 256) :
      ∃ e, e.code = c ∧ (x.log c d).wd.buffer = s.wd.buffer ++ [e] := by
    rw [log_of_room (by rw [hx]; exact hb), hx]
    exact ⟨_, rfl, rfl⟩
  unfold State.senseFlip State.uncorrectable
  cases hb : flipBad f with
  | true =>
    simp only [if_true, log_hw]
    exact ⟨rfl, rfl, rfl, rfl, rfl, nofun, fun _ => ⟨rfl, rfl, rfl⟩, hlog _ _ _ rfl⟩
  | false =>
    simp only [Bool.false_eq_true, if_false, log_hw]
    exact ⟨rfl, rfl, rfl, rfl, rfl, fun _ => ⟨rfl, rfl⟩, nofun, hlog _ _ _ rfl⟩

theorem ScrubMoved.senseFlip {t : State} (H : ScrubMoved s t o) (f : Flip) : ScrubMoved s (t.senseFlip f) o := by
  obtain ⟨hmem, hflips, href, hclk, hpos, -⟩ := senseFlip_brings t f
  obtain ⟨kclk, kpos, kmem, kflips, kref, hc⟩ := H
  exact ⟨hclk.trans kclk, hpos.trans kpos, hmem.trans kmem, hflips.trans kflips, href.trans kref, senseFlip_ch hc rfl⟩

theorem ScrubMoved.sense {t : State} (H : ScrubMoved s t o) (a n : Nat) : ScrubMoved s (t.sense a n) o :=
  List.foldlRecOn (motive := fun x => ScrubMoved s x o) _ _ H fun _ h f _ => h.senseFlip f

/-- What a scrub read leaves where the word that it reads shows no inverted bit, or is passed over. -/
structure ScrubQuiet (s t : State) (rewrites : List (Nat × Bool)) : Prop where
  rewrites : t.hw.rewrites = rewrites
  eccCorrected : t.hw.eccCorrected = s.hw.eccCorrected
  eccUncorrectable : t.hw.eccUncorrectable = s.hw.eccUncorrectable
  wd : t.wd = s.wd

theorem scrubMoved_quiet (s : State) (o : ScrubIn) : ScrubQuiet s (s.scrubMoved o) [] := by
  unfold State.scrubMoved
  split <;> exact ⟨rfl, rfl, rfl, rfl⟩

theorem execScrubRead_of_skip (h2 : 2 ≤ s.pw.stage) (hd : s.after s.hw.scrubClk (scrubPace s) = true)
    (hs : scrubSkips s (s.hw.scrubPos / 64) = true) :
    Gives (.scrubRead o) s fun t => ScrubMoved s t o ∧ ScrubQuiet s t [] := by
  have he := execScrubRead_of_due (o := o) h2 hd
  rw [hs, if_pos rfl] at he
  exact ⟨_, he, scrubMoved_moved s o, scrubMoved_quiet s o⟩

theorem execScrubRead_of_clean (h2 : 2 ≤ s.pw.stage) (hd : s.after s.hw.scrubClk (scrubPace s) = true)
    (hs : scrubSkips s (s.hw.scrubPos / 64) = false) (hf : flipsIn (s.refreshed o) (4 * s.hw.scrubPos) 4 = []) :
    Gives (.scrubRead o) s fun t => ScrubMoved s t o ∧ ScrubQuiet s t (if o.weak then [(s.hw.scrubPos, true)] else []) := by
  have hm := scrubMoved_moved s o
  have hq := scrubMoved_quiet s o
  have he := execScrubRead_of_due (o := o) h2 hd
  rw [hs, if_neg Bool.false_ne_true, hf, sense_of_clean (by rw [flipsIn_scrubMoved, hf]), List.isEmpty_nil, Bool.true_and] at he
  cases hw : o.weak with
  | true =>
    rw [hw, if_pos rfl] at he
    exact ⟨_, he, ⟨hm.clk, hm.pos, hm.mem, hm.flips, hm.refreshed, onHw_ch hm.frame rfl⟩,
      congrArg (· ++ [(s.hw.scrubPos, true)]) hq.rewrites, hq.eccCorrected, hq.eccUncorrectable, hq.wd⟩
  | false =>
    rw [hw, if_neg Bool.false_ne_true] at he
    exact ⟨_, he, hm, hq⟩

theorem execScrubRead_of_flips (h2 : 2 ≤ s.pw.stage) (hd : s.after s.hw.scrubClk (scrubPace s) = true)
    (hs : scrubSkips s (s.hw.scrubPos / 64) = false) (hf : flipsIn (s.refreshed o) (4 * s.hw.scrubPos) 4 ≠ []) :
    exec (.scrubRead o) s = .next ((s.scrubMoved o).sense (4 * s.hw.scrubPos) 4) := by
  have he := execScrubRead_of_due (o := o) h2 hd
  have hne : (flipsIn (s.refreshed o) (4 * s.hw.scrubPos) 4).isEmpty = false := by simpa using hf
  rwa [hs, if_neg Bool.false_ne_true, hne, Bool.false_and, if_neg Bool.false_ne_true] at he

/-- The one word with inverted bits that a scrub read comes upon is counted and logged, and rewritten where it can be corrected. -/
theorem scrubMoved_sense (hf : flipsIn (s.refreshed o) a count = [f]) :
    let t := (s.scrubMoved o).sense a count
    (flipBad f = false → t.hw.eccCorrected = u32 (s.hw.eccCorrected + 1) ∧ t.hw.rewrites = [(f.word, false)]) ∧
      (flipBad f = true → t.hw.eccUncorrectable = u32 (s.hw.eccUncorrectable + 1) ∧ t.hw.uncorrSeen = true ∧
        t.hw.rewrites = []) ∧
      (s.wd.buffer.length < 256 →
        ∃ e, e.code = (if flipBad f then 0x0906 else 0x0905) ∧ t.wd.buffer = s.wd.buffer ++ [e]) := by
  have hone : (s.scrubMoved o).sense a count = (s.scrubMoved o).senseFlip f := by
    rw [State.sense, flipsIn_scrubMoved, hf, List.foldl_cons, List.foldl_nil]
  obtain ⟨hrw, hcor, hunc, hwd⟩ := scrubMoved_quiet s o
  obtain ⟨-, -, -, -, -, hgood, hbad, hlog⟩ := senseFlip_brings (s.scrubMoved o) f
  rw [hrw, hcor] at hgood
  rw [hrw, hunc] at hbad
  rw [hwd] at hlog
  rw [hone]
  exact ⟨hgood, hbad, hlog⟩

/-- Settles O51: what each request and the scrub make of the store is one update of it, behind which the rest stays. -/
theorem storeIsReadWrittenAndScrubbed : Obligations.StoreIsReadWrittenAndScrubbed := by
  intro s
  refine ⟨fun h part page offset count => execNvRead_answers, fun h page offset data hop hlen hpf hlk hw hp ho h1 h256 => ⟨?_, ?_⟩,
    fun h => execNvStatusQuery_of_opens, fun h page => execNvStatusAcknowledge_answers, fun h2 hd o => ?_⟩
  · refine ⟨_, _, execNvWrite_of_whole hop hlen hpf hlk hw hp ho h1 h256, rfl,
      nvPut_writes hp ho le_rfl h256 (List.take_length).symm, ?_, ?_, ?_⟩
    · simp [nvPut_tornList]
    · exact nvPut_tornBit hp (fun _ => List.ne_nil_of_length_pos h1) ho
    · rw [nvPut_hostWrites, accepted_hw]
  · intro n hn
    refine ⟨_, _, execNvWrite_of_cut hop hlen hpf hlk hw hp ho h1 h256 hn, rfl,
      nvPut_writes hp ho (wordBytes_le ..) h256 rfl, ?_, ?_, ?_⟩
    · simp [nvPut_tornList]
    · exact nvPut_tornBit hp nofun ho
    · rw [nvPut_hostWrites, accepted_hw]
  · cases hs : scrubSkips s (s.hw.scrubPos / 64) with
    | true =>
      obtain ⟨t, he, hm, hq⟩ := execScrubRead_of_skip (o := o) h2 hd hs
      exact ⟨t, he, ⟨hm.clk, hm.pos, hm.mem, hm.flips, hm.refreshed, hm.frame.eq_pick⟩,
        fun _ => ⟨hq.rewrites, hq.eccCorrected, hq.eccUncorrectable, hq.wd⟩,
        fun hn => Bool.noConfusion (hs.symm.trans hn), fun _ hn => Bool.noConfusion (hs.symm.trans hn)⟩
    | false =>
      by_cases hf : flipsIn (s.refreshed o) (4 * s.hw.scrubPos) 4 = []
      · obtain ⟨t, he, hm, hq⟩ := execScrubRead_of_clean (o := o) h2 hd hs hf
        exact ⟨t, he, ⟨hm.clk, hm.pos, hm.mem, hm.flips, hm.refreshed, hm.frame.eq_pick⟩,
          fun hn => Bool.noConfusion (hs.symm.trans hn), fun _ _ => ⟨hq.rewrites, hq.eccCorrected, hq.eccUncorrectable, hq.wd⟩,
          fun f _ hone => absurd (hone.symm.trans hf) (List.cons_ne_nil _ _)⟩
      · have hm := (scrubMoved_moved s o).sense (4 * s.hw.scrubPos) 4
        exact ⟨_, execScrubRead_of_flips h2 hd hs hf, ⟨hm.clk, hm.pos, hm.mem, hm.flips, hm.refreshed, hm.frame.eq_pick⟩,
          fun hn => Bool.noConfusion (hs.symm.trans hn), fun _ hnil => absurd hnil hf, fun f _ hone => scrubMoved_sense hone⟩

end Sys2Proof.Machine
end

section
/-! LEMMAS. What the raise of tamper sources and the following of a condition make of the slots, and what they leave of the tamper state
and of the sessions (R390, R394, R395, R399). -/

namespace Sys2Proof.Machine

variable {z s t : State} {l : List Raise} {k n c : Nat} {holds : Bool}

/-! ### One slot -/

theorem onSlot_slot_self (hn : n < s.tp.slots.length) (f : Slot → Slot) : (s.onSlot n f).slot n = f (s.slot n) :=
  modAt_getD_self _ _ _ _ hn

theorem onSlot_slot_ne (hk : k ≠ n) (f : Slot → Slot) : (s.onSlot n f).slot k = s.slot k := modAt_getD_ne _ _ _ _ _ hk

theorem onSlot_slots_length (n : Nat) (f : Slot → Slot) : (s.onSlot n f).tp.slots.length = s.tp.slots.length := modAt_length ..

theorem slot_congr (h : t.tp.slots = s.tp.slots) (k : Nat) : t.slot k = s.slot k := by rw [State.slot, h, State.slot]

theorem log_slot (s : State) (c : Nat) (d : List Byte) (k : Nat) : (s.log c d).slot k = s.slot k := slot_congr (by rw [log_tp]) k

/-- What a raise makes of a slot (R390). -/
def raisedSlot (s : State) (r : Raise) (x : Slot) : Slot :=
  { x with active := r.holds, latched := true, onVbat := s.pw.stage == 0, count := u32 (x.count + 1), last := r.time
           persisting := false }

theorem latchRaise_slot_self {r : Raise} (hn : r.slot < s.tp.slots.length) :
    (s.latchRaise r).slot r.slot = raisedSlot s r (s.slot r.slot) := onSlot_slot_self hn _

theorem latchRaise_slot_ne {r : Raise} (hk : k ≠ r.slot) : (s.latchRaise r).slot k = s.slot k := onSlot_slot_ne hk _

/-! ### Raises taken together -/

/-- From `z` to `t` a raise keeps, of the sessions, lockouts and passwords. -/
structure KeepsAccess (z t : State) : Prop where
  locks : t.se.locks = z.se.locks
  pws : t.se.pws = z.se.pws

theorem KeepsAccess.of_changes {q : List Part} (H : KeepsAccess z s) (h : Changes q s t) (hq : q.contains .se = false) :
    KeepsAccess z t := ⟨by rw [h.se hq, H.locks], by rw [h.se hq, H.pws]⟩

theorem respond_keepsAccess (s : State) (n : Nat) : KeepsAccess s (s.respond n) := by
  unfold State.respond
  extract_lets s1
  have h1 : KeepsAccess s s1 := by
    unfold s1
    split
    · refine KeepsAccess.of_changes (q := [.wd, .hm, .me]) (s := s.onSe fun e => { e with open_ := e.open_.filter fun x => !x.write })
        ⟨rfl, rfl⟩ ?_ rfl
      exact onHm_ch (endCfTest_ch (.refl _ _) rfl) rfl
    · exact ⟨rfl, rfl⟩
  split
  · exact h1.of_changes (irq_ch (.refl [.lk] _) rfl) rfl
  · exact h1

/-- The tamper state but for slots, challenge and the queue of Clearings. -/
def Tamper.aside (t : Tamper) : Tamper := { t with slots := [], challenge := [], clearQueue := [] }

theorem foldl_latchRaise_aside (s : State) (l : List Raise) : (l.foldl State.latchRaise s).tp.aside = s.tp.aside :=
  List.foldlRecOn (motive := fun x : State => x.tp.aside = s.tp.aside) _ _ rfl fun _ h _ _ => h

/-- The state in which the sources of some raises are latched, outside power-up with their new challenges. -/
theorem foldl_newChallenge_tp (s : State) (l : List Raise) : (l.foldl (fun x _ => x.newChallenge) s).tp.aside = s.tp.aside ∧
    (l.foldl (fun x _ => x.newChallenge) s).tp.slots = s.tp.slots :=
  List.foldlRecOn (motive := fun x : State => x.tp.aside = s.tp.aside ∧ x.tp.slots = s.tp.slots) _ _ ⟨rfl, rfl⟩
    fun _ h _ _ => h

theorem foldl_bufferRaise_slots (s : State) (l : List Raise) :
    (l.foldl (fun x r => x.bufferRaise r.slot) s).tp.slots = s.tp.slots :=
  List.foldlRecOn (motive := fun x : State => x.tp.slots = s.tp.slots) _ _ rfl fun x h r _ => by
    rw [← h]
    unfold State.bufferRaise State.onTp
    dsimp only
    split <;> rfl

/-- Raises latch their sources, and touch no other slot. -/
theorem raiseAll_slots (s : State) (l : List Raise) : (s.raiseAll l).tp.slots = (l.foldl State.latchRaise s).tp.slots := by
  unfold State.raiseAll
  extract_lets s1 mask s2 s3
  have h2 : s2.tp.slots = s1.tp.slots := foldl_bufferRaise_slots s1 l
  have h3 : s3.tp.slots = s1.tp.slots := by
    rw [(respond_ch (.refl [.se, .lk, .wd, .hm, .me] _) rfl).tp rfl, (foldl_newChallenge_tp s1 l).2]
  have hlog : (l.foldl State.logRaise s3).tp = s3.tp :=
    (ch_foldl (fun _ _ h => logRaise_ch h rfl) (.refl [.wd] s3)).tp rfl
  split
  · split
    · exact h2
    · exact h2
  · split
    · rw [hlog, h3]
    · exact h3

/-- Outside power-up, raises touch slots, challenge and the queue of Clearings alone. -/
theorem raiseAll_aside (h : s.pw.stage ≠ 0) (l : List Raise) : (s.raiseAll l).tp.aside = s.tp.aside := by
  unfold State.raiseAll
  extract_lets s1 mask s2 s3
  have h3 : s3.tp.aside = s.tp.aside := by
    rw [(respond_ch (.refl [.se, .lk, .wd, .hm, .me] _) rfl).tp rfl, (foldl_newChallenge_tp s1 l).1, foldl_latchRaise_aside]
  have hlog : (l.foldl State.logRaise s3).tp = s3.tp :=
    (ch_foldl (fun _ _ h => logRaise_ch h rfl) (.refl [.wd] s3)).tp rfl
  rw [if_neg (by simpa using h)]
  split
  · rw [hlog, h3]
  · exact h3

theorem raiseAll_keepsAccess (s : State) (l : List Raise) : KeepsAccess s (s.raiseAll l) := by
  unfold State.raiseAll
  extract_lets s1 mask s2 s3
  have h1 : Changes [.tp, .free] s s1 := ch_foldl (fun _ _ h => latchRaise_ch h rfl) (.refl _ s)
  have h2 : Changes [.tp, .free] s s2 := ch_foldl (fun _ _ h => bufferRaise_ch h rfl) h1
  have h3 : KeepsAccess s s3 := by
    have hc : Changes [.tp, .free] s (l.foldl (fun x _ => x.newChallenge) s1) := ch_foldl (fun _ _ h => newChallenge_ch h rfl) h1
    obtain ⟨hl, hp⟩ := respond_keepsAccess (l.foldl (fun x _ => x.newChallenge) s1) (l.foldl (fun a r => Nat.max a r.resp) 0)
    exact ⟨by rw [hl, hc.se rfl], by rw [hp, hc.se rfl]⟩
  split
  · split
    · exact ⟨by rw [h2.se rfl], by rw [h2.se rfl]⟩
    · exact ⟨by rw [onTp_se, h2.se rfl], by rw [onTp_se, h2.se rfl]⟩
  · split
    · exact h3.of_changes (ch_foldl (fun _ _ h => logRaise_ch h rfl) (.refl [.wd] s3)) rfl
    · exact h3.of_changes (onTp_ch (.refl [.tp] s3) rfl) rfl

theorem tamperRaise_slots (s : State) (n c : Nat) (holds : Bool) :
    (s.tamperRaise n c holds).tp.slots = (s.latchRaise (raiseOf s n c holds)).tp.slots := raiseAll_slots s _

theorem tamperRaise_slot_self (hn : n < s.tp.slots.length) (c : Nat) (holds : Bool) :
    (s.tamperRaise n c holds).slot n = raisedSlot s (raiseOf s n c holds) (s.slot n) :=
  (slot_congr (tamperRaise_slots s n c holds) n).trans (latchRaise_slot_self (r := raiseOf s n c holds) hn)

theorem tamperRaise_slot_ne (hk : k ≠ n) (c : Nat) (holds : Bool) : (s.tamperRaise n c holds).slot k = s.slot k :=
  (slot_congr (tamperRaise_slots s n c holds) k).trans (latchRaise_slot_ne (r := raiseOf s n c holds) hk)

/-! ### A source ceases (R394) -/

theorem tamperClear_aside (s : State) (n c : Nat) : (s.tamperClear n c).tp.aside = s.tp.aside := by rw [tamperClear_eq]; rfl

theorem tamperClear_se (s : State) (n c : Nat) : (s.tamperClear n c).se = s.se := by rw [tamperClear_eq]

theorem tamperClear_slot_ne (hk : k ≠ n) (c : Nat) : (s.tamperClear n c).slot k = s.slot k := by
  unfold State.tamperClear
  split
  · exact onSlot_slot_ne hk _
  · split
    · rw [log_slot, onSlot_slot_ne hk]
    · rfl

/-- A source that ceases is no longer ACTIVE; where it does not persist, nothing else of its slot changes. -/
theorem tamperClear_slot_self (hn : n < s.tp.slots.length) (hp : (s.slot n).persisting = false) (c : Nat) :
    (s.tamperClear n c).slot n = { s.slot n with active := false } := by
  have hoff : (s.onSlot n fun x => { x with active := false, persisting := false }).slot n = { s.slot n with active := false } := by
    rw [onSlot_slot_self hn, ← hp]
  unfold State.tamperClear
  split
  · exact hoff
  · split
    · rw [log_slot, hoff]
    next ha =>
      have ha : (s.slot n).active = false := by simpa using ha
      rw [← ha]

/-! ### The condition of a source is followed (R390) -/

theorem tamperCond_of_early (h : s.pw.stage < slotFrom.getD n 5) (c : Nat) (holds : Bool) : s.tamperCond n c holds = s :=
  if_pos h

theorem tamperCond_of_held (h : slotFrom.getD n 5 ≤ s.pw.stage) (hh : (s.slot n).active = true ∨ (s.slot n).persisting = true)
    (c : Nat) : s.tamperCond n c true = s := by
  unfold State.tamperCond
  dsimp only
  rw [if_neg (Nat.not_lt.2 h), if_pos rfl, if_pos (by simpa using hh)]

theorem tamperCond_of_new (h : slotFrom.getD n 5 ≤ s.pw.stage) (hp : persistMs s n = 0) (ha : (s.slot n).active = false)
    (hs : (s.slot n).persisting = false) (c : Nat) : s.tamperCond n c true = s.tamperRaise n c true := by
  unfold State.tamperCond
  dsimp only
  rw [if_neg (Nat.not_lt.2 h), if_pos rfl, if_neg (by simp [ha, hs]), if_pos (by simp [hp])]

theorem tamperCond_of_persisting (h : slotFrom.getD n 5 ≤ s.pw.stage) (hp : persistMs s n ≠ 0) (ha : (s.slot n).active = false)
    (hs : (s.slot n).persisting = false) (c : Nat) :
    s.tamperCond n c true = s.onSlot n fun y => { y with persisting := true, since := s.clk } := by
  unfold State.tamperCond
  dsimp only
  rw [if_neg (Nat.not_lt.2 h), if_pos rfl, if_neg (by simp [ha, hs]), if_neg (by simpa using hp)]

theorem tamperCond_of_ceased (h : slotFrom.getD n 5 ≤ s.pw.stage) (c : Nat) :
    s.tamperCond n c false = (s.onSlot n fun y => { y with persisting := false }).tamperClear n c := by
  unfold State.tamperCond
  dsimp only
  rw [if_neg (Nat.not_lt.2 h), if_neg Bool.false_ne_true]

/-- What following a condition comes down to. -/
theorem tamperCond_cases (s : State) (n c : Nat) (holds : Bool) : s.tamperCond n c holds = s ∨
    s.tamperCond n c holds = s.tamperRaise n c true ∨
    (∃ f, s.tamperCond n c holds = s.onSlot n f) ∨
    s.tamperCond n c holds = (s.onSlot n fun y => { y with persisting := false }).tamperClear n c := by
  unfold State.tamperCond
  dsimp only
  split
  · exact .inl rfl
  · split
    · split
      · exact .inl rfl
      · split
        · exact .inr (.inl rfl)
        · exact .inr (.inr (.inl ⟨_, rfl⟩))
    · exact .inr (.inr (.inr rfl))

theorem tamperCond_slot_ne (hk : k ≠ n) (c : Nat) (holds : Bool) : (s.tamperCond n c holds).slot k = s.slot k := by
  rcases tamperCond_cases s n c holds with h | h | ⟨f, h⟩ | h <;> rw [h]
  · exact tamperRaise_slot_ne hk c true
  · exact onSlot_slot_ne hk f
  · rw [tamperClear_slot_ne hk, onSlot_slot_ne hk]

theorem tamperCond_aside (h0 : s.pw.stage ≠ 0) (n c : Nat) (holds : Bool) : (s.tamperCond n c holds).tp.aside = s.tp.aside := by
  rcases tamperCond_cases s n c holds with h | h | ⟨f, h⟩ | h <;> rw [h]
  · exact raiseAll_aside h0 _
  · rfl
  · rw [tamperClear_aside]
    rfl

theorem tamperCond_keepsAccess (s : State) (n c : Nat) (holds : Bool) : KeepsAccess s (s.tamperCond n c holds) := by
  rcases tamperCond_cases s n c holds with h | h | ⟨f, h⟩ | h <;> rw [h]
  · exact ⟨rfl, rfl⟩
  · exact raiseAll_keepsAccess s _
  · exact ⟨rfl, rfl⟩
  · exact ⟨by rw [tamperClear_se]; rfl, by rw [tamperClear_se]; rfl⟩

/-- A source whose condition has gone is neither ACTIVE nor persisting, and stays LATCHED as it was. -/
theorem tamperCond_slot_of_ceased (h : slotFrom.getD n 5 ≤ s.pw.stage) (hn : n < s.tp.slots.length) (c : Nat) :
    (s.tamperCond n c false).slot n = { s.slot n with active := false, persisting := false } := by
  rw [tamperCond_of_ceased h, tamperClear_slot_self (by rwa [onSlot_slots_length]) (by rw [onSlot_slot_self hn]),
    onSlot_slot_self hn]

/-- A change of a slot that keeps LATCHED keeps it of every slot. -/
theorem onSlot_latched (s : State) (n k : Nat) {f : Slot → Slot} (hf : ∀ x, (f x).latched = x.latched) :
    ((s.onSlot n f).slot k).latched = (s.slot k).latched := by
  by_cases hk : k = n
  · subst hk
    by_cases hn : k < s.tp.slots.length
    · rw [onSlot_slot_self hn, hf]
    · have hs : (s.onSlot k f).slot k = s.slot k := by
        have h1 := List.getElem?_eq_none_iff.2 (Nat.not_lt.1 hn)
        have h2 : (s.onSlot k f).tp.slots[k]? = none :=
          List.getElem?_eq_none_iff.2 (by rw [onSlot_slots_length]; exact Nat.not_lt.1 hn)
        simp only [State.slot, List.getD_eq_getElem?_getD, h1, h2]
      rw [hs]
  · rw [onSlot_slot_ne hk]

theorem tamperClear_latched (s : State) (n c k : Nat) : ((s.tamperClear n c).slot k).latched = (s.slot k).latched := by
  unfold State.tamperClear
  split
  · exact onSlot_latched s n k fun _ => rfl
  · split
    · rw [log_slot]
      exact onSlot_latched s n k fun _ => rfl
    · rfl

theorem tamperCond_latched_of_ceased (s : State) (n c k : Nat) :
    ((s.tamperCond n c false).slot k).latched = (s.slot k).latched := by
  by_cases h : s.pw.stage < slotFrom.getD n 5
  · rw [tamperCond_of_early h]
  · rw [tamperCond_of_ceased (Nat.not_lt.1 h), tamperClear_latched]
    exact onSlot_latched s n k fun _ => rfl

end Sys2Proof.Machine
end

section
/-! LEMMAS. The accesses of the last writes: where they lie, and that a write cut short changes no byte outside them (R339, R354). -/

namespace Sys2Proof.Machine

variable {s t z : State} {l : List (Nat × Nat)} {part page : Nat}

/-! ### The accesses of a write -/

theorem accesses_fold_within {a b : Nat} (ks : List Nat) (r : List (Nat × Nat) × Nat)
    (hr : a ≤ r.2 ∧ ∀ x ∈ r.1, a ≤ x.1 ∧ x.1 + x.2 ≤ r.2) (hb : r.2 + ks.sum = b) :
    ∀ x ∈ (ks.foldl (fun (l : List (Nat × Nat) × Nat) k => ((l.2, k) :: l.1, l.2 + k)) r).1, a ≤ x.1 ∧ x.1 + x.2 ≤ b := by
  induction ks generalizing r with
  | nil =>
    simp only [List.sum_nil, Nat.add_zero] at hb
    exact hb ▸ hr.2
  | cons k ks ih =>
    obtain ⟨ha, hx⟩ := hr
    refine ih _ ⟨Nat.le_add_right_of_le ha, fun x h => ?_⟩ (by rw [← hb, List.sum_cons, Nat.add_assoc])
    rcases List.mem_cons.1 h with rfl | h
    · exact ⟨ha, le_rfl⟩
    · exact ⟨(hx x h).1, Nat.le_add_right_of_le (hx x h).2⟩

/-- The accesses of a write lie within it. -/
theorem accesses_within {a n : Nat} : ∀ x ∈ accesses a n, a ≤ x.1 ∧ x.1 + x.2 ≤ a + n := by
  have hsum : (wordChunks a n).sum = n := by
    have h := wordBytes_length a n
    rwa [wordBytes, List.take_length, ← List.sum_eq_foldl] at h
  intro x hx
  exact accesses_fold_within (a := a) _ ([], a) ⟨le_rfl, fun x h => absurd h List.not_mem_nil⟩ (by rw [hsum]) x (List.mem_reverse.1 hx)

theorem rdBytes_length (m : List Host.Cell) (a n : Nat) : (rdBytes m a n).length = n := by simp [rdBytes]

/-- What undoes a write lies where the write lies, or in the torn bitmap. -/
theorem undoOf_liesIn {m : List Host.Cell} {p : Nat} {ps : List (Nat × List Byte)} (h0 : (0, 256) ∈ l) (hp : p < 2048)
    (h : ∀ e ∈ ps, LiesIn l e) : ∀ e ∈ undoOf m p ps, LiesIn l e := by
  have htorn (b : Byte) : LiesIn l (p / 8, [b]) := ⟨_, h0, Nat.zero_le _, by simp only [List.length_singleton]; omega⟩
  intro e he
  rcases List.mem_cons.1 he with rfl | he
  · exact htorn _
  rcases List.mem_append.1 he with he | he
  · obtain ⟨w, hw, he⟩ := List.mem_flatMap.1 he
    obtain ⟨x, hx, rfl⟩ := List.mem_map.1 he
    obtain ⟨r, hr, h1, h2⟩ := h w hw
    obtain ⟨g1, g2⟩ := accesses_within x hx
    exact ⟨r, hr, h1.trans g1, by rw [rdBytes_length]; omega⟩
  · rw [List.mem_singleton.1 he]
    exact htorn _

/-! ### Writes in some ranges -/

/-- From `z` on the store was written in some ranges alone, and the accesses that a trip may undo lie in them too. -/
structure WritesIn (l : List (Nat × Nat)) (z s : State) : Prop where
  keeps : keepsBytes z s l
  flight : ∀ e ∈ s.hw.flight, LiesIn l e

theorem WritesIn.of_same (H : WritesIn l z s) (hm : t.hw.mem = s.hw.mem) (hf : t.hw.flight = s.hw.flight) : WritesIn l z t :=
  ⟨keepsBytes_trans H.keeps (keepsBytes_of_mem hm), by rw [hf]; exact H.flight⟩

theorem WritesIn.log (H : WritesIn l z s) (c : Nat) (d : List Byte) : WritesIn l z (s.log c d) :=
  H.of_same (by rw [log_hw]) (by rw [log_hw])

theorem sense_flight (s : State) (a n : Nat) : (s.sense a n).hw.flight = s.hw.flight := by
  unfold State.sense
  refine List.foldlRecOn (motive := fun x : State => x.hw.flight = s.hw.flight) _ _ rfl fun x h f _ => ?_
  unfold State.senseFlip State.uncorrectable
  split
  · rw [log_hw]; exact h
  · rw [log_hw]; exact h

theorem WritesIn.sense (H : WritesIn l z s) (a n : Nat) : WritesIn l z (s.sense a n) :=
  H.of_same (sense_mem s a n) (sense_flight s a n)

theorem WritesIn.pageWrite {k : Nat} {bs : List Byte} (H : WritesIn l z s) (h : PairIn l part page) (hk : k ≤ 1)
    (hb : bs.length ≤ 256) : WritesIn l z (s.pageWrite part (page + k) bs) := by
  refine ⟨keepsBytes_trans H.keeps (pageWrite_keepsBytes h hk hb), fun e he => ?_⟩
  obtain ⟨h0, hpair, hlt⟩ := h
  have ha (n : Nat) : pageAddr part n = 256 * (partFirst part + n) := Nat.mul_comm ..
  rcases List.mem_append.1 (show e ∈ _ ++ undoOf _ _ _ from he) with he | he
  · split at he
    · exact H.flight e he
    · cases he
  · refine undoOf_liesIn h0 ?_ (fun w hw => ⟨_, hpair, ?_⟩) e he
    · simp only [List.headD_cons, ha]
      omega
    · simp only [List.mem_cons, List.not_mem_nil, or_false] at hw
      rcases hw with rfl | rfl
      · simp only [ha, List.length_drop]
        omega
      · simp only [ha, List.length_take]
        omega

theorem WritesIn.recordFix {id : Nat} (H : WritesIn l z s) (h : PairIn l part page) : WritesIn l z (s.recordFix part id page) := by
  unfold State.recordFix
  extract_lets s1
  have h1 : WritesIn l z s1 := H.sense _ _
  have hsecond {n : Nat} (hr : recordRead s1 part id page = some n) :
      WritesIn l z (s1.pageWrite part (page + 1) (recordBytes s1 part page)) := h1.pageWrite h le_rfl (recordBytes_length_le hr)
  split
  next hx _ =>
    split
    · refine WritesIn.log ?_ _ _
      exact (hsecond hx).of_same rfl rfl
    · exact h1
  next hx _ => exact (hsecond hx).of_same rfl rfl
  next hy => exact (h1.pageWrite (k := 0) h (Nat.zero_le _) (recordBytes_length_le hy)).of_same rfl rfl
  · exact h1.log _ _

theorem WritesIn.fixRecord {e : Nat × Nat} (H : WritesIn l z s) (h : PairIn l part e.2) : WritesIn l z (s.fixRecord part e) := by
  unfold State.fixRecord
  split
  · exact H
  · exact H.recordFix h

theorem WritesIn.recordPut {e : Nat × Nat} {flags seq : Nat} {payload : List Byte} (H : WritesIn l z s) (h : PairIn l part e.2)
    (hl : payload.length ≤ 240) : WritesIn l z (s.recordPut part e flags seq payload).1 := by
  unfold State.recordPut
  extract_lets page put good s1 s2
  have hput {x : State} (hx : WritesIn l z x) : WritesIn l z (put x) := by
    have hlen : (recordCopy e.1 flags seq payload).length ≤ 256 := by rw [recordCopy_length]; omega
    refine WritesIn.sense ?_ _ _
    unfold page
    split
    · exact hx.pageWrite h le_rfl hlen
    · exact hx.pageWrite (k := 0) h (Nat.zero_le _) hlen
  split
  · exact hput H
  · split
    · exact hput (hput H)
    · exact (hput (hput H)).log _ _

theorem WritesIn.itemPut {es : List (Nat × Nat)} {bs : List Byte} (H : WritesIn l z s) (h : ∀ e ∈ es, PairIn l part e.2) :
    WritesIn l z (s.itemPut part es bs).1 := by
  unfold State.itemPut
  extract_lets s1 q
  have h1 : WritesIn l z s1 := List.foldlRecOn (motive := WritesIn l z) _ _ H fun x hx e he => hx.fixRecord (h e he)
  refine List.foldlRecOn (motive := fun r : State × Bool => WritesIn l z r.1) _ _ h1 fun r hr e he => ?_
  unfold andThen
  split
  · exact hr.recordPut (h _ (List.fst_mem_of_mem_zipIdx he)) (List.length_take_le ..)
  · exact hr

/-- A last write cut short changes no byte outside the ranges of the write. -/
theorem WritesIn.cutFlight (H : WritesIn l z s) : keepsBytes z s.cutFlight l := by
  unfold State.cutFlight
  extract_lets n
  split
  · exact H.keeps
  · intro a ha
    refine (rdByte_foldl_wrBytes_out (fun e he => ?_) _).trans (H.keeps a ha)
    obtain ⟨r, hr, h1, h2⟩ := H.flight e (List.mem_of_mem_drop (List.mem_reverse.1 he))
    have := ha r hr
    omega

theorem landed_writesIn (s : State) (l : List (Nat × Nat)) : WritesIn l s s.landed := ⟨keepsBytes_of_mem rfl, fun _ h => by cases h⟩

end Sys2Proof.Machine
end

section
/-! THEOREMS. Sessions and passwords (R347 to R350, R353, R363; O52, O59). -/

namespace Sys2Proof.Machine

variable {s z v : State} {h : Hdr} {part kind : Nat}

/-- A parameter reads the parameters, the strap, the node and the factory values. -/
theorem Changes.par_eq {q : List Part} (h : Changes q s v) (hpr : q.contains .pr = false) (hpw : q.contains .pw = false)
    (hup : q.contains .up = false) (hnt : q.contains .nt = false) (i : Nat) : par v i = par s i := by
  simp only [par, parReset, factoryVal, factoryImage, h.pr hpr, h.pw hpw, h.up hup, h.nt hnt]

/-- A part that stays as it is need not be named. -/
theorem Changes.drop {p : Part} {q : List Part} (h : Changes (p :: q) s v) (hp : p.same s v) : Changes q s v := by
  refine ⟨fun k hk => ?_⟩
  by_cases hkp : k = p
  · exact hkp ▸ hp
  · exact h.keeps k fun hm => (List.mem_cons.1 hm).elim hkp hk

/-! ### Lockouts (R349) -/

theorem sessPart_lt (hp : sessParts.contains part = true) : part < 6 := by
  simp only [sessParts, List.contains_cons, List.contains_nil, Bool.or_false, Bool.or_eq_true, beq_iff_eq] at hp
  omega

theorem lockOf_onLock {f : Lockout → Lockout} (hn : part < s.se.locks.length) : lockOf (s.onLock part f) part = f (lockOf s part) :=
  modAt_getD_self _ _ _ _ hn

theorem lockOf_congr (h : v.se.locks = s.se.locks) (part : Nat) : lockOf v part = lockOf s part := by rw [lockOf, h, lockOf]

theorem lockedOut_accepted (s : State) (h : Hdr) (part : Nat) : lockedOut (s.accepted h) part = lockedOut s part := by
  rw [lockedOut, lockedOut, lockOf_congr (v := s.accepted h) (s := s) (by rw [accepted_se]), State.after, State.after, accepted_clk]

theorem part_lt_of_lockedOut (h : lockedOut s part = true) : part < s.se.locks.length := by
  by_contra hn
  have hr : lockOf s part = Lockout.reset := List.getD_eq_default _ _ (Nat.not_lt.1 hn)
  rw [lockedOut, hr] at h
  exact Bool.noConfusion h

theorem pwOf_congr (h : v.se.pws = s.se.pws) (part kind : Nat) : pwOf v part kind = pwOf s part kind := by rw [pwOf, h, pwOf]

theorem sessionPass_eq (s : State) (part : Nat) : s.sessionPass part =
      (s.onLock part fun l => { l with fails := 0, lockS := 0, nextS := 60, logged := false }) ∨
    s.sessionPass part =
      (s.onLock part fun l => { l with fails := 0, lockS := 0, nextS := 60, logged := false }).tamperClear 17 0xFF := by
  unfold State.sessionPass
  extract_lets s1
  split
  · exact .inl rfl
  · exact .inr rfl

/-- A success touches, of the sessions' state, the lockout of its partition alone. -/
theorem sessionPass_se (s : State) (part : Nat) : (s.sessionPass part).se =
    (s.onLock part fun l => { l with fails := 0, lockS := 0, nextS := 60, logged := false }).se := by
  rcases sessionPass_eq s part with h | h <;> rw [h]
  exact tamperClear_se _ _ _

theorem sessionLocked_se (s : State) (part : Nat) (p : Path) : (s.sessionLocked part p).se =
    (s.onLock part fun l => { l with authFails := u32 (l.authFails + 1), logged := true }).se := by
  unfold State.sessionLocked
  extract_lets l s1
  split
  · rfl
  · rw [log_se]

/-- The lockout of a partition after a wrong password. -/
def failedLock (s : State) (l : Lockout) : Lockout :=
  { l with fails := l.fails + 1, authFails := u32 (l.authFails + 1), lockS := if 5 ≤ l.fails + 1 then l.nextS else 0
           nextS := if 5 ≤ l.fails + 1 then satN 3600 (2 * l.nextS) else l.nextS, lockClk := s.clk, logged := false }

/-- The state in which a wrong password is counted and logged, before the tamper source that it may raise. -/
def failCounted (s : State) (part : Nat) (p : Path) : State :=
  (s.onLock part fun l =>
    { l with fails := (lockOf s part).fails + 1, authFails := u32 (l.authFails + 1)
             lockS := if 5 ≤ (lockOf s part).fails + 1 then l.nextS else 0
             nextS := if 5 ≤ (lockOf s part).fails + 1 then satN 3600 (2 * l.nextS) else l.nextS
             lockClk := s.clk, logged := false }).log 0x010A
    (le 1 part ++ le 1 (pathCode p) ++ le 2 (satN 65535 ((lockOf s part).fails + 1)))

theorem sessionFail_eq (s : State) (part : Nat) (p : Path) : s.sessionFail part p =
    if (lockOf s part).fails + 1 == 16 then (failCounted s part p).tamperCond 17 0xFF true else failCounted s part p := rfl

theorem failCounted_lock (hn : part < s.se.locks.length) (p : Path) :
    lockOf (failCounted s part p) part = failedLock s (lockOf s part) := by
  rw [failCounted, lockOf_congr (congrArg Sess.locks (log_se _ _ _)), lockOf_onLock hn]
  rfl

theorem sessionFail_keepsAccess (s : State) (part : Nat) (p : Path) : KeepsAccess (failCounted s part p) (s.sessionFail part p) := by
  rw [sessionFail_eq]
  split
  · exact tamperCond_keepsAccess _ _ _ _
  · exact ⟨rfl, rfl⟩

/-- Short of the sixteenth in a row a wrong password leaves every session open. -/
theorem sessionFail_open (h : (lockOf s part).fails ≠ 15) (p : Path) : (s.sessionFail part p).se.open_ = s.se.open_ := by
  rw [sessionFail_eq, if_neg (by simpa using h), failCounted, log_se]
  rfl

/-! ### SESSION_OPEN -/

/-- What a request of SESSION_OPEN needs besides being accepted (R350, R363). -/
structure OpenChecks (s : State) (h : Hdr) (part kind : Nat) : Prop where
  opens : Opens opSessionOpen h s
  len : h.len = 12
  secured : plainNet h = false
  inParts : sessParts.contains part = true
  inKinds : kind ≤ 1 ∨ lockedOut s part = true
  unlocked : kind = 1 → locked (s.accepted h) = false

/-- The state in which a session is open. -/
def sessionOpened (s : State) (part : Nat) (x : Session) : State :=
  (s.sessionPass part).onSe fun e => { e with open_ := e.open_.filter (· != x) ++ [x] }

theorem execSessionOpen_eq {pw : Nat} (c : OpenChecks s h part kind) :
    exec (.sessionOpen h part kind pw) s = .next (
      if lockedOut s part then ((s.accepted h).sessionLocked part h.path).replied opSessionOpen h .authFail (zeros 6)
      else if pwOpens (pwOf s part kind) kind pw then
        (sessionOpened (s.accepted h) part ⟨part, kind == 1, h.path⟩).replied opSessionOpen h .ok
          (zeros 2 ++ le 4 (par (s.accepted h) (pid 9 0 2)))
      else ((s.accepted h).sessionFail part h.path).replied opSessionOpen h .authFail (zeros 6)) := by
  obtain ⟨ho, hl, hn, hp, hk, hlk⟩ := c
  have hlk : (kind == 1 && locked (s.accepted h)) = false := by
    by_cases h1 : kind = 1
    · rw [hlk h1, Bool.and_false]
    · simp [h1]
  have hk : (decide (1 < kind) && !lockedOut (s.accepted h) part) = false := by
    rw [lockedOut_accepted]
    rcases hk with hk | hk
    · simp [Nat.not_lt.2 hk]
    · rw [hk]; simp
  refine (congrArg _ (serve_opens ho (beq_iff_eq.2 hl) (by simp [firstFail, hlk, hn, List.contains_iff_mem.1 hp, hk]))).trans ?_
  rw [lockedOut_accepted, pwOf_congr (v := s.accepted h) (s := s) (by rw [accepted_se])]
  split
  · rfl
  · split <;> rfl

theorem sessionOpened_ch (s : State) (part : Nat) (x : Session) : Changes [.se, .tp, .wd] s (sessionOpened s part x) :=
  onSe_ch (sessionPass_ch (.refl _ s) rfl) rfl

theorem sessionOpened_open (s : State) (part : Nat) (x : Session) :
    (sessionOpened s part x).se.open_ = s.se.open_.filter (· != x) ++ [x] := by
  show (s.sessionPass part).se.open_.filter (· != x) ++ [x] = _
  rw [sessionPass_se]
  rfl

theorem sessionOpened_pws (s : State) (part : Nat) (x : Session) : (sessionOpened s part x).se.pws = s.se.pws := by
  show (s.sessionPass part).se.pws = _
  rw [sessionPass_se]
  rfl

theorem sessionOpened_fails (hn : part < s.se.locks.length) (x : Session) : (lockOf (sessionOpened s part x) part).fails = 0 := by
  rw [lockOf_congr (v := sessionOpened s part x) (s := s.onLock part fun l => { l with fails := 0, lockS := 0, nextS := 60, logged := false })
    (show (s.sessionPass part).se.locks = _ by rw [sessionPass_se]), lockOf_onLock hn]

theorem sessionOpen_of_good {pw : Nat} (c : OpenChecks s h part kind) (hl : lockedOut s part = false)
    (hw : pwOpens (pwOf s part kind) kind pw = true) (hn : s.se.locks.length = 6) :
    Answers (.sessionOpen h part kind pw) s opSessionOpen h .ok fun v bs =>
      (⟨part, kind == 1, h.path⟩ : Session) ∈ v.se.open_ ∧
      (∀ x, x ≠ ⟨part, kind == 1, h.path⟩ → (x ∈ v.se.open_ ↔ x ∈ s.se.open_)) ∧ (lockOf v part).fails = 0 ∧
      v.se.pws = s.se.pws ∧ bs = zeros 2 ++ le 4 (par (s.accepted h) (pid 9 0 2)) ∧
      v = { s.accepted h with se := v.se, tp := v.tp, wd := v.wd } := by
  have he := execSessionOpen_eq (pw := pw) c
  rw [hl, if_neg Bool.false_ne_true, if_pos hw] at he
  refine ⟨_, _, he, ?_, fun x hx => ?_, sessionOpened_fails (by rw [accepted_se, hn]; exact sessPart_lt c.inParts) _,
    (sessionOpened_pws ..).trans (by rw [accepted_se]), rfl, (sessionOpened_ch ..).eq_pick⟩
  · rw [sessionOpened_open]
    exact List.mem_append_right _ (List.mem_singleton.2 rfl)
  · rw [sessionOpened_open, accepted_se]
    simp [hx]

theorem sessionOpen_of_wrong {pw : Nat} (c : OpenChecks s h part kind) (hl : lockedOut s part = false)
    (hw : pwOpens (pwOf s part kind) kind pw = false) (hn : s.se.locks.length = 6) :
    Answers (.sessionOpen h part kind pw) s opSessionOpen h .authFail fun v bs =>
      ((lockOf s part).fails ≠ 15 → v.se.open_ = s.se.open_) ∧ (lockOf v part).fails = (lockOf s part).fails + 1 ∧
      (4 ≤ (lockOf s part).fails → (lockOf v part).lockS = (lockOf s part).nextS) ∧ bs = zeros 6 ∧
      v.se.pws = s.se.pws ∧ v = { s.accepted h with se := v.se, lk := v.lk, tp := v.tp, wd := v.wd, hm := v.hm, me := v.me,
                                                    free := v.free } := by
  have he := execSessionOpen_eq (pw := pw) c
  rw [hl, if_neg Bool.false_ne_true, hw, if_neg Bool.false_ne_true] at he
  have hka := sessionFail_keepsAccess (s.accepted h) part h.path
  have hso : lockOf (s.accepted h) part = lockOf s part := lockOf_congr (by rw [accepted_se]) part
  have hlo : lockOf ((s.accepted h).sessionFail part h.path) part = failedLock (s.accepted h) (lockOf s part) := by
    rw [lockOf_congr hka.locks, failCounted_lock (by rw [accepted_se, hn]; exact sessPart_lt c.inParts), hso]
  refine ⟨_, _, he, fun h15 => (sessionFail_open (by rwa [hso]) _).trans (by rw [accepted_se]), by rw [hlo]; rfl, fun h4 => ?_, rfl,
    ?_, (sessionFail_ch (.refl [.se, .lk, .tp, .wd, .hm, .me, .free] _) rfl).eq_pick⟩
  · rw [hlo]
    exact if_pos (Nat.succ_le_succ h4)
  · rw [hka.pws, failCounted, log_se, State.onLock, onSe_se, accepted_se]

theorem sessionOpen_of_lockedOut {pw : Nat} (c : OpenChecks s h part kind) (hl : lockedOut s part = true) :
    Answers (.sessionOpen h part kind pw) s opSessionOpen h .authFail fun v bs =>
      v.se.open_ = s.se.open_ ∧ (lockOf v part).fails = (lockOf s part).fails ∧ bs = zeros 6 ∧
      v.se.pws = s.se.pws ∧ v = { s.accepted h with se := v.se, wd := v.wd } := by
  have he := execSessionOpen_eq (pw := pw) c
  rw [if_pos hl] at he
  have hse := sessionLocked_se (s.accepted h) part h.path
  refine ⟨_, _, he, by rw [hse, State.onLock, onSe_se, accepted_se], ?_, rfl, by rw [hse, State.onLock, onSe_se, accepted_se],
    (sessionLocked_ch (.refl [.se, .wd] _) rfl).eq_pick⟩
  rw [lockOf_congr (v := (s.accepted h).sessionLocked part h.path) (congrArg Sess.locks hse),
    lockOf_onLock (by rw [accepted_se]; exact part_lt_of_lockedOut hl)]
  show (lockOf (s.accepted h) part).fails = _
  rw [lockOf_congr (v := s.accepted h) (s := s) (by rw [accepted_se])]

/-! ### PASSWORD_SET (R350, R353, R357) -/

/-- The password record's pages, and the torn bitmap. -/
def pwRanges : List (Nat × Nat) := [(0, 256), (pageAddr 0 pwRec.2, 512)]

theorem pwRec_pairIn : PairIn pwRanges 0 pwRec.2 := ⟨by decide, by decide, by decide⟩

theorem pwIdx_lt (hp : sessParts.contains part = true) (hk : kind ≤ 1) : pwIdx part kind < 8 := by
  have hi : sessParts.findIdx (· == part) < 4 :=
    List.findIdx_lt_length_of_exists ⟨part, List.contains_iff_mem.1 hp, beq_self_eq_true part⟩
  rw [pwIdx]
  omega

theorem pwIdx_injective : ∀ p ∈ sessParts, ∀ k ≤ 1, ∀ q ∈ sessParts, ∀ j ≤ 1, pwIdx p k = pwIdx q j → p = q ∧ k = j := by decide

/-- The state with a password put into the record, not yet stored. -/
def pwPut (s : State) (part kind : Nat) (w : Pw) : State :=
  s.onSe fun e => { e with pws := modAt e.pws (pwIdx part kind) fun _ => w }

/-- A password is kept where its record is written, and put back where it is not. -/
theorem setPw_cases (s : State) (part kind : Nat) (w : Pw) :
    ((s.setPw part kind w).2 = true ∧ (s.setPw part kind w).1 = (pwPut s part kind w).storePw.1) ∨
      ((s.setPw part kind w).2 = false ∧ (s.setPw part kind w).1 = (pwPut s part kind w).storePw.1.onSe fun _ => s.se) := by
  have he : s.setPw part kind w = if (pwPut s part kind w).storePw.2 then (pwPut s part kind w).storePw
      else ((pwPut s part kind w).storePw.1.onSe fun _ => s.se, false) := rfl
  generalize (pwPut s part kind w).storePw = r at he ⊢
  obtain ⟨x, b⟩ := r
  rw [he]
  cases b with
  | true => exact .inl ⟨rfl, rfl⟩
  | false => exact .inr ⟨rfl, rfl⟩

theorem setPw_of_stored {w : Pw} (h : (s.setPw part kind w).2 = true) :
    (s.setPw part kind w).1.se = { s.se with pws := modAt s.se.pws (pwIdx part kind) fun _ => w } := by
  rcases setPw_cases s part kind w with ⟨-, he⟩ | ⟨hf, -⟩
  · have hc : Changes [.hw, .wd] (pwPut s part kind w) (pwPut s part kind w).storePw.1 := storePw_ch (.refl _ _) rfl
    rw [he, hc.se rfl]
    rfl
  · exact Bool.noConfusion (hf.symm.trans h)

theorem setPw_of_refused {w : Pw} (h : (s.setPw part kind w).2 = false) :
    Changes [.hw, .wd] s (s.setPw part kind w).1 := by
  rcases setPw_cases s part kind w with ⟨ht, -⟩ | ⟨-, he⟩
  · exact Bool.noConfusion (ht.symm.trans h)
  · exact (setPw_ch (.refl [.se, .hw, .wd] s) rfl).drop (show (s.setPw part kind w).1.se = s.se by rw [he, onSe_se])

theorem storePw_writesIn (H : WritesIn pwRanges z s) : WritesIn pwRanges z s.storePw.1 := by
  rw [State.storePw]
  refine H.itemPut fun e he => ?_
  rw [List.mem_singleton.1 he]
  exact pwRec_pairIn

theorem setPw_writesIn (w : Pw) (H : WritesIn pwRanges z s) : WritesIn pwRanges z (s.setPw part kind w).1 := by
  have hr : WritesIn pwRanges z (pwPut s part kind w).storePw.1 := storePw_writesIn (H.of_same rfl rfl)
  rcases setPw_cases s part kind w with ⟨-, he⟩ | ⟨-, he⟩ <;> rw [he]
  · exact hr
  · exact hr.of_same (by rw [onSe_hw]) (by rw [onSe_hw])

/-- A stored password is the one of its partition and kind, and the others stay. -/
theorem pwOf_of_put {w : Pw} (hl : s.se.pws.length = 8) (hp : sessParts.contains part = true) (hk : kind ≤ 1)
    (hv : v.se.pws = modAt s.se.pws (pwIdx part kind) fun _ => w) :
    pwOf v part kind = w ∧ ∀ p ∈ sessParts, ∀ k ≤ 1, p ≠ part ∨ k ≠ kind → pwOf v p k = pwOf s p k := by
  refine ⟨?_, fun p hpp k hkk hne => ?_⟩
  · rw [pwOf, hv, modAt_getD_self _ _ _ _ (by rw [hl]; exact pwIdx_lt hp hk)]
  · have hi : pwIdx p k ≠ pwIdx part kind := fun h => by
      obtain ⟨h1, h2⟩ := pwIdx_injective p hpp k hkk part (List.contains_iff_mem.1 hp) kind hk h
      exact hne.elim (· h1) (· h2)
    rw [pwOf, hv, modAt_getD_ne _ _ _ _ _ hi, pwOf]

/-- The state after PASSWORD_SET has stored the password. -/
def pwChanged (s : State) (part kind new : Nat) (p : Path) : State :=
  (s.landed.setPw part kind ⟨1, pwDigest new⟩).1.dropSessions fun x => x.part == part && x.write == (kind == 1) && x.path != p

/-- The checks of PASSWORD_SET that come before what it stores. -/
structure PwChecks (s : State) (h : Hdr) (part kind new : Nat) : Prop where
  opens : Opens opPasswordSet h s
  len : h.len = 12
  powered : pfailing (s.accepted h) = false
  secured : plainNet h = false
  inParts : sessParts.contains part = true
  inKinds : kind ≤ 1
  good : badPassword new = false

theorem execPasswordSet_of_overtaken {new : Nat} (c : PwChecks s h part kind new) (hq : s.tp.clearQueue ≠ []) :
    exec (.passwordSet h part kind new true) s = .next
      ((((s.accepted h).onHw fun _ => ((s.accepted h).landed.setPw part kind ⟨1, pwDigest new⟩).1.cutFlight.hw).drew 1).replied
        opPasswordSet h .authFail (zeros 2)) := by
  obtain ⟨ho, hl, hpf, hn, hp, hk, hb⟩ := c
  have hover : (true && !(s.accepted h).tp.clearQueue.isEmpty) = true := by
    rw [accepted_tp_clearQueue]
    simpa using hq
  refine (congrArg _ (serve_opens ho (beq_iff_eq.2 hl) (by
    simp [firstFail, hpf, hn, List.contains_iff_mem.1 hp, Nat.not_lt.2 hk, hb, hq]))).trans ?_
  rw [if_pos hover]

theorem overtaken_eq_false {o : Bool} (hq : o = true → s.tp.clearQueue = []) :
    (o && !(s.accepted h).tp.clearQueue.isEmpty) = false := by
  rw [accepted_tp_clearQueue]
  cases o with
  | false => rfl
  | true => simp [hq rfl]

theorem execPasswordSet_eq {new : Nat} {o : Bool} (c : PwChecks s h part kind new) (hq : o = true → s.tp.clearQueue = [])
    (hlk : locked (s.accepted h) = false) (hw : canWrite (s.accepted h) h.path part = true) :
    exec (.passwordSet h part kind new o) s = .next (
      if ((s.accepted h).landed.setPw part kind ⟨1, pwDigest new⟩).2 then
        (pwChanged (s.accepted h) part kind new h.path).replied opPasswordSet h .ok (zeros 2)
      else ((s.accepted h).landed.setPw part kind ⟨1, pwDigest new⟩).1.replied opPasswordSet h .internalFault (zeros 2)) := by
  obtain ⟨ho, hl, hpf, hn, hp, hk, hb⟩ := c
  refine (congrArg _ (serve_opens ho (beq_iff_eq.2 hl) (by
    simp [firstFail, hpf, hlk, hn, List.contains_iff_mem.1 hp, hw, Nat.not_lt.2 hk, hb]))).trans ?_
  rw [if_neg (by rw [overtaken_eq_false hq]; exact Bool.false_ne_true), pwChanged]
  generalize (s.accepted h).landed.setPw part kind ⟨1, pwDigest new⟩ = r
  obtain ⟨x, b⟩ := r
  cases b <;> rfl

theorem pwChanged_hw (s : State) (part kind new : Nat) (p : Path) :
    (pwChanged s part kind new p).hw = (s.landed.setPw part kind ⟨1, pwDigest new⟩).1.hw := by
  rw [pwChanged]
  exact (dropSessions_ch (.refl [.se, .hm] _) rfl).hw rfl

/-- What PASSWORD_SET brings about when the store takes the password. -/
theorem pwChanged_brings {new : Nat} {p : Path} (hl : s.se.pws.length = 8) (hp : sessParts.contains part = true) (hk : kind ≤ 1)
    (hs : (s.landed.setPw part kind ⟨1, pwDigest new⟩).2 = true) :
    (pwOf (pwChanged s part kind new p) part kind = ⟨1, pwDigest new⟩ ∧
      ∀ q ∈ sessParts, ∀ k ≤ 1, q ≠ part ∨ k ≠ kind → pwOf (pwChanged s part kind new p) q k = pwOf s q k) ∧
    (pwChanged s part kind new p).se.open_ =
      s.se.open_.filter (fun x => !(x.part == part && x.write == (kind == 1) && x.path != p)) := by
  have hse := setPw_of_stored hs
  rw [pwChanged]
  generalize (s.landed.setPw part kind ⟨1, pwDigest new⟩).1 = t at hse
  refine ⟨pwOf_of_put hl hp hk (congrArg Sess.pws hse), ?_⟩
  show t.se.open_.filter _ = _
  rw [hse]
  rfl

theorem setPw_landed_keepsBytes (s : State) (part kind : Nat) (w : Pw) :
    keepsBytes s (s.landed.setPw part kind w).1 pwRanges := (setPw_writesIn w (landed_writesIn s _)).keeps

theorem passwordSet_of_stored {new : Nat} {o : Bool} (c : PwChecks s h part kind new) (hq : o = true → s.tp.clearQueue = [])
    (hlk : locked (s.accepted h) = false) (hw : canWrite (s.accepted h) h.path part = true) (hl : s.se.pws.length = 8)
    (hs : ((s.accepted h).landed.setPw part kind ⟨1, pwDigest new⟩).2 = true) :
    Answers (.passwordSet h part kind new o) s opPasswordSet h .ok fun v bs =>
      pwOf v part kind = ⟨1, pwDigest new⟩ ∧
      (∀ p ∈ sessParts, ∀ k ≤ 1, p ≠ part ∨ k ≠ kind → pwOf v p k = pwOf s p k) ∧
      v.se.open_ = s.se.open_.filter (fun x => !(x.part == part && x.write == (kind == 1) && x.path != h.path)) ∧
      bs = zeros 2 ∧ keepsBytes s v pwRanges ∧ v = { s.accepted h with se := v.se, hm := v.hm, hw := v.hw, wd := v.wd } := by
  have he := execPasswordSet_eq c hq hlk hw
  rw [if_pos hs] at he
  obtain ⟨⟨hself, hrest⟩, hopen⟩ :=
    pwChanged_brings (s := s.accepted h) (p := h.path) (by rw [accepted_se]; exact hl) c.inParts c.inKinds hs
  have hc : Changes [.hw, .se, .wd, .hm] (s.accepted h) (pwChanged (s.accepted h) part kind new h.path) :=
    dropSessions_ch (setPw_ch (landed_ch (.refl _ _) rfl) rfl) rfl
  refine ⟨_, _, he, hself, fun q hq k hk hne => (hrest q hq k hk hne).trans (pwOf_congr (by rw [accepted_se]) q k),
    by rw [hopen, accepted_se], rfl, ?_, hc.eq_pick⟩
  exact keepsBytes_of_accepted (keepsBytes_trans (setPw_landed_keepsBytes _ part kind ⟨1, pwDigest new⟩)
    (keepsBytes_of_mem (by rw [pwChanged_hw])))

theorem passwordSet_of_refused {new : Nat} {o : Bool} (c : PwChecks s h part kind new) (hq : o = true → s.tp.clearQueue = [])
    (hlk : locked (s.accepted h) = false) (hw : canWrite (s.accepted h) h.path part = true)
    (hs : ((s.accepted h).landed.setPw part kind ⟨1, pwDigest new⟩).2 = false) :
    Answers (.passwordSet h part kind new o) s opPasswordSet h .internalFault fun v bs =>
      bs = zeros 2 ∧ keepsBytes s v pwRanges ∧ v = { s.accepted h with hw := v.hw, wd := v.wd } := by
  have he := execPasswordSet_eq c hq hlk hw
  rw [hs, if_neg Bool.false_ne_true] at he
  have hc : Changes [.hw, .wd] (s.accepted h) ((s.accepted h).landed.setPw part kind ⟨1, pwDigest new⟩).1 :=
    (landed_ch (.refl _ _) rfl).trans (setPw_of_refused hs)
  exact ⟨_, _, he, rfl, keepsBytes_of_accepted (setPw_landed_keepsBytes _ part kind _), hc.eq_pick⟩

/-- Overtaken by a Clearing, PASSWORD_SET keeps what its accesses have written so far, and sets nothing. -/
theorem passwordSet_of_overtaken {new : Nat} (c : PwChecks s h part kind new) (hq : s.tp.clearQueue ≠ []) :
    Answers (.passwordSet h part kind new true) s opPasswordSet h .authFail fun v bs =>
      bs = zeros 2 ∧ keepsBytes s v pwRanges ∧ v = { s.accepted h with hw := v.hw, free := v.free } := by
  refine ⟨_, _, execPasswordSet_of_overtaken c hq, rfl, keepsBytes_of_accepted (h := h) ?_,
    (drew_ch (onHw_ch (.refl [.hw, .free] _) rfl) rfl).eq_pick⟩
  exact keepsBytes_trans (setPw_writesIn ⟨1, pwDigest new⟩ (landed_writesIn _ _)).cutFlight (keepsBytes_of_mem (by rw [drew_hw, onHw_hw]))

/-! ### Closing -/

theorem execSessionClose_eq (ho : Opens opSessionClose h s) (hl : h.len = 4) (hp : part = 0xFF ∨ sessParts.contains part = true)
    (hk : kind ≤ 2) : exec (.sessionClose h part kind) s =
      .next (((s.accepted h).dropSessions (closes h.path part kind)).replied opSessionClose h .ok (zeros 2)) := by
  have hp : part ≠ 0xFF → part ∈ sessParts := fun hne => List.contains_iff_mem.1 (hp.resolve_left hne)
  exact congrArg _ (serve_opens ho (beq_iff_eq.2 hl) (by simpa [firstFail, Nat.not_lt.2 hk] using hp))

theorem sessionTimeout_gives {path : Path} {write : Bool}
    (hidle : (s.lk.heard.lookup path).any (fun c => !s.after c (par s (pid 9 0 2) * cycS)) = false) :
    Gives (.sessionTimeout path part write) s fun t =>
      t.se.open_ = s.se.open_.filter (fun x => x != ⟨part, write, path⟩) ∧ t = { s with se := t.se, hm := t.hm } := by
  have he : exec (.sessionTimeout path part write) s = .next (s.dropSessions (· == ⟨part, write, path⟩)) := by
    show Host.Outcome.next (if _ then _ else _) = _
    rw [hidle, if_neg Bool.false_ne_true]
  exact ⟨_, he, rfl, (dropSessions_ch (.refl [.se, .hm] _) rfl).eq_pick⟩

theorem lockoutExpiry_gives {p : Fin 6} (hn : s.se.locks.length = 6) (hl : lockedOut s p = false) :
    Gives (.lockoutExpiry p) s fun t =>
      (lockOf t p).lockS = 0 ∧ (lockOf t p).fails = (lockOf s p).fails ∧ t = { s with se := t.se } := by
  have he : exec (.lockoutExpiry p) s = .next (s.onLock p fun l => { l with lockS := 0 }) := by
    show Host.Outcome.next (if _ then _ else _) = _
    rw [hl, if_neg Bool.false_ne_true]
  have hlo := lockOf_onLock (s := s) (f := fun l => { l with lockS := 0 }) (p.isLt.trans_eq hn.symm)
  exact ⟨_, he, by rw [hlo], by rw [hlo], rfl⟩

/-- Settles O52: a request that its checks let through passes, fails or finds the lockout, and PASSWORD_SET turns on whether the
store takes the record. -/
theorem sessionsAndPasswords : Obligations.SessionsAndPasswords := by
  intro s
  refine ⟨fun h part kind pw ho hl hn hp hk hlk hout hw hloc => sessionOpen_of_good ⟨ho, hl, hn, hp, .inl hk, hlk⟩ hout hw hloc,
    fun h part kind pw ho hl hn hp hk hlk hout hw hloc => sessionOpen_of_wrong ⟨ho, hl, hn, hp, .inl hk, hlk⟩ hout hw hloc,
    fun h part kind pw ho hl hn hp hlk hout => sessionOpen_of_lockedOut ⟨ho, hl, hn, hp, .inr hout, hlk⟩ hout,
    fun h part kind ho hl hp hk => execSessionClose_eq ho hl hp hk, fun h part kind new ho hl hpf hn hp hk hb hlen => ?_,
    fun path part write => sessionTimeout_gives, fun p => lockoutExpiry_gives⟩
  have c : PwChecks s h part kind new := ⟨ho, hl, hpf, hn, hp, hk, hb⟩
  exact ⟨fun hlk hw => ⟨passwordSet_of_stored c (fun h => Bool.noConfusion h) hlk hw hlen,
    passwordSet_of_refused c (fun h => Bool.noConfusion h) hlk hw⟩, passwordSet_of_overtaken c⟩

/-! ### Over the network (R350) -/

theorem badPassword_of_ne {new : Nat} (h0 : new ≠ 0) (h1 : new ≠ 0xFFFFFFFFFFFFFFFF) : badPassword new = false := by
  simp [badPassword, h0, h1]

theorem badPassword_of_eq {new : Nat} (h : new = 0 ∨ new = 0xFFFFFFFFFFFFFFFF) : badPassword new = true := by
  rcases h with rfl | rfl <;> rfl

theorem execSessionOpen_of_plain {pw : Nat} (ho : Opens opSessionOpen h s) (hl : h.len = 12) (hn : plainNet h = true)
    (hlk : kind = 1 → locked (s.accepted h) = false) :
    exec (.sessionOpen h part kind pw) s = .next ((s.accepted h).answer h 0x0903 .authFail (zeros 6)) := by
  have hlk : (kind == 1 && locked (s.accepted h)) = false := by
    by_cases h1 : kind = 1
    · rw [hlk h1, Bool.and_false]
    · simp [h1]
  exact congrArg _ (serve_refuses ho (beq_iff_eq.2 hl) (by simp [firstFail, hlk, hn]))

theorem execPasswordSet_of_plain {new : Nat} {o : Bool} (ho : Opens opPasswordSet h s) (hl : h.len = 12)
    (hpf : pfailing (s.accepted h) = false) (hlk : locked (s.accepted h) = false) (hn : plainNet h = true) :
    exec (.passwordSet h part kind new o) s = .next ((s.accepted h).answer h 0x0905 .authFail (zeros 2)) :=
  congrArg _ (serve_refuses ho (beq_iff_eq.2 hl) (by simp [firstFail, hpf, hlk, hn]))

theorem execPasswordSet_of_unauthorised {new : Nat} {o : Bool} (ho : Opens opPasswordSet h s) (hl : h.len = 12)
    (hpf : pfailing (s.accepted h) = false) (hlk : locked (s.accepted h) = false) (hp : sessParts.contains part = true)
    (hq : o = true → s.tp.clearQueue = []) (hw : canWrite (s.accepted h) h.path part = false) :
    exec (.passwordSet h part kind new o) s = .next ((s.accepted h).answer h 0x0905 .authFail (zeros 2)) := by
  have hover := overtaken_eq_false (h := h) hq
  exact congrArg _ (serve_refuses ho (beq_iff_eq.2 hl) (by
    rcases plainNet h with _ | _ <;>
      simp [firstFail, hpf, hlk, List.contains_iff_mem.1 hp, hw, -accepted_tp_clearQueue, hover]))

theorem execPasswordSet_of_badPassword {new : Nat} {o : Bool} (ho : Opens opPasswordSet h s) (hl : h.len = 12)
    (hpf : pfailing (s.accepted h) = false) (hlk : locked (s.accepted h) = false) (hn : plainNet h = false)
    (hp : sessParts.contains part = true) (hk : kind ≤ 1) (hw : canWrite (s.accepted h) h.path part = true)
    (hb : badPassword new = true) :
    exec (.passwordSet h part kind new o) s = .next ((s.accepted h).answer h 0x0905 .valueRange (zeros 2)) :=
  congrArg _ (serve_refuses ho (beq_iff_eq.2 hl) (by
    simp [firstFail, hpf, hlk, hn, List.contains_iff_mem.1 hp, hw, Nat.not_lt.2 hk, hb]))

/-- Settles O59: the checks of both requests in their order, and what PASSWORD_SET stores. -/
theorem networkSessionsNeedSecuredPackets : Obligations.NetworkSessionsNeedSecuredPackets := by
  refine fun s h part kind new hp hk hl => ⟨fun hn ho hlk => execSessionOpen_of_plain ho hl hn hlk,
    fun o hn ho hpf hlk => execPasswordSet_of_plain ho hl hpf hlk hn, fun o hq hn ho hpf hlk =>
      ⟨fun hw => execPasswordSet_of_unauthorised ho hl hpf hlk hp hq hw,
        fun hw hv => execPasswordSet_of_badPassword ho hl hpf hlk hn hp hk hw (badPassword_of_eq hv), fun hw hlen h0 h1 hs => ?_⟩⟩
  refine (passwordSet_of_stored ⟨ho, hl, hpf, hn, hp, hk, badPassword_of_ne h0 h1⟩ hq hlk hw hlen hs).imp ?_
  rintro t - ⟨hself, hrest, hopen, -⟩
  exact ⟨hself, hrest, hopen⟩

end Sys2Proof.Machine
end

section
/-! THEOREMS. Tamper evaluation, persistence, monitors, the Clearing, keys, TRNG and JTAG (R390 to R395, R399 to R405; O17, O18). -/

namespace Sys2Proof.Machine

variable {s t z : State} {k n : Nat} {ks : List Nat}

/-! ### Several raises -/

theorem latchRaise_slots_length (s : State) (r : Raise) : (s.latchRaise r).tp.slots.length = s.tp.slots.length :=
  onSlot_slots_length _ _

theorem foldl_latchRaise_slots_length (s : State) (l : List Raise) :
    (l.foldl State.latchRaise s).tp.slots.length = s.tp.slots.length :=
  List.foldlRecOn (motive := fun x : State => x.tp.slots.length = s.tp.slots.length) _ _ rfl
    fun _ h r _ => (latchRaise_slots_length _ r).trans h

theorem raiseAll_slots_length (s : State) (l : List Raise) : (s.raiseAll l).tp.slots.length = s.tp.slots.length := by
  rw [raiseAll_slots, foldl_latchRaise_slots_length]

/-- Raises of distinct sources: each named source is raised, the others stay. -/
theorem foldl_latchRaise_slot_of_mem (r : Nat → Raise) (hr : ∀ j, (r j).slot = j) (hd : ks.Nodup) (hk : k ∈ ks)
    (hn : k < s.tp.slots.length) : ((ks.map r).foldl State.latchRaise s).slot k = raisedSlot s (r k) (s.slot k) := by
  induction ks generalizing s with
  | nil => cases hk
  | cons j ks ih =>
    obtain ⟨hj, hd⟩ := List.nodup_cons.1 hd
    have hrest (hne : k ∉ ks) (s : State) : ((ks.map r).foldl State.latchRaise s).slot k = s.slot k := by
      refine List.foldlRecOn (motive := fun x : State => x.slot k = s.slot k) _ _ rfl fun x h y hy => ?_
      obtain ⟨i, hi, rfl⟩ := List.mem_map.1 hy
      rw [latchRaise_slot_ne (by rw [hr]; rintro rfl; exact hne hi), h]
    rw [List.map_cons, List.foldl_cons]
    rcases List.mem_cons.1 hk with rfl | hm
    · have h := latchRaise_slot_self (s := s) (r := r k) (by rwa [hr])
      rw [hr] at h
      rw [hrest hj, h]
    · rw [ih hd hm (by rwa [latchRaise_slots_length]), latchRaise_slot_ne (by rw [hr]; rintro rfl; exact hj hm)]
      rfl

theorem foldl_latchRaise_slot_of_not_mem (r : Nat → Raise) (hr : ∀ j, (r j).slot = j) (hk : k ∉ ks) :
    ((ks.map r).foldl State.latchRaise s).slot k = s.slot k := by
  refine List.foldlRecOn (motive := fun x : State => x.slot k = s.slot k) _ _ rfl fun x h y hy => ?_
  obtain ⟨i, hi, rfl⟩ := List.mem_map.1 hy
  rw [latchRaise_slot_ne (by rw [hr]; rintro rfl; exact hk hi), h]

/-! ### Several conditions -/

theorem tamperCond_slots_length (s : State) (n c : Nat) (holds : Bool) :
    (s.tamperCond n c holds).tp.slots.length = s.tp.slots.length := by
  rcases tamperCond_cases s n c holds with h | h | ⟨f, h⟩ | h <;> rw [h]
  · exact raiseAll_slots_length s _
  · exact onSlot_slots_length n f
  · unfold State.tamperClear
    split
    · rw [onSlot_slots_length, onSlot_slots_length]
    · split
      · rw [log_tp, onSlot_slots_length, onSlot_slots_length]
      · exact onSlot_slots_length ..

/-- What following the conditions of sources may change. -/
def condParts : List Part := [.se, .lk, .tp, .wd, .hm, .me, .free]

/-- Conditions of distinct sources: each named source follows its own on a state that has it as before, the others stay. -/
theorem foldl_tamperCond_slot_of_mem (c : Nat → Bool) (hd : ks.Nodup) (hk : k ∈ ks) :
    ∃ y, Changes condParts s y ∧ y.slot k = s.slot k ∧ y.tp.slots.length = s.tp.slots.length ∧
      (ks.foldl (fun y k => y.tamperCond k 0xFF (c k)) s).slot k = (y.tamperCond k 0xFF (c k)).slot k := by
  induction ks generalizing s with
  | nil => cases hk
  | cons j ks ih =>
    obtain ⟨hj, hd⟩ := List.nodup_cons.1 hd
    rw [List.foldl_cons]
    rcases List.mem_cons.1 hk with rfl | hm
    · refine ⟨s, .refl _ _, rfl, rfl, ?_⟩
      refine List.foldlRecOn (motive := fun x : State => x.slot k = (s.tamperCond k 0xFF (c k)).slot k) _ _ rfl fun x h i hi => ?_
      rw [tamperCond_slot_ne (by rintro rfl; exact hj hi), h]
    · obtain ⟨y, hy, hslot, hlen, he⟩ := ih (s := s.tamperCond j 0xFF (c j)) hd hm
      refine ⟨y, (tamperCond_ch (.refl condParts s) rfl).trans hy, ?_, hlen.trans (tamperCond_slots_length ..), he⟩
      rw [hslot, tamperCond_slot_ne (by rintro rfl; exact hj hm)]

theorem foldl_tamperCond_slot_of_not_mem (c : Nat → Bool) (hk : k ∉ ks) :
    (ks.foldl (fun y k => y.tamperCond k 0xFF (c k)) s).slot k = s.slot k := by
  refine List.foldlRecOn (motive := fun x : State => x.slot k = s.slot k) _ _ rfl fun x h i hi => ?_
  rw [tamperCond_slot_ne (by rintro rfl; exact hk hi), h]

/-! ### The evaluation (R390, R395) -/

theorem evaluatedSlots_nodup (s : State) : (evaluatedSlots s).Nodup := by
  unfold evaluatedSlots
  split <;> split <;> decide

theorem evaluatedSlots_lt (hk : k ∈ evaluatedSlots s) : k < 32 := by
  have h : ∀ a b : Bool, ∀ k ∈ [0, 1, 2] ++ (if a then [5] else []) ++ [7, 8, 9, 10] ++ (if b then [18] else []) ++ [26], k < 32 := by
    decide
  exact h _ _ k hk

/-- The sources that an evaluation raises, together. -/
def raisedTogether (s : State) (x : TamperIn) : List Nat := (evaluatedSlots s).filter fun k => conditionOf s x k && raisesNow s k

/-- The state once those are raised. -/
def afterRaises (s : State) (x : TamperIn) : State :=
  if (raisedTogether s x).isEmpty then s else s.raiseAll ((raisedTogether s x).map fun k => raiseOf s k 0xFF true)

/-- The sources that then take their conditions. -/
def followedAfter (s : State) (x : TamperIn) : List Nat := (evaluatedSlots s).filter fun k => !(raisedTogether s x).contains k

/-- The state after an evaluation. -/
def evaluated (s : State) (x : TamperIn) : State :=
  (followedAfter s x).foldl (fun y k => y.tamperCond k 0xFF (conditionOf s x k)) (afterRaises s x)

theorem execTamperEvaluation_eq (x : TamperIn) (h : s.pw.aonUp = true) : exec (.tamperEvaluation x) s = .next (evaluated s x) := by
  have he : exec (.tamperEvaluation x) s = execTamperEvaluation x s := rfl
  rw [he, execTamperEvaluation, if_pos h]
  rfl

theorem afterRaises_ch (s : State) (x : TamperIn) : Changes condParts s (afterRaises s x) := by
  unfold afterRaises
  split
  · exact .refl _ _
  · exact raiseAll_ch (.refl _ _) rfl

theorem afterRaises_slots (s : State) (x : TamperIn) : (afterRaises s x).tp.slots =
    (((raisedTogether s x).map fun k => raiseOf s k 0xFF true).foldl State.latchRaise s).tp.slots := by
  unfold afterRaises
  split
  next h => rw [List.isEmpty_iff.1 h]; rfl
  · exact raiseAll_slots s _

theorem afterRaises_slots_length (s : State) (x : TamperIn) : (afterRaises s x).tp.slots.length = s.tp.slots.length := by
  rw [afterRaises_slots, foldl_latchRaise_slots_length]

theorem evaluated_ch (s : State) (x : TamperIn) : Changes condParts s (evaluated s x) :=
  ch_foldl (fun _ _ h => tamperCond_ch h rfl) (afterRaises_ch s x)

/-- A source that is raised with others is not followed afterwards. -/
theorem evaluated_slot_of_raised {x : TamperIn} (hk : k ∈ raisedTogether s x) (hn : k < s.tp.slots.length) :
    (evaluated s x).slot k = raisedSlot s (raiseOf s k 0xFF true) (s.slot k) := by
  have hf : k ∉ followedAfter s x := fun hm => by simpa [hk] using (List.mem_filter.1 hm).2
  rw [evaluated, foldl_tamperCond_slot_of_not_mem _ hf, slot_congr (afterRaises_slots s x)]
  exact foldl_latchRaise_slot_of_mem (fun k => raiseOf s k 0xFF true) (fun _ => rfl) ((evaluatedSlots_nodup s).filter _) hk hn

/-- A source that is not raised with others follows its condition, with its slot, the parameters and the clock as they were. -/
theorem evaluated_slot_of_followed {x : TamperIn} (hk : k ∈ evaluatedSlots s) (hr : k ∉ raisedTogether s x) :
    ∃ y, Changes condParts s y ∧ y.slot k = s.slot k ∧ y.tp.slots.length = s.tp.slots.length ∧
      (evaluated s x).slot k = (y.tamperCond k 0xFF (conditionOf s x k)).slot k := by
  have hf : k ∈ followedAfter s x := List.mem_filter.2 ⟨hk, by simpa using hr⟩
  obtain ⟨y, hy, hslot, hlen, he⟩ := foldl_tamperCond_slot_of_mem (s := afterRaises s x) (conditionOf s x)
    ((evaluatedSlots_nodup s).filter _) hf
  refine ⟨y, (afterRaises_ch s x).trans hy, ?_, hlen.trans (afterRaises_slots_length s x), he⟩
  rw [hslot, slot_congr (afterRaises_slots s x), foldl_latchRaise_slot_of_not_mem (fun k => raiseOf s k 0xFF true) (fun _ => rfl) hr]

theorem persistMs_of_changes (h : Changes condParts s t) (n : Nat) : persistMs t n = persistMs s n := by
  unfold persistMs
  rw [h.par_eq rfl rfl rfl rfl]

theorem tamperEvaluation_gives (x : TamperIn) (hup : s.pw.aonUp = true) (hlen : s.tp.slots.length = 32) :
    Gives (.tamperEvaluation x) s fun t =>
      (∀ k ∈ evaluatedSlots s, slotFrom.getD k 5 ≤ s.pw.stage → conditionOf s x k = true → persistMs s k = 0 →
        (s.slot k).active = false → (s.slot k).persisting = false →
        (t.slot k).active = true ∧ (t.slot k).latched = true ∧ (t.slot k).count = u32 ((s.slot k).count + 1)) ∧
      (∀ k ∈ evaluatedSlots s, slotFrom.getD k 5 ≤ s.pw.stage → conditionOf s x k = true → persistMs s k ≠ 0 →
        (s.slot k).active = false → (s.slot k).persisting = false →
        t.slot k = { s.slot k with persisting := true, since := s.clk }) ∧
      (∀ k ∈ evaluatedSlots s, slotFrom.getD k 5 ≤ s.pw.stage → conditionOf s x k = false →
        t.slot k = { s.slot k with active := false, persisting := false }) ∧
      t = { s with se := t.se, lk := t.lk, tp := t.tp, wd := t.wd, hm := t.hm, me := t.me, free := t.free } := by
  have hlt {k : Nat} (hk : k ∈ evaluatedSlots s) : k < s.tp.slots.length := hlen ▸ evaluatedSlots_lt hk
  refine ⟨_, execTamperEvaluation_eq x hup, fun k hk hf hc hp ha hpe => ?_, fun k hk hf hc hp ha hpe => ?_,
    fun k hk hf hc => ?_, (evaluated_ch s x).eq_pick⟩
  · have hr : k ∈ raisedTogether s x := List.mem_filter.2 ⟨hk, by simp only [hc, raisesNow, hf, ha, hpe, hp]; rfl⟩
    rw [evaluated_slot_of_raised hr (hlt hk)]
    exact ⟨rfl, rfl, rfl⟩
  · have hr : k ∉ raisedTogether s x := fun hm => by
      have h2 := (List.mem_filter.1 hm).2
      simp [raisesNow, hp] at h2
    obtain ⟨y, hy, hslot, hl, he⟩ := evaluated_slot_of_followed hk hr
    rw [he, hc, tamperCond_of_persisting (by rwa [hy.pw rfl]) (by rwa [persistMs_of_changes hy]) (by rwa [hslot])
      (by rwa [hslot]), onSlot_slot_self (by rw [hl]; exact hlt hk), hslot, hy.clk rfl]
  · have hr : k ∉ raisedTogether s x := fun hm => by
      have h2 := (List.mem_filter.1 hm).2
      simp [hc] at h2
    obtain ⟨y, hy, hslot, hl, he⟩ := evaluated_slot_of_followed hk hr
    rw [he, hc, tamperCond_slot_of_ceased (by rwa [hy.pw rfl]) (by rw [hl]; exact hlt hk), hslot]

/-! ### Persistence (R390) -/

theorem tamperPersistExpiry_gives (k : Fin 32) (hlen : s.tp.slots.length = 32) (hp : (s.slot k).persisting = true)
    (hdue : s.after (s.slot k).since (persistMs s k * cycMs) = true) : Gives (.tamperPersistExpiry k) s fun t =>
      (t.slot k).active = true ∧ (t.slot k).latched = true ∧ (t.slot k).persisting = false ∧
      (t.slot k).count = u32 ((s.slot k).count + 1) ∧ (∀ j, j ≠ k.val → t.slot j = s.slot j) ∧
      t = { s with se := t.se, lk := t.lk, tp := t.tp, wd := t.wd, hm := t.hm, me := t.me, free := t.free } := by
  have he : exec (.tamperPersistExpiry k) s = .next (s.tamperRaise k 0xFF true) := if_pos (by rw [hp, hdue]; rfl)
  have hs := tamperRaise_slot_self (n := k) (k.isLt.trans_eq hlen.symm) 0xFF true
  refine ⟨_, he, by rw [hs]; rfl, by rw [hs]; rfl, by rw [hs]; rfl, by rw [hs]; rfl, fun j hj => tamperRaise_slot_ne hj 0xFF true,
    (tamperRaise_ch (.refl condParts s) rfl).eq_pick⟩

/-! ### The Clearing (R403, R469) -/

/-- Of the tamper state a Clearing changes what it zeroises. -/
theorem clearOnce_tp (s : State) (job : ClearJob) : (s.clearOnce job).tp = s.zeroised.tp := by
  rw [clearOnce_eq]
  have h : Changes [.hw, .se, .wd, .hm] s.zeroised (job.raises.foldl State.logRaise
      ((s.zeroised.eraseWrapped.clearPasswords.dropSessions fun _ => true).log 0x0A04 (le 4 job.mask))) :=
    ch_foldl (fun _ _ h => logRaise_ch h rfl)
      (log_ch (dropSessions_ch (clearPasswords_ch (eraseWrapped_ch (.refl _ _) rfl) rfl) rfl) rfl)
  exact h.tp rfl

theorem clearing_gives {m : ClearJob} {r : List ClearJob} (hq : s.tp.clearQueue = m :: r) (h0 : s.pw.stage ≠ 0) :
    Gives .clearing s fun t =>
      t.tp.clearQueue = r ∧ t.tp.identity = none ∧ t.tp.wrapped = none ∧ t.tp.keys = [] ∧ t.se.open_ = [] ∧
      (∀ p ∈ t.se.pws, p.st = 2) ∧ t.tp.clearings = u32 (s.tp.clearings + 1) ∧ t.tp.clearedSinceUp = true ∧
      t.tp.owner = s.tp.owner ∧ t.tp.slots = s.tp.slots ∧
      keepsBytes s t [(0, 256), (pageAddr 0 pwRec.2, 512), (pageAddr 0 keyRec.2, 512)] ∧
      t = { s with tp := t.tp, se := t.se, hm := t.hm, wd := t.wd, hw := t.hw } := by
  have he : exec .clearing s = .next ((s.onTp fun t => { t with clearQueue := r }).clearOnce m) := by
    have he : exec .clearing s = execClearing s := rfl
    rw [he, execClearing, hq]
    exact if_neg (by simpa using h0)
  obtain ⟨⟨hi, hw, hk, ho, hpw⟩, -, -⟩ := clearOnce_brings (s.onTp fun t => { t with clearQueue := r }) m
  have htp := clearOnce_tp (s.onTp fun t => { t with clearQueue := r }) m
  have hb : keepsBytes (s.onTp fun t => { t with clearQueue := r }) _ _ :=
    clearOnce_keepsBytes (l := [(0, 256), (pageAddr 0 pwRec.2, 512), (pageAddr 0 keyRec.2, 512)]) (job := m)
      ⟨by decide, by decide, by decide⟩ ⟨by decide, by decide, by decide⟩
  exact ⟨_, he, by rw [htp]; rfl, hi, hw, hk, ho, hpw, by rw [htp]; rfl, by rw [htp]; rfl, by rw [htp]; rfl, by rw [htp]; rfl, hb,
    (clearOnce_ch (onTp_ch (.refl [.tp, .se, .hm, .wd, .hw] s) rfl) rfl).eq_pick⟩

/-! ### Clock monitors (R391, R392) -/

/-- A source that is raised at once by its condition. -/
theorem tamperCond_slot_of_new {c : Nat} (h : slotFrom.getD n 5 ≤ s.pw.stage) (hp : persistMs s n = 0)
    (ha : (s.slot n).active = false) (hs : (s.slot n).persisting = false) (hn : n < s.tp.slots.length) :
    (s.tamperCond n c true).slot n = raisedSlot s (raiseOf s n c true) (s.slot n) := by
  rw [tamperCond_of_new h hp ha hs, tamperRaise_slot_self hn]

/-- What a window's detectors find is entered. -/
def windowEntered (s : State) (k : Fin 3) (d a : DetIn) : State :=
  s.onTp fun t => { t with
    monClk := modAt t.monClk k fun _ => some s.clk
    detPrev := modAt t.detPrev k fun _ => (detReports s d, detReports s a)
    disagree := modAt t.disagree k fun _ =>
      if detReports s d != detReports s a then s.tp.disagree.getD k 0 + 1 else 0 }

/-- Both detectors report in the same or in adjacent windows. -/
def bothReport (s : State) (k : Fin 3) (d a : DetIn) : Bool :=
  (detReports s d && detReports s a) || (detReports s d && (s.tp.detPrev.getD k (false, false)).2) ||
    (detReports s a && (s.tp.detPrev.getD k (false, false)).1)

theorem execClockMonitorWindow_eq {k : Fin 3} (d a : DetIn) (h0 : s.pw.stage ≠ 0)
    (hc : (s.tp.monClk.getD k none).any (fun c => !s.after c (monWindow k)) = false) :
    ∃ b, exec (.clockMonitorWindow k d a) s =
      .next (((windowEntered s k d a).tamperCond (3 + k) 0xFF (bothReport s k d a)).tamperCond 6 0xFF b) := by
  have he : exec (.clockMonitorWindow k d a) s = execClockMonitorWindow k d a s := rfl
  rw [he, execClockMonitorWindow, if_neg (by rw [hc, Bool.or_false]; simpa using h0)]
  exact ⟨_, rfl⟩

theorem clockMonitorWindow_gives {k : Fin 3} (d a : DetIn) (h0 : s.pw.stage ≠ 0)
    (hc : (s.tp.monClk.getD k none).any (fun c => !s.after c (monWindow k)) = false) (hd : s.tp.detPrev.length = 3)
    (hlen : s.tp.slots.length = 32) : Gives (.clockMonitorWindow k d a) s fun t =>
      t.tp.detPrev.getD k (false, false) = (detReports s d, detReports s a) ∧
      ((detReports s d && detReports s a) || (detReports s d && (s.tp.detPrev.getD k (false, false)).2) ||
          (detReports s a && (s.tp.detPrev.getD k (false, false)).1) = true → slotFrom.getD (3 + k) 5 ≤ s.pw.stage → persistMs s (3 + k) = 0 →
        (s.slot (3 + k)).active = false → (s.slot (3 + k)).persisting = false →
        (t.slot (3 + k)).active = true ∧ (t.slot (3 + k)).latched = true) ∧
      t = { s with se := t.se, lk := t.lk, tp := t.tp, wd := t.wd, hm := t.hm, me := t.me, free := t.free } := by
  obtain ⟨b, he⟩ := execClockMonitorWindow_eq d a h0 hc
  have h1 : Changes condParts s (windowEntered s k d a) := onTp_ch (.refl _ _) rfl
  have h2 := tamperCond_ch (slot := 3 + k.val) (circuit := 0xFF) (holds := bothReport s k d a) h1 rfl
  refine ⟨_, he, ?_, fun hb hf hp ha hpe => ?_, (tamperCond_ch h2 rfl).eq_pick⟩
  · have haside := (tamperCond_aside (by rwa [h2.pw rfl]) 6 0xFF b).trans
      (tamperCond_aside (by rwa [h1.pw rfl]) (3 + k) 0xFF (bothReport s k d a))
    have hprev := (congrArg Tamper.detPrev haside :)
    exact (congrArg (fun l => l.getD k.val (false, false)) hprev).trans (modAt_getD_self _ _ _ _ (k.isLt.trans_eq hd.symm))
  · have hb : bothReport s k d a = true := by simpa only [bothReport, Bool.decide_eq_true] using hb
    rw [tamperCond_slot_ne (by omega), hb, tamperCond_slot_of_new (s := windowEntered s k d a) hf
      ((persistMs_of_changes h1 _).trans hp) ha hpe (show 3 + k.val < s.tp.slots.length by omega)]
    exact ⟨rfl, rfl⟩

/-- Detectors that miss an injection. -/
def missed (d a : InjectIn) : Nat := (if injectPasses d then 0 else 1) + (if injectPasses a then 0 else 1)

theorem missed_ne_zero (d a : InjectIn) : (missed d a != 0) = !(injectPasses d && injectPasses a) := by
  unfold missed
  cases injectPasses d <;> cases injectPasses a <;> rfl

theorem monitorInjection_gives (d a : InjectIn) (h0 : s.pw.stage ≠ 0)
    (hc : s.tp.injectClk.any (fun c => !s.after c (10 * cycS)) = false) : Gives (.monitorInjection d a) s fun t =>
      t.tp.injectFails =
        u32 (s.tp.injectFails + ((if injectPasses d then 0 else 1) + (if injectPasses a then 0 else 1))) ∧
      t.tp.injectBad = !(injectPasses d && injectPasses a) ∧
      t = { s with se := t.se, lk := t.lk, tp := t.tp, wd := t.wd, hm := t.hm, me := t.me, free := t.free } := by
  have he : ∃ b, exec (.monitorInjection d a) s = .next ((s.onTp fun t =>
      { t with injectFails := u32 (t.injectFails + missed d a), injectBad := missed d a != 0, injectClk := some s.clk }).tamperCond
        6 0xFF b) := by
    have he : exec (.monitorInjection d a) s = execMonitorInjection d a s := rfl
    rw [he, execMonitorInjection, if_neg (by rw [hc, Bool.or_false]; simpa using h0)]
    exact ⟨_, rfl⟩
  obtain ⟨b, he⟩ := he
  have haside := tamperCond_aside (s := s.onTp fun t =>
      { t with injectFails := u32 (t.injectFails + missed d a), injectBad := missed d a != 0, injectClk := some s.clk }) h0 6 0xFF b
  exact ⟨_, he, (congrArg Tamper.injectFails haside :), (congrArg Tamper.injectBad haside :).trans (missed_ne_zero d a),
    (tamperCond_ch (onTp_ch (.refl condParts s) rfl) rfl).eq_pick⟩

/-- Settles O17: raises together and conditions one by one touch each its own slot; a Clearing is its zeroising and its writes. -/
theorem tamperSourcesLatchAndClear : Obligations.TamperSourcesLatchAndClear :=
  fun _ => ⟨fun x => tamperEvaluation_gives x, fun k => tamperPersistExpiry_gives k, fun _ _ => clearing_gives,
    fun _ d a => clockMonitorWindow_gives d a, fun d a => monitorInjection_gives d a⟩

/-! ### Key store and TRNG (R400, R402) -/

/-- The state whose key store is judged. -/
def keyChecked (s : State) (ok : Bool) : State := (s.onTp fun t => { t with keyClk := some s.clk }).tamperCond 22 0xFF (!ok)

theorem execKeystoreCheck_eq {ok : Bool} (h2 : 2 ≤ s.pw.stage) (hc : s.tp.keyClk.any (fun c => !s.after c (3600 * cycS)) = false) :
    exec (.keystoreCheck ok) s = .next ((keyChecked s ok).restoreKeys ok) :=
  if_neg (by simp [hc, Nat.not_lt.2 h2])

theorem keyChecked_aside (h2 : 2 ≤ s.pw.stage) (ok : Bool) :
    (keyChecked s ok).tp.aside = { s.tp.aside with keyClk := some s.clk } :=
  tamperCond_aside (s := s.onTp fun t => { t with keyClk := some s.clk }) (show s.pw.stage ≠ 0 by omega) 22 0xFF (!ok)

theorem keyChecked_ch (s : State) (ok : Bool) : Changes condParts s (keyChecked s ok) :=
  tamperCond_ch (onTp_ch (.refl _ _) rfl) rfl

theorem restoreKeys_of_bad (s : State) : s.restoreKeys false = s.onTp fun t => { t with identity := t.wrapped, keys := [] } := rfl

theorem restoreKeys_of_good (s : State) : s.restoreKeys true =
    if s.tp.identity.isNone then s.onTp fun t => { t with identity := t.wrapped } else s := rfl

theorem keystoreCheck_of_bad (h2 : 2 ≤ s.pw.stage) (hc : s.tp.keyClk.any (fun c => !s.after c (3600 * cycS)) = false) :
    Gives (.keystoreCheck false) s fun t => t.tp.identity = s.tp.wrapped ∧ t.tp.keys = [] ∧ t.tp.wrapped = s.tp.wrapped ∧
      t = { s with se := t.se, lk := t.lk, tp := t.tp, wd := t.wd, hm := t.hm, me := t.me, free := t.free } := by
  have hw : (keyChecked s false).tp.wrapped = s.tp.wrapped := (congrArg Tamper.wrapped (keyChecked_aside h2 false) :)
  have he := execKeystoreCheck_eq (ok := false) h2 hc
  rw [restoreKeys_of_bad] at he
  exact ⟨_, he, hw, rfl, hw, (onTp_ch (keyChecked_ch s false) rfl).eq_pick⟩

theorem keystoreCheck_of_good (h2 : 2 ≤ s.pw.stage) (hc : s.tp.keyClk.any (fun c => !s.after c (3600 * cycS)) = false) :
    Gives (.keystoreCheck true) s fun t =>
      t.tp.identity = (if s.tp.identity.isNone then s.tp.wrapped else s.tp.identity) ∧ t.tp.keys = s.tp.keys ∧
      t = { s with se := t.se, lk := t.lk, tp := t.tp, wd := t.wd, hm := t.hm, me := t.me, free := t.free } := by
  have ha := keyChecked_aside h2 true
  have hi : (keyChecked s true).tp.identity = s.tp.identity := (congrArg Tamper.identity ha :)
  have hw : (keyChecked s true).tp.wrapped = s.tp.wrapped := (congrArg Tamper.wrapped ha :)
  have hk : (keyChecked s true).tp.keys = s.tp.keys := (congrArg Tamper.keys ha :)
  have he := execKeystoreCheck_eq (ok := true) h2 hc
  rw [restoreKeys_of_good, hi] at he
  by_cases hn : s.tp.identity.isNone
  · rw [if_pos hn] at he
    exact ⟨_, he, hw.trans (if_pos hn).symm, hk, (onTp_ch (keyChecked_ch s true) rfl).eq_pick⟩
  · rw [if_neg hn] at he
    exact ⟨_, he, hi.trans (if_neg hn).symm, hk, (keyChecked_ch s true).eq_pick⟩

theorem trngHealthFail_gives (h0 : s.pw.stage ≠ 0) : Gives .trngHealthFail s fun t =>
    t.tp.trngOk = false ∧ t.tp.trngFails = u32 (s.tp.trngFails + 1) ∧ t.tp.identity = s.tp.identity ∧
      t = { s with se := t.se, lk := t.lk, tp := t.tp, wd := t.wd, hm := t.hm, me := t.me, free := t.free } := by
  have he : exec .trngHealthFail s = .next ((s.onTp fun t =>
      { t with trngOk := false, trngFails := u32 (t.trngFails + 1), trngClk := s.clk }).tamperCond 21 0xFF true) :=
    if_neg (by simpa using h0)
  have ha := tamperCond_aside (s := s.onTp fun t =>
      { t with trngOk := false, trngFails := u32 (t.trngFails + 1), trngClk := s.clk }) h0 21 0xFF true
  exact ⟨_, he, (congrArg Tamper.trngOk ha :), (congrArg Tamper.trngFails ha :), (congrArg Tamper.identity ha :),
    (tamperCond_ch (onTp_ch (.refl condParts s) rfl) rfl).eq_pick⟩

/-- A condition that has gone touches tamper state and log alone. -/
theorem tamperCond_ceased_ch (s : State) (n c : Nat) : Changes [.tp, .wd] s (s.tamperCond n c false) := by
  by_cases h : s.pw.stage < slotFrom.getD n 5
  · rw [tamperCond_of_early h]
    exact .refl _ _
  · rw [tamperCond_of_ceased (Nat.not_lt.1 h)]
    exact tamperClear_ch (onSlot_ch (.refl _ _) rfl) rfl

theorem trngRestart_waits (h0 : s.pw.stage ≠ 0) (hok : s.tp.trngOk = false) (hd : s.after s.tp.trngClk (10 * cycS) = true) :
    ¬ (s.pw.stage == 0 || s.tp.trngOk || !s.after s.tp.trngClk (10 * cycS)) = true := by
  simp [h0, hok, hd]

theorem trngRestart_of_good (h0 : s.pw.stage ≠ 0) (hok : s.tp.trngOk = false) (hd : s.after s.tp.trngClk (10 * cycS) = true) :
    Gives (.trngRestart true) s fun t =>
      t.tp.trngOk = true ∧ t.tp.trngFails = s.tp.trngFails ∧ (t.slot 21).latched = (s.slot 21).latched ∧
      t = { s with tp := t.tp, wd := t.wd } := by
  have he : exec (.trngRestart true) s = .next ((s.onTp fun t => { t with trngOk := true }).tamperCond 21 0xFF false) :=
    if_neg (trngRestart_waits h0 hok hd)
  have ha := tamperCond_aside (s := s.onTp fun t => { t with trngOk := true }) h0 21 0xFF false
  exact ⟨_, he, (congrArg Tamper.trngOk ha :), (congrArg Tamper.trngFails ha :), tamperCond_latched_of_ceased _ 21 0xFF 21,
    ((onTp_ch (.refl _ s) rfl).trans (tamperCond_ceased_ch _ 21 0xFF)).eq_pick⟩

theorem trngRestart_of_bad (h0 : s.pw.stage ≠ 0) (hok : s.tp.trngOk = false) (hd : s.after s.tp.trngClk (10 * cycS) = true) :
    exec (.trngRestart false) s = .next { s with tp := { s.tp with trngFails := u32 (s.tp.trngFails + 1), trngClk := s.clk } } :=
  if_neg (trngRestart_waits h0 hok hd)

/-! ### JTAG (R405) -/

theorem tapOff_eq_false (h1 : s.pw.phase ≠ .off) (h2 : s.pw.phase ≠ .started) :
    ¬ (s.pw.phase == .off || s.pw.phase == .started) = true := by
  simp [h1, h2]

/-- A source that ceases is not ACTIVE. -/
theorem tamperClear_active (hn : n < s.tp.slots.length) (c : Nat) : ((s.tamperClear n c).slot n).active = false := by
  have hoff : ((s.onSlot n fun x => { x with active := false, persisting := false }).slot n).active = false := by
    rw [onSlot_slot_self hn]
  unfold State.tamperClear
  split
  · exact hoff
  · split
    · rw [log_slot]
      exact hoff
    next ha => simpa using ha

theorem jtagUpdateIr_of_known {ir : BitVec 5} (h1 : s.pw.phase ≠ .off) (h2 : s.pw.phase ≠ .started) (hi : ir = 31#5 ∨ ir = 1#5) :
    Gives (.jtagUpdateIr ir) s fun t =>
      t.tp.jtagIr = ir.toNat ∧ t.tp.jtagWait = none ∧ (s.tp.slots.length = 32 → (t.slot 18).active = false) ∧
      (t.slot 18).latched = (s.slot 18).latched ∧ t = { s with tp := t.tp, wd := t.wd } := by
  have he : exec (.jtagUpdateIr ir) s =
      .next ((s.onTp fun t => { t with jtagIr := ir.toNat, jtagWait := none }).tamperClear 18 0xFF) :=
    (if_neg (tapOff_eq_false h1 h2)).trans (if_pos (by simpa using hi))
  have ha := tamperClear_aside (s.onTp fun t => { t with jtagIr := ir.toNat, jtagWait := none }) 18 0xFF
  exact ⟨_, he, (congrArg Tamper.jtagIr ha :), (congrArg Tamper.jtagWait ha :),
    fun hl => tamperClear_active (s := s.onTp fun t => { t with jtagIr := ir.toNat, jtagWait := none })
      (show 18 < s.tp.slots.length by omega) 0xFF, tamperClear_latched _ 18 0xFF 18,
    (tamperClear_ch (onTp_ch (.refl [.tp, .wd] s) rfl) rfl).eq_pick⟩

theorem jtagUpdateIr_of_other {ir : BitVec 5} (h1 : s.pw.phase ≠ .off) (h2 : s.pw.phase ≠ .started) (h0 : s.pw.stage ≠ 0)
    (hl : s.tp.slots.length = 32) (hi : ir ≠ 31#5) (hj : ir ≠ 1#5) : Gives (.jtagUpdateIr ir) s fun t =>
      t.tp.jtagIr = 31 ∧ t.tp.jtagWait = some ir.toNat ∧ (t.slot 18).latched = true ∧ (t.slot 18).active = true ∧
      t = { s with se := t.se, lk := t.lk, tp := t.tp, wd := t.wd, hm := t.hm, me := t.me, free := t.free } := by
  have he : exec (.jtagUpdateIr ir) s =
      .next ((s.onTp fun t => { t with jtagIr := 31, jtagWait := some ir.toNat }).tamperRaise 18 0xFF true) :=
    (if_neg (tapOff_eq_false h1 h2)).trans ((if_neg (by simp [hi, hj])).trans (if_neg (by simpa using h0)))
  have ha := raiseAll_aside (s := s.onTp fun t => { t with jtagIr := 31, jtagWait := some ir.toNat }) h0
    [raiseOf (s.onTp fun t => { t with jtagIr := 31, jtagWait := some ir.toNat }) 18 0xFF true]
  have hs := tamperRaise_slot_self (s := s.onTp fun t => { t with jtagIr := 31, jtagWait := some ir.toNat }) (n := 18)
    (show 18 < s.tp.slots.length by omega) 0xFF true
  exact ⟨_, he, (congrArg Tamper.jtagIr ha :), (congrArg Tamper.jtagWait ha :), by rw [hs]; rfl, by rw [hs]; rfl,
    (tamperRaise_ch (onTp_ch (.refl condParts s) rfl) rfl).eq_pick⟩

theorem jtagReset_gives (h1 : s.pw.phase ≠ .off) (h2 : s.pw.phase ≠ .started) : Gives .jtagReset s fun t =>
    t.tp.jtagIr = 1 ∧ t.tp.jtagWait = none ∧ (t.slot 18).latched = (s.slot 18).latched ∧ t = { s with tp := t.tp, wd := t.wd } := by
  have he : exec .jtagReset s = .next ((s.onTp fun t => { t with jtagIr := 1, jtagWait := none }).tamperClear 18 0xFF) :=
    if_neg (tapOff_eq_false h1 h2)
  have ha := tamperClear_aside (s.onTp fun t => { t with jtagIr := 1, jtagWait := none }) 18 0xFF
  exact ⟨_, he, (congrArg Tamper.jtagIr ha :), (congrArg Tamper.jtagWait ha :), tamperClear_latched _ 18 0xFF 18,
    (tamperClear_ch (onTp_ch (.refl [.tp, .wd] s) rfl) rfl).eq_pick⟩

/-- Settles O18: each writes a few fields of the tamper state, and the source that follows touches slots alone. -/
theorem keyStoreRandomnessAndJtag : Obligations.KeyStoreRandomnessAndJtag :=
  fun _ => ⟨keystoreCheck_of_bad, keystoreCheck_of_good, trngHealthFail_gives, trngRestart_of_good, trngRestart_of_bad,
    fun _ => jtagUpdateIr_of_known, fun _ => jtagUpdateIr_of_other, jtagReset_gives⟩

end Sys2Proof.Machine
end

section
/-! THEOREMS. TAMPER_READ, TAMPER_ACK, KEY_AGREE and PROVISION (R398, R404, R406 to R408; O19). -/

namespace Sys2Proof.Machine

variable {s t z : State} {h : Hdr} {k n : Nat} {ks : List Nat}

/-! ### TAMPER_ACK (R398) -/

theorem slot_of_not_lt (h : ¬ n < s.tp.slots.length) : s.slot n = ⟨false, false, false, 0, 0, 0, 0, false, 0⟩ :=
  List.getD_eq_default _ _ (Nat.not_lt.1 h)

/-- One source unlatched, with its entry. -/
def unlatched (s : State) (d : List Byte) (j : Nat) : State :=
  (s.onSlot j fun y => { y with latched := false, onVbat := false }).log 0x0A03 d

theorem unlatched_slot_ne (d : List Byte) (hk : k ≠ n) : (unlatched s d n).slot k = s.slot k := by
  rw [unlatched, log_slot, onSlot_slot_ne hk]

theorem unlatched_slot_self (s : State) (d : List Byte) (n : Nat) :
    ((unlatched s d n).slot n).latched = false ∧ ((unlatched s d n).slot n).active = (s.slot n).active := by
  rw [unlatched, log_slot]
  by_cases hn : n < s.tp.slots.length
  · rw [onSlot_slot_self hn]
    exact ⟨rfl, rfl⟩
  · rw [slot_of_not_lt hn, slot_of_not_lt (by rwa [onSlot_slots_length])]
    exact ⟨rfl, rfl⟩

/-- Sources unlatched one after the other. -/
theorem foldl_unlatched (d : Nat → List Byte) (ks : List Nat) (s : State) (k : Nat) :
    ((ks.foldl (fun x j => unlatched x (d j) j) s).slot k).latched = ((s.slot k).latched && !decide (k ∈ ks)) ∧
      ((ks.foldl (fun x j => unlatched x (d j) j) s).slot k).active = (s.slot k).active := by
  induction ks generalizing s with
  | nil => simp
  | cons j ks ih =>
    obtain ⟨hl, ha⟩ := ih (unlatched s (d j) j)
    rw [List.foldl_cons, hl, ha]
    by_cases hk : k = j
    · subst hk
      obtain ⟨hl, ha⟩ := unlatched_slot_self s (d k) k
      simp [hl, ha]
    · rw [unlatched_slot_ne (d j) hk]
      simp [hk]

/-- What TAMPER_ACK makes of the state. -/
def acked (s : State) (mask : Nat) : State :=
  (ackSlots s mask).foldl (fun x j => unlatched x (le 1 j ++ le 1 (s.slot j).resp ++ le 1 0xFF) j) s

theorem acked_ch (s : State) (mask : Nat) : Changes [.tp, .wd, .free] s (acked s mask) :=
  ch_foldl (fun _ _ h => log_ch (onSlot_ch h rfl) rfl) (.refl _ s)

theorem acked_latched (s : State) (mask k : Nat) : ((acked s mask).slot k).latched =
    ((s.slot k).latched && !(decide (k < 32) && bitAt mask k && !(s.slot k).active)) := by
  have hm : (k ∈ ackSlots s mask) ↔ k < 32 ∧ (bitAt mask k && (s.slot k).latched && !(s.slot k).active) = true := by
    rw [ackSlots, List.mem_filter, List.mem_range]
  rw [acked, (foldl_unlatched _ _ _ _).1]
  simp only [hm]
  cases (s.slot k).latched <;> simp [Bool.or_assoc]

theorem acked_active (s : State) (mask k : Nat) : ((acked s mask).slot k).active = (s.slot k).active :=
  (foldl_unlatched _ _ _ _).2

/-- The state that TAMPER_ACK leaves: where a signature was needed, a new challenge follows. -/
def ackDone (s : State) (mask : Nat) : State := if ackNeedsSig s mask then (acked s mask).newChallenge else acked s mask

theorem ackDone_slot (s : State) (mask k : Nat) : (ackDone s mask).slot k = (acked s mask).slot k := by
  unfold ackDone
  split <;> rfl

theorem ackDone_ch (s : State) (mask : Nat) : Changes [.tp, .wd, .free] s (ackDone s mask) := by
  unfold ackDone
  split
  · exact newChallenge_ch (acked_ch s mask) rfl
  · exact acked_ch s mask

theorem tamperAck_answers {mask : Nat} {sig : Option SigIn} (ho : Opens opTamperAck h s)
    (hl : h.len = (if sig.isSome then 72 else 8))
    (hs : ackNeedsSig (s.accepted h) mask = true → (s.accepted h).tp.owner.isSome = true ∧ sig.any (sigOk (s.accepted h)) = true) :
    Answers (.tamperAck h mask sig) s opTamperAck h .ok fun v bs =>
      (∀ k, (v.slot k).latched = (((s.accepted h).slot k).latched &&
        !(decide (k < 32) && bitAt mask k && !((s.accepted h).slot k).active))) ∧
      (∀ k, (v.slot k).active = ((s.accepted h).slot k).active) ∧
      bs = zeros 2 ++ le 4 (slotBits v (·.latched)) ∧
      v = { s.accepted h with tp := v.tp, wd := v.wd, free := v.free } := by
  have hfail : (ackNeedsSig (s.accepted h) mask && !((s.accepted h).tp.owner.isSome && sig.any (sigOk (s.accepted h)))) = false := by
    cases hn : ackNeedsSig (s.accepted h) mask with
    | false => rfl
    | true =>
      obtain ⟨h1, h2⟩ := hs hn
      rw [h1, h2]
      rfl
  exact answers_of rfl ho (beq_iff_eq.2 hl) (by simp only [firstFail, hfail]; rfl) rfl
    ⟨fun k => (congrArg Slot.latched (ackDone_slot _ mask k)).trans (acked_latched _ mask k),
      fun k => (congrArg Slot.active (ackDone_slot _ mask k)).trans (acked_active _ mask k), rfl, (ackDone_ch _ mask).eq_pick⟩

/-! ### KEY_AGREE (R408) -/

theorem keyAgree_answers {pub : List Byte} (hp : pub.length = 64) (hn : n = 16 ∨ n = 32) (ho : Opens opKeyAgree h s)
    (hl : h.len = 68) (hc : onCurve pub = true) (hi : (s.accepted h).tp.identity.isSome = true)
    (ht : (s.accepted h).tp.trngOk = true) : Answers (.keyAgree h pub n) s opKeyAgree h .ok fun v bs =>
      (∃ key, key.length = n ∧ v.tp.keys = setKey (s.accepted h).tp.keys h.path key) ∧ bs.length = 194 ∧
      v = { s.accepted h with tp := { (s.accepted h).tp with keys := v.tp.keys }, free := v.free } := by
  have hn' : (n != 16 && n != 32) = false := by rcases hn with rfl | rfl <;> rfl
  have hi' : (s.accepted h).tp.identity.isNone = false := by
    rw [← Option.not_isSome, hi]
    rfl
  refine answers_of (if_neg (by simp [hp])) ho (beq_iff_eq.2 hl) (by simp only [firstFail, hi', hc, hn', ht]; rfl) rfl ⟨⟨_, ?_, rfl⟩, ?_, rfl⟩
  · rw [List.length_take, sha256_length]
    omega
  · simp [freeBytes, identityPub, crypto, zeros]

/-! ### PROVISION GENERATE (R407) -/

theorem keyRec_pairIn : PairIn [(0, 256), (pageAddr 0 keyRec.2, 512)] 0 keyRec.2 := ⟨by decide, by decide, by decide⟩

/-- The wrapped copy of the next identity key, put into its record. -/
def keyPut (s : State) (h : Hdr) : State × Bool := (s.fragEnd h).itemPut 0 [keyRec] (wrappedBytes (s.tp.keySerial + 1))

/-- The state in which the next identity key is in use. -/
def generated (s : State) (h : Hdr) : State :=
  ((keyPut s h).1.onTp fun t =>
    { t with keySerial := s.tp.keySerial + 1, identity := some (s.tp.keySerial + 1), wrapped := some (s.tp.keySerial + 1)
             erased := false }).newChallenge

theorem execProvisionGenerate_eq (ho : Opens (opProvision 90) h s) (hm : h.more = false)
    (hl : (fragOf s h 0x0A11).length + h.len = 4) (hpf : (s.accepted h).pw.pfail = false)
    (hi : (s.accepted h).tp.identity = none) (ht : (s.accepted h).tp.trngOk = true) :
    exec (.provisionGenerate h false) s = .next (
      if (keyPut (s.accepted h) h).2 then
        (generated (s.accepted h) h).replied (opProvision 90) h .ok (zeros 2 ++ uidBytes ++
          fitBytes 16 (generated (s.accepted h) h).tp.challenge ++ identityPub ((s.accepted h).tp.keySerial + 1))
      else (keyPut (s.accepted h) h).1.replied (opProvision 90) h .internalFault (zeros 90)) := by
  refine (congrArg _ (serve_opens (op := opProvision 90) ho (by rw [hm, hl]; rfl)
    (by rw [hm, if_neg Bool.false_ne_true]; simp only [firstFail, pfailing, hpf, hi, ht]; rfl))).trans ?_
  unfold generated keyPut
  dsimp only
  rw [hm, if_neg Bool.false_ne_true]
  generalize ((s.accepted h).fragEnd h).itemPut 0 [keyRec] (wrappedBytes ((s.accepted h).tp.keySerial + 1)) = r
  obtain ⟨x, b⟩ := r
  cases b <;> rfl

theorem keyPut_ch (s : State) (h : Hdr) : Changes [.lk, .hw, .wd] s (keyPut s h).1 :=
  itemPut_ch (fragEnd_ch (.refl _ s) rfl) rfl

theorem keyPut_keepsBytes (s : State) (h : Hdr) : keepsBytes s (keyPut s h).1 [(0, 256), (pageAddr 0 keyRec.2, 512)] :=
  keepsBytes_trans (keepsBytes_of_mem (t := s.fragEnd h) rfl) (itemPut_keepsBytes fun e he => by
    rw [List.mem_singleton.1 he]
    exact keyRec_pairIn)

theorem provisionGenerate_of_stored (ho : Opens (opProvision 90) h s) (hm : h.more = false)
    (hl : (fragOf s h 0x0A11).length + h.len = 4) (hpf : (s.accepted h).pw.pfail = false)
    (hi : (s.accepted h).tp.identity = none) (ht : (s.accepted h).tp.trngOk = true) (hx : (keyPut (s.accepted h) h).2 = true) :
    Answers (.provisionGenerate h false) s (opProvision 90) h .ok fun v bs =>
      v.tp.identity = some ((s.accepted h).tp.keySerial + 1) ∧ v.tp.wrapped = v.tp.identity ∧
      v.tp.keySerial = (s.accepted h).tp.keySerial + 1 ∧
      bs = zeros 2 ++ uidBytes ++ fitBytes 16 v.tp.challenge ++ identityPub ((s.accepted h).tp.keySerial + 1) ∧
      v.tp.slots = (s.accepted h).tp.slots ∧ v.hw = (keyPut (s.accepted h) h).1.hw ∧
      keepsBytes s v [(0, 256), (pageAddr 0 keyRec.2, 512)] ∧
      v = { s.accepted h with tp := v.tp, lk := v.lk, hw := v.hw, wd := v.wd, free := v.free } := by
  have he := execProvisionGenerate_eq ho hm hl hpf hi ht
  rw [if_pos hx] at he
  have hc := keyPut_ch (s.accepted h) h
  have hb := keyPut_keepsBytes (s.accepted h) h
  refine ⟨_, _, he, ?_⟩
  unfold generated
  generalize (keyPut (s.accepted h) h).1 = x at hc hb ⊢
  have hs : x.tp.slots = (s.accepted h).tp.slots := congrArg Tamper.slots (hc.tp rfl)
  exact ⟨rfl, rfl, rfl, rfl, hs, rfl, keepsBytes_of_accepted (keepsBytes_trans hb (keepsBytes_of_mem rfl)),
    (newChallenge_ch (onTp_ch (hc.mono (q := [.lk, .hw, .wd, .tp, .free]) rfl) rfl) rfl).eq_pick⟩

theorem provisionGenerate_of_refused (ho : Opens (opProvision 90) h s) (hm : h.more = false)
    (hl : (fragOf s h 0x0A11).length + h.len = 4) (hpf : (s.accepted h).pw.pfail = false)
    (hi : (s.accepted h).tp.identity = none) (ht : (s.accepted h).tp.trngOk = true) (hx : (keyPut (s.accepted h) h).2 = false) :
    Answers (.provisionGenerate h false) s (opProvision 90) h .internalFault fun v bs =>
      bs = zeros 90 ∧ v = { s.accepted h with lk := v.lk, hw := v.hw, wd := v.wd } := by
  have he := execProvisionGenerate_eq ho hm hl hpf hi ht
  rw [hx, if_neg Bool.false_ne_true] at he
  exact ⟨_, _, he, rfl, (keyPut_ch (s.accepted h) h).eq_pick⟩

/-! ### PROVISION INSTALL (R406, R407) -/

/-- The pages of the records of passwords and owner key, and the torn bitmap. -/
def installRanges : List (Nat × Nat) := [(0, 256), (pageAddr 0 pwRec.2, 512), (pageAddr 0 ownerRec.2, 512)]

/-- Passwords put into their record. -/
def installPut (s : State) (h : Hdr) (l : List Nat) : State × Bool :=
  ((s.fragEnd h).onSe fun e => { e with pws := l.map fun v => ⟨1, pwDigest v⟩ }).storePw

/-- The owner key put into its record, where FLAGS ask for it. -/
def ownerPut (s : State) (key : List Byte) (new : Bool) : State × Bool :=
  if new then (s.onTp fun t => { t with owner := some key }).itemPut 0 [ownerRec] key else (s, true)

theorem installPut_se (s : State) (h : Hdr) (l : List Nat) :
    (installPut s h l).1.se = { s.se with pws := l.map fun v => ⟨1, pwDigest v⟩ } := by
  unfold installPut
  have hc : Changes [.hw, .wd] _ (((s.fragEnd h).onSe fun e => { e with pws := l.map fun v => ⟨1, pwDigest v⟩ }).storePw).1 :=
    storePw_ch (.refl _ _) rfl
  rw [hc.se rfl]
  rfl

theorem installPut_ch (s : State) (h : Hdr) (l : List Nat) : Changes [.se, .lk, .hw, .wd] s (installPut s h l).1 :=
  storePw_ch (onSe_ch (fragEnd_ch (.refl _ s) rfl) rfl) rfl

theorem installPut_keepsBytes (s : State) (h : Hdr) (l : List Nat) : keepsBytes s (installPut s h l).1 installRanges := by
  unfold installPut
  refine keepsBytes_trans (keepsBytes_of_mem (t := (s.fragEnd h).onSe fun e => { e with pws := l.map fun v => ⟨1, pwDigest v⟩ }) rfl) ?_
  unfold State.storePw
  refine itemPut_keepsBytes fun e he => ?_
  rw [List.mem_singleton.1 he]
  exact ⟨by decide, by decide, by decide⟩

theorem ownerPut_ch (s : State) (key : List Byte) (new : Bool) : Changes [.tp, .hw, .wd] s (ownerPut s key new).1 := by
  unfold ownerPut
  split
  · exact itemPut_ch (onTp_ch (.refl _ s) rfl) rfl
  · exact .refl _ _

theorem ownerPut_tp (s : State) (key : List Byte) (new : Bool) :
    (ownerPut s key new).1.tp = { s.tp with owner := if new then some key else s.tp.owner } := by
  unfold ownerPut
  split
  · have hc : Changes [.hw, .wd] (s.onTp fun t => { t with owner := some key })
        ((s.onTp fun t => { t with owner := some key }).itemPut 0 [ownerRec] key).1 := itemPut_ch (.refl _ _) rfl
    rw [hc.tp rfl]
    rfl
  · rfl

theorem ownerPut_keepsBytes (s : State) (key : List Byte) (new : Bool) : keepsBytes s (ownerPut s key new).1 installRanges := by
  unfold ownerPut
  split
  · refine keepsBytes_trans (keepsBytes_of_mem (t := s.onTp fun t => { t with owner := some key }) rfl) ?_
    refine itemPut_keepsBytes fun e he => ?_
    rw [List.mem_singleton.1 he]
    exact ⟨by decide, by decide, by decide⟩
  · exact keepsBytes_refl _ _

/-- What PROVISION INSTALL does, once the passwords have been put into their record or not: the owner key follows, where a record
was not written all is taken back. -/
def installAct (z : State) (x : State × Bool) (key : List Byte) (new : Bool) (flags : Nat) : Ans :=
  let r := if !x.2 || !new then x else (x.1.onTp fun t => { t with owner := some key }).itemPut 0 [ownerRec] key
  if r.2 then ⟨r.1.newChallenge.log 0x0A05 (le 1 (flags % 2)), .ok, zeros 2⟩
  else ⟨(r.1.onSe fun _ => z.se).onTp fun _ => z.tp, .internalFault, zeros 2⟩

/-- Passwords and owner key after each other: nothing is stored after a failure. -/
def bothPut (x : State × Bool) (key : List Byte) (new : Bool) : State × Bool := if x.2 then ownerPut x.1 key new else x

theorem installAct_eq (z : State) (x : State × Bool) (key : List Byte) (new : Bool) (flags : Nat) :
    installAct z x key new flags =
      if (bothPut x key new).2 then ⟨(bothPut x key new).1.newChallenge.log 0x0A05 (le 1 (flags % 2)), .ok, zeros 2⟩
      else ⟨((bothPut x key new).1.onSe fun _ => z.se).onTp fun _ => z.tp, .internalFault, zeros 2⟩ := by
  have hr : (if !x.2 || !new then x else (x.1.onTp fun t => { t with owner := some key }).itemPut 0 [ownerRec] key) =
      bothPut x key new := by
    obtain ⟨x, b⟩ := x
    cases b <;> cases new <;> simp [bothPut, ownerPut]
  unfold installAct
  dsimp only
  rw [hr]

theorem bothPut_of_failed {x : State × Bool} {key : List Byte} {new : Bool} (h : (x.2 && (ownerPut x.1 key new).2) = false) :
    (bothPut x key new).2 = false := by
  unfold bothPut
  split
  next hx => rwa [hx, Bool.true_and] at h
  next hx => exact Bool.eq_false_iff.2 hx

theorem bothPut_ch {x : State × Bool} (H : Changes [.se, .lk, .hw, .wd, .tp] z x.1) (key : List Byte) (new : Bool) :
    Changes [.se, .lk, .hw, .wd, .tp] z (bothPut x key new).1 := by
  unfold bothPut
  split
  · exact H.trans ((ownerPut_ch x.1 key new).mono rfl)
  · exact H

/-- What PROVISION INSTALL needs besides being accepted. -/
structure InstallChecks (s : State) (h : Hdr) (msg : List Byte) (l : List Nat) (sig : SigIn) : Prop where
  opens : Opens (opProvision 2) h s
  last : h.more = false
  eight : l.length = 8
  len : (fragOf s h 0x0A11).length + h.len = (if bitAt (byteAt msg 1).toNat 0 then 288 else 224)
  flags : (byteAt msg 1).toNat ≤ 1
  powered : (s.accepted h).pw.pfail = false
  signed : installAuth (s.accepted h) h (bitAt (byteAt msg 1).toNat 0) sig = true
  identity : (s.accepted h).tp.identity.isSome = true
  good : l.any badPassword = false

/-- What an accepted PROVISION INSTALL with a message does. -/
def installed (s : State) (h : Hdr) (msg : List Byte) (l : List Nat) : Ans :=
  installAct (s.fragEnd h) (installPut s h l) (fitBytes 64 (msg.drop 160)) (bitAt (byteAt msg 1).toNat 0) (byteAt msg 1).toNat

theorem execProvisionInstall_eq {params : List Byte} {l : List Nat} {sig : SigIn}
    (c : InstallChecks s h (fragOf s h 0x0A11 ++ params) l sig) :
    exec (.provisionInstall h params (some l) sig) s =
      .next ((installed (s.accepted h) h (fragOf s h 0x0A11 ++ params) l).s.replied (opProvision 2) h
        (installed (s.accepted h) h (fragOf s h 0x0A11 ++ params) l).st
        (installed (s.accepted h) h (fragOf s h 0x0A11 ++ params) l).bytes) := by
  obtain ⟨ho, hm, h8, hl, hf, hpf, hsig, hi, hg⟩ := c
  have he : exec (.provisionInstall h params (some l) sig) s = execProvisionInstall h params (some l) sig s := rfl
  rw [he, execProvisionInstall, if_neg (by simp [h8])]
  generalize hmsg : fragOf s h 0x0A11 ++ params = msg at *
  have hchecks : firstFail [(pfailing (s.accepted h), .powerFailing),
      (!installAuth (s.accepted h) h (bitAt (byteAt msg 1).toNat 0) sig || (s.accepted h).tp.identity.isNone || (some l).isNone,
        .authFail), (decide (1 < (byteAt msg 1).toNat) || (some l).any fun l => l.any badPassword, .valueRange)] = none := by
    have hi' : (s.accepted h).tp.identity.isNone = false := by
      rw [← Option.not_isSome, hi]
      rfl
    have hf' : decide (1 < (byteAt msg 1).toNat) = false := decide_eq_false (Nat.not_lt.2 hf)
    simp only [firstFail, pfailing, hpf, hsig, hi', hf', Option.any, hg]
    rfl
  refine (congrArg _ (serve_opens (op := opProvision 2) ho (by rw [hm, Bool.false_or]; exact beq_iff_eq.2 hl)
    (by rw [hm, if_neg Bool.false_ne_true]; exact hchecks))).trans ?_
  have hput : (((s.accepted h).fragEnd h).onSe fun e => { e with pws := l.map fun v => ⟨1, pwDigest v⟩ }).storePw =
    installPut (s.accepted h) h l := rfl
  simp only [hm, installed, installAct, Option.map_some, Option.getD_some, Bool.false_eq_true, if_false, hput]

theorem installPut_changes (s : State) (h : Hdr) (l : List Nat) : Changes [.se, .lk, .hw, .wd, .tp] s (installPut s h l).1 :=
  (installPut_ch s h l).mono rfl

theorem provisionInstall_of_stored {params : List Byte} {l : List Nat} {sig : SigIn}
    (c : InstallChecks s h (fragOf s h 0x0A11 ++ params) l sig) :
    let msg := fragOf s h 0x0A11 ++ params
    let new := bitAt (byteAt msg 1).toNat 0
    (installPut (s.accepted h) h l).2 = true →
    (ownerPut (installPut (s.accepted h) h l).1 (fitBytes 64 (msg.drop 160)) new).2 = true →
    Answers (.provisionInstall h params (some l) sig) s (opProvision 2) h .ok fun v bs =>
      v.se.pws = l.map (fun x => ⟨1, pwDigest x⟩) ∧ bs = zeros 2 ∧
      v.tp.owner = (if new then some (fitBytes 64 (msg.drop 160)) else (s.accepted h).tp.owner) ∧
      v.tp.identity = (s.accepted h).tp.identity ∧ v.tp.slots = (s.accepted h).tp.slots ∧
      keepsBytes s v [(0, 256), (pageAddr 0 pwRec.2, 512), (pageAddr 0 ownerRec.2, 512)] ∧
      v = { s.accepted h with se := { (s.accepted h).se with pws := v.se.pws }, tp := v.tp, lk := v.lk, hw := v.hw,
                              wd := v.wd, free := v.free } := by
  intro msg new hx hy
  have he := execProvisionInstall_eq c
  have hb : bothPut (installPut (s.accepted h) h l) (fitBytes 64 (msg.drop 160)) new =
      ownerPut (installPut (s.accepted h) h l).1 (fitBytes 64 (msg.drop 160)) new := if_pos hx
  have ha : installed (s.accepted h) h msg l = ⟨(ownerPut (installPut (s.accepted h) h l).1 (fitBytes 64 (msg.drop 160))
      new).1.newChallenge.log 0x0A05 (le 1 ((byteAt msg 1).toNat % 2)), .ok, zeros 2⟩ := by
    rw [installed, installAct_eq, hb, if_pos hy]
  rw [ha] at he
  have hse := installPut_se (s.accepted h) h l
  have htp : (installPut (s.accepted h) h l).1.tp = (s.accepted h).tp := (installPut_ch (s.accepted h) h l).tp rfl
  have hkb := installPut_keepsBytes (s.accepted h) h l
  have hch := installPut_changes (s.accepted h) h l
  clear_value new msg
  generalize (installPut (s.accepted h) h l).1 = x at he hse htp hkb hch
  have htp2 := ownerPut_tp x (fitBytes 64 (msg.drop 160)) new
  have hch2 := ownerPut_ch x (fitBytes 64 (msg.drop 160)) new
  have hkb2 := ownerPut_keepsBytes x (fitBytes 64 (msg.drop 160)) new
  generalize (ownerPut x (fitBytes 64 (msg.drop 160)) new).1 = y at he htp2 hch2 hkb2
  have hall : Changes [.se, .lk, .hw, .wd, .tp, .free] (s.accepted h) (y.newChallenge.log 0x0A05 (le 1 ((byteAt msg 1).toNat % 2))) :=
    log_ch (newChallenge_ch ((hch.trans (hch2.mono rfl)).mono rfl) rfl) rfl
  have hyse : y.se = { (s.accepted h).se with pws := l.map fun v => ⟨1, pwDigest v⟩ } := (hch2.se rfl).trans hse
  rw [htp] at htp2
  have hb0 : keepsBytes s (s.accepted h) installRanges := keepsBytes_of_accepted (keepsBytes_refl _ _)
  generalize s.accepted h = z at *
  refine ⟨_, _, he, ?_, rfl, ?_, ?_, ?_, ?_, ?_⟩
  · rw [log_se]
    exact congrArg Sess.pws hyse
  · rw [log_tp]
    exact (congrArg Tamper.owner htp2 :)
  · rw [log_tp]
    exact (congrArg Tamper.identity htp2 :)
  · rw [log_tp]
    exact (congrArg Tamper.slots htp2 :)
  · exact keepsBytes_trans hb0 (keepsBytes_trans hkb (keepsBytes_trans hkb2 (log_keepsBytes (keepsBytes_of_mem rfl))))
  · refine hall.eq_pick.trans ?_
    have hs : (y.newChallenge.log 0x0A05 (le 1 ((byteAt msg 1).toNat % 2))).se = { z.se with pws := l.map fun v => ⟨1, pwDigest v⟩ } := by
      rw [log_se]
      exact hyse
    generalize y.newChallenge.log 0x0A05 (le 1 ((byteAt msg 1).toNat % 2)) = v at hs
    show { z with se := v.se, lk := v.lk, hw := v.hw, wd := v.wd, tp := v.tp, free := v.free } = _
    rw [hs]

theorem provisionInstall_of_refused {params : List Byte} {l : List Nat} {sig : SigIn}
    (c : InstallChecks s h (fragOf s h 0x0A11 ++ params) l sig) :
    let msg := fragOf s h 0x0A11 ++ params
    let new := bitAt (byteAt msg 1).toNat 0
    ((installPut (s.accepted h) h l).2 && (ownerPut (installPut (s.accepted h) h l).1 (fitBytes 64 (msg.drop 160)) new).2) = false →
    Answers (.provisionInstall h params (some l) sig) s (opProvision 2) h .internalFault fun v bs =>
      bs = zeros 2 ∧ v = { s.accepted h with lk := v.lk, hw := v.hw, wd := v.wd } := by
  intro msg new hxy
  have he := execProvisionInstall_eq c
  have hf := bothPut_of_failed hxy
  have ha : installed (s.accepted h) h msg l = ⟨((bothPut (installPut (s.accepted h) h l) (fitBytes 64 (msg.drop 160)) new).1.onSe
      fun _ => (s.accepted h).se).onTp fun _ => (s.accepted h).tp, .internalFault, zeros 2⟩ := by
    rw [installed, installAct_eq, hf, if_neg Bool.false_ne_true]
    rfl
  rw [ha] at he
  have hch := bothPut_ch (installPut_changes (s.accepted h) h l) (fitBytes 64 (msg.drop 160)) new
  refine ⟨_, _, he, rfl, ?_⟩
  generalize (bothPut (installPut (s.accepted h) h l) (fitBytes 64 (msg.drop 160)) new).1 = x at hch
  have h1 : Changes [.tp, .se, .lk, .hw, .wd] (s.accepted h) ((x.onSe fun _ => (s.accepted h).se).onTp fun _ => (s.accepted h).tp) :=
    onTp_ch (onSe_ch (hch.mono rfl) rfl) rfl
  exact ((h1.drop rfl).drop rfl).eq_pick

/-- Settles O19: each answer is read off its opcode, and what PROVISION stores turns on the records it writes. -/
theorem tamperRequestsAndKeyAgreement : Obligations.TamperRequestsAndKeyAgreement := by
  refine fun s h => ⟨fun ho hl => congrArg _ (serve_opens ho (beq_iff_eq.2 hl) rfl), fun _ _ => tamperAck_answers,
    fun _ _ => keyAgree_answers, fun ho hm hl hpf hi ht => ?_, fun params l sig ho hm h8 => ?_⟩
  · have hst := provisionGenerate_of_stored ho hm hl hpf hi ht
    have hre := provisionGenerate_of_refused ho hm hl hpf hi ht
    unfold keyPut at hst hre
    exact ⟨hst, hre⟩
  · intro msg new x y hl hf hpf hsig hi hg
    have c : InstallChecks s h (fragOf s h 0x0A11 ++ params) l sig := ⟨ho, hm, h8, hl, hf, hpf, hsig, hi, hg⟩
    have hst := provisionInstall_of_stored c
    have hre := provisionInstall_of_refused c
    unfold ownerPut installPut at hst hre
    exact ⟨hst, hre⟩

end Sys2Proof.Machine
end

section
/-! THEOREMS. Sensor windows, the event log and LOG_READ (R359, R413 to R417; O21). -/

namespace Sys2Proof.Machine

variable {s t : State} {h : Hdr} {n q : Nat}

/-! ### Sensors (R413) -/

/-- A reading is due and the Warden runs. -/
def sensorDue (s : State) (k : Fin 12) : Prop :=
  s.wd.running = true ∧ (s.wd.sensorClk.getD k none).any (fun c => !s.after c (samplePeriod k)) = false

/-- The state in which a reading is kept, with its instant. -/
def sampled (s : State) (k : Fin 12) (v : Nat) : State :=
  (s.keepReading k (u32 v)).onWd fun w => { w with sensorClk := modAt w.sensorClk k fun _ => some s.clk }

theorem execSensorSample_eq {k : Fin 12} (v : Nat) (hd : sensorDue s k) : exec (.sensorSample k v) s = .next (
    if sensorOutside s k (u32 v) == bitAt s.wd.health k then
      (sampled s k v).onWd fun w => { w with sensorRun := modAt w.sensorRun k fun _ => 0 }
    else if s.wd.sensorRun.getD k 0 < 2 then
      (sampled s k v).onWd fun w => { w with sensorRun := modAt w.sensorRun k fun n => n + 1 }
    else ((sampled s k v).onWd fun w =>
      { w with sensorRun := modAt w.sensorRun k fun _ => 0,
               health := if sensorOutside s k (u32 v) then setBit w.health k else clrBit w.health k }).sensorLog k (u32 v)
        (sensorOutside s k (u32 v))) := by
  obtain ⟨hr, hc⟩ := hd
  have he : exec (.sensorSample k v) s = execSensorSample k v s := rfl
  rw [he, execSensorSample, if_neg (by rw [hr, hc]; exact Bool.false_ne_true)]
  dsimp only
  split
  · rfl
  · split <;> rfl

theorem sampled_wd (s : State) (k : Fin 12) (v : Nat) :
    (sampled s k v).wd = { s.wd with sensorClk := modAt s.wd.sensorClk k fun _ => some s.clk } := by
  have hc : Changes [.pw, .free] s (s.keepReading k (u32 v)) := keepReading_ch (.refl _ s) rfl
  rw [sampled, onWd_wd, hc.wd rfl]

theorem sampled_ch (s : State) (k : Fin 12) (v : Nat) : Changes [.wd, .pw, .free] s (sampled s k v) :=
  onWd_ch (keepReading_ch (.refl _ s) rfl) rfl

theorem sensorSample_of_same {k : Fin 12} (v : Nat) (hd : sensorDue s k) (ho : sensorOutside s k (u32 v) = bitAt s.wd.health k) :
    Gives (.sensorSample k v) s fun t =>
      t.wd = { s.wd with sensorRun := modAt s.wd.sensorRun k fun _ => 0,
                         sensorClk := modAt s.wd.sensorClk k fun _ => some s.clk } ∧
      t = { s with wd := t.wd, pw := t.pw, free := t.free } := by
  have he := execSensorSample_eq v hd
  rw [if_pos (beq_iff_eq.2 ho)] at he
  exact ⟨_, he, by rw [onWd_wd, sampled_wd], (onWd_ch (sampled_ch s k v) rfl).eq_pick⟩

theorem sensorSample_of_few {k : Fin 12} (v : Nat) (hd : sensorDue s k) (ho : sensorOutside s k (u32 v) ≠ bitAt s.wd.health k)
    (hn : s.wd.sensorRun.getD k 0 < 2) : Gives (.sensorSample k v) s fun t =>
      t.wd = { s.wd with sensorRun := modAt s.wd.sensorRun k fun n => n + 1,
                         sensorClk := modAt s.wd.sensorClk k fun _ => some s.clk } ∧
      t = { s with wd := t.wd, pw := t.pw, free := t.free } := by
  have he := execSensorSample_eq v hd
  rw [if_neg (by simpa using ho), if_pos hn] at he
  exact ⟨_, he, by rw [onWd_wd, sampled_wd], (onWd_ch (sampled_ch s k v) rfl).eq_pick⟩

/-- A sensor's entry is one entry. -/
theorem sensorLog_of_room (hb : s.wd.buffer.length < 256) (k v : Nat) (o : Bool) :
    ∃ e, (s.sensorLog k v o) = { s with wd := { s.wd with buffer := s.wd.buffer ++ [e] } } := by
  unfold State.sensorLog
  split
  · exact ⟨_, log_of_room hb⟩
  · split
    · exact ⟨_, log_of_room hb⟩
    · exact ⟨_, log_of_room hb⟩

/-- A bit set or cleared reads as it was set. -/
theorem bitAt_put (v b : Nat) (o : Bool) : bitAt (if o then setBit v b else clrBit v b) b = o := by
  cases o with
  | true => exact bitAt_setBit_self v b
  | false => exact bitAt_clrBit_self v b

theorem sensorSample_of_third {k : Fin 12} (v : Nat) (hd : sensorDue s k) (ho : sensorOutside s k (u32 v) ≠ bitAt s.wd.health k)
    (hn : 2 ≤ s.wd.sensorRun.getD k 0) (hb : s.wd.buffer.length < 256) : Gives (.sensorSample k v) s fun t =>
      bitAt t.wd.health k = sensorOutside s k (u32 v) ∧ t.wd.sensorRun = modAt s.wd.sensorRun k (fun _ => 0) ∧
      t.wd.buffer.length = s.wd.buffer.length + 1 ∧ t = { s with wd := t.wd, pw := t.pw, free := t.free } := by
  have he := execSensorSample_eq v hd
  rw [if_neg (by simpa using ho), if_neg (Nat.not_lt.2 hn)] at he
  have hc : Changes [.wd, .pw, .free] s ((sampled s k v).onWd fun w =>
      { w with sensorRun := modAt w.sensorRun k fun _ => 0,
               health := if sensorOutside s k (u32 v) then setBit w.health k else clrBit w.health k }) :=
    onWd_ch (sampled_ch s k v) rfl
  have hw := sampled_wd s k v
  generalize sampled s k v = x at he hc hw
  obtain ⟨e, hlog⟩ := sensorLog_of_room (s := x.onWd fun w =>
      { w with sensorRun := modAt w.sensorRun k fun _ => 0,
               health := if sensorOutside s k (u32 v) then setBit w.health k else clrBit w.health k })
    (by rw [onWd_wd, hw]; exact hb) k (u32 v) (sensorOutside s k (u32 v))
  have hcl := sensorLog_ch (sensor := k.val) (value := u32 v) (outside := sensorOutside s k (u32 v)) hc rfl
  rw [hlog] at he hcl
  refine ⟨_, he, bitAt_put _ _ _, by rw [onWd_wd, hw], ?_, hcl.eq_pick⟩
  show (x.wd.buffer ++ [e]).length = _
  rw [hw, List.length_append]
  rfl

/-! ### The log client (R414, R416) -/

theorem logIndex_lt (q : Nat) : logIndex q < 4096 := Nat.mod_lt _ (by decide)

theorem logAddr_eq (n : Nat) : logAddr n = 98304 + 256 * (n / 8) + 32 * (n % 8) := by
  show (384 + n / 8) * 256 + 32 * (n % 8) = _
  omega

theorem logAddr_range (h : n < 4096) : 256 ≤ logAddr n ∧ logAddr n + 32 ≤ storeSize := by
  rw [logAddr_eq]
  show _ ∧ _ ≤ 524288
  omega

/-- Entries of the ring do not overlap. -/
theorem logAddr_disjoint {m : Nat} (h : m ≠ n) : logAddr m + 32 ≤ logAddr n ∨ logAddr n + 32 ≤ logAddr m := by
  rw [logAddr_eq, logAddr_eq]
  omega

/-- One SEQ and the next lie in different entries. -/
theorem logIndex_nextSeq_ne (q : Nat) : logIndex (nextSeq q) ≠ logIndex q := by
  unfold nextSeq logIndex
  split
  next h =>
    have h : q % 4294967296 = 4294967295 := beq_iff_eq.1 h
    omega
  · omega

theorem fitBytes_length (n : Nat) (bs : List Byte) : (fitBytes n bs).length = n := by
  simp only [fitBytes, zeros, List.length_append, List.length_take, List.length_replicate]
  omega

theorem logBytes_length (q : Nat) (e : LogEntry) (d : Bool) : (logBytes q e d).length = 32 := by
  simp [logBytes, le_length, fitBytes_length]

theorem rdBytes_wr {a : Nat} {bs : List Byte} (hs : a + bs.length ≤ storeSize) (ha : 256 ≤ a) :
    rdBytes (s.wr a bs).hw.mem a bs.length = bs := by
  refine List.ext_getElem (by simp [rdBytes]) fun i h1 h2 => ?_
  simp only [rdBytes, List.getElem_map, List.getElem_range]
  rw [wr_in h2 hs ha, List.getD_eq_getElem _ _ h2]

/-- What one entry written to the ring brings about. -/
theorem writeEntry_brings (s : State) (e : LogEntry) :
    (s.writeEntry e).wd = { s.wd with logSeq := nextSeq s.wd.logSeq } ∧
    rdBytes (s.writeEntry e).hw.mem (logAddr (logIndex (nextSeq s.wd.logSeq))) 32 =
      logBytes (nextSeq s.wd.logSeq) e (decide (e.clk + 128000000 < s.clk)) ∧
    keepsBytes s (s.writeEntry e) [(0, 256), (logAddr (logIndex (nextSeq s.wd.logSeq)), 32)] ∧
    Changes [.hw, .wd] s (s.writeEntry e) := by
  have hlen := logBytes_length (nextSeq s.wd.logSeq) e (decide (e.clk + 128000000 < s.clk))
  obtain ⟨ha, hs⟩ := logAddr_range (logIndex_lt (nextSeq s.wd.logSeq))
  rw [← hlen] at hs
  have hr := rdBytes_wr (s := s) hs ha
  rw [hlen] at hr
  have hk := wr_keepsBytes (s := s) (l := [(0, 256), (logAddr (logIndex (nextSeq s.wd.logSeq)), 32)])
    (List.mem_cons_self ..) (by rw [hlen]; exact List.mem_cons_of_mem _ (List.mem_cons_self ..)) hs
  refine ⟨?_, hr, keepsBytes_trans hk (keepsBytes_of_mem rfl), ?_⟩
  · rw [State.writeEntry, onWd_wd, wr_frame]
  · rw [State.writeEntry]
    exact onWd_ch (wr_ch (.refl _ s) rfl) rfl

theorem rdBytes_of_keeps {a : Nat} (hk : ∀ i < n, rdByte t.hw.mem (a + i) = rdByte s.hw.mem (a + i)) :
    rdBytes t.hw.mem a n = rdBytes s.hw.mem a n := List.map_congr_left fun i hi => hk i (List.mem_range.1 hi)

theorem keepsBytes_mono {l m : List (Nat × Nat)} (h : keepsBytes s t l) (hm : l ⊆ m) : keepsBytes s t m :=
  fun a ha => h a fun e he => ha e (hm he)

/-- The buffer without its oldest entry. -/
def entryTaken (s : State) (r : List LogEntry) : State := s.onWd fun w => { w with buffer := r, lostSince := 0 }

/-- The LOG_LOST entry that precedes the first after a discard. -/
def lostEntry (s : State) : LogEntry :=
  ⟨s.now80, 0x0108, fitBytes 14 (le 4 s.wd.lostSince), logFlags s false false false, s.clk⟩

theorem execLogEntryWrite_eq {e : LogEntry} {r : List LogEntry} (hb : s.wd.buffer = e :: r) (hr : s.wd.running = true) :
    exec .logEntryWrite s = .next ((if s.wd.lostSince == 0 then entryTaken s r
      else (entryTaken s r).writeEntry (lostEntry s)).writeEntry e) := by
  have he : exec .logEntryWrite s = execLogEntryWrite s := rfl
  rw [he, execLogEntryWrite, hb]
  exact if_neg (by rw [hr]; exact Bool.false_ne_true)

theorem logEntryWrite_of_none_lost {e : LogEntry} {r : List LogEntry} (hb : s.wd.buffer = e :: r) (hr : s.wd.running = true)
    (hl : s.wd.lostSince = 0) :
    let q := nextSeq s.wd.logSeq
    Gives .logEntryWrite s fun t =>
      t.wd = { s.wd with buffer := r, logSeq := q } ∧
      rdBytes t.hw.mem (logAddr (logIndex q)) 32 = logBytes q e (decide (e.clk + 128000000 < s.clk)) ∧
      keepsBytes s t [(0, 256), (logAddr (logIndex q), 32)] ∧ t = { s with hw := t.hw, wd := t.wd } := by
  intro q
  have he := execLogEntryWrite_eq hb hr
  rw [if_pos (beq_iff_eq.2 hl)] at he
  obtain ⟨hw, hrd, hk, hc⟩ := writeEntry_brings (entryTaken s r) e
  have h1 : Changes [.hw, .wd] s (entryTaken s r) := onWd_ch (.refl _ s) rfl
  refine ⟨_, he, ?_, hrd, hk, (h1.trans hc).eq_pick⟩
  have h0 : (entryTaken s r).wd = { s.wd with buffer := r } := by
    show { s.wd with buffer := r, lostSince := 0 } = _
    rw [← hl]
  rw [hw, h0]

theorem logEntryWrite_of_lost {e : LogEntry} {r : List LogEntry} (hb : s.wd.buffer = e :: r) (hr : s.wd.running = true)
    (hl : s.wd.lostSince ≠ 0) :
    let q := nextSeq s.wd.logSeq
    Gives .logEntryWrite s fun t =>
      t.wd = { s.wd with buffer := r, lostSince := 0, logSeq := nextSeq q } ∧
      rdBytes t.hw.mem (logAddr (logIndex q)) 32 =
        logBytes q ⟨s.now80, 0x0108, fitBytes 14 (le 4 s.wd.lostSince), logFlags s false false false, s.clk⟩ false ∧
      rdBytes t.hw.mem (logAddr (logIndex (nextSeq q))) 32 = logBytes (nextSeq q) e (decide (e.clk + 128000000 < s.clk)) ∧
      keepsBytes s t [(0, 256), (logAddr (logIndex q), 32), (logAddr (logIndex (nextSeq q)), 32)] ∧
      t = { s with hw := t.hw, wd := t.wd } := by
  intro q
  have he := execLogEntryWrite_eq hb hr
  rw [if_neg (by simpa using hl)] at he
  have h1 : Changes [.hw, .wd] s (entryTaken s r) := onWd_ch (.refl _ s) rfl
  obtain ⟨hw, hrd, hk, hc⟩ := writeEntry_brings (entryTaken s r) (lostEntry s)
  have hsoon : decide ((lostEntry s).clk + 128000000 < (entryTaken s r).clk) = false :=
    decide_eq_false (show ¬ s.clk + 128000000 < s.clk by omega)
  rw [hsoon] at hrd
  have hq : (entryTaken s r).wd.logSeq = s.wd.logSeq := rfl
  rw [hq] at hw hrd hk
  generalize (entryTaken s r).writeEntry (lostEntry s) = x at he hw hrd hk hc
  obtain ⟨hw2, hrd2, hk2, hc2⟩ := writeEntry_brings x e
  have hxq : x.wd.logSeq = q := by rw [hw]
  have hxc : x.clk = s.clk := (h1.trans hc).clk rfl
  rw [hxq] at hw2 hrd2 hk2
  rw [hxc] at hrd2
  refine ⟨_, he, ?_, ?_, hrd2, ?_, ((h1.trans hc).trans hc2).eq_pick⟩
  · rw [hw2, hw]
    rfl
  · refine (rdBytes_of_keeps fun i hi => ?_).trans hrd
    have hdis := logAddr_disjoint (logIndex_nextSeq_ne q)
    obtain ⟨hlow, -⟩ := logAddr_range (logIndex_lt q)
    refine hk2 _ fun p hp => ?_
    simp only [List.mem_cons, List.not_mem_nil, or_false] at hp
    rcases hp with rfl | rfl
    · right; show 0 + 256 ≤ _; omega
    · show _ < logAddr (logIndex (nextSeq q)) ∨ logAddr (logIndex (nextSeq q)) + 32 ≤ _
      omega
  · exact keepsBytes_trans (keepsBytes_mono hk (List.subset_append_left _ [_]))
      (keepsBytes_mono hk2 (List.cons_subset_cons _ (List.subset_cons_self _ _)))

/-! ### LOG_READ (R359, R417) -/

theorem senseLog_mem (s : State) (a b : Nat) : (s.senseLog a b).hw.mem = s.hw.mem :=
  List.foldlRecOn (motive := fun x : State => x.hw.mem = s.hw.mem) _ _ rfl fun x h _ _ => (sense_mem x _ _).trans h

theorem logFrom_accepted (s : State) (h : Hdr) (n : Nat) : logFrom (s.accepted h) n = logFrom s n := by
  have hp : peek (s.accepted h) = peek s := peek_congr (by rw [accepted_hw]) (by rw [accepted_hw])
  unfold logFrom logRead peekVal
  rw [hp, accepted_wd_logSeq]

/-- NEXT_SEQ of a LOG_READ. -/
def nextOf (s : State) (l : List (List Byte)) (fromSeq : Nat) : Nat :=
  match l.getLast? with
  | some b => nextSeq (fieldAt b 0 4)
  | none => if fromSeq == 0 then nextSeq s.wd.logSeq else fromSeq

theorem nextOf_of_some {l : List (List Byte)} {b : List Byte} (h : l.getLast? = some b) (f : Nat) :
    nextOf s l f = nextSeq (fieldAt b 0 4) := by
  rw [nextOf, h]

theorem nextOf_of_none (s : State) (f : Nat) : nextOf s [] f = if f = 0 then nextSeq s.wd.logSeq else f := by
  simp [nextOf]

theorem logRead_answers {fromSeq count : Nat} (ho : Opens opLogRead h s) (hl : h.len = 8) (h1 : 1 ≤ count) (h32 : count ≤ 32) :
    Answers (.logRead h fromSeq count) s opLogRead h .ok fun v bs =>
      v.hw.mem = s.hw.mem ∧ v = { s.accepted h with hw := v.hw, wd := v.wd } ∧
      ∃ n, bs = le 1 ((logFrom s fromSeq).take count).length ++ zeros 1 ++ le 4 n ++
        ((logFrom s fromSeq).take count).flatten ∧
      (∀ b, ((logFrom s fromSeq).take count).getLast? = some b → n = nextSeq (fieldAt b 0 4)) ∧
      ((logFrom s fromSeq).take count = [] → n = if fromSeq = 0 then nextSeq s.wd.logSeq else fromSeq) := by
  refine answers_of rfl ho (beq_iff_eq.2 hl) (by simp [firstFail, Nat.one_le_iff_ne_zero.1 h1, Nat.not_lt.2 h32]) rfl
    ⟨(senseLog_mem _ _ _).trans (by rw [accepted_hw]), (senseLog_ch (.refl [.hw, .wd] _) rfl).eq_pick,
      nextOf s ((logFrom s fromSeq).take count) fromSeq, ?_, fun b hb => nextOf_of_some hb fromSeq, fun hn => ?_⟩
  · simp only [logFrom_accepted, accepted_wd_logSeq]
    rfl
  · rw [hn, nextOf_of_none]

/-- Settles O21: a reading is judged against the side it was on, an entry is laid into its own 32 bytes, and LOG_READ only reads. -/
theorem sensorsAndTheEventLog : Obligations.SensorsAndTheEventLog :=
  fun _ => ⟨fun _ v hr hc => sensorSample_of_same v ⟨hr, hc⟩, fun _ v hr hc => sensorSample_of_few v ⟨hr, hc⟩,
    fun _ v hr hc => sensorSample_of_third v ⟨hr, hc⟩, fun _ _ hb hr => logEntryWrite_of_none_lost hb hr,
    fun _ _ hb hr => logEntryWrite_of_lost hb hr, fun _ _ _ => logRead_answers⟩

end Sys2Proof.Machine
end

section
/-! THEOREMS. The CRC-8 of a direct frame, bit by bit (R298; O57). -/

namespace Sys2Proof.Machine

/-- One bit through the register of R298. -/
def crcStep (c : Nat) (b : Bool) : Nat := if (c.testBit 7) != b then (2 * c % 256) ^^^ 0x07 else 2 * c % 256

/-- The bits of a value of `n` bits, most significant first. -/
def bitsOf (n v : Nat) : List Bool := (List.range n).map fun k => v.testBit (n - 1 - k)

theorem two_mul_xor_mod (x y : Nat) : 2 * (x ^^^ y) % 256 = (2 * x % 256) ^^^ (2 * y % 256) := by
  have h2 (z : Nat) : 2 * z = z <<< 1 := by rw [Nat.shiftLeft_eq]; omega
  rw [h2, h2, h2, Nat.shiftLeft_xor_distrib, show (256 : Nat) = 2 ^ 8 from rfl, Nat.xor_mod_two_pow]

/-- A step of the byte-wise register whose high bits already hold what is left of a byte is a step with its next bit. -/
theorem crcBit_xor (c d : Nat) : crcBit 8 0x07 (c ^^^ d) = crcStep c (d.testBit 7) ^^^ (2 * d % 256) := by
  have hm : (c ^^^ d) * 2 % 2 ^ 8 = (2 * c % 256) ^^^ (2 * d % 256) := by
    rw [Nat.mul_comm]
    exact two_mul_xor_mod c d
  unfold crcBit crcStep
  rw [hm, bitAt_eq_testBit, Nat.testBit_xor]
  show (if (c.testBit 7 ^^ d.testBit 7) = true then (2 * c % 256 ^^^ 2 * d % 256) ^^^ 7 else _) = _
  split
  · exact Nat.xor_right_comm ..
  · rfl

theorem crcByte_bits (c b n : Nat) (hb : b < 256) (hn : n ≤ 8) :
    (List.range n).foldl (fun c _ => crcBit 8 0x07 c) (c ^^^ b) =
      ((List.range n).map fun k => b.testBit (7 - k)).foldl crcStep c ^^^ (b * 2 ^ n % 256) := by
  induction n with
  | zero => simp [Nat.mod_eq_of_lt hb]
  | succ n ih =>
    have htop : (b * 2 ^ n % 256).testBit 7 = b.testBit (7 - n) := by
      rw [show (256 : Nat) = 2 ^ 8 from rfl, Nat.testBit_mod_two_pow, ← Nat.shiftLeft_eq, Nat.testBit_shiftLeft]
      simp [show n ≤ 7 by omega]
    have hnext : 2 * (b * 2 ^ n % 256) % 256 = b * 2 ^ (n + 1) % 256 := by
      rw [Nat.mul_mod_mod]
      exact congrArg (· % 256) (by ring)
    rw [List.range_succ, List.foldl_append, List.map_append, List.foldl_append, ih (by omega), List.foldl_cons, List.foldl_nil,
      List.map_singleton, List.foldl_cons, List.foldl_nil, crcBit_xor, htop, hnext]

/-- One byte is its eight bits. -/
theorem crcByte_eq (c : Nat) (b : Byte) : crcByte 8 0x07 c b = (bitsOf 8 b.toNat).foldl crcStep c := by
  have h := crcByte_bits c b.toNat 8 b.isLt le_rfl
  rw [show b.toNat * 2 ^ 8 % 256 = 0 from Nat.mul_mod_left .., Nat.xor_zero] at h
  have h0 : c.xor (b.toNat * 2 ^ (8 - 8)) = c ^^^ b.toNat := by rw [Nat.sub_self, Nat.pow_zero, Nat.mul_one]; rfl
  simp only [crcByte, h0, h, bitsOf, Nat.reduceSub]

/-! ### Bytes in order -/

theorem beVal_append_singleton (bs : List Byte) (b : Byte) : beVal (bs ++ [b]) = beVal bs * 256 + b.toNat := by
  simp [beVal]

theorem beVal_lt (bs : List Byte) : beVal bs < 2 ^ (8 * bs.length) := by
  induction bs using List.reverseRecOn with
  | nil => exact Nat.one_pos
  | append_singleton bs b ih =>
    have hb := b.isLt
    rw [beVal_append_singleton, List.length_append, List.length_singleton, Nat.mul_add, pow_add]
    omega

theorem beVal_append (as bs : List Byte) : beVal (as ++ bs) = beVal as * 2 ^ (8 * bs.length) + beVal bs := by
  induction bs using List.reverseRecOn with
  | nil => simp [beVal]
  | append_singleton bs b ih =>
    rw [← List.append_assoc, beVal_append_singleton, ih, beVal_append_singleton, List.length_append, List.length_singleton,
      Nat.mul_add, pow_add]
    ring

/-- The bits of bytes in order are those of their value. -/
theorem bitsOf_append (bs : List Byte) (b : Byte) :
    bitsOf (8 * (bs ++ [b]).length) (beVal (bs ++ [b])) = bitsOf (8 * bs.length) (beVal bs) ++ bitsOf 8 b.toNat := by
  have hv : beVal (bs ++ [b]) = 2 ^ 8 * beVal bs + b.toNat := by rw [beVal_append_singleton]; omega
  have hl : 8 * (bs ++ [b]).length = 8 * bs.length + 8 := by simp; omega
  unfold bitsOf
  rw [hl, List.range_add, List.map_append, List.map_map, hv]
  congr 1
  · refine List.map_congr_left fun k hk => ?_
    have hk := List.mem_range.1 hk
    rw [Nat.testBit_two_pow_mul_add _ b.isLt, if_neg (by omega)]
    congr 1
    omega
  · refine List.map_congr_left fun k hk => ?_
    have hk := List.mem_range.1 hk
    show (2 ^ 8 * beVal bs + b.toNat).testBit (8 * bs.length + 8 - 1 - (8 * bs.length + k)) = _
    rw [Nat.testBit_two_pow_mul_add _ b.isLt, if_pos (by omega)]
    congr 1
    omega

/-- The CRC of bytes is the register fed with the bits of their value. -/
theorem crc8_eq (bs : List Byte) : crc8 bs = (bitsOf (8 * bs.length) (beVal bs)).foldl crcStep 0xFF := by
  induction bs using List.reverseRecOn with
  | nil => rfl
  | append_singleton bs b ih =>
    rw [bitsOf_append, List.foldl_append, ← ih, ← crcByte_eq, crc8, List.foldl_append]
    rfl

theorem crc8_of_six {bs : List Byte} (h : bs.length = 6) : crc8 bs = (bitsOf 48 (beVal bs)).foldl crcStep 0xFF := by
  rw [crc8_eq, h]

/-- Settles O57: the register takes a byte's bits one by one, and the bytes of a frame are those of one value. -/
theorem directFramesCarryCrc8 : Obligations.DirectFramesCarryCrc8 := by
  intro s a hd hhd crc
  have hw : beAt hd 0 2 = beVal hd := by rw [beAt, List.drop_zero, List.take_of_length_le hhd.le]
  have hlen : (be 4 (u32 (snapWord s a))).length = 4 := by rw [be, List.length_reverse, le_length]
  have hv : beVal (hd ++ be 4 (u32 (snapWord s a))) = beAt hd 0 2 * 2 ^ 32 + u32 (snapWord s a) := by
    rw [beVal_append, hlen, beVal_be, hw]
    exact congrArg (_ + ·) (Nat.mod_eq_of_lt (Nat.mod_lt _ (by decide)))
  refine ⟨?_, fun bs hbs => ?_⟩
  · show be 4 _ ++ be 1 (crc8 (hd ++ be 4 (u32 (snapWord s a)))) = _
    rw [crc8_of_six (by rw [List.length_append, hhd, hlen]), hv]
    rfl
  · have h6 : (bs.take 6).length = 6 := by rw [List.length_take, hbs]; rfl
    have hc : crc8 (bs.take 6) = crc (beAt bs 0 6) := crc8_of_six h6
    rw [State.writeFrame, hc]
    simp only [beq_iff_eq]

end Sys2Proof.Machine
end

section
/-! LEMMAS. What a frame on the host interface comes down to: a direct frame on SPI or on the UART, a write, a read (R296 to R300, R305,
R306, R316, R317). -/

namespace Sys2Proof.Machine

variable {s t : State} {frame bs : List Byte} {a v : Nat}

/-! ### Frames (R296, R297, R305) -/

theorem hostFrame_of_spi (h0 : s.pw.stage ≠ 0) (hs : s.pw.hsel = false) (hne : bs ≠ []) :
    s.hostFrame bs = if bitAt (beAt bs 0 1) 7 then s.landed.spiDirect bs else s.landed.spiPackets bs := by
  unfold State.hostFrame
  extract_lets x
  have h1 : x.pw = s.pw := rfl
  rw [h1, if_neg (by simpa using h0), hs, if_neg Bool.false_ne_true, if_neg (by simpa using hne)]

theorem hostFrame_of_uart {d : List Byte} (h0 : s.pw.stage ≠ 0) (hs : s.pw.hsel = true) (hne : frame ≠ [])
    (hd : uncobs frame = some d) : s.hostFrame frame =
      if bitAt (beAt d 0 1) 7 then s.landed.uartDirect d
      else if d.length < 10 || d.length != packetSize d then s.landed.frameError
      else s.landed.packetCheck (bitAt (beAt d 0 1) 6) d := by
  unfold State.hostFrame
  extract_lets x
  have h1 : x.pw = s.pw := rfl
  rw [h1, if_neg (by simpa using h0), if_pos hs, State.uartBlock, if_neg (by simpa using hne), hd]

/-- A direct frame on SPI, of any length but none. -/
theorem hostFrame_direct_spi (h0 : s.pw.stage ≠ 0) (hs : s.pw.hsel = false) (hne : bs ≠ []) (h7 : bitAt (beAt bs 0 1) 7 = true) :
    s.hostFrame bs = s.landed.spiDirect bs := by
  rw [hostFrame_of_spi h0 hs hne, if_pos h7]

theorem hostFrame_direct_uart (h0 : s.pw.stage ≠ 0) (hs : s.pw.hsel = true) (hne : frame ≠ []) (hd : uncobs frame = some bs)
    (h7 : bitAt (beAt bs 0 1) 7 = true) : s.hostFrame frame = s.landed.uartDirect bs := by
  rw [hostFrame_of_uart h0 hs hne hd, if_pos h7]

/-! ### Direct writes (R298, R300) -/

theorem hsel_of_changes {q : List Part} (h : Changes q s t) (hq : q.contains .pw = false) : t.pw.hsel = s.pw.hsel := by
  rw [h.pw hq]

theorem writeFrame_hsel (s : State) (bs : List Byte) : (s.writeFrame bs).pw.hsel = s.pw.hsel :=
  hsel_of_changes (writeFrame_ch (.refl [.rtc, .lk, .wd, .nt, .chans, .stands, .seqs, .qu, .units, .pm] s) rfl) rfl

/-- A whole direct write takes effect, whichever interface brings it. -/
theorem hostFrame_of_write (h : HearsWrite s frame bs a) : s.hostFrame frame = (s.landed.writeFrame bs).wroteDirect := by
  obtain ⟨h0, h7, hb7, hb6, -, hspi, huart⟩ := h
  have hne : bs ≠ [] := by rintro rfl; cases h7
  have hw : (s.landed.writeFrame bs).pw.hsel = s.pw.hsel := writeFrame_hsel s.landed bs
  cases hs : s.pw.hsel with
  | false =>
    obtain rfl := hspi hs
    have ht : frame.take 7 = frame := List.take_of_length_le h7.le
    rw [hostFrame_direct_spi h0 hs hne hb7, State.spiDirect, if_pos hb6, h7, if_neg (Nat.lt_irrefl 7),
      if_neg (Nat.lt_irrefl 7), ht, State.wroteDirect, hw, hs]
    rfl
  | true =>
    obtain ⟨hf, hd⟩ := huart hs
    rw [hostFrame_direct_uart h0 hs hf hd hb7, State.uartDirect, h7, if_neg (by decide), if_pos hb6, State.wroteDirect, hw, hs]
    rfl

theorem writeFrame_of_bad (h : crc8 (bs.take 6) ≠ beAt bs 6 1) : s.writeFrame bs = s.directLog (beAt bs 1 1) .badCrc :=
  if_neg (by simpa using h)

theorem writeFrame_of_good (h : crc8 (bs.take 6) = beAt bs 6 1) : s.writeFrame bs = s.directWord (beAt bs 1 1) (beAt bs 2 4) :=
  if_pos (beq_iff_eq.2 h)

/-- What is recorded of a direct write, and in which part of the link state. -/
theorem directLog_lk (s : State) (a : Nat) (d : Direct) : (s.directLog a d).lk =
    { s.lk with dlAddr := a, dlAccepted := d == .accepted, dlBadCrc := d == .badCrc, dlRefused := d == .refused
                dlLocked := d == .locked, dlCount := if d == .accepted then satN 65535 (s.lk.dlCount + 1) else s.lk.dlCount
                directCrcErr := s.lk.directCrcErr || d == .badCrc, directRoErr := s.lk.directRoErr || d == .refused
                irq := if d == .badCrc || d == .refused then setBit s.lk.irq 14 else s.lk.irq } := by
  unfold State.directLog
  extract_lets s1
  split <;> rfl

/-- A direct write that is taken, on what it wrote. -/
theorem wroteDirect_lk (s : State) : s.wroteDirect.lk = { s.lk with sent := if s.pw.hsel then s.lk.sent else zeros 7 } := by
  unfold State.wroteDirect
  split <;> rfl

theorem wroteDirect_ch (s : State) : Changes [.lk] s s.wroteDirect := by
  unfold State.wroteDirect
  split
  · exact .refl _ _
  · exact drives_ch (.refl _ s) rfl

/-! ### Words of the snap window that take a write (R300, Table 13-11) -/

theorem directWord_of_irq (hv : v < 2 ^ 15) :
    s.directWord 0x02 v = (s.onLk fun l => { l with irq := clearBits l.irq v }).directLog 0x02 .accepted := by
  unfold State.directWord
  rw [if_neg (by decide), if_neg (by decide), if_neg (by simp), if_pos (by simpa using hv)]

theorem directWord_of_mask (hv : v < 2 ^ 15) :
    s.directWord 0x03 v = (s.onLk fun l => { l with irqMask := v }).directLog 0x03 .accepted := by
  unfold State.directWord
  rw [if_neg (by decide), if_neg (by decide), if_neg (by simp), if_neg (by simp), if_pos (by simpa using hv)]

theorem directWord_of_scratch (h1 : 0xC0 ≤ a) (h2 : a ≤ 0xDF) :
    s.directWord a v = (s.onLk fun l => { l with scratch := modAt l.scratch (a - 0xC0) fun _ => v }).directLog a .accepted := by
  unfold State.directWord
  rw [if_neg (by simp; omega), if_neg (by simp; omega), if_neg (by simp; omega), if_neg (by simp; omega), if_neg (by simp; omega),
    if_neg (by simp; omega), if_neg (by simp; omega), if_pos (by simp [h1, h2])]

theorem directWord_of_readOnly (h1 : 0x20 ≤ a) (h2 : a < 0xC0) : s.directWord a v = s.directLog a .refused := by
  unfold State.directWord
  rw [if_neg (by simp; omega), if_neg (by simp; omega), if_neg (by simp; omega), if_neg (by simp; omega), if_neg (by simp; omega),
    if_neg (by simp; omega), if_neg (by simp; omega), if_neg (by simp; omega)]

/-! ### Direct reads (R298, R299, R317) -/

/-- The group of the time counter is latched by its first read. -/
theorem latchFor_of_time (h1 : 0x10 ≤ a) (h2 : a ≤ 0x13) (hn : timeLatched s = none) :
    s.latchFor a = (s.onLk fun l =>
      { l with timeLatch := some (s.now - Config.freeNat s.free % (40 * 65536 + 1)), timeLatchClk := s.clk }).drew 1 :=
  if_pos (by simp [h1, h2, hn])

theorem latchFor_of_cal (h1 : 0x18 ≤ a) (h2 : a ≤ 0x1E) (hn : calLatched s = none) :
    s.latchFor a = s.onLk fun l => { l with calLatch := some s.rtc.cal, calLatchClk := s.clk } := by
  unfold State.latchFor
  rw [if_neg (by simp; omega), if_pos (by simp [h1, h2, hn])]

/-- A latch touches only latches. -/
theorem latchFor_lk (s : State) (a : Nat) : ∃ tl tc cl cc, (s.latchFor a).lk =
    { s.lk with timeLatch := tl, timeLatchClk := tc, calLatch := cl, calLatchClk := cc } := by
  unfold State.latchFor
  split
  · exact ⟨_, _, _, _, rfl⟩
  · split
    · exact ⟨_, _, _, _, rfl⟩
    · exact ⟨_, _, _, _, rfl⟩

theorem spiDirect_of_read (h7 : 7 ≤ bs.length) (h6 : bitAt (beAt bs 0 1) 6 = false) :
    s.spiDirect bs = ((s.latchFor (beAt bs 1 1)).unlatchFor (beAt bs 1 1)).drives
      (fitBytes bs.length (zeros 2 ++ directReply (s.latchFor (beAt bs 1 1)) (bs.take 2) (beAt bs 1 1))) := by
  unfold State.spiDirect
  extract_lets a s1 s2
  have h1 : s1 = s := if_neg (Nat.not_lt.2 h7)
  rw [h6, if_neg Bool.false_ne_true, if_neg (by omega)]
  unfold s2
  rw [h1]

theorem uartDirect_of_read (h7 : bs.length = 7) (h6 : bitAt (beAt bs 0 1) 6 = false) :
    s.uartDirect bs = ((s.latchFor (beAt bs 1 1)).unlatchFor (beAt bs 1 1)).onLk fun l =>
      { l with directOut := l.directOut ++ [bs.take 2 ++ directReply (s.latchFor (beAt bs 1 1)) (bs.take 2) (beAt bs 1 1)] } := by
  unfold State.uartDirect
  extract_lets a s1
  rw [h7, if_neg (by decide), h6, if_neg Bool.false_ne_true]

end Sys2Proof.Machine
end

section
/-! THEOREMS. Direct writes and reads of the snap window, and the release of its latches (R298 to R300, R306, R316, R317; O46). -/

namespace Sys2Proof.Machine

variable {s : State} {frame bs : List Byte} {a : Nat}

/-- The state with link state `l`, every write so far complete. -/
def withLink (s : State) (l : Link) : State := { s with lk := l, hw := { s.hw with flight := [] } }

theorem eq_withLink {t : State} (h : Changes [.lk] s.landed t) : t = { s with lk := t.lk, hw := { s.hw with flight := [] } } :=
  h.eq_pick

theorem directWrite_gives {p : State → Prop} (h : HearsWrite s frame bs a)
    (hp : p (s.landed.writeFrame bs).wroteDirect) : Gives (.directWrite frame) s p :=
  ⟨_, congrArg Host.Outcome.next (hostFrame_of_write h), hp⟩

/-- A direct write of which what it wrote is known. -/
theorem directWrite_of_word {p : State → Prop} (h : HearsWrite s frame bs a) (hc : crc8 (bs.take 6) = beAt bs 6 1)
    {x : State} {d : Direct} (hx : s.landed.directWord a (beAt bs 2 4) = x.directLog a d) (hp : p (x.directLog a d).wroteDirect) :
    Gives (.directWrite frame) s p := by
  refine directWrite_gives h ?_
  obtain ⟨-, -, -, -, ha, -⟩ := h
  rwa [writeFrame_of_good hc, ha, hx]

theorem directLog_wrote_ch {x : State} {d : Direct} (hx : Changes [.lk] s.landed x) :
    Changes [.lk] s.landed (x.directLog a d).wroteDirect := (directLog_ch hx rfl).trans (wroteDirect_ch _)

/-- What is recorded of an accepted direct write. -/
theorem taken_of_accepted {x : State} (hx : Changes [.lk] s.landed x) (hn : x.lk.dlCount = s.lk.dlCount) :
    (x.directLog a .accepted).wroteDirect.lk.dlAccepted = true ∧
      (x.directLog a .accepted).wroteDirect.lk.dlCount = satN 65535 (s.lk.dlCount + 1) ∧
      (x.directLog a .accepted).wroteDirect = { s with
        lk := (x.directLog a .accepted).wroteDirect.lk, hw := { s.hw with flight := [] } } := by
  refine ⟨by rw [wroteDirect_lk, directLog_lk]; rfl, ?_, eq_withLink (directLog_wrote_ch hx)⟩
  rw [wroteDirect_lk, directLog_lk, ← hn]
  rfl

theorem directWrite_takes (h : HearsWrite s frame bs a) (hc : crc8 (bs.take 6) = beAt bs 6 1) :
    let v := beAt bs 2 4
    let taken := fun t : State => t.lk.dlAccepted = true ∧ t.lk.dlCount = satN 65535 (s.lk.dlCount + 1) ∧
      t = { s with lk := t.lk, hw := { s.hw with flight := [] } }
    (a = 0x02 → v < 2 ^ 15 → Gives (.directWrite frame) s fun t => t.lk.irq = clearBits s.lk.irq v ∧ taken t) ∧
    (a = 0x03 → v < 2 ^ 15 → Gives (.directWrite frame) s fun t => t.lk.irqMask = v ∧ t.lk.irq = s.lk.irq ∧ taken t) ∧
    (0xC0 ≤ a → a ≤ 0xDF → Gives (.directWrite frame) s fun t =>
      t.lk.scratch = modAt s.lk.scratch (a - 0xC0) (fun _ => v) ∧ taken t) := by
  intro v taken
  refine ⟨?_, ?_, fun h1 h2 => ?_⟩
  · rintro rfl hv
    exact directWrite_of_word h hc (directWord_of_irq hv)
      ⟨by rw [wroteDirect_lk, directLog_lk]; rfl, taken_of_accepted (onLk_ch (.refl _ _) rfl) rfl⟩
  · rintro rfl hv
    exact directWrite_of_word h hc (directWord_of_mask hv)
      ⟨by rw [wroteDirect_lk, directLog_lk]; rfl, by rw [wroteDirect_lk, directLog_lk]; rfl,
        taken_of_accepted (onLk_ch (.refl _ _) rfl) rfl⟩
  · have hx := directWord_of_scratch (s := s.landed) (v := v) h1 h2
    generalize a - 0xC0 = n at hx ⊢
    exact directWrite_of_word h hc hx
      ⟨by rw [wroteDirect_lk, directLog_lk]; rfl, taken_of_accepted (onLk_ch (.refl _ _) rfl) rfl⟩

theorem directWrite_refuses (h : HearsWrite s frame bs a) (hc : crc8 (bs.take 6) = beAt bs 6 1) (h1 : 0x20 ≤ a) (h2 : a < 0xC0) :
    Gives (.directWrite frame) s fun t =>
      t.lk.dlRefused = true ∧ t.lk.directRoErr = true ∧ t.lk.scratch = s.lk.scratch ∧ t.lk.irqMask = s.lk.irqMask ∧
      t.lk.hushed = s.lk.hushed ∧ t.lk.dlCount = s.lk.dlCount ∧ t = { s with lk := t.lk, hw := { s.hw with flight := [] } } := by
  refine directWrite_of_word h hc (directWord_of_readOnly h1 h2) ?_
  have hch := eq_withLink (directLog_wrote_ch (a := a) (d := .refused) (.refl _ s.landed))
  have hlk := wroteDirect_lk (s.landed.directLog a .refused)
  rw [directLog_lk] at hlk
  generalize (s.landed.directLog a .refused).wroteDirect = t at hch hlk ⊢
  exact ⟨by rw [hlk]; rfl, by rw [hlk]; exact Bool.or_true _, by rw [hlk]; rfl, by rw [hlk]; rfl, by rw [hlk]; rfl,
    by rw [hlk]; rfl, hch⟩

theorem directWrite_of_badCrc (h : HearsWrite s frame bs a) (hc : crc8 (bs.take 6) ≠ beAt bs 6 1) :
    Gives (.directWrite frame) s fun t =>
      t.lk.dlBadCrc = true ∧ t.lk.directCrcErr = true ∧ t.lk.scratch = s.lk.scratch ∧ t.lk.irqMask = s.lk.irqMask ∧
      t.lk.hushed = s.lk.hushed ∧ t.lk.dlCount = s.lk.dlCount ∧ t = { s with lk := t.lk, hw := { s.hw with flight := [] } } := by
  refine directWrite_gives h ?_
  rw [writeFrame_of_bad hc]
  have hch := eq_withLink (directLog_wrote_ch (a := (beAt bs 1 1)) (d := .badCrc) (.refl _ s.landed))
  have hlk := wroteDirect_lk (s.landed.directLog (beAt bs 1 1) .badCrc)
  rw [directLog_lk] at hlk
  generalize (s.landed.directLog (beAt bs 1 1) .badCrc).wroteDirect = t at hch hlk ⊢
  exact ⟨by rw [hlk]; rfl, by rw [hlk]; exact Bool.or_true _, by rw [hlk]; rfl, by rw [hlk]; rfl, by rw [hlk]; rfl,
    by rw [hlk]; rfl, hch⟩

/-! ### Frames cut short, and of another length (R300, R306) -/

theorem landed_lk (s : State) : s.landed.lk = s.lk := rfl

theorem spiDirect_of_short (h7 : bs.length < 7) : ∃ x out, s.spiDirect bs = x.drives out ∧ out.length = bs.length ∧
    Changes [.lk, .free] s x ∧ x.lk.frameErrors = u32 (s.lk.frameErrors + 1) ∧ x.lk.scratch = s.lk.scratch ∧
    x.lk.dlCount = s.lk.dlCount ∧ x.lk.irq = s.lk.irq := by
  have h1 : Changes [.lk, .free] s s.directError := onLk_ch (.refl _ s) rfl
  have hz : (zeros bs.length).length = bs.length := List.length_replicate
  unfold State.spiDirect
  extract_lets a s1 s2
  have hs1 : s1 = s.directError := if_pos h7
  rw [if_pos h7]
  split
  · exact ⟨_, _, rfl, hz, hs1 ▸ h1, by rw [hs1]; rfl, by rw [hs1]; rfl, by rw [hs1]; rfl, by rw [hs1]; rfl⟩
  · split
    · exact ⟨_, _, rfl, hz, hs1 ▸ h1, by rw [hs1]; rfl, by rw [hs1]; rfl, by rw [hs1]; rfl, by rw [hs1]; rfl⟩
    · obtain ⟨tl, tc, cl, cc, hl⟩ := latchFor_lk s1 a
      have hl2 : (s2.unlatchFor a).lk = { s1.lk with
        timeLatch := if a == 0x13 then none else tl, timeLatchClk := tc, calLatch := if a == 0x1E then none else cl,
        calLatchClk := cc } := by
        have hs2 : s2.lk = _ := hl
        rw [State.unlatchFor, onLk_lk, hs2]
      refine ⟨_, _, rfl, fitBytes_length _ _, unlatchFor_ch (latchFor_ch (hs1 ▸ h1) rfl) rfl, ?_⟩
      rw [hl2, hs1]
      exact ⟨rfl, rfl, rfl, rfl⟩

theorem directWrite_of_short (h0 : s.pw.stage ≠ 0) (hs : s.pw.hsel = false) (hne : frame ≠ []) (h7 : frame.length < 7)
    (hb7 : bitAt (beAt frame 0 1) 7 = true) : Gives (.directWrite frame) s fun t =>
      t.lk.frameErrors = u32 (s.lk.frameErrors + 1) ∧ t.lk.scratch = s.lk.scratch ∧ t.lk.dlCount = s.lk.dlCount ∧
      t.lk.irq = s.lk.irq ∧ t.lk.sent.length = frame.length ∧
      t = { s with lk := t.lk, hw := { s.hw with flight := [] }, free := t.free } := by
  obtain ⟨x, out, hx, hout, hch, h1, h2, h3, h4⟩ := spiDirect_of_short (s := s.landed) h7
  have he : exec (.directWrite frame) s = .next (x.drives out) :=
    congrArg Host.Outcome.next ((hostFrame_direct_spi h0 hs hne hb7).trans hx)
  exact ⟨_, he, h1, h2, h3, h4, hout, (drives_ch hch rfl).eq_pick⟩

theorem directWrite_of_misfit (h0 : s.pw.stage ≠ 0) (hs : s.pw.hsel = true) (hne : frame ≠ []) (hd : uncobs frame = some bs)
    (hb7 : bitAt (beAt bs 0 1) 7 = true) (h7 : bs.length ≠ 7) : exec (.directWrite frame) s = .next { s with
      lk := { s.lk with frameErrors := u32 (s.lk.frameErrors + 1) }, hw := { s.hw with flight := [] } } := by
  refine congrArg Host.Outcome.next ((hostFrame_direct_uart h0 hs hne hd hb7).trans ?_)
  rw [State.uartDirect, if_pos (by simpa using h7)]
  rfl

/-! ### Reads (R299, R306, R317) -/

/-- What a read of a word does to the groups' latches, where the rest of the link state is of no concern. -/
theorem latches_of_read {t : State} (hch : Changes [.lk, .free] s.landed t)
    (ht : t.lk.timeLatch = ((s.landed.latchFor a).unlatchFor a).lk.timeLatch)
    (hc : t.lk.calLatch = ((s.landed.latchFor a).unlatchFor a).lk.calLatch) :
    (a = 0x13 → t.lk.timeLatch = none) ∧ (a = 0x1E → t.lk.calLatch = none) ∧
    (0x18 ≤ a → a ≤ 0x1D → calLatched s = none → t.lk.calLatch = some s.rtc.cal) ∧
    (0x10 ≤ a → a ≤ 0x12 → timeLatched s = none → ∃ c, t.lk.timeLatch = some c ∧ c ≤ s.now ∧ s.now ≤ c + 40 * 65536) ∧
    t = { s with lk := t.lk, hw := { s.hw with flight := [] }, free := t.free } := by
  refine ⟨?_, ?_, fun h1 h2 hn => ?_, fun h1 h2 hn => ⟨s.now - Config.freeNat s.free % (40 * 65536 + 1), ?_, Nat.sub_le _ _, ?_⟩,
    hch.eq_pick⟩
  · rintro rfl
    exact ht
  · rintro rfl
    exact hc
  · have hne : (a == 0x1E) = false := by simp; omega
    rw [hc, latchFor_of_cal (s := s.landed) h1 (by omega) hn]
    show (if (a == 0x1E) = true then none else some s.rtc.cal) = _
    rw [hne]
    rfl
  · have hne : (a == 0x13) = false := by simp; omega
    rw [ht, latchFor_of_time (s := s.landed) h1 (by omega) hn]
    show (if (a == 0x13) = true then none else _) = _
    rw [hne]
    rfl
  · have := Nat.mod_lt (Config.freeNat s.free) (show 0 < 40 * 65536 + 1 by decide)
    omega

theorem snapGroupLatch_spi (h0 : s.pw.stage ≠ 0) (hb7 : bitAt (beAt bs 0 1) 7 = true) (hb6 : bitAt (beAt bs 0 1) 6 = false)
    (hs : s.pw.hsel = false) (h7 : 7 ≤ bs.length) :
    Gives (.snapGroupLatch bs) s fun t =>
      t.lk.sent = fitBytes bs.length (zeros 2 ++ directReply (s.landed.latchFor (beAt bs 1 1)) (bs.take 2) (beAt bs 1 1)) ∧
      (beAt bs 1 1 = 0x13 → t.lk.timeLatch = none) ∧ (beAt bs 1 1 = 0x1E → t.lk.calLatch = none) ∧
      (0x18 ≤ beAt bs 1 1 → beAt bs 1 1 ≤ 0x1D → calLatched s = none → t.lk.calLatch = some s.rtc.cal) ∧
      (0x10 ≤ beAt bs 1 1 → beAt bs 1 1 ≤ 0x12 → timeLatched s = none →
        ∃ c, t.lk.timeLatch = some c ∧ c ≤ s.now ∧ s.now ≤ c + 40 * 65536) ∧
      t = { s with lk := t.lk, hw := { s.hw with flight := [] }, free := t.free } := by
  have hne : bs ≠ [] := by rintro rfl; simp at h7
  have he : exec (.snapGroupLatch bs) s = _ :=
    congrArg Host.Outcome.next ((hostFrame_direct_spi h0 hs hne hb7).trans (spiDirect_of_read h7 hb6))
  exact ⟨_, he, rfl, latches_of_read (drives_ch (unlatchFor_ch (latchFor_ch (.refl _ _) rfl) rfl) rfl) rfl rfl⟩

theorem snapGroupLatch_uart (h0 : s.pw.stage ≠ 0) (hb7 : bitAt (beAt bs 0 1) 7 = true) (hb6 : bitAt (beAt bs 0 1) 6 = false)
    (hs : s.pw.hsel = true) (hne : frame ≠ []) (hd : uncobs frame = some bs) (h7 : bs.length = 7) :
    Gives (.snapGroupLatch frame) s fun t =>
      t.lk.directOut = s.lk.directOut ++
        [bs.take 2 ++ directReply (s.landed.latchFor (beAt bs 1 1)) (bs.take 2) (beAt bs 1 1)] ∧
      (beAt bs 1 1 = 0x13 → t.lk.timeLatch = none) ∧ (beAt bs 1 1 = 0x1E → t.lk.calLatch = none) ∧
      (0x18 ≤ beAt bs 1 1 → beAt bs 1 1 ≤ 0x1D → calLatched s = none → t.lk.calLatch = some s.rtc.cal) ∧
      (0x10 ≤ beAt bs 1 1 → beAt bs 1 1 ≤ 0x12 → timeLatched s = none →
        ∃ c, t.lk.timeLatch = some c ∧ c ≤ s.now ∧ s.now ≤ c + 40 * 65536) ∧
      t = { s with lk := t.lk, hw := { s.hw with flight := [] }, free := t.free } := by
  have he : exec (.snapGroupLatch frame) s = _ :=
    congrArg Host.Outcome.next ((hostFrame_direct_uart h0 hs hne hd hb7).trans (uartDirect_of_read h7 hb6))
  refine ⟨_, he, ?_, latches_of_read (onLk_ch (unlatchFor_ch (latchFor_ch (.refl _ _) rfl) rfl) rfl) rfl rfl⟩
  obtain ⟨tl, tc, cl, cc, hl⟩ := latchFor_lk s.landed (beAt bs 1 1)
  have hout : (s.landed.latchFor (beAt bs 1 1)).lk.directOut = s.lk.directOut := by rw [hl]; rfl
  rw [← hout]
  rfl

theorem execSnapLatchTimeout_cal (h : s.after s.lk.calLatchClk (2 * cycMs) = true) :
    exec (.snapLatchTimeout true) s = .next { s with lk := { s.lk with calLatch := none } } := by
  have hn : calLatched s = none := if_pos h
  show Host.Outcome.next (s.onLk fun l => { l with calLatch := calLatched s }) = _
  rw [hn]
  rfl

theorem execSnapLatchTimeout_time (h : s.after s.lk.timeLatchClk (2 * cycMs) = true) :
    exec (.snapLatchTimeout false) s = .next { s with lk := { s.lk with timeLatch := none } } := by
  have hn : timeLatched s = none := if_pos h
  show Host.Outcome.next (s.onLk fun l => { l with timeLatch := timeLatched s }) = _
  rw [hn]
  rfl

/-- Settles O46: a direct frame is a write or a read of one word, and what it records and latches is link state. -/
theorem directFramesReachTheSnapWindow : Obligations.DirectFramesReachTheSnapWindow := by
  intro s h0 only
  refine ⟨fun frame bs a h hc => ?_, fun _ _ _ => directWrite_of_badCrc, fun _ hs hne h7 hb7 => directWrite_of_short h0 hs hne h7 hb7,
    fun _ _ hs hne hd hb7 h7 => directWrite_of_misfit h0 hs hne hd hb7 h7, fun frame bs hb7 hb6 => ⟨?_, ?_⟩,
    execSnapLatchTimeout_cal, execSnapLatchTimeout_time⟩
  · obtain ⟨hirq, hmask, hscratch⟩ := directWrite_takes h hc
    exact ⟨hirq, hmask, hscratch, directWrite_refuses h hc⟩
  · rintro hs rfl h7
    exact snapGroupLatch_spi h0 hb7 hb6 hs h7
  · exact fun hs hne hd h7 => snapGroupLatch_uart h0 hb7 hb6 hs hne hd h7

end Sys2Proof.Machine
end

section
/-! LEMMAS. What a whole packet on the host interface and a frame of the network come down to: the packet's checks, and the MAC (R278,
R279, R301 to R305, R308, R312, R321). -/

namespace Sys2Proof.Machine

variable {s x : State} {frame pkt bs : List Byte} {src : Nat}

/-! ### Bytes -/

theorem beAt_zero_one (bs : List Byte) : beAt bs 0 1 = (byteAt bs 0).toNat := by
  cases bs with
  | nil => rfl
  | cons c r => simp [beAt, byteAt, beVal]

theorem beAt_announced (n : Nat) (bs : List Byte) (hn : n < 4096) : beAt (be 2 n ++ bs) 0 2 = n := by
  have ht : ((be 2 n ++ bs).drop 0).take 2 = be 2 n :=
    List.take_append_of_le_length (by rw [be, List.length_reverse, le_length]) |>.trans
      (List.take_of_length_le (by rw [be, List.length_reverse, le_length]))
  rw [beAt, ht, beVal_be]
  omega

theorem bitAt_announced (n : Nat) (bs : List Byte) (hn : n < 4096) : bitAt (beAt (be 2 n ++ bs) 0 1) 7 = false := by
  have ht : beAt (be 2 n ++ bs) 0 1 = n / 256 % 256 := by simp [be, le, beAt, beVal]
  have hd : n / 256 % 256 / 2 ^ 7 = 0 := by omega
  rw [ht, bitAt, hd]
  rfl

/-! ### Packets (R301 to R305, R308) -/

/-- A lane's stream gives up bytes as an SPI frame takes them: the rest of the link state and of the machine stays. -/
def SentFrom (s x : State) : Prop := Changes [.lk] s.landed x ∧
  ∃ sent bulkOut ctrlOut ctrlCut, x.lk = { s.lk with sent := sent, bulkOut := bulkOut, ctrlOut := ctrlOut, ctrlCut := ctrlCut }

theorem sentFrom_landed (s : State) : SentFrom s s.landed := ⟨.refl _ _, _, _, _, _, rfl⟩

/-- A frame that announces one packet and holds it. -/
theorem packets_of_one {bulk : Bool} {n : Nat} (h10 : 10 ≤ pkt.length) (hlen : pkt.length = packetSize pkt) :
    s.packets bulk (n + 2) pkt.length pkt = s.packetCheck bulk pkt := by
  have h0 : pkt.length ≠ 0 := by omega
  rw [State.packets, if_neg (by simpa using h0), ← hlen, if_neg (by simpa using h10)]
  dsimp only
  rw [List.take_length, Nat.sub_self, State.packets]
  exact if_pos rfl

/-- A whole packet reaches the checks of Table 13-6, with nothing sent before it on the UART. -/
theorem hostFrame_of_brings (h : Brings s frame pkt) :
    ∃ x, SentFrom s x ∧ (s.pw.hsel = true → x = s.landed) ∧ s.hostFrame frame = x.packetCheck false pkt := by
  obtain ⟨h0, hlen, hsmall, -, hb7, hb6, -, -, -, hspi, huart⟩ := h
  have h10 : 10 ≤ pkt.length := by rw [hlen, packetSize]; omega
  cases hs : s.pw.hsel with
  | true =>
    obtain ⟨hne, hd⟩ := huart hs
    refine ⟨s.landed, sentFrom_landed s, fun _ => rfl, ?_⟩
    rw [hostFrame_of_uart h0 hs hne hd, hb7, if_neg Bool.false_ne_true, hb6, ← hlen, if_neg]
    simpa using h10
  | false =>
    have hf := hspi hs
    have hfl : frame.length = 2 + pkt.length := by rw [hf, List.length_append, be, List.length_reverse, le_length]
    have hne : frame ≠ [] := List.ne_nil_of_length_pos (by omega)
    have h7 : bitAt (beAt frame 0 1) 7 = false := hf ▸ bitAt_announced _ _ hsmall
    have hn : beAt frame 0 2 = pkt.length := hf ▸ beAt_announced _ _ hsmall
    have h14 : bitAt pkt.length 14 = false := by
      have hd : pkt.length / 2 ^ 14 = 0 := by omega
      rw [bitAt, hd]
      rfl
    have hp : ((frame.drop 2).take pkt.length) = pkt := by
      have hd : frame.drop 2 = pkt := by
        rw [hf]
        exact List.drop_left' (by rw [be, List.length_reverse, le_length])
      rw [hd, List.take_length]
    rw [hostFrame_of_spi h0 hs hne, h7, if_neg Bool.false_ne_true, State.spiPackets, hn, Nat.mod_eq_of_lt hsmall, h14, hp]
    generalize frameChoice s.landed = c
    obtain ⟨bulk, d⟩ := c
    dsimp only
    generalize takeBytes _ _ = o
    obtain ⟨out, rest, cut⟩ := o
    dsimp only
    rw [if_neg (by omega), Bool.false_and, if_neg Bool.false_ne_true]
    refine ⟨_, ⟨onLk_ch (.refl _ _) rfl, ?_⟩, fun h => absurd h Bool.false_ne_true, packets_of_one h10 hlen⟩
    exact ⟨_, _, _, _, rfl⟩

/-- What the checks of Table 13-6 make of a packet that passes the first five. -/
theorem packetCheck_of_brings (h : Brings s frame pkt) (hx : x.nt.node = s.nt.node) : x.packetCheck false pkt =
    if fieldAt pkt 2 2 == 0x0110 || fieldAt pkt 2 2 == 0x0111 then
      let s1 := if fieldAt pkt 2 2 == 0x0110 then x.hush (hostSrc x) else x.resume (hostSrc x)
      s1.headReply (hushReply s1 (byteAt pkt 1).toNat (fieldAt pkt 2 2))
    else if x.pw.stage == 1 then x.linkReply pkt .notInStage []
    else x.rxBuffer false pkt := by
  obtain ⟨-, -, -, hv, hb7, hb6, hnode, hcrc, hparams, -⟩ := h
  rw [beAt_zero_one] at hv hb7 hb6 hparams
  have hn : ¬ (fieldAt pkt 6 2 % 4096 != x.nt.node && fieldAt pkt 6 2 % 4096 != 0xFFF) = true := by
    rw [hx]
    rcases hnode with h | h <;> simp [h]
  unfold State.packetCheck
  dsimp only
  rw [if_neg (by simp [hv, hb7, hb6]), if_neg hn, if_neg (by simpa [packetOk] using hcrc), if_neg (Nat.not_lt.2 hparams)]
  rfl

/-! ### Hush (R313) -/

theorem cutBulk_eq (l : Link) (clk : Nat) : ∃ line sent, l.cutBulk clk = { l with line := line, sent := sent } := by
  unfold Link.cutBulk
  split
  · exact ⟨_, _, rfl⟩
  · exact ⟨_, _, rfl⟩

theorem hush_lk (s : State) (src : Nat) : ∃ line sent irq, (s.hush src).lk =
    { s.lk with hushed := true, hushSrc := src, hushCount := satN 65535 (s.lk.hushCount + 1), bulkOut := [],
                line := line, sent := sent, irq := irq } := by
  obtain ⟨line, sent, h⟩ := cutBulk_eq { s.lk with
    hushed := true, hushSrc := src, hushCount := satN 65535 (s.lk.hushCount + 1), bulkOut := [] } s.clk
  unfold State.hush
  extract_lets s1
  have h1 : s1.lk = _ := h
  split
  · exact ⟨_, _, _, h1⟩
  · exact ⟨line, sent, _, congrArg (fun l : Link => { l with irq := setBit l.irq 13 }) h1⟩

theorem hush_nt (s : State) (src : Nat) : (s.hush src).nt = { s.nt with waiting := [], egress := s.nt.egress.filter kept } := by
  unfold State.hush
  extract_lets s1
  split <;> rfl

theorem hush_qu (s : State) (src : Nat) : (s.hush src).qu.entries = s.qu.entries ∧ (s.hush src).qu.flying = [] := by
  unfold State.hush
  extract_lets s1
  split <;> exact ⟨rfl, rfl⟩

theorem hush_pm (s : State) (src : Nat) : ∃ n, (s.hush src).pm = { s.pm with waitEnd := [], skipped := n } := by
  unfold State.hush
  extract_lets s1
  split <;> exact ⟨_, rfl⟩

theorem resume_lk (s : State) (src : Nat) : ∃ irq, (s.resume src).lk = { s.lk with hushed := false, hushSrc := src, irq := irq } := by
  unfold State.resume
  extract_lets s1
  split <;> exact ⟨_, rfl⟩

/-! ### The switch up to the MAC (R278, R279) -/

/-- On its way to the MAC a frame leaves in the network state what it leaves there, but for node number, mode and waiting frames. -/
def PassesOn (s x : State) : Prop :=
  Changes [.nt] s x ∧ x.nt.node = s.nt.node ∧ x.nt.waiting = s.nt.waiting

theorem PassesOn.trans {y : State} (h : PassesOn s x) (h2 : PassesOn x y) : PassesOn s y := by
  obtain ⟨hc, hn, hw⟩ := h
  obtain ⟨hc2, hn2, hw2⟩ := h2
  exact ⟨hc.trans hc2, hn2.trans hn, hw2.trans hw⟩

/-- A parameter reads of the network state the node number alone. -/
theorem PassesOn.par_eq (h : PassesOn s x) (i : Nat) : par x i = par s i := by
  obtain ⟨hc, hn, -⟩ := h
  simp only [par, parReset, factoryVal, factoryImage, hc.pr rfl, hc.pw rfl, hc.up rfl, hn]

theorem passesOn_onNt (s : State) {g : Net → Net} (hn : ∀ n, (g n).node = n.node) (hw : ∀ n, (g n).waiting = n.waiting) :
    PassesOn s (s.onNt g) := ⟨onNt_ch (.refl _ s) rfl, hn _, hw _⟩

theorem passesOn_onPort (s : State) (k : Nat) (g : Port → Port) : PassesOn s (s.onPort k g) := ⟨onPort_ch (.refl _ s) rfl, rfl, rfl⟩

theorem passesOn_refl (s : State) : PassesOn s s := ⟨.refl _ s, rfl, rfl⟩

theorem passesOn_hostHold (s : State) (f : Heard) : PassesOn s (s.hostHold f) := by
  unfold State.hostHold
  extract_lets u
  split
  · exact passesOn_refl s
  · refine passesOn_onNt s (fun n => ?_) fun n => ?_ <;> split <;> rfl

theorem passesOn_learnAddress (s : State) (e : Eth) : PassesOn s (s.learnAddress e) := by
  unfold State.learnAddress
  split
  · exact passesOn_onNt s (fun _ => rfl) fun _ => rfl
  · exact passesOn_refl s

theorem passesOn_firstCopy (s : State) (key : Nat × Nat) : PassesOn s (s.firstCopy key) :=
  ⟨firstCopy_ch (.refl _ s) rfl, rfl, rfl⟩

theorem ownAddress_congr (h : ∀ i, par x i = par s i) (a : Nat) : ownAddress x a = ownAddress s a := by
  simp only [ownAddress, ipOf, h]

/-- A datagram is no PTP message. -/
theorem ptpOf_of_udp {e : Eth} {u : Udp} (h : udpOf e = some u) : ptpOf e = none := by
  have he : (e.etype == 0x88F7) = false := by
    unfold udpOf at h
    extract_lets b at h
    split at h
    next h1 => simp only [Bool.and_eq_true, beq_iff_eq] at h1; simp [h1.1.1.1]
    next =>
      split at h
      next h1 => simp only [Bool.and_eq_true, beq_iff_eq] at h1; simp [h1.1.1]
      next => cases h
  rw [ptpOf, he]
  rfl

/-- A command packet to an own address goes from the MAC to its commands. -/
theorem toMac_of_command {f : Heard} {u : Udp} (hu : udpOf f.eth = some u) (hp : commandOf u = some pkt)
    (ho : ownAddress s u.dst = true) : ∃ x, PassesOn s x ∧ s.toMac f = x.macCommand u pkt := by
  refine ⟨_, (passesOn_hostHold s f).trans (passesOn_learnAddress _ f.eth), ?_⟩
  simp only [State.toMac, hu, hp, ho, if_true]

/-- What follows the MAC is that the frame goes on, or nothing. -/
def GoesOn (x t : State) : Prop := t = x ∨ ∃ f, t = x.forward f

/-- A command packet for the device that a frame brings reaches the MAC in every switch mode (R278, R279). -/
theorem receive_command {k : Fin 2} {f : FrameIn} {u : Udp} (hup : portUp s k = true) (hgood : frameGood f = true)
    (hu : udpOf (ethOf (s.nt.mode == 0) (frameBody f)) = some u) (hp : commandOf u = some pkt) (ho : ownAddress s u.dst = true)
    (hdev : forDevice (ethOf (s.nt.mode == 0) (frameBody f)) = true)
    (hfirst : s.nt.mode = 0 → ∃ q, (ethOf (s.nt.mode == 0) (frameBody f)).seq = some q ∧
      (ethOf (s.nt.mode == 0) (frameBody f)).src ≠ macAddr ∧
      s.nt.discard.any (fun x => x.1 == ((ethOf (s.nt.mode == 0) (frameBody f)).src, q)) = false) :
    ∃ x, PassesOn s x ∧ GoesOn (x.macCommand u pkt) (s.receive k f) := by
  unfold State.receive
  rw [hup, if_neg (by decide)]
  extract_lets s1
  have h1 : PassesOn s s1 := passesOn_onPort _ _ _
  have hm : s1.nt.mode = s.nt.mode := rfl
  have hd1 : s1.nt.discard = s.nt.discard := rfl
  rw [hgood, if_neg (by decide)]
  generalize hF : (⟨ethOf (s.nt.mode == 0) (frameBody f), frameBody f, k, f.rx - latency s k 3⟩ : Heard) = F
  have hFe : ethOf (s.nt.mode == 0) (frameBody f) = F.eth := hF ▸ rfl
  rw [hFe] at hu hdev hfirst
  clear_value s1
  have hmac : ∀ y, PassesOn s y → ∃ x, PassesOn s x ∧ y.toMac F = x.macCommand u pkt := fun y hy => by
    obtain ⟨x, hx, he⟩ := toMac_of_command (s := y) hu hp ((ownAddress_congr hy.par_eq u.dst).trans ho)
    exact ⟨x, hy.trans hx, he⟩
  unfold State.switchFrame
  rw [ptpOf_of_udp hu]
  dsimp only
  rw [hm]
  split
  next h0 =>
    obtain ⟨q, hq, hsrc, hnew⟩ := hfirst (by simpa using h0)
    rw [hq]
    dsimp only
    obtain ⟨x, hx, he⟩ := hmac (s1.firstCopy (F.eth.src, q)) (h1.trans (passesOn_firstCopy _ _))
    refine ⟨x, hx, ?_⟩
    unfold State.hsrTagged
    dsimp only
    rw [if_neg (by simpa using hsrc), hd1, if_neg (by simp only [hnew]; decide), hdev, if_pos rfl, he]
    split
    · exact .inl rfl
    · exact .inr ⟨F, rfl⟩
  next =>
    split
    next =>
      unfold State.bridge
      extract_lets s2 s3
      have h2 : PassesOn s s2 := h1.trans (passesOn_onNt s1 (fun _ => rfl) fun _ => rfl)
      clear_value s2
      obtain ⟨x, hx, he⟩ := hmac s2 h2
      have h3 : s3 = x.macCommand u pkt := (if_pos hdev).trans he
      refine ⟨x, hx, ?_⟩
      rw [h3]
      split
      · exact .inl rfl
      · exact .inr ⟨F, rfl⟩
    next =>
      obtain ⟨x, hx, he⟩ := hmac s1 h1
      exact ⟨x, hx, .inl he⟩

end Sys2Proof.Machine
end

section
/-! THEOREMS. HUSH and RESUME on each way in (R294, R312 to R314; O45). -/

namespace Sys2Proof.Machine

variable {s x t : State} {frame pkt bs : List Byte} {src a : Nat}

/-- The chip was hushed from `s`, by a source. -/
def HushedFrom (s : State) (src : Nat) (t : State) : Prop :=
  t.lk.hushed = true ∧ t.lk.hushSrc = src ∧ t.lk.hushCount = satN 65535 (s.lk.hushCount + 1) ∧ t.lk.bulkOut = [] ∧
  t.nt.waiting = [] ∧ (∀ f ∈ t.nt.egress, f.prio = 7 ∨ f.kind = .forwarded) ∧ t.qu.entries = s.qu.entries ∧
  t.qu.flying = [] ∧ t.pm = { s.pm with waitEnd := [], skipped := t.pm.skipped } ∧
  t = { s with lk := t.lk, nt := t.nt, qu := t.qu, pm := t.pm, hw := { s.hw with flight := t.hw.flight } }

/-- The hushed state was ended from `s`, by a source. -/
def ResumedFrom (s : State) (src : Nat) (t : State) : Prop :=
  t.lk.hushed = false ∧ t.lk.hushSrc = src ∧ t.lk.hushCount = s.lk.hushCount ∧
  t = { s with lk := t.lk, hw := { s.hw with flight := t.hw.flight } }

/-- Of the link state, what HUSH and RESUME leave is as it was. -/
def KeepsHush (l m : Link) : Prop :=
  m.hushed = l.hushed ∧ m.hushSrc = l.hushSrc ∧ m.hushCount = l.hushCount ∧ m.bulkOut = l.bulkOut

/-- A frame that a hushed chip may still send. -/
def MayLeave (f : OwnFrame) : Prop := f.prio = 7 ∨ f.kind = .forwarded

theorem mayLeave_of_kept {l : List OwnFrame} : ∀ f ∈ l.filter kept, MayLeave f := by
  intro f hf
  simpa [kept, MayLeave] using (List.mem_filter.1 hf).2

/-- HUSH, with more link and network state changed before and after it. -/
theorem hushedFrom_of {z : State} (hz : z = s ∨ z = s.landed) (hx : Changes [.lk, .nt] z x)
    (hcount : x.lk.hushCount = s.lk.hushCount) (ht : Changes [.lk, .nt] (x.hush src) t) (hlk : KeepsHush (x.hush src).lk t.lk)
    (hw : t.nt.waiting = []) (he : ∀ f ∈ t.nt.egress, MayLeave f) : HushedFrom s src t := by
  obtain ⟨h1, h2, h3, h4⟩ := hlk
  obtain ⟨line, sent, irq, hl⟩ := hush_lk x src
  obtain ⟨hqe, hqf⟩ := hush_qu x src
  obtain ⟨n, hpm⟩ := hush_pm x src
  rw [hl] at h1 h2 h3 h4
  have hq0 : x.qu = s.qu := (hx.qu rfl).trans (by rcases hz with rfl | rfl <;> rfl)
  have hp0 : x.pm = s.pm := (hx.pm rfl).trans (by rcases hz with rfl | rfl <;> rfl)
  have hch : Changes [.lk, .nt, .qu, .pm] z t :=
    ((hx.mono rfl).trans (hush_ch (.refl [.lk, .nt, .qu, .pm] x) rfl)).trans (ht.mono rfl)
  refine ⟨h1, h2, h3.trans (congrArg (fun c => satN 65535 (c + 1)) hcount), h4, hw, he, ?_, ?_, ?_, ?_⟩
  · rw [ht.qu rfl, hqe, hq0]
  · rw [ht.qu rfl, hqf]
  · rw [ht.pm rfl, hpm, hp0]
  · rw [hch.hw rfl]
    rcases hz with rfl | rfl
    · exact hch.eq_pick
    · exact hch.eq_pick

theorem hush_waiting (s : State) (src : Nat) : (s.hush src).nt.waiting = [] := by rw [hush_nt]

theorem hush_egress (s : State) (src : Nat) : ∀ f ∈ (s.hush src).nt.egress, MayLeave f := by
  rw [hush_nt]
  exact mayLeave_of_kept

/-- HUSH, with more link state changed before and after it. -/
theorem hushedFrom_of_link (hx : Changes [.lk] s.landed x) (hcount : x.lk.hushCount = s.lk.hushCount)
    (ht : Changes [.lk] (x.hush src) t) (hlk : KeepsHush (x.hush src).lk t.lk) : HushedFrom s src t := by
  have hnt : t.nt = (x.hush src).nt := ht.nt rfl
  refine hushedFrom_of (.inr rfl) (hx.mono rfl) hcount (ht.mono rfl) hlk ?_ ?_ <;> rw [hnt]
  · exact hush_waiting x src
  · exact hush_egress x src

theorem resumedFrom_of (hx : Changes [.lk] s.landed x) (hcount : x.lk.hushCount = s.lk.hushCount)
    (ht : Changes [.lk] (x.resume src) t) (h1 : t.lk.hushed = (x.resume src).lk.hushed)
    (h2 : t.lk.hushSrc = (x.resume src).lk.hushSrc) (h3 : t.lk.hushCount = (x.resume src).lk.hushCount) :
    ResumedFrom s src t := by
  obtain ⟨irq, hl⟩ := resume_lk x src
  rw [hl] at h1 h2 h3
  have hch : Changes [.lk] s.landed t := (hx.trans (resume_ch (.refl [.lk] x) rfl)).trans ht
  have hfl : t.hw = s.landed.hw := hch.hw rfl
  refine ⟨h1, h2, h3.trans hcount, ?_⟩
  rw [hfl]
  exact hch.eq_pick

/-! ### Direct writes (R300, R312) -/

theorem directWord_of_hush : s.directWord 0x06 1 = (s.hush (if s.pw.hsel then 3 else 1)).directLog 0x06 .accepted := by
  unfold State.directWord
  rw [if_neg (by decide), if_neg (by decide), if_neg (by simp), if_neg (by simp), if_neg (by simp), if_pos (by decide)]

theorem directWord_of_resume : s.directWord 0x06 2 = (s.resume (if s.pw.hsel then 3 else 1)).directLog 0x06 .accepted := by
  unfold State.directWord
  rw [if_neg (by decide), if_neg (by decide), if_neg (by simp), if_neg (by simp), if_neg (by simp), if_neg (by simp),
    if_pos (by decide)]

theorem hush_of_directWrite (h : HearsWrite s frame bs 0x06) (hc : crc8 (bs.take 6) = beAt bs 6 1) (hv : beAt bs 2 4 = 1) :
    Gives (.hush (.host frame)) s fun t =>
      HushedFrom s (if s.pw.hsel then 3 else 1) t ∧ t.lk.ctrlOut = s.lk.ctrlOut ∧ t.lk.dlAccepted = true := by
  have ha : beAt bs 1 1 = 0x06 := by obtain ⟨-, -, -, -, ha, -⟩ := h; exact ha
  have he : exec (.hush (.host frame)) s =
      .next ((s.landed.hush (if s.pw.hsel then 3 else 1)).directLog 0x06 .accepted).wroteDirect :=
    congrArg Host.Outcome.next ((hostFrame_of_write h).trans (by rw [writeFrame_of_good hc, ha, hv, directWord_of_hush]; rfl))
  obtain ⟨line, sent, irq, hl⟩ := hush_lk s.landed (if s.pw.hsel then 3 else 1)
  refine ⟨_, he, hushedFrom_of_link (.refl _ s.landed) rfl ((directLog_ch (.refl _ _) rfl).trans (wroteDirect_ch _)) ?_, ?_, ?_⟩
  · rw [wroteDirect_lk, directLog_lk]
    exact ⟨rfl, rfl, rfl, rfl⟩
  · rw [wroteDirect_lk, directLog_lk, hl]
    rfl
  · rw [wroteDirect_lk, directLog_lk]
    rfl

theorem resume_of_directWrite (h : HearsWrite s frame bs 0x06) (hc : crc8 (bs.take 6) = beAt bs 6 1) (hv : beAt bs 2 4 = 2) :
    Gives (.resume (.host frame)) s fun t =>
      ResumedFrom s (if s.pw.hsel then 3 else 1) t ∧ t.lk.ctrlOut = s.lk.ctrlOut ∧ t.lk.bulkOut = s.lk.bulkOut ∧
        t.lk.dlAccepted = true := by
  have ha : beAt bs 1 1 = 0x06 := by obtain ⟨-, -, -, -, ha, -⟩ := h; exact ha
  have he : exec (.resume (.host frame)) s =
      .next ((s.landed.resume (if s.pw.hsel then 3 else 1)).directLog 0x06 .accepted).wroteDirect :=
    congrArg Host.Outcome.next ((hostFrame_of_write h).trans (by rw [writeFrame_of_good hc, ha, hv, directWord_of_resume]; rfl))
  obtain ⟨irq, hl⟩ := resume_lk s.landed (if s.pw.hsel then 3 else 1)
  refine ⟨_, he, resumedFrom_of (.refl _ s.landed) rfl ((directLog_ch (.refl _ _) rfl).trans (wroteDirect_ch _)) ?_ ?_ ?_, ?_, ?_, ?_⟩
  all_goals rw [wroteDirect_lk, directLog_lk]
  · rw [hl]; rfl
  · rw [hl]; rfl
  · rfl

/-! ### Packets (R309, R312) -/

/-- On the UART, with no reply begun, the reply is the next on the control stream. -/
theorem headReply_atHead {y : State} {out : List (List Byte)} (hcut : y.lk.ctrlCut = false) (hout : y.lk.ctrlOut = out) :
    ∃ r, (y.headReply bs).lk.ctrlOut = r :: out :=
  ⟨bs, by rw [State.headReply, onLk_lk, hcut, if_neg Bool.false_ne_true, hout]⟩

theorem hush_of_packet (h : Brings s frame pkt) (hop : fieldAt pkt 2 2 = 0x0110) :
    Gives (.hush (.host frame)) s fun t => HushedFrom s (hostSrc s) t ∧
      (s.pw.hsel = true → s.lk.ctrlCut = false → ∃ r, t.lk.ctrlOut = r :: s.lk.ctrlOut) := by
  obtain ⟨x, ⟨hch, sent, bulkOut, ctrlOut, ctrlCut, hxl⟩, huart, hf⟩ := hostFrame_of_brings h
  have hsrc : hostSrc x = hostSrc s := by rw [hostSrc, hostSrc, hsel_of_changes hch rfl]; rfl
  have hp : x.packetCheck false pkt =
      (x.hush (hostSrc s)).headReply (hushReply (x.hush (hostSrc s)) (byteAt pkt 1).toNat 0x0110) := by
    rw [packetCheck_of_brings h (congrArg Net.node (hch.nt rfl)), hop, hsrc]
    rfl
  obtain ⟨line, sent2, irq, hl⟩ := hush_lk x (hostSrc s)
  refine ⟨_, congrArg Host.Outcome.next (hf.trans hp),
    hushedFrom_of_link hch (by rw [hxl]) (headReply_ch (.refl _ _) rfl) ⟨rfl, rfl, rfl, rfl⟩, fun hs hcut => ?_⟩
  obtain rfl := huart hs
  exact headReply_atHead (by rw [hl]; exact hcut) (by rw [hl]; rfl)

theorem resume_of_packet (h : Brings s frame pkt) (hop : fieldAt pkt 2 2 = 0x0111) :
    Gives (.resume (.host frame)) s fun t => ResumedFrom s (hostSrc s) t ∧
      (s.pw.hsel = true → s.lk.ctrlCut = false → ∃ r, t.lk.ctrlOut = r :: s.lk.ctrlOut) := by
  obtain ⟨x, ⟨hch, sent, bulkOut, ctrlOut, ctrlCut, hxl⟩, huart, hf⟩ := hostFrame_of_brings h
  have hsrc : hostSrc x = hostSrc s := by rw [hostSrc, hostSrc, hsel_of_changes hch rfl]; rfl
  have hp : x.packetCheck false pkt =
      (x.resume (hostSrc s)).headReply (hushReply (x.resume (hostSrc s)) (byteAt pkt 1).toNat 0x0111) := by
    rw [packetCheck_of_brings h (congrArg Net.node (hch.nt rfl)), hop, hsrc]
    rfl
  obtain ⟨irq, hl⟩ := resume_lk x (hostSrc s)
  refine ⟨_, congrArg Host.Outcome.next (hf.trans hp),
    resumedFrom_of hch (by rw [hxl]) (headReply_ch (.refl _ _) rfl) rfl rfl rfl, fun hs hcut => ?_⟩
  obtain rfl := huart hs
  exact headReply_atHead (by rw [hl]; exact hcut) (by rw [hl]; rfl)

/-! ### The network (R294) -/

/-- What stands behind the MAC leaves all but network state alone, and of that puts at most a forwarded frame behind the others. -/
theorem GoesOn.eq (h : GoesOn x t) : Changes [.nt] x t ∧ t.nt.waiting = x.nt.waiting ∧ (∀ f ∈ x.nt.egress, f ∈ t.nt.egress) ∧
    ∀ f ∈ t.nt.egress, f ∈ x.nt.egress ∨ f.kind = .forwarded := by
  rcases h with rfl | ⟨f, rfl⟩
  · exact ⟨.refl _ _, rfl, fun _ h => h, fun _ h => .inl h⟩
  · refine ⟨forward_ch (.refl _ x) rfl, rfl, fun g hg => List.mem_append_left _ hg, fun g hg => ?_⟩
    rcases List.mem_append.1 hg with hg | hg
    · exact .inl hg
    · rw [List.mem_singleton.1 hg]
      exact .inr rfl

/-- The MAC recognises HUSH where HUSH_EN is set, and answers it but for a broadcast. -/
theorem macCommand_of_hush {u : Udp} (hn : fieldAt pkt 6 2 % 4096 = x.nt.node ∨ fieldAt pkt 6 2 % 4096 = 0xFFF)
    (hop : fieldAt pkt 2 2 = 0x0110) (hok : packetOk pkt = true) : x.macCommand u pkt =
      if bitAt (par x (pid 11 0 20)) 0 then
        if fieldAt pkt 6 2 % 4096 == 0xFFF then x.hush 4
        else (x.hush 4).enqueue
          (udpFrame (x.hush 4) 7 .reply (u.src, u.sport) 47310 (hushReply (x.hush 4) (beAt pkt 1 1) 0x0110))
      else x := by
  have h1 : ¬ (fieldAt pkt 6 2 % 4096 != x.nt.node && fieldAt pkt 6 2 % 4096 != 0xFFF) = true := by
    rcases hn with h | h <;> simp [h]
  unfold State.macCommand
  dsimp only
  rw [if_neg h1, hop, hok]
  rfl

theorem mem_enqueue {y : State} {g : OwnFrame} : ∃ q, (y.enqueue g).nt.egress = y.nt.egress ++ [{ g with hsrSeq := q }] := ⟨_, rfl⟩

/-- HUSH at the MAC, its frame forwarded or not. -/
theorem hushedFrom_of_mac {u : Udp} (hx : PassesOn s x)
    (hn : fieldAt pkt 6 2 % 4096 = s.nt.node ∨ fieldAt pkt 6 2 % 4096 = 0xFFF) (hop : fieldAt pkt 2 2 = 0x0110)
    (hok : packetOk pkt = true) (hen : bitAt (par s (pid 11 0 20)) 0 = true) (ht : GoesOn (x.macCommand u pkt) t) :
    HushedFrom s 4 t ∧ t.hw = s.hw ∧ t.lk.ctrlOut = s.lk.ctrlOut ∧
      (fieldAt pkt 6 2 % 4096 ≠ 0xFFF → ∃ g ∈ t.nt.egress, g.kind = .reply ∧ g.dst = (u.src, u.sport)) := by
  have hpar := hx.par_eq (pid 11 0 20)
  obtain ⟨hch, hnode, -⟩ := hx
  obtain ⟨htc, htw, htsub, hte⟩ := ht.eq
  rw [macCommand_of_hush (hnode ▸ hn) hop hok, hpar, hen, if_pos rfl] at htc htw htsub hte
  have hxl : x.lk = s.lk := hch.lk rfl
  obtain ⟨line, sent, irq, hl⟩ := hush_lk x 4
  have hmac : ∃ y, Changes [.nt] (x.hush 4) y ∧ Changes [.nt] y t ∧ y.nt.waiting = [] ∧ t.nt.waiting = y.nt.waiting ∧
      (∀ f ∈ y.nt.egress, MayLeave f) ∧ (∀ f ∈ t.nt.egress, f ∈ y.nt.egress ∨ f.kind = .forwarded) ∧
      (fieldAt pkt 6 2 % 4096 ≠ 0xFFF → ∃ g ∈ t.nt.egress, g.kind = .reply ∧ g.dst = (u.src, u.sport)) := by
    by_cases hb : fieldAt pkt 6 2 % 4096 = 0xFFF
    · rw [if_pos (by simpa using hb)] at htc htw htsub hte
      exact ⟨_, .refl _ _, htc, hush_waiting x 4, htw, hush_egress x 4, hte, fun h => absurd hb h⟩
    · rw [if_neg (by simpa using hb)] at htc htw htsub hte
      obtain ⟨q, hq⟩ := mem_enqueue (y := x.hush 4)
        (g := udpFrame (x.hush 4) 7 .reply (u.src, u.sport) 47310 (hushReply (x.hush 4) (beAt pkt 1 1) 0x0110))
      refine ⟨_, enqueue_ch (.refl _ _) rfl, htc, hush_waiting x 4, htw, fun f hf => ?_, hte,
        fun _ => ⟨_, htsub _ (hq ▸ List.mem_append_right _ List.mem_cons_self), rfl, rfl⟩⟩
      rw [hq] at hf
      rcases List.mem_append.1 hf with hf | hf
      · exact hush_egress x 4 f hf
      · rw [List.mem_singleton.1 hf]
        exact .inl rfl
  obtain ⟨y, hy, hyt, hyw, htyw, hye, htye, hreply⟩ := hmac
  have hlt : t.lk = (x.hush 4).lk := (hyt.lk rfl).trans (hy.lk rfl)
  refine ⟨hushedFrom_of (.inl rfl) (hch.mono rfl) (by rw [hxl]) ((hy.trans hyt).mono rfl) ?_ (htyw.trans hyw) fun f hf => ?_, ?_, ?_,
    hreply⟩
  · rw [hlt]
    exact ⟨rfl, rfl, rfl, rfl⟩
  · exact (htye f hf).elim (hye f) .inr
  · rw [hyt.hw rfl, hy.hw rfl, (hush_ch (.refl [.lk, .nt, .qu, .pm] x) rfl).hw rfl, hch.hw rfl]
  · rw [hlt, hl, hxl]

theorem hush_of_network {k : Fin 2} {f : FrameIn} {u : Udp} (hup : portUp s k = true) (hgood : frameGood f = true)
    (hu : udpOf (ethOf (s.nt.mode == 0) (frameBody f)) = some u) (hp : commandOf u = some pkt) (ho : ownAddress s u.dst = true)
    (hdev : forDevice (ethOf (s.nt.mode == 0) (frameBody f)) = true)
    (hfirst : s.nt.mode = 0 → ∃ q, (ethOf (s.nt.mode == 0) (frameBody f)).seq = some q ∧
      (ethOf (s.nt.mode == 0) (frameBody f)).src ≠ macAddr ∧
      s.nt.discard.any (fun x => x.1 == ((ethOf (s.nt.mode == 0) (frameBody f)).src, q)) = false)
    (hn : fieldAt pkt 6 2 % 4096 = s.nt.node ∨ fieldAt pkt 6 2 % 4096 = 0xFFF) (hop : fieldAt pkt 2 2 = 0x0110)
    (hok : packetOk pkt = true) :
    (bitAt (par s (pid 11 0 20)) 0 = true → Gives (.hush (.network k f)) s fun t =>
      HushedFrom s 4 t ∧ t.hw = s.hw ∧ t.lk.ctrlOut = s.lk.ctrlOut ∧
        (fieldAt pkt 6 2 % 4096 ≠ 0xFFF → ∃ g ∈ t.nt.egress, g.kind = .reply ∧ g.dst = (u.src, u.sport))) ∧
    (bitAt (par s (pid 11 0 20)) 0 = false → Gives (.hush (.network k f)) s fun t =>
      t = { s with nt := t.nt } ∧ t.nt.waiting = s.nt.waiting) := by
  obtain ⟨x, hx, ht⟩ := receive_command hup hgood hu hp ho hdev hfirst
  refine ⟨fun hen => ⟨_, rfl, hushedFrom_of_mac hx hn hop hok hen ht⟩, fun hen => ⟨_, rfl, ?_⟩⟩
  have hpar := hx.par_eq (pid 11 0 20)
  obtain ⟨hch, hnode, hw⟩ := hx
  obtain ⟨htc, htw, -⟩ := ht.eq
  rw [macCommand_of_hush (hnode ▸ hn) hop hok, hpar, hen, if_neg Bool.false_ne_true] at htc htw
  exact ⟨(hch.trans htc).eq_pick, htw.trans hw⟩

/-- Settles O45: on each way in HUSH and RESUME come down to one operation on the state, and what stands around it touches link and
network state that they do not speak of. -/
theorem hushAndResume : Obligations.HushAndResume := by
  intro s h0 hushes resumes atHead
  refine ⟨fun frame bs h hc => ⟨hush_of_directWrite h hc, resume_of_directWrite h hc⟩,
    fun frame pkt h => ⟨hush_of_packet h, resume_of_packet h⟩, ?_, ?_⟩
  · intro k f u pkt hup _ hgood e node hu hp ho hdev _ hfirst hn hop hok
    exact hush_of_network hup hgood hu hp ho hdev hfirst hn hop hok
  · intro h ho
    exact congrArg Host.Outcome.next (serve_opens ho rfl rfl)

end Sys2Proof.Machine
end

section
/-! THEOREMS. SPI packet frames, frames of the host UART, and requests that no opcode carries out (R301 to R309, R313, R321, R323, R335;
O47). -/

namespace Sys2Proof.Machine

variable {s x t : State} {frame pkt f : List Byte}

/-! ### SPI packet frames (R301 to R304, R308) -/

/-- What an SPI packet frame takes off the lane that the device chose, and what it drives. -/
def State.shiftsOut (s : State) (n : Nat) : State :=
  let c := frameChoice s
  let o := takeBytes (Nat.min c.2 (n - 2)) (if c.1 then s.lk.bulkOut else s.lk.ctrlOut)
  s.onLk fun l =>
    { l with sent := fitBytes n (be 2 (c.2 + flagAt c.1 14) ++ o.1),
             bulkOut := if c.1 then o.2.1 else l.bulkOut,
             ctrlOut := if c.1 then l.ctrlOut else o.2.1,
             ctrlCut := if c.1 || o.1.isEmpty then l.ctrlCut else o.2.2 }

theorem shiftsOut_ch (s : State) (n : Nat) : Changes [.lk] s (s.shiftsOut n) := by
  unfold State.shiftsOut
  exact onLk_ch (.refl _ s) rfl

/-- A packet frame is what it shifts out and, on that state, what the host's bytes do. -/
theorem spiPackets_eq (h2 : 2 ≤ f.length) : s.spiPackets f =
    if bitAt (beAt f 0 2) 14 && par s 0x0811 < beAt f 0 2 % 4096 then (s.shiftsOut f.length).frameError
    else (s.shiftsOut f.length).packets (bitAt (beAt f 0 2) 14) 410 (beAt f 0 2 % 4096) ((f.drop 2).take (beAt f 0 2 % 4096)) := by
  unfold State.spiPackets State.shiftsOut
  dsimp only
  rw [if_neg (Nat.not_lt.2 h2)]

/-- A packet frame from stage 1 on. -/
theorem spiPacketFrame_gives {p : State → Prop} (h0 : s.pw.stage ≠ 0) (hs : s.pw.hsel = false) (h2 : 2 ≤ f.length)
    (h7 : bitAt (beAt f 0 1) 7 = false) {y : State} (hy : s.landed.spiPackets f = y) (hp : p y) : Gives (.spiPacketFrame f) s p := by
  have hne : f ≠ [] := List.ne_nil_of_length_pos (by omega)
  have he : s.hostFrame f = y := by rw [hostFrame_of_spi h0 hs hne, h7, if_neg Bool.false_ne_true, hy]
  exact ⟨y, congrArg Host.Outcome.next he, hp⟩

theorem shiftsOut_sent (h2 : 2 ≤ f.length) : (s.shiftsOut f.length).lk.sent.length = f.length ∧
    (s.shiftsOut f.length).lk.sent.take 2 = be 2 ((frameChoice s).2 + flagAt (frameChoice s).1 14) := by
  have hb : ∀ v, (be 2 v).length = 2 := fun v => by rw [be, List.length_reverse, le_length]
  refine ⟨fitBytes_length _ _, ?_⟩
  show (fitBytes f.length (be 2 _ ++ _)).take 2 = _
  rw [fitBytes, List.take_append_of_le_length (by rw [List.length_take, List.length_append, hb]; omega), List.take_take,
    Nat.min_eq_left h2, List.take_append_of_le_length (hb _).ge, List.take_of_length_le (hb _).le]

/-- A frame that announces nothing. -/
theorem spiPacketFrame_of_none (h0 : s.pw.stage ≠ 0) (hs : s.pw.hsel = false) (h2 : 2 ≤ f.length)
    (h7 : bitAt (beAt f 0 1) 7 = false) (hn : beAt f 0 2 % 4096 = 0) : Gives (.spiPacketFrame f) s fun t =>
      t.lk.sent.length = f.length ∧ t.lk.sent.take 2 = be 2 ((frameChoice s).2 + flagAt (frameChoice s).1 14) ∧
      ((frameChoice s).1 = true → t.lk.ctrlOut = s.lk.ctrlOut ∧
        t.lk.bulkOut = (takeBytes (Nat.min (frameChoice s).2 (f.length - 2)) s.lk.bulkOut).2.1) ∧
      ((frameChoice s).1 = false → t.lk.bulkOut = s.lk.bulkOut ∧
        t.lk.ctrlOut = (takeBytes (Nat.min (frameChoice s).2 (f.length - 2)) s.lk.ctrlOut).2.1) ∧
      t.lk.frameErrors = s.lk.frameErrors ∧ t.lk.rxCtrl = s.lk.rxCtrl ∧ t.lk.rxBulk = s.lk.rxBulk ∧
      t = { s with lk := t.lk, hw := { s.hw with flight := [] } } := by
  have hp : s.landed.spiPackets f = s.landed.shiftsOut f.length := by
    rw [spiPackets_eq h2, hn, if_neg (by simp), State.packets]
    exact if_pos rfl
  obtain ⟨hlen, htake⟩ := shiftsOut_sent (s := s.landed) h2
  have hc : frameChoice s.landed = frameChoice s := rfl
  refine spiPacketFrame_gives h0 hs h2 h7 hp ⟨hlen, htake, fun hb => ?_, fun hb => ?_, rfl, rfl, rfl, eq_withLink (shiftsOut_ch _ _)⟩
  · rw [State.shiftsOut, hc, onLk_lk, hb]
    exact ⟨rfl, rfl⟩
  · rw [State.shiftsOut, hc, onLk_lk, hb]
    exact ⟨rfl, rfl⟩

/-- A frame of which the host's bytes are discarded. -/
theorem spiPacketFrame_of_error (h0 : s.pw.stage ≠ 0) (hs : s.pw.hsel = false) (h2 : 2 ≤ f.length)
    (h7 : bitAt (beAt f 0 1) 7 = false) (hp : s.landed.spiPackets f = (s.landed.shiftsOut f.length).frameError) :
    Gives (.spiPacketFrame f) s fun t =>
      t.lk.frameErrors = u32 (s.lk.frameErrors + 1) ∧ t.lk.rxCtrl = s.lk.rxCtrl ∧ t.lk.rxBulk = s.lk.rxBulk ∧
      t = { s with lk := t.lk, hw := { s.hw with flight := [] } } :=
  spiPacketFrame_gives h0 hs h2 h7 hp ⟨rfl, rfl, rfl, eq_withLink (frameError_ch (shiftsOut_ch _ _) rfl)⟩

theorem spiPacketFrame_of_short (h0 : s.pw.stage ≠ 0) (hs : s.pw.hsel = false) (h2 : 2 ≤ f.length)
    (h7 : bitAt (beAt f 0 1) 7 = false) (hn : beAt f 0 2 % 4096 ≠ 0)
    (hr : bitAt (beAt f 0 2) 14 = true → beAt f 0 2 % 4096 ≤ par s 0x0811)
    (hshort : ((f.drop 2).take (beAt f 0 2 % 4096)).length < 10) : Gives (.spiPacketFrame f) s fun t =>
      t.lk.frameErrors = u32 (s.lk.frameErrors + 1) ∧ t.lk.rxCtrl = s.lk.rxCtrl ∧ t.lk.rxBulk = s.lk.rxBulk ∧
      t = { s with lk := t.lk, hw := { s.hw with flight := [] } } := by
  refine spiPacketFrame_of_error h0 hs h2 h7 ?_
  have hp : ¬ (bitAt (beAt f 0 2) 14 && par s.landed 0x0811 < beAt f 0 2 % 4096) = true := by
    simp only [Bool.and_eq_true, decide_eq_true_eq, not_and, not_lt]
    exact hr
  rw [spiPackets_eq h2, if_neg hp, State.packets, if_neg (by simpa using hn), if_pos (by simp only [hshort, decide_true, Bool.true_or])]

theorem spiPacketFrame_of_long (h0 : s.pw.stage ≠ 0) (hs : s.pw.hsel = false) (h2 : 2 ≤ f.length)
    (h7 : bitAt (beAt f 0 1) 7 = false) (hb : bitAt (beAt f 0 2) 14 = true) (hlong : par s 0x0811 < beAt f 0 2 % 4096) :
    Gives (.spiPacketFrame f) s fun t =>
      t.lk.frameErrors = u32 (s.lk.frameErrors + 1) ∧ t.lk.rxCtrl = s.lk.rxCtrl ∧ t.lk.rxBulk = s.lk.rxBulk ∧
      t = { s with lk := t.lk, hw := { s.hw with flight := [] } } := by
  refine spiPacketFrame_of_error h0 hs h2 h7 ?_
  have hp : par s.landed 0x0811 = par s 0x0811 := rfl
  rw [spiPackets_eq h2, hb, hp, Bool.true_and, if_pos (decide_eq_true hlong)]

/-- A control packet that link hardware does not answer itself takes a free receive buffer. -/
theorem spiPacketFrame_of_request (h : Brings s frame pkt) (h2 : 2 ≤ s.pw.stage) (hh : fieldAt pkt 2 2 ≠ 0x0110)
    (hr : fieldAt pkt 2 2 ≠ 0x0111) (hroom : buffersUsed s.lk.rxCtrl < 4) : Gives (.spiPacketFrame frame) s fun t =>
      t.lk.rxCtrl = s.lk.rxCtrl ++ [.request pkt] ∧ t.lk.rxBulk = s.lk.rxBulk ∧ t.lk.frameErrors = s.lk.frameErrors ∧
      t.lk.rxDropped = s.lk.rxDropped ∧ t = { s with lk := t.lk, hw := { s.hw with flight := [] } } := by
  obtain ⟨x, ⟨hch, sent, bulkOut, ctrlOut, ctrlCut, hxl⟩, -, hf⟩ := hostFrame_of_brings h
  have hst : x.pw.stage = s.pw.stage := by rw [hch.pw rfl]; rfl
  have hp : x.packetCheck false pkt = x.onLk fun l => { l with rxCtrl := l.rxCtrl ++ [.request pkt] } := by
    rw [packetCheck_of_brings h (congrArg Net.node (hch.nt rfl)), if_neg (by simp [hh, hr]), hst, if_neg (by simp; omega),
      State.rxBuffer, if_neg Bool.false_ne_true, if_neg Bool.false_ne_true, hxl, if_neg (Nat.not_le.2 hroom)]
    rfl
  refine ⟨_, congrArg Host.Outcome.next (hf.trans hp), ?_, ?_, ?_, ?_, eq_withLink (onLk_ch hch rfl)⟩
  all_goals rw [onLk_lk, hxl]

/-! ### Frames of the UART (R307, R313) -/

/-- What the UART sends next. -/
theorem execUartFrameTransmit_eq (h0 : s.pw.stage ≠ 0) (hs : s.pw.hsel = true) : exec .uartFrameTransmit s =
    .next (s.landed.onLk fun l =>
      ({ l with sent := match l.line with
                  | some (_, bs, _) => bs
                  | none => l.sent, line := none }).nextLine s.clk) := by
  refine if_neg ?_
  rw [hs]
  simpa using h0

/-- The UART sends a direct reply before a control reply before a bulk reply, and no bulk reply while hushed. -/
theorem uartFrameTransmit_sends (h0 : s.pw.stage ≠ 0) (hs : s.pw.hsel = true) :
    let out := match s.lk.line with
      | some (_, bs, _) => bs
      | none => s.lk.sent
    let done := fun l : Link => ({ s with lk := l, hw := { s.hw with flight := [] } } : State)
    (∀ p r, s.lk.directOut = p :: r → exec .uartFrameTransmit s =
      .next (done { s.lk with directOut := r, sent := out, line := some (false, cobs p ++ [0], s.clk) })) ∧
    (∀ p r, s.lk.directOut = [] → s.lk.ctrlOut = p :: r → exec .uartFrameTransmit s =
      .next (done { s.lk with ctrlOut := r, sent := out, line := some (false, cobs p ++ [0], s.clk) })) ∧
    (∀ p r, s.lk.directOut = [] → s.lk.ctrlOut = [] → s.lk.bulkOut = p :: r → exec .uartFrameTransmit s =
      .next (done (if s.lk.hushed then { s.lk with sent := out, line := none }
        else { s.lk with bulkOut := r, sent := out, line := some (true, cobs p ++ [0], s.clk) }))) ∧
    (s.lk.directOut = [] → s.lk.ctrlOut = [] → s.lk.bulkOut = [] → exec .uartFrameTransmit s =
      .next (done { s.lk with sent := out, line := none })) := by
  intro out done
  rw [execUartFrameTransmit_eq h0 hs]
  have hdone : ∀ {l : Link}, ({ s.lk with sent := out, line := none } : Link).nextLine s.clk = l →
      Host.Outcome.next (s.landed.onLk fun l =>
        ({ l with sent := match l.line with
                    | some (_, bs, _) => bs
                    | none => l.sent, line := none }).nextLine s.clk) = (.next (done l) : Host.Outcome State Fault Refusal) :=
    fun hl => congrArg (fun l => Host.Outcome.next (done l)) hl
  refine ⟨fun p r h1 => hdone ?_, fun p r h1 h2 => hdone ?_, fun p r h1 h2 h3 => hdone ?_, fun h1 h2 h3 => hdone ?_⟩
  · simp only [Link.nextLine, h1]
  · simp only [Link.nextLine, h1, h2]
  · simp only [Link.nextLine, h1, h2, h3]
  · simp only [Link.nextLine, h1, h2, h3]

/-! ### Requests that no opcode carries out (R321, R323, R335) -/

theorem execUnknownOpcode_answers {h : Hdr} {op : Nat} (h2 : 2 ≤ s.pw.stage) (hc : s.pr.committing = none)
    (hsf : streamFull s h = false) (hca : consoleAbsent s h = false) (hau : authentic s h = true)
    (hop : acceptedOpcode h.bulk op = false) :
    exec (.unknownOpcode h op) s = .next ((s.accepted h).answer h op .unknownOpcode []) := by
  have hb : (some (!h.bulk)).any (· != h.bulk) = true := by cases h.bulk <;> rfl
  have he : exec (.unknownOpcode h op) s = execUnknownOpcode h op s := rfl
  rw [he, execUnknownOpcode, hop, if_neg Bool.false_ne_true, serve_of_idle hc]
  unfold serveNow
  rw [hca, hsf, hau, if_neg (by simp; omega), if_neg (by simp; omega), if_neg (by decide)]
  dsimp only
  rw [hb, Bool.true_or, if_pos rfl]
  rfl

theorem deliver_counts (s : State) (h : Hdr) (bs : List Byte) :
    (s.deliver h bs).lk.cmdRefused = s.lk.cmdRefused ∧ (s.deliver h bs).lk.lastRefused = s.lk.lastRefused := by
  have hr : ∀ (l : Link) b, (l.replied b bs).cmdRefused = l.cmdRefused ∧ (l.replied b bs).lastRefused = l.lastRefused := by
    rintro l (_ | _) <;> exact ⟨rfl, rfl⟩
  unfold State.deliver
  split
  · exact hr _ _
  · split <;> exact ⟨rfl, rfl⟩
  · split <;> exact ⟨rfl, rfl⟩

/-- A refusal counts once (Table 14-14). -/
theorem answer_counts {h : Hdr} {op : Nat} {st : Status} {bs : List Byte} (hst : st.refused = true) :
    (s.answer h op st bs).lk.cmdRefused = s.lk.cmdRefused + 1 ∧ (s.answer h op st bs).lk.lastRefused = op * 65536 + st.code := by
  unfold State.answer
  rw [hst, if_pos rfl]
  dsimp only
  split
  · exact deliver_counts _ _ _
  · unfold State.replyRaw
    split
    · exact deliver_counts _ _ _
    · exact deliver_counts _ _ _

theorem trialFail_lk (s : State) (kind : Nat) : (s.trialFail kind).lk = s.lk :=
  (trialFail_ch (.refl [.hw, .wd, .up, .pq, .free] s) rfl).lk rfl

/-- No trial of the kind is open, or it fails already. -/
theorem trialFail_of_none (h : s.up.st ≠ 5 ∨ s.up.revert.isSome = true) (kind : Nat) : s.trialFail kind = s := by
  refine if_neg ?_
  rw [← Option.not_isSome]
  rcases h with h | h <;> simp [h]

/-- A trial that fails waits for its safe point. -/
theorem trialFail_of_open (h5 : s.up.st = 5) (hk : hdrKind s.up.header = 0) (hr : s.up.revert = none) :
    (s.trialFail 0).up.revert.isSome = true := by
  have hc : (s.up.st == 5 && hdrKind s.up.header == 0 && s.up.revert.isNone) = true := by rw [h5, hk, hr]; rfl
  unfold State.trialFail
  rw [if_pos hc]
  extract_lets s1
  rw [if_pos (by decide)]
  rw [(checkpoint_ch (.refl [.hw, .wd, .pq, .free] _) rfl).up rfl]
  rfl

theorem ownerAnswerTimeout_gives (h : Hdr) (op owner : Nat) (h2 : 2 ≤ s.pw.stage) : Gives (.ownerAnswerTimeout h op owner) s fun t =>
    t.lk.cmdRefused = s.lk.cmdRefused + 1 ∧ t.lk.lastRefused = op * 65536 + Status.internalFault.code ∧
    ((s.up.st ≠ 5 ∨ s.up.revert.isSome = true ∨ s.pw.stage = 2) →
      (s.wd.buffer.length < 256 → ∃ e, e.code = 0x0107 ∧ t.wd.buffer = s.wd.buffer ++ [e]) ∧
      t = { s with lk := t.lk, tp := t.tp, nt := t.nt, hm := t.hm, wd := t.wd }) ∧
    (s.up.st = 5 → hdrKind s.up.header = 0 → s.up.revert = none → 3 ≤ s.pw.stage → t.up.revert.isSome = true) ∧
    t = { s with hw := t.hw, lk := t.lk, tp := t.tp, wd := t.wd, up := t.up, nt := t.nt, hm := t.hm, pq := t.pq,
                 free := t.free } := by
  have he : exec (.ownerAnswerTimeout h op owner) s = execOwnerAnswerTimeout h op owner s := rfl
  rw [execOwnerAnswerTimeout, if_neg (by omega)] at he
  have hac := answer_ch (h := h) (opcode := op) (st := .internalFault) (bytes := zeros ((fixedParts.lookup op).getD 0))
    (sec := h.sec.isSome) (.refl [.lk, .tp, .nt, .hm] s) rfl
  obtain ⟨hn, hl⟩ := answer_counts (s := s) (h := h) (op := op) (st := .internalFault)
    (bs := zeros ((fixedParts.lookup op).getD 0)) rfl
  generalize s.answer h op .internalFault (zeros ((fixedParts.lookup op).getD 0)) = x at he hac hn hl
  have hlc := log_ch (code := 0x0107) (data := le 2 op ++ le 1 h.tag ++ le 1 owner) (conts := []) (.refl [.wd] x) rfl
  have hb : s.wd.buffer.length < 256 → ∃ e : LogEntry, e.code = 0x0107 ∧
      (x.log 0x0107 (le 2 op ++ le 1 h.tag ++ le 1 owner)).wd.buffer = s.wd.buffer ++ [e] := fun hroom => by
    rw [← (hac.wd rfl : x.wd = s.wd)] at hroom ⊢
    exact ⟨_, rfl, by rw [log_of_room hroom]⟩
  generalize x.log 0x0107 (le 2 op ++ le 1 h.tag ++ le 1 owner) = y at he hlc hb
  have hyl : y.lk = x.lk := hlc.lk rfl
  have hyu : y.up = s.up := (hlc.up rfl).trans (hac.up rfl)
  have hys : Changes [.lk, .tp, .nt, .hm, .wd] s y := (hac.mono rfl).trans (hlc.mono rfl)
  have hwide : Changes [.hw, .lk, .tp, .wd, .up, .nt, .hm, .pq, .free] s y := hys.mono rfl
  refine ⟨_, he, ?_⟩
  by_cases h3 : 3 ≤ s.pw.stage
  · rw [if_pos h3]
    refine ⟨by rw [trialFail_lk, hyl, hn], by rw [trialFail_lk, hyl, hl], fun hq => ?_, fun h5 hk hr _ => ?_,
      (trialFail_ch hwide rfl).eq_pick⟩
    · have hq2 : y.up.st ≠ 5 ∨ y.up.revert.isSome = true := by
        rw [hyu]
        rcases hq with h | h | h
        · exact .inl h
        · exact .inr h
        · omega
      rw [trialFail_of_none hq2]
      exact ⟨hb, hys.eq_pick⟩
    · exact trialFail_of_open (by rw [hyu, h5]) (by rw [hyu, hk]) (by rw [hyu, hr])
  · rw [if_neg h3]
    exact ⟨by rw [hyl, hn], by rw [hyl, hl], fun _ => ⟨hb, hys.eq_pick⟩, fun _ _ _ h => absurd h h3, hwide.eq_pick⟩

/-- Settles O47: what leaves with an SPI frame is fixed before the host's bytes are judged, and these are one packet's checks. -/
theorem packetFramesMoveBothStreams : Obligations.PacketFramesMoveBothStreams := by
  intro s h0 only
  refine ⟨fun f hs h2 h7 => ?_, fun _ _ => spiPacketFrame_of_request, uartFrameTransmit_sends h0,
    fun _ _ => execUnknownOpcode_answers, fun h op hop => ?_, ownerAnswerTimeout_gives⟩
  · exact ⟨spiPacketFrame_of_none h0 hs h2 h7, spiPacketFrame_of_short h0 hs h2 h7, spiPacketFrame_of_long h0 hs h2 h7⟩
  · exact if_pos hop

end Sys2Proof.Machine
end

section
/-! LEMMAS. What alarms touch: of the calendar's state the alarm itself and the wake output's instant (R378 to R387). -/

namespace Sys2Proof.Machine

variable {s t u : State} {k : Nat}

/-- What an alarm shows of its matches: FIRED, the latest match, their number, and its marker. -/
def Alarm.firing (a : Alarm) : Bool × Nat × Nat × Option Nat := (a.fired, a.last, a.count, a.marker)

/-- From `s` to `t` the calendar's state changed in one alarm and in the wake output's instant alone. -/
def AlarmOnly (k : Nat) (s t : State) : Prop :=
  t.rtc = { s.rtc with alarms := t.rtc.alarms, wakeClk := t.rtc.wakeClk } ∧ t.rtc.alarms.length = s.rtc.alarms.length ∧
    ∀ j, j ≠ k → t.alarm j = s.alarm j

theorem alarm_congr (h : t.rtc = s.rtc) (j : Nat) : t.alarm j = s.alarm j := by rw [State.alarm, h, State.alarm]

theorem AlarmOnly.of_rtc (h : t.rtc = s.rtc) : AlarmOnly k s t := ⟨by rw [h], by rw [h], fun j _ => alarm_congr h j⟩

theorem AlarmOnly.trans (h : AlarmOnly k s t) (g : AlarmOnly k t u) : AlarmOnly k s u := by
  obtain ⟨h1, h2, h3⟩ := h
  obtain ⟨g1, g2, g3⟩ := g
  exact ⟨by rw [g1, h1], g2.trans h2, fun j hj => (g3 j hj).trans (h3 j hj)⟩

theorem onAlarm_self {f : Alarm → Alarm} (h : k < s.rtc.alarms.length) : (s.onAlarm k f).alarm k = f (s.alarm k) :=
  modAt_getD_self _ _ _ _ h

theorem onAlarm_ne {f : Alarm → Alarm} {j : Nat} (h : j ≠ k) : (s.onAlarm k f).alarm j = s.alarm j := modAt_getD_ne _ _ _ _ _ h

theorem onAlarm_length {f : Alarm → Alarm} : (s.onAlarm k f).rtc.alarms.length = s.rtc.alarms.length := List.length_modify ..

theorem onAlarm_only {f : Alarm → Alarm} : AlarmOnly k s (s.onAlarm k f) := ⟨rfl, onAlarm_length, fun _ => onAlarm_ne⟩

/-- What does not concern the matches of an alarm leaves them. -/
theorem onAlarm_firing {f : Alarm → Alarm} (hf : ∀ a, (f a).firing = a.firing) (j : Nat) :
    ((s.onAlarm k f).alarm j).firing = (s.alarm j).firing := by
  by_cases hj : j = k
  · subst hj
    by_cases h : j < s.rtc.alarms.length
    · rw [onAlarm_self h, hf]
    · have hl : ¬ j < (s.onAlarm j f).rtc.alarms.length := by rwa [onAlarm_length]
      rw [State.alarm, State.alarm, List.getD_eq_default _ _ (Nat.not_lt.1 hl), List.getD_eq_default _ _ (Nat.not_lt.1 h)]
  · rw [onAlarm_ne hj]

theorem logAt_rtc (s : State) (time code : Nat) (v d : Bool) (data : List Byte) :
    (s.logAt time code v d data []).rtc = s.rtc := (logAt_ch (.refl [.wd] s) rfl).rtc rfl

theorem resolvePend_only (s : State) (k : Nat) :
    AlarmOnly k s (s.resolvePend k) ∧ ((s.resolvePend k).alarm k).firing = (s.alarm k).firing := by
  have hirq (b : Bool) : (if b then s.irq 12 else s).rtc = s.rtc := by cases b <;> rfl
  unfold State.resolvePend
  dsimp only
  split
  next => exact ⟨.of_rtc rfl, rfl⟩
  next m later _ =>
    split
    next =>
      have h2 : (if bitAt (s.alarm k).pendMask 4 then (if bitAt (s.alarm k).pendMask 1 then s.irq 12 else s).logAt (calTime s m)
          0x0802 false true (firedData k (s.alarm k) m (later + 1)) [] else if bitAt (s.alarm k).pendMask 1 then s.irq 12 else s).rtc
          = s.rtc := by
        split
        · rw [logAt_rtc, hirq]
        · exact hirq _
      refine ⟨.trans (.of_rtc h2) onAlarm_only, (onAlarm_firing ?_ k).trans (congrArg _ (alarm_congr h2 k))⟩
      exact fun _ => rfl
    next =>
      refine ⟨.trans onAlarm_only (.of_rtc (logAt_rtc ..)),
        (congrArg _ (alarm_congr (logAt_rtc ..) k)).trans (onAlarm_firing ?_ k)⟩
      exact fun _ => rfl

/-- An alarm that acts for a match has fired for it (R379). -/
theorem alarmAct_only (s : State) (k m count sec : Nat) (skipped : Bool) : AlarmOnly k s (s.alarmAct k m count sec skipped) ∧
    (k < s.rtc.alarms.length → ((s.alarmAct k m count sec skipped).alarm k).firing =
      (true, m, u32 ((s.alarm k).count + 1), some sec)) := by
  unfold State.alarmAct
  extract_lets a d s1 s1' s2 s3 s4
  have h1 : AlarmOnly k s s1 := onAlarm_only
  have g1 : k < s.rtc.alarms.length → (s1.alarm k).firing = (true, m, u32 ((s.alarm k).count + 1), some sec) := fun h => by
    unfold s1
    rw [onAlarm_self h]
    rfl
  clear_value s1
  have h1' : AlarmOnly k s1 s1' ∧ s1'.alarm k = s1.alarm k := by
    unfold s1'
    split
    · exact ⟨⟨rfl, rfl, fun _ _ => rfl⟩, rfl⟩
    · exact ⟨.of_rtc rfl, rfl⟩
  clear_value s1'
  have h2 : s2.rtc = s1'.rtc := by unfold s2; split <;> rfl
  have h3 : s3.rtc = s1'.rtc := by
    unfold s3
    split
    · rw [log_rtc, h2]
    · exact h2
  clear_value s3
  have h4 : s4.rtc = s1'.rtc := by
    unfold s4
    split
    · exact ((seqTriggerAll_ch (.refl [.wd, .chans, .stands, .seqs, .units] s3) rfl).rtc rfl).trans h3
    · exact h3
  clear_value s4
  obtain ⟨h1a, h1b⟩ := h1'
  have hs4 : AlarmOnly k s s4 := (h1.trans h1a).trans (.of_rtc h4)
  have hf : (s4.alarm k).firing = (s1.alarm k).firing := by rw [alarm_congr h4, h1b]
  split
  · obtain ⟨hr, hrf⟩ := resolvePend_only s4 k
    exact ⟨hs4.trans hr, fun h => by rw [hrf, hf, g1 h]⟩
  · exact ⟨hs4, fun h => by rw [hf, g1 h]⟩

theorem adjustAlarm_only (s : State) (k o n : Nat) : AlarmOnly k s (s.adjustAlarm k o n) := by
  unfold State.adjustAlarm
  extract_lets s0 a newCal newCal0 hit
  have h0 : AlarmOnly k s s0 := by
    unfold s0
    split
    · exact onAlarm_only
    · exact .of_rtc rfl
  clear_value s0
  have hact {x : State} (hx : AlarmOnly k s x) (m c sec : Nat) (sk : Bool) : AlarmOnly k s (x.alarmAct k m c sec sk) :=
    hx.trans (alarmAct_only ..).1
  split
  · split
    · exact hact h0 ..
    · exact h0
  · extract_lets m s1 s1'
    have h1 : AlarmOnly k s s1 := h0.trans (onAlarm_only.trans (.of_rtc (logAt_rtc ..)))
    have h1' : AlarmOnly k s s1' := hact h0 ..
    clear_value s1 s1'
    split
    · split
      · exact hact h1 ..
      · exact h1
    · split
      · exact h1'.trans onAlarm_only
      · exact h1'

/-- Of the calendar's state, alarms and the wake output's instant alone changed. -/
def AlarmsOnly (r q : Rtc) : Prop := q = { r with alarms := q.alarms, wakeClk := q.wakeClk }

theorem alarmsOnly_foldl {f : State → Nat → State} (hf : ∀ x k, AlarmsOnly x.rtc (f x k).rtc) (l : List Nat) (s : State) :
    AlarmsOnly s.rtc (l.foldl f s).rtc :=
  List.foldlRecOn (motive := fun x : State => AlarmsOnly s.rtc x.rtc) l f rfl fun x hx k _ => by
    have h := hf x k
    unfold AlarmsOnly at hx h ⊢
    rw [h, hx]

/-- An adjustment sets the calendar; a set drops besides what is staged. -/
theorem adjustCal_rtc (s : State) (c : Cal) (set : Bool) : AlarmsOnly
    (let x := { s.rtc with cal := { c with sub := 0 }, begins := true }
     if set then { x.unstage with stepDue := false, learn := none, setSince := true } else x) (s.adjustCal c set).rtc := by
  unfold State.adjustCal
  exact alarmsOnly_foldl (fun x k => (adjustAlarm_only x k _ _).1) _ _

theorem clearOsf_rtc (s : State) : s.clearOsf.rtc = { s.rtc with osf := false, osfBrownOut := false } :=
  (tamperClear_ch (.refl [.tp, .wd] _) rfl).rtc rfl

end Sys2Proof.Machine
end

section
/-! THEOREMS. Calendar requests and direct writes of the calendar (R369 to R374, R388; O15). -/

namespace Sys2Proof.Machine

variable {s : State} {frame bs : List Byte} {a : Nat}

theorem execRtcGet_answers {h : Hdr} (ho : Opens opRtcGet h s) (hl : h.len = 0) : exec (.rtcGet h) s =
    .next (((s.accepted h).drew 1).replied opRtcGet h .ok
      (le 1 (calWeekday (s.accepted h).rtc.cal) ++ zeros 1 ++ le 8 (cal64 (s.accepted h).rtc.cal) ++
        le 10 (time80 (tickCounter (s.accepted h))) ++ zeros 2 ++ le 4 (rtcStatus (s.accepted h)))) :=
  congrArg Host.Outcome.next (serve_opens ho (beq_iff_eq.2 hl) rfl)

/-- The state that RTC_SET leaves, but for the free value that its answer may hold. -/
def rtcSetState (s : State) (c : Cal) (clear : Bool) : State :=
  if clear then (s.adjustCal c true).clearOsf else s.adjustCal c true

theorem rtcSetState_eq (s : State) (c : Cal) (clear : Bool) :
    (rtcSetState s c clear).rtc.cal = { c with sub := 0 } ∧ (rtcSetState s c clear).rtc.begins = true ∧
    (rtcSetState s c clear).rtc.setSince = true ∧ (rtcSetState s c clear).rtc.osf = (if clear then false else s.rtc.osf) ∧
    Changes [.rtc, .tp, .lk, .wd, .chans, .stands, .seqs, .units] s (rtcSetState s c clear) := by
  have hr := adjustCal_rtc s c true
  have hch : Changes [.rtc, .tp, .lk, .wd, .chans, .stands, .seqs, .units] s (s.adjustCal c true) :=
    adjustCal_ch (.refl _ s) rfl
  unfold rtcSetState
  generalize s.adjustCal c true = x at hr hch
  unfold AlarmsOnly at hr
  cases clear with
  | true =>
    rw [if_pos rfl, if_pos rfl, clearOsf_rtc, hr]
    exact ⟨rfl, rfl, rfl, rfl, clearOsf_ch hch rfl⟩
  | false =>
    rw [if_neg Bool.false_ne_true, if_neg Bool.false_ne_true, hr]
    exact ⟨rfl, rfl, rfl, rfl, hch⟩

theorem execRtcSet_answers {h : Hdr} {flags year month day hour min sec : Nat} (ho : Opens opRtcSet h s) (hl : h.len = 12)
    (hk : locked (s.accepted h) = false) (hf : flags ≤ 1) (hs : flags = 1 → (s.accepted h).rtc.setSince = true)
    (hy : 2000 ≤ year) (hv : calValid ⟨0, sec, min, hour, day, month, year - 2000⟩ = true) :
    Answers (.rtcSet h flags year month day hour min sec) s opRtcSet h .ok fun v bs =>
      v.rtc.cal = ⟨0, sec, min, hour, day, month, year - 2000⟩ ∧ v.rtc.begins = true ∧ v.rtc.setSince = true ∧
      v.rtc.osf = (if flags = 1 then false else (s.accepted h).rtc.osf) ∧
      bs = zeros 2 ++ le 10 (time80 (tickCounter { v with free := s.free })) ++ zeros 2 ∧
      v = { s.accepted h with rtc := v.rtc, tp := v.tp, lk := v.lk, wd := v.wd, chans := v.chans, stands := v.stands,
                              seqs := v.seqs, units := v.units, free := v.free } := by
  have hc : firstFail [(locked (s.accepted h), Status.locked),
      (1 < flags || (bitAt flags 0 && !(s.accepted h).rtc.setSince), .valueRange),
      (year < 2000 || !calValid ⟨0, sec, min, hour, day, month, year - 2000⟩, .valueRange)] = none := by
    have hy2 : ¬ year < 2000 := Nat.not_lt.2 hy
    obtain h | rfl : flags = 0 ∨ flags = 1 := by omega
    · simp [firstFail, hk, h, hv, hy2, bitAt]
    · simp only [firstFail, hk, hs rfl, hv, hy2]
      decide
  have hb : bitAt flags 0 = decide (flags = 1) := by
    obtain rfl | rfl : flags = 0 ∨ flags = 1 := by omega
    · rfl
    · rfl
  obtain ⟨h1, h2, h3, h4, hch⟩ := rtcSetState_eq (s.accepted h) ⟨0, sec, min, hour, day, month, year - 2000⟩ (bitAt flags 0)
  have he : exec (.rtcSet h flags year month day hour min sec) s = .next
      (((rtcSetState (s.accepted h) ⟨0, sec, min, hour, day, month, year - 2000⟩ (bitAt flags 0)).drew 1).replied opRtcSet h .ok
        (zeros 2 ++ le 10 (time80 (tickCounter
          (rtcSetState (s.accepted h) ⟨0, sec, min, hour, day, month, year - 2000⟩ (bitAt flags 0)))) ++ zeros 2)) :=
    congrArg Host.Outcome.next (serve_opens ho (beq_iff_eq.2 hl) hc)
  generalize rtcSetState (s.accepted h) ⟨0, sec, min, hour, day, month, year - 2000⟩ (bitAt flags 0) = x at he h1 h2 h3 h4 hch
  have hfree : ({ x.drew 1 with free := s.free } : State) = x := by
    have hx : x.free = s.free := (hch.free rfl).trans (accepted_free s h)
    rw [← hx]
    rfl
  refine ⟨_, _, he, h1, h2, h3, h4.trans ?_, ?_, (drew_ch (hch.mono rfl (q := [.rtc, .tp, .lk, .wd, .chans, .stands, .seqs, .units, .free])) rfl).eq_pick⟩
  · rw [hb]
    by_cases hf1 : flags = 1 <;> simp [hf1]
  · rw [hfree]

theorem execOsfClear_answers {h : Hdr} (ho : Opens opWriteOnly h s) (hl : h.len = 5) (hs : (s.accepted h).rtc.setSince = true) :
    Answers (.osfClear h 1) s opWriteOnly h .ok fun v bs =>
      v.rtc = { (s.accepted h).rtc with osf := false, osfBrownOut := false } ∧ bs = le 2 0x4005 ∧
      v = { s.accepted h with rtc := v.rtc, tp := v.tp, wd := v.wd } := by
  have hact : osfClearAct (s.accepted h) = ((s.accepted h).clearOsf, .ok) := if_pos hs
  have he : exec (.osfClear h 1) s = .next ((osfClearAct (s.accepted h)).1.replied opWriteOnly h .ok (le 2 0x4005)) :=
    congrArg Host.Outcome.next (serve_opens ho (beq_iff_eq.2 hl) (by rw [hact]; rfl))
  rw [hact] at he
  exact ⟨_, _, he, clearOsf_rtc _, rfl, (clearOsf_ch (.refl [.rtc, .tp, .wd] _) rfl).eq_pick⟩

theorem execAlAck_answers {h : Hdr} (k : Fin 4) (ho : Opens opWriteOnly h s) (hl : h.len = 5) : exec (.alAck h k 1) s =
    .next (((s.accepted h).onAlarm k fun a =>
      { a with fired := false, skipped := false, missed := false, wake := false }).replied opWriteOnly h .ok (le 2 (pid 27 k 4))) :=
  congrArg Host.Outcome.next (serve_opens ho (beq_iff_eq.2 hl) rfl)

/-! ### Direct writes (R371, R372, R374) -/

theorem directWord_of_stage (f : Fin 5) (v : Nat) : s.directWord (0x1A + f) v = s.stageWrite f v := by
  have hf := f.isLt
  unfold State.directWord
  rw [if_neg (by simp; omega), if_pos (by simp; omega), Nat.add_sub_cancel_left]

theorem stageWrite_of_locked {f v : Nat} (h : locked s = true) : s.stageWrite f v = s.directLog (0x1A + f) .locked := if_pos h

theorem stageWrite_of_inRange {f v : Nat} (h : locked s = false) (hr : stageRange f v = true) : s.stageWrite f v =
    (s.onRtc fun r => { r.stage f v with stClk := s.clk }).directLog (0x1A + f) .accepted := by
  rw [State.stageWrite, h, if_neg Bool.false_ne_true, if_pos hr, stageAddr]

theorem stageWrite_of_outOfRange {f v : Nat} (h : locked s = false) (hr : stageRange f v = false) :
    s.stageWrite f v = s.directLog (0x1A + f) .refused := by
  rw [State.stageWrite, h, if_neg Bool.false_ne_true, hr, if_neg Bool.false_ne_true, stageAddr]

/-- What a direct write to a calendar field does, by what its word does. -/
theorem calendarWrite_eq {x : State} (h : HearsWrite s frame bs a) (hx : s.landed.writeFrame bs = x) :
    exec (.calendarStageWrite frame) s = .next x.wroteDirect ∧ exec (.calendarSecCommit frame) s = .next x.wroteDirect := by
  have hf : s.hostFrame frame = x.wroteDirect := by rw [hostFrame_of_write h, hx]
  exact ⟨congrArg Host.Outcome.next hf, congrArg Host.Outcome.next hf⟩

theorem writeFrame_of_hears {x : State} (h : HearsWrite s frame bs a) (hc : crc8 (bs.take 6) = beAt bs 6 1)
    (hx : s.landed.directWord a (beAt bs 2 4) = x) : s.landed.writeFrame bs = x := by
  obtain ⟨-, -, -, -, ha, -⟩ := h
  rw [writeFrame_of_good hc, ha, hx]

theorem writeFrame_of_hears_bad (h : HearsWrite s frame bs a) (hc : crc8 (bs.take 6) ≠ beAt bs 6 1) :
    s.landed.writeFrame bs = s.landed.directLog a .badCrc := by
  obtain ⟨-, -, -, -, ha, -⟩ := h
  rw [writeFrame_of_bad hc, ha]

theorem calendarStageWrite_cases (f : Fin 5) (h : HearsWrite s frame bs (0x1A + f)) :
    (crc8 (bs.take 6) ≠ beAt bs 6 1 →
      exec (.calendarStageWrite frame) s = .next ((s.landed.directLog (0x1A + f) .badCrc).wroteDirect)) ∧
    (crc8 (bs.take 6) = beAt bs 6 1 → locked s = true →
      exec (.calendarStageWrite frame) s = .next ((s.landed.directLog (0x1A + f) .locked).wroteDirect)) ∧
    (crc8 (bs.take 6) = beAt bs 6 1 → locked s = false → stageRange f (beAt bs 2 4) = true →
      exec (.calendarStageWrite frame) s = .next (((s.landed.onRtc fun r =>
        { r.stage f (beAt bs 2 4) with stClk := s.clk }).directLog (0x1A + f) .accepted).wroteDirect)) ∧
    (crc8 (bs.take 6) = beAt bs 6 1 → locked s = false → stageRange f (beAt bs 2 4) = false →
      exec (.calendarStageWrite frame) s = .next ((s.landed.directLog (0x1A + f) .refused).wroteDirect)) := by
  have hw (hc : crc8 (bs.take 6) = beAt bs 6 1) {x : State} (hx : s.landed.stageWrite f (beAt bs 2 4) = x) :
      exec (.calendarStageWrite frame) s = .next x.wroteDirect :=
    (calendarWrite_eq h (writeFrame_of_hears h hc ((directWord_of_stage f _).trans hx))).1
  exact ⟨fun hc => (calendarWrite_eq h (writeFrame_of_hears_bad h hc)).1, fun hc hk => hw hc (stageWrite_of_locked hk),
    fun hc hk hr => hw hc (stageWrite_of_inRange hk hr), fun hc hk hr => hw hc (stageWrite_of_outOfRange hk hr)⟩

theorem directWord_of_sec (v : Nat) : s.directWord 0x19 v = s.secWrite v := if_pos rfl

theorem secWrite_of_locked {v : Nat} (h : locked s = true) : s.secWrite v = s.directLog 0x19 .locked := if_pos h

theorem secWrite_of_outOfRange {v : Nat} (h : locked s = false) (hv : 60 ≤ v) : s.secWrite v = s.directLog 0x19 .refused := by
  rw [State.secWrite, h, if_neg Bool.false_ne_true, if_pos hv]

theorem secWrite_of_invalid {v : Nat} (h : locked s = false) (hv : v < 60) (hc : calValid (committedCal s.rtc v) = false) :
    s.secWrite v = (s.onRtc Rtc.unstage).directLog 0x19 .refused := by
  rw [State.secWrite, h, if_neg Bool.false_ne_true, if_neg (Nat.not_le.2 hv)]
  dsimp only
  rw [hc, if_neg Bool.false_ne_true]

theorem secWrite_of_valid {v : Nat} (h : locked s = false) (hv : v < 60) (hc : calValid (committedCal s.rtc v) = true) :
    s.secWrite v = (s.adjustCal (committedCal s.rtc v) true).directLog 0x19 .accepted := by
  rw [State.secWrite, h, if_neg Bool.false_ne_true, if_neg (Nat.not_le.2 hv)]
  dsimp only
  rw [hc, if_pos rfl]

theorem calendarSecCommit_cases (h : HearsWrite s frame bs 0x19) :
    (crc8 (bs.take 6) ≠ beAt bs 6 1 →
      exec (.calendarSecCommit frame) s = .next ((s.landed.directLog 0x19 .badCrc).wroteDirect)) ∧
    (crc8 (bs.take 6) = beAt bs 6 1 → locked s = true →
      exec (.calendarSecCommit frame) s = .next ((s.landed.directLog 0x19 .locked).wroteDirect)) ∧
    (crc8 (bs.take 6) = beAt bs 6 1 → locked s = false → 60 ≤ beAt bs 2 4 →
      exec (.calendarSecCommit frame) s = .next ((s.landed.directLog 0x19 .refused).wroteDirect)) ∧
    (crc8 (bs.take 6) = beAt bs 6 1 → locked s = false → beAt bs 2 4 < 60 →
      calValid (committedCal s.rtc (beAt bs 2 4)) = false → exec (.calendarSecCommit frame) s =
        .next (((s.landed.onRtc Rtc.unstage).directLog 0x19 .refused).wroteDirect)) := by
  have hw (hc : crc8 (bs.take 6) = beAt bs 6 1) {x : State} (hx : s.landed.secWrite (beAt bs 2 4) = x) :
      exec (.calendarSecCommit frame) s = .next x.wroteDirect :=
    (calendarWrite_eq h (writeFrame_of_hears h hc ((directWord_of_sec _).trans hx))).2
  exact ⟨fun hc => (calendarWrite_eq h (writeFrame_of_hears_bad h hc)).2, fun hc hk => hw hc (secWrite_of_locked hk),
    fun hc hk hv => hw hc (secWrite_of_outOfRange hk hv), fun hc hk hv hi => hw hc (secWrite_of_invalid hk hv hi)⟩

/-- A write of SEC sets the calendar where the staged date is valid. -/
theorem calendarSecCommit_sets (h : HearsWrite s frame bs 0x19) (hc : crc8 (bs.take 6) = beAt bs 6 1) (hk : locked s = false)
    (hv : beAt bs 2 4 < 60) (hd : calValid (committedCal s.rtc (beAt bs 2 4)) = true) : Gives (.calendarSecCommit frame) s fun t =>
      t.rtc.cal = committedCal s.rtc (beAt bs 2 4) ∧ t.rtc.begins = true ∧ t.rtc.setSince = true ∧ t.rtc.stMin = none ∧
      t.rtc.stHour = none ∧ t.rtc.stDay = none ∧ t.rtc.stMonth = none ∧ t.rtc.stYear = none ∧
      t.lk.dlAccepted = true ∧ t.lk.dlAddr = 0x19 ∧
      t = { s.landed with rtc := t.rtc, lk := t.lk, wd := t.wd, chans := t.chans, stands := t.stands, seqs := t.seqs,
                          units := t.units } := by
  have he := (calendarWrite_eq h (writeFrame_of_hears h hc ((directWord_of_sec _).trans
    (secWrite_of_valid (s := s.landed) hk hv hd)))).2
  have hr := adjustCal_rtc s.landed (committedCal s.landed.rtc (beAt bs 2 4)) true
  have hch : Changes [.rtc, .lk, .wd, .chans, .stands, .seqs, .units] s.landed
      (s.landed.adjustCal (committedCal s.landed.rtc (beAt bs 2 4)) true) := adjustCal_ch (.refl _ _) rfl
  generalize s.landed.adjustCal (committedCal s.landed.rtc (beAt bs 2 4)) true = x at he hr hch
  have ht : Changes [.lk] x (x.directLog 0x19 .accepted).wroteDirect := (directLog_ch (.refl _ x) rfl).trans (wroteDirect_ch _)
  have hl : (x.directLog 0x19 .accepted).wroteDirect.lk.dlAccepted = true ∧
      (x.directLog 0x19 .accepted).wroteDirect.lk.dlAddr = 0x19 := by
    rw [wroteDirect_lk, directLog_lk]
    exact ⟨rfl, rfl⟩
  generalize (x.directLog 0x19 .accepted).wroteDirect = t at he ht hl
  obtain ⟨hl1, hl2⟩ := hl
  have htr : t.rtc = x.rtc := ht.rtc rfl
  unfold AlarmsOnly at hr
  refine ⟨t, he, ?_, ?_, ?_, ?_, ?_, ?_, ?_, ?_, hl1, hl2, (hch.trans (ht.mono rfl)).eq_pick⟩
  all_goals rw [htr, hr]; rfl

/-- Settles O15: a set goes through one adjustment, which of the calendar's state touches date and alarms, and a direct write is staged
or commits by its word. -/
theorem calendarRequestsAndDirectWrites : Obligations.CalendarRequestsAndDirectWrites := by
  intro s
  refine ⟨fun _ => execRtcGet_answers, fun _ _ _ _ _ _ _ _ => execRtcSet_answers, fun _ => execOsfClear_answers,
    fun _ => execAlAck_answers, fun _ _ => calendarStageWrite_cases, fun frame bs h => ?_, fun h => ?_⟩
  · obtain ⟨h1, h2, h3, h4⟩ := calendarSecCommit_cases h
    exact ⟨h1, h2, h3, h4, calendarSecCommit_sets h⟩
  · exact congrArg Host.Outcome.next (if_pos h)

end Sys2Proof.Machine
end

section
/-! THEOREMS. Alarm matches, the 32 kHz clock, following, trim learning, leap seconds and the range's end (R365, R368, R375 to R381; O16). -/

namespace Sys2Proof.Machine

variable {s t : State} {k : Nat}

/-! ### Alarm matches (R378, R379) -/

/-- A marker that lies before a second is cleared. -/
def State.unmark (c : Cal) (x : State) (k : Nat) : State :=
  if (x.alarm k).marker.any (· < calSeconds c) then x.onAlarm k fun y => { y with marker := none } else x

/-- Judge one alarm on the second in progress of a calendar reading. -/
def State.judgeAlarm (c : Cal) (x : State) (k : Nat) : State :=
  if alarmMatches (x.alarm k) c && !(x.alarm k).marker.any (calSeconds c ≤ ·) then
    (x.unmark c k).alarmAct k (cal64 { c with sub := 0 }) 0 (calSeconds c) false
  else x.unmark c k

theorem matchSecond_eq (s : State) : s.matchSecond = (List.range 4).foldl (State.judgeAlarm s.rtc.cal) s := rfl

theorem unmark_ch (c : Cal) (x : State) (k : Nat) : Changes [.rtc] x (x.unmark c k) :=
  ch_ite (fun _ => onAlarm_ch (.refl _ x) rfl) fun _ => .refl _ x

theorem judgeAlarm_ch (c : Cal) (x : State) (k : Nat) :
    Changes [.rtc, .lk, .wd, .chans, .stands, .seqs, .units] x (x.judgeAlarm c k) :=
  ch_ite (fun _ => alarmAct_ch ((unmark_ch c x k).mono rfl) rfl) fun _ => (unmark_ch c x k).mono rfl

/-- Of its matches nothing but the marker changes. -/
theorem unmark_only (c : Cal) (x : State) (k : Nat) : AlarmOnly k x (x.unmark c k) ∧
    ((x.unmark c k).alarm k).fired = (x.alarm k).fired ∧ ((x.unmark c k).alarm k).count = (x.alarm k).count := by
  unfold State.unmark
  split
  · refine ⟨onAlarm_only, ?_⟩
    by_cases h : k < x.rtc.alarms.length
    · rw [onAlarm_self h]
      exact ⟨rfl, rfl⟩
    · have hl : ¬ k < (x.onAlarm k fun y => { y with marker := none }).rtc.alarms.length := by rwa [onAlarm_length]
      rw [State.alarm, State.alarm, List.getD_eq_default _ _ (Nat.not_lt.1 hl), List.getD_eq_default _ _ (Nat.not_lt.1 h)]
      exact ⟨rfl, rfl⟩
  · exact ⟨.of_rtc rfl, rfl, rfl⟩

theorem judgeAlarm_only (c : Cal) (x : State) (k : Nat) : AlarmOnly k x (x.judgeAlarm c k) := by
  obtain ⟨h, -⟩ := unmark_only c x k
  unfold State.judgeAlarm
  split
  · exact h.trans (alarmAct_only ..).1
  · exact h

theorem judgeAlarm_of_match {c : Cal} {x : State} (hl : k < x.rtc.alarms.length) (hm : alarmMatches (x.alarm k) c = true)
    (hk : (x.alarm k).marker.any (calSeconds c ≤ ·) = false) : ((x.judgeAlarm c k).alarm k).firing =
      (true, cal64 { c with sub := 0 }, u32 ((x.alarm k).count + 1), some (calSeconds c)) := by
  obtain ⟨⟨-, hlen, -⟩, -, hcount⟩ := unmark_only c x k
  rw [State.judgeAlarm, if_pos (by rw [hm, hk]; rfl), (alarmAct_only ..).2 (by rw [hlen]; exact hl), hcount]

theorem judgeAlarm_of_noMatch {c : Cal} {x : State} (hm : alarmMatches (x.alarm k) c = false) :
    ((x.judgeAlarm c k).alarm k).fired = (x.alarm k).fired ∧ ((x.judgeAlarm c k).alarm k).count = (x.alarm k).count := by
  obtain ⟨-, hfired, hcount⟩ := unmark_only c x k
  rw [State.judgeAlarm, if_neg (by rw [hm]; exact Bool.false_ne_true)]
  exact ⟨hfired, hcount⟩

theorem judged_keeps {c : Cal} {l : List Nat} (x : State) (h : k ∉ l) : (l.foldl (State.judgeAlarm c) x).alarm k = x.alarm k :=
  List.foldlRecOn (motive := fun y : State => y.alarm k = x.alarm k) l _ rfl fun y hy j hj =>
    ((judgeAlarm_only c y j).2.2 k fun hkj => h (hkj ▸ hj)).trans hy

theorem judged_rtc {c : Cal} (l : List Nat) (x : State) : AlarmsOnly x.rtc (l.foldl (State.judgeAlarm c) x).rtc :=
  alarmsOnly_foldl (fun y j => (judgeAlarm_only c y j).1) l x

theorem judged_length {c : Cal} (l : List Nat) (x : State) : (l.foldl (State.judgeAlarm c) x).rtc.alarms.length = x.rtc.alarms.length :=
  List.foldlRecOn (motive := fun y : State => y.rtc.alarms.length = x.rtc.alarms.length) l _ rfl fun y hy j _ =>
    (judgeAlarm_only c y j).2.1.trans hy

/-- Each alarm is judged once, on the state before the alarms behind it and after those before it, which leave it alone. -/
theorem judged_alarm {c : Cal} {l : List Nat} (x : State) (hd : l.Nodup) (hk : k ∈ l) :
    ∃ y : State, y.alarm k = x.alarm k ∧ y.rtc.alarms.length = x.rtc.alarms.length ∧
      (l.foldl (State.judgeAlarm c) x).alarm k = (y.judgeAlarm c k).alarm k := by
  obtain ⟨a, b, rfl⟩ := List.append_of_mem hk
  have hsplit := List.nodup_append.1 hd
  obtain ⟨-, hb, hab⟩ := hsplit
  have hka : k ∉ a := fun h => hab k h k List.mem_cons_self rfl
  have hkb : k ∉ b := (List.nodup_cons.1 hb).1
  refine ⟨a.foldl (State.judgeAlarm c) x, judged_keeps x hka, judged_length a x, ?_⟩
  rw [List.foldl_append, List.foldl_cons, judged_keeps _ hkb]

theorem execAlarmMatch_gives (hl : s.rtc.alarms.length = 4) (hup : s.pw.aonUp = true) (hn : s.rtc.newSecond = true) :
    Gives .alarmMatch s fun t =>
      (∀ k < 4, alarmMatches (s.alarm k) s.rtc.cal = true → (s.alarm k).marker.any (calSeconds s.rtc.cal ≤ ·) = false →
        (t.alarm k).fired = true ∧ (t.alarm k).last = cal64 { s.rtc.cal with sub := 0 } ∧
        (t.alarm k).count = u32 ((s.alarm k).count + 1) ∧ (t.alarm k).marker = some (calSeconds s.rtc.cal)) ∧
      (∀ k < 4, alarmMatches (s.alarm k) s.rtc.cal = false →
        (t.alarm k).fired = (s.alarm k).fired ∧ (t.alarm k).count = (s.alarm k).count) ∧
      t = { s with rtc := { s.rtc with alarms := t.rtc.alarms, wakeClk := t.rtc.wakeClk }, lk := t.lk, wd := t.wd,
                   chans := t.chans, stands := t.stands, seqs := t.seqs, units := t.units } := by
  have he : exec .alarmMatch s = .next ((List.range 4).foldl (State.judgeAlarm s.rtc.cal) s) :=
    congrArg Host.Outcome.next (if_pos (by rw [hup, hn]; rfl))
  have hch : Changes [.rtc, .lk, .wd, .chans, .stands, .seqs, .units] s ((List.range 4).foldl (State.judgeAlarm s.rtc.cal) s) :=
    ch_foldl (fun x k h => h.trans (judgeAlarm_ch _ x k)) (.refl _ s)
  have hr := judged_rtc (c := s.rtc.cal) (List.range 4) s
  refine ⟨_, he, fun k hk hm hb => ?_, fun k hk hm => ?_, ?_⟩
  · obtain ⟨y, hy, hyl, ht⟩ := judged_alarm (c := s.rtc.cal) s List.nodup_range (List.mem_range.2 hk)
    have hf := judgeAlarm_of_match (x := y) (c := s.rtc.cal) (by omega) (hy ▸ hm) (hy ▸ hb)
    rw [← ht, hy] at hf
    generalize ((List.range 4).foldl (State.judgeAlarm s.rtc.cal) s).alarm k = a at hf
    simp only [Alarm.firing, Prod.mk.injEq] at hf
    exact hf
  · obtain ⟨y, hy, -, ht⟩ := judged_alarm (c := s.rtc.cal) s List.nodup_range (List.mem_range.2 hk)
    have hf := judgeAlarm_of_noMatch (x := y) (c := s.rtc.cal) (hy ▸ hm)
    rwa [← ht, hy] at hf
  · generalize (List.range 4).foldl (State.judgeAlarm s.rtc.cal) s = t at hch hr
    unfold AlarmsOnly at hr
    rw [← hr]
    exact hch.eq_pick

theorem execAlarmMatch_idle (h : s.pw.aonUp = false ∨ s.rtc.newSecond = false) : exec .alarmMatch s = .next s := by
  refine congrArg Host.Outcome.next (if_neg ?_)
  rcases h with h | h <;> simp [h]

/-! ### Following and trim learning (R375, R376) -/

theorem execRtcFollowMeasurement_gives (hr : s.wd.running = true) (hf : par s (pid 8 0 3) = 1) (hs : s.te.servo = .locked)
    (hn : s.rtc.secondEdge = true) : Gives .rtcFollowMeasurement s fun t =>
      t.rtc.following = true ∧ t.rtc.stepDue = decide (2 * tickSec < (calError s).natAbs) ∧
      t.rtc.slewing = decide (61 * 65536000 < (calError s).natAbs ∧ (calError s).natAbs ≤ 2 * tickSec) ∧
      t.rtc.cal = s.rtc.cal ∧ t.rtc.steps = s.rtc.steps ∧ t.rtc.alarms = s.rtc.alarms ∧
      t.rtc.trimLearned = s.rtc.trimLearned ∧ t = { s with rtc := t.rtc, free := t.free } := by
  refine ⟨_, if_neg (by rw [hr, hf, hs, hn]; decide), ?_⟩
  exact ⟨rfl, rfl, rfl, rfl, rfl, rfl, rfl, (drew_ch (onRtc_ch (.refl [.rtc, .free] s) rfl) rfl).eq_pick⟩

theorem clampI_natAbs (l v : Int) (hl : 0 ≤ l) : (clampI l v).natAbs ≤ l.natAbs := by
  unfold clampI
  split
  · omega
  · split <;> omega

/-- A clamped value moves by no more than what was added to a value within the limits. -/
theorem clampI_add_natAbs (l v d : Int) (hv : v.natAbs ≤ l.natAbs) (hl : 0 ≤ l) : (clampI l (v + d) - v).natAbs ≤ d.natAbs := by
  unfold clampI
  split
  · omega
  · split <;> omega

theorem execTrimLearning_gives {c : Nat} {e : Int} (hl : s.rtc.learn = some (c, e)) (hf : s.rtc.following = true)
    (hn : s.rtc.secondEdge = true) (ha : s.after c (1024 * cycS) = true) : Gives .trimLearning s fun t =>
      t.rtc.trimLearned.natAbs ≤ 32767 ∧
      (s.rtc.trimLearned.natAbs ≤ 32767 → (t.rtc.trimLearned - s.rtc.trimLearned).natAbs ≤ 336) ∧
      t = { s with rtc := { s.rtc with trimLearned := t.rtc.trimLearned, learn := some (s.clk, calError s), slewSum := 0 },
                   free := t.free } := by
  have he : exec .trimLearning s = execTrimLearning s := rfl
  rw [execTrimLearning, hl] at he
  dsimp only at he
  rw [if_pos (by rw [hf, hn, ha]; rfl)] at he
  refine ⟨_, he, clampI_natAbs 32767 _ (by decide), fun h => ?_, rfl⟩
  exact (clampI_add_natAbs 32767 _ _ h (by decide)).trans (clampI_natAbs 336 _ (by decide))

theorem deviceRec_pair : PairIn [(0, 256), (pageAddr 0 deviceRec.2, 512)] 0 deviceRec.2 := ⟨by simp, by simp, by decide⟩

theorem execTrimLearnedStore_gives (hr : s.wd.running = true) (ha : s.after s.rtc.storeClk (3600 * cycS) = true) :
    Gives .trimLearnedStore s fun t =>
      t.rtc = { s.rtc with trimStored := s.rtc.trimLearned, storeClk := s.clk } ∧
      keepsBytes s t [(0, 256), (pageAddr 0 deviceRec.2, 512)] ∧ t = { s with rtc := t.rtc, hw := t.hw, wd := t.wd } := by
  have he : exec .trimLearnedStore s =
      .next (s.onRtc fun r => { r with trimStored := r.trimLearned, storeClk := s.clk }).storeDevice :=
    if_pos (by rw [hr, ha]; rfl)
  have hch := storeDevice_ch (.refl [.hw, .wd] (s.onRtc fun r => { r with trimStored := r.trimLearned, storeClk := s.clk })) rfl
  have hr1 := hch.rtc rfl
  have hch2 : Changes [.rtc, .hw, .wd] s _ := (onRtc_ch (.refl _ s) rfl).trans (hch.mono rfl)
  have hm : (s.onRtc fun r => { r with trimStored := r.trimLearned, storeClk := s.clk }).hw.mem = s.hw.mem := rfl
  have hk := storeDevice_keepsBytes (s := s.onRtc fun r => { r with trimStored := r.trimLearned, storeClk := s.clk }) deviceRec_pair
  generalize (s.onRtc fun r => { r with trimStored := r.trimLearned, storeClk := s.clk }).storeDevice = t at he hr1 hch2 hk
  exact ⟨_, he, hr1, keepsBytes_trans (keepsBytes_of_mem hm) hk, hch2.eq_pick⟩

/-! ### Leap seconds and the range's end (R365, R377) -/

theorem execCalendarLeapSecond_skips (h61 : (s.rtc.leap61 && atMonthEnd s.rtc.cal 59) = false) (h59 : s.rtc.leap59 = true)
    (hend : atMonthEnd s.rtc.cal 58 = true) (hsub : s.rtc.cal.sub = 32767) : Gives .calendarLeapSecond s fun t =>
      t.rtc.cal = { calOfSeconds (calSeconds s.rtc.cal + 2) with sub := 0 } ∧
      t = { s with rtc := { s.rtc with cal := t.rtc.cal, leap59 := false, begins := true, alarms := t.rtc.alarms,
                                       wakeClk := t.rtc.wakeClk },
                   lk := t.lk, wd := t.wd, chans := t.chans, stands := t.stands, seqs := t.seqs, units := t.units } := by
  have he : exec .calendarLeapSecond s =
      .next ((s.onRtc fun r => { r with leap59 := false }).adjustCal (calOfSeconds (calSeconds s.rtc.cal + 2)) false) :=
    (if_neg (by rw [h61]; exact Bool.false_ne_true)).trans (if_pos (by rw [h59, hend, hsub]; rfl))
  have hr := adjustCal_rtc (s.onRtc fun r => { r with leap59 := false }) (calOfSeconds (calSeconds s.rtc.cal + 2)) false
  have hch : Changes [.rtc, .lk, .wd, .chans, .stands, .seqs, .units] s
      ((s.onRtc fun r => { r with leap59 := false }).adjustCal (calOfSeconds (calSeconds s.rtc.cal + 2)) false) :=
    adjustCal_ch (onRtc_ch (.refl _ s) rfl) rfl
  generalize (s.onRtc fun r => { r with leap59 := false }).adjustCal (calOfSeconds (calSeconds s.rtc.cal + 2)) false = t at he hr hch
  unfold AlarmsOnly at hr
  have hcal : t.rtc.cal = { calOfSeconds (calSeconds s.rtc.cal + 2) with sub := 0 } := by rw [hr]; rfl
  have hrtc : t.rtc =
      { s.rtc with cal := t.rtc.cal, leap59 := false, begins := true, alarms := t.rtc.alarms, wakeClk := t.rtc.wakeClk } := by
    rw [hcal]
    exact hr
  refine ⟨t, he, hcal, ?_⟩
  rw [← hrtc]
  exact hch.eq_pick

theorem execCalendarRangeEnd_wraps (h : atRangeEnd s.rtc.cal = true) (hsub : s.rtc.cal.sub = 32767) :
    exec .calendarRangeEnd s = .next { s with
      rtc := { s.rtc with cal := Cal.powerUp, osf := true, setSince := false, begins := true } } :=
  if_pos (by rw [h, hsub]; rfl)

/-- Two images of one element that agree there give one list. -/
theorem onAlarm_congr {f g : Alarm → Alarm} (h : k < s.rtc.alarms.length → f (s.alarm k) = g (s.alarm k)) :
    s.onAlarm k f = s.onAlarm k g := by
  have hl : modAt s.rtc.alarms k f = modAt s.rtc.alarms k g := by
    refine List.ext_getElem? fun j => ?_
    rw [modAt_getElem?, modAt_getElem?]
    split
    next hj =>
      subst hj
      by_cases hlt : k < s.rtc.alarms.length
      · have hk : s.alarm k = s.rtc.alarms[k] := by rw [State.alarm, List.getD_eq_getElem?_getD, List.getElem?_eq_getElem hlt]; rfl
        rw [List.getElem?_eq_getElem hlt, Option.map_some, Option.map_some, ← hk, h hlt]
      · rw [List.getElem?_eq_none (Nat.not_lt.1 hlt)]
        rfl
    next => rfl
  exact congrArg (fun l => s.onRtc fun r => { r with alarms := l }) hl

theorem execDeferredSeqExpiry_misses (k : Fin 4) (hw : (s.alarm k).seqWait = true)
    (ha : s.pw.stage3At.any (s.after · (60 * cycS)) = true) : exec (.deferredSeqExpiry k) s = .next (s.onAlarm k fun a =>
      { a with seqWait := false, deferred := false, missed := true, missedCount := u32 (a.missedCount + 1) }) :=
  congrArg Host.Outcome.next (onAlarm_congr fun _ => if_pos (by rw [hw, ha]; rfl))

/-- Settles O16: each alarm is judged once by a step that touches that alarm alone, and the other events write the calendar's fields
that they name. -/
theorem alarmsAndCalendarEvents : Obligations.AlarmsAndCalendarEvents := by
  intro s
  refine ⟨execAlarmMatch_gives, execAlarmMatch_idle, fun h0 ha => ?_, rfl, rfl, execRtcFollowMeasurement_gives,
    fun _ _ => execTrimLearning_gives, execTrimLearnedStore_gives, fun h61 hend => ?_, execCalendarLeapSecond_skips,
    execCalendarRangeEnd_wraps, execDeferredSeqExpiry_misses⟩
  · exact if_neg (by simp [h0, ha])
  · exact if_pos (by rw [h61, hend]; rfl)

end Sys2Proof.Machine
end

section
/-! THEOREMS. Attach and detach of a console, and the console's own lines (R455 to R458, R462; O54). -/

namespace Sys2Proof.Machine

variable {s x : State} {o : Bool} {line : LineIn}

/-! ### Attach (R455, R456, R462) -/

/-- The number of a console path: the service UART is 1, the optical port 2. -/
def pathNo (optical : Bool) : Nat := if optical then 2 else 1

/-- What the parameters let own the console depends on nothing that a console changes. -/
theorem consoleOn_onHm (s : State) (f : Hmi → Hmi) (p : Nat) : consoleOn (s.onHm f) p = consoleOn s p := rfl

/-- The human-machine state once a path has attached, its baud rate being in use. -/
def attached (s : State) (o : Bool) (baud : Nat) : Hmi :=
  { s.hm with probe := s.hm.probe || o, cable := s.hm.cable || !o, attaches := u32 (s.hm.attaches + 1), suBaud := baud }

/-- The state once a path has attached, with the parameters that come into use then. -/
def joinedBy (s : State) (o : Bool) : State :=
  let a := s.takeScheduled fun id => effOf id == .attach
  a.onHm fun h => { h with probe := h.probe || o, cable := h.cable || !o, attaches := u32 (h.attaches + 1), suBaud := par a 0x6006 }

theorem execConsoleAttach_eq (o : Bool) (h2 : s.pw.stage ≠ 0) : exec (.consoleAttach o) s =
    if pathNo o == 1 && s.hm.owner == 2 && s.hm.ownerClk == s.clk && consoleOn s 1 then
      .next ((joinedBy s o).onHm fun h => { h with owner := 1, out := h.out ++ [ascii "BUSY"] })
    else if s.hm.owner != 0 && s.hm.owner != pathNo o && consoleOn s (pathNo o) then
      .next ((joinedBy s o).onHm fun h => { h with out := h.out ++ [ascii "BUSY"] })
    else .next (joinedBy s o).consoleClaim := if_neg (by simpa using h2)

theorem joinedBy_eq (s : State) (o : Bool) :
    joinedBy s o = { s with pr := (s.takeScheduled fun id => effOf id == .attach).pr
                            hm := attached s o (par (s.takeScheduled fun id => effOf id == .attach) 0x6006) } := rfl

/-- The path that attaches alone claims the console. -/
theorem consoleClaim_of_alone (h2 : 2 ≤ x.pw.stage) (h0 : x.hm.owner = 0) (hc : x.hm.cable = !o) (hp : x.hm.probe = o)
    (hon : consoleOn x (pathNo o) = true) : x.consoleClaim = x.onHm fun h => { h with owner := pathNo o, ownerClk := x.clk } := by
  unfold State.consoleClaim
  rw [h0, if_neg (by simp; omega), hc, hp]
  cases o with
  | true => rw [if_neg (by simp), show consoleOn x 2 = true from hon]; rfl
  | false => rw [show consoleOn x 1 = true from hon]; rfl

theorem consoleAttach_claims (h2 : 2 ≤ s.pw.stage) (h0 : s.hm.owner = 0) (hc : s.hm.cable = false) (hp : s.hm.probe = false)
    (hon : consoleOn (s.takeScheduled fun id => effOf id == .attach) (pathNo o) = true) : exec (.consoleAttach o) s =
      .next { s with pr := (s.takeScheduled fun id => effOf id == .attach).pr
                     hm := { attached s o (par (s.takeScheduled fun id => effOf id == .attach) 0x6006) with
                       owner := pathNo o, ownerClk := s.clk } } := by
  have hclaim := consoleClaim_of_alone (x := joinedBy s o) h2 h0
    (show (s.hm.cable || !o) = !o by rw [hc, Bool.false_or]) (show (s.hm.probe || o) = o by rw [hp, Bool.false_or]) hon
  rw [execConsoleAttach_eq o (by omega), h0, if_neg (by simp), if_neg (by simp), hclaim]
  rfl

theorem consoleAttach_busy (h2 : 2 ≤ s.pw.stage) (h0 : s.hm.owner ≠ 0) (hp : s.hm.owner ≠ pathNo o)
    (hon : consoleOn s (pathNo o) = true) (hs : ¬ (pathNo o = 1 ∧ s.hm.owner = 2 ∧ s.hm.ownerClk = s.clk)) :
    exec (.consoleAttach o) s =
      .next { s with pr := (s.takeScheduled fun id => effOf id == .attach).pr
                     hm := { attached s o (par (s.takeScheduled fun id => effOf id == .attach) 0x6006) with
                       out := s.hm.out ++ [ascii "BUSY"] } } := by
  have hn : ¬ (pathNo o == 1 && s.hm.owner == 2 && s.hm.ownerClk == s.clk && consoleOn s 1) = true := by
    simp only [Bool.and_eq_true, beq_iff_eq]
    exact fun ⟨⟨⟨h1, h3⟩, h4⟩, _⟩ => hs ⟨h1, h3, h4⟩
  rw [execConsoleAttach_eq o (by omega), if_neg hn, if_pos (by simp [h0, hp, hon])]
  rfl

theorem consoleAttach_wins (h2 : 2 ≤ s.pw.stage) (h1 : pathNo o = 1) (hw : s.hm.owner = 2) (hc : s.hm.ownerClk = s.clk)
    (hon : consoleOn s 1 = true) : exec (.consoleAttach o) s =
      .next { s with pr := (s.takeScheduled fun id => effOf id == .attach).pr
                     hm := { attached s o (par (s.takeScheduled fun id => effOf id == .attach) 0x6006) with
                       owner := 1, out := s.hm.out ++ [ascii "BUSY"] } } := by
  rw [execConsoleAttach_eq o (by omega), if_pos (by simp [h1, hw, hc, hon])]
  rfl

/-! ### Detach (R456, R460) -/

/-- The state once the console's owner has left, before the other path may take the console. -/
def leftBy (s : State) (o : Bool) : State :=
  ((s.onHm fun h => { h with probe := h.probe && !o, cable := h.cable && o }).dropSessions fun x => x.path == .console).onHm fun h =>
    { h with owner := 0, forces := h.forces.filter (fun f => f.path != .console), tdacOn := h.tdacOn && !h.tdacConsole,
             tdacConsole := false, tdacCode := if h.tdacConsole then 0 else h.tdacCode }

/-- A console without an owner is given to an attached path that may own it, and nothing else changes. -/
theorem consoleClaim_of_free (h0 : x.hm.owner = 0) : x.consoleClaim.se = x.se ∧ x.consoleClaim.hm.forces = x.hm.forces ∧
    x.consoleClaim.hm.tdacOn = x.hm.tdacOn ∧ x.consoleClaim.hm.owner =
      (if x.pw.stage < 2 then 0 else if x.hm.cable && consoleOn x 1 then 1 else if x.hm.probe && consoleOn x 2 then 2 else 0) := by
  have hb : (x.hm.owner != 0 || decide (x.pw.stage < 2)) = decide (x.pw.stage < 2) := by rw [h0]; rfl
  unfold State.consoleClaim
  rw [hb]
  simp only [decide_eq_true_eq]
  split
  · exact ⟨rfl, rfl, rfl, h0⟩
  · split
    · exact ⟨rfl, rfl, rfl, rfl⟩
    · split
      · exact ⟨rfl, rfl, rfl, rfl⟩
      · exact ⟨rfl, rfl, rfl, h0⟩

/-- Who owns the console after its owner left: the other path, where it is attached and may own it. -/
theorem leftBy_owner (s : State) (o : Bool) : (leftBy s o).consoleClaim.hm.owner =
    if 2 ≤ s.pw.stage ∧ (if o then s.hm.cable else s.hm.probe) = true ∧ consoleOn s (if o then 1 else 2) = true then
      (if o then 1 else 2) else 0 := by
  obtain ⟨-, -, -, h⟩ := consoleClaim_of_free (x := leftBy s o) rfl
  have hst : (leftBy s o).pw.stage = s.pw.stage := rfl
  have hc : (leftBy s o).hm.cable = (s.hm.cable && o) := rfl
  have hp : (leftBy s o).hm.probe = (s.hm.probe && !o) := rfl
  have hon (p : Nat) : consoleOn (leftBy s o) p = consoleOn s p := rfl
  rw [h, hst, hc, hp, hon, hon]
  by_cases h2 : s.pw.stage < 2
  · rw [if_pos h2, if_neg (fun hx => absurd hx.1 (Nat.not_le.2 h2))]
  · have h2' : 2 ≤ s.pw.stage := Nat.not_lt.1 h2
    cases o with
    | true => simp [h2, h2']
    | false => simp [h2, h2']

theorem consoleDetach_gives (h : s.hm.owner = (if o then 2 else 1)) : Gives (.consoleDetach o) s fun t =>
    t.se.open_ = s.se.open_.filter (fun x => x.path != .console) ∧ (∀ f ∈ t.hm.forces, f.path ≠ .console) ∧
    (s.hm.tdacConsole = true → t.hm.tdacOn = false) ∧ (s.hm.tdacConsole = false → t.hm.tdacOn = s.hm.tdacOn) ∧
    t.hm.owner = (if 2 ≤ s.pw.stage ∧ (if o then s.hm.cable else s.hm.probe) = true ∧
      consoleOn s (if o then 1 else 2) = true then (if o then 1 else 2) else 0) ∧
    t = { s with se := t.se, hm := t.hm } := by
  have he : exec (.consoleDetach o) s = .next (leftBy s o).consoleClaim := if_neg (by rw [h]; simp)
  obtain ⟨hse, hforces, htd, -⟩ := consoleClaim_of_free (x := leftBy s o) rfl
  have htd1 : (leftBy s o).hm.tdacOn = (s.hm.tdacOn && !s.hm.tdacConsole) := rfl
  refine ⟨_, he, by rw [hse]; rfl, fun f hf => ?_, fun hc => ?_, fun hc => ?_, leftBy_owner s o, ?_⟩
  · rw [hforces] at hf
    simpa using (List.mem_filter.1 hf).2
  · rw [htd, htd1, hc, Bool.not_true, Bool.and_false]
  · rw [htd, htd1, hc, Bool.not_false, Bool.and_true]
  · exact (consoleClaim_ch (onHm_ch (dropSessions_ch (onHm_ch (.refl [.se, .hm] s) rfl) rfl) rfl) rfl).eq_pick

theorem consoleDetach_other (h : s.hm.owner ≠ (if o then 2 else 1)) : exec (.consoleDetach o) s =
    .next { s with hm := { s.hm with probe := s.hm.probe && !o, cable := s.hm.cable && o } } := if_pos (by simpa using h)

/-! ### Lines (R457) -/

variable {cmd : String} {minStage : Nat} {bad : List Nat → Bool} {run : List Nat → State → State × List Byte}

/-- The state in which an accepted line runs: counted. -/
def lineCounted (s : State) : State := s.onLk fun l => { l with cmdAccepted := l.cmdAccepted + 1 }

/-- The numbers of a line. -/
def lineArgs (line : LineIn) : List Nat := ((lineWords line.bytes).drop 1).filterMap lineNum

/-- A line that is well formed runs, and its output is printed. -/
theorem consoleServe_of_ok (h0 : s.hm.owner ≠ 0) (hr : s.wd.running = true) (h2 : 2 ≤ s.pw.stage)
    (hst : lineStatus s cmd line minStage bad = .ok) : consoleServe cmd line minStage bad run s =
      (run (lineArgs line) (lineCounted s)).1.onHm fun h =>
        { h with out := h.out ++ [consoleLine .ok (run (lineArgs line) (lineCounted s)).2] } := by
  unfold consoleServe
  rw [hr, if_neg (by simp [h0]; omega), hst]
  rfl

/-- Any other line is answered with its status alone. -/
theorem consoleServe_of_refused (h0 : s.hm.owner ≠ 0) (hr : s.wd.running = true) (h2 : 2 ≤ s.pw.stage)
    (hst : (lineStatus s cmd line minStage bad).refused = true) : consoleServe cmd line minStage bad run s =
      { lineCounted s with
        lk := { (lineCounted s).lk with cmdRefused := s.lk.cmdRefused + 1, lastRefused := (lineStatus s cmd line minStage bad).code }
        hm := { s.hm with out := s.hm.out ++ [consoleLine (lineStatus s cmd line minStage bad) []] } } := by
  unfold consoleServe
  rw [hr, if_neg (by simp [h0]; omega)]
  dsimp only
  rw [hst]
  rfl

theorem consoleRms_prints (h0 : s.hm.owner ≠ 0) (hr : s.wd.running = true) (h2 : 2 ≤ s.pw.stage)
    (hst : lineStatus s "rms" line 3 (fun a => 1 < a.length || 35 < a.headD 0) = .ok) : exec (.consoleRms line) s =
      .next ((lineCounted s).onHm fun m => { m with out := m.out ++ [consoleLine .ok
        ((if lineArgs line = [] then List.range 36 else lineArgs line).flatMap fun c => le 4 (rmsWin s c))] }) := by
  refine congrArg Host.Outcome.next ((consoleServe_of_ok h0 hr h2 hst).trans ?_)
  cases hl : lineArgs line with
  | nil => rfl
  | cons a l => rfl

theorem consoleLog_prints (h0 : s.hm.owner ≠ 0) (hr : s.wd.running = true) (h2 : 2 ≤ s.pw.stage)
    (hst : lineStatus s "log" line 2 (fun a => 1 < a.length || a.head? == some 0 || 32 < a.headD 0) = .ok) :
    Gives (.consoleLog line) s fun t =>
      t.hm.out = s.hm.out ++ [consoleLine .ok ((logFrom (lineCounted s) 0).drop ((logFrom (lineCounted s) 0).length -
        (lineArgs line).headD (Config.freeNat s.free % 32 + 1))).flatten] ∧
      t.hw.mem = s.hw.mem ∧
      t = { lineCounted s with hm := { s.hm with out := t.hm.out }, hw := t.hw, wd := t.wd, free := t.free } := by
  let l := logFrom (lineCounted s) 0
  let r := l.drop (l.length - (lineArgs line).headD (Config.freeNat s.free % 32 + 1))
  let y := (lineCounted s).senseLog ((r.head?.map (fieldAt · 0 4)).getD 1) ((r.getLast?.map (fieldAt · 0 4)).getD 0)
  have he : exec (.consoleLog line) s =
      .next ((y.drew 1).onHm fun m => { m with out := m.out ++ [consoleLine .ok r.flatten] }) :=
    congrArg Host.Outcome.next (consoleServe_of_ok h0 hr h2 hst)
  have hch : Changes [.hw, .wd] (lineCounted s) y := senseLog_ch (.refl _ _) rfl
  have hm : y.hw.mem = s.hw.mem := senseLog_mem ..
  have hhm : y.hm = s.hm := hch.hm rfl
  clear_value y
  have hall : Changes [.hm, .hw, .wd, .free] (lineCounted s) ((y.drew 1).onHm fun m =>
      { m with out := m.out ++ [consoleLine .ok r.flatten] }) := onHm_ch (drew_ch (hch.mono rfl) rfl) rfl
  have hout : ((y.drew 1).onHm fun m => { m with out := m.out ++ [consoleLine .ok r.flatten] }).hm =
      { s.hm with out := s.hm.out ++ [consoleLine .ok r.flatten] } := by
    rw [← hhm]
    rfl
  have hmem : ((y.drew 1).onHm fun m => { m with out := m.out ++ [consoleLine .ok r.flatten] }).hw.mem = s.hw.mem := hm
  generalize (y.drew 1).onHm (fun m => { m with out := m.out ++ [consoleLine .ok r.flatten] }) = t at he hall hout hmem
  have hto : t.hm = { s.hm with out := t.hm.out } := by rw [hout]
  refine ⟨t, he, by rw [hout], hmem, ?_⟩
  rw [← hto]
  exact hall.eq_pick

/-- Settles O54: attaching and leaving come down to who may claim the console, and a line to its status. -/
theorem consoleAttachesAndAnswers : Obligations.ConsoleAttachesAndAnswers := by
  intro s
  refine ⟨fun o => ⟨fun h0 => ?_, fun h2 h0 hc hp => consoleAttach_claims h2 h0 hc hp,
    fun h2 h0 hp hon hs => consoleAttach_busy h2 h0 hp hon hs, fun h2 ⟨h1, hw, hc⟩ => consoleAttach_wins h2 h1 hw hc⟩,
    fun _ => consoleDetach_gives, fun _ => consoleDetach_other, fun x h0 hr h2 => ?_⟩
  · exact if_pos (by rw [h0]; rfl)
  · intro v prints refuses args c status supply energy rms log
    have hok {cmd : String} {n : Nat} {bad : List Nat → Bool} {bytes : State → List Nat → List Byte} {bs : List Byte}
        (hb : bytes (lineCounted s) args = bs) (hst : lineStatus s cmd x n bad = .ok) :
        .next (consoleServe cmd x n bad (showing bytes) s) = prints bs :=
      hb ▸ congrArg Host.Outcome.next (consoleServe_of_ok h0 hr h2 hst)
    have hno {cmd : String} {n : Nat} {bad : List Nat → Bool} {run : List Nat → State → State × List Byte}
        (hst : (lineStatus s cmd x n bad).refused = true) :
        .next (consoleServe cmd x n bad run s) = refuses (lineStatus s cmd x n bad) :=
      congrArg Host.Outcome.next (consoleServe_of_refused h0 hr h2 hst)
    exact ⟨hok rfl, hok rfl, hok rfl, consoleRms_prints h0 hr h2, consoleLog_prints h0 hr h2, hno, hno, hno, hno, hno⟩

end Sys2Proof.Machine
end

section
/-! LEMMAS. What a change of the servo's state does, part by part of the machine (R257, R258, Table 2-1, Table 11-2). -/

namespace Sys2Proof.Machine

variable {s t u x : State} {n : Servo} {th : Int}

/-! ### Interrupt bits -/

/-- A bit that is set stays set when another is set. -/
theorem bitAt_setBit_of_bitAt {v b c : Nat} (h : bitAt v b = true) : bitAt (setBit v c) b = true := by
  by_cases hbc : b = c
  · exact hbc ▸ bitAt_setBit_self v c
  unfold setBit
  split
  · exact h
  next hc =>
    simp only [bitAt, beq_iff_eq] at h hc ⊢
    rcases Nat.lt_or_gt_of_ne hbc with hlt | hgt
    · obtain ⟨k, rfl⟩ := Nat.exists_eq_add_of_lt hlt
      have he : (2 : Nat) ^ (b + k + 1) = 2 ^ b * (2 * 2 ^ k) := by ring
      rw [he, Nat.add_mul_div_left _ _ (Nat.two_pow_pos b)]
      omega
    · obtain ⟨k, rfl⟩ := Nat.exists_eq_add_of_lt hgt
      have he : (2 : Nat) ^ (c + k + 1) = 2 ^ c * 2 * 2 ^ k := by ring
      rw [he, ← Nat.div_div_eq_div_mul, ← Nat.div_div_eq_div_mul] at h ⊢
      rw [Nat.add_div_right _ (Nat.two_pow_pos c)]
      have h2 : (v / 2 ^ c + 1) / 2 = v / 2 ^ c / 2 := by omega
      rwa [h2]

/-- From `s` to `t` no interrupt bit clears. -/
def IrqGrows (s t : State) : Prop := ∀ b, bitAt s.lk.irq b = true → bitAt t.lk.irq b = true

theorem IrqGrows.of_lk (h : t.lk = s.lk) : IrqGrows s t := fun b hb => by rwa [h]

theorem IrqGrows.trans (h : IrqGrows s t) (g : IrqGrows t u) : IrqGrows s u := fun b hb => g b (h b hb)

theorem irq_grows (s : State) (b : Nat) : IrqGrows s (s.irq b) := fun _ => bitAt_setBit_of_bitAt

theorem enterStage_grows (s : State) (n : Nat) : IrqGrows s (s.enterStage n) := by
  unfold State.enterStage
  split
  · exact .of_lk rfl
  · intro b hb
    rw [log_lk]
    exact irq_grows _ 0 b hb

theorem restage_grows (s : State) : IrqGrows s s.restage := by
  unfold State.restage
  split
  · exact .of_lk rfl
  · split
    · split
      · exact .of_lk rfl
      · exact (enterStage_grows s 4).trans (.of_lk ((pmuAutoStart_ch (.refl [.pm] _) rfl).lk rfl))
    · exact enterStage_grows s 3

/-! ### The servo -/

/-- The time engine as it enters a servo state. -/
def servoTe (s : State) (n : Servo) : TimeEng :=
  { s.te with
    servo := n, r := if n == .free || n == .holdover || n == .refused then s.te.f else s.te.r,
    holdEst := if n == .holdover then teNs s else s.te.holdEst,
    lockedOnce := s.te.lockedOnce || n == .locked,
    lastLocked := if n == .locked && s.wd.running then s.te.f else s.te.lastLocked,
    storeClk := if n == .locked then s.clk else s.te.storeClk,
    goodRun := if n == .acquire then 0 else s.te.goodRun }

/-- The calendar's state as it stops following (R376). -/
def Rtc.unfollowed (r : Rtc) : Rtc :=
  { r with following := false, slewing := false, slewLeft := 0, errorUs := 0x7FFFFFFF, stepDue := false, learn := none }

/-- The waiting time parameters come into use where the servo leaves its offsets. -/
def State.takeOffsets (s : State) (n : Servo) : State :=
  if n == .free || n == .holdover then s.takeScheduled (fun id => effOf id == .offset) else s

theorem takeOffsets_ch (s : State) (n : Servo) : Changes [.pr] s (s.takeOffsets n) :=
  ch_ite (fun _ => takeScheduled_ch (.refl _ s) rfl) fun _ => .refl _ s

/-- A change of the servo up to the stage that follows from it. -/
theorem servoTo_eq (h : s.te.servo ≠ n) : ∃ x, s.servoTo n th = x.restage.takeOffsets n ∧
    Changes [.te, .rtc, .hw, .lk, .wd, .pm, .free] s x ∧ (n ≠ .locked → x.hw = s.hw) ∧ x.te = servoTe s n ∧
    x.rtc = (if s.te.servo = .locked then s.rtc.unfollowed else s.rtc) ∧ (s.te.servo ≠ .locked → x.pm = s.pm) ∧
    x.lk.irq = setBit s.lk.irq 8 := by
  unfold State.servoTo
  rw [if_neg (by simpa using h)]
  extract_lets frozen s1 s11 s12 s2 s3
  have h1 : Changes [.te] s s1 := onTe_ch (.refl _ s) rfl
  have h1te : s1.te = servoTe s n := rfl
  have h11 : Changes [.hw, .wd] s1 s11 := ch_ite (fun _ => storeDevice_ch (.refl _ _) rfl) fun _ => .refl _ _
  have h11hw : n ≠ .locked → s11.hw = s1.hw := fun hn => by unfold s11; rw [if_neg (by simp [hn])]
  clear_value s1 s11
  have h12 : Changes [.rtc, .pm] s11 s12 := ch_ite (fun _ => stopFollowing_ch (onPm_ch (.refl _ _) rfl) rfl) fun _ => .refl _ _
  have h12rtc : s12.rtc = if s.te.servo = .locked then s11.rtc.unfollowed else s11.rtc := by
    unfold s12
    by_cases hl : s.te.servo = .locked
    · rw [if_pos hl, if_pos (by simpa using hl)]
      rfl
    · rw [if_neg hl, if_neg (by simpa using hl)]
  have h12pm : s.te.servo ≠ .locked → s12.pm = s11.pm := fun hl => by unfold s12; rw [if_neg (by simpa using hl)]
  clear_value s12
  have h2 : Changes [.lk, .wd, .free] s12 (s2.drew 1) := drew_ch (log_ch (irq_ch (.refl _ _) rfl) rfl) rfl
  have h2irq : (s2.drew 1).lk.irq = setBit s12.lk.irq 8 := by
    show s2.lk.irq = _
    rw [(log_ch (.refl [.wd] _) rfl).lk rfl]
    rfl
  refine ⟨s2.drew 1, rfl, (((h1.mono rfl).trans (h11.mono rfl)).trans (h12.mono rfl)).trans (h2.mono rfl), fun hn => ?_, ?_, ?_,
    fun hl => ?_, ?_⟩
  · rw [h2.hw rfl, h12.hw rfl, h11hw hn, h1.hw rfl]
  · rw [h2.te rfl, h12.te rfl, h11.te rfl, h1te]
  · rw [h2.rtc rfl, h12rtc, h11.rtc rfl, h1.rtc rfl]
  · rw [h2.pm rfl, h12pm hl, h11.pm rfl, h1.pm rfl]
  · rw [h2irq, h12.lk rfl, h11.lk rfl, h1.lk rfl]

theorem servoTo_self (h : s.te.servo = n) : s.servoTo n th = s := if_pos (by simpa using h)

/-- Unlocked, the stage is 3 at the most. -/
theorem restage_of_unlocked (h : x.te.servo ≠ .locked) :
    Changes [.pw, .lk, .wd] x x.restage ∧ x.restage.pw.stage = Nat.min x.pw.stage 3 := by
  unfold State.restage
  split
  next hlt => exact ⟨.refl _ x, (Nat.min_eq_left (Nat.le_of_lt hlt)).symm⟩
  next hge =>
    rw [if_neg (by simpa using h)]
    exact ⟨enterStage_ch (.refl _ x) rfl, (enterStage_stage x 3).trans (Nat.min_eq_right (Nat.not_lt.1 hge)).symm⟩

theorem servoTo_te (h : s.te.servo ≠ n) : (s.servoTo n th).te = servoTe s n := by
  obtain ⟨x, he, -, -, hte, -⟩ := servoTo_eq (th := th) h
  rw [he, (takeOffsets_ch _ _).te rfl, (restage_ch (.refl [.pw, .lk, .wd, .pm] x) rfl).te rfl, hte]

theorem servoTo_rtc (h : s.te.servo ≠ n) :
    (s.servoTo n th).rtc = if s.te.servo = .locked then s.rtc.unfollowed else s.rtc := by
  obtain ⟨x, he, -, -, -, hrtc, -⟩ := servoTo_eq (th := th) h
  rw [he, (takeOffsets_ch _ _).rtc rfl, (restage_ch (.refl [.pw, .lk, .wd, .pm] x) rfl).rtc rfl, hrtc]

/-- Whatever the servo does, the calendar's reading stays. -/
theorem servoTo_cal (s : State) (n : Servo) (th : Int) : (s.servoTo n th).rtc.cal = s.rtc.cal := by
  by_cases h : s.te.servo = n
  · rw [servoTo_self h]
  · rw [servoTo_rtc h]
    split <;> rfl

theorem servoTo_grows (s : State) (n : Servo) (th : Int) : IrqGrows s (s.servoTo n th) := by
  by_cases h : s.te.servo = n
  · rw [servoTo_self h]
    exact .of_lk rfl
  · obtain ⟨x, he, -, -, -, -, -, hirq⟩ := servoTo_eq (th := th) h
    rw [he]
    have hx : IrqGrows s x := fun b hb => by
      rw [hirq]
      exact bitAt_setBit_of_bitAt hb
    exact hx.trans ((restage_grows x).trans (.of_lk ((takeOffsets_ch _ _).lk rfl)))

/-- A change of the servo raises its interrupt (Table 13-10). -/
theorem servoTo_irq (h : s.te.servo ≠ n) : bitAt (s.servoTo n th).lk.irq 8 = true := by
  obtain ⟨x, he, -, -, -, -, -, hirq⟩ := servoTo_eq (th := th) h
  have hx : bitAt x.lk.irq 8 = true := by rw [hirq]; exact bitAt_setBit_self _ _
  rw [he]
  exact ((restage_grows x).trans (.of_lk ((takeOffsets_ch _ _).lk rfl))) 8 hx

/-- A servo that does not become LOCKED leaves the store alone, and no stage above 3. -/
theorem servoTo_of_unlocked (h : s.te.servo ≠ n) (hn : n ≠ .locked) :
    Changes [.pw, .te, .rtc, .pr, .lk, .wd, .pm, .free] s (s.servoTo n th) ∧
    (s.servoTo n th).pw.stage = Nat.min s.pw.stage 3 ∧
    (s.te.servo ≠ .locked → (s.servoTo n th).pm = s.pm) ∧
    (n ≠ .free → n ≠ .holdover → (s.servoTo n th).pr = s.pr) := by
  obtain ⟨x, he, hch, hhw, hte, -, hpm, -⟩ := servoTo_eq (th := th) h
  have hx : Changes [.te, .rtc, .lk, .wd, .pm, .free] s x :=
    (hch.mono rfl (q := [.hw, .te, .rtc, .lk, .wd, .pm, .free])).drop (hhw hn)
  obtain ⟨hr, hst⟩ := restage_of_unlocked (x := x) (by rw [hte]; exact hn)
  have ho := takeOffsets_ch x.restage n
  rw [he]
  refine ⟨((hx.mono rfl).trans (hr.mono rfl)).trans (ho.mono rfl), ?_, fun hl => ?_, fun h1 h2 => ?_⟩
  · rw [ho.pw rfl, hst, hx.pw rfl]
  · rw [ho.pm rfl, hr.pm rfl, hpm hl]
  · have hs : x.restage.takeOffsets n = x.restage := if_neg (by simp [h1, h2])
    rw [hs, hr.pr rfl, hx.pr rfl]

/-! ### Members stored outside a commit (R250, R251) -/

theorem par_storePar_self (s : State) (id v : Nat) : par (s.storePar id v) id = v := by
  simp [par, State.storePar]

/-- Other members read as before, but for those whose reset value follows the stored one. -/
theorem par_storePar_ne {id j v : Nat} (h : j ≠ id) (hid : id ≠ 0x1000) : par (s.storePar id v) j = par s j := by
  simp only [par, parReset, State.storePar, onPr_pr, lookup_assocSet_ne h, lookup_assocSet_ne (Ne.symm hid), factoryVal,
    factoryImage]
  rfl

theorem toSigned_ofSigned {v : Int} (h1 : -32768 ≤ v) (h2 : v ≤ 32767) : toSigned 16 (ofSigned 16 v) = v := by
  unfold toSigned ofSigned
  have hp : ((2 ^ 16 : Nat) : Int) = 65536 := rfl
  have hq : (2 : Nat) ^ 16 = 65536 := rfl
  have hr : (2 : Nat) ^ (16 - 1) = 32768 := rfl
  rw [hp, hq, hr]
  split <;> omega

theorem toSigned_bounds (v : Nat) : -32768 ≤ toSigned 16 v ∧ toSigned 16 v ≤ 32767 := by
  unfold toSigned
  have hq : (2 : Nat) ^ 16 = 65536 := rfl
  have hr : (2 : Nat) ^ (16 - 1) = 32768 := rfl
  rw [hq, hr]
  have := Nat.mod_lt v (show 0 < 65536 by decide)
  split <;> constructor <;> push_cast <;> omega

theorem utcOffset_bounds (s : State) : -32768 ≤ utcOffset s ∧ utcOffset s ≤ 32767 := toSigned_bounds _

theorem setUtc_utcOffset {v : Int} (h1 : -32768 ≤ v) (h2 : v ≤ 32767) : utcOffset (s.setUtc v) = v := by
  unfold State.setUtc
  split
  next h => simpa using h
  next =>
    have hp := (pioUpdate_ch (.refl [.hw] (s.storePar (pid 7 0 13) (ofSigned 16 v))) rfl).par_eq rfl rfl rfl rfl 0x380D
    rw [utcOffset, parS, hp]
    exact (congrArg (toSigned 16) (par_storePar_self s (pid 7 0 13) (ofSigned 16 v))).trans (toSigned_ofSigned h1 h2)

/-- A change of LEAP sets LEAP and no other member. -/
theorem setLeap_par (s : State) (v : Nat) :
    leapWord (s.setLeap v) = v ∧ ∀ j, j ≠ pid 7 0 14 → par (s.setLeap v) j = par s j := by
  have hch : Changes [.hw, .wd, .rtc] (s.storePar (pid 7 0 14) v) (s.setLeap v) := onRtc_ch (storeP0_ch (.refl _ _) rfl) rfl
  have hp (j : Nat) : par (s.setLeap v) j = par (s.storePar (pid 7 0 14) v) j := hch.par_eq rfl rfl rfl rfl j
  exact ⟨(hp _).trans (par_storePar_self ..), fun j hj => (hp j).trans (par_storePar_ne hj (by decide))⟩

theorem setLeap_utcOffset (s : State) (v : Nat) : utcOffset (s.setLeap v) = utcOffset s := by
  obtain ⟨-, h⟩ := setLeap_par s v
  rw [utcOffset, utcOffset, parS, parS, h 0x380D (by decide)]

end Sys2Proof.Machine
end

section
/-! THEOREMS. The servo's time-outs, leap seconds and the stored rate (R250, R251, R255, R258; O11). -/

namespace Sys2Proof.Machine

variable {s : State}

theorem execSourceTimeout_gives (h : s.te.servo = .acquire ∨ s.te.servo = .locked)
    (ha : s.after s.te.quietClk (par s (pid 7 0 8) * cycMs) = true) : Gives .sourceTimeout s fun t =>
      t.te.servo = .holdover ∧ t.te.f = s.te.f ∧ t.te.r = s.te.f ∧ t.te.cnt = s.te.cnt ∧ t.te.holdEst = teNs s ∧
      t.pw.stage = Nat.min s.pw.stage 3 ∧ bitAt t.lk.irq 8 = true ∧ t.rtc.cal = s.rtc.cal ∧
      (s.te.servo = .locked → t.rtc.following = false) ∧ (s.te.servo = .acquire → t.rtc = s.rtc) ∧
      t = { s with pw := t.pw, te := t.te, rtc := t.rtc, pr := t.pr, lk := t.lk, wd := t.wd, pm := t.pm, free := t.free } := by
  have he : exec .sourceTimeout s = .next (s.servoTo .holdover (s.te.offsetNs * 65536)) :=
    if_pos (by rcases h with h | h <;> rw [h, ha] <;> rfl)
  have hne : s.te.servo ≠ .holdover := by rcases h with h | h <;> rw [h] <;> decide
  obtain ⟨hch, hst, -⟩ := servoTo_of_unlocked (th := s.te.offsetNs * 65536) hne (by decide)
  have hte := servoTo_te (th := s.te.offsetNs * 65536) hne
  have hrtc := servoTo_rtc (th := s.te.offsetNs * 65536) hne
  refine ⟨_, he, ?_, ?_, ?_, ?_, ?_, hst, servoTo_irq hne, servoTo_cal .., fun hl => ?_, fun hq => ?_, hch.eq_pick⟩
  · rw [hte]; rfl
  · rw [hte]; rfl
  · rw [hte]; rfl
  · rw [hte]; rfl
  · rw [hte]; rfl
  · rw [hrtc, if_pos hl]; rfl
  · rw [hrtc, if_neg (by rw [hq]; decide)]

theorem execHoldoverLimit_gives (h : s.te.servo = .holdover)
    (ha : s.after s.te.lastAcceptClk (par s (pid 7 0 10) * cycS) = true) : Gives .holdoverLimit s fun t =>
      t.te.servo = .free ∧ t.te.f = s.te.f ∧ t.te.r = s.te.f ∧ t.te.cnt = s.te.cnt ∧
      t.pw.stage = Nat.min s.pw.stage 3 ∧ bitAt t.lk.irq 8 = true ∧
      t = { s with pw := t.pw, te := t.te, pr := t.pr, lk := t.lk, wd := t.wd, free := t.free } := by
  have he : exec .holdoverLimit s = .next (s.servoTo .free (s.te.offsetNs * 65536)) := if_pos (by rw [h, ha]; rfl)
  have hne : s.te.servo ≠ .free := by rw [h]; decide
  have hnl : s.te.servo ≠ .locked := by rw [h]; decide
  obtain ⟨hch, hst, hpm, -⟩ := servoTo_of_unlocked (th := s.te.offsetNs * 65536) hne (by decide)
  have hte := servoTo_te (th := s.te.offsetNs * 65536) hne
  have hrtc : (s.servoTo .free (s.te.offsetNs * 65536)).rtc = s.rtc := (servoTo_rtc hne).trans (if_neg hnl)
  have hch2 : Changes [.pw, .te, .pr, .lk, .wd, .free] s (s.servoTo .free (s.te.offsetNs * 65536)) :=
    ((hch.mono rfl (q := [.pm, .rtc, .pw, .te, .pr, .lk, .wd, .free])).drop (hpm hnl)).drop hrtc
  refine ⟨_, he, ?_, ?_, ?_, ?_, hst, servoTo_irq hne, hch2.eq_pick⟩
  · rw [hte]; rfl
  · rw [hte]; rfl
  · rw [hte]; rfl
  · rw [hte]; rfl

/-! ### Leap seconds (R251) -/

/-- The state that a leap second leaves. -/
def leaped (s : State) (v : Int) : State := ((s.onTe fun t => { t with leapClk := s.clk }).setUtc v).setLeap 4

theorem leaped_eq {v : Int} (h1 : -32768 ≤ v) (h2 : v ≤ 32767) : utcOffset (leaped s v) = v ∧ leapWord (leaped s v) = 4 ∧
    leaped s v = { s with pr := (leaped s v).pr, hw := (leaped s v).hw, wd := (leaped s v).wd, rtc := (leaped s v).rtc,
                          te := { s.te with leapClk := s.clk } } := by
  have hch : Changes [.pr, .hw, .wd, .rtc] (s.onTe fun t => { t with leapClk := s.clk }) (leaped s v) :=
    setLeap_ch (setUtc_ch (.refl _ _) rfl) rfl
  exact ⟨(setLeap_utcOffset _ _).trans (setUtc_utcOffset h1 h2), (setLeap_par _ _).1, hch.eq_pick⟩

theorem execLeapSecond_adds (h0 : bitAt (leapWord s) 0 = true) (hd : utcDaySecond s 1 = true) (hu : utcOffset s < 32767) :
    Gives .leapSecond s fun t => utcOffset t = utcOffset s + 1 ∧ leapWord t = 4 ∧
      t = { s with pr := t.pr, hw := t.hw, wd := t.wd, rtc := t.rtc, te := { s.te with leapClk := s.clk } } := by
  obtain ⟨hlo, -⟩ := utcOffset_bounds s
  have he : exec .leapSecond s = .next (leaped s (utcOffset s + 1)) :=
    (if_pos h0).trans (congrArg Host.Outcome.next (if_pos hd))
  exact ⟨_, he, leaped_eq (by omega) (by omega)⟩

theorem execLeapSecond_removes (h0 : bitAt (leapWord s) 0 = false) (h1 : bitAt (leapWord s) 1 = true)
    (hd : utcDaySecond s 86399 = true) (hu : -32768 < utcOffset s) :
    Gives .leapSecond s fun t => utcOffset t = utcOffset s - 1 ∧ leapWord t = 4 ∧
      t = { s with pr := t.pr, hw := t.hw, wd := t.wd, rtc := t.rtc, te := { s.te with leapClk := s.clk } } := by
  obtain ⟨-, hhi⟩ := utcOffset_bounds s
  have he : exec .leapSecond s = .next (leaped s (utcOffset s - 1)) :=
    (if_neg (by rw [h0]; exact Bool.false_ne_true)).trans ((if_pos h1).trans (congrArg Host.Outcome.next (if_pos hd)))
  exact ⟨_, he, leaped_eq (by omega) (by omega)⟩

theorem execLeapSecond_idle (h1 : bitAt (leapWord s) 0 = true → utcDaySecond s 1 = false)
    (h2 : bitAt (leapWord s) 0 = false → bitAt (leapWord s) 1 = true → utcDaySecond s 86399 = false) :
    exec .leapSecond s = .next s := by
  have he : exec .leapSecond s = execLeapSecond s := rfl
  rw [he, execLeapSecond]
  split
  next h => rw [h1 h, if_neg Bool.false_ne_true]
  next h =>
    split
    next h' => rw [h2 (Bool.eq_false_of_not_eq_true h) h', if_neg Bool.false_ne_true]
    next => rfl

theorem execLeapOccurredClear_gives (h2 : bitAt (leapWord s) 2 = true) (ha : s.after s.te.leapClk (86400 * cycS) = true) :
    Gives .leapOccurredClear s fun t => leapWord t = clrBit (leapWord s) 2 ∧ utcOffset t = utcOffset s ∧
      t = { s with pr := t.pr, hw := t.hw, wd := t.wd, rtc := t.rtc } := by
  have he : exec .leapOccurredClear s = .next (s.setLeap (clrBit (leapWord s) 2)) :=
    congrArg Host.Outcome.next (if_pos (by rw [h2, ha]; rfl))
  exact ⟨_, he, (setLeap_par _ _).1, setLeap_utcOffset _ _, (setLeap_ch (.refl [.rtc, .hw, .pr, .wd] s) rfl).eq_pick⟩

theorem execLastLockedRateStore_gives (hs : s.te.servo = .locked) (hr : s.wd.running = true)
    (ha : s.after s.te.storeClk (3600 * cycS) = true) : Gives .lastLockedRateStore s fun t =>
      t.te = { s.te with lastLocked := s.te.f, storeClk := s.clk } ∧
      keepsBytes s t [(0, 256), (pageAddr 0 deviceRec.2, 512)] ∧ t = { s with te := t.te, hw := t.hw, wd := t.wd } := by
  have he : exec .lastLockedRateStore s =
      .next (s.onTe fun t => { t with lastLocked := t.f, storeClk := s.clk }).storeDevice :=
    if_pos (by rw [hs, hr, ha]; rfl)
  have hm : (s.onTe fun t => { t with lastLocked := t.f, storeClk := s.clk }).hw.mem = s.hw.mem := rfl
  have hte : (s.onTe fun t => { t with lastLocked := t.f, storeClk := s.clk }).te =
      { s.te with lastLocked := s.te.f, storeClk := s.clk } := rfl
  have h1 : Changes [.te, .hw, .wd] s (s.onTe fun t => { t with lastLocked := t.f, storeClk := s.clk }) := onTe_ch (.refl _ s) rfl
  generalize (s.onTe fun t => { t with lastLocked := t.f, storeClk := s.clk }) = x at he hm hte h1
  have hch := storeDevice_ch (.refl [.hw, .wd] x) rfl
  exact ⟨_, he, (hch.te rfl).trans hte, keepsBytes_trans (keepsBytes_of_mem hm) (storeDevice_keepsBytes deviceRec_pair),
    (h1.trans (hch.mono rfl)).eq_pick⟩

/-- Settles O11: a change of the servo leaves counter and store alone, and a leap second is two stored members. -/
theorem servoTimeoutsAndLeapSeconds : Obligations.ServoTimeoutsAndLeapSeconds := fun _ =>
  ⟨execSourceTimeout_gives, execHoldoverLimit_gives, execLeapSecond_adds, execLeapSecond_removes, execLeapSecond_idle,
    execLeapOccurredClear_gives, execLastLockedRateStore_gives⟩

end Sys2Proof.Machine
end

section
/-! LEMMAS. Steps of the counter and offsets of the source: what they leave of the time engine and of the rest (R252 to R261). -/

namespace Sys2Proof.Machine

variable {s x : State} {n : Servo} {th delta : Int} {gm : Nat} {acquire : Bool}

/-- A servo that steers afresh or locks keeps rate and counter. -/
theorem servoTo_te_steering (hn : n = .acquire ∨ n = .locked) : ∃ once rate clk run, (s.servoTo n th).te =
    { s.te with servo := n, lockedOnce := once, lastLocked := rate, storeClk := clk, goodRun := run } := by
  by_cases h : s.te.servo = n
  · rw [servoTo_self h, ← h]
    exact ⟨_, _, _, _, rfl⟩
  · rw [servoTo_te h]
    rcases hn with rfl | rfl
    · exact ⟨_, _, _, _, rfl⟩
    · exact ⟨_, _, _, _, rfl⟩

/-- A servo that refuses an offset falls back to its integral rate. -/
theorem servoTo_te_refusing : ∃ once r, (s.servoTo .refused th).te =
    { s.te with servo := .refused, lockedOnce := once, r := r } := by
  by_cases h : s.te.servo = .refused
  · rw [servoTo_self h, ← h]
    exact ⟨_, _, rfl⟩
  · rw [servoTo_te h]
    exact ⟨_, _, rfl⟩

/-! ### Steps (R260, R261) -/

/-- The time engine after an accepted step, before the servo follows. -/
def stepTe (s : State) (delta : Int) (acquire : Bool) : TimeEng :=
  let new := ((s.te.cnt : Int) + delta).toNat
  let al := foldPhase (s.te.align + delta)
  { s.te with
    cnt := new, align := al, stepP := true, stepW := true, realigning := decide (655360 < al.natAbs),
    stepsAccepted := u32 (s.te.stepsAccepted + 1), jumpRefused := false, refusedRun := [], refusedNum := 0,
    goodRun := if acquire then 0 else s.te.goodRun,
    lastAcceptClk := if s.te.servo == .refused then s.clk else s.te.lastAcceptClk,
    notches := s.te.notches.map fun n => { n with stepMark := true },
    blazes := s.te.blazes.map fun b => b.jumped s.te.cnt new (countStep s).1 }

theorem acceptStep_eq (s : State) (delta : Int) (acquire : Bool) : ∃ x,
    s.acceptStep delta acquire = (if acquire then x.servoTo .acquire (s.te.offsetNs * 65536) else x) ∧
    x.te = stepTe s delta acquire ∧ Changes [.te, .wd, .seqs, .qu, .me, .pq, .pm, .free] s x := by
  unfold State.acceptStep
  extract_lets new al s1 s2 s3 s4
  have hm : Changes [.pm, .pq, .free] s ((s.pmuMissed s.now (Nat.max new s.now)).onPm fun p => { p with old := [] }).pqStep :=
    pqStep_ch (onPm_ch (pmuMissed_ch (.refl _ s) rfl) rfl) rfl
  have h1te : s1.te = stepTe s delta acquire := by
    show _ = stepTe s delta acquire
    unfold s1
    rw [onTe_te, hm.te rfl]
    rfl
  have h1 : Changes [.te, .wd, .seqs, .qu, .me, .pq, .pm, .free] s s1 := onTe_ch (hm.mono rfl) rfl
  clear_value s1
  have h2 : Changes [.qu, .me] s1 s2 := onMe_ch (onQu_ch (.refl _ _) rfl) rfl
  have h3 : Changes [.seqs] s2 s3 := ⟨fun p hp => by cases p <;> first | exact absurd (by decide) hp | rfl⟩
  clear_value s2 s3
  have h4 : Changes [.pq, .wd] s3 s4 := log_ch (pqSync_ch (.refl _ _) rfl) rfl
  clear_value s4
  refine ⟨s4, rfl, ?_, ((h1.trans (h2.mono rfl)).trans (h3.mono rfl)).trans (h4.mono rfl)⟩
  rw [h4.te rfl, h3.te rfl, h2.te rfl, h1te]

/-- A step leaves store and parameters alone. -/
theorem acceptStep_changes (s : State) (delta : Int) (acquire : Bool) :
    Changes [.pw, .te, .rtc, .lk, .wd, .seqs, .qu, .me, .pq, .pm, .free] s (s.acceptStep delta acquire) := by
  obtain ⟨x, he, -, hch⟩ := acceptStep_eq s delta acquire
  rw [he]
  cases acquire with
  | false => exact hch.mono rfl
  | true =>
    rw [if_pos rfl]
    by_cases h : x.te.servo = .acquire
    · rw [servoTo_self h]
      exact hch.mono rfl
    · obtain ⟨hs, -, -, hpr⟩ := servoTo_of_unlocked (th := s.te.offsetNs * 65536) h (by decide)
      have hd : Changes [.pw, .te, .rtc, .lk, .wd, .pm, .free] x (x.servoTo .acquire (s.te.offsetNs * 65536)) :=
        (hs.mono rfl (q := [.pr, .pw, .te, .rtc, .lk, .wd, .pm, .free])).drop (hpr (by decide) (by decide))
      exact (hch.mono rfl).trans (hd.mono rfl)

/-- The time engine after a step, the servo having followed. -/
theorem acceptStep_te (s : State) (delta : Int) (acquire : Bool) : ∃ once rate clk run, (s.acceptStep delta acquire).te =
    { stepTe s delta acquire with servo := if acquire then .acquire else s.te.servo, lockedOnce := once, lastLocked := rate
                                  storeClk := clk, goodRun := run } := by
  obtain ⟨x, he, hte, -⟩ := acceptStep_eq s delta acquire
  rw [he]
  cases acquire with
  | false =>
    rw [if_neg Bool.false_ne_true, hte]
    exact ⟨_, _, _, _, rfl⟩
  | true =>
    obtain ⟨once, rate, clk, run, h⟩ := servoTo_te_steering (s := x) (n := .acquire) (th := s.te.offsetNs * 65536) (.inl rfl)
    rw [if_pos rfl, h, hte]
    exact ⟨_, _, _, _, rfl⟩

/-- A step does not move the calendar. -/
theorem acceptStep_cal (s : State) (delta : Int) (acquire : Bool) : (s.acceptStep delta acquire).rtc.cal = s.rtc.cal := by
  obtain ⟨x, he, -, hch⟩ := acceptStep_eq s delta acquire
  have hx : x.rtc = s.rtc := hch.rtc rfl
  rw [he]
  cases acquire with
  | false => exact congrArg Rtc.cal hx
  | true => exact (servoTo_cal ..).trans (congrArg Rtc.cal hx)

theorem acceptStep_grows (s : State) (delta : Int) (acquire : Bool) : IrqGrows s (s.acceptStep delta acquire) := by
  obtain ⟨x, he, -, hch⟩ := acceptStep_eq s delta acquire
  have hx : IrqGrows s x := .of_lk (hch.lk rfl)
  rw [he]
  cases acquire with
  | false => exact hx
  | true => exact hx.trans (servoTo_grows x _ _)

/-! ### Offsets (R252 to R259) -/

theorem clampI_mem (l v : Int) (hl : 0 ≤ l) : -l ≤ clampI l v ∧ clampI l v ≤ l := by
  unfold clampI
  split
  · omega
  · split <;> omega

/-- An accepted offset: what the servo makes of it, and what it leaves of the time engine. -/
theorem goodOffset_te (s : State) (th : Int) (gm : Nat) (prev : Option Nat) :
    ∃ n f r ns recent once rate clk run, (n = .acquire ∨ n = .locked) ∧ -rateLimit ≤ r ∧ r ≤ rateLimit ∧
      (s.goodOffset th gm prev).te =
        { s.te with f := f, r := r, jumpRefused := false, refusedRun := [], refusedNum := 0, offsetNs := ns, gmLast := gm,
                    sourceChanged := false, lastAcceptClk := s.clk, recent := recent, servo := n, lockedOnce := once,
                    lastLocked := rate, storeClk := clk, goodRun := run } := by
  unfold State.goodOffset
  extract_lets same small base run0 n y kp ki two40 lim dt p f r ns s1 s2
  have hbase : base = .acquire ∨ base = .locked := by
    have hite (c : Bool) : (if c then Servo.locked else .acquire) = .acquire ∨ (if c then Servo.locked else .acquire) = .locked := by
      cases c
      · exact .inl rfl
      · exact .inr rfl
    unfold base
    split
    · exact hite _
    · exact hite _
    · exact hite _
    · exact .inl rfl
  have hn : n = .acquire ∨ n = .locked := by
    unfold n
    split
    · exact .inr rfl
    · exact hbase
  obtain ⟨hlo, hhi⟩ := clampI_mem rateLimit (quant s 1 ((f : Rat) + p * two40)) (by decide)
  obtain ⟨once, rate, clk, run, h⟩ := servoTo_te_steering (s := s1) (th := th) hn
  have h2 : s2.te = _ := h
  refine ⟨n, f, r, ns, (th.natAbs :: s.te.recent).take 16, once, rate, clk, run0, hn, hlo, hhi, ?_⟩
  rw [onTe_te, h2]
  rfl

theorem goodOffset_grows (s : State) (th : Int) (gm : Nat) (prev : Option Nat) : IrqGrows s (s.goodOffset th gm prev) := by
  unfold State.goodOffset
  extract_lets same small base run0 n y kp ki two40 lim dt p f r ns s1 s2
  exact servoTo_grows s1 n th

/-- A refused offset: REFUSED, counted and reported, with the counter left alone. -/
theorem refuseOffset_te (s : State) (th : Int) (gm : Nat) : ∃ us locked num once r, (s.refuseOffset th gm).te =
    { s.te with jumpRefused := true, refusedUs := us, stepsRefused := u32 (s.te.stepsRefused + 1),
                refusedRun := (th :: (if gm == s.te.refusedGm then s.te.refusedRun else [])).take 16, refusedGm := gm,
                refusedFromLocked := locked, refusedNum := num, goodRun := 0, servo := .refused, lockedOnce := once, r := r } := by
  unfold State.refuseOffset
  extract_lets us s1
  have hl : ((s1.irq 8).log 0x0702 (le 4 (ofSigned 32 us) ++ le 8 gm)).te = s1.te := (log_ch (.refl [.wd] _) rfl).te rfl
  obtain ⟨once, r, h⟩ := servoTo_te_refusing (s := (s1.irq 8).log 0x0702 (le 4 (ofSigned 32 us) ++ le 8 gm)) (th := th)
  rw [h, hl]
  exact ⟨_, _, _, once, r, rfl⟩

theorem refuseOffset_irq (s : State) (th : Int) (gm : Nat) :
    bitAt (s.refuseOffset th gm).lk.irq 8 = true ∧ IrqGrows s (s.refuseOffset th gm) := by
  unfold State.refuseOffset
  extract_lets us s1
  have h1 : IrqGrows (s1.irq 8) ((s1.irq 8).log 0x0702 (le 4 (ofSigned 32 us) ++ le 8 gm)) :=
    .of_lk ((log_ch (.refl [.wd] _) rfl).lk rfl)
  have h2 := h1.trans (servoTo_grows _ .refused th)
  exact ⟨h2 8 (bitAt_setBit_self _ _), .trans (.of_lk rfl) ((irq_grows s1 8).trans h2)⟩

/-- An offset noted, before it is judged: its parameters came into use, and it is the latest one. -/
def State.noted (s : State) (th : Int) (gm : Nat) : State :=
  (s.takeScheduled fun id => effOf id == .offset).onTe fun t =>
    { t with lastOffsetClk := some s.clk, quietClk := s.clk, gm := gm, latest := th.natAbs }

theorem noted_ch (s : State) (th : Int) (gm : Nat) : Changes [.pr, .te] s (s.noted th gm) :=
  onTe_ch (takeScheduled_ch (.refl _ s) rfl) rfl

/-- The offsets of one master in a row, refused up to now. -/
def runOf (u : State) (th : Int) (gm : Nat) : List Int := th :: (if gm = u.te.refusedGm then u.te.refusedRun else [])

/-- An offset beyond the limit becomes a step where the flags allow it and sixteen in a row agree (R260). -/
def allowsStep (u : State) (run : List Int) : Bool :=
  (bitAt (par u (pid 7 0 11)) 1 || (bitAt (par u (pid 7 0 11)) 0 && !u.te.lockedOnce)) &&
    16 ≤ run.length && consistent u (run.take 16)

theorem runOf_eq (u : State) (th : Int) (gm : Nat) :
    th :: (if gm == u.te.refusedGm then u.te.refusedRun else []) = runOf u th gm := by
  simp only [runOf, beq_iff_eq]

/-- What becomes of an offset (R252 to R260). -/
theorem offset_eq (s : State) (th : Int) (gm : Nat) : s.offset th gm =
    let u := s.takeScheduled fun id => effOf id == .offset
    if th.natAbs ≤ stepLimitTicks u then ((s.noted th gm).goodOffset th gm u.te.lastOffsetClk, false)
    else if allowsStep u (runOf u th gm) then
      (((s.noted th gm).acceptStep (-th) true).onTe fun t => { t with gmLast := gm, sourceChanged := false }, false)
    else ((s.noted th gm).refuseOffset th gm, true) := by
  dsimp only
  rw [← runOf_eq]
  rfl

/-- Whatever becomes of an offset, a bit of the interrupts that is set stays set. -/
theorem offset_grows (s : State) (th : Int) (gm : Nat) : IrqGrows s (s.offset th gm).1 := by
  have hn : IrqGrows s (s.noted th gm) := .of_lk ((noted_ch s th gm).lk rfl)
  rw [offset_eq]
  dsimp only
  split
  · exact hn.trans (goodOffset_grows _ th gm _)
  · split
    · exact hn.trans ((acceptStep_grows _ (-th) true).trans (IrqGrows.of_lk rfl))
    · exact hn.trans (refuseOffset_irq _ th gm).2

end Sys2Proof.Machine
end

section
/-! THEOREMS. Requests to the time engine, and the offsets of its source (R252 to R262, R266, R274; O12, O13). -/

namespace Sys2Proof.Machine

variable {s : State} {h : Hdr} {th : Int} {gm : Nat}

/-! ### Requests (R262, R266, R274) -/

theorem execTimeSet_answers {time : Nat} (ho : Opens opTimeSet h s) (hl : h.len = 12) (hk : locked (s.accepted h) = false)
    (ht : time80Ok time = true) (hp : par (s.accepted h) (pid 7 0 0) = 0 ∨ par (s.accepted h) (pid 7 0 0) = 2) :
    Answers (.timeSet h time) s opTimeSet h .ok fun v bs =>
      bs = zeros 2 ∧ v.te.cnt = timeSetTarget (s.accepted h) time ∧ v.te.stepP = true ∧ v.te.stepW = true ∧
      v.te.stepsAccepted = u32 ((s.accepted h).te.stepsAccepted + 1) ∧ v.te.jumpRefused = false ∧
      v.te.servo = (if (s.accepted h).te.servo = .free then .free else .acquire) ∧ v.rtc.cal = (s.accepted h).rtc.cal ∧
      v = { s.accepted h with pw := v.pw, te := v.te, rtc := v.rtc, lk := v.lk, wd := v.wd, seqs := v.seqs, qu := v.qu,
                              me := v.me, pq := v.pq, pm := v.pm, free := v.free } := by
  have hc : firstFail [(locked (s.accepted h), Status.locked), (!time80Ok time ||
      (par (s.accepted h) (pid 7 0 0) != 0 && par (s.accepted h) (pid 7 0 0) != 2), .valueRange)] = none := by
    rcases hp with hp | hp <;> simp [firstFail, hk, ht, hp]
  have he : exec (.timeSet h time) s = .next (((s.accepted h).acceptStep
      ((timeSetTarget (s.accepted h) time : Int) - ((s.accepted h).te.cnt : Int))
      ((s.accepted h).te.servo != .free)).replied opTimeSet h .ok (zeros 2)) :=
    congrArg Host.Outcome.next (serve_opens ho (beq_iff_eq.2 hl) hc)
  generalize s.accepted h = v at he ⊢
  generalize hd : (timeSetTarget v time : Int) - (v.te.cnt : Int) = d at he
  have hcnt : ((v.te.cnt : Int) + d).toNat = timeSetTarget v time := by omega
  obtain ⟨once, rate, clk, run, hte⟩ := acceptStep_te v d (v.te.servo != .free)
  have hch := acceptStep_changes v d (v.te.servo != .free)
  have hcal := acceptStep_cal v d (v.te.servo != .free)
  generalize v.acceptStep d (v.te.servo != .free) = w at he hte hch hcal
  refine ⟨w, _, he, rfl, ?_, ?_, ?_, ?_, ?_, ?_, hcal, hch.eq_pick⟩
  · rw [hte]; exact hcnt
  · rw [hte]; rfl
  · rw [hte]; rfl
  · rw [hte]; rfl
  · rw [hte]; rfl
  · rw [hte]
    by_cases hf : v.te.servo = .free <;> simp [hf]

theorem execTimeOffset_answers {off : Int} {meas : Nat} (ho : Opens opTimeOffset h s) (hl : h.len = 28)
    (hp : par (s.accepted h) (pid 7 0 0) = 3) (ht : time80Ok meas = true) (h1 : ofTime80 meas ≤ (s.accepted h).now)
    (h2 : (s.accepted h).now ≤ ofTime80 meas + 2 * tickSec) : exec (.timeOffset h off meas gm) s =
      .next (((s.accepted h).offset off gm).1.replied opTimeOffset h
        (if ((s.accepted h).offset off gm).2 then .stepRefused else .ok)
        (if ((s.accepted h).offset off gm).2 then zeros 2
          else le 1 ((s.accepted h).offset off gm).1.te.servo.code ++ zeros 1)) := by
  have hc : firstFail [(par (s.accepted h) (pid 7 0 0) != 3 || !time80Ok meas || (s.accepted h).now < ofTime80 meas ||
      ofTime80 meas + 2 * tickSec < (s.accepted h).now, Status.valueRange)] = none := by
    rw [hp, ht, decide_eq_false (Nat.not_lt.2 h1), decide_eq_false (Nat.not_lt.2 h2)]
    rfl
  refine (congrArg Host.Outcome.next (serve_opens ho (beq_iff_eq.2 hl) hc)).trans ?_
  generalize (s.accepted h).offset off gm = r
  obtain ⟨t, refused⟩ := r
  cases refused with
  | true => rfl
  | false => rfl

theorem execTimeAcceptStep_answers (ho : Opens opTimeAcceptStep h s) (hl : h.len = 0) (hk : locked (s.accepted h) = false)
    (hr : (s.accepted h).te.servo = .refused) : Answers (.timeAcceptStep h) s opTimeAcceptStep h .ok fun v bs =>
      v.te.cnt = (((s.accepted h).te.cnt : Int) - (s.accepted h).te.refusedRun.headD 0).toNat ∧
      v.te.servo = .acquire ∧ v.te.jumpRefused = false ∧ v.te.refusedRun = [] ∧
      bs = zeros 2 ++ le 8 (ofSigned 64 (roundAway (((-(s.accepted h).te.refusedRun.headD 0 : Int) : Rat) / 65536))) ∧
      v.rtc.cal = (s.accepted h).rtc.cal ∧
      v = { s.accepted h with pw := v.pw, te := v.te, rtc := v.rtc, lk := v.lk, wd := v.wd, seqs := v.seqs, qu := v.qu,
                              me := v.me, pq := v.pq, pm := v.pm, free := v.free } := by
  have hc : firstFail [(locked (s.accepted h), Status.locked), ((s.accepted h).te.servo != .refused, .valueRange)] = none := by
    rw [hk, hr]
    rfl
  have he : exec (.timeAcceptStep h) s = .next (((s.accepted h).acceptStep (-(s.accepted h).te.refusedRun.headD 0) true).replied
      opTimeAcceptStep h .ok
      (zeros 2 ++ le 8 (ofSigned 64 (roundAway (((-(s.accepted h).te.refusedRun.headD 0 : Int) : Rat) / 65536))))) :=
    congrArg Host.Outcome.next (serve_opens ho (beq_iff_eq.2 hl) hc)
  generalize s.accepted h = v at he ⊢
  generalize v.te.refusedRun.headD 0 = d at he ⊢
  obtain ⟨once, rate, clk, run, hte⟩ := acceptStep_te v (-d) true
  have hch := acceptStep_changes v (-d) true
  have hcal := acceptStep_cal v (-d) true
  generalize v.acceptStep (-d) true = w at he hte hch hcal
  refine ⟨w, _, he, ?_, ?_, ?_, ?_, rfl, hcal, hch.eq_pick⟩
  · rw [hte]
    exact congrArg Int.toNat Int.sub_eq_add_neg.symm
  · rw [hte]; rfl
  · rw [hte]; rfl
  · rw [hte]; rfl

theorem execTxtsRead_answers {max : Nat} (ho : Opens opTxtsRead h s) (hl : h.len = 4) (h1 : 1 ≤ max) (h16 : max ≤ 16) :
    Answers (.txtsRead h max) s opTxtsRead h .ok fun v bs =>
      v.te.txHost = (s.accepted h).te.txHost.drop max ∧
      bs = le 1 ((s.accepted h).te.txHost.take max).length ++ zeros 1 ++ le 4 (s.accepted h).te.txLostHost ++
        ((s.accepted h).te.txHost.take max).flatMap txBytes ∧
      v.te.txOvHost = ((s.accepted h).te.txOvHost && !v.te.txHost.isEmpty) ∧
      v = { s.accepted h with te := { (s.accepted h).te with txHost := v.te.txHost, txOvHost := v.te.txOvHost } } := by
  have hc : firstFail [(max == 0 || 16 < max, Status.valueRange)] = none := by
    simp [firstFail, Nat.one_le_iff_ne_zero.1 h1, h16]
  exact ⟨_, _, congrArg Host.Outcome.next (serve_opens ho (beq_iff_eq.2 hl) hc), rfl, rfl, rfl, rfl⟩

/-- Settles O12: a step of the counter is one operation, whichever request asks for it. -/
theorem timeRequestsAct : Obligations.TimeRequestsAct := fun _ _ =>
  ⟨fun ho hl => congrArg Host.Outcome.next (serve_opens ho (beq_iff_eq.2 hl) rfl), fun _ => execTimeSet_answers,
    fun _ _ _ => execTimeOffset_answers, execTimeAcceptStep_answers, fun _ => execTxtsRead_answers⟩

/-! ### Offsets (R252 to R260) -/

theorem offset_of_good (hl : th.natAbs ≤ stepLimitTicks (s.takeScheduled fun id => effOf id == .offset)) :
    (s.offset th gm).2 = false ∧ (s.offset th gm).1.te.cnt = s.te.cnt ∧ (s.offset th gm).1.te.gm = gm ∧
    (s.offset th gm).1.te.jumpRefused = false ∧ (s.offset th gm).1.te.refusedRun = [] ∧
    (s.offset th gm).1.te.lastAcceptClk = s.clk ∧
    ((s.offset th gm).1.te.servo = .acquire ∨ (s.offset th gm).1.te.servo = .locked) ∧
    -rateLimit ≤ (s.offset th gm).1.te.r ∧ (s.offset th gm).1.te.r ≤ rateLimit ∧
    Changes [.pw, .te, .rtc, .hw, .pr, .lk, .wd, .pm, .free] s (s.offset th gm).1 := by
  rw [offset_eq]
  dsimp only
  rw [if_pos hl]
  obtain ⟨n, f, r, ns, recent, once, rate, clk, run, hn, hlo, hhi, hte⟩ :=
    goodOffset_te (s.noted th gm) th gm (s.takeScheduled fun id => effOf id == .offset).te.lastOffsetClk
  have hch : Changes [.pw, .te, .rtc, .hw, .pr, .lk, .wd, .pm, .free] s ((s.noted th gm).goodOffset th gm
      (s.takeScheduled fun id => effOf id == .offset).te.lastOffsetClk) := goodOffset_ch ((noted_ch s th gm).mono rfl) rfl
  rw [hte]
  exact ⟨rfl, rfl, rfl, rfl, rfl, rfl, hn, hlo, hhi, hch⟩

theorem offset_of_refused (hl : stepLimitTicks (s.takeScheduled fun id => effOf id == .offset) < th.natAbs)
    (ha : allowsStep (s.takeScheduled fun id => effOf id == .offset)
      (runOf (s.takeScheduled fun id => effOf id == .offset) th gm) = false) :
    (s.offset th gm).2 = true ∧ (s.offset th gm).1.te.servo = .refused ∧ (s.offset th gm).1.te.cnt = s.te.cnt ∧
    (s.offset th gm).1.te.jumpRefused = true ∧ bitAt (s.offset th gm).1.lk.irq 8 = true ∧ (s.offset th gm).1.te.gm = gm ∧
    (s.offset th gm).1.te.stepsRefused = u32 (s.te.stepsRefused + 1) ∧
    (s.offset th gm).1.te.refusedRun = (runOf (s.takeScheduled fun id => effOf id == .offset) th gm).take 16 ∧
    Changes [.pw, .te, .rtc, .hw, .pr, .lk, .wd, .pm, .free] s (s.offset th gm).1 := by
  rw [offset_eq]
  dsimp only
  rw [if_neg (Nat.not_le.2 hl), ha, if_neg Bool.false_ne_true]
  obtain ⟨us, locked, num, once, r, hte⟩ := refuseOffset_te (s.noted th gm) th gm
  have hch : Changes [.pw, .te, .rtc, .hw, .pr, .lk, .wd, .pm, .free] s ((s.noted th gm).refuseOffset th gm) :=
    refuseOffset_ch ((noted_ch s th gm).mono rfl) rfl
  have hirq := (refuseOffset_irq (s.noted th gm) th gm).1
  rw [hte]
  exact ⟨rfl, rfl, rfl, rfl, hirq, rfl, rfl, congrArg (List.take 16) (runOf_eq _ th gm), hch⟩

theorem offset_of_step (hl : stepLimitTicks (s.takeScheduled fun id => effOf id == .offset) < th.natAbs)
    (ha : allowsStep (s.takeScheduled fun id => effOf id == .offset)
      (runOf (s.takeScheduled fun id => effOf id == .offset) th gm) = true) :
    (s.offset th gm).2 = false ∧ (s.offset th gm).1.te.servo = .acquire ∧
    (s.offset th gm).1.te.cnt = ((s.te.cnt : Int) - th).toNat ∧
    (s.offset th gm).1.te.gm = gm ∧ (s.offset th gm).1.te.stepsAccepted = u32 (s.te.stepsAccepted + 1) := by
  rw [offset_eq]
  dsimp only
  rw [if_neg (Nat.not_le.2 hl), ha, if_pos rfl]
  obtain ⟨once, rate, clk, run, hte⟩ := acceptStep_te (s.noted th gm) (-th) true
  rw [onTe_te, hte]
  exact ⟨rfl, rfl, congrArg Int.toNat Int.sub_eq_add_neg.symm, rfl, rfl⟩

/-- Settles O13: an offset is good, refused or a step, and each of the three leaves the time engine in one form. -/
theorem offsetsSteerOrAreRefused : Obligations.OffsetsSteerOrAreRefused := by
  intro s th gm u fl run only
  refine ⟨fun hl => ?_, fun hl ha => ?_, offset_of_step⟩
  · obtain ⟨h1, h2, h3, h4, h5, h6, h7, h8, h9, hch⟩ := offset_of_good (gm := gm) hl
    exact ⟨h1, h2, h3, h4, h5, h6, h7, h8, h9, hch.eq_pick⟩
  · obtain ⟨h1, h2, h3, h4, h5, h6, h7, h8, hch⟩ := offset_of_refused hl ha
    exact ⟨h1, h2, h3, h4, h5, h6, h7, h8, hch.eq_pick⟩

end Sys2Proof.Machine
end

section
/-! THEOREMS. Blaze outputs and notch inputs (R267 to R274; O14). -/

namespace Sys2Proof.Machine

variable {s t x : State} {h : Hdr} {k : Nat}

/-! ### Blazes (R267 to R270) -/

theorem onBlaze_self {f : Blaze → Blaze} (hk : k < s.te.blazes.length) : (s.onBlaze k f).blaze k = f (s.blaze k) :=
  modAt_getD_self _ _ _ _ hk

theorem onBlaze_ne {f : Blaze → Blaze} {j : Nat} (hj : j ≠ k) : (s.onBlaze k f).blaze j = s.blaze j := modAt_getD_ne _ _ _ _ _ hj

theorem blazeChecks_pass {index flags start : Nat} (hk : locked s = false) (hi : index ≤ 7) (hf : flags ≤ 3)
    (ht : time80Ok start = true) (l : List (Bool × Status)) :
    firstFail (blazeChecks s index false flags start ++ l) = firstFail l := by
  rw [blazeChecks, hk, ht, decide_eq_false (Nat.not_lt.2 hi), decide_eq_false (Nat.not_lt.2 hf)]
  rfl

theorem execBlazeArm_answers {index flags start period width count : Nat} (ho : Opens opBlazeArm h s) (hl : h.len = 32)
    (hk : locked (s.accepted h) = false) (hi : index ≤ 7) (hf : flags ≤ 3) (ht : time80Ok start = true)
    (hpast : period = 0 → bitAt flags 0 = true ∨ (s.accepted h).now ≤ ofTime80 start)
    (hper : period ≠ 0 → 100 ≤ period ∧ period ≤ 86400000000000 ∧ width + 10 ≤ period) (hw : 10 ≤ width)
    (hw2 : width ≤ 4294967295) : exec (.blazeArm h index false flags start period width count) s =
      .next (((s.accepted h).onBlaze index fun b => armBlaze b flags start period width count (s.accepted h).now
        (countStep (s.accepted h)).1).replied
        opBlazeArm h .ok (blazeReply (((s.accepted h).onBlaze index fun b =>
          armBlaze b flags start period width count (s.accepted h).now (countStep (s.accepted h)).1).blaze index))) := by
  have h1 : (period == 0 && !bitAt flags 0 && decide (ofTime80 start < (s.accepted h).now)) = false := by
    by_cases hp : period = 0
    · rcases hpast hp with hb | hb
      · rw [hb, Bool.not_true, Bool.and_false, Bool.false_and]
      · rw [decide_eq_false (Nat.not_lt.2 hb), Bool.and_false]
    · rw [beq_false_of_ne hp, Bool.false_and, Bool.false_and]
  have h2 : (period != 0 && (decide (period < 100) || decide (86400000000000 < period))) = false ∧
      (decide (width < 10) || decide (4294967295 < width) || (period != 0 && decide (period < width + 10))) = false := by
    rw [decide_eq_false (Nat.not_lt.2 hw), decide_eq_false (Nat.not_lt.2 hw2)]
    by_cases hp : period = 0
    · rw [hp]
      exact ⟨rfl, rfl⟩
    · obtain ⟨a, b, c⟩ := hper hp
      rw [decide_eq_false (Nat.not_lt.2 a), decide_eq_false (Nat.not_lt.2 b), decide_eq_false (Nat.not_lt.2 c)]
      simp
  obtain ⟨h2, h3⟩ := h2
  refine congrArg Host.Outcome.next (serve_opens ho (beq_iff_eq.2 hl) ?_)
  rw [blazeChecks_pass hk hi hf ht, h1, h2, h3]
  rfl

theorem execBlazeDisarm_answers {index flags start : Nat} (ho : Opens opBlazeArm h s) (hl : h.len = 32)
    (hk : locked (s.accepted h) = false) (hi : index ≤ 7) (hf : flags ≤ 3) (ht : time80Ok start = true) :
    exec (.blazeDisarm h index flags start) s =
      .next (((s.accepted h).onBlaze index fun b => { b with armed := false, next := 0 }).replied opBlazeArm h .ok
        (blazeReply (((s.accepted h).onBlaze index fun b => { b with armed := false, next := 0 }).blaze index))) := by
  refine congrArg Host.Outcome.next (serve_opens ho (beq_iff_eq.2 hl) ?_)
  rw [← List.append_nil (blazeChecks _ _ _ _ _), blazeChecks_pass hk hi hf ht]
  rfl

/-- A pulse of an output begins. -/
def Blaze.pulsed (b : Blaze) : Blaze :=
  let c := { b with pulse := true, pulseEnd := b.next + b.width * 65536, edges := u32 (b.edges + 1) }
  { c with next := if c.last then 0 else b.next + b.period * 65536 }

theorem pulsed_next (b : Blaze) : b.pulsed.next = if b.period = 0 ∨ (b.count ≠ 0 ∧ b.count ≤ u32 (b.edges + 1)) then 0
    else b.next + b.period * 65536 := by
  have hl : ∀ e, ({ b with pulse := true, pulseEnd := e, edges := u32 (b.edges + 1) } : Blaze).last = true ↔
      b.period = 0 ∨ (b.count ≠ 0 ∧ b.count ≤ u32 (b.edges + 1)) := fun e => by simp [Blaze.last]
  simp only [Blaze.pulsed, hl]

theorem execBlazeEdge_pulses (k : Fin 8) (hl : s.te.blazes.length = 8) (ha : (s.blaze k).armed = true) (hn : (s.blaze k).next ≠ 0)
    (hc : (s.blaze k).next ≤ s.te.cnt) : Gives (.blazeEdge k) s fun t =>
      t.blaze k = { s.blaze k with pulse := true, pulseEnd := (s.blaze k).next + (s.blaze k).width * 65536,
                                   edges := u32 ((s.blaze k).edges + 1), next := (t.blaze k).next } ∧
      (t.blaze k).next = (if (s.blaze k).period = 0 ∨
          ((s.blaze k).count ≠ 0 ∧ (s.blaze k).count ≤ u32 ((s.blaze k).edges + 1)) then 0
        else (s.blaze k).next + (s.blaze k).period * 65536) ∧
      (∀ j, j ≠ k.val → t.blaze j = s.blaze j) ∧ t = { s with te := { s.te with blazes := t.te.blazes } } := by
  have he : exec (.blazeEdge k) s = .next (s.onBlaze k Blaze.pulsed) := if_pos (by simp [ha, hn, hc])
  have hk : (s.onBlaze k Blaze.pulsed).blaze k = (s.blaze k).pulsed := onBlaze_self (by omega)
  refine ⟨_, he, ?_, ?_, fun _ => onBlaze_ne, rfl⟩
  · rw [hk]; rfl
  · rw [hk, pulsed_next]

theorem execBlazePulseEnd_ends (k : Fin 8) (hl : s.te.blazes.length = 8) (hp : (s.blaze k).pulse = true)
    (hc : (s.blaze k).pulseEnd ≤ s.te.cnt) : Gives (.blazePulseEnd k) s fun t =>
      ((s.blaze k).armed = true → (s.blaze k).last = true → (s.blaze k).next = 0 →
        t.blaze k = { s.blaze k with pulse := false, armed := false, done := true }) ∧
      ((s.blaze k).armed = false ∨ (s.blaze k).last = false ∨ (s.blaze k).next ≠ 0 →
        t.blaze k = { s.blaze k with pulse := false }) ∧
      (∀ j, j ≠ k.val → t.blaze j = s.blaze j) ∧ t = { s with te := { s.te with blazes := t.te.blazes } } := by
  refine ⟨_, rfl, fun ha hlast hn => ?_, fun hx => ?_, fun _ => onBlaze_ne, rfl⟩
  · rw [onBlaze_self (by omega), if_pos (by simp [hp, hc]), if_pos (by simp [ha, hlast, hn])]
  · rw [onBlaze_self (by omega), if_pos (by simp [hp, hc]), if_neg]
    rcases hx with hx | hx | hx <;> simp [hx]

/-! ### Notches (R271 to R274) -/

theorem onNotch_self {f : Notch → Notch} (hk : k < s.te.notches.length) : (s.onNotch k f).notch k = f (s.notch k) :=
  modAt_getD_self _ _ _ _ hk

theorem onNotch_ne {f : Notch → Notch} {j : Nat} (hj : j ≠ k) : (s.onNotch k f).notch j = s.notch j := modAt_getD_ne _ _ _ _ _ hj

/-- From `s` to `t` the notches at most took the mark of a step of the counter. -/
def NotchesMarked (s t : State) : Prop := ∀ j, t.notch j = s.notch j ∨ t.notch j = { s.notch j with stepMark := true }

theorem NotchesMarked.of_notches (h : t.te.notches = s.te.notches) : NotchesMarked s t := fun j => .inl (by
  rw [State.notch, h, State.notch])

theorem NotchesMarked.of_mapped (h : t.te.notches = s.te.notches.map fun n => { n with stepMark := true }) : NotchesMarked s t := by
  intro j
  rw [State.notch, h, State.notch, List.getD_eq_getElem?_getD, List.getD_eq_getElem?_getD, List.getElem?_map]
  cases s.te.notches[j]? with
  | none => exact .inl rfl
  | some n => exact .inr rfl

theorem offset_notches (s : State) (th : Int) (gm : Nat) : NotchesMarked s (s.offset th gm).1 := by
  rw [offset_eq]
  dsimp only
  split
  · obtain ⟨n, f, r, ns, recent, once, rate, clk, run, -, -, -, hte⟩ :=
      goodOffset_te (s.noted th gm) th gm (s.takeScheduled fun id => effOf id == .offset).te.lastOffsetClk
    exact .of_notches (by rw [hte]; rfl)
  · split
    · obtain ⟨once, rate, clk, run, hte⟩ := acceptStep_te (s.noted th gm) (-th) true
      exact .of_mapped (by rw [onTe_te, hte]; rfl)
    · obtain ⟨us, locked, num, once, r, hte⟩ := refuseOffset_te (s.noted th gm) th gm
      exact .of_notches (by rw [hte]; rfl)

/-- The PPS offset of a capture touches the notches' marks alone. -/
theorem ppsOffset_notches (s : State) (t : Int) : NotchesMarked s (s.ppsOffset t) ∧ IrqGrows s (s.ppsOffset t) := by
  unfold State.ppsOffset
  extract_lets v x n
  split
  · have hn := offset_notches (v.onTe fun e => { e with ppsSecond := some n.toNat }) (x - n * tickSec) 0
    have hg := offset_grows (v.onTe fun e => { e with ppsSecond := some n.toNat }) (x - n * tickSec) 0
    exact ⟨fun j => hn j, fun b hb => hg b hb⟩
  · exact ⟨.of_notches rfl, .of_lk rfl⟩

/-- A capture raises the notch interrupt where it is configured. -/
def State.notchIrq (s : State) (cfg : Nat) : State := if bitAt cfg 2 then s.irq 9 else s

/-- An edge that counts is captured, raises the interrupt where configured, and triggers sequencers. -/
def captured (s : State) (k : Nat) (t : Int) (rising : Bool) : State :=
  (((s.onNotch k fun n => { n with level := rising }).onNotch k fun n => n.capture t.toNat rising).notchIrq
    (par s (pid 25 k 0))).seqTriggerAll 1 k t.toNat

theorem captured_eq (s : State) (k : Nat) (t : Int) (rising : Bool) :
    Changes [.te, .lk, .wd, .chans, .stands, .seqs, .units] s (captured s k t rising) ∧
    (captured s k t rising).te = { s.te with
      notches := modAt (modAt s.te.notches k fun n => { n with level := rising }) k fun n => n.capture t.toNat rising } ∧
    (bitAt (par s (pid 25 k 0)) 2 = true → bitAt (captured s k t rising).lk.irq 9 = true) := by
  unfold captured State.notchIrq
  have h1 : Changes [.te, .lk, .wd, .chans, .stands, .seqs, .units] s
      ((s.onNotch k fun n => { n with level := rising }).onNotch k fun n => n.capture t.toNat rising) :=
    (onTe_ch (.refl _ s) rfl).trans (onTe_ch (.refl _ _) rfl)
  have hte : ((s.onNotch k fun n => { n with level := rising }).onNotch k fun n => n.capture t.toNat rising).te = { s.te with
      notches := modAt (modAt s.te.notches k fun n => { n with level := rising }) k fun n => n.capture t.toNat rising } := rfl
  generalize (s.onNotch k fun n => { n with level := rising }).onNotch k (fun n => n.capture t.toNat rising) = x at h1 hte
  have h2 := seqTriggerAll_ch (source := 1) (index := k) (t := t.toNat) (.refl [.wd, .chans, .stands, .seqs, .units]
    (if bitAt (par s (pid 25 k 0)) 2 then x.irq 9 else x)) rfl
  have h3 : Changes [.te, .lk, .wd, .chans, .stands, .seqs, .units] s (if bitAt (par s (pid 25 k 0)) 2 then x.irq 9 else x) :=
    ch_ite (fun _ => irq_ch h1 rfl) fun _ => h1
  refine ⟨h3.trans (h2.mono rfl), ?_, fun hb => ?_⟩
  · rw [h2.te rfl, ← hte]
    split <;> rfl
  · rw [h2.lk rfl, if_pos hb]
    exact bitAt_setBit_self _ _

theorem execNotchCapture_of_counts {k : Fin 8} {time : Nat} {rising : Bool} {held : Nat} (hr : s.te.running = true)
    (he : edgeSelected (par s (pid 25 k 0)) rising = true) (hh : par s (pid 25 k 1) ≤ held) :
    exec (.notchCapture k time rising held) s =
      .next (if k.val == 0 then (captured s k ((time : Int) - parS s 32 (pid 25 k 2) * 65536) rising).ppsOffset
          ((time : Int) - parS s 32 (pid 25 k 2) * 65536)
        else captured s k ((time : Int) - parS s 32 (pid 25 k 2) * 65536) rising) :=
  if_pos (by simp [hr, edgeCounts, he, hh])

theorem execNotchCapture_captures (k : Fin 8) {time : Nat} {rising : Bool} {held : Nat} (hl : s.te.notches.length = 8)
    (hr : s.te.running = true) (hsel : edgeSelected (par s (pid 25 k 0)) rising = true) (hh : par s (pid 25 k 1) ≤ held) :
    Gives (.notchCapture k time rising held) s fun t =>
      (t.notch k).level = rising ∧ (t.notch k).count = u32 ((s.notch k).count + 1) ∧
      (t.notch k).fifo = (if (s.notch k).fifo.length < 8 then (s.notch k).fifo ++
          [⟨((time : Int) - parS s 32 (pid 25 k 2) * 65536).toNat, rising, (s.notch k).stepMark⟩]
        else (s.notch k).fifo) ∧
      (t.notch k).lost = (if (s.notch k).fifo.length < 8 then (s.notch k).lost else u32 ((s.notch k).lost + 1)) ∧
      (∀ j, j ≠ k.val → (t.notch j).fifo = (s.notch j).fifo) ∧
      (bitAt (par s (pid 25 k 0)) 2 = true → bitAt t.lk.irq 9 = true) ∧
      (k ≠ 0 → t = { s with te := { s.te with notches := t.te.notches }, lk := t.lk, wd := t.wd, chans := t.chans,
                            stands := t.stands, seqs := t.seqs, units := t.units }) ∧
      t = { s with pw := t.pw, te := t.te, rtc := t.rtc, hw := t.hw, pr := t.pr, lk := t.lk, wd := t.wd, chans := t.chans,
                   stands := t.stands, seqs := t.seqs, qu := t.qu, units := t.units, me := t.me, pq := t.pq, pm := t.pm,
                   free := t.free } := by
  have he := execNotchCapture_of_counts (time := time) hr hsel hh
  generalize ((time : Int) - parS s 32 (pid 25 k 2) * 65536) = c at he ⊢
  obtain ⟨hch, hte, hirq⟩ := captured_eq s k c rising
  have hk1 : (captured s k c rising).notch k = ({ s.notch k with level := rising } : Notch).capture c.toNat rising := by
    rw [State.notch, hte]
    have hk : (k : Nat) < s.te.notches.length := by omega
    exact (modAt_getD_self _ _ _ _ (by rw [modAt, List.length_modify]; exact hk)).trans
      (congrArg (fun n : Notch => n.capture c.toNat rising) (modAt_getD_self _ _ _ _ hk))
  have hj1 (j : Nat) (hj : j ≠ k) : (captured s k c rising).notch j = s.notch j := by
    rw [State.notch, hte]
    exact (modAt_getD_ne _ _ _ _ _ hj).trans (modAt_getD_ne _ _ _ _ _ hj)
  have hte' : (captured s k c rising).te = { s.te with notches := (captured s k c rising).te.notches } := by rw [hte]
  generalize captured s k c rising = x at he hch hirq hk1 hj1 hte'
  have hend : ∃ t, exec (.notchCapture k time rising held) s = .next t ∧ NotchesMarked x t ∧ IrqGrows x t ∧ (k ≠ 0 → t = x) ∧
      Changes [.pw, .te, .rtc, .hw, .pr, .lk, .wd, .chans, .stands, .seqs, .qu, .units, .me, .pq, .pm, .free] s t := by
    by_cases h0 : k.val = 0
    · rw [if_pos (by simpa using h0)] at he
      obtain ⟨hn, hg⟩ := ppsOffset_notches x c
      exact ⟨_, he, hn, hg, fun hk0 => absurd (Fin.ext h0) hk0, ppsOffset_ch (hch.mono rfl) rfl⟩
    · rw [if_neg (by simpa using h0)] at he
      exact ⟨_, he, .of_notches rfl, .of_lk rfl, fun _ => rfl, hch.mono rfl⟩
  obtain ⟨t, het, hn, hg, ht0, htc⟩ := hend
  have hnk : (t.notch k).level = rising ∧ (t.notch k).count = u32 ((s.notch k).count + 1) ∧
      (t.notch k).fifo = (if (s.notch k).fifo.length < 8 then (s.notch k).fifo ++ [⟨c.toNat, rising, (s.notch k).stepMark⟩]
        else (s.notch k).fifo) ∧
      (t.notch k).lost = (if (s.notch k).fifo.length < 8 then (s.notch k).lost else u32 ((s.notch k).lost + 1)) := by
    have hcap : ∀ n : Notch, (n.capture c.toNat rising).level = n.level ∧ (n.capture c.toNat rising).count = u32 (n.count + 1) ∧
        (n.capture c.toNat rising).fifo = (if n.fifo.length < 8 then n.fifo ++ [⟨c.toNat, rising, n.stepMark⟩] else n.fifo) ∧
        (n.capture c.toNat rising).lost = (if n.fifo.length < 8 then n.lost else u32 (n.lost + 1)) := fun n => by
      unfold Notch.capture
      dsimp only
      split <;> exact ⟨rfl, rfl, rfl, rfl⟩
    rcases hn k with h | h <;> rw [h, hk1] <;> exact hcap { s.notch k with level := rising }
  obtain ⟨hlev, hcnt, hfifo, hlost⟩ := hnk
  refine ⟨t, het, hlev, hcnt, hfifo, hlost, fun j hj => ?_, fun hb => hg 9 (hirq hb), fun h0 => ?_, htc.eq_pick⟩
  · rcases hn j with h | h <;> rw [h, hj1 j hj]
  · rw [ht0 h0, ← hte']
    exact hch.eq_pick

theorem execNotchCapture_of_uncounted (k : Fin 8) {time : Nat} {rising : Bool} {held : Nat}
    (hx : edgeSelected (par s (pid 25 k 0)) rising = false ∨ held < par s (pid 25 k 1) ∨ s.te.running = false) :
    exec (.notchCapture k time rising held) s = .next (s.onNotch k fun n => { n with level := rising }) := by
  refine if_neg ?_
  rcases hx with hx | hx | hx
  · simp [edgeCounts, hx]
  · simp [edgeCounts, Nat.not_le.2 hx]
  · simp [hx]

theorem execNotchRead_answers {index max : Nat} (ho : Opens opNotchRead h s) (hl : h.len = 4) (hi : index ≤ 7) (h1 : 1 ≤ max)
    (h8 : max ≤ 8) (hn : s.te.notches.length = 8) : Answers (.notchRead h index max) s opNotchRead h .ok fun v bs =>
      (v.notch index).fifo = (s.notch index).fifo.drop max ∧ (∀ j, j ≠ index → v.notch j = s.notch j) ∧
      bs = le 1 ((s.notch index).fifo.take max).length ++ zeros 1 ++ le 4 (s.notch index).lost ++
        ((s.notch index).fifo.take max).flatMap notchBytes ∧
      v = { s.accepted h with te := { (s.accepted h).te with notches := v.te.notches } } := by
  have hc : firstFail [(decide (7 < index), Status.valueRange), (max == 0 || decide (8 < max), .valueRange)] = none := by
    rw [decide_eq_false (Nat.not_lt.2 hi), decide_eq_false (Nat.not_lt.2 h8), beq_false_of_ne (by omega)]
    rfl
  have ha (j : Nat) : (s.accepted h).notch j = s.notch j := by rw [State.notch, accepted_te, State.notch]
  have hlen : (s.accepted h).te.notches.length = 8 := by rw [accepted_te, hn]
  refine ⟨_, _, congrArg Host.Outcome.next (serve_opens ho (beq_iff_eq.2 hl) hc), ?_, fun j hj => ?_, ?_, rfl⟩
  · dsimp only
    rw [onNotch_self (by omega), ha]
  · exact (onNotch_ne hj).trans (ha j)
  · dsimp only
    rw [ha]

/-- Settles O14: a blaze and a notch are one entry of a list each, and a PPS offset leaves of the notches all but their marks. -/
theorem blazesAndNotches : Obligations.BlazesAndNotches := fun _ =>
  ⟨fun _ _ _ _ _ _ _ => execBlazeArm_answers, fun _ _ _ _ => execBlazeDisarm_answers, execBlazeEdge_pulses, execBlazePulseEnd_ends,
    fun k _ _ _ => execNotchCapture_captures k, fun k _ _ _ => execNotchCapture_of_uncounted k, fun _ _ _ => execNotchRead_answers⟩

end Sys2Proof.Machine
end
section
/-! THEOREMS. A second COMMIT_PARAMS that comes while the first one waits first brings the first one's instant (R22, R328; O48). -/

namespace Sys2Proof.Machine

variable {s : State} {c h : Hdr}

/-- A COMMIT_PARAMS that the interpreter accepts after the instant of an earlier one. -/
theorem execCommitParams_of_waiting (hc : s.pr.committing = some c) (hg : commitGoes (s.finishCommit c) h = true) :
    exec (.commitParams h) s = .next (((s.finishCommit c).accepted h).onPr fun p => { p with committing := some h }) := by
  have he : exec (.commitParams h) s = execCommitParams h s := rfl
  rw [he, execCommitParams, settled_of_committing hc, if_pos hg]
  rfl

/-- A commit that a check refuses at its instant is counted as refused. -/
theorem finishCommit_refused {st : Status} {i : Nat}
    (hf : commitFail (s.onPr fun p => { p with committing := none }) c = some (st, i)) (hr : st.refused = true) :
    (s.finishCommit c).lk.cmdRefused = s.lk.cmdRefused + 1 := by
  unfold State.finishCommit
  extract_lets x
  rw [hf]
  exact (answer_counts hr).1

/-- A COMMIT_PARAMS of a path. -/
def commitRequest (p : Path) : Hdr := ⟨p, 1, false, false, 0, false, none⟩

/-- At stage 3 the host has a write session on P2 and no console is attached; a value of CHAN_CAL is pending, and a COMMIT_PARAMS of
the console, which has no session any more, waits for its instant. -/
def orphanedCommit : State := { State.reset with
  pw := { Power.reset with stage := 3, pfail := false, pfailReleased := true }
  wd := { Warden.reset with running := true, canopyRunning := true }
  se := { Sess.reset with open_ := [⟨2, true, .host⟩] }
  pr := { Params.reset with pending := [(pid 17 0 0, 2 ^ 30)], committing := some (commitRequest .console) } }

/-- Refutes O48: where a COMMIT_PARAMS is accepted while an earlier one waits, the earlier one's instant comes first (R22, R328); here
that one is refused and counted, and the statement, which does not ask that none waits, leaves the count as it was. -/
theorem not_parametersAreReadStagedAndCommitted : ¬ Obligations.ParametersAreReadStagedAndCommitted := by
  intro hall
  obtain ⟨-, -, -, -, -, -, -, -, hgoes, -⟩ := hall orphanedCommit
  have hfree {t : State} (ht : t.lk.ctrlOut = []) : streamFull t (commitRequest .host) = false := by
    simp [streamFull, commitRequest, ht, outBytes]
  have hone : commitGoes orphanedCommit (commitRequest .host) = true := by
    rw [commitGoes, hfree rfl]
    decide +kernel
  have htwo : commitGoes (orphanedCommit.finishCommit (commitRequest .console)) (commitRequest .host) = true := by
    rw [commitGoes, hfree (by decide +kernel)]
    decide +kernel
  have hfail : commitFail (orphanedCommit.onPr fun p => { p with committing := none }) (commitRequest .console) =
      some (.authFail, pid 17 0 0) := by decide +kernel
  have hcount := finishCommit_refused hfail rfl
  have heq := Host.Outcome.next.inj ((execCommitParams_of_waiting rfl htwo).symm.trans (hgoes _ hone))
  have hsame : (orphanedCommit.finishCommit (commitRequest .console)).lk.cmdRefused = orphanedCommit.lk.cmdRefused :=
    congrArg (fun t => t.lk.cmdRefused) heq
  omega

end Sys2Proof.Machine
end
section
/-! LEMMAS. A commit and the keeping of sets leave Pioneer's totals and a checkpoint in progress as they are (R328, R343, R346). -/

namespace Sys2Proof.Machine

variable {s t u : State} {q : List Part}

/-! ### The record layer leaves a checkpoint in progress -/

theorem sense_ckpt (s : State) (a n : Nat) : (s.sense a n).hw.ckpt = s.hw.ckpt := by
  unfold State.sense
  refine List.foldlRecOn (motive := fun x : State => x.hw.ckpt = s.hw.ckpt) _ _ rfl fun x h f _ => ?_
  unfold State.senseFlip State.uncorrectable
  split
  · rw [log_hw]; exact h
  · rw [log_hw]; exact h

theorem pageWrite_ckpt (s : State) (part page : Nat) (bs : List Byte) :
    (s.pageWrite part page bs).hw.ckpt = s.hw.ckpt := rfl

theorem fixRecord_ckpt (s : State) (part : Nat) (e : Nat × Nat) : (s.fixRecord part e).hw.ckpt = s.hw.ckpt := by
  unfold State.fixRecord State.recordFix
  split
  · rfl
  · extract_lets s1
    have h1 : s1.hw.ckpt = s.hw.ckpt := sense_ckpt ..
    split
    · split
      · rw [log_hw]; exact h1
      · exact h1
    · exact h1
    · exact h1
    · rw [log_hw]; exact h1

theorem recordPut_ckpt (s : State) (part : Nat) (e : Nat × Nat) (flags seq : Nat) (bs : List Byte) :
    (s.recordPut part e flags seq bs).1.hw.ckpt = s.hw.ckpt := by
  unfold State.recordPut
  extract_lets page put good s1 s2
  have hput (x : State) : (put x).hw.ckpt = x.hw.ckpt := by
    rw [sense_ckpt, pageWrite_ckpt]
  have h2 : s2.hw.ckpt = s.hw.ckpt := (hput s1).trans (hput s)
  split
  · exact hput s
  · split
    · exact h2
    · rw [log_hw]; exact h2

theorem itemPut_ckpt (s : State) (part : Nat) (es : List (Nat × Nat)) (bs : List Byte) :
    (s.itemPut part es bs).1.hw.ckpt = s.hw.ckpt := by
  unfold State.itemPut
  extract_lets s1 q
  have h1 : s1.hw.ckpt = s.hw.ckpt :=
    List.foldlRecOn (motive := fun x : State => x.hw.ckpt = s.hw.ckpt) _ _ rfl fun x h e _ => (fixRecord_ckpt x part e).trans h
  refine List.foldlRecOn (motive := fun r : State × Bool => r.1.hw.ckpt = s.hw.ckpt) _ _ h1 fun r hr e _ => ?_
  exact andThen_keeps (P := fun x => x.hw.ckpt = s.hw.ckpt) hr fun x hx => (recordPut_ckpt x ..).trans hx

theorem putChanged_ckpt (s : State) (part : Nat) (e : Nat × Nat) (none0 bs : List Byte) :
    (s.putChanged part e none0 bs).1.hw.ckpt = s.hw.ckpt := by
  unfold State.putChanged
  split
  · rfl
  · exact itemPut_ckpt ..

/-- A chain of stores, each of which leaves the checkpoint in progress, leaves it. -/
theorem stores_ckpt {α : Type} {l : List α} {f : α → State → State × Bool} {r : State × Bool}
    (hf : ∀ a x, (f a x).1.hw.ckpt = x.hw.ckpt) : (l.foldl (fun r a => andThen r (f a)) r).1.hw.ckpt = r.1.hw.ckpt :=
  List.foldlRecOn (motive := fun x : State × Bool => x.1.hw.ckpt = r.1.hw.ckpt) _ _ rfl fun _ h a _ =>
    andThen_keeps (P := fun x => x.hw.ckpt = r.1.hw.ckpt) h fun x hx => (hf a x).trans hx

theorem storeP0_ckpt (s : State) : s.storeP0.1.hw.ckpt = s.hw.ckpt := by
  unfold State.storeP0
  generalize List.range 46 = ks
  extract_lets l r
  have hr : r.1.hw.ckpt = s.hw.ckpt := by
    refine List.foldlRecOn (motive := fun x : State × Bool => x.1.hw.ckpt = s.hw.ckpt) _ _ rfl fun x hx k _ => ?_
    exact andThen_keeps (P := fun y => y.hw.ckpt = s.hw.ckpt) hx fun y hy => (putChanged_ckpt y ..).trans hy
  refine andThen_keeps (P := fun x => x.hw.ckpt = s.hw.ckpt)
    (andThen_keeps (P := fun x => x.hw.ckpt = s.hw.ckpt) hr fun x hx => (putChanged_ckpt x ..).trans hx) fun x hx => ?_
  split
  · exact hx
  · exact (itemPut_ckpt x ..).trans hx

theorem storeSet_ckpt (s : State) : s.storeSet.1.hw.ckpt = s.hw.ckpt :=
  andThen_keeps (P := fun x => x.hw.ckpt = s.hw.ckpt) (stores_ckpt fun _ _ => putChanged_ckpt ..)
    fun x hx => (storeP0_ckpt x).trans hx

theorem writeParts_ckpt (s : State) (pair parts : Nat) (bs : List Byte) :
    (s.writeParts pair parts bs).1.hw.ckpt = s.hw.ckpt := by
  unfold State.writeParts
  extract_lets l
  split
  · rfl
  · exact itemPut_ckpt ..

theorem freePair_ckpt (s : State) (k : Nat) : (s.freePair k).1.hw.ckpt = s.hw.ckpt := by
  unfold State.freePair
  split
  · rfl
  · exact itemPut_ckpt ..

theorem layoutSets_ckpt (s : State) : s.layoutSets.1.hw.ckpt = s.hw.ckpt := by
  rw [layoutSets_eq, stores_ckpt fun _ _ => freePair_ckpt ..]
  refine List.foldlRecOn (motive := fun r : (State × Bool) × Nat => r.1.1.hw.ckpt = s.hw.ckpt) _ _ rfl fun r hr e _ => ?_
  exact andThen_keeps (P := fun x => x.hw.ckpt = s.hw.ckpt) hr fun x hx => (writeParts_ckpt x ..).trans hx

theorem wr_ckpt (s : State) (a : Nat) (bs : List Byte) : (s.wr a bs).hw.ckpt = s.hw.ckpt :=
  wr_keeps (P := fun x => x.hw.ckpt = s.hw.ckpt) (fun _ _ h => h) a bs rfl

theorem pioUpdate_ckpt (s : State) : s.pioUpdate.hw.ckpt = s.hw.ckpt := by
  unfold State.pioUpdate State.pioWrite
  split
  · split
    · exact wr_ckpt ..
    · exact (wr_ckpt ..).trans (wr_ckpt ..)
  · rfl

theorem keepPut_ckpt (s : State) (c : Nat) (bs : List Byte) : (s.keepPut c bs).1.hw.ckpt = s.hw.ckpt := by
  rw [keepPut_eq]
  split
  · exact (pioUpdate_ckpt _).trans (layoutSets_ckpt _)
  · exact layoutSets_ckpt _

/-! ### Totals and checkpoint -/

/-- From `s` to `t` Pioneer's totals and the checkpoint in progress stay. -/
structure KeepsBooks (s t : State) : Prop where
  elem : t.me.regElemP = s.me.regElemP
  circ : t.me.regCircP = s.me.regCircP
  ckpt : t.hw.ckpt = s.hw.ckpt

theorem KeepsBooks.refl (s : State) : KeepsBooks s s := ⟨rfl, rfl, rfl⟩

theorem KeepsBooks.trans (h : KeepsBooks s t) (g : KeepsBooks t u) : KeepsBooks s u :=
  ⟨g.elem.trans h.elem, g.circ.trans h.circ, g.ckpt.trans h.ckpt⟩

theorem Changes.keepsBooks (h : Changes q s t) (hm : q.contains .me = false) (hh : q.contains .hw = false) :
    KeepsBooks s t :=
  ⟨congrArg Metro.regElemP (h.me hm), congrArg Metro.regCircP (h.me hm), congrArg Heart.ckpt (h.hw hh)⟩

/-- What changes the store and leaves the checkpoint in progress leaves the books. -/
theorem Changes.keepsBooks_of_ckpt (h : Changes q s t) (hm : q.contains .me = false) (hc : t.hw.ckpt = s.hw.ckpt) :
    KeepsBooks s t :=
  ⟨congrArg Metro.regElemP (h.me hm), congrArg Metro.regCircP (h.me hm), hc⟩

theorem keepsBooks_ite {p : Prop} [Decidable p] {x y : State} (hx : KeepsBooks s x) (hy : KeepsBooks s y) :
    KeepsBooks s (if p then x else y) := by
  split
  · exact hx
  · exact hy

theorem lockActions_keepsBooks (s : State) : KeepsBooks s s.lockActions := by
  have h := lockActions_judges (.refl s)
  have hb := h.block
  simp only [Metro.block, Prod.mk.injEq] at hb
  obtain ⟨hep, hcp, -⟩ := hb
  exact ⟨hep, hcp, congrArg Heart.ckpt h.hw⟩

theorem pioUpdate_keepsBooks (s : State) : KeepsBooks s s.pioUpdate :=
  (pioUpdate_ch (.refl [.hw] s) rfl).keepsBooks_of_ckpt rfl (pioUpdate_ckpt s)

/-! ### A commit (R328) -/

theorem commitSource_keepsBooks (s : State) (old : Nat) : KeepsBooks s (s.commitSource old) := by
  unfold State.commitSource
  extract_lets n s1
  refine keepsBooks_ite (.refl s) ?_
  have h1 : KeepsBooks s s1 := (onTe_ch (.refl [.te] s) rfl).keepsBooks rfl rfl
  refine keepsBooks_ite (h1.trans ?_) h1
  by_cases hf : s1.te.servo = .free
  · rw [servoTo_self hf]
    exact .refl s1
  · exact (servoTo_of_unlocked hf nofun).1.keepsBooks rfl rfl

theorem setLeap_keepsBooks (s : State) (v : Nat) : KeepsBooks s (s.setLeap v) := by
  have h : Changes [.pr, .hw, .wd, .rtc] s (s.setLeap v) := setLeap_ch (.refl _ s) rfl
  exact h.keepsBooks_of_ckpt rfl (by rw [State.setLeap, onRtc_hw, storeP0_ckpt]; rfl)

theorem commitEffects_keepsBooks (s old : State) (p : List (Nat × Nat)) : KeepsBooks s (s.commitEffects old p) := by
  unfold State.commitEffects
  extract_lets ids s1 s2 s3 s4 s5 s51 s6
  have h2 : Changes [.rtc, .tp] s s2 :=
    ch_foldl (fun _ _ h => commitResponse_ch h rfl) (ch_foldl (fun _ _ h => commitAlarm_ch h rfl) (.refl _ _))
  have h3 : KeepsBooks s s3 :=
    (h2.keepsBooks rfl rfl).trans (keepsBooks_ite (lockActions_keepsBooks s2) (.refl s2))
  have h4 : KeepsBooks s s4 :=
    (h3.trans (commitSource_keepsBooks s3 _)).trans ((commitFollow_ch (.refl [.rtc] _) rfl).keepsBooks rfl rfl)
  have h5 : KeepsBooks s4 s5 := by
    unfold s5
    split
    · exact setLeap_keepsBooks ..
    · exact .refl s4
  have h6 : Changes [.se, .lk, .wd, .nt, .hm, .pm] s5 s6 :=
    commitPmu_ch (ch_foldl (fun _ _ h => ch_ite (fun _ => commitPhy_ch h rfl) fun _ => h) (.refl _ _)) rfl
  have h7 : KeepsBooks s s6 := (h4.trans h5).trans (h6.keepsBooks rfl rfl)
  exact keepsBooks_ite (h7.trans ((onPw_ch (.refl [.pw] s6) rfl).keepsBooks rfl rfl)) h7

theorem commitAll_keepsBooks (s : State) : KeepsBooks s s.commitAll.1 := by
  unfold State.commitAll
  extract_lets p s1
  have h1 : KeepsBooks s s1 := (onPr_ch (onNt_ch (.refl [.nt, .pr] s) rfl) rfl).keepsBooks rfl rfl
  have h2 : KeepsBooks s1 s1.storeSet.1 := (storeSet_ch (.refl [.hw, .wd] s1) rfl).keepsBooks_of_ckpt rfl (storeSet_ckpt s1)
  split
  next s2 stored he =>
    rw [he] at h2
    have h12 : KeepsBooks s s2 := h1.trans h2
    split
    · dsimp only
      exact h12.trans ((onPr_ch (.refl [.pr] s2) rfl).keepsBooks rfl rfl)
    · extract_lets s3 s4 s5 s6
      have h3 : Changes [.pr] s2 s3 := ch_foldl (fun _ _ h => commitMember_ch h rfl) (.refl _ _)
      have h4 : KeepsBooks s3 s4 := keepsBooks_ite (.refl s3) (pioUpdate_keepsBooks s3)
      have h6 : Changes [.wd] s4 s6 := ch_foldl (fun _ _ h => logParam_ch h rfl) (log_ch (.refl _ _) rfl)
      exact (((h12.trans (h3.keepsBooks rfl rfl)).trans h4).trans (h6.keepsBooks rfl rfl)).trans (commitEffects_keepsBooks ..)

theorem commitMembers_keepsBooks (s : State) (l : List (Nat × Nat)) : KeepsBooks s (s.commitMembers l).1 := by
  unfold State.commitMembers
  extract_lets r
  have h1 : KeepsBooks s r.1 := ((onPr_ch (.refl [.pr] s) rfl).keepsBooks rfl rfl).trans (commitAll_keepsBooks _)
  dsimp only
  exact h1.trans ((onPr_ch (.refl [.pr] r.1) rfl).keepsBooks rfl rfl)

/-! ### Sets of an import (R142, R429) -/

theorem importSet_keepsBooks (s : State) (e : Nat × List Byte) : KeepsBooks s (s.importSet e) := by
  unfold State.importSet
  extract_lets s1
  have h1 : KeepsBooks s s1 := (keepPut_ch (.refl [.hw, .wd] s) rfl).keepsBooks_of_ckpt rfl (keepPut_ckpt s _ _)
  clear_value s1
  refine keepsBooks_ite (h1.trans ?_) (keepsBooks_ite h1 (h1.trans ?_))
  · exact (writeBankA_ch (.refl [.filts, .insts] s1) rfl).keepsBooks rfl rfl
  · exact (onFilt_ch (.refl [.filts] s1) rfl).keepsBooks rfl rfl

end Sys2Proof.Machine
end

section
/-! THEOREMS. TRANSPLANT_EXPORT, TRANSPLANT_IMPORT, and the building and applying of a package (R406, R428, R429; O23). -/

namespace Sys2Proof.Machine

variable {s : State} {h : Hdr}

theorem newChallenge_tp (s : State) : s.newChallenge.tp = { s.tp with challenge := s.newChallenge.tp.challenge } := rfl

/-! ### TRANSPLANT_EXPORT (R428) -/

theorem execTransplantPrepare_answers {d : Nat} {pub : List Byte} {sig : SigIn} (ho : Opens opExport h s) (hl : h.len = 140)
    (hs : ownerSigned (s.accepted h) sig = true) (hi : (s.accepted h).tp.identity.isSome = true)
    (hr : (s.accepted h).tp.trngOk = true) :
    Answers (.transplantPrepare h false d pub sig) s opExport h .pending fun v bs =>
      v.tx.prepare = some (d % 2 ^ 64, fitBytes 64 pub) ∧ v.tx.package = none ∧ bs = zeros 2 ++ le 4 0 ∧
      v = { s.accepted h with tx := v.tx, tp := { (s.accepted h).tp with challenge := v.tp.challenge }, free := v.free } :=
  answers_of rfl ho (by rw [hl]; rfl) (by rw [hs, hi, hr]; rfl) rfl ⟨rfl, rfl, rfl, rfl⟩

theorem execTransplantRead_replies {off n : Nat} (ho : Opens opExport h s) (hl : h.len = 12)
    (hh : (s.accepted h).lk.hushed = false) (h4 : 4 ≤ n) (hn : n ≤ 4064) :
    exec (.transplantRead h off n) s = .next ((s.accepted h).replied opExport h .ok
      (totalBytes (s.accepted h) ++ (((s.accepted h).tx.package.getD []).drop off).take n)) :=
  congrArg Host.Outcome.next (serve_opens ho (beq_iff_eq.2 hl)
    (by rw [hh, decide_eq_false (Nat.not_lt.2 h4), decide_eq_false (Nat.not_lt.2 hn)]; rfl))

theorem execTransplantDiscard_replies (ho : Opens opExport h s) (hl : h.len = 4) : exec (.transplantDiscard h) s =
    .next (((s.accepted h).onTx fun t => { t with package := none }).replied opExport h .ok (zeros 2 ++ le 4 0)) :=
  congrArg Host.Outcome.next (serve_opens ho (beq_iff_eq.2 hl) rfl)

/-- The package is built at the boundary whose block has ended. -/
theorem execTransplantPackageBuild_builds {d : Nat} {pub copy : List Byte} (hp : s.tx.prepare = some (d, pub))
    (hc : boundaryCopy s = some copy) (hb : atBlock s = true) (he : s.me.blockEnd = time80 (pInstant s)) :
    Gives .transplantPackageBuild s fun t =>
      t.tx = { s.tx with prepare := none, package := some (exportPackage s d pub copy) } ∧
      t = { s with tx := t.tx, wd := t.wd, free := t.free } := by
  have hx : exec .transplantPackageBuild s = execTransplantPackageBuild s := rfl
  rw [execTransplantPackageBuild, hp, hc] at hx
  dsimp only at hx
  rw [if_neg (by simp [hb, he])] at hx
  refine ⟨_, hx, ?_, (log_ch (onTx_ch (drew_ch (.refl [.tx, .wd, .free] s) rfl) rfl) rfl).eq_pick⟩
  exact (log_ch (.refl [.wd] _) rfl).tx rfl

/-! ### TRANSPLANT_IMPORT (R429) -/

theorem execTransplantImport_answers {p b : List Byte} {sig : SigIn} (ho : Opens opImport h s) (hm : h.more = false) :
    let msg := fragOf s h 0x0E21 ++ p
    (fragOf s h 0x0E21).length + h.len = 68 + fieldAt msg 0 4 → 260 ≤ msg.length → msg.length = 4 + fieldAt msg 0 4 →
    (s.accepted h).pw.pfail = false → locked (s.accepted h) = false → ownerSigned (s.accepted h) sig = true →
    fieldAt msg 4 2 = 0x5450 → fieldAt msg 6 2 = 1 → fieldAt msg 16 8 = Config.uniqueId % 2 ^ 64 →
    importOk (s.accepted h) b = true → (s.accepted h).pr.pending = [] → (s.accepted h).up.st = 0 →
    Answers (.transplantImport h p (some b) sig true) s opImport h .pending fun v bs =>
      v.tx.importBody = some (b, fieldAt msg 24 10) ∧ v.tx.srcId = fieldAt msg 8 8 ∧ bs = zeros 2 ∧
      v = { s.accepted h with tx := v.tx, lk := v.lk, tp := { (s.accepted h).tp with challenge := v.tp.challenge },
                              free := v.free } := by
  intro msg hlen h260 hmsg hpf hlk hsig hmagic hver hid hok hpend hst
  refine answers_of (he := rfl) ho ?_ ?_ ?_ ?_
  · simp only [Bool.or_eq_true, Bool.and_eq_true, beq_iff_eq, decide_eq_true_eq]
    exact .inr ⟨⟨hlen, h260⟩, hmsg⟩
  · rw [hm, if_neg (by decide), pfailing, hpf, hlk, hsig, hmagic, hver, hid, Option.any_some, hok, hpend, hst]
    simp [firstFail]
  · rw [if_neg (by rw [hm]; decide)]
  · rw [if_neg (by rw [hm]; decide)]
    generalize fieldAt msg 24 10 = bx, fieldAt msg 8 8 = src, s.accepted h = x
    exact ⟨rfl, rfl, rfl, rfl⟩

/-! ### The import at its boundary (R429) -/

/-- The import's books, members and sets have come in. -/
def State.imported (s : State) (b : List Byte) : State :=
  (((importParts b).getD ([], [])).2.foldl State.importSet
    ((((((List.range 28).foldl State.replacedLog s).takeTotals (bodySection 1 b)).takeRegisters
      (bodySection 1 b)).freshWindows).commitMembers
        (((importParts b).getD ([], [])).1.foldl (fun a e => assocSet a e.1 e.2) [])).1).onTx fun t =>
    { t with importBody := none, imported := true }

theorem execTransplantApply_of_boundary {b : List Byte} {bx : Nat} (hb : s.tx.importBody = some (b, bx)) (ha : atBlock s = true) :
    exec .transplantApply s =
      .next (((s.imported b).checkpoint (s.imported b) 0).log 0x0E11 (le 8 s.tx.srcId) [le 10 bx]) := by
  have he : exec .transplantApply s = execTransplantApply s := rfl
  rw [execTransplantApply, hb] at he
  dsimp only at he
  rw [if_neg (by rw [ha]; decide)] at he
  exact he

theorem freshWindows_keepsBooks (s : State) : KeepsBooks s s.freshWindows := by
  have h : KeepsBooks s (s.pqBegin none) := (pqBegin_ch (.refl [.pq] s) rfl).keepsBooks rfl rfl
  exact h.trans ⟨rfl, rfl, rfl⟩

/-- Pioneer's totals are the import's, and a checkpoint in progress goes on. -/
theorem imported_books (s : State) (b : List Byte) :
    (s.imported b).me.regElemP = booksAt (bodySection 1 b) 48 2 s.me.regElemP ∧
      (s.imported b).me.regCircP = booksAt (bodySection 1 b) 496 2 s.me.regCircP ∧ (s.imported b).hw.ckpt = s.hw.ckpt := by
  unfold State.imported
  generalize bodySection 1 b = books, ((importParts b).getD ([], [])).2 = sets,
    (((importParts b).getD ([], [])).1.foldl (fun a e => assocSet a e.1 e.2) []) = members, List.range 28 = cs
  have hlog : KeepsBooks s (cs.foldl State.replacedLog s) :=
    (ch_foldl (fun _ _ h => replacedLog_ch h rfl) (.refl [.wd] s)).keepsBooks rfl rfl
  generalize cs.foldl State.replacedLog s = s1 at hlog ⊢
  have hset (x : State) : KeepsBooks x (sets.foldl State.importSet x) :=
    List.foldlRecOn (motive := KeepsBooks x) _ _ (.refl x) fun y hy e _ => hy.trans (importSet_keepsBooks y e)
  have h : KeepsBooks ((s1.takeTotals books).takeRegisters books)
      (sets.foldl State.importSet
        ((((s1.takeTotals books).takeRegisters books).freshWindows).commitMembers members).1) :=
    ((freshWindows_keepsBooks _).trans (commitMembers_keepsBooks ..)).trans (hset _)
  exact ⟨h.elem.trans (congrArg (booksAt books 48 2) hlog.elem), h.circ.trans (congrArg (booksAt books 496 2) hlog.circ),
    h.ckpt.trans hlog.ckpt⟩

theorem execTransplantApply_brings {b : List Byte} {bx : Nat} (hb : s.tx.importBody = some (b, bx)) (ha : atBlock s = true) :
    Gives .transplantApply s fun t =>
      t.tx.importBody = none ∧ t.tx.imported = true ∧
      t.me.regElemP = booksAt (bodySection 1 b) 48 2 s.me.regElemP ∧
      t.me.regCircP = booksAt (bodySection 1 b) 496 2 s.me.regCircP ∧
      ((∀ c, s.hw.ckpt = some c → c.kind ≠ 1) → ∃ c, t.hw.ckpt = some c ∧ c.kind = 0) := by
  obtain ⟨hep, hcp, hck⟩ := imported_books s b
  have hc : Changes [.hw, .wd, .pq, .free] (s.imported b)
      (((s.imported b).checkpoint (s.imported b) 0).log 0x0E11 (le 8 s.tx.srcId) [le 10 bx]) :=
    log_ch (checkpoint_ch (.refl _ _) rfl) rfl
  refine ⟨_, execTransplantApply_of_boundary hb ha, ?_⟩
  refine ⟨by rw [hc.tx rfl]; rfl, by rw [hc.tx rfl]; rfl, by rw [hc.me rfl]; exact hep, by rw [hc.me rfl]; exact hcp, fun hk => ?_⟩
  have hpf : (s.imported b).hw.ckpt.any (fun c => c.kind == 1) = false := by
    rw [hck, Option.any_eq_false]
    exact fun c hc => by simpa using hk c hc
  obtain ⟨c, hcc, hkind, -⟩ := checkpoint_routine hpf (s.imported b)
  exact ⟨c, by rw [(log_ch (.refl [.wd] _) rfl).hw rfl]; exact hcc, hkind⟩

/-- Settles O23: the requests answer from their checks alone, and at its boundary an import brings in totals that neither its members
nor its sets touch again. -/
theorem transplantExportsAndImports : Obligations.TransplantExportsAndImports := fun _ _ =>
  ⟨fun _ _ _ => execTransplantPrepare_answers, fun _ _ _ => execTransplantPackageBuild_builds,
    fun _ _ => execTransplantRead_replies, execTransplantDiscard_replies, fun _ _ _ => execTransplantImport_answers,
    fun _ _ => execTransplantApply_brings⟩

end Sys2Proof.Machine
end
section
/-! LEMMAS. The regions of a kind, the switch to another region, and the open package (R418 to R425). -/

namespace Sys2Proof.Machine

variable {s t : State} {k b : Nat}

/-! ### Regions -/

theorem onRegion_region {f : Region → Region} (hk : k < s.up.banks.length) :
    region (s.onRegion k b f) k b = f (region s k b) := by
  unfold region regionsOf State.onRegion
  rw [onUp_up, modAt_getD_self _ _ _ _ hk]
  by_cases hb : b = 0
  · simp [hb]
  · simp [hb]

theorem region_congr (h : t.up.banks = s.up.banks) (k b : Nat) : region t k b = region s k b := by
  rw [region, region, regionsOf, regionsOf, h]

theorem activeOf_congr (h : t.up.active = s.up.active) (k : Nat) : activeOf t k = activeOf s k := by
  rw [activeOf, activeOf, h]

/-! ### Entries of the log and the end of an update -/

theorem updLog_up (s : State) (code : Nat) (hd : List Byte) (bank cause : Nat) : (s.updLog code hd bank cause).up = s.up :=
  (updLog_ch (.refl [.wd, .free] s) rfl).up rfl

theorem updLog_hw (s : State) (code : Nat) (hd : List Byte) (bank cause : Nat) : (s.updLog code hd bank cause).hw = s.hw :=
  (updLog_ch (.refl [.wd, .free] s) rfl).hw rfl

/-- A package abandoned leaves banks, running regions and ROLLBACK. -/
theorem abandonUpdate_up (s : State) : s.abandonUpdate.up.banks = s.up.banks ∧ s.abandonUpdate.up.active = s.up.active ∧
    s.abandonUpdate.up.rollback = s.up.rollback := by
  unfold State.abandonUpdate
  split
  · exact ⟨rfl, rfl, rfl⟩
  · exact ⟨rfl, rfl, rfl⟩

theorem abandonUpdate_st (h : s.up.st ≠ 5) : s.abandonUpdate.up.st = 0 := by
  unfold State.abandonUpdate
  split
  next hc => simpa [h] using hc
  next => rfl

theorem abandonUpdate_of_trial (h : s.up.st = 5) : s.abandonUpdate = s := if_pos (by rw [h]; rfl)

/-! ### The switch to another region (R422, R425) -/

theorem servoTo_holdover_hw (s : State) (th : Int) : (s.servoTo .holdover th).hw = s.hw := by
  by_cases h : s.te.servo = .holdover
  · rw [servoTo_self h]
  · exact (servoTo_of_unlocked h nofun).1.hw rfl

/-- Canopy's stop writes nothing to the store. -/
theorem canopyStop_hw (s : State) (cause reason : Nat) : (s.canopyStop cause reason).hw = s.hw := by
  unfold State.canopyStop
  split
  · rfl
  · extract_lets s1 s2 s3 s4 s5
    have h3 : Changes [.pw, .lk, .wd] s s3 :=
      enterStage_ch (onPw_ch (onWd_ch (ch_ite (fun _ => log_ch (onPw_ch (.refl _ s) rfl) rfl) fun _ => .refl _ s) rfl) rfl) rfl
    have h4 : s4.hw = s3.hw := by
      unfold s4
      split
      · exact servoTo_holdover_hw ..
      · rfl
    have h5 : Changes [.pr, .nt, .pq, .lk] s4 (((s5.onPq fun q => { q with agg := false, aggWait := false }).onLk fun l =>
        { l with frag := [] }).dropPending .canopy) :=
      dropPending_ch (onLk_ch (onPq_ch (onNt_ch (onPr_ch (.refl _ s4) rfl) rfl) rfl) rfl) rfl
    rw [h5.hw rfl, h4, h3.hw rfl]

/-- The Warden's stop abandons an update that is not in TRIAL, and does no more to it. -/
theorem wardenStop_up (s : State) (cause : Nat) : (s.wardenStop cause).up = s.abandonUpdate.up := by
  have hup (x : State) (hx : x.up = s.up) : x.abandonUpdate.up = s.abandonUpdate.up := by
    unfold State.abandonUpdate
    rw [hx]
    split
    · exact hx
    · unfold State.updIdle
      rw [onUp_up, onUp_up, hx]
  unfold State.wardenStop
  extract_lets s1 s2 s3
  have h2 : Changes [.wd, .se, .hm, .tp, .rtc] s s2.stopFollowing :=
    stopFollowing_ch (onTp_ch (dropSessions_ch (onWd_ch (.refl _ s) rfl) rfl) rfl) rfl
  have h3 : Changes [.tx, .lk, .pr] s2.stopFollowing.abandonUpdate
      (((s3.onLk fun l => { l with frag := [] }).onPr fun p => { p with committing := none }).dropPending .warden) :=
    dropPending_ch (onPr_ch (onLk_ch (onTx_ch (.refl _ _) rfl) rfl) rfl) rfl
  rw [h3.up rfl, hup _ (h2.up rfl)]

theorem runRegion_activeOf (hk : k < s.up.active.length) : activeOf (s.runRegion k b) k = b := by
  unfold activeOf State.runRegion
  rw [onUp_up, modAt_getD_self _ _ _ _ hk]

theorem switchKind_hw (s : State) (k cause wardenCause : Nat) : (s.switchKind k cause wardenCause).hw = s.hw := by
  unfold State.switchKind
  extract_lets s1
  split
  · exact canopyStop_hw ..
  · split
    · exact (wardenStop_ch (.refl [.rtc, .se, .pr, .lk, .tp, .wd, .up, .tx, .hm] s1) rfl).hw rfl
    · split
      · exact (pqReload_ch (.refl [.pr, .pq] s1) rfl).hw rfl
      · exact (dropPending_ch (.refl [.pr] s1) rfl).hw rfl

/-- The switch changes the running region; the Warden's restart abandons an update that is not in TRIAL. -/
theorem switchKind_up (s : State) (k cause wardenCause : Nat) : (s.switchKind k cause wardenCause).up =
    (if k = 1 then (s.runRegion k (inactiveOf s k)).abandonUpdate else s.runRegion k (inactiveOf s k)).up := by
  unfold State.switchKind
  extract_lets s1
  by_cases h0 : k = 0
  · rw [if_pos (by simpa using h0), if_neg (by omega)]
    exact (canopyStop_ch (.refl [.pw, .te, .rtc, .hw, .pr, .lk, .wd, .nt, .pq, .pm, .free] s1) rfl).up rfl
  · rw [if_neg (by simpa using h0)]
    by_cases h1 : k = 1
    · rw [if_pos (by simpa using h1), if_pos h1]
      exact wardenStop_up ..
    · rw [if_neg (by simpa using h1), if_neg h1]
      split
      · exact (pqReload_ch (.refl [.pr, .pq] s1) rfl).up rfl
      · exact (dropPending_ch (.refl [.pr] s1) rfl).up rfl

theorem switchKind_up_of_trial (h : s.up.st = 5) (k cause wardenCause : Nat) :
    (s.switchKind k cause wardenCause).up = (s.runRegion k (inactiveOf s k)).up := by
  rw [switchKind_up, abandonUpdate_of_trial (s := s.runRegion k (inactiveOf s k)) h, ite_self]

theorem switchKind_rollback (s : State) (k cause wardenCause : Nat) :
    (s.switchKind k cause wardenCause).up.rollback = s.up.rollback := by
  rw [switchKind_up]
  split
  · exact (abandonUpdate_up _).2.2
  · rfl

end Sys2Proof.Machine
end

section
/-! THEOREMS. UPDATE_BEGIN, UPDATE_DATA, UPDATE_FINISH, UPDATE_STATUS, the safe point and the trial (R418 to R424; O22). -/

namespace Sys2Proof.Machine

variable {s : State} {h : Hdr} {k b : Nat} {g : Bool}

/-! ### UPDATE_BEGIN and UPDATE_DATA (R419, R422) -/

/-- The state in which a package with a header is open: a banked kind's inactive region is being erased. -/
def State.opened (s : State) (hd : List Byte) : State :=
  let s1 := s.onUp fun u =>
    { u with st := if hdrKind hd < 4 then 1 else 2, header := hd, payload := [], revert := none }
  (if hdrKind hd < 4 then s1.onRegion (hdrKind hd) (inactiveOf s (hdrKind hd)) fun r => { Region.blank with act := r.act }
    else s1).updLog 0x0E02 hd (inactiveOf s (hdrKind hd)) 0

theorem opened_eq (s : State) (hd : List Byte) : (s.opened hd).up = { s.up with
    st := if hdrKind hd < 4 then 1 else 2, header := hd, payload := [], revert := none, banks := (s.opened hd).up.banks } := by
  unfold State.opened
  by_cases hk : hdrKind hd < 4
  · simp only [if_pos hk, updLog_up]
    rfl
  · simp only [if_neg hk, updLog_up]
    rfl

theorem opened_changes (s : State) (hd : List Byte) : Changes [.up, .wd, .free] s (s.opened hd) :=
  updLog_ch (ch_ite (fun _ => onRegion_ch (onUp_ch (.refl _ s) rfl) rfl) fun _ => onUp_ch (.refl _ s) rfl) rfl

theorem opened_banks {hd : List Byte} (hk : 4 ≤ hdrKind hd) : (s.opened hd).up.banks = s.up.banks := by
  unfold State.opened
  extract_lets s1
  rw [updLog_up, if_neg (Nat.not_lt.2 hk)]
  rfl

theorem opened_region {hd : List Byte} (hk : hdrKind hd < 4) (hb : s.up.banks.length = 4) :
    region (s.opened hd) (hdrKind hd) (inactiveOf s (hdrKind hd)) =
      { Region.blank with act := (region s (hdrKind hd) (inactiveOf s (hdrKind hd))).act } := by
  unfold State.opened
  extract_lets s1
  have hlen : hdrKind hd < s1.up.banks.length := hk.trans_eq hb.symm
  rw [if_pos hk, region_congr (congrArg Update.banks (updLog_up ..)), onRegion_region hlen]
  rfl

theorem execUpdateBegin_eq {hd : List Byte} (ho : Opens opUpdateBegin h s) (hl : h.len = 192) (hn : List.length hd = 192)
    (hb : headerBad hd = false) (hst : (s.accepted h).up.st = 0) (hlk : 4 ≤ hdrKind hd → locked (s.accepted h) = false) :
    exec (.updateBegin h hd) s = .next (((s.accepted h).opened hd).replied opUpdateBegin h
      (if hdrKind hd < 4 then .pending else .ok) (zeros 2)) := by
  have he : exec (.updateBegin h hd) s = execUpdateBegin h hd s := rfl
  have hchecks : firstFail [(4 ≤ hdrKind hd && locked (s.accepted h), Status.locked)] = none := by
    by_cases hk : 4 ≤ hdrKind hd
    · simp [firstFail, hlk hk]
    · simp [firstFail, hk]
  rw [he, execUpdateBegin, serve_opens ho (by rw [hl, hn]; rfl) hchecks]
  dsimp only
  rw [hb, hst, if_neg (by decide), if_neg (by decide), State.opened]
  by_cases hk : hdrKind hd < 4
  · simp only [if_pos hk]
  · simp only [if_neg hk]

theorem execUpdateBegin_answers {hd : List Byte} (ho : Opens opUpdateBegin h s) (hl : h.len = 192) (hn : List.length hd = 192)
    (hb : headerBad hd = false) (hst : (s.accepted h).up.st = 0) (hlk : 4 ≤ hdrKind hd → locked (s.accepted h) = false) :
    Answers (.updateBegin h hd) s opUpdateBegin h (if hdrKind hd < 4 then .pending else .ok) fun v bs =>
      v.up.st = (if hdrKind hd < 4 then 1 else 2) ∧ v.up.header = hd ∧ v.up.payload = [] ∧ bs = zeros 2 ∧
      v.up.active = s.up.active ∧ v.up.rollback = s.up.rollback ∧
      (4 ≤ hdrKind hd → v.up.banks = s.up.banks) ∧
      (hdrKind hd < 4 → s.up.banks.length = 4 → region v (hdrKind hd) (inactiveOf s (hdrKind hd)) =
        { Region.blank with act := (region s (hdrKind hd) (inactiveOf s (hdrKind hd))).act }) ∧
      v = { s.accepted h with up := v.up, wd := v.wd, free := v.free } := by
  have hup : (s.accepted h).up = s.up := accepted_up ..
  have hinactive : inactiveOf (s.accepted h) = inactiveOf s := by
    funext k
    rw [inactiveOf, inactiveOf, activeOf_congr (congrArg Update.active hup)]
  have hv := opened_eq (s.accepted h) hd
  refine ⟨_, _, execUpdateBegin_eq ho hl hn hb hst hlk, ?_⟩
  refine ⟨by rw [hv], by rw [hv], by rw [hv], rfl, by rw [hv, hup], by rw [hv, hup], fun hk => ?_, fun hk hlen => ?_,
    (opened_changes _ hd).eq_pick⟩
  · rw [opened_banks hk, hup]
  · rw [← hinactive, opened_region hk (by rw [hup, hlen]), region_congr (congrArg Update.banks hup)]

theorem execUpdateEraseDone_of_erasing (hst : s.up.st = 1) :
    exec .updateEraseDone s = .next { s with up := { s.up with st := 2 } } :=
  if_pos (by rw [hst]; rfl)

theorem execUpdateData_answers {p : List Byte} (ho : Opens opUpdateData h s) (hm : h.more = false) (hl : h.len = List.length p) :
    let msg := fragOf s h 0x0E11 ++ p
    msg.length ≤ 65540 → 5 ≤ msg.length → (s.accepted h).up.st = 2 →
    fieldAt msg 0 4 = (s.accepted h).up.payload.length →
    (s.accepted h).up.payload.length + (msg.length - 4) ≤ hdrLength (s.accepted h).up.header →
    Answers (.updateData h p) s opUpdateData h .ok fun v bs =>
      v.up = { (s.accepted h).up with payload := (s.accepted h).up.payload ++ msg.drop 4 } ∧
      bs = zeros 2 ++ le 4 v.up.payload.length ∧ v = { s.accepted h with up := v.up, lk := v.lk } := by
  intro msg hmax hmin hst hoff hroom
  have he : exec (.updateData h p) s = execUpdateData h p s := rfl
  have hup : ((s.accepted h).fragEnd h).up = (s.accepted h).up := rfl
  have hlen : (h.len == p.length && decide (msg.length ≤ 65540) && (h.more || decide (5 ≤ msg.length))) = true := by
    simp [hl, hmax, hmin]
  rw [execUpdateData, serve_opens ho hlen rfl] at he
  dsimp only at he
  have hin : (fieldAt msg 0 4 != (s.accepted h).up.payload.length ||
      ((s.accepted h).up.st == 2 && decide (hdrLength (s.accepted h).up.header <
        (s.accepted h).up.payload.length + (msg.length - 4)))) = false := by
    rw [hoff, decide_eq_false (Nat.not_lt.2 hroom)]
    simp
  rw [if_neg (by rw [hm]; decide), hup, if_neg (ne_true_of_eq_false hin), if_neg (by rw [hst]; decide)] at he
  exact ⟨_, _, he, rfl, rfl, rfl⟩

/-! ### UPDATE_FINISH (R419, R420, R424) -/

theorem execUpdateVerify_of_good (ho : Opens opUpdateFinish h s) (hl : h.len = 4)
    (hst : (s.accepted h).up.st = 2 ∨ (s.accepted h).up.st = 3) (hv : verifyFail (s.accepted h) g = none) :
    exec (.updateVerify h g) s =
      .next (((s.accepted h).onUp fun u => { u with st := 3 }).replied opUpdateFinish h .ok (le 1 3 ++ zeros 1)) := by
  have he : exec (.updateVerify h g) s = execUpdateVerify h g s := rfl
  have hchecks : firstFail [((s.accepted h).up.st != 2 && (s.accepted h).up.st != 3, Status.stopRequired)] = none := by
    rcases hst with hst | hst <;> rw [hst] <;> rfl
  rw [he, execUpdateVerify, serve_opens ho (beq_iff_eq.2 hl) hchecks]
  dsimp only
  rw [hv]
  rfl

/-- A package that fails its verification stays open, and the store stays. -/
theorem verifyRefused_keeps (s : State) (st : Status) :
    (s.verifyRefused st).up = s.up ∧ (s.verifyRefused st).hw = s.hw := by
  have hc : Changes [.se, .lk, .tp, .wd, .hm, .me, .free] s (s.verifyRefused st) := verifyRefused_ch (.refl _ s) rfl
  exact ⟨hc.up rfl, hc.hw rfl⟩

theorem execUpdateVerify_of_bad {st : Status} (ho : Opens opUpdateFinish h s) (hl : h.len = 4)
    (hst : (s.accepted h).up.st = 2 ∨ (s.accepted h).up.st = 3) (hv : verifyFail (s.accepted h) g = some st) :
    Answers (.updateVerify h g) s opUpdateFinish h st fun v bs =>
      v.up = (s.accepted h).up ∧ bs = zeros 2 ∧ v.hw = (s.accepted h).hw := by
  have he : exec (.updateVerify h g) s = execUpdateVerify h g s := rfl
  have hchecks : firstFail [((s.accepted h).up.st != 2 && (s.accepted h).up.st != 3, Status.stopRequired)] = none := by
    rcases hst with hst | hst <;> rw [hst] <;> rfl
  obtain ⟨hup, hhw⟩ := verifyRefused_keeps (s.accepted h) st
  rw [execUpdateVerify, serve_opens ho (beq_iff_eq.2 hl) hchecks] at he
  dsimp only at he
  rw [hv] at he
  exact ⟨_, _, he, hup, rfl, hhw⟩

/-- The checks of an ACTIVATE on an open package pass below LOCK, or for a banked kind. -/
theorem activateChecks_pass (hst : (s.accepted h).up.st = 2 ∨ (s.accepted h).up.st = 3)
    (hlk : 4 ≤ hdrKind (s.accepted h).up.header → locked (s.accepted h) = false) :
    firstFail [(!false && (s.accepted h).up.st != 0 && decide (4 ≤ hdrKind (s.accepted h).up.header) && locked (s.accepted h),
      Status.locked), (false, .valueRange),
      ((s.accepted h).up.st != 2 && (s.accepted h).up.st != 3, .stopRequired)] = none := by
  have hopen : ((s.accepted h).up.st != 2 && (s.accepted h).up.st != 3) = false := by
    rcases hst with hst | hst <;> rw [hst] <;> rfl
  have hlock : (!false && (s.accepted h).up.st != 0 && decide (4 ≤ hdrKind (s.accepted h).up.header) &&
      locked (s.accepted h)) = false := by
    by_cases hk : 4 ≤ hdrKind (s.accepted h).up.header
    · rw [hlk hk, Bool.and_false]
    · rw [decide_eq_false hk, Bool.and_false, Bool.false_and]
  rw [hopen, hlock]
  rfl

/-- A banked kind waits for its safe point; for Canopy the planned checkpoint begins. -/
def State.awaitsSwitch (s : State) : State :=
  let s1 := s.onUp fun u => { u with st := 4 }
  if hdrKind s.up.header == 0 then s1.checkpoint s1 0 else s1

theorem awaitsSwitch_changes (s : State) :
    Changes [.hw, .wd, .pq, .free] (s.onUp fun u => { u with st := 4 }) s.awaitsSwitch :=
  ch_ite (fun _ => checkpoint_ch (.refl _ _) rfl) fun _ => .refl _ _

theorem awaitsSwitch_mem (s : State) : s.awaitsSwitch.hw.mem = s.hw.mem := by
  unfold State.awaitsSwitch
  extract_lets s1
  split
  · exact checkpoint_mem s1 s1 (by decide)
  · rfl

theorem execUpdateActivate_of_banked (ho : Opens opUpdateFinish h s) (hl : h.len = 4)
    (hst : (s.accepted h).up.st = 2 ∨ (s.accepted h).up.st = 3)
    (hlk : 4 ≤ hdrKind (s.accepted h).up.header → locked (s.accepted h) = false)
    (hv : verifyFail (s.accepted h) g = none) (hk : hdrKind (s.accepted h).up.header < 4) :
    Answers (.updateActivate h false g) s opUpdateFinish h .pending fun v bs =>
      v.up = { (s.accepted h).up with st := 4 } ∧ bs = le 1 4 ++ zeros 1 ∧ v.hw.mem = (s.accepted h).hw.mem ∧
      v = { s.accepted h with up := v.up, hw := v.hw, wd := v.wd, pq := v.pq, free := v.free } := by
  have he : exec (.updateActivate h false g) s = execUpdateActivate h false g s := rfl
  have hc := awaitsSwitch_changes (s.accepted h)
  rw [execUpdateActivate, serve_opens ho (beq_iff_eq.2 hl) (activateChecks_pass hst hlk)] at he
  dsimp only at he
  rw [hv] at he
  dsimp only at he
  rw [if_pos hk] at he
  refine ⟨(s.accepted h).awaitsSwitch, _, he, hc.up rfl, rfl, awaitsSwitch_mem _, ?_⟩
  exact ((onUp_ch (.refl [.up, .hw, .wd, .pq, .free] _) rfl).trans (hc.mono rfl)).eq_pick

theorem execUpdateActivate_of_table {a : State} (ho : Opens opUpdateFinish h s) (hl : h.len = 4)
    (hst : (s.accepted h).up.st = 2 ∨ (s.accepted h).up.st = 3)
    (hlk : 4 ≤ hdrKind (s.accepted h).up.header → locked (s.accepted h) = false)
    (hv : verifyFail (s.accepted h) g = none) (hk : 4 ≤ hdrKind (s.accepted h).up.header)
    (ha : applyPackage (s.accepted h) = (a, none)) :
    Answers (.updateActivate h false g) s opUpdateFinish h .ok fun v bs =>
      v.up.st = 0 ∧ v.up.header = [] ∧ v.up.payload = [] ∧ bs = zeros 2 ∧
      v = { a with up := v.up, wd := v.wd, free := v.free } := by
  have he : exec (.updateActivate h false g) s = execUpdateActivate h false g s := rfl
  rw [execUpdateActivate, serve_opens ho (beq_iff_eq.2 hl) (activateChecks_pass hst hlk)] at he
  dsimp only at he
  rw [hv] at he
  dsimp only at he
  rw [if_neg (Nat.not_lt.2 hk), ha] at he
  dsimp only at he
  refine ⟨_, _, he, rfl, rfl, rfl, rfl, ?_⟩
  exact (onUp_ch (updLog_ch (.refl [.up, .wd, .free] a) rfl) rfl).eq_pick

theorem execUpdateActivate_of_bad {st : Status} (ho : Opens opUpdateFinish h s) (hl : h.len = 4)
    (hst : (s.accepted h).up.st = 2 ∨ (s.accepted h).up.st = 3)
    (hlk : 4 ≤ hdrKind (s.accepted h).up.header → locked (s.accepted h) = false)
    (hv : verifyFail (s.accepted h) g = some st) :
    Answers (.updateActivate h false g) s opUpdateFinish h st fun v bs =>
      v.up = (s.accepted h).up ∧ bs = zeros 2 ∧ v.hw = (s.accepted h).hw := by
  have he : exec (.updateActivate h false g) s = execUpdateActivate h false g s := rfl
  obtain ⟨hup, hhw⟩ := verifyRefused_keeps (s.accepted h) st
  rw [execUpdateActivate, serve_opens ho (beq_iff_eq.2 hl) (activateChecks_pass hst hlk)] at he
  dsimp only at he
  rw [hv] at he
  exact ⟨_, _, he, hup, rfl, hhw⟩

theorem execUpdateAbort_answers (ho : Opens opUpdateFinish h s) (hl : h.len = 4) (hst : (s.accepted h).up.st ≠ 5) :
    Answers (.updateAbort h) s opUpdateFinish h .ok fun v bs =>
      v.up.st = 0 ∧ bs = zeros 2 ∧ v.up.banks = (s.accepted h).up.banks ∧ v.up.active = (s.accepted h).up.active ∧
      v = { s.accepted h with up := v.up } := by
  obtain ⟨hbanks, hactive, -⟩ := abandonUpdate_up (s.accepted h)
  have h0 := abandonUpdate_st hst
  have hchecks : firstFail [((s.accepted h).up.st == 5, Status.stopRequired)] = none := by
    rw [beq_eq_false_iff_ne.2 hst]
    rfl
  refine answers_of rfl ho (beq_iff_eq.2 hl) hchecks rfl ⟨h0, ?_, hbanks, hactive, ?_⟩
  · dsimp only
    rw [updateBytes, h0]
    rfl
  · exact (abandonUpdate_ch (.refl [.up] _) rfl).eq_pick

theorem execUpdateStatus_replies (ho : Opens opUpdateStatus h s) (hl : h.len = 0) : exec (.updateStatus h) s =
    .next ((s.accepted h).replied opUpdateStatus h .ok
      (le 1 (s.accepted h).up.st ++ le 1 (updateKind (s.accepted h)) ++ le 4 (hdrVersion (s.accepted h).up.header) ++
        le 4 (s.accepted h).up.payload.length ++ le 2 (trialRemain (s.accepted h)) ++ zeros 2 ++
        le 4 (banksWord (s.accepted h)))) :=
  congrArg Host.Outcome.next (serve_opens ho (beq_iff_eq.2 hl) rfl)

/-! ### The safe point (R422, R423) -/

/-- The inactive region holds the package in TRIAL. -/
def State.onTrial (s : State) : State :=
  (((s.onRegion (hdrKind s.up.header) (inactiveOf s (hdrKind s.up.header)) fun _ =>
    ⟨1, Nat.max (regionsOf s (hdrKind s.up.header)).1.act (regionsOf s (hdrKind s.up.header)).2.act + 1, Config.freeNat s.free % 256,
      hdrVersion s.up.header, hdrRollback s.up.header, true⟩).onUp fun u => { u with st := 5, trialClk := s.clk })).drew 1

theorem onTrial_region (hb : hdrKind s.up.header < s.up.banks.length) :
    region s.onTrial (hdrKind s.up.header) (inactiveOf s (hdrKind s.up.header)) =
      ⟨1, Nat.max (regionsOf s (hdrKind s.up.header)).1.act (regionsOf s (hdrKind s.up.header)).2.act + 1,
        Config.freeNat s.free % 256, hdrVersion s.up.header, hdrRollback s.up.header, true⟩ := by
  unfold State.onTrial
  generalize hdrVersion s.up.header = version, hdrRollback s.up.header = roll,
    Config.freeNat s.free % 256 = trials, hdrKind s.up.header = k at hb ⊢
  refine Eq.trans (region_congr ?_ _ _) (onRegion_region (f := fun _ => _) hb)
  rfl

theorem startTrial_up (s : State) : s.startTrial.up =
    (s.onTrial.runRegion (hdrKind s.up.header) (inactiveOf s (hdrKind s.up.header))).up := by
  unfold State.startTrial
  extract_lets hd k b n s1
  have ht : s1.drew 1 = s.onTrial := rfl
  have hi : inactiveOf s.onTrial k = inactiveOf s (hdrKind s.up.header) := rfl
  rw [updLog_up, ht, switchKind_up_of_trial (s := s.onTrial) rfl, hi]

theorem startTrial_hw (s : State) : s.startTrial.hw = s.hw := by
  unfold State.startTrial
  extract_lets hd k b n s1
  rw [updLog_hw, switchKind_hw]
  rfl

theorem execUpdateSafePoint_starts (hn : safeNow s = true) (hp : safePoint s (hdrKind s.up.header) = true)
    (hr : s.up.revert = none) (hst : s.up.st = 4) (hk : hdrKind s.up.header < 4) (hb : s.up.banks.length = 4)
    (ha : s.up.active.length = 4) : Gives .updateSafePoint s fun t =>
      t.up.st = 5 ∧ activeOf t (hdrKind s.up.header) = inactiveOf s (hdrKind s.up.header) ∧
      (region t (hdrKind s.up.header) (activeOf t (hdrKind s.up.header))).st = 1 ∧
      (region t (hdrKind s.up.header) (activeOf t (hdrKind s.up.header))).act =
        Nat.max (regionsOf s (hdrKind s.up.header)).1.act (regionsOf s (hdrKind s.up.header)).2.act + 1 ∧
      t.up.rollback = s.up.rollback ∧
      t = { s with pw := t.pw, te := t.te, rtc := t.rtc, se := t.se, pr := t.pr, lk := t.lk, tp := t.tp, wd := t.wd, up := t.up,
                   tx := t.tx, nt := t.nt, hm := t.hm, pq := t.pq, pm := t.pm, free := t.free } := by
  have he : exec .updateSafePoint s = execUpdateSafePoint s := rfl
  rw [execUpdateSafePoint, if_neg (by simp [hn, hp]), hr] at he
  dsimp only at he
  rw [if_pos (by rw [hst]; rfl)] at he
  have hup := startTrial_up s
  have hactive : activeOf s.startTrial (hdrKind s.up.header) = inactiveOf s (hdrKind s.up.header) := by
    rw [activeOf_congr (congrArg Update.active hup), runRegion_activeOf (s := s.onTrial) (hk.trans_eq ha.symm)]
  have hregion : region s.startTrial (hdrKind s.up.header) (inactiveOf s (hdrKind s.up.header)) =
      ⟨1, Nat.max (regionsOf s (hdrKind s.up.header)).1.act (regionsOf s (hdrKind s.up.header)).2.act + 1,
        Config.freeNat s.free % 256, hdrVersion s.up.header, hdrRollback s.up.header, true⟩ := by
    rw [region_congr (congrArg Update.banks hup), ← onTrial_region (hk.trans_eq hb.symm)]
    exact region_congr rfl _ _
  have hc : Changes [.hw, .pw, .te, .rtc, .se, .pr, .lk, .tp, .wd, .up, .tx, .nt, .hm, .pq, .pm, .free] s s.startTrial :=
    startTrial_ch (.refl _ s) rfl
  refine ⟨_, he, by rw [hup]; rfl, hactive, by rw [hactive, hregion], by rw [hactive, hregion], by rw [hup]; rfl, ?_⟩
  exact (hc.drop (startTrial_hw s)).eq_pick

theorem revertTrial_up (s : State) (c : Nat) : (s.revertTrial c).up.st = 0 ∧ (s.revertTrial c).up.revert = none ∧
    (s.revertTrial c).up.rollback = s.up.rollback := by
  unfold State.revertTrial
  extract_lets hd k s1
  have h1 : s1.up.rollback = s.up.rollback := by
    unfold s1
    split
    · exact switchKind_rollback ..
    · rfl
  refine ⟨rfl, rfl, ?_⟩
  rw [State.updIdle, onUp_up, updLog_up]
  exact h1

theorem revertTrial_hw (s : State) (c : Nat) : (s.revertTrial c).hw = s.hw := by
  unfold State.revertTrial
  extract_lets hd k s1
  have h1 : s1.hw = s.hw := by
    unfold s1
    split
    · exact switchKind_hw ..
    · rfl
  rw [State.updIdle, onUp_hw, updLog_hw, h1]

theorem execUpdateSafePoint_reverts (hn : safeNow s = true) (hp : safePoint s (hdrKind s.up.header) = true)
    (hr : s.up.revert.isSome = true) : Gives .updateSafePoint s fun t =>
      t.up.st = 0 ∧ t.up.revert = none ∧ t.up.rollback = s.up.rollback ∧
      t = { s with pw := t.pw, te := t.te, rtc := t.rtc, se := t.se, pr := t.pr, lk := t.lk, tp := t.tp, wd := t.wd, up := t.up,
                   tx := t.tx, nt := t.nt, hm := t.hm, pq := t.pq, pm := t.pm, free := t.free } := by
  obtain ⟨c, hc⟩ := Option.isSome_iff_exists.1 hr
  have he : exec .updateSafePoint s = execUpdateSafePoint s := rfl
  rw [execUpdateSafePoint, if_neg (by simp [hn, hp]), hc] at he
  obtain ⟨hst, hrev, hroll⟩ := revertTrial_up s c
  have hch : Changes [.hw, .pw, .te, .rtc, .se, .pr, .lk, .tp, .wd, .up, .tx, .nt, .hm, .pq, .pm, .free] s (s.revertTrial c) :=
    revertTrial_ch (.refl _ s) rfl
  exact ⟨_, he, hst, hrev, hroll, (hch.drop (revertTrial_hw s c)).eq_pick⟩

/-! ### The trial (R423) -/

/-- A Canopy in TRIAL fails: its region is REVOKED, and the switch back is asked for. -/
theorem trialFail_zero_up (h5 : s.up.st = 5) (hk : hdrKind s.up.header = 0) (hr : s.up.revert = none) :
    (s.trialFail 0).up = { (s.onRegion 0 (activeOf s 0) fun r => { r with st := 3 }).up with
      revert := some (Config.freeNat s.free % 65536) } := by
  unfold State.trialFail
  rw [if_pos (by rw [h5, hk, hr]; rfl)]
  extract_lets s1
  rw [if_pos (by decide), (checkpoint_ch (.refl [.hw, .wd, .pq, .free] s1) rfl).up rfl]
  rfl

theorem execTrialReadyTimeout_fails (hc : s.wd.canopyRunning = false) (h5 : s.up.st = 5) (hk : hdrKind s.up.header = 0)
    (hr : s.up.revert = none) (hb : s.up.banks.length = 4) (ht : s.after s.up.trialClk (400 * cycMs) = true) :
    Gives .trialReadyTimeout s fun t =>
      t.up.revert.isSome = true ∧ (region t 0 (activeOf s 0)).st = 3 ∧ t.up.active = s.up.active ∧
      t.hw.mem = s.hw.mem ∧ t = { s with hw := t.hw, wd := t.wd, up := t.up, pq := t.pq, free := t.free } := by
  have hup := trialFail_zero_up h5 hk hr
  refine ⟨_, if_neg (by simp [hc, ht]), by rw [hup]; rfl, ?_, by rw [hup]; rfl, trialFail_mem s 0,
    (trialFail_ch (.refl [.hw, .wd, .up, .pq, .free] s) rfl).eq_pick⟩
  have hbanks : (s.trialFail 0).up.banks = (s.onRegion 0 (activeOf s 0) fun r => { r with st := 3 }).up.banks := by rw [hup]
  rw [region_congr hbanks, onRegion_region (by omega)]

/-- From `s` to `t` regions are revoked: ROLLBACK and the running regions stay, and a region that ROLLBACK allows. -/
structure Revokes (k b : Nat) (s t : State) : Prop where
  st : t.up.st = s.up.st
  rollback : t.up.rollback = s.up.rollback
  active : t.up.active = s.up.active
  region : s.up.rollback ≤ (region s k b).rollbackMin → Machine.region t k b = Machine.region s k b

theorem Revokes.refl (k b : Nat) (s : State) : Revokes k b s s := ⟨rfl, rfl, rfl, fun _ => rfl⟩

theorem Revokes.trans {t u : State} (h : Revokes k b s t) (g : Revokes k b t u) : Revokes k b s u :=
  ⟨g.st.trans h.st, g.rollback.trans h.rollback, g.active.trans h.active, fun hm => by
    rw [g.region (by rw [h.rollback, h.region hm]; exact hm), h.region hm]⟩

/-- An update of a region leaves the regions of other kinds and the other one of its kind. -/
theorem onRegion_region_ne {i j : Nat} {f : Region → Region} (hne : i ≠ k ∨ (j == 0) ≠ (b == 0)) :
    region (s.onRegion i j f) k b = region s k b := by
  unfold region regionsOf State.onRegion
  rw [onUp_up]
  by_cases hi : i = k
  · subst hi
    rw [List.getD_eq_getElem?_getD, modAt_getElem?, List.getD_eq_getElem?_getD]
    cases s.up.banks[i]? with
    | none => simp
    | some r => cases hj : j == 0 <;> cases hb : b == 0 <;> simp_all
  · rw [modAt_getD_ne _ _ _ _ _ (Ne.symm hi)]

theorem region_beq {j : Nat} (h : (j == 0) = (b == 0)) : region s k j = region s k b := by
  rw [region, region, h]

theorem revokeBelow_revokes (s : State) (e : Nat × Nat) : Revokes k b s (s.revokeBelow e) := by
  unfold State.revokeBelow
  extract_lets r
  split
  next hc =>
    simp only [Bool.and_eq_true, decide_eq_true_eq] at hc
    obtain ⟨-, hlow⟩ := hc
    refine ⟨by rw [log_up]; rfl, by rw [log_up]; rfl, by rw [log_up]; rfl, fun hm => ?_⟩
    have hne : e.1 ≠ k ∨ (e.2 == 0) ≠ (b == 0) := by
      by_contra hsame
      obtain ⟨rfl, hb⟩ : e.1 = k ∧ (e.2 == 0) = (b == 0) := by simpa using hsame
      have hr : r = region s e.1 b := region_beq hb
      rw [hr] at hlow
      omega
    rw [region_congr (congrArg Update.banks (log_up ..)), onRegion_region_ne hne]
  next => exact .refl k b s

/-- The trial is over: its region is GOOD, and ROLLBACK is its ROLLBACK_MIN where that is higher. -/
def State.passed (s : State) : State :=
  (s.onRegion (hdrKind s.up.header) (activeOf s (hdrKind s.up.header)) fun r => { r with st := 2 }).onUp fun u =>
    { u with rollback := Nat.max u.rollback (satN 64 (hdrRollback s.up.header)) }

/-- The trial is over, logged, and regions below ROLLBACK are revoked. -/
def State.settledTrial (s : State) : State :=
  let s2 := s.passed.updLog 0x0E04 s.up.header (activeOf s (hdrKind s.up.header)) 0
  if s.up.rollback < s2.up.rollback then allRegions.foldl State.revokeBelow s2 else s2

theorem settledTrial_revokes (s : State) (k b : Nat) : Revokes k b s.passed s.settledTrial := by
  unfold State.settledTrial
  extract_lets s2
  have hup : s2.up = s.passed.up := updLog_up ..
  have h2 : Revokes k b s.passed s2 :=
    ⟨by rw [hup], by rw [hup], by rw [hup], fun _ => region_congr (by rw [hup]) k b⟩
  split
  · exact List.foldlRecOn (motive := Revokes k b s.passed) _ _ h2 fun _ h e _ => h.trans (revokeBelow_revokes _ e)
  · exact h2

theorem settledTrial_changes (s : State) : Changes [.wd, .up, .free] s s.settledTrial := by
  unfold State.settledTrial
  extract_lets s2
  have h2 : Changes [.wd, .up, .free] s s2 := updLog_ch (onUp_ch (onRegion_ch (.refl _ s) rfl) rfl) rfl
  exact ch_ite (fun _ => ch_foldl (fun _ _ h => revokeBelow_ch h rfl) h2) fun _ => h2

/-- Where ROLLBACK does not rise no region is revoked. -/
theorem settledTrial_of_low (h : satN 64 (hdrRollback s.up.header) ≤ s.up.rollback) :
    s.settledTrial.up.banks = s.passed.up.banks := by
  have hroll : s.passed.up.rollback = s.up.rollback := Nat.max_eq_left h
  unfold State.settledTrial
  extract_lets s2
  have hup : s2.up = s.passed.up := updLog_up ..
  rw [if_neg (by rw [hup, hroll]; exact lt_irrefl _), hup]

theorem execUpdateTrialEnd_passes (h5 : s.up.st = 5) (hr : s.up.revert = none)
    (ht : s.after s.up.trialClk (60 * cycS) = true) : Gives .updateTrialEnd s fun t =>
      t.up.st = 0 ∧ t.up.rollback = Nat.max s.up.rollback (satN 64 (hdrRollback s.up.header)) ∧
      t.up.active = s.up.active ∧
      (satN 64 (hdrRollback s.up.header) ≤ s.up.rollback ∨ Nat.max s.up.rollback (satN 64 (hdrRollback s.up.header)) ≤
          (region s (hdrKind s.up.header) (activeOf s (hdrKind s.up.header))).rollbackMin →
        hdrKind s.up.header < s.up.banks.length →
        (region t (hdrKind s.up.header) (activeOf s (hdrKind s.up.header))).st = 2) ∧
      t = { s with wd := t.wd, up := t.up, free := t.free } := by
  have he : exec .updateTrialEnd s = .next s.settledTrial.updIdle := if_pos (by rw [h5, hr, ht]; rfl)
  have hv := settledTrial_revokes s (hdrKind s.up.header) (activeOf s (hdrKind s.up.header))
  refine ⟨_, he, rfl, hv.rollback, hv.active, fun hlow hlen => ?_, (onUp_ch (settledTrial_changes s) rfl).eq_pick⟩
  have hpassed : region s.passed (hdrKind s.up.header) (activeOf s (hdrKind s.up.header)) =
      { region s (hdrKind s.up.header) (activeOf s (hdrKind s.up.header)) with st := 2 } := by
    refine Eq.trans (region_congr ?_ _ _) (onRegion_region (f := fun r => { r with st := 2 }) hlen)
    rfl
  have hidle : region s.settledTrial.updIdle (hdrKind s.up.header) (activeOf s (hdrKind s.up.header)) =
      region s.settledTrial (hdrKind s.up.header) (activeOf s (hdrKind s.up.header)) := region_congr rfl _ _
  rw [hidle]
  rcases hlow with hlow | hlow
  · rw [region_congr (settledTrial_of_low hlow), hpassed]
  · rw [hv.region (by rw [hpassed]; exact hlow), hpassed]

/-- Settles O22: a request answers from its checks and the state of the package, and the trial from the regions of its kind. -/
theorem updatePackagesAndTrials : Obligations.UpdatePackagesAndTrials := fun _ _ =>
  ⟨fun _ => execUpdateBegin_answers, execUpdateEraseDone_of_erasing, fun _ => execUpdateData_answers,
    fun _ ho hl hst => ⟨execUpdateVerify_of_good ho hl hst, fun _ => execUpdateVerify_of_bad ho hl hst⟩,
    fun _ ho hl hst hlk => ⟨execUpdateActivate_of_banked ho hl hst hlk, fun _ => execUpdateActivate_of_table ho hl hst hlk,
      fun _ => execUpdateActivate_of_bad ho hl hst hlk⟩,
    execUpdateAbort_answers, execUpdateStatus_replies, execUpdateSafePoint_starts, execUpdateSafePoint_reverts,
    execTrialReadyTimeout_fails, execUpdateTrialEnd_passes⟩

end Sys2Proof.Machine
end
section
/-! LEMMAS. The ports of the ring, the egress queues and the log, as the network's commands change them (R264, R277, R284). -/

namespace Sys2Proof.Machine

variable {s t : State} {k j : Nat}

/-! ### Ports -/

theorem port_congr (h : t.nt = s.nt) (k : Nat) : t.port k = s.port k := by rw [State.port, State.port, h]

theorem onPort_port {f : Port → Port} (hk : k < s.nt.ports.length) : (s.onPort k f).port k = f (s.port k) :=
  modAt_getD_self _ _ _ _ hk

theorem onPort_port_ne {f : Port → Port} (h : j ≠ k) : (s.onPort k f).port j = s.port j :=
  modAt_getD_ne _ _ _ _ _ h

/-- Of two ports all have a property where the one and the other has it. -/
theorem all_of_two {p : Port → Bool} {l : List Port} (hl : l.length = 2) (k : Fin 2) (d : Port) :
    l.all p = (p (l.getD k d) && p (l.getD (1 - k.val) d)) := by
  obtain ⟨a, b, rfl⟩ := List.length_eq_two.1 hl
  fin_cases k
  · simp
  · simp [Bool.and_comm]

/-- The other of two ports. -/
theorem other_ne (k : Fin 2) : 1 - k.val ≠ k := by omega

/-- An entry of the log changes the Warden alone. -/
theorem log_is (s : State) (code : Nat) (d : List Byte) (conts : List (List Byte)) :
    ∃ w, s.log code d conts = { s with wd := w } :=
  ⟨_, (log_ch (.refl [.wd] s) rfl).eq_pick⟩

/-! ### The egress queues -/

/-- A frame enters the queues at their end under some sequence number. -/
theorem enqueue_is (s : State) (f : OwnFrame) : ∃ q m, s.enqueue f =
    { s with nt := { s.nt with egress := s.nt.egress ++ [{ f with hsrSeq := q }], hsrSeq := m } } := ⟨_, _, rfl⟩

theorem enqueue_untagged {f : OwnFrame} (h : f.kind = .ptp ∨ f.kind = .forwarded) :
    s.enqueue f = { s with nt := { s.nt with egress := s.nt.egress ++ [f] } } := by
  have htag : (s.nt.mode == 0 && f.kind != .ptp && f.kind != .forwarded) = false := by
    rcases h with h | h <;> simp [h]
  unfold State.enqueue
  extract_lets tagged
  have ht : tagged = false := htag
  simp only [ht]
  rfl

theorem sendFrame_urgent {f : OwnFrame} (hup : s.nt.up = true) (h7 : f.prio = 7) : s.sendFrame f = s.enqueue f := by
  unfold State.sendFrame
  rw [if_neg (by simp [hup]), if_pos (by simp [h7])]

/-- A frame of the PTP stack enters the queues, where the network runs. -/
theorem sendPeer_eq (hup : s.nt.up = true) (k : Nat) (bs : List Byte) (id : Option Nat) (m : Option PtpMark) :
    s.sendPeer k bs id m = { s with nt := { s.nt with egress := s.nt.egress ++
      [{ rawFrame 7 .ptp bs (2 ^ k) with tsId := id, stepMark := s.te.stepsAccepted, ptp := m }] } } := by
  unfold State.sendPeer
  rw [sendFrame_urgent hup rfl, enqueue_untagged (.inl rfl)]

end Sys2Proof.Machine
end

section
/-! THEOREMS. Links, egress, admission, host frames and the reply to a broadcast IDENTIFY (R264, R276, R277, R283 to R285, R293;
O42). -/

namespace Sys2Proof.Machine

variable {s : State} {h : Hdr} {k : Fin 2} {i : Nat} {f : OwnFrame}

/-! ### Links (R276, R277) -/

theorem execLinkUp_brings {high : Bool} {sqi : Fin 8} (hon : portOn s k = true) (h0 : (s.port k).link = 0)
    (hl : s.nt.ports.length = 2) : Gives (.linkUp k high sqi) s fun t =>
      t.port k = { s.port k with sqi := sqi, link :=
        (if par s (pid 29 k 0) = 1 then 1 else if par s (pid 29 k 0) = 2 then 2 else if high then 1 else 2) } ∧
      (∀ j, j ≠ k.val → t.port j = s.port j) ∧ bitAt t.lk.irq 5 = true ∧
      t = { s with nt := { s.nt with ports := t.nt.ports }, lk := { s.lk with irq := t.lk.irq }, wd := t.wd } := by
  have he : exec (.linkUp k high sqi) s = execLinkUp k high sqi s := rfl
  unfold execLinkUp at he
  extract_lets m l at he
  rw [if_pos (by simp [hon, h0])] at he
  obtain ⟨w, hw⟩ := log_is ((s.onPort k fun p => { p with link := l, sqi := sqi }).irq 5) 0x0B01 (le 1 k ++ le 1 l) []
  rw [hw] at he
  have hk : (k : Nat) < s.nt.ports.length := by rw [hl]; exact k.2
  have hlink : l = (if par s (pid 29 k 0) = 1 then 1 else if par s (pid 29 k 0) = 2 then 2 else if high then 1 else 2) := by
    simp only [l, m, beq_iff_eq]
  refine ⟨_, he, ?_, fun j hj => onPort_port_ne hj, bitAt_setBit_self _ _, rfl⟩
  rw [← hlink]
  exact onPort_port hk

/-- The port's link is down and its peer delay forgotten. -/
def State.linkLost (s : State) (k : Nat) : State :=
  (s.onPort k fun p =>
    { p with link := 0, sqi := 0, peerDelay := none, peerRun := 0, peerAsk := false, linkDowns := u32 (p.linkDowns + 1),
             resp := none, syncWait := none, residence := [], syncClk := none }).irq 5

theorem linkLost_port (hl : s.nt.ports.length = 2) : (s.linkLost k).port k =
    { s.port k with link := 0, sqi := 0, peerDelay := none, peerRun := 0, peerAsk := false,
                    linkDowns := u32 ((s.port k).linkDowns + 1), resp := none, syncWait := none, residence := [], syncClk := none } :=
  onPort_port (by rw [hl]; exact k.2)

/-- A link that goes down closes the network sessions where the other one is down. -/
theorem portDown_eq (hl : s.nt.ports.length = 2) : ∃ w, s.portDown k =
    if (s.port (1 - k)).link = 0 then ({ s.linkLost k with wd := w }).dropSessions netSession else { s.linkLost k with wd := w } := by
  obtain ⟨w, hw⟩ := log_is (s.linkLost k) 0x0B02 (le 1 k ++ le 1 0) []
  refine ⟨w, ?_⟩
  have hlen : (s.linkLost k).nt.ports.length = 2 := (modAt_length ..).trans hl
  have hall : (s.linkLost k).nt.ports.all (fun p => p.link == 0) = ((s.port (1 - k)).link == 0) := by
    rw [all_of_two hlen k Port.reset]
    have hk : ((s.linkLost k).nt.ports.getD k Port.reset).link = 0 := congrArg Port.link (linkLost_port hl)
    have ho : (s.linkLost k).nt.ports.getD (1 - k) Port.reset = s.port (1 - k) := onPort_port_ne (other_ne k)
    rw [hk, ho]
    rfl
  unfold State.portDown
  extract_lets s1
  have h1 : s1 = { s.linkLost k with wd := w } := hw
  rw [h1]
  dsimp only
  rw [hall]
  exact if_congr beq_iff_eq rfl rfl

theorem execLinkDown_brings (hup : portUp s k = true) (hl : s.nt.ports.length = 2) : Gives (.linkDown k) s fun t =>
      (t.port k).link = 0 ∧ (t.port k).peerDelay = none ∧ (t.port k).linkDowns = u32 ((s.port k).linkDowns + 1) ∧
      (∀ j, j ≠ k.val → t.port j = s.port j) ∧ bitAt t.lk.irq 5 = true ∧
      ((s.port (1 - k)).link = 0 → ∀ x ∈ t.se.open_, netSession x = false) ∧
      ((s.port (1 - k)).link ≠ 0 → t.se = s.se ∧ t.hm = s.hm) ∧
      t = { s with nt := { s.nt with ports := t.nt.ports }, lk := { s.lk with irq := t.lk.irq }, wd := t.wd,
                   se := { s.se with open_ := t.se.open_ }, hm := { s.hm with forces := t.hm.forces } } := by
  obtain ⟨w, hw⟩ := portDown_eq (k := k) hl
  have hport := linkLost_port (k := k) hl
  have hothers (j : Nat) (hj : j ≠ k.val) : (s.linkLost k).port j = s.port j := onPort_port_ne hj
  have hirq : bitAt (s.linkLost k).lk.irq 5 = true := bitAt_setBit_self _ _
  refine ⟨s.portDown k, if_pos hup, ?_⟩
  rw [hw]
  by_cases ho : (s.port (1 - k)).link = 0
  · rw [if_pos ho]
    refine ⟨congrArg Port.link hport, congrArg Port.peerDelay hport, congrArg Port.linkDowns hport, hothers, hirq,
      fun _ x hx => ?_, fun h => absurd ho h, rfl⟩
    simpa using (List.mem_filter.1 hx).2
  · rw [if_neg ho]
    exact ⟨congrArg Port.link hport, congrArg Port.peerDelay hport, congrArg Port.linkDowns hport, hothers, hirq,
      fun h => absurd h ho, fun _ => ⟨rfl, rfl⟩, rfl⟩

/-! ### Egress (R264, R284, R289, R290) -/

/-- What an own frame that leaves on its first port makes of queue and phasor engine. -/
theorem firstLeft_eq (s : State) (f : OwnFrame) : ∃ qu pm,
    (if true && !f.left then s.frameSent f else s) = { s with qu := qu, pm := pm } ∧
    (f.kind = .bulk → f.left = false →
      qu = { s.qu.freeEntries 0 (s.qu.flying.headD 0) with flying := s.qu.flying.drop 1 }) ∧
    (¬(f.kind = .bulk ∧ f.left = false) → qu = s.qu) ∧
    (f.kind = .phasor → f.left = false → pm = { s.pm with sent := u32 (s.pm.sent + 1) }) ∧
    (¬(f.kind = .phasor ∧ f.left = false) → pm = s.pm) := by
  cases hl : f.left with
  | true =>
    exact ⟨s.qu, s.pm, if_neg (by decide), nofun, fun _ => rfl, nofun, fun _ => rfl⟩
  | false =>
    unfold State.frameSent
    rw [if_pos (by decide)]
    by_cases hb : f.kind = .bulk
    · rw [if_pos (by simp [hb])]
      exact ⟨_, s.pm, rfl, fun _ _ => rfl, fun hn => absurd ⟨hb, rfl⟩ hn, fun hp => by simp [hb] at hp, fun _ => rfl⟩
    · rw [if_neg (by simpa using hb)]
      by_cases hp : f.kind = .phasor
      · rw [if_pos (by simp [hp])]
        exact ⟨s.qu, _, rfl, fun h => absurd h hb, fun _ => rfl, fun _ _ => rfl, fun hn => absurd ⟨hp, rfl⟩ hn⟩
      · rw [if_neg (by simpa using hp)]
        exact ⟨s.qu, s.pm, rfl, fun h => absurd h hb, fun _ => rfl, fun h => absurd h hp, fun _ => rfl⟩

theorem txStamp_cnt (s : State) (host : Bool) (id port : Nat) (stepped : Bool) :
    (s.txStamp host id port stepped).te.cnt = s.te.cnt := by
  unfold State.txStamp
  extract_lets e
  rw [onTe_te]
  split
  · split <;> rfl
  · split <;> rfl

/-- A timestamp changes the time engine's queues alone. -/
theorem stampFrame_eq (s : State) (k : Nat) (f : OwnFrame) : ∃ te, s.stampFrame k f = { s with te := te } ∧
    te.cnt = s.te.cnt ∧ (f.tsId = none → te = s.te) := by
  unfold State.stampFrame
  cases hid : f.tsId with
  | none => exact ⟨s.te, rfl, rfl, fun _ => rfl⟩
  | some n =>
    exact ⟨_, rfl, txStamp_cnt .., nofun⟩

/-- After a Pdelay_Resp its follow-up may join the queues; after another frame nothing happens. -/
theorem answerFollow_eq (hup : s.nt.up = true) (k : Nat) (f : OwnFrame) : ∃ te l, s.answerFollow k f =
    { s with te := te, nt := { s.nt with egress := s.nt.egress ++ l } } ∧ te.cnt = s.te.cnt ∧
    ((∀ a q c, f.ptp ≠ some (.response a q c)) → l = [] ∧ te = s.te) := by
  have hsame : s = { s with te := s.te, nt := { s.nt with egress := s.nt.egress ++ [] } } := by rw [List.append_nil]
  unfold State.answerFollow
  split
  next asker seq corr hp =>
    have hno {P : Prop} (hn : ∀ a q c, f.ptp ≠ some (.response a q c)) : P := absurd hp (hn asker seq corr)
    split
    · exact ⟨s.te, [], hsame, rfl, hno⟩
    · unfold State.takeStamp
      extract_lets mine l
      generalize (s.te.txInt.find? mine).map (fun e => ofTime80 e.time) = t3
      cases t3 with
      | none =>
        refine ⟨{ s.te with txInt := l, txOvInt := s.te.txOvInt && !l.isEmpty }, [], ?_, rfl, hno⟩
        dsimp only
        rw [List.append_nil]
        rfl
      | some t3 =>
        dsimp only
        rw [sendPeer_eq (by exact hup)]
        exact ⟨_, _, rfl, rfl, hno⟩
  next => exact ⟨s.te, [], hsame, rfl, fun _ => ⟨rfl, rfl⟩⟩

/-- What stays in the queues once a frame has left on a port or was lost there. -/
def egressRest (s : State) (k : Fin 2) (i : Nat) (f : OwnFrame) : List OwnFrame :=
  if clrBit f.ports k = 0 then s.nt.egress.eraseIdx i
  else modAt s.nt.egress i fun x => { x with ports := clrBit f.ports k, left := x.left || portUp s k }

/-- The frame is out of the port's queue. -/
def State.outOfQueue (s : State) (k : Fin 2) (i : Nat) (f : OwnFrame) : State :=
  (if portUp s k && !f.left then s.frameSent f else s).onNt fun n =>
    { n with egress := if clrBit f.ports k == 0 then n.egress.eraseIdx i
                       else modAt n.egress i fun x => { x with ports := clrBit f.ports k, left := x.left || portUp s k } }

/-- What a frame that has left a port leaves there. -/
def portSent (s : State) (k : Fin 2) (f : OwnFrame) (p : Port) : Port :=
  { p with txFrames := u32 (p.txFrames + 1), last := some { f with bytes := corrected s k f },
           sentLog := (s.clk, wireBytes s f) :: p.sentLog.filter (fun e => s.clk < e.1 + 12800000),
           residence := residenceOf s k f }

theorem execFrameTransmit_eq (hn : nextFrame k 0 s.nt.egress none = some (i, f)) : exec (.frameTransmit k) s = .next
    (if portUp s k then ((((s.outOfQueue k i f).onPort k (portSent s k f)).stampFrame k f).answerFollow k f).landed
    else if clrBit f.ports k == 0 && !f.left then (s.outOfQueue k i f).frameLost f else s.outOfQueue k i f) := by
  have he : exec (.frameTransmit k) s = execFrameTransmit k s := rfl
  rw [he, execFrameTransmit, hn, apply_ite Host.Outcome.next, apply_ite Host.Outcome.next]
  rfl

theorem outOfQueue_is (s : State) (k : Fin 2) (i : Nat) (f : OwnFrame) (x : State)
    (hx : (if portUp s k && !f.left then s.frameSent f else s) = x) (hnt : x.nt = s.nt) :
    s.outOfQueue k i f = { x with nt := { s.nt with egress := egressRest s k i f } } := by
  have hrest : egressRest s k i f = if clrBit f.ports k == 0 then s.nt.egress.eraseIdx i
      else modAt s.nt.egress i fun x => { x with ports := clrBit f.ports k, left := x.left || portUp s k } :=
    (if_congr beq_iff_eq rfl rfl).symm
  rw [State.outOfQueue, hx, hrest, State.onNt, hnt]

theorem execFrameTransmit_of_up (hn : nextFrame k 0 s.nt.egress none = some (i, f)) (hl : s.nt.ports.length = 2)
    (hup : portUp s k = true) : Gives (.frameTransmit k) s fun t =>
      (t.port k).txFrames = u32 ((s.port k).txFrames + 1) ∧
      (t.port k).last = some { f with bytes := corrected s k f } ∧ (∀ j, j ≠ k.val → t.port j = s.port j) ∧
      (∃ l, t.nt.egress = egressRest s k i f ++ l ∧
        ((∀ a q c, f.ptp ≠ some (.response a q c)) → l = [] ∧ (f.tsId = none → t.te = s.te))) ∧
      (f.kind = .bulk → f.left = false →
        t.qu = { s.qu.freeEntries 0 (s.qu.flying.headD 0) with flying := s.qu.flying.drop 1 }) ∧
      (¬(f.kind = .bulk ∧ f.left = false) → t.qu = s.qu) ∧
      (f.kind = .phasor → f.left = false → t.pm = { s.pm with sent := u32 (s.pm.sent + 1) }) ∧
      (¬(f.kind = .phasor ∧ f.left = false) → t.pm = s.pm) ∧ t.te.cnt = s.te.cnt ∧
      t = { s with nt := { s.nt with egress := t.nt.egress, ports := t.nt.ports }, hw := { s.hw with flight := [] },
                   te := t.te, qu := t.qu, pm := t.pm } := by
  have he := execFrameTransmit_eq hn
  rw [if_pos hup] at he
  obtain ⟨qu, pm, h0, hbulk, hnobulk, hphasor, hnophasor⟩ := firstLeft_eq s f
  have htaken := outOfQueue_is s k i f { s with qu := qu, pm := pm } (by rw [hup]; exact h0) rfl
  obtain ⟨te, hstamp, hcnt, hte⟩ := stampFrame_eq ((s.outOfQueue k i f).onPort k (portSent s k f)) k f
  have hrun : s.nt.up = true := by
    rw [portUp, Bool.and_eq_true] at hup
    exact hup.1
  rw [hstamp, htaken] at he
  rw [htaken] at hcnt hte
  obtain ⟨te2, l, hfollow, hcnt2, hnone⟩ := answerFollow_eq (s := { ({ { s with qu := qu, pm := pm } with
    nt := { s.nt with egress := egressRest s k i f } }).onPort k (portSent s k f) with te := te }) hrun k f
  rw [hfollow] at he
  have hk : (k : Nat) < s.nt.ports.length := by rw [hl]; exact k.2
  have hport : (modAt s.nt.ports k (portSent s k f)).getD k Port.reset = portSent s k f (s.port k) := modAt_getD_self _ _ _ _ hk
  refine ⟨_, he, congrArg Port.txFrames hport, congrArg Port.last hport, fun j hj => modAt_getD_ne _ _ _ _ _ hj, ⟨l, rfl, fun hp => ?_⟩,
    hbulk, hnobulk, hphasor, hnophasor, hcnt2.trans hcnt, rfl⟩
  obtain ⟨hnil, hsame⟩ := hnone hp
  exact ⟨hnil, fun hid => hsame.trans (hte hid)⟩

theorem execFrameTransmit_of_down (hn : nextFrame k 0 s.nt.egress none = some (i, f)) (hdown : portUp s k = false) :
    Gives (.frameTransmit k) s fun t =>
      (f.kind ≠ .bulk → t.nt.egress = egressRest s k i f ∧ t.qu = s.qu) ∧
      (f.kind = .bulk → clrBit f.ports k = 0 → f.left = false →
        t.nt.egress = (egressRest s k i f).filter (fun x => x.kind != .bulk) ∧ t.qu = { s.qu with flying := [] }) ∧
      t = { s with nt := { s.nt with egress := t.nt.egress }, qu := { s.qu with flying := t.qu.flying },
                   pm := { s.pm with skipped := t.pm.skipped } } := by
  have he := execFrameTransmit_eq hn
  rw [if_neg (by rw [hdown]; decide), outOfQueue_is s k i f s (by rw [hdown]; rfl) rfl] at he
  by_cases hlost : clrBit f.ports k = 0 ∧ f.left = false
  · obtain ⟨h0, hl⟩ := hlost
    rw [if_pos (by rw [h0, hl]; rfl), State.frameLost] at he
    by_cases hb : f.kind = .bulk
    · rw [if_pos (by simp [hb])] at he
      exact ⟨_, he, fun hn => absurd hb hn, fun _ _ _ => ⟨rfl, rfl⟩, rfl⟩
    · rw [if_neg (by simpa using hb)] at he
      by_cases hp : f.kind = .phasor
      · rw [if_pos (by simp [hp])] at he
        exact ⟨_, he, fun _ => ⟨rfl, rfl⟩, fun h => absurd h hb, rfl⟩
      · rw [if_neg (by simpa using hp)] at he
        exact ⟨_, he, fun _ => ⟨rfl, rfl⟩, fun h => absurd h hb, rfl⟩
  · rw [if_neg (by simpa using hlost)] at he
    exact ⟨_, he, fun _ => ⟨rfl, rfl⟩, fun _ h0 hl => absurd ⟨h0, hl⟩ hlost, rfl⟩

theorem execFrameTransmit_of_none (hn : nextFrame k 0 s.nt.egress none = none) : exec (.frameTransmit k) s = .next s := by
  have he : exec (.frameTransmit k) s = execFrameTransmit k s := rfl
  rw [he, execFrameTransmit, hn]

/-! ### Admission (R285) -/

theorem execOwnFrameAdmission_of_none (hn : waitingNext s = none) : exec .ownFrameAdmission s = .next s := by
  have he : exec .ownFrameAdmission s = execOwnFrameAdmission s := rfl
  rw [he, execOwnFrameAdmission, hn]

theorem execOwnFrameAdmission_of_some (hn : waitingNext s = some (i, f)) : exec .ownFrameAdmission s =
    if admits s f then
      let s1 := ((s.onNt fun n => { n with waiting := n.waiting.eraseIdx i }).charge f).enqueue f
      .next (if f.kind == .phasor then s1.onPm fun p => { p with waitEnd := p.waitEnd.drop 1 } else s1)
    else if limiterOk s f.ports || f.held then .next s
    else .next (s.onNt fun n =>
      { n with waiting := modAt n.waiting i (fun x => { x with held := true }), reserveHeld := u32 (n.reserveHeld + 1) }) := by
  have he : exec .ownFrameAdmission s = execOwnFrameAdmission s := rfl
  rw [he, execOwnFrameAdmission, hn]

theorem execOwnFrameAdmission_admits (hn : waitingNext s = some (i, f)) (ha : admits s f = true) :
    Gives .ownFrameAdmission s fun t =>
      t.nt.waiting = s.nt.waiting.eraseIdx i ∧ t.nt.tokens = tokensNow s - wireBytes s f * tokenByte ∧
      t.nt.tokenClk = s.clk ∧ (∃ q, t.nt.egress = s.nt.egress ++ [{ f with hsrSeq := q }]) ∧
      t = { s with pm := { s.pm with waitEnd := t.pm.waitEnd },
                   nt := { s.nt with waiting := t.nt.waiting, tokens := t.nt.tokens, tokenClk := t.nt.tokenClk,
                                     egress := t.nt.egress, hsrSeq := t.nt.hsrSeq } } := by
  have he := execOwnFrameAdmission_of_some hn
  rw [if_pos ha] at he
  dsimp only at he
  by_cases hp : f.kind = .phasor
  · rw [if_pos (by simp [hp])] at he
    exact ⟨_, he, rfl, rfl, rfl, ⟨_, rfl⟩, rfl⟩
  · rw [if_neg (by simpa using hp)] at he
    exact ⟨_, he, rfl, rfl, rfl, ⟨_, rfl⟩, rfl⟩

theorem execOwnFrameAdmission_waits (hn : waitingNext s = some (i, f)) (ha : admits s f = false)
    (hw : limiterOk s f.ports = true ∨ f.held = true) : exec .ownFrameAdmission s = .next s := by
  rw [execOwnFrameAdmission_of_some hn, if_neg (by rw [ha]; decide), if_pos (by simpa using hw)]

theorem execOwnFrameAdmission_held (hn : waitingNext s = some (i, f)) (hlim : limiterOk s f.ports = false)
    (hh : f.held = false) : exec .ownFrameAdmission s = .next { s with nt := { s.nt with
      waiting := modAt s.nt.waiting i fun x => { x with held := true }, reserveHeld := u32 (s.nt.reserveHeld + 1) } } := by
  have ha : admits s f = false := by rw [admits, hlim, Bool.and_false]
  rw [execOwnFrameAdmission_of_some hn, if_neg (by rw [ha]; decide), if_neg (by rw [hlim, hh]; decide)]
  rfl

/-! ### Host frames (R293) -/

theorem execNetTx_replies {ports flags id : Nat} {frame : List Byte} (ho : Opens opNetTx h s) (hl : h.len = 4 + frame.length)
    (h14 : 14 ≤ frame.length) (hmax : frame.length ≤ 1514) (hf : flags = 1 ∨ (flags = 0 ∧ s.lk.hushed = false)) (hp : ports ≤ 3) :
    exec (.netTx h ports flags id frame) s = .next (((s.accepted h).sendFrame
      { rawFrame (if flags = 1 then 7 else 0) .host frame (hostPorts (s.accepted h) ports frame) with
        tsId := if flags = 1 then some id else none, stepMark := s.te.stepsAccepted }).replied opNetTx h .ok (zeros 2)) := by
  have he : exec (.netTx h ports flags id frame) s = execNetTx h ports flags id frame s := rfl
  have hlen : (h.len == 4 + frame.length && decide (14 ≤ frame.length) && decide (frame.length ≤ 1514)) = true := by
    simp [hl, h14, hmax]
  have hchecks : firstFail [(!bitAt flags 0 && (s.accepted h).lk.hushed, Status.hushed),
      (decide (3 < ports) || decide (1 < flags), .valueRange)] = none := by
    rw [decide_eq_false (Nat.not_lt.2 hp)]
    rcases hf with rfl | ⟨rfl, hh⟩
    · rfl
    · have hhush : (s.accepted h).lk.hushed = false := by rw [accepted_lk]; exact hh
      rw [hhush]
      rfl
  rw [he, execNetTx, serve_opens ho hlen hchecks]
  dsimp only
  rw [accepted_te]
  rcases hf with rfl | ⟨rfl, -⟩
  · rfl
  · rfl

theorem execNetRxRead_of_held {g : RxFrame} {r : List RxFrame} (ho : Opens opNetRxRead h s) (hl : h.len = 0)
    (hq : s.nt.rxQueue = g :: r) : exec (.netRxRead h) s =
      .next (((s.accepted h).onNt fun n => { n with rxQueue := r }).replied opNetRxRead h .ok
        (le 1 g.port ++ zeros 1 ++ le 10 (time80 g.time) ++ zeros 2 ++ le 4 s.nt.rxLost ++ g.bytes)) := by
  have he : exec (.netRxRead h) s = execNetRxRead h s := rfl
  rw [he, execNetRxRead, serve_opens ho (beq_iff_eq.2 hl) rfl, accepted_nt, hq]

theorem execNetRxRead_of_empty (ho : Opens opNetRxRead h s) (hl : h.len = 0) (hq : s.nt.rxQueue = []) :
    exec (.netRxRead h) s = .next ((s.accepted h).replied opNetRxRead h .ok (zeros 14 ++ le 4 s.nt.rxLost)) := by
  have he : exec (.netRxRead h) s = execNetRxRead h s := rfl
  rw [he, execNetRxRead, serve_opens ho (beq_iff_eq.2 hl) rfl, accepted_nt, hq]

/-! ### The reply to a broadcast IDENTIFY (R283) -/

theorem execIdentifyBroadcastReply_sends {clk addr port tag : Nat} {r : List (Nat × Nat × Nat × Nat)}
    (hi : s.nt.idents = (clk, addr, port, tag) :: r) (ha : s.after clk (32000 * s.nt.node) = true) (hup : s.nt.up = true)
    (h2 : 2 ≤ s.pw.stage) : Gives .identifyBroadcastReply s fun t =>
      t.nt.idents = r ∧ (∃ g, t.nt.egress = s.nt.egress ++ [g] ∧ g.prio = 7 ∧ g.dst = (addr, port) ∧
        g.bytes = packet 0x81 tag 0x0101 s.nt.node (le 2 0 ++ identifyBytes s)) ∧
      t = { s with nt := { s.nt with idents := r, egress := t.nt.egress, hsrSeq := t.nt.hsrSeq } } := by
  have he : exec .identifyBroadcastReply s = execIdentifyBroadcastReply s := rfl
  rw [execIdentifyBroadcastReply, hi] at he
  dsimp only at he
  rw [if_pos (by simp [hup, h2, ha]), sendFrame_urgent (by exact hup) rfl] at he
  generalize packet 0x81 tag 0x0101 s.nt.node (le 2 0 ++ identifyBytes s) = bs at he ⊢
  exact ⟨_, he, rfl, ⟨_, rfl, rfl, rfl, rfl⟩, rfl⟩

/-- Settles O42: each command comes down to the update of one port, of the queues or of the token bucket that it names. -/
theorem linksFramesAndHostFrames : Obligations.LinksFramesAndHostFrames := fun _ =>
  ⟨fun _ _ _ => execLinkUp_brings, fun _ => execLinkDown_brings,
    fun _ _ _ hn hl => ⟨execFrameTransmit_of_up hn hl, execFrameTransmit_of_down hn⟩, fun _ => execFrameTransmit_of_none,
    fun _ _ => execOwnFrameAdmission_admits, fun _ _ => execOwnFrameAdmission_waits, fun _ _ => execOwnFrameAdmission_held,
    execOwnFrameAdmission_of_none, fun _ _ _ _ _ => execNetTx_replies, fun _ _ _ => execNetRxRead_of_held,
    fun _ => execNetRxRead_of_empty, fun _ _ _ _ _ => execIdentifyBroadcastReply_sends⟩

end Sys2Proof.Machine
end
section
/-! LEMMAS. The reception of a frame up to the switch, and what the MAC leaves of the network state (R278, R279, R293, R294). -/

namespace Sys2Proof.Machine

variable {s t u : State} {k : Fin 2} {f : FrameIn}

/-! ### Reception -/

/-- The port has counted a frame. -/
def State.frameCounted (s : State) (k : Nat) (f : FrameIn) : State :=
  s.onPort k fun p => { p with rxFrames := u32 (p.rxFrames + 1), sqi := f.sqi }

/-- A frame as the port hands it to the switch. -/
def heardOn (s : State) (k : Fin 2) (f : FrameIn) : Heard :=
  ⟨ethOf (s.nt.mode == 0) (frameBody f), frameBody f, k, f.rx - latency s k 3⟩

theorem receive_of_good (hup : portUp s k = true) (hg : frameGood f = true) :
    s.receive k f = (s.frameCounted k f).switchFrame (heardOn s k f) := by
  unfold State.receive
  rw [if_neg (by simp [hup]), if_neg (by simp [hg])]
  rfl

theorem onPort_onPort (s : State) (k : Nat) (f g : Port → Port) : (s.onPort k f).onPort k g = s.onPort k fun p => g (f p) := by
  have hp : modAt (modAt s.nt.ports k f) k g = modAt s.nt.ports k fun p => g (f p) := List.modify_modify_eq ..
  unfold State.onPort
  rw [State.onNt, State.onNt, State.onNt]
  dsimp only
  rw [hp]

/-- The port with its count of frames and of errors. -/
theorem frameCounted_error (s : State) (k : Nat) (f : FrameIn) :
    ((s.frameCounted k f).onPort k fun p => { p with rxErrors := u32 (p.rxErrors + 1) }) =
      s.onPort k fun p => { p with rxFrames := u32 (p.rxFrames + 1), sqi := f.sqi, rxErrors := u32 (p.rxErrors + 1) } :=
  onPort_onPort ..

theorem frameCounted_port (hl : s.nt.ports.length = 2) : (s.frameCounted k f).port k =
    { s.port k with rxFrames := u32 ((s.port k).rxFrames + 1), sqi := f.sqi } :=
  onPort_port (by rw [hl]; exact k.2)

/-! ### The MAC -/

/-- Forwarded frames in the egress queues. -/
def forwarded (s : State) : List OwnFrame := s.nt.egress.filter fun x => x.kind == .forwarded

/-- From `s` to `t` the tables of the switch, the ports and the forwarded frames stay. -/
structure KeepsTables (s t : State) : Prop where
  ch : Changes [.lk, .nt, .qu, .pm] s t
  ports : t.nt.ports = s.nt.ports
  discard : t.nt.discard = s.nt.discard
  dupPassed : t.nt.dupPassed = s.nt.dupPassed
  learn : t.nt.learn = s.nt.learn
  fwd : forwarded t = forwarded s

theorem KeepsTables.refl (s : State) : KeepsTables s s := ⟨.refl _ s, rfl, rfl, rfl, rfl, rfl⟩

theorem KeepsTables.trans (h : KeepsTables s t) (g : KeepsTables t u) : KeepsTables s u :=
  ⟨h.ch.trans g.ch, g.ports.trans h.ports, g.discard.trans h.discard, g.dupPassed.trans h.dupPassed, g.learn.trans h.learn,
    g.fwd.trans h.fwd⟩

/-- A change of other fields of the network state keeps the tables. -/
theorem onNt_keepsTables {g : Net → Net} (hports : (g s.nt).ports = s.nt.ports) (hdiscard : (g s.nt).discard = s.nt.discard)
    (hpassed : (g s.nt).dupPassed = s.nt.dupPassed) (hlearn : (g s.nt).learn = s.nt.learn)
    (hegress : (g s.nt).egress = s.nt.egress) : KeepsTables s (s.onNt g) :=
  ⟨onNt_ch (.refl _ s) rfl, hports, hdiscard, hpassed, hlearn, congrArg (List.filter _) hegress⟩

theorem hostHold_keepsTables (s : State) (f : Heard) : KeepsTables s (s.hostHold f) := by
  unfold State.hostHold
  extract_lets u
  split
  · exact .refl s
  · apply onNt_keepsTables <;> split <;> rfl

theorem learnAddress_keepsTables (s : State) (e : Eth) : KeepsTables s (s.learnAddress e) := by
  unfold State.learnAddress
  split
  · apply onNt_keepsTables <;> dsimp only
  · exact .refl s

/-- HUSH leaves forwarded frames in the queues (R313). -/
theorem hush_keepsTables (s : State) (src : Nat) : KeepsTables s (s.hush src) := by
  have hnt := hush_nt s src
  refine ⟨hush_ch (.refl _ s) rfl, by rw [hnt], by rw [hnt], by rw [hnt], by rw [hnt], ?_⟩
  rw [forwarded, hnt, forwarded, List.filter_filter]
  refine List.filter_congr fun x _ => ?_
  cases hx : x.kind == FrameKind.forwarded <;> simp [kept, hx]

/-- An own frame joins the queues. -/
theorem enqueue_keepsTables {f : OwnFrame} (h : f.kind ≠ .forwarded) : KeepsTables s (s.enqueue f) := by
  refine ⟨enqueue_ch (.refl _ s) rfl, rfl, rfl, rfl, rfl, ?_⟩
  unfold forwarded State.enqueue
  extract_lets tagged
  rw [onNt_nt]
  dsimp only
  rw [List.filter_append, List.filter_cons_of_neg (by simpa using h), List.filter_nil, List.append_nil]

theorem macCommand_keepsTables (s : State) (u : Udp) (pkt : List Byte) : KeepsTables s (s.macCommand u pkt) := by
  unfold State.macCommand
  extract_lets node s1
  split
  · exact ⟨onNt_ch (.refl _ s) rfl, rfl, rfl, rfl, rfl, rfl⟩
  · split
    · have h1 : KeepsTables s s1 := hush_keepsTables s 4
      split
      · exact h1
      · exact h1.trans (enqueue_keepsTables nofun)
    · exact .refl s

theorem toMac_keepsTables (s : State) (f : Heard) : KeepsTables s (s.toMac f) := by
  unfold State.toMac
  extract_lets s1
  have h1 : KeepsTables s s1 := (hostHold_keepsTables s f).trans (learnAddress_keepsTables _ f.eth)
  clear_value s1
  split
  · split
    · split
      · exact h1.trans (macCommand_keepsTables ..)
      · exact h1
    · exact h1
  · exact h1

/-- The MAC takes a frame that is for the device. -/
def State.toMacIf (s : State) (f : Heard) : State := if forDevice f.eth then s.toMac f else s

theorem toMacIf_keepsTables (s : State) (f : Heard) : KeepsTables s (s.toMacIf f) := by
  unfold State.toMacIf
  split
  · exact toMac_keepsTables s f
  · exact .refl s

/-- A forwarded frame joins the queues as it came. -/
theorem forward_forwarded (s : State) (f : Heard) : forwarded (s.forward f) = forwarded s ++
    [{ rawFrame (forwardPrio s f.eth) .forwarded f.bytes (2 - f.port) with hsrSeq := f.eth.seq.getD 0 }] := by
  unfold forwarded State.forward
  rw [onNt_nt]
  dsimp only
  rw [List.filter_append, List.filter_cons_of_pos rfl, List.filter_nil]

end Sys2Proof.Machine
end

section
/-! THEOREMS. A frame in the ring is forwarded once, tables age, and supervision opens and closes the ring (R278 to R281, Table 12-2;
O43). -/

namespace Sys2Proof.Machine

variable {s t x : State} {k : Fin 2} {f : FrameIn} {q : Nat}

/-! ### Frames (R278 to R280) -/

theorem execHsrFrameReceive_of_bad (hup : portUp s k = true) (hg : frameGood f = false) :
    exec (.hsrFrameReceive k f) s = .next (s.onPort k fun p =>
      { p with rxFrames := u32 (p.rxFrames + 1), sqi := f.sqi, rxErrors := u32 (p.rxErrors + 1) }) := by
  have he : exec (.hsrFrameReceive k f) s = .next (s.receive k f) := rfl
  rw [he, State.receive, if_neg (by simp [hup]), if_pos (by rw [hg]; rfl)]
  exact congrArg Host.Outcome.next (frameCounted_error s k f)

/-- In HSR mode a frame without a tag that is no PTP message is an error. -/
theorem execHsrFrameReceive_of_untagged (hup : portUp s k = true) (hg : frameGood f = true)
    (hp : ptpOf (ethOf (s.nt.mode == 0) (frameBody f)) = none) (hm : s.nt.mode = 0)
    (hq : (ethOf (s.nt.mode == 0) (frameBody f)).seq = none) :
    exec (.hsrFrameReceive k f) s = .next (s.onPort k fun p =>
      { p with rxFrames := u32 (p.rxFrames + 1), sqi := f.sqi, rxErrors := u32 (p.rxErrors + 1) }) := by
  have he : exec (.hsrFrameReceive k f) s = .next (s.receive k f) := rfl
  have hm1 : (s.frameCounted k f).nt.mode = 0 := hm
  rw [he, receive_of_good hup hg, State.switchFrame]
  unfold heardOn
  dsimp only
  rw [hp, hm1, hq]
  exact congrArg Host.Outcome.next (frameCounted_error s k f)

/-- A tagged frame goes to HSR. -/
theorem execHsrFrameReceive_of_tagged (hup : portUp s k = true) (hg : frameGood f = true) (hm : s.nt.mode = 0)
    (hq : (ethOf (s.nt.mode == 0) (frameBody f)).seq = some q) :
    exec (.hsrFrameReceive k f) s = .next ((s.frameCounted k f).hsrTagged (heardOn s k f) q) := by
  have he : exec (.hsrFrameReceive k f) s = .next (s.receive k f) := rfl
  have hm1 : (s.frameCounted k f).nt.mode = 0 := hm
  have hp : ptpOf (heardOn s k f).eth = none := by
    have hsome : (heardOn s k f).eth.seq = some q := hq
    rw [ptpOf, hsome]
    simp
  have hseq : (heardOn s k f).eth.seq = some q := hq
  rw [he, receive_of_good hup hg, State.switchFrame, hp]
  dsimp only
  rw [hm1, if_pos (by decide), hseq]

/-- A frame has been counted at its port, and the other port and all but the network and what HUSH reaches stay. -/
structure Arrives (k : Fin 2) (f : FrameIn) (s t : State) : Prop where
  ports : t.nt.ports = (s.frameCounted k f).nt.ports
  ch : Changes [.lk, .nt, .qu, .pm] s t

theorem Arrives.counts (h : Arrives k f s t) (hl : s.nt.ports.length = 2) :
    (t.port k).rxFrames = u32 ((s.port k).rxFrames + 1) ∧ (t.port k).sqi = f.sqi ∧
      ∀ j, j ≠ k.val → t.port j = s.port j := by
  have hp (j : Nat) : t.port j = (s.frameCounted k f).port j := by rw [State.port, h.ports]; rfl
  rw [hp k, frameCounted_port hl]
  exact ⟨rfl, rfl, fun j hj => (hp j).trans (onPort_port_ne hj)⟩

theorem frameCounted_arrives (s : State) (k : Fin 2) (f : FrameIn) : Arrives k f s (s.frameCounted k f) :=
  ⟨rfl, onPort_ch (.refl _ s) rfl⟩

theorem Arrives.keeps (h : Arrives k f s x) (g : KeepsTables x t) : Arrives k f s t := ⟨g.ports.trans h.ports, h.ch.trans g.ch⟩

theorem Arrives.onNt (h : Arrives k f s x) {g : Net → Net} (hg : ∀ n, (g n).ports = n.ports) : Arrives k f s (x.onNt g) :=
  ⟨(hg _).trans h.ports, onNt_ch h.ch rfl⟩

/-- The frame as it came joins the forwarded ones. -/
def PassedOn (k : Fin 2) (f : FrameIn) (s t : State) : Prop :=
  ∃ g, forwarded t = forwarded s ++ [g] ∧ g.bytes = frameBody f ∧ g.ports = 2 - k.val ∧
    ∀ q, (ethOf (s.nt.mode == 0) (frameBody f)).seq = some q → g.hsrSeq = q

theorem forward_passedOn (h : forwarded x = forwarded s) : PassedOn k f s (x.forward (heardOn s k f)) := by
  refine ⟨_, (forward_forwarded x _).trans (by rw [h]), rfl, rfl, fun q hq => ?_⟩
  have hseq : (heardOn s k f).eth.seq = some q := hq
  dsimp only
  rw [hseq, Option.getD_some]

theorem execHsrFrameReceive_of_other (hup : portUp s k = true) (hl : s.nt.ports.length = 2) (hg : frameGood f = true)
    (hm : s.nt.mode = 0) (hq : (ethOf (s.nt.mode == 0) (frameBody f)).seq = some q)
    (hsrc : (ethOf (s.nt.mode == 0) (frameBody f)).src ≠ macAddr) : Gives (.hsrFrameReceive k f) s fun t =>
      ((t.port k).rxFrames = u32 ((s.port k).rxFrames + 1) ∧ (t.port k).sqi = f.sqi ∧
        ∀ j, j ≠ k.val → t.port j = s.port j) ∧ t = { s with lk := t.lk, nt := t.nt, qu := t.qu, pm := t.pm } ∧
      (s.nt.discard.any (fun x => x.1 == ((ethOf (s.nt.mode == 0) (frameBody f)).src, q)) = true →
        t.nt.discard = s.nt.discard.filter (fun x => x.1 != ((ethOf (s.nt.mode == 0) (frameBody f)).src, q)) ∧
        t.nt.dupDiscarded = u32 (s.nt.dupDiscarded + 1) ∧ t.nt.egress = s.nt.egress) ∧
      (s.nt.discard.any (fun x => x.1 == ((ethOf (s.nt.mode == 0) (frameBody f)).src, q)) = false →
        t.nt.discard = (if 512 ≤ s.nt.discard.length then s.nt.discard.drop 1 else s.nt.discard) ++
          [(((ethOf (s.nt.mode == 0) (frameBody f)).src, q), s.clk)] ∧
        t.nt.dupPassed = (if s.nt.expired.contains ((ethOf (s.nt.mode == 0) (frameBody f)).src, q) then
          u32 (s.nt.dupPassed + 1) else s.nt.dupPassed) ∧
        ((ethOf (s.nt.mode == 0) (frameBody f)).dst = macAddr → forwarded t = forwarded s) ∧
        ((ethOf (s.nt.mode == 0) (frameBody f)).dst ≠ macAddr → PassedOn k f s t)) := by
  have he := execHsrFrameReceive_of_tagged hup hg hm hq
  have hpass {y : State} (hy : forwarded y = forwarded s) := forward_passedOn (k := k) (f := f) hy
  have heth : (heardOn s k f).eth = ethOf (s.nt.mode == 0) (frameBody f) := rfl
  generalize heardOn s k f = F at he heth hpass
  rw [← heth] at hsrc ⊢
  unfold State.hsrTagged at he
  extract_lets key s1 s2 at he
  rw [if_neg (by simpa using hsrc)] at he
  have hc := frameCounted_arrives s k f
  by_cases hd : s.nt.discard.any (fun x => x.1 == (F.eth.src, q)) = true
  · rw [if_pos (by exact hd)] at he
    have ha := hc.onNt (g := fun n =>
      { n with discard := n.discard.filter (fun e => e.1 != key), dupDiscarded := u32 (n.dupDiscarded + 1) }) fun _ => rfl
    exact ⟨_, he, ha.counts hl, ha.ch.eq_pick, fun _ => ⟨rfl, rfl, rfl⟩, fun h => by rw [hd] at h; cases h⟩
  · rw [if_neg (by exact hd)] at he
    have hs1 : Arrives k f s s1 := hc.onNt fun _ => rfl
    have h12 : KeepsTables s1 s2 := toMacIf_keepsTables s1 F
    have hs2 : Arrives k f s s2 := hs1.keeps h12
    have hfwd : forwarded s2 = forwarded s := h12.fwd
    have hdiscard : s2.nt.discard = _ := h12.discard
    have hpassed : s2.nt.dupPassed = _ := h12.dupPassed
    by_cases hdst : F.eth.dst = macAddr
    · rw [if_pos (by simpa using hdst)] at he
      exact ⟨_, he, hs2.counts hl, hs2.ch.eq_pick, fun h => absurd h hd, fun _ => ⟨hdiscard, hpassed, fun _ => hfwd,
        fun h => absurd hdst h⟩⟩
    · rw [if_neg (by simpa using hdst)] at he
      have ht : Arrives k f s (s2.forward F) := hs2.onNt fun _ => rfl
      exact ⟨_, he, ht.counts hl, ht.ch.eq_pick, fun h => absurd h hd, fun _ => ⟨hdiscard, hpassed, fun h => absurd h hdst,
        fun _ => hpass hfwd⟩⟩

/-! ### The own supervision frame, LINE and SINGLE mode (R278, R279, R281) -/

/-- The own supervision frame has been counted and noted at its port. -/
def State.superHeard (s : State) (k : Nat) (f : FrameIn) : State := s.onPort k fun p =>
  { p with rxFrames := u32 (p.rxFrames + 1), sqi := f.sqi, superBack := true, superMiss := 0 }

theorem frameCounted_superHeard (s : State) (k : Nat) (f : FrameIn) :
    ((s.frameCounted k f).onPort k fun p => { p with superBack := true, superMiss := 0 }) = s.superHeard k f :=
  onPort_onPort ..

theorem superHeard_port (hl : s.nt.ports.length = 2) : (s.superHeard k f).port k =
    { s.port k with rxFrames := u32 ((s.port k).rxFrames + 1), sqi := f.sqi, superBack := true, superMiss := 0 } :=
  onPort_port (by rw [hl]; exact k.2)

/-- The frame is back on every port once it is back on the other one. -/
theorem superHeard_all (hl : s.nt.ports.length = 2) :
    (s.superHeard k f).nt.ports.all (·.superBack) = (s.port (1 - k)).superBack := by
  have hlen : (s.superHeard k f).nt.ports.length = 2 := (List.length_modify ..).trans hl
  rw [all_of_two hlen k Port.reset]
  have hk : ((s.superHeard k f).nt.ports.getD k Port.reset).superBack = true := congrArg Port.superBack (superHeard_port hl)
  have ho : (s.superHeard k f).nt.ports.getD (1 - k) Port.reset = s.port (1 - k) := onPort_port_ne (other_ne k)
  rw [hk, ho, Bool.true_and]

theorem execHsrFrameReceive_of_own (hup : portUp s k = true) (hl : s.nt.ports.length = 2) (hg : frameGood f = true)
    (hm : s.nt.mode = 0) (hq : (ethOf (s.nt.mode == 0) (frameBody f)).seq = some q)
    (hsrc : (ethOf (s.nt.mode == 0) (frameBody f)).src = macAddr)
    (htype : (ethOf (s.nt.mode == 0) (frameBody f)).etype = 0x88FB) : Gives (.hsrFrameReceive k f) s fun t =>
      ((t.port k).rxFrames = u32 ((s.port k).rxFrames + 1) ∧ (t.port k).sqi = f.sqi ∧
        ∀ j, j ≠ k.val → t.port j = s.port j) ∧ (t.port k).superBack = true ∧ (t.port k).superMiss = 0 ∧
      t.nt.egress = s.nt.egress ∧ t.nt.discard = s.nt.discard ∧
      (s.nt.ringOpen = true → (t.nt.ringOpen = false ↔ (s.port (1 - k)).superBack = true)) ∧
      t = { s with lk := { s.lk with irq := t.lk.irq }, nt := t.nt, wd := t.wd, free := t.free } := by
  have he := execHsrFrameReceive_of_tagged hup hg hm hq
  have heth : (heardOn s k f).eth = ethOf (s.nt.mode == 0) (frameBody f) := rfl
  have hport : (heardOn s k f).port = k := rfl
  generalize heardOn s k f = F at he heth hport
  unfold State.hsrTagged at he
  rw [if_pos (by rw [heth, hsrc]; exact beq_self_eq_true _), if_pos (by rw [heth, htype]; rfl), hport] at he
  unfold State.superReturn at he
  rw [frameCounted_superHeard] at he
  have hall := superHeard_all (k := k) (f := f) hl
  have hp := superHeard_port (k := k) (f := f) hl
  have ho (j : Nat) (hj : j ≠ k.val) : (s.superHeard k f).port j = s.port j := onPort_port_ne hj
  have hopen : (s.superHeard k f).nt.ringOpen = s.nt.ringOpen := rfl
  dsimp only at he
  rw [hopen, hall] at he
  by_cases hc : (s.nt.ringOpen && (s.port (1 - k)).superBack) = true
  · rw [if_pos hc] at he
    generalize (le 1 0xFF ++ le 1 (Config.freeNat (s.frameCounted k f).free) : List Byte) = d at he
    obtain ⟨w, hw⟩ := log_is (((s.superHeard k f).onNt fun n => { n with ringOpen := false }).irq 5) 0x0B04 d []
    rw [hw] at he
    refine ⟨_, he, ⟨congrArg Port.rxFrames hp, congrArg Port.sqi hp, ho⟩, congrArg Port.superBack hp, congrArg Port.superMiss hp,
      rfl, rfl, fun _ => ⟨fun _ => ?_, fun _ => rfl⟩, rfl⟩
    exact (Bool.and_eq_true_iff.1 hc).2
  · rw [if_neg hc] at he
    refine ⟨_, he, ⟨congrArg Port.rxFrames hp, congrArg Port.sqi hp, ho⟩, congrArg Port.superBack hp, congrArg Port.superMiss hp,
      rfl, rfl, fun hr => ⟨fun h => ?_, fun h => absurd (Bool.and_eq_true_iff.2 ⟨hr, h⟩) hc⟩, rfl⟩
    rw [hopen, hr] at h
    cases h

/-- The learned destinations with the frame's source as the latest. -/
def learnedFrom (l : List (Nat × Nat × Nat)) (f : Heard) (clk : Nat) : List (Nat × Nat × Nat) :=
  l.filter (fun e => e.1 != f.eth.src) ++ [(f.eth.src, f.port, clk)]

/-- The bridge has learned the frame's source. -/
def State.sourceLearned (s : State) (f : Heard) : State := s.onNt fun n =>
  { n with learn := (learnedFrom n.learn f s.clk).drop ((learnedFrom n.learn f s.clk).length - 256) }

theorem sourceLearned_last (s : State) (F : Heard) :
    (s.sourceLearned F).nt.learn.getLast? = some (F.eth.src, F.port, s.clk) := by
  have hpos : 0 < (learnedFrom s.nt.learn F s.clk).length := by simp [learnedFrom]
  have hlast : (learnedFrom s.nt.learn F s.clk).getLast? = some (F.eth.src, F.port, s.clk) := List.getLast?_concat
  unfold State.sourceLearned
  rw [onNt_nt, List.getLast?_drop, if_neg (by omega), hlast]

theorem sourceLearned_length (s : State) (F : Heard) : (s.sourceLearned F).nt.learn.length ≤ 256 := by
  unfold State.sourceLearned
  rw [onNt_nt, List.length_drop]
  omega

theorem sourceLearned_forwarded (s : State) (F : Heard) : forwarded (s.sourceLearned F) = forwarded s := by
  unfold forwarded State.sourceLearned
  rw [onNt_nt]

theorem Arrives.sourceLearned (h : Arrives k f s x) (F : Heard) : Arrives k f s (x.sourceLearned F) :=
  h.onNt fun _ => by dsimp only

theorem execHsrFrameReceive_of_line (hup : portUp s k = true) (hl : s.nt.ports.length = 2) (hg : frameGood f = true)
    (hp : ptpOf (ethOf (s.nt.mode == 0) (frameBody f)) = none) (hm : s.nt.mode = 1) : Gives (.hsrFrameReceive k f) s fun t =>
      ((t.port k).rxFrames = u32 ((s.port k).rxFrames + 1) ∧ (t.port k).sqi = f.sqi ∧
        ∀ j, j ≠ k.val → t.port j = s.port j) ∧ t = { s with lk := t.lk, nt := t.nt, qu := t.qu, pm := t.pm } ∧
      t.nt.learn.getLast? = some ((ethOf (s.nt.mode == 0) (frameBody f)).src, k.val, s.clk) ∧ t.nt.learn.length ≤ 256 ∧
      ((ethOf (s.nt.mode == 0) (frameBody f)).dst = macAddr ∨
        (s.nt.learn.lookup (ethOf (s.nt.mode == 0) (frameBody f)).dst).any (fun x => x.1 == k.val) = true →
        forwarded t = forwarded s) ∧
      ((ethOf (s.nt.mode == 0) (frameBody f)).dst ≠ macAddr →
        (s.nt.learn.lookup (ethOf (s.nt.mode == 0) (frameBody f)).dst).any (fun x => x.1 == k.val) = false →
        PassedOn k f s t) := by
  have he : exec (.hsrFrameReceive k f) s = .next (s.receive k f) := rfl
  have hm1 : (s.frameCounted k f).nt.mode = 1 := hm
  have heth : (heardOn s k f).eth = ethOf (s.nt.mode == 0) (frameBody f) := rfl
  rw [receive_of_good hup hg, State.switchFrame, heth, hp] at he
  dsimp only at he
  rw [hm1, if_neg (by decide), if_pos (by decide)] at he
  have hpass {y : State} (hy : forwarded y = forwarded s) := forward_passedOn (k := k) (f := f) hy
  have hport : (heardOn s k f).port = k := rfl
  generalize heardOn s k f = F at he heth hport hpass
  rw [← heth]
  unfold State.bridge at he
  extract_lets s1 s2 at he
  have hlast : s1.nt.learn.getLast? = some (F.eth.src, k.val, s.clk) := hport ▸ sourceLearned_last (s.frameCounted k f) F
  have hlen : s1.nt.learn.length ≤ 256 := sourceLearned_length (s.frameCounted k f) F
  have hs1 : Arrives k f s s1 := (frameCounted_arrives s k f).sourceLearned F
  have hs1fwd : forwarded s1 = forwarded s := sourceLearned_forwarded (s.frameCounted k f) F
  clear_value s1
  have h12 : KeepsTables s1 s2 := toMacIf_keepsTables s1 F
  clear_value s2
  have hs2 : Arrives k f s s2 := hs1.keeps h12
  have hfwd : forwarded s2 = forwarded s := h12.fwd.trans hs1fwd
  rw [← h12.learn] at hlast hlen
  have hlearn : (s.frameCounted k f).nt.learn = s.nt.learn := rfl
  rw [hport, hlearn] at he
  by_cases hc : F.eth.dst = macAddr ∨ (s.nt.learn.lookup F.eth.dst).any (fun x => x.1 == k.val) = true
  · rw [if_pos (by simpa using hc)] at he
    refine ⟨_, he, hs2.counts hl, hs2.ch.eq_pick, hlast, hlen, fun _ => hfwd, fun h1 h2 => ?_⟩
    rw [h2] at hc
    exact absurd hc (by simp [h1])
  · rw [if_neg (by simpa using hc)] at he
    have ht : Arrives k f s (s2.forward F) := hs2.onNt fun _ => rfl
    exact ⟨_, he, ht.counts hl, ht.ch.eq_pick, hlast, hlen, fun h => absurd h hc, fun _ _ => hpass hfwd⟩

theorem execHsrFrameReceive_of_single (hup : portUp s k = true) (hl : s.nt.ports.length = 2) (hg : frameGood f = true)
    (hp : ptpOf (ethOf (s.nt.mode == 0) (frameBody f)) = none) (hm : s.nt.mode = 2) : Gives (.hsrFrameReceive k f) s fun t =>
      ((t.port k).rxFrames = u32 ((s.port k).rxFrames + 1) ∧ (t.port k).sqi = f.sqi ∧
        ∀ j, j ≠ k.val → t.port j = s.port j) ∧ t = { s with lk := t.lk, nt := t.nt, qu := t.qu, pm := t.pm } ∧
      forwarded t = forwarded s := by
  have he : exec (.hsrFrameReceive k f) s = .next (s.receive k f) := rfl
  have hm1 : (s.frameCounted k f).nt.mode = 2 := hm
  have heth : (heardOn s k f).eth = ethOf (s.nt.mode == 0) (frameBody f) := rfl
  rw [receive_of_good hup hg, State.switchFrame, heth, hp] at he
  dsimp only at he
  rw [hm1, if_neg (by decide), if_neg (by decide), ← heth] at he
  have hk := toMacIf_keepsTables (s.frameCounted k f) (heardOn s k f)
  have ht := (frameCounted_arrives s k f).keeps hk
  exact ⟨_, he, ht.counts hl, ht.ch.eq_pick, hk.fwd⟩

/-! ### Ageing and supervision (R278, R280, R281) -/

/-- An own frame enters the queues of the HSR mode with the next sequence number. -/
theorem enqueue_tagged {g : OwnFrame} (hm : s.nt.mode = 0) (hptp : g.kind ≠ .ptp) (hfwd : g.kind ≠ .forwarded) :
    s.enqueue g = { s with nt := { s.nt with
      egress := s.nt.egress ++ [{ g with hsrSeq := s.nt.hsrSeq }], hsrSeq := (s.nt.hsrSeq + 1) % 65536 } } := by
  have htag : (s.nt.mode == 0 && g.kind != .ptp && g.kind != .forwarded) = true := by simp [hm, hptp, hfwd]
  unfold State.enqueue State.onNt
  simp only [htag, if_true]

theorem execDiscardEntryExpiry_of_cons {e : (Nat × Nat) × Nat} {r : List ((Nat × Nat) × Nat)} (hd : s.nt.discard = e :: r) :
    exec .discardEntryExpiry s = .next (if s.after e.2 (par s (pid 11 0 21) * cycMs) then
      { s with nt := { s.nt with discard := r, expired := s.nt.expired ++ [e.1] } } else s) := by
  have he : exec .discardEntryExpiry s = execDiscardEntryExpiry s := rfl
  rw [he, execDiscardEntryExpiry, hd]
  rfl

theorem execLearningTableAgeing_of_cons {e : Nat × Nat × Nat} {r : List (Nat × Nat × Nat)} (hd : s.nt.learn = e :: r) :
    exec .learningTableAgeing s = .next (if s.after e.2.2 (300 * cycS) then { s with nt := { s.nt with learn := r } } else s) := by
  have he : exec .learningTableAgeing s = execLearningTableAgeing s := rfl
  rw [he, execLearningTableAgeing, hd]
  rfl

theorem execSupervisionSend_of_due (hup : s.nt.up = true) (hm : s.nt.mode = 0)
    (hdue : s.nt.superClk.any (fun c => !s.after c (2 * cycS)) = false) :
    exec .supervisionSend s = .next { s with nt := { s.nt with
      superSent := true, superClk := some s.clk, hsrSeq := (s.nt.hsrSeq + 1) % 65536,
      egress := s.nt.egress ++ [{ rawFrame 7 .supervision (superFrame s.nt.hsrSeq) 3 with hsrSeq := s.nt.hsrSeq }],
      ports := s.nt.ports.map fun p =>
        { p with superMiss := if p.superBack || !s.nt.superSent then 0 else satN 3 (p.superMiss + 1), superBack := false } } } := by
  have he : exec .supervisionSend s = execSupervisionSend s := rfl
  rw [he, execSupervisionSend, if_neg (by simp [hup, hm, hdue])]
  exact congrArg Host.Outcome.next ((sendFrame_urgent (by exact hup) rfl).trans (enqueue_tagged (by exact hm) nofun nofun))

theorem execRingOpen_of_missed (hr : s.nt.ringOpen = false) (hmiss : 3 ≤ (s.port 0).superMiss ∨ 3 ≤ (s.port 1).superMiss) :
    Gives .ringOpen s fun t => t.nt = { s.nt with ringOpen := true } ∧ bitAt t.lk.irq 5 = true ∧
      t = { s with nt := t.nt, lk := { s.lk with irq := t.lk.irq }, wd := t.wd, free := t.free } := by
  have he : exec .ringOpen s = execRingOpen s := rfl
  rw [execRingOpen] at he
  extract_lets p l at he
  have hdue : ¬(s.nt.ringOpen || !(decide (3 ≤ (s.port 0).superMiss) || decide (3 ≤ (s.port 1).superMiss))) = true := by
    rw [hr, Bool.false_or, Bool.not_eq_true', Bool.not_eq_false, Bool.or_eq_true, decide_eq_true_iff, decide_eq_true_iff]
    exact hmiss
  rw [if_neg hdue] at he
  generalize (le 1 p ++ le 1 l : List Byte) = d at he
  obtain ⟨w, hw⟩ := log_is ((s.onNt fun n => { n with ringOpen := true }).irq 5) 0x0B03 d []
  rw [hw] at he
  exact ⟨_, he, rfl, bitAt_setBit_self .., rfl⟩

/-- Settles O43: the frame is counted at its port, then the switch mode decides on one of tables, forwarding and supervision. -/
theorem ringForwardsOnceAndSupervises : Obligations.RingForwardsOnceAndSupervises := by
  unfold Obligations.RingForwardsOnceAndSupervises
  intro s fwd
  refine ⟨fun k f hup hl => ⟨fun hg => execHsrFrameReceive_of_bad hup hg, fun hg hp hm hq =>
      execHsrFrameReceive_of_untagged hup hg hp hm hq, fun q hg hm hq hsrc => execHsrFrameReceive_of_other hup hl hg hm hq hsrc,
      fun q hg hm hq hsrc ht => execHsrFrameReceive_of_own hup hl hg hm hq hsrc ht,
      fun hg hp hm => execHsrFrameReceive_of_line hup hl hg hp hm,
      fun hg hp hm => execHsrFrameReceive_of_single hup hl hg hp hm⟩, fun e r hd ha => ?_, fun e r hd ha => ?_,
    fun e r hd ha => ?_, fun e r hd ha => ?_, execSupervisionSend_of_due, execRingOpen_of_missed⟩
  · rw [execDiscardEntryExpiry_of_cons hd, if_pos ha]
  · rw [execDiscardEntryExpiry_of_cons hd, if_neg (by simp [ha])]
  · rw [execLearningTableAgeing_of_cons hd, if_pos ha]
  · rw [execLearningTableAgeing_of_cons hd, if_neg (by simp [ha])]

end Sys2Proof.Machine
end
section
/-! LEMMAS. PTP messages at a port, the transparent clock, and offsets and masters from PTP (R252, R289 to R291). -/

namespace Sys2Proof.Machine

variable {s t u x : State} {k : Fin 2} {f : FrameIn} {m : List Byte} {mark : Option PtpMark} {n : Nat}

/-! ### What PTP reads -/

/-- A parameter reads only the node of the network state. -/
theorem Changes.par_of_node {q : List Part} (h : Changes q s t) (hn : t.nt.node = s.nt.node) (hpr : q.contains .pr = false)
    (hpw : q.contains .pw = false) (hup : q.contains .up = false) (i : Nat) : par t i = par s i := by
  simp only [par, parReset, factoryVal, factoryImage, h.pr hpr, h.pw hpw, h.up hup, hn]

/-- From `s` to `t` stays what PTP reads besides the port. -/
structure KeepsPtp (s t : State) : Prop where
  ch : Changes [.nt, .free] s t
  node : t.nt.node = s.nt.node
  master : t.nt.master = s.nt.master
  foreign : t.nt.foreign = s.nt.foreign

theorem KeepsPtp.par (h : KeepsPtp s t) (i : Nat) : par t i = par s i := h.ch.par_of_node h.node rfl rfl rfl i

theorem KeepsPtp.takesOffsets (h : KeepsPtp s t) (n : Nat) : takesOffsets t n = takesOffsets s n := by
  simp only [Machine.takesOffsets, h.ch.pw rfl, h.ch.wd rfl, h.par]

theorem KeepsPtp.fromMaster (h : KeepsPtp s t) (m : List Byte) : fromMaster t m = fromMaster s m := by
  simp only [Machine.fromMaster, h.ch.wd rfl, h.master, h.par]

theorem KeepsPtp.after (h : KeepsPtp s t) : t.after = s.after := by
  funext c n
  rw [State.after, State.after, h.ch.clk rfl]

/-- The link delay follows the port's. -/
theorem KeepsPtp.linkDelay (h : KeepsPtp s t) (hf : t.free = s.free) (hd : (t.port k).peerDelay = (s.port k).peerDelay) :
    linkDelay t k = linkDelay s k := by
  have hq (r : Rat) : quant t 8 r = quant s 8 r := by rw [quant, quant, hf]
  have hp : parS t 32 (pid 29 k 4) = parS s 32 (pid 29 k 4) := by rw [parS, parS, h.par]
  rw [Machine.linkDelay, Machine.linkDelay, hd, hp]
  exact congrArg (Option.map · _) (funext fun d => by rw [hq])

/-- The best master follows the clock alone. -/
theorem bestMaster_congr (h : KeepsPtp s t) (l : List Foreign) : bestMaster t l = bestMaster s l := by
  have hq (y : Foreign) : qualified t y = qualified s y := by simp only [qualified, h.after]
  induction l with
  | nil => rfl
  | cons y r ih => simp only [bestMaster, ih, hq]

/-! ### A PTP message at the port (R279, R289, R290) -/

theorem hostHold_is (s : State) (F : Heard) : ∃ q l, s.hostHold F = { s with nt := { s.nt with rxQueue := q, rxLost := l } } := by
  unfold State.hostHold
  extract_lets u
  split
  · exact ⟨_, _, rfl⟩
  · by_cases hr : s.nt.rxQueue.length < 16
    · exact ⟨_, _, by rw [State.onNt, if_pos hr]⟩
    · exact ⟨_, _, by rw [State.onNt, if_neg hr]⟩

/-- The state in which PTP takes a message: the frame counted, and held where the host asked for it. -/
def State.ptpHeard (s : State) (k : Fin 2) (f : FrameIn) : State :=
  if forDevice (heardOn s k f).eth then (s.frameCounted k f).hostHold (heardOn s k f) else s.frameCounted k f

theorem ptpHeard_is (s : State) (k : Fin 2) (f : FrameIn) : ∃ q l, s.ptpHeard k f =
    { s.frameCounted k f with nt := { (s.frameCounted k f).nt with rxQueue := q, rxLost := l } } := by
  unfold State.ptpHeard
  split
  · exact hostHold_is ..
  · exact ⟨_, _, rfl⟩

theorem receive_of_ptp (hup : portUp s k = true) (hg : frameGood f = true)
    (hp : ptpOf (ethOf (s.nt.mode == 0) (frameBody f)) = some m) :
    s.receive k f = (s.ptpHeard k f).takePtp (heardOn s k f) m := by
  have heth : (heardOn s k f).eth = ethOf (s.nt.mode == 0) (frameBody f) := rfl
  rw [receive_of_good hup hg, State.switchFrame, heth, hp]
  rfl

/-- The port and the rest after a frame has been counted. -/
structure HeardAt (k : Fin 2) (f : FrameIn) (s t : State) : Prop where
  keeps : KeepsPtp s t
  len : t.nt.ports.length = 2
  port : t.port k = { s.port k with rxFrames := u32 ((s.port k).rxFrames + 1), sqi := f.sqi }

theorem ptpHeard_heardAt (hl : s.nt.ports.length = 2) : HeardAt k f s (s.ptpHeard k f) ∧ (s.ptpHeard k f).free = s.free ∧
    (s.ptpHeard k f).nt.mode = s.nt.mode ∧ (s.ptpHeard k f).nt.egress = s.nt.egress := by
  obtain ⟨q, l, h⟩ := ptpHeard_is s k f
  rw [h]
  have hch : Changes [.nt, .free] s (s.frameCounted k f) := onPort_ch (.refl _ s) rfl
  refine ⟨⟨⟨hch.trans (onNt_ch (f := fun n => { n with rxQueue := q, rxLost := l }) (.refl _ _) rfl), rfl, rfl, rfl⟩,
    (List.length_modify ..).trans hl, frameCounted_port hl⟩, rfl, rfl, rfl⟩

/-- Where the message goes on, it does so at priority 7 as it came. -/
def PtpGoesOn (k : Fin 2) (f : FrameIn) (s t : State) : Prop :=
  (s.nt.mode = 2 → t.nt.egress = s.nt.egress) ∧
  (s.nt.mode ≠ 2 → ∃ g, t.nt.egress = s.nt.egress ++ [g] ∧ g.bytes = frameBody f ∧ g.prio = 7 ∧ g.ports = 2 - k.val)

theorem forwardPtp_is (s : State) (F : Heard) (mark : Option PtpMark) : s.forwardPtp F mark = { s with nt := { s.nt with
    egress := if s.nt.mode = 2 then s.nt.egress
      else s.nt.egress ++ [{ rawFrame 7 .forwarded F.bytes (2 - F.port) with ptp := mark }] } } := by
  unfold State.forwardPtp
  by_cases hm : s.nt.mode = 2
  · rw [if_pos (by simp [hm]), if_pos hm]
  · rw [if_neg (by simp [hm]), if_neg hm]
    rfl

/-- A message that the transparent clock has passed on. -/
def State.ptpPassed (s : State) (k : Fin 2) (f : FrameIn) (mark : Option PtpMark) : State :=
  (s.ptpHeard k f).forwardPtp (heardOn s k f) mark

theorem ptpPassed_heardAt (hl : s.nt.ports.length = 2) :
    HeardAt k f s (s.ptpPassed k f mark) ∧ PtpGoesOn k f s (s.ptpPassed k f mark) := by
  obtain ⟨⟨hk, hlen, hport⟩, -, hmode, hegress⟩ := ptpHeard_heardAt (k := k) (f := f) hl
  unfold State.ptpPassed
  rw [forwardPtp_is, hmode, hegress]
  have hch : Changes [.nt, .free] (s.ptpHeard k f) ((s.ptpHeard k f).onNt fun n => { n with
      egress := if s.nt.mode = 2 then s.nt.egress
        else s.nt.egress ++ [{ rawFrame 7 .forwarded (heardOn s k f).bytes (2 - (heardOn s k f).port) with ptp := mark }] }) :=
    onNt_ch (.refl _ _) rfl
  refine ⟨⟨⟨hk.ch.trans hch, hk.node, hk.master, hk.foreign⟩, hlen, hport⟩, fun hm => if_pos hm,
    fun hm => ⟨_, if_neg hm, rfl, rfl, rfl⟩⟩

theorem ptpPassed_free (hl : s.nt.ports.length = 2) : (s.ptpPassed k f mark).free = s.free := by
  obtain ⟨-, hfree, -, -⟩ := ptpHeard_heardAt (k := k) (f := f) hl
  rw [State.ptpPassed, forwardPtp_is]
  exact hfree

/-! ### Offsets from PTP (R252) -/

/-- Whatever becomes of an offset, its master and its instant are the latest. -/
theorem offset_source (s : State) (th : Int) (gm : Nat) :
    (s.offset th gm).1.te.lastOffsetClk = some s.clk ∧ (s.offset th gm).1.te.gm = gm := by
  rw [offset_eq]
  dsimp only
  split
  · obtain ⟨n, fr, r, ns, recent, once, rate, clk, run, -, -, -, hte⟩ :=
      goodOffset_te (s.noted th gm) th gm (s.takeScheduled fun id => effOf id == .offset).te.lastOffsetClk
    rw [hte]
    exact ⟨rfl, rfl⟩
  · split
    · obtain ⟨once, rate, clk, run, hte⟩ := acceptStep_te (s.noted th gm) (-th) true
      rw [onTe_te, hte]
      exact ⟨rfl, rfl⟩
    · obtain ⟨us, locked, num, once, r, hte⟩ := refuseOffset_te (s.noted th gm) th gm
      rw [hte]
      exact ⟨rfl, rfl⟩

theorem ptpOffset_source (s : State) (rx origin : Nat) (corr : Int) (delay : Nat) :
    (s.ptpOffset rx origin corr delay).te.lastOffsetClk = some s.clk ∧
    (s.ptpOffset rx origin corr delay).te.gm = (s.nt.master.map (·.1)).getD 0 ∧ (s.ptpOffset rx origin corr delay).nt = s.nt :=
  ⟨(offset_source ..).1, (offset_source ..).2, (ptpOffset_ch (.refl [.pw, .te, .rtc, .hw, .pr, .lk, .wd, .seqs, .qu, .me, .pq, .pm,
    .free] s) rfl).nt rfl⟩

theorem takesFrom_portA (s : State) : takesFrom s 0 = takesOffsets s 1 := by simp [takesFrom]

theorem takesFrom_of_other (h : takesOffsets s 1 = false) (k : Nat) : takesFrom s k = false := by simp [takesFrom, h]

/-! ### Masters (R250 to R252) -/

/-- A master as its latest Announce shows it. -/
def announced (s : State) (k : Nat) (m : List Byte) : Foreign :=
  ⟨k, ptpSource m, s.clk, (s.nt.foreign.find? fun y => y.port == k && y.source == ptpSource m).map (·.clk), announceGm m,
    announceRank k m⟩

/-- The masters heard, with this Announce. -/
def heardMasters (s : State) (k : Nat) (m : List Byte) : List Foreign :=
  s.nt.foreign.filter (fun y => !(y.port == k && y.source == ptpSource m) && !s.after y.clk (3 * cycS)) ++ [announced s k m]

theorem heardMasters_congr (h : KeepsPtp s t) (k : Nat) (m : List Byte) : heardMasters t k m = heardMasters s k m := by
  simp only [heardMasters, announced, h.foreign, h.after, h.ch.clk rfl]

/-- GM_ID as the choice of a master leaves it. -/
def gmChosen (s : State) (best : Option Foreign) : Nat :=
  match best with
  | some y => if par s (pid 7 0 0) = 1 then y.gm else s.te.gm
  | none => s.te.gm

theorem chooseMaster_is (s : State) (F : Heard) (m : List Byte) : s.chooseMaster F m = { s with
    nt := { s.nt with foreign := heardMasters s F.port m,
                      master := (bestMaster s (heardMasters s F.port m)).map fun y => (y.gm, y.source) }
    te := { s.te with gm := gmChosen s (bestMaster s (heardMasters s F.port m)) } } := by
  have hl : s.nt.foreign.filter (fun y => !(y.port == F.port && y.source == ptpSource m) && !s.after y.clk (3 * cycS)) ++
      [⟨F.port, ptpSource m, s.clk, (s.nt.foreign.find? fun y => y.port == F.port && y.source == ptpSource m).map (·.clk),
        announceGm m, announceRank F.port m⟩] = heardMasters s F.port m := rfl
  unfold State.chooseMaster
  dsimp only
  rw [hl]
  generalize heardMasters s F.port m = l
  unfold gmChosen
  cases bestMaster s l with
  | none => rfl
  | some y =>
    dsimp only
    by_cases h1 : par s (pid 7 0 0) = 1
    · rw [if_pos (by simp [h1]), if_pos h1]
      rfl
    · rw [if_neg (by simp [h1]), if_neg h1]
      rfl

/-- The selected master's Announce gives UTC_OFFSET where it says that it is valid. -/
theorem masterAnnounce_utcOffset (h1 : par s (pid 7 0 0) = 1) (hv : bitAt (beAt m 7 1) 2 = true) :
    utcOffset (s.masterAnnounce m) = toSigned 16 (beAt m 44 2) := by
  obtain ⟨hlo, hhi⟩ := toSigned_bounds (beAt m 44 2)
  have hu := setUtc_utcOffset (s := s) hlo hhi
  unfold State.masterAnnounce
  rw [if_neg (by simp [h1])]
  dsimp only
  rw [if_pos hv]
  split
  · exact hu
  · exact (setLeap_utcOffset ..).trans hu

end Sys2Proof.Machine
end
section
/-! THEOREMS. Sync, Follow_Up, Announce and peer delay (R250 to R252, R289 to R291; O44). -/

namespace Sys2Proof.Machine

variable {s t u : State} {k : Fin 2} {f : FrameIn} {m : List Byte} {w : SyncWait}

/-! ### Sync and Follow_Up (R252, R290) -/

/-- A passed message after a change of its port that PTP reads, and a draw of free values. -/
theorem HeardAt.onPort_drew (h : HeardAt k f s t) (g : Port → Port) (n : Nat) : KeepsPtp s ((t.onPort k g).drew n) ∧
    ((t.onPort k g).drew n).port k = g (t.port k) :=
  ⟨⟨drew_ch (onPort_ch h.keeps.ch rfl) rfl, h.keeps.node, h.keeps.master, h.keeps.foreign⟩,
    onPort_port (by rw [h.len]; exact k.2)⟩

/-- The device takes an offset of the selected master, or leaves it. -/
def State.ptpOffsetIf (s : State) (b : Bool) (rx origin : Nat) (corr : Int) (delay : Nat) : State :=
  if b then s.ptpOffset rx origin corr delay else s

theorem ptpOffsetIf_nt (s : State) (b : Bool) (rx origin : Nat) (corr : Int) (delay : Nat) :
    (s.ptpOffsetIf b rx origin corr delay).nt = s.nt := by
  cases b with
  | false => rfl
  | true => exact (ptpOffset_source ..).2.2

theorem ptpOffsetIf_source (h : KeepsPtp s t) {b : Bool} (hb : b = true) (rx origin : Nat) (corr : Int) (delay : Nat) :
    (t.ptpOffsetIf b rx origin corr delay).te.lastOffsetClk = some s.clk ∧
    (t.ptpOffsetIf b rx origin corr delay).te.gm = (s.nt.master.map (·.1)).getD 0 := by
  obtain ⟨h1, h2, -⟩ := ptpOffset_source t rx origin corr delay
  rw [State.ptpOffsetIf, if_pos hb, h1, h2, h.master, h.ch.clk rfl]
  exact ⟨rfl, rfl⟩

theorem ptpOffsetIf_still (h : KeepsPtp s t) {b : Bool} (hb : b = false) (rx origin : Nat) (corr : Int) (delay : Nat) :
    t.ptpOffsetIf b rx origin corr delay =
      { s with nt := (t.ptpOffsetIf b rx origin corr delay).nt, free := (t.ptpOffsetIf b rx origin corr delay).free } := by
  rw [State.ptpOffsetIf, if_neg (by simp [hb])]
  exact h.ch.eq_pick

/-- The port after a Sync of the selected master. -/
def Port.synced (p : Port) (clk : Nat) (m : List Byte) (rx : Nat) : Port :=
  { p with syncClk := some clk, syncWait := if ptpTwoStep m then some ⟨ptpSource m, ptpSeq m, rx, ptpCorr m⟩ else p.syncWait }

/-- The mark of a Sync on its way through the switch. -/
def syncMark (s : State) (k : Nat) (f : FrameIn) (m : List Byte) : PtpMark :=
  .sync (ptpSource m) (ptpSeq m) (f.rx - latency s k 3) (linkDelay s k) (!ptpTwoStep m) (ptpCorr m)

/-- What becomes of a Sync. -/
theorem receive_of_sync (hup : portUp s k = true) (hl : s.nt.ports.length = 2) (hg : frameGood f = true)
    (hp : ptpOf (ethOf (s.nt.mode == 0) (frameBody f)) = some m) (h0 : ptpType m = 0) :
    s.receive k f = match linkDelay s k with
      | none => (s.ptpPassed k f (syncMark s k f m)).drew 9
      | some delay =>
        if fromMaster s m then
          let x := ((s.ptpPassed k f (syncMark s k f m)).drew 9).onPort k fun p => p.synced s.clk m (f.rx - latency s k 3)
          x.ptpOffsetIf (!ptpTwoStep m && takesFrom x k) (f.rx - latency s k 3) (ptpStamp m) (ptpCorr m) delay
        else (s.ptpPassed k f (syncMark s k f m)).drew 9 := by
  obtain ⟨hh, hfree, -, -⟩ := ptpHeard_heardAt (k := k) (f := f) hl
  have hd : linkDelay (s.ptpHeard k f) k = linkDelay s k := hh.keeps.linkDelay hfree (by rw [hh.port])
  have hclk : (s.ptpHeard k f).clk = s.clk := hh.keeps.ch.clk rfl
  have hport : (heardOn s k f).port = k := rfl
  have hrx : (heardOn s k f).rx = f.rx - latency s k 3 := rfl
  have htake : (s.ptpHeard k f).takePtp (heardOn s k f) m = (s.ptpHeard k f).takeSync (heardOn s k f) m := by
    simp only [State.takePtp, h0]
  rw [receive_of_ptp hup hg hp, htake]
  unfold State.takeSync
  rw [hport, hd, hrx, hclk]
  unfold syncMark
  dsimp only
  cases linkDelay s k with
  | none => rfl
  | some delay =>
    dsimp only
    rw [hh.keeps.fromMaster m]
    cases fromMaster s m with
    | false => rfl
    | true => rfl

theorem execPtpSync_gives (hup : portUp s k = true) (hl : s.nt.ports.length = 2) (hg : frameGood f = true)
    (hp : ptpOf (ethOf (s.nt.mode == 0) (frameBody f)) = some m) (h0 : ptpType m = 0) : Gives (.ptpSync k f) s fun t =>
      (t.port k).rxFrames = u32 ((s.port k).rxFrames + 1) ∧ PtpGoesOn k f s t ∧
      (linkDelay s k = none ∨ fromMaster s m = false → t = { s with nt := t.nt, free := t.free }) ∧
      (linkDelay s k ≠ none → fromMaster s m = true → ptpTwoStep m = true →
        (t.port k).syncWait = some ⟨ptpSource m, ptpSeq m, f.rx - latency s k 3, ptpCorr m⟩ ∧
        t = { s with nt := t.nt, free := t.free }) ∧
      (linkDelay s k ≠ none → fromMaster s m = true → ptpTwoStep m = false → takesOffsets s 1 = true → k = 0 →
        t.te.lastOffsetClk = some s.clk ∧ t.te.gm = (s.nt.master.map (·.1)).getD 0) ∧
      (takesOffsets s 1 = false → t = { s with nt := t.nt, free := t.free }) := by
  have he : exec (.ptpSync k f) s = .next (s.receive k f) := rfl
  rw [receive_of_sync hup hl hg hp h0] at he
  obtain ⟨hh, hgo⟩ := ptpPassed_heardAt (k := k) (f := f) (mark := syncMark s k f m) hl
  generalize s.ptpPassed k f (syncMark s k f m) = x at he hh hgo
  have hrxf : (x.port k).rxFrames = u32 ((s.port k).rxFrames + 1) := congrArg Port.rxFrames hh.port
  have hstill : x.drew 9 = { s with nt := (x.drew 9).nt, free := (x.drew 9).free } := (drew_ch hh.keeps.ch rfl).eq_pick
  cases hd : linkDelay s k with
  | none =>
    rw [hd] at he
    exact ⟨_, he, hrxf, hgo, fun _ => hstill, fun h => absurd rfl h, fun h => absurd rfl h, fun _ => hstill⟩
  | some delay =>
    rw [hd] at he
    dsimp only at he
    cases hm : fromMaster s m with
    | false =>
      rw [hm, if_neg Bool.false_ne_true] at he
      exact ⟨_, he, hrxf, hgo, fun _ => hstill, fun _ h => absurd h Bool.false_ne_true,
        fun _ h => absurd h Bool.false_ne_true, fun _ => hstill⟩
    | true =>
      rw [hm, if_pos rfl] at he
      obtain ⟨hk, hport⟩ := hh.onPort_drew (fun p => p.synced s.clk m (f.rx - latency s k 3)) 9
      have hnt := ptpOffsetIf_nt ((x.onPort k fun p => p.synced s.clk m (f.rx - latency s k 3)).drew 9)
      generalize hy : ((x.onPort k fun p => p.synced s.clk m (f.rx - latency s k 3)).drew 9) = y at hk hport hnt
      have hcomm : ((x.drew 9).onPort k fun p => p.synced s.clk m (f.rx - latency s k 3)) = y := hy
      rw [hcomm] at he
      have hyrx : (y.port k).rxFrames = u32 ((s.port k).rxFrames + 1) := (congrArg Port.rxFrames hport).trans hrxf
      have hygo : PtpGoesOn k f s y := hy ▸ hgo
      refine ⟨_, he, ?_, ?_, fun h => by simp at h, fun _ _ h2 => ⟨?_, ?_⟩, fun _ _ h2 ht hk0 => ?_, fun ht => ?_⟩
      · rw [port_congr (hnt ..)]; exact hyrx
      · rw [PtpGoesOn, hnt]; exact hygo
      · rw [port_congr (hnt ..), hport]; exact if_pos h2
      · exact ptpOffsetIf_still hk (by simp [h2]) ..
      · refine ptpOffsetIf_source hk ?_ ..
        subst hk0
        have ha : takesFrom y 0 = true := (takesFrom_portA y).trans ((hk.takesOffsets 1).trans ht)
        simp [h2, ha]
      · exact ptpOffsetIf_still hk (by simp [takesFrom_of_other ((hk.takesOffsets 1).trans ht)]) ..

/-- What becomes of a Follow_Up at a port where a Sync waits. -/
theorem receive_of_followUp (hup : portUp s k = true) (hl : s.nt.ports.length = 2) (hg : frameGood f = true)
    (hp : ptpOf (ethOf (s.nt.mode == 0) (frameBody f)) = some m) (h8 : ptpType m = 8) (hw : (s.port k).syncWait = some w) :
    s.receive k f =
      let x := s.ptpPassed k f (some (.followUp (ptpSource m) (ptpSeq m) (ptpCorr m)))
      match linkDelay s k with
      | none => x
      | some delay =>
        if w.source == ptpSource m && w.seq == ptpSeq m && fromMaster s m then
          let y := (x.onPort k fun p => { p with syncWait := none }).drew 9
          y.ptpOffsetIf (takesFrom y k) w.rx (ptpStamp m) (w.corr + ptpCorr m) delay
        else x := by
  obtain ⟨hh, hfree, -, -⟩ := ptpHeard_heardAt (k := k) (f := f) hl
  have hd : linkDelay (s.ptpHeard k f) k = linkDelay s k := hh.keeps.linkDelay hfree (by rw [hh.port])
  have hwait : ((s.ptpHeard k f).port k).syncWait = some w := by rw [hh.port]; exact hw
  have hport : (heardOn s k f).port = k := rfl
  have htake : (s.ptpHeard k f).takePtp (heardOn s k f) m = (s.ptpHeard k f).takeFollowUp (heardOn s k f) m := by
    simp only [State.takePtp, h8]
  rw [receive_of_ptp hup hg hp, htake]
  unfold State.takeFollowUp
  rw [hport, hd, hwait]
  dsimp only
  cases linkDelay s k with
  | none => rfl
  | some delay =>
    dsimp only
    rw [hh.keeps.fromMaster m]
    rfl

theorem execPtpFollowUp_gives (hup : portUp s k = true) (hl : s.nt.ports.length = 2) (hg : frameGood f = true)
    (hp : ptpOf (ethOf (s.nt.mode == 0) (frameBody f)) = some m) (h8 : ptpType m = 8) (hw : (s.port k).syncWait = some w) :
    Gives (.ptpFollowUp k f) s fun t =>
      (t.port k).rxFrames = u32 ((s.port k).rxFrames + 1) ∧ PtpGoesOn k f s t ∧
      (linkDelay s k ≠ none → w.source = ptpSource m → w.seq = ptpSeq m → fromMaster s m = true →
        (t.port k).syncWait = none ∧ (takesOffsets s 1 = true → k = 0 → t.te.lastOffsetClk = some s.clk)) ∧
      (¬(linkDelay s k ≠ none ∧ w.source = ptpSource m ∧ w.seq = ptpSeq m ∧ fromMaster s m = true) →
        (t.port k).syncWait = some w ∧ t = { s with nt := t.nt, free := t.free }) ∧
      (takesOffsets s 1 = false → t = { s with nt := t.nt, free := t.free }) := by
  have he : exec (.ptpFollowUp k f) s = .next (s.receive k f) := rfl
  rw [receive_of_followUp hup hl hg hp h8 hw] at he
  obtain ⟨hh, hgo⟩ := ptpPassed_heardAt (k := k) (f := f)
    (mark := some (.followUp (ptpSource m) (ptpSeq m) (ptpCorr m))) hl
  dsimp only at he
  generalize s.ptpPassed k f (some (.followUp (ptpSource m) (ptpSeq m) (ptpCorr m))) = x at he hh hgo
  have hrxf : (x.port k).rxFrames = u32 ((s.port k).rxFrames + 1) := congrArg Port.rxFrames hh.port
  have hwait : (x.port k).syncWait = some w := (congrArg Port.syncWait hh.port).trans hw
  have hstill : x = { s with nt := x.nt, free := x.free } := hh.keeps.ch.eq_pick
  cases hd : linkDelay s k with
  | none =>
    rw [hd] at he
    exact ⟨_, he, hrxf, hgo, fun h => absurd rfl h, fun _ => ⟨hwait, hstill⟩, fun _ => hstill⟩
  | some delay =>
    rw [hd] at he
    dsimp only at he
    by_cases hc : w.source = ptpSource m ∧ w.seq = ptpSeq m ∧ fromMaster s m = true
    · obtain ⟨h1, h2, h3⟩ := hc
      rw [if_pos (by simp [h1, h2, h3])] at he
      obtain ⟨hk, hport⟩ := hh.onPort_drew (fun p => { p with syncWait := none }) 9
      have hygo : PtpGoesOn k f s ((x.onPort k fun p => { p with syncWait := none }).drew 9) := hgo
      generalize (x.onPort k fun p => { p with syncWait := none }).drew 9 = y at he hk hport hygo
      have hnt := ptpOffsetIf_nt y (takesFrom y k) w.rx (ptpStamp m) (w.corr + ptpCorr m) delay
      refine ⟨_, he, ?_, ?_, fun _ _ _ _ => ⟨?_, fun ht hk0 => ?_⟩, fun h => absurd ⟨nofun, h1, h2, h3⟩ h, fun ht => ?_⟩
      · rw [port_congr hnt, hport]; exact hrxf
      · rw [PtpGoesOn, hnt]; exact hygo
      · rw [port_congr hnt, hport]
      · refine (ptpOffsetIf_source hk ?_ ..).1
        subst hk0
        exact (takesFrom_portA y).trans ((hk.takesOffsets 1).trans ht)
      · exact ptpOffsetIf_still hk (takesFrom_of_other ((hk.takesOffsets 1).trans ht) _) ..
    · rw [if_neg (by simpa [and_assoc] using hc)] at he
      exact ⟨_, he, hrxf, hgo, fun _ h1 h2 h3 => absurd ⟨h1, h2, h3⟩ hc, fun _ => ⟨hwait, hstill⟩, fun _ => hstill⟩

/-! ### Announce (R250 to R252) -/

/-- The device takes the Announce: Canopy runs, and it is of the domain and not its own. -/
def AnnounceHeard (s : State) (m : List Byte) : Prop :=
  s.wd.canopyRunning = true ∧ ptpDomain m = par s (pid 7 0 15) ∧ ptpSource m / 65536 ≠ clockIdentity

theorem receive_of_announce (hup : portUp s k = true) (hl : s.nt.ports.length = 2) (hg : frameGood f = true)
    (hp : ptpOf (ethOf (s.nt.mode == 0) (frameBody f)) = some m) (h11 : ptpType m = 11) :
    (AnnounceHeard s m → s.receive k f =
      let y := (s.ptpPassed k f none).chooseMaster (heardOn s k f) m
      if y.nt.master.any (fun x => x.2 == ptpSource m) then y.masterAnnounce m else y) ∧
    (¬AnnounceHeard s m → s.receive k f = s.ptpPassed k f none) := by
  obtain ⟨hh, -, -, -⟩ := ptpHeard_heardAt (k := k) (f := f) hl
  have htake : (s.ptpHeard k f).takePtp (heardOn s k f) m = (s.ptpHeard k f).takeAnnounce (heardOn s k f) m := by
    simp only [State.takePtp, h11]
  rw [receive_of_ptp hup hg hp, htake, State.takeAnnounce, hh.keeps.ch.wd rfl, hh.keeps.par]
  refine ⟨fun ⟨h1, h2, h3⟩ => ?_, fun hn => ?_⟩
  · rw [if_neg (by simp [h1, h2, h3])]
    rfl
  · rw [if_pos]
    · rfl
    · unfold AnnounceHeard at hn
      by_contra hc
      simp only [Bool.or_eq_true, Bool.not_eq_true', bne_iff_ne, beq_iff_eq, not_or, Bool.not_eq_false, not_not] at hc
      exact hn ⟨hc.1.1, hc.1.2, hc.2⟩

/-- The choice of a master after an Announce, seen from before the frame. -/
structure Chosen (s y : State) (k : Nat) (m : List Byte) : Prop where
  ch : Changes [.te, .nt] s y
  node : y.nt.node = s.nt.node
  te : y.te = { s.te with gm := gmChosen s (bestMaster s (heardMasters s k m)) }
  foreign : y.nt.foreign = heardMasters s k m
  master : y.nt.master = (bestMaster s (heardMasters s k m)).map fun y => (y.gm, y.source)

theorem chooseMaster_chosen (h : KeepsPtp s t) (hfree : t.free = s.free) (F : Heard) :
    Chosen s (t.chooseMaster F m) F.port m ∧ (t.chooseMaster F m).nt.ports = t.nt.ports ∧
    (t.chooseMaster F m).nt.egress = t.nt.egress := by
  have hch : Changes [.te, .nt] s (t.chooseMaster F m) :=
    chooseMaster_ch ((h.ch.mono rfl (q := [.free, .te, .nt])).drop hfree) rfl
  have hgm : gmChosen t (bestMaster s (heardMasters s F.port m)) = gmChosen s (bestMaster s (heardMasters s F.port m)) := by
    simp only [gmChosen, h.par, h.ch.te rfl]
  have he := chooseMaster_is t F m
  rw [heardMasters_congr h, bestMaster_congr h, hgm, h.ch.te rfl] at he
  generalize t.chooseMaster F m = y at hch he
  subst he
  exact ⟨⟨hch, h.node, rfl, rfl, rfl⟩, rfl, rfl⟩

/-- Of the time engine GM_ID alone has changed. -/
theorem Changes.eq_of_gm (h : Changes [.te, .rtc, .hw, .pr, .wd, .nt] s t) {g : Nat} (hte : t.te = { s.te with gm := g }) :
    t = { s with te := { s.te with gm := t.te.gm }, rtc := t.rtc, hw := t.hw, pr := t.pr, wd := t.wd, nt := t.nt } := by
  have he : t = { s with te := t.te, rtc := t.rtc, hw := t.hw, pr := t.pr, wd := t.wd, nt := t.nt } := h.eq_pick
  have hgm : t.te = { s.te with gm := t.te.gm } := by rw [hte]
  exact he.trans
    (congrArg (fun x : TimeEng => { s with te := x, rtc := t.rtc, hw := t.hw, pr := t.pr, wd := t.wd, nt := t.nt }) hgm)

/-- What the selected master's Announce sets leaves choice and queues alone. -/
theorem Chosen.announce {y : State} (h : Chosen s y k m) (ht : Changes [.rtc, .hw, .pr, .wd] y t) :
    t.te.cnt = s.te.cnt ∧ t.nt = y.nt ∧ t.te.gm = gmChosen s (bestMaster s (heardMasters s k m)) ∧
    t = { s with te := { s.te with gm := t.te.gm }, rtc := t.rtc, hw := t.hw, pr := t.pr, wd := t.wd, nt := t.nt } := by
  have hte : t.te = { s.te with gm := gmChosen s (bestMaster s (heardMasters s k m)) } := (ht.te rfl).trans h.te
  have hch : Changes [.te, .rtc, .hw, .pr, .wd, .nt] s t := (h.ch.mono rfl).trans (ht.mono rfl)
  exact ⟨by rw [hte], ht.nt rfl, by rw [hte], hch.eq_of_gm hte⟩

theorem execPtpAnnounce_gives (hup : portUp s k = true) (hl : s.nt.ports.length = 2) (hg : frameGood f = true)
    (hp : ptpOf (ethOf (s.nt.mode == 0) (frameBody f)) = some m) (h11 : ptpType m = 11) : Gives (.ptpAnnounce k f) s fun t =>
      (t.port k).rxFrames = u32 ((s.port k).rxFrames + 1) ∧ PtpGoesOn k f s t ∧ t.te.cnt = s.te.cnt ∧
      (AnnounceHeard s m → t.nt.foreign = heardMasters s k m ∧
        t.nt.master = (bestMaster s (heardMasters s k m)).map (fun y => (y.gm, y.source)) ∧
        (∀ y, bestMaster s (heardMasters s k m) = some y → par s (pid 7 0 0) = 1 → t.te.gm = y.gm ∧
          (y.source = ptpSource m → bitAt (beAt m 7 1) 2 = true → utcOffset t = toSigned 16 (beAt m 44 2)))) ∧
      (¬AnnounceHeard s m → t.nt.master = s.nt.master ∧ t = { s with nt := t.nt, free := t.free }) ∧
      t = { s with te := { s.te with gm := t.te.gm }, rtc := t.rtc, hw := t.hw, pr := t.pr, wd := t.wd, nt := t.nt } := by
  have he : exec (.ptpAnnounce k f) s = .next (s.receive k f) := rfl
  obtain ⟨htaken, hleft⟩ := receive_of_announce hup hl hg hp h11
  obtain ⟨hh, hgo⟩ := ptpPassed_heardAt (k := k) (f := f) (mark := none) hl
  have hfree := ptpPassed_free (k := k) (f := f) (mark := none) hl
  have hport : (heardOn s k f).port = k := rfl
  generalize heardOn s k f = F at htaken hport
  generalize s.ptpPassed k f none = x at htaken hleft hh hgo hfree
  have hrxf : (x.port k).rxFrames = u32 ((s.port k).rxFrames + 1) := congrArg Port.rxFrames hh.port
  by_cases ha : AnnounceHeard s m
  · rw [htaken ha] at he
    obtain ⟨hy, hports, hegress⟩ := chooseMaster_chosen hh.keeps hfree F (m := m)
    rw [hport] at hy
    dsimp only at he
    generalize x.chooseMaster F m = y at he hy hports hegress
    have ht : Changes [.rtc, .hw, .pr, .wd] y
        (if y.nt.master.any (fun z => z.2 == ptpSource m) = true then y.masterAnnounce m else y) :=
      ch_ite (fun _ => masterAnnounce_ch (.refl _ y) rfl) fun _ => .refl _ y
    obtain ⟨hcnt, hnt, hgm, hframe⟩ := hy.announce ht
    refine ⟨_, he, ?_, ?_, hcnt, fun _ => ⟨?_, ?_, fun z hz h1 => ⟨?_, fun hsrc hv => ?_⟩⟩, fun h => absurd ha h, hframe⟩
    · rw [port_congr hnt, State.port, hports]; exact hrxf
    · rw [PtpGoesOn, hnt, hegress]; exact hgo
    · rw [hnt]; exact hy.foreign
    · rw [hnt]; exact hy.master
    · rw [hgm, hz]; exact if_pos h1
    · rw [if_pos (by rw [hy.master, hz]; simp [hsrc])]
      exact masterAnnounce_utcOffset ((hy.ch.par_of_node hy.node rfl rfl rfl _).trans h1) hv
  · rw [hleft ha] at he
    have hch : Changes [.nt] s x := (hh.keeps.ch.mono rfl (q := [.free, .nt])).drop hfree
    exact ⟨_, he, hrxf, hgo, congrArg TimeEng.cnt (hch.te rfl), fun h => absurd h ha, fun _ => ⟨hh.keeps.master,
      hh.keeps.ch.eq_pick⟩, (hch.mono rfl).eq_of_gm (g := s.te.gm) (hch.te rfl)⟩

/-! ### Peer delay (R289) -/

theorem up_of_portUp (hup : portUp s k = true) : s.nt.up = true := (Bool.and_eq_true_iff.1 hup).1

theorem ptpHeard_up (s : State) (k : Fin 2) (f : FrameIn) : (s.ptpHeard k f).nt.up = s.nt.up := by
  obtain ⟨q, l, h⟩ := ptpHeard_is s k f
  rw [h]
  rfl

/-- A neighbour's request is answered at priority 7. -/
theorem execHsrFrameReceive_of_request (hup : portUp s k = true) (hl : s.nt.ports.length = 2) (hg : frameGood f = true)
    (hp : ptpOf (ethOf (s.nt.mode == 0) (frameBody f)) = some m) (h2 : ptpType m = 2) (hc : s.wd.canopyRunning = true) :
    Gives (.hsrFrameReceive k f) s fun t =>
      (t.port k).rxFrames = u32 ((s.port k).rxFrames + 1) ∧ t = { s with nt := t.nt, free := t.free } ∧
      ∃ g, t.nt.egress = s.nt.egress ++ [g] ∧ g.prio = 7 ∧ g.ports = 2 ^ k.val ∧ g.tsId = some (responseId (ptpSeq m)) ∧
        g.ptp = some (.response (ptpSource m) (ptpSeq m) (ptpCorr m)) := by
  have he : exec (.hsrFrameReceive k f) s = .next (s.receive k f) := rfl
  obtain ⟨hh, -, -, hegress⟩ := ptpHeard_heardAt (k := k) (f := f) hl
  have hu := (ptpHeard_up s k f).trans (up_of_portUp hup)
  have htake : (s.ptpHeard k f).takePtp (heardOn s k f) m = (s.ptpHeard k f).answerPeer (heardOn s k f) m := by
    simp only [State.takePtp, h2]
  have hport : (heardOn s k f).port = k := rfl
  rw [receive_of_ptp hup hg hp, htake, State.answerPeer, hh.keeps.ch.wd rfl, if_neg (by simp [hc]), hport] at he
  have hrxf : ((s.ptpHeard k f).port k).rxFrames = u32 ((s.port k).rxFrames + 1) := congrArg Port.rxFrames hh.port
  generalize s.ptpHeard k f = u at he hh hegress hrxf hu
  generalize peerMessage _ _ _ _ _ _ _ = bs at he
  have hv := sendPeer_eq hu k bs (some (responseId (ptpSeq m))) (some (.response (ptpSource m) (ptpSeq m) (ptpCorr m)))
  have hch : Changes [.nt, .free] s (u.sendPeer k bs (some (responseId (ptpSeq m)))
    (some (.response (ptpSource m) (ptpSeq m) (ptpCorr m)))) := sendPeer_ch hh.keeps.ch rfl
  generalize u.sendPeer k bs _ _ = v at he hv hch
  refine ⟨v, he, ?_, hch.eq_pick, ?_⟩
  · rw [hv]; exact hrxf
  · rw [hv]; exact ⟨_, congrArg (· ++ _) hegress, rfl, rfl, rfl, rfl⟩

/-- The port after it has asked its neighbour. -/
def Port.asked (p : Port) (clk q : Nat) : Port :=
  { p with peerAsk := true, askClk := some clk, peerSeq := (q + 1) % 65536, resp := none,
           peerRun := if p.peerAsk && p.peerDelay.isNone then 0 else p.peerRun }

theorem execPeerDelayRequest_gives (hup : portUp s k = true) (hl : s.nt.ports.length = 2) (hc : s.wd.canopyRunning = true)
    (hdue : (s.port k).askClk.any (fun c => !s.after c cycS) = false) : Gives (.peerDelayRequest k) s fun t =>
      (t.port k).peerAsk = true ∧ (t.port k).askClk = some s.clk ∧ (t.port k).peerSeq = ((s.port k).peerSeq + 1) % 65536 ∧
      (t.port k).peerDelay = (s.port k).peerDelay ∧
      (∃ g, t.nt.egress = s.nt.egress ++ [g] ∧ g.prio = 7 ∧ g.ports = 2 ^ k.val ∧
        g.tsId = some (requestId (s.port k).peerSeq)) ∧
      t = { s with nt := t.nt, te := { s.te with txInt := t.te.txInt, txOvInt := t.te.txOvInt } } := by
  have he : exec (.peerDelayRequest k) s = execPeerDelayRequest k s := rfl
  rw [execPeerDelayRequest, if_neg (by simp [hup, hc, hdue])] at he
  have hu := up_of_portUp hup
  dsimp only at he
  rw [sendPeer_eq (by exact hu)] at he
  have hport : ((s.takeStamp k (requestId ((s.port k).peerSeq + 65535))).1.onPort k fun p =>
      p.asked s.clk (s.port k).peerSeq).port k = (s.port k).asked s.clk (s.port k).peerSeq :=
    onPort_port (lt_of_lt_of_eq k.2 hl.symm)
  exact ⟨_, he, (congrArg Port.peerAsk hport :), (congrArg Port.askClk hport :), (congrArg Port.peerSeq hport :),
    (congrArg Port.peerDelay hport :), ⟨_, rfl, rfl, rfl, rfl⟩, rfl⟩

/-- The mean link delay from the four instants and the corrections. -/
def meanDelay (s : State) (t1 t2 t3 t4 : Nat) (corr : Int) : Nat :=
  (quant s 0 (((((t4 : Int) - t1) - ((t3 : Int) - t2) - corr : Int) : Rat) / 2)).toNat

/-- The port after a response that completes the four instants. -/
def Port.completed (p : Port) (delay : Nat) : Port :=
  { p with peerAsk := false, resp := none, peerRun := satN 3 (p.peerRun + 1),
           peerDelay := if 2 ≤ p.peerRun then some delay else p.peerDelay }

/-- The four instants are complete: the port waits for nothing, and from the third in a row the delay is valid. -/
def Completed (k : Fin 2) (delay : Nat) (s t : State) : Prop :=
  (t.port k).peerAsk = false ∧ (t.port k).peerRun = satN 3 ((s.port k).peerRun + 1) ∧
  (t.port k).peerDelay = if 2 ≤ (s.port k).peerRun then some delay else (s.port k).peerDelay

/-- Of the time engine the internal TX timestamps alone have changed. -/
theorem Changes.eq_of_stamps (h : Changes [.te, .nt, .free] s t) {l : List TxEntry} {o : Bool}
    (hte : t.te = { s.te with txInt := l, txOvInt := o }) :
    t = { s with nt := t.nt, te := { s.te with txInt := t.te.txInt, txOvInt := t.te.txOvInt }, free := t.free } := by
  have he : t = { s with te := t.te, nt := t.nt, free := t.free } := h.eq_pick
  have hx : t.te = { s.te with txInt := t.te.txInt, txOvInt := t.te.txOvInt } := by rw [hte]
  exact he.trans (congrArg (fun x : TimeEng => { s with nt := t.nt, te := x, free := t.free }) hx)

/-- The timestamp of the port's latest request. -/
def requestStamp (s : State) (k : Nat) : Option TxEntry :=
  s.te.txInt.find? fun x => x.port == k && x.id == requestId ((s.port k).peerSeq + 65535)

theorem peerResult_completes (hh : HeardAt k f s u) (hfree : u.free = s.free) {x : TxEntry} (hst : requestStamp s k = some x)
    (t2 t3 t4 : Nat) (corr : Int) :
    Completed k (meanDelay s (ofTime80 x.time) t2 t3 t4 corr) s (u.peerResult k t2 t3 t4 corr) ∧
    ((u.peerResult k t2 t3 t4 corr).port k).rxFrames = u32 ((s.port k).rxFrames + 1) ∧
    u.peerResult k t2 t3 t4 corr = { s with
      nt := (u.peerResult k t2 t3 t4 corr).nt
      te := { s.te with txInt := (u.peerResult k t2 t3 t4 corr).te.txInt, txOvInt := (u.peerResult k t2 t3 t4 corr).te.txOvInt }
      free := (u.peerResult k t2 t3 t4 corr).free } := by
  have hseq : (u.port k).peerSeq = (s.port k).peerSeq := by rw [hh.port]
  have hfind : u.te.txInt.find? (fun e => e.port == k.val && e.id == requestId ((u.port k).peerSeq + 65535)) = some x := by
    rw [hh.keeps.ch.te rfl, hseq]
    exact hst
  have hch : Changes [.te, .nt, .free] s (u.peerResult k t2 t3 t4 corr) := peerResult_ch (hh.keeps.ch.mono rfl) rfl
  have hq (r : Rat) : quant u 0 r = quant s 0 r := by rw [quant, quant, hfree]
  have he : u.peerResult k t2 t3 t4 corr = ((u.takeStamp k (requestId ((u.port k).peerSeq + 65535))).1.onPort k fun p =>
      p.completed (meanDelay s (ofTime80 x.time) t2 t3 t4 corr)).drew 1 := by
    unfold State.peerResult State.takeStamp
    dsimp only
    rw [hfind]
    dsimp only [Option.map_some]
    rw [hq]
    rfl
  have hport := onPort_port (s := (u.takeStamp k (requestId ((u.port k).peerSeq + 65535))).1) (k := k) (f := fun p =>
    p.completed (meanDelay s (ofTime80 x.time) t2 t3 t4 corr))
    (lt_of_lt_of_eq k.2 hh.len.symm)
  have hp : (u.peerResult k t2 t3 t4 corr).port k =
      (u.port k).completed (meanDelay s (ofTime80 x.time) t2 t3 t4 corr) := by
    rw [he]
    exact hport
  have hte : (u.peerResult k t2 t3 t4 corr).te = (u.takeStamp k (requestId ((u.port k).peerSeq + 65535))).1.te := by
    rw [he]
    rfl
  rw [State.takeStamp, onTe_te, hh.keeps.ch.te rfl] at hte
  refine ⟨⟨?_, ?_, ?_⟩, ?_, hch.eq_of_stamps hte⟩
  · rw [hp]; rfl
  · rw [hp, hh.port]; rfl
  · rw [hp, hh.port]; rfl
  · rw [hp, hh.port]; rfl

/-- A response to the port's latest request. -/
structure Responds (s : State) (k : Fin 2) (m : List Byte) : Prop where
  canopy : s.wd.canopyRunning = true
  ask : (s.port k).peerAsk = true
  asked : ptpAsked m = portIdentity k
  seq : ptpSeq m = ((s.port k).peerSeq + 65535) % 65536

/-- What becomes of a response to the latest request. -/
theorem receive_of_response (hup : portUp s k = true) (hl : s.nt.ports.length = 2) (hg : frameGood f = true)
    (hp : ptpOf (ethOf (s.nt.mode == 0) (frameBody f)) = some m) (hr : Responds s k m) (ht : ptpType m = 3 ∨ ptpType m = 10) :
    s.receive k f =
      if ptpType m = 3 then
        if ptpTwoStep m then
          (s.ptpHeard k f).onPort k fun p => { p with resp := some ⟨ptpSeq m, ptpStamp m, f.rx - latency s k 3, ptpCorr m⟩ }
        else (s.ptpHeard k f).peerResult k 0 0 (f.rx - latency s k 3) (ptpCorr m)
      else match (s.port k).resp with
        | some w => if w.seq == ptpSeq m then
            (s.ptpHeard k f).peerResult k w.t2 (ptpStamp m) w.t4 (w.corr + ptpCorr m) else s.ptpHeard k f
        | none => s.ptpHeard k f := by
  obtain ⟨hh, -, -, -⟩ := ptpHeard_heardAt (k := k) (f := f) hl
  obtain ⟨h1, h2, h3, h4⟩ := hr
  have htake : (s.ptpHeard k f).takePtp (heardOn s k f) m = (s.ptpHeard k f).takeResponse (heardOn s k f) m := by
    rcases ht with ht | ht <;> simp only [State.takePtp, ht]
  have hport : (heardOn s k f).port = k := rfl
  have hrx : (heardOn s k f).rx = f.rx - latency s k 3 := rfl
  rw [receive_of_ptp hup hg hp, htake, State.takeResponse, hport, hrx, hh.port, hh.keeps.ch.wd rfl]
  dsimp only
  rw [if_neg (by simp [h1, h2, h3, h4])]
  simp only [beq_iff_eq] <;> rfl

theorem execPeerDelayResponse_of_twoStep (hup : portUp s k = true) (hl : s.nt.ports.length = 2) (hg : frameGood f = true)
    (hp : ptpOf (ethOf (s.nt.mode == 0) (frameBody f)) = some m) (hr : Responds s k m) (h3 : ptpType m = 3)
    (h2 : ptpTwoStep m = true) : Gives (.peerDelayResponse k f) s fun t =>
      (t.port k).resp = some ⟨ptpSeq m, ptpStamp m, f.rx - latency s k 3, ptpCorr m⟩ ∧ (t.port k).peerAsk = true ∧
      (t.port k).rxFrames = u32 ((s.port k).rxFrames + 1) ∧ t = { s with nt := t.nt, free := t.free } := by
  have he : exec (.peerDelayResponse k f) s = .next (s.receive k f) := rfl
  obtain ⟨hh, -, -, -⟩ := ptpHeard_heardAt (k := k) (f := f) hl
  rw [receive_of_response hup hl hg hp hr (.inl h3), if_pos h3, if_pos h2] at he
  generalize s.ptpHeard k f = u at he hh
  have hport := onPort_port (s := u) (k := k) (f := fun p =>
    { p with resp := some ⟨ptpSeq m, ptpStamp m, f.rx - latency s k 3, ptpCorr m⟩ }) (lt_of_lt_of_eq k.2 hh.len.symm)
  rw [hh.port] at hport
  refine ⟨_, he, ?_, ?_, ?_, (onPort_ch hh.keeps.ch rfl).eq_pick⟩
  · rw [hport]
  · rw [hport]; exact hr.ask
  · rw [hport]

/-- Settles O44: PTP reads the counted frame's port, and what a message does beyond it goes through offset, choice or timestamp. -/
theorem ptpMessagesSteerAndMeasure : Obligations.PtpMessagesSteerAndMeasure := by
  intro s k f m e rx counts goesOn still
  refine ⟨fun hup hl hg hp => ⟨fun h0 => execPtpSync_gives hup hl hg hp h0,
    fun w h8 hw => execPtpFollowUp_gives hup hl hg hp h8 hw, fun h11 => execPtpAnnounce_gives hup hl hg hp h11,
    fun h2 hc => execHsrFrameReceive_of_request hup hl hg hp h2 hc⟩, execPeerDelayRequest_gives,
    fun hup hl hg hp hc hask hasked hseq => ?_⟩
  have hr : Responds s k m := ⟨hc, hask, hasked, hseq⟩
  obtain ⟨hh, hfree, -, -⟩ := ptpHeard_heardAt (k := k) (f := f) hl
  have he : exec (.peerDelayResponse k f) s = .next (s.receive k f) := rfl
  refine ⟨fun h3 h2 => execPeerDelayResponse_of_twoStep hup hl hg hp hr h3 h2, fun x h3 h2 hx => ?_, fun x w h10 hw hs hx => ?_⟩
  · rw [receive_of_response hup hl hg hp hr (.inl h3), if_pos h3, if_neg (by simp [h2])] at he
    exact ⟨_, he, peerResult_completes hh hfree hx ..⟩
  · rw [receive_of_response hup hl hg hp hr (.inr h10), if_neg (by simp [h10]), hw] at he
    dsimp only at he
    rw [if_pos (beq_iff_eq.2 hs)] at he
    exact ⟨_, he, peerResult_completes hh hfree hx ..⟩

end Sys2Proof.Machine
end
